-- ==== Sys2Proof/Word.lean ====
section
/-! DEFINITION. The word types of the CKH-7160 model and the plainest operations on fixed groups of like things. -/

namespace Sys2Proof

/-- A register word (01 R5: registers are 32 bits wide). -/
abbrev Word := BitVec 32
/-- A byte. -/
abbrev Byte := BitVec 8
/-- One datapath word (01 R11), also one barge word (03 R79). -/
abbrev DpWord := BitVec 128
/-- One PCS block (02 R34): the flag is bit 256. -/
abbrev Block := BitVec 257
/-- A 256-bit key, digest or nonce (13). -/
abbrev Key256 := BitVec 256
/-- A trunk port: 0 is T0 (West), 1 is T1 (East), 2 is T2 (Spur) (01 Table 01-1). -/
abbrev Port := Fin 3
/-- A lane of a trunk port: 0 is lane A, 1 is lane B (02). -/
abbrev LaneId := Fin 2
/-- A load channel L0 to L3 (12). -/
abbrev Chan := Fin 4
/-- An internal datapath port P0 to P9 (01 Table 01-1). -/
abbrev DPort := Fin 10

/-- Changes one member of a fixed group. -/
def upd {α : Type} {n : Nat} (v : Vector α n) (i : Fin n) (f : α → α) : Vector α n :=
  v.set i (f v[i])

end Sys2Proof
end

