-- ==== Sys2Proof/Syntax.lean ====
section
/-! DEFINITION. The commands of the CKH-7160 block: one constructor of `Instr` per row of the opcode table, with the
row's operands, and the data those operands are made of. -/

namespace Sys2Proof

/-- The header word of a barge (03 Table 03-1), without the reserved bits. -/
structure Header where
  dst : BitVec 10
  src : BitVec 10
  tunnel : BitVec 12
  queue : BitVec 6
  colour : BitVec 2
  cmark : Bool
  mcast : Bool
  hops : BitVec 6
  tseq : BitVec 16
  len : BitVec 10
  type : BitVec 4
  first : Bool
  last : Bool
  ackreq : Bool
  retx : Bool
  budget : BitVec 2
  tspec : BitVec 32
  deriving DecidableEq, Repr

/-- A barge: its header and its LEN payload bytes (03 R79, R81). -/
structure Barge where
  hdr : Header
  payload : List Byte
  deriving DecidableEq, Repr

/-- The fields of a lock marker block (02 Table 02-3), with the KEPOCH field of 03 Table 03-5. -/
structure Marker where
  span : BitVec 32
  copy : BitVec 2
  step : BitVec 3
  lanes : BitVec 2
  qnext : Bool
  shOp : BitVec 3
  shStep : BitVec 3
  shReason : BitVec 4
  shSpan : BitVec 32
  shPeer : BitVec 32
  stepCap : BitVec 4
  moorRdy : Bool
  epoch : BitVec 24
  kePend : Bool
  keSpan : BitVec 32
  marginA : BitVec 8
  marginB : BitVec 8
  predUp : BitVec 8
  deriving DecidableEq, Repr

/-- What the partner states in the training-block handshake (02 Table 02-6 event 8). -/
structure PartnerHello where
  serial : BitVec 64
  stepMax : BitVec 3
  singleLane : Bool
  quiet : Bool
  precode : BitVec 5
  deriving DecidableEq, Repr

/-- What one channel snapshot of one lane yields (02 R50): the post-equaliser SNR now and the predicted one of steps 1 to 5 (in
0.125 dB) and the coefficient sets (64 taps for each of the live set and steps 1 to 5). -/
structure LaneSnapshot where
  snr : Int
  predicted : List Int
  coefs : List (List (BitVec 16))
  deriving DecidableEq, Repr

/-- What one channel snapshot of a port yields (02 R50, R56): both lanes, the cable length in metres, the insertion loss
at the current Nyquist frequency and the discontinuities (distance in metres, return loss), losses in 0.125 dB. -/
structure Snapshot where
  a : LaneSnapshot
  b : LaneSnapshot
  lengthM : Nat
  loss : Int
  reflections : List (Nat × Int)
  deriving DecidableEq, Repr

/-- Who makes a register access (16 Table 16-5): the journal SOURCE, the requester hub where it is known, the MGMT tag or
PCI Express requester ID, and whether the request is attested (16 R479). -/
structure Requester where
  source : Fin 6
  hub : Option (BitVec 10)
  tag : BitVec 16
  attested : Bool
  deriving DecidableEq, Repr

/-- One barge an adapter offers at its ingress (04 R132, R145): its local tunnel, offered colour, place in its message,
TSPEC and payload; an adapter that floods names the group and TSPEC [31:20] itself. -/
structure Offer where
  tunnel : BitVec 12
  colour : BitVec 2
  first : Bool
  last : Bool
  tspec : BitVec 32
  payload : List Byte
  flood : Option (BitVec 8 × BitVec 12)
  deriving DecidableEq, Repr

/-- A message or multicast barge that a local port receives from the fabric (03 R85, 04 R131, R146): the local tunnel
(0xFFF for a multicast copy), the channel, the sender, TSPEC, CMARK and the payload. -/
structure Msg where
  tunnel : BitVec 12
  channel : BitVec 8
  src : BitVec 10
  tspec : BitVec 32
  cmark : Bool
  payload : List Byte
  deriving DecidableEq, Repr

/-- What a checked read of a memory finds (14 R430, R431): nothing, a corrected word, permanent when the re-read still shows the
error, an uncorrectable word whose re-read is clean, or a permanent error, at a location (01 Table 01-4). -/
inductive EccResult where
  | clean
  | corrected (loc : BitVec 32) (permanent : Bool)
  | transient (loc : BitVec 32)
  | permanent (loc : BitVec 32)
  deriving DecidableEq, Repr

/-- What the check of 05 R184 finds as a barge's cells are read: nothing, or an error in a word of one of its cells (05 R525); of a
corrected word, the one bit cell that was wrong, none where two bits were (01 R18), and whether the re-read still shows it. -/
inductive CellCheck where
  | clean
  | corrected (cell : Fin 4) (word : BitVec 4) (bit : Option (Fin 158)) (permanent : Bool)
  | transient (cell : Fin 4) (word : BitVec 4)
  | permanent (cell : Fin 4) (word : BitVec 4)
  deriving DecidableEq, Repr

/-- A host start-of-frame at a head-end (04 R157): its distance after the hub's tick in ns and the 11-bit frame number. -/
structure SofSeen where
  offset : Int
  usbFrame : BitVec 11
  deriving DecidableEq, Repr

/-- A discovery announcement (04 R121). -/
structure Announce where
  serial : BitVec 64
  hub : BitVec 10
  idValid : Bool
  roleHe : Bool
  ringId : BitVec 8
  ringPos : BitVec 6
  links : BitVec 3
  seq : BitVec 16
  deriving DecidableEq, Repr

/-- What the frame tick samples from outside: the frame-averaged codes of the four analog inputs (10 R334, 17 R510) and
the four die sensors as °C + 64 (06 R212; none where a sensor reports itself invalid). -/
structure FrameMeas where
  ain : Vector (BitVec 12) 4
  die : Vector (Option Byte) 4
  deriving DecidableEq, Repr

/-- What U0 of a head-end answers to a host token (07 R236). -/
inductive UsbReply where
  | ack
  | ackNumP (n : Nat)
  | nak
  | nyet
  | nrdy
  | erdy
  | stall
  | data (bytes : List Byte)
  deriving DecidableEq, Repr

/-- The stage of a transfer that a device completes on a physical port (07 R236). -/
inductive UsbStage where
  | setup
  | data
  | status
  deriving DecidableEq, Repr

/-- A transaction that a device has completed (07 R240, R241): its toggle or sequence number, on a SuperSpeed OUT endpoint the NumP of
its handshake, and what it gave. -/
structure DevicePacket where
  seq : BitVec 5
  numP : BitVec 5
  data : List Byte
  deriving DecidableEq, Repr

/-- What the host's link to U0 goes to (07 R246, R247): suspend, which is U3 on SuperSpeed, or U1 or U2. -/
inductive HostLow where
  | suspend
  | u1
  | u2
  deriving DecidableEq, Repr

/-- What a head-end or a field hub does on a USB link of its own (07 R226, R236, R241, R243, R246, R247, R250, R252). -/
inductive UsbAct where
  | present (superSpeed pullUp : Bool)
  | wakeUp
  | vbus (on : Bool)
  | reset (warm : Bool)
  | suspend
  | resume
  | l1 (besl : Nat) (wake : Bool)
  | startOfFrame (number microframe : Nat)
  | setup (bytes : List Byte)
  | out (ep : Nat) (stream : Option Nat) (bytes : List Byte)
  | inToken (ep : Nat) (stream : Option Nat)
  | status (dirIn : Bool)
  | timeouts (u1 u2 : Nat)
  deriving DecidableEq, Repr

/-- What the local PCI Express link, or the space behind it, answers to a request (08 R258, R268, R272): success with the
bytes read, a failure with the status of Table 08-4 (1 UR, 2 CA, 4 POISONED), or nothing until TGT_TIMEOUT. -/
inductive LinkReply where
  | ok (bytes : List Byte)
  | failed (status : BitVec 4)
  | silent
  deriving DecidableEq, Repr

/-- Where a request of the host goes: into BAR0 or BAR2 (08 R264), or it is an AtomicOp or a locked request, which the endpoint
does not support (Table 08-5). -/
inductive HostTarget where
  | bar0 | bar2 | unsupported
  deriving DecidableEq, Repr

/-- A posted DMA descriptor as the host memory holds it (08 Table 08-9): the buffer, its length field, the message marks, for
a transmit ring the buffer's bytes, and whether reaching the buffer fails. -/
structure DmaDesc where
  addr : BitVec 64
  len : BitVec 16
  first : Bool
  last : Bool
  bytes : List Byte
  bad : Bool
  deriving DecidableEq, Repr

/-- What P4 does on its PCI Express link (08 R263 to R287). -/
inductive PcieAct where
  /-- A read of host or drive memory, or of configuration space. -/
  | read (config : Bool) (addr len : Nat)
  | write (config : Bool) (addr : Nat) (bytes : List Byte)
  /-- The completion of a request of the host or of a drive: status 0 SC, 1 UR, 2 CA. -/
  | completion (drive : Bool) (reqId status : Nat) (bytes : List Byte)
  | msix (vector : Nat)
  /-- The one MSI vector, which a host may use in place of MSI-X (R263). -/
  | msi
  /-- AER reports a request that this port has ended with UR (1) or CA (2) (R263). -/
  | aer (drive : Bool) (reqId status : Nat)
  /-- The level of PE_PERST_N at a field hub (R265). -/
  | perst (low : Bool)
  /-- A descriptor of a ring completed: its address in host memory and the 128 bits written back (Table 08-9). -/
  | descriptor (ring addr : Nat) (word : BitVec 128)
  | retrain
  deriving DecidableEq, Repr

/-- What the check of a CSI-2 packet header finds (09 R289): good, one bit corrected, uncorrectable, or a VCX field. -/
inductive CsiHeader where
  | good
  | corrected
  | bad
  | vcx
  deriving DecidableEq, Repr

/-- How a Modbus response ends (10 R325, R327): valid data after the byte count, an exception code, or a frame that is
discarded. -/
inductive ModbusReply where
  | ok (data : List Byte)
  | exception (code : Byte)
  | broken
  deriving DecidableEq, Repr

/-- The samples of one 62.5 µs step of the HV die (11 R368, R369; 12 R389, R391): VHV in 0.5 V, the rail, the cables and the outputs in
10 mV, the sense voltages in µV, the NTC temperatures and the die sensors as °C + 64 (none where invalid). -/
structure HvSamples where
  vhv : Byte
  vrail : BitVec 16
  vcab : Vector (BitVec 16) 3
  vout : Vector (BitVec 16) 4
  portSense : Vector Int 3
  chanSense : Vector Int 4
  ntc : Vector (Option Byte) 4
  die : Vector (Option Byte) 4
  deriving DecidableEq, Repr

/-- What ends a ramp (11 R348, 12 R379): the FET model at T_LIMIT, RAMP_TMO, or too slow a rise for 2 ms. -/
inductive RampEnd where
  | model | timeout | stall
  deriving DecidableEq, Repr

/-- What the scrubber finds in a word (14 R430 to R432): clean; an error corrected, in one bit cell where the checker places
it there, permanent when the re-read still shows it; an uncorrectable error whose re-read is clean; or data lost. -/
inductive ScrubFind where
  | clean
  | corrected (cell : Option (Fin 158)) (permanent : Bool)
  | retried
  | lost
  deriving DecidableEq, Repr

/-- Who owns a word whose data is lost (14 Table 14-1): nobody; a barge in a basin, by its store entry; a table word, by its
register offset; a trunk's replay buffer; an adapter's message, by its port; a byte of the staging memory. -/
inductive LostOwner where
  | nobody
  | barge (sid : Nat)
  | table (off : BitVec 24)
  | replay (p : Fin 3)
  | message (port : Fin 10)
  | stage (addr : Nat)
  deriving DecidableEq, Repr

/-- A functional access of a protected memory that the model's other commands do not show (14 R429, R431): a read and what its checker
finds, with the owner of the data where it is lost, or a write. A word is named by its number in the scrubber's order. -/
inductive MemAccess where
  | read (word : Fin 471_040) (found : ScrubFind) (owner : LostOwner)
  | write (word : Fin 471_040)
  deriving DecidableEq, Repr

/-- What is read and checked at SCRUB_READ (14 R429, R432): what the scrubber finds in its word, and the functional accesses since its last
read that found or ended an error and that no other command shows. -/
structure CheckedReads where
  found : ScrubFind
  accesses : List MemAccess
  deriving DecidableEq, Repr

/-- What the host has enabled in the endpoint when its link comes up (08 R263, R265): bus mastering, and MSI in place of MSI-X. -/
structure PcieEnables where
  busMaster : Bool
  msi : Bool
  deriving DecidableEq, Repr

/-- What start-up BIST finds (14 Table 14-2, R436): the lanes T0A to T2B, the failing words in order of finding, the word of a fault of
phase 2 that no remap covers, whether phase 3 passes with the macro (of 115, in the scrubber's order) of a checker that misjudges, and
whether phase 4 passes. Words are named by their number in the scrubber's order. -/
structure BistResult where
  lanes : BitVec 6
  words : List (Fin 471_040)
  unrepairable : Option (Fin 471_040)
  eccOk : Bool
  checker : Fin 115
  logicOk : Bool
  deriving DecidableEq, Repr

/-- An image as it stands in flash or is written in recovery: its 256-byte header and its body (16 R469). -/
structure ImageFile where
  header : List Byte
  body : List Byte
  deriving DecidableEq, Repr

/-- What the loader reads from the flash (16 Table 16-1): the images of both banks and the two overlay areas. -/
structure FlashView where
  fwA : ImageFile
  cfgA : ImageFile
  fwB : ImageFile
  cfgB : ImageFile
  ovl0 : List Byte
  ovl1 : List Byte
  deriving DecidableEq, Repr

/-- The commands: one constructor per row of the opcode table, in its order. -/
inductive Instr where
  /-- `POR` (R506): A core-die supply falls below its POR threshold, or the supplies ramp, and the core die enters power-on reset. -/
  | por (vaonRamp : Bool)
  /-- `RST_N_ASSERT` (R21): RST_N is driven low and a cold reset of the digital core starts, stretched to at least 1 ms. -/
  | rstNAssert
  /-- `INTERNAL_RESET_END` (R21): The stretched internal reset ends; ROLE_HE, BOOT0 and BOOT1 are sampled and start-up BIST begins. -/
  | internalResetEnd (roleHe boot0 boot1 testmode : Bool)
  /-- `CLOCK_LOSS` (R16): The clock monitor sees no crystal edge for 8 AON RC periods, asserts FAULT_N and holds the core in cold reset. -/
  | clockLoss
  /-- `CLOCK_RESTORED` (R16): The crystal has run for 2 ms after a loss and the core is released from cold reset. -/
  | clockRestored
  /-- `WARM_RESET` (R23): GLB_CTL.WARM_RESET with the correct CONFIRM starts a warm reset of the digital core. -/
  | warmReset (req : Requester) (confirm : BitVec 16)
  /-- `DP_RESET` (R23): GLB_CTL.DP_RESET with the correct CONFIRM starts a datapath domain reset and the trunk lanes retrain. -/
  | dpReset (req : Requester) (confirm : BitVec 16)
  /-- `FRAME_TICK` (R216): SUBNS wraps to 0 and FRAME advances, driving TICK blocks, records, gate lists, the governor and periodic work. -/
  | frameTick (meas : FrameMeas)
  /-- `BRINGUP_START` (R46): After start-up BIST each enabled port starts transmitting PRBS13 at S1 and begins echo training. -/
  | bringupStart
  /-- `ECHO_TRAINING_END` (R46): The echo-training interval ends and the port moves to acquisition of the partner signal. -/
  | echoTrainingEnd (p : Port)
  /-- `PARTNER_ACQUIRED` (R46): Clock recovery locks on the partner signal and the equalisers have adapted. -/
  | partnerAcquired (p : Port) (ppm : Int)
  /-- `HANDSHAKE` (R46): The training-block handshake is received whole; the link comes up at S1 or is refused for offset or duplicate serial. -/
  | handshake (p : Port) (partner : PartnerHello)
  /-- `CHANNEL_SNAPSHOT` (R50): Every 1 s, or at a probe, the receiver derives the channel model and stores predicted margins and coefficients per step. -/
  | channelSnapshot (p : Port) (snap : Snapshot)
  /-- `LISTENING_ENTER` (R47): A port sees no partner signal for 1 s and enters listening with bursts every 100 ms. -/
  | listeningEnter (p : Port)
  /-- `LISTEN_BURST` (R47): The listening burst timer expires and a 10 ms PRBS13 burst is sent. -/
  | listenBurst (p : Port)
  /-- `PARTNER_ENERGY` (R47): Partner energy is detected while listening and continuous transmission resumes at acquisition. -/
  | partnerEnergy (p : Port) (ms : Nat)
  /-- `BRINGUP_BACKOFF_EXPIRY` (R49): The 1 s restart delay or the 60 s back-off wait between bring-up attempts ends. -/
  | bringupBackoffExpiry (p : Port)
  /-- `SPAN_START` (R37): A new span starts at the transmitter and its lock markers are sent with the current shift, epoch and cap fields. -/
  | spanStart (p : Port)
  /-- `LOCK_MARKER_RX` (R39): A lock marker is received and its step, cap, shift, moor and key-epoch fields are taken in. -/
  | lockMarkerRx (p : Port) (copies : List Block)
  /-- `CODEWORD_RX` (R35): An RS(544,514) codeword is decoded and its 20 blocks passed on, or discarded when uncorrectable. -/
  | codewordRx (p : Port) (lane : LaneId) (symbols : List Nat)
  /-- `ELASTIC_SLIP` (R42): The elastic buffer slips on a running link and counts the slip in TRK_SLIP. -/
  | elasticSlip (p : Port) (ppm : Int)
  /-- `FILLER_DUE` (R41): 2,048 port blocks have passed without a filler and one is inserted. -/
  | fillerDue (p : Port) (idle : Nat)
  /-- `PROPOSE_UP_SHIFT` (R52): The predicted margin one step up has held above UP_MARGIN for UP_DWELL and the governor proposes an up shift. -/
  | proposeUpShift (p : Port)
  /-- `PROPOSE_DOWN_MARGIN` (R52): The current margin falls below DOWN_MARGIN and the governor proposes a down shift. -/
  | proposeDownMargin (p : Port) (snrA snrB : Int)
  /-- `PROPOSE_DOWN_CSR` (R52): The corrected-symbol rate exceeds its limit for CSR_WINDOW and a down shift is proposed. -/
  | proposeDownCsr (p : Port) (lane : LaneId) (corrected total : Nat)
  /-- `PROPOSE_DOWN_BURST` (R52): UNC_BURST uncorrectable codewords within 1,000 make the governor propose one step down. -/
  | proposeDownBurst (p : Port) (lane : LaneId)
  /-- `PROPOSE_BUDGET_SHIFT` (R54): The budget cap differs from the current step and, 500 ms after the last budget shift, a shift is proposed. -/
  | proposeBudgetShift (p : Port)
  /-- `HOLDOFF_EXPIRY` (R53): The up-shift hold-off after a quality-driven down shift ends, or returns to base after 10 min. -/
  | holdoffExpiry (p : Port) (fromStep : BitVec 3)
  /-- `SHIFT_REQ_RX` (R57): A marker carrying REQ is received and the responder answers ACC or REF, resolving collisions. -/
  | shiftReqRx (p : Port)
  /-- `SHIFT_ACC_RX` (R57): An ACC is received before span N-2 and the proposer is committed. -/
  | shiftAccRx (p : Port)
  /-- `SHIFT_REF_RX` (R58): A REF is received and the shift ends refused, with link drop after three failed down shifts. -/
  | shiftRefRx (p : Port)
  /-- `SHIFT_CANCEL` (R57): Span N-2 starts without an ACC and the proposer sends CANCEL and abandons the shift. -/
  | shiftCancel (p : Port)
  /-- `SHIFT_CANCEL_RX` (R57): A CANCEL arrives before span M-1 and the responder withdraws its acceptance. -/
  | shiftCancelRx (p : Port)
  /-- `SHIFT_RESPONDER_COMMIT` (R57): Span M-1 starts with no CANCEL received and the responder is committed. -/
  | shiftResponderCommit (p : Port)
  /-- `SHIFT_TX_SWITCH` (R62): At its switch span the transmitter finishes the codeword group, sends the preamble and resumes at the new rate. -/
  | shiftTxSwitch (p : Port)
  /-- `SHIFT_RX_SWITCH` (R63): The receiver loads stored coefficients, locks to the preamble and aligns on the first new-rate codeword. -/
  | shiftRxSwitch (p : Port) (disturb : Nat)
  /-- `SHIFT_ACQUIRE_FAIL` (R64): No new-rate codeword aligns within 100 µs and the lane is treated as failed. -/
  | shiftAcquireFail (p : Port) (lane : LaneId)
  /-- `SHIFT_CMD_GO` (R65): TRK_SHIFT_CMD.GO proposes a shift to TARGET or completes at once with REFUSED_LOCAL. -/
  | shiftCmdGo (req : Requester) (p : Port) (target : BitVec 3)
  /-- `STEP_LIMIT_WRITE` (R78): A write that changes STEP_MAX or STEP_MIN takes effect at the next evaluation and may propose a shift. -/
  | stepLimitWrite (req : Requester) (p : Port) (ctl : Word)
  /-- `WET_CLEAR` (R56): Ten WET_WINDOWs pass with neither condition and WET clears. -/
  | wetClear (p : Port)
  /-- `LANE_LOSS_OF_SIGNAL` (R67): A lane loses codeword alignment or received power and fails, sending LANE_DOWN on the other lane. -/
  | laneLossOfSignal (p : Port) (lane : LaneId)
  /-- `LANE_DOWN_RX` (R68): A LANE_DOWN is received and transmit dealing moves to the surviving lane at the next group boundary. -/
  | laneDownRx (p : Port) (ctl : Block)
  /-- `LANE_JOIN_ATTEMPT` (R69): The rejoin timer expires and both ends train the failed lane from stored coefficients. -/
  | laneJoinAttempt (p : Port) (lane : LaneId)
  /-- `LANE_JOIN_RX` (R69): A LANE_JOIN is received and the lane rejoins at the named boundary, or LANE_DOWN ends the attempt. -/
  | laneJoinRx (p : Port) (ctl : Block) (locked : Bool)
  /-- `QUIET_ENTER` (R70): Load has stayed below ENTER_UTIL for ENTER_TIME and the transmitter sets QNEXT to quiet lane B. -/
  | quietEnter (p : Port) (util : Nat)
  /-- `WAKE_B` (R71): Queued bytes, a strict-tier barge or lane A failing makes the transmitter send WAKE_B and deal to both lanes. -/
  | wakeB (p : Port) (laneAFailing : Bool)
  /-- `WAKE_B_RX` (R71): A WAKE_B is received and lane B resumes full reception at the named block. -/
  | wakeBRx (p : Port) (ctl : Block)
  /-- `MOOR_ENTER` (R72): Both ends have sent and received MOOR_RDY and the transmitter moors both lanes at its next span. -/
  | moorEnter (p : Port)
  /-- `MOOR_EXIT` (R73): An end leaves Moored by sending the preamble and returns to Active or cold retrains. -/
  | moorExit (p : Port) (dTemp : Nat)
  /-- `MOOR_PREAMBLE_RX` (R73): A preamble is detected on a moored port and the receiver restores its stored coefficients. -/
  | moorPreambleRx (p : Port) (dTemp : Nat)
  /-- `LINK_LOSS` (R67): Both lanes lose signal or heartbeats fail; the link goes down, replay buffers are discarded and bring-up restarts. -/
  | linkLoss (p : Port)
  /-- `PROTOCOL_VIOLATION_LIMIT` (R74): Eight protocol violations within 1 s drop the link and restart bring-up. -/
  | protocolViolationLimit (p : Port)
  /-- `TEST_MODE_WRITE` (R75): Setting or clearing TRK_CTL.TEST_MODE withdraws the port for test or restarts bring-up. -/
  | testModeWrite (req : Requester) (p : Port) (on : Bool)
  /-- `TRK_RETRAIN` (R78): TRK_CTL.RETRAIN drops the link and starts blind bring-up. -/
  | trkRetrain (req : Requester) (p : Port)
  /-- `TRK_ENABLE_WRITE` (R66): A write of TRK_CTL.EN or a lane-off bit takes lanes Off or starts their bring-up. -/
  | trkEnableWrite (req : Requester) (p : Port) (en laneAOff laneBOff : Bool)
  /-- `TEST_CHECKER_ENABLE` (R76): A TRK_TEST_CTL write configures pattern, loopback and checker, enabling the checker clears TRK_TEST_ERR. -/
  | testCheckerEnable (req : Requester) (p : Port) (ctl : Word)
  /-- `LINK_BARGE_TX` (R92): The link layer starts sending a new barge with the next LSEQ and keeps it in the replay buffer. -/
  | linkBargeTx (p : Port)
  /-- `LINK_BARGE_RX` (R93): A barge ending in an END block is checked by CRC and tag and delivered, NAKed or discarded as duplicate. -/
  | linkBargeRx (p : Port) (blocks : List Block)
  /-- `ACK_DELAY_EXPIRY` (R94): ACK_DELAY passes after the first unacknowledged barge and a LACK is sent. -/
  | ackDelayExpiry (p : Port)
  /-- `LACK_RX` (R95): A valid LACK releases acknowledged barges from the replay buffer. -/
  | lackRx (p : Port) (blk : Block)
  /-- `LNAK_RX` (R95): A LNAK acknowledges up to NAK_SEQ-1 and the transmitter replays from NAK_SEQ. -/
  | lnakRx (p : Port) (blk : Block)
  /-- `REPLAY_TIMEOUT` (R96): ACKED has not advanced for REPLAY_TIMEOUT and the transmitter replays from ACKED+1. -/
  | replayTimeout (p : Port)
  /-- `LINK_DISABLE` (R523): Clearing LNK_CTL.EN on a running link ends it at once as a trunk loss. -/
  | linkDisable (req : Requester) (p : Port)
  /-- `HEARTBEAT_TX` (R101): The 50 µs heartbeat timer expires and a HEARTBEAT block is sent. -/
  | heartbeatTx (p : Port)
  /-- `HEARTBEAT_RX` (R101): A valid heartbeat is received, carrying ACK_SEQ, partner state and identity. -/
  | heartbeatRx (p : Port) (blk : Block)
  /-- `HEARTBEAT_LOSS` (R101): No valid heartbeat for 150 µs and the link is lost with HB_LOSS. -/
  | heartbeatLoss (p : Port)
  /-- `TICK_RX` (R160): A TICK from a port updates the master key and, from the upstream port, the time offset and steering. -/
  | tickRx (p : Port) (blk : Block) (rxTime : Nat)
  /-- `DELAY_REQ_TX` (R103): The probe interval, or 1 ms after link up or a shift, expires and a DELAY_REQ is sent. -/
  | delayReqTx (p : Port)
  /-- `DELAY_REQ_RX` (R103): A DELAY_REQ is received and answered within 10 µs with a DELAY_RESP. -/
  | delayReqRx (p : Port) (blk : Block) (t2 t3 : BitVec 52)
  /-- `DELAY_RESP_RX` (R159): A DELAY_RESP is received and the one-way delay is computed and filtered. -/
  | delayRespRx (p : Port) (blk : Block) (t4 : Nat)
  /-- `EPOCH_REQUEST` (R107): TXC reaches 0xF000_0000 or the epoch becomes 24 h old and a new epoch is requested. -/
  | epochRequest (p : Port) (aged : Bool)
  /-- `EPOCH_CHANGE` (R105): The lock marker of KE_SPAN passes and new barges are encrypted under the next epoch. -/
  | epochChange (p : Port)
  /-- `TOWPATH_FRAME_RX` (R109): A Towpath frame is received whole, checked and answered by hardware or placed in the mailbox. -/
  | towpathFrameRx (p : Port) (hdr : Word) (payload : List Byte) (crc : BitVec 16)
  /-- `TOWPATH_SEND` (R110): After the idle gap a queued Towpath frame is transmitted with collision watching. -/
  | towpathSend (p : Port) (collided : Bool)
  /-- `TOWPATH_BACKOFF_EXPIRY` (R110): The collision back-off ends and the frame is tried again or abandoned after 8 collisions. -/
  | towpathBackoffExpiry (p : Port)
  /-- `HELLO_TX` (R113): The HELLO timer expires and a HELLO frame is sent. -/
  | helloTx (p : Port)
  /-- `HELLO_RX` (R113): A HELLO is received and answered; partner capabilities feed power role resolution. -/
  | helloRx (p : Port) (hdr : Word) (payload : List Byte)
  /-- `PARTNER_SEEN_TIMEOUT` (R113): No valid frame for three HELLO periods clears PARTNER_SEEN and HELLO returns to every 1 s. -/
  | partnerSeenTimeout (p : Port)
  /-- `STATUS_REQUEST_RX` (R111): A STATUS request is answered by hardware with the status payload. -/
  | statusRequestRx (p : Port) (hdr : Word)
  /-- `RESET_SOFT_RX` (R115): A RESET_SOFT is answered; Towpath requests are aborted and SCOPE 1 may reset the Lockkeeper domain. -/
  | resetSoftRx (p : Port) (hdr : Word) (payload : List Byte)
  /-- `TP_ANSWER_TIMEOUT` (R114): A request is unanswered for 2 ms and the escalation engine takes its next step. -/
  | tpAnswerTimeout (p : Port) (seq : Byte)
  /-- `TP_ESCALATION_STATUS_RX` (R114): A STATUS answer during escalation leads to a wait, HOLD report or RESET_SOFT by the partner's LK_STATE. -/
  | tpEscalationStatusRx (p : Port) (hdr : Word) (payload : List Byte)
  /-- `TP_RESTART_WAIT_EXPIRY` (R114): The 100 ms wait for a restarting partner ends and the request is sent again with a new SEQ. -/
  | tpRestartWaitExpiry (p : Port)
  /-- `TP_UNESCALATED_TIMEOUT` (R522): A request not covered by escalation ends unanswered after its two resends. -/
  | tpUnescalatedTimeout (p : Port) (seq : Byte)
  /-- `TP_SEND` (R109): LNK_TP_CMD.SEND sends the mailbox frame, or is refused when LEN exceeds 64. -/
  | tpSend (req : Requester) (p : Port)
  /-- `TP_STATUS_REQ` (R522): LNK_TP_CMD.STATUS_REQ sends a STATUS request whose answer goes to the mailbox. -/
  | tpStatusReq (req : Requester) (p : Port)
  /-- `TP_SOFT_RESET` (R115): LNK_TP_CMD.SOFT_RESET sends RESET_SOFT with SOFT_SCOPE. -/
  | tpSoftReset (req : Requester) (p : Port) (scope : Bool)
  /-- `TP_HARD_RESET` (R117): LNK_TP_CMD.HARD_RESET sends the 5 ms hard-reset break and abandons outstanding requests. -/
  | tpHardReset (req : Requester) (p : Port)
  /-- `TP_RX_RELEASE` (R119): LNK_TP_CMD.RX_RELEASE frees the receive mailbox. -/
  | tpRxRelease (req : Requester) (p : Port)
  /-- `FAST_SWAP_PATTERN_RX` (R116): Three valid 500 kHz cycles are recognised and reported to the power path. -/
  | fastSwapPatternRx (p : Port)
  /-- `HARD_RESET_BREAK_RX` (R117): 4 ms of break tone is recognised and the digital core enters cold reset, unless the guard ignores it. -/
  | hardResetBreakRx (p : Port) (fresh : Bool)
  /-- `BREAK_RESET_RELEASE` (R117): The break ends, or 9 ms pass, and the break-caused reset is released after 1 ms. -/
  | breakResetRelease (p : Port) (toneEnded : Bool)
  /-- `BREAK_GUARD_EXPIRY` (R118): The 10 s break guard on a port ends. -/
  | breakGuardExpiry (p : Port)
  /-- `DISCOVERY_ANNOUNCE_TX` (R121): At admission or every 10 s the Lockkeeper sends a discovery announcement on every admitted port. -/
  | discoveryAnnounceTx
  /-- `DISCOVERY_ANNOUNCE_RX` (R121): A new announcement is relayed once on every other admitted port and checked for a duplicate ID. -/
  | discoveryAnnounceRx (p : Port) (a : Announce)
  /-- `ROUTE_ENTRY_COMMIT` (R125): A write of route-entry word 0 commits the entry and advances GEN when it changes. -/
  | routeEntryCommit (req : Requester) (dst : BitVec 10) (value : BitVec 32)
  /-- `TUNNEL_MAP_COMMIT` (R125): A write of tunnel-map word 1 commits both words and may clear tunnel state. -/
  | tunnelMapCommit (req : Requester) (t : BitVec 12) (value : BitVec 32)
  /-- `GROUP_ENTRY_COMMIT` (R125): A write of a multicast group entry commits it, group 255 excepted. -/
  | groupEntryCommit (req : Requester) (g : Byte) (value : BitVec 32)
  /-- `COMMIT_HOLD_EXPIRY` (R126): A commit held because the entry was committed less than 1 ms earlier takes effect. -/
  | commitHoldExpiry
  /-- `TRUNK_INGRESS_LOOKUP` (R131): A barge from a trunk is delivered locally, replicated, dropped or forwarded by its route entry, then admitted. -/
  | trunkIngressLookup (p : Port) (barge : Option Barge)
  /-- `ADAPTER_INGRESS_LOOKUP` (R132): A barge from an adapter takes its header from the tunnel map, is metered by its weir and admitted. -/
  | adapterIngressLookup (port : DPort) (offer : Option Offer)
  /-- `LOCKKEEPER_BARGE_INGRESS` (R133): A barge from P8 with a complete header is placed by case 4 or the route entry, or sent on its named port. -/
  | lockkeeperBargeIngress (barge : Option (Barge × Option Port))
  /-- `ADMISSION_RETRY` (R173): A held RELIABLE or P8 barge is offered again and admitted when room exists. -/
  | admissionRetry (port : DPort)
  /-- `WEIR_HOLD_RETRY` (R204): A RELIABLE barge held red by a DROP_RED weir is metered again and proceeds when coloured green or yellow. -/
  | weirHoldRetry (port : DPort)
  /-- `TACK_RX` (R141): A TACK reaching its tunnel applies ACK, NAK, OUT_OF_WINDOW, SYNC_ACK or PARTIAL_REFUSED. -/
  | tackRx (tack : Barge)
  /-- `SYNC_TX` (R138): A tunnel sender with TX_SYNCED clear sends a SYNC with its oldest or next TSEQ. -/
  | syncTx (tunnel : BitVec 12)
  /-- `SYNC_REPEAT` (R138): tReplay expires for a RELIABLE sender awaiting SYNC_ACK, or 1 ms for an ORDERED second SYNC, and the SYNC is sent again. -/
  | syncRepeat (tunnel : BitVec 12)
  /-- `SYNC_RX` (R138): A SYNC sets RX_EXPECT and RX_SYNCED, discards an open message and is answered by SYNC_ACK for RELIABLE. -/
  | syncRx (sync : Barge)
  /-- `TUNNEL_ACK_DELAY_EXPIRY` (R140): 100 µs after the first unacknowledged in-order barge a RELIABLE receiver sends ACK. -/
  | tunnelAckDelayExpiry (tunnel : BitVec 12)
  /-- `TREPLAY_EXPIRY` (R142): TX_OLDEST has not advanced for tReplay; outstanding barges are resent or the tunnel stalls. -/
  | treplayExpiry (tunnel : BitVec 12)
  /-- `AGE_SWEEP` (R170): At each tick VOQ heads 13 or more ticks old are dropped. -/
  | ageSweep
  /-- `PORT_ROUTABILITY_LOSS` (R149): A trunk port stops being routable, sets its own protection bit and starts the VOQ walk. -/
  | portRoutabilityLoss (p : Port)
  /-- `VOQ_WALK_DONE` (R155): The walk of VOQs toward a lost port finishes relinking or dropping, releasing waiting lookups. -/
  | voqWalkDone (p : Port)
  /-- `ROUTE_NOTICE_TX` (R151): Within 10 µs of losing a ring port or spur the hub sends a route notice and repeats it each tick. -/
  | routeNoticeTx (p : Port)
  /-- `ROUTE_NOTICE_RX` (R152): A route notice of the own ring sets or clears its bit and is forwarded on the other ring port. -/
  | routeNoticeRx (p : Port) (notice : Barge)
  /-- `ROUTE_NOTICE_AGE_EXPIRY` (R152): A notice-set protection bit is not refreshed for 5 ms and clears. -/
  | routeNoticeAgeExpiry (spur : Bool) (index : BitVec 6)
  /-- `WTR_EXPIRY` (R154): The wait-to-restore ends; the port becomes routable and restore notices are sent three times. -/
  | wtrExpiry (p : Port)
  /-- `TIME_KEY_LAPSE` (R156): No valid TICK arrives on a port for 3 ms and its master key lapses, re-electing the master. -/
  | timeKeyLapse (p : Port)
  /-- `UPSTREAM_TICK_TIMEOUT` (R160): No upstream TICK for 3 ms clears LOCKED and the hub holds over. -/
  | upstreamTickTimeout
  /-- `HOST_SOF_LOCK` (R157): The master locks to the host's start-of-frame, stepping once if needed and recording FAB_SOF_MAP. -/
  | hostSofLock (sof : SofSeen)
  /-- `CROSSBAR_GRANT` (R182): An egress with room whose scheduler chose a queue grants the oldest head barge, and the crossing runs. -/
  | crossbarGrant (checks : List (DPort × CellCheck))
  /-- `BASIN_RESERVE_WRITE` (R167): A write of a port reserve is applied or refused by its limits. -/
  | basinReserveWrite (req : Requester) (i : Fin 10) (value : BitVec 32)
  /-- `LOOPBACK_BARGE` (R192): A barge delivered to P9 on an enabled channel re-enters under the channel's local tunnel. -/
  | loopbackBarge
  /-- `PEAK_CLR` (R164): SWC_CTL.PEAK_CLR sets every PEAK to the current IN_USE. -/
  | peakClr (req : Requester)
  /-- `WEIR_COMMIT` (R205): A write of weir word 0 commits the staged words and fills both buckets. -/
  | weirCommit (req : Requester) (n : BitVec 9) (value : BitVec 32)
  /-- `GATE_ENTRY_ADVANCE` (R206): A gate entry's DURATION expires and the next entry's mask takes over. -/
  | gateEntryAdvance (port : DPort)
  /-- `GATE_CYCLE_START` (R206): The gate cycle time expires and entry 0 of the active bank starts again. -/
  | gateCycleStart (port : DPort)
  /-- `TAKEOVER_ARM` (R208): A write of SCH_Pp_TAKE_CTL with ARM arms a takeover at time T or is refused as late. -/
  | takeoverArm (req : Requester) (i : Fin 10) (subns : BitVec 20)
  /-- `TAKEOVER_DISARM` (R208): A write with DISARM clears ARMED and updates SUBNS. -/
  | takeoverDisarm (req : Requester) (i : Fin 10) (subns : BitVec 20)
  /-- `GATE_TAKEOVER` (R208): Local time reaches T and the pending gate bank becomes active. -/
  | gateTakeover (port : DPort)
  /-- `SCH_Q_SEL_WRITE` (R223): A write of SCH_Q_SEL snapshots the selected queue and port state for readback. -/
  | schQSelWrite (req : Requester) (value : BitVec 32)
  /-- `BUDGET_LEVEL_FALL` (R215): The fall count reaches FALL_HOLD and the level falls one step. -/
  | budgetLevelFall
  /-- `CAP_RAISE_DELAY_EXPIRY` (R218): 500 ms after the last change a higher trunk step cap is published. -/
  | capRaiseDelayExpiry
  /-- `SHED_RESTORE` (R222): RESTORE_HOLD passes with room below the threshold and the shed channel is armed again. -/
  | shedRestore (y : Chan)
  /-- `RAMP_FREEZE_END` (R214): The tick after every ramping channel reached power-good or off, or RAMP_FREEZE_MAX, ends the freeze. -/
  | rampFreezeEnd
  /-- `USB_U0_CONNECT` (R226): A head-end whose enable, VBUS and VID conditions hold presents termination and pull-up to the host, or removes them. -/
  | usbU0Connect (vbus : Bool) (speed : BitVec 2)
  /-- `PORT_MAP_WRITE` (R256): A port-map commit is refused beyond 90 entries or acts as disconnect and reconnect. -/
  | portMapWrite (req : Requester) (i : Byte) (value : BitVec 32)
  /-- `HOST_SETUP` (R236): The host sends SETUP to a mapped device; the head-end ACKs and forwards it, rewriting SET_ADDRESS. -/
  | hostSetup (ss : Bool) (addr : BitVec 7) (bytes : List Byte)
  /-- `HOST_OUT_DATA` (R236): The host sends OUT data; the head-end accepts it on credit and forwards it. -/
  | hostOutData (ss : Bool) (addr : BitVec 7) (ep : BitVec 4) (seq : BitVec 5) (stream : Option (BitVec 16)) (data : Option (List Byte))
  /-- `HOST_IN_TOKEN` (R236): The host sends an IN token; buffered data is returned or NAK/NRDY and IN_REQ follow. -/
  | hostInToken (ss : Bool) (addr : BitVec 7) (ep : BitVec 4) (stream : Option (BitVec 16)) (acked : Bool)
  /-- `HOST_STATUS_STAGE` (R236): The host runs a status stage, completed once the remote RESULT arrives. -/
  | hostStatusStage (ss : Bool) (addr : BitVec 7)
  /-- `HOST_ISO_TOKEN` (R245): The host's isochronous token in microframe n is served or forwarded with delay D. -/
  | hostIsoToken (ss : Bool) (addr : BitVec 7) (ep : BitVec 4) (dirIn : Bool) (n : BitVec 14) (data : List Byte)
  /-- `HOST_SPLIT_TRANSACTION` (R242): A start- or complete-split for a full- or low-speed device is answered by the virtual translator. -/
  | hostSplitTransaction (addr : BitVec 7) (start : Bool) (stage : UsbStage) (ep : BitVec 4) (dirIn : Bool) (seq : BitVec 1) (acked : Bool)
    (data : List Byte)
  /-- `HOST_LPM_TOKEN` (R247): A USB 2.0 LPM token is answered ACK with L1 sent, or NYET. -/
  | hostLpmToken (i : Byte) (besl : BitVec 4) (wake : Bool)
  /-- `HOST_PORT_POWER` (R252): The host sets or clears PORT_POWER and POWER_ON or POWER_OFF is sent. -/
  | hostPortPower (i : Byte) (on : Bool)
  /-- `HOST_PORT_SUSPEND` (R246): The host suspends a virtual port and SUSPEND is sent. -/
  | hostPortSuspend (i : Byte)
  /-- `HOST_PORT_RESUME` (R246): The host resumes a virtual port and RESUME is sent unless merged with a remote wake. -/
  | hostPortResume (i : Byte)
  /-- `HOST_PORT_RESET` (R250): The host resets a virtual port; transfers are aborted, the epoch advances and RESET is sent. -/
  | hostPortReset (i : Byte) (warm : Bool)
  /-- `HOST_LINK_SUSPEND` (R246): The host link to U0 suspends and SUSPEND goes to every mapped port not suspended. -/
  | hostLinkSuspend (low : HostLow)
  /-- `HOST_LINK_RESUME` (R246): The host link to U0 resumes and RESUME goes to the ports it suspended. -/
  | hostLinkResume
  /-- `HOST_U0_RESET` (R251): The host resets U0 or VBUS is lost; all proxy state is discarded and DISABLE sent to every mapped port. -/
  | hostU0Reset (vbusLost : Bool)
  /-- `PORT_CMD_POWER_ON` (R252): POWER_ON at a field hub drives Ux_VBUSEN high. -/
  | portCmdPowerOn (msg : Option Msg)
  /-- `PORT_CMD_POWER_OFF` (R252): POWER_OFF at a field hub drives Ux_VBUSEN low. -/
  | portCmdPowerOff (msg : Option Msg)
  /-- `PORT_CMD_RESET` (R250): RESET makes the field hub discard held messages and drive reset on the physical port. -/
  | portCmdReset (msg : Option Msg)
  /-- `PORT_CMD_WARM_RESET` (R250): WARM_RESET makes the field hub drive a warm reset on the physical port. -/
  | portCmdWarmReset (msg : Option Msg)
  /-- `PORT_CMD_SUSPEND` (R246): SUSPEND drives suspend or U3 on the physical port and stops SOF. -/
  | portCmdSuspend (msg : Option Msg)
  /-- `PORT_CMD_RESUME` (R246): RESUME drives resume on the physical port. -/
  | portCmdResume (msg : Option Msg)
  /-- `PORT_CMD_DISABLE` (R251): DISABLE disables the physical port and keeps VBUS. -/
  | portCmdDisable (msg : Option Msg)
  /-- `PORT_CMD_L1` (R247): L1 makes the field hub attempt L1 on the physical link. -/
  | portCmdL1 (msg : Option Msg) (accepted : Bool)
  /-- `PORT_CMD_U_TIMEOUT` (R247): U_TIMEOUT sets the U1 and U2 timeouts of the physical link. -/
  | portCmdUTimeout (msg : Option Msg)
  /-- `PORT_CMD_SOF_OFFSET` (R244): SOF_OFFSET sets the offset of the regenerated USB frame number. -/
  | portCmdSofOffset (msg : Option Msg)
  /-- `PORT_CMD_SS_HOLD` (R251): SS_HOLD holds SuperSpeed off on the physical port or releases it. -/
  | portCmdSsHold (msg : Option Msg)
  /-- `PORT_EVENT_CONNECT` (R254): CONNECT reports a device with its speed on the virtual port. -/
  | portEventConnect (msg : Option Msg)
  /-- `PORT_EVENT_DISCONNECT` (R233): DISCONNECT reports the virtual port empty and discards device state. -/
  | portEventDisconnect (msg : Option Msg)
  /-- `PORT_EVENT_RESET_DONE` (R250): RESET_DONE sets PORT_ENABLE, speed and C_PORT_RESET. -/
  | portEventResetDone (msg : Option Msg)
  /-- `PORT_EVENT_OVER_CURRENT` (R253): OVER_CURRENT sets or clears PORT_OVER_CURRENT and its change flag. -/
  | portEventOverCurrent (msg : Option Msg)
  /-- `PORT_EVENT_REMOTE_WAKE` (R248): REMOTE_WAKE clears suspend, sets the change flag and may drive remote wake upstream. -/
  | portEventRemoteWake (msg : Option Msg)
  /-- `PORT_EVENT_RESUME_DONE` (R246): RESUME_DONE completes a resume on the virtual port. -/
  | portEventResumeDone (msg : Option Msg)
  /-- `PORT_EVENT_DISABLED` (R239): DISABLED reports the virtual port disabled with its cause. -/
  | portEventDisabled (msg : Option Msg)
  /-- `PORT_EVENT_L1_STATE` (R247): L1_STATE reports whether the physical link entered or left L1. -/
  | portEventL1State (msg : Option Msg)
  /-- `PROXY_SETUP_RX` (R236): A SETUP message at the field hub runs the setup stage on the device. -/
  | proxySetupRx (msg : Option Msg)
  /-- `PROXY_OUT_DATA_RX` (R236): OUT_DATA at the field hub is sent to the device in order. -/
  | proxyOutDataRx (msg : Option Msg)
  /-- `PROXY_IN_REQ_RX` (R237): IN_REQ makes the field hub read ahead up to the packets requested. -/
  | proxyInReqRx (msg : Option Msg)
  /-- `PROXY_IN_DATA_RX` (R236): IN_DATA at the head-end is buffered for the host's next IN tokens. -/
  | proxyInDataRx (msg : Option Msg)
  /-- `PROXY_RESULT_RX` (R238): RESULT at the head-end completes a status stage or applies STALL, ERROR or BABBLE handling. -/
  | proxyResultRx (msg : Option Msg)
  /-- `PROXY_ISO_OUT_RX` (R245): ISO_OUT is sent to the device in microframe n+D, or discarded as late. -/
  | proxyIsoOutRx (msg : Option Msg)
  /-- `PROXY_ISO_IN_RX` (R245): ISO_IN is buffered for the host token in microframe m+D, or discarded as late. -/
  | proxyIsoInRx (msg : Option Msg)
  /-- `PROXY_EP_RESET_RX` (R240): EP_RESET resets the head-end's toggle and buffers of the endpoint. -/
  | proxyEpResetRx (msg : Option Msg)
  /-- `DEVICE_STALL` (R238): The device answers STALL and the field hub sends RESULT STALL. -/
  | deviceStall (x : Fin 2) (ep : BitVec 4) (dirIn : Bool)
  /-- `DEVICE_XFER_ERROR` (R239): The field hub's attempts end without success and RESULT ERROR is sent. -/
  | deviceXferError (x : Fin 2) (ep : BitVec 4) (dirIn : Bool)
  /-- `DEVICE_BABBLE` (R239): Babble produces RESULT BABBLE and disables the physical port. -/
  | deviceBabble (x : Fin 2) (ep : BitVec 4) (dirIn : Bool)
  /-- `DEVICE_REMOTE_WAKE` (R248): The field hub detects a device wake, resumes the link and sends REMOTE_WAKE. -/
  | deviceRemoteWake (x : Fin 2)
  /-- `DEVICE_ATTACH` (R254): A device connects or disconnects at a physical port and CONNECT or DISCONNECT is sent. -/
  | deviceAttach (x : Fin 2) (speed : BitVec 3)
  /-- `INTERRUPT_POLL` (R236): The field hub polls an interrupt IN endpoint at its interval. -/
  | interruptPoll (x : Fin 2) (ep : BitVec 4) (polled : Bool) (kept : Nat) (pkt : Option DevicePacket)
  /-- `MICROFRAME_START` (R243): A 125 µs microframe starts and SOF or isochronous timestamp packets are regenerated. -/
  | microframeStart (k : Fin 8) (isoIn : List (Fin 2 × BitVec 4 × List Byte))
  /-- `PHYSICAL_RESET_END` (R250): RESET_MS of physical reset ends and RESET_DONE is sent with the speed. -/
  | physicalResetEnd (x : Fin 2) (speed : BitVec 3)
  /-- `RESET_LIMIT_EXPIRY` (R250): No RESET_DONE within RESET_LIMIT and the virtual port is reported disabled. -/
  | resetLimitExpiry (i : Byte)
  /-- `VBUS_GOOD_TIMEOUT` (R252): VBUS is not present within PWR2GOOD × 2 ms of POWER_ON and an over-current is reported. -/
  | vbusGoodTimeout (x : Fin 2)
  /-- `OC_DEGLITCH_EXPIRY` (R253): Ux_OC_N has been low, or high again, for OC_DEGLITCH; the port is unpowered or the end is reported. -/
  | ocDeglitchExpiry (x : Fin 2) (low : Bool)
  /-- `BRIDGE_RD_RX` (R268): A RD message at the target reads its space and returns CPL_D or an error. -/
  | bridgeRdRx (msg : Option Msg) (link : LinkReply)
  /-- `BRIDGE_WR_P_RX` (R268): A posted write at the target is carried out, with PWERR on failure. -/
  | bridgeWrPRx (msg : Option Msg) (link : LinkReply)
  /-- `BRIDGE_WR_NP_RX` (R262): A non-posted write is carried out and completed by CPL. -/
  | bridgeWrNpRx (msg : Option Msg) (link : LinkReply)
  /-- `BRIDGE_CPL_D_RX` (R269): A completion with data finishes the requester's read. -/
  | bridgeCplDRx (msg : Option Msg)
  /-- `BRIDGE_CPL_RX` (R269): A completion without data finishes a WR_NP. -/
  | bridgeCplRx (msg : Option Msg)
  /-- `BRIDGE_PWERR_RX` (R276): A PWERR logs a failed write in the posted-write error log. -/
  | bridgePwerrRx (msg : Option Msg)
  /-- `LOCK_REQ_RX` (R279): A LOCK_REQ is decided by crossing, holder and grant rules. -/
  | lockReqRx (msg : Option Msg)
  /-- `LOCK_GRANT_RX` (R279): A LOCK_GRANT makes the context hold the lock, or is answered with LOCK_REL if withdrawn. -/
  | lockGrantRx (msg : Option Msg)
  /-- `LOCK_RETRY_RX` (R279): A LOCK_RETRY starts the context's random back-off. -/
  | lockRetryRx (msg : Option Msg)
  /-- `LOCK_REL_RX` (R281): A LOCK_REL ends the lock and releases waiting requests. -/
  | lockRelRx (msg : Option Msg)
  /-- `LOCK_BROKEN_RX` (R281): A LOCK_BROKEN sets the context's RESULT to BROKEN. -/
  | lockBrokenRx (msg : Option Msg)
  /-- `LOCK_CTL_REQ` (R278): WIN_LOCK_CTL.REQ requests a lock or is refused locally. -/
  | lockCtlReq (req : Requester) (hub : BitVec 10) (space : BitVec 2)
  /-- `LOCK_CTL_RELEASE` (R281): WIN_LOCK_CTL.RELEASE sends LOCK_REL after earlier accesses complete. -/
  | lockCtlRelease (req : Requester) (hub : BitVec 10) (space : BitVec 2)
  /-- `LOCK_CTL_RELEASE_ALL` (R281): WIN_LOCK_CTL.RELEASE_ALL releases every lock of the context. -/
  | lockCtlReleaseAll (req : Requester)
  /-- `LOCK_BACKOFF_EXPIRY` (R279): The lock back-off ends and the request is sent again or fails at RETRY_MAX. -/
  | lockBackoffExpiry
  /-- `LOCK_HOLD_LIMIT` (R281): A space held for 1 ms is broken and LOCK_BROKEN sent to the holder. -/
  | lockHoldLimit (mem : Bool)
  /-- `HOST_BAR_ACCESS` (R267): A host access through a BAR2 window maps to a range and is issued or completes with UR. -/
  | hostBarAccess (target : HostTarget) (write : Bool) (offset : BitVec 36) (len : Nat) (data : List Byte) (reqId : BitVec 16) (link : LinkReply)
  /-- `DRIVE_INBOUND_ACCESS` (R267): A field drive's request through an inbound window maps to a range. -/
  | driveInboundAccess (write : Bool) (addr : BitVec 64) (len : Nat) (data : List Byte) (reqId : BitVec 16) (link : LinkReply)
  /-- `DRIVE_MSI` (R287): A drive write to the MSI range sets a WIN_DEV_MSI bit. -/
  | driveMsi (addr : BitVec 64) (data : BitVec 32)
  /-- `PREFETCH_IDLE_EXPIRY` (R270): A prefetch buffer not hit for 500 µs is discarded. -/
  | prefetchIdleExpiry (fwa : BitVec 64)
  /-- `CPL_TIMEOUT` (R273): A read or WR_NP gets no completion in time; it is abandoned, logged and possibly reissued. -/
  | cplTimeout (tag : Byte)
  /-- `TARGET_TIMEOUT` (R272): A request to the local link exceeds TGT_TIMEOUT and completes with TIMEOUT. -/
  | targetTimeout (tunnel : BitVec 12) (tag : Byte)
  /-- `TAG_QUARANTINE_EXPIRY` (R272): An abandoned tag's 100 ms quarantine ends and it may be reused. -/
  | tagQuarantineExpiry (tag : Byte)
  /-- `PCIE_LINK_DOWN` (R265): PERST asserts or the link stays out of L0 for 10 ms; requests are abandoned and rings stopped. -/
  | pcieLinkDown (perst : Bool)
  /-- `RANGE_COMMIT` (R266): A write of range word 0 commits the entry and advances AGEN. -/
  | rangeCommit (req : Requester) (n : Fin 16) (value : BitVec 32)
  /-- `RP_RETRAIN` (R263): WIN_RP_CTL.RETRAIN retrains the root-port link. -/
  | rpRetrain (req : Requester)
  /-- `DMA_TAIL_WRITE` (R282): The host advances a ring's TAIL, posting descriptors. -/
  | dmaTailWrite (req : Requester) (n : Fin 64) (tail : BitVec 16)
  /-- `DMA_RX_BARGE` (R283): A barge for a receive ring is written into posted descriptors or dropped. -/
  | dmaRxBarge (n : Fin 64) (descs : List DmaDesc)
  /-- `DMA_TX_MESSAGE` (R283): A transmit ring reads a message from its descriptors and sends it as barges. -/
  | dmaTxMessage (n : Fin 64) (descs : List DmaDesc)
  /-- `DMA_INTERRUPT_MODERATION` (R283): MOD_COUNT descriptors or MOD_US after the first fire MSI-X vector n. -/
  | dmaInterruptModeration (n : Fin 64) (byTime : Bool)
  /-- `DMA_RING_CONFIG_WRITE` (R288): A ring configuration write is refused while enabled or, clearing EN, resets HEAD and TAIL. -/
  | dmaRingConfigWrite (req : Requester) (n : Fin 64) (word : Fin 3) (value : BitVec 32)
  /-- `STAGE_RING_WRITE` (R284): A channel 0x41 barge is written into the staging ring or dropped for lack of room. -/
  | stageRingWrite
  /-- `CSI_FRAME_START` (R293): An FS is stamped, FCNT increments and decimation decides whether the frame is sent. -/
  | csiFrameStart (vc : BitVec 2) (hdr : CsiHeader)
  /-- `CSI_LINE_RX` (R292): A selected long packet adds a line to the segment, sending the segment when full. -/
  | csiLineRx (vc : BitVec 2) (dt : BitVec 6) (hdr : CsiHeader) (crcOk : Bool) (data : List Byte)
  /-- `CSI_FRAME_END` (R292): An FE sends the last segment of the frame. -/
  | csiFrameEnd (vc : BitVec 2) (hdr : CsiHeader)
  /-- `CSI_STREAM_LOSS` (R294): No FS for LOSS_MS marks the stream lost and closes an open frame with TRUNC. -/
  | csiStreamLoss (n : Fin 4)
  /-- `DSI_FRAME_START` (R298): A scheduled display frame starts and takes the oldest buffered source frame. -/
  | dsiFrameStart
  /-- `DSI_LINE_START` (R300): A display line is output from the source frame or filled. -/
  | dsiLineStart (y : BitVec 16)
  /-- `DSI_SEGMENT_RX` (R299): A video segment for the display is buffered or discarded. -/
  | dsiSegmentRx (msg : Option Msg)
  /-- `DSI_CMD_SEND` (R301): VID_DSI_CMD.SEND queues a low-power packet, or is refused while BUSY. -/
  | dsiCmdSend (req : Requester) (value : BitVec 32)
  /-- `DSI_CMD_SENT` (R301): The queued packet goes out at vertical blanking and CMD_DONE sets. -/
  | dsiCmdSent
  /-- `ETH_LOCAL_FRAME_RX` (R305): A frame on a local port is classified, learned and forwarded locally or to the fabric. -/
  | ethLocalFrameRx (x : Fin 3) (frame : List Byte) (fcsOk : Bool)
  /-- `ETH_FABRIC_FRAME_RX` (R305): A frame from the fabric is learned and forwarded to local member ports. -/
  | ethFabricFrameRx (msg : Option Msg)
  /-- `ETH_TX_START` (R308): A buffered frame starts on an idle E0 or at the PHY's next transmit opportunity. -/
  | ethTxStart (x : Fin 3)
  /-- `ETH_AGE_EXPIRY` (R306): A dynamic learning entry not refreshed for AGE seconds becomes invalid. -/
  | ethAgeExpiry (i : BitVec 10)
  /-- `ETH_LEARN_COMMIT` (R309): A software write of learning word 1 commits the entry, winning over a hardware update. -/
  | ethLearnCommit (req : Requester) (i : BitVec 10) (value : BitVec 32)
  /-- `ETH_VLAN_COMMIT` (R305): A write of VLAN word 0 commits the entry. -/
  | ethVlanCommit (req : Requester) (v : Fin 64) (value : BitVec 32)
  /-- `MDIO_GO` (R302): ETH_MDIO_CMD.GO starts a management frame, completing with MDIO_DONE. -/
  | mdioGo (req : Requester) (value : BitVec 32)
  /-- `SIGNAL_BARGE_RX` (R313): Every record of a SIGNAL barge is applied to its OUT entry before frames or writes are queued. -/
  | signalBargeRx (msg : Option Msg)
  /-- `SIGNAL_BATCH_EXPIRY` (R312): BATCH_US after its first record a gathered record barge is offered to P7. -/
  | signalBatchExpiry (tunnel : BitVec 12)
  /-- `SIGNAL_ENTRY_COMMIT` (R336): A write of signal word 0 commits the entry and may reset its state and apply DEFAULT. -/
  | signalEntryCommit (req : Requester) (i : BitVec 10) (value : BitVec 32)
  /-- `SIGNAL_STALE` (R318): An IN entry without update for TIMEOUT takes quality STALE. -/
  | signalStale (i : BitVec 10)
  /-- `SIGNAL_SUBSTITUTE` (R319): An OUT entry without records for TIMEOUT applies DEFAULT. -/
  | signalSubstitute (i : BitVec 10)
  /-- `CAN_FRAME_RX` (R322): A received CAN frame matches a receive entry and is unpacked into IN signals. -/
  | canFrameRx (n : Fin 4) (ide fd rtr : Bool) (id : BitVec 29) (data : List Byte)
  /-- `CAN_FRAME_LOAD` (R323): The lowest-ID pending frame is loaded into the controller and transmission starts. -/
  | canFrameLoad (n : Fin 4)
  /-- `CAN_FRAME_TX_DONE` (R323): A CAN frame completes transmission. -/
  | canFrameTxDone (n : Fin 4)
  /-- `CAN_BUS_OFF` (R324): A controller goes bus-off; its signals take COMM_FAIL and an alarm is raised. -/
  | canBusOff (n : Fin 4)
  /-- `CAN_BUS_RECOVER` (R324): After 128 occurrences of 11 recessive bits the controller recovers. -/
  | canBusRecover (n : Fin 4)
  /-- `MODBUS_TXN_START` (R326): An idle UART starts the next queued write or due read. -/
  | modbusTxnStart (u : Fin 2)
  /-- `MODBUS_RESPONSE_RX` (R327): A response is received and unpacked into signals, or an exception is recorded. -/
  | modbusResponseRx (u : Fin 2) (reply : ModbusReply)
  /-- `MODBUS_TIMEOUT` (R327): No valid response within TIMEOUT; the request is retried or the entry fails. -/
  | modbusTimeout (u : Fin 2)
  /-- `MODBUS_BROADCAST_IDLE_END` (R326): The 100 ms idle after a broadcast write ends. -/
  | modbusBroadcastIdleEnd (u : Fin 2)
  /-- `FIO_EDGE` (R330): An input level has held for DEBOUNCE and an edge is accepted, updating count and signals. -/
  | fioEdge (p : Fin 16) (high : Bool)
  /-- `FIO_CHATTER_WINDOW_END` (R331): A 100 ms edge window ends, entering or leaving CHATTER. -/
  | fioChatterWindowEnd (p : Fin 16)
  /-- `FIO_STUCK` (R332): An input active for STUCK_S enters STUCK. -/
  | fioStuck (p : Fin 16)
  /-- `HV_UVLO_ENTER` (R338): VHV falls below its lockout and all seven switches open. -/
  | hvUvloEnter
  /-- `HV_UVLO_RELEASE` (R338): VHV rises above its lockout and every TPW and LDC field takes its reset value. -/
  | hvUvloRelease
  /-- `PROBE_START` (R347): An eligible OPEN port, once a second or on PROBE command, drives the signature probe. -/
  | probeStart (p : Port)
  /-- `PROBE_COMPLETE` (R347): The probe's two levels complete, R is recorded and two valid results energise the cable. -/
  | probeComplete (p : Port) (r vcab : BitVec 16)
  /-- `TPW_PROBE_CMD` (R347): TPW_Tx_CMD.PROBE probes once from OPEN. -/
  | tpwProbeCmd (req : Requester) (p : Port)
  /-- `TPW_GO_OPEN` (R339): GO with ROLE 0 turns the path off and holds it open. -/
  | tpwGoOpen (req : Requester) (p : Port)
  /-- `TPW_GO_SOURCE` (R339): GO with ROLE 1 on a FED port starts a ramp or full enhancement. -/
  | tpwGoSource (req : Requester) (p : Port)
  /-- `TPW_GO_SINK` (R339): GO with ROLE 2 closes the port as ideal diode. -/
  | tpwGoSink (req : Requester) (p : Port)
  /-- `TPW_CLEAR_LATCH` (R339): CLEAR_LATCH takes a LATCHED port to OPEN. -/
  | tpwClearLatch (req : Requester) (p : Port)
  /-- `SINK_CLOSE` (R344): VCAB reaches 8 V at a sink-eligible OPEN port and it closes, raising the rail first if needed. -/
  | sinkClose (p : Port)
  /-- `SOURCE_RAMP_DONE` (R339): The ramp reaches full enhancement with VCAB at 90 % and the port enters SOURCE. -/
  | sourceRampDone (p : Port)
  /-- `PATH_PG_DEGLITCH` (R350): The 1 ms deglitch ends with the timer idle and power-good asserts. -/
  | pathPgDeglitch (p : Port)
  /-- `SOURCE_RAMP_FAULT` (R348): The FET model, RAMP_TMO or a stall ends the ramp with RAMP_SHORT, RAMP_STALL or THERMAL. -/
  | sourceRampFault (p : Port) (cause : RampEnd)
  /-- `PATH_FAULT_TIMER` (R349): The fault timer reaches FAULT_T and the path turns off with OVERCURRENT. -/
  | pathFaultTimer (p : Port)
  /-- `PATH_HARD_SHORT` (R349): The current reaches 2 × I_EFF and the gate is pulled within 1 µs.
  `ma`: the sensed current in mA, positive from rail to cable. -/
  | pathHardShort (p : Port) (ma : Int)
  /-- `PATH_OVERVOLTAGE` (R339): VCAB or VRAIL passes the overvoltage trip and the path opens. -/
  | pathOvervoltage (p : Port)
  /-- `PATH_OV_RECOVERY` (R339): VCAB and VRAIL stay below 72 V for 100 ms and the port re-enters its role. -/
  | pathOvRecovery (p : Port)
  /-- `PATH_GATE_FAULT` (R367): V_GS fails to reach or falls below 9.5 V and the path turns off. -/
  | pathGateFault (p : Port)
  /-- `PATH_DROP` (R367): |V_PATH| above 0.5 V for 1 ms while enhanced turns the path off. -/
  | pathDrop (p : Port)
  /-- `PATH_RETRY_DUE` (R351): RETRY_INT has passed and the FET model is cool; the port retries or latches. -/
  | pathRetryDue (p : Port)
  /-- `PATH_REVERSE_TURNOFF` (R342): V_PATH falls to -10 mV in SINK and the gate is below threshold within 1 µs. -/
  | pathReverseTurnoff (p : Port)
  /-- `PARTNER_SILENT_TIMEOUT` (R347): No Towpath frame within 5 s of power-good after probing; the port opens and waits 10 s. -/
  | partnerSilentTimeout (p : Port)
  /-- `PREF_PORT_WRITE` (R343): A change of PREF_PORT moves the forward targets break-before-make over 200 µs. -/
  | prefPortWrite (req : Requester) (value : BitVec 32)
  /-- `FEED_LOSS_SHED` (R345): VRAIL below SHED_V for 10 µs turns off the marked load channels.
  `vrail`: the highest VRAIL of the 10 µs, in 10 mV. -/
  | feedLossShed (vrail : BitVec 16)
  /-- `FEED_RESTORE` (R345): VRAIL above SHED_V for 1 s re-arms the feed-shed channels. -/
  | feedRestore
  /-- `PWR_OFFER_RX` (R353): A PWR_OFFER is answered, may lower the contract and sets the sink's budget FLOOR. -/
  | pwrOfferRx (p : Port) (hdr : Word) (payload : List Byte)
  /-- `PWR_REQUEST_RX` (R353): The source answers PWR_REQUEST with ACCEPT or REJECT and applies a larger contract first. -/
  | pwrRequestRx (p : Port) (hdr : Word) (payload : List Byte)
  /-- `PWR_ACCEPT_RX` (R353): PWR_ACCEPT makes the new contract take effect at the sink. -/
  | pwrAcceptRx (p : Port) (hdr : Word) (payload : List Byte)
  /-- `PWR_REJECT_RX` (R353): PWR_REJECT ends a power request with its reason. -/
  | pwrRejectRx (p : Port) (hdr : Word) (payload : List Byte)
  /-- `CONTRACT_LOWER_DELAY` (R353): 100 ms after a revised offer's answer the source lowers the contract. -/
  | contractLowerDelay (p : Port)
  /-- `OVERDRAW_CHECK` (R355): A source's 1 s mean current exceeds the contract and OVERDRAW is counted with an alarm. -/
  | overdrawCheck (p : Port) (mean : BitVec 16)
  /-- `SWAP_REQ_RX` (R358): A SWAP_REQ is answered ACCEPT, BUSY, NO_FEED or COLLISION. -/
  | swapReqRx (p : Port) (hdr : Word) (payload : List Byte)
  /-- `SWAP_ACK_RX` (R358): An accepting SWAP_ACK ends and both ends start the swap schedule, setting GUARD. -/
  | swapAckRx (p : Port) (hdr : Word) (payload : List Byte)
  /-- `SWAP_NEW_SOURCE` (R358): 1 ms into the schedule the new source enters SOURCE. -/
  | swapNewSource (p : Port)
  /-- `SWAP_OLD_SINK` (R358): 2 ms into the schedule the old source enters SINK and the contract is mirrored. -/
  | swapOldSink (p : Port)
  /-- `SWAP_STATUS_PROBE` (R358): 3 ms into the schedule the new source's hardware sends STATUS. -/
  | swapStatusProbe (p : Port)
  /-- `SWAP_GUARD_CHECK` (R358): 5 ms into the schedule each end clears GUARD or fails into RESTORE. -/
  | swapGuardCheck (p : Port)
  /-- `FRS_TRIGGER` (R361): VCAB below V_FRS for 5 µs at an armed sink makes it source and send the FAST_SWAP pattern. -/
  | frsTrigger (p : Port)
  /-- `FAST_SWAP_MSG_RX` (R361): The framed FAST_SWAP message with the contract in force after the swap is received. -/
  | fastSwapMsgRx (p : Port) (hdr : Word) (payload : List Byte)
  /-- `REVERSE_CURRENT_SWAP` (R362): A SOURCE port with negative current for 10 µs enters SINK. -/
  | reverseCurrentSwap (p : Port)
  /-- `GUARD_FAILURE` (R363): A break, reset or fault while GUARD is set opens the path and enters RESTORE. -/
  | guardFailure (p : Port)
  /-- `RESTORE_EXPIRY` (R364): 20 ms in RESTORE end and the port takes RESTORE_ROLE. -/
  | restoreExpiry (p : Port)
  /-- `HV_LINK_LOSS` (R365): The internal link to the core stops for 10 ms and LINK_OK clears. -/
  | hvLinkLoss
  /-- `FET_DAMAGE` (R366): An open path shows a shorted FET and the port latches with DAMAGE. -/
  | fetDamage (p : Port) (damage : Fin 4)
  /-- `FET_MODEL_UPDATE` (R369): Every 62.5 µs each FET thermal model is updated. -/
  | fetModelUpdate (smp : HvSamples)
  /-- `TPW_CONFIG_WRITE` (R373): A write of DEFAULT_ROLE or a limit takes effect at the next resolution or within 62.5 µs. -/
  | tpwConfigWrite (req : Requester) (off : BitVec 24) (value : BitVec 32)
  /-- `LOAD_CMD_ON` (R385): ON arms a channel in OFF, ends shed holds, or is refused in FAULT or LATCHED. -/
  | loadCmdOn (req : Requester) (y : Chan)
  /-- `LOAD_CMD_OFF` (R385): OFF takes the channel to OFF from any state but LATCHED. -/
  | loadCmdOff (req : Requester) (y : Chan)
  /-- `LOAD_CMD_CLEAR_LATCH` (R385): CLEAR_LATCH takes LATCHED to OFF and zeroes the retry count. -/
  | loadCmdClearLatch (req : Requester) (y : Chan)
  /-- `LOAD_SLOT_START` (R378): An ARMED channel starts its ramp at a permitted inrush slot occurrence. -/
  | loadSlotStart
  /-- `LOAD_RAMP_END` (R379): VRAIL - VOUT falls to 0.5 V with V_GS at 9.5 V and the channel enters ON. -/
  | loadRampEnd (y : Chan)
  /-- `LOAD_RAMP_FAULT` (R379): The FET model, RAMP_TMO or a stall ends the ramp with RAMP_SHORT, RAMP_STALL or THERMAL. -/
  | loadRampFault (y : Chan) (cause : RampEnd)
  /-- `LOAD_FAULT_TIMER` (R380): The fault timer reaches FAULT_T and the channel turns off with OVERCURRENT. -/
  | loadFaultTimer (y : Chan)
  /-- `LOAD_HARD_SHORT` (R381): Current reaches 2 × I_EFF and the gate is pulled with HARD_SHORT.
  `ma`: the sensed current in mA. -/
  | loadHardShort (y : Chan) (ma : Int)
  /-- `LOAD_GATE_FAULT` (R383): V_GS falls below or fails to reach 9.5 V and the channel turns off. -/
  | loadGateFault (y : Chan)
  /-- `LOAD_PATH_DROP` (R383): VRAIL - VOUT above 0.5 V for 1 ms while enhanced turns the channel off. -/
  | loadPathDrop (y : Chan)
  /-- `LOAD_OVERVOLTAGE` (R383): VRAIL passes the overvoltage trip with OV_OFF set and the channel turns off. -/
  | loadOvervoltage (y : Chan)
  /-- `LOAD_OV_RECOVERY` (R377): VRAIL below 72 V for 100 ms re-arms an overvoltage-faulted channel. -/
  | loadOvRecovery (y : Chan)
  /-- `LOAD_PG_DEGLITCH` (R382): The 1 ms deglitch in ON ends with the timer idle and power-good asserts. -/
  | loadPgDeglitch (y : Chan)
  /-- `LOAD_VOUT_LOW` (R382): VOUT falls below 90 % of VRAIL without a running timer and power-good deasserts. -/
  | loadVoutLow (y : Chan)
  /-- `LOAD_RETRY_DUE` (R384): RETRY_INT passed and the model is cool; the channel is armed again. -/
  | loadRetryDue (y : Chan)
  /-- `LOAD_RETRY_COUNT_RESET` (R384): 60 s in ON without a fault returns the retry count to zero. -/
  | loadRetryCountReset (y : Chan)
  /-- `LOAD_OFF_CONDUCTION` (R390): Current flows through an off channel for 10 ms and it latches with FET_SHORT. -/
  | loadOffConduction (y : Chan)
  /-- `LOAD_OUT_PRESENT` (R390): VOUT at 90 % of VRAIL for 100 ms in an off state sets OUT_PRESENT. -/
  | loadOutPresent (y : Chan)
  /-- `LOAD_CONFIG_WRITE` (R395): A write of a limit, model or standing-command field takes effect within 62.5 µs. -/
  | loadConfigWrite (req : Requester) (off : BitVec 24) (value : BitVec 32)
  /-- `LC_FUSE_GO` (R397): KEY_LC_CMD.GO with CONFIRM blows life-cycle fuses for a permitted transition. -/
  | lcFuseGo (req : Requester) (target : BitVec 2) (confirm : BitVec 16)
  /-- `SVN_ADVANCE` (R414): KEY_LC_CMD.SVN_ADVANCE raises MIN_SVN to the running firmware's SVN. -/
  | svnAdvance (req : Requester) (confirm : BitVec 16)
  /-- `PROV_GO` (R409): KEY_PROV_CMD.GO processes the provisioning record through its checks and action. -/
  | provGo (req : Requester)
  /-- `PROV_RECORD_DONE` (R409): The record's processing or fuse programming completes and RESULT is set. -/
  | provRecordDone (fuseOk : Bool)
  /-- `WATERMARK_GO` (R411): KEY_WM_CMD.GO computes the Watermark and, with SESSION, derives MS. -/
  | watermarkGo (req : Requester) (session : Bool)
  /-- `ADMISSION_START` (R415): The lower-serial end starts KEYX admission at link up. -/
  | admissionStart (p : Port)
  /-- `KEYX_HELLO_K_RX` (R416): A HELLO_K is checked, an FLR chosen, and S and K_conf derived. -/
  | keyxHelloKRx (p : Port) (hdr : Word) (payload : List Byte)
  /-- `KEYX_CONFIRM_RX` (R417): A CONFIRM's MAC is checked and the keys committed with ADMITTED set. -/
  | keyxConfirmRx (p : Port) (hdr : Word) (payload : List Byte)
  /-- `KEYX_FAIL_RX` (R418): A FAIL ends the admission unadmitted. -/
  | keyxFailRx (p : Port) (hdr : Word) (payload : List Byte)
  /-- `ADMIT_TIMEOUT` (R418): Admission is not complete within ADMIT_TMO and the port stays unadmitted. -/
  | admitTimeout (p : Port)
  /-- `ADMIT_BACKOFF_EXPIRY` (R418): The admission back-off ends and L tries again. -/
  | admitBackoffExpiry (p : Port)
  /-- `READMIT` (R415): KEY_Px_CMD.READMIT starts a new admission on a running link. -/
  | readmit (req : Requester) (p : Port)
  /-- `REKEY` (R420): KEY_Px_CMD.REKEY derives the next transmit epoch key. -/
  | rekey (req : Requester) (p : Port)
  /-- `REMASK_PASS` (R405): Every 2 s the key store re-masks every slot. -/
  | remaskPass
  /-- `ENTROPY_HEALTH_FAIL` (R426): A health test of the entropy source fails and ENTROPY_OK clears. -/
  | entropyHealthFail
  /-- `ENTROPY_HEALTH_PASS` (R426): A health test passes again and ENTROPY_OK sets. -/
  | entropyHealthPass
  /-- `TAP_PRIVATE_INSTRUCTION` (R424): A private TAP instruction is granted, clearing secrets and setting TAINT outside BLANK. -/
  | tapPrivateInstruction
  /-- `UNLOCK_CHAL_CAPTURE` (R425): A capture of UNLOCK_CHAL returns a fresh nonce. -/
  | unlockChalCapture
  /-- `UNLOCK_RESP_WRITE` (R425): A response written to UNLOCK_RESP unlocks private instructions or starts a block. -/
  | unlockRespWrite (response : BitVec 256)
  /-- `UNLOCK_BLOCK_EXPIRY` (R425): The block after a wrong unlock response ends. -/
  | unlockBlockExpiry
  /-- `SCRUB_READ` (R432): The scrubber interval expires and the next word is read and checked. -/
  | scrubRead (reads : CheckedReads) (owner : LostOwner)
  /-- `BIST_COMPLETE` (R437): Start-up BIST ends; on failure BIST_FAIL, FAULT_N and HOLD or no admission follow. -/
  | bistComplete (result : BistResult)
  /-- `LOCKSTEP_MISMATCH` (R438): The comparator finds the Lockkeeper cores disagreeing. -/
  | lockstepMismatch (pc : BitVec 32)
  /-- `WATCHDOG_EXPIRY` (R438): No KICK within WDT_MS while RUN and the Lockkeeper has failed. -/
  | watchdogExpiry
  /-- `BOOT_TMO_EXPIRY` (R438): READY is not written within BOOT_TMO after a restart. -/
  | bootTmoExpiry
  /-- `LOCKKEEPER_FAILURE` (R439): The fallback sequencer holds the cores, sheds, reports RESTARTING or HOLD and schedules a restart. -/
  | lockkeeperFailure
  /-- `LK_RESTART_BEGIN` (R439): 10 µs after failure the Lockkeeper domain reset starts if RESTARTS is below 3. -/
  | lkRestartBegin
  /-- `LK_RESTART_BIST_DONE` (R439): Core logic BIST and tile 6 March C+ end and the ROM boot and firmware load begin. -/
  | lkRestartBistDone (ok : Bool)
  /-- `LK_FIRMWARE_LOADED` (R439): The reloaded firmware passes its signature check and the Lockkeeper runs in LOADING. -/
  | lkFirmwareLoaded (fw : ImageFile)
  /-- `LKP_READY` (R439): The firmware writes READY and the Lockkeeper enters RUN. -/
  | lkpReady (req : Requester)
  /-- `LKP_KICK` (R438): LKP_CTL.KICK restarts the watchdog. -/
  | lkpKick (req : Requester)
  /-- `LKP_RESTART` (R439): LKP_CTL.RESTART runs a software Lockkeeper domain reset without shedding. -/
  | lkpRestart (req : Requester)
  /-- `SEQ_VOTE_DISAGREE` (R442): A fallback sequencer copy disagrees and is corrected, or no majority starts a warm reset. -/
  | seqVoteDisagree (majority : Bool)
  /-- `ALARM_HOLD_EXPIRY` (R445): A fabric-scope alarm's h × 2 ms hold ends and it is sent unless cancelled. -/
  | alarmHoldExpiry (i : Byte)
  /-- `ALARM_BARGE_RX` (R446): An ALARM barge toward P8 is inspected, may cancel a hold and is logged or merged. -/
  | alarmBargeRx
  /-- `DOMAIN_DROP` (R453): A domain loses its last vote and its hold time ends, and it stops. -/
  | domainDrop (d : Fin 10)
  /-- `PWR_VOTE_SW_WRITE` (R466): A write of PWR_VOTE_SW changes the software votes in the next cycle. -/
  | pwrVoteSwWrite (req : Requester) (value : BitVec 32)
  /-- `LK_WAIT` (R454): The Lockkeeper executes its wait instruction and gates its clock when no LK vote is present. -/
  | lkWait
  /-- `LK_UNGATE` (R454): An LK vote ungates the Lockkeeper clock within 25 ns. -/
  | lkUngate
  /-- `DOMAIN_WAKE_ACCESS` (R455): An access to an off domain stalls until the domain is ready, then completes. -/
  | domainWakeAccess (d : Fin 10) (stall : BitVec 16)
  /-- `DEEP_REQ_WRITE` (R458): A write of PWR_CTL.DEEP_REQ requests or withdraws Deep sleep. -/
  | deepReqWrite (req : Requester) (on : Bool)
  /-- `DEEP_SLEEP_ENTRY` (R458): With DEEP_REQ set and all conditions met the hub enters Deep sleep. -/
  | deepSleepEntry (abort : Bool)
  /-- `DEEP_SLEEP_WAKE` (R460): An enabled wake source brings the hub back to Sleep within 400 µs.
  `pin`: the field input, for source 10. -/
  | deepSleepWake (source : Fin 11) (pin : Fin 16)
  /-- `DEEP_HOLD_EXPIRY` (R461): DEEP_HOLD_MS passes without wake activity and entry to Deep sleep is tried again. -/
  | deepHoldExpiry
  /-- `PWR_OFF` (R463): PWR_CTL.OFF with CONFIRM drives PWR_EN low 1 ms later. -/
  | pwrOff (req : Requester) (confirm : BitVec 16)
  /-- `PWR_EN_DROP` (R463): 1 ms after the OFF command PWR_EN goes low and the core supplies fall. -/
  | pwrEnDrop
  /-- `OFF_WAKE` (R464): WAKE or the AON timer in Off drives PWR_EN high and the hub starts as from POR. -/
  | offWake
  /-- `AON_TIMER_EXPIRY` (R460): PWR_AON_TIMER expires in Deep sleep or Off and wakes the hub. -/
  | aonTimerExpiry
  /-- `IMAGE_LOAD` (R473): The loader reads, checks and applies the firmware, configuration and overlay images. -/
  | imageLoad (flash : FlashView)
  /-- `IMAGE_LOADED` (R473): The load ends; MKB is derived, ID_VALID set and IMAGE_LOADED journaled. -/
  | imageLoaded
  /-- `RECOVERY_IMAGE_WRITE` (R476): A write into CFG_RECOVERY_BUF streams an image, checked on completion. -/
  | recoveryImageWrite (req : Requester) (off : BitVec 10) (value : BitVec 32)
  /-- `MGMT_REQUEST_RX` (R480): A MGMT request is admitted, its operations carried out in order and a response returned. -/
  | mgmtRequestRx
  /-- `MGMT_PROXY_RESPONSE_RX` (R481): The far partner's LCTL response is returned to the requester. -/
  | mgmtProxyResponseRx
  /-- `MGMT_PROXY_TIMEOUT` (R481): The far partner does not answer within 2 ms and PROXY_FAIL is returned. -/
  | mgmtProxyTimeout
  /-- `BRIDGE_REG_ACCESS` (R259): A bridge REG access is admitted and carried out as aligned words. -/
  | bridgeRegAccess (write : Bool) (off : BitVec 24) (len : Nat) (data : List Byte) (reqId : BitVec 16)
  /-- `I2C0_ACCESS` (R477): The board controller accesses a register through I2C0. -/
  | i2c0Access (write : Bool) (off : BitVec 24) (value : BitVec 32)
  /-- `REGISTER_WRITE` (R483): A write to a register without its own row carries out writable fields and is journaled. -/
  | registerWrite (req : Requester) (off : BitVec 24) (value : BitVec 32)
  /-- `CFG_COMMIT_GO` (R488): CFG_COMMIT.GO writes an overlay of changed IMG words, or is refused. -/
  | cfgCommitGo (req : Requester)
  /-- `CFG_CLEAR_OVL` (R488): CFG_COMMIT.CLEAR_OVL writes an empty valid overlay. -/
  | cfgClearOvl (req : Requester)
  /-- `COMMIT_DONE` (R488): The overlay is written to flash and COMMIT_DONE is journaled. -/
  | commitDone (ok : Bool)
  /-- `FLASH_READ` (R489): CFG_FL_CMD read fetches 256 bytes into CFG_FL_BUF. -/
  | flashRead (req : Requester)
  /-- `FLASH_PROGRAM` (R489): CFG_FL_CMD program writes 256 bytes, or is refused as protected. -/
  | flashProgram (req : Requester)
  /-- `FLASH_ERASE_4K` (R489): CFG_FL_CMD erases a 4 KiB sector, or is refused as protected. -/
  | flashErase4k (req : Requester)
  /-- `FLASH_ERASE_64K` (R489): CFG_FL_CMD erases a 64 KiB block, or is refused as protected. -/
  | flashErase64k (req : Requester)
  /-- `FLASH_DONE` (R489): A flash command completes and FLASH_DONE sets. -/
  | flashDone (ok : Bool) (data : List Byte)
  /-- `COUNTER_PRESET` (R493): A write to a counter value presets it and sets its reload value. -/
  | counterPreset (req : Requester) (n : Fin 96) (high : Bool) (value : BitVec 32)
  /-- `CNT_CLEAR` (R493): CNT_CTL.CLEAR sets counters 0 to 87 to zero. -/
  | cntClear (req : Requester)
  /-- `CNT_FREEZE` (R493): CNT_CTL.FREEZE stops or restarts counters 0 to 87. -/
  | cntFreeze (req : Requester) (on : Bool)
  /-- `COUNTER_WRAP` (R495): A counter wraps past 2^48-1, sets its overflow bit and reloads with a Lockkeeper interrupt. -/
  | counterWrap (n : Fin 96)
  /-- `FAULT_STATUS_CLEAR` (R491): Writing 1 to an ended GLB_FAULT_STATUS source clears it and may release FAULT_N. -/
  | faultStatusClear (req : Requester) (value : BitVec 32)
  /-- `CLIMB_DWELL_EXPIRY` (R46): The 40 ms verification dwell after a bring-up climb shift ends and the next step up is proposed or the climb stops. -/
  | climbDwellExpiry (p : Port)
  /-- `QUIET_REFRESH_BURST` (R70): Every 20 µs a Quiet lane B sends a 256-symbol refresh burst to keep the partner's loops running. -/
  | quietRefreshBurst (p : Port)
  /-- `LINK_NAK_OUT_EXPIRY` (R93): REPLAY_TIMEOUT passes after a link NAK without EXPECT advancing and the receiver's nak_out clears, allowing a new NAK. -/
  | linkNakOutExpiry (p : Port)
  /-- `TUNNEL_NAK_OUT_EXPIRY` (R140): tReplay passes at a RELIABLE receiver and nak_out clears, permitting another NAK or OUT_OF_WINDOW. -/
  | tunnelNakOutExpiry (tunnel : BitVec 12)
  /-- `RESTORE_NOTICE_REPEAT` (R154): 1 ms after the previous one, the second or third STATE 0 route notice of a wait-to-restore is sent. -/
  | restoreNoticeRepeat (p : Port)
  /-- `HOST_SOF_BREAK` (R156): The head-end's U0 sees no host start-of-frame for more than 3 ms and MASTER_SRC returns to 0, changing its candidacy key. -/
  | hostSofBreak
  /-- `PCIE_LINK_UP` (R265): The PCI Express link completes training and reaches L0, ending UR answers for MEM requests. -/
  | pcieLinkUp (speed : BitVec 2) (width : BitVec 2) (enables : PcieEnables)
  /-- `ETH_E0_LINK_CHANGE` (R302): E0 gains or loses link, with auto-negotiated speed, setting E0_LINK_CHG. -/
  | ethE0LinkChange (up : Bool) (speed : BitVec 2)
  /-- `ETH_PLCA_STATUS_CHANGE` (R302): A 10BASE-T1S PHY's PLCA status changes, switching between PLCA and CSMA/CD and setting PLCA_CHG. -/
  | ethPlcaStatusChange (x : Fin 2) (ok : Bool)
  /-- `MDIO_FRAME_DONE` (R302): A management frame on MDC/MDIO completes, BUSY clears, read data is stored and MDIO_DONE sets. -/
  | mdioFrameDone (data : BitVec 16)
  /-- `CAN_BUS_ERROR` (R321): A CAN controller detects a bus error, sends an error frame and its error counters change, possibly entering error passive. -/
  | canBusError (n : Fin 4) (tec rxErr : Byte)
  /-- `PATH_LIMITER_CHANGE` (R349): A trunk path's current limiter starts or stops holding, starting or zeroing the fault timer and affecting the power-good deglitch. -/
  | pathLimiterChange (p : Port) (holding : Bool)
  /-- `LOAD_LIMITER_CHANGE` (R380): A load channel's current limiter starts or stops holding, starting or zeroing the fault timer and restarting the power-good deglitch. -/
  | loadLimiterChange (y : Chan) (holding : Bool)
  /-- `PATH_RETRY_COUNT_RESET` (R351): 60 s pass without a fault on a trunk power port and its retry count returns to zero. -/
  | pathRetryCountReset (p : Port)
  /-- `HV_LINK_RESTORE` (R365): The internal isolated link between core and HV die runs again and LINK_OK sets. -/
  | hvLinkRestore
  /-- `LC_CMD_DONE` (R397): Life-cycle or SVN fuse programming ends, RESULT is set, CONFIRM clears and LC_DONE sets. -/
  | lcCmdDone (fuseOk : Bool)
  /-- `WATERMARK_DONE` (R411): The Watermark computation ends within 20 µs, the result is placed, BUSY clears and WM_DONE sets. -/
  | watermarkDone
  /-- `TIME_MASTER_ABSENT` (R445): The MASTER_ID a locked hub followed has been absent from every port's key for 70 ms and TIME_MASTER_LOST is raised with its hold. -/
  | timeMasterAbsent
  /-- `DEVICE_TRANSACTION_COMPLETE` (R236): A device completes a transaction on a physical port and the field hub sends IN_DATA or RESULT ACK, or resets toggles at a status stage. -/
  | deviceTransactionComplete (x : Fin 2) (ep : BitVec 4) (dirIn : Bool) (stage : UsbStage) (pkt : DevicePacket)
  /-- `LANE_JOIN_LOCKED` (R69): During a rejoin attempt the lane's receiver locks and that end sends LANE_JOIN, or the 180 ms training limit passes. -/
  | laneJoinLocked (p : Port) (lane : LaneId) (locked : Bool)
  deriving DecidableEq, Repr

end Sys2Proof
end

