-- ==== Sys2Proof/Config.lean ====
section
/-! DEFINITION. What one implementation or the outside world fixes and the spec leaves open: uninterpreted constants with
no body, so that no proof can lean on a value of theirs. -/

namespace Sys2Proof.Config

/-- HMAC-SHA-256 of a message under a key (13 R399): named by the spec, not written out there. Uninterpreted. -/
opaque hmacSha256 : Key256 → List Byte → Key256

/-- HMAC-SHA-256 under a key of any length. Uninterpreted. -/
opaque hmacSha256Bytes : List Byte → List Byte → Key256

/-- The bytes of a virtual hub's descriptors that the spec leaves open (07 R227): which hub copy is SuperSpeed, the descriptor type, the
byte. Uninterpreted. -/
opaque hubByte : Bool → Nat → Nat → Byte

/-- SHA-256 of a message (13 R401). Uninterpreted. -/
opaque sha256 : List Byte → Key256

/-- AES-256-GCM encryption (03 R90): key, 96-bit nonce, additional data, plaintext words; the answer is the cipher
words and the tag. Uninterpreted. -/
opaque gcmSeal : Key256 → BitVec 96 → List Bool → List DpWord → List DpWord × DpWord

/-- AES-256-GCM decryption (03 R89, R90): key, nonce, additional data, cipher words, tag; none where the tag fails.
Uninterpreted. -/
opaque gcmOpen : Key256 → BitVec 96 → List Bool → List DpWord → DpWord → Option (List DpWord)

/-- AES-256-GCM decryption of a byte message (13, 16): key, nonce, additional data, cipher text, tag. Uninterpreted. -/
opaque gcmOpenBytes : Key256 → BitVec 96 → List Byte → List Byte → DpWord → Option (List Byte)

/-- AES-256-GCM encryption of a byte message. Uninterpreted. -/
opaque gcmSealBytes : Key256 → BitVec 96 → List Byte → List Byte → List Byte × DpWord

/-- Does an ECDSA P-256 signature verify: public key, digest of the signed region, signature (13 R413)? Uninterpreted. -/
opaque signatureOk : List Byte → Key256 → List Byte → Bool

/-- The bytes of a discovery announcement (04 R121): the spec lists what it carries and gives no layout. Uninterpreted. -/
opaque announceBytes : Announce → List Byte

/-- A value the spec leaves open: the n-th draw. The callers cut it to the range the spec states. -/
opaque free : Nat → Nat

/-- What the generator that replaces a failed entropy source feeds HMAC-SHA-256 for its n-th output (13 R426). -/
opaque generatorInput : Nat → List Byte

/-- The n-th output of the entropy source (13 R426), 256 bits. -/
opaque entropy : Nat → Key256

/-- M_ROM, the SHA-256 of the mask ROM (13 R401). The spec gives no value. -/
opaque romDigest : Key256

/-- The hashes of the Yarbolet firmware key and return key in ROM (13 R398). The spec gives no value. -/
opaque firmwareKeyHash : Key256
opaque returnKeyHash : Key256

/-- The hub unique key HUK burnt at manufacture (13). The spec gives no value. -/
opaque huk : Key256

/-- The test root from which a BLANK part derives (13). The spec gives no value. -/
opaque testRoot : Key256

end Sys2Proof.Config
end

