-- ==== Sys2Proof/Machine/Codes.lean ====
section
/-! DEFINITION. The codings of the trunk: bit strings, CRCs, the symbol mapping and precoder of the PCS, the lock marker
and lane control blocks, the barge header word, the END and link control blocks and the Towpath header. -/

namespace Sys2Proof

/-- The bits of a word, most significant first (02 R34: transmitted from the high bit down). -/
def bitsOf {n : Nat} (b : BitVec n) : List Bool := (List.range n).map fun i => b.getMsbD i

/-- The bits [hi:lo] of a word, most significant first. -/
def bitsIn {n : Nat} (b : BitVec n) (hi lo : Nat) : List Bool :=
  (List.range (hi + 1 - lo)).map fun i => b.getLsbD (hi - i)

/-- The bits of a string of bytes, each most significant bit first. -/
def bitsOfBytes (l : List Byte) : List Bool := l.flatMap bitsOf

/-- One bit through a CRC register, high bit first. -/
def crcStep {n : Nat} (poly c : BitVec n) (b : Bool) : BitVec n :=
  let d := c <<< (1 : Nat)
  if c.msb != b then d ^^^ poly else d

/-- A CRC over bits in transmission order. -/
def crcOver {n : Nat} (poly init : BitVec n) (bits : List Bool) : BitVec n := bits.foldl (crcStep poly) init

/-- CRC-32 with the IEEE 802.3 polynomial (02 R39, 03 R89, R100). PRESUMED (log 10): the register starts at all ones and
the result is complemented, as IEEE 802.3 does; the spec names the polynomial only. -/
def crc32 (bits : List Bool) : BitVec 32 := ~~~ crcOver 0x04C1_1DB7#32 0xFFFF_FFFF#32 bits

/-- CRC-16 of a Towpath frame (03 R109): x^16 + x^12 + x^5 + 1, initial value 0xFFFF, no reflection, no final inversion. -/
def crc16 (bits : List Bool) : BitVec 16 := crcOver 0x1021#16 0xFFFF#16 bits

/-- Sets the bits [lo + w - 1 : lo] of a block. -/
def blockField {w : Nat} (lo : Nat) (v : BitVec w) : Block := (v.setWidth 257) <<< lo

/-- A flag in a block. -/
def blockFlag (lo : Nat) (b : Bool) : Block := if b then blockField lo 1#1 else 0#257

/-- A control block: flag 1 and BTYPE (02 R34). -/
def ctlBlock (btype : Nat) (body : Block) : Block :=
  blockField 256 1#1 ||| blockField 248 (BitVec.ofNat 8 btype) ||| body

/-- Puts the CRC-32 over bits [256:32] into bits [31:0] (02 R39, 03 R100). -/
def withCrc (b : Block) : Block := b ||| blockField 0 (crc32 (bitsIn b 256 32))

/-- Does the CRC-32 in bits [31:0] check (02 R39, 03 R100)? -/
def crcHolds (b : Block) : Bool := crc32 (bitsIn b 256 32) == b.extractLsb' 0 32

/-- The BTYPE of a control block. -/
def btypeOf (b : Block) : Nat := (b.extractLsb' 248 8).toNat

/-! Symbols (02 R31, R32). -/

/-- Gray index of a bit pair, first bit first (02 Table 02-1). -/
def grayIndex : Bool × Bool → Nat
  | (false, false) => 0
  | (false, true) => 1
  | (true, true) => 2
  | (true, false) => 3

/-- Line level of an index (02 R31): 2 × index − 3. -/
def lineLevel (index : Nat) : Int := 2 * (index : Int) - 3

/-- The transmit precoder over one codeword, from p_prev (02 R32). -/
def precode : Nat → List Nat → List Nat
  | _, [] => []
  | prev, g :: gs => ((g + 4 - prev % 4) % 4) :: precode ((g + 4 - prev % 4) % 4) gs

/-- The receive side of the precoder (02 R32). -/
def unprecode : Nat → List Nat → List Nat
  | _, [] => []
  | prev, p :: ps => ((p + prev) % 4) :: unprecode p ps

/-- One block's bits through the self-synchronising scrambler x^58 + x^39 + 1 (02 R30): the state holds the last 58
output bits, the newest in front. -/
def scramble : List Bool → List Bool → List Bool
  | _, [] => []
  | st, b :: bs =>
    let o := b != (st.getD 38 false != st.getD 57 false)
    o :: scramble ((o :: st).take 58) bs

/-- The descrambler of the same polynomial. -/
def descramble : List Bool → List Bool → List Bool
  | _, [] => []
  | st, o :: os => (o != (st.getD 38 false != st.getD 57 false)) :: descramble ((o :: st).take 58) os

/-! The lock marker (02 Table 02-3, 03 Table 03-5). -/

/-- A lock marker block without its CRC. -/
def Marker.body (m : Marker) : Block :=
  ctlBlock 0x01
    (blockField 216 m.span ||| blockField 214 m.copy ||| blockField 211 m.step ||| blockField 209 m.lanes
      ||| blockFlag 208 m.qnext ||| blockField 205 m.shOp ||| blockField 202 m.shStep ||| blockField 198 m.shReason
      ||| blockField 166 m.shSpan ||| blockField 134 m.shPeer ||| blockField 130 m.stepCap ||| blockFlag 129 m.moorRdy
      ||| blockField 104 m.epoch ||| blockFlag 103 m.kePend ||| blockField 64 m.keSpan
      ||| blockField 56 m.marginA ||| blockField 48 m.marginB ||| blockField 40 m.predUp)

/-- The lock marker block as sent. -/
def Marker.encode (m : Marker) : Block := withCrc m.body

/-- The fields of a received lock marker; none where the block is no marker or its CRC fails (02 R39). -/
def Marker.decode (b : Block) : Option Marker :=
  if b.getLsbD 256 && btypeOf b == 0x01 && crcHolds b then
    some {
      span := b.extractLsb' 216 32, copy := b.extractLsb' 214 2, step := b.extractLsb' 211 3
      lanes := b.extractLsb' 209 2, qnext := b.getLsbD 208, shOp := b.extractLsb' 205 3
      shStep := b.extractLsb' 202 3, shReason := b.extractLsb' 198 4, shSpan := b.extractLsb' 166 32
      shPeer := b.extractLsb' 134 32, stepCap := b.extractLsb' 130 4, moorRdy := b.getLsbD 129
      epoch := b.extractLsb' 104 24, kePend := b.getLsbD 103, keSpan := b.extractLsb' 64 32
      marginA := b.extractLsb' 56 8, marginB := b.extractLsb' 48 8, predUp := b.extractLsb' 40 8 }
  else none

/-! The lane control block (02 R40). -/

/-- LANE_DOWN, LANE_JOIN or WAKE_B for a lane at a port block. -/
def laneCtl (op lane span blk : Nat) : Block :=
  withCrc (ctlBlock 0x02 (blockField 240 (BitVec.ofNat 8 op) ||| blockField 239 (BitVec.ofNat 1 lane)
    ||| blockField 207 (BitVec.ofNat 32 span) ||| blockField 195 (BitVec.ofNat 12 blk)))

/-- OP, LANE, SPAN and BLOCK of a received lane control block; none where it is none or its CRC fails. -/
def laneCtlDecode (b : Block) : Option (Nat × Nat × Nat × Nat) :=
  if b.getLsbD 256 && btypeOf b == 0x02 && crcHolds b then
    some ((b.extractLsb' 240 8).toNat, (b.extractLsb' 239 1).toNat, (b.extractLsb' 207 32).toNat, (b.extractLsb' 195 12).toNat)
  else none

/-! The barge header word (03 Table 03-1). -/

/-- A flag in a datapath word. -/
def dpFlag (lo : Nat) (b : Bool) : DpWord := if b then (1#128) <<< lo else 0#128

/-- A field in a datapath word. -/
def dpField {w : Nat} (lo : Nat) (v : BitVec w) : DpWord := (v.setWidth 128) <<< lo

/-- The header word. -/
def Header.encode (h : Header) : DpWord :=
  dpField 118 h.dst ||| dpField 108 h.src ||| dpField 96 h.tunnel ||| dpField 90 h.queue ||| dpField 88 h.colour
    ||| dpFlag 87 h.cmark ||| dpFlag 86 h.mcast ||| dpField 80 h.hops ||| dpField 64 h.tseq ||| dpField 54 h.len
    ||| dpField 50 h.type ||| dpFlag 49 h.first ||| dpFlag 48 h.last ||| dpFlag 47 h.ackreq ||| dpFlag 46 h.retx
    ||| dpField 44 h.budget ||| dpField 0 h.tspec

/-- The fields of a header word (the reserved bits [43:32] are dropped here and checked by `headerValid`). -/
def Header.decode (w : DpWord) : Header where
  dst := w.extractLsb' 118 10
  src := w.extractLsb' 108 10
  tunnel := w.extractLsb' 96 12
  queue := w.extractLsb' 90 6
  colour := w.extractLsb' 88 2
  cmark := w.getLsbD 87
  mcast := w.getLsbD 86
  hops := w.extractLsb' 80 6
  tseq := w.extractLsb' 64 16
  len := w.extractLsb' 54 10
  type := w.extractLsb' 50 4
  first := w.getLsbD 49
  last := w.getLsbD 48
  ackreq := w.getLsbD 47
  retx := w.getLsbD 46
  budget := w.extractLsb' 44 2
  tspec := w.extractLsb' 0 32

/-- Barge types (03 Table 03-2). -/
def typeData : Nat := 0
def typeTack : Nat := 1
def typeLctl : Nat := 2
def typeAlarm : Nat := 4
def typeMgmt : Nat := 5
def typeSignal : Nat := 6
def typePwr : Nat := 7

/-- Words of a barge with a payload of `len` bytes (03 R81). -/
def bargeWords (len : Nat) : Nat := 1 + (len + 15) / 16

/-- The header checks of 03 R82, on the header word and the word count of the framing block. -/
def headerValid (w : DpWord) (words : Nat) : Bool :=
  let h := Header.decode w
  let t := h.type.toNat
  w.extractLsb' 32 12 == 0#12
    && (t ≤ 2 || (4 ≤ t && t ≤ 7))
    && h.colour.toNat != 3
    && h.len.toNat ≤ 1008
    && words == bargeWords h.len.toNat
    && (!h.mcast || ((t == typeData || t == typeSignal || t == typeAlarm) && h.tunnel.toNat / 256 == 0))
    && (t != typeLctl || (!h.mcast && h.hops.toNat == 0))

/-- The bytes of a datapath word, byte 0 in bits [127:120] (03 R81). -/
def dpBytes (w : DpWord) : List Byte := (List.range 16).map fun i => w.extractLsb' (120 - 8 * i) 8

/-- A datapath word of up to 16 bytes, zero-filled (03 R81). -/
def dpOfBytes (l : List Byte) : DpWord :=
  (List.range 16).foldl (fun a i => (a <<< (8 : Nat)) ||| ((l.getD i 0#8).setWidth 128)) 0#128

/-- The payload words of a barge. -/
def payloadWords : Nat → List Byte → List DpWord
  | 0, _ => []
  | n + 1, l => dpOfBytes (l.take 16) :: payloadWords n (l.drop 16)

/-- A barge as the words the link sends (03 R79, R81). -/
def Barge.words (b : Barge) : List DpWord :=
  b.hdr.encode :: payloadWords (bargeWords b.hdr.len.toNat - 1) b.payload

/-- A barge from its words; the receiver ignores payload bytes beyond LEN (03 R81). -/
def Barge.ofWords (ws : List DpWord) : Barge :=
  let h := Header.decode (ws.headD 0#128)
  { hdr := h, payload := (ws.tail.flatMap dpBytes).take h.len.toNat }

/-! The END block and the link control blocks (03 Tables 03-3, 03-4). -/

/-- An END block without its CRC and tag: bits [256:160]. -/
def endBody (lseq words kph : Nat) (clr : Bool) (txc : Nat) : Block :=
  ctlBlock 0x10 (blockField 236 (BitVec.ofNat 12 lseq) ||| blockField 230 (BitVec.ofNat 6 (words - 1))
    ||| blockField 229 (BitVec.ofNat 1 kph) ||| blockFlag 228 clr ||| blockField 196 (BitVec.ofNat 32 txc))

/-- The bits [255:160] of an END block: additional authenticated data, and the end of the CRC's coverage (03 R89, R90). -/
def endAad (b : Block) : List Bool := bitsIn b 255 160

/-- The CRC of a barge as sent (03 R89): its words without the pad, then END bits [255:160]. -/
def bargeCrc (ws : List DpWord) (endBlk : Block) : BitVec 32 := crc32 (ws.flatMap bitsOf ++ endAad endBlk)

/-- An END block with its CRC and tag. -/
def endBlock (body : Block) (crc : BitVec 32) (tag : DpWord) : Block :=
  body ||| blockField 128 crc ||| blockField 0 tag

/-- LACK (03 Table 03-4). -/
def lackBlock (ackSeq : Nat) : Block := withCrc (ctlBlock 0x11 (blockField 236 (BitVec.ofNat 12 ackSeq)))

/-- LNAK (03 Table 03-4): causes 1 CRC, 2 AUTH, 3 UNCORR, 4 GAP, 5 KEY_PHASE. -/
def lnakBlock (nakSeq cause : Nat) : Block :=
  withCrc (ctlBlock 0x12 (blockField 236 (BitVec.ofNat 12 nakSeq) ||| blockField 232 (BitVec.ofNat 4 cause)))

/-- The fields of a HEARTBEAT block (03 Table 03-4). -/
structure Heartbeat where
  hubId : BitVec 10
  idValid : Bool
  ackSeq : BitVec 12
  lkState : BitVec 3
  admitted : Bool
  level : BitVec 3
  count : BitVec 16
  deriving DecidableEq, Repr

/-- HEARTBEAT. -/
def Heartbeat.encode (h : Heartbeat) : Block :=
  withCrc (ctlBlock 0x13 (blockField 238 h.hubId ||| blockFlag 237 h.idValid ||| blockField 225 h.ackSeq
    ||| blockField 222 h.lkState ||| blockFlag 221 h.admitted ||| blockField 218 h.level ||| blockField 202 h.count))

/-- The fields of a received HEARTBEAT block (the CRC is checked by the receiver). -/
def Heartbeat.decode (b : Block) : Heartbeat where
  hubId := b.extractLsb' 238 10
  idValid := b.getLsbD 237
  ackSeq := b.extractLsb' 225 12
  lkState := b.extractLsb' 222 3
  admitted := b.getLsbD 221
  level := b.extractLsb' 218 3
  count := b.extractLsb' 202 16

/-- The fields of a TICK block (03 Table 03-4). -/
structure TickBlock where
  frame : BitVec 32
  lag : BitVec 16
  master : BitVec 10
  hops : BitVec 6
  locked : Bool
  src : Bool
  deriving DecidableEq, Repr

/-- TICK. -/
def TickBlock.encode (t : TickBlock) : Block :=
  withCrc (ctlBlock 0x14 (blockField 216 t.frame ||| blockField 200 t.lag ||| blockField 190 t.master
    ||| blockField 184 t.hops ||| blockFlag 183 t.locked ||| blockFlag 182 t.src))

/-- The fields of a received TICK block. -/
def TickBlock.decode (b : Block) : TickBlock where
  frame := b.extractLsb' 216 32
  lag := b.extractLsb' 200 16
  master := b.extractLsb' 190 10
  hops := b.extractLsb' 184 6
  locked := b.getLsbD 183
  src := b.getLsbD 182

/-- DELAY_REQ (03 Table 03-4). -/
def delayReqBlock (dseq : Nat) : Block := withCrc (ctlBlock 0x15 (blockField 240 (BitVec.ofNat 8 dseq)))

/-- DELAY_RESP (03 Table 03-4): T2 and T3 as FRAME [51:20], SUBNS [19:0]. -/
def delayRespBlock (dseq : Nat) (t2 t3 : BitVec 52) : Block :=
  withCrc (ctlBlock 0x16 (blockField 240 (BitVec.ofNat 8 dseq) ||| blockField 188 t2 ||| blockField 136 t3))

/-- A filler (03 Table 03-4). -/
def fillerBlock : Block := withCrc (ctlBlock 0x00 0#257)

/-! The Towpath header (03 Table 03-7). -/

/-- VER 1 header word. -/
def tpHeader (cls seq len : Nat) (rsp retry hw : Bool) : Word :=
  BitVec.ofNat 32 (0x1000_0000 + cls % 16 * 2 ^ 24 + seq % 256 * 2 ^ 16 + len % 256 * 2 ^ 8
    + (if rsp then 128 else 0) + (if retry then 64 else 0) + (if hw then 32 else 0))

/-- A header with another SEQ. -/
def tpWithSeq (h : Word) (seq : Nat) : Word := (h &&& 0xFF00_FFFF#32) ||| BitVec.ofNat 32 (seq % 256 * 2 ^ 16)

/-- A header of a resent request. -/
def tpResent (h : Word) : Word := h ||| 0x40#32

def tpVer (h : Word) : Nat := (h.extractLsb' 28 4).toNat
def tpClass (h : Word) : Nat := (h.extractLsb' 24 4).toNat
def tpSeq (h : Word) : Nat := (h.extractLsb' 16 8).toNat
def tpLen (h : Word) : Nat := (h.extractLsb' 8 8).toNat
def tpRsp (h : Word) : Bool := h.getLsbD 7
def tpRetry (h : Word) : Bool := h.getLsbD 6

/-- A value as `n` bytes, most significant first (00: multi-byte values travel most significant byte first). -/
def beBytes (n v : Nat) : List Byte := (List.range n).map fun i => BitVec.ofNat 8 (v / 256 ^ (n - 1 - i))

/-- The value of bytes, most significant first. -/
def beVal (l : List Byte) : Nat := l.foldl (fun a b => a * 256 + b.toNat) 0

/-- `n` bytes of a message from byte `i`, as a value. -/
def fieldAt (l : List Byte) (i n : Nat) : Nat := beVal ((l.drop i).take n)

end Sys2Proof
end

