-- ==== Sys2Proof/Machine/RegMap.lean ====
section
/-! DEFINITION. The register map: which bits of each word of the 16 MiB register space software writes, and how
(00 Table 00-3), which survive a warm reset, which lie in the VAON circuits, and the reset values. Written from the
register tables of chapters 02 to 16. -/

namespace Sys2Proof.Machine

/-- A field of a register: byte offset of the word (01 R5), lowest bit, width. -/
structure Field where
  off : Nat
  lo : Nat
  width : Nat
  deriving DecidableEq, Repr

/-- One register, or a family of like registers laid out with the given counts and strides (outermost first).
`rw` are the bits a write stores (RW and IMG), `img` those also loaded from the image, `w1c`, `w1s`, `sc` and `ro` the
bits of those codes, `st` the bits with code ST and `vaon` the bits held in the VAON circuits (00 R6). `counter` says
that the word is an event counter. -/
structure RegEntry where
  start : Nat
  dims : List (Nat × Nat)
  rw : Nat
  img : Nat
  w1c : Nat
  w1s : Nat
  sc : Nat
  ro : Nat
  st : Nat
  vaon : Nat
  reset : Nat
  counter : Bool
  deriving DecidableEq, Repr

/-- Is `rel` the distance of a member of the family from its start? -/
def dimsCover : List (Nat × Nat) → Nat → Bool
  | [], rel => rel == 0
  | (n, st) :: ds, rel => decide (rel / st < n) && dimsCover ds (rel % st)

/-- Does the entry describe the word at `off`? -/
def RegEntry.covers (e : RegEntry) (off : Nat) : Bool :=
  decide (e.start ≤ off) && dimsCover e.dims (off - e.start)

/-- The registers of the GLB block, in address order. -/
def regMapGlb : List RegEntry := [
  ⟨0, [], 0, 0, 0, 0, 0, 0xFFFFFFFF, 0, 0, 0x71600B00, false⟩,
  ⟨4, [], 0, 0, 0, 0, 0, 0xFFFFFFFF, 0, 0, 0, false⟩,
  ⟨8, [], 0, 0, 0, 0, 0, 0xFFFFFFFF, 0, 0, 0, false⟩,
  ⟨0xC, [], 0, 0, 0, 0, 0, 0x7F, 0, 0, 0x30, false⟩,
  ⟨0x10, [], 0, 0, 0, 0, 0, 0xF, 0, 0, 0, false⟩,
  ⟨0x14, [], 0xFFFF0000, 0, 0, 0, 3, 0, 0, 0, 0, false⟩,
  ⟨0x20, [], 0, 0, 0, 0, 0, 0x7FFFFF, 0, 0, 0, false⟩,
  ⟨0x24, [], 0x7FFFFF, 0x7FFFFF, 0, 0, 0, 0, 0, 0, 0, false⟩,
  ⟨0x28, [], 0x7FFFFF, 0x7FFFFF, 0, 0, 0, 0, 0, 0, 0x7FFFFF, false⟩,
  ⟨0x2C, [], 0, 0, 0x3F, 0, 0, 0, 6, 1, 0, false⟩,
  ⟨0x30, [], 0x38, 0x38, 0, 0, 0, 7, 0, 0, 0x1F, false⟩,
  ⟨0x34, [], 0, 0, 0, 0, 0, 0xFFFFFFFF, 0, 0, 0, true⟩]

/-- The registers of the PWR block, in address order. -/
def regMapPwr : List RegEntry := [
  ⟨0x10000, [], 0xFFFF0001, 0, 0, 0, 2, 0, 0, 0, 0, false⟩,
  ⟨0x10004, [], 0, 0, 0, 0, 0, 0xFFF, 0, 0, 0xFFC, false⟩,
  ⟨0x10008, [], 0x3FF, 0x3FF, 0, 0, 0, 0, 0, 0, 0x3FF, false⟩,
  ⟨0x1000C, [], 0, 0, 0, 0, 0, 0x3FF, 0, 0, 0, false⟩,
  ⟨0x10010, [], 0xFFFF, 0xFFFF, 0, 0, 0, 0, 0, 0, 0x6432, false⟩,
  ⟨0x10014, [], 0x7FF, 0x7FF, 0, 0, 0, 0x800, 0, 0, 0x7FF, false⟩,
  ⟨0x10018, [], 0xFFFF, 0xFFFF, 0, 0, 0, 0, 0, 0, 0, false⟩,
  ⟨0x1001C, [], 0, 0, 0xFFF, 0, 0, 0, 0, 0xFFF, 0, false⟩,
  ⟨0x10020, [], 0xFFFFFF, 0, 0, 0, 0, 0, 0, 0xFFFFFF, 0, false⟩,
  ⟨0x10024, [], 0, 0, 3, 0, 0, 0, 0, 0, 0, false⟩,
  ⟨0x10028, [], 3, 0, 0, 0, 0, 0, 0, 0, 0, false⟩,
  ⟨0x10030, [], 0, 0, 0, 0, 0, 0xFFFFFFFF, 0, 0, 0, true⟩,
  ⟨0x10034, [], 0, 0, 0, 0, 0, 0xFFFFFFFF, 0, 0, 0, true⟩,
  ⟨0x10038, [], 0, 0, 0, 0, 0, 0xFFFF, 0, 0, 0, false⟩]

/-- The registers of the TRK block, in address order. -/
def regMapTrk : List RegEntry := [
  ⟨0x20000, [(3, 0x4000)], 0xFEFFF, 0xFE7FF, 0, 0, 0x1000, 0, 0, 0, 0xC079B, false⟩,
  ⟨0x20004, [(3, 0x4000)], 0, 0, 0, 0, 0, 0x3FF7FFFF, 0, 0, 0xA000, false⟩,
  ⟨0x20008, [(3, 0x4000)], 0x3FFFFFFF, 0x3FFFFFFF, 0, 0, 0, 0, 0, 0, 0x1F7DC71C, false⟩,
  ⟨0x2000C, [(3, 0x4000)], 0xFFFFFFFF, 0xFFFFFFFF, 0, 0, 0, 0, 0, 0, 0x42180C24, false⟩,
  ⟨0x20010, [(3, 0x4000)], 0xFFFFFFF, 0xFFFFFFF, 0, 0, 0, 0, 0, 0, 0x43C0A14, false⟩,
  ⟨0x20014, [(3, 0x4000)], 7, 0, 0, 0, 8, 0, 0, 0, 0, false⟩,
  ⟨0x20018, [(3, 0x4000)], 0, 0, 0, 0, 0, 0xFFFFFFFF, 0, 0, 0, false⟩,
  ⟨0x2001C, [(3, 0x4000)], 0, 0, 0, 0, 0, 0xFFFFFFFF, 0, 0, 0, false⟩,
  ⟨0x20020, [(3, 0x4000)], 0, 0, 0, 0, 0, 0xFFFFFF1F, 0, 0, 0x80808000, false⟩,
  ⟨0x20024, [(3, 0x4000)], 0, 0, 0, 0, 0, 0xFFFFFF1F, 0, 0, 0x80808000, false⟩,
  ⟨0x20028, [(3, 0x4000)], 0xFFFFFF, 0xFFFFFF, 0, 0, 0, 0, 0, 0, 0x100A28, false⟩,
  ⟨0x2002C, [(3, 0x4000)], 0, 0, 0, 0, 0, 0xFFFF01, 0, 0, 0xFF00, false⟩,
  ⟨0x20030, [(3, 0x4000)], 0x7FF, 0, 0, 0, 0, 0, 0, 0, 0x100, false⟩,
  ⟨0x20034, [(3, 0x4000)], 0, 0, 0, 0, 0, 0xFFFFFFFF, 0, 0, 0, false⟩,
  ⟨0x20038, [(3, 0x4000)], 0, 0, 0, 0, 0, 0xFFFFFFFF, 0, 0, 0xFFFFFFFF, false⟩,
  ⟨0x2003C, [(3, 0x4000)], 0xFFFF, 0xFFFF, 0, 0, 0, 0, 0, 0, 0x3C18, false⟩,
  ⟨0x20040, [(3, 0x4000)], 0, 0, 0x1FF, 0, 0, 0, 0, 0, 0, false⟩,
  ⟨0x20044, [(3, 0x4000)], 0x1FF, 0, 0, 0, 0, 0, 0, 0, 0, false⟩,
  ⟨0x20048, [(3, 0x4000)], 0, 0, 0, 0, 0, 0xFFFFFFFF, 0, 0, 0, true⟩,
  ⟨0x2004C, [(3, 0x4000)], 0, 0, 0, 0, 0, 0xFFFFFFFF, 0, 0, 0, true⟩,
  ⟨0x20050, [(3, 0x4000)], 0, 0, 0, 0, 0, 0xFFFFFFFF, 0, 0, 0, true⟩,
  ⟨0x20054, [(3, 0x4000)], 0, 0, 0, 0, 0, 0xFFFFFFFF, 0, 0, 0, true⟩,
  ⟨0x20058, [(3, 0x4000)], 0, 0, 0, 0, 0, 0xFFFFFFFF, 0, 0, 0, false⟩,
  ⟨0x2005C, [(3, 0x4000)], 0, 0, 0, 0, 0, 0xFFFFFFFF, 0, 0, 0, false⟩,
  ⟨0x20060, [(3, 0x4000)], 0, 0, 0, 0, 0, 0x3FF, 0, 0, 0, false⟩,
  ⟨0x20064, [(3, 0x4000)], 0x3FF, 0, 0, 0, 0, 0, 0, 0, 1, false⟩,
  ⟨0x20068, [(3, 0x4000)], 0, 0, 0, 0, 0, 0xFFFF, 0, 0, 0, false⟩,
  ⟨0x2006C, [(3, 0x4000)], 0, 0, 0, 0, 0, 0xFFFFFFFF, 0, 0, 0, true⟩]

/-- The registers of the LNK block, in address order. -/
def regMapLnk : List RegEntry := [
  ⟨0x30000, [(3, 0x400)], 0x3F, 0x3F, 0, 0, 0, 0, 0, 0, 0x3F, false⟩,
  ⟨0x30004, [(3, 0x400)], 0, 0, 0, 0, 0, 0x3FFFFFFF, 0, 0, 0xFFF000, false⟩,
  ⟨0x30008, [(3, 0x400)], 0, 0, 0, 0, 0, 0xFFFFFF, 0, 0, 0, false⟩,
  ⟨0x3000C, [(3, 0x400)], 0x1FFFFF, 0x1FFFFF, 0, 0, 0, 0, 0, 0, 0x100FB0, false⟩,
  ⟨0x30010, [(3, 0x400)], 0xFF, 0xFF, 0, 0, 0, 0, 0, 0, 0xA, false⟩,
  ⟨0x30014, [(3, 0x400)], 0, 0, 0, 0, 0, 0x3FFFFFF, 0, 0, 0, false⟩,
  ⟨0x30018, [(3, 0x400)], 0, 0, 0, 0, 0, 0xFFFFFFFF, 0, 0, 0, false⟩,
  ⟨0x3001C, [(3, 0x400)], 0, 0, 0, 0, 0, 0xFFFFFFFF, 0, 0, 0, false⟩,
  ⟨0x30020, [(3, 0x400)], 0, 0, 0xFFF, 0, 0, 0, 0, 0, 0, false⟩,
  ⟨0x30024, [(3, 0x400)], 0xFFF, 0, 0, 0, 0, 0, 0, 0, 0, false⟩,
  ⟨0x30028, [(3, 0x400)], 0, 0, 0, 0, 0, 0xFFFFFFFF, 0, 0, 0, true⟩,
  ⟨0x3002C, [(3, 0x400)], 0, 0, 0, 0, 0, 0xFFFFFFFF, 0, 0, 0, true⟩,
  ⟨0x30030, [(3, 0x400)], 0, 0, 0, 0, 0, 0xFFFFFFFF, 0, 0, 0, true⟩,
  ⟨0x30034, [(3, 0x400)], 0, 0, 0, 0, 0, 0xFFFFFFFF, 0, 0, 0, true⟩,
  ⟨0x30038, [(3, 0x400)], 0, 0, 0, 0, 0, 0xFFFFFFFF, 0, 0, 0, true⟩,
  ⟨0x3003C, [(3, 0x400)], 0, 0, 0, 0, 0, 0xFFFFFFFF, 0, 0, 0, true⟩,
  ⟨0x30040, [(3, 0x400)], 0, 0, 0, 0, 0, 0xFFFFFFFF, 0, 0, 0, true⟩,
  ⟨0x30044, [(3, 0x400)], 0, 0, 0, 0, 0, 0xFFFFFFFF, 0, 0, 0, true⟩,
  ⟨0x30048, [(3, 0x400)], 0, 0, 0, 0, 0, 0xFFFFFFFF, 0, 0, 0, true⟩,
  ⟨0x3004C, [(3, 0x400)], 0, 0, 0, 0, 0, 0xFFFFFFFF, 0, 0, 0, true⟩,
  ⟨0x30050, [(3, 0x400)], 0xFF, 0xFF, 0, 0, 0, 0, 0, 0, 0xA, false⟩,
  ⟨0x30054, [(3, 0x400)], 0, 0, 0, 0, 0, 0x3FF, 0, 0x200, 0, false⟩,
  ⟨0x30058, [(3, 0x400)], 8, 0, 0, 0, 0x37, 0, 0, 0, 0, false⟩,
  ⟨0x3005C, [(3, 0x400)], 0xFFFFFFFF, 0, 0, 0, 0, 0, 0, 0, 0, false⟩,
  ⟨0x30060, [(3, 0x400)], 0, 0, 0, 0, 0, 0xFFFFFFFF, 0, 0, 0, false⟩,
  ⟨0x30064, [(3, 0x400)], 0, 0, 0, 0, 0, 0x7FF, 0, 0, 0, false⟩,
  ⟨0x30068, [(3, 0x400)], 0, 0, 0, 0, 0, 0xFFFFFFFF, 0, 0, 0, true⟩,
  ⟨0x3006C, [(3, 0x400)], 0, 0, 0, 0, 0, 0xFFFFFFFF, 0, 0, 0, true⟩,
  ⟨0x30070, [(3, 0x400)], 0, 0, 0, 0, 0, 0xFFFFFFFF, 0, 0, 0, true⟩,
  ⟨0x30074, [(3, 0x400)], 0, 0, 0, 0, 0, 0xFFFFFFFF, 0, 0, 0, true⟩,
  ⟨0x30078, [(3, 0x400)], 0, 0, 0, 0, 0, 0xFFFFFFFF, 0, 0, 0, true⟩,
  ⟨0x3007C, [(3, 0x400)], 0, 0, 0, 0, 0, 0xFFFFFFFF, 0, 0, 0, true⟩,
  ⟨0x30100, [(3, 0x400), (16, 4)], 0xFFFFFFFF, 0, 0, 0, 0, 0, 0, 0, 0, false⟩,
  ⟨0x30140, [(3, 0x400), (16, 4)], 0, 0, 0, 0, 0, 0xFFFFFFFF, 0, 0, 0, false⟩]

/-- The registers of the FAB block, in address order. -/
def regMapFab : List RegEntry := [
  ⟨0x40000, [(1024, 8)], 0xFFFFFFFF, 0xFFFFFFFF, 0, 0, 0, 0, 0, 0, 0, false⟩,
  ⟨0x40004, [(1024, 8)], 0, 0, 0, 0, 0, 0xF, 0, 0, 0, false⟩,
  ⟨0x42000, [(256, 4)], 0x43FFFFFF, 0x43FFFFFF, 0, 0, 0, 0x3C000000, 0, 0, 0, false⟩,
  ⟨0x44000, [(4096, 8)], 0xFFFFFFFF, 0xFFFFFFFF, 0, 0, 0, 0, 0, 0, 0, false⟩,
  ⟨0x44004, [(4096, 8)], 0x10FFFFFF, 0x10FFFFFF, 0, 0, 0, 0xF000000, 0, 0, 0, false⟩,
  ⟨0x4C000, [(4096, 8)], 0, 0, 0, 0, 0, 0xFFFFFFFF, 0, 0, 0, false⟩,
  ⟨0x4C004, [(4096, 8)], 0, 0, 0, 0, 0, 0x7FFFFF, 0, 0, 0, false⟩,
  ⟨0x5F000, [], 0x3FF, 0x3FF, 0, 0, 0, 0x8000, 0, 0, 0, false⟩,
  ⟨0x5F004, [], 0, 0, 0, 0, 0, 0xFF, 0, 0, 0, false⟩,
  ⟨0x5F008, [], 0x3FFFF, 0x3FFFF, 0, 0, 0, 0, 0, 0, 0x20503, false⟩,
  ⟨0x5F00C, [], 0xFFFFFFFF, 0xFFFFFFFF, 0, 0, 0, 0, 0, 0, 0, false⟩,
  ⟨0x5F010, [], 0xFFFFFFFF, 0xFFFFFFFF, 0, 0, 0, 0, 0, 0, 0, false⟩,
  ⟨0x5F014, [], 0x3FFFFFFF, 0x3FFFFFFF, 0, 0, 0, 0, 0, 0, 0x2A00000, false⟩,
  ⟨0x5F018, [(2, 4)], 0, 0, 0, 0, 0, 0xFFFFFFFF, 0, 0, 0, false⟩,
  ⟨0x5F020, [(2, 4)], 0, 0, 0, 0, 0, 0xFFFFFFFF, 0, 0, 0, false⟩,
  ⟨0x5F028, [], 0x3FFFF, 0x3FFFF, 0, 0, 0, 0, 0, 0, 3, false⟩,
  ⟨0x5F02C, [], 0, 0, 0, 0, 0, 0x3FFFFF, 0, 0, 0x30, false⟩,
  ⟨0x5F030, [], 0, 0, 0, 0, 0, 0xFFFFFFFF, 0, 0, 0, false⟩,
  ⟨0x5F034, [], 0, 0, 0, 0, 0, 0xFFFFF, 0, 0, 0, false⟩,
  ⟨0x5F038, [], 0, 0, 0, 0, 0, 0xFFFFFFFF, 0, 0, 0, false⟩,
  ⟨0x5F03C, [(3, 4)], 0, 0, 0, 0, 0, 0x1FFFF, 0, 0, 0, false⟩,
  ⟨0x5F048, [], 0xFF, 0xFF, 0, 0, 0, 0x3F00, 0, 0, 0, false⟩,
  ⟨0x5F04C, [], 0, 0, 0, 0, 0, 0xFFFFFFFF, 0, 0, 0, false⟩,
  ⟨0x5F050, [], 0, 0, 0xFF, 0, 0, 0, 0, 0, 0, false⟩,
  ⟨0x5F054, [], 0xFF, 0, 0, 0, 0, 0, 0, 0, 0, false⟩,
  ⟨0x5F058, [], 0, 0, 0, 0, 0, 0xFFFFFFFF, 0, 0, 0, true⟩,
  ⟨0x5F05C, [], 0, 0, 0, 0, 0, 0xFFFFFFFF, 0, 0, 0, true⟩,
  ⟨0x5F060, [], 0, 0, 0, 0, 0, 0xFFFFFFFF, 0, 0, 0, true⟩,
  ⟨0x5F064, [], 0, 0, 0, 0, 0, 0xFFFFFFFF, 0, 0, 0, true⟩,
  ⟨0x5F068, [], 0, 0, 0, 0, 0, 0xFFFFFFFF, 0, 0, 0, true⟩,
  ⟨0x5F06C, [], 0, 0, 0, 0, 0, 0xFFFFFFFF, 0, 0, 0, true⟩,
  ⟨0x5F070, [], 0, 0, 0, 0, 0, 0xFFFFFFFF, 0, 0, 0, true⟩,
  ⟨0x5F074, [], 0, 0, 0, 0, 0, 0xFFFFFFFF, 0, 0, 0, true⟩,
  ⟨0x5F078, [], 0, 0, 0, 0, 0, 0xFFFFFFFF, 0, 0, 0, true⟩,
  ⟨0x5F07C, [], 0, 0, 0, 0, 0, 0xFFFFFFFF, 0, 0, 0, true⟩,
  ⟨0x5F080, [], 0, 0, 0, 0, 0, 0xFFFFFFFF, 0, 0, 0, true⟩,
  ⟨0x5F084, [], 0, 0, 0, 0, 0, 0xFFFFFFFF, 0, 0, 0, true⟩,
  ⟨0x5F088, [], 0, 0, 0, 0, 0, 0xFFFFFFFF, 0, 0, 0, true⟩,
  ⟨0x5F08C, [], 0, 0, 0, 0, 0, 0xFFFFFFFF, 0, 0, 0, true⟩,
  ⟨0x5F090, [], 0, 0, 0, 0, 0, 0xFFFFFFFF, 0, 0, 0, true⟩,
  ⟨0x5F094, [], 0, 0, 0, 0, 0, 0xFFFFFFFF, 0, 0, 0, true⟩,
  ⟨0x5F098, [], 0, 0, 0, 0, 0, 0xFFFFFFFF, 0, 0, 0, true⟩,
  ⟨0x5F09C, [(3, 4)], 0, 0, 0, 0, 0, 0xFFFFFFFF, 0, 0, 0, true⟩,
  ⟨0x5F0A8, [(8, 4)], 0, 0, 0, 0, 0, 0xFFFFFFFF, 0, 0, 0, true⟩]

/-- The registers of the SWC block, in address order. -/
def regMapSwc : List RegEntry := [
  ⟨0x60000, [], 1, 1, 0, 0, 2, 0, 0, 0, 1, false⟩,
  ⟨0x60004, [], 0, 0, 0, 0, 0, 0x7FFF7FFF, 0, 0, 0xC000C00, false⟩,
  ⟨0x60008, [], 0x7FFF, 0x7FFF, 0, 0, 0, 0, 0, 0, 0x100, false⟩,
  ⟨0x60010, [(10, 4)], 0x7FFF7FFF, 0x7FFF7FFF, 0, 0, 0, 0, 0, 0, 0, false⟩,
  ⟨0x60040, [(10, 4)], 0, 0, 0, 0, 0, 0x7FFF7FFF, 0, 0, 0, false⟩,
  ⟨0x60070, [(10, 4)], 0, 0, 0, 0, 0, 0xFFFF, 0, 0, 0, false⟩,
  ⟨0x600A0, [], 0xFFFF, 0xFFFF, 0, 0, 0, 0, 0, 0, 0xEF01, false⟩,
  ⟨0x600A4, [], 0xFFFF, 0xFFFF, 0, 0, 0, 0, 0, 0, 0x2222, false⟩,
  ⟨0x600B0, [(8, 4)], 0xFFFFFFFF, 0xFFFFFFFF, 0, 0, 0, 0, 0, 0, 0x66666666, false⟩,
  ⟨0x600D0, [(4, 0x10), (3, 4)], 0x3FFFFFFF, 0x3FFFFFFF, 0, 0, 0, 0, 0, 0, 0, false⟩,
  ⟨0x60110, [], 0x3FFF, 0, 0, 0, 0, 0, 0, 0, 0, false⟩,
  ⟨0x60114, [], 0, 0, 0, 0, 0, 0x7FFF7FFF, 0, 0, 0, false⟩,
  ⟨0x60118, [], 0, 0, 0, 0, 0, 0x7FFFFFFF, 0, 0, 0, false⟩,
  ⟨0x60120, [], 0x3F, 0x3F, 0, 0, 0, 0, 0, 0, 0x3E, false⟩,
  ⟨0x60140, [(16, 8)], 0xFFFFFF, 0xFFFFFF, 0, 0, 0, 0, 0, 0, 0x40000, false⟩,
  ⟨0x60144, [(16, 8)], 0x7FFFFF, 0x7FFFFF, 0, 0, 0, 0, 0, 0, 0xFFFF, false⟩,
  ⟨0x601C0, [(16, 4)], 0x1FFF, 0x1FFF, 0, 0, 0, 0, 0, 0, 0, false⟩,
  ⟨0x60200, [], 0, 0, 0x1F, 0, 0, 0, 0, 0, 0, false⟩,
  ⟨0x60204, [], 0x1F, 0, 0, 0, 0, 0, 0, 0, 0, false⟩,
  ⟨0x60208, [], 0, 0, 0, 0, 0, 0xFFFFFFFF, 0, 0, 0, false⟩,
  ⟨0x60210, [], 0, 0, 0, 0, 0, 0xFFFFFFFF, 0, 0, 0, true⟩,
  ⟨0x60214, [], 0, 0, 0, 0, 0, 0xFFFFFFFF, 0, 0, 0, true⟩,
  ⟨0x60218, [], 0, 0, 0, 0, 0, 0xFFFFFFFF, 0, 0, 0, true⟩,
  ⟨0x6021C, [], 0, 0, 0, 0, 0, 0xFFFFFFFF, 0, 0, 0, true⟩,
  ⟨0x60220, [], 0, 0, 0, 0, 0, 0xFFFFFFFF, 0, 0, 0, true⟩,
  ⟨0x60300, [(10, 0x20)], 0, 0, 0, 0, 0, 0xFFFFFFFF, 0, 0, 0, true⟩,
  ⟨0x60304, [(10, 0x20)], 0, 0, 0, 0, 0, 0xFFFFFFFF, 0, 0, 0, true⟩,
  ⟨0x60308, [(10, 0x20)], 0, 0, 0, 0, 0, 0xFFFFFFFF, 0, 0, 0, true⟩,
  ⟨0x6030C, [(10, 0x20)], 0, 0, 0, 0, 0, 0xFFFFFFFF, 0, 0, 0, true⟩,
  ⟨0x60310, [(10, 0x20)], 0, 0, 0, 0, 0, 0xFFFFFFFF, 0, 0, 0, true⟩,
  ⟨0x60314, [(10, 0x20)], 0, 0, 0, 0, 0, 0xFFFFFFFF, 0, 0, 0, true⟩,
  ⟨0x60318, [(10, 0x20)], 0, 0, 0, 0, 0, 0xFFFFFFFF, 0, 0, 0, true⟩]

/-- The registers of the SCH block, in address order. -/
def regMapSch : List RegEntry := [
  ⟨0x70000, [], 0x1FF, 0x1FF, 0, 0, 0, 0, 0, 0, 0x21, false⟩,
  ⟨0x70004, [], 0, 0, 7, 0, 0, 0, 0, 0, 0, false⟩,
  ⟨0x70008, [], 7, 0, 0, 0, 0, 0, 0, 0, 0, false⟩,
  ⟨0x7000C, [], 0, 0, 0, 0, 0, 0xFFFFFFFF, 0, 0, 0, true⟩,
  ⟨0x70010, [], 0, 0, 0, 0, 0, 0xFFFFFFFF, 0, 0, 0, true⟩,
  ⟨0x70014, [], 0, 0, 0, 0, 0, 0xFFFFFFFF, 0, 0, 0, true⟩,
  ⟨0x70020, [], 0x3FF, 0, 0, 0, 0, 0, 0, 0, 0, false⟩,
  ⟨0x70024, [], 0, 0, 0, 0, 0, 0xFFFFFFFF, 0, 0, 0, false⟩,
  ⟨0x70028, [], 0, 0, 0, 0, 0, 0xFFFFFFFF, 0, 0, 0, false⟩,
  ⟨0x7002C, [], 0, 0, 0, 0, 0, 0xFFFFFFFF, 0, 0, 0, false⟩,
  ⟨0x70030, [], 0, 0, 0, 0, 0, 0xFFFF, 0, 0, 0, false⟩,
  ⟨0x70034, [], 0, 0, 0, 0, 0, 0xFFFFFFFF, 0, 0, 0, false⟩,
  ⟨0x70038, [], 0, 0, 0, 0, 0, 0xFFFFFFFF, 0, 0, 0, false⟩,
  ⟨0x7003C, [], 0, 0, 0, 0, 0, 0xFFFFFFFF, 0, 0, 0, false⟩,
  ⟨0x70040, [], 0, 0, 0, 0, 0, 0xFFFFFFFF, 0, 0, 0, false⟩,
  ⟨0x70100, [(10, 0x40)], 0xFFFF07FF, 0xFFFF07FF, 0, 0, 0, 0, 0, 0, 0, false⟩,
  ⟨0x70104, [(10, 0x40)], 0xFFFFFFFF, 0xFFFFFFFF, 0, 0, 0, 0, 0, 0, 0, false⟩,
  ⟨0x70108, [(10, 0x40)], 0, 0, 0, 0, 0, 0xFF, 0, 0, 0x40, false⟩,
  ⟨0x7010C, [(10, 0x40), (2, 4)], 0x7FFFFFF, 0x7FFFFFF, 0, 0, 0, 0, 0, 0, 0x1E848, false⟩,
  ⟨0x70114, [(10, 0x40)], 0xFFFFFFFF, 0, 0, 0, 0, 0, 0, 0, 0, false⟩,
  ⟨0x70118, [(10, 0x40)], 0xFFFFF, 0, 0, 0, 0x300000, 0x400000, 0, 0, 0, false⟩,
  ⟨0x7011C, [(10, 0x40)], 0, 0, 0x60000, 0, 0, 0x1FFFF, 0, 0, 0xFF, false⟩,
  ⟨0x71000, [(10, 0x200), (64, 8)], 0xFFFF, 0xFFFF, 0, 0, 0, 0, 0, 0, 0, false⟩,
  ⟨0x71004, [(10, 0x200), (64, 8)], 0xFFFFFFFF, 0xFFFFFFFF, 0, 0, 0, 0, 0, 0, 0, false⟩,
  ⟨0x74000, [(10, 0x800), (2, 0x400), (256, 4)], 0xFFFFFFFF, 0xFFFFFFFF, 0, 0, 0, 0, 0, 0, 0, false⟩,
  ⟨0x7A000, [(512, 0x10)], 0x7FFFFF, 0x7FFFFF, 0, 0, 0, 0, 0, 0, 0, false⟩,
  ⟨0x7A004, [(512, 0x10)], 0xFFFFF, 0xFFFFF, 0, 0, 0, 0, 0, 0, 0, false⟩,
  ⟨0x7A008, [(512, 0x10)], 0xFFFFFFFF, 0xFFFFFFFF, 0, 0, 0, 0, 0, 0, 0, false⟩,
  ⟨0x7C000, [(512, 8)], 0, 0, 0, 0, 0, 0x7FFFFF, 0, 0, 0, false⟩,
  ⟨0x7C004, [(512, 8)], 0, 0, 0, 0, 0, 0x7FFFFF, 0, 0, 0, false⟩]

/-- The registers of the BUD block, in address order. -/
def regMapBud : List RegEntry := [
  ⟨0x80000, [], 0x7F, 0, 0, 0, 0, 0, 0, 0, 0, false⟩,
  ⟨0x80004, [], 0, 0, 0, 0, 0, 0xFFFFFFF, 0, 0, 0, false⟩,
  ⟨0x80008, [], 0x7FFFFFF, 0x7FFFFFF, 0, 0, 0, 0, 0, 0, 0x3252464, false⟩,
  ⟨0x8000C, [], 0xFFFF, 0xFFFF, 0, 0, 0, 0, 0, 0, 0, false⟩,
  ⟨0x80010, [], 0, 0, 0, 0, 0, 0x7FFFFFF, 0, 0, 0, false⟩,
  ⟨0x80014, [], 0, 0, 0, 0, 0, 0x7FFFFFF, 0, 0, 0, false⟩,
  ⟨0x80018, [], 0, 0, 0, 0, 0, 0xFFFFFFFF, 0, 0, 0, false⟩,
  ⟨0x8001C, [], 0, 0, 0, 0, 0, 0x7FF, 0, 0, 0, false⟩,
  ⟨0x80020, [], 0xFFFFFFFF, 0xFFFFFFFF, 0, 0, 0, 0, 0, 0, 0x50463C32, false⟩,
  ⟨0x80024, [], 0xFFFFFFFF, 0xFFFFFFFF, 0, 0, 0, 0, 0, 0, 0x5625E58, false⟩,
  ⟨0x80028, [], 0xFFFFFFFF, 0xFFFFFFFF, 0, 0, 0, 0, 0, 0, 0xAEA9A49F, false⟩,
  ⟨0x8002C, [], 0xFFFFFFFF, 0xFFFFFFFF, 0, 0, 0, 0, 0, 0, 0x3B9B6B3, false⟩,
  ⟨0x80030, [], 0xFFFFFFFF, 0xFFFFFFFF, 0, 0, 0, 0, 0, 0, 0xC2B8AEA4, false⟩,
  ⟨0x80034, [], 0xFFFFFFFF, 0xFFFFFFFF, 0, 0, 0, 0, 0, 0, 0x5D4D0CA, false⟩,
  ⟨0x80040, [(8, 4)], 0xFFFFFFF, 0xFFFFFFF, 0, 0, 0, 0, 0, 0, 0, false⟩,
  ⟨0x80060, [], 0, 0, 0, 0, 0, 0xF, 0, 0, 0, false⟩,
  ⟨0x80064, [(4, 4)], 0, 0, 0, 0, 0, 0x7FFFFF, 0, 0, 0, false⟩,
  ⟨0x80078, [], 0, 0, 0x7F, 0, 0, 0, 0, 0, 0, false⟩,
  ⟨0x8007C, [], 0x7F, 0, 0, 0, 0, 0, 0, 0, 0, false⟩,
  ⟨0x80080, [(8, 4)], 0, 0, 0, 0, 0, 0xFFFFFFFF, 0, 0, 0, true⟩,
  ⟨0x800A0, [], 0, 0, 0, 0, 0, 0xFFFFFFFF, 0, 0, 0, true⟩,
  ⟨0x800A4, [], 0, 0, 0, 0, 0, 0xFFFFFFFF, 0, 0, 0, true⟩,
  ⟨0x800A8, [], 0, 0, 0, 0, 0, 0xFFFFFFFF, 0, 0, 0, true⟩]

/-- The registers of the USB block, in address order. -/
def regMapUsb : List RegEntry := [
  ⟨0x90000, [], 0x1FFFFF, 0x1FFFFF, 0, 0, 0, 0, 0, 0, 0x8821F, false⟩,
  ⟨0x90004, [], 0, 0, 0, 0, 0, 0x3FFFFF, 0, 0, 0, false⟩,
  ⟨0x90008, [], 0xFFFFFFFF, 0xFFFFFFFF, 0, 0, 0, 0, 0, 0, 0, false⟩,
  ⟨0x9000C, [], 0xFF7FFF, 0xFF7FFF, 0, 0, 0, 0, 0, 0, 0x320000, false⟩,
  ⟨0x90010, [], 0xFFFFFFFF, 0xFFFFFFFF, 0, 0, 0, 0, 0, 0, 0x64081E0C, false⟩,
  ⟨0x90014, [], 0, 0, 0xFFF, 0, 0, 0, 0, 0, 0, false⟩,
  ⟨0x90018, [], 0xFFF, 0, 0, 0, 0, 0, 0, 0, 0, false⟩,
  ⟨0x90020, [(2, 4)], 7, 7, 0, 0, 0, 0, 0, 0, 3, false⟩,
  ⟨0x90028, [(2, 4)], 0, 0, 0, 0, 0, 0x3FFFF, 0, 0, 0, false⟩,
  ⟨0x90040, [], 0, 0, 0, 0, 0, 0xFFFFFFFF, 0, 0, 0, true⟩,
  ⟨0x90044, [], 0, 0, 0, 0, 0, 0xFFFFFFFF, 0, 0, 0, true⟩,
  ⟨0x90048, [], 0, 0, 0, 0, 0, 0xFFFFFFFF, 0, 0, 0, true⟩,
  ⟨0x9004C, [], 0, 0, 0, 0, 0, 0xFFFFFFFF, 0, 0, 0, true⟩,
  ⟨0x90050, [], 0, 0, 0, 0, 0, 0xFFFFFFFF, 0, 0, 0, true⟩,
  ⟨0x90054, [], 0, 0, 0, 0, 0, 0xFFFFFFFF, 0, 0, 0, true⟩,
  ⟨0x90058, [], 0, 0, 0, 0, 0, 0xFFFFFFFF, 0, 0, 0, true⟩,
  ⟨0x9005C, [], 0, 0, 0, 0, 0, 0xFFFFFFFF, 0, 0, 0, true⟩,
  ⟨0x91000, [(240, 8)], 0xFFFFFF, 0xFFFFFF, 0, 0, 0, 0, 0, 0, 0, false⟩,
  ⟨0x91004, [(240, 8)], 0x1FFF, 0x1FFF, 0, 0, 0, 0, 0, 0, 0, false⟩,
  ⟨0x92000, [(240, 8)], 0, 0, 0, 0, 0, 0x3FFFFF, 0, 0, 0, false⟩,
  ⟨0x92004, [(240, 8)], 0, 0, 0, 0, 0, 0xFFFF, 0, 0, 0, false⟩]

/-- The registers of the WIN block, in address order. -/
def regMapWin : List RegEntry := [
  ⟨0xA0000, [], 0x3F, 0x3F, 0, 0, 0, 0, 0, 0, 0x3F, false⟩,
  ⟨0xA0004, [], 0, 0, 0, 0, 0, 0xFFFF, 0, 0, 0, false⟩,
  ⟨0xA0008, [], 0xFFFFFFFF, 0xFFFFFFFF, 0, 0, 0, 0, 0, 0, 0, false⟩,
  ⟨0xA000C, [], 0xFFFFFF, 0xFFFFFF, 0, 0, 0, 0, 0, 0, 0x88000, false⟩,
  ⟨0xA0010, [], 0x1FFF, 0x1FFF, 0, 0, 0, 0, 0, 0, 0xC4B, false⟩,
  ⟨0xA0014, [], 0xFFFFFF, 0xFFFFFF, 0, 0, 0, 0, 0, 0, 0x200A28, false⟩,
  ⟨0xA0018, [], 0xF, 0xF, 0, 0, 0, 0, 0, 0, 8, false⟩,
  ⟨0xA0020, [], 0xFFF, 0, 0, 0, 0x7000, 0, 0, 0, 0, false⟩,
  ⟨0xA0024, [], 0, 0, 0, 0, 0, 0x1FFFFF, 0, 0, 0, false⟩,
  ⟨0xA0028, [], 0, 0, 0, 0, 0, 0x3FFFFF, 0, 0, 0, false⟩,
  ⟨0xA0030, [], 0, 0, 0x1FF, 0, 0, 0, 0, 0, 0, false⟩,
  ⟨0xA0034, [], 0x1FF, 0, 0, 0, 0, 0, 0, 0, 0, false⟩,
  ⟨0xA0038, [], 0xFFFFF000, 0xFFFFF000, 0, 0, 0, 0, 0, 0, 0, false⟩,
  ⟨0xA003C, [], 0xFFFF, 0xFFFF, 0, 0, 0, 0, 0, 0, 0, false⟩,
  ⟨0xA0040, [], 0x7F, 0x7F, 0, 0, 0, 0, 0, 0, 0xC, false⟩,
  ⟨0xA0044, [], 3, 2, 0, 0, 4, 0, 0, 0, 3, false⟩,
  ⟨0xA0048, [], 0, 0, 0xFFFFFFFF, 0, 0, 0, 0, 0, 0, false⟩,
  ⟨0xA004C, [], 0x7FFFFFFF, 0x7FFFFFFF, 0, 0, 0, 0, 0, 0, 0, false⟩,
  ⟨0xA0058, [], 0, 0, 0, 0, 0, 0x1FFFF, 0, 0, 0, false⟩,
  ⟨0xA005C, [], 0x1FFFF, 0, 0, 0, 0, 0, 0, 0, 0, false⟩,
  ⟨0xA0060, [], 0, 0, 0, 0, 0, 0xFFFFFFFF, 0, 0, 0, true⟩,
  ⟨0xA0064, [], 0, 0, 0, 0, 0, 0xFFFFFFFF, 0, 0, 0, true⟩,
  ⟨0xA0068, [], 0, 0, 0, 0, 0, 0xFFFFFFFF, 0, 0, 0, true⟩,
  ⟨0xA006C, [], 0, 0, 0, 0, 0, 0xFFFFFFFF, 0, 0, 0, true⟩,
  ⟨0xA0070, [], 0, 0, 0, 0, 0, 0xFFFFFFFF, 0, 0, 0, true⟩,
  ⟨0xA0074, [], 0, 0, 0, 0, 0, 0xFFFFFFFF, 0, 0, 0, true⟩,
  ⟨0xA0078, [], 0, 0, 0, 0, 0, 0xFFFFFFFF, 0, 0, 0, true⟩,
  ⟨0xA007C, [], 0, 0, 0, 0, 0, 0xFFFFFFFF, 0, 0, 0, true⟩,
  ⟨0xA0080, [], 0, 0, 0, 0, 0, 0xFFFFFFFF, 0, 0, 0, true⟩,
  ⟨0xA0084, [], 0, 0, 0, 0, 0, 0xFFFFFFFF, 0, 0, 0, true⟩,
  ⟨0xA0088, [], 0, 0, 0, 0, 0, 0xFFFFFFFF, 0, 0, 0, true⟩,
  ⟨0xA008C, [], 0, 0, 0, 0, 0, 0xFFFFFFFF, 0, 0, 0, true⟩,
  ⟨0xA0090, [], 0, 0, 0, 0, 0, 0xFFFFFFFF, 0, 0, 0, true⟩,
  ⟨0xA0094, [], 0, 0, 0, 0, 0, 0xFFFFFFFF, 0, 0, 0, true⟩,
  ⟨0xA0098, [], 0, 0, 0, 0, 0, 0xFFFFFFFF, 0, 0, 0, true⟩,
  ⟨0xA00A0, [], 0, 0, 0, 0, 0, 0x7FF, 0, 0, 0, false⟩,
  ⟨0xA00A4, [], 0, 0, 0, 0, 0, 0xFFFFFFFF, 0, 0, 0, false⟩,
  ⟨0xA0100, [(16, 4)], 0x1F, 0x1F, 0, 0, 0, 0, 0, 0, 0, false⟩,
  ⟨0xA0140, [(4, 0x10)], 0xFFFFF000, 0xFFFFF000, 0, 0, 0, 0, 0, 0, 0, false⟩,
  ⟨0xA0144, [(4, 0x10)], 0xFFFFFFFF, 0xFFFFFFFF, 0, 0, 0, 0, 0, 0, 0, false⟩,
  ⟨0xA0148, [(4, 0x10)], 0x7FF, 0x7FF, 0, 0, 0, 0, 0, 0, 0xC, false⟩,
  ⟨0xA0200, [(16, 0x10)], 0x3FFC1F, 0x3FFC1F, 0, 0, 0, 0x3E0, 0, 0, 0, false⟩,
  ⟨0xA0204, [(16, 0x10)], 0xFFFFFFFF, 0xFFFFFFFF, 0, 0, 0, 0, 0, 0, 0, false⟩,
  ⟨0xA0208, [(16, 0x10)], 0xFFFFFFFF, 0xFFFFFFFF, 0, 0, 0, 0, 0, 0, 0, false⟩,
  ⟨0xA020C, [(16, 0x10)], 0x3F, 0x3F, 0, 0, 0, 0, 0, 0, 0xC, false⟩,
  ⟨0xA0400, [(8, 0x20)], 0, 0, 0, 0, 0, 0xFFFFFFFF, 0, 0, 0, false⟩,
  ⟨0xA0404, [(8, 0x20)], 0, 0, 0, 0, 0, 0xFFFFFFFF, 0, 0, 0, false⟩,
  ⟨0xA0408, [(8, 0x20)], 0, 0, 0, 0, 0, 0xFFFFFFFF, 0, 0, 0, false⟩,
  ⟨0xA040C, [(8, 0x20)], 0, 0, 0, 0, 0, 0xFFFFFFFF, 0, 0, 0, false⟩,
  ⟨0xA0410, [(8, 0x20)], 0, 0, 0, 0, 0, 0xFFFFFFFF, 0, 0, 0, false⟩,
  ⟨0xA0414, [(8, 0x20)], 0, 0, 0x800000, 0, 0, 0x7FFFFF, 0, 0, 0, false⟩,
  ⟨0xA0418, [(8, 0x20)], 0, 0, 0, 0, 0, 0x7FFFFFF, 0, 0, 0, false⟩,
  ⟨0xA0600, [(16, 0x10)], 0, 0, 0, 0, 0, 0xFFFFFFFF, 0, 0, 0, false⟩,
  ⟨0xA0604, [(16, 0x10)], 0, 0, 0, 0, 0, 0xFFFFFFFF, 0, 0, 0, false⟩,
  ⟨0xA0608, [(16, 0x10)], 0, 0, 0, 0, 0, 0xFFFFFFFF, 0, 0, 0, false⟩,
  ⟨0xA060C, [(16, 0x10)], 0, 0, 0x4000000, 0, 0, 0x3FFFFFF, 0, 0, 0, false⟩,
  ⟨0xA0800, [(64, 0x20)], 0xFFFFFFF0, 0xFFFFFFF0, 0, 0, 0, 0, 0, 0, 0, false⟩,
  ⟨0xA0804, [(64, 0x20)], 0xFFFFFFFF, 0xFFFFFFFF, 0, 0, 0, 0, 0, 0, 0, false⟩,
  ⟨0xA0808, [(64, 0x20)], 0xFFFFFF7F, 0xFFFFFF7F, 0, 0, 0, 0, 0, 0, 0x320110, false⟩,
  ⟨0xA080C, [(64, 0x20)], 0, 0, 0, 0, 0, 0xFFFF, 0, 0, 0, false⟩,
  ⟨0xA0810, [(64, 0x20)], 0xFFFF, 0, 0, 0, 0, 0, 0, 0, 0, false⟩,
  ⟨0xA0814, [(64, 0x20)], 0, 0, 0, 0, 0, 0xFFFFFFFF, 0, 0, 0, false⟩,
  ⟨0xA0818, [(64, 0x20)], 0, 0, 0, 0, 0, 7, 0, 0, 0, false⟩]

/-- The registers of the VID block, in address order. -/
def regMapVid : List RegEntry := [
  ⟨0xB0000, [], 3, 3, 0, 0, 0, 0, 0, 0, 0, false⟩,
  ⟨0xB0004, [], 0, 0, 0, 0, 0, 7, 0, 0, 0, false⟩,
  ⟨0xB0008, [], 0x3FFFF, 0x3FFFF, 0, 0, 0, 0, 0, 0, 0x32191, false⟩,
  ⟨0xB0010, [(4, 8)], 0x3FFFFF, 0x3FFFFF, 0, 0, 0, 0, 0, 0, 0x200158, false⟩,
  ⟨0xB0014, [(4, 8)], 0x1FFF, 0x1FFF, 0, 0, 0, 0, 0, 0, 0x400, false⟩,
  ⟨0xB0030, [(4, 4)], 0, 0, 0, 0, 0, 0x3FFFF, 0, 0, 0, false⟩,
  ⟨0xB0040, [], 0xFFFF, 0xFFFF, 0, 0, 0, 0, 0, 0, 0xC0C9, false⟩,
  ⟨0xB0044, [], 0xFFFFFFFF, 0xFFFFFFFF, 0, 0, 0, 0, 0, 0, 0x4200320, false⟩,
  ⟨0xB0048, [], 0xFFFFFFFF, 0xFFFFFFFF, 0, 0, 0, 0, 0, 0, 0x580080, false⟩,
  ⟨0xB004C, [], 0xFFFFFFFF, 0xFFFFFFFF, 0, 0, 0, 0, 0, 0, 0x20D01E0, false⟩,
  ⟨0xB0050, [], 0xFFFFFFFF, 0xFFFFFFFF, 0, 0, 0, 0, 0, 0, 0x200003, false⟩,
  ⟨0xB0054, [], 0xFFFFFF, 0xFFFFFF, 0, 0, 0, 0, 0, 0, 0x3203, false⟩,
  ⟨0xB0058, [], 0xFFFFFF, 0xFFFFFF, 0, 0, 0, 0, 0, 0, 0, false⟩,
  ⟨0xB005C, [], 0x7FFF, 0, 0, 0, 0x10000, 0x20000, 0, 0, 0, false⟩,
  ⟨0xB0060, [], 0, 0, 0, 0, 0, 0x1FFFF, 0, 0, 0, false⟩,
  ⟨0xB0070, [], 0, 0, 0x3F, 0, 0, 0, 0, 0, 0, false⟩,
  ⟨0xB0074, [], 0x3F, 0, 0, 0, 0, 0, 0, 0, 0, false⟩,
  ⟨0xB0080, [(16, 4)], 0xFFFFFFFF, 0, 0, 0, 0, 0, 0, 0, 0, false⟩,
  ⟨0xB00C0, [], 0, 0, 0, 0, 0, 0xFFFFFFFF, 0, 0, 0, true⟩,
  ⟨0xB00C4, [], 0, 0, 0, 0, 0, 0xFFFFFFFF, 0, 0, 0, true⟩,
  ⟨0xB00C8, [], 0, 0, 0, 0, 0, 0xFFFFFFFF, 0, 0, 0, true⟩,
  ⟨0xB00CC, [], 0, 0, 0, 0, 0, 0xFFFFFFFF, 0, 0, 0, true⟩,
  ⟨0xB00D0, [], 0, 0, 0, 0, 0, 0xFFFFFFFF, 0, 0, 0, true⟩,
  ⟨0xB00D4, [], 0, 0, 0, 0, 0, 0xFFFFFFFF, 0, 0, 0, true⟩,
  ⟨0xB00D8, [], 0, 0, 0, 0, 0, 0xFFFFFFFF, 0, 0, 0, true⟩,
  ⟨0xB00DC, [], 0, 0, 0, 0, 0, 0xFFFFFFFF, 0, 0, 0, true⟩,
  ⟨0xB00E0, [], 0, 0, 0, 0, 0, 0xFFFFFFFF, 0, 0, 0, true⟩,
  ⟨0xB00E4, [], 0, 0, 0, 0, 0, 0xFFFFFFFF, 0, 0, 0, true⟩,
  ⟨0xB00E8, [], 0, 0, 0, 0, 0, 0xFFFFFFFF, 0, 0, 0, true⟩,
  ⟨0xB00EC, [], 0, 0, 0, 0, 0, 0xFFFFFFFF, 0, 0, 0, true⟩,
  ⟨0xB00F0, [], 0, 0, 0, 0, 0, 0xFFFFFFFF, 0, 0, 0, true⟩,
  ⟨0xB00F4, [], 0, 0, 0, 0, 0, 0xFFFFFFFF, 0, 0, 0, true⟩]

/-- The registers of the ETH block, in address order. -/
def regMapEth : List RegEntry := [
  ⟨0xC0000, [], 0x3FFFFF, 0x3FFFFF, 0, 0, 0, 0, 0, 0, 0x5F2EF, false⟩,
  ⟨0xC0004, [], 0, 0, 0, 0, 0, 0x3FFF, 0, 0, 0, false⟩,
  ⟨0xC0008, [], 0xFFFF, 0xFFFF, 0, 0, 0, 0, 0, 0, 0x12C, false⟩,
  ⟨0xC000C, [], 0x1FFF, 0, 0, 0, 0x2000, 0x4000, 0, 0, 0, false⟩,
  ⟨0xC0010, [], 0xFFFF, 0, 0, 0, 0, 0, 0, 0, 0, false⟩,
  ⟨0xC0020, [(2, 8)], 0x1FFFFFF, 0x1FFFFFF, 0, 0, 0, 0, 0, 0, 0x401000, false⟩,
  ⟨0xC0024, [(2, 8)], 0xFFFF, 0xFFFF, 0, 0, 0, 0, 0, 0, 0x8000, false⟩,
  ⟨0xC0030, [(2, 4)], 0, 0, 0, 0, 0, 1, 0, 0, 0, false⟩,
  ⟨0xC0040, [(3, 4)], 0x1FFFF, 0x1FFFF, 0, 0, 0, 0, 0, 0, 0x18001, false⟩,
  ⟨0xC0050, [], 0, 0, 0x1F, 0, 0, 0, 0, 0, 0, false⟩,
  ⟨0xC0054, [], 0x1F, 0, 0, 0, 0, 0, 0, 0, 0, false⟩,
  ⟨0xC0060, [(3, 4)], 0, 0, 0, 0, 0, 0xFFFFFFFF, 0, 0, 0, true⟩,
  ⟨0xC006C, [(3, 4)], 0, 0, 0, 0, 0, 0xFFFFFFFF, 0, 0, 0, true⟩,
  ⟨0xC0078, [(3, 4)], 0, 0, 0, 0, 0, 0xFFFFFFFF, 0, 0, 0, true⟩,
  ⟨0xC0084, [(3, 4)], 0, 0, 0, 0, 0, 0xFFFFFFFF, 0, 0, 0, true⟩,
  ⟨0xC0090, [], 0, 0, 0, 0, 0, 0xFFFFFFFF, 0, 0, 0, true⟩,
  ⟨0xC0094, [], 0, 0, 0, 0, 0, 0xFFFFFFFF, 0, 0, 0, true⟩,
  ⟨0xC0098, [], 0, 0, 0, 0, 0, 0xFFFFFFFF, 0, 0, 0, true⟩,
  ⟨0xC009C, [], 0, 0, 0, 0, 0, 0xFFFFFFFF, 0, 0, 0, true⟩,
  ⟨0xC00A0, [], 0, 0, 0, 0, 0, 0xFFFFFFFF, 0, 0, 0, true⟩,
  ⟨0xC00A4, [], 0, 0, 0, 0, 0, 0xFFFFFFFF, 0, 0, 0, true⟩,
  ⟨0xC1000, [(64, 8)], 0xFFFFFFF, 0xFFFFFFF, 0, 0, 0, 0, 0, 0, 0, false⟩,
  ⟨0xC1004, [(64, 8)], 0xFFF, 0xFFF, 0, 0, 0, 0, 0, 0, 0, false⟩,
  ⟨0xC2000, [(1024, 4)], 0x1FFF, 0x1FFF, 0, 0, 0, 0, 0, 0, 0, false⟩,
  ⟨0xC4000, [(1024, 0x10)], 0xFFFFFFFF, 0, 0, 0, 0, 0, 0, 0, 0, false⟩,
  ⟨0xC4004, [(1024, 0x10)], 0x1FFFFFF, 0, 0, 0, 0, 0, 0, 0, 0, false⟩,
  ⟨0xC4008, [(1024, 0x10)], 0x3FF, 0, 0, 0, 0, 0x3FFFC00, 0, 0, 0, false⟩]

/-- The registers of the FLD block, in address order. -/
def regMapFld : List RegEntry := [
  ⟨0xD0000, [], 0x7FFF, 0x7FFF, 0, 0, 0, 0, 0, 0, 0x1901, false⟩,
  ⟨0xD0004, [], 0, 0, 0, 0, 0, 0x3FF, 0, 0, 0, false⟩,
  ⟨0xD0008, [], 0, 0, 0xFF, 0, 0, 0, 0, 0, 0, false⟩,
  ⟨0xD000C, [], 0xFF, 0, 0, 0, 0, 0, 0, 0, 0, false⟩,
  ⟨0xD0010, [], 0, 0, 0xFFFF, 0, 0, 0, 0, 0, 0, false⟩,
  ⟨0xD0014, [], 0xFFFF, 0, 0, 0, 0, 0, 0, 0, 0, false⟩,
  ⟨0xD0018, [], 0, 0, 0, 0, 0, 0xFFFFFFFF, 0, 0, 0, false⟩,
  ⟨0xD0020, [(4, 0x10)], 0x3FFFFFFF, 0x3FFFFFFF, 0, 0, 0, 0, 0, 0, 0x4892600, false⟩,
  ⟨0xD0024, [(4, 0x10)], 0x3FFFFFF, 0x3FFFFFF, 0, 0, 0, 0, 0, 0, 0x4444C0, false⟩,
  ⟨0xD0028, [(4, 0x10)], 7, 7, 0, 0, 0, 0, 0, 0, 5, false⟩,
  ⟨0xD002C, [(4, 0x10)], 0, 0, 0, 0, 0, 0x3FFFF, 0, 0, 0, false⟩,
  ⟨0xD0060, [(2, 8)], 0xFFFFFFF, 0xFFFFFFF, 0, 0, 0, 0, 0, 0, 0x8510A2C, false⟩,
  ⟨0xD0064, [(2, 8)], 0, 0, 0, 0, 0, 0x1FF, 0, 0, 0, false⟩,
  ⟨0xD0080, [(4, 4)], 0, 0, 0, 0, 0, 0xFFFFFFFF, 0, 0, 0, true⟩,
  ⟨0xD0090, [(4, 4)], 0, 0, 0, 0, 0, 0xFFFFFFFF, 0, 0, 0, true⟩,
  ⟨0xD00A0, [(4, 4)], 0, 0, 0, 0, 0, 0xFFFFFFFF, 0, 0, 0, true⟩,
  ⟨0xD00B0, [], 0, 0, 0, 0, 0, 0xFFFFFFFF, 0, 0, 0, true⟩,
  ⟨0xD00B4, [], 0, 0, 0, 0, 0, 0xFFFFFFFF, 0, 0, 0, true⟩,
  ⟨0xD00B8, [], 0, 0, 0, 0, 0, 0xFFFFFFFF, 0, 0, 0, true⟩,
  ⟨0xD00BC, [], 0, 0, 0, 0, 0, 0xFFFFFFFF, 0, 0, 0, true⟩,
  ⟨0xD00C0, [], 0, 0, 0, 0, 0, 0xFFFFFFFF, 0, 0, 0, true⟩,
  ⟨0xD00C4, [], 0, 0, 0, 0, 0, 0xFFFFFFFF, 0, 0, 0, true⟩,
  ⟨0xD00C8, [], 0, 0, 0, 0, 0, 0xFFFFFFFF, 0, 0, 0, true⟩,
  ⟨0xD00CC, [(2, 4)], 0, 0, 0, 0, 0, 0xFFFFFFFF, 0, 0, 0, true⟩,
  ⟨0xD00D4, [(2, 4)], 0, 0, 0, 0, 0, 0xFFFFFFFF, 0, 0, 0, true⟩,
  ⟨0xD00DC, [(2, 4)], 0, 0, 0, 0, 0, 0xFFFFFFFF, 0, 0, 0, true⟩,
  ⟨0xD00E4, [], 0, 0, 0, 0, 0, 0xFFFFFFFF, 0, 0, 0, true⟩,
  ⟨0xD00E8, [], 0, 0, 0, 0, 0, 0xFFFFFFFF, 0, 0, 0, true⟩,
  ⟨0xD00EC, [], 0, 0, 0, 0, 0, 0xFFFFFFFF, 0, 0, 0, true⟩,
  ⟨0xD0400, [(16, 0x10)], 0xFFFFFFF, 0xFFFFFFF, 0, 0, 0, 0, 0, 0, 0x800A190, false⟩,
  ⟨0xD0404, [(16, 0x10)], 0, 0, 0, 0, 0, 0xFFF, 0, 0, 0, false⟩,
  ⟨0xD0408, [(16, 0x10)], 0, 0, 0, 0, 0, 0xFFFFFFFF, 0, 0, 0, true⟩,
  ⟨0xD1000, [(128, 0x10)], 0x3FFFFFFF, 0x3FFFFFFF, 0, 0, 0, 0, 0, 0, 0, false⟩,
  ⟨0xD1004, [(128, 0x10)], 0x1FFFFFFF, 0x1FFFFFFF, 0, 0, 0, 0, 0, 0, 0, false⟩,
  ⟨0xD1008, [(128, 0x10)], 0x1FFFFFFF, 0x1FFFFFFF, 0, 0, 0, 0, 0, 0, 0, false⟩,
  ⟨0xD2000, [(256, 0x10)], 0xFFFF7FFF, 0xFFFF7FFF, 0, 0, 0, 0, 0, 0, 0, false⟩,
  ⟨0xD2004, [(256, 0x10)], 0xFFFF07FF, 0xFFFF07FF, 0, 0, 0, 0, 0, 0, 0, false⟩,
  ⟨0xD2008, [(256, 0x10)], 0, 0, 0, 0, 0, 0xFF01, 0, 0, 0, false⟩,
  ⟨0xD200C, [(256, 0x10)], 0, 0, 0, 0, 0, 0xFFFFFFFF, 0, 0, 0, false⟩,
  ⟨0xD3000, [(1024, 4)], 0, 0, 0, 0, 0, 0xFFFFFFFF, 0, 0, 0, false⟩,
  ⟨0xD4000, [(1024, 8)], 0, 0, 0, 0, 0, 0xFFFFFFFF, 0, 0, 0, false⟩,
  ⟨0xD4004, [(1024, 8)], 0, 0, 0, 0, 0, 0xFFFFFFFF, 0, 0, 0xFFF80002, false⟩,
  ⟨0xD6000, [(128, 0x40), (16, 4)], 0, 0, 0, 0, 0, 0xFFFFFFFF, 0, 0, 0, false⟩,
  ⟨0xD8000, [(1024, 0x20)], 0x1FFFFFFF, 0x1FFFFFFF, 0, 0, 0, 0, 0, 0, 0, false⟩,
  ⟨0xD8004, [(1024, 0x20)], 0xFFFFFFF, 0xFFFFFFF, 0, 0, 0, 0, 0, 0, 0, false⟩,
  ⟨0xD8008, [(1024, 0x20)], 0x1FFFFF, 0x1FFFFF, 0, 0, 0, 0, 0, 0, 0, false⟩,
  ⟨0xD800C, [(1024, 0x20)], 0xFFFFFFFF, 0xFFFFFFFF, 0, 0, 0, 0, 0, 0, 0, false⟩,
  ⟨0xD8010, [(1024, 0x20)], 0xFFFFFFFF, 0xFFFFFFFF, 0, 0, 0, 0, 0, 0, 0, false⟩,
  ⟨0xD8014, [(1024, 0x20)], 0xFFFFFFFF, 0xFFFFFFFF, 0, 0, 0, 0, 0, 0, 0, false⟩,
  ⟨0xD8018, [(1024, 0x20)], 0xFFFFFFFF, 0xFFFFFFFF, 0, 0, 0, 0, 0, 0, 0, false⟩,
  ⟨0xD801C, [(1024, 0x20)], 0xFFFFFFFF, 0xFFFFFFFF, 0, 0, 0, 0, 0, 0, 0, false⟩]

/-- The registers of the TPW block, in address order. -/
def regMapTpw : List RegEntry := [
  ⟨0xE0000, [], 0x7FFF, 0x7FFF, 0, 0, 0, 0, 0, 0, 0x1E03, false⟩,
  ⟨0xE0004, [], 0, 0, 0, 0, 0, 0x1FFFFF, 0, 0, 0, false⟩,
  ⟨0xE0008, [], 0, 0, 0x7FF, 0, 0, 0, 0, 0, 0, false⟩,
  ⟨0xE000C, [], 0x7FF, 0, 0, 0, 0, 0, 0, 0, 0, false⟩,
  ⟨0xE0010, [], 0, 0, 0x200, 0, 0, 0x1FF, 0, 0, 0x200, false⟩,
  ⟨0xE0100, [(3, 0x80)], 0x3FFFF, 0x3FFFF, 0, 0, 0, 0, 0, 0, 0xA0F4, false⟩,
  ⟨0xE0104, [(3, 0x80)], 0x3FFFFFFF, 0x3FFFFFFF, 0, 0, 0, 0, 0, 0, 0x130C8FA0, false⟩,
  ⟨0xE0108, [(3, 0x80)], 0x3FFFFFF, 0x3FFFFFF, 0, 0, 0, 0, 0, 0, 0x2BE878, false⟩,
  ⟨0xE010C, [(3, 0x80)], 0x7FFFFFF, 0x7FFFFFF, 0, 0, 0, 0, 0, 0, 0x47CD60A, false⟩,
  ⟨0xE0110, [(3, 0x80), (2, 4)], 0xFFFFFFFF, 0xFFFFFFFF, 0, 0, 0, 0, 0, 0, 0, false⟩,
  ⟨0xE0118, [(3, 0x80)], 0xFFFFFF, 0xFFFFFF, 0, 0, 0, 0, 0, 0, 0x1E078, false⟩,
  ⟨0xE011C, [(3, 0x80)], 3, 0, 0, 0, 0x1C, 0, 0, 0, 0, false⟩,
  ⟨0xE0120, [(3, 0x80)], 0x7FFFFFF, 0, 0, 0, 0, 0, 0, 0, 0, false⟩,
  ⟨0xE0124, [(3, 0x80)], 0, 0, 0, 0, 0, 0x1FFFFFF, 0, 0, 0, false⟩,
  ⟨0xE0128, [(3, 0x80)], 0, 0, 0, 0, 0, 0xFFFFFFFF, 0, 0, 0, false⟩,
  ⟨0xE012C, [(3, 0x80)], 0, 0, 0, 0, 0, 0xFFFFFFF, 0, 0, 0, false⟩,
  ⟨0xE0130, [(3, 0x80)], 0, 0, 0, 0, 0, 0xFFFFFFFF, 0, 0, 0, false⟩,
  ⟨0xE0134, [(3, 0x80)], 0, 0, 0, 0, 0, 0xFFFF, 0, 0, 0, false⟩,
  ⟨0xE0138, [(3, 0x80)], 0, 0, 0, 0, 0, 0xFFFFFFFF, 0, 0, 0, false⟩,
  ⟨0xE013C, [(3, 0x80)], 0, 0, 0, 0, 0, 0xFFFF, 0, 0, 0, false⟩,
  ⟨0xE0140, [(3, 0x80)], 0, 0, 0, 0, 0, 0xFFFF, 0, 0, 0xFFFF, false⟩,
  ⟨0xE0144, [(3, 0x80)], 0, 0, 0, 0, 0, 0xFFFFFFFF, 0, 0, 0, true⟩,
  ⟨0xE0148, [(3, 0x80)], 0, 0, 0, 0, 0, 0xFFFFFFFF, 0, 0, 0, true⟩,
  ⟨0xE014C, [(3, 0x80)], 0, 0, 0, 0, 0, 0xFFFFFFFF, 0, 0, 0, true⟩,
  ⟨0xE0150, [(3, 0x80)], 0, 0, 0, 0, 0, 0xFFFFFFFF, 0, 0, 0, true⟩,
  ⟨0xE0154, [(3, 0x80)], 0, 0, 0, 0, 0, 0xFFFFFFFF, 0, 0, 0, true⟩]

/-- The registers of the LDC block, in address order. -/
def regMapLdc : List RegEntry := [
  ⟨0xF0000, [], 0, 0, 0, 0, 0, 0xFFFFF, 0, 0, 0, false⟩,
  ⟨0xF0004, [], 0, 0, 0xFFFFFF, 0, 0, 0, 0, 0, 0, false⟩,
  ⟨0xF0008, [], 0xFFFFFF, 0, 0, 0, 0, 0, 0, 0, 0, false⟩,
  ⟨0xF0100, [(4, 0x80)], 0xFFFF, 0xFFFF, 0, 0, 0, 0, 0, 0, 0x2838, false⟩,
  ⟨0xF0104, [(4, 0x80)], 0x3FFFFF, 0x3FFFFF, 0, 0, 0, 0, 0, 0, 0xC83E8, false⟩,
  ⟨0xF0108, [(4, 0x80)], 0x3FFFFFF, 0x3FFFFFF, 0, 0, 0, 0, 0, 0, 0x29F478, false⟩,
  ⟨0xF010C, [(4, 0x80)], 0x7FFFFFF, 0x7FFFFFF, 0, 0, 0, 0, 0, 0, 0x47CD614, false⟩,
  ⟨0xF0110, [(4, 0x80), (2, 4)], 0xFFFFFFFF, 0xFFFFFFFF, 0, 0, 0, 0, 0, 0, 0, false⟩,
  ⟨0xF0118, [(4, 0x80)], 0, 0, 0, 0, 7, 0, 0, 0, 0, false⟩,
  ⟨0xF011C, [(4, 0x80)], 0, 0, 0, 0, 0, 0x3FFFFF, 0, 0, 0, false⟩,
  ⟨0xF0120, [(4, 0x80)], 0, 0, 0, 0, 0, 0xFFFFFFFF, 0, 0, 0, false⟩,
  ⟨0xF0124, [(4, 0x80)], 0, 0, 0, 0, 0, 0xFFFFFFF, 0, 0, 0, false⟩,
  ⟨0xF0128, [(4, 0x80)], 0, 0, 0, 0, 0, 0xFFFF, 0, 0, 0, false⟩,
  ⟨0xF012C, [(4, 0x80)], 0, 0, 0, 0, 0, 0xFFFFFFFF, 0, 0, 0, false⟩,
  ⟨0xF0130, [(4, 0x80)], 0, 0, 0, 0, 0, 0xFFFF, 0, 0, 0, false⟩,
  ⟨0xF0134, [(4, 0x80)], 0, 0, 0, 0, 0, 0xFFFFFFFF, 0, 0, 0, false⟩,
  ⟨0xF0138, [(4, 0x80)], 0, 0, 0, 0, 0, 0xFFFFFFFF, 0, 0, 0, false⟩,
  ⟨0xF013C, [(4, 0x80)], 0, 0, 0, 0, 0, 0xFFFFFFFF, 0, 0, 0, false⟩,
  ⟨0xF0140, [(4, 0x80)], 1, 1, 0, 0, 0, 0, 0, 0, 1, false⟩,
  ⟨0xF0144, [(4, 0x80)], 0, 0, 0, 0, 0, 0xFFFFFFFF, 0, 0, 0, true⟩,
  ⟨0xF0148, [(4, 0x80)], 0, 0, 0, 0, 0, 0xFFFFFFFF, 0, 0, 0, true⟩,
  ⟨0xF014C, [(4, 0x80)], 0, 0, 0, 0, 0, 0xFFFFFFFF, 0, 0, 0, true⟩,
  ⟨0xF0150, [(4, 0x80)], 0, 0, 0, 0, 0, 0xFFFFFFFF, 0, 0, 0, true⟩,
  ⟨0xF1000, [(4, 0x400), (64, 0x10)], 0, 0, 0, 0, 0, 0xFFFFFFFF, 0, 0, 0, false⟩,
  ⟨0xF1004, [(4, 0x400), (64, 0x10)], 0, 0, 0, 0, 0, 0xFFFFFFFF, 0, 0, 0, false⟩,
  ⟨0xF1008, [(4, 0x400), (64, 0x10)], 0, 0, 0, 0, 0, 0x3FFFFFFF, 0, 0, 0, false⟩,
  ⟨0xF100C, [(4, 0x400), (64, 0x10)], 0, 0, 0, 0, 0, 0xFFFF, 0, 0, 0, false⟩]

/-- The registers of the KEY block, in address order. -/
def regMapKey : List RegEntry := [
  ⟨0x100000, [], 0xFF7F, 0xFF7F, 0, 0, 0, 0, 0, 0, 0x6410, false⟩,
  ⟨0x100004, [], 0, 0, 0, 0, 0, 0xFFF07FF, 0, 0, 0, false⟩,
  ⟨0x100008, [], 0xFFFF0003, 0, 0, 0, 0xC, 0x70, 0, 0, 0, false⟩,
  ⟨0x10000C, [], 0, 0, 0xFF, 0, 0, 0, 0, 0, 0, false⟩,
  ⟨0x100010, [], 0xFF, 0, 0, 0, 0, 0, 0, 0, 0, false⟩,
  ⟨0x100020, [(8, 4)], 0, 0, 0, 0, 0, 0xFFFFFFFF, 0, 0, 0, false⟩,
  ⟨0x100040, [(8, 4)], 0, 0, 0, 0, 0, 0xFFFFFFFF, 0, 0, 0, false⟩,
  ⟨0x100060, [(8, 4)], 0, 0, 0, 0, 0, 0xFFFFFFFF, 0, 0, 0, false⟩,
  ⟨0x100080, [(8, 4)], 0, 0, 0, 0, 0, 0xFFFFFFFF, 0, 0, 0, false⟩,
  ⟨0x1000A0, [], 0, 0, 0, 0, 1, 0x3E, 0, 0, 0, false⟩,
  ⟨0x100100, [(24, 4)], 0xFFFFFFFF, 0, 0, 0, 0, 0, 0, 0, 0, false⟩,
  ⟨0x100180, [], 2, 0, 0, 0, 1, 0x1C, 0, 0, 0, false⟩,
  ⟨0x1001A0, [(8, 4)], 0xFFFFFFFF, 0, 0, 0, 0, 0, 0, 0, 0, false⟩,
  ⟨0x1001C0, [(8, 4)], 0, 0, 0, 0, 0, 0xFFFFFFFF, 0, 0, 0, false⟩,
  ⟨0x100300, [(3, 0x10)], 0, 0, 0, 0, 0, 0xFF7F, 0, 0, 0, false⟩,
  ⟨0x100304, [(3, 0x10)], 0, 0, 0, 0, 3, 0, 0, 0, 0, false⟩,
  ⟨0x100308, [(3, 0x10)], 0, 0, 0, 0, 0, 0xFFFFFFFF, 0, 0, 0, true⟩,
  ⟨0x10030C, [(3, 0x10)], 0, 0, 0, 0, 0, 0xFFFFFFFF, 0, 0, 0, true⟩,
  ⟨0x100400, [(32, 8)], 0, 0, 0, 0, 0, 0xFFFF0FFF, 0, 0, 0, false⟩,
  ⟨0x100404, [(32, 8)], 0, 0, 0, 0, 0, 0xFFFFFFFF, 0, 0, 0, false⟩]

/-- The registers of the REL block, in address order. -/
def regMapRel : List RegEntry := [
  ⟨0x110000, [], 0x1FFF, 0x1FFF, 0, 0, 0, 0, 0, 0, 0x79, false⟩,
  ⟨0x110004, [], 0, 0, 0, 0, 0, 0x1FF, 0, 0, 0, false⟩,
  ⟨0x110008, [], 0, 0, 0, 0, 0, 0x7FFFF, 0, 0, 0, false⟩,
  ⟨0x11000C, [], 0, 0, 0x7F, 0, 0, 0, 0, 0, 0, false⟩,
  ⟨0x110010, [], 0x7F, 0, 0, 0, 0, 0, 0, 0, 0, false⟩,
  ⟨0x110014, [], 0, 0, 0, 0, 0, 0xFFFFFFFF, 0, 0, 0, false⟩,
  ⟨0x110018, [], 0, 0, 0, 0, 0, 0xFFFFFFFF, 0, 0, 0, false⟩,
  ⟨0x11001C, [], 0, 0, 0, 0, 0, 0xFFFFFFFF, 0, 0, 0, false⟩,
  ⟨0x110020, [], 0, 0, 0, 0, 0, 0xFFFFFFFF, 0, 0, 0, true⟩,
  ⟨0x110024, [], 0, 0, 0, 0, 0, 0xFFFFFFFF, 0, 0, 0, true⟩,
  ⟨0x110028, [], 0, 0, 0, 0, 0, 0xFFFFFFFF, 0, 0, 0, true⟩,
  ⟨0x11002C, [], 0, 0, 0, 0, 0, 0xFFFFFFFF, 0, 0, 0, true⟩,
  ⟨0x110030, [], 0, 0, 0, 0, 0, 0xFFFFFFFF, 0, 0, 0, true⟩,
  ⟨0x110034, [], 0, 0, 0, 0, 0, 0xFFFFFFFF, 0, 0, 0, true⟩,
  ⟨0x110040, [], 0, 0, 0, 0, 0, 0x7FFF, 0, 0, 0, false⟩,
  ⟨0x110100, [(32, 8)], 0, 0, 0, 0, 0, 0xFFFFFFFF, 0xFFFFFFFF, 0, 0, false⟩,
  ⟨0x110104, [(32, 8)], 0, 0, 0, 0, 0, 7, 7, 0, 0, false⟩]

/-- The registers of the LKP block, in address order. -/
def regMapLkp : List RegEntry := [
  ⟨0x120000, [], 0, 0, 0, 1, 6, 0, 0, 0, 0, false⟩,
  ⟨0x120004, [], 0, 0, 0, 0, 0, 0x1FF, 0xF8, 0, 1, false⟩,
  ⟨0x120008, [], 0x1FFFFF, 0x1FFFFF, 0, 0, 0, 0, 0, 0, 0x14064, false⟩,
  ⟨0x12000C, [], 0, 0, 0, 0, 0, 0xFFFFFFFF, 0xFFFFFFFF, 0, 0, false⟩,
  ⟨0x120010, [], 0, 0, 0, 0, 0, 0xFFFFFFFF, 0xFFFFFFFF, 0, 0, false⟩,
  ⟨0x120014, [], 0, 0, 3, 0, 0, 0, 1, 0, 0, false⟩,
  ⟨0x120018, [], 3, 0, 0, 0, 0, 0, 0, 0, 0, false⟩,
  ⟨0x120020, [], 0, 0, 0, 0, 0, 0xFFFFFFFF, 0, 0, 0, true⟩,
  ⟨0x120024, [], 0, 0, 0, 0, 0, 0xFFFFFFFF, 0, 0, 0, true⟩]

/-- The registers of the CNT block, in address order. -/
def regMapCnt : List RegEntry := [
  ⟨0x130000, [], 0xFFFF01, 0xFFFF00, 0, 0, 2, 0, 0, 0, 0, false⟩,
  ⟨0x130010, [(3, 4)], 0, 0, 0xFFFFFFFF, 0, 0, 0, 0, 0, 0, false⟩,
  ⟨0x130020, [(3, 4)], 0xFFFFFFFF, 0, 0, 0, 0, 0, 0, 0, 0, false⟩,
  ⟨0x130030, [], 0, 0, 0, 0, 0, 0xFFFFFFFF, 0, 0, 0, false⟩,
  ⟨0x130034, [], 0, 0, 0, 0, 0, 0xFFFFFFFF, 0, 0, 0, false⟩,
  ⟨0x131000, [(96, 0x20)], 0xFFFFFFF, 0xFFFFFFF, 0, 0, 0, 0x10000000, 0, 0, 0, false⟩,
  ⟨0x131004, [(96, 0x20)], 0xFFFFFFFF, 0, 0, 0, 0, 0, 0, 0, 0, false⟩,
  ⟨0x131008, [(96, 0x20)], 0xFFFF, 0, 0, 0, 0, 0, 0, 0, 0, false⟩,
  ⟨0x13100C, [(96, 0x20)], 0, 0, 0, 0, 0, 0xFFFFFFFF, 0, 0, 0, false⟩,
  ⟨0x131010, [(96, 0x20)], 0, 0, 0, 0, 0, 0xFFFF, 0, 0, 0, false⟩,
  ⟨0x131014, [(96, 0x20)], 0, 0, 0, 0, 0, 0xFFFFFFFF, 0, 0, 0, false⟩,
  ⟨0x131018, [(96, 0x20)], 0, 0, 0, 0, 0, 0xFFFF, 0, 0, 0, false⟩]

/-- The registers of the CFG block, in address order. -/
def regMapCfg : List RegEntry := [
  ⟨0x140000, [], 0, 0, 0, 0, 0, 0x1FFF, 0, 0, 0x18, false⟩,
  ⟨0x140004, [], 0, 0, 0, 0, 0, 0xFFFFFFFF, 0, 0, 0, false⟩,
  ⟨0x140008, [], 0, 0, 0, 0, 0, 0xFFFFFFFF, 0, 0, 0, false⟩,
  ⟨0x14000C, [], 0, 0, 0, 0, 0, 0xFFFFFFFF, 0, 0, 0, false⟩,
  ⟨0x140010, [], 0, 0, 0, 0, 0, 0xFFFFFF, 0, 0, 0, false⟩,
  ⟨0x140014, [], 0, 0, 0, 0, 0, 0xFFFFFFFF, 0, 0, 0, true⟩,
  ⟨0x140018, [], 0, 0, 0, 0, 0, 0xFFFFFFFF, 0, 0, 0, true⟩,
  ⟨0x14001C, [], 0, 0, 0, 0, 0, 0xFFFFFFFF, 0, 0, 0, true⟩,
  ⟨0x140020, [(8, 4)], 0, 0, 0, 0, 0, 0xFFFFFFFF, 0, 0, 0, false⟩,
  ⟨0x140040, [], 0, 0, 0, 0, 3, 0x7C, 0, 0, 0, false⟩,
  ⟨0x140050, [], 0xFF, 0xFF, 0, 0, 0, 0, 0, 0, 0x59, false⟩,
  ⟨0x140060, [(8, 4)], 0x1FFFFF, 0x1FFFFF, 0, 0, 0, 0, 0, 0, 0, false⟩,
  ⟨0x140080, [], 0, 0, 0, 0, 0, 0xFFFFFFFF, 0xFFFFFFFF, 0, 0, false⟩,
  ⟨0x140084, [], 0, 0, 0, 0, 0, 0xFFFFFFFF, 0xFFFFFFFF, 0, 0, false⟩,
  ⟨0x140090, [], 0, 0, 0x7F, 0, 0, 0, 0, 0, 0, false⟩,
  ⟨0x140094, [], 0x7F, 0, 0, 0, 0, 0, 0, 0, 0, false⟩,
  ⟨0x1400A0, [], 3, 0, 0, 0, 4, 0x38, 0, 0, 0, false⟩,
  ⟨0x1400A4, [], 0xFFFFFF, 0, 0, 0, 0, 0, 0, 0, 0, false⟩,
  ⟨0x140100, [(64, 4)], 0xFFFFFFFF, 0, 0, 0, 0, 0, 0, 0, 0, false⟩,
  ⟨0x141000, [(1024, 4)], 0xFFFFFFFF, 0, 0, 0, 0, 0, 0, 0, 0, false⟩,
  ⟨0x148000, [(512, 0x20)], 0, 0, 0, 0, 0, 0xFFFFFFFF, 0xFFFFFFFF, 0, 0, false⟩,
  ⟨0x148004, [(512, 0x20)], 0, 0, 0, 0, 0, 0xFFFFFFFF, 0xFFFFFFFF, 0, 0, false⟩,
  ⟨0x148008, [(512, 0x20)], 0, 0, 0, 0, 0, 0x7FFFFFF, 0x7FFFFFF, 0, 0, false⟩,
  ⟨0x14800C, [(512, 0x20)], 0, 0, 0, 0, 0, 0xFFFFFFFF, 0xFFFFFFFF, 0, 0, false⟩,
  ⟨0x148010, [(512, 0x20)], 0, 0, 0, 0, 0, 0xFFFFFF, 0xFFFFFF, 0, 0, false⟩,
  ⟨0x148014, [(512, 0x20)], 0, 0, 0, 0, 0, 0xFFFFFFFF, 0xFFFFFFFF, 0, 0, false⟩,
  ⟨0x148018, [(512, 0x20)], 0, 0, 0, 0, 0, 0xFFFFFFFF, 0xFFFFFFFF, 0, 0, false⟩,
  ⟨0x14801C, [(512, 0x20)], 0, 0, 0, 0, 0, 0xFFFFFFFF, 0xFFFFFFFF, 0, 0, false⟩]

/-- The registers of the ALM block, in address order. -/
def regMapAlm : List RegEntry := [
  ⟨0x150000, [], 0x1FFFFFFF, 0x1FFFFFFF, 0, 0, 0, 0, 0, 0, 0x100A0401, false⟩,
  ⟨0x150004, [], 0x3FFFF, 0x3FFFF, 0, 0, 0, 0, 0, 0, 0x10032, false⟩,
  ⟨0x150010, [(4, 4)], 0x7FF, 0x7FF, 0, 0, 0, 0, 0, 0, 0, false⟩,
  ⟨0x150020, [], 0, 0, 0, 0, 0, 0x1FFFFF, 0x1FFFF, 0, 0, false⟩,
  ⟨0x150024, [], 0, 0, 7, 0, 0, 0, 0, 0, 0, false⟩,
  ⟨0x150028, [], 7, 0, 0, 0, 0, 0, 0, 0, 0, false⟩,
  ⟨0x150040, [], 0, 0, 0, 0, 0, 0xFFFFFFFF, 0, 0, 0, true⟩,
  ⟨0x150044, [], 0, 0, 0, 0, 0, 0xFFFFFFFF, 0, 0, 0, true⟩,
  ⟨0x150048, [], 0, 0, 0, 0, 0, 0xFFFFFFFF, 0, 0, 0, true⟩,
  ⟨0x15004C, [], 0, 0, 0, 0, 0, 0xFFFFFFFF, 0, 0, 0, true⟩,
  ⟨0x150050, [], 0, 0, 0, 0, 0, 0xFFFFFFFF, 0, 0, 0, true⟩,
  ⟨0x150054, [], 0, 0, 0, 0, 0, 0xFFFFFFFF, 0, 0, 0, true⟩,
  ⟨0x150058, [], 0, 0, 0, 0, 0, 0xFFFFFFFF, 0, 0, 0, true⟩,
  ⟨0x15005C, [], 0, 0, 0, 0, 0, 0xFFFFFFFF, 0, 0, 0, true⟩,
  ⟨0x151000, [(256, 0x40), (9, 4)], 0, 0, 0, 0, 0, 0xFFFFFFFF, 0xFFFFFFFF, 0, 0, false⟩]

/-- Reset words that the registers of one family do not share. -/
def regResetTable : List (Nat × Nat) := [
  (0x60010, 0x1000),
  (0x60014, 0x1000),
  (0x60018, 0x1000),
  (0x6001C, 0x2000400),
  (0x60020, 0x4000800),
  (0x60024, 0x8001000),
  (0x60028, 0x2000400),
  (0x6002C, 0x800100),
  (0x60030, 0x200),
  (0x60034, 0x800100),
  (0x600B0, 0x66660000),
  (0x600E4, 0x23F10020),
  (0x600E8, 0x2FF08008),
  (0x70100, 0x20),
  (0x70140, 0x20),
  (0x70180, 0x20),
  (0x80040, 0x881085),
  (0x80044, 0x880C85),
  (0x80048, 0x860865),
  (0x8004C, 0x940445),
  (0x80050, 0x120244),
  (0x80054, 0x210124),
  (0x80058, 0x308113),
  (0x8005C, 0x70210A),
  (0xE0110, 0x3E8032),
  (0xE0114, 0x186A0096),
  (0xE0190, 0x3E8032),
  (0xE0194, 0x186A0096),
  (0xE0210, 0x3E8032),
  (0xE0214, 0x186A0096),
  (0xF0110, 0x3E8050),
  (0xF0114, 0x186A00C8),
  (0xF0190, 0x3E8050),
  (0xF0194, 0x186A00C8),
  (0xF0210, 0x3E8050),
  (0xF0214, 0x186A00C8),
  (0xF0290, 0x3E8050),
  (0xF0294, 0x186A00C8)]
/-- The block of registers that a byte offset falls in (01 Table 01-1 and the chapters' base addresses). -/
def regMapOf (off : Nat) : List RegEntry :=
  match off / 0x1_0000 with
  | 0x00 => regMapGlb
  | 0x01 => regMapPwr
  | 0x02 => regMapTrk
  | 0x03 => regMapLnk
  | 0x04 => regMapFab
  | 0x05 => regMapFab
  | 0x06 => regMapSwc
  | 0x07 => regMapSch
  | 0x08 => regMapBud
  | 0x09 => regMapUsb
  | 0x0A => regMapWin
  | 0x0B => regMapVid
  | 0x0C => regMapEth
  | 0x0D => regMapFld
  | 0x0E => regMapTpw
  | 0x0F => regMapLdc
  | 0x10 => regMapKey
  | 0x11 => regMapRel
  | 0x12 => regMapLkp
  | 0x13 => regMapCnt
  | 0x14 => regMapCfg
  | 0x15 => regMapAlm
  | _ => []

/-- The register at an offset, if the spec gives one there (a reserved offset has none). -/
def regAt (off : Nat) : Option RegEntry :=
  (regMapOf off).find? fun e => e.covers off

/-- Reset words that differ among the members of one family. -/
def regResetOf (off : Nat) : Option Nat :=
  (regResetTable.find? fun r => r.1 == off).map Prod.snd

/-- What a register word reads as when nothing has changed it since reset (00 R8). A word with no register reads 0. -/
def resetWord (off : Nat) : Word :=
  match regResetOf off with
  | some v => BitVec.ofNat 32 v
  | none =>
    match regAt off with
    | some e => BitVec.ofNat 32 e.reset
    | none => 0#32

/-- Does the register lie in the HV die, which no core reset touches (00 R9, 01 Table 01-5)? The trunk power and load
channel blocks do. -/
def inHvDie (off : Nat) : Bool := off / 0x1_0000 == 0x0E || off / 0x1_0000 == 0x0F

/-- The registers of one die: the words that differ from their reset word, by rising offset. -/
abbrev RegFile := List (Nat × Word)

/-- The word at an offset. -/
def RegFile.word : RegFile → Nat → Word
  | [], off => resetWord off
  | (k, v) :: r, off => if k = off then v else RegFile.word r off

/-- Inserts or replaces one word. -/
def RegFile.insert (off : Nat) (v : Word) : RegFile → RegFile
  | [] => [(off, v)]
  | (k, u) :: r =>
    if off < k then (off, v) :: (k, u) :: r
    else if off = k then (off, v) :: r
    else (k, u) :: RegFile.insert off v r

/-- Stores one word, in the canonical form: a word at its reset value is not listed. -/
def RegFile.setWord (r : RegFile) (off : Nat) (v : Word) : RegFile :=
  if v = resetWord off then r.filter fun c => c.1 ≠ off else RegFile.insert off v r

/-- Offsets strictly rising from `lo`, and no word listed at its reset value. -/
def RegFile.okFrom : Nat → RegFile → Bool
  | _, [] => true
  | lo, (k, v) :: r => decide (lo ≤ k) && decide (v ≠ resetWord k) && RegFile.okFrom (k + 1) r

/-- The canonical form of a register file. -/
def RegFile.wf (r : RegFile) : Bool := RegFile.okFrom 0 r

/-- The value of a field of a word. -/
def wordField (w : Word) (lo width : Nat) : Nat := w.toNat / 2 ^ lo % 2 ^ width

/-- The word with one field replaced (the value is cut to the field's width). -/
def wordWithField (w : Word) (lo width v : Nat) : Word :=
  BitVec.ofNat 32 (w.toNat - wordField w lo width * 2 ^ lo + v % 2 ^ width * 2 ^ lo)

/-- Reads a field. -/
def RegFile.get (r : RegFile) (f : Field) : Nat := wordField (r.word f.off) f.lo f.width

/-- Writes a field. -/
def RegFile.put (r : RegFile) (f : Field) (v : Nat) : RegFile :=
  r.setWord f.off (wordWithField (r.word f.off) f.lo f.width v)

end Sys2Proof.Machine
end

