-- ==== Sys2Proof/Machine/Fields.lean ====
section
/-! DEFINITION. Every register of the CKH-7160 and every field of one, as a place in the register space: written
from the register tables of the chapters. `F.BLOCK_NAME` is the whole word, `F.BLOCK_NAME_FIELD` one field. An index
(port, channel, queue, entry) is an argument. -/

namespace Sys2Proof.Machine

/-- Register GLB_ID (whole word). -/
def F.GLB_ID : Field := ⟨0, 0, 32⟩
def F.GLB_ID_REV : Field := ⟨0, 8, 8⟩
def F.GLB_ID_PART : Field := ⟨0, 16, 16⟩
/-- Register GLB_SERIAL_LO (whole word). -/
def F.GLB_SERIAL_LO : Field := ⟨4, 0, 32⟩
/-- Register GLB_SERIAL_HI (whole word). -/
def F.GLB_SERIAL_HI : Field := ⟨8, 0, 32⟩
/-- Register GLB_STRAPS (whole word). -/
def F.GLB_STRAPS : Field := ⟨0xC, 0, 32⟩
def F.GLB_STRAPS_ROLE_HE : Field := ⟨0xC, 0, 1⟩
def F.GLB_STRAPS_BOOT : Field := ⟨0xC, 1, 2⟩
def F.GLB_STRAPS_TESTMODE : Field := ⟨0xC, 3, 1⟩
def F.GLB_STRAPS_IMG_ROLE : Field := ⟨0xC, 4, 2⟩
def F.GLB_STRAPS_ROLE_MISMATCH : Field := ⟨0xC, 6, 1⟩
/-- Register GLB_RESET (whole word). -/
def F.GLB_RESET : Field := ⟨0x10, 0, 32⟩
def F.GLB_RESET_CAUSE : Field := ⟨0x10, 0, 3⟩
def F.GLB_RESET_WARM_WDT : Field := ⟨0x10, 3, 1⟩
/-- Register GLB_CTL (whole word). -/
def F.GLB_CTL : Field := ⟨0x14, 0, 32⟩
def F.GLB_CTL_WARM_RESET : Field := ⟨0x14, 0, 1⟩
def F.GLB_CTL_DP_RESET : Field := ⟨0x14, 1, 1⟩
def F.GLB_CTL_CONFIRM : Field := ⟨0x14, 16, 16⟩
/-- Register GLB_INT_SUMMARY (whole word). -/
def F.GLB_INT_SUMMARY : Field := ⟨0x20, 0, 32⟩
def F.GLB_INT_SUMMARY_BLOCK : Field := ⟨0x20, 0, 23⟩
/-- Register GLB_INT_PIN_EN (whole word). -/
def F.GLB_INT_PIN_EN : Field := ⟨0x24, 0, 32⟩
def F.GLB_INT_PIN_EN_BLOCK : Field := ⟨0x24, 0, 23⟩
/-- Register GLB_INT_LK_EN (whole word). -/
def F.GLB_INT_LK_EN : Field := ⟨0x28, 0, 32⟩
def F.GLB_INT_LK_EN_BLOCK : Field := ⟨0x28, 0, 23⟩
/-- Register GLB_FAULT_STATUS (whole word). -/
def F.GLB_FAULT_STATUS : Field := ⟨0x2C, 0, 32⟩
def F.GLB_FAULT_STATUS_CLOCK_LOSS : Field := ⟨0x2C, 0, 1⟩
def F.GLB_FAULT_STATUS_BIST_FAIL : Field := ⟨0x2C, 1, 1⟩
def F.GLB_FAULT_STATUS_SEQ_NOMAJ : Field := ⟨0x2C, 2, 1⟩
def F.GLB_FAULT_STATUS_HOLD : Field := ⟨0x2C, 3, 1⟩
def F.GLB_FAULT_STATUS_CRIT_ALARM : Field := ⟨0x2C, 4, 1⟩
def F.GLB_FAULT_STATUS_LATCHED : Field := ⟨0x2C, 5, 1⟩
/-- Register GLB_FAULT_EN (whole word). -/
def F.GLB_FAULT_EN : Field := ⟨0x30, 0, 32⟩
def F.GLB_FAULT_EN_CLOCK_LOSS : Field := ⟨0x30, 0, 1⟩
def F.GLB_FAULT_EN_BIST_FAIL : Field := ⟨0x30, 1, 1⟩
def F.GLB_FAULT_EN_SEQ_NOMAJ : Field := ⟨0x30, 2, 1⟩
def F.GLB_FAULT_EN_HOLD : Field := ⟨0x30, 3, 1⟩
def F.GLB_FAULT_EN_CRIT_ALARM : Field := ⟨0x30, 4, 1⟩
def F.GLB_FAULT_EN_LATCHED : Field := ⟨0x30, 5, 1⟩
/-- Register GLB_BAD_ACCESS (whole word). -/
def F.GLB_BAD_ACCESS : Field := ⟨0x34, 0, 32⟩
/-- Register PWR_CTL (whole word). -/
def F.PWR_CTL : Field := ⟨0x10000, 0, 32⟩
def F.PWR_CTL_DEEP_REQ : Field := ⟨0x10000, 0, 1⟩
def F.PWR_CTL_OFF : Field := ⟨0x10000, 1, 1⟩
def F.PWR_CTL_CONFIRM : Field := ⟨0x10000, 16, 16⟩
/-- Register PWR_STATUS (whole word). -/
def F.PWR_STATUS : Field := ⟨0x10004, 0, 32⟩
def F.PWR_STATUS_STATE : Field := ⟨0x10004, 0, 2⟩
def F.PWR_STATUS_DOM_ON : Field := ⟨0x10004, 2, 10⟩
/-- Register PWR_VOTE_SW (whole word). -/
def F.PWR_VOTE_SW : Field := ⟨0x10008, 0, 32⟩
def F.PWR_VOTE_SW_VOTE : Field := ⟨0x10008, 0, 10⟩
/-- Register PWR_VOTE_HW (whole word). -/
def F.PWR_VOTE_HW : Field := ⟨0x1000C, 0, 32⟩
def F.PWR_VOTE_HW_VOTE : Field := ⟨0x1000C, 0, 10⟩
/-- Register PWR_CFG (whole word). -/
def F.PWR_CFG : Field := ⟨0x10010, 0, 32⟩
def F.PWR_CFG_DP_HOLD_US : Field := ⟨0x10010, 0, 8⟩
def F.PWR_CFG_DEEP_HOLD_MS : Field := ⟨0x10010, 8, 8⟩
/-- Register PWR_WAKE_EN (whole word). -/
def F.PWR_WAKE_EN : Field := ⟨0x10014, 0, 32⟩
def F.PWR_WAKE_EN_WAKE_PIN : Field := ⟨0x10014, 0, 1⟩
def F.PWR_WAKE_EN_AON_TIMER : Field := ⟨0x10014, 1, 1⟩
def F.PWR_WAKE_EN_TRUNK_SIG : Field := ⟨0x10014, 2, 3⟩
def F.PWR_WAKE_EN_TOWPATH : Field := ⟨0x10014, 5, 3⟩
def F.PWR_WAKE_EN_HV_EVENT : Field := ⟨0x10014, 8, 1⟩
def F.PWR_WAKE_EN_I2C0 : Field := ⟨0x10014, 9, 1⟩
def F.PWR_WAKE_EN_FIO : Field := ⟨0x10014, 10, 1⟩
def F.PWR_WAKE_EN_FROM_OFF : Field := ⟨0x10014, 11, 1⟩
/-- Register PWR_WAKE_FIO (whole word). -/
def F.PWR_WAKE_FIO : Field := ⟨0x10018, 0, 32⟩
def F.PWR_WAKE_FIO_MASK : Field := ⟨0x10018, 0, 16⟩
/-- Register PWR_WAKE_CAUSE (whole word). -/
def F.PWR_WAKE_CAUSE : Field := ⟨0x1001C, 0, 32⟩
def F.PWR_WAKE_CAUSE_WAKE_PIN : Field := ⟨0x1001C, 0, 1⟩
def F.PWR_WAKE_CAUSE_AON_TIMER : Field := ⟨0x1001C, 1, 1⟩
def F.PWR_WAKE_CAUSE_TRUNK_SIG : Field := ⟨0x1001C, 2, 3⟩
def F.PWR_WAKE_CAUSE_TOWPATH : Field := ⟨0x1001C, 5, 3⟩
def F.PWR_WAKE_CAUSE_HV_EVENT : Field := ⟨0x1001C, 8, 1⟩
def F.PWR_WAKE_CAUSE_I2C0 : Field := ⟨0x1001C, 9, 1⟩
def F.PWR_WAKE_CAUSE_FIO : Field := ⟨0x1001C, 10, 1⟩
def F.PWR_WAKE_CAUSE_FROM_OFF : Field := ⟨0x1001C, 11, 1⟩
/-- Register PWR_AON_TIMER (whole word). -/
def F.PWR_AON_TIMER : Field := ⟨0x10020, 0, 32⟩
def F.PWR_AON_TIMER_COUNT : Field := ⟨0x10020, 0, 24⟩
/-- Register PWR_INT_STATUS (whole word). -/
def F.PWR_INT_STATUS : Field := ⟨0x10024, 0, 32⟩
def F.PWR_INT_STATUS_WAKE : Field := ⟨0x10024, 0, 1⟩
def F.PWR_INT_STATUS_DEEP_ABORT : Field := ⟨0x10024, 1, 1⟩
/-- Register PWR_INT_EN (whole word). -/
def F.PWR_INT_EN : Field := ⟨0x10028, 0, 32⟩
def F.PWR_INT_EN_WAKE : Field := ⟨0x10028, 0, 1⟩
def F.PWR_INT_EN_DEEP_ABORT : Field := ⟨0x10028, 1, 1⟩
/-- Register PWR_DEEP_ENTRIES (whole word). -/
def F.PWR_DEEP_ENTRIES : Field := ⟨0x10030, 0, 32⟩
/-- Register PWR_DP_WAKES (whole word). -/
def F.PWR_DP_WAKES : Field := ⟨0x10034, 0, 32⟩
/-- Register PWR_STALL_MAX (whole word). -/
def F.PWR_STALL_MAX : Field := ⟨0x10038, 0, 32⟩
def F.PWR_STALL_MAX_STALL : Field := ⟨0x10038, 0, 16⟩
/-- Register TRK_CTL (whole word). -/
def F.TRK_CTL (i : Nat) : Field := ⟨0x20000 + 0x4000 * i, 0, 32⟩
def F.TRK_CTL_EN (i : Nat) : Field := ⟨0x20000 + 0x4000 * i, 0, 1⟩
def F.TRK_CTL_STEP_MAX (i : Nat) : Field := ⟨0x20000 + 0x4000 * i, 1, 3⟩
def F.TRK_CTL_STEP_MIN (i : Nat) : Field := ⟨0x20000 + 0x4000 * i, 4, 3⟩
def F.TRK_CTL_AUTO_UP (i : Nat) : Field := ⟨0x20000 + 0x4000 * i, 7, 1⟩
def F.TRK_CTL_AUTO_DOWN (i : Nat) : Field := ⟨0x20000 + 0x4000 * i, 8, 1⟩
def F.TRK_CTL_SINGLE_LANE_EN (i : Nat) : Field := ⟨0x20000 + 0x4000 * i, 9, 1⟩
def F.TRK_CTL_QUIET_EN (i : Nat) : Field := ⟨0x20000 + 0x4000 * i, 10, 1⟩
def F.TRK_CTL_TEST_MODE (i : Nat) : Field := ⟨0x20000 + 0x4000 * i, 11, 1⟩
def F.TRK_CTL_RETRAIN (i : Nat) : Field := ⟨0x20000 + 0x4000 * i, 12, 1⟩
def F.TRK_CTL_LANE_A_OFF (i : Nat) : Field := ⟨0x20000 + 0x4000 * i, 13, 1⟩
def F.TRK_CTL_LANE_B_OFF (i : Nat) : Field := ⟨0x20000 + 0x4000 * i, 14, 1⟩
def F.TRK_CTL_PRECODE (i : Nat) : Field := ⟨0x20000 + 0x4000 * i, 15, 5⟩
/-- Register TRK_STATUS (whole word). -/
def F.TRK_STATUS (i : Nat) : Field := ⟨0x20004 + 0x4000 * i, 0, 32⟩
def F.TRK_STATUS_STEP (i : Nat) : Field := ⟨0x20004 + 0x4000 * i, 0, 3⟩
def F.TRK_STATUS_LINK_UP (i : Nat) : Field := ⟨0x20004 + 0x4000 * i, 3, 1⟩
def F.TRK_STATUS_LANES (i : Nat) : Field := ⟨0x20004 + 0x4000 * i, 4, 2⟩
def F.TRK_STATUS_PHASE (i : Nat) : Field := ⟨0x20004 + 0x4000 * i, 6, 3⟩
def F.TRK_STATUS_PRECODE_ON (i : Nat) : Field := ⟨0x20004 + 0x4000 * i, 9, 1⟩
def F.TRK_STATUS_PARTNER_CAP (i : Nat) : Field := ⟨0x20004 + 0x4000 * i, 10, 3⟩
def F.TRK_STATUS_CAP_BUDGET (i : Nat) : Field := ⟨0x20004 + 0x4000 * i, 13, 3⟩
def F.TRK_STATUS_SHIFT_PENDING (i : Nat) : Field := ⟨0x20004 + 0x4000 * i, 16, 1⟩
def F.TRK_STATUS_WET (i : Nat) : Field := ⟨0x20004 + 0x4000 * i, 17, 1⟩
def F.TRK_STATUS_HOLDOFF (i : Nat) : Field := ⟨0x20004 + 0x4000 * i, 18, 1⟩
def F.TRK_STATUS_PPM (i : Nat) : Field := ⟨0x20004 + 0x4000 * i, 20, 10⟩
/-- Register TRK_SNR_REQ (whole word). -/
def F.TRK_SNR_REQ (i : Nat) : Field := ⟨0x20008 + 0x4000 * i, 0, 32⟩
def F.TRK_SNR_REQ_REQ_S1 (i : Nat) : Field := ⟨0x20008 + 0x4000 * i, 0, 6⟩
def F.TRK_SNR_REQ_REQ_S2 (i : Nat) : Field := ⟨0x20008 + 0x4000 * i, 6, 6⟩
def F.TRK_SNR_REQ_REQ_S3 (i : Nat) : Field := ⟨0x20008 + 0x4000 * i, 12, 6⟩
def F.TRK_SNR_REQ_REQ_S4 (i : Nat) : Field := ⟨0x20008 + 0x4000 * i, 18, 6⟩
def F.TRK_SNR_REQ_REQ_S5 (i : Nat) : Field := ⟨0x20008 + 0x4000 * i, 24, 6⟩
/-- Register TRK_GOV_CFG (whole word). -/
def F.TRK_GOV_CFG (i : Nat) : Field := ⟨0x2000C + 0x4000 * i, 0, 32⟩
def F.TRK_GOV_CFG_UP_MARGIN (i : Nat) : Field := ⟨0x2000C + 0x4000 * i, 0, 8⟩
def F.TRK_GOV_CFG_DOWN_MARGIN (i : Nat) : Field := ⟨0x2000C + 0x4000 * i, 8, 8⟩
def F.TRK_GOV_CFG_ACCEPT_MARGIN (i : Nat) : Field := ⟨0x2000C + 0x4000 * i, 16, 8⟩
def F.TRK_GOV_CFG_UNC_BURST (i : Nat) : Field := ⟨0x2000C + 0x4000 * i, 24, 4⟩
def F.TRK_GOV_CFG_CSR_EXP (i : Nat) : Field := ⟨0x2000C + 0x4000 * i, 28, 4⟩
/-- Register TRK_GOV_TIME (whole word). -/
def F.TRK_GOV_TIME (i : Nat) : Field := ⟨0x20010 + 0x4000 * i, 0, 32⟩
def F.TRK_GOV_TIME_UP_DWELL (i : Nat) : Field := ⟨0x20010 + 0x4000 * i, 0, 8⟩
def F.TRK_GOV_TIME_CSR_WINDOW (i : Nat) : Field := ⟨0x20010 + 0x4000 * i, 8, 8⟩
def F.TRK_GOV_TIME_HOLDOFF (i : Nat) : Field := ⟨0x20010 + 0x4000 * i, 16, 8⟩
def F.TRK_GOV_TIME_HOLDOFF_MAX_EXP (i : Nat) : Field := ⟨0x20010 + 0x4000 * i, 24, 4⟩
/-- Register TRK_SHIFT_CMD (whole word). -/
def F.TRK_SHIFT_CMD (i : Nat) : Field := ⟨0x20014 + 0x4000 * i, 0, 32⟩
def F.TRK_SHIFT_CMD_TARGET (i : Nat) : Field := ⟨0x20014 + 0x4000 * i, 0, 3⟩
def F.TRK_SHIFT_CMD_GO (i : Nat) : Field := ⟨0x20014 + 0x4000 * i, 3, 1⟩
/-- Register TRK_SHIFT_STATUS (whole word). -/
def F.TRK_SHIFT_STATUS (i : Nat) : Field := ⟨0x20018 + 0x4000 * i, 0, 32⟩
def F.TRK_SHIFT_STATUS_LAST_FROM (i : Nat) : Field := ⟨0x20018 + 0x4000 * i, 0, 3⟩
def F.TRK_SHIFT_STATUS_LAST_TO (i : Nat) : Field := ⟨0x20018 + 0x4000 * i, 3, 3⟩
def F.TRK_SHIFT_STATUS_LAST_CAUSE (i : Nat) : Field := ⟨0x20018 + 0x4000 * i, 6, 4⟩
def F.TRK_SHIFT_STATUS_LAST_RESULT (i : Nat) : Field := ⟨0x20018 + 0x4000 * i, 10, 3⟩
def F.TRK_SHIFT_STATUS_NAK_REASON (i : Nat) : Field := ⟨0x20018 + 0x4000 * i, 13, 3⟩
def F.TRK_SHIFT_STATUS_LAST_DISTURB (i : Nat) : Field := ⟨0x20018 + 0x4000 * i, 16, 16⟩
/-- Register TRK_SPAN (whole word). -/
def F.TRK_SPAN (i : Nat) : Field := ⟨0x2001C + 0x4000 * i, 0, 32⟩
/-- Register TRK_LANE_A (whole word). -/
def F.TRK_LANE_A (i : Nat) : Field := ⟨0x20020 + 0x4000 * i, 0, 32⟩
def F.TRK_LANE_A_STATE (i : Nat) : Field := ⟨0x20020 + 0x4000 * i, 0, 3⟩
def F.TRK_LANE_A_RX_LOCK (i : Nat) : Field := ⟨0x20020 + 0x4000 * i, 3, 1⟩
def F.TRK_LANE_A_LOS (i : Nat) : Field := ⟨0x20020 + 0x4000 * i, 4, 1⟩
def F.TRK_LANE_A_MARGIN (i : Nat) : Field := ⟨0x20020 + 0x4000 * i, 8, 8⟩
def F.TRK_LANE_A_MARGIN_UP (i : Nat) : Field := ⟨0x20020 + 0x4000 * i, 16, 8⟩
def F.TRK_LANE_A_MARGIN_DN (i : Nat) : Field := ⟨0x20020 + 0x4000 * i, 24, 8⟩
/-- Register TRK_LANE_B (whole word). -/
def F.TRK_LANE_B (i : Nat) : Field := ⟨0x20024 + 0x4000 * i, 0, 32⟩
def F.TRK_LANE_B_STATE (i : Nat) : Field := ⟨0x20024 + 0x4000 * i, 0, 3⟩
def F.TRK_LANE_B_RX_LOCK (i : Nat) : Field := ⟨0x20024 + 0x4000 * i, 3, 1⟩
def F.TRK_LANE_B_LOS (i : Nat) : Field := ⟨0x20024 + 0x4000 * i, 4, 1⟩
def F.TRK_LANE_B_MARGIN (i : Nat) : Field := ⟨0x20024 + 0x4000 * i, 8, 8⟩
def F.TRK_LANE_B_MARGIN_UP (i : Nat) : Field := ⟨0x20024 + 0x4000 * i, 16, 8⟩
def F.TRK_LANE_B_MARGIN_DN (i : Nat) : Field := ⟨0x20024 + 0x4000 * i, 24, 8⟩
/-- Register TRK_QUIET_CFG (whole word). -/
def F.TRK_QUIET_CFG (i : Nat) : Field := ⟨0x20028 + 0x4000 * i, 0, 32⟩
def F.TRK_QUIET_CFG_ENTER_UTIL (i : Nat) : Field := ⟨0x20028 + 0x4000 * i, 0, 8⟩
def F.TRK_QUIET_CFG_ENTER_TIME (i : Nat) : Field := ⟨0x20028 + 0x4000 * i, 8, 8⟩
def F.TRK_QUIET_CFG_WAKE_KIB (i : Nat) : Field := ⟨0x20028 + 0x4000 * i, 16, 8⟩
/-- Register TRK_MOOR_STATUS (whole word). -/
def F.TRK_MOOR_STATUS (i : Nat) : Field := ⟨0x2002C + 0x4000 * i, 0, 32⟩
def F.TRK_MOOR_STATUS_COEF_VALID (i : Nat) : Field := ⟨0x2002C + 0x4000 * i, 0, 1⟩
def F.TRK_MOOR_STATUS_COEF_AGE (i : Nat) : Field := ⟨0x2002C + 0x4000 * i, 8, 8⟩
def F.TRK_MOOR_STATUS_COEF_DTEMP (i : Nat) : Field := ⟨0x2002C + 0x4000 * i, 16, 8⟩
/-- Register TRK_TEST_CTL (whole word). -/
def F.TRK_TEST_CTL (i : Nat) : Field := ⟨0x20030 + 0x4000 * i, 0, 32⟩
def F.TRK_TEST_CTL_PATTERN (i : Nat) : Field := ⟨0x20030 + 0x4000 * i, 0, 3⟩
def F.TRK_TEST_CTL_TX_EN (i : Nat) : Field := ⟨0x20030 + 0x4000 * i, 3, 1⟩
def F.TRK_TEST_CTL_CHK_EN (i : Nat) : Field := ⟨0x20030 + 0x4000 * i, 4, 1⟩
def F.TRK_TEST_CTL_LOOP (i : Nat) : Field := ⟨0x20030 + 0x4000 * i, 5, 2⟩
def F.TRK_TEST_CTL_LANE_SEL (i : Nat) : Field := ⟨0x20030 + 0x4000 * i, 7, 1⟩
def F.TRK_TEST_CTL_STEP (i : Nat) : Field := ⟨0x20030 + 0x4000 * i, 8, 3⟩
/-- Register TRK_TEST_ERR (whole word). -/
def F.TRK_TEST_ERR (i : Nat) : Field := ⟨0x20034 + 0x4000 * i, 0, 32⟩
def F.TRK_TEST_ERR_ERRORS (i : Nat) : Field := ⟨0x20034 + 0x4000 * i, 0, 31⟩
def F.TRK_TEST_ERR_CHK_LOCK (i : Nat) : Field := ⟨0x20034 + 0x4000 * i, 31, 1⟩
/-- Register TRK_CABLE (whole word). -/
def F.TRK_CABLE (i : Nat) : Field := ⟨0x20038 + 0x4000 * i, 0, 32⟩
def F.TRK_CABLE_LENGTH_M (i : Nat) : Field := ⟨0x20038 + 0x4000 * i, 0, 12⟩
def F.TRK_CABLE_REFL_M (i : Nat) : Field := ⟨0x20038 + 0x4000 * i, 12, 12⟩
def F.TRK_CABLE_REFL_RL (i : Nat) : Field := ⟨0x20038 + 0x4000 * i, 24, 8⟩
/-- Register TRK_WET_CFG (whole word). -/
def F.TRK_WET_CFG (i : Nat) : Field := ⟨0x2003C + 0x4000 * i, 0, 32⟩
def F.TRK_WET_CFG_WET_DELTA (i : Nat) : Field := ⟨0x2003C + 0x4000 * i, 0, 8⟩
def F.TRK_WET_CFG_WET_WINDOW (i : Nat) : Field := ⟨0x2003C + 0x4000 * i, 8, 8⟩
/-- Register TRK_INT_STATUS (whole word). -/
def F.TRK_INT_STATUS (i : Nat) : Field := ⟨0x20040 + 0x4000 * i, 0, 32⟩
def F.TRK_INT_STATUS_LINK_UP (i : Nat) : Field := ⟨0x20040 + 0x4000 * i, 0, 1⟩
def F.TRK_INT_STATUS_LINK_DOWN (i : Nat) : Field := ⟨0x20040 + 0x4000 * i, 1, 1⟩
def F.TRK_INT_STATUS_SHIFT_DONE (i : Nat) : Field := ⟨0x20040 + 0x4000 * i, 2, 1⟩
def F.TRK_INT_STATUS_SHIFT_FAIL (i : Nat) : Field := ⟨0x20040 + 0x4000 * i, 3, 1⟩
def F.TRK_INT_STATUS_LANE_FAIL (i : Nat) : Field := ⟨0x20040 + 0x4000 * i, 4, 1⟩
def F.TRK_INT_STATUS_LANE_JOIN (i : Nat) : Field := ⟨0x20040 + 0x4000 * i, 5, 1⟩
def F.TRK_INT_STATUS_WET (i : Nat) : Field := ⟨0x20040 + 0x4000 * i, 6, 1⟩
def F.TRK_INT_STATUS_PROTOCOL (i : Nat) : Field := ⟨0x20040 + 0x4000 * i, 7, 1⟩
def F.TRK_INT_STATUS_UNC_BURST (i : Nat) : Field := ⟨0x20040 + 0x4000 * i, 8, 1⟩
/-- Register TRK_INT_EN (whole word). -/
def F.TRK_INT_EN (i : Nat) : Field := ⟨0x20044 + 0x4000 * i, 0, 32⟩
def F.TRK_INT_EN_LINK_UP (i : Nat) : Field := ⟨0x20044 + 0x4000 * i, 0, 1⟩
def F.TRK_INT_EN_LINK_DOWN (i : Nat) : Field := ⟨0x20044 + 0x4000 * i, 1, 1⟩
def F.TRK_INT_EN_SHIFT_DONE (i : Nat) : Field := ⟨0x20044 + 0x4000 * i, 2, 1⟩
def F.TRK_INT_EN_SHIFT_FAIL (i : Nat) : Field := ⟨0x20044 + 0x4000 * i, 3, 1⟩
def F.TRK_INT_EN_LANE_FAIL (i : Nat) : Field := ⟨0x20044 + 0x4000 * i, 4, 1⟩
def F.TRK_INT_EN_LANE_JOIN (i : Nat) : Field := ⟨0x20044 + 0x4000 * i, 5, 1⟩
def F.TRK_INT_EN_WET (i : Nat) : Field := ⟨0x20044 + 0x4000 * i, 6, 1⟩
def F.TRK_INT_EN_PROTOCOL (i : Nat) : Field := ⟨0x20044 + 0x4000 * i, 7, 1⟩
def F.TRK_INT_EN_UNC_BURST (i : Nat) : Field := ⟨0x20044 + 0x4000 * i, 8, 1⟩
/-- Register TRK_CW_CORR (whole word). -/
def F.TRK_CW_CORR (i : Nat) : Field := ⟨0x20048 + 0x4000 * i, 0, 32⟩
/-- Register TRK_CW_UNCORR (whole word). -/
def F.TRK_CW_UNCORR (i : Nat) : Field := ⟨0x2004C + 0x4000 * i, 0, 32⟩
/-- Register TRK_SYM_CORR (whole word). -/
def F.TRK_SYM_CORR (i : Nat) : Field := ⟨0x20050 + 0x4000 * i, 0, 32⟩
/-- Register TRK_PROTO_ERR (whole word). -/
def F.TRK_PROTO_ERR (i : Nat) : Field := ⟨0x20054 + 0x4000 * i, 0, 32⟩
/-- Register TRK_PARTNER_LO (whole word). -/
def F.TRK_PARTNER_LO (i : Nat) : Field := ⟨0x20058 + 0x4000 * i, 0, 32⟩
/-- Register TRK_PARTNER_HI (whole word). -/
def F.TRK_PARTNER_HI (i : Nat) : Field := ⟨0x2005C + 0x4000 * i, 0, 32⟩
/-- Register TRK_PARTNER_CAP (whole word). -/
def F.TRK_PARTNER_CAP (i : Nat) : Field := ⟨0x20060 + 0x4000 * i, 0, 32⟩
def F.TRK_PARTNER_CAP_STEP_MAX (i : Nat) : Field := ⟨0x20060 + 0x4000 * i, 0, 3⟩
def F.TRK_PARTNER_CAP_SINGLE_LANE_EN (i : Nat) : Field := ⟨0x20060 + 0x4000 * i, 3, 1⟩
def F.TRK_PARTNER_CAP_QUIET_EN (i : Nat) : Field := ⟨0x20060 + 0x4000 * i, 4, 1⟩
def F.TRK_PARTNER_CAP_PRECODE (i : Nat) : Field := ⟨0x20060 + 0x4000 * i, 5, 5⟩
/-- Register TRK_COEF_SEL (whole word). -/
def F.TRK_COEF_SEL (i : Nat) : Field := ⟨0x20064 + 0x4000 * i, 0, 32⟩
def F.TRK_COEF_SEL_STEP (i : Nat) : Field := ⟨0x20064 + 0x4000 * i, 0, 3⟩
def F.TRK_COEF_SEL_LANE (i : Nat) : Field := ⟨0x20064 + 0x4000 * i, 3, 1⟩
def F.TRK_COEF_SEL_TAP (i : Nat) : Field := ⟨0x20064 + 0x4000 * i, 4, 6⟩
/-- Register TRK_COEF_DATA (whole word). -/
def F.TRK_COEF_DATA (i : Nat) : Field := ⟨0x20068 + 0x4000 * i, 0, 32⟩
def F.TRK_COEF_DATA_VALUE (i : Nat) : Field := ⟨0x20068 + 0x4000 * i, 0, 16⟩
/-- Register TRK_SLIP (whole word). -/
def F.TRK_SLIP (i : Nat) : Field := ⟨0x2006C + 0x4000 * i, 0, 32⟩
/-- Register LNK_CTL (whole word). -/
def F.LNK_CTL (i : Nat) : Field := ⟨0x30000 + 0x400 * i, 0, 32⟩
def F.LNK_CTL_EN (i : Nat) : Field := ⟨0x30000 + 0x400 * i, 0, 1⟩
def F.LNK_CTL_CIPHER_EN (i : Nat) : Field := ⟨0x30000 + 0x400 * i, 1, 1⟩
def F.LNK_CTL_TP_EN (i : Nat) : Field := ⟨0x30000 + 0x400 * i, 2, 1⟩
def F.LNK_CTL_TP_AUTO_HARD (i : Nat) : Field := ⟨0x30000 + 0x400 * i, 3, 1⟩
def F.LNK_CTL_TP_REMOTE_LK (i : Nat) : Field := ⟨0x30000 + 0x400 * i, 4, 1⟩
def F.LNK_CTL_TICK_EN (i : Nat) : Field := ⟨0x30000 + 0x400 * i, 5, 1⟩
/-- Register LNK_STATUS (whole word). -/
def F.LNK_STATUS (i : Nat) : Field := ⟨0x30004 + 0x400 * i, 0, 32⟩
def F.LNK_STATUS_TX_NEXT (i : Nat) : Field := ⟨0x30004 + 0x400 * i, 0, 12⟩
def F.LNK_STATUS_TX_ACKED (i : Nat) : Field := ⟨0x30004 + 0x400 * i, 12, 12⟩
def F.LNK_STATUS_ADMITTED (i : Nat) : Field := ⟨0x30004 + 0x400 * i, 24, 1⟩
def F.LNK_STATUS_HB_OK (i : Nat) : Field := ⟨0x30004 + 0x400 * i, 25, 1⟩
def F.LNK_STATUS_PARTNER_LK (i : Nat) : Field := ⟨0x30004 + 0x400 * i, 26, 3⟩
def F.LNK_STATUS_TX_HOLD (i : Nat) : Field := ⟨0x30004 + 0x400 * i, 29, 1⟩
/-- Register LNK_RX (whole word). -/
def F.LNK_RX (i : Nat) : Field := ⟨0x30008 + 0x400 * i, 0, 32⟩
def F.LNK_RX_EXPECT (i : Nat) : Field := ⟨0x30008 + 0x400 * i, 0, 12⟩
def F.LNK_RX_BUF_WORDS (i : Nat) : Field := ⟨0x30008 + 0x400 * i, 12, 12⟩
/-- Register LNK_ACK_CFG (whole word). -/
def F.LNK_ACK_CFG (i : Nat) : Field := ⟨0x3000C + 0x400 * i, 0, 32⟩
def F.LNK_ACK_CFG_ACK_COUNT (i : Nat) : Field := ⟨0x3000C + 0x400 * i, 0, 5⟩
def F.LNK_ACK_CFG_ACK_DELAY (i : Nat) : Field := ⟨0x3000C + 0x400 * i, 5, 8⟩
def F.LNK_ACK_CFG_REPLAY_TIMEOUT (i : Nat) : Field := ⟨0x3000C + 0x400 * i, 13, 8⟩
/-- Register LNK_TIME_CFG (whole word). -/
def F.LNK_TIME_CFG (i : Nat) : Field := ⟨0x30010 + 0x400 * i, 0, 32⟩
def F.LNK_TIME_CFG_DLY_INTERVAL (i : Nat) : Field := ⟨0x30010 + 0x400 * i, 0, 8⟩
/-- Register LNK_EPOCH (whole word). -/
def F.LNK_EPOCH (i : Nat) : Field := ⟨0x30014 + 0x400 * i, 0, 32⟩
def F.LNK_EPOCH_EPOCH (i : Nat) : Field := ⟨0x30014 + 0x400 * i, 0, 24⟩
def F.LNK_EPOCH_KE_PEND (i : Nat) : Field := ⟨0x30014 + 0x400 * i, 24, 1⟩
def F.LNK_EPOCH_RX_KPH (i : Nat) : Field := ⟨0x30014 + 0x400 * i, 25, 1⟩
/-- Register LNK_KE_SPAN (whole word). -/
def F.LNK_KE_SPAN (i : Nat) : Field := ⟨0x30018 + 0x400 * i, 0, 32⟩
/-- Register LNK_TXC (whole word). -/
def F.LNK_TXC (i : Nat) : Field := ⟨0x3001C + 0x400 * i, 0, 32⟩
/-- Register LNK_INT_STATUS (whole word). -/
def F.LNK_INT_STATUS (i : Nat) : Field := ⟨0x30020 + 0x400 * i, 0, 32⟩
def F.LNK_INT_STATUS_REPLAY_FAIL (i : Nat) : Field := ⟨0x30020 + 0x400 * i, 0, 1⟩
def F.LNK_INT_STATUS_AUTH_FAIL (i : Nat) : Field := ⟨0x30020 + 0x400 * i, 1, 1⟩
def F.LNK_INT_STATUS_HB_LOSS (i : Nat) : Field := ⟨0x30020 + 0x400 * i, 2, 1⟩
def F.LNK_INT_STATUS_PROTO (i : Nat) : Field := ⟨0x30020 + 0x400 * i, 3, 1⟩
def F.LNK_INT_STATUS_EPOCH_DONE (i : Nat) : Field := ⟨0x30020 + 0x400 * i, 4, 1⟩
def F.LNK_INT_STATUS_TX_HOLD (i : Nat) : Field := ⟨0x30020 + 0x400 * i, 5, 1⟩
def F.LNK_INT_STATUS_TP_RX (i : Nat) : Field := ⟨0x30020 + 0x400 * i, 6, 1⟩
def F.LNK_INT_STATUS_TP_DONE (i : Nat) : Field := ⟨0x30020 + 0x400 * i, 7, 1⟩
def F.LNK_INT_STATUS_TP_ESCALATE (i : Nat) : Field := ⟨0x30020 + 0x400 * i, 8, 1⟩
def F.LNK_INT_STATUS_PARTNER_HOLD (i : Nat) : Field := ⟨0x30020 + 0x400 * i, 9, 1⟩
def F.LNK_INT_STATUS_TP_BREAK_IGNORED (i : Nat) : Field := ⟨0x30020 + 0x400 * i, 10, 1⟩
def F.LNK_INT_STATUS_TP_SOFT_RX (i : Nat) : Field := ⟨0x30020 + 0x400 * i, 11, 1⟩
/-- Register LNK_INT_EN (whole word). -/
def F.LNK_INT_EN (i : Nat) : Field := ⟨0x30024 + 0x400 * i, 0, 32⟩
def F.LNK_INT_EN_REPLAY_FAIL (i : Nat) : Field := ⟨0x30024 + 0x400 * i, 0, 1⟩
def F.LNK_INT_EN_AUTH_FAIL (i : Nat) : Field := ⟨0x30024 + 0x400 * i, 1, 1⟩
def F.LNK_INT_EN_HB_LOSS (i : Nat) : Field := ⟨0x30024 + 0x400 * i, 2, 1⟩
def F.LNK_INT_EN_PROTO (i : Nat) : Field := ⟨0x30024 + 0x400 * i, 3, 1⟩
def F.LNK_INT_EN_EPOCH_DONE (i : Nat) : Field := ⟨0x30024 + 0x400 * i, 4, 1⟩
def F.LNK_INT_EN_TX_HOLD (i : Nat) : Field := ⟨0x30024 + 0x400 * i, 5, 1⟩
def F.LNK_INT_EN_TP_RX (i : Nat) : Field := ⟨0x30024 + 0x400 * i, 6, 1⟩
def F.LNK_INT_EN_TP_DONE (i : Nat) : Field := ⟨0x30024 + 0x400 * i, 7, 1⟩
def F.LNK_INT_EN_TP_ESCALATE (i : Nat) : Field := ⟨0x30024 + 0x400 * i, 8, 1⟩
def F.LNK_INT_EN_PARTNER_HOLD (i : Nat) : Field := ⟨0x30024 + 0x400 * i, 9, 1⟩
def F.LNK_INT_EN_TP_BREAK_IGNORED (i : Nat) : Field := ⟨0x30024 + 0x400 * i, 10, 1⟩
def F.LNK_INT_EN_TP_SOFT_RX (i : Nat) : Field := ⟨0x30024 + 0x400 * i, 11, 1⟩
/-- Register LNK_CRC_ERR (whole word). -/
def F.LNK_CRC_ERR (i : Nat) : Field := ⟨0x30028 + 0x400 * i, 0, 32⟩
/-- Register LNK_AUTH_FAIL (whole word). -/
def F.LNK_AUTH_FAIL (i : Nat) : Field := ⟨0x3002C + 0x400 * i, 0, 32⟩
/-- Register LNK_NAK_TX (whole word). -/
def F.LNK_NAK_TX (i : Nat) : Field := ⟨0x30030 + 0x400 * i, 0, 32⟩
/-- Register LNK_REPLAY_TX (whole word). -/
def F.LNK_REPLAY_TX (i : Nat) : Field := ⟨0x30034 + 0x400 * i, 0, 32⟩
/-- Register LNK_REPLAY_OK (whole word). -/
def F.LNK_REPLAY_OK (i : Nat) : Field := ⟨0x30038 + 0x400 * i, 0, 32⟩
/-- Register LNK_DUP (whole word). -/
def F.LNK_DUP (i : Nat) : Field := ⟨0x3003C + 0x400 * i, 0, 32⟩
/-- Register LNK_HDR_DROP (whole word). -/
def F.LNK_HDR_DROP (i : Nat) : Field := ⟨0x30040 + 0x400 * i, 0, 32⟩
/-- Register LNK_PROTO_ERR (whole word). -/
def F.LNK_PROTO_ERR (i : Nat) : Field := ⟨0x30044 + 0x400 * i, 0, 32⟩
/-- Register LNK_LOST_UNACKED (whole word). -/
def F.LNK_LOST_UNACKED (i : Nat) : Field := ⟨0x30048 + 0x400 * i, 0, 32⟩
/-- Register LNK_HB_MISS (whole word). -/
def F.LNK_HB_MISS (i : Nat) : Field := ⟨0x3004C + 0x400 * i, 0, 32⟩
/-- Register LNK_TP_CFG (whole word). -/
def F.LNK_TP_CFG (i : Nat) : Field := ⟨0x30050 + 0x400 * i, 0, 32⟩
def F.LNK_TP_CFG_HELLO_PERIOD (i : Nat) : Field := ⟨0x30050 + 0x400 * i, 0, 8⟩
/-- Register LNK_TP_STATUS (whole word). -/
def F.LNK_TP_STATUS (i : Nat) : Field := ⟨0x30054 + 0x400 * i, 0, 32⟩
def F.LNK_TP_STATUS_PARTNER_SEEN (i : Nat) : Field := ⟨0x30054 + 0x400 * i, 0, 1⟩
def F.LNK_TP_STATUS_PARTNER_LK (i : Nat) : Field := ⟨0x30054 + 0x400 * i, 1, 3⟩
def F.LNK_TP_STATUS_ESC_STAGE (i : Nat) : Field := ⟨0x30054 + 0x400 * i, 4, 4⟩
def F.LNK_TP_STATUS_LINE_BUSY (i : Nat) : Field := ⟨0x30054 + 0x400 * i, 8, 1⟩
def F.LNK_TP_STATUS_BREAK_GUARD (i : Nat) : Field := ⟨0x30054 + 0x400 * i, 9, 1⟩
/-- Register LNK_TP_CMD (whole word). -/
def F.LNK_TP_CMD (i : Nat) : Field := ⟨0x30058 + 0x400 * i, 0, 32⟩
def F.LNK_TP_CMD_SEND (i : Nat) : Field := ⟨0x30058 + 0x400 * i, 0, 1⟩
def F.LNK_TP_CMD_STATUS_REQ (i : Nat) : Field := ⟨0x30058 + 0x400 * i, 1, 1⟩
def F.LNK_TP_CMD_SOFT_RESET (i : Nat) : Field := ⟨0x30058 + 0x400 * i, 2, 1⟩
def F.LNK_TP_CMD_SOFT_SCOPE (i : Nat) : Field := ⟨0x30058 + 0x400 * i, 3, 1⟩
def F.LNK_TP_CMD_HARD_RESET (i : Nat) : Field := ⟨0x30058 + 0x400 * i, 4, 1⟩
def F.LNK_TP_CMD_RX_RELEASE (i : Nat) : Field := ⟨0x30058 + 0x400 * i, 5, 1⟩
/-- Register LNK_TP_TXHDR (whole word). -/
def F.LNK_TP_TXHDR (i : Nat) : Field := ⟨0x3005C + 0x400 * i, 0, 32⟩
/-- Register LNK_TP_RXHDR (whole word). -/
def F.LNK_TP_RXHDR (i : Nat) : Field := ⟨0x30060 + 0x400 * i, 0, 32⟩
/-- Register LNK_TP_RESULT (whole word). -/
def F.LNK_TP_RESULT (i : Nat) : Field := ⟨0x30064 + 0x400 * i, 0, 32⟩
def F.LNK_TP_RESULT_RESULT (i : Nat) : Field := ⟨0x30064 + 0x400 * i, 0, 3⟩
def F.LNK_TP_RESULT_SEQ (i : Nat) : Field := ⟨0x30064 + 0x400 * i, 3, 8⟩
/-- Register LNK_TP_TX (whole word). -/
def F.LNK_TP_TX (i : Nat) : Field := ⟨0x30068 + 0x400 * i, 0, 32⟩
/-- Register LNK_TP_RX (whole word). -/
def F.LNK_TP_RX (i : Nat) : Field := ⟨0x3006C + 0x400 * i, 0, 32⟩
/-- Register LNK_TP_CRC_ERR (whole word). -/
def F.LNK_TP_CRC_ERR (i : Nat) : Field := ⟨0x30070 + 0x400 * i, 0, 32⟩
/-- Register LNK_TP_COLL (whole word). -/
def F.LNK_TP_COLL (i : Nat) : Field := ⟨0x30074 + 0x400 * i, 0, 32⟩
/-- Register LNK_TP_TIMEOUT (whole word). -/
def F.LNK_TP_TIMEOUT (i : Nat) : Field := ⟨0x30078 + 0x400 * i, 0, 32⟩
/-- Register LNK_TP_BREAK_IGN (whole word). -/
def F.LNK_TP_BREAK_IGN (i : Nat) : Field := ⟨0x3007C + 0x400 * i, 0, 32⟩
/-- Register LNK_TP_TXBUF (whole word). -/
def F.LNK_TP_TXBUF (i : Nat) (j : Nat) : Field := ⟨0x30100 + 0x400 * i + 4 * j, 0, 32⟩
/-- Register LNK_TP_RXBUF (whole word). -/
def F.LNK_TP_RXBUF (i : Nat) (j : Nat) : Field := ⟨0x30140 + 0x400 * i + 4 * j, 0, 32⟩
/-- Register FAB_ROUTE0 (whole word). -/
def F.FAB_ROUTE0 (i : Nat) : Field := ⟨0x40000 + 8 * i, 0, 32⟩
def F.FAB_ROUTE0_VALID (i : Nat) : Field := ⟨0x40000 + 8 * i, 0, 1⟩
def F.FAB_ROUTE0_PRI (i : Nat) : Field := ⟨0x40000 + 8 * i, 1, 2⟩
def F.FAB_ROUTE0_SEC (i : Nat) : Field := ⟨0x40000 + 8 * i, 3, 2⟩
def F.FAB_ROUTE0_HOPS_PRI (i : Nat) : Field := ⟨0x40000 + 8 * i, 5, 6⟩
def F.FAB_ROUTE0_HOPS_SEC (i : Nat) : Field := ⟨0x40000 + 8 * i, 11, 6⟩
def F.FAB_ROUTE0_EXIT_PRI (i : Nat) : Field := ⟨0x40000 + 8 * i, 17, 6⟩
def F.FAB_ROUTE0_SPUR_PRI (i : Nat) : Field := ⟨0x40000 + 8 * i, 23, 1⟩
def F.FAB_ROUTE0_EXIT_SEC (i : Nat) : Field := ⟨0x40000 + 8 * i, 24, 6⟩
def F.FAB_ROUTE0_SPUR_SEC (i : Nat) : Field := ⟨0x40000 + 8 * i, 30, 1⟩
def F.FAB_ROUTE0_REVOKE (i : Nat) : Field := ⟨0x40000 + 8 * i, 31, 1⟩
/-- Register FAB_ROUTE1 (whole word). -/
def F.FAB_ROUTE1 (i : Nat) : Field := ⟨0x40004 + 8 * i, 0, 32⟩
def F.FAB_ROUTE1_GEN (i : Nat) : Field := ⟨0x40004 + 8 * i, 0, 4⟩
/-- Register FAB_GROUP (whole word). -/
def F.FAB_GROUP (i : Nat) : Field := ⟨0x42000 + 4 * i, 0, 32⟩
def F.FAB_GROUP_VALID (i : Nat) : Field := ⟨0x42000 + 4 * i, 0, 1⟩
def F.FAB_GROUP_PORTS (i : Nat) : Field := ⟨0x42000 + 4 * i, 1, 10⟩
def F.FAB_GROUP_ATOMIC (i : Nat) : Field := ⟨0x42000 + 4 * i, 11, 1⟩
def F.FAB_GROUP_CHANNEL (i : Nat) : Field := ⟨0x42000 + 4 * i, 12, 8⟩
def F.FAB_GROUP_MC_HOPS (i : Nat) : Field := ⟨0x42000 + 4 * i, 20, 6⟩
def F.FAB_GROUP_GEN (i : Nat) : Field := ⟨0x42000 + 4 * i, 26, 4⟩
def F.FAB_GROUP_REVOKE (i : Nat) : Field := ⟨0x42000 + 4 * i, 30, 1⟩
/-- Register FAB_TUN0 (whole word). -/
def F.FAB_TUN0 (i : Nat) : Field := ⟨0x44000 + 8 * i, 0, 32⟩
def F.FAB_TUN0_VALID (i : Nat) : Field := ⟨0x44000 + 8 * i, 0, 1⟩
def F.FAB_TUN0_ADAPTER (i : Nat) : Field := ⟨0x44000 + 8 * i, 1, 4⟩
def F.FAB_TUN0_CHANNEL (i : Nat) : Field := ⟨0x44000 + 8 * i, 5, 8⟩
def F.FAB_TUN0_PEER_HUB (i : Nat) : Field := ⟨0x44000 + 8 * i, 13, 10⟩
def F.FAB_TUN0_WEIR (i : Nat) : Field := ⟨0x44000 + 8 * i, 23, 9⟩
/-- Register FAB_TUN1 (whole word). -/
def F.FAB_TUN1 (i : Nat) : Field := ⟨0x44004 + 8 * i, 0, 32⟩
def F.FAB_TUN1_PEER_TUNNEL (i : Nat) : Field := ⟨0x44004 + 8 * i, 0, 12⟩
def F.FAB_TUN1_QUEUE (i : Nat) : Field := ⟨0x44004 + 8 * i, 12, 6⟩
def F.FAB_TUN1_BUDGET (i : Nat) : Field := ⟨0x44004 + 8 * i, 18, 2⟩
def F.FAB_TUN1_MODE (i : Nat) : Field := ⟨0x44004 + 8 * i, 20, 2⟩
def F.FAB_TUN1_STRICT_ORDER (i : Nat) : Field := ⟨0x44004 + 8 * i, 22, 1⟩
def F.FAB_TUN1_REVOKE (i : Nat) : Field := ⟨0x44004 + 8 * i, 23, 1⟩
def F.FAB_TUN1_GEN (i : Nat) : Field := ⟨0x44004 + 8 * i, 24, 4⟩
def F.FAB_TUN1_MCAST (i : Nat) : Field := ⟨0x44004 + 8 * i, 28, 1⟩
/-- Register FAB_TSTATE0 (whole word). -/
def F.FAB_TSTATE0 (i : Nat) : Field := ⟨0x4C000 + 8 * i, 0, 32⟩
def F.FAB_TSTATE0_TX_NEXT (i : Nat) : Field := ⟨0x4C000 + 8 * i, 0, 16⟩
def F.FAB_TSTATE0_TX_OLDEST (i : Nat) : Field := ⟨0x4C000 + 8 * i, 16, 16⟩
/-- Register FAB_TSTATE1 (whole word). -/
def F.FAB_TSTATE1 (i : Nat) : Field := ⟨0x4C004 + 8 * i, 0, 32⟩
def F.FAB_TSTATE1_RX_EXPECT (i : Nat) : Field := ⟨0x4C004 + 8 * i, 0, 16⟩
def F.FAB_TSTATE1_RX_SYNCED (i : Nat) : Field := ⟨0x4C004 + 8 * i, 16, 1⟩
def F.FAB_TSTATE1_TX_SYNCED (i : Nat) : Field := ⟨0x4C004 + 8 * i, 17, 1⟩
def F.FAB_TSTATE1_STALLED (i : Nat) : Field := ⟨0x4C004 + 8 * i, 18, 1⟩
def F.FAB_TSTATE1_RETRIES (i : Nat) : Field := ⟨0x4C004 + 8 * i, 19, 4⟩
/-- Register FAB_ID (whole word). -/
def F.FAB_ID : Field := ⟨0x5F000, 0, 32⟩
def F.FAB_ID_HUB_ID : Field := ⟨0x5F000, 0, 10⟩
def F.FAB_ID_ID_VALID : Field := ⟨0x5F000, 15, 1⟩
/-- Register FAB_STATUS (whole word). -/
def F.FAB_STATUS : Field := ⟨0x5F004, 0, 32⟩
def F.FAB_STATUS_DUP : Field := ⟨0x5F004, 0, 1⟩
def F.FAB_STATUS_ISOLATED : Field := ⟨0x5F004, 1, 1⟩
def F.FAB_STATUS_ROUTABLE : Field := ⟨0x5F004, 2, 3⟩
def F.FAB_STATUS_WTR_RUN : Field := ⟨0x5F004, 5, 3⟩
/-- Register FAB_CFG (whole word). -/
def F.FAB_CFG : Field := ⟨0x5F008, 0, 32⟩
def F.FAB_CFG_TACK_QUEUE : Field := ⟨0x5F008, 0, 6⟩
def F.FAB_CFG_T_REPLAY : Field := ⟨0x5F008, 6, 8⟩
def F.FAB_CFG_TUN_RETRY_MAX : Field := ⟨0x5F008, 14, 4⟩
/-- Register FAB_STRICT_Q_LO (whole word). -/
def F.FAB_STRICT_Q_LO : Field := ⟨0x5F00C, 0, 32⟩
/-- Register FAB_STRICT_Q_HI (whole word). -/
def F.FAB_STRICT_Q_HI : Field := ⟨0x5F010, 0, 32⟩
/-- Register FAB_RING (whole word). -/
def F.FAB_RING : Field := ⟨0x5F014, 0, 32⟩
def F.FAB_RING_RING_ID : Field := ⟨0x5F014, 0, 8⟩
def F.FAB_RING_RING_SIZE : Field := ⟨0x5F014, 8, 7⟩
def F.FAB_RING_RING_POS : Field := ⟨0x5F014, 15, 6⟩
def F.FAB_RING_EAST_PORT : Field := ⟨0x5F014, 21, 1⟩
def F.FAB_RING_WTR : Field := ⟨0x5F014, 22, 8⟩
/-- Register FAB_BROKEN (whole word). -/
def F.FAB_BROKEN (i : Nat) : Field := ⟨0x5F018 + 4 * i, 0, 32⟩
/-- Register FAB_EXIT_LOST (whole word). -/
def F.FAB_EXIT_LOST (i : Nat) : Field := ⟨0x5F020 + 4 * i, 0, 32⟩
/-- Register FAB_TIME_CFG (whole word). -/
def F.FAB_TIME_CFG : Field := ⟨0x5F028, 0, 32⟩
def F.FAB_TIME_CFG_MASTER_ELIG : Field := ⟨0x5F028, 0, 1⟩
def F.FAB_TIME_CFG_USB_LOCK_EN : Field := ⟨0x5F028, 1, 1⟩
def F.FAB_TIME_CFG_SOF_OFFSET : Field := ⟨0x5F028, 2, 16⟩
/-- Register FAB_TIME_STATUS (whole word). -/
def F.FAB_TIME_STATUS : Field := ⟨0x5F02C, 0, 32⟩
def F.FAB_TIME_STATUS_LOCKED : Field := ⟨0x5F02C, 0, 1⟩
def F.FAB_TIME_STATUS_HOLDOVER : Field := ⟨0x5F02C, 1, 1⟩
def F.FAB_TIME_STATUS_IS_MASTER : Field := ⟨0x5F02C, 2, 1⟩
def F.FAB_TIME_STATUS_MASTER_SRC : Field := ⟨0x5F02C, 3, 1⟩
def F.FAB_TIME_STATUS_UP_PORT : Field := ⟨0x5F02C, 4, 2⟩
def F.FAB_TIME_STATUS_MASTER_HOPS : Field := ⟨0x5F02C, 6, 6⟩
def F.FAB_TIME_STATUS_MASTER_ID : Field := ⟨0x5F02C, 12, 10⟩
/-- Register FAB_FRAME (whole word). -/
def F.FAB_FRAME : Field := ⟨0x5F030, 0, 32⟩
/-- Register FAB_SUBNS (whole word). -/
def F.FAB_SUBNS : Field := ⟨0x5F034, 0, 32⟩
def F.FAB_SUBNS_SUBNS : Field := ⟨0x5F034, 0, 20⟩
/-- Register FAB_OFFSET (whole word). -/
def F.FAB_OFFSET : Field := ⟨0x5F038, 0, 32⟩
/-- Register FAB_LINK_DLY (whole word). -/
def F.FAB_LINK_DLY (i : Nat) : Field := ⟨0x5F03C + 4 * i, 0, 32⟩
def F.FAB_LINK_DLY_DELAY (i : Nat) : Field := ⟨0x5F03C + 4 * i, 0, 16⟩
def F.FAB_LINK_DLY_VALID (i : Nat) : Field := ⟨0x5F03C + 4 * i, 16, 1⟩
/-- Register FAB_INRUSH (whole word). -/
def F.FAB_INRUSH : Field := ⟨0x5F048, 0, 32⟩
def F.FAB_INRUSH_SLOT_SEL : Field := ⟨0x5F048, 0, 1⟩
def F.FAB_INRUSH_SLOT : Field := ⟨0x5F048, 1, 6⟩
def F.FAB_INRUSH_HOLD_UNLOCKED : Field := ⟨0x5F048, 7, 1⟩
def F.FAB_INRUSH_CUR_SLOT : Field := ⟨0x5F048, 8, 6⟩
/-- Register FAB_SOF_MAP (whole word). -/
def F.FAB_SOF_MAP : Field := ⟨0x5F04C, 0, 32⟩
def F.FAB_SOF_MAP_USB_FRAME : Field := ⟨0x5F04C, 0, 11⟩
def F.FAB_SOF_MAP_FRAME_LO : Field := ⟨0x5F04C, 11, 21⟩
/-- Register FAB_INT_STATUS (whole word). -/
def F.FAB_INT_STATUS : Field := ⟨0x5F050, 0, 32⟩
def F.FAB_INT_STATUS_DUP_ID : Field := ⟨0x5F050, 0, 1⟩
def F.FAB_INT_STATUS_PROTECT : Field := ⟨0x5F050, 1, 1⟩
def F.FAB_INT_STATUS_RING_NOTICE : Field := ⟨0x5F050, 2, 1⟩
def F.FAB_INT_STATUS_TIME_LOCK : Field := ⟨0x5F050, 3, 1⟩
def F.FAB_INT_STATUS_TIME_UNLOCK : Field := ⟨0x5F050, 4, 1⟩
def F.FAB_INT_STATUS_TIME_STEP : Field := ⟨0x5F050, 5, 1⟩
def F.FAB_INT_STATUS_MASTER_CHANGE : Field := ⟨0x5F050, 6, 1⟩
def F.FAB_INT_STATUS_TUN_STALL : Field := ⟨0x5F050, 7, 1⟩
/-- Register FAB_INT_EN (whole word). -/
def F.FAB_INT_EN : Field := ⟨0x5F054, 0, 32⟩
def F.FAB_INT_EN_DUP_ID : Field := ⟨0x5F054, 0, 1⟩
def F.FAB_INT_EN_PROTECT : Field := ⟨0x5F054, 1, 1⟩
def F.FAB_INT_EN_RING_NOTICE : Field := ⟨0x5F054, 2, 1⟩
def F.FAB_INT_EN_TIME_LOCK : Field := ⟨0x5F054, 3, 1⟩
def F.FAB_INT_EN_TIME_UNLOCK : Field := ⟨0x5F054, 4, 1⟩
def F.FAB_INT_EN_TIME_STEP : Field := ⟨0x5F054, 5, 1⟩
def F.FAB_INT_EN_MASTER_CHANGE : Field := ⟨0x5F054, 6, 1⟩
def F.FAB_INT_EN_TUN_STALL : Field := ⟨0x5F054, 7, 1⟩
/-- Register FAB_NO_ROUTE (whole word). -/
def F.FAB_NO_ROUTE : Field := ⟨0x5F058, 0, 32⟩
/-- Register FAB_NO_TUNNEL (whole word). -/
def F.FAB_NO_TUNNEL : Field := ⟨0x5F05C, 0, 32⟩
/-- Register FAB_HOPS_DROP (whole word). -/
def F.FAB_HOPS_DROP : Field := ⟨0x5F060, 0, 32⟩
/-- Register FAB_REVOKE_DROP (whole word). -/
def F.FAB_REVOKE_DROP : Field := ⟨0x5F064, 0, 32⟩
/-- Register FAB_AGE_DROP (whole word). -/
def F.FAB_AGE_DROP : Field := ⟨0x5F068, 0, 32⟩
/-- Register FAB_MC_LOOP (whole word). -/
def F.FAB_MC_LOOP : Field := ⟨0x5F06C, 0, 32⟩
/-- Register FAB_MC_ATOMIC_REFUSED (whole word). -/
def F.FAB_MC_ATOMIC_REFUSED : Field := ⟨0x5F070, 0, 32⟩
/-- Register FAB_STRICT_DROP (whole word). -/
def F.FAB_STRICT_DROP : Field := ⟨0x5F074, 0, 32⟩
/-- Register FAB_RELINK (whole word). -/
def F.FAB_RELINK : Field := ⟨0x5F078, 0, 32⟩
/-- Register FAB_ISO_DROP (whole word). -/
def F.FAB_ISO_DROP : Field := ⟨0x5F07C, 0, 32⟩
/-- Register FAB_TUN_DUP (whole word). -/
def F.FAB_TUN_DUP : Field := ⟨0x5F080, 0, 32⟩
/-- Register FAB_TUN_LATE (whole word). -/
def F.FAB_TUN_LATE : Field := ⟨0x5F084, 0, 32⟩
/-- Register FAB_TUN_GAP (whole word). -/
def F.FAB_TUN_GAP : Field := ⟨0x5F088, 0, 32⟩
/-- Register FAB_TUN_ABANDON (whole word). -/
def F.FAB_TUN_ABANDON : Field := ⟨0x5F08C, 0, 32⟩
/-- Register FAB_TUN_PROTO (whole word). -/
def F.FAB_TUN_PROTO : Field := ⟨0x5F090, 0, 32⟩
/-- Register FAB_TUN_RETX (whole word). -/
def F.FAB_TUN_RETX : Field := ⟨0x5F094, 0, 32⟩
/-- Register FAB_TUN_LATE_ACK (whole word). -/
def F.FAB_TUN_LATE_ACK : Field := ⟨0x5F098, 0, 32⟩
/-- Register FAB_ROUTE_ERR (whole word). -/
def F.FAB_ROUTE_ERR (i : Nat) : Field := ⟨0x5F09C + 4 * i, 0, 32⟩
/-- Register FAB_MC_DROP (whole word). -/
def F.FAB_MC_DROP (i : Nat) : Field := ⟨0x5F0A8 + 4 * i, 0, 32⟩
/-- Register SWC_CTL (whole word). -/
def F.SWC_CTL : Field := ⟨0x60000, 0, 32⟩
def F.SWC_CTL_RED_EN : Field := ⟨0x60000, 0, 1⟩
def F.SWC_CTL_PEAK_CLR : Field := ⟨0x60000, 1, 1⟩
/-- Register SWC_POOL (whole word). -/
def F.SWC_POOL : Field := ⟨0x60004, 0, 32⟩
def F.SWC_POOL_SHARED_SIZE : Field := ⟨0x60004, 0, 15⟩
def F.SWC_POOL_SHARED_FREE : Field := ⟨0x60004, 16, 15⟩
/-- Register SWC_POOL_CFG (whole word). -/
def F.SWC_POOL_CFG : Field := ⟨0x60008, 0, 32⟩
def F.SWC_POOL_CFG_LOW_WATER : Field := ⟨0x60008, 0, 15⟩
/-- Register SWC_BASIN (whole word). -/
def F.SWC_BASIN (i : Nat) : Field := ⟨0x60010 + 4 * i, 0, 32⟩
def F.SWC_BASIN_RESERVE (i : Nat) : Field := ⟨0x60010 + 4 * i, 0, 15⟩
def F.SWC_BASIN_RETAIN_MAX (i : Nat) : Field := ⟨0x60010 + 4 * i, 16, 15⟩
/-- Register SWC_OCC (whole word). -/
def F.SWC_OCC (i : Nat) : Field := ⟨0x60040 + 4 * i, 0, 32⟩
def F.SWC_OCC_IN_USE (i : Nat) : Field := ⟨0x60040 + 4 * i, 0, 15⟩
def F.SWC_OCC_PEAK (i : Nat) : Field := ⟨0x60040 + 4 * i, 16, 15⟩
/-- Register SWC_RETAIN (whole word). -/
def F.SWC_RETAIN (i : Nat) : Field := ⟨0x60070 + 4 * i, 0, 32⟩
def F.SWC_RETAIN_RETAINED (i : Nat) : Field := ⟨0x60070 + 4 * i, 0, 15⟩
def F.SWC_RETAIN_FULL (i : Nat) : Field := ⟨0x60070 + 4 * i, 15, 1⟩
/-- Register SWC_DT_PROF (whole word). -/
def F.SWC_DT_PROF : Field := ⟨0x600A0, 0, 32⟩
def F.SWC_DT_PROF_K0 : Field := ⟨0x600A0, 0, 4⟩
def F.SWC_DT_PROF_K1 : Field := ⟨0x600A0, 4, 4⟩
def F.SWC_DT_PROF_K2 : Field := ⟨0x600A0, 8, 4⟩
def F.SWC_DT_PROF_K3 : Field := ⟨0x600A0, 12, 4⟩
/-- Register SWC_RED_AVG (whole word). -/
def F.SWC_RED_AVG : Field := ⟨0x600A4, 0, 32⟩
def F.SWC_RED_AVG_W0 : Field := ⟨0x600A4, 0, 4⟩
def F.SWC_RED_AVG_W1 : Field := ⟨0x600A4, 4, 4⟩
def F.SWC_RED_AVG_W2 : Field := ⟨0x600A4, 8, 4⟩
def F.SWC_RED_AVG_W3 : Field := ⟨0x600A4, 12, 4⟩
/-- Register SWC_QMAP (whole word). -/
def F.SWC_QMAP (i : Nat) : Field := ⟨0x600B0 + 4 * i, 0, 32⟩
def F.SWC_QMAP_DT0 (i : Nat) : Field := ⟨0x600B0 + 4 * i, 0, 2⟩
def F.SWC_QMAP_DT1 (i : Nat) : Field := ⟨0x600B0 + 4 * i, 4, 2⟩
def F.SWC_QMAP_DT2 (i : Nat) : Field := ⟨0x600B0 + 4 * i, 8, 2⟩
def F.SWC_QMAP_DT3 (i : Nat) : Field := ⟨0x600B0 + 4 * i, 12, 2⟩
def F.SWC_QMAP_DT4 (i : Nat) : Field := ⟨0x600B0 + 4 * i, 16, 2⟩
def F.SWC_QMAP_DT5 (i : Nat) : Field := ⟨0x600B0 + 4 * i, 20, 2⟩
def F.SWC_QMAP_DT6 (i : Nat) : Field := ⟨0x600B0 + 4 * i, 24, 2⟩
def F.SWC_QMAP_DT7 (i : Nat) : Field := ⟨0x600B0 + 4 * i, 28, 2⟩
def F.SWC_QMAP_RED0 (i : Nat) : Field := ⟨0x600B0 + 4 * i, 2, 2⟩
def F.SWC_QMAP_RED1 (i : Nat) : Field := ⟨0x600B0 + 4 * i, 6, 2⟩
def F.SWC_QMAP_RED2 (i : Nat) : Field := ⟨0x600B0 + 4 * i, 10, 2⟩
def F.SWC_QMAP_RED3 (i : Nat) : Field := ⟨0x600B0 + 4 * i, 14, 2⟩
def F.SWC_QMAP_RED4 (i : Nat) : Field := ⟨0x600B0 + 4 * i, 18, 2⟩
def F.SWC_QMAP_RED5 (i : Nat) : Field := ⟨0x600B0 + 4 * i, 22, 2⟩
def F.SWC_QMAP_RED6 (i : Nat) : Field := ⟨0x600B0 + 4 * i, 26, 2⟩
def F.SWC_QMAP_RED7 (i : Nat) : Field := ⟨0x600B0 + 4 * i, 30, 2⟩
/-- Register SWC_RED (whole word). -/
def F.SWC_RED (i : Nat) (j : Nat) : Field := ⟨0x600D0 + 0x10 * i + 4 * j, 0, 32⟩
def F.SWC_RED_MIN (i : Nat) (j : Nat) : Field := ⟨0x600D0 + 0x10 * i + 4 * j, 0, 10⟩
def F.SWC_RED_MAX (i : Nat) (j : Nat) : Field := ⟨0x600D0 + 0x10 * i + 4 * j, 10, 10⟩
def F.SWC_RED_MAXP (i : Nat) (j : Nat) : Field := ⟨0x600D0 + 0x10 * i + 4 * j, 20, 8⟩
def F.SWC_RED_ACTION (i : Nat) (j : Nat) : Field := ⟨0x600D0 + 0x10 * i + 4 * j, 28, 1⟩
def F.SWC_RED_EN (i : Nat) (j : Nat) : Field := ⟨0x600D0 + 0x10 * i + 4 * j, 29, 1⟩
/-- Register SWC_VOQ_SEL (whole word). -/
def F.SWC_VOQ_SEL : Field := ⟨0x60110, 0, 32⟩
def F.SWC_VOQ_SEL_IN_PORT : Field := ⟨0x60110, 0, 4⟩
def F.SWC_VOQ_SEL_OUT_PORT : Field := ⟨0x60110, 4, 4⟩
def F.SWC_VOQ_SEL_QUEUE : Field := ⟨0x60110, 8, 6⟩
/-- Register SWC_VOQ_DATA (whole word). -/
def F.SWC_VOQ_DATA : Field := ⟨0x60114, 0, 32⟩
def F.SWC_VOQ_DATA_CELLS : Field := ⟨0x60114, 0, 15⟩
def F.SWC_VOQ_DATA_BARGES : Field := ⟨0x60114, 16, 15⟩
/-- Register SWC_VOQ_AGE (whole word). -/
def F.SWC_VOQ_AGE : Field := ⟨0x60118, 0, 32⟩
def F.SWC_VOQ_AGE_HEAD_AGE : Field := ⟨0x60118, 0, 16⟩
def F.SWC_VOQ_AGE_AVG : Field := ⟨0x60118, 16, 15⟩
/-- Register SWC_SMP_OUT (whole word). -/
def F.SWC_SMP_OUT : Field := ⟨0x60120, 0, 32⟩
def F.SWC_SMP_OUT_QUEUE : Field := ⟨0x60120, 0, 6⟩
/-- Register SWC_SMP_CFG (whole word). -/
def F.SWC_SMP_CFG (i : Nat) : Field := ⟨0x60140 + 8 * i, 0, 32⟩
def F.SWC_SMP_CFG_EN (i : Nat) : Field := ⟨0x60140 + 8 * i, 0, 1⟩
def F.SWC_SMP_CFG_RANDOM (i : Nat) : Field := ⟨0x60140 + 8 * i, 1, 1⟩
def F.SWC_SMP_CFG_POINT (i : Nat) : Field := ⟨0x60140 + 8 * i, 2, 2⟩
def F.SWC_SMP_CFG_PORT (i : Nat) : Field := ⟨0x60140 + 8 * i, 4, 4⟩
def F.SWC_SMP_CFG_N (i : Nat) : Field := ⟨0x60140 + 8 * i, 8, 16⟩
/-- Register SWC_SMP_FILT (whole word). -/
def F.SWC_SMP_FILT (i : Nat) : Field := ⟨0x60144 + 8 * i, 0, 32⟩
def F.SWC_SMP_FILT_TYPE_MASK (i : Nat) : Field := ⟨0x60144 + 8 * i, 0, 16⟩
def F.SWC_SMP_FILT_QUEUE (i : Nat) : Field := ⟨0x60144 + 8 * i, 16, 6⟩
def F.SWC_SMP_FILT_QUEUE_EN (i : Nat) : Field := ⟨0x60144 + 8 * i, 22, 1⟩
/-- Register SWC_LOOP_CH (whole word). -/
def F.SWC_LOOP_CH (i : Nat) : Field := ⟨0x601C0 + 4 * i, 0, 32⟩
def F.SWC_LOOP_CH_TUNNEL (i : Nat) : Field := ⟨0x601C0 + 4 * i, 0, 12⟩
def F.SWC_LOOP_CH_EN (i : Nat) : Field := ⟨0x601C0 + 4 * i, 12, 1⟩
/-- Register SWC_INT_STATUS (whole word). -/
def F.SWC_INT_STATUS : Field := ⟨0x60200, 0, 32⟩
def F.SWC_INT_STATUS_POOL_LOW : Field := ⟨0x60200, 0, 1⟩
def F.SWC_INT_STATUS_ECC_DROP : Field := ⟨0x60200, 1, 1⟩
def F.SWC_INT_STATUS_SMP_LOST : Field := ⟨0x60200, 2, 1⟩
def F.SWC_INT_STATUS_RETAIN_FULL : Field := ⟨0x60200, 3, 1⟩
def F.SWC_INT_STATUS_PARTITION_REFUSED : Field := ⟨0x60200, 4, 1⟩
/-- Register SWC_INT_EN (whole word). -/
def F.SWC_INT_EN : Field := ⟨0x60204, 0, 32⟩
def F.SWC_INT_EN_POOL_LOW : Field := ⟨0x60204, 0, 1⟩
def F.SWC_INT_EN_ECC_DROP : Field := ⟨0x60204, 1, 1⟩
def F.SWC_INT_EN_SMP_LOST : Field := ⟨0x60204, 2, 1⟩
def F.SWC_INT_EN_RETAIN_FULL : Field := ⟨0x60204, 3, 1⟩
def F.SWC_INT_EN_PARTITION_REFUSED : Field := ⟨0x60204, 4, 1⟩
/-- Register SWC_ECC_LOC (whole word). -/
def F.SWC_ECC_LOC : Field := ⟨0x60208, 0, 32⟩
/-- Register SWC_ECC_DROP (whole word). -/
def F.SWC_ECC_DROP : Field := ⟨0x60210, 0, 32⟩
/-- Register SWC_ECC_RETRY_OK (whole word). -/
def F.SWC_ECC_RETRY_OK : Field := ⟨0x60214, 0, 32⟩
/-- Register SWC_SMP_SENT (whole word). -/
def F.SWC_SMP_SENT : Field := ⟨0x60218, 0, 32⟩
/-- Register SWC_SMP_LOST (whole word). -/
def F.SWC_SMP_LOST : Field := ⟨0x6021C, 0, 32⟩
/-- Register SWC_LOOP_DROP (whole word). -/
def F.SWC_LOOP_DROP : Field := ⟨0x60220, 0, 32⟩
/-- Register SWC_ADMIT (whole word). -/
def F.SWC_ADMIT (i : Nat) : Field := ⟨0x60300 + 0x20 * i, 0, 32⟩
/-- Register SWC_DROP_DT (whole word). -/
def F.SWC_DROP_DT (i : Nat) : Field := ⟨0x60304 + 0x20 * i, 0, 32⟩
/-- Register SWC_DROP_POOL (whole word). -/
def F.SWC_DROP_POOL (i : Nat) : Field := ⟨0x60308 + 0x20 * i, 0, 32⟩
/-- Register SWC_DROP_RED (whole word). -/
def F.SWC_DROP_RED (i : Nat) : Field := ⟨0x6030C + 0x20 * i, 0, 32⟩
/-- Register SWC_MARK (whole word). -/
def F.SWC_MARK (i : Nat) : Field := ⟨0x60310 + 0x20 * i, 0, 32⟩
/-- Register SWC_BACKPRESS (whole word). -/
def F.SWC_BACKPRESS (i : Nat) : Field := ⟨0x60314 + 0x20 * i, 0, 32⟩
/-- Register SWC_CTRL_OVER (whole word). -/
def F.SWC_CTRL_OVER (i : Nat) : Field := ⟨0x60318 + 0x20 * i, 0, 32⟩
/-- Register SCH_CTL (whole word). -/
def F.SCH_CTL : Field := ⟨0x70000, 0, 32⟩
def F.SCH_CTL_BUDGET_EN : Field := ⟨0x70000, 0, 1⟩
def F.SCH_CTL_BULK_BURST : Field := ⟨0x70000, 1, 8⟩
/-- Register SCH_INT_STATUS (whole word). -/
def F.SCH_INT_STATUS : Field := ⟨0x70004, 0, 32⟩
def F.SCH_INT_STATUS_GATE_TAKEOVER : Field := ⟨0x70004, 0, 1⟩
def F.SCH_INT_STATUS_GATE_LATE : Field := ⟨0x70004, 1, 1⟩
def F.SCH_INT_STATUS_BANK_WRITE_REFUSED : Field := ⟨0x70004, 2, 1⟩
/-- Register SCH_INT_EN (whole word). -/
def F.SCH_INT_EN : Field := ⟨0x70008, 0, 32⟩
def F.SCH_INT_EN_GATE_TAKEOVER : Field := ⟨0x70008, 0, 1⟩
def F.SCH_INT_EN_GATE_LATE : Field := ⟨0x70008, 1, 1⟩
def F.SCH_INT_EN_BANK_WRITE_REFUSED : Field := ⟨0x70008, 2, 1⟩
/-- Register SCH_WEIR_DROP (whole word). -/
def F.SCH_WEIR_DROP : Field := ⟨0x7000C, 0, 32⟩
/-- Register SCH_WEIR_HOLD (whole word). -/
def F.SCH_WEIR_HOLD : Field := ⟨0x70010, 0, 32⟩
/-- Register SCH_GUARD_HOLD (whole word). -/
def F.SCH_GUARD_HOLD : Field := ⟨0x70014, 0, 32⟩
/-- Register SCH_Q_SEL (whole word). -/
def F.SCH_Q_SEL : Field := ⟨0x70020, 0, 32⟩
def F.SCH_Q_SEL_PORT : Field := ⟨0x70020, 0, 4⟩
def F.SCH_Q_SEL_QUEUE : Field := ⟨0x70020, 4, 6⟩
/-- Register SCH_Q_TAG_LO (whole word). -/
def F.SCH_Q_TAG_LO : Field := ⟨0x70024, 0, 32⟩
/-- Register SCH_Q_TAG_HI (whole word). -/
def F.SCH_Q_TAG_HI : Field := ⟨0x70028, 0, 32⟩
/-- Register SCH_Q_CREDIT (whole word). -/
def F.SCH_Q_CREDIT : Field := ⟨0x7002C, 0, 32⟩
/-- Register SCH_Q_STATE (whole word). -/
def F.SCH_Q_STATE : Field := ⟨0x70030, 0, 32⟩
def F.SCH_Q_STATE_W_EFF : Field := ⟨0x70030, 0, 12⟩
def F.SCH_Q_STATE_BACKLOG : Field := ⟨0x70030, 12, 1⟩
def F.SCH_Q_STATE_GATE_OK : Field := ⟨0x70030, 13, 1⟩
def F.SCH_Q_STATE_SHAPER_OK : Field := ⟨0x70030, 14, 1⟩
def F.SCH_Q_STATE_ELIGIBLE : Field := ⟨0x70030, 15, 1⟩
/-- Register SCH_P_VT_LO (whole word). -/
def F.SCH_P_VT_LO : Field := ⟨0x70034, 0, 32⟩
/-- Register SCH_P_VT_HI (whole word). -/
def F.SCH_P_VT_HI : Field := ⟨0x70038, 0, 32⟩
/-- Register SCH_P_CREDIT (whole word). -/
def F.SCH_P_CREDIT : Field := ⟨0x7003C, 0, 32⟩
/-- Register SCH_P_BULK_CREDIT (whole word). -/
def F.SCH_P_BULK_CREDIT : Field := ⟨0x70040, 0, 32⟩
/-- Register SCH_P_CFG (whole word). -/
def F.SCH_P_CFG (i : Nat) : Field := ⟨0x70100 + 0x40 * i, 0, 32⟩
def F.SCH_P_CFG_OVERHEAD (i : Nat) : Field := ⟨0x70100 + 0x40 * i, 0, 9⟩
def F.SCH_P_CFG_GATE_EN (i : Nat) : Field := ⟨0x70100 + 0x40 * i, 9, 1⟩
def F.SCH_P_CFG_SHAPE_EN (i : Nat) : Field := ⟨0x70100 + 0x40 * i, 10, 1⟩
def F.SCH_P_CFG_WORD_NS (i : Nat) : Field := ⟨0x70100 + 0x40 * i, 16, 8⟩
def F.SCH_P_CFG_GUARD_EXTRA (i : Nat) : Field := ⟨0x70100 + 0x40 * i, 24, 8⟩
/-- Register SCH_P_SHAPE (whole word). -/
def F.SCH_P_SHAPE (i : Nat) : Field := ⟨0x70104 + 0x40 * i, 0, 32⟩
def F.SCH_P_SHAPE_RATE (i : Nat) : Field := ⟨0x70104 + 0x40 * i, 0, 20⟩
def F.SCH_P_SHAPE_BURST (i : Nat) : Field := ⟨0x70104 + 0x40 * i, 20, 12⟩
/-- Register SCH_P_BULK (whole word). -/
def F.SCH_P_BULK (i : Nat) : Field := ⟨0x70108 + 0x40 * i, 0, 32⟩
def F.SCH_P_BULK_CAP3 (i : Nat) : Field := ⟨0x70108 + 0x40 * i, 0, 7⟩
def F.SCH_P_BULK_HELD (i : Nat) : Field := ⟨0x70108 + 0x40 * i, 7, 1⟩
/-- Register SCH_P_GATE_CYC (whole word). -/
def F.SCH_P_GATE_CYC (i : Nat) (j : Nat) : Field := ⟨0x7010C + 0x40 * i + 4 * j, 0, 32⟩
def F.SCH_P_GATE_CYC_CYCLE (i : Nat) (j : Nat) : Field := ⟨0x7010C + 0x40 * i + 4 * j, 0, 27⟩
/-- Register SCH_P_TAKE_FRAME (whole word). -/
def F.SCH_P_TAKE_FRAME (i : Nat) : Field := ⟨0x70114 + 0x40 * i, 0, 32⟩
/-- Register SCH_P_TAKE_CTL (whole word). -/
def F.SCH_P_TAKE_CTL (i : Nat) : Field := ⟨0x70118 + 0x40 * i, 0, 32⟩
def F.SCH_P_TAKE_CTL_SUBNS (i : Nat) : Field := ⟨0x70118 + 0x40 * i, 0, 20⟩
def F.SCH_P_TAKE_CTL_ARM (i : Nat) : Field := ⟨0x70118 + 0x40 * i, 20, 1⟩
def F.SCH_P_TAKE_CTL_DISARM (i : Nat) : Field := ⟨0x70118 + 0x40 * i, 21, 1⟩
def F.SCH_P_TAKE_CTL_ARMED (i : Nat) : Field := ⟨0x70118 + 0x40 * i, 22, 1⟩
/-- Register SCH_P_GATE_STATUS (whole word). -/
def F.SCH_P_GATE_STATUS (i : Nat) : Field := ⟨0x7011C + 0x40 * i, 0, 32⟩
def F.SCH_P_GATE_STATUS_OPEN (i : Nat) : Field := ⟨0x7011C + 0x40 * i, 0, 8⟩
def F.SCH_P_GATE_STATUS_ENTRY (i : Nat) : Field := ⟨0x7011C + 0x40 * i, 8, 8⟩
def F.SCH_P_GATE_STATUS_BANK (i : Nat) : Field := ⟨0x7011C + 0x40 * i, 16, 1⟩
def F.SCH_P_GATE_STATUS_TOOK (i : Nat) : Field := ⟨0x7011C + 0x40 * i, 17, 1⟩
def F.SCH_P_GATE_STATUS_LATE (i : Nat) : Field := ⟨0x7011C + 0x40 * i, 18, 1⟩
/-- Register SCH_Q0 (whole word). -/
def F.SCH_Q0 (i : Nat) (j : Nat) : Field := ⟨0x71000 + 0x200 * i + 8 * j, 0, 32⟩
def F.SCH_Q0_WEIGHT (i : Nat) (j : Nat) : Field := ⟨0x71000 + 0x200 * i + 8 * j, 0, 12⟩
def F.SCH_Q0_GATE_GRP (i : Nat) (j : Nat) : Field := ⟨0x71000 + 0x200 * i + 8 * j, 12, 3⟩
def F.SCH_Q0_SHAPE_EN (i : Nat) (j : Nat) : Field := ⟨0x71000 + 0x200 * i + 8 * j, 15, 1⟩
/-- Register SCH_Q1 (whole word). -/
def F.SCH_Q1 (i : Nat) (j : Nat) : Field := ⟨0x71004 + 0x200 * i + 8 * j, 0, 32⟩
def F.SCH_Q1_RATE (i : Nat) (j : Nat) : Field := ⟨0x71004 + 0x200 * i + 8 * j, 0, 20⟩
def F.SCH_Q1_BURST (i : Nat) (j : Nat) : Field := ⟨0x71004 + 0x200 * i + 8 * j, 20, 12⟩
/-- Register SCH_GATE (whole word). -/
def F.SCH_GATE (i : Nat) (j : Nat) (k : Nat) : Field := ⟨0x74000 + 0x800 * i + 0x400 * j + 4 * k, 0, 32⟩
def F.SCH_GATE_OPEN (i : Nat) (j : Nat) (k : Nat) : Field := ⟨0x74000 + 0x800 * i + 0x400 * j + 4 * k, 0, 8⟩
def F.SCH_GATE_DURATION (i : Nat) (j : Nat) (k : Nat) : Field := ⟨0x74000 + 0x800 * i + 0x400 * j + 4 * k, 8, 24⟩
/-- Register SCH_WEIR0 (whole word). -/
def F.SCH_WEIR0 (i : Nat) : Field := ⟨0x7A000 + 0x10 * i, 0, 32⟩
def F.SCH_WEIR0_CIR (i : Nat) : Field := ⟨0x7A000 + 0x10 * i, 0, 20⟩
def F.SCH_WEIR0_EN (i : Nat) : Field := ⟨0x7A000 + 0x10 * i, 20, 1⟩
def F.SCH_WEIR0_COLOUR_AWARE (i : Nat) : Field := ⟨0x7A000 + 0x10 * i, 21, 1⟩
def F.SCH_WEIR0_DROP_RED (i : Nat) : Field := ⟨0x7A000 + 0x10 * i, 22, 1⟩
/-- Register SCH_WEIR1 (whole word). -/
def F.SCH_WEIR1 (i : Nat) : Field := ⟨0x7A004 + 0x10 * i, 0, 32⟩
def F.SCH_WEIR1_PIR (i : Nat) : Field := ⟨0x7A004 + 0x10 * i, 0, 20⟩
/-- Register SCH_WEIR2 (whole word). -/
def F.SCH_WEIR2 (i : Nat) : Field := ⟨0x7A008 + 0x10 * i, 0, 32⟩
def F.SCH_WEIR2_CBS (i : Nat) : Field := ⟨0x7A008 + 0x10 * i, 0, 16⟩
def F.SCH_WEIR2_PBS (i : Nat) : Field := ⟨0x7A008 + 0x10 * i, 16, 16⟩
/-- Register SCH_WSTATE0 (whole word). -/
def F.SCH_WSTATE0 (i : Nat) : Field := ⟨0x7C000 + 8 * i, 0, 32⟩
def F.SCH_WSTATE0_TC (i : Nat) : Field := ⟨0x7C000 + 8 * i, 0, 23⟩
/-- Register SCH_WSTATE1 (whole word). -/
def F.SCH_WSTATE1 (i : Nat) : Field := ⟨0x7C004 + 8 * i, 0, 32⟩
def F.SCH_WSTATE1_TP (i : Nat) : Field := ⟨0x7C004 + 8 * i, 0, 23⟩
/-- Register BUD_CTL (whole word). -/
def F.BUD_CTL : Field := ⟨0x80000, 0, 32⟩
def F.BUD_CTL_FORCE_EN : Field := ⟨0x80000, 0, 1⟩
def F.BUD_CTL_FORCE_LEVEL : Field := ⟨0x80000, 1, 3⟩
def F.BUD_CTL_FLOOR : Field := ⟨0x80000, 4, 3⟩
/-- Register BUD_STATUS (whole word). -/
def F.BUD_STATUS : Field := ⟨0x80004, 0, 32⟩
def F.BUD_STATUS_LEVEL : Field := ⟨0x80004, 0, 3⟩
def F.BUD_STATUS_LVL_UP : Field := ⟨0x80004, 3, 3⟩
def F.BUD_STATUS_LVL_DOWN : Field := ⟨0x80004, 6, 3⟩
def F.BUD_STATUS_LVL_PWR : Field := ⟨0x80004, 9, 3⟩
def F.BUD_STATUS_LVL_DIE : Field := ⟨0x80004, 12, 3⟩
def F.BUD_STATUS_LVL_FET : Field := ⟨0x80004, 15, 3⟩
def F.BUD_STATUS_FALL_CNT : Field := ⟨0x80004, 18, 8⟩
def F.BUD_STATUS_FROZEN : Field := ⟨0x80004, 26, 1⟩
def F.BUD_STATUS_SENSOR_FAIL : Field := ⟨0x80004, 27, 1⟩
/-- Register BUD_CFG (whole word). -/
def F.BUD_CFG : Field := ⟨0x80008, 0, 32⟩
def F.BUD_CFG_FALL_HOLD : Field := ⟨0x80008, 0, 8⟩
def F.BUD_CFG_NOFEED_LEVEL : Field := ⟨0x80008, 8, 3⟩
def F.BUD_CFG_FAIL_LEVEL : Field := ⟨0x80008, 11, 3⟩
def F.BUD_CFG_RAMP_FREEZE_MAX : Field := ⟨0x80008, 14, 5⟩
def F.BUD_CFG_RESTORE_HOLD : Field := ⟨0x80008, 19, 8⟩
/-- Register BUD_FEED_CFG (whole word). -/
def F.BUD_FEED_CFG : Field := ⟨0x8000C, 0, 32⟩
def F.BUD_FEED_CFG_LOCAL_W : Field := ⟨0x8000C, 0, 16⟩
/-- Register BUD_FEED (whole word). -/
def F.BUD_FEED : Field := ⟨0x80010, 0, 32⟩
def F.BUD_FEED_POWER : Field := ⟨0x80010, 0, 20⟩
def F.BUD_FEED_UTIL : Field := ⟨0x80010, 20, 7⟩
/-- Register BUD_DRAW (whole word). -/
def F.BUD_DRAW : Field := ⟨0x80014, 0, 32⟩
def F.BUD_DRAW_POWER : Field := ⟨0x80014, 0, 20⟩
def F.BUD_DRAW_UTIL : Field := ⟨0x80014, 20, 7⟩
/-- Register BUD_DIE (whole word). -/
def F.BUD_DIE : Field := ⟨0x80018, 0, 32⟩
def F.BUD_DIE_S0 : Field := ⟨0x80018, 0, 8⟩
def F.BUD_DIE_S1 : Field := ⟨0x80018, 8, 8⟩
def F.BUD_DIE_S2 : Field := ⟨0x80018, 16, 8⟩
def F.BUD_DIE_S3 : Field := ⟨0x80018, 24, 8⟩
/-- Register BUD_FET (whole word). -/
def F.BUD_FET : Field := ⟨0x8001C, 0, 32⟩
def F.BUD_FET_T_MAX : Field := ⟨0x8001C, 0, 8⟩
def F.BUD_FET_SOURCE : Field := ⟨0x8001C, 8, 3⟩
/-- Register BUD_PWR_THR_A (whole word). -/
def F.BUD_PWR_THR_A : Field := ⟨0x80020, 0, 32⟩
def F.BUD_PWR_THR_A_THR1 : Field := ⟨0x80020, 0, 8⟩
def F.BUD_PWR_THR_A_THR2 : Field := ⟨0x80020, 8, 8⟩
def F.BUD_PWR_THR_A_THR3 : Field := ⟨0x80020, 16, 8⟩
def F.BUD_PWR_THR_A_THR4 : Field := ⟨0x80020, 24, 8⟩
/-- Register BUD_PWR_THR_B (whole word). -/
def F.BUD_PWR_THR_B : Field := ⟨0x80024, 0, 32⟩
def F.BUD_PWR_THR_B_THR5 : Field := ⟨0x80024, 0, 8⟩
def F.BUD_PWR_THR_B_THR6 : Field := ⟨0x80024, 8, 8⟩
def F.BUD_PWR_THR_B_THR7 : Field := ⟨0x80024, 16, 8⟩
def F.BUD_PWR_THR_B_HYST : Field := ⟨0x80024, 24, 8⟩
/-- Register BUD_DIE_THR_A (whole word). -/
def F.BUD_DIE_THR_A : Field := ⟨0x80028, 0, 32⟩
def F.BUD_DIE_THR_A_THR1 : Field := ⟨0x80028, 0, 8⟩
def F.BUD_DIE_THR_A_THR2 : Field := ⟨0x80028, 8, 8⟩
def F.BUD_DIE_THR_A_THR3 : Field := ⟨0x80028, 16, 8⟩
def F.BUD_DIE_THR_A_THR4 : Field := ⟨0x80028, 24, 8⟩
/-- Register BUD_DIE_THR_B (whole word). -/
def F.BUD_DIE_THR_B : Field := ⟨0x8002C, 0, 32⟩
def F.BUD_DIE_THR_B_THR5 : Field := ⟨0x8002C, 0, 8⟩
def F.BUD_DIE_THR_B_THR6 : Field := ⟨0x8002C, 8, 8⟩
def F.BUD_DIE_THR_B_THR7 : Field := ⟨0x8002C, 16, 8⟩
def F.BUD_DIE_THR_B_HYST : Field := ⟨0x8002C, 24, 8⟩
/-- Register BUD_FET_THR_A (whole word). -/
def F.BUD_FET_THR_A : Field := ⟨0x80030, 0, 32⟩
def F.BUD_FET_THR_A_THR1 : Field := ⟨0x80030, 0, 8⟩
def F.BUD_FET_THR_A_THR2 : Field := ⟨0x80030, 8, 8⟩
def F.BUD_FET_THR_A_THR3 : Field := ⟨0x80030, 16, 8⟩
def F.BUD_FET_THR_A_THR4 : Field := ⟨0x80030, 24, 8⟩
/-- Register BUD_FET_THR_B (whole word). -/
def F.BUD_FET_THR_B : Field := ⟨0x80034, 0, 32⟩
def F.BUD_FET_THR_B_THR5 : Field := ⟨0x80034, 0, 8⟩
def F.BUD_FET_THR_B_THR6 : Field := ⟨0x80034, 8, 8⟩
def F.BUD_FET_THR_B_THR7 : Field := ⟨0x80034, 16, 8⟩
def F.BUD_FET_THR_B_HYST : Field := ⟨0x80034, 24, 8⟩
/-- Register BUD_EFFECT (whole word). -/
def F.BUD_EFFECT (i : Nat) : Field := ⟨0x80040 + 4 * i, 0, 32⟩
def F.BUD_EFFECT_STEP_CAP (i : Nat) : Field := ⟨0x80040 + 4 * i, 0, 3⟩
def F.BUD_EFFECT_WS2 (i : Nat) : Field := ⟨0x80040 + 4 * i, 3, 5⟩
def F.BUD_EFFECT_WS3 (i : Nat) : Field := ⟨0x80040 + 4 * i, 8, 5⟩
def F.BUD_EFFECT_CAP3 (i : Nat) : Field := ⟨0x80040 + 4 * i, 13, 7⟩
def F.BUD_EFFECT_VDEC (i : Nat) : Field := ⟨0x80040 + 4 * i, 20, 3⟩
def F.BUD_EFFECT_INRUSH (i : Nat) : Field := ⟨0x80040 + 4 * i, 23, 1⟩
def F.BUD_EFFECT_SHED (i : Nat) : Field := ⟨0x80040 + 4 * i, 24, 4⟩
/-- Register BUD_SHED_STATUS (whole word). -/
def F.BUD_SHED_STATUS : Field := ⟨0x80060, 0, 32⟩
def F.BUD_SHED_STATUS_SHED : Field := ⟨0x80060, 0, 4⟩
/-- Register BUD_SHED (whole word). -/
def F.BUD_SHED (i : Nat) : Field := ⟨0x80064 + 4 * i, 0, 32⟩
def F.BUD_SHED_P_SHED (i : Nat) : Field := ⟨0x80064 + 4 * i, 0, 20⟩
def F.BUD_SHED_LEVEL (i : Nat) : Field := ⟨0x80064 + 4 * i, 20, 3⟩
/-- Register BUD_INT_STATUS (whole word). -/
def F.BUD_INT_STATUS : Field := ⟨0x80078, 0, 32⟩
def F.BUD_INT_STATUS_LEVEL_UP : Field := ⟨0x80078, 0, 1⟩
def F.BUD_INT_STATUS_LEVEL_DOWN : Field := ⟨0x80078, 1, 1⟩
def F.BUD_INT_STATUS_SHED : Field := ⟨0x80078, 2, 1⟩
def F.BUD_INT_STATUS_RESTORE : Field := ⟨0x80078, 3, 1⟩
def F.BUD_INT_STATUS_SENSOR_FAIL : Field := ⟨0x80078, 4, 1⟩
def F.BUD_INT_STATUS_INRUSH_WITHHELD : Field := ⟨0x80078, 5, 1⟩
def F.BUD_INT_STATUS_CAP_CHANGE : Field := ⟨0x80078, 6, 1⟩
/-- Register BUD_INT_EN (whole word). -/
def F.BUD_INT_EN : Field := ⟨0x8007C, 0, 32⟩
def F.BUD_INT_EN_LEVEL_UP : Field := ⟨0x8007C, 0, 1⟩
def F.BUD_INT_EN_LEVEL_DOWN : Field := ⟨0x8007C, 1, 1⟩
def F.BUD_INT_EN_SHED : Field := ⟨0x8007C, 2, 1⟩
def F.BUD_INT_EN_RESTORE : Field := ⟨0x8007C, 3, 1⟩
def F.BUD_INT_EN_SENSOR_FAIL : Field := ⟨0x8007C, 4, 1⟩
def F.BUD_INT_EN_INRUSH_WITHHELD : Field := ⟨0x8007C, 5, 1⟩
def F.BUD_INT_EN_CAP_CHANGE : Field := ⟨0x8007C, 6, 1⟩
/-- Register BUD_TIME (whole word). -/
def F.BUD_TIME (i : Nat) : Field := ⟨0x80080 + 4 * i, 0, 32⟩
/-- Register BUD_INRUSH_WITHHELD (whole word). -/
def F.BUD_INRUSH_WITHHELD : Field := ⟨0x800A0, 0, 32⟩
/-- Register BUD_SHED_COUNT (whole word). -/
def F.BUD_SHED_COUNT : Field := ⟨0x800A4, 0, 32⟩
/-- Register BUD_SENSOR_FAIL (whole word). -/
def F.BUD_SENSOR_FAIL : Field := ⟨0x800A8, 0, 32⟩
/-- Register USB_CTL (whole word). -/
def F.USB_CTL : Field := ⟨0x90000, 0, 32⟩
def F.USB_CTL_EN : Field := ⟨0x90000, 0, 1⟩
def F.USB_CTL_SS_EN : Field := ⟨0x90000, 1, 1⟩
def F.USB_CTL_LPM_EN : Field := ⟨0x90000, 2, 1⟩
def F.USB_CTL_U1U2_EN : Field := ⟨0x90000, 3, 1⟩
def F.USB_CTL_RWAKE_UP : Field := ⟨0x90000, 4, 1⟩
def F.USB_CTL_ISO_DELAY : Field := ⟨0x90000, 5, 8⟩
def F.USB_CTL_OUT_CREDIT : Field := ⟨0x90000, 13, 4⟩
def F.USB_CTL_IN_AHEAD : Field := ⟨0x90000, 17, 4⟩
/-- Register USB_STATUS (whole word). -/
def F.USB_STATUS : Field := ⟨0x90004, 0, 32⟩
def F.USB_STATUS_ROLE : Field := ⟨0x90004, 0, 1⟩
def F.USB_STATUS_U0_VBUS : Field := ⟨0x90004, 1, 1⟩
def F.USB_STATUS_U0_SPEED : Field := ⟨0x90004, 2, 2⟩
def F.USB_STATUS_U0_CONFIGURED : Field := ⟨0x90004, 4, 1⟩
def F.USB_STATUS_U0_LINK : Field := ⟨0x90004, 5, 3⟩
def F.USB_STATUS_MAPPED : Field := ⟨0x90004, 8, 7⟩
def F.USB_STATUS_ATTACHED : Field := ⟨0x90004, 15, 7⟩
/-- Register USB_VHUB_ID (whole word). -/
def F.USB_VHUB_ID : Field := ⟨0x90008, 0, 32⟩
def F.USB_VHUB_ID_VID : Field := ⟨0x90008, 0, 16⟩
def F.USB_VHUB_ID_PID : Field := ⟨0x90008, 16, 16⟩
/-- Register USB_VHUB_CFG (whole word). -/
def F.USB_VHUB_CFG : Field := ⟨0x9000C, 0, 32⟩
def F.USB_VHUB_CFG_L2_MASK : Field := ⟨0x9000C, 0, 15⟩
def F.USB_VHUB_CFG_PWR2GOOD : Field := ⟨0x9000C, 16, 8⟩
/-- Register USB_TIMING (whole word). -/
def F.USB_TIMING : Field := ⟨0x90010, 0, 32⟩
def F.USB_TIMING_RESET_MS : Field := ⟨0x90010, 0, 8⟩
def F.USB_TIMING_RESUME_WIN : Field := ⟨0x90010, 8, 8⟩
def F.USB_TIMING_OC_DEGLITCH : Field := ⟨0x90010, 16, 8⟩
def F.USB_TIMING_RESET_LIMIT : Field := ⟨0x90010, 24, 8⟩
/-- Register USB_INT_STATUS (whole word). -/
def F.USB_INT_STATUS : Field := ⟨0x90014, 0, 32⟩
def F.USB_INT_STATUS_ATTACH : Field := ⟨0x90014, 0, 1⟩
def F.USB_INT_STATUS_DETACH : Field := ⟨0x90014, 1, 1⟩
def F.USB_INT_STATUS_OVERCURRENT : Field := ⟨0x90014, 2, 1⟩
def F.USB_INT_STATUS_DEFER_STALL : Field := ⟨0x90014, 3, 1⟩
def F.USB_INT_STATUS_XERR : Field := ⟨0x90014, 4, 1⟩
def F.USB_INT_STATUS_LATE_DISCARD : Field := ⟨0x90014, 5, 1⟩
def F.USB_INT_STATUS_RESET_TIMEOUT : Field := ⟨0x90014, 6, 1⟩
def F.USB_INT_STATUS_REFUSED : Field := ⟨0x90014, 7, 1⟩
def F.USB_INT_STATUS_MAP_REFUSED : Field := ⟨0x90014, 8, 1⟩
def F.USB_INT_STATUS_TUNNEL_LOST : Field := ⟨0x90014, 9, 1⟩
def F.USB_INT_STATUS_U0_RESET : Field := ⟨0x90014, 10, 1⟩
def F.USB_INT_STATUS_WAKE : Field := ⟨0x90014, 11, 1⟩
/-- Register USB_INT_EN (whole word). -/
def F.USB_INT_EN : Field := ⟨0x90018, 0, 32⟩
def F.USB_INT_EN_ATTACH : Field := ⟨0x90018, 0, 1⟩
def F.USB_INT_EN_DETACH : Field := ⟨0x90018, 1, 1⟩
def F.USB_INT_EN_OVERCURRENT : Field := ⟨0x90018, 2, 1⟩
def F.USB_INT_EN_DEFER_STALL : Field := ⟨0x90018, 3, 1⟩
def F.USB_INT_EN_XERR : Field := ⟨0x90018, 4, 1⟩
def F.USB_INT_EN_LATE_DISCARD : Field := ⟨0x90018, 5, 1⟩
def F.USB_INT_EN_RESET_TIMEOUT : Field := ⟨0x90018, 6, 1⟩
def F.USB_INT_EN_REFUSED : Field := ⟨0x90018, 7, 1⟩
def F.USB_INT_EN_MAP_REFUSED : Field := ⟨0x90018, 8, 1⟩
def F.USB_INT_EN_TUNNEL_LOST : Field := ⟨0x90018, 9, 1⟩
def F.USB_INT_EN_U0_RESET : Field := ⟨0x90018, 10, 1⟩
def F.USB_INT_EN_WAKE : Field := ⟨0x90018, 11, 1⟩
/-- Register USB_U_CTL (whole word). -/
def F.USB_U_CTL (i : Nat) : Field := ⟨0x90020 + 4 * i, 0, 32⟩
def F.USB_U_CTL_PORT_EN (i : Nat) : Field := ⟨0x90020 + 4 * i, 0, 1⟩
def F.USB_U_CTL_SS_EN (i : Nat) : Field := ⟨0x90020 + 4 * i, 1, 1⟩
def F.USB_U_CTL_VBUS_AT_BOOT (i : Nat) : Field := ⟨0x90020 + 4 * i, 2, 1⟩
/-- Register USB_U_STATUS (whole word). -/
def F.USB_U_STATUS (i : Nat) : Field := ⟨0x90028 + 4 * i, 0, 32⟩
def F.USB_U_STATUS_SPEED (i : Nat) : Field := ⟨0x90028 + 4 * i, 0, 3⟩
def F.USB_U_STATUS_CONNECT (i : Nat) : Field := ⟨0x90028 + 4 * i, 3, 1⟩
def F.USB_U_STATUS_ENABLED (i : Nat) : Field := ⟨0x90028 + 4 * i, 4, 1⟩
def F.USB_U_STATUS_VBUS_ON (i : Nat) : Field := ⟨0x90028 + 4 * i, 5, 1⟩
def F.USB_U_STATUS_OC (i : Nat) : Field := ⟨0x90028 + 4 * i, 6, 1⟩
def F.USB_U_STATUS_LINK (i : Nat) : Field := ⟨0x90028 + 4 * i, 7, 3⟩
def F.USB_U_STATUS_PEPOCH (i : Nat) : Field := ⟨0x90028 + 4 * i, 10, 4⟩
def F.USB_U_STATUS_REFUSED (i : Nat) : Field := ⟨0x90028 + 4 * i, 14, 1⟩
def F.USB_U_STATUS_CAUSE (i : Nat) : Field := ⟨0x90028 + 4 * i, 15, 3⟩
/-- Register USB_DEFER_STALL (whole word). -/
def F.USB_DEFER_STALL : Field := ⟨0x90040, 0, 32⟩
/-- Register USB_DEFER_LOST (whole word). -/
def F.USB_DEFER_LOST : Field := ⟨0x90044, 0, 32⟩
/-- Register USB_XERR (whole word). -/
def F.USB_XERR : Field := ⟨0x90048, 0, 32⟩
/-- Register USB_LATE_DISCARD (whole word). -/
def F.USB_LATE_DISCARD : Field := ⟨0x9004C, 0, 32⟩
/-- Register USB_ISO_LATE (whole word). -/
def F.USB_ISO_LATE : Field := ⟨0x90050, 0, 32⟩
/-- Register USB_ISO_UNREAD (whole word). -/
def F.USB_ISO_UNREAD : Field := ⟨0x90054, 0, 32⟩
/-- Register USB_PREFETCH_LOST (whole word). -/
def F.USB_PREFETCH_LOST : Field := ⟨0x90058, 0, 32⟩
/-- Register USB_OC_EVENTS (whole word). -/
def F.USB_OC_EVENTS : Field := ⟨0x9005C, 0, 32⟩
/-- Register USB_MAP0 (whole word). -/
def F.USB_MAP0 (i : Nat) : Field := ⟨0x91000 + 8 * i, 0, 32⟩
def F.USB_MAP0_VALID (i : Nat) : Field := ⟨0x91000 + 8 * i, 0, 1⟩
def F.USB_MAP0_HUB (i : Nat) : Field := ⟨0x91000 + 8 * i, 1, 10⟩
def F.USB_MAP0_PORT (i : Nat) : Field := ⟨0x91000 + 8 * i, 11, 1⟩
def F.USB_MAP0_ASYNC_TUNNEL (i : Nat) : Field := ⟨0x91000 + 8 * i, 12, 12⟩
/-- Register USB_MAP1 (whole word). -/
def F.USB_MAP1 (i : Nat) : Field := ⟨0x91004 + 8 * i, 0, 32⟩
def F.USB_MAP1_ISO_TUNNEL (i : Nat) : Field := ⟨0x91004 + 8 * i, 0, 12⟩
def F.USB_MAP1_ISO_EN (i : Nat) : Field := ⟨0x91004 + 8 * i, 12, 1⟩
/-- Register USB_VP0 (whole word). -/
def F.USB_VP0 (i : Nat) : Field := ⟨0x92000 + 8 * i, 0, 32⟩
def F.USB_VP0_SPEED (i : Nat) : Field := ⟨0x92000 + 8 * i, 0, 3⟩
def F.USB_VP0_CONNECT (i : Nat) : Field := ⟨0x92000 + 8 * i, 3, 1⟩
def F.USB_VP0_ENABLED (i : Nat) : Field := ⟨0x92000 + 8 * i, 4, 1⟩
def F.USB_VP0_POWER (i : Nat) : Field := ⟨0x92000 + 8 * i, 5, 1⟩
def F.USB_VP0_LINK (i : Nat) : Field := ⟨0x92000 + 8 * i, 6, 3⟩
def F.USB_VP0_ADDR (i : Nat) : Field := ⟨0x92000 + 8 * i, 9, 7⟩
def F.USB_VP0_PEPOCH (i : Nat) : Field := ⟨0x92000 + 8 * i, 16, 4⟩
def F.USB_VP0_RESETTING (i : Nat) : Field := ⟨0x92000 + 8 * i, 20, 1⟩
def F.USB_VP0_OC (i : Nat) : Field := ⟨0x92000 + 8 * i, 21, 1⟩
/-- Register USB_VP1 (whole word). -/
def F.USB_VP1 (i : Nat) : Field := ⟨0x92004 + 8 * i, 0, 32⟩
def F.USB_VP1_CHANGE (i : Nat) : Field := ⟨0x92004 + 8 * i, 0, 16⟩
/-- Register WIN_CTL (whole word). -/
def F.WIN_CTL : Field := ⟨0xA0000, 0, 32⟩
def F.WIN_CTL_EN : Field := ⟨0xA0000, 0, 1⟩
def F.WIN_CTL_TGT_REG_EN : Field := ⟨0xA0000, 1, 1⟩
def F.WIN_CTL_TGT_MEM_EN : Field := ⟨0xA0000, 2, 1⟩
def F.WIN_CTL_TGT_CFG_EN : Field := ⟨0xA0000, 3, 1⟩
def F.WIN_CTL_TGT_STAGE_EN : Field := ⟨0xA0000, 4, 1⟩
def F.WIN_CTL_ERR_AS_ONES : Field := ⟨0xA0000, 5, 1⟩
/-- Register WIN_STATUS (whole word). -/
def F.WIN_STATUS : Field := ⟨0xA0004, 0, 32⟩
def F.WIN_STATUS_ROLE : Field := ⟨0xA0004, 0, 1⟩
def F.WIN_STATUS_LINK_UP : Field := ⟨0xA0004, 1, 1⟩
def F.WIN_STATUS_SPEED : Field := ⟨0xA0004, 2, 2⟩
def F.WIN_STATUS_WIDTH : Field := ⟨0xA0004, 4, 2⟩
def F.WIN_STATUS_BME : Field := ⟨0xA0004, 6, 1⟩
def F.WIN_STATUS_PERST : Field := ⟨0xA0004, 7, 1⟩
def F.WIN_STATUS_NP_OUT : Field := ⟨0xA0004, 8, 8⟩
/-- Register WIN_PCI_ID (whole word). -/
def F.WIN_PCI_ID : Field := ⟨0xA0008, 0, 32⟩
def F.WIN_PCI_ID_VID : Field := ⟨0xA0008, 0, 16⟩
def F.WIN_PCI_ID_DID : Field := ⟨0xA0008, 16, 16⟩
/-- Register WIN_PCI_CLASS (whole word). -/
def F.WIN_PCI_CLASS : Field := ⟨0xA000C, 0, 32⟩
def F.WIN_PCI_CLASS_CLASS : Field := ⟨0xA000C, 0, 24⟩
/-- Register WIN_PCI_CFG (whole word). -/
def F.WIN_PCI_CFG : Field := ⟨0xA0010, 0, 32⟩
def F.WIN_PCI_CFG_GEN_MAX : Field := ⟨0xA0010, 0, 2⟩
def F.WIN_PCI_CFG_WIDTH_MAX : Field := ⟨0xA0010, 2, 2⟩
def F.WIN_PCI_CFG_SRIS : Field := ⟨0xA0010, 4, 1⟩
def F.WIN_PCI_CFG_MPS_MAX : Field := ⟨0xA0010, 5, 2⟩
def F.WIN_PCI_CFG_BAR2_LOG2 : Field := ⟨0xA0010, 7, 6⟩
/-- Register WIN_TIMER (whole word). -/
def F.WIN_TIMER : Field := ⟨0xA0014, 0, 32⟩
def F.WIN_TIMER_CPL_TIMEOUT : Field := ⟨0xA0014, 0, 8⟩
def F.WIN_TIMER_TGT_TIMEOUT : Field := ⟨0xA0014, 8, 8⟩
def F.WIN_TIMER_MAX_NP : Field := ⟨0xA0014, 16, 8⟩
/-- Register WIN_LOCK_CFG (whole word). -/
def F.WIN_LOCK_CFG : Field := ⟨0xA0018, 0, 32⟩
def F.WIN_LOCK_CFG_RETRY_MAX : Field := ⟨0xA0018, 0, 4⟩
/-- Register WIN_LOCK_CTL (whole word). -/
def F.WIN_LOCK_CTL : Field := ⟨0xA0020, 0, 32⟩
def F.WIN_LOCK_CTL_HUB : Field := ⟨0xA0020, 0, 10⟩
def F.WIN_LOCK_CTL_SPACE : Field := ⟨0xA0020, 10, 2⟩
def F.WIN_LOCK_CTL_REQ : Field := ⟨0xA0020, 12, 1⟩
def F.WIN_LOCK_CTL_RELEASE : Field := ⟨0xA0020, 13, 1⟩
def F.WIN_LOCK_CTL_RELEASE_ALL : Field := ⟨0xA0020, 14, 1⟩
/-- Register WIN_LOCK_STATUS (whole word). -/
def F.WIN_LOCK_STATUS : Field := ⟨0xA0024, 0, 32⟩
def F.WIN_LOCK_STATUS_RESULT : Field := ⟨0xA0024, 0, 3⟩
def F.WIN_LOCK_STATUS_R_HUB : Field := ⟨0xA0024, 3, 10⟩
def F.WIN_LOCK_STATUS_R_SPACE : Field := ⟨0xA0024, 13, 1⟩
def F.WIN_LOCK_STATUS_R_HELD : Field := ⟨0xA0024, 14, 1⟩
def F.WIN_LOCK_STATUS_L_SPACE : Field := ⟨0xA0024, 15, 1⟩
def F.WIN_LOCK_STATUS_L_HELD : Field := ⟨0xA0024, 16, 1⟩
def F.WIN_LOCK_STATUS_RETRIES : Field := ⟨0xA0024, 17, 4⟩
/-- Register WIN_LOCK_HELD (whole word). -/
def F.WIN_LOCK_HELD : Field := ⟨0xA0028, 0, 32⟩
def F.WIN_LOCK_HELD_REG_HOLDER : Field := ⟨0xA0028, 0, 10⟩
def F.WIN_LOCK_HELD_REG_LOCKED : Field := ⟨0xA0028, 10, 1⟩
def F.WIN_LOCK_HELD_MEM_HOLDER : Field := ⟨0xA0028, 11, 10⟩
def F.WIN_LOCK_HELD_MEM_LOCKED : Field := ⟨0xA0028, 21, 1⟩
/-- Register WIN_INT_STATUS (whole word). -/
def F.WIN_INT_STATUS : Field := ⟨0xA0030, 0, 32⟩
def F.WIN_INT_STATUS_LOST_READ : Field := ⟨0xA0030, 0, 1⟩
def F.WIN_INT_STATUS_PWERR : Field := ⟨0xA0030, 1, 1⟩
def F.WIN_INT_STATUS_LOG_OVF : Field := ⟨0xA0030, 2, 1⟩
def F.WIN_INT_STATUS_LOCK_BROKEN : Field := ⟨0xA0030, 3, 1⟩
def F.WIN_INT_STATUS_LOCK_BREAK : Field := ⟨0xA0030, 4, 1⟩
def F.WIN_INT_STATUS_RANGE_FAILED : Field := ⟨0xA0030, 5, 1⟩
def F.WIN_INT_STATUS_IB_UR : Field := ⟨0xA0030, 6, 1⟩
def F.WIN_INT_STATUS_DEV_MSI : Field := ⟨0xA0030, 7, 1⟩
def F.WIN_INT_STATUS_LINK_DOWN : Field := ⟨0xA0030, 8, 1⟩
/-- Register WIN_INT_EN (whole word). -/
def F.WIN_INT_EN : Field := ⟨0xA0034, 0, 32⟩
def F.WIN_INT_EN_LOST_READ : Field := ⟨0xA0034, 0, 1⟩
def F.WIN_INT_EN_PWERR : Field := ⟨0xA0034, 1, 1⟩
def F.WIN_INT_EN_LOG_OVF : Field := ⟨0xA0034, 2, 1⟩
def F.WIN_INT_EN_LOCK_BROKEN : Field := ⟨0xA0034, 3, 1⟩
def F.WIN_INT_EN_LOCK_BREAK : Field := ⟨0xA0034, 4, 1⟩
def F.WIN_INT_EN_RANGE_FAILED : Field := ⟨0xA0034, 5, 1⟩
def F.WIN_INT_EN_IB_UR : Field := ⟨0xA0034, 6, 1⟩
def F.WIN_INT_EN_DEV_MSI : Field := ⟨0xA0034, 7, 1⟩
def F.WIN_INT_EN_LINK_DOWN : Field := ⟨0xA0034, 8, 1⟩
/-- Register WIN_HOSTMEM_LO (whole word). -/
def F.WIN_HOSTMEM_LO : Field := ⟨0xA0038, 0, 32⟩
def F.WIN_HOSTMEM_LO_BASE_LO : Field := ⟨0xA0038, 12, 20⟩
/-- Register WIN_HOSTMEM_HI (whole word). -/
def F.WIN_HOSTMEM_HI : Field := ⟨0xA003C, 0, 32⟩
def F.WIN_HOSTMEM_HI_BASE_HI : Field := ⟨0xA003C, 0, 16⟩
/-- Register WIN_HOSTMEM_CFG (whole word). -/
def F.WIN_HOSTMEM_CFG : Field := ⟨0xA0040, 0, 32⟩
def F.WIN_HOSTMEM_CFG_SIZE_LOG2 : Field := ⟨0xA0040, 0, 6⟩
def F.WIN_HOSTMEM_CFG_EN : Field := ⟨0xA0040, 6, 1⟩
/-- Register WIN_RP_CTL (whole word). -/
def F.WIN_RP_CTL : Field := ⟨0xA0044, 0, 32⟩
def F.WIN_RP_CTL_PERST : Field := ⟨0xA0044, 0, 1⟩
def F.WIN_RP_CTL_LINK_EN : Field := ⟨0xA0044, 1, 1⟩
def F.WIN_RP_CTL_RETRAIN : Field := ⟨0xA0044, 2, 1⟩
/-- Register WIN_DEV_MSI (whole word). -/
def F.WIN_DEV_MSI : Field := ⟨0xA0048, 0, 32⟩
/-- Register WIN_STAGE_RING (whole word). -/
def F.WIN_STAGE_RING : Field := ⟨0xA004C, 0, 32⟩
def F.WIN_STAGE_RING_START : Field := ⟨0xA004C, 0, 17⟩
def F.WIN_STAGE_RING_SIZE : Field := ⟨0xA004C, 17, 14⟩
/-- Register WIN_STAGE_WR (whole word). -/
def F.WIN_STAGE_WR : Field := ⟨0xA0058, 0, 32⟩
def F.WIN_STAGE_WR_PTR : Field := ⟨0xA0058, 0, 17⟩
/-- Register WIN_STAGE_RD (whole word). -/
def F.WIN_STAGE_RD : Field := ⟨0xA005C, 0, 32⟩
def F.WIN_STAGE_RD_PTR : Field := ⟨0xA005C, 0, 17⟩
/-- Register WIN_RD_ISSUED (whole word). -/
def F.WIN_RD_ISSUED : Field := ⟨0xA0060, 0, 32⟩
/-- Register WIN_WR_ISSUED (whole word). -/
def F.WIN_WR_ISSUED : Field := ⟨0xA0064, 0, 32⟩
/-- Register WIN_RD_ERR (whole word). -/
def F.WIN_RD_ERR : Field := ⟨0xA0068, 0, 32⟩
/-- Register WIN_CPL_TIMEOUT (whole word). -/
def F.WIN_CPL_TIMEOUT : Field := ⟨0xA006C, 0, 32⟩
/-- Register WIN_UR_LOCAL (whole word). -/
def F.WIN_UR_LOCAL : Field := ⟨0xA0070, 0, 32⟩
/-- Register WIN_PF_HIT (whole word). -/
def F.WIN_PF_HIT : Field := ⟨0xA0074, 0, 32⟩
/-- Register WIN_PF_DISCARD (whole word). -/
def F.WIN_PF_DISCARD : Field := ⟨0xA0078, 0, 32⟩
/-- Register WIN_RD_DISCARD (whole word). -/
def F.WIN_RD_DISCARD : Field := ⟨0xA007C, 0, 32⟩
/-- Register WIN_RETRY_OK (whole word). -/
def F.WIN_RETRY_OK : Field := ⟨0xA0080, 0, 32⟩
/-- Register WIN_PERM_ERR (whole word). -/
def F.WIN_PERM_ERR : Field := ⟨0xA0084, 0, 32⟩
/-- Register WIN_LOCK_RETRY (whole word). -/
def F.WIN_LOCK_RETRY : Field := ⟨0xA0088, 0, 32⟩
/-- Register WIN_LOCK_BREAKS (whole word). -/
def F.WIN_LOCK_BREAKS : Field := ⟨0xA008C, 0, 32⟩
/-- Register WIN_LOG_OVF (whole word). -/
def F.WIN_LOG_OVF : Field := ⟨0xA0090, 0, 32⟩
/-- Register WIN_MSG_ERR (whole word). -/
def F.WIN_MSG_ERR : Field := ⟨0xA0094, 0, 32⟩
/-- Register WIN_STAGE_DROP (whole word). -/
def F.WIN_STAGE_DROP : Field := ⟨0xA0098, 0, 32⟩
/-- Register WIN_LOCK_BREAK (whole word). -/
def F.WIN_LOCK_BREAK : Field := ⟨0xA00A0, 0, 32⟩
def F.WIN_LOCK_BREAK_HOLDER : Field := ⟨0xA00A0, 0, 10⟩
def F.WIN_LOCK_BREAK_SPACE : Field := ⟨0xA00A0, 10, 1⟩
/-- Register WIN_LOCK_BREAK_FRAME (whole word). -/
def F.WIN_LOCK_BREAK_FRAME : Field := ⟨0xA00A4, 0, 32⟩
/-- Register WIN_BARWIN (whole word). -/
def F.WIN_BARWIN (i : Nat) : Field := ⟨0xA0100 + 4 * i, 0, 32⟩
def F.WIN_BARWIN_RANGE (i : Nat) : Field := ⟨0xA0100 + 4 * i, 0, 4⟩
def F.WIN_BARWIN_EN (i : Nat) : Field := ⟨0xA0100 + 4 * i, 4, 1⟩
/-- Register WIN_IB0 (whole word). -/
def F.WIN_IB0 (i : Nat) : Field := ⟨0xA0140 + 0x10 * i, 0, 32⟩
def F.WIN_IB0_BASE_LO (i : Nat) : Field := ⟨0xA0140 + 0x10 * i, 12, 20⟩
/-- Register WIN_IB1 (whole word). -/
def F.WIN_IB1 (i : Nat) : Field := ⟨0xA0144 + 0x10 * i, 0, 32⟩
/-- Register WIN_IB2 (whole word). -/
def F.WIN_IB2 (i : Nat) : Field := ⟨0xA0148 + 0x10 * i, 0, 32⟩
def F.WIN_IB2_SIZE_LOG2 (i : Nat) : Field := ⟨0xA0148 + 0x10 * i, 0, 6⟩
def F.WIN_IB2_RANGE (i : Nat) : Field := ⟨0xA0148 + 0x10 * i, 6, 4⟩
def F.WIN_IB2_EN (i : Nat) : Field := ⟨0xA0148 + 0x10 * i, 10, 1⟩
/-- Register WIN_RNG0 (whole word). -/
def F.WIN_RNG0 (i : Nat) : Field := ⟨0xA0200 + 0x10 * i, 0, 32⟩
def F.WIN_RNG0_VALID (i : Nat) : Field := ⟨0xA0200 + 0x10 * i, 0, 1⟩
def F.WIN_RNG0_POSTED (i : Nat) : Field := ⟨0xA0200 + 0x10 * i, 1, 1⟩
def F.WIN_RNG0_PREFETCH (i : Nat) : Field := ⟨0xA0200 + 0x10 * i, 2, 1⟩
def F.WIN_RNG0_SIDE_EFFECT (i : Nat) : Field := ⟨0xA0200 + 0x10 * i, 3, 1⟩
def F.WIN_RNG0_LOCK_CAP (i : Nat) : Field := ⟨0xA0200 + 0x10 * i, 4, 1⟩
def F.WIN_RNG0_FAILED (i : Nat) : Field := ⟨0xA0200 + 0x10 * i, 5, 1⟩
def F.WIN_RNG0_AGEN (i : Nat) : Field := ⟨0xA0200 + 0x10 * i, 6, 4⟩
def F.WIN_RNG0_TUNNEL (i : Nat) : Field := ⟨0xA0200 + 0x10 * i, 10, 12⟩
/-- Register WIN_RNG1 (whole word). -/
def F.WIN_RNG1 (i : Nat) : Field := ⟨0xA0204 + 0x10 * i, 0, 32⟩
/-- Register WIN_RNG2 (whole word). -/
def F.WIN_RNG2 (i : Nat) : Field := ⟨0xA0208 + 0x10 * i, 0, 32⟩
/-- Register WIN_RNG3 (whole word). -/
def F.WIN_RNG3 (i : Nat) : Field := ⟨0xA020C + 0x10 * i, 0, 32⟩
def F.WIN_RNG3_SIZE_LOG2 (i : Nat) : Field := ⟨0xA020C + 0x10 * i, 0, 6⟩
/-- Register WIN_LRL_ADDR_LO (whole word). -/
def F.WIN_LRL_ADDR_LO (i : Nat) : Field := ⟨0xA0400 + 0x20 * i, 0, 32⟩
/-- Register WIN_LRL_ADDR_HI (whole word). -/
def F.WIN_LRL_ADDR_HI (i : Nat) : Field := ⟨0xA0404 + 0x20 * i, 0, 32⟩
/-- Register WIN_LRL_DATA_LO (whole word). -/
def F.WIN_LRL_DATA_LO (i : Nat) : Field := ⟨0xA0408 + 0x20 * i, 0, 32⟩
/-- Register WIN_LRL_DATA_HI (whole word). -/
def F.WIN_LRL_DATA_HI (i : Nat) : Field := ⟨0xA040C + 0x20 * i, 0, 32⟩
/-- Register WIN_LRL_FRAME (whole word). -/
def F.WIN_LRL_FRAME (i : Nat) : Field := ⟨0xA0410 + 0x20 * i, 0, 32⟩
/-- Register WIN_LRL5 (whole word). -/
def F.WIN_LRL5 (i : Nat) : Field := ⟨0xA0414 + 0x20 * i, 0, 32⟩
def F.WIN_LRL5_SUBNS (i : Nat) : Field := ⟨0xA0414 + 0x20 * i, 0, 20⟩
def F.WIN_LRL5_CAUSE (i : Nat) : Field := ⟨0xA0414 + 0x20 * i, 20, 2⟩
def F.WIN_LRL5_DATA_VALID (i : Nat) : Field := ⟨0xA0414 + 0x20 * i, 22, 1⟩
def F.WIN_LRL5_VALID (i : Nat) : Field := ⟨0xA0414 + 0x20 * i, 23, 1⟩
/-- Register WIN_LRL6 (whole word). -/
def F.WIN_LRL6 (i : Nat) : Field := ⟨0xA0418 + 0x20 * i, 0, 32⟩
def F.WIN_LRL6_REQ_ID (i : Nat) : Field := ⟨0xA0418 + 0x20 * i, 0, 16⟩
def F.WIN_LRL6_REQ_KIND (i : Nat) : Field := ⟨0xA0418 + 0x20 * i, 16, 1⟩
def F.WIN_LRL6_LENGTH (i : Nat) : Field := ⟨0xA0418 + 0x20 * i, 17, 10⟩
/-- Register WIN_PWL_ADDR_LO (whole word). -/
def F.WIN_PWL_ADDR_LO (i : Nat) : Field := ⟨0xA0600 + 0x10 * i, 0, 32⟩
/-- Register WIN_PWL_ADDR_HI (whole word). -/
def F.WIN_PWL_ADDR_HI (i : Nat) : Field := ⟨0xA0604 + 0x10 * i, 0, 32⟩
/-- Register WIN_PWL_FRAME (whole word). -/
def F.WIN_PWL_FRAME (i : Nat) : Field := ⟨0xA0608 + 0x10 * i, 0, 32⟩
/-- Register WIN_PWL3 (whole word). -/
def F.WIN_PWL3 (i : Nat) : Field := ⟨0xA060C + 0x10 * i, 0, 32⟩
def F.WIN_PWL3_SUBNS (i : Nat) : Field := ⟨0xA060C + 0x10 * i, 0, 20⟩
def F.WIN_PWL3_STATUS (i : Nat) : Field := ⟨0xA060C + 0x10 * i, 20, 4⟩
def F.WIN_PWL3_NP (i : Nat) : Field := ⟨0xA060C + 0x10 * i, 24, 1⟩
def F.WIN_PWL3_REQ_KIND (i : Nat) : Field := ⟨0xA060C + 0x10 * i, 25, 1⟩
def F.WIN_PWL3_VALID (i : Nat) : Field := ⟨0xA060C + 0x10 * i, 26, 1⟩
/-- Register WIN_DMA0 (whole word). -/
def F.WIN_DMA0 (i : Nat) : Field := ⟨0xA0800 + 0x20 * i, 0, 32⟩
def F.WIN_DMA0_BASE_LO (i : Nat) : Field := ⟨0xA0800 + 0x20 * i, 4, 28⟩
/-- Register WIN_DMA1 (whole word). -/
def F.WIN_DMA1 (i : Nat) : Field := ⟨0xA0804 + 0x20 * i, 0, 32⟩
/-- Register WIN_DMA2 (whole word). -/
def F.WIN_DMA2 (i : Nat) : Field := ⟨0xA0808 + 0x20 * i, 0, 32⟩
def F.WIN_DMA2_EN (i : Nat) : Field := ⟨0xA0808 + 0x20 * i, 0, 1⟩
def F.WIN_DMA2_DIR (i : Nat) : Field := ⟨0xA0808 + 0x20 * i, 1, 1⟩
def F.WIN_DMA2_SIZE_LOG2 (i : Nat) : Field := ⟨0xA0808 + 0x20 * i, 2, 5⟩
def F.WIN_DMA2_MOD_COUNT (i : Nat) : Field := ⟨0xA0808 + 0x20 * i, 8, 8⟩
def F.WIN_DMA2_MOD_US (i : Nat) : Field := ⟨0xA0808 + 0x20 * i, 16, 16⟩
/-- Register WIN_DMA3 (whole word). -/
def F.WIN_DMA3 (i : Nat) : Field := ⟨0xA080C + 0x20 * i, 0, 32⟩
def F.WIN_DMA3_HEAD (i : Nat) : Field := ⟨0xA080C + 0x20 * i, 0, 16⟩
/-- Register WIN_DMA4 (whole word). -/
def F.WIN_DMA4 (i : Nat) : Field := ⟨0xA0810 + 0x20 * i, 0, 32⟩
def F.WIN_DMA4_TAIL (i : Nat) : Field := ⟨0xA0810 + 0x20 * i, 0, 16⟩
/-- Register WIN_DMA5 (whole word). -/
def F.WIN_DMA5 (i : Nat) : Field := ⟨0xA0814 + 0x20 * i, 0, 32⟩
/-- Register WIN_DMA6 (whole word). -/
def F.WIN_DMA6 (i : Nat) : Field := ⟨0xA0818 + 0x20 * i, 0, 32⟩
def F.WIN_DMA6_EMPTY (i : Nat) : Field := ⟨0xA0818 + 0x20 * i, 0, 1⟩
def F.WIN_DMA6_ERR (i : Nat) : Field := ⟨0xA0818 + 0x20 * i, 1, 1⟩
def F.WIN_DMA6_HELD (i : Nat) : Field := ⟨0xA0818 + 0x20 * i, 2, 1⟩
/-- Register VID_CTL (whole word). -/
def F.VID_CTL : Field := ⟨0xB0000, 0, 32⟩
def F.VID_CTL_CSI_EN : Field := ⟨0xB0000, 0, 1⟩
def F.VID_CTL_DSI_EN : Field := ⟨0xB0000, 1, 1⟩
/-- Register VID_STATUS (whole word). -/
def F.VID_STATUS : Field := ⟨0xB0004, 0, 32⟩
def F.VID_STATUS_CSI_CLK : Field := ⟨0xB0004, 0, 1⟩
def F.VID_STATUS_DSI_RUN : Field := ⟨0xB0004, 1, 1⟩
def F.VID_STATUS_DSI_LOCKED : Field := ⟨0xB0004, 2, 1⟩
/-- Register VID_CSI_CFG (whole word). -/
def F.VID_CSI_CFG : Field := ⟨0xB0008, 0, 32⟩
def F.VID_CSI_CFG_LANES : Field := ⟨0xB0008, 0, 2⟩
def F.VID_CSI_CFG_RATE : Field := ⟨0xB0008, 2, 8⟩
def F.VID_CSI_CFG_LOSS_MS : Field := ⟨0xB0008, 10, 8⟩
/-- Register VID_CSI_S (whole word). -/
def F.VID_CSI_S (i : Nat) : Field := ⟨0xB0010 + 8 * i, 0, 32⟩
def F.VID_CSI_S_EN (i : Nat) : Field := ⟨0xB0010 + 8 * i, 0, 1⟩
def F.VID_CSI_S_VC (i : Nat) : Field := ⟨0xB0010 + 8 * i, 1, 2⟩
def F.VID_CSI_S_DT (i : Nat) : Field := ⟨0xB0010 + 8 * i, 3, 6⟩
def F.VID_CSI_S_TUNNEL (i : Nat) : Field := ⟨0xB0010 + 8 * i, 9, 12⟩
def F.VID_CSI_S_DEC_EN (i : Nat) : Field := ⟨0xB0010 + 8 * i, 21, 1⟩
/-- Register VID_CSI_S_SEG (whole word). -/
def F.VID_CSI_S_SEG (i : Nat) : Field := ⟨0xB0014 + 8 * i, 0, 32⟩
def F.VID_CSI_S_SEG_SEG_MAX (i : Nat) : Field := ⟨0xB0014 + 8 * i, 0, 13⟩
/-- Register VID_CSI_S_STATUS (whole word). -/
def F.VID_CSI_S_STATUS (i : Nat) : Field := ⟨0xB0030 + 4 * i, 0, 32⟩
def F.VID_CSI_S_STATUS_FCNT (i : Nat) : Field := ⟨0xB0030 + 4 * i, 0, 16⟩
def F.VID_CSI_S_STATUS_OPEN (i : Nat) : Field := ⟨0xB0030 + 4 * i, 16, 1⟩
def F.VID_CSI_S_STATUS_LOST (i : Nat) : Field := ⟨0xB0030 + 4 * i, 17, 1⟩
/-- Register VID_DSI_CFG (whole word). -/
def F.VID_DSI_CFG : Field := ⟨0xB0040, 0, 32⟩
def F.VID_DSI_CFG_LANES : Field := ⟨0xB0040, 0, 2⟩
def F.VID_DSI_CFG_RATE : Field := ⟨0xB0040, 2, 8⟩
def F.VID_DSI_CFG_FORMAT : Field := ⟨0xB0040, 10, 2⟩
def F.VID_DSI_CFG_SYNC : Field := ⟨0xB0040, 12, 2⟩
def F.VID_DSI_CFG_EOTP : Field := ⟨0xB0040, 14, 1⟩
def F.VID_DSI_CFG_LOCK_EN : Field := ⟨0xB0040, 15, 1⟩
/-- Register VID_DSI_H0 (whole word). -/
def F.VID_DSI_H0 : Field := ⟨0xB0044, 0, 32⟩
def F.VID_DSI_H0_HACT : Field := ⟨0xB0044, 0, 16⟩
def F.VID_DSI_H0_HTOTAL : Field := ⟨0xB0044, 16, 16⟩
/-- Register VID_DSI_H1 (whole word). -/
def F.VID_DSI_H1 : Field := ⟨0xB0048, 0, 32⟩
def F.VID_DSI_H1_HSA : Field := ⟨0xB0048, 0, 16⟩
def F.VID_DSI_H1_HBP : Field := ⟨0xB0048, 16, 16⟩
/-- Register VID_DSI_V0 (whole word). -/
def F.VID_DSI_V0 : Field := ⟨0xB004C, 0, 32⟩
def F.VID_DSI_V0_VACT : Field := ⟨0xB004C, 0, 16⟩
def F.VID_DSI_V0_VTOTAL : Field := ⟨0xB004C, 16, 16⟩
/-- Register VID_DSI_V1 (whole word). -/
def F.VID_DSI_V1 : Field := ⟨0xB0050, 0, 32⟩
def F.VID_DSI_V1_VSA : Field := ⟨0xB0050, 0, 16⟩
def F.VID_DSI_V1_VBP : Field := ⟨0xB0050, 16, 16⟩
/-- Register VID_DSI_RATE (whole word). -/
def F.VID_DSI_RATE : Field := ⟨0xB0054, 0, 32⟩
def F.VID_DSI_RATE_NUM : Field := ⟨0xB0054, 0, 8⟩
def F.VID_DSI_RATE_DEN : Field := ⟨0xB0054, 8, 16⟩
/-- Register VID_DSI_FILL (whole word). -/
def F.VID_DSI_FILL : Field := ⟨0xB0058, 0, 32⟩
def F.VID_DSI_FILL_RGB : Field := ⟨0xB0058, 0, 24⟩
/-- Register VID_DSI_CMD (whole word). -/
def F.VID_DSI_CMD : Field := ⟨0xB005C, 0, 32⟩
def F.VID_DSI_CMD_DT : Field := ⟨0xB005C, 0, 6⟩
def F.VID_DSI_CMD_VC : Field := ⟨0xB005C, 6, 2⟩
def F.VID_DSI_CMD_LEN : Field := ⟨0xB005C, 8, 7⟩
def F.VID_DSI_CMD_SEND : Field := ⟨0xB005C, 16, 1⟩
def F.VID_DSI_CMD_BUSY : Field := ⟨0xB005C, 17, 1⟩
/-- Register VID_DSI_STATUS (whole word). -/
def F.VID_DSI_STATUS : Field := ⟨0xB0060, 0, 32⟩
def F.VID_DSI_STATUS_SRC_FCNT : Field := ⟨0xB0060, 0, 16⟩
def F.VID_DSI_STATUS_SHOWING : Field := ⟨0xB0060, 16, 1⟩
/-- Register VID_INT_STATUS (whole word). -/
def F.VID_INT_STATUS : Field := ⟨0xB0070, 0, 32⟩
def F.VID_INT_STATUS_CSI_LOSS : Field := ⟨0xB0070, 0, 1⟩
def F.VID_INT_STATUS_CSI_RESUME : Field := ⟨0xB0070, 1, 1⟩
def F.VID_INT_STATUS_CSI_OVF : Field := ⟨0xB0070, 2, 1⟩
def F.VID_INT_STATUS_DSI_UNDERRUN : Field := ⟨0xB0070, 3, 1⟩
def F.VID_INT_STATUS_DSI_SLIP : Field := ⟨0xB0070, 4, 1⟩
def F.VID_INT_STATUS_CMD_DONE : Field := ⟨0xB0070, 5, 1⟩
/-- Register VID_INT_EN (whole word). -/
def F.VID_INT_EN : Field := ⟨0xB0074, 0, 32⟩
def F.VID_INT_EN_CSI_LOSS : Field := ⟨0xB0074, 0, 1⟩
def F.VID_INT_EN_CSI_RESUME : Field := ⟨0xB0074, 1, 1⟩
def F.VID_INT_EN_CSI_OVF : Field := ⟨0xB0074, 2, 1⟩
def F.VID_INT_EN_DSI_UNDERRUN : Field := ⟨0xB0074, 3, 1⟩
def F.VID_INT_EN_DSI_SLIP : Field := ⟨0xB0074, 4, 1⟩
def F.VID_INT_EN_CMD_DONE : Field := ⟨0xB0074, 5, 1⟩
/-- Register VID_DSI_CMD_BUF (whole word). -/
def F.VID_DSI_CMD_BUF (i : Nat) : Field := ⟨0xB0080 + 4 * i, 0, 32⟩
/-- Register VID_CSI_FRAMES (whole word). -/
def F.VID_CSI_FRAMES : Field := ⟨0xB00C0, 0, 32⟩
/-- Register VID_CSI_DECIMATED (whole word). -/
def F.VID_CSI_DECIMATED : Field := ⟨0xB00C4, 0, 32⟩
/-- Register VID_CSI_ECC_CORR (whole word). -/
def F.VID_CSI_ECC_CORR : Field := ⟨0xB00C8, 0, 32⟩
/-- Register VID_CSI_HDR_ERR (whole word). -/
def F.VID_CSI_HDR_ERR : Field := ⟨0xB00CC, 0, 32⟩
/-- Register VID_CSI_CRC_ERR (whole word). -/
def F.VID_CSI_CRC_ERR : Field := ⟨0xB00D0, 0, 32⟩
/-- Register VID_CSI_LEN_ERR (whole word). -/
def F.VID_CSI_LEN_ERR : Field := ⟨0xB00D4, 0, 32⟩
/-- Register VID_CSI_OVF (whole word). -/
def F.VID_CSI_OVF : Field := ⟨0xB00D8, 0, 32⟩
/-- Register VID_DSI_FRAMES (whole word). -/
def F.VID_DSI_FRAMES : Field := ⟨0xB00DC, 0, 32⟩
/-- Register VID_DSI_BLANK (whole word). -/
def F.VID_DSI_BLANK : Field := ⟨0xB00E0, 0, 32⟩
/-- Register VID_DSI_LINE_FILL (whole word). -/
def F.VID_DSI_LINE_FILL : Field := ⟨0xB00E4, 0, 32⟩
/-- Register VID_DSI_LATE (whole word). -/
def F.VID_DSI_LATE : Field := ⟨0xB00E8, 0, 32⟩
/-- Register VID_DSI_SLIP (whole word). -/
def F.VID_DSI_SLIP : Field := ⟨0xB00EC, 0, 32⟩
/-- Register VID_RX_DISCARD (whole word). -/
def F.VID_RX_DISCARD : Field := ⟨0xB00F0, 0, 32⟩
/-- Register VID_CMARK (whole word). -/
def F.VID_CMARK : Field := ⟨0xB00F4, 0, 32⟩
/-- Register ETH_CTL (whole word). -/
def F.ETH_CTL : Field := ⟨0xC0000, 0, 32⟩
def F.ETH_CTL_EN : Field := ⟨0xC0000, 0, 1⟩
def F.ETH_CTL_PORT_EN : Field := ⟨0xC0000, 1, 3⟩
def F.ETH_CTL_SG_MODE : Field := ⟨0xC0000, 4, 1⟩
def F.ETH_CTL_AN_EN : Field := ⟨0xC0000, 5, 1⟩
def F.ETH_CTL_PAUSE_RX : Field := ⟨0xC0000, 6, 1⟩
def F.ETH_CTL_LEARN_EN : Field := ⟨0xC0000, 7, 1⟩
def F.ETH_CTL_MAX_FRAME : Field := ⟨0xC0000, 8, 14⟩
/-- Register ETH_STATUS (whole word). -/
def F.ETH_STATUS : Field := ⟨0xC0004, 0, 32⟩
def F.ETH_STATUS_E0_LINK : Field := ⟨0xC0004, 0, 1⟩
def F.ETH_STATUS_E0_SPEED : Field := ⟨0xC0004, 1, 2⟩
def F.ETH_STATUS_LEARNED : Field := ⟨0xC0004, 3, 11⟩
/-- Register ETH_LEARN_CFG (whole word). -/
def F.ETH_LEARN_CFG : Field := ⟨0xC0008, 0, 32⟩
def F.ETH_LEARN_CFG_AGE : Field := ⟨0xC0008, 0, 16⟩
/-- Register ETH_MDIO_CMD (whole word). -/
def F.ETH_MDIO_CMD : Field := ⟨0xC000C, 0, 32⟩
def F.ETH_MDIO_CMD_PHYAD : Field := ⟨0xC000C, 0, 5⟩
def F.ETH_MDIO_CMD_REGAD : Field := ⟨0xC000C, 5, 5⟩
def F.ETH_MDIO_CMD_OP : Field := ⟨0xC000C, 10, 3⟩
def F.ETH_MDIO_CMD_GO : Field := ⟨0xC000C, 13, 1⟩
def F.ETH_MDIO_CMD_BUSY : Field := ⟨0xC000C, 14, 1⟩
/-- Register ETH_MDIO_DATA (whole word). -/
def F.ETH_MDIO_DATA : Field := ⟨0xC0010, 0, 32⟩
def F.ETH_MDIO_DATA_DATA : Field := ⟨0xC0010, 0, 16⟩
/-- Register ETH_T1S_CFG (whole word). -/
def F.ETH_T1S_CFG (i : Nat) : Field := ⟨0xC0020 + 8 * i, 0, 32⟩
def F.ETH_T1S_CFG_PLCA_EN (i : Nat) : Field := ⟨0xC0020 + 8 * i, 0, 1⟩
def F.ETH_T1S_CFG_NODE_ID (i : Nat) : Field := ⟨0xC0020 + 8 * i, 1, 8⟩
def F.ETH_T1S_CFG_NODE_CNT (i : Nat) : Field := ⟨0xC0020 + 8 * i, 9, 8⟩
def F.ETH_T1S_CFG_TO_TIMER (i : Nat) : Field := ⟨0xC0020 + 8 * i, 17, 8⟩
/-- Register ETH_T1S_CFG2 (whole word). -/
def F.ETH_T1S_CFG2 (i : Nat) : Field := ⟨0xC0024 + 8 * i, 0, 32⟩
def F.ETH_T1S_CFG2_MAX_BC (i : Nat) : Field := ⟨0xC0024 + 8 * i, 0, 8⟩
def F.ETH_T1S_CFG2_BURST_TMR (i : Nat) : Field := ⟨0xC0024 + 8 * i, 8, 8⟩
/-- Register ETH_T1S_STATUS (whole word). -/
def F.ETH_T1S_STATUS (i : Nat) : Field := ⟨0xC0030 + 4 * i, 0, 32⟩
def F.ETH_T1S_STATUS_PLCA_OK (i : Nat) : Field := ⟨0xC0030 + 4 * i, 0, 1⟩
/-- Register ETH_E_CFG (whole word). -/
def F.ETH_E_CFG (i : Nat) : Field := ⟨0xC0040 + 4 * i, 0, 32⟩
def F.ETH_E_CFG_PVID (i : Nat) : Field := ⟨0xC0040 + 4 * i, 0, 12⟩
def F.ETH_E_CFG_PCP (i : Nat) : Field := ⟨0xC0040 + 4 * i, 12, 3⟩
def F.ETH_E_CFG_ACCEPT_UNTAGGED (i : Nat) : Field := ⟨0xC0040 + 4 * i, 15, 1⟩
def F.ETH_E_CFG_ACCEPT_TAGGED (i : Nat) : Field := ⟨0xC0040 + 4 * i, 16, 1⟩
/-- Register ETH_INT_STATUS (whole word). -/
def F.ETH_INT_STATUS : Field := ⟨0xC0050, 0, 32⟩
def F.ETH_INT_STATUS_E0_LINK_CHG : Field := ⟨0xC0050, 0, 1⟩
def F.ETH_INT_STATUS_PLCA_CHG : Field := ⟨0xC0050, 1, 1⟩
def F.ETH_INT_STATUS_LEARN_FULL : Field := ⟨0xC0050, 2, 1⟩
def F.ETH_INT_STATUS_MDIO_DONE : Field := ⟨0xC0050, 3, 1⟩
def F.ETH_INT_STATUS_TX_DROP : Field := ⟨0xC0050, 4, 1⟩
/-- Register ETH_INT_EN (whole word). -/
def F.ETH_INT_EN : Field := ⟨0xC0054, 0, 32⟩
def F.ETH_INT_EN_E0_LINK_CHG : Field := ⟨0xC0054, 0, 1⟩
def F.ETH_INT_EN_PLCA_CHG : Field := ⟨0xC0054, 1, 1⟩
def F.ETH_INT_EN_LEARN_FULL : Field := ⟨0xC0054, 2, 1⟩
def F.ETH_INT_EN_MDIO_DONE : Field := ⟨0xC0054, 3, 1⟩
def F.ETH_INT_EN_TX_DROP : Field := ⟨0xC0054, 4, 1⟩
/-- Register ETH_RX_FRAMES (whole word). -/
def F.ETH_RX_FRAMES (i : Nat) : Field := ⟨0xC0060 + 4 * i, 0, 32⟩
/-- Register ETH_TX_FRAMES (whole word). -/
def F.ETH_TX_FRAMES (i : Nat) : Field := ⟨0xC006C + 4 * i, 0, 32⟩
/-- Register ETH_RX_ERR (whole word). -/
def F.ETH_RX_ERR (i : Nat) : Field := ⟨0xC0078 + 4 * i, 0, 32⟩
/-- Register ETH_TX_DROP (whole word). -/
def F.ETH_TX_DROP (i : Nat) : Field := ⟨0xC0084 + 4 * i, 0, 32⟩
/-- Register ETH_FLOOD (whole word). -/
def F.ETH_FLOOD : Field := ⟨0xC0090, 0, 32⟩
/-- Register ETH_VLAN_DROP (whole word). -/
def F.ETH_VLAN_DROP : Field := ⟨0xC0094, 0, 32⟩
/-- Register ETH_RSVD_DROP (whole word). -/
def F.ETH_RSVD_DROP : Field := ⟨0xC0098, 0, 32⟩
/-- Register ETH_NO_PEER (whole word). -/
def F.ETH_NO_PEER : Field := ⟨0xC009C, 0, 32⟩
/-- Register ETH_LEARN_FULL (whole word). -/
def F.ETH_LEARN_FULL : Field := ⟨0xC00A0, 0, 32⟩
/-- Register ETH_CMARK_RX (whole word). -/
def F.ETH_CMARK_RX : Field := ⟨0xC00A4, 0, 32⟩
/-- Register ETH_VLAN0 (whole word). -/
def F.ETH_VLAN0 (i : Nat) : Field := ⟨0xC1000 + 8 * i, 0, 32⟩
def F.ETH_VLAN0_VALID (i : Nat) : Field := ⟨0xC1000 + 8 * i, 0, 1⟩
def F.ETH_VLAN0_VID (i : Nat) : Field := ⟨0xC1000 + 8 * i, 1, 12⟩
def F.ETH_VLAN0_MEMBER (i : Nat) : Field := ⟨0xC1000 + 8 * i, 13, 3⟩
def F.ETH_VLAN0_UNTAG (i : Nat) : Field := ⟨0xC1000 + 8 * i, 16, 3⟩
def F.ETH_VLAN0_FABRIC (i : Nat) : Field := ⟨0xC1000 + 8 * i, 19, 1⟩
def F.ETH_VLAN0_GROUP (i : Nat) : Field := ⟨0xC1000 + 8 * i, 20, 8⟩
/-- Register ETH_VLAN1 (whole word). -/
def F.ETH_VLAN1 (i : Nat) : Field := ⟨0xC1004 + 8 * i, 0, 32⟩
def F.ETH_VLAN1_FLOOD_TUNNEL (i : Nat) : Field := ⟨0xC1004 + 8 * i, 0, 12⟩
/-- Register ETH_PEER (whole word). -/
def F.ETH_PEER (i : Nat) : Field := ⟨0xC2000 + 4 * i, 0, 32⟩
def F.ETH_PEER_VALID (i : Nat) : Field := ⟨0xC2000 + 4 * i, 0, 1⟩
def F.ETH_PEER_TUNNEL (i : Nat) : Field := ⟨0xC2000 + 4 * i, 1, 12⟩
/-- Register ETH_LRN0 (whole word). -/
def F.ETH_LRN0 (i : Nat) : Field := ⟨0xC4000 + 0x10 * i, 0, 32⟩
/-- Register ETH_LRN1 (whole word). -/
def F.ETH_LRN1 (i : Nat) : Field := ⟨0xC4004 + 0x10 * i, 0, 32⟩
def F.ETH_LRN1_MAC_HI (i : Nat) : Field := ⟨0xC4004 + 0x10 * i, 0, 16⟩
def F.ETH_LRN1_VIDX (i : Nat) : Field := ⟨0xC4004 + 0x10 * i, 16, 6⟩
def F.ETH_LRN1_VALID (i : Nat) : Field := ⟨0xC4004 + 0x10 * i, 22, 1⟩
def F.ETH_LRN1_STATIC (i : Nat) : Field := ⟨0xC4004 + 0x10 * i, 23, 1⟩
def F.ETH_LRN1_REMOTE (i : Nat) : Field := ⟨0xC4004 + 0x10 * i, 24, 1⟩
/-- Register ETH_LRN2 (whole word). -/
def F.ETH_LRN2 (i : Nat) : Field := ⟨0xC4008 + 0x10 * i, 0, 32⟩
def F.ETH_LRN2_DEST (i : Nat) : Field := ⟨0xC4008 + 0x10 * i, 0, 10⟩
def F.ETH_LRN2_AGE_LEFT (i : Nat) : Field := ⟨0xC4008 + 0x10 * i, 10, 16⟩
/-- Register FLD_CTL (whole word). -/
def F.FLD_CTL : Field := ⟨0xD0000, 0, 32⟩
def F.FLD_CTL_EN : Field := ⟨0xD0000, 0, 1⟩
def F.FLD_CTL_CAN_EN : Field := ⟨0xD0000, 1, 4⟩
def F.FLD_CTL_UA_EN : Field := ⟨0xD0000, 5, 2⟩
def F.FLD_CTL_BATCH_US : Field := ⟨0xD0000, 7, 8⟩
/-- Register FLD_STATUS (whole word). -/
def F.FLD_STATUS : Field := ⟨0xD0004, 0, 32⟩
def F.FLD_STATUS_BUS_OFF : Field := ⟨0xD0004, 0, 4⟩
def F.FLD_STATUS_ERR_PASSIVE : Field := ⟨0xD0004, 4, 4⟩
def F.FLD_STATUS_UA_BUSY : Field := ⟨0xD0004, 8, 2⟩
/-- Register FLD_INT_STATUS (whole word). -/
def F.FLD_INT_STATUS : Field := ⟨0xD0008, 0, 32⟩
def F.FLD_INT_STATUS_CAN_BUSOFF : Field := ⟨0xD0008, 0, 1⟩
def F.FLD_INT_STATUS_CAN_ERR_PASSIVE : Field := ⟨0xD0008, 1, 1⟩
def F.FLD_INT_STATUS_MB_FAILED : Field := ⟨0xD0008, 2, 1⟩
def F.FLD_INT_STATUS_MB_EXCEPTION : Field := ⟨0xD0008, 3, 1⟩
def F.FLD_INT_STATUS_FIO_CHATTER : Field := ⟨0xD0008, 4, 1⟩
def F.FLD_INT_STATUS_FIO_STUCK : Field := ⟨0xD0008, 5, 1⟩
def F.FLD_INT_STATUS_SIG_ERR : Field := ⟨0xD0008, 6, 1⟩
def F.FLD_INT_STATUS_REC_DROP : Field := ⟨0xD0008, 7, 1⟩
/-- Register FLD_INT_EN (whole word). -/
def F.FLD_INT_EN : Field := ⟨0xD000C, 0, 32⟩
def F.FLD_INT_EN_CAN_BUSOFF : Field := ⟨0xD000C, 0, 1⟩
def F.FLD_INT_EN_CAN_ERR_PASSIVE : Field := ⟨0xD000C, 1, 1⟩
def F.FLD_INT_EN_MB_FAILED : Field := ⟨0xD000C, 2, 1⟩
def F.FLD_INT_EN_MB_EXCEPTION : Field := ⟨0xD000C, 3, 1⟩
def F.FLD_INT_EN_FIO_CHATTER : Field := ⟨0xD000C, 4, 1⟩
def F.FLD_INT_EN_FIO_STUCK : Field := ⟨0xD000C, 5, 1⟩
def F.FLD_INT_EN_SIG_ERR : Field := ⟨0xD000C, 6, 1⟩
def F.FLD_INT_EN_REC_DROP : Field := ⟨0xD000C, 7, 1⟩
/-- Register FLD_FIO_INT_STATUS (whole word). -/
def F.FLD_FIO_INT_STATUS : Field := ⟨0xD0010, 0, 32⟩
def F.FLD_FIO_INT_STATUS_PIN : Field := ⟨0xD0010, 0, 16⟩
/-- Register FLD_FIO_INT_EN (whole word). -/
def F.FLD_FIO_INT_EN : Field := ⟨0xD0014, 0, 32⟩
def F.FLD_FIO_INT_EN_PIN : Field := ⟨0xD0014, 0, 16⟩
/-- Register FLD_FIO_LEVEL (whole word). -/
def F.FLD_FIO_LEVEL : Field := ⟨0xD0018, 0, 32⟩
def F.FLD_FIO_LEVEL_IN : Field := ⟨0xD0018, 0, 16⟩
def F.FLD_FIO_LEVEL_OUT : Field := ⟨0xD0018, 16, 16⟩
/-- Register FLD_CAN_NBT (whole word). -/
def F.FLD_CAN_NBT (i : Nat) : Field := ⟨0xD0020 + 0x10 * i, 0, 32⟩
def F.FLD_CAN_NBT_BRP (i : Nat) : Field := ⟨0xD0020 + 0x10 * i, 0, 8⟩
def F.FLD_CAN_NBT_TSEG1 (i : Nat) : Field := ⟨0xD0020 + 0x10 * i, 8, 8⟩
def F.FLD_CAN_NBT_TSEG2 (i : Nat) : Field := ⟨0xD0020 + 0x10 * i, 16, 7⟩
def F.FLD_CAN_NBT_SJW (i : Nat) : Field := ⟨0xD0020 + 0x10 * i, 23, 7⟩
/-- Register FLD_CAN_DBT (whole word). -/
def F.FLD_CAN_DBT (i : Nat) : Field := ⟨0xD0024 + 0x10 * i, 0, 32⟩
def F.FLD_CAN_DBT_BRP (i : Nat) : Field := ⟨0xD0024 + 0x10 * i, 0, 5⟩
def F.FLD_CAN_DBT_TSEG1 (i : Nat) : Field := ⟨0xD0024 + 0x10 * i, 5, 5⟩
def F.FLD_CAN_DBT_TSEG2 (i : Nat) : Field := ⟨0xD0024 + 0x10 * i, 10, 4⟩
def F.FLD_CAN_DBT_SJW (i : Nat) : Field := ⟨0xD0024 + 0x10 * i, 14, 4⟩
def F.FLD_CAN_DBT_TDC_EN (i : Nat) : Field := ⟨0xD0024 + 0x10 * i, 18, 1⟩
def F.FLD_CAN_DBT_TDCO (i : Nat) : Field := ⟨0xD0024 + 0x10 * i, 19, 7⟩
/-- Register FLD_CAN_CTL (whole word). -/
def F.FLD_CAN_CTL (i : Nat) : Field := ⟨0xD0028 + 0x10 * i, 0, 32⟩
def F.FLD_CAN_CTL_FD_EN (i : Nat) : Field := ⟨0xD0028 + 0x10 * i, 0, 1⟩
def F.FLD_CAN_CTL_LISTEN_ONLY (i : Nat) : Field := ⟨0xD0028 + 0x10 * i, 1, 1⟩
def F.FLD_CAN_CTL_AUTO_RECOVER (i : Nat) : Field := ⟨0xD0028 + 0x10 * i, 2, 1⟩
/-- Register FLD_CAN_ERR (whole word). -/
def F.FLD_CAN_ERR (i : Nat) : Field := ⟨0xD002C + 0x10 * i, 0, 32⟩
def F.FLD_CAN_ERR_TEC (i : Nat) : Field := ⟨0xD002C + 0x10 * i, 0, 8⟩
def F.FLD_CAN_ERR_REC (i : Nat) : Field := ⟨0xD002C + 0x10 * i, 8, 8⟩
def F.FLD_CAN_ERR_STATE (i : Nat) : Field := ⟨0xD002C + 0x10 * i, 16, 2⟩
/-- Register FLD_UA_CFG (whole word). -/
def F.FLD_UA_CFG (i : Nat) : Field := ⟨0xD0060 + 8 * i, 0, 32⟩
def F.FLD_UA_CFG_DIV (i : Nat) : Field := ⟨0xD0060 + 8 * i, 0, 16⟩
def F.FLD_UA_CFG_PARITY (i : Nat) : Field := ⟨0xD0060 + 8 * i, 16, 2⟩
def F.FLD_UA_CFG_STOP2 (i : Nat) : Field := ⟨0xD0060 + 8 * i, 18, 1⟩
def F.FLD_UA_CFG_TIMEOUT (i : Nat) : Field := ⟨0xD0060 + 8 * i, 19, 8⟩
def F.FLD_UA_CFG_RETRY (i : Nat) : Field := ⟨0xD0060 + 8 * i, 27, 1⟩
/-- Register FLD_UA_STATUS (whole word). -/
def F.FLD_UA_STATUS (i : Nat) : Field := ⟨0xD0064 + 8 * i, 0, 32⟩
def F.FLD_UA_STATUS_BUSY (i : Nat) : Field := ⟨0xD0064 + 8 * i, 0, 1⟩
def F.FLD_UA_STATUS_ENTRY (i : Nat) : Field := ⟨0xD0064 + 8 * i, 1, 8⟩
/-- Register FLD_CAN_RX (whole word). -/
def F.FLD_CAN_RX (i : Nat) : Field := ⟨0xD0080 + 4 * i, 0, 32⟩
/-- Register FLD_CAN_TX (whole word). -/
def F.FLD_CAN_TX (i : Nat) : Field := ⟨0xD0090 + 4 * i, 0, 32⟩
/-- Register FLD_CAN_EFRAMES (whole word). -/
def F.FLD_CAN_EFRAMES (i : Nat) : Field := ⟨0xD00A0 + 4 * i, 0, 32⟩
/-- Register FLD_CAN_UNMATCHED (whole word). -/
def F.FLD_CAN_UNMATCHED : Field := ⟨0xD00B0, 0, 32⟩
/-- Register FLD_CAN_RTR (whole word). -/
def F.FLD_CAN_RTR : Field := ⟨0xD00B4, 0, 32⟩
/-- Register FLD_CAN_TX_LATE (whole word). -/
def F.FLD_CAN_TX_LATE : Field := ⟨0xD00B8, 0, 32⟩
/-- Register FLD_SIG_ERR (whole word). -/
def F.FLD_SIG_ERR : Field := ⟨0xD00BC, 0, 32⟩
/-- Register FLD_REC_RX (whole word). -/
def F.FLD_REC_RX : Field := ⟨0xD00C0, 0, 32⟩
/-- Register FLD_REC_SENT (whole word). -/
def F.FLD_REC_SENT : Field := ⟨0xD00C4, 0, 32⟩
/-- Register FLD_REC_DROP (whole word). -/
def F.FLD_REC_DROP : Field := ⟨0xD00C8, 0, 32⟩
/-- Register FLD_UA_TXN (whole word). -/
def F.FLD_UA_TXN (i : Nat) : Field := ⟨0xD00CC + 4 * i, 0, 32⟩
/-- Register FLD_UA_RETRY_OK (whole word). -/
def F.FLD_UA_RETRY_OK (i : Nat) : Field := ⟨0xD00D4 + 4 * i, 0, 32⟩
/-- Register FLD_UA_FAIL (whole word). -/
def F.FLD_UA_FAIL (i : Nat) : Field := ⟨0xD00DC + 4 * i, 0, 32⟩
/-- Register FLD_MB_EXC (whole word). -/
def F.FLD_MB_EXC : Field := ⟨0xD00E4, 0, 32⟩
/-- Register FLD_MB_OVERRUN (whole word). -/
def F.FLD_MB_OVERRUN : Field := ⟨0xD00E8, 0, 32⟩
/-- Register FLD_MB_FRAME_ERR (whole word). -/
def F.FLD_MB_FRAME_ERR : Field := ⟨0xD00EC, 0, 32⟩
/-- Register FLD_FIO_CFG (whole word). -/
def F.FLD_FIO_CFG (i : Nat) : Field := ⟨0xD0400 + 0x10 * i, 0, 32⟩
def F.FLD_FIO_CFG_MODE (i : Nat) : Field := ⟨0xD0400 + 0x10 * i, 0, 2⟩
def F.FLD_FIO_CFG_INVERT (i : Nat) : Field := ⟨0xD0400 + 0x10 * i, 2, 1⟩
def F.FLD_FIO_CFG_DEBOUNCE (i : Nat) : Field := ⟨0xD0400 + 0x10 * i, 3, 8⟩
def F.FLD_FIO_CFG_CHAT_LIMIT (i : Nat) : Field := ⟨0xD0400 + 0x10 * i, 11, 7⟩
def F.FLD_FIO_CFG_STUCK_S (i : Nat) : Field := ⟨0xD0400 + 0x10 * i, 18, 8⟩
def F.FLD_FIO_CFG_EDGE (i : Nat) : Field := ⟨0xD0400 + 0x10 * i, 26, 2⟩
/-- Register FLD_FIO_STATUS (whole word). -/
def F.FLD_FIO_STATUS (i : Nat) : Field := ⟨0xD0404 + 0x10 * i, 0, 32⟩
def F.FLD_FIO_STATUS_LEVEL (i : Nat) : Field := ⟨0xD0404 + 0x10 * i, 0, 1⟩
def F.FLD_FIO_STATUS_RAW (i : Nat) : Field := ⟨0xD0404 + 0x10 * i, 1, 1⟩
def F.FLD_FIO_STATUS_CHATTER (i : Nat) : Field := ⟨0xD0404 + 0x10 * i, 2, 1⟩
def F.FLD_FIO_STATUS_STUCK (i : Nat) : Field := ⟨0xD0404 + 0x10 * i, 3, 1⟩
def F.FLD_FIO_STATUS_OUT (i : Nat) : Field := ⟨0xD0404 + 0x10 * i, 4, 1⟩
def F.FLD_FIO_STATUS_WIN_EDGES (i : Nat) : Field := ⟨0xD0404 + 0x10 * i, 5, 7⟩
/-- Register FLD_FIO_COUNT (whole word). -/
def F.FLD_FIO_COUNT (i : Nat) : Field := ⟨0xD0408 + 0x10 * i, 0, 32⟩
/-- Register FLD_FRM0 (whole word). -/
def F.FLD_FRM0 (i : Nat) : Field := ⟨0xD1000 + 0x10 * i, 0, 32⟩
def F.FLD_FRM0_VALID (i : Nat) : Field := ⟨0xD1000 + 0x10 * i, 0, 1⟩
def F.FLD_FRM0_BUS (i : Nat) : Field := ⟨0xD1000 + 0x10 * i, 1, 2⟩
def F.FLD_FRM0_DIR (i : Nat) : Field := ⟨0xD1000 + 0x10 * i, 3, 1⟩
def F.FLD_FRM0_IDE (i : Nat) : Field := ⟨0xD1000 + 0x10 * i, 4, 1⟩
def F.FLD_FRM0_FDF (i : Nat) : Field := ⟨0xD1000 + 0x10 * i, 5, 1⟩
def F.FLD_FRM0_BRS (i : Nat) : Field := ⟨0xD1000 + 0x10 * i, 6, 1⟩
def F.FLD_FRM0_LEN (i : Nat) : Field := ⟨0xD1000 + 0x10 * i, 7, 7⟩
def F.FLD_FRM0_PERIOD (i : Nat) : Field := ⟨0xD1000 + 0x10 * i, 14, 16⟩
/-- Register FLD_FRM1 (whole word). -/
def F.FLD_FRM1 (i : Nat) : Field := ⟨0xD1004 + 0x10 * i, 0, 32⟩
def F.FLD_FRM1_ID (i : Nat) : Field := ⟨0xD1004 + 0x10 * i, 0, 29⟩
/-- Register FLD_FRM2 (whole word). -/
def F.FLD_FRM2 (i : Nat) : Field := ⟨0xD1008 + 0x10 * i, 0, 32⟩
def F.FLD_FRM2_MASK (i : Nat) : Field := ⟨0xD1008 + 0x10 * i, 0, 29⟩
/-- Register FLD_POLL0 (whole word). -/
def F.FLD_POLL0 (i : Nat) : Field := ⟨0xD2000 + 0x10 * i, 0, 32⟩
def F.FLD_POLL0_VALID (i : Nat) : Field := ⟨0xD2000 + 0x10 * i, 0, 1⟩
def F.FLD_POLL0_UART (i : Nat) : Field := ⟨0xD2000 + 0x10 * i, 1, 1⟩
def F.FLD_POLL0_SLAVE (i : Nat) : Field := ⟨0xD2000 + 0x10 * i, 2, 8⟩
def F.FLD_POLL0_FUNC (i : Nat) : Field := ⟨0xD2000 + 0x10 * i, 10, 5⟩
def F.FLD_POLL0_ADDR (i : Nat) : Field := ⟨0xD2000 + 0x10 * i, 16, 16⟩
/-- Register FLD_POLL1 (whole word). -/
def F.FLD_POLL1 (i : Nat) : Field := ⟨0xD2004 + 0x10 * i, 0, 32⟩
def F.FLD_POLL1_COUNT (i : Nat) : Field := ⟨0xD2004 + 0x10 * i, 0, 11⟩
def F.FLD_POLL1_PERIOD (i : Nat) : Field := ⟨0xD2004 + 0x10 * i, 16, 16⟩
/-- Register FLD_POLL2 (whole word). -/
def F.FLD_POLL2 (i : Nat) : Field := ⟨0xD2008 + 0x10 * i, 0, 32⟩
def F.FLD_POLL2_FAILED (i : Nat) : Field := ⟨0xD2008 + 0x10 * i, 0, 1⟩
def F.FLD_POLL2_EXC (i : Nat) : Field := ⟨0xD2008 + 0x10 * i, 8, 8⟩
/-- Register FLD_POLL3 (whole word). -/
def F.FLD_POLL3 (i : Nat) : Field := ⟨0xD200C + 0x10 * i, 0, 32⟩
/-- Register FLD_WPAY (whole word). -/
def F.FLD_WPAY (i : Nat) : Field := ⟨0xD3000 + 4 * i, 0, 32⟩
/-- Register FLD_SST0 (whole word). -/
def F.FLD_SST0 (i : Nat) : Field := ⟨0xD4000 + 8 * i, 0, 32⟩
/-- Register FLD_SST1 (whole word). -/
def F.FLD_SST1 (i : Nat) : Field := ⟨0xD4004 + 8 * i, 0, 32⟩
def F.FLD_SST1_QUALITY (i : Nat) : Field := ⟨0xD4004 + 8 * i, 0, 3⟩
def F.FLD_SST1_CNT (i : Nat) : Field := ⟨0xD4004 + 8 * i, 3, 16⟩
def F.FLD_SST1_AGE (i : Nat) : Field := ⟨0xD4004 + 8 * i, 19, 13⟩
/-- Register FLD_TXPAY (whole word). -/
def F.FLD_TXPAY (i : Nat) (j : Nat) : Field := ⟨0xD6000 + 0x40 * i + 4 * j, 0, 32⟩
/-- Register FLD_SIG0 (whole word). -/
def F.FLD_SIG0 (i : Nat) : Field := ⟨0xD8000 + 0x20 * i, 0, 32⟩
def F.FLD_SIG0_VALID (i : Nat) : Field := ⟨0xD8000 + 0x20 * i, 0, 1⟩
def F.FLD_SIG0_DIR (i : Nat) : Field := ⟨0xD8000 + 0x20 * i, 1, 1⟩
def F.FLD_SIG0_SOURCE (i : Nat) : Field := ⟨0xD8000 + 0x20 * i, 2, 4⟩
def F.FLD_SIG0_REF (i : Nat) : Field := ⟨0xD8000 + 0x20 * i, 6, 8⟩
def F.FLD_SIG0_PEER_SIG (i : Nat) : Field := ⟨0xD8000 + 0x20 * i, 14, 10⟩
def F.FLD_SIG0_SIGNED (i : Nat) : Field := ⟨0xD8000 + 0x20 * i, 24, 1⟩
def F.FLD_SIG0_MSB_FIRST (i : Nat) : Field := ⟨0xD8000 + 0x20 * i, 25, 1⟩
def F.FLD_SIG0_MODE (i : Nat) : Field := ⟨0xD8000 + 0x20 * i, 26, 2⟩
def F.FLD_SIG0_SUBST_EN (i : Nat) : Field := ⟨0xD8000 + 0x20 * i, 28, 1⟩
/-- Register FLD_SIG1 (whole word). -/
def F.FLD_SIG1 (i : Nat) : Field := ⟨0xD8004 + 0x20 * i, 0, 32⟩
def F.FLD_SIG1_START (i : Nat) : Field := ⟨0xD8004 + 0x20 * i, 0, 11⟩
def F.FLD_SIG1_LEN_M1 (i : Nat) : Field := ⟨0xD8004 + 0x20 * i, 11, 5⟩
def F.FLD_SIG1_TUNNEL (i : Nat) : Field := ⟨0xD8004 + 0x20 * i, 16, 12⟩
/-- Register FLD_SIG2 (whole word). -/
def F.FLD_SIG2 (i : Nat) : Field := ⟨0xD8008 + 0x20 * i, 0, 32⟩
def F.FLD_SIG2_MULT (i : Nat) : Field := ⟨0xD8008 + 0x20 * i, 0, 16⟩
def F.FLD_SIG2_SHIFT (i : Nat) : Field := ⟨0xD8008 + 0x20 * i, 16, 5⟩
/-- Register FLD_SIG3 (whole word). -/
def F.FLD_SIG3 (i : Nat) : Field := ⟨0xD800C + 0x20 * i, 0, 32⟩
/-- Register FLD_SIG4 (whole word). -/
def F.FLD_SIG4 (i : Nat) : Field := ⟨0xD8010 + 0x20 * i, 0, 32⟩
/-- Register FLD_SIG5 (whole word). -/
def F.FLD_SIG5 (i : Nat) : Field := ⟨0xD8014 + 0x20 * i, 0, 32⟩
/-- Register FLD_SIG6 (whole word). -/
def F.FLD_SIG6 (i : Nat) : Field := ⟨0xD8018 + 0x20 * i, 0, 32⟩
def F.FLD_SIG6_DEADBAND (i : Nat) : Field := ⟨0xD8018 + 0x20 * i, 0, 16⟩
def F.FLD_SIG6_PERIOD (i : Nat) : Field := ⟨0xD8018 + 0x20 * i, 16, 8⟩
def F.FLD_SIG6_TIMEOUT (i : Nat) : Field := ⟨0xD8018 + 0x20 * i, 24, 8⟩
/-- Register FLD_SIG7 (whole word). -/
def F.FLD_SIG7 (i : Nat) : Field := ⟨0xD801C + 0x20 * i, 0, 32⟩
/-- Register TPW_RAIL_CFG (whole word). -/
def F.TPW_RAIL_CFG : Field := ⟨0xE0000, 0, 32⟩
def F.TPW_RAIL_CFG_PREF_PORT : Field := ⟨0xE0000, 0, 2⟩
def F.TPW_RAIL_CFG_LOCAL_FEED : Field := ⟨0xE0000, 2, 1⟩
def F.TPW_RAIL_CFG_SHED_ON_FEED_LOSS : Field := ⟨0xE0000, 3, 4⟩
def F.TPW_RAIL_CFG_SHED_V : Field := ⟨0xE0000, 7, 8⟩
/-- Register TPW_RAIL_STATUS (whole word). -/
def F.TPW_RAIL_STATUS : Field := ⟨0xE0004, 0, 32⟩
def F.TPW_RAIL_STATUS_VRAIL : Field := ⟨0xE0004, 0, 16⟩
def F.TPW_RAIL_STATUS_FEEDS : Field := ⟨0xE0004, 16, 3⟩
def F.TPW_RAIL_STATUS_FED : Field := ⟨0xE0004, 19, 1⟩
def F.TPW_RAIL_STATUS_FEED_LOSS : Field := ⟨0xE0004, 20, 1⟩
/-- Register TPW_INT_STATUS (whole word). -/
def F.TPW_INT_STATUS : Field := ⟨0xE0008, 0, 32⟩
def F.TPW_INT_STATUS_FAULT : Field := ⟨0xE0008, 0, 1⟩
def F.TPW_INT_STATUS_PG_CHANGE : Field := ⟨0xE0008, 1, 1⟩
def F.TPW_INT_STATUS_ROLE_CHANGE : Field := ⟨0xE0008, 2, 1⟩
def F.TPW_INT_STATUS_FRS : Field := ⟨0xE0008, 3, 1⟩
def F.TPW_INT_STATUS_SWAP_DONE : Field := ⟨0xE0008, 4, 1⟩
def F.TPW_INT_STATUS_SWAP_FAIL : Field := ⟨0xE0008, 5, 1⟩
def F.TPW_INT_STATUS_SIG_FOUND : Field := ⟨0xE0008, 6, 1⟩
def F.TPW_INT_STATUS_FET_DAMAGE : Field := ⟨0xE0008, 7, 1⟩
def F.TPW_INT_STATUS_OVERDRAW : Field := ⟨0xE0008, 8, 1⟩
def F.TPW_INT_STATUS_FEED_LOSS : Field := ⟨0xE0008, 9, 1⟩
def F.TPW_INT_STATUS_FRS_IGNORED : Field := ⟨0xE0008, 10, 1⟩
/-- Register TPW_INT_EN (whole word). -/
def F.TPW_INT_EN : Field := ⟨0xE000C, 0, 32⟩
def F.TPW_INT_EN_FAULT : Field := ⟨0xE000C, 0, 1⟩
def F.TPW_INT_EN_PG_CHANGE : Field := ⟨0xE000C, 1, 1⟩
def F.TPW_INT_EN_ROLE_CHANGE : Field := ⟨0xE000C, 2, 1⟩
def F.TPW_INT_EN_FRS : Field := ⟨0xE000C, 3, 1⟩
def F.TPW_INT_EN_SWAP_DONE : Field := ⟨0xE000C, 4, 1⟩
def F.TPW_INT_EN_SWAP_FAIL : Field := ⟨0xE000C, 5, 1⟩
def F.TPW_INT_EN_SIG_FOUND : Field := ⟨0xE000C, 6, 1⟩
def F.TPW_INT_EN_FET_DAMAGE : Field := ⟨0xE000C, 7, 1⟩
def F.TPW_INT_EN_OVERDRAW : Field := ⟨0xE000C, 8, 1⟩
def F.TPW_INT_EN_FEED_LOSS : Field := ⟨0xE000C, 9, 1⟩
def F.TPW_INT_EN_FRS_IGNORED : Field := ⟨0xE000C, 10, 1⟩
/-- Register TPW_HV_STATUS (whole word). -/
def F.TPW_HV_STATUS : Field := ⟨0xE0010, 0, 32⟩
def F.TPW_HV_STATUS_VHV : Field := ⟨0xE0010, 0, 8⟩
def F.TPW_HV_STATUS_LINK_OK : Field := ⟨0xE0010, 8, 1⟩
def F.TPW_HV_STATUS_UVLO_SEEN : Field := ⟨0xE0010, 9, 1⟩
/-- Register TPW_P_CFG (whole word). -/
def F.TPW_P_CFG (i : Nat) : Field := ⟨0xE0100 + 0x80 * i, 0, 32⟩
def F.TPW_P_CFG_DEFAULT_ROLE (i : Nat) : Field := ⟨0xE0100 + 0x80 * i, 0, 3⟩
def F.TPW_P_CFG_PROBE_EN (i : Nat) : Field := ⟨0xE0100 + 0x80 * i, 3, 1⟩
def F.TPW_P_CFG_FRS_EN (i : Nat) : Field := ⟨0xE0100 + 0x80 * i, 4, 1⟩
def F.TPW_P_CFG_CONTRACT_ENFORCE (i : Nat) : Field := ⟨0xE0100 + 0x80 * i, 5, 1⟩
def F.TPW_P_CFG_RETRY_MAX (i : Nat) : Field := ⟨0xE0100 + 0x80 * i, 6, 5⟩
def F.TPW_P_CFG_RETRY_INT (i : Nat) : Field := ⟨0xE0100 + 0x80 * i, 11, 7⟩
/-- Register TPW_P_LIMIT (whole word). -/
def F.TPW_P_LIMIT (i : Nat) : Field := ⟨0xE0104 + 0x80 * i, 0, 32⟩
def F.TPW_P_LIMIT_ILIM (i : Nat) : Field := ⟨0xE0104 + 0x80 * i, 0, 14⟩
def F.TPW_P_LIMIT_FAULT_T (i : Nat) : Field := ⟨0xE0104 + 0x80 * i, 14, 8⟩
def F.TPW_P_LIMIT_V_FRS (i : Nat) : Field := ⟨0xE0104 + 0x80 * i, 22, 8⟩
/-- Register TPW_P_RAMP (whole word). -/
def F.TPW_P_RAMP (i : Nat) : Field := ⟨0xE0108 + 0x80 * i, 0, 32⟩
def F.TPW_P_RAMP_SLOPE (i : Nat) : Field := ⟨0xE0108 + 0x80 * i, 0, 8⟩
def F.TPW_P_RAMP_INRUSH (i : Nat) : Field := ⟨0xE0108 + 0x80 * i, 8, 10⟩
def F.TPW_P_RAMP_RAMP_TMO (i : Nat) : Field := ⟨0xE0108 + 0x80 * i, 18, 8⟩
/-- Register TPW_P_SENSE (whole word). -/
def F.TPW_P_SENSE (i : Nat) : Field := ⟨0xE010C + 0x80 * i, 0, 32⟩
def F.TPW_P_SENSE_RS (i : Nat) : Field := ⟨0xE010C + 0x80 * i, 0, 8⟩
def F.TPW_P_SENSE_T_LIMIT (i : Nat) : Field := ⟨0xE010C + 0x80 * i, 8, 8⟩
def F.TPW_P_SENSE_T_RETRY (i : Nat) : Field := ⟨0xE010C + 0x80 * i, 16, 8⟩
def F.TPW_P_SENSE_T_REF (i : Nat) : Field := ⟨0xE010C + 0x80 * i, 24, 3⟩
/-- Register TPW_P_FETM (whole word). -/
def F.TPW_P_FETM (i : Nat) (j : Nat) : Field := ⟨0xE0110 + 0x80 * i + 4 * j, 0, 32⟩
def F.TPW_P_FETM_RTH (i : Nat) (j : Nat) : Field := ⟨0xE0110 + 0x80 * i + 4 * j, 0, 12⟩
def F.TPW_P_FETM_TAU (i : Nat) (j : Nat) : Field := ⟨0xE0110 + 0x80 * i + 4 * j, 12, 20⟩
/-- Register TPW_P_BOOT (whole word). -/
def F.TPW_P_BOOT (i : Nat) : Field := ⟨0xE0118 + 0x80 * i, 0, 32⟩
def F.TPW_P_BOOT_BOOT_W (i : Nat) : Field := ⟨0xE0118 + 0x80 * i, 0, 12⟩
def F.TPW_P_BOOT_BOOT_I (i : Nat) : Field := ⟨0xE0118 + 0x80 * i, 12, 12⟩
/-- Register TPW_P_CMD (whole word). -/
def F.TPW_P_CMD (i : Nat) : Field := ⟨0xE011C + 0x80 * i, 0, 32⟩
def F.TPW_P_CMD_ROLE (i : Nat) : Field := ⟨0xE011C + 0x80 * i, 0, 2⟩
def F.TPW_P_CMD_GO (i : Nat) : Field := ⟨0xE011C + 0x80 * i, 2, 1⟩
def F.TPW_P_CMD_CLEAR_LATCH (i : Nat) : Field := ⟨0xE011C + 0x80 * i, 3, 1⟩
def F.TPW_P_CMD_PROBE (i : Nat) : Field := ⟨0xE011C + 0x80 * i, 4, 1⟩
/-- Register TPW_P_CONTRACT (whole word). -/
def F.TPW_P_CONTRACT (i : Nat) : Field := ⟨0xE0120 + 0x80 * i, 0, 32⟩
def F.TPW_P_CONTRACT_W (i : Nat) : Field := ⟨0xE0120 + 0x80 * i, 0, 12⟩
def F.TPW_P_CONTRACT_I (i : Nat) : Field := ⟨0xE0120 + 0x80 * i, 12, 12⟩
def F.TPW_P_CONTRACT_VALID (i : Nat) : Field := ⟨0xE0120 + 0x80 * i, 24, 1⟩
def F.TPW_P_CONTRACT_DIR (i : Nat) : Field := ⟨0xE0120 + 0x80 * i, 25, 1⟩
def F.TPW_P_CONTRACT_FRS_OK (i : Nat) : Field := ⟨0xE0120 + 0x80 * i, 26, 1⟩
/-- Register TPW_P_STATUS (whole word). -/
def F.TPW_P_STATUS (i : Nat) : Field := ⟨0xE0124 + 0x80 * i, 0, 32⟩
def F.TPW_P_STATUS_STATE (i : Nat) : Field := ⟨0xE0124 + 0x80 * i, 0, 4⟩
def F.TPW_P_STATUS_PG (i : Nat) : Field := ⟨0xE0124 + 0x80 * i, 4, 1⟩
def F.TPW_P_STATUS_LIMITING (i : Nat) : Field := ⟨0xE0124 + 0x80 * i, 5, 1⟩
def F.TPW_P_STATUS_TIMER (i : Nat) : Field := ⟨0xE0124 + 0x80 * i, 6, 1⟩
def F.TPW_P_STATUS_CAUSE (i : Nat) : Field := ⟨0xE0124 + 0x80 * i, 7, 4⟩
def F.TPW_P_STATUS_RETRIES (i : Nat) : Field := ⟨0xE0124 + 0x80 * i, 11, 5⟩
def F.TPW_P_STATUS_SIG (i : Nat) : Field := ⟨0xE0124 + 0x80 * i, 16, 2⟩
def F.TPW_P_STATUS_GUARD (i : Nat) : Field := ⟨0xE0124 + 0x80 * i, 18, 1⟩
def F.TPW_P_STATUS_FRS_ARMED (i : Nat) : Field := ⟨0xE0124 + 0x80 * i, 19, 1⟩
def F.TPW_P_STATUS_RESTORE_ROLE (i : Nat) : Field := ⟨0xE0124 + 0x80 * i, 20, 2⟩
def F.TPW_P_STATUS_DAMAGE (i : Nat) : Field := ⟨0xE0124 + 0x80 * i, 22, 2⟩
def F.TPW_P_STATUS_PREF (i : Nat) : Field := ⟨0xE0124 + 0x80 * i, 24, 1⟩
/-- Register TPW_P_MEAS0 (whole word). -/
def F.TPW_P_MEAS0 (i : Nat) : Field := ⟨0xE0128 + 0x80 * i, 0, 32⟩
def F.TPW_P_MEAS0_VCAB (i : Nat) : Field := ⟨0xE0128 + 0x80 * i, 0, 16⟩
def F.TPW_P_MEAS0_I (i : Nat) : Field := ⟨0xE0128 + 0x80 * i, 16, 16⟩
/-- Register TPW_P_MEAS1 (whole word). -/
def F.TPW_P_MEAS1 (i : Nat) : Field := ⟨0xE012C + 0x80 * i, 0, 32⟩
def F.TPW_P_MEAS1_P (i : Nat) : Field := ⟨0xE012C + 0x80 * i, 0, 20⟩
def F.TPW_P_MEAS1_T_FET (i : Nat) : Field := ⟨0xE012C + 0x80 * i, 20, 8⟩
/-- Register TPW_P_E_OUT_LO (whole word). -/
def F.TPW_P_E_OUT_LO (i : Nat) : Field := ⟨0xE0130 + 0x80 * i, 0, 32⟩
/-- Register TPW_P_E_OUT_HI (whole word). -/
def F.TPW_P_E_OUT_HI (i : Nat) : Field := ⟨0xE0134 + 0x80 * i, 0, 32⟩
def F.TPW_P_E_OUT_HI_E (i : Nat) : Field := ⟨0xE0134 + 0x80 * i, 0, 16⟩
/-- Register TPW_P_E_IN_LO (whole word). -/
def F.TPW_P_E_IN_LO (i : Nat) : Field := ⟨0xE0138 + 0x80 * i, 0, 32⟩
/-- Register TPW_P_E_IN_HI (whole word). -/
def F.TPW_P_E_IN_HI (i : Nat) : Field := ⟨0xE013C + 0x80 * i, 0, 32⟩
def F.TPW_P_E_IN_HI_E (i : Nat) : Field := ⟨0xE013C + 0x80 * i, 0, 16⟩
/-- Register TPW_P_SIG (whole word). -/
def F.TPW_P_SIG (i : Nat) : Field := ⟨0xE0140 + 0x80 * i, 0, 32⟩
def F.TPW_P_SIG_R_MEAS (i : Nat) : Field := ⟨0xE0140 + 0x80 * i, 0, 16⟩
/-- Register TPW_FAULTS (whole word). -/
def F.TPW_FAULTS (i : Nat) : Field := ⟨0xE0144 + 0x80 * i, 0, 32⟩
/-- Register TPW_SWAPS (whole word). -/
def F.TPW_SWAPS (i : Nat) : Field := ⟨0xE0148 + 0x80 * i, 0, 32⟩
/-- Register TPW_FRS (whole word). -/
def F.TPW_FRS (i : Nat) : Field := ⟨0xE014C + 0x80 * i, 0, 32⟩
/-- Register TPW_OVERDRAW (whole word). -/
def F.TPW_OVERDRAW (i : Nat) : Field := ⟨0xE0150 + 0x80 * i, 0, 32⟩
/-- Register TPW_FRS_IGN (whole word). -/
def F.TPW_FRS_IGN (i : Nat) : Field := ⟨0xE0154 + 0x80 * i, 0, 32⟩
/-- Register LDC_STATUS (whole word). -/
def F.LDC_STATUS : Field := ⟨0xF0000, 0, 32⟩
def F.LDC_STATUS_STATE : Field := ⟨0xF0000, 0, 16⟩
def F.LDC_STATUS_PG : Field := ⟨0xF0000, 16, 4⟩
/-- Register LDC_INT_STATUS (whole word). -/
def F.LDC_INT_STATUS : Field := ⟨0xF0004, 0, 32⟩
def F.LDC_INT_STATUS_FAULT : Field := ⟨0xF0004, 0, 4⟩
def F.LDC_INT_STATUS_PG_CHANGE : Field := ⟨0xF0004, 4, 4⟩
def F.LDC_INT_STATUS_LATCHED : Field := ⟨0xF0004, 8, 4⟩
def F.LDC_INT_STATUS_FET_DAMAGE : Field := ⟨0xF0004, 12, 4⟩
def F.LDC_INT_STATUS_OUT_PRESENT : Field := ⟨0xF0004, 16, 4⟩
def F.LDC_INT_STATUS_STARTED : Field := ⟨0xF0004, 20, 4⟩
/-- Register LDC_INT_EN (whole word). -/
def F.LDC_INT_EN : Field := ⟨0xF0008, 0, 32⟩
def F.LDC_INT_EN_FAULT : Field := ⟨0xF0008, 0, 4⟩
def F.LDC_INT_EN_PG_CHANGE : Field := ⟨0xF0008, 4, 4⟩
def F.LDC_INT_EN_LATCHED : Field := ⟨0xF0008, 8, 4⟩
def F.LDC_INT_EN_FET_DAMAGE : Field := ⟨0xF0008, 12, 4⟩
def F.LDC_INT_EN_OUT_PRESENT : Field := ⟨0xF0008, 16, 4⟩
def F.LDC_INT_EN_STARTED : Field := ⟨0xF0008, 20, 4⟩
/-- Register LDC_L_CFG (whole word). -/
def F.LDC_L_CFG (i : Nat) : Field := ⟨0xF0100 + 0x80 * i, 0, 32⟩
def F.LDC_L_CFG_HOLD_ACROSS_RESET (i : Nat) : Field := ⟨0xF0100 + 0x80 * i, 0, 1⟩
def F.LDC_L_CFG_SHED_ON_CTL_LOSS (i : Nat) : Field := ⟨0xF0100 + 0x80 * i, 1, 1⟩
def F.LDC_L_CFG_ARM_AT_BOOT (i : Nat) : Field := ⟨0xF0100 + 0x80 * i, 2, 1⟩
def F.LDC_L_CFG_OV_OFF (i : Nat) : Field := ⟨0xF0100 + 0x80 * i, 3, 1⟩
def F.LDC_L_CFG_RETRY_MAX (i : Nat) : Field := ⟨0xF0100 + 0x80 * i, 4, 5⟩
def F.LDC_L_CFG_RETRY_INT (i : Nat) : Field := ⟨0xF0100 + 0x80 * i, 9, 7⟩
/-- Register LDC_L_LIMIT (whole word). -/
def F.LDC_L_LIMIT (i : Nat) : Field := ⟨0xF0104 + 0x80 * i, 0, 32⟩
def F.LDC_L_LIMIT_ILIM (i : Nat) : Field := ⟨0xF0104 + 0x80 * i, 0, 14⟩
def F.LDC_L_LIMIT_FAULT_T (i : Nat) : Field := ⟨0xF0104 + 0x80 * i, 14, 8⟩
/-- Register LDC_L_RAMP (whole word). -/
def F.LDC_L_RAMP (i : Nat) : Field := ⟨0xF0108 + 0x80 * i, 0, 32⟩
def F.LDC_L_RAMP_SLOPE (i : Nat) : Field := ⟨0xF0108 + 0x80 * i, 0, 8⟩
def F.LDC_L_RAMP_INRUSH (i : Nat) : Field := ⟨0xF0108 + 0x80 * i, 8, 10⟩
def F.LDC_L_RAMP_RAMP_TMO (i : Nat) : Field := ⟨0xF0108 + 0x80 * i, 18, 8⟩
/-- Register LDC_L_SENSE (whole word). -/
def F.LDC_L_SENSE (i : Nat) : Field := ⟨0xF010C + 0x80 * i, 0, 32⟩
def F.LDC_L_SENSE_RS (i : Nat) : Field := ⟨0xF010C + 0x80 * i, 0, 8⟩
def F.LDC_L_SENSE_T_LIMIT (i : Nat) : Field := ⟨0xF010C + 0x80 * i, 8, 8⟩
def F.LDC_L_SENSE_T_RETRY (i : Nat) : Field := ⟨0xF010C + 0x80 * i, 16, 8⟩
def F.LDC_L_SENSE_T_REF (i : Nat) : Field := ⟨0xF010C + 0x80 * i, 24, 3⟩
/-- Register LDC_L_FETM (whole word). -/
def F.LDC_L_FETM (i : Nat) (j : Nat) : Field := ⟨0xF0110 + 0x80 * i + 4 * j, 0, 32⟩
def F.LDC_L_FETM_RTH (i : Nat) (j : Nat) : Field := ⟨0xF0110 + 0x80 * i + 4 * j, 0, 12⟩
def F.LDC_L_FETM_TAU (i : Nat) (j : Nat) : Field := ⟨0xF0110 + 0x80 * i + 4 * j, 12, 20⟩
/-- Register LDC_L_CMD (whole word). -/
def F.LDC_L_CMD (i : Nat) : Field := ⟨0xF0118 + 0x80 * i, 0, 32⟩
def F.LDC_L_CMD_ON (i : Nat) : Field := ⟨0xF0118 + 0x80 * i, 0, 1⟩
def F.LDC_L_CMD_OFF (i : Nat) : Field := ⟨0xF0118 + 0x80 * i, 1, 1⟩
def F.LDC_L_CMD_CLEAR_LATCH (i : Nat) : Field := ⟨0xF0118 + 0x80 * i, 2, 1⟩
/-- Register LDC_L_STATUS (whole word). -/
def F.LDC_L_STATUS (i : Nat) : Field := ⟨0xF011C + 0x80 * i, 0, 32⟩
def F.LDC_L_STATUS_STATE (i : Nat) : Field := ⟨0xF011C + 0x80 * i, 0, 3⟩
def F.LDC_L_STATUS_PG (i : Nat) : Field := ⟨0xF011C + 0x80 * i, 3, 1⟩
def F.LDC_L_STATUS_LIMITING (i : Nat) : Field := ⟨0xF011C + 0x80 * i, 4, 1⟩
def F.LDC_L_STATUS_TIMER (i : Nat) : Field := ⟨0xF011C + 0x80 * i, 5, 1⟩
def F.LDC_L_STATUS_CAUSE (i : Nat) : Field := ⟨0xF011C + 0x80 * i, 6, 4⟩
def F.LDC_L_STATUS_OFF_CAUSE (i : Nat) : Field := ⟨0xF011C + 0x80 * i, 10, 3⟩
def F.LDC_L_STATUS_RETRIES (i : Nat) : Field := ⟨0xF011C + 0x80 * i, 13, 5⟩
def F.LDC_L_STATUS_HELD_BUDGET (i : Nat) : Field := ⟨0xF011C + 0x80 * i, 18, 1⟩
def F.LDC_L_STATUS_HELD_FEED (i : Nat) : Field := ⟨0xF011C + 0x80 * i, 19, 1⟩
def F.LDC_L_STATUS_OUT_PRESENT (i : Nat) : Field := ⟨0xF011C + 0x80 * i, 20, 1⟩
def F.LDC_L_STATUS_DAMAGE (i : Nat) : Field := ⟨0xF011C + 0x80 * i, 21, 1⟩
/-- Register LDC_L_MEAS0 (whole word). -/
def F.LDC_L_MEAS0 (i : Nat) : Field := ⟨0xF0120 + 0x80 * i, 0, 32⟩
def F.LDC_L_MEAS0_VOUT (i : Nat) : Field := ⟨0xF0120 + 0x80 * i, 0, 16⟩
def F.LDC_L_MEAS0_I (i : Nat) : Field := ⟨0xF0120 + 0x80 * i, 16, 16⟩
/-- Register LDC_L_MEAS1 (whole word). -/
def F.LDC_L_MEAS1 (i : Nat) : Field := ⟨0xF0124 + 0x80 * i, 0, 32⟩
def F.LDC_L_MEAS1_P (i : Nat) : Field := ⟨0xF0124 + 0x80 * i, 0, 20⟩
def F.LDC_L_MEAS1_T_FET (i : Nat) : Field := ⟨0xF0124 + 0x80 * i, 20, 8⟩
/-- Register LDC_L_MEAS2 (whole word). -/
def F.LDC_L_MEAS2 (i : Nat) : Field := ⟨0xF0128 + 0x80 * i, 0, 32⟩
def F.LDC_L_MEAS2_I_PEAK (i : Nat) : Field := ⟨0xF0128 + 0x80 * i, 0, 16⟩
/-- Register LDC_L_E_LO (whole word). -/
def F.LDC_L_E_LO (i : Nat) : Field := ⟨0xF012C + 0x80 * i, 0, 32⟩
/-- Register LDC_L_E_HI (whole word). -/
def F.LDC_L_E_HI (i : Nat) : Field := ⟨0xF0130 + 0x80 * i, 0, 32⟩
def F.LDC_L_E_HI_E (i : Nat) : Field := ⟨0xF0130 + 0x80 * i, 0, 16⟩
/-- Register LDC_L_RAMP0 (whole word). -/
def F.LDC_L_RAMP0 (i : Nat) : Field := ⟨0xF0134 + 0x80 * i, 0, 32⟩
def F.LDC_L_RAMP0_DURATION (i : Nat) : Field := ⟨0xF0134 + 0x80 * i, 0, 16⟩
def F.LDC_L_RAMP0_I_PEAK (i : Nat) : Field := ⟨0xF0134 + 0x80 * i, 16, 16⟩
/-- Register LDC_L_RAMP1 (whole word). -/
def F.LDC_L_RAMP1 (i : Nat) : Field := ⟨0xF0138 + 0x80 * i, 0, 32⟩
/-- Register LDC_L_RAMP2 (whole word). -/
def F.LDC_L_RAMP2 (i : Nat) : Field := ⟨0xF013C + 0x80 * i, 0, 32⟩
/-- Register LDC_L_PG_CFG (whole word). -/
def F.LDC_L_PG_CFG (i : Nat) : Field := ⟨0xF0140 + 0x80 * i, 0, 32⟩
def F.LDC_L_PG_CFG_PIN_EN (i : Nat) : Field := ⟨0xF0140 + 0x80 * i, 0, 1⟩
/-- Register LDC_STARTS (whole word). -/
def F.LDC_STARTS (i : Nat) : Field := ⟨0xF0144 + 0x80 * i, 0, 32⟩
/-- Register LDC_FAULTS (whole word). -/
def F.LDC_FAULTS (i : Nat) : Field := ⟨0xF0148 + 0x80 * i, 0, 32⟩
/-- Register LDC_LATCHES (whole word). -/
def F.LDC_LATCHES (i : Nat) : Field := ⟨0xF014C + 0x80 * i, 0, 32⟩
/-- Register LDC_REFUSED (whole word). -/
def F.LDC_REFUSED (i : Nat) : Field := ⟨0xF0150 + 0x80 * i, 0, 32⟩
/-- Register LDC_HIST0 (whole word). -/
def F.LDC_HIST0 (i : Nat) (j : Nat) : Field := ⟨0xF1000 + 0x400 * i + 0x10 * j, 0, 32⟩
/-- Register LDC_HIST1 (whole word). -/
def F.LDC_HIST1 (i : Nat) (j : Nat) : Field := ⟨0xF1004 + 0x400 * i + 0x10 * j, 0, 32⟩
def F.LDC_HIST1_VOUT (i : Nat) (j : Nat) : Field := ⟨0xF1004 + 0x400 * i + 0x10 * j, 0, 16⟩
def F.LDC_HIST1_I (i : Nat) (j : Nat) : Field := ⟨0xF1004 + 0x400 * i + 0x10 * j, 16, 16⟩
/-- Register LDC_HIST2 (whole word). -/
def F.LDC_HIST2 (i : Nat) (j : Nat) : Field := ⟨0xF1008 + 0x400 * i + 0x10 * j, 0, 32⟩
def F.LDC_HIST2_P (i : Nat) (j : Nat) : Field := ⟨0xF1008 + 0x400 * i + 0x10 * j, 0, 20⟩
def F.LDC_HIST2_T_FET (i : Nat) (j : Nat) : Field := ⟨0xF1008 + 0x400 * i + 0x10 * j, 20, 8⟩
def F.LDC_HIST2_RAMP (i : Nat) (j : Nat) : Field := ⟨0xF1008 + 0x400 * i + 0x10 * j, 28, 1⟩
def F.LDC_HIST2_FAULT (i : Nat) (j : Nat) : Field := ⟨0xF1008 + 0x400 * i + 0x10 * j, 29, 1⟩
/-- Register LDC_HIST3 (whole word). -/
def F.LDC_HIST3 (i : Nat) (j : Nat) : Field := ⟨0xF100C + 0x400 * i + 0x10 * j, 0, 32⟩
def F.LDC_HIST3_I_PEAK (i : Nat) (j : Nat) : Field := ⟨0xF100C + 0x400 * i + 0x10 * j, 0, 16⟩
/-- Register KEY_CTL (whole word). -/
def F.KEY_CTL : Field := ⟨0x100000, 0, 32⟩
def F.KEY_CTL_TAG_FAIL_LIMIT : Field := ⟨0x100000, 0, 7⟩
def F.KEY_CTL_ADMIT_TMO : Field := ⟨0x100000, 8, 8⟩
/-- Register KEY_STATUS (whole word). -/
def F.KEY_STATUS : Field := ⟨0x100004, 0, 32⟩
def F.KEY_STATUS_LC : Field := ⟨0x100004, 0, 2⟩
def F.KEY_STATUS_LC_FUSED : Field := ⟨0x100004, 2, 2⟩
def F.KEY_STATUS_ROOT_OK : Field := ⟨0x100004, 4, 1⟩
def F.KEY_STATUS_MKB_VALID : Field := ⟨0x100004, 5, 1⟩
def F.KEY_STATUS_TAINT : Field := ⟨0x100004, 6, 1⟩
def F.KEY_STATUS_TAP_OPEN : Field := ⟨0x100004, 7, 1⟩
def F.KEY_STATUS_ENTROPY_OK : Field := ⟨0x100004, 8, 1⟩
def F.KEY_STATUS_REMASK_POL : Field := ⟨0x100004, 9, 1⟩
def F.KEY_STATUS_FUSE_ERR : Field := ⟨0x100004, 10, 1⟩
def F.KEY_STATUS_MIN_SVN : Field := ⟨0x100004, 16, 6⟩
def F.KEY_STATUS_FW_SVN : Field := ⟨0x100004, 22, 6⟩
/-- Register KEY_LC_CMD (whole word). -/
def F.KEY_LC_CMD : Field := ⟨0x100008, 0, 32⟩
def F.KEY_LC_CMD_TARGET : Field := ⟨0x100008, 0, 2⟩
def F.KEY_LC_CMD_GO : Field := ⟨0x100008, 2, 1⟩
def F.KEY_LC_CMD_SVN_ADVANCE : Field := ⟨0x100008, 3, 1⟩
def F.KEY_LC_CMD_RESULT : Field := ⟨0x100008, 4, 3⟩
def F.KEY_LC_CMD_CONFIRM : Field := ⟨0x100008, 16, 16⟩
/-- Register KEY_INT_STATUS (whole word). -/
def F.KEY_INT_STATUS : Field := ⟨0x10000C, 0, 32⟩
def F.KEY_INT_STATUS_PROV_DONE : Field := ⟨0x10000C, 0, 1⟩
def F.KEY_INT_STATUS_WM_DONE : Field := ⟨0x10000C, 1, 1⟩
def F.KEY_INT_STATUS_ADMIT_FAIL : Field := ⟨0x10000C, 2, 1⟩
def F.KEY_INT_STATUS_TAG_STORM : Field := ⟨0x10000C, 3, 1⟩
def F.KEY_INT_STATUS_ENTROPY_FAIL : Field := ⟨0x10000C, 4, 1⟩
def F.KEY_INT_STATUS_TAP_CLEAR : Field := ⟨0x10000C, 5, 1⟩
def F.KEY_INT_STATUS_FUSE_ERR : Field := ⟨0x10000C, 6, 1⟩
def F.KEY_INT_STATUS_LC_DONE : Field := ⟨0x10000C, 7, 1⟩
/-- Register KEY_INT_EN (whole word). -/
def F.KEY_INT_EN : Field := ⟨0x100010, 0, 32⟩
def F.KEY_INT_EN_PROV_DONE : Field := ⟨0x100010, 0, 1⟩
def F.KEY_INT_EN_WM_DONE : Field := ⟨0x100010, 1, 1⟩
def F.KEY_INT_EN_ADMIT_FAIL : Field := ⟨0x100010, 2, 1⟩
def F.KEY_INT_EN_TAG_STORM : Field := ⟨0x100010, 3, 1⟩
def F.KEY_INT_EN_ENTROPY_FAIL : Field := ⟨0x100010, 4, 1⟩
def F.KEY_INT_EN_TAP_CLEAR : Field := ⟨0x100010, 5, 1⟩
def F.KEY_INT_EN_FUSE_ERR : Field := ⟨0x100010, 6, 1⟩
def F.KEY_INT_EN_LC_DONE : Field := ⟨0x100010, 7, 1⟩
/-- Register KEY_MEAS_ROM (whole word). -/
def F.KEY_MEAS_ROM (i : Nat) : Field := ⟨0x100020 + 4 * i, 0, 32⟩
/-- Register KEY_MEAS_FW (whole word). -/
def F.KEY_MEAS_FW (i : Nat) : Field := ⟨0x100040 + 4 * i, 0, 32⟩
/-- Register KEY_MEAS_CFG (whole word). -/
def F.KEY_MEAS_CFG (i : Nat) : Field := ⟨0x100060 + 4 * i, 0, 32⟩
/-- Register KEY_OWNER_PKH (whole word). -/
def F.KEY_OWNER_PKH (i : Nat) : Field := ⟨0x100080 + 4 * i, 0, 32⟩
/-- Register KEY_PROV_CMD (whole word). -/
def F.KEY_PROV_CMD : Field := ⟨0x1000A0, 0, 32⟩
def F.KEY_PROV_CMD_GO : Field := ⟨0x1000A0, 0, 1⟩
def F.KEY_PROV_CMD_BUSY : Field := ⟨0x1000A0, 1, 1⟩
def F.KEY_PROV_CMD_RESULT : Field := ⟨0x1000A0, 2, 4⟩
/-- Register KEY_PROV_BUF (whole word). -/
def F.KEY_PROV_BUF (i : Nat) : Field := ⟨0x100100 + 4 * i, 0, 32⟩
/-- Register KEY_WM_CMD (whole word). -/
def F.KEY_WM_CMD : Field := ⟨0x100180, 0, 32⟩
def F.KEY_WM_CMD_GO : Field := ⟨0x100180, 0, 1⟩
def F.KEY_WM_CMD_SESSION : Field := ⟨0x100180, 1, 1⟩
def F.KEY_WM_CMD_BUSY : Field := ⟨0x100180, 2, 1⟩
def F.KEY_WM_CMD_RESULT : Field := ⟨0x100180, 3, 2⟩
/-- Register KEY_WM_NONCE (whole word). -/
def F.KEY_WM_NONCE (i : Nat) : Field := ⟨0x1001A0 + 4 * i, 0, 32⟩
/-- Register KEY_WM_RESULT (whole word). -/
def F.KEY_WM_RESULT (i : Nat) : Field := ⟨0x1001C0 + 4 * i, 0, 32⟩
/-- Register KEY_P_STATUS (whole word). -/
def F.KEY_P_STATUS (i : Nat) : Field := ⟨0x100300 + 0x10 * i, 0, 32⟩
def F.KEY_P_STATUS_ADMIT (i : Nat) : Field := ⟨0x100300 + 0x10 * i, 0, 2⟩
def F.KEY_P_STATUS_CIPHER (i : Nat) : Field := ⟨0x100300 + 0x10 * i, 2, 1⟩
def F.KEY_P_STATUS_FLR_PREV (i : Nat) : Field := ⟨0x100300 + 0x10 * i, 3, 1⟩
def F.KEY_P_STATUS_LAST_FAIL (i : Nat) : Field := ⟨0x100300 + 0x10 * i, 4, 3⟩
def F.KEY_P_STATUS_BACKOFF (i : Nat) : Field := ⟨0x100300 + 0x10 * i, 8, 8⟩
/-- Register KEY_P_CMD (whole word). -/
def F.KEY_P_CMD (i : Nat) : Field := ⟨0x100304 + 0x10 * i, 0, 32⟩
def F.KEY_P_CMD_REKEY (i : Nat) : Field := ⟨0x100304 + 0x10 * i, 0, 1⟩
def F.KEY_P_CMD_READMIT (i : Nat) : Field := ⟨0x100304 + 0x10 * i, 1, 1⟩
/-- Register KEY_P_ADMIT_FAIL (whole word). -/
def F.KEY_P_ADMIT_FAIL (i : Nat) : Field := ⟨0x100308 + 0x10 * i, 0, 32⟩
/-- Register KEY_P_TAG_STORM (whole word). -/
def F.KEY_P_TAG_STORM (i : Nat) : Field := ⟨0x10030C + 0x10 * i, 0, 32⟩
/-- Register KEY_SLOT_META (whole word). -/
def F.KEY_SLOT_META (i : Nat) : Field := ⟨0x100400 + 8 * i, 0, 32⟩
def F.KEY_SLOT_META_VALID (i : Nat) : Field := ⟨0x100400 + 8 * i, 0, 1⟩
def F.KEY_SLOT_META_ACTIVE (i : Nat) : Field := ⟨0x100400 + 8 * i, 1, 1⟩
def F.KEY_SLOT_META_ENGINES (i : Nat) : Field := ⟨0x100400 + 8 * i, 2, 6⟩
def F.KEY_SLOT_META_ORIGIN (i : Nat) : Field := ⟨0x100400 + 8 * i, 8, 3⟩
def F.KEY_SLOT_META_BIND_MEAS (i : Nat) : Field := ⟨0x100400 + 8 * i, 11, 1⟩
def F.KEY_SLOT_META_VERSION (i : Nat) : Field := ⟨0x100400 + 8 * i, 16, 16⟩
/-- Register KEY_SLOT_KCV (whole word). -/
def F.KEY_SLOT_KCV (i : Nat) : Field := ⟨0x100404 + 8 * i, 0, 32⟩
/-- Register REL_CTL (whole word). -/
def F.REL_CTL : Field := ⟨0x110000, 0, 32⟩
def F.REL_CTL_SCRUB_EN : Field := ⟨0x110000, 0, 1⟩
def F.REL_CTL_PASS_S : Field := ⟨0x110000, 1, 12⟩
/-- Register REL_STATUS (whole word). -/
def F.REL_STATUS : Field := ⟨0x110004, 0, 32⟩
def F.REL_STATUS_REMAP_USED : Field := ⟨0x110004, 0, 6⟩
def F.REL_STATUS_REMAP_FULL : Field := ⟨0x110004, 6, 1⟩
def F.REL_STATUS_BIST_DONE : Field := ⟨0x110004, 7, 1⟩
def F.REL_STATUS_BIST_FAIL : Field := ⟨0x110004, 8, 1⟩
/-- Register REL_SCRUB_POS (whole word). -/
def F.REL_SCRUB_POS : Field := ⟨0x110008, 0, 32⟩
def F.REL_SCRUB_POS_WORD : Field := ⟨0x110008, 0, 19⟩
/-- Register REL_INT_STATUS (whole word). -/
def F.REL_INT_STATUS : Field := ⟨0x11000C, 0, 32⟩
def F.REL_INT_STATUS_CORR : Field := ⟨0x11000C, 0, 1⟩
def F.REL_INT_STATUS_UNCORR : Field := ⟨0x11000C, 1, 1⟩
def F.REL_INT_STATUS_PERMANENT : Field := ⟨0x11000C, 2, 1⟩
def F.REL_INT_STATUS_REMAP_FULL : Field := ⟨0x11000C, 3, 1⟩
def F.REL_INT_STATUS_TABLE_LOST : Field := ⟨0x11000C, 4, 1⟩
def F.REL_INT_STATUS_BIST_FAIL : Field := ⟨0x11000C, 5, 1⟩
def F.REL_INT_STATUS_SCRUB_PASS : Field := ⟨0x11000C, 6, 1⟩
/-- Register REL_INT_EN (whole word). -/
def F.REL_INT_EN : Field := ⟨0x110010, 0, 32⟩
def F.REL_INT_EN_CORR : Field := ⟨0x110010, 0, 1⟩
def F.REL_INT_EN_UNCORR : Field := ⟨0x110010, 1, 1⟩
def F.REL_INT_EN_PERMANENT : Field := ⟨0x110010, 2, 1⟩
def F.REL_INT_EN_REMAP_FULL : Field := ⟨0x110010, 3, 1⟩
def F.REL_INT_EN_TABLE_LOST : Field := ⟨0x110010, 4, 1⟩
def F.REL_INT_EN_BIST_FAIL : Field := ⟨0x110010, 5, 1⟩
def F.REL_INT_EN_SCRUB_PASS : Field := ⟨0x110010, 6, 1⟩
/-- Register REL_LAST_CORR_LOC (whole word). -/
def F.REL_LAST_CORR_LOC : Field := ⟨0x110014, 0, 32⟩
/-- Register REL_LAST_UNCORR_LOC (whole word). -/
def F.REL_LAST_UNCORR_LOC : Field := ⟨0x110018, 0, 32⟩
/-- Register REL_BIST_LOC (whole word). -/
def F.REL_BIST_LOC : Field := ⟨0x11001C, 0, 32⟩
/-- Register REL_ECC_CORR (whole word). -/
def F.REL_ECC_CORR : Field := ⟨0x110020, 0, 32⟩
/-- Register REL_ECC_UNCORR (whole word). -/
def F.REL_ECC_UNCORR : Field := ⟨0x110024, 0, 32⟩
/-- Register REL_TRANSIENT (whole word). -/
def F.REL_TRANSIENT : Field := ⟨0x110028, 0, 32⟩
/-- Register REL_PERMANENT (whole word). -/
def F.REL_PERMANENT : Field := ⟨0x11002C, 0, 32⟩
/-- Register REL_DATA_LOST (whole word). -/
def F.REL_DATA_LOST : Field := ⟨0x110030, 0, 32⟩
/-- Register REL_SCRUB_PASSES (whole word). -/
def F.REL_SCRUB_PASSES : Field := ⟨0x110034, 0, 32⟩
/-- Register REL_BIST_STATUS (whole word). -/
def F.REL_BIST_STATUS : Field := ⟨0x110040, 0, 32⟩
def F.REL_BIST_STATUS_MEM_OK : Field := ⟨0x110040, 0, 1⟩
def F.REL_BIST_STATUS_ECC_OK : Field := ⟨0x110040, 1, 1⟩
def F.REL_BIST_STATUS_LOGIC_OK : Field := ⟨0x110040, 2, 1⟩
def F.REL_BIST_STATUS_LANE_OK : Field := ⟨0x110040, 3, 6⟩
def F.REL_BIST_STATUS_MEM_REMAPS : Field := ⟨0x110040, 9, 6⟩
/-- Register REL_REMAP_LOC (whole word). -/
def F.REL_REMAP_LOC (i : Nat) : Field := ⟨0x110100 + 8 * i, 0, 32⟩
/-- Register REL_REMAP_STAT (whole word). -/
def F.REL_REMAP_STAT (i : Nat) : Field := ⟨0x110104 + 8 * i, 0, 32⟩
def F.REL_REMAP_STAT_VALID (i : Nat) : Field := ⟨0x110104 + 8 * i, 0, 1⟩
def F.REL_REMAP_STAT_BY_BIST (i : Nat) : Field := ⟨0x110104 + 8 * i, 1, 1⟩
def F.REL_REMAP_STAT_POISONED (i : Nat) : Field := ⟨0x110104 + 8 * i, 2, 1⟩
/-- Register LKP_CTL (whole word). -/
def F.LKP_CTL : Field := ⟨0x120000, 0, 32⟩
def F.LKP_CTL_READY : Field := ⟨0x120000, 0, 1⟩
def F.LKP_CTL_KICK : Field := ⟨0x120000, 1, 1⟩
def F.LKP_CTL_RESTART : Field := ⟨0x120000, 2, 1⟩
/-- Register LKP_STATUS (whole word). -/
def F.LKP_STATUS : Field := ⟨0x120004, 0, 32⟩
def F.LKP_STATUS_STATE : Field := ⟨0x120004, 0, 3⟩
def F.LKP_STATUS_RESTARTS : Field := ⟨0x120004, 3, 2⟩
def F.LKP_STATUS_LAST_CAUSE : Field := ⟨0x120004, 5, 3⟩
def F.LKP_STATUS_SEQ_FAULT : Field := ⟨0x120004, 8, 1⟩
/-- Register LKP_CFG (whole word). -/
def F.LKP_CFG : Field := ⟨0x120008, 0, 32⟩
def F.LKP_CFG_WDT_MS : Field := ⟨0x120008, 0, 12⟩
def F.LKP_CFG_BOOT_TMO : Field := ⟨0x120008, 12, 8⟩
def F.LKP_CFG_ESC_WARM : Field := ⟨0x120008, 20, 1⟩
/-- Register LKP_FAIL_FRAME (whole word). -/
def F.LKP_FAIL_FRAME : Field := ⟨0x12000C, 0, 32⟩
/-- Register LKP_FAIL_PC (whole word). -/
def F.LKP_FAIL_PC : Field := ⟨0x120010, 0, 32⟩
/-- Register LKP_INT_STATUS (whole word). -/
def F.LKP_INT_STATUS : Field := ⟨0x120014, 0, 32⟩
def F.LKP_INT_STATUS_RECOVERED : Field := ⟨0x120014, 0, 1⟩
def F.LKP_INT_STATUS_SEQ_FAULT : Field := ⟨0x120014, 1, 1⟩
/-- Register LKP_INT_EN (whole word). -/
def F.LKP_INT_EN : Field := ⟨0x120018, 0, 32⟩
def F.LKP_INT_EN_RECOVERED : Field := ⟨0x120018, 0, 1⟩
def F.LKP_INT_EN_SEQ_FAULT : Field := ⟨0x120018, 1, 1⟩
/-- Register LKP_FAILS (whole word). -/
def F.LKP_FAILS : Field := ⟨0x120020, 0, 32⟩
/-- Register LKP_P8_DROP (whole word). -/
def F.LKP_P8_DROP : Field := ⟨0x120024, 0, 32⟩
/-- Register CNT_CTL (whole word). -/
def F.CNT_CTL : Field := ⟨0x130000, 0, 32⟩
def F.CNT_CTL_FREEZE : Field := ⟨0x130000, 0, 1⟩
def F.CNT_CTL_CLEAR : Field := ⟨0x130000, 1, 1⟩
def F.CNT_CTL_SNAP_PERIOD : Field := ⟨0x130000, 8, 16⟩
/-- Register CNT_OVF_STATUS (whole word). -/
def F.CNT_OVF_STATUS (i : Nat) : Field := ⟨0x130010 + 4 * i, 0, 32⟩
/-- Register CNT_OVF_EN (whole word). -/
def F.CNT_OVF_EN (i : Nat) : Field := ⟨0x130020 + 4 * i, 0, 32⟩
/-- Register CNT_SNAP_FRAME (whole word). -/
def F.CNT_SNAP_FRAME : Field := ⟨0x130030, 0, 32⟩
/-- Register CNT_OVF_PC (whole word). -/
def F.CNT_OVF_PC : Field := ⟨0x130034, 0, 32⟩
/-- Register CNT_SEL (whole word). -/
def F.CNT_SEL (i : Nat) : Field := ⟨0x131000 + 0x20 * i, 0, 32⟩
def F.CNT_SEL_BLOCK (i : Nat) : Field := ⟨0x131000 + 0x20 * i, 0, 5⟩
def F.CNT_SEL_OFFSET (i : Nat) : Field := ⟨0x131000 + 0x20 * i, 5, 15⟩
def F.CNT_SEL_BIT (i : Nat) : Field := ⟨0x131000 + 0x20 * i, 20, 5⟩
def F.CNT_SEL_MODE (i : Nat) : Field := ⟨0x131000 + 0x20 * i, 25, 2⟩
def F.CNT_SEL_SAMPLE_EN (i : Nat) : Field := ⟨0x131000 + 0x20 * i, 27, 1⟩
def F.CNT_SEL_INVALID (i : Nat) : Field := ⟨0x131000 + 0x20 * i, 28, 1⟩
/-- Register CNT_VAL_LO (whole word). -/
def F.CNT_VAL_LO (i : Nat) : Field := ⟨0x131004 + 0x20 * i, 0, 32⟩
/-- Register CNT_VAL_HI (whole word). -/
def F.CNT_VAL_HI (i : Nat) : Field := ⟨0x131008 + 0x20 * i, 0, 32⟩
def F.CNT_VAL_HI_V (i : Nat) : Field := ⟨0x131008 + 0x20 * i, 0, 16⟩
/-- Register CNT_SNAP_LO (whole word). -/
def F.CNT_SNAP_LO (i : Nat) : Field := ⟨0x13100C + 0x20 * i, 0, 32⟩
/-- Register CNT_SNAP_HI (whole word). -/
def F.CNT_SNAP_HI (i : Nat) : Field := ⟨0x131010 + 0x20 * i, 0, 32⟩
def F.CNT_SNAP_HI_V (i : Nat) : Field := ⟨0x131010 + 0x20 * i, 0, 16⟩
/-- Register CNT_RELOAD_LO (whole word). -/
def F.CNT_RELOAD_LO (i : Nat) : Field := ⟨0x131014 + 0x20 * i, 0, 32⟩
/-- Register CNT_RELOAD_HI (whole word). -/
def F.CNT_RELOAD_HI (i : Nat) : Field := ⟨0x131018 + 0x20 * i, 0, 32⟩
def F.CNT_RELOAD_HI_V (i : Nat) : Field := ⟨0x131018 + 0x20 * i, 0, 16⟩
/-- Register CFG_STATUS (whole word). -/
def F.CFG_STATUS : Field := ⟨0x140000, 0, 32⟩
def F.CFG_STATUS_STATE : Field := ⟨0x140000, 0, 3⟩
def F.CFG_STATUS_FW_BANK : Field := ⟨0x140000, 3, 2⟩
def F.CFG_STATUS_FALLBACK : Field := ⟨0x140000, 5, 1⟩
def F.CFG_STATUS_CFG_RESULT : Field := ⟨0x140000, 6, 3⟩
def F.CFG_STATUS_OVL_RESULT : Field := ⟨0x140000, 9, 3⟩
def F.CFG_STATUS_OVL_AREA : Field := ⟨0x140000, 12, 1⟩
/-- Register CFG_FW_SEQ (whole word). -/
def F.CFG_FW_SEQ : Field := ⟨0x140004, 0, 32⟩
/-- Register CFG_CFG_SEQ (whole word). -/
def F.CFG_CFG_SEQ : Field := ⟨0x140008, 0, 32⟩
/-- Register CFG_OVL_SEQ (whole word). -/
def F.CFG_OVL_SEQ : Field := ⟨0x14000C, 0, 32⟩
/-- Register CFG_LOAD_REF_ADDR (whole word). -/
def F.CFG_LOAD_REF_ADDR : Field := ⟨0x140010, 0, 32⟩
def F.CFG_LOAD_REF_ADDR_ADDR : Field := ⟨0x140010, 0, 24⟩
/-- Register CFG_LOAD_REFUSED (whole word). -/
def F.CFG_LOAD_REFUSED : Field := ⟨0x140014, 0, 32⟩
/-- Register CFG_LOAD_SKIPPED (whole word). -/
def F.CFG_LOAD_SKIPPED : Field := ⟨0x140018, 0, 32⟩
/-- Register CFG_ADMIT_REFUSED (whole word). -/
def F.CFG_ADMIT_REFUSED : Field := ⟨0x14001C, 0, 32⟩
/-- Register CFG_OVL_DIGEST (whole word). -/
def F.CFG_OVL_DIGEST (i : Nat) : Field := ⟨0x140020 + 4 * i, 0, 32⟩
/-- Register CFG_COMMIT (whole word). -/
def F.CFG_COMMIT : Field := ⟨0x140040, 0, 32⟩
def F.CFG_COMMIT_GO : Field := ⟨0x140040, 0, 1⟩
def F.CFG_COMMIT_CLEAR_OVL : Field := ⟨0x140040, 1, 1⟩
def F.CFG_COMMIT_BUSY : Field := ⟨0x140040, 2, 1⟩
def F.CFG_COMMIT_RESULT : Field := ⟨0x140040, 3, 3⟩
def F.CFG_COMMIT_DIRTY : Field := ⟨0x140040, 6, 1⟩
/-- Register CFG_ADMIT_CTL (whole word). -/
def F.CFG_ADMIT_CTL : Field := ⟨0x140050, 0, 32⟩
def F.CFG_ADMIT_CTL_I2C0_EN : Field := ⟨0x140050, 0, 1⟩
def F.CFG_ADMIT_CTL_I2C0_ADDR : Field := ⟨0x140050, 1, 7⟩
/-- Register CFG_ADMIT (whole word). -/
def F.CFG_ADMIT (i : Nat) : Field := ⟨0x140060 + 4 * i, 0, 32⟩
def F.CFG_ADMIT_HUB (i : Nat) : Field := ⟨0x140060 + 4 * i, 0, 10⟩
def F.CFG_ADMIT_MASK (i : Nat) : Field := ⟨0x140060 + 4 * i, 10, 10⟩
def F.CFG_ADMIT_VALID (i : Nat) : Field := ⟨0x140060 + 4 * i, 20, 1⟩
/-- Register CFG_JRN_SEQ (whole word). -/
def F.CFG_JRN_SEQ : Field := ⟨0x140080, 0, 32⟩
/-- Register CFG_JRN_COUNT (whole word). -/
def F.CFG_JRN_COUNT : Field := ⟨0x140084, 0, 32⟩
/-- Register CFG_INT_STATUS (whole word). -/
def F.CFG_INT_STATUS : Field := ⟨0x140090, 0, 32⟩
def F.CFG_INT_STATUS_LOAD_DONE : Field := ⟨0x140090, 0, 1⟩
def F.CFG_INT_STATUS_ROLE_MISMATCH : Field := ⟨0x140090, 1, 1⟩
def F.CFG_INT_STATUS_NO_CONFIG : Field := ⟨0x140090, 2, 1⟩
def F.CFG_INT_STATUS_OVL_FAIL : Field := ⟨0x140090, 3, 1⟩
def F.CFG_INT_STATUS_COMMIT_DONE : Field := ⟨0x140090, 4, 1⟩
def F.CFG_INT_STATUS_FLASH_DONE : Field := ⟨0x140090, 5, 1⟩
def F.CFG_INT_STATUS_ADMIT_REFUSED : Field := ⟨0x140090, 6, 1⟩
/-- Register CFG_INT_EN (whole word). -/
def F.CFG_INT_EN : Field := ⟨0x140094, 0, 32⟩
def F.CFG_INT_EN_LOAD_DONE : Field := ⟨0x140094, 0, 1⟩
def F.CFG_INT_EN_ROLE_MISMATCH : Field := ⟨0x140094, 1, 1⟩
def F.CFG_INT_EN_NO_CONFIG : Field := ⟨0x140094, 2, 1⟩
def F.CFG_INT_EN_OVL_FAIL : Field := ⟨0x140094, 3, 1⟩
def F.CFG_INT_EN_COMMIT_DONE : Field := ⟨0x140094, 4, 1⟩
def F.CFG_INT_EN_FLASH_DONE : Field := ⟨0x140094, 5, 1⟩
def F.CFG_INT_EN_ADMIT_REFUSED : Field := ⟨0x140094, 6, 1⟩
/-- Register CFG_FL_CMD (whole word). -/
def F.CFG_FL_CMD : Field := ⟨0x1400A0, 0, 32⟩
def F.CFG_FL_CMD_OP : Field := ⟨0x1400A0, 0, 2⟩
def F.CFG_FL_CMD_GO : Field := ⟨0x1400A0, 2, 1⟩
def F.CFG_FL_CMD_BUSY : Field := ⟨0x1400A0, 3, 1⟩
def F.CFG_FL_CMD_RESULT : Field := ⟨0x1400A0, 4, 2⟩
/-- Register CFG_FL_ADDR (whole word). -/
def F.CFG_FL_ADDR : Field := ⟨0x1400A4, 0, 32⟩
def F.CFG_FL_ADDR_ADDR : Field := ⟨0x1400A4, 0, 24⟩
/-- Register CFG_FL_BUF (whole word). -/
def F.CFG_FL_BUF (i : Nat) : Field := ⟨0x140100 + 4 * i, 0, 32⟩
/-- Register CFG_RECOVERY_BUF (whole word). -/
def F.CFG_RECOVERY_BUF (i : Nat) : Field := ⟨0x141000 + 4 * i, 0, 32⟩
/-- Register CFG_JRN0 (whole word). -/
def F.CFG_JRN0 (i : Nat) : Field := ⟨0x148000 + 0x20 * i, 0, 32⟩
/-- Register CFG_JRN1 (whole word). -/
def F.CFG_JRN1 (i : Nat) : Field := ⟨0x148004 + 0x20 * i, 0, 32⟩
/-- Register CFG_JRN2 (whole word). -/
def F.CFG_JRN2 (i : Nat) : Field := ⟨0x148008 + 0x20 * i, 0, 32⟩
def F.CFG_JRN2_V (i : Nat) : Field := ⟨0x148008 + 0x20 * i, 0, 27⟩
/-- Register CFG_JRN3 (whole word). -/
def F.CFG_JRN3 (i : Nat) : Field := ⟨0x14800C + 0x20 * i, 0, 32⟩
/-- Register CFG_JRN4 (whole word). -/
def F.CFG_JRN4 (i : Nat) : Field := ⟨0x148010 + 0x20 * i, 0, 32⟩
def F.CFG_JRN4_V (i : Nat) : Field := ⟨0x148010 + 0x20 * i, 0, 24⟩
/-- Register CFG_JRN5 (whole word). -/
def F.CFG_JRN5 (i : Nat) : Field := ⟨0x148014 + 0x20 * i, 0, 32⟩
/-- Register CFG_JRN6 (whole word). -/
def F.CFG_JRN6 (i : Nat) : Field := ⟨0x148018 + 0x20 * i, 0, 32⟩
/-- Register CFG_JRN7 (whole word). -/
def F.CFG_JRN7 (i : Nat) : Field := ⟨0x14801C + 0x20 * i, 0, 32⟩
/-- Register ALM_CFG (whole word). -/
def F.ALM_CFG : Field := ⟨0x150000, 0, 32⟩
def F.ALM_CFG_EN : Field := ⟨0x150000, 0, 1⟩
def F.ALM_CFG_GROUP_EN : Field := ⟨0x150000, 1, 1⟩
def F.ALM_CFG_GROUP : Field := ⟨0x150000, 2, 8⟩
def F.ALM_CFG_QUEUE : Field := ⟨0x150000, 10, 6⟩
def F.ALM_CFG_REPEAT_S : Field := ⟨0x150000, 16, 8⟩
def F.ALM_CFG_MAX_PER_TICK : Field := ⟨0x150000, 24, 5⟩
/-- Register ALM_CFG2 (whole word). -/
def F.ALM_CFG2 : Field := ⟨0x150004, 0, 32⟩
def F.ALM_CFG2_MERGE_MS : Field := ⟨0x150004, 0, 8⟩
def F.ALM_CFG2_FABRIC_GROUP : Field := ⟨0x150004, 8, 8⟩
def F.ALM_CFG2_MIN_SEV : Field := ⟨0x150004, 16, 2⟩
/-- Register ALM_DEST (whole word). -/
def F.ALM_DEST (i : Nat) : Field := ⟨0x150010 + 4 * i, 0, 32⟩
def F.ALM_DEST_HUB (i : Nat) : Field := ⟨0x150010 + 4 * i, 0, 10⟩
def F.ALM_DEST_VALID (i : Nat) : Field := ⟨0x150010 + 4 * i, 10, 1⟩
/-- Register ALM_STATUS (whole word). -/
def F.ALM_STATUS : Field := ⟨0x150020, 0, 32⟩
def F.ALM_STATUS_NEXT : Field := ⟨0x150020, 0, 8⟩
def F.ALM_STATUS_PENDING : Field := ⟨0x150020, 8, 9⟩
def F.ALM_STATUS_HOLDS : Field := ⟨0x150020, 17, 4⟩
/-- Register ALM_INT_STATUS (whole word). -/
def F.ALM_INT_STATUS : Field := ⟨0x150024, 0, 32⟩
def F.ALM_INT_STATUS_RAISED : Field := ⟨0x150024, 0, 1⟩
def F.ALM_INT_STATUS_RECEIVED : Field := ⟨0x150024, 1, 1⟩
def F.ALM_INT_STATUS_OVERFLOW : Field := ⟨0x150024, 2, 1⟩
/-- Register ALM_INT_EN (whole word). -/
def F.ALM_INT_EN : Field := ⟨0x150028, 0, 32⟩
def F.ALM_INT_EN_RAISED : Field := ⟨0x150028, 0, 1⟩
def F.ALM_INT_EN_RECEIVED : Field := ⟨0x150028, 1, 1⟩
def F.ALM_INT_EN_OVERFLOW : Field := ⟨0x150028, 2, 1⟩
/-- Register ALM_RAISED (whole word). -/
def F.ALM_RAISED : Field := ⟨0x150040, 0, 32⟩
/-- Register ALM_SENT (whole word). -/
def F.ALM_SENT : Field := ⟨0x150044, 0, 32⟩
/-- Register ALM_SUPPRESSED (whole word). -/
def F.ALM_SUPPRESSED : Field := ⟨0x150048, 0, 32⟩
/-- Register ALM_CANCELLED (whole word). -/
def F.ALM_CANCELLED : Field := ⟨0x15004C, 0, 32⟩
/-- Register ALM_DEFERRED (whole word). -/
def F.ALM_DEFERRED : Field := ⟨0x150050, 0, 32⟩
/-- Register ALM_OVERFLOW_DROP (whole word). -/
def F.ALM_OVERFLOW_DROP : Field := ⟨0x150054, 0, 32⟩
/-- Register ALM_MERGED (whole word). -/
def F.ALM_MERGED : Field := ⟨0x150058, 0, 32⟩
/-- Register ALM_RX (whole word). -/
def F.ALM_RX : Field := ⟨0x15005C, 0, 32⟩
/-- Register ALM_LOG (whole word). -/
def F.ALM_LOG (i : Nat) (j : Nat) : Field := ⟨0x151000 + 0x40 * i + 4 * j, 0, 32⟩

end Sys2Proof.Machine
end

