-- ==== Sys2Proof/Machine/State.lean ====
section
/-! DEFINITION. The state of the block as plain data: the two dies, every register, the engines' own state, and the
queue of waiting commands. Where a structure below holds what no register shows, its docstring names the rule. -/

namespace Sys2Proof.Machine

/-- Why a command stops the block. No command of the table does: the type has no constructor that a meaning raises,
and `unreached` is raised by nobody (safe). -/
inductive Fault where
  | unreached
  deriving DecidableEq, Repr

/-- A command the model has no meaning for. -/
inductive Refusal where
  /-- Raised by an arm of `exec` for a command without a meaning yet; safe. -/
  | notModelled (mnemonic : String)
  deriving DecidableEq, Repr

/-- The reset kinds of 00 Table 00-4 that the digital core knows, wider first (01 R23). -/
inductive ResetKind where
  | por | cold | warm | lockkeeper | datapath
  deriving DecidableEq, Repr

/-- The reset in progress, and the straps it samples (01 R21, R24). -/
structure ResetState where
  /-- The core-wide reset in progress (POR, cold or warm), if any. -/
  active : Option ResetKind
  /-- The crystal is lost and holds the core in cold reset (01 R16). -/
  clockLost : Bool
  /-- The port whose hard-reset break holds the core in reset (03 R117). -/
  breakPort : Option Nat
  /-- The tone of a break outlasts the reset it caused, and is ignored until the port's line has been idle (03 R117). -/
  toneLeft : Vector Bool 3
  /-- Start-up BIST is still running or failed (14 R435). -/
  bist : Bool
  deriving DecidableEq, Repr

/-- How a video line is sent (09 R297): its virtual channel, the data types of its packets in order, and whether in burst mode. -/
structure DsiMode where
  vc : Nat
  types : List Nat
  burst : Bool
  deriving DecidableEq, Repr

/-- What leaves the block: the model's own record of it (log 3). Times are not recorded. -/
inductive Out where
  /-- A block on a lane of a trunk port (02 R36). -/
  | block (port lane : Nat) (b : Block)
  /-- A codeword on a lane of a trunk port, whose 20 blocks went before it: its 2,720 line levels (02 R30 to R32, R35). -/
  | codeword (port lane : Nat) (levels : List Int)
  /-- The hub's own half of the handshake in training blocks (02 Table 02-6 event 8). -/
  | hello (port : Nat) (h : PartnerHello)
  /-- PRBS13 on a trunk port at S1: continuous, or one 10 ms burst (02 R46, R47). -/
  | prbs (port : Nat) (burst : Bool)
  /-- The preamble on a lane at a step: its line levels (02 R62). -/
  | preamble (port lane step : Nat) (levels : List Int)
  /-- A test pattern starts on a lane at a test step (02 R76); its levels follow `patternNext` from `patternSeed`. -/
  | pattern (port lane pattern step : Nat)
  /-- Recovered symbols that a far-end loopback sends on, as line levels (02 R77). -/
  | looped (port lane : Nat) (levels : List Int)
  /-- A refresh burst of 256 symbols on a Quiet lane B (02 R70). -/
  | refresh (port : Nat)
  /-- A Towpath frame with its CRC, and its half-bit levels on the line (03 R108, R109). -/
  | towpath (port : Nat) (hdr : Word) (payload : List Byte) (crc : BitVec 16) (line : List Bool)
  /-- The FAST_SWAP pattern (03 R116). -/
  | fastSwap (port : Nat)
  /-- The hard-reset break (03 R117). -/
  | hardBreak (port : Nat)
  /-- U0 of a head-end answers a token of the host (07). -/
  | usbHost (r : UsbReply)
  /-- An action on USB port 0 or 1 (07). -/
  | usbPort (x : Nat) (a : UsbAct)
  /-- An action on the PCI Express link (08). -/
  | pcie (a : PcieAct)
  /-- A display line: how it is sent, and its bytes, or the fill colour as FORMAT has it (09 R297, R300). -/
  | dsiLine (y : Nat) (mode : DsiMode) (bytes : List Byte)
  | dsiFill (y : Nat) (mode : DsiMode) (r g b : Nat)
  /-- A DSI packet in low-power mode (09 R301). -/
  | dsiPacket (vc dt : Nat) (bytes : List Byte)
  /-- A frame on a local Ethernet port, with its FCS (09 R304, R308). -/
  | ethFrame (x : Nat) (bytes : List Byte)
  /-- A management frame on MDC/MDIO (09 R302). -/
  | mdio (op phy reg data : Nat)
  /-- A CAN frame starts on a bus (10 R323). -/
  | canFrame (n : Nat) (ide fdf brs : Bool) (id : Nat) (bytes : List Byte)
  /-- A Modbus request (10 R326, R328): server, function, address, count, and the data of a write. -/
  | modbus (u slave func addr count : Nat) (bytes : List Byte)
  /-- The level driven on a field pin, or none where its driver is off (10 R329, R333). -/
  | fioPin (p : Nat) (level : Option Bool)
  /-- The nonce that a capture of UNLOCK_CHAL returns through the test access port (13 R425). -/
  | unlockNonce (nonce : BitVec 256)
  /-- The level of the PWR_EN ball (15 R463). -/
  | pwrEn (high : Bool)
  /-- A flash command: read, program, erase of a sector or of a block, with its offset and bytes (16 R488, R489). -/
  | flash (op addr : Nat) (bytes : List Byte)
  /-- The answer to a read through I2C0 (16 R477). -/
  | i2c (value : Word)
  deriving DecidableEq, Repr

/-- How far the port's own proposal of a rate shift has come (02 R57). -/
inductive ProposalPhase where
  | decided | requested | committed | cancelling
  deriving DecidableEq, Repr

/-- A rate shift this end proposed (02 R57). -/
structure Proposal where
  phase : ProposalPhase
  target : Nat
  start : Nat
  cause : Nat
  /-- N, the own span at which the transmitter switches. -/
  spanN : Nat
  /-- M, the partner's span, from its ACC. -/
  spanM : Nat
  txDone : Bool
  rxDone : Bool
  /-- It has failed on a lane, which is recorded (R64). -/
  failed : Bool
  deriving DecidableEq, Repr

/-- A rate shift of the partner that this end accepted (02 R57 step 2). -/
structure Acceptance where
  target : Nat
  start : Nat
  /-- M, the own span at which the transmitter switches. -/
  spanM : Nat
  /-- N, the proposer's span. -/
  peerN : Nat
  committed : Bool
  txDone : Bool
  rxDone : Bool
  /-- It has failed on a lane, which is recorded (R64). -/
  failed : Bool
  deriving DecidableEq, Repr

/-- The hold-off against a step (02 R53): its doublings, when the last shift from the step began it, and when it ends. -/
structure Holdoff where
  step : Nat
  exp : Nat
  last : Nat
  until_ : Nat
  deriving DecidableEq, Repr

/-- The wait between bring-up attempts (02 R42, R48, R49). -/
inductive BringupWait where
  | none | oneSecond | sixtySeconds
  deriving DecidableEq, Repr

/-- What a trunk port's PCS and lanes hold beside their registers (02). -/
structure Trk where
  /-- Bring-ups that failed or ended in loss within 60 s, in succession (R49). -/
  fails : Nat
  wait : BringupWait
  /-- When the link last came up. -/
  upAt : Nat
  /-- The frequency offset measured, in ppm (R42). -/
  ppm : Int
  /-- The step that the receiver runs at, and the precoding settings that this end advertised (R32, R57). -/
  rxStep : Nat
  sentPrecode : BitVec 5
  own : Option Proposal
  resp : Option Acceptance
  /-- A REF to send in the next marker: reason, the N it answers and the target step (R39, R57, R58). -/
  refuse : Option (Nat × Nat × Nat)
  /-- The REQ last answered: its N and target step (R57). -/
  answered : Option (Nat × Nat)
  /-- The last marker taken in (R39). -/
  lastMarker : Option Marker
  /-- Span number of the receive direction (R37), and whether a marker has set it since the link came up. -/
  rxSpan : Nat
  rxSeen : Bool
  /-- Quality-driven down shifts failed in succession (R59). -/
  downFails : Nat
  /-- When an up shift of the partner was last accepted (R58 RATE). -/
  lastUpAccept : Option Nat
  /-- When the last budget-caused shift was proposed (R54). -/
  lastBudgetShift : Option Nat
  holdoffs : List Holdoff
  /-- A command shift that the budget cap requires and that waits for the 500 ms of R54: its target (R65). -/
  cmdTarget : Option Nat
  /-- A write of a step limit has excluded the current step, and no shift has followed yet (R78). -/
  limitDue : Bool
  /-- Post-equaliser SNR of steps 1 to 5 per lane, predicted by the last snapshot, and the SNR now, in 0.125 dB (R50, R51). -/
  snrs : List (List Int)
  snrNow : Vector (Option Int) 2
  /-- Coefficient sets per lane: live and steps 1 to 5, 64 taps each (R50). -/
  coefs : List (List (List (BitVec 16)))
  /-- When the stored coefficients were taken (R73). -/
  coefAt : Option Nat
  /-- The snapshots of the last WET_WINDOW: time, step, insertion loss, (distance, return loss) (R56). -/
  snaps : List (Nat × Nat × Int × List (Nat × Int))
  /-- Transmit lanes as the marker codes them: 0 both, 1 A only, 2 B only. -/
  txLanes : Nat
  rxLanes : Nat
  /-- Rejoin attempts made per lane (R69). -/
  joinTries : Vector Nat 2
  /-- The step at which the PHY keeps its lanes while LNK_CTL.EN has ended the link (R523). -/
  phyStep : Nat
  /-- This direction is about to leave lane B, and a marker has announced it (R70). -/
  qnext : Bool
  qsent : Bool
  /-- This direction is dealt to lane A alone, and lane B carries refresh bursts (R70). -/
  txQuiet : Bool
  /-- MOOR_RDY was sent, and has been received (R72). -/
  moorSent : Bool
  moorSeen : Bool
  /-- Times of the protocol violations of the last second (R74). -/
  violations : List Nat
  /-- PRBS transmission as in bring-up (R46, R47). -/
  training : Bool
  deriving DecidableEq, Repr

/-- A change of a direction's lanes that takes effect at a port block (02 R40, R68 to R71): the control block that is repeated
until then, the span and block, the transmit lanes from there on, the lane that joins with it, and whether lane B goes quiet. -/
structure LaneChange where
  ctl : Option Block
  span : Nat
  blk : Nat
  lanes : Nat
  joins : Option LaneId
  quiet : Bool
  deriving DecidableEq, Repr

/-- The coding of one lane of a port (02 R30, R35, R36, R52). -/
structure PcsLane where
  /-- The blocks of the codeword in progress, oldest first. -/
  fill : List Block
  /-- The last 58 scrambled bits sent and received, newest first. -/
  scr : List Bool
  descr : List Bool
  /-- Blocks received that wait for the other lane's, none for one of an uncorrectable codeword. -/
  got : List (Option Block)
  /-- Codewords received, and the numbers of the uncorrectable ones among the last 1,000. -/
  count : Nat
  bad : List Nat
  deriving DecidableEq, Repr

/-- The PCS of a port (02 R34 to R41, R75 to R77). -/
structure Pcs where
  lane : Vector PcsLane 2
  /-- Number within the span of the port block that goes next (R37). -/
  blk : Nat
  /-- Blocks that wait for the span's or the new rate's first block (R37, R62). -/
  waiting : List Block
  /-- Blocks since the last filler (R41). -/
  sinceFiller : Nat
  change : Option LaneChange
  /-- Blocks received in port order and not yet taken by their command. -/
  rxq : List Block
  /-- Span and number within it of the port block that the receiver puts in order next (R36, R37), and the change of the partner's
  dealing that a lane control block has named: its span, block and lanes (R40). -/
  rxSpan : Nat
  rxBlk : Nat
  rxChange : Option (Nat × Nat × Nat)
  /-- The last symbols of the test generator and of the checker (R76). -/
  gen : List Nat
  chk : List Nat
  deriving DecidableEq, Repr

/-- A barge held in the replay buffer in plaintext (03 R92). -/
structure Outstanding where
  lseq : Nat
  barge : Barge
  deriving DecidableEq, Repr

/-- One descriptor in a virtual output queue (05 R169, R179): a copy of a stored barge with what lookup decided (04 R128). -/
structure Desc where
  sid : Nat
  inPort : Nat
  outPort : Nat
  queue : Nat
  channel : Nat
  hops : Nat
  /-- The arrival stamp (R169). -/
  frame : Nat
  subns : Nat
  /-- Tunnel map or group index used, with its stamped generation. -/
  tun : Option (Nat × Nat)
  /-- The tunnel map entry that a multicast of this hub came by, with its stamped generation. -/
  orig : Option (Nat × Nat)
  isGroup : Bool
  /-- The tunnel map entry that delivers to a local adapter, with its stamped generation. -/
  dstTun : Option (Nat × Nat)
  route : Option (Nat × Nat)
  /-- MODE decided at lookup, for a barge that the tunnel map sends to a local adapter. -/
  mode : Nat
  strict : Bool
  /-- CMARK set by RED for this copy. -/
  mark : Bool
  copy : Bool
  weir : Option Nat
  retx : Bool
  /-- Counted in SCH_GUARD_HOLD as head (06 R209). -/
  guarded : Bool
  deriving DecidableEq, Repr

/-- A barge the port has taken from the crossbar and not yet begun to send (03 R98), with its descriptor: it is tested again as it
leaves (04 R129, R130). -/
structure TxBarge where
  desc : Desc
  barge : Barge
  deriving DecidableEq, Repr

/-- What a port's link layer holds beside its registers (03 R86 to R107). -/
structure Lnk where
  replay : List Outstanding
  /-- LSEQs still to be sent again, held with the epoch (R95, R107). -/
  resend : List Nat
  txq : List TxBarge
  /-- Barges delivered by the link and not yet looked up (03 R93, 04 R131). -/
  rxq : List Barge
  /-- When the outstanding NAK was sent (R93). -/
  nakAt : Option Nat
  /-- LSEQ and cause of the last NAK sent (R97). -/
  naked : Option (Nat × Nat)
  /-- Replay timer expiries in succession with no advance of ACKED (R97). -/
  expiries : Nat
  /-- Barges accepted since the last acknowledgement sent (R94). -/
  unacked : Nat
  /-- The partner's KE_SPAN and epoch while its change is announced (R106). -/
  partnerKe : Option (Nat × Nat)
  /-- A receive key of the old epoch is still kept (R106). -/
  oldRxKey : Bool
  /-- The partner's transmit epoch, from its markers. -/
  partnerEpoch : Nat
  /-- Barges wait for a new admission (13 R415, R421). -/
  awaitsAdmission : Bool
  /-- Blocks of each barge that the link layer has received since DP was found off (15 R456). -/
  cold : List Nat
  /-- The link was asked for a new epoch and the key store has not answered (R107). -/
  epochAsked : Bool
  hbCount : Nat
  /-- Next DSEQ, and the outstanding DELAY_REQ with its T1 (R103, 04 R159). -/
  dseq : Nat
  delayReq : Option (Nat × Nat)
  /-- Partner identity from the last heartbeat: hub ID when valid. -/
  partnerId : Option Nat
  partnerLevel : Nat
  /-- Times of tag failures within the last second (13 R422). -/
  tagFails : List Nat
  deriving DecidableEq, Repr

/-- A Towpath frame: header of 03 Table 03-7 and payload. -/
structure TpFrame where
  hdr : Word
  payload : List Byte
  deriving DecidableEq, Repr

/-- The stage of a Towpath request under 03 Table 03-11 and R522. -/
inductive TpStage where
  | first | retry1 | retry2 | status0 | status1 | status2 | waitRestart | soft0 | soft1 | soft2 | again0 | again1 | again2
  deriving DecidableEq, Repr

/-- An outstanding Towpath request (03 R112, R114, R522). -/
structure TpRequest where
  frame : TpFrame
  /-- Sent by the firmware through the mailbox commands. -/
  fw : Bool
  /-- Covered by escalation (R114), otherwise by R522. -/
  escalates : Bool
  stage : TpStage
  /-- Waits of event 6 taken. -/
  waits : Nat
  /-- SEQ of the STATUS or RESET_SOFT that the escalation has outstanding. -/
  escSeq : Nat
  deriving DecidableEq, Repr

/-- What a port's Towpath engine holds beside its registers (03 R108 to R119). -/
structure Tp where
  nextSeq : Nat
  requests : List TpRequest
  /-- Last request SEQ and answer per class (R112). -/
  answers : List (Nat × Nat × TpFrame)
  /-- Frames waiting to be sent (R110), with the collisions of the head frame. -/
  txq : List TpFrame
  collisions : Nat
  backoff : Option Nat
  mailboxFull : Bool
  /-- The partner's HELLO: role and power capability bits of byte 10 (Table 03-9). -/
  partnerCaps : Nat
  /-- The partner's device serial from its HELLO. -/
  partnerSerial : Nat
  /-- Frames for the Lockkeeper's own exchanges (power, KEYX, ALARM_RELAY) taken from the mailbox. -/
  seenAt : Nat
  deriving DecidableEq, Repr

def Trk.reset : Trk := {
  fails := 0, wait := .none, upAt := 0, ppm := 0, rxStep := 0, sentPrecode := 0, own := none, resp := none, refuse := none, answered := none, lastMarker := none, rxSpan := 0
  rxSeen := false, downFails := 0, lastUpAccept := none, lastBudgetShift := none, holdoffs := [], cmdTarget := none, limitDue := false
  snrs := [], snrNow := Vector.replicate 2 none, coefs := [], coefAt := none, snaps := [], txLanes := 0, rxLanes := 0
  joinTries := Vector.replicate 2 0, phyStep := 0, qnext := false, qsent := false, txQuiet := false, moorSent := false
  moorSeen := false, violations := [], training := false }

/-- A lane's coding before its first block: the scrambler and descrambler hold zeros (log 79). -/
def PcsLane.reset : PcsLane := {
  fill := [], scr := List.replicate 58 false, descr := List.replicate 58 false, got := [], count := 0, bad := [] }

def Pcs.reset : Pcs := {
  lane := Vector.replicate 2 PcsLane.reset, blk := 0, waiting := [], sinceFiller := 0, change := none, rxq := [], rxSpan := 0, rxBlk := 0
  rxChange := none, gen := [], chk := [] }

def Lnk.reset : Lnk := {
  replay := [], resend := [], txq := [], rxq := [], nakAt := none, naked := none, expiries := 0, unacked := 0, partnerKe := none
  oldRxKey := false, partnerEpoch := 0, awaitsAdmission := false, cold := [], epochAsked := false, hbCount := 0, dseq := 0, delayReq := none
  partnerId := none, partnerLevel := 0, tagFails := [] }

def Tp.reset : Tp := {
  nextSeq := 0, requests := [], answers := [], txq := [], collisions := 0, backoff := none, mailboxFull := false
  partnerCaps := 0, partnerSerial := 0, seenAt := 0 }

/-- The state of one tunnel beside its state words (04 R138 to R143, 03 R85). -/
structure Tun where
  id : Nat
  /-- Outstanding RELIABLE barges: TSEQ and the store entry that keeps their cells (04 R139, 05 R177). -/
  outs : List (Nat × Nat)
  /-- TSEQ of the latest SYNC sent, and how many were sent since TX_SYNCED was last clear. -/
  syncSeq : Option Nat
  syncs : Nat
  nakOut : Bool
  /-- When the last OUT_OF_WINDOW was sent (R140). -/
  oowAt : Option Nat
  /-- In-order barges received since the last ACK (R140). -/
  sinceAck : Nat
  /-- Barges sent since the last one with ACKREQ (R139). -/
  sinceAckreq : Nat
  /-- The open message: its bytes and the TSEQ that continues it (03 R85). -/
  openMsg : Option (List Byte × Nat)
  /-- No barge has been taken in order since the last SYNC: a SYNC of the same TSEQ repeats it (R138). -/
  quiet : Bool
  deriving DecidableEq, Repr

/-- A request that the target has out on its local link (08 R269, R272), or whose writes a held commit delays (04 R126). -/
structure TgtReq where
  tunnel : Nat
  tag : Nat
  write : Bool
  posted : Bool
  fwa : Nat
  deriving DecidableEq, Repr

/-- A barge delivered to the Lockkeeper's port, with its ingress port. -/
structure P8Barge where
  inPort : Nat
  barge : Barge
  deriving DecidableEq, Repr

/-- The part of an access that one message answers: the access, where the part lies in it, and where in the message. -/
structure PieceUser where
  acc : Nat
  pos : Nat
  off : Nat
  len : Nat
  deriving DecidableEq, Repr

/-- A part of an access of the own host or drive into the hub's own spaces (08 R266): its number, its range with the attributes at issue,
its extent, whether it is issued again (08 R277) or fills a prefetch buffer (08 R270), and whom a read answers. -/
structure OwnPiece where
  acc : Nat
  rng : Nat
  fwa : Nat
  len : Nat
  sideEffect : Bool
  posted : Bool
  drive : Bool
  again : Bool
  fill : Bool
  users : List PieceUser
  deriving DecidableEq, Repr

/-- What an access at the path belongs to, and what is left of it beyond its words: nothing; a part of an access through one of the own
ranges; a request of the fabric that is answered as it ends (08 R268); or a MGMT request, its operations still to come and its answer
so far (16 R480). -/
inductive AccessOf where
  | plain
  | range (p : OwnPiece)
  | window (r : TgtReq)
  | mgmt (x : P8Barge) (ops : List (List Byte)) (answer : List Byte)
  deriving DecidableEq, Repr

/-- An access at the register access path (16 R477, R484): who makes it, a read or a write of some bytes from a byte offset,
and whether the requester is answered. A write that R126 holds is one, from the word on whose commit is held, with the greatest
RESULT of its words before; and so is an access that waits behind it. -/
structure PathAccess where
  req : Requester
  write : Bool
  off : Nat
  len : Nat
  data : List Byte
  answered : Bool
  worst : Nat
  of_ : AccessOf
  deriving DecidableEq, Repr

/-- What route choice sees of the trunks (R149, R150): the routable ports, FAB_BROKEN and FAB_EXIT_LOST. -/
structure RouteMasks where
  routable : Nat
  broken : Nat
  exitLost : Nat
  deriving DecidableEq, Repr

/-- The second word of a tunnel state entry as it stood when a requester read the first (R163). -/
structure TunnelSnap where
  source : Fin 6
  hub : Option (BitVec 10)
  entry : Nat
  word : Word
  time : Nat
  deriving DecidableEq, Repr

/-- A time master's key as a port carries it: MASTER_SRC, MASTER_ID, MASTER_HOPS (04 R156). -/
structure MasterKey where
  src : Bool
  id : Nat
  hops : Nat
  deriving DecidableEq, Repr

/-- The fabric forwarding block beside its registers and tables (04). -/
structure Fab where
  tuns : List Tun
  /-- When each table entry was last committed, by the offset of its committing word (R126). -/
  commits : List (Nat × Nat)
  held : Option PathAccess
  /-- Accesses that wait for the path behind a held commit (16 R484). -/
  waiting : List PathAccess
  /-- The source last served by the path (16 R484). -/
  served : Nat
  /-- Second words that first words read less than 1 µs ago have latched, newest first (R163). -/
  tstate : List TunnelSnap
  /-- The port was routable and has been lost: its next admission starts a wait-to-restore (R154). -/
  hadLoss : Vector Bool 3
  /-- The hub's own protection bit of the port is held (R526). -/
  ownLost : Vector Bool 3
  /-- Restore notices of the port still to send (R154). -/
  restoreLeft : Vector Nat 3
  /-- The walk of the queues toward the port runs: what route choice saw before the port was lost (R155). -/
  walking : Vector (Option RouteMasks) 3
  /-- Groups and the time of their last PARTIAL_REFUSED (R148). -/
  refusedAt : List (Nat × Nat)
  /-- The key of each port, with its frame (R156). -/
  keys : Vector (Option MasterKey) 3
  /-- Ticks in succession with |e| below 100 ns (R160). -/
  syncTicks : Nat
  /-- The steering in ppb (R158, R160): by how much it changes is a free value (log 2). -/
  steer : Int
  /-- The part of a nanosecond of fabric time that has passed, in 10^-9 ns (R158). -/
  phase : Nat
  /-- The last five delays of each port, newest first (R159). -/
  delays : Vector (List Int) 3
  /-- U0 has received start-of-frame without a break (R156), and the tick follows it (R157). -/
  hostSof : Bool
  sofLocked : Bool
  /-- MASTER_ID and MASTER_HOPS of the masters that the hub was locked to and has not reported lost, the latest first (14 R445). -/
  followed : List (Nat × Nat)
  annSeq : Nat
  annSeen : List (Nat × Nat × Nat)
  deriving DecidableEq, Repr

def Fab.reset : Fab := {
  tuns := [], commits := [], held := none, waiting := [], served := 5, tstate := [], hadLoss := Vector.replicate 3 false
  ownLost := Vector.replicate 3 false, restoreLeft := Vector.replicate 3 0, walking := Vector.replicate 3 none
  refusedAt := [], keys := Vector.replicate 3 none, syncTicks := 0, steer := 0, phase := 0, delays := Vector.replicate 3 []
  hostSof := false, sofLocked := false, followed := [], annSeq := 0, annSeen := [] }

/-- A barge in basin memory, stored once (05 R164, R179). -/
structure Stored where
  sid : Nat
  barge : Barge
  inPort : Nat
  cells : Nat
  /-- The numbers of its cells, in the order of its words (R525). -/
  place : List Nat
  refs : Nat
  /-- The RELIABLE tunnel that keeps the cells until acknowledgement (R177). -/
  retained : Option Nat
  /-- A TACK, LCTL or ALARM barge (R172). -/
  ctrl : Bool
  deriving DecidableEq, Repr

/-- A barge that its port holds and offers again (05 R173, 06 R204). -/
structure HeldBarge where
  barge : Barge
  copies : List Desc
  retain : Option Nat
  /-- Red at a DROP_RED weir, to be metered again (06 R204), with the colour offered. -/
  red : Bool
  offered : BitVec 2
  /-- Counted in SWC_CTRL_OVER (05 R172). -/
  counted : Bool
  deriving DecidableEq, Repr

/-- A sampler's counters (05 R189, R190): eligible barges, record number, records lost since the last delivered. -/
structure Sampler where
  count : Nat
  seq : Nat
  lost : Nat
  deriving DecidableEq, Repr

/-- What the tunnel engine has yet to place: a TACK charged to a port that holds a barge (05 R173), or a TACK or a retransmission of a
stored barge whose new egress waits for a walk (04 R155). -/
inductive Later where
  | tack (inPort : Nat) (b : Barge)
  | resend (tunnel sid : Nat)
  deriving DecidableEq, Repr

/-- The switch core and its ports beside their registers (05). -/
structure Swc where
  store : List Stored
  /-- Every virtual output queue, in one list by arrival: a queue is the descriptors of its triple, in order. -/
  voqs : List Desc
  nextSid : Nat
  /-- Grants that no ingress has accepted: the egress and the barge, which it keeps as its choice (R183). -/
  kept : List (Nat × Nat)
  /-- RED averages of (egress, queue) in 1/256 cell (R174). -/
  avg : List ((Nat × Nat) × Nat)
  /-- Generators that have drawn: number and state (R524); any other holds its seed. -/
  lfsr : List (Nat × Nat)
  samplers : Vector Sampler 16
  held : Vector (Option HeldBarge) 10
  offers : Vector (List Offer) 10
  /-- Barges the Lockkeeper has handed to P8, each with the trunk port of an LCTL barge. -/
  p8out : List (Barge × Option Port)
  /-- Barges delivered to P8. -/
  p8in : List P8Barge
  /-- Barges delivered to P9: channel and barge (R192). -/
  p9in : List (Nat × Barge)
  /-- Open multicast messages by (port, group, sender): their bytes and the TSEQ that continues them (03 R85). -/
  openMc : List ((Nat × Nat × Nat) × (List Byte × Nat))
  /-- Messages delivered to the adapters P3 to P7, by port. -/
  inbox : Vector (List Msg) 10
  /-- TACKs and retransmissions that wait for a walk or for their port, in order. -/
  later : List Later
  deriving DecidableEq, Repr

def Swc.reset : Swc := {
  store := [], voqs := [], nextSid := 0, kept := [], avg := [], lfsr := [], samplers := Vector.replicate 16 ⟨0, 0, 0⟩
  held := Vector.replicate 10 none, offers := Vector.replicate 10 [], p8out := [], p8in := [], p9in := [], openMc := []
  inbox := Vector.replicate 10 [], later := [] }

/-- A shaper's credit or a weir's bucket (06 R199, R203) in units of 1/500,000 byte, as it stood at a time; it rises by
its rate field per ns. -/
structure Credit where
  c : Int
  time : Nat
  deriving DecidableEq, Repr

/-- A gate list in progress (06 R206): fabric times in ns at which the present cycle and the present entry began. -/
structure GateRun where
  running : Bool
  cycleAt : Nat
  entryAt : Nat
  deriving DecidableEq, Repr

/-- The scheduler beside its registers (06 R194 to R211). A credit that is not listed stands at its burst. -/
structure Sch where
  /-- Virtual time per port (R197). -/
  vt : Vector Nat 10
  /-- Finish tag of the head of (port, queue), with the w_eff it was computed from. -/
  tags : List ((Nat × Nat) × (Nat × Nat))
  lastTags : List ((Nat × Nat) × Nat)
  queueCredit : List ((Nat × Nat) × Credit)
  portCredit : List (Nat × Credit)
  bulkCredit : List (Nat × Credit)
  /-- Weirs committed: Tc and Tp (R203, R205). -/
  weirs : List (Nat × (Credit × Credit))
  gates : Vector GateRun 10
  /-- The snapshot that the readback registers show, by offset (R223). -/
  snap : List (Nat × Word)
  deriving DecidableEq, Repr

def Sch.reset : Sch := {
  vt := Vector.replicate 10 0, tags := [], lastTags := [], queueCredit := [], portCredit := [], bulkCredit := [], weirs := []
  gates := Vector.replicate 10 ⟨false, 0, 0⟩, snap := [] }

/-- The budget governor beside its registers (06 R212 to R222). -/
structure Bud where
  /-- The effects row in force, as it stood at the last tick (R224). -/
  row : Word
  /-- The eight effects rows, and the thresholds of the power input with their HYST, as the last tick read them (R224). -/
  rows : Vector Word 8
  thr : List Nat × Nat
  /-- A tick has computed a level since the reset (R215; 12 R388). -/
  ticked : Bool
  /-- When CAP_BUDGET last changed (R218). -/
  capAt : Nat
  /-- UTIL of the frame before the freeze began, and ticks frozen (R214). -/
  frozen : Option (Nat × Nat)
  /-- UTIL as the last tick formed it (R212). -/
  util : Nat
  /-- Ticks since the rows in force last had each channel's SHED bit set (R222). -/
  clearFor : Vector Nat 4
  /-- Mean power of each channel in the last 100 frames, 100 mW, newest first (R221). -/
  chanPower : Vector (List Nat) 4
  deriving DecidableEq, Repr

def Bud.reset : Bud := {
  row := 0x0088_1085#32
  rows := #v[0x0088_1085#32, 0x0088_0C85#32, 0x0086_0865#32, 0x0094_0445#32, 0x0012_0244#32, 0x0021_0124#32, 0x0030_8113#32, 0x0070_210A#32]
  thr := ([50, 60, 70, 80, 88, 94, 98], 5), ticked := false, capAt := 0, frozen := none, util := 0, clearFor := Vector.replicate 4 0, chanPower := Vector.replicate 4 [] }

/-- Transfer type of a USB endpoint (07 R233). -/
inductive UsbKind where
  | control | iso | bulk | interrupt
  deriving DecidableEq, Repr

/-- An endpoint as one end of the proxy keeps it (07 R233, R236 to R241). -/
structure UsbEp where
  ep : Nat
  dirIn : Bool
  kind : UsbKind
  maxPacket : Nat
  interval : Nat
  burst : Nat
  streams : Nat
  iface : Nat
  alt : Nat
  /-- Packets held: at a head-end IN data not yet taken by the host, at a field hub OUT data not yet taken by the device. -/
  buf : List (List Byte)
  /-- OUT packets that the head-end has accepted and that are not yet delivered. -/
  taken : Nat
  /-- Packets asked of the field hub and not yet arrived. -/
  asked : Nat
  halted : Bool
  /-- This end's toggle or sequence number (R240). -/
  seq : Nat
  stream : Option Nat
  /-- The host was answered NRDY, or NumP 0, and waits for ERDY. -/
  nrdy : Bool
  /-- At a head-end: the first packet held was given to the host, which has not yet acknowledged it (R240). -/
  given : Bool
  /-- At a head-end: EP_RESET has come for a request whose status stage is still held, and so many packets held are older. -/
  stale : Option Nat
  /-- At a field hub: packets held that the device has not yet answered, and its last NumP (R241). -/
  sent : Nat
  numP : Nat
  deriving DecidableEq, Repr

/-- What one end of the proxy keeps of a device. -/
structure UsbDev where
  eps : List UsbEp
  /-- The open control transfer: its setup bytes, the data stage gathered so far, and at a head-end the remote result. -/
  setup : Option (List Byte)
  data : List Byte
  result : Option Nat
  /-- At a field hub: the stage that runs on the device, and the bytes its data stage has moved (Table 07-4). -/
  phase : Option UsbStage
  moved : Nat
  /-- The configuration descriptors in the snooping buffer by index, newest first, the configuration in force (R233), and LPM
  support from the BOS descriptor. -/
  configs : List (Nat × List Byte)
  active : Nat
  lpm : Bool
  /-- bMaxPacketSize0 as the device descriptor has shown it (R235); 0 while none has passed. -/
  ep0 : Nat
  /-- Isochronous data: delivery microframe, endpoint, data (R245). -/
  iso : List (Nat × Nat × List Byte)
  /-- Messages for a suspended device, with their tunnels (R246). -/
  waiting : List (Nat × Word × List Byte)
  /-- When the last remote wake and the last host resume came (R249). -/
  wakeAt : Option Nat
  resumeAt : Option Nat
  /-- Suspended with the host's link to U0, or with the level-1 port above it (R246). -/
  byHub : Bool
  /-- RESUME_DONE has come before the resume time that USB requires (R246). -/
  resumed : Bool
  /-- U1 and U2 timeouts that the host has written (R247). -/
  u1 : Nat
  u2 : Nat
  deriving DecidableEq, Repr

def UsbDev.empty : UsbDev := {
  eps := [], setup := none, data := [], result := none, phase := none, moved := 0, configs := [], active := 0, lpm := false, ep0 := 0, iso := [], waiting := []
  wakeAt := none, resumeAt := none, byHub := false, resumed := false, u1 := 0, u2 := 0 }

/-- A physical downstream port beside its registers. -/
structure UsbPhys where
  dev : UsbDev
  /-- U1 and U2 timeouts (R247). -/
  u1 : Nat
  u2 : Nat
  /-- SOF_OFS (R244). -/
  sofOfs : Nat
  ssHold : Bool
  resetting : Bool
  /-- The tunnel was lost: CONNECT follows once it has synchronised again (R254). -/
  lost : Bool
  deriving DecidableEq, Repr

def UsbPhys.reset : UsbPhys := { dev := UsbDev.empty, u1 := 0, u2 := 0, sofOfs := 0, ssHold := false, resetting := false, lost := false }

/-- A downstream port of the level-1 hub that carries a level-2 hub, on one tree (R227): LINK as USB_STATUS.U0_LINK, and
wPortChange. -/
structure VPort where
  power : Bool
  enabled : Bool
  link : Nat
  change : Nat
  deriving DecidableEq, Repr

/-- One copy of a virtual hub (R227): 0 is the level-1 hub, L the level-2 hub on level-1 port L. -/
structure VHub where
  hub : Nat
  ss : Bool
  addr : Nat
  configured : Bool
  /-- Features that the host has set: remote wake, U1 and U2. -/
  rwake : Bool
  u1 : Bool
  u2 : Bool
  /-- Its control pipe: the request, and what is left of the answer. -/
  pipe : UsbDev
  /-- The host waits for ERDY on the status change endpoint. -/
  nrdy : Bool
  /-- The level-1 port that carries a level-2 hub. -/
  up : VPort
  deriving DecidableEq, Repr

/-- A copy of a virtual hub after the reset of its link. -/
def VHub.fresh (hub : Nat) (ss : Bool) : VHub := {
  hub := hub, ss := ss, addr := 0, configured := false, rwake := false, u1 := false, u2 := false, pipe := UsbDev.empty, nrdy := false
  up := { power := false, enabled := false, link := 0, change := 0 } }

/-- The USB adapter beside its registers (07). -/
structure Usb where
  /-- Devices of the port map entries that hold any state, by index. -/
  vports : List (Nat × UsbDev)
  phys : Vector UsbPhys 2
  /-- The virtual hubs that the host has changed (R227). -/
  vhubs : List VHub
  /-- SuperSpeed termination and pull-up presented at U0 (R226). -/
  ssTerm : Bool
  pullUp : Bool
  deriving DecidableEq, Repr

def Usb.reset : Usb := {
  vports := [], phys := Vector.replicate 2 UsbPhys.reset, vhubs := [], ssTerm := false, pullUp := false }

/-- A message of the requester, waiting to be issued or outstanding under a tag (08 R268 to R277). -/
structure WinReq where
  acc : Nat
  tag : Nat
  rng : Nat
  tunnel : Nat
  /-- SIDE_EFFECT and LOCK_CAP of the range at issue. -/
  sideEffect : Bool
  lockCap : Bool
  write : Bool
  posted : Bool
  fwa : Nat
  len : Nat
  data : List Byte
  drive : Bool
  reqId : Nat
  /-- Issued again under R277. -/
  again : Bool
  users : List PieceUser
  /-- Fills a prefetch buffer (R270). -/
  fill : Bool
  deriving DecidableEq, Repr

/-- A read of the host or of a drive whose pieces are not all there. -/
structure WinAccess where
  id : Nat
  drive : Bool
  reqId : Nat
  data : List Byte
  left : Nat
  worst : Nat
  deriving DecidableEq, Repr

/-- A prefetch buffer (08 R270): the range, the bytes it covers and its data; none while it is filling. -/
structure PfBuf where
  rng : Nat
  fwa : Nat
  len : Nat
  data : Option (List Byte)
  deriving DecidableEq, Repr

/-- A barge for a DMA ring or for the staging writer, with the tunnel, group and sender that make up its message; a multicast one has
4,096 in place of the tunnel. -/
structure RingBarge where
  channel : Nat
  key : Nat × Nat × Nat
  reliable : Bool
  barge : Barge
  /-- A SYNC followed it: the message that it leaves open is discarded (04 R138). -/
  cut : Bool
  deriving DecidableEq, Repr

/-- An access of the PCI Express requester: whose it is, what, and through which range it goes (08 R267). -/
structure WinAsk where
  drive : Bool
  reqId : BitVec 16
  write : Bool
  rng : Nat
  fwa : Nat
  len : Nat
  data : List Byte
  deriving DecidableEq, Repr

/-- An access into the hub's own spaces that waits for its turn (08 R269): its number, and what the local link will answer. -/
structure LocalAsk where
  id : Nat
  ask : WinAsk
  link : LinkReply
  deriving DecidableEq, Repr

/-- A message that a receive ring is writing: who sends it, the TSEQ that continues it, its bytes so far, the descriptor that it
writes into and the bytes there, whether that is its first, and CMARK so far (08 R283). -/
structure DmaOpen where
  desc : DmaDesc
  key : Nat × Nat × Nat
  next : Nat
  total : Nat
  off : Nat
  first : Bool
  cmark : Bool
  deriving DecidableEq, Repr

/-- A DMA ring beside its registers: the open message, the completed descriptors not yet signalled, and whether it stops once the
descriptor being written is complete (08 R288). -/
structure DmaRing where
  opened : Option DmaOpen
  unsignalled : Nat
  stopping : Bool
  deriving DecidableEq, Repr

def DmaRing.idle : DmaRing := { opened := none, unsignalled := 0, stopping := false }

/-- A message of channel 0x41 that is open (08 R284): who sends it, the TSEQ that continues it, and its bytes so far. -/
structure StageOpen where
  key : Nat × Nat × Nat
  next : Nat
  bytes : List Byte
  deriving DecidableEq, Repr

/-- A write that the requester has sent: its tag and address, whether it was WR_NP, and the requester kind (08 R276). -/
structure SentWrite where
  tag : Nat
  fwa : Nat
  np : Bool
  drive : Bool
  deriving DecidableEq, Repr

/-- The window bridge beside its registers (08). -/
structure Win where
  /-- The staging memory (R258), in canonical form. -/
  stage : List Host.Cell
  /-- 128-bit words of it whose data is lost (14 R431), by index, each with its location code, until they are written again. -/
  poisoned : List (Nat × Word)
  /-- Messages that wait to be issued, and those outstanding. -/
  queue : List WinReq
  out : List WinReq
  /-- Quarantined tags, each with the lost-read log entry that its late data goes to (R274). -/
  quarantine : List (Nat × Option Nat)
  accesses : List WinAccess
  /-- Accesses into the own spaces that wait for the completion of a non-posted write (R269), oldest first. -/
  locals : List LocalAsk
  nextAccess : Nat
  /-- The tag after the one last used (R277). -/
  nextTag : Nat
  /-- The writes last sent, newest first (R276). -/
  sent : List SentWrite
  /-- Prefetch buffers, most recently used first. -/
  pf : List PfBuf
  /-- The remote lock asked for: hub, space, tunnel (R279). -/
  want : Option (Nat × Nat × Nat)
  backoff : Bool
  /-- Hubs whose next lock answer is for a withdrawn request. -/
  withdrawn : List Nat
  /-- A release that waits for the accesses numbered below it (R281). -/
  releaseAt : Option Nat
  /-- The tunnel of the remote lock held, and those of the holders of REG and MEM of this hub. -/
  lockTunnel : Nat
  holderTunnel : Vector Nat 2
  target : List TgtReq
  barges : List RingBarge
  rings : List (Nat × DmaRing)
  /-- The open messages of the staging writer, by tunnel (03 R85, R284). -/
  stageOpen : List StageOpen
  /-- The writable bits of the root port's own Type 1 header, by word (R259). -/
  rpHdr : Vector Word 16
  /-- The host of an endpoint uses MSI, not MSI-X (R263). -/
  msi : Bool
  /-- The MSI-X table of the endpoint (R264), an entry of 16 bytes for each vector. -/
  msixTable : Vector (BitVec 128) 65
  deriving DecidableEq, Repr

def Win.reset : Win := {
  stage := [], poisoned := [], queue := [], out := [], quarantine := [], accesses := [], locals := [], nextAccess := 0, nextTag := 0, sent := [], pf := [], want := none
  backoff := false, withdrawn := [], releaseAt := none, lockTunnel := 0, holderTunnel := Vector.replicate 2 0, target := []
  barges := [], rings := [], stageOpen := [], rpHdr := Vector.replicate 16 0, msi := false, msixTable := Vector.replicate 65 0 }

/-- A camera stream beside its registers (09 R291 to R295): the frame's stamp, LINE_BYTES once known, the line number that
comes next, and the open segment. -/
structure CsiStream where
  frame : Nat
  subns : Nat
  lineBytes : Option Nat
  firstLine : Nat
  lines : List (List Byte)
  /-- No segment of the frame has been sent yet. -/
  first : Bool
  crcErr : Bool
  lenErr : Bool
  deriving DecidableEq, Repr

def CsiStream.reset : CsiStream := {
  frame := 0, subns := 0, lineBytes := none, firstLine := 0, lines := [], first := true, crcErr := false, lenErr := false }

/-- A video segment buffered for the display (09 R299, R300): its frame, place and lines. -/
structure DsiSegment where
  fcnt : Nat
  frame : Nat
  subns : Nat
  firstLine : Nat
  fs : Bool
  lines : List (List Byte)
  deriving DecidableEq, Repr

/-- The video adapter beside its registers (09). -/
structure Vid where
  csi : Vector CsiStream 4
  /-- The line buffer, oldest first. -/
  buf : List DsiSegment
  /-- The last source frame taken: FCNT and stamp. -/
  shown : Option (Nat × Nat × Nat)
  /-- The display line last started. -/
  line : Nat
  /-- When the display frame last started, in the model's time (R298). -/
  started : Option Nat
  deriving DecidableEq, Repr

def Vid.reset : Vid := { csi := Vector.replicate 4 CsiStream.reset, buf := [], shown := none, line := 0, started := none }

/-- The Ethernet adapter beside its registers (09). -/
structure Eth where
  /-- Frames waiting in the transmit buffers of E0 to E2 (R307). -/
  tx : Vector (List (List Byte)) 3
  /-- When each dynamic learning entry was last refreshed (R306). -/
  seen : List (Nat × Nat)
  /-- Until when a received PAUSE frame holds the transmitter of E0 (R302). -/
  pausedUntil : Nat
  deriving DecidableEq, Repr

def Eth.reset : Eth := { tx := Vector.replicate 3 [], seen := [], pausedUntil := 0 }

/-- What a signal entry keeps beside its state words (10 R317 to R319): when it was last updated, the conditions that make up
its quality, and what it last sent. -/
structure SigState where
  id : Nat
  updated : Option Nat
  sat : Bool
  stale : Bool
  comm : Bool
  sent : Option (Int × Nat)
  deriving DecidableEq, Repr

/-- A UART's queue (10 R326): poll entries queued, the one in progress, its retry taken, the idle time after a broadcast. -/
structure Uart where
  queue : List Nat
  current : Option Nat
  retried : Bool
  quiet : Bool
  deriving DecidableEq, Repr

/-- The field gateway beside its registers (10). -/
structure Fld where
  sigs : List SigState
  /-- Records gathered per tunnel (R312). -/
  batches : List (Nat × List (List Byte))
  /-- Transmit entries whose frame is pending, and the one loaded per controller (R323). -/
  pending : List Nat
  loaded : Vector (Option Nat) 4
  uarts : Vector Uart 2
  /-- Windows in succession with few edges, per pin in CHATTER (R331). -/
  calm : Vector Nat 16
  deriving DecidableEq, Repr

def Fld.reset : Fld := {
  sigs := [], batches := [], pending := [], loaded := Vector.replicate 4 none
  uarts := Vector.replicate 2 { queue := [], current := none, retried := false, quiet := false }, calm := Vector.replicate 16 0 }

/-- A FET thermal model (11 R369, 12 R389): the rises of its two poles in kelvin, exact, its reference temperature as
°C + 64 and whether that sensor is valid. -/
structure FetModel where
  dt1 : Rat
  dt2 : Rat
  tRef : Nat
  valid : Bool
  deriving DecidableEq, Repr

/-- How far the power-good deglitch has come (11 R350): it runs, or power-good waits for the fault timer to stop. -/
inductive Deglitch where
  | off | running | waiting
  deriving DecidableEq, Repr

/-- What the HV die holds of one switched path beside its registers (11 R348 to R350, R368, R369; 12 R379 to R392): the
last samples, the model, the sums of the frame in progress and the energies in units of 62.5 pJ (one µW for one sample). -/
structure PathSw where
  /-- Last sample of the far side (cable or output), mV. -/
  v : Nat
  /-- Last sample of the current, mA, positive out of the rail. -/
  i : Int
  fet : FetModel
  deglitch : Deglitch
  /-- SLOPE in force of the ramp in progress, 0.1 V/ms; none without ramp regulation (R348, R364, R378). -/
  ramp : Option Nat
  /-- The least slope of that ramp: VRAIL / 4 ms for a restore (R364), otherwise 0. -/
  leastRamp : Nat
  count : Nat
  sumV : Nat
  sumI : Int
  sumP : Int
  peak : Nat
  eOut : Nat
  eIn : Nat
  deriving DecidableEq, Repr

def FetModel.reset : FetModel := { dt1 := 0, dt2 := 0, tRef := 64, valid := true }

def PathSw.reset : PathSw := {
  v := 0, i := 0, fet := FetModel.reset, deglitch := .off, ramp := none, leastRamp := 0, count := 0, sumV := 0, sumI := 0, sumP := 0, peak := 0
  eOut := 0, eIn := 0 }

/-- What the HV die holds of a trunk power port beside its registers (11). -/
structure TpwPort where
  sw : PathSw
  /-- The role that a fault ended: 1 source, 2 sink (R351). -/
  prevRole : Nat
  /-- Held open by GO with ROLE 0 (Table 11-2). -/
  heldOpen : Bool
  /-- Valid signatures in a row (R347). -/
  sigHits : Nat
  /-- No probe before this time (R347). -/
  probeFrom : Nat
  /-- Energised by a probe; a fault that the port retries leaves it so (R347). -/
  probed : Bool
  /-- A valid frame of the partner has come since power-good (R347). -/
  heard : Bool
  /-- The port raises the rail before ideal-diode control starts (R344). -/
  raising : Bool
  /-- The gate is below threshold after a reverse turn-off (R342). -/
  reversed : Bool
  deriving DecidableEq, Repr

def TpwPort.reset : TpwPort := {
  sw := PathSw.reset, prevRole := 0, heldOpen := false, sigHits := 0, probeFrom := 0, probed := false, heard := false, raising := false
  reversed := false }

/-- What the HV die holds of a load channel beside its registers (12). -/
structure LdcChan where
  sw : PathSw
  /-- Start, FRAME, peak current (mA) and energy (62.5 pJ) of the ramp in progress (R392). -/
  rampAt : Nat
  rampFrame : Option Nat
  rampPeak : Nat
  rampEnergy : Nat
  /-- Power-good has asserted since the channel last began a ramp (06 R214). -/
  good : Bool
  /-- Ramping and faulted at any time in the frame in progress (R391). -/
  sawRamp : Bool
  sawFault : Bool
  /-- The ramp in progress went straight to full enhancement (R378). -/
  direct : Bool
  deriving DecidableEq, Repr

def LdcChan.reset : LdcChan := {
  sw := PathSw.reset, rampAt := 0, rampFrame := none, rampPeak := 0, rampEnergy := 0, good := false, sawRamp := false, sawFault := false, direct := false }

/-- A power offer (11 Table 11-5), sent or received. -/
structure PwrOffer where
  w : Nat
  i : Nat
  hint : Nat
  frsOk : Bool
  revised : Bool
  fixed : Bool
  id : Nat
  deriving DecidableEq, Repr

/-- A role swap in progress (11 R358): which end this is, whether the accepting SWAP_ACK has ended, whether 2.0 ms of the
schedule have passed, and whether a valid frame of the partner has arrived since. -/
structure Swap where
  newSource : Bool
  started : Bool
  late : Bool
  heard : Bool
  deriving DecidableEq, Repr

/-- What the core holds of trunk power (11 R341, R353 to R361). -/
structure Pwr where
  sent : Vector (Option PwrOffer) 3
  got : Vector (Option PwrOffer) 3
  swap : Vector (Option Swap) 3
  deriving DecidableEq, Repr

def Pwr.reset : Pwr := { sent := Vector.replicate 3 none, got := Vector.replicate 3 none, swap := Vector.replicate 3 none }

/-- A key slot (13 R403, R405, R406): two shares, the salt of its epoch, and its metadata. -/
structure Slot where
  valid : Bool
  active : Bool
  engines : Nat
  origin : Nat
  bindMeas : Bool
  version : Nat
  share : Key256
  mask : Key256
  salt : Word
  deriving DecidableEq, Repr

/-- How far a port's admission has come (13 R415 to R418). -/
inductive AdmitPhase where
  | idle | helloSent | confirmSent | helloAnswered | backoff
  deriving DecidableEq, Repr

/-- A port's admission engine (13 R415 to R418). -/
structure Admission where
  phase : AdmitPhase
  ownNonce : Key256
  ownHello : List Byte
  peerHello : List Byte
  /-- The FLR chosen: its key and whether it is L's previous one (R416). -/
  chosen : Option (Key256 × Bool)
  /-- Consecutive failures (R418). -/
  fails : Nat
  /-- When the back-off ends. -/
  until_ : Nat
  deriving DecidableEq, Repr

def Admission.reset : Admission := {
  phase := .idle, ownNonce := 0, ownHello := [], peerHello := [], chosen := none, fails := 0, until_ := 0 }

/-- A slot with nothing in it. -/
def Slot.empty : Slot := {
  valid := false, active := false, engines := 0, origin := 0, bindMeas := false, version := 0, share := 0, mask := 0, salt := 0 }

/-- The fuses (13 R396 to R398, R414): F1 to F3 in three copies each, of which the majority is read, the owner values (none while unprogrammed) and the
lowest firmware SVN. They outlast every reset. -/
structure Fuses where
  /-- The three copies of each life-cycle fuse F1, F2, F3 (R396). -/
  lc : Vector (BitVec 3) 3
  ownerRoot : Option Key256
  ownerPkh : Option Key256
  svn : Nat
  /-- A root fuse word fails its ECC check when it is read (R398). -/
  rootBad : Bool
  deriving DecidableEq, Repr

/-- The key store beside its registers (13). -/
structure Key where
  slots : Vector Slot 32
  adm : Vector Admission 3
  fuses : Fuses
  /-- The measured key base, while it is valid (R401). -/
  mkb : Option Key256
  /-- The KEY_LC_CMD command in process: TARGET, or 4 for SVN_ADVANCE (R397, R414). -/
  lcCmd : Option Nat
  /-- The provisioning record in process (R409). -/
  prov : Option (List Byte)
  /-- The next re-mask pass is a second pass (R405). -/
  second : Bool
  /-- Private instructions are unlocked until POR (R425). -/
  unlocked : Bool
  /-- The nonce that UNLOCK_CHAL last returned. -/
  challenge : Option Key256
  /-- Consecutive wrong responses, and whether further ones are blocked. -/
  wrong : Nat
  blocked : Bool
  /-- The last good output of the entropy source, or the last one of the generator that it seeds (R426). -/
  seed : Option Key256
  deriving DecidableEq, Repr

def Fuses.reset : Fuses := { lc := Vector.replicate 3 0, ownerRoot := none, ownerPkh := none, svn := 0, rootBad := false }

def Key.reset : Key := {
  slots := Vector.replicate 32 Slot.empty, adm := Vector.replicate 3 Admission.reset, fuses := Fuses.reset, mkb := none
  lcCmd := none, prov := none, second := false, unlocked := false, challenge := none, wrong := 0, blocked := false, seed := none }

/-- An entry of the alarm log (14 Table 14-6 and the log's word 8). `time` is when it was logged, in the model's time. -/
structure AlarmEntry where
  code : Nat
  sev : Nat
  fabric : Bool
  cleared : Bool
  reporter : Option Nat
  subject : Option Nat
  unit : Nat
  hops : Nat
  loc : Nat
  frame : Nat
  subns : Nat
  suppressed : Nat
  seq : Nat
  detail : Nat
  sent : Bool
  pending : Bool
  received : Bool
  localOnly : Bool
  cancelled : Bool
  merged : Nat
  time : Nat
  /-- Its number in the order of logging (R450). -/
  order : Nat
  /-- Destinations that the present sending has served (R448, R449). -/
  copies : Nat
  /-- Counted in ALM_DEFERRED. -/
  deferred : Bool
  deriving DecidableEq, Repr

/-- The alarm block beside its registers (14 R444 to R450). -/
structure Alm where
  /-- The log: index and entry. -/
  log : List (Nat × AlarmEntry)
  seq : Nat
  /-- Entries written since the log was cleared (R450). -/
  logged : Nat
  /-- Last sending per (code, subject, unit, cleared), in the model's time (R449). -/
  lastSent : List ((Nat × Option Nat × Nat × Bool) × Nat)
  /-- Fabric-scope reports on hold: log index and election key (R445). -/
  holds : List (Nat × Nat)
  /-- ALARM barges on their way to P8 that the block has not inspected yet (R447). -/
  rx : List Barge
  /-- Alarm barges sent since the last frame tick (R449). -/
  used : Nat
  deriving DecidableEq, Repr

def Alm.reset : Alm := { log := [], seq := 0, logged := 0, lastSent := [], holds := [], rx := [], used := 0 }

/-- Why the Lockkeeper fails (14 R438), by the code of LKP_STATUS.LAST_CAUSE. -/
inductive LkCause where
  | lockstep | watchdog | ecc | bootTmo | bist | signature
  deriving DecidableEq, Repr

/-- How far a restart of the Lockkeeper has come (14 Table 14-3): none under way; the cores held until event 4; their self-test
(event 5); the ROM and the firmware load (event 6). -/
inductive LkPhase where
  | none | held | bist | load
  deriving DecidableEq, Repr

/-- A MGMT response that is kept for a second (16 R480): requester, TAG, when it was made, the barge. -/
structure KeptResponse where
  hub : Nat
  tag : Nat
  time : Nat
  barge : Barge
  deriving DecidableEq, Repr

/-- A MGMT request relayed to a partner (16 R481): the port, and the request as it came. -/
structure Proxied where
  port : Nat
  request : Barge
  deriving DecidableEq, Repr

/-- The Lockkeeper and its fallback sequencer beside their registers (14 R438 to R442; 15 R454; 16 R480, R481). -/
structure Lkp where
  /-- A failure detected on which the sequencer has not acted yet. -/
  failing : Option LkCause
  phase : LkPhase
  /-- The restart under way was caused by a failure, not by software (R439). -/
  failed : Bool
  /-- When the watchdog last started from zero (R438). -/
  kickAt : Nat
  /-- The cores' clock is gated (15 R454). -/
  gated : Bool
  kept : List KeptResponse
  proxied : List Proxied
  /-- SSEQ of the last attested request accepted in the session (16 R479). -/
  lastSseq : Option Nat
  /-- A start-up failure forbids every admission (R437). -/
  noAdmit : Bool
  /-- A failure with RESTARTS at 3 has started a warm reset: the next one enters HOLD (R440). -/
  escalated : Bool
  deriving DecidableEq, Repr

def Lkp.reset : Lkp := {
  failing := none, phase := .none, failed := false, kickAt := 0, gated := false, kept := [], proxied := [], lastSseq := none
  noAdmit := false, escalated := false }

/-- The power states of the hub beside their registers (15). -/
structure Pst where
  /-- The hub is in Deep sleep (R459). -/
  deep : Bool
  /-- A wake has ended Deep sleep, and DEEP_HOLD_MS has not passed since (R461). -/
  hold : Bool
  /-- OFF was commanded, and PWR_EN falls 1 ms later (R463). -/
  offDue : Bool
  /-- The hub is in Off: PWR_EN is low (R463, R464). -/
  off : Bool
  deriving DecidableEq, Repr

def Pst.reset : Pst := { deep := false, hold := false, offDue := false, off := false }

/-- An entry of the change journal (16 R486, R487). -/
structure JrnEntry where
  seq : Nat
  frame : Nat
  subns : Nat
  source : Nat
  result : Nat
  attested : Bool
  hub : Option (BitVec 10)
  tag : BitVec 16
  addr : Nat
  data : Word
  old : Word
  new : Word
  deriving DecidableEq, Repr

/-- A performance counter (16 R492 to R496): its selection word, value, snapshot and reload value. -/
structure Counter where
  sel : Word
  value : Nat
  snap : Nat
  reload : Nat
  deriving DecidableEq, Repr

/-- The performance counters. A counter that is not listed is off and zero. -/
structure Cnt where
  counters : List (Nat × Counter)
  /-- CNT_OVF_STATUS: counters whose wrap bit is set. -/
  ovf : List Nat
  /-- A counter with SAMPLE_EN has wrapped, and its interrupt is to be taken (R495). -/
  pcDue : Bool
  /-- EDGE counters by number and selection, and whether the bit they name, where other state shows it, last read 1 (R492). -/
  seen : List (Nat × Word × Bool)
  deriving DecidableEq, Repr

def Cnt.reset : Cnt := { counters := [], ovf := [], pcDue := false, seen := [] }

/-- A commit under way (16 R488): the overlay's words, its area and its SEQ. -/
structure CommitJob where
  words : List (Nat × Word)
  area : Nat
  seq : Nat
  deriving DecidableEq, Repr

/-- The image loader and flash access beside their registers (16 R467 to R489). -/
structure Cfg where
  /-- The images are loaded: the load has ended (R473). -/
  loaded : Bool
  /-- A configuration image was accepted, and IMAGE_LOADED has not ended the load. -/
  accepted : Bool
  /-- The IMG words as the signed image and the overlay in use gave them; any other stands at its reset value (R488). -/
  given : List (Nat × Word)
  /-- An overlay is in use. -/
  overlay : Bool
  commit : Option CommitJob
  /-- Words of table entries written and not yet committed, by offset (R485; 04 R125, 06 R205, 08 R266, 10 R336). -/
  staged : List (Nat × Word)
  /-- A commit has read the registers since the load (R488: a later write makes it DIRTY). -/
  committed : Bool
  /-- The flash command under way: operation and offset. -/
  flash : Option (Nat × Nat)
  /-- Bytes streamed into CFG_RECOVERY_BUF for the image in progress, and the firmware image taken so far (R476). -/
  recovery : List Byte
  recoveryFw : Option ImageFile
  /-- Table entries whose data is lost, by the offset of their first word, each with its location (14 R431, Table 14-1). -/
  lost : List (Nat × Word)
  deriving DecidableEq, Repr

def Cfg.reset : Cfg := {
  loaded := false, accepted := false, given := [], overlay := false, commit := none, staged := [], committed := false, flash := none
  recovery := [], recoveryFw := none, lost := [] }

/-- The core die (00 R9): everything the digital core, the PHY and the VAON circuits hold. -/
structure Chip where
  /-- Every register of the core die (01 R5). -/
  regs : RegFile
  /-- The model's own nanosecond count (log 4): windows the spec states in time are measured on it. -/
  now : Nat
  /-- The live sub-frame counter SUBNS (04 R155); the register holds the latched value. -/
  subns : Nat
  /-- The next free value to draw (log 2). Not state of the hardware. -/
  freeCount : Nat
  /-- What has left the hub (log 3). Not state of the hardware. -/
  outbox : List Out
  rst : ResetState
  trk : Vector Trk 3
  /-- The PCS of each trunk port (02). -/
  pcs : Vector Pcs 3
  lnk : Vector Lnk 3
  tp : Vector Tp 3
  /-- Forwarding, tunnels and time (04). -/
  fab : Fab
  /-- The switch core (05). -/
  swc : Swc
  /-- The scheduler, shapers, weirs and gates (06). -/
  sch : Sch
  /-- The budget governor (06). -/
  bud : Bud
  /-- The USB adapter (07). -/
  usb : Usb
  /-- The window bridge (08). -/
  win : Win
  /-- The video adapter (09). -/
  vid : Vid
  /-- The Ethernet adapter (09). -/
  eth : Eth
  /-- The field gateway (10). -/
  fld : Fld
  /-- Offers and swaps of trunk power (11). -/
  pwr : Pwr
  /-- The Lockkeeper and its fallback sequencer (14). -/
  lkp : Lkp
  /-- Power states (15). -/
  pst : Pst
  /-- When the hardware vote's condition of the domains 1 to 9 last ended (15 R453). -/
  voteEnd : Vector (Option Nat) 9
  /-- The performance counters (16). -/
  cnt : Cnt
  /-- Places (32 × offset + bit) of the status bits that events of this command set, for the counters (16 R492). -/
  hits : List Nat
  /-- The change journal, newest first (16 R486). -/
  jrn : List JrnEntry
  /-- Configuration, flash access and recovery (16). -/
  cfg : Cfg
  key : Key
  alm : Alm
  deriving DecidableEq, Repr

/-- The HV die (00 R9): the trunk power and load channel blocks. -/
structure Hv where
  regs : RegFile
  /-- The HV undervoltage lockout holds every switch open (11 R338). -/
  lockout : Bool
  /-- Last sample of the rail, mV (11 R368). -/
  vrail : Nat
  /-- When the preferred feed may hold the 10 mV target (11 R343). -/
  prefFrom : Nat
  tpw : Vector TpwPort 3
  ldc : Vector LdcChan 4
  /-- As `Chip.hits`, for the HV die. -/
  hits : List Nat
  deriving DecidableEq, Repr

/-- The hub: its two dies. -/
structure Hub where
  chip : Chip
  hv : Hv
  deriving DecidableEq, Repr

/-- The block: the hub and the commands that wait, first in, first out. -/
structure State where
  pending : List Instr
  hub : Hub
  deriving DecidableEq, Repr

/-- The core die as a power-on reset asserts (00 R6, R8; 01 R21, R23): every register at its reset value, the internal reset in
progress and start-up BIST to come. The fuses are those of a BLANK part (log 18). -/
def Chip.reset : Chip := {
  regs := [], now := 0, subns := 0, freeCount := 0, outbox := []
  rst := { active := some .por, clockLost := false, breakPort := none, toneLeft := Vector.replicate 3 false, bist := true }
  trk := Vector.replicate 3 Trk.reset, pcs := Vector.replicate 3 Pcs.reset, lnk := Vector.replicate 3 Lnk.reset, tp := Vector.replicate 3 Tp.reset
  fab := Fab.reset, swc := Swc.reset, sch := Sch.reset, bud := Bud.reset, usb := Usb.reset, win := Win.reset, vid := Vid.reset
  eth := Eth.reset, fld := Fld.reset, pwr := Pwr.reset, lkp := Lkp.reset, pst := Pst.reset, voteEnd := Vector.replicate 9 none, cnt := Cnt.reset, hits := [], jrn := []
  cfg := Cfg.reset, key := Key.reset, alm := Alm.reset }

/-- The HV die as its supply has come up (11 R338): every register at its reset value, every switch open. The lockout has ended
(log 19). -/
def Hv.reset : Hv := {
  regs := [], lockout := false, vrail := 0, prefFrom := 0, tpw := Vector.replicate 3 TpwPort.reset
  ldc := Vector.replicate 4 LdcChan.reset, hits := [] }

/-- The block right after a power-on reset, with no command waiting. -/
def State.reset : State := { pending := [], hub := { chip := Chip.reset, hv := Hv.reset } }

end Sys2Proof.Machine
end

