-- ==== Sys2Proof/Machine/Basics.lean ====
section
/-! DEFINITION. Registers and fields of both dies, the outbox, free values, times and what the core's states mean: what the forms of a
meaning rest on. -/

namespace Sys2Proof.Machine

/-! Registers of the core die. -/

def Chip.get (c : Chip) (f : Field) : Nat := c.regs.get f
def Chip.put (c : Chip) (f : Field) (v : Nat) : Chip := { c with regs := c.regs.put f v }

/-- Is a one-bit field set? -/
def Chip.on (c : Chip) (f : Field) : Bool := c.get f == 1

/-- Bit `n` of a field. -/
def Chip.bit (c : Chip) (f : Field) (n : Nat) : Bool := (c.get f).testBit n

/-- Sets or clears bit `n` of a field. -/
def Chip.putBit (c : Chip) (f : Field) (n : Nat) (b : Bool) : Chip := c.put ⟨f.off, f.lo + n, 1⟩ b.toNat

/-- An event sets a status bit (16 R492: the event counts whether or not the bit was set). Marks: DEDUCED, log 21. -/
def Chip.flag (c : Chip) (f : Field) : Chip := { c.put f 1 with hits := c.hits ++ [32 * f.off + f.lo] }

/-- A counter advanced by `k`, and whether it wrapped past 2^48 − 1 (R495): it goes on from 0 or from its reload value. -/
def Counter.advance (x : Counter) (k : Nat) : Counter × Bool :=
  let v := x.value + k
  if v < 2 ^ 48 then ({ x with value := v }, false)
  else ({ x with value := ((if x.sel.getLsbD 27 then x.reload else 0) + (v - 2 ^ 48)) % 2 ^ 48 }, true)

/-- Advances one counter of the list. -/
def Cnt.advance (t : Cnt) (n k : Nat) : Cnt :=
  match t.counters.find? fun x => x.1 == n with
  | none => if k = 0 then t else { t with counters := t.counters ++ [(n, { sel := 0, value := k % 2 ^ 48, snap := 0, reload := 0 })] }
  | some (_, x) =>
    let (y, wrapped) := x.advance k
    { t with
      counters := t.counters.map fun z => if z.1 == n then (n, y) else z
      ovf := if wrapped && !t.ovf.contains n then t.ovf ++ [n] else t.ovf
      pcDue := t.pcDue || (wrapped && x.sel.getLsbD 27) }

/-- An event of the key store counts in a privileged counter, 88 to 95 (16 R494). -/
def Chip.keyCount (c : Chip) (n : Nat) : Chip := { c with cnt := c.cnt.advance n 1 }

/-- A counter that wraps at its width. -/
def Chip.inc (c : Chip) (f : Field) : Chip := c.put f (c.get f + 1)

/-- A counter that wraps, advanced by `n`. -/
def Chip.add (c : Chip) (f : Field) (n : Nat) : Chip := c.put f (c.get f + n)

/-- A counter that saturates at its width. -/
def Chip.incSat (c : Chip) (f : Field) : Chip := c.put f (min (c.get f + 1) (2 ^ f.width - 1))

/-- The word of a table entry as its next commit takes it: the staged one, where one is staged (16 R485).
Marks: DEDUCED, log 29. -/
def Chip.stagedWord (c : Chip) (off : Nat) : Word :=
  match c.cfg.staged.find? fun x => x.1 == off with
  | some (_, w) => w
  | none => c.regs.word off

/-- Stages a word of a table entry. Marks: DEDUCED, log 29. -/
def Chip.stage (off : Nat) (w : Word) (c : Chip) : Chip :=
  { c with cfg := { c.cfg with staged := (c.cfg.staged.filter fun x => x.1 != off) ++ [(off, w)] } }

/-- Commits the staged words among some offsets. Marks: DEDUCED, log 29. -/
def Chip.commitStaged (offs : List Nat) (c : Chip) : Chip :=
  let c := { c with regs := offs.foldl (fun r off => r.setWord off (c.stagedWord off)) c.regs }
  { c with cfg := { c.cfg with staged := c.cfg.staged.filter fun x => !offs.contains x.1 } }

/-- A field taken as signed two's complement. -/
def signed (w v : Nat) : Int := if v < 2 ^ (w - 1) then (v : Int) else (v : Int) - 2 ^ w

/-- The field value that stores a signed number. -/
def unsigned (w : Nat) (v : Int) : Nat := (v % 2 ^ w).toNat

def Chip.getS (c : Chip) (f : Field) : Int := signed f.width (c.get f)
def Chip.putS (c : Chip) (f : Field) (v : Int) : Chip := c.put f (unsigned f.width v)

/-- Applies a change where a condition holds. -/
def Chip.when (c : Chip) (b : Bool) (f : Chip → Chip) : Chip := if b then f c else c
def Hub.when (h : Hub) (b : Bool) (f : Hub → Hub) : Hub := if b then f h else h

/-- Applies a change for each member of a list in turn. -/
def Chip.each {α : Type} (c : Chip) (l : List α) (f : α → Chip → Chip) : Chip := l.foldl (fun c a => f a c) c
def Hub.each {α : Type} (h : Hub) (l : List α) (f : α → Hub → Hub) : Hub := l.foldl (fun h a => f a h) h

def ports : List Port := [0, 1, 2]
def chans : List Chan := [0, 1, 2, 3]
def lanes : List LaneId := [0, 1]
def dports : List DPort := [0, 1, 2, 3, 4, 5, 6, 7, 8, 9]

/-- A change of the core die seen from the whole hub. -/
def Hub.onChip (h : Hub) (f : Chip → Chip) : Hub := { h with chip := f h.chip }

/-! Registers of the HV die. -/

def Hv.get (v : Hv) (f : Field) : Nat := v.regs.get f
def Hv.put (v : Hv) (f : Field) (x : Nat) : Hv := { v with regs := v.regs.put f x }
def Hv.on (v : Hv) (f : Field) : Bool := v.get f == 1
def Hv.putBit (v : Hv) (f : Field) (n : Nat) (b : Bool) : Hv := v.put ⟨f.off, f.lo + n, 1⟩ b.toNat
/-- An event sets a status bit. -/
def Hv.flag (v : Hv) (f : Field) : Hv := { v.put f 1 with hits := v.hits ++ [32 * f.off + f.lo] }
def Hv.inc (v : Hv) (f : Field) : Hv := v.put f (v.get f + 1)
def Hv.when (v : Hv) (b : Bool) (f : Hv → Hv) : Hv := if b then f v else v
def Hub.onHv (h : Hub) (f : Hv → Hv) : Hub := { h with hv := f h.hv }

/-! What leaves the hub, and free values. -/

/-- Records what leaves the hub (log 3). -/
def Chip.emit (c : Chip) (o : Out) : Chip := { c with outbox := c.outbox ++ [o] }

/-- The next free value, cut to `0 … bound − 1` (log 2), and the advanced counter. -/
def Chip.draw (c : Chip) (bound : Nat) : Nat × Chip :=
  (Config.free c.freeCount % bound, { c with freeCount := c.freeCount + 1 })

/-- The next output of the entropy source (13 R426, log 2); it is kept as the last good one. -/
def Chip.drawKey (c : Chip) : Key256 × Chip :=
  let k := Config.entropy c.freeCount
  (k, { c with freeCount := c.freeCount + 1, key := { c.key with seed := some k } })

/-- The next mask (13 R405, R426): an output of the source, and while a health test of it has failed one of an HMAC-SHA-256 generator seeded
by the last good output. Marks: DESIGN CHOICE, log 53. -/
def Chip.drawMask (c : Chip) : Key256 × Chip :=
  match c.on F.KEY_STATUS_ENTROPY_OK, c.key.seed with
  | false, some k =>
    let m := Config.hmacSha256 k (Config.generatorInput c.freeCount)
    (m, { c with freeCount := c.freeCount + 1, key := { c.key with seed := some m } })
  | _, _ => c.drawKey

/-! Parts of the core die by port. -/

def Chip.modPcs (c : Chip) (p : Port) (f : Pcs → Pcs) : Chip := { c with pcs := upd c.pcs p f }
def Chip.modTrk (c : Chip) (p : Port) (f : Trk → Trk) : Chip := { c with trk := upd c.trk p f }
def Chip.modLnk (c : Chip) (p : Port) (f : Lnk → Lnk) : Chip := { c with lnk := upd c.lnk p f }
def Chip.modTp (c : Chip) (p : Port) (f : Tp → Tp) : Chip := { c with tp := upd c.tp p f }

/-! Times, in the model's own nanoseconds. -/

def second : Nat := 1_000_000_000
def millisecond : Nat := 1_000_000

/-- Is the digital core out of every core-wide reset (01 R21, R23) and clocked (15 Table 15-1)? -/
def Chip.running (c : Chip) : Bool := c.rst.active.isNone && !c.rst.clockLost && !c.pst.deep

/-- Has start-up BIST passed as well (14 R435)? -/
def Chip.started (c : Chip) : Bool := c.running && !c.rst.bist

/-- Is the Lockkeeper in RUN (14 R439)? -/
def Chip.lkRun (c : Chip) : Bool := c.running && c.get F.LKP_STATUS_STATE == 0 && c.lkp.failing.isNone

/-- The hub's own ID when FAB_ID.ID_VALID is set (04 R120). -/
def Chip.ownId (c : Chip) : Option Nat :=
  if c.on F.FAB_ID_ID_VALID then some (c.get F.FAB_ID_HUB_ID) else none

/-- The device serial (GLB_SERIAL). -/
def Chip.serial (c : Chip) : Nat := c.get F.GLB_SERIAL_HI * 2 ^ 32 + c.get F.GLB_SERIAL_LO

/-- The strapped role is head-end (00 R1). -/
def Chip.headEnd (c : Chip) : Bool := c.on F.GLB_STRAPS_ROLE_HE

end Sys2Proof.Machine
end

