-- ==== Sys2Proof/Machine/Votes.lean ====
section
/-! DEFINITION. The conditions of the hardware votes (15 Table 15-2), the time that they hold a domain on for, and the domains that an
access wakes (15 R453 to R456). -/

namespace Sys2Proof.Machine

/-! What the conditions read. -/

/-- TRK_Tx_STATUS.PHASE. -/
def phaseOff : Nat := 0
def phaseListen : Nat := 1
def phaseEcho : Nat := 2
def phaseAcquire : Nat := 3
def phaseHandshake : Nat := 4
def phaseProbe : Nat := 5
def phaseClimb : Nat := 6
def phaseRunning : Nat := 7

/-- Indices of the entries of a table that have been written, by the offset of one of their words. -/
def Chip.written (c : Chip) (base stride count : Nat) : List Nat :=
  c.regs.filterMap fun x =>
    if base ≤ x.1 && decide (x.1 < base + stride * count) && (x.1 - base) % stride == 0 then some ((x.1 - base) / stride) else none

/-- Descriptors of a DMA ring (08 R282). -/
def Chip.dmaSize (c : Chip) (n : Nat) : Nat := 2 ^ max 4 (min 16 (c.get (F.WIN_DMA2_SIZE_LOG2 n)))
/-- Descriptors posted and not completed. -/
def Chip.dmaPosted (c : Chip) (n : Nat) : Nat :=
  (c.get (F.WIN_DMA4_TAIL n) + c.dmaSize n - c.get (F.WIN_DMA3_HEAD n) % c.dmaSize n) % c.dmaSize n

/-- Does the port's own traffic or bring-up hold its PHY domain (15 Table 15-2): in bring-up, its link not admitted, or a
barge queued toward it? -/
def Chip.phyBusy (c : Chip) (p : Port) : Bool :=
  let ph := c.get (F.TRK_STATUS_PHASE p)
  (decide (phaseEcho ≤ ph) && decide (ph ≤ phaseClimb)) || (c.on (F.TRK_STATUS_LINK_UP p) && !c.on (F.LNK_STATUS_ADMITTED p))
    || c.swc.voqs.any (fun d => d.outPort == p.val) || !c.lnk[p].txq.isEmpty

/-! Conditions (Table 15-2). Bits: 0 LK, 1 DP, 2 to 4 PHY0 to PHY2, 5 USB, 6 WIN, 7 VID, 8 ETH, 9 FLD. -/

/-- A port's PHY domain is held: its own traffic, or a partner that has not set MOOR_RDY. -/
def Chip.phyCondition (c : Chip) (p : Port) : Bool := c.phyBusy p || (c.on (F.TRK_STATUS_LINK_UP p) && !c.trk[p].moorSeen)

def Chip.usbCondition (c : Chip) : Bool :=
  ([0, 1] : List Nat).any (fun x => c.on (F.USB_U_STATUS_CONNECT x) && c.get (F.USB_U_STATUS_LINK x) != 4)
    || (c.headEnd && c.on F.USB_STATUS_U0_VBUS && c.get F.USB_STATUS_U0_LINK != 4)

def Chip.winCondition (c : Chip) : Bool :=
  c.on F.WIN_STATUS_LINK_UP || !c.win.out.isEmpty || !c.win.target.isEmpty
    || (c.written (F.WIN_DMA2 0).off 0x20 64).any fun n => c.on (F.WIN_DMA2_EN n) && c.dmaPosted n != 0

def Chip.vidCondition (c : Chip) : Bool :=
  (List.range 4).any (fun n => c.on (F.VID_CSI_S_EN n) && !c.on (F.VID_CSI_S_STATUS_LOST n)) || c.on F.VID_CTL_DSI_EN

/-- A 10BASE-T1S carrier is no state of the hub; PLCA_OK stands for it. Marks: DEDUCED, log 48. -/
def Chip.ethCondition (c : Chip) : Bool := c.on F.ETH_STATUS_E0_LINK || ([0, 1] : List Nat).any fun x => c.on (F.ETH_T1S_STATUS_PLCA_OK x)

def Chip.fldCondition (c : Chip) : Bool :=
  c.get F.FLD_CTL_CAN_EN != 0 || c.get F.FLD_CTL_UA_EN != 0
    || (List.range 16).any fun p => (c.get (F.FLD_FIO_CFG_MODE p) == 1 || c.get (F.FLD_FIO_CFG_MODE p) == 2) && c.on (F.FLD_FIO_STATUS_OUT p)

/-- The conditions of the domains other than LK and DP. -/
def Chip.outerConditions (c : Chip) : Nat :=
  ports.foldl (fun n (p : Port) => n + (c.phyCondition p).toNat * 2 ^ (2 + p.val)) 0
    + c.usbCondition.toNat * 32 + c.winCondition.toNat * 64 + c.vidCondition.toNat * 128 + c.ethCondition.toNat * 256 + c.fldCondition.toNat * 512

/-! Votes (R453). -/

/-- DP_HOLD_US, 0 taken as 1, in nanoseconds. -/
def Chip.voteHold (c : Chip) : Nat := 1000 * max 1 (c.get F.PWR_CFG_DP_HOLD_US)

/-- Did the condition of a domain 1 to 9 end less than some time ago? -/
def Chip.endedWithin (c : Chip) (ns d : Nat) : Bool :=
  match c.voteEnd.toList.getD (d - 1) none with
  | some t => decide (c.now < t + ns)
  | none => false

/-- Does the vote of a domain 1 to 9 outlast its condition: for DP_HOLD_US? -/
def Chip.heldOver (c : Chip) (d : Nat) : Bool := c.endedWithin c.voteHold d

/-- The hardware votes of the domains other than LK and DP. -/
def Chip.outerVotes (c : Chip) : Nat :=
  let x := c.outerConditions
  (List.range 8).foldl (fun n k => n + (x.testBit (k + 2) || c.heldOver (k + 2)).toNat * 2 ^ (k + 2)) 0

/-- The domains other than LK and DP that are on: not dropped yet, or voted for. -/
def Chip.outerOn (c : Chip) : Nat := (c.get F.PWR_STATUS_DOM_ON ||| c.get F.PWR_VOTE_SW_VOTE ||| c.outerVotes) / 4 * 4

/-- What holds DP whatever the link layers have received: a cell in a basin, or an adapter domain that is on. -/
def Chip.dpUsed (c : Chip) : Bool := !c.swc.store.isEmpty || c.outerOn / 32 != 0

/-- The condition of DP: that, or a barge that a link layer has received. -/
def Chip.dpCondition (c : Chip) : Bool := c.dpUsed || ports.any fun (p : Port) => !c.lnk[p].rxq.isEmpty

/-- DP's vote outlasts its condition: for DP_HOLD_US, which for an adapter domain begins when that domain's own hold has ended. -/
def Chip.dpHeldOver (c : Chip) : Bool := c.heldOver 1 || (List.range 5).any fun k => c.endedWithin (2 * c.voteHold) (k + 5)

/-- DP's hardware vote. -/
def Chip.dpVote (c : Chip) : Bool := c.dpCondition || c.dpHeldOver

/-- DP is on. -/
def Chip.dpOn (c : Chip) : Bool := c.bit F.PWR_STATUS_DOM_ON 1 || c.bit F.PWR_VOTE_SW_VOTE 1 || c.dpVote

/-- DP is on and ready: it is not woken just now by a barge at a link layer (R456). -/
def Chip.dpReady (c : Chip) : Bool := c.bit F.PWR_STATUS_DOM_ON 1 || c.bit F.PWR_VOTE_SW_VOTE 1 || c.dpUsed || c.dpHeldOver

/-- The times at which conditions ended, after a command that took the core from `old` to `new`; a reset begins with none. -/
def Chip.votesEnded (old new : Chip) : Vector (Option Nat) 9 :=
  if !new.running then Vector.replicate 9 none
  else
    let a := old.outerConditions + old.dpCondition.toNat * 2
    let b := new.outerConditions + new.dpCondition.toNat * 2
    Vector.ofFn fun (i : Fin 9) => if a.testBit (i.val + 1) && !b.testBit (i.val + 1) then some new.now else new.voteEnd[i]

/-! Waking on access (R455). -/

/-- Votes turn their domains on (R453). -/
def Chip.votesWake (v : Nat) (c : Chip) : Chip := c.put F.PWR_STATUS_DOM_ON (c.get F.PWR_STATUS_DOM_ON ||| v)

/-- Do votes wake DP: is DP not ready, and is it or a domain that depends on it voted for (R453)? -/
def Chip.dpWakes (v : Nat) (c : Chip) : Bool := !c.dpReady && (v.testBit 1 || decide (v / 32 % 32 ≠ 0))

/-- The Lockkeeper's clock stops or starts (R454); the watchdog restarts from zero. -/
def Chip.lkGate (gated : Bool) (c : Chip) : Chip :=
  { c.putBit F.PWR_STATUS_DOM_ON 0 (!gated) with lkp := { c.lkp with gated := gated, kickAt := if gated then c.lkp.kickAt else c.now } }

/-- A stall, in 8 ns units: the longest is kept. -/
def Chip.stalled (n : Nat) (c : Chip) : Chip := c.put F.PWR_STALL_MAX_STALL (max (c.get F.PWR_STALL_MAX_STALL) n)

/-- An access wakes the domain and what it depends on, and the longest stall is kept. A wake of DP
counts. -/
def Chip.domainWake (d stall : Nat) (c : Chip) : Chip :=
  let dp := c.dpWakes (2 ^ d)
  let c := c.votesWake (2 ^ d ||| (if 5 ≤ d then 2 else 0))
  let c := c.when dp fun c => c.inc F.PWR_DP_WAKES
  let c := c.when (d == 0 && c.lkp.gated) (Chip.lkGate false)
  c.stalled stall

/-- An access to a domain that is off wakes it (R455): it stalls for up to 1 µs, a free value (log 2), and completes. -/
def Chip.accessDomain (d : Nat) (c : Chip) : Chip :=
  c.when (!(if d = 1 then c.dpReady else c.outerOn.testBit d)) fun c =>
    let (n, c) := c.draw 126
    c.domainWake d n

/-- The domain of an adapter port P3 to P7. -/
def adapterDomain (e : Nat) : Option Nat := if 3 ≤ e ∧ e ≤ 7 then some (e + 2) else none

/-- The domain that holds a register (Table 15-1): TRK in PHY0 to PHY2, SWC and SCH in DP, the adapters' blocks in theirs; the others need
CK alone. Marks: DEDUCED, log 60. -/
def regDomain (off : Nat) : Option Nat :=
  match off / 0x1_0000 with
  | 0x02 => if off % 0x1_0000 / 0x4000 < 3 then some (2 + off % 0x1_0000 / 0x4000) else none
  | 0x06 | 0x07 => some 1
  | 0x09 => some 5 | 0x0A => some 6 | 0x0B => some 7 | 0x0C => some 8 | 0x0D => some 9
  | _ => none

/-- An access through the register path wakes the domain of its register. -/
def Chip.accessRegister (off : Nat) (c : Chip) : Chip :=
  match regDomain off with
  | some d => c.accessDomain d
  | none => c

end Sys2Proof.Machine
end

