-- ==== Sys2Proof/Machine/Ops.lean ====
section
/-! DEFINITION. The named operations every family shares: the counters, the forms of a meaning and alarms. -/

namespace Sys2Proof.Machine

/-! The performance counters (16 R492 to R495): they count what one command has changed. -/

/-- Byte base of a register block by its index (16 Table 16-7). -/
def blockBase (i : Nat) : Nat :=
  match i with
  | 0 => 0x00_0000 | 1 => 0x01_0000 | 2 => 0x02_0000 | 3 => 0x02_4000 | 4 => 0x02_8000 | 5 => 0x03_0000
  | 6 => 0x04_0000 | 7 => 0x06_0000 | 8 => 0x07_0000 | 9 => 0x08_0000 | 10 => 0x09_0000 | 11 => 0x0A_0000
  | 12 => 0x0B_0000 | 13 => 0x0C_0000 | 14 => 0x0D_0000 | 15 => 0x0E_0000 | 16 => 0x0F_0000 | 17 => 0x10_0000
  | 18 => 0x11_0000 | 19 => 0x12_0000 | 20 => 0x13_0000 | 21 => 0x14_0000 | _ => 0x15_0000

/-- The word that a counter's selection names, and its bit. -/
def Counter.place (x : Counter) : Nat × Nat := (blockBase (wordField x.sel 0 5) + 4 * wordField x.sel 5 15, wordField x.sel 20 5)

/-- MODE: 1 EDGE, 2 LEVEL, anything else off. -/
def Counter.mode (x : Counter) : Nat := wordField x.sel 25 2

/-- What one EDGE counter adds for a command: a counter register's increments, a W1C bit's setting events, an RO bit's
rises (R492). -/
def edgeCount (old new : Nat → Word) (hits : List Nat) (x : Counter) : Nat :=
  let (off, b) := x.place
  match regAt off with
  | none => 0
  | some e =>
    if e.counter then
      let a := (old off).toNat
      let z := (new off).toNat
      if a ≤ z then z - a else if 2 ^ 31 ≤ a - z then z + 2 ^ 32 - a else 0
    else if e.w1c.testBit b then (hits.filter fun h => h == 32 * off + b).length
    else if e.ro.testBit b then (!(old off).getLsbD b && (new off).getLsbD b).toNat
    else 0

/-- The counters after a command that changed the registers from `old` to `new`. -/
def Cnt.settle (t : Cnt) (frozen : Bool) (old new : Nat → Word) (hits : List Nat) : Cnt :=
  if frozen then t
  else (t.counters.filter fun x => x.1 < 88 && x.2.mode == 1).foldl (fun t x => t.advance x.1 (edgeCount old new hits x.2)) t

/-- The registers of both dies as one space (01 R5). -/
def Hub.word (h : Hub) (off : Nat) : Word := if inHvDie off then h.hv.regs.word off else h.chip.regs.word off

/-- The program counter at which the Lockkeeper takes the interrupt of a sampling counter is a free value (R495, log 2). -/
def Chip.samplePc (c : Chip) : Chip :=
  if c.cnt.pcDue then
    { c with
      regs := c.regs.put F.CNT_OVF_PC (Config.free c.freeCount % 2 ^ 32), freeCount := c.freeCount + 1
      cnt := { c.cnt with pcDue := false } }
  else c

/-- The core die with its performance counters having taken in what a command has changed, and the ends of vote conditions noted. -/
def Hub.settled (old new : Hub) : Chip :=
  let c := { new.chip with
    voteEnd := old.chip.votesEnded new.chip
    cnt := new.chip.cnt.settle (new.chip.regs.get F.CNT_CTL_FREEZE == 1) old.word new.word (new.chip.hits ++ new.hv.hits), hits := [] }
  c.samplePc

/-! Forms of a meaning: a command acts on the core die alone, or on both dies. -/

/-- A command whose effect lies in the core die. -/
def State.onChip (s : State) (f : Chip → Chip) : Host.Outcome State Fault Refusal :=
  .next { s with hub := { s.hub with chip := s.hub.settled { s.hub with chip := f s.hub.chip } } }

/-- A command whose effect may reach both dies. -/
def State.onHub (s : State) (f : Hub → Hub) : Host.Outcome State Fault Refusal :=
  .next { s with hub := { chip := s.hub.settled (f s.hub), hv := { (f s.hub).hv with hits := [] } } }

/-! Alarms (14 R444 to R450). -/

/-- Severity of an alarm code (14 Table 14-5). -/
def alarmSeverity (code : Nat) : Nat :=
  match code with
  | 0x01 => 1 | 0x02 => 2 | 0x03 => 2 | 0x04 => 3 | 0x05 => 1 | 0x06 => 2 | 0x07 => 3 | 0x08 => 3
  | 0x10 => 2 | 0x11 => 1 | 0x12 => 1 | 0x13 => 2 | 0x14 => 2 | 0x15 => 2 | 0x16 => 0
  | 0x20 => 1 | 0x21 => 1 | 0x22 => 1 | 0x23 => 1
  | 0x30 => 2 | 0x31 => 3 | 0x32 => 1 | 0x33 => 2 | 0x34 => 2 | 0x35 => 3 | 0x38 => 3 | 0x39 => 2
  | 0x40 => 2 | 0x41 => 2
  | _ => 0

/-- What a raised alarm says, before the log fills in the rest. -/
structure AlarmReq where
  code : Nat
  subject : Option Nat
  unit : Nat
  hops : Nat
  loc : Nat
  detail : Nat
  cleared : Bool
  /-- The witness rules of R445 let this hub send it. -/
  witness : Bool

/-- The key under which repeats are recognised (14 R446, R449). -/
def AlarmEntry.key (e : AlarmEntry) : Nat × Option Nat × Nat × Bool := (e.code, e.subject, e.unit, e.cleared)

/-- The entry at a log index. -/
def alarmAt (log : List (Nat × AlarmEntry)) (i : Nat) : Option AlarmEntry := (log.find? fun x => x.1 == i).map Prod.snd

/-- Replaces the entry at a log index, keeping the log in index order. -/
def alarmSet (log : List (Nat × AlarmEntry)) (i : Nat) (e : AlarmEntry) : List (Nat × AlarmEntry) :=
  (log.filter fun x => x.1 < i) ++ (i, e) :: log.filter fun x => i < x.1

/-- Oldest first: the place of the entry logged first among some. -/
def oldestAlarm (l : List (Nat × AlarmEntry)) : Option Nat :=
  (l.foldl (fun (b : Option (Nat × Nat)) x =>
    match b with
    | none => some (x.1, x.2.order)
    | some (_, t) => if x.2.order < t then some (x.1, x.2.order) else b) none).map Prod.fst

/-- The place that a new entry takes while one is not pending (14 R450): an empty one, else that of the oldest entry that is not
pending. -/
def alarmPlaceFree (log : List (Nat × AlarmEntry)) : Option Nat :=
  match (List.range 256).find? fun i => (alarmAt log i).isNone with
  | some i => some i
  | none => oldestAlarm (log.filter fun x => !x.2.pending)

/-- Shows the number of pending entries, of held reports and the place of the next entry (ALM_STATUS); with all 256 pending NEXT
stays. -/
def Chip.alarmCount (c : Chip) : Chip :=
  let c := (c.put F.ALM_STATUS_PENDING (c.alm.log.filter fun x => x.2.pending).length).put F.ALM_STATUS_HOLDS c.alm.holds.length
  match alarmPlaceFree c.alm.log with
  | some i => c.put F.ALM_STATUS_NEXT i
  | none => c

/-- Writes an entry at a place of the ring. -/
def Chip.alarmWrite (i : Nat) (e : AlarmEntry) (c : Chip) : Chip :=
  let n := c.alm.logged
  { c with alm := { c.alm with log := alarmSet c.alm.log i { e with order := n }, logged := n + 1, holds := c.alm.holds.filter fun h => h.1 != i } }.alarmCount

/-- Logs an entry (14 R450): it takes the oldest entry that is not pending; where all 256 are pending, the oldest pending entry of
lower severity; otherwise the entry is dropped. The answer is the place taken. -/
def Chip.alarmLog (c : Chip) (e : AlarmEntry) : Option Nat × Chip :=
  let overflow := fun (c : Chip) => (c.inc F.ALM_OVERFLOW_DROP).flag F.ALM_INT_STATUS_OVERFLOW
  match alarmPlaceFree c.alm.log, oldestAlarm (c.alm.log.filter fun x => x.2.pending && x.2.sev < e.sev) with
  | some i, _ => (some i, c.alarmWrite i e)
  | none, some i => (some i, overflow (c.alarmWrite i e))
  | none, none => (none, overflow c)

/-- Was an alarm of this key last sent less than REPEAT_S ago (14 R449)? -/
def Chip.alarmRepeat (c : Chip) (k : Nat × Option Nat × Nat × Bool) : Bool :=
  match c.alm.lastSent.find? fun x => x.1 == k with
  | some (_, t) => decide (c.now < t + c.get F.ALM_CFG_REPEAT_S * second)
  | none => false

/-- Raises an alarm (14 R444, R445, R449, R450). A severity 3 alarm also sets GLB_FAULT_STATUS.CRIT_ALARM (16 R491). -/
def Chip.raise (c : Chip) (r : AlarmReq) : Chip :=
  let sev := alarmSeverity r.code
  let fabric := r.code == 0x40 || r.code == 0x41
  let localOnly := decide (sev < c.get F.ALM_CFG2_MIN_SEV) || !r.witness || !c.on F.ALM_CFG_EN || r.code == 0x16
  let e : AlarmEntry := {
    code := r.code, sev := sev, fabric := fabric, cleared := r.cleared, reporter := c.ownId, subject := r.subject
    unit := r.unit, hops := r.hops, loc := r.loc, frame := c.get F.FAB_FRAME, subns := c.subns
    suppressed := 0, seq := c.alm.seq, detail := r.detail, sent := false, pending := !localOnly, received := false
    localOnly := localOnly, cancelled := false, merged := 0, time := c.now, order := 0, copies := 0, deferred := false }
  let again := !localOnly && c.alarmRepeat e.key
  let waiting := c.alm.log.find? fun x => x.2.pending && x.2.key == e.key
  let c := (c.inc F.ALM_RAISED).flag F.ALM_INT_STATUS_RAISED
  let c := c.when (sev == 3 && !r.cleared) fun c => c.put F.GLB_FAULT_STATUS_CRIT_ALARM 1
  let c := c.when again fun c => c.inc F.ALM_SUPPRESSED
  match again, waiting with
  | true, some (i, x) =>
    { c with alm := { c.alm with log := alarmSet c.alm.log i { x with suppressed := min (x.suppressed + 1) 65535 } } }
  | _, _ =>
    let e := if again then { e with suppressed := 1 } else e
    let c := { c with alm := { c.alm with seq := (c.alm.seq + 1) % 65536 } }
    let (place, c) := c.alarmLog e
    match place with
    | some i =>
      if fabric && !localOnly then
        { c with alm := { c.alm with holds := c.alm.holds ++ [(i, r.hops * 1024 + c.ownId.getD 0)] } }.alarmCount
      else c
    | none => c

/-- The latest log entry of this hub's own reports that has a property. -/
def Chip.latestAlarm (c : Chip) (p : AlarmEntry → Bool) : Option AlarmEntry :=
  (c.alm.log.map Prod.snd).foldl (fun (b : Option AlarmEntry) e =>
    if p e && !e.received then
      match b with
      | none => some e
      | some o => if o.order ≤ e.order then some e else b
    else b) none

/-- Does an alarm of a code and unit of this hub stand, that is, is its latest entry not a CLEARED one (14 R444)? -/
def Chip.alarmStands (c : Chip) (code unit : Nat) : Bool :=
  match c.latestAlarm fun e => e.code == code && e.unit == unit with
  | some e => !e.cleared
  | none => false

/-- The end of the condition behind an alarm about another hub: where the alarm stands, the same one with CLEARED (14 R444). -/
def Chip.clearAbout (c : Chip) (code : Nat) (p : AlarmEntry → Bool) : Chip :=
  match c.latestAlarm fun e => e.code == code && p e with
  | some e =>
    c.when (!e.cleared) fun c => c.raise {
      code := code, subject := e.subject, unit := e.unit, hops := e.hops, loc := 0, detail := e.detail, cleared := true, witness := true }
  | none => c

/-- Location code of a tile (01 Table 01-4, level 2), and of a macro or instance in it (level 3). -/
def tilePlace (die tile : Nat) : Nat := 2 * 2 ^ 29 + die * 2 ^ 28 + tile * 2 ^ 24
def macroPlace (die tile m : Nat) : Nat := 3 * 2 ^ 29 + die * 2 ^ 28 + tile * 2 ^ 24 + m * 2 ^ 20

/-- The place that an alarm about an own unit or a lane names (01 R17, R18, Table 01-3): a path by its instance on the HV die, other
units by their tile; 0 where the fault lies in no one die of this hub. Marks: DEDUCED, log 74. -/
def alarmPlace (code unit : Nat) : Nat :=
  match code with
  | 0x05 | 0x06 | 0x07 => tilePlace 0 14
  | 0x11 => tilePlace 0 9
  | 0x21 => tilePlace 0 11
  | 0x22 | 0x23 => tilePlace 0 12
  | 0x30 | 0x31 | 0x32 | 0x33 => macroPlace 1 0 unit
  | 0x34 | 0x35 => macroPlace 1 1 (unit - 0x10)
  | 0x38 | 0x39 => tilePlace 0 13
  | _ => 0

/-- An alarm about the hub's own unit (14 R445: the hub sends). -/
def Chip.raiseOwn (c : Chip) (code unit detail : Nat) : Chip :=
  c.raise { code := code, subject := c.ownId, unit := unit, hops := 0, loc := alarmPlace code unit, detail := detail, cleared := false, witness := true }

/-- An alarm about the hub's own memory or logic, with its location code (01 R17). -/
def Chip.raiseLoc (c : Chip) (code loc detail : Nat) : Chip :=
  c.raise { code := code, subject := c.ownId, unit := 0xFF, hops := 0, loc := loc, detail := detail, cleared := false, witness := true }

/-- The end of an own condition: the same alarm with CLEARED (14 R444). -/
def Chip.clearOwn (c : Chip) (code unit detail : Nat) : Chip :=
  c.raise { code := code, subject := c.ownId, unit := unit, hops := 0, loc := alarmPlace code unit, detail := detail, cleared := true, witness := true }

/-- An alarm about a trunk link (14 R445): the end with the lower hub ID sends, and an end that does not know its
partner's ID sends. -/
def Chip.raiseLink (c : Chip) (p : Port) (code detail : Nat) (cleared : Bool := false) : Chip :=
  let witness := match c.lnk[p].partnerId, c.ownId with
    | some q, some o => decide (o < q)
    | _, _ => true
  c.raise { code := code, subject := c.ownId, unit := p.val, hops := 1, loc := alarmPlace code p.val, detail := detail, cleared := cleared, witness := witness }

end Sys2Proof.Machine
end

