-- ==== Sys2Proof/Machine/RelOps.lean ====
section
/-! DEFINITION. Memory errors and the remap table (14 R429 to R434, Table 14-1): what every checked read shares. -/

namespace Sys2Proof.Machine

/-! Tables and their words. -/

/-- Which member of a family of words a byte offset names, and the rest within the member: base, stride and count. -/
def memberAt (base stride count off : Nat) : Option (Nat × Nat) :=
  if base ≤ off ∧ off < base + stride * count then some ((off - base) / stride, (off - base) % stride) else none

/-- The tables that tile 7 holds, each with the offset of its first entry, the bytes of an entry and how many it has (01 Table 01-3):
routes, groups, tunnels, gate lists, weirs, learning, both poll tables and signals. -/
def tileTables : List (Nat × Nat × Nat) :=
  [ (0x04_0000, 8, 1024), (0x04_2000, 4, 256), (0x04_4000, 8, 4096), (0x07_4000, 4, 5120), (0x07_A000, 0x10, 512), (0x0C_4000, 0x10, 1024),
    (0x0D_1000, 0x10, 256), (0x0D_2000, 0x10, 256), (0x0D_8000, 0x20, 1024) ]

/-- The offsets of the words of the table entry that a word belongs to; none where it belongs to none. -/
def tableEntry (off : Nat) : List Nat :=
  match tileTables.findSome? fun (b, s, n) => (memberAt b s n off).map fun (i, _) => (b + s * i, s / 4) with
  | some (o, n) => (List.range n).map fun k => o + 4 * k
  | none => []

/-! Locations and the remap table. -/

/-- The level-5 location of a word (01 Table 01-4, R18). -/
def wordLoc (loc : Word) : Word := (5#3 ++ loc.extractLsb' 8 21) ++ 0#8

/-- The tile of a location. -/
def locTile (loc : Word) : Nat := (loc.extractLsb' 24 4).toNat

/-- Numbers of the remap entries. -/
def remapEntries : List Nat := List.range 32

/-- Is a remap entry in use? -/
def Chip.remapValid (c : Chip) (n : Nat) : Bool := c.on (F.REL_REMAP_STAT_VALID n)

/-- The entry that serves a location. -/
def Chip.remapOf (c : Chip) (loc : Word) : Option Nat :=
  remapEntries.find? fun n => c.remapValid n && c.get (F.REL_REMAP_LOC n) == (wordLoc loc).toNat

/-- Shows the number of entries in use. -/
def Chip.showRemap (c : Chip) : Chip := c.put F.REL_STATUS_REMAP_USED (remapEntries.filter c.remapValid).length

/-- Remaps a word (R433, R434): a location whose spare is itself defective takes another entry. With no entry free the
word stays in service, and REMAP_FULL is raised once. -/
def Chip.remap (c : Chip) (loc : Word) (poisoned byBist : Bool) : Chip :=
  let old := c.remapOf loc
  let free := remapEntries.find? fun n => !c.remapValid n
  let c := match old with
    | some n => (c.put (F.REL_REMAP_STAT n) 0).put (F.REL_REMAP_LOC n) 0
    | none => c
  match free with
  | some n =>
    let c := (c.put (F.REL_REMAP_LOC n) (wordLoc loc).toNat).put (F.REL_REMAP_STAT_VALID n) 1
    ((c.put (F.REL_REMAP_STAT_BY_BIST n) byBist.toNat).put (F.REL_REMAP_STAT_POISONED n) poisoned.toNat).showRemap
  | none =>
    let first := !c.on F.REL_STATUS_REMAP_FULL
    let c := ((c.put F.REL_STATUS_REMAP_FULL 1).flag F.REL_INT_STATUS_REMAP_FULL).showRemap
    if first then c.raiseLoc 0x02 (wordLoc loc).toNat 0 else c

/-- A word that is written again is poisoned no longer, nor is the spare that serves it (R431). Marks: DEDUCED, log 59. -/
def Chip.unpoison (loc : Word) (c : Chip) : Chip :=
  match c.remapOf loc with
  | some n => c.put (F.REL_REMAP_STAT_POISONED n) 0
  | none => c

/-- A correctable error (R430): transient when the re-read is clean, otherwise permanent and remapped. -/
def Chip.eccCorrectable (c : Chip) (loc : Word) (permanent : Bool) : Chip :=
  let c := (c.put F.REL_LAST_CORR_LOC loc.toNat).flag F.REL_INT_STATUS_CORR
  if permanent then
    (((c.remap loc false false).inc F.REL_PERMANENT).flag F.REL_INT_STATUS_PERMANENT).raiseLoc 0x01 loc.toNat 0
  else (c.inc F.REL_ECC_CORR).inc F.REL_TRANSIENT

/-- An uncorrectable error whose re-read is clean (R431). -/
def Chip.eccRetried (c : Chip) : Chip := ((c.inc F.REL_ECC_UNCORR).flag F.REL_INT_STATUS_UNCORR).inc F.REL_TRANSIENT

/-- An uncorrectable error whose data is lost (R431). -/
def Chip.eccLost (c : Chip) (loc : Word) : Chip :=
  let w := wordLoc loc
  let c := ((c.inc F.REL_ECC_UNCORR).put F.REL_LAST_UNCORR_LOC w.toNat).flag F.REL_INT_STATUS_UNCORR
  let c := ((c.remap w true false).inc F.REL_DATA_LOST).inc F.REL_PERMANENT
  (c.flag F.REL_INT_STATUS_PERMANENT).raiseLoc 0x03 w.toNat 0

/-- Words of the basins, tables or buffers are written again: those among them that were poisoned are so no longer (R431). -/
def Chip.rewritten (p : Word → Bool) (c : Chip) : Chip :=
  c.when (c.get F.REL_STATUS_REMAP_USED != 0) fun c => c.each remapEntries fun n c =>
    c.when (c.remapValid n && c.on (F.REL_REMAP_STAT_POISONED n) && p (BitVec.ofNat 32 (c.get (F.REL_REMAP_LOC n)))) fun c =>
      c.put (F.REL_REMAP_STAT_POISONED n) 0

/-- Every result of a checked read that is not about its owner (R430, R431). -/
def Chip.eccRead (c : Chip) : EccResult → Chip
  | .clean => c
  | .corrected loc permanent => c.eccCorrectable loc permanent
  | .transient _ => c.eccRetried
  | .permanent loc => c.eccLost loc

end Sys2Proof.Machine
end

