-- ==== Sys2Proof/Machine/Basin.lean ====
section
/-! DEFINITION. Basin memory (05): cells, pool and occupancy, the random generators, random early drop and the heads of
the virtual output queues. Ports are numbered 0 to 9 as in 01 Table 01-1. -/

namespace Sys2Proof.Machine

/-! Cells, basins and the pool (R164 to R168). -/

/-- Cells of a barge (R164). -/
def bargeCells (b : Barge) : Nat := (bargeWords b.hdr.len.toNat + 15) / 16

/-- The ten ports. -/
def portList : List Nat := List.range 10

/-- SHARED_SIZE (R165). -/
def Chip.sharedSize (c : Chip) : Nat := 24_576 - (portList.map fun p => c.get (F.SWC_BASIN_RESERVE p)).foldl (· + ·) 0

/-- SHARED_FREE (R165). -/
def Chip.sharedFree (c : Chip) : Nat :=
  c.sharedSize - (portList.map fun p => c.get (F.SWC_OCC_IN_USE p) - c.get (F.SWC_BASIN_RESERVE p)).foldl (· + ·) 0

/-- Shows the pool; SHARED_FREE falling below LOW_WATER sets POOL_LOW. -/
def Chip.showPool (c : Chip) : Chip :=
  let before := c.get F.SWC_POOL_SHARED_FREE
  let free := c.sharedFree
  let low := c.get F.SWC_POOL_CFG_LOW_WATER
  let c := (c.put F.SWC_POOL_SHARED_SIZE c.sharedSize).put F.SWC_POOL_SHARED_FREE free
  c.when (decide (low ≤ before) && decide (free < low)) fun c => c.flag F.SWC_INT_STATUS_POOL_LOW

/-- Charges cells to a port. -/
def Chip.charge (c : Chip) (p cells : Nat) : Chip :=
  let n := c.get (F.SWC_OCC_IN_USE p) + cells
  ((c.put (F.SWC_OCC_IN_USE p) n).put (F.SWC_OCC_PEAK p) (max n (c.get (F.SWC_OCC_PEAK p)))).showPool

/-- Frees cells of a port. -/
def Chip.uncharge (c : Chip) (p cells : Nat) : Chip :=
  (c.put (F.SWC_OCC_IN_USE p) (c.get (F.SWC_OCC_IN_USE p) - cells)).showPool

/-- The stored barge of a descriptor. -/
def Swc.stored (w : Swc) (sid : Nat) : Option Stored := w.store.find? fun x => x.sid == sid

/-- Cells of a stored barge, 0 where it is gone. -/
def Swc.cellsOf (w : Swc) (sid : Nat) : Nat := ((w.stored sid).map (·.cells)).getD 0

/-- Depth of a virtual output queue in cells (R171). -/
def Swc.voqDepth (w : Swc) (i e q : Nat) : Nat :=
  ((w.voqs.filter fun d => d.inPort == i && d.outPort == e && d.queue == q).map fun d => w.cellsOf d.sid).foldl (· + ·) 0

/-- Depth of an egress queue in cells, over all ingress ports (R174). -/
def Swc.queueDepth (w : Swc) (e q : Nat) : Nat :=
  ((w.voqs.filter fun d => d.outPort == e && d.queue == q).map fun d => w.cellsOf d.sid).foldl (· + ·) 0

/-- Cells of TACK, LCTL and ALARM barges that a port holds (R172). -/
def Swc.ctrlCells (w : Swc) (i : Nat) : Nat :=
  ((w.store.filter fun x => x.inPort == i && x.ctrl).map (·.cells)).foldl (· + ·) 0

/-- Changes the switch core's own state. -/
def Chip.modSwc (c : Chip) (f : Swc → Swc) : Chip := { c with swc := f c.swc }

/-- Shows a port's retained cells (R177). -/
def Chip.showRetained (c : Chip) (p : Nat) : Chip :=
  let n := ((c.swc.store.filter fun x => x.inPort == p && x.retained.isSome).map (·.cells)).foldl (· + ·) 0
  let m := c.get (F.SWC_BASIN_RETAIN_MAX p)
  (c.put (F.SWC_RETAIN_RETAINED p) n).put (F.SWC_RETAIN_FULL p) (decide (3 ≤ p ∧ p ≠ 8 ∧ m ≤ n)).toNat

/-- Frees a stored barge with no copy left, unless its tunnel retains it (R177, R179). -/
def Chip.sweepStore (c : Chip) (sid : Nat) : Chip :=
  match c.swc.stored sid with
  | none => c
  | some x =>
    if x.refs = 0 && x.retained.isNone then
      (c.modSwc fun w => { w with store := w.store.filter fun y => y.sid != sid }).uncharge x.inPort x.cells
    else c

/-- One copy of a stored barge has crossed or was dropped. -/
def Chip.dropRef (c : Chip) (sid : Nat) : Chip :=
  (c.modSwc fun w => { w with store := w.store.map fun y => if y.sid == sid then { y with refs := y.refs - 1 } else y }).sweepStore sid

/-! Generators (R524). -/

/-- One step of the 16-bit LFSR. -/
def lfsrStep (s : Nat) : Nat :=
  let b := (s ^^^ (s >>> 2) ^^^ (s >>> 3) ^^^ (s >>> 5)) % 2
  s / 2 + b * 32768

/-- A draw: 16 steps. -/
def lfsrDraw (s : Nat) : Nat := (List.range 16).foldl (fun s _ => lfsrStep s) s

/-- The seed of generator `g`. -/
def Chip.lfsrSeed (c : Chip) (g : Nat) : Nat :=
  let s := c.serial
  let f := (s ^^^ s / 2 ^ 16 ^^^ s / 2 ^ 32 ^^^ s / 2 ^ 48) % 65536
  let v := (f ^^^ ((g + 1) * 1024) ^^^ (g + 1)) % 65536
  if v = 0 then 0xACE1 else v

/-- Draws a 16-bit value from a generator. -/
def Chip.draw16 (c : Chip) (g : Nat) : Nat × Chip :=
  let s := ((c.swc.lfsr.find? fun x => x.1 == g).map Prod.snd).getD (c.lfsrSeed g)
  let v := lfsrDraw s
  (v, c.modSwc fun w => { w with lfsr := (w.lfsr.filter fun x => x.1 != g) ++ [(g, v)] })

/-! Random early drop (R174, R175). -/

/-- DT and RED profiles of a queue. -/
def Chip.dtProfile (c : Chip) (q : Nat) : Nat := c.get ⟨(F.SWC_QMAP (q / 8)).off, 4 * (q % 8), 2⟩
def Chip.redProfile (c : Chip) (q : Nat) : Nat := c.get ⟨(F.SWC_QMAP (q / 8)).off, 4 * (q % 8) + 2, 2⟩

/-- The average of (e, q), in 1/256 cell. -/
def Swc.average (w : Swc) (e q : Nat) : Nat := ((w.avg.find? fun x => x.1 == (e, q)).map Prod.snd).getD 0

/-- The new average: A + ((256 D − A) >> W), with W 0 the instantaneous depth. -/
def redAverage (w d a : Nat) : Nat :=
  if w = 0 then 256 * d else ((a : Int) + ((256 * (d : Int) - a) / 2 ^ w)).toNat

/-- The selection threshold floor(p × 65,536) of a curve at average A. -/
def redThreshold (min max maxp a : Nat) : Nat :=
  let lo := 16 * min * 256
  let hi := 16 * max * 256
  if a < lo then 0
  else if max ≤ min || hi ≤ a then 65536
  else (maxp + 1) * (a - lo) * 65536 / (256 * (hi - lo))

/-- What RED says of one copy. -/
inductive RedVerdict where
  | pass | mark | drop

/-- Step 1 of R171 for one copy: the average is updated at every decision; a copy that does not skip the step draws where
its colour's curve is enabled. Marks: DEDUCED, log 33. -/
def Chip.red (c : Chip) (inPort e q colour : Nat) (skip : Bool) : RedVerdict × Chip :=
  let r := c.redProfile q
  let a := redAverage (c.get ⟨F.SWC_RED_AVG.off, 4 * r, 4⟩) (c.swc.queueDepth e q) (c.swc.average e q)
  let c := c.modSwc fun w => { w with avg := (w.avg.filter fun x => x.1 != (e, q)) ++ [((e, q), a)] }
  if skip || !c.on F.SWC_CTL_RED_EN || !c.on (F.SWC_RED_EN r colour) then (.pass, c)
  else
    let (v, c) := c.draw16 inPort
    if v < redThreshold (c.get (F.SWC_RED_MIN r colour)) (c.get (F.SWC_RED_MAX r colour)) (c.get (F.SWC_RED_MAXP r colour)) a then
      (if c.on (F.SWC_RED_ACTION r colour) then (.mark, c) else (.drop, c))
    else (.pass, c)

/-! Cells and places (R525). -/

/-- Level-5 location of word `j` of cell `c` (R525, 01 Table 01-4). -/
def basinLoc (c j : Nat) : Nat :=
  let k := c % 4096
  5 * 2 ^ 29 + c / 4096 * 2 ^ 24 + k / 256 * 2 ^ 20 + k % 256 / 64 * 2 ^ 18 + (16 * (k % 64) + j) * 2 ^ 8

/-- The first cell from `k` on, the cells taken round a ring, that is not in use. -/
def freeCell (used : List Nat) : Nat → Nat → Nat
  | 0, k => k
  | fuel + 1, k => if used.contains k then freeCell used fuel ((k + 1) % 24_576) else k

/-- `n` free cells from `k` on. -/
def freeCells (used : List Nat) : Nat → Nat → List Nat
  | 0, _ => []
  | n + 1, k =>
    let x := freeCell used 24_576 k
    x :: freeCells (x :: used) n ((x + 1) % 24_576)

/-- The cells that hold barges. -/
def Swc.usedCells (w : Swc) : List Nat := w.store.flatMap (·.place)

/-- What the check of a stored barge's cells finds, with its location (R187, R525, 01 R18). -/
def Stored.found (x : Stored) : CellCheck → EccResult
  | .clean => .clean
  | .corrected k j bit permanent =>
    match x.place[k.val]?, bit with
    | none, _ => .clean
    | some c, none => .corrected (BitVec.ofNat 32 (basinLoc c j.toNat)) permanent
    | some c, some b => .corrected (BitVec.ofNat 32 (basinLoc c j.toNat + 2 ^ 29 + b.val)) permanent
  | .transient k j =>
    match x.place[k.val]? with
    | none => .clean
    | some c => .transient (BitVec.ofNat 32 (basinLoc c j.toNat))
  | .permanent k j =>
    match x.place[k.val]? with
    | none => .clean
    | some c => .permanent (BitVec.ofNat 32 (basinLoc c j.toNat))

/-! Queues and their heads (R169, R182). -/

/-- Was the queue (e, q) empty? -/
def Swc.queueEmpty (w : Swc) (e q : Nat) : Bool := !(w.voqs.any fun d => d.outPort == e && d.queue == q)

/-- The stamp of a descriptor in ns of fabric time. -/
def Desc.stamp (d : Desc) : Nat := d.frame * 1_000_000 + d.subns

/-- FRAME now less the frame of a descriptor's arrival, FRAME wrapping at 2^32; negative after a step backward (R160). -/
def Chip.ageFrames (c : Chip) (d : Desc) : Int := signed 32 ((c.get F.FAB_FRAME + 2 ^ 32 - d.frame) % 2 ^ 32)

/-- Frame ticks since a descriptor's arrival (04 R130). -/
def Chip.ageTicks (c : Chip) (d : Desc) : Nat := (c.ageFrames d).toNat

/-- Age of a descriptor in ns. -/
def Chip.ageNs (c : Chip) (d : Desc) : Int := c.ageFrames d * 1_000_000 + c.subns - d.subns

/-- Head of each virtual output queue of (e, q), by ingress port. -/
def Swc.heads (w : Swc) (e q : Nat) : List Desc :=
  portList.filterMap fun i => w.voqs.find? fun d => d.inPort == i && d.outPort == e && d.queue == q

/-- The oldest head of (e, q) (R182): by arrival stamp, equal stamps to the lower ingress port. -/
def Chip.headOf (c : Chip) (e q : Nat) : Option Desc :=
  (c.swc.heads e q).foldl (fun b d =>
    match b with
    | none => some d
    | some x => if c.ageNs x < c.ageNs d then some d else b) none

end Sys2Proof.Machine
end

