-- ==== Sys2Proof/Machine/SchOps.lean ====
section
/-! DEFINITION. Scheduling, shapers, weirs and time gates (06 R194 to R211): what they compute. -/

namespace Sys2Proof.Machine

/-- Changes the scheduler's own state. -/
def Chip.modSch (c : Chip) (f : Sch → Sch) : Chip := { c with sch := f c.sch }

/-- One byte in the unit of credits and buckets: every rate is a whole number of units a nanosecond. Marks: DESIGN CHOICE, log 34. -/
def creditUnit : Int := 64_000_000

/-- The credit that a shaper's comparison and its readback see: whole 1/256 bytes (R199). Marks: DESIGN CHOICE, log 34. -/
def resolved (x : Int) : Int := x / 250_000 * 250_000

/-- What a credit rises by in a nanosecond at a rate of 16 kb/s units, 2,000 bytes a second. -/
def rateUnits (rate : Nat) : Nat := 128 * rate

/-- A credit now: it rises by `rise` a nanosecond to at most `top` (R199, R203). Marks: DESIGN CHOICE, log 34. -/
def creditAt (x : Credit) (rise : Nat) (now : Nat) (top : Int) : Int :=
  min top (x.c + (rise : Int) * ((now : Int) - x.time))

/-! Lengths, weights and tags (R196 to R198). -/

/-- Words of a stored barge. -/
def Swc.wordsOf (w : Swc) (sid : Nat) : Nat := ((w.stored sid).map fun x => bargeWords x.barge.hdr.len.toNat).getD 1

/-- BUDGET of a stored barge. -/
def Swc.budgetOf (w : Swc) (sid : Nat) : Nat := ((w.stored sid).map fun x => x.barge.hdr.budget.toNat).getD 0

/-- The scheduling length L of a barge of `w` words at egress `e` (R196). -/
def Chip.schedLen (c : Chip) (e w : Nat) : Nat := (max 1 (16 * (w : Int) + max (c.getS (F.SCH_P_CFG_OVERHEAD e)) (-32))).toNat

/-- WS2, WS3 and CAP3 of the effects row in force (06 R217, R224). -/
def Chip.rowWs2 (c : Chip) : Nat := wordField c.bud.row 3 5
def Chip.rowWs3 (c : Chip) : Nat := wordField c.bud.row 8 5
def Chip.rowCap3 (c : Chip) : Nat := wordField c.bud.row 13 7

/-- A weight scaled by WS sixteenths (R198: above 16 taken as 16, 0 taken as 1). -/
def scaleWeight (w ws : Nat) : Nat := max 1 (w * max 1 (min ws 16) / 16)

/-- w_eff of queue `q` of egress `e` for a head of a budget class (R198). -/
def Chip.weightEff (c : Chip) (e q budget : Nat) : Nat :=
  let w := max 1 (c.get (F.SCH_Q0_WEIGHT e q))
  if !c.on F.SCH_CTL_BUDGET_EN then w
  else match budget with
    | 2 => scaleWeight w c.rowWs2
    | 3 => scaleWeight w c.rowWs3
    | _ => w

/-- The later of two tags, by their signed difference modulo 2^48 (R197). -/
def later (a b : Nat) : Nat := if (b + 2 ^ 48 - a) % 2 ^ 48 < 2 ^ 47 then b else a

/-- Computes the finish tag of the head of a group queue (R197). -/
def Chip.retag (c : Chip) (e q : Nat) : Chip :=
  if q < 4 || 64 ≤ q then c
  else
    let c := c.modSch fun s => { s with tags := s.tags.filter fun x => x.1 != (e, q) }
    match c.headOf e q with
    | none => c
    | some d =>
      let v := c.sch.vt.toList.getD e 0
      let fl := ((c.sch.lastTags.find? fun x => x.1 == (e, q)).map Prod.snd).getD 0
      let w := c.weightEff e q (c.swc.budgetOf d.sid)
      let f := (later v fl + c.schedLen e (c.swc.wordsOf d.sid) * 4096 / w) % 2 ^ 48
      c.modSch fun s => { s with tags := s.tags ++ [((e, q), (f, w))] }

/-- A queue that was empty and now holds a barge becomes backlogged (R197). -/
def Chip.becameBacklogged (c : Chip) (e q : Nat) : Chip :=
  if c.sch.tags.any fun x => x.1 == (e, q) then c else c.retag e q

/-! Shapers (R199 to R201). -/

/-- Two-lane barge capacity of a step (02 Table 02-4), in 16 kb/s units. -/
def stepCapacity (step : Nat) : Nat :=
  match step with
  | 1 => 78_125 | 2 => 156_250 | 3 => 312_500 | 4 => 468_750 | 5 => 625_000 | _ => 0

/-- What the bulk credit of a trunk port rises by in a nanosecond (R201): CAP3 / 64 of the port's barge capacity now, which is
halved in single-lane operation. -/
def Chip.bulkRise (c : Chip) (p : Nat) : Nat :=
  stepCapacity (c.get (F.TRK_STATUS_STEP p)) * c.rowCap3 * (if c.get (F.TRK_STATUS_LANES p) = 3 then 2 else 1)

/-- Credit of a queue's peak shaper, of a port's shaper, and of the bulk shaper. -/
def Chip.queueCredit (c : Chip) (e q : Nat) : Int :=
  let top := (c.get (F.SCH_Q1_BURST e q) : Int) * 256 * creditUnit
  match c.sch.queueCredit.find? fun x => x.1 == (e, q) with
  | some (_, x) => creditAt x (rateUnits (c.get (F.SCH_Q1_RATE e q))) c.now top
  | none => top

def Chip.portCredit (c : Chip) (e : Nat) : Int :=
  let top := (c.get (F.SCH_P_SHAPE_BURST e) : Int) * 256 * creditUnit
  match c.sch.portCredit.find? fun x => x.1 == e with
  | some (_, x) => creditAt x (rateUnits (c.get (F.SCH_P_SHAPE_RATE e))) c.now top
  | none => top

/-- The burst of the bulk shapers. -/
def Chip.bulkTop (c : Chip) : Int := (max 1 (c.get F.SCH_CTL_BULK_BURST) : Int) * 1024 * creditUnit

def Chip.bulkCredit (c : Chip) (e : Nat) : Int :=
  if 64 ≤ c.rowCap3 || !c.on F.SCH_CTL_BUDGET_EN then c.bulkTop
  else match c.sch.bulkCredit.find? fun x => x.1 == e with
    | some (_, x) => creditAt x (c.bulkRise e) c.now c.bulkTop
    | none => c.bulkTop

/-- Does the queue's, the port's or the bulk shaper permit (R199 to R201)? -/
def Chip.queuePermits (c : Chip) (e q : Nat) : Bool :=
  !c.on (F.SCH_Q0_SHAPE_EN e q) || (c.get (F.SCH_Q1_RATE e q) ≠ 0 && decide (0 ≤ resolved (c.queueCredit e q)))

def Chip.portPermits (c : Chip) (e : Nat) : Bool :=
  !c.on (F.SCH_P_CFG_SHAPE_EN e) || (c.get (F.SCH_P_SHAPE_RATE e) ≠ 0 && decide (0 ≤ resolved (c.portCredit e)))

def Chip.bulkPermits (c : Chip) (e budget : Nat) : Bool :=
  2 < e || budget != 3 || !c.on F.SCH_CTL_BUDGET_EN || (c.rowCap3 ≠ 0 && decide (0 ≤ resolved (c.bulkCredit e)))

/-- Charges the shapers for a barge of length `l` that starts crossing (R199 to R201). -/
def Chip.chargeShapers (c : Chip) (e q budget l : Nat) : Chip :=
  let cost := (l : Int) * creditUnit
  let c := c.when (c.on (F.SCH_Q0_SHAPE_EN e q)) fun c => c.modSch fun s => { s with
    queueCredit := (s.queueCredit.filter fun x => x.1 != (e, q)) ++ [((e, q), ⟨c.queueCredit e q - cost, c.now⟩)] }
  let c := c.when (c.on (F.SCH_P_CFG_SHAPE_EN e)) fun c => c.modSch fun s => { s with
    portCredit := (s.portCredit.filter fun x => x.1 != e) ++ [(e, ⟨c.portCredit e - cost, c.now⟩)] }
  c.when (decide (e ≤ 2) && budget == 3 && decide (c.rowCap3 < 64) && c.on F.SCH_CTL_BUDGET_EN) fun c =>
    let left := c.bulkCredit e - cost
    (c.modSch fun s => { s with bulkCredit := (s.bulkCredit.filter fun x => x.1 != e) ++ [(e, ⟨left, c.now⟩)] }).put
      (F.SCH_P_BULK_HELD e) (decide (left < 0)).toNat

/-! Time gates (R206 to R209). -/

/-- The span of fabric time in ns, after which FRAME wraps. -/
def timeSpan : Nat := 2 ^ 32 * 1_000_000

/-- A difference of two times of fabric time, FRAME wrapping. -/
def timeDiff (d : Int) : Int := (d + timeSpan / 2) % timeSpan - timeSpan / 2

/-- Local fabric time in ns. -/
def Chip.fabricTime (c : Chip) : Nat := c.get F.FAB_FRAME * 1_000_000 + c.subns

/-- OPEN and DURATION (8 ns units) of a gate entry. -/
def Chip.gateMask (c : Chip) (e k n : Nat) : Nat := c.get (F.SCH_GATE_OPEN e k n)
def Chip.gateDur (c : Chip) (e k n : Nat) : Nat := c.get (F.SCH_GATE_DURATION e k n)

/-- Cycle time of a bank in ns (R206: 0 is taken as 125,000 units). -/
def Chip.gateCycle (c : Chip) (e k : Nat) : Nat :=
  8 * (let v := c.get (F.SCH_P_GATE_CYC_CYCLE e k); if v = 0 then 125_000 else v)

/-- Does a bank hold no list, so that every group stays open (R206)? -/
def Chip.gateEmpty (c : Chip) (e k : Nat) : Bool := c.gateDur e k 0 == 0

/-- The groups open now at an egress (R206, R207, R528). -/
def Chip.gateOpen (c : Chip) (e : Nat) : Nat := if c.on (F.SCH_P_CFG_GATE_EN e) then c.get (F.SCH_P_GATE_STATUS_OPEN e) else 0xFF

/-- Does group `g` stay open for `need` ns more, from entry `i` of the active list with `left` ns of its duration and
`cyc` ns of its cycle to come (R209)? A walk through a whole list that meets no closing entry passes. -/
def Chip.staysOpen (c : Chip) (e k g : Nat) : Nat → Nat → Nat → Nat → Nat → Bool
  | 0, _, _, _, _ => true
  | fuel + 1, i, left, cyc, need =>
    if !(c.gateMask e k i).testBit g then false
    else
      let last := i == 255 || c.gateDur e k (i + 1) == 0
      let run := if last || cyc ≤ left then cyc else left
      if need ≤ run then true
      else if last || cyc ≤ left then c.staysOpen e k g fuel 0 (8 * c.gateDur e k 0) (c.gateCycle e k) (need - run)
      else c.staysOpen e k g fuel (i + 1) (8 * c.gateDur e k (i + 1)) (cyc - run) (need - run)

/-- t_tx of a barge of `w` words (R209), in ns: port block times of 05 Table 05-2 in 1/100 ns. -/
def Chip.txTime (c : Chip) (e w : Nat) : Nat :=
  if e ≤ 2 then
    let t := match c.get (F.TRK_STATUS_STEP e) with
      | 1 => 19342 | 2 => 9671 | 3 => 4836 | 4 => 3224 | 5 => 2418 | _ => 0
    let t := if c.get (F.TRK_STATUS_LANES e) = 3 then t else 2 * t
    (((w + 1) / 2 + 1) * t + 99) / 100
  else w * c.get (F.SCH_P_CFG_WORD_NS e)

/-- The time T of an armed takeover (R208), fabric ns. -/
def Chip.takeTime (c : Chip) (e : Nat) : Nat :=
  c.get (F.SCH_P_TAKE_FRAME e) * 1_000_000 + min (c.get (F.SCH_P_TAKE_CTL_SUBNS e)) 999_999

/-- Is the head barge's group open, and does the barge pass the guard band test (R194, R209)? -/
def Chip.gateIsOpen (c : Chip) (e q : Nat) : Bool := (c.gateOpen e).testBit (c.get (F.SCH_Q0_GATE_GRP e q))

def Chip.guardPasses (c : Chip) (e q w : Nat) : Bool :=
  if !c.on (F.SCH_P_CFG_GATE_EN e) then true
  else
    let g := c.get (F.SCH_Q0_GATE_GRP e q)
    let k := c.get (F.SCH_P_GATE_STATUS_BANK e)
    let need := c.txTime e w + 8 * c.get (F.SCH_P_CFG_GUARD_EXTRA e)
    let run := c.sch.gates.toList.getD e ⟨false, 0, 0⟩
    let ahead := fun (at_ : Nat) => timeDiff ((at_ : Int) - c.fabricTime)
    let i := c.get (F.SCH_P_GATE_STATUS_ENTRY e)
    let byList := !run.running || c.gateEmpty e k
      || c.staysOpen e k g 514 i (ahead (run.entryAt + 8 * c.gateDur e k i)).toNat (ahead (run.cycleAt + c.gateCycle e k)).toNat need
    let closing := c.on (F.SCH_P_TAKE_CTL_ARMED e) && !c.gateEmpty e (1 - k) && !(c.gateMask e (1 - k) 0).testBit g
    byList && (!closing || decide ((need : Int) ≤ ahead (c.takeTime e)))

/-! Queue selection (R194, R195). -/

/-- What R194 says of a queue's head. -/
structure HeadState where
  head : Desc
  gate : Bool
  guard_ : Bool
  shaper : Bool

def Chip.headState (c : Chip) (e q : Nat) : Option HeadState :=
  (c.headOf e q).map fun d => {
    head := d, gate := c.gateIsOpen e q, guard_ := c.guardPasses e q (c.swc.wordsOf d.sid)
    shaper := c.queuePermits e q && c.bulkPermits e (c.swc.budgetOf d.sid) && c.portPermits e }

/-- Is the queue eligible (R194)? -/
def Chip.eligible (c : Chip) (e q : Nat) : Bool :=
  match c.headState e q with
  | some h => h.gate && h.guard_ && h.shaper
  | none => false

/-- The finish tag of a group queue's head. -/
def Chip.tagOf (c : Chip) (e q : Nat) : Nat := ((c.sch.tags.find? fun x => x.1 == (e, q)).map fun x => x.2.1).getD 0

/-- Queue numbers that hold a barge for an egress. -/
def Chip.backlog (c : Chip) (e : Nat) : List Nat :=
  (List.range 64).filter fun q => !c.swc.queueEmpty e q

/-- The queue that the scheduler of an egress names (R195). -/
def Chip.selectQueue (c : Chip) (e : Nat) : Option Nat :=
  let able := (c.backlog e).filter fun q => c.eligible e q
  match able.find? fun q => q < 4 with
  | some q => some q
  | none =>
    able.foldl (fun b q =>
      match b with
      | none => some q
      | some p => if later (c.tagOf e p) (c.tagOf e q) == c.tagOf e q then some p else some q) none

/-- Counts each head barge that only the guard band test holds, once (R209). -/
def Chip.countGuard (c : Chip) (e : Nat) : Chip :=
  c.each (c.backlog e) fun q c =>
    match c.headState e q with
    | some h =>
      if h.gate && h.shaper && !h.guard_ && !h.head.guarded then
        (c.modSwc fun w => { w with voqs := w.voqs.map fun d => if d == h.head then { d with guarded := true } else d }).inc F.SCH_GUARD_HOLD
      else c
    | none => c

/-- The barge chosen from a queue starts crossing: virtual time, the next tag and the shapers (R197, R199). -/
def Chip.crossed (c : Chip) (e q budget words : Nat) : Chip :=
  let c := if 4 ≤ q then
      let f := c.tagOf e q
      c.modSch fun s => { s with
        vt := s.vt.setIfInBounds e (later (s.vt.toList.getD e 0) f)
        lastTags := (s.lastTags.filter fun x => x.1 != (e, q)) ++ [((e, q), f)] }
    else c
  (c.chargeShapers e q budget (c.schedLen e words)).retag e q

/-! Weirs (R202 to R205, R527). -/

/-- CIR, PIR (not below CIR), CBS and PBS in bytes (not below 1,024). -/
def Chip.weirCir (c : Chip) (n : Nat) : Nat := c.get (F.SCH_WEIR0_CIR n)
def Chip.weirPir (c : Chip) (n : Nat) : Nat := max (c.get (F.SCH_WEIR1_PIR n)) (c.weirCir n)
def Chip.weirCbs (c : Chip) (n : Nat) : Nat := 64 * max 16 (c.get (F.SCH_WEIR2_CBS n))
def Chip.weirPbs (c : Chip) (n : Nat) : Nat := 64 * max 16 (c.get (F.SCH_WEIR2_PBS n))

/-- Tc and Tp now, in credit units; a weir never committed holds nothing. Marks: DESIGN CHOICE, log 34. -/
def Chip.weirTokens (c : Chip) (n : Nat) : Int × Int :=
  match c.sch.weirs.find? fun x => x.1 == n with
  | some (_, tc, tp) =>
    (creditAt tc (rateUnits (c.weirCir n)) c.now (c.weirCbs n * creditUnit), creditAt tp (rateUnits (c.weirPir n)) c.now (c.weirPbs n * creditUnit))
  | none => (0, 0)

/-- The three-colour marker (R203): green 0, yellow 1, red 2; and what the buckets hold after it. -/
def weirColour (aware : Bool) (pre : Nat) (tc tp b : Int) : Nat × Int × Int :=
  if (aware && pre == 2) || tp < b then (2, tc, tp)
  else if (aware && pre == 1) || tc < b then (1, tc, tp - b)
  else (0, tc - b, tp - b)

/-- Meters a barge of `words` words at a weir: its colour, with the tokens taken (R203). -/
def Chip.meter (c : Chip) (n pre words : Nat) : Nat × Chip :=
  let (tc, tp) := c.weirTokens n
  let (col, tc', tp') := weirColour (c.on (F.SCH_WEIR0_COLOUR_AWARE n)) pre tc tp (16 * (words : Int) * creditUnit)
  (col, c.modSch fun s => { s with weirs := (s.weirs.filter fun x => x.1 != n) ++ [(n, ⟨tc', c.now⟩, ⟨tp', c.now⟩)] })

/-- Can the weir never colour the barge green or yellow (R527)? -/
def Chip.weirHopeless (c : Chip) (n pre words : Nat) : Bool :=
  (c.on (F.SCH_WEIR0_COLOUR_AWARE n) && pre == 2)
    || (c.weirCir n == 0 && c.get (F.SCH_WEIR1_PIR n) == 0 && decide ((c.weirTokens n).2 < 16 * (words : Int) * creditUnit))

end Sys2Proof.Machine
end

