-- ==== Sys2Proof/Machine/SwcOps.lean ====
section
/-! DEFINITION. The switch core's shared operations (05): admission to the virtual output queues, sampling, and what
becomes of descriptors that leave the queues. -/

namespace Sys2Proof.Machine

/-! Admission (R171 to R173, R177, R180). -/

/-- Why a copy is refused, by the sampling cause code (05 Table 05-4). -/
inductive RefuseCause where
  | threshold | pool | red
  deriving DecidableEq

def RefuseCause.code : RefuseCause → Nat
  | .threshold => 1
  | .pool => 2
  | .red => 3

/-- floor(α × SHARED_FREE) of a profile (R171, R176). -/
def Chip.threshold (c : Chip) (profile : Nat) : Nat :=
  let k := max (signed 4 (c.get ⟨F.SWC_DT_PROF.off, 4 * profile, 4⟩)) (-4)
  if 0 ≤ k then c.sharedFree * 2 ^ k.toNat else c.sharedFree / 2 ^ (-k).toNat

/-- TACK, LCTL and ALARM barges (R172). -/
def isCtrl (h : Header) : Bool := h.type == 1 || h.type == 2 || h.type == 4

/-- The outcome of admission for a whole barge: admitted copies and refused ones, with the causes. -/
structure Verdict where
  ok : List Desc
  bad : List (Desc × RefuseCause)

/-- Is the barge one beyond the 64 cells that R172 exempts at its port? -/
def Chip.ctrlExcess (c : Chip) (b : Barge) (inPort : Nat) : Bool := isCtrl b.hdr && !decide (c.swc.ctrlCells inPort < 64)

/-- Steps 1 to 4 of R171 for every copy in ascending order of target, with step 2 and the pool test taken once (R180).
`reliable` is a RELIABLE barge of an adapter port: its RED drop is taken as a mark (R173). An excess barge of R172 is counted unless
it was before (`counted`), and a mark unless the copy bears one. Marks: DEDUCED, log 33. -/
def Chip.judge (c : Chip) (b : Barge) (inPort : Nat) (copies : List Desc) (reliable counted : Bool) : Verdict × Chip :=
  let n := (bargeCells b)
  let excess := c.ctrlExcess b inPort
  let exempt := isCtrl b.hdr && !excess
  let c := c.when (excess && !counted) fun c => c.inc (F.SWC_CTRL_OVER inPort)
  let inReserve := decide (c.get (F.SWC_OCC_IN_USE inPort) + n ≤ c.get (F.SWC_BASIN_RESERVE inPort))
  let inPool := decide (n ≤ c.sharedFree)
  copies.foldl (fun (v, c) d =>
    let (verdict, c) := c.red inPort d.outPort d.queue b.hdr.colour.toNat exempt
    let hit := match verdict with | .drop => !reliable | _ => false
    let marks := match verdict with | .pass => false | _ => !hit
    let c := c.when (marks && !d.mark) fun c => c.inc (F.SWC_MARK inPort)
    let d := if marks then { d with mark := true } else d
    if hit then ({ v with bad := v.bad ++ [(d, .red)] }, c)
    else if inReserve || (exempt && inPool)
        || (!exempt && inPool && decide (c.swc.voqDepth inPort d.outPort d.queue + n ≤ c.threshold (c.dtProfile d.queue))) then
      ({ v with ok := v.ok ++ [d] }, c)
    else ({ v with bad := v.bad ++ [(d, if inPool then .threshold else .pool)] }, c)) (({ ok := [], bad := [] } : Verdict), c)

/-- Does a stored barge hold a word of basin memory (R525)? -/
def Stored.holdsWord (x : Stored) (loc : Word) : Bool :=
  (List.range (bargeWords x.barge.hdr.len.toNat)).any fun n => (x.place[n / 16]?).any fun c => basinLoc c (n % 16) == loc.toNat

/-- Stores an admitted barge and queues its copies (R179). Which free cells it takes no rule says: they are the first free ones
from a free value on (log 2). A mark of a barge with a single target stands in the stored header, so that a retransmission carries it
(R175); one of a multicast copy is that copy's alone (R180). A write ends the poison of the words it takes (14 R431). -/
def Chip.enqueue (c : Chip) (b : Barge) (inPort : Nat) (copies : List Desc) (retain : Option Nat) : Nat × Chip :=
  let sid := c.swc.nextSid
  let (k, c) := c.draw 24_576
  let x : Stored := {
    sid := sid, barge := { b with hdr := { b.hdr with cmark := b.hdr.cmark || (retain.isSome && copies.any (·.mark)) } }, inPort := inPort, cells := bargeCells b, place := freeCells c.swc.usedCells (bargeCells b) k
    refs := copies.length, retained := retain, ctrl := isCtrl b.hdr }
  let c := c.modSwc fun w => { w with nextSid := sid + 1, store := w.store ++ [x], voqs := w.voqs ++ copies.map fun d => { d with sid := sid } }
  let c := ((c.charge inPort (bargeCells b)).inc (F.SWC_ADMIT inPort)).rewritten x.holdsWord
  let c := c.when retain.isSome fun c => c.showRetained inPort
  (sid, c.each copies fun d c => c.becameBacklogged d.outPort d.queue)

/-! Sampling (R189 to R191). -/

/-- What a sampler sees of a barge or copy at its point. -/
structure SamplePoint where
  point : Nat
  inPort : Nat
  outs : Nat
  cause : Nat
  barge : Barge
  marked : Bool
  copy : Bool
  depth : Nat
  tun : Option (Nat × Nat)
  route : Option (Nat × Nat)
  weir : Option Nat

/-- The two metadata words (Table 05-4). -/
def Chip.sampleMeta (c : Chip) (n : Nat) (x : SamplePoint) (sm : Sampler) : List Byte :=
  let h := x.barge.hdr
  let w1 := c.get F.FAB_FRAME * 2 ^ 96 + c.subns * 2 ^ 76 + n * 2 ^ 72 + x.point * 2 ^ 70 + x.inPort * 2 ^ 66 + x.outs * 2 ^ 56
    + x.cause * 2 ^ 52 + h.queue.toNat * 2 ^ 46 + h.colour.toNat * 2 ^ 44 + x.marked.toNat * 2 ^ 43 + x.copy.toNat * 2 ^ 42
    + c.get F.BUD_STATUS_LEVEL * 2 ^ 39 + (bargeWords h.len.toNat - 1) * 2 ^ 33 + x.depth % 2 ^ 15 * 2 ^ 18 + sm.seq % 65536
  let (ti, tg) := x.tun.getD (0xFFF, 0)
  let (ri, rg) := x.route.getD (0, 0)
  let w2 := ti % 4096 * 2 ^ 116 + tg % 16 * 2 ^ 112 + ri % 1024 * 2 ^ 102 + rg % 16 * 2 ^ 98 + min sm.lost 65535 * 2 ^ 82
    + x.weir.getD 0 % 512 * 2 ^ 73 + x.weir.isSome.toNat * 2 ^ 72
  beBytes 16 w1 ++ beBytes 16 w2

/-- One sampler makes its record: P9 builds a sample barge and offers it to its own basin toward P8 (R190, R191). TSEQ and
TSPEC, of which R190 says nothing, are free values (log 2). -/
def Chip.sampleRecord (c : Chip) (n : Fin 16) (x : SamplePoint) : Chip :=
  let sm := c.swc.samplers[n]
  let ws := min (bargeWords x.barge.hdr.len.toNat) 8
  let bytes := c.sampleMeta n x sm ++ ((x.barge.words.take ws).flatMap dpBytes)
  let own := c.get F.FAB_ID_HUB_ID
  let q := c.get F.SWC_SMP_OUT_QUEUE
  let (t1, c) := c.draw 65536
  let (t2, c) := c.draw (2 ^ 32)
  let b : Barge := {
    hdr := {
      dst := BitVec.ofNat 10 own, src := BitVec.ofNat 10 own, tunnel := 0xFFE, queue := BitVec.ofNat 6 q, colour := 0, cmark := false
      mcast := false, hops := 0, tseq := BitVec.ofNat 16 t1, len := BitVec.ofNat 10 bytes.length, type := 5, first := true, last := true
      ackreq := false, retx := false, budget := 0, tspec := BitVec.ofNat 32 t2 }
    payload := bytes }
  let d : Desc := {
    sid := 0, inPort := 9, outPort := 8, queue := q, channel := 0, hops := 0, frame := c.get F.FAB_FRAME, subns := c.subns / 8 * 8
    tun := none, orig := none, isGroup := false, dstTun := none, route := none, mode := 0, strict := false, mark := false, copy := false, weir := none
    retx := false, guarded := false }
  let (v, c) := c.judge b 9 [d] false false
  let set := fun (m : Sampler) (c : Chip) => c.modSwc fun w => { w with samplers := upd w.samplers n fun _ => m }
  match v.bad with
  | [] => set { sm with seq := (sm.seq + 1) % 65536, lost := 0 } (c.enqueue b 9 v.ok none).2
  | (_, cause) :: _ =>
    let c := match cause with
      | .threshold => c.inc (F.SWC_DROP_DT 9)
      | .pool => c.inc (F.SWC_DROP_POOL 9)
      | .red => c.inc (F.SWC_DROP_RED 9)
    set { sm with seq := (sm.seq + 1) % 65536, lost := min (sm.lost + 1) 65535 } ((c.inc F.SWC_SMP_LOST).flag F.SWC_INT_STATUS_SMP_LOST)

/-- Does the barge carry a sample record? Sample barges are never eligible (R189). -/
def isSample (b : Barge) : Bool := b.hdr.type == 5 && b.hdr.tunnel == 0xFFE && b.hdr.src == b.hdr.dst

/-- Does a sampler's PORT watch the point: the egress port of a crossing, the ingress port elsewhere (R189)? -/
def SamplePoint.watched (x : SamplePoint) (port : Nat) : Bool :=
  9 < port || (if x.point = 1 then x.outs.testBit port else port == x.inPort)

/-- Offers a barge to every sampler at one point (R189). Marks: DEDUCED, log 35. -/
def Chip.sample (c : Chip) (x : SamplePoint) : Chip :=
  c.each (List.finRange 16) fun n c =>
    let pt := c.get (F.SWC_SMP_CFG_POINT n)
    let port := c.get (F.SWC_SMP_CFG_PORT n)
    let eligible := c.on (F.SWC_SMP_CFG_EN n) && (if pt = 3 then 0 else pt) == x.point && x.watched port
      && !isSample x.barge && (c.get (F.SWC_SMP_FILT_TYPE_MASK n)).testBit x.barge.hdr.type.toNat
      && (!c.on (F.SWC_SMP_FILT_QUEUE_EN n) || c.get (F.SWC_SMP_FILT_QUEUE n) == x.barge.hdr.queue.toNat)
    if !eligible then c
    else
      let every := max (c.get (F.SWC_SMP_CFG_N n)) 1
      if c.on (F.SWC_SMP_CFG_RANDOM n) then
        let (v, c) := c.draw16 (16 + n)
        if v < 65536 / every then c.sampleRecord n x else c
      else
        let k := c.swc.samplers[n].count + 1
        let c := c.modSwc fun w => { w with samplers := upd w.samplers n fun m => { m with count := if every ≤ k then 0 else k } }
        if every ≤ k then c.sampleRecord n x else c

/-- A record of a barge or copy that is dropped (R189), with its cause code. Marks: DEDUCED, log 35. -/
def Chip.sampleDrop (c : Chip) (b : Barge) (inPort cause : Nat) (tun route : Option (Nat × Nat)) (outs : Nat) : Chip :=
  c.sample {
    point := 2, inPort := inPort, outs := outs, cause := cause, barge := b, marked := false, copy := false, depth := 0, tun := tun
    route := route, weir := none }

/-- The sample point of a descriptor, its barge as the copy stands. -/
def Desc.point (d : Desc) (b : Barge) (point cause depth : Nat) : SamplePoint := {
  point := point, inPort := d.inPort, outs := 2 ^ d.outPort, cause := cause, barge := b, marked := d.mark, copy := d.copy
  depth := depth, tun := d.tun, route := d.route, weir := d.weir }

/-- The barge a descriptor sends: its own HOPS, and CMARK where RED marked this copy (R179, R180). -/
def Desc.barge (d : Desc) (b : Barge) : Barge :=
  { b with hdr := { b.hdr with hops := BitVec.ofNat 6 d.hops, cmark := b.hdr.cmark || d.mark, retx := b.hdr.retx || d.retx } }

/-! Leaving the queues. -/

/-- A queue that has run empty keeps no finish tag: it becomes backlogged again with its next barge (06 R197). -/
def Chip.settleTag (c : Chip) (e q : Nat) : Chip :=
  if c.swc.queueEmpty e q then c.modSch fun s => { s with tags := s.tags.filter fun x => x.1 != (e, q) } else c

/-- The tunnel engine lets go of a retained barge, and its cells are free (R177): copies that it queued to send again leave the
queues, and with `all` every copy, each of them a drop that samplers see (R189) with no cause of Table 05-4. A copy that has not
crossed yet keeps the cells until then. Marks: DEDUCED, log 35. -/
def Chip.unretain (c : Chip) (all : Bool) (sid : Nat) : Chip :=
  match c.swc.stored sid with
  | none => c
  | some x =>
    let leaves := fun (d : Desc) => d.sid == sid && (all || d.retx)
    let gone := c.swc.voqs.filter leaves
    let points := gone.map fun d => d.point (d.barge x.barge) 2 0 (c.swc.voqDepth d.inPort d.outPort d.queue)
    let c := c.modSwc fun w => { w with
      store := w.store.map fun y => if y.sid == sid then { y with retained := none, refs := y.refs - gone.length } else y
      voqs := w.voqs.filter fun d => !leaves d }
    let c := c.each gone fun d c => c.settleTag d.outPort d.queue
    ((c.sweepStore sid).showRetained x.inPort).each points fun y c => c.sample y

/-- Drops one descriptor from the queues, with a sampling cause. -/
def Chip.dropDesc (c : Chip) (d : Desc) (cause : Nat) : Chip :=
  let c := match c.swc.stored d.sid with
    | some x => c.sample (d.point (d.barge x.barge) 2 cause (c.swc.voqDepth d.inPort d.outPort d.queue))
    | none => c
  ((c.modSwc fun w => { w with voqs := w.voqs.erase d }).dropRef d.sid).settleTag d.outPort d.queue

/-! Delivery to P8 (R191; 14 R439). -/

/-- A sample record is lost at P8: the loss counts in the next record of its sampler. -/
def Chip.sampleLost (c : Chip) (b : Barge) : Chip :=
  let c := (c.inc F.SWC_SMP_LOST).flag F.SWC_INT_STATUS_SMP_LOST
  let n : Fin 16 := Fin.ofNat 16 (beVal ((b.payload.drop 6).take 1))
  let carried := beVal ((b.payload.drop 16).take 6) / 2 ^ 2 % 65536
  c.modSwc fun w => { w with samplers := upd w.samplers n fun m => { m with lost := min (m.lost + carried + 1) 65535 } }

/-- Is the barge a MGMT request that a partner relays (16 R481)? -/
def isRelayed (b : Barge) : Bool := b.hdr.type.toNat == typeLctl && b.hdr.tunnel == 0xFFD && wordField b.hdr.tspec 28 4 == 0

/-- A barge reaches P8: while the Lockkeeper is not in RUN it is discarded and counted, but for the relayed requests that the ROM
answers in the recovery wait (16 R476, R482). -/
def Chip.toP8 (c : Chip) (inPort : Nat) (b : Barge) : Chip :=
  if c.get F.LKP_STATUS_STATE = 0 ∨ (c.get F.CFG_STATUS_STATE = 5 ∧ isRelayed b) then
    let c := c.modSwc fun w => { w with p8in := w.p8in ++ [{ inPort := inPort, barge := b }] }
    c.when (isSample b) fun c => c.inc F.SWC_SMP_SENT
  else
    let c := c.inc F.LKP_P8_DROP
    if isSample b then c.sampleLost b else c

end Sys2Proof.Machine
end

