-- ==== Sys2Proof/Machine/Adapter.lean ====
section
/-! DEFINITION. What the adapters share: segmentation of a message into offers (03 R84), the messages that a port has
received, and the tables looked through by what is written in them. -/

namespace Sys2Proof.Machine

/-- A message as the barges of one tunnel (R84): every barge but the last carries 1,008 bytes. -/
def segmentFrom (tunnel : Nat) (tspec : Word) (flood : Option (BitVec 8 × BitVec 12)) : Nat → Bool → List Byte → List Offer
  | 0, _, _ => []
  | n + 1, first, l =>
    let o : Offer := {
      tunnel := BitVec.ofNat 12 tunnel, colour := 0, first := first, last := decide (l.length ≤ 1008), tspec := tspec
      payload := l.take 1008, flood := flood }
    if l.length ≤ 1008 then [o] else o :: segmentFrom tunnel tspec flood n false (l.drop 1008)

/-- The offers of a whole message. -/
def segments (tunnel : Nat) (tspec : Word) (l : List Byte) : List Offer := segmentFrom tunnel tspec none (l.length / 1008 + 1) true l

/-- An adapter offers barges at its port, behind those that wait there. -/
def Chip.offer (port : Nat) (l : List Offer) (c : Chip) : Chip :=
  c.modSwc fun w => { w with offers := w.offers.setIfInBounds port (w.offers.toList.getD port [] ++ l) }

/-- An adapter sends a message. -/
def Chip.sendMsg (port tunnel : Nat) (tspec : Word) (l : List Byte) (c : Chip) : Chip := c.offer port (segments tunnel tspec l)

/-- Byte `i` of a payload. -/
def payloadByte (m : Msg) (i : Nat) : Nat := (m.payload.getD i 0).toNat

/-- The first message that a port has received and that satisfies `p`, taken out; or the one given. -/
def Chip.takeMsg (port : Nat) (p : Msg → Bool) (given : Option Msg) (c : Chip) : Option Msg × Chip :=
  match given with
  | some m => (if p m then some m else none, c)
  | none =>
    let l := c.swc.inbox.toList.getD port []
    match l.find? p with
    | none => (none, c)
    | some m => (some m, c.modSwc fun w => { w with inbox := w.inbox.setIfInBounds port (l.erase m) })

/-- A command that acts on a message of a port: the one given, or the first received that fits. -/
def Chip.onMsg (port : Nat) (p : Msg → Bool) (given : Option Msg) (f : Msg → Chip → Chip) (c : Chip) : Chip :=
  match c.takeMsg port p given with
  | (some m, c) => f m c
  | (none, c) => c

/-- Valid tunnel map entries of an adapter and channel, ascending. -/
def Chip.tunnelsOn (c : Chip) (adapter channel : Nat) : List Nat :=
  (c.written 0x04_4000 8 4096).filter fun t =>
    c.on (F.FAB_TUN0_VALID t) && c.get (F.FAB_TUN0_ADAPTER t) == adapter && c.get (F.FAB_TUN0_CHANNEL t) == channel

/-- The first of them with a MODE. -/
def Chip.tunnelOn (c : Chip) (adapter channel : Nat) (mode : Nat → Bool) : Option Nat :=
  (c.tunnelsOn adapter channel).find? fun t => mode (c.get (F.FAB_TUN1_MODE t))

end Sys2Proof.Machine
end

