-- ==== Sys2Proof/Machine/UsbOps.lean ====
section
/-! DEFINITION. The USB adapter's shared operations (07): the virtual tree, proxy messages, descriptor snooping, endpoints,
and what a lost tunnel means. -/

namespace Sys2Proof.Machine

/-! Proxy messages (R231, Tables 07-2, 07-3). -/

def kindSetup : Nat := 0
def kindOutData : Nat := 1
def kindInReq : Nat := 2
def kindInData : Nat := 3
def kindResult : Nat := 4
def kindPortCmd : Nat := 5
def kindPortEvent : Nat := 6
def kindIsoOut : Nat := 7
def kindIsoIn : Nat := 8
def kindEpReset : Nat := 9

/-- TSPEC of a proxy message. -/
def usbTspec (kind ep : Nat) (dirIn : Bool) (res epoch arg : Nat) : Word :=
  BitVec.ofNat 32 (kind % 16 * 2 ^ 28 + ep % 16 * 2 ^ 24 + dirIn.toNat * 2 ^ 23 + res % 8 * 2 ^ 20 + epoch % 16 * 2 ^ 16 + arg % 2 ^ 14)

def usbKind (m : Msg) : Nat := wordField m.tspec 28 4
def usbEp (m : Msg) : Nat := wordField m.tspec 24 4
def usbDirIn (m : Msg) : Bool := m.tspec.getLsbD 23
def usbRes (m : Msg) : Nat := wordField m.tspec 20 3
def usbEpoch (m : Msg) : Nat := wordField m.tspec 16 4
def usbArg (m : Msg) : Nat := wordField m.tspec 0 14

/-- Is a message one that P3 takes: a known kind and at most 1,026 bytes (R231, Table 07-2)? -/
def usbMsgOk (m : Msg) : Bool := usbKind m ≤ 9 && decide (m.payload.length ≤ 1026)

/-! The USB state. -/

def Chip.modUsb (c : Chip) (f : Usb → Usb) : Chip := { c with usb := f c.usb }

/-- What the head-end keeps of the device at a map entry. -/
def Chip.vdev (c : Chip) (i : Nat) : UsbDev := ((c.usb.vports.find? fun x => x.1 == i).map Prod.snd).getD UsbDev.empty

/-- Stores it, in order of entry; an entry with nothing to keep is not listed. -/
def Chip.setVdev (c : Chip) (i : Nat) (d : UsbDev) : Chip :=
  c.modUsb fun u => { u with
    vports := (u.vports.filter fun x => x.1 < i) ++ (if d = UsbDev.empty then [] else [(i, d)]) ++ u.vports.filter fun x => i < x.1 }

def Chip.modVdev (c : Chip) (i : Nat) (f : UsbDev → UsbDev) : Chip := c.setVdev i (f (c.vdev i))

def Chip.modPhys (c : Chip) (x : Fin 2) (f : UsbPhys → UsbPhys) : Chip := c.modUsb fun u => { u with phys := upd u.phys x f }

/-- The device at a physical port. -/
def Chip.pdev (c : Chip) (x : Fin 2) : UsbDev := c.usb.phys[x].dev
def Chip.modPdev (c : Chip) (x : Fin 2) (f : UsbDev → UsbDev) : Chip := c.modPhys x fun p => { p with dev := f p.dev }

/-- Is the port a downstream port (R225)? U0 of a head-end is not. -/
def Chip.downstream (c : Chip) (x : Fin 2) : Bool := !(c.headEnd && x == 0)

/-- Does L2_MASK select map entry `i` (R228)? -/
def Chip.mapSelected (c : Chip) (i : Nat) : Bool :=
  if i < 15 then !c.bit F.USB_VHUB_CFG_L2_MASK i else c.bit F.USB_VHUB_CFG_L2_MASK ((i - 15) / 15)

/-- Does map entry `i` name a port in use (R228)? -/
def Chip.mapped (c : Chip) (i : Nat) : Bool := c.headEnd && i < 240 && c.on (F.USB_MAP0_VALID i) && c.mapSelected i

/-- The VALID map entries, and those in use. -/
def Chip.mapValid (c : Chip) : List Nat := (c.written 0x09_1000 8 240).filter fun i => c.on (F.USB_MAP0_VALID i)
def Chip.mapList (c : Chip) : List Nat := c.mapValid.filter c.mapped

/-- Shows the numbers of valid entries and of attached devices. -/
def Chip.showUsb (c : Chip) : Chip :=
  (c.put F.USB_STATUS_MAPPED c.mapValid.length).put F.USB_STATUS_ATTACHED (c.mapList.filter fun i => c.on (F.USB_VP0_CONNECT i)).length

/-- Is the virtual port's device suspended as the host sees it? -/
def Chip.vportSuspended (c : Chip) (i : Nat) : Bool := c.get (F.USB_VP0_LINK i) == 4

/-- Does a message of a kind carry isochronous data (R230)? -/
def isoKind (kind : Nat) : Bool := kind == kindIsoOut || kind == kindIsoIn

/-- The tunnel of a mapped port for isochronous data, which ISO_EN allows, or for the rest, whose MODE is RELIABLE (R230). -/
def Chip.mapTunnel (c : Chip) (i : Nat) (iso : Bool) : Option Nat :=
  if iso then (if c.on (F.USB_MAP1_ISO_EN i) then some (c.get (F.USB_MAP1_ISO_TUNNEL i)) else none)
  else if c.get (F.FAB_TUN1_MODE (c.get (F.USB_MAP0_ASYNC_TUNNEL i))) = 2 then some (c.get (F.USB_MAP0_ASYNC_TUNNEL i))
  else none

/-- The head-end sends a proxy message to a mapped port with the current epoch (R232); a message for a suspended device
waits, port commands apart (R246). -/
def Chip.usbSend (i kind ep : Nat) (dirIn : Bool) (arg : Nat) (l : List Byte) (c : Chip) : Chip :=
  match c.mapTunnel i (isoKind kind) with
  | none => c
  | some tunnel =>
    let t := usbTspec kind ep dirIn 0 (c.get (F.USB_VP0_PEPOCH i)) arg
    if kind != kindPortCmd && c.vportSuspended i then c.modVdev i fun d => { d with waiting := d.waiting ++ [(tunnel, t, l)] }
    else c.sendMsg 3 tunnel t l

/-- The waiting messages of a device that is suspended no more. -/
def Chip.usbFlush (i : Nat) (c : Chip) : Chip :=
  let l := (c.vdev i).waiting
  let c := c.modVdev i fun d => { d with waiting := [] }
  c.each l fun x c => c.sendMsg 3 x.1 x.2.1 x.2.2

/-- A port command (Table 07-3); RESET, WARM_RESET, DISABLE and POWER_OFF advance the epoch first (R232). -/
def Chip.portCmd (i code : Nat) (l : List Byte) (c : Chip) : Chip :=
  let c := c.when (code == 2 || code == 3 || code == 4 || code == 7) fun c => c.inc (F.USB_VP0_PEPOCH i)
  c.usbSend i kindPortCmd 0 false code l

/-- SOF_OFFSET as the head-end sends it (R244). -/
def Chip.sofOffset (c : Chip) : Nat :=
  if c.on F.FAB_TIME_STATUS_MASTER_SRC then (c.get F.FAB_SOF_MAP_USB_FRAME + 2 ^ 21 - c.get F.FAB_SOF_MAP_FRAME_LO) % 2048 else 0

def Chip.sendSofOffset (i : Nat) (c : Chip) : Chip := c.portCmd i 10 (beBytes 2 c.sofOffset)

/-- Tells a mapped port whether to hold SuperSpeed off: while U0 has no SuperSpeed link (R251). -/
def Chip.sendSsHold (i : Nat) (c : Chip) : Chip := c.portCmd i 11 [if c.get F.USB_STATUS_U0_SPEED = 2 then 0 else 1]

/-- The tunnels of a physical port (R230): the async one is RELIABLE. -/
def Chip.physTunnel (c : Chip) (x : Fin 2) : Option Nat := c.tunnelOn 3 (0xF0 + x.val) fun m => m == 2
def Chip.physIsoTunnel (c : Chip) (x : Fin 2) : Option Nat := c.tunnelOn 3 (0xF0 + x.val) fun m => m != 2

/-- The field hub sends a proxy message with the epoch of the latest command (R232). -/
def Chip.physSend (x : Fin 2) (kind ep : Nat) (dirIn : Bool) (res arg : Nat) (l : List Byte) (c : Chip) : Chip :=
  match c.physTunnel x with
  | some t => c.sendMsg 3 t (usbTspec kind ep dirIn res (c.get (F.USB_U_STATUS_PEPOCH x)) arg) l
  | none => c

/-- A port event (Table 07-3). -/
def Chip.portEvent (x : Fin 2) (code : Nat) (l : List Byte) (c : Chip) : Chip := c.physSend x kindPortEvent 0 false 0 code l

/-- An action on a USB link of the hub's own. -/
def Chip.usbAct (x : Fin 2) (a : UsbAct) (c : Chip) : Chip := c.emit (.usbPort x.val a)

/-! Endpoints. -/

/-- An endpoint of which nothing has been learned. -/
def UsbEp.fresh (ep : Nat) (dirIn : Bool) : UsbEp := {
  ep := ep, dirIn := dirIn, kind := if ep = 0 then .control else .bulk, maxPacket := 64, interval := 1, burst := 0, streams := 0
  iface := 0, alt := 0, buf := [], taken := 0, asked := 0, halted := false, seq := 0, stream := none, nrdy := false
  given := false, stale := none, sent := 0, numP := 16 }

def UsbDev.getEp (d : UsbDev) (ep : Nat) (dirIn : Bool) : UsbEp :=
  (d.eps.find? fun e => e.ep == ep && e.dirIn == dirIn).getD (UsbEp.fresh ep dirIn)

def UsbDev.setEp (d : UsbDev) (e : UsbEp) : UsbDev :=
  { d with eps := (d.eps.filter fun x => !(x.ep == e.ep && x.dirIn == e.dirIn)) ++ [e] }

def UsbDev.modEp (d : UsbDev) (ep : Nat) (dirIn : Bool) (f : UsbEp → UsbEp) : UsbDev := d.setEp (f (d.getEp ep dirIn))

/-- An endpoint's toggle goes back to DATA0 or its sequence to 0, and its data is discarded (R240). -/
def UsbEp.cleared (e : UsbEp) : UsbEp := { e with
  buf := [], taken := 0, asked := 0, halted := false, seq := 0, stream := none, nrdy := false, given := false, stale := none, sent := 0, numP := 16 }

/-- The stream that a message of a bulk endpoint is about, and the rest of its payload: on an endpoint with streams the first two
bytes of an IN_REQ or OUT_DATA (R241). Marks: DEDUCED, log 87. -/
def UsbEp.streamOf (e : UsbEp) (l : List Byte) : Option Nat × List Byte :=
  if e.streams = 0 then (none, l) else (some (beVal (l.take 2)), l.drop 2)

/-- The payload of an IN_REQ or OUT_DATA. Marks: DEDUCED, log 87. -/
def UsbEp.withStream (e : UsbEp) (stream : Option Nat) (l : List Byte) : List Byte :=
  if e.streams = 0 then l else beBytes 2 (stream.getD 0) ++ l

/-- IN packets read ahead that a device's reset discards (R237). -/
def UsbEp.ahead (e : UsbEp) : Nat := if e.ep ≠ 0 && e.dirIn then e.buf.length else 0
def UsbDev.ahead (d : UsbDev) : Nat := (d.eps.map UsbEp.ahead).foldl (· + ·) 0

/-- Discards everything the head-end keeps of a device (R250, R254); the packets read ahead are counted (R237). -/
def Chip.dropVdev (i : Nat) (c : Chip) : Chip :=
  (c.add F.USB_PREFETCH_LOST (c.vdev i).ahead).modVdev i fun d => { UsbDev.empty with wakeAt := d.wakeAt, resumeAt := d.resumeAt, byHub := d.byHub, u1 := d.u1, u2 := d.u2 }

/-! Snooping (R233). The codes are those of the USB specifications (PRESUMED, log 13). -/

/-- The fields of a setup packet. -/
structure SetupPacket where
  reqType : Nat
  req : Nat
  value : Nat
  index : Nat
  length : Nat

def SetupPacket.ofBytes (l : List Byte) : SetupPacket :=
  let b := fun i => (l.getD i 0).toNat
  { reqType := b 0, req := b 1, value := b 2 + 256 * b 3, index := b 4 + 256 * b 5, length := b 6 + 256 * b 7 }

def SetupPacket.isIn (s : SetupPacket) : Bool := s.reqType.testBit 7
def SetupPacket.setAddress (s : SetupPacket) : Bool := s.reqType == 0 && s.req == 5
def SetupPacket.setConfiguration (s : SetupPacket) : Bool := s.reqType == 0 && s.req == 9
def SetupPacket.setInterface (s : SetupPacket) : Bool := s.reqType == 1 && s.req == 11
def SetupPacket.clearHalt (s : SetupPacket) : Bool := s.reqType == 2 && s.req == 1 && s.value == 0
/-- A request for a descriptor of a type: 1 device, 2 configuration, 15 BOS. -/
def SetupPacket.descriptor (s : SetupPacket) (type : Nat) : Bool := s.reqType == 0x80 && s.req == 6 && s.value / 256 == type

/-- Endpoints that a configuration descriptor lists, with interface and alternate setting, newest first. -/
def usbEndpoints : Nat → List Byte → Nat → Nat → List UsbEp → List UsbEp
  | 0, _, _, _, acc => acc
  | n + 1, l, iface, alt, acc =>
    let b := fun i => (l.getD i 0).toNat
    let len := b 0
    if len < 2 || l.length < len then acc
    else
      let rest := l.drop len
      match b 1 with
      | 4 => usbEndpoints n rest (b 2) (b 3) acc
      | 5 =>
        let kind := match b 3 % 4 with | 0 => UsbKind.control | 1 => .iso | 2 => .bulk | _ => .interrupt
        let e := { UsbEp.fresh (b 2 % 16) (decide (128 ≤ b 2)) with
          kind := kind, maxPacket := (b 4 + 256 * b 5) % 2048, interval := b 6, iface := iface, alt := alt }
        usbEndpoints n rest iface alt (e :: acc)
      | 0x30 =>
        match acc with
        | e :: acc => usbEndpoints n rest iface alt ({ e with burst := b 2, streams := b 3 % 32 } :: acc)
        | [] => usbEndpoints n rest iface alt []
      | _ => usbEndpoints n rest iface alt acc

/-- Does a BOS descriptor show LPM support: the USB 2.0 extension capability with its LPM bit? -/
def bosLpm : Nat → List Byte → Bool
  | 0, _ => false
  | n + 1, l =>
    let b := fun i => (l.getD i 0).toNat
    let len := b 0
    if len < 2 || l.length < len then false
    else (b 1 == 0x10 && b 2 == 2 && (b 3).testBit 1) || bosLpm n (l.drop len)

/-- Descriptors that fit in what is left of the snooping buffer of 2,048 bytes, newest first. -/
def fitConfigs : Nat → List (Nat × List Byte) → List (Nat × List Byte)
  | _, [] => []
  | room, x :: xs => if x.2.length ≤ room then x :: fitConfigs (room - x.2.length) xs else fitConfigs room xs

/-- Takes what a read of the configuration descriptor of an index has given: a shorter read of one already known adds nothing. -/
def UsbDev.learnConfig (d : UsbDev) (index : Nat) (l : List Byte) : UsbDev :=
  let known := ((d.configs.find? fun x => x.1 == index).map Prod.snd).getD []
  if known.take l.length = l then d
  else { d with configs := fitConfigs 2048 ((index, l.take 2048) :: d.configs.filter fun x => x.1 != index) }

/-- Keeps what the data stage of a descriptor request has shown (R233). Marks: PRESUMED, log 13. -/
def UsbDev.learn (d : UsbDev) : UsbDev :=
  match d.setup with
  | none => d
  | some l =>
    let s := SetupPacket.ofBytes l
    if s.descriptor 2 then d.learnConfig (s.value % 256) d.data
    else if s.descriptor 15 then
      let whole := 4 ≤ d.data.length && decide ((d.data.getD 2 0).toNat + 256 * (d.data.getD 3 0).toNat ≤ d.data.length)
      { d with lpm := bosLpm d.data.length d.data || (d.lpm && !whole) }
    else d

/-- Takes bMaxPacketSize0 from a device descriptor that passes: every first packet holds it. -/
def UsbDev.learnEp0 (d : UsbDev) : UsbDev :=
  match d.setup with
  | some l => if (SetupPacket.ofBytes l).descriptor 1 && decide (8 ≤ d.data.length) then { d with ep0 := (d.data.getD 7 0).toNat } else d
  | none => d

/-- Is a packet of `n` bytes a short one? On endpoint 0 the largest packet is fixed at low, high and SuperSpeed; at full speed it is what the
device descriptor has shown, and until then any of the sizes that USB allows may be a whole packet. Marks: PRESUMED, log 13. -/
def UsbDev.short (d : UsbDev) (speed : Nat) (e : UsbEp) (n : Nat) : Bool :=
  if e.ep ≠ 0 then decide (n < e.maxPacket)
  else match speed with
    | 1 => decide (n < 8)
    | 3 => decide (n < 64)
    | 4 => decide (n < 512)
    | _ => if d.ep0 = 0 then !([8, 16, 32, 64].contains n) else decide (n < d.ep0)

/-- The endpoints of a configuration by its value, as its descriptor lists them. -/
def UsbDev.configured (d : UsbDev) (value : Nat) : List UsbEp :=
  match d.configs.find? fun x => (x.2.getD 5 0).toNat == value && decide (6 ≤ x.2.length) with
  | some (_, l) => (usbEndpoints l.length l 0 0 []).reverse
  | none => []

/-- Is a configuration descriptor too long to be supported (R233)? -/
def UsbDev.configTooLong (d : UsbDev) : Bool :=
  match d.setup with
  | some l => (SetupPacket.ofBytes l).descriptor 2 && decide (4 ≤ d.data.length) && decide (2048 < (d.data.getD 2 0).toNat + 256 * (d.data.getD 3 0).toNat)
  | none => false

/-- Has a device descriptor of hub class passed (R235)? -/
def UsbDev.hubClass (d : UsbDev) : Bool :=
  match d.setup with
  | some l => (SetupPacket.ofBytes l).descriptor 1 && decide (5 ≤ d.data.length) && (d.data.getD 4 0) == 9
  | none => false

/-- The endpoints whose toggles a completed request resets (R240), and the device after it: SET_CONFIGURATION and
SET_INTERFACE make the endpoints of their settings the active ones (R233). Marks: PRESUMED, log 13. -/
def UsbDev.applyRequest (d : UsbDev) : List (Nat × Bool) × UsbDev :=
  match d.setup with
  | none => ([], d)
  | some l =>
    let s := SetupPacket.ofBytes l
    let keys := fun (l : List UsbEp) => l.map fun e => (e.ep, e.dirIn)
    if s.setConfiguration then
      let v := s.value % 256
      let new := if v = 0 then [] else (d.configured v).filter fun e => e.alt == 0
      let old := d.eps.filter fun e => e.ep != 0
      ((keys old ++ keys new).dedup, { d with eps := (d.eps.filter fun e => e.ep == 0) ++ new, active := v })
    else if s.setInterface then
      let mine := fun (e : UsbEp) => e.ep != 0 && e.iface == s.index % 256
      let new := (d.configured d.active).filter fun e => mine e && e.alt == s.value % 256
      ((keys (d.eps.filter mine) ++ keys new).dedup, { d with eps := (d.eps.filter fun e => !mine e) ++ new })
    else if s.clearHalt then
      let ep := s.index % 16
      let i := decide (128 ≤ s.index % 256)
      ([(ep, i)], d.modEp ep i UsbEp.cleared)
    else ([], d)

/-! Ports that empty (R251, R254). -/

/-- Change bits of the hub classes (PRESUMED, log 13). -/
def changeConnection : Nat := 0
def changeEnable : Nat := 1
def changeSuspend : Nat := 2
def changeOverCurrent : Nat := 3
def changeReset : Nat := 4
def changeLinkState : Nat := 6

/-- A copy of a virtual hub. -/
def Chip.vhub (c : Chip) (k : Nat) (ss : Bool) : VHub := (c.usb.vhubs.find? fun x => x.hub == k && x.ss == ss).getD (VHub.fresh k ss)

/-- Stores it. -/
def Chip.setVhub (x : VHub) (c : Chip) : Chip :=
  c.modUsb fun u => { u with vhubs := (u.vhubs.filter fun y => !(y.hub == x.hub && y.ss == x.ss)) ++ [x] }

def Chip.modVhub (k : Nat) (ss : Bool) (f : VHub → VHub) (c : Chip) : Chip := c.setVhub (f (c.vhub k ss))

/-- A hub's SuperSpeed status change endpoint has something to give, and the host waits for ERDY. -/
def Chip.hubErdy (k : Nat) (c : Chip) : Chip :=
  c.when (c.vhub k true).nrdy fun c => (c.modVhub k true fun h => { h with nrdy := false }).emit (.usbHost .erdy)

/-- The virtual hub whose port a map entry is (R228). -/
def hubOfEntry (i : Nat) : Nat := if i < 15 then 0 else (i - 15) / 15 + 1

/-- Sets a change bit of a virtual port. -/
def Chip.setChange (i bit : Nat) (c : Chip) : Chip := (c.putBit (F.USB_VP1_CHANGE i) bit true).hubErdy (hubOfEntry i)

/-- The virtual port reports empty, and its device's state is discarded (R254). -/
def Chip.vportEmpty (i : Nat) (c : Chip) : Chip :=
  let c := c.dropVdev i
  let c := ((c.put (F.USB_VP0_CONNECT i) 0).put (F.USB_VP0_ENABLED i) 0).put (F.USB_VP0_SPEED i) 0
  let c := ((c.put (F.USB_VP0_ADDR i) 0).put (F.USB_VP0_RESETTING i) 0).put (F.USB_VP0_LINK i) 0
  (c.setChange i changeConnection).showUsb

/-- A port of the tree goes to the powered-off state of the hub class, and nothing of its device is kept (R251). -/
def Chip.vportOff (i : Nat) (c : Chip) : Chip :=
  let c := (c.dropVdev i).setVdev i UsbDev.empty
  let e := c.get (F.USB_VP0_PEPOCH i)
  (((c.put (F.USB_VP0 i) 0).put (F.USB_VP1 i) 0).put (F.USB_VP0_PEPOCH i) e).showUsb

/-- A physical port is disabled with a cause (Table 07-3); VBUS stays. Causes 2 and 3 set REFUSED. -/
def Chip.physDisable (x : Fin 2) (cause : Nat) (c : Chip) : Chip :=
  let c := (c.put (F.USB_U_STATUS_ENABLED x) 0).put (F.USB_U_STATUS_CAUSE x) cause
  let c := c.modPhys x fun p => { p with dev := UsbDev.empty, resetting := false }
  let c := c.when (cause == 2 || cause == 3) fun c => (c.put (F.USB_U_STATUS_REFUSED x) 1).flag F.USB_INT_STATUS_REFUSED
  c.portEvent x 7 [BitVec.ofNat 8 cause]

/-- The device of a physical port is reported anew (R254). -/
def Chip.reconnect (x : Fin 2) (c : Chip) : Chip :=
  (c.modPhys x fun p => { p with lost := false }).when (c.on (F.USB_U_STATUS_CONNECT x)) fun c =>
    c.portEvent x 1 [BitVec.ofNat 8 (c.get (F.USB_U_STATUS_SPEED x))]

/-- The physical port that a lost tunnel serves is disabled, with VBUS as it was, and reports its device once its tunnel has synchronised
again (R254). -/
def Chip.usbPhysLost (t : Nat) (c : Chip) : Chip :=
  c.each [(0 : Fin 2), 1] fun x c => c.when (c.downstream x && c.physTunnel x == some t) fun c =>
    (c.put (F.USB_U_STATUS_ENABLED x) 0).modPhys x fun p => { p with dev := UsbDev.empty, resetting := false, lost := true }

/-- A tunnel has been lost, at this end or at the other (R254): its mapped ports are lost with it, and its physical port. -/
def Chip.usbTunnelLost (t : Nat) (c : Chip) : Chip :=
  let hit := c.mapList.filter fun i => c.get (F.USB_MAP0_ASYNC_TUNNEL i) == t
  (c.each hit fun i c => (c.vportEmpty i).flag F.USB_INT_STATUS_TUNNEL_LOST).usbPhysLost t

/-- The own sender of a tunnel has synchronised. -/
def Chip.usbSynced (t : Nat) (c : Chip) : Chip :=
  c.each [(0 : Fin 2), 1] fun x c => c.when (c.downstream x && c.physTunnel x == some t && c.usb.phys[x].lost) (Chip.reconnect x)

/-- A SYNC other than the first says that the other end has lost the tunnel; it synchronises it, where the own sender is still
synchronised. Marks: DEDUCED, log 42. -/
def Chip.usbPeerLost (t : Nat) (c : Chip) : Chip :=
  let c := c.usbTunnelLost t
  c.when (c.on (F.FAB_TSTATE1_TX_SYNCED t)) (Chip.usbSynced t)

end Sys2Proof.Machine
end

