-- ==== Sys2Proof/Machine/FabOps.lean ====
section
/-! DEFINITION. Forwarding's shared operations (04): tables, ring protection and egress choice, the placing of barges into
admission, TACKs, route notices, routability and the isolated state. -/

namespace Sys2Proof.Machine

/-- Changes the forwarding block's own state. -/
def Chip.modFab (c : Chip) (f : Fab → Fab) : Chip := { c with fab := f c.fab }

/-! Tables (R124, R127, R135, Tables 04-2 to 04-4). -/

/-- A tunnel map entry as lookups read it. -/
structure TunEntry where
  valid : Bool
  adapter : Nat
  channel : Nat
  peer : Nat
  weir : Nat
  peerTun : Nat
  queue : Nat
  budget : Nat
  mode : Nat
  strict : Bool
  revoke : Bool
  gen : Nat
  mcast : Bool
  deriving DecidableEq, Repr

/-- Does the chapter of the adapter take this CHANNEL: P3 R230, P4 R261, P7 R310?. Marks: DEDUCED, log 69. -/
def channelOk (headEnd : Bool) (adapter channel : Nat) : Bool :=
  match adapter with
  | 3 => if channel ≤ 0xEF then headEnd else if channel == 0xF0 then !headEnd else channel == 0xF1
  | 4 => (channel ≤ 0x3F && headEnd) || channel == 0x40 || channel == 0x41
  | 6 | 7 => channel == 0
  | _ => true

/-- Reads a tunnel map entry: MODE 3, an ADAPTER that is no local port 3 to 9, MCAST with MODE RELIABLE and a CHANNEL the
adapter does not take make it invalid (R145, Table 04-3). Marks: DEDUCED, log 69. -/
def Chip.tunEntry (c : Chip) (t : Nat) : TunEntry :=
  let adapter := c.get (F.FAB_TUN0_ADAPTER t)
  let channel := c.get (F.FAB_TUN0_CHANNEL t)
  let mode := c.get (F.FAB_TUN1_MODE t)
  let mcast := c.on (F.FAB_TUN1_MCAST t)
  { valid := c.on (F.FAB_TUN0_VALID t) && 3 ≤ adapter && adapter ≤ 9 && mode != 3 && !(mcast && mode == 2) && channelOk c.headEnd adapter channel
    adapter := adapter, channel := channel, peer := c.get (F.FAB_TUN0_PEER_HUB t), weir := c.get (F.FAB_TUN0_WEIR t)
    peerTun := c.get (F.FAB_TUN1_PEER_TUNNEL t), queue := c.get (F.FAB_TUN1_QUEUE t), budget := c.get (F.FAB_TUN1_BUDGET t)
    mode := mode, strict := c.on (F.FAB_TUN1_STRICT_ORDER t), revoke := c.on (F.FAB_TUN1_REVOKE t)
    gen := c.get (F.FAB_TUN1_GEN t), mcast := mcast }

/-- A multicast group entry as lookups read it. -/
structure GroupEntry where
  valid : Bool
  ports : Nat
  atomic : Bool
  channel : Nat
  mcHops : Nat
  gen : Nat
  revoke : Bool

/-- The hub's ring: size, position and east port; none without a ring or with a void membership (R150). -/
def Chip.ring (c : Chip) : Option (Nat × Nat × Nat) :=
  let n := c.get F.FAB_RING_RING_SIZE
  let p := c.get F.FAB_RING_RING_POS
  if 3 ≤ n && n ≤ 64 && p < n then some (n, p, c.get F.FAB_RING_EAST_PORT) else none

/-- Word of group 255 (R127): VALID with the two ring ports, or with no port where there is no ring.
Marks: DEDUCED, log 67. -/
def Chip.group255 (c : Chip) : Word := BitVec.ofNat 32 (1 + if c.ring.isSome then 3 * 2 else 0)

/-- Reads a multicast group entry; group 255 is the route notices' own, whose copies leave with HOPS n − 2 (R127, R151).
Marks: DEDUCED, log 67. -/
def Chip.groupEntry (c : Chip) (g : Nat) : GroupEntry :=
  if g = 255 then {
    valid := true, ports := wordField c.group255 1 10, atomic := false, channel := 0
    mcHops := match c.ring with | some (n, _, _) => n - 2 | none => 0
    gen := 0, revoke := false }
  else {
    valid := c.on (F.FAB_GROUP_VALID g), ports := c.get (F.FAB_GROUP_PORTS g), atomic := c.on (F.FAB_GROUP_ATOMIC g)
    channel := c.get (F.FAB_GROUP_CHANNEL g), mcHops := c.get (F.FAB_GROUP_MC_HOPS g), gen := c.get (F.FAB_GROUP_GEN g)
    revoke := c.on (F.FAB_GROUP_REVOKE g) }

/-! Egress choice (R134, R149, R150). -/

/-- Is a trunk port routable (R149)? -/
def Chip.routable (c : Chip) (p : Nat) : Bool := c.bit F.FAB_STATUS_ROUTABLE p

/-- What route choice sees of the trunks now. -/
def Chip.masks (c : Chip) : RouteMasks := {
  routable := c.get F.FAB_STATUS_ROUTABLE, broken := c.get (F.FAB_BROKEN 0) + c.get (F.FAB_BROKEN 1) * 2 ^ 32
  exitLost := c.get (F.FAB_EXIT_LOST 0) + c.get (F.FAB_EXIT_LOST 1) * 2 ^ 32 }

/-- The links of the arc from position `h` to exit `e` in a ring of `n`, going east or west (R150). -/
def arcLinks (n h e : Nat) (east : Bool) : List Nat :=
  if east then (List.range ((e + n - h) % n)).map fun k => (h + k) % n
  else (List.range ((h + n - e) % n)).map fun k => (h + n - 1 - k) % n

/-- Is a route by a trunk port blocked (R150)? A route by T2 has no arc, and without a ring no arc check is made. -/
def Chip.routeBlocked (c : Chip) (m : RouteMasks) (port exit : Nat) (spur : Bool) : Bool :=
  match c.ring with
  | none => false
  | some (n, h, east) =>
    (port != 2 && (arcLinks n h (exit % n) (port == east)).any m.broken.testBit) || (spur && m.exitLost.testBit (exit % n))

/-- What the route entry of a destination gives (R134). -/
structure RouteChoice where
  egress : Option Nat
  gen : Nat

/-- The egress that the route entry of a destination gives where the trunks stand as the masks say. -/
def Chip.routeBy (c : Chip) (m : RouteMasks) (dst : Nat) : RouteChoice :=
  let able := fun (port exit : Nat) (spur : Bool) => port != 3 && m.routable.testBit port && !c.routeBlocked m port exit spur
  let pri := c.get (F.FAB_ROUTE0_PRI dst)
  let sec := c.get (F.FAB_ROUTE0_SEC dst)
  let gen := c.get (F.FAB_ROUTE1_GEN dst)
  if !c.on (F.FAB_ROUTE0_VALID dst) then { egress := none, gen := gen }
  else if able pri (c.get (F.FAB_ROUTE0_EXIT_PRI dst)) (c.on (F.FAB_ROUTE0_SPUR_PRI dst)) then { egress := some pri, gen := gen }
  else if able sec (c.get (F.FAB_ROUTE0_EXIT_SEC dst)) (c.on (F.FAB_ROUTE0_SPUR_SEC dst)) then { egress := some sec, gen := gen }
  else { egress := none, gen := gen }

/-- Egress choice (R134). -/
def Chip.routeTo (c : Chip) (dst : Nat) : RouteChoice := c.routeBy c.masks dst

/-- Must a lookup wait: a walk toward a port runs, and the choice for the destination, which was that port before it was lost, is now
another one (R155)? -/
def Chip.mustWait (c : Chip) (dst : Nat) : Bool :=
  ports.any fun p =>
    match c.fab.walking[p] with
    | some m => (c.routeBy m dst).egress == some p.val && (c.routeTo dst).egress.isSome && (c.routeTo dst).egress != some p.val
    | none => false

/-- A descriptor with nothing decided yet, stamped now at 8 ns resolution (R169). -/
def Chip.desc (c : Chip) (inPort outPort queue hops : Nat) : Desc := {
  sid := 0, inPort := inPort, outPort := outPort, queue := queue, channel := 0, hops := hops, frame := c.get F.FAB_FRAME
  subns := c.subns / 8 * 8, tun := none, orig := none, isGroup := false, dstTun := none, route := none, mode := 0, strict := false, mark := false, copy := false
  weir := none, retx := false, guarded := false }

/-! Admission of one barge with one target (05 R171 to R173). -/

/-- Counts a refusal in exactly one counter of the ingress port (05 R193). -/
def Chip.countRefused (c : Chip) (inPort : Nat) (cause : RefuseCause) : Chip :=
  match cause with
  | .threshold => c.inc (F.SWC_DROP_DT inPort)
  | .pool => c.inc (F.SWC_DROP_POOL inPort)
  | .red => c.inc (F.SWC_DROP_RED inPort)

/-- The ports' bits of some descriptors. -/
def outBits (l : List Desc) : Nat := l.foldl (fun n d => n ||| 2 ^ d.outPort) 0

/-- The ingress sample point of a barge (05 R189), as it stands before the steps of R171. -/
def Chip.ingressPoint (c : Chip) (b : Barge) (copies : List Desc) : Option SamplePoint :=
  copies.head?.map fun d =>
    { (d.point b 0 0 (c.swc.voqDepth d.inPort d.outPort d.queue)) with outs := outBits copies, copy := false }

/-- Offers a point to the samplers. -/
def Chip.sampleAt (c : Chip) (x : Option SamplePoint) : Chip :=
  match x with
  | some x => c.sample x
  | none => c

/-- What came of an offer to admission. -/
inductive Admit where
  | admitted (sid : Nat)
  | dropped
  | held

/-- Would the port's retained cells exceed RETAIN_MAX with this barge (05 R177)?. Marks: DEDUCED, log 33. -/
def Chip.retainFull (c : Chip) (inPort cells : Nat) : Bool :=
  decide (c.get (F.SWC_BASIN_RETAIN_MAX inPort) < c.get (F.SWC_RETAIN_RETAINED inPort) + cells)

/-- Is a TSEQ outstanding at a RELIABLE sender?. Marks: DEDUCED, log 58. -/
def Chip.outstanding (c : Chip) (t q : Nat) : Bool :=
  let oldest := c.get (F.FAB_TSTATE0_TX_OLDEST t)
  decide ((q + 65536 - oldest) % 65536 < (c.get (F.FAB_TSTATE0_TX_NEXT t) + 65536 - oldest) % 65536)

/-- The tunnel that keeps a RELIABLE barge's cells once it is admitted: none where its state was cleared since (R136, 05 R177).
Marks: DEDUCED, log 33. -/
def Chip.keeper (c : Chip) (b : Barge) (retain : Option Nat) : Option Nat := retain.filter fun t => c.outstanding t b.hdr.tseq.toNat

/-- The barge that a port holds. -/
def Chip.heldAt (c : Chip) (port : Nat) : Option HeldBarge := c.swc.held.toList.getD port none

/-- Holds a barge at its port; every refused cycle counts (05 R173). -/
def Chip.hold (c : Chip) (inPort : Nat) (x : HeldBarge) : Chip :=
  (c.inc (F.SWC_BACKPRESS inPort)).modSwc fun w => { w with held := w.held.setIfInBounds inPort (some x) }

/-- Admission of a barge with a single target: admitted, dropped and counted, or held at its port (05 R171 to R173, R177).
`retain` is the RELIABLE tunnel that keeps its cells; `counted` says that it was counted as an excess barge. -/
def Chip.admitOne (c : Chip) (b : Barge) (d : Desc) (retain : Option Nat) (counted : Bool) : Admit × Chip :=
  let i := d.inPort
  let keep := c.keeper b retain
  let x : HeldBarge := { barge := b, copies := [d], retain := retain, red := false, offered := b.hdr.colour, counted := counted }
  if keep.isSome && c.retainFull i (bargeCells b) then
    (.held, ((c.put (F.SWC_RETAIN_FULL i) 1).flag F.SWC_INT_STATUS_RETAIN_FULL).hold i x)
  else
    let x := { x with counted := counted || c.ctrlExcess b i }
    let (v, c) := c.judge b i [d] retain.isSome counted
    match v.bad with
    | [] =>
      let (sid, c) := c.enqueue b i v.ok keep
      (.admitted sid, c)
    | (d, cause) :: _ =>
      if retain.isSome || i == 8 then (.held, c.hold i { x with copies := [d] })
      else (.dropped, (c.countRefused i cause).sample (d.point b 2 cause.code (c.swc.voqDepth i d.outPort d.queue)))

/-! Placing (R131 case 4, R133, R134). -/

/-- The header word of a barge this hub originates. Marks: DESIGN CHOICE, log 17. -/
def Chip.ownHeader (c : Chip) (dst tunnel queue type hops : Nat) : Header := {
  dst := BitVec.ofNat 10 dst, src := BitVec.ofNat 10 (c.get F.FAB_ID_HUB_ID), tunnel := BitVec.ofNat 12 tunnel
  queue := BitVec.ofNat 6 queue, colour := 0, cmark := false, mcast := false, hops := BitVec.ofNat 6 hops, tseq := 0, len := 0
  type := BitVec.ofNat 4 type, first := true, last := true, ackreq := false, retx := false, budget := 0, tspec := 0 }

/-- Drops a barge at lookup: its counter, then the drop sample point. -/
def Chip.dropAt (c : Chip) (f : Field) (b : Barge) (inPort cause : Nat) (tun route : Option (Nat × Nat)) : Chip :=
  (c.inc f).sampleDrop b inPort cause tun route 0

/-! TACKs (R137). -/

/-- A TACK to a hub's tunnel. -/
def Chip.tackBarge (c : Chip) (dst tunnel queue tseq status low : Nat) : Barge :=
  let h := c.ownHeader dst tunnel queue 1 63
  { hdr := { h with tseq := BitVec.ofNat 16 tseq, tspec := BitVec.ofNat 32 (status * 2 ^ 28 + low) }, payload := [] }

/-- The tunnel engine places a TACK or a retransmission later. -/
def Chip.putOff (x : Later) (c : Chip) : Chip := c.modSwc fun w => { w with later := w.later ++ [x] }

/-- Admission of a TACK that the hub makes: it is sampled before R171 (05 R189), and a refused one is dropped and counted at its port
(R148; 05 R173). -/
def Chip.admitTack (b : Barge) (d : Desc) (c : Chip) : Chip :=
  let x := c.ingressPoint b [d]
  let (v, c) := c.judge b d.inPort [d] false false
  let c := match v.bad with
    | [] => (c.enqueue b d.inPort v.ok none).2
    | (d, cause) :: _ =>
      (c.countRefused d.inPort cause).sample (d.point b 2 cause.code (c.swc.voqDepth d.inPort d.outPort d.queue))
  c.sampleAt x

/-- Sends a TACK, charged to the basin of a port. One for this hub queues toward the adapter port of the tunnel that it acts on,
behind the barges of the same queue, and its engine takes it as it leaves (R138, R148); one for another hub is placed by the route
entry, also on the trunk port whose basin it is charged to: it did not arrive there (R148; 01 R12). While its port holds a barge it
waits (05 R173), and so it does for a walk whose new egress it would choose (R155). Marks: DEDUCED, log 84. -/
def Chip.sendTackTo (c : Chip) (inPort : Nat) (b : Barge) : Chip :=
  let dst := b.hdr.dst.toNat
  let t := b.hdr.tunnel.toNat
  if c.on F.FAB_STATUS_ISOLATED then c
  else if !c.on F.FAB_ID_ID_VALID then c.dropAt F.FAB_NO_ROUTE b inPort 6 none none
  else if (c.heldAt inPort).isSome || (c.ownId != some dst && c.mustWait dst) then c.putOff (.tack inPort b)
  else if c.ownId == some dst then
    let e := c.tunEntry t
    if !e.valid || e.adapter == 8 then c.dropAt F.FAB_NO_TUNNEL b inPort 7 (some (t, e.gen)) none
    else c.admitTack b { c.desc inPort e.adapter b.hdr.queue.toNat 63 with tun := some (t, e.gen) }
  else
    let r := c.routeTo dst
    match r.egress with
    | none => c.dropAt F.FAB_NO_ROUTE b inPort 6 none (some (dst, r.gen))
    | some e => c.admitTack b { c.desc inPort e b.hdr.queue.toNat 63 with route := some (dst, r.gen) }

/-- Sends a TACK of a status for a local tunnel to its peer. It is charged to the basin of the tunnel's ADAPTER port
(DEDUCED, log 12). -/
def Chip.sendTack (c : Chip) (t tseq status : Nat) : Chip :=
  let e := c.tunEntry t
  let q := if status = 4 && e.mode = 1 then e.queue else c.get F.FAB_CFG_TACK_QUEUE
  c.sendTackTo e.adapter (c.tackBarge e.peer e.peerTun q tseq status 0)

/-! Tunnel state (R136). -/

def Tun.fresh (id : Nat) : Tun := {
  id := id, outs := [], syncSeq := none, syncs := 0, nakOut := false, oowAt := none, sinceAck := 0, sinceAckreq := 0, openMsg := none, quiet := false }

/-- The engine's state of a tunnel. -/
def Chip.tun (c : Chip) (t : Nat) : Tun := (c.fab.tuns.find? fun x => x.id == t).getD (Tun.fresh t)

/-- Stores the engine's state of a tunnel, in order of tunnel. -/
def Chip.setTun (c : Chip) (x : Tun) : Chip :=
  c.modFab fun f => { f with tuns := (f.tuns.filter fun y => y.id < x.id) ++ x :: f.tuns.filter fun y => x.id < y.id }

def Chip.modTun (c : Chip) (t : Nat) (g : Tun → Tun) : Chip := c.setTun (g (c.tun t))

/-- Releases every retained barge of a tunnel; with `all` the copies that have not crossed go too. -/
def Chip.releaseAll (c : Chip) (t : Nat) (all : Bool) : Chip :=
  (c.each (c.tun t).outs fun o c => c.unretain all o.2).modTun t fun x => { x with outs := [] }

/-- Clears a tunnel's state (R136): RAW needs no synchronisation. -/
def Chip.clearTunnel (c : Chip) (t : Nat) (raw : Bool) : Chip :=
  let c := c.releaseAll t false
  let c := (c.put (F.FAB_TSTATE0 t) 0).put (F.FAB_TSTATE1 t) 0
  let c := c.put (F.FAB_TSTATE1_TX_SYNCED t) raw.toNat
  (c.modFab fun f => { f with tuns := f.tuns.filter fun x => x.id != t }).usbTunnelLost t

/-- A barge of a tunnel that its port holds is discarded, which samplers see as a drop (05 R189) with no cause of Table 05-4.
Marks: DEDUCED, log 35. -/
def Chip.dropHeld (t : Nat) (c : Chip) : Chip :=
  let gone := c.swc.held.toList.filterMap fun (x : Option HeldBarge) => x.filter fun y => y.retain == some t
  let points := gone.flatMap fun y => y.copies.map fun d => d.point y.barge 2 0 (c.swc.voqDepth d.inPort d.outPort d.queue)
  (c.modSwc fun w => { w with held := w.held.map fun (x : Option HeldBarge) => x.filter fun y => y.retain != some t }).each points fun y c => c.sample y

/-- The tunnel reaches its retry limit (R142, 05 R188): STALLED, the outstanding barges are discarded wherever they stand, which
advances TX_OLDEST, and it resynchronises. Marks: DEDUCED, log 39. -/
def Chip.stallTunnel (c : Chip) (t : Nat) : Chip :=
  let n := (c.get (F.FAB_TSTATE0_TX_NEXT t) + 65536 - c.get (F.FAB_TSTATE0_TX_OLDEST t)) % 65536
  let c := c.put (F.FAB_TSTATE1_STALLED t) 1
  let c := ((c.releaseAll t true).dropHeld t).add F.FAB_TUN_ABANDON n
  let c := (c.put (F.FAB_TSTATE0_TX_OLDEST t) (c.get (F.FAB_TSTATE0_TX_NEXT t))).put (F.FAB_TSTATE1_RETRIES t) 0
  let c := (c.flag F.FAB_INT_STATUS_TUN_STALL).raiseOwn 0x20 0x20 t
  ((c.put (F.FAB_TSTATE1_TX_SYNCED t) 0).modTun t fun x => { x with syncSeq := none, syncs := 0 }).usbTunnelLost t

/-! Duplicates and isolation (R122, R123). -/

/-- A duplicate of the own hub ID is detected (R122). -/
def Chip.duplicateId (c : Chip) : Chip :=
  if c.on F.FAB_STATUS_DUP then c.flag F.FAB_INT_STATUS_DUP_ID
  else (((c.put F.FAB_STATUS_DUP 1).put F.FAB_STATUS_ISOLATED 1).flag F.FAB_INT_STATUS_DUP_ID).raiseOwn 0x08 0xFF 0

/-! Ring protection (R149 to R154, R526). -/

/-- The protection bit of an own port: (spur?, index) (R526). -/
def Chip.ownProtection (c : Chip) (p : Port) : Option (Bool × Nat) :=
  match c.ring with
  | none => none
  | some (n, h, east) =>
    if p.val = 2 then some (true, h) else if p.val = east then some (false, h) else some (false, (h + n - 1) % n)

/-- Sets or clears a protection bit; a change sets RING_NOTICE. -/
def Chip.setProtection (c : Chip) (spur : Bool) (i : Nat) (v : Bool) : Chip :=
  let f := if spur then F.FAB_EXIT_LOST (i / 32) else F.FAB_BROKEN (i / 32)
  if c.bit f (i % 32) == v then c else (c.putBit f (i % 32) v).flag F.FAB_INT_STATUS_RING_NOTICE

/-- A trunk port stops being routable (R149, R526): its own protection bit sets and the walk of the queues toward it
starts. -/
def Chip.routabilityLost (p : Port) (c : Chip) : Chip :=
  let m := c.masks
  let c := (c.putBit F.FAB_STATUS_ROUTABLE p.val false).flag F.FAB_INT_STATUS_PROTECT
  let c := c.modFab fun f => { f with
    hadLoss := upd f.hadLoss p fun _ => true, ownLost := upd f.ownLost p fun _ => true, walking := upd f.walking p fun _ => some m
    restoreLeft := upd f.restoreLeft p fun _ => 0 }
  match c.ownProtection p with
  | some (spur, i) => c.setProtection spur i true
  | none => c

/-- A trunk port becomes routable (R149, R526): the hub's own bit clears. -/
def Chip.routabilityGained (p : Port) (c : Chip) : Chip :=
  let was := c.fab.ownLost[p]
  let c := c.putBit F.FAB_STATUS_ROUTABLE p.val true
  let c := c.modFab fun f => { f with ownLost := upd f.ownLost p fun _ => false }
  let c := c.when was fun c => c.flag F.FAB_INT_STATUS_PROTECT
  match was, c.ownProtection p with
  | true, some (spur, i) => c.setProtection spur i false
  | _, _ => c

/-- A trunk port is admitted (13): with a loss before it, the wait-to-restore runs first (R154); at boot it does not. -/
def Chip.portAdmitted (p : Port) (c : Chip) : Chip :=
  if c.fab.hadLoss[p] then c.putBit F.FAB_STATUS_WTR_RUN p.val true else c.routabilityGained p

/-- A trunk port's link or admission ends: any wait-to-restore stops, and a routable port stops being so (R149). -/
def Chip.portUnrouted (p : Port) (c : Chip) : Chip :=
  let c := c.putBit F.FAB_STATUS_WTR_RUN p.val false
  if c.routable p then c.routabilityLost p else c

/-! What the egress stage tests (R129, R130). -/

/-- Does an entry that is set to revoke carry another generation than a stamp (R129)? -/
def staleStamp (stamp : Option (Nat × Nat)) (entry : Nat → Bool × Nat) : Bool :=
  match stamp with
  | none => false
  | some (i, g) => (entry i).1 && (entry i).2 != g

/-- Is the barge revoked (R129)? -/
def Chip.revoked (c : Chip) (d : Desc) : Bool :=
  let tunGen := fun t => (c.on (F.FAB_TUN1_REVOKE t), c.get (F.FAB_TUN1_GEN t))
  let groupGen := fun g => ((c.groupEntry g).revoke, (c.groupEntry g).gen)
  let routeGen := fun r => (c.on (F.FAB_ROUTE0_REVOKE r), c.get (F.FAB_ROUTE1_GEN r))
  staleStamp d.tun (if d.isGroup then groupGen else tunGen) || staleStamp d.orig tunGen || staleStamp d.dstTun tunGen || staleStamp d.route routeGen

/-- Drops a barge at its egress, counted and sampled. -/
def Chip.egressDrop (c : Chip) (f : Field) (d : Desc) (b : Barge) (cause : Nat) : Chip :=
  (c.inc f).sample (d.point b 2 cause (c.swc.voqDepth d.inPort d.outPort d.queue))

end Sys2Proof.Machine
end

