-- ==== Sys2Proof/Machine/Mem.lean ====
section
/-! DEFINITION. The staging memory (08 R258): bytes by address in canonical form, the lowest address first and no byte listed
that equals what an unlisted address reads as. -/

namespace Sys2Proof.Machine

/-- What a staging byte reads as that nothing has written: 0 (DESIGN CHOICE, log 15). -/
def stageBlank : Byte := 0

/-- Bytes of the staging memory (R258). -/
def stageSize : Nat := 0x2_0000

def memByte : List Host.Cell → Nat → Byte
  | [], _ => stageBlank
  | (a, b) :: r, x => if x = a then b else memByte r x

/-- Lists a byte at its place, replacing an older one. -/
def memInsert (x : Nat) (v : Byte) : List Host.Cell → List Host.Cell
  | [] => [(x, v)]
  | (a, b) :: r => if x < a then (x, v) :: (a, b) :: r else if x = a then (x, v) :: r else (a, b) :: memInsert x v r

/-- Drops the byte at an address from the list. -/
def memErase (x : Nat) : List Host.Cell → List Host.Cell
  | [] => []
  | (a, b) :: r => if x < a then (a, b) :: r else if x = a then r else (a, b) :: memErase x r

/-- Writes one byte. -/
def memSet (m : List Host.Cell) (x : Nat) (v : Byte) : List Host.Cell := if v = stageBlank then memErase x m else memInsert x v m

/-- Reads `n` bytes. -/
def memRead (m : List Host.Cell) (x n : Nat) : List Byte := (List.range n).map fun i => memByte m (x + i)

/-- Writes bytes one after another. -/
def memWrite (m : List Host.Cell) (x : Nat) : List Byte → List Host.Cell
  | [] => m
  | b :: r => memWrite (memSet m x b) (x + 1) r

/-- The canonical form: addresses rise from `lo` on, and no listed byte is blank. -/
def memOkFrom : Nat → List Host.Cell → Bool
  | _, [] => true
  | lo, (a, b) :: r => decide (lo ≤ a) && b != stageBlank && memOkFrom (a + 1) r

/-- Memory in canonical form. -/
def memWf (m : List Host.Cell) : Bool := memOkFrom 0 m

end Sys2Proof.Machine
end

