-- ==== Sys2Proof/Machine/WinOps.lean ====
section
/-! DEFINITION. The window bridge's operations (08): ranges, the requester's messages and their ends, prefetch, the two logs,
locks, DMA rings and the staging writer. -/

namespace Sys2Proof.Machine

def Chip.modWin (c : Chip) (f : Win → Win) : Chip := { c with win := f c.win }

/-- The 128-bit words of the staging memory that some bytes touch. -/
def stageWords (x n : Nat) : List Nat := (List.range n).map fun i => (x + i) / 16

/-- Stores bytes in the staging memory; a word written is no longer poisoned (14 R431). -/
def Chip.stageStore (x : Nat) (l : List Byte) (c : Chip) : Chip :=
  let c := c.each (c.win.poisoned.filter fun y => (stageWords x l.length).contains y.1) fun y => Chip.unpoison y.2
  c.modWin fun w => { w with
    stage := memWrite w.stage x l, poisoned := w.poisoned.filter fun y => !(stageWords x l.length).contains y.1 }

/-- Does a read of the staging memory meet a poisoned word? -/
def Chip.stagePoisoned (c : Chip) (x n : Nat) : Bool := (stageWords x n).any fun w => c.win.poisoned.any fun y => y.1 == w
def Chip.pcieAct (a : PcieAct) (c : Chip) : Chip := c.emit (.pcie a)

/-- Does a field hub drive PE_PERST_N low (R265)? -/
def Chip.perstLow (c : Chip) : Bool := !c.headEnd && c.on F.WIN_RP_CTL_PERST

/-! Addresses and ranges (R257, R266, R267). -/

def fwaHub (f : Nat) : Nat := f / 2 ^ 54 % 1024
def fwaSpace (f : Nat) : Nat := f / 2 ^ 51 % 8
def fwaReserved (f : Nat) : Nat := f / 2 ^ 48 % 8
def fwaOffset (f : Nat) : Nat := f % 2 ^ 48

/-- A SIZE_LOG2 field of 12 to 48, anything else taken as 12. -/
def log2Field (n : Nat) : Nat := if 12 ≤ n && n ≤ 48 then n else 12

/-- The host-memory window of a head-end: base and size (R260). -/
def Chip.hostWindow (c : Chip) : Nat × Nat :=
  (c.get F.WIN_HOSTMEM_HI_BASE_HI * 2 ^ 32 + c.get F.WIN_HOSTMEM_LO_BASE_LO * 2 ^ 12, 2 ^ log2Field (c.get F.WIN_HOSTMEM_CFG_SIZE_LOG2))

def Chip.rangeSize (c : Chip) (r : Nat) : Nat := 2 ^ log2Field (c.get (F.WIN_RNG3_SIZE_LOG2 r))
def Chip.rangeBase (c : Chip) (r : Nat) : Nat :=
  let b := c.get (F.WIN_RNG2 r) * 2 ^ 32 + c.get (F.WIN_RNG1 r)
  b - b % c.rangeSize r
def Chip.rangeHub (c : Chip) (r : Nat) : Nat := fwaHub (c.rangeBase r)
/-- Does the range lie in the hub's own spaces (R266)? -/
def Chip.rangeLocal (c : Chip) (r : Nat) : Bool := c.ownId == some (c.rangeHub r)

/-- The FWA of an access at an offset of a range, or none where R267 ends it with UR. -/
def Chip.rangeAccess (c : Chip) (r off len : Nat) : Option Nat :=
  let e := c.tunEntry (c.get (F.WIN_RNG0_TUNNEL r))
  if c.on F.WIN_CTL_EN && c.on (F.WIN_RNG0_VALID r) && !c.on (F.WIN_RNG0_FAILED r) && decide (off + len ≤ c.rangeSize r)
      && (c.rangeLocal r || e.peer == c.rangeHub r) then some (c.rangeBase r + off)
  else none

/-- The extents of an access, cut at each 512-byte boundary (R268): address, and place in the access. -/
def cutAt512 : Nat → Nat → Nat → Nat → List (Nat × Nat × Nat)
  | 0, _, _, _ => []
  | n + 1, fwa, len, pos =>
    let k := min len (512 - fwa % 512)
    if len = 0 then [] else if len ≤ k then [(fwa, len, pos)] else (fwa, k, pos) :: cutAt512 n (fwa + k) (len - k) (pos + k)

def pieces (fwa len : Nat) : List (Nat × Nat × Nat) := cutAt512 (len / 512 + 2) fwa len 0

/-! Messages (R262). -/

def winKind (m : Msg) : Nat := wordField m.tspec 28 4
def winTag (m : Msg) : Nat := wordField m.tspec 20 8
def winStatus (m : Msg) : Nat := wordField m.tspec 16 4
def winLseq (m : Msg) : Bool := m.tspec.getLsbD 15
def winLen (m : Msg) : Nat := wordField m.tspec 0 10
def winFwa (m : Msg) : Nat := beVal (m.payload.take 8)

/-- TSPEC of a bridge message. -/
def winTspec (kind tag status : Nat) (lseq : Bool) (len : Nat) : Word :=
  BitVec.ofNat 32 (kind % 16 * 2 ^ 28 + tag % 256 * 2 ^ 20 + status % 16 * 2 ^ 16 + lseq.toNat * 2 ^ 15 + len % 1024)

/-- Does P4 take a message of channel 0x40: from a RELIABLE tunnel, with a KIND that Table 08-4 names (R261, R262)? -/
def Chip.winMsgOk (c : Chip) (m : Msg) : Bool :=
  m.tunnel != 0xFFF && (c.tunEntry m.tunnel.toNat).mode == 2 && decide (winKind m ≤ 10) && decide (m.payload.length ≤ 520)

/-- Sends a bridge message on a tunnel. -/
def Chip.winSend (tunnel kind tag status : Nat) (lseq : Bool) (len : Nat) (l : List Byte) (c : Chip) : Chip :=
  c.sendMsg 4 tunnel (winTspec kind tag status lseq len) l

/-- Does message `m` stay behind `x`, which came before it: a request behind a request of its tunnel (Table 08-6), and a release behind
the requests into the space it frees (R281)? Completions and the other lock messages wait for nothing. Marks: DEDUCED, log 43. -/
def winBehind (m x : Msg) : Bool :=
  x.tunnel == m.tunnel && decide (winKind x ≤ 2) &&
    (decide (winKind m ≤ 2) || (winKind m == 9 && fwaSpace (winFwa x) == payloadByte m 0))

/-- The next bridge message of a kind that may be handled and that `p` lets through. A message given by the command waits in the inbox
like any other. -/
def Chip.nextWin (c : Chip) (kind : Nat) (given : Option Msg) (p : Chip → Msg → Bool) : Option Msg × Chip :=
  let c := match given with
    | some m => c.modSwc fun w => { w with inbox := upd w.inbox 4 fun l => l ++ [m] }
    | none => c
  let l := c.swc.inbox[4]
  (l.find? fun m => winKind m == kind && p c m && !(l.takeWhile (· != m)).any (winBehind m), c)

def Chip.takeWin (m : Msg) (c : Chip) : Chip := c.modSwc fun w => { w with inbox := upd w.inbox 4 fun l => l.erase m }

/-- A command that takes the next bridge message of a kind. Marks: DEDUCED, log 43. -/
def Chip.onWin (kind : Nat) (given : Option Msg) (f : Msg → Chip → Chip) (c : Chip) : Chip :=
  match c.nextWin kind given fun _ _ => true with
  | (some m, c) => f m (c.takeWin m)
  | (none, c) => c

/-! The logs (R274, R276). -/

/-- A log is full (R276). -/
def Chip.logOverflow (c : Chip) : Chip := (c.inc F.WIN_LOG_OVF).flag F.WIN_INT_STATUS_LOG_OVF

/-- An entry of the lost-read log, where there is room: its number (R274). Late data of the read that had the entry before is for it no
longer. -/
def Chip.lostRead (c : Chip) (r : WinReq) (cause : Nat) : Option Nat × Chip :=
  let c := c.flag F.WIN_INT_STATUS_LOST_READ
  match (List.range 8).find? fun n => !c.on (F.WIN_LRL5_VALID n) with
  | none => (none, c.logOverflow)
  | some n =>
    let c := c.modWin fun w => { w with quarantine := w.quarantine.map fun q => if q.2 = some n then (q.1, none) else q }
    let c := (((c.put (F.WIN_LRL_ADDR_LO n) (r.fwa % 2 ^ 32)).put (F.WIN_LRL_ADDR_HI n) (r.fwa / 2 ^ 32)).put (F.WIN_LRL_DATA_LO n) 0).put (F.WIN_LRL_DATA_HI n) 0
    let c := ((c.put (F.WIN_LRL_FRAME n) (c.get F.FAB_FRAME)).put (F.WIN_LRL5_SUBNS n) c.subns).put (F.WIN_LRL5_CAUSE n) cause
    let c := ((c.put (F.WIN_LRL5_DATA_VALID n) 0).put (F.WIN_LRL5_VALID n) 1).put (F.WIN_LRL6_REQ_ID n) r.reqId
    (some n, (c.put (F.WIN_LRL6_REQ_KIND n) r.drive.toNat).put (F.WIN_LRL6_LENGTH n) r.len)

/-- An entry of the posted-write error log (R276). -/
def Chip.writeFailed (fwa status : Nat) (np drive : Bool) (c : Chip) : Chip :=
  let c := c.flag F.WIN_INT_STATUS_PWERR
  match (List.range 16).find? fun n => !c.on (F.WIN_PWL3_VALID n) with
  | none => c.logOverflow
  | some n =>
    let c := ((c.put (F.WIN_PWL_ADDR_LO n) (fwa % 2 ^ 32)).put (F.WIN_PWL_ADDR_HI n) (fwa / 2 ^ 32)).put (F.WIN_PWL_FRAME n) (c.get F.FAB_FRAME)
    let c := ((c.put (F.WIN_PWL3_SUBNS n) c.subns).put (F.WIN_PWL3_STATUS n) status).put (F.WIN_PWL3_NP n) np.toNat
    (c.put (F.WIN_PWL3_REQ_KIND n) drive.toNat).put (F.WIN_PWL3_VALID n) 1

/-! Issuing (R268, R269, R280). -/

/-- Does the context hold, or believe that it holds, the lock on the space of an address? -/
def Chip.holdsLock (c : Chip) (fwa : Nat) : Bool :=
  c.on F.WIN_LOCK_STATUS_R_HELD && c.get F.WIN_LOCK_STATUS_R_HUB == fwaHub fwa && c.get F.WIN_LOCK_STATUS_R_SPACE == fwaSpace fwa

/-- A tag that is neither outstanding nor quarantined, in rotation. -/
def Chip.freeTag (c : Chip) : Option Nat :=
  ((List.range 256).map fun k => (c.win.nextTag + k) % 256).find? fun t =>
    !(c.win.out.any fun r => r.tag == t) && !(c.win.quarantine.any fun q => q.1 == t)

/-- Shows the outstanding reads and non-posted writes. -/
def Chip.showWin (c : Chip) : Chip := c.put F.WIN_STATUS_NP_OUT c.win.out.length

/-- Sends one message of the requester. Marks: DEDUCED, log 43. -/
def Chip.winIssue (r : WinReq) (tag : Nat) (c : Chip) : Chip :=
  let lseq := r.lockCap && c.holdsLock r.fwa
  let kind := if !r.write then 0 else if r.posted then 1 else 2
  let c := c.inc (if r.write then F.WIN_WR_ISSUED else F.WIN_RD_ISSUED)
  let c := c.winSend r.tunnel kind tag 0 lseq r.len (beBytes 8 r.fwa ++ r.data)
  let c := c.modWin fun w => { w with
    nextTag := (tag + 1) % 256, sent := if r.write then ({ tag := tag, fwa := r.fwa, np := !r.posted, drive := r.drive } :: w.sent).take 256 else w.sent }
  if r.posted then c else (c.modWin fun w => { w with out := w.out ++ [{ r with tag := tag }] }).showWin

/-- The part of an access into the own spaces that an access at the path is. -/
def PathAccess.own? (a : PathAccess) : Option OwnPiece :=
  match a.of_ with
  | .range p => some p
  | _ => none

/-- A non-posted write of the requester that has no CPL yet, before an access numbered `k` (R269); one into the own registers may wait
at the path. -/
def Chip.writesOpen (c : Chip) (k : Nat) : Bool :=
  (c.win.queue ++ c.win.out).any (fun r => r.write && !r.posted && decide (r.acc < k)) ||
    c.win.locals.any (fun x => x.ask.write && decide (x.id < k)) ||
    (c.fab.held.toList ++ c.fab.waiting).any fun a => a.write && a.own?.any fun p => !p.posted && decide (p.acc < k)

/-- Issues what waits, in order: a read waits for the CPL of every non-posted write before it (R269). -/
def Chip.winPumpN : Nat → Chip → Chip
  | 0, c => c
  | n + 1, c =>
    match c.win.queue, c.freeTag with
    | r :: rest, some tag =>
      if !r.write && c.writesOpen r.acc then c
      else Chip.winPumpN n ((c.modWin fun w => { w with queue := rest }).winIssue r tag)
    | _, _ => c

/-! Locks held by the context (R278 to R281). -/

/-- Ends the remote lock of the context. -/
def Chip.dropRemoteLock (c : Chip) : Chip :=
  (c.put F.WIN_LOCK_STATUS_R_HELD 0).modWin fun w => { w with releaseAt := none }

/-- Sends LOCK_REL once every earlier access to the space is done or, posted, sent (R281). -/
def Chip.settleRelease (c : Chip) : Chip :=
  match c.win.releaseAt with
  | none => c
  | some k =>
    let hub := c.get F.WIN_LOCK_STATUS_R_HUB
    let space := c.get F.WIN_LOCK_STATUS_R_SPACE
    if (c.win.queue ++ c.win.out).any fun r => r.acc < k && fwaHub r.fwa == hub && fwaSpace r.fwa == space then c
    else ((c.winSend c.win.lockTunnel 9 0 0 false 0 [BitVec.ofNat 8 space]).dropRemoteLock).put F.WIN_LOCK_STATUS_RESULT 0

/-- The requester after any of its messages has ended. -/
def Chip.winPump (c : Chip) : Chip := (Chip.winPumpN (c.win.queue.length + 1) c).settleRelease

/-! Ends of messages (R270, R273, R275, R277). -/

/-- Puts bytes at a place of a list. -/
def putBytes (l : List Byte) (pos : Nat) (d : List Byte) : List Byte := l.take pos ++ d ++ l.drop (pos + d.length)

/-- The answer to the host or the drive, whose failed reads are host reads where `drive` is clear (R275). AER reports one that ends with a
failing status (R263). -/
def Chip.answer (a : WinAccess) (c : Chip) : Chip :=
  if a.worst = 0 then c.pcieAct (.completion a.drive a.reqId 0 a.data)
  else
    let c := c.when (!a.drive) fun c => c.inc F.WIN_RD_ERR
    if !a.drive && c.on F.WIN_CTL_ERR_AS_ONES then c.pcieAct (.completion false a.reqId 0 (List.replicate a.data.length 0xFF))
    else (c.pcieAct (.completion a.drive a.reqId 2 [])).pcieAct (.aer a.drive a.reqId 2)

/-- One part of an access is done: bytes of the message, or a failing status. The access ends with its last part, with the
status of its worst part (R268). Marks: DEDUCED, log 43. -/
def Chip.partDone (u : PieceUser) (status : Nat) (bytes : List Byte) (c : Chip) : Chip :=
  match c.win.accesses.find? fun a => a.id == u.acc with
  | none => c
  | some a =>
    let a := { a with
      data := if status = 0 then putBytes a.data u.pos ((bytes.drop u.off).take u.len) else a.data
      left := a.left - 1, worst := max a.worst status }
    if a.left = 0 then (c.modWin fun w => { w with accesses := w.accesses.filter fun x => x.id != a.id }).answer a
    else c.modWin fun w => { w with accesses := w.accesses.map fun x => if x.id == a.id then a else x }

/-- The bytes asked for in those of a read: REG answers with every word it touches (R259). -/
def readBytes (fwa len : Nat) (l : List Byte) : List Byte := if fwaSpace fwa = 0 && l.length != len then l.drop (fwa % 4) else l

/-- A read is over for those who wait for it, and fills or frees its prefetch buffer. -/
def Chip.readDone (rng fwa : Nat) (fill : Bool) (users : List PieceUser) (status : Nat) (bytes : List Byte) (c : Chip) : Chip :=
  let c := c.when fill fun c => c.modWin fun w => { w with
    pf := w.pf.filterMap fun b => if b.fwa == fwa && b.rng == rng && b.data.isNone then (if status = 0 then some { b with data := some bytes } else none) else some b }
  c.each users fun u c => c.partDone u status bytes

/-- A message is over for those who wait for it. -/
def Chip.reqDone (r : WinReq) (status : Nat) (bytes : List Byte) (c : Chip) : Chip :=
  c.readDone r.rng r.fwa r.fill r.users status (readBytes r.fwa r.len bytes)

/-- A reissued message has failed (R277): the range has FAILED. -/
def Chip.rangeFailed (rng : Nat) (c : Chip) : Chip :=
  (((c.put (F.WIN_RNG0_FAILED rng) 1).inc F.WIN_PERM_ERR).flag F.WIN_INT_STATUS_RANGE_FAILED).raiseOwn 0x21 0x20 rng

/-- Is a part of an access into the own spaces that ended with a status issued again (R277)? -/
def OwnPiece.retries (p : OwnPiece) (write : Bool) (status : Nat) : Bool :=
  !p.again && !p.sideEffect && !(write && p.posted) && (status == 2 || status == 3 || status == 4)

/-- A part of an access into the own spaces ends (R266, R276, R277): a write that fails is logged as one answered by PWERR. -/
def Chip.ownEnd (p : OwnPiece) (write : Bool) (status : Nat) (bytes : List Byte) (c : Chip) : Chip :=
  let c := c.when p.again fun c => if status = 0 then c.inc F.WIN_RETRY_OK else c.rangeFailed p.rng
  if write then c.when (status != 0) (Chip.writeFailed p.fwa status (!p.posted) p.drive)
  else c.readDone p.rng p.fwa p.fill p.users status (readBytes p.fwa p.len bytes)

/-- A message that left the list of outstanding ones ends with a status: success, one reissue, or failure (R277). -/
def Chip.reqEnd (r : WinReq) (status : Nat) (bytes : List Byte) (c : Chip) : Chip :=
  let retry := !r.sideEffect && (status == 2 || status == 3 || status == 4)
  if status = 0 then (c.when r.again fun c => c.inc F.WIN_RETRY_OK).reqDone r 0 bytes
  else if retry && !r.again then c.modWin fun w => { w with queue := { r with again := true } :: w.queue }
  else (c.when r.again (Chip.rangeFailed r.rng)).reqDone r status []

/-- Takes an outstanding message out by its tag. -/
def Chip.takeReq (tag : Nat) (c : Chip) : Option WinReq × Chip :=
  match c.win.out.find? fun r => r.tag == tag with
  | some r => (some r, (c.modWin fun w => { w with out := w.out.filter fun x => x.tag != tag }).showWin)
  | none => (none, c)

/-- A completion of a tag (R269, R277). -/
def Chip.winComplete (tag status : Nat) (bytes : List Byte) (c : Chip) : Chip :=
  match c.takeReq tag with
  | (some r, c) => (c.reqEnd r status bytes).winPump
  | (none, c) => c

/-- Abandons a message: a read's data is discarded and its loss logged (R273, R274), and the tag is quarantined. -/
def Chip.abandon (r : WinReq) (cause : Nat) (c : Chip) : Chip :=
  let c := (c.modWin fun w => { w with out := w.out.filter fun x => x.tag != r.tag }).showWin
  let c := c.when (!r.write) fun c => c.inc F.WIN_RD_DISCARD
  let (entry, c) := if !r.write && r.sideEffect then c.lostRead r cause else (none, c)
  c.modWin fun w => { w with quarantine := w.quarantine ++ [(r.tag, entry)] }

/-- Data on a quarantined tag: its first 8 bytes go to the log entry, and the rest is discarded (R273, R274). -/
def Chip.lateData (tag : Nat) (bytes : List Byte) (c : Chip) : Chip :=
  match c.win.quarantine.find? fun q => q.1 == tag with
  | some (_, some n) =>
    if c.on (F.WIN_LRL5_VALID n) && !c.on (F.WIN_LRL5_DATA_VALID n) then
      let l := (bytes ++ List.replicate 8 0).take 8
      ((c.put (F.WIN_LRL_DATA_LO n) (beVal (l.take 4))).put (F.WIN_LRL_DATA_HI n) (beVal (l.drop 4))).put (F.WIN_LRL5_DATA_VALID n) 1
    else c
  | _ => c

/-! Prefetch (R270). -/

/-- A read that was filling a buffer now gone fills none: it still answers those who wait for it. -/
def Chip.pfUnfill (c : Chip) : Chip :=
  c.modWin fun w =>
    let f := fun (r : WinReq) => { r with fill := r.fill && w.pf.any fun b => b.rng == r.rng && b.fwa == r.fwa && b.data.isNone }
    { w with queue := w.queue.map f, out := w.out.map f }

/-- Changes the parts of accesses into the own spaces that wait at the path. -/
def Chip.mapOwn (f : OwnPiece → OwnPiece) (c : Chip) : Chip :=
  let g := fun (a : PathAccess) => match a.of_ with
    | .range p => { a with of_ := .range (f p) }
    | _ => a
  c.modFab fun x => { x with waiting := x.waiting.map g }

/-- Discards the prefetch buffers that satisfy `p`. -/
def Chip.pfDiscard (p : PfBuf → Bool) (c : Chip) : Chip :=
  let n := (c.win.pf.filter p).length
  if n = 0 then c else
    let c := ((c.add F.WIN_PF_DISCARD n).modWin fun w => { w with pf := w.pf.filter fun b => !p b }).pfUnfill
    c.mapOwn fun x => { x with fill := x.fill && c.win.pf.any fun b => b.rng == x.rng && b.fwa == x.fwa && b.data.isNone }

/-- Does a write touch a buffer's block? -/
def PfBuf.overlaps (b : PfBuf) (fwa len : Nat) : Bool := decide (fwa < b.fwa + b.len) && decide (b.fwa < fwa + len)
def PfBuf.covers (b : PfBuf) (rng fwa len : Nat) : Bool := b.rng == rng && decide (b.fwa ≤ fwa) && decide (fwa + len ≤ b.fwa + b.len)

/-! Commits of range entries (R266, R270, R273). -/

/-- Takes the reads of a range that wait to be carried out in the own spaces: each read, and each part that waits at the path, ends
with completer abort. -/
def Chip.dropOwnReads (rng : Nat) (c : Chip) : Chip :=
  let mine := fun (x : LocalAsk) => x.ask.rng == rng && !x.ask.write
  let part := fun (a : PathAccess) => !a.write && a.own?.any fun p => p.rng == rng
  let asks := c.win.locals.filter mine
  let parts := (c.fab.waiting.filter part).filterMap PathAccess.own?
  let c := (c.modWin fun w => { w with locals := w.locals.filter fun x => !mine x }).modFab fun f => { f with waiting := f.waiting.filter fun a => !part a }
  let c := c.add F.WIN_RD_DISCARD (asks.length + parts.length)
  let c := c.each asks fun x c =>
    c.answer { id := x.id, drive := x.ask.drive, reqId := x.ask.reqId.toNat, data := List.replicate x.ask.len 0#8, left := 0, worst := 2 }
  c.each parts fun p c => c.readDone p.rng p.fwa p.fill p.users 2 []

/-- AGEN of a range advances: its prefetch buffers and outstanding reads go. Marks: DEDUCED, log 43. -/
def Chip.agenChange (rng : Nat) (c : Chip) : Chip :=
  let c := c.put (F.WIN_RNG0_AGEN rng) ((c.get (F.WIN_RNG0_AGEN rng) + 1) % 16)
  let c := c.pfDiscard fun b => b.rng == rng
  let mine := fun (r : WinReq) => r.rng == rng && !r.write
  let waiting := c.win.queue.filter mine
  let c := c.each (c.win.out.filter mine) fun r c => (c.abandon r 1).reqDone r 2 []
  let c := c.modWin fun w => { w with queue := w.queue.filter fun r => !mine r }
  ((c.each waiting fun r c => (c.inc F.WIN_RD_DISCARD).reqDone r 2 []).dropOwnReads rng).winPump

/-- What AGEN follows: the attributes, the base and the size of a range (R266). -/
def Chip.rangeShape (c : Chip) (n : Nat) : Nat × Nat × Nat := (wordField (c.regs.word (F.WIN_RNG0 n).off) 1 4, c.rangeBase n, c.rangeSize n)

/-- Commits a range entry: the staged words 1 to 3 and the loadable bits of word 0 (R266); FAILED clears (R277). -/
def Chip.rangeCommit (n : Nat) (w0 w1 w2 w3 : Nat) (c : Chip) : Chip :=
  let old := c.rangeShape n
  let agen := c.get (F.WIN_RNG0_AGEN n)
  let c := ((c.put (F.WIN_RNG0 n) w0).put (F.WIN_RNG0_FAILED n) 0).put (F.WIN_RNG0_AGEN n) agen
  let c := ((c.put (F.WIN_RNG1 n) w1).put (F.WIN_RNG2 n) w2).put (F.WIN_RNG3 n) (w3 % 64)
  c.when (old != c.rangeShape n) (Chip.agenChange n)

/-! Abandoning everything (R265). -/

/-- Ends every outstanding request of the PCI Express requester, as its link goes down. -/
def Chip.abandonAll (c : Chip) : Chip :=
  let c := c.each c.win.out fun r c => c.abandon r 2
  let mine := fun (a : PathAccess) => a.req.source == 2
  let gone := c.fab.waiting.filter fun a => mine a && !a.write
  let c := c.add F.WIN_RD_DISCARD ((c.win.queue.filter fun r => !r.write).length + (c.win.locals.filter fun x => !x.ask.write).length + gone.length)
  let c := c.modFab fun f => { f with waiting := f.waiting.filter fun a => !mine a }
  ((c.modWin fun w => { w with queue := [], accesses := [], locals := [] }).pfDiscard fun _ => true).settleRelease

/-! Locks (R278 to R281). -/

/-- Does a range cover any part of a space (R278): it begins below the space's end (Table 08-2), and MEM of a head-end, as far as that is
known of the own hub, is its host-memory window? -/
def Chip.rangeCovers (c : Chip) (r space : Nat) : Bool :=
  let b := c.rangeBase r
  let (base, size) := c.hostWindow
  fwaReserved b == 0 && fwaSpace b == space && decide (fwaOffset b < if space = 0 then 0x100_0000 else 2 ^ 48)
    && (!(space == 1 && c.headEnd && c.rangeLocal r) || (decide (fwaOffset b < base + size) && decide (base < fwaOffset b + c.rangeSize r)))

/-- A LOCK_CAP range of a hub that covers part of a space, and its tunnel. -/
def Chip.lockRange (c : Chip) (hub space : Nat) : Option Nat :=
  ((List.range 16).find? fun r => c.on (F.WIN_RNG0_VALID r) && c.on (F.WIN_RNG0_LOCK_CAP r) && c.rangeHub r == hub
    && c.rangeCovers r space).map fun r => c.get (F.WIN_RNG0_TUNNEL r)

/-- The holder of a space of this hub. -/
def Chip.lockHolder (c : Chip) (space : Nat) : Option Nat :=
  if space = 0 then (if c.on F.WIN_LOCK_HELD_REG_LOCKED then some (c.get F.WIN_LOCK_HELD_REG_HOLDER) else none)
  else if space = 1 then (if c.on F.WIN_LOCK_HELD_MEM_LOCKED then some (c.get F.WIN_LOCK_HELD_MEM_HOLDER) else none)
  else none

/-- Is a space held by another hub, so that the own host and drive must wait for it (R280)? -/
def Chip.lockedOut (c : Chip) (space : Nat) : Bool :=
  match c.lockHolder space with
  | some h => c.ownId != some h
  | none => false

/-- Records a holder of a space, or frees it. -/
def Chip.setHolder (space : Nat) (h : Option Nat) (c : Chip) : Chip :=
  if space = 0 then (c.put F.WIN_LOCK_HELD_REG_LOCKED h.isSome.toNat).put F.WIN_LOCK_HELD_REG_HOLDER (h.getD 0)
  else (c.put F.WIN_LOCK_HELD_MEM_LOCKED h.isSome.toNat).put F.WIN_LOCK_HELD_MEM_HOLDER (h.getD 0)

/-- A lock request of the context (R278). Marks: DEDUCED, log 43. -/
def Chip.lockRequest (hub space : Nat) (c : Chip) : Chip :=
  let result := fun (n : Nat) (c : Chip) => c.put F.WIN_LOCK_STATUS_RESULT n
  let here := c.ownId == some hub
  let remote := c.on F.WIN_LOCK_STATUS_R_HELD || c.win.want.isSome
  if here && c.on F.WIN_LOCK_STATUS_L_HELD || !here && (c.on F.WIN_LOCK_STATUS_L_HELD || remote) then result 5 c
  else if 2 ≤ space then result 6 c
  else match c.lockRange hub space with
    | none => result 6 c
    | some t =>
      if here then
        match c.lockHolder space with
        | some _ => result 3 c
        | none => result 2 (((c.setHolder space (some hub)).put F.WIN_LOCK_STATUS_L_SPACE space).put F.WIN_LOCK_STATUS_L_HELD 1)
      else
        let c := c.modWin fun w => { w with want := some (hub, space, t), backoff := false }
        result 1 ((c.put F.WIN_LOCK_STATUS_RETRIES 0).winSend t 6 0 0 false 0 [BitVec.ofNat 8 space])

/-- Withdraws a request that has not been answered. -/
def Chip.withdrawLock (c : Chip) : Chip :=
  match c.win.want with
  | some (hub, _, _) =>
    if c.win.backoff then c else c.modWin fun w => { w with withdrawn := w.withdrawn ++ [hub], backoff := true }
  | none => c

/-- Releases one lock of the context, or withdraws its request (R281). -/
def Chip.lockRelease (hub space : Nat) (c : Chip) : Chip :=
  let l := c.ownId == some hub && c.on F.WIN_LOCK_STATUS_L_HELD && c.get F.WIN_LOCK_STATUS_L_SPACE == space
  let r := c.on F.WIN_LOCK_STATUS_R_HELD && c.get F.WIN_LOCK_STATUS_R_HUB == hub && c.get F.WIN_LOCK_STATUS_R_SPACE == space
  let w := match c.win.want with | some (h, s, _) => h == hub && s == space | none => false
  let c := c.when l fun c => ((c.setHolder space none).put F.WIN_LOCK_STATUS_L_HELD 0).put F.WIN_LOCK_STATUS_RESULT 0
  let c := c.when r fun c => (c.modWin fun w => { w with releaseAt := some w.nextAccess }).settleRelease
  c.when w fun c => ((c.withdrawLock).modWin fun w => { w with want := none, backoff := false }).put F.WIN_LOCK_STATUS_RESULT 0

/-- Releases every lock of the context. -/
def Chip.lockReleaseAll (c : Chip) : Chip :=
  let c := c.when (c.on F.WIN_LOCK_STATUS_L_HELD) fun c => c.lockRelease (c.ownId.getD 0) (c.get F.WIN_LOCK_STATUS_L_SPACE)
  let c := c.when (c.on F.WIN_LOCK_STATUS_R_HELD) fun c => c.lockRelease (c.get F.WIN_LOCK_STATUS_R_HUB) (c.get F.WIN_LOCK_STATUS_R_SPACE)
  match c.win.want with
  | some (h, s, _) => c.lockRelease h s
  | none => c

/-- LOCK_RETRY from the target. -/
def Chip.sendRetry (m : Msg) (space : Nat) (c : Chip) : Chip :=
  (c.inc F.WIN_LOCK_RETRY).winSend m.tunnel.toNat 8 0 0 false 0 [BitVec.ofNat 8 space]

/-- Decides a LOCK_REQ (R279). -/
def Chip.lockReqRx (m : Msg) (c : Chip) : Chip :=
  let h := m.src.toNat
  let space := payloadByte m 0
  if 2 ≤ space then c.inc F.WIN_MSG_ERR
  else
    let own := c.ownId.getD 0
    let held := c.on F.WIN_LOCK_STATUS_R_HELD && c.get F.WIN_LOCK_STATUS_R_HUB == h
    let asked := match c.win.want with | some (x, _, _) => x == h && !c.win.backoff | none => false
    if (held || asked) && own < h then c.sendRetry m space
    else
      let c := c.when held fun c =>
        let sp := c.get F.WIN_LOCK_STATUS_R_SPACE
        let c := c.winSend c.win.lockTunnel 9 0 0 false 0 [BitVec.ofNat 8 sp]
        (c.dropRemoteLock).modWin fun w => { w with want := some (h, sp, w.lockTunnel), backoff := true }
      let c := c.when asked Chip.withdrawLock
      let c := c.when (held || asked) fun c => c.put F.WIN_LOCK_STATUS_RESULT 3
      if c.lockHolder space != none && c.lockHolder space != some h then c.sendRetry m space
      else
        let c := (c.setHolder space (some h)).modWin fun w => { w with holderTunnel := w.holderTunnel.setIfInBounds space m.tunnel.toNat }
        c.winSend m.tunnel.toNat 7 0 0 false 0 [BitVec.ofNat 8 space]

/-- A lock answer that belongs to a withdrawn request is taken off the list of those to ignore. -/
def Chip.ignoredAnswer (m : Msg) (c : Chip) : Bool × Chip :=
  if c.win.withdrawn.contains m.src.toNat then (true, c.modWin fun w => { w with withdrawn := w.withdrawn.erase m.src.toNat }) else (false, c)

/-- Is an answer of this hub about this space awaited? -/
def Chip.awaits (c : Chip) (m : Msg) : Bool :=
  match c.win.want with
  | some (h, s, _) => h == m.src.toNat && s == payloadByte m 0 && !c.win.backoff
  | none => false

/-- LOCK_GRANT at the context (R279). -/
def Chip.lockGrantRx (m : Msg) (c : Chip) : Chip :=
  let (ignored, c) := c.ignoredAnswer m
  if ignored || !c.awaits m then c.winSend m.tunnel.toNat 9 0 0 false 0 [BitVec.ofNat 8 (payloadByte m 0)]
  else
    let c := c.modWin fun w => { w with want := none, lockTunnel := m.tunnel.toNat }
    let c := ((c.put F.WIN_LOCK_STATUS_R_HUB m.src.toNat).put F.WIN_LOCK_STATUS_R_SPACE (payloadByte m 0)).put F.WIN_LOCK_STATUS_R_HELD 1
    c.put F.WIN_LOCK_STATUS_RESULT 2

/-- LOCK_RETRY at the context (R279). -/
def Chip.lockRetryRx (m : Msg) (c : Chip) : Chip :=
  let (ignored, c) := (c.inc F.WIN_LOCK_RETRY).ignoredAnswer m
  if ignored || !c.awaits m then c
  else (c.modWin fun w => { w with backoff := true }).put F.WIN_LOCK_STATUS_RESULT 3

/-- The back-off ends (R279): the request goes again, or has failed. -/
def Chip.lockBackoffEnd (c : Chip) : Chip :=
  match c.win.want with
  | some (_, space, t) =>
    if !c.win.backoff then c
    else if c.get F.WIN_LOCK_STATUS_RETRIES < c.get F.WIN_LOCK_CFG_RETRY_MAX then
      let c := (c.inc F.WIN_LOCK_STATUS_RETRIES).modWin fun w => { w with backoff := false }
      (c.put F.WIN_LOCK_STATUS_RESULT 1).winSend t 6 0 0 false 0 [BitVec.ofNat 8 space]
    else (c.modWin fun w => { w with want := none, backoff := false }).put F.WIN_LOCK_STATUS_RESULT 4
  | none => c

/-- LOCK_REL at the target (R281). -/
def Chip.lockRelRx (m : Msg) (c : Chip) : Chip :=
  let space := payloadByte m 0
  c.when (space < 2 && c.lockHolder space == some m.src.toNat) (Chip.setHolder space none)

/-- LOCK_BROKEN at the context (R281). -/
def Chip.lockBrokenRx (m : Msg) (c : Chip) : Chip :=
  if c.on F.WIN_LOCK_STATUS_R_HELD && c.get F.WIN_LOCK_STATUS_R_HUB == m.src.toNat && c.get F.WIN_LOCK_STATUS_R_SPACE == payloadByte m 0 then
    ((c.dropRemoteLock).put F.WIN_LOCK_STATUS_RESULT 7).flag F.WIN_INT_STATUS_LOCK_BROKEN
  else c

/-- A space has been held for 1 ms (R281). -/
def Chip.lockBreak (space : Nat) (c : Chip) : Chip :=
  match c.lockHolder space with
  | none => c
  | some h =>
    let c := ((c.put F.WIN_LOCK_BREAK_HOLDER h).put F.WIN_LOCK_BREAK_SPACE space).put F.WIN_LOCK_BREAK_FRAME (c.get F.FAB_FRAME)
    let c := ((c.inc F.WIN_LOCK_BREAKS).flag F.WIN_INT_STATUS_LOCK_BREAK).setHolder space none
    if c.ownId == some h then
      ((c.put F.WIN_LOCK_STATUS_L_HELD 0).put F.WIN_LOCK_STATUS_RESULT 7).flag F.WIN_INT_STATUS_LOCK_BROKEN
    else c.winSend (c.win.holderTunnel.toList.getD space 0) 10 0 0 false 0 [BitVec.ofNat 8 space]

/-! DMA rings (R282, R283, R288). -/

def Chip.showDma (n : Nat) (c : Chip) : Chip := c.put (F.WIN_DMA6_EMPTY n) (c.dmaPosted n == 0).toNat
def Chip.dmaRing (c : Chip) (n : Nat) : DmaRing := ((c.win.rings.find? fun x => x.1 == n).map Prod.snd).getD DmaRing.idle
def Chip.setDma (n : Nat) (r : DmaRing) (c : Chip) : Chip :=
  c.modWin fun w => { w with rings := (w.rings.filter fun x => x.1 < n) ++ (if r = DmaRing.idle then [] else [(n, r)]) ++ w.rings.filter fun x => n < x.1 }

/-- A ring that has stopped: HEAD and TAIL go to 0 (R288). -/
def Chip.dmaStopped (n : Nat) (c : Chip) : Chip :=
  let c := (c.put (F.WIN_DMA3_HEAD n) 0).put (F.WIN_DMA4_TAIL n) 0
  ((c.put (F.WIN_DMA6_HELD n) 0).setDma n { DmaRing.idle with unsignalled := (c.dmaRing n).unsignalled }).showDma n

/-- Stops a ring at once. -/
def Chip.dmaStop (n : Nat) (c : Chip) : Chip := ((c.put (F.WIN_DMA2_EN n) 0).setDma n DmaRing.idle).dmaStopped n

/-- EN has been cleared: the ring stops once the descriptor being written is complete (R288). -/
def Chip.dmaHalt (n : Nat) (c : Chip) : Chip :=
  if (c.dmaRing n).opened.isSome then c.setDma n { c.dmaRing n with stopping := true } else c.dmaStopped n

/-- A ring that stops has stopped once no descriptor is being written. -/
def Chip.dmaSettle (n : Nat) (c : Chip) : Chip :=
  c.when ((c.dmaRing n).stopping && (c.dmaRing n).opened.isNone) (Chip.dmaStopped n)

/-- Does a receive ring write barges now: enabled, or stopping, with a descriptor posted (R283, R288)? Marks: DEDUCED, log 44. -/
def Chip.dmaTakes (c : Chip) (n : Nat) : Bool :=
  (c.on (F.WIN_DMA2_EN n) || (c.dmaRing n).stopping) && !c.on (F.WIN_DMA2_DIR n) && c.dmaPosted n != 0

/-- Does a receive ring take a barge of a message now: is a descriptor posted for it beyond those that the open message and the messages
of barges that wait begin to fill (R283)? One that stops takes what goes on with its open message. Marks: DEDUCED, log 44. -/
def Chip.dmaAccepts (c : Chip) (n : Nat) (key : Nat × Nat × Nat) (first : Bool) : Bool :=
  let r := c.dmaRing n
  let waiting := (c.win.barges.filter fun x => x.channel == n && x.barge.hdr.first).length
  c.dmaTakes n &&
    (if r.stopping then !first && r.opened.any fun o => o.key == key
    else decide (waiting + r.opened.isSome.toNat + first.toNat ≤ c.dmaPosted n))

/-- Address of a ring's descriptor in host memory (R282). -/
def Chip.dmaAddr (c : Chip) (n i : Nat) : Nat := c.get (F.WIN_DMA1 n) * 2 ^ 32 + c.get (F.WIN_DMA0_BASE_LO n) * 16 + 16 * i

/-- A descriptor as the hub writes it back (Table 08-9). -/
def dmaWord (d : DmaDesc) (done : Nat) (first last cmark err : Bool) : BitVec 128 :=
  dpField 0 d.addr ||| dpField 64 d.len ||| dpField 80 (BitVec.ofNat 16 done) ||| dpFlag 96 first ||| dpFlag 97 last ||| dpFlag 98 cmark
    ||| dpFlag 99 err ||| dpFlag 100 (done == 65536)

/-- Completes the descriptor at HEAD: its write-back, and the count toward the interrupt. -/
def Chip.dmaDone (n : Nat) (d : DmaDesc) (done : Nat) (first last cmark err : Bool) (c : Chip) : Chip :=
  let head := c.get (F.WIN_DMA3_HEAD n)
  let c := c.pcieAct (.descriptor n (c.dmaAddr n head) (dmaWord d done first last cmark err))
  let c := (c.put (F.WIN_DMA3_HEAD n) ((head + 1) % c.dmaSize n)).when err fun c => c.put (F.WIN_DMA6_ERR n) 1
  (c.setDma n { c.dmaRing n with unsignalled := (c.dmaRing n).unsignalled + 1 }).showDma n

/-- Bytes of a descriptor's buffer. -/
def dmaLen (d : DmaDesc) : Nat := if d.len = 0 then 65536 else d.len.toNat

/-- Closes the open message of a ring with ERR: it was cut short. -/
def Chip.dmaCut (n : Nat) (c : Chip) : Chip :=
  match (c.dmaRing n).opened with
  | none => c
  | some o => (c.dmaDone n o.desc o.off o.first true o.cmark true).setDma n { c.dmaRing n with opened := none, unsignalled := (c.dmaRing n).unsignalled + 1 }

/-- Writes a barge's payload into the descriptors that `descs` gives from HEAD on; the last one stays open. -/
def Chip.dmaFill (n : Nat) : List DmaDesc → DmaOpen → List Byte → Chip → DmaOpen × Chip
  | [], o, _, c => (o, c)
  | d :: ds, o, l, c =>
    let room := (dmaLen d) - o.off
    let part := l.take room
    let o := { o with desc := d }
    let c := c.when (!part.isEmpty) (Chip.pcieAct (.write false (d.addr.toNat + o.off) part))
    let o := { o with off := o.off + part.length, total := o.total + part.length }
    if l.length ≤ room then (o, c)
    else Chip.dmaFill n ds { o with off := 0, first := false } (l.drop room) (c.dmaDone n d (dmaLen d) o.first false o.cmark false)

/-- Marks the last barge of a list that a test picks. -/
def cutLast (p : RingBarge → Bool) : List RingBarge → List RingBarge
  | [] => []
  | x :: l => if p x && !l.any p then { x with cut := true } :: l else x :: cutLast p l

/-- A SYNC discards the message of a tunnel that a receive ring or the staging writer has open (04 R138): at once, or once the
barges of the tunnel that still wait are written. A ring's descriptor ends with ERR. -/
def Chip.cutOpen (t : Nat) (c : Chip) : Chip :=
  let mine := fun (x : RingBarge) => x.key.1 == t
  if c.win.barges.any mine then c.modWin fun w => { w with barges := cutLast mine w.barges }
  else
    let c := c.each c.win.rings fun x c => c.when (x.2.opened.any fun o => o.key.1 == t) fun c => (c.dmaCut x.1).dmaSettle x.1
    c.modWin fun w => { w with stageOpen := w.stageOpen.filter fun o => o.key.1 != t }

/-- Does a barge go on with an open message: numbers of multicast barges are not checked (04 R148)? -/
def RingBarge.goesOn (x : RingBarge) (key : Nat × Nat × Nat) (next : Nat) : Bool :=
  x.key == key && !x.barge.hdr.first && (x.key.1 == 0x1000 || next == x.barge.hdr.tseq.toNat)

/-- Descriptors that a barge needs from HEAD on, `off` bytes into the first. -/
def dmaNeeds : List DmaDesc → Nat → Nat → Option Nat
  | [], _, _ => none
  | d :: ds, off, len => if len ≤ (dmaLen d) - off then some 1 else (dmaNeeds ds 0 (len - ((dmaLen d) - off))).map (· + 1)

/-- A ring that stops writes what still goes into the descriptor of its open message, and completes it with the message's end or full
(R288). Marks: DEDUCED, log 44. -/
def Chip.dmaLast (n : Nat) (o : DmaOpen) (b : Barge) (c : Chip) : Chip :=
  let part := b.payload.take (dmaLen o.desc - o.off)
  let o := { o with cmark := o.cmark || b.hdr.cmark }
  let c := c.when (!part.isEmpty) (Chip.pcieAct (.write false (o.desc.addr.toNat + o.off) part))
  let o := { o with off := o.off + part.length, total := o.total + part.length, next := (b.hdr.tseq.toNat + 1) % 65536 }
  let whole := b.hdr.last && part.length == b.payload.length
  if whole || decide (dmaLen o.desc ≤ o.off) then
    ((c.dmaDone n o.desc o.off o.first whole o.cmark false).dmaStopped n)
  else c.setDma n { c.dmaRing n with opened := some o }

/-- DMA_RX_BARGE (R283): the next barge that the ring can take. A message that does not go on, is over 65,536 bytes or meets a
buffer error ends with ERR. Marks: DEDUCED, log 44. -/
def Chip.dmaRx (n : Nat) (descs : List DmaDesc) (c : Chip) : Chip :=
  let ring := c.dmaRing n
  let mine := fun (x : RingBarge) => x.channel == n && (match ring.opened with | some o => x.key == o.key | none => true)
  match c.win.barges.find? mine with
  | none => c
  | some x =>
    let take := fun (c : Chip) => c.modWin fun w => { w with barges := w.barges.erase x }
    let descs := descs.take (c.dmaPosted n)
    let h := x.barge.hdr
    let goesOn := match ring.opened with | some o => x.goesOn o.key o.next | none => false
    if !c.dmaTakes n then
      if x.reliable then c else (take c).inc (F.WIN_DMA5 n)
    else if ring.stopping then
      match goesOn, ring.opened with
      | true, some o => (take c).dmaLast n o x.barge
      | _, _ => ((c.dmaCut n).inc F.WIN_MSG_ERR).dmaSettle n
    else
      let c := c.when (ring.opened.isSome && !goesOn) fun c => (c.dmaCut n).inc F.WIN_MSG_ERR
      if !h.first && !goesOn then take c
      else
        let descs := if ring.opened.isSome && !goesOn then descs.drop 1 else descs
        let o := match goesOn, ring.opened with
          | true, some o => o
          | _, _ => { desc := descs.headD { addr := 0, len := 0, first := false, last := false, bytes := [], bad := false }, key := x.key, next := 0, total := 0, off := 0, first := true, cmark := false }
        let o := { o with cmark := o.cmark || h.cmark, next := (h.tseq.toNat + 1) % 65536 }
        match dmaNeeds descs o.off x.barge.payload.length with
        | none => if x.reliable then c else ((take c).inc (F.WIN_DMA5 n)).dmaCut n
        | some k =>
          let bad := (descs.take k).any (·.bad) || decide (65536 < o.total + x.barge.payload.length)
          let c := take c
          if bad then
            (c.setDma n { c.dmaRing n with opened := some o }).dmaCut n
          else
            let (o, c) := c.dmaFill n descs o x.barge.payload
            if h.last then ((c.dmaDone n o.desc o.off o.first true o.cmark false).setDma n { c.dmaRing n with opened := none, unsignalled := (c.dmaRing n).unsignalled + 1 })
            else (c.setDma n { c.dmaRing n with opened := some o }).when x.cut (Chip.dmaCut n)

/-- The descriptors of the first whole message. -/
def dmaMessage : List DmaDesc → List DmaDesc
  | [] => []
  | d :: ds => if d.last then [d] else d :: dmaMessage ds

/-- DMA_TX_MESSAGE (R283): the next message of a transmit ring goes out on the ring's tunnel; while the port holds a barge
under backpressure the ring is held. -/
def Chip.dmaTx (n : Nat) (descs : List DmaDesc) (c : Chip) : Chip :=
  let descs := dmaMessage (descs.take (c.dmaPosted n))
  if !c.headEnd || !c.on (F.WIN_DMA2_EN n) || !c.on (F.WIN_DMA2_DIR n) || !(descs.any (·.last)) then c
  else if c.swc.held[4].isSome then c.put (F.WIN_DMA6_HELD n) 1
  else
    let c := c.put (F.WIN_DMA6_HELD n) 0
    match c.tunnelOn 4 n fun _ => true with
    | none => c
    | some t =>
      let l := descs.flatMap fun d => (d.bytes ++ List.replicate (dmaLen d) 0).take (dmaLen d)
      let bad := descs.any (·.bad) || decide (65536 < l.length)
      let c := c.when (!bad) (Chip.sendMsg 4 t 0 l)
      c.each descs fun d c => c.dmaDone n d (if bad then 0 else (dmaLen d)) d.first d.last false bad

/-- An interrupt message to the host: MSI-X vector `n`, or the one MSI vector (R263). -/
def Chip.hostInterrupt (n : Nat) (c : Chip) : Chip := c.pcieAct (if c.win.msi then .msi else .msix n)

/-- DMA_INTERRUPT_MODERATION (R283): vector `n` fires at MOD_COUNT descriptors, or by time with at least one. -/
def Chip.dmaModerate (n : Nat) (byTime : Bool) (c : Chip) : Chip :=
  let k := (c.dmaRing n).unsignalled
  if (byTime && k != 0) || decide (max 1 (c.get (F.WIN_DMA2_MOD_COUNT n)) ≤ k) then
    (c.hostInterrupt n).setDma n { c.dmaRing n with unsignalled := 0 }
  else c

/-! The staging writer (R284). -/

/-- The open message of a tunnel. -/
def Chip.stageMsg (c : Chip) (key : Nat × Nat × Nat) : Option StageOpen := c.win.stageOpen.find? fun o => o.key == key

/-- Opens, goes on with or ends the message of a tunnel. -/
def Chip.setStageMsg (key : Nat × Nat × Nat) (o : Option StageOpen) (c : Chip) : Chip :=
  c.modWin fun w => { w with stageOpen := (w.stageOpen.filter fun x => x.key != key) ++ o.toList }

/-- Free bytes of the staging ring between its write pointer and WIN_STAGE_RD. -/
def Chip.stageRoom (c : Chip) : Nat :=
  let size := 64 * c.get F.WIN_STAGE_RING_SIZE
  let start := c.get F.WIN_STAGE_RING_START
  if size = 0 then 0
  else size - ((c.get F.WIN_STAGE_WR_PTR - start) % size + size - (c.get F.WIN_STAGE_RD_PTR - start) % size) % size

/-- The place in the ring that lies `i` bytes after its write pointer. -/
def Chip.stagePlace (c : Chip) (i : Nat) : Nat :=
  let start := c.get F.WIN_STAGE_RING_START
  start + (c.get F.WIN_STAGE_WR_PTR - start + i) % (64 * c.get F.WIN_STAGE_RING_SIZE)

/-- STAGE_RING_WRITE: the next barge of channel 0x41. A message is gathered per tunnel (03 R85) and lies at the write pointer, from byte 0
on, when that advances past it. Marks: DEDUCED, log 44. -/
def Chip.stageWrite (c : Chip) : Chip :=
  match c.win.barges.find? fun x => x.channel == 0x41 with
  | none => c
  | some x =>
    let c := c.modWin fun w => { w with barges := w.barges.erase x }
    let h := x.barge.hdr
    let open_ := c.stageMsg x.key
    let goesOn := open_.any fun o => x.goesOn x.key o.next
    let c := c.when (open_.isSome && !goesOn) fun c => (c.setStageMsg x.key none).inc F.WIN_MSG_ERR
    if !h.first && !goesOn then c
    else
      let bytes := (if goesOn then (open_.map fun o => o.bytes).getD [] else []) ++ x.barge.payload
      if c.get F.WIN_STAGE_RING_SIZE = 0 || c.stageRoom < bytes.length then (c.setStageMsg x.key none).inc F.WIN_STAGE_DROP
      else
        let c' := c.each (List.range bytes.length) fun i y => y.stageStore (c.stagePlace i % stageSize) [bytes.getD i 0]
        if h.last then (c'.setStageMsg x.key none).put F.WIN_STAGE_WR_PTR (c.stagePlace bytes.length)
        else c'.setStageMsg x.key (some { key := x.key, next := (h.tseq.toNat + 1) % 65536, bytes := bytes })

end Sys2Proof.Machine
end

