-- ==== Sys2Proof/Machine/Tunnel.lean ====
section
/-! DEFINITION. The tunnel engine (04 R132, R136 to R145): numbering, acknowledgement and retransmission at the sender, the
receive rules of the three modes, reassembly, and the commands of its timers and TACKs. -/

namespace Sys2Proof.Machine

/-! Delivery to an adapter (03 R85). -/

/-- The own counter of an adapter that discards an open message (03 R85): the chapters name one for
P3 (07 R231), P4, P5 and P7 (10 R310), and none for P6. Marks: DESIGN CHOICE, log 82. -/
def Chip.countBroken (c : Chip) (port : Nat) : Chip :=
  match port with
  | 3 => c.inc F.USB_XERR
  | 4 => c.inc F.WIN_MSG_ERR
  | 5 => c.inc F.VID_RX_DISCARD
  | 7 => c.inc F.FLD_REC_DROP
  | _ => c

/-- Does P7 take a barge: a SIGNAL barge whose LEN is a non-zero multiple of 16 (10 R310)? -/
def signalOk (b : Barge) : Bool := b.hdr.type.toNat == typeSignal && !b.payload.isEmpty && b.payload.length % 16 == 0

/-- Hands a complete message to a port; P3 and P4 discard what they do not take (07 R231, 08 R261). -/
def Chip.give (c : Chip) (port tunnel channel : Nat) (b : Barge) (bytes : List Byte) : Chip :=
  let m : Msg := {
    tunnel := BitVec.ofNat 12 tunnel, channel := BitVec.ofNat 8 channel, src := b.hdr.src, tspec := b.hdr.tspec, cmark := b.hdr.cmark
    payload := bytes }
  if port = 3 && !usbMsgOk m then c.inc F.USB_XERR
  else if port = 4 && !(b.hdr.first && c.winMsgOk m) then c.inc F.WIN_MSG_ERR
  else c.modSwc fun w => { w with inbox := w.inbox.setIfInBounds port ((w.inbox.toList.getD port []) ++ [m]) }

/-- What one barge does to an open message: a finished message, the message still open, and whether one was discarded. On multicast
barges TSEQ is not checked (04 R148). -/
def assemble (numbered : Bool) (msg : Option (List Byte × Nat)) (b : Barge) : Option (List Byte) × Option (List Byte × Nat) × Bool :=
  let next := (b.hdr.tseq.toNat + 1) % 65536
  if b.hdr.first then
    if b.hdr.last then (some b.payload, none, msg.isSome) else (none, some (b.payload, next), msg.isSome)
  else
    match msg with
    | none => (none, none, false)
    | some (l, q) =>
      if numbered && q != b.hdr.tseq.toNat then (none, none, true)
      else if b.hdr.last then (some (l ++ b.payload), none, false) else (none, some (l ++ b.payload, next), false)

/-- Does a local port take barges one by one: P4 for its DMA rings and the staging writer (08 R283, R284)? -/
def takesBarges (port channel : Nat) : Bool := port == 4 && (decide (channel < 0x40) || channel == 0x41)

/-- Can the port take a barge of the channel now: a DMA ring needs a posted descriptor for it (08 R283)? -/
def Chip.portTakes (c : Chip) (port channel : Nat) (key : Nat × Nat × Nat) (b : Barge) : Bool :=
  !(port == 4 && decide (channel < 0x40)) || c.dmaAccepts channel key b.hdr.first

/-- A barge for a DMA ring, dropped where none is posted, or for the staging writer, whose MODE must be ORDERED or RELIABLE
(08 R261). Marks: DEDUCED, log 44. -/
def Chip.giveBarge (c : Chip) (channel mode : Nat) (key : Nat × Nat × Nat) (b : Barge) : Chip :=
  if channel = 0x41 && mode = 0 then c.inc F.WIN_MSG_ERR
  else if !c.portTakes 4 channel key b then c.inc (F.WIN_DMA5 channel)
  else c.modWin fun w => { w with barges := w.barges ++ [{ channel := channel, key := key, reliable := mode == 2, barge := b, cut := false }] }

/-- Reassembles a unicast barge of tunnel `t`, under the MODE that lookup decided (R128), and hands on what is complete. P9 takes barges, not messages (05 R192). -/
def Chip.deliverUnicast (c : Chip) (t mode port channel : Nat) (b : Barge) : Chip :=
  if port = 9 then c.modSwc fun w => { w with p9in := w.p9in ++ [(channel, b)] }
  else if takesBarges port channel then c.giveBarge channel mode (t, 0, b.hdr.src.toNat) b
  else if port = 7 && !signalOk b then c.inc F.FLD_REC_DROP
  else
    let (full, left, broken) := assemble true (c.tun t).openMsg b
    let c := c.modTun t fun x => { x with openMsg := left }
    let c := c.when broken fun c => c.countBroken port
    match full with
    | some l => c.give port t channel b l
    | none => c

/-- Reassembles a multicast copy by group and sender. -/
def Chip.deliverMulticast (c : Chip) (port channel : Nat) (b : Barge) : Chip :=
  if port = 9 then c.modSwc fun w => { w with p9in := w.p9in ++ [(channel, b)] }
  else if takesBarges port channel then c.giveBarge channel 0 (0x1000, b.hdr.tunnel.toNat, b.hdr.src.toNat) b
  else if port = 7 && !signalOk b then c.inc F.FLD_REC_DROP
  else
    let k := (port, b.hdr.tunnel.toNat, b.hdr.src.toNat)
    let (full, left, broken) := assemble false ((c.swc.openMc.find? fun x => x.1 == k).map Prod.snd) b
    let c := c.modSwc fun w => { w with openMc := (w.openMc.filter fun x => x.1 != k) ++ (left.map fun m => (k, m)).toList }
    let c := c.when broken fun c => c.countBroken port
    match full with
    | some l => c.give port 0xFFF channel b l
    | none => c

/-! The receiver (R140, R143, R144). -/

/-- Last TSEQ received in order. -/
def Chip.lastInOrder (c : Chip) (t : Nat) : Nat := (c.get (F.FAB_TSTATE1_RX_EXPECT t) + 65535) % 65536

/-- Sends an ACK (R140). -/
def Chip.sendTunnelAck (c : Chip) (t : Nat) : Chip := (c.sendTack t (c.lastInOrder t) 0).modTun t fun x => { x with sinceAck := 0 }

/-- tReplay in ns (R142). -/
def Chip.tReplay (c : Chip) : Nat := max 1 (c.get F.FAB_CFG_T_REPLAY) * 100_000

/-- Sends OUT_OF_WINDOW, at most one per tReplay (R140). -/
def Chip.sendOow (c : Chip) (t : Nat) : Chip :=
  if (c.tun t).oowAt.any fun x => decide (c.now < x + c.tReplay) then c
  else (c.sendTack t (c.get (F.FAB_TSTATE1_RX_EXPECT t)) 3).modTun t fun x => { x with oowAt := some c.now }

/-- The RELIABLE receiver (R140). -/
def Chip.receiveReliable (c : Chip) (t port channel : Nat) (b : Barge) : Chip :=
  let expect := c.get (F.FAB_TSTATE1_RX_EXPECT t)
  let d := (b.hdr.tseq.toNat + 65536 - expect) % 65536
  if !c.on (F.FAB_TSTATE1_RX_SYNCED t) then c.sendOow t
  else if d = 0 && !c.portTakes port channel (t, 0, b.hdr.src.toNat) b then c
  else if d = 0 then
    let c := c.deliverUnicast t 2 port channel b
    let c := c.put (F.FAB_TSTATE1_RX_EXPECT t) (expect + 1)
    let n := (c.tun t).sinceAck + 1
    let c := c.modTun t fun x => { x with nakOut := false, sinceAck := n, quiet := false }
    if b.hdr.ackreq || 16 ≤ n then c.sendTunnelAck t else c
  else if d < 1024 then
    if (c.tun t).nakOut then c else (c.sendTack t expect 1).modTun t fun x => { x with nakOut := true }
  else if 64512 ≤ d then (c.inc F.FAB_TUN_DUP).sendTunnelAck t
  else c.sendOow t

/-- The ORDERED receiver (R143). -/
def Chip.receiveOrdered (c : Chip) (t port channel : Nat) (b : Barge) : Chip :=
  let q := b.hdr.tseq.toNat
  if !c.on (F.FAB_TSTATE1_RX_SYNCED t) then
    ((c.put (F.FAB_TSTATE1_RX_SYNCED t) 1).put (F.FAB_TSTATE1_RX_EXPECT t) (q + 1)).deliverUnicast t 1 port channel b
  else
    let d := (q + 65536 - c.get (F.FAB_TSTATE1_RX_EXPECT t)) % 65536
    if d < 32768 then
      ((c.add F.FAB_TUN_GAP d).put (F.FAB_TSTATE1_RX_EXPECT t) (q + 1)).deliverUnicast t 1 port channel b
    else c.inc F.FAB_TUN_LATE

/-- A unicast barge reaches the tunnel engine of the entry that lookup chose, under the MODE decided there (R128).
Marks: DEDUCED, log 36. -/
def Chip.receiveTunnel (c : Chip) (t mode port channel : Nat) (b : Barge) : Chip :=
  match mode with
  | 2 => c.receiveReliable t port channel b
  | 1 => c.receiveOrdered t port channel b
  | _ => c.deliverUnicast t 0 port channel b

/-! The sender (R132, R138, R139, R141, R142). -/

/-- Takes the next TSEQ (R132). -/
def Chip.takeTseq (c : Chip) (t : Nat) : Nat × Chip := (c.get (F.FAB_TSTATE0_TX_NEXT t), c.inc (F.FAB_TSTATE0_TX_NEXT t))

/-- May the tunnel send a new DATA or SIGNAL barge now (R138, R139)? -/
def Chip.tunnelMaySend (c : Chip) (t : Nat) (e : TunEntry) : Bool :=
  e.mode != 2 || (c.on (F.FAB_TSTATE1_TX_SYNCED t)
    && decide ((c.get (F.FAB_TSTATE0_TX_NEXT t) + 65536 - c.get (F.FAB_TSTATE0_TX_OLDEST t)) % 65536 < 1024))

/-- Is ACKREQ set on the tunnel's next barge (R139)? And the count after it. -/
def ackreqNext (sinceAckreq : Nat) (more : Bool) : Bool × Nat :=
  if 15 ≤ sinceAckreq || !more then (true, 0) else (false, sinceAckreq + 1)

/-- The barge a retransmission sends again joins the tail of its queue with a fresh lookup (05 R178), which waits for a walk as every
lookup does (R155). An isolated hub sends none (R123). Marks: DEDUCED, log 33. -/
def Chip.resendOne (c : Chip) (t sid : Nat) : Chip :=
  match c.swc.stored sid with
  | none => c
  | some x =>
    let e := c.tunEntry t
    let h := x.barge.hdr
    if c.on F.FAB_STATUS_ISOLATED then c
    else if c.ownId != some h.dst.toNat && c.mustWait h.dst.toNat then c.putOff (.resend t sid)
    else
    let c := c.inc F.FAB_TUN_RETX
    let join := fun (d : Desc) (c : Chip) =>
      (c.modSwc fun w => { w with
        store := w.store.map fun y => if y.sid == sid then { y with refs := y.refs + 1 } else y
        voqs := w.voqs ++ [{ d with sid := sid }] }).becameBacklogged d.outPort d.queue
    if c.ownId == some h.dst.toNat then
      let le := c.tunEntry h.tunnel.toNat
      if !le.valid || c.ownId != some le.peer || le.adapter = 8 then c.dropAt F.FAB_NO_TUNNEL x.barge x.inPort 7 (some (t, e.gen)) none
      else
        join { c.desc x.inPort le.adapter h.queue.toNat 63 with
          channel := le.channel, tun := some (t, e.gen), dstTun := some (h.tunnel.toNat, le.gen), mode := le.mode, retx := true } c
    else
      let r := c.routeTo h.dst.toNat
      match r.egress with
      | none => c.dropAt F.FAB_NO_ROUTE x.barge x.inPort 6 (some (t, e.gen)) (some (h.dst.toNat, r.gen))
      | some out =>
        join { c.desc x.inPort out h.queue.toNat 63 with
          tun := some (t, e.gen), route := some (h.dst.toNat, r.gen), strict := e.strict, retx := true } c

/-- What the tunnel engine had put off is placed, in order; what must wait still is put off again. A barge acknowledged since is not sent
again. -/
def Chip.takeLater (c : Chip) : Chip :=
  (c.modSwc fun w => { w with later := [] }).each c.swc.later fun x c =>
    match x with
    | .tack i b => c.sendTackTo i b
    | .resend t sid => c.when ((c.tun t).outs.any fun o => o.2 == sid) fun c => c.resendOne t sid

/-- Sends every outstanding barge again, from a TSEQ on, in order (R141, R142). -/
def Chip.resendFrom (c : Chip) (t tseq : Nat) : Chip :=
  let oldest := c.get (F.FAB_TSTATE0_TX_OLDEST t)
  c.each ((c.tun t).outs.filter fun o => (tseq + 65536 - oldest) % 65536 ≤ (o.1 + 65536 - oldest) % 65536) fun o c => c.resendOne t o.2

/-- Takes an acknowledgement up to a TSEQ, where it is valid (R141). -/
def Chip.tunnelAckUpTo (c : Chip) (t q : Nat) : Chip :=
  let oldest := c.get (F.FAB_TSTATE0_TX_OLDEST t)
  let d := (q + 65536 - oldest) % 65536
  if d < (c.get (F.FAB_TSTATE0_TX_NEXT t) + 65536 - oldest) % 65536 then
    let gone := (c.tun t).outs.filter fun o => (o.1 + 65536 - oldest) % 65536 ≤ d
    let c := c.each gone fun o c => c.unretain false o.2
    let c := c.modTun t fun x => { x with outs := x.outs.filter fun o => d < (o.1 + 65536 - oldest) % 65536 }
    (c.put (F.FAB_TSTATE0_TX_OLDEST t) (q + 1)).put (F.FAB_TSTATE1_RETRIES t) 0
  else c

/-- Sends a SYNC for a tunnel that is not synchronised (R138): RELIABLE from TX_OLDEST, ORDERED from TX_NEXT. -/
def Chip.sendSync (c : Chip) (t : Nat) : Chip :=
  let e := c.tunEntry t
  let q := if e.mode = 2 then c.get (F.FAB_TSTATE0_TX_OLDEST t) else c.get (F.FAB_TSTATE0_TX_NEXT t)
  (c.sendTack t q 4).modTun t fun x => { x with syncSeq := some q, syncs := x.syncs + 1 }

/-! A TACK or SYNC that reaches its tunnel (R137, R138, R141, R145). -/

/-- The SYNC receiver (R138). -/
def Chip.syncIn (c : Chip) (t q : Nat) (e : TunEntry) : Chip :=
  if e.mode = 1 && c.on (F.FAB_TSTATE1_RX_SYNCED t) && c.get (F.FAB_TSTATE1_RX_EXPECT t) == q then c
  else
    let again := c.on (F.FAB_TSTATE1_RX_SYNCED t) && !((c.tun t).quiet && c.get (F.FAB_TSTATE1_RX_EXPECT t) == q)
    let c := (c.put (F.FAB_TSTATE1_RX_EXPECT t) q).put (F.FAB_TSTATE1_RX_SYNCED t) 1
    let c := c.modTun t fun x => { x with openMsg := none, sinceAck := 0, nakOut := false, quiet := true }
    let c := c.when again fun c => c.usbPeerLost t
    let c := c.cutOpen t
    if e.mode = 2 then c.sendTack t q 5 else c

/-- The tunnel engine consumes a TACK; what is outstanding at a SYNC_ACK is sent again (DEDUCED, log 58).
Marks: DEDUCED, log 36. -/
def Chip.tackIn (c : Chip) (b : Barge) (inPort : Nat) : Chip :=
  let t := b.hdr.tunnel.toNat
  let q := b.hdr.tseq.toNat
  let st := b.hdr.tspec.toNat / 2 ^ 28
  let e := c.tunEntry t
  let toP8 := fun (c : Chip) => c.toP8 inPort b
  if e.valid && st = 2 && e.mcast then toP8 c
  else if !e.valid || e.peer ≠ b.hdr.src.toNat || e.adapter == 8 then c.dropAt F.FAB_NO_TUNNEL b inPort 7 (some (t, e.gen)) none
  else
    match st with
    | 0 => if e.mode = 2 && c.outstanding t q then c.tunnelAckUpTo t q else c.inc F.FAB_TUN_LATE_ACK
    | 1 =>
      if e.mode ≠ 2 then c.inc F.FAB_TUN_LATE_ACK
      else
        let before := (q + 65535) % 65536
        let late := !c.outstanding t q && !c.outstanding t before
        let c := (c.tunnelAckUpTo t before).when late fun c => c.inc F.FAB_TUN_LATE_ACK
        c.when (c.outstanding t q && c.on (F.FAB_TSTATE1_TX_SYNCED t)) fun c => c.resendFrom t q
    | 2 => toP8 c
    | 3 => c.when (e.mode == 2) fun c => c.put (F.FAB_TSTATE1_TX_SYNCED t) 0
    | 4 => c.syncIn t q e
    | 5 =>
      if e.mode = 2 && !c.on (F.FAB_TSTATE1_TX_SYNCED t) && (c.tun t).syncSeq == some q then
        (((c.put (F.FAB_TSTATE1_TX_SYNCED t) 1).put (F.FAB_TSTATE1_STALLED t) 0).resendFrom t (c.get (F.FAB_TSTATE0_TX_OLDEST t))).usbSynced t
      else c.inc F.FAB_TUN_LATE_ACK
    | _ => c.inc F.FAB_TUN_PROTO

/-- TACK_RX (R137, R141, R145): a TACK for this hub comes in. The row does not say by which port: by T0. Marks: DEDUCED, log 36. -/
def execTackRx (tack : Barge) (s : State) : Host.Outcome State Fault Refusal :=
  s.onChip fun c => c.when (tack.hdr.type.toNat == typeTack) fun c => c.tackIn tack 0

/-- SYNC_RX (R138). -/
def execSyncRx (sync : Barge) (s : State) : Host.Outcome State Fault Refusal :=
  s.onChip fun c => c.when (sync.hdr.type.toNat == typeTack && sync.hdr.tspec.toNat / 2 ^ 28 == 4) fun c => c.tackIn sync 0

/-- SYNC_TX (R138): an ORDERED sender sets TX_SYNCED without waiting. -/
def Chip.syncTx (t : Nat) (c : Chip) : Chip :=
  let e := c.tunEntry t
  if !e.valid || e.mode = 0 || c.on (F.FAB_TSTATE1_TX_SYNCED t) then c
  else
    let c := (c.modTun t fun x => { x with syncs := 0 }).sendSync t
    c.when (e.mode == 1) fun c => c.put (F.FAB_TSTATE1_TX_SYNCED t) 1

def execSyncTx (tunnel : BitVec 12) (s : State) : Host.Outcome State Fault Refusal := s.onChip (Chip.syncTx tunnel.toNat)

/-- SYNC_REPEAT (R138): every tReplay while a RELIABLE sender waits for SYNC_ACK; once, 1 ms later, for an ORDERED one. -/
def Chip.syncRepeat (t : Nat) (c : Chip) : Chip :=
  let e := c.tunEntry t
  let n := (c.tun t).syncs
  if e.valid && ((e.mode == 2 && !c.on (F.FAB_TSTATE1_TX_SYNCED t)) || (e.mode == 1 && n == 1)) then c.sendSync t else c

def execSyncRepeat (tunnel : BitVec 12) (s : State) : Host.Outcome State Fault Refusal := s.onChip (Chip.syncRepeat tunnel.toNat)

/-- TUNNEL_ACK_DELAY_EXPIRY (R140): 100 µs after the first unacknowledged in-order barge. -/
def execTunnelAckDelayExpiry (tunnel : BitVec 12) (s : State) : Host.Outcome State Fault Refusal :=
  s.onChip fun c => c.when ((c.tunEntry tunnel.toNat).mode == 2 && (c.tun tunnel.toNat).sinceAck != 0) fun c => c.sendTunnelAck tunnel.toNat

/-- TUNNEL_NAK_OUT_EXPIRY (R140): tReplay has passed since the NAK. -/
def execTunnelNakOutExpiry (tunnel : BitVec 12) (s : State) : Host.Outcome State Fault Refusal :=
  s.onChip fun c => c.modTun tunnel.toNat fun x => { x with nakOut := false }

/-- TREPLAY_EXPIRY (R142); a sender that is not synchronised sends nothing again meanwhile (R138). Marks: DEDUCED, log 58. -/
def Chip.treplayExpiry (t : Nat) (c : Chip) : Chip :=
  let oldest := c.get (F.FAB_TSTATE0_TX_OLDEST t)
  if (c.tunEntry t).mode ≠ 2 || c.get (F.FAB_TSTATE0_TX_NEXT t) = oldest then c
  else
    let n := c.get (F.FAB_TSTATE1_RETRIES t) + 1
    let c := c.put (F.FAB_TSTATE1_RETRIES t) n
    if n < max 1 (c.get F.FAB_CFG_TUN_RETRY_MAX) then c.when (c.on (F.FAB_TSTATE1_TX_SYNCED t)) fun c => c.resendFrom t oldest
    else c.stallTunnel t

def execTreplayExpiry (tunnel : BitVec 12) (s : State) : Host.Outcome State Fault Refusal := s.onChip (Chip.treplayExpiry tunnel.toNat)

end Sys2Proof.Machine
end

