-- ==== Sys2Proof/Machine/Fabric.lean ====
section
/-! DEFINITION. Lookup and placing (04 R131 to R135, R145 to R148; 06 R202 to R205): the commands by which a barge enters
the switch core from a trunk, an adapter, the Lockkeeper or P9, and those by which a held barge is offered again. -/

namespace Sys2Proof.Machine

/-- Is the hub isolated (R123)? -/
def Chip.isolated (c : Chip) : Bool := c.on F.FAB_STATUS_ISOLATED

/-- Offers a barge to admission, and samples it as it stood before: its record takes no cell that the barge itself needs
(05 R189, R191). Marks: DEDUCED, log 39. -/
def Chip.offerOne (c : Chip) (b : Barge) (d : Desc) (retain : Option Nat) : Admit × Chip :=
  let x := c.ingressPoint b [d]
  let (a, c) := c.admitOne b d retain false
  (a, c.sampleAt x)

/-! Multicast (R145 to R148). -/

/-- The copies of a multicast barge at this hub (R146): one per target, ascending, each with its HOPS and channel. -/
def Chip.copiesOf (c : Chip) (b : Barge) (gi : Nat) (g : GroupEntry) (inPort : Nat) (origin : Bool) (orig : Option (Nat × Nat))
    (weir : Option Nat) : List Desc :=
  let hops := b.hdr.hops.toNat
  let wanted := fun (e : Nat) => (g.ports.testBit e || (gi == 255 && !origin && e == 8)) && e != inPort
    && !(inPort ≤ 2 && hops == 0 && e ≤ 2) && !(c.isolated && inPort ≤ 2 && 3 ≤ e && e != 8)
  (portList.filter wanted).map fun e =>
    let h := if 3 ≤ e then hops else if origin then g.mcHops else hops - 1
    { c.desc inPort e b.hdr.queue.toNat h with
      channel := if 3 ≤ e then g.channel else 0, tun := some (gi, g.gen), orig := orig, isGroup := true, copy := true
      weir := weir }

/-- A copy is refused or targets a trunk port that is not routable (R147). -/
def Chip.refuseCopy (b : Barge) (d : Desc) (c : Chip) : Chip :=
  (c.inc (F.FAB_MC_DROP (min d.outPort 7))).sample (d.point b 2 9 (c.swc.voqDepth d.inPort d.outPort d.queue))

/-- An ATOMIC barge is refused (R148): counted once, with at most one PARTIAL_REFUSED per group per 1 ms.
Marks: DEDUCED, log 37. -/
def Chip.atomicRefused (c : Chip) (b : Barge) (inPort gi : Nat) (copies : List Desc) : Chip :=
  let c := (c.inc F.FAB_MC_ATOMIC_REFUSED).sampleDrop b inPort 9 ((copies.head?.map (·.tun)).getD none) none (outBits copies)
  let src := b.hdr.tspec.toNat / 2 ^ 20
  let recent := c.fab.refusedAt.any fun x => x.1 == gi && decide (c.now < x.2 + millisecond)
  if src = 0xFFF || recent then c
  else
    let c := c.modFab fun f => { f with refusedAt := (f.refusedAt.filter fun x => x.1 != gi) ++ [(gi, c.now)] }
    c.sendTackTo inPort (c.tackBarge b.hdr.src.toNat src (c.get F.FAB_CFG_TACK_QUEUE) b.hdr.tseq.toNat 2 (gi * 2 ^ 20))

/-- The ALM block inspects an ALARM barge on its way to P8 (14 R447); route notices are not alarms. -/
def Chip.inspectAlarm (b : Barge) (c : Chip) : Chip :=
  if b.hdr.type.toNat == typeAlarm && !(b.hdr.mcast && b.hdr.tunnel.toNat % 256 == 255) then
    { c with alm := { c.alm with rx := c.alm.rx ++ [b] } }
  else c

/-- Replicates a multicast barge by its group entry (R146 to R148). Records of copies that are not admitted are made once the others
have their cells (05 R191). `orig` is the tunnel map entry that it came by at its origin. -/
def Chip.replicate (b : Barge) (inPort : Nat) (origin : Bool) (orig : Option (Nat × Nat)) (weir : Option Nat) (c : Chip) : Chip :=
  let gi := b.hdr.tunnel.toNat % 256
  let g := c.groupEntry gi
  let stamp := some (gi, g.gen)
  if !g.valid then c.dropAt (F.FAB_MC_DROP (min inPort 7)) b inPort 9 stamp none
  else
    let removed := c.isolated && inPort ≤ 2 && portList.any fun e => g.ports.testBit e && 3 ≤ e && e != 8
    let gone := fun (c : Chip) => c.when removed fun c => c.dropAt F.FAB_ISO_DROP b inPort 14 stamp none
    let all := c.copiesOf b gi g inPort origin orig weir
    let c := c.when (all.any fun d => d.outPort == 8) (Chip.inspectAlarm b)
    let lost := all.filter fun d => d.outPort ≤ 2 && !c.routable d.outPort
    let live := all.filter fun d => 3 ≤ d.outPort || c.routable d.outPort
    if g.atomic && !lost.isEmpty then gone (c.atomicRefused b inPort gi all)
    else if live.isEmpty then gone (c.each lost (Chip.refuseCopy b))
    else
      let x := c.ingressPoint b live
      let (v, c) := c.judge b inPort live false false
      let c :=
        if g.atomic && !v.bad.isEmpty then c.atomicRefused b inPort gi all
        else
          let c := if v.ok.isEmpty then c else (c.enqueue b inPort v.ok none).2
          c.each v.bad fun x c => c.refuseCopy b x.1
      gone ((c.each lost (Chip.refuseCopy b)).sampleAt x)

/-! Route notices (R151). -/

/-- A route notice for a link or a spur. -/
def Chip.noticeBarge (c : Chip) (n i : Nat) (spur broken : Bool) : Barge :=
  let h := c.ownHeader 0 255 0 4 (n - 2)
  { hdr := { h with
      mcast := true
      tspec := BitVec.ofNat 32 (0xFFF * 2 ^ 20 + i * 2 ^ 14 + spur.toNat * 2 ^ 13 + broken.toNat * 2 ^ 12 + c.get F.FAB_RING_RING_ID * 2 ^ 4) }
    payload := [] }

/-- Sends a route notice for a port once the hub has its ID (R120): group 255 replicates it, and a copy goes to P8 (R146, R147, R151). While P8 holds a barge it
waits behind it (05 R173). TSEQ, of which R151 says nothing, is a free value (log 2). Marks: DEDUCED, log 38. -/
def Chip.sendNotice (c : Chip) (p : Port) (broken : Bool) : Chip :=
  match c.ring, c.ownProtection p with
  | some (n, _, _), some (spur, i) =>
    let (t, c) := c.draw 65536
    let b := c.noticeBarge n i spur broken
    let b := { b with hdr := { b.hdr with tseq := BitVec.ofNat 16 t } }
    if !c.on F.FAB_ID_ID_VALID then c.dropAt F.FAB_NO_ROUTE b 8 6 none none
    else
    let c := c.toP8 8 b
    if (c.heldAt 8).isSome then c.modSwc fun w => { w with p8out := w.p8out ++ [(b, none)] } else c.replicate b 8 true none none
  | _, _ => c

/-! Delivery to the own hub and by the route entry (R131 cases 4 to 6, R133 to R135). -/

/-- The descriptor of a DATA or SIGNAL barge for the own hub, where R135 allows one. -/
def Chip.localDesc (c : Chip) (b : Barge) (inPort : Nat) : Option Desc :=
  let t := b.hdr.tunnel.toNat
  let e := c.tunEntry t
  if e.valid && e.peer == b.hdr.src.toNat && e.adapter != 8 then
    some { c.desc inPort e.adapter b.hdr.queue.toNat b.hdr.hops.toNat with
      channel := e.channel, dstTun := some (t, e.gen), tun := some (t, e.gen), mode := e.mode }
  else none

/-- Case 4 of R131 for a barge that names the own hub. -/
def Chip.deliverOwn (b : Barge) (inPort : Nat) (c : Chip) : Chip :=
  let t := b.hdr.type.toNat
  if t == typeTack then c.tackIn b inPort
  else if t == typeData || t == typeSignal then
    match c.localDesc b inPort with
    | some d => (c.offerOne b d none).2
    | none => c.dropAt F.FAB_NO_TUNNEL b inPort 7 (some (b.hdr.tunnel.toNat, (c.tunEntry b.hdr.tunnel.toNat).gen)) none
  else ((c.inspectAlarm b).offerOne b (c.desc inPort 8 b.hdr.queue.toNat b.hdr.hops.toNat) none).2

/-- The route entry of its DST_HUB places a barge (R134, R12). -/
def Chip.forward (b : Barge) (inPort : Nat) (c : Chip) : Chip :=
  let dst := b.hdr.dst.toNat
  let r := c.routeTo dst
  let stamp := some (dst, r.gen)
  match r.egress with
  | none => c.dropAt F.FAB_NO_ROUTE b inPort 6 none stamp
  | some e =>
    if e = inPort then c.dropAt (F.FAB_ROUTE_ERR inPort) b inPort 11 none stamp
    else (c.offerOne b { c.desc inPort e b.hdr.queue.toNat b.hdr.hops.toNat with route := stamp } none).2

/-- The ring's own notices set or clear the bit they name, the hub's own held bits apart (R152, R526); answers whether the
notice is of the own ring. -/
def Chip.takeNotice (b : Barge) (c : Chip) : Bool × Chip :=
  let ts := b.hdr.tspec
  if (ts.extractLsb' 4 8).toNat != c.get F.FAB_RING_RING_ID then (false, c)
  else if c.ring.isNone then (true, c)
  else
    let i := (ts.extractLsb' 14 6).toNat
    let spur := ts.getLsbD 13
    let own := ports.any fun p => c.fab.ownLost[p] && c.ownProtection p == some (spur, i)
    (true, if own then c else c.setProtection spur i (ts.getLsbD 12))

/-- Must a barge that came in by a trunk wait for a walk (R155)? -/
def Chip.lookupWaits (c : Chip) (b : Barge) : Bool :=
  !b.hdr.mcast && b.hdr.type.toNat != typeLctl && c.ownId != some b.hdr.dst.toNat && b.hdr.hops != 0
    && c.mustWait b.hdr.dst.toNat

/-- Lookup of a barge from a trunk (R131, with R120 and R123). A multicast barge with the own ID as SRC_HUB meets case 2 of R131 at an
isolated hub too and counts in FAB_MC_LOOP, not in FAB_ISO_DROP. Marks: DESIGN CHOICE, log 83. -/
def Chip.trunkLookup (p : Port) (b : Barge) (c : Chip) : Chip :=
  let i := p.val
  let h := b.hdr
  let own := c.get F.FAB_ID_HUB_ID
  if h.type.toNat == typeLctl then (c.offerOne b (c.desc i 8 h.queue.toNat h.hops.toNat) none).2
  else if !c.on F.FAB_ID_ID_VALID then c.dropAt F.FAB_NO_ROUTE b i 6 none none
  else if h.mcast then
    if h.src.toNat == own then c.dropAt F.FAB_MC_LOOP b i 9 none none
    else if h.tunnel.toNat % 256 == 255 then
      let (mine, c) := c.takeNotice b
      if mine then c.replicate b i false none none else c.dropAt F.FAB_MC_LOOP b i 9 none none
    else c.replicate b i false none none
  else if c.isolated && (h.dst.toNat == own || h.src.toNat == own) then c.dropAt F.FAB_ISO_DROP b i 14 none none
  else if h.dst.toNat == own then c.deliverOwn b i
  else if h.hops == 0 then c.dropAt F.FAB_HOPS_DROP b i 10 none none
  else c.forward { b with hdr := { h with hops := h.hops - 1 } } i

/-- TRUNK_INGRESS_LOOKUP (R131): the barge given, or the next one the link has delivered. A barge that must wait for a walk,
or for DP to be ready (15 R456), stays at the head of the port. -/
def Chip.trunkIngress (p : Port) (barge : Option Barge) (c : Chip) : Chip :=
  let l := c.lnk[p].rxq ++ barge.toList
  match l with
  | [] => c
  | b :: rest =>
    if c.lookupWaits b || !c.dpReady then c.modLnk p fun k => { k with rxq := l }
    else (c.modLnk p fun k => { k with rxq := rest }).trunkLookup p b

def execTrunkIngressLookup (p : Port) (barge : Option Barge) (s : State) : Host.Outcome State Fault Refusal :=
  s.onChip (Chip.trunkIngress p barge)

/-! Barges from adapters (R132, R145; 06 R202 to R205). -/

/-- What became of a RELIABLE barge that was offered: an admitted one is outstanding with its cells. -/
def Chip.afterOffer (t : Nat) (b : Barge) (retain : Option Nat) : Admit × Chip → Chip
  | (.admitted sid, c) => c.when (c.keeper b retain).isSome fun c => c.modTun t fun x => { x with outs := x.outs ++ [(b.hdr.tseq.toNat, sid)] }
  | (_, c) => c

/-- What a weir says of a barge (R203, R204, R527). -/
inductive WeirVerdict where
  | pass (colour : BitVec 2) (weir : Option Nat)
  | drop
  | hold

/-- Meters a barge at its tunnel's weir. -/
def Chip.atWeir (c : Chip) (n : Nat) (offered : BitVec 2) (words : Nat) (reliable : Bool) : WeirVerdict × Chip :=
  if !c.on (F.SCH_WEIR0_EN n) then (.pass offered none, c)
  else
    let (col, d) := c.meter n offered.toNat words
    if col = 2 && c.on (F.SCH_WEIR0_DROP_RED n) then
      if reliable && !c.weirHopeless n offered.toNat words then (.hold, c.inc F.SCH_WEIR_HOLD) else (.drop, c.inc F.SCH_WEIR_DROP)
    else (.pass (BitVec.ofNat 2 col) (some n), d)

/-- The header of an offered barge (R132, R145). -/
def Chip.offerHeader (c : Chip) (port : Nat) (o : Offer) (e : TunEntry) (tseq : Nat) (ackreq : Bool) : Header :=
  let mc := o.flood.isSome || e.mcast
  let gi := match o.flood with | some (g, _) => g.toNat | none => e.peerTun % 256
  let g := c.groupEntry gi
  let high := match o.flood with | some (_, h) => h.toNat | none => if g.atomic then o.tunnel.toNat else 0xFFF
  { dst := if mc then 0 else BitVec.ofNat 10 e.peer, src := BitVec.ofNat 10 (c.get F.FAB_ID_HUB_ID)
    tunnel := if mc then BitVec.ofNat 12 gi else BitVec.ofNat 12 e.peerTun, queue := BitVec.ofNat 6 e.queue, colour := o.colour
    cmark := false, mcast := mc, hops := if mc then BitVec.ofNat 6 g.mcHops else 63, tseq := BitVec.ofNat 16 tseq
    len := BitVec.ofNat 10 o.payload.length, type := if port = 7 then 6 else 0, first := o.first, last := o.last, ackreq := ackreq
    retx := false, budget := BitVec.ofNat 2 e.budget
    tspec := if mc then BitVec.ofNat 32 (high * 2 ^ 20 + o.tspec.toNat % 2 ^ 20) else o.tspec }

/-- Takes the weir's verdict on a unicast barge to admission, or holds it with the weir of its lookup (R128) or drops it there. Marks: DEDUCED, log 35. -/
def Chip.weirThenAdmit (t : Nat) (b : Barge) (d : Desc) (n : Nat) (retain : Option Nat) (offered : BitVec 2) (c : Chip) : Chip :=
  let (v, c) := c.atWeir n offered (bargeWords b.hdr.len.toNat) retain.isSome
  match v with
  | .drop => c
  | .hold => c.modSwc fun w => { w with
      held := w.held.setIfInBounds d.inPort (some {
        barge := b, copies := [{ d with weir := some n }], retain := retain, red := true, offered := offered, counted := false }) }
  | .pass col weir =>
    let b := { b with hdr := { b.hdr with colour := col } }
    Chip.afterOffer t b retain (c.offerOne b { d with weir := weir } retain)

/-- An adapter's barge passes lookup (R132): header, TSEQ, egress, weir and admission, in this order. -/
def Chip.adapterLookup (port : Nat) (o : Offer) (more : Bool) (c : Chip) : Chip :=
  let t := o.tunnel.toNat
  let e := c.tunEntry t
  let bare : Barge := { hdr := c.offerHeader port o e 0 false, payload := o.payload }
  let own := some (t, e.gen)
  if !c.on F.FAB_ID_ID_VALID then c.dropAt F.FAB_NO_ROUTE bare port 6 none none
  else if c.isolated then c.dropAt F.FAB_ISO_DROP bare port 14 none none
  else if !e.valid then c.dropAt F.FAB_NO_TUNNEL bare port 7 own none
  else
    let (ar, n) := if e.mode = 2 then ackreqNext (c.tun t).sinceAckreq more else (false, (c.tun t).sinceAckreq)
    let (tseq, c) := c.takeTseq t
    let c := c.modTun t fun x => { x with sinceAckreq := n }
    let b : Barge := { hdr := c.offerHeader port o e tseq ar, payload := o.payload }
    let retain := if e.mode = 2 then some t else none
    if b.hdr.mcast then
      let (v, c) := c.atWeir e.weir o.colour (bargeWords b.hdr.len.toNat) false
      match v with
      | .pass col weir => c.replicate { b with hdr := { b.hdr with colour := col } } port true own weir
      | _ => c
    else if c.ownId == some e.peer then
      match c.localDesc b port with
      | none => c.dropAt F.FAB_NO_TUNNEL b port 7 own none
      | some d => c.weirThenAdmit t b { d with tun := own } e.weir retain o.colour
    else
      let r := c.routeTo e.peer
      let stamp := some (e.peer, r.gen)
      match r.egress with
      | none =>
        let c := c.dropAt F.FAB_NO_ROUTE b port 6 own stamp
        if retain.isSome then c.stallTunnel t else c
      | some out =>
        c.weirThenAdmit t b { c.desc port out b.hdr.queue.toNat 63 with tun := own, route := stamp, strict := e.strict } e.weir retain o.colour

/-- May an adapter's barge go into lookup now: its tunnel may send (R138, R139), and no walk holds its egress choice (R155)? -/
def Chip.offerReady (c : Chip) (o : Offer) : Bool :=
  let e := c.tunEntry o.tunnel.toNat
  !c.on F.FAB_ID_ID_VALID || c.isolated || !e.valid
    || (c.tunnelMaySend o.tunnel.toNat e
      && (o.flood.isSome || e.mcast || c.ownId == some e.peer || !c.mustWait e.peer))

/-- The first offer of a list that may go into lookup, and the others. -/
def firstReady (c : Chip) : List Offer → Option (Offer × List Offer)
  | [] => none
  | o :: rest =>
    if c.offerReady o then some (o, rest)
    else match firstReady c rest with
      | some (x, l) => some (x, o :: l)
      | none => none

/-- ADAPTER_INGRESS_LOOKUP (R132): an adapter offers a barge, or the port takes up one that waits. A port that holds a barge
offers nothing else (05 R173). -/
def Chip.adapterIngress (port : Nat) (offer : Option Offer) (c : Chip) : Chip :=
  let l := c.swc.offers.toList.getD port [] ++ offer.toList
  let keep := fun (l : List Offer) (c : Chip) => c.modSwc fun w => { w with offers := w.offers.setIfInBounds port l }
  if port < 3 || port = 8 then c
  else if (c.swc.held.toList.getD port none).isSome then keep l c
  else match firstReady c l with
    | none => keep l c
    | some (o, rest) => (keep rest c).adapterLookup port o (rest.any fun x => x.tunnel == o.tunnel)

def execAdapterIngressLookup (port : DPort) (offer : Option Offer) (s : State) : Host.Outcome State Fault Refusal :=
  s.onChip (Chip.adapterIngress port.val offer)

/-! Barges from the Lockkeeper (R133, R83). -/

/-- Places a barge that P8 hands over, with the trunk port it names for an LCTL barge. -/
def Chip.lockkeeperBarge (b : Barge) (out : Option Port) (c : Chip) : Chip :=
  let h := b.hdr
  if h.type.toNat == typeLctl then
    match out with
    | some p =>
      if c.on (F.TRK_STATUS_LINK_UP p) then (c.offerOne b (c.desc 8 p.val h.queue.toNat h.hops.toNat) none).2
      else c.dropAt F.FAB_NO_ROUTE b 8 6 none none
    | none => c.dropAt F.FAB_NO_ROUTE b 8 6 none none
  else if !c.on F.FAB_ID_ID_VALID then c.dropAt F.FAB_NO_ROUTE b 8 6 none none
  else if c.isolated && h.type.toNat != typeAlarm then c.dropAt F.FAB_ISO_DROP b 8 14 none none
  else if h.mcast then c.replicate b 8 true none none
  else if c.ownId == some h.dst.toNat then c.deliverOwn b 8
  else c.forward b 8

/-- LOCKKEEPER_BARGE_INGRESS (R133): the barge given, or the next that P8 has handed over. -/
def Chip.lockkeeperIngress (x : Option (Barge × Option Port)) (c : Chip) : Chip :=
  let l := c.swc.p8out ++ x.toList
  let keep := fun (l : List (Barge × Option Port)) (c : Chip) => c.modSwc fun w => { w with p8out := l }
  if (c.swc.held.toList.getD 8 none).isSome then keep l c
  else match l with
    | [] => c
    | (b, out) :: rest =>
      if !b.hdr.mcast && b.hdr.type.toNat != typeLctl && c.ownId != some b.hdr.dst.toNat && c.mustWait b.hdr.dst.toNat then keep l c
      else (keep rest c).lockkeeperBarge b out

def execLockkeeperBargeIngress (x : Option (Barge × Option Port)) (s : State) : Host.Outcome State Fault Refusal :=
  s.onChip (Chip.lockkeeperIngress x)

/-! Held barges (05 R173, 06 R204). -/

def Chip.release (port : Nat) (c : Chip) : Chip := c.modSwc fun w => { w with held := w.held.setIfInBounds port none }

/-- A held descriptor takes its arrival stamp when it is admitted (05 R169). Marks: DEDUCED, log 37. -/
def Chip.restamp (c : Chip) (d : Desc) : Desc := { d with frame := c.get F.FAB_FRAME, subns := c.subns / 8 * 8 }

/-- ADMISSION_RETRY (05 R173): the port offers its held barge again; what waited behind it goes once it holds none. -/
def Chip.admissionRetry (port : Nat) (c : Chip) : Chip :=
  match c.heldAt port with
  | none => c.takeLater
  | some x =>
    match x.red, x.copies with
    | false, d :: _ =>
      (Chip.afterOffer (x.retain.getD 0) x.barge x.retain ((c.release port).admitOne x.barge (c.restamp d) x.retain x.counted)).takeLater
    | _, _ => c

def execAdmissionRetry (port : DPort) (s : State) : Host.Outcome State Fault Refusal := s.onChip (Chip.admissionRetry port.val)

/-- WEIR_HOLD_RETRY (06 R204): a barge held red is metered again by the weir of its lookup. -/
def Chip.weirHoldRetry (port : Nat) (c : Chip) : Chip :=
  match c.heldAt port with
  | none => c
  | some x =>
    match x.red, x.copies, x.retain with
    | true, d :: _, some t => ((c.release port).weirThenAdmit t x.barge (c.restamp d) (d.weir.getD 0) (some t) x.offered).takeLater
    | _, _, _ => c

def execWeirHoldRetry (port : DPort) (s : State) : Host.Outcome State Fault Refusal := s.onChip (Chip.weirHoldRetry port.val)

/-- LOOPBACK_BARGE (05 R192): a barge delivered to P9 on an enabled channel comes back in as an adapter's. -/
def Chip.loopback (c : Chip) : Chip :=
  match c.swc.p9in with
  | [] => c
  | (ch, b) :: rest =>
    let c := c.modSwc fun w => { w with p9in := rest }
    if 15 < ch || !c.on (F.SWC_LOOP_CH_EN ch) then c.dropAt F.SWC_LOOP_DROP b 9 0 none none
    else
      c.adapterIngress 9 (some {
        tunnel := BitVec.ofNat 12 (c.get (F.SWC_LOOP_CH_TUNNEL ch)), colour := 0, first := b.hdr.first, last := b.hdr.last
        tspec := b.hdr.tspec, payload := b.payload, flood := none })

def execLoopbackBarge (s : State) : Host.Outcome State Fault Refusal := s.onChip Chip.loopback

end Sys2Proof.Machine
end

