-- ==== Sys2Proof/Machine/Alarms.lean ====
section
/-! DEFINITION. Sending, receiving and merging alarms (14 R444 to R450): the ALM block is hardware and works in every state of
the Lockkeeper. -/

namespace Sys2Proof.Machine

/-! The payload (Table 14-6). -/

/-- A hub ID with its ID_VALID bit. -/
def idBytes (o : Option Nat) : List Byte :=
  match o with
  | some h => beBytes 2 (0x8000 + h % 1024)
  | none => [0#8, 0#8]

/-- The hub of two ID bytes. -/
def idOf (n : Nat) : Option Nat := if n.testBit 15 then some (n % 1024) else none

/-- The 32 bytes of an alarm, in a barge and in the log. -/
def AlarmEntry.payload (e : AlarmEntry) : List Byte :=
  beBytes 1 e.code ++ beBytes 1 (e.sev % 4 + e.fabric.toNat * 4 + e.cleared.toNat * 8) ++ idBytes e.reporter ++ idBytes e.subject
    ++ beBytes 1 e.unit ++ beBytes 1 e.hops ++ beBytes 4 e.loc ++ beBytes 4 e.frame ++ beBytes 4 (e.subns % 2 ^ 20)
    ++ beBytes 2 e.suppressed ++ beBytes 2 e.seq ++ beBytes 8 e.detail

/-- The entry that a received alarm barge makes (R446). -/
def alarmOf (l : List Byte) (now : Nat) : AlarmEntry :=
  let flags := fieldAt l 1 1
  { code := fieldAt l 0 1, sev := flags % 4, fabric := flags.testBit 2, cleared := flags.testBit 3
    reporter := idOf (fieldAt l 2 2), subject := idOf (fieldAt l 4 2), unit := fieldAt l 6 1, hops := fieldAt l 7 1
    loc := fieldAt l 8 4, frame := fieldAt l 12 4, subns := fieldAt l 16 4 % 2 ^ 20, suppressed := fieldAt l 20 2
    seq := fieldAt l 22 2, detail := fieldAt l 24 8, sent := false, pending := false, received := true, localOnly := false
    cancelled := false, merged := 0, time := now, order := 0, copies := 0, deferred := false }

/-- The election key (R445): h in its high bits, the reporter in its low bits. -/
def AlarmEntry.election (e : AlarmEntry) : Nat := e.hops * 1024 + e.reporter.getD 0

/-! Sending (R448, R449). -/

def Chip.modAlm (c : Chip) (f : Alm → Alm) : Chip := { c with alm := f c.alm }

/-- Changes a log entry. -/
def Chip.modAlarm (c : Chip) (i : Nat) (f : AlarmEntry → AlarmEntry) : Chip :=
  match alarmAt c.alm.log i with
  | some e => (c.modAlm fun a => { a with log := alarmSet a.log i (f e) }).alarmCount
  | none => c

/-- Where an alarm goes (R448): a group, or a hub. -/
def Chip.alarmDests (c : Chip) (e : AlarmEntry) : List (Bool × Nat) :=
  if e.fabric then [(true, c.get F.ALM_CFG2_FABRIC_GROUP)]
  else if c.on F.ALM_CFG_GROUP_EN then [(true, c.get F.ALM_CFG_GROUP)]
  else ((List.range 4).filter fun n => c.on (F.ALM_DEST_VALID n)).map fun n => (false, c.get (F.ALM_DEST_HUB n))

/-- One alarm barge. Its TSEQ, of which R448 says nothing, is the given free value (log 2). Marks: DEDUCED, log 57. -/
def Chip.alarmBarge (c : Chip) (e : AlarmEntry) (group : Bool) (dst tseq : Nat) : Barge :=
  let h := c.ownHeader (if group then 0 else dst) (if group then dst else 0) (c.get F.ALM_CFG_QUEUE) typeAlarm
    (if group then (c.groupEntry dst).mcHops else 63)
  { hdr := { h with mcast := group, tseq := BitVec.ofNat 16 tseq, len := 32, tspec := 0xFFF0_0000#32 }, payload := e.payload }

/-- MAX_PER_TICK: 0 and above 16 are taken as 16. -/
def Chip.alarmLimit (c : Chip) : Nat :=
  let m := c.get F.ALM_CFG_MAX_PER_TICK
  if m = 0 || 16 < m then 16 else m

/-- Is P8 free to offer another barge (05 R173)? -/
def Chip.p8Free (c : Chip) : Bool := (c.swc.held.toList.getD 8 none).isNone

/-- Sends an entry's barges while the limit of the tick and P8 allow; the entry is pending until its last is out. -/
def Chip.sendAlarmTo (i : Nat) : List (Bool × Nat) → Chip → Chip
  | [], c => c.modAlarm i fun e => { e with pending := false }
  | (group, dst) :: ds, c =>
    match alarmAt c.alm.log i with
    | none => c
    | some e =>
      if c.alm.used < c.alarmLimit && c.p8Free then
        let (t, c) := c.draw 65536
        let c := (c.lockkeeperBarge (c.alarmBarge e group dst t) none).inc F.ALM_SENT
        let c := c.modAlm fun a => { a with
          used := a.used + 1, lastSent := (a.lastSent.filter fun x => x.1 != e.key) ++ [(e.key, c.now)] }
        Chip.sendAlarmTo i ds (c.modAlarm i fun e => { e with sent := true, copies := e.copies + 1 })
      else (c.when (!e.deferred) fun c => c.inc F.ALM_DEFERRED).modAlarm i fun e => { e with deferred := true }

/-- Sends one alarm, from the destination it has reached. One that another entry's sending has made a repeat stays pending and counts
once (R449). Marks: DEDUCED, log 57. -/
def Chip.sendAlarm (i : Nat) (c : Chip) : Chip :=
  match alarmAt c.alm.log i with
  | some e =>
    if e.copies = 0 && c.alarmRepeat e.key then
      c.when (e.suppressed == 0) fun c => (c.inc F.ALM_SUPPRESSED).modAlarm i fun e => { e with suppressed := 1 }
    else Chip.sendAlarmTo i ((c.alarmDests e).drop e.copies) c
  | none => c

/-- Does an alarm go before another: highest severity first, then oldest? -/
def alarmBefore (a b : Nat × AlarmEntry) : Bool :=
  decide (b.2.sev < a.2.sev) || (a.2.sev == b.2.sev && (decide (a.2.time < b.2.time) || (a.2.time == b.2.time && decide (a.2.order ≤ b.2.order))))

def insertAlarm (x : Nat × AlarmEntry) : List (Nat × AlarmEntry) → List (Nat × AlarmEntry)
  | [] => [x]
  | y :: l => if alarmBefore x y then x :: y :: l else y :: insertAlarm x l

/-- The alarms that may go out now: pending, not on hold, and not sent within REPEAT_S. Marks: DEDUCED, log 57. -/
def Chip.alarmsDue (c : Chip) : List Nat :=
  let due := c.alm.log.filter fun x =>
    x.2.pending && !(c.alm.holds.any fun h => h.1 == x.1) && (decide (0 < x.2.copies) || !c.alarmRepeat x.2.key)
  (due.foldr insertAlarm []).map Prod.fst

/-- What a frame tick sends (R449). With ALM_CFG.EN clear nothing goes out. Marks: DEDUCED, log 57. -/
def Chip.alarmTick (c : Chip) : Chip :=
  let c := c.modAlm fun a => { a with used := 0 }
  c.when (c.on F.ALM_CFG_EN) fun c => c.each c.alarmsDue Chip.sendAlarm

/-! Holds (R445). -/

/-- Ends the hold of an entry. Marks: DEDUCED, log 57. -/
def Chip.endHold (i : Nat) (c : Chip) : Chip := (c.modAlm fun a => { a with holds := a.holds.filter fun h => h.1 != i }).alarmCount

/-- ALARM_HOLD_EXPIRY (R445): a report that nobody closer to the fault has made is sent. -/
def Chip.holdExpiry (i : Nat) (c : Chip) : Chip :=
  c.when (c.alm.holds.any fun h => h.1 == i) fun c =>
    let c := c.endHold i
    c.when (c.on F.ALM_CFG_EN && (c.alarmsDue.contains i)) (Chip.sendAlarm i)

def execAlarmHoldExpiry (i : Byte) (s : State) : Host.Outcome State Fault Refusal :=
  s.onChip fun c => c.when c.running (Chip.holdExpiry i.toNat)

/-! Reception (R445 to R447). -/

/-- Reports on hold that a received alarm of the same code and subject and lower election key cancels. -/
def Chip.cancelHolds (e : AlarmEntry) (c : Chip) : Chip :=
  c.each c.alm.holds fun h c =>
    match alarmAt c.alm.log h.1 with
    | some x =>
      c.when (x.code == e.code && x.subject == e.subject && decide (e.election < h.2)) fun c =>
        ((c.endHold h.1).inc F.ALM_CANCELLED).modAlarm h.1 fun x => { x with pending := false, cancelled := true }
    | none => c

/-- The entry a received alarm merges into: the same code, subject, unit and CLEARED, logged within MERGE_MS. -/
def Chip.mergeInto (c : Chip) (e : AlarmEntry) : Option Nat :=
  (c.alm.log.find? fun x => x.2.key == e.key && decide (c.now < x.2.time + c.get F.ALM_CFG2_MERGE_MS * millisecond)).map Prod.fst

/-- Merges an alarm: the entry keeps the lower election key. Marks: DEDUCED, log 57. -/
def AlarmEntry.mergeWith (x e : AlarmEntry) : AlarmEntry :=
  let x := if e.election < x.election then { x with hops := e.hops, reporter := e.reporter } else x
  { x with merged := min (x.merged + 1) 65535 }

/-- ALARM_BARGE_RX (R445 to R447): the oldest alarm barge on its way to P8. A head-end logs it, or merges it without an
interrupt. -/
def Chip.alarmRx (c : Chip) : Chip :=
  match c.alm.rx with
  | [] => c
  | b :: rest =>
    let c := (c.modAlm fun a => { a with rx := rest }).inc F.ALM_RX
    let e := alarmOf b.payload c.now
    let c := c.cancelHolds e
    c.when c.headEnd fun c =>
      match c.mergeInto e with
      | some i => (c.inc F.ALM_MERGED).modAlarm i fun x => x.mergeWith e
      | none =>
        match c.alarmLog e with
        | (some _, c) => c.flag F.ALM_INT_STATUS_RECEIVED
        | (none, c) => c

def execAlarmBargeRx (s : State) : Host.Outcome State Fault Refusal :=
  s.onChip fun c => c.when c.running Chip.alarmRx

end Sys2Proof.Machine
end

