-- ==== Sys2Proof/Machine/KeyOps.lean ====
section
/-! DEFINITION. The operations on key slots that other families share (13 R399 to R407, R420, R427): derivation, commit,
clearing. -/

namespace Sys2Proof.Machine

/-- The ASCII bytes of a label (13 R399). -/
def asciiBytes (l : String) : List Byte := l.toList.map fun ch => BitVec.ofNat 8 ch.toNat

/-- The bytes of a 256-bit value, most significant first. -/
def keyBytes (k : Key256) : List Byte := beBytes 32 k.toNat

/-- The 256-bit value of 32 bytes, most significant first. -/
def keyOfBytes (l : List Byte) : Key256 := BitVec.ofNat 256 (beVal l)

/-- The counter-mode KDF (13 R399). -/
def kdf (k : Key256) (label : String) (context : List Byte) : Key256 :=
  Config.hmacSha256 k (beBytes 4 1 ++ asciiBytes label ++ [0#8] ++ context ++ beBytes 4 0x100)

/-- The key of a slot: the two shares together (13 R405). -/
def Slot.key (x : Slot) : Key256 := x.share ^^^ x.mask

/-- The slot at a number 0 to 31 (an absent number reads as empty). -/
def Key.slot (k : Key) (n : Nat) : Slot := k.slots.getD n Slot.empty

/-- Changes one slot. -/
def Chip.setSlot (c : Chip) (n : Nat) (x : Slot) : Chip := { c with key := { c.key with slots := c.key.slots.setIfInBounds n x } }

/-- Clears a slot (13 R405: zeroed). -/
def Chip.clearSlot (c : Chip) (n : Nat) : Chip := c.setSlot n Slot.empty

/-- First slot of a port's session pair (13 Table 13-3: pairs 4, 7, 10). -/
def sessionSlot (p : Port) : Nat := 8 + 6 * p.val
/-- The slot of a port's transmit epoch key with a key phase (pairs 5, 8, 11). -/
def txSlot (p : Port) (kph : Nat) : Nat := 10 + 6 * p.val + kph % 2
/-- The slot of a port's receive epoch key with a key phase (pairs 6, 9, 12). -/
def rxSlot (p : Port) (kph : Nat) : Nat := 12 + 6 * p.val + kph % 2

/-- Clears a port's session and epoch pairs with everything the link holds of them (13 R427, 03 R523). -/
def Chip.clearPortKeys (p : Port) (c : Chip) : Chip :=
  let c := c.each (List.range 6) fun k c => c.clearSlot (8 + 6 * p.val + k)
  let c := c.put (F.LNK_STATUS_ADMITTED p) 0
  let c := (c.put (F.LNK_EPOCH p) 0).put (F.LNK_KE_SPAN p) 0
  let c := (c.put (F.LNK_TXC p) 0).put (F.LNK_STATUS_TX_HOLD p) 0
  c.modLnk p fun l => { l with awaitsAdmission := false, partnerKe := none, oldRxKey := false, partnerEpoch := 0, epochAsked := false }

/-- An admission in progress ends with the link (13 R427); a back-off goes on. -/
def Chip.admissionEnds (p : Port) (c : Chip) : Chip :=
  if c.key.adm[p].phase = .backoff then c
  else
    let c := c.put (F.KEY_P_STATUS_ADMIT p) 0
    { c with key := { c.key with adm := upd c.key.adm p fun a => { a with phase := .idle, chosen := none } } }

/-- Starts the back-off of a port (13 R418): 1 s, doubling with each consecutive failure up to 64 s. -/
def Chip.startBackoff (p : Port) (c : Chip) : Chip :=
  let n := c.key.adm[p].fails
  let secs := 2 ^ min n 6
  let c := (c.put (F.KEY_P_STATUS_ADMIT p) 3).put (F.KEY_P_STATUS_BACKOFF p) secs
  { c with key := { c.key with adm := upd c.key.adm p fun a =>
    { a with phase := .backoff, chosen := none, fails := n + 1, until_ := c.now + secs * second } } }

/-- The active slot of a pair: a valid one. -/
def Chip.activeSlot (c : Chip) (pair : Nat) : Slot :=
  if (c.key.slot (2 * pair)).valid && (c.key.slot (2 * pair)).active then c.key.slot (2 * pair) else c.key.slot (2 * pair + 1)

/-- May an engine read a slot (13 R404)? Engines by their bit in ENGINES. -/
def Slot.opens (x : Slot) (engine : Nat) : Bool := x.valid && x.engines.testBit engine

/-- Does the store refuse an engine a slot that holds a key (13 R404)? -/
def Slot.refuses (x : Slot) (engine : Nat) : Bool := x.valid && !x.engines.testBit engine

/-- The key of a pair's active slot, for an engine that may read it (13 R404). -/
def Chip.pairKey (c : Chip) (engine pair : Nat) : Option Key256 :=
  let x := c.activeSlot pair
  if x.active && x.opens engine then some x.key else none

/-- Engines of Table 13-3 beside the links': the management cipher, the image loader and the Watermark engine. -/
def engineMgmt : Nat := 3
def engineImage : Nat := 4
def engineAttest : Nat := 5

/-- A refused request for a slot is counted (13 R404, 16 R494). -/
def Chip.countSlotRefused (engine : Nat) (x : Slot) (c : Chip) : Chip := c.when (x.refuses engine) fun c => c.keyCount 91

/-- The active session key of a port, if its link cipher may read it. -/
def Chip.session (c : Chip) (p : Port) : Option Key256 := c.pairKey p.val (sessionSlot p / 2)

/-- The partner's device serial from the last handshake. -/
def Chip.partnerSerial (c : Chip) (p : Port) : Nat := c.get (F.TRK_PARTNER_HI p) * 2 ^ 32 + c.get (F.TRK_PARTNER_LO p)

/-- Engine bit of a link's cipher in a slot's ENGINES (13 Table 13-3). -/
def linkEngine (p : Port) : Nat := 2 ^ p.val

/-- Derives one direction's epoch key and salt into a slot (13 Table 13-2, R420). -/
def Chip.deriveEpoch (c : Chip) (p : Port) (n : Nat) (sender receiver epoch : Nat) : Chip :=
  match c.session p with
  | none => c
  | some sk =>
    let ctx := beBytes 8 sender ++ beBytes 8 receiver ++ beBytes 3 epoch
    let k := kdf sk "CKH-EPOCH" ctx
    let salt := (kdf sk "CKH-SALT" ctx).extractLsb' 224 32
    let (m, c) := (((c.keyCount 88).keyCount 88).keyCount 89).drawMask
    (c.setSlot n { valid := true, active := true, engines := linkEngine p, origin := 2, bindMeas := false, version := epoch, share := k ^^^ m, mask := m, salt := salt })

/-- Barges wait, as under 03 R107, until a new admission (13 R415, R421). -/
def Chip.awaitAdmission (p : Port) (c : Chip) : Chip :=
  ((c.put (F.LNK_STATUS_TX_HOLD p) 1).flag (F.LNK_INT_STATUS_TX_HOLD p)).modLnk p fun l => { l with awaitsAdmission := true }

/-- The transmit key of an epoch (13 R420). -/
def Chip.deriveTx (c : Chip) (p : Port) (epoch : Nat) : Chip :=
  c.deriveEpoch p (txSlot p epoch) c.serial (c.partnerSerial p) epoch

/-- The receive key of an epoch (13 R420). -/
def Chip.deriveRx (c : Chip) (p : Port) (epoch : Nat) : Chip :=
  c.deriveEpoch p (rxSlot p epoch) (c.partnerSerial p) c.serial epoch

end Sys2Proof.Machine
end

