-- ==== Sys2Proof/Machine/LineCode.lean ====
section
/-! DEFINITION. The line code of a trunk lane (02 R30 to R35, R62, R76): the Reed–Solomon code RS(544,514), one codeword
through the transmit and the receive chain, PRBS13 and the test patterns. -/

namespace Sys2Proof

/-! The field GF(2^10) (02 R35), an element as a number below 1,024. PRESUMED (log 79): the spec names the code and not its
polynomials; they are those of IEEE 802.3, the field by x^10 + x^3 + 1 and the generator with the roots α^0 to α^29. -/

/-- Times α. -/
def gfX (a : Nat) : Nat := if a < 512 then 2 * a else (2 * a) ^^^ 0x409

def gfMul (a b : Nat) : Nat :=
  if a = 0 || b = 0 then 0 else (List.range 10).foldl (fun r i => gfX r ^^^ (if b.testBit (9 - i) then a else 0)) 0

def gfPow (a n : Nat) : Nat :=
  (List.range 10).foldl (fun r i => if n.testBit (9 - i) then gfMul (gfMul r r) a else gfMul r r) 1

/-- The inverse of an element other than 0. -/
def gfInv (a : Nat) : Nat := gfPow a 1022

def gfSum (l : List Nat) : Nat := l.foldl (· ^^^ ·) 0

/-- The coefficients of the generator below its leading 1, the highest first. -/
def rsGenerator : List Nat :=
  ((List.range 30).foldl (fun g j => List.zipWith (· ^^^ ·) (g ++ [0]) (0 :: g.map (gfMul (gfPow 2 j)))) [1]).tail

/-- The 30 parity symbols of a message, its first symbol the highest coefficient. -/
def rsParity (msg : List Nat) : List Nat :=
  let g := rsGenerator
  msg.foldl (fun r x =>
    let f := x ^^^ r.headD 0
    if f = 0 then r.tail ++ [0] else List.zipWith (· ^^^ ·) (r.tail ++ [0]) (g.map (gfMul f))) (List.replicate 30 0)

/-- The value of a polynomial given highest coefficient first. -/
def gfEvalHigh (l : List Nat) (x : Nat) : Nat := l.foldl (fun s a => gfMul s x ^^^ a) 0

/-- The value of a polynomial given lowest coefficient first. -/
def gfEval (l : List Nat) (x : Nat) : Nat := l.foldr (fun a s => gfMul s x ^^^ a) 0

/-- The syndromes of 544 received symbols. -/
def rsSyndromes (r : List Nat) : List Nat := (List.range 30).map fun j => gfEvalHigh r (gfPow 2 j)

/-- The sum of two polynomials, lowest coefficient first. -/
def polyAdd : List Nat → List Nat → List Nat
  | [], q => q
  | p, [] => p
  | x :: p, y :: q => (x ^^^ y) :: polyAdd p q

/-- The search for the error locator: its present value, the one before the last change of length, the length, the steps since
then and the discrepancy of that time, and the syndromes taken so far, newest first. -/
structure RsSearch where
  c : List Nat
  b : List Nat
  len : Nat
  m : Nat
  d : Nat
  seen : List Nat

/-- One syndrome of the Berlekamp–Massey search. -/
def RsSearch.step (t : RsSearch) (s : Nat) : RsSearch :=
  let seen := s :: t.seen
  let d := gfSum (List.zipWith gfMul t.c seen)
  if d = 0 then { t with m := t.m + 1, seen := seen }
  else
    let c := polyAdd t.c (List.replicate t.m 0 ++ t.b.map (gfMul (gfMul d (gfInv t.d))))
    if 2 * t.len ≤ t.seen.length then { c := c, b := t.c, len := t.seen.length + 1 - t.len, m := 1, d := d, seen := seen }
    else { t with c := c, m := t.m + 1, seen := seen }

/-- The error locator of some syndromes, lowest coefficient first, and the number of errors it stands for. -/
def rsLocator (s : List Nat) : List Nat × Nat :=
  let t := s.foldl RsSearch.step { c := [1], b := [1], len := 0, m := 1, d := 1, seen := [] }
  (t.c, t.len)

/-- The degrees among `n` ones from `deg` on at which a locator has a root, with the inverse `x` of the locator's element. -/
def rsRoots (loc : List Nat) : Nat → Nat → Nat → List (Nat × Nat)
  | 0, _, _ => []
  | n + 1, deg, x =>
    (if gfEval loc x = 0 then [(deg, x)] else []) ++ rsRoots loc n (deg + 1) (gfMul x (gfInv 2))

/-- The odd coefficients of a polynomial in the places of its derivative. -/
def polyDerive : List Nat → List Nat
  | _ :: x :: p => x :: 0 :: polyDerive p
  | _ => []

/-- The errors of a received word, by degree (Forney). -/
def rsErrors (s loc : List Nat) (roots : List (Nat × Nat)) : List (Nat × Nat) :=
  let omega := (List.range 30).map fun k => gfSum ((List.range (k + 1)).map fun i => gfMul (loc.getD i 0) (s.getD (k - i) 0))
  let der := polyDerive loc
  roots.map fun r => (r.1, gfMul (gfInv r.2) (gfMul (gfEval omega r.2) (gfInv (gfEval der r.2))))

/-- A word with some errors taken out, the first symbol of degree 543. -/
def rsCorrect (r : List Nat) (e : List (Nat × Nat)) : List Nat :=
  List.zipWith (fun x k => x ^^^ (match e.find? fun y => y.1 + k == 543 with | some y => y.2 | none => 0)) r (List.range 544)

/-- The decoder (02 R35): the 514 message symbols and how many symbols of the codeword were corrected, at most 15; none where
the codeword is uncorrectable. -/
def rsDecode (r : List Nat) : Option (List Nat × Nat) :=
  let s := rsSyndromes r
  if s.all (· == 0) then some (r.take 514, 0)
  else
    let (loc, n) := rsLocator s
    let roots := rsRoots loc 544 0 1
    let fixed := rsCorrect r (rsErrors s loc roots)
    if n ≤ 15 && roots.length == n && (rsSyndromes fixed).all (· == 0) then some (fixed.take 514, n) else none

/-! Bits, symbols and line levels. -/

/-- A number from its bits, the first the highest. -/
def natOfBits (l : List Bool) : Nat := l.foldl (fun a b => 2 * a + b.toNat) 0

/-- The `w` bits of a number, the highest first. -/
def bitsOfNat (w v : Nat) : List Bool := (List.range w).map fun i => v.testBit (w - 1 - i)

/-- `n` groups of `w` bits, each as a number. -/
def groupBits (w : Nat) : Nat → List Bool → List Nat
  | 0, _ => []
  | n + 1, l => natOfBits (l.take w) :: groupBits w n (l.drop w)

/-- A bit pair, first bit high, to its symbol index (02 Table 02-1), and back. -/
def grayOf (pair : Nat) : Nat := grayIndex (pair.testBit 1, pair.testBit 0)
def pairOf (index : Nat) : Nat := index ^^^ (index / 2)

/-- The 544 symbols of a codeword to the 2,720 symbol indices of the line (02 R31, R32): pairs in order, precoded from p_prev 0
where precoding is on. -/
def lineIndices (precoded : Bool) (cw : List Nat) : List Nat :=
  let g := (groupBits 2 2720 (cw.flatMap (bitsOfNat 10))).map grayOf
  if precoded then precode 0 g else g

/-- The 544 symbols of a codeword from the decided indices of the line. -/
def lineSymbols (precoded : Bool) (idx : List Nat) : List Nat :=
  groupBits 10 544 (((if precoded then unprecode 0 idx else idx).map pairOf).flatMap (bitsOfNat 2))

/-- The state of a scrambler after some bits on the line: the last 58 of them, the newest in front. -/
def scramblerAfter (st line : List Bool) : List Bool := (line.reverse ++ st).take 58

/-- Blocks through the scrambler (02 R30): their bits [255:0] scrambled, bit [256] as it is; the bits in order, and the state
after them. -/
def scrambleBlocks : List Bool → List Block → List Bool × List Bool
  | st, [] => ([], st)
  | st, b :: bs =>
    let line := scramble st (bitsOf b).tail
    let (rest, st') := scrambleBlocks (scramblerAfter st line) bs
    (b.getLsbD 256 :: line ++ rest, st')

/-- `n` blocks from the bits of a message, and the descrambler's state after them. -/
def descrambleBlocks : Nat → List Bool → List Bool → List Block × List Bool
  | 0, st, _ => ([], st)
  | n + 1, st, l =>
    let line := (l.drop 1).take 256
    let b : Block := BitVec.ofNat 257 (natOfBits (l.headD false :: descramble st line))
    let (rest, st') := descrambleBlocks n (scramblerAfter st line) (l.drop 257)
    (b :: rest, st')

/-- The transmit chain over the 20 blocks of a codeword (02 R30, R35): the symbol indices of the line, and the scrambler after. Of the ten
bits of an RS symbol the most significant is the first on the line. Marks: PRESUMED, log 79. -/
def encodeCodeword (st : List Bool) (precoded : Bool) (blocks : List Block) : List Nat × List Bool :=
  let (bits, st') := scrambleBlocks st blocks
  let msg := groupBits 10 514 bits
  (lineIndices precoded (msg ++ rsParity msg), st')

/-- The receive chain over one codeword (02 R30, R35): the 20 blocks and the number of corrected symbols, none where it is
uncorrectable; and the descrambler after it. -/
def decodeCodeword (st : List Bool) (precoded : Bool) (idx : List Nat) : Option (List Block × Nat) × List Bool :=
  let cw := lineSymbols precoded idx
  match rsDecode cw with
  | some (msg, n) =>
    let (blocks, st') := descrambleBlocks 20 st (msg.flatMap (bitsOfNat 10))
    (some (blocks, n), st')
  | none => (none, (descrambleBlocks 20 st ((cw.take 514).flatMap (bitsOfNat 10))).2)

/-! Pseudo-random patterns (02 R46, R62, R76). PRESUMED (log 73): the spec names PRBS7, PRBS13 and PRBS31 and not their
polynomials; they are 1 + x^6 + x^7, 1 + x + x^2 + x^12 + x^13 and 1 + x^28 + x^31. -/

/-- Patterns of TRK_TEST_CTL.PATTERN. -/
def patPrbs7 : Nat := 1
def patPrbs13 : Nat := 2
def patPrbs31 : Nat := 3
def patLin : Nat := 4
def patClk : Nat := 5

def prbsTaps (pat : Nat) : List Nat := if pat = patPrbs7 then [6, 7] else if pat = patPrbs13 then [1, 2, 12, 13] else [28, 31]

/-- The bit that follows some bits of a sequence, the newest in front. -/
def prbsBit (taps : List Nat) (past : List Bool) : Bool := taps.foldl (fun b t => b != past.getD (t - 1) false) false

/-- The next `n` symbol indices of a sequence of pairs (02 R31), from its bits so far, the newest in front. -/
def prbsIndices (taps : List Nat) : Nat → List Bool → List Nat
  | 0, _ => []
  | n + 1, past =>
    let a := prbsBit taps past
    let b := prbsBit taps (a :: past)
    grayIndex (a, b) :: prbsIndices taps n ((b :: a :: past).take 31)

/-- The line levels of the shift preamble (02 R62): 8,192 symbols of PRBS13 from the seed 0x1FFF. -/
def preambleLevels : List Int := (prbsIndices (prbsTaps patPrbs13) 8192 (List.replicate 13 true)).map lineLevel

/-- The symbol that follows the last ones of a test pattern, the newest in front (02 R76). -/
def patternNext (pat : Nat) (past : List Nat) : Nat :=
  let v := past.headD 0
  if pat = patClk then 3 - v
  else if pat = patLin then (if (past.take 16).all (· == v) then (v + 1) % 4 else v)
  else
    let bits := past.flatMap fun x => [(pairOf x).testBit 0, (pairOf x).testBit 1]
    (prbsIndices (prbsTaps pat) 1 bits).headD 0

/-- The next `n` symbols of a test pattern. -/
def patternRun (pat : Nat) : Nat → List Nat → List Nat
  | 0, _ => []
  | n + 1, past => patternNext pat past :: patternRun pat n ((patternNext pat past :: past).take 64)

/-- What stands before the first symbol of the generator: its first symbol is that of the pattern's start, −3 of LIN and CLK, and
of a pseudo-random sequence the one that follows all ones. -/
def patternSeed (pat : Nat) : List Nat := List.replicate 64 (if pat = patLin || pat = patClk then 3 else 2)

/-- Can some symbols, the newest in front, belong to a test pattern: CLK has two levels alone, and no 32 bits of a pseudo-random
sequence are all 0? -/
def mayBePattern (pat : Nat) (l : List Nat) : Bool :=
  if pat = patClk then l.all fun x => x == 0 || x == 3 else pat == patLin || (l.take 16).any (· != 0)

/-- Are some symbols, the newest in front, a run of a test pattern? The first 16 are taken as they are. -/
def isPattern (pat : Nat) : List Nat → Bool
  | [] => true
  | x :: past => (decide (past.length < 16) || x == patternNext pat past) && isPattern pat past

/-- The checker (02 R76): the last symbols, the newest in front, whether it has locked, and the errors counted. It locks on 64
symbols of a clean pattern and goes on from there by itself. -/
structure Checker where
  past : List Nat
  locked : Bool
  errors : Nat
  deriving DecidableEq, Repr

/-- One symbol at the checker. -/
def Checker.take (pat : Nat) (k : Checker) (x : Nat) : Checker :=
  if k.locked then
    let e := patternNext pat k.past
    { k with past := (e :: k.past).take 64, errors := if x = e then k.errors else min (k.errors + 1) 0x7FFF_FFFF }
  else
    let past := (x :: k.past).take 64
    { k with past := past, locked := past.length == 64 && mayBePattern pat past && isPattern pat past }

/-! The data blocks of a barge (03 R86). -/

/-- Two words in a data block: the even one in bits [255:128], the odd one in bits [127:0]. -/
def dataBlock (a b : DpWord) : Block := blockField 128 a ||| blockField 0 b

/-- The data blocks of a barge; with an odd number of words the last one is filled with a word of zero. -/
def dataBlocks : List DpWord → List Block
  | [] => []
  | [a] => [dataBlock a 0#128]
  | a :: b :: ws => dataBlock a b :: dataBlocks ws

/-- The words of a received barge: the data blocks' words, without the pad where its END block counts an odd number of them. -/
def wordsOfBlocks (words : Nat) (l : List Block) : List DpWord :=
  let ws := l.flatMap fun b => [b.extractLsb' 128 128, b.extractLsb' 0 128]
  if words % 2 = 1 && words + 1 = ws.length then ws.take words else ws

/-! The Towpath's line code (03 R108, R109). -/

/-- A bit as its two halves of 0.4 µs, a high level being true: a 1 rises at mid-bit and a 0 falls. -/
def manchester (bits : List Bool) : List Bool := bits.flatMap fun b => [!b, b]

/-- The bits of half-bit levels; none where a bit has no transition at its middle. -/
def unmanchester : List Bool → Option (List Bool)
  | [] => some []
  | [_] => none
  | a :: b :: l => if a = b then none else (unmanchester l).map fun bits => b :: bits

/-- A Towpath frame on the line: preamble, delimiter, header, payload and CRC. -/
def tpLine (hdr : Word) (payload : List Byte) : List Bool :=
  let crc := crc16 (bitsOf hdr ++ bitsOfBytes payload)
  manchester (bitsOfBytes [0xAA#8, 0xAA#8, 0xAA#8, 0xAA#8, 0xAB#8] ++ bitsOf hdr ++ bitsOfBytes payload ++ bitsOf crc)

end Sys2Proof
end

