-- ==== Sys2Proof/Machine/PcsOps.lean ====
section
/-! DEFINITION. The lanes of a trunk port and its PCS (02 R34 to R41, R66 to R71): lane and phase fields, the dealing of blocks to
lanes, codewords, fillers, and changes of the lanes at a port block. -/

namespace Sys2Proof.Machine

/-! Codes of TRK_LANE.STATE and TRK_STATUS.PHASE (02 TRK registers). -/

def laneOff : Nat := 0
def laneTraining : Nat := 1
def laneActive : Nat := 2
def laneQuiet : Nat := 3
def laneMoored : Nat := 4
def laneFailed : Nat := 5
def laneTest : Nat := 6
def laneState (p : Port) (l : LaneId) : Field := if l = 0 then F.TRK_LANE_A_STATE p else F.TRK_LANE_B_STATE p
def laneRxLock (p : Port) (l : LaneId) : Field := if l = 0 then F.TRK_LANE_A_RX_LOCK p else F.TRK_LANE_B_RX_LOCK p
def laneLos (p : Port) (l : LaneId) : Field := if l = 0 then F.TRK_LANE_A_LOS p else F.TRK_LANE_B_LOS p
def laneMargin (p : Port) (l : LaneId) : Field := if l = 0 then F.TRK_LANE_A_MARGIN p else F.TRK_LANE_B_MARGIN p
def laneMarginUp (p : Port) (l : LaneId) : Field := if l = 0 then F.TRK_LANE_A_MARGIN_UP p else F.TRK_LANE_B_MARGIN_UP p
def laneMarginDn (p : Port) (l : LaneId) : Field := if l = 0 then F.TRK_LANE_A_MARGIN_DN p else F.TRK_LANE_B_MARGIN_DN p

/-- The other lane of a port. -/
def otherLane (l : LaneId) : LaneId := if l = 0 then 1 else 0

/-- The lane that a lane bit names (R40). -/
def laneOfBit (n : Nat) : LaneId := if n = 0 then 0 else 1

/-- Is a lane held Off by its control bit? -/
def Chip.laneDisabled (c : Chip) (p : Port) (l : LaneId) : Bool :=
  if l = 0 then c.on (F.TRK_CTL_LANE_A_OFF p) else c.on (F.TRK_CTL_LANE_B_OFF p)

/-- Is a lane held Failed by start-up BIST (14 R436)? -/
def Chip.laneHeld (c : Chip) (p : Port) (l : LaneId) : Bool :=
  c.on F.REL_STATUS_BIST_DONE && !c.bit F.REL_BIST_STATUS_LANE_OK (2 * p.val + l.val)

/-- A lane that takes no part in bring-up. -/
def Chip.laneOut (c : Chip) (p : Port) (l : LaneId) : Bool := c.laneDisabled p l || c.laneHeld p l

/-- Does a lane carry the link (Active or Quiet) while the link is up? -/
def Chip.laneLive (c : Chip) (p : Port) (l : LaneId) : Bool :=
  c.on (F.TRK_STATUS_LINK_UP p) && (c.get (laneState p l) == laneActive || c.get (laneState p l) == laneQuiet)

/-- Is the port Moored (R72)? -/
def Chip.mooredPort (c : Chip) (p : Port) : Bool :=
  c.get (laneState p 0) == laneMoored || c.get (laneState p 1) == laneMoored

/-- TRK_STATUS.LANES of the marker's lane code. -/
def lanesShown (tx : Nat) : Nat := if tx = 0 then 3 else tx

/-- The lanes of a lane code: 0 both, 1 A alone, 2 B alone. -/
def lanesOf (tx : Nat) : List LaneId := if tx = 0 then [0, 1] else if tx = 2 then [1] else [0]

/-- Line rate of a step, kb/s per lane (02 Table 02-4). -/
def lineRate (step : Nat) : Nat :=
  match step with
  | 1 => 703_125 | 2 => 1_406_250 | 3 => 2_812_500 | 4 => 4_218_750 | 5 => 5_625_000 | _ => 703_125

/-- Blocks of one lane in a time in ns, rounded up (272 line bits a block: 5,440 per 20, 02 R35). -/
def Chip.blocksIn (c : Chip) (p : Port) (ns : Nat) : Nat :=
  (ns * lineRate (c.get (F.TRK_STATUS_STEP p)) + 271_999_999) / 272_000_000

/-- The partner of a trunk port answers again: it is lost no longer, nor is the head-end that it is (14 R444, R445). -/
def Chip.partnerBack (p : Port) (c : Chip) : Chip :=
  (c.clearAbout 0x15 fun e => e.unit == p.val).clearAbout 0x41 fun e => e.unit == p.val

/-- What a partner's LK_STATE says of a HOLD reported before: it ends with RUN (14 R441, R444). Marks: DEDUCED, log 57. -/
def Chip.partnerRuns (p : Port) (lk : Nat) (c : Chip) : Chip := c.when (lk == 0) fun c => c.clearAbout 0x16 fun e => e.unit == p.val

/-! Dealing and codewords (R30 to R32, R35, R36). -/

/-- The lane of a port block (R36): even numbers to lane A, odd ones to lane B, all to the one lane that is dealt to. -/
def dealLane (tx blk : Nat) : LaneId := if tx = 0 then (if blk % 2 = 0 then 0 else 1) else if tx = 2 then 1 else 0

/-- Blocks in a codeword group (R36). -/
def groupSize (tx : Nat) : Nat := if tx = 0 then 40 else 20

/-- Blocks of the codeword group in progress. -/
def Pcs.groupFill (x : Pcs) : Nat := x.lane[0].fill.length + x.lane[1].fill.length

def Chip.modLane (c : Chip) (p : Port) (l : LaneId) (f : PcsLane → PcsLane) : Chip :=
  c.modPcs p fun x => { x with lane := upd x.lane l f }

/-- A lane whose codeword is whole sends it through the transmit chain (R30). -/
def Chip.pcsCodeword (p : Port) (l : LaneId) (c : Chip) : Chip :=
  let x := c.pcs[p].lane[l]
  if x.fill.length < 20 then c
  else
    let (idx, st) := encodeCodeword x.scr (c.on (F.TRK_STATUS_PRECODE_ON p)) x.fill
    (c.emit (.codeword p l.val (idx.map lineLevel))).modLane p l fun y => { y with fill := [], scr := st }

/-- The target step of the switch that is due at the transmitter's current span (R57 step 5): of the own proposal, or of the
partner's. -/
def Chip.switchDue (c : Chip) (p : Port) : Option Nat :=
  let span := c.get (F.TRK_SPAN p)
  match c.trk[p].own.filter (fun o => o.phase == .committed && !o.txDone && o.spanN == span),
      c.trk[p].resp.filter (fun a => a.committed && !a.txDone && a.spanM == span) with
  | some o, _ => some o.target
  | none, some a => some a.target
  | none, none => none

/-- Does the next block wait: for the next span's markers (R37), or for the preamble of a switch whose codeword group has ended
(R62)? -/
def Chip.blocksWait (c : Chip) (p : Port) : Bool :=
  decide (4096 ≤ c.pcs[p].blk) || ((c.switchDue p).isSome && c.pcs[p].groupFill == 0)

/-- A failed lane has rejoined (R69). -/
def Chip.laneJoined (p : Port) (lane : LaneId) (c : Chip) : Chip :=
  let c := (c.put (laneState p lane) laneActive).flag (F.TRK_INT_STATUS_LANE_JOIN p)
  let c := (c.put (laneRxLock p lane) 1).put (laneLos p lane) 0
  let c := c.modTrk p fun t => { t with joinTries := upd t.joinTries lane fun _ => 0 }
  c.when (c.alarmStands 0x11 p.val) fun c => c.raiseLink p 0x11 lane.val true

/-- A change of the lanes whose block has come takes effect (R40, R68 to R71). -/
def Chip.laneChangeDue (p : Port) (c : Chip) : Chip :=
  match c.pcs[p].change with
  | none => c
  | some x =>
    if x.span = c.get (F.TRK_SPAN p) ∧ x.blk = c.pcs[p].blk then
      let c := (c.modPcs p fun y => { y with change := none }).modTrk p fun t => { t with txLanes := x.lanes, txQuiet := x.quiet }
      let c := c.put (F.TRK_STATUS_LANES p) (lanesShown x.lanes)
      let c := c.when x.quiet fun c => c.put (laneState p 1) laneQuiet
      match x.joins with
      | some l => c.laneJoined p l
      | none => c
    else c

def isFiller (b : Block) : Bool := b.getLsbD 256 && btypeOf b == 0x00

/-- A block goes out as the next port block, on the lane of its number (R36, R37). -/
def Chip.blockOut (p : Port) (b : Block) (c : Chip) : Chip :=
  let l := dealLane c.trk[p].txLanes c.pcs[p].blk
  let c := (c.emit (.block p l.val b)).modLane p l fun y => { y with fill := y.fill ++ [b] }
  let c := c.modPcs p fun x => { x with blk := x.blk + 1, sinceFiller := if isFiller b then 0 else x.sinceFiller + 1 }
  (c.pcsCodeword p l).laneChangeDue p

/-- Hands a block to the PCS: it goes out next, or waits; a Moored port sends nothing (R72). -/
def Chip.pcsSend (p : Port) (b : Block) (c : Chip) : Chip :=
  if c.mooredPort p then c
  else if c.blocksWait p then c.modPcs p fun x => { x with waiting := x.waiting ++ [b] }
  else c.blockOut p b

/-- Hands over a block that goes before those that wait, as a TICK does (03 R102). -/
def Chip.pcsSendFirst (p : Port) (b : Block) (c : Chip) : Chip :=
  if c.mooredPort p then c
  else if c.blocksWait p then c.modPcs p fun x => { x with waiting := b :: x.waiting }
  else c.blockOut p b

/-- A codeword that carries one control block twenty times on a lane that is not being dealt to (R68): none of them is a port block. -/
def Chip.sideCodeword (p : Port) (l : LaneId) (b : Block) (c : Chip) : Chip :=
  let l20 := List.replicate 20 b
  ((c.each l20 fun b c => c.emit (.block p l.val b)).modLane p l fun y => { y with fill := l20 }).pcsCodeword p l

/-- With no block ready a filler goes out (R41); while a lane change is announced its control block, which is repeated until the
named block (R40). Marks: DESIGN CHOICE, log 75. -/
def Chip.pcsFiller (p : Port) (c : Chip) : Chip :=
  if c.mooredPort p || c.blocksWait p then c
  else c.blockOut p (((c.pcs[p].change.bind fun x => x.ctl)).getD fillerBlock)

/-- `n` blocks with nothing else ready. -/
def Chip.pcsFill (p : Port) : Nat → Chip → Chip
  | 0, c => c
  | n + 1, c => Chip.pcsFill p n (c.pcsFiller p)

/-- Fillers until the codeword group in progress ends. -/
def Chip.fillGroup (p : Port) (c : Chip) : Chip :=
  let grp := groupSize c.trk[p].txLanes
  c.pcsFill p ((grp - c.pcs[p].groupFill % grp) % grp)

/-- The blocks that waited go out, as far as they may. -/
def Chip.pcsFlush (p : Port) (c : Chip) : Chip :=
  (c.modPcs p fun x => { x with waiting := [] }).each c.pcs[p].waiting (Chip.pcsSend p)

/-! Changes of the lanes (R40, R68 to R71). -/

/-- The first codeword-group boundary after the blocks that wait, `copies` blocks more and a distance in port blocks, as span and
block (R36, R37, R40). Marks: DEDUCED, log 75. -/
def Chip.boundaryAfter (c : Chip) (p : Port) (copies ahead : Nat) : Nat × Nat :=
  let x := c.pcs[p]
  let grp := groupSize c.trk[p].txLanes
  let held := if c.blocksWait p then x.waiting.length + (if 4096 ≤ x.blk then 2 else 0) else 0
  let d := held + copies + ahead
  let d := if x.blk < 4096 && 4096 < x.blk + d then d + 2 else d
  let n := x.blk + d + (grp - (x.groupFill + d) % grp) % grp
  ((c.get (F.TRK_SPAN p) + n / 4096) % 2 ^ 32, n % 4096)

/-- Announces a change of the lanes by a lane control block, one copy on each lane being dealt to; further copies go in place of
fillers until the named block (R40). -/
def Chip.announceChange (p : Port) (op : Nat) (lane : LaneId) (ahead : Nat) (x : LaneChange) (c : Chip) : Chip :=
  let copies := (lanesOf c.trk[p].txLanes).length
  let (sp, bl) := c.boundaryAfter p copies ahead
  let b := laneCtl op lane.val sp bl
  (c.modPcs p fun y => { y with change := some { x with ctl := some b, span := sp, blk := bl } }).each
    (List.replicate copies b) (Chip.pcsSend p)

/-- Changes the lanes at the first codeword-group boundary from here, `ahead` blocks on, with no block of its own. -/
def Chip.changeAtBoundary (p : Port) (ahead : Nat) (x : LaneChange) (c : Chip) : Chip :=
  let (sp, bl) := c.boundaryAfter p 0 ahead
  (c.modPcs p fun y => { y with change := some { x with span := sp, blk := bl } }).laneChangeDue p

/-- A change to some lanes, to be completed with its span and block. -/
def laneChangeTo (lanes : Nat) : LaneChange := { ctl := none, span := 0, blk := 0, lanes := lanes, joins := none, quiet := false }

/-- Port blocks in a time in ns, as the direction is dealt now. -/
def Chip.portBlocksIn (c : Chip) (p : Port) (ns : Nat) : Nat := c.blocksIn p ns * (lanesOf c.trk[p].txLanes).length

/-! Receiving (R35, R36, R41). -/

/-- A received block leaves the queue as its command takes it. -/
def Chip.takeBlock (p : Port) (b : Block) (c : Chip) : Chip := c.modPcs p fun x => { x with rxq := x.rxq.erase b }

/-- Is span `a` at or before span `b`, in the wrapping order of span numbers? -/
def spanLe (a b : Nat) : Bool := decide ((b + 2 ^ 32 - a % 2 ^ 32) % 2 ^ 32 < 2 ^ 31)

/-- Span arithmetic wraps (R37). -/
def spanAdd (a b : Nat) : Nat := (a + b) % 2 ^ 32
def spanSub (a b : Nat) : Nat := (a + 2 ^ 32 - b) % 2 ^ 32

/-- The receive direction's lanes change at a port block of the partner (R40, R68, R69, R71). -/
def Chip.rxChangeAt (p : Port) (sp bl lanes : Nat) (c : Chip) : Chip :=
  c.modPcs p fun x => { x with rxChange := some (sp, bl, lanes) }

/-- The change that the partner has named takes effect once its block is the next (R40). -/
def Chip.rxChangeDue (p : Port) (c : Chip) : Chip :=
  let x := c.pcs[p]
  match x.rxChange with
  | some (sp, bl, lanes) =>
    if spanLe sp x.rxSpan && (sp != x.rxSpan || decide (bl ≤ x.rxBlk)) then
      (c.modPcs p fun x => { x with rxChange := none }).modTrk p fun t => { t with rxLanes := lanes }
    else c
  | none => c

/-- The place of the port block after this one (R37). -/
def Chip.rxAdvance (p : Port) (c : Chip) : Chip :=
  c.modPcs p fun x => if x.rxBlk + 1 < 4096 then { x with rxBlk := x.rxBlk + 1 } else { x with rxBlk := 0, rxSpan := spanAdd x.rxSpan 1 }

/-- A lock marker says which port block it is, and which lanes the partner deals to (R37, R39). -/
def Chip.rxMarker (p : Port) (b : Block) (c : Chip) : Chip :=
  match Marker.decode b with
  | some m =>
    let second := m.copy.toNat == 2 || (m.copy.toNat == 1 && m.lanes.toNat == 0)
    let c := c.modPcs p fun x => { x with rxSpan := m.span.toNat, rxBlk := second.toNat }
    c.when (m.lanes.toNat != 3) fun c => c.modTrk p fun t => { t with rxLanes := m.lanes.toNat }
  | none => c

/-- What becomes of a received block: fillers and training blocks are deleted, the others go on or have a reserved BTYPE (R34, R41,
03 R100). -/
inductive RxBlock where
  | on | deleted | reservedPcs | reservedLink
  deriving DecidableEq, Repr

def rxBlock (b : Block) : RxBlock :=
  let t := btypeOf b
  if !b.getLsbD 256 then .on
  else if t = 0x00 || t = 0x03 then .deleted
  else if t = 0x01 || t = 0x02 || (0x10 ≤ t && t ≤ 0x16) then .on
  else if 0x17 ≤ t && t ≤ 0x3F then .reservedLink
  else .reservedPcs

end Sys2Proof.Machine
end

