-- ==== Sys2Proof/Machine/LinkOps.lean ====
section
/-! DEFINITION. The operations that the trunk lanes, the shift engine and the link layer share (02, 03): lane and phase
fields, bring-up, link loss, lane failure, proposals of a shift, markers and NAKs. -/

namespace Sys2Proof.Machine

/-! Caps, margins and proposals (R45, R51 to R54). -/

/-- The highest step the port may run at (R45). -/
def Chip.stepCap (c : Chip) (p : Port) : Nat :=
  min (min (c.get (F.TRK_CTL_STEP_MAX p)) (c.get (F.TRK_STATUS_CAP_BUDGET p))) (c.get (F.TRK_STATUS_PARTNER_CAP p))

/-- The requirement of a step in TRK_SNR_REQ, in 0.125 dB (R51): 10.0 dB and 0.25 dB a unit. -/
def Chip.snrReq (c : Chip) (p : Port) (step : Nat) : Int := 80 + 2 * (wordField (c.regs.word (F.TRK_SNR_REQ p).off) (6 * (step - 1)) 6 : Int)

/-- The predicted margin of a lane at a step 1 to 5 (R50, R51). -/
def Chip.predictedMargin (c : Chip) (p : Port) (l : LaneId) (step : Nat) : Option Int :=
  if 1 ≤ step && step ≤ 5 then ((c.trk[p].snrs.getD l.val [])[step - 1]?).map fun x => x - c.snrReq p step else none

/-- A margin as TRK_LANE and the lock marker show it: signed, 0.125 dB, saturating; 0x80 when none. Marks: DEDUCED, log 76. -/
def marginCode (m : Option Int) : Nat := match m with
  | some x => unsigned 8 (max (-127) (min 127 x))
  | none => 0x80

/-- Shows a lane's margins (R51, TRK_LANE). -/
def Chip.showMargins (p : Port) (l : LaneId) (c : Chip) : Chip :=
  let step := c.get (F.TRK_STATUS_STEP p)
  let c := c.put (laneMargin p l) (marginCode (if step = 0 then none else c.trk[p].snrNow[l].map fun x => x - c.snrReq p step))
  let c := c.put (laneMarginUp p l) (marginCode (if step = 0 then none else c.predictedMargin p l (step + 1)))
  c.put (laneMarginDn p l) (marginCode (c.predictedMargin p l (step - 1)))

/-- Shows the margins of both lanes. -/
def Chip.showPort (p : Port) (c : Chip) : Chip := (c.showMargins p 0).showMargins p 1

/-- The predicted margin of a step, on the worse of the port's live lanes (R51); −128 when there is none. -/
def Chip.portPredicted (c : Chip) (p : Port) (step : Nat) : Int :=
  let of := fun (l : LaneId) => (c.predictedMargin p l step).getD (-128)
  match c.laneLive p 0, c.laneLive p 1 with
  | true, true => min (of 0) (of 1)
  | true, false => of 0
  | false, true => of 1
  | false, false => -128

/-- No shift of either end is under way (R57 step 6). -/
def Chip.shiftIdle (c : Chip) (p : Port) : Bool := c.trk[p].own.isNone && c.trk[p].resp.isNone

/-- Decides to propose a shift; the REQ goes in the next marker (R57 step 1). With a shift under way, the link down or the target
the step already run at, nothing is proposed and nothing is recorded. Marks: DESIGN CHOICE, log 77. -/
def Chip.propose (c : Chip) (p : Port) (target cause : Nat) : Chip :=
  let start := c.get (F.TRK_STATUS_STEP p)
  if c.shiftIdle p && c.on (F.TRK_STATUS_LINK_UP p) && target != start && 1 ≤ target && target ≤ 5 then
    c.modTrk p fun t => { t with
      own := some { phase := .decided, target := target, start := start, cause := cause, spanN := 0, spanM := 0, txDone := false, rxDone := false, failed := false }
      lastBudgetShift := if cause = 6 then some c.now else t.lastBudgetShift }
  else c

/-- May a budget-caused shift be proposed now: 500 ms after the last (R54)? -/
def Chip.budgetDue (c : Chip) (p : Port) : Bool :=
  match c.trk[p].lastBudgetShift with
  | some t => decide (t + 500 * millisecond ≤ c.now)
  | none => true

/-- Has the hub accepted an up shift within the last 2 s (R58 RATE)? -/
def Chip.upRecent (c : Chip) (p : Port) : Bool := match c.trk[p].lastUpAccept with
  | some t => decide (c.now < t + 2 * second)
  | none => false

/-- Does the port climb after bring-up (R46 events 9 and 10)? -/
def Chip.climbing (c : Chip) (p : Port) : Bool :=
  c.get (F.TRK_STATUS_PHASE p) == phaseProbe || c.get (F.TRK_STATUS_PHASE p) == phaseClimb

/-- Does R58 keep the hub from an up shift to a step: 2 MARGIN, or 3 RATE? MARGIN goes before RATE, and RATE does not stop the climb of
bring-up. Marks: DEDUCED, log 31. -/
def Chip.upRefused (c : Chip) (p : Port) (target : Nat) : Option Nat :=
  if c.portPredicted p target < (c.get (F.TRK_GOV_CFG_ACCEPT_MARGIN p) : Int) then some 2
  else if c.upRecent p && !c.climbing p then some 3
  else none

/-- A command shift completes at once with REFUSED_LOCAL (R65). -/
def Chip.refusedLocal (p : Port) (target : Nat) (c : Chip) : Chip :=
  let step := c.get (F.TRK_STATUS_STEP p)
  let c := ((c.put (F.TRK_SHIFT_STATUS_LAST_FROM p) step).put (F.TRK_SHIFT_STATUS_LAST_TO p) target).put (F.TRK_SHIFT_STATUS_LAST_CAUSE p) 1
  (c.put (F.TRK_SHIFT_STATUS_LAST_RESULT p) 4).flag (F.TRK_INT_STATUS_SHIFT_FAIL p)

/-- The governor holds the port to its caps and, after a write that excludes the step, to STEP_MIN (R45, R54, R65, R78). The cap wins
over STEP_MIN. A shift that the budget cap alone requires waits for the 500 ms of R54; the others are command shifts, also one that the
partner's STEP_CAP alone requires. Marks: DESIGN CHOICE, log 77. -/
def Chip.enforceLimits (p : Port) (c : Chip) : Chip :=
  let step := c.get (F.TRK_STATUS_STEP p)
  let cap := c.stepCap p
  let low := c.get (F.TRK_CTL_STEP_MIN p)
  if step = 0 || !c.on (F.TRK_STATUS_LINK_UP p) || !c.shiftIdle p then c
  else if cap < step then
    let budgetAlone := decide (step ≤ min (c.get (F.TRK_CTL_STEP_MAX p)) (c.get (F.TRK_STATUS_PARTNER_CAP p)))
    if budgetAlone then (if c.budgetDue p then c.propose p cap 6 else c) else c.propose p cap 1
  else if c.trk[p].limitDue then
    let c := c.modTrk p fun t => { t with limitDue := false }
    if step < low && low ≤ cap then (if (c.upRefused p low).isSome then c.refusedLocal p low else c.propose p low 1) else c
  else c

/-! Bring-up and loss (R46 to R49, R67; 03 R98; 13 R427). -/

/-- The lanes of a port that trains (Table 02-9): Training, but for those held Off or Failed. -/
def Chip.lanesTrain (p : Port) (c : Chip) : Chip :=
  c.each lanes fun l c => c.put (laneState p l) (if c.laneDisabled p l then laneOff else if c.laneHeld p l then laneFailed else laneTraining)

/-- The port starts transmitting PRBS13 at S1 and begins echo training (R46 event 5). -/
def Chip.startBringup (p : Port) (c : Chip) : Chip :=
  let c := (c.put (F.TRK_STATUS_PHASE p) phaseEcho).modTrk p fun t => { t with training := true, wait := .none }
  ((c.modPcs p fun _ => Pcs.reset).lanesTrain p).emit (.prbs p false)

/-- A bring-up attempt has failed, or its link was lost within 60 s: after three the port waits 60 s and listens (R49),
before that it restarts after 1 s (`delay`) or at once. Marks: DEDUCED, log 30; DEDUCED, log 31. -/
def Chip.bringupFailed (p : Port) (delay : Bool) (c : Chip) : Chip :=
  let n := c.trk[p].fails + 1
  let c := (c.modTrk p fun t => { t with fails := n }).lanesTrain p
  if 3 ≤ n then
    (c.put (F.TRK_STATUS_PHASE p) phaseListen).modTrk p fun t => { t with wait := .sixtySeconds, training := false }
  else if delay then
    (c.put (F.TRK_STATUS_PHASE p) phaseOff).modTrk p fun t => { t with wait := .oneSecond, training := false }
  else c.startBringup p

/-- The link layer's sequence spaces at link up (03 Per-hop replay). -/
def Chip.linkReset (p : Port) (c : Chip) : Chip :=
  let c := c.put (F.LNK_STATUS_TX_NEXT p) 0
  let c := c.put (F.LNK_STATUS_TX_ACKED p) 0xFFF
  let c := (c.put (F.LNK_RX_EXPECT p) 0).put (F.LNK_RX_BUF_WORDS p) 0
  c.modLnk p fun l => { l with
    replay := [], resend := [], nakAt := none, naked := none, expiries := 0, unacked := 0, hbCount := 0, delayReq := none }

/-- The link ends: the engines of lanes, shift and link layer stop, the replay buffer and the barges taken but not begun
are discarded and counted (03 R98), and the port's session and epoch keys are cleared (13 R427). -/
def Chip.linkGone (p : Port) (c : Chip) : Chip :=
  let lost := c.lnk[p].replay.length + c.lnk[p].txq.length
  let c := c.add (F.LNK_LOST_UNACKED p) lost
  let c := c.modLnk p fun l => { l with
    replay := [], resend := [], txq := [], nakAt := none, naked := none, expiries := 0, unacked := 0, delayReq := none, tagFails := [] }
  let c := c.put (F.LNK_RX_BUF_WORDS p) 0
  let c := (c.put (F.LNK_STATUS_HB_OK p) 0).put (F.LNK_STATUS_PARTNER_LK p) 0
  let c := c.flag (F.TRK_INT_STATUS_LINK_DOWN p)
  let c := (c.put (F.TRK_STATUS_LINK_UP p) 0).put (F.TRK_STATUS_STEP p) 0
  let c := (c.put (F.TRK_STATUS_LANES p) 0).put (F.TRK_STATUS_SHIFT_PENDING p) 0
  let c := c.put (F.TRK_STATUS_PRECODE_ON p) 0
  let c := c.each lanes fun l c =>
    ((c.put (laneMargin p l) 0x80).put (laneMarginUp p l) 0x80).put (laneMarginDn p l) 0x80
  let c := c.modTrk p fun t => { t with
    own := none, resp := none, refuse := none, answered := none, lastMarker := none, rxSeen := false, downFails := 0, cmdTarget := none
    limitDue := false, snrNow := #v[none, none], txLanes := 0, rxLanes := 0, qnext := false, qsent := false, txQuiet := false
    moorSent := false, moorSeen := false, joinTries := #v[0, 0], rxStep := 0 }
  let c := c.modPcs p fun x => { x with waiting := [], change := none, rxq := [], rxChange := none }
  ((c.clearPortKeys p).admissionEnds p).portUnrouted p

/-- The link ends and the lanes retrain from S1: TRK_CTL.RETRAIN (R78), and a reset of the datapath domain (Table 01-5). -/
def Chip.retrain (p : Port) (c : Chip) : Chip :=
  c.when (c.on (F.TRK_CTL_EN p) && !c.on (F.TRK_CTL_TEST_MODE p)) fun c =>
    (c.when (c.on (F.TRK_STATUS_LINK_UP p)) fun c => c.linkGone p).startBringup p

/-- The link is lost (R59, R64, R67, R74; 03 R97, R101; 13 R422): the alarm LINK_DOWN, and blind bring-up, held off after
three losses within 60 s of coming up (R49). -/
def Chip.linkLost (p : Port) (c : Chip) : Chip :=
  let early := decide (c.now < c.trk[p].upAt + 60 * second)
  let c := c.raiseLink p 0x10 0
  let c := c.linkGone p
  if early then c.bringupFailed p false
  else (c.modTrk p fun t => { t with fails := 0 }).startBringup p

/-- Protocol violations of the last second (R74). -/
def Chip.recentViolations (c : Chip) (p : Port) : List Nat := c.trk[p].violations.filter fun t => decide (c.now < t + second)

/-- Counts a protocol violation (Table 02-10). -/
def Chip.protoError (p : Port) (c : Chip) : Chip :=
  let l := c.recentViolations p
  ((c.inc (F.TRK_PROTO_ERR p)).flag (F.TRK_INT_STATUS_PROTOCOL p)).modTrk p fun t => { t with violations := l ++ [c.now] }

/-- Is single-lane degrade permitted at both ends (R68)? -/
def Chip.singlePermitted (c : Chip) (p : Port) : Bool := c.on (F.TRK_CTL_SINGLE_LANE_EN p) && c.on (F.TRK_PARTNER_CAP_SINGLE_LANE_EN p)

/-- A lane fails (R68, Table 02-9): LANE_DOWN on the other lane when that lane is good and both ends permit single-lane
degrade, and the blocks go to that lane from the named block on; otherwise the link is lost. A quiet lane B is woken by a codeword of
LANE_DOWN. Marks: DESIGN CHOICE, log 75. -/
def Chip.laneFail (p : Port) (lane : LaneId) (c : Chip) : Chip :=
  let other := otherLane lane
  let c := (c.put (laneState p lane) laneFailed).flag (F.TRK_INT_STATUS_LANE_FAIL p)
  if c.laneLive p other && c.singlePermitted p then
    let (sp, bl) := c.boundaryAfter p (lanesOf c.trk[p].txLanes).length 0
    let c := (c.put (laneState p other) laneActive).when (c.trk[p].txQuiet && lane == 0) (Chip.sideCodeword p 1 (laneCtl 0x01 lane.val sp bl))
    let c := c.modTrk p fun t => { t with qnext := false, qsent := false, txQuiet := false, joinTries := upd t.joinTries lane fun _ => 0 }
    (c.announceChange p 0x01 lane 0 (laneChangeTo (other.val + 1))).raiseLink p 0x11 lane.val
  else c.linkLost p

/-! Markers (R37, R39, R57, R72; 03 R104, R105). -/

/-- SH_OP, SH_STEP, SH_REASON, SH_SPAN and SH_PEER of the marker of the current span, and the engine after it (R39, R57): the REQ
is repeated in span k + 1 whatever has come meanwhile, and a CANCEL goes before an answer. -/
def markerShift (t : Trk) (span : Nat) : (Nat × Nat × Nat × Nat × Nat) × Trk :=
  let answer : (Nat × Nat × Nat × Nat × Nat) × Trk :=
    match t.refuse with
    | some (reason, n, target) => ((3, target, reason, 0, n), { t with refuse := none })
    | none =>
      match t.resp with
      | some a =>
        if !a.txDone && spanLe (spanSub a.spanM 4) span && spanLe span (spanSub a.spanM 1) then ((2, a.target, 0, a.spanM, a.peerN), t)
        else ((0, 0, 0, 0, 0), t)
      | none => ((0, 0, 0, 0, 0), t)
  match t.own with
  | some o =>
    match o.phase with
    | .decided => ((1, o.target, 0, spanAdd span 4, 0), { t with own := some { o with phase := .requested, spanN := spanAdd span 4 } })
    | .requested => if span = spanSub o.spanN 3 then ((1, o.target, 0, o.spanN, 0), t) else answer
    | .cancelling =>
      if span = spanSub o.spanN 2 then ((4, o.target, 0, 0, o.spanN), t)
      else ((4, o.target, 0, 0, o.spanN), { t with own := none })
    | .committed => if span = spanSub o.spanN 3 then ((1, o.target, 0, o.spanN, 0), t) else answer
  | none => answer

/-- PRED_UP: the predicted margin one step up, worse live lane; 0x80 when none. -/
def Chip.predUp (c : Chip) (p : Port) : Nat :=
  let a := c.getS (laneMarginUp p 0)
  let b := c.getS (laneMarginUp p 1)
  match c.laneLive p 0, c.laneLive p 1 with
  | true, true => unsigned 8 (min a b)
  | true, false => unsigned 8 a
  | false, true => unsigned 8 b
  | false, false => 0x80

/-- A key epoch change scheduled for a span at which the transmitter switches its rate moves one span on (R61). -/
def Chip.moveKeSpan (p : Port) (t : Trk) (c : Chip) : Chip :=
  let ke := c.get (F.LNK_KE_SPAN p)
  let clash := (match t.own with | some o => o.phase != .decided && o.phase != .cancelling && o.spanN == ke && !o.txDone | none => false)
    || (match t.resp with | some a => a.spanM == ke && !a.txDone | none => false)
  c.when (c.on (F.LNK_EPOCH_KE_PEND p) && clash) fun c => c.put (F.LNK_KE_SPAN p) (spanAdd ke 1)

/-- Does the power-state logic vote to moor the port (R72, 15 R457): its PHY domain has no software vote, and nothing but
the partner's MOOR_RDY holds it? -/
def Chip.moorVote (c : Chip) (p : Port) : Bool := !c.bit F.PWR_VOTE_SW_VOTE (2 + p.val) && !c.phyBusy p

/-- The lock marker of the current span (R37, R39). -/
def Chip.marker (c : Chip) (p : Port) (op step reason shSpan peer : Nat) : Marker :=
  let t := c.trk[p]
  { span := BitVec.ofNat 32 (c.get (F.TRK_SPAN p)), copy := 0
    step := BitVec.ofNat 3 (if c.on (F.TRK_STATUS_LINK_UP p) then c.get (F.TRK_STATUS_STEP p) else t.phyStep)
    lanes := BitVec.ofNat 2 t.txLanes, qnext := t.qnext, shOp := BitVec.ofNat 3 op, shStep := BitVec.ofNat 3 step
    shReason := BitVec.ofNat 4 reason, shSpan := BitVec.ofNat 32 shSpan, shPeer := BitVec.ofNat 32 peer
    stepCap := BitVec.ofNat 4 (min (c.get (F.TRK_CTL_STEP_MAX p)) (c.get (F.TRK_STATUS_CAP_BUDGET p)))
    moorRdy := c.moorVote p, epoch := BitVec.ofNat 24 (c.get (F.LNK_EPOCH_EPOCH p)), kePend := c.on (F.LNK_EPOCH_KE_PEND p)
    keSpan := BitVec.ofNat 32 (if c.on (F.LNK_EPOCH_KE_PEND p) then c.get (F.LNK_KE_SPAN p) else 0)
    marginA := BitVec.ofNat 8 (c.get (laneMargin p 0)), marginB := BitVec.ofNat 8 (c.get (laneMargin p 1))
    predUp := BitVec.ofNat 8 (c.predUp p) }

/-- The two copies of a marker, in the order of their port blocks: one for each lane, or two on the only lane dealt to. -/
def markerCopies (tx : Nat) (m : Marker) : List Block :=
  let first : BitVec 2 := if tx = 2 then 1 else 0
  [({ m with copy := first }).encode, ({ m with copy := if tx = 0 then 1 else 2 }).encode]

/-- Sends the two lock markers of the current span (R37, R39). -/
def Chip.sendMarkers (p : Port) (c : Chip) : Chip :=
  let ((op, step, reason, shSpan, peer), t') := markerShift c.trk[p] (c.get (F.TRK_SPAN p))
  let c := c.moveKeSpan p t'
  let m := c.marker p op step reason shSpan peer
  (c.modTrk p fun _ => { t' with moorSent := m.moorRdy, qsent := t'.qnext }).each (markerCopies c.trk[p].txLanes m) (Chip.pcsSend p)

/-- What a marker says of the partner's key epochs (03 R106, 13 R420): a first KE_PEND derives the next receive key, and
the first marker after the partner's KE_SPAN retires the old one. -/
def Chip.markerEpoch (p : Port) (m : Marker) (c : Chip) : Chip :=
  let e := m.epoch.toNat
  let c := match c.lnk[p].partnerKe with
    | some (ks, olde) =>
      if spanLe ks m.span.toNat && m.span.toNat != ks then
        (c.clearSlot (rxSlot p olde)).modLnk p fun l => { l with partnerKe := none, oldRxKey := false }
      else c
    | none => c
  let c := c.modLnk p fun l => { l with partnerEpoch := e }
  if m.kePend then
    let fresh := c.lnk[p].partnerKe.isNone
    let c := c.when fresh fun c => c.deriveRx p ((e + 1) % 2 ^ 24)
    c.modLnk p fun l => { l with partnerKe := some (m.keSpan.toNat, e), oldRxKey := true }
  else c

/-- Is nak_out set (03 R93): a NAK was sent and EXPECT has not advanced? LINK_NAK_OUT_EXPIRY clears it after
REPLAY_TIMEOUT. -/
def Chip.nakOut (c : Chip) (p : Port) : Bool := c.lnk[p].nakAt.isSome

/-- What is kept of a NAK for R97: for the same barge nothing takes the place of a CRC or AUTH, and a GAP or KEY_PHASE not that of an
UNCORR. -/
def keepNaked (old : Option (Nat × Nat)) (e cause : Nat) : Option (Nat × Nat) :=
  match old with
  | some (q, was) => if q = e ∧ (was = 1 ∨ was = 2 ∨ was = 3 ∧ 4 ≤ cause) then old else some (e, cause)
  | none => some (e, cause)

/-- Sends a LNAK for EXPECT, unless one is outstanding for it (03 R93); with LNK_CTL.EN clear the link layer sends nothing (R523). -/
def Chip.sendNak (p : Port) (cause : Nat) (c : Chip) : Chip :=
  if c.nakOut p || !c.on (F.LNK_CTL_EN p) then c
  else
    let e := c.get (F.LNK_RX_EXPECT p)
    let c := (c.pcsSend p (lnakBlock e cause)).inc (F.LNK_NAK_TX p)
    c.modLnk p fun l => { l with nakAt := some c.now, naked := keepNaked l.naked e cause }

/-- A link control block that fails its CRC, or carries a reserved code (R100). -/
def Chip.linkProto (p : Port) (c : Chip) : Chip := (c.inc (F.LNK_PROTO_ERR p)).flag (F.LNK_INT_STATUS_PROTO p)

end Sys2Proof.Machine
end

