-- ==== Sys2Proof/Machine/PowerOps.lean ====
section
/-! DEFINITION. The operations on trunk power ports (11): their state machine, feeds, faults, guard and measurement. -/

namespace Sys2Proof.Machine

/-! Port states (TPW_Tx_STATUS.STATE). -/

def psOpen : Nat := 0
def psProbe : Nat := 1
def psRamp : Nat := 2
def psSource : Nat := 3
def psSink : Nat := 4
def psFault : Nat := 5
def psLatched : Nat := 6
def psRestore : Nat := 7

/-- The role that a port state plays: 1 source, 2 sink, 0 none. -/
def portRole (st : Nat) : Nat := if st = psRamp || st = psSource then 1 else if st = psSink then 2 else 0

def Hv.pstate (v : Hv) (p : Port) : Nat := v.get (F.TPW_P_STATUS_STATE p)

/-- Is the path on (RAMP, SOURCE or SINK)? -/
def Hv.portOn (v : Hv) (p : Port) : Bool := portRole (v.pstate p) != 0

/-- Is the path in fault (FAULT or LATCHED)? -/
def Hv.portBad (v : Hv) (p : Port) : Bool := v.pstate p == psFault || v.pstate p == psLatched

/-- DEFAULT_ROLE (R340); 6 and 7 are taken as 0. -/
def Hv.defaultRole (v : Hv) (p : Port) : Nat :=
  let r := v.get (F.TPW_P_CFG_DEFAULT_ROLE p)
  if r ≤ 5 then r else 0

/-- Roles that may source and may sink at all (R340). -/
def maySource (r : Nat) : Bool := r == 1 || r == 3 || r == 4
def maySink (r : Nat) : Bool := r == 2 || r == 3 || r == 4 || r == 5

def Hv.modTpw (v : Hv) (p : Port) (f : TpwPort → TpwPort) : Hv := { v with tpw := upd v.tpw p f }
def Hv.modSw (v : Hv) (p : Port) (f : PathSw → PathSw) : Hv := v.modTpw p fun t => { t with sw := f t.sw }

/-- Does a port feed the hub: SINK with a VALID contract of DIR 0, or SINK with default DUMB_SNK (Table 11-2)?.
Marks: DEDUCED, log 50. -/
def Hv.feeds (v : Hv) (p : Port) : Bool :=
  v.pstate p == psSink
    && (v.defaultRole p == 5 || (v.on (F.TPW_P_CONTRACT_VALID p) && !v.on (F.TPW_P_CONTRACT_DIR p)))

/-- FED (Table 11-2): another port feeds the hub, or LOCAL_FEED is set. -/
def Hv.fed (v : Hv) (p : Port) : Bool :=
  v.on F.TPW_RAIL_CFG_LOCAL_FEED || ports.any fun (q : Port) => q != p && v.feeds q

/-- FRS_ARMED (R361). -/
def Hv.frsArmed (v : Hv) (p : Port) : Bool :=
  v.pstate p == psSink && v.defaultRole p != 5 && v.on (F.TPW_P_CFG_FRS_EN p) && v.on (F.TPW_P_CONTRACT_VALID p)
    && v.on (F.TPW_P_CONTRACT_FRS_OK p) && v.fed p && decide (v.get (F.TPW_P_LIMIT_V_FRS p) * 500 + 2000 ≤ v.vrail)
    && !v.on (F.TPW_P_STATUS_GUARD p)

/-- Forward target of a sinking port in mV (R342, R343). -/
def Hv.sinkTarget (v : Hv) (p : Port) (now : Nat) : Nat :=
  if v.get F.TPW_RAIL_CFG_PREF_PORT = p.val ∧ v.prefFrom ≤ now then 10 else 60

/-- The status bits that follow from the states, the settings and the last samples. -/
def Hv.refreshPort (p : Port) (v : Hv) : Hv :=
  (v.put (F.TPW_P_STATUS_FRS_ARMED p) (v.frsArmed p).toNat).put (F.TPW_P_STATUS_PREF p)
    (v.get F.TPW_RAIL_CFG_PREF_PORT == p.val).toNat

def Hv.refresh (v : Hv) : Hv :=
  let conducting := fun (q : Port) => v.pstate q == psSink && !v.tpw[q].reversed
  let v := ports.foldl (fun v p => v.refreshPort p) v
  let v := v.put F.TPW_RAIL_STATUS_FEEDS ((ports.map fun (q : Port) => (conducting q).toNat * 2 ^ q.val).foldl (· + ·) 0)
  v.put F.TPW_RAIL_STATUS_FED (ports.any fun (q : Port) => v.fed q).toNat

/-- Power-good changes (R350); with it the wait for the partner's first frame begins or ends (R347). -/
def Hv.setPg (p : Port) (b : Bool) (v : Hv) : Hv :=
  if v.on (F.TPW_P_STATUS_PG p) == b then v
  else ((v.put (F.TPW_P_STATUS_PG p) b.toNat).flag F.TPW_INT_STATUS_PG_CHANGE).modTpw p fun t => { t with heard := false }

/-- Takes a port to a state. Power-good belongs to SOURCE (R350); the fault timer runs while the limiter holds outside a
ramp (R349); an open path has neither. -/
def Hv.enter (p : Port) (st : Nat) (v : Hv) : Hv :=
  let old := portRole (v.pstate p)
  let v := v.put (F.TPW_P_STATUS_STATE p) st
  let v := v.when (portRole st != old) fun v => v.flag F.TPW_INT_STATUS_ROLE_CHANGE
  let v := v.when (st != psSource) (Hv.setPg p false)
  let v := v.when (portRole st == 0) fun v => v.put (F.TPW_P_STATUS_LIMITING p) 0
  let v := v.put (F.TPW_P_STATUS_TIMER p) ((st == psSource || st == psSink) && v.on (F.TPW_P_STATUS_LIMITING p)).toNat
  let v := v.modTpw p fun t => { t with
    raising := false, reversed := false, probed := t.probed && (portRole st == 1 || st == psFault)
    sw := { t.sw with deglitch := if st = psSource then .running else .off, ramp := none } }
  v.refresh

/-- SLOPE; 0 is taken as 1. -/
def Hv.slope (v : Hv) (p : Port) : Nat := max 1 (v.get (F.TPW_P_RAMP_SLOPE p))

/-- Starts a source ramp at SLOPE or at a least slope (R348, R364), or full enhancement where VCAB is at 90 % of VRAIL already. -/
def Hv.startRamp (p : Port) (least : Nat) (v : Hv) : Hv :=
  let full := decide (9 * v.vrail ≤ 10 * v.tpw[p].sw.v)
  (v.enter p psRamp).modSw p fun s => { s with ramp := if full then none else some (max (v.slope p) least), leastRamp := least }

/-- Closes a port as a sink (R342); it raises the rail first where VRAIL is more than 2 V below VCAB (R344). -/
def Hv.closeSink (p : Port) (v : Hv) : Hv :=
  let low := decide (v.vrail + 2000 < v.tpw[p].sw.v)
  let v := v.enter p psSink
  v.when low fun v => (v.put (F.TPW_P_STATUS_TIMER p) 0).modTpw p fun t => { t with raising := true, sw := { t.sw with ramp := some (v.slope p), leastRamp := 0 } }

/-- Writes the contract in force (R353). -/
def Hv.setContract (p : Port) (w i dir : Nat) (frsOk : Bool) (v : Hv) : Hv :=
  let v := (v.put (F.TPW_P_CONTRACT_W p) w).put (F.TPW_P_CONTRACT_I p) i
  let v := (v.put (F.TPW_P_CONTRACT_VALID p) 1).put (F.TPW_P_CONTRACT_DIR p) dir
  (v.put (F.TPW_P_CONTRACT_FRS_OK p) frsOk.toNat).refresh

/-- The boot contract (R347, R354). Marks: DEDUCED, log 50. -/
def Hv.bootContract (p : Port) (dir : Nat) (v : Hv) : Hv :=
  v.setContract p (v.get (F.TPW_P_BOOT_BOOT_W p)) (v.get (F.TPW_P_BOOT_BOOT_I p)) dir false

/-- The mirrored contract: the same watts and current in the new direction (R360). Marks: DEDUCED, log 50. -/
def Hv.mirror (p : Port) (dir : Nat) (v : Hv) : Hv := (v.put (F.TPW_P_CONTRACT_DIR p) dir).refresh

/-- An effect of the HV die alone, which only the lockout stops (R338, R365). -/
def Hub.onLiveHv (h : Hub) (f : Hv → Hv) : Hub := h.when (!h.hv.lockout) fun h => h.onHv f

/-- An effect through the HV die that also reaches the core. -/
def Hub.live (h : Hub) (f : Hub → Hub) : Hub := h.when (!h.hv.lockout) f

/-- An alarm about an own power unit, while the core runs. Marks: DEDUCED, log 60. -/
def Hub.powerAlarm (code unit detail : Nat) (h : Hub) : Hub := h.onChip fun c => c.when c.running fun c => c.raiseOwn code unit detail
def Hub.powerClear (code unit detail : Nat) (h : Hub) : Hub := h.onChip fun c => c.when c.running fun c => c.clearOwn code unit detail

/-- The ports in SINK. -/
def Hv.sinking (v : Hv) : List Bool := ports.map fun (p : Port) => v.pstate p == psSink

/-- BUD_CTL.FLOOR: the highest FLOOR_HINT among the latest offers on the sinking ports (R356). -/
def Hub.floorHint (h : Hub) : Hub :=
  let hint := fun (p : Port) => if h.hv.pstate p = psSink then (match h.chip.pwr.got[p] with | some o => o.hint | none => 0) else 0
  h.onChip fun c => c.put F.BUD_CTL_FLOOR ((ports.map hint).foldl max 0)

/-- A change of paths: where other ports sink than before, the running Lockkeeper sets the floor afresh (R356). -/
def Hub.paths (f : Hub → Hub) (h : Hub) : Hub :=
  let g := f h
  g.when (h.chip.lkRun && g.hv.sinking != h.hv.sinking) Hub.floorHint

/-- A command that may change paths. -/
def State.onPaths (s : State) (f : Hub → Hub) : Host.Outcome State Fault Refusal := s.onHub (Hub.paths f)

/-- The guard fails (R363): the path opens and the port enters RESTORE with cause SWAP_GUARD. -/
def Hv.guardFail (p : Port) (v : Hv) : Hv :=
  let v := ((v.put (F.TPW_P_STATUS_GUARD p) 0).put (F.TPW_P_STATUS_CAUSE p) 10).put (F.TPW_P_CONTRACT_VALID p) 0
  (v.enter p psRestore).flag F.TPW_INT_STATUS_SWAP_FAIL

def Hub.guardFail (p : Port) (h : Hub) : Hub :=
  h.when (!h.hv.lockout && h.hv.on (F.TPW_P_STATUS_GUARD p)) <| Hub.paths fun h =>
    (h.onHv (Hv.guardFail p)).onChip fun c => { c with pwr := { c.pwr with swap := c.pwr.swap.set p none } }

/-- A fault turns a conducting path off (Table 11-2): the cause is recorded, the fault counted and the contract ended
(R357). Marks: DEDUCED, log 50. -/
def Hv.portFault (p : Port) (cause : Nat) (v : Hv) : Hv :=
  let role := portRole (v.pstate p)
  let v := (v.put (F.TPW_P_STATUS_CAUSE p) cause).put (F.TPW_P_CONTRACT_VALID p) 0
  let v := ((v.modTpw p fun t => { t with prevRole := role }).inc (F.TPW_FAULTS p)).flag F.TPW_INT_STATUS_FAULT
  v.enter p psFault

/-- A port latches off (R351, R366). -/
def Hub.portLatch (p : Port) (h : Hub) : Hub :=
  let h := h.onHv fun v => (v.enter p psLatched).flag F.TPW_INT_STATUS_FAULT
  h.onChip fun c => c.put F.GLB_FAULT_STATUS_LATCHED 1

/-- Are the retries of a port spent (R351)? RETRY_MAX above 15 allows any number. -/
def Hv.retriesSpent (v : Hv) (p : Port) : Bool :=
  decide (v.get (F.TPW_P_CFG_RETRY_MAX p) ≤ 15 ∧ v.get (F.TPW_P_CFG_RETRY_MAX p) ≤ v.get (F.TPW_P_STATUS_RETRIES p))

/-- A port in FAULT whose retries are spent latches off (Table 11-2, R351); cause OVERVOLTAGE uses none. -/
def Hub.portSpent (p : Port) (h : Hub) : Hub :=
  let v := h.hv
  h.when (v.pstate p == psFault && v.get (F.TPW_P_STATUS_CAUSE p) != 6 && v.retriesSpent p) fun h =>
    (h.portLatch p).powerAlarm 0x30 p.val (v.get (F.TPW_P_STATUS_CAUSE p))

/-- A fault at a conducting port; with GUARD set it is a guard failure as well (R363), and otherwise it latches where the retries are
spent. -/
def Hub.portFault (p : Port) (cause : Nat) (h : Hub) : Hub :=
  h.when (h.hv.portOn p) <| Hub.paths fun h => ((h.onHv (Hv.portFault p cause)).guardFail p).portSpent p

/-- Re-enters the role that the fault ended (Table 11-2, R351); only a FED port sources. -/
def Hv.reenter (p : Port) (v : Hv) : Hv :=
  if v.tpw[p].prevRole = 2 then v.closeSink p
  else if v.tpw[p].prevRole = 1 ∧ v.fed p then v.startRamp p 0
  else v.enter p psOpen

/-! The limiter, the fault timer and the deglitch (R349, R350). -/

/-- The deglitch when the limiter begins or ends holding. -/
def Deglitch.limiter (holding : Bool) : Deglitch → Deglitch
  | .off => .off
  | .running => if holding then .waiting else .running
  | .waiting => if holding then .waiting else .running

/-- The limiter of a path begins or ends holding, and the fault timer with it outside a ramp. -/
def Hv.portLimiter (p : Port) (holding : Bool) (v : Hv) : Hv :=
  if !v.portOn p || v.on (F.TPW_P_STATUS_LIMITING p) == holding then v
  else
    let v := v.put (F.TPW_P_STATUS_LIMITING p) holding.toNat
    let v := v.when (v.pstate p != psRamp && !v.tpw[p].raising) fun v => v.put (F.TPW_P_STATUS_TIMER p) holding.toNat
    v.modSw p fun s => { s with deglitch := s.deglitch.limiter holding }

/-! Samples and models (R368, R369). -/

/-- One 62.5 µs update of a FET model: power in watts, RTH in 0.01 K/W, TAU in µs (0 taken as 1). -/
def FetModel.step (m : FetModel) (power : Rat) (rth1 tau1 rth2 tau2 : Nat) (tRef : Nat) (valid : Bool) : FetModel :=
  let pole := fun (dt : Rat) (rth tau : Nat) =>
    dt + (power * ((rth : Rat) / 100) - dt) * ((625 : Rat) / 10) / ((max 1 tau : Nat) : Rat)
  { dt1 := pole m.dt1 rth1 tau1, dt2 := pole m.dt2 rth2 tau2, tRef := tRef, valid := valid }

/-- The model's temperature as °C + 64, 0 to 255. -/
def FetModel.temp (m : FetModel) : Nat := min 255 ((m.tRef : Int) + (m.dt1 + m.dt2).floor).toNat

/-- Takes one sample into a path's sums, energies and model: mV, mA and the FET's power in watts. -/
def PathSw.sample (s : PathSw) (mv : Nat) (ma : Int) (m : FetModel) : PathSw :=
  let p := (mv : Int) * ma
  { s with
    v := mv, i := ma, fet := m, count := s.count + 1, sumV := s.sumV + mv, sumI := s.sumI + ma, sumP := s.sumP + p
    peak := max s.peak ma.natAbs
    eOut := (s.eOut + p.toNat) % (2 ^ 48 * 16000), eIn := (s.eIn + (-p).toNat) % (2 ^ 48 * 16000) }

/-- The energy in µJ. -/
def microJoule (e : Nat) : Nat := e / 16000

/-- The hottest of some sensor readings, and whether all are valid. -/
def hottest (l : List (Option Byte)) : Option Nat :=
  if l.all Option.isSome then some ((l.map fun x => (x.getD 0).toNat).foldl max 0) else none

/-- The reading that T_REF selects: NTC0 to NTC3, or the hottest die sensor (4, and 5 to 7 taken as 4). -/
def HvRef (smp : HvSamples) (sel : Nat) : Option Nat :=
  if sel < 4 then (smp.ntc.toList.getD sel none).map BitVec.toNat else hottest smp.die.toList

/-- The reference reading, a free value where the selected sensor is invalid (log 2). Marks: DEDUCED, log 52. -/
def Hub.reference (h : Hub) (smp : HvSamples) (sel : Nat) : Nat × Bool × Hub :=
  match HvRef smp sel with
  | some t => (t, true, h)
  | none => ((h.chip.draw 256).1, false, { h with chip := (h.chip.draw 256).2 })

/-- Current in mA from a sense voltage in µV and RS in 0.1 mΩ. -/
def senseCurrent (uv : Int) (rs : Nat) : Int := uv * 10 / rs

/-- RS of a port; 0 is taken as 10. -/
def Hv.portRs (v : Hv) (p : Port) : Nat := if v.get (F.TPW_P_SENSE_RS p) = 0 then 10 else v.get (F.TPW_P_SENSE_RS p)

/-- The lower of ILIM (10 mA) and 50 mV / RS (0.1 mΩ), in mA (R349, 12 R380). -/
def senseLimit (ilim rs : Nat) : Rat := min ((10 * ilim : Nat) : Rat) ((500_000 : Rat) / (rs : Rat))

/-- I_EFF of a trunk path, in mA (R349). -/
def Hv.iEff (v : Hv) (p : Port) : Rat :=
  let lim := senseLimit (v.get (F.TPW_P_LIMIT_ILIM p)) (v.portRs p)
  if v.on (F.TPW_P_CONTRACT_VALID p) && v.on (F.TPW_P_CFG_CONTRACT_ENFORCE p)
  then min lim ((125 * v.get (F.TPW_P_CONTRACT_I p) : Nat) : Rat) else lim

/-- Does the hard-short comparator trip at a sensed current: 2 × I_EFF in either direction (R349, 12 R381)? -/
def hardShort (iEff : Rat) (ma : Int) : Bool := decide (2 * iEff ≤ (ma.natAbs : Rat))

/-- Path voltage in µV: V(TxVCAB) − V(TxCSN) (R337). -/
def pathMicroVolt (smp : HvSamples) (p : Port) : Int :=
  (smp.vcab[p].toNat : Int) * 10000 - ((smp.vrail.toNat : Int) * 10000 - smp.portSense[p])

/-- A ramp in progress goes on at the SLOPE now set (R373, 12 R395). -/
def PathSw.rampAt (slope : Nat) (s : PathSw) : PathSw := { s with ramp := s.ramp.map fun _ => max slope s.leastRamp }

/-- Ramp regulation ends when the drop across the path, in mV, has come down to 0.5 V (12 R379). -/
def PathSw.rampEnds (drop : Int) (s : PathSw) : PathSw := if drop ≤ 500 then { s with ramp := none } else s

/-- A port takes one step of samples: the slope in force, sums, energies, model, the end of the rail's raise (R344), the sink's return to
conduction (R342) and the start or end of a deglitch (R350). The regulation of a source's ramp ends as a channel's does.
Marks: DEDUCED, log 51. -/
def Hv.samplePort (smp : HvSamples) (p : Port) (tRef : Nat) (valid : Bool) (now : Nat) (v : Hv) : Hv :=
  let mv := smp.vcab[p].toNat * 10
  let ma := senseCurrent smp.portSense[p] (v.portRs p)
  let power : Rat := ((ma.natAbs * (pathMicroVolt smp p).natAbs : Nat) : Rat) / 1_000_000_000
  let m := v.tpw[p].sw.fet.step power (v.get (F.TPW_P_FETM_RTH p 0)) (v.get (F.TPW_P_FETM_TAU p 0))
    (v.get (F.TPW_P_FETM_RTH p 1)) (v.get (F.TPW_P_FETM_TAU p 1)) tRef valid
  let high := decide (9 * v.vrail ≤ 10 * mv)
  let v := v.modSw p fun s => ((s.rampAt (v.slope p)).sample mv ma m)
  let v := v.when (v.pstate p == psRamp) fun v => v.modSw p (PathSw.rampEnds ((v.vrail : Int) - mv))
  let v := v.when (v.tpw[p].raising && decide (mv < v.vrail + 500)) fun v =>
    (v.put (F.TPW_P_STATUS_TIMER p) (v.get (F.TPW_P_STATUS_LIMITING p))).modTpw p fun t => { t with raising := false, sw := { t.sw with ramp := none } }
  let v := v.when (v.tpw[p].reversed && decide ((v.sinkTarget p now : Int) * 1000 < pathMicroVolt smp p)) fun v =>
    v.modTpw p fun t => { t with reversed := false }
  v.when (v.pstate p == psSource && !v.on (F.TPW_P_STATUS_PG p)) fun v => v.modSw p fun s =>
    { s with deglitch := if high then (if s.deglitch = .off then .running else s.deglitch) else .off }

/-- A conducting port whose model has reached T_LIMIT turns off (R348, R349). -/
def Hub.portThermal (p : Port) (h : Hub) : Hub :=
  let v := h.hv
  h.when (v.portOn p && decide (v.get (F.TPW_P_SENSE_T_LIMIT p) ≤ v.tpw[p].sw.fet.temp)) fun h =>
    h.portFault p (if (v.pstate p = psRamp || v.tpw[p].raising) && v.on (F.TPW_P_STATUS_LIMITING p) then 3 else 5)

/-- The samples of one port. -/
def Hub.portStep (smp : HvSamples) (p : Port) (h : Hub) : Hub :=
  let (t, ok, h) := h.reference smp (h.hv.get (F.TPW_P_SENSE_T_REF p))
  (h.onHv (Hv.samplePort smp p t ok h.chip.now)).portThermal p

/-! Capabilities and the resolution of roles (R341). -/

def Hv.sourceCapable (v : Hv) (p : Port) : Bool :=
  v.defaultRole p == 1 || ((v.defaultRole p == 3 || v.defaultRole p == 4) && v.fed p)

def Hv.sinkCapable (v : Hv) (p : Port) : Bool := v.defaultRole p == 2 || v.defaultRole p == 3 || v.defaultRole p == 4

/-- Does the port intend to source, with the partner's capability bits of its HELLO (Table 03-9)? -/
def Hv.intendsSource (v : Hv) (p : Port) (caps : Nat) : Bool :=
  v.fed p && (v.defaultRole p == 1 || v.defaultRole p == 3
    || (v.defaultRole p == 4 && caps.testBit 2 && !caps.testBit 1))

/-- Table 11-3: the result (0 none, 1 this end sources, 2 the partner sources) and whether the roles conflict. The partner
intends to source when it has offered. -/
def roleResult (own ownFixed ownSink : Bool) (partner partnerFixed partnerSink ownLower : Bool) : Nat × Bool :=
  match own, partner with
  | true, false => (if partnerSink then 1 else 0, false)
  | true, true =>
    match ownFixed, partnerFixed with
    | true, true => (0, true)
    | true, false => (if partnerSink then 1 else 0, false)
    | false, true => (if ownSink then 2 else 0, false)
    | false, false => if ownLower then (if partnerSink then 1 else 0, false) else (if ownSink then 2 else 0, false)
  | false, true => (if ownSink then 2 else 0, false)
  | false, false => (0, false)

/-- The ends resolve which of them sources (R341), and RESTORE_ROLE is latched. The Lockkeeper takes no part on a DUMB_SNK
port (R340). Marks: DEDUCED, log 50. -/
def Hub.roleResolution (p : Port) (h : Hub) : Hub :=
  let c := h.chip
  let v := h.hv
  let caps := c.tp[p].partnerCaps
  h.when (v.defaultRole p != 5 && !v.lockout) fun h =>
    let (r, conflict) := roleResult (v.intendsSource p caps) (v.defaultRole p == 1) (v.sinkCapable p) c.pwr.got[p].isSome
      (match c.pwr.got[p] with | some o => o.fixed | none => false) (caps.testBit 2) (decide (c.serial < c.tp[p].partnerSerial))
    let h := h.onHv fun v => v.put (F.TPW_P_STATUS_RESTORE_ROLE p) r
    let h := h.when (r == 2) fun h => h.onChip fun c => { c with pwr := { c.pwr with sent := c.pwr.sent.set p none } }
    if conflict then h.powerAlarm 0x33 p.val 0
    else h.when (h.chip.alarmStands 0x33 p.val) fun h => h.onChip fun c => c.clearOwn 0x33 p.val 0

end Sys2Proof.Machine
end

