-- ==== Sys2Proof/Machine/LoadOps.lean ====
section
/-! DEFINITION. The operations on load channels (12): their state machine, faults, sheds, records and measurement. -/

namespace Sys2Proof.Machine

/-! Channel states (LDC_Ly_STATUS.STATE) and turn-off causes. -/

def csOff : Nat := 0
def csArmed : Nat := 1
def csRamp : Nat := 2
def csOn : Nat := 3
def csFault : Nat := 4
def csLatched : Nat := 5

def offCommand : Nat := 1
def offReset : Nat := 2
def offCtlLoss : Nat := 3
def offBudget : Nat := 4
def offFeed : Nat := 5

def Hv.cstate (v : Hv) (y : Chan) : Nat := v.get (F.LDC_L_STATUS_STATE y)
def Hv.modLdc (v : Hv) (y : Chan) (f : LdcChan → LdcChan) : Hv := { v with ldc := upd v.ldc y f }
def Hv.modCsw (v : Hv) (y : Chan) (f : PathSw → PathSw) : Hv := v.modLdc y fun t => { t with sw := f t.sw }

/-- A channel is on in RAMP and ON, and in fault in FAULT and LATCHED (R377, R394). -/
def Hv.chanOn (v : Hv) (y : Chan) : Bool := v.cstate y == csRamp || v.cstate y == csOn
def Hv.chanBad (v : Hv) (y : Chan) : Bool := v.cstate y == csFault || v.cstate y == csLatched

/-- Does a shed hold the channel off (R387)? -/
def Hv.held (v : Hv) (y : Chan) : Bool := v.on (F.LDC_L_STATUS_HELD_BUDGET y) || v.on (F.LDC_L_STATUS_HELD_FEED y)

/-- An event of a channel sets its bit of a field of LDC_INT_STATUS. -/
def Hv.chanFlag (v : Hv) (f : Field) (y : Chan) : Hv := v.flag ⟨f.off, f.lo + y.val, 1⟩

/-- Power-good of a channel (R382), shown in LDC_STATUS as well. -/
def Hv.setChanPg (y : Chan) (b : Bool) (v : Hv) : Hv :=
  if v.on (F.LDC_L_STATUS_PG y) == b then v
  else
    (((v.put (F.LDC_L_STATUS_PG y) b.toNat).putBit F.LDC_STATUS_PG y.val b).chanFlag F.LDC_INT_STATUS_PG_CHANGE y).modLdc y fun t =>
      { t with good := t.good || b }

/-- LyPG: high with power-good while PIN_EN is set, low while the HV die is in its lockout (R382). -/
def Hv.pgPin (v : Hv) (y : Chan) : Bool := v.on (F.LDC_L_STATUS_PG y) && v.on (F.LDC_L_PG_CFG_PIN_EN y) && !v.lockout

/-- Takes a channel to a state. Power-good belongs to ON; the limiter and its timer to RAMP and ON. -/
def Hv.chanEnter (y : Chan) (st : Nat) (v : Hv) : Hv :=
  let v := (v.put (F.LDC_L_STATUS_STATE y) st).put ⟨F.LDC_STATUS.off, 4 * y.val, 3⟩ st
  let v := v.when (st != csOn) (Hv.setChanPg y false)
  let v := v.when (st != csRamp && st != csOn) fun v => v.put (F.LDC_L_STATUS_LIMITING y) 0
  let v := v.put (F.LDC_L_STATUS_TIMER y) (st == csOn && v.on (F.LDC_L_STATUS_LIMITING y)).toNat
  v.modLdc y fun t => { t with
    sawRamp := t.sawRamp || st == csRamp, sawFault := t.sawFault || st == csFault || st == csLatched
    sw := { t.sw with deglitch := if st = csOn then .running else .off, ramp := none } }

/-- The record of a ramp, made when it ends (R392). -/
def Hv.rampRecord (y : Chan) (now : Nat) (v : Hv) : Hv :=
  let t := v.ldc[y]
  let v := (v.put (F.LDC_L_RAMP0_DURATION y) (min ((now - t.rampAt) / 10000) 65535)).put (F.LDC_L_RAMP0_I_PEAK y) (min (t.rampPeak / 10) 65535)
  (v.put (F.LDC_L_RAMP1 y) (min (microJoule t.rampEnergy) (2 ^ 32 - 1))).put (F.LDC_L_RAMP2 y) (t.rampFrame.getD 0)

/-- Turns a channel off with a cause (R385, R387, R388). -/
def Hv.chanOff (y : Chan) (cause : Nat) (v : Hv) : Hv := (v.put (F.LDC_L_STATUS_OFF_CAUSE y) cause).chanEnter y csOff

/-- A channel enters LATCHED. -/
def Hv.chanLatch (y : Chan) (v : Hv) : Hv :=
  let v := v.when (v.cstate y != csLatched) fun v => v.inc (F.LDC_LATCHES y)
  (v.chanEnter y csLatched).chanFlag F.LDC_INT_STATUS_LATCHED y

/-- RETRY_MAX allows no further retry (R384). -/
def Hv.chanSpent (v : Hv) (y : Chan) : Bool :=
  decide (v.get (F.LDC_L_CFG_RETRY_MAX y) ≤ 15 ∧ v.get (F.LDC_L_CFG_RETRY_MAX y) ≤ v.get (F.LDC_L_STATUS_RETRIES y))

/-- A fault turns a channel in RAMP or ON off (R377, R384): with the retries spent it latches, unless the cause is
OVERVOLTAGE. Marks: DEDUCED, log 51. -/
def Hv.chanFault (y : Chan) (cause now : Nat) (v : Hv) : Hv :=
  let v := v.when (v.cstate y == csRamp) (Hv.rampRecord y now)
  let v := ((v.put (F.LDC_L_STATUS_CAUSE y) cause).inc (F.LDC_FAULTS y)).chanFlag F.LDC_INT_STATUS_FAULT y
  if cause ≠ 6 ∧ v.chanSpent y then v.chanLatch y else v.chanEnter y csFault

def Hub.chanFault (y : Chan) (cause : Nat) (h : Hub) : Hub :=
  h.when (h.hv.chanOn y) fun h =>
    let h := h.onHv (Hv.chanFault y cause h.chip.now)
    h.when (h.hv.cstate y == csLatched) fun h =>
      (h.onChip fun c => c.put F.GLB_FAULT_STATUS_LATCHED 1).powerAlarm 0x34 (0x10 + y.val) cause

/-- The limiter of a channel begins or ends holding (R379, R380, R382). -/
def Hv.chanLimiter (y : Chan) (holding : Bool) (v : Hv) : Hv :=
  if !v.chanOn y || v.on (F.LDC_L_STATUS_LIMITING y) == holding then v
  else
    let v := v.put (F.LDC_L_STATUS_LIMITING y) holding.toNat
    let v := v.when (v.cstate y == csOn || v.ldc[y].direct) fun v => v.put (F.LDC_L_STATUS_TIMER y) holding.toNat
    v.modCsw y fun s => { s with deglitch := s.deglitch.limiter holding }

/-! Sheds and holds (R345, R387, R20, R388, R531). -/

/-- A feed-loss shed (R345): from ARMED, RAMP, ON or FAULT. -/
def Hv.feedShed (y : Chan) (v : Hv) : Hv :=
  v.when (v.cstate y != csOff && v.cstate y != csLatched) fun v => (v.chanOff y offFeed).put (F.LDC_L_STATUS_HELD_FEED y) 1

/-- A budget shed (06 R221): from RAMP or ON. -/
def Hv.budgetShed (y : Chan) (v : Hv) : Hv :=
  v.when (v.chanOn y) fun v => (v.chanOff y offBudget).put (F.LDC_L_STATUS_HELD_BUDGET y) 1

/-- A shed releases a channel: it is armed again when no other shed holds it (R387). -/
def Hv.releaseHold (f : Field) (y : Chan) (v : Hv) : Hv :=
  v.when (v.on f) fun v =>
    let v := v.put f 0
    v.when (!v.held y && v.cstate y == csOff) (Hv.chanEnter y csArmed)

/-- Turn-off by a standing command of R20 when the Lockkeeper fails. -/
def Hv.ctlLoss (y : Chan) (v : Hv) : Hv :=
  v.when (v.on (F.LDC_L_CFG_SHED_ON_CTL_LOSS y) && v.cstate y != csLatched && (v.cstate y != csOff || v.held y)) fun v =>
    ((v.chanOff y offCtlLoss).put (F.LDC_L_STATUS_HELD_BUDGET y) 0).put (F.LDC_L_STATUS_HELD_FEED y) 0

/-- The same, with the end of the governor's hold and of its wait (06 R222). -/
def Hub.ctlLoss (y : Chan) (h : Hub) : Hub :=
  let held := h.hv.on (F.LDC_L_STATUS_HELD_BUDGET y)
  let h := h.onHv (Hv.ctlLoss y)
  h.when (held && !h.hv.on (F.LDC_L_STATUS_HELD_BUDGET y)) fun h => h.onChip fun c => c.putBit F.BUD_SHED_STATUS_SHED y.val false

/-- A POR, cold or warm reset at a channel (R19, R388, 06 R530). -/
def Hv.chanReset (y : Chan) (v : Hv) : Hv :=
  let v := v.put (F.LDC_L_STATUS_HELD_BUDGET y) 0
  v.when (!v.on (F.LDC_L_CFG_HOLD_ACROSS_RESET y) && v.cstate y != csOff && v.cstate y != csLatched) (Hv.chanOff y offReset)

/-- ARM_AT_BOOT at the end of the image load (R531). -/
def Hv.armAtBoot (y : Chan) (v : Hv) : Hv :=
  let cause := v.get (F.LDC_L_STATUS_OFF_CAUSE y)
  v.when (v.on (F.LDC_L_CFG_ARM_AT_BOOT y) && v.cstate y == csOff && (cause == 0 || cause == offReset) && !v.held y) (Hv.chanEnter y csArmed)

/-- A command to a channel ends the governor's hold on it (06 R222) and a feed-loss hold (R345, R387). -/
def Hub.endHolds (y : Chan) (h : Hub) : Hub :=
  let h := h.onHv fun v => (v.put (F.LDC_L_STATUS_HELD_BUDGET y) 0).put (F.LDC_L_STATUS_HELD_FEED y) 0
  h.onChip fun c => c.putBit F.BUD_SHED_STATUS_SHED y.val false

/-- The write of LDC_Ly_CMD is refused (R376, R385): in the lockout, with more than one command, or ON in FAULT or
LATCHED. -/
def Hv.loadRefused (v : Hv) (y : Chan) (on off clear : Bool) : Bool :=
  v.lockout || decide (1 < on.toNat + off.toNat + clear.toNat) || (on && v.chanBad y)

/-- The three commands (R385). Marks: DEDUCED, log 51. -/
def Hub.loadCommand (y : Chan) (on off clear : Bool) (h : Hub) : Hub :=
  let st := h.hv.cstate y
  if h.hv.loadRefused y on off clear then h.onHv fun v => v.inc (F.LDC_REFUSED y)
  else if on then (h.endHolds y).onHv fun v => v.when (st == csOff) (Hv.chanEnter y csArmed)
  else if off then (h.endHolds y).onHv fun v => v.when (st != csLatched) (Hv.chanOff y offCommand)
  else if clear then
    let h := h.endHolds y
    h.when (st == csLatched) fun h =>
      let cause := h.hv.get (F.LDC_L_STATUS_CAUSE y)
      let h := h.onHv fun v => (v.put (F.LDC_L_STATUS_RETRIES y) 0).chanEnter y csOff
      h.when (cause != 7) fun h => h.powerClear 0x34 (0x10 + y.val) cause
  else h

/-! Samples (R389, R391). -/

/-- SLOPE of a channel; 0 is taken as 1. -/
def Hv.chanSlope (v : Hv) (y : Chan) : Nat := max 1 (v.get (F.LDC_L_RAMP_SLOPE y))

def Hv.chanRs (v : Hv) (y : Chan) : Nat := if v.get (F.LDC_L_SENSE_RS y) = 0 then 20 else v.get (F.LDC_L_SENSE_RS y)

/-- I_EFF of a load channel, in mA (R380). -/
def Hv.chanEff (v : Hv) (y : Chan) : Rat := senseLimit (v.get (F.LDC_L_LIMIT_ILIM y)) (v.chanRs y)

/-- A channel takes one step of samples: the slope in force (R395) and the end of ramp regulation at a drop of 0.5 V (R379), sums,
energy, model, the ramp's record in progress, OUT_PRESENT's end (R390) and
the start or end of a deglitch (R382). Marks: DEDUCED, log 51. -/
def Hv.sampleChan (smp : HvSamples) (y : Chan) (tRef : Nat) (valid : Bool) (v : Hv) : Hv :=
  let mv := smp.vout[y].toNat * 10
  let ma := senseCurrent smp.chanSense[y] (v.chanRs y)
  let drop : Int := (v.vrail : Int) - mv
  let power : Rat := ((ma.natAbs : Int) * drop : Int) / 1_000_000
  let m := v.ldc[y].sw.fet.step power (v.get (F.LDC_L_FETM_RTH y 0)) (v.get (F.LDC_L_FETM_TAU y 0))
    (v.get (F.LDC_L_FETM_RTH y 1)) (v.get (F.LDC_L_FETM_TAU y 1)) tRef valid
  let high := decide (9 * v.vrail ≤ 10 * mv)
  let v := v.modCsw y fun s => ((s.rampAt (v.chanSlope y)).rampEnds drop).sample mv ma m
  let v := v.when (v.cstate y == csRamp) fun v => v.modLdc y fun t =>
    { t with rampPeak := max t.rampPeak ma.natAbs, rampEnergy := t.rampEnergy + ((mv : Int) * ma).toNat }
  let v := v.when (!high) fun v => v.put (F.LDC_L_STATUS_OUT_PRESENT y) 0
  v.when (v.cstate y == csOn && !v.on (F.LDC_L_STATUS_PG y)) fun v => v.modCsw y fun s =>
    { s with deglitch := if high then (if s.deglitch = .off then .running else s.deglitch) else .off }

/-- A channel in RAMP or ON whose model has reached T_LIMIT turns off (R377, R379, R380). -/
def Hub.chanThermal (y : Chan) (h : Hub) : Hub :=
  let v := h.hv
  h.when (v.chanOn y && decide (v.get (F.LDC_L_SENSE_T_LIMIT y) ≤ v.ldc[y].sw.fet.temp)) fun h =>
    h.chanFault y (if v.cstate y = csRamp && v.on (F.LDC_L_STATUS_LIMITING y) then 3 else 5)

/-- The samples of one channel. -/
def Hub.chanStep (smp : HvSamples) (y : Chan) (h : Hub) : Hub :=
  let (t, ok, h) := h.reference smp (h.hv.get (F.LDC_L_SENSE_T_REF y))
  (h.onHv (Hv.sampleChan smp y t ok)).chanThermal y

/-! The inrush slot (04 R162, 12 R378, 06 R220, R214). -/

def Chip.inrushSlot (c : Chip) : Nat :=
  if c.on F.FAB_INRUSH_SLOT_SEL then c.get F.FAB_INRUSH_SLOT else c.get F.FAB_ID_HUB_ID * 37 % 64

/-- Does the hub's slot fall in this frame, once the governor has made its first level since the reset (R388), and does FAB_INRUSH permit
it? -/
def Chip.slotFalls (c : Chip) : Bool :=
  c.running && c.bud.ticked && c.get F.FAB_FRAME % 64 == c.inrushSlot && (!c.on F.FAB_INRUSH_HOLD_UNLOCKED || c.on F.FAB_TIME_STATUS_LOCKED)

/-- A channel begins its ramp, and the governor's freeze with it; an output that has been present goes straight to full
enhancement. -/
def Hub.chanStart (y : Chan) (h : Hub) : Hub :=
  let c := h.chip
  let h := h.onHv fun v =>
    let direct := v.on (F.LDC_L_STATUS_OUT_PRESENT y)
    let v := ((v.inc (F.LDC_STARTS y)).chanFlag F.LDC_INT_STATUS_STARTED y).chanEnter y csRamp
    v.modLdc y fun t => { t with
      rampAt := c.now, rampFrame := some (c.get F.FAB_FRAME), rampPeak := 0, rampEnergy := 0, good := false, direct := direct
      sw := { t.sw with ramp := if direct then none else some (v.chanSlope y) } }
  h.onChip fun c => c.when c.bud.frozen.isNone fun c =>
    ({ c with bud := { c.bud with frozen := some (c.bud.util, 0) } }).put F.BUD_STATUS_FROZEN 1

/-- A channel has started in this occurrence of the slot. -/
def Hub.slotUsed (h : Hub) : Bool := chans.any fun (y : Chan) =>
  h.hv.ldc[y].rampFrame == some (h.chip.get F.FAB_FRAME) && decide (h.chip.now < h.hv.ldc[y].rampAt + millisecond)

/-- The occurrence of the slot: the lowest-numbered armed channel that R220 permits starts; a withheld start is counted.
Marks: DEDUCED, log 51. -/
def Hub.slotStart (h : Hub) : Hub :=
  let row := h.chip.bud.row
  let armed := chans.filter fun (y : Chan) => h.hv.cstate y == csArmed
  let open_ := row.getLsbD 23
  let withheld := if open_ then (armed.filter fun (y : Chan) => row.getLsbD (24 + y.val)).length else min 1 armed.length
  let h := h.onChip fun c => c.when (0 < withheld) fun c => (c.add F.BUD_INRUSH_WITHHELD withheld).flag F.BUD_INT_STATUS_INRUSH_WITHHELD
  match armed.find? fun (y : Chan) => open_ && !row.getLsbD (24 + y.val) with
  | some y => h.chanStart y
  | none => h

end Sys2Proof.Machine
end

