-- ==== Sys2Proof/Machine/TpOps.lean ====
section
/-! DEFINITION. The operations of the Towpath engine (03 R109 to R119) that its commands share. -/

namespace Sys2Proof.Machine

/-- The Towpath of a port works: enabled, and the core in no core-wide reset (03 Towpath: silent during a cold or warm
reset). -/
def Chip.tpAlive (c : Chip) (p : Port) : Bool := c.running && c.on (F.LNK_CTL_TP_EN p)

/-- Queues a frame for sending (R110). -/
def Chip.queueFrame (c : Chip) (p : Port) (f : TpFrame) : Chip := c.modTp p fun t => { t with txq := t.txq ++ [f] }

/-- Replaces an outstanding request. -/
def Chip.setRequest (c : Chip) (p : Port) (old new : TpRequest) : Chip :=
  c.modTp p fun t => { t with requests := t.requests.map fun r => if r == old then new else r }

/-- Frames leave the queue; with its head goes what has been counted of it (R110). -/
def Tp.keepFrames (t : Tp) (keep : TpFrame → Bool) : Tp :=
  if (t.txq.head?.map keep).getD true then { t with txq := t.txq.filter keep }
  else { t with txq := t.txq.filter keep, collisions := 0, backoff := none }

/-- Sends a request with the next SEQ (R112), the rest of its header as given. -/
def Chip.requestWith (c : Chip) (p : Port) (hdr : Word) (payload : List Byte) (fw escalates : Bool) : Chip :=
  let n := c.tp[p].nextSeq
  let f : TpFrame := { hdr := tpWithSeq hdr n, payload := payload }
  (c.queueFrame p f).modTp p fun t => { t with
    nextSeq := (n + 1) % 256
    requests := t.requests ++ [{ frame := f, fw := fw, escalates := escalates, stage := .first, waits := 0, escSeq := 0 }] }

/-- A request that hardware or the Lockkeeper makes. -/
def Chip.request (c : Chip) (p : Port) (cls : Nat) (payload : List Byte) (fw escalates : Bool) : Chip :=
  c.requestWith p (tpHeader cls 0 payload.length false false (!fw)) payload fw escalates

/-- A request of firmware ends, or has a result on the way: LNK_TP_RESULT shows that of the last one sent. Marks: DEDUCED, log 32. -/
def Chip.fwResult (p : Port) (r : TpRequest) (res : Nat) (c : Chip) : Chip :=
  c.when (r.fw && c.get (F.LNK_TP_RESULT_SEQ p) == tpSeq r.frame.hdr) fun c => c.put (F.LNK_TP_RESULT_RESULT p) res

/-- A request of firmware ends with a result. -/
def Chip.fwEnds (p : Port) (res : Nat) (r : TpRequest) (c : Chip) : Chip :=
  (c.fwResult p r res).when r.fw fun c => c.flag (F.LNK_INT_STATUS_TP_DONE p)

/-- A request is outstanding no longer. -/
def Chip.dropRequest (p : Port) (r : TpRequest) (c : Chip) : Chip := c.modTp p fun t => { t with requests := t.requests.filter fun q => q != r }

/-- Keeps the copy of an answer and sends it (R112). -/
def Chip.keepAnswer (c : Chip) (p : Port) (cls seq : Nat) (f : TpFrame) : Chip :=
  (c.queueFrame p f).modTp p fun t => { t with answers := (t.answers.filter fun a => a.1 != cls) ++ [(cls, seq, f)] }

/-- An answer made by hardware. -/
def Chip.sendAnswer (p : Port) (cls seq : Nat) (payload : List Byte) (c : Chip) : Chip :=
  c.keepAnswer p cls seq { hdr := tpHeader cls seq payload.length true false true, payload := payload }

/-- The request class that an answer class belongs to (Table 03-8). -/
def tpRequestClass (ans : Nat) : Nat := if ans = 4 || ans = 5 then 3 else if ans = 7 then 6 else ans

/-- An answer written by the firmware: its header as written. -/
def Chip.sendAnswerFw (c : Chip) (p : Port) (hdr : Word) (payload : List Byte) : Chip :=
  c.keepAnswer p (tpRequestClass (tpClass hdr)) (tpSeq hdr) { hdr := hdr, payload := payload }

/-- The HELLO payload (Table 03-9). -/
def Hub.helloPayload (h : Hub) (p : Port) : List Byte :=
  let c := h.chip
  let caps := c.headEnd.toNat + 2 * (h.hv.sourceCapable p).toNat + 4 * (h.hv.sinkCapable p).toNat
  beBytes 8 c.serial ++ beBytes 2 ((c.on F.FAB_ID_ID_VALID).toNat * 2 ^ 15 + c.get F.FAB_ID_HUB_ID)
    ++ [BitVec.ofNat 8 caps, BitVec.ofNat 8 (c.get F.LKP_STATUS_STATE), 1#8] ++ List.replicate 3 0#8

/-- What a HELLO of the partner says is kept; a duplicate of the own hub ID is detected (04 R122). -/
def Chip.helloTaken (p : Port) (payload : List Byte) (c : Chip) : Chip :=
  let idw := fieldAt payload 8 2
  let valid := decide (2 ^ 15 ≤ idw)
  let id := idw % 1024
  let c := c.put (F.LNK_TP_STATUS_PARTNER_LK p) (fieldAt payload 11 1)
  let c := c.modTp p fun t => { t with partnerCaps := fieldAt payload 10 1, partnerSerial := fieldAt payload 0 8 }
  let c := c.modLnk p fun l => { l with partnerId := if valid then some id else none }
  c.when (valid && c.ownId == some id) Chip.duplicateId

/-- The STATUS answer payload (Table 03-10). -/
def Hub.statusPayload (h : Hub) : List Byte :=
  let c := h.chip
  let up := (ports.map fun (p : Port) => (c.get (F.TRK_STATUS_LINK_UP p)) * 2 ^ p.val).foldl (· + ·) 0
  let on := (ports.map fun (p : Port) => (h.hv.portOn p).toNat * 2 ^ p.val).foldl (· + ·) 0
    + (chans.map fun (y : Chan) => (h.hv.chanOn y).toNat * 2 ^ (3 + y.val)).foldl (· + ·) 0
  let bad := (ports.map fun (p : Port) => (h.hv.portBad p).toNat * 2 ^ p.val).foldl (· + ·) 0
    + (chans.map fun (y : Chan) => (h.hv.chanBad y).toNat * 2 ^ (3 + y.val)).foldl (· + ·) 0
  beBytes 8 c.serial ++ beBytes 2 ((c.on F.FAB_ID_ID_VALID).toNat * 2 ^ 15 + c.get F.FAB_ID_HUB_ID)
    ++ [BitVec.ofNat 8 (c.get F.LKP_STATUS_STATE), BitVec.ofNat 8 (c.get F.LKP_STATUS_RESTARTS)]
    ++ [BitVec.ofNat 8 (c.headEnd.toNat + 2 * c.get F.BUD_STATUS_LEVEL), BitVec.ofNat 8 up]
    ++ beBytes 2 on ++ beBytes 2 bad ++ [BitVec.ofNat 8 (c.get F.GLB_RESET_CAUSE), 0#8]
    ++ beBytes 4 (c.get F.FAB_FRAME) ++ List.replicate 8 0#8

/-- Sends a request again with the next SEQ, at a stage (R114 events 6 and 9). -/
def Chip.sendAgain (c : Chip) (p : Port) (r : TpRequest) (stage : TpStage) : Chip :=
  let n := c.tp[p].nextSeq
  let f : TpFrame := { r.frame with hdr := tpWithSeq r.frame.hdr n }
  let shown := r.fw && c.get (F.LNK_TP_RESULT_SEQ p) == tpSeq r.frame.hdr
  let c := ((c.setRequest p r { r with frame := f, stage := stage }).queueFrame p f).modTp p fun t => { t with nextSeq := (n + 1) % 256 }
  c.when shown fun c => c.put (F.LNK_TP_RESULT_SEQ p) n

/-- The protocol restart of R115: outstanding requests end with result 2, the answer copies clear and SEQ restarts at 0.
The request whose escalation sent the RESET_SOFT is kept and sent again (event 9). -/
def Chip.tpRestart (p : Port) (keep : Option TpRequest) (c : Chip) : Chip :=
  let c := c.each (c.tp[p].requests.filter fun r => keep != some r) (Chip.fwEnds p 2)
  let c := c.modTp p fun t => { t.keepFrames (fun f => tpRsp f.hdr) with requests := keep.toList, answers := [], nextSeq := 0 }
  match keep with
  | some r => (c.sendAgain p r .again0).put (F.LNK_TP_STATUS_ESC_STAGE p) 5
  | none => c.put (F.LNK_TP_STATUS_ESC_STAGE p) 0

/-- Sends the hard-reset break (R117): any frame in progress is cut off and every outstanding request of the port is
abandoned. The request whose escalation sent it keeps result 3 (R114); every other one, also one past event 3 when firmware sends the
break, ends with 2 (R117). A break of the firmware shows no ESC_STAGE. Marks: DESIGN CHOICE, log 81. -/
def Chip.sendBreak (p : Port) (by_ : Option TpRequest) (c : Chip) : Chip :=
  let c := c.emit (.hardBreak p)
  let c := c.each c.tp[p].requests fun r c => c.fwEnds p (if by_ = some r then 3 else 2) r
  (c.modTp p fun t => { t.keepFrames (fun f => tpRsp f.hdr) with requests := [] }).put (F.LNK_TP_STATUS_ESC_STAGE p) 0

/-- Event 3 of escalation (R114): a STATUS request; the result is 3 from here on. Marks: DEDUCED, log 32. -/
def Chip.escalate (c : Chip) (p : Port) (r : TpRequest) : Chip :=
  let n := c.tp[p].nextSeq
  let c := c.setRequest p r { r with stage := .status0, escSeq := n }
  let c := (c.queueFrame p { hdr := tpHeader 9 n 0 false false true, payload := [] }).modTp p fun t => { t with nextSeq := (n + 1) % 256 }
  let c := c.put (F.LNK_TP_STATUS_ESC_STAGE p) 2
  c.fwResult p r 3

/-- Events 5 and 10 of escalation (R114): the break where TP_AUTO_HARD is set, otherwise stop. A partner behind a lost link
that did not answer STATUS is lost (14 R445). -/
def Chip.escalationEnd (c : Chip) (p : Port) (r : TpRequest) (noStatus : Bool) : Chip :=
  let c := c.flag (F.LNK_INT_STATUS_TP_ESCALATE p)
  let c := c.when (noStatus && !c.on (F.TRK_STATUS_LINK_UP p)) fun c =>
    let id := c.lnk[p].partnerId
    let c := c.raise { code := 0x15, subject := id, unit := p.val, hops := 1, loc := 0, detail := 0, cleared := false, witness := true }
    c.when (c.tp[p].partnerCaps % 2 == 1) fun c =>
      c.raise { code := 0x41, subject := id, unit := p.val, hops := 1, loc := 0, detail := 0, cleared := false, witness := true }
  if c.on (F.LNK_CTL_TP_AUTO_HARD p) then (c.sendBreak p (some r)).put (F.LNK_TP_STATUS_ESC_STAGE p) 6
  else
    ((c.dropRequest p r).put (F.LNK_TP_STATUS_ESC_STAGE p) 0).fwEnds p 3 r

/-! Escalation (R114, R522). -/

/-- A request with the given SEQ, its own or that of the STATUS or RESET_SOFT its escalation has outstanding. -/
def Chip.requestOf (c : Chip) (p : Port) (seq : Nat) : Option TpRequest :=
  c.tp[p].requests.find? fun r =>
    match r.stage with
    | .first | .retry1 | .retry2 | .again0 | .again1 | .again2 => tpSeq r.frame.hdr == seq
    | .waitRestart => false
    | _ => r.escSeq == seq

/-- TP_ANSWER_TIMEOUT (R114): 2 ms have passed; the next step of Table 03-11. A request that escalation does not cover is
only resent, and a HELLO is not (R113, R522). -/
def Chip.tpTimeout (p : Port) (seq : Nat) (c : Chip) : Chip :=
  match c.requestOf p seq with
  | none => c
  | some r =>
    if tpClass r.frame.hdr = 1 then c else
    let c := c.when r.escalates fun c => c.inc (F.LNK_TP_TIMEOUT p)
    let resend := fun (stage : TpStage) (c : Chip) =>
      (c.setRequest p r { r with stage := stage }).queueFrame p { r.frame with hdr := tpResent r.frame.hdr }
    match r.stage with
    | .first => (c.when r.escalates fun c => c.put (F.LNK_TP_STATUS_ESC_STAGE p) 1) |> resend .retry1
    | .retry1 => resend .retry2 c
    | .retry2 => if r.escalates then c.escalate p r else c
    | .status0 => (c.setRequest p r { r with stage := .status1 }).queueFrame p { hdr := tpHeader 9 r.escSeq 0 false true true, payload := [] }
    | .status1 => (c.setRequest p r { r with stage := .status2 }).queueFrame p { hdr := tpHeader 9 r.escSeq 0 false true true, payload := [] }
    | .status2 => c.escalationEnd p r true
    | .waitRestart => c
    | .soft0 => (c.setRequest p r { r with stage := .soft1 }).queueFrame p { hdr := tpHeader 0xA r.escSeq 1 false true true, payload := [0#8] }
    | .soft1 => (c.setRequest p r { r with stage := .soft2 }).queueFrame p { hdr := tpHeader 0xA r.escSeq 1 false true true, payload := [0#8] }
    | .soft2 => c.escalationEnd p r false
    | .again0 => resend .again1 c
    | .again1 => resend .again2 c
    | .again2 => c.escalationEnd p r false

/-- A request that escalation does not cover ends after its resends (R522), with a result. -/
def Chip.unanswered (p : Port) (res : Nat) (r : TpRequest) (c : Chip) : Chip :=
  ((c.dropRequest p r).inc (F.LNK_TP_TIMEOUT p)).fwEnds p res r

/-- A request frame abandoned after 8 collisions counts as one unanswered attempt (R110); where it was the last of a request that
escalation does not cover, that ends with result 4. Marks: DEDUCED, log 32. -/
def Chip.abandonedFrame (p : Port) (f : TpFrame) (c : Chip) : Chip :=
  match c.requestOf p (tpSeq f.hdr) with
  | none => c
  | some r => if !r.escalates && r.stage == .retry2 then c.unanswered p 4 r else c.tpTimeout p (tpSeq f.hdr)

/-- A frame of a Lockkeeper-answered class goes to the mailbox, or is discarded when that is full (R119). -/
def Chip.toMailbox (p : Port) (hdr : Word) (payload : List Byte) (c : Chip) : Chip :=
  if c.tp[p].mailboxFull then c
  else
    let c := c.put (F.LNK_TP_RXHDR p) hdr.toNat
    let c := c.each (List.range 16) fun k c => c.put (F.LNK_TP_RXBUF p k) (fieldAt (payload ++ List.replicate 64 0#8) (4 * k) 4)
    (c.modTp p fun t => { t with mailboxFull := true }).flag (F.LNK_INT_STATUS_TP_RX p)

end Sys2Proof.Machine
end

