-- ==== Sys2Proof/Machine/AdmitOps.lean ====
section
/-! DEFINITION. Roots, commits and link admission (13 R398 to R409, R415 to R419): the operations that the key commands, the
image loader and the Towpath share. -/

namespace Sys2Proof.Machine

/-! Roots and derived keys (R396 to R401). -/

/-- What most of three copies say. -/
def majority (x : BitVec 3) : Bool := (x.getLsbD 0 && x.getLsbD 1) || (x.getLsbD 0 && x.getLsbD 2) || (x.getLsbD 1 && x.getLsbD 2)

/-- The pattern F3 F2 F1, each fuse read by majority (R396). -/
def Fuses.pattern (f : Fuses) : BitVec 3 :=
  BitVec.ofNat 3 ((majority f.lc[2]).toNat * 4 + (majority f.lc[1]).toNat * 2 + (majority f.lc[0]).toNat)

/-- The fuses of a pattern are blown, all copies. -/
def Fuses.blow (m : BitVec 3) (f : Fuses) : Fuses :=
  { f with lc := Vector.ofFn fun (i : Fin 3) => if m.getLsbD i.val then 7#3 else f.lc[i] }

/-- Some copies of the fuses of a pattern are blown, those whose bit of `n` is set. -/
def Fuses.blowSome (m : BitVec 3) (n : Nat) (f : Fuses) : Fuses :=
  { f with lc := Vector.ofFn fun (i : Fin 3) => f.lc[i] ||| (if m.getLsbD i.val then BitVec.ofNat 3 (n / 8 ^ i.val) else 0#3) }

/-- The fuse pattern of a state. -/
def lcFuses (target : Nat) : BitVec 3 :=
  match target with
  | 1 => 1#3 | 2 => 3#3 | 3 => 7#3 | _ => 0#3

/-- Programming that ends early, by a loss of supply or a reset (R397), or that fails: each fuse that KEY_LC_CMD was to blow is left blown or
intact, a free value (log 2). Marks: DEDUCED, log 53. -/
def Chip.fusesPart (c : Chip) : Chip :=
  match c.key.lcCmd with
  | none => c
  | some 4 =>
    let (n, c) := c.draw (c.get F.KEY_STATUS_FW_SVN - c.key.fuses.svn + 1)
    { c with key := { c.key with fuses := { c.key.fuses with svn := c.key.fuses.svn + n } } }
  | some t =>
    let (n, c) := c.draw 512
    { c with key := { c.key with fuses := c.key.fuses.blowSome (lcFuses t) n } }

/-- The life-cycle state that the fuses F3 F2 F1 decode to (R396). -/
def lifeCycle (f : BitVec 3) : Nat :=
  if f = 0#3 then 0 else if f = 1#3 then 1 else if f = 3#3 then 2 else 3

/-- The bytes of the device serial. -/
def Chip.serialBytes (c : Chip) : List Byte := beBytes 8 c.serial

/-- K_root in force (Table 13-1); none while TAINT or FUSE_ERR is set. -/
def Chip.rootKey (c : Chip) : Option Key256 :=
  if c.on F.KEY_STATUS_TAINT || c.on F.KEY_STATUS_FUSE_ERR then none
  else
    match c.get F.KEY_STATUS_LC with
    | 0 => some Config.testRoot
    | 1 => c.key.fuses.ownerRoot.map fun r => kdf r "CKH-ROOT" (c.serialBytes ++ [1#8])
    | 2 => c.key.fuses.ownerRoot.map fun r => kdf r "CKH-ROOT" (c.serialBytes ++ [2#8])
    | _ => some (kdf Config.huk "CKH-ROOT-RET" c.serialBytes)

/-- The key check value (R407). -/
def keyCheck (k : Key256) : Word := (Config.hmacSha256 k (asciiBytes "CKH-KCV")).extractLsb' 224 32

/-- The 32 bytes that eight registers hold from a field on. -/
def Chip.read256 (c : Chip) (f : Nat → Field) : Key256 :=
  (List.range 8).foldl (fun a k => (a <<< (32 : Nat)) ||| BitVec.ofNat 256 (c.get (f k))) 0

/-- Shows a 256-bit value in eight registers. -/
def Chip.show256 (f : Nat → Field) (k : Key256) (c : Chip) : Chip :=
  c.each (List.range 8) fun n c => c.put (f n) (k.extractLsb' (224 - 32 * n) 32).toNat

/-- The fixed engines of a pair (Table 13-3). -/
def pairEngines (pair : Nat) : Nat :=
  match pair with
  | 0 => 7 | 1 => 8 | 2 => 16 | 3 => 32 | 4 => 1 | 7 => 2 | 10 => 4 | _ => 0

/-- The slot of a pair that a commit writes: the one that is not ACTIVE. -/
def Chip.freeSlot (c : Chip) (pair : Nat) : Nat :=
  let a := c.key.slot (2 * pair)
  if a.valid && a.active then 2 * pair + 1 else 2 * pair

/-- Commits a key (R406): the written slot becomes ACTIVE; the other is cleared, or on pair 0 stays VALID as the
previous FLR. -/
def Chip.commitKey (pair : Nat) (k : Key256) (engines origin : Nat) (bind : Bool) (version : Nat) (c : Chip) : Chip :=
  let n := c.freeSlot pair
  let other := if n = 2 * pair then 2 * pair + 1 else 2 * pair
  let (m, c) := (c.keyCount 89).drawMask
  let c := if pair = 0 then c.setSlot other { c.key.slot other with active := false } else c.clearSlot other
  c.setSlot n {
    valid := true, active := true, engines := engines, origin := origin, bindMeas := bind, version := version
    share := k ^^^ m, mask := m, salt := 0 }

/-- The active and the other slot of pair 0, for a link's cipher (R403, R404). -/
def Chip.flr (c : Chip) (p : Port) : Option Key256 × Option Key256 :=
  let a := c.key.slot 0
  let b := c.key.slot 1
  let prev := fun (x : Slot) => x.opens p.val && !x.active
  (c.pairKey p.val 0, if prev a then some a.key else if prev b then some b.key else none)

/-- In BLANK the fabric link root derives from TEST_ROOT (Table 13-2), unless no key may be derived from K_root (R398).
Marks: DEDUCED, log 53. -/
def Chip.blankFlr (c : Chip) : Chip :=
  match c.rootKey with
  | none => c
  | some r => c.when (c.get F.KEY_STATUS_LC == 0 && !(c.activeSlot 0).active) fun c => (c.keyCount 88).commitKey 0 (kdf r "CKH-FLR" []) 7 5 false 0

/-- MKB is derived once, at the end of the image load, and the Watermark key with it (R401). -/
def Chip.deriveMkb (c : Chip) : Chip :=
  match c.rootKey with
  | none => c
  | some r =>
    let meas := keyBytes (c.read256 F.KEY_MEAS_ROM) ++ keyBytes (c.read256 F.KEY_MEAS_FW) ++ keyBytes (c.read256 F.KEY_MEAS_CFG)
    let mkb := kdf r "CKH-MKB" meas
    let c := { c with key := { c.key with mkb := some mkb } }
    let c := ((c.keyCount 88).keyCount 88).commitKey 3 (kdf mkb "CKH-WMARK" c.serialBytes) 32 4 false 0
    c.put F.KEY_STATUS_MKB_VALID 1

/-- A firmware of another measurement clears MKB, AK, MS and every measurement-bound slot (R402). -/
def Chip.dropMkb (c : Chip) : Chip :=
  let c := { c with key := { c.key with mkb := none } }
  let c := c.each [2, 3, 6, 7] fun n c => c.clearSlot n
  let c := c.each (List.range 32) fun n c => c.when (c.key.slot n).bindMeas fun c => c.clearSlot n
  c.put F.KEY_STATUS_MKB_VALID 0

/-! Admission (R415 to R419). -/

def Chip.modAdm (p : Port) (f : Admission → Admission) (c : Chip) : Chip := { c with key := { c.key with adm := upd c.key.adm p f } }

/-- A KEYX request of the Lockkeeper (R415: R112 and R114 apply). -/
def Chip.keyxRequest (p : Port) (payload : List Byte) (c : Chip) : Chip :=
  let seq := c.tp[p].nextSeq
  let c := c.request p 0xB payload true (c.on (F.LNK_TP_STATUS_PARTNER_SEEN p))
  (c.put (F.LNK_TP_RESULT_RESULT p) 0).put (F.LNK_TP_RESULT_SEQ p) seq

/-- A KEYX answer of the Lockkeeper to the request with SEQ `seq`. Marks: DEDUCED, log 53. -/
def Chip.keyxAnswer (p : Port) (seq : Nat) (payload : List Byte) (c : Chip) : Chip :=
  c.sendAnswerFw p (tpHeader 0xB seq payload.length true false false) payload

/-- FAIL payload (Table 13-6). -/
def keyxFail (reason : Nat) : List Byte := [3#8, BitVec.ofNat 8 reason, 0#8, 0#8]

/-- HELLO_K payload (Table 13-6). -/
def Chip.helloK (c : Chip) (p : Port) (nonce : Key256) : List Byte :=
  let kcv := fun (k : Option Key256) => match k with | some k => (keyCheck k).toNat | none => 0
  [1#8, BitVec.ofNat 8 (c.get (F.LNK_CTL_CIPHER_EN p)), 0#8, 0#8] ++ c.serialBytes ++ keyBytes nonce
    ++ beBytes 4 (kcv (c.flr p).1) ++ beBytes 4 (kcv (c.flr p).2)

/-- An admission ends unadmitted (R418). Marks: DEDUCED, log 53. -/
def Chip.admissionFailed (p : Port) (reason : Nat) (c : Chip) : Chip :=
  let c := (c.inc (F.KEY_P_ADMIT_FAIL p)).flag F.KEY_INT_STATUS_ADMIT_FAIL
  let c := ((c.keyCount 93).put (F.KEY_P_STATUS_LAST_FAIL p) reason).raiseLink p 0x13 reason
  let c := (c.clearPortKeys p).startBackoff p
  c.portUnrouted p

/-- L starts the exchange with HELLO_K (R415). Without entropy or under TAINT there is no admission (R424, R426), and none while
LNK_CTL.EN is clear (03 R523). -/
def Chip.startAdmission (p : Port) (c : Chip) : Chip :=
  if !c.lkRun || c.lkp.noAdmit || !c.on (F.LNK_CTL_EN p) then c
  else if c.on F.KEY_STATUS_TAINT then c.admissionFailed p 5
  else if !c.on F.KEY_STATUS_ENTROPY_OK then c.admissionFailed p 4
  else
    let (n, c) := c.drawKey
    let hello := c.helloK p n
    let c := c.modAdm p fun a => { a with phase := .helloSent, ownNonce := n, ownHello := hello, peerHello := [], chosen := none }
    (c.put (F.KEY_P_STATUS_ADMIT p) 1).keyxRequest p hello

/-- Which FLR of L both ends choose (R416), from the KCVs of L (active, previous) and of H: false for L's active. -/
def chooseFlr (la lp ha hp : Nat) : Option Bool :=
  let hits := fun (x y : Nat) => x != 0 && x == y
  if hits la ha then some false
  else if hits lp ha then some true
  else if hits la hp then some false
  else if hits lp hp then some true
  else none

/-- The own FLR with a key check value. -/
def Chip.flrOf (c : Chip) (p : Port) (kcv : Nat) : Option Key256 :=
  match (c.flr p).1, (c.flr p).2 with
  | some a, some b => if (keyCheck a).toNat = kcv then some a else if (keyCheck b).toNat = kcv then some b else none
  | some a, none => if (keyCheck a).toNat = kcv then some a else none
  | none, some b => if (keyCheck b).toNat = kcv then some b else none
  | none, none => none

/-- The own end is L, the end with the lower device serial. -/
def Chip.isLower (c : Chip) (p : Port) : Bool := decide (c.serial < c.partnerSerial p)

/-- The FLR that both HELLO_K payloads choose, as the key and whether it is L's previous one. -/
def Chip.chosenFlr (c : Chip) (p : Port) (own peer : List Byte) : Option (Key256 × Bool) :=
  let (l, h) := if c.isLower p then (own, peer) else (peer, own)
  let la := fieldAt l 44 4
  let lp := fieldAt l 48 4
  match chooseFlr la lp (fieldAt h 44 4) (fieldAt h 48 4) with
  | none => none
  | some prev => (c.flrOf p (if prev then lp else la)).map fun k => (k, prev)

/-- The session key S of two HELLO_K payloads (R417, Table 13-2). -/
def Chip.sessionKey (c : Chip) (p : Port) (flr : Key256) (own peer : List Byte) : Key256 :=
  let (l, h) := if c.isLower p then (own, peer) else (peer, own)
  let serial := fun (x : List Byte) => (x.drop 4).take 8
  let nonce := fun (x : List Byte) => (x.drop 12).take 32
  kdf flr "CKH-LINK" (serial l ++ serial h ++ nonce l ++ nonce h)

/-- The MAC of a CONFIRM (R417). -/
def Chip.confirmMac (c : Chip) (p : Port) (flr : Key256) (own peer : List Byte) (tag : Byte) : Key256 :=
  let (l, h) := if c.isLower p then (own, peer) else (peer, own)
  Config.hmacSha256 (kdf (c.sessionKey p flr own peer) "CKH-CONF" []) (tag :: (l ++ h))

/-- S and K_conf are derived once both HELLO_K payloads have chosen an FLR (R417), which counts (R427). -/
def Chip.deriveSession (p : Port) (c : Chip) : Chip := c.when c.key.adm[p].chosen.isSome fun c => (c.keyCount 88).keyCount 88

/-- CONFIRM payload. -/
def confirmPayload (prev : Bool) (mac : Key256) : List Byte := [2#8, BitVec.ofNat 8 prev.toNat, 0#8, 0#8] ++ keyBytes mac

/-- S and the epoch 0 keys of both directions are committed and the port is admitted (R417, R419). -/
def Chip.admitted (p : Port) (flr : Key256) (prev : Bool) (c : Chip) : Chip :=
  let a := c.key.adm[p]
  let cipher := fun (x : List Byte) => (x.getD 1 0#8).getLsbD 0
  let again := c.on (F.LNK_STATUS_ADMITTED p)
  let k := c.sessionKey p flr a.ownHello a.peerHello
  let c := c.clearPortKeys p
  let c := c.commitKey (sessionSlot p / 2) k (linkEngine p) 2 false 0
  let c := (c.deriveTx p 0).deriveRx p 0
  let c := c.put (F.LNK_STATUS_ADMITTED p) 1
  let c := (c.put (F.KEY_P_STATUS_ADMIT p) 2).put (F.KEY_P_STATUS_CIPHER p) (cipher a.ownHello || cipher a.peerHello).toNat
  let c := (c.put (F.KEY_P_STATUS_FLR_PREV p) prev.toNat).put (F.KEY_P_STATUS_BACKOFF p) 0
  let c := c.modAdm p fun a => { a with phase := .idle, chosen := none, fails := 0 }
  let c := c.when (c.alarmStands 0x13 p.val) fun c => c.raiseLink p 0x13 0 true
  c.when (!again) (Chip.portAdmitted p)

/-- KEYX_HELLO_K_RX: H answers a request; L, on the answer, chooses the FLR and sends CONFIRM (R415 to R418). -/
def Chip.helloKRx (p : Port) (hdr : Word) (payload : List Byte) (c : Chip) : Chip :=
  let serialBad := fieldAt payload 4 8 != c.partnerSerial p
  let phase := c.key.adm[p].phase
  if tpRsp hdr then
    if phase ≠ .helloSent then c
    else if serialBad then (c.keyxRequest p (keyxFail 6)).admissionFailed p 6
    else
      let own := c.key.adm[p].ownHello
      match c.chosenFlr p own payload with
      | none => (c.keyxRequest p (keyxFail 1)).admissionFailed p 1
      | some (k, prev) =>
        let c := c.modAdm p fun a => { a with phase := .confirmSent, peerHello := payload, chosen := some (k, prev) }
        (c.deriveSession p).keyxRequest p (confirmPayload prev (c.confirmMac p k own payload 1#8))
  else
    let answer := fun (l : List Byte) (c : Chip) => c.keyxAnswer p (tpSeq hdr) l
    if phase = .backoff then answer (keyxFail 3) c
    else if serialBad then (answer (keyxFail 6) c).admissionFailed p 6
    else if c.on F.KEY_STATUS_TAINT then (answer (keyxFail 5) c).admissionFailed p 5
    else if !c.on F.KEY_STATUS_ENTROPY_OK then (answer (keyxFail 4) c).admissionFailed p 4
    else
      let (n, c) := c.drawKey
      let hello := c.helloK p n
      let c := c.modAdm p fun a =>
        { a with phase := .helloAnswered, ownNonce := n, ownHello := hello, peerHello := payload, chosen := c.chosenFlr p hello payload }
      answer hello ((c.deriveSession p).put (F.KEY_P_STATUS_ADMIT p) 1)

/-- KEYX_CONFIRM_RX (R417). -/
def Chip.confirmRx (p : Port) (hdr : Word) (payload : List Byte) (c : Chip) : Chip :=
  let a := c.key.adm[p]
  let mac := keyOfBytes ((payload.drop 4).take 32)
  match a.chosen with
  | none =>
    if tpRsp hdr then c
    else c.when (a.phase = .helloAnswered) fun c => (c.keyxAnswer p (tpSeq hdr) (keyxFail 1)).admissionFailed p 1
  | some (k, prev) =>
    if tpRsp hdr then
      if a.phase ≠ .confirmSent then c
      else if c.confirmMac p k a.ownHello a.peerHello 2#8 = mac then c.admitted p k prev
      else (c.keyxRequest p (keyxFail 2)).admissionFailed p 2
    else if a.phase ≠ .helloAnswered then c
    else if c.confirmMac p k a.ownHello a.peerHello 1#8 = mac ∧ (fieldAt payload 1 1 = 1 ↔ prev = true) then
      let reply := confirmPayload prev (c.confirmMac p k a.ownHello a.peerHello 2#8)
      (c.admitted p k prev).keyxAnswer p (tpSeq hdr) reply
    else (c.keyxAnswer p (tpSeq hdr) (keyxFail 2)).admissionFailed p 2

/-- KEYX_FAIL_RX (R418): a FAIL request is answered empty; either way the admission in progress ends. -/
def Chip.failRx (p : Port) (hdr : Word) (payload : List Byte) (c : Chip) : Chip :=
  let c := c.when (!tpRsp hdr) fun c => c.keyxAnswer p (tpSeq hdr) []
  let phase := c.key.adm[p].phase
  c.when (phase != .idle && phase != .backoff) fun c => c.admissionFailed p (fieldAt payload 1 1)

/-- A KEYX frame that the Lockkeeper takes (Table 13-6). -/
def Chip.keyxFrame (p : Port) (hdr : Word) (payload : List Byte) (c : Chip) : Chip :=
  if !c.lkRun || c.lkp.noAdmit || !c.on (F.TRK_STATUS_LINK_UP p) || !c.on (F.LNK_CTL_EN p) then c
  else
    match fieldAt payload 0 1, payload.length with
    | 1, 52 => c.helloKRx p hdr payload
    | 2, 36 => c.confirmRx p hdr payload
    | 3, 4 => c.failRx p hdr payload
    | _, _ => c

end Sys2Proof.Machine
end

