-- ==== Sys2Proof/Machine/Keys.lean ====
section
/-! DEFINITION. The commands of the key store (13): fuses, provisioning, Watermark, admission timers, re-masking, entropy
and test access. The commands that are register writes are run by the access path with the operations here. -/

namespace Sys2Proof.Machine

/-! Fuses (R397, R414). -/

/-- A life-cycle transition that R397 permits. -/
def Chip.lcPermitted (c : Chip) (target : Nat) : Bool :=
  let now := c.get F.KEY_STATUS_LC_FUSED
  match target with
  | 1 => now == 0 && c.key.fuses.ownerRoot.isSome && c.key.fuses.ownerPkh.isSome
  | 2 => now == 1
  | 3 => true
  | _ => false

/-- A KEY_LC_CMD command ends: CONFIRM is cleared, RESULT and LC_DONE set. -/
def Chip.lcEnds (result : Nat) (c : Chip) : Chip :=
  ((c.put F.KEY_LC_CMD_RESULT result).put F.KEY_LC_CMD_CONFIRM 0).flag F.KEY_INT_STATUS_LC_DONE

/-- KEY_LC_CMD.GO or SVN_ADVANCE begins: programming runs until LC_CMD_DONE. `cmd` is TARGET, or 4 for SVN_ADVANCE. -/
def Chip.lcStart (cmd : Nat) (c : Chip) : Chip := { c with key := { c.key with lcCmd := some cmd } }

/-- What the registers show of the life-cycle and SVN fuses. -/
def Chip.showFuses (c : Chip) : Chip :=
  (c.put F.KEY_STATUS_LC_FUSED (lifeCycle c.key.fuses.pattern)).put F.KEY_STATUS_MIN_SVN c.key.fuses.svn

/-- LC_CMD_DONE (R397, R414): the target's fuses are blown, or MIN_SVN rises to the running firmware's SVN and never
falls; RESULT 1, or 3 with FUSE_ERR where programming fails and leaves each of them blown or intact. -/
def Chip.lcDone (fuseOk : Bool) (c : Chip) : Chip :=
  match c.key.lcCmd with
  | none => c
  | some cmd =>
    let part := if fuseOk then c else c.fusesPart
    let c := { part with key := { part.key with lcCmd := none } }
    if !fuseOk then (c.showFuses.flag F.KEY_INT_STATUS_FUSE_ERR).lcEnds 3
    else
      let f := if cmd = 4 then { c.key.fuses with svn := max c.key.fuses.svn (c.get F.KEY_STATUS_FW_SVN) } else c.key.fuses.blow (lcFuses cmd)
      ({ c with key := { c.key with fuses := f } }.showFuses).lcEnds 1

def execLcCmdDone (fuseOk : Bool) (s : State) : Host.Outcome State Fault Refusal :=
  s.onChip fun c => c.when c.running (Chip.lcDone fuseOk)

/-! Provisioning (R408, R409). -/

/-- The bytes of KEY_PROV_BUF. -/
def Chip.provBytes (c : Chip) : List Byte := (List.range 24).flatMap fun k => beBytes 4 (c.get (F.KEY_PROV_BUF k))

/-- KEY_PROV_CMD.GO: the record is taken in process. -/
def Chip.provGo (c : Chip) : Chip := { c.put F.KEY_PROV_CMD_BUSY 1 with key := { c.key with prov := some c.provBytes } }

/-- The key import key of a record (Table 13-2). -/
def Chip.importKey (c : Chip) (bind : Bool) : Option Key256 :=
  (if bind then c.key.mkb else c.rootKey).map fun k => kdf k "CKH-KIK" c.serialBytes

/-- All bytes zero. -/
def zeroBytes (l : List Byte) : Bool := l.all fun b => b == 0#8

/-- Step 1 of R409: MAGIC, VERSION, a defined OP and zero reserved bytes. -/
def provFormatOk (r : List Byte) : Bool :=
  let op := fieldAt r 3 1
  fieldAt r 0 2 == 0x4B50 && fieldAt r 2 1 == 1 && decide (1 ≤ op ∧ op ≤ 4) && zeroBytes ((r.drop 6).take 2)
    && zeroBytes ((r.drop 19).take 5) && zeroBytes ((r.drop 88).take 8) && fieldAt r 5 1 / 64 == 0 && fieldAt r 18 1 / 2 == 0
    && (op != 4 || zeroBytes ((r.drop 24).take 32))

/-- Does step 4 of R409 come, and with it a derived key import key? -/
def Chip.provUnwraps (c : Chip) (r : List Byte) : Bool :=
  provFormatOk r && fieldAt r 8 8 == c.serial && (fieldAt r 18 1 != 1 || c.on F.KEY_STATUS_MKB_VALID) && (c.importKey (fieldAt r 18 1 == 1)).isSome

/-- Step 4 of R409: the unwrapped bytes, when the tag holds. -/
def Chip.unwrap (c : Chip) (r : List Byte) : Option (List Byte) :=
  match c.importKey (fieldAt r 18 1 == 1) with
  | none => none
  | some k => Config.gcmOpenBytes k (BitVec.ofNat 96 (fieldAt r 56 12)) (r.take 24)
      (if fieldAt r 3 1 = 4 then [] else (r.drop 24).take 32) (BitVec.ofNat 128 (fieldAt r 68 16))

/-- The outcome of a record (R409): RESULT of the first check that fails, or the value to act on. Marks: DEDUCED, log 53. -/
def Chip.provCheck (c : Chip) (r : List Byte) : Except Nat Key256 :=
  let op := fieldAt r 3 1
  let pair := fieldAt r 4 1
  if !provFormatOk r then .error 2
  else if fieldAt r 8 8 ≠ c.serial then .error 3
  else if fieldAt r 18 1 = 1 ∧ !c.on F.KEY_STATUS_MKB_VALID then .error 9
  else
    match c.unwrap r with
    | none => .error 4
    | some v =>
      let k := keyOfBytes v
      let own := op == 2 || op == 3
      let slotPair := pair == 0 || pair == 2 || (decide (13 ≤ pair) && decide (pair ≤ 15))
      let fused := if op = 2 then c.key.fuses.ownerRoot.isSome else c.key.fuses.ownerPkh.isSome
      if op ≠ 4 ∧ (keyCheck k).toNat ≠ fieldAt r 84 4 then .error 5
      else if !own && (!slotPair || (decide (13 ≤ pair) && fieldAt r 5 1 % 64 &&& 0x27 != 0)) then .error 6
      else if own && (c.get F.KEY_STATUS_LC != 0 || fused) then .error 7
      else .ok k

/-- The action of a record (R409 step 7). -/
def Chip.provAct (r : List Byte) (k : Key256) (fuseOk : Bool) (c : Chip) : Nat × Chip :=
  let pair := fieldAt r 4 1
  let engines := if pair = 0 then 7 else if pair = 2 then 16 else fieldAt r 5 1 % 64
  match fieldAt r 3 1 with
  | 1 => (1, c.commitKey pair k engines 1 (fieldAt r 18 1 == 1) (fieldAt r 16 2))
  | 4 => (1, c.clearSlot (c.freeSlot pair))
  | op =>
    if !fuseOk then (8, c.flag F.KEY_INT_STATUS_FUSE_ERR)
    else if op = 2 then (1, { c with key := { c.key with fuses := { c.key.fuses with ownerRoot := some k } } })
    else (1, { c with key := { c.key with fuses := { c.key.fuses with ownerPkh := some k } } }.show256 F.KEY_OWNER_PKH k)

/-- PROV_RECORD_DONE: the record ends, its buffer is zeroed and RESULT set. -/
def Chip.provDone (fuseOk : Bool) (c : Chip) : Chip :=
  match c.key.prov with
  | none => c
  | some r =>
    let check := c.provCheck r
    let c := c.when (c.provUnwraps r) fun c => c.keyCount 88
    let (res, c) := match check with
      | .error n => (n, c)
      | .ok k => c.provAct r k fuseOk
    let c := c.when (res != 1) fun c => c.keyCount 91
    let c := c.each (List.range 24) fun k c => c.put (F.KEY_PROV_BUF k) 0
    let c := { c with key := { c.key with prov := none } }
    ((c.put F.KEY_PROV_CMD_BUSY 0).put F.KEY_PROV_CMD_RESULT res).flag F.KEY_INT_STATUS_PROV_DONE

def execProvRecordDone (fuseOk : Bool) (s : State) : Host.Outcome State Fault Refusal :=
  s.onChip fun c => c.when c.running (Chip.provDone fuseOk)

/-! Watermark (R410 to R412). -/

/-- The 131 bytes of Table 13-5. -/
def Chip.watermarkInput (c : Chip) : List Byte :=
  keyBytes (c.read256 F.KEY_WM_NONCE) ++ keyBytes (c.read256 F.KEY_MEAS_ROM) ++ keyBytes (c.read256 F.KEY_MEAS_FW)
    ++ keyBytes (c.read256 F.KEY_MEAS_CFG) ++ [BitVec.ofNat 8 (c.get F.KEY_STATUS_LC)]
    ++ beBytes 2 ((c.on F.FAB_ID_ID_VALID).toNat * 2 ^ 15 + c.get F.FAB_ID_HUB_ID)

/-- KEY_WM_CMD.GO: the computation begins. -/
def Chip.watermarkGo (session : Bool) (c : Chip) : Chip := (c.put F.KEY_WM_CMD_SESSION session.toNat).put F.KEY_WM_CMD_BUSY 1

/-- WATERMARK_DONE (R411, R412): the result is placed, and with SESSION the session key committed. -/
def Chip.watermarkDone (c : Chip) : Chip :=
  let session := c.on F.KEY_WM_CMD_SESSION
  let c := c.put F.KEY_WM_CMD_BUSY 0
  let c :=
    if c.on F.KEY_STATUS_TAINT || !c.on F.KEY_STATUS_MKB_VALID || !(c.activeSlot 3).opens engineAttest then
      ((c.countSlotRefused engineAttest (c.activeSlot 3)).put F.KEY_WM_CMD_RESULT (if c.on F.KEY_STATUS_TAINT then 3 else 2)).when (!c.on F.KEY_STATUS_MKB_VALID) (Chip.show256 F.KEY_WM_RESULT 0)
    else
      let ak := (c.activeSlot 3).key
      let c := ((c.show256 F.KEY_WM_RESULT (Config.hmacSha256 ak c.watermarkInput)).put F.KEY_WM_CMD_RESULT 1).keyCount 92
      c.when session fun c =>
        let c := (c.keyCount 88).commitKey 1 (kdf ak "CKH-MGMT" (keyBytes (c.read256 F.KEY_WM_NONCE))) 8 3 false 0
        -- a new session counts its attested requests afresh (16 R479)
        { c with lkp := { c.lkp with lastSseq := none } }
  c.flag F.KEY_INT_STATUS_WM_DONE

def execWatermarkDone (s : State) : Host.Outcome State Fault Refusal :=
  s.onChip fun c => c.when (c.running && c.on F.KEY_WM_CMD_BUSY) Chip.watermarkDone

/-! Admission (R415 to R418). -/

/-- ADMISSION_START: the end with the lower serial starts at link up. -/
def execAdmissionStart (p : Port) (s : State) : Host.Outcome State Fault Refusal :=
  s.onChip fun c => c.when (c.on (F.TRK_STATUS_LINK_UP p) && !c.on (F.LNK_STATUS_ADMITTED p) && c.isLower p
    && c.key.adm[p].phase == .idle) (Chip.startAdmission p)

/-- ADMIT_TIMEOUT (R418): LAST_FAIL 7. -/
def execAdmitTimeout (p : Port) (s : State) : Host.Outcome State Fault Refusal :=
  s.onChip fun c => c.when (c.key.adm[p].phase != .idle && c.key.adm[p].phase != .backoff) (Chip.admissionFailed p 7)

/-- ADMIT_BACKOFF_EXPIRY (R418): L tries again. -/
def Chip.backoffEnds (p : Port) (c : Chip) : Chip :=
  let c := (c.modAdm p fun a => { a with phase := .idle }).put (F.KEY_P_STATUS_ADMIT p) 0
  let c := c.put (F.KEY_P_STATUS_BACKOFF p) 0
  c.when (c.on (F.TRK_STATUS_LINK_UP p) && c.isLower p) (Chip.startAdmission p)

def execAdmitBackoffExpiry (p : Port) (s : State) : Host.Outcome State Fault Refusal :=
  s.onChip fun c => c.when (c.key.adm[p].phase == .backoff) (Chip.backoffEnds p)

/-- KEY_Px_CMD.READMIT (R415): barges wait as under R107, and L starts a new admission. Marks: DEDUCED, log 53. -/
def Chip.readmit (p : Port) (c : Chip) : Chip :=
  c.when (c.on (F.TRK_STATUS_LINK_UP p) && c.key.adm[p].phase != .backoff) fun c =>
    let c := c.when (c.on (F.LNK_STATUS_ADMITTED p)) (Chip.awaitAdmission p)
    c.when (c.isLower p) (Chip.startAdmission p)

/-! Re-masking (R405). -/

/-- One re-mask of a slot: a fresh mask (of the generator while the source has failed, R426), both shares complemented on a second pass. The key stays. -/
def Chip.remaskSlot (flip : Bool) (n : Nat) (c : Chip) : Chip :=
  let (m, c) := c.drawMask
  let x := c.key.slot n
  let k := x.key
  c.setSlot n (if flip then { x with share := ~~~(k ^^^ m), mask := ~~~m } else { x with share := k ^^^ m, mask := m })

/-- REMASK_PASS. -/
def Chip.remaskPass (c : Chip) : Chip :=
  let flip := c.key.second
  let c := c.each (List.range 32) (Chip.remaskSlot flip)
  let c := c.when flip fun c => c.put F.KEY_STATUS_REMASK_POL (1 - c.get F.KEY_STATUS_REMASK_POL)
  { c.keyCount 90 with key := { c.key with second := !flip } }

def execRemaskPass (s : State) : Host.Outcome State Fault Refusal := s.onChip fun c => c.when c.running Chip.remaskPass

/-! Entropy (R426). -/

def execEntropyHealthFail (s : State) : Host.Outcome State Fault Refusal :=
  s.onChip fun c => c.when c.running fun c =>
    ((c.put F.KEY_STATUS_ENTROPY_OK 0).flag F.KEY_INT_STATUS_ENTROPY_FAIL).raiseOwn 0x39 0xFF 0

/-- A health test passes again; the alarm's condition ends. -/
def execEntropyHealthPass (s : State) : Host.Outcome State Fault Refusal :=
  s.onChip fun c => c.when c.running fun c =>
    (c.when (c.alarmStands 0x39 0xFF) fun c => c.clearOwn 0x39 0xFF 0).put F.KEY_STATUS_ENTROPY_OK 1

/-! Test access (R423 to R425). -/

/-- The secrets are cleared before a private instruction takes effect (R424). -/
def Chip.clearSecrets (c : Chip) : Chip :=
  let c := c.each (List.range 32) fun n c => c.clearSlot n
  let c := c.each ports fun p c => ((c.clearPortKeys p).admissionEnds p).portUnrouted p
  let c := { c with key := { c.key with mkb := none } }
  let c := ((c.put F.KEY_STATUS_MKB_VALID 0).put F.KEY_STATUS_ROOT_OK 0).put F.KEY_STATUS_TAINT 1
  ((c.put F.KEY_STATUS_TAP_OPEN 1).flag F.KEY_INT_STATUS_TAP_CLEAR).keyCount 95

/-- TAP_PRIVATE_INSTRUCTION (R423): granted at once in BLANK, after clearing in PROVISIONED and RETURNED, in DEPLOYED only
once unlocked; otherwise it acts as BYPASS. Marks: DEDUCED, log 53. -/
def Chip.privateInstruction (c : Chip) : Chip :=
  match c.get F.KEY_STATUS_LC with
  | 0 => c.put F.KEY_STATUS_TAP_OPEN 1
  | 2 => c.when c.key.unlocked Chip.clearSecrets
  | _ => c.clearSecrets

def execTapPrivateInstruction (s : State) : Host.Outcome State Fault Refusal := s.onChip Chip.privateInstruction

/-- UNLOCK_CHAL_CAPTURE (R425, R426): a fresh nonce leaves through the port; refused without entropy. -/
def Chip.captureChallenge (c : Chip) : Chip :=
  c.when (c.get F.KEY_STATUS_LC == 2 && c.on F.KEY_STATUS_ENTROPY_OK) fun c =>
    let (n, c) := c.drawKey
    { c.emit (.unlockNonce n) with key := { c.key with challenge := some n } }

def execUnlockChalCapture (s : State) : Host.Outcome State Fault Refusal := s.onChip Chip.captureChallenge

/-- UNLOCK_RESP_WRITE (R425): the right response unlocks until POR; a wrong one blocks further responses.
Marks: DEDUCED, log 53. -/
def Chip.unlockResponse (resp : Key256) (c : Chip) : Chip :=
  if c.get F.KEY_STATUS_LC ≠ 2 ∨ c.key.blocked then c
  else
    let c := c.when (c.key.challenge.isSome && c.rootKey.isSome) fun c => c.keyCount 88
    let right := match c.key.challenge, c.rootKey with
      | some n, some r => Config.hmacSha256 (kdf r "CKH-TAP" c.serialBytes) (keyBytes n) == resp
      | _, _ => false
    if right then { c with key := { c.key with unlocked := true, wrong := 0 } }
    else { c.keyCount 94 with key := { c.key with wrong := c.key.wrong + 1, blocked := true } }

def execUnlockRespWrite (response : BitVec 256) (s : State) : Host.Outcome State Fault Refusal :=
  s.onChip (Chip.unlockResponse response)

/-- UNLOCK_BLOCK_EXPIRY (R425): the block of 2^(wrong − 1) s, at most 64 s, has ended. -/
def execUnlockBlockExpiry (s : State) : Host.Outcome State Fault Refusal :=
  s.onChip fun c => { c with key := { c.key with blocked := false } }

end Sys2Proof.Machine
end

