-- ==== Sys2Proof/Machine/Gates.lean ====
section
/-! DEFINITION. Time gates, takeovers, weir commits and the scheduler's readback (06 R199, R205 to R208, R223, R528). -/

namespace Sys2Proof.Machine

/-! Gate lists (R206, R528). -/

/-- The active bank of a port. -/
def Chip.gateBank (c : Chip) (e : Nat) : Nat := c.get (F.SCH_P_GATE_STATUS_BANK e)

/-- The run of a port's active bank. -/
def Chip.gateRun (c : Chip) (e : Nat) : GateRun := c.sch.gates.toList.getD e ⟨false, 0, 0⟩

def Chip.setGateRun (c : Chip) (e : Nat) (r : GateRun) : Chip := c.modSch fun s => { s with gates := s.gates.setIfInBounds e r }

/-- Shows entry `n` of the active bank as the one in force; an empty bank keeps every group open. -/
def Chip.showGate (c : Chip) (e n : Nat) : Chip :=
  let k := c.gateBank e
  (c.put (F.SCH_P_GATE_STATUS_ENTRY e) n).put (F.SCH_P_GATE_STATUS_OPEN e) (if c.gateEmpty e k then 0xFF else c.gateMask e k n)

/-- GATE_ENTRY_ADVANCE (R206): the next entry takes over; the last entry's mask holds until the cycle ends. -/
def Chip.gateAdvance (e : Nat) (c : Chip) : Chip :=
  let k := c.gateBank e
  let n := c.get (F.SCH_P_GATE_STATUS_ENTRY e)
  let r := c.gateRun e
  if !r.running || c.gateEmpty e k || n == 255 || c.gateDur e k (n + 1) == 0 then c
  else (c.setGateRun e { r with entryAt := (r.entryAt + 8 * c.gateDur e k n) % timeSpan }).showGate e (n + 1)

def execGateEntryAdvance (port : DPort) (s : State) : Host.Outcome State Fault Refusal := s.onChip (Chip.gateAdvance port.val)

/-- GATE_CYCLE_START (R206): entry 0 of the active bank starts again. -/
def Chip.gateCycleStart (e : Nat) (c : Chip) : Chip :=
  let r := c.gateRun e
  if !r.running then c
  else
    let t := (r.cycleAt + c.gateCycle e (c.gateBank e)) % timeSpan
    (c.setGateRun e { r with cycleAt := t, entryAt := t }).showGate e 0

def execGateCycleStart (port : DPort) (s : State) : Host.Outcome State Fault Refusal := s.onChip (Chip.gateCycleStart port.val)

/-- Bank 0 of every port that does not run yet starts at the first frame tick after the image load (R528). -/
def Chip.gatesInitial (c : Chip) : Chip :=
  if !c.cfg.loaded then c
  else c.each portList fun e c =>
    if (c.gateRun e).running then c else (c.setGateRun e { running := true, cycleAt := c.fabricTime, entryAt := c.fabricTime }).showGate e 0

/-- The entry of a bank that holds `at_` ns into its cycle, and when in the cycle it began (R206). -/
def Chip.gatePlace (c : Chip) (e k at_ : Nat) : Nat → Nat → Nat → Nat × Nat
  | 0, n, from_ => (n, from_)
  | fuel + 1, n, from_ =>
    let next := from_ + 8 * c.gateDur e k n
    if n == 255 || c.gateDur e k (n + 1) == 0 || decide (at_ < next) then (n, from_) else c.gatePlace e k at_ fuel (n + 1) next

/-- After a step of local time, the running list stands where that time puts it: cycles fall at whole multiples of the cycle from
where they are counted (R206, R528). Marks: DEDUCED, log 86. -/
def Chip.gateReplace (e : Nat) (c : Chip) : Chip :=
  let k := c.gateBank e
  let r := c.gateRun e
  if !r.running then c
  else
    let t := c.fabricTime
    let into := (timeDiff ((t : Int) - r.cycleAt) % c.gateCycle e k).toNat
    let (n, from_) := c.gatePlace e k into 256 0 0
    let back := fun (d : Nat) => (((t : Int) - d) % timeSpan).toNat
    (c.setGateRun e { r with cycleAt := back into, entryAt := back (into - from_) }).showGate e n

/-! Takeovers of gate banks (06 R208): a step of time may pass an armed one. -/

/-- The pending bank of a port becomes active at T. -/
def Chip.takeover (e : Nat) (c : Chip) : Chip :=
  let k := 1 - c.get (F.SCH_P_GATE_STATUS_BANK e)
  let t := c.takeTime e
  let c := (c.put (F.SCH_P_GATE_STATUS_BANK e) k).showGate e 0
  let c := (c.flag (F.SCH_P_GATE_STATUS_TOOK e)).put (F.SCH_P_TAKE_CTL_ARMED e) 0
  let c := c.flag F.SCH_INT_STATUS_GATE_TAKEOVER
  c.modSch fun s => { s with gates := s.gates.setIfInBounds e { running := true, cycleAt := t, entryAt := t } }

/-- Has local time reached the time of an armed takeover? -/
def Chip.takeoverDue (c : Chip) (e : Nat) : Bool := c.on (F.SCH_P_TAKE_CTL_ARMED e) && decide (timeDiff ((c.takeTime e : Int) - c.fabricTime) ≤ 0)

/-- Every armed takeover that is due. -/
def Chip.takeovers (c : Chip) : Chip := c.each portList fun e c => c.when (c.takeoverDue e) (Chip.takeover e)

/-- What a step of local time does to the gates: takeovers that it passes, and every list's place (R208). -/
def Chip.gatesStepped (c : Chip) : Chip := c.takeovers.each portList fun e c => c.gateReplace e

/-- GATE_TAKEOVER (R208): local time reaches T. -/
def execGateTakeover (port : DPort) (s : State) : Host.Outcome State Fault Refusal :=
  s.onChip fun c => c.when (c.on (F.SCH_P_TAKE_CTL_ARMED port)) (Chip.takeover port.val)

/-- Arms a takeover for the time written, unless it lies less than 10 µs ahead (R208). -/
def Chip.armTakeover (e : Nat) (c : Chip) : Chip :=
  if timeDiff ((c.takeTime e : Int) - c.fabricTime) < 10_000 then (c.flag (F.SCH_P_GATE_STATUS_LATE e)).flag F.SCH_INT_STATUS_GATE_LATE
  else c.put (F.SCH_P_TAKE_CTL_ARMED e) 1

/-- A write of SCH_Pp_TAKE_CTL that R208 allows: DISARM first, then SUBNS, then ARM. Marks: DEDUCED, log 24. -/
def Chip.takeCtlWrite (e : Nat) (v : Word) (c : Chip) : Chip :=
  let c := c.when (v.getLsbD 21) fun c => c.put (F.SCH_P_TAKE_CTL_ARMED e) 0
  let c := c.put (F.SCH_P_TAKE_CTL_SUBNS e) (wordField v 0 20)
  c.when (v.getLsbD 20) (Chip.armTakeover e)

/-! Weirs and shapers (R199, R205). -/

/-- Commits the staged words of a weir with its word 0 and fills both buckets (R205). -/
def Chip.weirCommit (n : Nat) (w0 : Word) (c : Chip) : Chip :=
  let c := (c.commitStaged [(F.SCH_WEIR1 n).off, (F.SCH_WEIR2 n).off]).put (F.SCH_WEIR0 n) w0.toNat
  c.modSch fun s => { s with
    weirs := (s.weirs.filter fun x => x.1 != n)
      ++ [(n, ⟨c.weirCbs n * creditUnit, c.now⟩, ⟨c.weirPbs n * creditUnit, c.now⟩)] }

/-- A queue's or a port's shaper is enabled, or its rate or burst written: its credit is its burst (R199). -/
def Chip.resetQueueShaper (e q : Nat) (c : Chip) : Chip :=
  c.modSch fun s => { s with queueCredit := s.queueCredit.filter fun x => x.1 != (e, q) }
def Chip.resetPortShaper (e : Nat) (c : Chip) : Chip :=
  c.modSch fun s => { s with portCredit := s.portCredit.filter fun x => x.1 != e }
def Chip.resetBulkShapers (c : Chip) : Chip := c.modSch fun s => { s with bulkCredit := [] }

/-- The rates of the bulk shapers may change after this instant: their credits stand as they are now (R201). -/
def Chip.settleBulk (c : Chip) : Chip :=
  c.modSch fun s => { s with bulkCredit := s.bulkCredit.map fun x => (x.1, ⟨c.bulkCredit x.1, c.now⟩) }

/-! The readback snapshot (R223). -/

/-- The values that SCH_Q_SEL's snapshot takes, by offset. -/
def Chip.queueSnapshot (e q : Nat) (c : Chip) : List (Nat × Word) :=
  if 9 < e then []
  else
    let tag := c.tagOf e q
    let w := ((c.sch.tags.find? fun x => x.1 == (e, q)).map fun x => x.2.2).getD 0
    let vt := c.sch.vt.toList.getD e 0
    let bytes := fun (x : Int) => BitVec.ofInt 32 (x / creditUnit)
    let head := c.headState e q
    let gateOk := match head with | some h => h.gate && h.guard_ | none => c.gateIsOpen e q
    let shaperOk := match head with | some h => h.shaper | none => c.queuePermits e q && c.portPermits e
    let state := w % 4096 + head.isSome.toNat * 2 ^ 12 + gateOk.toNat * 2 ^ 13 + shaperOk.toNat * 2 ^ 14 + (c.eligible e q).toNat * 2 ^ 15
    [ (F.SCH_Q_TAG_LO.off, BitVec.ofNat 32 tag), (F.SCH_Q_TAG_HI.off, BitVec.ofNat 32 (tag / 2 ^ 32 % 65536)),
      (F.SCH_Q_CREDIT.off, bytes (c.queueCredit e q)), (F.SCH_Q_STATE.off, BitVec.ofNat 32 state),
      (F.SCH_P_VT_LO.off, BitVec.ofNat 32 vt), (F.SCH_P_VT_HI.off, BitVec.ofNat 32 (vt / 2 ^ 32 % 65536)),
      (F.SCH_P_CREDIT.off, bytes (c.portCredit e)), (F.SCH_P_BULK_CREDIT.off, if e ≤ 2 then bytes (c.bulkCredit e) else 0#32) ]

/-- A write of SCH_Q_SEL takes the snapshot. -/
def Chip.takeQueueSnapshot (c : Chip) : Chip :=
  c.modSch fun s => { s with snap := c.queueSnapshot (c.get F.SCH_Q_SEL_PORT) (c.get F.SCH_Q_SEL_QUEUE) }

end Sys2Proof.Machine
end

