-- ==== Sys2Proof/Machine/Time.lean ====
section
/-! DEFINITION. Fabric time and discovery (04 R121, R155 to R161; 03 R102, R103): the master election, the offset and its
steering, the host's start-of-frame, and the announcements of the Lockkeepers. -/

namespace Sys2Proof.Machine

/-! The master election (R156). -/

/-- Does key `a` precede key `b`? Equal keys go to the lower port, which the order of comparison sees to. -/
def keyBefore (a b : MasterKey) : Bool :=
  if a.src != b.src then a.src
  else if a.id ≠ b.id then decide (a.id < b.id)
  else decide (a.hops < b.hops)

/-- The hub's own candidacy. -/
def Chip.ownKey (c : Chip) : Option MasterKey :=
  if c.headEnd && c.on F.FAB_TIME_CFG_MASTER_ELIG then
    c.ownId.map fun id => { src := c.fab.hostSof && c.on F.FAB_TIME_CFG_USB_LOCK_EN, id := id, hops := 0 }
  else none

/-- The best key with the port that carried it; 3 is the own candidacy. -/
def Chip.bestKey (c : Chip) : Option (Nat × MasterKey) :=
  let all := (c.ownKey.map fun k => (3, k)).toList
    ++ ports.filterMap fun (p : Port) => if c.on (F.LNK_STATUS_ADMITTED p) then c.fab.keys[p].map fun k => (p.val, k) else none
  all.foldl (fun best x =>
    match best with
    | none => some x
    | some b => if keyBefore x.2 b.2 then some x else some b) none

/-- Takes the best key; a change of master sets MASTER_CHANGE. A master with MASTER_SRC 0 runs from its crystal (R158).
Marks: DEDUCED, log 40. -/
def Chip.electMaster (c : Chip) : Chip :=
  let oldId := c.get F.FAB_TIME_STATUS_MASTER_ID
  let oldIs := c.get F.FAB_TIME_STATUS_IS_MASTER
  let c := match c.bestKey with
    | none => (c.put F.FAB_TIME_STATUS_IS_MASTER 0).put F.FAB_TIME_STATUS_UP_PORT 3
    | some (p, k) =>
      let c := (c.put F.FAB_TIME_STATUS_IS_MASTER (p == 3).toNat).put F.FAB_TIME_STATUS_UP_PORT p
      let c := (c.put F.FAB_TIME_STATUS_MASTER_SRC k.src.toNat).put F.FAB_TIME_STATUS_MASTER_HOPS k.hops
      c.put F.FAB_TIME_STATUS_MASTER_ID k.id
  let c := c.when (c.on F.FAB_TIME_STATUS_IS_MASTER && !c.on F.FAB_TIME_STATUS_MASTER_SRC) fun c => c.modFab fun f => { f with steer := 0 }
  c.when (oldId != c.get F.FAB_TIME_STATUS_MASTER_ID || oldIs != c.get F.FAB_TIME_STATUS_IS_MASTER) fun c =>
    c.flag F.FAB_INT_STATUS_MASTER_CHANGE

/-! Offsets and steps (R159, R160). -/

/-- Steps local fabric time (R160). -/
def Chip.stepTime (delta : Int) (c : Chip) : Chip :=
  let t := (((c.fabricTime : Int) + delta) % timeSpan).toNat
  let c := { c.put F.FAB_FRAME (t / 1_000_000) with subns := t % 1_000_000 }
  (c.flag F.FAB_INT_STATUS_TIME_STEP).gatesStepped

/-- Steers the rate by an offset `e` (R160): ahead, the hub slows, behind, it goes faster, within ±600 ppm (R158); by how much is a
free value (log 2). -/
def Chip.steerBy (e : Int) (c : Chip) : Chip :=
  let s := c.fab.steer
  let by_ := fun (v : Int) (c : Chip) => c.modFab fun f => { f with steer := max (-600_000) (min 600_000 v) }
  if e = 0 then c
  else if 0 < e then
    let (v, c) := c.draw ((s + 600_000).toNat + 1)
    by_ (s - v) c
  else
    let (v, c) := c.draw ((600_000 - s).toNat + 1)
    by_ (s + v) c

/-- Clears LOCKED and holds over (R160). -/
def Chip.unlockTime (c : Chip) : Chip :=
  let c := c.when (c.on F.FAB_TIME_STATUS_LOCKED) fun c => c.flag F.FAB_INT_STATUS_TIME_UNLOCK
  ((c.put F.FAB_TIME_STATUS_LOCKED 0).put F.FAB_TIME_STATUS_HOLDOVER 1).modFab fun f => { f with syncTicks := 0 }

/-- Sets LOCKED. -/
def Chip.lockTime (c : Chip) : Chip :=
  let c := c.when (!c.on F.FAB_TIME_STATUS_LOCKED) fun c => c.flag F.FAB_INT_STATUS_TIME_LOCK
  ((c.put F.FAB_TIME_STATUS_LOCKED 1).put F.FAB_TIME_STATUS_HOLDOVER 0).modFab fun f => { f with
    followed := let id := c.get F.FAB_TIME_STATUS_MASTER_ID
      (id, c.get F.FAB_TIME_STATUS_MASTER_HOPS) :: f.followed.filter fun x => x.1 != id }

/-- A time master that was lost is in a port's key again (14 R444). -/
def Chip.masterBack (id : Nat) (c : Chip) : Chip := c.clearAbout 0x40 fun e => e.subject == some id

/-- The offset of a TICK from the upstream port, and what follows from it (R160). -/
def Chip.takeOffset (p : Port) (t : TickBlock) (rxTime : Nat) (c : Chip) : Chip :=
  let e := timeDiff ((rxTime : Int) - c.getS (F.FAB_LINK_DLY_DELAY p) - t.lag.toNat - t.frame.toNat * 1_000_000)
  let c := c.putS F.FAB_OFFSET e
  let c := c.when (10_000 < e.natAbs) (Chip.stepTime (-e))
  let c := c.steerBy e
  if 1_000 < e.natAbs then c.unlockTime
  else if e.natAbs < 100 then
    let n := c.fab.syncTicks + 1
    let c := c.modFab fun f => { f with syncTicks := min n 16 }
    if 16 ≤ n then c.lockTime else c
  else c.modFab fun f => { f with syncTicks := 0 }

/-- TICK_RX (03 R102; R156, R160): the key of the port, the election, and from the upstream port the offset.
Marks: DEDUCED, log 40. -/
def Chip.tickRx (p : Port) (t : TickBlock) (rxTime : Nat) (c : Chip) : Chip :=
  if !c.on (F.LNK_STATUS_ADMITTED p) then c
  else
    let hops := t.hops.toNat + 1
    let c := c.when (t.locked && decide (hops ≤ 63)) fun c =>
      (c.modFab fun f => { f with keys := upd f.keys p fun _ => some { src := t.src, id := t.master.toNat, hops := hops } }).electMaster.masterBack t.master.toNat
    c.when (c.get F.FAB_TIME_STATUS_UP_PORT == p.val) (Chip.takeOffset p t rxTime)

/-- Sends the TICK block of the frame that begins (03 R102, R523), before blocks that wait. TX_LAG is a free value (log 2). A hub that is itself the master says
LOCKED. Marks: DESIGN CHOICE, log 80. -/
def Chip.sendTick (p : Port) (c : Chip) : Chip :=
  if !(c.on (F.TRK_STATUS_LINK_UP p) && c.on (F.LNK_CTL_EN p) && c.on (F.LNK_CTL_TICK_EN p)) || c.mooredPort p then c
  else
    let known := c.on F.FAB_TIME_STATUS_LOCKED || c.on F.FAB_TIME_STATUS_IS_MASTER
    let (lag, c) := c.draw 65536
    c.pcsSendFirst p ({
      frame := BitVec.ofNat 32 (c.get F.FAB_FRAME), lag := BitVec.ofNat 16 lag
      master := if known then BitVec.ofNat 10 (c.get F.FAB_TIME_STATUS_MASTER_ID) else 0
      hops := if known then BitVec.ofNat 6 (c.get F.FAB_TIME_STATUS_MASTER_HOPS) else 0
      locked := known, src := known && c.on F.FAB_TIME_STATUS_MASTER_SRC } : TickBlock).encode

/-- Inserts a number into an ascending list. -/
def insertAsc (x : Int) : List Int → List Int
  | [] => [x]
  | y :: l => if x ≤ y then x :: y :: l else y :: insertAsc x l

/-- The median of some values, 0 of none; of an even number, the lower middle one. Marks: DEDUCED, log 40. -/
def median (l : List Int) : Int :=
  let s := l.foldl (fun s x => insertAsc x s) []
  s.getD ((s.length - 1) / 2) 0

/-- DELAY_RESP_RX (03 R103; R159): T2 and T3 are the partner's, T1 the own time of the request. -/
def Chip.delayRespRx (p : Port) (dseq : Nat) (t2 t3 : BitVec 52) (t4 : Nat) (c : Chip) : Chip :=
  match c.lnk[p].delayReq with
  | none => c
  | some (n, t1) =>
    if n ≠ dseq then c
    else
      let ns := fun (t : BitVec 52) => (t.extractLsb' 20 32).toNat * 1_000_000 + (t.extractLsb' 0 20).toNat
      let d := (timeDiff ((t4 : Int) - t1) - timeDiff ((ns t3 : Int) - ns t2)) / 2
      let c := c.modLnk p fun l => { l with delayReq := none }
      let old := c.fab.delays[p]
      if 5 ≤ old.length && 50 < (d - median old).natAbs then c
      else
        let l := (d :: old).take 5
        let c := c.modFab fun f => { f with delays := upd f.delays p fun _ => l }
        (c.putS (F.FAB_LINK_DLY_DELAY p) (median l)).put (F.FAB_LINK_DLY_VALID p) (decide (5 ≤ l.length)).toNat

/-- TIME_KEY_LAPSE (R156). -/
def execTimeKeyLapse (p : Port) (s : State) : Host.Outcome State Fault Refusal :=
  s.onChip fun c => (c.modFab fun f => { f with keys := upd f.keys p fun _ => none }).electMaster

/-- UPSTREAM_TICK_TIMEOUT (R160). -/
def execUpstreamTickTimeout (s : State) : Host.Outcome State Fault Refusal :=
  s.onChip fun c => c.when (!c.on F.FAB_TIME_STATUS_IS_MASTER) Chip.unlockTime

/-- HOST_SOF_LOCK (R156, R157): the host's start-of-frame has come without a break for 8 ms; a master that follows it locks
to it, stepping once where it lies more than 10 µs away. -/
def Chip.hostSofLock (x : SofSeen) (c : Chip) : Chip :=
  let c := (c.modFab fun f => { f with hostSof := true }).electMaster
  if !(c.on F.FAB_TIME_STATUS_IS_MASTER && c.on F.FAB_TIME_STATUS_MASTER_SRC) then c
  else
    let first := !c.fab.sofLocked
    let ahead := x.offset + 8 * (c.get F.FAB_TIME_CFG_SOF_OFFSET : Int)
    let c := c.when (first && decide (10_000 < x.offset.natAbs)) (Chip.stepTime (-ahead))
    let c := c.when first fun c =>
      (c.put F.FAB_SOF_MAP_USB_FRAME x.usbFrame.toNat).put F.FAB_SOF_MAP_FRAME_LO (c.get F.FAB_FRAME % 2 ^ 21)
    let c := (c.modFab fun f => { f with sofLocked := true }).steerBy ahead
    c.when first fun c => c.each c.mapList Chip.sendSofOffset

def execHostSofLock (sof : SofSeen) (s : State) : Host.Outcome State Fault Refusal := s.onChip (Chip.hostSofLock sof)

/-- HOST_SOF_BREAK (R156): no start-of-frame for more than 3 ms. -/
def execHostSofBreak (s : State) : Host.Outcome State Fault Refusal :=
  s.onChip fun c => (c.modFab fun f => { f with hostSof := false, sofLocked := false }).electMaster

/-- TIME_MASTER_ABSENT (14 R445): a master that a locked hub followed has been in no port's key for 70 ms, also one that another master
has taken the place of since. Marks: DEDUCED, log 57. -/
def Chip.masterAbsent (c : Chip) : Chip :=
  let here := fun (x : Nat × Nat) => ports.any fun p => (c.fab.keys[p].map (·.id)) == some x.1
  let gone := c.fab.followed.filter fun x => !here x
  (c.modFab fun f => { f with followed := f.followed.filter here }).each gone fun x c => c.raise {
    code := 0x40, subject := some x.1, unit := 0xFF, hops := x.2, loc := 0, detail := 0, cleared := false, witness := true }

def execTimeMasterAbsent (s : State) : Host.Outcome State Fault Refusal := s.onChip Chip.masterAbsent

/-! Discovery (R121, R122). -/

/-- Hands an announcement to P8 for some trunk ports as LCTL barges. The queue, TSEQ and TSPEC are free values (log 2). -/
def Chip.announce (a : Announce) (l : List Port) (c : Chip) : Chip :=
  c.each l fun p c =>
    let (q, c) := c.draw 4
    let (t, c) := c.draw 65536
    let (x, c) := c.draw (2 ^ 32)
    let bytes := (Config.announceBytes a).take 1008
    let h := c.ownHeader (c.lnk[p].partnerId.getD 0) 0 q 2 0
    let b : Barge := {
      hdr := { h with tseq := BitVec.ofNat 16 t, tspec := BitVec.ofNat 32 x, len := BitVec.ofNat 10 bytes.length }, payload := bytes }
    c.modSwc fun w => { w with p8out := w.p8out ++ [(b, some p)] }

/-- The trunk ports that are admitted. -/
def Chip.admittedPorts (c : Chip) : List Port := ports.filter fun (p : Port) => c.on (F.LNK_STATUS_ADMITTED p)

/-- DISCOVERY_ANNOUNCE_TX (R121). -/
def Chip.announceOwn (c : Chip) : Chip :=
  let seq := c.fab.annSeq
  let a : Announce := {
    serial := BitVec.ofNat 64 c.serial, hub := BitVec.ofNat 10 (c.get F.FAB_ID_HUB_ID), idValid := c.on F.FAB_ID_ID_VALID
    roleHe := c.headEnd, ringId := BitVec.ofNat 8 (c.get F.FAB_RING_RING_ID), ringPos := BitVec.ofNat 6 (c.get F.FAB_RING_RING_POS)
    links := BitVec.ofNat 3 ((ports.map fun (p : Port) => c.get (F.TRK_STATUS_LINK_UP p) * 2 ^ p.val).foldl (· + ·) 0)
    seq := BitVec.ofNat 16 seq }
  (c.modFab fun f => { f with annSeq := (seq + 1) % 65536, annSeen := f.annSeen ++ [(a.hub.toNat, a.serial.toNat, seq)] }).announce a c.admittedPorts

def execDiscoveryAnnounceTx (s : State) : Host.Outcome State Fault Refusal := s.onChip fun c => c.when c.lkRun Chip.announceOwn

/-- DISCOVERY_ANNOUNCE_RX (R121, R122). -/
def Chip.announceRx (p : Port) (a : Announce) (c : Chip) : Chip :=
  let k := (a.hub.toNat, a.serial.toNat, a.seq.toNat)
  if c.fab.annSeen.contains k then c
  else
    let c := (c.modFab fun f => { f with annSeen := f.annSeen ++ [k] }).announce a (c.admittedPorts.filter fun q => q != p)
    c.when (c.ownId == some a.hub.toNat && c.serial != a.serial.toNat) Chip.duplicateId

def execDiscoveryAnnounceRx (p : Port) (a : Announce) (s : State) : Host.Outcome State Fault Refusal :=
  s.onChip fun c => c.when c.lkRun (Chip.announceRx p a)

end Sys2Proof.Machine
end

