-- ==== Sys2Proof/Machine/Link.lean ====
section
/-! DEFINITION. The link layer (03 R86 to R107, R523): barges on the link, per-hop replay, heartbeats, delay probes and
key epochs. -/

namespace Sys2Proof.Machine

/-! Sending (R86, R87, R90 to R92, R107). -/

/-- The nonce of a barge (R90): salt, 8 zero bits, epoch, TXC. -/
def linkNonce (salt : Word) (epoch txc : Nat) : BitVec 96 :=
  BitVec.ofNat 96 (salt.toNat * 2 ^ 64 + epoch % 2 ^ 24 * 2 ^ 32 + txc % 2 ^ 32)

/-- Words of a barge in the replay buffer. -/
def bargeSize (b : Barge) : Nat := bargeWords b.hdr.len.toNat

/-- Does the link send in clear: before admission, or with effective cipher setting 0 (R91, 13 R419)? -/
def Chip.sendsClear (c : Chip) (p : Port) : Bool := !(c.on (F.LNK_STATUS_ADMITTED p) && c.on (F.KEY_P_STATUS_CIPHER p))

/-- TXC has come to 0xFFFF_FFFF: no further barge goes until the epoch changes (R107). -/
def Chip.txLimit (p : Port) (c : Chip) : Chip :=
  c.when (c.get (F.LNK_TXC p) == 0xFFFF_FFFF) fun c => (c.put (F.LNK_STATUS_TX_HOLD p) 1).flag (F.LNK_INT_STATUS_TX_HOLD p)

/-- Sends a barge with an LSEQ as data blocks and an END block, TXC advancing (R86, R87, R89, R90); nothing where the link's cipher may not
read its key (13 R404). -/
def Chip.sendBarge (p : Port) (lseq : Nat) (b : Barge) (c : Chip) : Chip :=
  let txc := c.get (F.LNK_TXC p)
  let epoch := c.get (F.LNK_EPOCH_EPOCH p)
  let ws := b.words
  let clr := c.sendsClear p
  let body := endBody lseq ws.length epoch clr txc
  let slot := c.key.slot (txSlot p epoch)
  let (cs, tag) := if clr then (ws, 0#128) else Config.gcmSeal slot.key (linkNonce slot.salt epoch txc) (endAad body) ws
  if !clr && slot.refuses p.val then c.countSlotRefused p.val slot
  else
    let c := c.each (dataBlocks cs ++ [endBlock body (bargeCrc cs body) tag]) (Chip.pcsSend p)
    (c.put (F.LNK_TXC p) (txc + 1)).txLimit p

/-- Would the first block of a barge go at or after the lock marker of KE_SPAN, with EPOCH_CHANGE to come (R105)? -/
def Chip.epochDue (c : Chip) (p : Port) : Bool :=
  let next := if 4096 ≤ c.pcs[p].blk then spanAdd (c.get (F.TRK_SPAN p)) 1 else c.get (F.TRK_SPAN p)
  c.on (F.LNK_EPOCH_KE_PEND p) && spanLe (c.get (F.LNK_KE_SPAN p)) next

/-- Does the port hold its barges: TX_HOLD (R107, 13 R421), Moored (R72), or a key epoch that is to begin before the next of them
(R105)? -/
def Chip.txHeld (c : Chip) (p : Port) : Bool := c.on (F.LNK_STATUS_TX_HOLD p) || c.mooredPort p || c.epochDue p

/-- One barge is sent again (R92, R95), unless the port holds its barges; one acknowledged meanwhile is not. -/
def Chip.linkResend (p : Port) (lseq : Nat) (c : Chip) : Chip :=
  if c.txHeld p then c
  else
    let o := c.lnk[p].replay.find? fun o => o.lseq == lseq
    let c := c.modLnk p fun l => { l with resend := l.resend.filter fun n => n != lseq }
    match o with
    | some o => (c.inc (F.LNK_REPLAY_TX p)).sendBarge p o.lseq o.barge
    | none => c

/-- The barges still to be sent again, in order. -/
def Chip.linkResendAll (p : Port) (c : Chip) : Chip := c.each c.lnk[p].resend (Chip.linkResend p)

/-- Outstanding barges are to be sent again, in order (R92, R95, R96): at once, or after a hold (R107). -/
def Chip.replayFrom (p : Port) (l : List Outstanding) (c : Chip) : Chip :=
  (c.modLnk p fun x => { x with resend := l.map (·.lseq) }).linkResendAll p

/-- Replay buffer words in use (LNK_RX.BUF_WORDS). -/
def Chip.showReplay (p : Port) (c : Chip) : Chip :=
  c.put (F.LNK_RX_BUF_WORDS p) ((c.lnk[p].replay.map fun o => (bargeSize o.barge)).foldl (· + ·) 0)

/-- LINK_BARGE_TX (R91, R92, R95, R107; 04 R129, R130, R149): what is to be sent again goes first; then the next barge taken from the
crossbar, which the egress stage tests as it leaves, takes LSEQ = NEXT and enters the replay buffer. Before admission only LCTL
barges are sent; another barge is dropped and counted. -/
def Chip.bargeTx (p : Port) (c : Chip) : Chip :=
  let c := c.linkResendAll p
  match c.lnk[p].txq with
  | [] => c
  | t :: rest =>
    let used := (c.lnk[p].replay.map fun o => (bargeSize o.barge)).foldl (· + ·) 0
    let lctl := t.barge.hdr.type.toNat == typeLctl
    let taken := c.modLnk p fun l => { l with txq := rest }
    if 13 ≤ c.ageTicks t.desc then taken.egressDrop F.FAB_AGE_DROP t.desc t.barge 5
    else if c.revoked t.desc then taken.egressDrop F.FAB_REVOKE_DROP t.desc t.barge 4
    else if !c.on (F.TRK_STATUS_LINK_UP p) || !c.on (F.LNK_CTL_EN p) then c
    else if !c.on (F.LNK_STATUS_ADMITTED p) && !lctl then taken.egressDrop F.FAB_NO_ROUTE t.desc t.barge 6
    else if c.txHeld p || !c.lnk[p].resend.isEmpty || 2047 ≤ c.lnk[p].replay.length || 2048 < used + bargeSize t.barge then c
    else
      let lseq := c.get (F.LNK_STATUS_TX_NEXT p)
      let c := taken.modLnk p fun l => { l with replay := l.replay ++ [{ lseq := lseq, barge := t.barge }] }
      ((c.inc (F.LNK_STATUS_TX_NEXT p)).showReplay p).sendBarge p lseq t.barge

def execLinkBargeTx (p : Port) (s : State) : Host.Outcome State Fault Refusal := s.onChip (Chip.bargeTx p)

/-! Receiving (R88, R89, R93, R94, R97). -/

/-- A permanent link error (R97). -/
def Chip.permanentError (p : Port) (c : Chip) : Chip := (c.flag (F.LNK_INT_STATUS_REPLAY_FAIL p)).linkLost p

/-- Counts a tag failure, with the key store's counter (16 R494), or a refused clear barge; TAG_FAIL_LIMIT of them within 1 s drop the link
(13 R422). -/
def Chip.authFail (p : Port) (tag : Bool) (c : Chip) : Chip :=
  let recent := (c.lnk[p].tagFails.filter fun t => decide (c.now < t + second)) ++ [c.now]
  let c := ((c.when tag fun c => c.keyCount 94).inc (F.LNK_AUTH_FAIL p)).flag (F.LNK_INT_STATUS_AUTH_FAIL p) |>.modLnk p fun l => { l with tagFails := recent }
  let limit := c.get F.KEY_CTL_TAG_FAIL_LIMIT
  if limit ≠ 0 && limit ≤ recent.length then
    let c := ((c.inc (F.KEY_P_TAG_STORM p)).flag F.KEY_INT_STATUS_TAG_STORM).raiseLink p 0x14 recent.length
    (c.linkLost p).startBackoff p
  else c

/-- ACK_SEQ (R94): everything accepted, but what the link layer holds while DP is off (15 R456). -/
def Chip.ackSeq (c : Chip) (p : Port) : Nat :=
  (c.get (F.LNK_RX_EXPECT p) + 4095 + 4096 - (if c.dpReady then 0 else c.lnk[p].cold.length) % 4096) % 4096

/-- Sends a LACK for everything accepted (R94), unless DP is off (15 R456). -/
def Chip.sendLack (p : Port) (c : Chip) : Chip := c.when c.dpReady fun c =>
  (c.pcsSend p (lackBlock ((c.get (F.LNK_RX_EXPECT p) + 4095) % 4096))).modLnk p fun l => { l with unacked := 0 }

/-- Barges per LACK (LNK_ACK_CFG.ACK_COUNT: 0 and values above 16 are taken as 16). -/
def Chip.ackCount (c : Chip) (p : Port) : Nat :=
  let n := c.get (F.LNK_ACK_CFG_ACK_COUNT p)
  if n = 0 || 16 < n then 16 else n

/-- An accepted barge goes on: the header checks of R82, the clear barges of R91 (at effective cipher setting 1, 13 R419), then the ingress of the port. -/
def Chip.linkDeliver (p : Port) (clr : Bool) (words : Nat) (ws : List DpWord) (c : Chip) : Chip :=
  let hw := ws.headD 0#128
  let lctl := (Header.decode hw).type.toNat == typeLctl
  let admitted := c.on (F.LNK_STATUS_ADMITTED p)
  if clr && admitted && c.on (F.KEY_P_STATUS_CIPHER p) && c.on (F.LNK_CTL_CIPHER_EN p) then c.authFail p false
  else if !headerValid hw words then (c.inc (F.LNK_HDR_DROP p)).sampleDrop (Barge.ofWords ws) p.val 13 none none 0
  else if !admitted && !lctl then c
  else c.modLnk p fun l => { l with rxq := l.rxq ++ [Barge.ofWords ws] }

/-- What the receiver finds of a barge (R89): its plaintext words, or the cause of a NAK. -/
inductive RxCheck where
  | accepted (ws : List DpWord)
  | crc | auth | keyPhase

/-- The checks of R89 in their order: the CRC, then the tag under the key that KPH selects. A barge with no data block
fails its CRC (R88). -/
def Chip.rxCheck (c : Chip) (p : Port) (ws : List DpWord) (e : Block) : RxCheck :=
  let kph := (e.extractLsb' 229 1).toNat
  let slot := c.key.slot (rxSlot p kph)
  if ws = [] || bargeCrc ws e ≠ e.extractLsb' 128 32 then .crc
  else if e.getLsbD 228 then .accepted ws
  else if !slot.opens p.val then .keyPhase
  else
    match Config.gcmOpen slot.key (linkNonce slot.salt slot.version (e.extractLsb' 196 32).toNat) (endAad e) ws (e.extractLsb' 0 128) with
    | some pt => .accepted pt
    | none => .auth

/-- Was the last NAK sent for an uncorrectable codeword (R93)? The first barge to fail after it is the damaged one itself, its
replay the next. Marks: DEDUCED, log 32. -/
def Chip.nakedByCodeword (c : Chip) (p : Port) : Bool := match c.lnk[p].naked with
  | some (_, cause) => cause == 3
  | none => false

/-- Keeps why the NAKed barge failed, once it has. Marks: DEDUCED, log 32. -/
def Chip.nakCause (p : Port) (cause : Nat) (c : Chip) : Chip :=
  c.modLnk p fun l => { l with naked := l.naked.map fun x => (x.1, if x.2 = 3 then cause else x.2) }

/-- LINK_BARGE_RX (R88, R89, R93, R94, R97; 13 R420, R422). -/
def Chip.bargeRx (p : Port) (ws : List DpWord) (e : Block) (c : Chip) : Chip :=
  let expect := c.get (F.LNK_RX_EXPECT p)
  let lseq := (e.extractLsb' 236 12).toNat
  let d := (lseq + 4096 - expect) % 4096
  let words := (e.extractLsb' 230 6).toNat + 1
  let kph := (e.extractLsb' 229 1).toNat
  let clr := e.getLsbD 228
  let failed := match c.lnk[p].naked with
    | some (q, cause) => q == expect && (cause == 1 || cause == 2 || cause == 3)
    | none => false
  let bad := fun (c : Chip) (cause : Nat) =>
    if !c.on (F.TRK_STATUS_LINK_UP p) then c
    else if d = 0 then (if failed && !c.nakedByCodeword p then c.permanentError p else (c.sendNak p cause).nakCause p cause)
    else if 2048 ≤ d then (c.inc (F.LNK_DUP p)).modLnk p fun l => { l with unacked := max l.unacked 1 }
    else c.sendNak p 4
  match c.rxCheck p ws e with
  | .crc => bad (c.inc (F.LNK_CRC_ERR p)) 1
  | .auth => bad (c.authFail p true) 2
  | .keyPhase => bad ((c.countSlotRefused p.val (c.key.slot (rxSlot p kph))).deriveRx p ((c.lnk[p].partnerEpoch + 1) % 2 ^ 24)) 5
  | .accepted pt =>
    if d = 0 then
      let c := c.put (F.LNK_RX_EXPECT p) (expect + 1)
      let c := c.when failed fun c => c.inc (F.LNK_REPLAY_OK p)
      let c := c.when (!clr) fun c => c.put (F.LNK_EPOCH_RX_KPH p) kph
      let c := c.modLnk p fun l => { l with nakAt := none, naked := none, unacked := l.unacked + 1 }
      let c := c.linkDeliver p clr words pt
      c.when (c.on (F.TRK_STATUS_LINK_UP p) && c.ackCount p ≤ c.lnk[p].unacked) (Chip.sendLack p)
    else if 2048 ≤ d then (c.inc (F.LNK_DUP p)).modLnk p fun l => { l with unacked := max l.unacked 1 }
    else c.sendNak p 4

/-- Is a block an END block? -/
def isEnd (b : Block) : Bool := b.getLsbD 256 && btypeOf b == 0x10

/-- The data blocks of a barge: those before its END block, without the control blocks that the sender has inserted (R86). -/
def dataOf (blocks : List Block) : List Block := (blocks.takeWhile fun b => !isEnd b).filter fun b => !b.getLsbD 256

/-- The words and the END block of a received barge (R86, R88); a pad is discarded. -/
def bargeOf (blocks : List Block) : Option (List DpWord × Block) :=
  (blocks.find? isEnd).map fun e => (wordsOfBlocks ((e.extractLsb' 230 6).toNat + 1) (dataOf blocks), e)

/-- A barge of some blocks arrives while DP is not ready (15 R456): the link layer holds up to 64 blocks, whose acknowledgement waits; beyond
them a barge is not taken, and replay brings it again. -/
def Chip.coldRx (p : Port) (n : Nat) (ws : List DpWord) (e : Block) (c : Chip) : Chip :=
  if 64 < c.lnk[p].cold.foldl (· + ·) 0 + n then c
  else
    let before := c.get (F.LNK_RX_EXPECT p)
    let c := c.bargeRx p ws e
    c.when (c.get (F.LNK_RX_EXPECT p) == (before + 1) % 4096) fun c => c.modLnk p fun l => { l with cold := l.cold ++ [n] }

/-- A barge's blocks are received. -/
def Chip.bargeBlocks (p : Port) (blocks : List Block) (c : Chip) : Chip :=
  match bargeOf blocks with
  | none => c
  | some (ws, e) =>
    let c := c.each (dataOf blocks ++ [e]) (Chip.takeBlock p)
    if c.dpReady then c.bargeRx p ws e else c.coldRx p (dataOf blocks ++ [e]).length ws e

def execLinkBargeRx (p : Port) (blocks : List Block) (s : State) : Host.Outcome State Fault Refusal :=
  s.onChip fun c => c.when (c.on (F.TRK_STATUS_LINK_UP p) && c.on (F.LNK_CTL_EN p)) (Chip.bargeBlocks p blocks)

/-- ACK_DELAY_EXPIRY (R94). Marks: DEDUCED, log 32. -/
def execAckDelayExpiry (p : Port) (s : State) : Host.Outcome State Fault Refusal :=
  s.onChip fun c => c.when (c.on (F.TRK_STATUS_LINK_UP p) && c.on (F.LNK_CTL_EN p) && 0 < c.lnk[p].unacked && !c.mooredPort p) (Chip.sendLack p)

/-! Acknowledgement and replay (R95, R96). -/

/-- Takes an ACK_SEQ, when valid: releases every barge up to it (R95). -/
def Chip.ackUpTo (p : Port) (ack : Nat) (c : Chip) : Chip :=
  let acked := c.get (F.LNK_STATUS_TX_ACKED p)
  let span := (ack + 4096 - acked) % 4096
  let most := (c.get (F.LNK_STATUS_TX_NEXT p) + 4095 + 4096 - acked) % 4096
  if 1 ≤ span && span ≤ most then
    let c := c.modLnk p fun l => { l with
      replay := l.replay.filter fun o => span < (o.lseq + 4096 - acked) % 4096, expiries := 0 }
    (c.put (F.LNK_STATUS_TX_ACKED p) ack).showReplay p
  else c

/-- A control block of an expected BTYPE is received (R34, R100): one that fails its CRC, or has a reserved BTYPE of the link layer, is
discarded and counted in LNK_PROTO_ERR, and one of another reserved BTYPE in TRK_PROTO_ERR. -/
def Chip.withCtl (p : Port) (btype : Nat) (b : Block) (f : Chip → Chip) (c : Chip) : Chip :=
  if !c.on (F.TRK_STATUS_LINK_UP p) then c
  else match rxBlock b with
    | .deleted => c
    | .reservedPcs => c.protoError p
    | .reservedLink => c.linkProto p
    | .on =>
      let c := c.takeBlock p b
      if !crcHolds b then c.linkProto p
      else c.when (b.getLsbD 256 && btypeOf b == btype) f

/-- LACK_RX (R95). -/
def execLackRx (p : Port) (blk : Block) (s : State) : Host.Outcome State Fault Refusal :=
  s.onChip (Chip.withCtl p 0x11 blk fun c => c.ackUpTo p (blk.extractLsb' 236 12).toNat)

/-- LNAK_RX (R95): acknowledges up to NAK_SEQ − 1, then every outstanding barge from NAK_SEQ goes again. -/
def execLnakRx (p : Port) (blk : Block) (s : State) : Host.Outcome State Fault Refusal :=
  s.onChip (Chip.withCtl p 0x12 blk fun c =>
    let n := (blk.extractLsb' 236 12).toNat
    let c := c.ackUpTo p ((n + 4095) % 4096)
    c.replayFrom p (c.lnk[p].replay.filter fun o => (o.lseq + 4096 - n) % 4096 < 2048))

/-- REPLAY_TIMEOUT (R96, R97; a Moored port sends nothing, R72): replay from ACKED + 1; the second expiry in succession is a permanent error. -/
def execReplayTimeout (p : Port) (s : State) : Host.Outcome State Fault Refusal :=
  s.onChip fun c => c.when (c.on (F.TRK_STATUS_LINK_UP p) && !c.lnk[p].replay.isEmpty && !c.mooredPort p) fun c =>
    let n := c.lnk[p].expiries + 1
    if 2 ≤ n then c.permanentError p
    else (c.modLnk p fun l => { l with expiries := n }).replayFrom p c.lnk[p].replay

/-- LINK_DISABLE (R523): clearing LNK_CTL.EN ends a running link at once as a trunk loss; the PHY keeps its lanes. -/
def Chip.linkDisable (p : Port) (c : Chip) : Chip :=
  let up := c.on (F.TRK_STATUS_LINK_UP p)
  let c := c.put (F.LNK_CTL_EN p) 0
  c.when up fun c =>
    let a := c.get (laneState p 0)
    let b := c.get (laneState p 1)
    let phase := c.get (F.TRK_STATUS_PHASE p)
    let t := c.trk[p]
    let pre := c.get (F.TRK_STATUS_PRECODE_ON p)
    let c := c.modTrk p fun t => { t with phyStep := c.get (F.TRK_STATUS_STEP p) }
    let c := (c.raiseLink p 0x10 0).linkGone p
    let c := c.modTrk p fun x => { x with txLanes := t.txLanes, rxLanes := t.rxLanes, rxStep := t.rxStep, txQuiet := t.txQuiet }
    (((c.put (F.TRK_STATUS_PRECODE_ON p) pre).put (laneState p 0) a).put (laneState p 1) b).put (F.TRK_STATUS_PHASE p) phase

/-! Heartbeats and delay probes (R101, R103). -/

/-- HEARTBEAT_TX (R101): every 50 µs on a running link that is not Moored. -/
def execHeartbeatTx (p : Port) (s : State) : Host.Outcome State Fault Refusal :=
  s.onChip fun c => c.when (c.on (F.TRK_STATUS_LINK_UP p) && c.on (F.LNK_CTL_EN p) && !c.mooredPort p) fun c =>
    let h : Heartbeat := {
      hubId := BitVec.ofNat 10 (c.get F.FAB_ID_HUB_ID), idValid := c.on F.FAB_ID_ID_VALID
      ackSeq := BitVec.ofNat 12 (c.ackSeq p)
      lkState := BitVec.ofNat 3 (c.get F.LKP_STATUS_STATE), admitted := c.on (F.LNK_STATUS_ADMITTED p)
      level := BitVec.ofNat 3 (c.get F.BUD_STATUS_LEVEL), count := BitVec.ofNat 16 c.lnk[p].hbCount }
    (c.pcsSend p h.encode).modLnk p fun l => { l with hbCount := (l.hbCount + 1) % 65536, unacked := if c.dpReady then 0 else l.unacked }

/-- HEARTBEAT_RX (R95, R101, 04 R122). -/
def Chip.heartbeatRx (p : Port) (h : Heartbeat) (c : Chip) : Chip :=
  let c := (c.put (F.LNK_STATUS_HB_OK p) 1).put (F.LNK_STATUS_PARTNER_LK p) h.lkState.toNat
  let c := c.modLnk p fun l => { l with partnerId := if h.idValid then some h.hubId.toNat else none, partnerLevel := h.level.toNat }
  let c := (c.ackUpTo p h.ackSeq.toNat).partnerRuns p h.lkState.toNat
  c.when (h.idValid && c.ownId == some h.hubId.toNat) Chip.duplicateId

def execHeartbeatRx (p : Port) (blk : Block) (s : State) : Host.Outcome State Fault Refusal :=
  s.onChip (Chip.withCtl p 0x13 blk (Chip.heartbeatRx p (Heartbeat.decode blk)))

/-- HEARTBEAT_LOSS (R101, R72: supervision is suspended while Moored). -/
def execHeartbeatLoss (p : Port) (s : State) : Host.Outcome State Fault Refusal :=
  s.onChip fun c => c.when (c.on (F.TRK_STATUS_LINK_UP p) && !c.mooredPort p) fun c =>
    ((c.flag (F.LNK_INT_STATUS_HB_LOSS p)).inc (F.LNK_HB_MISS p)).linkLost p

/-- DELAY_REQ_TX (R103). -/
def execDelayReqTx (p : Port) (s : State) : Host.Outcome State Fault Refusal :=
  s.onChip fun c => c.when (c.on (F.TRK_STATUS_LINK_UP p) && c.on (F.LNK_CTL_EN p) && !c.mooredPort p) fun c =>
    let n := c.lnk[p].dseq
    (c.pcsSend p (delayReqBlock n)).modLnk p fun l => { l with dseq := (n + 1) % 256, delayReq := some (n, c.fabricTime) }

/-- DELAY_REQ_RX (R103): the answer repeats DSEQ and carries the two timestamps; with LNK_CTL.EN clear there is none (R523). -/
def execDelayReqRx (p : Port) (blk : Block) (t2 t3 : BitVec 52) (s : State) : Host.Outcome State Fault Refusal :=
  s.onChip (Chip.withCtl p 0x15 blk fun c => c.when (c.on (F.LNK_CTL_EN p)) (Chip.pcsSend p (delayRespBlock (blk.extractLsb' 240 8).toNat t2 t3)))

/-- TICK_RX (R102; 04 R156, R160). -/
def execTickRx (p : Port) (blk : Block) (rxTime : Nat) (s : State) : Host.Outcome State Fault Refusal :=
  s.onChip (Chip.withCtl p 0x14 blk (Chip.tickRx p (TickBlock.decode blk) rxTime))

/-- DELAY_RESP_RX (R103; 04 R159): T2 at bit 188, T3 at bit 136. -/
def execDelayRespRx (p : Port) (blk : Block) (t4 : Nat) (s : State) : Host.Outcome State Fault Refusal :=
  s.onChip (Chip.withCtl p 0x16 blk (Chip.delayRespRx p (blk.extractLsb' 240 8).toNat (blk.extractLsb' 188 52) (blk.extractLsb' 136 52) t4))

/-- LINK_NAK_OUT_EXPIRY (R93): REPLAY_TIMEOUT has passed with EXPECT as it was; another NAK may be sent. -/
def execLinkNakOutExpiry (p : Port) (s : State) : Host.Outcome State Fault Refusal :=
  s.onChip fun c => c.modLnk p fun l => { l with nakAt := none }

/-! Key epochs (R104 to R107; 13 R420, R421). -/

/-- The next transmit epoch is derived and its change scheduled 8 spans ahead (R105), past a rate switch at that span
(R61). At epoch 0xFF_FFFF barges are held, and the end with the lower serial starts a new admission (13 R421). -/
def Chip.requestEpoch (p : Port) (c : Chip) : Chip :=
  let e := c.get (F.LNK_EPOCH_EPOCH p)
  if c.on (F.LNK_EPOCH_KE_PEND p) || !c.on (F.LNK_STATUS_ADMITTED p) then c
  else if e = 0xFF_FFFF then
    let c := c.awaitAdmission p
    c.when (decide (c.serial < c.partnerSerial p)) (Chip.startAdmission p)
  else
    let c := c.deriveTx p (e + 1)
    let at8 := spanAdd (c.get (F.TRK_SPAN p)) 8
    let clash := (match c.trk[p].own with | some o => o.phase != .decided && o.spanN == at8 && !o.txDone | none => false)
      || (match c.trk[p].resp with | some a => a.spanM == at8 && !a.txDone | none => false)
    let c := c.put (F.LNK_EPOCH_KE_PEND p) 1
    c.put (F.LNK_KE_SPAN p) (if clash then spanAdd at8 1 else at8)

/-- EPOCH_REQUEST (R107): TXC has reached 0xF000_0000, or the epoch is 24 h old. -/
def execEpochRequest (p : Port) (aged : Bool) (s : State) : Host.Outcome State Fault Refusal :=
  s.onChip fun c => c.when (aged || 0xF000_0000 ≤ c.get (F.LNK_TXC p)) (Chip.requestEpoch p)

/-- EPOCH_CHANGE (R105): from the lock marker of KE_SPAN barges go under the new epoch, with TXC from 0 (R90); what a hold
kept from being sent again goes first (R95, R107). A hold until a new admission stays (13 R415, R421). -/
def execEpochChange (p : Port) (s : State) : Host.Outcome State Fault Refusal :=
  s.onChip fun c =>
    c.when (c.on (F.LNK_EPOCH_KE_PEND p) && spanLe (c.get (F.LNK_KE_SPAN p)) (c.get (F.TRK_SPAN p))) fun c =>
      let c := c.inc (F.LNK_EPOCH_EPOCH p)
      let c := (c.put (F.LNK_EPOCH_KE_PEND p) 0).put (F.LNK_KE_SPAN p) 0
      let c := c.put (F.LNK_TXC p) 0
      let c := c.when (!c.lnk[p].awaitsAdmission) fun c => c.put (F.LNK_STATUS_TX_HOLD p) 0
      (c.flag (F.LNK_INT_STATUS_EPOCH_DONE p)).linkResendAll p

end Sys2Proof.Machine
end

