-- ==== Sys2Proof/Machine/DomainOps.lean ====
section
/-! DEFINITION. Interrupt summary (16 R490), hardware votes and the domains that are on (15 R453, Table 15-2). -/

namespace Sys2Proof.Machine

/-! Interrupts (16 R490). -/

/-- Does a status register hold a bit that its enable register lets through? -/
def irqOf (r : RegFile) (status enable : Field) : Bool := r.word status.off &&& r.word enable.off != 0#32

/-- Counters whose wrap bit is set and routed to the CNT summary bit (R495). -/
def Chip.wrapIrq (c : Chip) : Bool := c.cnt.ovf.any fun n => c.bit (F.CNT_OVF_EN (n / 32)) (n % 32)

/-- The summary bit of a block by its index (Table 16-7). -/
def Hub.irqBlock (h : Hub) (i : Nat) : Bool :=
  let r := h.chip.regs
  match i with
  | 1 => irqOf r F.PWR_INT_STATUS F.PWR_INT_EN
  | 2 | 3 | 4 => irqOf r (F.TRK_INT_STATUS (i - 2)) (F.TRK_INT_EN (i - 2))
  | 5 => (List.range 3).any fun p => irqOf r (F.LNK_INT_STATUS p) (F.LNK_INT_EN p)
  | 6 => irqOf r F.FAB_INT_STATUS F.FAB_INT_EN
  | 7 => irqOf r F.SWC_INT_STATUS F.SWC_INT_EN
  | 8 => irqOf r F.SCH_INT_STATUS F.SCH_INT_EN
  | 9 => irqOf r F.BUD_INT_STATUS F.BUD_INT_EN
  | 10 => irqOf r F.USB_INT_STATUS F.USB_INT_EN
  | 11 => irqOf r F.WIN_INT_STATUS F.WIN_INT_EN
  | 12 => irqOf r F.VID_INT_STATUS F.VID_INT_EN
  | 13 => irqOf r F.ETH_INT_STATUS F.ETH_INT_EN
  | 14 => irqOf r F.FLD_INT_STATUS F.FLD_INT_EN || irqOf r F.FLD_FIO_INT_STATUS F.FLD_FIO_INT_EN
  | 15 => irqOf h.hv.regs F.TPW_INT_STATUS F.TPW_INT_EN
  | 16 => irqOf h.hv.regs F.LDC_INT_STATUS F.LDC_INT_EN
  | 17 => irqOf r F.KEY_INT_STATUS F.KEY_INT_EN
  | 18 => irqOf r F.REL_INT_STATUS F.REL_INT_EN
  | 19 => irqOf r F.LKP_INT_STATUS F.LKP_INT_EN
  | 20 => h.chip.wrapIrq
  | 21 => irqOf r F.CFG_INT_STATUS F.CFG_INT_EN
  | 22 => irqOf r F.ALM_INT_STATUS F.ALM_INT_EN
  | _ => false

/-- GLB_INT_SUMMARY. -/
def Hub.intSummary (h : Hub) : Nat := (List.range 23).foldl (fun n i => n + (h.irqBlock i).toNat * 2 ^ i) 0

/-- INT_N is asserted (R490). Marks: DESIGN CHOICE, log 71. -/
def Hub.intN (h : Hub) : Bool := h.intSummary &&& h.chip.get F.GLB_INT_PIN_EN_BLOCK != 0

/-- A counter with SAMPLE_EN has wrapped, which interrupts the Lockkeeper (R495). -/
def Chip.sampleIrq (c : Chip) : Bool := c.cnt.counters.any fun x => x.2.sel.getLsbD 27 && c.cnt.ovf.contains x.1

/-- The Lockkeeper has an enabled interrupt pending. -/
def Hub.lkIrq (h : Hub) : Bool := h.intSummary &&& h.chip.get F.GLB_INT_LK_EN_BLOCK != 0 || h.chip.sampleIrq

/-- MSI-X vector 64 of a head-end is asserted: it serves WIN_INT_STATUS (08 R264). Marks: DESIGN CHOICE, log 71. -/
def Hub.vector64 (h : Hub) : Bool := h.chip.headEnd && h.irqBlock 11

/-- FAULT_N is asserted (R491). Marks: DESIGN CHOICE, log 71. -/
def Chip.faultN (c : Chip) : Bool := c.get F.GLB_FAULT_STATUS &&& c.get F.GLB_FAULT_EN != 0

/-! Hardware votes and the domains that are on (15 R453). -/

/-- LK's hardware vote. -/
def Hub.lkVote (h : Hub) : Bool :=
  h.lkIrq || ports.any (fun (p : Port) => h.chip.tp[p].mailboxFull) || !h.chip.swc.p8in.isEmpty
    || h.chip.swc.voqs.any fun d => d.outPort == 8

/-- LK is on: its clock is not gated, or a vote is about to ungate it. -/
def Hub.lkOn (h : Hub) : Bool := !h.chip.lkp.gated || h.chip.bit F.PWR_VOTE_SW_VOTE 0 || h.lkVote

/-- PWR_VOTE_HW. -/
def Hub.hwVotes (h : Hub) : Nat := h.lkVote.toNat + h.chip.dpVote.toNat * 2 + h.chip.outerVotes

/-- PWR_STATUS.DOM_ON. Marks: DEDUCED, log 60. -/
def Hub.domOn (h : Hub) : Nat := h.lkOn.toNat + h.chip.dpOn.toNat * 2 + h.chip.outerOn

/-- PWR_STATUS.STATE: Run, Idle or Sleep (Table 15-1). -/
def Hub.powerState (h : Hub) : Nat := if h.lkOn then 0 else if h.chip.dpOn then 1 else 2

end Sys2Proof.Machine
end

