-- ==== Sys2Proof/Machine/Usb.lean ====
section
/-! DEFINITION. U0 of a head-end and the leaf ports of its virtual tree (07 R225, R226, R246 to R252). -/

namespace Sys2Proof.Machine

/-- The mapped port that a host token of an address names, on the SuperSpeed or the USB 2.0 tree (R227, R234). -/
def Chip.usbPortOf (c : Chip) (ss : Bool) (addr : Nat) : Option Nat :=
  c.mapList.find? fun i => c.on (F.USB_VP0_ENABLED i) && c.get (F.USB_VP0_ADDR i) == addr && (c.get (F.USB_VP0_SPEED i) == 4) == ss

/-- Answers the host. -/
def Chip.reply (r : UsbReply) (c : Chip) : Chip := c.emit (.usbHost r)

/-- The answer for "not yet": NAK on USB 2.0, NRDY on SuperSpeed (Table 07-4). -/
def notYet (ss : Bool) : UsbReply := if ss then .nrdy else .nak

/-- A count whose 0 is taken as 16. -/
def orSixteen (n : Nat) : Nat := if n = 0 then 16 else n

/-- The leaf ports of the virtual hubs `p` selects that hold any virtual port state or device, mapped or not (R228). -/
def Chip.leafPorts (c : Chip) (p : Nat → Bool) : List Nat :=
  let held := (c.written 0x09_2000 4 480).map (· / 2) ++ c.usb.vports.map Prod.fst
  held.dedup.filter fun i => c.mapSelected i && p (hubOfEntry i)

/-! U0 (R226, R251). -/

/-- Does the head-end present itself to the host (R226)? -/
def Chip.usbPresents (c : Chip) : Bool :=
  c.headEnd && c.on F.USB_CTL_EN && c.on F.USB_STATUS_U0_VBUS && c.get F.USB_VHUB_ID_VID != 0

/-- HOST_U0_RESET (R251): U0 is reset, or its VBUS is lost. -/
def Chip.usbU0Reset (vbusLost : Bool) (c : Chip) : Chip :=
  let c := c.when vbusLost fun c => (c.put F.USB_STATUS_U0_VBUS 0).put F.USB_STATUS_U0_SPEED 0
  let c := c.each c.mapList fun i c => (c.portCmd i 7 []).sendSsHold i
  let c := c.each (c.leafPorts fun _ => true) Chip.vportOff
  let c := (c.put F.USB_STATUS_U0_CONFIGURED 0).put F.USB_STATUS_U0_LINK 0
  let c := c.when (vbusLost && c.usb.pullUp) fun c =>
    (c.modUsb fun u => { u with ssTerm := false, pullUp := false }).usbAct 0 (.present false false)
  (c.modUsb fun u => { u with vhubs := [] }).flag F.USB_INT_STATUS_U0_RESET

def execHostU0Reset (vbusLost : Bool) (s : State) : Host.Outcome State Fault Refusal :=
  s.onChip fun c => c.when c.headEnd (Chip.usbU0Reset vbusLost)

/-- USB_U0_CONNECT (R226): the state of U0 is taken anew: VBUS, and the speed the host's link has come up at. VBUS lost resets U0
(R251). -/
def Chip.usbConnect (vbus : Bool) (speed : Nat) (c : Chip) : Chip :=
  if !c.headEnd then c
  else if !vbus && c.on F.USB_STATUS_U0_VBUS then c.usbU0Reset true
  else
    let c := c.put F.USB_STATUS_U0_VBUS vbus.toNat
    let up := c.usbPresents
    let ss := up && c.on F.USB_CTL_SS_EN
    let c := c.when (c.usb.pullUp != up || c.usb.ssTerm != ss) fun c =>
      (c.modUsb fun u => { u with ssTerm := ss, pullUp := up }).usbAct 0 (.present ss up)
    let old := c.get F.USB_STATUS_U0_SPEED
    let new := if !up || speed = 3 then 0 else if speed = 2 && !ss then 1 else speed
    let c := (c.put F.USB_STATUS_U0_SPEED new).when (new == 0) fun c => c.put F.USB_STATUS_U0_CONFIGURED 0
    c.when (old != new) fun c => c.each c.mapList Chip.sendSsHold

def execUsbU0Connect (vbus : Bool) (speed : BitVec 2) (s : State) : Host.Outcome State Fault Refusal :=
  s.onChip (Chip.usbConnect vbus speed.toNat)

/-- Suspends mapped ports with what is above them: those not already suspended (R246). -/
def Chip.suspendBelow (l : List Nat) (c : Chip) : Chip :=
  c.each (l.filter fun i => !c.vportSuspended i) fun i c =>
    ((c.portCmd i 5 []).put (F.USB_VP0_LINK i) 4).modVdev i fun d => { d with byHub := true }

/-- Resumes the mapped ports that were suspended with what is above them, and only those (R246). -/
def Chip.resumeBelow (l : List Nat) (c : Chip) : Chip :=
  c.each (l.filter fun i => (c.vdev i).byHub) fun i c => (c.portCmd i 6 []).modVdev i fun d => { d with byHub := false, resumeAt := some c.now }

/-- HOST_LINK_SUSPEND (R246, R247): the host's link to U0 suspends, or goes to U1 or U2, which a SuperSpeed link accepts as the
host has enabled them. -/
def Chip.hostLinkSuspend (low : HostLow) (c : Chip) : Chip :=
  let ss := c.get F.USB_STATUS_U0_SPEED == 2
  match low with
  | .suspend => (c.put F.USB_STATUS_U0_LINK 4).suspendBelow c.mapList
  | .u1 => c.when (ss && (c.vhub 0 true).u1) fun c => c.put F.USB_STATUS_U0_LINK 2
  | .u2 => c.when (ss && (c.vhub 0 true).u2) fun c => c.put F.USB_STATUS_U0_LINK 3

def execHostLinkSuspend (low : HostLow) (s : State) : Host.Outcome State Fault Refusal :=
  s.onChip fun c => c.when c.headEnd (Chip.hostLinkSuspend low)

/-- HOST_LINK_RESUME (R246): the host's link to U0 is in L0 or U0 again. -/
def Chip.hostLinkResume (c : Chip) : Chip := (c.put F.USB_STATUS_U0_LINK 0).resumeBelow c.mapList

def execHostLinkResume (s : State) : Host.Outcome State Fault Refusal := s.onChip fun c => c.when c.headEnd Chip.hostLinkResume

/-! Requests to a virtual port (R246, R247, R250, R252). -/

/-- HOST_PORT_POWER (R252): POWER_ON with SOF_OFFSET (R244), or POWER_OFF. A leaf port without a VALID entry keeps what the host
has set and sends nothing (R229). -/
def Chip.hostPortPower (i : Nat) (on : Bool) (c : Chip) : Chip :=
  if !c.mapped i then c.put (F.USB_VP0_POWER i) on.toNat
  else if on then ((c.put (F.USB_VP0_POWER i) 1).portCmd i 1 []).sendSofOffset i
  else (c.portCmd i 2 []).vportOff i

/-- Is map entry `i` a leaf port of the tree (R228)? -/
def Chip.leafPort (c : Chip) (i : Nat) : Bool := c.headEnd && decide (i < 240) && c.mapSelected i

def execHostPortPower (i : Byte) (on : Bool) (s : State) : Host.Outcome State Fault Refusal :=
  s.onChip fun c => c.when (c.leafPort i.toNat) (Chip.hostPortPower i.toNat on)

/-- HOST_PORT_SUSPEND (R246). -/
def Chip.hostPortSuspend (i : Nat) (c : Chip) : Chip := (c.portCmd i 5 []).put (F.USB_VP0_LINK i) 4

def execHostPortSuspend (i : Byte) (s : State) : Host.Outcome State Fault Refusal :=
  s.onChip fun c => c.when (c.mapped i.toNat) (Chip.hostPortSuspend i.toNat)

/-- Did the other kind of resume come within RESUME_WIN (R249)? -/
def Chip.resumeMerged (c : Chip) (at_ : Option Nat) : Bool :=
  match at_ with
  | some t => decide (c.now ≤ t + c.get F.USB_TIMING_RESUME_WIN * millisecond)
  | none => false

/-- HOST_PORT_RESUME (R246, R249): a resume that meets a remote wake sends nothing. -/
def Chip.hostPortResume (i : Nat) (c : Chip) : Chip :=
  let c := if c.resumeMerged (c.vdev i).wakeAt then c else c.portCmd i 6 []
  c.modVdev i fun d => { d with resumeAt := some c.now }

def execHostPortResume (i : Byte) (s : State) : Host.Outcome State Fault Refusal :=
  s.onChip fun c => c.when (c.mapped i.toNat) (Chip.hostPortResume i.toNat)

/-- HOST_PORT_RESET (R250): transfers and endpoint state go, the epoch advances, and RESET or WARM_RESET is sent. -/
def Chip.hostPortReset (i : Nat) (warm : Bool) (c : Chip) : Chip :=
  let c := (c.dropVdev i).put (F.USB_VP0_ADDR i) 0
  let c := ((c.put (F.USB_VP0_ENABLED i) 0).put (F.USB_VP0_RESETTING i) 1).put (F.USB_VP0_LINK i) 0
  c.portCmd i (if warm then 4 else 3) []

def execHostPortReset (i : Byte) (warm : Bool) (s : State) : Host.Outcome State Fault Refusal :=
  s.onChip fun c => c.when (c.mapped i.toNat) (Chip.hostPortReset i.toNat warm)

/-- RESET_LIMIT_EXPIRY (R250): no RESET_DONE within RESET_LIMIT. -/
def execResetLimitExpiry (i : Byte) (s : State) : Host.Outcome State Fault Refusal :=
  s.onChip fun c => c.when (c.mapped i.toNat && c.on (F.USB_VP0_RESETTING i.toNat)) fun c =>
    (((c.put (F.USB_VP0_RESETTING i.toNat) 0).put (F.USB_VP0_ENABLED i.toNat) 0).setChange i.toNat changeReset).flag F.USB_INT_STATUS_RESET_TIMEOUT

/-- HOST_LPM_TOKEN (R247). -/
def Chip.hostLpm (i besl : Nat) (wake : Bool) (c : Chip) : Chip :=
  if c.on F.USB_CTL_LPM_EN && (c.vdev i).lpm then
    ((c.reply .ack).portCmd i 8 [BitVec.ofNat 8 besl, BitVec.ofNat 8 wake.toNat]).put (F.USB_VP0_LINK i) 1
  else c.reply .nyet

def execHostLpmToken (i : Byte) (besl : BitVec 4) (wake : Bool) (s : State) : Host.Outcome State Fault Refusal :=
  s.onChip fun c => c.when (c.mapped i.toNat) (Chip.hostLpm i.toNat besl.toNat wake)

/-! What the hub class adds at a leaf port. -/

/-- The host disables a virtual port: DISABLE goes to the physical port (Table 07-3). -/
def Chip.hostPortDisable (i : Nat) (c : Chip) : Chip := ((c.dropVdev i).portCmd i 7 []).put (F.USB_VP0_ENABLED i) 0

/-- The host writes a U1 or a U2 timeout of a SuperSpeed virtual port (R247). -/
def Chip.hostPortTimeout (i : Nat) (second_ : Bool) (v : Nat) (c : Chip) : Chip :=
  let c := c.modVdev i fun d => if second_ then { d with u2 := v } else { d with u1 := v }
  c.when (c.on F.USB_CTL_U1U2_EN) fun c => c.portCmd i 9 [BitVec.ofNat 8 (c.vdev i).u1, BitVec.ofNat 8 (c.vdev i).u2]

end Sys2Proof.Machine
end

