-- ==== Sys2Proof/Machine/VHub.lean ====
section
/-! DEFINITION. The virtual hubs of a head-end (07 R227 to R229, R234): the hub class, answered locally. Request codes, feature
numbers, status layouts and descriptor layouts are those of USB 2.0 and USB 3.2 (PRESUMED, log 13). -/

namespace Sys2Proof.Machine

/-! The control pipe, which the head-end's own hubs share with the devices behind them. -/

/-- A SETUP opens a control transfer: any open one is abandoned (Table 07-4). -/
def UsbDev.openControl (d : UsbDev) (ss : Bool) (l : List Byte) : UsbDev :=
  let start := fun (e : UsbEp) => { e.cleared with seq := if ss then 0 else 1 }
  { ((d.modEp 0 false start).modEp 0 true start) with setup := some l, data := [], result := none }

/-- The host's next IN token tells whether it has acknowledged the packet given to it (R240). -/
def UsbEp.acknowledged (e : UsbEp) (ss acked : Bool) : UsbEp :=
  if e.given && acked then
    { e with buf := e.buf.drop 1, seq := (e.seq + 1) % (if ss then 32 else 2), given := false, stale := e.stale.map fun n => n - 1 }
  else e

/-! The tree (R227, R228). -/

/-- Does port `n` of hub `k` carry a level-2 hub? -/
def Chip.carriesHub (c : Chip) (k n : Nat) : Bool := k == 0 && c.bit F.USB_VHUB_CFG_L2_MASK (n - 1)

/-- The map entry of leaf port `n` of hub `k`. -/
def leafOf (k n : Nat) : Nat := if k = 0 then n - 1 else 15 + 15 * (k - 1) + (n - 1)

/-- The mapped ports below hub `k`. -/
def Chip.leavesBelow (c : Chip) (k : Nat) : List Nat := c.mapList.filter fun i => hubOfEntry i == k

/-- Those whose device is on one tree, or that have none. -/
def Chip.leavesOn (c : Chip) (k : Nat) (ss : Bool) : List Nat :=
  (c.leavesBelow k).filter fun i => !c.on (F.USB_VP0_CONNECT i) || (c.get (F.USB_VP0_SPEED i) == 4) == ss

/-- Is the link of a hub copy up: with the host's link for the level-1 hub, with its enabled port for a level-2 hub? -/
def Chip.hubLinked (c : Chip) (k : Nat) (ss : Bool) : Bool :=
  let u0 := c.get F.USB_STATUS_U0_SPEED
  c.headEnd && (if ss then u0 == 2 else u0 == 1 || u0 == 2) && (k == 0 || (c.carriesHub 0 k && (c.vhub k ss).up.enabled))

/-- The virtual hub that a host token of an address names (R234). -/
def Chip.hubAt (c : Chip) (ss : Bool) (addr : Nat) : Option Nat := (List.range 16).find? fun k => c.hubLinked k ss && (c.vhub k ss).addr == addr

/-- What a host token of an address reaches: a virtual hub, or the device at a mapped port. -/
def Chip.atAddress (c : Chip) (ss : Bool) (addr : Nat) (hub port : Nat → Chip → Chip) : Chip :=
  match c.hubAt ss addr with
  | some k => hub k c
  | none => match c.usbPortOf ss addr with
    | some i => port i c
    | none => c

/-! Descriptors (R226, R227). -/

def leWordBytes (n : Nat) : List Byte := [BitVec.ofNat 8 n, BitVec.ofNat 8 (n / 256)]

/-- The device descriptor: class hub, protocol multi-TT or SuperSpeed, and the identity of USB_VHUB_ID. -/
def Chip.hubDevice (c : Chip) (ss : Bool) : List Byte :=
  [18, 1] ++ leWordBytes (if ss then 0x0320 else 0x0210) ++ [9, 0, if ss then 3 else 2, if ss then 9 else 64]
    ++ leWordBytes (c.get F.USB_VHUB_ID_VID) ++ leWordBytes (c.get F.USB_VHUB_ID_PID)
    ++ [Config.hubByte ss 1 12, Config.hubByte ss 1 13, 0, 0, 0, 1]

/-- The configuration descriptor: one interface, its status change endpoint, and on USB 2.0 the single-TT and multi-TT settings. -/
def hubConfiguration (ss : Bool) : List Byte :=
  let iface := fun (alt proto : Nat) => ([9, 4, 0, BitVec.ofNat 8 alt, 1, 9, 0, BitVec.ofNat 8 proto, 0] : List Byte)
  let ep : List Byte := [7, 5, 0x81, if ss then 0x13 else 3, 2, 0, if ss then 8 else 12]
  let body := if ss then iface 0 0 ++ ep ++ [6, 0x30, 0, 0, 2, 0] else iface 0 1 ++ ep ++ iface 1 2 ++ ep
  [9, 2] ++ leWordBytes (9 + body.length) ++ [1, 1, 0, 0xE0, Config.hubByte ss 2 8] ++ body

/-- The BOS descriptor: the USB 2.0 extension, and on SuperSpeed its own capability. -/
def hubBos (ss : Bool) : List Byte :=
  let ext : List Byte := [7, 0x10, 2, 2, 0, 0, 0]
  let cap : List Byte := [10, 0x10, 3, 0, 0xE, 0, 1, Config.hubByte ss 15 7, Config.hubByte ss 15 8, Config.hubByte ss 15 9]
  let body := ext ++ cap
  [5, 0xF] ++ leWordBytes (5 + body.length) ++ [2] ++ body

/-- The hub descriptor: 15 ports, per-port power switching and over-current reporting, and bPwrOn2PwrGood. -/
def Chip.hubDescriptor (c : Chip) (ss : Bool) : List Byte :=
  let head : List Byte := [15, 9, 0, BitVec.ofNat 8 (c.get F.USB_VHUB_CFG_PWR2GOOD)]
  if ss then [12, 0x2A] ++ head ++ (List.range 6).map fun n => Config.hubByte true 0x2A (6 + n)
  else [11, 0x29] ++ head ++ [Config.hubByte false 0x29 6, Config.hubByte false 0x29 7, Config.hubByte false 0x29 8, 0xFF, 0xFF]

/-! Port status (R227 to R229). -/

/-- wPortStatus from what a port shows. -/
def portWord (ss connect enabled oc reset power : Bool) (link speed : Nat) : Nat :=
  let base := connect.toNat + enabled.toNat * 2 + oc.toNat * 8 + reset.toNat * 16
  if ss then
    let state := if !power then 4 else if !connect then 5 else match link with | 2 => 1 | 3 => 2 | 4 => 3 | _ => 0
    base + state * 32 + power.toNat * 512
  else base + (link == 4).toNat * 4 + (link == 1).toNat * 32 + power.toNat * 256 + (speed == 1).toNat * 512 + (speed == 3).toNat * 1024

/-- wPortStatus and wPortChange of port `n` of a hub copy; a leaf port without a VALID entry is powered and empty (R229), and one whose
device is on the other tree is empty. -/
def Chip.hubPortStatus (c : Chip) (k : Nat) (ss : Bool) (n : Nat) : Nat × Nat :=
  if c.carriesHub k n then
    let u := (c.vhub n ss).up
    (portWord ss u.power u.enabled false false u.power u.link (if ss then 4 else 3), u.change)
  else
    let i := leafOf k n
    if !c.mapped i then (portWord ss false false false false true 0 0, c.get (F.USB_VP1_CHANGE i))
    else
      let speed := c.get (F.USB_VP0_SPEED i)
      let mine := (speed == 4) == ss
      let b := fun (f : Field) => mine && c.on f
      (portWord ss (b (F.USB_VP0_CONNECT i)) (b (F.USB_VP0_ENABLED i)) (c.on (F.USB_VP0_OC i)) (b (F.USB_VP0_RESETTING i))
        (c.on (F.USB_VP0_POWER i)) (if mine then c.get (F.USB_VP0_LINK i) else 0) speed, c.get (F.USB_VP1_CHANGE i))

/-- The status change bitmap: bit n for port n. -/
def Chip.hubChanges (c : Chip) (k : Nat) (ss : Bool) : Nat :=
  ((List.range 15).map fun n => if (c.hubPortStatus k ss (n + 1)).2 = 0 then 0 else 2 ^ (n + 1)).foldl (· + ·) 0

/-! Requests (R234). -/

/-- The answer to a request that reads, or none where the hub class has no such request. -/
def Chip.hubAnswer (c : Chip) (k : Nat) (ss : Bool) (s : SetupPacket) : Option (List Byte) :=
  let h := c.vhub k ss
  match s.reqType, s.req with
  | 0x80, 0 => some (leWordBytes (1 + (!ss && h.rwake).toNat * 2 + h.u1.toNat * 4 + h.u2.toNat * 8))
  | 0x81, 0 => some (leWordBytes (if ss then 1 + h.rwake.toNat * 2 else 0))
  | 0x82, 0 => some (leWordBytes 0)
  | 0x80, 6 =>
    match s.value / 256 with
    | 1 => some (c.hubDevice ss)
    | 2 => some (hubConfiguration ss)
    | 15 => some (hubBos ss)
    | _ => none
  | 0x80, 8 => some [BitVec.ofNat 8 h.configured.toNat]
  | 0x81, 10 => some [0]
  | 0xA0, 0 => some (leWordBytes 0 ++ leWordBytes 0)
  | 0xA0, 6 => some (c.hubDescriptor ss)
  | 0xA3, 0 =>
    let n := s.index % 256
    if 1 ≤ n ∧ n ≤ 15 then some (leWordBytes (c.hubPortStatus k ss n).1 ++ leWordBytes (c.hubPortStatus k ss n).2) else none
  | _, _ => none

/-- Does a hub copy take a request that writes? Port requests need a configured hub. -/
def VHub.accepts (h : VHub) (s : SetupPacket) : Bool :=
  let port := h.configured && decide (1 ≤ s.index % 256 ∧ s.index % 256 ≤ 15)
  match s.reqType, s.req with
  | 0, 5 | 0, 48 | 0, 49 | 1, 11 | 2, 1 | 2, 3 | 0x20, 1 | 0x20, 3 | 0x20, 12 => true
  | 0, 9 => decide (s.value % 256 ≤ 1)
  | 0, 1 | 0, 3 => if h.ss then s.value == 48 || s.value == 49 else s.value == 1
  | 1, 1 | 1, 3 => h.ss && s.value == 0
  | 0x23, 1 | 0x23, 3 => port
  | 0x23, 8 | 0x23, 9 | 0x23, 11 => !h.ss
  | _, _ => false

/-- The change bit that a CLEAR_FEATURE selector names. -/
def changeFeature (ss : Bool) (v : Nat) : Option Nat :=
  match v with
  | 16 => some 0 | 17 => some 1 | 18 => some 2 | 19 => some 3 | 20 => some 4
  | 25 => if ss then some 6 else none
  | 26 => if ss then some 7 else none
  | 29 => if ss then some 5 else none
  | _ => none

/-- A leaf port is put off with the hub above it (R251). -/
def Chip.leafOff (code : Nat) (i : Nat) (c : Chip) : Chip := (c.portCmd i code []).vportOff i

/-- A request for a leaf port (R246, R247, R250, R252): a change bit cleared, power, or an action on the device of this tree. -/
def Chip.leafFeature (i : Nat) (ss set : Bool) (v arg : Nat) (c : Chip) : Chip :=
  let here := c.mapped i && (c.get (F.USB_VP0_SPEED i) == 4) == ss
  if v = 8 then c.hostPortPower i set
  else if !set then
    match changeFeature ss v with
    | some b => c.putBit (F.USB_VP1_CHANGE i) b false
    | none =>
      c.when (here && !ss) fun c => if v = 1 then c.hostPortDisable i else if v = 2 then c.hostPortResume i else c
  else
    c.when here fun c =>
      match v, ss with
      | 4, _ => c.hostPortReset i false
      | 28, true => c.hostPortReset i true
      | 2, false => c.hostPortSuspend i
      | 5, true =>
        if arg = 3 then c.hostPortSuspend i
        else if arg = 0 then c.when (c.vportSuspended i) (Chip.hostPortResume i)
        else if arg = 4 then c.hostPortDisable i
        else c
      | 23, true => c.hostPortTimeout i false arg
      | 24, true => c.hostPortTimeout i true arg
      | _, _ => c

/-- Changes the level-1 port that carries hub `n`, on one tree. -/
def Chip.modUp (n : Nat) (ss : Bool) (f : VPort → VPort) (c : Chip) : Chip := c.modVhub n ss fun h => { h with up := f h.up }

/-- A change bit of a level-1 port that carries a level-2 hub. -/
def VPort.changed (u : VPort) (b : Nat) : VPort := { u with change := u.change ||| 2 ^ b }

/-- A level-2 hub is reset with its port: it is unconfigured at address 0, and the ports below act as R251 says of U0.
Marks: DEDUCED, log 87. -/
def Chip.hubReset (n : Nat) (ss : Bool) (c : Chip) : Chip :=
  let c := c.each (c.leavesOn n ss) (Chip.leafOff 7)
  let c := c.each ((c.leafPorts fun k => k == n).filter fun i => !c.mapped i) Chip.vportOff
  (c.setVhub { VHub.fresh n ss with up := { ((c.vhub n ss).up.changed changeReset) with enabled := true, link := 0 } }).hubErdy 0

/-- A request for a level-1 port that carries a level-2 hub. Marks: DEDUCED, log 87. -/
def Chip.hubFeature (n : Nat) (ss set : Bool) (v arg : Nat) (c : Chip) : Chip :=
  let u := (c.vhub n ss).up
  let suspend := fun (c : Chip) => (c.suspendBelow (c.leavesOn n ss)).modUp n ss fun u => { u with link := 4 }
  let resume := fun (c : Chip) => c.when (u.link == 4) fun c =>
    ((c.resumeBelow (c.leavesOn n ss)).modUp n ss fun u => { u.changed (if ss then changeLinkState else changeSuspend) with link := 0 }).hubErdy 0
  if v = 8 then
    if set then c.when (!u.power) fun c => (c.modUp n ss fun u => { u.changed changeConnection with power := true }).hubErdy 0
    else
      let c := c.each (c.leavesOn n ss) (Chip.leafOff 2)
      (c.each ((c.leafPorts fun k => k == n).filter fun i => !c.mapped i) Chip.vportOff).setVhub (VHub.fresh n ss)
  else if !set then
    match changeFeature ss v with
    | some b => c.modUp n ss fun u => { u with change := u.change &&& (65535 - 2 ^ b) }
    | none => c.when (!ss) fun c => if v = 1 then c.modUp n ss fun u => { u with enabled := false } else if v = 2 then resume c else c
  else
    match v, ss with
    | 4, _ => c.when u.power (Chip.hubReset n ss)
    | 28, true => c.when u.power (Chip.hubReset n ss)
    | 2, false => suspend c
    | 5, true =>
      if arg = 3 then suspend c
      else if arg = 0 then resume c
      else if arg = 4 then c.modUp n ss fun u => { u with enabled := false }
      else c
    | _, _ => c

/-- What a request does when its status stage completes. On SuperSpeed the host enables remote wake by FUNCTION_SUSPEND (R248). -/
def Chip.hubApply (k : Nat) (ss : Bool) (s : SetupPacket) (c : Chip) : Chip :=
  let n := s.index % 256
  let set := s.req == 3
  match s.reqType, s.req with
  | 0, 5 => c.modVhub k ss fun h => { h with addr := s.value % 128 }
  | 0, 9 =>
    let on := s.value % 256 != 0
    (c.modVhub k ss fun h => { h with configured := on }).when (k == 0) fun c => c.put F.USB_STATUS_U0_CONFIGURED on.toNat
  | 0, 1 | 0, 3 =>
    c.modVhub k ss fun h => match s.value with
      | 1 => { h with rwake := set }
      | 48 => { h with u1 := set }
      | 49 => { h with u2 := set }
      | _ => h
  | 1, 1 | 1, 3 => c.modVhub k ss fun h => { h with rwake := set && (s.index / 256).testBit 1 }
  | 0x23, 1 | 0x23, 3 =>
    if c.carriesHub k n then c.hubFeature n ss set s.value (s.index / 256) else c.leafFeature (leafOf k n) ss set s.value (s.index / 256)
  | _, _ => c

/-! The host's tokens to a virtual hub. -/

/-- Cuts an answer into packets; a shorter answer than asked for that fills its last packet ends with an empty one. -/
def hubPackets (size want : Nat) (l : List Byte) : List (List Byte) :=
  let l' := l.take want
  let ps := (List.range ((l'.length + size - 1) / size)).map fun n => (l'.drop (size * n)).take size
  if l'.length % size = 0 && decide (l.length < want) then ps ++ [[]] else ps

/-- SETUP to a virtual hub: the answer, or a request error, is ready at once. -/
def Chip.hubSetup (k : Nat) (ss : Bool) (bytes : List Byte) (c : Chip) : Chip :=
  let l := (bytes ++ List.replicate 8 0).take 8
  let s := SetupPacket.ofBytes l
  let h := c.vhub k ss
  let d := h.pipe.openControl ss l
  let d := if s.isIn then
      match c.hubAnswer k ss s with
      | some a => { d.modEp 0 true (fun e => { e with buf := hubPackets (if ss then 512 else 64) s.length a }) with result := some 0 }
      | none => { d with result := some 1 }
    else { d with result := some (if h.accepts s then 0 else 1) }
  (c.setVhub { h with pipe := d }).reply .ack

/-- OUT data to a virtual hub: no request of the hub class needs what it holds. -/
def Chip.hubOut (k : Nat) (ss : Bool) (c : Chip) : Chip :=
  c.reply (if (c.vhub k ss).pipe.result == some 1 then .stall else if ss then .ackNumP 1 else .ack)

/-- An IN token to a virtual hub: the data stage of a request, or the status change endpoint. -/
def Chip.hubIn (k : Nat) (ss : Bool) (ep : Nat) (acked : Bool) (c : Chip) : Chip :=
  let h := c.vhub k ss
  if ep = 0 then
    let e := (h.pipe.getEp 0 true).acknowledged ss acked
    match e.buf with
    | p :: _ => (c.setVhub { h with pipe := h.pipe.setEp { e with given := true } }).reply (.data p)
    | [] => (c.setVhub { h with pipe := h.pipe.setEp e }).reply (if h.pipe.result = some 1 then .stall else notYet ss)
  else
    let b := c.hubChanges k ss
    if b = 0 then (c.setVhub { h with nrdy := ss }).reply (notYet ss) else c.reply (.data (leWordBytes b))

/-- The status stage of a request to a virtual hub. -/
def Chip.hubStatus (k : Nat) (ss : Bool) (c : Chip) : Chip :=
  let h := c.vhub k ss
  match h.pipe.setup, h.pipe.result with
  | some l, some 0 =>
    let c := c.setVhub { h with pipe := { h.pipe with setup := none, result := none } }
    (c.hubApply k ss (SetupPacket.ofBytes l)).reply .ack
  | _, _ => c.reply .stall

end Sys2Proof.Machine
end

