-- ==== Sys2Proof/Machine/UsbXfer.lean ====
section
/-! DEFINITION. Transfers at a head-end (07 R231 to R242, R245): what the host's tokens do, the messages that come back from the
field hubs, and the port map. -/

namespace Sys2Proof.Machine

/-! Transfers (R234, R236 to R242). -/

/-- Is the control pipe stalled until the next SETUP (R238, R239)? -/
def UsbDev.stalled0 (d : UsbDev) : Bool := d.result == some 1 || d.result == some 2 || d.result == some 3

/-- Does an endpoint answer STALL? -/
def UsbDev.stalls (d : UsbDev) (e : UsbEp) : Bool := if e.ep = 0 then d.stalled0 else e.halted

/-- HOST_SETUP (R234, R236): always acknowledged and forwarded; SET_ADDRESS goes with the fixed physical address 1. -/
def Chip.hostSetup (i : Nat) (ss : Bool) (bytes : List Byte) (c : Chip) : Chip :=
  let l := (bytes ++ List.replicate 8 0).take 8
  let fwd := if (SetupPacket.ofBytes l).setAddress then l.take 2 ++ [1, 0] ++ l.drop 4 else l
  (c.modVdev i fun d => d.openControl ss l).reply .ack |>.usbSend i kindSetup 0 false 0 fwd

def execHostSetup (ss : Bool) (addr : BitVec 7) (bytes : List Byte) (s : State) : Host.Outcome State Fault Refusal :=
  s.onChip fun c => c.atAddress ss addr.toNat (fun k => Chip.hubSetup k ss bytes) fun i => Chip.hostSetup i ss bytes

/-- OUT data of the host, or none with a PING (R236, R240, R241). -/
def Chip.hostOut (i : Nat) (ss : Bool) (ep seq : Nat) (stream : Option Nat) (data : Option (List Byte)) (c : Chip) : Chip :=
  let d := c.vdev i
  let e := d.getEp ep false
  let free := orSixteen (c.get F.USB_CTL_OUT_CREDIT) - e.taken
  let numP := fun (left : Nat) => min (e.burst + 1) left
  let ackNow := fun (left : Nat) => if ss then UsbReply.ackNumP (numP left) else .ack
  let wait := fun (c : Chip) => c.modVdev i fun d => d.modEp ep false fun e => { e with nrdy := ss }
  if d.stalls e then c.reply .stall
  else
    match data with
    | none => c.reply (if free = 0 then .nak else .ack)
    | some bytes =>
      if seq ≠ e.seq then c.reply (ackNow free)
      else if stream.isSome && e.taken != 0 && e.stream != stream then (wait c).reply .nrdy
      else if free = 0 then (wait c).reply (if ss then .ackNumP 0 else .nak)
      else
        let c := c.modVdev i fun d => d.setEp { e with
          taken := e.taken + 1, seq := (e.seq + 1) % (if ss then 32 else 2), stream := stream, nrdy := ss && free == 1 }
        let c := c.reply (if !ss && e.kind == .bulk && free == 1 then .nyet else ackNow (free - 1))
        c.usbSend i kindOutData ep false 0 (e.withStream stream bytes)

/-- HOST_OUT_DATA (R236). `seq` is the toggle or sequence number of the packet; without data the command is a PING. -/
def execHostOutData (ss : Bool) (addr : BitVec 7) (ep : BitVec 4) (seq : BitVec 5) (stream : Option (BitVec 16)) (data : Option (List Byte))
    (s : State) : Host.Outcome State Fault Refusal :=
  s.onChip fun c => c.atAddress ss addr.toNat (fun k => Chip.hubOut k ss) fun i =>
    Chip.hostOut i ss ep.toNat seq.toNat (stream.map BitVec.toNat) data

/-- An IN token of the host (R236 to R238, R240, R241): buffered data first, the same packet again where the host has not acknowledged it
(`acked` says that it has), then a stall, else IN_REQ for a bulk endpoint. -/
def Chip.hostIn (i : Nat) (ss : Bool) (ep : Nat) (stream : Option Nat) (acked : Bool) (c : Chip) : Chip :=
  let d := c.vdev i
  let e := (d.getEp ep true).acknowledged ss acked
  let c := c.setVdev i (d.setEp e)
  if stream.isSome && (!e.buf.isEmpty || e.asked != 0) && e.stream != stream then
    (c.modVdev i fun d => d.setEp { e with nrdy := ss }).reply .nrdy
  else match e.buf with
    | p :: _ => (c.modVdev i fun d => d.setEp { e with given := true }).reply (.data p)
    | [] =>
      if d.stalls e then c.reply .stall
      else
        let ask := e.kind == .bulk && e.asked == 0
        let n := orSixteen (c.get F.USB_CTL_IN_AHEAD)
        let c := (c.modVdev i fun d => d.setEp { e with asked := if ask then n else e.asked, nrdy := ss, stream := stream }).reply (notYet ss)
        c.when ask fun c => c.usbSend i kindInReq ep true n (e.withStream stream [])

def execHostInToken (ss : Bool) (addr : BitVec 7) (ep : BitVec 4) (stream : Option (BitVec 16)) (acked : Bool) (s : State) :
    Host.Outcome State Fault Refusal :=
  s.onChip fun c => c.atAddress ss addr.toNat (fun k => Chip.hubIn k ss ep.toNat acked) fun i =>
    Chip.hostIn i ss ep.toNat (stream.map BitVec.toNat) acked

/-- The endpoints that a completed request resets, at the head-end: what EP_RESET has marked as newer stays (R240). -/
def UsbDev.keepNewer (old new : UsbDev) (keys : List (Nat × Bool)) : UsbDev :=
  { new with eps := new.eps.map fun e =>
      let o := old.getEp e.ep e.dirIn
      match o.stale, keys.contains (e.ep, e.dirIn) with
      | some n, true => { e with buf := o.buf.drop n }
      | _, _ => e }

/-- HOST_STATUS_STAGE (R234, R236, R240): completed once the remote RESULT ACK is there, with what the request made active;
STALL where the result was STALL, ERROR or BABBLE. -/
def Chip.hostStatus (i : Nat) (ss : Bool) (c : Chip) : Chip :=
  let d := c.vdev i
  match d.setup, d.result with
  | some l, some 0 =>
    let s := SetupPacket.ofBytes l
    let d := d.learn
    let (keys, d') := d.applyRequest
    let d' := d.keepNewer d' keys
    let ahead := fun (d : UsbDev) => (keys.map fun k => (d.getEp k.1 k.2).ahead).foldl (· + ·) 0
    let c := (c.add F.USB_PREFETCH_LOST (ahead d - ahead d')).setVdev i { d' with setup := none, data := [], result := none }
    let c := c.when s.setAddress fun c => c.put (F.USB_VP0_ADDR i) (s.value % 128)
    c.reply .ack
  | _, some _ => c.reply .stall
  | _, none => (c.modVdev i fun d => d.modEp 0 true fun e => { e with nrdy := ss }).reply (notYet ss)

def execHostStatusStage (ss : Bool) (addr : BitVec 7) (s : State) : Host.Outcome State Fault Refusal :=
  s.onChip fun c => c.atAddress ss addr.toNat (fun k => Chip.hubStatus k ss) fun i => Chip.hostStatus i ss

/-- The host's microframe number now: fabric time with the offset of R244. -/
def Chip.hostMicroframe (c : Chip) : Nat := (c.get F.FAB_FRAME + c.sofOffset) % 2048 * 8 + c.subns / 125_000

/-- D in microframes (R245). -/
def Chip.isoDelay (c : Chip) : Nat := max 8 (min 64 (c.get F.USB_CTL_ISO_DELAY))

/-- HOST_ISO_TOKEN (R245): IN data of microframe n − D, or a zero-length packet; OUT data travels for n + D. -/
def Chip.hostIso (i ep : Nat) (dirIn : Bool) (n : Nat) (data : List Byte) (c : Chip) : Chip :=
  if dirIn then
    let d := c.vdev i
    match d.iso.find? fun x => x.1 == n && x.2.1 == ep with
    | some x => (c.setVdev i { d with iso := d.iso.erase x }).reply (.data x.2.2)
    | none => c.reply (.data [])
  else c.usbSend i kindIsoOut ep false (n + c.isoDelay) data

def execHostIsoToken (ss : Bool) (addr : BitVec 7) (ep : BitVec 4) (dirIn : Bool) (n : BitVec 14) (data : List Byte) (s : State) :
    Host.Outcome State Fault Refusal :=
  s.onChip fun c => match c.usbPortOf ss addr.toNat with
    | some i => c.hostIso i ep.toNat dirIn n.toNat data
    | none => c

/-- HOST_SPLIT_TRANSACTION (R242): a start-split is answered as the high-speed token; a complete-split gets NYET until the remote
result is there, which it takes, or for a periodic endpoint NAK while nothing is buffered. Isochronous data goes as at high speed. -/
def Chip.hostSplit (i : Nat) (start : Bool) (stage : UsbStage) (ep : Nat) (dirIn : Bool) (seq : Nat) (acked : Bool) (data : List Byte) (c : Chip) :
    Chip :=
  let d := c.vdev i
  let e := d.getEp ep dirIn
  match stage with
  | .setup => if start then c.hostSetup i false data else c.reply .ack
  | .status =>
    match start, d.result with
    | true, some r => c.reply (if r = 0 then .ack else .stall)
    | true, none => c.reply .nak
    | false, some _ => c.hostStatus i false
    | false, none => c.reply .nyet
  | .data =>
    if e.kind == .iso then
      if dirIn then c.when (!start) fun c => c.hostIso i ep true c.hostMicroframe []
      else c.when start fun c => c.hostIso i ep false c.hostMicroframe data
    else if start then (if dirIn then c.hostIn i false ep none acked else c.hostOut i false ep seq none (some data))
    else if dirIn then
      if !e.buf.isEmpty then c.hostIn i false ep none false
      else if d.stalls e then c.reply .stall
      else c.reply (if e.kind == .interrupt then .nak else .nyet)
    else if d.stalls e then c.reply .stall
    else c.reply (if e.taken = 0 then .ack else .nyet)

def execHostSplitTransaction (addr : BitVec 7) (start : Bool) (stage : UsbStage) (ep : BitVec 4) (dirIn : Bool) (seq : BitVec 1) (acked : Bool)
    (data : List Byte) (s : State) : Host.Outcome State Fault Refusal :=
  s.onChip fun c => match c.usbPortOf false addr.toNat with
    | some i =>
      c.when (c.get (F.USB_VP0_SPEED i) == 1 || c.get (F.USB_VP0_SPEED i) == 2) (Chip.hostSplit i start stage ep.toNat dirIn seq.toNat acked data)
    | none => c

/-! Messages from the field hubs. -/

/-- A command that acts on a message of the tunnel; one given that R231 discards is counted. -/
def Chip.onUsb (given : Option Msg) (want : Msg → Bool) (f : Msg → Chip → Chip) (c : Chip) : Chip :=
  if given.any fun m => !usbMsgOk m then c.inc F.USB_XERR else c.onMsg 3 want given f

/-- Takes a message of a mapped port, which came through the tunnel of its kind (R230); one with another epoch is discarded and
counted (R232). -/
def Chip.fromPort (given : Option Msg) (want : Msg → Bool) (f : Nat → Msg → Chip → Chip) (c : Chip) : Chip :=
  c.onUsb given (fun m => m.channel.toNat < 0xF0 && want m) fun m c =>
    let i := m.channel.toNat
    if !c.mapped i || c.mapTunnel i (isoKind (usbKind m)) != some m.tunnel.toNat then c
    else if usbEpoch m ≠ c.get (F.USB_VP0_PEPOCH i) then (c.inc F.USB_LATE_DISCARD).flag F.USB_INT_STATUS_LATE_DISCARD
    else f i m c

/-- The host that waits on an endpoint is told that it can go on. -/
def Chip.ready (i ep : Nat) (dirIn : Bool) (c : Chip) : Chip :=
  c.when ((c.vdev i).getEp ep dirIn).nrdy fun c => (c.modVdev i fun d => d.modEp ep dirIn fun e => { e with nrdy := false }).reply .erdy

/-- PROXY_IN_DATA_RX (R236, R237): buffered for the host's next IN tokens; control data is snooped (R233). -/
def Chip.inDataRx (i : Nat) (m : Msg) (c : Chip) : Chip :=
  let ep := usbEp m
  let d := c.vdev i
  let e := d.getEp ep true
  let d := if ep = 0 then { d with data := (d.data ++ m.payload).take 2048 }.learnEp0 else d
  let short := d.short (c.get (F.USB_VP0_SPEED i)) e m.payload.length
  (c.setVdev i (d.setEp { e with buf := e.buf ++ [m.payload], asked := if short then 0 else e.asked - 1 })).ready i ep true

def execProxyInDataRx (msg : Option Msg) (s : State) : Host.Outcome State Fault Refusal :=
  s.onChip (Chip.fromPort msg (fun m => usbKind m == kindInData) Chip.inDataRx)

/-- RESULT ACK: of an OUT packet it returns the credit, of a status stage it lets the host's complete. The result's DIR is
the direction of the transaction it ends (DEDUCED, log 14). -/
def Chip.resultAck (i : Nat) (m : Msg) (c : Chip) : Chip :=
  let d := c.vdev i
  let outData := match d.setup with
    | some l => !(SetupPacket.ofBytes l).isIn && (SetupPacket.ofBytes l).length != 0 && !usbDirIn m
    | none => false
  if usbEp m ≠ 0 || outData then (c.setVdev i (d.modEp (usbEp m) false fun e => { e with taken := e.taken - 1 })).ready i (usbEp m) false
  else (c.setVdev i { d with result := some 0 }).ready i 0 true

/-- RESULT STALL, ERROR or BABBLE (R238, R239): OUT packets accepted and not delivered are lost and counted. -/
def Chip.resultFail (i : Nat) (m : Msg) (c : Chip) : Chip :=
  let ep := usbEp m
  let dir := usbDirIn m
  let d := c.vdev i
  let e := d.getEp ep dir
  let lost := if dir then 0 else e.taken
  let d := d.setEp { e with halted := true, taken := 0, asked := 0 }
  let c := c.setVdev i (if ep = 0 then { d with result := some (usbRes m) } else d)
  let c := ((c.add F.USB_DEFER_LOST lost).ready i ep false).ready i ep true
  if usbRes m = 1 then (c.inc F.USB_DEFER_STALL).flag F.USB_INT_STATUS_DEFER_STALL else (c.inc F.USB_XERR).flag F.USB_INT_STATUS_XERR

/-- PROXY_RESULT_RX (R238, R239). ABORTED ends nothing that the head-end waits for. Marks: DEDUCED, log 14. -/
def Chip.resultRx (i : Nat) (m : Msg) (c : Chip) : Chip :=
  match usbRes m with
  | 0 => c.resultAck i m
  | 1 => c.resultFail i m
  | 2 => c.resultFail i m
  | 3 => c.resultFail i m
  | _ => c

def execProxyResultRx (msg : Option Msg) (s : State) : Host.Outcome State Fault Refusal :=
  s.onChip (Chip.fromPort msg (fun m => usbKind m == kindResult) Chip.resultRx)

/-- Is microframe `a` later than `b`, both modulo 2^14? -/
def microLater (a b : Nat) : Bool := let d := (a + 2 ^ 14 - b % 2 ^ 14) % 2 ^ 14; d ≠ 0 && decide (d < 2 ^ 13)

/-- PROXY_ISO_IN_RX (R245): kept for the host's token in microframe m + D, or discarded as late. -/
def Chip.isoInRx (i : Nat) (m : Msg) (c : Chip) : Chip :=
  let n := (usbArg m + c.isoDelay) % 2 ^ 14
  if microLater n c.hostMicroframe then c.modVdev i fun d => { d with iso := d.iso ++ [(n, usbEp m, m.payload)] }
  else c.inc F.USB_ISO_LATE

def execProxyIsoInRx (msg : Option Msg) (s : State) : Host.Outcome State Fault Refusal :=
  s.onChip (Chip.fromPort msg (fun m => usbKind m == kindIsoIn) Chip.isoInRx)

/-- PROXY_EP_RESET_RX (R240): the endpoint is reset when the status stage of the request that did it completes toward the host;
what it holds now is discarded then, and what comes after it stays. Marks: DEDUCED, log 42. -/
def Chip.epResetRx (i : Nat) (m : Msg) (c : Chip) : Chip :=
  let d := c.vdev i
  let e := d.getEp (usbEp m) (usbDirIn m)
  if d.setup.isSome then c.setVdev i (d.setEp { e with stale := some e.buf.length })
  else (c.add F.USB_PREFETCH_LOST e.ahead).setVdev i (d.setEp e.cleared)

def execProxyEpResetRx (msg : Option Msg) (s : State) : Host.Outcome State Fault Refusal :=
  s.onChip (Chip.fromPort msg (fun m => usbKind m == kindEpReset) Chip.epResetRx)

/-! Port events (Table 07-3). -/

/-- A port event of a code. -/
def isEvent (code : Nat) (m : Msg) : Bool := usbKind m == kindPortEvent && usbArg m == code

/-- The bit that reports a resume or wake on the port's tree (R248). -/
def Chip.resumeBit (c : Chip) (i : Nat) : Nat := if c.get (F.USB_VP0_SPEED i) = 4 then changeLinkState else changeSuspend

/-- PORT_EVENT_CONNECT (R233, R254). -/
def Chip.evConnect (i : Nat) (m : Msg) (c : Chip) : Chip :=
  let c := (c.dropVdev i).put (F.USB_VP0_CONNECT i) 1
  let c := ((c.put (F.USB_VP0_SPEED i) (payloadByte m 0 % 8)).put (F.USB_VP0_ENABLED i) 0).put (F.USB_VP0_ADDR i) 0
  ((c.setChange i changeConnection).showUsb).flag F.USB_INT_STATUS_ATTACH

def execPortEventConnect (msg : Option Msg) (s : State) : Host.Outcome State Fault Refusal :=
  s.onChip (Chip.fromPort msg (isEvent 1) Chip.evConnect)

/-- PORT_EVENT_DISCONNECT. -/
def execPortEventDisconnect (msg : Option Msg) (s : State) : Host.Outcome State Fault Refusal :=
  s.onChip (Chip.fromPort msg (isEvent 2) fun i _ c => (c.vportEmpty i).flag F.USB_INT_STATUS_DETACH)

/-- PORT_EVENT_RESET_DONE (R250). -/
def Chip.evResetDone (i : Nat) (m : Msg) (c : Chip) : Chip :=
  if !c.on (F.USB_VP0_RESETTING i) then c
  else
    let c := (c.put (F.USB_VP0_RESETTING i) 0).put (F.USB_VP0_ENABLED i) 1
    (c.put (F.USB_VP0_SPEED i) (payloadByte m 0 % 8)).setChange i changeReset

def execPortEventResetDone (msg : Option Msg) (s : State) : Host.Outcome State Fault Refusal :=
  s.onChip (Chip.fromPort msg (isEvent 3) Chip.evResetDone)

/-- PORT_EVENT_OVER_CURRENT (R253). -/
def Chip.evOverCurrent (i : Nat) (m : Msg) (c : Chip) : Chip :=
  if payloadByte m 0 = 1 then ((c.put (F.USB_VP0_OC i) 1).put (F.USB_VP0_ENABLED i) 0).setChange i changeOverCurrent
  else c.put (F.USB_VP0_OC i) 0

def execPortEventOverCurrent (msg : Option Msg) (s : State) : Host.Outcome State Fault Refusal :=
  s.onChip (Chip.fromPort msg (isEvent 4) Chip.evOverCurrent)

/-- PORT_EVENT_REMOTE_WAKE (R248, R249). -/
def Chip.evRemoteWake (i : Nat) (c : Chip) : Chip :=
  let merged := c.resumeMerged (c.vdev i).resumeAt
  let c := ((c.put (F.USB_VP0_LINK i) 0).setChange i (c.resumeBit i)).flag F.USB_INT_STATUS_WAKE
  let c := (c.modVdev i fun d => { d with wakeAt := some c.now, byHub := false }).usbFlush i
  c.when (!merged && c.get F.USB_STATUS_U0_LINK == 4 && c.on F.USB_CTL_RWAKE_UP && ((c.vhub 0 true).rwake || (c.vhub 0 false).rwake)) (Chip.usbAct 0 .wakeUp)

def execPortEventRemoteWake (msg : Option Msg) (s : State) : Host.Outcome State Fault Refusal :=
  s.onChip (Chip.fromPort msg (isEvent 5) fun i _ c => c.evRemoteWake i)

/-- A resume of a virtual port is complete (R246). -/
def Chip.resumeEnds (i : Nat) (c : Chip) : Chip :=
  let c := c.modVdev i fun d => { d with resumed := false }
  ((c.put (F.USB_VP0_LINK i) 0).setChange i (c.resumeBit i)).usbFlush i

/-- The resume time that USB requires, 20 ms of resume on USB 2.0, has not passed (R246). Marks: PRESUMED, log 13. -/
def Chip.resumeEarly (c : Chip) (i : Nat) : Bool :=
  c.get (F.USB_VP0_SPEED i) != 4 && (c.vdev i).resumeAt.any fun t => decide (c.now < t + 20 * millisecond)

/-- PORT_EVENT_RESUME_DONE (R246). -/
def Chip.evResumeDone (i : Nat) (c : Chip) : Chip :=
  if c.resumeEarly i then c.modVdev i fun d => { d with resumed := true } else c.resumeEnds i

def execPortEventResumeDone (msg : Option Msg) (s : State) : Host.Outcome State Fault Refusal :=
  s.onChip (Chip.fromPort msg (isEvent 6) fun i _ c => c.evResumeDone i)

/-- PORT_EVENT_DISABLED (R239): the virtual port reports disabled. -/
def Chip.evDisabled (i : Nat) (m : Msg) (c : Chip) : Chip :=
  let cause := payloadByte m 0
  let c := (c.dropVdev i).put (F.USB_VP0_ENABLED i) 0
  let c := c.when (cause == 2 || cause == 3) fun c => c.flag F.USB_INT_STATUS_REFUSED
  c.when (cause != 4) fun c => c.setChange i (if c.get (F.USB_VP0_SPEED i) = 4 then changeLinkState else changeEnable)

def execPortEventDisabled (msg : Option Msg) (s : State) : Host.Outcome State Fault Refusal :=
  s.onChip (Chip.fromPort msg (isEvent 7) Chip.evDisabled)

/-- PORT_EVENT_L1_STATE (R247): a link that left L1, or refused it, leaves the virtual port in L1 as far as the host sees. -/
def execPortEventL1State (msg : Option Msg) (s : State) : Host.Outcome State Fault Refusal :=
  s.onChip (Chip.fromPort msg (isEvent 8) fun _ _ c => c)

/-! The port map (R229, R256). -/

/-- A commit of port map word 0 that R229 allows: an entry that is VALID before or after acts as a disconnect followed by a
new connection. -/
def Chip.mapCommit (i : Nat) (w0 : Word) (c : Chip) : Chip :=
  if c.get (F.USB_MAP0 i) = w0.toNat then c
  else
    let was := c.on (F.USB_MAP0_VALID i)
    let c := c.when was (Chip.dropVdev i)
    let c := c.put (F.USB_MAP0 i) w0.toNat
    let c := c.when (was || w0.getLsbD 0) fun c => (c.vportEmpty i).setChange i changeConnection
    (c.when (c.mapped i) (Chip.sendSsHold i)).showUsb

/-- Would the write make a 91st entry VALID (R229)? -/
def Chip.mapOverfull (c : Chip) (i : Nat) (w0 : Word) : Bool := w0.getLsbD 0 && !c.on (F.USB_MAP0_VALID i) && decide (90 ≤ c.mapValid.length)

end Sys2Proof.Machine
end

