-- ==== Sys2Proof/Machine/UsbDev.lean ====
section
/-! DEFINITION. The USB adapter at a physical downstream port (07 R230 to R253): port commands, proxy messages, and what
the device does. -/

namespace Sys2Proof.Machine

/-- Takes a message of a physical downstream port, which came through the tunnel of its kind (R230). -/
def Chip.fromHost (given : Option Msg) (want : Msg → Bool) (f : Fin 2 → Msg → Chip → Chip) (c : Chip) : Chip :=
  c.onUsb given (fun m => (m.channel.toNat == 0xF0 || m.channel.toNat == 0xF1) && want m) fun m c =>
    let x : Fin 2 := if m.channel.toNat = 0xF0 then 0 else 1
    let own := if isoKind (usbKind m) then c.physIsoTunnel x else c.physTunnel x
    c.when (c.downstream x && own == some m.tunnel.toNat) (f x m)

/-! Port commands (Table 07-3). Each sets the epoch that the port's messages carry (R232). -/

/-- A port command of a code. -/
def isCommand (code : Nat) (m : Msg) : Bool := usbKind m == kindPortCmd && usbArg m == code

/-- Takes a port command and its epoch. -/
def Chip.onCommand (given : Option Msg) (code : Nat) (f : Fin 2 → Msg → Chip → Chip) (c : Chip) : Chip :=
  c.fromHost given (isCommand code) fun x m c => f x m (c.put (F.USB_U_STATUS_PEPOCH x) (usbEpoch m))

/-- Powers a physical port (R252). -/
def Chip.vbusOn (x : Fin 2) (c : Chip) : Chip := (c.put (F.USB_U_STATUS_VBUS_ON x) 1).usbAct x (.vbus true)

/-- Forgets the device of a port: nothing present, nothing enabled. -/
def Chip.noDevice (x : Fin 2) (c : Chip) : Chip :=
  let c := ((c.put (F.USB_U_STATUS_CONNECT x) 0).put (F.USB_U_STATUS_ENABLED x) 0).put (F.USB_U_STATUS_SPEED x) 0
  (c.put (F.USB_U_STATUS_LINK x) 0).modPhys x fun p => { p with dev := UsbDev.empty, resetting := false }

/-- Unpowers a physical port (R252, R253). -/
def Chip.vbusOff (x : Fin 2) (c : Chip) : Chip := ((c.put (F.USB_U_STATUS_VBUS_ON x) 0).usbAct x (.vbus false)).noDevice x

def execPortCmdPowerOn (msg : Option Msg) (s : State) : Host.Outcome State Fault Refusal :=
  s.onChip (Chip.onCommand msg 1 fun x _ c => c.when (c.on (F.USB_U_CTL_PORT_EN x)) (Chip.vbusOn x))

def execPortCmdPowerOff (msg : Option Msg) (s : State) : Host.Outcome State Fault Refusal :=
  s.onChip (Chip.onCommand msg 2 fun x _ c => c.vbusOff x)

/-- RESET and WARM_RESET (R250): the messages held for the port go, those of the new epoch apart, and the port's reset is
driven. -/
def Chip.physReset (x : Fin 2) (warm : Bool) (m : Msg) (c : Chip) : Chip :=
  let stale := fun (y : Msg) => y.channel == m.channel && usbEpoch y != usbEpoch m
  let c := c.modSwc fun w => { w with inbox := upd w.inbox 3 fun l => l.filter fun y => !stale y }
  let c := (c.put (F.USB_U_STATUS_ENABLED x) 0).put (F.USB_U_STATUS_LINK x) 0
  (c.modPhys x fun p => { p with dev := UsbDev.empty, resetting := true }).usbAct x (.reset warm)

def execPortCmdReset (msg : Option Msg) (s : State) : Host.Outcome State Fault Refusal :=
  s.onChip (Chip.onCommand msg 3 fun x m c => c.physReset x false m)

def execPortCmdWarmReset (msg : Option Msg) (s : State) : Host.Outcome State Fault Refusal :=
  s.onChip (Chip.onCommand msg 4 fun x m c => c.physReset x true m)

/-- SUSPEND (R246). -/
def execPortCmdSuspend (msg : Option Msg) (s : State) : Host.Outcome State Fault Refusal :=
  s.onChip (Chip.onCommand msg 5 fun x _ c => (c.put (F.USB_U_STATUS_LINK x) 4).usbAct x .suspend)

/-- RESUME (R246, R249): one that meets a device's wake drives no second resume. -/
def Chip.physResume (x : Fin 2) (c : Chip) : Chip :=
  let merged := c.resumeMerged (c.pdev x).wakeAt
  let c := c.when (!merged && c.get (F.USB_U_STATUS_LINK x) != 0) (Chip.usbAct x .resume)
  let c := (c.put (F.USB_U_STATUS_LINK x) 0).modPdev x fun d => { d with resumeAt := some c.now }
  c.portEvent x 6 []

def execPortCmdResume (msg : Option Msg) (s : State) : Host.Outcome State Fault Refusal :=
  s.onChip (Chip.onCommand msg 6 fun x _ c => c.physResume x)

def execPortCmdDisable (msg : Option Msg) (s : State) : Host.Outcome State Fault Refusal :=
  s.onChip (Chip.onCommand msg 7 fun x _ c => c.physDisable x 4)

/-- L1 (R247): `accepted` is the device's answer on the physical link. -/
def Chip.physL1 (x : Fin 2) (accepted : Bool) (m : Msg) (c : Chip) : Chip :=
  let c := c.usbAct x (.l1 (payloadByte m 0 % 16) (payloadByte m 1 == 1))
  (c.when accepted fun c => c.put (F.USB_U_STATUS_LINK x) 1).portEvent x 8 [if accepted then 1 else 0]

def execPortCmdL1 (msg : Option Msg) (accepted : Bool) (s : State) : Host.Outcome State Fault Refusal :=
  s.onChip (Chip.onCommand msg 8 fun x m c => c.physL1 x accepted m)

/-- U_TIMEOUT (R247): the timeouts govern the physical link. -/
def execPortCmdUTimeout (msg : Option Msg) (s : State) : Host.Outcome State Fault Refusal :=
  s.onChip (Chip.onCommand msg 9 fun x m c =>
    (c.modPhys x fun p => { p with u1 := payloadByte m 0, u2 := payloadByte m 1 }).usbAct x (.timeouts (payloadByte m 0) (payloadByte m 1)))

/-- SOF_OFFSET (R244). -/
def execPortCmdSofOffset (msg : Option Msg) (s : State) : Host.Outcome State Fault Refusal :=
  s.onChip (Chip.onCommand msg 10 fun x m c => c.modPhys x fun p => { p with sofOfs := beVal (m.payload.take 2) % 2048 })

/-- SS_HOLD (R251). -/
def execPortCmdSsHold (msg : Option Msg) (s : State) : Host.Outcome State Fault Refusal :=
  s.onChip (Chip.onCommand msg 11 fun x m c => c.modPhys x fun p => { p with ssHold := (payloadByte m 0 == 1) })

/-! Transfers (R236 to R241). -/

/-- A RESULT of a transaction (Table 07-2). Marks: DEDUCED, log 14. -/
def Chip.sendResult (x : Fin 2) (ep : Nat) (dirIn : Bool) (res : Nat) (c : Chip) : Chip := c.physSend x kindResult ep dirIn res 0 []

/-- The sequence numbers of a port's endpoints count modulo 32 on SuperSpeed, else they are toggles (R240). -/
def Chip.seqMod (c : Chip) (x : Fin 2) : Nat := if c.get (F.USB_U_STATUS_SPEED x) = 4 then 32 else 2

/-- Sends the held packets of an OUT endpoint that the device may have: a SuperSpeed burst under its NumP, else one (R241). -/
def Chip.pumpOut (x : Fin 2) (ep : Nat) (c : Chip) : Chip :=
  let e := (c.pdev x).getEp ep false
  let window := if c.get (F.USB_U_STATUS_SPEED x) = 4 then min (e.burst + 1) e.numP else 1
  let now_ := (e.buf.take window).drop e.sent
  let c := c.modPdev x fun d => d.setEp { e with sent := e.sent + now_.length }
  c.each now_ fun b c => c.usbAct x (.out ep e.stream b)

/-- A stage of the control transfer ends on the device, its data stage with it or not, and the next begins (Table 07-4): IN tokens
or OUT data for the data stage, then the status stage. -/
def Chip.controlNext (x : Fin 2) (ended : Bool) (c : Chip) : Chip :=
  match (c.pdev x).setup with
  | none => c
  | some l =>
    let s := SetupPacket.ofBytes l
    let to_ := fun (p : UsbStage) (c : Chip) => c.modPdev x fun d => { d with phase := some p }
    if s.length = 0 || ended then (to_ .status c).usbAct x (.status (!(s.isIn && s.length != 0)))
    else if s.isIn then (to_ .data c).usbAct x (.inToken 0 none)
    else (to_ .data c).pumpOut x 0

/-- PROXY_SETUP_RX (R236): the setup stage on the device. -/
def Chip.setupRx (x : Fin 2) (m : Msg) (c : Chip) : Chip :=
  (c.modPdev x fun d => { d.openControl (c.get (F.USB_U_STATUS_SPEED x) == 4) m.payload with phase := some .setup, moved := 0 }).usbAct x (.setup m.payload)

def execProxySetupRx (msg : Option Msg) (s : State) : Host.Outcome State Fault Refusal :=
  s.onChip (Chip.fromHost msg (fun m => usbKind m == kindSetup) Chip.setupRx)

/-- PROXY_OUT_DATA_RX (R236): packets go to the device in order, those of a control transfer once its setup stage is over. -/
def Chip.outDataRx (x : Fin 2) (m : Msg) (c : Chip) : Chip :=
  let e := (c.pdev x).getEp (usbEp m) false
  let (stream, body) := e.streamOf m.payload
  let c := c.modPdev x fun d => d.setEp { e with buf := e.buf ++ [body], stream := stream }
  c.when (usbEp m != 0 || (c.pdev x).phase == some .data) (Chip.pumpOut x (usbEp m))

def execProxyOutDataRx (msg : Option Msg) (s : State) : Host.Outcome State Fault Refusal :=
  s.onChip (Chip.fromHost msg (fun m => usbKind m == kindOutData) Chip.outDataRx)

/-- PROXY_IN_REQ_RX (R237): packets to read ahead, at most IN_AHEAD (R236); the device is asked for the first. -/
def Chip.inReqRx (x : Fin 2) (m : Msg) (c : Chip) : Chip :=
  let e := (c.pdev x).getEp (usbEp m) true
  let n := min (usbArg m) (orSixteen (c.get F.USB_CTL_IN_AHEAD))
  let stream := (e.streamOf m.payload).1
  let c := c.modPdev x fun d => d.setEp { e with asked := n, stream := stream }
  c.when (e.asked == 0 && n != 0) (Chip.usbAct x (.inToken (usbEp m) stream))

def execProxyInReqRx (msg : Option Msg) (s : State) : Host.Outcome State Fault Refusal :=
  s.onChip (Chip.fromHost msg (fun m => usbKind m == kindInReq) Chip.inReqRx)

/-- The device is asked for its next packet, where one is wanted. -/
def Chip.askIn (x : Fin 2) (ep : Nat) (c : Chip) : Chip :=
  let e := (c.pdev x).getEp ep true
  c.when (ep == 0 || (e.kind == .bulk && e.asked != 0)) (Chip.usbAct x (.inToken ep e.stream))

/-- A packet that the device gives: one IN_DATA message (R236, R237), but for one that it repeats (R240). Control data is snooped, and
its data stage ends with wLength bytes or a short packet; a hub's descriptor that has passed whole, or a configuration of more than
2,048 bytes, disables the port (R233, R235). -/
def Chip.deviceIn (x : Fin 2) (ep : Nat) (pkt : DevicePacket) (c : Chip) : Chip :=
  let d := c.pdev x
  let e := d.getEp ep true
  if ep ≠ 0 && e.kind == .bulk && e.asked == 0 then c
  else if pkt.seq.toNat ≠ e.seq then c.askIn x ep
  else
    let moved := d.moved + pkt.data.length
    let d := if ep = 0 then { d with data := (d.data ++ pkt.data).take 2048, moved := moved }.learnEp0 else d
    let short := d.short (c.get (F.USB_U_STATUS_SPEED x)) e pkt.data.length
    let d := d.setEp { e with asked := if short then 0 else e.asked - 1, seq := (e.seq + 1) % c.seqMod x }
    let c := (c.modPdev x fun _ => d).physSend x kindInData ep true 0 0 pkt.data
    if ep ≠ 0 then c.askIn x ep
    else
      let ended := short || (d.setup.any fun l => decide ((SetupPacket.ofBytes l).length ≤ moved))
      if ended && d.hubClass then c.physDisable x 2
      else if d.configTooLong then c.physDisable x 3
      else if ended then c.controlNext x true
      else c.askIn x 0

/-- An OUT packet that the device has taken: RESULT ACK, and the next packets go out, or the status stage of a control transfer begins.
With no packet before the device, its NumP alone is taken (R241). -/
def Chip.deviceOut (x : Fin 2) (ep : Nat) (numP : Nat) (c : Chip) : Chip :=
  let d := c.pdev x
  let e := d.getEp ep false
  match e.buf, e.sent with
  | b :: rest, n + 1 =>
    let moved := d.moved + b.length
    let d := if ep = 0 then { d with moved := moved } else d
    let d := d.setEp { e with buf := rest, sent := n, seq := (e.seq + 1) % c.seqMod x, numP := numP }
    let c := (c.modPdev x fun _ => d).sendResult x ep false 0
    if ep = 0 && (d.setup.any fun l => decide ((SetupPacket.ofBytes l).length ≤ moved)) then c.controlNext x true else c.pumpOut x ep
  | _, _ => (c.modPdev x fun d => d.setEp { e with numP := numP }).pumpOut x ep

/-- The status stage on the device (R233, R234, R240): endpoints that the request concerns are reset, each with its
EP_RESET, and RESULT ACK follows with the direction of the status stage (DEDUCED, log 14). -/
def Chip.deviceStatus (x : Fin 2) (c : Chip) : Chip :=
  match (c.pdev x).setup with
  | none => c
  | some l =>
    let s := SetupPacket.ofBytes l
    let (keys, d) := (c.pdev x).learn.applyRequest
    let c := c.modPdev x fun _ => { d with setup := none, data := [], phase := none, moved := 0 }
    let c := c.each keys fun k c => c.physSend x kindEpReset k.1 k.2 0 0 []
    c.sendResult x 0 (!(s.isIn && s.length != 0)) 0

/-- DEVICE_TRANSACTION_COMPLETE (R236 to R241). -/
def Chip.deviceDone (x : Fin 2) (ep : Nat) (dirIn : Bool) (stage : UsbStage) (pkt : DevicePacket) (c : Chip) : Chip :=
  match stage with
  | .setup => c.when ((c.pdev x).phase == some .setup) (Chip.controlNext x false)
  | .data => if dirIn then c.deviceIn x ep pkt else c.deviceOut x ep pkt.numP.toNat
  | .status => c.deviceStatus x

def execDeviceTransactionComplete (x : Fin 2) (ep : BitVec 4) (dirIn : Bool) (stage : UsbStage) (pkt : DevicePacket) (s : State) :
    Host.Outcome State Fault Refusal :=
  s.onChip fun c => c.when (c.downstream x) (Chip.deviceDone x ep.toNat dirIn stage pkt)

/-- A transaction that ends without success (R238, R239): the packets held for the endpoint go, and RESULT says why.
Marks: DEDUCED, log 42. -/
def Chip.deviceFail (x : Fin 2) (ep : Nat) (dirIn : Bool) (res : Nat) (c : Chip) : Chip :=
  (c.modPdev x fun d => d.modEp ep dirIn fun e => { e with buf := [], asked := 0, halted := true, sent := 0 }).sendResult x ep dirIn res

def execDeviceStall (x : Fin 2) (ep : BitVec 4) (dirIn : Bool) (s : State) : Host.Outcome State Fault Refusal :=
  s.onChip fun c => c.when (c.downstream x) (Chip.deviceFail x ep.toNat dirIn 1)

def execDeviceXferError (x : Fin 2) (ep : BitVec 4) (dirIn : Bool) (s : State) : Host.Outcome State Fault Refusal :=
  s.onChip fun c => c.when (c.downstream x) (Chip.deviceFail x ep.toNat dirIn 2)

def execDeviceBabble (x : Fin 2) (ep : BitVec 4) (dirIn : Bool) (s : State) : Host.Outcome State Fault Refusal :=
  s.onChip fun c => c.when (c.downstream x) fun c => (c.deviceFail x ep.toNat dirIn 3).physDisable x 1

/-- INTERRUPT_POLL (R236): while the host has polled the endpoint within its last 8 intervals (`polled`) and fewer than 2 packets are
kept, the device is polled, and what it gives travels. How the field hub knows these two the spec does not say. Marks: DEDUCED, log 42. -/
def Chip.interruptPoll (x : Fin 2) (ep : Nat) (polled : Bool) (kept : Nat) (pkt : Option DevicePacket) (c : Chip) : Chip :=
  c.when (polled && decide (kept < 2) && ((c.pdev x).getEp ep true).kind == .interrupt) fun c =>
    let c := c.usbAct x (.inToken ep none)
    match pkt with
    | some p => c.deviceIn x ep p
    | none => c

def execInterruptPoll (x : Fin 2) (ep : BitVec 4) (polled : Bool) (kept : Nat) (pkt : Option DevicePacket) (s : State) :
    Host.Outcome State Fault Refusal :=
  s.onChip fun c => c.when (c.downstream x) (Chip.interruptPoll x ep.toNat polled kept pkt)

/-! The device and its port (R243 to R254). -/

/-- DEVICE_REMOTE_WAKE (R248, R249). Marks: DEDUCED, log 42. -/
def Chip.deviceWake (x : Fin 2) (c : Chip) : Chip :=
  let merged := c.resumeMerged (c.pdev x).resumeAt
  let wasL1 := c.get (F.USB_U_STATUS_LINK x) == 1
  let c := c.when (!merged && c.get (F.USB_U_STATUS_LINK x) != 0) (Chip.usbAct x .resume)
  let c := (c.put (F.USB_U_STATUS_LINK x) 0).modPdev x fun d => { d with wakeAt := some c.now }
  (c.when wasL1 (Chip.portEvent x 8 [0])).portEvent x 5 []

def execDeviceRemoteWake (x : Fin 2) (s : State) : Host.Outcome State Fault Refusal :=
  s.onChip fun c => c.when (c.downstream x && c.on (F.USB_U_STATUS_CONNECT x)) (Chip.deviceWake x)

/-- The speed a port allows: high speed at most while SuperSpeed is off or held off (R251). -/
def Chip.speedLimit (c : Chip) (x : Fin 2) (speed : Nat) : Nat :=
  if speed = 4 && (c.usb.phys[x].ssHold || !c.on (F.USB_U_CTL_SS_EN x)) then 3 else speed

/-- DEVICE_ATTACH: a device connects at a speed, or with speed 0 disconnects. -/
def Chip.deviceAttach (x : Fin 2) (speed : Nat) (c : Chip) : Chip :=
  if speed = 0 then
    if c.on (F.USB_U_STATUS_CONNECT x) then ((c.noDevice x).portEvent x 2 []).flag F.USB_INT_STATUS_DETACH else c
  else if 4 < speed || !c.on (F.USB_U_CTL_PORT_EN x) || !c.on (F.USB_U_STATUS_VBUS_ON x) then c
  else
    let v := c.speedLimit x speed
    let c := ((c.noDevice x).put (F.USB_U_STATUS_CONNECT x) 1).put (F.USB_U_STATUS_SPEED x) v
    (c.portEvent x 1 [BitVec.ofNat 8 v]).flag F.USB_INT_STATUS_ATTACH

def execDeviceAttach (x : Fin 2) (speed : BitVec 3) (s : State) : Host.Outcome State Fault Refusal :=
  s.onChip fun c => c.when (c.downstream x) (Chip.deviceAttach x speed.toNat)

/-- PHYSICAL_RESET_END (R250): RESET_DONE with the speed. -/
def Chip.physResetEnd (x : Fin 2) (speed : Nat) (c : Chip) : Chip :=
  if !c.usb.phys[x].resetting then c
  else
    let v := c.speedLimit x speed
    let c := (c.modPhys x fun p => { p with resetting := false }).put (F.USB_U_STATUS_ENABLED x) (v != 0).toNat
    (c.put (F.USB_U_STATUS_SPEED x) v).portEvent x 3 [BitVec.ofNat 8 v]

def execPhysicalResetEnd (x : Fin 2) (speed : BitVec 3) (s : State) : Host.Outcome State Fault Refusal :=
  s.onChip fun c => c.when (c.downstream x) (Chip.physResetEnd x speed.toNat)

/-- Over-current at a port (R253 steps 1 to 4). -/
def Chip.overCurrent (x : Fin 2) (c : Chip) : Chip :=
  let c := (c.vbusOff x).put (F.USB_U_STATUS_OC x) 1
  ((c.portEvent x 4 [1]).inc F.USB_OC_EVENTS).flag F.USB_INT_STATUS_OVERCURRENT

/-- VBUS_GOOD_TIMEOUT (R252): VBUS did not come, and the port reports an over-current. Marks: DEDUCED, log 42. -/
def execVbusGoodTimeout (x : Fin 2) (s : State) : Host.Outcome State Fault Refusal :=
  s.onChip fun c => c.when (c.downstream x && c.on (F.USB_U_STATUS_VBUS_ON x)) (Chip.overCurrent x)

/-- OC_DEGLITCH_EXPIRY (R253): the pin has been low, or high again, for the whole time. -/
def execOcDeglitchExpiry (x : Fin 2) (low : Bool) (s : State) : Host.Outcome State Fault Refusal :=
  s.onChip fun c => c.when (c.downstream x) fun c =>
    let oc := c.on (F.USB_U_STATUS_OC x)
    if low then c.when (!oc || c.on (F.USB_U_STATUS_VBUS_ON x)) (Chip.overCurrent x)
    else c.when oc fun c => (c.put (F.USB_U_STATUS_OC x) 0).portEvent x 4 [0]

/-! Microframes (R243 to R245). -/

/-- The frame number that a port's start-of-frame carries (R244). -/
def Chip.sofNumber (c : Chip) (x : Fin 2) : Nat := (c.get F.FAB_FRAME + c.usb.phys[x].sofOfs) % 2048

/-- The port's start of microframe `k`: high-speed and SuperSpeed ports every time, others at the frame tick. -/
def Chip.portSof (x : Fin 2) (k : Nat) (c : Chip) : Chip :=
  let go := c.downstream x && c.on (F.USB_U_STATUS_ENABLED x) && c.get (F.USB_U_STATUS_LINK x) != 4
  c.when (go && (decide (3 ≤ c.get (F.USB_U_STATUS_SPEED x)) || k == 0)) (Chip.usbAct x (.startOfFrame (c.sofNumber x) k))

/-- Isochronous OUT data of this microframe goes to the device. -/
def Chip.isoOutDue (x : Fin 2) (k : Nat) (c : Chip) : Chip :=
  let n := c.sofNumber x * 8 + k
  let due := (c.pdev x).iso.filter fun y => y.1 == n
  let c := c.modPdev x fun d => { d with iso := d.iso.filter fun y => y.1 != n }
  c.each due fun y c => c.usbAct x (.out y.2.1 none y.2.2)

/-- What the device gave in this microframe travels as ISO_IN (R245). -/
def Chip.isoInRead (x : Fin 2) (k ep : Nat) (data : List Byte) (c : Chip) : Chip :=
  match c.physIsoTunnel x with
  | some t =>
    c.when (c.downstream x && ((c.pdev x).getEp ep true).kind == .iso) (Chip.sendMsg 3 t
      (usbTspec kindIsoIn ep true 0 (c.get (F.USB_U_STATUS_PEPOCH x)) (c.sofNumber x * 8 + k)) data)
  | none => c

/-- Service interval of an isochronous endpoint in microframes: 2^(bInterval − 1), in frames at full speed (PRESUMED, log 13). -/
def isoInterval (e : UsbEp) (highSpeed : Bool) : Nat := 2 ^ (min e.interval 16 - 1) * if highSpeed then 1 else 8

/-- IN data that the host has not taken in time is discarded and counted (R245). -/
def Chip.isoUnread (i : Nat) (c : Chip) : Chip :=
  let d := c.vdev i
  let hs := decide (3 ≤ c.get (F.USB_VP0_SPEED i))
  let old := fun (y : Nat × Nat × List Byte) => microLater c.hostMicroframe ((y.1 + isoInterval (d.getEp y.2.1 true) hs) % 2 ^ 14)
  let l := d.iso.filter old
  if l.isEmpty then c else (c.add F.USB_ISO_UNREAD l.length).modVdev i fun d => { d with iso := d.iso.filter fun y => !old y }

/-- MICROFRAME_START: microframe `k` of the frame begins; `isoIn` is what the devices give in it. Resumes whose
time has come are reported (R246). -/
def Chip.microframe (k : Nat) (isoIn : List (Fin 2 × BitVec 4 × List Byte)) (c : Chip) : Chip :=
  let c := c.each [(0 : Fin 2), 1] fun x c => (c.portSof x k).isoOutDue x k
  let c := c.each isoIn fun y c => c.isoInRead y.1 k y.2.1.toNat y.2.2
  c.each c.mapList fun i c => (c.isoUnread i).when ((c.vdev i).resumed && !c.resumeEarly i) (Chip.resumeEnds i)

def execMicroframeStart (k : Fin 8) (isoIn : List (Fin 2 × BitVec 4 × List Byte)) (s : State) : Host.Outcome State Fault Refusal :=
  s.onChip (Chip.microframe k.val isoIn)

/-- PROXY_ISO_OUT_RX (R245): kept for its microframe, or discarded as late. -/
def Chip.isoOutRx (x : Fin 2) (m : Msg) (c : Chip) : Chip :=
  if microLater (usbArg m) (c.sofNumber x * 8 + c.subns / 125_000) then
    c.modPdev x fun d => { d with iso := d.iso ++ [(usbArg m, usbEp m, m.payload)] }
  else c.inc F.USB_ISO_LATE

def execProxyIsoOutRx (msg : Option Msg) (s : State) : Host.Outcome State Fault Refusal :=
  s.onChip (Chip.fromHost msg (fun m => usbKind m == kindIsoOut) Chip.isoOutRx)

end Sys2Proof.Machine
end

