-- ==== Sys2Proof/Machine/Window.lean ====
section
/-! DEFINITION. The window bridge's commands that need no register access (08 R261 to R287): completions, lock messages,
timers, the PCI Express link, the DMA rings and the staging writer. -/

namespace Sys2Proof.Machine

/-! Completions (R269, R273 to R277). -/

/-- A completion with data (R269); on a quarantined tag its data comes late. -/
def Chip.cplData (m : Msg) (c : Chip) : Chip :=
  if c.win.out.any fun r => r.tag == winTag m && !r.write then c.winComplete (winTag m) (winStatus m) m.payload
  else c.lateData (winTag m) m.payload

def execBridgeCplDRx (msg : Option Msg) (s : State) : Host.Outcome State Fault Refusal := s.onChip (Chip.onWin 3 msg Chip.cplData)

/-- BRIDGE_PWERR_RX (R276): the write is known by its tag and its address, also once its WR_NP has been abandoned. -/
def Chip.pwerr (m : Msg) (c : Chip) : Chip :=
  let mine := c.win.sent.find? fun x => x.tag == winTag m && x.fwa == winFwa m
  let np := match c.win.out.find? fun r => r.tag == winTag m && r.write && r.fwa == winFwa m with
    | some r => some (true, r.drive)
    | none => mine.map fun (x : SentWrite) => (x.np, x.drive)
  c.writeFailed (winFwa m) (winStatus m) ((np.map Prod.fst).getD false) ((np.map Prod.snd).getD false)

def execBridgePwerrRx (msg : Option Msg) (s : State) : Host.Outcome State Fault Refusal := s.onChip (Chip.onWin 5 msg Chip.pwerr)

/-! Locks (R279, R281). -/

def execLockReqRx (msg : Option Msg) (s : State) : Host.Outcome State Fault Refusal := s.onChip (Chip.onWin 6 msg Chip.lockReqRx)
def execLockGrantRx (msg : Option Msg) (s : State) : Host.Outcome State Fault Refusal := s.onChip (Chip.onWin 7 msg Chip.lockGrantRx)
def execLockRetryRx (msg : Option Msg) (s : State) : Host.Outcome State Fault Refusal := s.onChip (Chip.onWin 8 msg Chip.lockRetryRx)
def execLockBrokenRx (msg : Option Msg) (s : State) : Host.Outcome State Fault Refusal := s.onChip (Chip.onWin 10 msg Chip.lockBrokenRx)
def execLockBackoffExpiry (s : State) : Host.Outcome State Fault Refusal := s.onChip Chip.lockBackoffEnd

/-! Timers (R272). -/

/-- PREFETCH_IDLE_EXPIRY (R270): a buffer that begins at an address has gone 500 µs without a hit. -/
def execPrefetchIdleExpiry (fwa : BitVec 64) (s : State) : Host.Outcome State Fault Refusal :=
  s.onChip (Chip.pfDiscard fun b => b.fwa == fwa.toNat)

/-- CPL_TIMEOUT (R272, R273, R276, R277). -/
def Chip.cplTimeout (tag : Nat) (c : Chip) : Chip :=
  match c.win.out.find? fun r => r.tag == tag with
  | none => c
  | some r =>
    let c := (c.inc F.WIN_CPL_TIMEOUT).abandon r 0
    let c := c.when r.write (Chip.writeFailed r.fwa 3 true r.drive)
    (c.reqEnd r 3 []).winPump

/-- The target's answer to a request (R262): CPL_D or CPL to a read, PWERR to a write that failed, CPL to a non-posted one. -/
def Chip.tgtAnswer (tunnel tag : Nat) (write posted : Bool) (fwa status : Nat) (bytes : List Byte) (c : Chip) : Chip :=
  if write then
    let c := c.when (status != 0) (Chip.winSend tunnel 5 tag status false 0 (beBytes 8 fwa))
    c.when (!posted) (Chip.winSend tunnel 4 tag status false 0 [])
  else if status = 0 then c.winSend tunnel 3 tag 0 false bytes.length bytes
  else c.winSend tunnel 4 tag status false 0 []

/-- TARGET_TIMEOUT (R272): the local link has not answered. -/
def Chip.targetTimeout (tunnel tag : Nat) (c : Chip) : Chip :=
  match c.win.target.find? fun r => r.tunnel == tunnel && r.tag == tag with
  | none => c
  | some r => (c.modWin fun w => { w with target := w.target.erase r }).tgtAnswer tunnel tag r.write r.posted r.fwa 3 []

def execTargetTimeout (tunnel : BitVec 12) (tag : Byte) (s : State) : Host.Outcome State Fault Refusal :=
  s.onChip (Chip.targetTimeout tunnel.toNat tag.toNat)

/-- TAG_QUARANTINE_EXPIRY (R272). -/
def execTagQuarantineExpiry (tag : Byte) (s : State) : Host.Outcome State Fault Refusal :=
  s.onChip fun c => (c.modWin fun w => { w with quarantine := w.quarantine.filter fun q => q.1 != tag.toNat }).winPump

/-! The PCI Express link (R263, R265, R287). -/

/-- PCIE_LINK_DOWN (R265): PE_PERST_N has asserted (`perst`), or the link has been out for 10 ms. Marks: DEDUCED, log 43. -/
def Chip.pcieDown (perst : Bool) (c : Chip) : Chip :=
  let c := c.abandonAll
  let c := c.each ((c.written 0x0A_0808 0x20 64).filter fun n => c.on (F.WIN_DMA2_EN n)) Chip.dmaStop
  let c := ((c.put F.WIN_STATUS_LINK_UP 0).put F.WIN_STATUS_SPEED 0).put F.WIN_STATUS_WIDTH 0
  let c := (c.put F.WIN_STATUS_BME 0).when c.headEnd fun c => c.put F.WIN_STATUS_PERST perst.toNat
  c.flag F.WIN_INT_STATUS_LINK_DOWN

def execPcieLinkDown (perst : Bool) (s : State) : Host.Outcome State Fault Refusal := s.onChip (Chip.pcieDown perst)

/-- PCIE_LINK_UP (R263, R265): the link is in L0 at a rate and width within the caps; at a head-end the host may have set Bus
Master Enable, and uses MSI or MSI-X. -/
def Chip.pcieUp (speed width : Nat) (enables : PcieEnables) (c : Chip) : Chip :=
  let held := c.get F.WIN_PCI_ID_VID == 0 || (!c.headEnd && (c.on F.WIN_RP_CTL_PERST || !c.on F.WIN_RP_CTL_LINK_EN))
  if held || speed = 0 || width = 0 then c
  else
    let gen := max 1 (c.get F.WIN_PCI_CFG_GEN_MAX)
    let lanes := if c.get F.WIN_PCI_CFG_WIDTH_MAX = 1 then 1 else 2
    let c := ((c.put F.WIN_STATUS_LINK_UP 1).put F.WIN_STATUS_SPEED (min speed gen)).put F.WIN_STATUS_WIDTH (min width lanes)
    c.when c.headEnd fun c => ((c.put F.WIN_STATUS_PERST 0).put F.WIN_STATUS_BME enables.busMaster.toNat).modWin fun w => { w with msi := enables.msi }

def execPcieLinkUp (speed : BitVec 2) (width : BitVec 2) (enables : PcieEnables) (s : State) : Host.Outcome State Fault Refusal :=
  s.onChip (Chip.pcieUp speed.toNat width.toNat enables)

/-- DRIVE_MSI (R287). -/
def Chip.driveMsi (addr data : Nat) (c : Chip) : Chip :=
  if c.headEnd || addr < 0xFEE0_0000 || 0xFEE0_0FFF < addr then c
  else (c.flag ⟨F.WIN_DEV_MSI.off, data % 32, 1⟩).flag F.WIN_INT_STATUS_DEV_MSI

def execDriveMsi (addr : BitVec 64) (data : BitVec 32) (s : State) : Host.Outcome State Fault Refusal :=
  s.onChip (Chip.driveMsi addr.toNat data.toNat)

/-! DMA rings and the staging writer (R283, R284). -/

def execDmaRxBarge (n : Fin 64) (descs : List DmaDesc) (s : State) : Host.Outcome State Fault Refusal :=
  s.onChip fun c => c.when c.headEnd (Chip.dmaRx n.val descs)

def execDmaTxMessage (n : Fin 64) (descs : List DmaDesc) (s : State) : Host.Outcome State Fault Refusal :=
  s.onChip (Chip.dmaTx n.val descs)

def execDmaInterruptModeration (n : Fin 64) (byTime : Bool) (s : State) : Host.Outcome State Fault Refusal :=
  s.onChip (Chip.dmaModerate n.val byTime)

def execStageRingWrite (s : State) : Host.Outcome State Fault Refusal := s.onChip Chip.stageWrite

end Sys2Proof.Machine
end

