-- ==== Sys2Proof/Machine/Video.lean ====
section
/-! DEFINITION. The video adapter P5 (09 R289 to R301). -/

namespace Sys2Proof.Machine

def Chip.modVid (c : Chip) (f : Vid → Vid) : Chip := { c with vid := f c.vid }
def Chip.modCsi (c : Chip) (n : Fin 4) (f : CsiStream → CsiStream) : Chip := c.modVid fun v => { v with csi := upd v.csi n f }

/-! Camera input (R289 to R296). -/

/-- The packet header's check (R289): counts, and whether the packet is taken. -/
def Chip.csiHeader (h : CsiHeader) (c : Chip) : Bool × Chip :=
  if !c.on F.VID_CTL_CSI_EN then (false, c)
  else
    let c := c.put F.VID_STATUS_CSI_CLK 1
    match h with
    | .good => (true, c)
    | .corrected => (true, c.inc F.VID_CSI_ECC_CORR)
    | .bad => (false, c.inc F.VID_CSI_HDR_ERR)
    | .vcx => (false, c.inc F.VID_CSI_HDR_ERR)

/-- Enabled streams of a virtual channel (R290). -/
def Chip.csiStreams (c : Chip) (vc : Nat) : List (Fin 4) :=
  (List.finRange 4).filter fun n => c.on (F.VID_CSI_S_EN n) && c.get (F.VID_CSI_S_VC n) == vc

/-- SEG_MAX in bytes (R292). -/
def Chip.segMax (c : Chip) (n : Nat) : Nat := 16 * max 64 (min 4096 (c.get (F.VID_CSI_S_SEG_SEG_MAX n)))

/-- The 16-byte segment header (Table 09-1). -/
def segmentHeader (frame subns stream dt fcnt firstLine lines lineBytes : Nat) (fs fe crcErr lenErr trunc : Bool) : List Byte :=
  beBytes 16 (frame % 2 ^ 32 * 2 ^ 96 + subns % 2 ^ 20 * 2 ^ 76 + stream % 4 * 2 ^ 74 + dt % 64 * 2 ^ 68 + fcnt % 65536 * 2 ^ 52
    + firstLine % 65536 * 2 ^ 36 + lines % 4096 * 2 ^ 24 + lineBytes % 65536 * 2 ^ 8 + fs.toNat * 2 ^ 7 + fe.toNat * 2 ^ 6
    + crcErr.toNat * 2 ^ 5 + lenErr.toNat * 2 ^ 4 + trunc.toNat * 2 ^ 3)

/-- Sends the open segment of a stream (R292): on its tunnel, where the map entry names P5 and the stream's channel. -/
def Chip.sendSegment (n : Fin 4) (fe trunc : Bool) (c : Chip) : Chip :=
  let x := c.vid.csi[n]
  let t := c.get (F.VID_CSI_S_TUNNEL n)
  let e := c.tunEntry t
  let h := segmentHeader x.frame x.subns n.val (c.get (F.VID_CSI_S_DT n)) (c.get (F.VID_CSI_S_STATUS_FCNT n)) x.firstLine x.lines.length
    (x.lineBytes.getD 0) x.first fe x.crcErr x.lenErr trunc
  let c := c.when (e.valid && e.adapter == 5 && e.channel == n.val) (Chip.sendMsg 5 t 0 (h ++ x.lines.flatten))
  c.modCsi n fun x => { x with firstLine := x.firstLine + x.lines.length, lines := [], first := false, crcErr := false, lenErr := false }

/-- Ends the open frame of a stream; `trunc` without an FE of its own (R294). Marks: DEDUCED, log 47. -/
def Chip.closeFrame (n : Fin 4) (trunc : Bool) (c : Chip) : Chip :=
  if !c.on (F.VID_CSI_S_STATUS_OPEN n) then c
  else ((c.sendSegment n true trunc).put (F.VID_CSI_S_STATUS_OPEN n) 0).inc F.VID_CSI_FRAMES

/-- Is the frame sent under the budget's decimation (R293)? -/
def Chip.csiSends (c : Chip) (n : Fin 4) (fcnt : Nat) : Bool :=
  let vdec := wordField c.bud.row 20 3
  let applies := c.on (F.VID_CSI_S_DEC_EN n) && c.on F.SCH_CTL_BUDGET_EN && decide (2 ≤ (c.tunEntry (c.get (F.VID_CSI_S_TUNNEL n))).budget)
  !applies || (vdec != 7 && fcnt % 2 ^ vdec == 0)

/-- FS at one stream (R291, R293, R294). -/
def Chip.streamStart (n : Fin 4) (c : Chip) : Chip :=
  let c := c.closeFrame n true
  let c := c.when (c.on (F.VID_CSI_S_STATUS_LOST n)) fun c => (c.put (F.VID_CSI_S_STATUS_LOST n) 0).flag F.VID_INT_STATUS_CSI_RESUME
  let c := c.inc (F.VID_CSI_S_STATUS_FCNT n)
  if c.csiSends n (c.get (F.VID_CSI_S_STATUS_FCNT n)) then
    (c.put (F.VID_CSI_S_STATUS_OPEN n) 1).modCsi n fun _ => { CsiStream.reset with frame := c.get F.FAB_FRAME, subns := c.subns }
  else c.inc F.VID_CSI_DECIMATED

/-- CSI_FRAME_START. -/
def Chip.csiFrameStart (vc : Nat) (h : CsiHeader) (c : Chip) : Chip :=
  let (ok, c) := c.csiHeader h
  if ok then c.each (c.csiStreams vc) Chip.streamStart else c

def execCsiFrameStart (vc : BitVec 2) (hdr : CsiHeader) (s : State) : Host.Outcome State Fault Refusal :=
  s.onChip (Chip.csiFrameStart vc.toNat hdr)

/-- Bytes of a stream that its port still holds: the segments offered and not yet admitted. A segment that a line completes leaves as that
line comes, and is not among them. Marks: DEDUCED, log 47. -/
def Chip.csiWaiting (c : Chip) (n : Fin 4) : Nat :=
  let t := c.get (F.VID_CSI_S_TUNNEL n)
  ((c.swc.offers[5].filter fun o => o.tunnel.toNat == t).map fun o => o.payload.length).foldl (· + ·) 0

/-- A line for one stream (R291, R292, R295). The open segment goes out when the next line does not fit. -/
def Chip.streamLine (n : Fin 4) (crcOk : Bool) (data : List Byte) (c : Chip) : Chip :=
  if !c.on (F.VID_CSI_S_STATUS_OPEN n) then c
  else
    let lb := (c.vid.csi[n].lineBytes).getD data.length
    let c := c.modCsi n fun x => { x with lineBytes := some lb }
    let held := c.csiWaiting n
    let k := c.vid.csi[n].lines.length
    let c := c.when (k != 0 && (decide (c.segMax n < 16 + (k + 1) * lb) || k == 4095)) (Chip.sendSegment n false false)
    let k := c.vid.csi[n].lines.length
    if 65536 < held + 16 + (k + 1) * lb then ((c.closeFrame n true).inc F.VID_CSI_OVF).flag F.VID_INT_STATUS_CSI_OVF
    else
      c.modCsi n fun x => { x with
        lines := x.lines ++ [data.take lb ++ List.replicate (lb - data.length) 0]
        crcErr := x.crcErr || !crcOk, lenErr := x.lenErr || data.length != lb }

/-- CSI_LINE_RX. Marks: DEDUCED, log 47. -/
def Chip.csiLine (vc dt : Nat) (h : CsiHeader) (crcOk : Bool) (data : List Byte) (c : Chip) : Chip :=
  let (ok, c) := c.csiHeader h
  let l := (c.csiStreams vc).filter fun (n : Fin 4) => c.get (F.VID_CSI_S_DT n) == dt
  if !ok || l.isEmpty then c
  else if 65520 < data.length then c.inc F.VID_CSI_LEN_ERR
  else (c.when (!crcOk) fun c => c.inc F.VID_CSI_CRC_ERR).each l fun (n : Fin 4) c => c.streamLine n crcOk data

def execCsiLineRx (vc : BitVec 2) (dt : BitVec 6) (hdr : CsiHeader) (crcOk : Bool) (data : List Byte) (s : State) :
    Host.Outcome State Fault Refusal :=
  s.onChip (Chip.csiLine vc.toNat dt.toNat hdr crcOk data)

/-- CSI_FRAME_END (R292). -/
def Chip.csiFrameEnd (vc : Nat) (h : CsiHeader) (c : Chip) : Chip :=
  let (ok, c) := c.csiHeader h
  if ok then c.each (c.csiStreams vc) fun n c => c.closeFrame n false else c

def execCsiFrameEnd (vc : BitVec 2) (hdr : CsiHeader) (s : State) : Host.Outcome State Fault Refusal :=
  s.onChip (Chip.csiFrameEnd vc.toNat hdr)

/-- CSI_STREAM_LOSS (R294). -/
def Chip.csiLoss (n : Fin 4) (c : Chip) : Chip :=
  if !c.on F.VID_CTL_CSI_EN || !c.on (F.VID_CSI_S_EN n) || c.on (F.VID_CSI_S_STATUS_LOST n) then c
  else ((c.put (F.VID_CSI_S_STATUS_LOST n) 1).flag F.VID_INT_STATUS_CSI_LOSS).closeFrame n true

def execCsiStreamLoss (n : Fin 4) (s : State) : Host.Outcome State Fault Refusal := s.onChip (Chip.csiLoss n)

/-! Display output (R297 to R301). -/

/-- Bits of a pixel of FORMAT (R297). -/
def Chip.dsiPixel (c : Chip) : Nat := match c.get F.VID_DSI_CFG_FORMAT with | 1 => 18 | 3 => 16 | _ => 24

/-- Bytes of a display line: HACT pixels of FORMAT (R297, R299). -/
def Chip.dsiLineBytes (c : Chip) : Nat := c.get F.VID_DSI_H0_HACT * c.dsiPixel / 8

/-- Bits that the output sends in 100 ns: lanes × lane rate (R297). -/
def Chip.dsiRate (c : Chip) : Nat :=
  let r := c.get F.VID_DSI_CFG_RATE
  (c.get F.VID_DSI_CFG_LANES + 1) * (if 8 ≤ r && r ≤ 150 then r else 50)

/-- How long ago, in ns, the frame start that is due was scheduled (R298): the last of the NUM starts of its group. -/
def Chip.dsiLate (c : Chip) : Nat :=
  let num := max 1 (c.get F.VID_DSI_RATE_NUM)
  let den := max 1 (c.get F.VID_DSI_RATE_DEN)
  let g := c.get F.FAB_FRAME % den * 1_000_000 + c.subns
  (List.range num).foldl (fun (m : Nat) i => let x := i * den * 1_000_000 / num; if x ≤ g then min m (g - x) else m) g

/-- Did the start that is due fall within the VTOTAL lines of the frame before it, and so wait for its end (R298)? The lines take
VTOTAL × HTOTAL pixel clocks. Marks: DEDUCED, log 47. -/
def Chip.dsiSlips (c : Chip) : Bool :=
  c.on F.VID_DSI_CFG_LOCK_EN &&
    match c.vid.started with
    | some t => decide (c.now * c.dsiRate
        < (t + c.dsiLate) * c.dsiRate + c.get F.VID_DSI_V0_VTOTAL * c.get F.VID_DSI_H0_HTOTAL * c.dsiPixel * 100)
    | none => false

/-- How a line is sent (R297): on virtual channel 0, a start of the horizontal sync and with sync pulses its end, the pixel stream of
FORMAT, and an EoTp where EOTP asks for it. The data types are those of MIPI DSI (PRESUMED, log 13). -/
def Chip.dsiMode (c : Chip) : DsiMode :=
  let sync := c.get F.VID_DSI_CFG_SYNC
  let pixels := match c.get F.VID_DSI_CFG_FORMAT with | 0 => 0x3E | 1 => 0x1E | 2 => 0x2E | _ => 0x0E
  { vc := 0, burst := sync == 2
    types := [0x21] ++ (if sync = 1 ∨ sync = 2 then [] else [0x31]) ++ [pixels] ++ (if c.on F.VID_DSI_CFG_EOTP then [0x08] else []) }

/-- A fill line: VID_DSI_FILL, reduced to FORMAT (R300). -/
def Chip.dsiFill (y : Nat) (c : Chip) : Chip :=
  let rgb := c.get F.VID_DSI_FILL_RGB
  let part := fun (lo bits : Nat) => rgb / 2 ^ lo % 256 / 2 ^ (8 - bits)
  match c.get F.VID_DSI_CFG_FORMAT with
  | 0 => c.emit (.dsiFill y c.dsiMode (part 16 8) (part 8 8) (part 0 8))
  | 3 => c.emit (.dsiFill y c.dsiMode (part 16 5) (part 8 6) (part 0 5))
  | _ => c.emit (.dsiFill y c.dsiMode (part 16 6) (part 8 6) (part 0 6))

/-- Frees the lines of the source frame being shown up to line `y` (R300). -/
def DsiSegment.freed (x : DsiSegment) (y : Nat) : DsiSegment :=
  { x with firstLine := max x.firstLine (y + 1), lines := x.lines.drop (y + 1 - x.firstLine) }

/-- Bytes held in the line buffer. -/
def Chip.dsiHeld (c : Chip) : Nat := (c.vid.buf.map fun x => x.lines.flatten.length).foldl (· + ·) 0

/-- Is a source frame of counter `f` older than `g`?. Marks: DEDUCED, log 47. -/
def fcntOlder (f g : Nat) : Bool := decide (32768 ≤ (f + 65536 - g % 65536) % 65536)

/-- Cuts bytes into lines. -/
def cutLines (lb : Nat) : Nat → List Byte → List (List Byte)
  | 0, _ => []
  | n + 1, l => l.take lb :: cutLines lb n (l.drop lb)

/-- DSI_SEGMENT_RX (R299, R300). Marks: DEDUCED, log 47. -/
def Chip.dsiSegment (m : Msg) (c : Chip) : Chip :=
  let w := beVal (m.payload.take 16)
  let field := fun lo n => w / 2 ^ lo % 2 ^ n
  let fcnt := field 52 16
  let first := field 36 16
  let lines := field 24 12
  let lb := field 8 16
  let c := c.when m.cmark fun c => c.inc F.VID_CMARK
  if m.payload.length < 16 || lb ≠ c.dsiLineBytes || c.get F.VID_DSI_V0_VACT < first + lines || m.payload.length ≠ 16 + lines * lb then
    c.inc F.VID_RX_DISCARD
  else
    let key := (fcnt, field 96 32, field 76 20)
    let late := match c.vid.shown with
      | some (f, fr, sn) =>
        if (f, fr, sn) = key then !c.on F.VID_DSI_STATUS_SHOWING || decide (first + lines ≤ c.vid.line)
        else c.on F.VID_DSI_STATUS_SHOWING && fcntOlder fcnt f
      | none => false
    if late || 65536 < c.dsiHeld + lines * lb then c.inc F.VID_DSI_LATE
    else c.modVid fun v => { v with buf := v.buf ++ [{
      fcnt := fcnt, frame := field 96 32, subns := field 76 20, firstLine := first, fs := w.testBit 7, lines := cutLines lb lines (m.payload.drop 16) }] }

def execDsiSegmentRx (msg : Option Msg) (s : State) : Host.Outcome State Fault Refusal :=
  s.onChip (Chip.onMsg 5 (fun m => m.channel == 0x10) msg Chip.dsiSegment)

def DsiSegment.key (x : DsiSegment) : Nat × Nat × Nat := (x.fcnt, x.frame, x.subns)

/-- The oldest source frame whose FS segment is buffered and that has not been shown (R300). -/
def Chip.dsiOldest (c : Chip) : Option DsiSegment :=
  (c.vid.buf.filter fun x => x.fs && c.vid.shown != some x.key).foldl (fun (m : Option DsiSegment) x =>
    match m with
    | some y => if fcntOlder x.fcnt y.fcnt then some x else m
    | none => some x) none

/-- DSI_FRAME_START (R298, R300). -/
def Chip.dsiFrameStart (c : Chip) : Chip :=
  if !c.on F.VID_CTL_DSI_EN then c
  else
    let c := (c.put F.VID_STATUS_DSI_RUN 1).put F.VID_STATUS_DSI_LOCKED (c.on F.VID_DSI_CFG_LOCK_EN && c.on F.FAB_TIME_STATUS_LOCKED).toNat
    let c := c.when c.dsiSlips fun c => (c.inc F.VID_DSI_SLIP).flag F.VID_INT_STATUS_DSI_SLIP
    let c := (c.inc F.VID_DSI_FRAMES).modVid fun v => { v with line := 0, started := some c.now }
    match c.dsiOldest with
    | some x =>
      let old := c.vid.buf.filter fun y => y.key != x.key && fcntOlder y.fcnt x.fcnt
      let c := (c.add F.VID_DSI_LATE old.length).modVid fun v => { v with
        buf := v.buf.filter fun y => !(y.key != x.key && fcntOlder y.fcnt x.fcnt), shown := some x.key }
      (c.put F.VID_DSI_STATUS_SRC_FCNT x.fcnt).put F.VID_DSI_STATUS_SHOWING 1
    | none => ((c.inc F.VID_DSI_BLANK).put F.VID_DSI_STATUS_SHOWING 0).flag F.VID_INT_STATUS_DSI_UNDERRUN

def execDsiFrameStart (s : State) : Host.Outcome State Fault Refusal := s.onChip Chip.dsiFrameStart

/-- DSI_LINE_START (R300): line `y` of the source frame, or the fill colour; lines are freed as they are output. -/
def Chip.dsiLineStart (y : Nat) (c : Chip) : Chip :=
  if !c.on F.VID_CTL_DSI_EN || c.get F.VID_DSI_V0_VACT ≤ y then c
  else
    let c := c.modVid fun v => { v with line := y + 1 }
    if !c.on F.VID_DSI_STATUS_SHOWING then c.dsiFill y
    else
      let mine := fun (x : DsiSegment) => c.vid.shown == some x.key
      let free := fun (c : Chip) => c.modVid fun v => { v with
        buf := v.buf.filterMap fun x =>
          if !mine x then some x else if x.firstLine + x.lines.length ≤ y + 1 then none else some (x.freed y) }
      match c.vid.buf.find? fun x => mine x && decide (x.firstLine ≤ y) && decide (y < x.firstLine + x.lines.length) with
      | some x => (free c).emit (.dsiLine y c.dsiMode (x.lines.getD (y - x.firstLine) []))
      | none => ((free c).inc F.VID_DSI_LINE_FILL).dsiFill y

def execDsiLineStart (y : BitVec 16) (s : State) : Host.Outcome State Fault Refusal := s.onChip (Chip.dsiLineStart y.toNat)

/-- Is a DSI data type that of a short packet (PRESUMED, log 13)? -/
def dsiShort (dt : Nat) : Bool := decide (dt % 16 ≤ 8)

/-- DSI_CMD_SENT (R301). -/
def Chip.dsiCmdSent (c : Chip) : Chip :=
  if !c.on F.VID_DSI_CMD_BUSY then c
  else
    let bytes := (List.range 16).flatMap fun i => beBytes 4 (c.get (F.VID_DSI_CMD_BUF i))
    let n := if dsiShort (c.get F.VID_DSI_CMD_DT) then 2 else max 1 (min 64 (c.get F.VID_DSI_CMD_LEN))
    ((c.emit (.dsiPacket (c.get F.VID_DSI_CMD_VC) (c.get F.VID_DSI_CMD_DT) (bytes.take n))).put F.VID_DSI_CMD_BUSY 0).flag F.VID_INT_STATUS_CMD_DONE

def execDsiCmdSent (s : State) : Host.Outcome State Fault Refusal := s.onChip Chip.dsiCmdSent

end Sys2Proof.Machine
end

