-- ==== Sys2Proof/Machine/Ethernet.lean ====
section
/-! DEFINITION. The Ethernet adapter P6 (09 R302 to R309). -/

namespace Sys2Proof.Machine

def Chip.modEth (c : Chip) (f : Eth → Eth) : Chip := { c with eth := f c.eth }

/-- A counter in half a register that saturates (ETH_LEARN_FULL and ETH_MOVES). -/
def ethMoves : Field := ⟨F.ETH_LEARN_FULL.off, 16, 16⟩
def ethFull : Field := ⟨F.ETH_LEARN_FULL.off, 0, 16⟩

/-! Frames (R302 to R304). -/

def macOf (l : List Byte) : Nat := beVal (l.take 6)
def ethTagged (l : List Byte) : Bool := (l.drop 12).take 2 == [0x81, 0x00]
def ethTci (l : List Byte) : Nat := beVal ((l.drop 14).take 2)
/-- Broadcast and multicast addresses. -/
def groupMac (mac : Nat) : Bool := mac.testBit 40

/-- Bytes of a frame counted with exactly one tag and its FCS (R302). -/
def ethLength (l : List Byte) : Nat := l.length + (if ethTagged l then 4 else 8)

def Chip.ethMax (c : Chip) : Nat := max 1518 (min 9216 (c.get F.ETH_CTL_MAX_FRAME))

/-- The frame with exactly one tag of the given control field (R304). -/
def ethWithTag (l : List Byte) (tci : Nat) : List Byte := l.take 12 ++ [0x81, 0x00] ++ beBytes 2 tci ++ l.drop (if ethTagged l then 16 else 12)

/-- The frame without its tag. -/
def ethNoTag (l : List Byte) : List Byte := l.take 12 ++ l.drop 16

/-- The valid VLAN entry of a VID (R303). -/
def Chip.vlanOf (c : Chip) (vid : Nat) : Option Nat :=
  (List.range 64).find? fun v => c.on (F.ETH_VLAN0_VALID v) && c.get (F.ETH_VLAN0_VID v) == vid

def Chip.member (c : Chip) (v x : Nat) : Bool := (c.get (F.ETH_VLAN0_MEMBER v)).testBit x

/-! Learning (R306). -/

/-- The bucket of an address in a VLAN. -/
def ethBucket (mac v : Nat) : Nat := (crc16 (bitsOfBytes (beBytes 6 mac ++ beBytes 1 v))).toNat % 256

/-- The entry that a lookup matches: in the address's own bucket. -/
def Chip.learnedAt (c : Chip) (mac v : Nat) : Option Nat :=
  ((List.range 4).map fun w => 4 * ethBucket mac v + w).find? fun i =>
    c.on (F.ETH_LRN1_VALID i) && c.get (F.ETH_LRN0 i) == mac % 2 ^ 32 && c.get (F.ETH_LRN1_MAC_HI i) == mac / 2 ^ 32 && c.get (F.ETH_LRN1_VIDX i) == v

/-- Where an address was learned: at a remote hub or at a local port. -/
def Chip.learnedPlace (c : Chip) (mac v : Nat) : Option (Bool × Nat) :=
  (c.learnedAt mac v).map fun i => (c.on (F.ETH_LRN1_REMOTE i), c.get (F.ETH_LRN2_DEST i))

def Chip.showLearned (c : Chip) : Chip :=
  c.put F.ETH_STATUS_LEARNED ((c.written 0x0C_4004 0x10 1024).filter fun i => c.on (F.ETH_LRN1_VALID i)).length

/-- Writes a dynamic entry. -/
def Chip.learnWrite (i mac v : Nat) (remote : Bool) (dest : Nat) (c : Chip) : Chip :=
  let c := ((c.put (F.ETH_LRN0 i) (mac % 2 ^ 32)).put (F.ETH_LRN1 i) (mac / 2 ^ 32)).put (F.ETH_LRN1_VIDX i) v
  let c := ((c.put (F.ETH_LRN1_VALID i) 1).put (F.ETH_LRN1_REMOTE i) remote.toNat).put (F.ETH_LRN2_DEST i) dest
  c.modEth fun e => { e with seen := (e.seen.filter fun x => x.1 != i) ++ [(i, c.now)] }

/-- Learns the source of an accepted frame. -/
def Chip.learn (mac v : Nat) (remote : Bool) (dest : Nat) (c : Chip) : Chip :=
  if !c.on F.ETH_CTL_LEARN_EN then c
  else match c.learnedAt mac v with
    | some i =>
      if c.on (F.ETH_LRN1_STATIC i) then c
      else
        let moved := c.learnedPlace mac v != some (remote, dest)
        (c.when moved fun c => c.incSat ethMoves).learnWrite i mac v remote dest
    | none =>
      match ((List.range 4).map fun w => 4 * ethBucket mac v + w).find? fun i => !c.on (F.ETH_LRN1_VALID i) with
      | some i => (c.learnWrite i mac v remote dest).showLearned
      | none => (c.incSat ethFull).flag F.ETH_INT_STATUS_LEARN_FULL

/-! Forwarding (R305, R307). -/

/-- Room of a local port's transmit buffer. -/
def ethRoom (x : Fin 3) : Nat := if x = 0 then 32768 else 16384

/-- A frame joins a local port's transmit buffer, untagged where the VLAN says so, or is dropped for lack of room. -/
def Chip.ethSend (v : Nat) (l : List Byte) (x : Fin 3) (c : Chip) : Chip :=
  let l := if (c.get (F.ETH_VLAN0_UNTAG v)).testBit x.val then ethNoTag l else l
  let held := (c.eth.tx[x].map fun f => f.length + 4).foldl (· + ·) 0
  if ethRoom x < held + l.length + 4 then (c.inc (F.ETH_TX_DROP x)).flag F.ETH_INT_STATUS_TX_DROP
  else c.modEth fun e => { e with tx := upd e.tx x fun q => q ++ [l] }

/-- The members of a VLAN but one. -/
def Chip.membersBut (c : Chip) (v : Nat) (x : Option (Fin 3)) : List (Fin 3) :=
  (List.finRange 3).filter fun y => c.member v y && some y != x

/-- Floods a frame of a local port (Table 09-2). Marks: DEDUCED, log 48. -/
def Chip.ethFlood (v : Nat) (l : List Byte) (x : Fin 3) (c : Chip) : Chip :=
  let c := (c.each (c.membersBut v (some x)) fun y c => c.ethSend v l y).inc F.ETH_FLOOD
  if c.on (F.ETH_VLAN0_FABRIC v) then
    c.offer 6 (segmentFrom (c.get (F.ETH_VLAN1_FLOOD_TUNNEL v)) 0 (some (BitVec.ofNat 8 (c.get (F.ETH_VLAN0_GROUP v)), 0xFFF)) (l.length / 1008 + 1) true l)
  else c

/-- A frame of a local port that classification has taken, as the fabric carries it. -/
def Chip.ethForward (v : Nat) (l : List Byte) (x : Fin 3) (c : Chip) : Chip :=
  let dst := macOf l
  if groupMac dst then c.ethFlood v l x
  else match c.learnedPlace dst v with
    | none => c.ethFlood v l x
    | some (false, y) => if y = x.val || 3 ≤ y then c else c.ethSend v l (Fin.ofNat 3 y)
    | some (true, h) =>
      if c.on (F.ETH_PEER_VALID h) then c.sendMsg 6 (c.get (F.ETH_PEER_TUNNEL h)) 0 l else c.inc F.ETH_NO_PEER

/-- A received PAUSE frame holds the transmitter of E0 for its count of 512 bit times (R302). Marks: PRESUMED, log 72. -/
def Chip.ethPause (x : Fin 3) (l : List Byte) (c : Chip) : Chip :=
  let bit := match c.get F.ETH_STATUS_E0_SPEED with | 0 => 100 | 1 => 10 | _ => 1
  if x = 0 && c.on F.ETH_CTL_PAUSE_RX && macOf l == 0x0180_C200_0001 && beVal ((l.drop 12).take 4) == 0x8808_0001 then
    c.modEth fun e => { e with pausedUntil := c.now + beVal ((l.drop 16).take 2) * 512 * bit }
  else c

/-- ETH_LOCAL_FRAME_RX (R302, R303, R305): the frame from its destination address to its last byte before the FCS.
Marks: DEDUCED, log 48. -/
def Chip.ethLocal (x : Fin 3) (l : List Byte) (fcsOk : Bool) (c : Chip) : Chip :=
  if !c.on F.ETH_CTL_EN || !c.bit F.ETH_CTL_PORT_EN x then c
  else if !fcsOk || ethLength l < 64 || c.ethMax < ethLength l then c.inc (F.ETH_RX_ERR x)
  else
    let c := c.inc (F.ETH_RX_FRAMES x)
    let dst := macOf l
    if dst / 16 = 0x0180_C200_000 then (c.ethPause x l).inc F.ETH_RSVD_DROP
    else
      let tagged := ethTagged l
      let prio := tagged && ethTci l % 4096 == 0
      let plain := !tagged || prio
      let vid := if plain then c.get (F.ETH_E_CFG_PVID x) else ethTci l % 4096
      let pcp := if tagged then ethTci l / 4096 else c.get (F.ETH_E_CFG_PCP x) * 2
      let refused := (plain && !c.on (F.ETH_E_CFG_ACCEPT_UNTAGGED x)) || (!plain && !c.on (F.ETH_E_CFG_ACCEPT_TAGGED x))
      match c.vlanOf vid with
      | some v =>
        if refused || !c.member v x then c.inc F.ETH_VLAN_DROP
        else
          let l := ethWithTag l (pcp * 4096 + vid)
          (c.learn (macOf (l.drop 6)) v false x.val).ethForward v l x
      | none => c.inc F.ETH_VLAN_DROP

def execEthLocalFrameRx (x : Fin 3) (frame : List Byte) (fcsOk : Bool) (s : State) : Host.Outcome State Fault Refusal :=
  s.onChip (Chip.ethLocal x frame fcsOk)

/-- ETH_FABRIC_FRAME_RX (R304, R305, R307): a frame from the fabric never goes back into it. -/
def Chip.ethFabric (m : Msg) (c : Chip) : Chip :=
  let l := m.payload
  let c := c.when m.cmark fun c => c.inc F.ETH_CMARK_RX
  match (if ethTagged l then c.vlanOf (ethTci l % 4096) else none) with
  | none => c.inc F.ETH_VLAN_DROP
  | some v =>
    if !c.on (F.ETH_VLAN0_FABRIC v) then c.inc F.ETH_VLAN_DROP
    else
      let c := c.learn (macOf (l.drop 6)) v true m.src.toNat
      let all := fun (c : Chip) => c.each (c.membersBut v none) fun y c => c.ethSend v l y
      if groupMac (macOf l) then all c
      else match c.learnedPlace (macOf l) v with
        | none => all c
        | some (true, _) => c
        | some (false, y) => c.when (y < 3 && c.member v y) (Chip.ethSend v l (Fin.ofNat 3 y))

def execEthFabricFrameRx (msg : Option Msg) (s : State) : Host.Outcome State Fault Refusal :=
  s.onChip fun c => if c.on F.ETH_CTL_EN then c.onMsg 6 (fun _ => true) msg Chip.ethFabric else c

/-- The FCS of a frame, as R304 recomputes it: CRC-32, each byte's lowest bit first. Marks: PRESUMED, log 10. -/
def ethFcs (l : List Byte) : List Byte :=
  let w := crc32 (l.flatMap fun b => (bitsOf b).reverse)
  [24, 16, 8, 0].map fun lo => (w.extractLsb' lo 8).reverse

/-- ETH_TX_START (R307, R308): the oldest frame of a transmit buffer starts; E0 needs its link, and waits out a
PAUSE. -/
def Chip.ethTx (x : Fin 3) (c : Chip) : Chip :=
  match c.eth.tx[x] with
  | [] => c
  | l :: rest =>
    let held := x == 0 && (!c.on F.ETH_STATUS_E0_LINK || decide (c.now < c.eth.pausedUntil))
    if !c.on F.ETH_CTL_EN || !c.bit F.ETH_CTL_PORT_EN x || held then c
    else ((c.modEth fun e => { e with tx := upd e.tx x fun _ => rest }).inc (F.ETH_TX_FRAMES x)).emit (.ethFrame x.val (l ++ ethFcs l))

def execEthTxStart (x : Fin 3) (s : State) : Host.Outcome State Fault Refusal := s.onChip (Chip.ethTx x)

/-- ETH_AGE_EXPIRY (R306). -/
def Chip.ethAge (i : Nat) (c : Chip) : Chip :=
  if c.on (F.ETH_LRN1_VALID i) && !c.on (F.ETH_LRN1_STATIC i) && c.get F.ETH_LEARN_CFG_AGE != 0 then
    ((c.put (F.ETH_LRN1_VALID i) 0).modEth fun e => { e with seen := e.seen.filter fun x => x.1 != i }).showLearned
  else c

def execEthAgeExpiry (i : BitVec 10) (s : State) : Host.Outcome State Fault Refusal := s.onChip (Chip.ethAge i.toNat)

/-- A software commit of a learning entry (R306, R309): words 0 and 2 as staged, and word 1. -/
def Chip.learnCommit (i w0 w1 w2 : Nat) (c : Chip) : Chip :=
  let c := ((c.put (F.ETH_LRN0 i) w0).put (F.ETH_LRN1 i) (w1 % 2 ^ 25)).put (F.ETH_LRN2_DEST i) (w2 % 1024)
  (c.modEth fun e => { e with seen := (e.seen.filter fun x => x.1 != i) ++ [(i, c.now)] }).showLearned

/-- AGE_LEFT of a learning entry (R306). -/
def Chip.ageLeft (c : Chip) (i : Nat) : Nat :=
  match c.eth.seen.find? fun x => x.1 == i with
  | some (_, t) =>
    if c.on (F.ETH_LRN1_VALID i) && !c.on (F.ETH_LRN1_STATIC i) then c.get F.ETH_LEARN_CFG_AGE - (c.now - t) / second else 0
  | none => 0

/-! MDIO and the PHYs (R302). -/

/-- A management frame starts (R302); a reserved OP starts nothing, and neither does a GO while BUSY is set. -/
def Chip.mdioGo (c : Chip) : Chip :=
  if c.on F.ETH_MDIO_CMD_BUSY || 4 < c.get F.ETH_MDIO_CMD_OP then c
  else (c.put F.ETH_MDIO_CMD_BUSY 1).emit
    (.mdio (c.get F.ETH_MDIO_CMD_OP) (c.get F.ETH_MDIO_CMD_PHYAD) (c.get F.ETH_MDIO_CMD_REGAD) (c.get F.ETH_MDIO_DATA_DATA))

/-- MDIO_FRAME_DONE. -/
def Chip.mdioDone (data : Nat) (c : Chip) : Chip :=
  if !c.on F.ETH_MDIO_CMD_BUSY then c
  else
    let read := c.get F.ETH_MDIO_CMD_OP == 1 || c.get F.ETH_MDIO_CMD_OP == 4
    ((c.put F.ETH_MDIO_CMD_BUSY 0).when read fun c => c.put F.ETH_MDIO_DATA_DATA data).flag F.ETH_INT_STATUS_MDIO_DONE

def execMdioFrameDone (data : BitVec 16) (s : State) : Host.Outcome State Fault Refusal := s.onChip (Chip.mdioDone data.toNat)

/-- ETH_E0_LINK_CHANGE. -/
def Chip.e0Link (up : Bool) (speed : Nat) (c : Chip) : Chip :=
  ((c.put F.ETH_STATUS_E0_LINK up.toNat).put F.ETH_STATUS_E0_SPEED (if up then speed else 0)).flag F.ETH_INT_STATUS_E0_LINK_CHG

def execEthE0LinkChange (up : Bool) (speed : BitVec 2) (s : State) : Host.Outcome State Fault Refusal :=
  s.onChip (Chip.e0Link up speed.toNat)

/-- ETH_PLCA_STATUS_CHANGE. -/
def execEthPlcaStatusChange (x : Fin 2) (ok : Bool) (s : State) : Host.Outcome State Fault Refusal :=
  s.onChip fun c => (c.put (F.ETH_T1S_STATUS_PLCA_OK x) ok.toNat).flag F.ETH_INT_STATUS_PLCA_CHG

end Sys2Proof.Machine
end

