-- ==== Sys2Proof/Machine/FieldOps.lean ====
section
/-! DEFINITION. The field gateway's operations (10): signal records and entries, scaling, payloads, and what an update does. -/

namespace Sys2Proof.Machine

def Chip.modFld (c : Chip) (f : Fld → Fld) : Chip := { c with fld := f c.fld }

/-! Signal entries (R314). -/

/-- A signal entry's own state. -/
def Chip.sig (c : Chip) (i : Nat) : SigState :=
  (c.fld.sigs.find? fun x => x.id == i).getD { id := i, updated := none, sat := false, stale := false, comm := false, sent := none }

def Chip.setSig (i : Nat) (x : SigState) (c : Chip) : Chip :=
  c.modFld fun f => { f with sigs := (f.sigs.filter fun y => y.id < i) ++ x :: f.sigs.filter fun y => i < y.id }

/-- Forgets an entry's own state. -/
def Chip.dropSig (i : Nat) (c : Chip) : Chip := c.modFld fun f => { f with sigs := f.sigs.filter fun y => y.id != i }

/-- Is the entry in use, with a SOURCE that Table 10-2 names? -/
def Chip.sigValid (c : Chip) (i : Nat) : Bool := c.on (F.FLD_SIG0_VALID i) && decide (c.get (F.FLD_SIG0_SOURCE i) ≤ 7)
def Chip.sigOut (c : Chip) (i : Nat) : Bool := c.on (F.FLD_SIG0_DIR i)

/-- Valid entries with a direction, source and reference, ascending. -/
def Chip.sigsOf (c : Chip) (out : Bool) (source ref : Nat) : List Nat :=
  (c.written 0x0D_8000 0x20 1024).filter fun i =>
    c.sigValid i && c.sigOut i == out && c.get (F.FLD_SIG0_SOURCE i) == source && c.get (F.FLD_SIG0_REF i) == ref

def Chip.sigLen (c : Chip) (i : Nat) : Nat := c.get (F.FLD_SIG1_LEN_M1 i) + 1

/-! Fields in a payload (R315). -/

/-- Payload bit `p`. -/
def payBit (l : List Byte) (p : Nat) : Bool := (l.getD (p / 8) 0).getLsbD (p % 8)

/-- Payload positions of a field's bits, the most significant first where `msb`, else the least significant first. -/
def fieldPlaces (msb : Bool) : Nat → Nat → List Nat
  | 0, _ => []
  | n + 1, pos => pos :: fieldPlaces msb n (if !msb then pos + 1 else if pos % 8 = 0 then pos + 15 else pos - 1)

/-- The positions with the bit number each carries. -/
def fieldBits (msb : Bool) (len start : Nat) : List (Nat × Nat) :=
  let l := fieldPlaces msb len start
  if msb then l.zip (List.range len).reverse else l.zip (List.range len)

/-- Does the field lie inside a payload of `n` bytes? -/
def fieldFits (msb : Bool) (len start n : Nat) : Bool := (fieldPlaces msb len start).all fun p => p < 8 * n

/-- The raw value of a field. -/
def takeField (l : List Byte) (msb : Bool) (len start : Nat) : Nat :=
  (fieldBits msb len start).foldl (fun v x => v + (payBit l x.1).toNat * 2 ^ x.2) 0

/-- Writes one payload bit. -/
def setPayBit (l : List Byte) (p : Nat) (b : Bool) : List Byte :=
  let old := l.getD (p / 8) 0
  l.set (p / 8) (if b then old ||| (1#8 <<< (p % 8)) else old &&& ~~~(1#8 <<< (p % 8)))

/-- Places a raw value. -/
def placeField (l : List Byte) (msb : Bool) (len start raw : Nat) : List Byte :=
  (fieldBits msb len start).foldl (fun l x => setPayBit l x.1 (raw.testBit x.2)) l

/-! Scaling (R316). -/

/-- The common part: multiplied, shifted with halves rounded up, offset, limited to MIN and MAX. -/
def Chip.scale (c : Chip) (i : Nat) (x : Int) : Int × Bool :=
  let p := x * signed 16 (c.get (F.FLD_SIG2_MULT i))
  let sh := c.get (F.FLD_SIG2_SHIFT i)
  let p := if sh = 0 then p else (p + 2 ^ (sh - 1)) / 2 ^ sh
  let v := p + c.getS (F.FLD_SIG3 i)
  let lo := c.getS (F.FLD_SIG4 i)
  let hi := c.getS (F.FLD_SIG5 i)
  if lo ≤ hi then (max lo (min hi v), decide (v < lo) || decide (hi < v)) else (v, false)

/-- Limits a value to a range, and says whether it lay outside. -/
def limit (lo hi v : Int) : Int × Bool := (max lo (min hi v), decide (v < lo) || decide (hi < v))

/-- The engineering value of a raw field, and whether it saturated. -/
def Chip.scaleIn (c : Chip) (i raw : Nat) : Int × Bool :=
  let len := c.sigLen i
  let (v, sat) := c.scale i (if c.on (F.FLD_SIG0_SIGNED i) then signed len raw else raw)
  let (w, sat2) := limit (-2 ^ 31) (2 ^ 31 - 1) v
  (w, sat || sat2)

/-- The raw field of a value. -/
def Chip.scaleOut (c : Chip) (i : Nat) (x : Int) : Nat :=
  let len := c.sigLen i
  let (v, _) := c.scale i x
  let w := if c.on (F.FLD_SIG0_SIGNED i) then (limit (-2 ^ (len - 1)) (2 ^ (len - 1) - 1) v).1 else (limit 0 (2 ^ len - 1) v).1
  unsigned len w

/-! Records (R311, R312, R317). -/

/-- A record. -/
def recordBytes (sig quality cnt value frame subns : Nat) : List Byte :=
  beBytes 16 (sig % 1024 * 2 ^ 118 + quality % 8 * 2 ^ 115 + cnt % 65536 * 2 ^ 96 + value % 2 ^ 32 * 2 ^ 64 + frame % 2 ^ 32 * 2 ^ 32 + subns % 2 ^ 20 * 2 ^ 12)

/-- The barge of a tunnel's batch goes to the P7 ingress (R310, R312). -/
def Chip.sendBatch (t : Nat) (c : Chip) : Chip :=
  match c.fld.batches.find? fun b => b.1 == t with
  | none => c
  | some (_, l) =>
    (c.modFld fun f => { f with batches := f.batches.filter fun b => b.1 != t }).offer 7 [{
      tunnel := BitVec.ofNat 12 t, colour := 0, first := true, last := true, tspec := 0, payload := l.flatten, flood := none }]

/-- A record enters its tunnel's batch, which goes at 63. -/
def Chip.addRecord (t : Nat) (r : List Byte) (c : Chip) : Chip :=
  let l := ((c.fld.batches.find? fun b => b.1 == t).map Prod.snd).getD [] ++ [r]
  let c := (c.inc F.FLD_REC_SENT).modFld fun f => { f with batches := (f.batches.filter fun b => b.1 != t) ++ [(t, l)] }
  c.when (63 ≤ l.length) (Chip.sendBatch t)

/-- An IN entry sends a record of its value and quality, with the time of its source event (R317). -/
def Chip.publish (i frame subns : Nat) (c : Chip) : Chip :=
  let v := c.getS (F.FLD_SST0 i)
  let q := c.get (F.FLD_SST1_QUALITY i)
  let c := c.setSig i { c.sig i with sent := some (v, q) }
  c.addRecord (c.get (F.FLD_SIG1_TUNNEL i)) (recordBytes (c.get (F.FLD_SIG0_PEER_SIG i)) q (c.get (F.FLD_SST1_CNT i)) (c.get (F.FLD_SST0 i)) frame subns)

/-- Does the entry publish on change (MODE 0, 2 and 3)? -/
def Chip.onChange (c : Chip) (i : Nat) : Bool := c.get (F.FLD_SIG0_MODE i) != 1

/-- The entry's pin is in CHATTER. -/
def Chip.sigChatter (c : Chip) (i : Nat) : Bool := c.get (F.FLD_SIG0_SOURCE i) == 6 && c.on (F.FLD_FIO_STATUS_CHATTER (c.get (F.FLD_SIG0_REF i) % 16))
def Chip.sigStuck (c : Chip) (i : Nat) : Bool := c.get (F.FLD_SIG0_SOURCE i) == 6 && c.on (F.FLD_FIO_STATUS_STUCK (c.get (F.FLD_SIG0_REF i) % 16))

/-- The quality of an IN entry: the highest code among its conditions (R317). -/
def Chip.quality (c : Chip) (i : Nat) : Nat :=
  let x := c.sig i
  if x.comm then 5 else if c.sigChatter i then 4 else if c.sigStuck i then 3 else if x.stale then 2 else x.sat.toNat

def Chip.showQuality (i : Nat) (c : Chip) : Chip := c.put (F.FLD_SST1_QUALITY i) (c.quality i)

/-- A change of a condition of an entry that has been updated before: its quality, and a record where `send` and the quality
differs from the last sent. Marks: DEDUCED, log 49. -/
def Chip.requality (i : Nat) (send : Bool) (frame subns : Nat) (c : Chip) : Chip :=
  if (c.sig i).updated.isNone then c
  else
    let c := c.showQuality i
    let q := c.get (F.FLD_SST1_QUALITY i)
    c.when (send && c.onChange i && ((c.sig i).sent.map Prod.snd) != some q) (Chip.publish i frame subns)

/-- An update of an IN entry with a raw field (R316 to R318). -/
def Chip.updateIn (i raw frame subns : Nat) (c : Chip) : Chip :=
  let (v, sat) := c.scaleIn i raw
  let x := c.sig i
  let c := ((c.putS (F.FLD_SST0 i) v).inc (F.FLD_SST1_CNT i)).setSig i { x with updated := some c.now, sat := sat, stale := false, comm := false }
  let c := c.showQuality i
  let q := c.get (F.FLD_SST1_QUALITY i)
  let go := match x.sent with
    | none => !c.sigChatter i || q != 0
    | some (v0, q0) => q0 != q || (!c.sigChatter i && decide ((c.get (F.FLD_SIG6_DEADBAND i) : Int) < (v - v0).natAbs))
  c.when (c.onChange i && go) (Chip.publish i frame subns)

/-- Unpacks a payload into every IN entry of a source and reference (R315, R322, R327). -/
def Chip.unpack (source ref : Nat) (l : List Byte) (frame subns : Nat) (c : Chip) : Chip :=
  c.each (c.sigsOf false source ref) fun i c =>
    let msb := c.on (F.FLD_SIG0_MSB_FIRST i)
    let start := c.get (F.FLD_SIG1_START i)
    if fieldFits msb (c.sigLen i) start l.length then c.updateIn i (takeField l msb (c.sigLen i) start) frame subns
    else (c.inc F.FLD_SIG_ERR).flag F.FLD_INT_STATUS_SIG_ERR

/-- COMM_FAIL at OUT entries, which show it until they apply a value again (R327). Marks: DEDUCED, log 49. -/
def Chip.commFailOut (l : List Nat) (c : Chip) : Chip := c.each l fun i c => c.put (F.FLD_SST1_QUALITY i) 5

/-- COMM_FAIL for the IN entries of a source (and one reference): with `send` they publish (R324). -/
def Chip.commFail (l : List Nat) (send : Bool) (c : Chip) : Chip :=
  c.each l fun i c =>
    let c := (c.setSig i { c.sig i with comm := true }).showQuality i
    c.when (send && (c.sig i).updated.isSome) (Chip.publish i (c.get F.FAB_FRAME) c.subns)

/-! Targets of OUT entries (R319, R323, R326, R333). -/

/-- The bytes of words of registers, the first byte in bits [31:24] (R336). -/
def Chip.wordBytes (c : Chip) (l : List Field) : List Byte := l.flatMap fun f => beBytes 4 (c.get f)
def Chip.putWordBytes (l : List (Field × Nat)) (b : List Byte) (c : Chip) : Chip := c.each l fun x c => c.put x.1 (beVal ((b.drop (4 * x.2)).take 4))

def txPayWords (n : Nat) : List Field := (List.range 16).map (F.FLD_TXPAY n)
def writePayWords (n : Nat) : List Field := (List.range 4).map fun j => F.FLD_WPAY (4 * n + j)
def Chip.txPay (c : Chip) (n : Nat) : List Byte := c.wordBytes (txPayWords n)
def Chip.writePay (c : Chip) (n : Nat) : List Byte := c.wordBytes (writePayWords n)

/-- A transmit frame becomes pending (R323). -/
def Chip.canPend (n : Nat) (c : Chip) : Chip :=
  c.when (c.on (F.FLD_FRM0_VALID n) && c.on (F.FLD_FRM0_DIR n) && !c.fld.pending.contains n) fun c =>
    c.modFld fun f => { f with pending := f.pending ++ [n] }

/-- Is a poll entry one that the gateway runs: in use, with a FUNC of R325? -/
def Chip.pollValid (c : Chip) (n : Nat) : Bool := c.on (F.FLD_POLL0_VALID n) && [1, 2, 3, 4, 5, 6, 15, 16].contains (c.get (F.FLD_POLL0_FUNC n))
def Chip.pollRead (c : Chip) (n : Nat) : Bool := decide (c.get (F.FLD_POLL0_FUNC n) ≤ 4)

/-- Queues a poll entry at its UART; one that is queued already is counted where `due` (R326). -/
def Chip.pollQueue (n : Nat) (due : Bool) (c : Chip) : Chip :=
  let u : Fin 2 := Fin.ofNat 2 (c.get (F.FLD_POLL0_UART n))
  if !c.pollValid n then c
  else if c.fld.uarts[u].queue.contains n then c.when due fun c => c.inc F.FLD_MB_OVERRUN
  else c.modFld fun f => { f with uarts := upd f.uarts u fun x => { x with queue := x.queue ++ [n] } }

/-- The level that the hub drives on a pin, or none where its driver is off (R329): an open drain drives only low. -/
def Chip.fioLevel (c : Chip) (p : Nat) : Option Bool :=
  let level := c.on (F.FLD_FIO_STATUS_OUT p) != c.on (F.FLD_FIO_CFG_INVERT p)
  match c.get (F.FLD_FIO_CFG_MODE p) with
  | 1 => some level
  | 2 => if level then none else some false
  | _ => none

/-- A change that may drive a pin otherwise; what the pin then shows leaves the hub. -/
def Chip.fioChange (p : Nat) (f : Chip → Chip) (c : Chip) : Chip :=
  let d := f c
  d.when (d.fioLevel p != c.fioLevel p) fun d => d.emit (.fioPin p (d.fioLevel p))

/-- Sets an output pin's active level (R333). -/
def Chip.fioDrive (p : Nat) (active : Bool) (c : Chip) : Chip :=
  c.fioChange p fun c => (c.put (F.FLD_FIO_STATUS_OUT p) active.toNat).putBit F.FLD_FIO_LEVEL_OUT p active

/-- Does an OUT entry's field lie inside its target (R315)? -/
def Chip.outFits (c : Chip) (i : Nat) : Bool :=
  let source := c.get (F.FLD_SIG0_SOURCE i)
  let fits := fieldFits (c.on (F.FLD_SIG0_MSB_FIRST i)) (c.sigLen i) (c.get (F.FLD_SIG1_START i))
  if source ≤ 3 then fits 64 else if source ≤ 5 then fits 16 else true

/-- Places a value's field in an OUT entry's target (R316, R319, R323, R326, R333). -/
def Chip.placeOut (i : Nat) (v : Int) (c : Chip) : Chip :=
  let raw := c.scaleOut i v
  let msb := c.on (F.FLD_SIG0_MSB_FIRST i)
  let len := c.sigLen i
  let start := c.get (F.FLD_SIG1_START i)
  let ref := c.get (F.FLD_SIG0_REF i)
  let source := c.get (F.FLD_SIG0_SOURCE i)
  if source ≤ 3 then
    let old := c.txPay (ref % 128)
    let new := placeField old msb len start raw
    if new = old then c else (c.putWordBytes ((txPayWords (ref % 128)).zipIdx) new).canPend (ref % 128)
  else if source ≤ 5 then
    let old := c.writePay ref
    let new := placeField old msb len start raw
    if new = old then c
    else (c.putWordBytes ((writePayWords ref).zipIdx) new).when (!c.pollRead ref) (Chip.pollQueue ref false)
  else if source = 6 then c.fioDrive (ref % 16) (raw != 0)
  else c

/-- Applies a value to an OUT entry (R319). A field that does not fit in its payload is an error and updates nothing (R315). -/
def Chip.applyOut (i : Nat) (v : Int) (quality : Nat) (c : Chip) : Chip :=
  if !c.outFits i then (c.inc F.FLD_SIG_ERR).flag F.FLD_INT_STATUS_SIG_ERR
  else
    let c := ((c.putS (F.FLD_SST0 i) v).inc (F.FLD_SST1_CNT i)).put (F.FLD_SST1_QUALITY i) quality
    (c.setSig i { c.sig i with updated := some c.now }).placeOut i v

/-- Applies DEFAULT to an OUT entry (R319). -/
def Chip.applyDefault (i : Nat) (c : Chip) : Chip := c.applyOut i (c.getS (F.FLD_SIG7 i)) 6

/-- Applies one received record (R313, R319). -/
def Chip.applyRecord (r : List Byte) (c : Chip) : Chip :=
  let w := beVal r
  let i := w / 2 ^ 118 % 1024
  let q := w / 2 ^ 115 % 8
  let v := signed 32 (w / 2 ^ 64 % 2 ^ 32)
  let c := c.inc F.FLD_REC_RX
  if !c.sigValid i || !c.sigOut i then (c.inc F.FLD_REC_DROP).flag F.FLD_INT_STATUS_REC_DROP
  else if q ≤ 1 then c.applyOut i v q
  else if c.on (F.FLD_SIG0_SUBST_EN i) then c.applyDefault i
  else c

/-- Puts a record behind those of no higher entry. -/
def insertRecord (r : List Byte) : List (List Byte) → List (List Byte)
  | [] => [r]
  | x :: l => if beVal r / 2 ^ 118 % 1024 < beVal x / 2 ^ 118 % 1024 then r :: x :: l else x :: insertRecord r l

/-- The records of a barge in the order of their entries, those of one entry in their own order: so the higher of two entries whose fields
overlap is applied last (R320). Marks: DEDUCED, log 49. -/
def recordOrder (l : List (List Byte)) : List (List Byte) := l.foldl (fun acc r => insertRecord r acc) []

/-- AGE of a signal entry (R336): milliseconds since its last update, saturating. -/
def Chip.sigAge (c : Chip) (i : Nat) : Nat :=
  match (c.sig i).updated with
  | some t => min 0x1FFF ((c.now - t) / millisecond)
  | none => 0x1FFF

/-! Commits (R319, R336). -/

/-- Commits a signal entry: staged words 1 to 7 and word 0. A commit that sets VALID, or changes DIR, SOURCE, REF, START or
LEN_M1, returns the state to its reset values, and an OUT entry with SUBST_EN applies DEFAULT; at image load the defaults of one target
are applied in index order, whatever the order of the commits (R320). -/
def Chip.sigCommit (i : Nat) (w : List Nat) (c : Chip) : Chip :=
  let key := fun (c : Chip) => (c.get (F.FLD_SIG0_DIR i), c.get (F.FLD_SIG0_SOURCE i), c.get (F.FLD_SIG0_REF i), c.get (F.FLD_SIG1_START i), c.get (F.FLD_SIG1_LEN_M1 i))
  let was := c.on (F.FLD_SIG0_VALID i)
  let old := key c
  let c := c.each w.zipIdx fun x c => c.put ⟨(F.FLD_SIG0 i).off + 4 * x.2, 0, 32⟩ x.1
  if c.on (F.FLD_SIG0_VALID i) && !was || key c != old then
    let c := (((c.dropSig i).put (F.FLD_SST0 i) 0).put (F.FLD_SST1_QUALITY i) 2).put (F.FLD_SST1_CNT i) 0
    let defaults := fun (i : Nat) => c.sigValid i && c.sigOut i && c.on (F.FLD_SIG0_SUBST_EN i)
    let above := (c.sigsOf true (c.get (F.FLD_SIG0_SOURCE i)) (c.get (F.FLD_SIG0_REF i))).filter fun j => decide (i < j) && defaults j && c.outFits j
    c.when (defaults i) fun c =>
      let c := c.applyDefault i
      c.when (!c.cfg.loaded) fun c => c.each above fun j c => c.placeOut j (c.getS (F.FLD_SIG7 j))
  else c

end Sys2Proof.Machine
end

