-- ==== Sys2Proof/Machine/GovOps.lean ====
section
/-! DEFINITION. The frame records of the HV die (11 R368, 12 R391) and the budget governor (06 R212 to R222). -/

namespace Sys2Proof.Machine

/-! Frame records. -/

/-- What the records of one frame say: power in and out of the hub in µW, whether all records were made, and the hottest
model with its source and whether all models are valid. -/
structure FrameRecord where
  pIn : Int
  pOut : Int
  complete : Bool
  tMax : Nat
  source : Nat
  valid : Bool
  deriving DecidableEq, Repr

/-- The T_FET of a record: a free value where the model reports itself invalid (log 2). Marks: DEDUCED, log 52. -/
def Hub.recordTemp (m : FetModel) (h : Hub) : Nat × Hub :=
  if m.valid then (m.temp, h) else ((h.chip.draw 256).1, { h with chip := (h.chip.draw 256).2 })

/-- Mean of a sum over a count, toward minus infinity. -/
def meanOf (sum : Int) (n : Nat) : Int := sum / n

/-- The sums start afresh for the next frame. -/
def PathSw.nextFrame (s : PathSw) : PathSw := { s with count := 0, sumV := 0, sumI := 0, sumP := 0, peak := 0 }

/-- The frame record of one port, and its part of the frame's totals. -/
def Hub.portRecord (p : Port) (x : FrameRecord × Hub) : FrameRecord × Hub :=
  let (r, h) := x
  let s := h.hv.tpw[p].sw
  if s.count = 0 then ({ r with complete := false }, h)
  else
    let (t, h) := h.recordTemp s.fet
    let mean := meanOf s.sumP s.count
    let h := h.onHv fun v =>
      let v := (v.put (F.TPW_P_MEAS0_VCAB p) (s.sumV / s.count / 10)).put (F.TPW_P_MEAS0_I p) (unsigned 16 (meanOf s.sumI s.count / 10))
      let v := (v.put (F.TPW_P_MEAS1_P p) (unsigned 20 (mean / 100000))).put (F.TPW_P_MEAS1_T_FET p) t
      v.modSw p PathSw.nextFrame
    let st := h.hv.pstate p
    ({ r with
        pIn := r.pIn + (if st = psSink then -mean else 0), pOut := r.pOut + (if st = psSource then mean else 0)
        tMax := max r.tMax s.fet.temp, source := if r.tMax < s.fet.temp then p.val else r.source
        valid := r.valid && s.fet.valid }, h)

/-- The frame record of one channel, its history entry and its part of the totals. -/
def Hub.chanRecord (y : Chan) (frame : Nat) (x : FrameRecord × Hub) : FrameRecord × Hub :=
  let (r, h) := x
  let ch := h.hv.ldc[y]
  let s := ch.sw
  if s.count = 0 then ({ r with complete := false }, h)
  else
    let (t, h) := h.recordTemp s.fet
    let mean := meanOf s.sumP s.count
    let vo := s.sumV / s.count / 10
    let cur := unsigned 16 (meanOf s.sumI s.count / 10)
    let pw := unsigned 20 (mean / 100000)
    let pk := min (s.peak / 10) 65535
    let k := frame % 64
    let h := h.onHv fun v =>
      let v := (v.put (F.LDC_L_MEAS0_VOUT y) vo).put (F.LDC_L_MEAS0_I y) cur
      let v := (v.put (F.LDC_L_MEAS1_P y) pw).put (F.LDC_L_MEAS1_T_FET y) t
      let v := v.put (F.LDC_L_MEAS2_I_PEAK y) pk
      let v := (v.put (F.LDC_HIST0 y k) frame).put (F.LDC_HIST1 y k) (vo + cur * 2 ^ 16)
      let v := v.put (F.LDC_HIST2 y k) (pw + t * 2 ^ 20 + ch.sawRamp.toNat * 2 ^ 28 + ch.sawFault.toNat * 2 ^ 29)
      let v := v.put (F.LDC_HIST3 y k) pk
      (v.modCsw y PathSw.nextFrame).modLdc y fun c => { c with sawRamp := v.cstate y == csRamp, sawFault := v.chanBad y }
    let h := h.onChip fun c => { c with bud := { c.bud with
      chanPower := upd c.bud.chanPower y fun l => ((mean / 100000).toNat :: l).take 100 } }
    ({ r with
        pOut := r.pOut + mean, tMax := max r.tMax s.fet.temp
        source := if r.tMax < s.fet.temp then 3 + y.val else r.source, valid := r.valid && s.fet.valid }, h)

/-- All records of the frame just ended. In the lockout or without the internal link none arrives (06 R213).
Marks: DEDUCED, log 52. -/
def Hub.frameRecords (frame : Nat) (h : Hub) : FrameRecord × Hub :=
  let none_ : FrameRecord := { pIn := 0, pOut := 0, complete := false, tMax := 0, source := 0, valid := true }
  if h.hv.lockout then (none_, h)
  else
    let x : FrameRecord × Hub := ({ none_ with complete := true }, h)
    let x := ports.foldl (fun x p => Hub.portRecord p x) x
    let (r, h) := chans.foldl (fun x y => Hub.chanRecord y frame x) x
    ({ r with complete := r.complete && h.hv.on F.TPW_HV_STATUS_LINK_OK }, h)

/-! Inputs and levels (R212, R213). -/

/-- P_avail in watts. -/
def Hub.availPower (h : Hub) : Nat :=
  let v := h.hv
  (ports.map fun (p : Port) =>
    if v.pstate p != psSink then 0
    else if v.defaultRole p == 5 then v.get (F.TPW_P_BOOT_BOOT_W p)
    else if v.on (F.TPW_P_CONTRACT_VALID p) && !v.on (F.TPW_P_CONTRACT_DIR p) then v.get (F.TPW_P_CONTRACT_W p) else 0).foldl (· + ·) 0
    + h.chip.get F.BUD_FEED_CFG_LOCAL_W

/-- UTIL from P_draw in µW and P_avail in W (R212). -/
def utilOf (draw avail : Nat) : Nat :=
  if avail = 0 then (if 0 < draw then 127 else 0) else min 127 (100 * draw / (avail * 1_000_000))

/-- The seven thresholds of an input, each at least the one before it (R213). -/
def risingFrom : Nat → List Nat → List Nat
  | _, [] => []
  | lo, x :: xs => max lo x :: risingFrom (max lo x) xs

/-- The thresholds from the words THR_A and THR_B, and HYST. -/
def Chip.thresholds (c : Chip) (a b : Field) : List Nat × Nat :=
  let byte := fun (f : Field) k => c.get ⟨f.off, 8 * k, 8⟩
  (risingFrom 0 [byte a 0, byte a 1, byte a 2, byte a 3, byte b 0, byte b 1, byte b 2], byte b 3)

/-- level_up and level_down of an input value (R213). -/
def inputLevels (x : Nat) (thr : List Nat × Nat) : Nat × Nat :=
  ((thr.1.filter fun t => t ≤ x).length, (thr.1.filter fun t => t ≤ x + thr.2).length)

/-! The level in force and its effects (R215 to R222). -/

/-- STEP_CAP of a row; 0 is taken as 1, 6 and 7 as 5 (R218). -/
def effectsCap (row : Word) : Nat :=
  let n := wordField row 0 3
  if n = 0 then 1 else min n 5

/-- Publishes CAP_BUDGET to all three ports. -/
def Chip.publishCap (n : Nat) (c : Chip) : Chip :=
  let c := c.each ports fun p c => c.put (F.TRK_STATUS_CAP_BUDGET p) n
  { c.flag F.BUD_INT_STATUS_CAP_CHANGE with bud := { c.bud with capAt := c.now } }

/-- A lower cap is published at once, a higher one once 500 ms have passed since the last change (R218). -/
def Chip.capRule (late : Bool) (c : Chip) : Chip :=
  let want := effectsCap c.bud.row
  let have_ := c.get (F.TRK_STATUS_CAP_BUDGET 0)
  if want < have_ then c.publishCap want
  else if have_ < want && (late || decide (c.bud.capAt + 500 * millisecond ≤ c.now)) then c.publishCap want
  else c

/-- Mean of a list of powers. -/
def meanPower (l : List Nat) : Nat := if l.length = 0 then 0 else l.foldl (· + ·) 0 / l.length

/-- BUDGET_SHED (R221): a channel on or ramping whose SHED bit is set is commanded off and recorded. -/
def Hub.budgetShed (y : Chan) (h : Hub) : Hub :=
  h.when (h.chip.bud.row.getLsbD (24 + y.val) && h.hv.chanOn y && !h.hv.lockout) fun h =>
    let h := h.onHv (Hv.budgetShed y)
    h.onChip fun c =>
      let c := (c.put (F.BUD_SHED_P_SHED y) (meanPower c.bud.chanPower[y])).put (F.BUD_SHED_LEVEL y) (c.get F.BUD_STATUS_LEVEL)
      ((c.putBit F.BUD_SHED_STATUS_SHED y.val true).flag F.BUD_INT_STATUS_SHED).inc F.BUD_SHED_COUNT

/-- Sets the level in force: its row is latched as the last tick read it (R224), its cap published and its sheds commanded. -/
def Hub.setLevel (n : Nat) (h : Hub) : Hub :=
  let h := h.onChip fun c =>
    let old := c.get F.BUD_STATUS_LEVEL
    let c := c.put F.BUD_STATUS_LEVEL n
    let c := c.when (decide (old < n)) fun c => c.flag F.BUD_INT_STATUS_LEVEL_UP
    let c := c.when (decide (n < old)) fun c => c.flag F.BUD_INT_STATUS_LEVEL_DOWN
    ({ c with bud := { c.bud with row := c.bud.rows.toList.getD n 0#32 } }).capRule false
  h.each chans Hub.budgetShed

/-- FALL_HOLD; below 100 is taken as 100. -/
def Chip.fallHold (c : Chip) : Nat := max 100 (c.get F.BUD_CFG_FALL_HOLD)

/-- The rule of R215 at a tick: the level rises at once; the fall count advances, and BUDGET_LEVEL_FALL takes the step when
it has reached FALL_HOLD. -/
def Hub.levelRule (up down : Nat) (h : Hub) : Hub :=
  let c := h.chip
  let level := c.get F.BUD_STATUS_LEVEL
  if c.on F.BUD_CTL_FORCE_EN then (h.onChip fun c => c.put F.BUD_STATUS_FALL_CNT 0).setLevel (c.get F.BUD_CTL_FORCE_LEVEL)
  else if level < up then (h.onChip fun c => c.put F.BUD_STATUS_FALL_CNT 0).setLevel up
  else if down < level then
    (h.onChip fun c => c.put F.BUD_STATUS_FALL_CNT (min (c.get F.BUD_STATUS_FALL_CNT + 1) c.fallHold)).setLevel level
  else (h.onChip fun c => c.put F.BUD_STATUS_FALL_CNT 0).setLevel level

/-- The die sensors as read: an invalid one shows a free value (log 2). Marks: DEDUCED, log 52. -/
def Chip.dieSensors (die : Vector (Option Byte) 4) (c : Chip) : Chip :=
  c.each (List.finRange 4) fun k c =>
    let f : Field := ⟨F.BUD_DIE.off, 8 * k.val, 8⟩
    match die[k] with
    | some t => c.put f t.toNat
    | none => ((c.draw 256).2).put f (c.draw 256).1

/-- A tick reads the effects rows and the power thresholds, which are in force until the next one (R224). -/
def Chip.readGovernor (c : Chip) : Chip :=
  { c with bud := { c.bud with
      rows := Vector.ofFn fun (n : Fin 8) => c.regs.word (F.BUD_EFFECT n.val).off
      thr := c.thresholds F.BUD_PWR_THR_A F.BUD_PWR_THR_B, ticked := true } }

/-- The runs of ticks whose row has each channel's SHED bit clear (R222). -/
def Bud.countClear (b : Bud) (next : Nat → Nat) : Bud :=
  { b with clearFor := Vector.ofFn fun (y : Fin 4) => if b.row.getLsbD (24 + y.val) then 0 else next b.clearFor[y] }

/-- The governor at a tick (R212 to R216), on the records of the frame just ended. Marks: DEDUCED, log 52. -/
def Hub.governorTick (r : FrameRecord) (die : Vector (Option Byte) 4) (h : Hub) : Hub :=
  let h := h.onChip Chip.readGovernor
  let c := h.chip
  let avail := h.availPower
  let draw := (max r.pIn r.pOut).toNat
  let live := utilOf draw avail
  let util := match c.bud.frozen with | some (u, _) => u | none => live
  let fail := c.get F.BUD_CFG_FAIL_LEVEL
  let dieOk := die.toList.all Option.isSome
  let pwr :=
    if !r.complete then (fail, fail)
    else if avail = 0 then (c.get F.BUD_CFG_NOFEED_LEVEL, c.get F.BUD_CFG_NOFEED_LEVEL)
    else inputLevels util (c.thresholds F.BUD_PWR_THR_A F.BUD_PWR_THR_B)
  let dieLv := if dieOk then inputLevels ((hottest die.toList).getD 0) (c.thresholds F.BUD_DIE_THR_A F.BUD_DIE_THR_B) else (fail, fail)
  let fet := if r.complete && r.valid then inputLevels r.tMax (c.thresholds F.BUD_FET_THR_A F.BUD_FET_THR_B) else (fail, fail)
  let bad := !(r.complete && r.valid && dieOk)
  let floor := c.get F.BUD_CTL_FLOOR
  let up := max (max pwr.1 dieLv.1) (max fet.1 floor)
  let down := max (max pwr.2 dieLv.2) (max fet.2 floor)
  let h := h.onChip fun c =>
    let c := (c.put F.BUD_FEED_POWER (min (avail * 10) (2 ^ 20 - 1))).put F.BUD_DRAW_POWER (min (draw / 100000) (2 ^ 20 - 1))
    let c := (c.put F.BUD_DRAW_UTIL live).dieSensors die
    let c := (c.put F.BUD_FET_T_MAX r.tMax).put F.BUD_FET_SOURCE r.source
    let c := (c.put F.BUD_STATUS_LVL_UP up).put F.BUD_STATUS_LVL_DOWN down
    let c := ((c.put F.BUD_STATUS_LVL_PWR pwr.1).put F.BUD_STATUS_LVL_DIE dieLv.1).put F.BUD_STATUS_LVL_FET fet.1
    let c := c.put F.BUD_STATUS_SENSOR_FAIL bad.toNat
    let c := c.when bad fun c => (c.flag F.BUD_INT_STATUS_SENSOR_FAIL).inc F.BUD_SENSOR_FAIL
    { c with bud := { c.bud with util := live, frozen := c.bud.frozen.map fun x => (x.1, x.2 + 1) } }
  let h := h.levelRule up down
  h.onChip fun c =>
    let c := c.inc (F.BUD_TIME (c.get F.BUD_STATUS_LEVEL))
    { c with bud := c.bud.countClear fun n => n + 1 }

/-- Has every ramping channel asserted power-good or turned off (R214)? -/
def Hub.rampsSettled (h : Hub) : Bool := chans.all fun (y : Chan) =>
  h.hv.cstate y != csRamp && (h.hv.cstate y != csOn || h.hv.ldc[y].good)

end Sys2Proof.Machine
end

