-- ==== Sys2Proof/Machine/ResetOps.lean ====
section
/-! DEFINITION. The resets (00 R9, 01 R16 to R24 and Table 01-5, 06 R528 and R530, 07 R255, 10 R335, 11 R363, 12 R388,
13 R427): what each does to the two dies. -/

namespace Sys2Proof.Machine

/-! Which reset prevails (R23). -/

/-- Wider resets have the higher rank; the two domain resets are independent. -/
def ResetKind.rank : ResetKind → Nat
  | .por => 3
  | .cold => 2
  | .warm => 1
  | .lockkeeper | .datapath => 0

/-- Does a reset requested now start? A narrower one requested during a wider one is discarded. Marks: DEDUCED, log 54. -/
def ResetState.admits (r : ResetState) (k : ResetKind) : Bool :=
  match r.active with
  | none => true
  | some a => decide (a.rank < k.rank)

/-! Registers (00 R6, Table 01-5). -/

/-- Bits that a warm reset keeps beside the ST fields: the straps, LKP_FAILS, the isolated state and its cause (04 R123), and
what REL_STATUS shows of the remap table, which is kept (14 R434). Marks: DEDUCED, log 55. -/
def warmKept (off : Nat) : Nat :=
  if off = F.GLB_STRAPS.off then 0xF
  else if off = F.LKP_FAILS.off then 0xFFFFFFFF
  else if off = F.FAB_STATUS.off then 3
  else if off = F.REL_STATUS.off then 0x7F
  else 0

/-- The bits of a register that a core-wide reset keeps: the fused serial; at a warm reset the ST fields and those of `warmKept`;
and the VAON fields except at a VAON ramp. Marks: DEDUCED, log 55. -/
def keptBits (k : ResetKind) (vaonRamp : Bool) (off : Nat) : Word :=
  if off = F.GLB_SERIAL_LO.off ∨ off = F.GLB_SERIAL_HI.off then 0xFFFFFFFF#32
  else
    match regAt off with
    | none => 0#32
    | some e =>
      let st := if k = .warm then e.st ||| warmKept off else 0
      BitVec.ofNat 32 (st ||| (if vaonRamp then 0 else e.vaon))

/-- A register file after a core-wide reset. -/
def RegFile.afterReset (k : ResetKind) (vaonRamp : Bool) (r : RegFile) : RegFile :=
  r.filterMap fun x =>
    let m := keptBits k vaonRamp x.1
    let w := (x.2 &&& m) ||| (resetWord x.1 &&& ~~~m)
    if w = resetWord x.1 then none else some (x.1, w)

/-- A register file after a ramp of VAON: the VAON fields take their reset values (00 R6). -/
def RegFile.afterRamp (r : RegFile) : RegFile :=
  r.filterMap fun x =>
    let m := match regAt x.1 with
      | some e => BitVec.ofNat 32 e.vaon
      | none => 0#32
    let w := (x.2 &&& ~~~m) ||| (resetWord x.1 &&& m)
    if w = resetWord x.1 then none else some (x.1, w)

/-- Takes some registers back to their reset words. -/
def RegFile.dropWords (p : Nat → Bool) (r : RegFile) : RegFile := r.filter fun x => !p x.1

/-- Is the word an event counter? -/
def isCounter (off : Nat) : Bool :=
  match regAt off with
  | some e => e.counter
  | none => false

/-! The HV die at a core-wide reset. -/

/-- The counters and the interrupt registers of TPW and LDC clear (11 R372, 12 R395). -/
def Hv.clearCounters (v : Hv) : Hv :=
  { v with regs := v.regs.dropWords fun off => isCounter off || off == F.TPW_INT_STATUS.off || off == F.TPW_INT_EN.off
      || off == F.LDC_INT_STATUS.off || off == F.LDC_INT_EN.off }

/-- The standing commands that the HV die carries out as a core-wide reset asserts (R19, 06 R530, 11 R363, 12 R388). -/
def Hub.standingCommands (h : Hub) : Hub :=
  let h := h.live fun h => (h.each chans fun y h => h.onHv (Hv.chanReset y)).each ports fun p h => h.guardFail p
  h.onHv Hv.clearCounters

/-! The key store at a core-wide reset (13 R396, R398, R424, R427). -/

/-- The fuses are read at POR and cold reset: the state in force, the root and what the registers show of them. -/
def Chip.readFuses (c : Chip) : Chip :=
  let lc := lifeCycle c.key.fuses.pattern
  let c := ((c.put F.KEY_STATUS_LC lc).put F.KEY_STATUS_LC_FUSED lc).put F.KEY_STATUS_MIN_SVN c.key.fuses.svn
  c.put F.KEY_STATUS_FUSE_ERR c.key.fuses.rootBad.toNat

/-- The key store after the reset: every slot cleared; the lock on test access outlasts all but POR.
Marks: DEDUCED, log 55. -/
def Key.afterReset (k : ResetKind) (x : Key) : Key :=
  { Key.reset with
    fuses := x.fuses
    unlocked := k != .por && x.unlocked
    challenge := if k = .por then none else x.challenge
    wrong := if k = .por then 0 else x.wrong
    seed := if k = .por then none else x.seed
    blocked := k != .por && x.blocked }

/-- KEY registers that the fuses and the taint give after the reset. Marks: DEDUCED, log 55. -/
def Chip.keyRegs (k : ResetKind) (old : Chip) (c : Chip) : Chip :=
  let c := if k = .warm then
      (((c.put F.KEY_STATUS_LC (old.get F.KEY_STATUS_LC)).put F.KEY_STATUS_LC_FUSED (lifeCycle c.key.fuses.pattern)).put
        F.KEY_STATUS_MIN_SVN c.key.fuses.svn).put F.KEY_STATUS_FUSE_ERR (old.get F.KEY_STATUS_FUSE_ERR)
    else c.readFuses
  let c := c.when (k != .por) fun c =>
    (c.put F.KEY_STATUS_TAINT (old.get F.KEY_STATUS_TAINT)).put F.KEY_STATUS_TAP_OPEN (old.get F.KEY_STATUS_TAP_OPEN)
  match c.key.fuses.ownerPkh with
  | some h => c.show256 F.KEY_OWNER_PKH h
  | none => c

/-! The core-wide resets. -/

/-- HOLD outlasts a warm reset: it ends only at POR or cold reset (14 R441). Marks: DEDUCED, log 55. -/
def Chip.holdStays (k : ResetKind) (old : Chip) (c : Chip) : Chip :=
  c.when (k == .warm && old.get F.LKP_STATUS_STATE == 3) fun c => (c.put F.LKP_STATUS_STATE 3).put F.GLB_FAULT_STATUS_HOLD 1

/-- The balls of the adapters take their state in reset (17 Table 17-3): field pins are inputs, VBUS is off, U0 of a head-end presents
nothing, and a field hub drives PE_PERST_N low. -/
def Chip.pinsReset (c : Chip) : Chip :=
  let c := c.each (List.range 16) fun p c => c.fioChange p fun c => c.put (F.FLD_FIO_CFG_MODE p) 0
  let c := c.each ([0, 1] : List (Fin 2)) fun x c => c.when (c.on (F.USB_U_STATUS_VBUS_ON x)) (Chip.usbAct x (.vbus false))
  let c := c.when (c.usb.pullUp || c.usb.ssTerm) (Chip.usbAct 0 (.present false false))
  c.when (!c.headEnd && !c.perstLow) (Chip.pcieAct (.perst true))

/-- Everything of the core die that a core-wide reset clears, and what it keeps. Marks: DEDUCED, log 55. -/
def Chip.afterReset (k : ResetKind) (vaonRamp : Bool) (c : Chip) : Chip :=
  let warm := k == .warm
  let c := c.fusesPart.pinsReset
  let d : Chip := { c with
    regs := c.regs.afterReset k vaonRamp, subns := 0
    rst := { c.rst with active := some k, breakPort := none, bist := true }
    trk := Vector.replicate 3 Trk.reset, pcs := Vector.replicate 3 Pcs.reset, lnk := Vector.replicate 3 Lnk.reset, tp := Vector.replicate 3 Tp.reset
    fab := Fab.reset, swc := Swc.reset, sch := Sch.reset, bud := Bud.reset, usb := Usb.reset, win := Win.reset
    vid := Vid.reset, eth := Eth.reset, fld := Fld.reset, pwr := Pwr.reset, lkp := { Lkp.reset with escalated := warm && c.lkp.escalated }
    pst := { Pst.reset with off := c.pst.off }, cfg := Cfg.reset, cnt := Cnt.reset, hits := []
    jrn := if warm then c.jrn else []
    key := c.key.afterReset k
    alm := if warm then { c.alm with holds := [], rx := [] } else Alm.reset }
  Chip.holdStays k c (Chip.keyRegs k c d)

/-- A POR, cold or warm reset asserts, with the cause of GLB_RESET (0 POR, 1 RST_N, 2 Towpath break, 3 warm, 4 clock
loss): the standing commands first, then the core. Marks: DEDUCED, log 54. -/
def Hub.coreReset (k : ResetKind) (cause : Nat) (escalated vaonRamp : Bool) (h : Hub) : Hub :=
  h.when (h.chip.rst.admits k) fun h =>
    h.standingCommands.onChip fun c =>
      ((c.afterReset k vaonRamp).put F.GLB_RESET_CAUSE cause).put F.GLB_RESET_WARM_WDT escalated.toNat

/-- A cold reset with its cause. -/
def Hub.coldReset (cause : Nat) (h : Hub) : Hub := h.coreReset .cold cause false false

/-- A warm reset, by software or by escalation. -/
def Hub.warmReset (escalated : Bool) (h : Hub) : Hub := h.coreReset .warm 3 escalated false

/-- A write that R126 holds goes on without its request's answer, and without what else the request asked: the unit that carried
the request out has been reset. Marks: DEDUCED, log 29. -/
def Chip.unanswerHeld (window : Bool) (c : Chip) : Chip :=
  let alone := fun (a : PathAccess) =>
    match a.of_, window with
    | .window _, true => { a with of_ := .plain }
    | .mgmt _ (op :: _) _, false => { a with data := (op.drop 4).take 4 |>.reverse, of_ := .plain }
    | _, _ => a
  c.modFab fun f => { f with held := f.held.map alone }

/-! The Lockkeeper domain reset (14 Table 14-3 events 5 to 7). -/

/-- The cores, their SRAM and timers are reset and their self-test begins. What only the SRAM held is lost: barges handed to
or by the Lockkeeper, kept responses and relayed requests. Marks: DEDUCED, log 56. -/
def Chip.domainReset (failed : Bool) (c : Chip) : Chip :=
  let c := (c.put F.LKP_STATUS_STATE 2).put F.LKP_CTL_READY 0
  let c := c.modSwc fun w => { w with p8in := [], p8out := [] }
  { c with lkp := { c.lkp with failing := none, phase := .bist, failed := failed, gated := false, kept := [], proxied := [] } }.unanswerHeld false

/-- A Lockkeeper domain reset that software requests (R439): no failure, and none during a core-wide reset (R23) or in
HOLD (R441), or while one runs. Marks: DEDUCED, log 56. -/
def Chip.lockkeeperReset (c : Chip) : Chip :=
  c.when (c.running && !c.rst.bist && c.lkp.phase == .none && c.lkp.failing.isNone && c.get F.LKP_STATUS_STATE != 3) (Chip.domainReset false)

/-! The datapath domain reset. -/

/-- Registers of the switch core and the adapters that go back to their reset words: the counters of chapters 05 to 10, the
occupancies, the state of tunnels, video streams, DMA rings, locks and outstanding requests, and that of the CAN controllers and UARTs.
Marks: DEDUCED, log 56. -/
def datapathWord (off : Nat) : Bool :=
  let b := off / 0x1_0000
  (decide (6 ≤ b) && decide (b ≤ 13) && b != 8 && isCounter off)
    || (decide ((F.SWC_OCC 0).off ≤ off) && decide (off ≤ (F.SWC_RETAIN 9).off))
    || (decide ((F.FAB_TSTATE0 0).off ≤ off) && decide (off ≤ (F.FAB_TSTATE1 4095).off))
    || off == F.VID_STATUS.off || (List.range 4).any (fun n => off == (F.VID_CSI_S_STATUS n).off) || off == F.VID_DSI_STATUS.off
    || off == F.WIN_LOCK_STATUS.off || off == F.WIN_LOCK_HELD.off
    || off == F.WIN_STAGE_WR.off || off == F.WIN_STAGE_RD.off
    || off == F.FLD_STATUS.off || (List.range 4).any (fun n => off == (F.FLD_CAN_ERR n).off)
    || (List.range 2).any (fun u => off == (F.FLD_UA_STATUS u).off)

/-- The datapath domain reset (Table 01-5): basins, queues, replay buffers and adapter state are cleared and the trunk lanes
retrain; tables, time, gates, field signals and outputs stay; USB acts as R255. Marks: DEDUCED, log 56. -/
def Chip.datapathReset (c : Chip) : Chip :=
  let c := c.each ports fun p c => c.retrain p
  let raw := (c.written 0x04_4000 8 4096).filter fun t => c.on (F.FAB_TUN0_VALID t) && c.get (F.FAB_TUN1_MODE t) == 0
  let c := { c with regs := c.regs.dropWords datapathWord }
  let c := c.each raw fun t c => c.put (F.FAB_TSTATE1_TX_SYNCED t) 1
  let c := c.each (c.written (F.WIN_DMA2 0).off 0x20 64) fun n c => c.dmaStop n
  let c := ((c.put F.WIN_STATUS_NP_OUT 0).put F.VID_DSI_CMD_BUSY 0).put F.ETH_MDIO_CMD_BUSY 0
  let c := { c with
    lnk := c.lnk.map fun (l : Lnk) => { l with rxq := [] }
    fab := { c.fab with tuns := [], walking := Vector.replicate 3 none }
    swc := Swc.reset
    sch := { Sch.reset with gates := c.sch.gates, weirs := c.sch.weirs, snap := c.sch.snap }
    win := { Win.reset with stage := c.win.stage, poisoned := c.win.poisoned, rpHdr := c.win.rpHdr, msixTable := c.win.msixTable, msi := c.win.msi }
    vid := Vid.reset
    eth := { c.eth with tx := Vector.replicate 3 [], pausedUntil := 0 }
    fld := { c.fld with batches := [], pending := [], loaded := Vector.replicate 4 none, uarts := Fld.reset.uarts } }.showPool.unanswerHeld true
  let c := if c.headEnd then c.usbU0Reset false else c
  c.each [(0 : Fin 2), 1] fun x c => c.when (c.downstream x) fun c => c.physDisable x 4

end Sys2Proof.Machine
end

