-- ==== Sys2Proof/Machine/PowerStates.lean ====
section
/-! DEFINITION. Power states and wake (15): votes and domains, Deep sleep, Off. -/

namespace Sys2Proof.Machine

def Chip.modPst (c : Chip) (f : Pst → Pst) : Chip := { c with pst := f c.pst }

/-! Domains (R453 to R455). -/

/-- Does something still hold a domain other than LK: a software or hardware vote, or a domain that depends on it? -/
def Chip.domainHeld (c : Chip) (d : Nat) : Bool :=
  c.bit F.PWR_VOTE_SW_VOTE d || (if d = 1 then c.dpVote else c.outerVotes.testBit d)

/-- A domain stops; with DP, nothing is held at the link layers any more (R456). -/
def Chip.domainStops (d : Nat) (c : Chip) : Chip :=
  let c := c.putBit F.PWR_STATUS_DOM_ON d false
  c.when (d == 1) fun c => c.each ports fun p c => c.modLnk p fun l => { l with cold := [] }

/-- DOMAIN_DROP (R453): with no vote left the domain stops. LK stops by its wait instruction alone. -/
def execDomainDrop (d : Fin 10) (s : State) : Host.Outcome State Fault Refusal :=
  s.onChip fun c => c.when (c.running && d != 0 && !c.domainHeld d.val) (Chip.domainStops d.val)

/-- A write of PWR_VOTE_SW (R466). A wake of DP counts. -/
def Chip.voteWrite (v : Nat) (c : Chip) : Chip :=
  ((c.put F.PWR_VOTE_SW_VOTE v).votesWake v).when (c.dpWakes v) fun c => c.inc F.PWR_DP_WAKES

/-- LK_WAIT (R454): the gate closes only while no LK vote is present. -/
def execLkWait (s : State) : Host.Outcome State Fault Refusal :=
  s.onHub fun h =>
    let c := h.chip
    h.when (c.started && c.lkp.phase == .none && c.lkp.failing.isNone && c.get F.LKP_STATUS_STATE != 3 && !c.lkp.gated
        && !c.bit F.PWR_VOTE_SW_VOTE 0 && !h.lkVote) fun h => h.onChip (Chip.lkGate true)

/-- LK_UNGATE (R454). -/
def execLkUngate (s : State) : Host.Outcome State Fault Refusal :=
  s.onHub fun h => h.when (h.chip.running && h.chip.lkp.gated && h.lkOn) fun h => h.onChip (Chip.lkGate false)

/-- DOMAIN_WAKE_ACCESS (R455): an access stalls for a time that is given. -/
def execDomainWakeAccess (d : Fin 10) (stall : BitVec 16) (s : State) : Host.Outcome State Fault Refusal :=
  s.onChip fun c => c.when (c.running && !c.bit F.PWR_STATUS_DOM_ON d.val) (Chip.domainWake d.val stall.toNat)

/-! Deep sleep (R458 to R462). -/

/-- The key store or a Towpath engine has a command or request outstanding. -/
def Chip.busyCommands (c : Chip) : Bool :=
  c.key.lcCmd.isSome || c.key.prov.isSome || c.on F.KEY_WM_CMD_BUSY || ports.any fun (p : Port) => !c.tp[p].requests.isEmpty

/-- Every condition of R458. A port that listens or is off has no link. Marks: DEDUCED, log 60. -/
def Hub.deepReady (h : Hub) : Bool :=
  h.chip.started && h.chip.on F.PWR_CTL_DEEP_REQ && !h.chip.pst.hold && h.domOn == 0
    && ports.all (fun (p : Port) => h.chip.mooredPort p || !h.chip.on (F.TRK_STATUS_LINK_UP p))
    && chans.all (fun (y : Chan) => h.hv.cstate y != csArmed && h.hv.cstate y != csRamp)
    && ports.all (fun (p : Port) =>
      let st := h.hv.pstate p
      st != psProbe && st != psRamp && st != psRestore && !h.hv.on (F.TPW_P_STATUS_GUARD p))
    && !h.chip.busyCommands

/-- Deep sleep begins (R458, R459): one re-mask pass, fabric time stops and LOCKED clears; or a wake source abandons the entry
(R462). Marks: DEDUCED, log 60. -/
def Chip.enterDeep (abort : Bool) (c : Chip) : Chip :=
  if abort then (c.flag F.PWR_INT_STATUS_DEEP_ABORT).modPst fun x => { x with hold := true }
  else ((c.remaskPass.unlockTime).inc F.PWR_DEEP_ENTRIES).modPst fun x => { x with deep := true }

def Hub.tryDeep (abort : Bool) (h : Hub) : Hub := h.when h.deepReady fun h => h.onChip (Chip.enterDeep abort)

def execDeepSleepEntry (abort : Bool) (s : State) : Host.Outcome State Fault Refusal := s.onHub (Hub.tryDeep abort)

/-- The hub leaves Deep sleep for Sleep (R460), with one re-mask pass (R458). -/
def Chip.deepExit (c : Chip) : Chip :=
  ((c.modPst fun x => { x with deep := false, hold := true }).flag F.PWR_INT_STATUS_WAKE).remaskPass

/-- DEEP_SLEEP_WAKE (R460): an enabled source, by its bit in PWR_WAKE_EN, brings the hub to Sleep. -/
def Chip.deepWake (source : Nat) (c : Chip) : Chip := (c.putBit F.PWR_WAKE_CAUSE source true).deepExit

/-- An access finds the hub in Deep sleep, which it ends (R452, R455): it stalls for up to 400 µs, a free value (log 2). Only an I2C0
access has a bit of PWR_WAKE_EN and PWR_WAKE_CAUSE. Marks: DEDUCED, log 60. -/
def Chip.accessWakes (i2c : Bool) (c : Chip) : Chip :=
  c.when (c.pst.deep && (!i2c || c.bit F.PWR_WAKE_EN 9)) fun c =>
    let c := if i2c then c.deepWake 9 else c.deepExit
    let (n, c) := c.draw 50001
    c.stalled n

/-- Is a wake source enabled: its bit of PWR_WAKE_EN, and for a field input the pin's bit of PWR_WAKE_FIO? -/
def Chip.wakeEnabled (c : Chip) (source pin : Nat) : Bool :=
  c.bit F.PWR_WAKE_EN source && (source != 10 || c.bit F.PWR_WAKE_FIO_MASK pin)

def execDeepSleepWake (source : Fin 11) (pin : Fin 16) (s : State) : Host.Outcome State Fault Refusal :=
  s.onChip fun c => c.when (c.pst.deep && c.wakeEnabled source.val pin.val) (Chip.deepWake source.val)

/-- DEEP_HOLD_EXPIRY (R461): entry is tried again. -/
def execDeepHoldExpiry (s : State) : Host.Outcome State Fault Refusal :=
  s.onHub fun h => h.when h.chip.running fun h => (h.onChip fun c => c.modPst fun x => { x with hold := false }).tryDeep false

/-! Off (R463, R464). -/

/-- PWR_EN_DROP (R463): PWR_EN goes low, and the loss of supply is a POR. -/
def execPwrEnDrop (s : State) : Host.Outcome State Fault Refusal :=
  s.onHub fun h => h.when h.chip.pst.offDue fun h =>
    (h.onChip fun c => (c.emit (.pwrEn false)).modPst fun x => { x with offDue := false, off := true }).coreReset .por 0 false false

/-- PWR_EN goes high again (R464). Marks: DEDUCED, log 60. -/
def Chip.leaveOff (c : Chip) : Chip :=
  ((c.emit (.pwrEn true)).put F.PWR_WAKE_CAUSE_FROM_OFF 1).modPst fun x => { x with off := false }

/-- OFF_WAKE (R464). -/
def execOffWake (s : State) : Host.Outcome State Fault Refusal := s.onChip fun c => c.when c.pst.off Chip.leaveOff

/-- AON_TIMER_EXPIRY (R460, R464): the timer counts in Deep sleep and Off, and has run down to 0, which disables it.
Marks: DEDUCED, log 60. -/
def Chip.aonExpiry (c : Chip) : Chip :=
  let c := c.put F.PWR_AON_TIMER_COUNT 0
  if c.pst.off then c.leaveOff else c.when (c.bit F.PWR_WAKE_EN 1) (Chip.deepWake 1)

def execAonTimerExpiry (s : State) : Host.Outcome State Fault Refusal :=
  s.onChip fun c => c.when ((c.pst.deep || c.pst.off) && c.get F.PWR_AON_TIMER_COUNT != 0) Chip.aonExpiry

end Sys2Proof.Machine
end

