-- ==== Sys2Proof/Machine/ImageOps.lean ====
section
/-! DEFINITION. The image header and the acceptance of an image (16 R469, 13 R413). -/

namespace Sys2Proof.Machine

/-! Header fields (Table 16-2). -/

def imgField (i : ImageFile) (at_ n : Nat) : Nat := fieldAt i.header at_ n
def imgSvn (i : ImageFile) : Nat := imgField i 7 1
def imgSeq (i : ImageFile) : Nat := imgField i 8 4
def imgLength (i : ImageFile) : Nat := imgField i 12 4
def imgRole (i : ImageFile) : Nat := imgField i 16 1

/-- The body: LENGTH bytes after the header. -/
def imgContent (i : ImageFile) : List Byte := i.body.take (imgLength i)

/-- The signed region: header bytes 0 to 31 and the body. -/
def imgRegion (i : ImageFile) : List Byte := i.header.take 32 ++ imgContent i

/-- The image's measurement. -/
def imgDigest (i : ImageFile) : Key256 := Config.sha256 (imgRegion i)

/-- Is there an image of the kind at all: MAGIC, FORMAT, TYPE and a LENGTH within its limit that the body has? -/
def imgPresent (i : ImageFile) (fw : Bool) : Bool :=
  i.header.length == 256 && imgField i 0 4 == (if fw then 0x434B_4846 else 0x434B_4843) && imgField i 4 2 == 1
    && imgField i 6 1 == (if fw then 1 else 2) && decide (imgLength i ≤ if fw then 393_216 else 1_048_576) && decide (imgLength i ≤ i.body.length)

/-! Acceptance (13 R413, Table 13-1). -/

/-- The hash that the header's public key must have in the life-cycle state in force; none where it is not checked, and no
key passes where the owner's hash is not programmed. -/
def Chip.imageKeyOk (c : Chip) (fw : Bool) (hash : Key256) : Bool :=
  if fw then hash == Config.firmwareKeyHash
  else
    match c.get F.KEY_STATUS_LC with
    | 0 => true
    | 3 => hash == Config.returnKeyHash
    | _ => c.key.fuses.ownerPkh == some hash

/-- Does an image pass R413? -/
def Chip.imageOk (c : Chip) (fw : Bool) (i : ImageFile) : Bool :=
  c.imageKeyOk fw (Config.sha256 ((i.header.drop 32).take 64))
    && Config.signatureOk ((i.header.drop 32).take 64) (imgDigest i) ((i.header.drop 96).take 64)
    && (!fw || (decide (imgSvn i ≤ 32) && decide (c.get F.KEY_STATUS_MIN_SVN ≤ imgSvn i)))

/-- Is a firmware image there and accepted? -/
def Chip.firmwareOk (c : Chip) (i : ImageFile) : Bool := imgPresent i true && c.imageOk true i

/-- The firmware of an accepted image runs: its measurement and security version show. -/
def Chip.firmwareTaken (i : ImageFile) (c : Chip) : Chip := (c.show256 F.KEY_MEAS_FW (imgDigest i)).put F.KEY_STATUS_FW_SVN (imgSvn i)

end Sys2Proof.Machine
end

