-- ==== Sys2Proof/Machine/Switch.lean ====
section
/-! DEFINITION. The crossbar and what empties the virtual output queues (05 R169, R170, R182 to R188; 04 R129, R130, R149
to R155): grants and crossings, the age sweep, the walk at a trunk loss, and ring protection's notices. -/

namespace Sys2Proof.Machine

/-! The crossbar (R182 to R184). -/

/-- Words in an egress port's crossing buffer (R182): of a trunk port, what its link has not begun to send; of P9, what has not been
looped. Other ports take a barge as it crosses. Marks: DESIGN CHOICE, log 85. -/
def Chip.crossWords (c : Chip) (e : Nat) : Nat :=
  let words := fun (l : List Barge) => (l.map fun b => bargeWords b.hdr.len.toNat).foldl (· + ·) 0
  if e ≤ 2 then words ((c.lnk.toList.getD e Lnk.reset).txq.map (·.barge)) else if e = 9 then words (c.swc.p9in.map (·.2)) else 0

/-- Are the lanes of an egress Moored? Its barges wait in their queues until it wakes (15 R457). -/
def Chip.mooredEgress (c : Chip) (e : Nat) : Bool := ports.any fun (p : Port) => p.val == e && c.mooredPort p

/-- May an egress port take a new barge: 64 of the 128 words of its crossing buffer are free (R182), P9 holds none (R192), and its lanes
are not Moored? -/
def Chip.egressRoom (c : Chip) (e : Nat) : Bool :=
  decide (c.crossWords e ≤ 64) && (e != 9 || (c.heldAt 9).isNone) && !c.mooredEgress e

/-- A grant: the egress, the queue its scheduler chose and the oldest head barge. -/
structure Grant where
  out : Nat
  queue : Nat
  desc : Desc

/-- Is a descriptor the head of its virtual output queue? -/
def Swc.isHead (w : Swc) (d : Desc) : Bool :=
  (w.voqs.find? fun x => x.inPort == d.inPort && x.outPort == d.outPort && x.queue == d.queue) == some d

/-- The choice that a refused egress keeps (R183), while its queue may still send it. Marks: DEDUCED, log 37. -/
def Chip.keptGrant (c : Chip) (e : Nat) : Option Grant :=
  match c.swc.voqs.find? fun d => d.outPort == e && c.swc.kept.contains (e, d.sid) with
  | some d => if c.swc.isHead d && c.eligible e d.queue then some { out := e, queue := d.queue, desc := d } else none
  | none => none

/-- The grant an egress sends now. -/
def Chip.grantOf (c : Chip) (e : Nat) : Option Grant :=
  if !c.egressRoom e then none
  else match c.keptGrant e, c.selectQueue e with
    | some g, _ => some g
    | none, some q => (c.headOf e q).map fun d => { out := e, queue := q, desc := d }
    | none, none => none

/-- Does an ingress accept grant `a` before grant `b` (R183)? Grants are compared in ascending order of egress. -/
def Chip.grantBefore (c : Chip) (a b : Grant) : Bool :=
  if (a.queue < 4) != (b.queue < 4) then a.queue < 4
  else decide (c.ageNs b.desc < c.ageNs a.desc)

/-- The grant that an ingress accepts. -/
def Chip.accepted (c : Chip) (i : Nat) (l : List Grant) : Option Grant :=
  (l.filter fun g => g.desc.inPort == i).foldl (fun best g =>
    match best with
    | none => some g
    | some b => if c.grantBefore g b then some g else some b) none

/-- A barge that crosses toward an adapter whose domain is off wakes it (15 R455). -/
def Chip.accessAdapter (e : Nat) (c : Chip) : Chip :=
  match adapterDomain e with
  | some d => c.accessDomain d
  | none => c

/-- The egress stage (R129, R130, R149): a barge leaves toward its link, the Lockkeeper or its
adapter; a TACK for this hub is taken by its tunnel engine. -/
def Chip.leave (d : Desc) (b : Barge) (c : Chip) : Chip :=
  let e := d.outPort
  if 13 ≤ c.ageTicks d then c.egressDrop F.FAB_AGE_DROP d b 5
  else if c.revoked d then c.egressDrop F.FAB_REVOKE_DROP d b 4
  else if h : e < 3 then
    let p : Port := ⟨e, h⟩
    let open_ := if b.hdr.type.toNat == typeLctl then c.on (F.TRK_STATUS_LINK_UP p) else c.on (F.LNK_STATUS_ADMITTED p)
    if open_ then c.modLnk p fun l => { l with txq := l.txq ++ [{ desc := d, barge := b }] } else c.egressDrop F.FAB_NO_ROUTE d b 6
  else if b.hdr.type.toNat == typeTack && !b.hdr.mcast && e != 8 then c.tackIn b d.inPort
  else if e = 8 then c.toP8 d.inPort b
  else
    let c := c.accessAdapter e
    match d.dstTun with
    | some (t, _) => c.receiveTunnel t d.mode e d.channel b
    | none => c.deliverMulticast e d.channel b

/-- A permanent error destroys a barge and all its copies (R187, R188). -/
def Chip.loseBarge (x : Stored) (loc : Word) (c : Chip) : Chip :=
  let c := c.each (c.swc.voqs.filter fun d => d.sid == x.sid) fun d c => c.dropDesc d 8
  let c := ((c.inc F.SWC_ECC_DROP).put F.SWC_ECC_LOC (wordLoc loc).toNat).flag F.SWC_INT_STATUS_ECC_DROP
  match x.retained with
  | some t => (c.stallTunnel t).unretain true x.sid
  | none => c

/-- A crossing (R183, R184): the cells are checked, the barge is sampled at its egress, leaves the queue and is charged to
the scheduler and its shapers, and goes out. -/
def Chip.cross (check : CellCheck) (g : Grant) (c : Chip) : Chip :=
  let d := g.desc
  match c.swc.stored d.sid with
  | none => c.modSwc fun w => { w with voqs := w.voqs.erase d }
  | some x =>
    let found := x.found check
    let c := c.eccRead found
    match found with
    | .permanent loc => c.loseBarge x loc
    | _ =>
      let c := match found with | .transient _ => c.inc F.SWC_ECC_RETRY_OK | _ => c
      let b := d.barge x.barge
      let c := c.sample (d.point b 1 0 (c.swc.voqDepth d.inPort d.outPort d.queue))
      let c := c.modSwc fun w => { w with voqs := w.voqs.erase d }
      let c := c.crossed g.out g.queue b.hdr.budget.toNat (bargeWords b.hdr.len.toNat)
      (c.leave d b).dropRef d.sid

/-- The check's result for an ingress port, clean where none is named. -/
def checkOf (checks : List (DPort × CellCheck)) (i : Nat) : CellCheck :=
  ((checks.find? fun x => x.1.val == i).map Prod.snd).getD .clean

/-- CROSSBAR_GRANT (R182 to R184): every egress with room sends its grant, every ingress accepts one, the accepted
crossings run, and a refused egress keeps its choice. `checks` names the ingress ports whose check finds something. No barge crosses
before start-up BIST has ended (14 R435). -/
def Chip.crossbar (checks : List (DPort × CellCheck)) (c : Chip) : Chip :=
  let c := c.each portList fun e c => c.countGuard e
  let grants := portList.filterMap c.grantOf
  let taken := portList.filterMap fun i => c.accepted i grants
  let refused := grants.filter fun g => !(taken.any fun t => t.out == g.out)
  let c := c.modSwc fun w => { w with kept := refused.map fun g => (g.out, g.desc.sid) }
  c.each taken fun g c => c.cross (checkOf checks g.desc.inPort) g

def execCrossbarGrant (checks : List (DPort × CellCheck)) (s : State) : Host.Outcome State Fault Refusal :=
  s.onChip fun c => c.when c.started (Chip.crossbar checks)

/-! The age sweep (R170). -/

/-- AGE_SWEEP (R170): heads 13 or more ticks old are dropped, and the heads that follow are examined. -/
def Chip.ageSweep (c : Chip) : Chip :=
  c.each c.swc.voqs fun d c => if c.swc.isHead d && 13 ≤ c.ageTicks d then (c.inc F.FAB_AGE_DROP).dropDesc d 5 else c

def execAgeSweep (s : State) : Host.Outcome State Fault Refusal := s.onChip Chip.ageSweep

/-! The walk at a trunk loss (04 R155, 05 R181). -/

/-- Is a queue marked in FAB_STRICT_Q? -/
def Chip.strictQueue (c : Chip) (q : Nat) : Bool :=
  if q < 32 then c.bit F.FAB_STRICT_Q_LO q else c.bit F.FAB_STRICT_Q_HI (q - 32)

/-- What the walk does with one descriptor toward the lost port. LCTL barges keep their named port (R83); a multicast copy
has no other egress (R147). Marks: DEDUCED, log 37. -/
def Chip.walkOne (p : Port) (d : Desc) (c : Chip) : Chip :=
  match c.swc.stored d.sid with
  | none => c
  | some x =>
    if x.barge.hdr.type.toNat == typeLctl then c
    else if d.strict || c.strictQueue d.queue then (c.inc F.FAB_STRICT_DROP).dropDesc d 12
    else if d.copy then (c.inc (F.FAB_MC_DROP p)).dropDesc d 9
    else
      let dst := x.barge.hdr.dst.toNat
      let r := c.routeTo dst
      match r.egress with
      | none => (c.inc F.FAB_NO_ROUTE).dropDesc d 6
      | some e =>
        if e = d.inPort then (c.inc (F.FAB_ROUTE_ERR e)).dropDesc d 11
        else
          let d' := { d with outPort := e, route := some (dst, r.gen), guarded := false }
          let c := c.modSwc fun w => { w with voqs := w.voqs.erase d ++ [d'] }
          ((c.inc F.FAB_RELINK).settleTag d.outPort d.queue).becameBacklogged e d.queue

/-- VOQ_WALK_DONE (R155): the walk toward a port ends, and waiting lookups go on, those of the tunnel engine with it. -/
def Chip.voqWalkDone (p : Port) (c : Chip) : Chip :=
  let c := c.each (c.swc.voqs.filter fun d => d.outPort == p.val) (Chip.walkOne p)
  (c.modFab fun f => { f with walking := upd f.walking p fun _ => none }).takeLater

def execVoqWalkDone (p : Port) (s : State) : Host.Outcome State Fault Refusal :=
  s.onChip fun c => c.when c.fab.walking[p].isSome (Chip.voqWalkDone p)

/-! Routability and route notices (R149 to R154, R526). -/

/-- PORT_ROUTABILITY_LOSS (R149). -/
def execPortRoutabilityLoss (p : Port) (s : State) : Host.Outcome State Fault Refusal :=
  s.onChip fun c => c.when (c.routable p) (Chip.routabilityLost p)

/-- ROUTE_NOTICE_TX (R151): while a lost ring port or spur is not routable again. -/
def execRouteNoticeTx (p : Port) (s : State) : Host.Outcome State Fault Refusal :=
  s.onChip fun c => c.when c.fab.ownLost[p] fun c => c.sendNotice p true

/-- ROUTE_NOTICE_RX (R152). -/
def execRouteNoticeRx (p : Port) (notice : Barge) (s : State) : Host.Outcome State Fault Refusal :=
  s.onChip fun c => c.when (notice.hdr.mcast && notice.hdr.tunnel.toNat % 256 == 255 && notice.hdr.type.toNat == typeAlarm) (Chip.trunkLookup p notice)

/-- ROUTE_NOTICE_AGE_EXPIRY (R152): 5 ms without a refresh. A bit the hub holds for a port of its own stays (R526). -/
def execRouteNoticeAgeExpiry (spur : Bool) (index : BitVec 6) (s : State) : Host.Outcome State Fault Refusal :=
  s.onChip fun c =>
    let own := ports.any fun p => c.fab.ownLost[p] && c.ownProtection p == some (spur, index.toNat)
    c.when (!own) fun c => c.setProtection spur index.toNat false

/-- WTR_EXPIRY (R154): the port becomes routable, and the first of three restore notices goes out. -/
def Chip.wtrExpiry (p : Port) (c : Chip) : Chip :=
  let c := (c.putBit F.FAB_STATUS_WTR_RUN p.val false).routabilityGained p
  let c := c.modFab fun f => { f with hadLoss := upd f.hadLoss p fun _ => false, restoreLeft := upd f.restoreLeft p fun _ => if c.ring.isSome then 2 else 0 }
  c.sendNotice p false

def execWtrExpiry (p : Port) (s : State) : Host.Outcome State Fault Refusal :=
  s.onChip fun c => c.when (c.bit F.FAB_STATUS_WTR_RUN p) (Chip.wtrExpiry p)

/-- RESTORE_NOTICE_REPEAT (R154): the second and the third restore notice. -/
def execRestoreNoticeRepeat (p : Port) (s : State) : Host.Outcome State Fault Refusal :=
  s.onChip fun c => c.when (c.fab.restoreLeft[p] != 0) fun c =>
    (c.modFab fun f => { f with restoreLeft := upd f.restoreLeft p fun n => n - 1 }).sendNotice p false

/-! Shared effects of register writes. -/

/-- SWC_CTL.PEAK_CLR: every PEAK takes the current IN_USE. -/
def Chip.peakClear (c : Chip) : Chip := c.each portList fun e c => c.put (F.SWC_OCC_PEAK e) (c.get (F.SWC_OCC_IN_USE e))

end Sys2Proof.Machine
end

