-- ==== Sys2Proof/Machine/Lockkeeper.lean ====
section
/-! DEFINITION. Start-up self-test, scrubbing, the Lockkeeper's supervision and its fallback sequencer (14 R429 to R443). -/

namespace Sys2Proof.Machine

def Chip.modLkp (c : Chip) (f : Lkp → Lkp) : Chip := { c with lkp := f c.lkp }

/-! Failures (R438). -/

/-- Code of LKP_STATUS.LAST_CAUSE. -/
def LkCause.code : LkCause → Nat
  | .lockstep => 1
  | .watchdog => 2
  | .ecc => 3
  | .bootTmo => 4
  | .bist => 5
  | .signature => 6

/-- The Lockkeeper fails: the sequencer has yet to act (LOCKKEEPER_FAILURE). In HOLD nothing can fail any more. -/
def Chip.lkFails (cause : LkCause) (c : Chip) : Chip :=
  c.when (c.running && c.get F.LKP_STATUS_STATE != 3 && c.lkp.failing.isNone) fun c => c.modLkp fun k => { k with failing := some cause }

/-- Do the cores execute: out of reset and BIST, not held, not in their own self-test, clock not gated? -/
def Chip.coresRun (c : Chip) : Bool :=
  c.started && c.lkp.failing.isNone && (c.lkp.phase == .none || c.lkp.phase == .load) && c.get F.LKP_STATUS_STATE != 3 && !c.lkp.gated

/-- LOCKSTEP_MISMATCH (R438): the leading core's program counter is recorded. -/
def execLockstepMismatch (pc : Word) (s : State) : Host.Outcome State Fault Refusal :=
  s.onChip fun c => c.when c.coresRun fun c => (c.put F.LKP_FAIL_PC pc.toNat).lkFails .lockstep

/-- No kick for WDT_MS (0 taken as 1), counted from the last kick, READY or ungate (R438, 15 R454). -/
def Chip.watchdogDue (c : Chip) : Bool := decide (c.lkp.kickAt + max 1 (c.get F.LKP_CFG_WDT_MS) * millisecond ≤ c.now)

/-- WATCHDOG_EXPIRY (R438): only while STATE is RUN, and suspended while the clock is gated (15 R454). -/
def execWatchdogExpiry (s : State) : Host.Outcome State Fault Refusal :=
  s.onChip fun c => c.when (c.coresRun && c.get F.LKP_STATUS_STATE == 0 && c.watchdogDue) (Chip.lkFails .watchdog)

/-- BOOT_TMO_EXPIRY (R438): after a restart, READY has not been written in time. -/
def execBootTmoExpiry (s : State) : Host.Outcome State Fault Refusal :=
  s.onChip fun c => c.when ((c.lkp.phase == .bist || c.lkp.phase == .load) && !c.on F.LKP_CTL_READY) (Chip.lkFails .bootTmo)

/-! The fallback sequence (Table 14-3, R440, R441). -/

/-- P8 traffic is discarded: what waits to be read counts, what the Lockkeeper had handed on goes with it. -/
def Chip.p8Discard (c : Chip) : Chip :=
  (c.add F.LKP_P8_DROP c.swc.p8in.length).modSwc fun w => { w with p8in := [], p8out := [] }

/-- The hub enters HOLD (R441). -/
def Chip.enterHold (c : Chip) : Chip :=
  let c := ((c.put F.LKP_STATUS_STATE 3).put F.GLB_FAULT_STATUS_HOLD 1).modLkp fun k => { k with failing := none, phase := .none }
  c.raiseOwn 0x06 0xFF 0

/-- Events 1 and 3: what is recorded, and LK_FAIL. Marks: DEDUCED, log 59. -/
def Chip.lkRecord (cause : LkCause) (c : Chip) : Chip :=
  let c := ((c.put F.LKP_STATUS_LAST_CAUSE cause.code).put F.LKP_FAIL_FRAME (c.get F.FAB_FRAME)).inc F.LKP_FAILS
  let c := (c.p8Discard.put F.LKP_CTL_READY 0).put F.LKP_STATUS_STATE 2
  (c.modLkp fun k => { k with failing := none, phase := .held, gated := false, kept := [], proxied := [] }).raiseOwn 0x05 0xFF cause.code

/-- LOCKKEEPER_FAILURE (R439, R440, R20): the sequencer acts on the failure detected. With RESTARTS at 3 the first one may start a
warm reset, and the next enters HOLD. Marks: DEDUCED, log 59. -/
def Hub.lkFailure (h : Hub) : Hub :=
  match h.chip.lkp.failing with
  | none => h
  | some cause =>
    let h := (h.onChip (Chip.lkRecord cause)).live fun h => h.each chans Hub.ctlLoss
    if h.chip.get F.LKP_STATUS_RESTARTS = 3 then
      if h.chip.on F.LKP_CFG_ESC_WARM && !h.chip.lkp.escalated then
        (h.onChip fun c => c.modLkp fun k => { k with escalated := true }).warmReset true
      else h.onChip Chip.enterHold
    else h

def execLockkeeperFailure (s : State) : Host.Outcome State Fault Refusal := s.onHub fun h => h.when h.chip.running Hub.lkFailure

/-- LK_RESTART_BEGIN (Table 14-3 event 4). -/
def execLkRestartBegin (s : State) : Host.Outcome State Fault Refusal :=
  s.onChip fun c => c.when (c.running && c.lkp.phase == .held) fun c => (c.inc F.LKP_STATUS_RESTARTS).domainReset true

/-- LK_RESTART_BIST_DONE (event 5): the March test has written every word of tile 6. -/
def execLkRestartBistDone (ok : Bool) (s : State) : Host.Outcome State Fault Refusal :=
  s.onChip fun c => c.when (c.running && c.lkp.phase == .bist) fun c =>
    let c := c.rewritten fun w => locTile w == 6
    if ok then (c.put F.LKP_STATUS_STATE 1).modLkp fun k => { k with phase := .load } else c.lkFails .bist

/-- LK_FIRMWARE_LOADED (event 6): the reloaded firmware is checked, and one of another measurement loses the measured keys
(13 R402). -/
def Chip.firmwareReloaded (fw : ImageFile) (c : Chip) : Chip :=
  if c.firmwareOk fw then
    let c := c.when (c.on F.KEY_STATUS_MKB_VALID && c.read256 F.KEY_MEAS_FW != (imgDigest fw)) Chip.dropMkb
    c.firmwareTaken fw
  else c.lkFails .signature

def execLkFirmwareLoaded (fw : ImageFile) (s : State) : Host.Outcome State Fault Refusal :=
  s.onChip fun c => c.when (c.running && c.lkp.phase == .load && c.lkp.failing.isNone) (Chip.firmwareReloaded fw)

/-! LKP_CTL (R438, R439). -/

/-- READY ends the loading: STATE is RUN, the watchdog starts, and a restart that a failure caused has recovered.
Marks: DEDUCED, log 57; DEDUCED, log 59. -/
def Chip.lkReady (c : Chip) : Chip :=
  let c := c.put F.LKP_CTL_READY 1
  c.when (c.started && c.get F.LKP_STATUS_STATE == 1 && c.lkp.failing.isNone) fun c =>
    let restarted := c.lkp.phase == .load
    let c := (c.put F.LKP_STATUS_STATE 0).modLkp fun k => { k with phase := .none, kickAt := c.now }
    let c := c.when restarted fun c => c.flag F.LKP_INT_STATUS_RECOVERED
    c.when (c.alarmStands 0x05 0xFF) fun c => c.clearOwn 0x05 0xFF 0

/-- KICK starts the watchdog from zero. -/
def Chip.lkKick (c : Chip) : Chip := c.modLkp fun k => { k with kickAt := c.now }

/-! The sequencer's own copies (R442). -/

/-- SEQ_VOTE_DISAGREE: one copy is outvoted, and corrected in the next cycle, which ends the alarm's condition (R444); or, with no two
alike, FAULT_N and a warm reset. Marks: DEDUCED, log 59. -/
def execSeqVoteDisagree (majority : Bool) (s : State) : Host.Outcome State Fault Refusal :=
  s.onHub fun h => h.when h.chip.running fun h =>
    if majority then h.onChip fun c =>
      (((c.put F.LKP_STATUS_SEQ_FAULT 1).flag F.LKP_INT_STATUS_SEQ_FAULT).raiseOwn 0x07 0xFF 0).clearOwn 0x07 0xFF 0
    else (h.onChip fun c => c.flag F.GLB_FAULT_STATUS_SEQ_NOMAJ).warmReset true

/-! The protected memories (01 Table 01-3, R432). -/

/-- Macros of a tile that hold protected words: tile and number (01 Table 01-3). -/
def scrubTiles : List (Nat × Nat) := [(0, 16), (1, 16), (2, 16), (3, 16), (4, 16), (5, 16), (6, 8), (7, 6), (8, 5)]

/-- Tile and macro of the k-th macro in turn. -/
def macroAt : List (Nat × Nat) → Nat → Nat × Nat
  | [], k => (8, k)
  | (t, n) :: l, k => if k < n then (t, k) else macroAt l (k - n)

/-- The level-5 location code of a word by its number in the scrubber's order: macros of 4 banks of 1,024 words.
Marks: DEDUCED, log 59. -/
def scrubLoc (pos : Nat) : Word :=
  let (t, m) := macroAt scrubTiles (pos / 4096)
  BitVec.ofNat 32 (5 * 2 ^ 29 + t * 2 ^ 24 + m * 2 ^ 20 + pos % 4096 / 1024 * 2 ^ 18 + pos % 1024 * 2 ^ 8)

/-! Start-up BIST (R435 to R437). -/

/-- Phase 2: each failing word is remapped; those that find no entry are unrepairable, in order. -/
def Chip.bistWords : List Word → Chip → List Word × Chip
  | [], c => ([], c)
  | w :: ws, c =>
    if (remapEntries.find? fun n => !c.remapValid n).isNone then
      let (l, c) := Chip.bistWords ws (c.remap w false true)
      (w :: l, c)
    else Chip.bistWords ws (((c.remap w false true).inc F.REL_BIST_STATUS_MEM_REMAPS))

/-- The first unrepairable place (R437): a word of phase 2, the macro whose checker fails phase 3 at level 3, or the core logic of
phase 4, which is tile 14, at level 2 (01 R17, R18, Table 01-3). Marks: DEDUCED, log 74. -/
def bistPlace (r : BistResult) (bad : List Word) : Nat :=
  match bad with
  | w :: _ => w.toNat
  | [] =>
    let (t, m) := macroAt scrubTiles r.checker.val
    if r.eccOk then tilePlace 0 14 else macroPlace 0 t m

/-- BIST fails (R437): HOLD when the Lockkeeper's own parts failed, otherwise no trunk link is admitted. -/
def Chip.bistFailed (l : Nat) (hold : Bool) (c : Chip) : Chip :=
  let c := ((c.put F.REL_STATUS_BIST_FAIL 1).flag F.REL_INT_STATUS_BIST_FAIL).put F.REL_BIST_LOC l
  let c := (c.flag F.GLB_FAULT_STATUS_BIST_FAIL).raiseLoc 0x04 l 0
  if hold then c.enterHold else c.modLkp fun k => { k with noAdmit := true }

/-- A lane that failed phase 1 is held Failed (R436). Marks: DEDUCED, log 59. -/
def Chip.holdLanes (c : Chip) : Chip :=
  c.each ports fun p c => c.each lanes fun l c =>
    c.when (c.laneHeld p l && c.get (laneState p l) != laneOff) fun c => (c.put (laneState p l) laneFailed).put (laneRxLock p l) 0

/-- BIST passes: a BIST_FAIL of a start before a warm reset has ended (R444). -/
def Chip.bistPassed (c : Chip) : Chip :=
  c.clearAbout 0x04 fun e => e.unit == 0xFF

/-- BIST_COMPLETE: the March test has written every word, so that none is poisoned any more. Marks: DEDUCED, log 59. -/
def Chip.bistDone (r : BistResult) (c : Chip) : Chip :=
  let c := { c with rst := { c.rst with bist := false } }.rewritten fun _ => true
  let (excess, c) := (c.put F.REL_BIST_STATUS 0).bistWords (r.words.map fun w => scrubLoc w.val)
  let bad := (r.unrepairable.map fun w => scrubLoc w.val).toList ++ excess
  let c := (c.put F.REL_STATUS_BIST_DONE 1).put F.REL_BIST_STATUS_MEM_OK bad.isEmpty.toNat
  let c := (c.put F.REL_BIST_STATUS_ECC_OK r.eccOk.toNat).put F.REL_BIST_STATUS_LOGIC_OK r.logicOk.toNat
  let c := (c.put F.REL_BIST_STATUS_LANE_OK r.lanes.toNat).holdLanes
  if bad.isEmpty && r.eccOk && r.logicOk then c.bistPassed
  else c.bistFailed (bistPlace r bad) (!r.logicOk || bad.any fun w => locTile w == 6)

def execBistComplete (result : BistResult) (s : State) : Host.Outcome State Fault Refusal :=
  s.onChip fun c => c.when (c.running && c.rst.bist) (Chip.bistDone result)

/-! Scrubbing and functional accesses (R429 to R432, Table 14-1). -/

/-- A table entry whose data is lost (tile 7): it counts as never written, and the Lockkeeper rewrites it from the image; in HOLD it
stays so until it is written again. Marks: DEDUCED, log 59. -/
def Chip.tableLost (off : Nat) (loc : Word) (c : Chip) : Chip :=
  let entry := tableEntry off
  let hold := c.get F.LKP_STATUS_STATE == 3
  let given := fun (o : Nat) => if hold then 0#32 else ((c.cfg.given.find? fun x => x.1 == o).map Prod.snd).getD 0#32
  match entry with
  | [] => c
  | first :: _ =>
    let c := { c with regs := entry.foldl (fun r o => r.setWord o (given o)) c.regs }
    if hold then { c with cfg := { c.cfg with lost := (first, loc) :: c.cfg.lost.filter fun x => x.1 != first } }
    else (c.flag F.REL_INT_STATUS_TABLE_LOST).unpoison loc

/-- A word of the staging memory is lost: a read of it completes POISONED until it is written again.
Marks: DEDUCED, log 59. -/
def Chip.stageLost (w : Nat) (loc : Word) (c : Chip) : Chip :=
  c.modWin fun x => { x with
    stage := memWrite x.stage (16 * w) (List.replicate 16 0#8), poisoned := (w, loc) :: x.poisoned.filter fun y => y.1 != w }

/-- A message in an adapter's buffers is lost: the oldest received, or else what waits to be sent first. The chapters name a
counter for P3, P4, P5 and P7. Marks: DEDUCED, log 59. -/
def Chip.messageLost (port : Nat) (c : Chip) : Chip :=
  let inbox := c.swc.inbox.toList.getD port []
  let offers := c.swc.offers.toList.getD port []
  let c := if inbox.isEmpty then
      c.modSwc fun w => { w with offers := w.offers.setIfInBounds port ((offers.dropWhile fun o => !o.last).drop 1) }
    else c.modSwc fun w => { w with inbox := w.inbox.setIfInBounds port (inbox.drop 1) }
  if inbox.isEmpty && offers.isEmpty then c
  else
    match port with
    | 3 => (c.inc F.USB_XERR).flag F.USB_INT_STATUS_XERR
    | 7 => (c.inc F.FLD_REC_DROP).flag F.FLD_INT_STATUS_REC_DROP
    | _ => c.countBroken port

/-- What the owner of a word does when its data is lost (Table 14-1). -/
def Chip.ownerActs (loc : Word) (owner : LostOwner) (c : Chip) : Chip :=
  if locTile loc == 6 then c.lkFails .ecc
  else
    match owner with
    | .nobody => c
    | .barge sid =>
      match c.swc.stored sid with
      | some x => if locTile loc ≤ 5 then c.loseBarge x loc else c
      | none => c
    | .table off => if locTile loc == 7 then c.tableLost (off.toNat / 4 * 4) loc else c
    | .replay p =>
      c.when (locTile loc == 8 && c.on (F.TRK_STATUS_LINK_UP p)) fun c => (c.flag (F.LNK_INT_STATUS_REPLAY_FAIL p)).linkLost p
    | .message port => c.when (locTile loc == 8) fun c => c.messageLost port.val
    | .stage a => c.when (locTile loc == 8) fun c => c.stageLost (a % stageSize / 16) loc

/-- What a checked read of a word finds, and what its owner then does where the data is lost (R430, R431). -/
def Chip.checkedRead (loc : Word) (found : ScrubFind) (owner : LostOwner) (c : Chip) : Chip :=
  match found with
  | .clean => c
  | .corrected cell permanent =>
    c.eccCorrectable (match cell with | some b => BitVec.ofNat 32 (loc.toNat + 2 ^ 29 + b.val) | none => loc) permanent
  | .retried => c.eccRetried
  | .lost => (c.eccLost loc).ownerActs loc owner

/-- A functional access passes the checker as every read does, and a write ends poison (R429, R431). -/
def Chip.accessed (a : MemAccess) (c : Chip) : Chip :=
  match a with
  | .read w found owner => c.checkedRead (scrubLoc w.val) found owner
  | .write w => c.unpoison (scrubLoc w.val)

/-- SCRUB_READ (R432): the next word is read and checked. -/
def Chip.scrub (found : ScrubFind) (owner : LostOwner) (c : Chip) : Chip :=
  let pos := c.get F.REL_SCRUB_POS_WORD
  let c := c.checkedRead (scrubLoc pos) found owner
  if pos = 471_039 then ((c.put F.REL_SCRUB_POS_WORD 0).inc F.REL_SCRUB_PASSES).flag F.REL_INT_STATUS_SCRUB_PASS
  else c.put F.REL_SCRUB_POS_WORD (pos + 1)

/-- The scrubber runs while its tile is clocked (15 Table 15-1): the basins, tables and buffers with DP, tile 6 with LK. -/
def Chip.scrubs (c : Chip) : Bool :=
  let (t, _) := macroAt scrubTiles (c.get F.REL_SCRUB_POS_WORD / 4096)
  c.started && c.on F.REL_CTL_SCRUB_EN && (if t = 6 then !c.lkp.gated else c.dpOn)

/-- SCRUB_READ. Its `accesses` are the functional accesses since the scrubber's last read that found or ended an error and that no other
command shows: those of the Lockkeeper, of lookups and of the adapters. They are checked whether or not the scrubber runs (R429).
Marks: DESIGN CHOICE, log 59. -/
def execScrubRead (reads : CheckedReads) (owner : LostOwner) (s : State) : Host.Outcome State Fault Refusal :=
  s.onChip fun c =>
    let c := c.when c.started fun c => c.each reads.accesses Chip.accessed
    c.when c.scrubs (Chip.scrub reads.found owner)

end Sys2Proof.Machine
end

