-- ==== Sys2Proof/Machine/Readback.lean ====
section
/-! DEFINITION. What a register read returns (16 R485): the stored word, and the words that other state shows. Reads with a
side effect: the latches of 04 R155 and R163, 11 R372, 12 R376 and 16 R493. -/

namespace Sys2Proof.Machine

/-- The low 32 bits of a number. -/
def word32 (n : Nat) : Word := BitVec.ofNat 32 n

/-! The bits of a word by access code, with the rows that differ within a family (00 Table 00-3). -/

/-- Counter `n` at its word, of the performance counters (16 CNT registers). -/
def counterAt (off : Nat) : Option (Nat × Nat) := memberAt 0x13_1000 0x20 96 off

/-- Is the word one of a fixed counter, 88 to 95, whose selection and value are RO (16 R494)? -/
def fixedCounter (off : Nat) : Bool :=
  match counterAt off with
  | some (n, _) => decide (88 ≤ n)
  | none => false

/-- The bits a write stores: RW and IMG. -/
def RegEntry.storedBits (e : RegEntry) (off : Nat) : Word :=
  if fixedCounter off then (if off % 0x20 = 0 then 0x0800_0000#32 else 0#32) else word32 e.rw

/-- RO bits. -/
def RegEntry.roBits (e : RegEntry) (off : Nat) : Word :=
  if fixedCounter off then word32 (e.rw ||| e.ro) &&& ~~~(e.storedBits off) else word32 e.ro

/-- RES bits: no other code. -/
def RegEntry.resBits (e : RegEntry) (off : Nat) : Word :=
  ~~~(e.storedBits off ||| e.roBits off ||| word32 e.w1c ||| word32 e.w1s ||| word32 e.sc)

/-! Words that other state shows. -/

/-- TRK_COEF_DATA: the tap that TRK_COEF_SEL names; STEP 0 is the live set (02 R50). -/
def Chip.coefWord (c : Chip) (p : Port) : Word :=
  let set_ := ((c.trk[p].coefs.getD (c.get (F.TRK_COEF_SEL_LANE p)) []).getD (c.get (F.TRK_COEF_SEL_STEP p)) [])
  (set_.getD (c.get (F.TRK_COEF_SEL_TAP p)) 0#16).setWidth 32

/-- TRK_MOOR_STATUS: COEF_AGE counts minutes since the coefficients were stored, saturating (02 R73). -/
def Chip.moorWord (c : Chip) (p : Port) : Word :=
  let w := c.regs.word (F.TRK_MOOR_STATUS p).off
  match c.trk[p].coefAt with
  | some t =>
    let age := c.now - t
    let valid := (wordField w 0 1 == 1) && decide (age < 600 * second)
    wordWithField (wordWithField w 0 1 valid.toNat) 8 8 (min 255 (age / (60 * second)))
  | none => w

/-- Descriptors of the queue that SWC_VOQ_SEL names (05). -/
def Chip.selectedVoq (c : Chip) : List Desc :=
  c.swc.voqs.filter fun d => d.inPort == c.get F.SWC_VOQ_SEL_IN_PORT && d.outPort == c.get F.SWC_VOQ_SEL_OUT_PORT && d.queue == c.get F.SWC_VOQ_SEL_QUEUE

/-- SWC_VOQ_DATA. -/
def Chip.voqDataWord (c : Chip) : Word :=
  let l := c.selectedVoq
  let cells := (l.map fun d => ((c.swc.stored d.sid).map fun x => x.cells).getD 0).foldl (· + ·) 0
  word32 (cells % 2 ^ 15 + l.length % 2 ^ 15 * 2 ^ 16)

/-- SWC_VOQ_AGE: the head's age in µs, saturating, and the RED average in cells. -/
def Chip.voqAgeWord (c : Chip) : Word :=
  let age := match c.selectedVoq with
    | d :: _ => min 65535 ((timeDiff ((c.fabricTime : Int) - (d.frame * 1_000_000 + d.subns : Nat))).toNat / 1000)
    | [] => 0
  let avg := ((c.swc.avg.find? fun x => x.1 == (c.get F.SWC_VOQ_SEL_OUT_PORT, c.get F.SWC_VOQ_SEL_QUEUE)).map Prod.snd).getD 0 / 256
  word32 (age + min avg 32767 * 2 ^ 16)

/-- SCH_Pp_BULK: CAP3 of the row in force on P0 to P2, 64 elsewhere, and whether the bulk shaper's credit is below zero now
(06 R201). Marks: DEDUCED, log 41. -/
def Chip.bulkWord (c : Chip) (e : Nat) : Word :=
  let held := decide (e ≤ 2) && decide (resolved (c.bulkCredit e) < 0)
  wordWithField (wordWithField (c.regs.word (F.SCH_P_BULK e).off) 0 7 (if e ≤ 2 then c.rowCap3 else 64)) 7 1 held.toNat

/-- Weir state: Tc or Tp in bytes (06 R203). -/
def Chip.weirStateWord (c : Chip) (n : Nat) (second_ : Bool) : Word :=
  let t := if second_ then (c.weirTokens n).2 else (c.weirTokens n).1
  word32 ((t / creditUnit).toNat % 2 ^ 23)

/-- KEY_SLOT metadata (13 R407). -/
def Chip.slotWord (c : Chip) (n : Nat) : Word :=
  let x := c.key.slot n
  word32 (x.valid.toNat + x.active.toNat * 2 + x.engines % 64 * 4 + x.origin % 8 * 2 ^ 8 + x.bindMeas.toNat * 2 ^ 11 + x.version % 65536 * 2 ^ 16)

/-- KEY_SLOT_KCV (13 R407). -/
def Chip.slotKcv (c : Chip) (n : Nat) : Word :=
  let x := c.key.slot n
  if x.valid then keyCheck x.key else 0#32

/-- KEY_Px_STATUS: the seconds of back-off left, rounded up (13 R418). -/
def Chip.admitWord (c : Chip) (p : Port) : Word :=
  let a := c.key.adm[p]
  wordWithField (c.regs.word (F.KEY_P_STATUS p).off) 8 8
    (if a.phase = .backoff then min 255 ((a.until_ - c.now + second - 1) / second) else 0)

/-- A performance counter; one that is not listed is off and zero. -/
def Chip.counter (c : Chip) (n : Nat) : Counter :=
  ((c.cnt.counters.find? fun x => x.1 == n).map Prod.snd).getD { sel := 0, value := 0, snap := 0, reload := 0 }

/-- Does a selection name neither a counter register nor an RO or W1C bit (16 R492)? -/
def Counter.invalid (x : Counter) : Bool :=
  let (off, b) := x.place
  match regAt off with
  | none => true
  | some e => !(e.counter || e.ro.testBit b || e.w1c.testBit b)

/-- The words of a performance counter. The selections of 88 to 95 are fixed, and their reload values read 0. -/
def Chip.counterWord (c : Chip) (n w : Nat) : Word :=
  let x := c.counter n
  let reload := if 88 ≤ n then 0 else x.reload
  match w with
  | 0 => if 88 ≤ n then x.sel &&& 0x0800_0000#32 else x.sel ||| word32 (x.invalid.toNat * 2 ^ 28)
  | 1 => word32 x.value
  | 2 => c.regs.word (F.CNT_VAL_HI n).off
  | 3 => word32 x.snap
  | 4 => word32 (x.snap / 2 ^ 32)
  | 5 => word32 reload
  | 6 => word32 (reload / 2 ^ 32)
  | _ => 0#32

/-- CNT_OVF_STATUS, counters 32m to 32m + 31. -/
def Chip.overflowWord (c : Chip) (m : Nat) : Word :=
  word32 ((c.cnt.ovf.filter fun n => n / 32 == m).foldl (fun a n => a ||| 2 ^ (n % 32)) 0)

/-- SEQ that the next journal entry takes (16 R486). -/
def Chip.journalSeq (c : Chip) : Nat :=
  match c.jrn with
  | e :: _ => (e.seq + 1) % 2 ^ 32
  | [] => 0

/-- The words of journal place `n`: the entry whose SEQ is `n` modulo 512. Marks: DEDUCED, log 22. -/
def Chip.journalWord (c : Chip) (n w : Nat) : Word :=
  match c.jrn.find? fun e => e.seq % 512 == n with
  | none => 0#32
  | some e =>
    match w with
    | 0 => word32 e.seq
    | 1 => word32 e.frame
    | 2 => word32 (e.subns % 2 ^ 20 + e.source % 8 * 2 ^ 20 + e.result % 8 * 2 ^ 23 + e.attested.toNat * 2 ^ 26)
    | 3 => word32 ((e.hub.getD 0).toNat + e.hub.isSome.toNat * 2 ^ 10 + e.tag.toNat * 2 ^ 16)
    | 4 => word32 (e.addr % 2 ^ 24)
    | 5 => e.data
    | 6 => e.old
    | _ => e.new

/-- The words of alarm log entry `n` (14 ALM registers). -/
def Chip.alarmWord (c : Chip) (n w : Nat) : Word :=
  match alarmAt c.alm.log n with
  | none => 0#32
  | some e =>
    if w < 8 then word32 (fieldAt e.payload (4 * w) 4)
    else word32 (1 + e.sent.toNat * 2 + e.pending.toNat * 4 + e.received.toNat * 8 + e.localOnly.toNat * 16 + e.cancelled.toNat * 32
      + min e.merged 65535 * 2 ^ 16)

/-- Registers that the strapped role lacks: on a field hub the port map and virtual ports (07 R229), the BAR windows, the
host-memory window and the DMA rings; at a head-end root port control, DEV_MSI, inbound windows and the staging ring (08). They read
zero, and writes to them are ignored. Marks: DEDUCED, log 11. -/
def Chip.absent (c : Chip) (off : Nat) : Bool :=
  let within := fun lo hi => decide (lo ≤ off ∧ off < hi)
  if c.headEnd then within 0x0A_0044 0x0A_0050 || within 0x0A_0058 0x0A_0060 || within 0x0A_0140 0x0A_0180
  else within 0x09_1000 0x09_3000 || within 0x0A_0038 0x0A_0044 || within 0x0A_0100 0x0A_0140 || within 0x0A_0800 0x0A_1000

/-- VID_STATUS: what runs while it is enabled, and the output's lock as it is now (09 R298). Marks: DEDUCED, log 47. -/
def Chip.videoWord (c : Chip) : Word :=
  let run := c.on F.VID_STATUS_DSI_RUN && c.on F.VID_CTL_DSI_EN
  word32 ((c.on F.VID_STATUS_CSI_CLK && c.on F.VID_CTL_CSI_EN).toNat + run.toNat * 2
    + (run && c.on F.VID_DSI_CFG_LOCK_EN && c.on F.FAB_TIME_STATUS_LOCKED).toNat * 4)

/-- The words of the FAB, SWC and SCH blocks that other state shows. -/
def Chip.fabricWord (c : Chip) (off : Nat) : Word :=
  if off = (F.FAB_GROUP 255).off then c.group255
  else if off = F.FAB_INRUSH.off then wordWithField (c.regs.word off) 8 6 c.inrushSlot
  else if off = F.SWC_VOQ_DATA.off then c.voqDataWord
  else if off = F.SWC_VOQ_AGE.off then c.voqAgeWord
  else if off = F.VID_STATUS.off then c.videoWord
  else if off = F.WIN_STATUS.off ∧ !c.headEnd then wordWithField (c.regs.word off) 7 1 (c.get F.WIN_RP_CTL_PERST)
  else if off = F.CFG_JRN_SEQ.off then word32 c.journalSeq
  else if off = F.CFG_JRN_COUNT.off then word32 c.jrn.length
  else
    match memberAt 0x07_C000 8 512 off, memberAt 0x07_0100 0x40 10 off with
    | some (n, r), _ => if r < 4 then c.weirStateWord n false else c.weirStateWord n true
    | none, some (e, r) =>
      if r = 8 then c.bulkWord e else if r = 0x1C then wordWithField (c.regs.word off) 0 8 (c.gateOpen e) else c.regs.word off
    | none, none =>
      if F.SCH_Q_TAG_LO.off ≤ off ∧ off ≤ F.SCH_P_BULK_CREDIT.off then ((c.sch.snap.find? fun x => x.1 == off).map Prod.snd).getD 0#32
      else c.regs.word off

/-- The words of the remaining blocks of the core die that other state shows. Marks: DEDUCED, log 22. -/
def Chip.shownWord (c : Chip) (off : Nat) : Word :=
  match memberAt 0x02_0000 0x4000 3 off, memberAt 0x0C_4000 0x10 1024 off, memberAt 0x0D_4000 8 1024 off with
  | some (p, r), _, _ =>
    if r = 0x68 then c.coefWord (Fin.ofNat 3 p) else if r = 0x2C then c.moorWord (Fin.ofNat 3 p) else c.regs.word off
  | none, some (i, r), _ => if r = 8 then wordWithField (c.regs.word off) 10 16 (c.ageLeft i) else c.regs.word off
  | none, none, some (i, r) => if r = 4 then wordWithField (c.regs.word off) 19 13 (c.sigAge i) else c.regs.word off
  | none, none, none =>
    match memberAt 0x10_0300 0x10 3 off, memberAt 0x10_0400 8 32 off, memberAt 0x13_0010 4 3 off, counterAt off with
    | some (p, r), _, _, _ => if r = 0 then c.admitWord (Fin.ofNat 3 p) else c.regs.word off
    | none, some (n, r), _, _ => if r = 0 then c.slotWord n else c.slotKcv n
    | none, none, some (m, _), _ => c.overflowWord m
    | none, none, none, some (n, r) => c.counterWord n (r / 4)
    | none, none, none, none =>
      match memberAt 0x14_8000 0x20 512 off, memberAt 0x15_1000 0x40 256 off with
      | some (n, r), _ => c.journalWord n (r / 4)
      | none, some (n, r) => c.alarmWord n (r / 4)
      | none, none => if 0x14_1000 ≤ off ∧ off < 0x14_2000 then 0#32 else c.fabricWord off

/-- The words of the HV die: energies show in µJ, their high words as last latched. -/
def Hv.shownWord (v : Hv) (off : Nat) : Word :=
  match memberAt 0x0E_0100 0x80 3 off, memberAt 0x0F_0100 0x80 4 off with
  | some (p, r), _ =>
    let s := (v.tpw[Fin.ofNat 3 p]).sw
    if r = 0x30 then word32 (microJoule s.eOut) else if r = 0x38 then word32 (microJoule s.eIn) else v.regs.word off
  | none, some (y, r) => if r = 0x2C then word32 (microJoule (v.ldc[Fin.ofNat 4 y]).sw.eOut) else v.regs.word off
  | none, none => v.regs.word off

/-- The word that a register reads as now (R485): a reserved offset, an SC or W1S field and a RES field read zero.
Marks: DEDUCED, log 22. -/
def Hub.readWord (h : Hub) (off : Nat) : Word :=
  match regAt off with
  | none => 0#32
  | some e =>
    if h.chip.absent off then 0#32
    else
      let w :=
        if inHvDie off then h.hv.shownWord off
        else if off = F.GLB_INT_SUMMARY.off then word32 h.intSummary
        else if off = F.PWR_STATUS.off then word32 (h.powerState + h.domOn * 4)
        else if off = F.PWR_VOTE_HW.off then word32 h.hwVotes
        else h.chip.shownWord off
      w &&& ~~~(word32 (e.sc ||| e.w1s))

/-! Reads of the access path. -/

/-- May a requester read the values of counters 88 to 95 (R494)? -/
def mayReadPrivileged (req : Requester) : Bool := req.source == 0 || req.attested

/-- Is the word a value or snapshot of a privileged counter? -/
def privilegedWord (off : Nat) : Bool := fixedCounter off && decide (4 ≤ off % 0x20)

/-- Is the snapshot of an entry one that a requester took? -/
def TunnelSnap.of (x : TunnelSnap) (req : Requester) (t : Nat) : Bool := x.source == req.source && x.hub == req.hub && x.entry == t

/-- What a read leaves latched. -/
def Hub.readLatch (req : Requester) (off : Nat) (h : Hub) : Hub :=
  let high := fun (e : Nat) => microJoule e / 2 ^ 32
  if off = F.FAB_FRAME.off then h.onChip fun c => c.put F.FAB_SUBNS_SUBNS c.subns
  else
    match memberAt 0x04_C000 8 4096 off, counterAt off, memberAt 0x0E_0100 0x80 3 off, memberAt 0x0F_0100 0x80 4 off with
    | some (t, r), _, _, _ =>
      h.when (r == 0) fun h => h.onChip fun c =>
        let x : TunnelSnap := { source := req.source, hub := req.hub, entry := t, word := c.regs.word (off + 4), time := c.now }
        c.modFab fun f => { f with tstate := x :: f.tstate.filter fun y => !y.of req t && decide (c.now ≤ y.time + 1000) }
    | none, some (n, r), _, _ =>
      if r = 4 then h.onChip fun c => c.put (F.CNT_VAL_HI_V n) ((c.counter n).value / 2 ^ 32) else h
    | none, none, some (p, r), _ =>
      let s := (h.hv.tpw[Fin.ofNat 3 p]).sw
      if r = 0x30 then h.onHv fun v => v.put (F.TPW_P_E_OUT_HI_E p) (high s.eOut)
      else if r = 0x38 then h.onHv fun v => v.put (F.TPW_P_E_IN_HI_E p) (high s.eIn)
      else h
    | none, none, none, some (y, r) =>
      if r = 0x2C then h.onHv fun v => v.put (F.LDC_L_E_HI_E y) (high (v.ldc[Fin.ofNat 4 y]).sw.eOut) else h
    | none, none, none, none => h

/-- The second word of a tunnel state entry, read within 1 µs of its first by the same requester: the snapshot (04 R163). -/
def Chip.tunnelSnapshot (c : Chip) (req : Requester) (off : Nat) : Option Word :=
  match memberAt 0x04_C000 8 4096 off with
  | some (t, 4) => (c.fab.tstate.find? fun x => x.of req t && decide (c.now ≤ x.time + 1000)).map (·.word)
  | _ => none

/-- A read by a requester. -/
def Hub.pathRead (req : Requester) (off : Nat) (h : Hub) : Word × Hub :=
  if privilegedWord off && !mayReadPrivileged req then (0#32, h)
  else ((h.chip.tunnelSnapshot req off).getD (h.readWord off), h.readLatch req off)

end Sys2Proof.Machine
end

