-- ==== Sys2Proof/Machine/Shift.lean ====
section
/-! DEFINITION. Hitless rate shifting (02 R52 to R65, R78): the margin governor's proposals and the shift engine. -/

namespace Sys2Proof.Machine

/-! Proposals (R52 to R55, R65). -/

/-- Is an up-shift hold-off running against a step (R53)? -/
def Chip.heldOff (c : Chip) (p : Port) (step : Nat) : Bool := c.trk[p].holdoffs.any fun h => h.step == step && decide (c.now < h.until_)

/-- The conditions of the first row of Table 02-7 for one step up, as far as the state shows them. -/
def Chip.upAllowed (c : Chip) (p : Port) : Bool :=
  let next := c.get (F.TRK_STATUS_STEP p) + 1
  c.on (F.TRK_CTL_AUTO_UP p) && !c.on (F.TRK_STATUS_WET p) && !c.heldOff p next
    && decide (next ≤ c.stepCap p) && decide (c.portPredicted p next ≥ (c.get (F.TRK_GOV_CFG_UP_MARGIN p) : Int))

/-- PROPOSE_UP_SHIFT (R52 first row). -/
def execProposeUpShift (p : Port) (s : State) : Host.Outcome State Fault Refusal :=
  s.onChip fun c => c.when (c.upAllowed p) fun c => c.propose p (c.get (F.TRK_STATUS_STEP p) + 1) 2

/-- The highest lower step whose predicted margin is at least ACCEPT_MARGIN, or S1 (R52). -/
def Chip.downTarget (c : Chip) (p : Port) : Nat :=
  let step := c.get (F.TRK_STATUS_STEP p)
  let acc : Int := c.get (F.TRK_GOV_CFG_ACCEPT_MARGIN p)
  ((List.range (step - 1)).reverse.map (· + 1)).find? (fun k => decide (c.portPredicted p k ≥ acc)) |>.getD 1

/-- A quality-driven down shift takes precedence over a budget-caused one (R54): one of the port's own proposals that no
marker carries yet gives way. It ends the climb of bring-up (R46). Marks: DEDUCED, log 31. -/
def Chip.proposeQuality (c : Chip) (p : Port) (target cause : Nat) : Chip :=
  let c := match c.trk[p].own with
    | some o => if o.phase == ProposalPhase.decided && o.cause == 6 then c.modTrk p fun t => { t with own := none } else c
    | none => c
  let c := c.when (c.get (F.TRK_STATUS_PHASE p) == phaseClimb) fun c => c.put (F.TRK_STATUS_PHASE p) phaseRunning
  c.propose p target cause

/-- PROPOSE_DOWN_MARGIN (R51, R52 second row): the SNR of each lane, averaged over 1 ms, gives the margins shown, and when the worse
live lane's is below DOWN_MARGIN the governor proposes a down shift. -/
def execProposeDownMargin (p : Port) (snrA snrB : Int) (s : State) : Host.Outcome State Fault Refusal :=
  s.onChip fun c => c.when (c.on (F.TRK_STATUS_LINK_UP p)) fun c =>
    let c := (c.modTrk p fun t => { t with snrNow := #v[some snrA, some snrB] }).showPort p
    let step := c.get (F.TRK_STATUS_STEP p)
    let low := fun (l : LaneId) (snr : Int) => c.laneLive p l && decide (snr - c.snrReq p step < (c.get (F.TRK_GOV_CFG_DOWN_MARGIN p) : Int))
    c.when ((low 0 snrA || low 1 snrB) && c.on (F.TRK_CTL_AUTO_DOWN p)) fun c => c.proposeQuality p (c.downTarget p) 3

/-- Does a corrected-symbol rate exceed 10^−CSR_EXP (R52)? -/
def Chip.csrHigh (c : Chip) (p : Port) (corrected total : Nat) : Bool := decide (total < corrected * 10 ^ c.get (F.TRK_GOV_CFG_CSR_EXP p))

/-- PROPOSE_DOWN_CSR (R52 third row, R55): the symbols that a live lane has received in CSR_WINDOW and those corrected. -/
def execProposeDownCsr (p : Port) (lane : LaneId) (corrected total : Nat) (s : State) : Host.Outcome State Fault Refusal :=
  s.onChip fun c => c.when (c.laneLive p lane && c.csrHigh p corrected total && c.on (F.TRK_CTL_AUTO_DOWN p)) fun c =>
    c.proposeQuality p (c.downTarget p) 4

/-- UNC_BURST or more uncorrectable codewords within 1,000 of a lane (R52); 0 disables burst shifts. -/
def Chip.burstSeen (c : Chip) (p : Port) (lane : LaneId) : Bool :=
  c.get (F.TRK_GOV_CFG_UNC_BURST p) != 0 && decide (c.get (F.TRK_GOV_CFG_UNC_BURST p) ≤ c.pcs[p].lane[lane].bad.length)

/-- PROPOSE_DOWN_BURST (R52 fourth row, Table 02-9): one step down is proposed, and with the other lane good the lane
fails. The count of uncorrectable codewords begins anew. Marks: DEDUCED, log 30. -/
def execProposeDownBurst (p : Port) (lane : LaneId) (s : State) : Host.Outcome State Fault Refusal :=
  s.onChip fun c => c.when (c.laneLive p lane && c.burstSeen p lane) fun c =>
    let c := (c.flag (F.TRK_INT_STATUS_UNC_BURST p)).modLane p lane fun y => { y with bad := [] }
    let c := c.when (1 < c.get (F.TRK_STATUS_STEP p)) fun c => c.proposeQuality p (c.get (F.TRK_STATUS_STEP p) - 1) 5
    c.when (c.laneLive p (otherLane lane) && c.singlePermitted p) fun c => c.laneFail p lane

/-- TRK_STATUS.HOLDOFF: an up-shift hold-off runs (R53). -/
def Chip.showHoldoff (p : Port) (c : Chip) : Chip :=
  c.put (F.TRK_STATUS_HOLDOFF p) (c.trk[p].holdoffs.any fun h => decide (c.now < h.until_)).toNat

/-- HOLDOFF_EXPIRY (R53): the hold-off after a down shift from a step has ended; 10 min after the last such shift its doublings are
forgotten. -/
def execHoldoffExpiry (p : Port) (fromStep : BitVec 3) (s : State) : Host.Outcome State Fault Refusal :=
  s.onChip fun c =>
    (c.modTrk p fun t => { t with holdoffs := t.holdoffs.filter fun h =>
      h.step != fromStep.toNat || decide (c.now < h.until_) || decide (c.now < h.last + 600 * second) }).showHoldoff p

/-- A command shift (R65): a target outside the hub's own caps, or an up shift that R58 forbids it, completes at once with
REFUSED_LOCAL; the partner's cap is the partner's to refuse by. A shift that the budget cap requires is budget-caused and waits for the
500 ms of R54. Marks: DEDUCED, log 31; DESIGN CHOICE, log 77. -/
def Chip.commandShift (p : Port) (target : Nat) (c : Chip) : Chip :=
  let step := c.get (F.TRK_STATUS_STEP p)
  let own := min (c.get (F.TRK_CTL_STEP_MAX p)) (c.get (F.TRK_STATUS_CAP_BUDGET p))
  let ruled := decide (step < target) && c.on (F.TRK_STATUS_LINK_UP p) && (c.upRefused p target).isSome
  if target < 1 || own < target || target < c.get (F.TRK_CTL_STEP_MIN p) || ruled then c.refusedLocal p target
  else if c.get (F.TRK_STATUS_CAP_BUDGET p) < step then
    if c.budgetDue p then c.propose p target 6
    else c.when (c.on (F.TRK_STATUS_LINK_UP p) && c.shiftIdle p) fun c => c.modTrk p fun t => { t with cmdTarget := some target }
  else c.propose p target 1

/-- SHIFT_CMD_GO (R65). -/
def Chip.shiftCmd (p : Port) (target : Nat) (c : Chip) : Chip := (c.put (F.TRK_SHIFT_CMD_TARGET p) target).commandShift p target

/-- STEP_LIMIT_WRITE (R78): a value of 0, 6 or 7 is ignored; a new limit that excludes the current step makes the hub propose the
shift, at once or when the shift under way has ended. A STEP_MIN that stays as it was brings the port up by the rules of up shifts alone
(R45). Marks: DEDUCED, log 70. -/
def Chip.stepLimits (p : Port) (mx mn : Nat) (c : Chip) : Chip :=
  let ok := fun v => decide (1 ≤ v ∧ v ≤ 5)
  let raised := ok mn && c.get (F.TRK_CTL_STEP_MIN p) != mn && decide (c.get (F.TRK_STATUS_STEP p) < mn)
  let c := c.when (ok mx) fun c => c.put (F.TRK_CTL_STEP_MAX p) mx
  let c := c.when (ok mn) fun c => c.put (F.TRK_CTL_STEP_MIN p) mn
  c.when (c.on (F.TRK_STATUS_LINK_UP p)) fun c => (c.modTrk p fun t => { t with limitDue := t.limitDue || raised }).enforceLimits p

/-- PROPOSE_BUDGET_SHIFT (R45, R52, R54, R65): down to the caps when they are below the step; a command shift that waited for the 500 ms of
R54 is judged anew. A raised cap proposes nothing of itself: it allows PROPOSE_UP_SHIFT, which ends UP_DWELL (Table 02-7). -/
def execProposeBudgetShift (p : Port) (s : State) : Host.Outcome State Fault Refusal :=
  s.onChip fun c => c.when (c.on (F.TRK_STATUS_LINK_UP p)) fun c =>
    match c.trk[p].cmdTarget with
    | some target => c.when (c.budgetDue p && c.shiftIdle p) fun c => (c.modTrk p fun t => { t with cmdTarget := none }).commandShift p target
    | none => c.enforceLimits p

/-! The engine (R57 to R64). -/

/-- Records the outcome of a shift in TRK_SHIFT_STATUS. -/
def Chip.shiftResult (c : Chip) (p : Port) (start target cause result reason : Nat) : Chip :=
  let c := (c.put (F.TRK_SHIFT_STATUS_LAST_FROM p) start).put (F.TRK_SHIFT_STATUS_LAST_TO p) target
  let c := (c.put (F.TRK_SHIFT_STATUS_LAST_CAUSE p) cause).put (F.TRK_SHIFT_STATUS_LAST_RESULT p) result
  c.put (F.TRK_SHIFT_STATUS_NAK_REASON p) reason

/-- Is a shift a quality-driven down shift (R53, R59)? -/
def qualityDown (o : Proposal) : Bool := decide (o.target < o.start) && (o.cause == 3 || o.cause == 4 || o.cause == 5)

/-- The proposer's shift ends refused, unanswered or withdrawn; a quality-driven down shift that fails three times in
succession drops the link (R59), and the bring-up climb stops at the first step that fails (R46). Marks: DEDUCED, log 31. -/
def Chip.proposalFailed (p : Port) (o : Proposal) (result reason : Nat) (keepCancel : Bool) (c : Chip) : Chip :=
  let c := (c.shiftResult p o.start o.target o.cause result reason).flag (F.TRK_INT_STATUS_SHIFT_FAIL p)
  let c := c.modTrk p fun t => { t with own := if keepCancel then some { o with phase := .cancelling } else none }
  let c := c.when (o.cause == 8 && result != 3) fun c => c.put (F.TRK_STATUS_PHASE p) phaseRunning
  if qualityDown o then
    let n := c.trk[p].downFails + 1
    let c := c.modTrk p fun t => { t with downFails := n }
    if 3 ≤ n then c.linkLost p else c.enforceLimits p
  else c.enforceLimits p

/-- A hold-off starts after a quality-driven down shift (R53): HOLDOFF seconds, doubled each time when the last was within 10 min. -/
def Chip.startHoldoff (p : Port) (step : Nat) (c : Chip) : Chip :=
  let mx := c.get (F.TRK_GOV_TIME_HOLDOFF_MAX_EXP p)
  let e := match c.trk[p].holdoffs.find? fun h => h.step == step with
    | some h => if c.now ≤ h.last + 600 * second then min (h.exp + 1) mx else 0
    | none => 0
  let ends := c.now + c.get (F.TRK_GOV_TIME_HOLDOFF p) * 2 ^ e * second
  (c.modTrk p fun t => { t with
    holdoffs := (t.holdoffs.filter fun h => h.step != step) ++ [{ step := step, exp := e, last := c.now, until_ := ends }] }).showHoldoff p

/-- A shift that both directions have switched is done, or has failed on a lane (R57 step 6, R64). -/
def Chip.shiftCheckDone (p : Port) (c : Chip) : Chip :=
  let ended := fun (failed : Bool) (start target cause : Nat) (c : Chip) =>
    let c := c.put (F.TRK_STATUS_SHIFT_PENDING p) 0
    if failed then c else (c.flag (F.TRK_INT_STATUS_SHIFT_DONE p)).shiftResult p start target cause 0 0
  match c.trk[p].own.filter (fun o => o.txDone && o.rxDone), c.trk[p].resp.filter (fun a => a.txDone && a.rxDone) with
  | some o, _ =>
    let c := ended o.failed o.start o.target o.cause (c.modTrk p fun t => { t with own := none, downFails := 0 })
    (c.when (qualityDown o) (Chip.startHoldoff p o.start)).enforceLimits p
  | none, some a => (ended a.failed a.start a.target 7 (c.modTrk p fun t => { t with resp := none })).enforceLimits p
  | none, none => c

/-- Why the responder refuses a shift to a step (R58), if it does: 1 CAP, 2 MARGIN, 3 RATE, 4 BUSY; of several reasons BUSY goes first,
then CAP, MARGIN and RATE. Marks: DEDUCED, log 31. -/
def Chip.refusal (c : Chip) (p : Port) (target : Nat) : Option Nat :=
  let up := decide (c.get (F.TRK_STATUS_STEP p) < target)
  let busy := (match c.trk[p].resp with | some a => a.committed | none => false)
    || (match c.trk[p].own with | some o => o.phase == .committed | none => false)
  if busy then some 4
  else if c.stepCap p < target || (up && target < c.get (F.TRK_CTL_STEP_MIN p)) then some 1
  else if up then c.upRefused p target
  else none

/-- The span of the responder's first ACC: its next one, or the one after its own CANCEL has gone out. Marks: DEDUCED, log 31. -/
def Chip.answerSpan (c : Chip) (p : Port) : Nat :=
  match c.trk[p].own with
  | some o => if o.phase == .cancelling then o.spanN else spanAdd (c.get (F.TRK_SPAN p)) 1
  | none => spanAdd (c.get (F.TRK_SPAN p)) 1

/-- The responder's answer to a REQ for `target` at the proposer's span `n` (R57 step 2, R58). Marks: DEDUCED, log 31. -/
def Chip.answerReq (p : Port) (target n : Nat) (c : Chip) : Chip :=
  let step := c.get (F.TRK_STATUS_STEP p)
  let reason := c.refusal p target
  let c := c.modTrk p fun t => { t with answered := some (n, target) }
  match reason with
  | some reason =>
    let c := c.modTrk p fun t => { t with refuse := some (reason, n, target) }
    c.when (reason == 4) (Chip.protoError p)
  | none =>
    let m := spanAdd (c.answerSpan p) 4
    c.modTrk p fun t => { t with
      resp := some { target := target, start := step, spanM := m, peerN := n, committed := false, txDone := false, rxDone := false, failed := false }
      lastUpAccept := if step < target then some c.now else t.lastUpAccept }

/-- SHIFT_REQ_RX (R57, R58, R60): a repeat of the REQ last answered changes nothing; a target that is no step of Table 02-4 is a reserved
code (Table 02-10); of two crossing REQs the lower
target stands, or at equal targets the one of the lower serial, and the other end withdraws. A proposal that no marker has carried yet gives
way, as one withdrawn. Marks: DEDUCED, log 31. -/
def execShiftReqRx (p : Port) (s : State) : Host.Outcome State Fault Refusal :=
  s.onChip fun c =>
    match c.trk[p].lastMarker with
    | none => c
    | some m =>
      let target := m.shStep.toNat
      let n := m.shSpan.toNat
      if m.shOp.toNat ≠ 1 || c.trk[p].answered == some (n, target) then c
      else if target < 1 || 5 < target then c.protoError p
      else
        match c.trk[p].own with
        | some o =>
          if o.phase == .decided || o.phase == .requested then
            let ownStands := o.phase == .requested && (decide (o.target < target) || (o.target == target && decide (c.serial < c.partnerSerial p)))
            if ownStands then c
            else
              let c := (c.shiftResult p o.start o.target o.cause 3 0).flag (F.TRK_INT_STATUS_SHIFT_FAIL p)
              (c.modTrk p fun t => { t with own := none }).answerReq p target n
          else c.answerReq p target n
        | none => c.answerReq p target n

/-- SHIFT_ACC_RX (R57 step 3): received before the start of span N − 2, it commits the proposer. Marks: DEDUCED, log 31. -/
def execShiftAccRx (p : Port) (s : State) : Host.Outcome State Fault Refusal :=
  s.onChip fun c =>
    match c.trk[p].lastMarker, c.trk[p].own with
    | some m, some o =>
      if m.shOp.toNat = 2 && o.phase == .requested && m.shPeer.toNat = o.spanN
          && !spanLe (spanSub o.spanN 2) (c.get (F.TRK_SPAN p)) then
        (c.modTrk p fun t => { t with own := some { o with phase := .committed, spanM := m.shSpan.toNat } }).put (F.TRK_STATUS_SHIFT_PENDING p) 1
      else c
    | _, _ => c

/-- SHIFT_REF_RX (R58, R59). -/
def execShiftRefRx (p : Port) (s : State) : Host.Outcome State Fault Refusal :=
  s.onChip fun c =>
    match c.trk[p].lastMarker, c.trk[p].own with
    | some m, some o =>
      if m.shOp.toNat = 3 && o.phase == .requested && m.shPeer.toNat = o.spanN then
        c.proposalFailed p o 1 m.shReason.toNat false
      else c
    | _, _ => c

/-- SHIFT_CANCEL (R57 step 3, R59): at the start of span N − 2 without an ACC the proposer abandons the shift and sends
CANCEL in spans N − 2 and N − 1. -/
def execShiftCancel (p : Port) (s : State) : Host.Outcome State Fault Refusal :=
  s.onChip fun c =>
    match c.trk[p].own with
    | some o =>
      if o.phase == .requested && spanLe (spanSub o.spanN 3) (c.get (F.TRK_SPAN p)) then c.proposalFailed p o 2 0 true else c
    | none => c

/-- SHIFT_CANCEL_RX (R57 step 4): before the start of span M − 1 the responder withdraws its acceptance. -/
def execShiftCancelRx (p : Port) (s : State) : Host.Outcome State Fault Refusal :=
  s.onChip fun c =>
    match c.trk[p].lastMarker, c.trk[p].resp with
    | some m, some a =>
      if m.shOp.toNat = 4 && !a.committed && m.shPeer.toNat = a.peerN then
        ((c.modTrk p fun t => { t with resp := none }).shiftResult p a.start a.target 7 2 0).flag (F.TRK_INT_STATUS_SHIFT_FAIL p)
      else c
    | _, _ => c

/-- SHIFT_RESPONDER_COMMIT (R57 step 4): span M − 1 has started with no CANCEL received. -/
def execShiftResponderCommit (p : Port) (s : State) : Host.Outcome State Fault Refusal :=
  s.onChip fun c =>
    match c.trk[p].resp with
    | some a =>
      if !a.committed && spanLe (spanSub a.spanM 1) (c.get (F.TRK_SPAN p)) then
        (c.modTrk p fun t => { t with resp := some { a with committed := true } }).put (F.TRK_STATUS_SHIFT_PENDING p) 1
      else c
    | none => c

/-- The coefficient sets of a lane with the stored one of a step loaded as the live one (R50): whole, or its equaliser taps or its
echo-canceller taps alone (R62, TRK_COEF_SEL). -/
def loadSet (step : Nat) (sets : List (List (BitVec 16))) : List (List (BitVec 16)) :=
  match sets[step]? with
  | some x => x :: sets.tail
  | none => sets

def loadRx (step : Nat) (sets : List (List (BitVec 16))) : List (List (BitVec 16)) :=
  match sets[step]? with
  | some x => (x.take 32 ++ (sets.headD []).drop 32) :: sets.tail
  | none => sets

def loadEcho (step : Nat) (sets : List (List (BitVec 16))) : List (List (BitVec 16)) :=
  match sets[step]? with
  | some x => ((sets.headD []).take 32 ++ x.drop 32) :: sets.tail
  | none => sets

/-- The transmitter switches (R61, R62): a key-epoch change at this span moves to the next; the codeword group in progress ends at the old
rate, filled up with fillers; then the preamble goes out at the new rate on every active lane. The echo canceller switches with it. -/
def Chip.txSwitch (p : Port) (target : Nat) (c : Chip) : Chip :=
  let span := c.get (F.TRK_SPAN p)
  let c := c.when (c.on (F.LNK_EPOCH_KE_PEND p) && c.get (F.LNK_KE_SPAN p) == span) fun c =>
    c.put (F.LNK_KE_SPAN p) (spanAdd span 1)
  let c := (c.fillGroup p).modTrk p fun t => { t with coefs := t.coefs.map (loadEcho target) }
  let c := (c.put (F.TRK_STATUS_STEP p) target).put (F.TRK_STATUS_PRECODE_ON p)
    ((c.get (F.TRK_PARTNER_CAP_PRECODE p)).testBit (target - 1)).toNat
  (c.showPort p).each (lanesOf c.trk[p].txLanes) fun l c => c.emit (.preamble p l.val target preambleLevels)

/-- Marks the transmitter of the shift that is due as switched. -/
def Trk.sentSwitch (t : Trk) (span : Nat) : Trk :=
  match t.own.filter (fun o => o.phase == .committed && !o.txDone && o.spanN == span) with
  | some o => { t with own := some { o with txDone := true } }
  | none => { t with resp := t.resp.map fun a => { a with txDone := true } }

/-- The switch that is due at the current span (R57 step 5, R62): the proposer's at N, the responder's at M; the blocks that waited for
it follow at the new rate. -/
def Chip.switchIfDue (p : Port) (c : Chip) : Chip :=
  match c.switchDue p with
  | none => c
  | some target =>
    let span := c.get (F.TRK_SPAN p)
    (((c.txSwitch p target).modTrk p fun t => t.sentSwitch span).pcsFlush p).shiftCheckDone p

/-- SHIFT_TX_SWITCH (R57 step 5, R62). -/
def execShiftTxSwitch (p : Port) (s : State) : Host.Outcome State Fault Refusal := s.onChip (Chip.switchIfDue p)

/-- The receiver runs at a step from its stored coefficients. -/
def Trk.rxAt (t : Trk) (step : Nat) : Trk := { t with rxStep := step, coefs := t.coefs.map (loadRx step) }

/-- SHIFT_RX_SWITCH (R62, R63): the receiver has loaded the stored coefficients and aligned at the new rate; the interval is recorded in
8 ns units. -/
def execShiftRxSwitch (p : Port) (disturb : Nat) (s : State) : Host.Outcome State Fault Refusal :=
  s.onChip fun c =>
    let c' := c.put (F.TRK_SHIFT_STATUS_LAST_DISTURB p) (min (disturb / 8) 0xFFFF)
    match c.trk[p].own.filter (fun o => o.phase == .committed && !o.rxDone), c.trk[p].resp.filter (fun a => a.committed && !a.rxDone) with
    | some o, _ => (c'.modTrk p fun t => { t.rxAt o.target with own := some { o with rxDone := true } }).shiftCheckDone p
    | none, some a => (c'.modTrk p fun t => { t.rxAt a.target with resp := some { a with rxDone := true } }).shiftCheckDone p
    | none, none => c

/-- SHIFT_ACQUIRE_FAIL (R64): the shift has failed on the lane, which is treated as failed; it ends with this result once the other lane
has acquired. When both lanes fail the link is lost. It ends the climb of bring-up (R46). -/
def execShiftAcquireFail (p : Port) (lane : LaneId) (s : State) : Host.Outcome State Fault Refusal :=
  s.onChip fun c => c.when (c.on (F.TRK_STATUS_SHIFT_PENDING p) && c.laneLive p lane) fun c =>
    let failed := fun (c : Chip) (start target cause : Nat) => (c.shiftResult p start target cause 5 0).flag (F.TRK_INT_STATUS_SHIFT_FAIL p)
    let c := match c.trk[p].own.filter (fun o => o.phase == .committed), c.trk[p].resp.filter (fun a => a.committed) with
      | some o, _ => failed (c.modTrk p fun t => { t.rxAt o.target with own := some { o with failed := true } }) o.start o.target o.cause
      | none, some a => failed (c.modTrk p fun t => { t.rxAt a.target with resp := some { a with failed := true } }) a.start a.target 7
      | none, none => c
    let c := c.when (c.get (F.TRK_STATUS_PHASE p) == phaseClimb) fun c => c.put (F.TRK_STATUS_PHASE p) phaseRunning
    let c := (c.put (laneRxLock p lane) 0).put (laneLos p lane) 1
    c.laneFail p lane

end Sys2Proof.Machine
end

