-- ==== Sys2Proof/Machine/TrunkPower.lean ====
section
/-! DEFINITION. The commands of the trunk power paths (11) that come from the HV die's own circuits. -/

namespace Sys2Proof.Machine

/-! The HV lockout (R338, R372, R376). -/

/-- Is the word one that the lockout leaves: a counter or an interrupt register (R372, R376)? -/
def keptByLockout (off : Nat) : Bool :=
  off == F.TPW_INT_STATUS.off || off == F.TPW_INT_EN.off || off == F.LDC_INT_STATUS.off || off == F.LDC_INT_EN.off
    || (match regAt off with | some e => e.counter | none => false)

/-- VHV falls below the lockout: all seven switches open, and every contract ends (R338, R357). -/
def Hv.lockoutEnter (v : Hv) : Hv :=
  let v := ports.foldl (fun v p => (v.put (F.TPW_P_CONTRACT_VALID p) 0).enter p psOpen) v
  let v := chans.foldl (fun v y => v.chanEnter y csOff) v
  { v with lockout := true }

def execHvUvloEnter (s : State) : Host.Outcome State Fault Refusal := s.onPaths fun h => h.onLiveHv Hv.lockoutEnter

/-- The lockout releases: every TPW and LDC field takes its reset value. -/
def Hv.lockoutRelease (v : Hv) : Hv :=
  { v with
    regs := v.regs.filter fun r => keptByLockout r.1
    lockout := false, vrail := 0, prefFrom := 0
    tpw := Vector.replicate 3 TpwPort.reset, ldc := Vector.replicate 4 LdcChan.reset }

def execHvUvloRelease (s : State) : Host.Outcome State Fault Refusal :=
  s.onHub fun h => h.when h.hv.lockout fun h => h.onHv Hv.lockoutRelease

/-- HV_LINK_LOSS and HV_LINK_RESTORE (R365). -/
def execHvLinkLoss (s : State) : Host.Outcome State Fault Refusal :=
  s.onHub fun h => h.onLiveHv fun v => v.put F.TPW_HV_STATUS_LINK_OK 0
def execHvLinkRestore (s : State) : Host.Outcome State Fault Refusal :=
  s.onHub fun h => h.onLiveHv fun v => v.put F.TPW_HV_STATUS_LINK_OK 1

/-! Probing (R346, R347). -/

/-- A probe begins from OPEN; with the cable at 2 V or more it reports voltage present and applies no current. A DUMB_SNK port never
probes (R340). -/
def Hv.probe (p : Port) (v : Hv) : Hv :=
  v.when (v.pstate p == psOpen && v.defaultRole p != 5) fun v =>
    if 2000 ≤ v.tpw[p].sw.v then (v.put (F.TPW_P_STATUS_SIG p) 3).modTpw p fun t => { t with sigHits := 0 } else v.enter p psProbe

/-- PROBE_START: PROBE_EN set, default SRC or DUAL_SRC, FED, and not within the wait after a silent partner. -/
def Hv.probeStart (p : Port) (now : Nat) (v : Hv) : Hv :=
  v.when (v.on (F.TPW_P_CFG_PROBE_EN p) && (v.defaultRole p == 1 || v.defaultRole p == 3) && v.fed p
    && decide (v.tpw[p].probeFrom ≤ now)) (Hv.probe p)

def execProbeStart (p : Port) (s : State) : Host.Outcome State Fault Refusal :=
  s.onHub fun h => h.onLiveHv (Hv.probeStart p h.chip.now)

/-- The signature result of R in 10 Ω units (R347). -/
def signatureValid (r : Nat) : Bool := decide (2000 ≤ r ∧ r ≤ 2800)

/-- PROBE_COMPLETE: R is recorded; two valid results in a row energise the cable under the boot contract. -/
def Hv.probeComplete (p : Port) (r vcab : Nat) (v : Hv) : Hv :=
  v.when (v.pstate p == psProbe) fun v =>
    if 200 ≤ vcab then
      ((v.put (F.TPW_P_STATUS_SIG p) 3).modTpw p fun t => { t with sigHits := 0 }).enter p psOpen
    else
      let v := v.put (F.TPW_P_SIG_R_MEAS p) r
      if !signatureValid r then
        ((v.put (F.TPW_P_STATUS_SIG p) 2).modTpw p fun t => { t with sigHits := 0 }).enter p psOpen
      else
        let v := v.put (F.TPW_P_STATUS_SIG p) 1
        if v.tpw[p].sigHits = 0 then (v.modTpw p fun t => { t with sigHits := 1 }).enter p psOpen
        else
          let v := (v.modTpw p fun t => { t with sigHits := 0 }).flag F.TPW_INT_STATUS_SIG_FOUND
          if v.fed p && maySource (v.defaultRole p) && !v.tpw[p].heldOpen then
            ((v.bootContract p 1).startRamp p 0).modTpw p fun t => { t with probed := true }
          else v.enter p psOpen

def execProbeComplete (p : Port) (r vcab : BitVec 16) (s : State) : Host.Outcome State Fault Refusal :=
  s.onHub fun h => h.onLiveHv (Hv.probeComplete p r.toNat vcab.toNat)

/-- PARTNER_SILENT_TIMEOUT: no valid frame within 5 s of power-good; the port opens and waits 10 s. -/
def Hv.partnerSilent (p : Port) (now : Nat) (v : Hv) : Hv :=
  v.when (v.tpw[p].probed && v.on (F.TPW_P_STATUS_PG p) && !v.tpw[p].heard) fun v =>
    ((v.inc (F.TPW_FAULTS p)).modTpw p fun t => { t with probeFrom := now + 10 * second }).enter p psOpen

def execPartnerSilentTimeout (p : Port) (s : State) : Host.Outcome State Fault Refusal :=
  s.onHub fun h => h.onLiveHv (Hv.partnerSilent p h.chip.now)

/-! Commands of TPW_Tx_CMD (Table 11-2), run by the register write. -/

/-- GO with ROLE 0: path off, held open. Marks: DEDUCED, log 50. -/
def Hv.goOpen (p : Port) (v : Hv) : Hv := (v.modTpw p fun t => { t with heldOpen := true }).enter p psOpen

/-- GO with ROLE 1: a FED port that may source starts from OPEN. -/
def Hv.goSource (p : Port) (v : Hv) : Hv :=
  let v := v.modTpw p fun t => { t with heldOpen := false }
  v.when (v.pstate p == psOpen && v.fed p && maySource (v.defaultRole p)) (Hv.startRamp p 0)

/-- GO with ROLE 2: an OPEN port that may sink closes. -/
def Hv.goSink (p : Port) (v : Hv) : Hv :=
  let v := v.modTpw p fun t => { t with heldOpen := false }
  v.when (v.pstate p == psOpen && maySink (v.defaultRole p)) (Hv.closeSink p)

/-- The commands of one write: CLEAR_LATCH, then GO, then PROBE. Marks: DEDUCED, log 51. -/
def Hub.portCommand (p : Port) (role : Nat) (go clear probe : Bool) : Hub → Hub := Hub.paths fun h =>
  let h := h.when (clear && h.hv.pstate p == psLatched) fun h =>
    let cause := h.hv.get (F.TPW_P_STATUS_CAUSE p)
    (h.onHv (Hv.enter p psOpen)).when (h.hv.get (F.TPW_P_STATUS_DAMAGE p) == 0) (Hub.powerClear 0x30 p.val cause)
  let h := h.when go fun h => h.onHv fun v =>
    match role with
    | 0 => v.goOpen p
    | 1 => v.goSource p
    | 2 => v.goSink p
    | _ => v
  h.when probe fun h => h.onHv (Hv.probe p)

/-! Closing, ramping and power-good (R339, R342, R344, R348, R350). -/

/-- SINK_CLOSE: VCAB at 8 V at an OPEN port that may sink and is not held open. -/
def execSinkClose (p : Port) (s : State) : Host.Outcome State Fault Refusal :=
  s.onPaths fun h => h.onLiveHv fun v =>
    v.when (v.pstate p == psOpen && maySink (v.defaultRole p) && !v.tpw[p].heldOpen) (Hv.closeSink p)

/-- SOURCE_RAMP_DONE: enhanced with VCAB at 90 % of VRAIL; the deglitch starts. -/
def execSourceRampDone (p : Port) (s : State) : Host.Outcome State Fault Refusal :=
  s.onHub fun h => h.onLiveHv fun v => v.when (v.pstate p == psRamp) (Hv.enter p psSource)

/-- PATH_PG_DEGLITCH: power-good asserts, or waits for a running fault timer (R350). -/
def execPathPgDeglitch (p : Port) (s : State) : Host.Outcome State Fault Refusal :=
  s.onHub fun h => h.onLiveHv fun v => v.when (v.pstate p == psSource && v.tpw[p].sw.deglitch == .running) fun v =>
    if v.on (F.TPW_P_STATUS_TIMER p) then v.modSw p fun s => { s with deglitch := .waiting }
    else (v.modSw p fun s => { s with deglitch := .off }).setPg p true

/-- PATH_LIMITER_CHANGE (R349, R350). -/
def execPathLimiterChange (p : Port) (holding : Bool) (s : State) : Host.Outcome State Fault Refusal :=
  s.onHub fun h => h.onLiveHv (Hv.portLimiter p holding)

/-! Faults (R348, R349, R366, R367). -/

/-- Cause of a ramp's end: RAMP_SHORT 3, RAMP_STALL 4, THERMAL 5. -/
def rampCause (holding : Bool) : RampEnd → Nat
  | .model => if holding then 3 else 5
  | .timeout => 3
  | .stall => 4

/-- SOURCE_RAMP_FAULT (R348); a sink that raises the rail follows the same rules (R344). -/
def execSourceRampFault (p : Port) (cause : RampEnd) (s : State) : Host.Outcome State Fault Refusal :=
  s.onHub fun h => h.live fun h => h.when (h.hv.pstate p == psRamp || h.hv.tpw[p].raising) fun h =>
    h.portFault p (rampCause (h.hv.on (F.TPW_P_STATUS_LIMITING p)) cause)

/-- PATH_FAULT_TIMER: FAULT_T of a running timer passes; power-good and fault change in one command. -/
def execPathFaultTimer (p : Port) (s : State) : Host.Outcome State Fault Refusal :=
  s.onHub fun h => h.live fun h => h.when (h.hv.on (F.TPW_P_STATUS_TIMER p)) fun h => h.portFault p 1

/-- PATH_HARD_SHORT (R349): in every conducting state, where the current reaches 2 × I_EFF. -/
def execPathHardShort (p : Port) (ma : Int) (s : State) : Host.Outcome State Fault Refusal :=
  s.onHub fun h => h.live fun h => h.when (hardShort (h.hv.iEff p) ma) (Hub.portFault p 2)

def execPathOvervoltage (p : Port) (s : State) : Host.Outcome State Fault Refusal := s.onHub fun h => h.live (Hub.portFault p 6)

/-- PATH_OV_RECOVERY (Table 11-2): the previous role, with no retry counted. -/
def execPathOvRecovery (p : Port) (s : State) : Host.Outcome State Fault Refusal :=
  s.onPaths fun h => h.onLiveHv fun v =>
    v.when (v.pstate p == psFault && v.get (F.TPW_P_STATUS_CAUSE p) == 6) (Hv.reenter p)

/-- PATH_GATE_FAULT (R367): only while the limiter is not holding. -/
def execPathGateFault (p : Port) (s : State) : Host.Outcome State Fault Refusal :=
  s.onHub fun h => h.live fun h => h.when (!h.hv.on (F.TPW_P_STATUS_LIMITING p)) (Hub.portFault p 8)

/-- PATH_DROP (R367): at a fully enhanced port while the limiter is not holding. -/
def execPathDrop (p : Port) (s : State) : Host.Outcome State Fault Refusal :=
  s.onHub fun h => h.live fun h =>
    h.when (!h.hv.on (F.TPW_P_STATUS_LIMITING p) && h.hv.tpw[p].sw.ramp.isNone) (Hub.portFault p 9)

/-- FET_DAMAGE (R366): an open path shows a shorted FET; the port latches. -/
def Hub.fetDamage (p : Port) (d : Nat) (h : Hub) : Hub :=
  h.when (!h.hv.portOn p && d != 0) fun h =>
    let h := h.onHv fun v => (v.put (F.TPW_P_STATUS_DAMAGE p) d).flag F.TPW_INT_STATUS_FET_DAMAGE
    let h := h.when (d == 3) fun h => h.onHv fun v => v.put (F.TPW_P_STATUS_CAUSE p) 7
    (h.portLatch p).powerAlarm 0x31 p.val d

def execFetDamage (p : Port) (damage : Fin 4) (s : State) : Host.Outcome State Fault Refusal :=
  s.onHub fun h => h.live (Hub.fetDamage p damage.val)

/-! Retries (R351). -/

/-- PATH_RETRY_DUE: the port takes its previous role again, or latches where a lower RETRY_MAX has spent the retries meanwhile. -/
def Hub.portRetry (p : Port) (h : Hub) : Hub :=
  let v := h.hv
  h.when (v.pstate p == psFault && v.get (F.TPW_P_STATUS_CAUSE p) != 6) fun h =>
    if v.retriesSpent p then h.portSpent p
    else h.onHv fun v => (v.put (F.TPW_P_STATUS_RETRIES p) (min 31 (v.get (F.TPW_P_STATUS_RETRIES p) + 1))).reenter p

def execPathRetryDue (p : Port) (s : State) : Host.Outcome State Fault Refusal :=
  s.onPaths fun h => h.live fun h => h.when (decide (h.hv.tpw[p].sw.fet.temp < h.hv.get (F.TPW_P_SENSE_T_RETRY p))) (Hub.portRetry p)

def execPathRetryCountReset (p : Port) (s : State) : Host.Outcome State Fault Refusal :=
  s.onHub fun h => h.onLiveHv fun v => v.when (!v.portBad p) fun v => v.put (F.TPW_P_STATUS_RETRIES p) 0

/-! The rail (R342, R343, R345). -/

/-- PATH_REVERSE_TURNOFF: the gate of a sink is below threshold; the port stays in SINK. -/
def execPathReverseTurnoff (p : Port) (s : State) : Host.Outcome State Fault Refusal :=
  s.onHub fun h => h.onLiveHv fun v => v.when (v.pstate p == psSink) fun v =>
    (v.modTpw p fun t => { t with reversed := true }).refresh

/-- FEED_LOSS_SHED: the marked channels turn off and are held. -/
def Hv.feedLoss (v : Hv) : Hv :=
  let mask := v.get F.TPW_RAIL_CFG_SHED_ON_FEED_LOSS
  let v := chans.foldl (fun v y => v.when (mask.testBit y.val) (Hv.feedShed y)) v
  (v.put F.TPW_RAIL_STATUS_FEED_LOSS 1).flag F.TPW_INT_STATUS_FEED_LOSS

/-- SHED_V in 10 mV. -/
def Hv.shedVolt (v : Hv) : Nat := v.get F.TPW_RAIL_CFG_SHED_V * 50

def execFeedLossShed (vrail : BitVec 16) (s : State) : Host.Outcome State Fault Refusal :=
  s.onHub fun h => h.onLiveHv fun v => v.when (decide (vrail.toNat < v.shedVolt)) Hv.feedLoss

/-- FEED_RESTORE: the shed channels are armed again. -/
def Hv.feedRestore (v : Hv) : Hv :=
  chans.foldl (fun v (y : Chan) => v.releaseHold (F.LDC_L_STATUS_HELD_FEED y) y) (v.put F.TPW_RAIL_STATUS_FEED_LOSS 0)

def execFeedRestore (s : State) : Host.Outcome State Fault Refusal :=
  s.onHub fun h => h.onLiveHv fun v => v.when (v.on F.TPW_RAIL_STATUS_FEED_LOSS) Hv.feedRestore

/-- OVERDRAW_CHECK (R355): the 1 s mean current (10 mA) of a source exceeds its contract's. -/
def execOverdrawCheck (p : Port) (mean : BitVec 16) (s : State) : Host.Outcome State Fault Refusal :=
  s.onHub fun h => h.live fun h =>
    h.when (h.hv.pstate p == psSource && h.hv.on (F.TPW_P_CONTRACT_VALID p)
      && decide (10 * h.hv.get (F.TPW_P_CONTRACT_I p) < mean.toNat)) fun h =>
      (h.onHv fun v => (v.inc (F.TPW_OVERDRAW p)).flag F.TPW_INT_STATUS_OVERDRAW).powerAlarm 0x32 p.val mean.toNat

/-! Role swaps that the HV die completes (R358, R361 to R364). -/

/-- A port has changed sides: what it offered as a source stands no longer (R358, R360). -/
def Chip.offerEnds (p : Port) (c : Chip) : Chip := { c with pwr := { c.pwr with sent := c.pwr.sent.set p none } }

/-- The port gives the cable up: it sinks, with the contract mirrored (R360, R362). -/
def Hub.yieldSource (p : Port) (h : Hub) : Hub :=
  (h.onHv fun v => ((v.closeSink p).mirror p 0).flag F.TPW_INT_STATUS_FRS).onChip (Chip.offerEnds p)

/-- REVERSE_CURRENT_SWAP (R362). -/
def execReverseCurrentSwap (p : Port) (s : State) : Host.Outcome State Fault Refusal :=
  s.onPaths fun h => h.live fun h => h.when (h.hv.pstate p == psSource) (Hub.yieldSource p)

/-- FAST_SWAP_RECOGNISED (R362): a SOURCE port with FRS_EN enters SINK with the contract mirrored; others count the
pattern ignored. -/
def Hub.patternSeen (p : Port) (h : Hub) : Hub :=
  if h.hv.pstate p = psSource ∧ h.hv.on (F.TPW_P_CFG_FRS_EN p) then h.yieldSource p
  else h.onHv fun v => (v.inc (F.TPW_FRS_IGN p)).flag F.TPW_INT_STATUS_FRS_IGNORED

/-- FAST_SWAP_PATTERN_RX (03 R116): recognised by the Towpath and reported to the power path. -/
def execFastSwapPatternRx (p : Port) (s : State) : Host.Outcome State Fault Refusal :=
  s.onPaths fun h => h.when (h.chip.running && h.chip.on (F.LNK_CTL_TP_EN p)) fun h => h.live (Hub.patternSeen p)

/-- SWAP_NEW_SOURCE (Table 11-6 event 2): enhanced under the limiter, or by a ramp; a port that is not FED does not source (Table 11-2). -/
def Hub.swapNewSource (p : Port) (h : Hub) : Hub :=
  match h.chip.pwr.swap[p] with
  | some w => h.when (w.started && w.newSource && h.hv.pstate p == psSink && h.hv.fed p) fun h =>
      (h.onHv fun v => if 9 * v.vrail ≤ 10 * v.tpw[p].sw.v then v.enter p psSource else v.startRamp p 0).onChip (Chip.offerEnds p)
  | none => h

def execSwapNewSource (p : Port) (s : State) : Host.Outcome State Fault Refusal := s.onPaths fun h => h.live (Hub.swapNewSource p)

/-- SWAP_OLD_SINK (event 3): the old source sinks, and both ends mirror the contract. -/
def Hub.swapOldSink (p : Port) (h : Hub) : Hub :=
  match h.chip.pwr.swap[p] with
  | some w => h.when w.started fun h =>
    let h := h.onHv fun v =>
      if w.newSource then v.mirror p 1
      else (v.when (portRole (v.pstate p) == 1) (Hv.closeSink p)).mirror p 0
    h.onChip fun c =>
      let c := c.when (!w.newSource) (Chip.offerEnds p)
      { c with pwr := { c.pwr with swap := c.pwr.swap.set p (some { w with late := true }) } }
  | none => h

def execSwapOldSink (p : Port) (s : State) : Host.Outcome State Fault Refusal := s.onPaths fun h => h.live (Hub.swapOldSink p)

/-- SWAP_GUARD_CHECK (event 5): both conditions clear GUARD and complete the swap; otherwise the guard fails.
Marks: DEDUCED, log 50. -/
def Hub.swapCheck (p : Port) (h : Hub) : Hub :=
  match h.chip.pwr.swap[p] with
  | some w =>
    if w.started && w.heard && portRole (h.hv.pstate p) == (if w.newSource then 1 else 2) then
      let h := h.onHv fun v => ((v.put (F.TPW_P_STATUS_GUARD p) 0).inc (F.TPW_SWAPS p)).flag F.TPW_INT_STATUS_SWAP_DONE |>.refresh
      h.onChip fun c => { c with pwr := { c.pwr with swap := c.pwr.swap.set p none } }
    else (h.guardFail p).onChip fun c => { c with pwr := { c.pwr with swap := c.pwr.swap.set p none } }
  | none => h.guardFail p

def execSwapGuardCheck (p : Port) (s : State) : Host.Outcome State Fault Refusal := s.onHub fun h => h.live (Hub.swapCheck p)

def execGuardFailure (p : Port) (s : State) : Host.Outcome State Fault Refusal := s.onHub fun h => h.live (Hub.guardFail p)

/-- RESTORE_EXPIRY (R364): the port takes RESTORE_ROLE under the boot contract. -/
def Hv.restore (p : Port) (v : Hv) : Hv :=
  v.when (v.pstate p == psRestore) fun v =>
    let v := v.modTpw p fun t => { t with heldOpen := false }
    match v.get (F.TPW_P_STATUS_RESTORE_ROLE p) with
    | 1 =>
      if v.fed p && decide (v.tpw[p].sw.v < 2000) then (v.bootContract p 1).startRamp p (v.vrail / 400)
      else v.enter p psOpen
    | 2 => (v.bootContract p 0).closeSink p
    | _ => v.enter p psOpen

def execRestoreExpiry (p : Port) (s : State) : Host.Outcome State Fault Refusal := s.onPaths fun h => h.onLiveHv (Hv.restore p)

/-! The 62.5 µs grid (R368, R369, 12 R389). -/

/-- FET_MODEL_UPDATE: the samples of all seven paths and their models. -/
def Hub.modelUpdate (smp : HvSamples) (h : Hub) : Hub :=
  let h := h.onHv fun v =>
    ({ v with vrail := smp.vrail.toNat * 10 }.put F.TPW_RAIL_STATUS_VRAIL smp.vrail.toNat).put F.TPW_HV_STATUS_VHV smp.vhv.toNat
  let h := h.each ports (Hub.portStep smp)
  let h := h.each chans (Hub.chanStep smp)
  h.onHv Hv.refresh

def execFetModelUpdate (smp : HvSamples) (s : State) : Host.Outcome State Fault Refusal :=
  s.onHub fun h => h.live (Hub.modelUpdate smp)

end Sys2Proof.Machine
end

