-- ==== Sys2Proof/Machine/PowerMsg.lean ====
section
/-! DEFINITION. Power messages on the Towpath (11 R352 to R362): offers, requests, contracts and role swaps. The Lockkeeper
answers while it runs, and takes no part on a DUMB_SNK port (R340). -/

namespace Sys2Proof.Machine

/-- The fields of a PWR_OFFER (Table 11-5). -/
def offerOf (l : List Byte) : PwrOffer :=
  let b := fieldAt l 6 1
  { w := fieldAt l 0 2, i := fieldAt l 2 2, hint := b % 8, frsOk := b.testBit 3, revised := b.testBit 4, fixed := b.testBit 5, id := fieldAt l 7 1 }

def Chip.modPwr (f : Pwr → Pwr) (c : Chip) : Chip := { c with pwr := f c.pwr }

/-- An answer of the Lockkeeper. Marks: DESIGN CHOICE, log 66. -/
def Chip.lkAnswer (p : Port) (cls seq : Nat) (payload : List Byte) (c : Chip) : Chip :=
  c.sendAnswerFw p (tpHeader cls seq payload.length true false false) payload

/-- The Lockkeeper takes a power message. -/
def Hub.lkTakes (p : Port) (f : Hub → Hub) (h : Hub) : Hub := h.when (h.chip.lkRun && h.hv.defaultRole p != 5) f

/-! Offers and contracts (R353, R354, R356). -/

/-- Lowers a contract of a direction to an offer (R353). -/
def Hv.lowerContract (p : Port) (dir : Bool) (o : PwrOffer) (v : Hv) : Hv :=
  v.when (v.on (F.TPW_P_CONTRACT_VALID p) && v.on (F.TPW_P_CONTRACT_DIR p) == dir) fun v =>
    (v.put (F.TPW_P_CONTRACT_W p) (min (v.get (F.TPW_P_CONTRACT_W p)) o.w)).put (F.TPW_P_CONTRACT_I p) (min (v.get (F.TPW_P_CONTRACT_I p)) o.i)

/-- PWR_OFFER_RX: answered with its CONTRACT_ID; a revised offer lowers the sink's contract at once; the hint and the
roles follow. -/
def Hub.offerRx (p : Port) (hdr : Word) (payload : List Byte) (h : Hub) : Hub :=
  h.lkTakes p fun h =>
    let o := offerOf payload
    let h := h.onChip fun c => (c.modPwr fun w => { w with got := w.got.set p (some o) }).lkAnswer p 2 (tpSeq hdr) [BitVec.ofNat 8 o.id]
    let h := h.when o.revised fun h => h.onLiveHv (Hv.lowerContract p false o)
    h.floorHint.roleResolution p

/-- What a source offers (R354): some power and current, which no rule gives, and until admission no more than the boot contract. -/
def Hub.offerLimit (h : Hub) (p : Port) (w i : Nat) : Nat × Nat :=
  if h.chip.on (F.LNK_STATUS_ADMITTED p) then (w, i)
  else (min w (h.hv.get (F.TPW_P_BOOT_BOOT_W p)), min i (h.hv.get (F.TPW_P_BOOT_BOOT_I p)))

/-- The answer to a PWR_REQUEST (R353, R354): 0 accepts, otherwise the REASON. Until admission the offer counts for no more
than the boot contract. -/
def Hub.requestReason (h : Hub) (p : Port) (w i : Nat) : Nat :=
  let offered := match h.chip.pwr.sent[p] with | some o => (o.w, o.i) | none => (0, 0)
  let most := h.offerLimit p offered.1 offered.2
  if most.1 < w || most.2 < i then 1
  else if h.chip.pwr.swap[p].isSome then 4
  else 0

/-- PWR_REQUEST_RX: PWR_REJECT, or the contract written at the source and PWR_ACCEPT. -/
def Hub.powerRequestRx (p : Port) (hdr : Word) (payload : List Byte) (h : Hub) : Hub :=
  h.lkTakes p fun h =>
    let w := fieldAt payload 0 2
    let i := fieldAt payload 2 2
    let id := payload.getD 7 0#8
    let reason := h.requestReason p w i
    if reason ≠ 0 then
      h.onChip fun c => c.lkAnswer p 5 (tpSeq hdr) ([BitVec.ofNat 8 reason] ++ List.replicate 6 0#8 ++ [id])
    else
      let frs := match h.chip.pwr.sent[p] with | some o => o.frsOk | none => false
      let h := h.onLiveHv (Hv.setContract p w i 1 frs)
      h.onChip fun c => c.lkAnswer p 4 (tpSeq hdr) (beBytes 2 w ++ beBytes 2 i ++ List.replicate 3 0#8 ++ [id])

/-- What an accepted contract does at the sink (R353). -/
def Hub.contractTaken (p : Port) (payload : List Byte) (h : Hub) : Hub :=
  h.lkTakes p fun h =>
    let frs := match h.chip.pwr.got[p] with | some o => o.frsOk | none => false
    h.onLiveHv (Hv.setContract p (fieldAt payload 0 2) (fieldAt payload 2 2) 0 frs)

/-- CONTRACT_LOWER_DELAY (R353): 100 ms after the answer to a revised offer the source lowers its contract. -/
def execContractLowerDelay (p : Port) (s : State) : Host.Outcome State Fault Refusal :=
  s.onHub fun h => h.lkTakes p fun h =>
    match h.chip.pwr.sent[p] with
    | some o => h.when o.revised fun h => h.onLiveHv (Hv.lowerContract p true o)
    | none => h

/-! Role swaps (R358 to R362). -/

/-- The STATUS of the answer to a SWAP_REQ (R358, R359). `toSource`: the requester asks to become source. -/
def Hub.swapStatus (h : Hub) (p : Port) (toSource : Bool) : Nat :=
  let c := h.chip
  let v := h.hv
  let own := fun (cls : Nat) => c.tp[p].requests.any fun r => tpClass r.frame.hdr == cls
  if own 6 && decide (c.serial < c.tp[p].partnerSerial) then 3
  else if own 3 || c.pwr.swap[p].isSome then 4
  else if v.portBad p then 5
  else if toSource && !maySink (v.defaultRole p) || !toSource && !maySource (v.defaultRole p) then 1
  else if toSource && !c.tp[p].partnerCaps.testBit 1 || !toSource && !v.fed p then 2
  else 0

/-- SWAP_REQ_RX. An accepted swap starts when its SWAP_ACK has been sent. -/
def Hub.swapReqRx (p : Port) (hdr : Word) (payload : List Byte) (h : Hub) : Hub :=
  h.lkTakes p fun h =>
    let toSource := fieldAt payload 0 1 % 2 == 1
    let st := h.swapStatus p toSource
    let h := h.onChip fun c => c.lkAnswer p 7 (tpSeq hdr) [BitVec.ofNat 8 st]
    h.when (st == 0) fun h => h.onChip fun c => c.modPwr fun w =>
      { w with swap := w.swap.set p (some { newSource := !toSource, started := false, late := false, heard := false }) }

/-- The schedule starts at the end of the accepting SWAP_ACK (Table 11-6 event 1): GUARD sets. A DUMB_SNK port never swaps (R340). -/
def Hub.swapStart (p : Port) (newSource : Bool) (h : Hub) : Hub := h.when (h.hv.defaultRole p != 5) fun h =>
  let h := h.onChip fun c => c.modPwr fun w =>
    { w with swap := w.swap.set p (some { newSource := newSource, started := true, late := false, heard := false }) }
  h.onLiveHv fun v => (v.put (F.TPW_P_STATUS_GUARD p) 1).refresh

/-- The accepting end has sent its SWAP_ACK. -/
def Hub.swapAckSent (p : Port) (h : Hub) : Hub :=
  match h.chip.pwr.swap[p] with
  | some w => h.when (!w.started) (Hub.swapStart p w.newSource)
  | none => h

/-- The answer to the own SWAP_REQ; ACCEPT starts the schedule. -/
def Hub.swapAcked (p : Port) (r : TpRequest) (payload : List Byte) (h : Hub) : Hub :=
  h.when (fieldAt payload 0 1 == 0 && payload.length == 1) (Hub.swapStart p (fieldAt r.frame.payload 0 1 % 2 == 1))

/-- SWAP_STATUS_PROBE (Table 11-6 event 4): the new source's hardware sends STATUS. -/
def execSwapStatusProbe (p : Port) (s : State) : Host.Outcome State Fault Refusal :=
  s.onChip fun c =>
    match c.pwr.swap[p] with
    | some w => c.when (w.started && w.newSource && c.running) fun c => c.request p 9 [] false (c.on (F.LNK_TP_STATUS_PARTNER_SEEN p))
    | none => c

/-- FRS_TRIGGER (R361): the armed sink sources with fast gate drive, mirrors its contract and sends the pattern and the
framed message; while the core is in reset the pattern is omitted. -/
def Hub.frsTrigger (p : Port) (h : Hub) : Hub :=
  h.when (h.hv.frsArmed p) fun h =>
    let h := h.onHv fun v =>
      let v := ((v.enter p psSource).mirror p 1).modSw p fun s => { s with deglitch := .off }
      (v.inc (F.TPW_FRS p)).flag F.TPW_INT_STATUS_FRS
    let w := h.hv.get (F.TPW_P_CONTRACT_W p)
    let i := h.hv.get (F.TPW_P_CONTRACT_I p)
    h.onChip fun c => (c.offerEnds p).when (c.running && c.on (F.LNK_CTL_TP_EN p)) fun c =>
      let c := c.emit (.fastSwap p)
      let c := c.modTp p fun t => { t.keepFrames (fun f => tpClass f.hdr != 6) with
        requests := t.requests.filter fun r => tpClass r.frame.hdr != 6 }
      c.request p 8 (beBytes 2 w ++ beBytes 2 i) false (c.on (F.LNK_TP_STATUS_PARTNER_SEEN p))

def execFrsTrigger (p : Port) (s : State) : Host.Outcome State Fault Refusal := s.onPaths fun h => h.live (Hub.frsTrigger p)

/-- FAST_SWAP_MSG_RX (R361): the contract in force after the swap; this end sinks. The answer is empty. -/
def Hub.fastSwapRx (p : Port) (hdr : Word) (payload : List Byte) (h : Hub) : Hub :=
  h.lkTakes p fun h =>
    let h := h.onLiveHv fun v => v.setContract p (fieldAt payload 0 2) (fieldAt payload 2 2) 0 (v.on (F.TPW_P_CONTRACT_FRS_OK p))
    h.onChip fun c => c.lkAnswer p 8 (tpSeq hdr) []

/-- A request that the Lockkeeper takes from the mailbox, by class (03 Table 03-8). -/
def Hub.powerRequest (p : Port) (hdr : Word) (payload : List Byte) (h : Hub) : Hub :=
  match tpClass hdr with
  | 2 => h.offerRx p hdr payload
  | 3 => h.powerRequestRx p hdr payload
  | 6 => h.swapReqRx p hdr payload
  | 8 => h.when (payload.length == 4) (Hub.fastSwapRx p hdr payload)
  | _ => h

/-- A valid frame of the partner at the power path: the 5 s that follow power-good end (R347), and event 5 of Table 11-6 is met. -/
def Hub.partnerHeard (p : Port) (h : Hub) : Hub :=
  let h := h.onHv fun v => v.when (v.on (F.TPW_P_STATUS_PG p)) fun v => v.modTpw p fun t => { t with heard := true }
  match h.chip.pwr.swap[p] with
  | some w => h.when w.late fun h => h.onChip fun c => c.modPwr fun x => { x with swap := x.swap.set p (some { w with heard := true }) }
  | none => h

/-- A PWR_OFFER that the firmware sends is kept as the offer that requests are held against (R353).
Marks: DEDUCED, log 50. -/
def Chip.offerSent (p : Port) (cls : Nat) (payload : List Byte) (c : Chip) : Chip :=
  c.when (cls == 2 && payload.length == 12) fun c => c.modPwr fun w => { w with sent := w.sent.set p (some (offerOf payload)) }

/-- The Lockkeeper sends its PWR_OFFER (R341, Table 11-5): FIXED for a port that only sources. What it offers, V_NOM, the hint, FRS_OK
and the CONTRACT_ID are free values (log 2). Marks: DESIGN CHOICE, log 89. -/
def Hub.sendOffer (p : Port) (h : Hub) : Hub :=
  let (w, c) := h.chip.draw 4096
  let (i, c) := c.draw 4096
  let (vNom, c) := c.draw 65536
  let (hint, c) := c.draw 16
  let (id, c) := c.draw 256
  let most := h.offerLimit p w i
  let flags := hint + 32 * (h.hv.defaultRole p == 1).toNat
  let payload := beBytes 2 most.1 ++ beBytes 2 most.2 ++ beBytes 2 vNom ++ [BitVec.ofNat 8 flags, BitVec.ofNat 8 id] ++ List.replicate 4 0#8
  let c := c.requestWith p (tpHeader 2 0 12 false false false) payload false (c.on (F.LNK_TP_STATUS_PARTNER_SEEN p))
  { h with chip := c.offerSent p 2 payload }

/-- Has the Lockkeeper an offer to make: no offer stands, and the port sources after a swap or a probe, or intends to source and has not
lost the resolution (R341, Table 11-6 event 6)? -/
def Hub.offerDue (h : Hub) (p : Port) : Bool :=
  let c := h.chip
  let v := h.hv
  c.tpAlive p && c.on (F.LNK_TP_STATUS_PARTNER_SEEN p) && c.pwr.sent[p].isNone && c.pwr.swap[p].isNone
    && (v.pstate p == psSource || (v.intendsSource p c.tp[p].partnerCaps && v.get (F.TPW_P_STATUS_RESTORE_ROLE p) != 2))

/-- The offers that are due are sent, at a frame tick. Marks: DESIGN CHOICE, log 89. -/
def Hub.makeOffers (h : Hub) : Hub := h.each ports fun p h => h.lkTakes p fun h => h.when (h.offerDue p) (Hub.sendOffer p)

end Sys2Proof.Machine
end

