-- ==== Sys2Proof/Machine/Towpath.lean ====
section
/-! DEFINITION. The Towpath (03 R108 to R119, R522): frames in and out, the hardware answers, escalation, the mailbox
commands and the hard-reset break. -/

namespace Sys2Proof.Machine

/-! Frames in (R109, R111, R112, R119). -/

/-- Answer classes of a request class (03 Table 03-8). -/
def tpAnswers (req ans : Nat) : Bool :=
  (req == ans && (req == 1 || req == 2 || req == 8 || req == 9 || req == 0xA || req == 0xB || req == 0xC))
    || (req == 3 && (ans == 4 || ans == 5)) || (req == 6 && ans == 7)

/-- The line of a port has been idle for 1 ms: a tone that outlasted its reset has ended (R117). -/
def Chip.lineIdle (p : Port) (c : Chip) : Chip :=
  ({ c with rst := { c.rst with toneLeft := upd c.rst.toneLeft p fun _ => false } }).put (F.LNK_TP_STATUS_LINE_BUSY p) 0

/-- A valid frame has arrived (R113): it is counted, and the partner is seen. -/
def Hub.frameSeen (p : Port) (h : Hub) : Hub :=
  (h.onChip fun c => (((c.put (F.LNK_TP_STATUS_LINE_BUSY p) 0).inc (F.LNK_TP_RX p)).put (F.LNK_TP_STATUS_PARTNER_SEEN p) 1).modTp p fun t => { t with seenAt := c.now }).partnerHeard p

/-- A HELLO (R112, R113, 04 R122, 11 R341): a request is answered by hardware; the partner's identity and capabilities
are kept and feed the power role resolution. -/
def Hub.helloRx (p : Port) (hdr : Word) (payload : List Byte) (h : Hub) : Hub :=
  let h := h.onChip (Chip.helloTaken p payload)
  let h := h.when (!tpRsp hdr) fun h => h.onChip (Chip.sendAnswer p 1 (tpSeq hdr) (h.helloPayload p))
  h.roleResolution p

/-- A STATUS request is answered (R111, R112, Table 03-10). -/
def Hub.statusRx (p : Port) (hdr : Word) (h : Hub) : Hub :=
  let pl := h.statusPayload
  h.onChip (Chip.sendAnswer p 9 (tpSeq hdr) pl)

/-- A RESET_SOFT is answered (R115); SCOPE 0 and 1 abort the outstanding requests; SCOPE 1 also resets the Lockkeeper
domain where TP_REMOTE_LK is set, which sheds no load (01 R20). The copy of this answer is kept, so that a resend is not acted on
twice (R112). Marks: DEDUCED, log 32. -/
def Hub.softResetRx (p : Port) (hdr : Word) (payload : List Byte) (h : Hub) : Hub :=
  let scope := fieldAt payload 0 1
  let h := h.onChip fun c =>
    let c := c.when (scope == 0 || scope == 1) fun c => c.tpRestart p none
    (c.sendAnswer p 0xA (tpSeq hdr) (payload.take 1)).flag (F.LNK_INT_STATUS_TP_SOFT_RX p)
  h.when (scope == 1 && h.chip.on (F.LNK_CTL_TP_REMOTE_LK p)) fun h => h.onChip Chip.lockkeeperReset

/-- A request that the mailbox has taken, as the Lockkeeper acts on it while it runs: power messages (11), KEYX (13), and
ALARM_RELAY, which is answered empty. -/
def Hub.lkRequest (p : Port) (hdr : Word) (payload : List Byte) (h : Hub) : Hub :=
  match tpClass hdr with
  | 0xB => h.onChip (Chip.keyxFrame p hdr payload)
  | 0xC => h.onChip fun c => c.when c.lkRun (Chip.lkAnswer p 0xC (tpSeq hdr) [])
  | _ => h.powerRequest p hdr payload

/-- A request of a class that the Lockkeeper answers. -/
def Hub.mailRequest (p : Port) (hdr : Word) (payload : List Byte) (h : Hub) : Hub :=
  if h.chip.tp[p].mailboxFull then h else (h.onChip (Chip.toMailbox p hdr payload)).lkRequest p hdr payload

/-- A request: hardware answers its own classes; a resent request is answered again from the copy and not acted on twice
(R112), also while the mailbox is full; others go to the mailbox. Marks: DESIGN CHOICE, log 81. -/
def Hub.tpRequestRx (p : Port) (hdr : Word) (payload : List Byte) (h : Hub) : Hub :=
  let cls := tpClass hdr
  let copy := h.chip.tp[p].answers.find? fun a => a.1 == cls && a.2.1 == tpSeq hdr
  match tpRetry hdr, copy with
  | true, some (_, _, f) => h.onChip fun c => c.queueFrame p f
  | _, _ =>
    if cls = 1 then (if payload.length == 16 then h.helloRx p hdr payload else h)
    else if cls = 9 then h.statusRx p hdr
    else if cls = 0xA then h.softResetRx p hdr payload
    else if cls = 4 || cls = 5 || cls = 7 then h
    else h.mailRequest p hdr payload

/-- A STATUS answer in escalation (R114 events 6 to 8): the partner's LK_STATE decides; a value that Table 03-4 does not name counts as
RUN. Marks: DESIGN CHOICE, log 81. -/
def Chip.escalationStatus (p : Port) (hdr : Word) (payload : List Byte) (c : Chip) : Chip :=
  match c.tp[p].requests.find? fun r => (r.stage == .status0 || r.stage == .status1 || r.stage == .status2) && r.escSeq == tpSeq hdr with
  | none => c
  | some r =>
    let lk := fieldAt payload 10 1 % 8
    let c := ((c.put (F.LNK_TP_STATUS_PARTNER_LK p) lk).partnerBack p).partnerRuns p lk
    let hold := lk == 3 || ((lk == 1 || lk == 2) && 4 ≤ r.waits)
    if hold then
      let c := (c.flag (F.LNK_INT_STATUS_PARTNER_HOLD p)).put (F.LNK_TP_STATUS_ESC_STAGE p) 7
      let c := c.raise { code := 0x16, subject := c.lnk[p].partnerId, unit := p.val, hops := 1, loc := 0, detail := lk, cleared := false, witness := false }
      (c.dropRequest p r).fwEnds p 3 r
    else if lk == 1 || lk == 2 then
      (c.setRequest p r { r with stage := .waitRestart, waits := r.waits + 1 }).put (F.LNK_TP_STATUS_ESC_STAGE p) 3
    else
      let n := c.tp[p].nextSeq
      let c := c.setRequest p r { r with stage := .soft0, escSeq := n }
      let c := c.queueFrame p { hdr := tpHeader 0xA n 1 false false true, payload := [0#8] }
      (c.modTp p fun t => { t with nextSeq := (t.nextSeq + 1) % 256 }).put (F.LNK_TP_STATUS_ESC_STAGE p) 4

/-- Has the request reached event 3 of escalation, from where on its result is 3 (R114)? -/
def TpRequest.escalated (r : TpRequest) : Bool := decide (0 < r.waits) || r.stage == .again0 || r.stage == .again1 || r.stage == .again2

/-- An answer: it must match an outstanding request (R112). Answers to firmware requests go to the mailbox, except those of
a HELLO and of a RESET_SOFT, which hardware takes, also while the mailbox is full (R115, R119). Marks: DESIGN CHOICE, log 81. -/
def Hub.tpAnswerRx (p : Port) (hdr : Word) (payload : List Byte) (h : Hub) : Hub :=
  let c := h.chip
  let cls := tpClass hdr
  let own := c.tp[p].requests.find? fun r =>
    tpAnswers (tpClass r.frame.hdr) cls && tpSeq r.frame.hdr == tpSeq hdr
      && (r.stage == .first || r.stage == .retry1 || r.stage == .retry2 || r.stage == .again0 || r.stage == .again1 || r.stage == .again2)
  let soft := c.tp[p].requests.find? fun r => (r.stage == .soft0 || r.stage == .soft1 || r.stage == .soft2) && r.escSeq == tpSeq hdr && cls == 0xA
  match own, soft with
  | some r, _ =>
    let done := fun (c : Chip) => ((c.dropRequest p r).put (F.LNK_TP_STATUS_ESC_STAGE p) 0).fwEnds p (if r.escalated then 3 else 1) r
    if cls = 1 then (h.onChip done).helloRx p hdr payload
    else if cls = 0xA then
      h.onChip fun c => (done c).when (decide (fieldAt r.frame.payload 0 1 ≤ 1)) (Chip.tpRestart p none)
    else if r.fw && c.tp[p].mailboxFull then h
    else
      let h := (h.onChip fun c => c.when r.fw (Chip.toMailbox p hdr payload)).onChip done
      match cls with
      | 4 => h.contractTaken p payload
      | 7 => h.swapAcked p r payload
      | 9 => h.onChip fun c => c.put (F.LNK_TP_STATUS_PARTNER_LK p) (fieldAt payload 10 1)
      | 0xB => h.onChip (Chip.keyxFrame p hdr payload)
      | _ => h
  | none, some r => h.onChip fun c => c.tpRestart p (some r)
  | none, none => if cls = 9 then h.onChip (Chip.escalationStatus p hdr payload) else h

/-- A valid frame (R111 to R113). -/
def Hub.frameTaken (p : Port) (hdr : Word) (payload : List Byte) (h : Hub) : Hub :=
  let h := h.frameSeen p
  if tpRsp hdr then h.tpAnswerRx p hdr payload else h.tpRequestRx p hdr payload

/-- TOWPATH_FRAME_RX (R109, R111 to R113, R119). -/
def Hub.tpFrameRx (p : Port) (hdr : Word) (payload : List Byte) (crc : BitVec 16) (h : Hub) : Hub :=
  let cls := tpClass hdr
  let ok := crc16 (bitsOf hdr ++ bitsOfBytes payload) == crc && tpLen hdr ≤ 64 && tpLen hdr == payload.length
    && tpVer hdr == 1 && cls != 0 && cls ≤ 0xC
  if !ok then h.onChip fun c => c.inc (F.LNK_TP_CRC_ERR p)
  else h.frameTaken p hdr payload

def execTowpathFrameRx (p : Port) (hdr : Word) (payload : List Byte) (crc : BitVec 16) (s : State) : Host.Outcome State Fault Refusal :=
  s.onHub fun h => h.when (h.chip.tpAlive p) (Hub.tpFrameRx p hdr payload crc)

/-! A frame of one class. Each row is the arrival of a whole valid frame (log 32). -/

/-- A frame of a class arrives, as a request or as an answer, where the port's Towpath works. -/
def State.tpFrame (s : State) (p : Port) (cls : Nat) (rsp : Bool) (hdr : Word) (payload : List Byte) : Host.Outcome State Fault Refusal :=
  s.onHub fun h => h.when (h.chip.tpAlive p && tpClass hdr == cls && tpRsp hdr == rsp) (Hub.frameTaken p hdr payload)

/-- HELLO_RX (R113), a request or an answer. -/
def execHelloRx (p : Port) (hdr : Word) (payload : List Byte) (s : State) : Host.Outcome State Fault Refusal :=
  s.tpFrame p 1 (tpRsp hdr) hdr payload

/-- STATUS_REQUEST_RX (R111). -/
def execStatusRequestRx (p : Port) (hdr : Word) (s : State) : Host.Outcome State Fault Refusal := s.tpFrame p 9 false hdr []

/-- RESET_SOFT_RX (R115). -/
def execResetSoftRx (p : Port) (hdr : Word) (payload : List Byte) (s : State) : Host.Outcome State Fault Refusal :=
  s.tpFrame p 0xA false hdr payload

/-- TP_ESCALATION_STATUS_RX (R114). -/
def execTpEscalationStatusRx (p : Port) (hdr : Word) (payload : List Byte) (s : State) : Host.Outcome State Fault Refusal :=
  s.tpFrame p 9 true hdr payload

/-- PWR_OFFER_RX (11 R352, R353). -/
def execPwrOfferRx (p : Port) (hdr : Word) (payload : List Byte) (s : State) : Host.Outcome State Fault Refusal :=
  s.tpFrame p 2 false hdr payload

/-- PWR_REQUEST_RX (11 R353, R354). -/
def execPwrRequestRx (p : Port) (hdr : Word) (payload : List Byte) (s : State) : Host.Outcome State Fault Refusal :=
  s.tpFrame p 3 false hdr payload

/-- PWR_ACCEPT_RX (11 R353). -/
def execPwrAcceptRx (p : Port) (hdr : Word) (payload : List Byte) (s : State) : Host.Outcome State Fault Refusal :=
  s.tpFrame p 4 true hdr payload

/-- PWR_REJECT_RX (11 R354): the request ends; the contract stays. -/
def execPwrRejectRx (p : Port) (hdr : Word) (payload : List Byte) (s : State) : Host.Outcome State Fault Refusal :=
  s.tpFrame p 5 true hdr payload

/-- SWAP_REQ_RX (11 R358). -/
def execSwapReqRx (p : Port) (hdr : Word) (payload : List Byte) (s : State) : Host.Outcome State Fault Refusal :=
  s.tpFrame p 6 false hdr payload

/-- SWAP_ACK_RX (11 R358). -/
def execSwapAckRx (p : Port) (hdr : Word) (payload : List Byte) (s : State) : Host.Outcome State Fault Refusal :=
  s.tpFrame p 7 true hdr payload

/-- FAST_SWAP_MSG_RX (11 R361). -/
def execFastSwapMsgRx (p : Port) (hdr : Word) (payload : List Byte) (s : State) : Host.Outcome State Fault Refusal :=
  s.tpFrame p 8 false hdr payload

/-- A KEYX frame of a type arrives: its first byte (13 Table 13-6). -/
def State.keyxRx (s : State) (p : Port) (type : Nat) (hdr : Word) (payload : List Byte) : Host.Outcome State Fault Refusal :=
  s.onHub fun h => h.when (h.chip.tpAlive p && tpClass hdr == 0xB && fieldAt payload 0 1 == type) (Hub.frameTaken p hdr payload)

/-- KEYX_HELLO_K_RX, KEYX_CONFIRM_RX and KEYX_FAIL_RX (13 R415 to R418). -/
def execKeyxHelloKRx (p : Port) (hdr : Word) (payload : List Byte) (s : State) : Host.Outcome State Fault Refusal := s.keyxRx p 1 hdr payload
def execKeyxConfirmRx (p : Port) (hdr : Word) (payload : List Byte) (s : State) : Host.Outcome State Fault Refusal := s.keyxRx p 2 hdr payload
def execKeyxFailRx (p : Port) (hdr : Word) (payload : List Byte) (s : State) : Host.Outcome State Fault Refusal := s.keyxRx p 3 hdr payload

/-! Frames out (R110). -/

/-- Does the timeout end the escalation with a hard-reset break (R114 events 5 and 10)? -/
def Chip.timeoutBreaks (c : Chip) (p : Port) (seq : Nat) : Bool :=
  match c.requestOf p seq with
  | some r => c.on (F.LNK_CTL_TP_AUTO_HARD p) && (r.stage == .status2 || r.stage == .soft2 || r.stage == .again2)
  | none => false

/-- A break of its own opens a path whose GUARD is set (11 R363). -/
def Hub.tpTimeout (p : Port) (seq : Nat) (h : Hub) : Hub :=
  (h.onChip (Chip.tpTimeout p seq)).when (h.chip.timeoutBreaks p seq) (Hub.guardFail p)

/-- The frame at the head of the queue is sent, or collides (R110): back-off of a random number of 100 µs slots (free value, log 2),
and after 8 collisions the frame is abandoned. -/
def Chip.tpSend (p : Port) (collided : Bool) (c : Chip) : Chip :=
  match c.tp[p].txq with
  | [] => c
  | f :: rest =>
    if c.tp[p].backoff.isSome then c
    else if collided then
      let n := c.tp[p].collisions + 1
      let c := c.inc (F.LNK_TP_COLL p)
      if 8 ≤ n then c.modTp p fun t => { t with txq := rest, collisions := 0 }
      else
        let (slots, c) := c.draw (2 ^ min n 5)
        c.modTp p fun t => { t with collisions := n, backoff := some slots }
    else
      let c := c.emit (.towpath p f.hdr f.payload (crc16 (bitsOf f.hdr ++ bitsOfBytes f.payload)) (tpLine f.hdr f.payload))
      (c.inc (F.LNK_TP_TX p)).modTp p fun t => { t with txq := rest, collisions := 0 }

/-- A request frame that is abandoned is an unanswered attempt, which may end in a break of the hub's own (11 R363). -/
def Hub.frameAbandoned (p : Port) (f : TpFrame) (h : Hub) : Hub :=
  (h.onChip (Chip.abandonedFrame p f)).when (h.chip.timeoutBreaks p (tpSeq f.hdr)) (Hub.guardFail p)

/-- TOWPATH_SEND (R110). The frame that leaves may be the SWAP_ACK that accepts a swap (11 Table 11-6 event 1). -/
def Hub.tpSend (p : Port) (collided : Bool) (h : Hub) : Hub :=
  let t := h.chip.tp[p]
  let free := t.backoff.isNone
  let h := h.onChip (Chip.tpSend p collided)
  match t.txq.head? with
  | some f =>
    let h := h.when (free && collided && decide (8 ≤ t.collisions + 1) && !tpRsp f.hdr) (Hub.frameAbandoned p f)
    h.when (free && !collided && tpRsp f.hdr && tpClass f.hdr == 7 && f.payload == [0#8]) (Hub.swapAckSent p)
  | none => h

def execTowpathSend (p : Port) (collided : Bool) (s : State) : Host.Outcome State Fault Refusal :=
  s.onHub fun h => h.when (h.chip.tpAlive p) (Hub.tpSend p collided)

/-- TOWPATH_BACKOFF_EXPIRY (R110): the frame may be tried again. -/
def execTowpathBackoffExpiry (p : Port) (s : State) : Host.Outcome State Fault Refusal :=
  s.onChip fun c => c.when (c.tpAlive p) fun c => c.modTp p fun t => { t with backoff := none }

/-- HELLO_TX (R113): a HELLO request; an older unanswered one is given up. -/
def execHelloTx (p : Port) (s : State) : Host.Outcome State Fault Refusal :=
  s.onHub fun h => h.when (h.chip.tpAlive p) fun h =>
    let l := h.helloPayload p
    h.onChip fun c => (c.modTp p fun t => { t with requests := t.requests.filter fun r => tpClass r.frame.hdr != 1 }).request p 1 l false false

/-- PARTNER_SEEN_TIMEOUT (R113). -/
def execPartnerSeenTimeout (p : Port) (s : State) : Host.Outcome State Fault Refusal :=
  s.onChip fun c => c.when (c.tpAlive p) fun c => c.put (F.LNK_TP_STATUS_PARTNER_SEEN p) 0

def execTpAnswerTimeout (p : Port) (seq : Byte) (s : State) : Host.Outcome State Fault Refusal :=
  s.onHub fun h => h.when (h.chip.tpAlive p) (Hub.tpTimeout p seq.toNat)

/-- TP_RESTART_WAIT_EXPIRY (R114 event 6): after 100 ms the request goes again from event 0 with a new SEQ. -/
def execTpRestartWaitExpiry (p : Port) (s : State) : Host.Outcome State Fault Refusal :=
  s.onChip fun c => c.when (c.tpAlive p) fun c =>
    match c.tp[p].requests.find? fun r => r.stage == .waitRestart with
    | none => c
    | some r => (c.sendAgain p r .first).put (F.LNK_TP_STATUS_ESC_STAGE p) 1

/-- TP_UNESCALATED_TIMEOUT (R522): 2 ms after the second resend the request ends unanswered. -/
def execTpUnescalatedTimeout (p : Port) (seq : Byte) (s : State) : Host.Outcome State Fault Refusal :=
  s.onChip fun c => c.when (c.tpAlive p) fun c =>
    match c.requestOf p seq.toNat with
    | none => c
    | some r =>
      if r.escalates || r.stage != .retry2 then c
      else c.unanswered p 5 r

/-! The mailbox commands (R109, R112, R115, R117, R119), written through LNK_TP_CMD. -/

/-- Firmware sends a request: its result is pending, under its SEQ. -/
def Chip.fwRequest (p : Port) (hdr : Word) (payload : List Byte) (escalates : Bool) (c : Chip) : Chip :=
  let seq := c.tp[p].nextSeq
  ((c.requestWith p hdr payload true escalates).put (F.LNK_TP_RESULT_RESULT p) 0).put (F.LNK_TP_RESULT_SEQ p) seq

/-- SEND (R109): the header goes as the firmware wrote it, but that a request takes the next SEQ; the copy of an answer is kept (R112).
The access path has refused a LEN above 64. -/
def Chip.tpMailSend (p : Port) (c : Chip) : Chip :=
  let hdr := BitVec.ofNat 32 (c.get (F.LNK_TP_TXHDR p))
  let bytes := ((List.range 16).flatMap fun k => beBytes 4 (c.get (F.LNK_TP_TXBUF p k))).take (tpLen hdr)
  if tpRsp hdr then c.sendAnswerFw p hdr bytes
  else
    let esc := c.on (F.LNK_TP_STATUS_PARTNER_SEEN p) && tpClass hdr != 1
    (c.fwRequest p hdr bytes esc).offerSent p (tpClass hdr) bytes

/-- STATUS_REQ (R119, R522); the frame's HW bit is 0, as firmware asks for it. Marks: DESIGN CHOICE, log 81. -/
def Chip.tpStatusReq (p : Port) (c : Chip) : Chip := c.fwRequest p (tpHeader 9 0 0 false false false) [] false

/-- SOFT_RESET (R115, R522): RESET_SOFT with SOFT_SCOPE. Marks: DESIGN CHOICE, log 81. -/
def Chip.tpSoftReset (p : Port) (c : Chip) : Chip :=
  c.fwRequest p (tpHeader 0xA 0 1 false false false) [BitVec.ofNat 8 (c.get (F.LNK_TP_CMD_SOFT_SCOPE p))] false

/-- RX_RELEASE (R119). -/
def Chip.tpRelease (p : Port) (c : Chip) : Chip := c.modTp p fun t => { t with mailboxFull := false }

/-- The actions of a write of LNK_TP_CMD, whose bits `w` holds, in the order of the bits; a hard-reset break opens a path whose
GUARD is set (11 R363). While TP_EN is clear they do nothing. Marks: DESIGN CHOICE, log 81. -/
def Hub.tpCommand (p : Port) (w : Word) (h : Hub) : Hub :=
  h.when (h.chip.tpAlive p) fun h =>
    let h := h.onChip fun c =>
      let c := c.when (w.getLsbD 0) (Chip.tpMailSend p)
      let c := c.when (w.getLsbD 1) (Chip.tpStatusReq p)
      c.when (w.getLsbD 2) (Chip.tpSoftReset p)
    let h := h.when (w.getLsbD 4) fun h => (h.onChip (Chip.sendBreak p none)).guardFail p
    h.onChip fun c => c.when (w.getLsbD 5) (Chip.tpRelease p)

/-! The hard-reset break received (R22, R117, R118). -/

/-- HARD_RESET_BREAK_RX: a break wakes a hub in Deep sleep (15 R460), and a recognised one opens a path whose GUARD is set (11 R363). It
is ignored and counted while the port's guard runs; otherwise a cold reset of the digital core, held until the break ends. Marks: DEDUCED, log 32. -/
def Hub.breakRx (p : Port) (h : Hub) : Hub :=
  let h := h.when (h.chip.pst.deep && h.chip.bit F.PWR_WAKE_EN (5 + p.val)) fun h => h.onChip (Chip.deepWake (5 + p.val))
  if h.chip.pst.deep || !h.chip.rst.admits .cold then h
  else if h.chip.on (F.LNK_TP_STATUS_BREAK_GUARD p) then
    (h.guardFail p).onChip fun c => (c.inc (F.LNK_TP_BREAK_IGN p)).flag (F.LNK_INT_STATUS_TP_BREAK_IGNORED p)
  else
    let h := h.coldReset 2
    h.onChip fun c => { c with rst := { c.rst with breakPort := some p.val } }

/-- HARD_RESET_BREAK_RX (R117, R118): `fresh` says that the line was idle for 1 ms before the tone. What goes on of a tone that outlasted
its reset is ignored; with TP_EN clear no break is recognised. Marks: DESIGN CHOICE, log 81. -/
def execHardResetBreakRx (p : Port) (fresh : Bool) (s : State) : Host.Outcome State Fault Refusal :=
  s.onHub fun h => h.when (h.chip.on (F.LNK_CTL_TP_EN p) && (fresh || !h.chip.rst.toneLeft[p])) fun h =>
    (h.onChip (Chip.lineIdle p)).breakRx p

/-- BREAK_RESET_RELEASE (R117, R118): the break-caused reset may end, and the port's 10 s guard starts; a tone that has not ended after
9 ms keeps the line busy and is ignored from here on. -/
def execBreakResetRelease (p : Port) (toneEnded : Bool) (s : State) : Host.Outcome State Fault Refusal :=
  s.onChip fun c => c.when (c.rst.breakPort == some p.val) fun c =>
    let c := ({ c with rst := { c.rst with breakPort := none, toneLeft := upd c.rst.toneLeft p fun _ => !toneEnded } })
    (c.put (F.LNK_TP_STATUS_BREAK_GUARD p) 1).put (F.LNK_TP_STATUS_LINE_BUSY p) (!toneEnded).toNat

/-- BREAK_GUARD_EXPIRY (R118). -/
def execBreakGuardExpiry (p : Port) (s : State) : Host.Outcome State Fault Refusal :=
  s.onChip fun c => c.put (F.LNK_TP_STATUS_BREAK_GUARD p) 0

end Sys2Proof.Machine
end

