-- ==== Sys2Proof/Machine/Trunk.lean ====
section
/-! DEFINITION. Trunk lanes (02): bring-up, snapshots and the margin governor, spans and lock markers, codewords and
fillers, lanes. Rate shifts stand in Shift.lean. -/

namespace Sys2Proof.Machine

/-! Bring-up (R46 to R49). -/

/-- BRINGUP_START (R46 event 5): every enabled port starts transmitting PRBS13 at S1 and begins echo training. -/
def Chip.bringupAll (c : Chip) : Chip :=
  c.each ports fun p c => c.when (c.on (F.TRK_CTL_EN p) && !c.on (F.TRK_CTL_TEST_MODE p) && c.get (F.TRK_STATUS_PHASE p) == phaseOff)
    (Chip.startBringup p)

def execBringupStart (s : State) : Host.Outcome State Fault Refusal :=
  s.onChip fun c => c.when c.running Chip.bringupAll

/-- ECHO_TRAINING_END (R46 event 7). -/
def execEchoTrainingEnd (p : Port) (s : State) : Host.Outcome State Fault Refusal :=
  s.onChip fun c => c.when (c.get (F.TRK_STATUS_PHASE p) == phaseEcho) fun c => c.put (F.TRK_STATUS_PHASE p) phaseAcquire

/-- Takes a measured frequency difference (R42); TRK_STATUS.PPM shows it, saturating at its field. Marks: DEDUCED, log 76. -/
def Chip.showPpm (p : Port) (ppm : Int) (c : Chip) : Chip :=
  (c.modTrk p fun t => { t with ppm := ppm }).putS (F.TRK_STATUS_PPM p) (max (-512) (min 511 ppm))

/-- The hub's own half of the handshake (R46 event 8). -/
def Chip.ownHello (c : Chip) (p : Port) : PartnerHello := {
  serial := BitVec.ofNat 64 c.serial, stepMax := BitVec.ofNat 3 (c.get (F.TRK_CTL_STEP_MAX p))
  singleLane := c.on (F.TRK_CTL_SINGLE_LANE_EN p), quiet := c.on (F.TRK_CTL_QUIET_EN p)
  precode := BitVec.ofNat 5 (c.get (F.TRK_CTL_PRECODE p)) }

/-- PARTNER_ACQUIRED (R46 events 7 and 8): clock recovery locks, the frequency difference is measured (R42), and the hub's half of
the handshake goes out. PPM shows the difference within its field. -/
def execPartnerAcquired (p : Port) (ppm : Int) (s : State) : Host.Outcome State Fault Refusal :=
  s.onChip fun c => c.when (c.get (F.TRK_STATUS_PHASE p) == phaseAcquire) fun c =>
    let c := (c.put (F.TRK_STATUS_PHASE p) phaseHandshake).showPpm p ppm
    let c := c.each lanes fun l c => c.when (!c.laneOut p l) fun c =>
      (c.put (laneRxLock p l) 1).put (laneLos p l) 0
    let h := c.ownHello p
    (c.modTrk p fun t => { t with sentPrecode := h.precode }).emit (.hello p h)

/-- A bring-up attempt is refused (R42, R48): PROTOCOL sets, and bring-up restarts after 1 s, or after 60 s from the
third failure on (R49). -/
def Chip.refuseLink (p : Port) (c : Chip) : Chip :=
  (c.flag (F.TRK_INT_STATUS_PROTOCOL p)).bringupFailed p true

/-- The link comes up at S1 (R46 event 8, 03 Per-hop replay): lanes active, the partner's capabilities kept, span 0. -/
def Chip.linkUp (p : Port) (h : PartnerHello) (c : Chip) : Chip :=
  let both := !c.laneOut p 0 && !c.laneOut p 1
  let tx := if both then 0 else if c.laneOut p 0 then 2 else 1
  let c := c.put (F.TRK_PARTNER_LO p) (h.serial.toNat % 2 ^ 32)
  let c := c.put (F.TRK_PARTNER_HI p) (h.serial.toNat / 2 ^ 32)
  let c := c.put (F.TRK_PARTNER_CAP_STEP_MAX p) h.stepMax.toNat
  let c := c.put (F.TRK_PARTNER_CAP_SINGLE_LANE_EN p) h.singleLane.toNat
  let c := c.put (F.TRK_PARTNER_CAP_QUIET_EN p) h.quiet.toNat
  let c := c.put (F.TRK_PARTNER_CAP_PRECODE p) h.precode.toNat
  let c := c.put (F.TRK_STATUS_PARTNER_CAP p) h.stepMax.toNat
  let c := c.put (F.TRK_STATUS_STEP p) 1
  let c := c.put (F.TRK_STATUS_LINK_UP p) 1
  let c := c.put (F.TRK_STATUS_LANES p) (lanesShown tx)
  let c := c.put (F.TRK_STATUS_PHASE p) phaseProbe
  let c := c.put (F.TRK_STATUS_PRECODE_ON p) (h.precode.getLsbD 0).toNat
  let c := c.each lanes fun l c => c.when (!c.laneOut p l) fun c => c.put (laneState p l) laneActive
  let c := c.flag (F.TRK_INT_STATUS_LINK_UP p)
  let c := c.put (F.TRK_SPAN p) 0
  let c := c.modTrk p fun t => { t with
    upAt := c.now, wait := .none, txLanes := tx, rxLanes := tx, training := false, rxSpan := 0, rxSeen := false, rxStep := 1 }
  let c := c.modPcs p fun x => { x with
    lane := x.lane.map (fun y => { y with fill := [], got := [] }), blk := 0, waiting := [], sinceFiller := 0, change := none, rxq := []
    rxSpan := 0, rxBlk := 0, rxChange := none }
  let c := c.linkReset p
  let c := (c.when (c.alarmStands 0x10 p.val) fun c => c.raiseLink p 0x10 0 true).partnerBack p
  c.sendMarkers p

/-- HANDSHAKE (R46 event 8, R42, R48). With a lane that BIST has failed, the link comes up only where single-lane degrade is
permitted at both ends (R68, 14 R436). -/
def execHandshake (p : Port) (partner : PartnerHello) (s : State) : Host.Outcome State Fault Refusal :=
  s.onChip fun c => c.when (c.get (F.TRK_STATUS_PHASE p) == phaseHandshake) fun c =>
    if c.trk[p].ppm.natAbs > 250 then c.refuseLink p
    else if partner.serial.toNat = c.serial then c.refuseLink p
    else if (c.laneHeld p 0 || c.laneHeld p 1) && !(c.on (F.TRK_CTL_SINGLE_LANE_EN p) && partner.singleLane) then c.bringupFailed p true
    else c.linkUp p partner

/-- LISTENING_ENTER (R47): no partner signal for 1 s while the port trains. A bring-up that has lost its partner in the handshake has
failed (R49). Marks: DEDUCED, log 31. -/
def execListeningEnter (p : Port) (s : State) : Host.Outcome State Fault Refusal :=
  s.onChip fun c =>
    let ph := c.get (F.TRK_STATUS_PHASE p)
    c.when (ph == phaseAcquire || ph == phaseEcho || ph == phaseHandshake) fun c =>
      let c := c.each lanes fun l c => (c.put (laneRxLock p l) 0).put (laneLos p l) 1
      let n := c.trk[p].fails + (ph == phaseHandshake).toNat
      (c.put (F.TRK_STATUS_PHASE p) phaseListen).modTrk p fun t => { t with
        fails := n, training := false, wait := if ph == phaseHandshake && 3 ≤ n then .sixtySeconds else t.wait }

/-- LISTEN_BURST (R47): a 10 ms PRBS13 burst while listening. -/
def execListenBurst (p : Port) (s : State) : Host.Outcome State Fault Refusal :=
  s.onChip fun c => c.when (c.get (F.TRK_STATUS_PHASE p) == phaseListen) fun c => c.emit (.prbs p true)

/-- PARTNER_ENERGY (R47, R49): continuous transmission resumes at acquisition; a signal that has been present for 100 ms also ends
the 60 s wait. -/
def execPartnerEnergy (p : Port) (ms : Nat) (s : State) : Host.Outcome State Fault Refusal :=
  s.onChip fun c =>
    let waits := c.trk[p].wait == .sixtySeconds && decide (ms < 100)
    c.when (c.get (F.TRK_STATUS_PHASE p) == phaseListen && !waits) fun c =>
      (((c.put (F.TRK_STATUS_PHASE p) phaseAcquire).lanesTrain p).emit (.prbs p false)).modTrk p fun t =>
        { t with training := true, wait := .none }

/-- BRINGUP_BACKOFF_EXPIRY (R42, R48, R49): the wait between attempts ends and bring-up starts again. -/
def execBringupBackoffExpiry (p : Port) (s : State) : Host.Outcome State Fault Refusal :=
  s.onChip fun c => c.when (c.trk[p].wait != .none && c.on (F.TRK_CTL_EN p)) (Chip.startBringup p)

/-! Snapshots, margins and water ingress (R50, R51, R56). -/

/-- Has the return loss of a discontinuity, or the insertion loss at the Nyquist frequency of the step, worsened by WET_DELTA since any
snapshot of the window (R56)? A discontinuity that a snapshot did not show counts with the least reflection that shows, and
the loss of a snapshot at another step, being that of another frequency, is left out. Marks: DESIGN CHOICE, log 76. -/
def wetNow (delta : Int) (step : Nat) (old : List (Nat × Nat × Int × List (Nat × Int))) (sn : Snapshot) : Bool :=
  old.any fun o =>
    (o.2.1 == step && decide (sn.loss - o.2.2.1 ≥ delta))
      || sn.reflections.any fun r => decide (((o.2.2.2.find? fun q => q.1 == r.1).map Prod.snd).getD 1020 - r.2 ≥ delta)

/-- The discontinuity with the least return loss. -/
def worstReflection (l : List (Nat × Int)) : Option (Nat × Int) :=
  l.foldl (fun b r => match b with | none => some r | some q => if r.2 < q.2 then some r else b) none

/-- The bring-up climb (R46 event 10): one step up at a time while the worse lane's predicted margin at the next step is
at least ACCEPT_MARGIN, the caps of R45 allow and no hold-off runs against it (R53); it stops at the first step that fails. WET does not
hold it back. Marks: DESIGN CHOICE, log 76. -/
def Chip.climb (p : Port) (c : Chip) : Chip :=
  let next := c.get (F.TRK_STATUS_STEP p) + 1
  if c.shiftIdle p then
    if next ≤ c.stepCap p && c.portPredicted p next ≥ (c.get (F.TRK_GOV_CFG_ACCEPT_MARGIN p) : Int) && !c.heldOff p next
    then (c.put (F.TRK_STATUS_PHASE p) phaseClimb).propose p next 8
    else c.put (F.TRK_STATUS_PHASE p) phaseRunning
  else c

/-- CHANNEL_SNAPSHOT (R50, R51, R56): the SNRs and coefficient sets are stored, the cable estimates shown, and
water ingress detected; the governor evaluates its limits (R78), and the probe of bring-up ends with the first step of the climb (R46
events 9 and 10). -/
def Chip.snapshot (p : Port) (sn : Snapshot) (c : Chip) : Chip :=
  let window := c.get (F.TRK_WET_CFG_WET_WINDOW p) * second
  let step := c.get (F.TRK_STATUS_STEP p)
  let old := c.trk[p].snaps.filter fun o => c.now ≤ o.1 + window
  let wet := wetNow (c.get (F.TRK_WET_CFG_WET_DELTA p)) step old sn
  let c := c.modTrk p fun t => { t with
    snrs := [sn.a.predicted, sn.b.predicted], snrNow := #v[some sn.a.snr, some sn.b.snr], coefs := [sn.a.coefs, sn.b.coefs]
    coefAt := some c.now, snaps := old ++ [(c.now, step, sn.loss, sn.reflections)] }
  let c := c.showPort p
  let c := c.put (F.TRK_MOOR_STATUS_COEF_VALID p) 1
  let c := (c.put (F.TRK_MOOR_STATUS_COEF_AGE p) 0).put (F.TRK_MOOR_STATUS_COEF_DTEMP p) 0
  let c := c.put (F.TRK_CABLE_LENGTH_M p) (min sn.lengthM 0xFFF)
  let c := c.when wet fun c =>
    let first := !c.on (F.TRK_STATUS_WET p)
    let c := (c.put (F.TRK_STATUS_WET p) 1).flag (F.TRK_INT_STATUS_WET p)
    let c := match worstReflection sn.reflections with
      | some (d, rl) => (c.put (F.TRK_CABLE_REFL_M p) (min d 0xFFF)).put (F.TRK_CABLE_REFL_RL p) (min (rl / 4).toNat 0xFF)
      | none => c
    c.when first fun c => c.raiseLink p 0x12 0
  if c.get (F.TRK_STATUS_PHASE p) == phaseProbe then c.climb p else c.enforceLimits p

/-- A port that listens shows the distance of the open end's reflection (R74). -/
def execChannelSnapshot (p : Port) (snap : Snapshot) (s : State) : Host.Outcome State Fault Refusal :=
  s.onChip fun c => c.when c.running fun c =>
    if c.on (F.TRK_STATUS_LINK_UP p) then c.snapshot p snap
    else c.when (c.get (F.TRK_STATUS_PHASE p) == phaseListen) fun c => c.put (F.TRK_CABLE_LENGTH_M p) (min snap.lengthM 0xFFF)

/-- WET_CLEAR (R56). -/
def Chip.wetClear (p : Port) (c : Chip) : Chip :=
  c.when (c.on (F.TRK_STATUS_WET p)) fun c =>
    (c.put (F.TRK_STATUS_WET p) 0).when (c.alarmStands 0x12 p.val) fun c => c.raiseLink p 0x12 0 true

/-- CLIMB_DWELL_EXPIRY (R46 event 10): the dwell after a climb shift ends, and the next step is proposed or the climb stops. -/
def execClimbDwellExpiry (p : Port) (s : State) : Host.Outcome State Fault Refusal :=
  s.onChip fun c => c.when (c.running && c.on (F.TRK_STATUS_LINK_UP p) && c.get (F.TRK_STATUS_PHASE p) == phaseClimb) (Chip.climb p)

/-! Spans, markers, codewords and fillers (R34 to R42). -/

/-- Does the port send fillers and lock markers: its link is up, or the PHY keeps its lanes although LNK_CTL.EN has ended the
link (03 R523)? -/
def Chip.phyCarries (c : Chip) (p : Port) : Bool := c.on (F.TRK_STATUS_LINK_UP p) || decide (phaseProbe ≤ c.get (F.TRK_STATUS_PHASE p))

/-- A new span begins (R37): its markers go out, then the blocks that waited. A switch that is due takes place at the first codeword-group
boundary from the span's first marker on (R62): before the markers where that is the boundary, otherwise once the group has ended. QNEXT of
the last span takes the direction off lane B at that boundary too (R70). Marks: DEDUCED, log 75. -/
def Chip.spanBegin (p : Port) (c : Chip) : Chip :=
  let waited := c.pcs[p].waiting
  let leaves := c.trk[p].qsent
  let c := (c.inc (F.TRK_SPAN p)).modPcs p fun x => { x with blk := 0, waiting := [] }
  let c := (c.when (c.pcs[p].groupFill == 0) (Chip.switchIfDue p)).when leaves fun c =>
    (c.modTrk p fun t => { t with qnext := false, qsent := false }).changeAtBoundary p 0 { laneChangeTo 1 with quiet := true }
  let c := ((c.laneChangeDue p).sendMarkers p).each waited (Chip.pcsSend p)
  c.when (c.pcs[p].groupFill == 0) (Chip.switchIfDue p)

/-- SPAN_START (R37): the span ends with its 4,096th port block, the span number advances and the span's markers are sent. -/
def execSpanStart (p : Port) (s : State) : Host.Outcome State Fault Refusal :=
  s.onChip fun c => c.when (c.phyCarries p && !c.mooredPort p) fun c =>
    (c.pcsFill p (4096 - c.pcs[p].blk)).spanBegin p

/-- LOCK_MARKER_RX (R39, R45, R72, R106, 13 R420): the first copy whose CRC holds gives the fields; where both fail the
span count runs on and the loss is counted. A STEP_CAP that is no step leaves the last one. -/
def Chip.markerRx (p : Port) (copies : List Block) (c : Chip) : Chip :=
  let c := c.each copies (Chip.takeBlock p)
  match (copies.filterMap Marker.decode).head? with
  | none =>
    (c.modTrk p fun t => { t with rxSpan := (t.rxSpan + 1) % 2 ^ 32, lastMarker := none }).protoError p
  | some m =>
    let skipped := c.trk[p].rxSeen && m.span.toNat != (c.trk[p].rxSpan + 1) % 2 ^ 32
    let capped := decide (1 ≤ m.stepCap.toNat ∧ m.stepCap.toNat ≤ 5)
    let bad := m.copy.toNat == 3 || m.lanes.toNat == 3 || m.shOp.toNat > 4 || !capped
    let c := c.modTrk p fun t => { t with rxSpan := m.span.toNat, rxSeen := true, lastMarker := some m, moorSeen := m.moorRdy }
    let c := c.when capped fun c => c.put (F.TRK_STATUS_PARTNER_CAP p) m.stepCap.toNat
    let c := c.when (skipped || bad) (Chip.protoError p)
    (c.markerEpoch p m).enforceLimits p

def execLockMarkerRx (p : Port) (copies : List Block) (s : State) : Host.Outcome State Fault Refusal :=
  s.onChip fun c => c.when (c.on (F.TRK_STATUS_LINK_UP p)) (Chip.markerRx p copies)

/-- A received block goes on, is deleted, or is discarded and counted (R34, R41, 03 R100). -/
def Chip.rxTake (p : Port) (b : Block) (c : Chip) : Chip :=
  match rxBlock b with
  | .on => c.modPcs p fun x => { x with rxq := x.rxq ++ [b] }
  | .deleted => c
  | .reservedPcs => c.protoError p
  | .reservedLink => c.linkProto p

/-- Lane control blocks that come on a lane which carries no port blocks (R68), once each; whatever else came there is no block of the
stream. What a lane brings that is about to join is kept. -/
def Chip.rxSide (p : Port) (l : LaneId) (c : Chip) : Chip :=
  c.when ((c.pcs[p].rxChange.map fun x => x.2.2) != some 0) fun c =>
    let found := ((c.pcs[p].lane[l].got.filterMap id).filter fun b => b.getLsbD 256 && btypeOf b == 0x02).eraseDups
    (c.modLane p l fun y => { y with got := [] }).modPcs p fun x => { x with rxq := x.rxq ++ found }

/-- The next port block goes on (R36), or is known to be lost: its codeword was uncorrectable (R35), or its lane has no lock, or is a
codeword behind the other. None while it has not come. Marks: DESIGN CHOICE, log 75. -/
def Chip.rxOne (p : Port) (c : Chip) : Option Chip :=
  let c := c.rxChangeDue p
  let l := dealLane c.trk[p].rxLanes c.pcs[p].rxBlk
  match c.pcs[p].lane[l].got with
  | some b :: rest => some ((((c.modLane p l fun y => { y with got := rest }).rxMarker p b).rxTake p b).rxAdvance p)
  | none :: rest => some ((c.modLane p l fun y => { y with got := rest }).rxAdvance p)
  | [] =>
    let other := c.pcs[p].lane[otherLane l].got
    let lost := c.trk[p].rxLanes == 0 && !other.isEmpty && (!c.on (laneRxLock p l) || decide (20 < other.length))
    if lost then some (c.rxAdvance p) else none

/-- Port blocks go on, up to `n`, until one has not come. -/
def Chip.rxRun (p : Port) : Nat → Chip → Chip
  | 0, c => c
  | n + 1, c => match c.rxOne p with
    | some c => Chip.rxRun p n c
    | none => c

/-- The blocks of the lanes go on in port order (R36). -/
def Chip.rxOrder (p : Port) (c : Chip) : Chip :=
  let n := 2 * (c.pcs[p].lane[0].got.length + c.pcs[p].lane[1].got.length)
  if !c.on (F.TRK_STATUS_LINK_UP p) then c.each lanes fun l c => c.modLane p l fun y => { y with got := [] }
  else
    let c := c.rxRun p n
    c.when (c.trk[p].rxLanes != 0) (Chip.rxSide p (if c.trk[p].rxLanes = 2 then 0 else 1))

/-- The decoder takes the decided symbol indices of a codeword (R35, 03 R93): corrected symbols are counted; an uncorrectable codeword
makes the link receiver send a NAK for EXPECT with cause UNCORR. -/
def Chip.rxCodeword (p : Port) (lane : LaneId) (precoded : Bool) (idx : List Nat) (c : Chip) : Chip :=
  let (r, st) := decodeCodeword c.pcs[p].lane[lane].descr precoded idx
  let got := match r with
    | some (blocks, _) => blocks.map some
    | none => List.replicate 20 none
  let c := c.modLane p lane fun y => { y with
    descr := st, got := y.got ++ got, count := y.count + 1
    bad := (y.bad ++ if r.isNone then [y.count] else []).filter fun n => decide (y.count < n + 1000) }
  let c := match r with
    | some (_, 0) => c
    | some (_, n) => (c.inc (F.TRK_CW_CORR p)).add (F.TRK_SYM_CORR p) n
    | none => (c.inc (F.TRK_CW_UNCORR p)).when (c.on (F.TRK_STATUS_LINK_UP p)) fun c => c.sendNak p 3
  c.rxOrder p

/-- The checker takes symbols (R76). -/
def Chip.check (p : Port) (idx : List Nat) (c : Chip) : Chip :=
  let k : Checker := { past := c.pcs[p].chk, locked := c.on (F.TRK_TEST_ERR_CHK_LOCK p), errors := c.get (F.TRK_TEST_ERR_ERRORS p) }
  let k := idx.foldl (Checker.take (c.get (F.TRK_TEST_CTL_PATTERN p))) k
  ((c.modPcs p fun x => { x with chk := k.past }).put (F.TRK_TEST_ERR_CHK_LOCK p) k.locked.toNat).put (F.TRK_TEST_ERR_ERRORS p) k.errors

/-- Is a code of TRK_TEST_CTL.PATTERN a pattern (R76)? -/
def isPatternCode (pat : Nat) : Bool := decide (1 ≤ pat ∧ pat ≤ 5)

/-- A lane under test receives as many symbols as a codeword has (R76, R77): a far-end loopback sends them on; a near-end one gives the
decoder, or the checker, what the hub itself sends in their place. Marks: DESIGN CHOICE, log 78. -/
def Chip.testRx (p : Port) (lane : LaneId) (idx : List Nat) (c : Chip) : Chip :=
  let pat := c.get (F.TRK_TEST_CTL_PATTERN p)
  let precoded := (c.get (F.TRK_CTL_PRECODE p)).testBit (c.get (F.TRK_TEST_CTL_STEP p) - 1)
  let checks := c.on (F.TRK_TEST_CTL_CHK_EN p) && isPatternCode pat
  let ownCodeword := fun (c : Chip) =>
    let (own, st) := encodeCodeword c.pcs[p].lane[lane].scr precoded (List.replicate 20 fillerBlock)
    (c.modLane p lane fun y => { y with scr := st }).rxCodeword p lane precoded own
  match c.get (F.TRK_TEST_CTL_LOOP p) with
  | 1 => ownCodeword c
  | 2 =>
    if c.on (F.TRK_TEST_CTL_TX_EN p) && isPatternCode pat then
      let own := patternRun pat idx.length c.pcs[p].gen
      (c.modPcs p fun x => { x with gen := (own.reverse ++ x.gen).take 64 }).when checks (Chip.check p own)
    else ownCodeword c
  | 3 => (c.emit (.looped p lane (idx.map lineLevel))).when checks (Chip.check p idx)
  | _ => if checks then c.check p idx else c.rxCodeword p lane precoded idx

/-- CODEWORD_RX (R35; R75 to R77). The receiver undoes the precoding that this end has asked for at the step it receives (R32). -/
def execCodewordRx (p : Port) (lane : LaneId) (symbols : List Nat) (s : State) : Host.Outcome State Fault Refusal :=
  s.onChip fun c =>
    let idx := symbols.map (· % 4)
    if c.on (F.TRK_CTL_TEST_MODE p) then c.when (lane.val == c.get (F.TRK_TEST_CTL_LANE_SEL p)) (Chip.testRx p lane idx)
    else c.when (c.on (laneRxLock p lane)) fun c =>
      c.rxCodeword p lane (c.trk[p].sentPrecode.getLsbD (c.trk[p].rxStep - 1)) idx

/-- ELASTIC_SLIP (R42): a slip on a running link is counted, loses at most one block and nothing else happens to the link. -/
def execElasticSlip (p : Port) (ppm : Int) (s : State) : Host.Outcome State Fault Refusal :=
  s.onChip fun c => c.when (c.on (F.TRK_STATUS_LINK_UP p)) fun c =>
    ((c.showPpm p ppm).modPcs p fun x => { x with rxq := x.rxq.dropLast }).inc (F.TRK_SLIP p)

/-- FILLER_DUE (R41): `idle` port blocks pass with nothing ready; with none, one filler goes out where 2,047 blocks have gone without.
Marks: DESIGN CHOICE, log 75. -/
def execFillerDue (p : Port) (idle : Nat) (s : State) : Host.Outcome State Fault Refusal :=
  s.onChip fun c => c.when (c.phyCarries p) fun c =>
    if idle = 0 then
      c.when (2047 ≤ c.pcs[p].sinceFiller) (Chip.pcsSend p fillerBlock)
    else c.pcsFill p idle

/-! Lanes (R66 to R73). -/

/-- LANE_LOSS_OF_SIGNAL (R67, R68). -/
def execLaneLossOfSignal (p : Port) (lane : LaneId) (s : State) : Host.Outcome State Fault Refusal :=
  s.onChip fun c => c.when (c.laneLive p lane) fun c => ((c.put (laneRxLock p lane) 0).put (laneLos p lane) 1).laneFail p lane

/-- A LANE_DOWN is received (R68, R69): dealing moves to the surviving lane at the next codeword-group boundary, the partner's at the block
named, and the lane has failed at this end too (14 Table 14-5); without single-lane degrade at both ends, or without the other lane, the
link drops. Of a lane that joins it ends the attempt. Marks: DEDUCED, log 31. -/
def Chip.laneDownRx (p : Port) (lane : LaneId) (sp bl : Nat) (c : Chip) : Chip :=
  let other := otherLane lane
  if c.laneLive p lane then
    if c.singlePermitted p && c.laneLive p other then
      let c := ((c.put (laneState p lane) laneFailed).flag (F.TRK_INT_STATUS_LANE_FAIL p)).put (laneState p other) laneActive
      let c := c.modTrk p fun t => { t with
        qnext := false, qsent := false, txQuiet := false, joinTries := upd t.joinTries lane fun _ => 0 }
      ((c.rxChangeAt p sp bl (other.val + 1)).changeAtBoundary p 0 (laneChangeTo (other.val + 1))).raiseLink p 0x11 lane.val
    else c.linkLost p
  else
    let c := c.modPcs p fun x => { x with
      change := x.change.filter fun y => y.joins != some lane, rxChange := x.rxChange.filter fun y => y.2.2 != 0 }
    c.when (c.get (laneState p lane) == laneTraining) fun c => c.put (laneState p lane) laneFailed

/-- A LANE_JOIN is received (R69): the partner deals to both lanes from the block named. A lane that has locked follows, and says so by a
LANE_JOIN of its own that names a codeword-group boundary at least 50 µs ahead; otherwise the answer is LANE_DOWN and the attempt ends.
Marks: DESIGN CHOICE, log 78. -/
def Chip.laneJoinRx (p : Port) (lane : LaneId) (locked : Bool) (sp bl : Nat) (c : Chip) : Chip :=
  if c.laneLive p lane || c.pcs[p].change.isSome then c.rxChangeAt p sp bl 0
  else if locked && c.get (laneState p lane) == laneTraining then
    (c.rxChangeAt p sp bl 0).announceChange p 0x02 lane (c.portBlocksIn p 50_000) { laneChangeTo 0 with joins := some lane }
  else
    let c := c.announceChange p 0x01 lane 0 (laneChangeTo c.trk[p].txLanes)
    c.when (c.get (laneState p lane) == laneTraining) fun c => c.put (laneState p lane) laneFailed

/-- The transmitter wakes lane B (R71): WAKE_B goes out on lane A, naming the first group boundary at least 4 µs later, and both lanes are
dealt to from there. -/
def Chip.wakeLaneB (p : Port) (c : Chip) : Chip :=
  let c := c.announceChange p 0x03 1 (c.portBlocksIn p 4_000) (laneChangeTo 0)
  (c.modTrk p fun t => { t with txQuiet := false }).put (laneState p 1) laneActive

/-- A WAKE_B is received (R71, Table 02-9): the partner deals to both lanes from the block named, lane B is Active, and this end's
transmitter, if it has left lane B, resumes there as well. Marks: DEDUCED, log 78. -/
def Chip.wakeRx (p : Port) (sp bl : Nat) (c : Chip) : Chip :=
  let c := (c.rxChangeAt p sp bl 0).when (c.get (laneState p 1) == laneQuiet) fun c => c.put (laneState p 1) laneActive
  c.when (c.trk[p].txQuiet && c.laneLive p 1 && c.pcs[p].change.isNone) (Chip.wakeLaneB p)

/-- A lane control block is received (R40): one whose CRC fails is ignored, and a reserved OP is a protocol violation (Table 02-10). -/
def Chip.laneCtlRx (p : Port) (ctl : Block) (locked : Bool) (c : Chip) : Chip :=
  if !c.on (F.TRK_STATUS_LINK_UP p) then c
  else
    let c := c.takeBlock p ctl
    match laneCtlDecode ctl with
    | none => c
    | some (0x01, l, sp, bl) => c.laneDownRx p (laneOfBit l) sp bl
    | some (0x02, l, sp, bl) => c.laneJoinRx p (laneOfBit l) locked sp bl
    | some (0x03, _, sp, bl) => c.wakeRx p sp bl
    | some _ => c.protoError p

/-- LANE_DOWN_RX (R68, R69). -/
def execLaneDownRx (p : Port) (ctl : Block) (s : State) : Host.Outcome State Fault Refusal := s.onChip (Chip.laneCtlRx p ctl false)

/-- LANE_JOIN_ATTEMPT (R69): both ends train the failed lane at the port's step, from the stored coefficients. -/
def execLaneJoinAttempt (p : Port) (lane : LaneId) (s : State) : Host.Outcome State Fault Refusal :=
  s.onChip fun c => c.when (c.on (F.TRK_STATUS_LINK_UP p) && c.get (laneState p lane) == laneFailed && !c.laneOut p lane) fun c =>
    (c.modTrk p fun t => { t with
      joinTries := upd t.joinTries lane (· + 1)
      coefs := t.coefs.zipIdx.map fun x => if x.2 = lane.val then loadSet (c.get (F.TRK_STATUS_STEP p)) x.1 else x.1 }).put (laneState p lane) laneTraining

/-- LANE_JOIN_LOCKED (R69): the end that first locks names a group boundary at least 50 µs ahead on the surviving lane, and the
lane carries blocks from there; a lane that has not locked when the training limit passes has failed again. -/
def execLaneJoinLocked (p : Port) (lane : LaneId) (locked : Bool) (s : State) : Host.Outcome State Fault Refusal :=
  s.onChip fun c => c.when (c.on (F.TRK_STATUS_LINK_UP p) && c.get (laneState p lane) == laneTraining && c.pcs[p].change.isNone) fun c =>
    if locked then c.announceChange p 0x02 lane (c.portBlocksIn p 50_000) { laneChangeTo 0 with joins := some lane }
    else c.put (laneState p lane) laneFailed

/-- LANE_JOIN_RX (R69): `locked` says whether this end's receiver has locked by the named boundary. -/
def execLaneJoinRx (p : Port) (ctl : Block) (locked : Bool) (s : State) : Host.Outcome State Fault Refusal :=
  s.onChip (Chip.laneCtlRx p ctl locked)

/-- QUIET_ENTER (R70): with QUIET_EN at both ends, a barge load that has stayed below ENTER_UTIL for ENTER_TIME makes the transmitter
set QNEXT; lane B is quiet from the next span. -/
def execQuietEnter (p : Port) (util : Nat) (s : State) : Host.Outcome State Fault Refusal :=
  s.onChip fun c =>
    c.when (c.on (F.TRK_STATUS_LINK_UP p) && c.on (F.TRK_CTL_QUIET_EN p) && c.on (F.TRK_PARTNER_CAP_QUIET_EN p)
        && c.get (laneState p 1) == laneActive && c.trk[p].txLanes == 0 && c.pcs[p].change.isNone
        && util < c.get (F.TRK_QUIET_CFG_ENTER_UTIL p)) fun c =>
      c.modTrk p fun t => { t with qnext := true }

/-- QUIET_REFRESH_BURST (R70): a lane B that this end does not deal to for Quiet carries a refresh burst. -/
def execQuietRefreshBurst (p : Port) (s : State) : Host.Outcome State Fault Refusal :=
  s.onChip fun c => c.when (c.on (F.TRK_STATUS_LINK_UP p) && c.trk[p].txQuiet && !c.mooredPort p) fun c => c.emit (.refresh p)

/-- Bytes queued toward a port (R71). -/
def Chip.queuedToward (c : Chip) (p : Port) : Nat :=
  let size := fun (b : Barge) => 16 * bargeWords b.hdr.len.toNat
  ((c.swc.voqs.filter fun d => d.outPort == p.val).map fun d => ((c.swc.stored d.sid).map fun x => size x.barge).getD 0).sum
    + (c.lnk[p].txq.map fun t => size t.barge).sum

/-- Does a barge for queues 0 to 3 wait toward a port (R71)? -/
def Chip.strictToward (c : Chip) (p : Port) : Bool :=
  c.swc.voqs.any (fun d => d.outPort == p.val && decide (d.queue < 4)) || c.lnk[p].txq.any fun t => decide (t.barge.hdr.queue.toNat < 4)

/-- WAKE_B (R71): when its queues or lane A ask for it, the transmitter wakes a lane B that it has left or is about to leave. A QNEXT that
no marker has carried is taken back. -/
def execWakeB (p : Port) (laneAFailing : Bool) (s : State) : Host.Outcome State Fault Refusal :=
  s.onChip fun c =>
    let wanted := laneAFailing || c.strictToward p || decide (c.get (F.TRK_QUIET_CFG_WAKE_KIB p) * 1024 < c.queuedToward p)
    let leaving := c.trk[p].qsent || (match c.pcs[p].change with | some x => x.quiet | none => false)
    c.when (c.on (F.TRK_STATUS_LINK_UP p) && !c.mooredPort p && wanted) fun c =>
      let c := c.modTrk p fun t => { t with qnext := false, qsent := false }
      c.when (c.laneLive p 1 && (leaving || (c.trk[p].txQuiet && c.pcs[p].change.isNone))) (Chip.wakeLaneB p)

/-- WAKE_B_RX (R71). -/
def execWakeBRx (p : Port) (ctl : Block) (s : State) : Host.Outcome State Fault Refusal := s.onChip (Chip.laneCtlRx p ctl false)

/-- MOOR_ENTER (R72): both ends have sent and received MOOR_RDY, the span comes to its end and the transmitter moors both its lanes. Where
a codeword group is then in progress, it ends after the markers of the new span. Marks: DESIGN CHOICE, log 78. -/
def execMoorEnter (p : Port) (s : State) : Host.Outcome State Fault Refusal :=
  s.onChip fun c =>
    c.when (c.on (F.TRK_STATUS_LINK_UP p) && c.moorVote p && c.trk[p].moorSent && c.trk[p].moorSeen && !c.mooredPort p) fun c =>
      let c := c.pcsFill p (4096 - c.pcs[p].blk)
      let c := c.when (c.pcs[p].groupFill != 0) fun c => (c.spanBegin p).fillGroup p
      let c := c.modPcs p fun x => { x with change := none }
      c.each lanes fun l c => c.when (c.get (laneState p l) == laneActive || c.get (laneState p l) == laneQuiet) fun c =>
        c.put (laneState p l) laneMoored

/-- Are the stored coefficients valid (R73): less than 10 min old, and the die less than 20 °C away? -/
def Chip.coefValid (c : Chip) (p : Port) (dTemp : Nat) : Bool :=
  match c.trk[p].coefAt with
  | some t => decide (c.now < t + 600 * second) && decide (dTemp < 20)
  | none => false

/-- The lanes of a moored port come back (R73): with valid coefficients, after the preamble, to Active from the stored set of the step;
otherwise by a cold retrain from S1, in which the link ends with no alarm and the wake counts as no failure of R49. An end that leaves
Moored of itself sends the preamble in either case. Marks: DESIGN CHOICE, log 78. -/
def Chip.unmoor (p : Port) (dTemp : Nat) (sends : Bool) (c : Chip) : Chip :=
  let ok := c.coefValid p dTemp
  let moored := lanes.filter fun l => c.get (laneState p l) == laneMoored
  let step := c.get (F.TRK_STATUS_STEP p)
  let c := (c.put (F.TRK_MOOR_STATUS_COEF_VALID p) ok.toNat).put (F.TRK_MOOR_STATUS_COEF_DTEMP p) (min dTemp 255)
  let c := c.modTrk p fun t => { t with moorSent := false, moorSeen := false }
  let c := c.when (ok || sends) fun c => c.each moored fun l c => c.emit (.preamble p l.val step preambleLevels)
  if ok then
    let c := c.each moored fun l c => c.put (laneState p l) laneActive
    let tx := if c.laneLive p 0 && c.laneLive p 1 then 0 else if c.laneLive p 0 then 1 else 2
    (c.modTrk p fun t => { t with rxStep := step, coefs := t.coefs.map (loadSet step), txLanes := tx, rxLanes := tx, txQuiet := false }).put (F.TRK_STATUS_LANES p) (lanesShown tx)
  else (c.linkGone p).startBringup p

/-- MOOR_EXIT (R73): this end sends the preamble at the current step on both lanes. -/
def execMoorExit (p : Port) (dTemp : Nat) (s : State) : Host.Outcome State Fault Refusal :=
  s.onChip fun c => c.when (c.mooredPort p) (Chip.unmoor p dTemp true)

/-- MOOR_PREAMBLE_RX (R73): the partner's preamble wakes the port. -/
def execMoorPreambleRx (p : Port) (dTemp : Nat) (s : State) : Host.Outcome State Fault Refusal :=
  s.onChip fun c => c.when (c.mooredPort p) (Chip.unmoor p dTemp false)

/-! Loss, test and the port's control writes (R66, R67, R74 to R78). -/

/-- LINK_LOSS (R67): both lanes have lost signal; those of a Moored port carry none (R72). Where LNK_CTL.EN has ended the link before, the PHY still carried its lanes,
and only bring-up follows, under R49 (R523). -/
def Chip.lossOfLink (p : Port) (c : Chip) : Chip :=
  let c := c.each lanes fun l c => (c.put (laneRxLock p l) 0).put (laneLos p l) 1
  if c.on (F.TRK_STATUS_LINK_UP p) then c.linkLost p
  else if c.now < c.trk[p].upAt + 60 * second then c.bringupFailed p false
  else (c.modTrk p fun t => { t with fails := 0 }).startBringup p

def execLinkLoss (p : Port) (s : State) : Host.Outcome State Fault Refusal :=
  s.onChip fun c =>
    c.when (c.running && c.phyCarries p && !c.mooredPort p) (Chip.lossOfLink p)

/-- PROTOCOL_VIOLATION_LIMIT (Table 02-10): at 8 violations within 1 s the link drops and bring-up restarts. -/
def execProtocolViolationLimit (p : Port) (s : State) : Host.Outcome State Fault Refusal :=
  s.onChip fun c => c.when (c.on (F.TRK_STATUS_LINK_UP p) && 8 ≤ (c.recentViolations p).length) fun c =>
    (c.modTrk p fun t => { t with violations := [] }).linkLost p

/-- The generator and the checker start (R75, R76), where they are enabled and were not: enabling the checker clears TRK_TEST_ERR. With
LOOP 2 the pattern stays inside, and with LOOP 3 the lane carries the recovered symbols. Marks: DESIGN CHOICE, log 78. -/
def Chip.testStart (p : Port) (generates checks : Bool) (c : Chip) : Chip :=
  let pat := c.get (F.TRK_TEST_CTL_PATTERN p)
  let c := c.when (checks && c.on (F.TRK_TEST_CTL_CHK_EN p)) fun c =>
    (c.put (F.TRK_TEST_ERR p) 0).modPcs p fun x => { x with chk := [] }
  c.when (generates && c.on (F.TRK_TEST_CTL_TX_EN p) && isPatternCode pat) fun c =>
    let c := c.modPcs p fun x => { x with gen := patternSeed pat }
    c.when (c.get (F.TRK_TEST_CTL_LOOP p) < 2) fun c =>
      c.emit (.pattern p (c.get (F.TRK_TEST_CTL_LANE_SEL p)) pat (c.get (F.TRK_TEST_CTL_STEP p)))

/-- A write of TRK_CTL.TEST_MODE (R75, Table 02-9): setting it withdraws the port, the neighbours see a trunk loss and
the Towpath continues, and the test functions act; clearing it starts blind bring-up, or with EN clear takes the lanes Off.
Marks: DESIGN CHOICE, log 78. -/
def Chip.testMode (p : Port) (on : Bool) (c : Chip) : Chip :=
  let was := c.on (F.TRK_CTL_TEST_MODE p)
  let c := c.put (F.TRK_CTL_TEST_MODE p) on.toNat
  if on && !was then
    let c := c.when (c.on (F.TRK_STATUS_LINK_UP p)) fun c => c.linkGone p
    let c := (c.put (F.TRK_STATUS_PHASE p) phaseOff).modTrk p fun t => { t with training := false, wait := .none }
    let c := (c.each lanes fun l c => c.put (laneState p l) laneTest).modPcs p fun _ => Pcs.reset
    c.testStart p true true
  else if !on && was then
    if c.on (F.TRK_CTL_EN p) then c.startBringup p else c.each lanes fun l c => c.put (laneState p l) laneOff
  else c

/-- One lane's control bit (R66, R78). A write never drops the link: a live lane goes Off, with LANE_DOWN on the other lane, where
single-lane degrade lets the link go on without it, and otherwise when the link ends; a lane enabled again trains.
Marks: DESIGN CHOICE, log 78. -/
def Chip.laneControl (p : Port) (l : LaneId) (c : Chip) : Chip :=
  if c.laneDisabled p l then
    if c.laneLive p l then
      c.when (c.laneLive p (otherLane l) && c.singlePermitted p) fun c =>
        ((c.laneFail p l).put (laneState p l) laneOff).put (laneRxLock p l) 0
    else c.when (!c.mooredPort p) fun c => c.put (laneState p l) laneOff
  else c.when (c.get (laneState p l) == laneOff) fun c => c.put (laneState p l) laneTraining

/-- TRK_ENABLE_WRITE (R66, R78): EN and the lane-off bits. A port newly enabled starts its bring-up. -/
def Chip.trkEnable (p : Port) (en aOff bOff : Bool) (c : Chip) : Chip :=
  let wasEn := c.on (F.TRK_CTL_EN p)
  let c := ((c.put (F.TRK_CTL_EN p) en.toNat).put (F.TRK_CTL_LANE_A_OFF p) aOff.toNat).put (F.TRK_CTL_LANE_B_OFF p) bOff.toNat
  if c.on (F.TRK_CTL_TEST_MODE p) then c
  else if !en then
    let c := c.when (c.on (F.TRK_STATUS_LINK_UP p)) fun c => c.linkGone p
    let c := (c.put (F.TRK_STATUS_PHASE p) phaseOff).modTrk p fun t => { t with training := false, wait := .none }
    c.each lanes fun l c => (c.put (laneState p l) laneOff).put (laneRxLock p l) 0
  else if !wasEn then c.startBringup p
  else c.each lanes (Chip.laneControl p)

/-- TEST_CHECKER_ENABLE (R75, R76): a write of TRK_TEST_CTL. The functions act only while TEST_MODE is set; a generator whose pattern,
lane, step and way out stay goes on, and so does a checker whose pattern and source stay; another pattern or source is to be locked on
anew. -/
def Chip.testCtl (p : Port) (w : Word) (c : Chip) : Chip :=
  let old := c.get (F.TRK_TEST_CTL p)
  let c := c.put (F.TRK_TEST_CTL p) (w.toNat % 2 ^ 11)
  let new := c.get (F.TRK_TEST_CTL p)
  let source := fun (v : Nat) => (v &&& 0x78F, decide (2 ≤ v / 32 % 4))
  let checked := fun (v : Nat) => v &&& 0x7E7
  c.when (c.on (F.TRK_CTL_TEST_MODE p)) fun c =>
    let c := c.when (old.testBit 4 && checked old != checked new) fun c =>
      (c.put (F.TRK_TEST_ERR_CHK_LOCK p) 0).modPcs p fun x => { x with chk := [] }
    c.testStart p (source old != source new) (!old.testBit 4)

end Sys2Proof.Machine
end

