-- ==== Sys2Proof/Machine/Access.lean ====
section
/-! DEFINITION. Register writes (16 R483 to R487): what each write does, the rules that refuse one whole, and the journal. -/

namespace Sys2Proof.Machine

/-! The plain effect of a write (00 Table 00-3). -/

/-- A word after the plain effect: RW and IMG bits take the value, a 1 clears a W1C bit. -/
def RegEntry.written (e : RegEntry) (off : Nat) (old v : Word) : Word :=
  let m := e.storedBits off
  ((old &&& ~~~m) ||| (v &&& m)) &&& ~~~(v &&& word32 e.w1c)

/-- A register file after the plain effect of a write. -/
def RegFile.store (off : Nat) (v : Word) (r : RegFile) : RegFile :=
  match regAt off with
  | some e => r.setWord off (e.written off (r.word off) v)
  | none => r

def Chip.store (off : Nat) (v : Word) (c : Chip) : Chip := { c with regs := c.regs.store off v }
def Hv.store (off : Nat) (v : Word) (h : Hv) : Hv := { h with regs := h.regs.store off v }

/-- A word of a table entry as a write gives it: the stored bits of the value over what stands there. -/
def Chip.merged (c : Chip) (off : Nat) (v : Word) : Word :=
  match regAt off with
  | some e => e.written off (c.regs.word off) v
  | none => 0#32

/-- Stages a write to a word of a table entry (R485). -/
def Chip.stageWrite_ (off : Nat) (v : Word) (c : Chip) : Chip := c.stage off (c.merged off v)

/-! Tables of the forwarding block (04 R125, R136). -/

/-- GEN + 1 of an entry. -/
def Chip.nextGen (f : Field) (c : Chip) : Chip := c.put f (c.get f + 1)

/-- Notes when an entry is committed, by the offset of its committing word: no sooner than 1.0 ms after its last commit (R126). -/
def Chip.noteCommit (off : Nat) (c : Chip) : Chip :=
  let t := match c.fab.commits.find? fun x => x.1 == off with
    | some (_, t) => max c.now (t + millisecond)
    | none => c.now
  c.modFab fun f => { f with commits := (off, t) :: f.commits.filter fun x => x.1 != off }

/-- A commit of a route entry: GEN advances when it changes. -/
def Chip.routeCommit (dst : Nat) (v : Word) (c : Chip) : Chip :=
  let off := (F.FAB_ROUTE0 dst).off
  let new := c.merged off v
  let c := c.noteCommit off
  if new = c.regs.word off then c else { c with regs := c.regs.setWord off new }.nextGen (F.FAB_ROUTE1_GEN dst)

/-- A commit of a multicast group entry; group 255 is not written (R127). -/
def Chip.groupCommit (g : Nat) (v : Word) (c : Chip) : Chip :=
  let off := (F.FAB_GROUP g).off
  let new := c.merged off v
  if g = 255 then c
  else
    let c := c.noteCommit off
    if new = c.regs.word off then c else { c with regs := c.regs.setWord off new }.nextGen (F.FAB_GROUP_GEN g)

/-- The fields of a tunnel map entry whose change clears the tunnel's state (R136). -/
def Chip.tunnelIdentity (c : Chip) (t : Nat) : Nat × Nat × Nat × Nat × Nat :=
  (c.get (F.FAB_TUN0_ADAPTER t), c.get (F.FAB_TUN0_CHANNEL t), c.get (F.FAB_TUN0_PEER_HUB t), c.get (F.FAB_TUN1_PEER_TUNNEL t), c.get (F.FAB_TUN1_MODE t))

/-- A commit of a tunnel map entry: the staged word 0 and word 1. A change that clears the tunnel's state takes the USB port that it
served with it (07 R254). -/
def Chip.tunnelCommit (t : Nat) (v : Word) (c : Chip) : Chip :=
  let o0 := (F.FAB_TUN0 t).off
  let o1 := (F.FAB_TUN1 t).off
  let w0 := c.stagedWord o0
  let w1 := c.merged o1 v
  let same := w0 == c.regs.word o0 && w1 == c.regs.word o1
  let was := c.on (F.FAB_TUN0_VALID t)
  let old := c.tunnelIdentity t
  let c := c.noteCommit o1
  let stored := fun (c : Chip) => (c.commitStaged [o0]).when (!same) fun c => { c with regs := c.regs.setWord o1 w1 }.nextGen (F.FAB_TUN1_GEN t)
  let new := stored c
  if !was && new.on (F.FAB_TUN0_VALID t) || new.tunnelIdentity t != old then
    (stored (c.usbPhysLost t)).clearTunnel t (new.get (F.FAB_TUN1_MODE t) == 0)
  else new

/-! Effects by block. -/

/-- GLB_FAULT_STATUS (R491): a source whose condition lasts stays. Marks: DEDUCED, log 25. -/
def Hub.faultClear (v : Word) (h : Hub) : Hub :=
  let c := h.chip
  let latched := ports.any (fun (p : Port) => h.hv.pstate p == psLatched) || chans.any fun (y : Chan) => h.hv.cstate y == csLatched
  let stays := c.rst.clockLost.toNat + (c.on F.REL_STATUS_BIST_FAIL).toNat * 2 + (c.get F.LKP_STATUS_STATE == 3).toNat * 8 + latched.toNat * 32
  h.onChip fun c => c.store F.GLB_FAULT_STATUS.off (v &&& ~~~(word32 stays))

/-- TRK_CTL (02 R66, R75, R78): plain fields first, then EN and the lane-off bits, TEST_MODE, the limits and RETRAIN.
Marks: DEDUCED, log 70. -/
def Chip.trkCtlWrite (p : Port) (v : Word) (c : Chip) : Chip :=
  let plain : Word := 0xF8780#32
  let w := c.regs.word (F.TRK_CTL p).off
  let c := { c with regs := c.regs.setWord (F.TRK_CTL p).off ((w &&& ~~~plain) ||| (v &&& plain)) }
  let lanesChange := (w ^^^ v) &&& 0x6001#32 != 0#32
  let limitsChange := (w ^^^ v) &&& 0x7E#32 != 0#32
  let c := c.when lanesChange (Chip.trkEnable p (v.getLsbD 0) (v.getLsbD 13) (v.getLsbD 14))
  let c := c.testMode p (v.getLsbD 11)
  let c := c.when limitsChange (Chip.stepLimits p (wordField v 1 3) (wordField v 4 3))
  c.when (v.getLsbD 12) (Chip.retrain p)

/-- A write in the block of a trunk port, `r` from its base. -/
def Chip.trkEffect (p : Port) (r off : Nat) (v : Word) (c : Chip) : Chip :=
  match r with
  | 0x00 => c.trkCtlWrite p v
  | 0x08 => (c.store off v).showPort p
  | 0x14 => if v.getLsbD 3 then c.shiftCmd p (wordField v 0 3) else c.store off v
  | 0x30 => c.testCtl p v
  | _ => c.store off v

/-- A write in the link registers of a port. Clearing LNK_CTL.EN ends a running link (03 R523). -/
def Hub.lnkEffect (p : Port) (r off : Nat) (v : Word) (h : Hub) : Hub :=
  match r with
  | 0x00 => h.onChip fun c => (c.when (c.on (F.LNK_CTL_EN p) && !v.getLsbD 0) (Chip.linkDisable p)).store off v
  | 0x58 => (h.onChip (Chip.store off v)).tpCommand p v
  | _ => h.onChip (Chip.store off v)

/-- A write in the FAB block. -/
def Chip.fabEffect (off : Nat) (v : Word) (c : Chip) : Chip :=
  match memberAt 0x04_0000 8 1024 off, memberAt 0x04_2000 4 256 off, memberAt 0x04_4000 8 4096 off with
  | some (d, r), _, _ => if r = 0 then c.routeCommit d v else c
  | none, some (g, _), _ => c.groupCommit g v
  | none, none, some (t, r) => if r = 0 then c.stageWrite_ off v else c.tunnelCommit t v
  | none, none, none => (c.store off v).when (off == F.FAB_TIME_CFG.off) Chip.electMaster

/-- A write in the SWC block. -/
def Chip.swcEffect (off : Nat) (v : Word) (c : Chip) : Chip :=
  let c := c.store off v
  if off = F.SWC_CTL.off then c.when (v.getLsbD 1) Chip.peakClear else c.showPool

/-- A write in the SCH block (06 R199, R205, R208, R223). -/
def Chip.schEffect (off : Nat) (v : Word) (c : Chip) : Chip :=
  match memberAt 0x07_A000 0x10 512 off, memberAt 0x07_0100 0x40 10 off, memberAt 0x07_1000 0x200 10 off with
  | some (n, r), _, _ => if r = 0 then c.weirCommit n (c.merged off v) else c.stageWrite_ off v
  | none, some (e, r), _ =>
    let was := c.on (F.SCH_P_CFG_SHAPE_EN e)
    match r with
    | 0x00 =>
      let c := c.store off v
      c.when (!was && c.on (F.SCH_P_CFG_SHAPE_EN e)) (Chip.resetPortShaper e)
    | 0x04 => (c.store off v).resetPortShaper e
    | 0x18 => c.takeCtlWrite e v
    | _ => c.store off v
  | none, none, some (e, r) =>
    let q := r / 8
    let was := c.on (F.SCH_Q0_SHAPE_EN e q)
    let c := c.store off v
    c.when (r % 8 == 4 || (!was && c.on (F.SCH_Q0_SHAPE_EN e q))) (Chip.resetQueueShaper e q)
  | none, none, none =>
    if off = F.SCH_Q_SEL.off then (c.store off v).takeQueueSnapshot
    else if off = F.SCH_CTL.off then (c.store off v).resetBulkShapers
    else c.store off v

/-- A write in the USB block: word 0 of a port map entry commits it with its staged word 1 (07 R256). -/
def Chip.usbEffect (off : Nat) (v : Word) (c : Chip) : Chip :=
  match memberAt 0x09_1000 8 240 off with
  | none => c.store off v
  | some (i, r) =>
    if r = 4 then c.stageWrite_ off v
    else
      let w0 := c.merged off v
      let o1 := (F.USB_MAP1 i).off
      let changed := c.stagedWord o1 != c.regs.word o1
      let c := c.commitStaged [o1]
      let c := c.when (changed && w0 == c.regs.word off && w0.getLsbD 0) (Chip.mapCommit i (w0 &&& 0xFFFF_FFFE#32))
      c.mapCommit i w0

/-- A write of a DMA ring register, `r` from the ring's base (08 R282, R288): clearing EN stops the ring. -/
def Chip.dmaEffect (n r off : Nat) (v : Word) (c : Chip) : Chip :=
  let was := c.on (F.WIN_DMA2_EN n)
  let c := c.store off v
  if r = 8 ∧ was ∧ !v.getLsbD 0 then c.dmaHalt n else c.showDma n

/-- WIN_LOCK_CTL (08 R278, R281). -/
def Chip.lockCtlWrite (v : Word) (c : Chip) : Chip :=
  let hub := wordField v 0 10
  let space := wordField v 10 2
  let c := c.store F.WIN_LOCK_CTL.off v
  let c := c.when (v.getLsbD 12) (Chip.lockRequest hub space)
  let c := c.when (v.getLsbD 13) (Chip.lockRelease hub space)
  c.when (v.getLsbD 14) Chip.lockReleaseAll

/-- A write in the WIN block. -/
def Chip.winEffect (off : Nat) (v : Word) (c : Chip) : Chip :=
  match memberAt 0x0A_0200 0x10 16 off, memberAt 0x0A_0800 0x20 64 off with
  | some (n, r), _ =>
    if r = 0 then
      let o := fun k => off + 4 * k
      let w := fun k => (c.stagedWord (o k)).toNat
      (c.rangeCommit n (c.merged off v).toNat (w 1) (w 2) (w 3)).commitStaged [o 1, o 2, o 3]
    else c.stageWrite_ off v
  | none, some (n, r) => c.dmaEffect n r off v
  | none, none =>
    if off = F.WIN_LOCK_CTL.off then c.lockCtlWrite v
    else if off = F.WIN_RP_CTL.off then
      let new := c.store off v
      (new.when (c.perstLow != new.perstLow) (Chip.pcieAct (.perst new.perstLow))).when (v.getLsbD 2) (Chip.pcieAct .retrain)
    else c.store off v

/-- A write in the VID block: SEND takes a packet to be sent (09 R301). -/
def Chip.vidEffect (off : Nat) (v : Word) (c : Chip) : Chip :=
  (c.store off v).when (off == F.VID_DSI_CMD.off && v.getLsbD 16) fun c => c.put F.VID_DSI_CMD_BUSY 1

/-- A write in the ETH block (09 R302, R305, R309). -/
def Chip.ethEffect (off : Nat) (v : Word) (c : Chip) : Chip :=
  match memberAt 0x0C_1000 8 64 off, memberAt 0x0C_4000 0x10 1024 off with
  | some (_, r), _ => if r = 4 then c.stageWrite_ off v else (c.store off v).commitStaged [off + 4]
  | none, some (i, r) =>
    if r = 4 then
      (c.learnCommit i (c.stagedWord (off - 4)).toNat (c.merged off v).toNat (c.stagedWord (off + 4)).toNat).commitStaged [off - 4, off + 4]
    else c.stageWrite_ off v
  | none, none => (c.store off v).when (off == F.ETH_MDIO_CMD.off && v.getLsbD 13) Chip.mdioGo

/-- A write of a pin's configuration: the active level is the pin level XOR INVERT (10 R329). -/
def Chip.fioConfig (p off : Nat) (v : Word) (c : Chip) : Chip :=
  let was := c.on (F.FLD_FIO_CFG_INVERT p)
  let c := c.fioChange p (Chip.store off v)
  c.when (c.on (F.FLD_FIO_CFG_INVERT p) != was) fun c =>
    let level := !c.on (F.FLD_FIO_STATUS_LEVEL p)
    (c.put (F.FLD_FIO_STATUS_LEVEL p) level.toNat).putBit F.FLD_FIO_LEVEL_IN p level

/-- A write in the FLD block (10 R336). -/
def Chip.fldEffect (off : Nat) (v : Word) (c : Chip) : Chip :=
  match memberAt 0x0D_1000 0x10 256 off, memberAt 0x0D_2000 0x10 256 off, memberAt 0x0D_8000 0x20 1024 off with
  | some (_, r), _, _ => if r = 0 then (c.store off v).commitStaged [off + 4, off + 8] else c.stageWrite_ off v
  | none, some (_, r), _ =>
    if r = 0 then (c.store off v).commitStaged [off + 4] else if r = 4 then c.stageWrite_ off v else c.store off v
  | none, none, some (i, r) =>
    if r = 0 then
      let l := [1, 2, 3, 4, 5, 6, 7].map fun k => off + 4 * k
      { c.sigCommit i ((c.merged off v).toNat :: l.map fun o => (c.stagedWord o).toNat) with
        cfg := { c.cfg with staged := c.cfg.staged.filter fun x => !l.contains x.1 } }
    else c.stageWrite_ off v
  | none, none, none =>
    match memberAt 0x0D_0400 0x10 16 off with
    | some (p, 0) => c.fioConfig p off v
    | _ => c.store off v

/-- A write in the TPW block (11 R343, R373). -/
def Hub.tpwEffect (off : Nat) (v : Word) (h : Hub) : Hub :=
  let pref := h.hv.get F.TPW_RAIL_CFG_PREF_PORT
  let h := h.onHv (Hv.store off v)
  let h := match memberAt 0x0E_0100 0x80 3 off with
    | some (p, 0x1C) => h.portCommand (Fin.ofNat 3 p) (wordField v 0 2) (v.getLsbD 2) (v.getLsbD 3) (v.getLsbD 4)
    | _ => h
  let h := h.when (h.hv.get F.TPW_RAIL_CFG_PREF_PORT != pref) fun h => h.onHv fun x => { x with prefFrom := h.chip.now + 200_000 }
  h.onHv Hv.refresh

/-- A write in the LDC block (12 R385, R395). -/
def Hub.ldcEffect (off : Nat) (v : Word) (h : Hub) : Hub :=
  match memberAt 0x0F_0100 0x80 4 off with
  | some (y, 0x18) => h.loadCommand (Fin.ofNat 4 y) (v.getLsbD 0) (v.getLsbD 1) (v.getLsbD 2)
  | _ => h.onHv (Hv.store off v)

/-- A write in the KEY block (13 R397, R409, R411, R414, R415, R420). -/
def Chip.keyEffect (off : Nat) (v : Word) (c : Chip) : Chip :=
  let c := c.store off v
  if off = F.KEY_LC_CMD.off then
    if v.getLsbD 2 then c.lcStart (wordField v 0 2) else if v.getLsbD 3 then c.lcStart 4 else c
  else if off = F.KEY_PROV_CMD.off then c.when (v.getLsbD 0) Chip.provGo
  else if off = F.KEY_WM_CMD.off then c.when (v.getLsbD 0) (Chip.watermarkGo (v.getLsbD 1))
  else
    match memberAt 0x10_0300 0x10 3 off with
    | some (p, 4) =>
      let c := c.when (v.getLsbD 0 && !c.on (F.LNK_EPOCH_KE_PEND p)) (Chip.requestEpoch (Fin.ofNat 3 p))
      c.when (v.getLsbD 1) (Chip.readmit (Fin.ofNat 3 p))
    | _ => c

/-- LKP_CTL (14 R438, R439); RESTART acts once the write is recorded. -/
def Chip.lkpEffect (off : Nat) (v : Word) (c : Chip) : Chip :=
  if off = F.LKP_CTL.off then (c.when (v.getLsbD 1) Chip.lkKick).when (v.getLsbD 0) Chip.lkReady else c.store off v

/-! Performance counters (16 R492 to R495). -/

/-- Replaces a counter. -/
def Chip.setCounter (n : Nat) (x : Counter) (c : Chip) : Chip :=
  { c with cnt := { c.cnt with counters := (c.cnt.counters.filter fun y => y.1 < n) ++ (n, x) :: c.cnt.counters.filter fun y => n < y.1 } }

/-- A preset of half a counter's value, which its reload value takes too (R493, R495); 88 to 95 do not change (R494). -/
def Chip.preset (n : Nat) (high : Bool) (v : Word) (c : Chip) : Chip :=
  let half := fun (x : Nat) => if high then x % 2 ^ 32 + v.toNat % 65536 * 2 ^ 32 else x / 2 ^ 32 * 2 ^ 32 + v.toNat
  if 88 ≤ n then c
  else
    let x := c.counter n
    (c.setCounter n { x with value := half x.value, reload := half x.reload }).when high fun c => c.put (F.CNT_VAL_HI_V n) v.toNat

/-- CLEAR sets counters 0 to 87 to zero. -/
def Chip.clearCounters (c : Chip) : Chip :=
  { c with cnt := { c.cnt with counters := c.cnt.counters.map fun x => if x.1 < 88 then (x.1, { x.2 with value := 0 }) else x } }

/-- A write in the CNT block. -/
def Chip.cntEffect (off : Nat) (v : Word) (c : Chip) : Chip :=
  match counterAt off, memberAt 0x13_0010 4 3 off with
  | some (n, 0), _ =>
    let m : Word := if 88 ≤ n then 0x0800_0000#32 else 0x0FFF_FFFF#32
    let x := c.counter n
    c.setCounter n { x with sel := (x.sel &&& ~~~m) ||| (v &&& m) }
  | some (n, 4), _ => c.preset n false v
  | some (n, 8), _ => c.preset n true v
  | some (_, _), _ => c
  | none, some (m, _) => { c with cnt := { c.cnt with ovf := c.cnt.ovf.filter fun n => !(n / 32 == m && v.getLsbD (n % 32)) } }
  | none, none => (c.store off v).when (off == F.CNT_CTL.off && v.getLsbD 1) Chip.clearCounters

/-! Commits and flash commands (16 R488, R489). -/

/-- IMG bits of a word. -/
def imgBits (off : Nat) : Word :=
  match regAt off with
  | some e => word32 e.img &&& e.storedBits off
  | none => 0#32

/-- The IMG bits of a word as the signed image and the overlay in use gave them. -/
def Chip.givenWord (c : Chip) (off : Nat) : Word :=
  ((c.cfg.given.find? fun x => x.1 == off).map Prod.snd).getD (resetWord off) &&& imgBits off

/-- The words whose IMG fields differ from what was given, by offset (R488). -/
def Hub.changedWords (h : Hub) : List (Nat × Word) :=
  let cand := h.chip.regs.map Prod.fst ++ h.hv.regs.map Prod.fst ++ h.chip.cnt.counters.map (fun x => (F.CNT_SEL x.1).off) ++ h.chip.cfg.given.map Prod.fst
  (cand.eraseDups.filter fun o => h.readWord o &&& imgBits o != h.chip.givenWord o).map fun o => (o, h.readWord o)

/-- A commit begins: the overlay's words, the area that the overlay in use does not hold, and SEQ one greater.
Marks: DEDUCED, log 26. -/
def Hub.commitStart (words : List (Nat × Word)) (h : Hub) : Hub :=
  h.onChip fun c =>
    let area := if c.cfg.overlay then 1 - c.get F.CFG_STATUS_OVL_AREA else 0
    let job : CommitJob := { words := words, area := area, seq := (c.get F.CFG_OVL_SEQ + 1) % 2 ^ 32 }
    let c := (c.put F.CFG_COMMIT_BUSY 1).put F.CFG_COMMIT_RESULT 0
    { c.put F.CFG_COMMIT_DIRTY 0 with cfg := { c.cfg with commit := some job, committed := true } }

/-- Why a commit of some words is refused: RESULT 5 BUSY, 2 NO_KEY, 3 TOO_LARGE. -/
def Chip.commitRefused (c : Chip) (words : List (Nat × Word)) : Option Nat :=
  if c.on F.CFG_COMMIT_BUSY then some 5
  else if (c.pairKey engineImage 2).isNone then some 2
  else if 8184 < words.length then some 3
  else none

/-- Bytes that a flash command touches. -/
def flashSize (op : Nat) : Nat := match op with | 0 | 1 => 256 | 2 => 0x1000 | _ => 0x1_0000

/-- Does a flash range touch the overlay areas or the images of the bank in use (R489)? -/
def Chip.flashProtected (c : Chip) (a n : Nat) : Bool :=
  let hits := fun lo hi => decide (a < hi ∧ lo < a + n)
  hits 0 0x2_0000 || (c.get F.CFG_STATUS_FW_BANK == 0 && hits 0x10_0000 0x30_0000) || (c.get F.CFG_STATUS_FW_BANK == 1 && hits 0x40_0000 0x60_0000)

/-- Why a flash command is refused: RESULT 3 BUSY, 1 PROTECTED. -/
def Chip.flashRefused (c : Chip) (op : Nat) : Option Nat :=
  let a := c.get F.CFG_FL_ADDR_ADDR / flashSize op * flashSize op
  if c.on F.CFG_FL_CMD_BUSY then some 3 else if op != 0 && c.flashProtected a (flashSize op) then some 1 else none

/-- CFG_FL_BUF as bytes. -/
def Chip.flashBuffer (c : Chip) : List Byte := (List.range 64).flatMap fun k => beBytes 4 (c.get (F.CFG_FL_BUF k))

/-- A flash command begins. -/
def Chip.flashStart (op : Nat) (c : Chip) : Chip :=
  let a := c.get F.CFG_FL_ADDR_ADDR / flashSize op * flashSize op
  let c := ((c.put F.CFG_FL_CMD_OP op).put F.CFG_FL_CMD_BUSY 1).put F.CFG_FL_CMD_RESULT 0
  { c.emit (.flash op a (if op = 1 then c.flashBuffer else [])) with cfg := { c.cfg with flash := some (op, a) } }

/-- A write in the CFG block. -/
def Hub.cfgEffect (off : Nat) (v : Word) (h : Hub) : Hub :=
  if off = F.CFG_COMMIT.off then
    if v.getLsbD 0 then h.commitStart h.changedWords else if v.getLsbD 1 then h.commitStart [] else h
  else
    h.onChip fun c =>
      if off = F.CFG_FL_CMD.off then if v.getLsbD 2 then c.flashStart (wordField v 0 2) else c.store off v
      else if 0x14_1000 ≤ off ∧ off < 0x14_2000 then { c with cfg := { c.cfg with recovery := c.cfg.recovery ++ beBytes 4 v.toNat } }
      else c.store off v

/-- PWR_CTL and PWR_VOTE_SW (15 R458, R463, R466). CONFIRM clears after the write. -/
def Chip.pwrEffect (off : Nat) (v : Word) (c : Chip) : Chip :=
  if off = F.PWR_CTL.off then
    ((c.store off v).put F.PWR_CTL_CONFIRM 0).when (v.getLsbD 1) fun c => c.modPst fun x => { x with offDue := true }
  else if off = F.PWR_VOTE_SW.off then c.voteWrite (wordField v 0 10)
  else c.store off v

/-- What a write that nothing refuses does. -/
def Hub.effect (off : Nat) (v : Word) (h : Hub) : Hub :=
  match off / 0x1_0000 with
  | 0x00 => if off = F.GLB_FAULT_STATUS.off then h.faultClear v else h.onChip (Chip.store off v)
  | 0x01 => h.onChip (Chip.pwrEffect off v)
  | 0x02 => h.onChip (Chip.trkEffect (Fin.ofNat 3 (off % 0x1_0000 / 0x4000)) (off % 0x4000) off v)
  | 0x03 => h.lnkEffect (Fin.ofNat 3 (off % 0x1_0000 / 0x400)) (off % 0x400) off v
  | 0x04 | 0x05 => h.onChip (Chip.fabEffect off v)
  | 0x06 => h.onChip (Chip.swcEffect off v)
  | 0x07 => h.onChip (Chip.schEffect off v)
  | 0x09 => h.onChip (Chip.usbEffect off v)
  | 0x0A => h.onChip (Chip.winEffect off v)
  | 0x0B => h.onChip (Chip.vidEffect off v)
  | 0x0C => h.onChip (Chip.ethEffect off v)
  | 0x0D => h.onChip (Chip.fldEffect off v)
  | 0x0E => h.tpwEffect off v
  | 0x0F => h.ldcEffect off v
  | 0x10 => h.onChip (Chip.keyEffect off v)
  | 0x12 => h.onChip (Chip.lkpEffect off v)
  | 0x13 => h.onChip (Chip.cntEffect off v)
  | 0x14 => h.cfgEffect off v
  | _ => h.onChip (Chip.store off v)

/-- Resets that a write starts, once it is recorded (01 R23, 14 R439). -/
def Hub.lateEffect (off : Nat) (v : Word) (h : Hub) : Hub :=
  if off = F.GLB_CTL.off then
    if v.getLsbD 0 then h.warmReset false else h.when (v.getLsbD 1) fun h => h.onChip Chip.datapathReset
  else h.when (off == F.LKP_CTL.off && v.getLsbD 2) fun h => h.onChip Chip.lockkeeperReset

/-! Refusals by the rules of other chapters (R483): what such a write leaves. -/

/-- RESERVE writes of 05 R167. Marks: DEDUCED, log 24. -/
def Chip.reserveRefused (c : Chip) (i : Nat) (v : Word) : Bool :=
  let r := wordField v 0 15
  decide (r < 32) || decide (24_576 < (portList.map fun p => if p = i then r else c.get (F.SWC_BASIN_RESERVE p)).foldl (· + ·) 0 + 512)

/-- Gate banks and takeovers (06 R208). A bank is its 256 entries; its cycle is none of them (DEDUCED, log 61). -/
def Chip.bankRefused (c : Chip) (off : Nat) (v : Word) : Bool :=
  let bank := fun (e k : Nat) => k == c.get (F.SCH_P_GATE_STATUS_BANK e) || c.on (F.SCH_P_TAKE_CTL_ARMED e)
  match memberAt 0x07_4000 0x400 20 off, memberAt 0x07_0100 0x40 10 off with
  | some (i, _), _ => bank (i / 2) (i % 2)
  | none, some (e, 0x14) => c.on (F.SCH_P_TAKE_CTL_ARMED e)
  | none, some (e, 0x18) => c.on (F.SCH_P_TAKE_CTL_ARMED e) && !v.getLsbD 21
  | _, _ => false

/-- Ring configuration while EN is set (08 R288). Marks: DEDUCED, log 28. -/
def Chip.ringRefused (c : Chip) (off : Nat) (v : Word) : Bool :=
  match memberAt 0x0A_0800 0x20 64 off with
  | some (n, r) =>
    c.on (F.WIN_DMA2_EN n) && ((r ≤ 4 && c.merged off v != c.regs.word off) || (r == 8 && wordField v 2 5 != c.get (F.WIN_DMA2_SIZE_LOG2 n)))
  | none => false

/-- Is the register held in the HV die: not a counter and not an interrupt register (11 R372, 12 R376)? -/
def hvHeld (off : Nat) : Bool :=
  inHvDie off && !isCounter off && off != F.TPW_INT_STATUS.off && off != F.TPW_INT_EN.off && off != F.LDC_INT_STATUS.off && off != F.LDC_INT_EN.off

/-- KEY_LC_CMD writes of 13 R397 and R414. Marks: DEDUCED, log 23. -/
def Chip.lcRefused (c : Chip) (v : Word) : Bool :=
  let go := v.getLsbD 2
  let svn := v.getLsbD 3
  (go || svn) && ((go && svn) || wordField v 16 16 != 0x5A3C || c.key.lcCmd.isSome || (go && !c.lcPermitted (wordField v 0 2)))

/-- The rule of another chapter that refuses a write whole, if one does: the hub as the refusal leaves it.
Marks: DEDUCED, log 11; DEDUCED, log 23; DEDUCED, log 24. -/
def Hub.refused (off : Nat) (v : Word) (h : Hub) : Option Hub :=
  let c := h.chip
  let some_ := fun (b : Bool) (f : Chip → Chip) => if b then some (h.onChip f) else none
  if c.absent off || off = (F.FAB_GROUP 255).off then some h
  else
    match off / 0x1_0000 with
    | 0x00 => some_ (off == F.GLB_CTL.off && wordField v 16 16 != 0x9D61) id
    | 0x01 => some_ (off == F.PWR_CTL.off && v.getLsbD 1 && wordField v 16 16 != 0xC3A5) id
    | 0x03 =>
      let p := off % 0x1_0000 / 0x400
      some_ (off % 0x400 == 0x58 && v.getLsbD 0 && decide (64 < tpLen (c.regs.word (F.LNK_TP_TXHDR p).off))) id
    | 0x05 => some_ (off == F.FAB_ID.off && c.on F.FAB_ID_ID_VALID) fun c => c.inc F.GLB_BAD_ACCESS
    | 0x06 =>
      match memberAt 0x06_0010 4 10 off with
      | some (i, _) => some_ (c.reserveRefused i v) fun c => c.flag F.SWC_INT_STATUS_PARTITION_REFUSED
      | none => none
    | 0x07 => some_ (c.bankRefused off v) fun c => c.flag F.SCH_INT_STATUS_BANK_WRITE_REFUSED
    | 0x09 =>
      match memberAt 0x09_1000 8 240 off with
      | some (i, 0) => some_ (c.mapOverfull i v) fun c => c.flag F.USB_INT_STATUS_MAP_REFUSED
      | _ => none
    | 0x0A => some_ (c.ringRefused off v) id
    | 0x0B => some_ (off == F.VID_DSI_CMD.off && v.getLsbD 16 && c.on F.VID_DSI_CMD_BUSY) id
    | 0x0E => if hvHeld off && h.hv.lockout then some h else none
    | 0x0F =>
      match memberAt 0x0F_0100 0x80 4 off with
      | some (y, 0x18) => if h.hv.loadRefused (Fin.ofNat 4 y) (v.getLsbD 0) (v.getLsbD 1) (v.getLsbD 2) then some (h.effect off v) else none
      | _ => if hvHeld off && h.hv.lockout then some h else none
    | 0x10 =>
      if off = F.KEY_LC_CMD.off then some_ (c.lcRefused v) fun c => c.put F.KEY_LC_CMD_RESULT 2
      else if off = F.KEY_PROV_CMD.off then some_ (v.getLsbD 0 && c.on F.KEY_PROV_CMD_BUSY) id
      else if off = F.KEY_WM_CMD.off then some_ (v.getLsbD 0 && c.on F.KEY_WM_CMD_BUSY) id
      else some_ (decide (0x10_01A0 ≤ off ∧ off < 0x10_01C0) && c.on F.KEY_WM_CMD_BUSY) id
    | 0x14 =>
      if off = F.CFG_COMMIT.off ∧ (v.getLsbD 0 ∨ v.getLsbD 1) then
        match c.commitRefused (if v.getLsbD 0 then h.changedWords else []) with
        | some r => some (h.onChip fun c => c.put F.CFG_COMMIT_RESULT r)
        | none => none
      else if off = F.CFG_FL_CMD.off ∧ v.getLsbD 2 then
        match c.flashRefused (wordField v 0 2) with
        | some r => some (h.onChip fun c => c.put F.CFG_FL_CMD_RESULT r)
        | none => none
      else some_ (decide (0x14_1000 ≤ off ∧ off < 0x14_2000) && c.get F.CFG_STATUS_STATE != 5) id
    | _ => none

/-! The journal (R486, R487). -/

/-- The contents of KEY_PROV_BUF and KEY_WM_NONCE are not recorded (13 R428). -/
def unrecorded (off : Nat) : Bool := decide (0x10_0100 ≤ off ∧ off < 0x10_0160) || decide (0x10_01A0 ≤ off ∧ off < 0x10_01C0)

/-- Adds an entry. -/
def Chip.journal (source result : Nat) (req : Option Requester) (addr : Nat) (data old new : Word) (c : Chip) : Chip :=
  let hide := fun (w : Word) => if unrecorded addr then 0#32 else w
  let e : JrnEntry := {
    seq := c.journalSeq, frame := c.get F.FAB_FRAME, subns := c.subns, source := source, result := result
    attested := (req.map fun r => r.attested).getD false, hub := req.bind fun r => r.hub, tag := (req.map fun r => r.tag).getD 0#16
    addr := addr, data := hide data, old := hide old, new := hide new }
  { c with jrn := (e :: c.jrn).take 512 }

/-- A hub event: 1 IMAGE_LOADED, 2 OVERLAY_APPLIED, 3 COMMIT_DONE. What its OLD and NEW words hold the spec does not say: free
values (log 2). Marks: DEDUCED, log 63. -/
def Chip.journalEvent (event : Nat) (seq : Nat) (c : Chip) : Chip :=
  let (old, c) := c.draw (2 ^ 32)
  let (new, c) := c.draw (2 ^ 32)
  c.journal 6 0 none event (word32 seq) (word32 old) (word32 new)

/-- RESULT of a carried-out write (R483): 1 where it sets a RES bit or carries another value into an RO field.
Marks: DEDUCED, log 11. -/
def Hub.accessResult (h : Hub) (off : Nat) (v : Word) : Nat :=
  match regAt off with
  | some e => if v &&& e.resBits off != 0#32 || (v ^^^ h.readWord off) &&& e.roBits off != 0#32 then 1 else 0
  | none => 3

/-- A write has reached a word of a table entry whose data was lost: where it is committed the entry is poisoned no longer (14 R431). -/
def Chip.entryWritten (off : Nat) (c : Chip) : Chip :=
  match c.cfg.lost.find? fun x => (tableEntry x.1).contains off with
  | some (o, loc) =>
    if (tableEntry o).any fun w => c.cfg.staged.any fun x => x.1 == w then c
    else { c with cfg := { c.cfg with lost := c.cfg.lost.filter fun x => x.1 != o } }.unpoison loc
  | none => c

/-- A register write by a requester, its answer RESULT: 0 done, 1 by access code, 2 by a rule, 3 reserved offset, 4 HOLD. -/
def Hub.performWrite (req : Requester) (off : Nat) (v : Word) (h : Hub) : Nat × Hub :=
  let old := h.readWord off
  let record := fun (r : Nat) (h : Hub) => h.onChip (Chip.journal req.source.val r (some req) off v old (h.readWord off))
  let bad := fun (h : Hub) => h.onChip fun c => c.inc F.GLB_BAD_ACCESS
  if h.chip.get F.LKP_STATUS_STATE = 3 ∧ (req.source = 2 ∨ req.source = 3) then (4, record 4 h)
  else if (regAt off).isNone then (3, record 3 (bad h))
  else
    match h.refused off v with
    | some h => (2, record 2 h)
    | none =>
      let r := h.accessResult off v
      let h := (h.effect off v).onChip (Chip.entryWritten off)
      let h := h.when (h.chip.cfg.committed && imgBits off != 0#32) fun h => h.onChip fun c => c.put F.CFG_COMMIT_DIRTY 1
      let h := h.when (r == 1) bad
      (r, (record r h).lateEffect off v)

end Sys2Proof.Machine
end

