-- ==== Sys2Proof/Machine/Loader.lean ====
section
/-! DEFINITION. The image loader (16 R467 to R476): which images it takes, the records of a configuration image, the overlay, and
recovery. -/

namespace Sys2Proof.Machine

/-! Writes of the loader (R473). -/

/-- The bits that the loader writes in a word: IMG, RW and W1S. -/
def loadBits (off : Nat) : Word :=
  match regAt off with
  | some e => e.storedBits off ||| word32 e.w1s
  | none => 0#32

/-- Is a record word a refused write, by the bits of its mask?. Marks: DEDUCED, log 62. -/
def Hub.loadWordRefused (h : Hub) (off : Nat) (mask v : Word) : Bool :=
  match regAt off with
  | none => true
  | some e =>
    v &&& mask &&& (e.resBits off ||| word32 e.w1c ||| word32 e.sc) != 0#32
      || (v ^^^ h.readWord off) &&& mask &&& e.roBits off != 0#32

/-- Counts a refused write; the first one's offset is kept. -/
def Chip.loadRefusal (off : Nat) (c : Chip) : Chip :=
  (c.when (c.get F.CFG_LOAD_REFUSED == 0) fun c => c.put F.CFG_LOAD_REF_ADDR_ADDR off).inc F.CFG_LOAD_REFUSED

/-- Remembers what the image or the overlay gave the IMG fields of a word. -/
def Chip.imageGave (off : Nat) (mask v : Word) (c : Chip) : Chip :=
  let m := mask &&& imgBits off
  let w := (c.givenWord off &&& ~~~m) ||| (v &&& m)
  { c with cfg := { c.cfg with given := (c.cfg.given.filter fun x => x.1 != off) ++ [(off, w)] } }

/-- Writes some bits of a word. The limits of 07 R256, 08 R288 and 05 R167 hold for the loader too, but where `free` says
that a PARTITION record was judged as a whole; the gate banks are open to it (06 R528). Marks: DEDUCED, log 62. -/
def Hub.loadInto (free : Bool) (off : Nat) (mask v : Word) (h : Hub) : Hub :=
  let m := mask &&& loadBits off
  let w := (h.readWord off &&& loadBits off &&& ~~~m) ||| (v &&& m)
  let h := h.onChip (Chip.imageGave off m v)
  match if free || off / 0x1_0000 == 7 then none else h.refused off w with
  | some h => h
  | none => h.effect off w

/-- A word of a record. -/
def Hub.loadWord (free : Bool) (off : Nat) (mask v : Word) (h : Hub) : Hub :=
  let h := h.when (h.loadWordRefused off mask v) fun h => h.onChip (Chip.loadRefusal off)
  h.when (regAt off).isSome (Hub.loadInto free off mask v)

/-! Records (R470, Table 16-3). -/

/-- A record: TYPE, CRITICAL and its data. -/
structure Record where
  type : Nat
  critical : Bool
  data : List Byte

/-- The records of a body, up to and with the END that ends it; none where it does not end with exactly one END. -/
def recordsOf : Nat → List Byte → Option (List Record)
  | 0, _ => none
  | fuel + 1, l =>
    let n := fieldAt l 4 4
    let rest := l.drop (8 + (n + 3) / 4 * 4)
    let r : Record := { type := fieldAt l 0 2, critical := fieldAt l 2 2 % 2 == 1, data := (l.drop 8).take n }
    if l.length < 8 + (n + 3) / 4 * 4 then none
    else if r.type = 0xFF then (if rest.isEmpty then some [r] else none)
    else (recordsOf fuel rest).map fun rs => r :: rs

/-- Is the type a reserved one? -/
def Record.reserved (r : Record) : Bool := !((decide (1 ≤ r.type) && decide (r.type ≤ 7)) || r.type == 0xFF)

/-- The records of a configuration image; none is the result FORMAT. -/
def imgRecords (i : ImageFile) : Option (List Record) :=
  match recordsOf ((imgContent i).length / 8 + 1) (imgContent i) with
  | none => none
  | some rs => if rs.any fun r => r.reserved && r.critical then none else some rs

/-- The 4-byte values of some data. -/
def dataWords (l : List Byte) : List Nat := (List.range (l.length / 4)).map fun k => fieldAt l (4 * k) 4

/-- Pairs of offset and value. Marks: DEDUCED, log 62. -/
def wordPairs : List Nat → List (Nat × Nat)
  | a :: b :: l => (a, b) :: wordPairs l
  | _ => []

/-- Triples of offset, mask and value. Marks: DEDUCED, log 62. -/
def wordTriples : List Nat → List (Nat × Nat × Nat)
  | a :: b :: d :: l => (a, b, d) :: wordTriples l
  | _ => []

/-- Every bit of a word. -/
def allBits : Word := 0xFFFFFFFF#32

/-- PARTITION: all ten reserves, or nothing (05 R167). -/
def Hub.loadPartition (l : List Nat) (h : Hub) : Hub :=
  let r := (List.range 10).map fun i => (l.getD i 0) % 2 ^ 15
  if r.any (fun x => decide (x < 32)) || decide (24_576 < r.foldl (· + ·) 0 + 512) then
    h.onChip fun c => (c.flag F.SWC_INT_STATUS_PARTITION_REFUSED).loadRefusal 0x06_0010
  else h.each (List.range 10) fun i h => h.loadWord true (F.SWC_BASIN i).off allBits (word32 (l.getD i 0))

/-- KEY_RECORD: a measurement-bound record is skipped; any other passes through KEY_PROV_BUF (13 R408, R409). Whether a fuse
that it programs takes is a free value (log 2). -/
def Chip.loadKeyRecord (r : List Byte) (c : Chip) : Chip :=
  if fieldAt r 18 1 % 2 = 1 then c.inc F.CFG_LOAD_SKIPPED
  else
    let c := c.each (List.range 24) fun k c => c.put (F.KEY_PROV_BUF k) (fieldAt r (4 * k) 4)
    let (ok, c) := c.draw 2
    c.provGo.provDone (ok == 1)

/-- One record. FW_PARAM goes to the firmware and touches no register. -/
def Hub.loadRecord (r : Record) (h : Hub) : Hub :=
  match r.type with
  | 1 => h.loadWord false F.FAB_ID.off (word32 0x3FF) (word32 (fieldAt r.data 0 2))
  | 2 => h.each (wordPairs (dataWords r.data)) fun x h => h.loadWord false x.1 allBits (word32 x.2)
  | 3 =>
    match dataWords r.data with
    | [] => h
    | start :: l => h.each ((List.range l.length).zip l) fun x h => h.loadWord false (start + 4 * x.1) allBits (word32 x.2)
  | 4 => h.each (wordTriples (dataWords r.data)) fun x h => h.loadWord false x.1 (word32 x.2.1) (word32 x.2.2)
  | 5 => h.onChip (Chip.loadKeyRecord r.data)
  | 6 => h.loadPartition (dataWords r.data)
  | 7 | 0xFF => h
  | _ => h.onChip fun c => c.inc F.CFG_LOAD_SKIPPED

/-! The overlay (R474). -/

/-- Bytes 0 to 31 of an area's header and its pairs: what the HMAC covers. -/
def ovlRegion (l : List Byte) : List Byte := l.take 32 ++ (l.drop 64).take (8 * fieldAt l 16 4)

/-- What an area holds: nothing (none), or OVL_RESULT: 1 valid, 2 HMAC, 3 no key, 4 base mismatch, 5 format.
Marks: DEDUCED, log 63. -/
def Chip.ovlResult (c : Chip) (l : List Byte) : Option Nat :=
  if l.length < 64 || fieldAt l 0 4 != 0x434B_484F then none
  else if fieldAt l 4 2 ≠ 1 ∨ 8184 < fieldAt l 16 4 ∨ l.length < 64 + 8 * fieldAt l 16 4 then some 5
  else
    match c.pairKey engineImage 2 with
    | none => some 3
    | some k =>
      if Config.hmacSha256 k (ovlRegion l) != keyOfBytes ((l.drop 32).take 32) then some 2
      else if fieldAt l 12 4 ≠ c.get F.CFG_CFG_SEQ then some 4
      else some 1

/-- Is sequence number `a` at least as new as `b`: their difference modulo 2^32, taken as signed? -/
def newerSeq (a b : Nat) : Bool := decide (0 ≤ signed 32 ((a + 2 ^ 32 - b) % 2 ^ 32))

/-- Applies an overlay: only the IMG fields of each word. -/
def Hub.overlayApply (area : Nat) (l : List Byte) (h : Hub) : Hub :=
  let pairs := wordPairs (dataWords ((l.drop 64).take (8 * fieldAt l 16 4)))
  let h := h.each pairs fun x h => h.when (regAt x.1).isSome (Hub.loadInto false x.1 (imgBits x.1) (word32 x.2))
  h.onChip fun c =>
    let c := ((c.put F.CFG_STATUS_OVL_RESULT 1).put F.CFG_STATUS_OVL_AREA area).put F.CFG_OVL_SEQ (fieldAt l 8 4)
    let c := c.show256 F.CFG_OVL_DIGEST (Config.sha256 (l.take (64 + 8 * fieldAt l 16 4)))
    { c.journalEvent 2 (fieldAt l 8 4) with cfg := { c.cfg with overlay := true } }

/-- The overlay step of the load: of the valid overlays the one with the newer SEQ; any area that is ignored sets OVL_FAIL, and
without a valid overlay OVL_RESULT says why. Marks: DEDUCED, log 63. -/
def Hub.loadOverlay (o0 o1 : List Byte) (h : Hub) : Hub :=
  let r0 := h.chip.ovlResult o0
  let r1 := h.chip.ovlResult o1
  let first := newerSeq (fieldAt o0 8 4) (fieldAt o1 8 4)
  let bad := fun (r : Option Nat) => r.any fun x => x != 1
  let h := h.when (bad r0 || bad r1) fun h => h.onChip fun c => c.flag F.CFG_INT_STATUS_OVL_FAIL
  if r0 = some 1 ∧ (r1 ≠ some 1 ∨ first) then h.overlayApply 0 o0
  else if r1 = some 1 then h.overlayApply 1 o1
  else
    let why := if first then (r0.or r1).getD 0 else (r1.or r0).getD 0
    h.onChip fun c => c.put F.CFG_STATUS_OVL_RESULT why

/-! The configuration image (R472, R473). -/

/-- CFG_RESULT of a configuration image: 0 loaded, 1 absent, 2 signature, 3 FORMAT, 4 ROLE_MISMATCH.
Marks: DEDUCED, log 62. -/
def Chip.configResult (c : Chip) (i : ImageFile) : Nat :=
  if !imgPresent i false then 1
  else if !c.imageOk false i then 2
  else if (imgRole i = 0 ∧ c.headEnd) ∨ (imgRole i = 1 ∧ !c.headEnd) then 4
  else if (imgRecords i).isNone then 3
  else 0

/-- What the registers show of a configuration image: its result and role. A refused one leaves the hub unconfigured.
Marks: DEDUCED, log 62. -/
def Chip.configShown (i : ImageFile) (r : Nat) (c : Chip) : Chip :=
  let c := (c.put F.CFG_STATUS_CFG_RESULT r).put F.CFG_STATUS_STATE (if r = 0 then 3 else 2)
  let c := c.when (r != 1) fun c => c.put F.GLB_STRAPS_IMG_ROLE (if imgRole i ≤ 1 then imgRole i else 2)
  let c := c.when (r == 4) fun c => (c.put F.GLB_STRAPS_ROLE_MISMATCH 1).flag F.CFG_INT_STATUS_ROLE_MISMATCH
  if r = 0 then { (c.put F.CFG_CFG_SEQ (imgSeq i)).show256 F.KEY_MEAS_CFG (imgDigest i) with cfg := { c.cfg with accepted := true } }
  else c.flag F.CFG_INT_STATUS_NO_CONFIG

/-- Takes a configuration image: its records apply in order where it is accepted. -/
def Hub.loadConfig (i : ImageFile) (h : Hub) : Hub :=
  let r := h.chip.configResult i
  let h := h.onChip (Chip.configShown i r)
  if r = 0 then h.each ((imgRecords i).getD []) Hub.loadRecord else h

/-! The firmware and the whole load (R468, R471). -/

/-- The banks in the order they are tried: number, firmware and configuration image. Of two with a firmware header the one
whose SEQ is newer comes first. Marks: DEDUCED, log 62. -/
def Chip.bankOrder (c : Chip) (v : FlashView) : List (Nat × ImageFile × ImageFile) :=
  let a := (0, v.fwA, v.cfgA)
  let b := (1, v.fwB, v.cfgB)
  match c.get F.GLB_STRAPS_BOOT with
  | 0 =>
    if imgPresent v.fwB true && (!imgPresent v.fwA true || !newerSeq (imgSeq v.fwA) (imgSeq v.fwB)) then [b, a] else [a, b]
  | 1 => [a]
  | 2 => [b]
  | _ => []

/-- The firmware of a bank runs. -/
def Chip.firmwareStarts (bank : Nat) (i : ImageFile) (c : Chip) : Chip :=
  ((c.firmwareTaken i).put F.CFG_STATUS_FW_BANK bank).put F.CFG_FW_SEQ (imgSeq i)

/-- IMAGE_LOAD: the first permitted firmware that passes, its bank's configuration image, and the overlay. -/
def Hub.imageLoad (v : FlashView) (h : Hub) : Hub :=
  if h.chip.get F.GLB_STRAPS_BOOT = 3 then h.onChip fun c => c.put F.CFG_STATUS_STATE 5
  else
    let banks := h.chip.bankOrder v
    let failed := match banks with
      | b :: _ => !h.chip.firmwareOk b.2.1
      | [] => false
    let h := (h.onChip fun c => c.put F.CFG_STATUS_STATE 1).when failed fun h => h.onChip fun c => c.put F.CFG_STATUS_FALLBACK 1
    match banks.find? fun b => h.chip.firmwareOk b.2.1 with
    | none => h.onChip (Chip.lkFails .signature)
    | some (n, fw, cfg) =>
      let h := (h.onChip (Chip.firmwareStarts n fw)).loadConfig cfg
      h.when h.chip.cfg.accepted (Hub.loadOverlay v.ovl0 v.ovl1)

/-- May a load begin: BIST has passed, none has taken a firmware, and the Lockkeeper is not held? -/
def Chip.mayLoad (c : Chip) : Bool :=
  c.started && !c.cfg.loaded && decide (c.get F.CFG_STATUS_STATE ≤ 1) && c.get F.LKP_STATUS_STATE != 3 && c.lkp.failing.isNone

def execImageLoad (flash : FlashView) (s : State) : Host.Outcome State Fault Refusal :=
  s.onHub fun h => h.when h.chip.mayLoad (Hub.imageLoad flash)

/-- IMAGE_LOADED (R473): MKB is derived. With an accepted configuration ID_VALID sets and the event is journaled, and what acts
at that moment does (12 R531, 07 R252). Marks: DEDUCED, log 63. -/
def Hub.imageLoaded (h : Hub) : Hub :=
  let h := h.onChip fun c => { c.deriveMkb.put F.CFG_STATUS_STATE 4 with cfg := { c.cfg with loaded := true } }
  h.when h.chip.cfg.accepted fun h =>
    let h := h.onChip fun c =>
      ((c.put F.FAB_ID_ID_VALID 1).flag F.CFG_INT_STATUS_LOAD_DONE).journalEvent 1 (c.get F.CFG_CFG_SEQ)
    let h := h.live fun h => h.each chans fun y h => h.onHv (Hv.armAtBoot y)
    h.onChip fun c => c.showUsb.each [(0 : Fin 2), 1] fun x c =>
      c.when (c.downstream x && c.on (F.USB_U_CTL_VBUS_AT_BOOT x) && c.on (F.USB_U_CTL_PORT_EN x)) (Chip.vbusOn x)

/-- Is a load waiting to end: its configuration has been taken or refused? -/
def Chip.loadEnds (c : Chip) : Bool :=
  c.started && !c.cfg.loaded && (c.get F.CFG_STATUS_STATE == 2 || c.get F.CFG_STATUS_STATE == 3)

def execImageLoaded (s : State) : Host.Outcome State Fault Refusal := s.onHub fun h => h.when h.chip.loadEnds Hub.imageLoaded

/-! Recovery (R476). -/

/-- The image that the streamed bytes make up, once it is complete; `some none` where they begin no image.
Marks: DEDUCED, log 64. -/
def streamedImage (l : List Byte) : Option (Option ImageFile) :=
  let i : ImageFile := { header := l.take 256, body := l.drop 256 }
  if l.length < 256 then none
  else if imgLength i > 1_048_576 then some none
  else if l.length < 256 + imgLength i then none
  else some (some i)

/-- An image in recovery is checked as it completes: a firmware image first, then a configuration image; one that fails its
check is dropped and the wait goes on. Marks: DEDUCED, log 64. -/
def Hub.recoveryImage (i : ImageFile) (h : Hub) : Hub :=
  match h.chip.cfg.recoveryFw with
  | none =>
    h.when (h.chip.firmwareOk i) fun h => h.onChip fun c =>
      { c.firmwareStarts 2 i with cfg := { c.cfg with recoveryFw := some i } }
  | some _ => h.when (imgPresent i false && h.chip.imageOk false i) (Hub.loadConfig i)

/-- After a write into CFG_RECOVERY_BUF. Marks: DEDUCED, log 64. -/
def Hub.recoveryStep (h : Hub) : Hub :=
  match streamedImage h.chip.cfg.recovery with
  | none => h
  | some i =>
    let h := h.onChip fun c => { c with cfg := { c.cfg with recovery := [] } }
    match i with
    | none => h
    | some i => h.recoveryImage i

end Sys2Proof.Machine
end

