-- ==== Sys2Proof/Machine/Path.lean ====
section
/-! DEFINITION. The register access path (16 R477 to R484): who is admitted, what an access does, and the accesses that a held
commit makes wait (04 R126). What ends a hold stands with MGMT requests, the last of its users. -/

namespace Sys2Proof.Machine

/-! Admission (R477, R478). -/

/-- Does CFG_ADMIT, or the hub itself, admit a requester hub? One that is not known is the hub's own host. -/
def Chip.admits (c : Chip) (hub : Option (BitVec 10)) : Bool :=
  match hub with
  | none => true
  | some h =>
    c.ownId == some h.toNat || (List.range 8).any fun n =>
      c.on (F.CFG_ADMIT_VALID n) && (h.toNat ^^^ c.get (F.CFG_ADMIT_HUB n)) &&& c.get (F.CFG_ADMIT_MASK n) == 0

/-- Is the hub in the recovery wait (R476)? -/
def Chip.inRecovery (c : Chip) : Bool := c.get F.CFG_STATUS_STATE == 5

/-- Is an access of a requester carried out (Table 16-5)? -/
def Chip.pathAdmits (c : Chip) (r : Requester) : Bool :=
  c.started &&
    match r.source.val with
    | 0 => c.coresRun
    | 1 => (c.lkRun && (r.attested || c.admits r.hub)) || c.inRecovery
    | 2 => c.admits r.hub
    | 3 => c.on F.CFG_ADMIT_CTL_I2C0_EN
    | 4 => c.on F.KEY_STATUS_TAP_OPEN
    | _ => c.cfg.accepted && !c.cfg.loaded

/-- Counts a request that admission refuses (R478). -/
def Chip.admitRefused (c : Chip) : Chip := (c.inc F.CFG_ADMIT_REFUSED).flag F.CFG_INT_STATUS_ADMIT_REFUSED

/-! Words (R483). -/

/-- Is the word in the recovery window? -/
def recoveryWord (off : Nat) : Bool := decide (0x14_1000 ≤ off) && decide (off < 0x14_2000)

/-- Writes a word for a requester, and checks an image that it completes in recovery. In the recovery wait the ROM, which
answers relayed MGMT requests, writes the recovery window only (R476). The answer is RESULT. Marks: DEDUCED, log 64. -/
def Hub.wordWrite (req : Requester) (off : Nat) (v : Word) (h : Hub) : Nat × Hub :=
  if req.source = 5 then (0, h.loadWord false off allBits v)
  else if req.source = 1 ∧ h.chip.inRecovery ∧ !recoveryWord off then (1, h)
  else
    let (r, h) := h.performWrite req off v
    (r, h.when (recoveryWord off) Hub.recoveryStep)

/-- The little-endian word at a place of some bytes, as PCI Express orders them. Marks: PRESUMED, log 46. -/
def leWord (l : List Byte) (k : Nat) : Word := word32 (beVal (((l.drop (4 * k)).take 4).reverse))

/-- The bytes of a word, least significant first. Marks: PRESUMED, log 46. -/
def leBytes (w : Word) : List Byte := (beBytes 4 w.toNat).reverse

/-- Is the word one whose write commits a table entry of the forwarding block (04 R125)? -/
def commitsEntry (off : Nat) : Bool :=
  match memberAt 0x04_0000 8 1024 off, memberAt 0x04_2000 4 255 off, memberAt 0x04_4000 8 4096 off with
  | some (_, r), _, _ => r == 0
  | none, some _, _ => off % 4 == 0
  | none, none, some (_, r) => r == 4
  | _, _, _ => false

/-- Was the entry that a word commits last committed less than 1.0 ms ago (04 R126)?. Marks: DEDUCED, log 29. -/
def Chip.tooSoon (c : Chip) (off : Nat) : Bool :=
  match c.fab.commits.find? fun x => x.1 == off with
  | some (_, t) => decide (c.now < t + millisecond)
  | none => false

/-- Is the commit that a word's write would make held (04 R126)? One that HOLD or the recovery wait turns away is not.
Marks: DEDUCED, log 29. -/
def Chip.wordHeld (req : Requester) (off : Nat) (c : Chip) : Bool :=
  commitsEntry off && c.tooSoon off && req.source != 5 && !(req.source == 1 && c.inRecovery)
    && !(c.get F.LKP_STATUS_STATE == 3 && (req.source == 2 || req.source == 3))

/-- Writes consecutive words until a commit is held; `free` says that the hold of the first has ended. The answer is the greatest
RESULT, and the words left from their offset on. -/
def Hub.wordsWrite (req : Requester) : Bool → Nat → Nat → List Word → Hub → (Nat × Nat × List Word) × Hub
  | _, worst, off, [], h => ((worst, off, []), h)
  | free, worst, off, w :: ws, h =>
    if !free && h.chip.wordHeld req off then ((worst, off, w :: ws), h)
    else
      let (r, h) := h.wordWrite req off w
      h.wordsWrite req false (max worst r) (off + 4) ws

/-- Reads consecutive words. -/
def Hub.wordsRead (req : Requester) : List Nat → Hub → List Word × Hub
  | [], h => ([], h)
  | off :: offs, h =>
    let (w, h) := h.pathRead req off
    let (ws, h) := h.wordsRead req offs
    (w :: ws, h)

/-- Whole words of a bridge write; none where its first or last word is partial (R259). Marks: DEDUCED, log 45. -/
def wholeWords (off : Nat) (l : List Byte) : Option (List Word) :=
  if off % 4 ≠ 0 ∨ l.length % 4 ≠ 0 then none else some ((List.range (l.length / 4)).map (leWord l))

/-- A bridge read of REG: every word that it touches is read, and the answer is each whole word (R259). -/
def Hub.regRead (req : Requester) (off len : Nat) (h : Hub) : List Byte × Hub :=
  let first := off / 4
  let n := (off + len + 3) / 4 - first
  let (ws, h) := h.wordsRead req ((List.range n).map fun k => 4 * (first + k))
  (ws.flatMap leBytes, h)

/-- The access that the path is kept with while a commit is held (R484). -/
def Chip.holdPath (a : PathAccess) (c : Chip) : Chip := c.modFab fun f => { f with held := some a }

/-- Carries out a write of whole words: its greatest RESULT, or none where a commit is held with what is left of it. -/
def Hub.writeAccess (free : Bool) (a : PathAccess) (h : Hub) : Option Nat × Hub :=
  match h.wordsWrite a.req free a.worst a.off ((List.range (a.data.length / 4)).map (leWord a.data)) with
  | ((worst, _, []), h) => (some worst, h)
  | ((worst, off, ws), h) => (none, h.onChip (Chip.holdPath { a with off := off, data := ws.flatMap leBytes, worst := worst }))

/-- The bridge status of a write by its greatest RESULT (Table 08-4): 2 CA in HOLD (R482). -/
def writeStatus (result : Nat) : Nat := if result = 4 then 2 else 0

/-! Accesses (R484). -/

/-- The end of an access: a part of one into the own spaces ends as that says; else a read is answered through I2C0, or as a completion on
the PCI Express link (08 R275), and a posted write of that link that fails is reported by AER. Marks: PRESUMED, log 46. -/
def Chip.accessEnds (a : PathAccess) (status : Nat) (bytes : List Byte) (c : Chip) : Chip :=
  match a.of_ with
  | .range p => c.ownEnd p a.write status bytes
  | _ =>
    if !a.answered then c
    else if a.req.source = 3 then (if a.write then c else c.emit (.i2c (leWord bytes 0)))
    else if a.write then c.when (status != 0) (Chip.pcieAct (.aer (!c.headEnd) a.req.tag.toNat status))
    else
      let data := if status = 0 then bytes else List.replicate a.len 0#8
      c.answer { id := 0, drive := !c.headEnd, reqId := a.req.tag.toNat, data := data, left := 0, worst := status }

/-- Carries out one access: its status (Table 08-4) and bytes, or none where a commit is held. A write of the own host that covers a
word in part ends with UR, and one that admission refuses with CA (R259). -/
def Hub.carryOut (a : PathAccess) (h : Hub) : Option (Nat × List Byte) × Hub :=
  if !h.chip.pathAdmits a.req then
    (some (2, []), h.onChip fun c => c.when (c.started && (a.req.source == 1 || a.req.source == 2)) Chip.admitRefused)
  else if a.write then
    if a.req.source = 2 ∧ (wholeWords a.off a.data).isNone then (some (1, []), h)
    else
      match h.writeAccess false a with
      | (some r, h) => (some (writeStatus r, []), h)
      | (none, h) => (none, h)
  else if a.req.source = 2 then
    let (l, h) := h.regRead a.req a.off a.len
    (some (0, l), h)
  else
    let (w, h) := h.pathRead a.req a.off
    (some (0, leBytes w), h)

/-- Serves one access, which wakes the domain of its register (15 R455); a part of one into the own spaces is carried out once more where it fails as R277 says. -/
def Hub.serve (a : PathAccess) (h : Hub) : Hub :=
  let h := h.onChip fun c => c.modFab fun f => { f with served := a.req.source.val }
  let h := h.when (h.chip.pathAdmits a.req) fun h => h.onChip (Chip.accessRegister a.off)
  match h.carryOut a with
  | (none, h) => h
  | (some (st, l), h) =>
    match a.own? with
    | none => h.when (a.req.source == 2 || (h.chip.pathAdmits a.req)) fun h => h.onChip (Chip.accessEnds a st l)
    | some p =>
      if p.retries a.write st then
        let a := { a with of_ := .range { p with again := true } }
        match h.carryOut a with
        | (none, h) => h
        | (some (st, l), h) => h.onChip (Chip.accessEnds a st l)
      else h.onChip (Chip.accessEnds a st l)

/-- Must an access of the own PCI Express link wait: another hub holds REG (08 R280)? -/
def Chip.pathLocked (c : Chip) (a : PathAccess) : Bool := a.req.source == 2 && c.lockedOut 0

/-- An access from outside the core first ends Deep sleep (15 R452). -/
def Hub.accessWakes (a : PathAccess) (h : Hub) : Hub := h.when (a.req.source != 0 && a.req.source != 5) fun h => h.onChip (Chip.accessWakes (a.req.source == 3))

/-- An access arrives at the path; behind a held one, or where its space is held, it waits. Marks: DEDUCED, log 27. -/
def Hub.request (a : PathAccess) (h : Hub) : Hub :=
  let h := h.accessWakes a
  if h.chip.fab.held.isSome || h.chip.pathLocked a then h.onChip fun c => c.modFab fun f => { f with waiting := f.waiting ++ [a] } else h.serve a

/-- The waiting access whose source comes first after the one last served, in the order of Table 16-5. -/
def nextWaiting (served : Nat) (l : List PathAccess) : Option PathAccess :=
  (List.range 6).findSome? fun k => l.find? fun a => a.req.source.val == (served + 1 + k) % 6

/-- Serves the waiting accesses in round-robin order until one is held. -/
def Hub.drainPath : Nat → Hub → Hub
  | 0, h => h
  | n + 1, h =>
    if h.chip.fab.held.isSome then h
    else
      match nextWaiting h.chip.fab.served (h.chip.fab.waiting.filter fun a => !h.chip.pathLocked a) with
      | none => h
      | some a => Hub.drainPath n ((h.onChip fun c => c.modFab fun f => { f with waiting := f.waiting.erase a }).serve a)

/-! The forms that the commands of register writes take. -/

/-- A write of a whole word by a requester. -/
def Hub.pathWrite (req : Requester) (off : Nat) (v : Word) (h : Hub) : Hub :=
  h.request { req := req, write := true, off := off, len := 4, data := leBytes v, answered := false, worst := 0, of_ := .plain }

/-- A word as software writes it back with some fields changed: no W1C bit set. -/
def Hub.wordWith (h : Hub) (off : Nat) (fields : List (Field × Nat)) : Word :=
  let w1c := match regAt off with
    | some e => word32 e.w1c
    | none => 0#32
  fields.foldl (fun w x => wordWithField w x.1.lo x.1.width x.2) (h.readWord off &&& ~~~w1c)

/-- A write by a requester that changes some fields of one word. -/
def State.writeFields (s : State) (req : Requester) (off : Nat) (fields : List (Field × Nat)) : Host.Outcome State Fault Refusal :=
  s.onHub fun h => h.pathWrite req off (h.wordWith off fields)

/-- A write of a whole word. -/
def State.writeWord (s : State) (req : Requester) (off : Nat) (v : Word) : Host.Outcome State Fault Refusal :=
  s.onHub (Hub.pathWrite req off v)

end Sys2Proof.Machine
end

