-- ==== Sys2Proof/Machine/Config16.lean ====
section
/-! DEFINITION. Accesses of the board controller and of the hub's own host, and the ends of commits, flash commands and counters
(16 R477, R484, R488, R489, R495). -/

namespace Sys2Proof.Machine

/-! Accesses (R477, R484). -/

/-- I2C0_ACCESS: the board controller reads or writes a word. -/
def Hub.i2cAccess (write : Bool) (off : Nat) (v : Word) (h : Hub) : Hub :=
  h.request {
    req := { source := 3, hub := none, tag := 0, attested := false }, write := write, off := off, len := 4, data := leBytes v
    answered := true, worst := 0, of_ := .plain }

def execI2c0Access (write : Bool) (off : BitVec 24) (value : BitVec 32) (s : State) : Host.Outcome State Fault Refusal :=
  s.onHub (Hub.i2cAccess write off.toNat value)

/-- The requester that an access of the hub's own host, or of its drive, is journaled as. -/
def Chip.ownHost (c : Chip) (reqId : BitVec 16) : Requester :=
  { source := 2, hub := c.ownId.map fun h => BitVec.ofNat 10 h, tag := reqId, attested := false }

/-- BRIDGE_REG_ACCESS: an access of the hub's own PCI Express link to its REG space (08 R259, R264). -/
def Hub.ownRegAccess (write : Bool) (off len : Nat) (data : List Byte) (reqId : BitVec 16) (h : Hub) : Hub :=
  h.request {
    req := h.chip.ownHost reqId, write := write, off := off, len := len, data := data.take len, answered := true, worst := 0, of_ := .plain }

def execBridgeRegAccess (write : Bool) (off : BitVec 24) (len : Nat) (data : List Byte) (reqId : BitVec 16) (s : State) :
    Host.Outcome State Fault Refusal :=
  s.onHub fun h => h.when (h.chip.started && h.chip.on F.WIN_STATUS_LINK_UP) (Hub.ownRegAccess write off.toNat len data reqId)

/-! Commits (R488). -/

/-- The bytes of an overlay (R474). -/
def Chip.overlayBytes (c : Chip) (job : CommitJob) (key : Key256) : List Byte :=
  let head := beBytes 4 0x434B_484F ++ beBytes 2 1 ++ beBytes 2 0 ++ beBytes 4 job.seq ++ beBytes 4 (c.get F.CFG_CFG_SEQ)
    ++ beBytes 4 job.words.length ++ List.replicate 12 0#8
  let pairs := job.words.flatMap fun x => beBytes 4 x.1 ++ beBytes 4 x.2.toNat
  head ++ keyBytes (Config.hmacSha256 key (head ++ pairs)) ++ pairs

/-- COMMIT_DONE: the overlay has been written, or the flash has failed. Marks: DEDUCED, log 26. -/
def Chip.commitDone (ok : Bool) (c : Chip) : Chip :=
  match c.cfg.commit with
  | none => c
  | some job =>
    let c := { (c.put F.CFG_COMMIT_BUSY 0).put F.CFG_COMMIT_RESULT (if ok then 1 else 4) with cfg := { c.cfg with commit := none } }
    match ok, c.pairKey engineImage 2 with
    | true, some k =>
      let at_ := 0x1_0000 * job.area
      let c := (c.emit (.flash 3 at_ [])).emit (.flash 1 at_ (c.overlayBytes job k))
      (c.flag F.CFG_INT_STATUS_COMMIT_DONE).journalEvent 3 job.seq
    | _, _ => c.put F.CFG_COMMIT_RESULT 4

def execCommitDone (ok : Bool) (s : State) : Host.Outcome State Fault Refusal := s.onChip fun c => c.when c.running (Chip.commitDone ok)

/-! Flash commands (R489). -/

/-- FLASH_DONE: the command ends, and a read's bytes fill CFG_FL_BUF. -/
def Chip.flashDone (ok : Bool) (data : List Byte) (c : Chip) : Chip :=
  match c.cfg.flash with
  | none => c
  | some (op, _) =>
    let c := { (c.put F.CFG_FL_CMD_BUSY 0).put F.CFG_FL_CMD_RESULT (if ok then 0 else 2) with cfg := { c.cfg with flash := none } }
    let c := c.when (ok && op == 0) fun c => c.each (List.range 64) fun k c => c.put (F.CFG_FL_BUF k) (fieldAt data (4 * k) 4)
    c.flag F.CFG_INT_STATUS_FLASH_DONE

def execFlashDone (ok : Bool) (data : List Byte) (s : State) : Host.Outcome State Fault Refusal :=
  s.onChip fun c => c.when c.running (Chip.flashDone ok data)

/-! Counters (R495). -/

/-- COUNTER_WRAP: the event that takes a counter past 2^48 − 1. -/
def Chip.counterWrap (n : Nat) (c : Chip) : Chip :=
  let counts := decide (88 ≤ n) || ((c.counter n).mode != 0 && !c.on F.CNT_CTL_FREEZE)
  c.when ((c.counter n).value == 2 ^ 48 - 1 && counts) fun c => { c with cnt := c.cnt.advance n 1 }

def execCounterWrap (n : Fin 96) (s : State) : Host.Outcome State Fault Refusal :=
  s.onChip fun c => c.when c.running (Chip.counterWrap n.val)

end Sys2Proof.Machine
end

