-- ==== Sys2Proof/Machine/Bridge.lean ====
section
/-! DEFINITION. The window bridge as a target (08 R257 to R260, R268, R269, R280), and the requests of the host and of a field
drive (08 R264 to R271). -/

namespace Sys2Proof.Machine

/-! The spaces (Table 08-2). -/

/-- The answer of a local space to an access: a status (Table 08-4) and, for a read, its bytes. -/
inductive TgtAnswer where
  | done (status : Nat) (bytes : List Byte)
  /-- The local link has not answered. -/
  | silent
  /-- A commit is held (04 R126). -/
  | held

/-- The link's greatest payload and read request (Table 08-5). Marks: PRESUMED, log 46. -/
def Chip.linkCut (c : Chip) : Nat := 128 * 2 ^ min 2 (c.get F.WIN_PCI_CFG_MPS_MAX)

/-- An access on the local PCI Express link, cut to its payload and read request size (R268). -/
def Hub.linkAccess (config write : Bool) (addr len : Nat) (data : List Byte) (link : LinkReply) (h : Hub) : TgtAnswer × Hub :=
  let k := h.chip.linkCut
  let h := h.onChip fun c => c.each (List.range ((len + k - 1) / k)) fun i c =>
    c.pcieAct (if write then .write config (addr + k * i) ((data.drop (k * i)).take k) else .read config (addr + k * i) (min k (len - k * i)))
  match link with
  | .ok bytes => (.done 0 ((bytes ++ List.replicate len 0#8).take len), h)
  | .failed st => (.done (if st = 0 then 2 else st.toNat) [], h)
  | .silent => (.silent, h)

/-- Does a request into MEM lie inside the host-memory window, and may the endpoint carry it out (R260)? -/
def Chip.hostMemoryOk (c : Chip) (off len : Nat) : Bool :=
  let (base, size) := c.hostWindow
  c.on F.WIN_HOSTMEM_CFG_EN && c.on F.WIN_STATUS_BME && c.on F.WIN_STATUS_LINK_UP && decide (base ≤ off) && decide (off + len ≤ base + size)

/-- MEM: the root port's link at a field hub, host memory at a head-end. -/
def Hub.memAccess (write : Bool) (off len : Nat) (data : List Byte) (link : LinkReply) (h : Hub) : TgtAnswer × Hub :=
  let ok := if h.chip.headEnd then h.chip.hostMemoryOk off len else h.chip.on F.WIN_STATUS_LINK_UP && decide (off + len ≤ 2 ^ 48)
  if ok then h.linkAccess false write off len data link else (.done 1 [], h)

/-- The writable bits of a word of a Type 1 header: command, cache line size, bus numbers, the memory windows, interrupt line and bridge
control. Marks: PRESUMED, log 46. -/
def rpMask (k : Nat) : Word :=
  match k with
  | 1 => 0x547#32
  | 3 => 0xFF#32
  | 6 => 0xFF_FFFF#32
  | 8 | 9 => 0xFFF0_FFF0#32
  | 10 | 11 => 0xFFFF_FFFF#32
  | 15 => 0x5F_00FF#32
  | _ => 0#32

/-- The other bits of a word of the root port's header: the identity of WIN_PCI_ID, class 0x06_0400, header type 1, and a capability list.
Marks: PRESUMED, log 46. -/
def Chip.rpFixed (c : Chip) (k : Nat) : Word :=
  match k with
  | 0 => c.regs.word F.WIN_PCI_ID.off
  | 1 => 0x10_0000#32
  | 2 => 0x0604_0000#32
  | 3 => 0x1_0000#32
  | 9 => 0x1_0001#32
  | _ => 0#32

/-- A word of the root port's own header as it reads. -/
def Chip.rpWord (c : Chip) (k : Nat) : Word := c.rpFixed k ||| c.win.rpHdr[Fin.ofNat 16 k]

/-- The root port's subordinate bus number (R259). -/
def Chip.subBus (c : Chip) : Nat := wordField (c.rpWord 6) 16 8

/-- A byte of the header that no source gives: the revision, the place of the first capability, and everything after the header. -/
def rpOpen (i : Nat) : Bool := i == 8 || i == 0x34 || decide (64 ≤ i)

/-- Writes bytes of the root port's own header (R259). -/
def Chip.rpWrite (off : Nat) (data : List Byte) (c : Chip) : Chip :=
  let set := fun (v : Vector Word 16) (x : Byte × Nat) =>
    let i := off + x.2
    if 64 ≤ i then v
    else upd v (Fin.ofNat 16 (i / 4)) fun w =>
      let m : Word := rpMask (i / 4) &&& BitVec.ofNat 32 (0xFF * 2 ^ (8 * (i % 4)))
      (w &&& ~~~m) ||| (BitVec.ofNat 32 (x.1.toNat * 2 ^ (8 * (i % 4))) &&& m)
  c.modWin fun w => { w with rpHdr := data.zipIdx.foldl set w.rpHdr }

/-- Reads bytes of the root port's own header and of what follows it; a byte that no source gives is a free value (log 2). -/
def Chip.rpRead (off len : Nat) (c : Chip) : List Byte × Chip :=
  let (v, c) := c.draw (256 ^ len)
  let free := beBytes len v
  ((List.range len).map fun j =>
    let i := off + j
    if rpOpen i then free.getD j 0 else (c.rpWord (i / 4)).extractLsb' (8 * (i % 4)) 8, c)

/-- CFG (R259): the root port's own header on bus 0, and the buses behind it. A head-end lacks the space.
Marks: PRESUMED, log 46. -/
def Hub.cfgAccess (write : Bool) (off len : Nat) (data : List Byte) (link : LinkReply) (h : Hub) : TgtAnswer × Hub :=
  let bus := off / 2 ^ 20
  if h.chip.headEnd || decide (0x1000_0000 < off + len) then (.done 1 [], h)
  else if off / 0x1000 = 0 then
    if write then (.done 0 [], h.onChip (Chip.rpWrite off data))
    else
      let (l, c) := h.chip.rpRead off len
      (.done 0 l, { h with chip := c })
  else if 1 ≤ bus ∧ bus ≤ h.chip.subBus ∧ h.chip.on F.WIN_STATUS_LINK_UP then h.linkAccess true write off len data link
  else (.done 1 [], h)

/-- STAGE: a read that meets a poisoned word is POISONED (14 R431). -/
def Hub.stageAccess (write : Bool) (off len : Nat) (data : List Byte) (h : Hub) : TgtAnswer × Hub :=
  if stageSize < off + len then (.done 1 [], h)
  else if write then (.done 0 [], h.onChip (Chip.stageStore off data))
  else if h.chip.stagePoisoned off len then (.done 4 [], h)
  else (.done 0 (memRead h.chip.win.stage off len), h)

/-- REG (R259): a management access, a request's or a piece of the own host's. -/
def Hub.regAccess (req : Requester) (of_ : AccessOf) (write : Bool) (off len : Nat) (data : List Byte) (h : Hub) : TgtAnswer × Hub :=
  if 0x100_0000 < off + len then (.done 1 [], h)
  else if !h.chip.pathAdmits req then (.done 2 [], h.onChip Chip.admitRefused)
  else if write then
    if (wholeWords off data).isNone then (.done 1 [], h)
    else
      match h.writeAccess false { req := req, write := true, off := off, len := len, data := data, answered := false, worst := 0, of_ := of_ } with
      | (some r, h) => (.done (writeStatus r) [], h)
      | (none, h) => (.held, h)
  else
    let (l, h) := h.regRead req off len
    (.done 0 l, h)

/-- Does WIN_CTL let the hub accept requests into a space (R258)? -/
def Chip.spaceOn (c : Chip) (space : Nat) : Bool :=
  c.on F.WIN_CTL_EN &&
    match space with
    | 0 => c.on F.WIN_CTL_TGT_REG_EN
    | 1 => c.on F.WIN_CTL_TGT_MEM_EN
    | 2 => c.on F.WIN_CTL_TGT_CFG_EN
    | 3 => c.on F.WIN_CTL_TGT_STAGE_EN
    | _ => false

/-- A request at the hub's own spaces. -/
def Hub.target (req : Requester) (of_ : AccessOf) (write : Bool) (fwa len : Nat) (data : List Byte) (link : LinkReply) (h : Hub) : TgtAnswer × Hub :=
  let off := fwaOffset fwa
  if fwaReserved fwa ≠ 0 ∨ h.chip.ownId ≠ some (fwaHub fwa) ∨ !h.chip.spaceOn (fwaSpace fwa) then (.done 1 [], h)
  else
    match fwaSpace fwa with
    | 0 => h.regAccess req of_ write off len data
    | 1 => h.memAccess write off len data link
    | 2 => h.cfgAccess write off len data link
    | 3 => h.stageAccess write off len data
    | _ => (.done 1 [], h)

/-! Requests from the fabric (R268, R269, R280). -/

/-- Must a request wait: its space is held by another hub (R280), its tunnel has MAX_NP requests on the local bus (R269), or a
held commit keeps the register access path (16 R484)? -/
def Chip.requestWaits (c : Chip) (m : Msg) : Bool :=
  let space := fwaSpace (winFwa m)
  let other := match c.lockHolder space with
    | some h => h != m.src.toNat
    | none => false
  let np := winKind m != 1 && decide (max 1 (c.get F.WIN_TIMER_MAX_NP) ≤ (c.win.target.filter fun r => r.tunnel == m.tunnel.toNat && !r.posted).length)
  (other && !winLseq m) || np || (space == 0 && c.fab.held.isSome)

/-- The next request of a kind that need not wait. -/
def Chip.nextRequest (kind : Nat) (given : Option Msg) (c : Chip) : Option Msg × Chip := c.nextWin kind given fun c m => !c.requestWaits m

/-- Is the message whole: its address, and its data of LENGTH bytes inside one 512-byte block (R262)? -/
def winWhole (m : Msg) : Bool :=
  let n := winLen m
  decide (1 ≤ n) && decide (n ≤ 512) && decide (winFwa m % 512 + n ≤ 512) && m.payload.length == (if winKind m = 0 then 8 else 8 + n)

/-- Carries out a request and answers it. -/
def Hub.winRequest (m : Msg) (link : LinkReply) (h : Hub) : Hub :=
  let write := winKind m != 0
  let posted := winKind m == 1
  let fwa := winFwa m
  let answer := fun (st : Nat) (l : List Byte) (h : Hub) => h.onChip (Chip.tgtAnswer m.tunnel.toNat (winTag m) write posted fwa st l)
  if !winWhole m then h.onChip fun c => c.inc F.WIN_MSG_ERR
  else if winLseq m ∧ h.chip.lockHolder (fwaSpace fwa) ≠ some m.src.toNat then answer 5 [] h
  else
    -- no tag or PCI Express requester ID comes with a bridge message: what the journal's TAG holds is a free value (log 2)
    let (tag, c) := h.chip.draw 65536
    let req : Requester := { source := 2, hub := some m.src, tag := BitVec.ofNat 16 tag, attested := false }
    let r : TgtReq := { tunnel := m.tunnel.toNat, tag := winTag m, write := write, posted := posted, fwa := fwa }
    match { h with chip := c }.target req (.window r) write fwa (winLen m) (m.payload.drop 8) link with
    | (.done st l, h) => answer st l h
    | (.silent, h) => h.onChip fun c => c.modWin fun w => { w with target := w.target ++ [r] }
    | (.held, h) => h

/-- A command that takes the next request of a kind. -/
def Hub.onRequest (kind : Nat) (msg : Option Msg) (link : LinkReply) (h : Hub) : Hub :=
  match h.chip.nextRequest kind msg with
  | (some m, c) => { h with chip := c.takeWin m }.winRequest m link
  | (none, c) => { h with chip := c }

def execBridgeRdRx (msg : Option Msg) (link : LinkReply) (s : State) : Host.Outcome State Fault Refusal := s.onHub (Hub.onRequest 0 msg link)
def execBridgeWrPRx (msg : Option Msg) (link : LinkReply) (s : State) : Host.Outcome State Fault Refusal := s.onHub (Hub.onRequest 1 msg link)
def execBridgeWrNpRx (msg : Option Msg) (link : LinkReply) (s : State) : Host.Outcome State Fault Refusal := s.onHub (Hub.onRequest 2 msg link)

/-! Requests of the host and of a drive (R266 to R271). -/

/-- The access ends with UR (R267): a write has no completion, and AER reports it (R263). -/
def Chip.localUr (drive : Bool) (reqId : BitVec 16) (write : Bool) (len : Nat) (c : Chip) : Chip :=
  let c := c.inc F.WIN_UR_LOCAL
  if write then c.pcieAct (.aer drive reqId.toNat 1)
  else c.answer { id := 0, drive := drive, reqId := reqId.toNat, data := List.replicate len 0#8, left := 0, worst := 1 }

/-- A message of the requester waits to be issued. -/
def Chip.winQueue (a : WinAsk) (id : Nat) (fwa len : Nat) (data : List Byte) (users : List PieceUser) (fill : Bool) (c : Chip) : Chip :=
  c.modWin fun w => { w with
    queue := w.queue ++ [{
      acc := id, tag := 0, rng := a.rng, tunnel := c.get (F.WIN_RNG0_TUNNEL a.rng), sideEffect := c.on (F.WIN_RNG0_SIDE_EFFECT a.rng)
      lockCap := c.on (F.WIN_RNG0_LOCK_CAP a.rng), write := a.write, posted := a.write && c.on (F.WIN_RNG0_POSTED a.rng), fwa := fwa
      len := len, data := data, drive := a.drive, reqId := a.reqId.toNat, again := false, users := users, fill := fill }] }

/-- A prefetching read of one piece (R270): it is answered from a buffer, or waits for one that is filling; else the answer is the block
to fetch, for which it takes a buffer, and the part of it that the piece is. -/
def Chip.prefetch (a : WinAsk) (id fwa len pos : Nat) (c : Chip) : Option (Nat × Nat × PieceUser) × Chip :=
  match c.win.pf.find? fun b => b.covers a.rng fwa len with
  | some b =>
    let u : PieceUser := { acc := id, pos := pos, off := fwa - b.fwa, len := len }
    let c := (c.inc F.WIN_PF_HIT).modWin fun w => { w with pf := b :: w.pf.erase b }
    match b.data with
    | some l => (none, c.partDone u 0 l)
    | none =>
      let join := fun (r : WinReq) => if r.fill && r.fwa == b.fwa && r.rng == a.rng then { r with users := r.users ++ [u] } else r
      let c := c.modWin fun w => { w with queue := w.queue.map join, out := w.out.map join }
      (none, c.mapOwn fun p => if p.fill && p.fwa == b.fwa && p.rng == a.rng then { p with users := p.users ++ [u] } else p)
  | none =>
    let base := max (fwa / 512 * 512) (c.rangeBase a.rng)
    let top := min (fwa / 512 * 512 + 512) (c.rangeBase a.rng + c.rangeSize a.rng)
    let b : PfBuf := { rng := a.rng, fwa := base, len := top - base, data := none }
    let c := c.modWin fun w => { w with pf := w.pf.take 7 }
    let c := c.pfUnfill.modWin fun w => { w with pf := b :: w.pf }
    (some (base, top - base, { acc := id, pos := pos, off := fwa - base, len := len }), c)

/-- Does a read go through the prefetch buffers (R270, R271)? -/
def Chip.prefetches (c : Chip) (a : WinAsk) : Bool := !a.drive && c.on (F.WIN_RNG0_PREFETCH a.rng) && !c.on (F.WIN_RNG0_SIDE_EFFECT a.rng)

/-- One piece of an access to another hub. -/
def Chip.remotePiece (a : WinAsk) (id : Nat) (x : Nat × Nat × Nat) (c : Chip) : Chip :=
  let (fwa, len, pos) := x
  if a.write then
    let c := c.pfDiscard fun b => b.overlaps fwa len
    c.winQueue a id fwa len ((a.data.drop pos).take len) [] false
  else if c.prefetches a then
    match c.prefetch a id fwa len pos with
    | (some (base, n, u), c) => c.winQueue a id base n [] [u] true
    | (none, c) => c
  else c.winQueue a id fwa len [] [{ acc := id, pos := pos, off := 0, len := len }] false

/-- Carries out a part of an access into the hub's own spaces (R266): REG goes through the access path; another space answers at once, and
where it fails as R277 says it is asked once more. Marks: DEDUCED, log 45. -/
def Hub.ownPiece (a : WinAsk) (p : OwnPiece) (data : List Byte) (link : LinkReply) (h : Hub) : Hub :=
  let off := fwaOffset p.fwa
  let req := h.chip.ownHost a.reqId
  if fwaSpace p.fwa = 0 ∧ fwaReserved p.fwa = 0 ∧ h.chip.spaceOn 0 ∧ off + p.len ≤ 0x100_0000 then
    h.request { req := req, write := a.write, off := off, len := p.len, data := data, answered := false, worst := 0, of_ := .range p }
  else
    let once := fun (h : Hub) =>
      let (r, h) := h.target req .plain a.write p.fwa p.len data link
      match r with
      | .done st bytes => (st, bytes, h)
      | .silent => (3, [], h)
      | .held => (0, [], h)
    let (st, bytes, h) := once h
    if p.retries a.write st then
      let (st, bytes, h) := once h
      h.onChip (Chip.ownEnd { p with again := true } a.write st bytes)
    else h.onChip (Chip.ownEnd p a.write st bytes)

/-- Carries out the pieces of an access into the own spaces, in order; `at_` counts the bytes that the local link has been asked for, which
the link's reply holds in that order. -/
def Hub.localPieces (a : WinAsk) (id : Nat) (link : LinkReply) : Nat → List (Nat × Nat × Nat) → Hub → Hub
  | _, [], h => h
  | at_, (fwa, len, pos) :: ps, h =>
    let c := h.chip
    let reply := fun (n : Nat) => match link with
      | .ok bytes => LinkReply.ok ((bytes.drop at_).take n)
      | other => other
    let piece := fun (base n : Nat) (users : List PieceUser) (fill : Bool) => ({
      acc := id, rng := a.rng, fwa := base, len := n, sideEffect := c.on (F.WIN_RNG0_SIDE_EFFECT a.rng)
      posted := a.write && c.on (F.WIN_RNG0_POSTED a.rng), drive := a.drive, again := false, fill := fill, users := users } : OwnPiece)
    if a.write then
      let h := h.onChip (Chip.pfDiscard fun b => b.overlaps fwa len)
      (h.ownPiece a (piece fwa len [] false) ((a.data.drop pos).take len) (reply len)).localPieces a id link (at_ + len) ps
    else if c.prefetches a then
      match c.prefetch a id fwa len pos with
      | (some (base, n, u), c) => ({ h with chip := c }.ownPiece a (piece base n [u] true) [] (reply n)).localPieces a id link (at_ + n) ps
      | (none, c) => { h with chip := c }.localPieces a id link at_ ps
    else
      (h.ownPiece a (piece fwa len [{ acc := id, pos := pos, off := 0, len := len }] false) [] (reply len)).localPieces a id link (at_ + len) ps

/-- Carries out an access into the hub's own spaces (R266). -/
def Hub.ownAccess (id : Nat) (a : WinAsk) (link : LinkReply) (h : Hub) : Hub :=
  let ps := pieces a.fwa a.len
  let h := h.onChip fun c => c.modWin fun w => { w with
    accesses := if a.write then w.accesses else
      w.accesses ++ [{ id := id, drive := a.drive, reqId := a.reqId.toNat, data := List.replicate a.len 0#8, left := ps.length, worst := 0 }] }
  h.localPieces a id link 0 ps

/-- Must an access into the own spaces wait: MEM is held by another hub (R280), or it is a read behind a non-posted write without its CPL
(R269)? -/
def Chip.localWaits (c : Chip) (id : Nat) (a : WinAsk) : Bool :=
  (fwaSpace a.fwa == 1 && c.lockedOut 1) || (!a.write && c.writesOpen id)

/-- Carries out an access that its range lets through. -/
def Hub.winAsk (a : WinAsk) (link : LinkReply) (h : Hub) : Hub :=
  let id := h.chip.win.nextAccess
  let h := h.onChip fun c => c.modWin fun w => { w with nextAccess := id + 1 }
  if h.chip.rangeLocal a.rng then
    if !h.chip.win.locals.isEmpty || h.chip.localWaits id a then h.onChip fun c => c.modWin fun w => { w with locals := w.locals ++ [{ id := id, ask := a, link := link }] }
    else h.ownAccess id a link
  else
    let ps := pieces a.fwa a.len
    h.onChip fun c =>
      let c := c.modWin fun w => { w with
        accesses := if a.write then w.accesses else
          w.accesses ++ [{ id := id, drive := a.drive, reqId := a.reqId.toNat, data := List.replicate a.len 0#8, left := ps.length, worst := 0 }] }
      (c.each ps (Chip.remotePiece a id)).winPump

/-- Carries out the accesses into the own spaces that wait no longer, in order (R269). -/
def Hub.localsRun : Nat → Hub → Hub
  | 0, h => h
  | n + 1, h =>
    match h.chip.win.locals with
    | [] => h
    | x :: rest =>
      if h.chip.localWaits x.id x.ask then h
      else Hub.localsRun n ((h.onChip fun c => c.modWin fun w => { w with locals := rest }).ownAccess x.id x.ask x.link)

/-- Ends a non-posted write or a read, and lets go on what waited for it. -/
def Hub.afterWrite (f : Chip → Chip) (h : Hub) : Hub :=
  let h := h.onChip f
  if h.chip.win.locals.isEmpty then h else (h.localsRun h.chip.win.locals.length).onChip Chip.winPump

/-- BRIDGE_CPL_RX: it ends a non-posted write, or a read that failed. -/
def execBridgeCplRx (msg : Option Msg) (s : State) : Host.Outcome State Fault Refusal :=
  s.onHub (Hub.afterWrite (Chip.onWin 4 msg fun m c => c.winComplete (winTag m) (winStatus m) []))

/-- Lets go on what waited for a lock or at the path, in order. -/
def Hub.lockEnds (f : Chip → Chip) (h : Hub) : Hub :=
  let h := h.onChip f
  (h.drainPath h.chip.fab.waiting.length).afterWrite id

def execLockRelRx (msg : Option Msg) (s : State) : Host.Outcome State Fault Refusal := s.onHub (Hub.lockEnds (Chip.onWin 9 msg Chip.lockRelRx))

/-- LOCK_HOLD_LIMIT (R281): REG, or MEM, has been held for 1 ms. -/
def execLockHoldLimit (mem : Bool) (s : State) : Host.Outcome State Fault Refusal := s.onHub (Hub.lockEnds (Chip.lockBreak mem.toNat))

def execCplTimeout (tag : Byte) (s : State) : Host.Outcome State Fault Refusal := s.onHub (Hub.afterWrite (Chip.cplTimeout tag.toNat))

/-- An access through a window onto a range, or UR. Marks: DEDUCED, log 45. -/
def Hub.windowAccess (drive : Bool) (rng : Option Nat) (write : Bool) (off len : Nat) (data : List Byte) (reqId : BitVec 16) (link : LinkReply)
    (h : Hub) : Hub :=
  let data := (data ++ List.replicate len 0#8).take len
  match rng.bind fun r => (h.chip.rangeAccess r off len).map fun fwa => (r, fwa) with
  | none => h.onChip (Chip.localUr drive reqId write len)
  | some (r, fwa) => h.winAsk { drive := drive, reqId := reqId, write := write, rng := r, fwa := fwa, len := len, data := data } link

/-- The size of BAR2 as a power of two: 20 to 36, anything else taken as 24. -/
def Chip.bar2Log2 (c : Chip) : Nat :=
  let n := c.get F.WIN_PCI_CFG_BAR2_LOG2
  if 20 ≤ n ∧ n ≤ 36 then n else 24

/-- The host accesses BAR2 (R264, R267). Marks: DEDUCED, log 45. -/
def Hub.barAccess (write : Bool) (offset len : Nat) (data : List Byte) (reqId : BitVec 16) (link : LinkReply) (h : Hub) : Hub :=
  let l := h.chip.bar2Log2
  let n := offset / 2 ^ (l - 4)
  if !h.chip.started || !h.chip.headEnd || !h.chip.on F.WIN_STATUS_LINK_UP || len = 0 || decide (2 ^ l ≤ offset) then h
  else
    let rng := if h.chip.on (F.WIN_BARWIN_EN n) then some (h.chip.get (F.WIN_BARWIN_RANGE n)) else none
    h.windowAccess false rng write (offset % 2 ^ (l - 4)) len data reqId link

/-- Writes bytes in the MSI-X table, from a byte of it on. -/
def Chip.msixWrite (at_ : Nat) (l : List Byte) (c : Chip) : Chip :=
  let set := fun (t : Vector (BitVec 128) 65) (x : Byte × Nat) =>
    let a := at_ + x.2
    upd t (Fin.ofNat 65 (a / 16)) fun v => (v &&& ~~~dpField (8 * (a % 16)) (0xFF#8)) ||| dpField (8 * (a % 16)) x.1
  c.modWin fun w => { w with msixTable := l.zipIdx.foldl set w.msixTable }

/-- Bytes of the MSI-X table. -/
def Chip.msixRead (c : Chip) (at_ len : Nat) : List Byte :=
  (List.range len).map fun i => (c.win.msixTable[Fin.ofNat 65 ((at_ + i) / 16)]).extractLsb' (8 * ((at_ + i) % 16)) 8

/-- The host accesses BAR0 (R264): its first 4 KiB are the WIN registers; the MSI-X table; the pending bit array, in which no
vector waits; the rest has no content, and what a read of it gives is a free value. Marks: DESIGN CHOICE, log 88. -/
def Hub.bar0Access (write : Bool) (off len : Nat) (data : List Byte) (reqId : BitVec 16) (h : Hub) : Hub :=
  let done := fun (l : List Byte) (h : Hub) => h.onChip (Chip.answer { id := 0, drive := false, reqId := reqId.toNat, data := l, left := 0, worst := 0 })
  let table := decide (0x8000 ≤ off ∧ off + len ≤ 0x8410)
  if off + len ≤ 0x1000 then h.ownRegAccess write (0x0A_0000 + off) len data reqId
  else if write then h.when table fun h => h.onChip (Chip.msixWrite (off - 0x8000) (data.take len))
  else if table then done (h.chip.msixRead (off - 0x8000) len) h
  else if 0x9000 ≤ off ∧ off + len ≤ 0x9010 then done (List.replicate len 0#8) h
  else
    let (v, c) := h.chip.draw (256 ^ len)
    done (beBytes len v) { h with chip := c }

/-- HOST_BAR_ACCESS: a request of the host (R264, R267, Table 08-5). -/
def Hub.hostAccess (target : HostTarget) (write : Bool) (offset len : Nat) (data : List Byte) (reqId : BitVec 16) (link : LinkReply) (h : Hub) : Hub :=
  match target with
  | .bar2 => h.barAccess write offset len data reqId link
  | .bar0 =>
    h.when (h.chip.started && h.chip.headEnd && h.chip.on F.WIN_STATUS_LINK_UP && len != 0 && decide (offset + len ≤ 0x1_0000))
      (Hub.bar0Access write offset len data reqId)
  | .unsupported =>
    h.when (h.chip.started && h.chip.headEnd && h.chip.on F.WIN_STATUS_LINK_UP) fun h =>
      h.onChip fun c => (c.pcieAct (.completion false reqId.toNat 1 [])).pcieAct (.aer false reqId.toNat 1)

def execHostBarAccess (target : HostTarget) (write : Bool) (offset : BitVec 36) (len : Nat) (data : List Byte) (reqId : BitVec 16) (link : LinkReply)
    (s : State) : Host.Outcome State Fault Refusal := s.onHub (Hub.hostAccess target write offset.toNat len data reqId link)

/-- The inbound window that an extent lies in: its range and the offset in it. Marks: DEDUCED, log 45. -/
def Chip.inbound (c : Chip) (addr len : Nat) : Option (Nat × Nat) :=
  (List.range 4).findSome? fun n =>
    let size := 2 ^ log2Field (c.get (F.WIN_IB2_SIZE_LOG2 n))
    let base := c.get (F.WIN_IB1 n) * 2 ^ 32 + c.get (F.WIN_IB0_BASE_LO n) * 2 ^ 12
    if c.on (F.WIN_IB2_EN n) && decide (base ≤ addr) && decide (addr + len ≤ base + size) then some (c.get (F.WIN_IB2_RANGE n), addr - base)
    else none

/-- DRIVE_INBOUND_ACCESS: a field drive's upstream request (R267), or its MSI (R287). Marks: DEDUCED, log 45. -/
def Hub.driveAccess (write : Bool) (addr len : Nat) (data : List Byte) (reqId : BitVec 16) (link : LinkReply) (h : Hub) : Hub :=
  if !h.chip.started || h.chip.headEnd || !h.chip.on F.WIN_STATUS_LINK_UP || len = 0 then h
  else if write ∧ 0xFEE0_0000 ≤ addr ∧ addr ≤ 0xFEE0_0FFF then h.onChip (Chip.driveMsi addr (leWord data 0).toNat)
  else
    match h.chip.inbound addr len with
    | none => (h.onChip fun c => c.flag F.WIN_INT_STATUS_IB_UR).windowAccess true none write 0 len data reqId link
    | some (r, off) => h.windowAccess true (some r) write off len data reqId link

def execDriveInboundAccess (write : Bool) (addr : BitVec 64) (len : Nat) (data : List Byte) (reqId : BitVec 16) (link : LinkReply) (s : State) :
    Host.Outcome State Fault Refusal := s.onHub (Hub.driveAccess write addr.toNat len data reqId link)

end Sys2Proof.Machine
end

