-- ==== Sys2Proof/Machine/Field.lean ====
section
/-! DEFINITION. The field gateway's commands (10 R312 to R335): records, CAN, Modbus, field pins, and what every frame tick
does in it. -/

namespace Sys2Proof.Machine

/-! Records (R310, R312, R313, R318, R319). -/

/-- SIGNAL_BARGE_RX: every record of a barge. -/
def Chip.signalBarge (m : Msg) (c : Chip) : Chip :=
  c.each (recordOrder ((List.range (m.payload.length / 16)).map fun k => (m.payload.drop (16 * k)).take 16)) Chip.applyRecord

/-- The next barge, or the one given, whose LEN must be a non-zero multiple of 16 (R310). -/
def Chip.signalRx (given : Option Msg) (c : Chip) : Chip :=
  if given.any fun m => m.payload.isEmpty || m.payload.length % 16 != 0 then c.inc F.FLD_REC_DROP
  else c.onMsg 7 (fun _ => true) given Chip.signalBarge

def execSignalBargeRx (msg : Option Msg) (s : State) : Host.Outcome State Fault Refusal :=
  s.onChip fun c => c.when (c.on F.FLD_CTL_EN) (Chip.signalRx msg)

def execSignalBatchExpiry (tunnel : BitVec 12) (s : State) : Host.Outcome State Fault Refusal := s.onChip (Chip.sendBatch tunnel.toNat)

/-- SIGNAL_STALE (R318). Marks: DEDUCED, log 49. -/
def Chip.sigStale (i : Nat) (c : Chip) : Chip :=
  if c.sigValid i && !c.sigOut i && c.get (F.FLD_SIG6_TIMEOUT i) != 0 then
    (c.setSig i { c.sig i with stale := true }).requality i false 0 0
  else c

def execSignalStale (i : BitVec 10) (s : State) : Host.Outcome State Fault Refusal := s.onChip (Chip.sigStale i.toNat)

/-- SIGNAL_SUBSTITUTE (R319). -/
def execSignalSubstitute (i : BitVec 10) (s : State) : Host.Outcome State Fault Refusal :=
  s.onChip fun c => c.when (c.sigValid i.toNat && c.sigOut i.toNat && c.on (F.FLD_SIG0_SUBST_EN i.toNat)
    && c.get (F.FLD_SIG6_TIMEOUT i.toNat) != 0) (Chip.applyDefault i.toNat)

/-! CAN (R321 to R324). -/

/-- Fabric time at a resolution of 40 ns. Marks: DEDUCED, log 49. -/
def Chip.slowSubns (c : Chip) : Nat := c.subns / 40 * 40

/-- Does a controller take part on its bus? -/
def Chip.canOn (c : Chip) (n : Fin 4) : Bool := c.on F.FLD_CTL_EN && c.bit F.FLD_CTL_CAN_EN n && !c.bit F.FLD_STATUS_BUS_OFF n

/-- The receive entry that a frame matches (R322). -/
def Chip.canMatch (c : Chip) (n : Nat) (ide : Bool) (id : Nat) : Option Nat :=
  (List.range 128).find? fun k => c.on (F.FLD_FRM0_VALID k) && !c.on (F.FLD_FRM0_DIR k) && c.get (F.FLD_FRM0_BUS k) == n
    && c.on (F.FLD_FRM0_IDE k) == ide && (id ^^^ c.get (F.FLD_FRM1_ID k)) &&& c.get (F.FLD_FRM2_MASK k) == 0

/-- CAN_FRAME_RX (R321, R322). -/
def Chip.canRx (n : Fin 4) (ide fd rtr : Bool) (id : Nat) (data : List Byte) (c : Chip) : Chip :=
  if !c.canOn n || (fd && !c.on (F.FLD_CAN_CTL_FD_EN n)) then c
  else if rtr then c.inc F.FLD_CAN_RTR
  else
    let c := c.inc (F.FLD_CAN_RX n)
    match c.canMatch n.val ide id with
    | some k => c.unpack n.val k data (c.get F.FAB_FRAME) c.slowSubns
    | none => c.inc F.FLD_CAN_UNMATCHED

def execCanFrameRx (n : Fin 4) (ide fd rtr : Bool) (id : BitVec 29) (data : List Byte) (s : State) : Host.Outcome State Fault Refusal :=
  s.onChip (Chip.canRx n ide fd rtr id.toNat data)

/-- The next valid length (R323). -/
def canLength (n : Nat) : Nat :=
  if n ≤ 8 then n else if n ≤ 12 then 12 else if n ≤ 16 then 16 else if n ≤ 20 then 20 else if n ≤ 24 then 24 else if n ≤ 32 then 32
  else if n ≤ 48 then 48 else 64

/-- The least of some entries by a key, the first of equals. -/
def leastBy (key : Nat → Nat) : List Nat → Option Nat
  | [] => none
  | a :: l => match leastBy key l with
    | some b => if key b < key a then some b else some a
    | none => some a

/-- CAN_FRAME_LOAD (R323): the pending frame with the lowest identifier. Marks: PRESUMED, log 16. -/
def Chip.canLoad (n : Fin 4) (c : Chip) : Chip :=
  if !c.canOn n || c.on (F.FLD_CAN_CTL_LISTEN_ONLY n) || c.fld.loaded[n].isSome then c
  else match leastBy (fun k => c.get (F.FLD_FRM1_ID k)) (c.fld.pending.filter fun k => c.get (F.FLD_FRM0_BUS k) == n.val) with
    | none => c
    | some k =>
      let fdf := c.on (F.FLD_FRM0_FDF k)
      let len := if fdf then canLength (c.get (F.FLD_FRM0_LEN k)) else min 8 (c.get (F.FLD_FRM0_LEN k))
      let c := c.modFld fun f => { f with pending := f.pending.erase k, loaded := upd f.loaded n fun _ => some k }
      c.emit (.canFrame n.val (c.on (F.FLD_FRM0_IDE k)) fdf (c.on (F.FLD_FRM0_BRS k)) (c.get (F.FLD_FRM1_ID k)) ((c.txPay k).take len))

def execCanFrameLoad (n : Fin 4) (s : State) : Host.Outcome State Fault Refusal := s.onChip (Chip.canLoad n)

/-- CAN_FRAME_TX_DONE (R323). -/
def execCanFrameTxDone (n : Fin 4) (s : State) : Host.Outcome State Fault Refusal :=
  s.onChip fun c => c.when c.fld.loaded[n].isSome fun c => (c.modFld fun f => { f with loaded := upd f.loaded n fun _ => none }).inc (F.FLD_CAN_TX n)

/-- Every IN entry of a source. -/
def Chip.sigsFrom (c : Chip) (source : Nat) : List Nat :=
  (c.written 0x0D_8000 0x20 1024).filter fun i => c.sigValid i && !c.sigOut i && c.get (F.FLD_SIG0_SOURCE i) == source

/-- CAN_BUS_OFF (R324). -/
def Chip.canBusOff (n : Fin 4) (c : Chip) : Chip :=
  if c.bit F.FLD_STATUS_BUS_OFF n then c
  else
    let c := (c.putBit F.FLD_STATUS_BUS_OFF n true).flag F.FLD_INT_STATUS_CAN_BUSOFF
    let c := (c.put (F.FLD_CAN_ERR_STATE n) 2).raiseOwn 0x23 0x20 n.val
    c.commFail (c.sigsFrom n.val) true

def execCanBusOff (n : Fin 4) (s : State) : Host.Outcome State Fault Refusal := s.onChip (Chip.canBusOff n)

/-- CAN_BUS_RECOVER (R324): with AUTO_RECOVER; the error counters go back to zero as the standard has it (PRESUMED, log 16). -/
def Chip.canRecover (n : Fin 4) (c : Chip) : Chip :=
  if !c.bit F.FLD_STATUS_BUS_OFF n || !c.on (F.FLD_CAN_CTL_AUTO_RECOVER n) then c
  else ((c.putBit F.FLD_STATUS_BUS_OFF n false).put (F.FLD_CAN_ERR n) 0).putBit F.FLD_STATUS_ERR_PASSIVE n false |>.clearOwn 0x23 0x20 n.val

def execCanBusRecover (n : Fin 4) (s : State) : Host.Outcome State Fault Refusal := s.onChip (Chip.canRecover n)

/-- CAN_BUS_ERROR (R321): an error frame, and the counters as the standard leaves them; a counter above 127 is error passive
(PRESUMED, log 16). A listening controller sends no error frame. -/
def Chip.canError (n : Fin 4) (tec rxErr : Nat) (c : Chip) : Chip :=
  if !c.canOn n then c
  else
    let c := c.when (!c.on (F.FLD_CAN_CTL_LISTEN_ONLY n)) fun c => c.inc (F.FLD_CAN_EFRAMES n)
    let passive := decide (128 ≤ tec) || decide (128 ≤ rxErr)
    let was := c.bit F.FLD_STATUS_ERR_PASSIVE n
    let c := ((c.put (F.FLD_CAN_ERR_TEC n) tec).put (F.FLD_CAN_ERR_REC n) rxErr).put (F.FLD_CAN_ERR_STATE n) passive.toNat
    (c.putBit F.FLD_STATUS_ERR_PASSIVE n passive).when (passive && !was) fun c => c.flag F.FLD_INT_STATUS_CAN_ERR_PASSIVE

def execCanBusError (n : Fin 4) (tec rxErr : Byte) (s : State) : Host.Outcome State Fault Refusal :=
  s.onChip (Chip.canError n tec.toNat rxErr.toNat)

/-! Modbus (R325 to R328). -/

def Chip.modUart (c : Chip) (u : Fin 2) (f : Uart → Uart) : Chip := c.modFld fun x => { x with uarts := upd x.uarts u f }

/-- The data that a write carries (R328). -/
def Chip.writeData (c : Chip) (n : Nat) : List Byte :=
  let l := c.writePay n
  match c.get (F.FLD_POLL0_FUNC n) with
  | 5 => if payBit l 0 then [0xFF, 0] else [0, 0]
  | 6 => l.take 2
  | 15 => l.take ((c.get (F.FLD_POLL1_COUNT n) + 7) / 8)
  | 16 => l.take (2 * c.get (F.FLD_POLL1_COUNT n))
  | _ => []

/-- Is COUNT within the limits of R328? -/
def Chip.countOk (c : Chip) (n : Nat) : Bool :=
  let k := c.get (F.FLD_POLL1_COUNT n)
  let hi := match c.get (F.FLD_POLL0_FUNC n) with
    | 1 => 2000 | 2 => 2000 | 3 => 125 | 4 => 125 | 5 => 128 | 6 => 8 | 15 => 128 | 16 => 8 | _ => 0
  1 ≤ k && decide (k ≤ hi)

/-- Sends the request of an entry. -/
def Chip.modbusSend (u : Fin 2) (n : Nat) (c : Chip) : Chip :=
  c.emit (.modbus u.val (c.get (F.FLD_POLL0_SLAVE n)) (c.get (F.FLD_POLL0_FUNC n)) (c.get (F.FLD_POLL0_ADDR n)) (c.get (F.FLD_POLL1_COUNT n)) (c.writeData n))

/-- Shows whether a transaction is in progress. -/
def Chip.uartBusy (u : Fin 2) (busy : Bool) (c : Chip) : Chip := (c.put (F.FLD_UA_STATUS_BUSY u) busy.toNat).putBit F.FLD_STATUS_UA_BUSY u busy

/-- MODBUS_TXN_START (R326, R328): queued writes first, then reads, in entry order. -/
def Chip.modbusStart (u : Fin 2) (c : Chip) : Chip :=
  let x := c.fld.uarts[u]
  if !c.on F.FLD_CTL_EN || !c.bit F.FLD_CTL_UA_EN u || x.current.isSome || x.quiet then c
  else
    let writes := x.queue.filter fun n => !c.pollRead n
    match leastBy id (if writes.isEmpty then x.queue else writes) with
    | none => c
    | some n =>
      let c := c.modUart u fun x => { x with queue := x.queue.erase n }
      if !c.countOk n then (c.inc F.FLD_SIG_ERR).flag F.FLD_INT_STATUS_SIG_ERR
      else
        let c := ((c.put (F.FLD_UA_STATUS_ENTRY u) n).inc (F.FLD_UA_TXN u)).modbusSend u n
        if c.get (F.FLD_POLL0_SLAVE n) = 0 then c.modUart u fun x => { x with quiet := true }
        else (c.modUart u fun x => { x with current := some n, retried := false }).uartBusy u true

def execModbusTxnStart (u : Fin 2) (s : State) : Host.Outcome State Fault Refusal := s.onChip (Chip.modbusStart u)

/-- Ends the transaction in progress. -/
def Chip.modbusEnd (u : Fin 2) (c : Chip) : Chip := (c.modUart u fun x => { x with current := none, retried := false }).uartBusy u false

/-- The signals of a poll entry take COMM_FAIL (R327). -/
def Chip.entryFails (u : Fin 2) (n : Nat) (c : Chip) : Chip :=
  (c.commFail (c.sigsOf false (4 + u.val) n) false).commFailOut (c.sigsOf true (4 + u.val) n)

/-- MODBUS_RESPONSE_RX (R325, R327). -/
def Chip.modbusReply (u : Fin 2) (r : ModbusReply) (c : Chip) : Chip :=
  match c.fld.uarts[u].current with
  | none => c
  | some n =>
    match r with
    | .broken => c.inc F.FLD_MB_FRAME_ERR
    | .exception code =>
      let c := ((c.put (F.FLD_POLL2_EXC n) code.toNat).inc F.FLD_MB_EXC).flag F.FLD_INT_STATUS_MB_EXCEPTION
      (c.entryFails u n).modbusEnd u
    | .ok data =>
      let c := c.when c.fld.uarts[u].retried fun c => c.inc (F.FLD_UA_RETRY_OK u)
      let c := c.when (c.on (F.FLD_POLL2_FAILED n)) fun c => (c.put (F.FLD_POLL2_FAILED n) 0).clearOwn 0x22 0x20 n
      let c := c.put (F.FLD_POLL3 n) (c.get F.FAB_FRAME)
      let c := c.when (c.pollRead n) (Chip.unpack (4 + u.val) n data (c.get F.FAB_FRAME) c.slowSubns)
      c.modbusEnd u

def execModbusResponseRx (u : Fin 2) (reply : ModbusReply) (s : State) : Host.Outcome State Fault Refusal :=
  s.onChip (Chip.modbusReply u reply)

/-- MODBUS_TIMEOUT (R327). Marks: DEDUCED, log 49. -/
def Chip.modbusTimeout (u : Fin 2) (c : Chip) : Chip :=
  match c.fld.uarts[u].current with
  | none => c
  | some n =>
    if c.on (F.FLD_UA_CFG_RETRY u) && !c.fld.uarts[u].retried then (c.modUart u fun x => { x with retried := true }).modbusSend u n
    else
      let c := c.when (!c.on (F.FLD_POLL2_FAILED n)) fun c => c.raiseOwn 0x22 0x20 n
      let c := ((c.put (F.FLD_POLL2_FAILED n) 1).inc (F.FLD_UA_FAIL u)).flag F.FLD_INT_STATUS_MB_FAILED
      (c.entryFails u n).modbusEnd u

def execModbusTimeout (u : Fin 2) (s : State) : Host.Outcome State Fault Refusal := s.onChip (Chip.modbusTimeout u)

/-- MODBUS_BROADCAST_IDLE_END (R326). -/
def execModbusBroadcastIdleEnd (u : Fin 2) (s : State) : Host.Outcome State Fault Refusal :=
  s.onChip fun c => c.modUart u fun x => { x with quiet := false }

/-! Field pins (R330 to R332). -/

/-- Updates the signals of a pin with its level and its count (R330). -/
def Chip.fioUpdate (p : Nat) (frame subns : Nat) (c : Chip) : Chip :=
  c.each (c.sigsOf false 6 p) fun i c =>
    let raw := if c.get (F.FLD_SIG1_START i) = 0 then c.get (F.FLD_FIO_STATUS_LEVEL p) else c.get (F.FLD_FIO_COUNT p) % 2 ^ c.sigLen i
    c.updateIn i raw frame subns

/-- The pin's signals take the quality that its state gives them, and send it where it changed. -/
def Chip.fioQuality (p : Nat) (c : Chip) : Chip :=
  c.each (c.sigsOf false 6 p) fun i c => c.requality i true (c.get F.FAB_FRAME) c.slowSubns

/-- Fabric time so many ns ago; FRAME wraps. -/
def Chip.timeAgo (c : Chip) (ns : Nat) : Nat × Nat :=
  let t := (c.get F.FAB_FRAME * 1_000_000 + c.subns + 2 ^ 32 * 1_000_000 - ns) % (2 ^ 32 * 1_000_000)
  (t / 1_000_000, t % 1_000_000 / 40 * 40)

/-- CHAT_LIMIT, above 64 taken as 64. -/
def Chip.chatLimit (c : Chip) (p : Nat) : Nat := min 64 (c.get (F.FLD_FIO_CFG_CHAT_LIMIT p))

/-- FIO_EDGE (R330 to R332): a level that has held for DEBOUNCE is accepted. Marks: DEDUCED, log 49. -/
def Chip.fioEdge (p : Fin 16) (high : Bool) (c : Chip) : Chip :=
  let active := high != c.on (F.FLD_FIO_CFG_INVERT p)
  let c := c.put (F.FLD_FIO_STATUS_RAW p) high.toNat
  if c.on (F.FLD_FIO_STATUS_LEVEL p) = active then c
  else
    let (fr, sn) := c.timeAgo (c.get (F.FLD_FIO_CFG_DEBOUNCE p) * 100_000)
    let sel := match c.get (F.FLD_FIO_CFG_EDGE p) with | 0 => active | 1 => !active | _ => true
    let c := (c.put (F.FLD_FIO_STATUS_LEVEL p) active.toNat).putBit F.FLD_FIO_LEVEL_IN p active
    let c := (c.incSat (F.FLD_FIO_STATUS_WIN_EDGES p)).when sel fun c => c.inc (F.FLD_FIO_COUNT p)
    let c := c.when (!active) fun c => c.put (F.FLD_FIO_STATUS_STUCK p) 0
    let enter := !c.on (F.FLD_FIO_STATUS_CHATTER p) && c.chatLimit p != 0 && decide (c.chatLimit p < c.get (F.FLD_FIO_STATUS_WIN_EDGES p))
    let c := c.when enter fun c =>
      ((c.put (F.FLD_FIO_STATUS_CHATTER p) 1).flag F.FLD_INT_STATUS_FIO_CHATTER).modFld fun f => { f with calm := upd f.calm p fun _ => 0 }
    let c := c.when (sel && !c.on (F.FLD_FIO_STATUS_CHATTER p)) fun c => c.flag ⟨F.FLD_FIO_INT_STATUS.off, p.val, 1⟩
    c.fioUpdate p.val fr sn

def execFioEdge (p : Fin 16) (high : Bool) (s : State) : Host.Outcome State Fault Refusal :=
  s.onChip fun c => c.when (c.on F.FLD_CTL_EN) (Chip.fioEdge p high)

/-- FIO_CHATTER_WINDOW_END (R331). -/
def Chip.fioWindow (p : Fin 16) (c : Chip) : Chip :=
  let few := decide (2 * c.get (F.FLD_FIO_STATUS_WIN_EDGES p) < c.chatLimit p)
  let n := if few then c.fld.calm[p] + 1 else 0
  let c := (c.put (F.FLD_FIO_STATUS_WIN_EDGES p) 0).modFld fun f => { f with calm := upd f.calm p fun _ => min n 10 }
  if c.on (F.FLD_FIO_STATUS_CHATTER p) && (10 ≤ n || c.chatLimit p == 0) then
    (c.put (F.FLD_FIO_STATUS_CHATTER p) 0).fioQuality p.val
  else c

def execFioChatterWindowEnd (p : Fin 16) (s : State) : Host.Outcome State Fault Refusal := s.onChip (Chip.fioWindow p)

/-- FIO_STUCK (R332). -/
def Chip.fioStuck (p : Fin 16) (c : Chip) : Chip :=
  if c.on (F.FLD_FIO_STATUS_LEVEL p) && c.get (F.FLD_FIO_CFG_STUCK_S p) != 0 && !c.on (F.FLD_FIO_STATUS_STUCK p) then
    ((c.put (F.FLD_FIO_STATUS_STUCK p) 1).flag F.FLD_INT_STATUS_FIO_STUCK).fioQuality p.val
  else c

def execFioStuck (p : Fin 16) (s : State) : Host.Outcome State Fault Refusal := s.onChip (Chip.fioStuck p)

/-! What a frame tick does (R317, R323, R326, R334). -/

/-- Does an occasion of a period fall on this tick for an entry? -/
def Chip.periodDue (c : Chip) (n period : Nat) : Bool := period != 0 && ((c.get F.FAB_FRAME : Int) - n) % period == 0

/-- The gateway at a tick, `ain` being the codes averaged over the frame just ended. Marks: DEDUCED, log 49. -/
def Chip.fldTick (ain : Vector (BitVec 12) 4) (c : Chip) : Chip :=
  if !c.on F.FLD_CTL_EN then c
  else
    let frame := c.get F.FAB_FRAME
    let c := c.each (List.finRange 4) fun k c => c.each (c.sigsOf false 7 k.val) fun i c => c.updateIn i (ain[k].toNat % 2 ^ c.sigLen i) frame 0
    let ins := (c.written 0x0D_8000 0x20 1024).filter fun i => c.sigValid i && !c.sigOut i
    let c := c.each ins fun i c =>
      let mode := c.get (F.FLD_SIG0_MODE i)
      c.when ((mode == 1 || mode == 2) && c.periodDue i (c.get (F.FLD_SIG6_PERIOD i)) && (c.sig i).updated.isSome) (Chip.publish i frame 0)
    let c := c.each (List.range 128) fun n c =>
      if c.on (F.FLD_FRM0_VALID n) && c.on (F.FLD_FRM0_DIR n) && c.periodDue n (c.get (F.FLD_FRM0_PERIOD n)) then
        if c.fld.pending.contains n then c.inc F.FLD_CAN_TX_LATE else c.canPend n
      else c
    c.each (c.written 0x0D_2000 0x10 256) fun n c =>
      let broadcastRead := c.pollRead n && c.get (F.FLD_POLL0_SLAVE n) == 0
      c.when (c.pollValid n && !broadcastRead && c.periodDue n (c.get (F.FLD_POLL1_PERIOD n))) (Chip.pollQueue n true)

end Sys2Proof.Machine
end

