-- ==== Sys2Proof/Machine/Governor.lean ====
section
/-! DEFINITION. The commands of the budget governor (06 R214 to R222). -/

namespace Sys2Proof.Machine

/-- BUDGET_LEVEL_FALL (R215): the fall count has reached FALL_HOLD. The row it brings is in force for the frame of its tick (R216), so
that a run of R222 that it begins counts this tick. -/
def Hub.levelFall (h : Hub) : Hub :=
  let level := h.chip.get F.BUD_STATUS_LEVEL
  h.when (h.chip.running && !h.chip.on F.BUD_CTL_FORCE_EN && decide (0 < level)
      && decide (h.chip.fallHold ≤ h.chip.get F.BUD_STATUS_FALL_CNT)) fun h =>
    ((h.onChip fun c => c.put F.BUD_STATUS_FALL_CNT 0).setLevel (level - 1)).onChip fun c =>
      { c with bud := c.bud.countClear fun n => max n 1 }

def execBudgetLevelFall (s : State) : Host.Outcome State Fault Refusal := s.onHub Hub.levelFall

/-- CAP_RAISE_DELAY_EXPIRY (R218). -/
def execCapRaiseDelayExpiry (s : State) : Host.Outcome State Fault Refusal :=
  s.onChip fun c => c.when c.running (Chip.capRule true)

/-- Does the power that a channel drew when it was shed fit below the threshold of the level that shed it (R222), as the last tick
read it (R224)? -/
def Chip.shedFits (y : Chan) (c : Chip) : Bool :=
  let avail := c.get F.BUD_FEED_POWER
  let thr := c.bud.thr
  let level := c.get (F.BUD_SHED_LEVEL y)
  let limit : Int := ((0 :: thr.1).getD level 0 : Int) - thr.2
  avail != 0 && decide ((100 * (c.get F.BUD_DRAW_POWER + c.get (F.BUD_SHED_P_SHED y)) : Int) < limit * avail)

/-- SHED_RESTORE (R222): RESTORE_HOLD has passed since the first row with the SHED bit clear, and the shed power fits again. -/
def Hub.shedRestore (y : Chan) (h : Hub) : Hub :=
  let c := h.chip
  h.when (c.running && c.bit F.BUD_SHED_STATUS_SHED y.val && c.shedFits y
      && decide (c.get F.BUD_CFG_RESTORE_HOLD * 100 < c.bud.clearFor[y])) fun h =>
    let h := h.onChip fun c => (c.putBit F.BUD_SHED_STATUS_SHED y.val false).flag F.BUD_INT_STATUS_RESTORE
    h.onLiveHv (Hv.releaseHold (F.LDC_L_STATUS_HELD_BUDGET y) y)

def execShedRestore (y : Chan) (s : State) : Host.Outcome State Fault Refusal := s.onHub (Hub.shedRestore y)

/-- RAMP_FREEZE_END (R214): every ramp has settled, or RAMP_FREEZE_MAX ticks have passed. -/
def Hub.freezeEnd (h : Hub) : Hub :=
  match h.chip.bud.frozen with
  | some (_, n) =>
    h.when (h.chip.running && (h.rampsSettled || decide (max 1 (h.chip.get F.BUD_CFG_RAMP_FREEZE_MAX) ≤ n))) fun h =>
      h.onChip fun c => ({ c with bud := { c.bud with frozen := none } }).put F.BUD_STATUS_FROZEN 0
  | none => h

def execRampFreezeEnd (s : State) : Host.Outcome State Fault Refusal := s.onHub Hub.freezeEnd

end Sys2Proof.Machine
end

