-- ==== Sys2Proof/Machine/LoadChannels.lean ====
section
/-! DEFINITION. The commands of the load channels (12). -/

namespace Sys2Proof.Machine

/-- LOAD_SLOT_START (R378): an occurrence of the hub's inrush slot. -/
def execLoadSlotStart (s : State) : Host.Outcome State Fault Refusal :=
  s.onHub fun h => h.live fun h => h.when (h.chip.slotFalls && !h.slotUsed) Hub.slotStart

/-- LOAD_RAMP_END (R377, R392): the channel enters ON. -/
def execLoadRampEnd (y : Chan) (s : State) : Host.Outcome State Fault Refusal :=
  s.onHub fun h => h.onLiveHv fun v => v.when (v.cstate y == csRamp) fun v => (v.rampRecord y h.chip.now).chanEnter y csOn

/-- LOAD_RAMP_FAULT (R379). -/
def execLoadRampFault (y : Chan) (cause : RampEnd) (s : State) : Host.Outcome State Fault Refusal :=
  s.onHub fun h => h.live fun h => h.when (h.hv.cstate y == csRamp) fun h =>
    h.chanFault y (rampCause (h.hv.on (F.LDC_L_STATUS_LIMITING y)) cause)

/-- LOAD_FAULT_TIMER (R380): power-good and fault change in one command. -/
def execLoadFaultTimer (y : Chan) (s : State) : Host.Outcome State Fault Refusal :=
  s.onHub fun h => h.live fun h => h.when (h.hv.on (F.LDC_L_STATUS_TIMER y)) (Hub.chanFault y 1)

/-- LOAD_HARD_SHORT (R381): in RAMP and ON, where the current reaches 2 × I_EFF. -/
def execLoadHardShort (y : Chan) (ma : Int) (s : State) : Host.Outcome State Fault Refusal :=
  s.onHub fun h => h.live fun h => h.when (hardShort (h.hv.chanEff y) ma) (Hub.chanFault y 2)

/-- LOAD_GATE_FAULT (R383). -/
def execLoadGateFault (y : Chan) (s : State) : Host.Outcome State Fault Refusal :=
  s.onHub fun h => h.live fun h => h.when (!h.hv.on (F.LDC_L_STATUS_LIMITING y)) (Hub.chanFault y 8)

/-- LOAD_PATH_DROP (R383): with the gate fully enhanced. -/
def execLoadPathDrop (y : Chan) (s : State) : Host.Outcome State Fault Refusal :=
  s.onHub fun h => h.live fun h =>
    h.when (!h.hv.on (F.LDC_L_STATUS_LIMITING y) && (h.hv.cstate y == csOn || h.hv.ldc[y].sw.ramp.isNone)) (Hub.chanFault y 9)

/-- LOAD_OVERVOLTAGE (R383): with OV_OFF set; otherwise the channel stays on. -/
def execLoadOvervoltage (y : Chan) (s : State) : Host.Outcome State Fault Refusal :=
  s.onHub fun h => h.live fun h => h.when (h.hv.on (F.LDC_L_CFG_OV_OFF y)) (Hub.chanFault y 6)

/-- LOAD_OV_RECOVERY (Table 12-2): armed again, no retry counted. -/
def execLoadOvRecovery (y : Chan) (s : State) : Host.Outcome State Fault Refusal :=
  s.onHub fun h => h.onLiveHv fun v =>
    v.when (v.cstate y == csFault && v.get (F.LDC_L_STATUS_CAUSE y) == 6) (Hv.chanEnter y csArmed)

/-- LOAD_PG_DEGLITCH (R382). -/
def execLoadPgDeglitch (y : Chan) (s : State) : Host.Outcome State Fault Refusal :=
  s.onHub fun h => h.onLiveHv fun v => v.when (v.cstate y == csOn && v.ldc[y].sw.deglitch == .running) fun v =>
    if v.on (F.LDC_L_STATUS_TIMER y) then v.modCsw y fun s => { s with deglitch := .waiting }
    else (v.modCsw y fun s => { s with deglitch := .off }).setChanPg y true

/-- LOAD_VOUT_LOW (R382): without a running timer power-good deasserts; a deglitch in progress ends. -/
def execLoadVoutLow (y : Chan) (s : State) : Host.Outcome State Fault Refusal :=
  s.onHub fun h => h.onLiveHv fun v => v.when (v.cstate y == csOn) fun v =>
    if v.on (F.LDC_L_STATUS_PG y) then v.when (!v.on (F.LDC_L_STATUS_TIMER y)) (Hv.setChanPg y false)
    else v.modCsw y fun s => { s with deglitch := .off }

/-- LOAD_RETRY_DUE (R384). -/
def execLoadRetryDue (y : Chan) (s : State) : Host.Outcome State Fault Refusal :=
  s.onHub fun h => h.onLiveHv fun v =>
    v.when (v.cstate y == csFault && v.get (F.LDC_L_STATUS_CAUSE y) != 6
        && decide (v.ldc[y].sw.fet.temp < v.get (F.LDC_L_SENSE_T_RETRY y))) fun v =>
      (v.put (F.LDC_L_STATUS_RETRIES y) (min 31 (v.get (F.LDC_L_STATUS_RETRIES y) + 1))).chanEnter y csArmed

/-- LOAD_RETRY_COUNT_RESET (R384): after 60 s in ON. -/
def execLoadRetryCountReset (y : Chan) (s : State) : Host.Outcome State Fault Refusal :=
  s.onHub fun h => h.onLiveHv fun v => v.when (v.cstate y == csOn) fun v => v.put (F.LDC_L_STATUS_RETRIES y) 0

/-- The watch on a channel that is commanded off, with VRAIL at 8 V or more (R390). -/
def Hv.watched (v : Hv) (y : Chan) : Bool := !v.chanOn y && decide (8000 ≤ v.vrail)

/-- LOAD_OFF_CONDUCTION (R390): the FET conducts while commanded off; the channel latches. -/
def Hub.offConduction (y : Chan) (h : Hub) : Hub :=
  h.when (h.hv.watched y) fun h =>
    let h := h.onHv fun v =>
      (((v.put (F.LDC_L_STATUS_DAMAGE y) 1).put (F.LDC_L_STATUS_CAUSE y) 7).chanFlag F.LDC_INT_STATUS_FET_DAMAGE y).chanLatch y
    (h.onChip fun c => c.put F.GLB_FAULT_STATUS_LATCHED 1).powerAlarm 0x35 (0x10 + y.val) 7

def execLoadOffConduction (y : Chan) (s : State) : Host.Outcome State Fault Refusal :=
  s.onHub fun h => h.live (Hub.offConduction y)

/-- LOAD_OUT_PRESENT (R390). -/
def execLoadOutPresent (y : Chan) (s : State) : Host.Outcome State Fault Refusal :=
  s.onHub fun h => h.onLiveHv fun v => v.when (v.watched y) fun v =>
    (v.put (F.LDC_L_STATUS_OUT_PRESENT y) 1).chanFlag F.LDC_INT_STATUS_OUT_PRESENT y

/-- LOAD_LIMITER_CHANGE (R379, R380). -/
def execLoadLimiterChange (y : Chan) (holding : Bool) (s : State) : Host.Outcome State Fault Refusal :=
  s.onHub fun h => h.onLiveHv (Hv.chanLimiter y holding)

end Sys2Proof.Machine
end

