-- ==== Sys2Proof/Machine/Mgmt.lean ====
section
/-! DEFINITION. MGMT requests (16 R478 to R482): admission, operations, responses and the relay to a partner. -/

namespace Sys2Proof.Machine

/-! TSPEC (Table 16-6). -/

def mgmtKind (b : Barge) : Nat := wordField b.hdr.tspec 28 4
def mgmtTag (b : Barge) : Nat := wordField b.hdr.tspec 20 8
def mgmtAttest (b : Barge) : Bool := b.hdr.tspec.getLsbD 15
def mgmtProxy (b : Barge) : Nat := wordField b.hdr.tspec 13 2

/-- TSPEC of the response to a request. -/
def mgmtTspec (b : Barge) (status : Nat) : Word :=
  word32 (1 * 2 ^ 28 + mgmtTag b * 2 ^ 20 + status % 16 * 2 ^ 16 + (mgmtAttest b).toNat * 2 ^ 15 + mgmtProxy b * 2 ^ 13)

/-- Is the barge for the MGMT service: a MGMT barge, or one relayed by a partner, on TUNNEL 0xFFD? -/
def isMgmt (b : Barge) : Bool := (b.hdr.type.toNat == typeMgmt || b.hdr.type.toNat == typeLctl) && b.hdr.tunnel == 0xFFD
def overLctl (b : Barge) : Bool := b.hdr.type.toNat == typeLctl

/-! Sending. -/

/-- A barge of the MGMT service: over LCTL on a trunk port, with the partner's ID as DST_HUB (03 R83), or to a hub. QUEUE and TSEQ
are free values (log 2); HOPS of a MGMT barge is 63 (log 17). -/
def Chip.mgmtSend (out : Option Port) (src dst : Nat) (tspec : Word) (payload : List Byte) (c : Chip) : Barge × Chip :=
  let (q, c) := c.draw 64
  let (t, c) := c.draw 65536
  let h := match out with
    | some p => c.ownHeader (c.lnk[p].partnerId.getD 0) 0xFFD q typeLctl 0
    | none => c.ownHeader dst 0xFFD q typeMgmt 63
  let b : Barge := {
    hdr := { h with src := BitVec.ofNat 10 src, tseq := BitVec.ofNat 16 t, tspec := tspec, len := BitVec.ofNat 10 payload.length }
    payload := payload }
  (b, c.modSwc fun w => { w with p8out := w.p8out ++ [(b, out)] })

/-- The trunk port over which a request came, when it came in an LCTL barge. -/
def mgmtVia (x : P8Barge) : Option Port := if overLctl x.barge then some (Fin.ofNat 3 x.inPort) else none

/-- Keeps a response: the last 16 (R480). -/
def Chip.keepResponse (hub tag : Nat) (b : Barge) (c : Chip) : Chip :=
  c.modLkp fun k => { k with kept := ({ hub := hub, tag := tag, time := c.now, barge := b } :: k.kept).take 16 }

/-- Answers a request. Marks: DEDUCED, log 65. -/
def Chip.mgmtAnswer (x : P8Barge) (status : Nat) (payload : List Byte) (c : Chip) : Chip :=
  let (b, c) := c.mgmtSend (mgmtVia x) (c.get F.FAB_ID_HUB_ID) x.barge.hdr.src.toNat (mgmtTspec x.barge status) payload
  c.keepResponse x.barge.hdr.src.toNat (mgmtTag x.barge) b

/-! Admission (R478, R479). -/

/-- Bytes of the additional data: SSEQ, SRC_HUB, DST_HUB. Marks: DEDUCED, log 65. -/
def mgmtAad (sseq src dst : Nat) : List Byte := beBytes 8 sseq ++ beBytes 2 src ++ beBytes 2 dst

/-- What an attested payload holds under the session key, when its tag verifies. -/
def Chip.attestedOps (c : Chip) (b : Barge) : Option (List Byte) :=
  let n := b.payload.length
  match c.pairKey engineMgmt 1 with
  | none => none
  | some k =>
    let sseq := fieldAt b.payload 0 8
    Config.gcmOpenBytes k (BitVec.ofNat 96 sseq) (mgmtAad sseq b.hdr.src.toNat b.hdr.dst.toNat) ((b.payload.drop 8).take (n - 24))
      (BitVec.ofNat 128 (fieldAt b.payload (n - 16) 16))

/-- Why an attested request is refused: 4 AUTH, 5 REPLAY. A failed tag counts (13 R427). Marks: DEDUCED, log 65. -/
def Chip.attestRefusal (c : Chip) (b : Barge) : Option Nat :=
  if (c.attestedOps b).isNone then some 4
  else if c.lkp.lastSseq.any fun l => decide (fieldAt b.payload 0 8 ≤ l) then some 5
  else none

/-- The sequence number of an accepted attested request. -/
def Chip.attestTaken (b : Barge) (c : Chip) : Chip := c.modLkp fun k => { k with lastSseq := some (fieldAt b.payload 0 8) }

/-- Is the request well formed: one barge, whole operations, within its limit?. Marks: DEDUCED, log 65. -/
def mgmtFormatOk (b : Barge) : Bool :=
  let n := b.payload.length
  b.hdr.first && b.hdr.last && (if mgmtAttest b then decide (24 ≤ n) && n % 8 == 0 && decide (n ≤ 1008) else n % 8 == 0 && decide (n ≤ 1008))

/-! Operations (R480). -/

/-- One operation: its result byte, and the value read or after the write. Marks: DEDUCED, log 65. -/
def Hub.mgmtOp (req : Requester) (op : List Byte) (h : Hub) : List Byte × Hub :=
  let write := (op.getD 0 0).getLsbD 7
  let off := fieldAt op 1 3
  let reply := fun (res : Nat) (w : Word) => BitVec.ofNat 8 (write.toNat * 128 + res * 16) :: op.drop 1 |>.take 4 |>.append (beBytes 4 w.toNat)
  if write then
    let (r, h) := h.wordWrite req off (word32 (fieldAt op 4 4))
    (reply (if r = 0 then 0 else if r = 3 then 2 else 1) (h.readWord off), h)
  else if (regAt off).isNone then (reply 2 0#32, h)
  else if privilegedWord off && !mayReadPrivileged req then (reply 3 0#32, h)
  else
    let (w, h) := h.pathRead req off
    (reply 0 w, h)

/-- The operations of a request, in order, after those already answered. Where a commit is held (04 R126) there is no answer yet, and
the path keeps the request with the operations left; `free` says that the hold of the first has ended. -/
def Hub.mgmtOps (req : Requester) (x : P8Barge) : Bool → List Byte → List (List Byte) → Hub → Option (List Byte) × Hub
  | _, done, [], h => (some done, h)
  | free, done, op :: ops, h =>
    let off := fieldAt op 1 3
    if !free && (op.getD 0 0).getLsbD 7 && h.chip.wordHeld req off then
      (none, h.onChip (Chip.holdPath { req := req, write := true, off := off, len := 4, data := [], answered := false, worst := 0, of_ := .mgmt x (op :: ops) done }))
    else
      let (a, h) := h.mgmtOp req op
      h.mgmtOps req x false (done ++ a) ops

/-- Cuts a payload into operations. -/
def mgmtCut (l : List Byte) : List (List Byte) := (List.range (l.length / 8)).map fun k => (l.drop (8 * k)).take 8

/-- The payload of an attested response: SSEQ with bit 63 set, the operations encrypted, and the tag. -/
def Chip.attestedPayload (c : Chip) (b : Barge) (ops : List Byte) : List Byte :=
  match c.pairKey engineMgmt 1 with
  | none => []
  | some k =>
    let sseq := 2 ^ 63 + fieldAt b.payload 0 8 % 2 ^ 63
    let (enc, tag) := Config.gcmSealBytes k (BitVec.ofNat 96 sseq) (mgmtAad sseq (c.get F.FAB_ID_HUB_ID) b.hdr.src.toNat) ops
    beBytes 8 sseq ++ enc ++ beBytes 16 tag.toNat

/-- Carries out operations of an admitted request, and answers it with the last. A reset that one starts takes the Lockkeeper, and
with it the response. -/
def Hub.mgmtRun (x : P8Barge) (req : Requester) (free : Bool) (done : List Byte) (ops : List (List Byte)) (h : Hub) : Hub :=
  match h.mgmtOps req x free done ops with
  | (none, h) => h
  | (some l, h) =>
    h.when (h.chip.started && (h.chip.coresRun || h.chip.inRecovery)) fun h => h.onChip fun c =>
      c.mgmtAnswer x 0 (if mgmtAttest x.barge then c.attestedPayload x.barge l else l)

/-- Carries out an admitted request. -/
def Hub.mgmtCarryOut (x : P8Barge) (ops : List Byte) (h : Hub) : Hub :=
  let b := x.barge
  h.mgmtRun x { source := 1, hub := some b.hdr.src, tag := BitVec.ofNat 16 (mgmtTag b), attested := mgmtAttest b } false [] (mgmtCut ops)

/-! The end of a hold (04 R126). -/

/-- A held access goes on: the commit takes effect, then what is left of the access. -/
def Hub.resume (a : PathAccess) (h : Hub) : Hub :=
  match a.of_ with
  | .plain | .range _ =>
    match h.writeAccess true a with
    | (some st, h) => h.onChip (Chip.accessEnds a (writeStatus st) [])
    | (none, h) => h
  | .window r =>
    match h.writeAccess true a with
    | (some st, h) => h.onChip (Chip.tgtAnswer r.tunnel r.tag r.write r.posted r.fwa (writeStatus st) [])
    | (none, h) => h
  | .mgmt x ops done => h.mgmtRun x a.req true done ops

/-- COMMIT_HOLD_EXPIRY (04 R126): the held commit takes effect, and the path is free once its access ends. -/
def Hub.holdEnds (h : Hub) : Hub :=
  match h.chip.fab.held with
  | none => h
  | some a =>
    let h := (h.onChip fun c => c.modFab fun f => { f with held := none }).resume a
    (h.drainPath h.chip.fab.waiting.length).afterWrite id

def execCommitHoldExpiry (s : State) : Host.Outcome State Fault Refusal := s.onHub Hub.holdEnds

/-! Requests (R479 to R482). -/

/-- Relays a request to the partner on a port (R481): unchanged but for the LCTL header. Marks: DEDUCED, log 65. -/
def Chip.mgmtRelay (b : Barge) (p : Port) (c : Chip) : Chip :=
  let (_, c) := c.mgmtSend (some p) b.hdr.src.toNat 0 b.hdr.tspec b.payload
  c.modLkp fun k => { k with proxied := k.proxied ++ [{ port := p.val, request := b }] }

/-- A request that R478 admits, or that its tag admits, goes on; any other is answered with its STATUS. -/
def Hub.mgmtAdmit (x : P8Barge) (h : Hub) : Hub :=
  let b := x.barge
  let relay := !overLctl b && mgmtProxy b != 0
  let go := fun (ops : List Byte) (h : Hub) =>
    if relay then h.onChip (Chip.mgmtRelay b (Fin.ofNat 3 (mgmtProxy b - 1))) else h.mgmtCarryOut x ops
  if !mgmtFormatOk b then h.onChip (Chip.mgmtAnswer x 2 [])
  else if mgmtAttest b && !(relay && h.chip.admits (some b.hdr.src)) then
    let h := h.onChip fun c => c.countSlotRefused engineMgmt (c.activeSlot 1)
    match h.chip.attestRefusal b with
    | some st => h.onChip fun c => (c.when (st == 4) fun c => c.keyCount 94).mgmtAnswer x st []
    | none => go ((h.chip.attestedOps b).getD []) (h.onChip (Chip.attestTaken b))
  else if h.chip.inRecovery || h.chip.admits (some b.hdr.src) then go b.payload h
  else h.onChip fun c => c.admitRefused.mgmtAnswer x 1 []

/-- Takes a barge out of what P8 has received. -/
def Chip.takeP8 (x : P8Barge) (c : Chip) : Chip := c.modSwc fun w => { w with p8in := w.p8in.erase x }

/-- Must a request wait: another hub holds REG (08 R280), or a held commit keeps the access path (R484)?.
Marks: DEDUCED, log 65. -/
def Chip.mgmtWaits (c : Chip) (b : Barge) : Bool :=
  c.fab.held.isSome || (match c.lockHolder 0 with | some h => h != b.hdr.src.toNat | none => false)

/-- The response kept for a request, if one is (R480). -/
def Chip.keptFor (c : Chip) (b : Barge) : Option Barge :=
  (c.lkp.kept.find? fun k => k.hub == b.hdr.src.toNat && k.tag == mgmtTag b && decide (c.now ≤ k.time + second)).map fun k => k.barge

/-- MGMT_REQUEST_RX: the next request that need not wait. Barges of a reserved KIND are discarded. Marks: DEDUCED, log 65. -/
def Hub.mgmtRequest (h : Hub) : Hub :=
  let h := h.onChip fun c => c.modSwc fun w => { w with p8in := w.p8in.filter fun x => !(isMgmt x.barge && decide (2 ≤ mgmtKind x.barge)) }
  match h.chip.swc.p8in.find? fun x => isMgmt x.barge && mgmtKind x.barge == 0 && !h.chip.mgmtWaits x.barge with
  | none => h
  | some x =>
    let h := h.onChip (Chip.takeP8 x)
    match h.chip.keptFor x.barge with
    | some b => h.onChip fun c => c.modSwc fun w => { w with p8out := w.p8out ++ [(b, mgmtVia x)] }
    | none => h.mgmtAdmit x

/-- Are requests answered: by the Lockkeeper in RUN, or by the ROM in the recovery wait (R476, R482)? -/
def Chip.mgmtServes (c : Chip) : Bool := c.coresRun && (c.lkRun || c.inRecovery)

def execMgmtRequestRx (s : State) : Host.Outcome State Fault Refusal := s.onHub fun h => h.when h.chip.mgmtServes Hub.mgmtRequest

/-! The relay's answers (R481). -/

/-- Ends a relayed request with a response to its requester. -/
def Chip.proxyEnds (r : Proxied) (tspec : Word) (payload : List Byte) (c : Chip) : Chip :=
  let c := c.modLkp fun k => { k with proxied := k.proxied.erase r }
  let (b, c) := c.mgmtSend none (c.get F.FAB_ID_HUB_ID) r.request.hdr.src.toNat tspec payload
  c.keepResponse r.request.hdr.src.toNat (mgmtTag r.request) b

/-- MGMT_PROXY_RESPONSE_RX: the next response of a partner; one that answers no relayed request is discarded. -/
def Chip.proxyResponse (c : Chip) : Chip :=
  match c.swc.p8in.find? fun x => overLctl x.barge && isMgmt x.barge && mgmtKind x.barge == 1 with
  | none => c
  | some x =>
    let c := c.takeP8 x
    match c.lkp.proxied.find? fun r => r.port == x.inPort && mgmtTag r.request == mgmtTag x.barge with
    | none => c
    | some r => c.proxyEnds r x.barge.hdr.tspec x.barge.payload

def execMgmtProxyResponseRx (s : State) : Host.Outcome State Fault Refusal := s.onChip fun c => c.when c.mgmtServes Chip.proxyResponse

/-- MGMT_PROXY_TIMEOUT: the far partner of the oldest relayed request has not answered. -/
def Chip.proxyTimeout (c : Chip) : Chip :=
  match c.lkp.proxied with
  | [] => c
  | r :: _ => c.proxyEnds r (mgmtTspec r.request 6) []

def execMgmtProxyTimeout (s : State) : Host.Outcome State Fault Refusal := s.onChip fun c => c.when c.mgmtServes Chip.proxyTimeout

end Sys2Proof.Machine
end

