-- ==== Sys2Proof/Machine/Resets.lean ====
section
/-! DEFINITION. The commands that begin and end resets (01 R16, R21 to R25, 17 R506). -/

namespace Sys2Proof.Machine

/-- POR: a core-die supply falls, or the supplies ramp. A ramp of VAON also resets the VAON circuits, and PWR_EN is high from
there on (15 R463). -/
def Hub.powerOnReset (vaonRamp : Bool) (h : Hub) : Hub :=
  let h := h.coreReset .por 0 false vaonRamp
  h.when vaonRamp fun h => h.onChip fun c =>
    { (c.emit (.pwrEn true)) with regs := c.regs.afterRamp, pst := Pst.reset }

def execPor (vaonRamp : Bool) (s : State) : Host.Outcome State Fault Refusal := s.onHub (Hub.powerOnReset vaonRamp)

/-- RST_N_ASSERT (R21). -/
def execRstNAssert (s : State) : Host.Outcome State Fault Refusal := s.onHub (Hub.coldReset 1)

/-- CLOCK_LOSS (R16): FAULT_N by the CLOCK_LOSS source, and cold reset until the crystal has run for 2 ms. In Off there is
nothing to hold. -/
def execClockLoss (s : State) : Host.Outcome State Fault Refusal :=
  s.onHub fun h => h.when (!h.chip.pst.off && !h.chip.rst.clockLost) fun h =>
    (h.coldReset 4).onChip fun c =>
      let c := c.flag F.GLB_FAULT_STATUS_CLOCK_LOSS
      { c with rst := { c.rst with clockLost := true } }

/-- CLOCK_RESTORED (R16). -/
def execClockRestored (s : State) : Host.Outcome State Fault Refusal :=
  s.onChip fun c => { c with rst := { c.rst with clockLost := false } }

/-- The straps at the end of the internal reset (R21, R24), with the roles that follow them (Table 01-6). A warm reset keeps
them (Table 01-5). -/
def Chip.sampleStraps (roleHe boot0 boot1 testmode : Bool) (c : Chip) : Chip :=
  let c := c.put F.GLB_STRAPS_ROLE_HE roleHe.toNat
  let c := c.put F.GLB_STRAPS_BOOT (boot1.toNat * 2 + boot0.toNat)
  let c := c.put F.GLB_STRAPS_TESTMODE testmode.toNat
  -- TESTMODE high is a private request (13 R423)
  c.when testmode fun c => if c.get F.KEY_STATUS_LC = 2 then c.keyCount 95 else c.privateInstruction

/-- The roles that the adapters show (Table 01-6). -/
def Chip.showRole (c : Chip) : Chip :=
  (c.put F.WIN_STATUS_ROLE c.headEnd.toNat).put F.USB_STATUS_ROLE c.headEnd.toNat

/-- INTERNAL_RESET_END (R21): straps are sampled, the ROM is measured (13 R401) and start-up BIST begins.
Marks: DEDUCED, log 55. -/
def Chip.resetEnd (roleHe boot0 boot1 testmode : Bool) (c : Chip) : Chip :=
  let warm := c.rst.active == some .warm
  let c := { c with rst := { c.rst with active := none, clockLost := false, breakPort := none, bist := true } }
  let c := c.when (!warm) (Chip.sampleStraps roleHe boot0 boot1 testmode)
  let c := (c.show256 F.KEY_MEAS_ROM Config.romDigest).put F.KEY_STATUS_ROOT_OK c.rootKey.isSome.toNat
  let c := c.showRole.blankFlr
  c.when (c.key.fuses.rootBad && !warm) fun c => (c.flag F.KEY_INT_STATUS_FUSE_ERR).raiseOwn 0x38 0xFF 0

def execInternalResetEnd (roleHe boot0 boot1 testmode : Bool) (s : State) : Host.Outcome State Fault Refusal :=
  s.onChip fun c => c.when (c.rst.active.isSome && !c.rst.clockLost && c.rst.breakPort.isNone && !c.pst.off)
    (Chip.resetEnd roleHe boot0 boot1 testmode)

end Sys2Proof.Machine
end

