-- ==== Sys2Proof/Machine/Tick.lean ====
section
/-! DEFINITION. Time: what passes with it, a cycle of an idle block, and the frame tick (06 R216 and the rules that name the
tick). -/

namespace Sys2Proof.Machine

/-! Time passes (log 4). -/

/-- Does the bit that a LEVEL counter names read 1 (16 R492)? -/
def Hub.levelBit (h : Hub) (x : Counter) : Bool := !x.invalid && (h.readWord x.place.1).getLsbD x.place.2

/-- LEVEL counters over some CLK_PER cycles. -/
def Hub.countLevels (cycles : Nat) (h : Hub) : Hub :=
  if h.chip.on F.CNT_CTL_FREEZE then h
  else
    let due := h.chip.cnt.counters.filter fun x => x.1 < 88 && x.2.mode == 2 && h.levelBit x.2
    h.onChip fun c => { c with cnt := due.foldl (fun t x => t.advance x.1 cycles) c.cnt }

/-- Does an RO bit that a counter names read 1 where other state shows it: in the word read but not in the register? -/
def Hub.shownBit (h : Hub) (x : Counter) : Bool :=
  let (off, b) := x.place
  match regAt off with
  | some e => e.ro.testBit b && !e.counter && (h.readWord off).getLsbD b && !(h.word off).getLsbD b
  | none => false

/-- EDGE counters on bits that other state shows count the rises since the last cycle (16 R492). Marks: DEDUCED, log 4. -/
def Hub.countShown (h : Hub) : Hub :=
  let edges := h.chip.cnt.counters.filter fun x => x.1 < 88 && x.2.mode == 1
  let rises := edges.filter fun x => h.shownBit x.2 && h.chip.cnt.seen.contains (x.1, x.2.sel, false)
  h.onChip fun c =>
    let t := if c.on F.CNT_CTL_FREEZE then c.cnt else rises.foldl (fun t x => t.advance x.1 1) c.cnt
    { c with cnt := { t with seen := edges.map fun x => (x.1, x.2.sel, h.shownBit x.2) } }

/-- Some nanoseconds pass: the model's count goes on, a clocked core counts its cycles, and the bulk credits are brought up to
now, at the rates that held until now (06 R201). -/
def Hub.passTime (ns : Nat) (h : Hub) : Hub :=
  let h := h.when h.chip.running fun h => (h.countLevels (ns / 8)).countShown
  h.onChip fun c => { c with now := c.now + ns }.settleBulk

/-- Fabric time advances by some nanoseconds of the crystal at the steered rate (04 R158, R160), up to the frame tick, which is a
command. -/
def Chip.advanceTime (ns : Nat) (c : Chip) : Chip :=
  let t := (c.subns * 10 ^ 9 + c.fab.phase : Nat) + (ns : Int) * (10 ^ 9 + c.fab.steer)
  if t < 10 ^ 15 then { c.modFab fun f => { f with phase := t.toNat % 10 ^ 9 } with subns := t.toNat / 10 ^ 9 } else c

/-- One CLK_PER cycle with nothing commanded: SUBNS of a clocked core advances. -/
def Hub.idle (h : Hub) : Hub := (h.passTime 8).onChip fun c => c.when c.running (Chip.advanceTime 8)

/-- An idle cycle of the block. -/
def State.idle (s : State) : Host.Outcome State Fault Refusal := s.onHub Hub.idle

/-! The frame tick. -/

/-- COUNTER_SNAPSHOT (16 R496): every value is copied when FRAME is a multiple of SNAP_PERIOD. -/
def Chip.snapshotCounters (c : Chip) : Chip :=
  let period := c.get F.CNT_CTL_SNAP_PERIOD
  let frame := c.get F.FAB_FRAME
  if period = 0 ∨ frame % period ≠ 0 then c
  else
    { c.put F.CNT_SNAP_FRAME frame with
      cnt := { c.cnt with counters := c.cnt.counters.map fun x => (x.1, { x.2 with snap := x.2.value }) } }

/-- The frame that begins: SUBNS is 0 and FRAME one greater. -/
def Chip.nextFrame (c : Chip) : Chip := { (c.inc F.FAB_FRAME).modFab fun f => { f with phase := 0 } with subns := 0 }

/-- Route notices of lost ring ports and spurs repeat (04 R151). Marks: DEDUCED, log 38. -/
def Chip.repeatNotices (c : Chip) : Chip := c.each ports fun p c => c.when c.fab.ownLost[p] fun c => c.sendNotice p true

/-- FRAME_TICK: time reaches the tick; the counters' snapshot; gates; the records of the frame just ended and the governor on
them; power offers; TICK blocks; the field gateway; route notices and alarms. -/
def Hub.frameTick (m : FrameMeas) (h : Hub) : Hub :=
  let ended := h.chip.get F.FAB_FRAME
  let h := h.passTime (1_000_000 - h.chip.subns)
  let h := h.onChip fun c => c.nextFrame.snapshotCounters.gatesInitial.takeovers
  let (r, h) := h.frameRecords ended
  (h.governorTick r m.die).makeOffers.onChip fun c =>
    let c := c.each ports fun p c => c.sendTick p
    (c.fldTick m.ain).repeatNotices.alarmTick

def execFrameTick (meas : FrameMeas) (s : State) : Host.Outcome State Fault Refusal :=
  s.onHub fun h => h.when h.chip.running (Hub.frameTick meas)

end Sys2Proof.Machine
end

