-- ==== Sys2Proof/Machine/Writes.lean ====
section
/-! DEFINITION. The commands that are register writes with a row of their own: each is a write through the access path (16 R477,
R483), and what it does is `Hub.effect` of its word. -/

namespace Sys2Proof.Machine

/-! Resets (01 R23). -/

/-- GLB_CTL.WARM_RESET with its CONFIRM (R23). -/
def execWarmReset (req : Requester) (confirm : BitVec 16) (s : State) : Host.Outcome State Fault Refusal :=
  s.writeFields req F.GLB_CTL.off [(F.GLB_CTL_WARM_RESET, 1), (F.GLB_CTL_CONFIRM, confirm.toNat)]

/-- GLB_CTL.DP_RESET with its CONFIRM (R23). -/
def execDpReset (req : Requester) (confirm : BitVec 16) (s : State) : Host.Outcome State Fault Refusal :=
  s.writeFields req F.GLB_CTL.off [(F.GLB_CTL_DP_RESET, 1), (F.GLB_CTL_CONFIRM, confirm.toNat)]

/-! Trunk lanes and the link (02, 03). -/

/-- TRK_SHIFT_CMD.GO with its TARGET (02 R65). -/
def execShiftCmdGo (req : Requester) (p : Port) (target : BitVec 3) (s : State) : Host.Outcome State Fault Refusal :=
  s.writeFields req (F.TRK_SHIFT_CMD p).off [(F.TRK_SHIFT_CMD_TARGET p, target.toNat), (F.TRK_SHIFT_CMD_GO p, 1)]

/-- A write of TRK_CTL that changes STEP_MAX or STEP_MIN (02 R78). -/
def execStepLimitWrite (req : Requester) (p : Port) (ctl : Word) (s : State) : Host.Outcome State Fault Refusal :=
  s.writeWord req (F.TRK_CTL p).off ctl

/-- A write of TRK_CTL.TEST_MODE (02 R75). -/
def execTestModeWrite (req : Requester) (p : Port) (on : Bool) (s : State) : Host.Outcome State Fault Refusal :=
  s.writeFields req (F.TRK_CTL p).off [(F.TRK_CTL_TEST_MODE p, on.toNat)]

/-- TRK_CTL.RETRAIN (02 R78). -/
def execTrkRetrain (req : Requester) (p : Port) (s : State) : Host.Outcome State Fault Refusal :=
  s.writeFields req (F.TRK_CTL p).off [(F.TRK_CTL_RETRAIN p, 1)]

/-- A write of TRK_CTL.EN and the lane-off bits (02 R66). -/
def execTrkEnableWrite (req : Requester) (p : Port) (en laneAOff laneBOff : Bool) (s : State) : Host.Outcome State Fault Refusal :=
  s.writeFields req (F.TRK_CTL p).off [(F.TRK_CTL_EN p, en.toNat), (F.TRK_CTL_LANE_A_OFF p, laneAOff.toNat), (F.TRK_CTL_LANE_B_OFF p, laneBOff.toNat)]

/-- A write of TRK_TEST_CTL (02 R76). -/
def execTestCheckerEnable (req : Requester) (p : Port) (ctl : Word) (s : State) : Host.Outcome State Fault Refusal :=
  s.writeWord req (F.TRK_TEST_CTL p).off ctl

/-- WET_CLEAR: ten windows have passed with neither condition (02 R56). -/
def execWetClear (p : Port) (s : State) : Host.Outcome State Fault Refusal :=
  s.onChip (Chip.wetClear p)

/-- LNK_CTL.EN is cleared (03 R523). -/
def execLinkDisable (req : Requester) (p : Port) (s : State) : Host.Outcome State Fault Refusal :=
  s.writeFields req (F.LNK_CTL p).off [(F.LNK_CTL_EN p, 0)]

/-- LNK_TP_CMD.SEND sends the frame of the mailbox (03 R109). -/
def execTpSend (req : Requester) (p : Port) (s : State) : Host.Outcome State Fault Refusal :=
  s.writeFields req (F.LNK_TP_CMD p).off [(F.LNK_TP_CMD_SEND p, 1)]

/-- LNK_TP_CMD.STATUS_REQ sends a STATUS request (03 R522). -/
def execTpStatusReq (req : Requester) (p : Port) (s : State) : Host.Outcome State Fault Refusal :=
  s.writeFields req (F.LNK_TP_CMD p).off [(F.LNK_TP_CMD_STATUS_REQ p, 1)]

/-- LNK_TP_CMD.HARD_RESET sends the hard-reset break (03 R117). -/
def execTpHardReset (req : Requester) (p : Port) (s : State) : Host.Outcome State Fault Refusal :=
  s.writeFields req (F.LNK_TP_CMD p).off [(F.LNK_TP_CMD_HARD_RESET p, 1)]

/-- LNK_TP_CMD.RX_RELEASE frees the receive mailbox (03 R119). -/
def execTpRxRelease (req : Requester) (p : Port) (s : State) : Host.Outcome State Fault Refusal :=
  s.writeFields req (F.LNK_TP_CMD p).off [(F.LNK_TP_CMD_RX_RELEASE p, 1)]

/-- LNK_TP_CMD.SOFT_RESET with SOFT_SCOPE (03 R115). -/
def execTpSoftReset (req : Requester) (p : Port) (scope : Bool) (s : State) : Host.Outcome State Fault Refusal :=
  s.writeFields req (F.LNK_TP_CMD p).off [(F.LNK_TP_CMD_SOFT_RESET p, 1), (F.LNK_TP_CMD_SOFT_SCOPE p, scope.toNat)]

/-! Tables, the switch core and the scheduler (04 to 06). -/

/-- A write of word 0 of a route entry (04 R125). -/
def execRouteEntryCommit (req : Requester) (dst : BitVec 10) (value : BitVec 32) (s : State) : Host.Outcome State Fault Refusal :=
  s.writeWord req (F.FAB_ROUTE0 dst.toNat).off value

/-- A write of word 1 of a tunnel map entry (04 R125). -/
def execTunnelMapCommit (req : Requester) (t : BitVec 12) (value : BitVec 32) (s : State) : Host.Outcome State Fault Refusal :=
  s.writeWord req (F.FAB_TUN1 t.toNat).off value

/-- A write of a multicast group entry (04 R125, R127). -/
def execGroupEntryCommit (req : Requester) (g : Byte) (value : BitVec 32) (s : State) : Host.Outcome State Fault Refusal :=
  s.writeWord req (F.FAB_GROUP g.toNat).off value

/-- A write of SWC_BASIN_Pi (05 R167). -/
def execBasinReserveWrite (req : Requester) (i : Fin 10) (value : BitVec 32) (s : State) : Host.Outcome State Fault Refusal :=
  s.writeWord req (F.SWC_BASIN i.val).off value

/-- SWC_CTL.PEAK_CLR (05 R164). -/
def execPeakClr (req : Requester) (s : State) : Host.Outcome State Fault Refusal :=
  s.writeFields req F.SWC_CTL.off [(F.SWC_CTL_PEAK_CLR, 1)]

/-- A write of word 0 of a weir (06 R205). -/
def execWeirCommit (req : Requester) (n : BitVec 9) (value : BitVec 32) (s : State) : Host.Outcome State Fault Refusal :=
  s.writeWord req (F.SCH_WEIR0 n.toNat).off value

/-- A write of SCH_Pp_TAKE_CTL with ARM (06 R208). -/
def execTakeoverArm (req : Requester) (i : Fin 10) (subns : BitVec 20) (s : State) : Host.Outcome State Fault Refusal :=
  s.writeFields req (F.SCH_P_TAKE_CTL i.val).off [(F.SCH_P_TAKE_CTL_SUBNS i.val, subns.toNat), (F.SCH_P_TAKE_CTL_ARM i.val, 1)]

/-- A write of SCH_Pp_TAKE_CTL with DISARM (06 R208). -/
def execTakeoverDisarm (req : Requester) (i : Fin 10) (subns : BitVec 20) (s : State) : Host.Outcome State Fault Refusal :=
  s.writeFields req (F.SCH_P_TAKE_CTL i.val).off [(F.SCH_P_TAKE_CTL_SUBNS i.val, subns.toNat), (F.SCH_P_TAKE_CTL_DISARM i.val, 1)]

/-- A write of SCH_Q_SEL (06 R223). -/
def execSchQSelWrite (req : Requester) (value : BitVec 32) (s : State) : Host.Outcome State Fault Refusal :=
  s.writeWord req F.SCH_Q_SEL.off value

/-! The adapters (07 to 10). -/

/-- A write of word 0 of a port map entry (07 R256). -/
def execPortMapWrite (req : Requester) (i : Byte) (value : BitVec 32) (s : State) : Host.Outcome State Fault Refusal :=
  s.writeWord req (F.USB_MAP0 i.toNat).off value

/-- WIN_LOCK_CTL.REQ (08 R278). -/
def execLockCtlReq (req : Requester) (hub : BitVec 10) (space : BitVec 2) (s : State) : Host.Outcome State Fault Refusal :=
  s.writeFields req F.WIN_LOCK_CTL.off [(F.WIN_LOCK_CTL_HUB, hub.toNat), (F.WIN_LOCK_CTL_SPACE, space.toNat), (F.WIN_LOCK_CTL_REQ, 1)]

/-- WIN_LOCK_CTL.RELEASE (08 R281). -/
def execLockCtlRelease (req : Requester) (hub : BitVec 10) (space : BitVec 2) (s : State) : Host.Outcome State Fault Refusal :=
  s.writeFields req F.WIN_LOCK_CTL.off [(F.WIN_LOCK_CTL_HUB, hub.toNat), (F.WIN_LOCK_CTL_SPACE, space.toNat), (F.WIN_LOCK_CTL_RELEASE, 1)]

/-- WIN_LOCK_CTL.RELEASE_ALL (08 R281). -/
def execLockCtlReleaseAll (req : Requester) (s : State) : Host.Outcome State Fault Refusal :=
  s.writeFields req F.WIN_LOCK_CTL.off [(F.WIN_LOCK_CTL_RELEASE_ALL, 1)]

/-- A write of word 0 of a range entry (08 R266). -/
def execRangeCommit (req : Requester) (n : Fin 16) (value : BitVec 32) (s : State) : Host.Outcome State Fault Refusal :=
  s.writeWord req (F.WIN_RNG0 n.val).off value

/-- WIN_RP_CTL.RETRAIN (08 R263). -/
def execRpRetrain (req : Requester) (s : State) : Host.Outcome State Fault Refusal :=
  s.writeFields req F.WIN_RP_CTL.off [(F.WIN_RP_CTL_RETRAIN, 1)]

/-- The host advances TAIL of a ring (08 R282). -/
def execDmaTailWrite (req : Requester) (n : Fin 64) (tail : BitVec 16) (s : State) : Host.Outcome State Fault Refusal :=
  s.writeFields req (F.WIN_DMA4 n.val).off [(F.WIN_DMA4_TAIL n.val, tail.toNat)]

/-- A write of a ring's configuration: word 0 and 1 BASE, word 2 the rest (08 R288). -/
def execDmaRingConfigWrite (req : Requester) (n : Fin 64) (word : Fin 3) (value : BitVec 32) (s : State) : Host.Outcome State Fault Refusal :=
  s.writeWord req ((F.WIN_DMA0 n.val).off + 4 * word.val) value

/-- A write of VID_DSI_CMD with SEND (09 R301). -/
def execDsiCmdSend (req : Requester) (value : BitVec 32) (s : State) : Host.Outcome State Fault Refusal :=
  s.writeWord req F.VID_DSI_CMD.off (wordWithField value 16 1 1)

/-- A write of word 1 of a learning entry (09 R309). -/
def execEthLearnCommit (req : Requester) (i : BitVec 10) (value : BitVec 32) (s : State) : Host.Outcome State Fault Refusal :=
  s.writeWord req (F.ETH_LRN1 i.toNat).off value

/-- A write of word 0 of a VLAN entry (09 R305). -/
def execEthVlanCommit (req : Requester) (v : Fin 64) (value : BitVec 32) (s : State) : Host.Outcome State Fault Refusal :=
  s.writeWord req (F.ETH_VLAN0 v.val).off value

/-- A write of ETH_MDIO_CMD with GO (09 R302). -/
def execMdioGo (req : Requester) (value : BitVec 32) (s : State) : Host.Outcome State Fault Refusal :=
  s.writeWord req F.ETH_MDIO_CMD.off (wordWithField value 13 1 1)

/-- A write of word 0 of a signal entry (10 R336). -/
def execSignalEntryCommit (req : Requester) (i : BitVec 10) (value : BitVec 32) (s : State) : Host.Outcome State Fault Refusal :=
  s.writeWord req (F.FLD_SIG0 i.toNat).off value

/-! Trunk power and the load channels (11, 12). -/

/-- TPW_Tx_CMD.PROBE (11 R347). -/
def execTpwProbeCmd (req : Requester) (p : Port) (s : State) : Host.Outcome State Fault Refusal :=
  s.writeFields req (F.TPW_P_CMD p).off [(F.TPW_P_CMD_PROBE p, 1)]

/-- GO with ROLE 0 turns the path off and holds it open (11 R339). -/
def execTpwGoOpen (req : Requester) (p : Port) (s : State) : Host.Outcome State Fault Refusal :=
  s.writeFields req (F.TPW_P_CMD p).off [(F.TPW_P_CMD_ROLE p, 0), (F.TPW_P_CMD_GO p, 1)]

/-- GO with ROLE 1 starts the source role (11 R339). -/
def execTpwGoSource (req : Requester) (p : Port) (s : State) : Host.Outcome State Fault Refusal :=
  s.writeFields req (F.TPW_P_CMD p).off [(F.TPW_P_CMD_ROLE p, 1), (F.TPW_P_CMD_GO p, 1)]

/-- GO with ROLE 2 closes the path as ideal diode (11 R339). -/
def execTpwGoSink (req : Requester) (p : Port) (s : State) : Host.Outcome State Fault Refusal :=
  s.writeFields req (F.TPW_P_CMD p).off [(F.TPW_P_CMD_ROLE p, 2), (F.TPW_P_CMD_GO p, 1)]

/-- TPW_Tx_CMD.CLEAR_LATCH (11 R339). -/
def execTpwClearLatch (req : Requester) (p : Port) (s : State) : Host.Outcome State Fault Refusal :=
  s.writeFields req (F.TPW_P_CMD p).off [(F.TPW_P_CMD_CLEAR_LATCH p, 1)]

/-- A write of TPW_RAIL_CFG that changes PREF_PORT (11 R343). -/
def execPrefPortWrite (req : Requester) (value : BitVec 32) (s : State) : Host.Outcome State Fault Refusal :=
  s.writeWord req F.TPW_RAIL_CFG.off value

/-- A write of DEFAULT_ROLE or a limit: a word of the TPW block (11 R373). -/
def execTpwConfigWrite (req : Requester) (off : BitVec 24) (value : BitVec 32) (s : State) : Host.Outcome State Fault Refusal :=
  s.writeWord req off.toNat value

/-- LDC_Ly_CMD.ON (12 R385). -/
def execLoadCmdOn (req : Requester) (y : Chan) (s : State) : Host.Outcome State Fault Refusal :=
  s.writeFields req (F.LDC_L_CMD y).off [(F.LDC_L_CMD_ON y, 1)]

/-- LDC_Ly_CMD.OFF (12 R385). -/
def execLoadCmdOff (req : Requester) (y : Chan) (s : State) : Host.Outcome State Fault Refusal :=
  s.writeFields req (F.LDC_L_CMD y).off [(F.LDC_L_CMD_OFF y, 1)]

/-- LDC_Ly_CMD.CLEAR_LATCH (12 R385). -/
def execLoadCmdClearLatch (req : Requester) (y : Chan) (s : State) : Host.Outcome State Fault Refusal :=
  s.writeFields req (F.LDC_L_CMD y).off [(F.LDC_L_CMD_CLEAR_LATCH y, 1)]

/-- A write of a limit, a model or a standing command: a word of the LDC block (12 R395). -/
def execLoadConfigWrite (req : Requester) (off : BitVec 24) (value : BitVec 32) (s : State) : Host.Outcome State Fault Refusal :=
  s.writeWord req off.toNat value

/-! Keys (13). -/

/-- KEY_LC_CMD.GO with TARGET and CONFIRM (13 R397). -/
def execLcFuseGo (req : Requester) (target : BitVec 2) (confirm : BitVec 16) (s : State) : Host.Outcome State Fault Refusal :=
  s.writeFields req F.KEY_LC_CMD.off [(F.KEY_LC_CMD_TARGET, target.toNat), (F.KEY_LC_CMD_GO, 1), (F.KEY_LC_CMD_CONFIRM, confirm.toNat)]

/-- KEY_LC_CMD.SVN_ADVANCE with CONFIRM (13 R414). -/
def execSvnAdvance (req : Requester) (confirm : BitVec 16) (s : State) : Host.Outcome State Fault Refusal :=
  s.writeFields req F.KEY_LC_CMD.off [(F.KEY_LC_CMD_SVN_ADVANCE, 1), (F.KEY_LC_CMD_CONFIRM, confirm.toNat)]

/-- KEY_PROV_CMD.GO (13 R409). -/
def execProvGo (req : Requester) (s : State) : Host.Outcome State Fault Refusal :=
  s.writeFields req F.KEY_PROV_CMD.off [(F.KEY_PROV_CMD_GO, 1)]

/-- KEY_WM_CMD.GO with SESSION (13 R411, R412). -/
def execWatermarkGo (req : Requester) (session : Bool) (s : State) : Host.Outcome State Fault Refusal :=
  s.writeFields req F.KEY_WM_CMD.off [(F.KEY_WM_CMD_GO, 1), (F.KEY_WM_CMD_SESSION, session.toNat)]

/-- KEY_Px_CMD.READMIT (13 R415). -/
def execReadmit (req : Requester) (p : Port) (s : State) : Host.Outcome State Fault Refusal :=
  s.writeFields req (F.KEY_P_CMD p).off [(F.KEY_P_CMD_READMIT p, 1)]

/-- KEY_Px_CMD.REKEY (13 R420). -/
def execRekey (req : Requester) (p : Port) (s : State) : Host.Outcome State Fault Refusal :=
  s.writeFields req (F.KEY_P_CMD p).off [(F.KEY_P_CMD_REKEY p, 1)]

/-! The Lockkeeper and power states (14, 15). -/

/-- LKP_CTL.READY (14 R439). -/
def execLkpReady (req : Requester) (s : State) : Host.Outcome State Fault Refusal :=
  s.writeFields req F.LKP_CTL.off [(F.LKP_CTL_READY, 1)]

/-- LKP_CTL.KICK (14 R438). -/
def execLkpKick (req : Requester) (s : State) : Host.Outcome State Fault Refusal :=
  s.writeFields req F.LKP_CTL.off [(F.LKP_CTL_KICK, 1)]

/-- LKP_CTL.RESTART (14 R439). -/
def execLkpRestart (req : Requester) (s : State) : Host.Outcome State Fault Refusal :=
  s.writeFields req F.LKP_CTL.off [(F.LKP_CTL_RESTART, 1)]

/-- A write of PWR_VOTE_SW (15 R466). -/
def execPwrVoteSwWrite (req : Requester) (value : BitVec 32) (s : State) : Host.Outcome State Fault Refusal :=
  s.writeWord req F.PWR_VOTE_SW.off value

/-- A write of PWR_CTL.DEEP_REQ (15 R458). -/
def execDeepReqWrite (req : Requester) (on : Bool) (s : State) : Host.Outcome State Fault Refusal :=
  s.writeFields req F.PWR_CTL.off [(F.PWR_CTL_DEEP_REQ, on.toNat)]

/-- PWR_CTL.OFF with CONFIRM (15 R463). -/
def execPwrOff (req : Requester) (confirm : BitVec 16) (s : State) : Host.Outcome State Fault Refusal :=
  s.writeFields req F.PWR_CTL.off [(F.PWR_CTL_OFF, 1), (F.PWR_CTL_CONFIRM, confirm.toNat)]

/-! Configuration, flash and counters (16). -/

/-- A write into the recovery window (R476). -/
def execRecoveryImageWrite (req : Requester) (off : BitVec 10) (value : BitVec 32) (s : State) : Host.Outcome State Fault Refusal :=
  s.writeWord req (F.CFG_RECOVERY_BUF off.toNat).off value

/-- A write of a register (R483). -/
def execRegisterWrite (req : Requester) (off : BitVec 24) (value : BitVec 32) (s : State) : Host.Outcome State Fault Refusal :=
  s.writeWord req off.toNat value

/-- CFG_COMMIT.GO (R488). -/
def execCfgCommitGo (req : Requester) (s : State) : Host.Outcome State Fault Refusal :=
  s.writeFields req F.CFG_COMMIT.off [(F.CFG_COMMIT_GO, 1)]

/-- CFG_COMMIT.CLEAR_OVL (R488). -/
def execCfgClearOvl (req : Requester) (s : State) : Host.Outcome State Fault Refusal :=
  s.writeFields req F.CFG_COMMIT.off [(F.CFG_COMMIT_CLEAR_OVL, 1)]

/-- CFG_FL_CMD.GO: read (R489). -/
def execFlashRead (req : Requester) (s : State) : Host.Outcome State Fault Refusal :=
  s.writeFields req F.CFG_FL_CMD.off [(F.CFG_FL_CMD_OP, 0), (F.CFG_FL_CMD_GO, 1)]

/-- CFG_FL_CMD.GO: program (R489). -/
def execFlashProgram (req : Requester) (s : State) : Host.Outcome State Fault Refusal :=
  s.writeFields req F.CFG_FL_CMD.off [(F.CFG_FL_CMD_OP, 1), (F.CFG_FL_CMD_GO, 1)]

/-- CFG_FL_CMD.GO: erase of 4 KiB (R489). -/
def execFlashErase4k (req : Requester) (s : State) : Host.Outcome State Fault Refusal :=
  s.writeFields req F.CFG_FL_CMD.off [(F.CFG_FL_CMD_OP, 2), (F.CFG_FL_CMD_GO, 1)]

/-- CFG_FL_CMD.GO: erase of 64 KiB (R489). -/
def execFlashErase64k (req : Requester) (s : State) : Host.Outcome State Fault Refusal :=
  s.writeFields req F.CFG_FL_CMD.off [(F.CFG_FL_CMD_OP, 3), (F.CFG_FL_CMD_GO, 1)]

/-- A write of half a counter's value (R493). -/
def execCounterPreset (req : Requester) (n : Fin 96) (high : Bool) (value : BitVec 32) (s : State) : Host.Outcome State Fault Refusal :=
  s.writeWord req (if high then (F.CNT_VAL_HI n.val).off else (F.CNT_VAL_LO n.val).off) value

/-- CNT_CTL.CLEAR (R493). -/
def execCntClear (req : Requester) (s : State) : Host.Outcome State Fault Refusal :=
  s.writeFields req F.CNT_CTL.off [(F.CNT_CTL_CLEAR, 1)]

/-- A write of CNT_CTL.FREEZE (R493). -/
def execCntFreeze (req : Requester) (on : Bool) (s : State) : Host.Outcome State Fault Refusal :=
  s.writeFields req F.CNT_CTL.off [(F.CNT_CTL_FREEZE, on.toNat)]

/-- A write of GLB_FAULT_STATUS (R491). -/
def execFaultStatusClear (req : Requester) (value : BitVec 32) (s : State) : Host.Outcome State Fault Refusal :=
  s.writeWord req F.GLB_FAULT_STATUS.off value

end Sys2Proof.Machine
end

