-- ==== Sys2Proof/Machine/Dispatch.lean ====
section
/-! DEFINITION. The dispatch of a command to its meaning: one arm per constructor. -/

namespace Sys2Proof.Machine

def exec (i : Instr) (s : State) : Host.Outcome State Fault Refusal :=
  match i with
  | .por vaonRamp => Sys2Proof.Machine.execPor vaonRamp s
  | .rstNAssert => Sys2Proof.Machine.execRstNAssert s
  | .internalResetEnd roleHe boot0 boot1 testmode => Sys2Proof.Machine.execInternalResetEnd roleHe boot0 boot1 testmode s
  | .clockLoss => Sys2Proof.Machine.execClockLoss s
  | .clockRestored => Sys2Proof.Machine.execClockRestored s
  | .warmReset req confirm => Sys2Proof.Machine.execWarmReset req confirm s
  | .dpReset req confirm => Sys2Proof.Machine.execDpReset req confirm s
  | .frameTick meas => Sys2Proof.Machine.execFrameTick meas s
  | .bringupStart => Sys2Proof.Machine.execBringupStart s
  | .echoTrainingEnd p => Sys2Proof.Machine.execEchoTrainingEnd p s
  | .partnerAcquired p ppm => Sys2Proof.Machine.execPartnerAcquired p ppm s
  | .handshake p partner => Sys2Proof.Machine.execHandshake p partner s
  | .channelSnapshot p snap => Sys2Proof.Machine.execChannelSnapshot p snap s
  | .listeningEnter p => Sys2Proof.Machine.execListeningEnter p s
  | .listenBurst p => Sys2Proof.Machine.execListenBurst p s
  | .partnerEnergy p ms => Sys2Proof.Machine.execPartnerEnergy p ms s
  | .bringupBackoffExpiry p => Sys2Proof.Machine.execBringupBackoffExpiry p s
  | .spanStart p => Sys2Proof.Machine.execSpanStart p s
  | .lockMarkerRx p copies => Sys2Proof.Machine.execLockMarkerRx p copies s
  | .codewordRx p lane symbols => Sys2Proof.Machine.execCodewordRx p lane symbols s
  | .elasticSlip p ppm => Sys2Proof.Machine.execElasticSlip p ppm s
  | .fillerDue p idle => Sys2Proof.Machine.execFillerDue p idle s
  | .proposeUpShift p => Sys2Proof.Machine.execProposeUpShift p s
  | .proposeDownMargin p snrA snrB => Sys2Proof.Machine.execProposeDownMargin p snrA snrB s
  | .proposeDownCsr p lane corrected total => Sys2Proof.Machine.execProposeDownCsr p lane corrected total s
  | .proposeDownBurst p lane => Sys2Proof.Machine.execProposeDownBurst p lane s
  | .proposeBudgetShift p => Sys2Proof.Machine.execProposeBudgetShift p s
  | .holdoffExpiry p fromStep => Sys2Proof.Machine.execHoldoffExpiry p fromStep s
  | .shiftReqRx p => Sys2Proof.Machine.execShiftReqRx p s
  | .shiftAccRx p => Sys2Proof.Machine.execShiftAccRx p s
  | .shiftRefRx p => Sys2Proof.Machine.execShiftRefRx p s
  | .shiftCancel p => Sys2Proof.Machine.execShiftCancel p s
  | .shiftCancelRx p => Sys2Proof.Machine.execShiftCancelRx p s
  | .shiftResponderCommit p => Sys2Proof.Machine.execShiftResponderCommit p s
  | .shiftTxSwitch p => Sys2Proof.Machine.execShiftTxSwitch p s
  | .shiftRxSwitch p disturb => Sys2Proof.Machine.execShiftRxSwitch p disturb s
  | .shiftAcquireFail p lane => Sys2Proof.Machine.execShiftAcquireFail p lane s
  | .shiftCmdGo req p target => Sys2Proof.Machine.execShiftCmdGo req p target s
  | .stepLimitWrite req p ctl => Sys2Proof.Machine.execStepLimitWrite req p ctl s
  | .wetClear p => Sys2Proof.Machine.execWetClear p s
  | .laneLossOfSignal p lane => Sys2Proof.Machine.execLaneLossOfSignal p lane s
  | .laneDownRx p ctl => Sys2Proof.Machine.execLaneDownRx p ctl s
  | .laneJoinAttempt p lane => Sys2Proof.Machine.execLaneJoinAttempt p lane s
  | .laneJoinRx p ctl locked => Sys2Proof.Machine.execLaneJoinRx p ctl locked s
  | .quietEnter p util => Sys2Proof.Machine.execQuietEnter p util s
  | .wakeB p laneAFailing => Sys2Proof.Machine.execWakeB p laneAFailing s
  | .wakeBRx p ctl => Sys2Proof.Machine.execWakeBRx p ctl s
  | .moorEnter p => Sys2Proof.Machine.execMoorEnter p s
  | .moorExit p dTemp => Sys2Proof.Machine.execMoorExit p dTemp s
  | .moorPreambleRx p dTemp => Sys2Proof.Machine.execMoorPreambleRx p dTemp s
  | .linkLoss p => Sys2Proof.Machine.execLinkLoss p s
  | .protocolViolationLimit p => Sys2Proof.Machine.execProtocolViolationLimit p s
  | .testModeWrite req p on => Sys2Proof.Machine.execTestModeWrite req p on s
  | .trkRetrain req p => Sys2Proof.Machine.execTrkRetrain req p s
  | .trkEnableWrite req p en laneAOff laneBOff => Sys2Proof.Machine.execTrkEnableWrite req p en laneAOff laneBOff s
  | .testCheckerEnable req p ctl => Sys2Proof.Machine.execTestCheckerEnable req p ctl s
  | .linkBargeTx p => Sys2Proof.Machine.execLinkBargeTx p s
  | .linkBargeRx p blocks => Sys2Proof.Machine.execLinkBargeRx p blocks s
  | .ackDelayExpiry p => Sys2Proof.Machine.execAckDelayExpiry p s
  | .lackRx p blk => Sys2Proof.Machine.execLackRx p blk s
  | .lnakRx p blk => Sys2Proof.Machine.execLnakRx p blk s
  | .replayTimeout p => Sys2Proof.Machine.execReplayTimeout p s
  | .linkDisable req p => Sys2Proof.Machine.execLinkDisable req p s
  | .heartbeatTx p => Sys2Proof.Machine.execHeartbeatTx p s
  | .heartbeatRx p blk => Sys2Proof.Machine.execHeartbeatRx p blk s
  | .heartbeatLoss p => Sys2Proof.Machine.execHeartbeatLoss p s
  | .tickRx p blk rxTime => Sys2Proof.Machine.execTickRx p blk rxTime s
  | .delayReqTx p => Sys2Proof.Machine.execDelayReqTx p s
  | .delayReqRx p blk t2 t3 => Sys2Proof.Machine.execDelayReqRx p blk t2 t3 s
  | .delayRespRx p blk t4 => Sys2Proof.Machine.execDelayRespRx p blk t4 s
  | .epochRequest p aged => Sys2Proof.Machine.execEpochRequest p aged s
  | .epochChange p => Sys2Proof.Machine.execEpochChange p s
  | .towpathFrameRx p hdr payload crc => Sys2Proof.Machine.execTowpathFrameRx p hdr payload crc s
  | .towpathSend p collided => Sys2Proof.Machine.execTowpathSend p collided s
  | .towpathBackoffExpiry p => Sys2Proof.Machine.execTowpathBackoffExpiry p s
  | .helloTx p => Sys2Proof.Machine.execHelloTx p s
  | .helloRx p hdr payload => Sys2Proof.Machine.execHelloRx p hdr payload s
  | .partnerSeenTimeout p => Sys2Proof.Machine.execPartnerSeenTimeout p s
  | .statusRequestRx p hdr => Sys2Proof.Machine.execStatusRequestRx p hdr s
  | .resetSoftRx p hdr payload => Sys2Proof.Machine.execResetSoftRx p hdr payload s
  | .tpAnswerTimeout p seq => Sys2Proof.Machine.execTpAnswerTimeout p seq s
  | .tpEscalationStatusRx p hdr payload => Sys2Proof.Machine.execTpEscalationStatusRx p hdr payload s
  | .tpRestartWaitExpiry p => Sys2Proof.Machine.execTpRestartWaitExpiry p s
  | .tpUnescalatedTimeout p seq => Sys2Proof.Machine.execTpUnescalatedTimeout p seq s
  | .tpSend req p => Sys2Proof.Machine.execTpSend req p s
  | .tpStatusReq req p => Sys2Proof.Machine.execTpStatusReq req p s
  | .tpSoftReset req p scope => Sys2Proof.Machine.execTpSoftReset req p scope s
  | .tpHardReset req p => Sys2Proof.Machine.execTpHardReset req p s
  | .tpRxRelease req p => Sys2Proof.Machine.execTpRxRelease req p s
  | .fastSwapPatternRx p => Sys2Proof.Machine.execFastSwapPatternRx p s
  | .hardResetBreakRx p fresh => Sys2Proof.Machine.execHardResetBreakRx p fresh s
  | .breakResetRelease p toneEnded => Sys2Proof.Machine.execBreakResetRelease p toneEnded s
  | .breakGuardExpiry p => Sys2Proof.Machine.execBreakGuardExpiry p s
  | .discoveryAnnounceTx => Sys2Proof.Machine.execDiscoveryAnnounceTx s
  | .discoveryAnnounceRx p a => Sys2Proof.Machine.execDiscoveryAnnounceRx p a s
  | .routeEntryCommit req dst value => Sys2Proof.Machine.execRouteEntryCommit req dst value s
  | .tunnelMapCommit req t value => Sys2Proof.Machine.execTunnelMapCommit req t value s
  | .groupEntryCommit req g value => Sys2Proof.Machine.execGroupEntryCommit req g value s
  | .commitHoldExpiry => Sys2Proof.Machine.execCommitHoldExpiry s
  | .trunkIngressLookup p barge => Sys2Proof.Machine.execTrunkIngressLookup p barge s
  | .adapterIngressLookup port offer => Sys2Proof.Machine.execAdapterIngressLookup port offer s
  | .lockkeeperBargeIngress barge => Sys2Proof.Machine.execLockkeeperBargeIngress barge s
  | .admissionRetry port => Sys2Proof.Machine.execAdmissionRetry port s
  | .weirHoldRetry port => Sys2Proof.Machine.execWeirHoldRetry port s
  | .tackRx tack => Sys2Proof.Machine.execTackRx tack s
  | .syncTx tunnel => Sys2Proof.Machine.execSyncTx tunnel s
  | .syncRepeat tunnel => Sys2Proof.Machine.execSyncRepeat tunnel s
  | .syncRx sync => Sys2Proof.Machine.execSyncRx sync s
  | .tunnelAckDelayExpiry tunnel => Sys2Proof.Machine.execTunnelAckDelayExpiry tunnel s
  | .treplayExpiry tunnel => Sys2Proof.Machine.execTreplayExpiry tunnel s
  | .ageSweep => Sys2Proof.Machine.execAgeSweep s
  | .portRoutabilityLoss p => Sys2Proof.Machine.execPortRoutabilityLoss p s
  | .voqWalkDone p => Sys2Proof.Machine.execVoqWalkDone p s
  | .routeNoticeTx p => Sys2Proof.Machine.execRouteNoticeTx p s
  | .routeNoticeRx p notice => Sys2Proof.Machine.execRouteNoticeRx p notice s
  | .routeNoticeAgeExpiry spur index => Sys2Proof.Machine.execRouteNoticeAgeExpiry spur index s
  | .wtrExpiry p => Sys2Proof.Machine.execWtrExpiry p s
  | .timeKeyLapse p => Sys2Proof.Machine.execTimeKeyLapse p s
  | .upstreamTickTimeout => Sys2Proof.Machine.execUpstreamTickTimeout s
  | .hostSofLock sof => Sys2Proof.Machine.execHostSofLock sof s
  | .crossbarGrant checks => Sys2Proof.Machine.execCrossbarGrant checks s
  | .basinReserveWrite req ix value => Sys2Proof.Machine.execBasinReserveWrite req ix value s
  | .loopbackBarge => Sys2Proof.Machine.execLoopbackBarge s
  | .peakClr req => Sys2Proof.Machine.execPeakClr req s
  | .weirCommit req n value => Sys2Proof.Machine.execWeirCommit req n value s
  | .gateEntryAdvance port => Sys2Proof.Machine.execGateEntryAdvance port s
  | .gateCycleStart port => Sys2Proof.Machine.execGateCycleStart port s
  | .takeoverArm req ix subns => Sys2Proof.Machine.execTakeoverArm req ix subns s
  | .takeoverDisarm req ix subns => Sys2Proof.Machine.execTakeoverDisarm req ix subns s
  | .gateTakeover port => Sys2Proof.Machine.execGateTakeover port s
  | .schQSelWrite req value => Sys2Proof.Machine.execSchQSelWrite req value s
  | .budgetLevelFall => Sys2Proof.Machine.execBudgetLevelFall s
  | .capRaiseDelayExpiry => Sys2Proof.Machine.execCapRaiseDelayExpiry s
  | .shedRestore y => Sys2Proof.Machine.execShedRestore y s
  | .rampFreezeEnd => Sys2Proof.Machine.execRampFreezeEnd s
  | .usbU0Connect vbus speed => Sys2Proof.Machine.execUsbU0Connect vbus speed s
  | .portMapWrite req ix value => Sys2Proof.Machine.execPortMapWrite req ix value s
  | .hostSetup ss addr bytes => Sys2Proof.Machine.execHostSetup ss addr bytes s
  | .hostOutData ss addr ep seq stream data => Sys2Proof.Machine.execHostOutData ss addr ep seq stream data s
  | .hostInToken ss addr ep stream acked => Sys2Proof.Machine.execHostInToken ss addr ep stream acked s
  | .hostStatusStage ss addr => Sys2Proof.Machine.execHostStatusStage ss addr s
  | .hostIsoToken ss addr ep dirIn n data => Sys2Proof.Machine.execHostIsoToken ss addr ep dirIn n data s
  | .hostSplitTransaction addr start stage ep dirIn seq acked data => Sys2Proof.Machine.execHostSplitTransaction addr start stage ep dirIn seq acked data s
  | .hostLpmToken ix besl wake => Sys2Proof.Machine.execHostLpmToken ix besl wake s
  | .hostPortPower ix on => Sys2Proof.Machine.execHostPortPower ix on s
  | .hostPortSuspend ix => Sys2Proof.Machine.execHostPortSuspend ix s
  | .hostPortResume ix => Sys2Proof.Machine.execHostPortResume ix s
  | .hostPortReset ix warm => Sys2Proof.Machine.execHostPortReset ix warm s
  | .hostLinkSuspend low => Sys2Proof.Machine.execHostLinkSuspend low s
  | .hostLinkResume => Sys2Proof.Machine.execHostLinkResume s
  | .hostU0Reset vbusLost => Sys2Proof.Machine.execHostU0Reset vbusLost s
  | .portCmdPowerOn msg => Sys2Proof.Machine.execPortCmdPowerOn msg s
  | .portCmdPowerOff msg => Sys2Proof.Machine.execPortCmdPowerOff msg s
  | .portCmdReset msg => Sys2Proof.Machine.execPortCmdReset msg s
  | .portCmdWarmReset msg => Sys2Proof.Machine.execPortCmdWarmReset msg s
  | .portCmdSuspend msg => Sys2Proof.Machine.execPortCmdSuspend msg s
  | .portCmdResume msg => Sys2Proof.Machine.execPortCmdResume msg s
  | .portCmdDisable msg => Sys2Proof.Machine.execPortCmdDisable msg s
  | .portCmdL1 msg accepted => Sys2Proof.Machine.execPortCmdL1 msg accepted s
  | .portCmdUTimeout msg => Sys2Proof.Machine.execPortCmdUTimeout msg s
  | .portCmdSofOffset msg => Sys2Proof.Machine.execPortCmdSofOffset msg s
  | .portCmdSsHold msg => Sys2Proof.Machine.execPortCmdSsHold msg s
  | .portEventConnect msg => Sys2Proof.Machine.execPortEventConnect msg s
  | .portEventDisconnect msg => Sys2Proof.Machine.execPortEventDisconnect msg s
  | .portEventResetDone msg => Sys2Proof.Machine.execPortEventResetDone msg s
  | .portEventOverCurrent msg => Sys2Proof.Machine.execPortEventOverCurrent msg s
  | .portEventRemoteWake msg => Sys2Proof.Machine.execPortEventRemoteWake msg s
  | .portEventResumeDone msg => Sys2Proof.Machine.execPortEventResumeDone msg s
  | .portEventDisabled msg => Sys2Proof.Machine.execPortEventDisabled msg s
  | .portEventL1State msg => Sys2Proof.Machine.execPortEventL1State msg s
  | .proxySetupRx msg => Sys2Proof.Machine.execProxySetupRx msg s
  | .proxyOutDataRx msg => Sys2Proof.Machine.execProxyOutDataRx msg s
  | .proxyInReqRx msg => Sys2Proof.Machine.execProxyInReqRx msg s
  | .proxyInDataRx msg => Sys2Proof.Machine.execProxyInDataRx msg s
  | .proxyResultRx msg => Sys2Proof.Machine.execProxyResultRx msg s
  | .proxyIsoOutRx msg => Sys2Proof.Machine.execProxyIsoOutRx msg s
  | .proxyIsoInRx msg => Sys2Proof.Machine.execProxyIsoInRx msg s
  | .proxyEpResetRx msg => Sys2Proof.Machine.execProxyEpResetRx msg s
  | .deviceStall x ep dirIn => Sys2Proof.Machine.execDeviceStall x ep dirIn s
  | .deviceXferError x ep dirIn => Sys2Proof.Machine.execDeviceXferError x ep dirIn s
  | .deviceBabble x ep dirIn => Sys2Proof.Machine.execDeviceBabble x ep dirIn s
  | .deviceRemoteWake x => Sys2Proof.Machine.execDeviceRemoteWake x s
  | .deviceAttach x speed => Sys2Proof.Machine.execDeviceAttach x speed s
  | .interruptPoll x ep polled kept pkt => Sys2Proof.Machine.execInterruptPoll x ep polled kept pkt s
  | .microframeStart k isoIn => Sys2Proof.Machine.execMicroframeStart k isoIn s
  | .physicalResetEnd x speed => Sys2Proof.Machine.execPhysicalResetEnd x speed s
  | .resetLimitExpiry ix => Sys2Proof.Machine.execResetLimitExpiry ix s
  | .vbusGoodTimeout x => Sys2Proof.Machine.execVbusGoodTimeout x s
  | .ocDeglitchExpiry x low => Sys2Proof.Machine.execOcDeglitchExpiry x low s
  | .bridgeRdRx msg link => Sys2Proof.Machine.execBridgeRdRx msg link s
  | .bridgeWrPRx msg link => Sys2Proof.Machine.execBridgeWrPRx msg link s
  | .bridgeWrNpRx msg link => Sys2Proof.Machine.execBridgeWrNpRx msg link s
  | .bridgeCplDRx msg => Sys2Proof.Machine.execBridgeCplDRx msg s
  | .bridgeCplRx msg => Sys2Proof.Machine.execBridgeCplRx msg s
  | .bridgePwerrRx msg => Sys2Proof.Machine.execBridgePwerrRx msg s
  | .lockReqRx msg => Sys2Proof.Machine.execLockReqRx msg s
  | .lockGrantRx msg => Sys2Proof.Machine.execLockGrantRx msg s
  | .lockRetryRx msg => Sys2Proof.Machine.execLockRetryRx msg s
  | .lockRelRx msg => Sys2Proof.Machine.execLockRelRx msg s
  | .lockBrokenRx msg => Sys2Proof.Machine.execLockBrokenRx msg s
  | .lockCtlReq req hub space => Sys2Proof.Machine.execLockCtlReq req hub space s
  | .lockCtlRelease req hub space => Sys2Proof.Machine.execLockCtlRelease req hub space s
  | .lockCtlReleaseAll req => Sys2Proof.Machine.execLockCtlReleaseAll req s
  | .lockBackoffExpiry => Sys2Proof.Machine.execLockBackoffExpiry s
  | .lockHoldLimit mem => Sys2Proof.Machine.execLockHoldLimit mem s
  | .hostBarAccess target write offset len data reqId link => Sys2Proof.Machine.execHostBarAccess target write offset len data reqId link s
  | .driveInboundAccess write addr len data reqId link => Sys2Proof.Machine.execDriveInboundAccess write addr len data reqId link s
  | .driveMsi addr data => Sys2Proof.Machine.execDriveMsi addr data s
  | .prefetchIdleExpiry fwa => Sys2Proof.Machine.execPrefetchIdleExpiry fwa s
  | .cplTimeout tag => Sys2Proof.Machine.execCplTimeout tag s
  | .targetTimeout tunnel tag => Sys2Proof.Machine.execTargetTimeout tunnel tag s
  | .tagQuarantineExpiry tag => Sys2Proof.Machine.execTagQuarantineExpiry tag s
  | .pcieLinkDown perst => Sys2Proof.Machine.execPcieLinkDown perst s
  | .rangeCommit req n value => Sys2Proof.Machine.execRangeCommit req n value s
  | .rpRetrain req => Sys2Proof.Machine.execRpRetrain req s
  | .dmaTailWrite req n tail => Sys2Proof.Machine.execDmaTailWrite req n tail s
  | .dmaRxBarge n descs => Sys2Proof.Machine.execDmaRxBarge n descs s
  | .dmaTxMessage n descs => Sys2Proof.Machine.execDmaTxMessage n descs s
  | .dmaInterruptModeration n byTime => Sys2Proof.Machine.execDmaInterruptModeration n byTime s
  | .dmaRingConfigWrite req n word value => Sys2Proof.Machine.execDmaRingConfigWrite req n word value s
  | .stageRingWrite => Sys2Proof.Machine.execStageRingWrite s
  | .csiFrameStart vc hdr => Sys2Proof.Machine.execCsiFrameStart vc hdr s
  | .csiLineRx vc dt hdr crcOk data => Sys2Proof.Machine.execCsiLineRx vc dt hdr crcOk data s
  | .csiFrameEnd vc hdr => Sys2Proof.Machine.execCsiFrameEnd vc hdr s
  | .csiStreamLoss n => Sys2Proof.Machine.execCsiStreamLoss n s
  | .dsiFrameStart => Sys2Proof.Machine.execDsiFrameStart s
  | .dsiLineStart y => Sys2Proof.Machine.execDsiLineStart y s
  | .dsiSegmentRx msg => Sys2Proof.Machine.execDsiSegmentRx msg s
  | .dsiCmdSend req value => Sys2Proof.Machine.execDsiCmdSend req value s
  | .dsiCmdSent => Sys2Proof.Machine.execDsiCmdSent s
  | .ethLocalFrameRx x frame fcsOk => Sys2Proof.Machine.execEthLocalFrameRx x frame fcsOk s
  | .ethFabricFrameRx msg => Sys2Proof.Machine.execEthFabricFrameRx msg s
  | .ethTxStart x => Sys2Proof.Machine.execEthTxStart x s
  | .ethAgeExpiry ix => Sys2Proof.Machine.execEthAgeExpiry ix s
  | .ethLearnCommit req ix value => Sys2Proof.Machine.execEthLearnCommit req ix value s
  | .ethVlanCommit req v value => Sys2Proof.Machine.execEthVlanCommit req v value s
  | .mdioGo req value => Sys2Proof.Machine.execMdioGo req value s
  | .signalBargeRx msg => Sys2Proof.Machine.execSignalBargeRx msg s
  | .signalBatchExpiry tunnel => Sys2Proof.Machine.execSignalBatchExpiry tunnel s
  | .signalEntryCommit req ix value => Sys2Proof.Machine.execSignalEntryCommit req ix value s
  | .signalStale ix => Sys2Proof.Machine.execSignalStale ix s
  | .signalSubstitute ix => Sys2Proof.Machine.execSignalSubstitute ix s
  | .canFrameRx n ide fd rtr id data => Sys2Proof.Machine.execCanFrameRx n ide fd rtr id data s
  | .canFrameLoad n => Sys2Proof.Machine.execCanFrameLoad n s
  | .canFrameTxDone n => Sys2Proof.Machine.execCanFrameTxDone n s
  | .canBusOff n => Sys2Proof.Machine.execCanBusOff n s
  | .canBusRecover n => Sys2Proof.Machine.execCanBusRecover n s
  | .modbusTxnStart u => Sys2Proof.Machine.execModbusTxnStart u s
  | .modbusResponseRx u reply => Sys2Proof.Machine.execModbusResponseRx u reply s
  | .modbusTimeout u => Sys2Proof.Machine.execModbusTimeout u s
  | .modbusBroadcastIdleEnd u => Sys2Proof.Machine.execModbusBroadcastIdleEnd u s
  | .fioEdge p high => Sys2Proof.Machine.execFioEdge p high s
  | .fioChatterWindowEnd p => Sys2Proof.Machine.execFioChatterWindowEnd p s
  | .fioStuck p => Sys2Proof.Machine.execFioStuck p s
  | .hvUvloEnter => Sys2Proof.Machine.execHvUvloEnter s
  | .hvUvloRelease => Sys2Proof.Machine.execHvUvloRelease s
  | .probeStart p => Sys2Proof.Machine.execProbeStart p s
  | .probeComplete p r vcab => Sys2Proof.Machine.execProbeComplete p r vcab s
  | .tpwProbeCmd req p => Sys2Proof.Machine.execTpwProbeCmd req p s
  | .tpwGoOpen req p => Sys2Proof.Machine.execTpwGoOpen req p s
  | .tpwGoSource req p => Sys2Proof.Machine.execTpwGoSource req p s
  | .tpwGoSink req p => Sys2Proof.Machine.execTpwGoSink req p s
  | .tpwClearLatch req p => Sys2Proof.Machine.execTpwClearLatch req p s
  | .sinkClose p => Sys2Proof.Machine.execSinkClose p s
  | .sourceRampDone p => Sys2Proof.Machine.execSourceRampDone p s
  | .pathPgDeglitch p => Sys2Proof.Machine.execPathPgDeglitch p s
  | .sourceRampFault p cause => Sys2Proof.Machine.execSourceRampFault p cause s
  | .pathFaultTimer p => Sys2Proof.Machine.execPathFaultTimer p s
  | .pathHardShort p ma => Sys2Proof.Machine.execPathHardShort p ma s
  | .pathOvervoltage p => Sys2Proof.Machine.execPathOvervoltage p s
  | .pathOvRecovery p => Sys2Proof.Machine.execPathOvRecovery p s
  | .pathGateFault p => Sys2Proof.Machine.execPathGateFault p s
  | .pathDrop p => Sys2Proof.Machine.execPathDrop p s
  | .pathRetryDue p => Sys2Proof.Machine.execPathRetryDue p s
  | .pathReverseTurnoff p => Sys2Proof.Machine.execPathReverseTurnoff p s
  | .partnerSilentTimeout p => Sys2Proof.Machine.execPartnerSilentTimeout p s
  | .prefPortWrite req value => Sys2Proof.Machine.execPrefPortWrite req value s
  | .feedLossShed vrail => Sys2Proof.Machine.execFeedLossShed vrail s
  | .feedRestore => Sys2Proof.Machine.execFeedRestore s
  | .pwrOfferRx p hdr payload => Sys2Proof.Machine.execPwrOfferRx p hdr payload s
  | .pwrRequestRx p hdr payload => Sys2Proof.Machine.execPwrRequestRx p hdr payload s
  | .pwrAcceptRx p hdr payload => Sys2Proof.Machine.execPwrAcceptRx p hdr payload s
  | .pwrRejectRx p hdr payload => Sys2Proof.Machine.execPwrRejectRx p hdr payload s
  | .contractLowerDelay p => Sys2Proof.Machine.execContractLowerDelay p s
  | .overdrawCheck p mean => Sys2Proof.Machine.execOverdrawCheck p mean s
  | .swapReqRx p hdr payload => Sys2Proof.Machine.execSwapReqRx p hdr payload s
  | .swapAckRx p hdr payload => Sys2Proof.Machine.execSwapAckRx p hdr payload s
  | .swapNewSource p => Sys2Proof.Machine.execSwapNewSource p s
  | .swapOldSink p => Sys2Proof.Machine.execSwapOldSink p s
  | .swapStatusProbe p => Sys2Proof.Machine.execSwapStatusProbe p s
  | .swapGuardCheck p => Sys2Proof.Machine.execSwapGuardCheck p s
  | .frsTrigger p => Sys2Proof.Machine.execFrsTrigger p s
  | .fastSwapMsgRx p hdr payload => Sys2Proof.Machine.execFastSwapMsgRx p hdr payload s
  | .reverseCurrentSwap p => Sys2Proof.Machine.execReverseCurrentSwap p s
  | .guardFailure p => Sys2Proof.Machine.execGuardFailure p s
  | .restoreExpiry p => Sys2Proof.Machine.execRestoreExpiry p s
  | .hvLinkLoss => Sys2Proof.Machine.execHvLinkLoss s
  | .fetDamage p damage => Sys2Proof.Machine.execFetDamage p damage s
  | .fetModelUpdate smp => Sys2Proof.Machine.execFetModelUpdate smp s
  | .tpwConfigWrite req off value => Sys2Proof.Machine.execTpwConfigWrite req off value s
  | .loadCmdOn req y => Sys2Proof.Machine.execLoadCmdOn req y s
  | .loadCmdOff req y => Sys2Proof.Machine.execLoadCmdOff req y s
  | .loadCmdClearLatch req y => Sys2Proof.Machine.execLoadCmdClearLatch req y s
  | .loadSlotStart => Sys2Proof.Machine.execLoadSlotStart s
  | .loadRampEnd y => Sys2Proof.Machine.execLoadRampEnd y s
  | .loadRampFault y cause => Sys2Proof.Machine.execLoadRampFault y cause s
  | .loadFaultTimer y => Sys2Proof.Machine.execLoadFaultTimer y s
  | .loadHardShort y ma => Sys2Proof.Machine.execLoadHardShort y ma s
  | .loadGateFault y => Sys2Proof.Machine.execLoadGateFault y s
  | .loadPathDrop y => Sys2Proof.Machine.execLoadPathDrop y s
  | .loadOvervoltage y => Sys2Proof.Machine.execLoadOvervoltage y s
  | .loadOvRecovery y => Sys2Proof.Machine.execLoadOvRecovery y s
  | .loadPgDeglitch y => Sys2Proof.Machine.execLoadPgDeglitch y s
  | .loadVoutLow y => Sys2Proof.Machine.execLoadVoutLow y s
  | .loadRetryDue y => Sys2Proof.Machine.execLoadRetryDue y s
  | .loadRetryCountReset y => Sys2Proof.Machine.execLoadRetryCountReset y s
  | .loadOffConduction y => Sys2Proof.Machine.execLoadOffConduction y s
  | .loadOutPresent y => Sys2Proof.Machine.execLoadOutPresent y s
  | .loadConfigWrite req off value => Sys2Proof.Machine.execLoadConfigWrite req off value s
  | .lcFuseGo req target confirm => Sys2Proof.Machine.execLcFuseGo req target confirm s
  | .svnAdvance req confirm => Sys2Proof.Machine.execSvnAdvance req confirm s
  | .provGo req => Sys2Proof.Machine.execProvGo req s
  | .provRecordDone fuseOk => Sys2Proof.Machine.execProvRecordDone fuseOk s
  | .watermarkGo req session => Sys2Proof.Machine.execWatermarkGo req session s
  | .admissionStart p => Sys2Proof.Machine.execAdmissionStart p s
  | .keyxHelloKRx p hdr payload => Sys2Proof.Machine.execKeyxHelloKRx p hdr payload s
  | .keyxConfirmRx p hdr payload => Sys2Proof.Machine.execKeyxConfirmRx p hdr payload s
  | .keyxFailRx p hdr payload => Sys2Proof.Machine.execKeyxFailRx p hdr payload s
  | .admitTimeout p => Sys2Proof.Machine.execAdmitTimeout p s
  | .admitBackoffExpiry p => Sys2Proof.Machine.execAdmitBackoffExpiry p s
  | .readmit req p => Sys2Proof.Machine.execReadmit req p s
  | .rekey req p => Sys2Proof.Machine.execRekey req p s
  | .remaskPass => Sys2Proof.Machine.execRemaskPass s
  | .entropyHealthFail => Sys2Proof.Machine.execEntropyHealthFail s
  | .entropyHealthPass => Sys2Proof.Machine.execEntropyHealthPass s
  | .tapPrivateInstruction => Sys2Proof.Machine.execTapPrivateInstruction s
  | .unlockChalCapture => Sys2Proof.Machine.execUnlockChalCapture s
  | .unlockRespWrite response => Sys2Proof.Machine.execUnlockRespWrite response s
  | .unlockBlockExpiry => Sys2Proof.Machine.execUnlockBlockExpiry s
  | .scrubRead reads owner => Sys2Proof.Machine.execScrubRead reads owner s
  | .bistComplete result => Sys2Proof.Machine.execBistComplete result s
  | .lockstepMismatch pc => Sys2Proof.Machine.execLockstepMismatch pc s
  | .watchdogExpiry => Sys2Proof.Machine.execWatchdogExpiry s
  | .bootTmoExpiry => Sys2Proof.Machine.execBootTmoExpiry s
  | .lockkeeperFailure => Sys2Proof.Machine.execLockkeeperFailure s
  | .lkRestartBegin => Sys2Proof.Machine.execLkRestartBegin s
  | .lkRestartBistDone ok => Sys2Proof.Machine.execLkRestartBistDone ok s
  | .lkFirmwareLoaded fw => Sys2Proof.Machine.execLkFirmwareLoaded fw s
  | .lkpReady req => Sys2Proof.Machine.execLkpReady req s
  | .lkpKick req => Sys2Proof.Machine.execLkpKick req s
  | .lkpRestart req => Sys2Proof.Machine.execLkpRestart req s
  | .seqVoteDisagree majority => Sys2Proof.Machine.execSeqVoteDisagree majority s
  | .alarmHoldExpiry ix => Sys2Proof.Machine.execAlarmHoldExpiry ix s
  | .alarmBargeRx => Sys2Proof.Machine.execAlarmBargeRx s
  | .domainDrop d => Sys2Proof.Machine.execDomainDrop d s
  | .pwrVoteSwWrite req value => Sys2Proof.Machine.execPwrVoteSwWrite req value s
  | .lkWait => Sys2Proof.Machine.execLkWait s
  | .lkUngate => Sys2Proof.Machine.execLkUngate s
  | .domainWakeAccess d stall => Sys2Proof.Machine.execDomainWakeAccess d stall s
  | .deepReqWrite req on => Sys2Proof.Machine.execDeepReqWrite req on s
  | .deepSleepEntry abort => Sys2Proof.Machine.execDeepSleepEntry abort s
  | .deepSleepWake source pin => Sys2Proof.Machine.execDeepSleepWake source pin s
  | .deepHoldExpiry => Sys2Proof.Machine.execDeepHoldExpiry s
  | .pwrOff req confirm => Sys2Proof.Machine.execPwrOff req confirm s
  | .pwrEnDrop => Sys2Proof.Machine.execPwrEnDrop s
  | .offWake => Sys2Proof.Machine.execOffWake s
  | .aonTimerExpiry => Sys2Proof.Machine.execAonTimerExpiry s
  | .imageLoad flash => Sys2Proof.Machine.execImageLoad flash s
  | .imageLoaded => Sys2Proof.Machine.execImageLoaded s
  | .recoveryImageWrite req off value => Sys2Proof.Machine.execRecoveryImageWrite req off value s
  | .mgmtRequestRx => Sys2Proof.Machine.execMgmtRequestRx s
  | .mgmtProxyResponseRx => Sys2Proof.Machine.execMgmtProxyResponseRx s
  | .mgmtProxyTimeout => Sys2Proof.Machine.execMgmtProxyTimeout s
  | .bridgeRegAccess write off len data reqId => Sys2Proof.Machine.execBridgeRegAccess write off len data reqId s
  | .i2c0Access write off value => Sys2Proof.Machine.execI2c0Access write off value s
  | .registerWrite req off value => Sys2Proof.Machine.execRegisterWrite req off value s
  | .cfgCommitGo req => Sys2Proof.Machine.execCfgCommitGo req s
  | .cfgClearOvl req => Sys2Proof.Machine.execCfgClearOvl req s
  | .commitDone ok => Sys2Proof.Machine.execCommitDone ok s
  | .flashRead req => Sys2Proof.Machine.execFlashRead req s
  | .flashProgram req => Sys2Proof.Machine.execFlashProgram req s
  | .flashErase4k req => Sys2Proof.Machine.execFlashErase4k req s
  | .flashErase64k req => Sys2Proof.Machine.execFlashErase64k req s
  | .flashDone ok data => Sys2Proof.Machine.execFlashDone ok data s
  | .counterPreset req n high value => Sys2Proof.Machine.execCounterPreset req n high value s
  | .cntClear req => Sys2Proof.Machine.execCntClear req s
  | .cntFreeze req on => Sys2Proof.Machine.execCntFreeze req on s
  | .counterWrap n => Sys2Proof.Machine.execCounterWrap n s
  | .faultStatusClear req value => Sys2Proof.Machine.execFaultStatusClear req value s
  | .climbDwellExpiry p => Sys2Proof.Machine.execClimbDwellExpiry p s
  | .quietRefreshBurst p => Sys2Proof.Machine.execQuietRefreshBurst p s
  | .linkNakOutExpiry p => Sys2Proof.Machine.execLinkNakOutExpiry p s
  | .tunnelNakOutExpiry tunnel => Sys2Proof.Machine.execTunnelNakOutExpiry tunnel s
  | .restoreNoticeRepeat p => Sys2Proof.Machine.execRestoreNoticeRepeat p s
  | .hostSofBreak => Sys2Proof.Machine.execHostSofBreak s
  | .pcieLinkUp speed width enables => Sys2Proof.Machine.execPcieLinkUp speed width enables s
  | .ethE0LinkChange up speed => Sys2Proof.Machine.execEthE0LinkChange up speed s
  | .ethPlcaStatusChange x ok => Sys2Proof.Machine.execEthPlcaStatusChange x ok s
  | .mdioFrameDone data => Sys2Proof.Machine.execMdioFrameDone data s
  | .canBusError n tec rxErr => Sys2Proof.Machine.execCanBusError n tec rxErr s
  | .pathLimiterChange p holding => Sys2Proof.Machine.execPathLimiterChange p holding s
  | .loadLimiterChange y holding => Sys2Proof.Machine.execLoadLimiterChange y holding s
  | .pathRetryCountReset p => Sys2Proof.Machine.execPathRetryCountReset p s
  | .hvLinkRestore => Sys2Proof.Machine.execHvLinkRestore s
  | .lcCmdDone fuseOk => Sys2Proof.Machine.execLcCmdDone fuseOk s
  | .watermarkDone => Sys2Proof.Machine.execWatermarkDone s
  | .timeMasterAbsent => Sys2Proof.Machine.execTimeMasterAbsent s
  | .deviceTransactionComplete x ep dirIn stage pkt => Sys2Proof.Machine.execDeviceTransactionComplete x ep dirIn stage pkt s
  | .laneJoinLocked p lane locked => Sys2Proof.Machine.execLaneJoinLocked p lane locked s

end Sys2Proof.Machine
end

