-- ==== Sys2Proof/Machine/Step.lean ====
section
/-! DEFINITION. The step of the block: the command at the front of the queue, or an idle cycle. -/

namespace Sys2Proof.Machine

/-- One step: the command at the front acts on the block with the queue's rest; with none waiting, one CLK_PER cycle passes
(DESIGN CHOICE, log 1, log 4). A command is carried out whole (DESIGN CHOICE, log 68). -/
def step (s : State) : Host.Outcome State Fault Refusal :=
  match s.pending with
  | [] => s.idle
  | i :: rest => exec i { s with pending := rest }

/-- The block with the command that a word of the opcode table spells put at the front of its queue. The table gives no row any
bits, so no word spells one. -/
def State.withFetchWord (s : State) (nbits w : Nat) : State :=
  match decodeTableWord nbits w with
  | some i => { s with pending := i :: s.pending }
  | none => s

end Sys2Proof.Machine
end

