-- ==== Sys2Proof/WellFormed.lean ====
section
/-! DEFINITION. Well-formed commands: what the spec fixes about an operand beyond its type. A command that is not well formed is
none that the hardware can meet; `exec` is total on it all the same. -/

namespace Sys2Proof

/-- A barge: LEN is its payload's length, at most 1,008 (03 R79, R81). -/
def Barge.wellFormed (b : Barge) : Bool := b.hdr.len.toNat == b.payload.length && decide (b.payload.length ≤ 1008)

/-- An offer of an adapter carries at most 1,008 payload bytes (03 R84). -/
def Offer.wellFormed (o : Offer) : Bool := decide (o.payload.length ≤ 1008)

/-- A Towpath frame: LEN is its payload's length, at most 64 (03 R109). -/
def towpathWellFormed (hdr : Word) (payload : List Byte) : Bool := tpLen hdr == payload.length && decide (payload.length ≤ 64)

/-- An image begins with a 256-byte header (16 R469). -/
def ImageFile.wellFormed (i : ImageFile) : Bool := i.header.length == 256

/-- An access moves at least one byte, and a write has its bytes. -/
def accessWellFormed (write : Bool) (len : Nat) (data : List Byte) : Bool := decide (1 ≤ len) && (!write || data.length == len)

/-- Is the command one that the hardware can meet? -/
def Instr.wellFormed : Instr → Bool
  | .trunkIngressLookup _ (some b) | .tackRx b | .syncRx b | .routeNoticeRx _ b => b.wellFormed
  | .lockkeeperBargeIngress (some (b, _)) => b.wellFormed
  | .adapterIngressLookup _ (some o) => o.wellFormed
  | .towpathFrameRx _ hdr l _ | .helloRx _ hdr l | .resetSoftRx _ hdr l | .tpEscalationStatusRx _ hdr l | .pwrOfferRx _ hdr l
  | .pwrRequestRx _ hdr l | .pwrAcceptRx _ hdr l | .pwrRejectRx _ hdr l | .swapReqRx _ hdr l | .swapAckRx _ hdr l
  | .fastSwapMsgRx _ hdr l | .keyxHelloKRx _ hdr l | .keyxConfirmRx _ hdr l | .keyxFailRx _ hdr l => towpathWellFormed hdr l
  | .lkFirmwareLoaded fw => fw.wellFormed
  | .imageLoad f => f.fwA.wellFormed && f.cfgA.wellFormed && f.fwB.wellFormed && f.cfgB.wellFormed
  | .hostBarAccess _ w _ n l _ _ | .driveInboundAccess w _ n l _ _ | .bridgeRegAccess w _ n l _ => accessWellFormed w n l
  | .canFrameRx _ _ _ _ _ l => decide (l.length ≤ 64)
  | _ => true

end Sys2Proof
end

