-- ==== Sys2Proof/Safety.lean ====
section
/-! DEFINITION. What a safe run is: the terms in which claims about a whole step are stated. -/

namespace Sys2Proof.Safety

open Sys2Proof.Machine

/-- The step answers a state: the block neither stops nor refuses. -/
def goesOn (o : Host.Outcome State Fault Refusal) : Prop := ∃ t, o = .next t

/-- Every store of the block is in its canonical form: both register files and the staging memory. -/
abbrev canonical (s : State) : Prop :=
  s.hub.chip.regs.wf = true ∧ s.hub.hv.regs.wf = true ∧ memWf s.hub.chip.win.stage = true

/-- In the lockout of the HV die every switch is open (11 R338): every port in OPEN and every channel in OFF. -/
def switchesOpenInLockout (s : State) : Prop :=
  s.hub.hv.lockout = true → (∀ p : Port, s.hub.hv.pstate p = psOpen) ∧ ∀ y : Chan, s.hub.hv.cstate y = csOff

/-- GLB_ID holds the word of silicon revision B0 (00 R4). -/
def identified (s : State) : Prop := s.hub.chip.regs.word F.GLB_ID.off = 0x71600B00#32

/-- Fuses are blown and never restored (13 R396, R397, R409, R414): MIN_SVN does not fall, no copy of a life-cycle fuse is cleared, and an
owner root or an owner key hash that is programmed stays. -/
def fusesOnlyGrow (s t : State) : Prop :=
  s.hub.chip.key.fuses.svn ≤ t.hub.chip.key.fuses.svn ∧
  (∀ k : Fin 3, s.hub.chip.key.fuses.lc[k] &&& t.hub.chip.key.fuses.lc[k] = s.hub.chip.key.fuses.lc[k]) ∧
  (∀ k, s.hub.chip.key.fuses.ownerRoot = some k → t.hub.chip.key.fuses.ownerRoot = some k) ∧
  ∀ k, s.hub.chip.key.fuses.ownerPkh = some k → t.hub.chip.key.fuses.ownerPkh = some k

/-- The queue and the HV die are as they were. `hits`, the bits that the events of one command set (log 20), is empty after each. -/
def coreOnly (s t : State) : Prop := t.pending = s.pending ∧ { t.hub.hv with hits := [] } = { s.hub.hv with hits := [] }

/-- Every register word of the core die keeps its value, but those at some offsets and the program counter that a sampling
counter takes down (16 R495). -/
def wordsKept (offs : List Nat) (s t : State) : Prop :=
  ∀ o, o ∉ offs → o ≠ F.CNT_OVF_PC.off → t.hub.chip.regs.word o = s.hub.chip.regs.word o

/-- The remap entries that serve the poisoned words of the staging memory among some 128-bit words of it (14 R431, R433). -/
def poisonEntries (words : List Nat) (s : State) : List Nat :=
  (s.hub.chip.win.poisoned.filter fun y => words.contains y.1).filterMap fun y => s.hub.chip.remapOf y.2

/-- Some 128-bit words of the staging memory have been written: they are poisoned no longer, nor are the entries that serve
them, and every other register word but those at some offsets keeps its value (14 R431). -/
def poisonCleared (words offs : List Nat) (s t : State) : Prop :=
  t.hub.chip.win.poisoned = s.hub.chip.win.poisoned.filter (fun y => !words.contains y.1) ∧
  (∀ n ∈ poisonEntries words s, t.hub.chip.get (F.REL_REMAP_STAT_POISONED n) = 0) ∧
  wordsKept (offs ++ (poisonEntries words s).map fun n => (F.REL_REMAP_STAT n).off) s t

/-- The times at which vote conditions ended keep their values, but where one ends now or the core is not clocked (15 R453). -/
def votesKept (v : Vector (Option Nat) 9) (s : State) : Prop :=
  ∀ i : Fin 9, v[i] = s.hub.chip.voteEnd[i] ∨ v[i] = some s.hub.chip.now ∨ v[i] = none

/-- Nothing of the block changes but registers of the core die, the performance counters, the draw of free values and the ends of vote
conditions. -/
def registersOnly (s t : State) : Prop :=
  coreOnly s t ∧ ∃ r n k v, t.hub.chip = { s.hub.chip with regs := r, freeCount := n, cnt := k, voteEnd := v, hits := [] } ∧ votesKept v s

/-- Every register word of the HV die keeps its value, but those at some offsets. -/
def hvWordsKept (offs : List Nat) (s t : State) : Prop :=
  ∀ o, o ∉ offs → t.hub.hv.regs.word o = s.hub.hv.regs.word o

/-- Of the core die and the queue nothing changes but the counters, the draw of free values and the ends of vote conditions; every register word of the core
die keeps its value. -/
def hvOnly (s t : State) : Prop :=
  t.pending = s.pending ∧ (∃ r n k v, t.hub.chip = { s.hub.chip with regs := r, freeCount := n, cnt := k, voteEnd := v, hits := [] } ∧ votesKept v s) ∧
  wordsKept [] s t

/-- As `hvOnly`, for a command that changes paths: the budget floor may follow the ports that sink (11 R356), and what the ports have
offered as sources becomes `sent` (11 R358, R360). -/
def pathsOnly (sent : Vector (Option PwrOffer) 3) (s t : State) : Prop :=
  t.pending = s.pending ∧
  (∃ r n k v, t.hub.chip = { s.hub.chip with
    regs := r, freeCount := n, cnt := k, voteEnd := v, hits := [], pwr := { s.hub.chip.pwr with sent := sent } } ∧ votesKept v s) ∧
  wordsKept [F.BUD_CTL.off] s t

/-- The budget floor is the highest hint among the latest offers on the sinking ports (11 R356). -/
abbrev floorFollows (t : State) : Prop :=
  t.hub.chip.get F.BUD_CTL_FLOOR = ((ports.map fun (p : Port) =>
    if t.hub.hv.pstate p = psSink then (match t.hub.chip.pwr.got[p] with | some o => o.hint | none => 0) else 0).foldl max 0) % 8

/-- A block has gone out of a trunk port, on some lane, or waits in its PCS for the block that it may follow (02 R36, R37, R62). -/
def handedOut (t : State) (p : Port) (b : Block) : Prop :=
  (∃ l, Out.block p l b ∈ t.hub.chip.outbox) ∨ b ∈ t.hub.chip.pcs[p].waiting

/-- A ball of an adapter takes its state in reset (17 R500): a field pin is not driven, VBUS is off, U0 presents nothing, PE_PERST_N is
low. -/
def pinRelease : Out → Bool
  | .fioPin _ none | .usbPort _ (.vbus false) | .usbPort _ (.present false false) | .pcie (.perst true) => true
  | _ => false

/-- No drop sampler is enabled (05 R189). -/
abbrev noSampling (c : Chip) : Prop := ∀ n : Fin 16, c.on (F.SWC_SMP_CFG_EN n) = false

/-- The reserve of a basin has room for some cells, and RED is off: a barge is admitted without a decision (05 R171). -/
abbrev roomFor (c : Chip) (i cells : Nat) : Prop :=
  c.on F.SWC_CTL_RED_EN = false ∧ c.get (F.SWC_OCC_IN_USE i) + cells ≤ c.get (F.SWC_BASIN_RESERVE i)

/-- The access path takes a requester's access now (16 R477): it holds no other, admits the requester, and the access is neither
the image loader's own nor kept out by a Lockkeeper in HOLD. -/
abbrev pathReady (s : State) (r : Requester) : Prop :=
  s.hub.chip.fab.held = none ∧ (r.source = 2 → s.hub.chip.lockedOut 0 = false) ∧ s.hub.chip.pathAdmits r = true ∧ r.source ≠ 5 ∧
    s.hub.chip.get F.LKP_STATUS_STATE ≠ 3

/-- The newest entry of the journal records an access of a requester at an offset that took effect (16 R487). -/
def carriedOut (t : State) (r : Requester) (off : Nat) : Prop :=
  ∃ e l, t.hub.chip.jrn = e :: l ∧ e.source = r.source.val ∧ e.addr = off ∧ e.result ≤ 1

/-- The newest entry of the journal records an access of a requester at an offset that was refused (16 R487). -/
def turnedDown (t : State) (r : Requester) (off : Nat) : Prop :=
  ∃ e l, t.hub.chip.jrn = e :: l ∧ e.source = r.source.val ∧ e.addr = off ∧ e.result = 2

/-- A message that a head-end takes from the field hub of a mapped port: one of R231, through the tunnel of its kind (07 R230), with the
port's epoch (07 R232). -/
abbrev fromField (c : Chip) (m : Msg) (i : Nat) : Prop :=
  usbMsgOk m = true ∧ m.channel.toNat = i ∧ i < 0xF0 ∧ c.mapped i = true ∧ c.mapTunnel i (isoKind (usbKind m)) = some m.tunnel.toNat ∧
  usbEpoch m = c.get (F.USB_VP0_PEPOCH i)

/-- A message that a field hub takes for a physical port: one of R231, through the tunnel of its kind (07 R230). -/
abbrev toField (c : Chip) (m : Msg) (x : Fin 2) : Prop :=
  usbMsgOk m = true ∧ m.channel.toNat = 0xF0 + x.val ∧ c.downstream x = true ∧
  (if isoKind (usbKind m) then c.physIsoTunnel x else c.physTunnel x) = some m.tunnel.toNat

/-- A frame of a class arrives at a working Towpath as a request that is no resend, with the mailbox free for it (03 R109, R112, R119). -/
abbrev frameRequest (c : Chip) (p : Port) (cls : Nat) (hdr : Word) : Prop :=
  c.tpAlive p = true ∧ tpClass hdr = cls ∧ tpRsp hdr = false ∧ tpRetry hdr = false ∧ c.tp[p].mailboxFull = false

/-- A frame of a class answers the one outstanding request of a working Towpath, which waits for its first answer, and the mailbox is free
for it (03 R112, R119). -/
abbrev frameAnswer (c : Chip) (p : Port) (cls : Nat) (hdr : Word) (r : TpRequest) : Prop :=
  c.tpAlive p = true ∧ tpClass hdr = cls ∧ tpRsp hdr = true ∧ c.tp[p].requests = [r] ∧ tpAnswers (tpClass r.frame.hdr) cls = true ∧
  tpSeq r.frame.hdr = tpSeq hdr ∧ r.stage = .first ∧ c.tp[p].mailboxFull = false

/-- The words that a frame changes which the mailbox takes (03 R112, R113, R119). -/
def mailWords (p : Port) : List Nat :=
  [(F.LNK_TP_RX p).off, (F.LNK_TP_STATUS p).off, (F.LNK_TP_RXHDR p).off, (F.LNK_INT_STATUS p).off, (F.LNK_TP_RESULT p).off]
    ++ (List.range 16).map fun k => (F.LNK_TP_RXBUF p k).off

/-- The I2C management port as a requester. -/
def i2cReq : Requester := { source := 3, hub := none, tag := 0, attested := false }

end Sys2Proof.Safety
end

