-- ==== Sys2Proof/Certificates/Slice0/Obligations.lean ====
section
/-! DEFINITION. The statements for the provers: the step, its invariants, the encodings, rules of the spec stated whole, and for every
command where it completes and what it leaves. -/

open Sys2Proof Sys2Proof.Machine Sys2Proof.Safety

/-! The step, the queue and the state after reset. -/

/-- A step takes the command at the front of the queue and is `exec` of it on the block with the queue's rest. -/
def Obligations.StepRunsFrontCommand : Prop :=
  ∀ (s : State) (i : Instr) (rest : List Instr), s.pending = i :: rest → step s = exec i { s with pending := rest }

/-- With no command waiting a step is one idle cycle of 8 ns: the model's time and, in a clocked core, SUBNS go on; the queue, the HV
die, what has left the hub and every register word stay. That the idle block counts a cycle is the model's choice (log 4). -/
def Obligations.EmptyQueueIdles : Prop :=
  ∀ s : State, s.pending = [] →
    ∃ t, step s = .next t ∧ coreOnly s t ∧ t.hub.chip.now = s.hub.chip.now + 8 ∧ t.hub.chip.outbox = s.hub.chip.outbox ∧
      (s.hub.chip.running = true → s.hub.chip.subns + 8 < 1_000_000 → t.hub.chip.subns = s.hub.chip.subns + 8) ∧ wordsKept [] s t

/-- The state after reset: every register of both dies reads its reset word (00 R8), no command waits, the internal reset of a POR is in
progress with start-up BIST to come (01 R21), every power path is open, the journal and every key slot are empty, the part is in BLANK
(the model's choice, log 18), and the stores are in their canonical form. -/
def Obligations.ResetLeavesEveryRegisterAtItsValue : Prop :=
  (∀ off, State.reset.hub.chip.regs.word off = resetWord off ∧ State.reset.hub.hv.regs.word off = resetWord off) ∧
  State.reset.pending = [] ∧ State.reset.hub.chip.rst.active = some .por ∧ State.reset.hub.chip.rst.bist = true ∧
  (∀ p : Port, State.reset.hub.hv.pstate p = psOpen) ∧ (∀ y : Chan, State.reset.hub.hv.cstate y = csOff) ∧
  State.reset.hub.chip.jrn = [] ∧ State.reset.hub.chip.key.slots = Vector.replicate 32 Slot.empty ∧
  lifeCycle State.reset.hub.chip.key.fuses.pattern = 0 ∧ canonical State.reset

/-- Every step of the block answers a next state, whose queue is the old one without its front: no command stops it and none is
refused. -/
def Obligations.EveryStepGoesOn : Prop :=
  ∀ s : State, goesOn (step s) ∧ ∀ t, step s = .next t → t.pending = s.pending.tail

/-! Invariants that every step keeps, from every state that has them. -/

/-- Both register files and the staging memory keep their canonical form (00 R5; 08 R262). -/
def Obligations.StoresStayCanonical : Prop := ∀ s t : State, canonical s → step s = .next t → canonical t

/-- While the HV die is in its lockout every trunk port is OPEN and every load channel OFF (11 R338; 12 R376): no command closes a
switch then, and what closes one lies outside the lockout. -/
def Obligations.LockoutKeepsEverySwitchOpen : Prop :=
  ∀ s t : State, switchesOpenInLockout s → step s = .next t → switchesOpenInLockout t

/-- Fuses only grow (13 R396, R397, R409, R414): no step lowers MIN_SVN, restores a life-cycle fuse or changes a programmed owner root or
owner key hash. -/
def Obligations.FusesOnlyGrow : Prop := ∀ s t : State, step s = .next t → fusesOnlyGrow s t

/-- GLB_ID reads 0x7160_0B00 (00 R4): part number 0x7160 in bits [31:16], revision 0x0B in bits [15:8], 0 in bits [7:0], after reset and,
since no step changes its word, ever after. -/
def Obligations.GlbIdAlwaysReads : Prop :=
  identified State.reset ∧ (∀ s t : State, identified s → step s = .next t → identified t) ∧
  ∀ s : State, identified s → s.hub.readWord 0x00_0000 = 0x71600B00#32 ∧ wordField (s.hub.readWord 0x00_0000) 16 16 = 0x7160 ∧
    wordField (s.hub.readWord 0x00_0000) 8 8 = 0x0B ∧ wordField (s.hub.readWord 0x00_0000) 0 8 = 0

/-! Encodings. -/

/-- The barge header word (03 Table 03-1, R79, R81): decoding an encoded header gives it back, encoding a decoded word whose reserved
bits [43:32] are zero gives the word back, and a well-formed barge comes back from its 1 + ceil(LEN / 16) words. -/
def Obligations.BargeWordsRoundTrip : Prop :=
  (∀ h : Header, Header.decode h.encode = h) ∧
  (∀ w : DpWord, w.extractLsb' 32 12 = 0#12 → (Header.decode w).encode = w) ∧
  ∀ b : Barge, b.wellFormed = true → b.words.length = 1 + (b.hdr.len.toNat + 15) / 16 ∧ Barge.ofWords b.words = b

/-- The control blocks whose fields the hub takes (02 Table 02-3, R39, R40; 03 Table 03-4, R100): every lock marker, lane control block,
HEARTBEAT and TICK comes back from its block with every field, and its CRC holds. The CRC's conventions are the model's (log 10) and play
no part in this. -/
def Obligations.ControlBlocksRoundTrip : Prop :=
  (∀ m : Marker, Marker.decode m.encode = some m) ∧
  (∀ op lane span blk : Nat, op < 2 ^ 8 → lane < 2 → span < 2 ^ 32 → blk < 2 ^ 12 →
    laneCtlDecode (laneCtl op lane span blk) = some (op, lane, span, blk)) ∧
  (∀ h : Heartbeat, Heartbeat.decode h.encode = h ∧ crcHolds h.encode = true) ∧
  ∀ k : TickBlock, TickBlock.decode k.encode = k ∧ crcHolds k.encode = true

/-- The scrambler and the precoder undo each other (02 R30, R32): the descrambler, from the same 58 bits of state, gives every bit back, and
the receive side of the precoder every symbol. -/
def Obligations.LineCodingRoundTrip : Prop :=
  (∀ st l : List Bool, descramble st (scramble st l) = l) ∧
  ∀ (prev : Nat) (l : List Nat), (∀ g ∈ l, g < 4) → unprecode prev (precode prev l) = l

/-! Rules of the spec, each stated whole. -/

/-- Group 255 (04 R127, whole): a write of its entry changes no register word and is recorded as turned down. Completes:
groupEntryCommit. -/
def Obligations.GroupOfRouteNotices : Prop :=
  (∀ (s : State) (r : Requester) (v : BitVec 32), pathReady s r → (r.source = 1 → s.hub.chip.inRecovery = false) →
    ∃ t, exec (.groupEntryCommit r 255 v) s = .next t ∧ coreOnly s t ∧ turnedDown t r (F.FAB_GROUP 255).off ∧ wordsKept [] s t) ∧
  (∀ s : State, (s.hub.chip.get F.FAB_RING_RING_SIZE = 0 → s.hub.readWord (F.FAB_GROUP 255).off = 1#32) ∧
    (3 ≤ s.hub.chip.get F.FAB_RING_RING_SIZE → s.hub.chip.get F.FAB_RING_RING_SIZE ≤ 64 →
      s.hub.chip.get F.FAB_RING_RING_POS < s.hub.chip.get F.FAB_RING_RING_SIZE → s.hub.readWord (F.FAB_GROUP 255).off = 7#32))

/-- A drive's MSI (08 R287, whole): a field hub's root port takes a write to 0xFEE0_0000 to 0xFEE0_0FFF as a message, sets
bit (data mod 32) of WIN_DEV_MSI and DEV_MSI, and nothing else of the block changes: the write reaches no window. Completes:
driveInboundAccess, driveMsi. -/
def Obligations.DriveMsiSetsItsBit : Prop :=
  (∀ (s : State) (a : BitVec 64) (n : Nat) (l : List Byte) (q : BitVec 16) (k : LinkReply), s.hub.chip.started = true →
      s.hub.chip.headEnd = false →
    s.hub.chip.on F.WIN_STATUS_LINK_UP = true → n ≠ 0 → 0xFEE0_0000 ≤ a.toNat → a.toNat ≤ 0xFEE0_0FFF →
    ∃ t, exec (.driveInboundAccess true a n l q k) s = .next t ∧ registersOnly s t ∧
      t.hub.chip.regs.word F.WIN_DEV_MSI.off = s.hub.chip.regs.word F.WIN_DEV_MSI.off ||| 1#32 <<< ((leWord l 0).toNat % 32) ∧
      t.hub.chip.get F.WIN_INT_STATUS_DEV_MSI = 1 ∧ wordsKept [F.WIN_DEV_MSI.off, F.WIN_INT_STATUS.off] s t) ∧
  (∀ (s : State) (a : BitVec 64) (d : BitVec 32), s.hub.chip.headEnd = false → 0xFEE0_0000 ≤ a.toNat → a.toNat ≤ 0xFEE0_0FFF →
    ∃ t, exec (.driveMsi a d) s = .next t ∧ registersOnly s t ∧
      t.hub.chip.regs.word F.WIN_DEV_MSI.off = s.hub.chip.regs.word F.WIN_DEV_MSI.off ||| 1#32 <<< (d.toNat % 32) ∧
      t.hub.chip.get F.WIN_INT_STATUS_DEV_MSI = 1 ∧ wordsKept [F.WIN_DEV_MSI.off, F.WIN_INT_STATUS.off] s t)

/-- ARM_AT_BOOT (12 R531, whole): the end of the image load sets ID_VALID and at that moment arms each channel in OFF with
ARM_AT_BOOT set, OFF_CAUSE none or RESET and no shed holding it; every other channel stays in its state. Without an accepted
configuration ID_VALID does not set and no channel is armed. Completes: imageLoaded. -/
def Obligations.ArmAtBootActsAtLoadEnd : Prop :=
  (∀ (s : State) (y : Chan), s.hub.chip.loadEnds = true → s.hub.chip.cfg.accepted = true → s.hub.hv.lockout = false →
    ∃ t, exec (.imageLoaded) s = .next t ∧ t.pending = s.pending ∧ t.hub.chip.get F.FAB_ID_ID_VALID = 1 ∧
      t.hub.hv.cstate y = (if s.hub.hv.on (F.LDC_L_CFG_ARM_AT_BOOT y) = true ∧ s.hub.hv.cstate y = csOff ∧
          (s.hub.hv.get (F.LDC_L_STATUS_OFF_CAUSE y) = 0 ∨ s.hub.hv.get (F.LDC_L_STATUS_OFF_CAUSE y) = offReset) ∧
          s.hub.hv.held y = false
        then csArmed else s.hub.hv.cstate y)) ∧
  (∀ s : State, s.hub.chip.loadEnds = true → s.hub.chip.cfg.accepted = false →
    ∃ t, exec (.imageLoaded) s = .next t ∧ coreOnly s t ∧ t.hub.chip.get F.FAB_ID_ID_VALID = s.hub.chip.get F.FAB_ID_ID_VALID)

/-- Fuses of MIN_SVN (13 R414, whole): SVN_ADVANCE with CONFIRM 0x5A3C starts programming, with another value it is refused;
programming raises MIN_SVN to the running firmware's SVN, never beyond it and never lower, and shows it; and a firmware
image with a lower SVN is refused, in the register and so in the image load. Completes: svnAdvance, lcCmdDone. -/
def Obligations.MinSvnOnlyRises : Prop :=
  (∀ (s : State) (r : Requester), pathReady s r → (r.source = 1 → s.hub.chip.inRecovery = false) → s.hub.chip.key.lcCmd = none →
    ∃ t, exec (.svnAdvance r 0x5A3C) s = .next t ∧ t.pending = s.pending ∧ carriedOut t r F.KEY_LC_CMD.off ∧
      t.hub.chip.key = { s.hub.chip.key with lcCmd := some 4 }) ∧
  (∀ (s : State) (r : Requester) (k : BitVec 16), pathReady s r → (r.source = 1 → s.hub.chip.inRecovery = false) → k ≠ 0x5A3C →
    ∃ t, exec (.svnAdvance r k) s = .next t ∧ coreOnly s t ∧ turnedDown t r F.KEY_LC_CMD.off ∧ t.hub.chip.key = s.hub.chip.key) ∧
  (∀ s : State, s.hub.chip.running = true → s.hub.chip.key.lcCmd = some 4 →
    ∃ t, exec (.lcCmdDone true) s = .next t ∧ coreOnly s t ∧
      t.hub.chip.key = { s.hub.chip.key with lcCmd := none, fuses := { s.hub.chip.key.fuses with svn := max s.hub.chip.key.fuses.svn (s.hub.chip.get F.KEY_STATUS_FW_SVN) } } ∧
      t.hub.chip.get F.KEY_STATUS_MIN_SVN = max s.hub.chip.key.fuses.svn (s.hub.chip.get F.KEY_STATUS_FW_SVN) % 2 ^ 6 ∧
      wordsKept [F.KEY_STATUS.off, F.KEY_LC_CMD.off, F.KEY_INT_STATUS.off] s t) ∧
  (∀ (c : Chip) (i : ImageFile), imgSvn i < c.get F.KEY_STATUS_MIN_SVN → c.firmwareOk i = false)

/-- VAON wake registers (15 R466, whole): PWR_WAKE_CAUSE and PWR_AON_TIMER keep their values through every reset and Off but
a ramp of VAON, which resets them, though a break that ends Deep sleep as a wake source is shown before it resets (15 R460); and a write
of PWR_VOTE_SW acts in the same command and is recorded in the change
journal. Rests on the model's choices of log 5. Completes: por, rstNAssert, clockLoss, hardResetBreakRx, pwrEnDrop,
internalResetEnd, pwrVoteSwWrite. -/
def Obligations.WakeRegistersAreKept : Prop :=
  (∀ s : State, ∃ t, exec (.por false) s = .next t ∧ t.pending = s.pending ∧
      t.hub.chip.get ⟨F.PWR_WAKE_CAUSE.off, 0, 12⟩ = s.hub.chip.get ⟨F.PWR_WAKE_CAUSE.off, 0, 12⟩ ∧
      t.hub.chip.get F.PWR_AON_TIMER_COUNT = s.hub.chip.get F.PWR_AON_TIMER_COUNT) ∧
  (∀ s : State, ∃ t, exec (.por true) s = .next t ∧ t.pending = s.pending ∧ t.hub.chip.get ⟨F.PWR_WAKE_CAUSE.off, 0, 12⟩ = 0 ∧
      t.hub.chip.get F.PWR_AON_TIMER_COUNT = 0) ∧
  (∀ s : State, ∃ t, exec (.rstNAssert) s = .next t ∧ t.pending = s.pending ∧
      t.hub.chip.get ⟨F.PWR_WAKE_CAUSE.off, 0, 12⟩ = s.hub.chip.get ⟨F.PWR_WAKE_CAUSE.off, 0, 12⟩ ∧
      t.hub.chip.get F.PWR_AON_TIMER_COUNT = s.hub.chip.get F.PWR_AON_TIMER_COUNT) ∧
  (∀ s : State, ∃ t, exec (.clockLoss) s = .next t ∧ t.pending = s.pending ∧
      t.hub.chip.get ⟨F.PWR_WAKE_CAUSE.off, 0, 12⟩ = s.hub.chip.get ⟨F.PWR_WAKE_CAUSE.off, 0, 12⟩ ∧
      t.hub.chip.get F.PWR_AON_TIMER_COUNT = s.hub.chip.get F.PWR_AON_TIMER_COUNT) ∧
  (∀ (s : State) (p : Port) (fresh : Bool), ∃ t, exec (.hardResetBreakRx p fresh) s = .next t ∧ t.pending = s.pending ∧
      t.hub.chip.get ⟨F.PWR_WAKE_CAUSE.off, 0, 12⟩ = s.hub.chip.get ⟨F.PWR_WAKE_CAUSE.off, 0, 12⟩ |||
        (if s.hub.chip.pst.deep = true ∧ s.hub.chip.bit F.PWR_WAKE_EN (5 + p.val) = true ∧ s.hub.chip.on (F.LNK_CTL_TP_EN p) = true ∧
            (fresh = true ∨ s.hub.chip.rst.toneLeft[p] = false) then 2 ^ (5 + p.val) else 0) ∧
      t.hub.chip.get F.PWR_AON_TIMER_COUNT = s.hub.chip.get F.PWR_AON_TIMER_COUNT) ∧
  (∀ s : State, ∃ t, exec (.pwrEnDrop) s = .next t ∧ t.pending = s.pending ∧
      t.hub.chip.get ⟨F.PWR_WAKE_CAUSE.off, 0, 12⟩ = s.hub.chip.get ⟨F.PWR_WAKE_CAUSE.off, 0, 12⟩ ∧
      t.hub.chip.get F.PWR_AON_TIMER_COUNT = s.hub.chip.get F.PWR_AON_TIMER_COUNT) ∧
  (∀ (s : State) (he b0 b1 tm : Bool), ∃ t, exec (.internalResetEnd he b0 b1 tm) s = .next t ∧ t.pending = s.pending ∧
      t.hub.chip.get ⟨F.PWR_WAKE_CAUSE.off, 0, 12⟩ = s.hub.chip.get ⟨F.PWR_WAKE_CAUSE.off, 0, 12⟩ ∧
      t.hub.chip.get F.PWR_AON_TIMER_COUNT = s.hub.chip.get F.PWR_AON_TIMER_COUNT) ∧
  (∀ (s : State) (r : Requester) (v : BitVec 32), pathReady s r → (r.source = 1 → s.hub.chip.inRecovery = false) →
    ∃ t, exec (.pwrVoteSwWrite r v) s = .next t ∧ t.pending = s.pending ∧ carriedOut t r F.PWR_VOTE_SW.off ∧
      t.hub.chip.get F.PWR_VOTE_SW_VOTE = wordField v 0 10 ∧
      t.hub.chip.get F.PWR_STATUS_DOM_ON = s.hub.chip.get F.PWR_STATUS_DOM_ON ||| wordField v 0 10)

/-! The commands, family by family: where each completes, what it leaves and what it keeps. -/

/-- The resets of the core die take hold. POR starts unless one is in progress, RST_N and a lost crystal unless a POR or a
cold reset is (01 R21, R23): the kind in progress and its cause are recorded, trunk ports, switch core, key slots and
journal are empty, and the pins go to their state in reset (17 R500). The crystal's return lifts its hold (R16). The end of the internal reset samples the straps and begins
BIST (R21). The queue is as it was, and the HV die where it is no part of the command. The image load (16 R468 to R476).
BOOT 3 waits for recovery. An accepted firmware runs, and an absent configuration image leaves the hub unconfigured; an
accepted one without records shows its sequence number. No permitted firmware is a failure of the Lockkeeper. The load ends
with STATE 4, and with ID_VALID where a configuration was accepted. Rests on the model's choices of log 5, 8, 9, 54, 55, 62,
63 and 64. Completes: por, rstNAssert, clockLoss, clockRestored, internalResetEnd, imageLoad, imageLoaded. -/
def Obligations.ResetsAndImageLoadTakeHold : Prop :=
  (∀ (s : State) (ramp : Bool), s.hub.chip.rst.active ≠ some .por →
    ∃ t, exec (.por ramp) s = .next t ∧ t.pending = s.pending ∧ t.hub.chip.rst.active = some .por ∧
      t.hub.chip.trk = Vector.replicate 3 Trk.reset ∧ t.hub.chip.swc = Swc.reset ∧ t.hub.chip.jrn = [] ∧
      t.hub.chip.key.slots = Vector.replicate 32 Slot.empty ∧
      t.hub.chip.get F.KEY_STATUS_MIN_SVN = s.hub.chip.key.fuses.svn % 2 ^ 6) ∧
  (∀ s : State, s.hub.chip.rst.active = none ∨ s.hub.chip.rst.active = some .warm →
    ∃ t, exec .rstNAssert s = .next t ∧ t.pending = s.pending ∧ t.hub.chip.rst.active = some .cold ∧
      t.hub.chip.get F.GLB_RESET_CAUSE = 1 ∧ t.hub.chip.trk = Vector.replicate 3 Trk.reset ∧ t.hub.chip.swc = Swc.reset ∧
      t.hub.chip.jrn = [] ∧ t.hub.chip.key.slots = Vector.replicate 32 Slot.empty ∧
      t.hub.chip.outbox.take s.hub.chip.outbox.length = s.hub.chip.outbox ∧
      (t.hub.chip.outbox.drop s.hub.chip.outbox.length).all pinRelease = true ∧
      (∀ p < 16, s.hub.chip.fioLevel p ≠ none → Out.fioPin p none ∈ t.hub.chip.outbox) ∧
      (∀ x : Fin 2, s.hub.chip.on (F.USB_U_STATUS_VBUS_ON x) = true → Out.usbPort x.val (.vbus false) ∈ t.hub.chip.outbox) ∧
      (s.hub.chip.headEnd = false → s.hub.chip.perstLow = false → Out.pcie (.perst true) ∈ t.hub.chip.outbox)) ∧
  (∀ s : State, s.hub.chip.rst.active = none ∨ s.hub.chip.rst.active = some .warm →
    s.hub.chip.rst.clockLost = false → s.hub.chip.pst.off = false →
    ∃ t, exec .clockLoss s = .next t ∧ t.pending = s.pending ∧ t.hub.chip.rst.active = some .cold ∧
      t.hub.chip.rst.clockLost = true ∧ t.hub.chip.get F.GLB_RESET_CAUSE = 4 ∧ t.hub.chip.get F.GLB_FAULT_STATUS_CLOCK_LOSS = 1 ∧
      t.hub.chip.swc = Swc.reset) ∧
  (∀ s : State, ∃ t, exec .clockRestored s = .next t ∧ coreOnly s t ∧ t.hub.chip.rst = { s.hub.chip.rst with clockLost := false } ∧
    wordsKept [] s t) ∧
  (∀ (s : State) (k : ResetKind) (he b0 b1 tm : Bool), s.hub.chip.rst.active = some k → s.hub.chip.rst.clockLost = false →
    s.hub.chip.rst.breakPort = none → s.hub.chip.pst.off = false →
    ∃ t, exec (.internalResetEnd he b0 b1 tm) s = .next t ∧ coreOnly s t ∧ t.hub.chip.rst.active = none ∧
      t.hub.chip.rst.bist = true ∧
      (k ≠ .warm → t.hub.chip.get F.GLB_STRAPS_ROLE_HE = he.toNat ∧ t.hub.chip.get F.GLB_STRAPS_BOOT = b1.toNat * 2 + b0.toNat)) ∧
  (∀ (s : State) (v : FlashView), s.hub.chip.mayLoad = true → s.hub.chip.get F.GLB_STRAPS_BOOT = 3 →
    ∃ t, exec (.imageLoad v) s = .next t ∧ coreOnly s t ∧ t.hub.chip.get F.CFG_STATUS_STATE = 5 ∧
      wordsKept [F.CFG_STATUS.off] s t) ∧
  (∀ (s : State) (v : FlashView), s.hub.chip.mayLoad = true → s.hub.chip.get F.GLB_STRAPS_BOOT ≠ 3 →
    s.hub.chip.firmwareOk v.fwA = false → s.hub.chip.firmwareOk v.fwB = false →
    ∃ t, exec (.imageLoad v) s = .next t ∧ coreOnly s t ∧
      t.hub.chip.lkp = { s.hub.chip.lkp with failing := some .signature } ∧ t.hub.chip.get F.CFG_STATUS_STATE = 1) ∧
  (∀ (s : State) (v : FlashView), s.hub.chip.mayLoad = true → s.hub.chip.get F.GLB_STRAPS_BOOT = 1 →
      imgPresent v.cfgA false = false → s.hub.chip.cfg.accepted = false →
    ∃ t, exec (.imageLoad v) s = .next t ∧ t.pending = s.pending ∧
      (s.hub.chip.firmwareOk v.fwA = true → coreOnly s t ∧ t.hub.chip.get F.CFG_STATUS_STATE = 2 ∧
      t.hub.chip.get F.CFG_STATUS_CFG_RESULT = 1 ∧
        t.hub.chip.get F.CFG_STATUS_FW_BANK = 0 ∧ t.hub.chip.get F.CFG_FW_SEQ = imgSeq v.fwA % 2 ^ 32 ∧
        t.hub.chip.get F.CFG_INT_STATUS_NO_CONFIG = 1)) ∧
  (∀ (s : State) (v : FlashView), s.hub.chip.mayLoad = true → s.hub.chip.get F.GLB_STRAPS_BOOT = 1 → v.ovl0 = [] → v.ovl1 = [] →
    ∃ t, exec (.imageLoad v) s = .next t ∧ t.pending = s.pending ∧
      (s.hub.chip.firmwareOk v.fwA = true ∧ s.hub.chip.configResult v.cfgA = 0 ∧ (imgRecords v.cfgA).map List.length = some 0 →
      coreOnly s t ∧
        t.hub.chip.get F.CFG_STATUS_STATE = 3 ∧ t.hub.chip.get F.CFG_STATUS_CFG_RESULT = 0 ∧
        t.hub.chip.get F.CFG_STATUS_FW_BANK = 0 ∧
        t.hub.chip.get F.CFG_CFG_SEQ = imgSeq v.cfgA % 2 ^ 32 ∧ t.hub.chip.cfg = { s.hub.chip.cfg with accepted := true })) ∧
  (∀ s : State, s.hub.chip.loadEnds = true →
    ∃ t, exec .imageLoaded s = .next t ∧ t.pending = s.pending ∧ t.hub.chip.cfg = { s.hub.chip.cfg with loaded := true } ∧
      t.hub.chip.get F.CFG_STATUS_STATE = 4 ∧ (s.hub.chip.cfg.accepted = true → t.hub.chip.get F.FAB_ID_ID_VALID = 1))

/-- Domains and the Lockkeeper's clock follow the votes (15 R453 to R455). A domain with no vote left stops. The
Lockkeeper's wait gates its clock while no vote is present, and a vote ungates it. An access to a stopped domain wakes it,
and the longest stall is kept. Nothing else moves. Deep sleep and Off (15 R458 to R464). Where every condition of R458 holds
the hub enters Deep sleep, and an abandoned entry flags DEEP_ABORT. An enabled source wakes it and shows in WAKE_CAUSE, as an access
through I2C0 does where its bit is set (15 R452, R455); the hold after a wake ends; the AON timer wakes from Off; PWR_EN drops with a POR, and rises again with FROM_OFF. Rests on the
model's choices of log 3, 5 and 60. Completes: domainDrop, lkWait, lkUngate, domainWakeAccess, deepSleepEntry,
deepSleepWake, deepHoldExpiry, pwrEnDrop, offWake, aonTimerExpiry. -/
def Obligations.PowerStatesFollowVotesAndWakes : Prop :=
  (∀ (s : State) (d : Fin 10), s.hub.chip.running = true → d ≠ 0 → s.hub.chip.domainHeld d.val = false →
    ∃ t, exec (.domainDrop d) s = .next t ∧ coreOnly s t ∧
      (if d = 1 then t.hub.chip.lnk = s.hub.chip.lnk.map fun l => { l with cold := [] } else registersOnly s t) ∧
      t.hub.chip.get ⟨F.PWR_STATUS_DOM_ON.off, F.PWR_STATUS_DOM_ON.lo + d.val, 1⟩ = 0 ∧ wordsKept [F.PWR_STATUS.off] s t) ∧
  (∀ s : State, s.hub.chip.started = true → s.hub.chip.lkp.phase = .none → s.hub.chip.lkp.failing = none →
    s.hub.chip.get F.LKP_STATUS_STATE ≠ 3 → s.hub.chip.lkp.gated = false → s.hub.chip.bit F.PWR_VOTE_SW_VOTE 0 = false →
    s.hub.lkVote = false →
    ∃ t, exec .lkWait s = .next t ∧ coreOnly s t ∧ t.hub.chip.lkp = { s.hub.chip.lkp with gated := true } ∧
      wordsKept [F.PWR_STATUS.off] s t) ∧
  (∀ s : State, s.hub.chip.running = true → s.hub.chip.lkp.gated = true → s.hub.lkOn = true →
    ∃ t, exec .lkUngate s = .next t ∧ coreOnly s t ∧
      t.hub.chip.lkp = { s.hub.chip.lkp with gated := false, kickAt := s.hub.chip.now } ∧ wordsKept [F.PWR_STATUS.off] s t) ∧
  (∀ (s : State) (d : Fin 10) (stall : BitVec 16), s.hub.chip.running = true → d ≠ 0 →
    s.hub.chip.bit F.PWR_STATUS_DOM_ON d.val = false →
    ∃ t, exec (.domainWakeAccess d stall) s = .next t ∧ registersOnly s t ∧
      t.hub.chip.get F.PWR_STALL_MAX_STALL = max (s.hub.chip.get F.PWR_STALL_MAX_STALL) stall.toNat % 2 ^ 16 ∧
      t.hub.chip.get F.PWR_STATUS_DOM_ON = (s.hub.chip.get F.PWR_STATUS_DOM_ON ||| (2 ^ d.val ||| (if 5 ≤ d.val then 2 else 0))) % 2 ^ 10 ∧
      wordsKept [F.PWR_STATUS.off, F.PWR_DP_WAKES.off, F.PWR_STALL_MAX.off] s t) ∧
  (∀ (s : State) (stall : BitVec 16), s.hub.chip.running = true → s.hub.chip.bit F.PWR_STATUS_DOM_ON 0 = false →
    s.hub.chip.lkp.gated = true →
    ∃ t, exec (.domainWakeAccess 0 stall) s = .next t ∧ coreOnly s t ∧
      t.hub.chip.get F.PWR_STALL_MAX_STALL = max (s.hub.chip.get F.PWR_STALL_MAX_STALL) stall.toNat % 2 ^ 16 ∧
      t.hub.chip.lkp = { s.hub.chip.lkp with gated := false, kickAt := s.hub.chip.now } ∧
      wordsKept [F.PWR_STATUS.off, F.PWR_STALL_MAX.off] s t) ∧
  (∀ s : State, s.hub.deepReady = true →
    ∃ t, exec (.deepSleepEntry false) s = .next t ∧ coreOnly s t ∧ t.hub.chip.pst = { s.hub.chip.pst with deep := true } ∧
      t.hub.chip.get F.PWR_DEEP_ENTRIES = (s.hub.chip.get F.PWR_DEEP_ENTRIES + 1) % 2 ^ 32 ∧
      t.hub.chip.get F.FAB_TIME_STATUS_LOCKED = 0) ∧
  (∀ s : State, s.hub.deepReady = true →
    ∃ t, exec (.deepSleepEntry true) s = .next t ∧ coreOnly s t ∧ t.hub.chip.pst = { s.hub.chip.pst with hold := true } ∧
      t.hub.chip.get F.PWR_INT_STATUS_DEEP_ABORT = 1 ∧ wordsKept [F.PWR_INT_STATUS.off] s t) ∧
  (∀ (s : State) (k : Fin 11) (pin : Fin 16), s.hub.chip.pst.deep = true → s.hub.chip.wakeEnabled k.val pin.val = true →
    ∃ t, exec (.deepSleepWake k pin) s = .next t ∧ coreOnly s t ∧
      t.hub.chip.pst = { s.hub.chip.pst with deep := false, hold := true } ∧
      t.hub.chip.get ⟨F.PWR_WAKE_CAUSE.off, k.val, 1⟩ = 1 ∧ t.hub.chip.get F.PWR_INT_STATUS_WAKE = 1) ∧
  (∀ (s : State) (off : BitVec 24) (v : BitVec 32), s.hub.chip.pst.deep = true →
    ∃ t, exec (.i2c0Access false off v) s = .next t ∧ t.pending = s.pending ∧
      (if s.hub.chip.bit F.PWR_WAKE_EN 9 = true then t.hub.chip.pst = { s.hub.chip.pst with deep := false, hold := true } ∧
        t.hub.chip.get ⟨F.PWR_WAKE_CAUSE.off, 9, 1⟩ = 1 ∧ t.hub.chip.get F.PWR_INT_STATUS_WAKE = 1
       else t.hub.chip.pst = s.hub.chip.pst)) ∧
  (∀ s : State, s.hub.chip.running = true → s.hub.chip.on F.PWR_CTL_DEEP_REQ = false →
    ∃ t, exec .deepHoldExpiry s = .next t ∧ coreOnly s t ∧ t.hub.chip.pst = { s.hub.chip.pst with hold := false } ∧
      wordsKept [] s t) ∧
  (∀ s : State, s.hub.chip.pst.offDue = true → s.hub.chip.rst.active ≠ some .por →
    ∃ t, exec .pwrEnDrop s = .next t ∧ t.pending = s.pending ∧ t.hub.chip.pst = { Pst.reset with off := true } ∧
      t.hub.chip.rst.active = some .por ∧
      t.hub.chip.outbox.take (s.hub.chip.outbox.length + 1) = s.hub.chip.outbox ++ [Out.pwrEn false] ∧
      (t.hub.chip.outbox.drop (s.hub.chip.outbox.length + 1)).all pinRelease = true) ∧
  (∀ s : State, s.hub.chip.pst.off = true →
    ∃ t, exec .offWake s = .next t ∧ coreOnly s t ∧ t.hub.chip.pst = { s.hub.chip.pst with off := false } ∧
      t.hub.chip.outbox = s.hub.chip.outbox ++ [Out.pwrEn true] ∧ t.hub.chip.get F.PWR_WAKE_CAUSE_FROM_OFF = 1 ∧
      wordsKept [F.PWR_WAKE_CAUSE.off] s t) ∧
  (∀ s : State, s.hub.chip.pst.off = true → s.hub.chip.get F.PWR_AON_TIMER_COUNT ≠ 0 →
    ∃ t, exec .aonTimerExpiry s = .next t ∧ coreOnly s t ∧ t.hub.chip.pst = { s.hub.chip.pst with off := false } ∧
      t.hub.chip.get F.PWR_AON_TIMER_COUNT = 0 ∧ t.hub.chip.get F.PWR_WAKE_CAUSE_FROM_OFF = 1 ∧
      wordsKept [F.PWR_WAKE_CAUSE.off, F.PWR_AON_TIMER.off] s t)

/-- The Lockkeeper's supervision (14 R438 to R440, Table 14-3): a lockstep mismatch, a watchdog expiry and a boot timeout
are failures with their cause; the sequencer records the failure and holds the cores, and after three restarts it takes one warm reset
where ESC_WARM says so, else it enters HOLD; then the cores restart, test
themselves, and load. The sequencer's copies, start-up BIST and scrubbing (14 R432, R435, R442). An outvoted copy is
flagged; with no majority a warm reset follows. BIST leaves its results and ends. A scrubbed word advances the position, and
an error found in it is counted. Rests on the model's choices of log 5, 59 and 74. Completes: lockstepMismatch,
watchdogExpiry, bootTmoExpiry, lockkeeperFailure, lkRestartBegin, lkRestartBistDone, lkFirmwareLoaded, seqVoteDisagree,
bistComplete, scrubRead. -/
def Obligations.LockkeeperSelfTestAndScrub : Prop :=
  (∀ (s : State) (pc : Word), s.hub.chip.coresRun = true →
    ∃ t, exec (.lockstepMismatch pc) s = .next t ∧ coreOnly s t ∧
      t.hub.chip.lkp = { s.hub.chip.lkp with failing := some .lockstep } ∧ t.hub.chip.get F.LKP_FAIL_PC = pc.toNat ∧
      wordsKept [F.LKP_FAIL_PC.off] s t) ∧
  (∀ s : State, s.hub.chip.coresRun = true → s.hub.chip.get F.LKP_STATUS_STATE = 0 →
    s.hub.chip.watchdogDue = true →
    ∃ t, exec .watchdogExpiry s = .next t ∧ coreOnly s t ∧
      t.hub.chip.lkp = { s.hub.chip.lkp with failing := some .watchdog } ∧ wordsKept [] s t) ∧
  (∀ s : State, s.hub.chip.running = true → s.hub.chip.lkp.phase = .bist ∨ s.hub.chip.lkp.phase = .load →
    s.hub.chip.on F.LKP_CTL_READY = false → s.hub.chip.get F.LKP_STATUS_STATE ≠ 3 → s.hub.chip.lkp.failing = none →
    ∃ t, exec .bootTmoExpiry s = .next t ∧ coreOnly s t ∧
      t.hub.chip.lkp = { s.hub.chip.lkp with failing := some .bootTmo } ∧ wordsKept [] s t) ∧
  (∀ (s : State) (cause : LkCause), s.hub.chip.running = true → s.hub.chip.lkp.failing = some cause →
    s.hub.chip.get F.LKP_STATUS_RESTARTS ≠ 3 →
    ∃ t, exec .lockkeeperFailure s = .next t ∧ t.pending = s.pending ∧ t.hub.chip.lkp.failing = none ∧
      t.hub.chip.lkp.phase = .held ∧ t.hub.chip.get F.LKP_STATUS_LAST_CAUSE = cause.code ∧ t.hub.chip.get F.LKP_STATUS_STATE = 2 ∧
      t.hub.chip.get F.LKP_FAILS = (s.hub.chip.get F.LKP_FAILS + 1) % 2 ^ 32 ∧
      t.hub.chip.get F.LKP_FAIL_FRAME = s.hub.chip.get F.FAB_FRAME) ∧
  (∀ (s : State) (cause : LkCause), s.hub.chip.running = true → s.hub.chip.rst.active = none → s.hub.chip.lkp.failing = some cause →
    s.hub.chip.get F.LKP_STATUS_RESTARTS = 3 →
    ∃ t, exec .lockkeeperFailure s = .next t ∧ t.pending = s.pending ∧
      t.hub.chip.get F.LKP_FAILS = (s.hub.chip.get F.LKP_FAILS + 1) % 2 ^ 32 ∧
      (if s.hub.chip.on F.LKP_CFG_ESC_WARM = true ∧ s.hub.chip.lkp.escalated = false then
        t.hub.chip.rst.active = some .warm ∧ t.hub.chip.lkp.escalated = true ∧ t.hub.chip.get F.GLB_RESET_CAUSE = 3 ∧
        t.hub.chip.get F.GLB_RESET_WARM_WDT = 1
       else t.hub.chip.rst = s.hub.chip.rst ∧ t.hub.chip.get F.LKP_STATUS_STATE = 3)) ∧
  (∀ s : State, s.hub.chip.running = true → s.hub.chip.lkp.phase = .held →
    ∃ t, exec .lkRestartBegin s = .next t ∧ coreOnly s t ∧ t.hub.chip.lkp.phase = .bist ∧ t.hub.chip.lkp.failed = true ∧
      t.hub.chip.get F.LKP_STATUS_RESTARTS = (s.hub.chip.get F.LKP_STATUS_RESTARTS + 1) % 4 ∧
      t.hub.chip.get F.LKP_STATUS_STATE = 2 ∧ t.hub.chip.swc.p8in = [] ∧ t.hub.chip.swc.p8out = []) ∧
  (∀ s : State, s.hub.chip.running = true → s.hub.chip.lkp.phase = .bist →
    ∃ t, exec (.lkRestartBistDone true) s = .next t ∧ coreOnly s t ∧ t.hub.chip.lkp = { s.hub.chip.lkp with phase := .load } ∧
      t.hub.chip.get F.LKP_STATUS_STATE = 1 ∧ wordsKept [F.LKP_STATUS.off] s t) ∧
  (∀ s : State, s.hub.chip.running = true → s.hub.chip.lkp.phase = .bist → s.hub.chip.get F.LKP_STATUS_STATE ≠ 3 →
    s.hub.chip.lkp.failing = none →
    ∃ t, exec (.lkRestartBistDone false) s = .next t ∧ coreOnly s t ∧
      t.hub.chip.lkp = { s.hub.chip.lkp with failing := some .bist } ∧ wordsKept [] s t) ∧
  (∀ (s : State) (fw : ImageFile), s.hub.chip.running = true → s.hub.chip.lkp.phase = .load → s.hub.chip.lkp.failing = none →
      s.hub.chip.get F.LKP_STATUS_STATE ≠ 3 →
    ∃ t, exec (.lkFirmwareLoaded fw) s = .next t ∧ coreOnly s t ∧
      (if s.hub.chip.firmwareOk fw = true then t.hub.chip.get F.KEY_STATUS_FW_SVN = imgSvn fw % 2 ^ F.KEY_STATUS_FW_SVN.width
       else t.hub.chip.lkp = { s.hub.chip.lkp with failing := some .signature } ∧ wordsKept [] s t)) ∧
  (∀ s : State, s.hub.chip.running = true →
    ∃ t, exec (.seqVoteDisagree true) s = .next t ∧ coreOnly s t ∧ t.hub.chip.get F.LKP_STATUS_SEQ_FAULT = 1 ∧
      t.hub.chip.get F.LKP_INT_STATUS_SEQ_FAULT = 1) ∧
  (∀ s : State, s.hub.chip.running = true → s.hub.chip.rst.active = none →
    ∃ t, exec (.seqVoteDisagree false) s = .next t ∧ t.pending = s.pending ∧ t.hub.chip.rst.active = some .warm ∧
      t.hub.chip.get F.GLB_RESET_CAUSE = 3 ∧ t.hub.chip.get F.GLB_RESET_WARM_WDT = 1) ∧
  (∀ (s : State) (r : BistResult), s.hub.chip.running = true → s.hub.chip.rst.bist = true → r.words = [] → r.unrepairable = none →
    r.eccOk = true → r.logicOk = true →
    ∃ t, exec (.bistComplete r) s = .next t ∧ coreOnly s t ∧ t.hub.chip.rst = { s.hub.chip.rst with bist := false } ∧
      t.hub.chip.get F.REL_STATUS_BIST_DONE = 1 ∧ t.hub.chip.get F.REL_BIST_STATUS_LANE_OK = r.lanes.toNat ∧
      t.hub.chip.get F.REL_BIST_STATUS_MEM_OK = 1 ∧ t.hub.chip.get F.REL_BIST_STATUS_ECC_OK = 1 ∧
      t.hub.chip.get F.REL_BIST_STATUS_LOGIC_OK = 1) ∧
  (∀ (s : State) (r : BistResult), s.hub.chip.running = true → s.hub.chip.rst.bist = true → r.logicOk = false →
    ∃ t, exec (.bistComplete r) s = .next t ∧ coreOnly s t ∧ t.hub.chip.rst.bist = false ∧
      t.hub.chip.get F.REL_STATUS_BIST_FAIL = 1 ∧ t.hub.chip.get F.GLB_FAULT_STATUS_BIST_FAIL = 1 ∧
      t.hub.chip.get F.LKP_STATUS_STATE = 3) ∧
  (∀ (s : State) (owner : LostOwner), s.hub.chip.scrubs = true → s.hub.chip.get F.REL_SCRUB_POS_WORD ≠ 471_039 →
    ∃ t, exec (.scrubRead { found := .clean, accesses := [] } owner) s = .next t ∧ registersOnly s t ∧
      t.hub.chip.get F.REL_SCRUB_POS_WORD = (s.hub.chip.get F.REL_SCRUB_POS_WORD + 1) % 2 ^ 19 ∧
      wordsKept [F.REL_SCRUB_POS.off] s t) ∧
  (∀ (s : State) (owner : LostOwner), s.hub.chip.scrubs = true → s.hub.chip.get F.REL_SCRUB_POS_WORD = 471_039 →
    ∃ t, exec (.scrubRead { found := .clean, accesses := [] } owner) s = .next t ∧ coreOnly s t ∧ t.hub.chip.get F.REL_SCRUB_POS_WORD = 0 ∧
      t.hub.chip.get F.REL_SCRUB_PASSES = (s.hub.chip.get F.REL_SCRUB_PASSES + 1) % 2 ^ 32 ∧
      t.hub.chip.get F.REL_INT_STATUS_SCRUB_PASS = 1)

/-- The frame tick (04 R155, 06 R216): FRAME advances by one, SUBNS starts again at 0, and the model's time has reached the
tick. The governor's timed steps (06 R214, R215, R218, R222): a level falls by one when its count is full, a higher cap is
published, a shed channel is let go, and a freeze ends. Time gates (06 R206, R208): the next entry of a running list takes
over, a cycle starts again at entry 0, and an armed takeover makes the pending bank active. Rests on the model's choices of
log 4, 5, 7 and 52. Completes: frameTick, budgetLevelFall, capRaiseDelayExpiry, shedRestore, rampFreezeEnd,
gateEntryAdvance, gateCycleStart, gateTakeover. -/
def Obligations.TicksGovernorAndGates : Prop :=
  (∀ (s : State) (m : FrameMeas), s.hub.chip.running = true → s.hub.chip.subns < 1_000_000 →
    ∃ t, exec (.frameTick m) s = .next t ∧ t.pending = s.pending ∧
      t.hub.chip.get F.FAB_FRAME = (s.hub.chip.get F.FAB_FRAME + 1) % 2 ^ 32 ∧ t.hub.chip.subns = 0 ∧
      t.hub.chip.now = s.hub.chip.now + (1_000_000 - s.hub.chip.subns)) ∧
  (∀ s : State, s.hub.chip.running = true → s.hub.chip.on F.BUD_CTL_FORCE_EN = false → 0 < s.hub.chip.get F.BUD_STATUS_LEVEL →
    s.hub.chip.fallHold ≤ s.hub.chip.get F.BUD_STATUS_FALL_CNT →
    ∃ t, exec .budgetLevelFall s = .next t ∧ t.pending = s.pending ∧
      t.hub.chip.get F.BUD_STATUS_LEVEL = s.hub.chip.get F.BUD_STATUS_LEVEL - 1 ∧ t.hub.chip.get F.BUD_STATUS_FALL_CNT = 0 ∧
      t.hub.chip.get F.BUD_INT_STATUS_LEVEL_DOWN = 1 ∧
      t.hub.chip.bud.row = s.hub.chip.bud.rows.toList.getD (s.hub.chip.get F.BUD_STATUS_LEVEL - 1) 0#32) ∧
  (∀ s : State, s.hub.chip.running = true → s.hub.chip.get (F.TRK_STATUS_CAP_BUDGET 0) < effectsCap s.hub.chip.bud.row →
    ∃ t, exec .capRaiseDelayExpiry s = .next t ∧ coreOnly s t ∧
      (∀ p : Port, t.hub.chip.get (F.TRK_STATUS_CAP_BUDGET p) = effectsCap s.hub.chip.bud.row) ∧
      t.hub.chip.get F.BUD_INT_STATUS_CAP_CHANGE = 1 ∧ t.hub.chip.bud = { s.hub.chip.bud with capAt := s.hub.chip.now } ∧
      wordsKept [(F.TRK_STATUS 0).off, (F.TRK_STATUS 1).off, (F.TRK_STATUS 2).off, F.BUD_INT_STATUS.off] s t) ∧
  (∀ (s : State) (y : Chan), s.hub.chip.running = true → s.hub.chip.bit F.BUD_SHED_STATUS_SHED y.val = true →
    s.hub.chip.shedFits y = true → s.hub.chip.get F.BUD_CFG_RESTORE_HOLD * 100 < s.hub.chip.bud.clearFor[y] →
    ∃ t, exec (.shedRestore y) s = .next t ∧ t.pending = s.pending ∧
      t.hub.chip.get ⟨F.BUD_SHED_STATUS.off, y.val, 1⟩ = 0 ∧ t.hub.chip.get F.BUD_INT_STATUS_RESTORE = 1 ∧
      wordsKept [F.BUD_SHED_STATUS.off, F.BUD_INT_STATUS.off] s t) ∧
  (∀ (s : State) (u n : Nat), s.hub.chip.running = true → s.hub.chip.bud.frozen = some (u, n) →
    s.hub.rampsSettled = true ∨ max 1 (s.hub.chip.get F.BUD_CFG_RAMP_FREEZE_MAX) ≤ n →
    ∃ t, exec .rampFreezeEnd s = .next t ∧ coreOnly s t ∧ t.hub.chip.bud = { s.hub.chip.bud with frozen := none } ∧
      t.hub.chip.get F.BUD_STATUS_FROZEN = 0 ∧ wordsKept [F.BUD_STATUS.off] s t) ∧
  (∀ (s : State) (e : DPort), (s.hub.chip.gateRun e.val).running = true →
      s.hub.chip.gateEmpty e.val (s.hub.chip.gateBank e.val) = false →
    s.hub.chip.get (F.SCH_P_GATE_STATUS_ENTRY e.val) < 255 →
    s.hub.chip.gateDur e.val (s.hub.chip.gateBank e.val) (s.hub.chip.get (F.SCH_P_GATE_STATUS_ENTRY e.val) + 1) ≠ 0 →
    ∃ t, exec (.gateEntryAdvance e) s = .next t ∧ coreOnly s t ∧
      t.hub.chip.get (F.SCH_P_GATE_STATUS_ENTRY e.val) = s.hub.chip.get (F.SCH_P_GATE_STATUS_ENTRY e.val) + 1 ∧
      t.hub.chip.get (F.SCH_P_GATE_STATUS_OPEN e.val) =
        s.hub.chip.gateMask e.val (s.hub.chip.gateBank e.val) (s.hub.chip.get (F.SCH_P_GATE_STATUS_ENTRY e.val) + 1) ∧
      wordsKept [(F.SCH_P_GATE_STATUS e.val).off] s t) ∧
  (∀ (s : State) (e : DPort), (s.hub.chip.gateRun e.val).running = true →
    ∃ t, exec (.gateCycleStart e) s = .next t ∧ coreOnly s t ∧ t.hub.chip.get (F.SCH_P_GATE_STATUS_ENTRY e.val) = 0 ∧
      wordsKept [(F.SCH_P_GATE_STATUS e.val).off] s t) ∧
  (∀ (s : State) (e : DPort), s.hub.chip.on (F.SCH_P_TAKE_CTL_ARMED e.val) = true →
    ∃ t, exec (.gateTakeover e) s = .next t ∧ coreOnly s t ∧
      t.hub.chip.get (F.SCH_P_GATE_STATUS_BANK e.val) = 1 - s.hub.chip.get (F.SCH_P_GATE_STATUS_BANK e.val) ∧
      t.hub.chip.get (F.SCH_P_GATE_STATUS_ENTRY e.val) = 0 ∧ t.hub.chip.get (F.SCH_P_TAKE_CTL_ARMED e.val) = 0 ∧
      t.hub.chip.get (F.SCH_P_GATE_STATUS_TOOK e.val) = 1 ∧ t.hub.chip.get F.SCH_INT_STATUS_GATE_TAKEOVER = 1 ∧
      wordsKept [(F.SCH_P_GATE_STATUS e.val).off, (F.SCH_P_TAKE_CTL e.val).off, F.SCH_INT_STATUS.off] s t)

/-- Bring-up of a trunk port (02 R46 to R49). Each stage follows the one before it: echo training, acquisition, the
handshake, the link. A frequency difference above 250 ppm or the hub's own serial refuses the link, and 100 ms of signal end
the 60 s wait. Snapshots and the climb (02 R46, R50, R51, R56). A snapshot stores predicted SNRs and coefficients, shows the
margins over TRK_SNR_REQ and the cable's length; the climb proposes the next step where the caps, the hold-offs and the
margin allow it, and ends where they do not; the wet flag clears. Rests on the model's choices of log 3, 5, 7, 30, 31 and
76. Completes: bringupStart, echoTrainingEnd, partnerAcquired, handshake, listeningEnter, listenBurst, partnerEnergy,
bringupBackoffExpiry, channelSnapshot, climbDwellExpiry, wetClear. -/
def Obligations.BringUpAndClimb : Prop :=
  (∀ s : State, s.hub.chip.running = true →
    ∃ t, exec .bringupStart s = .next t ∧ coreOnly s t ∧
      (∀ p : Port, s.hub.chip.on (F.TRK_CTL_EN p) = true → s.hub.chip.on (F.TRK_CTL_TEST_MODE p) = false →
      s.hub.chip.get (F.TRK_STATUS_PHASE p) = phaseOff →
        t.hub.chip.get (F.TRK_STATUS_PHASE p) = phaseEcho ∧ t.hub.chip.trk[p].training = true)) ∧
  (∀ (s : State) (p : Port), s.hub.chip.get (F.TRK_STATUS_PHASE p) = phaseEcho →
    ∃ t, exec (.echoTrainingEnd p) s = .next t ∧ registersOnly s t ∧ t.hub.chip.get (F.TRK_STATUS_PHASE p) = phaseAcquire ∧
      wordsKept [(F.TRK_STATUS p).off] s t) ∧
  (∀ (s : State) (p : Port) (ppm : Int), s.hub.chip.get (F.TRK_STATUS_PHASE p) = phaseAcquire →
    ∃ t, exec (.partnerAcquired p ppm) s = .next t ∧ coreOnly s t ∧ t.hub.chip.get (F.TRK_STATUS_PHASE p) = phaseHandshake ∧
      t.hub.chip.get (F.TRK_STATUS_PPM p) = unsigned 10 (max (-512) (min 511 ppm)) ∧
      t.hub.chip.trk[p] = { s.hub.chip.trk[p] with ppm := ppm, sentPrecode := (s.hub.chip.ownHello p).precode } ∧
      t.hub.chip.outbox = s.hub.chip.outbox ++ [Out.hello p (s.hub.chip.ownHello p)] ∧
      wordsKept [(F.TRK_STATUS p).off, (F.TRK_LANE_A p).off, (F.TRK_LANE_B p).off] s t) ∧
  (∀ (s : State) (p : Port) (h : PartnerHello), s.hub.chip.get (F.TRK_STATUS_PHASE p) = phaseHandshake →
    s.hub.chip.trk[p].ppm.natAbs ≤ 250 → h.serial.toNat ≠ s.hub.chip.serial → s.hub.chip.laneOut p 0 = false →
      s.hub.chip.laneOut p 1 = false →
    ∃ t, exec (.handshake p h) s = .next t ∧ coreOnly s t ∧ t.hub.chip.get (F.TRK_STATUS_LINK_UP p) = 1 ∧
      t.hub.chip.get (F.TRK_STATUS_STEP p) = 1 ∧
      t.hub.chip.get (F.TRK_STATUS_PHASE p) = phaseProbe ∧ t.hub.chip.get (F.TRK_INT_STATUS_LINK_UP p) = 1 ∧
      t.hub.chip.get (F.TRK_STATUS_LANES p) = 3 ∧
      t.hub.chip.get (F.TRK_PARTNER_CAP_STEP_MAX p) = h.stepMax.toNat ∧ t.hub.chip.get (F.LNK_STATUS_TX_NEXT p) = 0 ∧
      t.hub.chip.get (F.LNK_RX_EXPECT p) = 0) ∧
  (∀ (s : State) (p : Port) (h : PartnerHello), s.hub.chip.get (F.TRK_STATUS_PHASE p) = phaseHandshake →
    250 < s.hub.chip.trk[p].ppm.natAbs ∨ h.serial.toNat = s.hub.chip.serial →
    ∃ t, exec (.handshake p h) s = .next t ∧ coreOnly s t ∧ t.hub.chip.get (F.TRK_INT_STATUS_PROTOCOL p) = 1 ∧
      t.hub.chip.get (F.TRK_STATUS_LINK_UP p) = s.hub.chip.get (F.TRK_STATUS_LINK_UP p) ∧
      t.hub.chip.trk[p].fails = s.hub.chip.trk[p].fails + 1) ∧
  (∀ (s : State) (p : Port),
      s.hub.chip.get (F.TRK_STATUS_PHASE p) = phaseAcquire ∨ s.hub.chip.get (F.TRK_STATUS_PHASE p) = phaseEcho ∨
      s.hub.chip.get (F.TRK_STATUS_PHASE p) = phaseHandshake →
    ∃ t, exec (.listeningEnter p) s = .next t ∧ coreOnly s t ∧ t.hub.chip.get (F.TRK_STATUS_PHASE p) = phaseListen ∧
      t.hub.chip.trk[p].training = false ∧
      t.hub.chip.trk[p].fails = s.hub.chip.trk[p].fails + (if s.hub.chip.get (F.TRK_STATUS_PHASE p) = phaseHandshake then 1 else 0) ∧
      wordsKept [(F.TRK_STATUS p).off, (F.TRK_LANE_A p).off, (F.TRK_LANE_B p).off] s t) ∧
  (∀ (s : State) (p : Port), s.hub.chip.get (F.TRK_STATUS_PHASE p) = phaseListen →
    ∃ t, exec (.listenBurst p) s = .next t ∧ coreOnly s t ∧ t.hub.chip.outbox = s.hub.chip.outbox ++ [Out.prbs p true] ∧
      wordsKept [] s t) ∧
  (∀ (s : State) (p : Port) (ms : Nat), s.hub.chip.get (F.TRK_STATUS_PHASE p) = phaseListen →
      s.hub.chip.trk[p].wait ≠ .sixtySeconds ∨ 100 ≤ ms →
    ∃ t, exec (.partnerEnergy p ms) s = .next t ∧ coreOnly s t ∧ t.hub.chip.get (F.TRK_STATUS_PHASE p) = phaseAcquire ∧
      t.hub.chip.outbox = s.hub.chip.outbox ++ [Out.prbs p false] ∧
      t.hub.chip.trk[p] = { s.hub.chip.trk[p] with training := true, wait := .none } ∧
      wordsKept [(F.TRK_STATUS p).off, (F.TRK_LANE_A p).off, (F.TRK_LANE_B p).off] s t) ∧
  (∀ (s : State) (p : Port) (ms : Nat), s.hub.chip.trk[p].wait = .sixtySeconds → ms < 100 →
    ∃ t, exec (.partnerEnergy p ms) s = .next t ∧ registersOnly s t ∧ wordsKept [] s t) ∧
  (∀ (s : State) (p : Port), s.hub.chip.trk[p].wait ≠ .none → s.hub.chip.on (F.TRK_CTL_EN p) = true →
    ∃ t, exec (.bringupBackoffExpiry p) s = .next t ∧ coreOnly s t ∧ t.hub.chip.get (F.TRK_STATUS_PHASE p) = phaseEcho ∧
      t.hub.chip.trk[p].wait = .none ∧ t.hub.chip.outbox = s.hub.chip.outbox ++ [Out.prbs p false]) ∧
  (∀ (s : State) (p : Port) (sn : Snapshot), s.hub.chip.running = true → s.hub.chip.on (F.TRK_STATUS_LINK_UP p) = true →
    s.hub.chip.get (F.TRK_STATUS_PHASE p) ≠ phaseProbe → s.hub.chip.get (F.TRK_STATUS_STEP p) ≠ 0 →
    ∃ t, exec (.channelSnapshot p sn) s = .next t ∧ coreOnly s t ∧ t.hub.chip.get (F.TRK_MOOR_STATUS_COEF_VALID p) = 1 ∧
      t.hub.chip.get (F.TRK_MOOR_STATUS_COEF_AGE p) = 0 ∧ t.hub.chip.get (F.TRK_CABLE_LENGTH_M p) = min sn.lengthM 0xFFF ∧
      t.hub.chip.get (laneMargin p 0) = marginCode (some (sn.a.snr - s.hub.chip.snrReq p (s.hub.chip.get (F.TRK_STATUS_STEP p)))) ∧
      t.hub.chip.get (laneMargin p 1) = marginCode (some (sn.b.snr - s.hub.chip.snrReq p (s.hub.chip.get (F.TRK_STATUS_STEP p)))) ∧
      t.hub.chip.trk[p].snrs = [sn.a.predicted, sn.b.predicted] ∧ t.hub.chip.trk[p].coefs = [sn.a.coefs, sn.b.coefs] ∧
      t.hub.chip.trk[p].coefAt = some s.hub.chip.now) ∧
  (∀ (s : State) (p : Port), s.hub.chip.running = true → s.hub.chip.on (F.TRK_STATUS_LINK_UP p) = true →
      s.hub.chip.get (F.TRK_STATUS_PHASE p) = phaseClimb →
    s.hub.chip.shiftIdle p = true → s.hub.chip.stepCap p < s.hub.chip.get (F.TRK_STATUS_STEP p) + 1 →
    ∃ t, exec (.climbDwellExpiry p) s = .next t ∧ registersOnly s t ∧ t.hub.chip.get (F.TRK_STATUS_PHASE p) = phaseRunning ∧
      wordsKept [(F.TRK_STATUS p).off] s t) ∧
  (∀ (s : State) (p : Port), s.hub.chip.running = true → s.hub.chip.on (F.TRK_STATUS_LINK_UP p) = true →
      s.hub.chip.get (F.TRK_STATUS_PHASE p) = phaseClimb →
    s.hub.chip.shiftIdle p = true → s.hub.chip.get (F.TRK_STATUS_STEP p) + 1 ≤ s.hub.chip.stepCap p →
      s.hub.chip.get (F.TRK_STATUS_STEP p) < 5 →
    s.hub.chip.heldOff p (s.hub.chip.get (F.TRK_STATUS_STEP p) + 1) = false →
    (s.hub.chip.get (F.TRK_GOV_CFG_ACCEPT_MARGIN p) : Int) ≤ s.hub.chip.portPredicted p (s.hub.chip.get (F.TRK_STATUS_STEP p) + 1) →
    ∃ t, exec (.climbDwellExpiry p) s = .next t ∧ coreOnly s t ∧
      t.hub.chip.trk[p] = { s.hub.chip.trk[p] with own := some { phase := .decided, target := s.hub.chip.get (F.TRK_STATUS_STEP p) + 1, start := s.hub.chip.get (F.TRK_STATUS_STEP p), cause := 8, spanN := 0, spanM := 0, txDone := false, rxDone := false, failed := false } } ∧
      wordsKept [(F.TRK_STATUS p).off] s t) ∧
  (∀ (s : State) (p : Port), s.hub.chip.on (F.TRK_STATUS_WET p) = true →
    ∃ t, exec (.wetClear p) s = .next t ∧ coreOnly s t ∧ t.hub.chip.get (F.TRK_STATUS_WET p) = 0)

/-- Spans, markers, codewords and fillers (02 R30 to R42), and the test receiver (R75 to R77). A span's end advances the
span number and sends its markers; a marker's fields are taken, and a lost one is counted. A codeword with few errors is
corrected and its blocks go on; one that cannot be corrected is counted and answered with a NAK. Under test its symbols go
to the checker, or back out. Rests on the model's choices of log 3, 5, 10, 75, 76, 78 and 79. Completes: spanStart,
lockMarkerRx, codewordRx, elasticSlip, fillerDue. -/
def Obligations.SpansAndCodewords : Prop :=
  (∀ (s : State) (p : Port), s.hub.chip.on (F.TRK_STATUS_LINK_UP p) = true → s.hub.chip.mooredPort p = false →
    ∃ t, exec (.spanStart p) s = .next t ∧ coreOnly s t ∧
      t.hub.chip.get (F.TRK_SPAN p) = (s.hub.chip.get (F.TRK_SPAN p) + 1) % 2 ^ 32 ∧
      (s.hub.chip.trk[p].qsent = true → t.hub.chip.trk[p].qnext = false) ∧
      (s.hub.chip.trk[p].own = none → s.hub.chip.trk[p].resp = none →
        ∃ (m : Marker) (l : Nat), m.span.toNat = (s.hub.chip.get (F.TRK_SPAN p) + 1) % 2 ^ 32 ∧
          Out.block p l m.encode ∈ t.hub.chip.outbox)) ∧
  (∀ (s : State) (p : Port) (m : Marker) (copies : List Block), s.hub.chip.on (F.TRK_STATUS_LINK_UP p) = true →
    (copies.filterMap Marker.decode).head? = some m →
    ∃ t, exec (.lockMarkerRx p copies) s = .next t ∧ coreOnly s t ∧ t.hub.chip.trk[p].rxSpan = m.span.toNat ∧
      t.hub.chip.trk[p].lastMarker = some m ∧ t.hub.chip.trk[p].moorSeen = m.moorRdy ∧
      (1 ≤ m.stepCap.toNat → m.stepCap.toNat ≤ 5 → t.hub.chip.get (F.TRK_STATUS_PARTNER_CAP p) = m.stepCap.toNat) ∧
      t.hub.chip.lnk[p].partnerEpoch = m.epoch.toNat) ∧
  (∀ (s : State) (p : Port) (copies : List Block), s.hub.chip.on (F.TRK_STATUS_LINK_UP p) = true →
    (copies.filterMap Marker.decode).head? = none →
    ∃ t, exec (.lockMarkerRx p copies) s = .next t ∧ coreOnly s t ∧
      t.hub.chip.trk[p].rxSpan = (s.hub.chip.trk[p].rxSpan + 1) % 2 ^ 32 ∧
      t.hub.chip.get (F.TRK_PROTO_ERR p) = (s.hub.chip.get (F.TRK_PROTO_ERR p) + 1) % 2 ^ 32 ∧
      t.hub.chip.get (F.TRK_INT_STATUS_PROTOCOL p) = 1 ∧
      wordsKept [(F.TRK_PROTO_ERR p).off, (F.TRK_INT_STATUS p).off] s t) ∧
  (∀ (s : State) (p : Port) (l : LaneId) (symbols : List Nat) (blocks : List Block) (n : Nat),
      s.hub.chip.on (F.TRK_CTL_TEST_MODE p) = false → s.hub.chip.on (laneRxLock p l) = true →
    (decodeCodeword s.hub.chip.pcs[p].lane[l].descr (s.hub.chip.trk[p].sentPrecode.getLsbD (s.hub.chip.trk[p].rxStep - 1))
      (symbols.map (· % 4))).1 = some (blocks, n) → n ≠ 0 →
    ∃ t, exec (.codewordRx p l symbols) s = .next t ∧ coreOnly s t ∧
      t.hub.chip.get (F.TRK_CW_CORR p) = (s.hub.chip.get (F.TRK_CW_CORR p) + 1) % 2 ^ 32 ∧
      t.hub.chip.get (F.TRK_SYM_CORR p) = (s.hub.chip.get (F.TRK_SYM_CORR p) + n) % 2 ^ 32 ∧
      (s.hub.chip.on (F.TRK_STATUS_LINK_UP p) = true → l = 0 → s.hub.chip.trk[p].rxLanes = 1 → s.hub.chip.pcs[p].lane[0].got = [] →
        t.hub.chip.pcs[p].rxq = s.hub.chip.pcs[p].rxq ++ blocks.filter fun b => rxBlock b == .on) ∧
      wordsKept [(F.TRK_CW_CORR p).off, (F.TRK_SYM_CORR p).off, (F.TRK_PROTO_ERR p).off, (F.TRK_INT_STATUS p).off,
        (F.LNK_PROTO_ERR p).off, (F.LNK_INT_STATUS p).off] s t) ∧
  (∀ (s : State) (p : Port) (l : LaneId) (symbols : List Nat), s.hub.chip.on (F.TRK_CTL_TEST_MODE p) = false →
      s.hub.chip.on (laneRxLock p l) = true → s.hub.chip.on (F.TRK_STATUS_LINK_UP p) = true → s.hub.chip.nakOut p = false →
    (decodeCodeword s.hub.chip.pcs[p].lane[l].descr (s.hub.chip.trk[p].sentPrecode.getLsbD (s.hub.chip.trk[p].rxStep - 1))
      (symbols.map (· % 4))).1 = none →
    ∃ t, exec (.codewordRx p l symbols) s = .next t ∧ coreOnly s t ∧
      t.hub.chip.get (F.TRK_CW_UNCORR p) = (s.hub.chip.get (F.TRK_CW_UNCORR p) + 1) % 2 ^ 32 ∧
      t.hub.chip.lnk[p].nakAt = some s.hub.chip.now ∧
      t.hub.chip.get (F.LNK_NAK_TX p) = (s.hub.chip.get (F.LNK_NAK_TX p) + 1) % 2 ^ 32) ∧
  (∀ (s : State) (p : Port) (l : LaneId) (symbols : List Nat), s.hub.chip.on (F.TRK_CTL_TEST_MODE p) = true →
      l.val = s.hub.chip.get (F.TRK_TEST_CTL_LANE_SEL p) → s.hub.chip.on (F.TRK_TEST_CTL_CHK_EN p) = true →
      isPatternCode (s.hub.chip.get (F.TRK_TEST_CTL_PATTERN p)) = true → s.hub.chip.get (F.TRK_TEST_CTL_LOOP p) = 0 →
    ∃ t, exec (.codewordRx p l symbols) s = .next t ∧ coreOnly s t ∧
      (∃ k : Checker, k = (symbols.map (· % 4)).foldl (Checker.take (s.hub.chip.get (F.TRK_TEST_CTL_PATTERN p)))
          { past := s.hub.chip.pcs[p].chk, locked := s.hub.chip.on (F.TRK_TEST_ERR_CHK_LOCK p), errors := s.hub.chip.get (F.TRK_TEST_ERR_ERRORS p) } ∧
        t.hub.chip.get (F.TRK_TEST_ERR_CHK_LOCK p) = k.locked.toNat ∧ t.hub.chip.get (F.TRK_TEST_ERR_ERRORS p) = k.errors % 2 ^ 31) ∧
      t.hub.chip.outbox = s.hub.chip.outbox ∧ wordsKept [(F.TRK_TEST_ERR p).off] s t) ∧
  (∀ (s : State) (p : Port) (l : LaneId) (symbols : List Nat), s.hub.chip.on (F.TRK_CTL_TEST_MODE p) = true →
      l.val = s.hub.chip.get (F.TRK_TEST_CTL_LANE_SEL p) → s.hub.chip.on (F.TRK_TEST_CTL_CHK_EN p) = false →
      s.hub.chip.get (F.TRK_TEST_CTL_LOOP p) = 3 →
    ∃ t, exec (.codewordRx p l symbols) s = .next t ∧ coreOnly s t ∧
      t.hub.chip.outbox = s.hub.chip.outbox ++ [Out.looped p l ((symbols.map (· % 4)).map lineLevel)] ∧ wordsKept [] s t) ∧
  (∀ (s : State) (p : Port) (ppm : Int), s.hub.chip.on (F.TRK_STATUS_LINK_UP p) = true →
    ∃ t, exec (.elasticSlip p ppm) s = .next t ∧ coreOnly s t ∧
      t.hub.chip.get (F.TRK_SLIP p) = (s.hub.chip.get (F.TRK_SLIP p) + 1) % 2 ^ 32 ∧
      t.hub.chip.get (F.TRK_STATUS_PPM p) = unsigned 10 (max (-512) (min 511 ppm)) ∧
      t.hub.chip.trk[p] = { s.hub.chip.trk[p] with ppm := ppm } ∧
      t.hub.chip.pcs[p] = { s.hub.chip.pcs[p] with rxq := s.hub.chip.pcs[p].rxq.dropLast } ∧
      wordsKept [(F.TRK_SLIP p).off, (F.TRK_STATUS p).off] s t) ∧
  (∀ (s : State) (p : Port) (idle : Nat), s.hub.chip.on (F.TRK_STATUS_LINK_UP p) = true → s.hub.chip.mooredPort p = false →
      s.hub.chip.blocksWait p = false → s.hub.chip.pcs[p].change = none →
      idle = 1 ∨ idle = 0 ∧ 2047 ≤ s.hub.chip.pcs[p].sinceFiller →
      s.hub.chip.pcs[p].lane[dealLane s.hub.chip.trk[p].txLanes s.hub.chip.pcs[p].blk].fill.length < 19 →
    ∃ t, exec (.fillerDue p idle) s = .next t ∧ coreOnly s t ∧ t.hub.chip.outbox = s.hub.chip.outbox ++
        [Out.block p (dealLane s.hub.chip.trk[p].txLanes s.hub.chip.pcs[p].blk).val fillerBlock] ∧
      t.hub.chip.pcs[p].sinceFiller = 0 ∧ wordsKept [] s t)

/-- Lanes fail, rejoin, go quiet, moor and come back (02 R66 to R73), and a link is lost (R67, R74): a lane that fails
beside a good one, or that joins, changes the dealing at the block that a lane control block names, in the direction of its sender.
Without single-lane degrade at both ends a lane's failure ends the link. A lane B that has failed is not woken. Rests on the model's
choices of log 3, 5, 31, 75 and 78. Completes: laneLossOfSignal, laneDownRx, laneJoinAttempt, laneJoinLocked, laneJoinRx,
quietEnter, quietRefreshBurst, wakeB, wakeBRx, moorEnter, moorExit, moorPreambleRx, linkLoss, protocolViolationLimit. -/
def Obligations.LaneChangesAndMooring : Prop :=
  (∀ (s : State) (p : Port) (l : LaneId), s.hub.chip.laneLive p l = true → s.hub.chip.laneLive p (otherLane l) = true →
    s.hub.chip.on (F.TRK_CTL_SINGLE_LANE_EN p) = true → s.hub.chip.on (F.TRK_PARTNER_CAP_SINGLE_LANE_EN p) = true →
    ∃ t, exec (.laneLossOfSignal p l) s = .next t ∧ coreOnly s t ∧ t.hub.chip.get (laneState p l) = laneFailed ∧
      t.hub.chip.get (laneRxLock p l) = 0 ∧ t.hub.chip.get (laneLos p l) = 1 ∧
      t.hub.chip.get (laneState p (otherLane l)) = laneActive ∧
      ((∃ x, t.hub.chip.pcs[p].change = some x ∧ x.lanes = (otherLane l).val + 1 ∧ x.joins = none) ∨
        t.hub.chip.trk[p].txLanes = (otherLane l).val + 1) ∧
      t.hub.chip.get (F.TRK_STATUS_LINK_UP p) = 1 ∧ t.hub.chip.get (F.TRK_INT_STATUS_LANE_FAIL p) = 1) ∧
  (∀ (s : State) (p : Port) (l : LaneId), s.hub.chip.laneLive p l = true →
      s.hub.chip.on (F.TRK_CTL_SINGLE_LANE_EN p) = false →
    ∃ t, exec (.laneLossOfSignal p l) s = .next t ∧ coreOnly s t ∧ t.hub.chip.get (F.TRK_STATUS_LINK_UP p) = 0 ∧
      t.hub.chip.get (F.TRK_STATUS_STEP p) = 0 ∧ t.hub.chip.get (F.TRK_INT_STATUS_LINK_DOWN p) = 1) ∧
  (∀ (s : State) (p : Port) (b : Block) (l sp bl : Nat), s.hub.chip.laneLive p (laneOfBit l) = true →
    s.hub.chip.laneLive p (otherLane (laneOfBit l)) = true → s.hub.chip.on (F.TRK_CTL_SINGLE_LANE_EN p) = true →
    s.hub.chip.on (F.TRK_PARTNER_CAP_SINGLE_LANE_EN p) = true → laneCtlDecode b = some (0x01, l, sp, bl) →
    ∃ t, exec (.laneDownRx p b) s = .next t ∧ coreOnly s t ∧ t.hub.chip.get (laneState p (laneOfBit l)) = laneFailed ∧
      t.hub.chip.get (laneState p (otherLane (laneOfBit l))) = laneActive ∧
      t.hub.chip.pcs[p].rxChange = some (sp, bl, (otherLane (laneOfBit l)).val + 1) ∧
      ((∃ x, t.hub.chip.pcs[p].change = some x ∧ x.lanes = (otherLane (laneOfBit l)).val + 1) ∨
        t.hub.chip.trk[p].txLanes = (otherLane (laneOfBit l)).val + 1) ∧
      t.hub.chip.get (F.TRK_INT_STATUS_LANE_FAIL p) = 1) ∧
  (∀ (s : State) (p : Port) (b : Block) (l sp bl : Nat), s.hub.chip.laneLive p (laneOfBit l) = true →
    s.hub.chip.laneLive p (otherLane (laneOfBit l)) = false ∨ s.hub.chip.on (F.TRK_CTL_SINGLE_LANE_EN p) = false ∨
      s.hub.chip.on (F.TRK_PARTNER_CAP_SINGLE_LANE_EN p) = false → laneCtlDecode b = some (0x01, l, sp, bl) →
    ∃ t, exec (.laneDownRx p b) s = .next t ∧ coreOnly s t ∧ t.hub.chip.get (F.TRK_STATUS_LINK_UP p) = 0 ∧
      t.hub.chip.get (F.TRK_INT_STATUS_LINK_DOWN p) = 1) ∧
  (∀ (s : State) (p : Port) (l : LaneId), s.hub.chip.on (F.TRK_STATUS_LINK_UP p) = true →
      s.hub.chip.get (laneState p l) = laneFailed →
    s.hub.chip.laneOut p l = false →
    ∃ t, exec (.laneJoinAttempt p l) s = .next t ∧ coreOnly s t ∧ t.hub.chip.get (laneState p l) = laneTraining ∧
      t.hub.chip.trk[p].joinTries[l] = s.hub.chip.trk[p].joinTries[l] + 1) ∧
  (∀ (s : State) (p : Port) (l : LaneId), s.hub.chip.on (F.TRK_STATUS_LINK_UP p) = true →
    s.hub.chip.get (laneState p l) = laneTraining → s.hub.chip.pcs[p].change = none →
    ∃ t, exec (.laneJoinLocked p l true) s = .next t ∧ coreOnly s t ∧
      ((∃ x, t.hub.chip.pcs[p].change = some x ∧ x.lanes = 0 ∧ x.joins = some l) ∨
        t.hub.chip.get (laneState p l) = laneActive ∧ t.hub.chip.trk[p].txLanes = 0)) ∧
  (∀ (s : State) (p : Port) (l : LaneId), s.hub.chip.on (F.TRK_STATUS_LINK_UP p) = true →
    s.hub.chip.get (laneState p l) = laneTraining → s.hub.chip.pcs[p].change = none →
    ∃ t, exec (.laneJoinLocked p l false) s = .next t ∧ registersOnly s t ∧ t.hub.chip.get (laneState p l) = laneFailed) ∧
  (∀ (s : State) (p : Port) (b : Block) (l sp bl : Nat), s.hub.chip.on (F.TRK_STATUS_LINK_UP p) = true →
    laneCtlDecode b = some (0x02, l, sp, bl) → s.hub.chip.get (laneState p (laneOfBit l)) = laneTraining →
      s.hub.chip.pcs[p].change = none →
    ∃ t, exec (.laneJoinRx p b true) s = .next t ∧ coreOnly s t ∧ t.hub.chip.pcs[p].rxChange = some (sp, bl, 0) ∧
      ((∃ x, t.hub.chip.pcs[p].change = some x ∧ x.lanes = 0 ∧ x.joins = some (laneOfBit l)) ∨
        t.hub.chip.get (laneState p (laneOfBit l)) = laneActive ∧ t.hub.chip.trk[p].txLanes = 0)) ∧
  (∀ (s : State) (p : Port) (b : Block) (l sp bl : Nat), s.hub.chip.on (F.TRK_STATUS_LINK_UP p) = true →
    laneCtlDecode b = some (0x02, l, sp, bl) → s.hub.chip.get (laneState p (laneOfBit l)) = laneTraining →
      s.hub.chip.pcs[p].change = none →
    ∃ t, exec (.laneJoinRx p b false) s = .next t ∧ coreOnly s t ∧ t.hub.chip.get (laneState p (laneOfBit l)) = laneFailed) ∧
  (∀ (s : State) (p : Port) (util : Nat), s.hub.chip.on (F.TRK_STATUS_LINK_UP p) = true → s.hub.chip.on (F.TRK_CTL_QUIET_EN p) = true →
    s.hub.chip.on (F.TRK_PARTNER_CAP_QUIET_EN p) = true → s.hub.chip.get (F.TRK_LANE_B_STATE p) = laneActive →
      s.hub.chip.trk[p].txLanes = 0 → s.hub.chip.pcs[p].change = none → util < s.hub.chip.get (F.TRK_QUIET_CFG_ENTER_UTIL p) →
    ∃ t, exec (.quietEnter p util) s = .next t ∧ coreOnly s t ∧ t.hub.chip.trk[p] = { s.hub.chip.trk[p] with qnext := true } ∧
      wordsKept [] s t) ∧
  (∀ (s : State) (p : Port), s.hub.chip.on (F.TRK_STATUS_LINK_UP p) = true → s.hub.chip.trk[p].txQuiet = true →
      s.hub.chip.mooredPort p = false →
    ∃ t, exec (.quietRefreshBurst p) s = .next t ∧ coreOnly s t ∧ t.hub.chip.outbox = s.hub.chip.outbox ++ [Out.refresh p] ∧
      wordsKept [] s t) ∧
  (∀ (s : State) (p : Port) (a : Bool), s.hub.chip.on (F.TRK_STATUS_LINK_UP p) = true → s.hub.chip.mooredPort p = false →
      s.hub.chip.trk[p].txQuiet = true → s.hub.chip.pcs[p].change = none →
      a = true ∨ s.hub.chip.strictToward p = true ∨ s.hub.chip.get (F.TRK_QUIET_CFG_WAKE_KIB p) * 1024 < s.hub.chip.queuedToward p →
    ∃ t, exec (.wakeB p a) s = .next t ∧ coreOnly s t ∧ t.hub.chip.trk[p].qnext = false ∧
      (if s.hub.chip.laneLive p 1 = true then
        t.hub.chip.get (F.TRK_LANE_B_STATE p) = laneActive ∧ t.hub.chip.trk[p].txQuiet = false ∧
        ((∃ x, t.hub.chip.pcs[p].change = some x ∧ x.lanes = 0 ∧ x.quiet = false) ∨ t.hub.chip.trk[p].txLanes = 0)
       else t.hub.chip.trk[p].txLanes = s.hub.chip.trk[p].txLanes ∧ wordsKept [] s t)) ∧
  (∀ (s : State) (p : Port) (b : Block) (l sp bl : Nat), s.hub.chip.on (F.TRK_STATUS_LINK_UP p) = true →
    laneCtlDecode b = some (0x03, l, sp, bl) → s.hub.chip.get (F.TRK_LANE_B_STATE p) = laneQuiet →
    ∃ t, exec (.wakeBRx p b) s = .next t ∧ coreOnly s t ∧ t.hub.chip.get (F.TRK_LANE_B_STATE p) = laneActive ∧
      t.hub.chip.pcs[p].rxChange = some (sp, bl, 0) ∧ t.hub.chip.trk[p].rxLanes = s.hub.chip.trk[p].rxLanes ∧
      (s.hub.chip.trk[p].txQuiet = false → t.hub.chip.trk[p] = s.hub.chip.trk[p] ∧ wordsKept [(F.TRK_LANE_B p).off] s t) ∧
      (s.hub.chip.trk[p].txQuiet = true → s.hub.chip.pcs[p].change = none → s.hub.chip.mooredPort p = false → t.hub.chip.trk[p].txQuiet = false ∧
        ((∃ x, t.hub.chip.pcs[p].change = some x ∧ x.lanes = 0 ∧ x.quiet = false) ∨ t.hub.chip.trk[p].txLanes = 0))) ∧
  (∀ (s : State) (p : Port), s.hub.chip.on (F.TRK_STATUS_LINK_UP p) = true → s.hub.chip.moorVote p = true →
      s.hub.chip.trk[p].moorSent = true →
    s.hub.chip.trk[p].moorSeen = true → s.hub.chip.get (F.TRK_LANE_A_STATE p) = laneActive →
      s.hub.chip.get (F.TRK_LANE_B_STATE p) = laneActive →
    ∃ t, exec (.moorEnter p) s = .next t ∧ coreOnly s t ∧ t.hub.chip.get (F.TRK_LANE_A_STATE p) = laneMoored ∧
      t.hub.chip.get (F.TRK_LANE_B_STATE p) = laneMoored ∧ t.hub.chip.get (F.TRK_STATUS_LINK_UP p) = 1) ∧
  (∀ (s : State) (p : Port) (d : Nat), s.hub.chip.on (F.TRK_STATUS_LINK_UP p) = true →
      s.hub.chip.get (F.TRK_LANE_A_STATE p) = laneMoored →
      s.hub.chip.get (F.TRK_LANE_B_STATE p) = laneMoored →
    s.hub.chip.coefValid p d = true →
    ∃ t, exec (.moorExit p d) s = .next t ∧ coreOnly s t ∧ t.hub.chip.get (F.TRK_LANE_A_STATE p) = laneActive ∧
      t.hub.chip.get (F.TRK_LANE_B_STATE p) = laneActive ∧
      t.hub.chip.outbox = s.hub.chip.outbox ++
        [Out.preamble p 0 (s.hub.chip.get (F.TRK_STATUS_STEP p)) preambleLevels,
         Out.preamble p 1 (s.hub.chip.get (F.TRK_STATUS_STEP p)) preambleLevels] ∧
      t.hub.chip.trk[p].moorSent = false ∧ t.hub.chip.trk[p].moorSeen = false ∧ t.hub.chip.trk[p].txLanes = 0 ∧
      t.hub.chip.get (F.TRK_STATUS_LANES p) = 3 ∧
      wordsKept [(F.TRK_LANE_A p).off, (F.TRK_LANE_B p).off, (F.TRK_MOOR_STATUS p).off, (F.TRK_STATUS p).off] s t) ∧
  (∀ (s : State) (p : Port) (d : Nat), s.hub.chip.on (F.TRK_STATUS_LINK_UP p) = true →
      s.hub.chip.get (F.TRK_LANE_A_STATE p) = laneMoored →
      s.hub.chip.get (F.TRK_LANE_B_STATE p) = laneMoored →
    s.hub.chip.coefValid p d = true →
    ∃ t, exec (.moorPreambleRx p d) s = .next t ∧ coreOnly s t ∧ t.hub.chip.get (F.TRK_LANE_A_STATE p) = laneActive ∧
      t.hub.chip.get (F.TRK_LANE_B_STATE p) = laneActive ∧
      t.hub.chip.outbox.length = s.hub.chip.outbox.length + 2 ∧
      t.hub.chip.trk[p].moorSent = false ∧ t.hub.chip.trk[p].moorSeen = false) ∧
  (∀ (s : State) (p : Port) (d : Nat), s.hub.chip.mooredPort p = true → s.hub.chip.coefValid p d = false →
    ∃ t, exec (.moorPreambleRx p d) s = .next t ∧ coreOnly s t ∧ t.hub.chip.get (F.TRK_STATUS_LINK_UP p) = 0 ∧
      t.hub.chip.get (F.TRK_STATUS_PHASE p) = phaseEcho ∧ t.hub.chip.get (F.TRK_INT_STATUS_LINK_DOWN p) = 1) ∧
  (∀ (s : State) (p : Port), s.hub.chip.running = true → s.hub.chip.on (F.TRK_STATUS_LINK_UP p) = true → s.hub.chip.mooredPort p = false →
    ∃ t, exec (.linkLoss p) s = .next t ∧ coreOnly s t ∧ t.hub.chip.get (F.TRK_STATUS_LINK_UP p) = 0 ∧
      t.hub.chip.get (F.TRK_STATUS_STEP p) = 0 ∧
      t.hub.chip.get (F.TRK_INT_STATUS_LINK_DOWN p) = 1 ∧ t.hub.chip.lnk[p].replay = [] ∧ t.hub.chip.get (F.TRK_LANE_A_LOS p) = 1 ∧
      t.hub.chip.get (F.TRK_LANE_B_LOS p) = 1) ∧
  (∀ (s : State) (p : Port), s.hub.chip.on (F.TRK_STATUS_LINK_UP p) = true → 8 ≤ (s.hub.chip.recentViolations p).length →
    ∃ t, exec (.protocolViolationLimit p) s = .next t ∧ coreOnly s t ∧ t.hub.chip.get (F.TRK_STATUS_LINK_UP p) = 0 ∧
      t.hub.chip.get (F.TRK_INT_STATUS_LINK_DOWN p) = 1 ∧ t.hub.chip.lnk[p].replay = [])

/-- The margin governor proposes shifts (02 R45, R52 to R55): a port without a shift under way decides the proposal of its
row. The shift engine (02 R57 to R64): proposer and responder agree on the spans and switch, or the shift ends refused,
withdrawn or failed. Rests on the model's choices of log 3, 5, 30, 31, 75 and 77. Completes: proposeUpShift,
proposeDownMargin, proposeDownCsr, proposeDownBurst, proposeBudgetShift, holdoffExpiry, shiftReqRx, shiftAccRx, shiftRefRx,
shiftCancel, shiftCancelRx, shiftResponderCommit, shiftTxSwitch, shiftRxSwitch, shiftAcquireFail. -/
def Obligations.RateShifts : Prop :=
  (∀ (s : State) (p : Port), s.hub.chip.upAllowed p = true → s.hub.chip.shiftIdle p = true →
      s.hub.chip.on (F.TRK_STATUS_LINK_UP p) = true →
    s.hub.chip.get (F.TRK_STATUS_STEP p) < 5 →
    ∃ t, exec (.proposeUpShift p) s = .next t ∧ coreOnly s t ∧
      t.hub.chip.trk[p] = { s.hub.chip.trk[p] with own := some { phase := .decided, target := s.hub.chip.get (F.TRK_STATUS_STEP p) + 1, start := s.hub.chip.get (F.TRK_STATUS_STEP p), cause := 2, spanN := 0, spanM := 0, txDone := false, rxDone := false, failed := false } } ∧
      wordsKept [] s t) ∧
  (∀ (s : State) (p : Port) (a b : Int), s.hub.chip.laneLive p 0 = true →
    a - s.hub.chip.snrReq p (s.hub.chip.get (F.TRK_STATUS_STEP p)) < (s.hub.chip.get (F.TRK_GOV_CFG_DOWN_MARGIN p) : Int) →
      s.hub.chip.on (F.TRK_CTL_AUTO_DOWN p) = true → s.hub.chip.shiftIdle p = true →
    1 < s.hub.chip.get (F.TRK_STATUS_STEP p) → s.hub.chip.get (F.TRK_STATUS_STEP p) ≤ 5 →
    ∃ t, exec (.proposeDownMargin p a b) s = .next t ∧ coreOnly s t ∧
      t.hub.chip.trk[p] = { s.hub.chip.trk[p] with snrNow := #v[some a, some b], own := some { phase := .decided, target := s.hub.chip.downTarget p, start := s.hub.chip.get (F.TRK_STATUS_STEP p), cause := 3, spanN := 0, spanM := 0, txDone := false, rxDone := false, failed := false } } ∧
      t.hub.chip.get (laneMargin p 0) = marginCode (some (a - s.hub.chip.snrReq p (s.hub.chip.get (F.TRK_STATUS_STEP p)))) ∧
      t.hub.chip.get (laneMargin p 1) = marginCode (some (b - s.hub.chip.snrReq p (s.hub.chip.get (F.TRK_STATUS_STEP p)))) ∧
      wordsKept [(F.TRK_LANE_A p).off, (F.TRK_LANE_B p).off, (F.TRK_STATUS p).off] s t) ∧
  (∀ (s : State) (p : Port) (l : LaneId) (k n : Nat), s.hub.chip.laneLive p l = true → s.hub.chip.csrHigh p k n = true →
      s.hub.chip.on (F.TRK_CTL_AUTO_DOWN p) = true →
      s.hub.chip.shiftIdle p = true →
    1 < s.hub.chip.get (F.TRK_STATUS_STEP p) → s.hub.chip.get (F.TRK_STATUS_STEP p) ≤ 5 →
    ∃ t, exec (.proposeDownCsr p l k n) s = .next t ∧ coreOnly s t ∧
      t.hub.chip.trk[p] = { s.hub.chip.trk[p] with own := some { phase := .decided, target := s.hub.chip.downTarget p, start := s.hub.chip.get (F.TRK_STATUS_STEP p), cause := 4, spanN := 0, spanM := 0, txDone := false, rxDone := false, failed := false } } ∧
      wordsKept [(F.TRK_STATUS p).off] s t) ∧
  (∀ (s : State) (p : Port) (l : LaneId), s.hub.chip.laneLive p l = true → s.hub.chip.burstSeen p l = true →
    s.hub.chip.on (F.TRK_CTL_SINGLE_LANE_EN p) = false → s.hub.chip.shiftIdle p = true →
    1 < s.hub.chip.get (F.TRK_STATUS_STEP p) → s.hub.chip.get (F.TRK_STATUS_STEP p) ≤ 5 →
    ∃ t, exec (.proposeDownBurst p l) s = .next t ∧ coreOnly s t ∧ t.hub.chip.get (F.TRK_INT_STATUS_UNC_BURST p) = 1 ∧
      t.hub.chip.trk[p] = { s.hub.chip.trk[p] with own := some { phase := .decided, target := s.hub.chip.get (F.TRK_STATUS_STEP p) - 1, start := s.hub.chip.get (F.TRK_STATUS_STEP p), cause := 5, spanN := 0, spanM := 0, txDone := false, rxDone := false, failed := false } } ∧
      wordsKept [(F.TRK_INT_STATUS p).off, (F.TRK_STATUS p).off] s t) ∧
  (∀ (s : State) (p : Port), s.hub.chip.on (F.TRK_STATUS_LINK_UP p) = true → s.hub.chip.budgetDue p = true →
      s.hub.chip.shiftIdle p = true → s.hub.chip.trk[p].cmdTarget = none →
    1 ≤ s.hub.chip.get (F.TRK_STATUS_CAP_BUDGET p) →
      s.hub.chip.get (F.TRK_STATUS_CAP_BUDGET p) < s.hub.chip.get (F.TRK_STATUS_STEP p) →
    s.hub.chip.get (F.TRK_STATUS_CAP_BUDGET p) ≤ 5 → s.hub.chip.get (F.TRK_STATUS_STEP p) ≤ s.hub.chip.get (F.TRK_CTL_STEP_MAX p) →
      s.hub.chip.get (F.TRK_STATUS_STEP p) ≤ s.hub.chip.get (F.TRK_STATUS_PARTNER_CAP p) →
    ∃ t, exec (.proposeBudgetShift p) s = .next t ∧ coreOnly s t ∧
      t.hub.chip.trk[p] = { s.hub.chip.trk[p] with own := some { phase := .decided, target := s.hub.chip.get (F.TRK_STATUS_CAP_BUDGET p), start := s.hub.chip.get (F.TRK_STATUS_STEP p), cause := 6, spanN := 0, spanM := 0, txDone := false, rxDone := false, failed := false }, lastBudgetShift := some s.hub.chip.now } ∧ wordsKept [] s t) ∧
  (∀ (s : State) (p : Port), s.hub.chip.on (F.TRK_STATUS_LINK_UP p) = true → s.hub.chip.shiftIdle p = true →
      s.hub.chip.trk[p].cmdTarget = none → 1 ≤ s.hub.chip.stepCap p → s.hub.chip.stepCap p ≤ 5 →
    s.hub.chip.stepCap p < s.hub.chip.get (F.TRK_STATUS_STEP p) →
      s.hub.chip.get (F.TRK_STATUS_PARTNER_CAP p) < s.hub.chip.get (F.TRK_STATUS_STEP p) →
    ∃ t, exec (.proposeBudgetShift p) s = .next t ∧ coreOnly s t ∧
      t.hub.chip.trk[p] = { s.hub.chip.trk[p] with own := some { phase := .decided, target := s.hub.chip.stepCap p, start := s.hub.chip.get (F.TRK_STATUS_STEP p), cause := 1, spanN := 0, spanM := 0, txDone := false, rxDone := false, failed := false } } ∧ wordsKept [] s t) ∧
  (∀ (s : State) (p : Port) (k : BitVec 3),
    ∃ t, exec (.holdoffExpiry p k) s = .next t ∧ coreOnly s t ∧ (∀ h ∈ t.hub.chip.trk[p].holdoffs, h.step = k.toNat →
      s.hub.chip.now < h.until_ ∨ s.hub.chip.now < h.last + 600 * second) ∧
      wordsKept [(F.TRK_STATUS p).off] s t) ∧
  (∀ (s : State) (p : Port) (m : Marker), s.hub.chip.trk[p].lastMarker = some m → m.shOp = 1 → s.hub.chip.trk[p].own = none →
      s.hub.chip.trk[p].resp = none → s.hub.chip.trk[p].answered ≠ some (m.shSpan.toNat, m.shStep.toNat) →
    1 ≤ m.shStep.toNat → m.shStep.toNat ≤ 5 → s.hub.chip.refusal p m.shStep.toNat = none →
    ∃ t, exec (.shiftReqRx p) s = .next t ∧ coreOnly s t ∧
      t.hub.chip.trk[p].resp = some { target := m.shStep.toNat, start := s.hub.chip.get (F.TRK_STATUS_STEP p), spanM := spanAdd (s.hub.chip.get (F.TRK_SPAN p)) 5, peerN := m.shSpan.toNat, committed := false, txDone := false, rxDone := false, failed := false } ∧ wordsKept [] s t) ∧
  (∀ (s : State) (p : Port) (m : Marker) (r : Nat), s.hub.chip.trk[p].lastMarker = some m → m.shOp = 1 →
      s.hub.chip.trk[p].own = none → s.hub.chip.trk[p].answered ≠ some (m.shSpan.toNat, m.shStep.toNat) →
    1 ≤ m.shStep.toNat → m.shStep.toNat ≤ 5 →
    s.hub.chip.trk[p].resp = none → s.hub.chip.refusal p m.shStep.toNat = some r → r ≠ 4 →
    ∃ t, exec (.shiftReqRx p) s = .next t ∧ coreOnly s t ∧
      t.hub.chip.trk[p] = { s.hub.chip.trk[p] with
        answered := some (m.shSpan.toNat, m.shStep.toNat), refuse := some (r, m.shSpan.toNat, m.shStep.toNat) } ∧ wordsKept [] s t) ∧
  (∀ (s : State) (p : Port) (m : Marker) (o : Proposal), s.hub.chip.trk[p].lastMarker = some m → s.hub.chip.trk[p].own = some o →
      m.shOp = 2 →
    o.phase = .requested → m.shPeer.toNat = o.spanN → spanLe (spanSub o.spanN 2) (s.hub.chip.get (F.TRK_SPAN p)) = false →
    ∃ t, exec (.shiftAccRx p) s = .next t ∧ coreOnly s t ∧
      t.hub.chip.trk[p] = { s.hub.chip.trk[p] with own := some { o with phase := .committed, spanM := m.shSpan.toNat } } ∧
      t.hub.chip.get (F.TRK_STATUS_SHIFT_PENDING p) = 1 ∧ wordsKept [(F.TRK_STATUS p).off] s t) ∧
  (∀ (s : State) (p : Port) (m : Marker) (o : Proposal), s.hub.chip.trk[p].lastMarker = some m → s.hub.chip.trk[p].own = some o →
      m.shOp = 3 →
    o.phase = .requested → m.shPeer.toNat = o.spanN → qualityDown o = false →
      s.hub.chip.trk[p].limitDue = false → s.hub.chip.get (F.TRK_STATUS_STEP p) ≤ s.hub.chip.stepCap p →
    ∃ t, exec (.shiftRefRx p) s = .next t ∧ coreOnly s t ∧ t.hub.chip.trk[p] = { s.hub.chip.trk[p] with own := none } ∧
      t.hub.chip.get (F.TRK_SHIFT_STATUS_LAST_RESULT p) = 1 ∧
      t.hub.chip.get (F.TRK_SHIFT_STATUS_NAK_REASON p) = m.shReason.toNat % 8 ∧
      t.hub.chip.get (F.TRK_INT_STATUS_SHIFT_FAIL p) = 1) ∧
  (∀ (s : State) (p : Port) (o : Proposal), s.hub.chip.trk[p].own = some o → o.phase = .requested →
    spanLe (spanSub o.spanN 3) (s.hub.chip.get (F.TRK_SPAN p)) = true → qualityDown o = false →
    ∃ t, exec (.shiftCancel p) s = .next t ∧ coreOnly s t ∧
      t.hub.chip.trk[p] = { s.hub.chip.trk[p] with own := some { o with phase := .cancelling } } ∧
      t.hub.chip.get (F.TRK_SHIFT_STATUS_LAST_RESULT p) = 2 ∧ t.hub.chip.get (F.TRK_INT_STATUS_SHIFT_FAIL p) = 1) ∧
  (∀ (s : State) (p : Port) (m : Marker) (a : Acceptance), s.hub.chip.trk[p].lastMarker = some m →
      s.hub.chip.trk[p].resp = some a → m.shOp = 4 →
    a.committed = false → m.shPeer.toNat = a.peerN →
    ∃ t, exec (.shiftCancelRx p) s = .next t ∧ coreOnly s t ∧ t.hub.chip.trk[p] = { s.hub.chip.trk[p] with resp := none } ∧
      t.hub.chip.get (F.TRK_SHIFT_STATUS_LAST_RESULT p) = 2 ∧ t.hub.chip.get (F.TRK_INT_STATUS_SHIFT_FAIL p) = 1 ∧
      wordsKept [(F.TRK_SHIFT_STATUS p).off, (F.TRK_INT_STATUS p).off] s t) ∧
  (∀ (s : State) (p : Port) (a : Acceptance), s.hub.chip.trk[p].resp = some a → a.committed = false →
    spanLe (spanSub a.spanM 1) (s.hub.chip.get (F.TRK_SPAN p)) = true →
    ∃ t, exec (.shiftResponderCommit p) s = .next t ∧ coreOnly s t ∧
      t.hub.chip.trk[p] = { s.hub.chip.trk[p] with resp := some { a with committed := true } } ∧
      t.hub.chip.get (F.TRK_STATUS_SHIFT_PENDING p) = 1 ∧
      wordsKept [(F.TRK_STATUS p).off] s t) ∧
  (∀ (s : State) (p : Port) (o : Proposal), s.hub.chip.trk[p].own = some o → o.phase = .committed → o.txDone = false →
      o.rxDone = false → s.hub.chip.trk[p].resp = none → s.hub.chip.pcs[p].change = none →
    o.spanN = s.hub.chip.get (F.TRK_SPAN p) →
    ∃ t, exec (.shiftTxSwitch p) s = .next t ∧ coreOnly s t ∧
      t.hub.chip.trk[p] = { s.hub.chip.trk[p] with own := some { o with txDone := true } } ∧
      t.hub.chip.get (F.TRK_STATUS_STEP p) = o.target % 8 ∧
      ∀ l ∈ lanesOf s.hub.chip.trk[p].txLanes, Out.preamble p l.val o.target preambleLevels ∈ t.hub.chip.outbox) ∧
  (∀ (s : State) (p : Port) (o : Proposal) (d : Nat), s.hub.chip.trk[p].own = some o → o.phase = .committed → o.txDone = true →
    o.rxDone = false → o.failed = false → qualityDown o = false →
      s.hub.chip.trk[p].limitDue = false → s.hub.chip.get (F.TRK_STATUS_STEP p) ≤ s.hub.chip.stepCap p →
    ∃ t, exec (.shiftRxSwitch p d) s = .next t ∧ coreOnly s t ∧
      t.hub.chip.trk[p] = { s.hub.chip.trk[p].rxAt o.target with own := none, downFails := 0 } ∧
      t.hub.chip.get (F.TRK_SHIFT_STATUS_LAST_DISTURB p) = min (d / 8) 0xFFFF ∧
      t.hub.chip.get (F.TRK_SHIFT_STATUS_LAST_RESULT p) = 0 ∧
      t.hub.chip.get (F.TRK_SHIFT_STATUS_LAST_TO p) = o.target % 8 ∧ t.hub.chip.get (F.TRK_INT_STATUS_SHIFT_DONE p) = 1 ∧
      t.hub.chip.get (F.TRK_STATUS_SHIFT_PENDING p) = 0) ∧
  (∀ (s : State) (p : Port) (l : LaneId) (o : Proposal), s.hub.chip.on (F.TRK_STATUS_SHIFT_PENDING p) = true →
      s.hub.chip.laneLive p l = true → s.hub.chip.trk[p].own = some o → o.phase = .committed →
    s.hub.chip.on (F.TRK_CTL_SINGLE_LANE_EN p) = false →
    ∃ t, exec (.shiftAcquireFail p l) s = .next t ∧ coreOnly s t ∧ t.hub.chip.get (F.TRK_SHIFT_STATUS_LAST_RESULT p) = 5 ∧
      t.hub.chip.get (F.TRK_INT_STATUS_SHIFT_FAIL p) = 1 ∧ t.hub.chip.get (F.TRK_STATUS_LINK_UP p) = 0)

/-- The link layer sends and receives barges (03 R86 to R95, R97, R107). A barge taken from the crossbar takes LSEQ = NEXT
and waits in the replay buffer. A barge that arrives in order is accepted, one behind EXPECT is a duplicate, one that fails
its CRC is answered with a NAK, and failing again drops the link. A sealed barge in order is accepted when its tag holds
under the key that KPH selects, and counts in AUTH_FAIL when it does not (03 R89, 13 R422). While DP is off the link layer takes up to
64 blocks, unacknowledged, and no more (15 R456). Rests on the model's choices of
log 3, 6 and 10. Completes: linkBargeTx, linkBargeRx. -/
def Obligations.LinkBargesSentAndReceived : Prop :=
  (∀ (s : State) (p : Port) (x : TxBarge) (rest : List TxBarge), s.hub.chip.on (F.TRK_STATUS_LINK_UP p) = true →
      s.hub.chip.on (F.LNK_CTL_EN p) = true → s.hub.chip.lnk[p].txq = x :: rest → s.hub.chip.lnk[p].resend = [] →
      s.hub.chip.ageTicks x.desc < 13 → s.hub.chip.revoked x.desc = false →
    s.hub.chip.on (F.LNK_STATUS_ADMITTED p) = true ∨ x.barge.hdr.type.toNat = typeLctl →
      s.hub.chip.txHeld p = false → s.hub.chip.get (F.LNK_TXC p) < 0xFFFF_FFFE → s.hub.chip.pcs[p].change = none →
    s.hub.chip.sendsClear p = true ∨ (s.hub.chip.key.slot (txSlot p (s.hub.chip.get (F.LNK_EPOCH_EPOCH p)))).refuses p.val = false →
    s.hub.chip.lnk[p].replay.length < 2047 →
    (s.hub.chip.lnk[p].replay.map fun o => bargeSize o.barge).foldl (· + ·) 0 + bargeSize x.barge ≤ 2048 →
    ∃ t, exec (.linkBargeTx p) s = .next t ∧ coreOnly s t ∧
      t.hub.chip.lnk[p] = { s.hub.chip.lnk[p] with txq := rest, replay := s.hub.chip.lnk[p].replay ++ [{ lseq := s.hub.chip.get (F.LNK_STATUS_TX_NEXT p), barge := x.barge }] } ∧
      t.hub.chip.get (F.LNK_STATUS_TX_NEXT p) = (s.hub.chip.get (F.LNK_STATUS_TX_NEXT p) + 1) % 4096 ∧
      t.hub.chip.get (F.LNK_TXC p) = s.hub.chip.get (F.LNK_TXC p) + 1 ∧
      (s.hub.chip.sendsClear p = true → ∀ b ∈ dataBlocks x.barge.words, handedOut t p b) ∧
      wordsKept [(F.LNK_STATUS p).off, (F.LNK_TXC p).off, (F.LNK_RX p).off] s t) ∧
  (∀ (s : State) (p : Port) (x : TxBarge) (rest : List TxBarge), noSampling s.hub.chip → s.hub.chip.on (F.TRK_STATUS_LINK_UP p) = true →
      s.hub.chip.on (F.LNK_CTL_EN p) = true → s.hub.chip.lnk[p].txq = x :: rest → s.hub.chip.lnk[p].resend = [] →
      s.hub.chip.ageTicks x.desc < 13 → s.hub.chip.revoked x.desc = false →
    s.hub.chip.on (F.LNK_STATUS_ADMITTED p) = false → x.barge.hdr.type.toNat ≠ typeLctl →
    ∃ t, exec (.linkBargeTx p) s = .next t ∧ coreOnly s t ∧ t.hub.chip.lnk[p] = { s.hub.chip.lnk[p] with txq := rest } ∧
      t.hub.chip.outbox = s.hub.chip.outbox ∧
      t.hub.chip.get F.FAB_NO_ROUTE = (s.hub.chip.get F.FAB_NO_ROUTE + 1) % 2 ^ 32 ∧ wordsKept [F.FAB_NO_ROUTE.off] s t) ∧
  (∀ (s : State) (p : Port) (x : TxBarge) (rest : List TxBarge), noSampling s.hub.chip → s.hub.chip.lnk[p].txq = x :: rest →
      s.hub.chip.lnk[p].resend = [] → 13 ≤ s.hub.chip.ageTicks x.desc →
    ∃ t, exec (.linkBargeTx p) s = .next t ∧ coreOnly s t ∧ t.hub.chip.lnk[p] = { s.hub.chip.lnk[p] with txq := rest } ∧
      t.hub.chip.get F.FAB_AGE_DROP = (s.hub.chip.get F.FAB_AGE_DROP + 1) % 2 ^ 32 ∧ wordsKept [F.FAB_AGE_DROP.off] s t) ∧
  (∀ (s : State) (p : Port) (x : TxBarge) (rest : List TxBarge), s.hub.chip.on (F.TRK_STATUS_LINK_UP p) = true →
      s.hub.chip.on (F.LNK_CTL_EN p) = true → s.hub.chip.lnk[p].txq = x :: rest → s.hub.chip.lnk[p].resend = [] →
      s.hub.chip.ageTicks x.desc < 13 → s.hub.chip.revoked x.desc = false →
    s.hub.chip.on (F.LNK_STATUS_ADMITTED p) = true → s.hub.chip.on (F.LNK_STATUS_TX_HOLD p) = true →
    ∃ t, exec (.linkBargeTx p) s = .next t ∧ coreOnly s t ∧ t.hub.chip.lnk[p] = s.hub.chip.lnk[p] ∧
      t.hub.chip.outbox = s.hub.chip.outbox ∧ wordsKept [] s t) ∧
  (∀ (s : State) (p : Port) (x : TxBarge) (rest : List TxBarge), s.hub.chip.on (F.TRK_STATUS_LINK_UP p) = true →
      s.hub.chip.on (F.LNK_CTL_EN p) = true → s.hub.chip.lnk[p].txq = x :: rest → s.hub.chip.lnk[p].resend = [] →
      s.hub.chip.ageTicks x.desc < 13 → s.hub.chip.revoked x.desc = false →
    s.hub.chip.on (F.LNK_STATUS_ADMITTED p) = true → s.hub.chip.txHeld p = false → s.hub.chip.get (F.LNK_TXC p) = 0xFFFF_FFFE →
    s.hub.chip.sendsClear p = true ∨ (s.hub.chip.key.slot (txSlot p (s.hub.chip.get (F.LNK_EPOCH_EPOCH p)))).refuses p.val = false →
    s.hub.chip.lnk[p].replay.length < 2047 →
    (s.hub.chip.lnk[p].replay.map fun o => bargeSize o.barge).foldl (· + ·) 0 + bargeSize x.barge ≤ 2048 →
    ∃ t, exec (.linkBargeTx p) s = .next t ∧ coreOnly s t ∧ t.hub.chip.lnk[p].txq = rest ∧
      t.hub.chip.get (F.LNK_TXC p) = 0xFFFF_FFFF ∧ t.hub.chip.get (F.LNK_STATUS_TX_HOLD p) = 1 ∧
      t.hub.chip.get (F.LNK_INT_STATUS_TX_HOLD p) = 1) ∧
  (∀ (s : State) (p : Port) (blocks : List Block) (e : Block) (ws : List DpWord), s.hub.chip.on (F.TRK_STATUS_LINK_UP p) = true →
      s.hub.chip.on (F.LNK_CTL_EN p) = true → s.hub.chip.dpReady = true → bargeOf blocks = some (ws, e) → ws ≠ [] →
    bargeCrc ws e = e.extractLsb' 128 32 → e.getLsbD 228 = true →
      (e.extractLsb' 236 12).toNat = s.hub.chip.get (F.LNK_RX_EXPECT p) →
    s.hub.chip.lnk[p].naked = none → s.hub.chip.on (F.LNK_STATUS_ADMITTED p) = true →
      s.hub.chip.on (F.LNK_CTL_CIPHER_EN p) = false → s.hub.chip.pcs[p].change = none →
    headerValid (ws.headD 0#128) ((e.extractLsb' 230 6).toNat + 1) = true →
    ∃ t, exec (.linkBargeRx p blocks) s = .next t ∧ coreOnly s t ∧
      t.hub.chip.lnk[p].rxq = s.hub.chip.lnk[p].rxq ++ [Barge.ofWords ws] ∧
      t.hub.chip.get (F.LNK_RX_EXPECT p) = (s.hub.chip.get (F.LNK_RX_EXPECT p) + 1) % 4096 ∧ wordsKept [(F.LNK_RX p).off] s t) ∧
  (∀ (s : State) (p : Port) (blocks : List Block) (e : Block) (ws : List DpWord), s.hub.chip.on (F.TRK_STATUS_LINK_UP p) = true →
      s.hub.chip.on (F.LNK_CTL_EN p) = true → s.hub.chip.dpReady = true → bargeOf blocks = some (ws, e) →
    bargeCrc ws e ≠ e.extractLsb' 128 32 → (e.extractLsb' 236 12).toNat = s.hub.chip.get (F.LNK_RX_EXPECT p) →
    s.hub.chip.lnk[p].naked = none → s.hub.chip.lnk[p].nakAt = none → s.hub.chip.mooredPort p = false → s.hub.chip.pcs[p].change = none →
    ∃ t, exec (.linkBargeRx p blocks) s = .next t ∧ coreOnly s t ∧
      t.hub.chip.lnk[p] = { s.hub.chip.lnk[p] with nakAt := some s.hub.chip.now, naked := some (s.hub.chip.get (F.LNK_RX_EXPECT p), 1) } ∧
      handedOut t p (lnakBlock (s.hub.chip.get (F.LNK_RX_EXPECT p)) 1) ∧
      t.hub.chip.get (F.LNK_CRC_ERR p) = (s.hub.chip.get (F.LNK_CRC_ERR p) + 1) % 2 ^ 32 ∧
      t.hub.chip.get (F.LNK_NAK_TX p) = (s.hub.chip.get (F.LNK_NAK_TX p) + 1) % 2 ^ 32 ∧
      wordsKept [(F.LNK_CRC_ERR p).off, (F.LNK_NAK_TX p).off] s t) ∧
  (∀ (s : State) (p : Port) (blocks : List Block) (e : Block) (ws : List DpWord), s.hub.chip.on (F.TRK_STATUS_LINK_UP p) = true →
      s.hub.chip.on (F.LNK_CTL_EN p) = true → s.hub.chip.dpReady = true → bargeOf blocks = some (ws, e) →
    bargeCrc ws e ≠ e.extractLsb' 128 32 → (e.extractLsb' 236 12).toNat = s.hub.chip.get (F.LNK_RX_EXPECT p) →
    s.hub.chip.lnk[p].naked = some (s.hub.chip.get (F.LNK_RX_EXPECT p), 1) →
    ∃ t, exec (.linkBargeRx p blocks) s = .next t ∧ coreOnly s t ∧ t.hub.chip.get (F.LNK_INT_STATUS_REPLAY_FAIL p) = 1 ∧
      t.hub.chip.get (F.TRK_STATUS_LINK_UP p) = 0 ∧
      t.hub.chip.get (F.TRK_INT_STATUS_LINK_DOWN p) = 1 ∧ t.hub.chip.lnk[p].rxq = s.hub.chip.lnk[p].rxq) ∧
  (∀ (s : State) (p : Port) (blocks : List Block) (e : Block) (ws : List DpWord), s.hub.chip.on (F.TRK_STATUS_LINK_UP p) = true →
      s.hub.chip.on (F.LNK_CTL_EN p) = true → s.hub.chip.dpReady = true → bargeOf blocks = some (ws, e) → ws ≠ [] →
    bargeCrc ws e = e.extractLsb' 128 32 → e.getLsbD 228 = true →
    2048 ≤ ((e.extractLsb' 236 12).toNat + 4096 - s.hub.chip.get (F.LNK_RX_EXPECT p)) % 4096 →
    ∃ t, exec (.linkBargeRx p blocks) s = .next t ∧ coreOnly s t ∧
      t.hub.chip.lnk[p] = { s.hub.chip.lnk[p] with unacked := max s.hub.chip.lnk[p].unacked 1 } ∧
      t.hub.chip.get (F.LNK_DUP p) = (s.hub.chip.get (F.LNK_DUP p) + 1) % 2 ^ 32 ∧ wordsKept [(F.LNK_DUP p).off] s t) ∧
  (∀ (s : State) (p : Port) (blocks : List Block) (e : Block) (ws : List DpWord), s.hub.chip.on (F.TRK_STATUS_LINK_UP p) = true →
      s.hub.chip.on (F.LNK_CTL_EN p) = true → s.hub.chip.dpReady = false → bargeOf blocks = some (ws, e) → ws ≠ [] →
    bargeCrc ws e = e.extractLsb' 128 32 → e.getLsbD 228 = true →
      (e.extractLsb' 236 12).toNat = s.hub.chip.get (F.LNK_RX_EXPECT p) →
    ∃ t, exec (.linkBargeRx p blocks) s = .next t ∧ coreOnly s t ∧
      (if s.hub.chip.lnk[p].cold.foldl (· + ·) 0 + (dataOf blocks ++ [e]).length ≤ 64 then
        t.hub.chip.get (F.LNK_RX_EXPECT p) = (s.hub.chip.get (F.LNK_RX_EXPECT p) + 1) % 4096 ∧
        t.hub.chip.lnk[p].cold = s.hub.chip.lnk[p].cold ++ [(dataOf blocks ++ [e]).length] ∧
        t.hub.chip.lnk[p].unacked = s.hub.chip.lnk[p].unacked + 1 ∧ t.hub.chip.outbox = s.hub.chip.outbox
       else t.hub.chip.lnk = s.hub.chip.lnk ∧ t.hub.chip.outbox = s.hub.chip.outbox ∧ wordsKept [] s t)) ∧
  (∀ (s : State) (p : Port) (blocks : List Block) (e : Block) (ws : List DpWord), s.hub.chip.on (F.TRK_STATUS_LINK_UP p) = true →
      s.hub.chip.on (F.LNK_CTL_EN p) = true → s.hub.chip.dpReady = true → bargeOf blocks = some (ws, e) → ws ≠ [] →
    bargeCrc ws e = e.extractLsb' 128 32 → e.getLsbD 228 = false →
      (e.extractLsb' 236 12).toNat = s.hub.chip.get (F.LNK_RX_EXPECT p) →
    (s.hub.chip.key.slot (rxSlot p (e.extractLsb' 229 1).toNat)).opens p.val = true → s.hub.chip.get F.KEY_CTL_TAG_FAIL_LIMIT = 0 →
    ∃ t, exec (.linkBargeRx p blocks) s = .next t ∧ coreOnly s t ∧
      (match Config.gcmOpen (s.hub.chip.key.slot (rxSlot p (e.extractLsb' 229 1).toNat)).key
          (linkNonce (s.hub.chip.key.slot (rxSlot p (e.extractLsb' 229 1).toNat)).salt (s.hub.chip.key.slot (rxSlot p (e.extractLsb' 229 1).toNat)).version
            (e.extractLsb' 196 32).toNat) (endAad e) ws (e.extractLsb' 0 128) with
        | some _ => t.hub.chip.get (F.LNK_RX_EXPECT p) = (s.hub.chip.get (F.LNK_RX_EXPECT p) + 1) % 4096 ∧
            t.hub.chip.get (F.LNK_AUTH_FAIL p) = s.hub.chip.get (F.LNK_AUTH_FAIL p)
        | none => t.hub.chip.get (F.LNK_AUTH_FAIL p) = (s.hub.chip.get (F.LNK_AUTH_FAIL p) + 1) % 2 ^ 32 ∧
        t.hub.chip.get (F.LNK_INT_STATUS_AUTH_FAIL p) = 1))

/-- Acknowledgement and replay (03 R94 to R97, R100): a delayed LACK, which waits while DP is off (15 R456), a LACK and a NAK taken, a replay on timeout and the
second in succession, a control block that fails its CRC, and the end of an outstanding NAK. Rests on the model's choices of
log 3, 5, 10, 32 and 75. Completes: ackDelayExpiry, lackRx, lnakRx, replayTimeout, linkNakOutExpiry. -/
def Obligations.LinkReplay : Prop :=
  (∀ (s : State) (p : Port), s.hub.chip.on (F.TRK_STATUS_LINK_UP p) = true → s.hub.chip.on (F.LNK_CTL_EN p) = true →
      0 < s.hub.chip.lnk[p].unacked → s.hub.chip.mooredPort p = false → s.hub.chip.pcs[p].change = none →
    ∃ t, exec (.ackDelayExpiry p) s = .next t ∧ coreOnly s t ∧
      (if s.hub.chip.dpReady = true then t.hub.chip.lnk[p] = { s.hub.chip.lnk[p] with unacked := 0 } ∧
        handedOut t p (lackBlock ((s.hub.chip.get (F.LNK_RX_EXPECT p) + 4095) % 4096))
       else t.hub.chip.lnk[p] = s.hub.chip.lnk[p] ∧ t.hub.chip.outbox = s.hub.chip.outbox) ∧
      wordsKept [] s t) ∧
  (∀ (s : State) (p : Port) (b : Block) (a : Nat), s.hub.chip.on (F.TRK_STATUS_LINK_UP p) = true → crcHolds b = true →
      b.getLsbD 256 = true → btypeOf b = 0x11 →
    a = (b.extractLsb' 236 12).toNat → 1 ≤ (a + 4096 - s.hub.chip.get (F.LNK_STATUS_TX_ACKED p)) % 4096 →
    (a + 4096 - s.hub.chip.get (F.LNK_STATUS_TX_ACKED p)) % 4096 ≤
      (s.hub.chip.get (F.LNK_STATUS_TX_NEXT p) + 4095 + 4096 - s.hub.chip.get (F.LNK_STATUS_TX_ACKED p)) % 4096 →
    ∃ t, exec (.lackRx p b) s = .next t ∧ coreOnly s t ∧ t.hub.chip.get (F.LNK_STATUS_TX_ACKED p) = a ∧
      t.hub.chip.lnk[p] = { s.hub.chip.lnk[p] with expiries := 0, replay := s.hub.chip.lnk[p].replay.filter fun o => (a + 4096 - s.hub.chip.get (F.LNK_STATUS_TX_ACKED p)) % 4096 < (o.lseq + 4096 - s.hub.chip.get (F.LNK_STATUS_TX_ACKED p)) % 4096 } ∧
      wordsKept [(F.LNK_STATUS p).off, (F.LNK_RX p).off] s t) ∧
  (∀ (s : State) (p : Port) (b : Block), s.hub.chip.on (F.TRK_STATUS_LINK_UP p) = true → rxBlock b = .on → crcHolds b = false →
    ∃ t, exec (.lackRx p b) s = .next t ∧ coreOnly s t ∧ t.hub.chip.lnk = s.hub.chip.lnk ∧
      t.hub.chip.get (F.LNK_PROTO_ERR p) = (s.hub.chip.get (F.LNK_PROTO_ERR p) + 1) % 2 ^ 32 ∧
      t.hub.chip.get (F.LNK_INT_STATUS_PROTO p) = 1 ∧ wordsKept [(F.LNK_PROTO_ERR p).off, (F.LNK_INT_STATUS p).off] s t) ∧
  (∀ (s : State) (p : Port) (b : Block) (o : Outstanding), s.hub.chip.on (F.TRK_STATUS_LINK_UP p) = true → crcHolds b = true →
      b.getLsbD 256 = true → btypeOf b = 0x12 →
    o.lseq = (b.extractLsb' 236 12).toNat → s.hub.chip.lnk[p].replay = [o] →
      s.hub.chip.get (F.LNK_STATUS_TX_ACKED p) = (o.lseq + 4095) % 4096 →
    s.hub.chip.txHeld p = false → s.hub.chip.get (F.LNK_TXC p) < 0xFFFF_FFFE → s.hub.chip.pcs[p].change = none →
    s.hub.chip.sendsClear p = true ∨ (s.hub.chip.key.slot (txSlot p (s.hub.chip.get (F.LNK_EPOCH_EPOCH p)))).refuses p.val = false →
    ∃ t, exec (.lnakRx p b) s = .next t ∧ coreOnly s t ∧ t.hub.chip.lnk[p] = { s.hub.chip.lnk[p] with resend := [] } ∧
      t.hub.chip.get (F.LNK_REPLAY_TX p) = (s.hub.chip.get (F.LNK_REPLAY_TX p) + 1) % 2 ^ 32 ∧
      t.hub.chip.get (F.LNK_TXC p) = s.hub.chip.get (F.LNK_TXC p) + 1 ∧
      (s.hub.chip.sendsClear p = true → ∀ d ∈ dataBlocks o.barge.words, handedOut t p d) ∧
      wordsKept [(F.LNK_REPLAY_TX p).off, (F.LNK_TXC p).off] s t) ∧
  (∀ (s : State) (p : Port) (o : Outstanding), s.hub.chip.on (F.TRK_STATUS_LINK_UP p) = true → s.hub.chip.lnk[p].replay = [o] →
      s.hub.chip.lnk[p].expiries = 0 → s.hub.chip.txHeld p = false → s.hub.chip.get (F.LNK_TXC p) < 0xFFFF_FFFE →
      s.hub.chip.pcs[p].change = none →
    s.hub.chip.sendsClear p = true ∨ (s.hub.chip.key.slot (txSlot p (s.hub.chip.get (F.LNK_EPOCH_EPOCH p)))).refuses p.val = false →
    ∃ t, exec (.replayTimeout p) s = .next t ∧ coreOnly s t ∧ t.hub.chip.lnk[p] = { s.hub.chip.lnk[p] with expiries := 1, resend := [] } ∧
      t.hub.chip.get (F.LNK_REPLAY_TX p) = (s.hub.chip.get (F.LNK_REPLAY_TX p) + 1) % 2 ^ 32 ∧
      t.hub.chip.get (F.LNK_TXC p) = s.hub.chip.get (F.LNK_TXC p) + 1 ∧
      wordsKept [(F.LNK_REPLAY_TX p).off, (F.LNK_TXC p).off] s t) ∧
  (∀ (s : State) (p : Port), s.hub.chip.on (F.TRK_STATUS_LINK_UP p) = true → s.hub.chip.lnk[p].replay ≠ [] →
      1 ≤ s.hub.chip.lnk[p].expiries → s.hub.chip.mooredPort p = false →
    ∃ t, exec (.replayTimeout p) s = .next t ∧ coreOnly s t ∧ t.hub.chip.get (F.LNK_INT_STATUS_REPLAY_FAIL p) = 1 ∧
      t.hub.chip.get (F.TRK_STATUS_LINK_UP p) = 0 ∧ t.hub.chip.lnk[p].replay = [] ∧
      t.hub.chip.get (F.LNK_LOST_UNACKED p) = (s.hub.chip.get (F.LNK_LOST_UNACKED p) + (s.hub.chip.lnk[p].replay.length + s.hub.chip.lnk[p].txq.length)) % 2 ^ 32) ∧
  (∀ (s : State) (p : Port),
    ∃ t, exec (.linkNakOutExpiry p) s = .next t ∧ coreOnly s t ∧ t.hub.chip.lnk[p] = { s.hub.chip.lnk[p] with nakAt := none } ∧
      wordsKept [] s t)

/-- Heartbeats, delay probes and TICK blocks (03 R101 to R103; 04 R156, R159): a heartbeat names the hub and acknowledges,
one that arrives confirms the partner, missing ones drop the link; a probe's answer repeats DSEQ and gives the link's delay.
Key epochs (03 R104 to R107, 13 R421): a request derives the next key and schedules its change eight spans ahead; at the
last epoch barges are held; at the scheduled span the new epoch begins with TXC at 0. Rests on the model's choices of log 3,
5, 6, 10 and 32. Completes: heartbeatTx, heartbeatRx, heartbeatLoss, delayReqTx, delayReqRx, delayRespRx, tickRx,
epochRequest, epochChange. -/
def Obligations.LinkTimingAndKeyEpochs : Prop :=
  (∀ (s : State) (p : Port), s.hub.chip.on (F.TRK_STATUS_LINK_UP p) = true → s.hub.chip.on (F.LNK_CTL_EN p) = true →
      s.hub.chip.mooredPort p = false → s.hub.chip.pcs[p].change = none →
    ∃ t, exec (.heartbeatTx p) s = .next t ∧ coreOnly s t ∧
      t.hub.chip.lnk[p] = { s.hub.chip.lnk[p] with hbCount := (s.hub.chip.lnk[p].hbCount + 1) % 65536, unacked := if s.hub.chip.dpReady then 0 else s.hub.chip.lnk[p].unacked } ∧
      handedOut t p (Heartbeat.encode { hubId := BitVec.ofNat 10 (s.hub.chip.get F.FAB_ID_HUB_ID), idValid := s.hub.chip.on F.FAB_ID_ID_VALID, ackSeq := BitVec.ofNat 12 ((s.hub.chip.get (F.LNK_RX_EXPECT p) + 4095 + 4096 - (if s.hub.chip.dpReady then 0 else s.hub.chip.lnk[p].cold.length) % 4096) % 4096), lkState := BitVec.ofNat 3 (s.hub.chip.get F.LKP_STATUS_STATE), admitted := s.hub.chip.on (F.LNK_STATUS_ADMITTED p), level := BitVec.ofNat 3 (s.hub.chip.get F.BUD_STATUS_LEVEL), count := BitVec.ofNat 16 s.hub.chip.lnk[p].hbCount }) ∧ wordsKept [] s t) ∧
  (∀ (s : State) (p : Port) (b : Block), s.hub.chip.on (F.TRK_STATUS_LINK_UP p) = true → crcHolds b = true → b.getLsbD 256 = true →
      btypeOf b = 0x13 →
    (Heartbeat.decode b).idValid = true → s.hub.chip.ownId ≠ some (Heartbeat.decode b).hubId.toNat →
    ∃ t, exec (.heartbeatRx p b) s = .next t ∧ coreOnly s t ∧ t.hub.chip.get (F.LNK_STATUS_HB_OK p) = 1 ∧
      t.hub.chip.get (F.LNK_STATUS_PARTNER_LK p) = (Heartbeat.decode b).lkState.toNat ∧
      t.hub.chip.lnk[p].partnerId = some (Heartbeat.decode b).hubId.toNat ∧
      t.hub.chip.lnk[p].partnerLevel = (Heartbeat.decode b).level.toNat ∧
      wordsKept [(F.LNK_STATUS p).off, (F.LNK_RX p).off] s t) ∧
  (∀ (s : State) (p : Port) (b : Block), s.hub.chip.on (F.TRK_STATUS_LINK_UP p) = true → crcHolds b = true → b.getLsbD 256 = true →
      btypeOf b = 0x13 →
    (Heartbeat.decode b).idValid = true → s.hub.chip.ownId = some (Heartbeat.decode b).hubId.toNat →
      s.hub.chip.on F.FAB_STATUS_DUP = false →
    ∃ t, exec (.heartbeatRx p b) s = .next t ∧ coreOnly s t ∧ t.hub.chip.get F.FAB_STATUS_DUP = 1 ∧
      t.hub.chip.get F.FAB_STATUS_ISOLATED = 1 ∧ t.hub.chip.get F.FAB_INT_STATUS_DUP_ID = 1) ∧
  (∀ (s : State) (p : Port), s.hub.chip.on (F.TRK_STATUS_LINK_UP p) = true → s.hub.chip.mooredPort p = false →
    ∃ t, exec (.heartbeatLoss p) s = .next t ∧ coreOnly s t ∧ t.hub.chip.get (F.LNK_INT_STATUS_HB_LOSS p) = 1 ∧
      t.hub.chip.get (F.LNK_HB_MISS p) = (s.hub.chip.get (F.LNK_HB_MISS p) + 1) % 2 ^ 32 ∧
      t.hub.chip.get (F.TRK_STATUS_LINK_UP p) = 0 ∧ t.hub.chip.get (F.TRK_INT_STATUS_LINK_DOWN p) = 1) ∧
  (∀ (s : State) (p : Port), s.hub.chip.on (F.TRK_STATUS_LINK_UP p) = true → s.hub.chip.on (F.LNK_CTL_EN p) = true →
      s.hub.chip.mooredPort p = false → s.hub.chip.pcs[p].change = none →
    ∃ t, exec (.delayReqTx p) s = .next t ∧ coreOnly s t ∧
      handedOut t p (delayReqBlock s.hub.chip.lnk[p].dseq) ∧
      t.hub.chip.lnk[p] = { s.hub.chip.lnk[p] with dseq := (s.hub.chip.lnk[p].dseq + 1) % 256, delayReq := some (s.hub.chip.lnk[p].dseq, s.hub.chip.fabricTime) } ∧ wordsKept [] s t) ∧
  (∀ (s : State) (p : Port) (b : Block) (t2 t3 : BitVec 52), s.hub.chip.on (F.TRK_STATUS_LINK_UP p) = true → s.hub.chip.on (F.LNK_CTL_EN p) = true → crcHolds b = true →
      b.getLsbD 256 = true → btypeOf b = 0x15 → s.hub.chip.mooredPort p = false → s.hub.chip.pcs[p].change = none →
    ∃ t, exec (.delayReqRx p b t2 t3) s = .next t ∧ coreOnly s t ∧
      handedOut t p (delayRespBlock (b.extractLsb' 240 8).toNat t2 t3) ∧
      wordsKept [] s t) ∧
  (∀ (s : State) (p : Port) (b : Block) (t4 t1 : Nat), s.hub.chip.on (F.TRK_STATUS_LINK_UP p) = true → crcHolds b = true →
      b.getLsbD 256 = true → btypeOf b = 0x16 →
    s.hub.chip.lnk[p].delayReq = some ((b.extractLsb' 240 8).toNat, t1) → s.hub.chip.fab.delays[p].length < 5 →
    ∃ t, exec (.delayRespRx p b t4) s = .next t ∧ coreOnly s t ∧ t.hub.chip.lnk[p] = { s.hub.chip.lnk[p] with delayReq := none } ∧
      t.hub.chip.fab.delays[p].length = s.hub.chip.fab.delays[p].length + 1 ∧
      t.hub.chip.get (F.FAB_LINK_DLY_VALID p) = (decide (s.hub.chip.fab.delays[p].length = 4)).toNat ∧
      wordsKept [(F.FAB_LINK_DLY p).off] s t) ∧
  (∀ (s : State) (p : Port) (b : Block) (rx : Nat), s.hub.chip.on (F.TRK_STATUS_LINK_UP p) = true → crcHolds b = true →
      b.getLsbD 256 = true → btypeOf b = 0x14 →
    s.hub.chip.on (F.LNK_STATUS_ADMITTED p) = true → (TickBlock.decode b).locked = true → (TickBlock.decode b).hops.toNat ≤ 62 →
    ∃ t, exec (.tickRx p b rx) s = .next t ∧ coreOnly s t ∧
      t.hub.chip.fab.keys[p] = some { src := (TickBlock.decode b).src, id := (TickBlock.decode b).master.toNat, hops := (TickBlock.decode b).hops.toNat + 1 }) ∧
  (∀ (s : State) (p : Port) (aged : Bool), aged = true ∨ 0xF000_0000 ≤ s.hub.chip.get (F.LNK_TXC p) →
      s.hub.chip.on (F.LNK_EPOCH_KE_PEND p) = false →
    s.hub.chip.on (F.LNK_STATUS_ADMITTED p) = true → s.hub.chip.get (F.LNK_EPOCH_EPOCH p) ≠ 0xFF_FFFF →
      s.hub.chip.trk[p].own = none → s.hub.chip.trk[p].resp = none →
    ∃ t, exec (.epochRequest p aged) s = .next t ∧ coreOnly s t ∧ t.hub.chip.get (F.LNK_EPOCH_KE_PEND p) = 1 ∧
      t.hub.chip.get (F.LNK_KE_SPAN p) = spanAdd (s.hub.chip.get (F.TRK_SPAN p)) 8 ∧
      t.hub.chip.get (F.LNK_EPOCH_EPOCH p) = s.hub.chip.get (F.LNK_EPOCH_EPOCH p)) ∧
  (∀ (s : State) (p : Port), s.hub.chip.on (F.LNK_EPOCH_KE_PEND p) = false → s.hub.chip.on (F.LNK_STATUS_ADMITTED p) = true →
    s.hub.chip.get (F.LNK_EPOCH_EPOCH p) = 0xFF_FFFF → s.hub.chip.on F.KEY_STATUS_TAINT = false →
      s.hub.chip.on F.KEY_STATUS_ENTROPY_OK = true →
    ∃ t, exec (.epochRequest p true) s = .next t ∧ coreOnly s t ∧ t.hub.chip.get (F.LNK_STATUS_TX_HOLD p) = 1 ∧
      t.hub.chip.get (F.LNK_INT_STATUS_TX_HOLD p) = 1) ∧
  (∀ (s : State) (p : Port), s.hub.chip.on (F.LNK_EPOCH_KE_PEND p) = true →
      spanLe (s.hub.chip.get (F.LNK_KE_SPAN p)) (s.hub.chip.get (F.TRK_SPAN p)) = true → s.hub.chip.lnk[p].resend = [] →
      s.hub.chip.lnk[p].awaitsAdmission = false →
    ∃ t, exec (.epochChange p) s = .next t ∧ coreOnly s t ∧
      t.hub.chip.get (F.LNK_EPOCH_EPOCH p) = (s.hub.chip.get (F.LNK_EPOCH_EPOCH p) + 1) % 2 ^ 24 ∧
      t.hub.chip.get (F.LNK_EPOCH_KE_PEND p) = 0 ∧ t.hub.chip.get (F.LNK_KE_SPAN p) = 0 ∧ t.hub.chip.get (F.LNK_TXC p) = 0 ∧
      t.hub.chip.get (F.LNK_STATUS_TX_HOLD p) = 0 ∧ t.hub.chip.get (F.LNK_INT_STATUS_EPOCH_DONE p) = 1 ∧
      wordsKept [(F.LNK_EPOCH p).off, (F.LNK_KE_SPAN p).off, (F.LNK_TXC p).off, (F.LNK_STATUS p).off, (F.LNK_INT_STATUS p).off] s t)

/-- Fabric time and discovery (04 R121, R122, R156 to R160; 14 R445): a key lapses, the upstream port falls silent, the
host's start-of-frame comes and goes, a master is missed, and announcements go out and come in. Routability and route
notices (04 R149 to R154, R526): a port is lost, its notices go out and come in, they age, and the port is restored. Rests
on the model's choices of log 2, 5, 38 and 40. Completes: timeKeyLapse, upstreamTickTimeout, hostSofLock, hostSofBreak,
timeMasterAbsent, discoveryAnnounceTx, discoveryAnnounceRx, portRoutabilityLoss, routeNoticeTx, routeNoticeRx,
routeNoticeAgeExpiry, wtrExpiry, restoreNoticeRepeat. -/
def Obligations.TimeDiscoveryAndRing : Prop :=
  (∀ (s : State) (p : Port), ∃ t, exec (.timeKeyLapse p) s = .next t ∧ coreOnly s t ∧
      t.hub.chip.fab.keys = upd s.hub.chip.fab.keys p (fun _ => none) ∧
      wordsKept [F.FAB_TIME_STATUS.off, F.FAB_INT_STATUS.off] s t) ∧
  (∀ s : State, s.hub.chip.on F.FAB_TIME_STATUS_IS_MASTER = false → s.hub.chip.on F.FAB_TIME_STATUS_LOCKED = true →
    ∃ t, exec (.upstreamTickTimeout) s = .next t ∧ coreOnly s t ∧ t.hub.chip.get F.FAB_TIME_STATUS_LOCKED = 0 ∧
      t.hub.chip.get F.FAB_TIME_STATUS_HOLDOVER = 1 ∧
      t.hub.chip.get F.FAB_INT_STATUS_TIME_UNLOCK = 1 ∧ t.hub.chip.fab = { s.hub.chip.fab with syncTicks := 0 } ∧
      wordsKept [F.FAB_TIME_STATUS.off, F.FAB_INT_STATUS.off] s t) ∧
  (∀ (s : State) (x : SofSeen), ∃ t, exec (.hostSofLock x) s = .next t ∧ coreOnly s t ∧ t.hub.chip.fab.hostSof = true ∧
      (t.hub.chip.get F.FAB_TIME_STATUS_IS_MASTER = 1 ∧ t.hub.chip.get F.FAB_TIME_STATUS_MASTER_SRC = 1 →
      t.hub.chip.fab.sofLocked = true)) ∧
  (∀ s : State, ∃ t, exec (.hostSofBreak) s = .next t ∧ coreOnly s t ∧
      t.hub.chip.fab.hostSof = false ∧ t.hub.chip.fab.sofLocked = false ∧ t.hub.chip.fab.keys = s.hub.chip.fab.keys ∧
      wordsKept [F.FAB_TIME_STATUS.off, F.FAB_INT_STATUS.off] s t) ∧
  (∀ (s : State) (id hops : Nat), s.hub.chip.fab.followed = [(id, hops)] →
    (∀ p : Port, (s.hub.chip.fab.keys[p].map fun k => k.id) ≠ some id) →
    ∃ t, exec (.timeMasterAbsent) s = .next t ∧ coreOnly s t ∧ t.hub.chip.fab.followed = [] ∧
      t.hub.chip.get F.ALM_RAISED = (s.hub.chip.get F.ALM_RAISED + 1) % 2 ^ 32 ∧
      t.hub.chip.get F.ALM_INT_STATUS_RAISED = 1) ∧
  (∀ s : State, s.hub.chip.lkRun = true →
    ∃ t, exec (.discoveryAnnounceTx) s = .next t ∧ coreOnly s t ∧ t.hub.chip.fab.annSeq = (s.hub.chip.fab.annSeq + 1) % 65536 ∧
      t.hub.chip.swc.p8out.length = s.hub.chip.swc.p8out.length + s.hub.chip.admittedPorts.length ∧ wordsKept [] s t) ∧
  (∀ (s : State) (p : Port) (a : Announce), s.hub.chip.lkRun = true →
      (a.hub.toNat, a.serial.toNat, a.seq.toNat) ∉ s.hub.chip.fab.annSeen →
    s.hub.chip.ownId ≠ some a.hub.toNat ∨ s.hub.chip.serial = a.serial.toNat →
    ∃ t, exec (.discoveryAnnounceRx p a) s = .next t ∧ coreOnly s t ∧
      t.hub.chip.fab = { s.hub.chip.fab with annSeen := s.hub.chip.fab.annSeen ++ [(a.hub.toNat, a.serial.toNat, a.seq.toNat)] } ∧
      t.hub.chip.swc.p8out.length = s.hub.chip.swc.p8out.length + (s.hub.chip.admittedPorts.filter fun q => q != p).length ∧
      wordsKept [] s t) ∧
  (∀ (s : State) (p : Port) (a : Announce), s.hub.chip.lkRun = true →
      (a.hub.toNat, a.serial.toNat, a.seq.toNat) ∉ s.hub.chip.fab.annSeen →
    s.hub.chip.ownId = some a.hub.toNat → s.hub.chip.serial ≠ a.serial.toNat →
    ∃ t, exec (.discoveryAnnounceRx p a) s = .next t ∧ coreOnly s t ∧ t.hub.chip.get F.FAB_STATUS_DUP = 1 ∧
      t.hub.chip.get F.FAB_INT_STATUS_DUP_ID = 1) ∧
  (∀ (s : State) (p : Port), s.hub.chip.routable p = true →
    ∃ t, exec (.portRoutabilityLoss p) s = .next t ∧ coreOnly s t ∧ t.hub.chip.routable p = false ∧
      t.hub.chip.fab.walking[p] = some s.hub.chip.masks ∧ t.hub.chip.fab.ownLost[p] = true ∧ t.hub.chip.fab.hadLoss[p] = true ∧
      t.hub.chip.get F.FAB_INT_STATUS_PROTECT = 1) ∧
  (∀ (s : State) (p : Port), s.hub.chip.fab.ownLost[p] = true → s.hub.chip.ring.isSome = true →
      s.hub.chip.on F.FAB_ID_ID_VALID = true → s.hub.chip.get F.LKP_STATUS_STATE = 0 →
    ∃ t, exec (.routeNoticeTx p) s = .next t ∧ coreOnly s t ∧ t.hub.chip.swc.p8in.length = s.hub.chip.swc.p8in.length + 1) ∧
  (∀ (s : State) (p : Port) (b : Barge) (i : Nat), b.hdr.mcast = true → b.hdr.tunnel.toNat % 256 = 255 →
      b.hdr.type.toNat = typeAlarm →
    s.hub.chip.on F.FAB_ID_ID_VALID = true → b.hdr.src.toNat ≠ s.hub.chip.get F.FAB_ID_HUB_ID → s.hub.chip.ring.isSome = true →
    (b.hdr.tspec.extractLsb' 4 8).toNat = s.hub.chip.get F.FAB_RING_RING_ID → b.hdr.tspec.getLsbD 13 = false →
    i = (b.hdr.tspec.extractLsb' 14 6).toNat → (∀ q : Port, s.hub.chip.fab.ownLost[q] = false) →
    ∃ t, exec (.routeNoticeRx p b) s = .next t ∧ coreOnly s t ∧ t.hub.chip.bit (F.FAB_BROKEN (i / 32)) (i % 32) = b.hdr.tspec.getLsbD 12) ∧
  (∀ (s : State) (i : BitVec 6), (∀ q : Port, s.hub.chip.fab.ownLost[q] = false) → s.hub.chip.bit (F.FAB_BROKEN (i.toNat / 32)) (i.toNat % 32) = true →
    ∃ t, exec (.routeNoticeAgeExpiry false i) s = .next t ∧ coreOnly s t ∧ t.hub.chip.bit (F.FAB_BROKEN (i.toNat / 32)) (i.toNat % 32) = false ∧
      t.hub.chip.get F.FAB_INT_STATUS_RING_NOTICE = 1 ∧
      wordsKept [(F.FAB_BROKEN (i.toNat / 32)).off, F.FAB_INT_STATUS.off] s t) ∧
  (∀ (s : State) (p : Port), s.hub.chip.bit F.FAB_STATUS_WTR_RUN p.val = true →
    ∃ t, exec (.wtrExpiry p) s = .next t ∧ coreOnly s t ∧ t.hub.chip.routable p = true ∧
      t.hub.chip.bit F.FAB_STATUS_WTR_RUN p.val = false ∧ t.hub.chip.fab.hadLoss[p] = false ∧
      t.hub.chip.fab.ownLost[p] = false ∧ t.hub.chip.fab.restoreLeft[p] = (if s.hub.chip.ring.isSome then 2 else 0)) ∧
  (∀ (s : State) (p : Port), s.hub.chip.fab.restoreLeft[p] ≠ 0 →
    ∃ t, exec (.restoreNoticeRepeat p) s = .next t ∧ coreOnly s t ∧
      t.hub.chip.fab.restoreLeft[p] = s.hub.chip.fab.restoreLeft[p] - 1)

/-- Towpath frames in (03 R109 to R112, R115, R118, R119). A frame that fails its checks is counted and discarded; the
hardware answers HELLO, STATUS and RESET_SOFT; a request for the Lockkeeper fills the mailbox; a break resets the core cold,
or is ignored under its guard, but fails a swap whose GUARD is set (11 R363). Rests on the model's choices of log 5, 10, 32 and 81. Completes: towpathFrameRx, helloRx,
statusRequestRx, resetSoftRx, hardResetBreakRx, breakResetRelease, breakGuardExpiry. -/
def Obligations.TowpathFramesIn : Prop :=
  (∀ (s : State) (p : Port) (hdr : Word) (l : List Byte) (crc : BitVec 16), s.hub.chip.tpAlive p = true →
    crc16 (bitsOf hdr ++ bitsOfBytes l) ≠ crc ∨ 64 < tpLen hdr ∨ tpLen hdr ≠ l.length ∨ tpVer hdr ≠ 1 ∨ tpClass hdr = 0 →
    ∃ t, exec (.towpathFrameRx p hdr l crc) s = .next t ∧ coreOnly s t ∧ t.hub.chip.tp = s.hub.chip.tp ∧
      t.hub.chip.get (F.LNK_TP_CRC_ERR p) = (s.hub.chip.get (F.LNK_TP_CRC_ERR p) + 1) % 2 ^ 32 ∧
      wordsKept [(F.LNK_TP_CRC_ERR p).off] s t) ∧
  (∀ (s : State) (p : Port) (hdr : Word) (l : List Byte) (crc : BitVec 16), s.hub.chip.tpAlive p = true →
    crc16 (bitsOf hdr ++ bitsOfBytes l) = crc → tpLen hdr ≤ 64 → tpLen hdr = l.length → tpVer hdr = 1 → tpClass hdr = 9 →
    tpRsp hdr = false → tpRetry hdr = false →
    ∃ t, exec (.towpathFrameRx p hdr l crc) s = .next t ∧ t.pending = s.pending ∧
      t.hub.chip.get (F.LNK_TP_RX p) = (s.hub.chip.get (F.LNK_TP_RX p) + 1) % 2 ^ 32 ∧
      t.hub.chip.get (F.LNK_TP_STATUS_PARTNER_SEEN p) = 1 ∧ t.hub.chip.tp[p].txq.length = s.hub.chip.tp[p].txq.length + 1) ∧
  (∀ (s : State) (p : Port) (hdr : Word) (l : List Byte) (crc : BitVec 16), s.hub.chip.tpAlive p = true →
    crc16 (bitsOf hdr ++ bitsOfBytes l) = crc → tpLen hdr ≤ 64 → tpLen hdr = l.length → tpVer hdr = 1 → tpClass hdr = 0xC →
    tpRsp hdr = false → tpRetry hdr = false → s.hub.chip.tp[p].mailboxFull = false →
    ∃ t, exec (.towpathFrameRx p hdr l crc) s = .next t ∧ t.pending = s.pending ∧ t.hub.chip.tp[p].mailboxFull = true ∧
      t.hub.chip.get (F.LNK_TP_RXHDR p) = hdr.toNat ∧
      t.hub.chip.get (F.LNK_INT_STATUS_TP_RX p) = 1 ∧ t.hub.chip.tp[p].seenAt = s.hub.chip.now ∧
      (s.hub.chip.lkRun = true → t.hub.chip.tp[p].txq.length = s.hub.chip.tp[p].txq.length + 1)) ∧
  (∀ (s : State) (p : Port) (hdr : Word) (l : List Byte), s.hub.chip.tpAlive p = true → tpClass hdr = 1 → tpRsp hdr = false →
      tpRetry hdr = false → l.length = 16 →
    ∃ t, exec (.helloRx p hdr l) s = .next t ∧ t.pending = s.pending ∧
      t.hub.chip.tp[p].txq.length = s.hub.chip.tp[p].txq.length + 1 ∧ t.hub.chip.tp[p].partnerCaps = fieldAt l 10 1 ∧
      t.hub.chip.tp[p].partnerSerial = fieldAt l 0 8 ∧ t.hub.chip.get (F.LNK_TP_STATUS_PARTNER_LK p) = fieldAt l 11 1 % 8) ∧
  (∀ (s : State) (p : Port) (hdr : Word), s.hub.chip.tpAlive p = true → tpClass hdr = 9 → tpRsp hdr = false → tpRetry hdr = false →
    ∃ t, exec (.statusRequestRx p hdr) s = .next t ∧ t.pending = s.pending ∧ hvWordsKept [] s t ∧
      t.hub.chip.tp[p].txq = s.hub.chip.tp[p].txq ++
        [{ hdr := tpHeader 9 (tpSeq hdr) s.hub.statusPayload.length true false true, payload := s.hub.statusPayload }] ∧
      wordsKept [(F.LNK_TP_RX p).off, (F.LNK_TP_STATUS p).off] s t) ∧
  (∀ (s : State) (p : Port) (hdr : Word) (f : TpFrame), s.hub.chip.tpAlive p = true → tpClass hdr = 9 → tpRsp hdr = false →
      tpRetry hdr = true → s.hub.chip.tp[p].answers.find? (fun a => a.1 == 9 && a.2.1 == tpSeq hdr) = some (9, tpSeq hdr, f) →
    ∃ t, exec (.statusRequestRx p hdr) s = .next t ∧ t.pending = s.pending ∧ hvWordsKept [] s t ∧
      t.hub.chip.tp[p].txq = s.hub.chip.tp[p].txq ++ [f] ∧ t.hub.chip.tp[p].answers = s.hub.chip.tp[p].answers ∧
      wordsKept [(F.LNK_TP_RX p).off, (F.LNK_TP_STATUS p).off] s t) ∧
  (∀ (s : State) (p : Port) (hdr : Word) (l : List Byte), s.hub.chip.tpAlive p = true → tpClass hdr = 0xA → tpRsp hdr = false →
      tpRetry hdr = false → fieldAt l 0 1 = 0 →
    ∃ t, exec (.resetSoftRx p hdr l) s = .next t ∧ t.pending = s.pending ∧ hvWordsKept [] s t ∧
      t.hub.chip.get (F.LNK_INT_STATUS_TP_SOFT_RX p) = 1 ∧
      t.hub.chip.tp[p].requests = [] ∧ t.hub.chip.tp[p].nextSeq = 0 ∧
      t.hub.chip.tp[p].txq.length = (s.hub.chip.tp[p].txq.filter fun f => tpRsp f.hdr).length + 1 ∧
      wordsKept [(F.LNK_INT_STATUS p).off, (F.LNK_TP_RESULT p).off, (F.LNK_TP_STATUS p).off, (F.LNK_TP_RX p).off] s t) ∧
  (∀ (s : State) (p : Port), s.hub.chip.on (F.LNK_CTL_TP_EN p) = true → s.hub.chip.on (F.LNK_TP_STATUS_BREAK_GUARD p) = true →
      s.hub.chip.rst.active = none → s.hub.chip.pst.deep = false →
    ∃ t, exec (.hardResetBreakRx p true) s = .next t ∧ t.pending = s.pending ∧
      (if s.hub.hv.lockout = false ∧ s.hub.hv.on (F.TPW_P_STATUS_GUARD p) = true then
        t.hub.hv.on (F.TPW_P_STATUS_GUARD p) = false ∧ t.hub.hv.on F.TPW_INT_STATUS_SWAP_FAIL = true else coreOnly s t) ∧
      t.hub.chip.get (F.LNK_TP_BREAK_IGN p) = (s.hub.chip.get (F.LNK_TP_BREAK_IGN p) + 1) % 2 ^ 32 ∧
      t.hub.chip.get (F.LNK_INT_STATUS_TP_BREAK_IGNORED p) = 1 ∧
      t.hub.chip.rst = { s.hub.chip.rst with toneLeft := upd s.hub.chip.rst.toneLeft p fun _ => false } ∧
      wordsKept [(F.LNK_TP_BREAK_IGN p).off, (F.LNK_INT_STATUS p).off, (F.LNK_TP_STATUS p).off] s t) ∧
  (∀ (s : State) (p : Port), s.hub.chip.on (F.LNK_CTL_TP_EN p) = true → s.hub.chip.on (F.LNK_TP_STATUS_BREAK_GUARD p) = false →
      s.hub.chip.rst.active = none → s.hub.chip.pst.deep = false →
    ∃ t, exec (.hardResetBreakRx p true) s = .next t ∧ t.pending = s.pending ∧ t.hub.chip.rst.active = some .cold ∧
      t.hub.chip.rst.breakPort = some p.val ∧ t.hub.chip.get F.GLB_RESET_CAUSE = 2 ∧ t.hub.chip.jrn = []) ∧
  (∀ (s : State) (p : Port), s.hub.chip.rst.toneLeft[p] = true →
    ∃ t, exec (.hardResetBreakRx p false) s = .next t ∧ coreOnly s t ∧ t.hub.chip.rst = s.hub.chip.rst ∧ wordsKept [] s t) ∧
  (∀ (s : State) (p : Port) (toneEnded : Bool), s.hub.chip.rst.breakPort = some p.val →
    ∃ t, exec (.breakResetRelease p toneEnded) s = .next t ∧ coreOnly s t ∧
      t.hub.chip.rst = { s.hub.chip.rst with breakPort := none, toneLeft := upd s.hub.chip.rst.toneLeft p fun _ => !toneEnded } ∧
      t.hub.chip.get (F.LNK_TP_STATUS_BREAK_GUARD p) = 1 ∧ t.hub.chip.get (F.LNK_TP_STATUS_LINE_BUSY p) = (!toneEnded).toNat ∧
      wordsKept [(F.LNK_TP_STATUS p).off] s t) ∧
  (∀ (s : State) (p : Port), ∃ t, exec (.breakGuardExpiry p) s = .next t ∧ coreOnly s t ∧
      t.hub.chip.get (F.LNK_TP_STATUS_BREAK_GUARD p) = 0 ∧ t.hub.chip.tp = s.hub.chip.tp ∧
      wordsKept [(F.LNK_TP_STATUS p).off] s t)

/-- Towpath frames out (03 R110, R113, R114, R522). The head of the queue is sent with its CRC, or collides and backs off; a
request unanswered for 2 ms is resent, then escalated, and one that does not escalate ends with result 5. Rests on the
model's choices of log 2, 3, 5, 10, 32 and 81. Completes: towpathSend, towpathBackoffExpiry, helloTx, partnerSeenTimeout,
tpAnswerTimeout, tpRestartWaitExpiry, tpUnescalatedTimeout, tpEscalationStatusRx. -/
def Obligations.TowpathFramesOut : Prop :=
  (∀ (s : State) (p : Port) (f : TpFrame) (rest : List TpFrame), s.hub.chip.tpAlive p = true → s.hub.chip.tp[p].txq = f :: rest →
      s.hub.chip.tp[p].backoff = none →
    tpRsp f.hdr = false →
    ∃ t, exec (.towpathSend p false) s = .next t ∧ coreOnly s t ∧
      t.hub.chip.tp[p] = { s.hub.chip.tp[p] with txq := rest, collisions := 0 } ∧
      t.hub.chip.outbox = s.hub.chip.outbox ++ [Out.towpath p f.hdr f.payload (crc16 (bitsOf f.hdr ++ bitsOfBytes f.payload)) (tpLine f.hdr f.payload)] ∧
      t.hub.chip.get (F.LNK_TP_TX p) = (s.hub.chip.get (F.LNK_TP_TX p) + 1) % 2 ^ 32 ∧ wordsKept [(F.LNK_TP_TX p).off] s t) ∧
  (∀ (s : State) (p : Port) (f : TpFrame) (rest : List TpFrame), s.hub.chip.tpAlive p = true → s.hub.chip.tp[p].txq = f :: rest →
      s.hub.chip.tp[p].backoff = none →
    s.hub.chip.tp[p].collisions < 7 →
    ∃ t, exec (.towpathSend p true) s = .next t ∧ coreOnly s t ∧ t.hub.chip.outbox = s.hub.chip.outbox ∧
      t.hub.chip.tp[p].txq = s.hub.chip.tp[p].txq ∧ t.hub.chip.tp[p].collisions = s.hub.chip.tp[p].collisions + 1 ∧
      (∃ n, t.hub.chip.tp[p].backoff = some n ∧ n < 2 ^ min (s.hub.chip.tp[p].collisions + 1) 5) ∧
      t.hub.chip.get (F.LNK_TP_COLL p) = (s.hub.chip.get (F.LNK_TP_COLL p) + 1) % 2 ^ 32 ∧ wordsKept [(F.LNK_TP_COLL p).off] s t) ∧
  (∀ (s : State) (p : Port) (f : TpFrame) (rest : List TpFrame), s.hub.chip.tpAlive p = true → s.hub.chip.tp[p].txq = f :: rest →
      s.hub.chip.tp[p].backoff = none →
    s.hub.chip.tp[p].collisions = 7 → tpRsp f.hdr = true →
    ∃ t, exec (.towpathSend p true) s = .next t ∧ coreOnly s t ∧ t.hub.chip.outbox = s.hub.chip.outbox ∧
      t.hub.chip.tp[p] = { s.hub.chip.tp[p] with txq := rest, collisions := 0 } ∧
      t.hub.chip.get (F.LNK_TP_COLL p) = (s.hub.chip.get (F.LNK_TP_COLL p) + 1) % 2 ^ 32) ∧
  (∀ (s : State) (p : Port) (f : TpFrame) (rest : List TpFrame) (r : TpRequest), s.hub.chip.tpAlive p = true →
      s.hub.chip.tp[p].txq = f :: rest → s.hub.chip.tp[p].backoff = none → s.hub.chip.tp[p].collisions = 7 → tpRsp f.hdr = false →
      s.hub.chip.requestOf p (tpSeq f.hdr) = some r → r.stage = .retry2 → r.escalates = false → r.fw = true →
      s.hub.chip.get (F.LNK_TP_RESULT_SEQ p) = tpSeq r.frame.hdr →
    ∃ t, exec (.towpathSend p true) s = .next t ∧ coreOnly s t ∧ t.hub.chip.outbox = s.hub.chip.outbox ∧
      t.hub.chip.get (F.LNK_TP_RESULT_RESULT p) = 4 ∧ t.hub.chip.get (F.LNK_INT_STATUS_TP_DONE p) = 1 ∧
      wordsKept [(F.LNK_TP_COLL p).off, (F.LNK_TP_TIMEOUT p).off, (F.LNK_TP_RESULT p).off, (F.LNK_INT_STATUS p).off] s t) ∧
  (∀ (s : State) (p : Port), s.hub.chip.tpAlive p = true →
    ∃ t, exec (.towpathBackoffExpiry p) s = .next t ∧ coreOnly s t ∧ t.hub.chip.tp[p] = { s.hub.chip.tp[p] with backoff := none } ∧
      wordsKept [] s t) ∧
  (∀ (s : State) (p : Port), s.hub.chip.tpAlive p = true →
    ∃ t, exec (.helloTx p) s = .next t ∧ coreOnly s t ∧ t.hub.chip.tp[p].nextSeq = (s.hub.chip.tp[p].nextSeq + 1) % 256 ∧
      t.hub.chip.tp[p].txq.length = s.hub.chip.tp[p].txq.length + 1 ∧
      (∃ r, r ∈ t.hub.chip.tp[p].requests ∧ tpClass r.frame.hdr = 1 ∧ r.frame.payload = s.hub.helloPayload p) ∧ wordsKept [] s t) ∧
  (∀ (s : State) (p : Port), s.hub.chip.tpAlive p = true →
    ∃ t, exec (.partnerSeenTimeout p) s = .next t ∧ coreOnly s t ∧ t.hub.chip.get (F.LNK_TP_STATUS_PARTNER_SEEN p) = 0 ∧
      wordsKept [(F.LNK_TP_STATUS p).off] s t) ∧
  (∀ (s : State) (p : Port) (seq : Byte) (r : TpRequest), s.hub.chip.tpAlive p = true → s.hub.chip.requestOf p seq.toNat = some r →
      r.stage = .first → r.escalates = true → tpClass r.frame.hdr ≠ 1 →
    ∃ t, exec (.tpAnswerTimeout p seq) s = .next t ∧ coreOnly s t ∧
      t.hub.chip.tp[p].txq = s.hub.chip.tp[p].txq ++ [{ r.frame with hdr := tpResent r.frame.hdr }] ∧
      t.hub.chip.tp[p].requests = s.hub.chip.tp[p].requests.map (fun q => if q == r then { r with stage := .retry1 } else q) ∧
      t.hub.chip.get (F.LNK_TP_TIMEOUT p) = (s.hub.chip.get (F.LNK_TP_TIMEOUT p) + 1) % 2 ^ 32 ∧
      t.hub.chip.get (F.LNK_TP_STATUS_ESC_STAGE p) = 1 ∧
      wordsKept [(F.LNK_TP_TIMEOUT p).off, (F.LNK_TP_STATUS p).off] s t) ∧
  (∀ (s : State) (p : Port) (seq : Byte) (r : TpRequest), s.hub.chip.tpAlive p = true → s.hub.chip.requestOf p seq.toNat = some r →
      r.stage = .retry2 → r.escalates = true → tpClass r.frame.hdr ≠ 1 →
    ∃ t, exec (.tpAnswerTimeout p seq) s = .next t ∧ coreOnly s t ∧ t.hub.chip.get (F.LNK_TP_STATUS_ESC_STAGE p) = 2 ∧
      t.hub.chip.tp[p].nextSeq = (s.hub.chip.tp[p].nextSeq + 1) % 256 ∧
      t.hub.chip.tp[p].txq = s.hub.chip.tp[p].txq ++ [{ hdr := tpHeader 9 s.hub.chip.tp[p].nextSeq 0 false false true, payload := [] }]) ∧
  (∀ (s : State) (p : Port) (seq : Byte) (r : TpRequest), s.hub.chip.tpAlive p = true → s.hub.chip.requestOf p seq.toNat = some r →
      r.stage = .status2 → tpClass r.frame.hdr ≠ 1 → s.hub.chip.on (F.LNK_CTL_TP_AUTO_HARD p) = true →
    ∃ t, exec (.tpAnswerTimeout p seq) s = .next t ∧ t.pending = s.pending ∧ Out.hardBreak p ∈ t.hub.chip.outbox ∧
      t.hub.chip.tp[p].requests = [] ∧ t.hub.chip.get (F.LNK_TP_STATUS_ESC_STAGE p) = 6 ∧
      t.hub.chip.get (F.LNK_INT_STATUS_TP_ESCALATE p) = 1) ∧
  (∀ (s : State) (p : Port) (r : TpRequest), s.hub.chip.tpAlive p = true →
      s.hub.chip.tp[p].requests.find? (fun q => q.stage == .waitRestart) = some r →
    ∃ t, exec (.tpRestartWaitExpiry p) s = .next t ∧ coreOnly s t ∧ t.hub.chip.get (F.LNK_TP_STATUS_ESC_STAGE p) = 1 ∧
      t.hub.chip.tp[p].nextSeq = (s.hub.chip.tp[p].nextSeq + 1) % 256 ∧
      t.hub.chip.tp[p].txq.length = s.hub.chip.tp[p].txq.length + 1) ∧
  (∀ (s : State) (p : Port) (seq : Byte) (r : TpRequest), s.hub.chip.tpAlive p = true → s.hub.chip.requestOf p seq.toNat = some r →
      r.stage = .retry2 →
    r.escalates = false → r.fw = true → s.hub.chip.get (F.LNK_TP_RESULT_SEQ p) = tpSeq r.frame.hdr →
    ∃ t, exec (.tpUnescalatedTimeout p seq) s = .next t ∧ coreOnly s t ∧
      t.hub.chip.tp[p] = { s.hub.chip.tp[p] with requests := s.hub.chip.tp[p].requests.filter fun q => q != r } ∧
      t.hub.chip.get (F.LNK_TP_TIMEOUT p) = (s.hub.chip.get (F.LNK_TP_TIMEOUT p) + 1) % 2 ^ 32 ∧
      t.hub.chip.get (F.LNK_TP_RESULT_RESULT p) = 5 ∧
      t.hub.chip.get (F.LNK_INT_STATUS_TP_DONE p) = 1 ∧
      wordsKept [(F.LNK_TP_TIMEOUT p).off, (F.LNK_TP_RESULT p).off, (F.LNK_INT_STATUS p).off] s t) ∧
  (∀ (s : State) (p : Port) (hdr : Word) (l : List Byte) (r : TpRequest), s.hub.chip.tpAlive p = true → tpClass hdr = 9 →
      tpRsp hdr = true → l.length = 32 →
      (∀ q ∈ s.hub.chip.tp[p].requests, tpAnswers (tpClass q.frame.hdr) 9 = true → tpSeq q.frame.hdr ≠ tpSeq hdr) →
    s.hub.chip.tp[p].requests.find? (fun q => (q.stage == .status0 || q.stage == .status1 || q.stage == .status2) && q.escSeq == tpSeq hdr) = some r →
    fieldAt l 10 1 % 8 = 3 →
    ∃ t, exec (.tpEscalationStatusRx p hdr l) s = .next t ∧ t.pending = s.pending ∧ hvWordsKept [] s t ∧ t.hub.chip.get (F.LNK_TP_STATUS_PARTNER_LK p) = 3 ∧
      t.hub.chip.get (F.LNK_TP_STATUS_ESC_STAGE p) = 7 ∧
      t.hub.chip.get (F.LNK_INT_STATUS_PARTNER_HOLD p) = 1 ∧
      t.hub.chip.tp[p].requests = s.hub.chip.tp[p].requests.filter fun q => q != r) ∧
  (∀ (s : State) (p : Port) (hdr : Word) (l : List Byte) (r : TpRequest), s.hub.chip.tpAlive p = true → tpClass hdr = 9 →
      tpRsp hdr = true → l.length = 32 →
      (∀ q ∈ s.hub.chip.tp[p].requests, tpAnswers (tpClass q.frame.hdr) 9 = true → tpSeq q.frame.hdr ≠ tpSeq hdr) →
    s.hub.chip.tp[p].requests.find? (fun q => (q.stage == .status0 || q.stage == .status1 || q.stage == .status2) && q.escSeq == tpSeq hdr) = some r →
    fieldAt l 10 1 % 8 = 0 →
    ∃ t, exec (.tpEscalationStatusRx p hdr l) s = .next t ∧ t.pending = s.pending ∧ hvWordsKept [] s t ∧ t.hub.chip.get (F.LNK_TP_STATUS_ESC_STAGE p) = 4 ∧
      t.hub.chip.tp[p].txq = s.hub.chip.tp[p].txq ++ [{ hdr := tpHeader 0xA s.hub.chip.tp[p].nextSeq 1 false false true, payload := [0#8] }])

/-- The tunnel engine (04 R136 to R142): acknowledgements and SYNCs taken, SYNCs sent and repeated, a delayed
acknowledgement, the end of an outstanding NAK, and retransmission up to the retry limit. Rests on the model's choices of
log 3, 5, 12, 36, 58 and 84. Completes: tackRx, syncRx, syncTx, syncRepeat, tunnelAckDelayExpiry, tunnelNakOutExpiry,
treplayExpiry. -/
def Obligations.TunnelEngine : Prop :=
  (∀ (s : State) (b : Barge) (t : Nat), t = b.hdr.tunnel.toNat → b.hdr.type.toNat = typeTack →
      (s.hub.chip.tunEntry t).valid = true →
    (s.hub.chip.tunEntry t).peer = b.hdr.src.toNat → (s.hub.chip.tunEntry t).adapter ≠ 8 → (s.hub.chip.tunEntry t).mode = 2 →
      b.hdr.tspec.toNat / 2 ^ 28 = 0 →
    s.hub.chip.outstanding t b.hdr.tseq.toNat = true →
    ∃ u, exec (.tackRx b) s = .next u ∧ coreOnly s u ∧
      u.hub.chip.get (F.FAB_TSTATE0_TX_OLDEST t) = (b.hdr.tseq.toNat + 1) % 65536 ∧ u.hub.chip.get (F.FAB_TSTATE1_RETRIES t) = 0 ∧
      (u.hub.chip.tun t).outs = (s.hub.chip.tun t).outs.filter fun o =>
        (b.hdr.tseq.toNat + 65536 - s.hub.chip.get (F.FAB_TSTATE0_TX_OLDEST t)) % 65536 < (o.1 + 65536 - s.hub.chip.get (F.FAB_TSTATE0_TX_OLDEST t)) % 65536) ∧
  (∀ (s : State) (b : Barge) (t : Nat), t = b.hdr.tunnel.toNat → b.hdr.type.toNat = typeTack →
      (s.hub.chip.tunEntry t).valid = true →
    (s.hub.chip.tunEntry t).peer = b.hdr.src.toNat → (s.hub.chip.tunEntry t).adapter ≠ 8 → b.hdr.tspec.toNat / 2 ^ 28 = 0 →
    (s.hub.chip.tunEntry t).mode ≠ 2 ∨ s.hub.chip.outstanding t b.hdr.tseq.toNat = false →
    ∃ u, exec (.tackRx b) s = .next u ∧ coreOnly s u ∧ u.hub.chip.fab = s.hub.chip.fab ∧ u.hub.chip.swc = s.hub.chip.swc ∧
      u.hub.chip.get F.FAB_TUN_LATE_ACK = (s.hub.chip.get F.FAB_TUN_LATE_ACK + 1) % 2 ^ 32 ∧
      wordsKept [F.FAB_TUN_LATE_ACK.off] s u) ∧
  (∀ (s : State) (b : Barge) (t : Nat), t = b.hdr.tunnel.toNat → b.hdr.type.toNat = typeTack →
      (s.hub.chip.tunEntry t).valid = true →
    (s.hub.chip.tunEntry t).peer = b.hdr.src.toNat → (s.hub.chip.tunEntry t).adapter ≠ 8 → (s.hub.chip.tunEntry t).mode = 2 →
      b.hdr.tspec.toNat / 2 ^ 28 = 3 →
    ∃ u, exec (.tackRx b) s = .next u ∧ coreOnly s u ∧ u.hub.chip.get (F.FAB_TSTATE1_TX_SYNCED t) = 0 ∧
      u.hub.chip.fab = s.hub.chip.fab ∧ u.hub.chip.swc = s.hub.chip.swc ∧ wordsKept [(F.FAB_TSTATE1 t).off] s u) ∧
  (∀ (s : State) (b : Barge) (t : Nat), t = b.hdr.tunnel.toNat → b.hdr.type.toNat = typeTack →
      (s.hub.chip.tunEntry t).valid = true →
    (s.hub.chip.tunEntry t).peer ≠ b.hdr.src.toNat → (s.hub.chip.tunEntry t).mcast = false → noSampling s.hub.chip →
    ∃ u, exec (.tackRx b) s = .next u ∧ registersOnly s u ∧
      u.hub.chip.get F.FAB_NO_TUNNEL = (s.hub.chip.get F.FAB_NO_TUNNEL + 1) % 2 ^ 32 ∧ wordsKept [F.FAB_NO_TUNNEL.off] s u) ∧
  (∀ (s : State) (b : Barge) (t : Nat), t = b.hdr.tunnel.toNat → b.hdr.type.toNat = typeTack →
      (s.hub.chip.tunEntry t).valid = true →
    (s.hub.chip.tunEntry t).peer = b.hdr.src.toNat → (s.hub.chip.tunEntry t).adapter ≠ 8 → (s.hub.chip.tunEntry t).mode = 1 →
      b.hdr.tspec.toNat / 2 ^ 28 = 4 →
    ∃ u, exec (.syncRx b) s = .next u ∧ coreOnly s u ∧ u.hub.chip.get (F.FAB_TSTATE1_RX_EXPECT t) = b.hdr.tseq.toNat ∧
      u.hub.chip.get (F.FAB_TSTATE1_RX_SYNCED t) = 1 ∧
      (s.hub.chip.on (F.FAB_TSTATE1_RX_SYNCED t) = true → s.hub.chip.get (F.FAB_TSTATE1_RX_EXPECT t) = b.hdr.tseq.toNat →
        registersOnly s u ∧ wordsKept [] s u)) ∧
  (∀ (s : State) (n : BitVec 12), (s.hub.chip.tunEntry n.toNat).valid = true → (s.hub.chip.tunEntry n.toNat).mode = 1 →
    s.hub.chip.on (F.FAB_TSTATE1_TX_SYNCED n.toNat) = false →
    ∃ u, exec (.syncTx n) s = .next u ∧ coreOnly s u ∧ u.hub.chip.get (F.FAB_TSTATE1_TX_SYNCED n.toNat) = 1 ∧
      (u.hub.chip.tun n.toNat).syncs = 1 ∧
      (u.hub.chip.tun n.toNat).syncSeq = some (s.hub.chip.get (F.FAB_TSTATE0_TX_NEXT n.toNat))) ∧
  (∀ (s : State) (n : BitVec 12), (s.hub.chip.tunEntry n.toNat).valid = true → (s.hub.chip.tunEntry n.toNat).mode = 2 →
    s.hub.chip.on (F.FAB_TSTATE1_TX_SYNCED n.toNat) = false →
    ∃ u, exec (.syncRepeat n) s = .next u ∧ coreOnly s u ∧ (u.hub.chip.tun n.toNat).syncs = (s.hub.chip.tun n.toNat).syncs + 1 ∧
      (u.hub.chip.tun n.toNat).syncSeq = some (s.hub.chip.get (F.FAB_TSTATE0_TX_OLDEST n.toNat))) ∧
  (∀ (s : State) (n : BitVec 12) (e : TunEntry), e = s.hub.chip.tunEntry n.toNat → e.mode = 2 → (s.hub.chip.tun n.toNat).sinceAck ≠ 0 →
      s.hub.chip.on F.FAB_STATUS_ISOLATED = false → e.valid = true → e.adapter ≠ 8 → s.hub.chip.ownId = some e.peer →
      (s.hub.chip.tunEntry e.peerTun).valid = true → (s.hub.chip.tunEntry e.peerTun).adapter ≠ 8 → s.hub.chip.heldAt e.adapter = none → noSampling s.hub.chip → roomFor s.hub.chip e.adapter 1 →
    ∃ u, exec (.tunnelAckDelayExpiry n) s = .next u ∧ coreOnly s u ∧ (u.hub.chip.tun n.toNat).sinceAck = 0 ∧
      u.hub.chip.swc.voqs = s.hub.chip.swc.voqs ++
        [{ s.hub.chip.desc e.adapter (s.hub.chip.tunEntry e.peerTun).adapter (s.hub.chip.get F.FAB_CFG_TACK_QUEUE) 63 with
          tun := some (e.peerTun, (s.hub.chip.tunEntry e.peerTun).gen), sid := s.hub.chip.swc.nextSid }]) ∧
  (∀ (s : State) (n : BitVec 12),
    ∃ u, exec (.tunnelNakOutExpiry n) s = .next u ∧ coreOnly s u ∧ (u.hub.chip.tun n.toNat).nakOut = false ∧
      (u.hub.chip.tun n.toNat).oowAt = (s.hub.chip.tun n.toNat).oowAt ∧
      (u.hub.chip.tun n.toNat).outs = (s.hub.chip.tun n.toNat).outs ∧ wordsKept [] s u) ∧
  (∀ (s : State) (n : BitVec 12), (s.hub.chip.tunEntry n.toNat).mode = 2 →
    s.hub.chip.get (F.FAB_TSTATE0_TX_NEXT n.toNat) ≠ s.hub.chip.get (F.FAB_TSTATE0_TX_OLDEST n.toNat) →
    s.hub.chip.get (F.FAB_TSTATE1_RETRIES n.toNat) + 1 < max 1 (s.hub.chip.get F.FAB_CFG_TUN_RETRY_MAX) →
    ∃ u, exec (.treplayExpiry n) s = .next u ∧ coreOnly s u ∧
      u.hub.chip.get (F.FAB_TSTATE1_RETRIES n.toNat) = (s.hub.chip.get (F.FAB_TSTATE1_RETRIES n.toNat) + 1) % 2 ^ (F.FAB_TSTATE1_RETRIES n.toNat).width ∧
      (u.hub.chip.tun n.toNat).outs = (s.hub.chip.tun n.toNat).outs ∧
      ((s.hub.chip.tun n.toNat).outs = [] ∨ s.hub.chip.on F.FAB_STATUS_ISOLATED = true → u.hub.chip.swc = s.hub.chip.swc ∧
        wordsKept [(F.FAB_TSTATE1 n.toNat).off] s u)) ∧
  (∀ (s : State) (n : BitVec 12), (s.hub.chip.tunEntry n.toNat).mode = 2 →
    s.hub.chip.get (F.FAB_TSTATE0_TX_NEXT n.toNat) ≠ s.hub.chip.get (F.FAB_TSTATE0_TX_OLDEST n.toNat) →
    max 1 (s.hub.chip.get F.FAB_CFG_TUN_RETRY_MAX) ≤ s.hub.chip.get (F.FAB_TSTATE1_RETRIES n.toNat) + 1 →
    ∃ u, exec (.treplayExpiry n) s = .next u ∧ coreOnly s u ∧ u.hub.chip.get (F.FAB_TSTATE1_STALLED n.toNat) = 1 ∧
      u.hub.chip.get (F.FAB_TSTATE1_TX_SYNCED n.toNat) = 0 ∧
      u.hub.chip.get (F.FAB_TSTATE0_TX_OLDEST n.toNat) = s.hub.chip.get (F.FAB_TSTATE0_TX_NEXT n.toNat) ∧
      (u.hub.chip.tun n.toNat).outs = [] ∧
      u.hub.chip.get F.FAB_INT_STATUS_TUN_STALL = 1)

/-- Lookup places barges in the queues (04 R131 to R133; 05 R171, R173, R179; 06 R204). With room in the ingress port's
reserve, RED off and no sampling, a barge that lookup places is stored once and queued at its egress; a held barge is
offered again; and a loopback barge comes back in as one of an adapter. The queues empty (05 R169, R170, R182 to R184; 04
R130, R155). The crossbar carries the one queued barge to its link; a head 13 ticks old is dropped; and the walk at a trunk
loss moves a barge to its new egress and ends. Rests on the model's choices of log 2, 33, 34, 35, 37 and 85. Completes:
trunkIngressLookup, adapterIngressLookup, lockkeeperBargeIngress, admissionRetry, weirHoldRetry, loopbackBarge,
crossbarGrant, ageSweep, voqWalkDone. -/
def Obligations.BargesEnterAndLeaveQueues : Prop :=
  (∀ (s : State) (p : Port) (b : Barge), s.hub.chip.lnk[p].rxq = [] → b.hdr.type.toNat = typeLctl → noSampling s.hub.chip →
      roomFor s.hub.chip p.val (bargeCells b) →
    ∃ t, exec (.trunkIngressLookup p (some b)) s = .next t ∧ coreOnly s t ∧ t.hub.chip.lnk[p].rxq = [] ∧
      t.hub.chip.swc.voqs = s.hub.chip.swc.voqs ++
        [{ s.hub.chip.desc p.val 8 b.hdr.queue.toNat b.hdr.hops.toNat with sid := s.hub.chip.swc.nextSid }] ∧
      (∃ place : List Nat, place.length = bargeCells b ∧ t.hub.chip.swc.store = s.hub.chip.swc.store ++
        [{ sid := s.hub.chip.swc.nextSid, barge := b, inPort := p.val, cells := bargeCells b, place := place, refs := 1, retained := none, ctrl := isCtrl b.hdr }]) ∧
      t.hub.chip.get (F.SWC_ADMIT p.val) = (s.hub.chip.get (F.SWC_ADMIT p.val) + 1) % 2 ^ 32) ∧
  (∀ (s : State) (p : Port) (b : Barge) (out : Nat), s.hub.chip.lnk[p].rxq = [] → b.hdr.type.toNat ≠ typeLctl →
      b.hdr.mcast = false →
    s.hub.chip.on F.FAB_ID_ID_VALID = true → s.hub.chip.isolated = false → b.hdr.dst.toNat ≠ s.hub.chip.get F.FAB_ID_HUB_ID →
      b.hdr.hops ≠ 0 →
    (s.hub.chip.routeTo b.hdr.dst.toNat).egress = some out → s.hub.chip.mustWait b.hdr.dst.toNat = false → out ≠ p.val →
    noSampling s.hub.chip → roomFor s.hub.chip p.val (bargeCells b) →
    ∃ t, exec (.trunkIngressLookup p (some b)) s = .next t ∧ coreOnly s t ∧ t.hub.chip.lnk[p].rxq = [] ∧
      t.hub.chip.swc.voqs = s.hub.chip.swc.voqs ++
        [{ s.hub.chip.desc p.val out b.hdr.queue.toNat (b.hdr.hops - 1).toNat with sid := s.hub.chip.swc.nextSid, route := some (b.hdr.dst.toNat, (s.hub.chip.routeTo b.hdr.dst.toNat).gen) }]) ∧
  (∀ (s : State) (o : Offer) (out : Nat), s.hub.chip.swc.offers.toList.getD 3 [] = [] → s.hub.chip.heldAt 3 = none →
      o.flood = none →
    s.hub.chip.on F.FAB_ID_ID_VALID = true → s.hub.chip.isolated = false → (s.hub.chip.tunEntry o.tunnel.toNat).valid = true →
    (s.hub.chip.tunEntry o.tunnel.toNat).mode = 0 → (s.hub.chip.tunEntry o.tunnel.toNat).mcast = false →
    s.hub.chip.ownId ≠ some (s.hub.chip.tunEntry o.tunnel.toNat).peer →
      (s.hub.chip.routeTo (s.hub.chip.tunEntry o.tunnel.toNat).peer).egress = some out →
    s.hub.chip.mustWait (s.hub.chip.tunEntry o.tunnel.toNat).peer = false →
      s.hub.chip.on (F.SCH_WEIR0_EN (s.hub.chip.tunEntry o.tunnel.toNat).weir) = false →
    noSampling s.hub.chip → roomFor s.hub.chip 3 ((bargeWords o.payload.length + 15) / 16) → o.payload.length < 1024 →
    ∃ t, exec (.adapterIngressLookup 3 (some o)) s = .next t ∧ coreOnly s t ∧
      t.hub.chip.swc.voqs.length = s.hub.chip.swc.voqs.length + 1 ∧
      t.hub.chip.get (F.FAB_TSTATE0_TX_NEXT o.tunnel.toNat) = (s.hub.chip.get (F.FAB_TSTATE0_TX_NEXT o.tunnel.toNat) + 1) % 65536 ∧
      t.hub.chip.get (F.SWC_ADMIT 3) = (s.hub.chip.get (F.SWC_ADMIT 3) + 1) % 2 ^ 32) ∧
  (∀ (s : State) (b : Barge) (p : Port), s.hub.chip.swc.p8out = [] → s.hub.chip.heldAt 8 = none → b.hdr.type.toNat = typeLctl →
      s.hub.chip.on (F.TRK_STATUS_LINK_UP p) = true → noSampling s.hub.chip →
    roomFor s.hub.chip 8 (bargeCells b) →
    ∃ t, exec (.lockkeeperBargeIngress (some (b, some p))) s = .next t ∧ coreOnly s t ∧ t.hub.chip.swc.p8out = [] ∧
      t.hub.chip.swc.voqs = s.hub.chip.swc.voqs ++
      [{ s.hub.chip.desc 8 p.val b.hdr.queue.toNat b.hdr.hops.toNat with sid := s.hub.chip.swc.nextSid }]) ∧
  (∀ (s : State) (port : DPort) (x : HeldBarge) (d : Desc), s.hub.chip.heldAt port.val = some x → x.red = false → x.copies = [d] →
    s.hub.chip.swc.later = [] → d.inPort = port.val → x.retain = none → roomFor s.hub.chip port.val (bargeCells x.barge) →
    ∃ t, exec (.admissionRetry port) s = .next t ∧ coreOnly s t ∧ t.hub.chip.heldAt port.val = none ∧
      t.hub.chip.swc.voqs = s.hub.chip.swc.voqs ++ [{ s.hub.chip.restamp d with sid := s.hub.chip.swc.nextSid }]) ∧
  (∀ (s : State) (port : DPort) (x : HeldBarge) (d : Desc) (t : Nat), s.hub.chip.heldAt port.val = some x → x.red = true →
      x.copies = [d] →
    s.hub.chip.swc.later = [] → d.inPort = port.val → x.retain = some t → s.hub.chip.on (F.SCH_WEIR0_EN (d.weir.getD 0)) = false →
      s.hub.chip.outstanding t x.barge.hdr.tseq.toNat = true →
      noSampling s.hub.chip →
    s.hub.chip.retainFull port.val (bargeCells x.barge) = false → roomFor s.hub.chip port.val (bargeCells x.barge) →
    ∃ u, exec (.weirHoldRetry port) s = .next u ∧ coreOnly s u ∧ u.hub.chip.heldAt port.val = none ∧
      u.hub.chip.swc.voqs.length = s.hub.chip.swc.voqs.length + 1 ∧
      (u.hub.chip.tun t).outs = (s.hub.chip.tun t).outs ++ [(x.barge.hdr.tseq.toNat, s.hub.chip.swc.nextSid)]) ∧
  (∀ (s : State) (ch : Nat) (b : Barge) (rest : List (Nat × Barge)), s.hub.chip.swc.p9in = (ch, b) :: rest → ch ≤ 15 →
    s.hub.chip.on (F.SWC_LOOP_CH_EN ch) = true →
    ∃ t, exec (.loopbackBarge) s = .next t ∧ coreOnly s t ∧ t.hub.chip.swc.p9in = rest ∧
      exec (.adapterIngressLookup 9 (some { tunnel := BitVec.ofNat 12 (s.hub.chip.get (F.SWC_LOOP_CH_TUNNEL ch)), colour := 0, first := b.hdr.first, last := b.hdr.last, tspec := b.hdr.tspec, payload := b.payload, flood := none }))
        { s with hub := { s.hub with chip := s.hub.chip.modSwc fun w => { w with p9in := rest } } } = .next t) ∧
  (∀ (s : State) (ch : Nat) (b : Barge) (rest : List (Nat × Barge)), s.hub.chip.swc.p9in = (ch, b) :: rest →
    15 < ch ∨ s.hub.chip.on (F.SWC_LOOP_CH_EN ch) = false → noSampling s.hub.chip →
    ∃ t, exec (.loopbackBarge) s = .next t ∧ coreOnly s t ∧ t.hub.chip.swc = { s.hub.chip.swc with p9in := rest } ∧
      t.hub.chip.get F.SWC_LOOP_DROP = (s.hub.chip.get F.SWC_LOOP_DROP + 1) % 2 ^ 32 ∧
      wordsKept [F.SWC_LOOP_DROP.off] s t) ∧
  (∀ (s : State) (p : Port) (d : Desc) (x : Stored), s.hub.chip.swc.voqs = [d] → s.hub.chip.swc.store = [x] → d.sid = x.sid →
      d.outPort = p.val → d.inPort ≤ 9 → s.hub.chip.started = true →
    x.refs = 1 → x.retained = none → s.hub.chip.selectQueue p.val = some d.queue → s.hub.chip.egressRoom p.val = true →
      s.hub.chip.ageTicks d < 13 →
    s.hub.chip.revoked d = false → (d.barge x.barge).hdr.type.toNat ≠ typeLctl → s.hub.chip.on (F.LNK_STATUS_ADMITTED p) = true →
      noSampling s.hub.chip →
    ∃ t, exec (.crossbarGrant []) s = .next t ∧ coreOnly s t ∧ t.hub.chip.swc.voqs = [] ∧ t.hub.chip.swc.store = [] ∧
      t.hub.chip.lnk[p].txq = s.hub.chip.lnk[p].txq ++ [{ desc := d, barge := d.barge x.barge }]) ∧
  (∀ (s : State) (d : Desc), s.hub.chip.swc.voqs = [d] → 13 ≤ s.hub.chip.ageTicks d → noSampling s.hub.chip →
    ∃ t, exec (.ageSweep) s = .next t ∧ coreOnly s t ∧ t.hub.chip.swc.voqs = [] ∧
      t.hub.chip.get F.FAB_AGE_DROP = (s.hub.chip.get F.FAB_AGE_DROP + 1) % 2 ^ 32) ∧
  (∀ (s : State) (p : Port), s.hub.chip.fab.walking[p].isSome = true → (∀ d ∈ s.hub.chip.swc.voqs, d.outPort ≠ p.val) →
    s.hub.chip.swc.later = [] →
    ∃ t, exec (.voqWalkDone p) s = .next t ∧ coreOnly s t ∧
      t.hub.chip.fab = { s.hub.chip.fab with walking := upd s.hub.chip.fab.walking p fun _ => none } ∧
      t.hub.chip.swc = s.hub.chip.swc ∧ wordsKept [] s t) ∧
  (∀ (s : State) (p : Port) (d : Desc) (x : Stored) (e : Nat), s.hub.chip.fab.walking[p].isSome = true → s.hub.chip.swc.voqs = [d] →
      s.hub.chip.swc.store = [x] → s.hub.chip.swc.later = [] →
    d.sid = x.sid → d.outPort = p.val → x.barge.hdr.type.toNat ≠ typeLctl → d.copy = false → d.strict = false →
    s.hub.chip.strictQueue d.queue = false → (s.hub.chip.routeTo x.barge.hdr.dst.toNat).egress = some e → e ≠ d.inPort →
    ∃ t, exec (.voqWalkDone p) s = .next t ∧ coreOnly s t ∧ t.hub.chip.fab.walking[p] = none ∧
      t.hub.chip.get F.FAB_RELINK = (s.hub.chip.get F.FAB_RELINK + 1) % 2 ^ 32 ∧
      t.hub.chip.swc.voqs = [{ d with outPort := e, route := some (x.barge.hdr.dst.toNat, (s.hub.chip.routeTo x.barge.hdr.dst.toNat).gen), guarded := false }] ∧
      wordsKept [F.FAB_RELINK.off] s t)

/-- U0 and the requests of the host to the virtual ports (07 R226, R246 to R252). The level-1 hub presents itself, is reset,
suspends and resumes; a virtual port is powered, suspended, resumed and reset with a port command to its field hub; a reset
without an answer times out; and an LPM token is accepted where LPM is known. Rests on the model's choices of log 3, 5, 13,
42 and 87. Completes: usbU0Connect, hostU0Reset, hostLinkSuspend, hostLinkResume, hostPortPower, hostPortSuspend,
hostPortResume, hostPortReset, resetLimitExpiry, hostLpmToken. -/
def Obligations.UsbHostRequests : Prop :=
  (∀ (s : State) (speed : BitVec 2), s.hub.chip.headEnd = true → s.hub.chip.on F.USB_CTL_EN = true →
      s.hub.chip.get F.USB_VHUB_ID_VID ≠ 0 →
    speed = 2 → s.hub.chip.on F.USB_CTL_SS_EN = true →
    ∃ t, exec (.usbU0Connect true speed) s = .next t ∧ coreOnly s t ∧ t.hub.chip.get F.USB_STATUS_U0_VBUS = 1 ∧
      t.hub.chip.get F.USB_STATUS_U0_SPEED = 2 ∧
      t.hub.chip.usb.pullUp = true ∧ t.hub.chip.usb.ssTerm = true ∧
      wordsKept [F.USB_STATUS.off] s t) ∧
  (∀ (s : State), s.hub.chip.headEnd = true →
    ∃ t, exec (.hostU0Reset true) s = .next t ∧ coreOnly s t ∧ t.hub.chip.get F.USB_STATUS_U0_CONFIGURED = 0 ∧
      t.hub.chip.get F.USB_STATUS_U0_LINK = 0 ∧ t.hub.chip.get F.USB_STATUS_U0_VBUS = 0 ∧
      t.hub.chip.get F.USB_STATUS_U0_SPEED = 0 ∧ t.hub.chip.usb.vhubs = [] ∧ t.hub.chip.usb.pullUp = false ∧
      t.hub.chip.get F.USB_INT_STATUS_U0_RESET = 1) ∧
  (∀ (s : State), s.hub.chip.headEnd = true →
    ∃ t, exec (.hostLinkSuspend .suspend) s = .next t ∧ coreOnly s t ∧ t.hub.chip.get F.USB_STATUS_U0_LINK = 4 ∧
      ∀ i ∈ s.hub.chip.mapList, t.hub.chip.get (F.USB_VP0_LINK i) = 4) ∧
  (∀ (s : State), s.hub.chip.headEnd = true → s.hub.chip.get F.USB_STATUS_U0_SPEED = 2 → (s.hub.chip.vhub 0 true).u1 = true →
    ∃ t, exec (.hostLinkSuspend .u1) s = .next t ∧ registersOnly s t ∧ t.hub.chip.get F.USB_STATUS_U0_LINK = 2 ∧
      wordsKept [F.USB_STATUS.off] s t) ∧
  (∀ (s : State), s.hub.chip.headEnd = true →
    ∃ t, exec (.hostLinkResume) s = .next t ∧ coreOnly s t ∧ t.hub.chip.get F.USB_STATUS_U0_LINK = 0 ∧
      wordsKept [F.USB_STATUS.off] s t ∧
      ∀ i ∈ s.hub.chip.mapList, (t.hub.chip.vdev i).byHub = false) ∧
  (∀ (s : State) (i : Byte) (on : Bool), s.hub.chip.leafPort i.toNat = true → s.hub.chip.mapped i.toNat = false →
    ∃ t, exec (.hostPortPower i on) s = .next t ∧ registersOnly s t ∧ t.hub.chip.get (F.USB_VP0_POWER i.toNat) = on.toNat ∧
      wordsKept [(F.USB_VP0 i.toNat).off] s t) ∧
  (∀ (s : State) (i : Byte), s.hub.chip.mapped i.toNat = true → (s.hub.chip.mapTunnel i.toNat false).isSome = true →
    ∃ t, exec (.hostPortPower i true) s = .next t ∧ coreOnly s t ∧ t.hub.chip.get (F.USB_VP0_POWER i.toNat) = 1 ∧
      (t.hub.chip.swc.offers.toList.getD 3 []).length = (s.hub.chip.swc.offers.toList.getD 3 []).length + 2 ∧
      wordsKept [(F.USB_VP0 i.toNat).off] s t) ∧
  (∀ (s : State) (i : Byte), s.hub.chip.mapped i.toNat = true → (s.hub.chip.mapTunnel i.toNat false).isSome = true →
    ∃ t, exec (.hostPortPower i false) s = .next t ∧ coreOnly s t ∧ t.hub.chip.get (F.USB_VP0_POWER i.toNat) = 0 ∧
      t.hub.chip.get (F.USB_VP0_CONNECT i.toNat) = 0 ∧
      t.hub.chip.get (F.USB_VP0_PEPOCH i.toNat) = (s.hub.chip.get (F.USB_VP0_PEPOCH i.toNat) + 1) % 16 ∧
      (t.hub.chip.swc.offers.toList.getD 3 []).length = (s.hub.chip.swc.offers.toList.getD 3 []).length + 1) ∧
  (∀ (s : State) (i : Byte), s.hub.chip.mapped i.toNat = true → (s.hub.chip.mapTunnel i.toNat false).isSome = true →
    ∃ t, exec (.hostPortSuspend i) s = .next t ∧ coreOnly s t ∧ t.hub.chip.get (F.USB_VP0_LINK i.toNat) = 4 ∧
      (t.hub.chip.swc.offers.toList.getD 3 []).length = (s.hub.chip.swc.offers.toList.getD 3 []).length + 1 ∧
      t.hub.chip.usb = s.hub.chip.usb ∧ wordsKept [(F.USB_VP0 i.toNat).off] s t) ∧
  (∀ (s : State) (i : Byte), s.hub.chip.mapped i.toNat = true → (s.hub.chip.mapTunnel i.toNat false).isSome = true →
      s.hub.chip.resumeMerged (s.hub.chip.vdev i.toNat).wakeAt = false →
    ∃ t, exec (.hostPortResume i) s = .next t ∧ coreOnly s t ∧ (t.hub.chip.vdev i.toNat).resumeAt = some s.hub.chip.now ∧
      (t.hub.chip.swc.offers.toList.getD 3 []).length = (s.hub.chip.swc.offers.toList.getD 3 []).length + 1 ∧ wordsKept [] s t) ∧
  (∀ (s : State) (i : Byte) (warm : Bool), s.hub.chip.mapped i.toNat = true → (s.hub.chip.mapTunnel i.toNat false).isSome = true →
    ∃ t, exec (.hostPortReset i warm) s = .next t ∧ coreOnly s t ∧ t.hub.chip.get (F.USB_VP0_ENABLED i.toNat) = 0 ∧
      t.hub.chip.get (F.USB_VP0_RESETTING i.toNat) = 1 ∧
      t.hub.chip.get (F.USB_VP0_LINK i.toNat) = 0 ∧ t.hub.chip.get (F.USB_VP0_ADDR i.toNat) = 0 ∧
      t.hub.chip.get (F.USB_VP0_PEPOCH i.toNat) = (s.hub.chip.get (F.USB_VP0_PEPOCH i.toNat) + 1) % 16 ∧
      (t.hub.chip.swc.offers.toList.getD 3 []).length = (s.hub.chip.swc.offers.toList.getD 3 []).length + 1 ∧
      wordsKept [(F.USB_VP0 i.toNat).off, F.USB_PREFETCH_LOST.off] s t) ∧
  (∀ (s : State) (i : Byte), s.hub.chip.mapped i.toNat = true → s.hub.chip.on (F.USB_VP0_RESETTING i.toNat) = true →
    ∃ t, exec (.resetLimitExpiry i) s = .next t ∧ coreOnly s t ∧ t.hub.chip.get (F.USB_VP0_RESETTING i.toNat) = 0 ∧
      t.hub.chip.get (F.USB_VP0_ENABLED i.toNat) = 0 ∧
      t.hub.chip.get F.USB_INT_STATUS_RESET_TIMEOUT = 1 ∧
      wordsKept [(F.USB_VP0 i.toNat).off, (F.USB_VP1 i.toNat).off, F.USB_INT_STATUS.off] s t) ∧
  (∀ (s : State) (i : Byte) (besl : BitVec 4) (wake : Bool), s.hub.chip.mapped i.toNat = true → (s.hub.chip.mapTunnel i.toNat false).isSome = true →
      s.hub.chip.on F.USB_CTL_LPM_EN = true →
    (s.hub.chip.vdev i.toNat).lpm = true →
    ∃ t, exec (.hostLpmToken i besl wake) s = .next t ∧ coreOnly s t ∧ t.hub.chip.outbox = s.hub.chip.outbox ++ [Out.usbHost .ack] ∧
      t.hub.chip.get (F.USB_VP0_LINK i.toNat) = 1 ∧
      (t.hub.chip.swc.offers.toList.getD 3 []).length = (s.hub.chip.swc.offers.toList.getD 3 []).length + 1 ∧
      wordsKept [(F.USB_VP0 i.toNat).off] s t)

/-- Transfers of the host at a head-end (07 R234, R236 to R242, R245): SETUP is always acknowledged, OUT data is taken on
credit, an IN token gets buffered data or asks for it, the status stage ends with the remote result, and isochronous data
travels by microframe. Rests on the model's choices of log 3, 13, 14, 42 and 87. Completes: hostSetup, hostOutData,
hostInToken, hostStatusStage, hostIsoToken, hostSplitTransaction. -/
def Obligations.UsbHostTransfers : Prop :=
  (∀ (s : State) (ss : Bool) (a : BitVec 7) (l : List Byte) (i : Nat), s.hub.chip.usbPortOf ss a.toNat = some i →
      s.hub.chip.hubAt ss a.toNat = none → (s.hub.chip.mapTunnel i false).isSome = true → s.hub.chip.vportSuspended i = false →
    l.length = 8 →
    ∃ t, exec (.hostSetup ss a l) s = .next t ∧ coreOnly s t ∧ t.hub.chip.outbox = s.hub.chip.outbox ++ [Out.usbHost .ack] ∧
      (t.hub.chip.vdev i).setup = some l ∧ (t.hub.chip.vdev i).result = none ∧
      (t.hub.chip.swc.offers.toList.getD 3 []).length = (s.hub.chip.swc.offers.toList.getD 3 []).length + 1 ∧ wordsKept [] s t) ∧
  (∀ (s : State) (ss : Bool) (a : BitVec 7) (l : List Byte) (k : Nat), s.hub.chip.hubAt ss a.toNat = some k → l.length = 8 →
    ∃ t, exec (.hostSetup ss a l) s = .next t ∧ coreOnly s t ∧ t.hub.chip.outbox = s.hub.chip.outbox ++ [Out.usbHost .ack] ∧
      (t.hub.chip.vhub k ss).pipe.setup = some l ∧ (t.hub.chip.vhub k ss).pipe.result.isSome = true ∧
      t.hub.chip.swc.offers = s.hub.chip.swc.offers ∧ wordsKept [] s t) ∧
  (∀ (s : State) (ss : Bool) (a : BitVec 7) (ep : BitVec 4) (q : BitVec 5) (l : List Byte) (i : Nat),
      s.hub.chip.usbPortOf ss a.toNat = some i → s.hub.chip.hubAt ss a.toNat = none →
    s.hub.chip.vportSuspended i = false → (s.hub.chip.vdev i).stalls ((s.hub.chip.vdev i).getEp ep.toNat false) = false →
    q.toNat = ((s.hub.chip.vdev i).getEp ep.toNat false).seq →
      ((s.hub.chip.vdev i).getEp ep.toNat false).taken < orSixteen (s.hub.chip.get F.USB_CTL_OUT_CREDIT) →
    ∃ t, exec (.hostOutData ss a ep q none (some l)) s = .next t ∧ coreOnly s t ∧
      (t.hub.chip.vdev i).getEp ep.toNat false = { (s.hub.chip.vdev i).getEp ep.toNat false with taken := ((s.hub.chip.vdev i).getEp ep.toNat false).taken + 1, stream := none, seq := (((s.hub.chip.vdev i).getEp ep.toNat false).seq + 1) % (if ss then 32 else 2), nrdy := ss && decide (orSixteen (s.hub.chip.get F.USB_CTL_OUT_CREDIT) = ((s.hub.chip.vdev i).getEp ep.toNat false).taken + 1) } ∧
      t.hub.chip.outbox.length = s.hub.chip.outbox.length + 1 ∧ wordsKept [] s t) ∧
  (∀ (s : State) (ss : Bool) (a : BitVec 7) (ep : BitVec 4) (i : Nat) (l : List Byte) (rest : List (List Byte)) (acked : Bool),
    s.hub.chip.usbPortOf ss a.toNat = some i → s.hub.chip.hubAt ss a.toNat = none → ((s.hub.chip.vdev i).getEp ep.toNat true).buf = l :: rest →
      ((s.hub.chip.vdev i).getEp ep.toNat true).given = false →
    ∃ t, exec (.hostInToken ss a ep none acked) s = .next t ∧ coreOnly s t ∧
      t.hub.chip.outbox = s.hub.chip.outbox ++ [Out.usbHost (.data l)] ∧
      (t.hub.chip.vdev i).getEp ep.toNat true = { (s.hub.chip.vdev i).getEp ep.toNat true with given := true } ∧ wordsKept [] s t) ∧
  (∀ (s : State) (ss : Bool) (a : BitVec 7) (ep : BitVec 4) (i : Nat) (k l : List Byte) (rest : List (List Byte)),
    s.hub.chip.usbPortOf ss a.toNat = some i → s.hub.chip.hubAt ss a.toNat = none → ((s.hub.chip.vdev i).getEp ep.toNat true).buf = k :: l :: rest →
      ((s.hub.chip.vdev i).getEp ep.toNat true).given = true →
    (∃ t, exec (.hostInToken ss a ep none true) s = .next t ∧ coreOnly s t ∧
      t.hub.chip.outbox = s.hub.chip.outbox ++ [Out.usbHost (.data l)] ∧
      ((t.hub.chip.vdev i).getEp ep.toNat true).buf = l :: rest ∧ wordsKept [] s t) ∧
    (∃ t, exec (.hostInToken ss a ep none false) s = .next t ∧ coreOnly s t ∧
      t.hub.chip.outbox = s.hub.chip.outbox ++ [Out.usbHost (.data k)] ∧
      ((t.hub.chip.vdev i).getEp ep.toNat true).buf = k :: l :: rest ∧ wordsKept [] s t)) ∧
  (∀ (s : State) (ss : Bool) (a : BitVec 7) (ep : BitVec 4) (i : Nat) (acked : Bool), s.hub.chip.usbPortOf ss a.toNat = some i →
      s.hub.chip.hubAt ss a.toNat = none → (s.hub.chip.mapTunnel i false).isSome = true → s.hub.chip.vportSuspended i = false →
      ((s.hub.chip.vdev i).getEp ep.toNat true).given = false →
    ((s.hub.chip.vdev i).getEp ep.toNat true).buf = [] →
      (s.hub.chip.vdev i).stalls ((s.hub.chip.vdev i).getEp ep.toNat true) = false →
    ((s.hub.chip.vdev i).getEp ep.toNat true).kind = .bulk → ((s.hub.chip.vdev i).getEp ep.toNat true).asked = 0 →
    ∃ t, exec (.hostInToken ss a ep none acked) s = .next t ∧ coreOnly s t ∧
      t.hub.chip.outbox = s.hub.chip.outbox ++ [Out.usbHost (notYet ss)] ∧
      ((t.hub.chip.vdev i).getEp ep.toNat true).asked = orSixteen (s.hub.chip.get F.USB_CTL_IN_AHEAD) ∧
      (t.hub.chip.swc.offers.toList.getD 3 []).length = (s.hub.chip.swc.offers.toList.getD 3 []).length + 1 ∧ wordsKept [] s t) ∧
  (∀ (s : State) (ss : Bool) (a : BitVec 7) (i : Nat) (l : List Byte), s.hub.chip.usbPortOf ss a.toNat = some i → s.hub.chip.hubAt ss a.toNat = none →
      (s.hub.chip.vdev i).setup = some l →
    (s.hub.chip.vdev i).result = some 0 →
    ∃ t, exec (.hostStatusStage ss a) s = .next t ∧ coreOnly s t ∧ t.hub.chip.outbox = s.hub.chip.outbox ++ [Out.usbHost .ack] ∧
      (t.hub.chip.vdev i).setup = none ∧ (t.hub.chip.vdev i).result = none ∧
      ((SetupPacket.ofBytes l).setAddress = true → t.hub.chip.get (F.USB_VP0_ADDR i) = (SetupPacket.ofBytes l).value % 128) ∧
      wordsKept [F.USB_PREFETCH_LOST.off, (F.USB_VP0 i).off] s t) ∧
  (∀ (s : State) (ss : Bool) (a : BitVec 7) (ep : BitVec 4) (n : BitVec 14) (i : Nat) (x : Nat × Nat × List Byte),
    s.hub.chip.usbPortOf ss a.toNat = some i →
      (s.hub.chip.vdev i).iso.find? (fun y => y.1 == n.toNat && y.2.1 == ep.toNat) = some x →
    ∃ t, exec (.hostIsoToken ss a ep true n []) s = .next t ∧ coreOnly s t ∧
      t.hub.chip.outbox = s.hub.chip.outbox ++ [Out.usbHost (.data x.2.2)] ∧
      (t.hub.chip.vdev i).iso = (s.hub.chip.vdev i).iso.erase x ∧
      wordsKept [] s t) ∧
  (∀ (s : State) (ss : Bool) (a : BitVec 7) (ep : BitVec 4) (n : BitVec 14) (l : List Byte) (i : Nat),
    s.hub.chip.usbPortOf ss a.toNat = some i → s.hub.chip.on (F.USB_MAP1_ISO_EN i) = true →
      s.hub.chip.vportSuspended i = false → l.length ≤ 1008 →
    ∃ t, exec (.hostIsoToken ss a ep false n l) s = .next t ∧ coreOnly s t ∧
      (t.hub.chip.swc.offers.toList.getD 3 []).length = (s.hub.chip.swc.offers.toList.getD 3 []).length + 1 ∧
      t.hub.chip.usb = s.hub.chip.usb ∧ t.hub.chip.outbox = s.hub.chip.outbox ∧ wordsKept [] s t) ∧
  (∀ (s : State) (a : BitVec 7) (ep : BitVec 4) (q : BitVec 1) (acked : Bool) (i : Nat), s.hub.chip.usbPortOf false a.toNat = some i →
    s.hub.chip.get (F.USB_VP0_SPEED i) = 1 ∨ s.hub.chip.get (F.USB_VP0_SPEED i) = 2 →
      ((s.hub.chip.vdev i).getEp ep.toNat false).kind ≠ .iso →
      (s.hub.chip.vdev i).stalls ((s.hub.chip.vdev i).getEp ep.toNat false) = false →
    ∃ t, exec (.hostSplitTransaction a false .data ep false q acked []) s = .next t ∧ coreOnly s t ∧
      t.hub.chip.outbox = s.hub.chip.outbox ++ [Out.usbHost (if ((s.hub.chip.vdev i).getEp ep.toNat false).taken = 0 then .ack else .nyet)] ∧ t.hub.chip.usb = s.hub.chip.usb ∧
      wordsKept [] s t) ∧
  (∀ (s : State) (a : BitVec 7) (ep : BitVec 4) (q : BitVec 1) (acked : Bool) (i : Nat) (l : List Byte) (rest : List (List Byte)),
    s.hub.chip.usbPortOf false a.toNat = some i → s.hub.chip.get (F.USB_VP0_SPEED i) = 1 ∨ s.hub.chip.get (F.USB_VP0_SPEED i) = 2 →
    ((s.hub.chip.vdev i).getEp ep.toNat true).kind ≠ .iso → ((s.hub.chip.vdev i).getEp ep.toNat true).buf = l :: rest →
    ∃ t, exec (.hostSplitTransaction a false .data ep true q acked []) s = .next t ∧ coreOnly s t ∧
      t.hub.chip.outbox = s.hub.chip.outbox ++ [Out.usbHost (.data l)] ∧
      (t.hub.chip.vdev i).getEp ep.toNat true = { (s.hub.chip.vdev i).getEp ep.toNat true with given := true } ∧ wordsKept [] s t) ∧
  (∀ (s : State) (a : BitVec 7) (ep : BitVec 4) (dirIn : Bool) (q : BitVec 1) (acked : Bool) (i : Nat),
    s.hub.chip.usbPortOf false a.toNat = some i → s.hub.chip.get (F.USB_VP0_SPEED i) = 1 ∨ s.hub.chip.get (F.USB_VP0_SPEED i) = 2 →
    (s.hub.chip.vdev i).result = none →
    ∃ t, exec (.hostSplitTransaction a false .status ep dirIn q acked []) s = .next t ∧ coreOnly s t ∧
      t.hub.chip.outbox = s.hub.chip.outbox ++ [Out.usbHost .nyet] ∧ t.hub.chip.usb = s.hub.chip.usb ∧ wordsKept [] s t)

/-- What the field hubs send to a head-end (07 R232, R236 to R240, R245): data is buffered, results return credit or stall,
and a message of another epoch is discarded and counted. Port events of the field hubs (07 Table 07-3, R239, R246 to R250,
R253, R254): what the virtual port shows after each. Rests on the model's choices of log 14 and 42. Completes:
proxyInDataRx, proxyResultRx, proxyIsoInRx, proxyEpResetRx, portEventConnect, portEventDisconnect, portEventResetDone,
portEventOverCurrent, portEventRemoteWake, portEventResumeDone, portEventDisabled, portEventL1State. -/
def Obligations.UsbFromFieldHubs : Prop :=
  (∀ (s : State) (m : Msg) (i : Nat), usbMsgOk m = true → m.channel.toNat < 0xF0 → i = m.channel.toNat → s.hub.chip.mapped i = true →
      s.hub.chip.mapTunnel i false = some m.tunnel.toNat →
    usbEpoch m ≠ s.hub.chip.get (F.USB_VP0_PEPOCH i) → usbKind m = kindInData →
    ∃ t, exec (.proxyInDataRx (some m)) s = .next t ∧ coreOnly s t ∧ t.hub.chip.usb = s.hub.chip.usb ∧
      t.hub.chip.get F.USB_LATE_DISCARD = (s.hub.chip.get F.USB_LATE_DISCARD + 1) % 2 ^ 32 ∧
      t.hub.chip.get F.USB_INT_STATUS_LATE_DISCARD = 1 ∧ wordsKept [F.USB_LATE_DISCARD.off, F.USB_INT_STATUS.off] s t) ∧
  (∀ (s : State) (m : Msg) (i : Nat), fromField s.hub.chip m i → usbKind m = kindInData →
    ∃ t, exec (.proxyInDataRx (some m)) s = .next t ∧ coreOnly s t ∧
      ((t.hub.chip.vdev i).getEp (usbEp m) true).buf = ((s.hub.chip.vdev i).getEp (usbEp m) true).buf ++ [m.payload] ∧
      wordsKept [] s t) ∧
  (∀ (s : State) (m : Msg) (i : Nat), fromField s.hub.chip m i → usbKind m = kindResult → usbRes m = 0 → usbEp m = 0 → usbDirIn m = true →
    ∃ t, exec (.proxyResultRx (some m)) s = .next t ∧ coreOnly s t ∧ (t.hub.chip.vdev i).result = some 0 ∧ wordsKept [] s t) ∧
  (∀ (s : State) (m : Msg) (i : Nat), fromField s.hub.chip m i → usbKind m = kindResult → usbRes m = 1 → usbDirIn m = false →
    ∃ t, exec (.proxyResultRx (some m)) s = .next t ∧ coreOnly s t ∧
      t.hub.chip.get F.USB_DEFER_STALL = (s.hub.chip.get F.USB_DEFER_STALL + 1) % 2 ^ 32 ∧
      t.hub.chip.get F.USB_INT_STATUS_DEFER_STALL = 1 ∧
      t.hub.chip.get F.USB_DEFER_LOST = (s.hub.chip.get F.USB_DEFER_LOST + ((s.hub.chip.vdev i).getEp (usbEp m) false).taken) % 2 ^ 32 ∧
      ((t.hub.chip.vdev i).getEp (usbEp m) false).halted = true ∧
      wordsKept [F.USB_DEFER_STALL.off, F.USB_DEFER_LOST.off, F.USB_INT_STATUS.off] s t) ∧
  (∀ (s : State) (m : Msg) (i : Nat), fromField s.hub.chip m i → usbKind m = kindIsoIn →
    microLater ((usbArg m + s.hub.chip.isoDelay) % 2 ^ 14) s.hub.chip.hostMicroframe = true →
    ∃ t, exec (.proxyIsoInRx (some m)) s = .next t ∧ coreOnly s t ∧
      (t.hub.chip.vdev i).iso = (s.hub.chip.vdev i).iso ++ [((usbArg m + s.hub.chip.isoDelay) % 2 ^ 14, usbEp m, m.payload)] ∧
      wordsKept [] s t) ∧
  (∀ (s : State) (m : Msg) (i : Nat), fromField s.hub.chip m i → usbKind m = kindIsoIn →
    microLater ((usbArg m + s.hub.chip.isoDelay) % 2 ^ 14) s.hub.chip.hostMicroframe = false →
    ∃ t, exec (.proxyIsoInRx (some m)) s = .next t ∧ coreOnly s t ∧ t.hub.chip.usb = s.hub.chip.usb ∧
      t.hub.chip.get F.USB_ISO_LATE = (s.hub.chip.get F.USB_ISO_LATE + 1) % 2 ^ 32 ∧
      wordsKept [F.USB_ISO_LATE.off] s t) ∧
  (∀ (s : State) (m : Msg) (i : Nat), fromField s.hub.chip m i → usbKind m = kindEpReset → (s.hub.chip.vdev i).setup ≠ none →
    ∃ t, exec (.proxyEpResetRx (some m)) s = .next t ∧ coreOnly s t ∧
      (t.hub.chip.vdev i).getEp (usbEp m) (usbDirIn m) = { (s.hub.chip.vdev i).getEp (usbEp m) (usbDirIn m) with
        stale := some ((s.hub.chip.vdev i).getEp (usbEp m) (usbDirIn m)).buf.length } ∧ wordsKept [] s t) ∧
  (∀ (s : State) (m : Msg) (i : Nat), fromField s.hub.chip m i → usbKind m = kindEpReset → (s.hub.chip.vdev i).setup = none →
    ∃ t, exec (.proxyEpResetRx (some m)) s = .next t ∧ coreOnly s t ∧
      (t.hub.chip.vdev i).getEp (usbEp m) (usbDirIn m) = ((s.hub.chip.vdev i).getEp (usbEp m) (usbDirIn m)).cleared ∧
      t.hub.chip.get F.USB_PREFETCH_LOST = (s.hub.chip.get F.USB_PREFETCH_LOST + ((s.hub.chip.vdev i).getEp (usbEp m) (usbDirIn m)).ahead) % 2 ^ 32 ∧
      wordsKept [F.USB_PREFETCH_LOST.off] s t) ∧
  (∀ (s : State) (m : Msg) (i : Nat), fromField s.hub.chip m i → isEvent 1 m = true →
    ∃ t, exec (.portEventConnect (some m)) s = .next t ∧ coreOnly s t ∧ t.hub.chip.get (F.USB_VP0_CONNECT i) = 1 ∧
      t.hub.chip.get (F.USB_VP0_SPEED i) = payloadByte m 0 % 8 ∧
      t.hub.chip.get (F.USB_VP0_ENABLED i) = 0 ∧ t.hub.chip.get (F.USB_VP0_ADDR i) = 0 ∧ t.hub.chip.get F.USB_INT_STATUS_ATTACH = 1) ∧
  (∀ (s : State) (m : Msg) (i : Nat), fromField s.hub.chip m i → isEvent 2 m = true →
    ∃ t, exec (.portEventDisconnect (some m)) s = .next t ∧ coreOnly s t ∧ t.hub.chip.get (F.USB_VP0_CONNECT i) = 0 ∧
      t.hub.chip.get (F.USB_VP0_SPEED i) = 0 ∧
      t.hub.chip.get (F.USB_VP0_ENABLED i) = 0 ∧ t.hub.chip.get F.USB_INT_STATUS_DETACH = 1) ∧
  (∀ (s : State) (m : Msg) (i : Nat), fromField s.hub.chip m i → isEvent 3 m = true → s.hub.chip.on (F.USB_VP0_RESETTING i) = true →
    ∃ t, exec (.portEventResetDone (some m)) s = .next t ∧ coreOnly s t ∧ t.hub.chip.get (F.USB_VP0_RESETTING i) = 0 ∧
      t.hub.chip.get (F.USB_VP0_ENABLED i) = 1 ∧
      t.hub.chip.get (F.USB_VP0_SPEED i) = payloadByte m 0 % 8 ∧ t.hub.chip.usb.vports = s.hub.chip.usb.vports ∧
      wordsKept [(F.USB_VP0 i).off, (F.USB_VP1 i).off] s t) ∧
  (∀ (s : State) (m : Msg) (i : Nat), fromField s.hub.chip m i → isEvent 4 m = true → payloadByte m 0 = 1 →
    ∃ t, exec (.portEventOverCurrent (some m)) s = .next t ∧ coreOnly s t ∧ t.hub.chip.get (F.USB_VP0_OC i) = 1 ∧
      t.hub.chip.get (F.USB_VP0_ENABLED i) = 0 ∧
      t.hub.chip.usb.vports = s.hub.chip.usb.vports ∧ wordsKept [(F.USB_VP0 i).off, (F.USB_VP1 i).off] s t) ∧
  (∀ (s : State) (m : Msg) (i : Nat), fromField s.hub.chip m i → isEvent 5 m = true →
    ∃ t, exec (.portEventRemoteWake (some m)) s = .next t ∧ coreOnly s t ∧ t.hub.chip.get (F.USB_VP0_LINK i) = 0 ∧
      t.hub.chip.get F.USB_INT_STATUS_WAKE = 1 ∧
      (t.hub.chip.vdev i).wakeAt = some s.hub.chip.now ∧ (t.hub.chip.vdev i).waiting = [] ∧
      wordsKept [(F.USB_VP0 i).off, (F.USB_VP1 i).off, F.USB_INT_STATUS.off] s t) ∧
  (∀ (s : State) (m : Msg) (i : Nat), fromField s.hub.chip m i → isEvent 6 m = true → s.hub.chip.resumeEarly i = true →
    ∃ t, exec (.portEventResumeDone (some m)) s = .next t ∧ coreOnly s t ∧ (t.hub.chip.vdev i).resumed = true ∧ wordsKept [] s t) ∧
  (∀ (s : State) (m : Msg) (i : Nat), fromField s.hub.chip m i → isEvent 6 m = true → s.hub.chip.resumeEarly i = false →
    ∃ t, exec (.portEventResumeDone (some m)) s = .next t ∧ coreOnly s t ∧ t.hub.chip.get (F.USB_VP0_LINK i) = 0 ∧
      (t.hub.chip.vdev i).waiting = [] ∧
      wordsKept [(F.USB_VP0 i).off, (F.USB_VP1 i).off] s t) ∧
  (∀ (s : State) (m : Msg) (i : Nat), fromField s.hub.chip m i → isEvent 7 m = true → payloadByte m 0 = 2 →
    ∃ t, exec (.portEventDisabled (some m)) s = .next t ∧ coreOnly s t ∧ t.hub.chip.get (F.USB_VP0_ENABLED i) = 0 ∧
      t.hub.chip.get F.USB_INT_STATUS_REFUSED = 1 ∧
      wordsKept [(F.USB_VP0 i).off, (F.USB_VP1 i).off, F.USB_INT_STATUS.off, F.USB_PREFETCH_LOST.off] s t) ∧
  (∀ (s : State) (m : Msg) (i : Nat), fromField s.hub.chip m i → isEvent 8 m = true → s.hub.chip.swc.inbox.toList.getD 3 [] = [m] →
    ∃ t, exec (.portEventL1State none) s = .next t ∧ coreOnly s t ∧ t.hub.chip.swc.inbox.toList.getD 3 [] = [] ∧
      t.hub.chip.usb = s.hub.chip.usb ∧ wordsKept [] s t)

/-- Port commands at a physical port (07 Table 07-3, R244, R246, R247, R250 to R252): what each does to the port and its
link. Rests on the model's choices of log 3, 5 and 42. Completes: portCmdPowerOn, portCmdPowerOff, portCmdReset,
portCmdWarmReset, portCmdSuspend, portCmdResume, portCmdDisable, portCmdL1, portCmdUTimeout, portCmdSofOffset,
portCmdSsHold. -/
def Obligations.UsbPortCommands : Prop :=
  (∀ (s : State) (m : Msg) (x : Fin 2), toField s.hub.chip m x → isCommand 1 m = true →
      s.hub.chip.on (F.USB_U_CTL_PORT_EN x) = true →
    ∃ t, exec (.portCmdPowerOn (some m)) s = .next t ∧ coreOnly s t ∧ t.hub.chip.get (F.USB_U_STATUS_VBUS_ON x) = 1 ∧
      t.hub.chip.get (F.USB_U_STATUS_PEPOCH x) = usbEpoch m ∧
      t.hub.chip.outbox = s.hub.chip.outbox ++ [Out.usbPort x.val (.vbus true)] ∧ wordsKept [(F.USB_U_STATUS x).off] s t) ∧
  (∀ (s : State) (m : Msg) (x : Fin 2), toField s.hub.chip m x → isCommand 2 m = true →
    ∃ t, exec (.portCmdPowerOff (some m)) s = .next t ∧ coreOnly s t ∧ t.hub.chip.get (F.USB_U_STATUS_VBUS_ON x) = 0 ∧
      t.hub.chip.get (F.USB_U_STATUS_CONNECT x) = 0 ∧
      t.hub.chip.get (F.USB_U_STATUS_ENABLED x) = 0 ∧ t.hub.chip.outbox = s.hub.chip.outbox ++ [Out.usbPort x.val (.vbus false)] ∧
      wordsKept [(F.USB_U_STATUS x).off] s t) ∧
  (∀ (s : State) (m : Msg) (x : Fin 2), toField s.hub.chip m x → isCommand 3 m = true →
    ∃ t, exec (.portCmdReset (some m)) s = .next t ∧ coreOnly s t ∧ t.hub.chip.get (F.USB_U_STATUS_ENABLED x) = 0 ∧
      t.hub.chip.get (F.USB_U_STATUS_LINK x) = 0 ∧
      t.hub.chip.usb.phys[x].resetting = true ∧ t.hub.chip.outbox = s.hub.chip.outbox ++ [Out.usbPort x.val (.reset false)] ∧
      wordsKept [(F.USB_U_STATUS x).off] s t) ∧
  (∀ (s : State) (m : Msg) (x : Fin 2), toField s.hub.chip m x → isCommand 4 m = true →
    ∃ t, exec (.portCmdWarmReset (some m)) s = .next t ∧ coreOnly s t ∧ t.hub.chip.get (F.USB_U_STATUS_ENABLED x) = 0 ∧
      t.hub.chip.usb.phys[x].resetting = true ∧
      t.hub.chip.outbox = s.hub.chip.outbox ++ [Out.usbPort x.val (.reset true)] ∧ wordsKept [(F.USB_U_STATUS x).off] s t) ∧
  (∀ (s : State) (m : Msg) (x : Fin 2), toField s.hub.chip m x → isCommand 5 m = true →
    ∃ t, exec (.portCmdSuspend (some m)) s = .next t ∧ coreOnly s t ∧ t.hub.chip.get (F.USB_U_STATUS_LINK x) = 4 ∧
      t.hub.chip.outbox = s.hub.chip.outbox ++ [Out.usbPort x.val .suspend] ∧
      wordsKept [(F.USB_U_STATUS x).off] s t) ∧
  (∀ (s : State) (m : Msg) (x : Fin 2), toField s.hub.chip m x → isCommand 6 m = true →
      s.hub.chip.get (F.USB_U_STATUS_LINK x) = 4 →
    s.hub.chip.resumeMerged (s.hub.chip.pdev x).wakeAt = false →
    ∃ t, exec (.portCmdResume (some m)) s = .next t ∧ coreOnly s t ∧ t.hub.chip.get (F.USB_U_STATUS_LINK x) = 0 ∧
      t.hub.chip.outbox = s.hub.chip.outbox ++ [Out.usbPort x.val .resume] ∧
      (t.hub.chip.pdev x).resumeAt = some s.hub.chip.now ∧ wordsKept [(F.USB_U_STATUS x).off] s t) ∧
  (∀ (s : State) (m : Msg) (x : Fin 2), toField s.hub.chip m x → isCommand 7 m = true →
    ∃ t, exec (.portCmdDisable (some m)) s = .next t ∧ coreOnly s t ∧ t.hub.chip.get (F.USB_U_STATUS_ENABLED x) = 0 ∧
      t.hub.chip.get (F.USB_U_STATUS_CAUSE x) = 4 ∧
      t.hub.chip.pdev x = UsbDev.empty ∧ wordsKept [(F.USB_U_STATUS x).off] s t) ∧
  (∀ (s : State) (m : Msg) (x : Fin 2), toField s.hub.chip m x → isCommand 8 m = true →
    ∃ t, exec (.portCmdL1 (some m) true) s = .next t ∧ coreOnly s t ∧ t.hub.chip.get (F.USB_U_STATUS_LINK x) = 1 ∧
      t.hub.chip.outbox = s.hub.chip.outbox ++ [Out.usbPort x.val (.l1 (payloadByte m 0 % 16) (payloadByte m 1 == 1))] ∧
      wordsKept [(F.USB_U_STATUS x).off] s t) ∧
  (∀ (s : State) (m : Msg) (x : Fin 2), toField s.hub.chip m x → isCommand 9 m = true →
    ∃ t, exec (.portCmdUTimeout (some m)) s = .next t ∧ coreOnly s t ∧
      t.hub.chip.usb.phys[x] = { s.hub.chip.usb.phys[x] with u1 := payloadByte m 0, u2 := payloadByte m 1 } ∧
      t.hub.chip.outbox = s.hub.chip.outbox ++ [Out.usbPort x.val (.timeouts (payloadByte m 0) (payloadByte m 1))] ∧
      wordsKept [(F.USB_U_STATUS x).off] s t) ∧
  (∀ (s : State) (m : Msg) (x : Fin 2), toField s.hub.chip m x → isCommand 10 m = true →
    ∃ t, exec (.portCmdSofOffset (some m)) s = .next t ∧ coreOnly s t ∧
      t.hub.chip.usb.phys[x] = { s.hub.chip.usb.phys[x] with sofOfs := beVal (m.payload.take 2) % 2048 } ∧
      wordsKept [(F.USB_U_STATUS x).off] s t) ∧
  (∀ (s : State) (m : Msg) (x : Fin 2), toField s.hub.chip m x → isCommand 11 m = true →
    ∃ t, exec (.portCmdSsHold (some m)) s = .next t ∧ coreOnly s t ∧
      t.hub.chip.usb.phys[x] = { s.hub.chip.usb.phys[x] with ssHold := payloadByte m 0 == 1 } ∧
      wordsKept [(F.USB_U_STATUS x).off] s t)

/-- Transfers at a physical port (07 R236 to R241, R245): setup, data and requests reach the device; its answers end
packets, stages and endpoints. Rests on the model's choices of log 3, 13, 14 and 42. Completes: proxySetupRx,
proxyOutDataRx, proxyInReqRx, proxyIsoOutRx, deviceTransactionComplete, deviceStall, deviceXferError, deviceBabble,
interruptPoll. -/
def Obligations.UsbDeviceTransfers : Prop :=
  (∀ (s : State) (m : Msg) (x : Fin 2), toField s.hub.chip m x → usbKind m = kindSetup →
    ∃ t, exec (.proxySetupRx (some m)) s = .next t ∧ coreOnly s t ∧ (t.hub.chip.pdev x).setup = some m.payload ∧
      (t.hub.chip.pdev x).phase = some .setup ∧
      t.hub.chip.outbox = s.hub.chip.outbox ++ [Out.usbPort x.val (.setup m.payload)] ∧
      wordsKept [] s t) ∧
  (∀ (s : State) (m : Msg) (x : Fin 2), toField s.hub.chip m x → usbKind m = kindOutData →
      ((s.hub.chip.pdev x).getEp (usbEp m) false).streams = 0 →
    ((s.hub.chip.pdev x).getEp (usbEp m) false).buf = [] → ((s.hub.chip.pdev x).getEp (usbEp m) false).sent = 0 → usbEp m ≠ 0 →
      s.hub.chip.get (F.USB_U_STATUS_SPEED x) ≠ 4 →
    ∃ t, exec (.proxyOutDataRx (some m)) s = .next t ∧ coreOnly s t ∧
      ((t.hub.chip.pdev x).getEp (usbEp m) false).buf = [m.payload] ∧
      t.hub.chip.outbox = s.hub.chip.outbox ++ [Out.usbPort x.val (.out (usbEp m) none m.payload)] ∧ wordsKept [] s t) ∧
  (∀ (s : State) (m : Msg) (x : Fin 2), toField s.hub.chip m x → usbKind m = kindInReq → usbArg m ≠ 0 →
      ((s.hub.chip.pdev x).getEp (usbEp m) true).asked = 0 → ((s.hub.chip.pdev x).getEp (usbEp m) true).streams = 0 →
    ∃ t, exec (.proxyInReqRx (some m)) s = .next t ∧ coreOnly s t ∧
      ((t.hub.chip.pdev x).getEp (usbEp m) true).asked = min (usbArg m) (orSixteen (s.hub.chip.get F.USB_CTL_IN_AHEAD)) ∧
      t.hub.chip.outbox = s.hub.chip.outbox ++ [Out.usbPort x.val (.inToken (usbEp m) none)] ∧ wordsKept [] s t) ∧
  (∀ (s : State) (m : Msg) (x : Fin 2), toField s.hub.chip m x → usbKind m = kindIsoOut →
    microLater (usbArg m) (s.hub.chip.sofNumber x * 8 + s.hub.chip.subns / 125_000) = true →
    ∃ t, exec (.proxyIsoOutRx (some m)) s = .next t ∧ coreOnly s t ∧
      (t.hub.chip.pdev x).iso = (s.hub.chip.pdev x).iso ++ [(usbArg m, usbEp m, m.payload)] ∧ wordsKept [] s t) ∧
  (∀ (s : State) (x : Fin 2) (ep : BitVec 4) (b : List Byte) (pkt : DevicePacket), s.hub.chip.downstream x = true → ep ≠ 0 →
      ((s.hub.chip.pdev x).getEp ep.toNat false).buf = [b] → ((s.hub.chip.pdev x).getEp ep.toNat false).sent = 1 →
    ∃ t, exec (.deviceTransactionComplete x ep false .data pkt) s = .next t ∧ coreOnly s t ∧
      ((t.hub.chip.pdev x).getEp ep.toNat false).buf = [] ∧ t.hub.chip.outbox = s.hub.chip.outbox ∧
      wordsKept [] s t) ∧
  (∀ (s : State) (x : Fin 2) (ep : BitVec 4) (pkt : DevicePacket) (n : Nat), s.hub.chip.downstream x = true → ep ≠ 0 →
      ((s.hub.chip.pdev x).getEp ep.toNat true).kind = .bulk → ((s.hub.chip.pdev x).getEp ep.toNat true).asked ≠ 0 →
      pkt.seq.toNat = ((s.hub.chip.pdev x).getEp ep.toNat true).seq → s.hub.chip.physTunnel x = some n → pkt.data.length ≤ 1008 →
    ∃ t, exec (.deviceTransactionComplete x ep true .data pkt) s = .next t ∧ coreOnly s t ∧
      (t.hub.chip.swc.offers.toList.getD 3 []).length = (s.hub.chip.swc.offers.toList.getD 3 []).length + 1 ∧
      ((t.hub.chip.pdev x).getEp ep.toNat true).seq = (((s.hub.chip.pdev x).getEp ep.toNat true).seq + 1) % s.hub.chip.seqMod x ∧
      wordsKept [] s t) ∧
  (∀ (s : State) (x : Fin 2) (ep : BitVec 4) (dirIn : Bool) (l : List Byte) (pkt : DevicePacket), s.hub.chip.downstream x = true →
      (s.hub.chip.pdev x).setup = some l → (SetupPacket.ofBytes l).length = 0 → (s.hub.chip.pdev x).phase = some .setup →
    ∃ t, exec (.deviceTransactionComplete x ep dirIn .setup pkt) s = .next t ∧ coreOnly s t ∧ (t.hub.chip.pdev x).phase = some .status ∧
      t.hub.chip.outbox = s.hub.chip.outbox ++ [Out.usbPort x.val (.status true)] ∧ wordsKept [] s t) ∧
  (∀ (s : State) (x : Fin 2) (ep : BitVec 4) (l : List Byte) (pkt : DevicePacket), s.hub.chip.downstream x = true → (s.hub.chip.pdev x).setup = some l →
    ∃ t, exec (.deviceTransactionComplete x ep true .status pkt) s = .next t ∧ coreOnly s t ∧ (t.hub.chip.pdev x).setup = none ∧
      (t.hub.chip.pdev x).data = [] ∧ wordsKept [] s t) ∧
  (∀ (s : State) (x : Fin 2) (ep : BitVec 4) (dir : Bool), s.hub.chip.downstream x = true →
    ∃ t, exec (.deviceStall x ep dir) s = .next t ∧ coreOnly s t ∧ ((t.hub.chip.pdev x).getEp ep.toNat dir).halted = true ∧
      ((t.hub.chip.pdev x).getEp ep.toNat dir).buf = [] ∧ wordsKept [] s t) ∧
  (∀ (s : State) (x : Fin 2) (ep : BitVec 4) (dir : Bool), s.hub.chip.downstream x = true →
    ∃ t, exec (.deviceXferError x ep dir) s = .next t ∧ coreOnly s t ∧ ((t.hub.chip.pdev x).getEp ep.toNat dir).halted = true ∧
      wordsKept [] s t) ∧
  (∀ (s : State) (x : Fin 2) (ep : BitVec 4) (dir : Bool), s.hub.chip.downstream x = true →
    ∃ t, exec (.deviceBabble x ep dir) s = .next t ∧ coreOnly s t ∧ t.hub.chip.get (F.USB_U_STATUS_ENABLED x) = 0 ∧
      t.hub.chip.get (F.USB_U_STATUS_CAUSE x) = 1 ∧
      wordsKept [(F.USB_U_STATUS x).off] s t) ∧
  (∀ (s : State) (x : Fin 2) (ep : BitVec 4) (pkt : DevicePacket) (kept n : Nat), s.hub.chip.downstream x = true → ep ≠ 0 → kept < 2 →
    ((s.hub.chip.pdev x).getEp ep.toNat true).kind = .interrupt → pkt.seq.toNat = ((s.hub.chip.pdev x).getEp ep.toNat true).seq →
      s.hub.chip.physTunnel x = some n → pkt.data.length ≤ 1008 →
    ∃ t, exec (.interruptPoll x ep true kept (some pkt)) s = .next t ∧ coreOnly s t ∧
      (t.hub.chip.swc.offers.toList.getD 3 []).length = (s.hub.chip.swc.offers.toList.getD 3 []).length + 1 ∧
      ((t.hub.chip.pdev x).getEp ep.toNat true).seq = (((s.hub.chip.pdev x).getEp ep.toNat true).seq + 1) % s.hub.chip.seqMod x ∧
      wordsKept [] s t)

/-- A device at its port (07 R243 to R253): it attaches, wakes the port, ends a reset; VBUS that does not come and an
over-current take the port down; microframes start. Rests on the model's choices of log 3, 5, 13 and 42. Completes:
deviceAttach, deviceRemoteWake, physicalResetEnd, vbusGoodTimeout, ocDeglitchExpiry, microframeStart. -/
def Obligations.UsbDeviceEvents : Prop :=
  (∀ (s : State) (x : Fin 2) (v : BitVec 3), s.hub.chip.downstream x = true → v ≠ 0 → v.toNat ≤ 4 →
      s.hub.chip.on (F.USB_U_CTL_PORT_EN x) = true →
    s.hub.chip.on (F.USB_U_STATUS_VBUS_ON x) = true →
    ∃ t, exec (.deviceAttach x v) s = .next t ∧ coreOnly s t ∧ t.hub.chip.get (F.USB_U_STATUS_CONNECT x) = 1 ∧
      t.hub.chip.get (F.USB_U_STATUS_SPEED x) = s.hub.chip.speedLimit x v.toNat ∧
      t.hub.chip.get (F.USB_U_STATUS_ENABLED x) = 0 ∧ t.hub.chip.get F.USB_INT_STATUS_ATTACH = 1 ∧
      wordsKept [(F.USB_U_STATUS x).off, F.USB_INT_STATUS.off] s t) ∧
  (∀ (s : State) (x : Fin 2), s.hub.chip.downstream x = true → s.hub.chip.on (F.USB_U_STATUS_CONNECT x) = true →
    ∃ t, exec (.deviceAttach x 0) s = .next t ∧ coreOnly s t ∧ t.hub.chip.get (F.USB_U_STATUS_CONNECT x) = 0 ∧
      t.hub.chip.pdev x = UsbDev.empty ∧ t.hub.chip.get F.USB_INT_STATUS_DETACH = 1 ∧
      wordsKept [(F.USB_U_STATUS x).off, F.USB_INT_STATUS.off] s t) ∧
  (∀ (s : State) (x : Fin 2), s.hub.chip.downstream x = true → s.hub.chip.on (F.USB_U_STATUS_CONNECT x) = true →
    ∃ t, exec (.deviceRemoteWake x) s = .next t ∧ coreOnly s t ∧ t.hub.chip.get (F.USB_U_STATUS_LINK x) = 0 ∧
      (t.hub.chip.pdev x).wakeAt = some s.hub.chip.now ∧
      wordsKept [(F.USB_U_STATUS x).off] s t) ∧
  (∀ (s : State) (x : Fin 2) (v : BitVec 3), s.hub.chip.downstream x = true → s.hub.chip.usb.phys[x].resetting = true →
    ∃ t, exec (.physicalResetEnd x v) s = .next t ∧ coreOnly s t ∧
      t.hub.chip.usb.phys[x] = { s.hub.chip.usb.phys[x] with resetting := false } ∧
      t.hub.chip.get (F.USB_U_STATUS_ENABLED x) = (s.hub.chip.speedLimit x v.toNat != 0).toNat ∧
      t.hub.chip.get (F.USB_U_STATUS_SPEED x) = s.hub.chip.speedLimit x v.toNat ∧ wordsKept [(F.USB_U_STATUS x).off] s t) ∧
  (∀ (s : State) (x : Fin 2), s.hub.chip.downstream x = true → s.hub.chip.on (F.USB_U_STATUS_VBUS_ON x) = true →
    ∃ t, exec (.vbusGoodTimeout x) s = .next t ∧ coreOnly s t ∧ t.hub.chip.get (F.USB_U_STATUS_VBUS_ON x) = 0 ∧
      t.hub.chip.get (F.USB_U_STATUS_OC x) = 1 ∧
      t.hub.chip.get F.USB_OC_EVENTS = (s.hub.chip.get F.USB_OC_EVENTS + 1) % 2 ^ 32 ∧
      t.hub.chip.get F.USB_INT_STATUS_OVERCURRENT = 1 ∧
      t.hub.chip.outbox = s.hub.chip.outbox ++ [Out.usbPort x.val (.vbus false)] ∧
      wordsKept [(F.USB_U_STATUS x).off, F.USB_OC_EVENTS.off, F.USB_INT_STATUS.off] s t) ∧
  (∀ (s : State) (x : Fin 2), s.hub.chip.downstream x = true →
      s.hub.chip.on (F.USB_U_STATUS_OC x) = false ∨ s.hub.chip.on (F.USB_U_STATUS_VBUS_ON x) = true →
    ∃ t, exec (.ocDeglitchExpiry x true) s = .next t ∧ coreOnly s t ∧ t.hub.chip.get (F.USB_U_STATUS_VBUS_ON x) = 0 ∧
      t.hub.chip.get (F.USB_U_STATUS_OC x) = 1 ∧
      t.hub.chip.get F.USB_OC_EVENTS = (s.hub.chip.get F.USB_OC_EVENTS + 1) % 2 ^ 32 ∧
      t.hub.chip.get F.USB_INT_STATUS_OVERCURRENT = 1) ∧
  (∀ (s : State) (x : Fin 2), s.hub.chip.downstream x = true → s.hub.chip.on (F.USB_U_STATUS_OC x) = true →
    ∃ t, exec (.ocDeglitchExpiry x false) s = .next t ∧ coreOnly s t ∧ t.hub.chip.get (F.USB_U_STATUS_OC x) = 0 ∧
      wordsKept [(F.USB_U_STATUS x).off] s t) ∧
  (∀ (s : State) (k : Fin 8), s.hub.chip.downstream 0 = false → s.hub.chip.downstream 1 = true →
      s.hub.chip.on (F.USB_U_STATUS_ENABLED 1) = true →
    s.hub.chip.get (F.USB_U_STATUS_LINK 1) ≠ 4 → 3 ≤ s.hub.chip.get (F.USB_U_STATUS_SPEED 1) → (s.hub.chip.pdev 0).iso = [] →
      (s.hub.chip.pdev 1).iso = [] → (∀ i ∈ s.hub.chip.mapList, (s.hub.chip.vdev i).iso = [] ∧ (s.hub.chip.vdev i).resumed = false) →
    ∃ t, exec (.microframeStart k []) s = .next t ∧ coreOnly s t ∧
      t.hub.chip.outbox = s.hub.chip.outbox ++ [Out.usbPort 1 (.startOfFrame (s.hub.chip.sofNumber 1) k.val)] ∧
      wordsKept [] s t)

/-- The window requester's messages end (08 R269, R272 to R277). The completion of the last part of a read answers the host;
a non-posted write ends; a failed write is logged; a reissued message that times out fails its range; a silent target
answers TIMEOUT; and quarantined tags and idle prefetch buffers are let go. Locks on a hub's spaces (08 R278 to R281): a
request is granted or sent back, answers reach the context, locks are released and broken, a back-off ends, and a space held
too long is freed. Rests on the model's choices of log 3, 5 and 43. Completes: bridgeCplDRx, bridgeCplRx, bridgePwerrRx,
cplTimeout, targetTimeout, tagQuarantineExpiry, prefetchIdleExpiry, lockReqRx, lockGrantRx, lockRetryRx, lockRelRx,
lockBrokenRx, lockBackoffExpiry, lockHoldLimit. -/
def Obligations.WindowMessagesAndLocks : Prop :=
  (∀ (s : State) (m : Msg) (r : WinReq) (a : WinAccess) (v : PieceUser), s.hub.chip.swc.inbox[4] = [] → winKind m = 3 →
      s.hub.chip.win.out = [r] →
    r.tag = winTag m → r.write = false → r.again = false → r.fill = false → r.users = [v] → winStatus m = 0 →
      s.hub.chip.win.queue = [] →
    s.hub.chip.win.releaseAt = none → s.hub.chip.win.accesses = [a] → a.id = v.acc → a.left = 1 → a.worst = 0 →
      s.hub.chip.win.locals = [] →
    ∃ t, exec (.bridgeCplDRx (some m)) s = .next t ∧ coreOnly s t ∧ t.hub.chip.win.out = [] ∧ t.hub.chip.win.accesses = [] ∧
      t.hub.chip.swc.inbox = s.hub.chip.swc.inbox ∧
      t.hub.chip.outbox = s.hub.chip.outbox ++ [Out.pcie (.completion a.drive a.reqId 0 (putBytes a.data v.pos (((readBytes r.fwa r.len m.payload).drop v.off).take v.len)))] ∧
      t.hub.chip.get F.WIN_STATUS_NP_OUT = 0 ∧ wordsKept [F.WIN_STATUS.off] s t) ∧
  (∀ (s : State) (m : Msg) (r : WinReq), s.hub.chip.swc.inbox[4] = [] → winKind m = 4 → s.hub.chip.win.out = [r] →
      r.tag = winTag m → r.write = true →
    r.again = false → r.fill = false → r.users = [] → winStatus m = 0 → s.hub.chip.win.queue = [] →
      s.hub.chip.win.releaseAt = none → s.hub.chip.win.locals = [] →
    ∃ t, exec (.bridgeCplRx (some m)) s = .next t ∧ coreOnly s t ∧ t.hub.chip.win = { s.hub.chip.win with out := [] } ∧
      t.hub.chip.outbox = s.hub.chip.outbox ∧ t.hub.chip.get F.WIN_STATUS_NP_OUT = 0 ∧
      wordsKept [F.WIN_STATUS.off] s t) ∧
  (∀ (s : State) (m : Msg), s.hub.chip.swc.inbox[4] = [] → winKind m = 5 → s.hub.chip.win.out = [] →
      s.hub.chip.on (F.WIN_PWL3_VALID 0) = false →
    ∃ t, exec (.bridgePwerrRx (some m)) s = .next t ∧ coreOnly s t ∧ t.hub.chip.get (F.WIN_PWL_ADDR_LO 0) = winFwa m % 2 ^ 32 ∧
      t.hub.chip.get (F.WIN_PWL_ADDR_HI 0) = winFwa m / 2 ^ 32 % 2 ^ 32 ∧ t.hub.chip.get (F.WIN_PWL3_STATUS 0) = winStatus m % 16 ∧
      t.hub.chip.get (F.WIN_PWL3_NP 0) = (match s.hub.chip.win.sent.find? (fun x => x.tag == winTag m && x.fwa == winFwa m) with
        | some x => x.np.toNat
        | none => 0) ∧ t.hub.chip.get (F.WIN_PWL3_VALID 0) = 1 ∧ t.hub.chip.get F.WIN_INT_STATUS_PWERR = 1 ∧
      t.hub.chip.win = s.hub.chip.win ∧
      wordsKept [(F.WIN_PWL_ADDR_LO 0).off, (F.WIN_PWL_ADDR_HI 0).off, (F.WIN_PWL_FRAME 0).off, (F.WIN_PWL3 0).off,
      F.WIN_INT_STATUS.off] s t) ∧
  (∀ (s : State) (tag : Byte) (r : WinReq), s.hub.chip.win.out = [r] → r.tag = tag.toNat → r.write = false → r.sideEffect = false →
    r.again = true → r.users = [] → r.fill = false → r.rng < 16 → s.hub.chip.win.queue = [] → s.hub.chip.win.releaseAt = none →
      s.hub.chip.win.locals = [] →
    ∃ t, exec (.cplTimeout tag) s = .next t ∧ coreOnly s t ∧ t.hub.chip.win.out = [] ∧
      t.hub.chip.win.quarantine = s.hub.chip.win.quarantine ++ [(tag.toNat, none)] ∧
      t.hub.chip.get (F.WIN_RNG0_FAILED r.rng) = 1 ∧
      t.hub.chip.get F.WIN_CPL_TIMEOUT = (s.hub.chip.get F.WIN_CPL_TIMEOUT + 1) % 2 ^ 32 ∧
      t.hub.chip.get F.WIN_RD_DISCARD = (s.hub.chip.get F.WIN_RD_DISCARD + 1) % 2 ^ 32 ∧
      t.hub.chip.get F.WIN_INT_STATUS_RANGE_FAILED = 1) ∧
  (∀ (s : State) (n : BitVec 12) (tag : Byte) (r : TgtReq),
    s.hub.chip.win.target.find? (fun x => x.tunnel == n.toNat && x.tag == tag.toNat) = some r → r.write = false →
    ∃ t, exec (.targetTimeout n tag) s = .next t ∧ coreOnly s t ∧
      t.hub.chip.win = { s.hub.chip.win with target := s.hub.chip.win.target.erase r } ∧
      t.hub.chip.swc.offers.toList.getD 4 [] = s.hub.chip.swc.offers.toList.getD 4 [] ++ segments n.toNat (winTspec 4 tag.toNat 3 false 0) [] ∧
      wordsKept [] s t) ∧
  (∀ (s : State) (tag : Byte), s.hub.chip.win.queue = [] → s.hub.chip.win.releaseAt = none →
    ∃ t, exec (.tagQuarantineExpiry tag) s = .next t ∧ coreOnly s t ∧
      t.hub.chip.win = { s.hub.chip.win with quarantine := s.hub.chip.win.quarantine.filter fun q => q.1 != tag.toNat } ∧
      wordsKept [] s t) ∧
  (∀ (s : State) (fwa : BitVec 64) (b : PfBuf), s.hub.chip.win.pf = [b] → b.fwa = fwa.toNat → b.data.isSome = true →
    ∃ t, exec (.prefetchIdleExpiry fwa) s = .next t ∧ coreOnly s t ∧ t.hub.chip.win.pf = [] ∧ t.hub.chip.win.accesses = s.hub.chip.win.accesses ∧
      t.hub.chip.get F.WIN_PF_DISCARD = (s.hub.chip.get F.WIN_PF_DISCARD + 1) % 2 ^ 32 ∧ wordsKept [F.WIN_PF_DISCARD.off] s t) ∧
  (∀ (s : State) (m : Msg), s.hub.chip.swc.inbox[4] = [] → winKind m = 6 → payloadByte m 0 < 2 →
      s.hub.chip.lockHolder (payloadByte m 0) = none →
    s.hub.chip.on F.WIN_LOCK_STATUS_R_HELD = false → s.hub.chip.win.want = none →
    ∃ t, exec (.lockReqRx (some m)) s = .next t ∧ coreOnly s t ∧ t.hub.chip.lockHolder (payloadByte m 0) = some m.src.toNat ∧
      t.hub.chip.swc.offers.toList.getD 4 [] = s.hub.chip.swc.offers.toList.getD 4 [] ++
        segments m.tunnel.toNat (winTspec 7 0 0 false 0) [BitVec.ofNat 8 (payloadByte m 0)] ∧ wordsKept [F.WIN_LOCK_HELD.off] s t) ∧
  (∀ (s : State) (m : Msg) (h : Nat), s.hub.chip.swc.inbox[4] = [] → winKind m = 6 → payloadByte m 0 < 2 →
    s.hub.chip.lockHolder (payloadByte m 0) = some h → h ≠ m.src.toNat → s.hub.chip.on F.WIN_LOCK_STATUS_R_HELD = false →
      s.hub.chip.win.want = none →
    ∃ t, exec (.lockReqRx (some m)) s = .next t ∧ coreOnly s t ∧ t.hub.chip.lockHolder (payloadByte m 0) = some h ∧
      t.hub.chip.get F.WIN_LOCK_RETRY = (s.hub.chip.get F.WIN_LOCK_RETRY + 1) % 2 ^ 32 ∧
      t.hub.chip.swc.offers.toList.getD 4 [] = s.hub.chip.swc.offers.toList.getD 4 [] ++
        segments m.tunnel.toNat (winTspec 8 0 0 false 0) [BitVec.ofNat 8 (payloadByte m 0)] ∧ wordsKept [F.WIN_LOCK_RETRY.off] s t) ∧
  (∀ (s : State) (m : Msg) (n : Nat), s.hub.chip.swc.inbox[4] = [] → winKind m = 7 → payloadByte m 0 < 2 →
      s.hub.chip.win.withdrawn = [] →
    s.hub.chip.win.want = some (m.src.toNat, payloadByte m 0, n) → s.hub.chip.win.backoff = false →
    ∃ t, exec (.lockGrantRx (some m)) s = .next t ∧ coreOnly s t ∧
      t.hub.chip.win = { s.hub.chip.win with want := none, lockTunnel := m.tunnel.toNat } ∧
      t.hub.chip.get F.WIN_LOCK_STATUS_R_HELD = 1 ∧ t.hub.chip.get F.WIN_LOCK_STATUS_R_HUB = m.src.toNat ∧
      t.hub.chip.get F.WIN_LOCK_STATUS_R_SPACE = payloadByte m 0 ∧ t.hub.chip.get F.WIN_LOCK_STATUS_RESULT = 2 ∧
      wordsKept [F.WIN_LOCK_STATUS.off] s t) ∧
  (∀ (s : State) (m : Msg) (n : Nat), s.hub.chip.swc.inbox[4] = [] → winKind m = 8 → s.hub.chip.win.withdrawn = [] →
    s.hub.chip.win.want = some (m.src.toNat, payloadByte m 0, n) → s.hub.chip.win.backoff = false →
    ∃ t, exec (.lockRetryRx (some m)) s = .next t ∧ coreOnly s t ∧ t.hub.chip.win = { s.hub.chip.win with backoff := true } ∧
      t.hub.chip.get F.WIN_LOCK_STATUS_RESULT = 3 ∧
      t.hub.chip.get F.WIN_LOCK_RETRY = (s.hub.chip.get F.WIN_LOCK_RETRY + 1) % 2 ^ 32 ∧
      wordsKept [F.WIN_LOCK_STATUS.off, F.WIN_LOCK_RETRY.off] s t) ∧
  (∀ (s : State) (m : Msg), s.hub.chip.swc.inbox[4] = [] → winKind m = 9 → payloadByte m 0 < 2 →
    s.hub.chip.lockHolder (payloadByte m 0) = some m.src.toNat → s.hub.chip.fab.waiting = [] → s.hub.chip.win.locals = [] →
    ∃ t, exec (.lockRelRx (some m)) s = .next t ∧ coreOnly s t ∧ t.hub.chip.lockHolder (payloadByte m 0) = none ∧
      wordsKept [F.WIN_LOCK_HELD.off] s t) ∧
  (∀ (s : State) (m : Msg), s.hub.chip.swc.inbox[4] = [] → winKind m = 10 → s.hub.chip.on F.WIN_LOCK_STATUS_R_HELD = true →
    s.hub.chip.get F.WIN_LOCK_STATUS_R_HUB = m.src.toNat → s.hub.chip.get F.WIN_LOCK_STATUS_R_SPACE = payloadByte m 0 →
    ∃ t, exec (.lockBrokenRx (some m)) s = .next t ∧ coreOnly s t ∧ t.hub.chip.get F.WIN_LOCK_STATUS_R_HELD = 0 ∧
      t.hub.chip.get F.WIN_LOCK_STATUS_RESULT = 7 ∧
      t.hub.chip.get F.WIN_INT_STATUS_LOCK_BROKEN = 1 ∧ wordsKept [F.WIN_LOCK_STATUS.off, F.WIN_INT_STATUS.off] s t) ∧
  (∀ (s : State) (h n sp : Nat), s.hub.chip.win.want = some (h, sp, n) → s.hub.chip.win.backoff = true →
    s.hub.chip.get F.WIN_LOCK_STATUS_RETRIES < s.hub.chip.get F.WIN_LOCK_CFG_RETRY_MAX →
    ∃ t, exec (.lockBackoffExpiry) s = .next t ∧ coreOnly s t ∧ t.hub.chip.win = { s.hub.chip.win with backoff := false } ∧
      t.hub.chip.get F.WIN_LOCK_STATUS_RETRIES = s.hub.chip.get F.WIN_LOCK_STATUS_RETRIES + 1 ∧
      t.hub.chip.get F.WIN_LOCK_STATUS_RESULT = 1 ∧
      t.hub.chip.swc.offers.toList.getD 4 [] = s.hub.chip.swc.offers.toList.getD 4 [] ++ segments n (winTspec 6 0 0 false 0) [BitVec.ofNat 8 sp] ∧
      wordsKept [F.WIN_LOCK_STATUS.off] s t) ∧
  (∀ (s : State) (h n sp : Nat), s.hub.chip.win.want = some (h, sp, n) → s.hub.chip.win.backoff = true →
    s.hub.chip.get F.WIN_LOCK_CFG_RETRY_MAX ≤ s.hub.chip.get F.WIN_LOCK_STATUS_RETRIES →
    ∃ t, exec (.lockBackoffExpiry) s = .next t ∧ coreOnly s t ∧
      t.hub.chip.win = { s.hub.chip.win with want := none, backoff := false } ∧ t.hub.chip.get F.WIN_LOCK_STATUS_RESULT = 4 ∧
      wordsKept [F.WIN_LOCK_STATUS.off] s t) ∧
  (∀ (s : State) (mem : Bool) (h : Nat), s.hub.chip.lockHolder mem.toNat = some h → s.hub.chip.fab.waiting = [] → s.hub.chip.win.locals = [] →
    ∃ t, exec (.lockHoldLimit mem) s = .next t ∧ coreOnly s t ∧ t.hub.chip.lockHolder mem.toNat = none ∧
      t.hub.chip.get F.WIN_LOCK_BREAK_HOLDER = h ∧
      t.hub.chip.get F.WIN_LOCK_BREAK_SPACE = mem.toNat ∧ t.hub.chip.get F.WIN_LOCK_BREAK_FRAME = s.hub.chip.get F.FAB_FRAME ∧
      t.hub.chip.get F.WIN_LOCK_BREAKS = (s.hub.chip.get F.WIN_LOCK_BREAKS + 1) % 2 ^ 32 ∧
      t.hub.chip.get F.WIN_INT_STATUS_LOCK_BREAK = 1 ∧
      (if s.hub.chip.ownId = some h then t.hub.chip.get F.WIN_LOCK_STATUS_L_HELD = 0 ∧ t.hub.chip.get F.WIN_LOCK_STATUS_RESULT = 7 ∧
        t.hub.chip.get F.WIN_INT_STATUS_LOCK_BROKEN = 1 ∧ t.hub.chip.swc = s.hub.chip.swc
      else t.hub.chip.regs.word F.WIN_LOCK_STATUS.off = s.hub.chip.regs.word F.WIN_LOCK_STATUS.off ∧
        (t.hub.chip.swc.offers.toList.getD 4 []).length = (s.hub.chip.swc.offers.toList.getD 4 []).length + 1) ∧
      wordsKept [F.WIN_LOCK_HELD.off, F.WIN_LOCK_BREAK.off, F.WIN_LOCK_BREAK_FRAME.off, F.WIN_LOCK_BREAKS.off, F.WIN_LOCK_STATUS.off,
      F.WIN_INT_STATUS.off] s t)

/-- The PCI Express link, the rings and the staging writer (08 R263, R265, R283, R284, R287): the link goes down and comes
up, a drive's MSI sets its bit, receive and transmit rings complete descriptors, moderation signals, and a staged message
moves WR. The window bridge as a target and as the host's window (08 R258, R262, R264, R266 to R269): requests into the
staging memory are carried out and answered, and an access through a window onto another hub becomes one outstanding
message. What is written to the staging memory is poisoned no longer (14 R431). Rests on the model's choices of log 2, 3, 8,
43, 44, 45, 46, 59 and 88. Completes: pcieLinkDown, pcieLinkUp, driveMsi, dmaRxBarge, dmaTxMessage, dmaInterruptModeration,
stageRingWrite, bridgeRdRx, bridgeWrPRx, bridgeWrNpRx, hostBarAccess, driveInboundAccess. -/
def Obligations.PcieLinkRingsAndBridge : Prop :=
  (∀ (s : State) (perst : Bool), ∃ t, exec (.pcieLinkDown perst) s = .next t ∧ coreOnly s t ∧
      t.hub.chip.get F.WIN_STATUS_LINK_UP = 0 ∧ t.hub.chip.get F.WIN_STATUS_SPEED = 0 ∧
      t.hub.chip.get F.WIN_STATUS_WIDTH = 0 ∧ t.hub.chip.get F.WIN_STATUS_BME = 0 ∧ t.hub.chip.get F.WIN_INT_STATUS_LINK_DOWN = 1 ∧
      t.hub.chip.win.queue = [] ∧
      t.hub.chip.win.out = [] ∧ t.hub.chip.win.locals = [] ∧ t.hub.chip.win.accesses = [] ∧ t.hub.chip.win.pf = []) ∧
  (∀ (s : State) (speed width : BitVec 2) (e : PcieEnables), s.hub.chip.get F.WIN_PCI_ID_VID ≠ 0 → s.hub.chip.headEnd = true →
      speed ≠ 0 → width ≠ 0 →
    ∃ t, exec (.pcieLinkUp speed width e) s = .next t ∧ coreOnly s t ∧ t.hub.chip.get F.WIN_STATUS_LINK_UP = 1 ∧
      t.hub.chip.get F.WIN_STATUS_SPEED = min speed.toNat (max 1 (s.hub.chip.get F.WIN_PCI_CFG_GEN_MAX)) ∧
      t.hub.chip.get F.WIN_STATUS_WIDTH = min width.toNat (if s.hub.chip.get F.WIN_PCI_CFG_WIDTH_MAX = 1 then 1 else 2) ∧
      t.hub.chip.get F.WIN_STATUS_BME = e.busMaster.toNat ∧ t.hub.chip.get F.WIN_STATUS_PERST = 0 ∧
      t.hub.chip.win = { s.hub.chip.win with msi := e.msi } ∧
      wordsKept [F.WIN_STATUS.off] s t) ∧
  (∀ (s : State) (a : BitVec 64) (d : BitVec 32), s.hub.chip.headEnd = false → 0xFEE0_0000 ≤ a.toNat → a.toNat ≤ 0xFEE0_0FFF →
    ∃ t, exec (.driveMsi a d) s = .next t ∧ coreOnly s t ∧ t.hub.chip.bit F.WIN_DEV_MSI (d.toNat % 32) = true ∧
      t.hub.chip.get F.WIN_INT_STATUS_DEV_MSI = 1 ∧
      wordsKept [F.WIN_DEV_MSI.off, F.WIN_INT_STATUS.off] s t) ∧
  (∀ (s : State) (n : Fin 64) (d : DmaDesc) (x : RingBarge), s.hub.chip.headEnd = true → s.hub.chip.dmaTakes n.val = true →
      (s.hub.chip.dmaRing n.val).opened = none → (s.hub.chip.dmaRing n.val).stopping = false →
    s.hub.chip.win.barges = [x] → x.channel = n.val → x.barge.hdr.first = true → x.barge.hdr.last = true → x.barge.payload ≠ [] →
    x.barge.payload.length ≤ dmaLen d → d.bad = false →
    ∃ t, exec (.dmaRxBarge n [d]) s = .next t ∧ coreOnly s t ∧ t.hub.chip.win.barges = [] ∧
      t.hub.chip.get (F.WIN_DMA3_HEAD n.val) = (s.hub.chip.get (F.WIN_DMA3_HEAD n.val) + 1) % s.hub.chip.dmaSize n.val ∧
      (∃ o, t.hub.chip.outbox = s.hub.chip.outbox ++ [Out.pcie (.write false d.addr.toNat x.barge.payload), .pcie o]) ∧
      wordsKept [(F.WIN_DMA3 n.val).off, (F.WIN_DMA6 n.val).off] s t) ∧
  (∀ (s : State) (n : Fin 64) (d : DmaDesc) (v : Nat), s.hub.chip.headEnd = true → s.hub.chip.on (F.WIN_DMA2_EN n.val) = true →
      s.hub.chip.on (F.WIN_DMA2_DIR n.val) = true →
    0 < s.hub.chip.dmaPosted n.val → d.last = true → d.bad = false → dmaLen d ≤ 1008 → s.hub.chip.swc.held[4] = none →
    s.hub.chip.tunnelOn 4 n.val (fun _ => true) = some v →
    ∃ t, exec (.dmaTxMessage n [d]) s = .next t ∧ coreOnly s t ∧
      (t.hub.chip.swc.offers.toList.getD 4 []).length = (s.hub.chip.swc.offers.toList.getD 4 []).length + 1 ∧
      t.hub.chip.get (F.WIN_DMA3_HEAD n.val) = (s.hub.chip.get (F.WIN_DMA3_HEAD n.val) + 1) % s.hub.chip.dmaSize n.val ∧
      t.hub.chip.outbox.length = s.hub.chip.outbox.length + 1 ∧ wordsKept [(F.WIN_DMA3 n.val).off, (F.WIN_DMA6 n.val).off] s t) ∧
  (∀ (s : State) (n : Fin 64) (bt : Bool),
      max 1 (s.hub.chip.get (F.WIN_DMA2_MOD_COUNT n.val)) ≤ (s.hub.chip.dmaRing n.val).unsignalled →
    ∃ t, exec (.dmaInterruptModeration n bt) s = .next t ∧ coreOnly s t ∧
      t.hub.chip.outbox = s.hub.chip.outbox ++ [Out.pcie (if s.hub.chip.win.msi = true then .msi else .msix n.val)] ∧
      t.hub.chip.dmaRing n.val = { s.hub.chip.dmaRing n.val with unsignalled := 0 } ∧ wordsKept [] s t) ∧
  (∀ (s : State) (x : RingBarge) (size used : Nat), s.hub.chip.win.barges = [x] → x.channel = 0x41 → x.barge.hdr.first = true →
    x.barge.hdr.last = true → s.hub.chip.stageMsg x.key = none → size = 64 * s.hub.chip.get F.WIN_STAGE_RING_SIZE → size ≠ 0 →
    used = ((s.hub.chip.get F.WIN_STAGE_WR_PTR - s.hub.chip.get F.WIN_STAGE_RING_START) % size + size -
      (s.hub.chip.get F.WIN_STAGE_RD_PTR - s.hub.chip.get F.WIN_STAGE_RING_START) % size) % size →
      used + x.barge.payload.length ≤ size →
    ∃ t, exec (.stageRingWrite) s = .next t ∧ coreOnly s t ∧ t.hub.chip.win.barges = [] ∧ t.hub.chip.win.stageOpen = s.hub.chip.win.stageOpen ∧
      t.hub.chip.get F.WIN_STAGE_WR_PTR = (s.hub.chip.get F.WIN_STAGE_RING_START +
        (s.hub.chip.get F.WIN_STAGE_WR_PTR - s.hub.chip.get F.WIN_STAGE_RING_START + x.barge.payload.length) % size) % 2 ^ 17 ∧
      poisonCleared ((List.range x.barge.payload.length).map fun i => (s.hub.chip.get F.WIN_STAGE_RING_START +
        (s.hub.chip.get F.WIN_STAGE_WR_PTR - s.hub.chip.get F.WIN_STAGE_RING_START + i) % size) % stageSize / 16)
        [F.WIN_STAGE_WR.off] s t) ∧
  (∀ (s : State) (m : Msg) (link : LinkReply), s.hub.chip.swc.inbox[4] = [] → winKind m = 0 → winWhole m = true →
      winLseq m = false → fwaSpace (winFwa m) = 3 → fwaReserved (winFwa m) = 0 → s.hub.chip.ownId = some (fwaHub (winFwa m)) →
      s.hub.chip.on F.WIN_CTL_EN = true → s.hub.chip.on F.WIN_CTL_TGT_STAGE_EN = true → s.hub.chip.win.target = [] →
      fwaOffset (winFwa m) + winLen m ≤ stageSize →
    s.hub.chip.stagePoisoned (fwaOffset (winFwa m)) (winLen m) = false →
    ∃ t, exec (.bridgeRdRx (some m) link) s = .next t ∧ coreOnly s t ∧ t.hub.chip.win = s.hub.chip.win ∧
      t.hub.chip.swc.offers.toList.getD 4 [] = s.hub.chip.swc.offers.toList.getD 4 [] ++
        segments m.tunnel.toNat (winTspec 3 (winTag m) 0 false (winLen m)) (memRead s.hub.chip.win.stage (fwaOffset (winFwa m)) (winLen m)) ∧
      wordsKept [] s t) ∧
  (∀ (s : State) (m : Msg) (link : LinkReply), s.hub.chip.swc.inbox[4] = [] → winKind m = 1 → winWhole m = true →
      winLseq m = false → fwaSpace (winFwa m) = 3 → fwaReserved (winFwa m) = 0 → s.hub.chip.ownId = some (fwaHub (winFwa m)) →
      s.hub.chip.on F.WIN_CTL_EN = true → s.hub.chip.on F.WIN_CTL_TGT_STAGE_EN = true → s.hub.chip.win.target = [] →
      fwaOffset (winFwa m) + winLen m ≤ stageSize →
    ∃ t, exec (.bridgeWrPRx (some m) link) s = .next t ∧ coreOnly s t ∧
      t.hub.chip.win.stage = memWrite s.hub.chip.win.stage (fwaOffset (winFwa m)) (m.payload.drop 8) ∧
      t.hub.chip.swc.offers = s.hub.chip.swc.offers ∧
      poisonCleared (stageWords (fwaOffset (winFwa m)) (m.payload.drop 8).length) [] s t) ∧
  (∀ (s : State) (m : Msg) (link : LinkReply), s.hub.chip.swc.inbox[4] = [] → winKind m = 2 → winWhole m = true →
      winLseq m = false → fwaSpace (winFwa m) = 3 → fwaReserved (winFwa m) = 0 → s.hub.chip.ownId = some (fwaHub (winFwa m)) →
      s.hub.chip.on F.WIN_CTL_EN = true → s.hub.chip.on F.WIN_CTL_TGT_STAGE_EN = true → s.hub.chip.win.target = [] →
      fwaOffset (winFwa m) + winLen m ≤ stageSize →
    ∃ t, exec (.bridgeWrNpRx (some m) link) s = .next t ∧ coreOnly s t ∧
      t.hub.chip.win.stage = memWrite s.hub.chip.win.stage (fwaOffset (winFwa m)) (m.payload.drop 8) ∧
      t.hub.chip.swc.offers.toList.getD 4 [] = s.hub.chip.swc.offers.toList.getD 4 [] ++ segments m.tunnel.toNat (winTspec 4 (winTag m) 0 false 0) [] ∧
      poisonCleared (stageWords (fwaOffset (winFwa m)) (m.payload.drop 8).length) [] s t) ∧
  (∀ (s : State) (a : BitVec 36) (len fwa n r : Nat) (id : BitVec 16) (link : LinkReply), s.hub.chip.started = true →
      s.hub.chip.headEnd = true →
    s.hub.chip.on F.WIN_STATUS_LINK_UP = true → 0 < len → a.toNat < 2 ^ s.hub.chip.bar2Log2 →
      n = a.toNat / 2 ^ (s.hub.chip.bar2Log2 - 4) →
    s.hub.chip.on (F.WIN_BARWIN_EN n) = true → r = s.hub.chip.get (F.WIN_BARWIN_RANGE n) →
    s.hub.chip.rangeAccess r (a.toNat % 2 ^ (s.hub.chip.bar2Log2 - 4)) len = some fwa → s.hub.chip.rangeLocal r = false →
      s.hub.chip.on (F.WIN_RNG0_PREFETCH r) = false →
    pieces fwa len = [(fwa, len, 0)] → s.hub.chip.win.queue = [] → s.hub.chip.win.out = [] → s.hub.chip.win.quarantine = [] →
      s.hub.chip.win.releaseAt = none → s.hub.chip.win.locals = [] →
    ∃ t, exec (.hostBarAccess .bar2 false a len [] id link) s = .next t ∧ coreOnly s t ∧ t.hub.chip.win.queue = [] ∧
      t.hub.chip.win.out.length = 1 ∧ t.hub.chip.get F.WIN_STATUS_NP_OUT = 1 ∧
      t.hub.chip.get F.WIN_RD_ISSUED = (s.hub.chip.get F.WIN_RD_ISSUED + 1) % 2 ^ 32 ∧
      t.hub.chip.win.nextAccess = s.hub.chip.win.nextAccess + 1 ∧
      wordsKept [F.WIN_STATUS.off, F.WIN_RD_ISSUED.off] s t) ∧
  (∀ (s : State) (write : Bool) (a : BitVec 36) (len : Nat) (l : List Byte) (id : BitVec 16) (link : LinkReply), s.hub.chip.started = true →
      s.hub.chip.headEnd = true → s.hub.chip.on F.WIN_STATUS_LINK_UP = true →
    ∃ t, exec (.hostBarAccess .unsupported write a len l id link) s = .next t ∧ coreOnly s t ∧
      t.hub.chip.outbox = s.hub.chip.outbox ++ [Out.pcie (.completion false id.toNat 1 []), .pcie (.aer false id.toNat 1)] ∧
      t.hub.chip.win = s.hub.chip.win ∧
      wordsKept [] s t) ∧
  (∀ (s : State) (a : BitVec 64) (len fwa r off : Nat) (id : BitVec 16) (link : LinkReply), s.hub.chip.started = true →
      s.hub.chip.headEnd = false →
    s.hub.chip.on F.WIN_STATUS_LINK_UP = true → 0 < len → s.hub.chip.inbound a.toNat len = some (r, off) →
    s.hub.chip.rangeAccess r off len = some fwa → s.hub.chip.rangeLocal r = false →
    pieces fwa len = [(fwa, len, 0)] → s.hub.chip.win.queue = [] → s.hub.chip.win.out = [] → s.hub.chip.win.quarantine = [] →
      s.hub.chip.win.releaseAt = none → s.hub.chip.win.locals = [] →
    ∃ t, exec (.driveInboundAccess false a len [] id link) s = .next t ∧ coreOnly s t ∧ t.hub.chip.win.queue = [] ∧
      t.hub.chip.win.out.length = 1 ∧ t.hub.chip.get F.WIN_STATUS_NP_OUT = 1 ∧
      t.hub.chip.get F.WIN_RD_ISSUED = (s.hub.chip.get F.WIN_RD_ISSUED + 1) % 2 ^ 32 ∧
      wordsKept [F.WIN_STATUS.off, F.WIN_RD_ISSUED.off] s t)

/-- Camera streams (09 R289 to R295). A frame start opens the one stream of its virtual channel, a line joins the open
segment, the frame end sends it on the stream's tunnel, a stream lost is marked once, and a bad header is counted and
dropped. The display (09 R298 to R301). A segment is buffered or, where its lengths do not agree, discarded; a frame start
takes up the next source frame or shows the fill colour; a line is output from its segment; and a command packet is sent.
Rests on the model's choices of log 3, 5, 13 and 47. Completes: csiFrameStart, csiLineRx, csiFrameEnd, csiStreamLoss,
dsiSegmentRx, dsiFrameStart, dsiLineStart, dsiCmdSent. -/
def Obligations.CameraAndDisplay : Prop :=
  (∀ (s : State) (vc : BitVec 2) (n : Fin 4), s.hub.chip.on F.VID_CTL_CSI_EN = true → s.hub.chip.csiStreams vc.toNat = [n] →
    s.hub.chip.on (F.VID_CSI_S_STATUS_OPEN n) = false → s.hub.chip.on (F.VID_CSI_S_STATUS_LOST n) = false →
    s.hub.chip.csiSends n ((s.hub.chip.get (F.VID_CSI_S_STATUS_FCNT n) + 1) % 65536) = true →
    ∃ t, exec (.csiFrameStart vc .good) s = .next t ∧ coreOnly s t ∧ t.hub.chip.get (F.VID_CSI_S_STATUS_OPEN n) = 1 ∧
      t.hub.chip.get (F.VID_CSI_S_STATUS_FCNT n) = (s.hub.chip.get (F.VID_CSI_S_STATUS_FCNT n) + 1) % 65536 ∧
      t.hub.chip.get F.VID_STATUS_CSI_CLK = 1 ∧
      t.hub.chip.vid.csi[n] = { CsiStream.reset with frame := s.hub.chip.get F.FAB_FRAME, subns := s.hub.chip.subns } ∧
      t.hub.chip.swc = s.hub.chip.swc ∧
      wordsKept [F.VID_STATUS.off, (F.VID_CSI_S_STATUS n).off] s t) ∧
  (∀ (s : State) (vc : BitVec 2) (h : CsiHeader), s.hub.chip.on F.VID_CTL_CSI_EN = true → h = .bad ∨ h = .vcx →
    ∃ t, exec (.csiFrameStart vc h) s = .next t ∧ coreOnly s t ∧
      t.hub.chip.get F.VID_CSI_HDR_ERR = (s.hub.chip.get F.VID_CSI_HDR_ERR + 1) % 2 ^ 32 ∧ t.hub.chip.vid = s.hub.chip.vid ∧
      wordsKept [F.VID_STATUS.off, F.VID_CSI_HDR_ERR.off] s t) ∧
  (∀ (s : State) (vc : BitVec 2) (dt : BitVec 6) (l : List Byte) (n : Fin 4), s.hub.chip.on F.VID_CTL_CSI_EN = true →
    s.hub.chip.csiStreams vc.toNat = [n] → s.hub.chip.get (F.VID_CSI_S_DT n) = dt.toNat →
      s.hub.chip.on (F.VID_CSI_S_STATUS_OPEN n) = true →
    l.length ≤ 65520 → s.hub.chip.vid.csi[n].lineBytes = some l.length → s.hub.chip.vid.csi[n].lines.length < 4095 →
    16 + (s.hub.chip.vid.csi[n].lines.length + 1) * l.length ≤ s.hub.chip.segMax n →
    s.hub.chip.csiWaiting n + 16 + (s.hub.chip.vid.csi[n].lines.length + 1) * l.length ≤ 65536 →
    ∃ t, exec (.csiLineRx vc dt .good true l) s = .next t ∧ coreOnly s t ∧
      t.hub.chip.vid.csi[n] = { s.hub.chip.vid.csi[n] with lines := s.hub.chip.vid.csi[n].lines ++ [l] } ∧
      t.hub.chip.swc = s.hub.chip.swc ∧
      wordsKept [F.VID_STATUS.off] s t) ∧
  (∀ (s : State) (vc : BitVec 2) (dt : BitVec 6) (ok : Bool) (l : List Byte) (n : Fin 4), s.hub.chip.on F.VID_CTL_CSI_EN = true →
    s.hub.chip.csiStreams vc.toNat = [n] → s.hub.chip.get (F.VID_CSI_S_DT n) = dt.toNat → 65520 < l.length →
    ∃ t, exec (.csiLineRx vc dt .corrected ok l) s = .next t ∧ coreOnly s t ∧
      t.hub.chip.get F.VID_CSI_LEN_ERR = (s.hub.chip.get F.VID_CSI_LEN_ERR + 1) % 2 ^ 32 ∧
      t.hub.chip.get F.VID_CSI_ECC_CORR = (s.hub.chip.get F.VID_CSI_ECC_CORR + 1) % 2 ^ 32 ∧ t.hub.chip.vid = s.hub.chip.vid ∧
      wordsKept [F.VID_STATUS.off, F.VID_CSI_ECC_CORR.off, F.VID_CSI_LEN_ERR.off] s t) ∧
  (∀ (s : State) (vc : BitVec 2) (n : Fin 4), s.hub.chip.on F.VID_CTL_CSI_EN = true → s.hub.chip.csiStreams vc.toNat = [n] →
    s.hub.chip.on (F.VID_CSI_S_STATUS_OPEN n) = true → (s.hub.chip.tunEntry (s.hub.chip.get (F.VID_CSI_S_TUNNEL n))).valid = true →
    (s.hub.chip.tunEntry (s.hub.chip.get (F.VID_CSI_S_TUNNEL n))).adapter = 5 →
      (s.hub.chip.tunEntry (s.hub.chip.get (F.VID_CSI_S_TUNNEL n))).channel = n.val →
    (s.hub.chip.vid.csi[n].lines.flatten.length) ≤ 992 →
    ∃ t, exec (.csiFrameEnd vc .good) s = .next t ∧ coreOnly s t ∧ t.hub.chip.get (F.VID_CSI_S_STATUS_OPEN n) = 0 ∧
      t.hub.chip.get F.VID_CSI_FRAMES = (s.hub.chip.get F.VID_CSI_FRAMES + 1) % 2 ^ 32 ∧
      t.hub.chip.vid.csi[n].lines = [] ∧
      (t.hub.chip.swc.offers.toList.getD 5 []).length = (s.hub.chip.swc.offers.toList.getD 5 []).length + 1 ∧
      wordsKept [F.VID_STATUS.off, (F.VID_CSI_S_STATUS n).off, F.VID_CSI_FRAMES.off] s t) ∧
  (∀ (s : State) (n : Fin 4), s.hub.chip.on F.VID_CTL_CSI_EN = true → s.hub.chip.on (F.VID_CSI_S_EN n) = true →
      s.hub.chip.on (F.VID_CSI_S_STATUS_LOST n) = false →
    s.hub.chip.on (F.VID_CSI_S_STATUS_OPEN n) = false →
    ∃ t, exec (.csiStreamLoss n) s = .next t ∧ coreOnly s t ∧ t.hub.chip.get (F.VID_CSI_S_STATUS_LOST n) = 1 ∧
      t.hub.chip.get F.VID_INT_STATUS_CSI_LOSS = 1 ∧ t.hub.chip.vid = s.hub.chip.vid ∧
      t.hub.chip.swc = s.hub.chip.swc ∧ wordsKept [(F.VID_CSI_S_STATUS n).off, F.VID_INT_STATUS.off] s t) ∧
  (∀ (s : State) (m : Msg) (w first n lb : Nat), m.channel = 0x10 → m.cmark = false → 16 ≤ m.payload.length →
    w = beVal (m.payload.take 16) → first = w / 2 ^ 36 % 2 ^ 16 → n = w / 2 ^ 24 % 2 ^ 12 → lb = w / 2 ^ 8 % 2 ^ 16 →
    lb = s.hub.chip.dsiLineBytes → first + n ≤ s.hub.chip.get F.VID_DSI_V0_VACT → m.payload.length = 16 + n * lb →
      s.hub.chip.vid.shown = none →
    s.hub.chip.dsiHeld + n * lb ≤ 65536 →
    ∃ t, exec (.dsiSegmentRx (some m)) s = .next t ∧ coreOnly s t ∧
      t.hub.chip.vid = { s.hub.chip.vid with buf := s.hub.chip.vid.buf ++ [{ fcnt := w / 2 ^ 52 % 2 ^ 16, frame := w / 2 ^ 96 % 2 ^ 32, subns := w / 2 ^ 76 % 2 ^ 20, firstLine := first, fs := w.testBit 7, lines := cutLines lb n (m.payload.drop 16) }] } ∧
      wordsKept [] s t) ∧
  (∀ (s : State) (m : Msg), m.channel = 0x10 → m.cmark = false → m.payload.length < 16 →
    ∃ t, exec (.dsiSegmentRx (some m)) s = .next t ∧ coreOnly s t ∧
      t.hub.chip.get F.VID_RX_DISCARD = (s.hub.chip.get F.VID_RX_DISCARD + 1) % 2 ^ 32 ∧ t.hub.chip.vid = s.hub.chip.vid ∧
      wordsKept [F.VID_RX_DISCARD.off] s t) ∧
  (∀ (s : State) (x : DsiSegment), s.hub.chip.on F.VID_CTL_DSI_EN = true → s.hub.chip.vid.buf = [x] → x.fs = true →
      s.hub.chip.vid.shown ≠ some x.key →
    x.fcnt < 65536 →
    s.hub.chip.dsiSlips = false →
    ∃ t, exec (.dsiFrameStart) s = .next t ∧ coreOnly s t ∧ t.hub.chip.get F.VID_DSI_STATUS_SHOWING = 1 ∧
      t.hub.chip.get F.VID_DSI_STATUS_SRC_FCNT = x.fcnt ∧
      t.hub.chip.vid = { s.hub.chip.vid with line := 0, shown := some x.key, started := some s.hub.chip.now } ∧
      t.hub.chip.get F.VID_DSI_FRAMES = (s.hub.chip.get F.VID_DSI_FRAMES + 1) % 2 ^ 32 ∧
      wordsKept [F.VID_STATUS.off, F.VID_DSI_FRAMES.off, F.VID_DSI_STATUS.off] s t) ∧
  (∀ s : State, s.hub.chip.on F.VID_CTL_DSI_EN = true → s.hub.chip.vid.buf = [] →
    ∃ t, exec (.dsiFrameStart) s = .next t ∧ coreOnly s t ∧ t.hub.chip.get F.VID_DSI_STATUS_SHOWING = 0 ∧
      t.hub.chip.get F.VID_DSI_BLANK = (s.hub.chip.get F.VID_DSI_BLANK + 1) % 2 ^ 32 ∧
      t.hub.chip.get F.VID_INT_STATUS_DSI_UNDERRUN = 1 ∧
      t.hub.chip.get F.VID_DSI_SLIP = (s.hub.chip.get F.VID_DSI_SLIP + s.hub.chip.dsiSlips.toNat) % 2 ^ 32 ∧
      t.hub.chip.vid = { s.hub.chip.vid with line := 0, started := some s.hub.chip.now } ∧
      wordsKept [F.VID_STATUS.off, F.VID_DSI_SLIP.off, F.VID_INT_STATUS.off, F.VID_DSI_FRAMES.off,
        F.VID_DSI_BLANK.off, F.VID_DSI_STATUS.off] s t) ∧
  (∀ (s : State) (y : BitVec 16) (x : DsiSegment), s.hub.chip.on F.VID_CTL_DSI_EN = true →
      y.toNat < s.hub.chip.get F.VID_DSI_V0_VACT →
    s.hub.chip.on F.VID_DSI_STATUS_SHOWING = true → s.hub.chip.vid.shown = some x.key → s.hub.chip.vid.buf = [x] →
      x.firstLine ≤ y.toNat →
    y.toNat < x.firstLine + x.lines.length →
    ∃ t, exec (.dsiLineStart y) s = .next t ∧ coreOnly s t ∧
      t.hub.chip.outbox = s.hub.chip.outbox ++ [Out.dsiLine y.toNat s.hub.chip.dsiMode (x.lines.getD (y.toNat - x.firstLine) [])] ∧
      t.hub.chip.vid.line = y.toNat + 1 ∧
      t.hub.chip.vid.buf = (if y.toNat + 1 = x.firstLine + x.lines.length then [] else [x.freed y.toNat]) ∧ wordsKept [] s t) ∧
  (∀ (s : State) (y : BitVec 16), s.hub.chip.on F.VID_CTL_DSI_EN = true → y.toNat < s.hub.chip.get F.VID_DSI_V0_VACT →
    s.hub.chip.on F.VID_DSI_STATUS_SHOWING = false →
    ∃ t, exec (.dsiLineStart y) s = .next t ∧ coreOnly s t ∧ t.hub.chip.outbox = (s.hub.chip.dsiFill y.toNat).outbox ∧
      t.hub.chip.outbox.length = s.hub.chip.outbox.length + 1 ∧
      t.hub.chip.vid = { s.hub.chip.vid with line := y.toNat + 1 } ∧
      wordsKept [] s t) ∧
  (∀ s : State, s.hub.chip.on F.VID_DSI_CMD_BUSY = true →
    ∃ t, exec (.dsiCmdSent) s = .next t ∧ coreOnly s t ∧ t.hub.chip.get F.VID_DSI_CMD_BUSY = 0 ∧
      t.hub.chip.get F.VID_INT_STATUS_CMD_DONE = 1 ∧
      t.hub.chip.outbox = s.hub.chip.outbox ++ [Out.dsiPacket (s.hub.chip.get F.VID_DSI_CMD_VC) (s.hub.chip.get F.VID_DSI_CMD_DT)
        (((List.range 16).flatMap fun i => beBytes 4 (s.hub.chip.get (F.VID_DSI_CMD_BUF i))).take
          (if dsiShort (s.hub.chip.get F.VID_DSI_CMD_DT) = true then 2 else max 1 (min 64 (s.hub.chip.get F.VID_DSI_CMD_LEN))))] ∧
      wordsKept [F.VID_DSI_CMD.off, F.VID_INT_STATUS.off] s t)

/-- Frames of the Ethernet adapter (09 R302 to R308). A bad or reserved frame is dropped and counted; a frame goes to the
peer that its address was learned at, or floods; an address is learned; a frame from the fabric never returns to it; and a
held frame starts. Rests on the model's choices of log 3, 5 and 48. Completes: ethLocalFrameRx, ethFabricFrameRx,
ethTxStart, ethAgeExpiry, mdioFrameDone, ethE0LinkChange, ethPlcaStatusChange. -/
def Obligations.EthernetFrames : Prop :=
  (∀ (s : State) (x : Fin 3) (l : List Byte) (ok : Bool), s.hub.chip.on F.ETH_CTL_EN = true →
      s.hub.chip.bit F.ETH_CTL_PORT_EN x.val = true →
    ok = false ∨ ethLength l < 64 ∨ s.hub.chip.ethMax < ethLength l →
    ∃ t, exec (.ethLocalFrameRx x l ok) s = .next t ∧ coreOnly s t ∧
      t.hub.chip.get (F.ETH_RX_ERR x) = (s.hub.chip.get (F.ETH_RX_ERR x) + 1) % 2 ^ 32 ∧ t.hub.chip.eth = s.hub.chip.eth ∧
      t.hub.chip.swc = s.hub.chip.swc ∧
      wordsKept [(F.ETH_RX_ERR x).off] s t) ∧
  (∀ (s : State) (x : Fin 3) (l : List Byte), s.hub.chip.on F.ETH_CTL_EN = true → s.hub.chip.bit F.ETH_CTL_PORT_EN x.val = true →
    64 ≤ ethLength l → ethLength l ≤ s.hub.chip.ethMax → macOf l / 16 = 0x0180_C200_000 →
    ∃ t, exec (.ethLocalFrameRx x l true) s = .next t ∧ coreOnly s t ∧
      t.hub.chip.get F.ETH_RSVD_DROP = (s.hub.chip.get F.ETH_RSVD_DROP + 1) % 2 ^ 32 ∧
      t.hub.chip.get (F.ETH_RX_FRAMES x) = (s.hub.chip.get (F.ETH_RX_FRAMES x) + 1) % 2 ^ 32 ∧
      t.hub.chip.eth = (s.hub.chip.ethPause x l).eth ∧ (macOf l ≠ 0x0180_C200_0001 → t.hub.chip.eth = s.hub.chip.eth) ∧
      t.hub.chip.swc = s.hub.chip.swc ∧
      wordsKept [(F.ETH_RX_FRAMES x).off, F.ETH_RSVD_DROP.off] s t) ∧
  (∀ (s : State) (x : Fin 3) (l : List Byte) (v h : Nat), s.hub.chip.on F.ETH_CTL_EN = true →
      s.hub.chip.bit F.ETH_CTL_PORT_EN x.val = true →
    64 ≤ ethLength l → ethLength l ≤ s.hub.chip.ethMax → macOf l / 16 ≠ 0x0180_C200_000 → ethTagged l = true → ethTci l % 4096 ≠ 0 →
    s.hub.chip.on (F.ETH_E_CFG_ACCEPT_TAGGED x) = true → s.hub.chip.vlanOf (ethTci l % 4096) = some v →
      s.hub.chip.member v x.val = true →
    s.hub.chip.on F.ETH_CTL_LEARN_EN = false → groupMac (macOf l) = false → s.hub.chip.learnedPlace (macOf l) v = some (true, h) →
    s.hub.chip.on (F.ETH_PEER_VALID h) = true →
    ∃ t, exec (.ethLocalFrameRx x l true) s = .next t ∧ coreOnly s t ∧
      (t.hub.chip.swc.offers.toList.getD 6 []).length = (s.hub.chip.swc.offers.toList.getD 6 []).length + (segments (s.hub.chip.get (F.ETH_PEER_TUNNEL h)) 0 l).length ∧
      t.hub.chip.get (F.ETH_RX_FRAMES x) = (s.hub.chip.get (F.ETH_RX_FRAMES x) + 1) % 2 ^ 32 ∧ t.hub.chip.eth = s.hub.chip.eth ∧
      wordsKept [(F.ETH_RX_FRAMES x).off] s t) ∧
  (∀ (s : State) (x : Fin 3) (l : List Byte) (v : Nat), s.hub.chip.on F.ETH_CTL_EN = true →
      s.hub.chip.bit F.ETH_CTL_PORT_EN x.val = true →
    64 ≤ ethLength l → ethLength l ≤ s.hub.chip.ethMax → macOf l / 16 ≠ 0x0180_C200_000 → ethTagged l = true → ethTci l % 4096 ≠ 0 →
    s.hub.chip.on (F.ETH_E_CFG_ACCEPT_TAGGED x) = true → s.hub.chip.vlanOf (ethTci l % 4096) = some v →
      s.hub.chip.member v x.val = true →
    s.hub.chip.on F.ETH_CTL_LEARN_EN = false → groupMac (macOf l) = true → s.hub.chip.membersBut v (some x) = [] →
    ∃ t, exec (.ethLocalFrameRx x l true) s = .next t ∧ coreOnly s t ∧
      t.hub.chip.get F.ETH_FLOOD = (s.hub.chip.get F.ETH_FLOOD + 1) % 2 ^ 32 ∧ t.hub.chip.eth = s.hub.chip.eth ∧
      (t.hub.chip.swc.offers.toList.getD 6 []).length = (s.hub.chip.swc.offers.toList.getD 6 []).length + (if s.hub.chip.on (F.ETH_VLAN0_FABRIC v) = true then (segments (s.hub.chip.get (F.ETH_VLAN1_FLOOD_TUNNEL v)) 0 l).length else 0) ∧
      wordsKept [(F.ETH_RX_FRAMES x).off, F.ETH_FLOOD.off] s t) ∧
  (∀ (s : State) (m : Msg), s.hub.chip.on F.ETH_CTL_EN = true → m.cmark = false → ethTagged m.payload = false →
    ∃ t, exec (.ethFabricFrameRx (some m)) s = .next t ∧ coreOnly s t ∧
      t.hub.chip.get F.ETH_VLAN_DROP = (s.hub.chip.get F.ETH_VLAN_DROP + 1) % 2 ^ 32 ∧ t.hub.chip.eth = s.hub.chip.eth ∧
      t.hub.chip.swc = s.hub.chip.swc ∧
      wordsKept [F.ETH_VLAN_DROP.off] s t) ∧
  (∀ (s : State) (m : Msg) (v : Nat) (y : Fin 3), s.hub.chip.on F.ETH_CTL_EN = true → m.cmark = false → ethTagged m.payload = true →
    s.hub.chip.vlanOf (ethTci m.payload % 4096) = some v → s.hub.chip.on (F.ETH_VLAN0_FABRIC v) = true →
      s.hub.chip.on F.ETH_CTL_LEARN_EN = false →
    groupMac (macOf m.payload) = true → s.hub.chip.membersBut v none = [y] → s.hub.chip.eth.tx[y] = [] → m.payload.length ≤ 9212 →
    ∃ t, exec (.ethFabricFrameRx (some m)) s = .next t ∧ coreOnly s t ∧
      t.hub.chip.eth.tx[y] = [if (s.hub.chip.get (F.ETH_VLAN0_UNTAG v)).testBit y.val = true then ethNoTag m.payload else m.payload] ∧ t.hub.chip.swc = s.hub.chip.swc ∧
      wordsKept [] s t) ∧
  (∀ (s : State) (m : Msg) (v i : Nat), s.hub.chip.on F.ETH_CTL_EN = true → m.cmark = false → ethTagged m.payload = true →
    s.hub.chip.vlanOf (ethTci m.payload % 4096) = some v → v < 64 → s.hub.chip.on (F.ETH_VLAN0_FABRIC v) = true →
      s.hub.chip.on F.ETH_CTL_LEARN_EN = true →
    groupMac (macOf m.payload) = true → s.hub.chip.membersBut v none = [] →
    s.hub.chip.learnedAt (macOf (m.payload.drop 6)) v = some i → s.hub.chip.on (F.ETH_LRN1_STATIC i) = false → i < 1024 →
    ∃ t, exec (.ethFabricFrameRx (some m)) s = .next t ∧ coreOnly s t ∧ t.hub.chip.get (F.ETH_LRN1_REMOTE i) = 1 ∧
      t.hub.chip.get (F.ETH_LRN2_DEST i) = m.src.toNat ∧
      t.hub.chip.learnedPlace (macOf (m.payload.drop 6)) v = some (true, m.src.toNat) ∧ t.hub.chip.swc = s.hub.chip.swc) ∧
  (∀ (s : State) (x : Fin 3) (l : List Byte) (rest : List (List Byte)), s.hub.chip.eth.tx[x] = l :: rest →
      s.hub.chip.on F.ETH_CTL_EN = true → s.hub.chip.bit F.ETH_CTL_PORT_EN x.val = true →
    x ≠ 0 ∨ s.hub.chip.on F.ETH_STATUS_E0_LINK = true ∧ s.hub.chip.eth.pausedUntil ≤ s.hub.chip.now →
    ∃ t, exec (.ethTxStart x) s = .next t ∧ coreOnly s t ∧ t.hub.chip.outbox = s.hub.chip.outbox ++ [Out.ethFrame x.val (l ++ ethFcs l)] ∧
      t.hub.chip.eth = { s.hub.chip.eth with tx := upd s.hub.chip.eth.tx x fun _ => rest } ∧
      t.hub.chip.get (F.ETH_TX_FRAMES x) = (s.hub.chip.get (F.ETH_TX_FRAMES x) + 1) % 2 ^ 32 ∧
      wordsKept [(F.ETH_TX_FRAMES x).off] s t) ∧
  (∀ (s : State) (i : BitVec 10), s.hub.chip.on (F.ETH_LRN1_VALID i.toNat) = true →
      s.hub.chip.on (F.ETH_LRN1_STATIC i.toNat) = false →
    s.hub.chip.get F.ETH_LEARN_CFG_AGE ≠ 0 →
    ∃ t, exec (.ethAgeExpiry i) s = .next t ∧ coreOnly s t ∧ t.hub.chip.get (F.ETH_LRN1_VALID i.toNat) = 0 ∧
      wordsKept [(F.ETH_LRN1 i.toNat).off, F.ETH_STATUS.off] s t) ∧
  (∀ (s : State) (d : BitVec 16), s.hub.chip.on F.ETH_MDIO_CMD_BUSY = true →
    ∃ t, exec (.mdioFrameDone d) s = .next t ∧ coreOnly s t ∧ t.hub.chip.get F.ETH_MDIO_CMD_BUSY = 0 ∧
      t.hub.chip.get F.ETH_INT_STATUS_MDIO_DONE = 1 ∧
      t.hub.chip.get F.ETH_MDIO_DATA_DATA = (if s.hub.chip.get F.ETH_MDIO_CMD_OP = 1 ∨ s.hub.chip.get F.ETH_MDIO_CMD_OP = 4 then d.toNat
        else s.hub.chip.get F.ETH_MDIO_DATA_DATA) ∧ wordsKept [F.ETH_MDIO_CMD.off, F.ETH_MDIO_DATA.off, F.ETH_INT_STATUS.off] s t) ∧
  (∀ (s : State) (up : Bool) (speed : BitVec 2),
    ∃ t, exec (.ethE0LinkChange up speed) s = .next t ∧ coreOnly s t ∧ t.hub.chip.get F.ETH_STATUS_E0_LINK = up.toNat ∧
      t.hub.chip.get F.ETH_STATUS_E0_SPEED = (if up = true then speed.toNat else 0) ∧
      t.hub.chip.get F.ETH_INT_STATUS_E0_LINK_CHG = 1 ∧
      wordsKept [F.ETH_STATUS.off, F.ETH_INT_STATUS.off] s t) ∧
  (∀ (s : State) (x : Fin 2) (ok : Bool),
    ∃ t, exec (.ethPlcaStatusChange x ok) s = .next t ∧ coreOnly s t ∧ t.hub.chip.get (F.ETH_T1S_STATUS_PLCA_OK x) = ok.toNat ∧
      t.hub.chip.get F.ETH_INT_STATUS_PLCA_CHG = 1 ∧
      wordsKept [(F.ETH_T1S_STATUS x).off, F.ETH_INT_STATUS.off] s t)

/-- Signal records of the field gateway (10 R312, R313, R318, R319). A record for an entry that is no OUT entry is dropped
and counted; one with a good quality updates its entry; a batch goes to the fabric as one offer; a silent IN entry turns
stale; a silent OUT entry takes its default. Field pins (10 R330 to R332). A debounced level is taken and its edge counted,
ten calm windows end chatter, and a pin held too long is stuck. Rests on the model's choices of log 5 and 49. Completes:
signalBargeRx, signalBatchExpiry, signalStale, signalSubstitute, fioEdge, fioChatterWindowEnd, fioStuck. -/
def Obligations.FieldRecordsAndPins : Prop :=
  (∀ (s : State) (m : Msg) (w i : Nat), s.hub.chip.on F.FLD_CTL_EN = true → m.payload.length = 16 → w = beVal m.payload →
    i = w / 2 ^ 118 % 1024 → s.hub.chip.sigValid i = false ∨ s.hub.chip.sigOut i = false →
    ∃ t, exec (.signalBargeRx (some m)) s = .next t ∧ coreOnly s t ∧
      t.hub.chip.get F.FLD_REC_DROP = (s.hub.chip.get F.FLD_REC_DROP + 1) % 2 ^ 32 ∧
      t.hub.chip.get F.FLD_REC_RX = (s.hub.chip.get F.FLD_REC_RX + 1) % 2 ^ 32 ∧ t.hub.chip.get F.FLD_INT_STATUS_REC_DROP = 1 ∧
      t.hub.chip.fld = s.hub.chip.fld ∧
      wordsKept [F.FLD_REC_RX.off, F.FLD_REC_DROP.off, F.FLD_INT_STATUS.off] s t) ∧
  (∀ (s : State) (m : Msg) (w i : Nat), s.hub.chip.on F.FLD_CTL_EN = true → m.payload.length = 16 → w = beVal m.payload →
    i = w / 2 ^ 118 % 1024 → w / 2 ^ 115 % 8 ≤ 1 → s.hub.chip.sigValid i = true → s.hub.chip.sigOut i = true →
      s.hub.chip.get (F.FLD_SIG0_SOURCE i) = 6 →
    ∃ t, exec (.signalBargeRx (some m)) s = .next t ∧ coreOnly s t ∧
      t.hub.chip.getS (F.FLD_SST0 i) = signed 32 (w / 2 ^ 64 % 2 ^ 32) ∧
      t.hub.chip.get (F.FLD_SST1_QUALITY i) = w / 2 ^ 115 % 8 ∧
      t.hub.chip.get (F.FLD_SST1_CNT i) = (s.hub.chip.get (F.FLD_SST1_CNT i) + 1) % 65536 ∧
      t.hub.chip.get (F.FLD_FIO_STATUS_OUT (s.hub.chip.get (F.FLD_SIG0_REF i) % 16)) =
        (s.hub.chip.scaleOut i (signed 32 (w / 2 ^ 64 % 2 ^ 32)) != 0).toNat ∧
      wordsKept [F.FLD_REC_RX.off, (F.FLD_SST0 i).off, (F.FLD_SST1 i).off,
      (F.FLD_FIO_STATUS (s.hub.chip.get (F.FLD_SIG0_REF i) % 16)).off,
        F.FLD_FIO_LEVEL.off] s t) ∧
  (∀ (s : State) (tun : BitVec 12) (l : List (List Byte)), s.hub.chip.fld.batches = [(tun.toNat, l)] →
    ∃ t, exec (.signalBatchExpiry tun) s = .next t ∧ coreOnly s t ∧ t.hub.chip.fld = { s.hub.chip.fld with batches := [] } ∧
      (t.hub.chip.swc.offers.toList.getD 7 []).length = (s.hub.chip.swc.offers.toList.getD 7 []).length + 1 ∧ wordsKept [] s t) ∧
  (∀ (s : State) (i : BitVec 10), s.hub.chip.sigValid i.toNat = true → s.hub.chip.sigOut i.toNat = false →
      s.hub.chip.get (F.FLD_SIG6_TIMEOUT i.toNat) ≠ 0 →
    (s.hub.chip.sig i.toNat).updated ≠ none → (s.hub.chip.sig i.toNat).comm = false →
      s.hub.chip.get (F.FLD_SIG0_SOURCE i.toNat) ≠ 6 →
    ∃ t, exec (.signalStale i) s = .next t ∧ coreOnly s t ∧ t.hub.chip.get (F.FLD_SST1_QUALITY i.toNat) = 2 ∧
      (t.hub.chip.sig i.toNat).stale = true ∧
      t.hub.chip.getS (F.FLD_SST0 i.toNat) = s.hub.chip.getS (F.FLD_SST0 i.toNat) ∧ wordsKept [(F.FLD_SST1 i.toNat).off] s t) ∧
  (∀ (s : State) (i : BitVec 10), s.hub.chip.sigValid i.toNat = true → s.hub.chip.sigOut i.toNat = true →
      s.hub.chip.on (F.FLD_SIG0_SUBST_EN i.toNat) = true →
    s.hub.chip.get (F.FLD_SIG6_TIMEOUT i.toNat) ≠ 0 →
    (s.hub.chip.get (F.FLD_SIG0_SOURCE i.toNat) ≤ 5 →
      fieldFits (s.hub.chip.on (F.FLD_SIG0_MSB_FIRST i.toNat)) (s.hub.chip.sigLen i.toNat) (s.hub.chip.get (F.FLD_SIG1_START i.toNat))
        (if s.hub.chip.get (F.FLD_SIG0_SOURCE i.toNat) ≤ 3 then 64 else 16) = true) →
    ∃ t, exec (.signalSubstitute i) s = .next t ∧ coreOnly s t ∧
      t.hub.chip.getS (F.FLD_SST0 i.toNat) = s.hub.chip.getS (F.FLD_SIG7 i.toNat) ∧
      t.hub.chip.get (F.FLD_SST1_QUALITY i.toNat) = 6 ∧
      t.hub.chip.get (F.FLD_SST1_CNT i.toNat) = (s.hub.chip.get (F.FLD_SST1_CNT i.toNat) + 1) % 65536) ∧
  (∀ (s : State) (p : Fin 16) (high : Bool), s.hub.chip.on F.FLD_CTL_EN = true →
    s.hub.chip.on (F.FLD_FIO_STATUS_LEVEL p) = (high != s.hub.chip.on (F.FLD_FIO_CFG_INVERT p)) →
    ∃ t, exec (.fioEdge p high) s = .next t ∧ coreOnly s t ∧ t.hub.chip.get (F.FLD_FIO_STATUS_RAW p) = high.toNat ∧
      t.hub.chip.fld = s.hub.chip.fld ∧
      wordsKept [(F.FLD_FIO_STATUS p).off] s t) ∧
  (∀ (s : State) (p : Fin 16) (high : Bool), s.hub.chip.on F.FLD_CTL_EN = true →
    s.hub.chip.on (F.FLD_FIO_STATUS_LEVEL p) ≠ (high != s.hub.chip.on (F.FLD_FIO_CFG_INVERT p)) →
      s.hub.chip.get (F.FLD_FIO_CFG_EDGE p) = 2 →
    ∃ t, exec (.fioEdge p high) s = .next t ∧ coreOnly s t ∧
      t.hub.chip.get (F.FLD_FIO_STATUS_LEVEL p) = (high != s.hub.chip.on (F.FLD_FIO_CFG_INVERT p)).toNat ∧
      t.hub.chip.get (F.FLD_FIO_STATUS_RAW p) = high.toNat ∧
      t.hub.chip.get (F.FLD_FIO_COUNT p) = (s.hub.chip.get (F.FLD_FIO_COUNT p) + 1) % 2 ^ 32 ∧
      t.hub.chip.get (F.FLD_FIO_STATUS_WIN_EDGES p) = min (s.hub.chip.get (F.FLD_FIO_STATUS_WIN_EDGES p) + 1) 127) ∧
  (∀ (s : State) (p : Fin 16), s.hub.chip.on (F.FLD_FIO_STATUS_CHATTER p) = true → 9 ≤ s.hub.chip.fld.calm[p] →
    2 * s.hub.chip.get (F.FLD_FIO_STATUS_WIN_EDGES p) < s.hub.chip.chatLimit p →
    ∃ t, exec (.fioChatterWindowEnd p) s = .next t ∧ coreOnly s t ∧ t.hub.chip.get (F.FLD_FIO_STATUS_CHATTER p) = 0 ∧
      t.hub.chip.get (F.FLD_FIO_STATUS_WIN_EDGES p) = 0) ∧
  (∀ (s : State) (p : Fin 16), s.hub.chip.on (F.FLD_FIO_STATUS_CHATTER p) = false →
    ∃ t, exec (.fioChatterWindowEnd p) s = .next t ∧ coreOnly s t ∧ t.hub.chip.get (F.FLD_FIO_STATUS_WIN_EDGES p) = 0 ∧
      wordsKept [(F.FLD_FIO_STATUS p).off] s t) ∧
  (∀ (s : State) (p : Fin 16), s.hub.chip.on (F.FLD_FIO_STATUS_LEVEL p) = true → s.hub.chip.get (F.FLD_FIO_CFG_STUCK_S p) ≠ 0 →
    s.hub.chip.on (F.FLD_FIO_STATUS_STUCK p) = false →
    ∃ t, exec (.fioStuck p) s = .next t ∧ coreOnly s t ∧ t.hub.chip.get (F.FLD_FIO_STATUS_STUCK p) = 1 ∧
      t.hub.chip.get F.FLD_INT_STATUS_FIO_STUCK = 1)

/-- CAN in the field gateway (10 R321 to R324). Remote frames and unmatched frames are counted, a matched frame updates its
entry, the pending frame with its bus free is sent, and bus-off, recovery and errors show in the registers. Modbus in the
field gateway (10 R325 to R328). A queued entry starts a transaction; its answer, an exception or a second timeout ends it,
the first timeout repeats the request, and a broadcast's quiet time ends. Rests on the model's choices of log 3, 5, 16 and
49. Completes: canFrameRx, canFrameLoad, canFrameTxDone, canBusOff, canBusRecover, canBusError, modbusTxnStart,
modbusResponseRx, modbusTimeout, modbusBroadcastIdleEnd. -/
def Obligations.CanAndModbus : Prop :=
  (∀ (s : State) (n : Fin 4) (ide fd : Bool) (id : BitVec 29) (l : List Byte), s.hub.chip.canOn n = true →
    fd = false ∨ s.hub.chip.on (F.FLD_CAN_CTL_FD_EN n) = true →
    ∃ t, exec (.canFrameRx n ide fd true id l) s = .next t ∧ coreOnly s t ∧
      t.hub.chip.get F.FLD_CAN_RTR = (s.hub.chip.get F.FLD_CAN_RTR + 1) % 2 ^ 32 ∧ t.hub.chip.fld = s.hub.chip.fld ∧
      wordsKept [F.FLD_CAN_RTR.off] s t) ∧
  (∀ (s : State) (n : Fin 4) (ide fd : Bool) (id : BitVec 29) (l : List Byte), s.hub.chip.canOn n = true →
    fd = false ∨ s.hub.chip.on (F.FLD_CAN_CTL_FD_EN n) = true → s.hub.chip.canMatch n.val ide id.toNat = none →
    ∃ t, exec (.canFrameRx n ide fd false id l) s = .next t ∧ coreOnly s t ∧
      t.hub.chip.get (F.FLD_CAN_RX n) = (s.hub.chip.get (F.FLD_CAN_RX n) + 1) % 2 ^ 32 ∧
      t.hub.chip.get F.FLD_CAN_UNMATCHED = (s.hub.chip.get F.FLD_CAN_UNMATCHED + 1) % 2 ^ 32 ∧ t.hub.chip.fld = s.hub.chip.fld ∧
      wordsKept [(F.FLD_CAN_RX n).off, F.FLD_CAN_UNMATCHED.off] s t) ∧
  (∀ (s : State) (n : Fin 4) (ide : Bool) (id : BitVec 29) (l : List Byte) (k i : Nat), s.hub.chip.canOn n = true →
    s.hub.chip.canMatch n.val ide id.toNat = some k → s.hub.chip.sigsOf false n.val k = [i] →
    fieldFits (s.hub.chip.on (F.FLD_SIG0_MSB_FIRST i)) (s.hub.chip.sigLen i) (s.hub.chip.get (F.FLD_SIG1_START i)) l.length = true →
    ∃ t, exec (.canFrameRx n ide false false id l) s = .next t ∧ coreOnly s t ∧
      t.hub.chip.get (F.FLD_CAN_RX n) = (s.hub.chip.get (F.FLD_CAN_RX n) + 1) % 2 ^ 32 ∧
      t.hub.chip.get (F.FLD_SST1_CNT i) = (s.hub.chip.get (F.FLD_SST1_CNT i) + 1) % 65536 ∧
      (t.hub.chip.sig i).updated = some s.hub.chip.now ∧
      t.hub.chip.getS (F.FLD_SST0 i) = (s.hub.chip.scaleIn i (takeField l (s.hub.chip.on (F.FLD_SIG0_MSB_FIRST i)) (s.hub.chip.sigLen i) (s.hub.chip.get (F.FLD_SIG1_START i)))).1 ∧
      wordsKept [(F.FLD_CAN_RX n).off, F.FLD_REC_SENT.off, (F.FLD_SST0 i).off, (F.FLD_SST1 i).off] s t) ∧
  (∀ (s : State) (n : Fin 4) (k : Nat), s.hub.chip.canOn n = true → s.hub.chip.on (F.FLD_CAN_CTL_LISTEN_ONLY n) = false →
      s.hub.chip.fld.loaded[n] = none →
    s.hub.chip.fld.pending = [k] → s.hub.chip.get (F.FLD_FRM0_BUS k) = n.val →
    ∃ t, exec (.canFrameLoad n) s = .next t ∧ coreOnly s t ∧
      t.hub.chip.fld = { s.hub.chip.fld with pending := [], loaded := upd s.hub.chip.fld.loaded n fun _ => some k } ∧
      t.hub.chip.outbox.length = s.hub.chip.outbox.length + 1 ∧ wordsKept [] s t) ∧
  (∀ (s : State) (n : Fin 4), s.hub.chip.fld.loaded[n] ≠ none →
    ∃ t, exec (.canFrameTxDone n) s = .next t ∧ coreOnly s t ∧
      t.hub.chip.fld = { s.hub.chip.fld with loaded := upd s.hub.chip.fld.loaded n fun _ => none } ∧
      t.hub.chip.get (F.FLD_CAN_TX n) = (s.hub.chip.get (F.FLD_CAN_TX n) + 1) % 2 ^ 32 ∧ wordsKept [(F.FLD_CAN_TX n).off] s t) ∧
  (∀ (s : State) (n : Fin 4), s.hub.chip.bit F.FLD_STATUS_BUS_OFF n.val = false →
    ∃ t, exec (.canBusOff n) s = .next t ∧ coreOnly s t ∧ t.hub.chip.bit F.FLD_STATUS_BUS_OFF n.val = true ∧
      t.hub.chip.get F.FLD_INT_STATUS_CAN_BUSOFF = 1 ∧
      t.hub.chip.get (F.FLD_CAN_ERR_STATE n) = 2 ∧ t.hub.chip.get F.ALM_RAISED = (s.hub.chip.get F.ALM_RAISED + 1) % 2 ^ 32) ∧
  (∀ (s : State) (n : Fin 4), s.hub.chip.bit F.FLD_STATUS_BUS_OFF n.val = true →
      s.hub.chip.on (F.FLD_CAN_CTL_AUTO_RECOVER n) = true →
    ∃ t, exec (.canBusRecover n) s = .next t ∧ coreOnly s t ∧ t.hub.chip.bit F.FLD_STATUS_BUS_OFF n.val = false ∧
      t.hub.chip.bit F.FLD_STATUS_ERR_PASSIVE n.val = false ∧
      t.hub.chip.get (F.FLD_CAN_ERR_TEC n) = 0 ∧ t.hub.chip.get (F.FLD_CAN_ERR_REC n) = 0 ∧ t.hub.chip.fld = s.hub.chip.fld) ∧
  (∀ (s : State) (n : Fin 4) (tec rec : Byte), s.hub.chip.canOn n = true → s.hub.chip.on (F.FLD_CAN_CTL_LISTEN_ONLY n) = false →
    ∃ t, exec (.canBusError n tec rec) s = .next t ∧ coreOnly s t ∧ t.hub.chip.get (F.FLD_CAN_ERR_TEC n) = tec.toNat ∧
      t.hub.chip.get (F.FLD_CAN_ERR_REC n) = rec.toNat ∧
      t.hub.chip.get (F.FLD_CAN_EFRAMES n) = (s.hub.chip.get (F.FLD_CAN_EFRAMES n) + 1) % 2 ^ 32 ∧ t.hub.chip.fld = s.hub.chip.fld ∧
      wordsKept [(F.FLD_CAN_EFRAMES n).off, (F.FLD_CAN_ERR n).off, F.FLD_STATUS.off, F.FLD_INT_STATUS.off] s t) ∧
  (∀ (s : State) (u : Fin 2) (n : Nat), s.hub.chip.on F.FLD_CTL_EN = true → s.hub.chip.bit F.FLD_CTL_UA_EN u.val = true →
    s.hub.chip.fld.uarts[u] = { queue := [n], current := none, retried := false, quiet := false } → s.hub.chip.countOk n = true →
    s.hub.chip.get (F.FLD_POLL0_SLAVE n) ≠ 0 → n < 256 →
    ∃ t, exec (.modbusTxnStart u) s = .next t ∧ coreOnly s t ∧
      t.hub.chip.fld.uarts[u] = { queue := [], current := some n, retried := false, quiet := false } ∧
      t.hub.chip.get (F.FLD_UA_STATUS_ENTRY u) = n ∧ t.hub.chip.get (F.FLD_UA_STATUS_BUSY u) = 1 ∧
      t.hub.chip.bit F.FLD_STATUS_UA_BUSY u.val = true ∧
      t.hub.chip.get (F.FLD_UA_TXN u) = (s.hub.chip.get (F.FLD_UA_TXN u) + 1) % 2 ^ 32 ∧
      t.hub.chip.outbox = s.hub.chip.outbox ++ [Out.modbus u.val (s.hub.chip.get (F.FLD_POLL0_SLAVE n)) (s.hub.chip.get (F.FLD_POLL0_FUNC n)) (s.hub.chip.get (F.FLD_POLL0_ADDR n))
        (s.hub.chip.get (F.FLD_POLL1_COUNT n)) (s.hub.chip.writeData n)] ∧
      wordsKept [(F.FLD_UA_STATUS u).off, (F.FLD_UA_TXN u).off, F.FLD_STATUS.off] s t) ∧
  (∀ (s : State) (u : Fin 2) (n : Nat) (l : List Byte), s.hub.chip.fld.uarts[u].current = some n → n < 256 →
      s.hub.chip.pollRead n = false →
    s.hub.chip.fld.uarts[u].retried = false → s.hub.chip.on (F.FLD_POLL2_FAILED n) = false →
    ∃ t, exec (.modbusResponseRx u (.ok l)) s = .next t ∧ coreOnly s t ∧
      t.hub.chip.fld.uarts[u] = { s.hub.chip.fld.uarts[u] with current := none, retried := false } ∧
      t.hub.chip.get (F.FLD_POLL3 n) = s.hub.chip.get F.FAB_FRAME ∧ t.hub.chip.get (F.FLD_UA_STATUS_BUSY u) = 0 ∧
      wordsKept [(F.FLD_POLL3 n).off, (F.FLD_UA_STATUS u).off, F.FLD_STATUS.off] s t) ∧
  (∀ (s : State) (u : Fin 2) (n : Nat) (code : Byte), s.hub.chip.fld.uarts[u].current = some n → n < 256 →
    ∃ t, exec (.modbusResponseRx u (.exception code)) s = .next t ∧ coreOnly s t ∧
      t.hub.chip.fld.uarts[u] = { s.hub.chip.fld.uarts[u] with current := none, retried := false } ∧
      t.hub.chip.get (F.FLD_POLL2_EXC n) = code.toNat ∧ t.hub.chip.get F.FLD_INT_STATUS_MB_EXCEPTION = 1 ∧
      t.hub.chip.get F.FLD_MB_EXC = (s.hub.chip.get F.FLD_MB_EXC + 1) % 2 ^ 32 ∧ t.hub.chip.get (F.FLD_UA_STATUS_BUSY u) = 0) ∧
  (∀ (s : State) (u : Fin 2), s.hub.chip.fld.uarts[u].current ≠ none →
    ∃ t, exec (.modbusResponseRx u .broken) s = .next t ∧ coreOnly s t ∧ t.hub.chip.fld = s.hub.chip.fld ∧
      t.hub.chip.get F.FLD_MB_FRAME_ERR = (s.hub.chip.get F.FLD_MB_FRAME_ERR + 1) % 2 ^ 32 ∧
      wordsKept [F.FLD_MB_FRAME_ERR.off] s t) ∧
  (∀ (s : State) (u : Fin 2) (n : Nat), s.hub.chip.fld.uarts[u].current = some n → s.hub.chip.on (F.FLD_UA_CFG_RETRY u) = true →
    s.hub.chip.fld.uarts[u].retried = false →
    ∃ t, exec (.modbusTimeout u) s = .next t ∧ coreOnly s t ∧
      t.hub.chip.fld.uarts[u] = { s.hub.chip.fld.uarts[u] with retried := true } ∧
      t.hub.chip.outbox.length = s.hub.chip.outbox.length + 1 ∧
      wordsKept [] s t) ∧
  (∀ (s : State) (u : Fin 2) (n : Nat), s.hub.chip.fld.uarts[u].current = some n → n < 256 →
    s.hub.chip.on (F.FLD_UA_CFG_RETRY u) = false ∨ s.hub.chip.fld.uarts[u].retried = true →
    ∃ t, exec (.modbusTimeout u) s = .next t ∧ coreOnly s t ∧ t.hub.chip.get (F.FLD_POLL2_FAILED n) = 1 ∧
      t.hub.chip.get F.FLD_INT_STATUS_MB_FAILED = 1 ∧
      t.hub.chip.get (F.FLD_UA_FAIL u) = (s.hub.chip.get (F.FLD_UA_FAIL u) + 1) % 2 ^ 32 ∧
      t.hub.chip.fld.uarts[u] = { s.hub.chip.fld.uarts[u] with current := none, retried := false }) ∧
  (∀ (s : State) (u : Fin 2), ∃ t, exec (.modbusBroadcastIdleEnd u) s = .next t ∧ coreOnly s t ∧
      t.hub.chip.fld.uarts[u] = { s.hub.chip.fld.uarts[u] with quiet := false } ∧
      wordsKept [] s t)

/-- The HV lockout, the HV link, the feed-loss shed and the sample grid (11 R338, R345, R365, R368). The lockout opens every
switch and ends every contract; its release restores the reset values but counters and interrupt registers; a lost feed
turns the marked channels off and its return arms them. Trunk power ports start (11 R339, R342, R346 to R350). A probe from
OPEN, its result, the boot contract after two valid signatures, a silent partner, the sink's closing, the ramp's end and
power-good. Rests on the model's choices of log 5, 7, 19 and 50. Completes: hvUvloEnter, hvUvloRelease, hvLinkLoss,
hvLinkRestore, feedLossShed, feedRestore, fetModelUpdate, probeStart, probeComplete, partnerSilentTimeout, sinkClose,
sourceRampDone, pathPgDeglitch, pathLimiterChange. -/
def Obligations.HvSupplyAndPathStart : Prop :=
  (∀ s : State, s.hub.hv.lockout = false → ∃ t, exec (.hvUvloEnter) s = .next t ∧ pathsOnly s.hub.chip.pwr.sent s t ∧ t.hub.hv.lockout = true ∧
      (∀ p : Port, t.hub.hv.pstate p = psOpen ∧ t.hub.hv.get (F.TPW_P_CONTRACT_VALID p) = 0 ∧
      t.hub.hv.get (F.TPW_P_STATUS_PG p) = 0) ∧
      ∀ y : Chan, t.hub.hv.cstate y = csOff ∧ t.hub.hv.get (F.LDC_L_STATUS_PG y) = 0) ∧
  (∀ s : State, s.hub.hv.lockout = true →
    ∃ t, exec (.hvUvloRelease) s = .next t ∧ hvOnly s t ∧ t.hub.hv.lockout = false ∧
      t.hub.hv.tpw = Vector.replicate 3 TpwPort.reset ∧ t.hub.hv.ldc = Vector.replicate 4 LdcChan.reset ∧
      ∀ o, t.hub.hv.regs.word o = (if keptByLockout o = true then s.hub.hv.regs.word o else Sys2Proof.Machine.resetWord o)) ∧
  (∀ s : State, s.hub.hv.lockout = false → ∃ t, exec (.hvLinkLoss) s = .next t ∧ hvOnly s t ∧
      t.hub.hv.get F.TPW_HV_STATUS_LINK_OK = 0 ∧ hvWordsKept [F.TPW_HV_STATUS.off] s t) ∧
  (∀ s : State, s.hub.hv.lockout = false → ∃ t, exec (.hvLinkRestore) s = .next t ∧ hvOnly s t ∧
      t.hub.hv.get F.TPW_HV_STATUS_LINK_OK = 1 ∧ hvWordsKept [F.TPW_HV_STATUS.off] s t) ∧
  (∀ (s : State) (v : BitVec 16), s.hub.hv.lockout = false → v.toNat < s.hub.hv.shedVolt → ∃ t, exec (.feedLossShed v) s = .next t ∧ hvOnly s t ∧
      t.hub.hv.get F.TPW_RAIL_STATUS_FEED_LOSS = 1 ∧ t.hub.hv.get F.TPW_INT_STATUS_FEED_LOSS = 1 ∧
      ∀ y : Chan, (s.hub.hv.get F.TPW_RAIL_CFG_SHED_ON_FEED_LOSS).testBit y.val = true → s.hub.hv.cstate y ≠ csOff →
      s.hub.hv.cstate y ≠ csLatched →
        t.hub.hv.cstate y = csOff ∧ t.hub.hv.get (F.LDC_L_STATUS_HELD_FEED y) = 1 ∧
        t.hub.hv.get (F.LDC_L_STATUS_OFF_CAUSE y) = offFeed) ∧
  (∀ s : State, s.hub.hv.lockout = false → s.hub.hv.on F.TPW_RAIL_STATUS_FEED_LOSS = true →
    ∃ t, exec (.feedRestore) s = .next t ∧ hvOnly s t ∧ t.hub.hv.get F.TPW_RAIL_STATUS_FEED_LOSS = 0 ∧
      ∀ y : Chan, t.hub.hv.on (F.LDC_L_STATUS_HELD_FEED y) = false ∧
        (s.hub.hv.on (F.LDC_L_STATUS_HELD_FEED y) = true → s.hub.hv.on (F.LDC_L_STATUS_HELD_BUDGET y) = false →
        s.hub.hv.cstate y = csOff →
          t.hub.hv.cstate y = csArmed)) ∧
  (∀ (s : State) (x : HvSamples), s.hub.hv.lockout = false →
    ∃ t, exec (.fetModelUpdate x) s = .next t ∧ t.pending = s.pending ∧ t.hub.hv.vrail = x.vrail.toNat * 10 ∧
      t.hub.hv.get F.TPW_RAIL_STATUS_VRAIL = x.vrail.toNat ∧ t.hub.hv.get F.TPW_HV_STATUS_VHV = x.vhv.toNat ∧
      (∀ p : Port, t.hub.hv.tpw[p].sw.v = x.vcab[p].toNat * 10 ∧ t.hub.hv.tpw[p].sw.count = s.hub.hv.tpw[p].sw.count + 1) ∧
      ∀ y : Chan, t.hub.hv.ldc[y].sw.v = x.vout[y].toNat * 10 ∧ t.hub.hv.ldc[y].sw.count = s.hub.hv.ldc[y].sw.count + 1) ∧
  (∀ (s : State) (p : Port), s.hub.hv.lockout = false → s.hub.hv.on (F.TPW_P_CFG_PROBE_EN p) = true →
      s.hub.hv.defaultRole p = 1 ∨ s.hub.hv.defaultRole p = 3 →
    s.hub.hv.fed p = true → s.hub.hv.tpw[p].probeFrom ≤ s.hub.chip.now → s.hub.hv.pstate p = psOpen → s.hub.hv.tpw[p].sw.v < 2000 →
    ∃ t, exec (.probeStart p) s = .next t ∧ hvOnly s t ∧ t.hub.hv.pstate p = psProbe ∧
      hvWordsKept [(F.TPW_P_STATUS 0).off, (F.TPW_P_STATUS 1).off, (F.TPW_P_STATUS 2).off, F.TPW_RAIL_STATUS.off,
      F.TPW_INT_STATUS.off] s t) ∧
  (∀ (s : State) (p : Port) (r v : BitVec 16), s.hub.hv.lockout = false → s.hub.hv.pstate p = psProbe → 200 ≤ v.toNat →
    ∃ t, exec (.probeComplete p r v) s = .next t ∧ hvOnly s t ∧ t.hub.hv.pstate p = psOpen ∧
      t.hub.hv.get (F.TPW_P_STATUS_SIG p) = 3 ∧ t.hub.hv.tpw[p].sigHits = 0 ∧
      hvWordsKept [(F.TPW_P_STATUS 0).off, (F.TPW_P_STATUS 1).off, (F.TPW_P_STATUS 2).off, F.TPW_RAIL_STATUS.off,
      F.TPW_INT_STATUS.off] s t) ∧
  (∀ (s : State) (p : Port) (r v : BitVec 16), s.hub.hv.lockout = false → s.hub.hv.pstate p = psProbe → v.toNat < 200 →
      r.toNat < 2000 ∨ 2800 < r.toNat →
    ∃ t, exec (.probeComplete p r v) s = .next t ∧ hvOnly s t ∧ t.hub.hv.pstate p = psOpen ∧
      t.hub.hv.get (F.TPW_P_STATUS_SIG p) = 2 ∧ t.hub.hv.get (F.TPW_P_SIG_R_MEAS p) = r.toNat ∧
      t.hub.hv.tpw[p].sigHits = 0 ∧
      hvWordsKept [(F.TPW_P_SIG p).off, (F.TPW_P_STATUS 0).off, (F.TPW_P_STATUS 1).off, (F.TPW_P_STATUS 2).off,
      F.TPW_RAIL_STATUS.off, F.TPW_INT_STATUS.off] s t) ∧
  (∀ (s : State) (p : Port) (r v : BitVec 16), s.hub.hv.lockout = false → s.hub.hv.pstate p = psProbe → v.toNat < 200 →
      2000 ≤ r.toNat → r.toNat ≤ 2800 →
    s.hub.hv.tpw[p].sigHits ≠ 0 → s.hub.hv.fed p = true → maySource (s.hub.hv.defaultRole p) = true →
      s.hub.hv.tpw[p].heldOpen = false →
    ∃ t, exec (.probeComplete p r v) s = .next t ∧ hvOnly s t ∧ t.hub.hv.pstate p = psRamp ∧
      t.hub.hv.get (F.TPW_P_STATUS_SIG p) = 1 ∧ t.hub.hv.get F.TPW_INT_STATUS_SIG_FOUND = 1 ∧
      t.hub.hv.get (F.TPW_P_CONTRACT_VALID p) = 1 ∧ t.hub.hv.get (F.TPW_P_CONTRACT_DIR p) = 1 ∧
      t.hub.hv.get (F.TPW_P_CONTRACT_W p) = s.hub.hv.get (F.TPW_P_BOOT_BOOT_W p) ∧
      t.hub.hv.get (F.TPW_P_CONTRACT_I p) = s.hub.hv.get (F.TPW_P_BOOT_BOOT_I p) ∧
      t.hub.hv.tpw[p].probed = true ∧
      hvWordsKept [(F.TPW_P_SIG p).off, (F.TPW_P_CONTRACT p).off, (F.TPW_P_STATUS 0).off, (F.TPW_P_STATUS 1).off,
      (F.TPW_P_STATUS 2).off, F.TPW_RAIL_STATUS.off, F.TPW_INT_STATUS.off] s t) ∧
  (∀ (s : State) (p : Port), s.hub.hv.lockout = false → s.hub.hv.tpw[p].probed = true → s.hub.hv.on (F.TPW_P_STATUS_PG p) = true →
    s.hub.hv.tpw[p].heard = false →
    ∃ t, exec (.partnerSilentTimeout p) s = .next t ∧ hvOnly s t ∧ t.hub.hv.pstate p = psOpen ∧
      t.hub.hv.get (F.TPW_P_STATUS_PG p) = 0 ∧
      t.hub.hv.get (F.TPW_FAULTS p) = (s.hub.hv.get (F.TPW_FAULTS p) + 1) % 2 ^ 32 ∧
      t.hub.hv.tpw[p].probeFrom = s.hub.chip.now + 10 * second ∧
      hvWordsKept [(F.TPW_FAULTS p).off, (F.TPW_P_STATUS 0).off, (F.TPW_P_STATUS 1).off, (F.TPW_P_STATUS 2).off,
      F.TPW_RAIL_STATUS.off, F.TPW_INT_STATUS.off] s t) ∧
  (∀ (s : State) (p : Port), s.hub.hv.lockout = false → s.hub.hv.pstate p = psOpen → maySink (s.hub.hv.defaultRole p) = true →
      s.hub.hv.tpw[p].heldOpen = false →
    ∃ t, exec (.sinkClose p) s = .next t ∧ pathsOnly s.hub.chip.pwr.sent s t ∧ (s.hub.chip.lkRun = true → floorFollows t) ∧ t.hub.hv.pstate p = psSink ∧
      t.hub.hv.tpw[p].raising = decide (s.hub.hv.vrail + 2000 < s.hub.hv.tpw[p].sw.v) ∧
      hvWordsKept [(F.TPW_P_STATUS 0).off, (F.TPW_P_STATUS 1).off, (F.TPW_P_STATUS 2).off, F.TPW_RAIL_STATUS.off,
      F.TPW_INT_STATUS.off] s t) ∧
  (∀ (s : State) (p : Port), s.hub.hv.lockout = false → s.hub.hv.pstate p = psRamp →
    ∃ t, exec (.sourceRampDone p) s = .next t ∧ hvOnly s t ∧ t.hub.hv.pstate p = psSource ∧
      t.hub.hv.tpw[p].sw.deglitch = .running ∧
      hvWordsKept [(F.TPW_P_STATUS 0).off, (F.TPW_P_STATUS 1).off, (F.TPW_P_STATUS 2).off, F.TPW_RAIL_STATUS.off,
      F.TPW_INT_STATUS.off] s t) ∧
  (∀ (s : State) (p : Port), s.hub.hv.lockout = false → s.hub.hv.pstate p = psSource → s.hub.hv.tpw[p].sw.deglitch = .running →
      s.hub.hv.on (F.TPW_P_STATUS_TIMER p) = false →
    ∃ t, exec (.pathPgDeglitch p) s = .next t ∧ hvOnly s t ∧ t.hub.hv.get (F.TPW_P_STATUS_PG p) = 1 ∧
      t.hub.hv.tpw[p].sw.deglitch = .off ∧ t.hub.hv.pstate p = psSource ∧
      hvWordsKept [(F.TPW_P_STATUS 0).off, (F.TPW_P_STATUS 1).off, (F.TPW_P_STATUS 2).off, F.TPW_RAIL_STATUS.off,
      F.TPW_INT_STATUS.off] s t) ∧
  (∀ (s : State) (p : Port) (b : Bool), s.hub.hv.lockout = false → s.hub.hv.portOn p = true →
      s.hub.hv.on (F.TPW_P_STATUS_LIMITING p) = !b → s.hub.hv.pstate p ≠ psRamp → s.hub.hv.tpw[p].raising = false →
    ∃ t, exec (.pathLimiterChange p b) s = .next t ∧ hvOnly s t ∧ t.hub.hv.get (F.TPW_P_STATUS_LIMITING p) = b.toNat ∧
      t.hub.hv.get (F.TPW_P_STATUS_TIMER p) = b.toNat ∧
      t.hub.hv.pstate p = s.hub.hv.pstate p ∧ hvWordsKept [(F.TPW_P_STATUS p).off] s t)

/-- Faults of trunk power ports (11 R348, R349, R351, R357, R366, R367; Table 11-2). A fault opens a conducting path,
records its cause, is counted and ends the contract, and latches where the retries are spent; a retry takes the previous
role or latches where the retries are spent; a shorted FET latches. Rests on the model's choices of log 5, 50 and 51.
Completes: pathHardShort, pathOvervoltage, pathFaultTimer, pathGateFault, pathDrop, sourceRampFault, pathOvRecovery,
fetDamage, pathRetryDue, pathRetryCountReset, pathReverseTurnoff, overdrawCheck. -/
def Obligations.TrunkPathFaults : Prop :=
  (∀ (s : State) (p : Port) (ma : Int), s.hub.hv.lockout = false → s.hub.hv.portOn p = true →
      s.hub.hv.on (F.TPW_P_STATUS_GUARD p) = false → 2 * s.hub.hv.iEff p ≤ (ma.natAbs : Rat) →
    ∃ t, exec (.pathHardShort p ma) s = .next t ∧ t.pending = s.pending ∧ t.hub.hv.pstate p = (if s.hub.hv.retriesSpent p = true then psLatched else psFault) ∧
      (s.hub.hv.retriesSpent p = true → t.hub.chip.get F.GLB_FAULT_STATUS_LATCHED = 1) ∧
      t.hub.hv.get (F.TPW_P_STATUS_CAUSE p) = 2 ∧ t.hub.hv.get (F.TPW_P_CONTRACT_VALID p) = 0 ∧
      t.hub.hv.get (F.TPW_FAULTS p) = (s.hub.hv.get (F.TPW_FAULTS p) + 1) % 2 ^ 32 ∧ t.hub.hv.get F.TPW_INT_STATUS_FAULT = 1 ∧
      t.hub.hv.tpw[p].prevRole = portRole (s.hub.hv.pstate p)) ∧
  (∀ (s : State) (p : Port), s.hub.hv.lockout = false → s.hub.hv.portOn p = true → s.hub.hv.on (F.TPW_P_STATUS_GUARD p) = false →
    ∃ t, exec (.pathOvervoltage p) s = .next t ∧ t.pending = s.pending ∧ t.hub.hv.pstate p = psFault ∧
      t.hub.hv.get (F.TPW_P_STATUS_CAUSE p) = 6 ∧ t.hub.hv.get (F.TPW_P_CONTRACT_VALID p) = 0 ∧
      t.hub.hv.get (F.TPW_FAULTS p) = (s.hub.hv.get (F.TPW_FAULTS p) + 1) % 2 ^ 32 ∧ t.hub.hv.get F.TPW_INT_STATUS_FAULT = 1 ∧
      t.hub.hv.tpw[p].prevRole = portRole (s.hub.hv.pstate p)) ∧
  (∀ (s : State) (p : Port), s.hub.hv.lockout = false → s.hub.hv.portOn p = true → s.hub.hv.on (F.TPW_P_STATUS_GUARD p) = false →
      s.hub.hv.on (F.TPW_P_STATUS_TIMER p) = true →
    ∃ t, exec (.pathFaultTimer p) s = .next t ∧ t.pending = s.pending ∧ t.hub.hv.pstate p = (if s.hub.hv.retriesSpent p = true then psLatched else psFault) ∧
      (s.hub.hv.retriesSpent p = true → t.hub.chip.get F.GLB_FAULT_STATUS_LATCHED = 1) ∧
      t.hub.hv.get (F.TPW_P_STATUS_CAUSE p) = 1 ∧ t.hub.hv.get (F.TPW_P_CONTRACT_VALID p) = 0 ∧
      t.hub.hv.get (F.TPW_FAULTS p) = (s.hub.hv.get (F.TPW_FAULTS p) + 1) % 2 ^ 32 ∧ t.hub.hv.get F.TPW_INT_STATUS_FAULT = 1 ∧
      t.hub.hv.tpw[p].prevRole = portRole (s.hub.hv.pstate p)) ∧
  (∀ (s : State) (p : Port), s.hub.hv.lockout = false → s.hub.hv.portOn p = true → s.hub.hv.on (F.TPW_P_STATUS_GUARD p) = false →
    s.hub.hv.on (F.TPW_P_STATUS_LIMITING p) = false →
    ∃ t, exec (.pathGateFault p) s = .next t ∧ t.pending = s.pending ∧ t.hub.hv.pstate p = (if s.hub.hv.retriesSpent p = true then psLatched else psFault) ∧
      (s.hub.hv.retriesSpent p = true → t.hub.chip.get F.GLB_FAULT_STATUS_LATCHED = 1) ∧
      t.hub.hv.get (F.TPW_P_STATUS_CAUSE p) = 8 ∧ t.hub.hv.get (F.TPW_P_CONTRACT_VALID p) = 0 ∧
      t.hub.hv.get (F.TPW_FAULTS p) = (s.hub.hv.get (F.TPW_FAULTS p) + 1) % 2 ^ 32 ∧ t.hub.hv.get F.TPW_INT_STATUS_FAULT = 1 ∧
      t.hub.hv.tpw[p].prevRole = portRole (s.hub.hv.pstate p)) ∧
  (∀ (s : State) (p : Port), s.hub.hv.lockout = false → s.hub.hv.portOn p = true → s.hub.hv.on (F.TPW_P_STATUS_GUARD p) = false →
    s.hub.hv.on (F.TPW_P_STATUS_LIMITING p) = false → s.hub.hv.tpw[p].sw.ramp = none →
    ∃ t, exec (.pathDrop p) s = .next t ∧ t.pending = s.pending ∧ t.hub.hv.pstate p = (if s.hub.hv.retriesSpent p = true then psLatched else psFault) ∧
      (s.hub.hv.retriesSpent p = true → t.hub.chip.get F.GLB_FAULT_STATUS_LATCHED = 1) ∧
      t.hub.hv.get (F.TPW_P_STATUS_CAUSE p) = 9 ∧ t.hub.hv.get (F.TPW_P_CONTRACT_VALID p) = 0 ∧
      t.hub.hv.get (F.TPW_FAULTS p) = (s.hub.hv.get (F.TPW_FAULTS p) + 1) % 2 ^ 32 ∧ t.hub.hv.get F.TPW_INT_STATUS_FAULT = 1 ∧
      t.hub.hv.tpw[p].prevRole = portRole (s.hub.hv.pstate p)) ∧
  (∀ (s : State) (p : Port), s.hub.hv.lockout = false → s.hub.hv.pstate p = psRamp → s.hub.hv.on (F.TPW_P_STATUS_GUARD p) = false →
    ∃ t, exec (.sourceRampFault p .stall) s = .next t ∧ t.pending = s.pending ∧ t.hub.hv.pstate p = (if s.hub.hv.retriesSpent p = true then psLatched else psFault) ∧
      (s.hub.hv.retriesSpent p = true → t.hub.chip.get F.GLB_FAULT_STATUS_LATCHED = 1) ∧
      t.hub.hv.get (F.TPW_P_STATUS_CAUSE p) = 4 ∧ t.hub.hv.get (F.TPW_P_CONTRACT_VALID p) = 0 ∧
      t.hub.hv.get (F.TPW_FAULTS p) = (s.hub.hv.get (F.TPW_FAULTS p) + 1) % 2 ^ 32 ∧ t.hub.hv.get F.TPW_INT_STATUS_FAULT = 1 ∧
      t.hub.hv.tpw[p].prevRole = portRole (s.hub.hv.pstate p)) ∧
  (∀ (s : State) (p : Port), s.hub.hv.lockout = false → s.hub.hv.pstate p = psFault → s.hub.hv.get (F.TPW_P_STATUS_CAUSE p) = 6 →
      s.hub.hv.tpw[p].prevRole = 2 →
    ∃ t, exec (.pathOvRecovery p) s = .next t ∧ pathsOnly s.hub.chip.pwr.sent s t ∧ t.hub.hv.pstate p = psSink ∧
      t.hub.hv.get (F.TPW_P_STATUS_RETRIES p) = s.hub.hv.get (F.TPW_P_STATUS_RETRIES p) ∧
      hvWordsKept [(F.TPW_P_STATUS 0).off, (F.TPW_P_STATUS 1).off, (F.TPW_P_STATUS 2).off, F.TPW_RAIL_STATUS.off,
      F.TPW_INT_STATUS.off] s t) ∧
  (∀ (s : State) (p : Port) (d : Fin 4), s.hub.hv.lockout = false → s.hub.hv.portOn p = false → d ≠ 0 →
    ∃ t, exec (.fetDamage p d) s = .next t ∧ t.pending = s.pending ∧ t.hub.hv.pstate p = psLatched ∧
      t.hub.hv.get (F.TPW_P_STATUS_DAMAGE p) = d.val ∧ t.hub.hv.get F.TPW_INT_STATUS_FET_DAMAGE = 1 ∧
      t.hub.hv.get (F.TPW_P_STATUS_CAUSE p) = (if d = 3 then 7 else s.hub.hv.get (F.TPW_P_STATUS_CAUSE p)) ∧
      t.hub.chip.get F.GLB_FAULT_STATUS_LATCHED = 1 ∧
      hvWordsKept [(F.TPW_P_STATUS 0).off, (F.TPW_P_STATUS 1).off, (F.TPW_P_STATUS 2).off, F.TPW_RAIL_STATUS.off,
      F.TPW_INT_STATUS.off] s t) ∧
  (∀ (s : State) (p : Port), s.hub.hv.lockout = false → s.hub.hv.tpw[p].sw.fet.temp < s.hub.hv.get (F.TPW_P_SENSE_T_RETRY p) →
      s.hub.hv.pstate p = psFault →
    s.hub.hv.get (F.TPW_P_STATUS_CAUSE p) ≠ 6 → s.hub.hv.get (F.TPW_P_CFG_RETRY_MAX p) ≤ 15 →
    s.hub.hv.get (F.TPW_P_CFG_RETRY_MAX p) ≤ s.hub.hv.get (F.TPW_P_STATUS_RETRIES p) →
    ∃ t, exec (.pathRetryDue p) s = .next t ∧ t.pending = s.pending ∧ t.hub.hv.pstate p = psLatched ∧
      t.hub.chip.get F.GLB_FAULT_STATUS_LATCHED = 1 ∧ t.hub.hv.get F.TPW_INT_STATUS_FAULT = 1 ∧
      t.hub.hv.get (F.TPW_P_STATUS_RETRIES p) = s.hub.hv.get (F.TPW_P_STATUS_RETRIES p) ∧
      hvWordsKept [(F.TPW_P_STATUS 0).off, (F.TPW_P_STATUS 1).off, (F.TPW_P_STATUS 2).off, F.TPW_RAIL_STATUS.off,
      F.TPW_INT_STATUS.off] s t) ∧
  (∀ (s : State) (p : Port), s.hub.hv.lockout = false → s.hub.hv.tpw[p].sw.fet.temp < s.hub.hv.get (F.TPW_P_SENSE_T_RETRY p) →
      s.hub.hv.pstate p = psFault →
    s.hub.hv.get (F.TPW_P_STATUS_CAUSE p) ≠ 6 → s.hub.hv.get (F.TPW_P_STATUS_RETRIES p) < s.hub.hv.get (F.TPW_P_CFG_RETRY_MAX p) →
    s.hub.hv.tpw[p].prevRole = 2 →
    ∃ t, exec (.pathRetryDue p) s = .next t ∧ pathsOnly s.hub.chip.pwr.sent s t ∧ t.hub.hv.pstate p = psSink ∧
      t.hub.hv.get (F.TPW_P_STATUS_RETRIES p) = s.hub.hv.get (F.TPW_P_STATUS_RETRIES p) + 1 ∧
      hvWordsKept [(F.TPW_P_STATUS 0).off, (F.TPW_P_STATUS 1).off, (F.TPW_P_STATUS 2).off, F.TPW_RAIL_STATUS.off,
      F.TPW_INT_STATUS.off] s t) ∧
  (∀ (s : State) (p : Port), s.hub.hv.lockout = false → s.hub.hv.portBad p = false →
    ∃ t, exec (.pathRetryCountReset p) s = .next t ∧ hvOnly s t ∧ t.hub.hv.get (F.TPW_P_STATUS_RETRIES p) = 0 ∧
      t.hub.hv.tpw = s.hub.hv.tpw ∧ hvWordsKept [(F.TPW_P_STATUS p).off] s t) ∧
  (∀ (s : State) (p : Port), s.hub.hv.lockout = false → s.hub.hv.pstate p = psSink →
    ∃ t, exec (.pathReverseTurnoff p) s = .next t ∧ hvOnly s t ∧ t.hub.hv.tpw[p].reversed = true ∧ t.hub.hv.pstate p = psSink ∧
      (t.hub.hv.get F.TPW_RAIL_STATUS_FEEDS).testBit p.val = false ∧
      hvWordsKept [(F.TPW_P_STATUS 0).off, (F.TPW_P_STATUS 1).off, (F.TPW_P_STATUS 2).off, F.TPW_RAIL_STATUS.off,
      F.TPW_INT_STATUS.off] s t) ∧
  (∀ (s : State) (p : Port) (m : BitVec 16), s.hub.hv.lockout = false → s.hub.hv.pstate p = psSource →
      s.hub.hv.on (F.TPW_P_CONTRACT_VALID p) = true →
    10 * s.hub.hv.get (F.TPW_P_CONTRACT_I p) < m.toNat →
    ∃ t, exec (.overdrawCheck p m) s = .next t ∧ t.pending = s.pending ∧
      t.hub.hv.get (F.TPW_OVERDRAW p) = (s.hub.hv.get (F.TPW_OVERDRAW p) + 1) % 2 ^ 32 ∧
      t.hub.hv.get F.TPW_INT_STATUS_OVERDRAW = 1 ∧ t.hub.hv.pstate p = psSource ∧
      hvWordsKept [(F.TPW_OVERDRAW p).off, F.TPW_INT_STATUS.off] s t)

/-- Role swaps (11 R358 to R364; 03 R116). A swap reverses the contract; the fast swap sources at once; the guard's end
completes the swap or opens the path; and a port restores its role under the boot contract. Rests on the model's choices of
log 3, 5 and 50. Completes: reverseCurrentSwap, fastSwapPatternRx, swapNewSource, swapOldSink, swapGuardCheck, guardFailure,
restoreExpiry, frsTrigger, fastSwapMsgRx, swapStatusProbe. -/
def Obligations.RoleSwaps : Prop :=
  (∀ (s : State) (p : Port), s.hub.hv.lockout = false → s.hub.hv.pstate p = psSource →
    ∃ t, exec (.reverseCurrentSwap p) s = .next t ∧ pathsOnly (s.hub.chip.pwr.sent.set p none) s t ∧ t.hub.hv.pstate p = psSink ∧
      t.hub.hv.get (F.TPW_P_CONTRACT_DIR p) = 0 ∧
      t.hub.hv.get (F.TPW_P_CONTRACT_W p) = s.hub.hv.get (F.TPW_P_CONTRACT_W p) ∧ t.hub.hv.get F.TPW_INT_STATUS_FRS = 1 ∧
      hvWordsKept [(F.TPW_P_CONTRACT p).off, (F.TPW_P_STATUS 0).off, (F.TPW_P_STATUS 1).off, (F.TPW_P_STATUS 2).off,
      F.TPW_RAIL_STATUS.off, F.TPW_INT_STATUS.off] s t) ∧
  (∀ (s : State) (p : Port), s.hub.hv.lockout = false → s.hub.chip.tpAlive p = true → s.hub.hv.pstate p = psSource →
      s.hub.hv.on (F.TPW_P_CFG_FRS_EN p) = true →
    ∃ t, exec (.fastSwapPatternRx p) s = .next t ∧ pathsOnly (s.hub.chip.pwr.sent.set p none) s t ∧ t.hub.hv.pstate p = psSink ∧
      t.hub.hv.get (F.TPW_P_CONTRACT_DIR p) = 0 ∧ t.hub.hv.get F.TPW_INT_STATUS_FRS = 1 ∧
      hvWordsKept [(F.TPW_P_CONTRACT p).off, (F.TPW_P_STATUS 0).off, (F.TPW_P_STATUS 1).off, (F.TPW_P_STATUS 2).off,
      F.TPW_RAIL_STATUS.off, F.TPW_INT_STATUS.off] s t) ∧
  (∀ (s : State) (p : Port), s.hub.hv.lockout = false → s.hub.chip.tpAlive p = true →
      s.hub.hv.pstate p ≠ psSource ∨ s.hub.hv.on (F.TPW_P_CFG_FRS_EN p) = false →
    ∃ t, exec (.fastSwapPatternRx p) s = .next t ∧ hvOnly s t ∧ t.hub.hv.tpw = s.hub.hv.tpw ∧
      t.hub.hv.get (F.TPW_FRS_IGN p) = (s.hub.hv.get (F.TPW_FRS_IGN p) + 1) % 2 ^ 32 ∧
      t.hub.hv.get F.TPW_INT_STATUS_FRS_IGNORED = 1 ∧ hvWordsKept [(F.TPW_FRS_IGN p).off, F.TPW_INT_STATUS.off] s t) ∧
  (∀ (s : State) (p : Port) (w : Swap), s.hub.hv.lockout = false → s.hub.chip.pwr.swap[p] = some w → w.started = true →
      w.newSource = true → s.hub.hv.pstate p = psSink → s.hub.hv.fed p = true →
    9 * s.hub.hv.vrail ≤ 10 * s.hub.hv.tpw[p].sw.v →
    ∃ t, exec (.swapNewSource p) s = .next t ∧ pathsOnly (s.hub.chip.pwr.sent.set p none) s t ∧ t.hub.hv.pstate p = psSource ∧
      hvWordsKept [(F.TPW_P_STATUS 0).off, (F.TPW_P_STATUS 1).off, (F.TPW_P_STATUS 2).off, F.TPW_RAIL_STATUS.off,
      F.TPW_INT_STATUS.off] s t) ∧
  (∀ (s : State) (p : Port) (w : Swap), s.hub.hv.lockout = false → s.hub.chip.pwr.swap[p] = some w → w.started = true →
      w.newSource = false →
    s.hub.hv.pstate p = psSource →
    ∃ t, exec (.swapOldSink p) s = .next t ∧ t.pending = s.pending ∧ t.hub.hv.pstate p = psSink ∧
      t.hub.hv.get (F.TPW_P_CONTRACT_DIR p) = 0 ∧ t.hub.chip.pwr.swap[p] = some { w with late := true } ∧
      hvWordsKept [(F.TPW_P_CONTRACT p).off, (F.TPW_P_STATUS 0).off, (F.TPW_P_STATUS 1).off, (F.TPW_P_STATUS 2).off,
      F.TPW_RAIL_STATUS.off, F.TPW_INT_STATUS.off] s t ∧ t.hub.chip.pwr.sent = s.hub.chip.pwr.sent.set p none ∧ wordsKept [F.BUD_CTL.off] s t) ∧
  (∀ (s : State) (p : Port) (w : Swap), s.hub.hv.lockout = false → s.hub.chip.pwr.swap[p] = some w → w.started = true →
      w.heard = true →
    portRole (s.hub.hv.pstate p) = (if w.newSource = true then 1 else 2) →
    ∃ t, exec (.swapGuardCheck p) s = .next t ∧ t.pending = s.pending ∧ t.hub.hv.get (F.TPW_P_STATUS_GUARD p) = 0 ∧
      t.hub.hv.get (F.TPW_SWAPS p) = (s.hub.hv.get (F.TPW_SWAPS p) + 1) % 2 ^ 32 ∧
      t.hub.hv.get F.TPW_INT_STATUS_SWAP_DONE = 1 ∧ t.hub.chip.pwr.swap[p] = none ∧ t.hub.hv.pstate p = s.hub.hv.pstate p ∧
      wordsKept [] s t) ∧
  (∀ (s : State) (p : Port) (w : Swap), s.hub.hv.lockout = false → s.hub.chip.pwr.swap[p] = some w → w.heard = false →
      s.hub.hv.on (F.TPW_P_STATUS_GUARD p) = true →
    ∃ t, exec (.swapGuardCheck p) s = .next t ∧ t.pending = s.pending ∧ t.hub.hv.pstate p = psRestore ∧
      t.hub.hv.get (F.TPW_P_STATUS_GUARD p) = 0 ∧ t.hub.hv.get (F.TPW_P_STATUS_CAUSE p) = 10 ∧
      t.hub.hv.get (F.TPW_P_CONTRACT_VALID p) = 0 ∧ t.hub.hv.get F.TPW_INT_STATUS_SWAP_FAIL = 1 ∧ t.hub.chip.pwr.swap[p] = none) ∧
  (∀ (s : State) (p : Port), s.hub.hv.lockout = false → s.hub.hv.on (F.TPW_P_STATUS_GUARD p) = true →
    ∃ t, exec (.guardFailure p) s = .next t ∧ t.pending = s.pending ∧ t.hub.hv.pstate p = psRestore ∧
      t.hub.hv.get (F.TPW_P_STATUS_GUARD p) = 0 ∧ t.hub.hv.get (F.TPW_P_STATUS_CAUSE p) = 10 ∧
      t.hub.hv.get (F.TPW_P_CONTRACT_VALID p) = 0 ∧ t.hub.hv.get F.TPW_INT_STATUS_SWAP_FAIL = 1 ∧ t.hub.chip.pwr.swap[p] = none) ∧
  (∀ (s : State) (p : Port), s.hub.hv.lockout = false → s.hub.hv.pstate p = psRestore →
      s.hub.hv.get (F.TPW_P_STATUS_RESTORE_ROLE p) = 2 →
    ∃ t, exec (.restoreExpiry p) s = .next t ∧ pathsOnly s.hub.chip.pwr.sent s t ∧ t.hub.hv.pstate p = psSink ∧
      t.hub.hv.get (F.TPW_P_CONTRACT_VALID p) = 1 ∧ t.hub.hv.get (F.TPW_P_CONTRACT_DIR p) = 0 ∧
      t.hub.hv.get (F.TPW_P_CONTRACT_W p) = s.hub.hv.get (F.TPW_P_BOOT_BOOT_W p) ∧
      hvWordsKept [(F.TPW_P_CONTRACT p).off, (F.TPW_P_STATUS 0).off, (F.TPW_P_STATUS 1).off, (F.TPW_P_STATUS 2).off,
      F.TPW_RAIL_STATUS.off, F.TPW_INT_STATUS.off] s t) ∧
  (∀ (s : State) (p : Port), s.hub.hv.lockout = false → s.hub.hv.frsArmed p = true →
    ∃ t, exec (.frsTrigger p) s = .next t ∧ t.pending = s.pending ∧ t.hub.chip.pwr.sent = s.hub.chip.pwr.sent.set p none ∧ t.hub.hv.pstate p = psSource ∧
      t.hub.hv.get (F.TPW_P_CONTRACT_DIR p) = 1 ∧
      t.hub.hv.get (F.TPW_FRS p) = (s.hub.hv.get (F.TPW_FRS p) + 1) % 2 ^ 32 ∧ t.hub.hv.get F.TPW_INT_STATUS_FRS = 1 ∧
      (s.hub.chip.tpAlive p = true → t.hub.chip.outbox = s.hub.chip.outbox ++ [Out.fastSwap p]) ∧
      hvWordsKept [(F.TPW_P_CONTRACT p).off, (F.TPW_FRS p).off, (F.TPW_P_STATUS 0).off, (F.TPW_P_STATUS 1).off,
      (F.TPW_P_STATUS 2).off, F.TPW_RAIL_STATUS.off, F.TPW_INT_STATUS.off] s t) ∧
  (∀ (s : State) (p : Port) (hdr : Word) (l : List Byte), s.hub.hv.lockout = false → s.hub.chip.lkRun = true →
      s.hub.hv.defaultRole p ≠ 5 → frameRequest s.hub.chip p 8 hdr →
    l.length = 4 →
    ∃ t, exec (.fastSwapMsgRx p hdr l) s = .next t ∧ t.pending = s.pending ∧ t.hub.hv.get (F.TPW_P_CONTRACT_VALID p) = 1 ∧
      t.hub.hv.get (F.TPW_P_CONTRACT_DIR p) = 0 ∧
      t.hub.hv.get (F.TPW_P_CONTRACT_W p) = fieldAt l 0 2 % 4096 ∧ t.hub.hv.get (F.TPW_P_CONTRACT_I p) = fieldAt l 2 2 % 4096 ∧
      t.hub.chip.tp[p].txq = s.hub.chip.tp[p].txq ++ [{ hdr := tpHeader 8 (tpSeq hdr) 0 true false false, payload := [] }] ∧
      t.hub.chip.tp[p].mailboxFull = true ∧
      hvWordsKept [(F.TPW_P_CONTRACT p).off, (F.TPW_P_STATUS 0).off, (F.TPW_P_STATUS 1).off, (F.TPW_P_STATUS 2).off,
      F.TPW_RAIL_STATUS.off, F.TPW_INT_STATUS.off] s t ∧ wordsKept (mailWords p) s t) ∧
  (∀ (s : State) (p : Port) (w : Swap), s.hub.chip.pwr.swap[p] = some w → w.started = true → w.newSource = true →
      s.hub.chip.running = true →
    ∃ t, exec (.swapStatusProbe p) s = .next t ∧ coreOnly s t ∧
      t.hub.chip.tp[p].requests.length = s.hub.chip.tp[p].requests.length + 1 ∧
      t.hub.chip.tp[p].txq.length = s.hub.chip.tp[p].txq.length + 1 ∧
      wordsKept [] s t)

/-- Power contracts (11 R341, R353, R354, R356, R358). Offers are kept and answered, a request is answered with PWR_ACCEPT
and the contract written or with PWR_REJECT, an accepted contract is taken at the sink, and swap requests are answered and
start. Rests on the model's choices of log 5 and 50. Completes: pwrOfferRx, pwrRequestRx, pwrAcceptRx, pwrRejectRx,
contractLowerDelay, swapReqRx, swapAckRx. -/
def Obligations.PowerContracts : Prop :=
  (∀ (s : State) (p : Port) (hdr : Word) (l : List Byte), s.hub.hv.lockout = false → s.hub.chip.lkRun = true →
      s.hub.hv.defaultRole p ≠ 5 → frameRequest s.hub.chip p 2 hdr →
    ∃ t, exec (.pwrOfferRx p hdr l) s = .next t ∧ t.pending = s.pending ∧ t.hub.chip.pwr.got[p] = some (offerOf l) ∧
      t.hub.chip.tp[p].txq = s.hub.chip.tp[p].txq ++
        [{ hdr := tpHeader 2 (tpSeq hdr) 1 true false false, payload := [BitVec.ofNat 8 (offerOf l).id] }] ∧
      t.hub.chip.tp[p].mailboxFull = true ∧ t.hub.chip.get (F.LNK_INT_STATUS_TP_RX p) = 1 ∧
      ((offerOf l).revised = true → s.hub.hv.on (F.TPW_P_CONTRACT_VALID p) = true → s.hub.hv.on (F.TPW_P_CONTRACT_DIR p) = false →
        t.hub.hv.get (F.TPW_P_CONTRACT_W p) = min (s.hub.hv.get (F.TPW_P_CONTRACT_W p)) (offerOf l).w % 4096)) ∧
  (∀ (s : State) (p : Port) (hdr : Word) (l : List Byte), s.hub.hv.lockout = false → s.hub.chip.lkRun = true →
      s.hub.hv.defaultRole p ≠ 5 → frameRequest s.hub.chip p 3 hdr →
    s.hub.requestReason p (fieldAt l 0 2) (fieldAt l 2 2) = 0 →
    ∃ t, exec (.pwrRequestRx p hdr l) s = .next t ∧ t.pending = s.pending ∧ t.hub.hv.get (F.TPW_P_CONTRACT_VALID p) = 1 ∧
      t.hub.hv.get (F.TPW_P_CONTRACT_DIR p) = 1 ∧
      t.hub.hv.get (F.TPW_P_CONTRACT_W p) = fieldAt l 0 2 % 4096 ∧ t.hub.hv.get (F.TPW_P_CONTRACT_I p) = fieldAt l 2 2 % 4096 ∧
      t.hub.chip.tp[p].txq = s.hub.chip.tp[p].txq ++ [{
        hdr := tpHeader 4 (tpSeq hdr) 8 true false false,
        payload := beBytes 2 (fieldAt l 0 2) ++ beBytes 2 (fieldAt l 2 2) ++ List.replicate 3 0#8 ++ [l.getD 7 0#8] }] ∧
      hvWordsKept [(F.TPW_P_CONTRACT p).off, (F.TPW_P_STATUS 0).off, (F.TPW_P_STATUS 1).off, (F.TPW_P_STATUS 2).off,
      F.TPW_RAIL_STATUS.off, F.TPW_INT_STATUS.off] s t ∧ wordsKept (mailWords p) s t) ∧
  (∀ (s : State) (p : Port) (hdr : Word) (l : List Byte), s.hub.hv.lockout = false → s.hub.chip.lkRun = true →
      s.hub.hv.defaultRole p ≠ 5 → frameRequest s.hub.chip p 3 hdr →
    s.hub.requestReason p (fieldAt l 0 2) (fieldAt l 2 2) ≠ 0 →
    ∃ t, exec (.pwrRequestRx p hdr l) s = .next t ∧ t.pending = s.pending ∧ hvWordsKept [] s t ∧
      t.hub.chip.tp[p].txq = s.hub.chip.tp[p].txq ++ [{
        hdr := tpHeader 5 (tpSeq hdr) 8 true false false,
        payload := [BitVec.ofNat 8 (s.hub.requestReason p (fieldAt l 0 2) (fieldAt l 2 2))] ++ List.replicate 6 0#8 ++ [l.getD 7 0#8] }] ∧
      t.hub.chip.pwr.got = s.hub.chip.pwr.got ∧ t.hub.chip.pwr.sent = s.hub.chip.pwr.sent ∧ wordsKept (mailWords p) s t) ∧
  (∀ (s : State) (p : Port) (hdr : Word) (l : List Byte) (r : TpRequest), s.hub.hv.lockout = false → s.hub.chip.lkRun = true →
      s.hub.hv.defaultRole p ≠ 5 → frameAnswer s.hub.chip p 4 hdr r →
    ∃ t, exec (.pwrAcceptRx p hdr l) s = .next t ∧ t.pending = s.pending ∧ t.hub.hv.get (F.TPW_P_CONTRACT_VALID p) = 1 ∧
      t.hub.hv.get (F.TPW_P_CONTRACT_DIR p) = 0 ∧
      t.hub.hv.get (F.TPW_P_CONTRACT_W p) = fieldAt l 0 2 % 4096 ∧ t.hub.hv.get (F.TPW_P_CONTRACT_I p) = fieldAt l 2 2 % 4096 ∧
      t.hub.chip.tp[p].requests = [] ∧ t.hub.chip.tp[p].mailboxFull = r.fw ∧
      hvWordsKept [(F.TPW_P_CONTRACT p).off, (F.TPW_P_STATUS 0).off, (F.TPW_P_STATUS 1).off, (F.TPW_P_STATUS 2).off,
      F.TPW_RAIL_STATUS.off, F.TPW_INT_STATUS.off] s t ∧ wordsKept (mailWords p) s t) ∧
  (∀ (s : State) (p : Port) (hdr : Word) (l : List Byte) (r : TpRequest), frameAnswer s.hub.chip p 5 hdr r →
    ∃ t, exec (.pwrRejectRx p hdr l) s = .next t ∧ t.pending = s.pending ∧ hvWordsKept [] s t ∧
      t.hub.chip.tp[p].requests = [] ∧ t.hub.chip.tp[p].mailboxFull = r.fw ∧
      t.hub.chip.pwr.got = s.hub.chip.pwr.got ∧ t.hub.chip.pwr.sent = s.hub.chip.pwr.sent ∧ wordsKept (mailWords p) s t) ∧
  (∀ (s : State) (p : Port) (hdr : Word) (l : List Byte), s.hub.chip.tpAlive p = true → tpClass hdr = 3 → tpRsp hdr = false →
      tpRetry hdr = false → s.hub.chip.tp[p].mailboxFull = true →
    ∃ t, exec (.pwrRequestRx p hdr l) s = .next t ∧ t.pending = s.pending ∧ hvWordsKept [] s t ∧
      t.hub.chip.tp[p].txq = s.hub.chip.tp[p].txq ∧ t.hub.chip.pwr.got = s.hub.chip.pwr.got ∧
      t.hub.chip.pwr.sent = s.hub.chip.pwr.sent ∧ wordsKept [(F.LNK_TP_RX p).off, (F.LNK_TP_STATUS p).off] s t) ∧
  (∀ (s : State) (p : Port) (o : PwrOffer), s.hub.hv.lockout = false → s.hub.chip.lkRun = true → s.hub.hv.defaultRole p ≠ 5 →
      s.hub.chip.pwr.sent[p] = some o → o.revised = true →
    s.hub.hv.on (F.TPW_P_CONTRACT_VALID p) = true → s.hub.hv.on (F.TPW_P_CONTRACT_DIR p) = true →
    ∃ t, exec (.contractLowerDelay p) s = .next t ∧ hvOnly s t ∧
      t.hub.hv.get (F.TPW_P_CONTRACT_W p) = min (s.hub.hv.get (F.TPW_P_CONTRACT_W p)) o.w ∧
      t.hub.hv.get (F.TPW_P_CONTRACT_I p) = min (s.hub.hv.get (F.TPW_P_CONTRACT_I p)) o.i ∧
      hvWordsKept [(F.TPW_P_CONTRACT p).off] s t) ∧
  (∀ (s : State) (p : Port) (hdr : Word) (l : List Byte), s.hub.chip.lkRun = true → s.hub.hv.defaultRole p ≠ 5 →
      frameRequest s.hub.chip p 6 hdr →
    ∃ t, exec (.swapReqRx p hdr l) s = .next t ∧ t.pending = s.pending ∧ hvWordsKept [] s t ∧
      t.hub.chip.tp[p].txq = s.hub.chip.tp[p].txq ++ [{
        hdr := tpHeader 7 (tpSeq hdr) 1 true false false,
        payload := [BitVec.ofNat 8 (s.hub.swapStatus p (fieldAt l 0 1 % 2 == 1))] }] ∧
      (if s.hub.swapStatus p (fieldAt l 0 1 % 2 == 1) = 0
        then t.hub.chip.pwr.swap[p] = some { newSource := !(fieldAt l 0 1 % 2 == 1), started := false, late := false, heard := false }
        else (t.hub.chip.pwr.swap[p]).isSome = (s.hub.chip.pwr.swap[p]).isSome) ∧
      wordsKept (mailWords p) s t) ∧
  (∀ (s : State) (p : Port) (hdr : Word) (r : TpRequest), s.hub.hv.lockout = false → frameAnswer s.hub.chip p 7 hdr r →
    ∃ t, exec (.swapAckRx p hdr [0#8]) s = .next t ∧ t.pending = s.pending ∧ t.hub.chip.tp[p].requests = [] ∧
      (if s.hub.hv.defaultRole p = 5 then hvWordsKept [] s t ∧ t.hub.chip.pwr.swap = s.hub.chip.pwr.swap else
        t.hub.hv.get (F.TPW_P_STATUS_GUARD p) = 1 ∧
        t.hub.chip.pwr.swap[p] = some { newSource := fieldAt r.frame.payload 0 1 % 2 == 1, started := true, late := false, heard := false } ∧
        hvWordsKept [(F.TPW_P_STATUS 0).off, (F.TPW_P_STATUS 1).off, (F.TPW_P_STATUS 2).off, F.TPW_RAIL_STATUS.off,
        F.TPW_INT_STATUS.off] s t) ∧ wordsKept (mailWords p) s t)

/-- Load channels (12 R377 to R384, R389, R390). The slot starts the lowest armed channel, the ramp ends in ON, faults turn
a channel off with their cause and latch where the retries are spent, power-good follows the deglitch, and a conducting FET
that is off latches. Rests on the model's choices of log 5 and 51. Completes: loadSlotStart, loadRampEnd, loadRampFault,
loadFaultTimer, loadHardShort, loadGateFault, loadPathDrop, loadOvervoltage, loadOvRecovery, loadPgDeglitch, loadVoutLow,
loadRetryDue, loadRetryCountReset, loadOffConduction, loadOutPresent, loadLimiterChange. -/
def Obligations.LoadChannels : Prop :=
  (∀ (s : State) (y : Chan), s.hub.hv.lockout = false → s.hub.chip.slotFalls = true → s.hub.slotUsed = false →
      s.hub.chip.bud.row.getLsbD 23 = true →
    s.hub.chip.bud.row.getLsbD (24 + y.val) = false → s.hub.hv.cstate y = csArmed → (∀ z : Chan, z ≠ y →
      s.hub.hv.cstate z ≠ csArmed) →
    ∃ t, exec (.loadSlotStart) s = .next t ∧ t.pending = s.pending ∧ t.hub.hv.cstate y = csRamp ∧
      t.hub.hv.get (F.LDC_STARTS y) = (s.hub.hv.get (F.LDC_STARTS y) + 1) % 2 ^ 32 ∧
      t.hub.hv.ldc[y].rampAt = s.hub.chip.now ∧ t.hub.chip.get F.BUD_INRUSH_WITHHELD = s.hub.chip.get F.BUD_INRUSH_WITHHELD ∧
      (s.hub.hv.get F.LDC_INT_STATUS_STARTED ||| 2 ^ y.val) = t.hub.hv.get F.LDC_INT_STATUS_STARTED ∧
      wordsKept [F.BUD_STATUS.off] s t) ∧
  (∀ (s : State) (y : Chan), s.hub.hv.lockout = false → s.hub.hv.cstate y = csRamp →
    ∃ t, exec (.loadRampEnd y) s = .next t ∧ hvOnly s t ∧ t.hub.hv.cstate y = csOn ∧ t.hub.hv.ldc[y].sw.deglitch = .running ∧
      t.hub.hv.get (F.LDC_L_RAMP0_DURATION y) = min ((s.hub.chip.now - s.hub.hv.ldc[y].rampAt) / 10000) 65535 ∧
      hvWordsKept [(F.LDC_L_STATUS y).off, F.LDC_STATUS.off, (F.LDC_L_RAMP0 y).off, (F.LDC_L_RAMP1 y).off,
      (F.LDC_L_RAMP2 y).off] s t) ∧
  (∀ (s : State) (y : Chan), s.hub.hv.lockout = false → s.hub.hv.cstate y = csRamp → s.hub.hv.chanSpent y = false →
    ∃ t, exec (.loadRampFault y .timeout) s = .next t ∧ t.pending = s.pending ∧ t.hub.hv.cstate y = csFault ∧
      t.hub.hv.get (F.LDC_L_STATUS_CAUSE y) = 3 ∧ t.hub.hv.get (F.LDC_FAULTS y) = (s.hub.hv.get (F.LDC_FAULTS y) + 1) % 2 ^ 32 ∧
      (t.hub.hv.get F.LDC_INT_STATUS_FAULT).testBit y.val = true) ∧
  (∀ (s : State) (y : Chan), s.hub.hv.lockout = false → s.hub.hv.chanOn y = true → s.hub.hv.on (F.LDC_L_STATUS_TIMER y) = true →
      s.hub.hv.chanSpent y = false →
    ∃ t, exec (.loadFaultTimer y) s = .next t ∧ t.pending = s.pending ∧ t.hub.hv.cstate y = csFault ∧
      t.hub.hv.get (F.LDC_L_STATUS_CAUSE y) = 1 ∧ t.hub.hv.get (F.LDC_FAULTS y) = (s.hub.hv.get (F.LDC_FAULTS y) + 1) % 2 ^ 32 ∧
      (t.hub.hv.get F.LDC_INT_STATUS_FAULT).testBit y.val = true) ∧
  (∀ (s : State) (y : Chan) (ma : Int), s.hub.hv.lockout = false → s.hub.hv.chanOn y = true → s.hub.hv.chanSpent y = false →
      2 * s.hub.hv.chanEff y ≤ (ma.natAbs : Rat) →
    ∃ t, exec (.loadHardShort y ma) s = .next t ∧ t.pending = s.pending ∧ t.hub.hv.cstate y = csFault ∧
      t.hub.hv.get (F.LDC_L_STATUS_CAUSE y) = 2 ∧ t.hub.hv.get (F.LDC_FAULTS y) = (s.hub.hv.get (F.LDC_FAULTS y) + 1) % 2 ^ 32 ∧
      (t.hub.hv.get F.LDC_INT_STATUS_FAULT).testBit y.val = true) ∧
  (∀ (s : State) (y : Chan) (ma : Int), s.hub.hv.lockout = false → s.hub.hv.chanOn y = true → s.hub.hv.chanSpent y = true →
      2 * s.hub.hv.chanEff y ≤ (ma.natAbs : Rat) →
    ∃ t, exec (.loadHardShort y ma) s = .next t ∧ t.pending = s.pending ∧ t.hub.hv.cstate y = csLatched ∧
      t.hub.hv.get (F.LDC_L_STATUS_CAUSE y) = 2 ∧ t.hub.chip.get F.GLB_FAULT_STATUS_LATCHED = 1 ∧
      t.hub.hv.get (F.LDC_LATCHES y) = (s.hub.hv.get (F.LDC_LATCHES y) + 1) % 2 ^ 32) ∧
  (∀ (s : State) (y : Chan), s.hub.hv.lockout = false → s.hub.hv.chanOn y = true →
      s.hub.hv.on (F.LDC_L_STATUS_LIMITING y) = false → s.hub.hv.chanSpent y = false →
    ∃ t, exec (.loadGateFault y) s = .next t ∧ t.pending = s.pending ∧ t.hub.hv.cstate y = csFault ∧
      t.hub.hv.get (F.LDC_L_STATUS_CAUSE y) = 8 ∧ t.hub.hv.get (F.LDC_FAULTS y) = (s.hub.hv.get (F.LDC_FAULTS y) + 1) % 2 ^ 32 ∧
      (t.hub.hv.get F.LDC_INT_STATUS_FAULT).testBit y.val = true) ∧
  (∀ (s : State) (y : Chan), s.hub.hv.lockout = false → s.hub.hv.cstate y = csOn →
      s.hub.hv.on (F.LDC_L_STATUS_LIMITING y) = false → s.hub.hv.chanSpent y = false →
    ∃ t, exec (.loadPathDrop y) s = .next t ∧ t.pending = s.pending ∧ t.hub.hv.cstate y = csFault ∧
      t.hub.hv.get (F.LDC_L_STATUS_CAUSE y) = 9 ∧ t.hub.hv.get (F.LDC_FAULTS y) = (s.hub.hv.get (F.LDC_FAULTS y) + 1) % 2 ^ 32 ∧
      (t.hub.hv.get F.LDC_INT_STATUS_FAULT).testBit y.val = true) ∧
  (∀ (s : State) (y : Chan), s.hub.hv.lockout = false → s.hub.hv.chanOn y = true → s.hub.hv.on (F.LDC_L_CFG_OV_OFF y) = true →
    ∃ t, exec (.loadOvervoltage y) s = .next t ∧ t.pending = s.pending ∧ t.hub.hv.cstate y = csFault ∧
      t.hub.hv.get (F.LDC_L_STATUS_CAUSE y) = 6 ∧ t.hub.hv.get (F.LDC_FAULTS y) = (s.hub.hv.get (F.LDC_FAULTS y) + 1) % 2 ^ 32 ∧
      (t.hub.hv.get F.LDC_INT_STATUS_FAULT).testBit y.val = true) ∧
  (∀ (s : State) (y : Chan), s.hub.hv.lockout = false → s.hub.hv.cstate y = csFault → s.hub.hv.get (F.LDC_L_STATUS_CAUSE y) = 6 →
    ∃ t, exec (.loadOvRecovery y) s = .next t ∧ hvOnly s t ∧ t.hub.hv.cstate y = csArmed ∧
      t.hub.hv.get (F.LDC_L_STATUS_RETRIES y) = s.hub.hv.get (F.LDC_L_STATUS_RETRIES y)) ∧
  (∀ (s : State) (y : Chan), s.hub.hv.lockout = false → s.hub.hv.cstate y = csOn → s.hub.hv.ldc[y].sw.deglitch = .running →
      s.hub.hv.on (F.LDC_L_STATUS_TIMER y) = false →
    ∃ t, exec (.loadPgDeglitch y) s = .next t ∧ hvOnly s t ∧ t.hub.hv.get (F.LDC_L_STATUS_PG y) = 1 ∧
      t.hub.hv.ldc[y].sw.deglitch = .off ∧
      hvWordsKept [(F.LDC_L_STATUS y).off, F.LDC_STATUS.off, F.LDC_INT_STATUS.off] s t) ∧
  (∀ (s : State) (y : Chan), s.hub.hv.lockout = false → s.hub.hv.cstate y = csOn → s.hub.hv.on (F.LDC_L_STATUS_PG y) = true →
      s.hub.hv.on (F.LDC_L_STATUS_TIMER y) = false →
    ∃ t, exec (.loadVoutLow y) s = .next t ∧ hvOnly s t ∧ t.hub.hv.get (F.LDC_L_STATUS_PG y) = 0 ∧ t.hub.hv.cstate y = csOn ∧
      t.hub.hv.ldc = s.hub.hv.ldc ∧
      hvWordsKept [(F.LDC_L_STATUS y).off, F.LDC_STATUS.off, F.LDC_INT_STATUS.off] s t) ∧
  (∀ (s : State) (y : Chan), s.hub.hv.lockout = false → s.hub.hv.cstate y = csFault → s.hub.hv.get (F.LDC_L_STATUS_CAUSE y) ≠ 6 →
    s.hub.hv.ldc[y].sw.fet.temp < s.hub.hv.get (F.LDC_L_SENSE_T_RETRY y) →
    ∃ t, exec (.loadRetryDue y) s = .next t ∧ hvOnly s t ∧ t.hub.hv.cstate y = csArmed ∧
      t.hub.hv.get (F.LDC_L_STATUS_RETRIES y) = min 31 (s.hub.hv.get (F.LDC_L_STATUS_RETRIES y) + 1)) ∧
  (∀ (s : State) (y : Chan), s.hub.hv.lockout = false → s.hub.hv.cstate y = csOn →
    ∃ t, exec (.loadRetryCountReset y) s = .next t ∧ hvOnly s t ∧ t.hub.hv.get (F.LDC_L_STATUS_RETRIES y) = 0 ∧
      t.hub.hv.cstate y = csOn ∧ t.hub.hv.ldc = s.hub.hv.ldc ∧
      hvWordsKept [(F.LDC_L_STATUS y).off] s t) ∧
  (∀ (s : State) (y : Chan), s.hub.hv.lockout = false → s.hub.hv.chanOn y = false → 8000 ≤ s.hub.hv.vrail →
    ∃ t, exec (.loadOffConduction y) s = .next t ∧ t.pending = s.pending ∧ t.hub.hv.cstate y = csLatched ∧
      t.hub.hv.get (F.LDC_L_STATUS_DAMAGE y) = 1 ∧ t.hub.hv.get (F.LDC_L_STATUS_CAUSE y) = 7 ∧
      t.hub.chip.get F.GLB_FAULT_STATUS_LATCHED = 1) ∧
  (∀ (s : State) (y : Chan), s.hub.hv.lockout = false → s.hub.hv.chanOn y = false → 8000 ≤ s.hub.hv.vrail →
    ∃ t, exec (.loadOutPresent y) s = .next t ∧ hvOnly s t ∧ t.hub.hv.get (F.LDC_L_STATUS_OUT_PRESENT y) = 1 ∧
      t.hub.hv.cstate y = s.hub.hv.cstate y ∧ t.hub.hv.ldc = s.hub.hv.ldc ∧
      hvWordsKept [(F.LDC_L_STATUS y).off, F.LDC_INT_STATUS.off] s t) ∧
  (∀ (s : State) (y : Chan) (b : Bool), s.hub.hv.lockout = false → s.hub.hv.cstate y = csOn →
      s.hub.hv.on (F.LDC_L_STATUS_LIMITING y) = !b →
    ∃ t, exec (.loadLimiterChange y b) s = .next t ∧ hvOnly s t ∧ t.hub.hv.get (F.LDC_L_STATUS_LIMITING y) = b.toNat ∧
      t.hub.hv.get (F.LDC_L_STATUS_TIMER y) = b.toNat ∧
      t.hub.hv.cstate y = csOn ∧ hvWordsKept [(F.LDC_L_STATUS y).off] s t)

/-- Fuses, provisioning and the Watermark end (13 R397, R409 to R412, R414). MIN_SVN rises to the firmware's SVN and never
falls, a target's fuses are blown, a failed programming shows FUSE_ERR and leaves each of them blown or intact, a record is acted
on or its failed check is shown, and the Watermark is placed, with SESSION the session key committed. Rests on the model's choices of log 6 and 53. Completes: lcCmdDone, provRecordDone,
watermarkDone. -/
def Obligations.KeyCommandsEnd : Prop :=
  (∀ s : State, s.hub.chip.running = true → s.hub.chip.key.lcCmd = some 4 → s.hub.chip.key.fuses.svn < 64 →
    ∃ t, exec (.lcCmdDone true) s = .next t ∧ coreOnly s t ∧
      t.hub.chip.get F.KEY_STATUS_MIN_SVN = max s.hub.chip.key.fuses.svn (s.hub.chip.get F.KEY_STATUS_FW_SVN) ∧
      t.hub.chip.key.fuses = { s.hub.chip.key.fuses with svn := max s.hub.chip.key.fuses.svn (s.hub.chip.get F.KEY_STATUS_FW_SVN) } ∧ t.hub.chip.key.lcCmd = none ∧
      t.hub.chip.get F.KEY_LC_CMD_RESULT = 1 ∧ t.hub.chip.get F.KEY_LC_CMD_CONFIRM = 0 ∧
      t.hub.chip.get F.KEY_INT_STATUS_LC_DONE = 1 ∧
      wordsKept [F.KEY_STATUS.off, F.KEY_LC_CMD.off, F.KEY_INT_STATUS.off] s t) ∧
  (∀ (s : State) (n : Nat), s.hub.chip.running = true → s.hub.chip.key.lcCmd = some n → n < 4 →
    ∃ t, exec (.lcCmdDone true) s = .next t ∧ coreOnly s t ∧
      t.hub.chip.key.fuses = s.hub.chip.key.fuses.blow (lcFuses n) ∧
      t.hub.chip.key.lcCmd = none ∧
      t.hub.chip.get F.KEY_STATUS_LC_FUSED = lifeCycle (s.hub.chip.key.fuses.blow (lcFuses n)).pattern ∧
      t.hub.chip.get F.KEY_LC_CMD_RESULT = 1 ∧
      t.hub.chip.get F.KEY_LC_CMD_CONFIRM = 0 ∧ wordsKept [F.KEY_STATUS.off, F.KEY_LC_CMD.off, F.KEY_INT_STATUS.off] s t) ∧
  (∀ (s : State) (n : Nat), s.hub.chip.running = true → s.hub.chip.key.lcCmd = some n → n ≤ 4 →
    ∃ t, exec (.lcCmdDone false) s = .next t ∧ coreOnly s t ∧ fusesOnlyGrow s t ∧
      (∀ k : Fin 3, (s.hub.chip.key.fuses.blow (lcFuses n)).lc[k] ||| t.hub.chip.key.fuses.lc[k] = (s.hub.chip.key.fuses.blow (lcFuses n)).lc[k]) ∧
      t.hub.chip.key.fuses.svn ≤ (if n = 4 then max s.hub.chip.key.fuses.svn (s.hub.chip.get F.KEY_STATUS_FW_SVN) else s.hub.chip.key.fuses.svn) ∧
      t.hub.chip.key.lcCmd = none ∧ t.hub.chip.get F.KEY_LC_CMD_RESULT = 3 ∧ t.hub.chip.get F.KEY_INT_STATUS_FUSE_ERR = 1 ∧
      t.hub.chip.get F.KEY_STATUS_LC_FUSED = lifeCycle t.hub.chip.key.fuses.pattern ∧
      wordsKept [F.KEY_STATUS.off, F.KEY_LC_CMD.off, F.KEY_INT_STATUS.off] s t) ∧
  (∀ (s : State) (r : List Byte) (f : Bool), s.hub.chip.running = true → s.hub.chip.key.prov = some r → fieldAt r 3 1 = 1 →
    ∃ t, exec (.provRecordDone f) s = .next t ∧ coreOnly s t ∧ t.hub.chip.get F.KEY_PROV_CMD_BUSY = 0 ∧
      t.hub.chip.get F.KEY_INT_STATUS_PROV_DONE = 1 ∧ t.hub.chip.key.prov = none ∧
      (∀ k < 24, t.hub.chip.get (F.KEY_PROV_BUF k) = 0) ∧
      (match s.hub.chip.provCheck r with
        | .error n => t.hub.chip.get F.KEY_PROV_CMD_RESULT = n % 16 ∧ t.hub.chip.key.slots = s.hub.chip.key.slots
        | .ok k => t.hub.chip.get F.KEY_PROV_CMD_RESULT = 1 ∧ (t.hub.chip.key.slot (s.hub.chip.freeSlot (fieldAt r 4 1))).key = k)) ∧
  (∀ s : State, s.hub.chip.running = true → s.hub.chip.on F.KEY_WM_CMD_BUSY = true → s.hub.chip.on F.KEY_STATUS_TAINT = true →
    ∃ t, exec (.watermarkDone) s = .next t ∧ coreOnly s t ∧ t.hub.chip.get F.KEY_WM_CMD_RESULT = 3 ∧
      t.hub.chip.get F.KEY_WM_CMD_BUSY = 0 ∧ t.hub.chip.get F.KEY_INT_STATUS_WM_DONE = 1 ∧ t.hub.chip.key = s.hub.chip.key ∧
      wordsKept (F.KEY_WM_CMD.off :: F.KEY_INT_STATUS.off :: (List.range 8).map fun k => (F.KEY_WM_RESULT k).off) s t ∧
      (s.hub.chip.on F.KEY_STATUS_MKB_VALID = true → t.hub.chip.read256 F.KEY_WM_RESULT = s.hub.chip.read256 F.KEY_WM_RESULT)) ∧
  (∀ s : State, s.hub.chip.running = true → s.hub.chip.on F.KEY_WM_CMD_BUSY = true → s.hub.chip.on F.KEY_STATUS_TAINT = false →
      s.hub.chip.on F.KEY_STATUS_MKB_VALID = false ∨ (s.hub.chip.activeSlot 3).opens engineAttest = false →
    ∃ t, exec (.watermarkDone) s = .next t ∧ coreOnly s t ∧ t.hub.chip.get F.KEY_WM_CMD_RESULT = 2 ∧
      (s.hub.chip.on F.KEY_STATUS_MKB_VALID = false → t.hub.chip.read256 F.KEY_WM_RESULT = 0) ∧ t.hub.chip.key = s.hub.chip.key) ∧
  (∀ s : State, s.hub.chip.running = true → s.hub.chip.on F.KEY_WM_CMD_BUSY = true → s.hub.chip.on F.KEY_STATUS_TAINT = false →
      s.hub.chip.on F.KEY_STATUS_MKB_VALID = true → (s.hub.chip.activeSlot 3).opens engineAttest = true →
    ∃ t, exec (.watermarkDone) s = .next t ∧ coreOnly s t ∧ t.hub.chip.get F.KEY_WM_CMD_RESULT = 1 ∧
      t.hub.chip.read256 F.KEY_WM_RESULT = Config.hmacSha256 (s.hub.chip.activeSlot 3).key s.hub.chip.watermarkInput ∧
      (if s.hub.chip.on F.KEY_WM_CMD_SESSION = true then t.hub.chip.lkp.lastSseq = none ∧
        (t.hub.chip.key.slot (s.hub.chip.freeSlot 1)).key =
          kdf (s.hub.chip.activeSlot 3).key "CKH-MGMT" (keyBytes (s.hub.chip.read256 F.KEY_WM_NONCE))
      else t.hub.chip.key = s.hub.chip.key))

/-- Admission of a link (13 R415 to R418). While LNK_CTL.EN is set (03 R523), the lower end starts with HELLO_K, the higher
answers it, the confirmation admits the port or fails, and a failure, a timeout and the end of the back-off are recorded.
Rests on the model's choices of log 5, 6 and 53. Completes: admissionStart, keyxHelloKRx, keyxConfirmRx, keyxFailRx,
admitTimeout, admitBackoffExpiry. -/
def Obligations.LinkAdmission : Prop :=
  (∀ (s : State) (p : Port), s.hub.chip.lkRun = true → s.hub.chip.lkp.noAdmit = false →
      s.hub.chip.on (F.TRK_STATUS_LINK_UP p) = true → s.hub.chip.on (F.LNK_CTL_EN p) = true →
    s.hub.chip.on (F.LNK_STATUS_ADMITTED p) = false → s.hub.chip.isLower p = true → s.hub.chip.key.adm[p].phase = .idle →
      s.hub.chip.on F.KEY_STATUS_TAINT = false →
    s.hub.chip.on F.KEY_STATUS_ENTROPY_OK = true →
    ∃ t, exec (.admissionStart p) s = .next t ∧ coreOnly s t ∧ t.hub.chip.key.adm[p].phase = .helloSent ∧
      t.hub.chip.key.adm[p].ownNonce = Config.entropy s.hub.chip.freeCount ∧
      t.hub.chip.get (F.KEY_P_STATUS_ADMIT p) = 1 ∧ t.hub.chip.tp[p].requests.length = s.hub.chip.tp[p].requests.length + 1 ∧
      t.hub.chip.key.slots = s.hub.chip.key.slots ∧
      wordsKept [(F.KEY_P_STATUS p).off, (F.LNK_TP_RESULT p).off] s t) ∧
  (∀ (s : State) (p : Port) (hdr : Word) (l : List Byte), s.hub.chip.lkRun = true → s.hub.chip.lkp.noAdmit = false →
      s.hub.chip.on (F.TRK_STATUS_LINK_UP p) = true → s.hub.chip.on (F.LNK_CTL_EN p) = true →
    fieldAt l 0 1 = 1 → l.length = 52 → frameRequest s.hub.chip p 0xB hdr → s.hub.chip.key.adm[p].phase ≠ .backoff →
      fieldAt l 4 8 = s.hub.chip.partnerSerial p →
    s.hub.chip.on F.KEY_STATUS_TAINT = false → s.hub.chip.on F.KEY_STATUS_ENTROPY_OK = true →
    ∃ t, exec (.keyxHelloKRx p hdr l) s = .next t ∧ t.pending = s.pending ∧ hvWordsKept [] s t ∧
      t.hub.chip.key.adm[p].phase = .helloAnswered ∧
      t.hub.chip.key.adm[p].peerHello = l ∧
      t.hub.chip.key.adm[p].ownNonce = Config.entropy s.hub.chip.freeCount ∧ t.hub.chip.get (F.KEY_P_STATUS_ADMIT p) = 1 ∧
      t.hub.chip.tp[p].txq.length = s.hub.chip.tp[p].txq.length + 1 ∧ wordsKept ((F.KEY_P_STATUS p).off :: mailWords p) s t) ∧
  (∀ (s : State) (p : Port) (hdr : Word) (l : List Byte), s.hub.chip.lkRun = true → s.hub.chip.lkp.noAdmit = false →
      s.hub.chip.on (F.TRK_STATUS_LINK_UP p) = true → s.hub.chip.on (F.LNK_CTL_EN p) = true →
    fieldAt l 0 1 = 1 → l.length = 52 → frameRequest s.hub.chip p 0xB hdr → s.hub.chip.key.adm[p].phase = .backoff →
    ∃ t, exec (.keyxHelloKRx p hdr l) s = .next t ∧ t.pending = s.pending ∧ hvWordsKept [] s t ∧ t.hub.chip.key = s.hub.chip.key ∧
      t.hub.chip.tp[p].txq = s.hub.chip.tp[p].txq ++ [{ hdr := tpHeader 0xB (tpSeq hdr) 4 true false false, payload := keyxFail 3 }] ∧
      wordsKept (mailWords p) s t) ∧
  (∀ (s : State) (p : Port) (hdr : Word) (l : List Byte) (k : Key256), s.hub.chip.lkRun = true → s.hub.chip.lkp.noAdmit = false →
    s.hub.chip.on (F.TRK_STATUS_LINK_UP p) = true → s.hub.chip.on (F.LNK_CTL_EN p) = true → fieldAt l 0 1 = 2 → l.length = 36 → frameRequest s.hub.chip p 0xB hdr →
    s.hub.chip.key.adm[p].phase = .helloAnswered → s.hub.chip.key.adm[p].chosen = some (k, false) → fieldAt l 1 1 = 0 →
    ∃ t, exec (.keyxConfirmRx p hdr l) s = .next t ∧ t.pending = s.pending ∧ hvWordsKept [] s t ∧
      (if s.hub.chip.confirmMac p k s.hub.chip.key.adm[p].ownHello s.hub.chip.key.adm[p].peerHello 1#8 = keyOfBytes ((l.drop 4).take 32) then
        t.hub.chip.get (F.LNK_STATUS_ADMITTED p) = 1 ∧ t.hub.chip.get (F.KEY_P_STATUS_ADMIT p) = 2 ∧
        t.hub.chip.key.adm[p].phase = .idle ∧ t.hub.chip.key.adm[p].fails = 0
      else t.hub.chip.get (F.KEY_P_STATUS_LAST_FAIL p) = 2 ∧ t.hub.chip.get (F.LNK_STATUS_ADMITTED p) = 0 ∧
      t.hub.chip.key.adm[p].phase = .backoff)) ∧
  (∀ (s : State) (p : Port) (hdr : Word) (l : List Byte) (r : TpRequest), s.hub.chip.lkRun = true → s.hub.chip.lkp.noAdmit = false →
      s.hub.chip.on (F.TRK_STATUS_LINK_UP p) = true → s.hub.chip.on (F.LNK_CTL_EN p) = true → frameRequest s.hub.chip p 0xB hdr ∨ frameAnswer s.hub.chip p 0xB hdr r →
    fieldAt l 0 1 = 3 → l.length = 4 → s.hub.chip.key.adm[p].phase ≠ .idle → s.hub.chip.key.adm[p].phase ≠ .backoff →
    ∃ t, exec (.keyxFailRx p hdr l) s = .next t ∧ t.pending = s.pending ∧ hvWordsKept [] s t ∧ t.hub.chip.get (F.KEY_P_STATUS_LAST_FAIL p) = fieldAt l 1 1 % 8 ∧
      t.hub.chip.get F.KEY_INT_STATUS_ADMIT_FAIL = 1 ∧
      t.hub.chip.get (F.KEY_P_ADMIT_FAIL p) = (s.hub.chip.get (F.KEY_P_ADMIT_FAIL p) + 1) % 2 ^ 32 ∧
      t.hub.chip.get (F.KEY_P_STATUS_ADMIT p) = 3 ∧
      t.hub.chip.key.adm[p].phase = .backoff) ∧
  (∀ (s : State) (p : Port), s.hub.chip.key.adm[p].phase ≠ .idle → s.hub.chip.key.adm[p].phase ≠ .backoff →
    ∃ t, exec (.admitTimeout p) s = .next t ∧ coreOnly s t ∧ t.hub.chip.get (F.KEY_P_STATUS_LAST_FAIL p) = 7 ∧
      t.hub.chip.get F.KEY_INT_STATUS_ADMIT_FAIL = 1 ∧
      t.hub.chip.get (F.KEY_P_ADMIT_FAIL p) = (s.hub.chip.get (F.KEY_P_ADMIT_FAIL p) + 1) % 2 ^ 32 ∧
      t.hub.chip.key.adm[p].phase = .backoff ∧
      t.hub.chip.key.adm[p].fails = s.hub.chip.key.adm[p].fails + 1 ∧
      t.hub.chip.key.adm[p].until_ = s.hub.chip.now + 2 ^ min s.hub.chip.key.adm[p].fails 6 * second) ∧
  (∀ (s : State) (p : Port), s.hub.chip.key.adm[p].phase = .backoff → s.hub.chip.on (F.TRK_STATUS_LINK_UP p) = false →
    ∃ t, exec (.admitBackoffExpiry p) s = .next t ∧ coreOnly s t ∧ t.hub.chip.key.adm[p].phase = .idle ∧
      t.hub.chip.get (F.KEY_P_STATUS_ADMIT p) = 0 ∧ t.hub.chip.get (F.KEY_P_STATUS_BACKOFF p) = 0 ∧
      t.hub.chip.key.slots = s.hub.chip.key.slots ∧ wordsKept [(F.KEY_P_STATUS p).off] s t)

/-- Entropy and test access (13 R405, R423 to R426). A re-mask pass keeps every key; a failed health test shows and alarms;
a private instruction opens the port in BLANK, clears the secrets first in PROVISIONED and RETURNED and acts as BYPASS in
DEPLOYED; a wrong response blocks. Rests on the model's choices of log 2, 3, 5, 6 and 53. Completes: remaskPass,
entropyHealthFail, entropyHealthPass, tapPrivateInstruction, unlockChalCapture, unlockRespWrite, unlockBlockExpiry. -/
def Obligations.TestAccess : Prop :=
  (∀ s : State, s.hub.chip.running = true →
    ∃ t, exec (.remaskPass) s = .next t ∧ coreOnly s t ∧ (∀ n < 32, (t.hub.chip.key.slot n).key = (s.hub.chip.key.slot n).key ∧
      (t.hub.chip.key.slot n).valid = (s.hub.chip.key.slot n).valid ∧
        (t.hub.chip.key.slot n).active = (s.hub.chip.key.slot n).active) ∧ t.hub.chip.key.second = !s.hub.chip.key.second ∧
        wordsKept [F.KEY_STATUS.off] s t) ∧
  (∀ s : State, s.hub.chip.running = true →
    ∃ t, exec (.entropyHealthFail) s = .next t ∧ coreOnly s t ∧ t.hub.chip.get F.KEY_STATUS_ENTROPY_OK = 0 ∧
      t.hub.chip.get F.KEY_INT_STATUS_ENTROPY_FAIL = 1 ∧
      t.hub.chip.get F.ALM_RAISED = (s.hub.chip.get F.ALM_RAISED + 1) % 2 ^ 32 ∧ t.hub.chip.key = s.hub.chip.key) ∧
  (∀ s : State, s.hub.chip.running = true → ∃ t, exec (.entropyHealthPass) s = .next t ∧ coreOnly s t ∧
      t.hub.chip.get F.KEY_STATUS_ENTROPY_OK = 1 ∧ t.hub.chip.key = s.hub.chip.key) ∧
  (∀ s : State, s.hub.chip.get F.KEY_STATUS_LC = 0 →
    ∃ t, exec (.tapPrivateInstruction) s = .next t ∧ coreOnly s t ∧ t.hub.chip.get F.KEY_STATUS_TAP_OPEN = 1 ∧
      t.hub.chip.key = s.hub.chip.key ∧ wordsKept [F.KEY_STATUS.off] s t) ∧
  (∀ s : State, s.hub.chip.get F.KEY_STATUS_LC = 1 ∨ s.hub.chip.get F.KEY_STATUS_LC = 3 ∨ (s.hub.chip.get F.KEY_STATUS_LC = 2 ∧
      s.hub.chip.key.unlocked = true) →
    ∃ t, exec (.tapPrivateInstruction) s = .next t ∧ coreOnly s t ∧ t.hub.chip.get F.KEY_STATUS_TAP_OPEN = 1 ∧
      t.hub.chip.get F.KEY_STATUS_TAINT = 1 ∧ t.hub.chip.get F.KEY_STATUS_MKB_VALID = 0 ∧
      t.hub.chip.key.mkb = none ∧ (∀ n < 32, t.hub.chip.key.slot n = Slot.empty) ∧ t.hub.chip.get F.KEY_INT_STATUS_TAP_CLEAR = 1 ∧
      ∀ p : Port, t.hub.chip.get (F.LNK_STATUS_ADMITTED p) = 0) ∧
  (∀ s : State, s.hub.chip.get F.KEY_STATUS_LC = 2 → s.hub.chip.key.unlocked = false →
      ∃ t, exec (.tapPrivateInstruction) s = .next t ∧ coreOnly s t ∧ t.hub.chip.key = s.hub.chip.key ∧ wordsKept [] s t) ∧
  (∀ s : State, s.hub.chip.get F.KEY_STATUS_LC = 2 → s.hub.chip.on F.KEY_STATUS_ENTROPY_OK = true →
    ∃ t, exec (.unlockChalCapture) s = .next t ∧ coreOnly s t ∧
      t.hub.chip.key = { s.hub.chip.key with
        challenge := some (Config.entropy s.hub.chip.freeCount), seed := some (Config.entropy s.hub.chip.freeCount) } ∧
      t.hub.chip.outbox = s.hub.chip.outbox ++ [Out.unlockNonce (Config.entropy s.hub.chip.freeCount)] ∧
      s.hub.chip.freeCount < t.hub.chip.freeCount ∧ wordsKept [] s t) ∧
  (∀ (s : State) (k : Key256), s.hub.chip.get F.KEY_STATUS_LC = 2 → s.hub.chip.key.blocked = false →
      s.hub.chip.key.challenge = none →
    ∃ t, exec (.unlockRespWrite k) s = .next t ∧ coreOnly s t ∧
      t.hub.chip.key = { s.hub.chip.key with wrong := s.hub.chip.key.wrong + 1, blocked := true } ∧ wordsKept [] s t) ∧
  (∀ (s : State) (k n r : Key256), s.hub.chip.get F.KEY_STATUS_LC = 2 → s.hub.chip.key.blocked = false →
      s.hub.chip.key.challenge = some n → 
    s.hub.chip.key.fuses.ownerRoot = some r → s.hub.chip.on F.KEY_STATUS_TAINT = false →
      s.hub.chip.on F.KEY_STATUS_FUSE_ERR = false →
    ∃ t, exec (.unlockRespWrite k) s = .next t ∧ coreOnly s t ∧
      (t.hub.chip.key.unlocked = true ↔ s.hub.chip.key.unlocked = true ∨
        Config.hmacSha256 (kdf (kdf r "CKH-ROOT" (s.hub.chip.serialBytes ++ [2#8])) "CKH-TAP" s.hub.chip.serialBytes) (keyBytes n) = k)) ∧
  (∀ s : State, ∃ t, exec (.unlockBlockExpiry) s = .next t ∧ coreOnly s t ∧
      t.hub.chip.key = { s.hub.chip.key with blocked := false } ∧ wordsKept [] s t)

/-- Alarms (14 R445 to R447) and the MGMT service (16 R478 to R482). A hold ends, a received alarm is counted and, at a
head-end, logged; an admitted request is carried out and answered, any other is refused; and a relayed request ends with the
partner's answer or without one. Rests on the model's choices of log 5, 17, 57 and 65. Completes: alarmHoldExpiry,
alarmBargeRx, mgmtRequestRx, mgmtProxyResponseRx, mgmtProxyTimeout. -/
def Obligations.AlarmsAndManagement : Prop :=
  (∀ (s : State) (i : Byte), s.hub.chip.running = true → s.hub.chip.on F.ALM_CFG_EN = false →
      (s.hub.chip.alm.holds.any fun h => h.1 == i.toNat) = true →
    ∃ t, exec (.alarmHoldExpiry i) s = .next t ∧ coreOnly s t ∧
      t.hub.chip.alm = { s.hub.chip.alm with holds := s.hub.chip.alm.holds.filter fun h => h.1 != i.toNat } ∧
      t.hub.chip.swc = s.hub.chip.swc ∧
      wordsKept [F.ALM_STATUS.off] s t) ∧
  (∀ (s : State) (b : Barge) (rest : List Barge), s.hub.chip.running = true → s.hub.chip.alm.rx = b :: rest →
      s.hub.chip.alm.holds = [] → s.hub.chip.headEnd = false →
    ∃ t, exec (.alarmBargeRx) s = .next t ∧ coreOnly s t ∧ t.hub.chip.alm = { s.hub.chip.alm with rx := rest } ∧
      t.hub.chip.get F.ALM_RX = (s.hub.chip.get F.ALM_RX + 1) % 2 ^ 32 ∧ wordsKept [F.ALM_RX.off] s t) ∧
  (∀ (s : State) (b : Barge) (rest : List Barge), s.hub.chip.running = true → s.hub.chip.alm.rx = b :: rest →
      s.hub.chip.alm.holds = [] → s.hub.chip.alm.log = [] →
    s.hub.chip.headEnd = true →
    ∃ t, exec (.alarmBargeRx) s = .next t ∧ coreOnly s t ∧ t.hub.chip.alm.rx = rest ∧
      t.hub.chip.get F.ALM_RX = (s.hub.chip.get F.ALM_RX + 1) % 2 ^ 32 ∧
      t.hub.chip.alm.log = [(0, { alarmOf b.payload s.hub.chip.now with order := s.hub.chip.alm.logged })] ∧
      t.hub.chip.get F.ALM_INT_STATUS_RECEIVED = 1 ∧
      wordsKept [F.ALM_RX.off, F.ALM_STATUS.off, F.ALM_INT_STATUS.off] s t) ∧
  (∀ (s : State) (x : P8Barge), s.hub.chip.mgmtServes = true → s.hub.chip.inRecovery = false → s.hub.chip.swc.p8in = [x] →
      isMgmt x.barge = true →
    mgmtKind x.barge = 0 → s.hub.chip.mgmtWaits x.barge = false → s.hub.chip.keptFor x.barge = none → mgmtFormatOk x.barge = true →
      mgmtAttest x.barge = false →
    s.hub.chip.admits (some x.barge.hdr.src) = false →
    ∃ t, exec (.mgmtRequestRx) s = .next t ∧ coreOnly s t ∧
      t.hub.chip.get F.CFG_ADMIT_REFUSED = (s.hub.chip.get F.CFG_ADMIT_REFUSED + 1) % 2 ^ 32 ∧
      t.hub.chip.get F.CFG_INT_STATUS_ADMIT_REFUSED = 1 ∧ t.hub.chip.swc.p8in = [] ∧
      t.hub.chip.swc.p8out.length = s.hub.chip.swc.p8out.length + 1 ∧
      wordsKept [F.CFG_ADMIT_REFUSED.off, F.CFG_INT_STATUS.off] s t) ∧
  (∀ (s : State) (x : P8Barge), s.hub.chip.mgmtServes = true → s.hub.chip.swc.p8in = [x] → isMgmt x.barge = true →
    mgmtKind x.barge = 0 → s.hub.chip.mgmtWaits x.barge = false → s.hub.chip.keptFor x.barge = none → mgmtFormatOk x.barge = true →
      mgmtAttest x.barge = false →
    mgmtProxy x.barge = 0 → s.hub.chip.admits (some x.barge.hdr.src) = true → x.barge.payload.length = 8 →
    (x.barge.payload.getD 0 0).getLsbD 7 = false →
    ∃ t, exec (.mgmtRequestRx) s = .next t ∧ t.pending = s.pending ∧ t.hub.chip.swc.p8in = [] ∧
      t.hub.chip.swc.p8out.length = s.hub.chip.swc.p8out.length + 1 ∧
      t.hub.chip.get F.CFG_ADMIT_REFUSED = s.hub.chip.get F.CFG_ADMIT_REFUSED ∧ t.hub.chip.jrn = s.hub.chip.jrn) ∧
  (∀ (s : State) (x : P8Barge) (r : Proxied), s.hub.chip.mgmtServes = true → s.hub.chip.swc.p8in = [x] → overLctl x.barge = true →
      isMgmt x.barge = true →
    mgmtKind x.barge = 1 → s.hub.chip.lkp.proxied = [r] → r.port = x.inPort → mgmtTag r.request = mgmtTag x.barge →
    ∃ t, exec (.mgmtProxyResponseRx) s = .next t ∧ coreOnly s t ∧ t.hub.chip.lkp.proxied = [] ∧ t.hub.chip.swc.p8in = [] ∧
      t.hub.chip.swc.p8out.length = s.hub.chip.swc.p8out.length + 1 ∧ wordsKept [] s t) ∧
  (∀ (s : State) (r : Proxied) (rest : List Proxied), s.hub.chip.mgmtServes = true → s.hub.chip.lkp.proxied = r :: rest →
    ∃ t, exec (.mgmtProxyTimeout) s = .next t ∧ coreOnly s t ∧ t.hub.chip.lkp.proxied = rest ∧
      t.hub.chip.swc.p8out.length = s.hub.chip.swc.p8out.length + 1 ∧ wordsKept [] s t)

/-- Accesses of the access path that are no register row of their own (16 R477, R482 to R485, R488, R489, R495; 04 R126).
Rests on the model's choices of log 3, 5, 11, 22 and 29. Completes: i2c0Access, bridgeRegAccess, commitHoldExpiry,
commitDone, flashDone, counterWrap. -/
def Obligations.AccessPath : Prop :=
  (∀ (s : State) (off : BitVec 24) (v : BitVec 32), pathReady s i2cReq → s.hub.chip.tunnelSnapshot i2cReq off.toNat = none →
      privilegedWord off.toNat = false →
    ∃ t, exec (.i2c0Access false off v) s = .next t ∧ t.pending = s.pending ∧
      t.hub.chip.outbox = s.hub.chip.outbox ++ [Out.i2c (s.hub.readWord off.toNat)] ∧ t.hub.chip.jrn = s.hub.chip.jrn) ∧
  (∀ (s : State) (off : BitVec 24) (v : BitVec 32), pathReady s i2cReq → off.toNat / 0x1_0000 = 0x15 → regAt off.toNat ≠ none →
    ∃ t, exec (.i2c0Access true off v) s = .next t ∧ t.pending = s.pending ∧ carriedOut t i2cReq off.toNat ∧
      t.hub.chip.outbox = s.hub.chip.outbox) ∧
  (∀ (s : State) (off : BitVec 24) (n : Nat) (l : List Byte) (tag : BitVec 16), pathReady s (s.hub.chip.ownHost tag) →
    s.hub.chip.on F.WIN_STATUS_LINK_UP = true → off.toNat / 0x1_0000 = 0x15 → off.toNat % 4 = 0 → regAt off.toNat ≠ none →
      l.length = 4 → n = 4 →
    ∃ t, exec (.bridgeRegAccess true off n l tag) s = .next t ∧ t.pending = s.pending ∧
      carriedOut t (s.hub.chip.ownHost tag) off.toNat ∧ t.hub.chip.outbox = s.hub.chip.outbox) ∧
  (∀ (s : State) (a : PathAccess), s.hub.chip.fab.held = some a → s.hub.chip.fab.waiting = [] → a.of_ = .plain →
      commitsEntry a.off = true → a.data.length = 4 → a.req.source = 0 →
    ∃ t, exec (.commitHoldExpiry) s = .next t ∧ t.pending = s.pending ∧ t.hub.chip.fab.held = none ∧ t.hub.chip.fab.waiting = [] ∧
      ∃ e l, t.hub.chip.jrn = e :: l ∧ e.source = 0 ∧ e.addr = a.off) ∧
  (∀ (s : State) (j : CommitJob) (k : Key256), s.hub.chip.running = true → s.hub.chip.cfg.commit = some j →
      s.hub.chip.pairKey engineImage 2 = some k →
    ∃ t, exec (.commitDone true) s = .next t ∧ coreOnly s t ∧ t.hub.chip.get F.CFG_COMMIT_RESULT = 1 ∧
      t.hub.chip.get F.CFG_COMMIT_BUSY = 0 ∧ t.hub.chip.get F.CFG_INT_STATUS_COMMIT_DONE = 1 ∧
      t.hub.chip.cfg = { s.hub.chip.cfg with commit := none } ∧
      t.hub.chip.outbox = s.hub.chip.outbox ++ [Out.flash 3 (0x1_0000 * j.area) [],
      .flash 1 (0x1_0000 * j.area) (s.hub.chip.overlayBytes j k)] ∧
      (∃ e l, t.hub.chip.jrn = e :: l ∧ e.source = 6 ∧ e.addr = 3) ∧ wordsKept [F.CFG_COMMIT.off, F.CFG_INT_STATUS.off] s t) ∧
  (∀ (s : State), s.hub.chip.running = true → s.hub.chip.cfg.commit ≠ none →
    ∃ t, exec (.commitDone false) s = .next t ∧ coreOnly s t ∧ t.hub.chip.get F.CFG_COMMIT_RESULT = 4 ∧
      t.hub.chip.get F.CFG_COMMIT_BUSY = 0 ∧ t.hub.chip.cfg = { s.hub.chip.cfg with commit := none } ∧
      t.hub.chip.outbox = s.hub.chip.outbox ∧ t.hub.chip.jrn = s.hub.chip.jrn ∧ wordsKept [F.CFG_COMMIT.off] s t) ∧
  (∀ (s : State) (a : Nat) (l : List Byte), s.hub.chip.running = true → s.hub.chip.cfg.flash = some (0, a) →
    ∃ t, exec (.flashDone true l) s = .next t ∧ coreOnly s t ∧ t.hub.chip.get F.CFG_FL_CMD_BUSY = 0 ∧
      t.hub.chip.get F.CFG_FL_CMD_RESULT = 0 ∧ t.hub.chip.get F.CFG_INT_STATUS_FLASH_DONE = 1 ∧
      t.hub.chip.cfg = { s.hub.chip.cfg with flash := none } ∧ (∀ k < 64, t.hub.chip.get (F.CFG_FL_BUF k) = fieldAt l (4 * k) 4)) ∧
  (∀ (s : State) (op a : Nat) (l : List Byte), s.hub.chip.running = true → s.hub.chip.cfg.flash = some (op, a) →
    ∃ t, exec (.flashDone false l) s = .next t ∧ coreOnly s t ∧ t.hub.chip.get F.CFG_FL_CMD_BUSY = 0 ∧
      t.hub.chip.get F.CFG_FL_CMD_RESULT = 2 ∧ t.hub.chip.cfg = { s.hub.chip.cfg with flash := none } ∧
      wordsKept [F.CFG_FL_CMD.off, F.CFG_INT_STATUS.off] s t) ∧
  (∀ (s : State) (n : Fin 96), s.hub.chip.running = true → n.val < 88 → s.hub.chip.on F.CNT_CTL_FREEZE = false →
      (s.hub.chip.counter n.val).mode = 2 →
    (s.hub.chip.counter n.val).value = 2 ^ 48 - 1 → (s.hub.chip.counter n.val).sel.getLsbD 27 = false →
    ∃ t, exec (.counterWrap n) s = .next t ∧ coreOnly s t ∧ (t.hub.chip.counter n.val).value = 0 ∧ n.val ∈ t.hub.chip.cnt.ovf ∧
      wordsKept [] s t)

/-- Register writes that reset or steer the trunk ports and the Towpath (01 R23; 02 R65, R66, R75, R76, R78; 03 R109, R115,
R117, R119, R522, R523): each is recorded in the journal and acts, and GLB_CTL with a wrong CONFIRM is refused. Rests on the
model's choices of log 3, 11, 23, 70, 77, 78 and 81. Completes: warmReset, dpReset, shiftCmdGo, stepLimitWrite,
testModeWrite, trkRetrain, trkEnableWrite, testCheckerEnable, linkDisable, tpSend, tpStatusReq, tpSoftReset, tpHardReset,
tpRxRelease. -/
def Obligations.TrunkWrites : Prop :=
  (∀ (s : State) (r : Requester), pathReady s r → (r.source = 1 → s.hub.chip.inRecovery = false) →
      ∃ t, exec (.warmReset r 0x9D61) s = .next t ∧ t.pending = s.pending ∧ t.hub.chip.rst.active = some .warm ∧
      t.hub.chip.get F.GLB_RESET_CAUSE = 3) ∧
  (∀ (s : State) (r : Requester) (k : BitVec 16), pathReady s r → (r.source = 1 → s.hub.chip.inRecovery = false) → k ≠ 0x9D61 →
    ∃ t, exec (.warmReset r k) s = .next t ∧ coreOnly s t ∧ turnedDown t r F.GLB_CTL.off ∧ t.hub.chip.rst = s.hub.chip.rst ∧
      t.hub.chip.swc = s.hub.chip.swc ∧ wordsKept [] s t) ∧
  (∀ (s : State) (r : Requester), pathReady s r → (r.source = 1 → s.hub.chip.inRecovery = false) →
      ∃ t, exec (.dpReset r 0x9D61) s = .next t ∧ t.pending = s.pending ∧ t.hub.chip.swc = Swc.reset ∧ t.hub.chip.vid = Vid.reset ∧
      t.hub.chip.fab.tuns = [] ∧ t.hub.chip.rst = s.hub.chip.rst) ∧
  (∀ (s : State) (r : Requester) (p : Port) (n : BitVec 3), pathReady s r → (r.source = 1 → s.hub.chip.inRecovery = false) →
      s.hub.chip.shiftIdle p = true → s.hub.chip.on (F.TRK_STATUS_LINK_UP p) = true →
    1 ≤ n.toNat → n.toNat ≤ 5 → n.toNat ≤ s.hub.chip.stepCap p → s.hub.chip.get (F.TRK_CTL_STEP_MIN p) ≤ n.toNat →
      n.toNat < s.hub.chip.get (F.TRK_STATUS_STEP p) ∨
        s.hub.chip.get (F.TRK_STATUS_STEP p) < n.toNat ∧ s.hub.chip.upRefused p n.toNat = none →
    s.hub.chip.get (F.TRK_STATUS_STEP p) ≤ s.hub.chip.get (F.TRK_STATUS_CAP_BUDGET p) →
    ∃ t, exec (.shiftCmdGo r p n) s = .next t ∧ t.pending = s.pending ∧ carriedOut t r (F.TRK_SHIFT_CMD p).off ∧
      t.hub.chip.trk[p] = { s.hub.chip.trk[p] with own := some { phase := .decided, target := n.toNat, start := s.hub.chip.get (F.TRK_STATUS_STEP p), cause := 1, spanN := 0, spanM := 0, txDone := false, rxDone := false, failed := false } }) ∧
  (∀ (s : State) (r : Requester) (p : Port), pathReady s r → (r.source = 1 → s.hub.chip.inRecovery = false) →
    ∃ t, exec (.shiftCmdGo r p 0) s = .next t ∧ t.pending = s.pending ∧ carriedOut t r (F.TRK_SHIFT_CMD p).off ∧
      t.hub.chip.get (F.TRK_SHIFT_STATUS_LAST_RESULT p) = 4 ∧
      t.hub.chip.get (F.TRK_INT_STATUS_SHIFT_FAIL p) = 1 ∧ t.hub.chip.trk = s.hub.chip.trk) ∧
  (∀ (s : State) (r : Requester) (p : Port) (w : Word), pathReady s r → (r.source = 1 → s.hub.chip.inRecovery = false) →
      s.hub.chip.on (F.TRK_CTL_EN p) = false → s.hub.chip.on (F.TRK_CTL_TEST_MODE p) = false →
    s.hub.chip.get (F.TRK_STATUS_STEP p) = 0 → s.hub.chip.on (F.TRK_STATUS_LINK_UP p) = false → w.getLsbD 0 = false →
      w.getLsbD 11 = false →
    1 ≤ wordField w 1 3 → wordField w 1 3 ≤ 5 → 1 ≤ wordField w 4 3 → wordField w 4 3 ≤ 5 →
    ∃ t, exec (.stepLimitWrite r p w) s = .next t ∧ t.pending = s.pending ∧ carriedOut t r (F.TRK_CTL p).off ∧
      t.hub.chip.get (F.TRK_CTL_STEP_MAX p) = wordField w 1 3 ∧
      t.hub.chip.get (F.TRK_CTL_STEP_MIN p) = wordField w 4 3) ∧
  (∀ (s : State) (r : Requester) (p : Port), pathReady s r → (r.source = 1 → s.hub.chip.inRecovery = false) →
      s.hub.chip.on (F.TRK_CTL_TEST_MODE p) = false →
    ∃ t, exec (.testModeWrite r p true) s = .next t ∧ t.pending = s.pending ∧ carriedOut t r (F.TRK_CTL p).off ∧
      t.hub.chip.get (F.TRK_CTL_TEST_MODE p) = 1 ∧
      t.hub.chip.get (F.TRK_STATUS_PHASE p) = phaseOff ∧ t.hub.chip.trk[p].training = false) ∧
  (∀ (s : State) (r : Requester) (p : Port), pathReady s r → (r.source = 1 → s.hub.chip.inRecovery = false) →
      s.hub.chip.on (F.TRK_CTL_EN p) = true → s.hub.chip.on (F.TRK_CTL_TEST_MODE p) = false →
    s.hub.chip.on (F.TRK_STATUS_LINK_UP p) = false →
    ∃ t, exec (.trkRetrain r p) s = .next t ∧ t.pending = s.pending ∧ carriedOut t r (F.TRK_CTL p).off ∧
      t.hub.chip.get (F.TRK_STATUS_PHASE p) = phaseEcho ∧ t.hub.chip.trk[p].training = true ∧
      t.hub.chip.outbox = s.hub.chip.outbox ++ [Out.prbs p false]) ∧
  (∀ (s : State) (r : Requester) (p : Port) (a b : Bool), pathReady s r → (r.source = 1 → s.hub.chip.inRecovery = false) →
      s.hub.chip.on (F.TRK_CTL_EN p) = false → s.hub.chip.on (F.TRK_CTL_TEST_MODE p) = false →
    ∃ t, exec (.trkEnableWrite r p true a b) s = .next t ∧ t.pending = s.pending ∧ carriedOut t r (F.TRK_CTL p).off ∧
      t.hub.chip.get (F.TRK_CTL_EN p) = 1 ∧
      t.hub.chip.get (F.TRK_CTL_LANE_A_OFF p) = a.toNat ∧ t.hub.chip.get (F.TRK_STATUS_PHASE p) = phaseEcho ∧
      t.hub.chip.outbox = s.hub.chip.outbox ++ [Out.prbs p false]) ∧
  (∀ (s : State) (r : Requester) (p : Port) (w : Word), pathReady s r → (r.source = 1 → s.hub.chip.inRecovery = false) →
      s.hub.chip.on (F.TRK_CTL_TEST_MODE p) = true → s.hub.chip.on (F.TRK_TEST_CTL_CHK_EN p) = false → w.getLsbD 4 = true →
    ∃ t, exec (.testCheckerEnable r p w) s = .next t ∧ t.pending = s.pending ∧ carriedOut t r (F.TRK_TEST_CTL p).off ∧
      t.hub.chip.get (F.TRK_TEST_CTL p) = w.toNat % 2 ^ 11 ∧
      t.hub.chip.get (F.TRK_TEST_ERR p) = 0 ∧ t.hub.chip.pcs[p].chk = []) ∧
  (∀ (s : State) (r : Requester) (p : Port) (w : Word), pathReady s r → (r.source = 1 → s.hub.chip.inRecovery = false) →
      s.hub.chip.on (F.TRK_CTL_TEST_MODE p) = false →
    ∃ t, exec (.testCheckerEnable r p w) s = .next t ∧ t.pending = s.pending ∧ carriedOut t r (F.TRK_TEST_CTL p).off ∧
      t.hub.chip.get (F.TRK_TEST_CTL p) = w.toNat % 2 ^ 11 ∧ t.hub.chip.pcs = s.hub.chip.pcs ∧ t.hub.chip.outbox = s.hub.chip.outbox) ∧
  (∀ (s : State) (r : Requester) (p : Port), pathReady s r → (r.source = 1 → s.hub.chip.inRecovery = false) →
      s.hub.chip.on (F.LNK_CTL_EN p) = true → s.hub.chip.on (F.TRK_STATUS_LINK_UP p) = true →
    ∃ t, exec (.linkDisable r p) s = .next t ∧ t.pending = s.pending ∧ carriedOut t r (F.LNK_CTL p).off ∧
      t.hub.chip.get (F.LNK_CTL_EN p) = 0 ∧ t.hub.chip.get (F.TRK_STATUS_LINK_UP p) = 0 ∧
      t.hub.chip.get (F.TRK_STATUS_PHASE p) = s.hub.chip.get (F.TRK_STATUS_PHASE p)) ∧
  (∀ (s : State) (r : Requester) (p : Port), pathReady s r → (r.source = 1 → s.hub.chip.inRecovery = false) →
      s.hub.chip.tpAlive p = true → tpLen (s.hub.chip.regs.word (F.LNK_TP_TXHDR p).off) ≤ 64 →
    tpRsp (s.hub.chip.regs.word (F.LNK_TP_TXHDR p).off) = false →
    ∃ t, exec (.tpSend r p) s = .next t ∧ t.pending = s.pending ∧ carriedOut t r (F.LNK_TP_CMD p).off ∧
      t.hub.chip.tp[p].requests.length = s.hub.chip.tp[p].requests.length + 1 ∧
      t.hub.chip.tp[p].txq = s.hub.chip.tp[p].txq ++ [{
        hdr := tpWithSeq (s.hub.chip.regs.word (F.LNK_TP_TXHDR p).off) s.hub.chip.tp[p].nextSeq
        payload := ((List.range 16).flatMap fun k => beBytes 4 (s.hub.chip.get (F.LNK_TP_TXBUF p k))).take
          (tpLen (s.hub.chip.regs.word (F.LNK_TP_TXHDR p).off)) }] ∧
      t.hub.chip.tp[p].nextSeq = (s.hub.chip.tp[p].nextSeq + 1) % 256 ∧
      t.hub.chip.get (F.LNK_TP_RESULT_SEQ p) = s.hub.chip.tp[p].nextSeq % 256 ∧ t.hub.chip.get (F.LNK_TP_RESULT_RESULT p) = 0) ∧
  (∀ (s : State) (r : Requester) (p : Port), pathReady s r → (r.source = 1 → s.hub.chip.inRecovery = false) →
      s.hub.chip.tpAlive p = true →
    ∃ t, exec (.tpStatusReq r p) s = .next t ∧ t.pending = s.pending ∧ carriedOut t r (F.LNK_TP_CMD p).off ∧
      t.hub.chip.tp[p].requests.length = s.hub.chip.tp[p].requests.length + 1 ∧
      t.hub.chip.tp[p].txq.length = s.hub.chip.tp[p].txq.length + 1 ∧
      t.hub.chip.get (F.LNK_TP_RESULT_SEQ p) = s.hub.chip.tp[p].nextSeq % 256) ∧
  (∀ (s : State) (r : Requester) (p : Port) (b : Bool), pathReady s r → (r.source = 1 → s.hub.chip.inRecovery = false) →
      s.hub.chip.tpAlive p = true →
    ∃ t, exec (.tpSoftReset r p b) s = .next t ∧ t.pending = s.pending ∧ carriedOut t r (F.LNK_TP_CMD p).off ∧
      t.hub.chip.tp[p].requests.length = s.hub.chip.tp[p].requests.length + 1 ∧
      t.hub.chip.tp[p].txq = s.hub.chip.tp[p].txq ++ [{ hdr := tpHeader 0xA s.hub.chip.tp[p].nextSeq 1 false false false, payload := [BitVec.ofNat 8 b.toNat] }]) ∧
  (∀ (s : State) (r : Requester) (p : Port), pathReady s r → (r.source = 1 → s.hub.chip.inRecovery = false) →
      s.hub.chip.tpAlive p = true →
    ∃ t, exec (.tpHardReset r p) s = .next t ∧ t.pending = s.pending ∧ carriedOut t r (F.LNK_TP_CMD p).off ∧
      t.hub.chip.tp[p].requests = [] ∧ t.hub.chip.outbox = s.hub.chip.outbox ++ [Out.hardBreak p]) ∧
  (∀ (s : State) (r : Requester) (p : Port), pathReady s r → (r.source = 1 → s.hub.chip.inRecovery = false) →
      s.hub.chip.tpAlive p = true →
    ∃ t, exec (.tpRxRelease r p) s = .next t ∧ t.pending = s.pending ∧ carriedOut t r (F.LNK_TP_CMD p).off ∧
      t.hub.chip.tp[p] = { s.hub.chip.tp[p] with mailboxFull := false } ∧ t.hub.chip.outbox = s.hub.chip.outbox)

/-- Register writes to the tables, the switch core and the scheduler (04 R125, R127; 05 R164, R167; 06 R205, R208, R223): a
commit takes the entry and advances GEN where it changes, and each rule's refusal refuses the write whole. Rests on the
model's choices of log 11, 24 and 29. Completes: routeEntryCommit, tunnelMapCommit, groupEntryCommit, basinReserveWrite,
peakClr, weirCommit, takeoverArm, takeoverDisarm, schQSelWrite. -/
def Obligations.TableWrites : Prop :=
  (∀ (s : State) (r : Requester) (d : BitVec 10) (v : BitVec 32), pathReady s r → (r.source = 1 → s.hub.chip.inRecovery = false) →
      s.hub.chip.tooSoon (F.FAB_ROUTE0 d.toNat).off = true →
    ∃ t, exec (.routeEntryCommit r d v) s = .next t ∧ coreOnly s t ∧ t.hub.chip.jrn = s.hub.chip.jrn ∧
      (∃ a, t.hub.chip.fab.held = some a ∧ a.req = r ∧ a.off = (F.FAB_ROUTE0 d.toNat).off ∧ a.data = leBytes v ∧ a.of_ = .plain) ∧
      wordsKept [] s t) ∧
  (∀ (s : State) (r : Requester) (d : BitVec 10) (v : BitVec 32), pathReady s r → (r.source = 1 → s.hub.chip.inRecovery = false) →
      s.hub.chip.tooSoon (F.FAB_ROUTE0 d.toNat).off = false →
    s.hub.chip.merged (F.FAB_ROUTE0 d.toNat).off v ≠ s.hub.chip.regs.word (F.FAB_ROUTE0 d.toNat).off →
    ∃ t, exec (.routeEntryCommit r d v) s = .next t ∧ t.pending = s.pending ∧ carriedOut t r (F.FAB_ROUTE0 d.toNat).off ∧
      t.hub.chip.regs.word (F.FAB_ROUTE0 d.toNat).off = s.hub.chip.merged (F.FAB_ROUTE0 d.toNat).off v ∧
      t.hub.chip.get (F.FAB_ROUTE1_GEN d.toNat) = (s.hub.chip.get (F.FAB_ROUTE1_GEN d.toNat) + 1) % 16) ∧
  (∀ (s : State) (r : Requester) (n : BitVec 12) (v : BitVec 32), pathReady s r → (r.source = 1 → s.hub.chip.inRecovery = false) →
      s.hub.chip.cfg.staged = [] → s.hub.chip.tooSoon (F.FAB_TUN1 n.toNat).off = false →
    wordField v 0 12 ≠ s.hub.chip.get (F.FAB_TUN1_PEER_TUNNEL n.toNat) →
    ∃ t, exec (.tunnelMapCommit r n v) s = .next t ∧ t.pending = s.pending ∧ carriedOut t r (F.FAB_TUN1 n.toNat).off ∧
      t.hub.chip.get (F.FAB_TUN1_PEER_TUNNEL n.toNat) = wordField v 0 12 ∧
      t.hub.chip.get (F.FAB_TUN1_QUEUE n.toNat) = wordField v 12 6 ∧ t.hub.chip.get (F.FAB_TUN1_MODE n.toNat) = wordField v 20 2 ∧
      t.hub.chip.get (F.FAB_TUN1_GEN n.toNat) = (s.hub.chip.get (F.FAB_TUN1_GEN n.toNat) + 1) % 16) ∧
  (∀ (s : State) (r : Requester) (g : Byte) (v : BitVec 32), pathReady s r → (r.source = 1 → s.hub.chip.inRecovery = false) →
      g ≠ 255 → s.hub.chip.tooSoon (F.FAB_GROUP g.toNat).off = false →
    wordField v 1 10 ≠ s.hub.chip.get (F.FAB_GROUP_PORTS g.toNat) →
    ∃ t, exec (.groupEntryCommit r g v) s = .next t ∧ t.pending = s.pending ∧ carriedOut t r (F.FAB_GROUP g.toNat).off ∧
      t.hub.chip.get (F.FAB_GROUP_PORTS g.toNat) = wordField v 1 10 ∧
      t.hub.chip.get (F.FAB_GROUP_VALID g.toNat) = wordField v 0 1 ∧
      t.hub.chip.get (F.FAB_GROUP_GEN g.toNat) = (s.hub.chip.get (F.FAB_GROUP_GEN g.toNat) + 1) % 16) ∧
  (∀ (s : State) (r : Requester) (v : BitVec 32), pathReady s r → (r.source = 1 → s.hub.chip.inRecovery = false) →
    ∃ t, exec (.groupEntryCommit r 255 v) s = .next t ∧ coreOnly s t ∧ turnedDown t r (F.FAB_GROUP 255).off ∧ wordsKept [] s t) ∧
  (∀ (s : State) (r : Requester) (i : Fin 10) (v : BitVec 32), pathReady s r → (r.source = 1 → s.hub.chip.inRecovery = false) →
      s.hub.chip.reserveRefused i.val v = false →
    ∃ t, exec (.basinReserveWrite r i v) s = .next t ∧ t.pending = s.pending ∧ carriedOut t r (F.SWC_BASIN i).off ∧
      t.hub.chip.get (F.SWC_BASIN_RESERVE i) = wordField v 0 15 ∧
      t.hub.chip.get (F.SWC_BASIN_RETAIN_MAX i) = wordField v 16 15) ∧
  (∀ (s : State) (r : Requester) (i : Fin 10) (v : BitVec 32), pathReady s r → (r.source = 1 → s.hub.chip.inRecovery = false) →
      s.hub.chip.reserveRefused i.val v = true →
    ∃ t, exec (.basinReserveWrite r i v) s = .next t ∧ coreOnly s t ∧ turnedDown t r (F.SWC_BASIN i).off ∧
      t.hub.chip.get F.SWC_INT_STATUS_PARTITION_REFUSED = 1 ∧
      wordsKept [F.SWC_INT_STATUS.off] s t) ∧
  (∀ (s : State) (r : Requester), pathReady s r → (r.source = 1 → s.hub.chip.inRecovery = false) →
    ∃ t, exec (.peakClr r) s = .next t ∧ t.pending = s.pending ∧ carriedOut t r F.SWC_CTL.off ∧
      ∀ i : Fin 10, t.hub.chip.get (F.SWC_OCC_PEAK i) = s.hub.chip.get (F.SWC_OCC_IN_USE i)) ∧
  (∀ (s : State) (r : Requester) (n : BitVec 9) (v : BitVec 32), pathReady s r → (r.source = 1 → s.hub.chip.inRecovery = false) →
      s.hub.chip.cfg.staged = [] →
    ∃ t, exec (.weirCommit r n v) s = .next t ∧ t.pending = s.pending ∧ carriedOut t r (F.SCH_WEIR0 n.toNat).off ∧
      t.hub.chip.get (F.SCH_WEIR0_CIR n.toNat) = wordField v 0 20 ∧
      t.hub.chip.get (F.SCH_WEIR0_EN n.toNat) = wordField v 20 1 ∧
      (t.hub.chip.sch.weirs.find? fun x => x.1 == n.toNat) =
        some (n.toNat, ⟨s.hub.chip.weirCbs n.toNat * creditUnit, s.hub.chip.now⟩, ⟨s.hub.chip.weirPbs n.toNat * creditUnit,
        s.hub.chip.now⟩)) ∧
  (∀ (s : State) (r : Requester) (i : Fin 10) (n : BitVec 20), pathReady s r → (r.source = 1 → s.hub.chip.inRecovery = false) →
      s.hub.chip.on (F.SCH_P_TAKE_CTL_ARMED i) = false →
    10_000 ≤ timeDiff (((s.hub.chip.put (F.SCH_P_TAKE_CTL_SUBNS i) n.toNat).takeTime i.val : Int) - s.hub.chip.fabricTime) →
    ∃ t, exec (.takeoverArm r i n) s = .next t ∧ t.pending = s.pending ∧ carriedOut t r (F.SCH_P_TAKE_CTL i).off ∧
      t.hub.chip.get (F.SCH_P_TAKE_CTL_ARMED i) = 1 ∧
      t.hub.chip.get (F.SCH_P_TAKE_CTL_SUBNS i) = n.toNat) ∧
  (∀ (s : State) (r : Requester) (i : Fin 10) (n : BitVec 20), pathReady s r → (r.source = 1 → s.hub.chip.inRecovery = false) →
      s.hub.chip.on (F.SCH_P_TAKE_CTL_ARMED i) = true →
    ∃ t, exec (.takeoverArm r i n) s = .next t ∧ coreOnly s t ∧ turnedDown t r (F.SCH_P_TAKE_CTL i).off ∧
      t.hub.chip.get F.SCH_INT_STATUS_BANK_WRITE_REFUSED = 1 ∧
      wordsKept [F.SCH_INT_STATUS.off] s t) ∧
  (∀ (s : State) (r : Requester) (i : Fin 10) (n : BitVec 20), pathReady s r → (r.source = 1 → s.hub.chip.inRecovery = false) →
    ∃ t, exec (.takeoverDisarm r i n) s = .next t ∧ t.pending = s.pending ∧ carriedOut t r (F.SCH_P_TAKE_CTL i).off ∧
      t.hub.chip.get (F.SCH_P_TAKE_CTL_ARMED i) = 0 ∧
      t.hub.chip.get (F.SCH_P_TAKE_CTL_SUBNS i) = n.toNat) ∧
  (∀ (s : State) (r : Requester) (v : BitVec 32), pathReady s r → (r.source = 1 → s.hub.chip.inRecovery = false) →
    ∃ t, exec (.schQSelWrite r v) s = .next t ∧ t.pending = s.pending ∧ carriedOut t r F.SCH_Q_SEL.off ∧
      t.hub.chip.get F.SCH_Q_SEL_PORT = wordField v 0 4 ∧
      t.hub.chip.get F.SCH_Q_SEL_QUEUE = wordField v 4 6 ∧
      t.hub.chip.sch.snap = s.hub.chip.queueSnapshot (wordField v 0 4) (wordField v 4 6))

/-- Register writes to the adapters (07 R256; 08 R263, R266, R278, R281, R282, R288; 09 R301, R302, R305, R309; 10 R336).
Rests on the model's choices of log 3, 11 and 28. Completes: portMapWrite, lockCtlReq, lockCtlRelease, lockCtlReleaseAll,
rangeCommit, rpRetrain, dmaTailWrite, dmaRingConfigWrite, dsiCmdSend, ethLearnCommit, ethVlanCommit, mdioGo,
signalEntryCommit. -/
def Obligations.AdapterWrites : Prop :=
  (∀ (s : State) (r : Requester) (i : Byte) (v : BitVec 32), pathReady s r → (r.source = 1 → s.hub.chip.inRecovery = false) →
      s.hub.chip.headEnd = true → s.hub.chip.cfg.staged = [] → i.toNat < 240 →
    s.hub.chip.mapOverfull i.toNat v = false →
    ∃ t, exec (.portMapWrite r i v) s = .next t ∧ t.pending = s.pending ∧ carriedOut t r (F.USB_MAP0 i.toNat).off ∧
      t.hub.chip.get (F.USB_MAP0_VALID i.toNat) = wordField v 0 1 ∧
      t.hub.chip.get (F.USB_MAP0_HUB i.toNat) = wordField v 1 10) ∧
  (∀ (s : State) (r : Requester) (i : Byte) (v : BitVec 32), pathReady s r → (r.source = 1 → s.hub.chip.inRecovery = false) →
      s.hub.chip.headEnd = true → i.toNat < 240 → s.hub.chip.mapOverfull i.toNat v = true →
    ∃ t, exec (.portMapWrite r i v) s = .next t ∧ coreOnly s t ∧ turnedDown t r (F.USB_MAP0 i.toNat).off ∧
      t.hub.chip.get F.USB_INT_STATUS_MAP_REFUSED = 1 ∧ t.hub.chip.usb = s.hub.chip.usb ∧
      wordsKept [F.USB_INT_STATUS.off] s t) ∧
  (∀ (s : State) (r : Requester) (hub : BitVec 10) (sp : BitVec 2) (n : Nat), pathReady s r → (r.source = 1 →
      s.hub.chip.inRecovery = false) → s.hub.chip.ownId = some hub.toNat → sp.toNat < 2 →
    s.hub.chip.on F.WIN_LOCK_STATUS_L_HELD = false → s.hub.chip.lockRange hub.toNat sp.toNat = some n →
      s.hub.chip.lockHolder sp.toNat = none →
    ∃ t, exec (.lockCtlReq r hub sp) s = .next t ∧ t.pending = s.pending ∧ carriedOut t r F.WIN_LOCK_CTL.off ∧
      t.hub.chip.get F.WIN_LOCK_STATUS_L_HELD = 1 ∧
      t.hub.chip.get F.WIN_LOCK_STATUS_L_SPACE = sp.toNat ∧ t.hub.chip.get F.WIN_LOCK_STATUS_RESULT = 2 ∧
      t.hub.chip.lockHolder sp.toNat = some hub.toNat) ∧
  (∀ (s : State) (r : Requester) (hub : BitVec 10) (sp : BitVec 2), pathReady s r → (r.source = 1 →
      s.hub.chip.inRecovery = false) → 2 ≤ sp.toNat → s.hub.chip.on F.WIN_LOCK_STATUS_L_HELD = false →
    s.hub.chip.on F.WIN_LOCK_STATUS_R_HELD = false → s.hub.chip.win.want = none →
    ∃ t, exec (.lockCtlReq r hub sp) s = .next t ∧ t.pending = s.pending ∧ carriedOut t r F.WIN_LOCK_CTL.off ∧
      t.hub.chip.get F.WIN_LOCK_STATUS_RESULT = 6 ∧ t.hub.chip.win = s.hub.chip.win) ∧
  (∀ (s : State) (r : Requester) (hub : BitVec 10) (sp : BitVec 2), pathReady s r → (r.source = 1 →
      s.hub.chip.inRecovery = false) → s.hub.chip.ownId = some hub.toNat → s.hub.chip.on F.WIN_LOCK_STATUS_L_HELD = true →
    s.hub.chip.get F.WIN_LOCK_STATUS_L_SPACE = sp.toNat → s.hub.chip.on F.WIN_LOCK_STATUS_R_HELD = false →
      s.hub.chip.win.want = none →
    ∃ t, exec (.lockCtlRelease r hub sp) s = .next t ∧ t.pending = s.pending ∧ carriedOut t r F.WIN_LOCK_CTL.off ∧
      t.hub.chip.get F.WIN_LOCK_STATUS_L_HELD = 0 ∧
      t.hub.chip.get F.WIN_LOCK_STATUS_RESULT = 0 ∧ t.hub.chip.lockHolder sp.toNat = none) ∧
  (∀ (s : State) (r : Requester) (hub : Nat), pathReady s r → (r.source = 1 → s.hub.chip.inRecovery = false) →
      s.hub.chip.ownId = some hub → s.hub.chip.on F.WIN_LOCK_STATUS_L_HELD = true →
    s.hub.chip.on F.WIN_LOCK_STATUS_R_HELD = false → s.hub.chip.win.want = none →
    ∃ t, exec (.lockCtlReleaseAll r) s = .next t ∧ t.pending = s.pending ∧ carriedOut t r F.WIN_LOCK_CTL.off ∧
      t.hub.chip.get F.WIN_LOCK_STATUS_L_HELD = 0 ∧
      t.hub.chip.lockHolder (s.hub.chip.get F.WIN_LOCK_STATUS_L_SPACE) = none) ∧
  (∀ (s : State) (r : Requester) (n : Fin 16) (v : BitVec 32), pathReady s r → (r.source = 1 → s.hub.chip.inRecovery = false) →
      s.hub.chip.cfg.staged = [] →
    ∃ t, exec (.rangeCommit r n v) s = .next t ∧ t.pending = s.pending ∧ carriedOut t r (F.WIN_RNG0 n).off ∧
      t.hub.chip.get (F.WIN_RNG0_VALID n) = wordField v 0 1 ∧
      t.hub.chip.get (F.WIN_RNG0_TUNNEL n) = wordField v 10 12 ∧ t.hub.chip.get (F.WIN_RNG0_FAILED n) = 0) ∧
  (∀ (s : State) (r : Requester), pathReady s r → (r.source = 1 → s.hub.chip.inRecovery = false) → s.hub.chip.headEnd = false →
    ∃ t, exec (.rpRetrain r) s = .next t ∧ t.pending = s.pending ∧ carriedOut t r F.WIN_RP_CTL.off ∧
      t.hub.chip.outbox = s.hub.chip.outbox ++ [Out.pcie .retrain]) ∧
  (∀ (s : State) (r : Requester) (n : Fin 64) (v : BitVec 16), pathReady s r → (r.source = 1 → s.hub.chip.inRecovery = false) →
      s.hub.chip.headEnd = true →
    ∃ t, exec (.dmaTailWrite r n v) s = .next t ∧ t.pending = s.pending ∧ carriedOut t r (F.WIN_DMA4 n).off ∧
      t.hub.chip.get (F.WIN_DMA4_TAIL n) = v.toNat ∧
      t.hub.chip.get (F.WIN_DMA3_HEAD n) = s.hub.chip.get (F.WIN_DMA3_HEAD n)) ∧
  (∀ (s : State) (r : Requester) (n : Fin 64) (v : BitVec 32), pathReady s r → (r.source = 1 → s.hub.chip.inRecovery = false) →
      s.hub.chip.headEnd = true → s.hub.chip.on (F.WIN_DMA2_EN n) = false →
    ∃ t, exec (.dmaRingConfigWrite r n 2 v) s = .next t ∧ t.pending = s.pending ∧ carriedOut t r (F.WIN_DMA2 n).off ∧
      t.hub.chip.get (F.WIN_DMA2_EN n) = wordField v 0 1 ∧
      t.hub.chip.get (F.WIN_DMA2_SIZE_LOG2 n) = wordField v 2 5) ∧
  (∀ (s : State) (r : Requester) (n : Fin 64) (v : BitVec 32), pathReady s r → (r.source = 1 → s.hub.chip.inRecovery = false) →
      s.hub.chip.headEnd = true → s.hub.chip.on (F.WIN_DMA2_EN n) = true →
    wordField v 2 5 ≠ s.hub.chip.get (F.WIN_DMA2_SIZE_LOG2 n) →
    ∃ t, exec (.dmaRingConfigWrite r n 2 v) s = .next t ∧ coreOnly s t ∧ turnedDown t r (F.WIN_DMA2 n).off ∧
      t.hub.chip.win = s.hub.chip.win ∧ wordsKept [] s t) ∧
  (∀ (s : State) (r : Requester) (v : BitVec 32), pathReady s r → (r.source = 1 → s.hub.chip.inRecovery = false) →
      s.hub.chip.on F.VID_DSI_CMD_BUSY = false →
    ∃ t, exec (.dsiCmdSend r v) s = .next t ∧ t.pending = s.pending ∧ carriedOut t r F.VID_DSI_CMD.off ∧
      t.hub.chip.get F.VID_DSI_CMD_BUSY = 1 ∧ t.hub.chip.get F.VID_DSI_CMD_DT = wordField v 0 6 ∧
      t.hub.chip.get F.VID_DSI_CMD_LEN = wordField v 8 7) ∧
  (∀ (s : State) (r : Requester) (v : BitVec 32), pathReady s r → (r.source = 1 → s.hub.chip.inRecovery = false) →
      s.hub.chip.on F.VID_DSI_CMD_BUSY = true →
    ∃ t, exec (.dsiCmdSend r v) s = .next t ∧ coreOnly s t ∧ turnedDown t r F.VID_DSI_CMD.off ∧ wordsKept [] s t) ∧
  (∀ (s : State) (r : Requester) (i : BitVec 10) (v : BitVec 32), pathReady s r → (r.source = 1 → s.hub.chip.inRecovery = false) →
      s.hub.chip.cfg.staged = [] →
    ∃ t, exec (.ethLearnCommit r i v) s = .next t ∧ t.pending = s.pending ∧ carriedOut t r (F.ETH_LRN1 i.toNat).off ∧
      t.hub.chip.get (F.ETH_LRN1_VALID i.toNat) = wordField v 22 1 ∧
      t.hub.chip.get (F.ETH_LRN1_MAC_HI i.toNat) = wordField v 0 16 ∧
      t.hub.chip.get (F.ETH_LRN0 i.toNat) = s.hub.chip.get (F.ETH_LRN0 i.toNat)) ∧
  (∀ (s : State) (r : Requester) (n : Fin 64) (v : BitVec 32), pathReady s r → (r.source = 1 → s.hub.chip.inRecovery = false) →
      s.hub.chip.cfg.staged = [] →
    ∃ t, exec (.ethVlanCommit r n v) s = .next t ∧ t.pending = s.pending ∧ carriedOut t r (F.ETH_VLAN0 n).off ∧
      t.hub.chip.get (F.ETH_VLAN0_VALID n) = wordField v 0 1 ∧
      t.hub.chip.get (F.ETH_VLAN0_VID n) = wordField v 1 12 ∧ t.hub.chip.get (F.ETH_VLAN0_MEMBER n) = wordField v 13 3) ∧
  (∀ (s : State) (r : Requester) (v : BitVec 32), pathReady s r → (r.source = 1 → s.hub.chip.inRecovery = false) →
      s.hub.chip.on F.ETH_MDIO_CMD_BUSY = false → wordField v 10 3 ≤ 4 →
    ∃ t, exec (.mdioGo r v) s = .next t ∧ t.pending = s.pending ∧ carriedOut t r F.ETH_MDIO_CMD.off ∧
      t.hub.chip.get F.ETH_MDIO_CMD_BUSY = 1 ∧
      t.hub.chip.outbox = s.hub.chip.outbox ++ [Out.mdio (wordField v 10 3) (wordField v 0 5) (wordField v 5 5) (s.hub.chip.get F.ETH_MDIO_DATA_DATA)]) ∧
  (∀ (s : State) (r : Requester) (i : BitVec 10) (v : BitVec 32), pathReady s r → (r.source = 1 → s.hub.chip.inRecovery = false) →
      s.hub.chip.cfg.staged = [] → s.hub.chip.on (F.FLD_SIG0_VALID i.toNat) = false →
    v.getLsbD 0 = true → v.getLsbD 1 = false →
    ∃ t, exec (.signalEntryCommit r i v) s = .next t ∧ t.pending = s.pending ∧ carriedOut t r (F.FLD_SIG0 i.toNat).off ∧
      t.hub.chip.get (F.FLD_SIG0_VALID i.toNat) = 1 ∧
      t.hub.chip.get (F.FLD_SIG0_SOURCE i.toNat) = wordField v 2 4 ∧ t.hub.chip.get (F.FLD_SST1_QUALITY i.toNat) = 2 ∧
      t.hub.chip.get (F.FLD_SST1_CNT i.toNat) = 0 ∧ t.hub.chip.get (F.FLD_SST0 i.toNat) = 0)

/-- Register writes to the HV die (11 R339, R343, R347, R372, R373; 12 R376, R385, R395), from every requester: commands
act, ON at a channel in fault and writes in the lockout are refused. Rests on the model's choices of log 11 and 23.
Completes: tpwProbeCmd, tpwGoOpen, tpwGoSource, tpwGoSink, tpwClearLatch, prefPortWrite, tpwConfigWrite, loadCmdOn,
loadCmdOff, loadCmdClearLatch, loadConfigWrite. -/
def Obligations.PowerWrites : Prop :=
  (∀ (s : State) (r : Requester) (p : Port), pathReady s r → (r.source = 1 → s.hub.chip.inRecovery = false) →
      s.hub.hv.lockout = false → s.hub.hv.pstate p = psOpen → s.hub.hv.tpw[p].sw.v < 2000 →
    ∃ t, exec (.tpwProbeCmd r p) s = .next t ∧ t.pending = s.pending ∧ carriedOut t r (F.TPW_P_CMD p).off ∧
      t.hub.hv.pstate p = (if s.hub.hv.defaultRole p = 5 then psOpen else psProbe)) ∧
  (∀ (s : State) (r : Requester) (p : Port), pathReady s r → (r.source = 1 → s.hub.chip.inRecovery = false) →
      s.hub.hv.lockout = false →
    ∃ t, exec (.tpwGoOpen r p) s = .next t ∧ t.pending = s.pending ∧ carriedOut t r (F.TPW_P_CMD p).off ∧
      t.hub.hv.pstate p = psOpen ∧ t.hub.hv.tpw[p].heldOpen = true) ∧
  (∀ (s : State) (r : Requester) (p : Port), pathReady s r → (r.source = 1 → s.hub.chip.inRecovery = false) →
      s.hub.hv.lockout = true →
    ∃ t, exec (.tpwGoOpen r p) s = .next t ∧ t.pending = s.pending ∧ turnedDown t r (F.TPW_P_CMD p).off ∧ hvWordsKept [] s t ∧
      wordsKept [] s t) ∧
  (∀ (s : State) (r : Requester) (p : Port), pathReady s r → (r.source = 1 → s.hub.chip.inRecovery = false) →
      s.hub.hv.lockout = false → s.hub.hv.pstate p = psOpen → s.hub.hv.fed p = true → maySource (s.hub.hv.defaultRole p) = true →
    ∃ t, exec (.tpwGoSource r p) s = .next t ∧ t.pending = s.pending ∧ carriedOut t r (F.TPW_P_CMD p).off ∧
      t.hub.hv.pstate p = psRamp ∧ t.hub.hv.tpw[p].heldOpen = false) ∧
  (∀ (s : State) (r : Requester) (p : Port), pathReady s r → (r.source = 1 → s.hub.chip.inRecovery = false) →
      s.hub.hv.lockout = false → s.hub.hv.pstate p = psOpen → maySink (s.hub.hv.defaultRole p) = true →
    ∃ t, exec (.tpwGoSink r p) s = .next t ∧ t.pending = s.pending ∧ carriedOut t r (F.TPW_P_CMD p).off ∧
      t.hub.hv.pstate p = psSink ∧ t.hub.hv.tpw[p].heldOpen = false) ∧
  (∀ (s : State) (r : Requester) (p : Port), pathReady s r → (r.source = 1 → s.hub.chip.inRecovery = false) →
      s.hub.hv.lockout = false → s.hub.hv.pstate p = psLatched →
    ∃ t, exec (.tpwClearLatch r p) s = .next t ∧ t.pending = s.pending ∧ carriedOut t r (F.TPW_P_CMD p).off ∧
      t.hub.hv.pstate p = psOpen) ∧
  (∀ (s : State) (r : Requester) (v : BitVec 32), pathReady s r → (r.source = 1 → s.hub.chip.inRecovery = false) →
      s.hub.hv.lockout = false → wordField v 0 2 ≠ s.hub.hv.get F.TPW_RAIL_CFG_PREF_PORT →
    ∃ t, exec (.prefPortWrite r v) s = .next t ∧ t.pending = s.pending ∧ carriedOut t r F.TPW_RAIL_CFG.off ∧
      t.hub.hv.get F.TPW_RAIL_CFG_PREF_PORT = wordField v 0 2 ∧
      t.hub.hv.prefFrom = s.hub.chip.now + 200_000) ∧
  (∀ (s : State) (r : Requester) (p : Port) (off : BitVec 24) (v : BitVec 32), pathReady s r → (r.source = 1 →
      s.hub.chip.inRecovery = false) → s.hub.hv.lockout = false → off.toNat = (F.TPW_P_LIMIT p).off →
    ∃ t, exec (.tpwConfigWrite r off v) s = .next t ∧ t.pending = s.pending ∧ carriedOut t r off.toNat ∧
      t.hub.hv.get (F.TPW_P_LIMIT_ILIM p) = wordField v 0 14 ∧
      t.hub.hv.get (F.TPW_P_LIMIT_V_FRS p) = wordField v 22 8 ∧ t.hub.hv.tpw = s.hub.hv.tpw) ∧
  (∀ (s : State) (r : Requester) (y : Chan), pathReady s r → (r.source = 1 → s.hub.chip.inRecovery = false) →
      s.hub.hv.lockout = false → s.hub.hv.cstate y = csOff →
    ∃ t, exec (.loadCmdOn r y) s = .next t ∧ t.pending = s.pending ∧ carriedOut t r (F.LDC_L_CMD y).off ∧
      t.hub.hv.cstate y = csArmed ∧ t.hub.hv.get (F.LDC_L_STATUS_HELD_BUDGET y) = 0 ∧
      t.hub.hv.get (F.LDC_L_STATUS_HELD_FEED y) = 0 ∧ t.hub.chip.bit F.BUD_SHED_STATUS_SHED y.val = false) ∧
  (∀ (s : State) (r : Requester) (y : Chan), pathReady s r → (r.source = 1 → s.hub.chip.inRecovery = false) →
      s.hub.hv.chanBad y = true →
    ∃ t, exec (.loadCmdOn r y) s = .next t ∧ t.pending = s.pending ∧ turnedDown t r (F.LDC_L_CMD y).off ∧
      t.hub.hv.get (F.LDC_REFUSED y) = (s.hub.hv.get (F.LDC_REFUSED y) + 1) % 2 ^ 32 ∧
      t.hub.hv.cstate y = s.hub.hv.cstate y ∧ t.hub.hv.ldc = s.hub.hv.ldc ∧ hvWordsKept [(F.LDC_REFUSED y).off] s t ∧
      wordsKept [] s t) ∧
  (∀ (s : State) (r : Requester) (y : Chan), pathReady s r → (r.source = 1 → s.hub.chip.inRecovery = false) →
      s.hub.hv.lockout = false → s.hub.hv.cstate y ≠ csLatched →
    ∃ t, exec (.loadCmdOff r y) s = .next t ∧ t.pending = s.pending ∧ carriedOut t r (F.LDC_L_CMD y).off ∧
      t.hub.hv.cstate y = csOff ∧ t.hub.hv.get (F.LDC_L_STATUS_OFF_CAUSE y) = offCommand) ∧
  (∀ (s : State) (r : Requester) (y : Chan), pathReady s r → (r.source = 1 → s.hub.chip.inRecovery = false) →
      s.hub.hv.lockout = false → s.hub.hv.cstate y = csLatched →
    ∃ t, exec (.loadCmdClearLatch r y) s = .next t ∧ t.pending = s.pending ∧ carriedOut t r (F.LDC_L_CMD y).off ∧
      t.hub.hv.cstate y = csOff ∧ t.hub.hv.get (F.LDC_L_STATUS_RETRIES y) = 0) ∧
  (∀ (s : State) (r : Requester) (y : Chan) (off : BitVec 24) (v : BitVec 32), pathReady s r → (r.source = 1 →
      s.hub.chip.inRecovery = false) → s.hub.hv.lockout = false → off.toNat = (F.LDC_L_LIMIT y).off →
    ∃ t, exec (.loadConfigWrite r off v) s = .next t ∧ t.pending = s.pending ∧ carriedOut t r off.toNat ∧
      t.hub.hv.get (F.LDC_L_LIMIT_ILIM y) = wordField v 0 14 ∧
      t.hub.hv.get (F.LDC_L_LIMIT_FAULT_T y) = wordField v 14 8 ∧ t.hub.hv.ldc = s.hub.hv.ldc)

/-- Register writes that start commands of the key store, the Lockkeeper and the power states (13 R397, R409, R411, R414,
R415, R420; 14 R438, R439; 15 R458, R463, R466): each starts what its rule says, and a wrong CONFIRM or a transition that is
not permitted is refused. Rests on the model's choices of log 11 and 23. Completes: lcFuseGo, svnAdvance, provGo,
watermarkGo, readmit, rekey, lkpReady, lkpKick, lkpRestart, pwrVoteSwWrite, deepReqWrite, pwrOff. -/
def Obligations.KeyAndPowerWrites : Prop :=
  (∀ (s : State) (r : Requester) (n : BitVec 2), pathReady s r → (r.source = 1 → s.hub.chip.inRecovery = false) →
      s.hub.chip.key.lcCmd = none → s.hub.chip.lcPermitted n.toNat = true →
    ∃ t, exec (.lcFuseGo r n 0x5A3C) s = .next t ∧ t.pending = s.pending ∧ carriedOut t r F.KEY_LC_CMD.off ∧
      t.hub.chip.key = { s.hub.chip.key with lcCmd := some n.toNat }) ∧
  (∀ (s : State) (r : Requester) (n : BitVec 2) (k : BitVec 16), pathReady s r → (r.source = 1 → s.hub.chip.inRecovery = false) →
    k ≠ 0x5A3C ∨ s.hub.chip.key.lcCmd ≠ none ∨ s.hub.chip.lcPermitted n.toNat = false →
    ∃ t, exec (.lcFuseGo r n k) s = .next t ∧ coreOnly s t ∧ turnedDown t r F.KEY_LC_CMD.off ∧
      t.hub.chip.get F.KEY_LC_CMD_RESULT = 2 ∧ t.hub.chip.key = s.hub.chip.key ∧
      wordsKept [F.KEY_LC_CMD.off] s t) ∧
  (∀ (s : State) (r : Requester), pathReady s r → (r.source = 1 → s.hub.chip.inRecovery = false) → s.hub.chip.key.lcCmd = none →
    ∃ t, exec (.svnAdvance r 0x5A3C) s = .next t ∧ t.pending = s.pending ∧ carriedOut t r F.KEY_LC_CMD.off ∧
      t.hub.chip.key = { s.hub.chip.key with lcCmd := some 4 }) ∧
  (∀ (s : State) (r : Requester), pathReady s r → (r.source = 1 → s.hub.chip.inRecovery = false) →
      s.hub.chip.on F.KEY_PROV_CMD_BUSY = false →
    ∃ t, exec (.provGo r) s = .next t ∧ t.pending = s.pending ∧ carriedOut t r F.KEY_PROV_CMD.off ∧
      t.hub.chip.get F.KEY_PROV_CMD_BUSY = 1 ∧ t.hub.chip.key = { s.hub.chip.key with prov := some s.hub.chip.provBytes }) ∧
  (∀ (s : State) (r : Requester) (b : Bool), pathReady s r → (r.source = 1 → s.hub.chip.inRecovery = false) →
      s.hub.chip.on F.KEY_WM_CMD_BUSY = false →
    ∃ t, exec (.watermarkGo r b) s = .next t ∧ t.pending = s.pending ∧ carriedOut t r F.KEY_WM_CMD.off ∧
      t.hub.chip.get F.KEY_WM_CMD_BUSY = 1 ∧ t.hub.chip.get F.KEY_WM_CMD_SESSION = b.toNat ∧
      t.hub.chip.key = s.hub.chip.key) ∧
  (∀ (s : State) (r : Requester) (p : Port), pathReady s r → (r.source = 1 → s.hub.chip.inRecovery = false) →
      s.hub.chip.on (F.TRK_STATUS_LINK_UP p) = true → s.hub.chip.on (F.LNK_STATUS_ADMITTED p) = true →
    s.hub.chip.isLower p = false → s.hub.chip.key.adm[p].phase ≠ .backoff →
    ∃ t, exec (.readmit r p) s = .next t ∧ t.pending = s.pending ∧ carriedOut t r (F.KEY_P_CMD p).off ∧
      t.hub.chip.get (F.LNK_STATUS_TX_HOLD p) = 1 ∧ t.hub.chip.key = s.hub.chip.key) ∧
  (∀ (s : State) (r : Requester) (p : Port), pathReady s r → (r.source = 1 → s.hub.chip.inRecovery = false) →
      s.hub.chip.on (F.LNK_EPOCH_KE_PEND p) = false → s.hub.chip.on (F.LNK_STATUS_ADMITTED p) = true →
    s.hub.chip.get (F.LNK_EPOCH_EPOCH p) ≠ 0xFF_FFFF → s.hub.chip.trk[p].own = none → s.hub.chip.trk[p].resp = none →
    ∃ t, exec (.rekey r p) s = .next t ∧ t.pending = s.pending ∧ carriedOut t r (F.KEY_P_CMD p).off ∧
      t.hub.chip.get (F.LNK_EPOCH_KE_PEND p) = 1 ∧
      t.hub.chip.get (F.LNK_KE_SPAN p) = spanAdd (s.hub.chip.get (F.TRK_SPAN p)) 8) ∧
  (∀ (s : State) (r : Requester), pathReady s r → (r.source = 1 → s.hub.chip.inRecovery = false) →
      s.hub.chip.get F.LKP_STATUS_STATE = 1 → s.hub.chip.lkp.failing = none →
    ∃ t, exec (.lkpReady r) s = .next t ∧ t.pending = s.pending ∧ carriedOut t r F.LKP_CTL.off ∧
      t.hub.chip.get F.LKP_STATUS_STATE = 0 ∧ t.hub.chip.lkp.kickAt = s.hub.chip.now ∧ t.hub.chip.lkp.phase = .none) ∧
  (∀ (s : State) (r : Requester), pathReady s r → (r.source = 1 → s.hub.chip.inRecovery = false) →
    ∃ t, exec (.lkpKick r) s = .next t ∧ t.pending = s.pending ∧ carriedOut t r F.LKP_CTL.off ∧
      t.hub.chip.lkp = { s.hub.chip.lkp with kickAt := s.hub.chip.now }) ∧
  (∀ (s : State) (r : Requester), pathReady s r → (r.source = 1 → s.hub.chip.inRecovery = false) → s.hub.chip.lkp.phase = .none →
      s.hub.chip.lkp.failing = none →
    ∃ t, exec (.lkpRestart r) s = .next t ∧ t.pending = s.pending ∧ carriedOut t r F.LKP_CTL.off ∧
      t.hub.chip.get F.LKP_STATUS_STATE = 2 ∧ t.hub.chip.get F.LKP_CTL_READY = 0 ∧ t.hub.chip.lkp.phase = .bist ∧
      t.hub.chip.swc.p8in = []) ∧
  (∀ (s : State) (r : Requester) (v : BitVec 32), pathReady s r → (r.source = 1 → s.hub.chip.inRecovery = false) →
    ∃ t, exec (.pwrVoteSwWrite r v) s = .next t ∧ t.pending = s.pending ∧ carriedOut t r F.PWR_VOTE_SW.off ∧
      t.hub.chip.get F.PWR_VOTE_SW_VOTE = wordField v 0 10 ∧
      t.hub.chip.get F.PWR_STATUS_DOM_ON = s.hub.chip.get F.PWR_STATUS_DOM_ON ||| wordField v 0 10) ∧
  (∀ (s : State) (r : Requester) (b : Bool), pathReady s r → (r.source = 1 → s.hub.chip.inRecovery = false) →
    ∃ t, exec (.deepReqWrite r b) s = .next t ∧ t.pending = s.pending ∧ carriedOut t r F.PWR_CTL.off ∧
      t.hub.chip.get F.PWR_CTL_DEEP_REQ = b.toNat ∧ t.hub.chip.pst = s.hub.chip.pst) ∧
  (∀ (s : State) (r : Requester), pathReady s r → (r.source = 1 → s.hub.chip.inRecovery = false) →
      ∃ t, exec (.pwrOff r 0xC3A5) s = .next t ∧ t.pending = s.pending ∧ carriedOut t r F.PWR_CTL.off ∧
      t.hub.chip.pst = { s.hub.chip.pst with offDue := true }) ∧
  (∀ (s : State) (r : Requester) (k : BitVec 16), pathReady s r → (r.source = 1 → s.hub.chip.inRecovery = false) → k ≠ 0xC3A5 →
    ∃ t, exec (.pwrOff r k) s = .next t ∧ coreOnly s t ∧ turnedDown t r F.PWR_CTL.off ∧ t.hub.chip.pst = s.hub.chip.pst ∧
      wordsKept [] s t)

/-- Register writes of configuration, flash and counters, and of any register (16 R476, R482, R483, R488, R489, R491, R493):
a reserved offset answers 3, HOLD answers 4, and a register of the alarm block takes the bits that its access codes let a
write change. Rests on the model's choices of log 3, 11, 22, 25 and 26. Completes: registerWrite, recoveryImageWrite,
cfgCommitGo, cfgClearOvl, flashRead, flashProgram, flashErase4k, flashErase64k, counterPreset, cntClear, cntFreeze,
faultStatusClear. -/
def Obligations.ConfigurationWrites : Prop :=
  (∀ (s : State) (r : Requester) (off : BitVec 24) (v : BitVec 32), pathReady s r → (r.source = 1 →
      s.hub.chip.inRecovery = false) → off.toNat % 4 = 0 → regAt off.toNat = none →
    ∃ t, exec (.registerWrite r off v) s = .next t ∧ coreOnly s t ∧
      t.hub.chip.get F.GLB_BAD_ACCESS = (s.hub.chip.get F.GLB_BAD_ACCESS + 1) % 2 ^ 32 ∧
      (∃ e l, t.hub.chip.jrn = e :: l ∧ e.addr = off.toNat ∧ e.result = 3) ∧ wordsKept [F.GLB_BAD_ACCESS.off] s t) ∧
  (∀ (s : State) (r : Requester) (off : BitVec 24) (v : BitVec 32), s.hub.chip.fab.held = none → s.hub.chip.pathAdmits r = true →
      r.source = 3 →
    s.hub.chip.get F.LKP_STATUS_STATE = 3 →
    ∃ t, exec (.registerWrite r off v) s = .next t ∧ coreOnly s t ∧ (∃ e l, t.hub.chip.jrn = e :: l ∧ e.addr = off.toNat ∧
      e.result = 4) ∧ wordsKept [] s t) ∧
  (∀ (s : State) (r : Requester) (off : BitVec 24) (v : BitVec 32), s.hub.chip.fab.held = none → s.hub.chip.pathAdmits r = false →
      r.source = 2 → s.hub.chip.lockedOut 0 = false →
    s.hub.chip.started = true →
    ∃ t, exec (.registerWrite r off v) s = .next t ∧ coreOnly s t ∧ t.hub.chip.jrn = s.hub.chip.jrn ∧
      t.hub.chip.get F.CFG_ADMIT_REFUSED = (s.hub.chip.get F.CFG_ADMIT_REFUSED + 1) % 2 ^ 32 ∧
      t.hub.chip.get F.CFG_INT_STATUS_ADMIT_REFUSED = 1 ∧ wordsKept [F.CFG_ADMIT_REFUSED.off, F.CFG_INT_STATUS.off] s t) ∧
  (∀ (s : State) (r : Requester) (off : BitVec 24) (v : BitVec 32) (e : RegEntry), pathReady s r → (r.source = 1 →
      s.hub.chip.inRecovery = false) → off.toNat / 0x1_0000 = 0x15 →
    regAt off.toNat = some e →
    ∃ t, exec (.registerWrite r off v) s = .next t ∧ t.pending = s.pending ∧ carriedOut t r off.toNat ∧
      t.hub.chip.regs.word off.toNat = e.written off.toNat (s.hub.chip.regs.word off.toNat) v) ∧
  (∀ (s : State) (r : Requester) (off : BitVec 10) (v : BitVec 32), pathReady s r → s.hub.chip.inRecovery = true →
    streamedImage (s.hub.chip.cfg.recovery ++ beBytes 4 v.toNat) = none →
    ∃ t, exec (.recoveryImageWrite r off v) s = .next t ∧ t.pending = s.pending ∧
      carriedOut t r (F.CFG_RECOVERY_BUF off.toNat).off ∧
      t.hub.chip.cfg.recovery = s.hub.chip.cfg.recovery ++ beBytes 4 v.toNat) ∧
  (∀ (s : State) (r : Requester), pathReady s r → (r.source = 1 → s.hub.chip.inRecovery = false) →
      s.hub.chip.commitRefused s.hub.changedWords = none →
    ∃ t, exec (.cfgCommitGo r) s = .next t ∧ t.pending = s.pending ∧ carriedOut t r F.CFG_COMMIT.off ∧
      t.hub.chip.get F.CFG_COMMIT_BUSY = 1 ∧ t.hub.chip.get F.CFG_COMMIT_RESULT = 0 ∧
      (t.hub.chip.cfg.commit.map fun j => j.words) = some s.hub.changedWords ∧
      (t.hub.chip.cfg.commit.map fun j => j.seq) = some ((s.hub.chip.get F.CFG_OVL_SEQ + 1) % 2 ^ 32)) ∧
  (∀ (s : State) (r : Requester), pathReady s r → (r.source = 1 → s.hub.chip.inRecovery = false) →
      s.hub.chip.on F.CFG_COMMIT_BUSY = false → s.hub.chip.pairKey engineImage 2 = none →
    ∃ t, exec (.cfgCommitGo r) s = .next t ∧ coreOnly s t ∧ turnedDown t r F.CFG_COMMIT.off ∧
      t.hub.chip.get F.CFG_COMMIT_RESULT = 2 ∧ t.hub.chip.cfg = s.hub.chip.cfg ∧
      wordsKept [F.CFG_COMMIT.off] s t) ∧
  (∀ (s : State) (r : Requester), pathReady s r → (r.source = 1 → s.hub.chip.inRecovery = false) →
      s.hub.chip.commitRefused [] = none →
    ∃ t, exec (.cfgClearOvl r) s = .next t ∧ t.pending = s.pending ∧ carriedOut t r F.CFG_COMMIT.off ∧
      t.hub.chip.get F.CFG_COMMIT_BUSY = 1 ∧
      (t.hub.chip.cfg.commit.map fun j => j.words) = some []) ∧
  (∀ (s : State) (r : Requester), pathReady s r → (r.source = 1 → s.hub.chip.inRecovery = false) →
      s.hub.chip.on F.CFG_FL_CMD_BUSY = false →
    ∃ t, exec (.flashRead r) s = .next t ∧ t.pending = s.pending ∧ carriedOut t r F.CFG_FL_CMD.off ∧
      t.hub.chip.get F.CFG_FL_CMD_BUSY = 1 ∧ t.hub.chip.get F.CFG_FL_CMD_RESULT = 0 ∧
      t.hub.chip.cfg.flash = some (0, s.hub.chip.get F.CFG_FL_ADDR_ADDR / flashSize 0 * flashSize 0) ∧
      t.hub.chip.outbox = s.hub.chip.outbox ++ [Out.flash 0 (s.hub.chip.get F.CFG_FL_ADDR_ADDR / flashSize 0 * flashSize 0) []]) ∧
  (∀ (s : State) (r : Requester), pathReady s r → (r.source = 1 → s.hub.chip.inRecovery = false) →
      s.hub.chip.flashRefused 1 = none →
    ∃ t, exec (.flashProgram r) s = .next t ∧ t.pending = s.pending ∧ carriedOut t r F.CFG_FL_CMD.off ∧
      t.hub.chip.get F.CFG_FL_CMD_BUSY = 1 ∧ t.hub.chip.get F.CFG_FL_CMD_RESULT = 0 ∧
      t.hub.chip.cfg.flash = some (1, s.hub.chip.get F.CFG_FL_ADDR_ADDR / flashSize 1 * flashSize 1) ∧
      t.hub.chip.outbox = s.hub.chip.outbox ++ [Out.flash 1 (s.hub.chip.get F.CFG_FL_ADDR_ADDR / flashSize 1 * flashSize 1) s.hub.chip.flashBuffer]) ∧
  (∀ (s : State) (r : Requester), pathReady s r → (r.source = 1 → s.hub.chip.inRecovery = false) →
      s.hub.chip.flashRefused 2 = none →
    ∃ t, exec (.flashErase4k r) s = .next t ∧ t.pending = s.pending ∧ carriedOut t r F.CFG_FL_CMD.off ∧
      t.hub.chip.get F.CFG_FL_CMD_BUSY = 1 ∧ t.hub.chip.get F.CFG_FL_CMD_RESULT = 0 ∧
      t.hub.chip.cfg.flash = some (2, s.hub.chip.get F.CFG_FL_ADDR_ADDR / flashSize 2 * flashSize 2) ∧
      t.hub.chip.outbox = s.hub.chip.outbox ++ [Out.flash 2 (s.hub.chip.get F.CFG_FL_ADDR_ADDR / flashSize 2 * flashSize 2) []]) ∧
  (∀ (s : State) (r : Requester), pathReady s r → (r.source = 1 → s.hub.chip.inRecovery = false) →
      s.hub.chip.flashRefused 3 = none →
    ∃ t, exec (.flashErase64k r) s = .next t ∧ t.pending = s.pending ∧ carriedOut t r F.CFG_FL_CMD.off ∧
      t.hub.chip.get F.CFG_FL_CMD_BUSY = 1 ∧ t.hub.chip.get F.CFG_FL_CMD_RESULT = 0 ∧
      t.hub.chip.cfg.flash = some (3, s.hub.chip.get F.CFG_FL_ADDR_ADDR / flashSize 3 * flashSize 3) ∧
      t.hub.chip.outbox = s.hub.chip.outbox ++ [Out.flash 3 (s.hub.chip.get F.CFG_FL_ADDR_ADDR / flashSize 3 * flashSize 3) []]) ∧
  (∀ (s : State) (r : Requester) (k : Nat), pathReady s r → (r.source = 1 → s.hub.chip.inRecovery = false) →
      s.hub.chip.flashRefused 3 = some k →
    ∃ t, exec (.flashErase64k r) s = .next t ∧ coreOnly s t ∧ turnedDown t r F.CFG_FL_CMD.off ∧
      t.hub.chip.get F.CFG_FL_CMD_RESULT = k ∧ t.hub.chip.cfg = s.hub.chip.cfg ∧ t.hub.chip.outbox = s.hub.chip.outbox ∧
      wordsKept [F.CFG_FL_CMD.off] s t) ∧
  (∀ (s : State) (r : Requester) (n : Fin 96) (v : BitVec 32), pathReady s r → (r.source = 1 → s.hub.chip.inRecovery = false) →
      n.val < 88 → s.hub.chip.on F.CNT_CTL_FREEZE = true →
    ∃ t, exec (.counterPreset r n false v) s = .next t ∧ t.pending = s.pending ∧ carriedOut t r (F.CNT_VAL_LO n).off ∧
      (t.hub.chip.counter n.val).value = (s.hub.chip.counter n.val).value / 2 ^ 32 * 2 ^ 32 + v.toNat ∧
      (t.hub.chip.counter n.val).reload = (s.hub.chip.counter n.val).reload / 2 ^ 32 * 2 ^ 32 + v.toNat) ∧
  (∀ (s : State) (r : Requester), pathReady s r → (r.source = 1 → s.hub.chip.inRecovery = false) →
      s.hub.chip.on F.CNT_CTL_FREEZE = true →
    ∃ t, exec (.cntClear r) s = .next t ∧ t.pending = s.pending ∧ carriedOut t r F.CNT_CTL.off ∧
      ∀ n < 88, (t.hub.chip.counter n).value = 0) ∧
  (∀ (s : State) (r : Requester) (b : Bool), pathReady s r → (r.source = 1 → s.hub.chip.inRecovery = false) →
    ∃ t, exec (.cntFreeze r b) s = .next t ∧ t.pending = s.pending ∧ carriedOut t r F.CNT_CTL.off ∧
      t.hub.chip.get F.CNT_CTL_FREEZE = b.toNat) ∧
  (∀ (s : State) (r : Requester) (v : BitVec 32), pathReady s r → (r.source = 1 → s.hub.chip.inRecovery = false) →
      v.getLsbD 4 = true →
    ∃ t, exec (.faultStatusClear r v) s = .next t ∧ t.pending = s.pending ∧ carriedOut t r F.GLB_FAULT_STATUS.off ∧
      t.hub.chip.get F.GLB_FAULT_STATUS_CRIT_ALARM = 0 ∧
      (s.hub.chip.on F.GLB_FAULT_STATUS_LATCHED = true → (∃ y : Chan, s.hub.hv.cstate y = csLatched) →
      t.hub.chip.get F.GLB_FAULT_STATUS_LATCHED = 1))
end

