-- ==== Sys2Proof/Laws/Codes.lean ====
section
/-! SUPPORT. Small lemmas of the codings: what the CRC of a control block covers, and when it holds. -/

namespace Sys2Proof

/-- The CRC takes the low 32 bits of a block and nothing else. -/
theorem withCrc_high (b : Block) (j : Nat) (h : 32 ≤ j) : (withCrc b).getLsbD j = b.getLsbD j := by
  simp [withCrc, blockField, BitVec.getLsbD_of_ge _ j h]

/-- The CRC in a block whose low 32 bits were clear. -/
theorem withCrc_low (b : Block) (h : b.extractLsb' 0 32 = 0#32) : (withCrc b).extractLsb' 0 32 = crc32 (bitsIn b 256 32) := by
  apply BitVec.eq_of_getLsbD_eq
  intro i hi
  have hb : b.getLsbD i = false := by
    have := congrArg (fun x => x.getLsbD i) h
    simpa [hi] using this
  simp [withCrc, blockField, hi, hb]
  intro; omega

/-- Blocks that agree from bit 32 up have the same bits under the CRC. -/
theorem bitsIn_high {b d : Block} (h : ∀ j, 32 ≤ j → d.getLsbD j = b.getLsbD j) : bitsIn d 256 32 = bitsIn b 256 32 := by
  unfold bitsIn
  apply List.map_congr_left
  intro i hi
  have : i < 225 := List.mem_range.1 hi
  exact h _ (by omega)

/-- The CRC of a block whose low 32 bits were clear holds (02 R39, 03 R100). -/
theorem crcHolds_withCrc (b : Block) (h : b.extractLsb' 0 32 = 0#32) : crcHolds (withCrc b) = true := by
  unfold crcHolds
  rw [bitsIn_high (withCrc_high b), withCrc_low b h, beq_iff_eq]

/-- With a bit of the CRC flipped it does not hold. -/
theorem crcHolds_flipped (b : Block) (h : b.extractLsb' 0 32 = 0#32) : crcHolds (withCrc b ^^^ 1#257) = false := by
  have hh : ∀ j, 32 ≤ j → (withCrc b ^^^ 1#257).getLsbD j = b.getLsbD j := by
    intro j hj
    have : (1#257).getLsbD j = false := by simp [BitVec.getLsbD_one]; omega
    rw [BitVec.getLsbD_xor, withCrc_high b j hj, this, Bool.xor_false]
  have hl : (withCrc b ^^^ 1#257).extractLsb' 0 32 = crc32 (bitsIn b 256 32) ^^^ 1#32 := by
    rw [← withCrc_low b h]
    apply BitVec.eq_of_getLsbD_eq
    intro i hi
    have h1 : (1#257).getLsbD i = (1#32).getLsbD i := by simp [BitVec.getLsbD_one]
    simp only [BitVec.getLsbD_xor, BitVec.getLsbD_extractLsb', hi, decide_true, Nat.zero_add, Bool.true_and, h1]
  unfold crcHolds
  rw [bitsIn_high hh, hl, beq_eq_false_iff_ne]
  intro e
  have := congrArg (fun x => x ^^^ crc32 (bitsIn b 256 32)) e
  simp [BitVec.xor_comm] at this

end Sys2Proof
end

