-- ==== Sys2Proof/Laws/Mem.lean ====
section
/-! SUPPORT. Laws of the staging memory: a byte reads what was last written to it, every other byte keeps its value, and the
canonical form is kept. -/

namespace Sys2Proof.Machine

theorem memByte_insert (m : List Host.Cell) (x y : Nat) (v : Byte) : memByte (memInsert x v m) y = if y = x then v else memByte m y := by
  induction m with
  | nil => by_cases h : y = x <;> simp [memInsert, memByte, h]
  | cons a r ih =>
    obtain ⟨k, u⟩ := a
    simp only [memInsert]
    split
    · by_cases h : y = x <;> simp [memByte, h]
    · split
      · subst_vars
        by_cases h : y = k <;> simp [memByte, h]
      · by_cases hk : y = k
        · subst hk
          simp only [memByte, if_true]
          rw [if_neg (by omega)]
        · simp [memByte, hk, ih]

theorem memOkFrom_mono {lo lo' : Nat} {m : List Host.Cell} (h : lo' ≤ lo) (hm : memOkFrom lo m = true) : memOkFrom lo' m = true := by
  cases m with
  | nil => rfl
  | cons a r =>
    obtain ⟨k, u⟩ := a
    simp only [memOkFrom, Bool.and_eq_true, decide_eq_true_eq] at hm ⊢
    exact ⟨⟨by omega, hm.1.2⟩, hm.2⟩

theorem memOkFrom_insert {lo x : Nat} {v : Byte} {m : List Host.Cell} (hlo : lo ≤ x) (hv : v ≠ stageBlank)
    (hm : memOkFrom lo m = true) : memOkFrom lo (memInsert x v m) = true := by
  induction m generalizing lo with
  | nil => simp [memInsert, memOkFrom, hlo, hv]
  | cons a r ih =>
    obtain ⟨k, u⟩ := a
    simp only [memOkFrom, Bool.and_eq_true, decide_eq_true_eq] at hm
    simp only [memInsert]
    split
    · simp only [memOkFrom, Bool.and_eq_true, decide_eq_true_eq, bne_iff_ne, ne_eq]
      exact ⟨⟨hlo, hv⟩, ⟨⟨by omega, by simpa using hm.1.2⟩, hm.2⟩⟩
    · split
      · subst_vars
        simp only [memOkFrom, Bool.and_eq_true, decide_eq_true_eq, bne_iff_ne, ne_eq]
        exact ⟨⟨hlo, hv⟩, hm.2⟩
      · simp only [memOkFrom, Bool.and_eq_true, decide_eq_true_eq]
        exact ⟨hm.1, ih (by omega) hm.2⟩

theorem memOkFrom_erase {lo x : Nat} {m : List Host.Cell} (hm : memOkFrom lo m = true) : memOkFrom lo (memErase x m) = true := by
  induction m generalizing lo with
  | nil => rfl
  | cons a r ih =>
    obtain ⟨k, u⟩ := a
    have h := hm
    simp only [memOkFrom, Bool.and_eq_true, decide_eq_true_eq] at hm
    simp only [memErase]
    split
    · exact h
    · split
      · exact memOkFrom_mono (by omega) hm.2
      · simp only [memOkFrom, Bool.and_eq_true, decide_eq_true_eq]
        exact ⟨hm.1, ih hm.2⟩

theorem memByte_below {lo x : Nat} {m : List Host.Cell} (h : x < lo) (hm : memOkFrom lo m = true) : memByte m x = stageBlank := by
  induction m generalizing lo with
  | nil => rfl
  | cons a r ih =>
    obtain ⟨k, u⟩ := a
    simp only [memOkFrom, Bool.and_eq_true, decide_eq_true_eq] at hm
    simp only [memByte]
    rw [if_neg (by omega)]
    exact ih (by omega) hm.2

theorem memByte_erase {lo x y : Nat} {m : List Host.Cell} (hm : memOkFrom lo m = true) :
    memByte (memErase x m) y = if y = x then stageBlank else memByte m y := by
  induction m generalizing lo with
  | nil => simp [memErase, memByte]
  | cons a r ih =>
    obtain ⟨k, u⟩ := a
    have h := hm
    simp only [memOkFrom, Bool.and_eq_true, decide_eq_true_eq] at hm
    simp only [memErase]
    split
    · by_cases hy : y = x
      · rw [if_pos hy, hy]
        simp only [memByte]
        rw [if_neg (by omega)]
        exact memByte_below (by omega) hm.2
      · rw [if_neg hy]
    · split
      · subst_vars
        by_cases hy : y = k
        · rw [if_pos hy, hy]; exact memByte_below (by omega) hm.2
        · simp [memByte, hy]
      · by_cases hk : y = k
        · subst hk; simp only [memByte, if_true]; rw [if_neg (by omega)]
        · simp only [memByte, hk, if_false]; exact ih hm.2

/-- In canonical memory a byte reads what was last written to it, and every other byte keeps its value. -/
theorem memByte_memSet {m : List Host.Cell} (x y : Nat) (v : Byte) (h : memWf m = true) :
    memByte (memSet m x v) y = if y = x then v else memByte m y := by
  unfold memSet
  split
  · rw [memByte_erase h]; subst_vars; rfl
  · exact memByte_insert m x y v

/-- A write of one byte keeps the canonical form. -/
theorem memWf_memSet {m : List Host.Cell} (x : Nat) (v : Byte) (h : memWf m = true) : memWf (memSet m x v) = true := by
  unfold memSet
  split
  · exact memOkFrom_erase h
  · exact memOkFrom_insert (Nat.zero_le _) ‹_› h

/-- A write of bytes keeps the canonical form. -/
theorem memWf_memWrite {m : List Host.Cell} (x : Nat) (l : List Byte) (h : memWf m = true) : memWf (memWrite m x l) = true := by
  induction l generalizing m x with
  | nil => exact h
  | cons b r ih => exact ih _ (memWf_memSet x b h)

/-- A byte outside the written ones keeps its value. -/
theorem memByte_memWrite_outside {m : List Host.Cell} (x y : Nat) (l : List Byte) (h : memWf m = true)
    (hy : y < x ∨ x + l.length ≤ y) : memByte (memWrite m x l) y = memByte m y := by
  induction l generalizing m x with
  | nil => rfl
  | cons b r ih =>
    simp only [List.length_cons] at hy
    rw [memWrite, ih _ (memWf_memSet x b h) (by omega), memByte_memSet x y b h, if_neg (by omega)]

/-- A written byte reads as it was written. -/
theorem memByte_memWrite_inside {m : List Host.Cell} (x i : Nat) (l : List Byte) (h : memWf m = true) (hi : i < l.length) :
    memByte (memWrite m x l) (x + i) = l[i] := by
  induction l generalizing m x i with
  | nil => simp at hi
  | cons b r ih =>
    rw [memWrite]
    cases i with
    | zero =>
      rw [memByte_memWrite_outside (x + 1) (x + 0) r (memWf_memSet x b h) (by omega), memByte_memSet x _ b h]
      simp
    | succ i =>
      have := ih (m := memSet m x b) (x + 1) i (memWf_memSet x b h) (by simpa using hi)
      rw [show x + (i + 1) = x + 1 + i by omega, this]
      simp

end Sys2Proof.Machine
end

