-- ==== Sys2Proof/Laws/RegFile.lean ====
section
/-! SUPPORT. Laws of a die's register file: a word and a field read what was last written to them, every other word and every
field apart keeps its value, and the canonical form is kept. -/

namespace Sys2Proof.Machine

/-- The field lies within one 32-bit word. -/
def Field.ok (f : Field) : Bool := decide (f.lo + f.width ≤ 32)

/-- The two fields share no bit. -/
def Field.apart (f g : Field) : Bool :=
  f.off != g.off || decide (f.lo + f.width ≤ g.lo) || decide (g.lo + g.width ≤ f.lo)

theorem word_insert (r : RegFile) (off x : Nat) (v : Word) :
    (RegFile.insert off v r).word x = if x = off then v else r.word x := by
  induction r with
  | nil =>
    by_cases h : x = off
    · simp [RegFile.insert, RegFile.word, h]
    · simp [RegFile.insert, RegFile.word, h, Ne.symm h]
  | cons a r ih =>
    obtain ⟨k, u⟩ := a
    simp only [RegFile.insert]
    split
    · by_cases h : x = off
      · simp [RegFile.word, h]
      · simp [RegFile.word, h, Ne.symm h, eq_comm]
    · split
      · subst_vars
        by_cases h : x = k
        · simp [RegFile.word, h]
        · simp [RegFile.word, Ne.symm h, h]
      · by_cases hk : k = x
        · subst hk
          simp [RegFile.word]
          intro h; omega
        · simp [RegFile.word, hk, ih]

theorem word_filter (r : RegFile) (off x : Nat) :
    RegFile.word (r.filter fun c => c.1 ≠ off) x = if x = off then resetWord x else r.word x := by
  induction r with
  | nil => simp [RegFile.word]
  | cons a r ih =>
    obtain ⟨k, u⟩ := a
    by_cases hk : k = off
    · subst hk
      simp only [ne_eq, not_true_eq_false, decide_false, Bool.false_eq_true, not_false_eq_true, List.filter_cons_of_neg, ih]
      by_cases h : x = k
      · simp [h]
      · simp [RegFile.word, h, Ne.symm h]
    · simp only [ne_eq, hk, not_false_eq_true, decide_true, List.filter_cons_of_pos]
      by_cases h : k = x
      · subst h; simp [RegFile.word, hk]
      · simp only [RegFile.word, h, if_false, ih]

/-- A word reads what was last stored there; every other word keeps its value. -/
theorem word_setWord (r : RegFile) (off x : Nat) (v : Word) : (r.setWord off v).word x = if x = off then v else r.word x := by
  unfold RegFile.setWord
  split
  · rw [word_filter]; split
    · subst_vars; rfl
    · rfl
  · exact word_insert r off x v

theorem wordField_lt (w : Word) (lo width : Nat) : wordField w lo width < 2 ^ width := Nat.mod_lt _ (Nat.two_pow_pos _)

theorem wordWithField_toNat (w : Word) (lo width v : Nat) (h : lo + width ≤ 32) :
    (wordWithField w lo width v).toNat =
      w.toNat / 2 ^ (lo + width) * 2 ^ (lo + width) + v % 2 ^ width * 2 ^ lo + w.toNat % 2 ^ lo := by
  have hw := w.isLt
  have e1 : w.toNat = w.toNat / 2 ^ lo * 2 ^ lo + w.toNat % 2 ^ lo := by rw [Nat.div_add_mod']
  have e2 : w.toNat / 2 ^ lo = w.toNat / 2 ^ (lo + width) * 2 ^ width + w.toNat / 2 ^ lo % 2 ^ width := by
    rw [pow_add, ← Nat.div_div_eq_div_mul, Nat.div_add_mod']
  have e3 : w.toNat - wordField w lo width * 2 ^ lo = w.toNat / 2 ^ (lo + width) * 2 ^ (lo + width) + w.toNat % 2 ^ lo := by
    have : w.toNat = w.toNat / 2 ^ (lo + width) * 2 ^ (lo + width) + wordField w lo width * 2 ^ lo + w.toNat % 2 ^ lo := by
      conv_lhs => rw [e1, e2]
      simp only [wordField, pow_add]; ring
    omega
  have hv : v % 2 ^ width < 2 ^ width := Nat.mod_lt _ (Nat.two_pow_pos _)
  have hl : w.toNat % 2 ^ lo < 2 ^ lo := Nat.mod_lt _ (Nat.two_pow_pos _)
  unfold wordWithField
  rw [BitVec.toNat_ofNat, e3, Nat.mod_eq_of_lt]
  · omega
  · have hq : w.toNat / 2 ^ (lo + width) < 2 ^ (32 - (lo + width)) := by
      rw [Nat.div_lt_iff_lt_mul (Nat.two_pow_pos _), ← pow_add]
      have : 32 - (lo + width) + (lo + width) = 32 := by omega
      rwa [this]
    have b1 : v % 2 ^ width * 2 ^ lo + 2 ^ lo ≤ 2 ^ (lo + width) := by
      rw [pow_add, mul_comm (2 ^ lo)]
      calc v % 2 ^ width * 2 ^ lo + 2 ^ lo = (v % 2 ^ width + 1) * 2 ^ lo := by ring
        _ ≤ 2 ^ width * 2 ^ lo := Nat.mul_le_mul_right _ hv
    have b2 : (w.toNat / 2 ^ (lo + width) + 1) * 2 ^ (lo + width) ≤ 2 ^ 32 := by
      calc _ ≤ 2 ^ (32 - (lo + width)) * 2 ^ (lo + width) := Nat.mul_le_mul_right _ hq
        _ = 2 ^ 32 := by rw [← pow_add]; congr 1; omega
    rw [add_mul, one_mul] at b2
    omega

/-- A field reads what was last written to it, cut to its width. -/
theorem wordField_with_same (w : Word) (lo width v : Nat) (h : lo + width ≤ 32) :
    wordField (wordWithField w lo width v) lo width = v % 2 ^ width := by
  unfold wordField
  rw [wordWithField_toNat w lo width v h]
  have hl : w.toNat % 2 ^ lo < 2 ^ lo := Nat.mod_lt _ (Nat.two_pow_pos _)
  have : w.toNat / 2 ^ (lo + width) * 2 ^ (lo + width) + v % 2 ^ width * 2 ^ lo + w.toNat % 2 ^ lo
      = (w.toNat / 2 ^ (lo + width) * 2 ^ width + v % 2 ^ width) * 2 ^ lo + w.toNat % 2 ^ lo := by
    rw [pow_add]; ring
  rw [this, Nat.add_comm, Nat.add_mul_div_right _ _ (Nat.two_pow_pos _), Nat.div_eq_of_lt hl, Nat.zero_add,
    Nat.add_comm, Nat.add_mul_mod_self_right, Nat.mod_mod]

/-- A field apart from the one written keeps its value. -/
theorem wordField_with_apart (w : Word) (lo width v lo' width' : Nat) (h : lo + width ≤ 32)
    (ha : lo' + width' ≤ lo ∨ lo + width ≤ lo') :
    wordField (wordWithField w lo width v) lo' width' = wordField w lo' width' := by
  unfold wordField
  rw [wordWithField_toNat w lo width v h]
  rcases ha with ha | ha
  · obtain ⟨d, rfl⟩ := Nat.exists_eq_add_of_le ha
    have h1 : ∀ x : Nat, x / 2 ^ lo' % 2 ^ width' = x % 2 ^ (lo' + width') / 2 ^ lo' := by
      intro x; rw [pow_add, Nat.mod_mul_right_div_self]
    rw [h1, h1]
    congr 1
    have h2 : w.toNat % 2 ^ (lo' + width' + d) % 2 ^ (lo' + width') = w.toNat % 2 ^ (lo' + width') :=
      Nat.mod_mod_of_dvd _ (pow_dvd_pow 2 (by omega))
    rw [show w.toNat / 2 ^ (lo' + width' + d + width) * 2 ^ (lo' + width' + d + width) + v % 2 ^ width * 2 ^ (lo' + width' + d)
        = 2 ^ (lo' + width') * (w.toNat / 2 ^ (lo' + width' + d + width) * 2 ^ (d + width) + v % 2 ^ width * 2 ^ d) by
      rw [pow_add _ (lo' + width' + d) width, pow_add _ (lo' + width') d, pow_add _ d width]; ring]
    rw [Nat.mul_add_mod, h2]
  · obtain ⟨d, rfl⟩ := Nat.exists_eq_add_of_le ha
    have hlt : v % 2 ^ width * 2 ^ lo + w.toNat % 2 ^ lo < 2 ^ (lo + width) := by
      have hv : v % 2 ^ width < 2 ^ width := Nat.mod_lt _ (Nat.two_pow_pos _)
      have hl : w.toNat % 2 ^ lo < 2 ^ lo := Nat.mod_lt _ (Nat.two_pow_pos _)
      have : (v % 2 ^ width + 1) * 2 ^ lo ≤ 2 ^ width * 2 ^ lo := Nat.mul_le_mul_right _ hv
      rw [pow_add, mul_comm (2 ^ lo)]; rw [add_mul, one_mul] at this; omega
    rw [add_assoc, pow_add 2 (lo + width) d, ← Nat.div_div_eq_div_mul, ← Nat.div_div_eq_div_mul,
      Nat.add_comm (_ * _) (_ + _), Nat.add_mul_div_right _ _ (Nat.two_pow_pos _), Nat.div_eq_of_lt hlt, Nat.zero_add]

/-- A field of a register file reads what was last written to it, cut to its width. -/
theorem get_put_same (r : RegFile) (f : Field) (v : Nat) (h : f.ok = true) : (r.put f v).get f = v % 2 ^ f.width := by
  simp only [Field.ok, decide_eq_true_eq] at h
  simp [RegFile.get, RegFile.put, word_setWord, wordField_with_same _ _ _ _ h]

/-- A field apart from the one written keeps its value. -/
theorem get_put_apart (r : RegFile) (f g : Field) (v : Nat) (h : f.ok = true) (ha : Field.apart g f = true) :
    (r.put f v).get g = r.get g := by
  simp only [Field.ok, decide_eq_true_eq] at h
  simp only [Field.apart, Bool.or_eq_true, bne_iff_ne, ne_eq, decide_eq_true_eq] at ha
  unfold RegFile.get RegFile.put
  rw [word_setWord]
  by_cases ho : g.off = f.off
  · rw [if_pos ho, ho]
    exact wordField_with_apart _ _ _ _ _ _ h (by omega)
  · rw [if_neg ho]

/-- A word other than the one written keeps its value. -/
theorem word_put (r : RegFile) (f : Field) (v x : Nat) (h : x ≠ f.off) : (r.put f v).word x = r.word x := by
  simp [RegFile.put, word_setWord, h]

/-! The canonical form. -/

theorem okFrom_mono {lo lo' : Nat} {r : RegFile} (h : lo' ≤ lo) (hr : RegFile.okFrom lo r = true) : RegFile.okFrom lo' r = true := by
  cases r with
  | nil => rfl
  | cons a r =>
    obtain ⟨k, u⟩ := a
    simp only [RegFile.okFrom, Bool.and_eq_true, decide_eq_true_eq] at hr ⊢
    exact ⟨⟨by omega, hr.1.2⟩, hr.2⟩

theorem okFrom_filter {lo : Nat} {r : RegFile} (p : Nat × Word → Bool) (hr : RegFile.okFrom lo r = true) :
    RegFile.okFrom lo (r.filter p) = true := by
  induction r generalizing lo with
  | nil => rfl
  | cons a r ih =>
    obtain ⟨k, u⟩ := a
    simp only [RegFile.okFrom, Bool.and_eq_true, decide_eq_true_eq] at hr
    by_cases hp : p (k, u) = true
    · rw [List.filter_cons_of_pos hp]
      simp only [RegFile.okFrom, Bool.and_eq_true, decide_eq_true_eq]
      exact ⟨hr.1, ih hr.2⟩
    · rw [List.filter_cons_of_neg hp]
      exact okFrom_mono (by omega) (ih hr.2)

theorem okFrom_insert {lo off : Nat} {v : Word} {r : RegFile} (hlo : lo ≤ off) (hv : v ≠ resetWord off)
    (hr : RegFile.okFrom lo r = true) : RegFile.okFrom lo (RegFile.insert off v r) = true := by
  induction r generalizing lo with
  | nil => simp [RegFile.insert, RegFile.okFrom, hlo, hv]
  | cons a r ih =>
    obtain ⟨k, u⟩ := a
    simp only [RegFile.okFrom, Bool.and_eq_true, decide_eq_true_eq] at hr
    simp only [RegFile.insert]
    split
    · simp only [RegFile.okFrom, Bool.and_eq_true, decide_eq_true_eq]
      exact ⟨⟨hlo, hv⟩, ⟨⟨by omega, hr.1.2⟩, hr.2⟩⟩
    · split
      · subst_vars
        simp only [RegFile.okFrom, Bool.and_eq_true, decide_eq_true_eq]
        exact ⟨⟨hlo, hv⟩, hr.2⟩
      · simp only [RegFile.okFrom, Bool.and_eq_true, decide_eq_true_eq]
        exact ⟨hr.1, ih (by omega) hr.2⟩

/-- Storing a word keeps the canonical form. -/
theorem wf_setWord {r : RegFile} (off : Nat) (v : Word) (h : r.wf = true) : (r.setWord off v).wf = true := by
  unfold RegFile.setWord
  split
  · exact okFrom_filter _ h
  · exact okFrom_insert (Nat.zero_le _) ‹_› h

/-- Writing a field keeps the canonical form. -/
theorem wf_put {r : RegFile} (f : Field) (v : Nat) (h : r.wf = true) : (r.put f v).wf = true := wf_setWord _ _ h

/-- Dropping words keeps the canonical form. -/
theorem wf_filter {r : RegFile} (p : Nat × Word → Bool) (h : r.wf = true) : RegFile.wf (r.filter p) = true := okFrom_filter p h

end Sys2Proof.Machine
end

