-- ==== Sys2Proof/Laws/State.lean ====
section
/-! SUPPORT. What each shared update of a die changes, field by field, and what a field reads after it. -/

namespace Sys2Proof.Machine

/-! One lemma per field of the core die per update. -/

@[simp] theorem chip_put_regs (c : Chip) (f : Field) (v : Nat) : (c.put f v).regs = c.regs.put f v := rfl
@[simp] theorem chip_put_now (c : Chip) (f : Field) (v : Nat) : (c.put f v).now = c.now := rfl
@[simp] theorem chip_put_subns (c : Chip) (f : Field) (v : Nat) : (c.put f v).subns = c.subns := rfl
@[simp] theorem chip_put_freeCount (c : Chip) (f : Field) (v : Nat) : (c.put f v).freeCount = c.freeCount := rfl
@[simp] theorem chip_put_outbox (c : Chip) (f : Field) (v : Nat) : (c.put f v).outbox = c.outbox := rfl
@[simp] theorem chip_put_rst (c : Chip) (f : Field) (v : Nat) : (c.put f v).rst = c.rst := rfl
@[simp] theorem chip_put_trk (c : Chip) (f : Field) (v : Nat) : (c.put f v).trk = c.trk := rfl
@[simp] theorem chip_put_pcs (c : Chip) (f : Field) (v : Nat) : (c.put f v).pcs = c.pcs := rfl
@[simp] theorem chip_put_lnk (c : Chip) (f : Field) (v : Nat) : (c.put f v).lnk = c.lnk := rfl
@[simp] theorem chip_put_tp (c : Chip) (f : Field) (v : Nat) : (c.put f v).tp = c.tp := rfl
@[simp] theorem chip_put_fab (c : Chip) (f : Field) (v : Nat) : (c.put f v).fab = c.fab := rfl
@[simp] theorem chip_put_swc (c : Chip) (f : Field) (v : Nat) : (c.put f v).swc = c.swc := rfl
@[simp] theorem chip_put_sch (c : Chip) (f : Field) (v : Nat) : (c.put f v).sch = c.sch := rfl
@[simp] theorem chip_put_bud (c : Chip) (f : Field) (v : Nat) : (c.put f v).bud = c.bud := rfl
@[simp] theorem chip_put_usb (c : Chip) (f : Field) (v : Nat) : (c.put f v).usb = c.usb := rfl
@[simp] theorem chip_put_win (c : Chip) (f : Field) (v : Nat) : (c.put f v).win = c.win := rfl
@[simp] theorem chip_put_vid (c : Chip) (f : Field) (v : Nat) : (c.put f v).vid = c.vid := rfl
@[simp] theorem chip_put_eth (c : Chip) (f : Field) (v : Nat) : (c.put f v).eth = c.eth := rfl
@[simp] theorem chip_put_fld (c : Chip) (f : Field) (v : Nat) : (c.put f v).fld = c.fld := rfl
@[simp] theorem chip_put_pwr (c : Chip) (f : Field) (v : Nat) : (c.put f v).pwr = c.pwr := rfl
@[simp] theorem chip_put_lkp (c : Chip) (f : Field) (v : Nat) : (c.put f v).lkp = c.lkp := rfl
@[simp] theorem chip_put_pst (c : Chip) (f : Field) (v : Nat) : (c.put f v).pst = c.pst := rfl
@[simp] theorem chip_put_voteEnd (c : Chip) (f : Field) (v : Nat) : (c.put f v).voteEnd = c.voteEnd := rfl
@[simp] theorem chip_put_cnt (c : Chip) (f : Field) (v : Nat) : (c.put f v).cnt = c.cnt := rfl
@[simp] theorem chip_put_hits (c : Chip) (f : Field) (v : Nat) : (c.put f v).hits = c.hits := rfl
@[simp] theorem chip_put_jrn (c : Chip) (f : Field) (v : Nat) : (c.put f v).jrn = c.jrn := rfl
@[simp] theorem chip_put_cfg (c : Chip) (f : Field) (v : Nat) : (c.put f v).cfg = c.cfg := rfl
@[simp] theorem chip_put_key (c : Chip) (f : Field) (v : Nat) : (c.put f v).key = c.key := rfl
@[simp] theorem chip_put_alm (c : Chip) (f : Field) (v : Nat) : (c.put f v).alm = c.alm := rfl

@[simp] theorem chip_flag_regs (c : Chip) (f : Field) : (c.flag f).regs = c.regs.put f 1 := rfl
@[simp] theorem chip_flag_now (c : Chip) (f : Field) : (c.flag f).now = c.now := rfl
@[simp] theorem chip_flag_subns (c : Chip) (f : Field) : (c.flag f).subns = c.subns := rfl
@[simp] theorem chip_flag_freeCount (c : Chip) (f : Field) : (c.flag f).freeCount = c.freeCount := rfl
@[simp] theorem chip_flag_outbox (c : Chip) (f : Field) : (c.flag f).outbox = c.outbox := rfl
@[simp] theorem chip_flag_rst (c : Chip) (f : Field) : (c.flag f).rst = c.rst := rfl
@[simp] theorem chip_flag_trk (c : Chip) (f : Field) : (c.flag f).trk = c.trk := rfl
@[simp] theorem chip_flag_pcs (c : Chip) (f : Field) : (c.flag f).pcs = c.pcs := rfl
@[simp] theorem chip_flag_lnk (c : Chip) (f : Field) : (c.flag f).lnk = c.lnk := rfl
@[simp] theorem chip_flag_tp (c : Chip) (f : Field) : (c.flag f).tp = c.tp := rfl
@[simp] theorem chip_flag_fab (c : Chip) (f : Field) : (c.flag f).fab = c.fab := rfl
@[simp] theorem chip_flag_swc (c : Chip) (f : Field) : (c.flag f).swc = c.swc := rfl
@[simp] theorem chip_flag_sch (c : Chip) (f : Field) : (c.flag f).sch = c.sch := rfl
@[simp] theorem chip_flag_bud (c : Chip) (f : Field) : (c.flag f).bud = c.bud := rfl
@[simp] theorem chip_flag_usb (c : Chip) (f : Field) : (c.flag f).usb = c.usb := rfl
@[simp] theorem chip_flag_win (c : Chip) (f : Field) : (c.flag f).win = c.win := rfl
@[simp] theorem chip_flag_vid (c : Chip) (f : Field) : (c.flag f).vid = c.vid := rfl
@[simp] theorem chip_flag_eth (c : Chip) (f : Field) : (c.flag f).eth = c.eth := rfl
@[simp] theorem chip_flag_fld (c : Chip) (f : Field) : (c.flag f).fld = c.fld := rfl
@[simp] theorem chip_flag_pwr (c : Chip) (f : Field) : (c.flag f).pwr = c.pwr := rfl
@[simp] theorem chip_flag_lkp (c : Chip) (f : Field) : (c.flag f).lkp = c.lkp := rfl
@[simp] theorem chip_flag_pst (c : Chip) (f : Field) : (c.flag f).pst = c.pst := rfl
@[simp] theorem chip_flag_voteEnd (c : Chip) (f : Field) : (c.flag f).voteEnd = c.voteEnd := rfl
@[simp] theorem chip_flag_cnt (c : Chip) (f : Field) : (c.flag f).cnt = c.cnt := rfl
@[simp] theorem chip_flag_hits (c : Chip) (f : Field) : (c.flag f).hits = c.hits ++ [32 * f.off + f.lo] := rfl
@[simp] theorem chip_flag_jrn (c : Chip) (f : Field) : (c.flag f).jrn = c.jrn := rfl
@[simp] theorem chip_flag_cfg (c : Chip) (f : Field) : (c.flag f).cfg = c.cfg := rfl
@[simp] theorem chip_flag_key (c : Chip) (f : Field) : (c.flag f).key = c.key := rfl
@[simp] theorem chip_flag_alm (c : Chip) (f : Field) : (c.flag f).alm = c.alm := rfl

@[simp] theorem chip_emit_regs (c : Chip) (o : Out) : (c.emit o).regs = c.regs := rfl
@[simp] theorem chip_emit_now (c : Chip) (o : Out) : (c.emit o).now = c.now := rfl
@[simp] theorem chip_emit_subns (c : Chip) (o : Out) : (c.emit o).subns = c.subns := rfl
@[simp] theorem chip_emit_freeCount (c : Chip) (o : Out) : (c.emit o).freeCount = c.freeCount := rfl
@[simp] theorem chip_emit_outbox (c : Chip) (o : Out) : (c.emit o).outbox = c.outbox ++ [o] := rfl
@[simp] theorem chip_emit_rst (c : Chip) (o : Out) : (c.emit o).rst = c.rst := rfl
@[simp] theorem chip_emit_trk (c : Chip) (o : Out) : (c.emit o).trk = c.trk := rfl
@[simp] theorem chip_emit_pcs (c : Chip) (o : Out) : (c.emit o).pcs = c.pcs := rfl
@[simp] theorem chip_emit_lnk (c : Chip) (o : Out) : (c.emit o).lnk = c.lnk := rfl
@[simp] theorem chip_emit_tp (c : Chip) (o : Out) : (c.emit o).tp = c.tp := rfl
@[simp] theorem chip_emit_fab (c : Chip) (o : Out) : (c.emit o).fab = c.fab := rfl
@[simp] theorem chip_emit_swc (c : Chip) (o : Out) : (c.emit o).swc = c.swc := rfl
@[simp] theorem chip_emit_sch (c : Chip) (o : Out) : (c.emit o).sch = c.sch := rfl
@[simp] theorem chip_emit_bud (c : Chip) (o : Out) : (c.emit o).bud = c.bud := rfl
@[simp] theorem chip_emit_usb (c : Chip) (o : Out) : (c.emit o).usb = c.usb := rfl
@[simp] theorem chip_emit_win (c : Chip) (o : Out) : (c.emit o).win = c.win := rfl
@[simp] theorem chip_emit_vid (c : Chip) (o : Out) : (c.emit o).vid = c.vid := rfl
@[simp] theorem chip_emit_eth (c : Chip) (o : Out) : (c.emit o).eth = c.eth := rfl
@[simp] theorem chip_emit_fld (c : Chip) (o : Out) : (c.emit o).fld = c.fld := rfl
@[simp] theorem chip_emit_pwr (c : Chip) (o : Out) : (c.emit o).pwr = c.pwr := rfl
@[simp] theorem chip_emit_lkp (c : Chip) (o : Out) : (c.emit o).lkp = c.lkp := rfl
@[simp] theorem chip_emit_pst (c : Chip) (o : Out) : (c.emit o).pst = c.pst := rfl
@[simp] theorem chip_emit_voteEnd (c : Chip) (o : Out) : (c.emit o).voteEnd = c.voteEnd := rfl
@[simp] theorem chip_emit_cnt (c : Chip) (o : Out) : (c.emit o).cnt = c.cnt := rfl
@[simp] theorem chip_emit_hits (c : Chip) (o : Out) : (c.emit o).hits = c.hits := rfl
@[simp] theorem chip_emit_jrn (c : Chip) (o : Out) : (c.emit o).jrn = c.jrn := rfl
@[simp] theorem chip_emit_cfg (c : Chip) (o : Out) : (c.emit o).cfg = c.cfg := rfl
@[simp] theorem chip_emit_key (c : Chip) (o : Out) : (c.emit o).key = c.key := rfl
@[simp] theorem chip_emit_alm (c : Chip) (o : Out) : (c.emit o).alm = c.alm := rfl

@[simp] theorem chip_modTrk_regs (c : Chip) (p : Port) (g : Trk → Trk) : (c.modTrk p g).regs = c.regs := rfl
@[simp] theorem chip_modTrk_now (c : Chip) (p : Port) (g : Trk → Trk) : (c.modTrk p g).now = c.now := rfl
@[simp] theorem chip_modTrk_subns (c : Chip) (p : Port) (g : Trk → Trk) : (c.modTrk p g).subns = c.subns := rfl
@[simp] theorem chip_modTrk_freeCount (c : Chip) (p : Port) (g : Trk → Trk) : (c.modTrk p g).freeCount = c.freeCount := rfl
@[simp] theorem chip_modTrk_outbox (c : Chip) (p : Port) (g : Trk → Trk) : (c.modTrk p g).outbox = c.outbox := rfl
@[simp] theorem chip_modTrk_rst (c : Chip) (p : Port) (g : Trk → Trk) : (c.modTrk p g).rst = c.rst := rfl
@[simp] theorem chip_modTrk_trk (c : Chip) (p : Port) (g : Trk → Trk) : (c.modTrk p g).trk = upd c.trk p g := rfl
@[simp] theorem chip_modTrk_pcs (c : Chip) (p : Port) (g : Trk → Trk) : (c.modTrk p g).pcs = c.pcs := rfl
@[simp] theorem chip_modTrk_lnk (c : Chip) (p : Port) (g : Trk → Trk) : (c.modTrk p g).lnk = c.lnk := rfl
@[simp] theorem chip_modTrk_tp (c : Chip) (p : Port) (g : Trk → Trk) : (c.modTrk p g).tp = c.tp := rfl
@[simp] theorem chip_modTrk_fab (c : Chip) (p : Port) (g : Trk → Trk) : (c.modTrk p g).fab = c.fab := rfl
@[simp] theorem chip_modTrk_swc (c : Chip) (p : Port) (g : Trk → Trk) : (c.modTrk p g).swc = c.swc := rfl
@[simp] theorem chip_modTrk_sch (c : Chip) (p : Port) (g : Trk → Trk) : (c.modTrk p g).sch = c.sch := rfl
@[simp] theorem chip_modTrk_bud (c : Chip) (p : Port) (g : Trk → Trk) : (c.modTrk p g).bud = c.bud := rfl
@[simp] theorem chip_modTrk_usb (c : Chip) (p : Port) (g : Trk → Trk) : (c.modTrk p g).usb = c.usb := rfl
@[simp] theorem chip_modTrk_win (c : Chip) (p : Port) (g : Trk → Trk) : (c.modTrk p g).win = c.win := rfl
@[simp] theorem chip_modTrk_vid (c : Chip) (p : Port) (g : Trk → Trk) : (c.modTrk p g).vid = c.vid := rfl
@[simp] theorem chip_modTrk_eth (c : Chip) (p : Port) (g : Trk → Trk) : (c.modTrk p g).eth = c.eth := rfl
@[simp] theorem chip_modTrk_fld (c : Chip) (p : Port) (g : Trk → Trk) : (c.modTrk p g).fld = c.fld := rfl
@[simp] theorem chip_modTrk_pwr (c : Chip) (p : Port) (g : Trk → Trk) : (c.modTrk p g).pwr = c.pwr := rfl
@[simp] theorem chip_modTrk_lkp (c : Chip) (p : Port) (g : Trk → Trk) : (c.modTrk p g).lkp = c.lkp := rfl
@[simp] theorem chip_modTrk_pst (c : Chip) (p : Port) (g : Trk → Trk) : (c.modTrk p g).pst = c.pst := rfl
@[simp] theorem chip_modTrk_voteEnd (c : Chip) (p : Port) (g : Trk → Trk) : (c.modTrk p g).voteEnd = c.voteEnd := rfl
@[simp] theorem chip_modTrk_cnt (c : Chip) (p : Port) (g : Trk → Trk) : (c.modTrk p g).cnt = c.cnt := rfl
@[simp] theorem chip_modTrk_hits (c : Chip) (p : Port) (g : Trk → Trk) : (c.modTrk p g).hits = c.hits := rfl
@[simp] theorem chip_modTrk_jrn (c : Chip) (p : Port) (g : Trk → Trk) : (c.modTrk p g).jrn = c.jrn := rfl
@[simp] theorem chip_modTrk_cfg (c : Chip) (p : Port) (g : Trk → Trk) : (c.modTrk p g).cfg = c.cfg := rfl
@[simp] theorem chip_modTrk_key (c : Chip) (p : Port) (g : Trk → Trk) : (c.modTrk p g).key = c.key := rfl
@[simp] theorem chip_modTrk_alm (c : Chip) (p : Port) (g : Trk → Trk) : (c.modTrk p g).alm = c.alm := rfl

@[simp] theorem chip_modPcs_regs (c : Chip) (p : Port) (g : Pcs → Pcs) : (c.modPcs p g).regs = c.regs := rfl
@[simp] theorem chip_modPcs_now (c : Chip) (p : Port) (g : Pcs → Pcs) : (c.modPcs p g).now = c.now := rfl
@[simp] theorem chip_modPcs_subns (c : Chip) (p : Port) (g : Pcs → Pcs) : (c.modPcs p g).subns = c.subns := rfl
@[simp] theorem chip_modPcs_freeCount (c : Chip) (p : Port) (g : Pcs → Pcs) : (c.modPcs p g).freeCount = c.freeCount := rfl
@[simp] theorem chip_modPcs_outbox (c : Chip) (p : Port) (g : Pcs → Pcs) : (c.modPcs p g).outbox = c.outbox := rfl
@[simp] theorem chip_modPcs_rst (c : Chip) (p : Port) (g : Pcs → Pcs) : (c.modPcs p g).rst = c.rst := rfl
@[simp] theorem chip_modPcs_trk (c : Chip) (p : Port) (g : Pcs → Pcs) : (c.modPcs p g).trk = c.trk := rfl
@[simp] theorem chip_modPcs_pcs (c : Chip) (p : Port) (g : Pcs → Pcs) : (c.modPcs p g).pcs = upd c.pcs p g := rfl
@[simp] theorem chip_modPcs_lnk (c : Chip) (p : Port) (g : Pcs → Pcs) : (c.modPcs p g).lnk = c.lnk := rfl
@[simp] theorem chip_modPcs_tp (c : Chip) (p : Port) (g : Pcs → Pcs) : (c.modPcs p g).tp = c.tp := rfl
@[simp] theorem chip_modPcs_fab (c : Chip) (p : Port) (g : Pcs → Pcs) : (c.modPcs p g).fab = c.fab := rfl
@[simp] theorem chip_modPcs_swc (c : Chip) (p : Port) (g : Pcs → Pcs) : (c.modPcs p g).swc = c.swc := rfl
@[simp] theorem chip_modPcs_sch (c : Chip) (p : Port) (g : Pcs → Pcs) : (c.modPcs p g).sch = c.sch := rfl
@[simp] theorem chip_modPcs_bud (c : Chip) (p : Port) (g : Pcs → Pcs) : (c.modPcs p g).bud = c.bud := rfl
@[simp] theorem chip_modPcs_usb (c : Chip) (p : Port) (g : Pcs → Pcs) : (c.modPcs p g).usb = c.usb := rfl
@[simp] theorem chip_modPcs_win (c : Chip) (p : Port) (g : Pcs → Pcs) : (c.modPcs p g).win = c.win := rfl
@[simp] theorem chip_modPcs_vid (c : Chip) (p : Port) (g : Pcs → Pcs) : (c.modPcs p g).vid = c.vid := rfl
@[simp] theorem chip_modPcs_eth (c : Chip) (p : Port) (g : Pcs → Pcs) : (c.modPcs p g).eth = c.eth := rfl
@[simp] theorem chip_modPcs_fld (c : Chip) (p : Port) (g : Pcs → Pcs) : (c.modPcs p g).fld = c.fld := rfl
@[simp] theorem chip_modPcs_pwr (c : Chip) (p : Port) (g : Pcs → Pcs) : (c.modPcs p g).pwr = c.pwr := rfl
@[simp] theorem chip_modPcs_lkp (c : Chip) (p : Port) (g : Pcs → Pcs) : (c.modPcs p g).lkp = c.lkp := rfl
@[simp] theorem chip_modPcs_pst (c : Chip) (p : Port) (g : Pcs → Pcs) : (c.modPcs p g).pst = c.pst := rfl
@[simp] theorem chip_modPcs_voteEnd (c : Chip) (p : Port) (g : Pcs → Pcs) : (c.modPcs p g).voteEnd = c.voteEnd := rfl
@[simp] theorem chip_modPcs_cnt (c : Chip) (p : Port) (g : Pcs → Pcs) : (c.modPcs p g).cnt = c.cnt := rfl
@[simp] theorem chip_modPcs_hits (c : Chip) (p : Port) (g : Pcs → Pcs) : (c.modPcs p g).hits = c.hits := rfl
@[simp] theorem chip_modPcs_jrn (c : Chip) (p : Port) (g : Pcs → Pcs) : (c.modPcs p g).jrn = c.jrn := rfl
@[simp] theorem chip_modPcs_cfg (c : Chip) (p : Port) (g : Pcs → Pcs) : (c.modPcs p g).cfg = c.cfg := rfl
@[simp] theorem chip_modPcs_key (c : Chip) (p : Port) (g : Pcs → Pcs) : (c.modPcs p g).key = c.key := rfl
@[simp] theorem chip_modPcs_alm (c : Chip) (p : Port) (g : Pcs → Pcs) : (c.modPcs p g).alm = c.alm := rfl

@[simp] theorem chip_modLnk_regs (c : Chip) (p : Port) (g : Lnk → Lnk) : (c.modLnk p g).regs = c.regs := rfl
@[simp] theorem chip_modLnk_now (c : Chip) (p : Port) (g : Lnk → Lnk) : (c.modLnk p g).now = c.now := rfl
@[simp] theorem chip_modLnk_subns (c : Chip) (p : Port) (g : Lnk → Lnk) : (c.modLnk p g).subns = c.subns := rfl
@[simp] theorem chip_modLnk_freeCount (c : Chip) (p : Port) (g : Lnk → Lnk) : (c.modLnk p g).freeCount = c.freeCount := rfl
@[simp] theorem chip_modLnk_outbox (c : Chip) (p : Port) (g : Lnk → Lnk) : (c.modLnk p g).outbox = c.outbox := rfl
@[simp] theorem chip_modLnk_rst (c : Chip) (p : Port) (g : Lnk → Lnk) : (c.modLnk p g).rst = c.rst := rfl
@[simp] theorem chip_modLnk_trk (c : Chip) (p : Port) (g : Lnk → Lnk) : (c.modLnk p g).trk = c.trk := rfl
@[simp] theorem chip_modLnk_pcs (c : Chip) (p : Port) (g : Lnk → Lnk) : (c.modLnk p g).pcs = c.pcs := rfl
@[simp] theorem chip_modLnk_lnk (c : Chip) (p : Port) (g : Lnk → Lnk) : (c.modLnk p g).lnk = upd c.lnk p g := rfl
@[simp] theorem chip_modLnk_tp (c : Chip) (p : Port) (g : Lnk → Lnk) : (c.modLnk p g).tp = c.tp := rfl
@[simp] theorem chip_modLnk_fab (c : Chip) (p : Port) (g : Lnk → Lnk) : (c.modLnk p g).fab = c.fab := rfl
@[simp] theorem chip_modLnk_swc (c : Chip) (p : Port) (g : Lnk → Lnk) : (c.modLnk p g).swc = c.swc := rfl
@[simp] theorem chip_modLnk_sch (c : Chip) (p : Port) (g : Lnk → Lnk) : (c.modLnk p g).sch = c.sch := rfl
@[simp] theorem chip_modLnk_bud (c : Chip) (p : Port) (g : Lnk → Lnk) : (c.modLnk p g).bud = c.bud := rfl
@[simp] theorem chip_modLnk_usb (c : Chip) (p : Port) (g : Lnk → Lnk) : (c.modLnk p g).usb = c.usb := rfl
@[simp] theorem chip_modLnk_win (c : Chip) (p : Port) (g : Lnk → Lnk) : (c.modLnk p g).win = c.win := rfl
@[simp] theorem chip_modLnk_vid (c : Chip) (p : Port) (g : Lnk → Lnk) : (c.modLnk p g).vid = c.vid := rfl
@[simp] theorem chip_modLnk_eth (c : Chip) (p : Port) (g : Lnk → Lnk) : (c.modLnk p g).eth = c.eth := rfl
@[simp] theorem chip_modLnk_fld (c : Chip) (p : Port) (g : Lnk → Lnk) : (c.modLnk p g).fld = c.fld := rfl
@[simp] theorem chip_modLnk_pwr (c : Chip) (p : Port) (g : Lnk → Lnk) : (c.modLnk p g).pwr = c.pwr := rfl
@[simp] theorem chip_modLnk_lkp (c : Chip) (p : Port) (g : Lnk → Lnk) : (c.modLnk p g).lkp = c.lkp := rfl
@[simp] theorem chip_modLnk_pst (c : Chip) (p : Port) (g : Lnk → Lnk) : (c.modLnk p g).pst = c.pst := rfl
@[simp] theorem chip_modLnk_voteEnd (c : Chip) (p : Port) (g : Lnk → Lnk) : (c.modLnk p g).voteEnd = c.voteEnd := rfl
@[simp] theorem chip_modLnk_cnt (c : Chip) (p : Port) (g : Lnk → Lnk) : (c.modLnk p g).cnt = c.cnt := rfl
@[simp] theorem chip_modLnk_hits (c : Chip) (p : Port) (g : Lnk → Lnk) : (c.modLnk p g).hits = c.hits := rfl
@[simp] theorem chip_modLnk_jrn (c : Chip) (p : Port) (g : Lnk → Lnk) : (c.modLnk p g).jrn = c.jrn := rfl
@[simp] theorem chip_modLnk_cfg (c : Chip) (p : Port) (g : Lnk → Lnk) : (c.modLnk p g).cfg = c.cfg := rfl
@[simp] theorem chip_modLnk_key (c : Chip) (p : Port) (g : Lnk → Lnk) : (c.modLnk p g).key = c.key := rfl
@[simp] theorem chip_modLnk_alm (c : Chip) (p : Port) (g : Lnk → Lnk) : (c.modLnk p g).alm = c.alm := rfl

@[simp] theorem chip_modTp_regs (c : Chip) (p : Port) (g : Tp → Tp) : (c.modTp p g).regs = c.regs := rfl
@[simp] theorem chip_modTp_now (c : Chip) (p : Port) (g : Tp → Tp) : (c.modTp p g).now = c.now := rfl
@[simp] theorem chip_modTp_subns (c : Chip) (p : Port) (g : Tp → Tp) : (c.modTp p g).subns = c.subns := rfl
@[simp] theorem chip_modTp_freeCount (c : Chip) (p : Port) (g : Tp → Tp) : (c.modTp p g).freeCount = c.freeCount := rfl
@[simp] theorem chip_modTp_outbox (c : Chip) (p : Port) (g : Tp → Tp) : (c.modTp p g).outbox = c.outbox := rfl
@[simp] theorem chip_modTp_rst (c : Chip) (p : Port) (g : Tp → Tp) : (c.modTp p g).rst = c.rst := rfl
@[simp] theorem chip_modTp_trk (c : Chip) (p : Port) (g : Tp → Tp) : (c.modTp p g).trk = c.trk := rfl
@[simp] theorem chip_modTp_pcs (c : Chip) (p : Port) (g : Tp → Tp) : (c.modTp p g).pcs = c.pcs := rfl
@[simp] theorem chip_modTp_lnk (c : Chip) (p : Port) (g : Tp → Tp) : (c.modTp p g).lnk = c.lnk := rfl
@[simp] theorem chip_modTp_tp (c : Chip) (p : Port) (g : Tp → Tp) : (c.modTp p g).tp = upd c.tp p g := rfl
@[simp] theorem chip_modTp_fab (c : Chip) (p : Port) (g : Tp → Tp) : (c.modTp p g).fab = c.fab := rfl
@[simp] theorem chip_modTp_swc (c : Chip) (p : Port) (g : Tp → Tp) : (c.modTp p g).swc = c.swc := rfl
@[simp] theorem chip_modTp_sch (c : Chip) (p : Port) (g : Tp → Tp) : (c.modTp p g).sch = c.sch := rfl
@[simp] theorem chip_modTp_bud (c : Chip) (p : Port) (g : Tp → Tp) : (c.modTp p g).bud = c.bud := rfl
@[simp] theorem chip_modTp_usb (c : Chip) (p : Port) (g : Tp → Tp) : (c.modTp p g).usb = c.usb := rfl
@[simp] theorem chip_modTp_win (c : Chip) (p : Port) (g : Tp → Tp) : (c.modTp p g).win = c.win := rfl
@[simp] theorem chip_modTp_vid (c : Chip) (p : Port) (g : Tp → Tp) : (c.modTp p g).vid = c.vid := rfl
@[simp] theorem chip_modTp_eth (c : Chip) (p : Port) (g : Tp → Tp) : (c.modTp p g).eth = c.eth := rfl
@[simp] theorem chip_modTp_fld (c : Chip) (p : Port) (g : Tp → Tp) : (c.modTp p g).fld = c.fld := rfl
@[simp] theorem chip_modTp_pwr (c : Chip) (p : Port) (g : Tp → Tp) : (c.modTp p g).pwr = c.pwr := rfl
@[simp] theorem chip_modTp_lkp (c : Chip) (p : Port) (g : Tp → Tp) : (c.modTp p g).lkp = c.lkp := rfl
@[simp] theorem chip_modTp_pst (c : Chip) (p : Port) (g : Tp → Tp) : (c.modTp p g).pst = c.pst := rfl
@[simp] theorem chip_modTp_voteEnd (c : Chip) (p : Port) (g : Tp → Tp) : (c.modTp p g).voteEnd = c.voteEnd := rfl
@[simp] theorem chip_modTp_cnt (c : Chip) (p : Port) (g : Tp → Tp) : (c.modTp p g).cnt = c.cnt := rfl
@[simp] theorem chip_modTp_hits (c : Chip) (p : Port) (g : Tp → Tp) : (c.modTp p g).hits = c.hits := rfl
@[simp] theorem chip_modTp_jrn (c : Chip) (p : Port) (g : Tp → Tp) : (c.modTp p g).jrn = c.jrn := rfl
@[simp] theorem chip_modTp_cfg (c : Chip) (p : Port) (g : Tp → Tp) : (c.modTp p g).cfg = c.cfg := rfl
@[simp] theorem chip_modTp_key (c : Chip) (p : Port) (g : Tp → Tp) : (c.modTp p g).key = c.key := rfl
@[simp] theorem chip_modTp_alm (c : Chip) (p : Port) (g : Tp → Tp) : (c.modTp p g).alm = c.alm := rfl

@[simp] theorem chip_keyCount_regs (c : Chip) (n : Nat) : (c.keyCount n).regs = c.regs := rfl
@[simp] theorem chip_keyCount_now (c : Chip) (n : Nat) : (c.keyCount n).now = c.now := rfl
@[simp] theorem chip_keyCount_subns (c : Chip) (n : Nat) : (c.keyCount n).subns = c.subns := rfl
@[simp] theorem chip_keyCount_freeCount (c : Chip) (n : Nat) : (c.keyCount n).freeCount = c.freeCount := rfl
@[simp] theorem chip_keyCount_outbox (c : Chip) (n : Nat) : (c.keyCount n).outbox = c.outbox := rfl
@[simp] theorem chip_keyCount_rst (c : Chip) (n : Nat) : (c.keyCount n).rst = c.rst := rfl
@[simp] theorem chip_keyCount_trk (c : Chip) (n : Nat) : (c.keyCount n).trk = c.trk := rfl
@[simp] theorem chip_keyCount_pcs (c : Chip) (n : Nat) : (c.keyCount n).pcs = c.pcs := rfl
@[simp] theorem chip_keyCount_lnk (c : Chip) (n : Nat) : (c.keyCount n).lnk = c.lnk := rfl
@[simp] theorem chip_keyCount_tp (c : Chip) (n : Nat) : (c.keyCount n).tp = c.tp := rfl
@[simp] theorem chip_keyCount_fab (c : Chip) (n : Nat) : (c.keyCount n).fab = c.fab := rfl
@[simp] theorem chip_keyCount_swc (c : Chip) (n : Nat) : (c.keyCount n).swc = c.swc := rfl
@[simp] theorem chip_keyCount_sch (c : Chip) (n : Nat) : (c.keyCount n).sch = c.sch := rfl
@[simp] theorem chip_keyCount_bud (c : Chip) (n : Nat) : (c.keyCount n).bud = c.bud := rfl
@[simp] theorem chip_keyCount_usb (c : Chip) (n : Nat) : (c.keyCount n).usb = c.usb := rfl
@[simp] theorem chip_keyCount_win (c : Chip) (n : Nat) : (c.keyCount n).win = c.win := rfl
@[simp] theorem chip_keyCount_vid (c : Chip) (n : Nat) : (c.keyCount n).vid = c.vid := rfl
@[simp] theorem chip_keyCount_eth (c : Chip) (n : Nat) : (c.keyCount n).eth = c.eth := rfl
@[simp] theorem chip_keyCount_fld (c : Chip) (n : Nat) : (c.keyCount n).fld = c.fld := rfl
@[simp] theorem chip_keyCount_pwr (c : Chip) (n : Nat) : (c.keyCount n).pwr = c.pwr := rfl
@[simp] theorem chip_keyCount_lkp (c : Chip) (n : Nat) : (c.keyCount n).lkp = c.lkp := rfl
@[simp] theorem chip_keyCount_pst (c : Chip) (n : Nat) : (c.keyCount n).pst = c.pst := rfl
@[simp] theorem chip_keyCount_voteEnd (c : Chip) (n : Nat) : (c.keyCount n).voteEnd = c.voteEnd := rfl
@[simp] theorem chip_keyCount_cnt (c : Chip) (n : Nat) : (c.keyCount n).cnt = c.cnt.advance n 1 := rfl
@[simp] theorem chip_keyCount_hits (c : Chip) (n : Nat) : (c.keyCount n).hits = c.hits := rfl
@[simp] theorem chip_keyCount_jrn (c : Chip) (n : Nat) : (c.keyCount n).jrn = c.jrn := rfl
@[simp] theorem chip_keyCount_cfg (c : Chip) (n : Nat) : (c.keyCount n).cfg = c.cfg := rfl
@[simp] theorem chip_keyCount_key (c : Chip) (n : Nat) : (c.keyCount n).key = c.key := rfl
@[simp] theorem chip_keyCount_alm (c : Chip) (n : Nat) : (c.keyCount n).alm = c.alm := rfl

@[simp] theorem chip_draw_regs (c : Chip) (n : Nat) : ((c.draw n).2).regs = c.regs := rfl
@[simp] theorem chip_draw_now (c : Chip) (n : Nat) : ((c.draw n).2).now = c.now := rfl
@[simp] theorem chip_draw_subns (c : Chip) (n : Nat) : ((c.draw n).2).subns = c.subns := rfl
@[simp] theorem chip_draw_freeCount (c : Chip) (n : Nat) : ((c.draw n).2).freeCount = c.freeCount + 1 := rfl
@[simp] theorem chip_draw_outbox (c : Chip) (n : Nat) : ((c.draw n).2).outbox = c.outbox := rfl
@[simp] theorem chip_draw_rst (c : Chip) (n : Nat) : ((c.draw n).2).rst = c.rst := rfl
@[simp] theorem chip_draw_trk (c : Chip) (n : Nat) : ((c.draw n).2).trk = c.trk := rfl
@[simp] theorem chip_draw_pcs (c : Chip) (n : Nat) : ((c.draw n).2).pcs = c.pcs := rfl
@[simp] theorem chip_draw_lnk (c : Chip) (n : Nat) : ((c.draw n).2).lnk = c.lnk := rfl
@[simp] theorem chip_draw_tp (c : Chip) (n : Nat) : ((c.draw n).2).tp = c.tp := rfl
@[simp] theorem chip_draw_fab (c : Chip) (n : Nat) : ((c.draw n).2).fab = c.fab := rfl
@[simp] theorem chip_draw_swc (c : Chip) (n : Nat) : ((c.draw n).2).swc = c.swc := rfl
@[simp] theorem chip_draw_sch (c : Chip) (n : Nat) : ((c.draw n).2).sch = c.sch := rfl
@[simp] theorem chip_draw_bud (c : Chip) (n : Nat) : ((c.draw n).2).bud = c.bud := rfl
@[simp] theorem chip_draw_usb (c : Chip) (n : Nat) : ((c.draw n).2).usb = c.usb := rfl
@[simp] theorem chip_draw_win (c : Chip) (n : Nat) : ((c.draw n).2).win = c.win := rfl
@[simp] theorem chip_draw_vid (c : Chip) (n : Nat) : ((c.draw n).2).vid = c.vid := rfl
@[simp] theorem chip_draw_eth (c : Chip) (n : Nat) : ((c.draw n).2).eth = c.eth := rfl
@[simp] theorem chip_draw_fld (c : Chip) (n : Nat) : ((c.draw n).2).fld = c.fld := rfl
@[simp] theorem chip_draw_pwr (c : Chip) (n : Nat) : ((c.draw n).2).pwr = c.pwr := rfl
@[simp] theorem chip_draw_lkp (c : Chip) (n : Nat) : ((c.draw n).2).lkp = c.lkp := rfl
@[simp] theorem chip_draw_pst (c : Chip) (n : Nat) : ((c.draw n).2).pst = c.pst := rfl
@[simp] theorem chip_draw_voteEnd (c : Chip) (n : Nat) : ((c.draw n).2).voteEnd = c.voteEnd := rfl
@[simp] theorem chip_draw_cnt (c : Chip) (n : Nat) : ((c.draw n).2).cnt = c.cnt := rfl
@[simp] theorem chip_draw_hits (c : Chip) (n : Nat) : ((c.draw n).2).hits = c.hits := rfl
@[simp] theorem chip_draw_jrn (c : Chip) (n : Nat) : ((c.draw n).2).jrn = c.jrn := rfl
@[simp] theorem chip_draw_cfg (c : Chip) (n : Nat) : ((c.draw n).2).cfg = c.cfg := rfl
@[simp] theorem chip_draw_key (c : Chip) (n : Nat) : ((c.draw n).2).key = c.key := rfl
@[simp] theorem chip_draw_alm (c : Chip) (n : Nat) : ((c.draw n).2).alm = c.alm := rfl

@[simp] theorem chip_drawKey_regs (c : Chip) : (c.drawKey.2).regs = c.regs := rfl
@[simp] theorem chip_drawKey_now (c : Chip) : (c.drawKey.2).now = c.now := rfl
@[simp] theorem chip_drawKey_subns (c : Chip) : (c.drawKey.2).subns = c.subns := rfl
@[simp] theorem chip_drawKey_freeCount (c : Chip) : (c.drawKey.2).freeCount = c.freeCount + 1 := rfl
@[simp] theorem chip_drawKey_outbox (c : Chip) : (c.drawKey.2).outbox = c.outbox := rfl
@[simp] theorem chip_drawKey_rst (c : Chip) : (c.drawKey.2).rst = c.rst := rfl
@[simp] theorem chip_drawKey_trk (c : Chip) : (c.drawKey.2).trk = c.trk := rfl
@[simp] theorem chip_drawKey_pcs (c : Chip) : (c.drawKey.2).pcs = c.pcs := rfl
@[simp] theorem chip_drawKey_lnk (c : Chip) : (c.drawKey.2).lnk = c.lnk := rfl
@[simp] theorem chip_drawKey_tp (c : Chip) : (c.drawKey.2).tp = c.tp := rfl
@[simp] theorem chip_drawKey_fab (c : Chip) : (c.drawKey.2).fab = c.fab := rfl
@[simp] theorem chip_drawKey_swc (c : Chip) : (c.drawKey.2).swc = c.swc := rfl
@[simp] theorem chip_drawKey_sch (c : Chip) : (c.drawKey.2).sch = c.sch := rfl
@[simp] theorem chip_drawKey_bud (c : Chip) : (c.drawKey.2).bud = c.bud := rfl
@[simp] theorem chip_drawKey_usb (c : Chip) : (c.drawKey.2).usb = c.usb := rfl
@[simp] theorem chip_drawKey_win (c : Chip) : (c.drawKey.2).win = c.win := rfl
@[simp] theorem chip_drawKey_vid (c : Chip) : (c.drawKey.2).vid = c.vid := rfl
@[simp] theorem chip_drawKey_eth (c : Chip) : (c.drawKey.2).eth = c.eth := rfl
@[simp] theorem chip_drawKey_fld (c : Chip) : (c.drawKey.2).fld = c.fld := rfl
@[simp] theorem chip_drawKey_pwr (c : Chip) : (c.drawKey.2).pwr = c.pwr := rfl
@[simp] theorem chip_drawKey_lkp (c : Chip) : (c.drawKey.2).lkp = c.lkp := rfl
@[simp] theorem chip_drawKey_pst (c : Chip) : (c.drawKey.2).pst = c.pst := rfl
@[simp] theorem chip_drawKey_voteEnd (c : Chip) : (c.drawKey.2).voteEnd = c.voteEnd := rfl
@[simp] theorem chip_drawKey_cnt (c : Chip) : (c.drawKey.2).cnt = c.cnt := rfl
@[simp] theorem chip_drawKey_hits (c : Chip) : (c.drawKey.2).hits = c.hits := rfl
@[simp] theorem chip_drawKey_jrn (c : Chip) : (c.drawKey.2).jrn = c.jrn := rfl
@[simp] theorem chip_drawKey_cfg (c : Chip) : (c.drawKey.2).cfg = c.cfg := rfl
@[simp] theorem chip_drawKey_key (c : Chip) : (c.drawKey.2).key = { c.key with seed := some (Config.entropy c.freeCount) } := rfl
@[simp] theorem chip_drawKey_alm (c : Chip) : (c.drawKey.2).alm = c.alm := rfl

/-! The HV die. -/

@[simp] theorem hv_put_regs (v : Hv) (f : Field) (x : Nat) : (v.put f x).regs = v.regs.put f x := rfl
@[simp] theorem hv_put_lockout (v : Hv) (f : Field) (x : Nat) : (v.put f x).lockout = v.lockout := rfl
@[simp] theorem hv_put_vrail (v : Hv) (f : Field) (x : Nat) : (v.put f x).vrail = v.vrail := rfl
@[simp] theorem hv_put_prefFrom (v : Hv) (f : Field) (x : Nat) : (v.put f x).prefFrom = v.prefFrom := rfl
@[simp] theorem hv_put_tpw (v : Hv) (f : Field) (x : Nat) : (v.put f x).tpw = v.tpw := rfl
@[simp] theorem hv_put_ldc (v : Hv) (f : Field) (x : Nat) : (v.put f x).ldc = v.ldc := rfl
@[simp] theorem hv_put_hits (v : Hv) (f : Field) (x : Nat) : (v.put f x).hits = v.hits := rfl

@[simp] theorem hv_flag_regs (v : Hv) (f : Field) : (v.flag f).regs = v.regs.put f 1 := rfl
@[simp] theorem hv_flag_lockout (v : Hv) (f : Field) : (v.flag f).lockout = v.lockout := rfl
@[simp] theorem hv_flag_vrail (v : Hv) (f : Field) : (v.flag f).vrail = v.vrail := rfl
@[simp] theorem hv_flag_prefFrom (v : Hv) (f : Field) : (v.flag f).prefFrom = v.prefFrom := rfl
@[simp] theorem hv_flag_tpw (v : Hv) (f : Field) : (v.flag f).tpw = v.tpw := rfl
@[simp] theorem hv_flag_ldc (v : Hv) (f : Field) : (v.flag f).ldc = v.ldc := rfl
@[simp] theorem hv_flag_hits (v : Hv) (f : Field) : (v.flag f).hits = v.hits ++ [32 * f.off + f.lo] := rfl

/-! The hub: a change of one die leaves the other alone. -/

@[simp] theorem hub_onChip_chip (h : Hub) (f : Chip → Chip) : (h.onChip f).chip = f h.chip := rfl
@[simp] theorem hub_onChip_hv (h : Hub) (f : Chip → Chip) : (h.onChip f).hv = h.hv := rfl
@[simp] theorem hub_onHv_chip (h : Hub) (f : Hv → Hv) : (h.onHv f).chip = h.chip := rfl
@[simp] theorem hub_onHv_hv (h : Hub) (f : Hv → Hv) : (h.onHv f).hv = f h.hv := rfl

/-! A conditional change, once its condition is known. -/

@[simp] theorem chip_when_true (c : Chip) (f : Chip → Chip) : c.when true f = f c := rfl
@[simp] theorem chip_when_false (c : Chip) (f : Chip → Chip) : c.when false f = c := rfl
@[simp] theorem hub_when_true (h : Hub) (f : Hub → Hub) : h.when true f = f h := rfl
@[simp] theorem hub_when_false (h : Hub) (f : Hub → Hub) : h.when false f = h := rfl
@[simp] theorem hv_when_true (v : Hv) (f : Hv → Hv) : v.when true f = f v := rfl
@[simp] theorem hv_when_false (v : Hv) (f : Hv → Hv) : v.when false f = v := rfl

/-! A field read through the register file is read through its die, whatever else the die holds. -/

@[simp] theorem chip_regs_get (c : Chip) (f : Field) : c.regs.get f = c.get f := rfl
@[simp] theorem hv_regs_get (v : Hv) (f : Field) : v.regs.get f = v.get f := rfl
@[simp] theorem chip_mk_get (regs) (now) (subns) (freeCount) (outbox) (rst) (trk) (pcs) (lnk) (tp) (fab) (swc) (sch) (bud) (usb) (win) (vid) (eth) (fld) (pwr) (lkp) (pst) (voteEnd) (cnt) (hits) (jrn) (cfg) (key) (alm) (f : Field) :
    Chip.get ⟨regs, now, subns, freeCount, outbox, rst, trk, pcs, lnk, tp, fab, swc, sch, bud, usb, win, vid, eth, fld, pwr, lkp, pst, voteEnd, cnt, hits, jrn, cfg, key, alm⟩ f = regs.get f := rfl
@[simp] theorem hv_mk_get (regs) (lockout) (vrail) (prefFrom) (tpw) (ldc) (hits) (f : Field) : Hv.get ⟨regs, lockout, vrail, prefFrom, tpw, ldc, hits⟩ f = regs.get f := rfl

/-! What a field of the core die reads after each update. -/

theorem chip_get_put (c : Chip) (f : Field) (v : Nat) (h : f.ok = true) : (c.put f v).get f = v % 2 ^ f.width := get_put_same _ _ _ h

theorem chip_get_put_apart (c : Chip) (f g : Field) (v : Nat) (h : f.ok = true) (ha : Field.apart g f = true) :
    (c.put f v).get g = c.get g := get_put_apart _ _ _ _ h ha

theorem chip_get_flag (c : Chip) (f : Field) (h : f.ok = true) : (c.flag f).get f = 1 % 2 ^ f.width := get_put_same _ _ _ h

theorem chip_get_flag_apart (c : Chip) (f g : Field) (h : f.ok = true) (ha : Field.apart g f = true) :
    (c.flag f).get g = c.get g := get_put_apart _ _ _ _ h ha

theorem hv_get_put (v : Hv) (f : Field) (x : Nat) (h : f.ok = true) : (v.put f x).get f = x % 2 ^ f.width := get_put_same _ _ _ h

theorem hv_get_put_apart (v : Hv) (f g : Field) (x : Nat) (h : f.ok = true) (ha : Field.apart g f = true) :
    (v.put f x).get g = v.get g := get_put_apart _ _ _ _ h ha

theorem hv_get_flag (v : Hv) (f : Field) (h : f.ok = true) : (v.flag f).get f = 1 % 2 ^ f.width := get_put_same _ _ _ h

theorem hv_get_flag_apart (v : Hv) (f g : Field) (h : f.ok = true) (ha : Field.apart g f = true) :
    (v.flag f).get g = v.get g := get_put_apart _ _ _ _ h ha

@[simp] theorem chip_get_emit (c : Chip) (o : Out) (g : Field) : (c.emit o).get g = c.get g := rfl
@[simp] theorem chip_get_modTrk (c : Chip) (p : Port) (g : Trk → Trk) (x : Field) : (c.modTrk p g).get x = c.get x := rfl
@[simp] theorem chip_get_modPcs (c : Chip) (p : Port) (g : Pcs → Pcs) (x : Field) : (c.modPcs p g).get x = c.get x := rfl
@[simp] theorem chip_get_modLnk (c : Chip) (p : Port) (g : Lnk → Lnk) (x : Field) : (c.modLnk p g).get x = c.get x := rfl
@[simp] theorem chip_get_modTp (c : Chip) (p : Port) (g : Tp → Tp) (x : Field) : (c.modTp p g).get x = c.get x := rfl
@[simp] theorem chip_get_keyCount (c : Chip) (n : Nat) (g : Field) : (c.keyCount n).get g = c.get g := rfl
@[simp] theorem chip_get_draw (c : Chip) (n : Nat) (g : Field) : ((c.draw n).2).get g = c.get g := rfl
@[simp] theorem chip_get_drawKey (c : Chip) (g : Field) : (c.drawKey.2).get g = c.get g := rfl

end Sys2Proof.Machine
end

