-- ==== Sys2Proof/Laws/Ops.lean ====
section
/-! SUPPORT. What the end of every command does to the block: the performance counters take in what the command has changed, and
nothing else moves. -/

namespace Sys2Proof.Machine

@[simp] theorem samplePc_now (c : Chip) : c.samplePc.now = c.now := by unfold Chip.samplePc; split <;> rfl
@[simp] theorem samplePc_subns (c : Chip) : c.samplePc.subns = c.subns := by unfold Chip.samplePc; split <;> rfl
@[simp] theorem samplePc_outbox (c : Chip) : c.samplePc.outbox = c.outbox := by unfold Chip.samplePc; split <;> rfl
@[simp] theorem samplePc_rst (c : Chip) : c.samplePc.rst = c.rst := by unfold Chip.samplePc; split <;> rfl
@[simp] theorem samplePc_trk (c : Chip) : c.samplePc.trk = c.trk := by unfold Chip.samplePc; split <;> rfl
@[simp] theorem samplePc_pcs (c : Chip) : c.samplePc.pcs = c.pcs := by unfold Chip.samplePc; split <;> rfl
@[simp] theorem samplePc_lnk (c : Chip) : c.samplePc.lnk = c.lnk := by unfold Chip.samplePc; split <;> rfl
@[simp] theorem samplePc_tp (c : Chip) : c.samplePc.tp = c.tp := by unfold Chip.samplePc; split <;> rfl
@[simp] theorem samplePc_fab (c : Chip) : c.samplePc.fab = c.fab := by unfold Chip.samplePc; split <;> rfl
@[simp] theorem samplePc_swc (c : Chip) : c.samplePc.swc = c.swc := by unfold Chip.samplePc; split <;> rfl
@[simp] theorem samplePc_sch (c : Chip) : c.samplePc.sch = c.sch := by unfold Chip.samplePc; split <;> rfl
@[simp] theorem samplePc_bud (c : Chip) : c.samplePc.bud = c.bud := by unfold Chip.samplePc; split <;> rfl
@[simp] theorem samplePc_usb (c : Chip) : c.samplePc.usb = c.usb := by unfold Chip.samplePc; split <;> rfl
@[simp] theorem samplePc_win (c : Chip) : c.samplePc.win = c.win := by unfold Chip.samplePc; split <;> rfl
@[simp] theorem samplePc_vid (c : Chip) : c.samplePc.vid = c.vid := by unfold Chip.samplePc; split <;> rfl
@[simp] theorem samplePc_eth (c : Chip) : c.samplePc.eth = c.eth := by unfold Chip.samplePc; split <;> rfl
@[simp] theorem samplePc_fld (c : Chip) : c.samplePc.fld = c.fld := by unfold Chip.samplePc; split <;> rfl
@[simp] theorem samplePc_pwr (c : Chip) : c.samplePc.pwr = c.pwr := by unfold Chip.samplePc; split <;> rfl
@[simp] theorem samplePc_lkp (c : Chip) : c.samplePc.lkp = c.lkp := by unfold Chip.samplePc; split <;> rfl
@[simp] theorem samplePc_pst (c : Chip) : c.samplePc.pst = c.pst := by unfold Chip.samplePc; split <;> rfl
@[simp] theorem samplePc_voteEnd (c : Chip) : c.samplePc.voteEnd = c.voteEnd := by unfold Chip.samplePc; split <;> rfl
@[simp] theorem samplePc_jrn (c : Chip) : c.samplePc.jrn = c.jrn := by unfold Chip.samplePc; split <;> rfl
@[simp] theorem samplePc_cfg (c : Chip) : c.samplePc.cfg = c.cfg := by unfold Chip.samplePc; split <;> rfl
@[simp] theorem samplePc_key (c : Chip) : c.samplePc.key = c.key := by unfold Chip.samplePc; split <;> rfl
@[simp] theorem samplePc_alm (c : Chip) : c.samplePc.alm = c.alm := by unfold Chip.samplePc; split <;> rfl
@[simp] theorem samplePc_hits (c : Chip) : c.samplePc.hits = c.hits := by unfold Chip.samplePc; split <;> rfl

/-- The sampled program counter is the only register that the counters' interrupt changes. -/
theorem samplePc_get (c : Chip) (g : Field) (h : Field.apart g F.CNT_OVF_PC = true) : c.samplePc.get g = c.get g := by
  unfold Chip.samplePc
  split
  · exact get_put_apart _ _ _ _ rfl h
  · rfl

theorem samplePc_word (c : Chip) {o : Nat} (h : o ≠ F.CNT_OVF_PC.off) : c.samplePc.regs.word o = c.regs.word o := by
  unfold Chip.samplePc
  split
  · exact word_put _ _ _ _ h
  · rfl

theorem samplePc_wf {c : Chip} (h : c.regs.wf = true) : c.samplePc.regs.wf = true := by
  unfold Chip.samplePc
  split
  · exact wf_put _ _ h
  · exact h

@[simp] theorem settled_now (a b : Hub) : (a.settled b).now = b.chip.now := by simp [Hub.settled]
@[simp] theorem settled_subns (a b : Hub) : (a.settled b).subns = b.chip.subns := by simp [Hub.settled]
@[simp] theorem settled_outbox (a b : Hub) : (a.settled b).outbox = b.chip.outbox := by simp [Hub.settled]
@[simp] theorem settled_rst (a b : Hub) : (a.settled b).rst = b.chip.rst := by simp [Hub.settled]
@[simp] theorem settled_trk (a b : Hub) : (a.settled b).trk = b.chip.trk := by simp [Hub.settled]
@[simp] theorem settled_pcs (a b : Hub) : (a.settled b).pcs = b.chip.pcs := by simp [Hub.settled]
@[simp] theorem settled_lnk (a b : Hub) : (a.settled b).lnk = b.chip.lnk := by simp [Hub.settled]
@[simp] theorem settled_tp (a b : Hub) : (a.settled b).tp = b.chip.tp := by simp [Hub.settled]
@[simp] theorem settled_fab (a b : Hub) : (a.settled b).fab = b.chip.fab := by simp [Hub.settled]
@[simp] theorem settled_swc (a b : Hub) : (a.settled b).swc = b.chip.swc := by simp [Hub.settled]
@[simp] theorem settled_sch (a b : Hub) : (a.settled b).sch = b.chip.sch := by simp [Hub.settled]
@[simp] theorem settled_bud (a b : Hub) : (a.settled b).bud = b.chip.bud := by simp [Hub.settled]
@[simp] theorem settled_usb (a b : Hub) : (a.settled b).usb = b.chip.usb := by simp [Hub.settled]
@[simp] theorem settled_win (a b : Hub) : (a.settled b).win = b.chip.win := by simp [Hub.settled]
@[simp] theorem settled_vid (a b : Hub) : (a.settled b).vid = b.chip.vid := by simp [Hub.settled]
@[simp] theorem settled_eth (a b : Hub) : (a.settled b).eth = b.chip.eth := by simp [Hub.settled]
@[simp] theorem settled_fld (a b : Hub) : (a.settled b).fld = b.chip.fld := by simp [Hub.settled]
@[simp] theorem settled_pwr (a b : Hub) : (a.settled b).pwr = b.chip.pwr := by simp [Hub.settled]
@[simp] theorem settled_lkp (a b : Hub) : (a.settled b).lkp = b.chip.lkp := by simp [Hub.settled]
@[simp] theorem settled_pst (a b : Hub) : (a.settled b).pst = b.chip.pst := by simp [Hub.settled]
@[simp] theorem settled_voteEnd (a b : Hub) : (a.settled b).voteEnd = a.chip.votesEnded b.chip := by simp [Hub.settled]
@[simp] theorem settled_jrn (a b : Hub) : (a.settled b).jrn = b.chip.jrn := by simp [Hub.settled]
@[simp] theorem settled_cfg (a b : Hub) : (a.settled b).cfg = b.chip.cfg := by simp [Hub.settled]
@[simp] theorem settled_key (a b : Hub) : (a.settled b).key = b.chip.key := by simp [Hub.settled]
@[simp] theorem settled_alm (a b : Hub) : (a.settled b).alm = b.chip.alm := by simp [Hub.settled]
@[simp] theorem settled_hits (a b : Hub) : (a.settled b).hits = [] := by simp [Hub.settled]

/-- The counters at the end of a command change no register but the sampled program counter. -/
theorem settled_get (a b : Hub) (g : Field) (h : Field.apart g F.CNT_OVF_PC = true) : (a.settled b).get g = b.chip.get g :=
  samplePc_get _ g h

/-- Word by word: only the sampled program counter moves. -/
theorem settled_word (a b : Hub) {o : Nat} (h : o ≠ F.CNT_OVF_PC.off) : (a.settled b).regs.word o = b.chip.regs.word o :=
  samplePc_word _ h

theorem settled_wf {a b : Hub} (h : b.chip.regs.wf = true) : (a.settled b).regs.wf = true := samplePc_wf h

/-- What every step of a walk keeps, the walk keeps. -/
theorem chip_each_keeps {α : Type} (P : Chip → Prop) (l : List α) (f : α → Chip → Chip) (c : Chip) (h : P c)
    (hf : ∀ a c, P c → P (f a c)) : P (c.each l f) := by
  unfold Chip.each
  induction l generalizing c with
  | nil => exact h
  | cons a l ih => exact ih (f a c) (hf a c h)

/-- What every step of a walk of the hub keeps, the walk keeps. -/
theorem hub_each_keeps {α : Type} (P : Hub → Prop) (l : List α) (f : α → Hub → Hub) (h : Hub) (h0 : P h)
    (hf : ∀ a h, P h → P (f a h)) : P (h.each l f) := by
  unfold Hub.each
  induction l generalizing h with
  | nil => exact h0
  | cons a l ih => exact ih (f a h) (hf a h h0)

/-- A command of the core die answers a next state: the queue and the HV die are as they were, and the core die is what the
command makes of it, with the counters settled. -/
theorem onChip_next {s t : State} {f : Chip → Chip} (h : s.onChip f = .next t) :
    t.pending = s.pending ∧ t.hub.hv = s.hub.hv ∧ t.hub.chip = s.hub.settled (s.hub.onChip f) := by
  cases h; exact ⟨rfl, rfl, rfl⟩

/-- A command of both dies answers a next state: the queue is as it was, and each die is what the command makes of it. -/
theorem onHub_next {s t : State} {f : Hub → Hub} (h : s.onHub f = .next t) :
    t.pending = s.pending ∧ t.hub.hv = { (f s.hub).hv with hits := [] } ∧ t.hub.chip = s.hub.settled (f s.hub) := by
  cases h; exact ⟨rfl, rfl, rfl⟩

end Sys2Proof.Machine
end

