-- ==== Sys2Proof/Tests/Slice0.lean ====
section
/-! SUPPORT. The witnesses of the statements' hypotheses, and small tests: of the well-formedness checks, and of what the spec's tables and
examples give by hand. -/

namespace Sys2Proof.Tests

/- One theorem after another: many at once wait on each other, each with a thread of its own. -/
set_option Elab.async false

open Sys2Proof Sys2Proof.Machine Sys2Proof.Safety


/-! The states that the witnesses and tests start from, each a small change of the state after reset. -/

/-- A running hub: the reset has ended and start-up BIST has passed. -/
def runChip : Chip := { Chip.reset with rst := { Chip.reset.rst with active := none, bist := false } }

def putAll (l : List (Field × Nat)) (r : RegFile) : RegFile := l.foldl (fun r x => r.put x.1 x.2) r

/-- A running hub with some fields written, each on its die, and more changed by hand. -/
def testState (l : List (Field × Nat)) (f : Chip → Chip) (g : Hv → Hv) : State := { pending := [], hub := {
  chip := f { runChip with regs := putAll (l.filter fun x => !inHvDie x.1.off) runChip.regs }
  hv := g { Hv.reset with regs := putAll (l.filter fun x => inHvDie x.1.off) [] } } }

def runs (l : List (Field × Nat)) (f : Chip → Chip := id) : State := testState l f id

/-- Port 1 with its link up, admitted, and room in every reserve. -/
def linked (l : List (Field × Nat)) (f : Chip → Chip := id) : State :=
  runs ([(F.TRK_STATUS_LINK_UP 1, 1), (F.TRK_STATUS_STEP 1, 3), (F.TRK_STATUS_PHASE 1, phaseRunning), (F.LNK_CTL_EN 1, 1), (F.LNK_STATUS_ADMITTED 1, 1),
    (F.SWC_CTL_RED_EN, 0), (F.SWC_BASIN_RESERVE 1, 100), (F.SWC_BASIN_RESERVE 3, 100), (F.SWC_BASIN_RESERVE 8, 100)] ++ l) f

def dataHeader : Header := {
  dst := 5, src := 9, tunnel := 5, queue := 0, colour := 0, cmark := false, mcast := false, hops := 5, tseq := 0, len := 1, type := 0
  first := true, last := true, ackreq := false, retx := false, budget := 0, tspec := 0 }
def bargeData : Barge := { hdr := dataHeader, payload := [7] }
def txData : TxBarge := {
  desc := runChip.desc 3 1 0 5
  barge := bargeData }

def endBody (n : Nat) (b : Barge) (clear : Bool) : Block :=
  ctlBlock 0x10 (blockField 236 (BitVec.ofNat 12 n) ||| blockField 230 (BitVec.ofNat 6 (b.words.length - 1)) ||| blockFlag 228 clear)
def clearEnd (n : Nat) (b : Barge) : Block := endBlock (endBody n b true) (bargeCrc b.words (endBody n b true)) 0
def sealedEnd (n : Nat) (b : Barge) : Block := endBlock (endBody n b false) (bargeCrc b.words (endBody n b false)) 0

/-- The blocks of the test barge, with an END block. -/
def bargeBlocks (e : Block) : List Block := dataBlocks bargeData.words ++ [e]

def hbTest : Heartbeat := { hubId := 7, idValid := true, ackSeq := 0, lkState := 0, admitted := true, level := 2, count := 1 }
def tickTest : TickBlock := { frame := 6, lag := 40, src := true, hops := 1, master := 3, locked := true }
def announceTest : Announce := {
  serial := 4, hub := 8, idValid := false, roleHe := false, ringId := 0, ringPos := 0, links := 1, seq := 1 }

def tpUp (l : List (Field × Nat)) (f : Chip → Chip := id) : State := runs ((F.LNK_CTL_TP_EN 1, 1) :: l) f
def frameTest : TpFrame := { hdr := tpHeader 9 4 0 false false false, payload := [] }
def reqTest (stage : TpStage) (escalates : Bool) : TpRequest := {
  frame := frameTest, fw := true, escalates := escalates, stage := stage, waits := 0, escSeq := 0 }

/-- Tunnel 5 toward hub 9 in a mode, synchronised. -/
def tunSt (mode : Nat) (l : List (Field × Nat)) (f : Chip → Chip := id) : State :=
  runs ([(F.FAB_TUN0_VALID 5, 1), (F.FAB_TUN0_ADAPTER 5, 7), (F.FAB_TUN0_CHANNEL 5, 0), (F.FAB_TUN0_PEER_HUB 5, 9), (F.FAB_TUN1_MODE 5, mode),
    (F.FAB_TSTATE1_TX_SYNCED 5, 1)] ++ l) f
def tackTest (status tseq : Nat) : Barge :=
  { hdr := { dataHeader with type := 1, tseq := BitVec.ofNat 16 tseq, tspec := BitVec.ofNat 32 (status * 2 ^ 28), len := 0 }, payload := [] }

/-- Hub 2 with a route to hub 5 through port 0 and room in every reserve. -/
def routed (l : List (Field × Nat)) (f : Chip → Chip := id) : State :=
  linked ([(F.FAB_ID_ID_VALID, 1), (F.FAB_ID_HUB_ID, 2), (F.FAB_ROUTE0_VALID 5, 1), (F.FAB_ROUTE0_PRI 5, 0), (F.FAB_ROUTE0_SEC 5, 3),
    (F.FAB_STATUS_ROUTABLE, 7), (F.FAB_TUN0_VALID 5, 1), (F.FAB_TUN0_ADAPTER 5, 3), (F.FAB_TUN0_CHANNEL 5, 0xF1), (F.FAB_TUN0_PEER_HUB 5, 9),
    (F.SCH_WEIR0_EN 0, 0)] ++ l) f
def storedTest : Stored := { sid := 0, barge := bargeData, inPort := 3, cells := 1, place := [0], refs := 1, retained := none, ctrl := false }

/-- Position 1 of a ring of four, with port 1 routable and the Lockkeeper in RUN. -/
def ringSt (l : List (Field × Nat)) (f : Chip → Chip := id) : State :=
  runs ([(F.FAB_ID_ID_VALID, 1), (F.FAB_ID_HUB_ID, 2), (F.FAB_RING_RING_SIZE, 4), (F.FAB_RING_RING_POS, 1), (F.FAB_RING_RING_ID, 6),
    (F.LKP_STATUS_STATE, 0), (F.FAB_STATUS_ROUTABLE, 2)] ++ l) f
def noticeTest : Barge := { hdr := { dataHeader with
  mcast := true, tunnel := 255, type := 4, len := 0, tspec := BitVec.ofNat 32 (3 * 2 ^ 14 + 2 ^ 12 + 6 * 2 ^ 4) }, payload := [] }

/-- A head-end whose port map entry 3 is in use and enabled at address 5. -/
def usbHe (l : List (Field × Nat)) (f : Chip → Chip := id) : State :=
  runs ([(F.GLB_STRAPS_ROLE_HE, 1), (F.USB_CTL_EN, 1), (F.USB_VHUB_ID_VID, 5), (F.USB_CTL_SS_EN, 1), (F.USB_STATUS_U0_VBUS, 1),
    (F.USB_STATUS_U0_CONFIGURED, 1), (F.USB_MAP0_VALID 3, 1), (F.USB_VHUB_CFG_L2_MASK, 0), (F.USB_VP0_POWER 3, 1), (F.USB_VP0_CONNECT 3, 1),
    (F.USB_VP0_ENABLED 3, 1), (F.USB_VP0_ADDR 3, 5), (F.USB_MAP0_ASYNC_TUNNEL 3, 5), (F.FAB_TUN0_VALID 5, 1), (F.FAB_TUN0_ADAPTER 5, 3),
    (F.FAB_TUN0_CHANNEL 5, 3), (F.FAB_TUN0_PEER_HUB 5, 9), (F.FAB_TUN1_MODE 5, 2)] ++ l) f
/-- A field hub whose physical port 1 is enabled. -/
def usbFd (l : List (Field × Nat)) (f : Chip → Chip := id) : State :=
  runs ([(F.USB_CTL_EN, 1), (F.USB_U_CTL_PORT_EN 1, 1), (F.USB_U_STATUS_ENABLED 1, 1), (F.FAB_TUN0_VALID 5, 1), (F.FAB_TUN0_ADAPTER 5, 3),
    (F.FAB_TUN0_CHANNEL 5, 0xF1), (F.FAB_TUN0_PEER_HUB 5, 9), (F.FAB_TUN1_MODE 5, 2)] ++ l) f
def usbMsg (kind channel ep : Nat) (dirIn : Bool) (res epoch arg : Nat) (l : List Byte) : Msg := {
  tunnel := 5, channel := BitVec.ofNat 8 channel, src := 9, tspec := usbTspec kind ep dirIn res epoch arg, cmark := false, payload := l }

/-- Hub 2 with its window bridge enabled. -/
def winSt (l : List (Field × Nat)) (f : Chip → Chip := id) : State :=
  runs ([(F.FAB_ID_ID_VALID, 1), (F.FAB_ID_HUB_ID, 2), (F.WIN_CTL_EN, 1), (F.WIN_CTL_TGT_STAGE_EN, 1)] ++ l) f
def winMsg (kind tag status : Nat) (l : List Byte) : Msg := {
  tunnel := 5, channel := 0, src := 9, tspec := winTspec kind tag status false l.length, cmark := false, payload := l }
/-- A request for 4 bytes of the staging memory of hub 2. -/
def stgMsg (kind : Nat) (l : List Byte) : Msg := {
  tunnel := 5, channel := 0, src := 9, tspec := winTspec kind 7 0 false 4, cmark := false
  payload := beBytes 8 (2 * 2 ^ 54 + 3 * 2 ^ 51) ++ l }
def winReqTest (write user : Bool) : WinReq := {
  acc := 0, tag := 7, rng := 3, tunnel := 5, sideEffect := false, lockCap := false, write := write, posted := false, fwa := 0, len := 2
  data := [], drive := false, reqId := 0, again := false, users := if user then [{ acc := 0, pos := 0, off := 0, len := 2 }] else [], fill := false }
def winAccTest : WinAccess := { id := 0, drive := false, reqId := 4, data := [0, 0], left := 1, worst := 0 }
def tgtReqTest : TgtReq := { tunnel := 5, tag := 7, write := false, posted := false, fwa := 0 }
def dmaDescTest : DmaDesc := { addr := 64, len := 64, first := true, last := true, bytes := [1, 2], bad := false }
/-- Range 3 onto the memory of hub 3 through tunnel 5. -/
def winRange : List (Field × Nat) := [
  (F.WIN_STATUS_LINK_UP, 1), (F.WIN_CTL_EN, 1), (F.WIN_RNG0_VALID 3, 1), (F.WIN_RNG0_TUNNEL 3, 5), (F.WIN_RNG2 3, 3 * 2 ^ 22 + 2 ^ 19),
  (F.WIN_RNG3_SIZE_LOG2 3, 20), (F.FAB_TUN0_VALID 5, 1), (F.FAB_TUN0_ADAPTER 5, 4), (F.FAB_TUN0_PEER_HUB 5, 3)]

/-- Stream 2 of the camera takes data type 0x2A of virtual channel 1 to tunnel 5; the display has 4 lines of 6 bytes. -/
def vidSt (l : List (Field × Nat)) (f : Chip → Chip := id) : State :=
  runs ([(F.VID_CTL_CSI_EN, 1), (F.VID_CTL_DSI_EN, 1), (F.VID_CSI_S_EN 2, 1), (F.VID_CSI_S_VC 2, 1), (F.VID_CSI_S_DT 2, 0x2A),
    (F.VID_CSI_S_TUNNEL 2, 5), (F.FAB_TUN0_VALID 5, 1), (F.FAB_TUN0_ADAPTER 5, 5), (F.FAB_TUN0_CHANNEL 5, 2), (F.VID_DSI_V0_VACT, 4),
    (F.VID_DSI_H0_HACT, 2), (F.VID_DSI_CFG_FORMAT, 0)] ++ l) f
def segTest (lines lineBytes : Nat) : Msg := {
  tunnel := 5, channel := 0x10, src := 9, tspec := 0, cmark := false
  payload := segmentHeader 4 5 0 0x3E 9 1 lines lineBytes true false false false false ++ List.replicate (lines * lineBytes) 1#8 }
def dsiTest : DsiSegment := { fcnt := 9, frame := 4, subns := 5, firstLine := 1, fs := true, lines := [List.replicate 6 1#8] }

/-- The Ethernet adapter with VLAN entry 2 for VID 20 and a tunnel to hub 9. -/
def ethSt (l : List (Field × Nat)) (f : Chip → Chip := id) : State :=
  runs ([(F.ETH_CTL_EN, 1), (F.ETH_CTL_PORT_EN, 7), (F.ETH_CTL_LEARN_EN, 0), (F.ETH_CTL_MAX_FRAME, 1522), (F.ETH_E_CFG_ACCEPT_TAGGED 1, 1),
    (F.ETH_VLAN0_VALID 2, 1), (F.ETH_VLAN0_VID 2, 20), (F.ETH_VLAN0_MEMBER 2, 2), (F.ETH_VLAN0_FABRIC 2, 1), (F.ETH_PEER_VALID 9, 1),
    (F.ETH_PEER_TUNNEL 9, 5)] ++ l) f
def ethTest (dst vid : Nat) : List Byte := beBytes 6 dst ++ beBytes 6 0x0200_0000_0077 ++ beBytes 4 (0x8100_0000 + vid) ++ List.replicate 44 0#8
/-- The field gateway with four signal entries, two frame entries and a poll entry. -/
def fldSt (l : List (Field × Nat)) (f : Chip → Chip := id) : State :=
  runs ([(F.FLD_CTL_EN, 1), (F.FLD_CTL_CAN_EN, 15), (F.FLD_CTL_UA_EN, 3),
    (F.FLD_SIG0_VALID 1, 1), (F.FLD_SIG0_SOURCE 1, 7), (F.FLD_SIG6_TIMEOUT 1, 9),
    (F.FLD_SIG0_VALID 2, 1), (F.FLD_SIG0_DIR 2, 1), (F.FLD_SIG0_SOURCE 2, 6), (F.FLD_SIG0_SUBST_EN 2, 1), (F.FLD_SIG6_TIMEOUT 2, 9),
    (F.FLD_SIG0_VALID 3, 1), (F.FLD_SIG0_SOURCE 3, 0), (F.FLD_SIG0_REF 3, 3), (F.FLD_SIG1_LEN_M1 3, 7),
    (F.FLD_FRM0_VALID 3, 1), (F.FLD_FRM0_BUS 3, 0), (F.FLD_FRM0_DIR 3, 0), (F.FLD_FRM1_ID 3, 5), (F.FLD_FRM2_MASK 3, 0x1FFF_FFFF),
    (F.FLD_POLL0_VALID 6, 1), (F.FLD_POLL0_UART 6, 1), (F.FLD_POLL0_SLAVE 6, 3), (F.FLD_POLL0_FUNC 6, 6), (F.FLD_POLL1_COUNT 6, 1)] ++ l) f

/-- A running hub with changes of the HV die by hand. -/
def hvSt' (l : List (Field × Nat)) (g : Hv → Hv) : State := testState ((F.LKP_STATUS_STATE, 0) :: (F.LNK_CTL_TP_EN 1, 1) :: l) id g
def hvSt (l : List (Field × Nat)) : State := hvSt' l id
def smpTest : HvSamples := {
  vhv := 96, vrail := 4800, vcab := #v[0, 4790, 0], vout := #v[0, 0, 0, 0], portSense := #v[0, 0, 0], chanSense := #v[0, 0, 0, 0]
  ntc := #v[some 90, some 90, some 90, some 90], die := #v[some 90, some 90, some 90, some 90] }
def swapSt (l : List (Field × Nat)) (newSource late heard : Bool) : State :=
  testState ([(F.LKP_STATUS_STATE, 0), (F.LNK_CTL_TP_EN 1, 1), (F.TPW_P_CFG_DEFAULT_ROLE 1, 3), (F.TPW_RAIL_CFG_LOCAL_FEED, 1)] ++ l)
    (fun c => c.modPwr fun w => { w with swap := w.swap.setIfInBounds 1 (some { newSource := newSource, started := true, late := late, heard := heard }) }) id
def frsRegs : List (Field × Nat) := [
  (F.TPW_P_STATUS_STATE 1, 4), (F.TPW_P_CFG_DEFAULT_ROLE 1, 3), (F.TPW_P_CFG_FRS_EN 1, 1), (F.TPW_P_CONTRACT_VALID 1, 1),
  (F.TPW_P_CONTRACT_FRS_OK 1, 1), (F.TPW_RAIL_CFG_LOCAL_FEED, 1), (F.TPW_P_LIMIT_V_FRS 1, 40)]
def askReq (cls : Nat) : TpRequest := {
  frame := { hdr := tpHeader cls 4 1 false false false, payload := [0] }, fw := true, escalates := true, stage := .first, waits := 0, escSeq := 0 }
def askSt (cls : Nat) : State :=
  testState [(F.LKP_STATUS_STATE, 0), (F.LNK_CTL_TP_EN 1, 1), (F.TPW_P_STATUS_STATE 1, 3), (F.TPW_P_CFG_DEFAULT_ROLE 1, 3), (F.TPW_RAIL_CFG_LOCAL_FEED, 1)]
    (fun c => c.modTp 1 fun t => { t with requests := [askReq cls] }) id
def offerTest : PwrOffer := { w := 60, i := 3, hint := 0, frsOk := true, revised := true, fixed := false, id := 1 }
def offerSt (l : List (Field × Nat)) : State :=
  testState ((F.LKP_STATUS_STATE, 0) :: l) (fun c => c.modPwr fun w => { w with sent := w.sent.setIfInBounds 1 (some offerTest) }) id
def loadSt (l : List (Field × Nat)) : State := testState ((F.LKP_STATUS_STATE, 0) :: l) (fun c => { c with subns := 250_000, bud := { c.bud with row := 0x0088_1085, ticked := true } }) id

def keySt (l : List (Field × Nat)) (f : Chip → Chip := id) : State := runs ((F.LKP_STATUS_STATE, 0) :: l) f
def attestSlot : Slot := { Slot.empty with valid := true, active := true, engines := 32 }
def admSt (l : List (Field × Nat)) (ph : AdmitPhase) : State :=
  runs ([(F.LKP_STATUS_STATE, 0), (F.TRK_STATUS_LINK_UP 1, 1), (F.LNK_CTL_EN 1, 1), (F.LNK_CTL_TP_EN 1, 1), (F.KEY_STATUS_ENTROPY_OK, 1)] ++ l)
    fun c => c.modAdm 1 fun a => { a with phase := ph }
def admSt' (l : List (Field × Nat)) (ph : AdmitPhase) : State :=
  runs ([(F.LKP_STATUS_STATE, 0), (F.TRK_STATUS_LINK_UP 1, 1), (F.LNK_CTL_EN 1, 1), (F.LNK_CTL_TP_EN 1, 1), (F.KEY_STATUS_ENTROPY_OK, 1)] ++ l)
    fun c => c.modAdm 1 fun a => { a with phase := ph, chosen := some (0, false) }
def mgmtTest : P8Barge := { inPort := 1, barge := {
  hdr := { dataHeader with type := 5, tunnel := 0xFFD, len := 8 }, payload := [0, 0x15, 0, 4, 0, 0, 0, 0] } }
def mgmtSt (l : List (Field × Nat)) : State := keySt l fun c => c.modSwc fun w => { w with p8in := [mgmtTest] }
def proxyTest : P8Barge := { inPort := 1, barge := {
  hdr := { dataHeader with type := 2, tunnel := 0xFFD, len := 8, tspec := 2 ^ 28 }, payload := [0, 0x15, 0, 4, 0, 0, 0, 0] } }
def mgmtSt' (l : List (Field × Nat)) : State := keySt l fun c =>
  { c.modSwc fun w => { w with p8in := [proxyTest] } with lkp := { c.lkp with proxied := [{ port := 1, request := mgmtTest.barge }] } }

/-- Hub 5 with the Lockkeeper in RUN: the access path takes its accesses. -/
def pathSt (l : List (Field × Nat)) (f : Chip → Chip := id) : State :=
  testState ([(F.FAB_ID_ID_VALID, 1), (F.FAB_ID_HUB_ID, 5), (F.LKP_STATUS_STATE, 0)] ++ l) f id
def heldTest : PathAccess := {
  req := { source := 0, hub := none, tag := 0, attested := false }, write := true, off := (F.FAB_ROUTE0 3).off, len := 4, data := [0, 0, 0, 1]
  answered := false, worst := 0, of_ := .plain }
def pathSt' (l : List (Field × Nat)) : State := pathSt l fun c => c.modFab fun f => { f with held := some heldTest }
def pathSt'' (l : List (Field × Nat)) (f : Chip → Chip) : State :=
  pathSt l fun c => f { c with cfg := { c.cfg with commit := some { words := [], area := 1, seq := 2 } } }
def pathFull : State := pathSt ((F.GLB_STRAPS_ROLE_HE, 1) :: (List.range 90).map fun i => (F.USB_MAP0_VALID i, 1))
def pathLock : State := testState [(F.LKP_STATUS_STATE, 0)] id fun v => { v with lockout := true }
def lockRegs : List (Field × Nat) := winRange ++ [(F.WIN_RNG0_LOCK_CAP 3, 1), (F.WIN_RNG0_TUNNEL 3, 9), (F.WIN_RNG2 3, 5 * 2 ^ 22 + 2 ^ 19)]
def stepRegs : List (Field × Nat) := [
  (F.TRK_STATUS_LINK_UP 1, 1), (F.TRK_STATUS_STEP 1, 1), (F.TRK_STATUS_CAP_BUDGET 1, 5), (F.TRK_STATUS_PARTNER_CAP 1, 5), (F.TRK_CTL_STEP_MAX 1, 5),
  (F.TRK_CTL_STEP_MIN 1, 1)]
def lkReq : Requester := { source := 0, hub := none, tag := 0, attested := false }

/-- A trunk port 1 that runs, in a phase of bring-up. -/
def trkSt (phase : Nat) (l : List (Field × Nat)) (f : Chip → Chip := id) : State :=
  runs ([(F.TRK_STATUS_PHASE 1, phase), (F.TRK_CTL_EN 1, 1)] ++ l) f
/-- Trunk port 1 with its link up at step 3, both lanes active, and every cap at 5. -/
def trkUp (l : List (Field × Nat)) (f : Chip → Chip := id) : State :=
  runs ([(F.TRK_CTL_EN 1, 1), (F.TRK_STATUS_LINK_UP 1, 1), (F.TRK_STATUS_STEP 1, 3), (F.TRK_STATUS_PHASE 1, phaseRunning), (F.TRK_STATUS_LANES 1, 3),
    (F.TRK_LANE_A_STATE 1, laneActive), (F.TRK_LANE_B_STATE 1, laneActive), (F.TRK_LANE_A_RX_LOCK 1, 1), (F.TRK_LANE_B_RX_LOCK 1, 1),
    (F.TRK_CTL_STEP_MAX 1, 5), (F.TRK_CTL_STEP_MIN 1, 1), (F.TRK_STATUS_CAP_BUDGET 1, 5), (F.TRK_STATUS_PARTNER_CAP 1, 5),
    (F.TRK_PARTNER_CAP_STEP_MAX 1, 5), (F.TRK_CTL_SINGLE_LANE_EN 1, 1), (F.TRK_PARTNER_CAP_SINGLE_LANE_EN 1, 1)] ++ l) f
def snapTest : Snapshot := {
  a := { snr := 160, predicted := [160, 160, 160, 160, 160], coefs := [] }, b := { snr := 160, predicted := [160, 160, 160, 160, 160], coefs := [] }
  lengthM := 30, loss := 90, reflections := [] }
def markerTest (op step span peer : Nat) : Marker := {
  span := 9, copy := 0, step := 3, lanes := 0, qnext := false, shOp := BitVec.ofNat 3 op, shStep := BitVec.ofNat 3 step, shReason := 1
  shSpan := BitVec.ofNat 32 span, shPeer := BitVec.ofNat 32 peer, stepCap := 5, moorRdy := false, epoch := 0, kePend := false, keSpan := 0
  marginA := 40, marginB := 40, predUp := 40 }
/-- The hub's own proposal of step 4, at a phase. -/
def propTest (phase : ProposalPhase) (txDone : Bool) : Proposal := {
  phase := phase, target := 4, start := 3, cause := 2, spanN := 20, spanM := 30, txDone := txDone, rxDone := false, failed := false }
/-- The partner's proposal of step 4, accepted. -/
def accTest : Acceptance := {
  target := 4, start := 3, spanM := 30, peerN := 20, committed := false, txDone := false, rxDone := false, failed := false }
/-- Predicted SNRs of both lanes at every step, in 0.125 dB. -/
def snrTest : List (List Int) := [[480, 480, 480, 480, 480], [480, 480, 480, 480, 480]]
def helloTest : PartnerHello := { serial := 77, stepMax := 5, singleLane := true, quiet := true, precode := 0 }
def measTest : FrameMeas := { ain := #v[0, 0, 0, 0], die := #v[some 90, some 90, some 90, some 90] }
def imageTest : ImageFile := { header := List.replicate 256 0, body := [] }


/-! A codeword of zeros with one symbol wrong is put right, and one whose last 24 symbols are wrong is not (02 R35). -/

def zeros (n : Nat) : List Bool := List.replicate n false

theorem descramble_zeros : ∀ n, descramble (zeros 58) (zeros n) = zeros n
  | 0 => rfl
  | n + 1 => by
    have h : (false :: zeros 58).take 58 = zeros 58 := by decide
    exact (congrArg (fun st => false :: descramble st (zeros n)) h).trans (congrArg (List.cons false) (descramble_zeros n))

theorem descrambleBlocks_zeros : ∀ n, (descrambleBlocks n (zeros 58) (zeros (257 * n))).1 = List.replicate n 0#257
  | 0 => rfl
  | n + 1 => by
    have h1 : ((zeros (257 * n + 257)).drop 1).take 256 = zeros 256 := by
      simp only [zeros, List.drop_replicate, List.take_replicate]
      exact congrArg (List.replicate · false) (by omega)
    have h2 : (zeros (257 * n + 257)).drop 257 = zeros (257 * n) := by
      simp only [zeros, List.drop_replicate, Nat.add_sub_cancel]
    have h3 : scramblerAfter (zeros 58) (zeros 256) = zeros 58 := by decide +kernel
    have h4 : (zeros (257 * n + 257)).headD false = false := rfl
    have h5 : BitVec.ofNat 257 (natOfBits (false :: zeros 256)) = 0#257 := by decide +kernel
    rw [descrambleBlocks, Nat.mul_succ, h1, h2, h3, h4, descramble_zeros, h5]
    exact congrArg (0#257 :: ·) (descrambleBlocks_zeros n)

theorem oneError_symbols : lineSymbols false ((List.replicate 2719 0 ++ [1]).map (· % 4)) = List.replicate 543 0 ++ [1] := by
  decide +kernel
theorem oneError_decodes : rsDecode (List.replicate 543 0 ++ [1]) = some (List.replicate 514 0, 1) := by decide +kernel
theorem bits_zeros : ∀ n, (List.replicate n 0).flatMap (bitsOfNat 10) = zeros (10 * n)
  | 0 => rfl
  | n + 1 => by
    rw [List.replicate_succ, List.flatMap_cons, bits_zeros n, show bitsOfNat 10 0 = List.replicate 10 false by decide]
    unfold zeros
    rw [List.replicate_append_replicate]
    exact congrArg (List.replicate · false) (by omega)

theorem decode_parts {st bits : List Bool} {sym cw msg : List Nat} {blocks : List Block} {n : Nat} (hs : lineSymbols false sym = cw)
    (hd : rsDecode cw = some (msg, n)) (hb : msg.flatMap (bitsOfNat 10) = bits) (hx : (descrambleBlocks 20 st bits).1 = blocks) :
    (decodeCodeword st false sym).1 = some (blocks, n) := by
  subst hs hb hx
  unfold decodeCodeword
  extract_lets cw
  split
  · rename_i h
    rw [hd] at h
    cases h
    rfl
  · rename_i h
    rw [hd] at h
    cases h

def oneError : List Nat := List.replicate 2719 0 ++ [1]
def manyErrors : List Nat := List.replicate 2600 0 ++ List.replicate 120 1

theorem test_oneError : (decodeCodeword (zeros 58) false (oneError.map (· % 4))).1 = some (List.replicate 20 0#257, 1) :=
  decode_parts oneError_symbols oneError_decodes ((bits_zeros 514).trans (congrArg zeros (by decide))) (descrambleBlocks_zeros 20)

theorem test_manyErrors : (decodeCodeword (zeros 58) false (manyErrors.map (· % 4))).1 = none := by decide +kernel

theorem witness_GroupOfRouteNotices :
    ∃ (s : State) (r : Requester) (v : BitVec 32), pathReady s r ∧ (r.source = 1 → s.hub.chip.inRecovery = false) :=
    ⟨pathSt [], lkReq, 3, by decide +kernel⟩

theorem witness_DriveMsiSetsItsBit :
    (∃ (s : State) (a : BitVec 64) (n : Nat) (l : List Byte) (q : BitVec 16) (k : LinkReply), s.hub.chip.started = true ∧
      s.hub.chip.headEnd = false ∧ s.hub.chip.on F.WIN_STATUS_LINK_UP = true ∧ n ≠ 0 ∧ 0xFEE0_0000 ≤ a.toNat ∧ a.toNat ≤ 0xFEE0_0FFF) ∧
    (∃ (s : State) (a : BitVec 64) (d : BitVec 32), s.hub.chip.headEnd = false ∧ 0xFEE0_0000 ≤ a.toNat ∧ a.toNat ≤ 0xFEE0_0FFF) :=
  ⟨
    ⟨winSt [(F.WIN_STATUS_LINK_UP, 1)], 0xFEE0_0FFF, 4, [35, 0, 0, 0], 1, .silent, by decide +kernel⟩,
    ⟨winSt [], 0xFEE0_0010, 35, by decide +kernel⟩⟩

theorem witness_ArmAtBootActsAtLoadEnd :
    (∃ (s : State) (y : Chan), s.hub.chip.loadEnds = true ∧ s.hub.chip.cfg.accepted = true ∧ s.hub.hv.lockout = false) ∧
    (∃ (s : State), s.hub.chip.loadEnds = true ∧ s.hub.chip.cfg.accepted = false) :=
  ⟨
    ⟨testState [(F.CFG_STATUS_STATE, 3), (F.LDC_L_CFG_ARM_AT_BOOT 1, 1)] (fun c => { c with cfg := { c.cfg with accepted := true } }) id,
      1, by decide +kernel⟩,
    ⟨runs [(F.CFG_STATUS_STATE, 2)], by decide +kernel⟩⟩

theorem witness_MinSvnOnlyRises :
    (∃ (s : State) (r : Requester), pathReady s r ∧ (r.source = 1 → s.hub.chip.inRecovery = false) ∧ s.hub.chip.key.lcCmd = none) ∧
    (∃ (s : State) (r : Requester) (k : BitVec 16), pathReady s r ∧ (r.source = 1 → s.hub.chip.inRecovery = false) ∧ k ≠ 0x5A3C) ∧
    (∃ (s : State), s.hub.chip.running = true ∧ s.hub.chip.key.lcCmd = some 4) ∧
    (∃ (c : Chip) (i : ImageFile), imgSvn i < c.get F.KEY_STATUS_MIN_SVN) :=
  ⟨
    ⟨pathSt [], lkReq, by decide +kernel⟩,
    ⟨pathSt [], lkReq, 5, by decide +kernel⟩,
    ⟨runs [(F.KEY_STATUS_FW_SVN, 9)] fun c => { c with key := { c.key with lcCmd := some 4 } }, by decide +kernel⟩,
    ⟨(runs [(F.KEY_STATUS_MIN_SVN, 9)]).hub.chip, imageTest, by decide +kernel⟩⟩

theorem witness_WakeRegistersAreKept :
    ∃ (s : State) (r : Requester) (v : BitVec 32), pathReady s r ∧ (r.source = 1 → s.hub.chip.inRecovery = false) :=
    ⟨pathSt [], lkReq, 0x30, by decide +kernel⟩

theorem witness_ResetsAndImageLoadTakeHold :
    (∃ (s : State) (ramp : Bool), s.hub.chip.rst.active ≠ some .por) ∧
    (∃ (s : State), (s.hub.chip.rst.active = none ∨ s.hub.chip.rst.active = some .warm)) ∧
    (∃ (s : State), (s.hub.chip.rst.active = none ∨ s.hub.chip.rst.active = some .warm) ∧ s.hub.chip.rst.clockLost = false ∧
      s.hub.chip.pst.off = false) ∧
    (∃ (s : State) (k : ResetKind) (he : Bool) (b0 : Bool) (b1 : Bool) (tm : Bool), s.hub.chip.rst.active = some k ∧
      s.hub.chip.rst.clockLost = false ∧ s.hub.chip.rst.breakPort = none ∧ s.hub.chip.pst.off = false) ∧
    (∃ (s : State) (v : FlashView), s.hub.chip.mayLoad = true ∧ s.hub.chip.get F.GLB_STRAPS_BOOT = 3) ∧
    (∃ (s : State) (v : FlashView), s.hub.chip.mayLoad = true ∧ s.hub.chip.get F.GLB_STRAPS_BOOT ≠ 3 ∧
      s.hub.chip.firmwareOk v.fwA = false ∧ s.hub.chip.firmwareOk v.fwB = false) ∧
    (∃ (s : State) (v : FlashView), s.hub.chip.mayLoad = true ∧ s.hub.chip.get F.GLB_STRAPS_BOOT = 1 ∧ imgPresent v.cfgA false = false ∧
      s.hub.chip.cfg.accepted = false) ∧
    (∃ (s : State) (v : FlashView), s.hub.chip.mayLoad = true ∧ s.hub.chip.get F.GLB_STRAPS_BOOT = 1 ∧ v.ovl0 = [] ∧ v.ovl1 = []) ∧
    (∃ (s : State), s.hub.chip.loadEnds = true) :=
  ⟨
    ⟨runs [], true, by decide +kernel⟩,
    ⟨runs [], by decide +kernel⟩,
    ⟨runs [], by decide +kernel⟩,
    ⟨runs [] fun c => { c with rst := { c.rst with active := some .cold } }, .cold, true, true, false, false, by decide +kernel⟩,
    ⟨runs [(F.GLB_STRAPS_BOOT, 3)], { fwA := imageTest, cfgA := imageTest, fwB := imageTest, cfgB := imageTest, ovl0 := [], ovl1 := [] },
      by decide +kernel⟩,
    ⟨runs [(F.GLB_STRAPS_BOOT, 1)], { fwA := imageTest, cfgA := imageTest, fwB := imageTest, cfgB := imageTest, ovl0 := [], ovl1 := [] },
      by decide +kernel⟩,
    ⟨runs [(F.GLB_STRAPS_BOOT, 1)], { fwA := imageTest, cfgA := imageTest, fwB := imageTest, cfgB := imageTest, ovl0 := [], ovl1 := [] },
      by decide +kernel⟩,
    ⟨runs [(F.GLB_STRAPS_BOOT, 1)], { fwA := imageTest, cfgA := imageTest, fwB := imageTest, cfgB := imageTest, ovl0 := [], ovl1 := [] },
      by decide +kernel⟩,
    ⟨runs [(F.CFG_STATUS_STATE, 3)] fun c => { c with cfg := { c.cfg with accepted := true } }, by decide +kernel⟩⟩

theorem witness_PowerStatesFollowVotesAndWakes :
    (∃ (s : State) (d : Fin 10), s.hub.chip.running = true ∧ d ≠ 0 ∧ s.hub.chip.domainHeld d.val = false) ∧
    (∃ (s : State), s.hub.chip.started = true ∧ s.hub.chip.lkp.phase = .none ∧ s.hub.chip.lkp.failing = none ∧
      s.hub.chip.get F.LKP_STATUS_STATE ≠ 3 ∧ s.hub.chip.lkp.gated = false ∧ s.hub.chip.bit F.PWR_VOTE_SW_VOTE 0 = false ∧
      s.hub.lkVote = false) ∧
    (∃ (s : State), s.hub.chip.running = true ∧ s.hub.chip.lkp.gated = true ∧ s.hub.lkOn = true) ∧
    (∃ (s : State) (d : Fin 10) (stall : BitVec 16), s.hub.chip.running = true ∧ d ≠ 0 ∧ s.hub.chip.bit F.PWR_STATUS_DOM_ON d.val = false) ∧
    (∃ (s : State) (stall : BitVec 16), s.hub.chip.running = true ∧ s.hub.chip.bit F.PWR_STATUS_DOM_ON 0 = false ∧
      s.hub.chip.lkp.gated = true) ∧
    (∃ (s : State), s.hub.deepReady = true) ∧
    (∃ (s : State), s.hub.deepReady = true) ∧
    (∃ (s : State) (k : Fin 11) (pin : Fin 16), s.hub.chip.pst.deep = true ∧ s.hub.chip.wakeEnabled k.val pin.val = true) ∧
    (∃ (s : State) (off : BitVec 24) (v : BitVec 32), s.hub.chip.pst.deep = true) ∧
    (∃ (s : State), s.hub.chip.running = true ∧ s.hub.chip.on F.PWR_CTL_DEEP_REQ = false) ∧
    (∃ (s : State), s.hub.chip.pst.offDue = true ∧ s.hub.chip.rst.active ≠ some .por) ∧
    (∃ (s : State), s.hub.chip.pst.off = true) ∧
    (∃ (s : State), s.hub.chip.pst.off = true ∧ s.hub.chip.get F.PWR_AON_TIMER_COUNT ≠ 0) :=
  ⟨
    ⟨runs [(F.PWR_VOTE_SW_VOTE, 0)], 8, by decide +kernel⟩,
    ⟨runs [(F.LKP_STATUS_STATE, 0), (F.PWR_VOTE_SW_VOTE, 0)], by decide +kernel⟩,
    ⟨runs [(F.LKP_STATUS_STATE, 0)] fun c => { c with lkp := { c.lkp with gated := true } }, by decide +kernel⟩,
    ⟨runs [(F.PWR_STATUS_DOM_ON, 1)], 5, 40, by decide +kernel⟩,
    ⟨runs [(F.PWR_STATUS_DOM_ON, 0)] fun c => { c with lkp := { c.lkp with gated := true } }, 40, by decide +kernel⟩,
    ⟨runs [(F.PWR_CTL_DEEP_REQ, 1), (F.PWR_VOTE_SW_VOTE, 0), (F.PWR_STATUS_DOM_ON, 0), (F.LKP_STATUS_STATE, 0)] fun c => { c with lkp := { c.lkp with gated := true } },
      by decide +kernel⟩,
    ⟨runs [(F.PWR_CTL_DEEP_REQ, 1), (F.PWR_VOTE_SW_VOTE, 0), (F.PWR_STATUS_DOM_ON, 0), (F.LKP_STATUS_STATE, 0)] fun c => { c with lkp := { c.lkp with gated := true } },
      by decide +kernel⟩,
    ⟨runs [(F.PWR_WAKE_EN, 4)] fun c => { c with pst := { c.pst with deep := true } }, 2, 0, by decide +kernel⟩,
    ⟨runs [(F.PWR_WAKE_EN, 0x200)] fun c => { c with pst := { c.pst with deep := true } }, 0, 0, by decide +kernel⟩,
    ⟨runs [] fun c => { c with pst := { c.pst with hold := true } }, by decide +kernel⟩,
    ⟨runs [] fun c => { c with pst := { c.pst with offDue := true } }, by decide +kernel⟩,
    ⟨runs [] fun c => { c with pst := { c.pst with off := true } }, by decide +kernel⟩,
    ⟨runs [(F.PWR_AON_TIMER_COUNT, 5)] fun c => { c with pst := { c.pst with off := true } }, by decide +kernel⟩⟩

theorem witness_LockkeeperSelfTestAndScrub :
    (∃ (s : State) (pc : Word), s.hub.chip.coresRun = true) ∧
    (∃ (s : State), s.hub.chip.coresRun = true ∧ s.hub.chip.get F.LKP_STATUS_STATE = 0 ∧ s.hub.chip.watchdogDue = true) ∧
    (∃ (s : State), s.hub.chip.running = true ∧ (s.hub.chip.lkp.phase = .bist ∨ s.hub.chip.lkp.phase = .load) ∧
      s.hub.chip.on F.LKP_CTL_READY = false ∧ s.hub.chip.get F.LKP_STATUS_STATE ≠ 3 ∧ s.hub.chip.lkp.failing = none) ∧
    (∃ (s : State) (cause : LkCause), s.hub.chip.running = true ∧ s.hub.chip.lkp.failing = some cause ∧
      s.hub.chip.get F.LKP_STATUS_RESTARTS ≠ 3) ∧
    (∃ (s : State) (cause : LkCause), s.hub.chip.running = true ∧ s.hub.chip.rst.active = none ∧ s.hub.chip.lkp.failing = some cause ∧
      s.hub.chip.get F.LKP_STATUS_RESTARTS = 3) ∧
    (∃ (s : State), s.hub.chip.running = true ∧ s.hub.chip.lkp.phase = .held) ∧
    (∃ (s : State), s.hub.chip.running = true ∧ s.hub.chip.lkp.phase = .bist) ∧
    (∃ (s : State), s.hub.chip.running = true ∧ s.hub.chip.lkp.phase = .bist ∧ s.hub.chip.get F.LKP_STATUS_STATE ≠ 3 ∧
      s.hub.chip.lkp.failing = none) ∧
    (∃ (s : State) (fw : ImageFile), s.hub.chip.running = true ∧ s.hub.chip.lkp.phase = .load ∧ s.hub.chip.lkp.failing = none ∧
      s.hub.chip.get F.LKP_STATUS_STATE ≠ 3) ∧
    (∃ (s : State), s.hub.chip.running = true) ∧
    (∃ (s : State), s.hub.chip.running = true ∧ s.hub.chip.rst.active = none) ∧
    (∃ (s : State) (r : BistResult), s.hub.chip.running = true ∧ s.hub.chip.rst.bist = true ∧ r.words = [] ∧ r.unrepairable = none ∧
      r.eccOk = true ∧ r.logicOk = true) ∧
    (∃ (s : State) (r : BistResult), s.hub.chip.running = true ∧ s.hub.chip.rst.bist = true ∧ r.logicOk = false) ∧
    (∃ (s : State) (owner : LostOwner), s.hub.chip.scrubs = true ∧ s.hub.chip.get F.REL_SCRUB_POS_WORD ≠ 471_039) ∧
    (∃ (s : State) (owner : LostOwner), s.hub.chip.scrubs = true ∧ s.hub.chip.get F.REL_SCRUB_POS_WORD = 471_039) :=
  ⟨
    ⟨runs [(F.LKP_STATUS_STATE, 0)], 64, by decide +kernel⟩,
    ⟨runs [(F.LKP_STATUS_STATE, 0)] fun c => { c with now := 4_000_000_000 }, by decide +kernel⟩,
    ⟨runs [(F.LKP_STATUS_STATE, 1)] fun c => { c with lkp := { c.lkp with phase := .load } }, by decide +kernel⟩,
    ⟨runs [(F.LKP_STATUS_STATE, 0)] fun c => { c with lkp := { c.lkp with failing := some .watchdog } }, .watchdog, by decide +kernel⟩,
    ⟨runs [(F.LKP_STATUS_STATE, 0), (F.LKP_STATUS_RESTARTS, 3)] fun c => { c with lkp := { c.lkp with failing := some .watchdog } }, .watchdog,
      by decide +kernel⟩,
    ⟨runs [(F.LKP_STATUS_STATE, 2)] fun c => { c with lkp := { c.lkp with phase := .held } }, by decide +kernel⟩,
    ⟨runs [(F.LKP_STATUS_STATE, 2)] fun c => { c with lkp := { c.lkp with phase := .bist } }, by decide +kernel⟩,
    ⟨runs [(F.LKP_STATUS_STATE, 2)] fun c => { c with lkp := { c.lkp with phase := .bist } }, by decide +kernel⟩,
    ⟨runs [(F.LKP_STATUS_STATE, 1)] fun c => { c with lkp := { c.lkp with phase := .load } }, imageTest, by decide +kernel⟩,
    ⟨runs [], by decide +kernel⟩,
    ⟨runs [], by decide +kernel⟩,
    ⟨runs [] fun c => { c with rst := { c.rst with bist := true } }, { lanes := 63, words := [], unrepairable := none, eccOk := true, checker := 0, logicOk := true },
      by decide +kernel⟩,
    ⟨runs [] fun c => { c with rst := { c.rst with bist := true } }, { lanes := 63, words := [], unrepairable := none, eccOk := true, checker := 0, logicOk := false },
      by decide +kernel⟩,
    ⟨runs [(F.REL_CTL_SCRUB_EN, 1), (F.REL_SCRUB_POS_WORD, 4096)], .nobody, by decide +kernel⟩,
    ⟨runs [(F.REL_CTL_SCRUB_EN, 1), (F.REL_SCRUB_POS_WORD, 471_039)], .nobody, by decide +kernel⟩⟩

theorem witness_TicksGovernorAndGates :
    (∃ (s : State) (m : FrameMeas), s.hub.chip.running = true ∧ s.hub.chip.subns < 1_000_000) ∧
    (∃ (s : State), s.hub.chip.running = true ∧ s.hub.chip.on F.BUD_CTL_FORCE_EN = false ∧ 0 < s.hub.chip.get F.BUD_STATUS_LEVEL ∧
      s.hub.chip.fallHold ≤ s.hub.chip.get F.BUD_STATUS_FALL_CNT) ∧
    (∃ (s : State), s.hub.chip.running = true ∧ s.hub.chip.get (F.TRK_STATUS_CAP_BUDGET 0) < effectsCap s.hub.chip.bud.row) ∧
    (∃ (s : State) (y : Chan), s.hub.chip.running = true ∧ s.hub.chip.bit F.BUD_SHED_STATUS_SHED y.val = true ∧
      s.hub.chip.shedFits y = true ∧ s.hub.chip.get F.BUD_CFG_RESTORE_HOLD * 100 < s.hub.chip.bud.clearFor[y]) ∧
    (∃ (s : State) (u : Nat) (n : Nat), s.hub.chip.running = true ∧ s.hub.chip.bud.frozen = some (u, n) ∧
      (s.hub.rampsSettled = true ∨ max 1 (s.hub.chip.get F.BUD_CFG_RAMP_FREEZE_MAX) ≤ n)) ∧
    (∃ (s : State) (e : DPort), (s.hub.chip.gateRun e.val).running = true ∧
      s.hub.chip.gateEmpty e.val (s.hub.chip.gateBank e.val) = false ∧ s.hub.chip.get (F.SCH_P_GATE_STATUS_ENTRY e.val) < 255 ∧
      s.hub.chip.gateDur e.val (s.hub.chip.gateBank e.val) (s.hub.chip.get (F.SCH_P_GATE_STATUS_ENTRY e.val) + 1) ≠ 0) ∧
    (∃ (s : State) (e : DPort), (s.hub.chip.gateRun e.val).running = true) ∧
    (∃ (s : State) (e : DPort), s.hub.chip.on (F.SCH_P_TAKE_CTL_ARMED e.val) = true) :=
  ⟨
    ⟨runs [], measTest, by decide +kernel⟩,
    ⟨runs [(F.BUD_CTL_FORCE_EN, 0), (F.BUD_STATUS_LEVEL, 2), (F.BUD_STATUS_FALL_CNT, 4095)], by decide +kernel⟩,
    ⟨runs [(F.TRK_STATUS_CAP_BUDGET 0, 2)], by decide +kernel⟩,
    ⟨runs [(F.BUD_SHED_STATUS_SHED, 2), (F.BUD_FEED_POWER, 1000), (F.BUD_SHED_LEVEL 1, 1)] fun c => { c with bud := { c.bud with clearFor := #v[0, 300000, 0, 0], row := 0 } },
      1, by decide +kernel⟩,
    ⟨runs [] fun c => { c with bud := { c.bud with frozen := some (4, 300) } }, 4, 300, by decide +kernel⟩,
    ⟨runs [(F.SCH_GATE_DURATION 5 0 0, 1000), (F.SCH_GATE_DURATION 5 0 1, 1000)] fun c => { c with sch := { c.sch with gates := c.sch.gates.setIfInBounds 5 ⟨true, 0, 0⟩ } },
      5, by decide +kernel⟩,
    ⟨runs [] fun c => { c with sch := { c.sch with gates := c.sch.gates.setIfInBounds 5 ⟨true, 0, 0⟩ } }, 5, by decide +kernel⟩,
    ⟨runs [(F.SCH_P_TAKE_CTL_ARMED 5, 1)], 5, by decide +kernel⟩⟩

theorem witness_BringUpAndClimb :
    (∃ (s : State), s.hub.chip.running = true) ∧
    (∃ (s : State) (p : Port), s.hub.chip.get (F.TRK_STATUS_PHASE p) = phaseEcho) ∧
    (∃ (s : State) (p : Port) (ppm : Int), s.hub.chip.get (F.TRK_STATUS_PHASE p) = phaseAcquire) ∧
    (∃ (s : State) (p : Port) (h : PartnerHello), s.hub.chip.get (F.TRK_STATUS_PHASE p) = phaseHandshake ∧
      s.hub.chip.trk[p].ppm.natAbs ≤ 250 ∧ h.serial.toNat ≠ s.hub.chip.serial ∧ s.hub.chip.laneOut p 0 = false ∧
      s.hub.chip.laneOut p 1 = false) ∧
    (∃ (s : State) (p : Port) (h : PartnerHello), s.hub.chip.get (F.TRK_STATUS_PHASE p) = phaseHandshake ∧
      (250 < s.hub.chip.trk[p].ppm.natAbs ∨ h.serial.toNat = s.hub.chip.serial)) ∧
    (∃ (s : State) (p : Port), (s.hub.chip.get (F.TRK_STATUS_PHASE p) = phaseAcquire ∨ s.hub.chip.get (F.TRK_STATUS_PHASE p) = phaseEcho ∨ s.hub.chip.get (F.TRK_STATUS_PHASE p) = phaseHandshake)) ∧
    (∃ (s : State) (p : Port), s.hub.chip.get (F.TRK_STATUS_PHASE p) = phaseListen) ∧
    (∃ (s : State) (p : Port) (ms : Nat), s.hub.chip.get (F.TRK_STATUS_PHASE p) = phaseListen ∧
      (s.hub.chip.trk[p].wait ≠ .sixtySeconds ∨ 100 ≤ ms)) ∧
    (∃ (s : State) (p : Port) (ms : Nat), s.hub.chip.trk[p].wait = .sixtySeconds ∧ ms < 100) ∧
    (∃ (s : State) (p : Port), s.hub.chip.trk[p].wait ≠ .none ∧ s.hub.chip.on (F.TRK_CTL_EN p) = true) ∧
    (∃ (s : State) (p : Port) (sn : Snapshot), s.hub.chip.running = true ∧ s.hub.chip.on (F.TRK_STATUS_LINK_UP p) = true ∧
      s.hub.chip.get (F.TRK_STATUS_PHASE p) ≠ phaseProbe ∧ s.hub.chip.get (F.TRK_STATUS_STEP p) ≠ 0) ∧
    (∃ (s : State) (p : Port), s.hub.chip.running = true ∧ s.hub.chip.on (F.TRK_STATUS_LINK_UP p) = true ∧
      s.hub.chip.get (F.TRK_STATUS_PHASE p) = phaseClimb ∧ s.hub.chip.shiftIdle p = true ∧
      s.hub.chip.stepCap p < s.hub.chip.get (F.TRK_STATUS_STEP p) + 1) ∧
    (∃ (s : State) (p : Port), s.hub.chip.running = true ∧ s.hub.chip.on (F.TRK_STATUS_LINK_UP p) = true ∧
      s.hub.chip.get (F.TRK_STATUS_PHASE p) = phaseClimb ∧ s.hub.chip.shiftIdle p = true ∧
      s.hub.chip.get (F.TRK_STATUS_STEP p) + 1 ≤ s.hub.chip.stepCap p ∧ s.hub.chip.get (F.TRK_STATUS_STEP p) < 5 ∧
      s.hub.chip.heldOff p (s.hub.chip.get (F.TRK_STATUS_STEP p) + 1) = false ∧
      (s.hub.chip.get (F.TRK_GOV_CFG_ACCEPT_MARGIN p) : Int) ≤ s.hub.chip.portPredicted p (s.hub.chip.get (F.TRK_STATUS_STEP p) + 1)) ∧
    (∃ (s : State) (p : Port), s.hub.chip.on (F.TRK_STATUS_WET p) = true) :=
  ⟨
    ⟨runs [], by decide +kernel⟩,
    ⟨trkSt phaseEcho [], 1, by decide +kernel⟩,
    ⟨trkSt phaseAcquire [], 1, 40, by decide +kernel⟩,
    ⟨trkSt phaseHandshake [], 1, helloTest, by decide +kernel⟩,
    ⟨trkSt phaseHandshake [] fun c => c.modTrk 1 fun t => { t with ppm := 300 }, 1, helloTest, by decide +kernel⟩,
    ⟨trkSt phaseAcquire [], 1, by decide +kernel⟩,
    ⟨trkSt phaseListen [], 1, by decide +kernel⟩,
    ⟨trkSt phaseListen [], 1, 0, by decide +kernel⟩,
    ⟨trkSt phaseListen [] fun c => c.modTrk 1 fun t => { t with wait := .sixtySeconds }, 1, 99, by decide +kernel⟩,
    ⟨trkSt 0 [(F.TRK_CTL_EN 1, 1)] fun c => c.modTrk 1 fun t => { t with wait := .oneSecond }, 1, by decide +kernel⟩,
    ⟨trkUp [], 1, snapTest, by decide +kernel⟩,
    ⟨trkUp [(F.TRK_STATUS_PHASE 1, phaseClimb), (F.TRK_STATUS_STEP 1, 5)], 1, by decide +kernel⟩,
    ⟨trkUp [(F.TRK_STATUS_PHASE 1, phaseClimb)] fun c => c.modTrk 1 fun t => { t with snrs := snrTest }, 1, by decide +kernel⟩,
    ⟨trkUp [(F.TRK_STATUS_WET 1, 1)], 1, by decide +kernel⟩⟩

theorem witness_SpansAndCodewords :
    (∃ (s : State) (p : Port), s.hub.chip.on (F.TRK_STATUS_LINK_UP p) = true ∧ s.hub.chip.mooredPort p = false) ∧
    (∃ (s : State) (p : Port) (m : Marker) (copies : List Block), s.hub.chip.on (F.TRK_STATUS_LINK_UP p) = true ∧
      (copies.filterMap Marker.decode).head? = some m) ∧
    (∃ (s : State) (p : Port) (copies : List Block), s.hub.chip.on (F.TRK_STATUS_LINK_UP p) = true ∧
      (copies.filterMap Marker.decode).head? = none) ∧
    (∃ (s : State) (p : Port) (l : LaneId) (symbols : List Nat) (blocks : List Block) (n : Nat),
      s.hub.chip.on (F.TRK_CTL_TEST_MODE p) = false ∧ s.hub.chip.on (laneRxLock p l) = true ∧
      (decodeCodeword s.hub.chip.pcs[p].lane[l].descr (s.hub.chip.trk[p].sentPrecode.getLsbD (s.hub.chip.trk[p].rxStep - 1)) (symbols.map (· % 4))).1 = some (blocks, n) ∧
      n ≠ 0) ∧
    (∃ (s : State) (p : Port) (l : LaneId) (symbols : List Nat), s.hub.chip.on (F.TRK_CTL_TEST_MODE p) = false ∧
      s.hub.chip.on (laneRxLock p l) = true ∧ s.hub.chip.on (F.TRK_STATUS_LINK_UP p) = true ∧ s.hub.chip.nakOut p = false ∧
      (decodeCodeword s.hub.chip.pcs[p].lane[l].descr (s.hub.chip.trk[p].sentPrecode.getLsbD (s.hub.chip.trk[p].rxStep - 1)) (symbols.map (· % 4))).1 = none) ∧
    (∃ (s : State) (p : Port) (l : LaneId) (symbols : List Nat), s.hub.chip.on (F.TRK_CTL_TEST_MODE p) = true ∧
      l.val = s.hub.chip.get (F.TRK_TEST_CTL_LANE_SEL p) ∧ s.hub.chip.on (F.TRK_TEST_CTL_CHK_EN p) = true ∧
      isPatternCode (s.hub.chip.get (F.TRK_TEST_CTL_PATTERN p)) = true ∧ s.hub.chip.get (F.TRK_TEST_CTL_LOOP p) = 0) ∧
    (∃ (s : State) (p : Port) (l : LaneId) (symbols : List Nat), s.hub.chip.on (F.TRK_CTL_TEST_MODE p) = true ∧
      l.val = s.hub.chip.get (F.TRK_TEST_CTL_LANE_SEL p) ∧ s.hub.chip.on (F.TRK_TEST_CTL_CHK_EN p) = false ∧
      s.hub.chip.get (F.TRK_TEST_CTL_LOOP p) = 3) ∧
    (∃ (s : State) (p : Port) (ppm : Int), s.hub.chip.on (F.TRK_STATUS_LINK_UP p) = true) ∧
    (∃ (s : State) (p : Port) (idle : Nat), s.hub.chip.on (F.TRK_STATUS_LINK_UP p) = true ∧ s.hub.chip.mooredPort p = false ∧
      s.hub.chip.blocksWait p = false ∧ s.hub.chip.pcs[p].change = none ∧ (idle = 1 ∨ idle = 0 ∧ 2047 ≤ s.hub.chip.pcs[p].sinceFiller) ∧
      s.hub.chip.pcs[p].lane[dealLane s.hub.chip.trk[p].txLanes s.hub.chip.pcs[p].blk].fill.length < 19) :=
  ⟨
    ⟨trkUp [], 1, by decide +kernel⟩,
    ⟨trkUp [], 1, markerTest 0 0 0 0, [Marker.encode (markerTest 0 0 0 0)], by decide +kernel⟩,
    ⟨trkUp [], 1, [], by decide +kernel⟩,
    ⟨trkUp [], 1, 0, oneError, List.replicate 20 0, 1, by decide +kernel, by decide +kernel, test_oneError, by decide +kernel⟩,
    ⟨trkUp [], 1, 0, manyErrors, by decide +kernel, by decide +kernel, by decide +kernel, by decide +kernel, test_manyErrors⟩,
    ⟨trkSt phaseOff [(F.TRK_CTL_TEST_MODE 1, 1), (F.TRK_TEST_CTL_CHK_EN 1, 1), (F.TRK_TEST_CTL_PATTERN 1, 2)], 1, 0, [1, 2], by decide +kernel⟩,
    ⟨trkSt phaseOff [(F.TRK_CTL_TEST_MODE 1, 1), (F.TRK_TEST_CTL_LOOP 1, 3)], 1, 0, [1, 2], by decide +kernel⟩,
    ⟨trkUp [], 1, 40, by decide +kernel⟩,
    ⟨trkUp [], 1, 1, by decide +kernel⟩⟩

theorem witness_LaneChangesAndMooring :
    (∃ (s : State) (p : Port) (l : LaneId), s.hub.chip.laneLive p l = true ∧ s.hub.chip.laneLive p (otherLane l) = true ∧
      s.hub.chip.on (F.TRK_CTL_SINGLE_LANE_EN p) = true ∧ s.hub.chip.on (F.TRK_PARTNER_CAP_SINGLE_LANE_EN p) = true) ∧
    (∃ (s : State) (p : Port) (l : LaneId), s.hub.chip.laneLive p l = true ∧ s.hub.chip.on (F.TRK_CTL_SINGLE_LANE_EN p) = false) ∧
    (∃ (s : State) (p : Port) (b : Block) (l : Nat) (sp : Nat) (bl : Nat), s.hub.chip.laneLive p (laneOfBit l) = true ∧
      s.hub.chip.laneLive p (otherLane (laneOfBit l)) = true ∧ s.hub.chip.on (F.TRK_CTL_SINGLE_LANE_EN p) = true ∧
      s.hub.chip.on (F.TRK_PARTNER_CAP_SINGLE_LANE_EN p) = true ∧ laneCtlDecode b = some (0x01, l, sp, bl)) ∧
    (∃ (s : State) (p : Port) (b : Block) (l : Nat) (sp : Nat) (bl : Nat), s.hub.chip.laneLive p (laneOfBit l) = true ∧
      (s.hub.chip.laneLive p (otherLane (laneOfBit l)) = false ∨ s.hub.chip.on (F.TRK_CTL_SINGLE_LANE_EN p) = false ∨
        s.hub.chip.on (F.TRK_PARTNER_CAP_SINGLE_LANE_EN p) = false) ∧ laneCtlDecode b = some (0x01, l, sp, bl)) ∧
    (∃ (s : State) (p : Port) (l : LaneId), s.hub.chip.on (F.TRK_STATUS_LINK_UP p) = true ∧ s.hub.chip.get (laneState p l) = laneFailed ∧
      s.hub.chip.laneOut p l = false) ∧
    (∃ (s : State) (p : Port) (l : LaneId), s.hub.chip.on (F.TRK_STATUS_LINK_UP p) = true ∧
      s.hub.chip.get (laneState p l) = laneTraining ∧ s.hub.chip.pcs[p].change = none) ∧
    (∃ (s : State) (p : Port) (l : LaneId), s.hub.chip.on (F.TRK_STATUS_LINK_UP p) = true ∧
      s.hub.chip.get (laneState p l) = laneTraining ∧ s.hub.chip.pcs[p].change = none) ∧
    (∃ (s : State) (p : Port) (b : Block) (l : Nat) (sp : Nat) (bl : Nat), s.hub.chip.on (F.TRK_STATUS_LINK_UP p) = true ∧
      laneCtlDecode b = some (0x02, l, sp, bl) ∧ s.hub.chip.get (laneState p (laneOfBit l)) = laneTraining ∧
      s.hub.chip.pcs[p].change = none) ∧
    (∃ (s : State) (p : Port) (b : Block) (l : Nat) (sp : Nat) (bl : Nat), s.hub.chip.on (F.TRK_STATUS_LINK_UP p) = true ∧
      laneCtlDecode b = some (0x02, l, sp, bl) ∧ s.hub.chip.get (laneState p (laneOfBit l)) = laneTraining ∧
      s.hub.chip.pcs[p].change = none) ∧
    (∃ (s : State) (p : Port) (util : Nat), s.hub.chip.on (F.TRK_STATUS_LINK_UP p) = true ∧ s.hub.chip.on (F.TRK_CTL_QUIET_EN p) = true ∧
      s.hub.chip.on (F.TRK_PARTNER_CAP_QUIET_EN p) = true ∧ s.hub.chip.get (F.TRK_LANE_B_STATE p) = laneActive ∧
      s.hub.chip.trk[p].txLanes = 0 ∧ s.hub.chip.pcs[p].change = none ∧ util < s.hub.chip.get (F.TRK_QUIET_CFG_ENTER_UTIL p)) ∧
    (∃ (s : State) (p : Port), s.hub.chip.on (F.TRK_STATUS_LINK_UP p) = true ∧ s.hub.chip.trk[p].txQuiet = true ∧
      s.hub.chip.mooredPort p = false) ∧
    (∃ (s : State) (p : Port) (a : Bool), s.hub.chip.on (F.TRK_STATUS_LINK_UP p) = true ∧ s.hub.chip.mooredPort p = false ∧
      s.hub.chip.trk[p].txQuiet = true ∧ s.hub.chip.pcs[p].change = none ∧
      (a = true ∨ s.hub.chip.strictToward p = true ∨ s.hub.chip.get (F.TRK_QUIET_CFG_WAKE_KIB p) * 1024 < s.hub.chip.queuedToward p)) ∧
    (∃ (s : State) (p : Port) (b : Block) (l : Nat) (sp : Nat) (bl : Nat), s.hub.chip.on (F.TRK_STATUS_LINK_UP p) = true ∧
      laneCtlDecode b = some (0x03, l, sp, bl) ∧ s.hub.chip.get (F.TRK_LANE_B_STATE p) = laneQuiet) ∧
    (∃ (s : State) (p : Port), s.hub.chip.on (F.TRK_STATUS_LINK_UP p) = true ∧ s.hub.chip.moorVote p = true ∧
      s.hub.chip.trk[p].moorSent = true ∧ s.hub.chip.trk[p].moorSeen = true ∧ s.hub.chip.get (F.TRK_LANE_A_STATE p) = laneActive ∧
      s.hub.chip.get (F.TRK_LANE_B_STATE p) = laneActive) ∧
    (∃ (s : State) (p : Port) (d : Nat), s.hub.chip.on (F.TRK_STATUS_LINK_UP p) = true ∧
      s.hub.chip.get (F.TRK_LANE_A_STATE p) = laneMoored ∧ s.hub.chip.get (F.TRK_LANE_B_STATE p) = laneMoored ∧
      s.hub.chip.coefValid p d = true) ∧
    (∃ (s : State) (p : Port) (d : Nat), s.hub.chip.on (F.TRK_STATUS_LINK_UP p) = true ∧
      s.hub.chip.get (F.TRK_LANE_A_STATE p) = laneMoored ∧ s.hub.chip.get (F.TRK_LANE_B_STATE p) = laneMoored ∧
      s.hub.chip.coefValid p d = true) ∧
    (∃ (s : State) (p : Port) (d : Nat), s.hub.chip.mooredPort p = true ∧ s.hub.chip.coefValid p d = false) ∧
    (∃ (s : State) (p : Port), s.hub.chip.running = true ∧ s.hub.chip.on (F.TRK_STATUS_LINK_UP p) = true ∧ s.hub.chip.mooredPort p = false) ∧
    (∃ (s : State) (p : Port), s.hub.chip.on (F.TRK_STATUS_LINK_UP p) = true ∧ 8 ≤ (s.hub.chip.recentViolations p).length) :=
  ⟨
    ⟨trkUp [], 1, 0, by decide +kernel⟩,
    ⟨trkUp [(F.TRK_CTL_SINGLE_LANE_EN 1, 0)], 1, 0, by decide +kernel⟩,
    ⟨trkUp [], 1, laneCtl 0x01 1 5 9, 1, 5, 9, by decide +kernel⟩,
    ⟨trkUp [(F.TRK_PARTNER_CAP_SINGLE_LANE_EN 1, 0)], 1, laneCtl 0x01 1 5 9, 1, 5, 9, by decide +kernel⟩,
    ⟨trkUp [(F.TRK_LANE_B_STATE 1, laneFailed)], 1, 1, by decide +kernel⟩,
    ⟨trkUp [(F.TRK_LANE_B_STATE 1, laneTraining)], 1, 1, by decide +kernel⟩,
    ⟨trkUp [(F.TRK_LANE_B_STATE 1, laneTraining)], 1, 1, by decide +kernel⟩,
    ⟨trkUp [(F.TRK_LANE_B_STATE 1, laneTraining)], 1, laneCtl 0x02 1 5 9, 1, 5, 9, by decide +kernel⟩,
    ⟨trkUp [(F.TRK_LANE_B_STATE 1, laneTraining)], 1, laneCtl 0x02 1 5 9, 1, 5, 9, by decide +kernel⟩,
    ⟨trkUp [(F.TRK_CTL_QUIET_EN 1, 1), (F.TRK_PARTNER_CAP_QUIET_EN 1, 1)], 1, 0, by decide +kernel⟩,
    ⟨trkUp [] fun c => c.modTrk 1 fun t => { t with txQuiet := true }, 1, by decide +kernel⟩,
    ⟨trkUp [(F.TRK_LANE_B_STATE 1, laneQuiet)] fun c => c.modTrk 1 fun t => { t with txQuiet := true, txLanes := 1 }, 1, true, by decide +kernel⟩,
    ⟨trkUp [(F.TRK_LANE_B_STATE 1, laneQuiet)], 1, laneCtl 0x03 1 5 9, 1, 5, 9, by decide +kernel⟩,
    ⟨trkUp [(F.PWR_VOTE_SW_VOTE, 0), (F.LNK_STATUS_ADMITTED 1, 1)] fun c => c.modTrk 1 fun t => { t with moorSent := true, moorSeen := true },
      1, by decide +kernel⟩,
    ⟨trkUp [(F.TRK_LANE_A_STATE 1, laneMoored), (F.TRK_LANE_B_STATE 1, laneMoored), (F.TRK_MOOR_STATUS_COEF_VALID 1, 1)] fun c => c.modTrk 1
      fun t => { t with coefAt := some 0 }, 1, 0, by decide +kernel⟩,
    ⟨trkUp [(F.TRK_LANE_A_STATE 1, laneMoored), (F.TRK_LANE_B_STATE 1, laneMoored), (F.TRK_MOOR_STATUS_COEF_VALID 1, 1)] fun c => c.modTrk 1
      fun t => { t with coefAt := some 0 }, 1, 0, by decide +kernel⟩,
    ⟨trkUp [(F.TRK_LANE_A_STATE 1, laneMoored), (F.TRK_LANE_B_STATE 1, laneMoored)] fun c => c.modTrk 1 fun t => { t with coefAt := none },
      1, 0, by decide +kernel⟩,
    ⟨trkUp [], 1, by decide +kernel⟩,
    ⟨trkUp [] fun c => c.modTrk 1 fun t => { t with violations := [0, 0, 0, 0, 0, 0, 0, 0] }, 1, by decide +kernel⟩⟩

theorem witness_RateShifts :
    (∃ (s : State) (p : Port), s.hub.chip.upAllowed p = true ∧ s.hub.chip.shiftIdle p = true ∧
      s.hub.chip.on (F.TRK_STATUS_LINK_UP p) = true ∧ s.hub.chip.get (F.TRK_STATUS_STEP p) < 5) ∧
    (∃ (s : State) (p : Port) (a : Int) (b : Int), s.hub.chip.laneLive p 0 = true ∧
      a - s.hub.chip.snrReq p (s.hub.chip.get (F.TRK_STATUS_STEP p)) < (s.hub.chip.get (F.TRK_GOV_CFG_DOWN_MARGIN p) : Int) ∧
      s.hub.chip.on (F.TRK_CTL_AUTO_DOWN p) = true ∧ s.hub.chip.shiftIdle p = true ∧ 1 < s.hub.chip.get (F.TRK_STATUS_STEP p) ∧
      s.hub.chip.get (F.TRK_STATUS_STEP p) ≤ 5) ∧
    (∃ (s : State) (p : Port) (l : LaneId) (k : Nat) (n : Nat), s.hub.chip.laneLive p l = true ∧ s.hub.chip.csrHigh p k n = true ∧
      s.hub.chip.on (F.TRK_CTL_AUTO_DOWN p) = true ∧ s.hub.chip.shiftIdle p = true ∧ 1 < s.hub.chip.get (F.TRK_STATUS_STEP p) ∧
      s.hub.chip.get (F.TRK_STATUS_STEP p) ≤ 5) ∧
    (∃ (s : State) (p : Port) (l : LaneId), s.hub.chip.laneLive p l = true ∧ s.hub.chip.burstSeen p l = true ∧
      s.hub.chip.on (F.TRK_CTL_SINGLE_LANE_EN p) = false ∧ s.hub.chip.shiftIdle p = true ∧ 1 < s.hub.chip.get (F.TRK_STATUS_STEP p) ∧
      s.hub.chip.get (F.TRK_STATUS_STEP p) ≤ 5) ∧
    (∃ (s : State) (p : Port), s.hub.chip.on (F.TRK_STATUS_LINK_UP p) = true ∧ s.hub.chip.budgetDue p = true ∧
      s.hub.chip.shiftIdle p = true ∧ s.hub.chip.trk[p].cmdTarget = none ∧ 1 ≤ s.hub.chip.get (F.TRK_STATUS_CAP_BUDGET p) ∧
      s.hub.chip.get (F.TRK_STATUS_CAP_BUDGET p) < s.hub.chip.get (F.TRK_STATUS_STEP p) ∧ s.hub.chip.get (F.TRK_STATUS_CAP_BUDGET p) ≤ 5 ∧
      s.hub.chip.get (F.TRK_STATUS_STEP p) ≤ s.hub.chip.get (F.TRK_CTL_STEP_MAX p) ∧
      s.hub.chip.get (F.TRK_STATUS_STEP p) ≤ s.hub.chip.get (F.TRK_STATUS_PARTNER_CAP p)) ∧
    (∃ (s : State) (p : Port), s.hub.chip.on (F.TRK_STATUS_LINK_UP p) = true ∧ s.hub.chip.shiftIdle p = true ∧
      s.hub.chip.trk[p].cmdTarget = none ∧ 1 ≤ s.hub.chip.stepCap p ∧ s.hub.chip.stepCap p ≤ 5 ∧
      s.hub.chip.stepCap p < s.hub.chip.get (F.TRK_STATUS_STEP p) ∧
      s.hub.chip.get (F.TRK_STATUS_PARTNER_CAP p) < s.hub.chip.get (F.TRK_STATUS_STEP p)) ∧
    (∃ (s : State) (p : Port) (m : Marker), s.hub.chip.trk[p].lastMarker = some m ∧ m.shOp = 1 ∧ s.hub.chip.trk[p].own = none ∧
      s.hub.chip.trk[p].resp = none ∧ s.hub.chip.trk[p].answered ≠ some (m.shSpan.toNat, m.shStep.toNat) ∧ 1 ≤ m.shStep.toNat ∧
      m.shStep.toNat ≤ 5 ∧ s.hub.chip.refusal p m.shStep.toNat = none) ∧
    (∃ (s : State) (p : Port) (m : Marker) (r : Nat), s.hub.chip.trk[p].lastMarker = some m ∧ m.shOp = 1 ∧ s.hub.chip.trk[p].own = none ∧
      s.hub.chip.trk[p].answered ≠ some (m.shSpan.toNat, m.shStep.toNat) ∧ 1 ≤ m.shStep.toNat ∧ m.shStep.toNat ≤ 5 ∧
      s.hub.chip.trk[p].resp = none ∧ s.hub.chip.refusal p m.shStep.toNat = some r ∧ r ≠ 4) ∧
    (∃ (s : State) (p : Port) (m : Marker) (o : Proposal), s.hub.chip.trk[p].lastMarker = some m ∧ s.hub.chip.trk[p].own = some o ∧
      m.shOp = 2 ∧ o.phase = .requested ∧ m.shPeer.toNat = o.spanN ∧ spanLe (spanSub o.spanN 2) (s.hub.chip.get (F.TRK_SPAN p)) = false) ∧
    (∃ (s : State) (p : Port) (m : Marker) (o : Proposal), s.hub.chip.trk[p].lastMarker = some m ∧ s.hub.chip.trk[p].own = some o ∧
      m.shOp = 3 ∧ o.phase = .requested ∧ m.shPeer.toNat = o.spanN ∧ qualityDown o = false ∧ s.hub.chip.trk[p].limitDue = false ∧
      s.hub.chip.get (F.TRK_STATUS_STEP p) ≤ s.hub.chip.stepCap p) ∧
    (∃ (s : State) (p : Port) (o : Proposal), s.hub.chip.trk[p].own = some o ∧ o.phase = .requested ∧
      spanLe (spanSub o.spanN 3) (s.hub.chip.get (F.TRK_SPAN p)) = true ∧ qualityDown o = false) ∧
    (∃ (s : State) (p : Port) (m : Marker) (a : Acceptance), s.hub.chip.trk[p].lastMarker = some m ∧ s.hub.chip.trk[p].resp = some a ∧
      m.shOp = 4 ∧ a.committed = false ∧ m.shPeer.toNat = a.peerN) ∧
    (∃ (s : State) (p : Port) (a : Acceptance), s.hub.chip.trk[p].resp = some a ∧ a.committed = false ∧
      spanLe (spanSub a.spanM 1) (s.hub.chip.get (F.TRK_SPAN p)) = true) ∧
    (∃ (s : State) (p : Port) (o : Proposal), s.hub.chip.trk[p].own = some o ∧ o.phase = .committed ∧ o.txDone = false ∧
      o.rxDone = false ∧ s.hub.chip.trk[p].resp = none ∧ s.hub.chip.pcs[p].change = none ∧ o.spanN = s.hub.chip.get (F.TRK_SPAN p)) ∧
    (∃ (s : State) (p : Port) (o : Proposal) (d : Nat), s.hub.chip.trk[p].own = some o ∧ o.phase = .committed ∧ o.txDone = true ∧
      o.rxDone = false ∧ o.failed = false ∧ qualityDown o = false ∧ s.hub.chip.trk[p].limitDue = false ∧
      s.hub.chip.get (F.TRK_STATUS_STEP p) ≤ s.hub.chip.stepCap p) ∧
    (∃ (s : State) (p : Port) (l : LaneId) (o : Proposal), s.hub.chip.on (F.TRK_STATUS_SHIFT_PENDING p) = true ∧
      s.hub.chip.laneLive p l = true ∧ s.hub.chip.trk[p].own = some o ∧ o.phase = .committed ∧
      s.hub.chip.on (F.TRK_CTL_SINGLE_LANE_EN p) = false) :=
  ⟨
    ⟨trkUp [(F.TRK_CTL_AUTO_UP 1, 1)] fun c => c.modTrk 1 fun t => { t with snrs := snrTest }, 1, by decide +kernel⟩,
    ⟨trkUp [(F.TRK_CTL_AUTO_DOWN 1, 1), (F.TRK_GOV_CFG_DOWN_MARGIN 1, 16)], 1, 8, 40, by decide +kernel⟩,
    ⟨trkUp [(F.TRK_CTL_AUTO_DOWN 1, 1), (F.TRK_GOV_CFG_CSR_EXP 1, 3)], 1, 0, 2, 1999, by decide +kernel⟩,
    ⟨trkUp [(F.TRK_CTL_SINGLE_LANE_EN 1, 0), (F.TRK_GOV_CFG_UNC_BURST 1, 3)] fun c => c.modLane 1 0 fun y => { y with bad := [1, 2, 3] },
      1, 0, by decide +kernel⟩,
    ⟨trkUp [(F.TRK_STATUS_CAP_BUDGET 1, 2)], 1, by decide +kernel⟩,
    ⟨trkUp [(F.TRK_STATUS_PARTNER_CAP 1, 2)], 1, by decide +kernel⟩,
    ⟨trkUp [] fun c => c.modTrk 1 fun t => { t with lastMarker := some (markerTest 1 4 20 0), snrs := snrTest }, 1, markerTest 1 4 20 0,
      by decide +kernel⟩,
    ⟨trkUp [(F.TRK_STATUS_CAP_BUDGET 1, 3)] fun c => c.modTrk 1 fun t => { t with lastMarker := some (markerTest 1 4 20 0) }, 1,
      markerTest 1 4 20 0, 1, by decide +kernel⟩,
    ⟨trkUp [] fun c => c.modTrk 1 fun t => { t with own := some (propTest .requested false), lastMarker := some (markerTest 2 4 30 20) },
      1, markerTest 2 4 30 20, propTest .requested false, by decide +kernel⟩,
    ⟨trkUp [] fun c => c.modTrk 1 fun t => { t with own := some (propTest .requested false), lastMarker := some (markerTest 3 4 30 20) },
      1, markerTest 3 4 30 20, propTest .requested false, by decide +kernel⟩,
    ⟨trkUp [(F.TRK_SPAN 1, 20)] fun c => c.modTrk 1 fun t => { t with own := some (propTest .requested false) }, 1, propTest .requested false,
      by decide +kernel⟩,
    ⟨trkUp [] fun c => c.modTrk 1 fun t => { t with resp := some accTest, lastMarker := some (markerTest 4 4 30 20) }, 1, markerTest 4 4 30 20,
      accTest, by decide +kernel⟩,
    ⟨trkUp [(F.TRK_SPAN 1, 30)] fun c => c.modTrk 1 fun t => { t with resp := some accTest }, 1, accTest, by decide +kernel⟩,
    ⟨trkUp [(F.TRK_SPAN 1, 20)] fun c => c.modTrk 1 fun t => { t with own := some (propTest .committed false) }, 1, propTest .committed false,
      by decide +kernel⟩,
    ⟨trkUp [] fun c => c.modTrk 1 fun t => { t with own := some (propTest .committed true) }, 1, propTest .committed true, 80, by decide +kernel⟩,
    ⟨trkUp [(F.TRK_STATUS_SHIFT_PENDING 1, 1), (F.TRK_CTL_SINGLE_LANE_EN 1, 0)] fun c => c.modTrk 1 fun t => { t with own := some (propTest .committed true) },
      1, 0, propTest .committed true, by decide +kernel⟩⟩

theorem witness_LinkBargesSentAndReceived :
    (∃ (s : State) (p : Port) (x : TxBarge) (rest : List TxBarge), s.hub.chip.on (F.TRK_STATUS_LINK_UP p) = true ∧ s.hub.chip.on
      (F.LNK_CTL_EN p) = true ∧ s.hub.chip.lnk[p].txq = x :: rest ∧ s.hub.chip.lnk[p].resend = [] ∧ s.hub.chip.ageTicks x.desc < 13
      ∧ s.hub.chip.revoked x.desc = false ∧ (s.hub.chip.on (F.LNK_STATUS_ADMITTED p) = true ∨ x.barge.hdr.type.toNat = typeLctl) ∧
      s.hub.chip.txHeld p = false ∧ s.hub.chip.get (F.LNK_TXC p) < 0xFFFF_FFFE ∧ s.hub.chip.pcs[p].change = none ∧
      (s.hub.chip.sendsClear p = true ∨ (s.hub.chip.key.slot (txSlot p (s.hub.chip.get (F.LNK_EPOCH_EPOCH p)))).refuses p.val =
      false) ∧ s.hub.chip.lnk[p].replay.length < 2047 ∧ (s.hub.chip.lnk[p].replay.map fun o => bargeSize o.barge).foldl (· + ·) 0 +
      bargeSize x.barge ≤ 2048) ∧
    (∃ (s : State) (p : Port) (x : TxBarge) (rest : List TxBarge), noSampling s.hub.chip ∧ s.hub.chip.on (F.TRK_STATUS_LINK_UP p) = true
      ∧ s.hub.chip.on (F.LNK_CTL_EN p) = true ∧ s.hub.chip.lnk[p].txq = x :: rest ∧ s.hub.chip.lnk[p].resend = [] ∧
      s.hub.chip.ageTicks x.desc < 13 ∧ s.hub.chip.revoked x.desc = false ∧ s.hub.chip.on (F.LNK_STATUS_ADMITTED p) = false ∧
      x.barge.hdr.type.toNat ≠ typeLctl) ∧
    (∃ (s : State) (p : Port) (x : TxBarge) (rest : List TxBarge), noSampling s.hub.chip ∧ s.hub.chip.lnk[p].txq = x :: rest ∧
      s.hub.chip.lnk[p].resend = [] ∧ 13 ≤ s.hub.chip.ageTicks x.desc) ∧
    (∃ (s : State) (p : Port) (x : TxBarge) (rest : List TxBarge), s.hub.chip.on (F.TRK_STATUS_LINK_UP p) = true ∧ s.hub.chip.on
      (F.LNK_CTL_EN p) = true ∧ s.hub.chip.lnk[p].txq = x :: rest ∧ s.hub.chip.lnk[p].resend = [] ∧ s.hub.chip.ageTicks x.desc < 13
      ∧ s.hub.chip.revoked x.desc = false ∧ s.hub.chip.on (F.LNK_STATUS_ADMITTED p) = true ∧ s.hub.chip.on (F.LNK_STATUS_TX_HOLD p)
      = true) ∧
    (∃ (s : State) (p : Port) (x : TxBarge) (rest : List TxBarge), s.hub.chip.on (F.TRK_STATUS_LINK_UP p) = true ∧ s.hub.chip.on
      (F.LNK_CTL_EN p) = true ∧ s.hub.chip.lnk[p].txq = x :: rest ∧ s.hub.chip.lnk[p].resend = [] ∧ s.hub.chip.ageTicks x.desc < 13
      ∧ s.hub.chip.revoked x.desc = false ∧ s.hub.chip.on (F.LNK_STATUS_ADMITTED p) = true ∧ s.hub.chip.txHeld p = false ∧
      s.hub.chip.get (F.LNK_TXC p) = 0xFFFF_FFFE ∧ (s.hub.chip.sendsClear p = true ∨ (s.hub.chip.key.slot (txSlot p (s.hub.chip.get
      (F.LNK_EPOCH_EPOCH p)))).refuses p.val = false) ∧ s.hub.chip.lnk[p].replay.length < 2047 ∧ (s.hub.chip.lnk[p].replay.map fun o
      => bargeSize o.barge).foldl (· + ·) 0 + bargeSize x.barge ≤ 2048) ∧
    (∃ (s : State) (p : Port) (blocks : List Block) (e : Block) (ws : List DpWord), s.hub.chip.on (F.TRK_STATUS_LINK_UP p) = true ∧
      s.hub.chip.on (F.LNK_CTL_EN p) = true ∧ s.hub.chip.dpReady = true ∧ bargeOf blocks = some (ws, e) ∧ ws ≠ [] ∧ bargeCrc ws e =
      e.extractLsb' 128 32 ∧ e.getLsbD 228 = true ∧ (e.extractLsb' 236 12).toNat = s.hub.chip.get (F.LNK_RX_EXPECT p) ∧
      s.hub.chip.lnk[p].naked = none ∧ s.hub.chip.on (F.LNK_STATUS_ADMITTED p) = true ∧ s.hub.chip.on (F.LNK_CTL_CIPHER_EN p) =
      false ∧ s.hub.chip.pcs[p].change = none ∧ headerValid (ws.headD 0#128) ((e.extractLsb' 230 6).toNat + 1) = true) ∧
    (∃ (s : State) (p : Port) (blocks : List Block) (e : Block) (ws : List DpWord), s.hub.chip.on (F.TRK_STATUS_LINK_UP p) = true ∧
      s.hub.chip.on (F.LNK_CTL_EN p) = true ∧ s.hub.chip.dpReady = true ∧ bargeOf blocks = some (ws, e) ∧ bargeCrc ws e ≠
      e.extractLsb' 128 32 ∧ (e.extractLsb' 236 12).toNat = s.hub.chip.get (F.LNK_RX_EXPECT p) ∧ s.hub.chip.lnk[p].naked = none ∧
      s.hub.chip.lnk[p].nakAt = none ∧ s.hub.chip.mooredPort p = false ∧ s.hub.chip.pcs[p].change = none) ∧
    (∃ (s : State) (p : Port) (blocks : List Block) (e : Block) (ws : List DpWord), s.hub.chip.on (F.TRK_STATUS_LINK_UP p) = true ∧
      s.hub.chip.on (F.LNK_CTL_EN p) = true ∧ s.hub.chip.dpReady = true ∧ bargeOf blocks = some (ws, e) ∧ bargeCrc ws e ≠
      e.extractLsb' 128 32 ∧ (e.extractLsb' 236 12).toNat = s.hub.chip.get (F.LNK_RX_EXPECT p) ∧ s.hub.chip.lnk[p].naked = some
      (s.hub.chip.get (F.LNK_RX_EXPECT p), 1)) ∧
    (∃ (s : State) (p : Port) (blocks : List Block) (e : Block) (ws : List DpWord), s.hub.chip.on (F.TRK_STATUS_LINK_UP p) = true ∧
      s.hub.chip.on (F.LNK_CTL_EN p) = true ∧ s.hub.chip.dpReady = true ∧ bargeOf blocks = some (ws, e) ∧ ws ≠ [] ∧ bargeCrc ws e =
      e.extractLsb' 128 32 ∧ e.getLsbD 228 = true ∧ 2048 ≤ ((e.extractLsb' 236 12).toNat + 4096 - s.hub.chip.get (F.LNK_RX_EXPECT
      p)) % 4096) ∧
    (∃ (s : State) (p : Port) (blocks : List Block) (e : Block) (ws : List DpWord), s.hub.chip.on (F.TRK_STATUS_LINK_UP p) = true ∧
      s.hub.chip.on (F.LNK_CTL_EN p) = true ∧ s.hub.chip.dpReady = false ∧ bargeOf blocks = some (ws, e) ∧ ws ≠ [] ∧ bargeCrc ws e =
      e.extractLsb' 128 32 ∧ e.getLsbD 228 = true ∧ (e.extractLsb' 236 12).toNat = s.hub.chip.get (F.LNK_RX_EXPECT p)) ∧
    (∃ (s : State) (p : Port) (blocks : List Block) (e : Block) (ws : List DpWord), s.hub.chip.on (F.TRK_STATUS_LINK_UP p) = true ∧
      s.hub.chip.on (F.LNK_CTL_EN p) = true ∧ s.hub.chip.dpReady = true ∧ bargeOf blocks = some (ws, e) ∧ ws ≠ [] ∧ bargeCrc ws e =
      e.extractLsb' 128 32 ∧ e.getLsbD 228 = false ∧ (e.extractLsb' 236 12).toNat = s.hub.chip.get (F.LNK_RX_EXPECT p) ∧
      (s.hub.chip.key.slot (rxSlot p (e.extractLsb' 229 1).toNat)).opens p.val = true ∧ s.hub.chip.get F.KEY_CTL_TAG_FAIL_LIMIT = 0) :=
  ⟨
    ⟨linked [] fun c => c.modLnk 1 fun l => { l with txq := [txData] }, 1, txData, [], by decide +kernel⟩,
    ⟨linked [(F.LNK_STATUS_ADMITTED 1, 0)] fun c => c.modLnk 1 fun l => { l with txq := [txData] }, 1, txData, [], by decide +kernel⟩,
    ⟨linked [(F.FAB_FRAME, 20)] fun c => c.modLnk 1 fun l => { l with txq := [txData] }, 1, txData, [], by decide +kernel⟩,
    ⟨linked [(F.LNK_STATUS_TX_HOLD 1, 1)] fun c => c.modLnk 1 fun l => { l with txq := [txData] }, 1, txData, [], by decide +kernel⟩,
    ⟨linked [(F.LNK_TXC 1, 0xFFFF_FFFE)] fun c => c.modLnk 1 fun l => { l with txq := [txData] }, 1, txData, [], by decide +kernel⟩,
    ⟨linked [(F.LNK_CTL_CIPHER_EN 1, 0)], 1, bargeBlocks (clearEnd 0 bargeData), clearEnd 0 bargeData, bargeData.words, by decide +kernel⟩,
    ⟨linked [], 1, bargeBlocks (clearEnd 0 bargeData ^^^ blockFlag 128 true), clearEnd 0 bargeData ^^^ blockFlag 128 true,
      bargeData.words, by decide +kernel⟩,
    ⟨linked [] fun c => c.modLnk 1 fun l => { l with naked := some (0, 1) }, 1, bargeBlocks (clearEnd 0 bargeData ^^^ blockFlag 128 true),
      clearEnd 0 bargeData ^^^ blockFlag 128 true, bargeData.words, by decide +kernel⟩,
    ⟨linked [(F.LNK_RX_EXPECT 1, 1)], 1, bargeBlocks (clearEnd 0 bargeData), clearEnd 0 bargeData, bargeData.words, by decide +kernel⟩,
    ⟨linked [(F.PWR_STATUS_DOM_ON, 1), (F.PWR_VOTE_SW_VOTE, 0)], 1, bargeBlocks (clearEnd 0 bargeData), clearEnd 0 bargeData,
      bargeData.words, by decide +kernel⟩,
    ⟨linked [(F.KEY_CTL_TAG_FAIL_LIMIT, 0)] fun c => c.setSlot (rxSlot 1 0) { Slot.empty with valid := true, engines := 2 }, 1,
      bargeBlocks (sealedEnd 0 bargeData), sealedEnd 0 bargeData, bargeData.words, by decide +kernel⟩⟩

theorem witness_LinkReplay :
    (∃ (s : State) (p : Port), s.hub.chip.on (F.TRK_STATUS_LINK_UP p) = true ∧ s.hub.chip.on (F.LNK_CTL_EN p) = true ∧ 0 <
      s.hub.chip.lnk[p].unacked ∧ s.hub.chip.mooredPort p = false ∧ s.hub.chip.pcs[p].change = none) ∧
    (∃ (s : State) (p : Port) (b : Block) (a : Nat), s.hub.chip.on (F.TRK_STATUS_LINK_UP p) = true ∧ crcHolds b = true ∧ b.getLsbD 256 =
      true ∧ btypeOf b = 0x11 ∧ a = (b.extractLsb' 236 12).toNat ∧ 1 ≤ (a + 4096 - s.hub.chip.get (F.LNK_STATUS_TX_ACKED p)) % 4096
      ∧ (a + 4096 - s.hub.chip.get (F.LNK_STATUS_TX_ACKED p)) % 4096 ≤ (s.hub.chip.get (F.LNK_STATUS_TX_NEXT p) + 4095 + 4096 -
      s.hub.chip.get (F.LNK_STATUS_TX_ACKED p)) % 4096) ∧
    (∃ (s : State) (p : Port) (b : Block), s.hub.chip.on (F.TRK_STATUS_LINK_UP p) = true ∧ rxBlock b = .on ∧ crcHolds b = false) ∧
    (∃ (s : State) (p : Port) (b : Block) (o : Outstanding), s.hub.chip.on (F.TRK_STATUS_LINK_UP p) = true ∧ crcHolds b = true ∧
      b.getLsbD 256 = true ∧ btypeOf b = 0x12 ∧ o.lseq = (b.extractLsb' 236 12).toNat ∧ s.hub.chip.lnk[p].replay = [o] ∧
      s.hub.chip.get (F.LNK_STATUS_TX_ACKED p) = (o.lseq + 4095) % 4096 ∧ s.hub.chip.txHeld p = false ∧ s.hub.chip.get (F.LNK_TXC p)
      < 0xFFFF_FFFE ∧ s.hub.chip.pcs[p].change = none ∧ (s.hub.chip.sendsClear p = true ∨ (s.hub.chip.key.slot (txSlot p
      (s.hub.chip.get (F.LNK_EPOCH_EPOCH p)))).refuses p.val = false)) ∧
    (∃ (s : State) (p : Port) (o : Outstanding), s.hub.chip.on (F.TRK_STATUS_LINK_UP p) = true ∧ s.hub.chip.lnk[p].replay = [o] ∧
      s.hub.chip.lnk[p].expiries = 0 ∧ s.hub.chip.txHeld p = false ∧ s.hub.chip.get (F.LNK_TXC p) < 0xFFFF_FFFE ∧
      s.hub.chip.pcs[p].change = none ∧ (s.hub.chip.sendsClear p = true ∨ (s.hub.chip.key.slot (txSlot p (s.hub.chip.get
      (F.LNK_EPOCH_EPOCH p)))).refuses p.val = false)) ∧
    (∃ (s : State) (p : Port), s.hub.chip.on (F.TRK_STATUS_LINK_UP p) = true ∧ s.hub.chip.lnk[p].replay ≠ [] ∧ 1 ≤
      s.hub.chip.lnk[p].expiries ∧ s.hub.chip.mooredPort p = false) :=
  ⟨
    ⟨linked [] fun c => c.modLnk 1 fun l => { l with unacked := 2 }, 1, by decide +kernel⟩,
    ⟨linked [(F.LNK_STATUS_TX_ACKED 1, 0xFFF), (F.LNK_STATUS_TX_NEXT 1, 3)], 1, lackBlock 1, 1, by decide +kernel, crcHolds_withCrc _ (by decide +kernel),
      by decide +kernel⟩,
    ⟨linked [], 1, lackBlock 1 ^^^ 1, by decide +kernel, by decide +kernel, crcHolds_flipped _ (by decide +kernel)⟩,
    ⟨linked [(F.LNK_STATUS_TX_ACKED 1, 4), (F.LNK_STATUS_TX_NEXT 1, 6)] fun c => c.modLnk 1 fun l => { l with replay := [{ lseq := 5, barge := bargeData }] },
      1, lnakBlock 5 1, { lseq := 5, barge := bargeData }, by decide +kernel, crcHolds_withCrc _ (by decide +kernel), by decide +kernel⟩,
    ⟨linked [] fun c => c.modLnk 1 fun l => { l with replay := [{ lseq := 5, barge := bargeData }] }, 1, { lseq := 5, barge := bargeData },
      by decide +kernel⟩,
    ⟨linked [] fun c => c.modLnk 1 fun l => { l with replay := [{ lseq := 5, barge := bargeData }], expiries := 1 }, 1, by decide +kernel⟩⟩

theorem witness_LinkTimingAndKeyEpochs :
    (∃ (s : State) (p : Port), s.hub.chip.on (F.TRK_STATUS_LINK_UP p) = true ∧ s.hub.chip.on (F.LNK_CTL_EN p) = true ∧
      s.hub.chip.mooredPort p = false ∧ s.hub.chip.pcs[p].change = none) ∧
    (∃ (s : State) (p : Port) (b : Block), s.hub.chip.on (F.TRK_STATUS_LINK_UP p) = true ∧ crcHolds b = true ∧ b.getLsbD 256 = true ∧
      btypeOf b = 0x13 ∧ (Heartbeat.decode b).idValid = true ∧ s.hub.chip.ownId ≠ some (Heartbeat.decode b).hubId.toNat) ∧
    (∃ (s : State) (p : Port) (b : Block), s.hub.chip.on (F.TRK_STATUS_LINK_UP p) = true ∧ crcHolds b = true ∧ b.getLsbD 256 = true ∧
      btypeOf b = 0x13 ∧ (Heartbeat.decode b).idValid = true ∧ s.hub.chip.ownId = some (Heartbeat.decode b).hubId.toNat ∧
      s.hub.chip.on F.FAB_STATUS_DUP = false) ∧
    (∃ (s : State) (p : Port), s.hub.chip.on (F.TRK_STATUS_LINK_UP p) = true ∧ s.hub.chip.mooredPort p = false) ∧
    (∃ (s : State) (p : Port), s.hub.chip.on (F.TRK_STATUS_LINK_UP p) = true ∧ s.hub.chip.on (F.LNK_CTL_EN p) = true ∧
      s.hub.chip.mooredPort p = false ∧ s.hub.chip.pcs[p].change = none) ∧
    (∃ (s : State) (p : Port) (b : Block) (t2 : BitVec 52) (t3 : BitVec 52), s.hub.chip.on (F.TRK_STATUS_LINK_UP p) = true ∧
      s.hub.chip.on (F.LNK_CTL_EN p) = true ∧ crcHolds b = true ∧ b.getLsbD 256 = true ∧ btypeOf b = 0x15 ∧ s.hub.chip.mooredPort p
      = false ∧ s.hub.chip.pcs[p].change = none) ∧
    (∃ (s : State) (p : Port) (b : Block) (t4 : Nat) (t1 : Nat), s.hub.chip.on (F.TRK_STATUS_LINK_UP p) = true ∧ crcHolds b = true ∧
      b.getLsbD 256 = true ∧ btypeOf b = 0x16 ∧ s.hub.chip.lnk[p].delayReq = some ((b.extractLsb' 240 8).toNat, t1) ∧
      s.hub.chip.fab.delays[p].length < 5) ∧
    (∃ (s : State) (p : Port) (b : Block) (rx : Nat), s.hub.chip.on (F.TRK_STATUS_LINK_UP p) = true ∧ crcHolds b = true ∧ b.getLsbD 256
      = true ∧ btypeOf b = 0x14 ∧ s.hub.chip.on (F.LNK_STATUS_ADMITTED p) = true ∧ (TickBlock.decode b).locked = true ∧
      (TickBlock.decode b).hops.toNat ≤ 62) ∧
    (∃ (s : State) (p : Port) (aged : Bool), (aged = true ∨ 0xF000_0000 ≤ s.hub.chip.get (F.LNK_TXC p)) ∧ s.hub.chip.on
      (F.LNK_EPOCH_KE_PEND p) = false ∧ s.hub.chip.on (F.LNK_STATUS_ADMITTED p) = true ∧ s.hub.chip.get (F.LNK_EPOCH_EPOCH p) ≠
      0xFF_FFFF ∧ s.hub.chip.trk[p].own = none ∧ s.hub.chip.trk[p].resp = none) ∧
    (∃ (s : State) (p : Port), s.hub.chip.on (F.LNK_EPOCH_KE_PEND p) = false ∧ s.hub.chip.on (F.LNK_STATUS_ADMITTED p) = true ∧
      s.hub.chip.get (F.LNK_EPOCH_EPOCH p) = 0xFF_FFFF ∧ s.hub.chip.on F.KEY_STATUS_TAINT = false ∧ s.hub.chip.on
      F.KEY_STATUS_ENTROPY_OK = true) ∧
    (∃ (s : State) (p : Port), s.hub.chip.on (F.LNK_EPOCH_KE_PEND p) = true ∧ spanLe (s.hub.chip.get (F.LNK_KE_SPAN p)) (s.hub.chip.get
      (F.TRK_SPAN p)) = true ∧ s.hub.chip.lnk[p].resend = [] ∧ s.hub.chip.lnk[p].awaitsAdmission = false) :=
  ⟨
    ⟨linked [], 1, by decide +kernel⟩,
    ⟨linked [], 1, Heartbeat.encode hbTest, by decide +kernel, crcHolds_withCrc _ (by decide +kernel), by decide +kernel⟩,
    ⟨linked [(F.FAB_ID_ID_VALID, 1), (F.FAB_ID_HUB_ID, 7)], 1, Heartbeat.encode hbTest, by decide +kernel, crcHolds_withCrc _ (by decide +kernel),
      by decide +kernel⟩,
    ⟨linked [], 1, by decide +kernel⟩,
    ⟨linked [], 1, by decide +kernel⟩,
    ⟨linked [], 1, delayReqBlock 3, 5, 6, by decide +kernel, by decide +kernel, crcHolds_withCrc _ (by decide +kernel), by decide +kernel⟩,
    ⟨linked [] fun c => c.modLnk 1 fun l => { l with delayReq := some (3, 40) }, 1, delayRespBlock 3 5 6, 100, 40, by decide +kernel,
      crcHolds_withCrc _ (by decide +kernel), by decide +kernel⟩,
    ⟨linked [], 1, TickBlock.encode tickTest, 100, by decide +kernel, crcHolds_withCrc _ (by decide +kernel), by decide +kernel⟩,
    ⟨linked [], 1, true, by decide +kernel⟩,
    ⟨linked [(F.LNK_EPOCH_EPOCH 1, 0xFF_FFFF), (F.KEY_STATUS_ENTROPY_OK, 1)], 1, by decide +kernel⟩,
    ⟨linked [(F.LNK_EPOCH_KE_PEND 1, 1), (F.LNK_KE_SPAN 1, 5), (F.TRK_SPAN 1, 6)], 1, by decide +kernel⟩⟩

theorem witness_TimeDiscoveryAndRing :
    (∃ (s : State), s.hub.chip.on F.FAB_TIME_STATUS_IS_MASTER = false ∧ s.hub.chip.on F.FAB_TIME_STATUS_LOCKED = true) ∧
    (∃ (s : State) (id : Nat) (hops : Nat), s.hub.chip.fab.followed = [(id, hops)] ∧ (∀ p : Port, (s.hub.chip.fab.keys[p].map fun k =>
      k.id) ≠ some id)) ∧
    (∃ (s : State), s.hub.chip.lkRun = true) ∧
    (∃ (s : State) (p : Port) (a : Announce), s.hub.chip.lkRun = true ∧ (a.hub.toNat, a.serial.toNat, a.seq.toNat) ∉
      s.hub.chip.fab.annSeen ∧ (s.hub.chip.ownId ≠ some a.hub.toNat ∨ s.hub.chip.serial = a.serial.toNat)) ∧
    (∃ (s : State) (p : Port) (a : Announce), s.hub.chip.lkRun = true ∧ (a.hub.toNat, a.serial.toNat, a.seq.toNat) ∉
      s.hub.chip.fab.annSeen ∧ s.hub.chip.ownId = some a.hub.toNat ∧ s.hub.chip.serial ≠ a.serial.toNat) ∧
    (∃ (s : State) (p : Port), s.hub.chip.routable p = true) ∧
    (∃ (s : State) (p : Port), s.hub.chip.fab.ownLost[p] = true ∧ s.hub.chip.ring.isSome = true ∧ s.hub.chip.on F.FAB_ID_ID_VALID = true
      ∧ s.hub.chip.get F.LKP_STATUS_STATE = 0) ∧
    (∃ (s : State) (p : Port) (b : Barge) (i : Nat), b.hdr.mcast = true ∧ b.hdr.tunnel.toNat % 256 = 255 ∧ b.hdr.type.toNat = typeAlarm
      ∧ s.hub.chip.on F.FAB_ID_ID_VALID = true ∧ b.hdr.src.toNat ≠ s.hub.chip.get F.FAB_ID_HUB_ID ∧ s.hub.chip.ring.isSome = true ∧
      (b.hdr.tspec.extractLsb' 4 8).toNat = s.hub.chip.get F.FAB_RING_RING_ID ∧ b.hdr.tspec.getLsbD 13 = false ∧ i =
      (b.hdr.tspec.extractLsb' 14 6).toNat ∧ (∀ q : Port, s.hub.chip.fab.ownLost[q] = false)) ∧
    (∃ (s : State) (i : BitVec 6), (∀ q : Port, s.hub.chip.fab.ownLost[q] = false) ∧ s.hub.chip.bit (F.FAB_BROKEN (i.toNat / 32))
      (i.toNat % 32) = true) ∧
    (∃ (s : State) (p : Port), s.hub.chip.bit F.FAB_STATUS_WTR_RUN p.val = true) ∧
    (∃ (s : State) (p : Port), s.hub.chip.fab.restoreLeft[p] ≠ 0) :=
  ⟨
    ⟨linked [(F.FAB_TIME_STATUS_LOCKED, 1)], by decide +kernel⟩,
    ⟨linked [] fun c => c.modFab fun f => { f with followed := [(3, 2)] }, 3, 2, by decide +kernel⟩,
    ⟨linked [(F.LKP_STATUS_STATE, 0)], by decide +kernel⟩,
    ⟨linked [(F.LKP_STATUS_STATE, 0)], 1, announceTest, by decide +kernel⟩,
    ⟨runs [(F.LKP_STATUS_STATE, 0), (F.FAB_ID_ID_VALID, 1), (F.FAB_ID_HUB_ID, 8)], 1, announceTest, by decide +kernel⟩,
    ⟨ringSt [], 1, by decide +kernel⟩,
    ⟨ringSt [] fun c => c.modFab fun f => { f with ownLost := #v[false, true, false] }, 1, by decide +kernel⟩,
    ⟨ringSt [], 1, noticeTest, 3, by decide +kernel⟩,
    ⟨ringSt [(F.FAB_BROKEN 0, 8)], 3, by decide +kernel⟩,
    ⟨ringSt [(F.FAB_STATUS_WTR_RUN, 2)], 1, by decide +kernel⟩,
    ⟨ringSt [] fun c => c.modFab fun f => { f with restoreLeft := #v[0, 2, 0] }, 1, by decide +kernel⟩⟩

theorem witness_TowpathFramesIn :
    (∃ (s : State) (p : Port) (hdr : Word) (l : List Byte) (crc : BitVec 16), s.hub.chip.tpAlive p = true ∧ (crc16 (bitsOf hdr ++
      bitsOfBytes l) ≠ crc ∨ 64 < tpLen hdr ∨ tpLen hdr ≠ l.length ∨ tpVer hdr ≠ 1 ∨ tpClass hdr = 0)) ∧
    (∃ (s : State) (p : Port) (hdr : Word) (l : List Byte) (crc : BitVec 16), s.hub.chip.tpAlive p = true ∧ crc16 (bitsOf hdr ++
      bitsOfBytes l) = crc ∧ tpLen hdr ≤ 64 ∧ tpLen hdr = l.length ∧ tpVer hdr = 1 ∧ tpClass hdr = 9 ∧ tpRsp hdr = false ∧ tpRetry
      hdr = false) ∧
    (∃ (s : State) (p : Port) (hdr : Word) (l : List Byte) (crc : BitVec 16), s.hub.chip.tpAlive p = true ∧ crc16 (bitsOf hdr ++
      bitsOfBytes l) = crc ∧ tpLen hdr ≤ 64 ∧ tpLen hdr = l.length ∧ tpVer hdr = 1 ∧ tpClass hdr = 0xC ∧ tpRsp hdr = false ∧ tpRetry
      hdr = false ∧ s.hub.chip.tp[p].mailboxFull = false) ∧
    (∃ (s : State) (p : Port) (hdr : Word) (l : List Byte), s.hub.chip.tpAlive p = true ∧ tpClass hdr = 1 ∧ tpRsp hdr = false ∧ tpRetry
      hdr = false ∧ l.length = 16) ∧
    (∃ (s : State) (p : Port) (hdr : Word), s.hub.chip.tpAlive p = true ∧ tpClass hdr = 9 ∧ tpRsp hdr = false ∧ tpRetry hdr = false) ∧
    (∃ (s : State) (p : Port) (hdr : Word) (f : TpFrame), s.hub.chip.tpAlive p = true ∧ tpClass hdr = 9 ∧ tpRsp hdr = false ∧ tpRetry
      hdr = true ∧ s.hub.chip.tp[p].answers.find? (fun a => a.1 == 9 && a.2.1 == tpSeq hdr) = some (9, tpSeq hdr, f)) ∧
    (∃ (s : State) (p : Port) (hdr : Word) (l : List Byte), s.hub.chip.tpAlive p = true ∧ tpClass hdr = 0xA ∧ tpRsp hdr = false ∧
      tpRetry hdr = false ∧ fieldAt l 0 1 = 0) ∧
    (∃ (s : State) (p : Port), s.hub.chip.on (F.LNK_CTL_TP_EN p) = true ∧ s.hub.chip.on (F.LNK_TP_STATUS_BREAK_GUARD p) = true ∧
      s.hub.chip.rst.active = none ∧ s.hub.chip.pst.deep = false) ∧
    (∃ (s : State) (p : Port), s.hub.chip.on (F.LNK_CTL_TP_EN p) = true ∧ s.hub.chip.on (F.LNK_TP_STATUS_BREAK_GUARD p) = false ∧
      s.hub.chip.rst.active = none ∧ s.hub.chip.pst.deep = false) ∧
    (∃ (s : State) (p : Port), s.hub.chip.rst.toneLeft[p] = true) ∧
    (∃ (s : State) (p : Port) (toneEnded : Bool), s.hub.chip.rst.breakPort = some p.val) :=
  ⟨
    ⟨tpUp [], 1, tpHeader 9 4 0 false false false, [], 0, by decide +kernel⟩,
    ⟨tpUp [], 1, tpHeader 9 4 0 false false false, [], crc16 (bitsOf (tpHeader 9 4 0 false false false)), by decide +kernel⟩,
    ⟨tpUp [], 1, tpHeader 0xC 4 0 false false false, [], crc16 (bitsOf (tpHeader 0xC 4 0 false false false)), by decide +kernel⟩,
    ⟨tpUp [], 1, tpHeader 1 4 16 false false false, List.replicate 16 3#8, by decide +kernel⟩,
    ⟨tpUp [], 1, tpHeader 9 4 0 false false false, by decide +kernel⟩,
    ⟨tpUp [] fun c => c.modTp 1 fun t => { t with answers := [(9, 4, frameTest)] }, 1, tpHeader 9 4 0 false true false, frameTest, by decide +kernel⟩,
    ⟨tpUp [], 1, tpHeader 0xA 4 1 false false false, [0#8], by decide +kernel⟩,
    ⟨tpUp [(F.LNK_TP_STATUS_BREAK_GUARD 1, 1)], 1, by decide +kernel⟩,
    ⟨tpUp [], 1, by decide +kernel⟩,
    ⟨tpUp [] fun c => { c with rst := { c.rst with toneLeft := #v[false, true, false] } }, 1, by decide +kernel⟩,
    ⟨tpUp [] fun c => { c with rst := { c.rst with breakPort := some 1 } }, 1, false, by decide +kernel⟩⟩

theorem witness_TowpathFramesOut :
    (∃ (s : State) (p : Port) (f : TpFrame) (rest : List TpFrame), s.hub.chip.tpAlive p = true ∧ s.hub.chip.tp[p].txq = f :: rest ∧
      s.hub.chip.tp[p].backoff = none ∧ tpRsp f.hdr = false) ∧
    (∃ (s : State) (p : Port) (f : TpFrame) (rest : List TpFrame), s.hub.chip.tpAlive p = true ∧ s.hub.chip.tp[p].txq = f :: rest ∧
      s.hub.chip.tp[p].backoff = none ∧ s.hub.chip.tp[p].collisions < 7) ∧
    (∃ (s : State) (p : Port) (f : TpFrame) (rest : List TpFrame), s.hub.chip.tpAlive p = true ∧ s.hub.chip.tp[p].txq = f :: rest ∧
      s.hub.chip.tp[p].backoff = none ∧ s.hub.chip.tp[p].collisions = 7 ∧ tpRsp f.hdr = true) ∧
    (∃ (s : State) (p : Port) (f : TpFrame) (rest : List TpFrame) (r : TpRequest), s.hub.chip.tpAlive p = true ∧
      s.hub.chip.tp[p].txq = f :: rest ∧ s.hub.chip.tp[p].backoff = none ∧ s.hub.chip.tp[p].collisions = 7 ∧ tpRsp f.hdr = false ∧
      s.hub.chip.requestOf p (tpSeq f.hdr) = some r ∧ r.stage = .retry2 ∧ r.escalates = false ∧ r.fw = true ∧
      s.hub.chip.get (F.LNK_TP_RESULT_SEQ p) = tpSeq r.frame.hdr) ∧
    (∃ (s : State) (p : Port), s.hub.chip.tpAlive p = true) ∧
    (∃ (s : State) (p : Port), s.hub.chip.tpAlive p = true) ∧
    (∃ (s : State) (p : Port), s.hub.chip.tpAlive p = true) ∧
    (∃ (s : State) (p : Port) (seq : Byte) (r : TpRequest), s.hub.chip.tpAlive p = true ∧ s.hub.chip.requestOf p seq.toNat = some r ∧
      r.stage = .first ∧ r.escalates = true ∧ tpClass r.frame.hdr ≠ 1) ∧
    (∃ (s : State) (p : Port) (seq : Byte) (r : TpRequest), s.hub.chip.tpAlive p = true ∧ s.hub.chip.requestOf p seq.toNat = some r ∧
      r.stage = .retry2 ∧ r.escalates = true ∧ tpClass r.frame.hdr ≠ 1) ∧
    (∃ (s : State) (p : Port) (seq : Byte) (r : TpRequest), s.hub.chip.tpAlive p = true ∧ s.hub.chip.requestOf p seq.toNat = some r ∧
      r.stage = .status2 ∧ tpClass r.frame.hdr ≠ 1 ∧ s.hub.chip.on (F.LNK_CTL_TP_AUTO_HARD p) = true) ∧
    (∃ (s : State) (p : Port) (r : TpRequest), s.hub.chip.tpAlive p = true ∧
      s.hub.chip.tp[p].requests.find? (fun q => q.stage == .waitRestart) = some r) ∧
    (∃ (s : State) (p : Port) (seq : Byte) (r : TpRequest), s.hub.chip.tpAlive p = true ∧ s.hub.chip.requestOf p seq.toNat = some r ∧
      r.stage = .retry2 ∧ r.escalates = false ∧ r.fw = true ∧ s.hub.chip.get (F.LNK_TP_RESULT_SEQ p) = tpSeq r.frame.hdr) ∧
    (∃ (s : State) (p : Port) (hdr : Word) (l : List Byte) (r : TpRequest), s.hub.chip.tpAlive p = true ∧ tpClass hdr = 9 ∧
      tpRsp hdr = true ∧ l.length = 32 ∧
      (∀ q ∈ s.hub.chip.tp[p].requests, tpAnswers (tpClass q.frame.hdr) 9 = true → tpSeq q.frame.hdr ≠ tpSeq hdr) ∧
      s.hub.chip.tp[p].requests.find? (fun q => (q.stage == .status0 || q.stage == .status1 || q.stage == .status2) && q.escSeq == tpSeq hdr) = some r ∧
      fieldAt l 10 1 % 8 = 3) ∧
    (∃ (s : State) (p : Port) (hdr : Word) (l : List Byte) (r : TpRequest), s.hub.chip.tpAlive p = true ∧ tpClass hdr = 9 ∧
      tpRsp hdr = true ∧ l.length = 32 ∧
      (∀ q ∈ s.hub.chip.tp[p].requests, tpAnswers (tpClass q.frame.hdr) 9 = true → tpSeq q.frame.hdr ≠ tpSeq hdr) ∧
      s.hub.chip.tp[p].requests.find? (fun q => (q.stage == .status0 || q.stage == .status1 || q.stage == .status2) && q.escSeq == tpSeq hdr) = some r ∧
      fieldAt l 10 1 % 8 = 0) :=
  ⟨
    ⟨tpUp [] fun c => c.modTp 1 fun t => { t with txq := [frameTest] }, 1, frameTest, [], by decide +kernel⟩,
    ⟨tpUp [] fun c => c.modTp 1 fun t => { t with txq := [frameTest] }, 1, frameTest, [], by decide +kernel⟩,
    ⟨tpUp [] fun c => c.modTp 1 fun t => { t with txq := [{ frameTest with hdr := tpHeader 9 4 0 true false false }], collisions := 7 },
      1, { frameTest with hdr := tpHeader 9 4 0 true false false }, [], by decide +kernel⟩,
    ⟨tpUp [(F.LNK_TP_RESULT_SEQ 1, 4)] fun c => c.modTp 1 fun t => { t with txq := [frameTest], collisions := 7, requests := [reqTest .retry2 false] },
      1, frameTest, [], reqTest .retry2 false, by decide +kernel⟩,
    ⟨tpUp [], 1, by decide +kernel⟩,
    ⟨tpUp [], 1, by decide +kernel⟩,
    ⟨tpUp [], 1, by decide +kernel⟩,
    ⟨tpUp [] fun c => c.modTp 1 fun t => { t with requests := [reqTest .first true] }, 1, 4, reqTest .first true, by decide +kernel⟩,
    ⟨tpUp [] fun c => c.modTp 1 fun t => { t with requests := [reqTest .retry2 true] }, 1, 4, reqTest .retry2 true, by decide +kernel⟩,
    ⟨tpUp [(F.LNK_CTL_TP_AUTO_HARD 1, 1)] fun c => c.modTp 1 fun t => { t with requests := [reqTest .status2 true] }, 1, 0, reqTest .status2 true,
      by decide +kernel⟩,
    ⟨tpUp [] fun c => c.modTp 1 fun t => { t with requests := [reqTest .waitRestart true] }, 1, reqTest .waitRestart true, by decide +kernel⟩,
    ⟨tpUp [(F.LNK_TP_RESULT_SEQ 1, 4)] fun c => c.modTp 1 fun t => { t with requests := [reqTest .retry2 false] }, 1, 4, reqTest .retry2 false,
      by decide +kernel⟩,
    ⟨tpUp [] fun c => c.modTp 1 fun t => { t with requests := [reqTest .status0 true] }, 1, tpHeader 9 0 32 true false true,
      List.replicate 32 3#8, reqTest .status0 true, by decide +kernel⟩,
    ⟨tpUp [] fun c => c.modTp 1 fun t => { t with requests := [reqTest .status0 true] }, 1, tpHeader 9 0 32 true false true,
      List.replicate 32 0#8, reqTest .status0 true, by decide +kernel⟩⟩

theorem witness_TunnelEngine :
    (∃ (s : State) (b : Barge) (t : Nat), t = b.hdr.tunnel.toNat ∧ b.hdr.type.toNat = typeTack ∧ (s.hub.chip.tunEntry t).valid = true ∧
      (s.hub.chip.tunEntry t).peer = b.hdr.src.toNat ∧ (s.hub.chip.tunEntry t).adapter ≠ 8 ∧ (s.hub.chip.tunEntry t).mode = 2 ∧
      b.hdr.tspec.toNat / 2 ^ 28 = 0 ∧ s.hub.chip.outstanding t b.hdr.tseq.toNat = true) ∧
    (∃ (s : State) (b : Barge) (t : Nat), t = b.hdr.tunnel.toNat ∧ b.hdr.type.toNat = typeTack ∧ (s.hub.chip.tunEntry t).valid = true ∧
      (s.hub.chip.tunEntry t).peer = b.hdr.src.toNat ∧ (s.hub.chip.tunEntry t).adapter ≠ 8 ∧ b.hdr.tspec.toNat / 2 ^ 28 = 0 ∧
      ((s.hub.chip.tunEntry t).mode ≠ 2 ∨ s.hub.chip.outstanding t b.hdr.tseq.toNat = false)) ∧
    (∃ (s : State) (b : Barge) (t : Nat), t = b.hdr.tunnel.toNat ∧ b.hdr.type.toNat = typeTack ∧ (s.hub.chip.tunEntry t).valid = true ∧
      (s.hub.chip.tunEntry t).peer = b.hdr.src.toNat ∧ (s.hub.chip.tunEntry t).adapter ≠ 8 ∧ (s.hub.chip.tunEntry t).mode = 2 ∧
      b.hdr.tspec.toNat / 2 ^ 28 = 3) ∧
    (∃ (s : State) (b : Barge) (t : Nat), t = b.hdr.tunnel.toNat ∧ b.hdr.type.toNat = typeTack ∧ (s.hub.chip.tunEntry t).valid = true ∧
      (s.hub.chip.tunEntry t).peer ≠ b.hdr.src.toNat ∧ (s.hub.chip.tunEntry t).mcast = false ∧ noSampling s.hub.chip) ∧
    (∃ (s : State) (b : Barge) (t : Nat), t = b.hdr.tunnel.toNat ∧ b.hdr.type.toNat = typeTack ∧ (s.hub.chip.tunEntry t).valid = true ∧
      (s.hub.chip.tunEntry t).peer = b.hdr.src.toNat ∧ (s.hub.chip.tunEntry t).adapter ≠ 8 ∧ (s.hub.chip.tunEntry t).mode = 1 ∧
      b.hdr.tspec.toNat / 2 ^ 28 = 4) ∧
    (∃ (s : State) (n : BitVec 12), (s.hub.chip.tunEntry n.toNat).valid = true ∧ (s.hub.chip.tunEntry n.toNat).mode = 1 ∧ s.hub.chip.on
      (F.FAB_TSTATE1_TX_SYNCED n.toNat) = false) ∧
    (∃ (s : State) (n : BitVec 12), (s.hub.chip.tunEntry n.toNat).valid = true ∧ (s.hub.chip.tunEntry n.toNat).mode = 2 ∧ s.hub.chip.on
      (F.FAB_TSTATE1_TX_SYNCED n.toNat) = false) ∧
    (∃ (s : State) (n : BitVec 12) (e : TunEntry), e = s.hub.chip.tunEntry n.toNat ∧ e.mode = 2 ∧ (s.hub.chip.tun n.toNat).sinceAck ≠ 0
      ∧ s.hub.chip.on F.FAB_STATUS_ISOLATED = false ∧ e.valid = true ∧ e.adapter ≠ 8 ∧ s.hub.chip.ownId = some e.peer ∧
      (s.hub.chip.tunEntry e.peerTun).valid = true ∧ (s.hub.chip.tunEntry e.peerTun).adapter ≠ 8 ∧ s.hub.chip.heldAt e.adapter =
      none ∧ noSampling s.hub.chip ∧ roomFor s.hub.chip e.adapter 1) ∧
    (∃ (s : State) (n : BitVec 12), (s.hub.chip.tunEntry n.toNat).mode = 2 ∧ s.hub.chip.get (F.FAB_TSTATE0_TX_NEXT n.toNat) ≠
      s.hub.chip.get (F.FAB_TSTATE0_TX_OLDEST n.toNat) ∧ s.hub.chip.get (F.FAB_TSTATE1_RETRIES n.toNat) + 1 < max 1 (s.hub.chip.get
      F.FAB_CFG_TUN_RETRY_MAX)) ∧
    (∃ (s : State) (n : BitVec 12), (s.hub.chip.tunEntry n.toNat).mode = 2 ∧ s.hub.chip.get (F.FAB_TSTATE0_TX_NEXT n.toNat) ≠
      s.hub.chip.get (F.FAB_TSTATE0_TX_OLDEST n.toNat) ∧ max 1 (s.hub.chip.get F.FAB_CFG_TUN_RETRY_MAX) ≤ s.hub.chip.get
      (F.FAB_TSTATE1_RETRIES n.toNat) + 1) :=
  ⟨
    ⟨tunSt 2 [(F.FAB_TSTATE0_TX_NEXT 5, 4)], tackTest 0 2, 5, by decide +kernel⟩,
    ⟨tunSt 2 [], tackTest 0 2, 5, by decide +kernel⟩,
    ⟨tunSt 2 [], tackTest 3 2, 5, by decide +kernel⟩,
    ⟨tunSt 2 [(F.FAB_TUN0_PEER_HUB 5, 8)], tackTest 0 2, 5, by decide +kernel⟩,
    ⟨tunSt 1 [], tackTest 4 2, 5, by decide +kernel⟩,
    ⟨tunSt 1 [(F.FAB_TSTATE1_TX_SYNCED 5, 0)], 5, by decide +kernel⟩,
    ⟨tunSt 2 [(F.FAB_TSTATE1_TX_SYNCED 5, 0)] fun c => c.modTun 5 fun x => { x with syncs := 1 }, 5, by decide +kernel⟩,
    ⟨tunSt 2 [(F.FAB_ID_ID_VALID, 1), (F.FAB_ID_HUB_ID, 9), (F.SWC_CTL_RED_EN, 0), (F.SWC_BASIN_RESERVE 7, 100),
      (F.FAB_TUN1_PEER_TUNNEL 5, 5)] fun c => c.modTun 5 fun x => { x with sinceAck := 1 }, 5, (tunSt 2 [(F.FAB_ID_ID_VALID, 1),
      (F.FAB_ID_HUB_ID, 9), (F.SWC_CTL_RED_EN, 0), (F.SWC_BASIN_RESERVE 7, 100), (F.FAB_TUN1_PEER_TUNNEL 5, 5)]).hub.chip.tunEntry 5, by decide +kernel⟩,
    ⟨tunSt 2 [(F.FAB_TSTATE0_TX_NEXT 5, 4), (F.FAB_CFG_TUN_RETRY_MAX, 4)], 5, by decide +kernel⟩,
    ⟨tunSt 2 [(F.FAB_TSTATE0_TX_NEXT 5, 4), (F.FAB_CFG_TUN_RETRY_MAX, 0)], 5, by decide +kernel⟩⟩

theorem witness_BargesEnterAndLeaveQueues :
    (∃ (s : State) (p : Port) (b : Barge), s.hub.chip.lnk[p].rxq = [] ∧ b.hdr.type.toNat = typeLctl ∧ noSampling s.hub.chip ∧ roomFor
      s.hub.chip p.val (bargeCells b)) ∧
    (∃ (s : State) (p : Port) (b : Barge) (out : Nat), s.hub.chip.lnk[p].rxq = [] ∧ b.hdr.type.toNat ≠ typeLctl ∧ b.hdr.mcast = false ∧
      s.hub.chip.on F.FAB_ID_ID_VALID = true ∧ s.hub.chip.isolated = false ∧ b.hdr.dst.toNat ≠ s.hub.chip.get F.FAB_ID_HUB_ID ∧
      b.hdr.hops ≠ 0 ∧ (s.hub.chip.routeTo b.hdr.dst.toNat).egress = some out ∧ s.hub.chip.mustWait b.hdr.dst.toNat = false ∧ out ≠
      p.val ∧ noSampling s.hub.chip ∧ roomFor s.hub.chip p.val (bargeCells b)) ∧
    (∃ (s : State) (o : Offer) (out : Nat), s.hub.chip.swc.offers.toList.getD 3 [] = [] ∧ s.hub.chip.heldAt 3 = none ∧ o.flood = none ∧
      s.hub.chip.on F.FAB_ID_ID_VALID = true ∧ s.hub.chip.isolated = false ∧ (s.hub.chip.tunEntry o.tunnel.toNat).valid = true ∧
      (s.hub.chip.tunEntry o.tunnel.toNat).mode = 0 ∧ (s.hub.chip.tunEntry o.tunnel.toNat).mcast = false ∧ s.hub.chip.ownId ≠ some
      (s.hub.chip.tunEntry o.tunnel.toNat).peer ∧ (s.hub.chip.routeTo (s.hub.chip.tunEntry o.tunnel.toNat).peer).egress = some out ∧
      s.hub.chip.mustWait (s.hub.chip.tunEntry o.tunnel.toNat).peer = false ∧ s.hub.chip.on (F.SCH_WEIR0_EN (s.hub.chip.tunEntry
      o.tunnel.toNat).weir) = false ∧ noSampling s.hub.chip ∧ roomFor s.hub.chip 3 ((bargeWords o.payload.length + 15) / 16) ∧
      o.payload.length < 1024) ∧
    (∃ (s : State) (b : Barge) (p : Port), s.hub.chip.swc.p8out = [] ∧ s.hub.chip.heldAt 8 = none ∧ b.hdr.type.toNat = typeLctl ∧
      s.hub.chip.on (F.TRK_STATUS_LINK_UP p) = true ∧ noSampling s.hub.chip ∧ roomFor s.hub.chip 8 (bargeCells b)) ∧
    (∃ (s : State) (port : DPort) (x : HeldBarge) (d : Desc), s.hub.chip.heldAt port.val = some x ∧ x.red = false ∧ x.copies = [d] ∧
      s.hub.chip.swc.later = [] ∧ d.inPort = port.val ∧ x.retain = none ∧ roomFor s.hub.chip port.val (bargeCells x.barge)) ∧
    (∃ (s : State) (port : DPort) (x : HeldBarge) (d : Desc) (t : Nat), s.hub.chip.heldAt port.val = some x ∧ x.red = true ∧ x.copies =
      [d] ∧ s.hub.chip.swc.later = [] ∧ d.inPort = port.val ∧ x.retain = some t ∧ s.hub.chip.on (F.SCH_WEIR0_EN (d.weir.getD 0)) =
      false ∧ s.hub.chip.outstanding t x.barge.hdr.tseq.toNat = true ∧ noSampling s.hub.chip ∧ s.hub.chip.retainFull port.val
      (bargeCells x.barge) = false ∧ roomFor s.hub.chip port.val (bargeCells x.barge)) ∧
    (∃ (s : State) (ch : Nat) (b : Barge) (rest : List (Nat × Barge)), s.hub.chip.swc.p9in = (ch, b) :: rest ∧ ch ≤ 15 ∧ s.hub.chip.on
      (F.SWC_LOOP_CH_EN ch) = true) ∧
    (∃ (s : State) (ch : Nat) (b : Barge) (rest : List (Nat × Barge)), s.hub.chip.swc.p9in = (ch, b) :: rest ∧ (15 < ch ∨ s.hub.chip.on
      (F.SWC_LOOP_CH_EN ch) = false) ∧ noSampling s.hub.chip) ∧
    (∃ (s : State) (p : Port) (d : Desc) (x : Stored), s.hub.chip.swc.voqs = [d] ∧ s.hub.chip.swc.store = [x] ∧ d.sid = x.sid ∧
      d.outPort = p.val ∧ d.inPort ≤ 9 ∧ s.hub.chip.started = true ∧ x.refs = 1 ∧ x.retained = none ∧ s.hub.chip.selectQueue p.val =
      some d.queue ∧ s.hub.chip.egressRoom p.val = true ∧ s.hub.chip.ageTicks d < 13 ∧ s.hub.chip.revoked d = false ∧ (d.barge
      x.barge).hdr.type.toNat ≠ typeLctl ∧ s.hub.chip.on (F.LNK_STATUS_ADMITTED p) = true ∧ noSampling s.hub.chip) ∧
    (∃ (s : State) (d : Desc), s.hub.chip.swc.voqs = [d] ∧ 13 ≤ s.hub.chip.ageTicks d ∧ noSampling s.hub.chip) ∧
    (∃ (s : State) (p : Port), s.hub.chip.fab.walking[p].isSome = true ∧ (∀ d ∈ s.hub.chip.swc.voqs, d.outPort ≠ p.val) ∧
      s.hub.chip.swc.later = []) ∧
    (∃ (s : State) (p : Port) (d : Desc) (x : Stored) (e : Nat), s.hub.chip.fab.walking[p].isSome = true ∧ s.hub.chip.swc.voqs = [d] ∧
      s.hub.chip.swc.store = [x] ∧ s.hub.chip.swc.later = [] ∧ d.sid = x.sid ∧ d.outPort = p.val ∧ x.barge.hdr.type.toNat ≠ typeLctl
      ∧ d.copy = false ∧ d.strict = false ∧ s.hub.chip.strictQueue d.queue = false ∧ (s.hub.chip.routeTo
      x.barge.hdr.dst.toNat).egress = some e ∧ e ≠ d.inPort) :=
  ⟨
    ⟨linked [], 1, { bargeData with hdr := { bargeData.hdr with type := 2 } }, by decide +kernel⟩,
    ⟨routed [], 1, { bargeData with hdr := { bargeData.hdr with hops := 3 } }, 0, by decide +kernel⟩,
    ⟨routed [(F.FAB_TUN0_PEER_HUB 5, 5)], { tunnel := 5, colour := 0, first := true, last := true, tspec := 0, payload := [1], flood := none },
      0, by decide +kernel⟩,
    ⟨linked [], { bargeData with hdr := { bargeData.hdr with type := 2 } }, 1, by decide +kernel⟩,
    ⟨linked [] fun c => c.modSwc fun w => { w with held := w.held.setIfInBounds 3 (some { barge := bargeData, copies := [c.desc 3 1 0 5], retain := none, red := false, offered := 0, counted := false }) },
      3, { barge := bargeData, copies := [(linked []).hub.chip.desc 3 1 0 5], retain := none, red := false, offered := 0, counted := false },
      (linked []).hub.chip.desc 3 1 0 5, by decide +kernel⟩,
    ⟨linked [(F.SWC_BASIN_RETAIN_MAX 3, 100), (F.FAB_TSTATE0_TX_NEXT 5, 1)] fun c => c.modSwc fun w => { w with held := w.held.setIfInBounds 3 (some { barge := bargeData, copies := [c.desc 3 1 0 5], retain := some 5, red := true, offered := 0, counted := false }) },
      3, { barge := bargeData, copies := [(linked []).hub.chip.desc 3 1 0 5], retain := some 5, red := true, offered := 0, counted := false },
      (linked []).hub.chip.desc 3 1 0 5, 5, by decide +kernel⟩,
    ⟨linked [(F.SWC_LOOP_CH_EN 2, 1)] fun c => c.modSwc fun w => { w with p9in := [(2, bargeData)] }, 2, bargeData, [], by decide +kernel⟩,
    ⟨linked [] fun c => c.modSwc fun w => { w with p9in := [(2, bargeData)] }, 2, bargeData, [], by decide +kernel⟩,
    ⟨linked [] fun c => c.modSwc fun w => { w with voqs := [c.desc 3 1 0 5], store := [storedTest] }, 1, (linked []).hub.chip.desc 3 1 0 5,
      storedTest, by decide +kernel⟩,
    ⟨linked [(F.FAB_FRAME, 20)] fun c => c.modSwc fun w => { w with voqs := [{ c.desc 3 1 0 5 with frame := 0 }] }, { (linked [(F.FAB_FRAME, 20)]).hub.chip.desc 3 1 0 5 with frame := 0 },
      by decide +kernel⟩,
    ⟨linked [] fun c => c.modFab fun f => { f with walking := #v[none, some { routable := 7, broken := 0, exitLost := 0 }, none] }, 1,
      by decide +kernel⟩,
    ⟨routed [] fun c => (c.modFab fun f => { f with walking := #v[none, some { routable := 7, broken := 0, exitLost := 0 }, none] }).modSwc
      fun w => { w with voqs := [c.desc 3 1 0 5], store := [storedTest] }, 1, (routed []).hub.chip.desc 3 1 0 5, storedTest, 0, by decide +kernel⟩⟩

theorem witness_UsbHostRequests :
    (∃ (s : State) (speed : BitVec 2), s.hub.chip.headEnd = true ∧ s.hub.chip.on F.USB_CTL_EN = true ∧
      s.hub.chip.get F.USB_VHUB_ID_VID ≠ 0 ∧ speed = 2 ∧ s.hub.chip.on F.USB_CTL_SS_EN = true) ∧
    (∃ (s : State), s.hub.chip.headEnd = true) ∧
    (∃ (s : State), s.hub.chip.headEnd = true) ∧
    (∃ (s : State), s.hub.chip.headEnd = true ∧ s.hub.chip.get F.USB_STATUS_U0_SPEED = 2 ∧ (s.hub.chip.vhub 0 true).u1 = true) ∧
    (∃ (s : State), s.hub.chip.headEnd = true) ∧
    (∃ (s : State) (i : Byte) (on : Bool), s.hub.chip.leafPort i.toNat = true ∧ s.hub.chip.mapped i.toNat = false) ∧
    (∃ (s : State) (i : Byte), s.hub.chip.mapped i.toNat = true ∧ (s.hub.chip.mapTunnel i.toNat false).isSome = true) ∧
    (∃ (s : State) (i : Byte), s.hub.chip.mapped i.toNat = true ∧ (s.hub.chip.mapTunnel i.toNat false).isSome = true) ∧
    (∃ (s : State) (i : Byte), s.hub.chip.mapped i.toNat = true ∧ (s.hub.chip.mapTunnel i.toNat false).isSome = true) ∧
    (∃ (s : State) (i : Byte), s.hub.chip.mapped i.toNat = true ∧ (s.hub.chip.mapTunnel i.toNat false).isSome = true ∧
      s.hub.chip.resumeMerged (s.hub.chip.vdev i.toNat).wakeAt = false) ∧
    (∃ (s : State) (i : Byte) (warm : Bool), s.hub.chip.mapped i.toNat = true ∧ (s.hub.chip.mapTunnel i.toNat false).isSome = true) ∧
    (∃ (s : State) (i : Byte), s.hub.chip.mapped i.toNat = true ∧ s.hub.chip.on (F.USB_VP0_RESETTING i.toNat) = true) ∧
    (∃ (s : State) (i : Byte) (besl : BitVec 4) (wake : Bool), s.hub.chip.mapped i.toNat = true ∧
      (s.hub.chip.mapTunnel i.toNat false).isSome = true ∧ s.hub.chip.on F.USB_CTL_LPM_EN = true ∧ (s.hub.chip.vdev i.toNat).lpm = true) :=
  ⟨
    ⟨usbHe [], 2, by decide +kernel⟩,
    ⟨usbHe [], by decide +kernel⟩,
    ⟨usbHe [], by decide +kernel⟩,
    ⟨usbHe [(F.USB_STATUS_U0_SPEED, 2)] fun c => c.modVhub 0 true fun x => { x with u1 := true }, by decide +kernel⟩,
    ⟨usbHe [], by decide +kernel⟩,
    ⟨usbHe [], 4, true, by decide +kernel⟩,
    ⟨usbHe [], 3, by decide +kernel⟩,
    ⟨usbHe [], 3, by decide +kernel⟩,
    ⟨usbHe [], 3, by decide +kernel⟩,
    ⟨usbHe [], 3, by decide +kernel⟩,
    ⟨usbHe [], 3, true, by decide +kernel⟩,
    ⟨usbHe [(F.USB_VP0_RESETTING 3, 1)], 3, by decide +kernel⟩,
    ⟨usbHe [(F.USB_CTL_LPM_EN, 1)] fun c => c.modVdev 3 fun d => { d with lpm := true }, 3, 1, true, by decide +kernel⟩⟩

theorem witness_UsbHostTransfers :
    (∃ (s : State) (ss : Bool) (a : BitVec 7) (l : List Byte) (i : Nat), s.hub.chip.usbPortOf ss a.toNat = some i ∧
      s.hub.chip.hubAt ss a.toNat = none ∧ (s.hub.chip.mapTunnel i false).isSome = true ∧ s.hub.chip.vportSuspended i = false ∧
      l.length = 8) ∧
    (∃ (s : State) (ss : Bool) (a : BitVec 7) (l : List Byte) (k : Nat), s.hub.chip.hubAt ss a.toNat = some k ∧ l.length = 8) ∧
    (∃ (s : State) (ss : Bool) (a : BitVec 7) (ep : BitVec 4) (q : BitVec 5) (l : List Byte) (i : Nat),
      s.hub.chip.usbPortOf ss a.toNat = some i ∧ s.hub.chip.hubAt ss a.toNat = none ∧ s.hub.chip.vportSuspended i = false ∧
      (s.hub.chip.vdev i).stalls ((s.hub.chip.vdev i).getEp ep.toNat false) = false ∧
      q.toNat = ((s.hub.chip.vdev i).getEp ep.toNat false).seq ∧
      ((s.hub.chip.vdev i).getEp ep.toNat false).taken < orSixteen (s.hub.chip.get F.USB_CTL_OUT_CREDIT)) ∧
    (∃ (s : State) (ss : Bool) (a : BitVec 7) (ep : BitVec 4) (i : Nat) (l : List Byte) (rest : List (List Byte)) (acked : Bool),
      s.hub.chip.usbPortOf ss a.toNat = some i ∧ s.hub.chip.hubAt ss a.toNat = none ∧
      ((s.hub.chip.vdev i).getEp ep.toNat true).buf = l :: rest ∧ ((s.hub.chip.vdev i).getEp ep.toNat true).given = false) ∧
    (∃ (s : State) (ss : Bool) (a : BitVec 7) (ep : BitVec 4) (i : Nat) (k : List Byte) (l : List Byte) (rest : List (List Byte)),
      s.hub.chip.usbPortOf ss a.toNat = some i ∧ s.hub.chip.hubAt ss a.toNat = none ∧
      ((s.hub.chip.vdev i).getEp ep.toNat true).buf = k :: l :: rest ∧ ((s.hub.chip.vdev i).getEp ep.toNat true).given = true) ∧
    (∃ (s : State) (ss : Bool) (a : BitVec 7) (ep : BitVec 4) (i : Nat) (acked : Bool), s.hub.chip.usbPortOf ss a.toNat = some i ∧
      s.hub.chip.hubAt ss a.toNat = none ∧ (s.hub.chip.mapTunnel i false).isSome = true ∧ s.hub.chip.vportSuspended i = false ∧
      ((s.hub.chip.vdev i).getEp ep.toNat true).given = false ∧ ((s.hub.chip.vdev i).getEp ep.toNat true).buf = [] ∧
      (s.hub.chip.vdev i).stalls ((s.hub.chip.vdev i).getEp ep.toNat true) = false ∧
      ((s.hub.chip.vdev i).getEp ep.toNat true).kind = .bulk ∧ ((s.hub.chip.vdev i).getEp ep.toNat true).asked = 0) ∧
    (∃ (s : State) (ss : Bool) (a : BitVec 7) (i : Nat) (l : List Byte), s.hub.chip.usbPortOf ss a.toNat = some i ∧
      s.hub.chip.hubAt ss a.toNat = none ∧ (s.hub.chip.vdev i).setup = some l ∧ (s.hub.chip.vdev i).result = some 0) ∧
    (∃ (s : State) (ss : Bool) (a : BitVec 7) (ep : BitVec 4) (n : BitVec 14) (i : Nat) (x : Nat × Nat × List Byte),
      s.hub.chip.usbPortOf ss a.toNat = some i ∧ (s.hub.chip.vdev i).iso.find? (fun y => y.1 == n.toNat && y.2.1 == ep.toNat) = some x) ∧
    (∃ (s : State) (ss : Bool) (a : BitVec 7) (ep : BitVec 4) (n : BitVec 14) (l : List Byte) (i : Nat),
      s.hub.chip.usbPortOf ss a.toNat = some i ∧ s.hub.chip.on (F.USB_MAP1_ISO_EN i) = true ∧ s.hub.chip.vportSuspended i = false ∧
      l.length ≤ 1008) ∧
    (∃ (s : State) (a : BitVec 7) (ep : BitVec 4) (q : BitVec 1) (acked : Bool) (i : Nat), s.hub.chip.usbPortOf false a.toNat = some i ∧
      (s.hub.chip.get (F.USB_VP0_SPEED i) = 1 ∨ s.hub.chip.get (F.USB_VP0_SPEED i) = 2) ∧
      ((s.hub.chip.vdev i).getEp ep.toNat false).kind ≠ .iso ∧
      (s.hub.chip.vdev i).stalls ((s.hub.chip.vdev i).getEp ep.toNat false) = false) ∧
    (∃ (s : State) (a : BitVec 7) (ep : BitVec 4) (q : BitVec 1) (acked : Bool) (i : Nat) (l : List Byte) (rest : List (List Byte)),
      s.hub.chip.usbPortOf false a.toNat = some i ∧ (s.hub.chip.get (F.USB_VP0_SPEED i) = 1 ∨ s.hub.chip.get (F.USB_VP0_SPEED i) = 2) ∧
      ((s.hub.chip.vdev i).getEp ep.toNat true).kind ≠ .iso ∧ ((s.hub.chip.vdev i).getEp ep.toNat true).buf = l :: rest) ∧
    (∃ (s : State) (a : BitVec 7) (ep : BitVec 4) (dirIn : Bool) (q : BitVec 1) (acked : Bool) (i : Nat),
      s.hub.chip.usbPortOf false a.toNat = some i ∧ (s.hub.chip.get (F.USB_VP0_SPEED i) = 1 ∨ s.hub.chip.get (F.USB_VP0_SPEED i) = 2) ∧
      (s.hub.chip.vdev i).result = none) :=
  ⟨
    ⟨usbHe [] fun c => c.modVhub 0 false fun x => { x with addr := 1 }, false, 5, List.replicate 8 0, 3, by decide +kernel⟩,
    ⟨usbHe [(F.USB_VP0_ADDR 3, 6), (F.USB_STATUS_U0_SPEED, 1)] fun c => c.modVhub 0 false fun x => { x with addr := 5 }, false, 5,
      List.replicate 8 0, 0, by decide +kernel⟩,
    ⟨usbHe [], false, 5, 2, 0, [7], 3, by decide +kernel⟩,
    ⟨usbHe [] fun c => c.modVdev 3 fun d => d.setEp { UsbEp.fresh 2 true with buf := [[9]], given := false }, false, 5, 2, 3, [9], [],
      false, by decide +kernel⟩,
    ⟨usbHe [] fun c => c.modVdev 3 fun d => d.setEp { UsbEp.fresh 2 true with buf := [[9], [8]], given := true }, false, 5, 2, 3, [9],
      [8], [], by decide +kernel⟩,
    ⟨usbHe [], false, 5, 2, 3, false, by decide +kernel⟩,
    ⟨usbHe [] fun c => c.modVdev 3 fun d => { d with setup := some [0, 5, 9, 0, 0, 0, 0, 0], result := some 0 }, false, 5, 3, [0, 5,
      9, 0, 0, 0, 0, 0], by decide +kernel⟩,
    ⟨usbHe [] fun c => c.modVdev 3 fun d => { d with iso := [(4, 2, [8])] }, false, 5, 2, 4, 3, (4, 2, [8]), by decide +kernel⟩,
    ⟨usbHe [(F.USB_MAP1_ISO_EN 3, 1)], false, 5, 2, 4, [8], 3, by decide +kernel⟩,
    ⟨usbHe [(F.USB_VP0_SPEED 3, 1)], 5, 2, 0, true, 3, by decide +kernel⟩,
    ⟨usbHe [(F.USB_VP0_SPEED 3, 1)] fun c => c.modVdev 3 fun d => d.setEp { UsbEp.fresh 2 true with buf := [[9]], given := false }, 5,
      2, 0, true, 3, [9], [], by decide +kernel⟩,
    ⟨usbHe [(F.USB_VP0_SPEED 3, 1)], 5, 0, false, 0, true, 3, by decide +kernel⟩⟩

theorem witness_UsbFromFieldHubs :
    (∃ (s : State) (m : Msg) (i : Nat), usbMsgOk m = true ∧ m.channel.toNat < 0xF0 ∧ i = m.channel.toNat ∧ s.hub.chip.mapped i = true ∧
      s.hub.chip.mapTunnel i false = some m.tunnel.toNat ∧ usbEpoch m ≠ s.hub.chip.get (F.USB_VP0_PEPOCH i) ∧ usbKind m = kindInData) ∧
    (∃ (s : State) (m : Msg) (i : Nat), fromField s.hub.chip m i ∧ usbKind m = kindInData) ∧
    (∃ (s : State) (m : Msg) (i : Nat), fromField s.hub.chip m i ∧ usbKind m = kindResult ∧ usbRes m = 0 ∧ usbEp m = 0 ∧
      usbDirIn m = true) ∧
    (∃ (s : State) (m : Msg) (i : Nat), fromField s.hub.chip m i ∧ usbKind m = kindResult ∧ usbRes m = 1 ∧ usbDirIn m = false) ∧
    (∃ (s : State) (m : Msg) (i : Nat), fromField s.hub.chip m i ∧ usbKind m = kindIsoIn ∧
      microLater ((usbArg m + s.hub.chip.isoDelay) % 2 ^ 14) s.hub.chip.hostMicroframe = true) ∧
    (∃ (s : State) (m : Msg) (i : Nat), fromField s.hub.chip m i ∧ usbKind m = kindIsoIn ∧
      microLater ((usbArg m + s.hub.chip.isoDelay) % 2 ^ 14) s.hub.chip.hostMicroframe = false) ∧
    (∃ (s : State) (m : Msg) (i : Nat), fromField s.hub.chip m i ∧ usbKind m = kindEpReset ∧ (s.hub.chip.vdev i).setup ≠ none) ∧
    (∃ (s : State) (m : Msg) (i : Nat), fromField s.hub.chip m i ∧ usbKind m = kindEpReset ∧ (s.hub.chip.vdev i).setup = none) ∧
    (∃ (s : State) (m : Msg) (i : Nat), fromField s.hub.chip m i ∧ isEvent 1 m = true) ∧
    (∃ (s : State) (m : Msg) (i : Nat), fromField s.hub.chip m i ∧ isEvent 2 m = true) ∧
    (∃ (s : State) (m : Msg) (i : Nat), fromField s.hub.chip m i ∧ isEvent 3 m = true ∧ s.hub.chip.on (F.USB_VP0_RESETTING i) = true) ∧
    (∃ (s : State) (m : Msg) (i : Nat), fromField s.hub.chip m i ∧ isEvent 4 m = true ∧ payloadByte m 0 = 1) ∧
    (∃ (s : State) (m : Msg) (i : Nat), fromField s.hub.chip m i ∧ isEvent 5 m = true) ∧
    (∃ (s : State) (m : Msg) (i : Nat), fromField s.hub.chip m i ∧ isEvent 6 m = true ∧ s.hub.chip.resumeEarly i = true) ∧
    (∃ (s : State) (m : Msg) (i : Nat), fromField s.hub.chip m i ∧ isEvent 6 m = true ∧ s.hub.chip.resumeEarly i = false) ∧
    (∃ (s : State) (m : Msg) (i : Nat), fromField s.hub.chip m i ∧ isEvent 7 m = true ∧ payloadByte m 0 = 2) ∧
    (∃ (s : State) (m : Msg) (i : Nat), fromField s.hub.chip m i ∧ isEvent 8 m = true ∧ s.hub.chip.swc.inbox.toList.getD 3 [] = [m]) :=
  ⟨
    ⟨usbHe [], usbMsg kindInData 3 2 true 0 1 0 [5], 3, by decide +kernel⟩,
    ⟨usbHe [], usbMsg kindInData 3 2 true 0 0 0 [5], 3, by decide +kernel⟩,
    ⟨usbHe [], usbMsg kindResult 3 0 true 0 0 0 [], 3, by decide +kernel⟩,
    ⟨usbHe [], usbMsg kindResult 3 2 false 1 0 0 [], 3, by decide +kernel⟩,
    ⟨usbHe [(F.USB_MAP1_ISO_EN 3, 1), (F.USB_MAP1_ISO_TUNNEL 3, 5)], usbMsg kindIsoIn 3 2 true 0 0 1 [5], 3, by decide +kernel⟩,
    ⟨usbHe [(F.USB_MAP1_ISO_EN 3, 1), (F.USB_MAP1_ISO_TUNNEL 3, 5), (F.FAB_FRAME, 100)], usbMsg kindIsoIn 3 2 true 0 0 1 [5], 3, by decide +kernel⟩,
    ⟨usbHe [] fun c => c.modVdev 3 fun d => { d with setup := some [0, 9, 1, 0, 0, 0, 0, 0] }, usbMsg kindEpReset 3 2 true 0 0 0 [],
      3, by decide +kernel⟩,
    ⟨usbHe [], usbMsg kindEpReset 3 2 true 0 0 0 [], 3, by decide +kernel⟩,
    ⟨usbHe [], usbMsg kindPortEvent 3 0 false 0 0 1 [3], 3, by decide +kernel⟩,
    ⟨usbHe [], usbMsg kindPortEvent 3 0 false 0 0 2 [], 3, by decide +kernel⟩,
    ⟨usbHe [(F.USB_VP0_RESETTING 3, 1)], usbMsg kindPortEvent 3 0 false 0 0 3 [3], 3, by decide +kernel⟩,
    ⟨usbHe [], usbMsg kindPortEvent 3 0 false 0 0 4 [1], 3, by decide +kernel⟩,
    ⟨usbHe [(F.USB_VP0_LINK 3, 4)], usbMsg kindPortEvent 3 0 false 0 0 5 [], 3, by decide +kernel⟩,
    ⟨usbHe [(F.USB_VP0_LINK 3, 4)] fun c => c.modVdev 3 fun d => { d with resumeAt := some c.now }, usbMsg kindPortEvent 3 0 false 0 0 6 [],
      3, by decide +kernel⟩,
    ⟨usbHe [(F.USB_VP0_LINK 3, 4)], usbMsg kindPortEvent 3 0 false 0 0 6 [], 3, by decide +kernel⟩,
    ⟨usbHe [], usbMsg kindPortEvent 3 0 false 0 0 7 [2], 3, by decide +kernel⟩,
    ⟨usbHe [] fun c => c.modSwc fun w => { w with inbox := w.inbox.setIfInBounds 3 [usbMsg kindPortEvent 3 0 false 0 0 8 [0]] },
      usbMsg kindPortEvent 3 0 false 0 0 8 [0], 3, by decide +kernel⟩⟩

theorem witness_UsbPortCommands :
    (∃ (s : State) (m : Msg) (x : Fin 2), toField s.hub.chip m x ∧ isCommand 1 m = true ∧ s.hub.chip.on (F.USB_U_CTL_PORT_EN x) = true) ∧
    (∃ (s : State) (m : Msg) (x : Fin 2), toField s.hub.chip m x ∧ isCommand 2 m = true) ∧
    (∃ (s : State) (m : Msg) (x : Fin 2), toField s.hub.chip m x ∧ isCommand 3 m = true) ∧
    (∃ (s : State) (m : Msg) (x : Fin 2), toField s.hub.chip m x ∧ isCommand 4 m = true) ∧
    (∃ (s : State) (m : Msg) (x : Fin 2), toField s.hub.chip m x ∧ isCommand 5 m = true) ∧
    (∃ (s : State) (m : Msg) (x : Fin 2), toField s.hub.chip m x ∧ isCommand 6 m = true ∧ s.hub.chip.get (F.USB_U_STATUS_LINK x) = 4 ∧
      s.hub.chip.resumeMerged (s.hub.chip.pdev x).wakeAt = false) ∧
    (∃ (s : State) (m : Msg) (x : Fin 2), toField s.hub.chip m x ∧ isCommand 7 m = true) ∧
    (∃ (s : State) (m : Msg) (x : Fin 2), toField s.hub.chip m x ∧ isCommand 8 m = true) ∧
    (∃ (s : State) (m : Msg) (x : Fin 2), toField s.hub.chip m x ∧ isCommand 9 m = true) ∧
    (∃ (s : State) (m : Msg) (x : Fin 2), toField s.hub.chip m x ∧ isCommand 10 m = true) ∧
    (∃ (s : State) (m : Msg) (x : Fin 2), toField s.hub.chip m x ∧ isCommand 11 m = true) :=
  ⟨
    ⟨usbFd [], usbMsg kindPortCmd 0xF1 0 false 0 1 1 [], 1, by decide +kernel⟩,
    ⟨usbFd [], usbMsg kindPortCmd 0xF1 0 false 0 1 2 [], 1, by decide +kernel⟩,
    ⟨usbFd [], usbMsg kindPortCmd 0xF1 0 false 0 1 3 [], 1, by decide +kernel⟩,
    ⟨usbFd [], usbMsg kindPortCmd 0xF1 0 false 0 1 4 [], 1, by decide +kernel⟩,
    ⟨usbFd [], usbMsg kindPortCmd 0xF1 0 false 0 1 5 [], 1, by decide +kernel⟩,
    ⟨usbFd [(F.USB_U_STATUS_LINK 1, 4)], usbMsg kindPortCmd 0xF1 0 false 0 1 6 [], 1, by decide +kernel⟩,
    ⟨usbFd [], usbMsg kindPortCmd 0xF1 0 false 0 1 7 [], 1, by decide +kernel⟩,
    ⟨usbFd [], usbMsg kindPortCmd 0xF1 0 false 0 1 8 [3, 1], 1, by decide +kernel⟩,
    ⟨usbFd [(F.USB_CTL_U1U2_EN, 1)], usbMsg kindPortCmd 0xF1 0 false 0 1 9 [3, 1], 1, by decide +kernel⟩,
    ⟨usbFd [], usbMsg kindPortCmd 0xF1 0 false 0 1 10 [3, 1], 1, by decide +kernel⟩,
    ⟨usbFd [], usbMsg kindPortCmd 0xF1 0 false 0 1 11 [1], 1, by decide +kernel⟩⟩

theorem witness_UsbDeviceTransfers :
    (∃ (s : State) (m : Msg) (x : Fin 2), toField s.hub.chip m x ∧ usbKind m = kindSetup) ∧
    (∃ (s : State) (m : Msg) (x : Fin 2), toField s.hub.chip m x ∧ usbKind m = kindOutData ∧
      ((s.hub.chip.pdev x).getEp (usbEp m) false).streams = 0 ∧ ((s.hub.chip.pdev x).getEp (usbEp m) false).buf = [] ∧
      ((s.hub.chip.pdev x).getEp (usbEp m) false).sent = 0 ∧ usbEp m ≠ 0 ∧ s.hub.chip.get (F.USB_U_STATUS_SPEED x) ≠ 4) ∧
    (∃ (s : State) (m : Msg) (x : Fin 2), toField s.hub.chip m x ∧ usbKind m = kindInReq ∧ usbArg m ≠ 0 ∧
      ((s.hub.chip.pdev x).getEp (usbEp m) true).asked = 0 ∧ ((s.hub.chip.pdev x).getEp (usbEp m) true).streams = 0) ∧
    (∃ (s : State) (m : Msg) (x : Fin 2), toField s.hub.chip m x ∧ usbKind m = kindIsoOut ∧
      microLater (usbArg m) (s.hub.chip.sofNumber x * 8 + s.hub.chip.subns / 125_000) = true) ∧
    (∃ (s : State) (x : Fin 2) (ep : BitVec 4) (b : List Byte) (pkt : DevicePacket), s.hub.chip.downstream x = true ∧ ep ≠ 0 ∧
      ((s.hub.chip.pdev x).getEp ep.toNat false).buf = [b] ∧ ((s.hub.chip.pdev x).getEp ep.toNat false).sent = 1) ∧
    (∃ (s : State) (x : Fin 2) (ep : BitVec 4) (pkt : DevicePacket) (n : Nat), s.hub.chip.downstream x = true ∧ ep ≠ 0 ∧
      ((s.hub.chip.pdev x).getEp ep.toNat true).kind = .bulk ∧ ((s.hub.chip.pdev x).getEp ep.toNat true).asked ≠ 0 ∧
      pkt.seq.toNat = ((s.hub.chip.pdev x).getEp ep.toNat true).seq ∧ s.hub.chip.physTunnel x = some n ∧ pkt.data.length ≤ 1008) ∧
    (∃ (s : State) (x : Fin 2) (ep : BitVec 4) (dirIn : Bool) (l : List Byte) (pkt : DevicePacket), s.hub.chip.downstream x = true ∧
      (s.hub.chip.pdev x).setup = some l ∧ (SetupPacket.ofBytes l).length = 0 ∧ (s.hub.chip.pdev x).phase = some .setup) ∧
    (∃ (s : State) (x : Fin 2) (ep : BitVec 4) (l : List Byte) (pkt : DevicePacket), s.hub.chip.downstream x = true ∧
      (s.hub.chip.pdev x).setup = some l) ∧
    (∃ (s : State) (x : Fin 2) (ep : BitVec 4) (dir : Bool), s.hub.chip.downstream x = true) ∧
    (∃ (s : State) (x : Fin 2) (ep : BitVec 4) (dir : Bool), s.hub.chip.downstream x = true) ∧
    (∃ (s : State) (x : Fin 2) (ep : BitVec 4) (dir : Bool), s.hub.chip.downstream x = true) ∧
    (∃ (s : State) (x : Fin 2) (ep : BitVec 4) (pkt : DevicePacket) (kept : Nat) (n : Nat), s.hub.chip.downstream x = true ∧ ep ≠ 0 ∧
      kept < 2 ∧ ((s.hub.chip.pdev x).getEp ep.toNat true).kind = .interrupt ∧
      pkt.seq.toNat = ((s.hub.chip.pdev x).getEp ep.toNat true).seq ∧ s.hub.chip.physTunnel x = some n ∧ pkt.data.length ≤ 1008) :=
  ⟨
    ⟨usbFd [], usbMsg kindSetup 0xF1 0 false 0 1 0 (List.replicate 8 0), 1, by decide +kernel⟩,
    ⟨usbFd [], usbMsg kindOutData 0xF1 2 false 0 1 0 [4], 1, by decide +kernel⟩,
    ⟨usbFd [], usbMsg kindInReq 0xF1 2 true 0 1 4 [], 1, by decide +kernel⟩,
    ⟨usbFd [(F.FAB_TUN1_MODE 5, 1)], usbMsg kindIsoOut 0xF1 2 false 0 1 9 [4], 1, by decide +kernel⟩,
    ⟨usbFd [] fun c => c.modPdev 1 fun d => d.setEp { UsbEp.fresh 2 false with buf := [[4]], sent := 1 }, 1, 2, [4], { seq := 0, numP := 1, data := [3] },
      by decide +kernel⟩,
    ⟨usbFd [] fun c => c.modPdev 1 fun d => d.setEp { UsbEp.fresh 2 true with asked := 2 }, 1, 2, { seq := 0, numP := 1, data := [3] },
      5, by decide +kernel⟩,
    ⟨usbFd [] fun c => c.modPdev 1 fun d => { d with setup := some [0, 9, 1, 0, 0, 0, 0, 0], phase := some .setup }, 1, 0, false, [0,
      9, 1, 0, 0, 0, 0, 0], { seq := 0, numP := 1, data := [3] }, by decide +kernel⟩,
    ⟨usbFd [] fun c => c.modPdev 1 fun d => { d with setup := some [0, 9, 1, 0, 0, 0, 0, 0], phase := some .setup }, 1, 0, [0, 9, 1,
      0, 0, 0, 0, 0], { seq := 0, numP := 1, data := [3] }, by decide +kernel⟩,
    ⟨usbFd [], 1, 2, false, by decide +kernel⟩,
    ⟨usbFd [], 1, 2, false, by decide +kernel⟩,
    ⟨usbFd [], 1, 2, false, by decide +kernel⟩,
    ⟨usbFd [] fun c => c.modPdev 1 fun d => d.setEp { UsbEp.fresh 2 true with kind := .interrupt }, 1, 2, { seq := 0, numP := 1, data := [3] },
      0, 5, by decide +kernel⟩⟩

theorem witness_UsbDeviceEvents :
    (∃ (s : State) (x : Fin 2) (v : BitVec 3), s.hub.chip.downstream x = true ∧ v ≠ 0 ∧ v.toNat ≤ 4 ∧
      s.hub.chip.on (F.USB_U_CTL_PORT_EN x) = true ∧ s.hub.chip.on (F.USB_U_STATUS_VBUS_ON x) = true) ∧
    (∃ (s : State) (x : Fin 2), s.hub.chip.downstream x = true ∧ s.hub.chip.on (F.USB_U_STATUS_CONNECT x) = true) ∧
    (∃ (s : State) (x : Fin 2), s.hub.chip.downstream x = true ∧ s.hub.chip.on (F.USB_U_STATUS_CONNECT x) = true) ∧
    (∃ (s : State) (x : Fin 2) (v : BitVec 3), s.hub.chip.downstream x = true ∧ s.hub.chip.usb.phys[x].resetting = true) ∧
    (∃ (s : State) (x : Fin 2), s.hub.chip.downstream x = true ∧ s.hub.chip.on (F.USB_U_STATUS_VBUS_ON x) = true) ∧
    (∃ (s : State) (x : Fin 2), s.hub.chip.downstream x = true ∧
      (s.hub.chip.on (F.USB_U_STATUS_OC x) = false ∨ s.hub.chip.on (F.USB_U_STATUS_VBUS_ON x) = true)) ∧
    (∃ (s : State) (x : Fin 2), s.hub.chip.downstream x = true ∧ s.hub.chip.on (F.USB_U_STATUS_OC x) = true) ∧
    (∃ (s : State) (k : Fin 8), s.hub.chip.downstream 0 = false ∧ s.hub.chip.downstream 1 = true ∧
      s.hub.chip.on (F.USB_U_STATUS_ENABLED 1) = true ∧ s.hub.chip.get (F.USB_U_STATUS_LINK 1) ≠ 4 ∧
      3 ≤ s.hub.chip.get (F.USB_U_STATUS_SPEED 1) ∧ (s.hub.chip.pdev 0).iso = [] ∧ (s.hub.chip.pdev 1).iso = [] ∧
      (∀ i ∈ s.hub.chip.mapList, (s.hub.chip.vdev i).iso = [] ∧ (s.hub.chip.vdev i).resumed = false)) :=
  ⟨
    ⟨usbFd [(F.USB_U_STATUS_VBUS_ON 1, 1)], 1, 3, by decide +kernel⟩,
    ⟨usbFd [(F.USB_U_STATUS_CONNECT 1, 1)], 1, by decide +kernel⟩,
    ⟨usbFd [(F.USB_U_STATUS_CONNECT 1, 1), (F.USB_U_STATUS_LINK 1, 4)], 1, by decide +kernel⟩,
    ⟨usbFd [] fun c => c.modPhys 1 fun p => { p with resetting := true }, 1, 3, by decide +kernel⟩,
    ⟨usbFd [(F.USB_U_STATUS_VBUS_ON 1, 1)], 1, by decide +kernel⟩,
    ⟨usbFd [], 1, by decide +kernel⟩,
    ⟨usbFd [(F.USB_U_STATUS_OC 1, 1)], 1, by decide +kernel⟩,
    ⟨usbHe [(F.USB_U_STATUS_ENABLED 1, 1), (F.USB_U_STATUS_SPEED 1, 3)], 2, by decide +kernel⟩⟩

theorem witness_WindowMessagesAndLocks :
    (∃ (s : State) (m : Msg) (r : WinReq) (a : WinAccess) (v : PieceUser), s.hub.chip.swc.inbox[4] = [] ∧ winKind m = 3 ∧
      s.hub.chip.win.out = [r] ∧ r.tag = winTag m ∧ r.write = false ∧ r.again = false ∧ r.fill = false ∧ r.users = [v] ∧ winStatus m
      = 0 ∧ s.hub.chip.win.queue = [] ∧ s.hub.chip.win.releaseAt = none ∧ s.hub.chip.win.accesses = [a] ∧ a.id = v.acc ∧ a.left = 1
      ∧ a.worst = 0 ∧ s.hub.chip.win.locals = []) ∧
    (∃ (s : State) (m : Msg) (r : WinReq), s.hub.chip.swc.inbox[4] = [] ∧ winKind m = 4 ∧ s.hub.chip.win.out = [r] ∧ r.tag = winTag m ∧
      r.write = true ∧ r.again = false ∧ r.fill = false ∧ r.users = [] ∧ winStatus m = 0 ∧ s.hub.chip.win.queue = [] ∧
      s.hub.chip.win.releaseAt = none ∧ s.hub.chip.win.locals = []) ∧
    (∃ (s : State) (m : Msg), s.hub.chip.swc.inbox[4] = [] ∧ winKind m = 5 ∧ s.hub.chip.win.out = [] ∧ s.hub.chip.on (F.WIN_PWL3_VALID
      0) = false) ∧
    (∃ (s : State) (tag : Byte) (r : WinReq), s.hub.chip.win.out = [r] ∧ r.tag = tag.toNat ∧ r.write = false ∧ r.sideEffect = false ∧
      r.again = true ∧ r.users = [] ∧ r.fill = false ∧ r.rng < 16 ∧ s.hub.chip.win.queue = [] ∧ s.hub.chip.win.releaseAt = none ∧
      s.hub.chip.win.locals = []) ∧
    (∃ (s : State) (n : BitVec 12) (tag : Byte) (r : TgtReq), s.hub.chip.win.target.find? (fun x => x.tunnel == n.toNat && x.tag ==
      tag.toNat) = some r ∧ r.write = false) ∧
    (∃ (s : State) (tag : Byte), s.hub.chip.win.queue = [] ∧ s.hub.chip.win.releaseAt = none) ∧
    (∃ (s : State) (fwa : BitVec 64) (b : PfBuf), s.hub.chip.win.pf = [b] ∧ b.fwa = fwa.toNat ∧ b.data.isSome = true) ∧
    (∃ (s : State) (m : Msg), s.hub.chip.swc.inbox[4] = [] ∧ winKind m = 6 ∧ payloadByte m 0 < 2 ∧ s.hub.chip.lockHolder (payloadByte m
      0) = none ∧ s.hub.chip.on F.WIN_LOCK_STATUS_R_HELD = false ∧ s.hub.chip.win.want = none) ∧
    (∃ (s : State) (m : Msg) (h : Nat), s.hub.chip.swc.inbox[4] = [] ∧ winKind m = 6 ∧ payloadByte m 0 < 2 ∧ s.hub.chip.lockHolder
      (payloadByte m 0) = some h ∧ h ≠ m.src.toNat ∧ s.hub.chip.on F.WIN_LOCK_STATUS_R_HELD = false ∧ s.hub.chip.win.want = none) ∧
    (∃ (s : State) (m : Msg) (n : Nat), s.hub.chip.swc.inbox[4] = [] ∧ winKind m = 7 ∧ payloadByte m 0 < 2 ∧ s.hub.chip.win.withdrawn =
      [] ∧ s.hub.chip.win.want = some (m.src.toNat, payloadByte m 0, n) ∧ s.hub.chip.win.backoff = false) ∧
    (∃ (s : State) (m : Msg) (n : Nat), s.hub.chip.swc.inbox[4] = [] ∧ winKind m = 8 ∧ s.hub.chip.win.withdrawn = [] ∧
      s.hub.chip.win.want = some (m.src.toNat, payloadByte m 0, n) ∧ s.hub.chip.win.backoff = false) ∧
    (∃ (s : State) (m : Msg), s.hub.chip.swc.inbox[4] = [] ∧ winKind m = 9 ∧ payloadByte m 0 < 2 ∧ s.hub.chip.lockHolder (payloadByte m
      0) = some m.src.toNat ∧ s.hub.chip.fab.waiting = [] ∧ s.hub.chip.win.locals = []) ∧
    (∃ (s : State) (m : Msg), s.hub.chip.swc.inbox[4] = [] ∧ winKind m = 10 ∧ s.hub.chip.on F.WIN_LOCK_STATUS_R_HELD = true ∧
      s.hub.chip.get F.WIN_LOCK_STATUS_R_HUB = m.src.toNat ∧ s.hub.chip.get F.WIN_LOCK_STATUS_R_SPACE = payloadByte m 0) ∧
    (∃ (s : State) (h : Nat) (n : Nat) (sp : Nat), s.hub.chip.win.want = some (h, sp, n) ∧ s.hub.chip.win.backoff = true ∧
      s.hub.chip.get F.WIN_LOCK_STATUS_RETRIES < s.hub.chip.get F.WIN_LOCK_CFG_RETRY_MAX) ∧
    (∃ (s : State) (h : Nat) (n : Nat) (sp : Nat), s.hub.chip.win.want = some (h, sp, n) ∧ s.hub.chip.win.backoff = true ∧
      s.hub.chip.get F.WIN_LOCK_CFG_RETRY_MAX ≤ s.hub.chip.get F.WIN_LOCK_STATUS_RETRIES) ∧
    (∃ (s : State) (mem : Bool) (h : Nat), s.hub.chip.lockHolder mem.toNat = some h ∧ s.hub.chip.fab.waiting = [] ∧
      s.hub.chip.win.locals = []) :=
  ⟨
    ⟨winSt [] fun c => c.modWin fun w => { w with out := [winReqTest false true], accesses := [winAccTest] }, winMsg 3 7 0 [1, 2],
      winReqTest false true, winAccTest, { acc := 0, pos := 0, off := 0, len := 2 }, by decide +kernel⟩,
    ⟨winSt [] fun c => c.modWin fun w => { w with out := [winReqTest true false] }, winMsg 4 7 0 [], winReqTest true false, by decide +kernel⟩,
    ⟨winSt [], winMsg 5 7 3 [0, 0, 0, 0, 0, 0, 0, 9], by decide +kernel⟩,
    ⟨winSt [] fun c => c.modWin fun w => { w with out := [{ winReqTest false false with again := true }] }, 7, { winReqTest false false with again := true },
      by decide +kernel⟩,
    ⟨winSt [] fun c => c.modWin fun w => { w with target := [tgtReqTest] }, 5, 7, tgtReqTest, by decide +kernel⟩,
    ⟨winSt [] fun c => c.modWin fun w => { w with quarantine := [(7, none)] }, 7, by decide +kernel⟩,
    ⟨winSt [] fun c => c.modWin fun w => { w with pf := [{ rng := 0, fwa := 512, len := 8, data := some [] }] }, 512, { rng := 0, fwa := 512, len := 8, data := some [] },
      by decide +kernel⟩,
    ⟨winSt [], winMsg 6 0 0 [1], by decide +kernel⟩,
    ⟨winSt [(F.WIN_LOCK_HELD_MEM_LOCKED, 1), (F.WIN_LOCK_HELD_MEM_HOLDER, 4)], winMsg 6 0 0 [1], 4, by decide +kernel⟩,
    ⟨winSt [] fun c => c.modWin fun w => { w with want := some (9, 1, 5) }, winMsg 7 0 0 [1], 5, by decide +kernel⟩,
    ⟨winSt [] fun c => c.modWin fun w => { w with want := some (9, 1, 5) }, winMsg 8 0 0 [1], 5, by decide +kernel⟩,
    ⟨winSt [(F.WIN_LOCK_HELD_MEM_LOCKED, 1), (F.WIN_LOCK_HELD_MEM_HOLDER, 9)], winMsg 9 0 0 [1], by decide +kernel⟩,
    ⟨winSt [(F.WIN_LOCK_STATUS_R_HELD, 1), (F.WIN_LOCK_STATUS_R_HUB, 9), (F.WIN_LOCK_STATUS_R_SPACE, 1)], winMsg 10 0 0 [1], by decide +kernel⟩,
    ⟨winSt [(F.WIN_LOCK_CFG_RETRY_MAX, 2)] fun c => c.modWin fun w => { w with want := some (9, 1, 5), backoff := true }, 9, 5, 1, by decide +kernel⟩,
    ⟨winSt [(F.WIN_LOCK_CFG_RETRY_MAX, 0)] fun c => c.modWin fun w => { w with want := some (9, 1, 5), backoff := true }, 9, 5, 1, by decide +kernel⟩,
    ⟨winSt [(F.WIN_LOCK_HELD_MEM_LOCKED, 1), (F.WIN_LOCK_HELD_MEM_HOLDER, 4)], true, 4, by decide +kernel⟩⟩

theorem witness_PcieLinkRingsAndBridge :
    (∃ (s : State) (speed : BitVec 2) (width : BitVec 2) (e : PcieEnables), s.hub.chip.get F.WIN_PCI_ID_VID ≠ 0 ∧ s.hub.chip.headEnd =
      true ∧ speed ≠ 0 ∧ width ≠ 0) ∧
    (∃ (s : State) (a : BitVec 64) (d : BitVec 32), s.hub.chip.headEnd = false ∧ 0xFEE0_0000 ≤ a.toNat ∧ a.toNat ≤ 0xFEE0_0FFF) ∧
    (∃ (s : State) (n : Fin 64) (d : DmaDesc) (x : RingBarge), s.hub.chip.headEnd = true ∧ s.hub.chip.dmaTakes n.val = true ∧
      (s.hub.chip.dmaRing n.val).opened = none ∧ (s.hub.chip.dmaRing n.val).stopping = false ∧ s.hub.chip.win.barges = [x] ∧
      x.channel = n.val ∧ x.barge.hdr.first = true ∧ x.barge.hdr.last = true ∧ x.barge.payload ≠ [] ∧ x.barge.payload.length ≤
      dmaLen d ∧ d.bad = false) ∧
    (∃ (s : State) (n : Fin 64) (d : DmaDesc) (v : Nat), s.hub.chip.headEnd = true ∧ s.hub.chip.on (F.WIN_DMA2_EN n.val) = true ∧
      s.hub.chip.on (F.WIN_DMA2_DIR n.val) = true ∧ 0 < s.hub.chip.dmaPosted n.val ∧ d.last = true ∧ d.bad = false ∧ dmaLen d ≤ 1008
      ∧ s.hub.chip.swc.held[4] = none ∧ s.hub.chip.tunnelOn 4 n.val (fun _ => true) = some v) ∧
    (∃ (s : State) (n : Fin 64) (bt : Bool), max 1 (s.hub.chip.get (F.WIN_DMA2_MOD_COUNT n.val)) ≤ (s.hub.chip.dmaRing
      n.val).unsignalled) ∧
    (∃ (s : State) (x : RingBarge) (size : Nat) (used : Nat), s.hub.chip.win.barges = [x] ∧ x.channel = 0x41 ∧ x.barge.hdr.first = true
      ∧ x.barge.hdr.last = true ∧ s.hub.chip.stageMsg x.key = none ∧ size = 64 * s.hub.chip.get F.WIN_STAGE_RING_SIZE ∧ size ≠ 0 ∧
      used = ((s.hub.chip.get F.WIN_STAGE_WR_PTR - s.hub.chip.get F.WIN_STAGE_RING_START) % size + size - (s.hub.chip.get
      F.WIN_STAGE_RD_PTR - s.hub.chip.get F.WIN_STAGE_RING_START) % size) % size ∧ used + x.barge.payload.length ≤ size) ∧
    (∃ (s : State) (m : Msg) (link : LinkReply), s.hub.chip.swc.inbox[4] = [] ∧ winKind m = 0 ∧ winWhole m = true ∧ winLseq m = false ∧
      fwaSpace (winFwa m) = 3 ∧ fwaReserved (winFwa m) = 0 ∧ s.hub.chip.ownId = some (fwaHub (winFwa m)) ∧ s.hub.chip.on
      F.WIN_CTL_EN = true ∧ s.hub.chip.on F.WIN_CTL_TGT_STAGE_EN = true ∧ s.hub.chip.win.target = [] ∧ fwaOffset (winFwa m) + winLen
      m ≤ stageSize ∧ s.hub.chip.stagePoisoned (fwaOffset (winFwa m)) (winLen m) = false) ∧
    (∃ (s : State) (m : Msg) (link : LinkReply), s.hub.chip.swc.inbox[4] = [] ∧ winKind m = 1 ∧ winWhole m = true ∧ winLseq m = false ∧
      fwaSpace (winFwa m) = 3 ∧ fwaReserved (winFwa m) = 0 ∧ s.hub.chip.ownId = some (fwaHub (winFwa m)) ∧ s.hub.chip.on
      F.WIN_CTL_EN = true ∧ s.hub.chip.on F.WIN_CTL_TGT_STAGE_EN = true ∧ s.hub.chip.win.target = [] ∧ fwaOffset (winFwa m) + winLen
      m ≤ stageSize) ∧
    (∃ (s : State) (m : Msg) (link : LinkReply), s.hub.chip.swc.inbox[4] = [] ∧ winKind m = 2 ∧ winWhole m = true ∧ winLseq m = false ∧
      fwaSpace (winFwa m) = 3 ∧ fwaReserved (winFwa m) = 0 ∧ s.hub.chip.ownId = some (fwaHub (winFwa m)) ∧ s.hub.chip.on
      F.WIN_CTL_EN = true ∧ s.hub.chip.on F.WIN_CTL_TGT_STAGE_EN = true ∧ s.hub.chip.win.target = [] ∧ fwaOffset (winFwa m) + winLen
      m ≤ stageSize) ∧
    (∃ (s : State) (a : BitVec 36) (len : Nat) (fwa : Nat) (n : Nat) (r : Nat) (id : BitVec 16) (link : LinkReply), s.hub.chip.started =
      true ∧ s.hub.chip.headEnd = true ∧ s.hub.chip.on F.WIN_STATUS_LINK_UP = true ∧ 0 < len ∧ a.toNat < 2 ^ s.hub.chip.bar2Log2 ∧ n
      = a.toNat / 2 ^ (s.hub.chip.bar2Log2 - 4) ∧ s.hub.chip.on (F.WIN_BARWIN_EN n) = true ∧ r = s.hub.chip.get (F.WIN_BARWIN_RANGE
      n) ∧ s.hub.chip.rangeAccess r (a.toNat % 2 ^ (s.hub.chip.bar2Log2 - 4)) len = some fwa ∧ s.hub.chip.rangeLocal r = false ∧
      s.hub.chip.on (F.WIN_RNG0_PREFETCH r) = false ∧ pieces fwa len = [(fwa, len, 0)] ∧ s.hub.chip.win.queue = [] ∧
      s.hub.chip.win.out = [] ∧ s.hub.chip.win.quarantine = [] ∧ s.hub.chip.win.releaseAt = none ∧ s.hub.chip.win.locals = []) ∧
    (∃ (s : State) (write : Bool) (a : BitVec 36) (len : Nat) (l : List Byte) (id : BitVec 16) (link : LinkReply), s.hub.chip.started =
      true ∧ s.hub.chip.headEnd = true ∧ s.hub.chip.on F.WIN_STATUS_LINK_UP = true) ∧
    (∃ (s : State) (a : BitVec 64) (len : Nat) (fwa : Nat) (r : Nat) (off : Nat) (id : BitVec 16) (link : LinkReply), s.hub.chip.started
      = true ∧ s.hub.chip.headEnd = false ∧ s.hub.chip.on F.WIN_STATUS_LINK_UP = true ∧ 0 < len ∧ s.hub.chip.inbound a.toNat len =
      some (r, off) ∧ s.hub.chip.rangeAccess r off len = some fwa ∧ s.hub.chip.rangeLocal r = false ∧ pieces fwa len = [(fwa, len,
      0)] ∧ s.hub.chip.win.queue = [] ∧ s.hub.chip.win.out = [] ∧ s.hub.chip.win.quarantine = [] ∧ s.hub.chip.win.releaseAt = none ∧
      s.hub.chip.win.locals = []) :=
  ⟨
    ⟨winSt [(F.WIN_PCI_ID_VID, 5), (F.GLB_STRAPS_ROLE_HE, 1)], 2, 2, ⟨true, true⟩, by decide +kernel⟩,
    ⟨winSt [], 0xFEE0_0010, 35, by decide +kernel⟩,
    ⟨winSt [(F.GLB_STRAPS_ROLE_HE, 1), (F.WIN_DMA2_EN 2, 1), (F.WIN_DMA4_TAIL 2, 3)] fun c => c.modWin fun w => { w with barges := [{ channel := 2, key := (5, 0, 9), reliable := true, barge := bargeData, cut := false }] },
      2, dmaDescTest, { channel := 2, key := (5, 0, 9), reliable := true, barge := bargeData, cut := false }, by decide +kernel⟩,
    ⟨winSt [(F.GLB_STRAPS_ROLE_HE, 1), (F.WIN_DMA2_EN 2, 1), (F.WIN_DMA2_DIR 2, 1), (F.WIN_DMA4_TAIL 2, 3), (F.FAB_TUN0_VALID 5, 1),
      (F.FAB_TUN0_ADAPTER 5, 4), (F.FAB_TUN0_CHANNEL 5, 2)], 2, dmaDescTest, 5, by decide +kernel⟩,
    ⟨winSt [] fun c => c.setDma 2 { opened := none, unsignalled := 300, stopping := false }, 2, false, by decide +kernel⟩,
    ⟨winSt [(F.WIN_STAGE_RING_SIZE, 4), (F.WIN_STAGE_WR_PTR, 0), (F.WIN_STAGE_RD_PTR, 0), (F.WIN_STAGE_RING_START, 0)] fun c => c.modWin
      fun w => { w with barges := [{ channel := 0x41, key := (5, 0, 9), reliable := true, barge := bargeData, cut := false }] }, { channel := 0x41, key := (5, 0, 9), reliable := true, barge := bargeData, cut := false },
      256, 0, by decide +kernel⟩,
    ⟨winSt [], stgMsg 0 [], .silent, by decide +kernel⟩,
    ⟨winSt [], stgMsg 1 [1, 2, 3, 4], .silent, by decide +kernel⟩,
    ⟨winSt [], stgMsg 2 [1, 2, 3, 4], .silent, by decide +kernel⟩,
    ⟨winSt (winRange ++ [(F.GLB_STRAPS_ROLE_HE, 1), (F.WIN_BARWIN_EN 0, 1), (F.WIN_BARWIN_RANGE 0, 3)]), 16, 4, 3 * 2 ^ 54 + 2 ^ 51 + 16,
      0, 3, 5, .silent, by decide +kernel⟩,
    ⟨winSt [(F.GLB_STRAPS_ROLE_HE, 1), (F.WIN_STATUS_LINK_UP, 1)], false, 0, 4, [], 5, .silent, by decide +kernel⟩,
    ⟨winSt (winRange ++ [(F.WIN_IB2_EN 0, 1), (F.WIN_IB2_RANGE 0, 3)]), 16, 4, 3 * 2 ^ 54 + 2 ^ 51 + 16, 3, 16, 5, .silent, by decide +kernel⟩⟩

theorem witness_CameraAndDisplay :
    (∃ (s : State) (vc : BitVec 2) (n : Fin 4), s.hub.chip.on F.VID_CTL_CSI_EN = true ∧ s.hub.chip.csiStreams vc.toNat = [n] ∧
      s.hub.chip.on (F.VID_CSI_S_STATUS_OPEN n) = false ∧ s.hub.chip.on (F.VID_CSI_S_STATUS_LOST n) = false ∧
      s.hub.chip.csiSends n ((s.hub.chip.get (F.VID_CSI_S_STATUS_FCNT n) + 1) % 65536) = true) ∧
    (∃ (s : State) (vc : BitVec 2) (h : CsiHeader), s.hub.chip.on F.VID_CTL_CSI_EN = true ∧ (h = .bad ∨ h = .vcx)) ∧
    (∃ (s : State) (vc : BitVec 2) (dt : BitVec 6) (l : List Byte) (n : Fin 4), s.hub.chip.on F.VID_CTL_CSI_EN = true ∧
      s.hub.chip.csiStreams vc.toNat = [n] ∧ s.hub.chip.get (F.VID_CSI_S_DT n) = dt.toNat ∧
      s.hub.chip.on (F.VID_CSI_S_STATUS_OPEN n) = true ∧ l.length ≤ 65520 ∧ s.hub.chip.vid.csi[n].lineBytes = some l.length ∧
      s.hub.chip.vid.csi[n].lines.length < 4095 ∧ 16 + (s.hub.chip.vid.csi[n].lines.length + 1) * l.length ≤ s.hub.chip.segMax n ∧
      s.hub.chip.csiWaiting n + 16 + (s.hub.chip.vid.csi[n].lines.length + 1) * l.length ≤ 65536) ∧
    (∃ (s : State) (vc : BitVec 2) (dt : BitVec 6) (ok : Bool) (l : List Byte) (n : Fin 4), s.hub.chip.on F.VID_CTL_CSI_EN = true ∧
      s.hub.chip.csiStreams vc.toNat = [n] ∧ s.hub.chip.get (F.VID_CSI_S_DT n) = dt.toNat ∧ 65520 < l.length) ∧
    (∃ (s : State) (vc : BitVec 2) (n : Fin 4), s.hub.chip.on F.VID_CTL_CSI_EN = true ∧ s.hub.chip.csiStreams vc.toNat = [n] ∧
      s.hub.chip.on (F.VID_CSI_S_STATUS_OPEN n) = true ∧ (s.hub.chip.tunEntry (s.hub.chip.get (F.VID_CSI_S_TUNNEL n))).valid = true ∧
      (s.hub.chip.tunEntry (s.hub.chip.get (F.VID_CSI_S_TUNNEL n))).adapter = 5 ∧
      (s.hub.chip.tunEntry (s.hub.chip.get (F.VID_CSI_S_TUNNEL n))).channel = n.val ∧ (s.hub.chip.vid.csi[n].lines.flatten.length) ≤ 992) ∧
    (∃ (s : State) (n : Fin 4), s.hub.chip.on F.VID_CTL_CSI_EN = true ∧ s.hub.chip.on (F.VID_CSI_S_EN n) = true ∧
      s.hub.chip.on (F.VID_CSI_S_STATUS_LOST n) = false ∧ s.hub.chip.on (F.VID_CSI_S_STATUS_OPEN n) = false) ∧
    (∃ (s : State) (m : Msg) (w : Nat) (first : Nat) (n : Nat) (lb : Nat), m.channel = 0x10 ∧ m.cmark = false ∧ 16 ≤ m.payload.length ∧
      w = beVal (m.payload.take 16) ∧ first = w / 2 ^ 36 % 2 ^ 16 ∧ n = w / 2 ^ 24 % 2 ^ 12 ∧ lb = w / 2 ^ 8 % 2 ^ 16 ∧
      lb = s.hub.chip.dsiLineBytes ∧ first + n ≤ s.hub.chip.get F.VID_DSI_V0_VACT ∧ m.payload.length = 16 + n * lb ∧
      s.hub.chip.vid.shown = none ∧ s.hub.chip.dsiHeld + n * lb ≤ 65536) ∧
    (∃ (s : State) (m : Msg), m.channel = 0x10 ∧ m.cmark = false ∧ m.payload.length < 16) ∧
    (∃ (s : State) (x : DsiSegment), s.hub.chip.on F.VID_CTL_DSI_EN = true ∧ s.hub.chip.vid.buf = [x] ∧ x.fs = true ∧
      s.hub.chip.vid.shown ≠ some x.key ∧ x.fcnt < 65536 ∧ s.hub.chip.dsiSlips = false) ∧
    (∃ (s : State), s.hub.chip.on F.VID_CTL_DSI_EN = true ∧ s.hub.chip.vid.buf = []) ∧
    (∃ (s : State) (y : BitVec 16) (x : DsiSegment), s.hub.chip.on F.VID_CTL_DSI_EN = true ∧ y.toNat < s.hub.chip.get F.VID_DSI_V0_VACT ∧
      s.hub.chip.on F.VID_DSI_STATUS_SHOWING = true ∧ s.hub.chip.vid.shown = some x.key ∧ s.hub.chip.vid.buf = [x] ∧
      x.firstLine ≤ y.toNat ∧ y.toNat < x.firstLine + x.lines.length) ∧
    (∃ (s : State) (y : BitVec 16), s.hub.chip.on F.VID_CTL_DSI_EN = true ∧ y.toNat < s.hub.chip.get F.VID_DSI_V0_VACT ∧
      s.hub.chip.on F.VID_DSI_STATUS_SHOWING = false) ∧
    (∃ (s : State), s.hub.chip.on F.VID_DSI_CMD_BUSY = true) :=
  ⟨
    ⟨vidSt [], 1, 2, by decide +kernel⟩,
    ⟨vidSt [], 1, .bad, by decide +kernel⟩,
    ⟨vidSt [(F.VID_CSI_S_STATUS_OPEN 2, 1)] fun c => c.modCsi 2 fun x => { x with lineBytes := some 3 }, 1, 0x2A, [1, 2, 3], 2, by decide +kernel⟩,
    ⟨vidSt [], 1, 0x2A, true, List.replicate 65521 0, 2, by decide +kernel, by rw [List.length_replicate]; decide⟩,
    ⟨vidSt [(F.VID_CSI_S_STATUS_OPEN 2, 1)], 1, 2, by decide +kernel⟩,
    ⟨vidSt [], 2, by decide +kernel⟩,
    ⟨vidSt [], segTest 1 6, beVal (segmentHeader 4 5 0 0x3E 9 1 1 6 true false false false false), 1, 1, 6, by decide +kernel⟩,
    ⟨vidSt [], { segTest 1 6 with payload := [] }, by decide +kernel⟩,
    ⟨vidSt [] fun c => c.modVid fun v => { v with buf := [dsiTest] }, dsiTest, by decide +kernel⟩,
    ⟨vidSt [], by decide +kernel⟩,
    ⟨vidSt [(F.VID_DSI_STATUS_SHOWING, 1)] fun c => c.modVid fun v => { v with buf := [dsiTest], shown := some dsiTest.key }, 1,
      dsiTest, by decide +kernel⟩,
    ⟨vidSt [], 1, by decide +kernel⟩,
    ⟨vidSt [(F.VID_DSI_CMD_BUSY, 1)], by decide +kernel⟩⟩

theorem witness_EthernetFrames :
    (∃ (s : State) (x : Fin 3) (l : List Byte) (ok : Bool), s.hub.chip.on F.ETH_CTL_EN = true ∧
      s.hub.chip.bit F.ETH_CTL_PORT_EN x.val = true ∧ (ok = false ∨ ethLength l < 64 ∨ s.hub.chip.ethMax < ethLength l)) ∧
    (∃ (s : State) (x : Fin 3) (l : List Byte), s.hub.chip.on F.ETH_CTL_EN = true ∧ s.hub.chip.bit F.ETH_CTL_PORT_EN x.val = true ∧
      64 ≤ ethLength l ∧ ethLength l ≤ s.hub.chip.ethMax ∧ macOf l / 16 = 0x0180_C200_000) ∧
    (∃ (s : State) (x : Fin 3) (l : List Byte) (v : Nat) (h : Nat), s.hub.chip.on F.ETH_CTL_EN = true ∧
      s.hub.chip.bit F.ETH_CTL_PORT_EN x.val = true ∧ 64 ≤ ethLength l ∧ ethLength l ≤ s.hub.chip.ethMax ∧
      macOf l / 16 ≠ 0x0180_C200_000 ∧ ethTagged l = true ∧ ethTci l % 4096 ≠ 0 ∧ s.hub.chip.on (F.ETH_E_CFG_ACCEPT_TAGGED x) = true ∧
      s.hub.chip.vlanOf (ethTci l % 4096) = some v ∧ s.hub.chip.member v x.val = true ∧ s.hub.chip.on F.ETH_CTL_LEARN_EN = false ∧
      groupMac (macOf l) = false ∧ s.hub.chip.learnedPlace (macOf l) v = some (true, h) ∧ s.hub.chip.on (F.ETH_PEER_VALID h) = true) ∧
    (∃ (s : State) (x : Fin 3) (l : List Byte) (v : Nat), s.hub.chip.on F.ETH_CTL_EN = true ∧
      s.hub.chip.bit F.ETH_CTL_PORT_EN x.val = true ∧ 64 ≤ ethLength l ∧ ethLength l ≤ s.hub.chip.ethMax ∧
      macOf l / 16 ≠ 0x0180_C200_000 ∧ ethTagged l = true ∧ ethTci l % 4096 ≠ 0 ∧ s.hub.chip.on (F.ETH_E_CFG_ACCEPT_TAGGED x) = true ∧
      s.hub.chip.vlanOf (ethTci l % 4096) = some v ∧ s.hub.chip.member v x.val = true ∧ s.hub.chip.on F.ETH_CTL_LEARN_EN = false ∧
      groupMac (macOf l) = true ∧ s.hub.chip.membersBut v (some x) = []) ∧
    (∃ (s : State) (m : Msg), s.hub.chip.on F.ETH_CTL_EN = true ∧ m.cmark = false ∧ ethTagged m.payload = false) ∧
    (∃ (s : State) (m : Msg) (v : Nat) (y : Fin 3), s.hub.chip.on F.ETH_CTL_EN = true ∧ m.cmark = false ∧ ethTagged m.payload = true ∧
      s.hub.chip.vlanOf (ethTci m.payload % 4096) = some v ∧ s.hub.chip.on (F.ETH_VLAN0_FABRIC v) = true ∧
      s.hub.chip.on F.ETH_CTL_LEARN_EN = false ∧ groupMac (macOf m.payload) = true ∧ s.hub.chip.membersBut v none = [y] ∧
      s.hub.chip.eth.tx[y] = [] ∧ m.payload.length ≤ 9212) ∧
    (∃ (s : State) (m : Msg) (v : Nat) (i : Nat), s.hub.chip.on F.ETH_CTL_EN = true ∧ m.cmark = false ∧ ethTagged m.payload = true ∧
      s.hub.chip.vlanOf (ethTci m.payload % 4096) = some v ∧ v < 64 ∧ s.hub.chip.on (F.ETH_VLAN0_FABRIC v) = true ∧
      s.hub.chip.on F.ETH_CTL_LEARN_EN = true ∧ groupMac (macOf m.payload) = true ∧ s.hub.chip.membersBut v none = [] ∧
      s.hub.chip.learnedAt (macOf (m.payload.drop 6)) v = some i ∧ s.hub.chip.on (F.ETH_LRN1_STATIC i) = false ∧ i < 1024) ∧
    (∃ (s : State) (x : Fin 3) (l : List Byte) (rest : List (List Byte)), s.hub.chip.eth.tx[x] = l :: rest ∧
      s.hub.chip.on F.ETH_CTL_EN = true ∧ s.hub.chip.bit F.ETH_CTL_PORT_EN x.val = true ∧
      (x ≠ 0 ∨ s.hub.chip.on F.ETH_STATUS_E0_LINK = true ∧ s.hub.chip.eth.pausedUntil ≤ s.hub.chip.now)) ∧
    (∃ (s : State) (i : BitVec 10), s.hub.chip.on (F.ETH_LRN1_VALID i.toNat) = true ∧ s.hub.chip.on (F.ETH_LRN1_STATIC i.toNat) = false ∧
      s.hub.chip.get F.ETH_LEARN_CFG_AGE ≠ 0) ∧
    (∃ (s : State) (d : BitVec 16), s.hub.chip.on F.ETH_MDIO_CMD_BUSY = true) :=
  ⟨
    ⟨ethSt [], 1, [], true, by decide +kernel⟩,
    ⟨ethSt [], 1, ethTest 0x0180_C200_0003 20, by decide +kernel⟩,
    ⟨ethSt [] fun c => c.learnWrite (4 * ethBucket 0x0400_0000_0001 2) 0x0400_0000_0001 2 true 9, 1, ethTest 0x0400_0000_0001 20, 2,
      9, by decide +kernel⟩,
    ⟨ethSt [(F.ETH_VLAN0_MEMBER 2, 2)], 1, ethTest 0xFFFF_FFFF_FFFF 20, 2, by decide +kernel⟩,
    ⟨ethSt [], { segTest 1 6 with payload := [] }, by decide +kernel⟩,
    ⟨ethSt [(F.ETH_VLAN0_MEMBER 2, 2)], { segTest 1 6 with payload := ethTest 0xFFFF_FFFF_FFFF 20 }, 2, 1, by decide +kernel⟩,
    ⟨ethSt [(F.ETH_VLAN0_MEMBER 2, 0), (F.ETH_CTL_LEARN_EN, 1)] fun c => c.learnWrite (4 * ethBucket 0x0200_0000_0077 2) 0x0200_0000_0077 2 false 1,
      { segTest 1 6 with payload := ethTest 0xFFFF_FFFF_FFFF 20 }, 2, 4 * ethBucket 0x0200_0000_0077 2, by decide +kernel⟩,
    ⟨ethSt [] fun c => c.modEth fun e => { e with tx := upd e.tx 1 fun _ => [[7], [8]] }, 1, [7], [[8]], by decide +kernel⟩,
    ⟨ethSt [(F.ETH_LRN1_VALID 5, 1), (F.ETH_LEARN_CFG_AGE, 300)], 5, by decide +kernel⟩,
    ⟨ethSt [(F.ETH_MDIO_CMD_BUSY, 1), (F.ETH_MDIO_CMD_OP, 4)], 77, by decide +kernel⟩⟩

theorem witness_FieldRecordsAndPins :
    (∃ (s : State) (m : Msg) (w : Nat) (i : Nat), s.hub.chip.on F.FLD_CTL_EN = true ∧ m.payload.length = 16 ∧ w = beVal m.payload ∧
      i = w / 2 ^ 118 % 1024 ∧ (s.hub.chip.sigValid i = false ∨ s.hub.chip.sigOut i = false)) ∧
    (∃ (s : State) (m : Msg) (w : Nat) (i : Nat), s.hub.chip.on F.FLD_CTL_EN = true ∧ m.payload.length = 16 ∧ w = beVal m.payload ∧
      i = w / 2 ^ 118 % 1024 ∧ w / 2 ^ 115 % 8 ≤ 1 ∧ s.hub.chip.sigValid i = true ∧ s.hub.chip.sigOut i = true ∧
      s.hub.chip.get (F.FLD_SIG0_SOURCE i) = 6) ∧
    (∃ (s : State) (tun : BitVec 12) (l : List (List Byte)), s.hub.chip.fld.batches = [(tun.toNat, l)]) ∧
    (∃ (s : State) (i : BitVec 10), s.hub.chip.sigValid i.toNat = true ∧ s.hub.chip.sigOut i.toNat = false ∧
      s.hub.chip.get (F.FLD_SIG6_TIMEOUT i.toNat) ≠ 0 ∧ (s.hub.chip.sig i.toNat).updated ≠ none ∧ (s.hub.chip.sig i.toNat).comm = false ∧
      s.hub.chip.get (F.FLD_SIG0_SOURCE i.toNat) ≠ 6) ∧
    (∃ (s : State) (i : BitVec 10), s.hub.chip.sigValid i.toNat = true ∧ s.hub.chip.sigOut i.toNat = true ∧
      s.hub.chip.on (F.FLD_SIG0_SUBST_EN i.toNat) = true ∧ s.hub.chip.get (F.FLD_SIG6_TIMEOUT i.toNat) ≠ 0 ∧
      (s.hub.chip.get (F.FLD_SIG0_SOURCE i.toNat) ≤ 5 → fieldFits (s.hub.chip.on (F.FLD_SIG0_MSB_FIRST i.toNat)) (s.hub.chip.sigLen i.toNat) (s.hub.chip.get (F.FLD_SIG1_START i.toNat)) (if s.hub.chip.get (F.FLD_SIG0_SOURCE i.toNat) ≤ 3 then 64 else 16) = true)) ∧
    (∃ (s : State) (p : Fin 16) (high : Bool), s.hub.chip.on F.FLD_CTL_EN = true ∧
      s.hub.chip.on (F.FLD_FIO_STATUS_LEVEL p) = (high != s.hub.chip.on (F.FLD_FIO_CFG_INVERT p))) ∧
    (∃ (s : State) (p : Fin 16) (high : Bool), s.hub.chip.on F.FLD_CTL_EN = true ∧
      s.hub.chip.on (F.FLD_FIO_STATUS_LEVEL p) ≠ (high != s.hub.chip.on (F.FLD_FIO_CFG_INVERT p)) ∧
      s.hub.chip.get (F.FLD_FIO_CFG_EDGE p) = 2) ∧
    (∃ (s : State) (p : Fin 16), s.hub.chip.on (F.FLD_FIO_STATUS_CHATTER p) = true ∧ 9 ≤ s.hub.chip.fld.calm[p] ∧
      2 * s.hub.chip.get (F.FLD_FIO_STATUS_WIN_EDGES p) < s.hub.chip.chatLimit p) ∧
    (∃ (s : State) (p : Fin 16), s.hub.chip.on (F.FLD_FIO_STATUS_CHATTER p) = false) ∧
    (∃ (s : State) (p : Fin 16), s.hub.chip.on (F.FLD_FIO_STATUS_LEVEL p) = true ∧ s.hub.chip.get (F.FLD_FIO_CFG_STUCK_S p) ≠ 0 ∧
      s.hub.chip.on (F.FLD_FIO_STATUS_STUCK p) = false) :=
  ⟨
    ⟨fldSt [], { segTest 1 6 with payload := recordBytes 4 0 1 5 0 0 }, beVal (recordBytes 4 0 1 5 0 0), 4, by decide +kernel⟩,
    ⟨fldSt [], { segTest 1 6 with payload := recordBytes 2 0 1 1 0 0 }, beVal (recordBytes 2 0 1 1 0 0), 2, by decide +kernel⟩,
    ⟨fldSt [] fun c => c.modFld fun f => { f with batches := [(5, [recordBytes 4 0 1 5 0 0])] }, 5, [recordBytes 4 0 1 5 0 0], by decide +kernel⟩,
    ⟨fldSt [] fun c => c.setSig 1 { c.sig 1 with updated := some 0 }, 1, by decide +kernel⟩,
    ⟨fldSt [], 2, by decide +kernel⟩,
    ⟨fldSt [], 3, false, by decide +kernel⟩,
    ⟨fldSt [(F.FLD_FIO_CFG_EDGE 3, 2)], 3, true, by decide +kernel⟩,
    ⟨fldSt [(F.FLD_FIO_STATUS_CHATTER 3, 1), (F.FLD_FIO_CFG_CHAT_LIMIT 3, 9)] fun c => c.modFld fun f => { f with calm := upd f.calm 3 fun _ => 9 },
      3, by decide +kernel⟩,
    ⟨fldSt [], 3, by decide +kernel⟩,
    ⟨fldSt [(F.FLD_FIO_STATUS_LEVEL 3, 1), (F.FLD_FIO_CFG_STUCK_S 3, 5)], 3, by decide +kernel⟩⟩

theorem witness_CanAndModbus :
    (∃ (s : State) (n : Fin 4) (ide : Bool) (fd : Bool) (id : BitVec 29) (l : List Byte), s.hub.chip.canOn n = true ∧
      (fd = false ∨ s.hub.chip.on (F.FLD_CAN_CTL_FD_EN n) = true)) ∧
    (∃ (s : State) (n : Fin 4) (ide : Bool) (fd : Bool) (id : BitVec 29) (l : List Byte), s.hub.chip.canOn n = true ∧
      (fd = false ∨ s.hub.chip.on (F.FLD_CAN_CTL_FD_EN n) = true) ∧ s.hub.chip.canMatch n.val ide id.toNat = none) ∧
    (∃ (s : State) (n : Fin 4) (ide : Bool) (id : BitVec 29) (l : List Byte) (k : Nat) (i : Nat), s.hub.chip.canOn n = true ∧
      s.hub.chip.canMatch n.val ide id.toNat = some k ∧ s.hub.chip.sigsOf false n.val k = [i] ∧
      fieldFits (s.hub.chip.on (F.FLD_SIG0_MSB_FIRST i)) (s.hub.chip.sigLen i) (s.hub.chip.get (F.FLD_SIG1_START i)) l.length = true) ∧
    (∃ (s : State) (n : Fin 4) (k : Nat), s.hub.chip.canOn n = true ∧ s.hub.chip.on (F.FLD_CAN_CTL_LISTEN_ONLY n) = false ∧
      s.hub.chip.fld.loaded[n] = none ∧ s.hub.chip.fld.pending = [k] ∧ s.hub.chip.get (F.FLD_FRM0_BUS k) = n.val) ∧
    (∃ (s : State) (n : Fin 4), s.hub.chip.fld.loaded[n] ≠ none) ∧
    (∃ (s : State) (n : Fin 4), s.hub.chip.bit F.FLD_STATUS_BUS_OFF n.val = false) ∧
    (∃ (s : State) (n : Fin 4), s.hub.chip.bit F.FLD_STATUS_BUS_OFF n.val = true ∧ s.hub.chip.on (F.FLD_CAN_CTL_AUTO_RECOVER n) = true) ∧
    (∃ (s : State) (n : Fin 4) (tec : Byte) (rec : Byte), s.hub.chip.canOn n = true ∧ s.hub.chip.on (F.FLD_CAN_CTL_LISTEN_ONLY n) = false) ∧
    (∃ (s : State) (u : Fin 2) (n : Nat), s.hub.chip.on F.FLD_CTL_EN = true ∧ s.hub.chip.bit F.FLD_CTL_UA_EN u.val = true ∧
      s.hub.chip.fld.uarts[u] = { queue := [n], current := none, retried := false, quiet := false } ∧ s.hub.chip.countOk n = true ∧
      s.hub.chip.get (F.FLD_POLL0_SLAVE n) ≠ 0 ∧ n < 256) ∧
    (∃ (s : State) (u : Fin 2) (n : Nat) (l : List Byte), s.hub.chip.fld.uarts[u].current = some n ∧ n < 256 ∧
      s.hub.chip.pollRead n = false ∧ s.hub.chip.fld.uarts[u].retried = false ∧ s.hub.chip.on (F.FLD_POLL2_FAILED n) = false) ∧
    (∃ (s : State) (u : Fin 2) (n : Nat) (code : Byte), s.hub.chip.fld.uarts[u].current = some n ∧ n < 256) ∧
    (∃ (s : State) (u : Fin 2), s.hub.chip.fld.uarts[u].current ≠ none) ∧
    (∃ (s : State) (u : Fin 2) (n : Nat), s.hub.chip.fld.uarts[u].current = some n ∧ s.hub.chip.on (F.FLD_UA_CFG_RETRY u) = true ∧
      s.hub.chip.fld.uarts[u].retried = false) ∧
    (∃ (s : State) (u : Fin 2) (n : Nat), s.hub.chip.fld.uarts[u].current = some n ∧ n < 256 ∧
      (s.hub.chip.on (F.FLD_UA_CFG_RETRY u) = false ∨ s.hub.chip.fld.uarts[u].retried = true)) :=
  ⟨
    ⟨fldSt [], 1, false, false, 5, [], by decide +kernel⟩,
    ⟨fldSt [], 1, false, false, 5, [], by decide +kernel⟩,
    ⟨fldSt [], 0, false, 5, [3], 3, 3, by decide +kernel⟩,
    ⟨fldSt [] fun c => c.modFld fun f => { f with pending := [9] }, 0, 9, by decide +kernel⟩,
    ⟨fldSt [] fun c => c.modFld fun f => { f with loaded := upd f.loaded 1 fun _ => some 4 }, 1, by decide +kernel⟩,
    ⟨fldSt [], 1, by decide +kernel⟩,
    ⟨fldSt [(F.FLD_STATUS_BUS_OFF, 2), (F.FLD_CAN_CTL_AUTO_RECOVER 1, 1)], 1, by decide +kernel⟩,
    ⟨fldSt [], 1, 130, 4, by decide +kernel⟩,
    ⟨fldSt [] fun c => c.modUart 1 fun x => { x with queue := [6] }, 1, 6, by decide +kernel⟩,
    ⟨fldSt [] fun c => c.modUart 1 fun x => { x with current := some 6 }, 1, 6, [], by decide +kernel⟩,
    ⟨fldSt [] fun c => c.modUart 1 fun x => { x with current := some 6 }, 1, 6, 2, by decide +kernel⟩,
    ⟨fldSt [] fun c => c.modUart 1 fun x => { x with current := some 6 }, 1, by decide +kernel⟩,
    ⟨fldSt [(F.FLD_UA_CFG_RETRY 1, 1)] fun c => c.modUart 1 fun x => { x with current := some 6 }, 1, 6, by decide +kernel⟩,
    ⟨fldSt [(F.FLD_UA_CFG_RETRY 1, 0)] fun c => c.modUart 1 fun x => { x with current := some 6 }, 1, 6, by decide +kernel⟩⟩

theorem witness_HvSupplyAndPathStart :
    (∃ (s : State), s.hub.hv.lockout = false) ∧
    (∃ (s : State), s.hub.hv.lockout = true) ∧
    (∃ (s : State), s.hub.hv.lockout = false) ∧
    (∃ (s : State), s.hub.hv.lockout = false) ∧
    (∃ (s : State) (v : BitVec 16), s.hub.hv.lockout = false ∧ v.toNat < s.hub.hv.shedVolt) ∧
    (∃ (s : State), s.hub.hv.lockout = false ∧ s.hub.hv.on F.TPW_RAIL_STATUS_FEED_LOSS = true) ∧
    (∃ (s : State) (x : HvSamples), s.hub.hv.lockout = false) ∧
    (∃ (s : State) (p : Port), s.hub.hv.lockout = false ∧ s.hub.hv.on (F.TPW_P_CFG_PROBE_EN p) = true ∧ (s.hub.hv.defaultRole p = 1 ∨
      s.hub.hv.defaultRole p = 3) ∧ s.hub.hv.fed p = true ∧ s.hub.hv.tpw[p].probeFrom ≤ s.hub.chip.now ∧ s.hub.hv.pstate p = psOpen
      ∧ s.hub.hv.tpw[p].sw.v < 2000) ∧
    (∃ (s : State) (p : Port) (r : BitVec 16) (v : BitVec 16), s.hub.hv.lockout = false ∧ s.hub.hv.pstate p = psProbe ∧ 200 ≤ v.toNat) ∧
    (∃ (s : State) (p : Port) (r : BitVec 16) (v : BitVec 16), s.hub.hv.lockout = false ∧ s.hub.hv.pstate p = psProbe ∧ v.toNat < 200 ∧
      (r.toNat < 2000 ∨ 2800 < r.toNat)) ∧
    (∃ (s : State) (p : Port) (r : BitVec 16) (v : BitVec 16), s.hub.hv.lockout = false ∧ s.hub.hv.pstate p = psProbe ∧ v.toNat < 200 ∧
      2000 ≤ r.toNat ∧ r.toNat ≤ 2800 ∧ s.hub.hv.tpw[p].sigHits ≠ 0 ∧ s.hub.hv.fed p = true ∧ maySource (s.hub.hv.defaultRole p) =
      true ∧ s.hub.hv.tpw[p].heldOpen = false) ∧
    (∃ (s : State) (p : Port), s.hub.hv.lockout = false ∧ s.hub.hv.tpw[p].probed = true ∧ s.hub.hv.on (F.TPW_P_STATUS_PG p) = true ∧
      s.hub.hv.tpw[p].heard = false) ∧
    (∃ (s : State) (p : Port), s.hub.hv.lockout = false ∧ s.hub.hv.pstate p = psOpen ∧ maySink (s.hub.hv.defaultRole p) = true ∧
      s.hub.hv.tpw[p].heldOpen = false) ∧
    (∃ (s : State) (p : Port), s.hub.hv.lockout = false ∧ s.hub.hv.pstate p = psRamp) ∧
    (∃ (s : State) (p : Port), s.hub.hv.lockout = false ∧ s.hub.hv.pstate p = psSource ∧ s.hub.hv.tpw[p].sw.deglitch = .running ∧
      s.hub.hv.on (F.TPW_P_STATUS_TIMER p) = false) ∧
    (∃ (s : State) (p : Port) (b : Bool), s.hub.hv.lockout = false ∧ s.hub.hv.portOn p = true ∧ s.hub.hv.on (F.TPW_P_STATUS_LIMITING p)
      = !b ∧ s.hub.hv.pstate p ≠ psRamp ∧ s.hub.hv.tpw[p].raising = false) :=
  ⟨
    ⟨hvSt [], by decide +kernel⟩,
    ⟨hvSt' [] fun v => { v with lockout := true }, by decide +kernel⟩,
    ⟨hvSt [], by decide +kernel⟩,
    ⟨hvSt [], by decide +kernel⟩,
    ⟨hvSt [(F.TPW_RAIL_CFG_SHED_ON_FEED_LOSS, 2), (F.LDC_L_STATUS_STATE 1, 3)], 0, by decide +kernel⟩,
    ⟨hvSt [(F.TPW_RAIL_STATUS_FEED_LOSS, 1), (F.LDC_L_STATUS_HELD_FEED 1, 1)], by decide +kernel⟩,
    ⟨hvSt [], smpTest, by decide +kernel⟩,
    ⟨hvSt [(F.TPW_P_CFG_PROBE_EN 1, 1), (F.TPW_P_CFG_DEFAULT_ROLE 1, 3), (F.TPW_RAIL_CFG_LOCAL_FEED, 1)], 1, by decide +kernel⟩,
    ⟨hvSt [(F.TPW_P_STATUS_STATE 1, 1)], 1, 2500, 300, by decide +kernel⟩,
    ⟨hvSt [(F.TPW_P_STATUS_STATE 1, 1)], 1, 2801, 199, by decide +kernel⟩,
    ⟨hvSt' [(F.TPW_P_STATUS_STATE 1, 1), (F.TPW_P_CFG_DEFAULT_ROLE 1, 3), (F.TPW_RAIL_CFG_LOCAL_FEED, 1)] fun v => v.modTpw 1 fun t =>
      { t with sigHits := 1 }, 1, 2000, 0, by decide +kernel⟩,
    ⟨hvSt' [(F.TPW_P_STATUS_STATE 1, 3), (F.TPW_P_STATUS_PG 1, 1)] fun v => v.modTpw 1 fun t => { t with probed := true }, 1, by decide +kernel⟩,
    ⟨hvSt [(F.TPW_P_CFG_DEFAULT_ROLE 1, 2)], 1, by decide +kernel⟩,
    ⟨hvSt [(F.TPW_P_STATUS_STATE 1, 2)], 1, by decide +kernel⟩,
    ⟨hvSt' [(F.TPW_P_STATUS_STATE 1, 3)] fun v => v.modSw 1 fun x => { x with deglitch := .running }, 1, by decide +kernel⟩,
    ⟨hvSt [(F.TPW_P_STATUS_STATE 1, 3)], 1, true, by decide +kernel⟩⟩

theorem witness_TrunkPathFaults :
    (∃ (s : State) (p : Port) (ma : Int), s.hub.hv.lockout = false ∧ s.hub.hv.portOn p = true ∧ s.hub.hv.on (F.TPW_P_STATUS_GUARD p) =
      false ∧ 2 * s.hub.hv.iEff p ≤ (ma.natAbs : Rat)) ∧
    (∃ (s : State) (p : Port), s.hub.hv.lockout = false ∧ s.hub.hv.portOn p = true ∧ s.hub.hv.on (F.TPW_P_STATUS_GUARD p) = false) ∧
    (∃ (s : State) (p : Port), s.hub.hv.lockout = false ∧ s.hub.hv.portOn p = true ∧ s.hub.hv.on (F.TPW_P_STATUS_GUARD p) = false ∧
      s.hub.hv.on (F.TPW_P_STATUS_TIMER p) = true) ∧
    (∃ (s : State) (p : Port), s.hub.hv.lockout = false ∧ s.hub.hv.portOn p = true ∧ s.hub.hv.on (F.TPW_P_STATUS_GUARD p) = false ∧
      s.hub.hv.on (F.TPW_P_STATUS_LIMITING p) = false) ∧
    (∃ (s : State) (p : Port), s.hub.hv.lockout = false ∧ s.hub.hv.portOn p = true ∧ s.hub.hv.on (F.TPW_P_STATUS_GUARD p) = false ∧
      s.hub.hv.on (F.TPW_P_STATUS_LIMITING p) = false ∧ s.hub.hv.tpw[p].sw.ramp = none) ∧
    (∃ (s : State) (p : Port), s.hub.hv.lockout = false ∧ s.hub.hv.pstate p = psRamp ∧ s.hub.hv.on (F.TPW_P_STATUS_GUARD p) = false) ∧
    (∃ (s : State) (p : Port), s.hub.hv.lockout = false ∧ s.hub.hv.pstate p = psFault ∧ s.hub.hv.get (F.TPW_P_STATUS_CAUSE p) = 6 ∧
      s.hub.hv.tpw[p].prevRole = 2) ∧
    (∃ (s : State) (p : Port) (d : Fin 4), s.hub.hv.lockout = false ∧ s.hub.hv.portOn p = false ∧ d ≠ 0) ∧
    (∃ (s : State) (p : Port), s.hub.hv.lockout = false ∧ s.hub.hv.tpw[p].sw.fet.temp < s.hub.hv.get (F.TPW_P_SENSE_T_RETRY p) ∧
      s.hub.hv.pstate p = psFault ∧ s.hub.hv.get (F.TPW_P_STATUS_CAUSE p) ≠ 6 ∧ s.hub.hv.get (F.TPW_P_CFG_RETRY_MAX p) ≤ 15 ∧
      s.hub.hv.get (F.TPW_P_CFG_RETRY_MAX p) ≤ s.hub.hv.get (F.TPW_P_STATUS_RETRIES p)) ∧
    (∃ (s : State) (p : Port), s.hub.hv.lockout = false ∧ s.hub.hv.tpw[p].sw.fet.temp < s.hub.hv.get (F.TPW_P_SENSE_T_RETRY p) ∧
      s.hub.hv.pstate p = psFault ∧ s.hub.hv.get (F.TPW_P_STATUS_CAUSE p) ≠ 6 ∧ s.hub.hv.get (F.TPW_P_STATUS_RETRIES p) <
      s.hub.hv.get (F.TPW_P_CFG_RETRY_MAX p) ∧ s.hub.hv.tpw[p].prevRole = 2) ∧
    (∃ (s : State) (p : Port), s.hub.hv.lockout = false ∧ s.hub.hv.portBad p = false) ∧
    (∃ (s : State) (p : Port), s.hub.hv.lockout = false ∧ s.hub.hv.pstate p = psSink) ∧
    (∃ (s : State) (p : Port) (m : BitVec 16), s.hub.hv.lockout = false ∧ s.hub.hv.pstate p = psSource ∧ s.hub.hv.on
      (F.TPW_P_CONTRACT_VALID p) = true ∧ 10 * s.hub.hv.get (F.TPW_P_CONTRACT_I p) < m.toNat) :=
  ⟨
    ⟨hvSt [(F.TPW_P_STATUS_STATE 1, 3)], 1, 1_000_000, by decide +kernel⟩,
    ⟨hvSt [(F.TPW_P_STATUS_STATE 1, 3)], 1, by decide +kernel⟩,
    ⟨hvSt [(F.TPW_P_STATUS_STATE 1, 3), (F.TPW_P_STATUS_TIMER 1, 1)], 1, by decide +kernel⟩,
    ⟨hvSt [(F.TPW_P_STATUS_STATE 1, 3)], 1, by decide +kernel⟩,
    ⟨hvSt [(F.TPW_P_STATUS_STATE 1, 3)], 1, by decide +kernel⟩,
    ⟨hvSt [(F.TPW_P_STATUS_STATE 1, 2)], 1, by decide +kernel⟩,
    ⟨hvSt' [(F.TPW_P_STATUS_STATE 1, 5), (F.TPW_P_STATUS_CAUSE 1, 6)] fun v => v.modTpw 1 fun t => { t with prevRole := 2 }, 1, by decide +kernel⟩,
    ⟨hvSt [], 1, 3, by decide +kernel⟩,
    ⟨hvSt [(F.TPW_P_STATUS_STATE 1, 5), (F.TPW_P_STATUS_CAUSE 1, 2), (F.TPW_P_SENSE_T_RETRY 1, 200), (F.TPW_P_CFG_RETRY_MAX 1, 0)], 1,
      by decide +kernel⟩,
    ⟨hvSt' [(F.TPW_P_STATUS_STATE 1, 5), (F.TPW_P_STATUS_CAUSE 1, 2), (F.TPW_P_SENSE_T_RETRY 1, 200), (F.TPW_P_CFG_RETRY_MAX 1, 3)]
      fun v => v.modTpw 1 fun t => { t with prevRole := 2 }, 1, by decide +kernel⟩,
    ⟨hvSt [(F.TPW_P_STATUS_RETRIES 1, 4)], 1, by decide +kernel⟩,
    ⟨hvSt [(F.TPW_P_STATUS_STATE 1, 4)], 1, by decide +kernel⟩,
    ⟨hvSt [(F.TPW_P_STATUS_STATE 1, 3), (F.TPW_P_CONTRACT_VALID 1, 1)], 1, 7, by decide +kernel⟩⟩

theorem witness_RoleSwaps :
    (∃ (s : State) (p : Port), s.hub.hv.lockout = false ∧ s.hub.hv.pstate p = psSource) ∧
    (∃ (s : State) (p : Port), s.hub.hv.lockout = false ∧ s.hub.chip.tpAlive p = true ∧ s.hub.hv.pstate p = psSource ∧ s.hub.hv.on
      (F.TPW_P_CFG_FRS_EN p) = true) ∧
    (∃ (s : State) (p : Port), s.hub.hv.lockout = false ∧ s.hub.chip.tpAlive p = true ∧ (s.hub.hv.pstate p ≠ psSource ∨ s.hub.hv.on
      (F.TPW_P_CFG_FRS_EN p) = false)) ∧
    (∃ (s : State) (p : Port) (w : Swap), s.hub.hv.lockout = false ∧ s.hub.chip.pwr.swap[p] = some w ∧ w.started = true ∧ w.newSource =
      true ∧ s.hub.hv.pstate p = psSink ∧ s.hub.hv.fed p = true ∧ 9 * s.hub.hv.vrail ≤ 10 * s.hub.hv.tpw[p].sw.v) ∧
    (∃ (s : State) (p : Port) (w : Swap), s.hub.hv.lockout = false ∧ s.hub.chip.pwr.swap[p] = some w ∧ w.started = true ∧ w.newSource =
      false ∧ s.hub.hv.pstate p = psSource) ∧
    (∃ (s : State) (p : Port) (w : Swap), s.hub.hv.lockout = false ∧ s.hub.chip.pwr.swap[p] = some w ∧ w.started = true ∧ w.heard = true
      ∧ portRole (s.hub.hv.pstate p) = (if w.newSource = true then 1 else 2)) ∧
    (∃ (s : State) (p : Port) (w : Swap), s.hub.hv.lockout = false ∧ s.hub.chip.pwr.swap[p] = some w ∧ w.heard = false ∧ s.hub.hv.on
      (F.TPW_P_STATUS_GUARD p) = true) ∧
    (∃ (s : State) (p : Port), s.hub.hv.lockout = false ∧ s.hub.hv.on (F.TPW_P_STATUS_GUARD p) = true) ∧
    (∃ (s : State) (p : Port), s.hub.hv.lockout = false ∧ s.hub.hv.pstate p = psRestore ∧ s.hub.hv.get (F.TPW_P_STATUS_RESTORE_ROLE p) =
      2) ∧
    (∃ (s : State) (p : Port), s.hub.hv.lockout = false ∧ s.hub.hv.frsArmed p = true) ∧
    (∃ (s : State) (p : Port) (hdr : Word) (l : List Byte), s.hub.hv.lockout = false ∧ s.hub.chip.lkRun = true ∧ s.hub.hv.defaultRole p
      ≠ 5 ∧ frameRequest s.hub.chip p 8 hdr ∧ l.length = 4) ∧
    (∃ (s : State) (p : Port) (w : Swap), s.hub.chip.pwr.swap[p] = some w ∧ w.started = true ∧ w.newSource = true ∧ s.hub.chip.running =
      true) :=
  ⟨
    ⟨hvSt [(F.TPW_P_STATUS_STATE 1, 3)], 1, by decide +kernel⟩,
    ⟨hvSt [(F.TPW_P_STATUS_STATE 1, 3), (F.TPW_P_CFG_FRS_EN 1, 1)], 1, by decide +kernel⟩,
    ⟨hvSt [], 1, by decide +kernel⟩,
    ⟨swapSt [(F.TPW_P_STATUS_STATE 1, 4)] true false false, 1, { newSource := true, started := true, late := false, heard := false },
      by decide +kernel⟩,
    ⟨swapSt [(F.TPW_P_STATUS_STATE 1, 3)] false false false, 1, { newSource := false, started := true, late := false, heard := false },
      by decide +kernel⟩,
    ⟨swapSt [(F.TPW_P_STATUS_STATE 1, 3)] true true true, 1, { newSource := true, started := true, late := true, heard := true }, by decide +kernel⟩,
    ⟨swapSt [(F.TPW_P_STATUS_STATE 1, 3), (F.TPW_P_STATUS_GUARD 1, 1)] true true false, 1, { newSource := true, started := true, late := true, heard := false },
      by decide +kernel⟩,
    ⟨hvSt [(F.TPW_P_STATUS_GUARD 1, 1)], 1, by decide +kernel⟩,
    ⟨hvSt [(F.TPW_P_STATUS_STATE 1, 7), (F.TPW_P_STATUS_RESTORE_ROLE 1, 2)], 1, by decide +kernel⟩,
    ⟨hvSt' frsRegs fun v => { v with vrail := 60000 }, 1, by decide +kernel⟩,
    ⟨hvSt [], 1, tpHeader 8 4 4 false false false, [0, 9, 0, 8], by decide +kernel⟩,
    ⟨swapSt [] true false false, 1, { newSource := true, started := true, late := false, heard := false }, by decide +kernel⟩⟩

theorem witness_PowerContracts :
    (∃ (s : State) (p : Port) (hdr : Word) (l : List Byte), s.hub.hv.lockout = false ∧ s.hub.chip.lkRun = true ∧ s.hub.hv.defaultRole p
      ≠ 5 ∧ frameRequest s.hub.chip p 2 hdr) ∧
    (∃ (s : State) (p : Port) (hdr : Word) (l : List Byte), s.hub.hv.lockout = false ∧ s.hub.chip.lkRun = true ∧ s.hub.hv.defaultRole p
      ≠ 5 ∧ frameRequest s.hub.chip p 3 hdr ∧ s.hub.requestReason p (fieldAt l 0 2) (fieldAt l 2 2) = 0) ∧
    (∃ (s : State) (p : Port) (hdr : Word) (l : List Byte), s.hub.hv.lockout = false ∧ s.hub.chip.lkRun = true ∧ s.hub.hv.defaultRole p
      ≠ 5 ∧ frameRequest s.hub.chip p 3 hdr ∧ s.hub.requestReason p (fieldAt l 0 2) (fieldAt l 2 2) ≠ 0) ∧
    (∃ (s : State) (p : Port) (hdr : Word) (l : List Byte) (r : TpRequest), s.hub.hv.lockout = false ∧ s.hub.chip.lkRun = true ∧
      s.hub.hv.defaultRole p ≠ 5 ∧ frameAnswer s.hub.chip p 4 hdr r) ∧
    (∃ (s : State) (p : Port) (hdr : Word) (l : List Byte) (r : TpRequest), frameAnswer s.hub.chip p 5 hdr r) ∧
    (∃ (s : State) (p : Port) (hdr : Word) (l : List Byte), s.hub.chip.tpAlive p = true ∧ tpClass hdr = 3 ∧ tpRsp hdr = false ∧ tpRetry
      hdr = false ∧ s.hub.chip.tp[p].mailboxFull = true) ∧
    (∃ (s : State) (p : Port) (o : PwrOffer), s.hub.hv.lockout = false ∧ s.hub.chip.lkRun = true ∧ s.hub.hv.defaultRole p ≠ 5 ∧
      s.hub.chip.pwr.sent[p] = some o ∧ o.revised = true ∧ s.hub.hv.on (F.TPW_P_CONTRACT_VALID p) = true ∧ s.hub.hv.on
      (F.TPW_P_CONTRACT_DIR p) = true) ∧
    (∃ (s : State) (p : Port) (hdr : Word) (l : List Byte), s.hub.chip.lkRun = true ∧ s.hub.hv.defaultRole p ≠ 5 ∧ frameRequest
      s.hub.chip p 6 hdr) ∧
    (∃ (s : State) (p : Port) (hdr : Word) (r : TpRequest), s.hub.hv.lockout = false ∧ frameAnswer s.hub.chip p 7 hdr r) :=
  ⟨
    ⟨hvSt [], 1, tpHeader 2 4 12 false false false, [0, 9, 0, 8, 0, 0, 0, 3, 0, 0, 0, 0], by decide +kernel⟩,
    ⟨hvSt [], 1, tpHeader 3 4 8 false false false, List.replicate 8 0, by decide +kernel⟩,
    ⟨hvSt [], 1, tpHeader 3 4 8 false false false, [1, 0, 0, 0, 0, 0, 0, 0], by decide +kernel⟩,
    ⟨askSt 3, 1, tpHeader 4 4 8 true false false, [0, 9, 0, 8, 0, 0, 0, 1], askReq 3, by decide +kernel⟩,
    ⟨askSt 3, 1, tpHeader 5 4 8 true false false, [1, 0, 0, 0, 0, 0, 0, 1], askReq 3, by decide +kernel⟩,
    ⟨tpUp [] fun c => c.modTp 1 fun t => { t with mailboxFull := true }, 1, tpHeader 3 4 8 false false false, [0, 9, 0, 8, 0, 0, 0,
      1], by decide +kernel⟩,
    ⟨offerSt [(F.TPW_P_CONTRACT_VALID 1, 1), (F.TPW_P_CONTRACT_DIR 1, 1), (F.TPW_P_CONTRACT_W 1, 90)], 1, offerTest, by decide +kernel⟩,
    ⟨hvSt [(F.TPW_P_CFG_DEFAULT_ROLE 1, 3)], 1, tpHeader 6 4 1 false false false, [0], by decide +kernel⟩,
    ⟨askSt 6, 1, tpHeader 7 4 1 true false false, askReq 6, by decide +kernel⟩⟩

theorem witness_LoadChannels :
    (∃ (s : State) (y : Chan), s.hub.hv.lockout = false ∧ s.hub.chip.slotFalls = true ∧ s.hub.slotUsed = false ∧
      s.hub.chip.bud.row.getLsbD 23 = true ∧ s.hub.chip.bud.row.getLsbD (24 + y.val) = false ∧ s.hub.hv.cstate y = csArmed ∧
      (∀ z : Chan, z ≠ y → s.hub.hv.cstate z ≠ csArmed)) ∧
    (∃ (s : State) (y : Chan), s.hub.hv.lockout = false ∧ s.hub.hv.cstate y = csRamp) ∧
    (∃ (s : State) (y : Chan), s.hub.hv.lockout = false ∧ s.hub.hv.cstate y = csRamp ∧ s.hub.hv.chanSpent y = false) ∧
    (∃ (s : State) (y : Chan), s.hub.hv.lockout = false ∧ s.hub.hv.chanOn y = true ∧ s.hub.hv.on (F.LDC_L_STATUS_TIMER y) = true ∧
      s.hub.hv.chanSpent y = false) ∧
    (∃ (s : State) (y : Chan) (ma : Int), s.hub.hv.lockout = false ∧ s.hub.hv.chanOn y = true ∧ s.hub.hv.chanSpent y = false ∧
      2 * s.hub.hv.chanEff y ≤ (ma.natAbs : Rat)) ∧
    (∃ (s : State) (y : Chan) (ma : Int), s.hub.hv.lockout = false ∧ s.hub.hv.chanOn y = true ∧ s.hub.hv.chanSpent y = true ∧
      2 * s.hub.hv.chanEff y ≤ (ma.natAbs : Rat)) ∧
    (∃ (s : State) (y : Chan), s.hub.hv.lockout = false ∧ s.hub.hv.chanOn y = true ∧ s.hub.hv.on (F.LDC_L_STATUS_LIMITING y) = false ∧
      s.hub.hv.chanSpent y = false) ∧
    (∃ (s : State) (y : Chan), s.hub.hv.lockout = false ∧ s.hub.hv.cstate y = csOn ∧ s.hub.hv.on (F.LDC_L_STATUS_LIMITING y) = false ∧
      s.hub.hv.chanSpent y = false) ∧
    (∃ (s : State) (y : Chan), s.hub.hv.lockout = false ∧ s.hub.hv.chanOn y = true ∧ s.hub.hv.on (F.LDC_L_CFG_OV_OFF y) = true) ∧
    (∃ (s : State) (y : Chan), s.hub.hv.lockout = false ∧ s.hub.hv.cstate y = csFault ∧ s.hub.hv.get (F.LDC_L_STATUS_CAUSE y) = 6) ∧
    (∃ (s : State) (y : Chan), s.hub.hv.lockout = false ∧ s.hub.hv.cstate y = csOn ∧ s.hub.hv.ldc[y].sw.deglitch = .running ∧
      s.hub.hv.on (F.LDC_L_STATUS_TIMER y) = false) ∧
    (∃ (s : State) (y : Chan), s.hub.hv.lockout = false ∧ s.hub.hv.cstate y = csOn ∧ s.hub.hv.on (F.LDC_L_STATUS_PG y) = true ∧
      s.hub.hv.on (F.LDC_L_STATUS_TIMER y) = false) ∧
    (∃ (s : State) (y : Chan), s.hub.hv.lockout = false ∧ s.hub.hv.cstate y = csFault ∧ s.hub.hv.get (F.LDC_L_STATUS_CAUSE y) ≠ 6 ∧
      s.hub.hv.ldc[y].sw.fet.temp < s.hub.hv.get (F.LDC_L_SENSE_T_RETRY y)) ∧
    (∃ (s : State) (y : Chan), s.hub.hv.lockout = false ∧ s.hub.hv.cstate y = csOn) ∧
    (∃ (s : State) (y : Chan), s.hub.hv.lockout = false ∧ s.hub.hv.chanOn y = false ∧ 8000 ≤ s.hub.hv.vrail) ∧
    (∃ (s : State) (y : Chan), s.hub.hv.lockout = false ∧ s.hub.hv.chanOn y = false ∧ 8000 ≤ s.hub.hv.vrail) ∧
    (∃ (s : State) (y : Chan) (b : Bool), s.hub.hv.lockout = false ∧ s.hub.hv.cstate y = csOn ∧
      s.hub.hv.on (F.LDC_L_STATUS_LIMITING y) = !b) :=
  ⟨
    ⟨loadSt [(F.LDC_L_STATUS_STATE 1, 1)], 1, by decide +kernel⟩,
    ⟨hvSt [(F.LDC_L_STATUS_STATE 1, 2)], 1, by decide +kernel⟩,
    ⟨hvSt [(F.LDC_L_STATUS_STATE 1, 2), (F.LDC_L_CFG_RETRY_MAX 1, 3)], 1, by decide +kernel⟩,
    ⟨hvSt [(F.LDC_L_STATUS_STATE 1, 3), (F.LDC_L_STATUS_TIMER 1, 1), (F.LDC_L_CFG_RETRY_MAX 1, 3)], 1, by decide +kernel⟩,
    ⟨hvSt [(F.LDC_L_STATUS_STATE 1, 3), (F.LDC_L_CFG_RETRY_MAX 1, 3)], 1, 60_000, by decide +kernel⟩,
    ⟨hvSt [(F.LDC_L_STATUS_STATE 1, 3), (F.LDC_L_CFG_RETRY_MAX 1, 0)], 1, 60_000, by decide +kernel⟩,
    ⟨hvSt [(F.LDC_L_STATUS_STATE 1, 3), (F.LDC_L_CFG_RETRY_MAX 1, 3)], 1, by decide +kernel⟩,
    ⟨hvSt [(F.LDC_L_STATUS_STATE 1, 3), (F.LDC_L_CFG_RETRY_MAX 1, 3)], 1, by decide +kernel⟩,
    ⟨hvSt [(F.LDC_L_STATUS_STATE 1, 3), (F.LDC_L_CFG_OV_OFF 1, 1)], 1, by decide +kernel⟩,
    ⟨hvSt [(F.LDC_L_STATUS_STATE 1, 4), (F.LDC_L_STATUS_CAUSE 1, 6)], 1, by decide +kernel⟩,
    ⟨hvSt' [(F.LDC_L_STATUS_STATE 1, 3)] fun v => v.modCsw 1 fun x => { x with deglitch := .running }, 1, by decide +kernel⟩,
    ⟨hvSt [(F.LDC_L_STATUS_STATE 1, 3), (F.LDC_L_STATUS_PG 1, 1)], 1, by decide +kernel⟩,
    ⟨hvSt [(F.LDC_L_STATUS_STATE 1, 4), (F.LDC_L_STATUS_CAUSE 1, 2), (F.LDC_L_SENSE_T_RETRY 1, 200)], 1, by decide +kernel⟩,
    ⟨hvSt [(F.LDC_L_STATUS_STATE 1, 3)], 1, by decide +kernel⟩,
    ⟨hvSt' [] fun v => { v with vrail := 8000 }, 1, by decide +kernel⟩,
    ⟨hvSt' [] fun v => { v with vrail := 8000 }, 1, by decide +kernel⟩,
    ⟨hvSt [(F.LDC_L_STATUS_STATE 1, 3)], 1, true, by decide +kernel⟩⟩

theorem witness_KeyCommandsEnd :
    (∃ (s : State), s.hub.chip.running = true ∧ s.hub.chip.key.lcCmd = some 4 ∧ s.hub.chip.key.fuses.svn < 64) ∧
    (∃ (s : State) (n : Nat), s.hub.chip.running = true ∧ s.hub.chip.key.lcCmd = some n ∧ n < 4) ∧
    (∃ (s : State) (n : Nat), s.hub.chip.running = true ∧ s.hub.chip.key.lcCmd = some n ∧ n ≤ 4) ∧
    (∃ (s : State) (r : List Byte) (f : Bool), s.hub.chip.running = true ∧ s.hub.chip.key.prov = some r ∧ fieldAt r 3 1 = 1) ∧
    (∃ (s : State), s.hub.chip.running = true ∧ s.hub.chip.on F.KEY_WM_CMD_BUSY = true ∧ s.hub.chip.on F.KEY_STATUS_TAINT = true) ∧
    (∃ (s : State), s.hub.chip.running = true ∧ s.hub.chip.on F.KEY_WM_CMD_BUSY = true ∧ s.hub.chip.on F.KEY_STATUS_TAINT = false ∧
      (s.hub.chip.on F.KEY_STATUS_MKB_VALID = false ∨ (s.hub.chip.activeSlot 3).opens engineAttest = false)) ∧
    (∃ (s : State), s.hub.chip.running = true ∧ s.hub.chip.on F.KEY_WM_CMD_BUSY = true ∧ s.hub.chip.on F.KEY_STATUS_TAINT = false ∧
      s.hub.chip.on F.KEY_STATUS_MKB_VALID = true ∧ (s.hub.chip.activeSlot 3).opens engineAttest = true) :=
  ⟨
    ⟨keySt [] fun c => c.lcStart 4, by decide +kernel⟩,
    ⟨keySt [] fun c => c.lcStart 2, 2, by decide +kernel⟩,
    ⟨keySt [] fun c => { c with key := { c.key with lcCmd := some 2 } }, 2, by decide +kernel⟩,
    ⟨keySt [] fun c => { c with key := { c.key with prov := some (0x4B :: 0x50 :: 1 :: 1 :: List.replicate 92 0) } }, 0x4B :: 0x50 :: 1 :: 1 :: List.replicate 92 0,
      true, by decide +kernel⟩,
    ⟨keySt [(F.KEY_WM_CMD_BUSY, 1), (F.KEY_STATUS_TAINT, 1)], by decide +kernel⟩,
    ⟨keySt [(F.KEY_WM_CMD_BUSY, 1)], by decide +kernel⟩,
    ⟨keySt [(F.KEY_WM_CMD_BUSY, 1), (F.KEY_STATUS_MKB_VALID, 1)] fun c => c.setSlot 6 attestSlot, by decide +kernel⟩⟩

theorem witness_LinkAdmission :
    (∃ (s : State) (p : Port), s.hub.chip.lkRun = true ∧ s.hub.chip.lkp.noAdmit = false ∧ s.hub.chip.on (F.TRK_STATUS_LINK_UP p) = true
      ∧ s.hub.chip.on (F.LNK_CTL_EN p) = true ∧ s.hub.chip.on (F.LNK_STATUS_ADMITTED p) = false ∧ s.hub.chip.isLower p = true ∧
      s.hub.chip.key.adm[p].phase = .idle ∧ s.hub.chip.on F.KEY_STATUS_TAINT = false ∧ s.hub.chip.on F.KEY_STATUS_ENTROPY_OK = true) ∧
    (∃ (s : State) (p : Port) (hdr : Word) (l : List Byte), s.hub.chip.lkRun = true ∧ s.hub.chip.lkp.noAdmit = false ∧ s.hub.chip.on
      (F.TRK_STATUS_LINK_UP p) = true ∧ s.hub.chip.on (F.LNK_CTL_EN p) = true ∧ fieldAt l 0 1 = 1 ∧ l.length = 52 ∧ frameRequest
      s.hub.chip p 0xB hdr ∧ s.hub.chip.key.adm[p].phase ≠ .backoff ∧ fieldAt l 4 8 = s.hub.chip.partnerSerial p ∧ s.hub.chip.on
      F.KEY_STATUS_TAINT = false ∧ s.hub.chip.on F.KEY_STATUS_ENTROPY_OK = true) ∧
    (∃ (s : State) (p : Port) (hdr : Word) (l : List Byte), s.hub.chip.lkRun = true ∧ s.hub.chip.lkp.noAdmit = false ∧ s.hub.chip.on
      (F.TRK_STATUS_LINK_UP p) = true ∧ s.hub.chip.on (F.LNK_CTL_EN p) = true ∧ fieldAt l 0 1 = 1 ∧ l.length = 52 ∧ frameRequest
      s.hub.chip p 0xB hdr ∧ s.hub.chip.key.adm[p].phase = .backoff) ∧
    (∃ (s : State) (p : Port) (hdr : Word) (l : List Byte) (k : Key256), s.hub.chip.lkRun = true ∧ s.hub.chip.lkp.noAdmit = false ∧
      s.hub.chip.on (F.TRK_STATUS_LINK_UP p) = true ∧ s.hub.chip.on (F.LNK_CTL_EN p) = true ∧ fieldAt l 0 1 = 2 ∧ l.length = 36 ∧
      frameRequest s.hub.chip p 0xB hdr ∧ s.hub.chip.key.adm[p].phase = .helloAnswered ∧ s.hub.chip.key.adm[p].chosen = some (k,
      false) ∧ fieldAt l 1 1 = 0) ∧
    (∃ (s : State) (p : Port) (hdr : Word) (l : List Byte) (r : TpRequest), s.hub.chip.lkRun = true ∧ s.hub.chip.lkp.noAdmit = false ∧
      s.hub.chip.on (F.TRK_STATUS_LINK_UP p) = true ∧ s.hub.chip.on (F.LNK_CTL_EN p) = true ∧ (frameRequest s.hub.chip p 0xB hdr ∨
      frameAnswer s.hub.chip p 0xB hdr r) ∧ fieldAt l 0 1 = 3 ∧ l.length = 4 ∧ s.hub.chip.key.adm[p].phase ≠ .idle ∧
      s.hub.chip.key.adm[p].phase ≠ .backoff) ∧
    (∃ (s : State) (p : Port), s.hub.chip.key.adm[p].phase ≠ .idle ∧ s.hub.chip.key.adm[p].phase ≠ .backoff) ∧
    (∃ (s : State) (p : Port), s.hub.chip.key.adm[p].phase = .backoff ∧ s.hub.chip.on (F.TRK_STATUS_LINK_UP p) = false) :=
  ⟨
    ⟨admSt [(F.TRK_PARTNER_LO 1, 5)] .idle, 1, by decide +kernel⟩,
    ⟨admSt [] .idle, 1, tpHeader 0xB 4 52 false false false, 1 :: List.replicate 51 0, by decide +kernel⟩,
    ⟨admSt [] .backoff, 1, tpHeader 0xB 4 52 false false false, 1 :: List.replicate 51 0, by decide +kernel⟩,
    ⟨admSt' [] .helloAnswered, 1, tpHeader 0xB 4 36 false false false, 2 :: List.replicate 35 0, 0, by decide +kernel⟩,
    ⟨admSt [] .helloSent, 1, tpHeader 0xB 4 4 false false false, [3, 2, 0, 0], askReq 3, by decide +kernel⟩,
    ⟨admSt [] .helloSent, 1, by decide +kernel⟩,
    ⟨admSt [(F.TRK_STATUS_LINK_UP 1, 0)] .backoff, 1, by decide +kernel⟩⟩

theorem witness_TestAccess :
    (∃ (s : State), s.hub.chip.running = true) ∧
    (∃ (s : State), s.hub.chip.running = true) ∧
    (∃ (s : State), s.hub.chip.running = true) ∧
    (∃ (s : State), s.hub.chip.get F.KEY_STATUS_LC = 0) ∧
    (∃ (s : State), (s.hub.chip.get F.KEY_STATUS_LC = 1 ∨ s.hub.chip.get F.KEY_STATUS_LC = 3 ∨ (s.hub.chip.get F.KEY_STATUS_LC = 2 ∧
      s.hub.chip.key.unlocked = true))) ∧
    (∃ (s : State), s.hub.chip.get F.KEY_STATUS_LC = 2 ∧ s.hub.chip.key.unlocked = false) ∧
    (∃ (s : State), s.hub.chip.get F.KEY_STATUS_LC = 2 ∧ s.hub.chip.on F.KEY_STATUS_ENTROPY_OK = true) ∧
    (∃ (s : State) (k : Key256), s.hub.chip.get F.KEY_STATUS_LC = 2 ∧ s.hub.chip.key.blocked = false ∧ s.hub.chip.key.challenge = none) ∧
    (∃ (s : State) (k : Key256) (n : Key256) (r : Key256), s.hub.chip.get F.KEY_STATUS_LC = 2 ∧ s.hub.chip.key.blocked = false ∧
      s.hub.chip.key.challenge = some n ∧ s.hub.chip.key.fuses.ownerRoot = some r ∧ s.hub.chip.on F.KEY_STATUS_TAINT = false ∧
      s.hub.chip.on F.KEY_STATUS_FUSE_ERR = false) :=
  ⟨
    ⟨keySt [], by decide +kernel⟩,
    ⟨keySt [], by decide +kernel⟩,
    ⟨keySt [], by decide +kernel⟩,
    ⟨keySt [], by decide +kernel⟩,
    ⟨keySt [(F.KEY_STATUS_LC, 3)], by decide +kernel⟩,
    ⟨keySt [(F.KEY_STATUS_LC, 2)], by decide +kernel⟩,
    ⟨keySt [(F.KEY_STATUS_LC, 2), (F.KEY_STATUS_ENTROPY_OK, 1)], by decide +kernel⟩,
    ⟨keySt [(F.KEY_STATUS_LC, 2)], 7, by decide +kernel⟩,
    ⟨keySt [(F.KEY_STATUS_LC, 2)] fun c => { c with key := { c.key with challenge := some 5, fuses := { c.key.fuses with ownerRoot := some 6 } } },
      7, 5, 6, by decide +kernel⟩⟩

theorem witness_AlarmsAndManagement :
    (∃ (s : State) (i : Byte), s.hub.chip.running = true ∧ s.hub.chip.on F.ALM_CFG_EN = false ∧ (s.hub.chip.alm.holds.any fun h => h.1
      == i.toNat) = true) ∧
    (∃ (s : State) (b : Barge) (rest : List Barge), s.hub.chip.running = true ∧ s.hub.chip.alm.rx = b :: rest ∧ s.hub.chip.alm.holds =
      [] ∧ s.hub.chip.headEnd = false) ∧
    (∃ (s : State) (b : Barge) (rest : List Barge), s.hub.chip.running = true ∧ s.hub.chip.alm.rx = b :: rest ∧ s.hub.chip.alm.holds =
      [] ∧ s.hub.chip.alm.log = [] ∧ s.hub.chip.headEnd = true) ∧
    (∃ (s : State) (x : P8Barge), s.hub.chip.mgmtServes = true ∧ s.hub.chip.inRecovery = false ∧ s.hub.chip.swc.p8in = [x] ∧ isMgmt
      x.barge = true ∧ mgmtKind x.barge = 0 ∧ s.hub.chip.mgmtWaits x.barge = false ∧ s.hub.chip.keptFor x.barge = none ∧
      mgmtFormatOk x.barge = true ∧ mgmtAttest x.barge = false ∧ s.hub.chip.admits (some x.barge.hdr.src) = false) ∧
    (∃ (s : State) (x : P8Barge), s.hub.chip.mgmtServes = true ∧ s.hub.chip.swc.p8in = [x] ∧ isMgmt x.barge = true ∧ mgmtKind x.barge =
      0 ∧ s.hub.chip.mgmtWaits x.barge = false ∧ s.hub.chip.keptFor x.barge = none ∧ mgmtFormatOk x.barge = true ∧ mgmtAttest
      x.barge = false ∧ mgmtProxy x.barge = 0 ∧ s.hub.chip.admits (some x.barge.hdr.src) = true ∧ x.barge.payload.length = 8 ∧
      (x.barge.payload.getD 0 0).getLsbD 7 = false) ∧
    (∃ (s : State) (x : P8Barge) (r : Proxied), s.hub.chip.mgmtServes = true ∧ s.hub.chip.swc.p8in = [x] ∧ overLctl x.barge = true ∧
      isMgmt x.barge = true ∧ mgmtKind x.barge = 1 ∧ s.hub.chip.lkp.proxied = [r] ∧ r.port = x.inPort ∧ mgmtTag r.request = mgmtTag
      x.barge) ∧
    (∃ (s : State) (r : Proxied) (rest : List Proxied), s.hub.chip.mgmtServes = true ∧ s.hub.chip.lkp.proxied = r :: rest) :=
  ⟨
    ⟨keySt [(F.ALM_CFG_EN, 0)] fun c => { c with alm := { c.alm with holds := [(4, 9), (5, 1)] } }, 4, by decide +kernel⟩,
    ⟨keySt [] fun c => { c with alm := { c.alm with rx := [bargeData] } }, bargeData, [], by decide +kernel⟩,
    ⟨keySt [(F.GLB_STRAPS_ROLE_HE, 1)] fun c => { c with alm := { c.alm with rx := [bargeData] } }, bargeData, [], by decide +kernel⟩,
    ⟨mgmtSt [], mgmtTest, by decide +kernel⟩,
    ⟨mgmtSt [(F.CFG_ADMIT_VALID 0, 1)], mgmtTest, by decide +kernel⟩,
    ⟨mgmtSt' [], proxyTest, { port := 1, request := mgmtTest.barge }, by decide +kernel⟩,
    ⟨mgmtSt' [], { port := 1, request := mgmtTest.barge }, [], by decide +kernel⟩⟩

theorem witness_AccessPath :
    (∃ (s : State) (off : BitVec 24) (v : BitVec 32), pathReady s i2cReq ∧ s.hub.chip.tunnelSnapshot i2cReq off.toNat = none ∧
      privilegedWord off.toNat = false) ∧
    (∃ (s : State) (off : BitVec 24) (v : BitVec 32), pathReady s i2cReq ∧ off.toNat / 0x1_0000 = 0x15 ∧ regAt off.toNat ≠ none) ∧
    (∃ (s : State) (off : BitVec 24) (n : Nat) (l : List Byte) (tag : BitVec 16), pathReady s (s.hub.chip.ownHost tag) ∧
      s.hub.chip.on F.WIN_STATUS_LINK_UP = true ∧ off.toNat / 0x1_0000 = 0x15 ∧ off.toNat % 4 = 0 ∧ regAt off.toNat ≠ none ∧
      l.length = 4 ∧ n = 4) ∧
    (∃ (s : State) (a : PathAccess), s.hub.chip.fab.held = some a ∧ s.hub.chip.fab.waiting = [] ∧ a.of_ = .plain ∧
      commitsEntry a.off = true ∧ a.data.length = 4 ∧ a.req.source = 0) ∧
    (∃ (s : State) (j : CommitJob) (k : Key256), s.hub.chip.running = true ∧ s.hub.chip.cfg.commit = some j ∧
      s.hub.chip.pairKey engineImage 2 = some k) ∧
    (∃ (s : State), s.hub.chip.running = true ∧ s.hub.chip.cfg.commit ≠ none) ∧
    (∃ (s : State) (a : Nat) (l : List Byte), s.hub.chip.running = true ∧ s.hub.chip.cfg.flash = some (0, a)) ∧
    (∃ (s : State) (op : Nat) (a : Nat) (l : List Byte), s.hub.chip.running = true ∧ s.hub.chip.cfg.flash = some (op, a)) ∧
    (∃ (s : State) (n : Fin 96), s.hub.chip.running = true ∧ n.val < 88 ∧ s.hub.chip.on F.CNT_CTL_FREEZE = false ∧
      (s.hub.chip.counter n.val).mode = 2 ∧ (s.hub.chip.counter n.val).value = 2 ^ 48 - 1 ∧
      (s.hub.chip.counter n.val).sel.getLsbD 27 = false) :=
  ⟨
    ⟨pathSt [(F.CFG_ADMIT_CTL_I2C0_EN, 1)], 0x150004, 0, by decide +kernel, by decide +kernel⟩,
    ⟨pathSt [(F.CFG_ADMIT_CTL_I2C0_EN, 1)], 0x150004, 3, by decide +kernel, by decide +kernel⟩,
    ⟨pathSt [(F.WIN_STATUS_LINK_UP, 1)], 0x150004, 4, [1, 0, 0, 0], 9, by decide +kernel, by decide +kernel⟩,
    ⟨pathSt' [], heldTest, by decide +kernel⟩,
    ⟨pathSt'' [] fun c => (c.setSlot 4 { Slot.empty with valid := true, active := true, engines := 0x10 }), { words := [], area := 1, seq := 2 }, 0, by decide +kernel⟩,
    ⟨pathSt'' [] fun c => c, by decide +kernel⟩,
    ⟨pathSt [] fun c => { c with cfg := { c.cfg with flash := some (0, 256) } }, 256, [1, 2, 3, 4, 5], by decide +kernel⟩,
    ⟨pathSt [] fun c => { c with cfg := { c.cfg with flash := some (0, 256) } }, 0, 256, [], by decide +kernel⟩,
    ⟨pathSt [] fun c => { c with cnt := { c.cnt with counters := [(7, { sel := 0x0400_0000, value := 2 ^ 48 - 1, snap := 0, reload := 5 })] } },
      7, by decide +kernel⟩⟩

theorem witness_TrunkWrites :
    (∃ (s : State) (r : Requester), pathReady s r ∧ (r.source = 1 → s.hub.chip.inRecovery = false)) ∧
    (∃ (s : State) (r : Requester) (k : BitVec 16), pathReady s r ∧ (r.source = 1 → s.hub.chip.inRecovery = false) ∧ k ≠ 0x9D61) ∧
    (∃ (s : State) (r : Requester), pathReady s r ∧ (r.source = 1 → s.hub.chip.inRecovery = false)) ∧
    (∃ (s : State) (r : Requester) (p : Port) (n : BitVec 3), pathReady s r ∧ (r.source = 1 → s.hub.chip.inRecovery = false) ∧
      s.hub.chip.shiftIdle p = true ∧ s.hub.chip.on (F.TRK_STATUS_LINK_UP p) = true ∧ 1 ≤ n.toNat ∧ n.toNat ≤ 5 ∧
      n.toNat ≤ s.hub.chip.stepCap p ∧ s.hub.chip.get (F.TRK_CTL_STEP_MIN p) ≤ n.toNat ∧
      (n.toNat < s.hub.chip.get (F.TRK_STATUS_STEP p) ∨ s.hub.chip.get (F.TRK_STATUS_STEP p) < n.toNat ∧ s.hub.chip.upRefused p n.toNat = none) ∧
      s.hub.chip.get (F.TRK_STATUS_STEP p) ≤ s.hub.chip.get (F.TRK_STATUS_CAP_BUDGET p)) ∧
    (∃ (s : State) (r : Requester) (p : Port), pathReady s r ∧ (r.source = 1 → s.hub.chip.inRecovery = false)) ∧
    (∃ (s : State) (r : Requester) (p : Port) (w : Word), pathReady s r ∧ (r.source = 1 → s.hub.chip.inRecovery = false) ∧
      s.hub.chip.on (F.TRK_CTL_EN p) = false ∧ s.hub.chip.on (F.TRK_CTL_TEST_MODE p) = false ∧ s.hub.chip.get (F.TRK_STATUS_STEP p) = 0 ∧
      s.hub.chip.on (F.TRK_STATUS_LINK_UP p) = false ∧ w.getLsbD 0 = false ∧ w.getLsbD 11 = false ∧ 1 ≤ wordField w 1 3 ∧
      wordField w 1 3 ≤ 5 ∧ 1 ≤ wordField w 4 3 ∧ wordField w 4 3 ≤ 5) ∧
    (∃ (s : State) (r : Requester) (p : Port), pathReady s r ∧ (r.source = 1 → s.hub.chip.inRecovery = false) ∧
      s.hub.chip.on (F.TRK_CTL_TEST_MODE p) = false) ∧
    (∃ (s : State) (r : Requester) (p : Port), pathReady s r ∧ (r.source = 1 → s.hub.chip.inRecovery = false) ∧
      s.hub.chip.on (F.TRK_CTL_EN p) = true ∧ s.hub.chip.on (F.TRK_CTL_TEST_MODE p) = false ∧
      s.hub.chip.on (F.TRK_STATUS_LINK_UP p) = false) ∧
    (∃ (s : State) (r : Requester) (p : Port) (a : Bool) (b : Bool), pathReady s r ∧ (r.source = 1 → s.hub.chip.inRecovery = false) ∧
      s.hub.chip.on (F.TRK_CTL_EN p) = false ∧ s.hub.chip.on (F.TRK_CTL_TEST_MODE p) = false) ∧
    (∃ (s : State) (r : Requester) (p : Port) (w : Word), pathReady s r ∧ (r.source = 1 → s.hub.chip.inRecovery = false) ∧
      s.hub.chip.on (F.TRK_CTL_TEST_MODE p) = true ∧ s.hub.chip.on (F.TRK_TEST_CTL_CHK_EN p) = false ∧ w.getLsbD 4 = true) ∧
    (∃ (s : State) (r : Requester) (p : Port) (w : Word), pathReady s r ∧ (r.source = 1 → s.hub.chip.inRecovery = false) ∧
      s.hub.chip.on (F.TRK_CTL_TEST_MODE p) = false) ∧
    (∃ (s : State) (r : Requester) (p : Port), pathReady s r ∧ (r.source = 1 → s.hub.chip.inRecovery = false) ∧
      s.hub.chip.on (F.LNK_CTL_EN p) = true ∧ s.hub.chip.on (F.TRK_STATUS_LINK_UP p) = true) ∧
    (∃ (s : State) (r : Requester) (p : Port), pathReady s r ∧ (r.source = 1 → s.hub.chip.inRecovery = false) ∧
      s.hub.chip.tpAlive p = true ∧ tpLen (s.hub.chip.regs.word (F.LNK_TP_TXHDR p).off) ≤ 64 ∧
      tpRsp (s.hub.chip.regs.word (F.LNK_TP_TXHDR p).off) = false) ∧
    (∃ (s : State) (r : Requester) (p : Port), pathReady s r ∧ (r.source = 1 → s.hub.chip.inRecovery = false) ∧
      s.hub.chip.tpAlive p = true) ∧
    (∃ (s : State) (r : Requester) (p : Port) (b : Bool), pathReady s r ∧ (r.source = 1 → s.hub.chip.inRecovery = false) ∧
      s.hub.chip.tpAlive p = true) ∧
    (∃ (s : State) (r : Requester) (p : Port), pathReady s r ∧ (r.source = 1 → s.hub.chip.inRecovery = false) ∧
      s.hub.chip.tpAlive p = true) ∧
    (∃ (s : State) (r : Requester) (p : Port), pathReady s r ∧ (r.source = 1 → s.hub.chip.inRecovery = false) ∧
      s.hub.chip.tpAlive p = true) :=
  ⟨
    ⟨pathSt [], lkReq, by decide +kernel⟩,
    ⟨pathSt [], lkReq, 4, by decide +kernel⟩,
    ⟨pathSt [], lkReq, by decide +kernel⟩,
    ⟨pathSt (stepRegs ++ [(F.TRK_LANE_A_STATE 1, laneActive)]) fun c => c.modTrk 1 fun t => { t with snrs := snrTest }, lkReq, 1, 2,
      by decide +kernel⟩,
    ⟨pathSt [], lkReq, 1, by decide +kernel⟩,
    ⟨pathSt [(F.TRK_CTL_EN 1, 0)], lkReq, 1, 0x14, by decide +kernel⟩,
    ⟨pathSt [], lkReq, 1, by decide +kernel⟩,
    ⟨pathSt [(F.TRK_CTL_EN 1, 1)], lkReq, 1, by decide +kernel⟩,
    ⟨pathSt [(F.TRK_CTL_EN 1, 0)], lkReq, 1, true, false, by decide +kernel, by decide +kernel⟩,
    ⟨pathSt [(F.TRK_CTL_TEST_MODE 1, 1)], lkReq, 1, 16, by decide +kernel⟩,
    ⟨pathSt [], lkReq, 1, 0x10, by decide +kernel⟩,
    ⟨pathSt [(F.LNK_CTL_EN 1, 1), (F.TRK_STATUS_LINK_UP 1, 1)], lkReq, 1, by decide +kernel, by decide +kernel⟩,
    ⟨pathSt [(F.LNK_CTL_TP_EN 1, 1)], lkReq, 1, by decide +kernel⟩,
    ⟨pathSt [(F.LNK_CTL_TP_EN 1, 1)], lkReq, 1, by decide +kernel⟩,
    ⟨pathSt [(F.LNK_CTL_TP_EN 1, 1)], lkReq, 1, true, by decide +kernel⟩,
    ⟨pathSt [(F.LNK_CTL_TP_EN 1, 1)], lkReq, 1, by decide +kernel⟩,
    ⟨pathSt [(F.LNK_CTL_TP_EN 1, 1)], lkReq, 1, by decide +kernel⟩⟩

theorem witness_TableWrites :
    (∃ (s : State) (r : Requester) (d : BitVec 10) (v : BitVec 32), pathReady s r ∧ (r.source = 1 → s.hub.chip.inRecovery = false) ∧
      s.hub.chip.tooSoon (F.FAB_ROUTE0 d.toNat).off = true) ∧
    (∃ (s : State) (r : Requester) (d : BitVec 10) (v : BitVec 32), pathReady s r ∧ (r.source = 1 → s.hub.chip.inRecovery = false) ∧
      s.hub.chip.tooSoon (F.FAB_ROUTE0 d.toNat).off = false ∧
      s.hub.chip.merged (F.FAB_ROUTE0 d.toNat).off v ≠ s.hub.chip.regs.word (F.FAB_ROUTE0 d.toNat).off) ∧
    (∃ (s : State) (r : Requester) (n : BitVec 12) (v : BitVec 32), pathReady s r ∧ (r.source = 1 → s.hub.chip.inRecovery = false) ∧
      s.hub.chip.cfg.staged = [] ∧ s.hub.chip.tooSoon (F.FAB_TUN1 n.toNat).off = false ∧
      wordField v 0 12 ≠ s.hub.chip.get (F.FAB_TUN1_PEER_TUNNEL n.toNat)) ∧
    (∃ (s : State) (r : Requester) (g : Byte) (v : BitVec 32), pathReady s r ∧ (r.source = 1 → s.hub.chip.inRecovery = false) ∧ g ≠ 255 ∧
      s.hub.chip.tooSoon (F.FAB_GROUP g.toNat).off = false ∧ wordField v 1 10 ≠ s.hub.chip.get (F.FAB_GROUP_PORTS g.toNat)) ∧
    (∃ (s : State) (r : Requester) (v : BitVec 32), pathReady s r ∧ (r.source = 1 → s.hub.chip.inRecovery = false)) ∧
    (∃ (s : State) (r : Requester) (i : Fin 10) (v : BitVec 32), pathReady s r ∧ (r.source = 1 → s.hub.chip.inRecovery = false) ∧
      s.hub.chip.reserveRefused i.val v = false) ∧
    (∃ (s : State) (r : Requester) (i : Fin 10) (v : BitVec 32), pathReady s r ∧ (r.source = 1 → s.hub.chip.inRecovery = false) ∧
      s.hub.chip.reserveRefused i.val v = true) ∧
    (∃ (s : State) (r : Requester), pathReady s r ∧ (r.source = 1 → s.hub.chip.inRecovery = false)) ∧
    (∃ (s : State) (r : Requester) (n : BitVec 9) (v : BitVec 32), pathReady s r ∧ (r.source = 1 → s.hub.chip.inRecovery = false) ∧
      s.hub.chip.cfg.staged = []) ∧
    (∃ (s : State) (r : Requester) (i : Fin 10) (n : BitVec 20), pathReady s r ∧ (r.source = 1 → s.hub.chip.inRecovery = false) ∧
      s.hub.chip.on (F.SCH_P_TAKE_CTL_ARMED i) = false ∧
      10_000 ≤ timeDiff (((s.hub.chip.put (F.SCH_P_TAKE_CTL_SUBNS i) n.toNat).takeTime i.val : Int) - s.hub.chip.fabricTime)) ∧
    (∃ (s : State) (r : Requester) (i : Fin 10) (n : BitVec 20), pathReady s r ∧ (r.source = 1 → s.hub.chip.inRecovery = false) ∧
      s.hub.chip.on (F.SCH_P_TAKE_CTL_ARMED i) = true) ∧
    (∃ (s : State) (r : Requester) (i : Fin 10) (n : BitVec 20), pathReady s r ∧ (r.source = 1 → s.hub.chip.inRecovery = false)) ∧
    (∃ (s : State) (r : Requester) (v : BitVec 32), pathReady s r ∧ (r.source = 1 → s.hub.chip.inRecovery = false)) :=
  ⟨
    ⟨pathSt [] fun c => c.modFab fun f => { f with commits := [((F.FAB_ROUTE0 3).off, c.now)] }, lkReq, 3, 1, by decide +kernel⟩,
    ⟨pathSt [], lkReq, 5, 3, by decide +kernel⟩,
    ⟨pathSt [], lkReq, 5, 3, by decide +kernel⟩,
    ⟨pathSt [], lkReq, 5, 3, by decide +kernel⟩,
    ⟨pathSt [], lkReq, 3, by decide +kernel⟩,
    ⟨pathSt [], lkReq, 5, 64, by decide +kernel⟩,
    ⟨pathSt [], lkReq, 5, 31, by decide +kernel⟩,
    ⟨pathSt [], lkReq, by decide +kernel⟩,
    ⟨pathSt [], lkReq, 5, 0x10_0040, by decide +kernel⟩,
    ⟨pathSt [(F.SCH_P_TAKE_FRAME 5, 8)], lkReq, 5, 7, by decide +kernel⟩,
    ⟨pathSt [(F.SCH_P_TAKE_CTL_ARMED 5, 1)], lkReq, 5, 7, by decide +kernel, by decide +kernel⟩,
    ⟨pathSt [(F.SCH_P_TAKE_CTL_ARMED 5, 1)], lkReq, 5, 7, by decide +kernel, by decide +kernel⟩,
    ⟨pathSt [], lkReq, 0x23, by decide +kernel⟩⟩

theorem witness_AdapterWrites :
    (∃ (s : State) (r : Requester) (i : Byte) (v : BitVec 32), pathReady s r ∧ (r.source = 1 → s.hub.chip.inRecovery = false) ∧
      s.hub.chip.headEnd = true ∧ s.hub.chip.cfg.staged = [] ∧ i.toNat < 240 ∧ s.hub.chip.mapOverfull i.toNat v = false) ∧
    (∃ (s : State) (r : Requester) (i : Byte) (v : BitVec 32), pathReady s r ∧ (r.source = 1 → s.hub.chip.inRecovery = false) ∧
      s.hub.chip.headEnd = true ∧ i.toNat < 240 ∧ s.hub.chip.mapOverfull i.toNat v = true) ∧
    (∃ (s : State) (r : Requester) (hub : BitVec 10) (sp : BitVec 2) (n : Nat), pathReady s r ∧
      (r.source = 1 → s.hub.chip.inRecovery = false) ∧ s.hub.chip.ownId = some hub.toNat ∧ sp.toNat < 2 ∧
      s.hub.chip.on F.WIN_LOCK_STATUS_L_HELD = false ∧ s.hub.chip.lockRange hub.toNat sp.toNat = some n ∧
      s.hub.chip.lockHolder sp.toNat = none) ∧
    (∃ (s : State) (r : Requester) (hub : BitVec 10) (sp : BitVec 2), pathReady s r ∧ (r.source = 1 → s.hub.chip.inRecovery = false) ∧
      2 ≤ sp.toNat ∧ s.hub.chip.on F.WIN_LOCK_STATUS_L_HELD = false ∧ s.hub.chip.on F.WIN_LOCK_STATUS_R_HELD = false ∧
      s.hub.chip.win.want = none) ∧
    (∃ (s : State) (r : Requester) (hub : BitVec 10) (sp : BitVec 2), pathReady s r ∧ (r.source = 1 → s.hub.chip.inRecovery = false) ∧
      s.hub.chip.ownId = some hub.toNat ∧ s.hub.chip.on F.WIN_LOCK_STATUS_L_HELD = true ∧
      s.hub.chip.get F.WIN_LOCK_STATUS_L_SPACE = sp.toNat ∧ s.hub.chip.on F.WIN_LOCK_STATUS_R_HELD = false ∧ s.hub.chip.win.want = none) ∧
    (∃ (s : State) (r : Requester) (hub : Nat), pathReady s r ∧ (r.source = 1 → s.hub.chip.inRecovery = false) ∧
      s.hub.chip.ownId = some hub ∧ s.hub.chip.on F.WIN_LOCK_STATUS_L_HELD = true ∧ s.hub.chip.on F.WIN_LOCK_STATUS_R_HELD = false ∧
      s.hub.chip.win.want = none) ∧
    (∃ (s : State) (r : Requester) (n : Fin 16) (v : BitVec 32), pathReady s r ∧ (r.source = 1 → s.hub.chip.inRecovery = false) ∧
      s.hub.chip.cfg.staged = []) ∧
    (∃ (s : State) (r : Requester), pathReady s r ∧ (r.source = 1 → s.hub.chip.inRecovery = false) ∧ s.hub.chip.headEnd = false) ∧
    (∃ (s : State) (r : Requester) (n : Fin 64) (v : BitVec 16), pathReady s r ∧ (r.source = 1 → s.hub.chip.inRecovery = false) ∧
      s.hub.chip.headEnd = true) ∧
    (∃ (s : State) (r : Requester) (n : Fin 64) (v : BitVec 32), pathReady s r ∧ (r.source = 1 → s.hub.chip.inRecovery = false) ∧
      s.hub.chip.headEnd = true ∧ s.hub.chip.on (F.WIN_DMA2_EN n) = false) ∧
    (∃ (s : State) (r : Requester) (n : Fin 64) (v : BitVec 32), pathReady s r ∧ (r.source = 1 → s.hub.chip.inRecovery = false) ∧
      s.hub.chip.headEnd = true ∧ s.hub.chip.on (F.WIN_DMA2_EN n) = true ∧ wordField v 2 5 ≠ s.hub.chip.get (F.WIN_DMA2_SIZE_LOG2 n)) ∧
    (∃ (s : State) (r : Requester) (v : BitVec 32), pathReady s r ∧ (r.source = 1 → s.hub.chip.inRecovery = false) ∧
      s.hub.chip.on F.VID_DSI_CMD_BUSY = false) ∧
    (∃ (s : State) (r : Requester) (v : BitVec 32), pathReady s r ∧ (r.source = 1 → s.hub.chip.inRecovery = false) ∧
      s.hub.chip.on F.VID_DSI_CMD_BUSY = true) ∧
    (∃ (s : State) (r : Requester) (i : BitVec 10) (v : BitVec 32), pathReady s r ∧ (r.source = 1 → s.hub.chip.inRecovery = false) ∧
      s.hub.chip.cfg.staged = []) ∧
    (∃ (s : State) (r : Requester) (n : Fin 64) (v : BitVec 32), pathReady s r ∧ (r.source = 1 → s.hub.chip.inRecovery = false) ∧
      s.hub.chip.cfg.staged = []) ∧
    (∃ (s : State) (r : Requester) (v : BitVec 32), pathReady s r ∧ (r.source = 1 → s.hub.chip.inRecovery = false) ∧
      s.hub.chip.on F.ETH_MDIO_CMD_BUSY = false ∧ wordField v 10 3 ≤ 4) ∧
    (∃ (s : State) (r : Requester) (i : BitVec 10) (v : BitVec 32), pathReady s r ∧ (r.source = 1 → s.hub.chip.inRecovery = false) ∧
      s.hub.chip.cfg.staged = [] ∧ s.hub.chip.on (F.FLD_SIG0_VALID i.toNat) = false ∧ v.getLsbD 0 = true ∧ v.getLsbD 1 = false) :=
  ⟨
    ⟨pathSt [(F.GLB_STRAPS_ROLE_HE, 1)], lkReq, 5, 3, by decide +kernel⟩,
    ⟨pathFull, lkReq, 200, 3, by decide +kernel⟩,
    ⟨pathSt lockRegs, lkReq, 5, 1, 9, by decide +kernel⟩,
    ⟨pathSt [], lkReq, 5, 2, by decide +kernel⟩,
    ⟨pathSt ((F.WIN_LOCK_STATUS_L_HELD, 1) :: (F.WIN_LOCK_STATUS_L_SPACE, 1) :: lockRegs), lkReq, 5, 1, by decide +kernel, by decide +kernel⟩,
    ⟨pathSt ((F.WIN_LOCK_STATUS_L_HELD, 1) :: (F.WIN_LOCK_STATUS_L_SPACE, 1) :: lockRegs), lkReq, 5, by decide +kernel, by decide +kernel⟩,
    ⟨pathSt [(F.WIN_RNG0_FAILED 3, 1)], lkReq, 3, 0x1401, by decide +kernel, by decide +kernel⟩,
    ⟨pathSt [], lkReq, by decide +kernel⟩,
    ⟨pathSt [(F.GLB_STRAPS_ROLE_HE, 1)], lkReq, 5, 3, by decide +kernel⟩,
    ⟨pathSt [(F.GLB_STRAPS_ROLE_HE, 1)], lkReq, 5, 0x15, by decide +kernel, by decide +kernel⟩,
    ⟨pathSt [(F.GLB_STRAPS_ROLE_HE, 1), (F.WIN_DMA2_EN 5, 1)], lkReq, 5, 0x15, by decide +kernel, by decide +kernel⟩,
    ⟨pathSt [], lkReq, 0x205, by decide +kernel⟩,
    ⟨pathSt [(F.VID_DSI_CMD_BUSY, 1)], lkReq, 0x205, by decide +kernel⟩,
    ⟨pathSt [], lkReq, 5, 0x40_0007, by decide +kernel⟩,
    ⟨pathSt [], lkReq, 5, 0x6007, by decide +kernel⟩,
    ⟨pathSt [], lkReq, 0x443, by decide +kernel⟩,
    ⟨pathSt [], lkReq, 5, 0x19, by decide +kernel⟩⟩

theorem witness_PowerWrites :
    (∃ (s : State) (r : Requester) (p : Port), pathReady s r ∧ (r.source = 1 → s.hub.chip.inRecovery = false) ∧ s.hub.hv.lockout = false ∧
      s.hub.hv.pstate p = psOpen ∧ s.hub.hv.tpw[p].sw.v < 2000) ∧
    (∃ (s : State) (r : Requester) (p : Port), pathReady s r ∧ (r.source = 1 → s.hub.chip.inRecovery = false) ∧ s.hub.hv.lockout = false) ∧
    (∃ (s : State) (r : Requester) (p : Port), pathReady s r ∧ (r.source = 1 → s.hub.chip.inRecovery = false) ∧ s.hub.hv.lockout = true) ∧
    (∃ (s : State) (r : Requester) (p : Port), pathReady s r ∧ (r.source = 1 → s.hub.chip.inRecovery = false) ∧ s.hub.hv.lockout = false ∧
      s.hub.hv.pstate p = psOpen ∧ s.hub.hv.fed p = true ∧ maySource (s.hub.hv.defaultRole p) = true) ∧
    (∃ (s : State) (r : Requester) (p : Port), pathReady s r ∧ (r.source = 1 → s.hub.chip.inRecovery = false) ∧ s.hub.hv.lockout = false ∧
      s.hub.hv.pstate p = psOpen ∧ maySink (s.hub.hv.defaultRole p) = true) ∧
    (∃ (s : State) (r : Requester) (p : Port), pathReady s r ∧ (r.source = 1 → s.hub.chip.inRecovery = false) ∧ s.hub.hv.lockout = false ∧
      s.hub.hv.pstate p = psLatched) ∧
    (∃ (s : State) (r : Requester) (v : BitVec 32), pathReady s r ∧ (r.source = 1 → s.hub.chip.inRecovery = false) ∧
      s.hub.hv.lockout = false ∧ wordField v 0 2 ≠ s.hub.hv.get F.TPW_RAIL_CFG_PREF_PORT) ∧
    (∃ (s : State) (r : Requester) (p : Port) (off : BitVec 24) (v : BitVec 32), pathReady s r ∧
      (r.source = 1 → s.hub.chip.inRecovery = false) ∧ s.hub.hv.lockout = false ∧ off.toNat = (F.TPW_P_LIMIT p).off) ∧
    (∃ (s : State) (r : Requester) (y : Chan), pathReady s r ∧ (r.source = 1 → s.hub.chip.inRecovery = false) ∧ s.hub.hv.lockout = false ∧
      s.hub.hv.cstate y = csOff) ∧
    (∃ (s : State) (r : Requester) (y : Chan), pathReady s r ∧ (r.source = 1 → s.hub.chip.inRecovery = false) ∧ s.hub.hv.chanBad y = true) ∧
    (∃ (s : State) (r : Requester) (y : Chan), pathReady s r ∧ (r.source = 1 → s.hub.chip.inRecovery = false) ∧ s.hub.hv.lockout = false ∧
      s.hub.hv.cstate y ≠ csLatched) ∧
    (∃ (s : State) (r : Requester) (y : Chan), pathReady s r ∧ (r.source = 1 → s.hub.chip.inRecovery = false) ∧ s.hub.hv.lockout = false ∧
      s.hub.hv.cstate y = csLatched) ∧
    (∃ (s : State) (r : Requester) (y : Chan) (off : BitVec 24) (v : BitVec 32), pathReady s r ∧
      (r.source = 1 → s.hub.chip.inRecovery = false) ∧ s.hub.hv.lockout = false ∧ off.toNat = (F.LDC_L_LIMIT y).off) :=
  ⟨
    ⟨pathSt [], lkReq, 1, by decide +kernel⟩,
    ⟨pathSt [(F.TPW_P_STATUS_STATE 1, 4)], lkReq, 1, by decide +kernel⟩,
    ⟨pathLock, lkReq, 1, by decide +kernel⟩,
    ⟨pathSt [(F.TPW_P_CFG_DEFAULT_ROLE 1, 3), (F.TPW_RAIL_CFG_LOCAL_FEED, 1)], lkReq, 1, by decide +kernel, by decide +kernel⟩,
    ⟨pathSt [(F.TPW_P_CFG_DEFAULT_ROLE 1, 3)], lkReq, 1, by decide +kernel, by decide +kernel⟩,
    ⟨pathSt [(F.TPW_P_STATUS_STATE 1, 6)], lkReq, 1, by decide +kernel⟩,
    ⟨pathSt [], lkReq, 1, by decide +kernel⟩,
    ⟨pathSt [], lkReq, 1, 0xE0184, 0x400005, by decide +kernel⟩,
    ⟨pathSt [], lkReq, 1, by decide +kernel⟩,
    ⟨pathSt [(F.LDC_L_STATUS_STATE 1, 5)], lkReq, 1, by decide +kernel⟩,
    ⟨pathSt [(F.LDC_L_STATUS_STATE 1, 3)], lkReq, 1, by decide +kernel⟩,
    ⟨pathSt [(F.LDC_L_STATUS_STATE 1, 5)], lkReq, 1, by decide +kernel⟩,
    ⟨pathSt [], lkReq, 1, 0xF0184, 0x4005, by decide +kernel⟩⟩

theorem witness_KeyAndPowerWrites :
    (∃ (s : State) (r : Requester) (n : BitVec 2), pathReady s r ∧ (r.source = 1 → s.hub.chip.inRecovery = false) ∧
      s.hub.chip.key.lcCmd = none ∧ s.hub.chip.lcPermitted n.toNat = true) ∧
    (∃ (s : State) (r : Requester) (n : BitVec 2) (k : BitVec 16), pathReady s r ∧ (r.source = 1 → s.hub.chip.inRecovery = false) ∧
      (k ≠ 0x5A3C ∨ s.hub.chip.key.lcCmd ≠ none ∨ s.hub.chip.lcPermitted n.toNat = false)) ∧
    (∃ (s : State) (r : Requester), pathReady s r ∧ (r.source = 1 → s.hub.chip.inRecovery = false) ∧ s.hub.chip.key.lcCmd = none) ∧
    (∃ (s : State) (r : Requester), pathReady s r ∧ (r.source = 1 → s.hub.chip.inRecovery = false) ∧
      s.hub.chip.on F.KEY_PROV_CMD_BUSY = false) ∧
    (∃ (s : State) (r : Requester) (b : Bool), pathReady s r ∧ (r.source = 1 → s.hub.chip.inRecovery = false) ∧
      s.hub.chip.on F.KEY_WM_CMD_BUSY = false) ∧
    (∃ (s : State) (r : Requester) (p : Port), pathReady s r ∧ (r.source = 1 → s.hub.chip.inRecovery = false) ∧
      s.hub.chip.on (F.TRK_STATUS_LINK_UP p) = true ∧ s.hub.chip.on (F.LNK_STATUS_ADMITTED p) = true ∧ s.hub.chip.isLower p = false ∧
      s.hub.chip.key.adm[p].phase ≠ .backoff) ∧
    (∃ (s : State) (r : Requester) (p : Port), pathReady s r ∧ (r.source = 1 → s.hub.chip.inRecovery = false) ∧
      s.hub.chip.on (F.LNK_EPOCH_KE_PEND p) = false ∧ s.hub.chip.on (F.LNK_STATUS_ADMITTED p) = true ∧
      s.hub.chip.get (F.LNK_EPOCH_EPOCH p) ≠ 0xFF_FFFF ∧ s.hub.chip.trk[p].own = none ∧ s.hub.chip.trk[p].resp = none) ∧
    (∃ (s : State) (r : Requester), pathReady s r ∧ (r.source = 1 → s.hub.chip.inRecovery = false) ∧
      s.hub.chip.get F.LKP_STATUS_STATE = 1 ∧ s.hub.chip.lkp.failing = none) ∧
    (∃ (s : State) (r : Requester), pathReady s r ∧ (r.source = 1 → s.hub.chip.inRecovery = false)) ∧
    (∃ (s : State) (r : Requester), pathReady s r ∧ (r.source = 1 → s.hub.chip.inRecovery = false) ∧ s.hub.chip.lkp.phase = .none ∧
      s.hub.chip.lkp.failing = none) ∧
    (∃ (s : State) (r : Requester) (v : BitVec 32), pathReady s r ∧ (r.source = 1 → s.hub.chip.inRecovery = false)) ∧
    (∃ (s : State) (r : Requester) (b : Bool), pathReady s r ∧ (r.source = 1 → s.hub.chip.inRecovery = false)) ∧
    (∃ (s : State) (r : Requester), pathReady s r ∧ (r.source = 1 → s.hub.chip.inRecovery = false)) ∧
    (∃ (s : State) (r : Requester) (k : BitVec 16), pathReady s r ∧ (r.source = 1 → s.hub.chip.inRecovery = false) ∧ k ≠ 0xC3A5) :=
  ⟨
    ⟨pathSt [], lkReq, 3, by decide +kernel⟩,
    ⟨pathSt [], lkReq, 3, 1, by decide +kernel⟩,
    ⟨pathSt [], lkReq, by decide +kernel⟩,
    ⟨pathSt [], lkReq, by decide +kernel⟩,
    ⟨pathSt [], lkReq, true, by decide +kernel⟩,
    ⟨pathSt [(F.TRK_STATUS_LINK_UP 1, 1), (F.LNK_STATUS_ADMITTED 1, 1)], lkReq, 1, by decide +kernel, by decide +kernel⟩,
    ⟨pathSt [(F.LNK_STATUS_ADMITTED 1, 1)], lkReq, 1, by decide +kernel⟩,
    ⟨pathSt [(F.LKP_STATUS_STATE, 1)], lkReq, by decide +kernel⟩,
    ⟨pathSt [], lkReq, by decide +kernel⟩,
    ⟨pathSt [], lkReq, by decide +kernel⟩,
    ⟨pathSt [], lkReq, 0x30, by decide +kernel⟩,
    ⟨pathSt [], lkReq, true, by decide +kernel⟩,
    ⟨pathSt [], lkReq, by decide +kernel⟩,
    ⟨pathSt [], lkReq, 0, by decide +kernel⟩⟩

theorem witness_ConfigurationWrites :
    (∃ (s : State) (r : Requester) (off : BitVec 24) (v : BitVec 32), pathReady s r ∧ (r.source = 1 → s.hub.chip.inRecovery = false) ∧
      off.toNat % 4 = 0 ∧ regAt off.toNat = none) ∧
    (∃ (s : State) (r : Requester) (off : BitVec 24) (v : BitVec 32), s.hub.chip.fab.held = none ∧ s.hub.chip.pathAdmits r = true ∧
      r.source = 3 ∧ s.hub.chip.get F.LKP_STATUS_STATE = 3) ∧
    (∃ (s : State) (r : Requester) (off : BitVec 24) (v : BitVec 32), s.hub.chip.fab.held = none ∧ s.hub.chip.pathAdmits r = false ∧
      r.source = 2 ∧ s.hub.chip.lockedOut 0 = false ∧ s.hub.chip.started = true) ∧
    (∃ (s : State) (r : Requester) (off : BitVec 24) (v : BitVec 32) (e : RegEntry), pathReady s r ∧ (r.source = 1 →
      s.hub.chip.inRecovery = false) ∧ off.toNat / 0x1_0000 = 0x15 ∧ regAt off.toNat = some e) ∧
    (∃ (s : State) (r : Requester) (off : BitVec 10) (v : BitVec 32), pathReady s r ∧ s.hub.chip.inRecovery = true ∧ streamedImage
      (s.hub.chip.cfg.recovery ++ beBytes 4 v.toNat) = none) ∧
    (∃ (s : State) (r : Requester), pathReady s r ∧ (r.source = 1 → s.hub.chip.inRecovery = false) ∧ s.hub.chip.commitRefused
      s.hub.changedWords = none) ∧
    (∃ (s : State) (r : Requester), pathReady s r ∧ (r.source = 1 → s.hub.chip.inRecovery = false) ∧ s.hub.chip.on F.CFG_COMMIT_BUSY =
      false ∧ s.hub.chip.pairKey engineImage 2 = none) ∧
    (∃ (s : State) (r : Requester), pathReady s r ∧ (r.source = 1 → s.hub.chip.inRecovery = false) ∧ s.hub.chip.commitRefused [] = none) ∧
    (∃ (s : State) (r : Requester), pathReady s r ∧ (r.source = 1 → s.hub.chip.inRecovery = false) ∧ s.hub.chip.on F.CFG_FL_CMD_BUSY =
      false) ∧
    (∃ (s : State) (r : Requester), pathReady s r ∧ (r.source = 1 → s.hub.chip.inRecovery = false) ∧ s.hub.chip.flashRefused 1 = none) ∧
    (∃ (s : State) (r : Requester), pathReady s r ∧ (r.source = 1 → s.hub.chip.inRecovery = false) ∧ s.hub.chip.flashRefused 2 = none) ∧
    (∃ (s : State) (r : Requester), pathReady s r ∧ (r.source = 1 → s.hub.chip.inRecovery = false) ∧ s.hub.chip.flashRefused 3 = none) ∧
    (∃ (s : State) (r : Requester) (k : Nat), pathReady s r ∧ (r.source = 1 → s.hub.chip.inRecovery = false) ∧ s.hub.chip.flashRefused 3
      = some k) ∧
    (∃ (s : State) (r : Requester) (n : Fin 96) (v : BitVec 32), pathReady s r ∧ (r.source = 1 → s.hub.chip.inRecovery = false) ∧ n.val
      < 88 ∧ s.hub.chip.on F.CNT_CTL_FREEZE = true) ∧
    (∃ (s : State) (r : Requester), pathReady s r ∧ (r.source = 1 → s.hub.chip.inRecovery = false) ∧ s.hub.chip.on F.CNT_CTL_FREEZE =
      true) ∧
    (∃ (s : State) (r : Requester) (b : Bool), pathReady s r ∧ (r.source = 1 → s.hub.chip.inRecovery = false)) ∧
    (∃ (s : State) (r : Requester) (v : BitVec 32), pathReady s r ∧ (r.source = 1 → s.hub.chip.inRecovery = false) ∧ v.getLsbD 4 = true) :=
  ⟨
    ⟨pathSt [], lkReq, 0x1FFFFC, 5, by decide +kernel⟩,
    ⟨pathSt [(F.CFG_ADMIT_CTL_I2C0_EN, 1), (F.LKP_STATUS_STATE, 3)], i2cReq, 0x150004, 5, by decide +kernel⟩,
    ⟨pathSt [], { source := 2, hub := some 9, tag := 0, attested := false }, 0x150004, 5, by decide +kernel⟩,
    ⟨pathSt [], lkReq, 0x150004, 5, (regAt 0x150004).getD ⟨0, [], 0, 0, 0, 0, 0, 0, 0, 0, 0, false⟩, by decide +kernel, by decide +kernel⟩,
    ⟨pathSt [(F.CFG_STATUS_STATE, 5)], lkReq, 4, 0x434B4846, by decide +kernel, by decide +kernel⟩,
    ⟨pathSt'' [] fun c => { (c.setSlot 4 { Slot.empty with valid := true, active := true, engines := 0x10 }) with cfg := { c.cfg with commit := none } },
      lkReq, by decide +kernel⟩,
    ⟨pathSt [], lkReq, by decide +kernel⟩,
    ⟨pathSt'' [] fun c => { (c.setSlot 4 { Slot.empty with valid := true, active := true, engines := 0x10 }) with cfg := { c.cfg with commit := none } },
      lkReq, by decide +kernel⟩,
    ⟨pathSt [], lkReq, by decide +kernel⟩,
    ⟨pathSt [(F.CFG_FL_ADDR_ADDR, 0x400000)], lkReq, by decide +kernel⟩,
    ⟨pathSt [(F.CFG_FL_ADDR_ADDR, 0x400000)], lkReq, by decide +kernel⟩,
    ⟨pathSt [(F.CFG_FL_ADDR_ADDR, 0x400000)], lkReq, by decide +kernel⟩,
    ⟨pathSt [], lkReq, 1, by decide +kernel⟩,
    ⟨pathSt [(F.CNT_CTL_FREEZE, 1)], lkReq, 5, 9, by decide +kernel⟩,
    ⟨pathSt [(F.CNT_CTL_FREEZE, 1)], lkReq, by decide +kernel⟩,
    ⟨pathSt [], lkReq, true, by decide +kernel⟩,
    ⟨pathSt [(F.GLB_FAULT_STATUS_CRIT_ALARM, 1)], lkReq, 0x30, by decide +kernel, by decide +kernel⟩⟩

/-! The same for the step, the invariants, the encodings and the clauses about no command. -/

theorem witness_StepRunsFrontCommand :
    ∃ (s : State) (i : Instr) (rest : List Instr), s.pending = i :: rest :=
    ⟨{ State.reset with pending := [.por true] }, .por true, [], rfl⟩

theorem witness_EmptyQueueIdles : ∃ s : State, s.pending = [] ∧ s.hub.chip.running = true ∧ s.hub.chip.subns + 8 < 1_000_000 :=
  ⟨runs [], by decide +kernel⟩

theorem witness_EveryStepGoesOn : ∃ s t : State, step s = .next t := ⟨State.reset, _, rfl⟩

theorem witness_StoresStayCanonical : ∃ s t : State, canonical s ∧ step s = .next t :=
  ⟨State.reset, _, by decide +kernel, rfl⟩

theorem witness_LockoutKeepsEverySwitchOpen : ∃ s t : State, s.hub.hv.lockout = true ∧ switchesOpenInLockout s ∧ step s = .next t :=
  ⟨{ State.reset with hub := { State.reset.hub with hv := { Hv.reset with lockout := true } } }, _, rfl,
    fun _ => by decide +kernel, rfl⟩

theorem witness_FusesOnlyGrow : ∃ s t : State, s.hub.chip.key.fuses.svn = 9 ∧ step s = .next t :=
  ⟨runs [] fun c => { c with key := { c.key with fuses := { c.key.fuses with svn := 9 } } }, _, rfl, rfl⟩

theorem witness_GlbIdAlwaysReads : ∃ s t : State, identified s ∧ step s = .next t :=
  ⟨State.reset, _, by unfold identified; decide +kernel, rfl⟩

theorem witness_BargeWordsRoundTrip_1 : ∃ w : DpWord, w.extractLsb' 32 12 = 0#12 ∧ w ≠ 0#128 := ⟨1#128, by decide, by decide⟩

theorem witness_BargeWordsRoundTrip_2 : ∃ b : Barge, b.wellFormed = true := ⟨bargeData, by decide⟩

theorem witness_ControlBlocksRoundTrip : ∃ op lane span blk : Nat, op < 2 ^ 8 ∧ lane < 2 ∧ span < 2 ^ 32 ∧ blk < 2 ^ 12 :=
  ⟨255, 1, 2 ^ 32 - 1, 4095, by decide, by decide, by decide, by decide⟩

theorem witness_LineCodingRoundTrip : ∃ l : List Nat, l ≠ [] ∧ ∀ g ∈ l, g < 4 := ⟨[0, 3, 2], by decide, by decide⟩

theorem witness_MinSvnOnlyRises_older : ∃ (c : Chip) (i : ImageFile), imgSvn i < c.get F.KEY_STATUS_MIN_SVN :=
  ⟨{ runChip with regs := putAll [(F.KEY_STATUS_MIN_SVN, 9)] [] }, imageTest, by decide +kernel⟩

theorem witness_GroupOfRouteNotices_none : ∃ s : State, s.hub.chip.get F.FAB_RING_RING_SIZE = 0 := ⟨runs [], by decide +kernel⟩

theorem witness_GroupOfRouteNotices_ring : ∃ s : State, 3 ≤ s.hub.chip.get F.FAB_RING_RING_SIZE ∧ s.hub.chip.get F.FAB_RING_RING_SIZE ≤ 64 ∧
    s.hub.chip.get F.FAB_RING_RING_POS < s.hub.chip.get F.FAB_RING_RING_SIZE :=
  ⟨runs [(F.FAB_RING_RING_SIZE, 64), (F.FAB_RING_RING_POS, 63)], by decide +kernel⟩

/-! Well-formedness: for each check a command that it refuses. -/

theorem test_wf_barge_length : (Instr.trunkIngressLookup 0 (some { bargeData with payload := [] })).wellFormed = false := by decide
theorem test_wf_barge_too_long :
    Barge.wellFormed { hdr := { dataHeader with len := 1009 }, payload := List.replicate 1009 0 } = false := by decide +kernel
theorem test_wf_offer : (Instr.adapterIngressLookup 3 (some {
    tunnel := 5, colour := 0, first := true, last := true, tspec := 0, payload := List.replicate 1009 0, flood := none })).wellFormed = false := by decide +kernel
theorem test_wf_towpath_length : (Instr.helloRx 0 (tpHeader 0 1 5 false false false) []).wellFormed = false := by decide
theorem test_wf_towpath_too_long :
    (Instr.helloRx 0 (tpHeader 0 1 65 false false false) (List.replicate 65 0)).wellFormed = false := by decide +kernel
theorem test_wf_image_header : (Instr.lkFirmwareLoaded { header := [1], body := [] }).wellFormed = false := by decide
theorem test_wf_access_empty : (Instr.hostBarAccess .bar0 false 0 0 [] 0 .silent).wellFormed = false := by decide
theorem test_wf_access_data : (Instr.driveInboundAccess true 0 4 [1] 0 .silent).wellFormed = false := by decide
theorem test_wf_can_data : (Instr.canFrameRx 0 false true false 5 (List.replicate 65 0)).wellFormed = false := by decide +kernel

/-! Small tests: what the spec's tables give, worked out by hand. -/

/-- 02 Table 02-1: the Gray code of the four bit pairs, and R31's levels. -/
theorem test_gray : [(false, false), (false, true), (true, true), (true, false)].map (fun b => lineLevel (grayIndex b)) = [-3, -1, 1, 3] := by
  decide

/-- 02 R32: the first symbol less the last transmitted one, modulo 4. -/
theorem test_precode : precode 3 [0, 2, 1] = [1, 1, 0] := by decide

/-- 03 Table 03-1: a header with DST 5, SRC 9 and TYPE 2 is 5 · 2^118 + 9 · 2^108 + 2 · 2^50. -/
theorem test_header_word : ({ dataHeader with dst := 5, src := 9, tunnel := 0, type := 2, hops := 0, len := 0, first := false, last := false } :
    Header).encode = BitVec.ofNat 128 (5 * 2 ^ 118 + 9 * 2 ^ 108 + 2 * 2 ^ 50) := by decide +kernel

/-- 03 R81: a barge of 17 payload bytes has three words. -/
theorem test_barge_words : bargeWords 17 = 3 := by decide

/-- 03 Table 03-7: class 9, SEQ 4, LEN 0, no flag. -/
theorem test_towpath_header : tpHeader 9 4 0 false false false = 0x19040000#32 := by decide

/-- 13 R396: F1 F2 F3 none, F1, F1 and F2, all: BLANK, PROVISIONED, DEPLOYED, RETURNED. -/
theorem test_life_cycle : [0#3, 1#3, 3#3, 7#3].map lifeCycle = [0, 1, 2, 3] := by decide

/-- 04 R162: hub 2 without a selected slot has slot 2 · 37 mod 64 = 10. -/
theorem test_inrush_slot : (runs [(F.FAB_ID_HUB_ID, 2), (F.FAB_INRUSH_SLOT_SEL, 0)]).hub.chip.inrushSlot = 10 := by decide +kernel

/-- 06 R212: 50 W drawn of 200 W are 25 %; no feed and a draw are 127. -/
theorem test_util : utilOf 50_000_000 200 = 25 ∧ utilOf 1 0 = 127 := by decide

/-- 16 R485: a reserved offset reads 0. -/
theorem test_reserved_reads_zero : (runs []).hub.readWord 0x00_0FFC = 0#32 := by decide +kernel

/-- 14 R431: a write to a staging word whose data is lost clears the poison, also in the remap entry that serves it. -/
theorem test_stage_write_clears_poison :
    let s := winSt [] fun c => (c.remap (scrubLoc 100) true false).stageLost 0 (scrubLoc 100)
    (match exec (.bridgeWrPRx (some (stgMsg 1 [1, 2, 3, 4])) .silent) s with
      | .next t => poisonEntries [0] s == [0] && s.hub.chip.get (F.REL_REMAP_STAT_POISONED 0) == 1 &&
          t.hub.chip.get (F.REL_REMAP_STAT 0) == 1 && t.hub.chip.win.poisoned.isEmpty
      | _ => false) = true := by decide +kernel

/-- A command runs as the first step: POR during a POR changes nothing but the queue. -/
theorem test_step_takes_the_front : (match step { State.reset with pending := [.clockRestored, .lkUngate] } with
    | .next t => t.pending | _ => []) = [.lkUngate] := by decide +kernel

end Sys2Proof.Tests
end

section
/-! What every step keeps of the stores (00 R5; 08 R262): the state operations, one rule each. -/

namespace Sys2Proof.Machine

/-! Canonical register files. -/

theorem wf_foldl_setWord {r : RegFile} (l : List Nat) (g : Nat → Word) (h : r.wf = true) :
    RegFile.wf (l.foldl (fun r off => r.setWord off (g off)) r) = true :=
  List.foldlRecOn l _ (motive := fun r => RegFile.wf r = true) h fun _ hr _ _ => wf_setWord _ _ hr

/-- Words taken to new values offset by offset, those at their reset value dropped, stay in canonical form. -/
theorem okFrom_rewrite {lo : Nat} {r : RegFile} (g : Nat × Word → Word) (h : RegFile.okFrom lo r = true) :
    RegFile.okFrom lo (r.filterMap fun x => if g x = resetWord x.1 then none else some (x.1, g x)) = true := by
  induction r generalizing lo with
  | nil => rfl
  | cons x r ih =>
    obtain ⟨k, u⟩ := x
    simp only [RegFile.okFrom, Bool.and_eq_true, decide_eq_true_eq] at h
    obtain ⟨⟨hlo, -⟩, hr⟩ := h
    by_cases hg : g (k, u) = resetWord k
    · rw [List.filterMap_cons_none (by simp [hg])]
      exact okFrom_mono (by omega) (ih hr)
    · rw [List.filterMap_cons_some (by rw [if_neg hg])]
      simp only [RegFile.okFrom, Bool.and_eq_true, decide_eq_true_eq]
      exact ⟨⟨hlo, hg⟩, ih hr⟩

theorem wf_afterReset {r : RegFile} (k : ResetKind) (b : Bool) (h : r.wf = true) : (r.afterReset k b).wf = true :=
  okFrom_rewrite (fun x => (x.2 &&& keptBits k b x.1) ||| (resetWord x.1 &&& ~~~keptBits k b x.1)) h

theorem wf_afterRamp {r : RegFile} (h : r.wf = true) : r.afterRamp.wf = true := okFrom_rewrite _ h

theorem wf_dropWords {r : RegFile} (p : Nat → Bool) (h : r.wf = true) : (r.dropWords p).wf = true := wf_filter _ h

theorem wf_store {r : RegFile} (off : Nat) (x : Word) (h : r.wf = true) : (r.store off x).wf = true := by
  unfold RegFile.store
  split
  exacts [wf_setWord _ _ h, h]

/-! The invariant, of each die and of both. -/

/-- The stores of the core die are in their canonical form: its register file and the staging memory. -/
structure Chip.StoresWf (c : Chip) : Prop where
  regsWf : c.regs.wf = true
  stageWf : memWf c.win.stage = true

/-- The register file of the HV die is in its canonical form. -/
structure Hv.StoresWf (v : Hv) : Prop where
  regsWf : v.regs.wf = true

/-- The stores of both dies are in their canonical form. -/
structure Hub.StoresWf (h : Hub) : Prop where
  chip : h.chip.StoresWf
  hv : h.hv.StoresWf

/-- A command completes from a state: it answers a next state that differs in the block alone, whose stores are canonical where they
were. -/
def Completes (s : State) (o : Host.Outcome State Fault Refusal) : Prop :=
  ∃ h : Hub, o = .next { s with hub := h } ∧ (s.hub.StoresWf → h.StoresWf)

section
variable {c : Chip} {h : Hub} {v : Hv} {s : State}

/-! Changes outside the stores. -/

theorem Chip.StoresWf.frame {d : Chip} (hc : c.StoresWf) (hd : (d.regs, d.win.stage) = (c.regs, c.win.stage)) : d.StoresWf := by
  obtain ⟨hr, hs⟩ := Prod.mk.inj hd
  exact ⟨hr ▸ hc.regsWf, hs ▸ hc.stageWf⟩

theorem Hv.StoresWf.frame {w : Hv} (hv : v.StoresWf) (hw : w.regs = v.regs) : w.StoresWf := ⟨hw ▸ hv.regsWf⟩

theorem Hub.StoresWf.withChip {d : Chip} (hh : h.StoresWf) (hd : d.StoresWf) : ({ h with chip := d } : Hub).StoresWf := ⟨hd, hh.hv⟩

theorem Chip.StoresWf.modWin {f} (hc : c.StoresWf) (hf : (f c.win).stage = c.win.stage) : (c.modWin f).StoresWf :=
  ⟨hc.regsWf, hf ▸ hc.stageWf⟩

/-! Changes to the stores. -/

theorem Chip.StoresWf.modStage {f} (hc : c.StoresWf) (hf : memWf (f c.win).stage = true) : (c.modWin f).StoresWf := ⟨hc.regsWf, hf⟩

theorem Chip.StoresWf.put {f x} (hc : c.StoresWf) : (c.put f x).StoresWf := ⟨wf_put _ _ hc.regsWf, hc.stageWf⟩

theorem Hv.StoresWf.put {f x} (hv : v.StoresWf) : (v.put f x).StoresWf := ⟨wf_put _ _ hv.regsWf⟩

theorem Chip.StoresWf.setWord {off x} (hc : c.StoresWf) : ({ c with regs := c.regs.setWord off x } : Chip).StoresWf :=
  ⟨wf_setWord _ _ hc.regsWf, hc.stageWf⟩

theorem Chip.StoresWf.dropWords {p} (hc : c.StoresWf) : ({ c with regs := c.regs.dropWords p } : Chip).StoresWf :=
  ⟨wf_dropWords _ hc.regsWf, hc.stageWf⟩

theorem Hv.StoresWf.dropWords {p} (hv : v.StoresWf) : ({ v with regs := v.regs.dropWords p } : Hv).StoresWf :=
  ⟨wf_dropWords _ hv.regsWf⟩

/-! Control: a result taken out of a pair, a condition, a choice, a list of operands. -/

theorem Chip.StoresWf.of_eq {α : Type} {p : α × Chip} {a d} (hp : p.2.StoresWf) (e : p = (a, d)) : d.StoresWf := by
  subst e; exact hp

theorem Hub.StoresWf.of_eq {α : Type} {p : α × Hub} {a g} (hp : p.2.StoresWf) (e : p = (a, g)) : g.StoresWf := by
  subst e; exact hp

theorem Chip.StoresWf.when {b f} (hc : c.StoresWf) (hf : ∀ {c : Chip}, c.StoresWf → (f c).StoresWf) : (c.when b f).StoresWf := by
  cases b
  exacts [hc, hf hc]

theorem Hub.StoresWf.when {b f} (hh : h.StoresWf) (hf : ∀ {h : Hub}, h.StoresWf → (f h).StoresWf) : (h.when b f).StoresWf := by
  cases b
  exacts [hh, hf hh]

theorem Hv.StoresWf.when {b f} (hv : v.StoresWf) (hf : ∀ {v : Hv}, v.StoresWf → (f v).StoresWf) : (v.when b f).StoresWf := by
  cases b
  exacts [hv, hf hv]

theorem Chip.StoresWf.ite {p : Prop} [Decidable p] {d : Chip} (hc : c.StoresWf) (hd : d.StoresWf) : (if p then c else d).StoresWf := by
  split
  exacts [hc, hd]

theorem Hub.StoresWf.ite {p : Prop} [Decidable p] {g : Hub} (hh : h.StoresWf) (hg : g.StoresWf) : (if p then h else g).StoresWf := by
  split
  exacts [hh, hg]

theorem Hv.StoresWf.ite {p : Prop} [Decidable p] {w : Hv} (hv : v.StoresWf) (hw : w.StoresWf) : (if p then v else w).StoresWf := by
  split
  exacts [hv, hw]

theorem Chip.StoresWf.foldl {α : Type} {l : List α} {f : Chip → α → Chip} (hc : c.StoresWf)
    (hf : ∀ {c : Chip} {a}, c.StoresWf → (f c a).StoresWf) : (l.foldl f c).StoresWf :=
  List.foldlRecOn l f (motive := Chip.StoresWf) hc fun _ hc _ _ => hf hc

theorem Hub.StoresWf.foldl {α : Type} {l : List α} {f : Hub → α → Hub} (hh : h.StoresWf)
    (hf : ∀ {h : Hub} {a}, h.StoresWf → (f h a).StoresWf) : (l.foldl f h).StoresWf :=
  List.foldlRecOn l f (motive := Hub.StoresWf) hh fun _ hg _ _ => hf hg

theorem Hv.StoresWf.foldl {α : Type} {l : List α} {f : Hv → α → Hv} (hv : v.StoresWf)
    (hf : ∀ {v : Hv} {a}, v.StoresWf → (f v a).StoresWf) : (l.foldl f v).StoresWf :=
  List.foldlRecOn l f (motive := Hv.StoresWf) hv fun _ hv _ _ => hf hv

theorem Chip.StoresWf.snd_ite {α : Type} {p : Prop} [Decidable p] {x y : α × Chip} (hx : x.2.StoresWf) (hy : y.2.StoresWf) :
    (if p then x else y).2.StoresWf := by
  split
  exacts [hx, hy]

theorem Hub.StoresWf.foldl_snd {α β : Type} {l : List α} {f : β × Hub → α → β × Hub} {x : β × Hub} (hx : x.2.StoresWf)
    (hf : ∀ {x : β × Hub} {a}, x.2.StoresWf → (f x a).2.StoresWf) : (l.foldl f x).2.StoresWf :=
  List.foldlRecOn l f (motive := fun x => x.2.StoresWf) hx fun _ hx _ _ => hf hx

theorem Chip.StoresWf.each {α : Type} {l : List α} {f : α → Chip → Chip} (hc : c.StoresWf)
    (hf : ∀ {a} {c : Chip}, c.StoresWf → (f a c).StoresWf) : (c.each l f).StoresWf := hc.foldl hf

theorem Hub.StoresWf.each {α : Type} {l : List α} {f : α → Hub → Hub} (hh : h.StoresWf)
    (hf : ∀ {a} {h : Hub}, h.StoresWf → (f a h).StoresWf) : (h.each l f).StoresWf := hh.foldl hf

theorem Hub.StoresWf.settled {g : Hub} (hg : g.StoresWf) : (h.settled g).StoresWf :=
  ⟨settled_wf hg.chip.regsWf, by rw [settled_win]; exact hg.chip.stageWf⟩

/-! Commands. -/

theorem Completes.onChip {f} (hf : ∀ {c : Chip}, c.StoresWf → (f c).StoresWf) : Completes s (s.onChip f) :=
  ⟨_, rfl, fun hs => ⟨Hub.StoresWf.settled (g := { s.hub with chip := f s.hub.chip }) ⟨hf hs.chip, hs.hv⟩, hs.hv⟩⟩

theorem Completes.onHub {f} (hf : ∀ {h : Hub}, h.StoresWf → (f h).StoresWf) : Completes s (s.onHub f) :=
  ⟨_, rfl, fun hs => ⟨(hf hs).settled, ⟨(hf hs).hv.regsWf⟩⟩⟩

end
end Sys2Proof.Machine
end

section
/-! What every step keeps of the stores: Basics, Votes, Ops, RelOps, Basin, SchOps. -/

namespace Sys2Proof.Machine

variable {c : Chip} {h : Hub} {v : Hv} {s : State}

/-! `Basics`: Registers and fields of both dies, the outbox, free values, times and what the core's states mean. -/

theorem Chip.StoresWf.putBit {f n b} (hc : c.StoresWf) : (c.putBit f n b).StoresWf := hc.put

theorem Chip.StoresWf.flag {f} (hc : c.StoresWf) : (c.flag f).StoresWf := hc.put.frame (by rfl)

theorem Chip.StoresWf.keyCount {n} (hc : c.StoresWf) : (c.keyCount n).StoresWf := hc.frame (by rfl)

theorem Chip.StoresWf.inc {f} (hc : c.StoresWf) : (c.inc f).StoresWf := hc.put

theorem Chip.StoresWf.add {f n} (hc : c.StoresWf) : (c.add f n).StoresWf := hc.put

theorem Chip.StoresWf.incSat {f} (hc : c.StoresWf) : (c.incSat f).StoresWf := hc.put

theorem Chip.StoresWf.stage {off w} (hc : c.StoresWf) : (c.stage off w).StoresWf := hc.frame (by rfl)

theorem Chip.StoresWf.commitStaged {offs} (hc : c.StoresWf) : (c.commitStaged offs).StoresWf := ⟨wf_foldl_setWord _ _ hc.regsWf, hc.stageWf⟩

theorem Chip.StoresWf.putS {f x} (hc : c.StoresWf) : (c.putS f x).StoresWf := hc.put

theorem Hub.StoresWf.onChip {f} (hh : h.StoresWf) (hf : ∀ {c : Chip}, c.StoresWf → (f c).StoresWf) : (h.onChip f).StoresWf :=
  ⟨hf hh.chip, hh.hv⟩

theorem Hv.StoresWf.putBit {f n b} (hv : v.StoresWf) : (v.putBit f n b).StoresWf := hv.put

theorem Hv.StoresWf.flag {f} (hv : v.StoresWf) : (v.flag f).StoresWf := hv.put.frame (by rfl)

theorem Hv.StoresWf.inc {f} (hv : v.StoresWf) : (v.inc f).StoresWf := hv.put

theorem Hub.StoresWf.onHv {f} (hh : h.StoresWf) (hf : ∀ {v : Hv}, v.StoresWf → (f v).StoresWf) : (h.onHv f).StoresWf := ⟨hh.chip, hf hh.hv⟩

theorem Chip.StoresWf.emit {o} (hc : c.StoresWf) : (c.emit o).StoresWf := hc.frame (by rfl)

theorem Chip.StoresWf.draw {bound} (hc : c.StoresWf) : (c.draw bound).2.StoresWf := hc.frame (by rfl)

theorem Chip.StoresWf.drawKey (hc : c.StoresWf) : c.drawKey.2.StoresWf := hc.frame (by rfl)

theorem Chip.StoresWf.drawMask (hc : c.StoresWf) : c.drawMask.2.StoresWf := by
  fun_cases Chip.drawMask <;> exact hc.frame (by rfl)

theorem Chip.StoresWf.modPcs {p f} (hc : c.StoresWf) : (c.modPcs p f).StoresWf := hc.frame (by rfl)

theorem Chip.StoresWf.modTrk {p f} (hc : c.StoresWf) : (c.modTrk p f).StoresWf := hc.frame (by rfl)

theorem Chip.StoresWf.modLnk {p f} (hc : c.StoresWf) : (c.modLnk p f).StoresWf := hc.frame (by rfl)

theorem Chip.StoresWf.modTp {p f} (hc : c.StoresWf) : (c.modTp p f).StoresWf := hc.frame (by rfl)

/-! `Votes`: The conditions of the hardware votes (15 Table 15-2), the time that they hold a domain on for, and the domains that an
access wakes (15 R453 to R456). -/

theorem Chip.StoresWf.votesWake {x} (hc : c.StoresWf) : (c.votesWake x).StoresWf := hc.put

theorem Chip.StoresWf.lkGate {gated} (hc : c.StoresWf) : (c.lkGate gated).StoresWf := hc.putBit.frame (by rfl)

theorem Chip.StoresWf.stalled {n} (hc : c.StoresWf) : (c.stalled n).StoresWf := hc.put

theorem Chip.StoresWf.domainWake {d stall} (hc : c.StoresWf) : (c.domainWake d stall).StoresWf :=
  ((hc.votesWake.when fun hc => hc.inc).when fun hc => hc.lkGate).stalled

theorem Chip.StoresWf.accessDomain {d} (hc : c.StoresWf) : (c.accessDomain d).StoresWf := hc.when fun hc => (hc.frame (by rfl)).domainWake

theorem Chip.StoresWf.accessRegister {off} (hc : c.StoresWf) : (c.accessRegister off).StoresWf := by
  fun_cases Chip.accessRegister
  · exact hc.accessDomain
  · exact hc

/-! `Ops`: The named operations every family shares. -/

theorem Chip.StoresWf.samplePc (hc : c.StoresWf) : c.samplePc.StoresWf := .ite ⟨wf_put _ _ hc.regsWf, hc.stageWf⟩ hc

theorem Chip.StoresWf.alarmCount (hc : c.StoresWf) : c.alarmCount.StoresWf := by
  fun_cases Chip.alarmCount
  · exact hc.put.put.put
  · exact hc.put.put

theorem Chip.StoresWf.alarmWrite {i e} (hc : c.StoresWf) : (c.alarmWrite i e).StoresWf := (hc.frame (by rfl)).alarmCount

theorem Chip.StoresWf.alarmLog {e} (hc : c.StoresWf) : (c.alarmLog e).2.StoresWf := by
  fun_cases Chip.alarmLog
  · exact hc.alarmWrite
  · exact hc.alarmWrite.inc.flag
  · exact hc.inc.flag

theorem Chip.StoresWf.raise {r} (hc : c.StoresWf) : (c.raise r).StoresWf := by
  have hr : ∀ {a b}, (((c.inc F.ALM_RAISED).flag F.ALM_INT_STATUS_RAISED).when a fun c => c.put F.GLB_FAULT_STATUS_CRIT_ALARM 1).when b
      (fun c => c.inc F.ALM_SUPPRESSED) |>.StoresWf := (hc.inc.flag.when fun hc => hc.put).when fun hc => hc.inc
  fun_cases Chip.raise
  · exact hr.frame (by rfl)
  · next e => exact (((hr.frame (by rfl)).alarmLog.of_eq e).frame (by rfl)).alarmCount
  · next e => exact (hr.frame (by rfl)).alarmLog.of_eq e
  · next e => exact (hr.frame (by rfl)).alarmLog.of_eq e

theorem Chip.StoresWf.clearAbout {code p} (hc : c.StoresWf) : (c.clearAbout code p).StoresWf := by
  fun_cases Chip.clearAbout
  · exact hc.when fun hc => hc.raise
  · exact hc

theorem Chip.StoresWf.raiseOwn {code unit detail} (hc : c.StoresWf) : (c.raiseOwn code unit detail).StoresWf := hc.raise

theorem Chip.StoresWf.raiseLoc {code loc detail} (hc : c.StoresWf) : (c.raiseLoc code loc detail).StoresWf := hc.raise

theorem Chip.StoresWf.clearOwn {code unit detail} (hc : c.StoresWf) : (c.clearOwn code unit detail).StoresWf := hc.raise

theorem Chip.StoresWf.raiseLink {p code detail cleared} (hc : c.StoresWf) : (c.raiseLink p code detail cleared).StoresWf := hc.raise

/-! `RelOps`: Memory errors and the remap table (14 R429 to R434, Table 14-1). -/

theorem Chip.StoresWf.showRemap (hc : c.StoresWf) : c.showRemap.StoresWf := hc.put

theorem Chip.StoresWf.remap {loc poisoned byBist} (hc : c.StoresWf) : (c.remap loc poisoned byBist).StoresWf := by
  fun_cases Chip.remap
  · exact .showRemap (.put (.put (.put (.put (by dsimp +zetaDelta only; split; exacts [hc.put.put, hc])))))
  · exact .raiseLoc (.showRemap (.flag (.put (by dsimp +zetaDelta only; split; exacts [hc.put.put, hc]))))
  · exact .showRemap (.flag (.put (by dsimp +zetaDelta only; split; exacts [hc.put.put, hc])))

theorem Chip.StoresWf.unpoison {loc} (hc : c.StoresWf) : (c.unpoison loc).StoresWf := by
  fun_cases Chip.unpoison
  · exact hc.put
  · exact hc

theorem Chip.StoresWf.eccCorrectable {loc permanent} (hc : c.StoresWf) : (c.eccCorrectable loc permanent).StoresWf :=
  .ite hc.put.flag.remap.inc.flag.raiseLoc hc.put.flag.inc.inc

theorem Chip.StoresWf.eccRetried (hc : c.StoresWf) : c.eccRetried.StoresWf := hc.inc.flag.inc

theorem Chip.StoresWf.eccLost {loc} (hc : c.StoresWf) : (c.eccLost loc).StoresWf := hc.inc.put.flag.remap.inc.inc.flag.raiseLoc

theorem Chip.StoresWf.rewritten {p} (hc : c.StoresWf) : (c.rewritten p).StoresWf :=
  hc.when fun hc => hc.each fun hc => hc.when fun hc => hc.put

theorem Chip.StoresWf.eccRead {x} (hc : c.StoresWf) : (c.eccRead x).StoresWf := by
  fun_cases Chip.eccRead
  · exact hc
  · exact hc.eccCorrectable
  · exact hc.eccRetried
  · exact hc.eccLost

/-! `Basin`: Basin memory (05). -/

theorem Chip.StoresWf.showPool (hc : c.StoresWf) : c.showPool.StoresWf := hc.put.put.when fun hc => hc.flag

theorem Chip.StoresWf.charge {p cells} (hc : c.StoresWf) : (c.charge p cells).StoresWf := hc.put.put.showPool

theorem Chip.StoresWf.uncharge {p cells} (hc : c.StoresWf) : (c.uncharge p cells).StoresWf := hc.put.showPool

theorem Chip.StoresWf.modSwc {f} (hc : c.StoresWf) : (c.modSwc f).StoresWf := hc.frame (by rfl)

theorem Chip.StoresWf.showRetained {p} (hc : c.StoresWf) : (c.showRetained p).StoresWf := hc.put.put

theorem Chip.StoresWf.sweepStore {sid} (hc : c.StoresWf) : (c.sweepStore sid).StoresWf := by
  fun_cases Chip.sweepStore
  · exact hc
  · exact hc.modSwc.uncharge
  · exact hc

theorem Chip.StoresWf.dropRef {sid} (hc : c.StoresWf) : (c.dropRef sid).StoresWf := hc.modSwc.sweepStore

theorem Chip.StoresWf.draw16 {g} (hc : c.StoresWf) : (c.draw16 g).2.StoresWf := by
  unfold Chip.draw16
  dsimp only
  exact hc.modSwc

theorem Chip.StoresWf.red {inPort e q colour skip} (hc : c.StoresWf) : (c.red inPort e q colour skip).2.StoresWf := by
  fun_cases Chip.red
  · dsimp only; exact hc.modSwc
  · dsimp only; exact hc.modSwc.draw16.of_eq ‹_›
  · dsimp only; exact hc.modSwc.draw16.of_eq ‹_›
  · dsimp only; exact hc.modSwc.draw16.of_eq ‹_›

/-! `SchOps`: Scheduling, shapers, weirs and time gates (06 R194 to R211). -/

theorem Chip.StoresWf.modSch {f} (hc : c.StoresWf) : (c.modSch f).StoresWf := hc.frame (by rfl)

theorem Chip.StoresWf.retag {e q} (hc : c.StoresWf) : (c.retag e q).StoresWf := by
  fun_cases Chip.retag
  · exact hc
  · exact hc.modSch
  · exact hc.modSch.modSch

theorem Chip.StoresWf.becameBacklogged {e q} (hc : c.StoresWf) : (c.becameBacklogged e q).StoresWf := .ite hc hc.retag

theorem Chip.StoresWf.chargeShapers {e q budget l} (hc : c.StoresWf) : (c.chargeShapers e q budget l).StoresWf :=
  ((hc.when fun hc => hc.modSch).when fun hc => hc.modSch).when fun hc => hc.modSch.put

theorem Chip.StoresWf.countGuard {e} (hc : c.StoresWf) : (c.countGuard e).StoresWf :=
  hc.each fun hc => by split; exacts [.ite hc.modSwc.inc hc, hc]

theorem Chip.StoresWf.crossed {e q budget words} (hc : c.StoresWf) : (c.crossed e q budget words).StoresWf :=
  .retag (.chargeShapers (.ite hc.modSch hc))

theorem Chip.StoresWf.meter {n pre words} (hc : c.StoresWf) : (c.meter n pre words).2.StoresWf := by
  unfold Chip.meter
  dsimp only
  exact hc.modSch

end Sys2Proof.Machine
end

section
/-! What every step keeps of the stores: SwcOps, Adapter, UsbOps, FabOps. -/

namespace Sys2Proof.Machine

variable {c : Chip} {h : Hub} {v : Hv} {s : State}

/-! `SwcOps`: The switch core's shared operations (05). -/

theorem Chip.StoresWf.judge {b inPort copies reliable counted} (hc : c.StoresWf) :
    (c.judge b inPort copies reliable counted).2.StoresWf := by
  refine List.foldlRecOn copies _ (motive := fun x : Verdict × Chip => x.2.StoresWf) (hc.when fun hc => hc.inc) fun x hx d _ => ?_
  have hm : ∀ {col e m}, ((x.2.red inPort d.outPort d.queue col e).2.when m fun c => c.inc (F.SWC_MARK inPort)).StoresWf :=
    hx.red.when fun hc => hc.inc
  exact .snd_ite hm (.snd_ite hm hm)

theorem Chip.StoresWf.enqueue {b inPort copies retain} (hc : c.StoresWf) : (c.enqueue b inPort copies retain).2.StoresWf :=
  ((hc.frame (by rfl)).modSwc.charge.inc.rewritten.when fun hc => hc.showRetained).each fun hc => hc.becameBacklogged

theorem Chip.StoresWf.sampleRecord {n x} (hc : c.StoresWf) : (c.sampleRecord n x).StoresWf := by
  fun_cases Chip.sampleRecord
  · exact (((hc.draw.of_eq ‹_›).draw.of_eq ‹_›).judge.of_eq ‹_›).enqueue.modSwc
  · have hj := ((hc.draw.of_eq ‹_›).draw.of_eq ‹_›).judge.of_eq ‹_›
    exact .modSwc (.flag (.inc (by dsimp +zetaDelta only; split <;> exact hj.inc)))

theorem Chip.StoresWf.sample {x} (hc : c.StoresWf) : (c.sample x).StoresWf :=
  hc.each fun hc => .ite hc (.ite (.ite hc.draw16.sampleRecord hc.draw16) (.ite hc.modSwc.sampleRecord hc.modSwc))

theorem Chip.StoresWf.sampleDrop {b inPort cause tun route outs} (hc : c.StoresWf) :
    (c.sampleDrop b inPort cause tun route outs).StoresWf :=
  hc.sample

theorem Chip.StoresWf.settleTag {e q} (hc : c.StoresWf) : (c.settleTag e q).StoresWf := .ite hc.modSch hc

theorem Chip.StoresWf.unretain {all sid} (hc : c.StoresWf) : (c.unretain all sid).StoresWf := by
  fun_cases Chip.unretain
  · exact hc
  · exact (hc.modSwc.each fun hc => hc.settleTag).sweepStore.showRetained.each fun hc => hc.sample

theorem Chip.StoresWf.dropDesc {d cause} (hc : c.StoresWf) : (c.dropDesc d cause).StoresWf :=
  .settleTag (.dropRef (.modSwc (by split; exacts [hc.sample, hc])))

theorem Chip.StoresWf.sampleLost {b} (hc : c.StoresWf) : (c.sampleLost b).StoresWf := by
  unfold Chip.sampleLost
  exact hc.inc.flag.modSwc

theorem Chip.StoresWf.toP8 {inPort b} (hc : c.StoresWf) : (c.toP8 inPort b).StoresWf :=
  .ite (hc.modSwc.when fun hc => hc.inc) (.ite hc.inc.sampleLost hc.inc)

/-! `Adapter`: What the adapters share. -/

theorem Chip.StoresWf.offer {port l} (hc : c.StoresWf) : (c.offer port l).StoresWf := hc.modSwc

theorem Chip.StoresWf.sendMsg {port tunnel tspec l} (hc : c.StoresWf) : (c.sendMsg port tunnel tspec l).StoresWf := hc.offer

theorem Chip.StoresWf.takeMsg {port p given} (hc : c.StoresWf) : (c.takeMsg port p given).2.StoresWf := by
  fun_cases Chip.takeMsg
  · dsimp only; exact hc
  · dsimp only; exact hc
  · dsimp only; exact hc.modSwc

theorem Chip.StoresWf.onMsg {port p given f} (hf : ∀ {a0} {c : Chip}, c.StoresWf → (f a0 c).StoresWf) (hc : c.StoresWf) :
    (c.onMsg port p given f).StoresWf := by
  fun_cases Chip.onMsg
  · exact hf (hc.takeMsg.of_eq ‹_›)
  · exact hc.takeMsg.of_eq ‹_›

/-! `UsbOps`: The USB adapter's shared operations (07). -/

theorem Chip.StoresWf.modUsb {f} (hc : c.StoresWf) : (c.modUsb f).StoresWf := hc.frame (by rfl)

theorem Chip.StoresWf.setVdev {i d} (hc : c.StoresWf) : (c.setVdev i d).StoresWf := hc.modUsb

theorem Chip.StoresWf.modVdev {i f} (hc : c.StoresWf) : (c.modVdev i f).StoresWf := hc.setVdev

theorem Chip.StoresWf.modPhys {x f} (hc : c.StoresWf) : (c.modPhys x f).StoresWf := hc.modUsb

theorem Chip.StoresWf.modPdev {x f} (hc : c.StoresWf) : (c.modPdev x f).StoresWf := hc.modPhys

theorem Chip.StoresWf.showUsb (hc : c.StoresWf) : c.showUsb.StoresWf := hc.put.put

theorem Chip.StoresWf.usbSend {i kind ep dirIn arg l} (hc : c.StoresWf) : (c.usbSend i kind ep dirIn arg l).StoresWf := by
  fun_cases Chip.usbSend
  · exact hc
  · exact hc.modVdev
  · exact hc.sendMsg

theorem Chip.StoresWf.usbFlush {i} (hc : c.StoresWf) : (c.usbFlush i).StoresWf := hc.modVdev.each fun hc => hc.sendMsg

theorem Chip.StoresWf.portCmd {i code l} (hc : c.StoresWf) : (c.portCmd i code l).StoresWf := (hc.when fun hc => hc.inc).usbSend

theorem Chip.StoresWf.sendSofOffset {i} (hc : c.StoresWf) : (c.sendSofOffset i).StoresWf := hc.portCmd

theorem Chip.StoresWf.sendSsHold {i} (hc : c.StoresWf) : (c.sendSsHold i).StoresWf := hc.portCmd

theorem Chip.StoresWf.physSend {x kind ep dirIn res arg l} (hc : c.StoresWf) : (c.physSend x kind ep dirIn res arg l).StoresWf := by
  fun_cases Chip.physSend
  · exact hc.sendMsg
  · exact hc

theorem Chip.StoresWf.portEvent {x code l} (hc : c.StoresWf) : (c.portEvent x code l).StoresWf := hc.physSend

theorem Chip.StoresWf.usbAct {x a} (hc : c.StoresWf) : (c.usbAct x a).StoresWf := hc.emit

theorem Chip.StoresWf.dropVdev {i} (hc : c.StoresWf) : (c.dropVdev i).StoresWf := hc.add.modVdev

theorem Chip.StoresWf.setVhub {x} (hc : c.StoresWf) : (c.setVhub x).StoresWf := hc.modUsb

theorem Chip.StoresWf.modVhub {k ss f} (hc : c.StoresWf) : (c.modVhub k ss f).StoresWf := hc.setVhub

theorem Chip.StoresWf.hubErdy {k} (hc : c.StoresWf) : (c.hubErdy k).StoresWf := hc.when fun hc => hc.modVhub.emit

theorem Chip.StoresWf.setChange {i bit} (hc : c.StoresWf) : (c.setChange i bit).StoresWf := hc.putBit.hubErdy

theorem Chip.StoresWf.vportEmpty {i} (hc : c.StoresWf) : (c.vportEmpty i).StoresWf := hc.dropVdev.put.put.put.put.put.put.setChange.showUsb

theorem Chip.StoresWf.vportOff {i} (hc : c.StoresWf) : (c.vportOff i).StoresWf := hc.dropVdev.setVdev.put.put.put.showUsb

theorem Chip.StoresWf.physDisable {x cause} (hc : c.StoresWf) : (c.physDisable x cause).StoresWf :=
  (hc.put.put.modPhys.when fun hc => hc.put.flag).portEvent

theorem Chip.StoresWf.reconnect {x} (hc : c.StoresWf) : (c.reconnect x).StoresWf := hc.modPhys.when fun hc => hc.portEvent

theorem Chip.StoresWf.usbPhysLost {t} (hc : c.StoresWf) : (c.usbPhysLost t).StoresWf := hc.each fun hc => hc.when fun hc => hc.put.modPhys

theorem Chip.StoresWf.usbTunnelLost {t} (hc : c.StoresWf) : (c.usbTunnelLost t).StoresWf :=
  (hc.each fun hc => hc.vportEmpty.flag).usbPhysLost

theorem Chip.StoresWf.usbSynced {t} (hc : c.StoresWf) : (c.usbSynced t).StoresWf := hc.each fun hc => hc.when fun hc => hc.reconnect

theorem Chip.StoresWf.usbPeerLost {t} (hc : c.StoresWf) : (c.usbPeerLost t).StoresWf := hc.usbTunnelLost.when fun hc => hc.usbSynced

/-! `FabOps`: Forwarding's shared operations (04). -/

theorem Chip.StoresWf.modFab {f} (hc : c.StoresWf) : (c.modFab f).StoresWf := hc.frame (by rfl)

theorem Chip.StoresWf.countRefused {inPort cause} (hc : c.StoresWf) : (c.countRefused inPort cause).StoresWf := by
  fun_cases Chip.countRefused <;> exact hc.inc

theorem Chip.StoresWf.sampleAt {x} (hc : c.StoresWf) : (c.sampleAt x).StoresWf := by
  fun_cases Chip.sampleAt
  · exact hc.sample
  · exact hc

theorem Chip.StoresWf.hold {inPort x} (hc : c.StoresWf) : (c.hold inPort x).StoresWf := hc.inc.modSwc

theorem Chip.StoresWf.admitOne {b d retain counted} (hc : c.StoresWf) : (c.admitOne b d retain counted).2.StoresWf := by
  fun_cases Chip.admitOne
  · exact hc.put.flag.hold
  · exact (hc.judge.of_eq ‹_›).enqueue.of_eq ‹_›
  · exact (hc.judge.of_eq ‹_›).hold
  · exact (hc.judge.of_eq ‹_›).countRefused.sample

theorem Chip.StoresWf.dropAt {f b inPort cause tun route} (hc : c.StoresWf) : (c.dropAt f b inPort cause tun route).StoresWf :=
  hc.inc.sampleDrop

theorem Chip.StoresWf.putOff {x} (hc : c.StoresWf) : (c.putOff x).StoresWf := hc.modSwc

theorem Chip.StoresWf.admitTack {b d} (hc : c.StoresWf) : (c.admitTack b d).StoresWf := by
  fun_cases Chip.admitTack
  next e _ =>
    have hj := hc.judge.of_eq e
    exact .sampleAt (by dsimp +zetaDelta only; split; exacts [hj.enqueue, hj.countRefused.sample])

theorem Chip.StoresWf.sendTackTo {inPort b} (hc : c.StoresWf) : (c.sendTackTo inPort b).StoresWf := by
  fun_cases Chip.sendTackTo
  · exact hc
  · exact hc.dropAt
  · exact hc.putOff
  · exact hc.dropAt
  · exact hc.admitTack
  · exact hc.dropAt
  · exact hc.admitTack

theorem Chip.StoresWf.sendTack {t tseq status} (hc : c.StoresWf) : (c.sendTack t tseq status).StoresWf := hc.sendTackTo

theorem Chip.StoresWf.setTun {x} (hc : c.StoresWf) : (c.setTun x).StoresWf := hc.modFab

theorem Chip.StoresWf.modTun {t g} (hc : c.StoresWf) : (c.modTun t g).StoresWf := hc.setTun

theorem Chip.StoresWf.releaseAll {t all} (hc : c.StoresWf) : (c.releaseAll t all).StoresWf := (hc.each fun hc => hc.unretain).modTun

theorem Chip.StoresWf.clearTunnel {t raw} (hc : c.StoresWf) : (c.clearTunnel t raw).StoresWf :=
  hc.releaseAll.put.put.put.modFab.usbTunnelLost

theorem Chip.StoresWf.dropHeld {t} (hc : c.StoresWf) : (c.dropHeld t).StoresWf := hc.modSwc.each fun hc => hc.sample

theorem Chip.StoresWf.stallTunnel {t} (hc : c.StoresWf) : (c.stallTunnel t).StoresWf :=
  hc.put.releaseAll.dropHeld.add.put.put.flag.raiseOwn.put.modTun.usbTunnelLost

theorem Chip.StoresWf.duplicateId (hc : c.StoresWf) : c.duplicateId.StoresWf := .ite hc.flag hc.put.put.flag.raiseOwn

theorem Chip.StoresWf.setProtection {spur i x} (hc : c.StoresWf) : (c.setProtection spur i x).StoresWf := .ite hc hc.putBit.flag

theorem Chip.StoresWf.routabilityLost {p} (hc : c.StoresWf) : (c.routabilityLost p).StoresWf := by
  fun_cases Chip.routabilityLost
  · exact hc.putBit.flag.modFab.setProtection
  · exact hc.putBit.flag.modFab

theorem Chip.StoresWf.routabilityGained {p} (hc : c.StoresWf) : (c.routabilityGained p).StoresWf := by
  fun_cases Chip.routabilityGained
  · exact (hc.putBit.modFab.when fun hc => hc.flag).setProtection
  · exact hc.putBit.modFab.when fun hc => hc.flag

theorem Chip.StoresWf.portAdmitted {p} (hc : c.StoresWf) : (c.portAdmitted p).StoresWf := .ite hc.putBit hc.routabilityGained

theorem Chip.StoresWf.portUnrouted {p} (hc : c.StoresWf) : (c.portUnrouted p).StoresWf := .ite hc.putBit.routabilityLost hc.putBit

theorem Chip.StoresWf.egressDrop {f d b cause} (hc : c.StoresWf) : (c.egressDrop f d b cause).StoresWf := hc.inc.sample

end Sys2Proof.Machine
end

section
/-! What every step keeps of the stores: WinOps, Tunnel. -/

namespace Sys2Proof.Machine

variable {c : Chip} {h : Hub} {v : Hv} {s : State}

/-! `WinOps`: The window bridge's operations (08). -/

theorem Chip.StoresWf.stageStore {x l} (hc : c.StoresWf) : (c.stageStore x l).StoresWf :=
  have hp := hc.each fun hc => hc.unpoison
  ⟨hp.regsWf, memWf_memWrite _ _ hp.stageWf⟩

theorem Chip.StoresWf.pcieAct {a} (hc : c.StoresWf) : (c.pcieAct a).StoresWf := hc.emit

theorem Chip.StoresWf.winSend {tunnel kind tag status lseq len l} (hc : c.StoresWf) :
    (c.winSend tunnel kind tag status lseq len l).StoresWf :=
  hc.sendMsg

theorem Chip.StoresWf.nextWin {kind given p} (hc : c.StoresWf) : (c.nextWin kind given p).2.StoresWf := by
  unfold Chip.nextWin
  dsimp only
  split
  exacts [hc.modSwc, hc]

theorem Chip.StoresWf.takeWin {m} (hc : c.StoresWf) : (c.takeWin m).StoresWf := hc.modSwc

theorem Chip.StoresWf.onWin {kind given f} (hf : ∀ {a0} {c : Chip}, c.StoresWf → (f a0 c).StoresWf) (hc : c.StoresWf) :
    (c.onWin kind given f).StoresWf := by
  fun_cases Chip.onWin
  · exact hf (hc.nextWin.of_eq ‹_›).takeWin
  · exact hc.nextWin.of_eq ‹_›

theorem Chip.StoresWf.logOverflow (hc : c.StoresWf) : c.logOverflow.StoresWf := hc.inc.flag

theorem Chip.StoresWf.lostRead {r cause} (hc : c.StoresWf) : (c.lostRead r cause).2.StoresWf := by
  fun_cases Chip.lostRead
  · exact hc.flag.logOverflow
  · exact (hc.flag.modWin (by rfl)).put.put.put.put.put.put.put.put.put.put.put.put

theorem Chip.StoresWf.writeFailed {fwa status np drive} (hc : c.StoresWf) : (c.writeFailed fwa status np drive).StoresWf := by
  fun_cases Chip.writeFailed
  · exact hc.flag.logOverflow
  · exact hc.flag.put.put.put.put.put.put.put.put

theorem Chip.StoresWf.showWin (hc : c.StoresWf) : c.showWin.StoresWf := hc.put

theorem Chip.StoresWf.winIssue {r tag} (hc : c.StoresWf) : (c.winIssue r tag).StoresWf :=
  .ite (hc.inc.winSend.modWin (by rfl)) ((hc.inc.winSend.modWin (by rfl)).modWin (by rfl)).showWin

theorem Chip.StoresWf.winPumpN {n} (hc : c.StoresWf) : (c.winPumpN n).StoresWf := by
  fun_induction Chip.winPumpN
  · exact hc
  · exact hc
  · next ih => exact ih (hc.modWin (by rfl)).winIssue
  · exact hc

theorem Chip.StoresWf.dropRemoteLock (hc : c.StoresWf) : c.dropRemoteLock.StoresWf := hc.put.modWin (by rfl)

theorem Chip.StoresWf.settleRelease (hc : c.StoresWf) : c.settleRelease.StoresWf := by
  fun_cases Chip.settleRelease
  · exact hc
  · exact hc
  · exact hc.winSend.dropRemoteLock.put

theorem Chip.StoresWf.winPump (hc : c.StoresWf) : c.winPump.StoresWf := hc.winPumpN.settleRelease

theorem Chip.StoresWf.answer {a} (hc : c.StoresWf) : (c.answer a).StoresWf :=
  .ite hc.pcieAct (.ite (hc.when fun hc => hc.inc).pcieAct (hc.when fun hc => hc.inc).pcieAct.pcieAct)

theorem Chip.StoresWf.partDone {u status bytes} (hc : c.StoresWf) : (c.partDone u status bytes).StoresWf := by
  fun_cases Chip.partDone
  · exact hc
  · exact (hc.modWin (by rfl)).answer
  · exact hc.modWin (by rfl)

theorem Chip.StoresWf.readDone {rng fwa fill users status bytes} (hc : c.StoresWf) :
    (c.readDone rng fwa fill users status bytes).StoresWf :=
  (hc.when fun hc => hc.modWin (by rfl)).each fun hc => hc.partDone

theorem Chip.StoresWf.reqDone {r status bytes} (hc : c.StoresWf) : (c.reqDone r status bytes).StoresWf := hc.readDone

theorem Chip.StoresWf.rangeFailed {rng} (hc : c.StoresWf) : (c.rangeFailed rng).StoresWf := hc.put.inc.flag.raiseOwn

theorem Chip.StoresWf.ownEnd {p write status bytes} (hc : c.StoresWf) : (c.ownEnd p write status bytes).StoresWf :=
  .ite ((hc.when fun hc => .ite hc.inc hc.rangeFailed).when fun hc => hc.writeFailed) (hc.when
    fun hc => .ite hc.inc hc.rangeFailed).readDone

theorem Chip.StoresWf.reqEnd {r status bytes} (hc : c.StoresWf) : (c.reqEnd r status bytes).StoresWf :=
  .ite (hc.when fun hc => hc.inc).reqDone (.ite (hc.modWin (by rfl)) (hc.when fun hc => hc.rangeFailed).reqDone)

theorem Chip.StoresWf.takeReq {tag} (hc : c.StoresWf) : (c.takeReq tag).2.StoresWf := by
  fun_cases Chip.takeReq
  · exact (hc.modWin (by rfl)).showWin
  · exact hc

theorem Chip.StoresWf.winComplete {tag status bytes} (hc : c.StoresWf) : (c.winComplete tag status bytes).StoresWf := by
  fun_cases Chip.winComplete
  · exact (hc.takeReq.of_eq ‹_›).reqEnd.winPump
  · exact hc.takeReq.of_eq ‹_›

theorem Chip.StoresWf.abandon {r cause} (hc : c.StoresWf) : (c.abandon r cause).StoresWf := by
  have hd : ∀ {f b}, (((c.modWin fun w => { w with out := w.out.filter f }).showWin).when b fun c => c.inc F.WIN_RD_DISCARD).StoresWf :=
    (hc.modWin (by rfl)).showWin.when fun hc => hc.inc
  fun_cases Chip.abandon
  next e => exact (Chip.StoresWf.of_eq (.snd_ite hd.lostRead hd) e).modWin (by rfl)

theorem Chip.StoresWf.lateData {tag bytes} (hc : c.StoresWf) : (c.lateData tag bytes).StoresWf := by
  fun_cases Chip.lateData
  · exact hc.put.put.put
  · exact hc
  · exact hc

theorem Chip.StoresWf.pfUnfill (hc : c.StoresWf) : c.pfUnfill.StoresWf := hc.modWin (by rfl)

theorem Chip.StoresWf.mapOwn {f} (hc : c.StoresWf) : (c.mapOwn f).StoresWf := by
  unfold Chip.mapOwn
  exact hc.modFab

theorem Chip.StoresWf.pfDiscard {p} (hc : c.StoresWf) : (c.pfDiscard p).StoresWf := .ite hc (hc.add.modWin (by rfl)).pfUnfill.mapOwn

theorem Chip.StoresWf.dropOwnReads {rng} (hc : c.StoresWf) : (c.dropOwnReads rng).StoresWf :=
  ((hc.modWin (by rfl)).modFab.add.each fun hc => hc.answer).each fun hc => hc.readDone

theorem Chip.StoresWf.agenChange {rng} (hc : c.StoresWf) : (c.agenChange rng).StoresWf :=
  (((hc.put.pfDiscard.each fun hc => hc.abandon.reqDone).modWin (by rfl)).each fun hc => hc.inc.reqDone).dropOwnReads.winPump

theorem Chip.StoresWf.rangeCommit {n w0 w1 w2 w3} (hc : c.StoresWf) : (c.rangeCommit n w0 w1 w2 w3).StoresWf :=
  hc.put.put.put.put.put.put.when fun hc => hc.agenChange

theorem Chip.StoresWf.abandonAll (hc : c.StoresWf) : c.abandonAll.StoresWf :=
  ((hc.each fun hc => hc.abandon).add.modFab.modWin (by rfl)).pfDiscard.settleRelease

theorem Chip.StoresWf.setHolder {space hello} (hc : c.StoresWf) : (c.setHolder space hello).StoresWf := .ite hc.put.put hc.put.put

theorem Chip.StoresWf.lockRequest {hub space} (hc : c.StoresWf) : (c.lockRequest hub space).StoresWf := by
  fun_cases Chip.lockRequest
  · exact hc.put
  · exact hc.put
  · exact hc.put
  · exact hc.put
  · exact hc.setHolder.put.put.put
  · exact (hc.modWin (by rfl)).put.winSend.put

theorem Chip.StoresWf.withdrawLock (hc : c.StoresWf) : c.withdrawLock.StoresWf := by
  fun_cases Chip.withdrawLock
  · exact hc
  · exact hc.modWin (by rfl)
  · exact hc

theorem Chip.StoresWf.lockRelease {hub space} (hc : c.StoresWf) : (c.lockRelease hub space).StoresWf :=
  ((hc.when fun hc => hc.setHolder.put.put).when fun hc => (hc.modWin (by rfl)).settleRelease).when fun hc => (hc.withdrawLock.modWin
    (by rfl)).put

theorem Chip.StoresWf.lockReleaseAll (hc : c.StoresWf) : c.lockReleaseAll.StoresWf := by
  fun_cases Chip.lockReleaseAll
  · exact ((hc.when fun hc => hc.lockRelease).when fun hc => hc.lockRelease).lockRelease
  · exact (hc.when fun hc => hc.lockRelease).when fun hc => hc.lockRelease

theorem Chip.StoresWf.sendRetry {m space} (hc : c.StoresWf) : (c.sendRetry m space).StoresWf := hc.inc.winSend

theorem Chip.StoresWf.lockReqRx {m} (hc : c.StoresWf) : (c.lockReqRx m).StoresWf :=
  .ite hc.inc (.ite hc.sendRetry (.ite (((hc.when fun hc => hc.winSend.dropRemoteLock.modWin (by rfl)).when
    fun hc => hc.withdrawLock).when fun hc => hc.put).sendRetry ((((hc.when fun hc => hc.winSend.dropRemoteLock.modWin (by rfl)).when
    fun hc => hc.withdrawLock).when fun hc => hc.put).setHolder.modWin (by rfl)).winSend))

theorem Chip.StoresWf.ignoredAnswer {m} (hc : c.StoresWf) : (c.ignoredAnswer m).2.StoresWf := by
  fun_cases Chip.ignoredAnswer
  · dsimp only; exact hc.modWin (by rfl)
  · dsimp only; exact hc

theorem Chip.StoresWf.lockGrantRx {m} (hc : c.StoresWf) : (c.lockGrantRx m).StoresWf := by
  fun_cases Chip.lockGrantRx
  · exact (hc.ignoredAnswer.of_eq ‹_›).winSend
  · exact ((hc.ignoredAnswer.of_eq ‹_›).modWin (by rfl)).put.put.put.put

theorem Chip.StoresWf.lockRetryRx {m} (hc : c.StoresWf) : (c.lockRetryRx m).StoresWf := by
  fun_cases Chip.lockRetryRx
  · exact hc.inc.ignoredAnswer.of_eq ‹_›
  · exact ((hc.inc.ignoredAnswer.of_eq ‹_›).modWin (by rfl)).put

theorem Chip.StoresWf.lockBackoffEnd (hc : c.StoresWf) : c.lockBackoffEnd.StoresWf := by
  fun_cases Chip.lockBackoffEnd
  · exact hc
  · exact (hc.inc.modWin (by rfl)).put.winSend
  · exact (hc.modWin (by rfl)).put
  · exact hc

theorem Chip.StoresWf.lockRelRx {m} (hc : c.StoresWf) : (c.lockRelRx m).StoresWf := hc.when fun hc => hc.setHolder

theorem Chip.StoresWf.lockBrokenRx {m} (hc : c.StoresWf) : (c.lockBrokenRx m).StoresWf := .ite hc.dropRemoteLock.put.flag hc

theorem Chip.StoresWf.lockBreak {space} (hc : c.StoresWf) : (c.lockBreak space).StoresWf := by
  fun_cases Chip.lockBreak
  · exact hc
  · exact hc.put.put.put.inc.flag.setHolder.put.put.flag
  · exact hc.put.put.put.inc.flag.setHolder.winSend

theorem Chip.StoresWf.showDma {n} (hc : c.StoresWf) : (c.showDma n).StoresWf := hc.put

theorem Chip.StoresWf.setDma {n r} (hc : c.StoresWf) : (c.setDma n r).StoresWf := hc.modWin (by rfl)

theorem Chip.StoresWf.dmaStopped {n} (hc : c.StoresWf) : (c.dmaStopped n).StoresWf := hc.put.put.put.setDma.showDma

theorem Chip.StoresWf.dmaStop {n} (hc : c.StoresWf) : (c.dmaStop n).StoresWf := hc.put.setDma.dmaStopped

theorem Chip.StoresWf.dmaHalt {n} (hc : c.StoresWf) : (c.dmaHalt n).StoresWf := .ite hc.setDma hc.dmaStopped

theorem Chip.StoresWf.dmaSettle {n} (hc : c.StoresWf) : (c.dmaSettle n).StoresWf := hc.when fun hc => hc.dmaStopped

theorem Chip.StoresWf.dmaDone {n d done first last cmark err} (hc : c.StoresWf) : (c.dmaDone n d done first last cmark err).StoresWf :=
  (hc.pcieAct.put.when fun hc => hc.put).setDma.showDma

theorem Chip.StoresWf.dmaCut {n} (hc : c.StoresWf) : (c.dmaCut n).StoresWf := by
  fun_cases Chip.dmaCut
  · exact hc
  · exact hc.dmaDone.setDma

theorem Chip.StoresWf.dmaFill {n ds o l} (hc : c.StoresWf) : (c.dmaFill n ds o l).2.StoresWf := by
  fun_induction Chip.dmaFill
  · exact hc
  · exact hc.when fun hc => hc.pcieAct
  · next ih => exact ih (hc.when fun hc => hc.pcieAct).dmaDone

theorem Chip.StoresWf.cutOpen {t} (hc : c.StoresWf) : (c.cutOpen t).StoresWf :=
  .ite (hc.modWin (by rfl)) ((hc.each fun hc => hc.when fun hc => hc.dmaCut.dmaSettle).modWin (by rfl))

theorem Chip.StoresWf.dmaLast {n o b} (hc : c.StoresWf) : (c.dmaLast n o b).StoresWf :=
  .ite (hc.when fun hc => hc.pcieAct).dmaDone.dmaStopped (hc.when fun hc => hc.pcieAct).setDma

theorem Chip.StoresWf.dmaRx {n descs} (hc : c.StoresWf) : (c.dmaRx n descs).StoresWf := by
  fun_cases Chip.dmaRx
  · exact hc
  · exact hc
  · exact (hc.modWin (by rfl)).inc
  · exact (hc.modWin (by rfl)).dmaLast
  · exact hc.dmaCut.inc.dmaSettle
  · exact (hc.when fun hc => hc.dmaCut.inc).modWin (by rfl)
  · exact hc.when fun hc => hc.dmaCut.inc
  · exact ((hc.when fun hc => hc.dmaCut.inc).modWin (by rfl)).inc.dmaCut
  · exact ((hc.when fun hc => hc.dmaCut.inc).modWin (by rfl)).setDma.dmaCut
  · next e _ => exact (Chip.StoresWf.of_eq ((hc.when fun hc => hc.dmaCut.inc).modWin (by rfl)).dmaFill e).dmaDone.setDma
  · next e _ => exact (Chip.StoresWf.of_eq ((hc.when fun hc => hc.dmaCut.inc).modWin (by rfl)).dmaFill e).setDma.when fun hc => hc.dmaCut

theorem Chip.StoresWf.dmaTx {n descs} (hc : c.StoresWf) : (c.dmaTx n descs).StoresWf := by
  fun_cases Chip.dmaTx
  · exact hc
  · exact hc.put
  · exact hc.put
  · exact (hc.put.when fun hc => hc.sendMsg).each fun hc => hc.dmaDone

theorem Chip.StoresWf.hostInterrupt {n} (hc : c.StoresWf) : (c.hostInterrupt n).StoresWf := hc.pcieAct

theorem Chip.StoresWf.dmaModerate {n byTime} (hc : c.StoresWf) : (c.dmaModerate n byTime).StoresWf := .ite hc.hostInterrupt.setDma hc

theorem Chip.StoresWf.setStageMsg {key o} (hc : c.StoresWf) : (c.setStageMsg key o).StoresWf := hc.modWin (by rfl)

theorem Chip.StoresWf.stageWrite (hc : c.StoresWf) : c.stageWrite.StoresWf := by
  fun_cases Chip.stageWrite
  · exact hc
  · exact (hc.modWin (by rfl)).when fun hc => hc.setStageMsg.inc
  · exact ((hc.modWin (by rfl)).when fun hc => hc.setStageMsg.inc).setStageMsg.inc
  · exact (((hc.modWin (by rfl)).when fun hc => hc.setStageMsg.inc).each fun hc => hc.stageStore).setStageMsg.put
  · exact (((hc.modWin (by rfl)).when fun hc => hc.setStageMsg.inc).each fun hc => hc.stageStore).setStageMsg

/-! `Tunnel`: The tunnel engine (04 R132, R136 to R145). -/

theorem Chip.StoresWf.countBroken {port} (hc : c.StoresWf) : (c.countBroken port).StoresWf := by
  fun_cases Chip.countBroken
  · exact hc.inc
  · exact hc.inc
  · exact hc.inc
  · exact hc.inc
  · exact hc

theorem Chip.StoresWf.give {port tunnel channel b bytes} (hc : c.StoresWf) : (c.give port tunnel channel b bytes).StoresWf :=
  .ite hc.inc (.ite hc.inc hc.modSwc)

theorem Chip.StoresWf.giveBarge {channel mode key b} (hc : c.StoresWf) : (c.giveBarge channel mode key b).StoresWf :=
  .ite hc.inc (.ite hc.inc (hc.modWin (by rfl)))

theorem Chip.StoresWf.deliverUnicast {t mode port channel b} (hc : c.StoresWf) : (c.deliverUnicast t mode port channel b).StoresWf := by
  fun_cases Chip.deliverUnicast
  · exact hc.modSwc
  · exact hc.giveBarge
  · exact hc.inc
  · exact (hc.modTun.when fun hc => hc.countBroken).give
  · exact hc.modTun.when fun hc => hc.countBroken

theorem Chip.StoresWf.deliverMulticast {port channel b} (hc : c.StoresWf) : (c.deliverMulticast port channel b).StoresWf := by
  fun_cases Chip.deliverMulticast
  · exact hc.modSwc
  · exact hc.giveBarge
  · exact hc.inc
  · exact (hc.modSwc.when fun hc => hc.countBroken).give
  · exact hc.modSwc.when fun hc => hc.countBroken

theorem Chip.StoresWf.sendTunnelAck {t} (hc : c.StoresWf) : (c.sendTunnelAck t).StoresWf := hc.sendTack.modTun

theorem Chip.StoresWf.sendOow {t} (hc : c.StoresWf) : (c.sendOow t).StoresWf := .ite hc hc.sendTack.modTun

theorem Chip.StoresWf.receiveReliable {t port channel b} (hc : c.StoresWf) : (c.receiveReliable t port channel b).StoresWf :=
  .ite hc.sendOow (.ite hc (.ite (.ite hc.deliverUnicast.put.modTun.sendTunnelAck hc.deliverUnicast.put.modTun) (.ite
    (.ite hc hc.sendTack.modTun) (.ite hc.inc.sendTunnelAck hc.sendOow))))

theorem Chip.StoresWf.receiveOrdered {t port channel b} (hc : c.StoresWf) : (c.receiveOrdered t port channel b).StoresWf :=
  .ite hc.put.put.deliverUnicast (.ite hc.add.put.deliverUnicast hc.inc)

theorem Chip.StoresWf.receiveTunnel {t mode port channel b} (hc : c.StoresWf) : (c.receiveTunnel t mode port channel b).StoresWf := by
  fun_cases Chip.receiveTunnel
  · exact hc.receiveReliable
  · exact hc.receiveOrdered
  · exact hc.deliverUnicast

theorem Chip.StoresWf.takeTseq {t} (hc : c.StoresWf) : (c.takeTseq t).2.StoresWf := hc.inc

theorem Chip.StoresWf.resendOne {t sid} (hc : c.StoresWf) : (c.resendOne t sid).StoresWf := by
  fun_cases Chip.resendOne
  · exact hc
  · exact hc
  · exact hc.putOff
  · exact hc.inc.dropAt
  · exact hc.inc.modSwc.becameBacklogged
  · exact hc.inc.dropAt
  · exact hc.inc.modSwc.becameBacklogged

theorem Chip.StoresWf.takeLater (hc : c.StoresWf) : c.takeLater.StoresWf :=
  hc.modSwc.each fun hc => by split; exacts [hc.sendTackTo, hc.when fun hc => hc.resendOne]

theorem Chip.StoresWf.resendFrom {t tseq} (hc : c.StoresWf) : (c.resendFrom t tseq).StoresWf := hc.each fun hc => hc.resendOne

theorem Chip.StoresWf.tunnelAckUpTo {t q} (hc : c.StoresWf) : (c.tunnelAckUpTo t q).StoresWf :=
  .ite (hc.each fun hc => hc.unretain).modTun.put.put hc

theorem Chip.StoresWf.sendSync {t} (hc : c.StoresWf) : (c.sendSync t).StoresWf := by
  unfold Chip.sendSync
  exact hc.sendTack.modTun

theorem Chip.StoresWf.syncIn {t q e} (hc : c.StoresWf) : (c.syncIn t q e).StoresWf :=
  .ite hc (.ite (hc.put.put.modTun.when fun hc => hc.usbPeerLost).cutOpen.sendTack (hc.put.put.modTun.when
    fun hc => hc.usbPeerLost).cutOpen)

theorem Chip.StoresWf.tackIn {b inPort} (hc : c.StoresWf) : (c.tackIn b inPort).StoresWf := by
  fun_cases Chip.tackIn
  · exact hc.toP8
  · exact hc.dropAt
  · exact hc.tunnelAckUpTo
  · exact hc.inc
  · exact hc.inc
  · exact (hc.tunnelAckUpTo.when fun hc => hc.inc).when fun hc => hc.resendFrom
  · exact hc.toP8
  · exact hc.when fun hc => hc.put
  · exact hc.syncIn
  · exact hc.put.put.resendFrom.usbSynced
  · exact hc.inc
  · exact hc.inc

theorem Completes.execTackRx {tack} : Completes s (execTackRx tack s) := .onChip fun hc => hc.when fun hc => hc.tackIn

theorem Completes.execSyncRx {sync} : Completes s (execSyncRx sync s) := .onChip fun hc => hc.when fun hc => hc.tackIn

theorem Chip.StoresWf.syncTx {t} (hc : c.StoresWf) : (c.syncTx t).StoresWf := .ite hc (hc.modTun.sendSync.when fun hc => hc.put)

theorem Completes.execSyncTx {tunnel} : Completes s (execSyncTx tunnel s) := .onChip fun hc => hc.syncTx

theorem Chip.StoresWf.syncRepeat {t} (hc : c.StoresWf) : (c.syncRepeat t).StoresWf := .ite hc.sendSync hc

theorem Completes.execSyncRepeat {tunnel} : Completes s (execSyncRepeat tunnel s) := .onChip fun hc => hc.syncRepeat

theorem Completes.execTunnelAckDelayExpiry {tunnel} : Completes s (execTunnelAckDelayExpiry tunnel s) :=
  .onChip fun hc => hc.when fun hc => hc.sendTunnelAck

theorem Completes.execTunnelNakOutExpiry {tunnel} : Completes s (execTunnelNakOutExpiry tunnel s) := .onChip fun hc => hc.modTun

theorem Chip.StoresWf.treplayExpiry {t} (hc : c.StoresWf) : (c.treplayExpiry t).StoresWf :=
  .ite hc (.ite (hc.put.when fun hc => hc.resendFrom) hc.put.stallTunnel)

theorem Completes.execTreplayExpiry {tunnel} : Completes s (execTreplayExpiry tunnel s) := .onChip fun hc => hc.treplayExpiry

end Sys2Proof.Machine
end

section
/-! What every step keeps of the stores: Fabric, Alarms, KeyOps, PcsOps, LinkOps. -/

namespace Sys2Proof.Machine

variable {c : Chip} {h : Hub} {v : Hv} {s : State}

/-! `Fabric`: Lookup and placing (04 R131 to R135, R145 to R148; 06 R202 to R205). -/

theorem Chip.StoresWf.offerOne {b d retain} (hc : c.StoresWf) : (c.offerOne b d retain).2.StoresWf := by
  fun_cases Chip.offerOne
  dsimp only
  exact (hc.admitOne.of_eq ‹_›).sampleAt

theorem Chip.StoresWf.refuseCopy {b d} (hc : c.StoresWf) : (c.refuseCopy b d).StoresWf := hc.inc.sample

theorem Chip.StoresWf.atomicRefused {b inPort gi copies} (hc : c.StoresWf) : (c.atomicRefused b inPort gi copies).StoresWf :=
  .ite hc.inc.sampleDrop hc.inc.sampleDrop.modFab.sendTackTo

theorem Chip.StoresWf.inspectAlarm {b} (hc : c.StoresWf) : (c.inspectAlarm b).StoresWf := .ite (hc.frame (by rfl)) hc

theorem Chip.StoresWf.replicate {b inPort origin orig weir} (hc : c.StoresWf) : (c.replicate b inPort origin orig weir).StoresWf := by
  fun_cases Chip.replicate
  · exact hc.dropAt
  · exact (hc.when fun hc => hc.inspectAlarm).atomicRefused.when fun hc => hc.dropAt
  · exact ((hc.when fun hc => hc.inspectAlarm).each fun hc => hc.refuseCopy).when fun hc => hc.dropAt
  · exact .when (.sampleAt (.each (.ite ((hc.when fun hc => hc.inspectAlarm).judge.of_eq ‹_›).atomicRefused (.each (.ite ((hc.when
      fun hc => hc.inspectAlarm).judge.of_eq ‹_›) ((hc.when fun hc => hc.inspectAlarm).judge.of_eq ‹_›).enqueue)
      fun hc => hc.refuseCopy)) fun hc => hc.refuseCopy)) fun hc => hc.dropAt

theorem Chip.StoresWf.sendNotice {p broken} (hc : c.StoresWf) : (c.sendNotice p broken).StoresWf := by
  fun_cases Chip.sendNotice
  · exact (hc.draw.of_eq ‹_›).dropAt
  · exact (hc.draw.of_eq ‹_›).toP8.modSwc
  · exact (hc.draw.of_eq ‹_›).toP8.replicate
  · exact hc

theorem Chip.StoresWf.deliverOwn {b inPort} (hc : c.StoresWf) : (c.deliverOwn b inPort).StoresWf := by
  fun_cases Chip.deliverOwn
  · exact hc.tackIn
  · exact hc.offerOne
  · exact hc.dropAt
  · exact hc.inspectAlarm.offerOne

theorem Chip.StoresWf.forward {b inPort} (hc : c.StoresWf) : (c.forward b inPort).StoresWf := by
  fun_cases Chip.forward
  · exact hc.dropAt
  · exact hc.dropAt
  · exact hc.offerOne

theorem Chip.StoresWf.takeNotice {b} (hc : c.StoresWf) : (c.takeNotice b).2.StoresWf := by
  fun_cases Chip.takeNotice
  · exact hc
  · exact hc
  · exact .ite hc hc.setProtection

theorem Chip.StoresWf.trunkLookup {p b} (hc : c.StoresWf) : (c.trunkLookup p b).StoresWf := by
  fun_cases Chip.trunkLookup
  · exact hc.offerOne
  · exact hc.dropAt
  · exact hc.dropAt
  · exact (hc.takeNotice.of_eq ‹_›).replicate
  · exact (hc.takeNotice.of_eq ‹_›).dropAt
  · exact hc.replicate
  · exact hc.dropAt
  · exact hc.deliverOwn
  · exact hc.dropAt
  · exact hc.forward

theorem Chip.StoresWf.trunkIngress {p barge} (hc : c.StoresWf) : (c.trunkIngress p barge).StoresWf := by
  fun_cases Chip.trunkIngress
  · exact hc
  · exact hc.modLnk
  · exact hc.modLnk.trunkLookup

theorem Completes.execTrunkIngressLookup {p barge} : Completes s (execTrunkIngressLookup p barge s) := .onChip fun hc => hc.trunkIngress

theorem Chip.StoresWf.afterOffer {t b retain x} (hx : x.2.StoresWf) : (Chip.afterOffer t b retain x).StoresWf := by
  fun_cases Chip.afterOffer
  · exact Chip.StoresWf.when hx fun hc => hc.modTun
  · exact hx

theorem Chip.StoresWf.atWeir {n offered words reliable} (hc : c.StoresWf) : (c.atWeir n offered words reliable).2.StoresWf := by
  fun_cases Chip.atWeir
  · exact hc
  · exact hc.inc
  · exact hc.inc
  · exact hc.meter.of_eq ‹_›

theorem Chip.StoresWf.weirThenAdmit {t b d n retain offered} (hc : c.StoresWf) : (c.weirThenAdmit t b d n retain offered).StoresWf := by
  fun_cases Chip.weirThenAdmit
  · exact hc.atWeir.of_eq ‹_›
  · exact (hc.atWeir.of_eq ‹_›).modSwc
  · next e => exact .afterOffer (hc.atWeir.of_eq e).offerOne

theorem Chip.StoresWf.adapterLookup {port o more} (hc : c.StoresWf) : (c.adapterLookup port o more).StoresWf := by
  fun_cases Chip.adapterLookup
  · exact hc.dropAt
  · exact hc.dropAt
  · exact hc.dropAt
  · exact ((hc.takeTseq.of_eq ‹_›).modTun.atWeir.of_eq ‹_›).replicate
  · exact (hc.takeTseq.of_eq ‹_›).modTun.atWeir.of_eq ‹_›
  · exact (hc.takeTseq.of_eq ‹_›).modTun.dropAt
  · exact (hc.takeTseq.of_eq ‹_›).modTun.weirThenAdmit
  · exact (hc.takeTseq.of_eq ‹_›).modTun.dropAt.stallTunnel
  · exact (hc.takeTseq.of_eq ‹_›).modTun.dropAt
  · exact (hc.takeTseq.of_eq ‹_›).modTun.weirThenAdmit

theorem Chip.StoresWf.adapterIngress {port offer} (hc : c.StoresWf) : (c.adapterIngress port offer).StoresWf := by
  fun_cases Chip.adapterIngress
  · exact hc
  · exact hc.modSwc
  · exact hc.modSwc
  · exact hc.modSwc.adapterLookup

theorem Completes.execAdapterIngressLookup {port offer} : Completes s (execAdapterIngressLookup port offer s) :=
  .onChip fun hc => hc.adapterIngress

theorem Chip.StoresWf.lockkeeperBarge {b out} (hc : c.StoresWf) : (c.lockkeeperBarge b out).StoresWf := by
  fun_cases Chip.lockkeeperBarge
  · exact hc.offerOne
  · exact hc.dropAt
  · exact hc.dropAt
  · exact hc.dropAt
  · exact hc.dropAt
  · exact hc.replicate
  · exact hc.deliverOwn
  · exact hc.forward

theorem Chip.StoresWf.lockkeeperIngress {x} (hc : c.StoresWf) : (c.lockkeeperIngress x).StoresWf := by
  fun_cases Chip.lockkeeperIngress
  · exact hc.modSwc
  · exact hc
  · exact hc.modSwc
  · exact hc.modSwc.lockkeeperBarge

theorem Completes.execLockkeeperBargeIngress {x} : Completes s (execLockkeeperBargeIngress x s) := .onChip fun hc => hc.lockkeeperIngress

theorem Chip.StoresWf.release {port} (hc : c.StoresWf) : (c.release port).StoresWf := hc.modSwc

theorem Chip.StoresWf.admissionRetry {port} (hc : c.StoresWf) : (c.admissionRetry port).StoresWf := by
  fun_cases Chip.admissionRetry
  · exact hc.takeLater
  · exact .takeLater (.afterOffer hc.release.admitOne)
  · exact hc

theorem Completes.execAdmissionRetry {port} : Completes s (execAdmissionRetry port s) := .onChip fun hc => hc.admissionRetry

theorem Chip.StoresWf.weirHoldRetry {port} (hc : c.StoresWf) : (c.weirHoldRetry port).StoresWf := by
  fun_cases Chip.weirHoldRetry
  · exact hc
  · exact hc.release.weirThenAdmit.takeLater
  · exact hc

theorem Completes.execWeirHoldRetry {port} : Completes s (execWeirHoldRetry port s) := .onChip fun hc => hc.weirHoldRetry

theorem Chip.StoresWf.loopback (hc : c.StoresWf) : c.loopback.StoresWf := by
  fun_cases Chip.loopback
  · exact hc
  · exact hc.modSwc.dropAt
  · exact hc.modSwc.adapterIngress

theorem Completes.execLoopbackBarge : Completes s (execLoopbackBarge s) := .onChip fun hc => hc.loopback

/-! `Alarms`: Sending, receiving and merging alarms (14 R444 to R450). -/

theorem Chip.StoresWf.modAlm {f} (hc : c.StoresWf) : (c.modAlm f).StoresWf := hc.frame (by rfl)

theorem Chip.StoresWf.modAlarm {i f} (hc : c.StoresWf) : (c.modAlarm i f).StoresWf := by
  fun_cases Chip.modAlarm
  · exact hc.modAlm.alarmCount
  · exact hc

theorem Chip.StoresWf.sendAlarmTo {i ds} (hc : c.StoresWf) : (c.sendAlarmTo i ds).StoresWf := by
  fun_induction Chip.sendAlarmTo
  · exact hc.modAlarm
  · exact hc
  · next ih => exact ih ((hc.draw.of_eq ‹_›).lockkeeperBarge.inc.modAlm).modAlarm
  · exact (hc.when fun hc => hc.inc).modAlarm

theorem Chip.StoresWf.sendAlarm {i} (hc : c.StoresWf) : (c.sendAlarm i).StoresWf := by
  fun_cases Chip.sendAlarm
  · exact hc.when fun hc => hc.inc.modAlarm
  · exact hc.sendAlarmTo
  · exact hc

theorem Chip.StoresWf.alarmTick (hc : c.StoresWf) : c.alarmTick.StoresWf := by
  unfold Chip.alarmTick
  exact hc.modAlm.when fun hc => hc.each fun hc => hc.sendAlarm

theorem Chip.StoresWf.endHold {i} (hc : c.StoresWf) : (c.endHold i).StoresWf := hc.modAlm.alarmCount

theorem Chip.StoresWf.holdExpiry {i} (hc : c.StoresWf) : (c.holdExpiry i).StoresWf :=
  hc.when fun hc => hc.endHold.when fun hc => hc.sendAlarm

theorem Completes.execAlarmHoldExpiry {i} : Completes s (execAlarmHoldExpiry i s) := .onChip fun hc => hc.when fun hc => hc.holdExpiry

theorem Chip.StoresWf.cancelHolds {e} (hc : c.StoresWf) : (c.cancelHolds e).StoresWf :=
  hc.each fun hc => by split; exacts [hc.when fun hc => hc.endHold.inc.modAlarm, hc]

theorem Chip.StoresWf.alarmRx (hc : c.StoresWf) : c.alarmRx.StoresWf := by
  fun_cases Chip.alarmRx
  · exact hc
  · refine hc.modAlm.inc.cancelHolds.when fun hc => ?_
    split
    · exact hc.inc.modAlarm
    · split
      · next e => exact (hc.alarmLog.of_eq e).flag
      · next e => exact hc.alarmLog.of_eq e

theorem Completes.execAlarmBargeRx : Completes s (execAlarmBargeRx s) := .onChip fun hc => hc.when fun hc => hc.alarmRx

/-! `KeyOps`: The operations on key slots that other families share (13 R399 to R407, R420, R427). -/

theorem Chip.StoresWf.setSlot {n x} (hc : c.StoresWf) : (c.setSlot n x).StoresWf := hc.frame (by rfl)

theorem Chip.StoresWf.clearSlot {n} (hc : c.StoresWf) : (c.clearSlot n).StoresWf := hc.setSlot

theorem Chip.StoresWf.clearPortKeys {p} (hc : c.StoresWf) : (c.clearPortKeys p).StoresWf :=
  (hc.each fun hc => hc.clearSlot).put.put.put.put.put.modLnk

theorem Chip.StoresWf.admissionEnds {p} (hc : c.StoresWf) : (c.admissionEnds p).StoresWf := .ite hc (hc.put.frame (by rfl))

theorem Chip.StoresWf.startBackoff {p} (hc : c.StoresWf) : (c.startBackoff p).StoresWf := hc.put.put.frame (by rfl)

theorem Chip.StoresWf.countSlotRefused {engine x} (hc : c.StoresWf) : (c.countSlotRefused engine x).StoresWf :=
  hc.when fun hc => hc.keyCount

theorem Chip.StoresWf.deriveEpoch {p n sender receiver epoch} (hc : c.StoresWf) : (c.deriveEpoch p n sender receiver epoch).StoresWf := by
  fun_cases Chip.deriveEpoch
  · exact hc
  · exact (hc.keyCount.keyCount.keyCount.drawMask.of_eq ‹_›).setSlot

theorem Chip.StoresWf.awaitAdmission {p} (hc : c.StoresWf) : (c.awaitAdmission p).StoresWf := hc.put.flag.modLnk

theorem Chip.StoresWf.deriveTx {p epoch} (hc : c.StoresWf) : (c.deriveTx p epoch).StoresWf := hc.deriveEpoch

theorem Chip.StoresWf.deriveRx {p epoch} (hc : c.StoresWf) : (c.deriveRx p epoch).StoresWf := hc.deriveEpoch

/-! `PcsOps`: The lanes of a trunk port and its PCS (02 R34 to R41, R66 to R71). -/

theorem Chip.StoresWf.partnerBack {p} (hc : c.StoresWf) : (c.partnerBack p).StoresWf := hc.clearAbout.clearAbout

theorem Chip.StoresWf.partnerRuns {p lk} (hc : c.StoresWf) : (c.partnerRuns p lk).StoresWf := hc.when fun hc => hc.clearAbout

theorem Chip.StoresWf.modLane {p l f} (hc : c.StoresWf) : (c.modLane p l f).StoresWf := hc.modPcs

theorem Chip.StoresWf.pcsCodeword {p l} (hc : c.StoresWf) : (c.pcsCodeword p l).StoresWf := .ite hc hc.emit.modLane

theorem Chip.StoresWf.laneJoined {p lane} (hc : c.StoresWf) : (c.laneJoined p lane).StoresWf :=
  hc.put.flag.put.put.modTrk.when fun hc => hc.raiseLink

theorem Chip.StoresWf.laneChangeDue {p} (hc : c.StoresWf) : (c.laneChangeDue p).StoresWf := by
  fun_cases Chip.laneChangeDue
  · exact hc
  · exact (hc.modPcs.modTrk.put.when fun hc => hc.put).laneJoined
  · exact hc.modPcs.modTrk.put.when fun hc => hc.put
  · exact hc

theorem Chip.StoresWf.blockOut {p b} (hc : c.StoresWf) : (c.blockOut p b).StoresWf := hc.emit.modLane.modPcs.pcsCodeword.laneChangeDue

theorem Chip.StoresWf.pcsSend {p b} (hc : c.StoresWf) : (c.pcsSend p b).StoresWf := .ite hc (.ite hc.modPcs hc.blockOut)

theorem Chip.StoresWf.pcsSendFirst {p b} (hc : c.StoresWf) : (c.pcsSendFirst p b).StoresWf := .ite hc (.ite hc.modPcs hc.blockOut)

theorem Chip.StoresWf.sideCodeword {p l b} (hc : c.StoresWf) : (c.sideCodeword p l b).StoresWf :=
  (hc.each fun hc => hc.emit).modLane.pcsCodeword

theorem Chip.StoresWf.pcsFiller {p} (hc : c.StoresWf) : (c.pcsFiller p).StoresWf := .ite hc hc.blockOut

theorem Chip.StoresWf.pcsFill {p n} (hc : c.StoresWf) : (c.pcsFill p n).StoresWf := by
  fun_induction Chip.pcsFill
  · exact hc
  · next ih => exact ih hc.pcsFiller

theorem Chip.StoresWf.fillGroup {p} (hc : c.StoresWf) : (c.fillGroup p).StoresWf := hc.pcsFill

theorem Chip.StoresWf.pcsFlush {p} (hc : c.StoresWf) : (c.pcsFlush p).StoresWf := hc.modPcs.each fun hc => hc.pcsSend

theorem Chip.StoresWf.announceChange {p op lane ahead x} (hc : c.StoresWf) : (c.announceChange p op lane ahead x).StoresWf :=
  hc.modPcs.each fun hc => hc.pcsSend

theorem Chip.StoresWf.changeAtBoundary {p ahead x} (hc : c.StoresWf) : (c.changeAtBoundary p ahead x).StoresWf := hc.modPcs.laneChangeDue

theorem Chip.StoresWf.takeBlock {p b} (hc : c.StoresWf) : (c.takeBlock p b).StoresWf := hc.modPcs

theorem Chip.StoresWf.rxChangeAt {p sp bl lanes} (hc : c.StoresWf) : (c.rxChangeAt p sp bl lanes).StoresWf := hc.modPcs

theorem Chip.StoresWf.rxChangeDue {p} (hc : c.StoresWf) : (c.rxChangeDue p).StoresWf := by
  fun_cases Chip.rxChangeDue
  · exact hc.modPcs.modTrk
  · exact hc
  · exact hc

theorem Chip.StoresWf.rxAdvance {p} (hc : c.StoresWf) : (c.rxAdvance p).StoresWf := hc.modPcs

theorem Chip.StoresWf.rxMarker {p b} (hc : c.StoresWf) : (c.rxMarker p b).StoresWf := by
  fun_cases Chip.rxMarker
  · exact hc.modPcs.when fun hc => hc.modTrk
  · exact hc

/-! `LinkOps`: The operations that the trunk lanes, the shift engine and the link layer share (02, 03). -/

theorem Chip.StoresWf.showMargins {p l} (hc : c.StoresWf) : (c.showMargins p l).StoresWf := hc.put.put.put

theorem Chip.StoresWf.showPort {p} (hc : c.StoresWf) : (c.showPort p).StoresWf := hc.showMargins.showMargins

theorem Chip.StoresWf.propose {p target cause} (hc : c.StoresWf) : (c.propose p target cause).StoresWf := .ite hc.modTrk hc

theorem Chip.StoresWf.refusedLocal {p target} (hc : c.StoresWf) : (c.refusedLocal p target).StoresWf := hc.put.put.put.put.flag

theorem Chip.StoresWf.enforceLimits {p} (hc : c.StoresWf) : (c.enforceLimits p).StoresWf :=
  .ite hc (.ite (.ite (.ite hc.propose hc) hc.propose) (.ite (.ite (.ite hc.modTrk.refusedLocal hc.modTrk.propose) hc.modTrk) hc))

theorem Chip.StoresWf.lanesTrain {p} (hc : c.StoresWf) : (c.lanesTrain p).StoresWf := hc.each fun hc => hc.put

theorem Chip.StoresWf.startBringup {p} (hc : c.StoresWf) : (c.startBringup p).StoresWf := hc.put.modTrk.modPcs.lanesTrain.emit

theorem Chip.StoresWf.bringupFailed {p delay} (hc : c.StoresWf) : (c.bringupFailed p delay).StoresWf :=
  .ite hc.modTrk.lanesTrain.put.modTrk (.ite hc.modTrk.lanesTrain.put.modTrk hc.modTrk.lanesTrain.startBringup)

theorem Chip.StoresWf.linkReset {p} (hc : c.StoresWf) : (c.linkReset p).StoresWf := hc.put.put.put.put.modLnk

theorem Chip.StoresWf.linkGone {p} (hc : c.StoresWf) : (c.linkGone p).StoresWf :=
  (hc.add.modLnk.put.put.put.flag.put.put.put.put.put.each fun hc => hc.put.put.put).modTrk.modPcs.clearPortKeys.admissionEnds.portUnrouted

theorem Chip.StoresWf.retrain {p} (hc : c.StoresWf) : (c.retrain p).StoresWf :=
  hc.when fun hc => (hc.when fun hc => hc.linkGone).startBringup

theorem Chip.StoresWf.linkLost {p} (hc : c.StoresWf) : (c.linkLost p).StoresWf :=
  .ite hc.raiseLink.linkGone.bringupFailed hc.raiseLink.linkGone.modTrk.startBringup

theorem Chip.StoresWf.protoError {p} (hc : c.StoresWf) : (c.protoError p).StoresWf := hc.inc.flag.modTrk

theorem Chip.StoresWf.laneFail {p lane} (hc : c.StoresWf) : (c.laneFail p lane).StoresWf :=
  .ite (hc.put.flag.put.when fun hc => hc.sideCodeword).modTrk.announceChange.raiseLink hc.put.flag.linkLost

theorem Chip.StoresWf.moveKeSpan {p t} (hc : c.StoresWf) : (c.moveKeSpan p t).StoresWf := hc.when fun hc => hc.put

theorem Chip.StoresWf.sendMarkers {p} (hc : c.StoresWf) : (c.sendMarkers p).StoresWf := by
  fun_cases Chip.sendMarkers
  exact hc.moveKeSpan.modTrk.each fun hc => hc.pcsSend

theorem Chip.StoresWf.markerEpoch {p m} (hc : c.StoresWf) : (c.markerEpoch p m).StoresWf :=
  .ite (.modLnk (.when (.modLnk (by split; exacts [.ite hc.clearSlot.modLnk hc, hc])) fun hc => hc.deriveRx)) (.modLnk
    (by split; exacts [.ite hc.clearSlot.modLnk hc, hc]))

theorem Chip.StoresWf.sendNak {p cause} (hc : c.StoresWf) : (c.sendNak p cause).StoresWf := .ite hc hc.pcsSend.inc.modLnk

theorem Chip.StoresWf.linkProto {p} (hc : c.StoresWf) : (c.linkProto p).StoresWf := hc.inc.flag

end Sys2Proof.Machine
end

section
/-! What every step keeps of the stores: PowerOps, LoadOps, TpOps, AdmitOps, Keys, Gates. -/

namespace Sys2Proof.Machine

variable {c : Chip} {h : Hub} {v : Hv} {s : State}

/-! `PowerOps`: The operations on trunk power ports (11). -/

theorem Hv.StoresWf.modTpw {p f} (hv : v.StoresWf) : (v.modTpw p f).StoresWf := hv.frame (by rfl)

theorem Hv.StoresWf.modSw {p f} (hv : v.StoresWf) : (v.modSw p f).StoresWf := hv.modTpw

theorem Hv.StoresWf.refreshPort {p} (hv : v.StoresWf) : (v.refreshPort p).StoresWf := hv.put.put

theorem Hv.StoresWf.refresh (hv : v.StoresWf) : v.refresh.StoresWf := (hv.foldl (fun hv => hv.refreshPort)).put.put

theorem Hv.StoresWf.setPg {p b} (hv : v.StoresWf) : (v.setPg p b).StoresWf := .ite hv hv.put.flag.modTpw

theorem Hv.StoresWf.enter {p st} (hv : v.StoresWf) : (v.enter p st).StoresWf :=
  (((hv.put.when fun hv => hv.flag).when fun hv => hv.setPg).when fun hv => hv.put).put.modTpw.refresh

theorem Hv.StoresWf.startRamp {p least} (hv : v.StoresWf) : (v.startRamp p least).StoresWf := by
  unfold Hv.startRamp
  exact hv.enter.modSw

theorem Hv.StoresWf.closeSink {p} (hv : v.StoresWf) : (v.closeSink p).StoresWf := by
  unfold Hv.closeSink
  exact hv.enter.when fun hv => hv.put.modTpw

theorem Hv.StoresWf.setContract {p w i dir frsOk} (hv : v.StoresWf) : (v.setContract p w i dir frsOk).StoresWf :=
  hv.put.put.put.put.put.refresh

theorem Hv.StoresWf.bootContract {p dir} (hv : v.StoresWf) : (v.bootContract p dir).StoresWf := hv.setContract

theorem Hv.StoresWf.mirror {p dir} (hv : v.StoresWf) : (v.mirror p dir).StoresWf := hv.put.refresh

theorem Hub.StoresWf.onLiveHv {f} (hh : h.StoresWf) (hf : ∀ {v : Hv}, v.StoresWf → (f v).StoresWf) : (h.onLiveHv f).StoresWf :=
  hh.when fun hh => hh.onHv hf

theorem Hub.StoresWf.live {f} (hh : h.StoresWf) (hf : ∀ {h : Hub}, h.StoresWf → (f h).StoresWf) : (h.live f).StoresWf := hh.when hf

theorem Hub.StoresWf.powerAlarm {code unit detail} (hh : h.StoresWf) : (h.powerAlarm code unit detail).StoresWf :=
  hh.onChip fun hc => hc.when fun hc => hc.raiseOwn

theorem Hub.StoresWf.powerClear {code unit detail} (hh : h.StoresWf) : (h.powerClear code unit detail).StoresWf :=
  hh.onChip fun hc => hc.when fun hc => hc.clearOwn

theorem Hub.StoresWf.floorHint (hh : h.StoresWf) : h.floorHint.StoresWf := hh.onChip fun hc => hc.put

theorem Hub.StoresWf.paths {f} (hf : ∀ {h : Hub}, h.StoresWf → (f h).StoresWf) (hh : h.StoresWf) : (h.paths f).StoresWf :=
  (hf hh).when fun hh => hh.floorHint

theorem Completes.onPaths {f} (hf : ∀ {h : Hub}, h.StoresWf → (f h).StoresWf) : Completes s (s.onPaths f) := .onHub fun hh => hh.paths hf

theorem Hv.StoresWf.guardFail {p} (hv : v.StoresWf) : (v.guardFail p).StoresWf := hv.put.put.put.enter.flag

theorem Hub.StoresWf.guardFail {p} (hh : h.StoresWf) : (h.guardFail p).StoresWf :=
  hh.when fun hh => hh.paths (fun hh => (hh.onHv fun hv => hv.guardFail).onChip fun hc => hc.frame (by rfl))

theorem Hv.StoresWf.portFault {p cause} (hv : v.StoresWf) : (v.portFault p cause).StoresWf := hv.put.put.modTpw.inc.flag.enter

theorem Hub.StoresWf.portLatch {p} (hh : h.StoresWf) : (h.portLatch p).StoresWf := (hh.onHv fun hv => hv.enter.flag).onChip fun hc => hc.put

theorem Hub.StoresWf.portSpent {p} (hh : h.StoresWf) : (h.portSpent p).StoresWf := hh.when fun hh => hh.portLatch.powerAlarm

theorem Hub.StoresWf.portFault {p cause} (hh : h.StoresWf) : (h.portFault p cause).StoresWf :=
  hh.when fun hh => hh.paths (fun hh => (hh.onHv fun hv => hv.portFault).guardFail.portSpent)

theorem Hv.StoresWf.reenter {p} (hv : v.StoresWf) : (v.reenter p).StoresWf := .ite hv.closeSink (.ite hv.startRamp hv.enter)

theorem Hv.StoresWf.portLimiter {p holding} (hv : v.StoresWf) : (v.portLimiter p holding).StoresWf :=
  .ite hv (hv.put.when fun hv => hv.put).modSw

theorem Hub.StoresWf.reference {smp sel} (hh : h.StoresWf) : (h.reference smp sel).2.2.StoresWf := by
  fun_cases Hub.reference
  · exact hh
  · exact ⟨(hh.chip.frame (by rfl)), hh.hv⟩

theorem Hv.StoresWf.samplePort {smp p tRef valid now} (hv : v.StoresWf) : (v.samplePort smp p tRef valid now).StoresWf :=
  (((hv.modSw.when fun hv => hv.modSw).when fun hv => hv.put.modTpw).when fun hv => hv.modTpw).when fun hv => hv.modSw

theorem Hub.StoresWf.portThermal {p} (hh : h.StoresWf) : (h.portThermal p).StoresWf := hh.when fun hh => hh.portFault

theorem Hub.StoresWf.portStep {smp p} (hh : h.StoresWf) : (h.portStep smp p).StoresWf := by
  fun_cases Hub.portStep
  next e => exact .portThermal (.onHv (by simpa [e] using hh.reference (smp := smp) (sel := h.hv.get (F.TPW_P_SENSE_T_REF p)))
    fun hv => hv.samplePort)

theorem Hub.StoresWf.roleResolution {p} (hh : h.StoresWf) : (h.roleResolution p).StoresWf :=
  hh.when fun hh => .ite ((hh.onHv fun hv => hv.put).when fun hh => hh.onChip fun hc => hc.frame (by rfl)).powerAlarm (((hh.onHv
    fun hv => hv.put).when fun hh => hh.onChip fun hc => hc.frame (by rfl)).when fun hh => hh.onChip fun hc => hc.clearOwn)

/-! `LoadOps`: The operations on load channels (12). -/

theorem Hv.StoresWf.modLdc {y f} (hv : v.StoresWf) : (v.modLdc y f).StoresWf := hv.frame (by rfl)

theorem Hv.StoresWf.modCsw {y f} (hv : v.StoresWf) : (v.modCsw y f).StoresWf := hv.modLdc

theorem Hv.StoresWf.chanFlag {f y} (hv : v.StoresWf) : (v.chanFlag f y).StoresWf := hv.flag

theorem Hv.StoresWf.setChanPg {y b} (hv : v.StoresWf) : (v.setChanPg y b).StoresWf := .ite hv hv.put.putBit.chanFlag.modLdc

theorem Hv.StoresWf.chanEnter {y st} (hv : v.StoresWf) : (v.chanEnter y st).StoresWf :=
  ((hv.put.put.when fun hv => hv.setChanPg).when fun hv => hv.put).put.modLdc

theorem Hv.StoresWf.rampRecord {y now} (hv : v.StoresWf) : (v.rampRecord y now).StoresWf := hv.put.put.put.put

theorem Hv.StoresWf.chanOff {y cause} (hv : v.StoresWf) : (v.chanOff y cause).StoresWf := hv.put.chanEnter

theorem Hv.StoresWf.chanLatch {y} (hv : v.StoresWf) : (v.chanLatch y).StoresWf := (hv.when fun hv => hv.inc).chanEnter.chanFlag

theorem Hv.StoresWf.chanFault {y cause now} (hv : v.StoresWf) : (v.chanFault y cause now).StoresWf :=
  .ite (hv.when fun hv => hv.rampRecord).put.inc.chanFlag.chanLatch (hv.when fun hv => hv.rampRecord).put.inc.chanFlag.chanEnter

theorem Hub.StoresWf.chanFault {y cause} (hh : h.StoresWf) : (h.chanFault y cause).StoresWf :=
  hh.when fun hh => (hh.onHv fun hv => hv.chanFault).when fun hh => (hh.onChip fun hc => hc.put).powerAlarm

theorem Hv.StoresWf.chanLimiter {y holding} (hv : v.StoresWf) : (v.chanLimiter y holding).StoresWf :=
  .ite hv (hv.put.when fun hv => hv.put).modCsw

theorem Hv.StoresWf.feedShed {y} (hv : v.StoresWf) : (v.feedShed y).StoresWf := hv.when fun hv => hv.chanOff.put

theorem Hv.StoresWf.budgetShed {y} (hv : v.StoresWf) : (v.budgetShed y).StoresWf := hv.when fun hv => hv.chanOff.put

theorem Hv.StoresWf.releaseHold {f y} (hv : v.StoresWf) : (v.releaseHold f y).StoresWf :=
  hv.when fun hv => hv.put.when fun hv => hv.chanEnter

theorem Hv.StoresWf.ctlLoss {y} (hv : v.StoresWf) : (v.ctlLoss y).StoresWf := hv.when fun hv => hv.chanOff.put.put

theorem Hub.StoresWf.ctlLoss {y} (hh : h.StoresWf) : (h.ctlLoss y).StoresWf :=
  (hh.onHv fun hv => hv.ctlLoss).when fun hh => hh.onChip fun hc => hc.putBit

theorem Hv.StoresWf.chanReset {y} (hv : v.StoresWf) : (v.chanReset y).StoresWf := hv.put.when fun hv => hv.chanOff

theorem Hv.StoresWf.armAtBoot {y} (hv : v.StoresWf) : (v.armAtBoot y).StoresWf := hv.when fun hv => hv.chanEnter

theorem Hub.StoresWf.endHolds {y} (hh : h.StoresWf) : (h.endHolds y).StoresWf := (hh.onHv fun hv => hv.put.put).onChip fun hc => hc.putBit

theorem Hub.StoresWf.loadCommand {y on off clear} (hh : h.StoresWf) : (h.loadCommand y on off clear).StoresWf :=
  .ite (hh.onHv fun hv => hv.inc) (.ite (hh.endHolds.onHv fun hv => hv.when fun hv => hv.chanEnter) (.ite (hh.endHolds.onHv
    fun hv => hv.when fun hv => hv.chanOff) (.ite (hh.endHolds.when fun hh => (hh.onHv fun hv => hv.put.chanEnter).when
    fun hh => hh.powerClear) hh)))

theorem Hv.StoresWf.sampleChan {smp y tRef valid} (hv : v.StoresWf) : (v.sampleChan smp y tRef valid).StoresWf :=
  ((hv.modCsw.when fun hv => hv.modLdc).when fun hv => hv.put).when fun hv => hv.modCsw

theorem Hub.StoresWf.chanThermal {y} (hh : h.StoresWf) : (h.chanThermal y).StoresWf := hh.when fun hh => hh.chanFault

theorem Hub.StoresWf.chanStep {smp y} (hh : h.StoresWf) : (h.chanStep smp y).StoresWf := by
  fun_cases Hub.chanStep
  next e => exact .chanThermal (.onHv (by simpa [e] using hh.reference (smp := smp) (sel := h.hv.get (F.LDC_L_SENSE_T_REF y)))
    fun hv => hv.sampleChan)

theorem Hub.StoresWf.chanStart {y} (hh : h.StoresWf) : (h.chanStart y).StoresWf := by
  unfold Hub.chanStart
  exact (hh.onHv fun hv => hv.inc.chanFlag.chanEnter.modLdc).onChip fun hc => hc.when fun hc => (hc.frame (by rfl)).put

theorem Hub.StoresWf.slotStart (hh : h.StoresWf) : h.slotStart.StoresWf := by
  fun_cases Hub.slotStart
  · exact (hh.onChip fun hc => hc.when fun hc => hc.add.flag).chanStart
  · exact hh.onChip fun hc => hc.when fun hc => hc.add.flag

/-! `TpOps`: The operations of the Towpath engine (03 R109 to R119) that its commands share. -/

theorem Chip.StoresWf.queueFrame {p f} (hc : c.StoresWf) : (c.queueFrame p f).StoresWf := hc.modTp

theorem Chip.StoresWf.setRequest {p old new} (hc : c.StoresWf) : (c.setRequest p old new).StoresWf := hc.modTp

theorem Chip.StoresWf.requestWith {p hdr payload fw escalates} (hc : c.StoresWf) : (c.requestWith p hdr payload fw escalates).StoresWf :=
  hc.queueFrame.modTp

theorem Chip.StoresWf.request {p cls payload fw escalates} (hc : c.StoresWf) : (c.request p cls payload fw escalates).StoresWf :=
  hc.requestWith

theorem Chip.StoresWf.fwResult {p r res} (hc : c.StoresWf) : (c.fwResult p r res).StoresWf := hc.when fun hc => hc.put

theorem Chip.StoresWf.fwEnds {p res r} (hc : c.StoresWf) : (c.fwEnds p res r).StoresWf := hc.fwResult.when fun hc => hc.flag

theorem Chip.StoresWf.dropRequest {p r} (hc : c.StoresWf) : (c.dropRequest p r).StoresWf := hc.modTp

theorem Chip.StoresWf.keepAnswer {p cls seq f} (hc : c.StoresWf) : (c.keepAnswer p cls seq f).StoresWf := hc.queueFrame.modTp

theorem Chip.StoresWf.sendAnswer {p cls seq payload} (hc : c.StoresWf) : (c.sendAnswer p cls seq payload).StoresWf := hc.keepAnswer

theorem Chip.StoresWf.sendAnswerFw {p hdr payload} (hc : c.StoresWf) : (c.sendAnswerFw p hdr payload).StoresWf := hc.keepAnswer

theorem Chip.StoresWf.helloTaken {p payload} (hc : c.StoresWf) : (c.helloTaken p payload).StoresWf :=
  hc.put.modTp.modLnk.when fun hc => hc.duplicateId

theorem Chip.StoresWf.sendAgain {p r stage} (hc : c.StoresWf) : (c.sendAgain p r stage).StoresWf :=
  hc.setRequest.queueFrame.modTp.when fun hc => hc.put

theorem Chip.StoresWf.tpRestart {p keep} (hc : c.StoresWf) : (c.tpRestart p keep).StoresWf := by
  fun_cases Chip.tpRestart
  · exact (hc.each fun hc => hc.fwEnds).modTp.sendAgain.put
  · exact (hc.each fun hc => hc.fwEnds).modTp.put

theorem Chip.StoresWf.sendBreak {p by_} (hc : c.StoresWf) : (c.sendBreak p by_).StoresWf := (hc.emit.each fun hc => hc.fwEnds).modTp.put

theorem Chip.StoresWf.escalate {p r} (hc : c.StoresWf) : (c.escalate p r).StoresWf := hc.setRequest.queueFrame.modTp.put.fwResult

theorem Chip.StoresWf.escalationEnd {p r noStatus} (hc : c.StoresWf) : (c.escalationEnd p r noStatus).StoresWf :=
  .ite (hc.flag.when fun hc => hc.raise.when fun hc => hc.raise).sendBreak.put (hc.flag.when fun hc => hc.raise.when
    fun hc => hc.raise).dropRequest.put.fwEnds

theorem Chip.StoresWf.tpTimeout {p seq} (hc : c.StoresWf) : (c.tpTimeout p seq).StoresWf := by
  fun_cases Chip.tpTimeout
  · exact hc
  · exact hc
  · exact ((hc.when fun hc => hc.inc).when fun hc => hc.put).setRequest.queueFrame
  · exact (hc.when fun hc => hc.inc).setRequest.queueFrame
  · exact (hc.when fun hc => hc.inc).escalate
  · exact hc.when fun hc => hc.inc
  · exact (hc.when fun hc => hc.inc).setRequest.queueFrame
  · exact (hc.when fun hc => hc.inc).setRequest.queueFrame
  · exact (hc.when fun hc => hc.inc).escalationEnd
  · exact hc.when fun hc => hc.inc
  · exact (hc.when fun hc => hc.inc).setRequest.queueFrame
  · exact (hc.when fun hc => hc.inc).setRequest.queueFrame
  · exact (hc.when fun hc => hc.inc).escalationEnd
  · exact (hc.when fun hc => hc.inc).setRequest.queueFrame
  · exact (hc.when fun hc => hc.inc).setRequest.queueFrame
  · exact (hc.when fun hc => hc.inc).escalationEnd

theorem Chip.StoresWf.unanswered {p res r} (hc : c.StoresWf) : (c.unanswered p res r).StoresWf := hc.dropRequest.inc.fwEnds

theorem Chip.StoresWf.abandonedFrame {p f} (hc : c.StoresWf) : (c.abandonedFrame p f).StoresWf := by
  fun_cases Chip.abandonedFrame
  · exact hc
  · exact hc.unanswered
  · exact hc.tpTimeout

theorem Chip.StoresWf.toMailbox {p hdr payload} (hc : c.StoresWf) : (c.toMailbox p hdr payload).StoresWf :=
  .ite hc (hc.put.each fun hc => hc.put).modTp.flag

/-! `AdmitOps`: Roots, commits and link admission (13 R398 to R409, R415 to R419). -/

theorem Chip.StoresWf.fusesPart (hc : c.StoresWf) : c.fusesPart.StoresWf := by
  fun_cases Chip.fusesPart
  · exact hc
  · exact (hc.draw.of_eq ‹_›).frame (by rfl)
  · exact (hc.draw.of_eq ‹_›).frame (by rfl)

theorem Chip.StoresWf.show256 {f k} (hc : c.StoresWf) : (c.show256 f k).StoresWf := hc.each fun hc => hc.put

theorem Chip.StoresWf.commitKey {pair k engines origin bind version} (hc : c.StoresWf) :
    (c.commitKey pair k engines origin bind version).StoresWf := by
  fun_cases Chip.commitKey
  exact .setSlot (.ite (hc.keyCount.drawMask.of_eq ‹_›).setSlot (hc.keyCount.drawMask.of_eq ‹_›).clearSlot)

theorem Chip.StoresWf.blankFlr (hc : c.StoresWf) : c.blankFlr.StoresWf := by
  fun_cases Chip.blankFlr
  · exact hc
  · exact hc.when fun hc => hc.keyCount.commitKey

theorem Chip.StoresWf.deriveMkb (hc : c.StoresWf) : c.deriveMkb.StoresWf := by
  fun_cases Chip.deriveMkb
  · exact hc
  · exact (hc.frame (by rfl)).keyCount.keyCount.commitKey.put

theorem Chip.StoresWf.dropMkb (hc : c.StoresWf) : c.dropMkb.StoresWf :=
  (((hc.frame (by rfl)).each fun hc => hc.clearSlot).each fun hc => hc.when fun hc => hc.clearSlot).put

theorem Chip.StoresWf.modAdm {p f} (hc : c.StoresWf) : (c.modAdm p f).StoresWf := hc.frame (by rfl)

theorem Chip.StoresWf.keyxRequest {p payload} (hc : c.StoresWf) : (c.keyxRequest p payload).StoresWf := hc.request.put.put

theorem Chip.StoresWf.keyxAnswer {p seq payload} (hc : c.StoresWf) : (c.keyxAnswer p seq payload).StoresWf := hc.sendAnswerFw

theorem Chip.StoresWf.admissionFailed {p reason} (hc : c.StoresWf) : (c.admissionFailed p reason).StoresWf :=
  hc.inc.flag.keyCount.put.raiseLink.clearPortKeys.startBackoff.portUnrouted

theorem Chip.StoresWf.startAdmission {p} (hc : c.StoresWf) : (c.startAdmission p).StoresWf :=
  .ite hc (.ite hc.admissionFailed (.ite hc.admissionFailed (hc.frame (by rfl)).modAdm.put.keyxRequest))

theorem Chip.StoresWf.deriveSession {p} (hc : c.StoresWf) : (c.deriveSession p).StoresWf := hc.when fun hc => hc.keyCount.keyCount

theorem Chip.StoresWf.admitted {p flr prev} (hc : c.StoresWf) : (c.admitted p flr prev).StoresWf :=
  (hc.clearPortKeys.commitKey.deriveTx.deriveRx.put.put.put.put.put.modAdm.when fun hc => hc.raiseLink).when fun hc => hc.portAdmitted

theorem Chip.StoresWf.helloKRx {p hdr payload} (hc : c.StoresWf) : (c.helloKRx p hdr payload).StoresWf := by
  fun_cases Chip.helloKRx
  · exact hc
  · exact hc.keyxRequest.admissionFailed
  · exact hc.keyxRequest.admissionFailed
  · exact hc.modAdm.deriveSession.keyxRequest
  · exact hc.keyxAnswer
  · exact hc.keyxAnswer.admissionFailed
  · exact hc.keyxAnswer.admissionFailed
  · exact hc.keyxAnswer.admissionFailed
  · exact (hc.drawKey.of_eq ‹_›).modAdm.deriveSession.put.keyxAnswer

theorem Chip.StoresWf.confirmRx {p hdr payload} (hc : c.StoresWf) : (c.confirmRx p hdr payload).StoresWf := by
  fun_cases Chip.confirmRx
  · exact hc
  · exact hc.when fun hc => hc.keyxAnswer.admissionFailed
  · exact hc
  · exact hc.admitted
  · exact hc.keyxRequest.admissionFailed
  · exact hc
  · exact hc.admitted.keyxAnswer
  · exact hc.keyxAnswer.admissionFailed

theorem Chip.StoresWf.failRx {p hdr payload} (hc : c.StoresWf) : (c.failRx p hdr payload).StoresWf :=
  (hc.when fun hc => hc.keyxAnswer).when fun hc => hc.admissionFailed

theorem Chip.StoresWf.keyxFrame {p hdr payload} (hc : c.StoresWf) : (c.keyxFrame p hdr payload).StoresWf := by
  fun_cases Chip.keyxFrame
  · exact hc
  · exact hc.helloKRx
  · exact hc.confirmRx
  · exact hc.failRx
  · exact hc

/-! `Keys`: The commands of the key store (13). -/

theorem Chip.StoresWf.lcEnds {result} (hc : c.StoresWf) : (c.lcEnds result).StoresWf := hc.put.put.flag

theorem Chip.StoresWf.lcStart {cmd} (hc : c.StoresWf) : (c.lcStart cmd).StoresWf := hc.frame (by rfl)

theorem Chip.StoresWf.showFuses (hc : c.StoresWf) : c.showFuses.StoresWf := hc.put.put

theorem Chip.StoresWf.lcDone {fuseOk} (hc : c.StoresWf) : (c.lcDone fuseOk).StoresWf := by
  fun_cases Chip.lcDone
  · exact hc
  · exact .lcEnds (.flag (.showFuses (.frame (.ite hc hc.fusesPart) (by rfl))))
  · exact .lcEnds (.showFuses (.frame (.frame (.ite hc hc.fusesPart) (by rfl)) (by rfl)))

theorem Completes.execLcCmdDone {fuseOk} : Completes s (execLcCmdDone fuseOk s) := .onChip fun hc => hc.when fun hc => hc.lcDone

theorem Chip.StoresWf.provGo (hc : c.StoresWf) : c.provGo.StoresWf := hc.put.frame (by rfl)

theorem Chip.StoresWf.provAct {r k fuseOk} (hc : c.StoresWf) : (c.provAct r k fuseOk).2.StoresWf := by
  fun_cases Chip.provAct
  · exact hc.commitKey
  · exact hc.clearSlot
  · exact hc.flag
  · exact hc.frame (by rfl)
  · exact (hc.frame (by rfl)).show256

theorem Chip.StoresWf.provDone {fuseOk} (hc : c.StoresWf) : (c.provDone fuseOk).StoresWf := by
  fun_cases Chip.provDone
  · exact hc
  · next d e d₁ d₂ d₃ =>
    have hu : ∀ {b}, (c.when b fun c => c.keyCount 88).StoresWf := hc.when fun hc => hc.keyCount
    have hd : d.StoresWf := by
      refine .of_eq ?_ e
      dsimp +zetaDelta only
      split
      exacts [hu, hu.provAct]
    have hd₂ : d₂.StoresWf := (hd.when fun hc => hc.keyCount).each fun hc => hc.put
    exact (hd₂.frame (d := d₃) rfl).put.put.flag

theorem Completes.execProvRecordDone {fuseOk} : Completes s (execProvRecordDone fuseOk s) := .onChip fun hc => hc.when fun hc => hc.provDone

theorem Chip.StoresWf.watermarkGo {session} (hc : c.StoresWf) : (c.watermarkGo session).StoresWf := hc.put.put

theorem Chip.StoresWf.watermarkDone (hc : c.StoresWf) : c.watermarkDone.StoresWf := by
  unfold Chip.watermarkDone
  refine .flag (.ite (hc.put.countSlotRefused.put.when fun hc => hc.show256) (hc.put.show256.put.keyCount.when fun hc => ?_))
  extract_lets d
  exact Chip.StoresWf.frame (c := d) hc.keyCount.commitKey (by rfl)

theorem Completes.execWatermarkDone : Completes s (execWatermarkDone s) := .onChip fun hc => hc.when fun hc => hc.watermarkDone

theorem Completes.execAdmissionStart {p} : Completes s (execAdmissionStart p s) := .onChip fun hc => hc.when fun hc => hc.startAdmission

theorem Completes.execAdmitTimeout {p} : Completes s (execAdmitTimeout p s) := .onChip fun hc => hc.when fun hc => hc.admissionFailed

theorem Chip.StoresWf.backoffEnds {p} (hc : c.StoresWf) : (c.backoffEnds p).StoresWf := hc.modAdm.put.put.when fun hc => hc.startAdmission

theorem Completes.execAdmitBackoffExpiry {p} : Completes s (execAdmitBackoffExpiry p s) :=
  .onChip fun hc => hc.when fun hc => hc.backoffEnds

theorem Chip.StoresWf.readmit {p} (hc : c.StoresWf) : (c.readmit p).StoresWf :=
  hc.when fun hc => (hc.when fun hc => hc.awaitAdmission).when fun hc => hc.startAdmission

theorem Chip.StoresWf.remaskSlot {flip n} (hc : c.StoresWf) : (c.remaskSlot flip n).StoresWf := by
  fun_cases Chip.remaskSlot
  exact (hc.drawMask.of_eq ‹_›).setSlot

theorem Chip.StoresWf.remaskPass (hc : c.StoresWf) : c.remaskPass.StoresWf :=
  ((hc.each fun hc => hc.remaskSlot).when fun hc => hc.put).frame (by rfl)

theorem Completes.execRemaskPass : Completes s (execRemaskPass s) := .onChip fun hc => hc.when fun hc => hc.remaskPass

theorem Completes.execEntropyHealthFail : Completes s (execEntropyHealthFail s) := .onChip fun hc => hc.when fun hc => hc.put.flag.raiseOwn

theorem Completes.execEntropyHealthPass : Completes s (execEntropyHealthPass s) :=
  .onChip fun hc => hc.when fun hc => (hc.when fun hc => hc.clearOwn).put

theorem Chip.StoresWf.clearSecrets (hc : c.StoresWf) : c.clearSecrets.StoresWf :=
  (((hc.each fun hc => hc.clearSlot).each fun hc => hc.clearPortKeys.admissionEnds.portUnrouted).frame
    (by rfl)).put.put.put.put.flag.keyCount

theorem Chip.StoresWf.privateInstruction (hc : c.StoresWf) : c.privateInstruction.StoresWf := by
  fun_cases Chip.privateInstruction
  · exact hc.put
  · exact hc.when fun hc => hc.clearSecrets
  · exact hc.clearSecrets

theorem Completes.execTapPrivateInstruction : Completes s (execTapPrivateInstruction s) := .onChip fun hc => hc.privateInstruction

theorem Chip.StoresWf.captureChallenge (hc : c.StoresWf) : c.captureChallenge.StoresWf := hc.when fun hc => hc.frame (by rfl)

theorem Completes.execUnlockChalCapture : Completes s (execUnlockChalCapture s) := .onChip fun hc => hc.captureChallenge

theorem Chip.StoresWf.unlockResponse {resp} (hc : c.StoresWf) : (c.unlockResponse resp).StoresWf :=
  .ite hc (.ite ((hc.when fun hc => hc.keyCount).frame (by rfl)) ((hc.when fun hc => hc.keyCount).frame (by rfl)))

theorem Completes.execUnlockRespWrite {response} : Completes s (execUnlockRespWrite response s) := .onChip fun hc => hc.unlockResponse

theorem Completes.execUnlockBlockExpiry : Completes s (execUnlockBlockExpiry s) := .onChip fun hc => hc.frame (by rfl)

/-! `Gates`: Time gates, takeovers, weir commits and the scheduler's readback (06 R199, R205 to R208, R223, R528). -/

theorem Chip.StoresWf.setGateRun {e r} (hc : c.StoresWf) : (c.setGateRun e r).StoresWf := hc.modSch

theorem Chip.StoresWf.showGate {e n} (hc : c.StoresWf) : (c.showGate e n).StoresWf := hc.put.put

theorem Chip.StoresWf.gateAdvance {e} (hc : c.StoresWf) : (c.gateAdvance e).StoresWf := .ite hc hc.setGateRun.showGate

theorem Completes.execGateEntryAdvance {port} : Completes s (execGateEntryAdvance port s) := .onChip fun hc => hc.gateAdvance

theorem Chip.StoresWf.gateCycleStart {e} (hc : c.StoresWf) : (c.gateCycleStart e).StoresWf := .ite hc hc.setGateRun.showGate

theorem Completes.execGateCycleStart {port} : Completes s (execGateCycleStart port s) := .onChip fun hc => hc.gateCycleStart

theorem Chip.StoresWf.gatesInitial (hc : c.StoresWf) : c.gatesInitial.StoresWf := .ite hc (hc.each fun hc => .ite hc hc.setGateRun.showGate)

theorem Chip.StoresWf.gateReplace {e} (hc : c.StoresWf) : (c.gateReplace e).StoresWf := .ite hc hc.setGateRun.showGate

theorem Chip.StoresWf.takeover {e} (hc : c.StoresWf) : (c.takeover e).StoresWf := by
  unfold Chip.takeover
  exact hc.put.showGate.flag.put.flag.modSch

theorem Chip.StoresWf.takeovers (hc : c.StoresWf) : c.takeovers.StoresWf := hc.each fun hc => hc.when fun hc => hc.takeover

theorem Chip.StoresWf.gatesStepped (hc : c.StoresWf) : c.gatesStepped.StoresWf := hc.takeovers.each fun hc => hc.gateReplace

theorem Completes.execGateTakeover {port} : Completes s (execGateTakeover port s) := .onChip fun hc => hc.when fun hc => hc.takeover

theorem Chip.StoresWf.armTakeover {e} (hc : c.StoresWf) : (c.armTakeover e).StoresWf := .ite hc.flag.flag hc.put

theorem Chip.StoresWf.takeCtlWrite {e x} (hc : c.StoresWf) : (c.takeCtlWrite e x).StoresWf :=
  (hc.when fun hc => hc.put).put.when fun hc => hc.armTakeover

theorem Chip.StoresWf.weirCommit {n w0} (hc : c.StoresWf) : (c.weirCommit n w0).StoresWf := by
  unfold Chip.weirCommit
  exact hc.commitStaged.put.modSch

theorem Chip.StoresWf.resetQueueShaper {e q} (hc : c.StoresWf) : (c.resetQueueShaper e q).StoresWf := hc.modSch

theorem Chip.StoresWf.resetPortShaper {e} (hc : c.StoresWf) : (c.resetPortShaper e).StoresWf := hc.modSch

theorem Chip.StoresWf.resetBulkShapers (hc : c.StoresWf) : c.resetBulkShapers.StoresWf := hc.modSch

theorem Chip.StoresWf.settleBulk (hc : c.StoresWf) : c.settleBulk.StoresWf := hc.modSch

theorem Chip.StoresWf.takeQueueSnapshot (hc : c.StoresWf) : c.takeQueueSnapshot.StoresWf := hc.modSch

end Sys2Proof.Machine
end

section
/-! What every step keeps of the stores: Time, Link, Usb, VHub, UsbXfer. -/

namespace Sys2Proof.Machine

variable {c : Chip} {h : Hub} {v : Hv} {s : State}

/-! `Time`: Fabric time and discovery (04 R121, R155 to R161; 03 R102, R103). -/

theorem Chip.StoresWf.electMaster (hc : c.StoresWf) : c.electMaster.StoresWf :=
  .when (.when (by split; exacts [hc.put.put, hc.put.put.put.put.put]) fun hc => hc.modFab) fun hc => hc.flag

theorem Chip.StoresWf.stepTime {delta} (hc : c.StoresWf) : (c.stepTime delta).StoresWf := (hc.put.frame (by rfl)).flag.gatesStepped

theorem Chip.StoresWf.steerBy {e} (hc : c.StoresWf) : (c.steerBy e).StoresWf :=
  .ite hc (.ite (hc.frame (by rfl)).modFab (hc.frame (by rfl)).modFab)

theorem Chip.StoresWf.unlockTime (hc : c.StoresWf) : c.unlockTime.StoresWf := by
  unfold Chip.unlockTime
  exact (hc.when fun hc => hc.flag).put.put.modFab

theorem Chip.StoresWf.lockTime (hc : c.StoresWf) : c.lockTime.StoresWf := by
  unfold Chip.lockTime
  exact (hc.when fun hc => hc.flag).put.put.modFab

theorem Chip.StoresWf.masterBack {id} (hc : c.StoresWf) : (c.masterBack id).StoresWf := hc.clearAbout

theorem Chip.StoresWf.takeOffset {p t rxTime} (hc : c.StoresWf) : (c.takeOffset p t rxTime).StoresWf :=
  .ite (hc.putS.when fun hc => hc.stepTime).steerBy.unlockTime (.ite (.ite (hc.putS.when fun hc => hc.stepTime).steerBy.modFab.lockTime
    (hc.putS.when fun hc => hc.stepTime).steerBy.modFab) (hc.putS.when fun hc => hc.stepTime).steerBy.modFab)

theorem Chip.StoresWf.tickRx {p t rxTime} (hc : c.StoresWf) : (c.tickRx p t rxTime).StoresWf :=
  .ite hc ((hc.when fun hc => hc.modFab.electMaster.masterBack).when fun hc => hc.takeOffset)

theorem Chip.StoresWf.sendTick {p} (hc : c.StoresWf) : (c.sendTick p).StoresWf := .ite hc (hc.frame (by rfl)).pcsSendFirst

theorem Chip.StoresWf.delayRespRx {p dseq t2 t3 t4} (hc : c.StoresWf) : (c.delayRespRx p dseq t2 t3 t4).StoresWf := by
  fun_cases Chip.delayRespRx
  · exact hc
  · exact hc
  · exact hc.modLnk
  · exact hc.modLnk.modFab.putS.put

theorem Completes.execTimeKeyLapse {p} : Completes s (execTimeKeyLapse p s) := .onChip fun hc => hc.modFab.electMaster

theorem Completes.execUpstreamTickTimeout : Completes s (execUpstreamTickTimeout s) := .onChip fun hc => hc.when fun hc => hc.unlockTime

theorem Chip.StoresWf.hostSofLock {x} (hc : c.StoresWf) : (c.hostSofLock x).StoresWf :=
  .ite hc.modFab.electMaster (((hc.modFab.electMaster.when fun hc => hc.stepTime).when fun hc => hc.put.put).modFab.steerBy.when
    fun hc => hc.each fun hc => hc.sendSofOffset)

theorem Completes.execHostSofLock {sof} : Completes s (execHostSofLock sof s) := .onChip fun hc => hc.hostSofLock

theorem Completes.execHostSofBreak : Completes s (execHostSofBreak s) := .onChip fun hc => hc.modFab.electMaster

theorem Chip.StoresWf.masterAbsent (hc : c.StoresWf) : c.masterAbsent.StoresWf := hc.modFab.each fun hc => hc.raise

theorem Completes.execTimeMasterAbsent : Completes s (execTimeMasterAbsent s) := .onChip fun hc => hc.masterAbsent

theorem Chip.StoresWf.announce {a l} (hc : c.StoresWf) : (c.announce a l).StoresWf :=
  hc.each fun hc => (((hc.frame (by rfl)).frame (by rfl)).frame (by rfl)).modSwc

theorem Chip.StoresWf.announceOwn (hc : c.StoresWf) : c.announceOwn.StoresWf := hc.modFab.announce

theorem Completes.execDiscoveryAnnounceTx : Completes s (execDiscoveryAnnounceTx s) := .onChip fun hc => hc.when fun hc => hc.announceOwn

theorem Chip.StoresWf.announceRx {p a} (hc : c.StoresWf) : (c.announceRx p a).StoresWf :=
  .ite hc (hc.modFab.announce.when fun hc => hc.duplicateId)

theorem Completes.execDiscoveryAnnounceRx {p a} : Completes s (execDiscoveryAnnounceRx p a s) :=
  .onChip fun hc => hc.when fun hc => hc.announceRx

/-! `Link`: The link layer (03 R86 to R107, R523). -/

theorem Chip.StoresWf.txLimit {p} (hc : c.StoresWf) : (c.txLimit p).StoresWf := hc.when fun hc => hc.put.flag

theorem Chip.StoresWf.sendBarge {p lseq b} (hc : c.StoresWf) : (c.sendBarge p lseq b).StoresWf :=
  .ite hc.countSlotRefused (hc.each fun hc => hc.pcsSend).put.txLimit

theorem Chip.StoresWf.linkResend {p lseq} (hc : c.StoresWf) : (c.linkResend p lseq).StoresWf := by
  fun_cases Chip.linkResend
  · exact hc
  · exact hc.modLnk.inc.sendBarge
  · exact hc.modLnk

theorem Chip.StoresWf.linkResendAll {p} (hc : c.StoresWf) : (c.linkResendAll p).StoresWf := hc.each fun hc => hc.linkResend

theorem Chip.StoresWf.replayFrom {p l} (hc : c.StoresWf) : (c.replayFrom p l).StoresWf := hc.modLnk.linkResendAll

theorem Chip.StoresWf.showReplay {p} (hc : c.StoresWf) : (c.showReplay p).StoresWf := hc.put

theorem Chip.StoresWf.bargeTx {p} (hc : c.StoresWf) : (c.bargeTx p).StoresWf := by
  fun_cases Chip.bargeTx
  · exact hc.linkResendAll
  · exact hc.linkResendAll.modLnk.egressDrop
  · exact hc.linkResendAll.modLnk.egressDrop
  · exact hc.linkResendAll
  · exact hc.linkResendAll.modLnk.egressDrop
  · exact hc.linkResendAll
  · exact hc.linkResendAll.modLnk.modLnk.inc.showReplay.sendBarge

theorem Completes.execLinkBargeTx {p} : Completes s (execLinkBargeTx p s) := .onChip fun hc => hc.bargeTx

theorem Chip.StoresWf.permanentError {p} (hc : c.StoresWf) : (c.permanentError p).StoresWf := hc.flag.linkLost

theorem Chip.StoresWf.authFail {p tag} (hc : c.StoresWf) : (c.authFail p tag).StoresWf :=
  .ite (hc.when fun hc => hc.keyCount).inc.flag.modLnk.inc.flag.raiseLink.linkLost.startBackoff (hc.when
    fun hc => hc.keyCount).inc.flag.modLnk

theorem Chip.StoresWf.sendLack {p} (hc : c.StoresWf) : (c.sendLack p).StoresWf := hc.when fun hc => hc.pcsSend.modLnk

theorem Chip.StoresWf.linkDeliver {p clr words ws} (hc : c.StoresWf) : (c.linkDeliver p clr words ws).StoresWf :=
  .ite hc.authFail (.ite hc.inc.sampleDrop (.ite hc hc.modLnk))

theorem Chip.StoresWf.nakCause {p cause} (hc : c.StoresWf) : (c.nakCause p cause).StoresWf := hc.modLnk

theorem Chip.StoresWf.bargeRx {p ws e} (hc : c.StoresWf) : (c.bargeRx p ws e).StoresWf := by
  unfold Chip.bargeRx
  extract_lets expect lseq d words kph clr failed bad
  have hbad : ∀ {c n}, Chip.StoresWf c → (bad c n).StoresWf := fun hc =>
    .ite hc (.ite (.ite hc.permanentError hc.sendNak.nakCause) (.ite hc.inc.modLnk hc.sendNak))
  split
  · exact hbad hc.inc
  · exact hbad hc.authFail
  · exact hbad hc.countSlotRefused.deriveRx
  · exact .ite (((hc.put.when fun hc => hc.inc).when fun hc => hc.put).modLnk.linkDeliver.when fun hc => hc.sendLack)
      (.ite hc.inc.modLnk hc.sendNak)

theorem Chip.StoresWf.coldRx {p n ws e} (hc : c.StoresWf) : (c.coldRx p n ws e).StoresWf := .ite hc (hc.bargeRx.when fun hc => hc.modLnk)

theorem Chip.StoresWf.bargeBlocks {p blocks} (hc : c.StoresWf) : (c.bargeBlocks p blocks).StoresWf := by
  fun_cases Chip.bargeBlocks
  · exact hc
  · exact (hc.each fun hc => hc.takeBlock).bargeRx
  · exact (hc.each fun hc => hc.takeBlock).coldRx

theorem Completes.execLinkBargeRx {p blocks} : Completes s (execLinkBargeRx p blocks s) :=
  .onChip fun hc => hc.when fun hc => hc.bargeBlocks

theorem Completes.execAckDelayExpiry {p} : Completes s (execAckDelayExpiry p s) := .onChip fun hc => hc.when fun hc => hc.sendLack

theorem Chip.StoresWf.ackUpTo {p ack} (hc : c.StoresWf) : (c.ackUpTo p ack).StoresWf := .ite hc.modLnk.put.showReplay hc

theorem Chip.StoresWf.withCtl {p btype b f} (hf : ∀ {c : Chip}, c.StoresWf → (f c).StoresWf) (hc : c.StoresWf) :
    (c.withCtl p btype b f).StoresWf := by
  fun_cases Chip.withCtl
  · exact hc
  · exact hc
  · exact hc.protoError
  · exact hc.linkProto
  · exact hc.takeBlock.linkProto
  · exact hc.takeBlock.when hf

theorem Completes.execLackRx {p blk} : Completes s (execLackRx p blk s) := .onChip fun hc => hc.withCtl (fun hc => hc.ackUpTo)

theorem Completes.execLnakRx {p blk} : Completes s (execLnakRx p blk s) := .onChip fun hc => hc.withCtl (fun hc => hc.ackUpTo.replayFrom)

theorem Completes.execReplayTimeout {p} : Completes s (execReplayTimeout p s) :=
  .onChip fun hc => hc.when fun hc => .ite hc.permanentError hc.modLnk.replayFrom

theorem Chip.StoresWf.linkDisable {p} (hc : c.StoresWf) : (c.linkDisable p).StoresWf := by
  unfold Chip.linkDisable
  exact hc.put.when fun hc => hc.modTrk.raiseLink.linkGone.modTrk.put.put.put.put

theorem Completes.execHeartbeatTx {p} : Completes s (execHeartbeatTx p s) := .onChip fun hc => hc.when fun hc => hc.pcsSend.modLnk

theorem Chip.StoresWf.heartbeatRx {p hello} (hc : c.StoresWf) : (c.heartbeatRx p hello).StoresWf :=
  hc.put.put.modLnk.ackUpTo.partnerRuns.when fun hc => hc.duplicateId

theorem Completes.execHeartbeatRx {p blk} : Completes s (execHeartbeatRx p blk s) := .onChip fun hc => hc.withCtl (fun hc => hc.heartbeatRx)

theorem Completes.execHeartbeatLoss {p} : Completes s (execHeartbeatLoss p s) := .onChip fun hc => hc.when fun hc => hc.flag.inc.linkLost

theorem Completes.execDelayReqTx {p} : Completes s (execDelayReqTx p s) := .onChip fun hc => hc.when fun hc => hc.pcsSend.modLnk

theorem Completes.execDelayReqRx {p blk t2 t3} : Completes s (execDelayReqRx p blk t2 t3 s) :=
  .onChip fun hc => hc.withCtl (fun hc => hc.when fun hc => hc.pcsSend)

theorem Completes.execTickRx {p blk rxTime} : Completes s (execTickRx p blk rxTime s) := .onChip fun hc => hc.withCtl (fun hc => hc.tickRx)

theorem Completes.execDelayRespRx {p blk t4} : Completes s (execDelayRespRx p blk t4 s) :=
  .onChip fun hc => hc.withCtl (fun hc => hc.delayRespRx)

theorem Completes.execLinkNakOutExpiry {p} : Completes s (execLinkNakOutExpiry p s) := .onChip fun hc => hc.modLnk

theorem Chip.StoresWf.requestEpoch {p} (hc : c.StoresWf) : (c.requestEpoch p).StoresWf :=
  .ite hc (.ite (hc.awaitAdmission.when fun hc => hc.startAdmission) hc.deriveTx.put.put)

theorem Completes.execEpochRequest {p aged} : Completes s (execEpochRequest p aged s) := .onChip fun hc => hc.when fun hc => hc.requestEpoch

theorem Completes.execEpochChange {p} : Completes s (execEpochChange p s) :=
  .onChip fun hc => hc.when fun hc => (hc.inc.put.put.put.when fun hc => hc.put).flag.linkResendAll

/-! `Usb`: U0 of a head-end and the leaf ports of its virtual tree (07 R225, R226, R246 to R252). -/

theorem Chip.StoresWf.reply {r} (hc : c.StoresWf) : (c.reply r).StoresWf := hc.emit

theorem Chip.StoresWf.usbU0Reset {vbusLost} (hc : c.StoresWf) : (c.usbU0Reset vbusLost).StoresWf :=
  ((((hc.when fun hc => hc.put.put).each fun hc => hc.portCmd.sendSsHold).each fun hc => hc.vportOff).put.put.when
    fun hc => hc.modUsb.usbAct).modUsb.flag

theorem Completes.execHostU0Reset {vbusLost} : Completes s (execHostU0Reset vbusLost s) := .onChip fun hc => hc.when fun hc => hc.usbU0Reset

theorem Chip.StoresWf.usbConnect {vbus speed} (hc : c.StoresWf) : (c.usbConnect vbus speed).StoresWf :=
  .ite hc (.ite hc.usbU0Reset (((hc.put.when fun hc => hc.modUsb.usbAct).put.when fun hc => hc.put).when fun hc => hc.each
    fun hc => hc.sendSsHold))

theorem Completes.execUsbU0Connect {vbus speed} : Completes s (execUsbU0Connect vbus speed s) := .onChip fun hc => hc.usbConnect

theorem Chip.StoresWf.suspendBelow {l} (hc : c.StoresWf) : (c.suspendBelow l).StoresWf := hc.each fun hc => hc.portCmd.put.modVdev

theorem Chip.StoresWf.resumeBelow {l} (hc : c.StoresWf) : (c.resumeBelow l).StoresWf := hc.each fun hc => hc.portCmd.modVdev

theorem Chip.StoresWf.hostLinkSuspend {low} (hc : c.StoresWf) : (c.hostLinkSuspend low).StoresWf := by
  fun_cases Chip.hostLinkSuspend
  · exact hc.put.suspendBelow
  · exact hc.when fun hc => hc.put
  · exact hc.when fun hc => hc.put

theorem Completes.execHostLinkSuspend {low} : Completes s (execHostLinkSuspend low s) :=
  .onChip fun hc => hc.when fun hc => hc.hostLinkSuspend

theorem Chip.StoresWf.hostLinkResume (hc : c.StoresWf) : c.hostLinkResume.StoresWf := hc.put.resumeBelow

theorem Completes.execHostLinkResume : Completes s (execHostLinkResume s) := .onChip fun hc => hc.when fun hc => hc.hostLinkResume

theorem Chip.StoresWf.hostPortPower {i on} (hc : c.StoresWf) : (c.hostPortPower i on).StoresWf :=
  .ite hc.put (.ite hc.put.portCmd.sendSofOffset hc.portCmd.vportOff)

theorem Completes.execHostPortPower {i on} : Completes s (execHostPortPower i on s) := .onChip fun hc => hc.when fun hc => hc.hostPortPower

theorem Chip.StoresWf.hostPortSuspend {i} (hc : c.StoresWf) : (c.hostPortSuspend i).StoresWf := hc.portCmd.put

theorem Completes.execHostPortSuspend {i} : Completes s (execHostPortSuspend i s) := .onChip fun hc => hc.when fun hc => hc.hostPortSuspend

theorem Chip.StoresWf.hostPortResume {i} (hc : c.StoresWf) : (c.hostPortResume i).StoresWf := by
  unfold Chip.hostPortResume
  exact .modVdev (.ite hc hc.portCmd)

theorem Completes.execHostPortResume {i} : Completes s (execHostPortResume i s) := .onChip fun hc => hc.when fun hc => hc.hostPortResume

theorem Chip.StoresWf.hostPortReset {i warm} (hc : c.StoresWf) : (c.hostPortReset i warm).StoresWf := hc.dropVdev.put.put.put.put.portCmd

theorem Completes.execHostPortReset {i warm} : Completes s (execHostPortReset i warm s) :=
  .onChip fun hc => hc.when fun hc => hc.hostPortReset

theorem Completes.execResetLimitExpiry {i} : Completes s (execResetLimitExpiry i s) :=
  .onChip fun hc => hc.when fun hc => hc.put.put.setChange.flag

theorem Chip.StoresWf.hostLpm {i besl wake} (hc : c.StoresWf) : (c.hostLpm i besl wake).StoresWf := .ite hc.reply.portCmd.put hc.reply

theorem Completes.execHostLpmToken {i besl wake} : Completes s (execHostLpmToken i besl wake s) :=
  .onChip fun hc => hc.when fun hc => hc.hostLpm

theorem Chip.StoresWf.hostPortDisable {i} (hc : c.StoresWf) : (c.hostPortDisable i).StoresWf := hc.dropVdev.portCmd.put

theorem Chip.StoresWf.hostPortTimeout {i second_ x} (hc : c.StoresWf) : (c.hostPortTimeout i second_ x).StoresWf :=
  hc.modVdev.when fun hc => hc.portCmd

/-! `VHub`: The virtual hubs of a head-end (07 R227 to R229, R234). -/

theorem Chip.StoresWf.atAddress {ss addr hub port} (hc : c.StoresWf) (hf : ∀ {a0} {c : Chip}, c.StoresWf → (hub a0 c).StoresWf) (hg
    : ∀ {a0} {c : Chip}, c.StoresWf → (port a0 c).StoresWf) : (c.atAddress ss addr hub port).StoresWf := by
  fun_cases Chip.atAddress
  · exact hf hc
  · exact hg hc
  · exact hc

theorem Chip.StoresWf.leafOff {code i} (hc : c.StoresWf) : (c.leafOff code i).StoresWf := hc.portCmd.vportOff

theorem Chip.StoresWf.leafFeature {i ss set x arg} (hc : c.StoresWf) : (c.leafFeature i ss set x arg).StoresWf := by
  fun_cases Chip.leafFeature
  · exact hc.hostPortPower
  · exact hc.putBit
  · exact hc.when fun hc => .ite hc.hostPortDisable (.ite hc.hostPortResume hc)
  · exact hc.when fun hc => (by split; exacts [hc.hostPortReset, hc.hostPortReset, hc.hostPortSuspend, .ite hc.hostPortSuspend (.ite
      (hc.when fun hc => hc.hostPortResume) (.ite hc.hostPortDisable hc)), hc.hostPortTimeout, hc.hostPortTimeout, hc])

theorem Chip.StoresWf.modUp {n ss f} (hc : c.StoresWf) : (c.modUp n ss f).StoresWf := hc.modVhub

theorem Chip.StoresWf.hubReset {n ss} (hc : c.StoresWf) : (c.hubReset n ss).StoresWf :=
  ((hc.each fun hc => hc.leafOff).each fun hc => hc.vportOff).setVhub.hubErdy

theorem Chip.StoresWf.hubFeature {n ss set x arg} (hc : c.StoresWf) : (c.hubFeature n ss set x arg).StoresWf := by
  fun_cases Chip.hubFeature
  · exact hc.when fun hc => hc.modUp.hubErdy
  · exact ((hc.each fun hc => hc.leafOff).each fun hc => hc.vportOff).setVhub
  · exact hc.modUp
  · exact hc.when fun hc => .ite hc.modUp (.ite (hc.when fun hc => hc.resumeBelow.modUp.hubErdy) hc)
  · exact hc.when fun hc => hc.hubReset
  · exact hc.when fun hc => hc.hubReset
  · exact hc.suspendBelow.modUp
  · exact hc.suspendBelow.modUp
  · exact hc.when fun hc => hc.resumeBelow.modUp.hubErdy
  · exact hc.modUp
  · exact hc
  · exact hc

theorem Chip.StoresWf.hubApply {k ss st} (hc : c.StoresWf) : (c.hubApply k ss st).StoresWf := by
  fun_cases Chip.hubApply
  · exact hc.modVhub
  · exact hc.modVhub.when fun hc => hc.put
  · exact hc.modVhub
  · exact hc.modVhub
  · exact hc.modVhub
  · exact hc.modVhub
  · exact hc.hubFeature
  · exact hc.leafFeature
  · exact hc.hubFeature
  · exact hc.leafFeature
  · exact hc

theorem Chip.StoresWf.hubSetup {k ss bytes} (hc : c.StoresWf) : (c.hubSetup k ss bytes).StoresWf := hc.setVhub.reply

theorem Chip.StoresWf.hubOut {k ss} (hc : c.StoresWf) : (c.hubOut k ss).StoresWf := hc.reply

theorem Chip.StoresWf.hubIn {k ss ep acked} (hc : c.StoresWf) : (c.hubIn k ss ep acked).StoresWf := by
  fun_cases Chip.hubIn
  · exact hc.setVhub.reply
  · exact hc.setVhub.reply
  · exact hc.setVhub.reply
  · exact hc.reply

theorem Chip.StoresWf.hubStatus {k ss} (hc : c.StoresWf) : (c.hubStatus k ss).StoresWf := by
  fun_cases Chip.hubStatus
  · exact hc.setVhub.hubApply.reply
  · exact hc.reply

/-! `UsbXfer`: Transfers at a head-end (07 R231 to R242, R245). -/

theorem Chip.StoresWf.hostSetup {i ss bytes} (hc : c.StoresWf) : (c.hostSetup i ss bytes).StoresWf := hc.modVdev.reply.usbSend

theorem Completes.execHostSetup {ss addr bytes} : Completes s (execHostSetup ss addr bytes s) :=
  .onChip fun hc => hc.atAddress (fun hc => hc.hubSetup) (fun hc => hc.hostSetup)

theorem Chip.StoresWf.hostOut {i ss ep seq stream data} (hc : c.StoresWf) : (c.hostOut i ss ep seq stream data).StoresWf := by
  fun_cases Chip.hostOut
  · exact hc.reply
  · exact hc.reply
  · exact hc.reply
  · exact hc.modVdev.reply
  · exact hc.modVdev.reply
  · exact hc.modVdev.reply.usbSend

theorem Completes.execHostOutData {ss addr ep seq stream data} : Completes s (execHostOutData ss addr ep seq stream data s) :=
  .onChip fun hc => hc.atAddress (fun hc => hc.hubOut) (fun hc => hc.hostOut)

theorem Chip.StoresWf.hostIn {i ss ep stream acked} (hc : c.StoresWf) : (c.hostIn i ss ep stream acked).StoresWf := by
  fun_cases Chip.hostIn
  · exact hc.setVdev.modVdev.reply
  · exact hc.setVdev.modVdev.reply
  · exact hc.setVdev.reply
  · exact hc.setVdev.modVdev.reply.when fun hc => hc.usbSend

theorem Completes.execHostInToken {ss addr ep stream acked} : Completes s (execHostInToken ss addr ep stream acked s) :=
  .onChip fun hc => hc.atAddress (fun hc => hc.hubIn) (fun hc => hc.hostIn)

theorem Chip.StoresWf.hostStatus {i ss} (hc : c.StoresWf) : (c.hostStatus i ss).StoresWf := by
  fun_cases Chip.hostStatus
  · exact (hc.add.setVdev.when fun hc => hc.put).reply
  · exact hc.reply
  · exact hc.modVdev.reply

theorem Completes.execHostStatusStage {ss addr} : Completes s (execHostStatusStage ss addr s) :=
  .onChip fun hc => hc.atAddress (fun hc => hc.hubStatus) (fun hc => hc.hostStatus)

theorem Chip.StoresWf.hostIso {i ep dirIn n data} (hc : c.StoresWf) : (c.hostIso i ep dirIn n data).StoresWf := by
  fun_cases Chip.hostIso
  · exact hc.setVdev.reply
  · exact hc.reply
  · exact hc.usbSend

theorem Completes.execHostIsoToken {ss addr ep dirIn n data} : Completes s (execHostIsoToken ss addr ep dirIn n data s) :=
  .onChip fun hc => by split; exacts [hc.hostIso, hc]

theorem Chip.StoresWf.hostSplit {i start stage ep dirIn seq acked data} (hc : c.StoresWf) :
    (c.hostSplit i start stage ep dirIn seq acked data).StoresWf := by
  fun_cases Chip.hostSplit
  · exact hc.hostSetup
  · exact hc.reply
  · exact hc.reply
  · exact hc.reply
  · exact hc.hostStatus
  · exact hc.reply
  · exact hc.when fun hc => hc.hostIso
  · exact hc.when fun hc => hc.hostIso
  · exact hc.hostIn
  · exact hc.hostOut
  · exact hc.hostIn
  · exact hc.reply
  · exact hc.reply
  · exact hc.reply
  · exact hc.reply

theorem Completes.execHostSplitTransaction {addr start stage ep dirIn seq acked data} : Completes s
    (execHostSplitTransaction addr start stage ep dirIn seq acked data s) :=
  .onChip fun hc => by split; exacts [hc.when fun hc => hc.hostSplit, hc]

theorem Chip.StoresWf.onUsb {given want f} (hf : ∀ {a0} {c : Chip}, c.StoresWf → (f a0 c).StoresWf) (hc : c.StoresWf) :
    (c.onUsb given want f).StoresWf :=
  .ite hc.inc (hc.onMsg hf)

theorem Chip.StoresWf.fromPort {given want f} (hf : ∀ {a0 a1} {c : Chip}, c.StoresWf → (f a0 a1 c).StoresWf) (hc : c.StoresWf) :
    (c.fromPort given want f).StoresWf :=
  hc.onUsb (fun hc => .ite hc (.ite hc.inc.flag (hf hc)))

theorem Chip.StoresWf.ready {i ep dirIn} (hc : c.StoresWf) : (c.ready i ep dirIn).StoresWf := hc.when fun hc => hc.modVdev.reply

theorem Chip.StoresWf.inDataRx {i m} (hc : c.StoresWf) : (c.inDataRx i m).StoresWf := hc.setVdev.ready

theorem Completes.execProxyInDataRx {msg} : Completes s (execProxyInDataRx msg s) := .onChip fun hc => hc.fromPort (fun hc => hc.inDataRx)

theorem Chip.StoresWf.resultAck {i m} (hc : c.StoresWf) : (c.resultAck i m).StoresWf := .ite hc.setVdev.ready hc.setVdev.ready

theorem Chip.StoresWf.resultFail {i m} (hc : c.StoresWf) : (c.resultFail i m).StoresWf :=
  .ite hc.setVdev.add.ready.ready.inc.flag hc.setVdev.add.ready.ready.inc.flag

theorem Chip.StoresWf.resultRx {i m} (hc : c.StoresWf) : (c.resultRx i m).StoresWf := by
  fun_cases Chip.resultRx
  · exact hc.resultAck
  · exact hc.resultFail
  · exact hc.resultFail
  · exact hc.resultFail
  · exact hc

theorem Completes.execProxyResultRx {msg} : Completes s (execProxyResultRx msg s) := .onChip fun hc => hc.fromPort (fun hc => hc.resultRx)

theorem Chip.StoresWf.isoInRx {i m} (hc : c.StoresWf) : (c.isoInRx i m).StoresWf := .ite hc.modVdev hc.inc

theorem Completes.execProxyIsoInRx {msg} : Completes s (execProxyIsoInRx msg s) := .onChip fun hc => hc.fromPort (fun hc => hc.isoInRx)

theorem Chip.StoresWf.epResetRx {i m} (hc : c.StoresWf) : (c.epResetRx i m).StoresWf := .ite hc.setVdev hc.add.setVdev

theorem Completes.execProxyEpResetRx {msg} : Completes s (execProxyEpResetRx msg s) :=
  .onChip fun hc => hc.fromPort (fun hc => hc.epResetRx)

theorem Chip.StoresWf.evConnect {i m} (hc : c.StoresWf) : (c.evConnect i m).StoresWf := hc.dropVdev.put.put.put.put.setChange.showUsb.flag

theorem Completes.execPortEventConnect {msg} : Completes s (execPortEventConnect msg s) :=
  .onChip fun hc => hc.fromPort (fun hc => hc.evConnect)

theorem Completes.execPortEventDisconnect {msg} : Completes s (execPortEventDisconnect msg s) :=
  .onChip fun hc => hc.fromPort (fun hc => hc.vportEmpty.flag)

theorem Chip.StoresWf.evResetDone {i m} (hc : c.StoresWf) : (c.evResetDone i m).StoresWf := .ite hc hc.put.put.put.setChange

theorem Completes.execPortEventResetDone {msg} : Completes s (execPortEventResetDone msg s) :=
  .onChip fun hc => hc.fromPort (fun hc => hc.evResetDone)

theorem Chip.StoresWf.evOverCurrent {i m} (hc : c.StoresWf) : (c.evOverCurrent i m).StoresWf := .ite hc.put.put.setChange hc.put

theorem Completes.execPortEventOverCurrent {msg} : Completes s (execPortEventOverCurrent msg s) :=
  .onChip fun hc => hc.fromPort (fun hc => hc.evOverCurrent)

theorem Chip.StoresWf.evRemoteWake {i} (hc : c.StoresWf) : (c.evRemoteWake i).StoresWf :=
  hc.put.setChange.flag.modVdev.usbFlush.when fun hc => hc.usbAct

theorem Completes.execPortEventRemoteWake {msg} : Completes s (execPortEventRemoteWake msg s) :=
  .onChip fun hc => hc.fromPort (fun hc => hc.evRemoteWake)

theorem Chip.StoresWf.resumeEnds {i} (hc : c.StoresWf) : (c.resumeEnds i).StoresWf := hc.modVdev.put.setChange.usbFlush

theorem Chip.StoresWf.evResumeDone {i} (hc : c.StoresWf) : (c.evResumeDone i).StoresWf := .ite hc.modVdev hc.resumeEnds

theorem Completes.execPortEventResumeDone {msg} : Completes s (execPortEventResumeDone msg s) :=
  .onChip fun hc => hc.fromPort (fun hc => hc.evResumeDone)

theorem Chip.StoresWf.evDisabled {i m} (hc : c.StoresWf) : (c.evDisabled i m).StoresWf :=
  (hc.dropVdev.put.when fun hc => hc.flag).when fun hc => hc.setChange

theorem Completes.execPortEventDisabled {msg} : Completes s (execPortEventDisabled msg s) :=
  .onChip fun hc => hc.fromPort (fun hc => hc.evDisabled)

theorem Completes.execPortEventL1State {msg} : Completes s (execPortEventL1State msg s) := .onChip fun hc => hc.fromPort (fun hc => hc)

theorem Chip.StoresWf.mapCommit {i w0} (hc : c.StoresWf) : (c.mapCommit i w0).StoresWf :=
  .ite hc (((hc.when fun hc => hc.dropVdev).put.when fun hc => hc.vportEmpty.setChange).when fun hc => hc.sendSsHold).showUsb

end Sys2Proof.Machine
end

section
/-! What every step keeps of the stores: UsbDev, Window, Video, Ethernet, FieldOps, GovOps. -/

namespace Sys2Proof.Machine

variable {c : Chip} {h : Hub} {v : Hv} {s : State}

/-! `UsbDev`: The USB adapter at a physical downstream port (07 R230 to R253). -/

theorem Chip.StoresWf.fromHost {given want f} (hf : ∀ {a0 a1} {c : Chip}, c.StoresWf → (f a0 a1 c).StoresWf) (hc : c.StoresWf) :
    (c.fromHost given want f).StoresWf :=
  hc.onUsb (fun hc => hc.when fun hc => hf hc)

theorem Chip.StoresWf.onCommand {given code f} (hf : ∀ {a0 a1} {c : Chip}, c.StoresWf → (f a0 a1 c).StoresWf) (hc : c.StoresWf) :
    (c.onCommand given code f).StoresWf :=
  hc.fromHost (fun hc => hf hc.put)

theorem Chip.StoresWf.vbusOn {x} (hc : c.StoresWf) : (c.vbusOn x).StoresWf := hc.put.usbAct

theorem Chip.StoresWf.noDevice {x} (hc : c.StoresWf) : (c.noDevice x).StoresWf := hc.put.put.put.put.modPhys

theorem Chip.StoresWf.vbusOff {x} (hc : c.StoresWf) : (c.vbusOff x).StoresWf := hc.put.usbAct.noDevice

theorem Completes.execPortCmdPowerOn {msg} : Completes s (execPortCmdPowerOn msg s) :=
  .onChip fun hc => hc.onCommand (fun hc => hc.when fun hc => hc.vbusOn)

theorem Completes.execPortCmdPowerOff {msg} : Completes s (execPortCmdPowerOff msg s) :=
  .onChip fun hc => hc.onCommand (fun hc => hc.vbusOff)

theorem Chip.StoresWf.physReset {x warm m} (hc : c.StoresWf) : (c.physReset x warm m).StoresWf := hc.modSwc.put.put.modPhys.usbAct

theorem Completes.execPortCmdReset {msg} : Completes s (execPortCmdReset msg s) := .onChip fun hc => hc.onCommand (fun hc => hc.physReset)

theorem Completes.execPortCmdWarmReset {msg} : Completes s (execPortCmdWarmReset msg s) :=
  .onChip fun hc => hc.onCommand (fun hc => hc.physReset)

theorem Completes.execPortCmdSuspend {msg} : Completes s (execPortCmdSuspend msg s) :=
  .onChip fun hc => hc.onCommand (fun hc => hc.put.usbAct)

theorem Chip.StoresWf.physResume {x} (hc : c.StoresWf) : (c.physResume x).StoresWf := (hc.when fun hc => hc.usbAct).put.modPdev.portEvent

theorem Completes.execPortCmdResume {msg} : Completes s (execPortCmdResume msg s) :=
  .onChip fun hc => hc.onCommand (fun hc => hc.physResume)

theorem Completes.execPortCmdDisable {msg} : Completes s (execPortCmdDisable msg s) :=
  .onChip fun hc => hc.onCommand (fun hc => hc.physDisable)

theorem Chip.StoresWf.physL1 {x accepted m} (hc : c.StoresWf) : (c.physL1 x accepted m).StoresWf :=
  (hc.usbAct.when fun hc => hc.put).portEvent

theorem Completes.execPortCmdL1 {msg accepted} : Completes s (execPortCmdL1 msg accepted s) :=
  .onChip fun hc => hc.onCommand (fun hc => hc.physL1)

theorem Completes.execPortCmdUTimeout {msg} : Completes s (execPortCmdUTimeout msg s) :=
  .onChip fun hc => hc.onCommand (fun hc => hc.modPhys.usbAct)

theorem Completes.execPortCmdSofOffset {msg} : Completes s (execPortCmdSofOffset msg s) :=
  .onChip fun hc => hc.onCommand (fun hc => hc.modPhys)

theorem Completes.execPortCmdSsHold {msg} : Completes s (execPortCmdSsHold msg s) := .onChip fun hc => hc.onCommand (fun hc => hc.modPhys)

theorem Chip.StoresWf.sendResult {x ep dirIn res} (hc : c.StoresWf) : (c.sendResult x ep dirIn res).StoresWf := hc.physSend

theorem Chip.StoresWf.pumpOut {x ep} (hc : c.StoresWf) : (c.pumpOut x ep).StoresWf := hc.modPdev.each fun hc => hc.usbAct

theorem Chip.StoresWf.controlNext {x ended} (hc : c.StoresWf) : (c.controlNext x ended).StoresWf := by
  fun_cases Chip.controlNext
  · exact hc
  · exact hc.modPdev.usbAct
  · exact hc.modPdev.usbAct
  · exact hc.modPdev.pumpOut

theorem Chip.StoresWf.setupRx {x m} (hc : c.StoresWf) : (c.setupRx x m).StoresWf := hc.modPdev.usbAct

theorem Completes.execProxySetupRx {msg} : Completes s (execProxySetupRx msg s) := .onChip fun hc => hc.fromHost (fun hc => hc.setupRx)

theorem Chip.StoresWf.outDataRx {x m} (hc : c.StoresWf) : (c.outDataRx x m).StoresWf := hc.modPdev.when fun hc => hc.pumpOut

theorem Completes.execProxyOutDataRx {msg} : Completes s (execProxyOutDataRx msg s) :=
  .onChip fun hc => hc.fromHost (fun hc => hc.outDataRx)

theorem Chip.StoresWf.inReqRx {x m} (hc : c.StoresWf) : (c.inReqRx x m).StoresWf := hc.modPdev.when fun hc => hc.usbAct

theorem Completes.execProxyInReqRx {msg} : Completes s (execProxyInReqRx msg s) := .onChip fun hc => hc.fromHost (fun hc => hc.inReqRx)

theorem Chip.StoresWf.askIn {x ep} (hc : c.StoresWf) : (c.askIn x ep).StoresWf := hc.when fun hc => hc.usbAct

theorem Chip.StoresWf.deviceIn {x ep pkt} (hc : c.StoresWf) : (c.deviceIn x ep pkt).StoresWf :=
  .ite hc (.ite hc.askIn (.ite hc.modPdev.physSend.askIn (.ite hc.modPdev.physSend.physDisable (.ite hc.modPdev.physSend.physDisable
    (.ite hc.modPdev.physSend.controlNext hc.modPdev.physSend.askIn)))))

theorem Chip.StoresWf.deviceOut {x ep numP} (hc : c.StoresWf) : (c.deviceOut x ep numP).StoresWf := by
  fun_cases Chip.deviceOut
  · exact hc.modPdev.sendResult.controlNext
  · exact hc.modPdev.sendResult.pumpOut
  · exact hc.modPdev.pumpOut

theorem Chip.StoresWf.deviceStatus {x} (hc : c.StoresWf) : (c.deviceStatus x).StoresWf := by
  fun_cases Chip.deviceStatus
  · exact hc
  · exact (hc.modPdev.each fun hc => hc.physSend).sendResult

theorem Chip.StoresWf.deviceDone {x ep dirIn stage pkt} (hc : c.StoresWf) : (c.deviceDone x ep dirIn stage pkt).StoresWf := by
  fun_cases Chip.deviceDone
  · exact hc.when fun hc => hc.controlNext
  · exact hc.deviceIn
  · exact hc.deviceOut
  · exact hc.deviceStatus

theorem Completes.execDeviceTransactionComplete {x ep dirIn stage pkt} : Completes s
    (execDeviceTransactionComplete x ep dirIn stage pkt s) :=
  .onChip fun hc => hc.when fun hc => hc.deviceDone

theorem Chip.StoresWf.deviceFail {x ep dirIn res} (hc : c.StoresWf) : (c.deviceFail x ep dirIn res).StoresWf := hc.modPdev.sendResult

theorem Completes.execDeviceStall {x ep dirIn} : Completes s (execDeviceStall x ep dirIn s) :=
  .onChip fun hc => hc.when fun hc => hc.deviceFail

theorem Completes.execDeviceXferError {x ep dirIn} : Completes s (execDeviceXferError x ep dirIn s) :=
  .onChip fun hc => hc.when fun hc => hc.deviceFail

theorem Completes.execDeviceBabble {x ep dirIn} : Completes s (execDeviceBabble x ep dirIn s) :=
  .onChip fun hc => hc.when fun hc => hc.deviceFail.physDisable

theorem Chip.StoresWf.interruptPoll {x ep polled kept pkt} (hc : c.StoresWf) : (c.interruptPoll x ep polled kept pkt).StoresWf :=
  hc.when fun hc => by split; exacts [hc.usbAct.deviceIn, hc.usbAct]

theorem Completes.execInterruptPoll {x ep polled kept pkt} : Completes s (execInterruptPoll x ep polled kept pkt s) :=
  .onChip fun hc => hc.when fun hc => hc.interruptPoll

theorem Chip.StoresWf.deviceWake {x} (hc : c.StoresWf) : (c.deviceWake x).StoresWf :=
  ((hc.when fun hc => hc.usbAct).put.modPdev.when fun hc => hc.portEvent).portEvent

theorem Completes.execDeviceRemoteWake {x} : Completes s (execDeviceRemoteWake x s) := .onChip fun hc => hc.when fun hc => hc.deviceWake

theorem Chip.StoresWf.deviceAttach {x speed} (hc : c.StoresWf) : (c.deviceAttach x speed).StoresWf :=
  .ite (.ite hc.noDevice.portEvent.flag hc) (.ite hc hc.noDevice.put.put.portEvent.flag)

theorem Completes.execDeviceAttach {x speed} : Completes s (execDeviceAttach x speed s) :=
  .onChip fun hc => hc.when fun hc => hc.deviceAttach

theorem Chip.StoresWf.physResetEnd {x speed} (hc : c.StoresWf) : (c.physResetEnd x speed).StoresWf := .ite hc hc.modPhys.put.put.portEvent

theorem Completes.execPhysicalResetEnd {x speed} : Completes s (execPhysicalResetEnd x speed s) :=
  .onChip fun hc => hc.when fun hc => hc.physResetEnd

theorem Chip.StoresWf.overCurrent {x} (hc : c.StoresWf) : (c.overCurrent x).StoresWf := hc.vbusOff.put.portEvent.inc.flag

theorem Completes.execVbusGoodTimeout {x} : Completes s (execVbusGoodTimeout x s) := .onChip fun hc => hc.when fun hc => hc.overCurrent

theorem Completes.execOcDeglitchExpiry {x low} : Completes s (execOcDeglitchExpiry x low s) :=
  .onChip fun hc => hc.when fun hc => .ite (hc.when fun hc => hc.overCurrent) (hc.when fun hc => hc.put.portEvent)

theorem Chip.StoresWf.portSof {x k} (hc : c.StoresWf) : (c.portSof x k).StoresWf := hc.when fun hc => hc.usbAct

theorem Chip.StoresWf.isoOutDue {x k} (hc : c.StoresWf) : (c.isoOutDue x k).StoresWf := hc.modPdev.each fun hc => hc.usbAct

theorem Chip.StoresWf.isoInRead {x k ep data} (hc : c.StoresWf) : (c.isoInRead x k ep data).StoresWf := by
  fun_cases Chip.isoInRead
  · exact hc.when fun hc => hc.sendMsg
  · exact hc

theorem Chip.StoresWf.isoUnread {i} (hc : c.StoresWf) : (c.isoUnread i).StoresWf := .ite hc hc.add.modVdev

theorem Chip.StoresWf.microframe {k isoIn} (hc : c.StoresWf) : (c.microframe k isoIn).StoresWf :=
  ((hc.each fun hc => hc.portSof.isoOutDue).each fun hc => hc.isoInRead).each fun hc => hc.isoUnread.when fun hc => hc.resumeEnds

theorem Completes.execMicroframeStart {k isoIn} : Completes s (execMicroframeStart k isoIn s) := .onChip fun hc => hc.microframe

theorem Chip.StoresWf.isoOutRx {x m} (hc : c.StoresWf) : (c.isoOutRx x m).StoresWf := .ite hc.modPdev hc.inc

theorem Completes.execProxyIsoOutRx {msg} : Completes s (execProxyIsoOutRx msg s) := .onChip fun hc => hc.fromHost (fun hc => hc.isoOutRx)

/-! `Window`: The window bridge's commands that need no register access (08 R261 to R287). -/

theorem Chip.StoresWf.cplData {m} (hc : c.StoresWf) : (c.cplData m).StoresWf := .ite hc.winComplete hc.lateData

theorem Completes.execBridgeCplDRx {msg} : Completes s (execBridgeCplDRx msg s) := .onChip fun hc => hc.onWin (fun hc => hc.cplData)

theorem Chip.StoresWf.pwerr {m} (hc : c.StoresWf) : (c.pwerr m).StoresWf := hc.writeFailed

theorem Completes.execBridgePwerrRx {msg} : Completes s (execBridgePwerrRx msg s) := .onChip fun hc => hc.onWin (fun hc => hc.pwerr)

theorem Completes.execLockReqRx {msg} : Completes s (execLockReqRx msg s) := .onChip fun hc => hc.onWin (fun hc => hc.lockReqRx)

theorem Completes.execLockGrantRx {msg} : Completes s (execLockGrantRx msg s) := .onChip fun hc => hc.onWin (fun hc => hc.lockGrantRx)

theorem Completes.execLockRetryRx {msg} : Completes s (execLockRetryRx msg s) := .onChip fun hc => hc.onWin (fun hc => hc.lockRetryRx)

theorem Completes.execLockBrokenRx {msg} : Completes s (execLockBrokenRx msg s) := .onChip fun hc => hc.onWin (fun hc => hc.lockBrokenRx)

theorem Completes.execLockBackoffExpiry : Completes s (execLockBackoffExpiry s) := .onChip fun hc => hc.lockBackoffEnd

theorem Completes.execPrefetchIdleExpiry {fwa} : Completes s (execPrefetchIdleExpiry fwa s) := .onChip fun hc => hc.pfDiscard

theorem Chip.StoresWf.cplTimeout {tag} (hc : c.StoresWf) : (c.cplTimeout tag).StoresWf := by
  fun_cases Chip.cplTimeout
  · exact hc
  · exact (hc.inc.abandon.when fun hc => hc.writeFailed).reqEnd.winPump

theorem Chip.StoresWf.tgtAnswer {tunnel tag write posted fwa status bytes} (hc : c.StoresWf) :
    (c.tgtAnswer tunnel tag write posted fwa status bytes).StoresWf :=
  .ite ((hc.when fun hc => hc.winSend).when fun hc => hc.winSend) (.ite hc.winSend hc.winSend)

theorem Chip.StoresWf.targetTimeout {tunnel tag} (hc : c.StoresWf) : (c.targetTimeout tunnel tag).StoresWf := by
  fun_cases Chip.targetTimeout
  · exact hc
  · exact (hc.modWin (by rfl)).tgtAnswer

theorem Completes.execTargetTimeout {tunnel tag} : Completes s (execTargetTimeout tunnel tag s) := .onChip fun hc => hc.targetTimeout

theorem Completes.execTagQuarantineExpiry {tag} : Completes s (execTagQuarantineExpiry tag s) :=
  .onChip fun hc => (hc.modWin (by rfl)).winPump

theorem Chip.StoresWf.pcieDown {perst} (hc : c.StoresWf) : (c.pcieDown perst).StoresWf :=
  ((hc.abandonAll.each fun hc => hc.dmaStop).put.put.put.put.when fun hc => hc.put).flag

theorem Completes.execPcieLinkDown {perst} : Completes s (execPcieLinkDown perst s) := .onChip fun hc => hc.pcieDown

theorem Chip.StoresWf.pcieUp {speed width enables} (hc : c.StoresWf) : (c.pcieUp speed width enables).StoresWf :=
  .ite hc (hc.put.put.put.when fun hc => hc.put.put.modWin (by rfl))

theorem Completes.execPcieLinkUp {speed width enables} : Completes s (execPcieLinkUp speed width enables s) := .onChip fun hc => hc.pcieUp

theorem Chip.StoresWf.driveMsi {addr data} (hc : c.StoresWf) : (c.driveMsi addr data).StoresWf := .ite hc hc.flag.flag

theorem Completes.execDriveMsi {addr data} : Completes s (execDriveMsi addr data s) := .onChip fun hc => hc.driveMsi

theorem Completes.execDmaRxBarge {n descs} : Completes s (execDmaRxBarge n descs s) := .onChip fun hc => hc.when fun hc => hc.dmaRx

theorem Completes.execDmaTxMessage {n descs} : Completes s (execDmaTxMessage n descs s) := .onChip fun hc => hc.dmaTx

theorem Completes.execDmaInterruptModeration {n byTime} : Completes s (execDmaInterruptModeration n byTime s) :=
  .onChip fun hc => hc.dmaModerate

theorem Completes.execStageRingWrite : Completes s (execStageRingWrite s) := .onChip fun hc => hc.stageWrite

/-! `Video`: The video adapter P5 (09 R289 to R301). -/

theorem Chip.StoresWf.modVid {f} (hc : c.StoresWf) : (c.modVid f).StoresWf := hc.frame (by rfl)

theorem Chip.StoresWf.modCsi {n f} (hc : c.StoresWf) : (c.modCsi n f).StoresWf := hc.modVid

theorem Chip.StoresWf.csiHeader {hello} (hc : c.StoresWf) : (c.csiHeader hello).2.StoresWf := by
  fun_cases Chip.csiHeader
  · exact hc
  · exact hc.put
  · exact hc.put.inc
  · exact hc.put.inc
  · exact hc.put.inc

theorem Chip.StoresWf.sendSegment {n fe trunc} (hc : c.StoresWf) : (c.sendSegment n fe trunc).StoresWf :=
  (hc.when fun hc => hc.sendMsg).modCsi

theorem Chip.StoresWf.closeFrame {n trunc} (hc : c.StoresWf) : (c.closeFrame n trunc).StoresWf := .ite hc hc.sendSegment.put.inc

theorem Chip.StoresWf.streamStart {n} (hc : c.StoresWf) : (c.streamStart n).StoresWf :=
  .ite (hc.closeFrame.when fun hc => hc.put.flag).inc.put.modCsi (hc.closeFrame.when fun hc => hc.put.flag).inc.inc

theorem Chip.StoresWf.csiFrameStart {vc hello} (hc : c.StoresWf) : (c.csiFrameStart vc hello).StoresWf := by
  fun_cases Chip.csiFrameStart
  · exact (hc.csiHeader.of_eq ‹_›).each fun hc => hc.streamStart
  · exact hc.csiHeader.of_eq ‹_›

theorem Completes.execCsiFrameStart {vc hdr} : Completes s (execCsiFrameStart vc hdr s) := .onChip fun hc => hc.csiFrameStart

theorem Chip.StoresWf.streamLine {n crcOk data} (hc : c.StoresWf) : (c.streamLine n crcOk data).StoresWf :=
  .ite hc (.ite (hc.modCsi.when fun hc => hc.sendSegment).closeFrame.inc.flag (hc.modCsi.when fun hc => hc.sendSegment).modCsi)

theorem Chip.StoresWf.csiLine {vc dt hello crcOk data} (hc : c.StoresWf) : (c.csiLine vc dt hello crcOk data).StoresWf := by
  fun_cases Chip.csiLine
  · exact hc.csiHeader.of_eq ‹_›
  · exact (hc.csiHeader.of_eq ‹_›).inc
  · exact ((hc.csiHeader.of_eq ‹_›).when fun hc => hc.inc).each fun hc => hc.streamLine

theorem Completes.execCsiLineRx {vc dt hdr crcOk data} : Completes s (execCsiLineRx vc dt hdr crcOk data s) := .onChip fun hc => hc.csiLine

theorem Chip.StoresWf.csiFrameEnd {vc hello} (hc : c.StoresWf) : (c.csiFrameEnd vc hello).StoresWf := by
  fun_cases Chip.csiFrameEnd
  · exact (hc.csiHeader.of_eq ‹_›).each fun hc => hc.closeFrame
  · exact hc.csiHeader.of_eq ‹_›

theorem Completes.execCsiFrameEnd {vc hdr} : Completes s (execCsiFrameEnd vc hdr s) := .onChip fun hc => hc.csiFrameEnd

theorem Chip.StoresWf.csiLoss {n} (hc : c.StoresWf) : (c.csiLoss n).StoresWf := .ite hc hc.put.flag.closeFrame

theorem Completes.execCsiStreamLoss {n} : Completes s (execCsiStreamLoss n s) := .onChip fun hc => hc.csiLoss

theorem Chip.StoresWf.dsiFill {y} (hc : c.StoresWf) : (c.dsiFill y).StoresWf := by
  fun_cases Chip.dsiFill <;> exact hc.emit

theorem Chip.StoresWf.dsiSegment {m} (hc : c.StoresWf) : (c.dsiSegment m).StoresWf :=
  .ite (hc.when fun hc => hc.inc).inc (.ite (hc.when fun hc => hc.inc).inc (hc.when fun hc => hc.inc).modVid)

theorem Completes.execDsiSegmentRx {msg} : Completes s (execDsiSegmentRx msg s) := .onChip fun hc => hc.onMsg (fun hc => hc.dsiSegment)

theorem Chip.StoresWf.dsiFrameStart (hc : c.StoresWf) : c.dsiFrameStart.StoresWf := by
  fun_cases Chip.dsiFrameStart
  · exact hc
  · exact (hc.put.put.when fun hc => hc.inc.flag).inc.modVid.add.modVid.put.put
  · exact (hc.put.put.when fun hc => hc.inc.flag).inc.modVid.inc.put.flag

theorem Completes.execDsiFrameStart : Completes s (execDsiFrameStart s) := .onChip fun hc => hc.dsiFrameStart

theorem Chip.StoresWf.dsiLineStart {y} (hc : c.StoresWf) : (c.dsiLineStart y).StoresWf := by
  fun_cases Chip.dsiLineStart
  · exact hc
  · exact hc.modVid.dsiFill
  · exact hc.modVid.modVid.emit
  · exact hc.modVid.modVid.inc.dsiFill

theorem Completes.execDsiLineStart {y} : Completes s (execDsiLineStart y s) := .onChip fun hc => hc.dsiLineStart

theorem Chip.StoresWf.dsiCmdSent (hc : c.StoresWf) : c.dsiCmdSent.StoresWf := .ite hc hc.emit.put.flag

theorem Completes.execDsiCmdSent : Completes s (execDsiCmdSent s) := .onChip fun hc => hc.dsiCmdSent

/-! `Ethernet`: The Ethernet adapter P6 (09 R302 to R309). -/

theorem Chip.StoresWf.modEth {f} (hc : c.StoresWf) : (c.modEth f).StoresWf := hc.frame (by rfl)

theorem Chip.StoresWf.showLearned (hc : c.StoresWf) : c.showLearned.StoresWf := hc.put

theorem Chip.StoresWf.learnWrite {i mac x remote dest} (hc : c.StoresWf) : (c.learnWrite i mac x remote dest).StoresWf := by
  unfold Chip.learnWrite
  exact hc.put.put.put.put.put.put.modEth

theorem Chip.StoresWf.learn {mac x remote dest} (hc : c.StoresWf) : (c.learn mac x remote dest).StoresWf := by
  fun_cases Chip.learn
  · exact hc
  · exact hc
  · exact (hc.when fun hc => hc.incSat).learnWrite
  · exact hc.learnWrite.showLearned
  · exact hc.incSat.flag

theorem Chip.StoresWf.ethSend {w l x} (hc : c.StoresWf) : (c.ethSend w l x).StoresWf := .ite hc.inc.flag hc.modEth

theorem Chip.StoresWf.ethFlood {w l x} (hc : c.StoresWf) : (c.ethFlood w l x).StoresWf :=
  .ite (hc.each fun hc => hc.ethSend).inc.offer (hc.each fun hc => hc.ethSend).inc

theorem Chip.StoresWf.ethForward {w l x} (hc : c.StoresWf) : (c.ethForward w l x).StoresWf := by
  fun_cases Chip.ethForward
  · exact hc.ethFlood
  · exact hc.ethFlood
  · exact hc
  · exact hc.ethSend
  · exact hc.sendMsg
  · exact hc.inc

theorem Chip.StoresWf.ethPause {x l} (hc : c.StoresWf) : (c.ethPause x l).StoresWf := .ite hc.modEth hc

theorem Chip.StoresWf.ethLocal {x l fcsOk} (hc : c.StoresWf) : (c.ethLocal x l fcsOk).StoresWf := by
  fun_cases Chip.ethLocal
  · exact hc
  · exact hc.inc
  · exact hc.inc.ethPause.inc
  · exact hc.inc.inc
  · exact hc.inc.learn.ethForward
  · exact hc.inc.inc

theorem Completes.execEthLocalFrameRx {x frame fcsOk} : Completes s (execEthLocalFrameRx x frame fcsOk s) := .onChip fun hc => hc.ethLocal

theorem Chip.StoresWf.ethFabric {m} (hc : c.StoresWf) : (c.ethFabric m).StoresWf := by
  fun_cases Chip.ethFabric
  · exact (hc.when fun hc => hc.inc).inc
  · exact (hc.when fun hc => hc.inc).inc
  · exact (hc.when fun hc => hc.inc).learn.each fun hc => hc.ethSend
  · exact (hc.when fun hc => hc.inc).learn.each fun hc => hc.ethSend
  · exact (hc.when fun hc => hc.inc).learn
  · exact (hc.when fun hc => hc.inc).learn.when fun hc => hc.ethSend

theorem Completes.execEthFabricFrameRx {msg} : Completes s (execEthFabricFrameRx msg s) :=
  .onChip fun hc => .ite (hc.onMsg (fun hc => hc.ethFabric)) hc

theorem Chip.StoresWf.ethTx {x} (hc : c.StoresWf) : (c.ethTx x).StoresWf := by
  fun_cases Chip.ethTx
  · exact hc
  · exact hc
  · exact hc.modEth.inc.emit

theorem Completes.execEthTxStart {x} : Completes s (execEthTxStart x s) := .onChip fun hc => hc.ethTx

theorem Chip.StoresWf.ethAge {i} (hc : c.StoresWf) : (c.ethAge i).StoresWf := .ite hc.put.modEth.showLearned hc

theorem Completes.execEthAgeExpiry {i} : Completes s (execEthAgeExpiry i s) := .onChip fun hc => hc.ethAge

theorem Chip.StoresWf.learnCommit {i w0 w1 w2} (hc : c.StoresWf) : (c.learnCommit i w0 w1 w2).StoresWf := hc.put.put.put.modEth.showLearned

theorem Chip.StoresWf.mdioGo (hc : c.StoresWf) : c.mdioGo.StoresWf := .ite hc hc.put.emit

theorem Chip.StoresWf.mdioDone {data} (hc : c.StoresWf) : (c.mdioDone data).StoresWf := .ite hc (hc.put.when fun hc => hc.put).flag

theorem Completes.execMdioFrameDone {data} : Completes s (execMdioFrameDone data s) := .onChip fun hc => hc.mdioDone

theorem Chip.StoresWf.e0Link {up speed} (hc : c.StoresWf) : (c.e0Link up speed).StoresWf := hc.put.put.flag

theorem Completes.execEthE0LinkChange {up speed} : Completes s (execEthE0LinkChange up speed s) := .onChip fun hc => hc.e0Link

theorem Completes.execEthPlcaStatusChange {x ok} : Completes s (execEthPlcaStatusChange x ok s) := .onChip fun hc => hc.put.flag

/-! `FieldOps`: The field gateway's operations (10). -/

theorem Chip.StoresWf.modFld {f} (hc : c.StoresWf) : (c.modFld f).StoresWf := hc.frame (by rfl)

theorem Chip.StoresWf.setSig {i x} (hc : c.StoresWf) : (c.setSig i x).StoresWf := hc.modFld

theorem Chip.StoresWf.dropSig {i} (hc : c.StoresWf) : (c.dropSig i).StoresWf := hc.modFld

theorem Chip.StoresWf.sendBatch {t} (hc : c.StoresWf) : (c.sendBatch t).StoresWf := by
  fun_cases Chip.sendBatch
  · exact hc
  · exact hc.modFld.offer

theorem Chip.StoresWf.addRecord {t r} (hc : c.StoresWf) : (c.addRecord t r).StoresWf := hc.inc.modFld.when fun hc => hc.sendBatch

theorem Chip.StoresWf.publish {i frame subns} (hc : c.StoresWf) : (c.publish i frame subns).StoresWf := hc.setSig.addRecord

theorem Chip.StoresWf.showQuality {i} (hc : c.StoresWf) : (c.showQuality i).StoresWf := hc.put

theorem Chip.StoresWf.requality {i send frame subns} (hc : c.StoresWf) : (c.requality i send frame subns).StoresWf :=
  .ite hc (hc.showQuality.when fun hc => hc.publish)

theorem Chip.StoresWf.updateIn {i raw frame subns} (hc : c.StoresWf) : (c.updateIn i raw frame subns).StoresWf :=
  hc.putS.inc.setSig.showQuality.when fun hc => hc.publish

theorem Chip.StoresWf.unpack {source ref l frame subns} (hc : c.StoresWf) : (c.unpack source ref l frame subns).StoresWf :=
  hc.each fun hc => .ite hc.updateIn hc.inc.flag

theorem Chip.StoresWf.commFailOut {l} (hc : c.StoresWf) : (c.commFailOut l).StoresWf := hc.each fun hc => hc.put

theorem Chip.StoresWf.commFail {l send} (hc : c.StoresWf) : (c.commFail l send).StoresWf :=
  hc.each fun hc => hc.setSig.showQuality.when fun hc => hc.publish

theorem Chip.StoresWf.putWordBytes {l b} (hc : c.StoresWf) : (c.putWordBytes l b).StoresWf := hc.each fun hc => hc.put

theorem Chip.StoresWf.canPend {n} (hc : c.StoresWf) : (c.canPend n).StoresWf := hc.when fun hc => hc.modFld

theorem Chip.StoresWf.pollQueue {n due} (hc : c.StoresWf) : (c.pollQueue n due).StoresWf :=
  .ite hc (.ite (hc.when fun hc => hc.inc) hc.modFld)

theorem Chip.StoresWf.fioChange {p f} (hf : ∀ {c : Chip}, c.StoresWf → (f c).StoresWf) (hc : c.StoresWf) : (c.fioChange p f).StoresWf :=
  (hf hc).when fun hc => hc.emit

theorem Chip.StoresWf.fioDrive {p active} (hc : c.StoresWf) : (c.fioDrive p active).StoresWf := hc.fioChange (fun hc => hc.put.putBit)

theorem Chip.StoresWf.placeOut {i x} (hc : c.StoresWf) : (c.placeOut i x).StoresWf :=
  .ite (.ite hc hc.putWordBytes.canPend) (.ite (.ite hc (hc.putWordBytes.when fun hc => hc.pollQueue)) (.ite hc.fioDrive hc))

theorem Chip.StoresWf.applyOut {i x quality} (hc : c.StoresWf) : (c.applyOut i x quality).StoresWf :=
  .ite hc.inc.flag hc.putS.inc.put.setSig.placeOut

theorem Chip.StoresWf.applyDefault {i} (hc : c.StoresWf) : (c.applyDefault i).StoresWf := hc.applyOut

theorem Chip.StoresWf.applyRecord {r} (hc : c.StoresWf) : (c.applyRecord r).StoresWf :=
  .ite hc.inc.inc.flag (.ite hc.inc.applyOut (.ite hc.inc.applyDefault hc.inc))

theorem Chip.StoresWf.sigCommit {i w} (hc : c.StoresWf) : (c.sigCommit i w).StoresWf :=
  .ite ((hc.each fun hc => hc.put).dropSig.put.put.put.when fun hc => hc.applyDefault.when fun hc => hc.each fun hc => hc.placeOut)
    (hc.each fun hc => hc.put)

/-! `GovOps`: The frame records of the HV die (11 R368, 12 R391) and the budget governor (06 R212 to R222). -/

theorem Hub.StoresWf.recordTemp {m} (hh : h.StoresWf) : (h.recordTemp m).2.StoresWf := by
  fun_cases Hub.recordTemp
  · exact hh
  · exact ⟨(hh.chip.frame (by rfl)), hh.hv⟩

theorem Hub.StoresWf.portRecord {p x} (hx : x.2.StoresWf) : (Hub.portRecord p x).2.StoresWf := by
  fun_cases Hub.portRecord
  · exact hx
  · have hr := (Hub.StoresWf.recordTemp hx).of_eq ‹_›
    exact hr.onHv fun hv => hv.put.put.put.put.modSw

theorem Hub.StoresWf.chanRecord {y frame x} (hx : x.2.StoresWf) : (Hub.chanRecord y frame x).2.StoresWf := by
  fun_cases Hub.chanRecord
  · exact hx
  · next g d =>
    have hr := (Hub.StoresWf.recordTemp hx).of_eq ‹_›
    have hg : g.StoresWf := hr.onHv fun hv => hv.put.put.put.put.put.put.put.put.put.modCsw.modLdc
    have hd : d.StoresWf := hg.onChip fun hc => hc.frame (by rfl)
    exact hd

theorem Hub.StoresWf.frameRecords {frame} (hh : h.StoresWf) : (h.frameRecords frame).2.StoresWf := by
  fun_cases Hub.frameRecords
  · exact hh
  · next e =>
    refine .of_eq (.foldl_snd (.foldl_snd ?_ .portRecord) .chanRecord) e
    exact hh

theorem Chip.StoresWf.publishCap {n} (hc : c.StoresWf) : (c.publishCap n).StoresWf := (hc.each fun hc => hc.put).flag.frame (by rfl)

theorem Chip.StoresWf.capRule {late} (hc : c.StoresWf) : (c.capRule late).StoresWf := .ite hc.publishCap (.ite hc.publishCap hc)

theorem Hub.StoresWf.budgetShed {y} (hh : h.StoresWf) : (h.budgetShed y).StoresWf :=
  hh.when fun hh => (hh.onHv fun hv => hv.budgetShed).onChip fun hc => hc.put.put.putBit.flag.inc

theorem Hub.StoresWf.setLevel {n} (hh : h.StoresWf) : (h.setLevel n).StoresWf :=
  (hh.onChip fun hc => (((hc.put.when fun hc => hc.flag).when fun hc => hc.flag).frame (by rfl)).capRule).each fun hh => hh.budgetShed

theorem Hub.StoresWf.levelRule {up down} (hh : h.StoresWf) : (h.levelRule up down).StoresWf :=
  .ite (hh.onChip fun hc => hc.put).setLevel (.ite (hh.onChip fun hc => hc.put).setLevel (.ite (hh.onChip fun hc => hc.put).setLevel
    (hh.onChip fun hc => hc.put).setLevel))

theorem Chip.StoresWf.dieSensors {die} (hc : c.StoresWf) : (c.dieSensors die).StoresWf :=
  hc.each fun hc => (by split; exacts [hc.put, (hc.frame (by rfl)).put])

theorem Chip.StoresWf.readGovernor (hc : c.StoresWf) : c.readGovernor.StoresWf := hc.frame (by rfl)

theorem Hub.StoresWf.governorTick {r die} (hh : h.StoresWf) : (h.governorTick r die).StoresWf := by
  unfold Hub.governorTick
  exact ((hh.onChip fun hc => hc.readGovernor).onChip fun hc => (hc.put.put.put.dieSensors.put.put.put.put.put.put.put.put.when
    fun hc => hc.flag.inc).frame (by rfl)).levelRule.onChip fun hc => hc.inc.frame (by rfl)

end Sys2Proof.Machine
end

section
/-! What every step keeps of the stores: ResetOps, PowerStates, ImageOps, Switch, Lockkeeper, Readback, Shift. -/

namespace Sys2Proof.Machine

variable {c : Chip} {h : Hub} {v : Hv} {s : State}

/-! `ResetOps`: The resets (00 R9, 01 R16 to R24 and Table 01-5, 06 R528 and R530, 07 R255, 10 R335, 11 R363, 12 R388, 13 R427). -/

theorem Hv.StoresWf.clearCounters (hv : v.StoresWf) : v.clearCounters.StoresWf := hv.dropWords

theorem Hub.StoresWf.standingCommands (hh : h.StoresWf) : h.standingCommands.StoresWf :=
  (hh.live fun hh => (hh.each fun hh => hh.onHv fun hv => hv.chanReset).each fun hh => hh.guardFail).onHv fun hv => hv.clearCounters

theorem Chip.StoresWf.readFuses (hc : c.StoresWf) : c.readFuses.StoresWf := hc.put.put.put.put

theorem Chip.StoresWf.keyRegs {k cc} (hc' : cc.StoresWf) : (Chip.keyRegs k c cc).StoresWf := by
  fun_cases Chip.keyRegs
  · exact .show256 (.when (.ite hc'.put.put.put.put hc'.readFuses) fun hc => hc.put.put)
  · exact .when (.ite hc'.put.put.put.put hc'.readFuses) fun hc => hc.put.put

theorem Chip.StoresWf.holdStays {k cc} (hc' : cc.StoresWf) : (Chip.holdStays k c cc).StoresWf := hc'.when fun hc => hc.put.put

theorem Chip.StoresWf.pinsReset (hc : c.StoresWf) : c.pinsReset.StoresWf :=
  (((hc.each fun hc => hc.fioChange (fun hc => hc.put)).each fun hc => hc.when fun hc => hc.usbAct).when fun hc => hc.usbAct).when
    fun hc => hc.pcieAct

theorem Chip.StoresWf.afterReset {k vaonRamp} (hc : c.StoresWf) : (c.afterReset k vaonRamp).StoresWf :=
  .holdStays (.keyRegs ⟨wf_afterReset _ _ hc.fusesPart.pinsReset.regsWf, rfl⟩)

theorem Hub.StoresWf.coreReset {k cause escalated vaonRamp} (hh : h.StoresWf) : (h.coreReset k cause escalated vaonRamp).StoresWf :=
  hh.when fun hh => hh.standingCommands.onChip fun hc => hc.afterReset.put.put

theorem Hub.StoresWf.coldReset {cause} (hh : h.StoresWf) : (h.coldReset cause).StoresWf := hh.coreReset

theorem Hub.StoresWf.warmReset {escalated} (hh : h.StoresWf) : (h.warmReset escalated).StoresWf := hh.coreReset

theorem Chip.StoresWf.unanswerHeld {window} (hc : c.StoresWf) : (c.unanswerHeld window).StoresWf := by
  unfold Chip.unanswerHeld
  exact hc.modFab

theorem Chip.StoresWf.domainReset {failed} (hc : c.StoresWf) : (c.domainReset failed).StoresWf := (hc.put.put.frame (by rfl)).unanswerHeld

theorem Chip.StoresWf.lockkeeperReset (hc : c.StoresWf) : c.lockkeeperReset.StoresWf := hc.when fun hc => hc.domainReset

theorem Chip.StoresWf.datapathReset (hc : c.StoresWf) : c.datapathReset.StoresWf := by
  unfold Chip.datapathReset
  refine .each (.ite (.usbU0Reset ?_) ?_) fun hc => hc.when fun hc => hc.physDisable
  all_goals
    refine .unanswerHeld (.showPool (.frame (.put (.put (.put (.each (.each ?_ fun hc => hc.put) fun hc => hc.dmaStop)))) (by rfl)))
    exact ⟨wf_dropWords _ (hc.each fun hc => hc.retrain).regsWf, (hc.each fun hc => hc.retrain).stageWf⟩

/-! `PowerStates`: Power states and wake (15). -/

theorem Chip.StoresWf.modPst {f} (hc : c.StoresWf) : (c.modPst f).StoresWf := hc.frame (by rfl)

theorem Chip.StoresWf.domainStops {d} (hc : c.StoresWf) : (c.domainStops d).StoresWf := by
  unfold Chip.domainStops
  exact hc.putBit.when fun hc => hc.each fun hc => hc.modLnk

theorem Completes.execDomainDrop {d} : Completes s (execDomainDrop d s) := .onChip fun hc => hc.when fun hc => hc.domainStops

theorem Chip.StoresWf.voteWrite {x} (hc : c.StoresWf) : (c.voteWrite x).StoresWf := hc.put.votesWake.when fun hc => hc.inc

theorem Completes.execLkWait : Completes s (execLkWait s) := .onHub fun hh => hh.when fun hh => hh.onChip fun hc => hc.lkGate

theorem Completes.execLkUngate : Completes s (execLkUngate s) := .onHub fun hh => hh.when fun hh => hh.onChip fun hc => hc.lkGate

theorem Completes.execDomainWakeAccess {d stall} : Completes s (execDomainWakeAccess d stall s) :=
  .onChip fun hc => hc.when fun hc => hc.domainWake

theorem Chip.StoresWf.enterDeep {abort} (hc : c.StoresWf) : (c.enterDeep abort).StoresWf :=
  .ite hc.flag.modPst hc.remaskPass.unlockTime.inc.modPst

theorem Hub.StoresWf.tryDeep {abort} (hh : h.StoresWf) : (h.tryDeep abort).StoresWf := hh.when fun hh => hh.onChip fun hc => hc.enterDeep

theorem Completes.execDeepSleepEntry {abort} : Completes s (execDeepSleepEntry abort s) := .onHub fun hh => hh.tryDeep

theorem Chip.StoresWf.deepExit (hc : c.StoresWf) : c.deepExit.StoresWf := hc.modPst.flag.remaskPass

theorem Chip.StoresWf.deepWake {source} (hc : c.StoresWf) : (c.deepWake source).StoresWf := hc.putBit.deepExit

theorem Chip.StoresWf.accessWakes {i2c} (hc : c.StoresWf) : (c.accessWakes i2c).StoresWf :=
  hc.when fun hc => .stalled (.frame (.ite hc.deepWake hc.deepExit) (by rfl))

theorem Completes.execDeepSleepWake {source pin} : Completes s (execDeepSleepWake source pin s) :=
  .onChip fun hc => hc.when fun hc => hc.deepWake

theorem Completes.execDeepHoldExpiry : Completes s (execDeepHoldExpiry s) :=
  .onHub fun hh => hh.when fun hh => (hh.onChip fun hc => hc.modPst).tryDeep

theorem Completes.execPwrEnDrop : Completes s (execPwrEnDrop s) :=
  .onHub fun hh => hh.when fun hh => (hh.onChip fun hc => hc.emit.modPst).coreReset

theorem Chip.StoresWf.leaveOff (hc : c.StoresWf) : c.leaveOff.StoresWf := hc.emit.put.modPst

theorem Completes.execOffWake : Completes s (execOffWake s) := .onChip fun hc => hc.when fun hc => hc.leaveOff

theorem Chip.StoresWf.aonExpiry (hc : c.StoresWf) : c.aonExpiry.StoresWf := .ite hc.put.leaveOff (hc.put.when fun hc => hc.deepWake)

theorem Completes.execAonTimerExpiry : Completes s (execAonTimerExpiry s) := .onChip fun hc => hc.when fun hc => hc.aonExpiry

/-! `ImageOps`: The image header and the acceptance of an image (16 R469, 13 R413). -/

theorem Chip.StoresWf.firmwareTaken {i} (hc : c.StoresWf) : (c.firmwareTaken i).StoresWf := hc.show256.put

/-! `Switch`: The crossbar and what empties the virtual output queues (05 R169, R170, R182 to R188; 04 R129, R130, R149 to R155). -/

theorem Chip.StoresWf.accessAdapter {e} (hc : c.StoresWf) : (c.accessAdapter e).StoresWf := by
  fun_cases Chip.accessAdapter
  · exact hc.accessDomain
  · exact hc

theorem Chip.StoresWf.leave {d b} (hc : c.StoresWf) : (c.leave d b).StoresWf := by
  fun_cases Chip.leave
  · exact hc.egressDrop
  · exact hc.egressDrop
  · exact hc.modLnk
  · exact hc.egressDrop
  · exact hc.tackIn
  · exact hc.toP8
  · exact hc.accessAdapter.receiveTunnel
  · exact hc.accessAdapter.deliverMulticast

theorem Chip.StoresWf.loseBarge {x loc} (hc : c.StoresWf) : (c.loseBarge x loc).StoresWf := by
  fun_cases Chip.loseBarge
  · exact (hc.each fun hc => hc.dropDesc).inc.put.flag.stallTunnel.unretain
  · exact (hc.each fun hc => hc.dropDesc).inc.put.flag

theorem Chip.StoresWf.cross {check g} (hc : c.StoresWf) : (c.cross check g).StoresWf := by
  fun_cases Chip.cross
  · exact hc.modSwc
  · exact hc.eccRead.loseBarge
  · exact .dropRef (.leave (.crossed (.modSwc (.sample (by dsimp +zetaDelta only; split; exacts [hc.eccRead.inc, hc.eccRead])))))

theorem Chip.StoresWf.crossbar {checks} (hc : c.StoresWf) : (c.crossbar checks).StoresWf :=
  (hc.each fun hc => hc.countGuard).modSwc.each fun hc => hc.cross

theorem Completes.execCrossbarGrant {checks} : Completes s (execCrossbarGrant checks s) := .onChip fun hc => hc.when fun hc => hc.crossbar

theorem Chip.StoresWf.ageSweep (hc : c.StoresWf) : c.ageSweep.StoresWf := hc.each fun hc => .ite hc.inc.dropDesc hc

theorem Completes.execAgeSweep : Completes s (execAgeSweep s) := .onChip fun hc => hc.ageSweep

theorem Chip.StoresWf.walkOne {p d} (hc : c.StoresWf) : (c.walkOne p d).StoresWf := by
  fun_cases Chip.walkOne
  · exact hc
  · exact hc
  · exact hc.inc.dropDesc
  · exact hc.inc.dropDesc
  · exact hc.inc.dropDesc
  · exact hc.inc.dropDesc
  · exact hc.modSwc.inc.settleTag.becameBacklogged

theorem Chip.StoresWf.voqWalkDone {p} (hc : c.StoresWf) : (c.voqWalkDone p).StoresWf := (hc.each fun hc => hc.walkOne).modFab.takeLater

theorem Completes.execVoqWalkDone {p} : Completes s (execVoqWalkDone p s) := .onChip fun hc => hc.when fun hc => hc.voqWalkDone

theorem Completes.execPortRoutabilityLoss {p} : Completes s (execPortRoutabilityLoss p s) :=
  .onChip fun hc => hc.when fun hc => hc.routabilityLost

theorem Completes.execRouteNoticeTx {p} : Completes s (execRouteNoticeTx p s) := .onChip fun hc => hc.when fun hc => hc.sendNotice

theorem Completes.execRouteNoticeRx {p notice} : Completes s (execRouteNoticeRx p notice s) :=
  .onChip fun hc => hc.when fun hc => hc.trunkLookup

theorem Completes.execRouteNoticeAgeExpiry {spur index} : Completes s (execRouteNoticeAgeExpiry spur index s) :=
  .onChip fun hc => hc.when fun hc => hc.setProtection

theorem Chip.StoresWf.wtrExpiry {p} (hc : c.StoresWf) : (c.wtrExpiry p).StoresWf := hc.putBit.routabilityGained.modFab.sendNotice

theorem Completes.execWtrExpiry {p} : Completes s (execWtrExpiry p s) := .onChip fun hc => hc.when fun hc => hc.wtrExpiry

theorem Completes.execRestoreNoticeRepeat {p} : Completes s (execRestoreNoticeRepeat p s) :=
  .onChip fun hc => hc.when fun hc => hc.modFab.sendNotice

theorem Chip.StoresWf.peakClear (hc : c.StoresWf) : c.peakClear.StoresWf := hc.each fun hc => hc.put

/-! `Lockkeeper`: Start-up self-test, scrubbing, the Lockkeeper's supervision and its fallback sequencer (14 R429 to R443). -/

theorem Chip.StoresWf.modLkp {f} (hc : c.StoresWf) : (c.modLkp f).StoresWf := hc.frame (by rfl)

theorem Chip.StoresWf.lkFails {cause} (hc : c.StoresWf) : (c.lkFails cause).StoresWf := hc.when fun hc => hc.modLkp

theorem Completes.execLockstepMismatch {pc} : Completes s (execLockstepMismatch pc s) := .onChip fun hc => hc.when fun hc => hc.put.lkFails

theorem Completes.execWatchdogExpiry : Completes s (execWatchdogExpiry s) := .onChip fun hc => hc.when fun hc => hc.lkFails

theorem Completes.execBootTmoExpiry : Completes s (execBootTmoExpiry s) := .onChip fun hc => hc.when fun hc => hc.lkFails

theorem Chip.StoresWf.p8Discard (hc : c.StoresWf) : c.p8Discard.StoresWf := hc.add.modSwc

theorem Chip.StoresWf.enterHold (hc : c.StoresWf) : c.enterHold.StoresWf := hc.put.put.modLkp.raiseOwn

theorem Chip.StoresWf.lkRecord {cause} (hc : c.StoresWf) : (c.lkRecord cause).StoresWf := hc.put.put.inc.p8Discard.put.put.modLkp.raiseOwn

theorem Hub.StoresWf.lkFailure (hh : h.StoresWf) : h.lkFailure.StoresWf := by
  fun_cases Hub.lkFailure
  · exact hh
  · exact (((hh.onChip fun hc => hc.lkRecord).live fun hh => hh.each fun hh => hh.ctlLoss).onChip fun hc => hc.modLkp).warmReset
  · exact ((hh.onChip fun hc => hc.lkRecord).live fun hh => hh.each fun hh => hh.ctlLoss).onChip fun hc => hc.enterHold
  · exact (hh.onChip fun hc => hc.lkRecord).live fun hh => hh.each fun hh => hh.ctlLoss

theorem Completes.execLockkeeperFailure : Completes s (execLockkeeperFailure s) := .onHub fun hh => hh.when fun hh => hh.lkFailure

theorem Completes.execLkRestartBegin : Completes s (execLkRestartBegin s) := .onChip fun hc => hc.when fun hc => hc.inc.domainReset

theorem Completes.execLkRestartBistDone {ok} : Completes s (execLkRestartBistDone ok s) :=
  .onChip fun hc => hc.when fun hc => .ite hc.rewritten.put.modLkp hc.rewritten.lkFails

theorem Chip.StoresWf.firmwareReloaded {fw} (hc : c.StoresWf) : (c.firmwareReloaded fw).StoresWf :=
  .ite (hc.when fun hc => hc.dropMkb).firmwareTaken hc.lkFails

theorem Completes.execLkFirmwareLoaded {fw} : Completes s (execLkFirmwareLoaded fw s) :=
  .onChip fun hc => hc.when fun hc => hc.firmwareReloaded

theorem Chip.StoresWf.lkReady (hc : c.StoresWf) : c.lkReady.StoresWf :=
  hc.put.when fun hc => (hc.put.modLkp.when fun hc => hc.flag).when fun hc => hc.clearOwn

theorem Chip.StoresWf.lkKick (hc : c.StoresWf) : c.lkKick.StoresWf := hc.modLkp

theorem Completes.execSeqVoteDisagree {majority} : Completes s (execSeqVoteDisagree majority s) :=
  .onHub fun hh => hh.when fun hh => .ite (hh.onChip fun hc => hc.put.flag.raiseOwn.clearOwn) (hh.onChip fun hc => hc.flag).warmReset

theorem Chip.StoresWf.bistWords {ws} (hc : c.StoresWf) : (c.bistWords ws).2.StoresWf := by
  fun_induction Chip.bistWords
  · exact hc
  · next ih => exact (ih hc.remap).of_eq ‹_›
  · next ih => exact ih hc.remap.inc

theorem Chip.StoresWf.bistFailed {l hold} (hc : c.StoresWf) : (c.bistFailed l hold).StoresWf :=
  .ite hc.put.flag.put.flag.raiseLoc.enterHold hc.put.flag.put.flag.raiseLoc.modLkp

theorem Chip.StoresWf.holdLanes (hc : c.StoresWf) : c.holdLanes.StoresWf := hc.each fun hc => hc.each fun hc => hc.when fun hc => hc.put.put

theorem Chip.StoresWf.bistPassed (hc : c.StoresWf) : c.bistPassed.StoresWf := hc.clearAbout

theorem Chip.StoresWf.bistDone {r} (hc : c.StoresWf) : (c.bistDone r).StoresWf := by
  fun_cases Chip.bistDone
  all_goals
    have hb := (hc.frame (d := { c with rst := { c.rst with bist := false } }) rfl).rewritten.put.bistWords.of_eq ‹_›
  · exact hb.put.put.put.put.put.holdLanes.bistPassed
  · exact hb.put.put.put.put.put.holdLanes.bistFailed

theorem Completes.execBistComplete {result} : Completes s (execBistComplete result s) := .onChip fun hc => hc.when fun hc => hc.bistDone

theorem Chip.StoresWf.tableLost {off loc} (hc : c.StoresWf) : (c.tableLost off loc).StoresWf := by
  fun_cases Chip.tableLost
  · exact hc
  · exact ⟨wf_foldl_setWord _ _ hc.regsWf, hc.stageWf⟩
  · exact .unpoison (.flag ⟨wf_foldl_setWord _ _ hc.regsWf, hc.stageWf⟩)

theorem Chip.StoresWf.stageLost {w loc} (hc : c.StoresWf) : (c.stageLost w loc).StoresWf := by
  unfold Chip.stageLost
  refine hc.modStage ?_
  dsimp only
  exact memWf_memWrite _ _ hc.stageWf

theorem Chip.StoresWf.messageLost {port} (hc : c.StoresWf) : (c.messageLost port).StoresWf := by
  have hm : ∀ {p : Prop} [Decidable p] {f g}, (if p then c.modSwc f else c.modSwc g).StoresWf := .ite hc.modSwc hc.modSwc
  fun_cases Chip.messageLost
  · exact hm
  · exact hm.inc.flag
  · exact hm.inc.flag
  · exact hm.countBroken

theorem Chip.StoresWf.ownerActs {loc owner} (hc : c.StoresWf) : (c.ownerActs loc owner).StoresWf := by
  fun_cases Chip.ownerActs
  · exact hc.lkFails
  · exact hc
  · exact hc.loseBarge
  · exact hc
  · exact hc
  · exact hc.tableLost
  · exact hc
  · exact hc.when fun hc => hc.flag.linkLost
  · exact hc.when fun hc => hc.messageLost
  · exact hc.when fun hc => hc.stageLost

theorem Chip.StoresWf.checkedRead {loc found owner} (hc : c.StoresWf) : (c.checkedRead loc found owner).StoresWf := by
  fun_cases Chip.checkedRead
  · exact hc
  · exact hc.eccCorrectable
  · exact hc.eccRetried
  · exact hc.eccLost.ownerActs

theorem Chip.StoresWf.accessed {a} (hc : c.StoresWf) : (c.accessed a).StoresWf := by
  fun_cases Chip.accessed
  · exact hc.checkedRead
  · exact hc.unpoison

theorem Chip.StoresWf.scrub {found owner} (hc : c.StoresWf) : (c.scrub found owner).StoresWf :=
  .ite hc.checkedRead.put.inc.flag hc.checkedRead.put

theorem Completes.execScrubRead {reads owner} : Completes s (execScrubRead reads owner s) :=
  .onChip fun hc => (hc.when fun hc => hc.each fun hc => hc.accessed).when fun hc => hc.scrub

/-! `Readback`: What a register read returns (16 R485). -/

theorem Hub.StoresWf.readLatch {req off} (hh : h.StoresWf) : (h.readLatch req off).StoresWf := by
  fun_cases Hub.readLatch
  · exact hh.onChip fun hc => hc.put
  · exact hh.when fun hh => hh.onChip fun hc => hc.modFab
  · exact hh.onChip fun hc => hc.put
  · exact hh
  · exact hh.onHv fun hv => hv.put
  · exact hh.onHv fun hv => hv.put
  · exact hh
  · exact hh.onHv fun hv => hv.put
  · exact hh
  · exact hh

theorem Hub.StoresWf.pathRead {req off} (hh : h.StoresWf) : (h.pathRead req off).2.StoresWf := by
  fun_cases Hub.pathRead
  · exact hh
  · exact hh.readLatch

/-! `Shift`: Hitless rate shifting (02 R52 to R65, R78). -/

theorem Completes.execProposeUpShift {p} : Completes s (execProposeUpShift p s) := .onChip fun hc => hc.when fun hc => hc.propose

theorem Chip.StoresWf.proposeQuality {p target cause} (hc : c.StoresWf) : (c.proposeQuality p target cause).StoresWf :=
  .propose (.when (by split; exacts [.ite hc.modTrk hc, hc]) fun hc => hc.put)

theorem Completes.execProposeDownMargin {p snrA snrB} : Completes s (execProposeDownMargin p snrA snrB s) :=
  .onChip fun hc => hc.when fun hc => hc.modTrk.showPort.when fun hc => hc.proposeQuality

theorem Completes.execProposeDownCsr {p lane corrected total} : Completes s (execProposeDownCsr p lane corrected total s) :=
  .onChip fun hc => hc.when fun hc => hc.proposeQuality

theorem Completes.execProposeDownBurst {p lane} : Completes s (execProposeDownBurst p lane s) :=
  .onChip fun hc => hc.when fun hc => (hc.flag.modLane.when fun hc => hc.proposeQuality).when fun hc => hc.laneFail

theorem Chip.StoresWf.showHoldoff {p} (hc : c.StoresWf) : (c.showHoldoff p).StoresWf := hc.put

theorem Completes.execHoldoffExpiry {p fromStep} : Completes s (execHoldoffExpiry p fromStep s) := .onChip fun hc => hc.modTrk.showHoldoff

theorem Chip.StoresWf.commandShift {p target} (hc : c.StoresWf) : (c.commandShift p target).StoresWf :=
  .ite hc.refusedLocal (.ite (.ite hc.propose (hc.when fun hc => hc.modTrk)) hc.propose)

theorem Chip.StoresWf.shiftCmd {p target} (hc : c.StoresWf) : (c.shiftCmd p target).StoresWf := hc.put.commandShift

theorem Chip.StoresWf.stepLimits {p mx mn} (hc : c.StoresWf) : (c.stepLimits p mx mn).StoresWf :=
  ((hc.when fun hc => hc.put).when fun hc => hc.put).when fun hc => hc.modTrk.enforceLimits

theorem Completes.execProposeBudgetShift {p} : Completes s (execProposeBudgetShift p s) :=
  .onChip fun hc => hc.when fun hc => by split; exacts [hc.when fun hc => hc.modTrk.commandShift, hc.enforceLimits]

theorem Chip.StoresWf.shiftResult {p start target cause result reason} (hc : c.StoresWf) :
    (c.shiftResult p start target cause result reason).StoresWf :=
  hc.put.put.put.put.put

theorem Chip.StoresWf.proposalFailed {p o result reason keepCancel} (hc : c.StoresWf) :
    (c.proposalFailed p o result reason keepCancel).StoresWf :=
  .ite (.ite (hc.shiftResult.flag.modTrk.when fun hc => hc.put).modTrk.linkLost (hc.shiftResult.flag.modTrk.when
    fun hc => hc.put).modTrk.enforceLimits) (hc.shiftResult.flag.modTrk.when fun hc => hc.put).enforceLimits

theorem Chip.StoresWf.startHoldoff {p step} (hc : c.StoresWf) : (c.startHoldoff p step).StoresWf := hc.modTrk.showHoldoff

theorem Chip.StoresWf.shiftCheckDone {p} (hc : c.StoresWf) : (c.shiftCheckDone p).StoresWf := by
  fun_cases Chip.shiftCheckDone
  · exact .enforceLimits (.when (.ite hc.modTrk.put hc.modTrk.put.flag.shiftResult) fun hc => hc.startHoldoff)
  · exact .enforceLimits (.ite hc.modTrk.put hc.modTrk.put.flag.shiftResult)
  · exact hc

theorem Chip.StoresWf.answerReq {p target n} (hc : c.StoresWf) : (c.answerReq p target n).StoresWf := by
  fun_cases Chip.answerReq
  · exact hc.modTrk.modTrk.when fun hc => hc.protoError
  · exact hc.modTrk.modTrk

theorem Completes.execShiftReqRx {p} : Completes s (execShiftReqRx p s) := .onChip fun hc => by
  split
  · exact hc
  · refine .ite hc (.ite hc.protoError ?_)
    split
    · exact .ite (.ite hc hc.shiftResult.flag.modTrk.answerReq) hc.answerReq
    · exact hc.answerReq

theorem Completes.execShiftAccRx {p} : Completes s (execShiftAccRx p s) := .onChip fun hc => by split; exacts [.ite hc.modTrk.put hc, hc]

theorem Completes.execShiftRefRx {p} : Completes s (execShiftRefRx p s) :=
  .onChip fun hc => by split; exacts [.ite hc.proposalFailed hc, hc]

theorem Completes.execShiftCancel {p} : Completes s (execShiftCancel p s) :=
  .onChip fun hc => by split; exacts [.ite hc.proposalFailed hc, hc]

theorem Completes.execShiftCancelRx {p} : Completes s (execShiftCancelRx p s) :=
  .onChip fun hc => by split; exacts [.ite hc.modTrk.shiftResult.flag hc, hc]

theorem Completes.execShiftResponderCommit {p} : Completes s (execShiftResponderCommit p s) :=
  .onChip fun hc => by split; exacts [.ite hc.modTrk.put hc, hc]

theorem Chip.StoresWf.txSwitch {p target} (hc : c.StoresWf) : (c.txSwitch p target).StoresWf :=
  (hc.when fun hc => hc.put).fillGroup.modTrk.put.put.showPort.each fun hc => hc.emit

theorem Chip.StoresWf.switchIfDue {p} (hc : c.StoresWf) : (c.switchIfDue p).StoresWf := by
  fun_cases Chip.switchIfDue
  · exact hc
  · exact hc.txSwitch.modTrk.pcsFlush.shiftCheckDone

theorem Completes.execShiftTxSwitch {p} : Completes s (execShiftTxSwitch p s) := .onChip fun hc => hc.switchIfDue

theorem Completes.execShiftRxSwitch {p disturb} : Completes s (execShiftRxSwitch p disturb s) :=
  .onChip fun hc => by split; exacts [hc.put.modTrk.shiftCheckDone, hc.put.modTrk.shiftCheckDone, hc]

theorem Completes.execShiftAcquireFail {p lane} : Completes s (execShiftAcquireFail p lane s) :=
  .onChip fun hc => hc.when fun hc => .laneFail (.put (.put (.when
    (by split; exacts [hc.modTrk.shiftResult.flag, hc.modTrk.shiftResult.flag, hc]) fun hc => hc.put)))

end Sys2Proof.Machine
end

section
/-! What every step keeps of the stores: TrunkPower, PowerMsg, Towpath, Trunk. -/

namespace Sys2Proof.Machine

variable {c : Chip} {h : Hub} {v : Hv} {s : State}

/-! `TrunkPower`: The commands of the trunk power paths (11) that come from the HV die's own circuits. -/

theorem Hv.StoresWf.lockoutEnter (hv : v.StoresWf) : v.lockoutEnter.StoresWf := by
  unfold Hv.lockoutEnter
  exact ((hv.foldl (fun hv => hv.put.enter)).foldl (fun hv => hv.chanEnter)).frame (by rfl)

theorem Completes.execHvUvloEnter : Completes s (execHvUvloEnter s) := Completes.onPaths fun hh => hh.onLiveHv fun hv => hv.lockoutEnter

theorem Hv.StoresWf.lockoutRelease (hv : v.StoresWf) : v.lockoutRelease.StoresWf := ⟨wf_filter _ hv.regsWf⟩

theorem Completes.execHvUvloRelease : Completes s (execHvUvloRelease s) :=
  .onHub fun hh => hh.when fun hh => hh.onHv fun hv => hv.lockoutRelease

theorem Completes.execHvLinkLoss : Completes s (execHvLinkLoss s) := .onHub fun hh => hh.onLiveHv fun hv => hv.put

theorem Completes.execHvLinkRestore : Completes s (execHvLinkRestore s) := .onHub fun hh => hh.onLiveHv fun hv => hv.put

theorem Hv.StoresWf.probe {p} (hv : v.StoresWf) : (v.probe p).StoresWf := hv.when fun hv => .ite hv.put.modTpw hv.enter

theorem Hv.StoresWf.probeStart {p now} (hv : v.StoresWf) : (v.probeStart p now).StoresWf := hv.when fun hv => hv.probe

theorem Completes.execProbeStart {p} : Completes s (execProbeStart p s) := .onHub fun hh => hh.onLiveHv fun hv => hv.probeStart

theorem Hv.StoresWf.probeComplete {p r vcab} (hv : v.StoresWf) : (v.probeComplete p r vcab).StoresWf :=
  hv.when fun hv => .ite hv.put.modTpw.enter (.ite hv.put.put.modTpw.enter (.ite hv.put.put.modTpw.enter
    (.ite hv.put.put.modTpw.flag.bootContract.startRamp.modTpw hv.put.put.modTpw.flag.enter)))

theorem Completes.execProbeComplete {p r vcab} : Completes s (execProbeComplete p r vcab s) :=
  .onHub fun hh => hh.onLiveHv fun hv => hv.probeComplete

theorem Hv.StoresWf.partnerSilent {p now} (hv : v.StoresWf) : (v.partnerSilent p now).StoresWf := hv.when fun hv => hv.inc.modTpw.enter

theorem Completes.execPartnerSilentTimeout {p} : Completes s (execPartnerSilentTimeout p s) :=
  .onHub fun hh => hh.onLiveHv fun hv => hv.partnerSilent

theorem Hv.StoresWf.goOpen {p} (hv : v.StoresWf) : (v.goOpen p).StoresWf := hv.modTpw.enter

theorem Hv.StoresWf.goSource {p} (hv : v.StoresWf) : (v.goSource p).StoresWf := hv.modTpw.when fun hv => hv.startRamp

theorem Hv.StoresWf.goSink {p} (hv : v.StoresWf) : (v.goSink p).StoresWf := hv.modTpw.when fun hv => hv.closeSink

theorem Hub.StoresWf.portCommand {p role go clear probe} (hh : h.StoresWf) : (h.portCommand p role go clear probe).StoresWf :=
  hh.paths (fun hh => ((hh.when fun hh => (hh.onHv fun hv => hv.enter).when fun hh => hh.powerClear).when fun hh => hh.onHv
    fun hv => (by split; exacts [hv.goOpen, hv.goSource, hv.goSink, hv])).when fun hh => hh.onHv fun hv => hv.probe)

theorem Completes.execSinkClose {p} : Completes s (execSinkClose p s) :=
  Completes.onPaths fun hh => hh.onLiveHv fun hv => hv.when fun hv => hv.closeSink

theorem Completes.execSourceRampDone {p} : Completes s (execSourceRampDone p s) :=
  .onHub fun hh => hh.onLiveHv fun hv => hv.when fun hv => hv.enter

theorem Completes.execPathPgDeglitch {p} : Completes s (execPathPgDeglitch p s) :=
  .onHub fun hh => hh.onLiveHv fun hv => hv.when fun hv => .ite hv.modSw hv.modSw.setPg

theorem Completes.execPathLimiterChange {p holding} : Completes s (execPathLimiterChange p holding s) :=
  .onHub fun hh => hh.onLiveHv fun hv => hv.portLimiter

theorem Completes.execSourceRampFault {p cause} : Completes s (execSourceRampFault p cause s) :=
  .onHub fun hh => hh.live fun hh => hh.when fun hh => hh.portFault

theorem Completes.execPathFaultTimer {p} : Completes s (execPathFaultTimer p s) :=
  .onHub fun hh => hh.live fun hh => hh.when fun hh => hh.portFault

theorem Completes.execPathHardShort {p ma} : Completes s (execPathHardShort p ma s) :=
  .onHub fun hh => hh.live fun hh => hh.when fun hh => hh.portFault

theorem Completes.execPathOvervoltage {p} : Completes s (execPathOvervoltage p s) := .onHub fun hh => hh.live fun hh => hh.portFault

theorem Completes.execPathOvRecovery {p} : Completes s (execPathOvRecovery p s) :=
  Completes.onPaths fun hh => hh.onLiveHv fun hv => hv.when fun hv => hv.reenter

theorem Completes.execPathGateFault {p} : Completes s (execPathGateFault p s) :=
  .onHub fun hh => hh.live fun hh => hh.when fun hh => hh.portFault

theorem Completes.execPathDrop {p} : Completes s (execPathDrop p s) := .onHub fun hh => hh.live fun hh => hh.when fun hh => hh.portFault

theorem Hub.StoresWf.fetDamage {p d} (hh : h.StoresWf) : (h.fetDamage p d).StoresWf :=
  hh.when fun hh => ((hh.onHv fun hv => hv.put.flag).when fun hh => hh.onHv fun hv => hv.put).portLatch.powerAlarm

theorem Completes.execFetDamage {p damage} : Completes s (execFetDamage p damage s) := .onHub fun hh => hh.live fun hh => hh.fetDamage

theorem Hub.StoresWf.portRetry {p} (hh : h.StoresWf) : (h.portRetry p).StoresWf := by
  unfold Hub.portRetry
  exact hh.when fun hh => .ite hh.portSpent (hh.onHv fun hv => hv.put.reenter)

theorem Completes.execPathRetryDue {p} : Completes s (execPathRetryDue p s) :=
  Completes.onPaths fun hh => hh.live fun hh => hh.when fun hh => hh.portRetry

theorem Completes.execPathRetryCountReset {p} : Completes s (execPathRetryCountReset p s) :=
  .onHub fun hh => hh.onLiveHv fun hv => hv.when fun hv => hv.put

theorem Completes.execPathReverseTurnoff {p} : Completes s (execPathReverseTurnoff p s) :=
  .onHub fun hh => hh.onLiveHv fun hv => hv.when fun hv => hv.modTpw.refresh

theorem Hv.StoresWf.feedLoss (hv : v.StoresWf) : v.feedLoss.StoresWf := (hv.foldl (fun hv => hv.when fun hv => hv.feedShed)).put.flag

theorem Completes.execFeedLossShed {vrail} : Completes s (execFeedLossShed vrail s) :=
  .onHub fun hh => hh.onLiveHv fun hv => hv.when fun hv => hv.feedLoss

theorem Hv.StoresWf.feedRestore (hv : v.StoresWf) : v.feedRestore.StoresWf := hv.put.foldl (fun hv => hv.releaseHold)

theorem Completes.execFeedRestore : Completes s (execFeedRestore s) :=
  .onHub fun hh => hh.onLiveHv fun hv => hv.when fun hv => hv.feedRestore

theorem Completes.execOverdrawCheck {p mean} : Completes s (execOverdrawCheck p mean s) :=
  .onHub fun hh => hh.live fun hh => hh.when fun hh => (hh.onHv fun hv => hv.inc.flag).powerAlarm

theorem Chip.StoresWf.offerEnds {p} (hc : c.StoresWf) : (c.offerEnds p).StoresWf := hc.frame (by rfl)

theorem Hub.StoresWf.yieldSource {p} (hh : h.StoresWf) : (h.yieldSource p).StoresWf :=
  (hh.onHv fun hv => hv.closeSink.mirror.flag).onChip fun hc => hc.offerEnds

theorem Completes.execReverseCurrentSwap {p} : Completes s (execReverseCurrentSwap p s) :=
  Completes.onPaths fun hh => hh.live fun hh => hh.when fun hh => hh.yieldSource

theorem Hub.StoresWf.patternSeen {p} (hh : h.StoresWf) : (h.patternSeen p).StoresWf := .ite hh.yieldSource (hh.onHv fun hv => hv.inc.flag)

theorem Completes.execFastSwapPatternRx {p} : Completes s (execFastSwapPatternRx p s) :=
  Completes.onPaths fun hh => hh.when fun hh => hh.live fun hh => hh.patternSeen

theorem Hub.StoresWf.swapNewSource {p} (hh : h.StoresWf) : (h.swapNewSource p).StoresWf := by
  fun_cases Hub.swapNewSource
  · exact hh.when fun hh => (hh.onHv fun hv => .ite hv.enter hv.startRamp).onChip fun hc => hc.offerEnds
  · exact hh

theorem Completes.execSwapNewSource {p} : Completes s (execSwapNewSource p s) :=
  Completes.onPaths fun hh => hh.live fun hh => hh.swapNewSource

theorem Hub.StoresWf.swapOldSink {p} (hh : h.StoresWf) : (h.swapOldSink p).StoresWf := by
  fun_cases Hub.swapOldSink
  · exact hh.when fun hh => (hh.onHv fun hv => .ite hv.mirror (hv.when fun hv => hv.closeSink).mirror).onChip fun hc => (hc.when
      fun hc => hc.offerEnds).frame (by rfl)
  · exact hh

theorem Completes.execSwapOldSink {p} : Completes s (execSwapOldSink p s) := Completes.onPaths fun hh => hh.live fun hh => hh.swapOldSink

theorem Hub.StoresWf.swapCheck {p} (hh : h.StoresWf) : (h.swapCheck p).StoresWf := by
  fun_cases Hub.swapCheck
  · exact (hh.onHv fun hv => hv.put.inc.flag.refresh).onChip fun hc => hc.frame (by rfl)
  · exact hh.guardFail.onChip fun hc => hc.frame (by rfl)
  · exact hh.guardFail

theorem Completes.execSwapGuardCheck {p} : Completes s (execSwapGuardCheck p s) := .onHub fun hh => hh.live fun hh => hh.swapCheck

theorem Completes.execGuardFailure {p} : Completes s (execGuardFailure p s) := .onHub fun hh => hh.live fun hh => hh.guardFail

theorem Hv.StoresWf.restore {p} (hv : v.StoresWf) : (v.restore p).StoresWf :=
  hv.when fun hv => by
    dsimp only
    split
    exacts [.ite hv.modTpw.bootContract.startRamp hv.modTpw.enter, hv.modTpw.bootContract.closeSink, hv.modTpw.enter]

theorem Completes.execRestoreExpiry {p} : Completes s (execRestoreExpiry p s) :=
  Completes.onPaths fun hh => hh.onLiveHv fun hv => hv.restore

theorem Hub.StoresWf.modelUpdate {smp} (hh : h.StoresWf) : (h.modelUpdate smp).StoresWf :=
  (((hh.onHv fun hv => (hv.frame (by rfl)).put.put).each fun hh => hh.portStep).each fun hh => hh.chanStep).onHv fun hv => hv.refresh

theorem Completes.execFetModelUpdate {smp} : Completes s (execFetModelUpdate smp s) := .onHub fun hh => hh.live fun hh => hh.modelUpdate

/-! `PowerMsg`: Power messages on the Towpath (11 R352 to R362). -/

theorem Chip.StoresWf.modPwr {f} (hc : c.StoresWf) : (c.modPwr f).StoresWf := hc.frame (by rfl)

theorem Chip.StoresWf.lkAnswer {p cls seq payload} (hc : c.StoresWf) : (c.lkAnswer p cls seq payload).StoresWf := hc.sendAnswerFw

theorem Hub.StoresWf.lkTakes {p f} (hf : ∀ {h : Hub}, h.StoresWf → (f h).StoresWf) (hh : h.StoresWf) : (h.lkTakes p f).StoresWf :=
  hh.when hf

theorem Hv.StoresWf.lowerContract {p dir o} (hv : v.StoresWf) : (v.lowerContract p dir o).StoresWf := hv.when fun hv => hv.put.put

theorem Hub.StoresWf.offerRx {p hdr payload} (hh : h.StoresWf) : (h.offerRx p hdr payload).StoresWf :=
  hh.lkTakes (fun hh => ((hh.onChip fun hc => hc.modPwr.lkAnswer).when fun hh => hh.onLiveHv
    fun hv => hv.lowerContract).floorHint.roleResolution)

theorem Hub.StoresWf.powerRequestRx {p hdr payload} (hh : h.StoresWf) : (h.powerRequestRx p hdr payload).StoresWf :=
  hh.lkTakes (fun hh => .ite (hh.onChip fun hc => hc.lkAnswer) ((hh.onLiveHv fun hv => hv.setContract).onChip fun hc => hc.lkAnswer))

theorem Hub.StoresWf.contractTaken {p payload} (hh : h.StoresWf) : (h.contractTaken p payload).StoresWf :=
  hh.lkTakes (fun hh => hh.onLiveHv fun hv => hv.setContract)

theorem Completes.execContractLowerDelay {p} : Completes s (execContractLowerDelay p s) :=
  .onHub fun hh => hh.lkTakes (fun hh => (by split; exacts [hh.when fun hh => hh.onLiveHv fun hv => hv.lowerContract, hh]))

theorem Hub.StoresWf.swapReqRx {p hdr payload} (hh : h.StoresWf) : (h.swapReqRx p hdr payload).StoresWf :=
  hh.lkTakes (fun hh => (hh.onChip fun hc => hc.lkAnswer).when fun hh => hh.onChip fun hc => hc.modPwr)

theorem Hub.StoresWf.swapStart {p newSource} (hh : h.StoresWf) : (h.swapStart p newSource).StoresWf :=
  hh.when fun hh => (hh.onChip fun hc => hc.modPwr).onLiveHv fun hv => hv.put.refresh

theorem Hub.StoresWf.swapAckSent {p} (hh : h.StoresWf) : (h.swapAckSent p).StoresWf := by
  fun_cases Hub.swapAckSent
  · exact hh.when fun hh => hh.swapStart
  · exact hh

theorem Hub.StoresWf.swapAcked {p r payload} (hh : h.StoresWf) : (h.swapAcked p r payload).StoresWf := hh.when fun hh => hh.swapStart

theorem Completes.execSwapStatusProbe {p} : Completes s (execSwapStatusProbe p s) :=
  .onChip fun hc => by split; exacts [hc.when fun hc => hc.request, hc]

theorem Hub.StoresWf.frsTrigger {p} (hh : h.StoresWf) : (h.frsTrigger p).StoresWf :=
  hh.when fun hh => (hh.onHv fun hv => hv.enter.mirror.modSw.inc.flag).onChip fun hc => hc.offerEnds.when fun hc => hc.emit.modTp.request

theorem Completes.execFrsTrigger {p} : Completes s (execFrsTrigger p s) := Completes.onPaths fun hh => hh.live fun hh => hh.frsTrigger

theorem Hub.StoresWf.fastSwapRx {p hdr payload} (hh : h.StoresWf) : (h.fastSwapRx p hdr payload).StoresWf :=
  hh.lkTakes (fun hh => (hh.onLiveHv fun hv => hv.setContract).onChip fun hc => hc.lkAnswer)

theorem Hub.StoresWf.powerRequest {p hdr payload} (hh : h.StoresWf) : (h.powerRequest p hdr payload).StoresWf := by
  fun_cases Hub.powerRequest
  · exact hh.offerRx
  · exact hh.powerRequestRx
  · exact hh.swapReqRx
  · exact hh.when fun hh => hh.fastSwapRx
  · exact hh

theorem Hub.StoresWf.partnerHeard {p} (hh : h.StoresWf) : (h.partnerHeard p).StoresWf := by
  fun_cases Hub.partnerHeard
  · exact (hh.onHv fun hv => hv.when fun hv => hv.modTpw).when fun hh => hh.onChip fun hc => hc.modPwr
  · exact hh.onHv fun hv => hv.when fun hv => hv.modTpw

theorem Chip.StoresWf.offerSent {p cls payload} (hc : c.StoresWf) : (c.offerSent p cls payload).StoresWf := hc.when fun hc => hc.modPwr

theorem Hub.StoresWf.sendOffer {p} (hh : h.StoresWf) : (h.sendOffer p).StoresWf := by
  fun_cases Hub.sendOffer
  next d =>
    have hd := ((((hh.chip.draw.of_eq ‹_›).draw.of_eq ‹_›).draw.of_eq ‹_›).draw.of_eq ‹_›).draw.of_eq ‹_›
    have hq : d.StoresWf := hd.requestWith
    refine ⟨?_, hh.hv⟩
    dsimp only
    exact hq.offerSent

theorem Hub.StoresWf.makeOffers (hh : h.StoresWf) : h.makeOffers.StoresWf :=
  hh.each fun hh => hh.lkTakes (fun hh => hh.when fun hh => hh.sendOffer)

/-! `Towpath`: The Towpath (03 R108 to R119, R522). -/

theorem Chip.StoresWf.lineIdle {p} (hc : c.StoresWf) : (c.lineIdle p).StoresWf := (hc.frame (by rfl)).put

theorem Hub.StoresWf.frameSeen {p} (hh : h.StoresWf) : (h.frameSeen p).StoresWf := (hh.onChip fun hc => hc.put.inc.put.modTp).partnerHeard

theorem Hub.StoresWf.helloRx {p hdr payload} (hh : h.StoresWf) : (h.helloRx p hdr payload).StoresWf :=
  ((hh.onChip fun hc => hc.helloTaken).when fun hh => hh.onChip fun hc => hc.sendAnswer).roleResolution

theorem Hub.StoresWf.statusRx {p hdr} (hh : h.StoresWf) : (h.statusRx p hdr).StoresWf := hh.onChip fun hc => hc.sendAnswer

theorem Hub.StoresWf.softResetRx {p hdr payload} (hh : h.StoresWf) : (h.softResetRx p hdr payload).StoresWf :=
  (hh.onChip fun hc => (hc.when fun hc => hc.tpRestart).sendAnswer.flag).when fun hh => hh.onChip fun hc => hc.lockkeeperReset

theorem Hub.StoresWf.lkRequest {p hdr payload} (hh : h.StoresWf) : (h.lkRequest p hdr payload).StoresWf := by
  fun_cases Hub.lkRequest
  · exact hh.onChip fun hc => hc.keyxFrame
  · exact hh.onChip fun hc => hc.when fun hc => hc.lkAnswer
  · exact hh.powerRequest

theorem Hub.StoresWf.mailRequest {p hdr payload} (hh : h.StoresWf) : (h.mailRequest p hdr payload).StoresWf :=
  .ite hh (hh.onChip fun hc => hc.toMailbox).lkRequest

theorem Hub.StoresWf.tpRequestRx {p hdr payload} (hh : h.StoresWf) : (h.tpRequestRx p hdr payload).StoresWf := by
  fun_cases Hub.tpRequestRx
  · exact hh.onChip fun hc => hc.queueFrame
  · exact hh.helloRx
  · exact hh
  · exact hh.statusRx
  · exact hh.softResetRx
  · exact hh
  · exact hh.mailRequest

theorem Chip.StoresWf.escalationStatus {p hdr payload} (hc : c.StoresWf) : (c.escalationStatus p hdr payload).StoresWf := by
  fun_cases Chip.escalationStatus
  · exact hc
  · exact hc.put.partnerBack.partnerRuns.flag.put.raise.dropRequest.fwEnds
  · exact hc.put.partnerBack.partnerRuns.setRequest.put
  · exact hc.put.partnerBack.partnerRuns.setRequest.queueFrame.modTp.put

theorem Hub.StoresWf.tpAnswerRx {p hdr payload} (hh : h.StoresWf) : (h.tpAnswerRx p hdr payload).StoresWf := by
  fun_cases Hub.tpAnswerRx
  · exact (hh.onChip fun hc => hc.dropRequest.put.fwEnds).helloRx
  · exact hh.onChip fun hc => hc.dropRequest.put.fwEnds.when fun hc => hc.tpRestart
  · exact hh
  · exact ((hh.onChip fun hc => hc.when fun hc => hc.toMailbox).onChip fun hc => hc.dropRequest.put.fwEnds).contractTaken
  · exact ((hh.onChip fun hc => hc.when fun hc => hc.toMailbox).onChip fun hc => hc.dropRequest.put.fwEnds).swapAcked
  · exact ((hh.onChip fun hc => hc.when fun hc => hc.toMailbox).onChip fun hc => hc.dropRequest.put.fwEnds).onChip fun hc => hc.put
  · exact ((hh.onChip fun hc => hc.when fun hc => hc.toMailbox).onChip fun hc => hc.dropRequest.put.fwEnds).onChip fun hc => hc.keyxFrame
  · exact (hh.onChip fun hc => hc.when fun hc => hc.toMailbox).onChip fun hc => hc.dropRequest.put.fwEnds
  · exact hh.onChip fun hc => hc.tpRestart
  · exact hh.onChip fun hc => hc.escalationStatus
  · exact hh

theorem Hub.StoresWf.frameTaken {p hdr payload} (hh : h.StoresWf) : (h.frameTaken p hdr payload).StoresWf :=
  .ite hh.frameSeen.tpAnswerRx hh.frameSeen.tpRequestRx

theorem Hub.StoresWf.tpFrameRx {p hdr payload crc} (hh : h.StoresWf) : (h.tpFrameRx p hdr payload crc).StoresWf :=
  .ite (hh.onChip fun hc => hc.inc) hh.frameTaken

theorem Completes.execTowpathFrameRx {p hdr payload crc} : Completes s (execTowpathFrameRx p hdr payload crc s) :=
  .onHub fun hh => hh.when fun hh => hh.tpFrameRx

theorem Completes.tpFrame {p cls rsp hdr payload} : Completes s (s.tpFrame p cls rsp hdr payload) :=
  .onHub fun hh => hh.when fun hh => hh.frameTaken

theorem Completes.execHelloRx {p hdr payload} : Completes s (execHelloRx p hdr payload s) := Completes.tpFrame

theorem Completes.execStatusRequestRx {p hdr} : Completes s (execStatusRequestRx p hdr s) := Completes.tpFrame

theorem Completes.execResetSoftRx {p hdr payload} : Completes s (execResetSoftRx p hdr payload s) := Completes.tpFrame

theorem Completes.execTpEscalationStatusRx {p hdr payload} : Completes s (execTpEscalationStatusRx p hdr payload s) := Completes.tpFrame

theorem Completes.execPwrOfferRx {p hdr payload} : Completes s (execPwrOfferRx p hdr payload s) := Completes.tpFrame

theorem Completes.execPwrRequestRx {p hdr payload} : Completes s (execPwrRequestRx p hdr payload s) := Completes.tpFrame

theorem Completes.execPwrAcceptRx {p hdr payload} : Completes s (execPwrAcceptRx p hdr payload s) := Completes.tpFrame

theorem Completes.execPwrRejectRx {p hdr payload} : Completes s (execPwrRejectRx p hdr payload s) := Completes.tpFrame

theorem Completes.execSwapReqRx {p hdr payload} : Completes s (execSwapReqRx p hdr payload s) := Completes.tpFrame

theorem Completes.execSwapAckRx {p hdr payload} : Completes s (execSwapAckRx p hdr payload s) := Completes.tpFrame

theorem Completes.execFastSwapMsgRx {p hdr payload} : Completes s (execFastSwapMsgRx p hdr payload s) := Completes.tpFrame

theorem Completes.keyxRx {p type hdr payload} : Completes s (s.keyxRx p type hdr payload) :=
  .onHub fun hh => hh.when fun hh => hh.frameTaken

theorem Completes.execKeyxHelloKRx {p hdr payload} : Completes s (execKeyxHelloKRx p hdr payload s) := Completes.keyxRx

theorem Completes.execKeyxConfirmRx {p hdr payload} : Completes s (execKeyxConfirmRx p hdr payload s) := Completes.keyxRx

theorem Completes.execKeyxFailRx {p hdr payload} : Completes s (execKeyxFailRx p hdr payload s) := Completes.keyxRx

theorem Hub.StoresWf.tpTimeout {p seq} (hh : h.StoresWf) : (h.tpTimeout p seq).StoresWf :=
  (hh.onChip fun hc => hc.tpTimeout).when fun hh => hh.guardFail

theorem Chip.StoresWf.tpSend {p collided} (hc : c.StoresWf) : (c.tpSend p collided).StoresWf := by
  fun_cases Chip.tpSend
  · exact hc
  · exact hc
  · exact hc.inc.modTp
  · exact (hc.inc.draw.of_eq ‹_›).modTp
  · exact hc.emit.inc.modTp

theorem Hub.StoresWf.frameAbandoned {p f} (hh : h.StoresWf) : (h.frameAbandoned p f).StoresWf :=
  (hh.onChip fun hc => hc.abandonedFrame).when fun hh => hh.guardFail

theorem Hub.StoresWf.tpSend {p collided} (hh : h.StoresWf) : (h.tpSend p collided).StoresWf := by
  fun_cases Hub.tpSend
  · exact ((hh.onChip fun hc => hc.tpSend).when fun hh => hh.frameAbandoned).when fun hh => hh.swapAckSent
  · exact hh.onChip fun hc => hc.tpSend

theorem Completes.execTowpathSend {p collided} : Completes s (execTowpathSend p collided s) := .onHub fun hh => hh.when fun hh => hh.tpSend

theorem Completes.execTowpathBackoffExpiry {p} : Completes s (execTowpathBackoffExpiry p s) := .onChip fun hc => hc.when fun hc => hc.modTp

theorem Completes.execHelloTx {p} : Completes s (execHelloTx p s) := .onHub fun hh => hh.when fun hh => hh.onChip fun hc => hc.modTp.request

theorem Completes.execPartnerSeenTimeout {p} : Completes s (execPartnerSeenTimeout p s) := .onChip fun hc => hc.when fun hc => hc.put

theorem Completes.execTpAnswerTimeout {p seq} : Completes s (execTpAnswerTimeout p seq s) := .onHub fun hh => hh.when fun hh => hh.tpTimeout

theorem Completes.execTpRestartWaitExpiry {p} : Completes s (execTpRestartWaitExpiry p s) :=
  .onChip fun hc => hc.when fun hc => by split; exacts [hc, hc.sendAgain.put]

theorem Completes.execTpUnescalatedTimeout {p seq} : Completes s (execTpUnescalatedTimeout p seq s) :=
  .onChip fun hc => hc.when fun hc => by split; exacts [hc, .ite hc hc.unanswered]

theorem Chip.StoresWf.fwRequest {p hdr payload escalates} (hc : c.StoresWf) : (c.fwRequest p hdr payload escalates).StoresWf :=
  hc.requestWith.put.put

theorem Chip.StoresWf.tpMailSend {p} (hc : c.StoresWf) : (c.tpMailSend p).StoresWf := .ite hc.sendAnswerFw hc.fwRequest.offerSent

theorem Chip.StoresWf.tpStatusReq {p} (hc : c.StoresWf) : (c.tpStatusReq p).StoresWf := hc.fwRequest

theorem Chip.StoresWf.tpSoftReset {p} (hc : c.StoresWf) : (c.tpSoftReset p).StoresWf := hc.fwRequest

theorem Chip.StoresWf.tpRelease {p} (hc : c.StoresWf) : (c.tpRelease p).StoresWf := hc.modTp

theorem Hub.StoresWf.tpCommand {p w} (hh : h.StoresWf) : (h.tpCommand p w).StoresWf :=
  hh.when fun hh => ((hh.onChip fun hc => ((hc.when fun hc => hc.tpMailSend).when fun hc => hc.tpStatusReq).when
    fun hc => hc.tpSoftReset).when fun hh => (hh.onChip fun hc => hc.sendBreak).guardFail).onChip fun hc => hc.when fun hc => hc.tpRelease

theorem Hub.StoresWf.breakRx {p} (hh : h.StoresWf) : (h.breakRx p).StoresWf :=
  .ite (hh.when fun hh => hh.onChip fun hc => hc.deepWake) (.ite ((hh.when fun hh => hh.onChip fun hc => hc.deepWake).guardFail.onChip
    fun hc => hc.inc.flag) ((hh.when fun hh => hh.onChip fun hc => hc.deepWake).coldReset.onChip fun hc => hc.frame (by rfl)))

theorem Completes.execHardResetBreakRx {p fresh} : Completes s (execHardResetBreakRx p fresh s) :=
  .onHub fun hh => hh.when fun hh => (hh.onChip fun hc => hc.lineIdle).breakRx

theorem Completes.execBreakResetRelease {p toneEnded} : Completes s (execBreakResetRelease p toneEnded s) :=
  .onChip fun hc => hc.when fun hc => (hc.frame (by rfl)).put.put

theorem Completes.execBreakGuardExpiry {p} : Completes s (execBreakGuardExpiry p s) := .onChip fun hc => hc.put

/-! `Trunk`: Trunk lanes (02). -/

theorem Chip.StoresWf.bringupAll (hc : c.StoresWf) : c.bringupAll.StoresWf := hc.each fun hc => hc.when fun hc => hc.startBringup

theorem Completes.execBringupStart : Completes s (execBringupStart s) := .onChip fun hc => hc.when fun hc => hc.bringupAll

theorem Completes.execEchoTrainingEnd {p} : Completes s (execEchoTrainingEnd p s) := .onChip fun hc => hc.when fun hc => hc.put

theorem Chip.StoresWf.showPpm {p ppm} (hc : c.StoresWf) : (c.showPpm p ppm).StoresWf := hc.modTrk.putS

theorem Completes.execPartnerAcquired {p ppm} : Completes s (execPartnerAcquired p ppm s) :=
  .onChip fun hc => hc.when fun hc => (hc.put.showPpm.each fun hc => hc.when fun hc => hc.put.put).modTrk.emit

theorem Chip.StoresWf.refuseLink {p} (hc : c.StoresWf) : (c.refuseLink p).StoresWf := hc.flag.bringupFailed

theorem Chip.StoresWf.linkUp {p hello} (hc : c.StoresWf) : (c.linkUp p hello).StoresWf :=
  ((hc.put.put.put.put.put.put.put.put.put.put.put.put.each fun hc => hc.when fun hc => hc.put).flag.put.modTrk.modPcs.linkReset.when
    fun hc => hc.raiseLink).partnerBack.sendMarkers

theorem Completes.execHandshake {p partner} : Completes s (execHandshake p partner s) :=
  .onChip fun hc => hc.when fun hc => .ite hc.refuseLink (.ite hc.refuseLink (.ite hc.bringupFailed hc.linkUp))

theorem Completes.execListeningEnter {p} : Completes s (execListeningEnter p s) :=
  .onChip fun hc => hc.when fun hc => (hc.each fun hc => hc.put.put).put.modTrk

theorem Completes.execListenBurst {p} : Completes s (execListenBurst p s) := .onChip fun hc => hc.when fun hc => hc.emit

theorem Completes.execPartnerEnergy {p ms} : Completes s (execPartnerEnergy p ms s) :=
  .onChip fun hc => hc.when fun hc => hc.put.lanesTrain.emit.modTrk

theorem Completes.execBringupBackoffExpiry {p} : Completes s (execBringupBackoffExpiry p s) :=
  .onChip fun hc => hc.when fun hc => hc.startBringup

theorem Chip.StoresWf.climb {p} (hc : c.StoresWf) : (c.climb p).StoresWf := .ite (.ite hc.put.propose hc.put) hc

theorem Chip.StoresWf.snapshot {p sn} (hc : c.StoresWf) : (c.snapshot p sn).StoresWf :=
  .ite (hc.modTrk.showPort.put.put.put.put.when fun hc => .when (by split; exacts [hc.put.flag.put.put, hc.put.flag])
    fun hc => hc.raiseLink).climb (hc.modTrk.showPort.put.put.put.put.when fun hc => .when
    (by split; exacts [hc.put.flag.put.put, hc.put.flag]) fun hc => hc.raiseLink).enforceLimits

theorem Completes.execChannelSnapshot {p snap} : Completes s (execChannelSnapshot p snap s) :=
  .onChip fun hc => hc.when fun hc => .ite hc.snapshot (hc.when fun hc => hc.put)

theorem Chip.StoresWf.wetClear {p} (hc : c.StoresWf) : (c.wetClear p).StoresWf := hc.when fun hc => hc.put.when fun hc => hc.raiseLink

theorem Completes.execClimbDwellExpiry {p} : Completes s (execClimbDwellExpiry p s) := .onChip fun hc => hc.when fun hc => hc.climb

theorem Chip.StoresWf.spanBegin {p} (hc : c.StoresWf) : (c.spanBegin p).StoresWf :=
  (((hc.inc.modPcs.when fun hc => hc.switchIfDue).when fun hc => hc.modTrk.changeAtBoundary).laneChangeDue.sendMarkers.each
    fun hc => hc.pcsSend).when fun hc => hc.switchIfDue

theorem Completes.execSpanStart {p} : Completes s (execSpanStart p s) := .onChip fun hc => hc.when fun hc => hc.pcsFill.spanBegin

theorem Chip.StoresWf.markerRx {p copies} (hc : c.StoresWf) : (c.markerRx p copies).StoresWf := by
  fun_cases Chip.markerRx
  · exact (hc.each fun hc => hc.takeBlock).modTrk.protoError
  · exact (((hc.each fun hc => hc.takeBlock).modTrk.when fun hc => hc.put).when fun hc => hc.protoError).markerEpoch.enforceLimits

theorem Completes.execLockMarkerRx {p copies} : Completes s (execLockMarkerRx p copies s) := .onChip fun hc => hc.when fun hc => hc.markerRx

theorem Chip.StoresWf.rxTake {p b} (hc : c.StoresWf) : (c.rxTake p b).StoresWf := by
  fun_cases Chip.rxTake
  · exact hc.modPcs
  · exact hc
  · exact hc.protoError
  · exact hc.linkProto

theorem Chip.StoresWf.rxSide {p l} (hc : c.StoresWf) : (c.rxSide p l).StoresWf := hc.when fun hc => hc.modLane.modPcs

theorem Chip.StoresWf.rxOne {p d} (hc : c.StoresWf) (hd : c.rxOne p = some d) : d.StoresWf := by
  revert hd
  fun_cases Chip.rxOne
  · rintro ⟨⟩; exact hc.rxChangeDue.modLane.rxMarker.rxTake.rxAdvance
  · rintro ⟨⟩; exact hc.rxChangeDue.modLane.rxAdvance
  · rintro ⟨⟩; exact hc.rxChangeDue.rxAdvance
  · nofun

theorem Chip.StoresWf.rxRun {p n} (hc : c.StoresWf) : (c.rxRun p n).StoresWf := by
  fun_induction Chip.rxRun
  · exact hc
  · next hd ih => exact ih (hc.rxOne hd)
  · exact hc

theorem Chip.StoresWf.rxOrder {p} (hc : c.StoresWf) : (c.rxOrder p).StoresWf :=
  .ite (hc.each fun hc => hc.modLane) (hc.rxRun.when fun hc => hc.rxSide)

theorem Chip.StoresWf.rxCodeword {p lane precoded idx} (hc : c.StoresWf) : (c.rxCodeword p lane precoded idx).StoresWf := by
  fun_cases Chip.rxCodeword
  exact .rxOrder (by dsimp +zetaDelta only; split; exacts [hc.modLane, hc.modLane.inc.add, hc.modLane.inc.when fun hc => hc.sendNak])

theorem Chip.StoresWf.check {p idx} (hc : c.StoresWf) : (c.check p idx).StoresWf := hc.modPcs.put.put

theorem Chip.StoresWf.testRx {p lane idx} (hc : c.StoresWf) : (c.testRx p lane idx).StoresWf := by
  fun_cases Chip.testRx
  · exact hc.modLane.rxCodeword
  · exact hc.modPcs.when fun hc => hc.check
  · exact hc.modLane.rxCodeword
  · exact hc.emit.when fun hc => hc.check
  · exact hc.check
  · exact hc.rxCodeword

theorem Completes.execCodewordRx {p lane symbols} : Completes s (execCodewordRx p lane symbols s) :=
  .onChip fun hc => .ite (hc.when fun hc => hc.testRx) (hc.when fun hc => hc.rxCodeword)

theorem Completes.execElasticSlip {p ppm} : Completes s (execElasticSlip p ppm s) :=
  .onChip fun hc => hc.when fun hc => hc.showPpm.modPcs.inc

theorem Completes.execFillerDue {p idle} : Completes s (execFillerDue p idle s) :=
  .onChip fun hc => hc.when fun hc => .ite (hc.when fun hc => hc.pcsSend) hc.pcsFill

theorem Completes.execLaneLossOfSignal {p lane} : Completes s (execLaneLossOfSignal p lane s) :=
  .onChip fun hc => hc.when fun hc => hc.put.put.laneFail

theorem Chip.StoresWf.laneDownRx {p lane sp bl} (hc : c.StoresWf) : (c.laneDownRx p lane sp bl).StoresWf :=
  .ite (.ite hc.put.flag.put.modTrk.rxChangeAt.changeAtBoundary.raiseLink hc.linkLost) (hc.modPcs.when fun hc => hc.put)

theorem Chip.StoresWf.laneJoinRx {p lane locked sp bl} (hc : c.StoresWf) : (c.laneJoinRx p lane locked sp bl).StoresWf :=
  .ite hc.rxChangeAt (.ite hc.rxChangeAt.announceChange (hc.announceChange.when fun hc => hc.put))

theorem Chip.StoresWf.wakeLaneB {p} (hc : c.StoresWf) : (c.wakeLaneB p).StoresWf := hc.announceChange.modTrk.put

theorem Chip.StoresWf.wakeRx {p sp bl} (hc : c.StoresWf) : (c.wakeRx p sp bl).StoresWf :=
  (hc.rxChangeAt.when fun hc => hc.put).when fun hc => hc.wakeLaneB

theorem Chip.StoresWf.laneCtlRx {p ctl locked} (hc : c.StoresWf) : (c.laneCtlRx p ctl locked).StoresWf := by
  fun_cases Chip.laneCtlRx
  · exact hc
  · exact hc.takeBlock
  · exact hc.takeBlock.laneDownRx
  · exact hc.takeBlock.laneJoinRx
  · exact hc.takeBlock.wakeRx
  · exact hc.takeBlock.protoError

theorem Completes.execLaneDownRx {p ctl} : Completes s (execLaneDownRx p ctl s) := .onChip fun hc => hc.laneCtlRx

theorem Completes.execLaneJoinAttempt {p lane} : Completes s (execLaneJoinAttempt p lane s) :=
  .onChip fun hc => hc.when fun hc => hc.modTrk.put

theorem Completes.execLaneJoinLocked {p lane locked} : Completes s (execLaneJoinLocked p lane locked s) :=
  .onChip fun hc => hc.when fun hc => .ite hc.announceChange hc.put

theorem Completes.execLaneJoinRx {p ctl locked} : Completes s (execLaneJoinRx p ctl locked s) := .onChip fun hc => hc.laneCtlRx

theorem Completes.execQuietEnter {p util} : Completes s (execQuietEnter p util s) := .onChip fun hc => hc.when fun hc => hc.modTrk

theorem Completes.execQuietRefreshBurst {p} : Completes s (execQuietRefreshBurst p s) := .onChip fun hc => hc.when fun hc => hc.emit

theorem Completes.execWakeB {p laneAFailing} : Completes s (execWakeB p laneAFailing s) :=
  .onChip fun hc => hc.when fun hc => hc.modTrk.when fun hc => hc.wakeLaneB

theorem Completes.execWakeBRx {p ctl} : Completes s (execWakeBRx p ctl s) := .onChip fun hc => hc.laneCtlRx

theorem Completes.execMoorEnter {p} : Completes s (execMoorEnter p s) :=
  .onChip fun hc => hc.when fun hc => (hc.pcsFill.when fun hc => hc.spanBegin.fillGroup).modPcs.each fun hc => hc.when fun hc => hc.put

theorem Chip.StoresWf.unmoor {p dTemp sends} (hc : c.StoresWf) : (c.unmoor p dTemp sends).StoresWf :=
  .ite ((hc.put.put.modTrk.when fun hc => hc.each fun hc => hc.emit).each fun hc => hc.put).modTrk.put (hc.put.put.modTrk.when
    fun hc => hc.each fun hc => hc.emit).linkGone.startBringup

theorem Completes.execMoorExit {p dTemp} : Completes s (execMoorExit p dTemp s) := .onChip fun hc => hc.when fun hc => hc.unmoor

theorem Completes.execMoorPreambleRx {p dTemp} : Completes s (execMoorPreambleRx p dTemp s) := .onChip fun hc => hc.when fun hc => hc.unmoor

theorem Chip.StoresWf.lossOfLink {p} (hc : c.StoresWf) : (c.lossOfLink p).StoresWf :=
  .ite (hc.each fun hc => hc.put.put).linkLost (.ite (hc.each fun hc => hc.put.put).bringupFailed (hc.each
    fun hc => hc.put.put).modTrk.startBringup)

theorem Completes.execLinkLoss {p} : Completes s (execLinkLoss p s) := .onChip fun hc => hc.when fun hc => hc.lossOfLink

theorem Completes.execProtocolViolationLimit {p} : Completes s (execProtocolViolationLimit p s) :=
  .onChip fun hc => hc.when fun hc => hc.modTrk.linkLost

theorem Chip.StoresWf.testStart {p generates checks} (hc : c.StoresWf) : (c.testStart p generates checks).StoresWf :=
  (hc.when fun hc => hc.put.modPcs).when fun hc => hc.modPcs.when fun hc => hc.emit

theorem Chip.StoresWf.testMode {p on} (hc : c.StoresWf) : (c.testMode p on).StoresWf :=
  .ite ((hc.put.when fun hc => hc.linkGone).put.modTrk.each fun hc => hc.put).modPcs.testStart (.ite (.ite hc.put.startBringup
    (hc.put.each fun hc => hc.put)) hc.put)

theorem Chip.StoresWf.laneControl {p l} (hc : c.StoresWf) : (c.laneControl p l).StoresWf :=
  .ite (.ite (hc.when fun hc => hc.laneFail.put.put) (hc.when fun hc => hc.put)) (hc.when fun hc => hc.put)

theorem Chip.StoresWf.trkEnable {p en aOff bOff} (hc : c.StoresWf) : (c.trkEnable p en aOff bOff).StoresWf :=
  .ite hc.put.put.put (.ite ((hc.put.put.put.when fun hc => hc.linkGone).put.modTrk.each fun hc => hc.put.put)
    (.ite hc.put.put.put.startBringup (hc.put.put.put.each fun hc => hc.laneControl)))

theorem Chip.StoresWf.testCtl {p w} (hc : c.StoresWf) : (c.testCtl p w).StoresWf :=
  hc.put.when fun hc => (hc.when fun hc => hc.put.modPcs).testStart

end Sys2Proof.Machine
end

section
/-! What every step keeps of the stores: Access, Loader, Path, Config16. -/

namespace Sys2Proof.Machine

variable {c : Chip} {h : Hub} {v : Hv} {s : State}

/-! `Access`: Register writes (16 R483 to R487). -/

theorem Chip.StoresWf.store {off x} (hc : c.StoresWf) : (c.store off x).StoresWf := ⟨wf_store _ _ hc.regsWf, hc.stageWf⟩

theorem Hv.StoresWf.store {off x} (hv : v.StoresWf) : (v.store off x).StoresWf := ⟨wf_store _ _ hv.regsWf⟩

theorem Chip.StoresWf.stageWrite_ {off x} (hc : c.StoresWf) : (c.stageWrite_ off x).StoresWf := hc.stage

theorem Chip.StoresWf.nextGen {f} (hc : c.StoresWf) : (c.nextGen f).StoresWf := hc.put

theorem Chip.StoresWf.noteCommit {off} (hc : c.StoresWf) : (c.noteCommit off).StoresWf := by
  unfold Chip.noteCommit
  exact hc.modFab

theorem Chip.StoresWf.routeCommit {dst x} (hc : c.StoresWf) : (c.routeCommit dst x).StoresWf := by
  unfold Chip.routeCommit
  exact .ite hc.noteCommit hc.noteCommit.setWord.nextGen

theorem Chip.StoresWf.groupCommit {g x} (hc : c.StoresWf) : (c.groupCommit g x).StoresWf := by
  unfold Chip.groupCommit
  exact .ite hc (.ite hc.noteCommit hc.noteCommit.setWord.nextGen)

theorem Chip.StoresWf.tunnelCommit {t x} (hc : c.StoresWf) : (c.tunnelCommit t x).StoresWf := by
  unfold Chip.tunnelCommit
  exact .ite (hc.noteCommit.usbPhysLost.commitStaged.when fun hc => hc.setWord.nextGen).clearTunnel
    (hc.noteCommit.commitStaged.when fun hc => hc.setWord.nextGen)

theorem Hub.StoresWf.faultClear {x} (hh : h.StoresWf) : (h.faultClear x).StoresWf := hh.onChip fun hc => hc.store

theorem Chip.StoresWf.trkCtlWrite {p x} (hc : c.StoresWf) : (c.trkCtlWrite p x).StoresWf :=
  .when (.when (.testMode (.when ⟨wf_setWord _ _ hc.regsWf, hc.stageWf⟩ fun hc => hc.trkEnable)) fun hc => hc.stepLimits)
    fun hc => hc.retrain

theorem Chip.StoresWf.trkEffect {p r off x} (hc : c.StoresWf) : (c.trkEffect p r off x).StoresWf := by
  fun_cases Chip.trkEffect
  · exact hc.trkCtlWrite
  · exact hc.store.showPort
  · exact hc.shiftCmd
  · exact hc.store
  · exact hc.testCtl
  · exact hc.store

theorem Hub.StoresWf.lnkEffect {p r off x} (hh : h.StoresWf) : (h.lnkEffect p r off x).StoresWf := by
  fun_cases Hub.lnkEffect
  · exact hh.onChip fun hc => (hc.when fun hc => hc.linkDisable).store
  · exact (hh.onChip fun hc => hc.store).tpCommand
  · exact hh.onChip fun hc => hc.store

theorem Chip.StoresWf.fabEffect {off x} (hc : c.StoresWf) : (c.fabEffect off x).StoresWf := by
  fun_cases Chip.fabEffect
  · exact hc.routeCommit
  · exact hc
  · exact hc.groupCommit
  · exact hc.stageWrite_
  · exact hc.tunnelCommit
  · exact hc.store.when fun hc => hc.electMaster

theorem Chip.StoresWf.swcEffect {off x} (hc : c.StoresWf) : (c.swcEffect off x).StoresWf :=
  .ite (hc.store.when fun hc => hc.peakClear) hc.store.showPool

theorem Chip.StoresWf.schEffect {off x} (hc : c.StoresWf) : (c.schEffect off x).StoresWf := by
  fun_cases Chip.schEffect
  · exact hc.weirCommit
  · exact hc.stageWrite_
  · exact hc.store.when fun hc => hc.resetPortShaper
  · exact hc.store.resetPortShaper
  · exact hc.takeCtlWrite
  · exact hc.store
  · exact hc.store.when fun hc => hc.resetQueueShaper
  · exact hc.store.takeQueueSnapshot
  · exact hc.store.resetBulkShapers
  · exact hc.store

theorem Chip.StoresWf.usbEffect {off x} (hc : c.StoresWf) : (c.usbEffect off x).StoresWf := by
  fun_cases Chip.usbEffect
  · exact hc.store
  · exact hc.stageWrite_
  · exact (hc.commitStaged.when fun hc => hc.mapCommit).mapCommit

theorem Chip.StoresWf.dmaEffect {n r off x} (hc : c.StoresWf) : (c.dmaEffect n r off x).StoresWf := .ite hc.store.dmaHalt hc.store.showDma

theorem Chip.StoresWf.lockCtlWrite {x} (hc : c.StoresWf) : (c.lockCtlWrite x).StoresWf :=
  ((hc.store.when fun hc => hc.lockRequest).when fun hc => hc.lockRelease).when fun hc => hc.lockReleaseAll

theorem Chip.StoresWf.winEffect {off x} (hc : c.StoresWf) : (c.winEffect off x).StoresWf := by
  fun_cases Chip.winEffect
  · exact hc.rangeCommit.commitStaged
  · exact hc.stageWrite_
  · exact hc.dmaEffect
  · exact hc.lockCtlWrite
  · exact (hc.store.when fun hc => hc.pcieAct).when fun hc => hc.pcieAct
  · exact hc.store

theorem Chip.StoresWf.vidEffect {off x} (hc : c.StoresWf) : (c.vidEffect off x).StoresWf := hc.store.when fun hc => hc.put

theorem Chip.StoresWf.ethEffect {off x} (hc : c.StoresWf) : (c.ethEffect off x).StoresWf := by
  fun_cases Chip.ethEffect
  · exact hc.stageWrite_
  · exact hc.store.commitStaged
  · exact hc.learnCommit.commitStaged
  · exact hc.stageWrite_
  · exact hc.store.when fun hc => hc.mdioGo

theorem Chip.StoresWf.fioConfig {p off x} (hc : c.StoresWf) : (c.fioConfig p off x).StoresWf :=
  (hc.fioChange (fun hc => hc.store)).when fun hc => hc.put.putBit

theorem Chip.StoresWf.fldEffect {off x} (hc : c.StoresWf) : (c.fldEffect off x).StoresWf := by
  fun_cases Chip.fldEffect
  · exact hc.store.commitStaged
  · exact hc.stageWrite_
  · exact hc.store.commitStaged
  · exact hc.stageWrite_
  · exact hc.store
  · exact hc.sigCommit.frame (by rfl)
  · exact hc.stageWrite_
  · exact hc.fioConfig
  · exact hc.store

theorem Hub.StoresWf.tpwEffect {off x} (hh : h.StoresWf) : (h.tpwEffect off x).StoresWf :=
  .onHv (.when (by split; exacts [(hh.onHv fun hv => hv.store).portCommand, hh.onHv fun hv => hv.store]) fun hh => hh.onHv
    fun hv => hv.frame (by rfl)) fun hv => hv.refresh

theorem Hub.StoresWf.ldcEffect {off x} (hh : h.StoresWf) : (h.ldcEffect off x).StoresWf := by
  fun_cases Hub.ldcEffect
  · exact hh.loadCommand
  · exact hh.onHv fun hv => hv.store

theorem Chip.StoresWf.keyEffect {off x} (hc : c.StoresWf) : (c.keyEffect off x).StoresWf := by
  fun_cases Chip.keyEffect
  · exact hc.store.lcStart
  · exact hc.store.lcStart
  · exact hc.store
  · exact hc.store.when fun hc => hc.provGo
  · exact hc.store.when fun hc => hc.watermarkGo
  · exact (hc.store.when fun hc => hc.requestEpoch).when fun hc => hc.readmit
  · exact hc.store

theorem Chip.StoresWf.lkpEffect {off x} (hc : c.StoresWf) : (c.lkpEffect off x).StoresWf :=
  .ite ((hc.when fun hc => hc.lkKick).when fun hc => hc.lkReady) hc.store

theorem Chip.StoresWf.setCounter {n x} (hc : c.StoresWf) : (c.setCounter n x).StoresWf := hc.frame (by rfl)

theorem Chip.StoresWf.preset {n high x} (hc : c.StoresWf) : (c.preset n high x).StoresWf := .ite hc (hc.setCounter.when fun hc => hc.put)

theorem Chip.StoresWf.clearCounters (hc : c.StoresWf) : c.clearCounters.StoresWf := hc.frame (by rfl)

theorem Chip.StoresWf.cntEffect {off x} (hc : c.StoresWf) : (c.cntEffect off x).StoresWf := by
  fun_cases Chip.cntEffect
  · exact hc.setCounter
  · exact hc.preset
  · exact hc.preset
  · exact hc
  · exact hc.frame (by rfl)
  · exact hc.store.when fun hc => hc.clearCounters

theorem Hub.StoresWf.commitStart {words} (hh : h.StoresWf) : (h.commitStart words).StoresWf := by
  refine Hub.StoresWf.onChip hh fun hc => ?_
  extract_lets _ _ d e
  have hd : d.StoresWf := hc.put.put
  have he : e.StoresWf := hd.put
  exact ⟨he.regsWf, he.stageWf⟩

theorem Chip.StoresWf.flashStart {op} (hc : c.StoresWf) : (c.flashStart op).StoresWf := hc.put.put.put.frame (by rfl)

theorem Hub.StoresWf.cfgEffect {off x} (hh : h.StoresWf) : (h.cfgEffect off x).StoresWf :=
  .ite (.ite hh.commitStart (.ite hh.commitStart hh)) (hh.onChip fun hc => .ite (.ite hc.flashStart hc.store) (.ite (hc.frame
    (by rfl)) hc.store))

theorem Chip.StoresWf.pwrEffect {off x} (hc : c.StoresWf) : (c.pwrEffect off x).StoresWf :=
  .ite (hc.store.put.when fun hc => hc.modPst) (.ite hc.voteWrite hc.store)

theorem Hub.StoresWf.effect {off x} (hh : h.StoresWf) : (h.effect off x).StoresWf := by
  fun_cases Hub.effect
  · exact hh.faultClear
  · exact hh.onChip fun hc => hc.store
  · exact hh.onChip fun hc => hc.pwrEffect
  · exact hh.onChip fun hc => hc.trkEffect
  · exact hh.lnkEffect
  · exact hh.onChip fun hc => hc.fabEffect
  · exact hh.onChip fun hc => hc.fabEffect
  · exact hh.onChip fun hc => hc.swcEffect
  · exact hh.onChip fun hc => hc.schEffect
  · exact hh.onChip fun hc => hc.usbEffect
  · exact hh.onChip fun hc => hc.winEffect
  · exact hh.onChip fun hc => hc.vidEffect
  · exact hh.onChip fun hc => hc.ethEffect
  · exact hh.onChip fun hc => hc.fldEffect
  · exact hh.tpwEffect
  · exact hh.ldcEffect
  · exact hh.onChip fun hc => hc.keyEffect
  · exact hh.onChip fun hc => hc.lkpEffect
  · exact hh.onChip fun hc => hc.cntEffect
  · exact hh.cfgEffect
  · exact hh.onChip fun hc => hc.store

theorem Hub.StoresWf.lateEffect {off x} (hh : h.StoresWf) : (h.lateEffect off x).StoresWf :=
  .ite (.ite hh.warmReset (hh.when fun hh => hh.onChip fun hc => hc.datapathReset)) (hh.when fun hh => hh.onChip
    fun hc => hc.lockkeeperReset)

theorem Hub.StoresWf.refused {off x} (hh : h.StoresWf) : ∀ g ∈ h.refused off x, g.StoresWf := by
  have hif : ∀ {b : Bool} {f}, (∀ {c : Chip}, c.StoresWf → (f c).StoresWf) →
      ∀ g ∈ (if b then some (h.onChip f) else none), g.StoresWf := by
    rintro (_ | _) f hf g ⟨⟩
    exact hh.onChip hf
  fun_cases Hub.refused
  case case1 | case13 | case17 => rintro _ ⟨⟩; exact hh
  case case2 | case3 | case4 | case11 | case12 | case20 | case21 | case22 | case27 => exact hif id
  case case5 => exact hif fun hc => hc.inc
  case case6 | case8 | case9 => exact hif fun hc => hc.flag
  case case15 => rintro _ ⟨⟩; exact hh.effect
  case case19 => exact hif fun hc => hc.put
  case case23 | case25 => rintro _ ⟨⟩; exact hh.onChip fun hc => hc.put
  all_goals rintro _ ⟨⟩

theorem Chip.StoresWf.journal {source result req addr data old new} (hc : c.StoresWf) :
    (c.journal source result req addr data old new).StoresWf :=
  hc.frame (by rfl)

theorem Chip.StoresWf.journalEvent {event seq} (hc : c.StoresWf) : (c.journalEvent event seq).StoresWf :=
  ((hc.frame (by rfl)).frame (by rfl)).journal

theorem Chip.StoresWf.entryWritten {off} (hc : c.StoresWf) : (c.entryWritten off).StoresWf := by
  fun_cases Chip.entryWritten
  · exact hc
  · exact (hc.frame (by rfl)).unpoison
  · exact hc

theorem Hub.StoresWf.performWrite {req off x} (hh : h.StoresWf) : (h.performWrite req off x).2.StoresWf := by
  fun_cases Hub.performWrite
  · exact hh.onChip fun hc => hc.journal
  · exact (hh.onChip fun hc => hc.inc).onChip fun hc => hc.journal
  · next e => exact (hh.refused _ e).onChip fun hc => hc.journal
  · exact ((((hh.effect.onChip fun hc => hc.entryWritten).when fun hh => hh.onChip fun hc => hc.put).when fun hh =>
      hh.onChip fun hc => hc.inc).onChip fun hc => hc.journal).lateEffect

/-! `Loader`: The image loader (16 R467 to R476). -/

theorem Chip.StoresWf.loadRefusal {off} (hc : c.StoresWf) : (c.loadRefusal off).StoresWf := (hc.when fun hc => hc.put).inc

theorem Chip.StoresWf.imageGave {off mask x} (hc : c.StoresWf) : (c.imageGave off mask x).StoresWf := hc.frame (by rfl)

theorem Hub.StoresWf.loadInto {free off mask x} (hh : h.StoresWf) : (h.loadInto free off mask x).StoresWf := by
  fun_cases Hub.loadInto
  · next e =>
    split at e
    · cases e
    · exact (hh.onChip fun hc => hc.imageGave).refused _ e
  · exact (hh.onChip fun hc => hc.imageGave).effect

theorem Hub.StoresWf.loadWord {free off mask x} (hh : h.StoresWf) : (h.loadWord free off mask x).StoresWf :=
  (hh.when fun hh => hh.onChip fun hc => hc.loadRefusal).when fun hh => hh.loadInto

theorem Hub.StoresWf.loadPartition {l} (hh : h.StoresWf) : (h.loadPartition l).StoresWf :=
  .ite (hh.onChip fun hc => hc.flag.loadRefusal) (hh.each fun hh => hh.loadWord)

theorem Chip.StoresWf.loadKeyRecord {r} (hc : c.StoresWf) : (c.loadKeyRecord r).StoresWf :=
  .ite hc.inc ((hc.each fun hc => hc.put).frame (by rfl)).provGo.provDone

theorem Hub.StoresWf.loadRecord {r} (hh : h.StoresWf) : (h.loadRecord r).StoresWf := by
  fun_cases Hub.loadRecord
  · exact hh.loadWord
  · exact hh.each fun hh => hh.loadWord
  · exact hh
  · exact hh.each fun hh => hh.loadWord
  · exact hh.each fun hh => hh.loadWord
  · exact hh.onChip fun hc => hc.loadKeyRecord
  · exact hh.loadPartition
  · exact hh
  · exact hh
  · exact hh.onChip fun hc => hc.inc

theorem Hub.StoresWf.overlayApply {area l} (hh : h.StoresWf) : (h.overlayApply area l).StoresWf := by
  unfold Hub.overlayApply
  refine (hh.each fun hh => hh.when fun hh => hh.loadInto).onChip fun hc => ?_
  extract_lets _ d e _
  have hd : d.StoresWf := hc.put.put.put.show256
  have he : e.StoresWf := hd.journalEvent
  exact ⟨he.regsWf, he.stageWf⟩

theorem Hub.StoresWf.loadOverlay {o0 o1} (hh : h.StoresWf) : (h.loadOverlay o0 o1).StoresWf :=
  .ite (hh.when fun hh => hh.onChip fun hc => hc.flag).overlayApply (.ite (hh.when fun hh => hh.onChip fun hc => hc.flag).overlayApply
    ((hh.when fun hh => hh.onChip fun hc => hc.flag).onChip fun hc => hc.put))

theorem Chip.StoresWf.configShown {i r} (hc : c.StoresWf) : (c.configShown i r).StoresWf := by
  fun_cases Chip.configShown
  · next d _ g =>
    have hd : d.StoresWf := (hc.put.put.when fun hc => hc.put).when fun hc => hc.put.flag
    have hg : g.StoresWf := hd.put.show256
    exact ⟨hg.regsWf, hg.stageWf⟩
  · exact ((hc.put.put.when fun hc => hc.put).when fun hc => hc.put.flag).flag

theorem Hub.StoresWf.loadConfig {i} (hh : h.StoresWf) : (h.loadConfig i).StoresWf := by
  unfold Hub.loadConfig
  exact .ite ((hh.onChip fun hc => hc.configShown).each fun hh => hh.loadRecord) (hh.onChip fun hc => hc.configShown)

theorem Chip.StoresWf.firmwareStarts {bank i} (hc : c.StoresWf) : (c.firmwareStarts bank i).StoresWf := hc.firmwareTaken.put.put

theorem Hub.StoresWf.imageLoad {x} (hh : h.StoresWf) : (h.imageLoad x).StoresWf := by
  fun_cases Hub.imageLoad
  · exact hh.onChip fun hc => hc.put
  · exact ((hh.onChip fun hc => hc.put).when fun hh => hh.onChip fun hc => hc.put).onChip fun hc => hc.lkFails
  · exact (((hh.onChip fun hc => hc.put).when fun hh => hh.onChip fun hc => hc.put).onChip fun hc => hc.firmwareStarts).loadConfig.when
      fun hh => hh.loadOverlay

theorem Completes.execImageLoad {flash} : Completes s (execImageLoad flash s) := .onHub fun hh => hh.when fun hh => hh.imageLoad

theorem Hub.StoresWf.imageLoaded (hh : h.StoresWf) : h.imageLoaded.StoresWf := by
  unfold Hub.imageLoaded
  exact (hh.onChip fun hc => hc.deriveMkb.put.frame (by rfl)).when fun hh => ((hh.onChip fun hc => hc.put.flag.journalEvent).live
    fun hh => hh.each fun hh => hh.onHv fun hv => hv.armAtBoot).onChip fun hc => hc.showUsb.each fun hc => hc.when fun hc => hc.vbusOn

theorem Completes.execImageLoaded : Completes s (execImageLoaded s) := .onHub fun hh => hh.when fun hh => hh.imageLoaded

theorem Hub.StoresWf.recoveryImage {i} (hh : h.StoresWf) : (h.recoveryImage i).StoresWf := by
  fun_cases Hub.recoveryImage
  · refine hh.when fun hh => Hub.StoresWf.onChip hh fun {c} hc => ?_
    have hf : (c.firmwareStarts 2 i).StoresWf := hc.firmwareStarts
    exact ⟨hf.regsWf, hf.stageWf⟩
  · exact hh.when fun hh => hh.loadConfig

theorem Hub.StoresWf.recoveryStep (hh : h.StoresWf) : h.recoveryStep.StoresWf := by
  fun_cases Hub.recoveryStep
  · exact hh
  · exact hh.onChip fun hc => hc.frame (by rfl)
  · exact (hh.onChip fun hc => hc.frame (by rfl)).recoveryImage

/-! `Path`: The register access path (16 R477 to R484). -/

theorem Chip.StoresWf.admitRefused (hc : c.StoresWf) : c.admitRefused.StoresWf := hc.inc.flag

theorem Hub.StoresWf.wordWrite {req off x} (hh : h.StoresWf) : (h.wordWrite req off x).2.StoresWf := by
  fun_cases Hub.wordWrite
  · exact hh.loadWord
  · exact hh
  · exact (hh.performWrite.of_eq ‹_›).when fun hh => hh.recoveryStep

theorem Hub.StoresWf.wordsWrite {req free worst off ws} (hh : h.StoresWf) : (h.wordsWrite req free worst off ws).2.StoresWf := by
  fun_induction Hub.wordsWrite
  · exact hh
  · exact hh
  · next ih => exact ih (hh.wordWrite.of_eq ‹_›)

theorem Hub.StoresWf.wordsRead {req offs} (hh : h.StoresWf) : (h.wordsRead req offs).2.StoresWf := by
  fun_induction Hub.wordsRead
  · exact hh
  · next ih => exact (ih (hh.pathRead.of_eq ‹_›)).of_eq ‹_›

theorem Hub.StoresWf.regRead {req off len} (hh : h.StoresWf) : (h.regRead req off len).2.StoresWf := by
  fun_cases Hub.regRead
  exact hh.wordsRead.of_eq ‹_›

theorem Chip.StoresWf.holdPath {a} (hc : c.StoresWf) : (c.holdPath a).StoresWf := hc.modFab

theorem Hub.StoresWf.writeAccess {free a} (hh : h.StoresWf) : (h.writeAccess free a).2.StoresWf := by
  fun_cases Hub.writeAccess
  · exact hh.wordsWrite.of_eq ‹_›
  · exact (hh.wordsWrite.of_eq ‹_›).onChip fun hc => hc.holdPath

theorem Chip.StoresWf.accessEnds {a status bytes} (hc : c.StoresWf) : (c.accessEnds a status bytes).StoresWf := by
  fun_cases Chip.accessEnds
  · exact hc.ownEnd
  · exact hc
  · exact hc
  · exact hc.emit
  · exact hc.when fun hc => hc.pcieAct
  · exact hc.answer

theorem Hub.StoresWf.carryOut {a} (hh : h.StoresWf) : (h.carryOut a).2.StoresWf := by
  fun_cases Hub.carryOut
  · dsimp only; exact hh.onChip fun hc => hc.when fun hc => hc.admitRefused
  · dsimp only; exact hh
  · dsimp only; exact hh.writeAccess.of_eq ‹_›
  · dsimp only; exact hh.writeAccess.of_eq ‹_›
  · dsimp only; exact hh.regRead.of_eq ‹_›
  · dsimp only; exact hh.pathRead.of_eq ‹_›

theorem Hub.StoresWf.serve {a} (hh : h.StoresWf) : (h.serve a).StoresWf := by
  fun_cases Hub.serve
  · exact ((hh.onChip fun hc => hc.modFab).when fun hh => hh.onChip fun hc => hc.accessRegister).carryOut.of_eq ‹_›
  · exact (((hh.onChip fun hc => hc.modFab).when fun hh => hh.onChip fun hc => hc.accessRegister).carryOut.of_eq ‹_›).when
      fun hh => hh.onChip fun hc => hc.accessEnds
  · exact (((hh.onChip fun hc => hc.modFab).when fun hh => hh.onChip fun hc => hc.accessRegister).carryOut.of_eq ‹_›).carryOut.of_eq ‹_›
  · exact ((((hh.onChip fun hc => hc.modFab).when fun hh => hh.onChip fun hc => hc.accessRegister).carryOut.of_eq ‹_›).carryOut.of_eq
      ‹_›).onChip fun hc => hc.accessEnds
  · exact (((hh.onChip fun hc => hc.modFab).when fun hh => hh.onChip fun hc => hc.accessRegister).carryOut.of_eq ‹_›).onChip
      fun hc => hc.accessEnds

theorem Hub.StoresWf.accessWakes {a} (hh : h.StoresWf) : (h.accessWakes a).StoresWf := hh.when fun hh => hh.onChip fun hc => hc.accessWakes

theorem Hub.StoresWf.request {a} (hh : h.StoresWf) : (h.request a).StoresWf :=
  .ite (hh.accessWakes.onChip fun hc => hc.modFab) hh.accessWakes.serve

theorem Hub.StoresWf.drainPath {n} (hh : h.StoresWf) : (h.drainPath n).StoresWf := by
  fun_induction Hub.drainPath
  · exact hh
  · exact hh
  · exact hh
  · next ih => exact ih (hh.onChip fun hc => hc.modFab).serve

theorem Hub.StoresWf.pathWrite {req off x} (hh : h.StoresWf) : (h.pathWrite req off x).StoresWf := hh.request

theorem Completes.writeFields {req off fields} : Completes s (s.writeFields req off fields) := .onHub fun hh => hh.pathWrite

theorem Completes.writeWord {req off x} : Completes s (s.writeWord req off x) := .onHub fun hh => hh.pathWrite

/-! `Config16`: Accesses of the board controller and of the hub's own host, and the ends of commits, flash commands and counters (16
R477, R484, R488, R489, R495). -/

theorem Hub.StoresWf.i2cAccess {write off x} (hh : h.StoresWf) : (h.i2cAccess write off x).StoresWf := hh.request

theorem Completes.execI2c0Access {write off value} : Completes s (execI2c0Access write off value s) := .onHub fun hh => hh.i2cAccess

theorem Hub.StoresWf.ownRegAccess {write off len data reqId} (hh : h.StoresWf) : (h.ownRegAccess write off len data reqId).StoresWf :=
  hh.request

theorem Completes.execBridgeRegAccess {write off len data reqId} : Completes s (execBridgeRegAccess write off len data reqId s) :=
  .onHub fun hh => hh.when fun hh => hh.ownRegAccess

theorem Chip.StoresWf.commitDone {ok} (hc : c.StoresWf) : (c.commitDone ok).StoresWf := by
  fun_cases Chip.commitDone
  · exact hc
  · exact (hc.put.put.frame (by rfl)).emit.emit.flag.journalEvent
  · exact (hc.put.put.frame (by rfl)).put

theorem Completes.execCommitDone {ok} : Completes s (execCommitDone ok s) := .onChip fun hc => hc.when fun hc => hc.commitDone

theorem Chip.StoresWf.flashDone {ok data} (hc : c.StoresWf) : (c.flashDone ok data).StoresWf := by
  fun_cases Chip.flashDone
  · exact hc
  · exact ((hc.put.put.frame (by rfl)).when fun hc => hc.each fun hc => hc.put).flag

theorem Completes.execFlashDone {ok data} : Completes s (execFlashDone ok data s) := .onChip fun hc => hc.when fun hc => hc.flashDone

theorem Chip.StoresWf.counterWrap {n} (hc : c.StoresWf) : (c.counterWrap n).StoresWf := by
  unfold Chip.counterWrap
  exact hc.when fun hc => hc.frame (by rfl)

theorem Completes.execCounterWrap {n} : Completes s (execCounterWrap n s) := .onChip fun hc => hc.when fun hc => hc.counterWrap

end Sys2Proof.Machine
end

section
/-! What every step keeps of the stores: Bridge, Field, Governor, LoadChannels, Mgmt, Resets, Tick. -/

namespace Sys2Proof.Machine

variable {c : Chip} {h : Hub} {v : Hv} {s : State}

/-! `Bridge`: The window bridge as a target (08 R257 to R260, R268, R269, R280), and the requests of the host and of a field drive (08
R264 to R271). -/

theorem Hub.StoresWf.linkAccess {config write addr len data link} (hh : h.StoresWf) :
    (h.linkAccess config write addr len data link).2.StoresWf := by
  fun_cases Hub.linkAccess <;> (dsimp only; exact hh.onChip fun hc => hc.each fun hc => hc.pcieAct)

theorem Hub.StoresWf.memAccess {write off len data link} (hh : h.StoresWf) : (h.memAccess write off len data link).2.StoresWf := by
  fun_cases Hub.memAccess
  · exact hh.linkAccess
  · exact hh

theorem Chip.StoresWf.rpWrite {off data} (hc : c.StoresWf) : (c.rpWrite off data).StoresWf := by
  unfold Chip.rpWrite
  exact hc.modWin (by rfl)

theorem Chip.StoresWf.rpRead {off len} (hc : c.StoresWf) : (c.rpRead off len).2.StoresWf := hc.frame (by rfl)

theorem Hub.StoresWf.cfgAccess {write off len data link} (hh : h.StoresWf) : (h.cfgAccess write off len data link).2.StoresWf := by
  fun_cases Hub.cfgAccess
  · exact hh
  · exact hh.onChip fun hc => hc.rpWrite
  · exact ⟨hh.chip.rpRead.of_eq ‹_›, hh.hv⟩
  · exact hh.linkAccess
  · exact hh

theorem Hub.StoresWf.stageAccess {write off len data} (hh : h.StoresWf) : (h.stageAccess write off len data).2.StoresWf := by
  fun_cases Hub.stageAccess
  · exact hh
  · exact hh.onChip fun hc => hc.stageStore
  · exact hh
  · exact hh

theorem Hub.StoresWf.regAccess {req of_ write off len data} (hh : h.StoresWf) : (h.regAccess req of_ write off len data).2.StoresWf := by
  fun_cases Hub.regAccess
  · exact hh
  · exact hh.onChip fun hc => hc.admitRefused
  · exact hh
  · exact hh.writeAccess.of_eq ‹_›
  · exact hh.writeAccess.of_eq ‹_›
  · exact hh.regRead.of_eq ‹_›

theorem Hub.StoresWf.target {req of_ write fwa len data link} (hh : h.StoresWf) :
    (h.target req of_ write fwa len data link).2.StoresWf := by
  fun_cases Hub.target
  · exact hh
  · exact hh.regAccess
  · exact hh.memAccess
  · exact hh.cfgAccess
  · exact hh.stageAccess
  · exact hh

theorem Chip.StoresWf.nextRequest {kind given} (hc : c.StoresWf) : (c.nextRequest kind given).2.StoresWf := hc.nextWin

theorem Hub.StoresWf.winRequest {m link} (hh : h.StoresWf) : (h.winRequest m link).StoresWf := by
  fun_cases Hub.winRequest
  · exact hh.onChip fun hc => hc.inc
  · exact hh.onChip fun hc => hc.tgtAnswer
  all_goals
    have hd := hh.chip.draw.of_eq ‹h.chip.draw 65536 = _›
    have hg := (hh.withChip hd).target.of_eq ‹_›
  · exact hg.onChip fun hc => hc.tgtAnswer
  · exact hg.onChip fun hc => hc.modWin (by rfl)
  · exact hg

theorem Hub.StoresWf.onRequest {kind msg link} (hh : h.StoresWf) : (h.onRequest kind msg link).StoresWf := by
  fun_cases Hub.onRequest
  · exact .winRequest ⟨(hh.chip.nextRequest.of_eq ‹_›).takeWin, hh.hv⟩
  · exact ⟨hh.chip.nextRequest.of_eq ‹_›, hh.hv⟩

theorem Completes.execBridgeRdRx {msg link} : Completes s (execBridgeRdRx msg link s) := .onHub fun hh => hh.onRequest

theorem Completes.execBridgeWrPRx {msg link} : Completes s (execBridgeWrPRx msg link s) := .onHub fun hh => hh.onRequest

theorem Completes.execBridgeWrNpRx {msg link} : Completes s (execBridgeWrNpRx msg link s) := .onHub fun hh => hh.onRequest

theorem Chip.StoresWf.localUr {drive reqId write len} (hc : c.StoresWf) : (c.localUr drive reqId write len).StoresWf :=
  .ite hc.inc.pcieAct hc.inc.answer

theorem Chip.StoresWf.winQueue {a id fwa len data users fill} (hc : c.StoresWf) : (c.winQueue a id fwa len data users fill).StoresWf :=
  hc.modWin (by rfl)

theorem Chip.StoresWf.prefetch {a id fwa len pos} (hc : c.StoresWf) : (c.prefetch a id fwa len pos).2.StoresWf := by
  fun_cases Chip.prefetch
  · dsimp only; exact (hc.inc.modWin (by rfl)).partDone
  · dsimp only; exact ((hc.inc.modWin (by rfl)).modWin (by rfl)).mapOwn
  · dsimp only; exact (hc.modWin (by rfl)).pfUnfill.modWin (by rfl)

theorem Chip.StoresWf.remotePiece {a id x} (hc : c.StoresWf) : (c.remotePiece a id x).StoresWf := by
  fun_cases Chip.remotePiece
  · exact hc.pfDiscard.winQueue
  · exact (hc.prefetch.of_eq ‹_›).winQueue
  · exact hc.prefetch.of_eq ‹_›
  · exact hc.winQueue

theorem Hub.StoresWf.ownPiece {a p data link} (hh : h.StoresWf) : (h.ownPiece a p data link).StoresWf := by
  unfold Hub.ownPiece
  extract_lets off req once
  have honce : ∀ {h : Hub}, h.StoresWf → (once h).2.2.StoresWf := by
    intro h hh
    dsimp +zetaDelta only
    split <;> exact hh.target
  exact .ite hh.request (.ite ((honce (honce hh)).onChip fun hc => hc.ownEnd) ((honce hh).onChip fun hc => hc.ownEnd))

theorem Hub.StoresWf.localPieces {a id link n ps} (hh : h.StoresWf) : (h.localPieces a id link n ps).StoresWf := by
  fun_induction Hub.localPieces
  · exact hh
  · next ih => exact ih (hh.onChip fun hc => hc.pfDiscard).ownPiece
  · next ih => exact ih (.ownPiece ⟨hh.chip.prefetch.of_eq ‹_›, hh.hv⟩)
  · next ih => exact ih ⟨hh.chip.prefetch.of_eq ‹_›, hh.hv⟩
  · next ih => exact ih hh.ownPiece

theorem Hub.StoresWf.ownAccess {id a link} (hh : h.StoresWf) : (h.ownAccess id a link).StoresWf :=
  (hh.onChip fun hc => hc.modWin (by rfl)).localPieces

theorem Hub.StoresWf.winAsk {a link} (hh : h.StoresWf) : (h.winAsk a link).StoresWf :=
  .ite (.ite ((hh.onChip fun hc => hc.modWin (by rfl)).onChip fun hc => hc.modWin (by rfl)) (hh.onChip fun hc => hc.modWin
    (by rfl)).ownAccess) ((hh.onChip fun hc => hc.modWin (by rfl)).onChip fun hc => ((hc.modWin (by rfl)).each
    fun hc => hc.remotePiece).winPump)

theorem Hub.StoresWf.localsRun {n} (hh : h.StoresWf) : (h.localsRun n).StoresWf := by
  fun_induction Hub.localsRun
  · exact hh
  · exact hh
  · exact hh
  · next ih => exact ih (hh.onChip fun hc => hc.modWin (by rfl)).ownAccess

theorem Hub.StoresWf.afterWrite {f} (hf : ∀ {c : Chip}, c.StoresWf → (f c).StoresWf) (hh : h.StoresWf) : (h.afterWrite f).StoresWf :=
  .ite (hh.onChip hf) ((hh.onChip hf).localsRun.onChip fun hc => hc.winPump)

theorem Completes.execBridgeCplRx {msg} : Completes s (execBridgeCplRx msg s) :=
  .onHub fun hh => hh.afterWrite (fun hc => hc.onWin (fun hc => hc.winComplete))

theorem Hub.StoresWf.lockEnds {f} (hh : h.StoresWf) (hf : ∀ {c : Chip}, c.StoresWf → (f c).StoresWf) : (h.lockEnds f).StoresWf :=
  (hh.onChip hf).drainPath.afterWrite id

theorem Completes.execLockRelRx {msg} : Completes s (execLockRelRx msg s) :=
  .onHub fun hh => hh.lockEnds (fun hc => hc.onWin (fun hc => hc.lockRelRx))

theorem Completes.execLockHoldLimit {mem} : Completes s (execLockHoldLimit mem s) := .onHub fun hh => hh.lockEnds (fun hc => hc.lockBreak)

theorem Completes.execCplTimeout {tag} : Completes s (execCplTimeout tag s) := .onHub fun hh => hh.afterWrite (fun hc => hc.cplTimeout)

theorem Hub.StoresWf.windowAccess {drive rng write off len data reqId link} (hh : h.StoresWf) :
    (h.windowAccess drive rng write off len data reqId link).StoresWf := by
  fun_cases Hub.windowAccess
  · exact hh.onChip fun hc => hc.localUr
  · exact hh.winAsk

theorem Hub.StoresWf.barAccess {write offset len data reqId link} (hh : h.StoresWf) :
    (h.barAccess write offset len data reqId link).StoresWf :=
  .ite hh hh.windowAccess

theorem Chip.StoresWf.msixWrite {at_ l} (hc : c.StoresWf) : (c.msixWrite at_ l).StoresWf := by
  unfold Chip.msixWrite
  exact hc.modWin (by rfl)

theorem Hub.StoresWf.bar0Access {write off len data reqId} (hh : h.StoresWf) : (h.bar0Access write off len data reqId).StoresWf :=
  .ite hh.ownRegAccess (.ite (hh.when fun hh => hh.onChip fun hc => hc.msixWrite) (.ite (hh.onChip fun hc => hc.answer) (.ite
    (hh.onChip fun hc => hc.answer) (.onChip ⟨(hh.chip.frame (by rfl)), hh.hv⟩ fun hc => hc.answer))))

theorem Hub.StoresWf.hostAccess {target write offset len data reqId link} (hh : h.StoresWf) :
    (h.hostAccess target write offset len data reqId link).StoresWf := by
  fun_cases Hub.hostAccess
  · exact hh.barAccess
  · exact hh.when fun hh => hh.bar0Access
  · exact hh.when fun hh => hh.onChip fun hc => hc.pcieAct.pcieAct

theorem Completes.execHostBarAccess {target write offset len data reqId link} : Completes s
    (execHostBarAccess target write offset len data reqId link s) :=
  .onHub fun hh => hh.hostAccess

theorem Hub.StoresWf.driveAccess {write addr len data reqId link} (hh : h.StoresWf) :
    (h.driveAccess write addr len data reqId link).StoresWf := by
  fun_cases Hub.driveAccess
  · exact hh
  · exact hh.onChip fun hc => hc.driveMsi
  · exact (hh.onChip fun hc => hc.flag).windowAccess
  · exact hh.windowAccess

theorem Completes.execDriveInboundAccess {write addr len data reqId link} : Completes s
    (execDriveInboundAccess write addr len data reqId link s) :=
  .onHub fun hh => hh.driveAccess

/-! `Field`: The field gateway's commands (10 R312 to R335). -/

theorem Chip.StoresWf.signalBarge {m} (hc : c.StoresWf) : (c.signalBarge m).StoresWf := hc.each fun hc => hc.applyRecord

theorem Chip.StoresWf.signalRx {given} (hc : c.StoresWf) : (c.signalRx given).StoresWf := .ite hc.inc (hc.onMsg (fun hc => hc.signalBarge))

theorem Completes.execSignalBargeRx {msg} : Completes s (execSignalBargeRx msg s) := .onChip fun hc => hc.when fun hc => hc.signalRx

theorem Completes.execSignalBatchExpiry {tunnel} : Completes s (execSignalBatchExpiry tunnel s) := .onChip fun hc => hc.sendBatch

theorem Chip.StoresWf.sigStale {i} (hc : c.StoresWf) : (c.sigStale i).StoresWf := .ite hc.setSig.requality hc

theorem Completes.execSignalStale {i} : Completes s (execSignalStale i s) := .onChip fun hc => hc.sigStale

theorem Completes.execSignalSubstitute {i} : Completes s (execSignalSubstitute i s) := .onChip fun hc => hc.when fun hc => hc.applyDefault

theorem Chip.StoresWf.canRx {n ide fd rtr id data} (hc : c.StoresWf) : (c.canRx n ide fd rtr id data).StoresWf := by
  fun_cases Chip.canRx
  · exact hc
  · exact hc.inc
  · exact hc.inc.unpack
  · exact hc.inc.inc

theorem Completes.execCanFrameRx {n ide fd rtr id data} : Completes s (execCanFrameRx n ide fd rtr id data s) := .onChip fun hc => hc.canRx

theorem Chip.StoresWf.canLoad {n} (hc : c.StoresWf) : (c.canLoad n).StoresWf := by
  fun_cases Chip.canLoad
  · exact hc
  · exact hc
  · exact hc.modFld.emit

theorem Completes.execCanFrameLoad {n} : Completes s (execCanFrameLoad n s) := .onChip fun hc => hc.canLoad

theorem Completes.execCanFrameTxDone {n} : Completes s (execCanFrameTxDone n s) := .onChip fun hc => hc.when fun hc => hc.modFld.inc

theorem Chip.StoresWf.canBusOff {n} (hc : c.StoresWf) : (c.canBusOff n).StoresWf := .ite hc hc.putBit.flag.put.raiseOwn.commFail

theorem Completes.execCanBusOff {n} : Completes s (execCanBusOff n s) := .onChip fun hc => hc.canBusOff

theorem Chip.StoresWf.canRecover {n} (hc : c.StoresWf) : (c.canRecover n).StoresWf := .ite hc hc.putBit.put.putBit.clearOwn

theorem Completes.execCanBusRecover {n} : Completes s (execCanBusRecover n s) := .onChip fun hc => hc.canRecover

theorem Chip.StoresWf.canError {n tec rxErr} (hc : c.StoresWf) : (c.canError n tec rxErr).StoresWf :=
  .ite hc ((hc.when fun hc => hc.inc).put.put.put.putBit.when fun hc => hc.flag)

theorem Completes.execCanBusError {n tec rxErr} : Completes s (execCanBusError n tec rxErr s) := .onChip fun hc => hc.canError

theorem Chip.StoresWf.modUart {u f} (hc : c.StoresWf) : (c.modUart u f).StoresWf := hc.modFld

theorem Chip.StoresWf.modbusSend {u n} (hc : c.StoresWf) : (c.modbusSend u n).StoresWf := hc.emit

theorem Chip.StoresWf.uartBusy {u busy} (hc : c.StoresWf) : (c.uartBusy u busy).StoresWf := hc.put.putBit

theorem Chip.StoresWf.modbusStart {u} (hc : c.StoresWf) : (c.modbusStart u).StoresWf := by
  fun_cases Chip.modbusStart
  · exact hc
  · exact hc
  · exact hc.modUart.inc.flag
  · exact hc.modUart.put.inc.modbusSend.modUart
  · exact hc.modUart.put.inc.modbusSend.modUart.uartBusy

theorem Completes.execModbusTxnStart {u} : Completes s (execModbusTxnStart u s) := .onChip fun hc => hc.modbusStart

theorem Chip.StoresWf.modbusEnd {u} (hc : c.StoresWf) : (c.modbusEnd u).StoresWf := hc.modUart.uartBusy

theorem Chip.StoresWf.entryFails {u n} (hc : c.StoresWf) : (c.entryFails u n).StoresWf := hc.commFail.commFailOut

theorem Chip.StoresWf.modbusReply {u r} (hc : c.StoresWf) : (c.modbusReply u r).StoresWf := by
  fun_cases Chip.modbusReply
  · exact hc
  · exact hc.inc
  · exact hc.put.inc.flag.entryFails.modbusEnd
  · exact (((hc.when fun hc => hc.inc).when fun hc => hc.put.clearOwn).put.when fun hc => hc.unpack).modbusEnd

theorem Completes.execModbusResponseRx {u reply} : Completes s (execModbusResponseRx u reply s) := .onChip fun hc => hc.modbusReply

theorem Chip.StoresWf.modbusTimeout {u} (hc : c.StoresWf) : (c.modbusTimeout u).StoresWf := by
  fun_cases Chip.modbusTimeout
  · exact hc
  · exact hc.modUart.modbusSend
  · exact (hc.when fun hc => hc.raiseOwn).put.inc.flag.entryFails.modbusEnd

theorem Completes.execModbusTimeout {u} : Completes s (execModbusTimeout u s) := .onChip fun hc => hc.modbusTimeout

theorem Completes.execModbusBroadcastIdleEnd {u} : Completes s (execModbusBroadcastIdleEnd u s) := .onChip fun hc => hc.modUart

theorem Chip.StoresWf.fioUpdate {p frame subns} (hc : c.StoresWf) : (c.fioUpdate p frame subns).StoresWf := hc.each fun hc => hc.updateIn

theorem Chip.StoresWf.fioQuality {p} (hc : c.StoresWf) : (c.fioQuality p).StoresWf := hc.each fun hc => hc.requality

theorem Chip.StoresWf.fioEdge {p high} (hc : c.StoresWf) : (c.fioEdge p high).StoresWf :=
  .ite hc.put ((((hc.put.put.putBit.incSat.when fun hc => hc.inc).when fun hc => hc.put).when fun hc => hc.put.flag.modFld).when
    fun hc => hc.flag).fioUpdate

theorem Completes.execFioEdge {p high} : Completes s (execFioEdge p high s) := .onChip fun hc => hc.when fun hc => hc.fioEdge

theorem Chip.StoresWf.fioWindow {p} (hc : c.StoresWf) : (c.fioWindow p).StoresWf := .ite hc.put.modFld.put.fioQuality hc.put.modFld

theorem Completes.execFioChatterWindowEnd {p} : Completes s (execFioChatterWindowEnd p s) := .onChip fun hc => hc.fioWindow

theorem Chip.StoresWf.fioStuck {p} (hc : c.StoresWf) : (c.fioStuck p).StoresWf := .ite hc.put.flag.fioQuality hc

theorem Completes.execFioStuck {p} : Completes s (execFioStuck p s) := .onChip fun hc => hc.fioStuck

theorem Chip.StoresWf.fldTick {ain} (hc : c.StoresWf) : (c.fldTick ain).StoresWf :=
  .ite hc ((((hc.each fun hc => hc.each fun hc => hc.updateIn).each fun hc => hc.when fun hc => hc.publish).each fun hc => .ite
    (.ite hc.inc hc.canPend) hc).each fun hc => hc.when fun hc => hc.pollQueue)

/-! `Governor`: The commands of the budget governor (06 R214 to R222). -/

theorem Hub.StoresWf.levelFall (hh : h.StoresWf) : h.levelFall.StoresWf :=
  hh.when fun hh => (hh.onChip fun hc => hc.put).setLevel.onChip fun hc => hc.frame (by rfl)

theorem Completes.execBudgetLevelFall : Completes s (execBudgetLevelFall s) := .onHub fun hh => hh.levelFall

theorem Completes.execCapRaiseDelayExpiry : Completes s (execCapRaiseDelayExpiry s) := .onChip fun hc => hc.when fun hc => hc.capRule

theorem Hub.StoresWf.shedRestore {y} (hh : h.StoresWf) : (h.shedRestore y).StoresWf :=
  hh.when fun hh => (hh.onChip fun hc => hc.putBit.flag).onLiveHv fun hv => hv.releaseHold

theorem Completes.execShedRestore {y} : Completes s (execShedRestore y s) := .onHub fun hh => hh.shedRestore

theorem Hub.StoresWf.freezeEnd (hh : h.StoresWf) : h.freezeEnd.StoresWf := by
  fun_cases Hub.freezeEnd
  · exact hh.when fun hh => hh.onChip fun hc => (hc.frame (by rfl)).put
  · exact hh

theorem Completes.execRampFreezeEnd : Completes s (execRampFreezeEnd s) := .onHub fun hh => hh.freezeEnd

/-! `LoadChannels`: The commands of the load channels (12). -/

theorem Completes.execLoadSlotStart : Completes s (execLoadSlotStart s) := .onHub fun hh => hh.live fun hh => hh.when fun hh => hh.slotStart

theorem Completes.execLoadRampEnd {y} : Completes s (execLoadRampEnd y s) :=
  .onHub fun hh => hh.onLiveHv fun hv => hv.when fun hv => hv.rampRecord.chanEnter

theorem Completes.execLoadRampFault {y cause} : Completes s (execLoadRampFault y cause s) :=
  .onHub fun hh => hh.live fun hh => hh.when fun hh => hh.chanFault

theorem Completes.execLoadFaultTimer {y} : Completes s (execLoadFaultTimer y s) :=
  .onHub fun hh => hh.live fun hh => hh.when fun hh => hh.chanFault

theorem Completes.execLoadHardShort {y ma} : Completes s (execLoadHardShort y ma s) :=
  .onHub fun hh => hh.live fun hh => hh.when fun hh => hh.chanFault

theorem Completes.execLoadGateFault {y} : Completes s (execLoadGateFault y s) :=
  .onHub fun hh => hh.live fun hh => hh.when fun hh => hh.chanFault

theorem Completes.execLoadPathDrop {y} : Completes s (execLoadPathDrop y s) :=
  .onHub fun hh => hh.live fun hh => hh.when fun hh => hh.chanFault

theorem Completes.execLoadOvervoltage {y} : Completes s (execLoadOvervoltage y s) :=
  .onHub fun hh => hh.live fun hh => hh.when fun hh => hh.chanFault

theorem Completes.execLoadOvRecovery {y} : Completes s (execLoadOvRecovery y s) :=
  .onHub fun hh => hh.onLiveHv fun hv => hv.when fun hv => hv.chanEnter

theorem Completes.execLoadPgDeglitch {y} : Completes s (execLoadPgDeglitch y s) :=
  .onHub fun hh => hh.onLiveHv fun hv => hv.when fun hv => .ite hv.modCsw hv.modCsw.setChanPg

theorem Completes.execLoadVoutLow {y} : Completes s (execLoadVoutLow y s) :=
  .onHub fun hh => hh.onLiveHv fun hv => hv.when fun hv => .ite (hv.when fun hv => hv.setChanPg) hv.modCsw

theorem Completes.execLoadRetryDue {y} : Completes s (execLoadRetryDue y s) :=
  .onHub fun hh => hh.onLiveHv fun hv => hv.when fun hv => hv.put.chanEnter

theorem Completes.execLoadRetryCountReset {y} : Completes s (execLoadRetryCountReset y s) :=
  .onHub fun hh => hh.onLiveHv fun hv => hv.when fun hv => hv.put

theorem Hub.StoresWf.offConduction {y} (hh : h.StoresWf) : (h.offConduction y).StoresWf :=
  hh.when fun hh => ((hh.onHv fun hv => hv.put.put.chanFlag.chanLatch).onChip fun hc => hc.put).powerAlarm

theorem Completes.execLoadOffConduction {y} : Completes s (execLoadOffConduction y s) := .onHub fun hh => hh.live fun hh => hh.offConduction

theorem Completes.execLoadOutPresent {y} : Completes s (execLoadOutPresent y s) :=
  .onHub fun hh => hh.onLiveHv fun hv => hv.when fun hv => hv.put.chanFlag

theorem Completes.execLoadLimiterChange {y holding} : Completes s (execLoadLimiterChange y holding s) :=
  .onHub fun hh => hh.onLiveHv fun hv => hv.chanLimiter

/-! `Mgmt`: MGMT requests (16 R478 to R482). -/

theorem Chip.StoresWf.mgmtSend {out src dst tspec payload} (hc : c.StoresWf) : (c.mgmtSend out src dst tspec payload).2.StoresWf := by
  unfold Chip.mgmtSend
  dsimp only
  exact ((hc.frame (by rfl)).frame (by rfl)).modSwc

theorem Chip.StoresWf.keepResponse {hub tag b} (hc : c.StoresWf) : (c.keepResponse hub tag b).StoresWf := hc.modLkp

theorem Chip.StoresWf.mgmtAnswer {x status payload} (hc : c.StoresWf) : (c.mgmtAnswer x status payload).StoresWf := by
  fun_cases Chip.mgmtAnswer
  exact (hc.mgmtSend.of_eq ‹_›).keepResponse

theorem Chip.StoresWf.attestTaken {b} (hc : c.StoresWf) : (c.attestTaken b).StoresWf := hc.modLkp

theorem Hub.StoresWf.mgmtOp {req op} (hh : h.StoresWf) : (h.mgmtOp req op).2.StoresWf := by
  fun_cases Hub.mgmtOp
  · exact hh.wordWrite.of_eq ‹_›
  · exact hh
  · exact hh
  · exact hh.pathRead.of_eq ‹_›

theorem Hub.StoresWf.mgmtOps {req x free l ops} (hh : h.StoresWf) : (h.mgmtOps req x free l ops).2.StoresWf := by
  fun_induction Hub.mgmtOps
  · exact hh
  · exact hh.onChip fun hc => hc.holdPath
  · next ih => exact ih (hh.mgmtOp.of_eq ‹_›)

theorem Hub.StoresWf.mgmtRun {x req free done ops} (hh : h.StoresWf) : (h.mgmtRun x req free done ops).StoresWf := by
  fun_cases Hub.mgmtRun
  · exact hh.mgmtOps.of_eq ‹_›
  · exact (hh.mgmtOps.of_eq ‹_›).when fun hh => hh.onChip fun hc => hc.mgmtAnswer

theorem Hub.StoresWf.mgmtCarryOut {x ops} (hh : h.StoresWf) : (h.mgmtCarryOut x ops).StoresWf := hh.mgmtRun

theorem Hub.StoresWf.resume {a} (hh : h.StoresWf) : (h.resume a).StoresWf := by
  fun_cases Hub.resume
  · exact (hh.writeAccess.of_eq ‹_›).onChip fun hc => hc.accessEnds
  · exact hh.writeAccess.of_eq ‹_›
  · exact (hh.writeAccess.of_eq ‹_›).onChip fun hc => hc.accessEnds
  · exact hh.writeAccess.of_eq ‹_›
  · exact (hh.writeAccess.of_eq ‹_›).onChip fun hc => hc.tgtAnswer
  · exact hh.writeAccess.of_eq ‹_›
  · exact hh.mgmtRun

theorem Hub.StoresWf.holdEnds (hh : h.StoresWf) : h.holdEnds.StoresWf := by
  fun_cases Hub.holdEnds
  · exact hh
  · exact (hh.onChip fun hc => hc.modFab).resume.drainPath.afterWrite id

theorem Completes.execCommitHoldExpiry : Completes s (execCommitHoldExpiry s) := .onHub fun hh => hh.holdEnds

theorem Chip.StoresWf.mgmtRelay {b p} (hc : c.StoresWf) : (c.mgmtRelay b p).StoresWf := by
  fun_cases Chip.mgmtRelay
  exact (hc.mgmtSend.of_eq ‹_›).modLkp

theorem Hub.StoresWf.mgmtAdmit {x} (hh : h.StoresWf) : (h.mgmtAdmit x).StoresWf := by
  unfold Hub.mgmtAdmit
  extract_lets b relay go
  have hgo : ∀ {ops h}, Hub.StoresWf h → (go ops h).StoresWf := fun hh => .ite (hh.onChip fun hc => hc.mgmtRelay) hh.mgmtCarryOut
  refine .ite (hh.onChip fun hc => hc.mgmtAnswer) (.ite ?_ (.ite (hgo hh) (hh.onChip fun hc => hc.admitRefused.mgmtAnswer)))
  have hs : ∀ {c : Chip}, c.StoresWf → (c.countSlotRefused engineMgmt (c.activeSlot 1)).StoresWf := fun hc => hc.countSlotRefused
  split
  · exact (hh.onChip hs).onChip fun hc => (hc.when fun hc => hc.keyCount).mgmtAnswer
  · exact hgo ((hh.onChip hs).onChip fun hc => hc.attestTaken)

theorem Chip.StoresWf.takeP8 {x} (hc : c.StoresWf) : (c.takeP8 x).StoresWf := hc.modSwc

theorem Hub.StoresWf.mgmtRequest (hh : h.StoresWf) : h.mgmtRequest.StoresWf := by
  fun_cases Hub.mgmtRequest
  · exact hh.onChip fun hc => hc.modSwc
  · exact ((hh.onChip fun hc => hc.modSwc).onChip fun hc => hc.takeP8).onChip fun hc => hc.modSwc
  · exact ((hh.onChip fun hc => hc.modSwc).onChip fun hc => hc.takeP8).mgmtAdmit

theorem Completes.execMgmtRequestRx : Completes s (execMgmtRequestRx s) := .onHub fun hh => hh.when fun hh => hh.mgmtRequest

theorem Chip.StoresWf.proxyEnds {r tspec payload} (hc : c.StoresWf) : (c.proxyEnds r tspec payload).StoresWf := by
  fun_cases Chip.proxyEnds
  exact (hc.modLkp.mgmtSend.of_eq ‹_›).keepResponse

theorem Chip.StoresWf.proxyResponse (hc : c.StoresWf) : c.proxyResponse.StoresWf := by
  fun_cases Chip.proxyResponse
  · exact hc
  · exact hc.takeP8
  · exact hc.takeP8.proxyEnds

theorem Completes.execMgmtProxyResponseRx : Completes s (execMgmtProxyResponseRx s) := .onChip fun hc => hc.when fun hc => hc.proxyResponse

theorem Chip.StoresWf.proxyTimeout (hc : c.StoresWf) : c.proxyTimeout.StoresWf := by
  fun_cases Chip.proxyTimeout
  · exact hc
  · exact hc.proxyEnds

theorem Completes.execMgmtProxyTimeout : Completes s (execMgmtProxyTimeout s) := .onChip fun hc => hc.when fun hc => hc.proxyTimeout

/-! `Resets`: The commands that begin and end resets (01 R16, R21 to R25, 17 R506). -/

theorem Hub.StoresWf.powerOnReset {vaonRamp} (hh : h.StoresWf) : (h.powerOnReset vaonRamp).StoresWf := by
  unfold Hub.powerOnReset
  refine hh.coreReset.when fun hh => Hub.StoresWf.onChip hh fun {c} hc => ?_
  exact ⟨wf_afterRamp hc.regsWf, hc.stageWf⟩

theorem Completes.execPor {vaonRamp} : Completes s (execPor vaonRamp s) := .onHub fun hh => hh.powerOnReset

theorem Completes.execRstNAssert : Completes s (execRstNAssert s) := .onHub fun hh => hh.coldReset

theorem Completes.execClockLoss : Completes s (execClockLoss s) :=
  .onHub fun hh => hh.when fun hh => hh.coldReset.onChip fun hc => hc.flag.frame (by rfl)

theorem Completes.execClockRestored : Completes s (execClockRestored s) := .onChip fun hc => hc.frame (by rfl)

theorem Chip.StoresWf.sampleStraps {roleHe boot0 boot1 testmode} (hc : c.StoresWf) :
    (c.sampleStraps roleHe boot0 boot1 testmode).StoresWf :=
  hc.put.put.put.when fun hc => .ite hc.keyCount hc.privateInstruction

theorem Chip.StoresWf.showRole (hc : c.StoresWf) : c.showRole.StoresWf := hc.put.put

theorem Chip.StoresWf.resetEnd {roleHe boot0 boot1 testmode} (hc : c.StoresWf) : (c.resetEnd roleHe boot0 boot1 testmode).StoresWf :=
  ((hc.frame (by rfl)).when fun hc => hc.sampleStraps).show256.put.showRole.blankFlr.when fun hc => hc.flag.raiseOwn

theorem Completes.execInternalResetEnd {roleHe boot0 boot1 testmode} : Completes s (execInternalResetEnd roleHe boot0 boot1 testmode s) :=
  .onChip fun hc => hc.when fun hc => hc.resetEnd

/-! `Tick`: Time. -/

theorem Hub.StoresWf.countLevels {cycles} (hh : h.StoresWf) : (h.countLevels cycles).StoresWf :=
  .ite hh (hh.onChip fun hc => hc.frame (by rfl))

theorem Hub.StoresWf.countShown (hh : h.StoresWf) : h.countShown.StoresWf := by
  unfold Hub.countShown
  exact hh.onChip fun hc => hc.frame (by rfl)

theorem Hub.StoresWf.passTime {ns} (hh : h.StoresWf) : (h.passTime ns).StoresWf := by
  unfold Hub.passTime
  exact (hh.when fun hh => hh.countLevels.countShown).onChip fun hc => (hc.frame (by rfl)).settleBulk

theorem Chip.StoresWf.advanceTime {ns} (hc : c.StoresWf) : (c.advanceTime ns).StoresWf := .ite (hc.frame (by rfl)) hc

theorem Hub.StoresWf.idle (hh : h.StoresWf) : h.idle.StoresWf := hh.passTime.onChip fun hc => hc.when fun hc => hc.advanceTime

theorem Completes.idle : Completes s s.idle := .onHub fun hh => hh.idle

theorem Chip.StoresWf.snapshotCounters (hc : c.StoresWf) : c.snapshotCounters.StoresWf := .ite hc (hc.put.frame (by rfl))

theorem Chip.StoresWf.nextFrame (hc : c.StoresWf) : c.nextFrame.StoresWf := hc.inc.frame (by rfl)

theorem Chip.StoresWf.repeatNotices (hc : c.StoresWf) : c.repeatNotices.StoresWf := hc.each fun hc => hc.when fun hc => hc.sendNotice

theorem Hub.StoresWf.frameTick {m} (hh : h.StoresWf) : (h.frameTick m).StoresWf := by
  fun_cases Hub.frameTick
  exact ((hh.passTime.onChip fun hc => hc.nextFrame.snapshotCounters.gatesInitial.takeovers).frameRecords.of_eq
    ‹_›).governorTick.makeOffers.onChip fun hc => (hc.each fun hc => hc.sendTick).fldTick.repeatNotices.alarmTick

theorem Completes.execFrameTick {meas} : Completes s (execFrameTick meas s) := .onHub fun hh => hh.when fun hh => hh.frameTick

end Sys2Proof.Machine
end

section
/-! What every step keeps of the stores: Writes. -/

namespace Sys2Proof.Machine

variable {c : Chip} {h : Hub} {v : Hv} {s : State}

/-! `Writes`: The commands that are register writes with a row of their own. -/

theorem Completes.execWarmReset {req confirm} : Completes s (execWarmReset req confirm s) := Completes.writeFields

theorem Completes.execDpReset {req confirm} : Completes s (execDpReset req confirm s) := Completes.writeFields

theorem Completes.execShiftCmdGo {req p target} : Completes s (execShiftCmdGo req p target s) := Completes.writeFields

theorem Completes.execStepLimitWrite {req p ctl} : Completes s (execStepLimitWrite req p ctl s) := Completes.writeWord

theorem Completes.execTestModeWrite {req p on} : Completes s (execTestModeWrite req p on s) := Completes.writeFields

theorem Completes.execTrkRetrain {req p} : Completes s (execTrkRetrain req p s) := Completes.writeFields

theorem Completes.execTrkEnableWrite {req p en laneAOff laneBOff} : Completes s (execTrkEnableWrite req p en laneAOff laneBOff s) :=
  Completes.writeFields

theorem Completes.execTestCheckerEnable {req p ctl} : Completes s (execTestCheckerEnable req p ctl s) := Completes.writeWord

theorem Completes.execWetClear {p} : Completes s (execWetClear p s) := .onChip fun hc => hc.wetClear

theorem Completes.execLinkDisable {req p} : Completes s (execLinkDisable req p s) := Completes.writeFields

theorem Completes.execTpSend {req p} : Completes s (execTpSend req p s) := Completes.writeFields

theorem Completes.execTpStatusReq {req p} : Completes s (execTpStatusReq req p s) := Completes.writeFields

theorem Completes.execTpHardReset {req p} : Completes s (execTpHardReset req p s) := Completes.writeFields

theorem Completes.execTpRxRelease {req p} : Completes s (execTpRxRelease req p s) := Completes.writeFields

theorem Completes.execTpSoftReset {req p scope} : Completes s (execTpSoftReset req p scope s) := Completes.writeFields

theorem Completes.execRouteEntryCommit {req dst value} : Completes s (execRouteEntryCommit req dst value s) := Completes.writeWord

theorem Completes.execTunnelMapCommit {req t value} : Completes s (execTunnelMapCommit req t value s) := Completes.writeWord

theorem Completes.execGroupEntryCommit {req g value} : Completes s (execGroupEntryCommit req g value s) := Completes.writeWord

theorem Completes.execBasinReserveWrite {req i value} : Completes s (execBasinReserveWrite req i value s) := Completes.writeWord

theorem Completes.execPeakClr {req} : Completes s (execPeakClr req s) := Completes.writeFields

theorem Completes.execWeirCommit {req n value} : Completes s (execWeirCommit req n value s) := Completes.writeWord

theorem Completes.execTakeoverArm {req i subns} : Completes s (execTakeoverArm req i subns s) := Completes.writeFields

theorem Completes.execTakeoverDisarm {req i subns} : Completes s (execTakeoverDisarm req i subns s) := Completes.writeFields

theorem Completes.execSchQSelWrite {req value} : Completes s (execSchQSelWrite req value s) := Completes.writeWord

theorem Completes.execPortMapWrite {req i value} : Completes s (execPortMapWrite req i value s) := Completes.writeWord

theorem Completes.execLockCtlReq {req hub space} : Completes s (execLockCtlReq req hub space s) := Completes.writeFields

theorem Completes.execLockCtlRelease {req hub space} : Completes s (execLockCtlRelease req hub space s) := Completes.writeFields

theorem Completes.execLockCtlReleaseAll {req} : Completes s (execLockCtlReleaseAll req s) := Completes.writeFields

theorem Completes.execRangeCommit {req n value} : Completes s (execRangeCommit req n value s) := Completes.writeWord

theorem Completes.execRpRetrain {req} : Completes s (execRpRetrain req s) := Completes.writeFields

theorem Completes.execDmaTailWrite {req n tail} : Completes s (execDmaTailWrite req n tail s) := Completes.writeFields

theorem Completes.execDmaRingConfigWrite {req n word value} : Completes s (execDmaRingConfigWrite req n word value s) := Completes.writeWord

theorem Completes.execDsiCmdSend {req value} : Completes s (execDsiCmdSend req value s) := Completes.writeWord

theorem Completes.execEthLearnCommit {req i value} : Completes s (execEthLearnCommit req i value s) := Completes.writeWord

theorem Completes.execEthVlanCommit {req x value} : Completes s (execEthVlanCommit req x value s) := Completes.writeWord

theorem Completes.execMdioGo {req value} : Completes s (execMdioGo req value s) := Completes.writeWord

theorem Completes.execSignalEntryCommit {req i value} : Completes s (execSignalEntryCommit req i value s) := Completes.writeWord

theorem Completes.execTpwProbeCmd {req p} : Completes s (execTpwProbeCmd req p s) := Completes.writeFields

theorem Completes.execTpwGoOpen {req p} : Completes s (execTpwGoOpen req p s) := Completes.writeFields

theorem Completes.execTpwGoSource {req p} : Completes s (execTpwGoSource req p s) := Completes.writeFields

theorem Completes.execTpwGoSink {req p} : Completes s (execTpwGoSink req p s) := Completes.writeFields

theorem Completes.execTpwClearLatch {req p} : Completes s (execTpwClearLatch req p s) := Completes.writeFields

theorem Completes.execPrefPortWrite {req value} : Completes s (execPrefPortWrite req value s) := Completes.writeWord

theorem Completes.execTpwConfigWrite {req off value} : Completes s (execTpwConfigWrite req off value s) := Completes.writeWord

theorem Completes.execLoadCmdOn {req y} : Completes s (execLoadCmdOn req y s) := Completes.writeFields

theorem Completes.execLoadCmdOff {req y} : Completes s (execLoadCmdOff req y s) := Completes.writeFields

theorem Completes.execLoadCmdClearLatch {req y} : Completes s (execLoadCmdClearLatch req y s) := Completes.writeFields

theorem Completes.execLoadConfigWrite {req off value} : Completes s (execLoadConfigWrite req off value s) := Completes.writeWord

theorem Completes.execLcFuseGo {req target confirm} : Completes s (execLcFuseGo req target confirm s) := Completes.writeFields

theorem Completes.execSvnAdvance {req confirm} : Completes s (execSvnAdvance req confirm s) := Completes.writeFields

theorem Completes.execProvGo {req} : Completes s (execProvGo req s) := Completes.writeFields

theorem Completes.execWatermarkGo {req session} : Completes s (execWatermarkGo req session s) := Completes.writeFields

theorem Completes.execReadmit {req p} : Completes s (execReadmit req p s) := Completes.writeFields

theorem Completes.execRekey {req p} : Completes s (execRekey req p s) := Completes.writeFields

theorem Completes.execLkpReady {req} : Completes s (execLkpReady req s) := Completes.writeFields

theorem Completes.execLkpKick {req} : Completes s (execLkpKick req s) := Completes.writeFields

theorem Completes.execLkpRestart {req} : Completes s (execLkpRestart req s) := Completes.writeFields

theorem Completes.execPwrVoteSwWrite {req value} : Completes s (execPwrVoteSwWrite req value s) := Completes.writeWord

theorem Completes.execDeepReqWrite {req on} : Completes s (execDeepReqWrite req on s) := Completes.writeFields

theorem Completes.execPwrOff {req confirm} : Completes s (execPwrOff req confirm s) := Completes.writeFields

theorem Completes.execRecoveryImageWrite {req off value} : Completes s (execRecoveryImageWrite req off value s) := Completes.writeWord

theorem Completes.execRegisterWrite {req off value} : Completes s (execRegisterWrite req off value s) := Completes.writeWord

theorem Completes.execCfgCommitGo {req} : Completes s (execCfgCommitGo req s) := Completes.writeFields

theorem Completes.execCfgClearOvl {req} : Completes s (execCfgClearOvl req s) := Completes.writeFields

theorem Completes.execFlashRead {req} : Completes s (execFlashRead req s) := Completes.writeFields

theorem Completes.execFlashProgram {req} : Completes s (execFlashProgram req s) := Completes.writeFields

theorem Completes.execFlashErase4k {req} : Completes s (execFlashErase4k req s) := Completes.writeFields

theorem Completes.execFlashErase64k {req} : Completes s (execFlashErase64k req s) := Completes.writeFields

theorem Completes.execCounterPreset {req n high value} : Completes s (execCounterPreset req n high value s) := Completes.writeWord

theorem Completes.execCntClear {req} : Completes s (execCntClear req s) := Completes.writeFields

theorem Completes.execCntFreeze {req on} : Completes s (execCntFreeze req on s) := Completes.writeFields

theorem Completes.execFaultStatusClear {req value} : Completes s (execFaultStatusClear req value s) := Completes.writeWord

end Sys2Proof.Machine
end

section
/-! Every command completes, and the obligations of the scope: O3, O4, O5, O8. -/

namespace Sys2Proof.Machine

/-- Every command answers a next state and keeps the stores canonical: one rule for each command of the instruction set. -/
theorem exec_completes (i : Instr) (s : State) : Completes s (exec i s) := by
  cases i with
  | por => exact Completes.execPor
  | rstNAssert => exact Completes.execRstNAssert
  | internalResetEnd => exact Completes.execInternalResetEnd
  | clockLoss => exact Completes.execClockLoss
  | clockRestored => exact Completes.execClockRestored
  | warmReset => exact Completes.execWarmReset
  | dpReset => exact Completes.execDpReset
  | frameTick => exact Completes.execFrameTick
  | bringupStart => exact Completes.execBringupStart
  | echoTrainingEnd => exact Completes.execEchoTrainingEnd
  | partnerAcquired => exact Completes.execPartnerAcquired
  | handshake => exact Completes.execHandshake
  | channelSnapshot => exact Completes.execChannelSnapshot
  | listeningEnter => exact Completes.execListeningEnter
  | listenBurst => exact Completes.execListenBurst
  | partnerEnergy => exact Completes.execPartnerEnergy
  | bringupBackoffExpiry => exact Completes.execBringupBackoffExpiry
  | spanStart => exact Completes.execSpanStart
  | lockMarkerRx => exact Completes.execLockMarkerRx
  | codewordRx => exact Completes.execCodewordRx
  | elasticSlip => exact Completes.execElasticSlip
  | fillerDue => exact Completes.execFillerDue
  | proposeUpShift => exact Completes.execProposeUpShift
  | proposeDownMargin => exact Completes.execProposeDownMargin
  | proposeDownCsr => exact Completes.execProposeDownCsr
  | proposeDownBurst => exact Completes.execProposeDownBurst
  | proposeBudgetShift => exact Completes.execProposeBudgetShift
  | holdoffExpiry => exact Completes.execHoldoffExpiry
  | shiftReqRx => exact Completes.execShiftReqRx
  | shiftAccRx => exact Completes.execShiftAccRx
  | shiftRefRx => exact Completes.execShiftRefRx
  | shiftCancel => exact Completes.execShiftCancel
  | shiftCancelRx => exact Completes.execShiftCancelRx
  | shiftResponderCommit => exact Completes.execShiftResponderCommit
  | shiftTxSwitch => exact Completes.execShiftTxSwitch
  | shiftRxSwitch => exact Completes.execShiftRxSwitch
  | shiftAcquireFail => exact Completes.execShiftAcquireFail
  | shiftCmdGo => exact Completes.execShiftCmdGo
  | stepLimitWrite => exact Completes.execStepLimitWrite
  | wetClear => exact Completes.execWetClear
  | laneLossOfSignal => exact Completes.execLaneLossOfSignal
  | laneDownRx => exact Completes.execLaneDownRx
  | laneJoinAttempt => exact Completes.execLaneJoinAttempt
  | laneJoinRx => exact Completes.execLaneJoinRx
  | quietEnter => exact Completes.execQuietEnter
  | wakeB => exact Completes.execWakeB
  | wakeBRx => exact Completes.execWakeBRx
  | moorEnter => exact Completes.execMoorEnter
  | moorExit => exact Completes.execMoorExit
  | moorPreambleRx => exact Completes.execMoorPreambleRx
  | linkLoss => exact Completes.execLinkLoss
  | protocolViolationLimit => exact Completes.execProtocolViolationLimit
  | testModeWrite => exact Completes.execTestModeWrite
  | trkRetrain => exact Completes.execTrkRetrain
  | trkEnableWrite => exact Completes.execTrkEnableWrite
  | testCheckerEnable => exact Completes.execTestCheckerEnable
  | linkBargeTx => exact Completes.execLinkBargeTx
  | linkBargeRx => exact Completes.execLinkBargeRx
  | ackDelayExpiry => exact Completes.execAckDelayExpiry
  | lackRx => exact Completes.execLackRx
  | lnakRx => exact Completes.execLnakRx
  | replayTimeout => exact Completes.execReplayTimeout
  | linkDisable => exact Completes.execLinkDisable
  | heartbeatTx => exact Completes.execHeartbeatTx
  | heartbeatRx => exact Completes.execHeartbeatRx
  | heartbeatLoss => exact Completes.execHeartbeatLoss
  | tickRx => exact Completes.execTickRx
  | delayReqTx => exact Completes.execDelayReqTx
  | delayReqRx => exact Completes.execDelayReqRx
  | delayRespRx => exact Completes.execDelayRespRx
  | epochRequest => exact Completes.execEpochRequest
  | epochChange => exact Completes.execEpochChange
  | towpathFrameRx => exact Completes.execTowpathFrameRx
  | towpathSend => exact Completes.execTowpathSend
  | towpathBackoffExpiry => exact Completes.execTowpathBackoffExpiry
  | helloTx => exact Completes.execHelloTx
  | helloRx => exact Completes.execHelloRx
  | partnerSeenTimeout => exact Completes.execPartnerSeenTimeout
  | statusRequestRx => exact Completes.execStatusRequestRx
  | resetSoftRx => exact Completes.execResetSoftRx
  | tpAnswerTimeout => exact Completes.execTpAnswerTimeout
  | tpEscalationStatusRx => exact Completes.execTpEscalationStatusRx
  | tpRestartWaitExpiry => exact Completes.execTpRestartWaitExpiry
  | tpUnescalatedTimeout => exact Completes.execTpUnescalatedTimeout
  | tpSend => exact Completes.execTpSend
  | tpStatusReq => exact Completes.execTpStatusReq
  | tpSoftReset => exact Completes.execTpSoftReset
  | tpHardReset => exact Completes.execTpHardReset
  | tpRxRelease => exact Completes.execTpRxRelease
  | fastSwapPatternRx => exact Completes.execFastSwapPatternRx
  | hardResetBreakRx => exact Completes.execHardResetBreakRx
  | breakResetRelease => exact Completes.execBreakResetRelease
  | breakGuardExpiry => exact Completes.execBreakGuardExpiry
  | discoveryAnnounceTx => exact Completes.execDiscoveryAnnounceTx
  | discoveryAnnounceRx => exact Completes.execDiscoveryAnnounceRx
  | routeEntryCommit => exact Completes.execRouteEntryCommit
  | tunnelMapCommit => exact Completes.execTunnelMapCommit
  | groupEntryCommit => exact Completes.execGroupEntryCommit
  | commitHoldExpiry => exact Completes.execCommitHoldExpiry
  | trunkIngressLookup => exact Completes.execTrunkIngressLookup
  | adapterIngressLookup => exact Completes.execAdapterIngressLookup
  | lockkeeperBargeIngress => exact Completes.execLockkeeperBargeIngress
  | admissionRetry => exact Completes.execAdmissionRetry
  | weirHoldRetry => exact Completes.execWeirHoldRetry
  | tackRx => exact Completes.execTackRx
  | syncTx => exact Completes.execSyncTx
  | syncRepeat => exact Completes.execSyncRepeat
  | syncRx => exact Completes.execSyncRx
  | tunnelAckDelayExpiry => exact Completes.execTunnelAckDelayExpiry
  | treplayExpiry => exact Completes.execTreplayExpiry
  | ageSweep => exact Completes.execAgeSweep
  | portRoutabilityLoss => exact Completes.execPortRoutabilityLoss
  | voqWalkDone => exact Completes.execVoqWalkDone
  | routeNoticeTx => exact Completes.execRouteNoticeTx
  | routeNoticeRx => exact Completes.execRouteNoticeRx
  | routeNoticeAgeExpiry => exact Completes.execRouteNoticeAgeExpiry
  | wtrExpiry => exact Completes.execWtrExpiry
  | timeKeyLapse => exact Completes.execTimeKeyLapse
  | upstreamTickTimeout => exact Completes.execUpstreamTickTimeout
  | hostSofLock => exact Completes.execHostSofLock
  | crossbarGrant => exact Completes.execCrossbarGrant
  | basinReserveWrite => exact Completes.execBasinReserveWrite
  | loopbackBarge => exact Completes.execLoopbackBarge
  | peakClr => exact Completes.execPeakClr
  | weirCommit => exact Completes.execWeirCommit
  | gateEntryAdvance => exact Completes.execGateEntryAdvance
  | gateCycleStart => exact Completes.execGateCycleStart
  | takeoverArm => exact Completes.execTakeoverArm
  | takeoverDisarm => exact Completes.execTakeoverDisarm
  | gateTakeover => exact Completes.execGateTakeover
  | schQSelWrite => exact Completes.execSchQSelWrite
  | budgetLevelFall => exact Completes.execBudgetLevelFall
  | capRaiseDelayExpiry => exact Completes.execCapRaiseDelayExpiry
  | shedRestore => exact Completes.execShedRestore
  | rampFreezeEnd => exact Completes.execRampFreezeEnd
  | usbU0Connect => exact Completes.execUsbU0Connect
  | portMapWrite => exact Completes.execPortMapWrite
  | hostSetup => exact Completes.execHostSetup
  | hostOutData => exact Completes.execHostOutData
  | hostInToken => exact Completes.execHostInToken
  | hostStatusStage => exact Completes.execHostStatusStage
  | hostIsoToken => exact Completes.execHostIsoToken
  | hostSplitTransaction => exact Completes.execHostSplitTransaction
  | hostLpmToken => exact Completes.execHostLpmToken
  | hostPortPower => exact Completes.execHostPortPower
  | hostPortSuspend => exact Completes.execHostPortSuspend
  | hostPortResume => exact Completes.execHostPortResume
  | hostPortReset => exact Completes.execHostPortReset
  | hostLinkSuspend => exact Completes.execHostLinkSuspend
  | hostLinkResume => exact Completes.execHostLinkResume
  | hostU0Reset => exact Completes.execHostU0Reset
  | portCmdPowerOn => exact Completes.execPortCmdPowerOn
  | portCmdPowerOff => exact Completes.execPortCmdPowerOff
  | portCmdReset => exact Completes.execPortCmdReset
  | portCmdWarmReset => exact Completes.execPortCmdWarmReset
  | portCmdSuspend => exact Completes.execPortCmdSuspend
  | portCmdResume => exact Completes.execPortCmdResume
  | portCmdDisable => exact Completes.execPortCmdDisable
  | portCmdL1 => exact Completes.execPortCmdL1
  | portCmdUTimeout => exact Completes.execPortCmdUTimeout
  | portCmdSofOffset => exact Completes.execPortCmdSofOffset
  | portCmdSsHold => exact Completes.execPortCmdSsHold
  | portEventConnect => exact Completes.execPortEventConnect
  | portEventDisconnect => exact Completes.execPortEventDisconnect
  | portEventResetDone => exact Completes.execPortEventResetDone
  | portEventOverCurrent => exact Completes.execPortEventOverCurrent
  | portEventRemoteWake => exact Completes.execPortEventRemoteWake
  | portEventResumeDone => exact Completes.execPortEventResumeDone
  | portEventDisabled => exact Completes.execPortEventDisabled
  | portEventL1State => exact Completes.execPortEventL1State
  | proxySetupRx => exact Completes.execProxySetupRx
  | proxyOutDataRx => exact Completes.execProxyOutDataRx
  | proxyInReqRx => exact Completes.execProxyInReqRx
  | proxyInDataRx => exact Completes.execProxyInDataRx
  | proxyResultRx => exact Completes.execProxyResultRx
  | proxyIsoOutRx => exact Completes.execProxyIsoOutRx
  | proxyIsoInRx => exact Completes.execProxyIsoInRx
  | proxyEpResetRx => exact Completes.execProxyEpResetRx
  | deviceStall => exact Completes.execDeviceStall
  | deviceXferError => exact Completes.execDeviceXferError
  | deviceBabble => exact Completes.execDeviceBabble
  | deviceRemoteWake => exact Completes.execDeviceRemoteWake
  | deviceAttach => exact Completes.execDeviceAttach
  | interruptPoll => exact Completes.execInterruptPoll
  | microframeStart => exact Completes.execMicroframeStart
  | physicalResetEnd => exact Completes.execPhysicalResetEnd
  | resetLimitExpiry => exact Completes.execResetLimitExpiry
  | vbusGoodTimeout => exact Completes.execVbusGoodTimeout
  | ocDeglitchExpiry => exact Completes.execOcDeglitchExpiry
  | bridgeRdRx => exact Completes.execBridgeRdRx
  | bridgeWrPRx => exact Completes.execBridgeWrPRx
  | bridgeWrNpRx => exact Completes.execBridgeWrNpRx
  | bridgeCplDRx => exact Completes.execBridgeCplDRx
  | bridgeCplRx => exact Completes.execBridgeCplRx
  | bridgePwerrRx => exact Completes.execBridgePwerrRx
  | lockReqRx => exact Completes.execLockReqRx
  | lockGrantRx => exact Completes.execLockGrantRx
  | lockRetryRx => exact Completes.execLockRetryRx
  | lockRelRx => exact Completes.execLockRelRx
  | lockBrokenRx => exact Completes.execLockBrokenRx
  | lockCtlReq => exact Completes.execLockCtlReq
  | lockCtlRelease => exact Completes.execLockCtlRelease
  | lockCtlReleaseAll => exact Completes.execLockCtlReleaseAll
  | lockBackoffExpiry => exact Completes.execLockBackoffExpiry
  | lockHoldLimit => exact Completes.execLockHoldLimit
  | hostBarAccess => exact Completes.execHostBarAccess
  | driveInboundAccess => exact Completes.execDriveInboundAccess
  | driveMsi => exact Completes.execDriveMsi
  | prefetchIdleExpiry => exact Completes.execPrefetchIdleExpiry
  | cplTimeout => exact Completes.execCplTimeout
  | targetTimeout => exact Completes.execTargetTimeout
  | tagQuarantineExpiry => exact Completes.execTagQuarantineExpiry
  | pcieLinkDown => exact Completes.execPcieLinkDown
  | rangeCommit => exact Completes.execRangeCommit
  | rpRetrain => exact Completes.execRpRetrain
  | dmaTailWrite => exact Completes.execDmaTailWrite
  | dmaRxBarge => exact Completes.execDmaRxBarge
  | dmaTxMessage => exact Completes.execDmaTxMessage
  | dmaInterruptModeration => exact Completes.execDmaInterruptModeration
  | dmaRingConfigWrite => exact Completes.execDmaRingConfigWrite
  | stageRingWrite => exact Completes.execStageRingWrite
  | csiFrameStart => exact Completes.execCsiFrameStart
  | csiLineRx => exact Completes.execCsiLineRx
  | csiFrameEnd => exact Completes.execCsiFrameEnd
  | csiStreamLoss => exact Completes.execCsiStreamLoss
  | dsiFrameStart => exact Completes.execDsiFrameStart
  | dsiLineStart => exact Completes.execDsiLineStart
  | dsiSegmentRx => exact Completes.execDsiSegmentRx
  | dsiCmdSend => exact Completes.execDsiCmdSend
  | dsiCmdSent => exact Completes.execDsiCmdSent
  | ethLocalFrameRx => exact Completes.execEthLocalFrameRx
  | ethFabricFrameRx => exact Completes.execEthFabricFrameRx
  | ethTxStart => exact Completes.execEthTxStart
  | ethAgeExpiry => exact Completes.execEthAgeExpiry
  | ethLearnCommit => exact Completes.execEthLearnCommit
  | ethVlanCommit => exact Completes.execEthVlanCommit
  | mdioGo => exact Completes.execMdioGo
  | signalBargeRx => exact Completes.execSignalBargeRx
  | signalBatchExpiry => exact Completes.execSignalBatchExpiry
  | signalEntryCommit => exact Completes.execSignalEntryCommit
  | signalStale => exact Completes.execSignalStale
  | signalSubstitute => exact Completes.execSignalSubstitute
  | canFrameRx => exact Completes.execCanFrameRx
  | canFrameLoad => exact Completes.execCanFrameLoad
  | canFrameTxDone => exact Completes.execCanFrameTxDone
  | canBusOff => exact Completes.execCanBusOff
  | canBusRecover => exact Completes.execCanBusRecover
  | modbusTxnStart => exact Completes.execModbusTxnStart
  | modbusResponseRx => exact Completes.execModbusResponseRx
  | modbusTimeout => exact Completes.execModbusTimeout
  | modbusBroadcastIdleEnd => exact Completes.execModbusBroadcastIdleEnd
  | fioEdge => exact Completes.execFioEdge
  | fioChatterWindowEnd => exact Completes.execFioChatterWindowEnd
  | fioStuck => exact Completes.execFioStuck
  | hvUvloEnter => exact Completes.execHvUvloEnter
  | hvUvloRelease => exact Completes.execHvUvloRelease
  | probeStart => exact Completes.execProbeStart
  | probeComplete => exact Completes.execProbeComplete
  | tpwProbeCmd => exact Completes.execTpwProbeCmd
  | tpwGoOpen => exact Completes.execTpwGoOpen
  | tpwGoSource => exact Completes.execTpwGoSource
  | tpwGoSink => exact Completes.execTpwGoSink
  | tpwClearLatch => exact Completes.execTpwClearLatch
  | sinkClose => exact Completes.execSinkClose
  | sourceRampDone => exact Completes.execSourceRampDone
  | pathPgDeglitch => exact Completes.execPathPgDeglitch
  | sourceRampFault => exact Completes.execSourceRampFault
  | pathFaultTimer => exact Completes.execPathFaultTimer
  | pathHardShort => exact Completes.execPathHardShort
  | pathOvervoltage => exact Completes.execPathOvervoltage
  | pathOvRecovery => exact Completes.execPathOvRecovery
  | pathGateFault => exact Completes.execPathGateFault
  | pathDrop => exact Completes.execPathDrop
  | pathRetryDue => exact Completes.execPathRetryDue
  | pathReverseTurnoff => exact Completes.execPathReverseTurnoff
  | partnerSilentTimeout => exact Completes.execPartnerSilentTimeout
  | prefPortWrite => exact Completes.execPrefPortWrite
  | feedLossShed => exact Completes.execFeedLossShed
  | feedRestore => exact Completes.execFeedRestore
  | pwrOfferRx => exact Completes.execPwrOfferRx
  | pwrRequestRx => exact Completes.execPwrRequestRx
  | pwrAcceptRx => exact Completes.execPwrAcceptRx
  | pwrRejectRx => exact Completes.execPwrRejectRx
  | contractLowerDelay => exact Completes.execContractLowerDelay
  | overdrawCheck => exact Completes.execOverdrawCheck
  | swapReqRx => exact Completes.execSwapReqRx
  | swapAckRx => exact Completes.execSwapAckRx
  | swapNewSource => exact Completes.execSwapNewSource
  | swapOldSink => exact Completes.execSwapOldSink
  | swapStatusProbe => exact Completes.execSwapStatusProbe
  | swapGuardCheck => exact Completes.execSwapGuardCheck
  | frsTrigger => exact Completes.execFrsTrigger
  | fastSwapMsgRx => exact Completes.execFastSwapMsgRx
  | reverseCurrentSwap => exact Completes.execReverseCurrentSwap
  | guardFailure => exact Completes.execGuardFailure
  | restoreExpiry => exact Completes.execRestoreExpiry
  | hvLinkLoss => exact Completes.execHvLinkLoss
  | fetDamage => exact Completes.execFetDamage
  | fetModelUpdate => exact Completes.execFetModelUpdate
  | tpwConfigWrite => exact Completes.execTpwConfigWrite
  | loadCmdOn => exact Completes.execLoadCmdOn
  | loadCmdOff => exact Completes.execLoadCmdOff
  | loadCmdClearLatch => exact Completes.execLoadCmdClearLatch
  | loadSlotStart => exact Completes.execLoadSlotStart
  | loadRampEnd => exact Completes.execLoadRampEnd
  | loadRampFault => exact Completes.execLoadRampFault
  | loadFaultTimer => exact Completes.execLoadFaultTimer
  | loadHardShort => exact Completes.execLoadHardShort
  | loadGateFault => exact Completes.execLoadGateFault
  | loadPathDrop => exact Completes.execLoadPathDrop
  | loadOvervoltage => exact Completes.execLoadOvervoltage
  | loadOvRecovery => exact Completes.execLoadOvRecovery
  | loadPgDeglitch => exact Completes.execLoadPgDeglitch
  | loadVoutLow => exact Completes.execLoadVoutLow
  | loadRetryDue => exact Completes.execLoadRetryDue
  | loadRetryCountReset => exact Completes.execLoadRetryCountReset
  | loadOffConduction => exact Completes.execLoadOffConduction
  | loadOutPresent => exact Completes.execLoadOutPresent
  | loadConfigWrite => exact Completes.execLoadConfigWrite
  | lcFuseGo => exact Completes.execLcFuseGo
  | svnAdvance => exact Completes.execSvnAdvance
  | provGo => exact Completes.execProvGo
  | provRecordDone => exact Completes.execProvRecordDone
  | watermarkGo => exact Completes.execWatermarkGo
  | admissionStart => exact Completes.execAdmissionStart
  | keyxHelloKRx => exact Completes.execKeyxHelloKRx
  | keyxConfirmRx => exact Completes.execKeyxConfirmRx
  | keyxFailRx => exact Completes.execKeyxFailRx
  | admitTimeout => exact Completes.execAdmitTimeout
  | admitBackoffExpiry => exact Completes.execAdmitBackoffExpiry
  | readmit => exact Completes.execReadmit
  | rekey => exact Completes.execRekey
  | remaskPass => exact Completes.execRemaskPass
  | entropyHealthFail => exact Completes.execEntropyHealthFail
  | entropyHealthPass => exact Completes.execEntropyHealthPass
  | tapPrivateInstruction => exact Completes.execTapPrivateInstruction
  | unlockChalCapture => exact Completes.execUnlockChalCapture
  | unlockRespWrite => exact Completes.execUnlockRespWrite
  | unlockBlockExpiry => exact Completes.execUnlockBlockExpiry
  | scrubRead => exact Completes.execScrubRead
  | bistComplete => exact Completes.execBistComplete
  | lockstepMismatch => exact Completes.execLockstepMismatch
  | watchdogExpiry => exact Completes.execWatchdogExpiry
  | bootTmoExpiry => exact Completes.execBootTmoExpiry
  | lockkeeperFailure => exact Completes.execLockkeeperFailure
  | lkRestartBegin => exact Completes.execLkRestartBegin
  | lkRestartBistDone => exact Completes.execLkRestartBistDone
  | lkFirmwareLoaded => exact Completes.execLkFirmwareLoaded
  | lkpReady => exact Completes.execLkpReady
  | lkpKick => exact Completes.execLkpKick
  | lkpRestart => exact Completes.execLkpRestart
  | seqVoteDisagree => exact Completes.execSeqVoteDisagree
  | alarmHoldExpiry => exact Completes.execAlarmHoldExpiry
  | alarmBargeRx => exact Completes.execAlarmBargeRx
  | domainDrop => exact Completes.execDomainDrop
  | pwrVoteSwWrite => exact Completes.execPwrVoteSwWrite
  | lkWait => exact Completes.execLkWait
  | lkUngate => exact Completes.execLkUngate
  | domainWakeAccess => exact Completes.execDomainWakeAccess
  | deepReqWrite => exact Completes.execDeepReqWrite
  | deepSleepEntry => exact Completes.execDeepSleepEntry
  | deepSleepWake => exact Completes.execDeepSleepWake
  | deepHoldExpiry => exact Completes.execDeepHoldExpiry
  | pwrOff => exact Completes.execPwrOff
  | pwrEnDrop => exact Completes.execPwrEnDrop
  | offWake => exact Completes.execOffWake
  | aonTimerExpiry => exact Completes.execAonTimerExpiry
  | imageLoad => exact Completes.execImageLoad
  | imageLoaded => exact Completes.execImageLoaded
  | recoveryImageWrite => exact Completes.execRecoveryImageWrite
  | mgmtRequestRx => exact Completes.execMgmtRequestRx
  | mgmtProxyResponseRx => exact Completes.execMgmtProxyResponseRx
  | mgmtProxyTimeout => exact Completes.execMgmtProxyTimeout
  | bridgeRegAccess => exact Completes.execBridgeRegAccess
  | i2c0Access => exact Completes.execI2c0Access
  | registerWrite => exact Completes.execRegisterWrite
  | cfgCommitGo => exact Completes.execCfgCommitGo
  | cfgClearOvl => exact Completes.execCfgClearOvl
  | commitDone => exact Completes.execCommitDone
  | flashRead => exact Completes.execFlashRead
  | flashProgram => exact Completes.execFlashProgram
  | flashErase4k => exact Completes.execFlashErase4k
  | flashErase64k => exact Completes.execFlashErase64k
  | flashDone => exact Completes.execFlashDone
  | counterPreset => exact Completes.execCounterPreset
  | cntClear => exact Completes.execCntClear
  | cntFreeze => exact Completes.execCntFreeze
  | counterWrap => exact Completes.execCounterWrap
  | faultStatusClear => exact Completes.execFaultStatusClear
  | climbDwellExpiry => exact Completes.execClimbDwellExpiry
  | quietRefreshBurst => exact Completes.execQuietRefreshBurst
  | linkNakOutExpiry => exact Completes.execLinkNakOutExpiry
  | tunnelNakOutExpiry => exact Completes.execTunnelNakOutExpiry
  | restoreNoticeRepeat => exact Completes.execRestoreNoticeRepeat
  | hostSofBreak => exact Completes.execHostSofBreak
  | pcieLinkUp => exact Completes.execPcieLinkUp
  | ethE0LinkChange => exact Completes.execEthE0LinkChange
  | ethPlcaStatusChange => exact Completes.execEthPlcaStatusChange
  | mdioFrameDone => exact Completes.execMdioFrameDone
  | canBusError => exact Completes.execCanBusError
  | pathLimiterChange => exact Completes.execPathLimiterChange
  | loadLimiterChange => exact Completes.execLoadLimiterChange
  | pathRetryCountReset => exact Completes.execPathRetryCountReset
  | hvLinkRestore => exact Completes.execHvLinkRestore
  | lcCmdDone => exact Completes.execLcCmdDone
  | watermarkDone => exact Completes.execWatermarkDone
  | timeMasterAbsent => exact Completes.execTimeMasterAbsent
  | deviceTransactionComplete => exact Completes.execDeviceTransactionComplete
  | laneJoinLocked => exact Completes.execLaneJoinLocked

/-- A step takes the front of the queue off and answers a next state, whose stores are canonical where they were. -/
theorem step_completes (s : State) :
    ∃ h : Hub, step s = .next { s with pending := s.pending.tail, hub := h } ∧ (s.hub.StoresWf → h.StoresWf) := by
  unfold step
  split
  next e =>
    obtain ⟨h, hstep, hwf⟩ := Completes.idle (s := s)
    exact ⟨h, by rw [hstep, e]; rfl, hwf⟩
  next i rest e =>
    obtain ⟨h, hstep, hwf⟩ := exec_completes i { s with pending := rest }
    exact ⟨h, by rw [hstep, e]; rfl, hwf⟩

end Sys2Proof.Machine

namespace Sys2Proof.Proofs

open Sys2Proof.Machine Sys2Proof.Safety

theorem canonical_iff_storesWf {s : State} : canonical s ↔ s.hub.StoresWf :=
  ⟨fun ⟨hcore, hhv, hstage⟩ => ⟨⟨hcore, hstage⟩, ⟨hhv⟩⟩, fun ⟨⟨hcore, hstage⟩, ⟨hhv⟩⟩ => ⟨hcore, hhv, hstage⟩⟩

/-- Settles O5: every command is a composition of operations that keep the stores canonical. -/
theorem storesStayCanonical : Obligations.StoresStayCanonical := by
  intro s t hs hstep
  obtain ⟨h, hnext, hwf⟩ := step_completes s
  obtain rfl := Host.Outcome.next.inj (hstep.symm.trans hnext)
  exact canonical_iff_storesWf.2 (hwf (canonical_iff_storesWf.1 hs))

/-- Settles O4: no command stops the block, none is refused, and none puts a command on the queue. -/
theorem everyStepGoesOn : Obligations.EveryStepGoesOn := by
  intro s
  obtain ⟨h, hnext, -⟩ := step_completes s
  refine ⟨⟨_, hnext⟩, fun t hstep => ?_⟩
  obtain rfl := Host.Outcome.next.inj (hstep.symm.trans hnext)
  rfl

/-- Settles O3: every part is the value of `State.reset`. -/
theorem resetLeavesEveryRegisterAtItsValue : Obligations.ResetLeavesEveryRegisterAtItsValue := by
  refine ⟨fun off => ⟨rfl, rfl⟩, rfl, rfl, rfl, ?ports, ?channels, rfl, rfl, ?lifeCycle, rfl, rfl, ?stage⟩
  case ports => decide +kernel
  case channels => decide +kernel
  case lifeCycle => decide +kernel
  case stage => decide +kernel

/-- An active POR with a second POR waiting, and a core register file that holds GLB_ID's offset twice: the first entry is GLB_ID's
reset word, the second is 0. -/
def doubledGlbId : State :=
  { State.reset with
    pending := [.por true]
    hub := { State.reset.hub with chip := { Chip.reset with regs := [(0, 0x71600B00#32), (0, 0#32)] } } }

theorem identified_doubledGlbId : identified doubledGlbId := rfl

/-- A POR takes the words to their reset values and drops the entries that stand there; of the doubled offset the second one is left. -/
theorem step_doubledGlbId : ∃ t, step doubledGlbId = .next t ∧ t.hub.chip.regs.word F.GLB_ID.off = 0#32 :=
  ⟨_, rfl, by decide +kernel⟩

/-- Refutes O8: `identified` asks only what GLB_ID reads, not that the register file is canonical, so the file may hold the offset twice;
the power loss of a POR drops the entry that stands at its reset word, and the other one, which never read, then reads. -/
theorem not_glbIdAlwaysReads : ¬ Obligations.GlbIdAlwaysReads := by
  rintro ⟨-, hkept, -⟩
  obtain ⟨t, hstep, hword⟩ := step_doubledGlbId
  have hid : identified t := hkept _ t identified_doubledGlbId hstep
  exact absurd (hid.symm.trans hword) (by decide)

end Sys2Proof.Proofs
end

section
/-! What the idle cycle and the datapath reset do beyond their statements: O2 and O55 fail. -/

namespace Sys2Proof.Proofs

open Sys2Proof.Machine Sys2Proof.Safety

/-- The core after start-up: no reset in progress, start-up BIST passed. -/
def startedRst : ResetState := { Chip.reset.rst with active := none, bist := false }

/-- A clocked hub that steers its fabric time by 1 ppb, one unit of phase before SUBNS counts a further nanosecond. -/
def steeredHub : State :=
  { State.reset with
    hub := { State.reset.hub with
      chip := { Chip.reset with rst := startedRst, fab := { Fab.reset with steer := 1, phase := 999_999_999 } } } }

/-- The idle cycle of the steered hub takes SUBNS 9 ns on, not 8. -/
theorem step_steeredHub : ∃ t, step steeredHub = .next t ∧ t.hub.chip.subns = 9 := ⟨_, rfl, by decide +kernel⟩

/-- Refutes O2: SUBNS advances at the steered rate with its phase carried on (04 R158, R160), so a cycle of 8 ns may add 9 to it. -/
theorem not_emptyQueueIdles : ¬ Obligations.EmptyQueueIdles := by
  intro hidle
  obtain ⟨t, hstep, -, -, -, hsubns, -⟩ := hidle steeredHub rfl
  obtain ⟨u, hnext, hnine⟩ := step_steeredHub
  obtain rfl := Host.Outcome.next.inj (hstep.symm.trans hnext)
  exact absurd ((hsubns rfl (by decide)).symm.trans hnine) (by decide)

/-- The Lockkeeper's firmware as a requester. -/
def firmware : Requester := { source := 0, hub := none, tag := 0, attested := false }

/-- A started field hub whose physical port U0 has tunnel 0, VALID and RELIABLE, on channel 0xF0 of P3 (07 R230). -/
def tunnelledFieldHub : State :=
  { State.reset with
    hub := { State.reset.hub with
      chip := (((({ Chip.reset with rst := startedRst } : Chip).put (F.FAB_TUN0_VALID 0) 1).put (F.FAB_TUN0_ADAPTER 0) 3).put
        (F.FAB_TUN0_CHANNEL 0) 0xF0).put (F.FAB_TUN1_MODE 0) 2 } }

theorem pathReady_tunnelledFieldHub : pathReady tunnelledFieldHub firmware := by decide +kernel

/-- The datapath reset disables U0, and the port event DISABLED with cause 4 waits at P3 in the switch core that was just cleared. -/
theorem dpReset_tunnelledFieldHub :
    ∃ t, exec (.dpReset firmware 0x9D61) tunnelledFieldHub = .next t ∧ t.hub.chip.swc.offers[3].map Offer.payload = [[4#8]] :=
  ⟨_, rfl, by decide +kernel⟩

/-- Refutes O55: a datapath reset acts at each physical port as DISABLE (07 R255), and on a field hub whose port has a tunnel that offers
a message at P3, so the switch core is not left as its reset leaves it. -/
theorem not_trunkWrites : ¬ Obligations.TrunkWrites := by
  rintro ⟨-, -, hdpReset, -⟩
  obtain ⟨t, hexec, -, hswc, -⟩ := hdpReset tunnelledFieldHub firmware pathReady_tunnelledFieldHub (by decide)
  obtain ⟨u, hnext, hoffer⟩ := dpReset_tunnelledFieldHub
  obtain rfl := Host.Outcome.next.inj (hexec.symm.trans hnext)
  rw [hswc] at hoffer
  exact absurd hoffer (by decide)

end Sys2Proof.Proofs
end

section
/-! The image load (16 R468 to R476), for the clauses of O17 about it: it waits in recovery, tries the banks, and shows what it found. -/

namespace Sys2Proof.Machine

theorem firmwareOk_put {c : Chip} {f : Field} {x : Nat} {i : ImageFile} (hf : f.off ≠ F.KEY_STATUS.off) :
    (c.put f x).firmwareOk i = c.firmwareOk i := by
  have hsvn : (c.put f x).get F.KEY_STATUS_MIN_SVN = c.get F.KEY_STATUS_MIN_SVN :=
    congrArg (wordField · 16 6) (word_put c.regs f x F.KEY_STATUS.off hf.symm)
  unfold Chip.firmwareOk Chip.imageOk
  rw [hsvn]
  rfl

/-- The banks are tried with STATE 1, and with FALLBACK where the first one's firmware is refused. -/
def Hub.loadBegun (v : FlashView) (h : Hub) : Hub :=
  (h.onChip fun c => c.put F.CFG_STATUS_STATE 1).when
    (match h.chip.bankOrder v with
      | b :: _ => !h.chip.firmwareOk b.2.1
      | [] => false)
    fun h => h.onChip fun c => c.put F.CFG_STATUS_FALLBACK 1

/-- Beginning a load changes CFG_STATUS alone. -/
theorem loadBegun_eq (v : FlashView) (h : Hub) :
    h.loadBegun v = h.onChip (fun c => c.put F.CFG_STATUS_STATE 1) ∨
      h.loadBegun v = h.onChip fun c => (c.put F.CFG_STATUS_STATE 1).put F.CFG_STATUS_FALLBACK 1 := by
  unfold Hub.loadBegun
  cases (match h.chip.bankOrder v with | b :: _ => !h.chip.firmwareOk b.2.1 | [] => false)
  · exact .inl rfl
  · exact .inr rfl

theorem firmwareOk_loadBegun (v : FlashView) (h : Hub) (i : ImageFile) : (h.loadBegun v).chip.firmwareOk i = h.chip.firmwareOk i := by
  rcases loadBegun_eq v h with e | e <;> rw [e]
  · exact firmwareOk_put (by decide)
  · exact (firmwareOk_put (by decide)).trans (firmwareOk_put (by decide))

theorem get_state_loadBegun (v : FlashView) (h : Hub) : (h.loadBegun v).chip.get F.CFG_STATUS_STATE = 1 := by
  rcases loadBegun_eq v h with e | e <;> rw [e]
  · exact chip_get_put _ _ _ rfl
  · exact (chip_get_put_apart _ _ _ _ rfl rfl).trans (chip_get_put _ _ _ rfl)

theorem imageLoad_loads {v : FlashView} {h : Hub} (hboot : h.chip.get F.GLB_STRAPS_BOOT ≠ 3) :
    Hub.imageLoad v h =
      match (h.chip.bankOrder v).find? fun b => h.chip.firmwareOk b.2.1 with
      | none => (h.loadBegun v).onChip (Chip.lkFails .signature)
      | some (n, fw, cfg) =>
        (((h.loadBegun v).onChip (Chip.firmwareStarts n fw)).loadConfig cfg).when
          (((h.loadBegun v).onChip (Chip.firmwareStarts n fw)).loadConfig cfg).chip.cfg.accepted (Hub.loadOverlay v.ovl0 v.ovl1) := by
  simp only [← firmwareOk_loadBegun v h]
  exact if_neg hboot

theorem bankOrder_firmware {c : Chip} {v : FlashView} {b : Nat × ImageFile × ImageFile} (hb : b ∈ c.bankOrder v) :
    b.2.1 = v.fwA ∨ b.2.1 = v.fwB := by
  unfold Chip.bankOrder at hb
  split at hb
  · split at hb <;> simp only [List.mem_cons, List.not_mem_nil, or_false] at hb <;> rcases hb with rfl | rfl <;> simp
  all_goals simp only [List.mem_cons, List.not_mem_nil, or_false] at hb
  · exact .inl (hb ▸ rfl)
  · exact .inr (hb ▸ rfl)

theorem lkFails_eq {c : Chip} {k : LkCause} (hrun : c.running = true) (hhold : c.get F.LKP_STATUS_STATE ≠ 3) (hnone : c.lkp.failing = none) :
    c.lkFails k = c.modLkp fun x => { x with failing := some k } := by
  have hcond : (c.running && c.get F.LKP_STATUS_STATE != 3 && c.lkp.failing.isNone) = true := by simp [hrun, hhold, hnone]
  unfold Chip.lkFails
  rw [hcond]
  rfl

/-- The records of an image end with its END: there is always one. -/
theorem recordsOf_ne_nil (fuel : Nat) (l : List Byte) : recordsOf fuel l ≠ some [] := by
  cases fuel with
  | zero => exact nofun
  | succ fuel =>
    unfold recordsOf
    dsimp only
    split
    · exact nofun
    · split
      · split <;> exact nofun
      · cases recordsOf fuel _ <;> exact nofun

theorem imgRecords_ne_nil (i : ImageFile) : imgRecords i ≠ some [] := by
  unfold imgRecords
  split
  · exact nofun
  next rs e =>
    split
    · exact nofun
    · exact fun h => recordsOf_ne_nil _ _ (e.trans h)

end Sys2Proof.Machine

namespace Sys2Proof.Proofs

open Sys2Proof.Machine Sys2Proof.Safety

theorem onHub_coreOnly {s t : State} {f : Hub → Hub} (h : s.onHub f = .next t) (hhv : (f s.hub).hv = s.hub.hv) : coreOnly s t := by
  obtain ⟨hpend, hv, -⟩ := onHub_next h
  exact ⟨hpend, by rw [hv, hhv]⟩

theorem onHub_goesOn (s : State) (f : Hub → Hub) : ∃ t, s.onHub f = .next t := ⟨_, rfl⟩

theorem onHub_get {s t : State} {f : Hub → Hub} {g : Field} (h : s.onHub f = .next t) (hg : g.apart F.CNT_OVF_PC = true) :
    t.hub.chip.get g = (f s.hub).chip.get g := by
  obtain ⟨-, -, hchip⟩ := onHub_next h
  rw [hchip, settled_get _ _ _ hg]

theorem clockRestored_liftsHold (s : State) : ∃ t, exec .clockRestored s = .next t ∧ coreOnly s t ∧
    t.hub.chip.rst = { s.hub.chip.rst with clockLost := false } ∧ wordsKept [] s t :=
  ⟨_, rfl, ⟨rfl, rfl⟩, settled_rst _ _, fun _ _ hpc => settled_word _ _ hpc⟩

theorem imageLoad_eq {s : State} {v : FlashView} (hload : s.hub.chip.mayLoad = true) :
    exec (.imageLoad v) s = s.onHub fun _ => Hub.imageLoad v s.hub := by
  have hwhen : s.hub.when s.hub.chip.mayLoad (Hub.imageLoad v) = Hub.imageLoad v s.hub := by rw [hload]; rfl
  show s.onHub (fun h => h.when h.chip.mayLoad (Hub.imageLoad v)) = _
  simp only [State.onHub, hwhen]

theorem imageLoad_recovery {s : State} {v : FlashView} (hload : s.hub.chip.mayLoad = true) (hboot : s.hub.chip.get F.GLB_STRAPS_BOOT = 3) :
    ∃ t, exec (.imageLoad v) s = .next t ∧ coreOnly s t ∧ t.hub.chip.get F.CFG_STATUS_STATE = 5 ∧ wordsKept [F.CFG_STATUS.off] s t := by
  have hwait : Hub.imageLoad v s.hub = s.hub.onChip fun c => c.put F.CFG_STATUS_STATE 5 := if_pos hboot
  rw [imageLoad_eq hload, hwait]
  refine ⟨_, rfl, ⟨rfl, rfl⟩, (settled_get _ _ _ rfl).trans (chip_get_put _ _ _ rfl), fun o ho hpc => ?_⟩
  exact (settled_word _ _ hpc).trans (word_put _ _ _ _ fun e => ho (e ▸ List.mem_singleton_self _))

theorem imageLoad_noFirmware {s : State} {v : FlashView} (hload : s.hub.chip.mayLoad = true) (hboot : s.hub.chip.get F.GLB_STRAPS_BOOT ≠ 3)
    (hA : s.hub.chip.firmwareOk v.fwA = false) (hB : s.hub.chip.firmwareOk v.fwB = false) :
    ∃ t, exec (.imageLoad v) s = .next t ∧ coreOnly s t ∧
      t.hub.chip.lkp = { s.hub.chip.lkp with failing := some .signature } ∧ t.hub.chip.get F.CFG_STATUS_STATE = 1 := by
  have hnone : ((s.hub.chip.bankOrder v).find? fun b => s.hub.chip.firmwareOk b.2.1) = none := by
    refine List.find?_eq_none.2 fun b hb => ?_
    rcases bankOrder_firmware hb with e | e <;> simp [e, hA, hB]
  have hfails : ((s.hub.loadBegun v).chip.lkFails .signature) =
      (s.hub.loadBegun v).chip.modLkp fun x => { x with failing := some .signature } := by
    simp only [Chip.mayLoad, Chip.started, Bool.and_eq_true, bne_iff_ne, Option.isNone_iff_eq_none] at hload
    obtain ⟨⟨⟨⟨⟨hrun, -⟩, -⟩, -⟩, hhold⟩, hfailing⟩ := hload
    rcases loadBegun_eq v s.hub with e | e <;> rw [e]
    · exact lkFails_eq hrun (by rwa [hub_onChip_chip, chip_get_put_apart _ _ _ _ rfl rfl]) hfailing
    · exact lkFails_eq hrun (by rwa [hub_onChip_chip, chip_get_put_apart _ _ _ _ rfl rfl, chip_get_put_apart _ _ _ _ rfl rfl]) hfailing
  rw [imageLoad_eq hload, imageLoad_loads hboot, hnone]
  refine ⟨_, rfl, ⟨rfl, ?_⟩, (settled_lkp _ _).trans ?_, (settled_get _ _ _ rfl).trans ?_⟩
  · rcases loadBegun_eq v s.hub with e | e <;> simp only [e] <;> rfl
  · rw [hub_onChip_chip, hfails]
    rcases loadBegun_eq v s.hub with e | e <;> rw [e] <;> rfl
  · rw [hub_onChip_chip, hfails]
    exact get_state_loadBegun v s.hub

end Sys2Proof.Proofs

namespace Sys2Proof.Machine

theorem imageLoad_bankA {v : FlashView} {h : Hub} (hboot : h.chip.get F.GLB_STRAPS_BOOT = 1) (hok : h.chip.firmwareOk v.fwA = true) :
    Hub.imageLoad v h =
      (((h.loadBegun v).onChip (Chip.firmwareStarts 0 v.fwA)).loadConfig v.cfgA).when
        (((h.loadBegun v).onChip (Chip.firmwareStarts 0 v.fwA)).loadConfig v.cfgA).chip.cfg.accepted (Hub.loadOverlay v.ovl0 v.ovl1) := by
  have hbanks : h.chip.bankOrder v = [(0, v.fwA, v.cfgA)] := by unfold Chip.bankOrder; rw [hboot]; rfl
  rw [imageLoad_loads (by rw [hboot]; decide), hbanks, List.find?_cons_of_pos (by exact hok)]

/-- What the registers show where no configuration image is there. -/
def Chip.configAbsent (c : Chip) : Chip :=
  ((c.put F.CFG_STATUS_CFG_RESULT 1).put F.CFG_STATUS_STATE 2).flag F.CFG_INT_STATUS_NO_CONFIG

theorem get_configAbsent (c : Chip) :
    c.configAbsent.get F.CFG_STATUS_STATE = 2 ∧ c.configAbsent.get F.CFG_STATUS_CFG_RESULT = 1 ∧
      c.configAbsent.get F.CFG_INT_STATUS_NO_CONFIG = 1 ∧ c.configAbsent.get F.CFG_STATUS_FW_BANK = c.get F.CFG_STATUS_FW_BANK ∧
      c.configAbsent.get F.CFG_FW_SEQ = c.get F.CFG_FW_SEQ := by
  have hflag (f : Field) (hf : f.apart F.CFG_INT_STATUS_NO_CONFIG = true) :
      c.configAbsent.get f = ((c.put F.CFG_STATUS_CFG_RESULT 1).put F.CFG_STATUS_STATE 2).get f := chip_get_flag_apart _ _ _ rfl hf
  refine ⟨?_, ?_, chip_get_flag _ _ rfl, ?_, ?_⟩
  all_goals rw [hflag _ rfl]
  · exact chip_get_put _ _ _ rfl
  · exact (chip_get_put_apart _ _ _ _ rfl rfl).trans (chip_get_put _ _ _ rfl)
  · exact (chip_get_put_apart _ _ _ _ rfl rfl).trans (chip_get_put_apart _ _ _ _ rfl rfl)
  · exact (chip_get_put_apart _ _ _ _ rfl rfl).trans (chip_get_put_apart _ _ _ _ rfl rfl)

theorem loadConfig_absent {i : ImageFile} {h : Hub} (habsent : imgPresent i false = false) :
    h.loadConfig i = h.onChip Chip.configAbsent := by
  have hresult : h.chip.configResult i = 1 := by unfold Chip.configResult; rw [habsent]; rfl
  unfold Hub.loadConfig
  rw [hresult]
  rfl

theorem get_firmwareStarts_bank (n : Nat) (i : ImageFile) (c : Chip) : (c.firmwareStarts n i).get F.CFG_STATUS_FW_BANK = n % 4 :=
  (chip_get_put_apart _ _ _ _ rfl rfl).trans (chip_get_put _ _ _ rfl)

theorem get_firmwareStarts_seq (n : Nat) (i : ImageFile) (c : Chip) : (c.firmwareStarts n i).get F.CFG_FW_SEQ = imgSeq i % 2 ^ 32 :=
  chip_get_put _ _ _ rfl

/-- Nothing of the core die changes but its registers. -/
def RegsOnly (c d : Chip) : Prop := ∃ r, d = { c with regs := r }

section
variable {c d : Chip}

theorem RegsOnly.refl : RegsOnly c c := ⟨_, rfl⟩

theorem RegsOnly.put {f : Field} {x : Nat} (h : RegsOnly c d) : RegsOnly c (d.put f x) := by
  obtain ⟨r, rfl⟩ := h
  exact ⟨_, rfl⟩

theorem RegsOnly.when {b : Bool} {f : Chip → Chip} (h : RegsOnly c d) (hf : ∀ {d}, RegsOnly c d → RegsOnly c (f d)) :
    RegsOnly c (d.when b f) := by
  cases b
  exacts [h, hf h]

theorem RegsOnly.show256 {f : Nat → Field} {k : Key256} (h : RegsOnly c d) : RegsOnly c (d.show256 f k) :=
  chip_each_keeps (RegsOnly c) _ _ _ h fun _ _ hd => hd.put

theorem RegsOnly.cfg (h : RegsOnly c d) : d.cfg = c.cfg := by
  obtain ⟨r, rfl⟩ := h
  rfl

theorem RegsOnly.firmwareStarts {n : Nat} {i : ImageFile} (h : RegsOnly c d) : RegsOnly c (d.firmwareStarts n i) := h.show256.put.put.put

end

theorem loadBegun_hv (v : FlashView) (h : Hub) : (h.loadBegun v).hv = h.hv := by
  rcases loadBegun_eq v h with e | e <;> rw [e] <;> rfl

theorem regsOnly_loadBegun (v : FlashView) (h : Hub) : RegsOnly h.chip (h.loadBegun v).chip := by
  rcases loadBegun_eq v h with e | e <;> rw [e]
  · exact RegsOnly.refl.put
  · exact RegsOnly.refl.put.put

end Sys2Proof.Machine

namespace Sys2Proof.Proofs

open Sys2Proof.Machine Sys2Proof.Safety

theorem imageLoad_unconfigured {h : Hub} {v : FlashView} (hboot : h.chip.get F.GLB_STRAPS_BOOT = 1)
    (hok : h.chip.firmwareOk v.fwA = true) (habsent : imgPresent v.cfgA false = false) (hnone : h.chip.cfg.accepted = false) :
    Hub.imageLoad v h = ((h.loadBegun v).onChip (Chip.firmwareStarts 0 v.fwA)).onChip Chip.configAbsent := by
  have hcfg : (h.loadBegun v).chip.cfg.accepted = false := by rw [(regsOnly_loadBegun v h).cfg, hnone]
  rw [imageLoad_bankA hboot hok, loadConfig_absent habsent]
  generalize h.loadBegun v = g at hcfg ⊢
  rw [hub_onChip_chip, Chip.configAbsent, chip_flag_cfg, chip_put_cfg, chip_put_cfg, hub_onChip_chip,
    RegsOnly.refl.firmwareStarts.cfg, hcfg, hub_when_false]

theorem imageLoad_absentConfig {s : State} {v : FlashView} (hload : s.hub.chip.mayLoad = true) (hboot : s.hub.chip.get F.GLB_STRAPS_BOOT = 1)
    (habsent : imgPresent v.cfgA false = false) (hnone : s.hub.chip.cfg.accepted = false) :
    ∃ t, exec (.imageLoad v) s = .next t ∧ t.pending = s.pending ∧
      (s.hub.chip.firmwareOk v.fwA = true → coreOnly s t ∧ t.hub.chip.get F.CFG_STATUS_STATE = 2 ∧
        t.hub.chip.get F.CFG_STATUS_CFG_RESULT = 1 ∧ t.hub.chip.get F.CFG_STATUS_FW_BANK = 0 ∧
        t.hub.chip.get F.CFG_FW_SEQ = imgSeq v.fwA % 2 ^ 32 ∧ t.hub.chip.get F.CFG_INT_STATUS_NO_CONFIG = 1) := by
  rw [imageLoad_eq hload]
  by_cases hok : s.hub.chip.firmwareOk v.fwA = true
  case neg => exact ⟨_, rfl, rfl, fun h => absurd h hok⟩
  have hhv := loadBegun_hv v s.hub
  rw [imageLoad_unconfigured hboot hok habsent hnone]
  generalize s.hub.loadBegun v = g at hhv ⊢
  obtain ⟨hstate, hresult, hflag, hbank, hseq⟩ := get_configAbsent (g.chip.firmwareStarts 0 v.fwA)
  obtain ⟨t, ht⟩ := onHub_goesOn s fun _ => (g.onChip (Chip.firmwareStarts 0 v.fwA)).onChip Chip.configAbsent
  have hhub : ((g.onChip (Chip.firmwareStarts 0 v.fwA)).onChip Chip.configAbsent).hv = s.hub.hv :=
    (hub_onChip_hv _ _).trans ((hub_onChip_hv _ _).trans hhv)
  refine ⟨t, ht, (onHub_next ht).1, fun _ => ⟨onHub_coreOnly ht hhub, ?_⟩⟩
  rw [onHub_get ht rfl, onHub_get ht rfl, onHub_get ht rfl, onHub_get ht rfl, onHub_get ht rfl]
  exact ⟨hstate, hresult, hbank.trans (get_firmwareStarts_bank _ _ _), hseq.trans (get_firmwareStarts_seq _ _ _), hflag⟩

/-- With every record list there is an END, so an accepted image has at least one record: the hypothesis of this clause of O17 meets no
image. -/
theorem imgRecords_length_ne_zero (i : ImageFile) : (imgRecords i).map List.length ≠ some 0 := by
  intro h
  obtain ⟨l, hl, hlen⟩ := Option.map_eq_some_iff.1 h
  exact imgRecords_ne_nil i (List.eq_nil_of_length_eq_zero hlen ▸ hl)

end Sys2Proof.Proofs
end

section
/-! The end of the image load (16 R473), for the last clause of O17. -/

namespace Sys2Proof.Machine

/-! The end of the load (16 R473). -/

/-- Nothing changes but the key store, the counters and the draw of free values. -/
def KeyStoreOnly (c d : Chip) : Prop := ∃ k n t, d = { c with key := k, freeCount := n, cnt := t }

section
variable {c d : Chip}

theorem KeyStoreOnly.refl : KeyStoreOnly c c := ⟨_, _, _, rfl⟩

theorem KeyStoreOnly.keyCount {n : Nat} (h : KeyStoreOnly c d) : KeyStoreOnly c (d.keyCount n) := by
  obtain ⟨k, m, t, rfl⟩ := h
  exact ⟨_, _, _, rfl⟩

theorem KeyStoreOnly.setKey {k : Key} (h : KeyStoreOnly c d) : KeyStoreOnly c { d with key := k } := by
  obtain ⟨j, m, t, rfl⟩ := h
  exact ⟨_, _, _, rfl⟩

theorem KeyStoreOnly.setSlot {n : Nat} {x : Slot} (h : KeyStoreOnly c d) : KeyStoreOnly c (d.setSlot n x) := h.setKey

theorem KeyStoreOnly.drawMask (h : KeyStoreOnly c d) : KeyStoreOnly c d.drawMask.2 := by
  obtain ⟨k, m, t, rfl⟩ := h
  fun_cases Chip.drawMask <;> exact ⟨_, _, _, rfl⟩

theorem KeyStoreOnly.commitKey {pair engines origin version : Nat} {k : Key256} {bind : Bool} (h : KeyStoreOnly c d) :
    KeyStoreOnly c (d.commitKey pair k engines origin bind version) := by
  have hmask : KeyStoreOnly c (d.keyCount 89).drawMask.2 := h.keyCount.drawMask
  unfold Chip.commitKey
  dsimp only
  split
  · exact hmask.setSlot.setSlot
  · exact hmask.setSlot.setSlot

end

/-- What follows the first step of IMAGE_LOADED keeps: the configuration's state, STATE and ID_VALID. -/
structure LoadKept (c d : Chip) : Prop where
  cfg : d.cfg = c.cfg
  state : d.get F.CFG_STATUS_STATE = c.get F.CFG_STATUS_STATE
  idValid : d.get F.FAB_ID_ID_VALID = c.get F.FAB_ID_ID_VALID

section
variable {c d : Chip}

theorem LoadKept.refl : LoadKept c c := ⟨rfl, rfl, rfl⟩

theorem LoadKept.put {f : Field} {x : Nat} (h : LoadKept c d) (hok : f.ok = true) (hs : F.CFG_STATUS_STATE.apart f = true)
    (hi : F.FAB_ID_ID_VALID.apart f = true) : LoadKept c (d.put f x) :=
  ⟨h.cfg, (chip_get_put_apart _ _ _ _ hok hs).trans h.state, (chip_get_put_apart _ _ _ _ hok hi).trans h.idValid⟩

theorem LoadKept.showUsb (h : LoadKept c d) : LoadKept c d.showUsb := (h.put rfl rfl rfl).put rfl rfl rfl

theorem LoadKept.vbusOn {x : Fin 2} (h : LoadKept c d) : LoadKept c (d.vbusOn x) := by
  have hput : LoadKept c (d.put (F.USB_U_STATUS_VBUS_ON x) 1) := by
    match x with
    | 0 => exact h.put rfl rfl rfl
    | 1 => exact h.put rfl rfl rfl
  exact ⟨hput.cfg, hput.state, hput.idValid⟩

theorem LoadKept.when {b : Bool} {f : Chip → Chip} (h : LoadKept c d) (hf : LoadKept c (f d)) : LoadKept c (d.when b f) := by
  cases b
  exacts [h, hf]

end

/-- The first step of IMAGE_LOADED: MKB, STATE 4 and the load's end. -/
def Chip.loadEnd (c : Chip) : Chip := { c.deriveMkb.put F.CFG_STATUS_STATE 4 with cfg := { c.cfg with loaded := true } }

/-- The step of IMAGE_LOADED with an accepted configuration. -/
def Chip.loadAccepted (c : Chip) : Chip := ((c.put F.FAB_ID_ID_VALID 1).flag F.CFG_INT_STATUS_LOAD_DONE).journalEvent 1 (c.get F.CFG_CFG_SEQ)

/-- A journal entry touches the journal and the draw of free values alone. -/
theorem journalEvent_eq (event seq : Nat) (c : Chip) : ∃ j n, c.journalEvent event seq = { c with jrn := j, freeCount := n } := ⟨_, _, rfl⟩

theorem get_journalEvent (event seq : Nat) (c : Chip) (f : Field) : (c.journalEvent event seq).get f = c.get f := by
  obtain ⟨j, n, e⟩ := journalEvent_eq event seq c
  rw [e]
  rfl

theorem cfg_journalEvent (event seq : Nat) (c : Chip) : (c.journalEvent event seq).cfg = c.cfg := by
  obtain ⟨j, n, e⟩ := journalEvent_eq event seq c
  rw [e]

theorem get_loadAccepted (c : Chip) : c.loadAccepted.get F.FAB_ID_ID_VALID = 1 ∧ c.loadAccepted.cfg = c.cfg ∧
    c.loadAccepted.get F.CFG_STATUS_STATE = c.get F.CFG_STATUS_STATE := by
  unfold Chip.loadAccepted
  rw [get_journalEvent, get_journalEvent, cfg_journalEvent]
  exact ⟨(chip_get_flag_apart _ _ _ rfl rfl).trans (chip_get_put _ _ _ rfl), (chip_flag_cfg _ _).trans (chip_put_cfg _ _ _),
    (chip_get_flag_apart _ _ _ rfl rfl).trans (chip_get_put_apart _ _ _ _ rfl rfl)⟩

/-- Arming the channels at boot leaves the core die alone. -/
theorem armAtBoot_chip (h : Hub) : (h.live fun h => h.each chans fun y h => h.onHv (Hv.armAtBoot y)).chip = h.chip := by
  unfold Hub.live
  cases !h.hv.lockout
  · rfl
  · exact hub_each_keeps (fun g => g.chip = h.chip) _ _ _ rfl fun _ _ hg => hg

/-- VBUS at boot where the port's configuration asks for it. -/
def Chip.vbusAtBoot (c : Chip) : Chip :=
  c.showUsb.each [(0 : Fin 2), 1] fun x c =>
    c.when (c.downstream x && c.on (F.USB_U_CTL_VBUS_AT_BOOT x) && c.on (F.USB_U_CTL_PORT_EN x)) (Chip.vbusOn x)

theorem loadKept_vbusAtBoot (c : Chip) : LoadKept c c.vbusAtBoot :=
  chip_each_keeps (LoadKept c) _ _ _ LoadKept.refl.showUsb fun _ _ hd => hd.when hd.vbusOn

/-- What IMAGE_LOADED leaves of the core die. -/
theorem imageLoaded_chip (h : Hub) :
    h.imageLoaded.chip = if h.chip.cfg.accepted then h.chip.loadEnd.loadAccepted.vbusAtBoot else h.chip.loadEnd := by
  have hwhen : h.imageLoaded = (h.onChip Chip.loadEnd).when h.chip.cfg.accepted fun g =>
      ((g.onChip Chip.loadAccepted).live fun g => g.each chans fun y g => g.onHv (Hv.armAtBoot y)).onChip Chip.vbusAtBoot := rfl
  rw [hwhen]
  cases h.chip.cfg.accepted
  · rfl
  · rw [hub_when_true, hub_onChip_chip, armAtBoot_chip]
    rfl

end Sys2Proof.Machine

namespace Sys2Proof.Proofs

open Sys2Proof.Machine Sys2Proof.Safety

theorem imageLoaded_endsLoad {s : State} (hends : s.hub.chip.loadEnds = true) :
    ∃ t, exec .imageLoaded s = .next t ∧ t.pending = s.pending ∧ t.hub.chip.cfg = { s.hub.chip.cfg with loaded := true } ∧
      t.hub.chip.get F.CFG_STATUS_STATE = 4 ∧ (s.hub.chip.cfg.accepted = true → t.hub.chip.get F.FAB_ID_ID_VALID = 1) := by
  have hload : (s.hub.when s.hub.chip.loadEnds Hub.imageLoaded) = s.hub.imageLoaded := by rw [hends, hub_when_true]
  obtain ⟨t, ht⟩ := onHub_goesOn s fun h => h.when h.chip.loadEnds Hub.imageLoaded
  refine ⟨t, ht, (onHub_next ht).1, ?_⟩
  have hcfg : t.hub.chip.cfg = s.hub.imageLoaded.chip.cfg := by rw [(onHub_next ht).2.2, settled_cfg, hload]
  have hget (f : Field) (hf : f.apart F.CNT_OVF_PC = true) : t.hub.chip.get f = s.hub.imageLoaded.chip.get f := by
    rw [onHub_get ht hf, hload]
  have hstate : s.hub.chip.loadEnd.get F.CFG_STATUS_STATE = 4 := chip_get_put s.hub.chip.deriveMkb _ _ rfl
  have hend : s.hub.chip.loadEnd.cfg = { s.hub.chip.cfg with loaded := true } := rfl
  rw [hcfg, hget _ rfl, hget _ rfl, imageLoaded_chip]
  cases hacc : s.hub.chip.cfg.accepted
  case true =>
    obtain ⟨hid, hcfg', hstate'⟩ := get_loadAccepted s.hub.chip.loadEnd
    have hkept := loadKept_vbusAtBoot s.hub.chip.loadEnd.loadAccepted
    rw [if_pos rfl, hkept.cfg, hkept.state, hkept.idValid, hid, hcfg', hstate', hend]
    exact ⟨rfl, hstate, fun _ => rfl⟩
  case false =>
    rw [if_neg Bool.false_ne_true, hend]
    exact ⟨rfl, hstate, nofun⟩

end Sys2Proof.Proofs
end

section
/-! The end of the internal reset (01 R21), for the clause of O17 about it: nothing that follows the sampling touches the straps. -/

namespace Sys2Proof.Machine

/-! The end of the internal reset (01 R21). -/

/-- What follows the sampling keeps: the straps and the state of the resets. -/
structure StrapsKept (c d : Chip) : Prop where
  word : d.regs.word F.GLB_STRAPS.off = c.regs.word F.GLB_STRAPS.off
  rst : d.rst = c.rst

/-- The straps' word stands below the field. -/
abbrev aboveStraps (f : Field) : Prop := F.GLB_STRAPS.off < f.off

theorem aboveStraps_add {base k lo width : Nat} (h : F.GLB_STRAPS.off < base) : aboveStraps ⟨base + k, lo, width⟩ := Nat.lt_add_right k h

section
variable {b c d : Chip}

theorem StrapsKept.refl : StrapsKept c c := ⟨rfl, rfl⟩

theorem StrapsKept.get {f : Field} (h : StrapsKept c d) (hf : f.off = F.GLB_STRAPS.off) : d.get f = c.get f := by
  show wordField (d.regs.word f.off) f.lo f.width = wordField (c.regs.word f.off) f.lo f.width
  rw [hf, h.word]

theorem StrapsKept.frame (h : StrapsKept b c) (hd : (d.regs, d.rst) = (c.regs, c.rst)) : StrapsKept b d := by
  obtain ⟨hregs, hrst⟩ := Prod.mk.inj hd
  exact ⟨hregs ▸ h.word, hrst ▸ h.rst⟩

theorem StrapsKept.of_eq {α : Type} {p : α × Chip} {a : α} (hp : StrapsKept b p.2) (e : p = (a, d)) : StrapsKept b d := by
  subst e
  exact hp

theorem StrapsKept.when {x : Bool} {f : Chip → Chip} (h : StrapsKept b c) (hf : ∀ {c}, StrapsKept b c → StrapsKept b (f c)) :
    StrapsKept b (c.when x f) := by
  cases x
  exacts [h, hf h]

theorem StrapsKept.ite {p : Prop} [Decidable p] (h : StrapsKept b c) (hd : StrapsKept b d) : StrapsKept b (if p then c else d) := by
  split
  exacts [h, hd]

theorem StrapsKept.each {α : Type} {l : List α} {f : α → Chip → Chip} (h : StrapsKept b c)
    (hf : ∀ {a c}, StrapsKept b c → StrapsKept b (f a c)) : StrapsKept b (c.each l f) :=
  chip_each_keeps (StrapsKept b) l f c h fun _ _ hd => hf hd

theorem StrapsKept.put {f : Field} {x : Nat} (h : StrapsKept b c) (hf : aboveStraps f) : StrapsKept b (c.put f x) :=
  ⟨(word_put _ _ _ _ (Nat.ne_of_lt hf)).trans h.word, h.rst⟩

theorem StrapsKept.putBit {f : Field} {n : Nat} {x : Bool} (h : StrapsKept b c) (hf : aboveStraps f) : StrapsKept b (c.putBit f n x) :=
  h.put hf

theorem StrapsKept.flag {f : Field} (h : StrapsKept b c) (hf : aboveStraps f) : StrapsKept b (c.flag f) := (h.put hf).frame rfl

theorem StrapsKept.inc {f : Field} (h : StrapsKept b c) (hf : aboveStraps f) : StrapsKept b (c.inc f) := h.put hf

theorem StrapsKept.keyStore (h : StrapsKept b c) (hd : KeyStoreOnly c d) : StrapsKept b d := by
  obtain ⟨k, n, t, rfl⟩ := hd
  exact h.frame rfl

theorem StrapsKept.keyCount {n : Nat} (h : StrapsKept b c) : StrapsKept b (c.keyCount n) := h.frame rfl

theorem StrapsKept.clearSlot {n : Nat} (h : StrapsKept b c) : StrapsKept b (c.clearSlot n) := h.frame rfl

theorem StrapsKept.alarmCount (h : StrapsKept b c) : StrapsKept b c.alarmCount := by
  have hshown : ∀ {x y}, StrapsKept b ((c.put F.ALM_STATUS_PENDING x).put F.ALM_STATUS_HOLDS y) := (h.put (by decide)).put (by decide)
  fun_cases Chip.alarmCount
  · exact hshown.put (by decide)
  · exact hshown

theorem StrapsKept.alarmWrite {i : Nat} {e : AlarmEntry} (h : StrapsKept b c) : StrapsKept b (c.alarmWrite i e) := (h.frame (by rfl)).alarmCount

theorem StrapsKept.alarmLog {e : AlarmEntry} (h : StrapsKept b c) : StrapsKept b (c.alarmLog e).2 := by
  fun_cases Chip.alarmLog
  · exact h.alarmWrite
  · exact (h.alarmWrite.inc (by decide)).flag (by decide)
  · exact (h.inc (by decide)).flag (by decide)

theorem StrapsKept.raise {r : AlarmReq} (h : StrapsKept b c) : StrapsKept b (c.raise r) := by
  have hraised : ∀ {x y}, StrapsKept b ((((c.inc F.ALM_RAISED).flag F.ALM_INT_STATUS_RAISED).when x
      fun c => c.put F.GLB_FAULT_STATUS_CRIT_ALARM 1).when y fun c => c.inc F.ALM_SUPPRESSED) :=
    (((h.inc (by decide)).flag (by decide)).when fun h => h.put (by decide)).when fun h => h.inc (by decide)
  fun_cases Chip.raise
  · exact hraised.frame (by rfl)
  · next e => exact (((hraised.frame (by rfl)).alarmLog.of_eq e).frame (by rfl)).alarmCount
  · next e => exact (hraised.frame (by rfl)).alarmLog.of_eq e
  · next e => exact (hraised.frame (by rfl)).alarmLog.of_eq e

theorem StrapsKept.show256 {f : Nat → Field} {k : Key256} (h : StrapsKept b c) (hf : ∀ n, aboveStraps (f n)) : StrapsKept b (c.show256 f k) :=
  h.each fun h => h.put (hf _)

theorem StrapsKept.setProtection {spur x : Bool} {i : Nat} (h : StrapsKept b c) : StrapsKept b (c.setProtection spur i x) := by
  have hplace : aboveStraps (if spur then F.FAB_EXIT_LOST (i / 32) else F.FAB_BROKEN (i / 32)) := by
    cases spur
    · exact aboveStraps_add (by decide)
    · exact aboveStraps_add (by decide)
  exact h.ite ((h.putBit hplace).flag (by decide))

theorem StrapsKept.routabilityLost {p : Port} (h : StrapsKept b c) : StrapsKept b (c.routabilityLost p) := by
  have hlost : ∀ {f}, StrapsKept b (((c.putBit F.FAB_STATUS_ROUTABLE p.val false).flag F.FAB_INT_STATUS_PROTECT).modFab f) :=
    ((h.putBit (by decide)).flag (by decide)).frame rfl
  fun_cases Chip.routabilityLost
  · exact hlost.setProtection
  · exact hlost

theorem StrapsKept.portUnrouted {p : Port} (h : StrapsKept b c) : StrapsKept b (c.portUnrouted p) :=
  .ite (h.putBit (by decide)).routabilityLost (h.putBit (by decide))

theorem StrapsKept.modLnk {p : Port} {f : Lnk → Lnk} (h : StrapsKept b c) : StrapsKept b (c.modLnk p f) := h.frame rfl

theorem StrapsKept.clearPortKeys {p : Port} (h : StrapsKept b c) : StrapsKept b (c.clearPortKeys p) := by
  have hslots : StrapsKept b (c.each (List.range 6) fun k c => c.clearSlot (8 + 6 * p.val + k)) := h.each fun h => h.clearSlot
  unfold Chip.clearPortKeys
  refine .modLnk (.put (.put (.put (.put (.put hslots ?_) ?_) ?_) ?_) ?_)
  all_goals exact aboveStraps_add (by decide)

theorem StrapsKept.admissionEnds {p : Port} (h : StrapsKept b c) : StrapsKept b (c.admissionEnds p) :=
  .ite h ((h.put (aboveStraps_add (by decide))).frame rfl)

theorem StrapsKept.clearSecrets (h : StrapsKept b c) : StrapsKept b c.clearSecrets := by
  have hports : StrapsKept b ((c.each (List.range 32) fun n c => c.clearSlot n).each ports
      fun p c => ((c.clearPortKeys p).admissionEnds p).portUnrouted p) :=
    (h.each fun h => h.clearSlot).each fun h => h.clearPortKeys.admissionEnds.portUnrouted
  unfold Chip.clearSecrets
  refine .keyCount (.flag (.put (.put (.put (.put (.frame hports (by rfl)) ?_) ?_) ?_) ?_) ?_)
  all_goals decide

theorem StrapsKept.privateInstruction (h : StrapsKept b c) : StrapsKept b c.privateInstruction := by
  fun_cases Chip.privateInstruction
  · exact h.put (by decide)
  · exact h.when fun h => h.clearSecrets
  · exact h.clearSecrets

theorem StrapsKept.blankFlr (h : StrapsKept b c) : StrapsKept b c.blankFlr := by
  fun_cases Chip.blankFlr
  · exact h
  · exact h.when fun h => h.keyCount.keyStore KeyStoreOnly.refl.commitKey

end

end Sys2Proof.Machine

namespace Sys2Proof.Machine

/-- The internal reset is over and BIST begins. -/
def Chip.resetOver (c : Chip) : Chip :=
  { c with rst := { c.rst with active := none, clockLost := false, breakPort := none, bist := true } }

/-- The straps as sampled. -/
def Chip.strapsShown (he b0 b1 tm : Bool) (c : Chip) : Chip :=
  ((c.put F.GLB_STRAPS_ROLE_HE he.toNat).put F.GLB_STRAPS_BOOT (b1.toNat * 2 + b0.toNat)).put F.GLB_STRAPS_TESTMODE tm.toNat

theorem get_strapsShown (he b0 b1 tm : Bool) (c : Chip) :
    (c.strapsShown he b0 b1 tm).get F.GLB_STRAPS_ROLE_HE = he.toNat ∧
      (c.strapsShown he b0 b1 tm).get F.GLB_STRAPS_BOOT = b1.toNat * 2 + b0.toNat := by
  constructor
  · refine (chip_get_put_apart _ _ _ _ rfl rfl).trans ((chip_get_put_apart _ _ _ _ rfl rfl).trans ((chip_get_put _ _ _ rfl).trans ?_))
    cases he <;> rfl
  · refine (chip_get_put_apart _ _ _ _ rfl rfl).trans ((chip_get_put _ _ _ rfl).trans ?_)
    cases b0 <;> cases b1 <;> rfl

theorem strapsKept_sampleStraps (he b0 b1 tm : Bool) (c : Chip) : StrapsKept (c.strapsShown he b0 b1 tm) (c.sampleStraps he b0 b1 tm) :=
  StrapsKept.refl.when fun h => .ite h.keyCount h.privateInstruction

/-- After the straps the end of the internal reset leaves them and the state of the resets. -/
theorem strapsKept_resetEnd (he b0 b1 tm : Bool) (c : Chip) :
    StrapsKept (c.resetOver.when (!(c.rst.active == some .warm)) (Chip.sampleStraps he b0 b1 tm)) (c.resetEnd he b0 b1 tm) := by
  have hrom (n : Nat) : aboveStraps (F.KEY_MEAS_ROM n) := aboveStraps_add (by decide)
  unfold Chip.resetEnd Chip.showRole
  refine .when (.blankFlr (.put (.put (.put (.show256 .refl hrom) ?_) ?_) ?_)) fun h => (h.flag (by decide)).raise
  all_goals decide

end Sys2Proof.Machine

namespace Sys2Proof.Proofs

open Sys2Proof.Machine Sys2Proof.Safety

theorem onChip_goesOn (s : State) (f : Chip → Chip) : ∃ t, s.onChip f = .next t := ⟨_, rfl⟩

theorem onChip_rst {s t : State} {f : Chip → Chip} (h : s.onChip f = .next t) : t.hub.chip.rst = (f s.hub.chip).rst := by
  obtain rfl := Host.Outcome.next.inj h
  exact settled_rst _ _

theorem onChip_coreOnly {s t : State} {f : Chip → Chip} (h : s.onChip f = .next t) : coreOnly s t := by
  obtain rfl := Host.Outcome.next.inj h
  exact ⟨rfl, rfl⟩

theorem onChip_get {s t : State} {f : Chip → Chip} {g : Field} (h : s.onChip f = .next t) (hg : g.apart F.CNT_OVF_PC = true) :
    t.hub.chip.get g = (f s.hub.chip).get g := by
  obtain rfl := Host.Outcome.next.inj h
  exact settled_get _ _ _ hg

theorem internalResetEnd_beginsBist {s : State} {k : ResetKind} {he b0 b1 tm : Bool} (hactive : s.hub.chip.rst.active = some k)
    (hclock : s.hub.chip.rst.clockLost = false) (hbreak : s.hub.chip.rst.breakPort = none) (hoff : s.hub.chip.pst.off = false) :
    ∃ t, exec (.internalResetEnd he b0 b1 tm) s = .next t ∧ coreOnly s t ∧ t.hub.chip.rst.active = none ∧
      t.hub.chip.rst.bist = true ∧
      (k ≠ .warm → t.hub.chip.get F.GLB_STRAPS_ROLE_HE = he.toNat ∧ t.hub.chip.get F.GLB_STRAPS_BOOT = b1.toNat * 2 + b0.toNat) := by
  obtain ⟨t, ht⟩ := onChip_goesOn s fun c =>
    c.when (c.rst.active.isSome && !c.rst.clockLost && c.rst.breakPort.isNone && !c.pst.off) (Chip.resetEnd he b0 b1 tm)
  have hcond : (s.hub.chip.rst.active.isSome && !s.hub.chip.rst.clockLost && s.hub.chip.rst.breakPort.isNone && !s.hub.chip.pst.off) = true := by
    simp [hactive, hclock, hbreak, hoff]
  have hends : s.hub.chip.when (s.hub.chip.rst.active.isSome && !s.hub.chip.rst.clockLost && s.hub.chip.rst.breakPort.isNone &&
      !s.hub.chip.pst.off) (Chip.resetEnd he b0 b1 tm) = s.hub.chip.resetEnd he b0 b1 tm := by rw [hcond]; rfl
  have hkept := strapsKept_resetEnd he b0 b1 tm s.hub.chip
  refine ⟨t, ht, onChip_coreOnly ht, ?_⟩
  rw [onChip_rst ht, onChip_get ht rfl, onChip_get ht rfl, hends, hkept.get (f := F.GLB_STRAPS_ROLE_HE) rfl,
    hkept.get (f := F.GLB_STRAPS_BOOT) rfl, hkept.rst, hactive]
  by_cases hwarm : k = .warm
  case pos =>
    subst hwarm
    exact ⟨rfl, rfl, fun h => absurd rfl h⟩
  case neg =>
    have hsampled : (!(some k == some ResetKind.warm)) = true := by simp [hwarm]
    have hstraps := strapsKept_sampleStraps he b0 b1 tm s.hub.chip.resetOver
    rw [hsampled, chip_when_true, hstraps.rst, hstraps.get (f := F.GLB_STRAPS_ROLE_HE) rfl, hstraps.get (f := F.GLB_STRAPS_BOOT) rfl]
    exact ⟨rfl, rfl, fun _ => get_strapsShown he b0 b1 tm s.hub.chip.resetOver⟩

end Sys2Proof.Proofs
end

section
/-! What a core-wide reset does at the HV die's standing commands, at the pins and in the core (01 R19 to R21, 17 R500), for the first
clauses of O17. -/

namespace Sys2Proof.Machine

open Sys2Proof.Safety

/-! The standing commands. -/

/-- The standing commands leave the core die but its copies of path state and BUD_CTL. -/
def StandingKept (c d : Chip) : Prop := ∃ r p, d = { c with regs := r, pwr := p } ∧ ∀ x, x ≠ F.BUD_CTL.off → r.word x = c.regs.word x

section
variable {b c : Chip}

theorem StandingKept.refl : StandingKept c c := ⟨_, _, rfl, fun _ _ => rfl⟩

theorem StandingKept.setPwr {p : Pwr} (h : StandingKept b c) : StandingKept b { c with pwr := p } := by
  obtain ⟨r, q, rfl, hr⟩ := h
  exact ⟨r, p, rfl, hr⟩

theorem StandingKept.putFloor {x : Nat} (h : StandingKept b c) : StandingKept b (c.put F.BUD_CTL_FLOOR x) := by
  obtain ⟨r, q, rfl, hr⟩ := h
  exact ⟨_, q, rfl, fun y hy => (word_put r F.BUD_CTL_FLOOR x y hy).trans (hr y hy)⟩

theorem hub_when_keeps (P : Hub → Prop) (x : Bool) (f : Hub → Hub) {h : Hub} (h0 : P h) (hf : P (f h)) : P (h.when x f) := by
  cases x
  exacts [h0, hf]

theorem StandingKept.floorHint {h : Hub} (hh : StandingKept b h.chip) : StandingKept b h.floorHint.chip := by
  unfold Hub.floorHint
  exact hh.putFloor

theorem StandingKept.paths {f : Hub → Hub} {h : Hub} (hf : StandingKept b (f h).chip) : StandingKept b (h.paths f).chip :=
  hub_when_keeps (fun g => StandingKept b g.chip) _ _ hf hf.floorHint

theorem StandingKept.guardFail {p : Port} {h : Hub} (hh : StandingKept b h.chip) : StandingKept b (h.guardFail p).chip := by
  unfold Hub.guardFail
  refine hub_when_keeps (fun g => StandingKept b g.chip) _ _ hh (StandingKept.paths ?_)
  rw [hub_onChip_chip, hub_onHv_chip]
  exact hh.setPwr

theorem StandingKept.each {α : Type} {l : List α} {f : α → Hub → Hub} {h : Hub} (hh : StandingKept b h.chip)
    (hf : ∀ a g, StandingKept b g.chip → StandingKept b (f a g).chip) : StandingKept b (h.each l f).chip :=
  hub_each_keeps (fun g => StandingKept b g.chip) l f h hh hf

theorem StandingKept.live {f : Hub → Hub} {h : Hub} (hh : StandingKept b h.chip) (hf : StandingKept b (f h).chip) :
    StandingKept b (h.live f).chip :=
  hub_when_keeps (fun g => StandingKept b g.chip) _ f hh hf

theorem StandingKept.onHv {f : Hv → Hv} {h : Hub} (hh : StandingKept b h.chip) : StandingKept b (h.onHv f).chip := hh

/-- The standing commands of the HV die at the channels and the ports. -/
def Hub.standingOff (h : Hub) : Hub := (h.each chans fun y h => h.onHv (Hv.chanReset y)).each ports fun p h => h.guardFail p

theorem standingKept_standingOff {h : Hub} (hh : StandingKept b h.chip) : StandingKept b h.standingOff.chip :=
  .each (.each hh fun _ _ hg => hg.onHv) fun _ _ hg => hg.guardFail

theorem standingCommands_eq (h : Hub) : h.standingCommands = (h.live Hub.standingOff).onHv Hv.clearCounters := by
  unfold Hub.standingCommands
  rfl

theorem standingKept_standingCommands (h : Hub) : StandingKept h.chip h.standingCommands.chip := by
  rw [standingCommands_eq]
  exact .onHv (.live .refl (standingKept_standingOff .refl))

end

theorem StandingKept.get {c d : Chip} {f : Field} (h : StandingKept c d) (hf : f.off ≠ F.BUD_CTL.off) : d.get f = c.get f := by
  obtain ⟨r, p, rfl, hr⟩ := h
  exact congrArg (wordField · f.lo f.width) (hr f.off hf)

/-! The pins (17 R500). -/

/-- Words below the field pins' stay, and what leaves the hub are further releases of pins. -/
structure PinsKept (c d : Chip) : Prop where
  word : ∀ x, x < 0xD0400 → d.regs.word x = c.regs.word x
  outs : ∃ l, d.outbox = c.outbox ++ l ∧ l.all pinRelease = true

section
variable {b c d : Chip}

theorem PinsKept.refl : PinsKept c c := ⟨fun _ _ => rfl, [], (List.append_nil _).symm, rfl⟩

theorem PinsKept.trans (h : PinsKept b c) (hd : PinsKept c d) : PinsKept b d := by
  obtain ⟨l, hl, hall⟩ := h.outs
  obtain ⟨m, hm, hall'⟩ := hd.outs
  refine ⟨fun x hx => (hd.word x hx).trans (h.word x hx), l ++ m, by rw [hm, hl, List.append_assoc], ?_⟩
  rw [List.all_append, hall, hall', Bool.and_self]

theorem PinsKept.emit {o : Out} (ho : pinRelease o = true) : PinsKept c (c.emit o) :=
  ⟨fun _ _ => rfl, [o], rfl, by simp [ho]⟩

theorem PinsKept.when {x : Bool} {f : Chip → Chip} (hf : PinsKept c (f c)) : PinsKept c (c.when x f) := by
  cases x
  exacts [.refl, hf]

theorem PinsKept.get {f : Field} (h : PinsKept c d) (hf : f.off < 0xD0400) : d.get f = c.get f :=
  congrArg (wordField · f.lo f.width) (h.word f.off hf)

theorem PinsKept.mem {o : Out} (h : PinsKept c d) (ho : o ∈ c.outbox) : o ∈ d.outbox := by
  obtain ⟨l, hl, -⟩ := h.outs
  rw [hl]
  exact List.mem_append_left _ ho

end

/-- A field pin becomes an input. -/
def Chip.fioRelease (p : Nat) (c : Chip) : Chip := c.fioChange p fun c => c.put (F.FLD_FIO_CFG_MODE p) 0

theorem fioLevel_input (p : Nat) (c : Chip) : (c.put (F.FLD_FIO_CFG_MODE p) 0).fioLevel p = none := by
  have hmode : (c.put (F.FLD_FIO_CFG_MODE p) 0).get (F.FLD_FIO_CFG_MODE p) = 0 := chip_get_put _ _ _ rfl
  unfold Chip.fioLevel
  rw [hmode]
  rfl

/-- The level depends on the pin's own words alone. -/
theorem fioLevel_congr {c d : Chip} {p : Nat} (hcfg : d.regs.word (0xD0400 + 0x10 * p) = c.regs.word (0xD0400 + 0x10 * p))
    (hstatus : d.regs.word (0xD0404 + 0x10 * p) = c.regs.word (0xD0404 + 0x10 * p)) : d.fioLevel p = c.fioLevel p := by
  have hmode : d.get (F.FLD_FIO_CFG_MODE p) = c.get (F.FLD_FIO_CFG_MODE p) := congrArg (wordField · 0 2) hcfg
  have hinvert : d.get (F.FLD_FIO_CFG_INVERT p) = c.get (F.FLD_FIO_CFG_INVERT p) := congrArg (wordField · 2 1) hcfg
  have hout : d.get (F.FLD_FIO_STATUS_OUT p) = c.get (F.FLD_FIO_STATUS_OUT p) := congrArg (wordField · 4 1) hstatus
  unfold Chip.fioLevel Chip.on
  rw [hmode, hinvert, hout]

theorem fioRelease_eq (p : Nat) (c : Chip) :
    c.fioRelease p = (c.put (F.FLD_FIO_CFG_MODE p) 0).when (none != c.fioLevel p) fun d => d.emit (.fioPin p none) := by
  unfold Chip.fioRelease Chip.fioChange
  dsimp only
  rw [fioLevel_input]
  cases none != c.fioLevel p
  · rfl
  · rw [chip_when_true, chip_when_true, fioLevel_input]

theorem pinsKept_fioRelease (p : Nat) (c : Chip) : PinsKept c (c.fioRelease p) := by
  have hput : PinsKept c (c.put (F.FLD_FIO_CFG_MODE p) 0) :=
    ⟨fun x hx => word_put _ _ _ _ (Nat.ne_of_lt (Nat.lt_of_lt_of_le hx (Nat.le_add_right _ _))), [], (List.append_nil _).symm, rfl⟩
  rw [fioRelease_eq]
  exact hput.trans (.when (.emit rfl))

theorem word_fioRelease {p x : Nat} {c : Chip} (hx : x ≠ 0xD0400 + 0x10 * p) : (c.fioRelease p).regs.word x = c.regs.word x := by
  rw [fioRelease_eq]
  cases none != c.fioLevel p <;> exact word_put _ _ _ _ hx

theorem fioLevel_fioRelease {p q : Nat} (c : Chip) (hpq : p ≠ q) : (c.fioRelease q).fioLevel p = c.fioLevel p :=
  fioLevel_congr (word_fioRelease (by omega)) (word_fioRelease (by omega))

theorem mem_fioRelease {p : Nat} {c : Chip} (hp : c.fioLevel p ≠ none) : Out.fioPin p none ∈ (c.fioRelease p).outbox := by
  have hdriven : (none != c.fioLevel p) = true := bne_iff_ne.2 hp.symm
  rw [fioRelease_eq, hdriven]
  exact List.mem_append_right _ (List.mem_singleton_self _)

theorem pinsKept_each {α : Type} (l : List α) {f : α → Chip → Chip} (hf : ∀ a c, PinsKept c (f a c)) (c : Chip) : PinsKept c (c.each l f) :=
  chip_each_keeps (PinsKept c) l f c .refl fun a d hd => hd.trans (hf a d)

/-- Every pin of a list that is driven is released. -/
theorem mem_each_fioRelease {p : Nat} (l : List Nat) (hmem : p ∈ l) (c : Chip) (hp : c.fioLevel p ≠ none) :
    Out.fioPin p none ∈ (c.each l Chip.fioRelease).outbox := by
  induction l generalizing c with
  | nil => exact absurd hmem List.not_mem_nil
  | cons q l ih =>
    by_cases hpq : p = q
    · subst hpq
      exact (pinsKept_each l pinsKept_fioRelease _).mem (mem_fioRelease hp)
    · exact ih ((List.mem_cons.1 hmem).resolve_left hpq) _ (by rwa [fioLevel_fioRelease c hpq])

/-- A port's VBUS goes off where it is on. -/
def Chip.vbusRelease (x : Fin 2) (c : Chip) : Chip := c.when (c.on (F.USB_U_STATUS_VBUS_ON x)) (Chip.usbAct x (.vbus false))

theorem pinsKept_vbusRelease (x : Fin 2) (c : Chip) : PinsKept c (c.vbusRelease x) := .when (.emit rfl)

theorem on_vbusRelease (x y : Fin 2) (c : Chip) : (c.vbusRelease y).on (F.USB_U_STATUS_VBUS_ON x) = c.on (F.USB_U_STATUS_VBUS_ON x) := by
  unfold Chip.vbusRelease
  cases c.on (F.USB_U_STATUS_VBUS_ON y) <;> rfl

theorem mem_vbusRelease {x : Fin 2} {c : Chip} (hx : c.on (F.USB_U_STATUS_VBUS_ON x) = true) :
    Out.usbPort x.val (.vbus false) ∈ (c.vbusRelease x).outbox := by
  unfold Chip.vbusRelease
  rw [hx]
  exact List.mem_append_right _ (List.mem_singleton_self _)

theorem mem_each_vbusRelease {x : Fin 2} (l : List (Fin 2)) (hmem : x ∈ l) (c : Chip) (hx : c.on (F.USB_U_STATUS_VBUS_ON x) = true) :
    Out.usbPort x.val (.vbus false) ∈ (c.each l Chip.vbusRelease).outbox := by
  induction l generalizing c with
  | nil => exact absurd hmem List.not_mem_nil
  | cons y l ih =>
    by_cases hxy : x = y
    · subst hxy
      exact (pinsKept_each l pinsKept_vbusRelease _).mem (mem_vbusRelease hx)
    · exact ih ((List.mem_cons.1 hmem).resolve_left hxy) _ (by rwa [on_vbusRelease])

/-- U0 of a head-end presents nothing. -/
def Chip.u0Release (c : Chip) : Chip := c.when (c.usb.pullUp || c.usb.ssTerm) (Chip.usbAct 0 (.present false false))

/-- A field hub drives PE_PERST_N low. -/
def Chip.perstRelease (c : Chip) : Chip := c.when (!c.headEnd && !c.perstLow) (Chip.pcieAct (.perst true))

theorem pinsKept_u0Release (c : Chip) : PinsKept c c.u0Release := .when (.emit rfl)

theorem pinsKept_perstRelease (c : Chip) : PinsKept c c.perstRelease := .when (.emit rfl)

theorem pinsReset_eq (c : Chip) :
    c.pinsReset = ((c.each (List.range 16) Chip.fioRelease).each [0, 1] Chip.vbusRelease).u0Release.perstRelease := rfl

/-- What a reset does at the pins: releases alone, one for each pin that is driven, VBUS that is on, and PE_PERST_N of a field hub. -/
structure PinsReleased (c d : Chip) : Prop extends PinsKept c d where
  fio : ∀ p < 16, c.fioLevel p ≠ none → Out.fioPin p none ∈ d.outbox
  vbus : ∀ x : Fin 2, c.on (F.USB_U_STATUS_VBUS_ON x) = true → Out.usbPort x.val (.vbus false) ∈ d.outbox
  perst : c.headEnd = false → c.perstLow = false → Out.pcie (.perst true) ∈ d.outbox

theorem pinsReleased_pinsReset (c : Chip) : PinsReleased c c.pinsReset := by
  have hfio := pinsKept_each (List.range 16) pinsKept_fioRelease c
  have hvbus := pinsKept_each [0, 1] pinsKept_vbusRelease (c.each (List.range 16) Chip.fioRelease)
  have hu0 := pinsKept_u0Release ((c.each (List.range 16) Chip.fioRelease).each [0, 1] Chip.vbusRelease)
  have hperst := pinsKept_perstRelease ((c.each (List.range 16) Chip.fioRelease).each [0, 1] Chip.vbusRelease).u0Release
  rw [pinsReset_eq]
  refine ⟨((hfio.trans hvbus).trans hu0).trans hperst, fun p hp hlevel => ?_, fun x hx => ?_, fun hhead hlow => ?_⟩
  · exact ((hvbus.trans hu0).trans hperst).mem (mem_each_fioRelease _ (List.mem_range.2 hp) c hlevel)
  · refine (hu0.trans hperst).mem (mem_each_vbusRelease _ (by fin_cases x <;> decide) _ ?_)
    have hget : (c.each (List.range 16) Chip.fioRelease).get (F.USB_U_STATUS_VBUS_ON x) = c.get (F.USB_U_STATUS_VBUS_ON x) :=
      hfio.get (by show 0x90028 + 4 * x.val < 0xD0400; omega)
    rwa [Chip.on, hget]
  · have hkept := (hfio.trans hvbus).trans hu0
    generalize ((c.each (List.range 16) Chip.fioRelease).each [0, 1] Chip.vbusRelease).u0Release = d at hkept
    have hhead' : d.headEnd = false := by rw [← hhead, Chip.headEnd, Chip.headEnd, Chip.on, Chip.on, hkept.get (by decide)]
    have hlow' : d.perstLow = false := by
      rw [← hlow, Chip.perstLow, Chip.perstLow, hhead, hhead', Chip.on, Chip.on, hkept.get (by decide)]
    unfold Chip.perstRelease
    rw [hhead', hlow']
    exact List.mem_append_right _ (List.mem_singleton_self _)

end Sys2Proof.Machine

namespace Sys2Proof.Machine

open Sys2Proof.Safety

/-! What a core-wide reset leaves (01 R19 to R21, 00 R6). -/

section
variable {c d : Chip}

theorem RegsOnly.readFuses (h : RegsOnly c d) : RegsOnly c d.readFuses := h.put.put.put.put

theorem RegsOnly.keyRegs {k : ResetKind} {old : Chip} (h : RegsOnly c d) : RegsOnly c (Chip.keyRegs k old d) := by
  have hfuses : RegsOnly c (if k = .warm then
      (((d.put F.KEY_STATUS_LC (old.get F.KEY_STATUS_LC)).put F.KEY_STATUS_LC_FUSED (lifeCycle d.key.fuses.pattern)).put
        F.KEY_STATUS_MIN_SVN d.key.fuses.svn).put F.KEY_STATUS_FUSE_ERR (old.get F.KEY_STATUS_FUSE_ERR)
    else d.readFuses) := by
    split
    exacts [h.put.put.put.put, h.readFuses]
  unfold Chip.keyRegs
  dsimp only
  split
  · exact (hfuses.when fun h => h.put.put).show256
  · exact hfuses.when fun h => h.put.put

theorem RegsOnly.holdStays {k : ResetKind} {old : Chip} (h : RegsOnly c d) : RegsOnly c (Chip.holdStays k old d) := h.when fun h => h.put.put

end

/-- What a core-wide reset of a kind clears, from the core die as its pins leave it. -/
structure Cleared (k : ResetKind) (c d : Chip) : Prop where
  active : d.rst.active = some k
  trk : d.trk = Vector.replicate 3 Trk.reset
  swc : d.swc = Swc.reset
  slots : d.key.slots = Vector.replicate 32 Slot.empty
  jrn : k ≠ .warm → d.jrn = []
  outbox : d.outbox = c.fusesPart.pinsReset.outbox

section
variable {k : ResetKind} {c d e : Chip}

theorem Cleared.regsOnly (h : Cleared k c d) (hd : RegsOnly d e) : Cleared k c e := by
  obtain ⟨r, rfl⟩ := hd
  exact ⟨h.active, h.trk, h.swc, h.slots, h.jrn, h.outbox⟩

theorem Cleared.put {f : Field} {x : Nat} (h : Cleared k c d) : Cleared k c (d.put f x) := h.regsOnly RegsOnly.refl.put

end

theorem cleared_afterReset (k : ResetKind) (ramp : Bool) (c : Chip) : Cleared k c (c.afterReset k ramp) := by
  unfold Chip.afterReset
  refine Cleared.regsOnly ?_ (.holdStays (.keyRegs .refl))
  refine ⟨rfl, rfl, rfl, rfl, fun hk => ?_, rfl⟩
  have hwarm : (k == ResetKind.warm) = false := beq_eq_false_iff_ne.2 hk
  dsimp only
  rw [hwarm]
  rfl

theorem keyStoreOnly_fusesPart (c : Chip) : KeyStoreOnly c c.fusesPart := by
  unfold Chip.fusesPart
  split <;> exact ⟨_, _, _, rfl⟩

/-- The words of the pins stand, and nothing has left the hub. -/
structure PinsSame (c d : Chip) : Prop where
  word : ∀ x, x ≠ F.BUD_CTL.off → d.regs.word x = c.regs.word x
  outbox : d.outbox = c.outbox

theorem StandingKept.pinsSame {c d : Chip} (h : StandingKept c d) : PinsSame c d.fusesPart := by
  obtain ⟨r, p, rfl, hr⟩ := h
  obtain ⟨k, n, t, e⟩ := keyStoreOnly_fusesPart { c with regs := r, pwr := p }
  rw [e]
  exact ⟨hr, rfl⟩

theorem PinsSame.get {c d : Chip} {f : Field} (h : PinsSame c d) (hf : f.off ≠ F.BUD_CTL.off) : d.get f = c.get f :=
  congrArg (wordField · f.lo f.width) (h.word f.off hf)

theorem PinsSame.fioLevel {c d : Chip} (h : PinsSame c d) (p : Nat) : d.fioLevel p = c.fioLevel p := by
  have hoff : F.BUD_CTL.off = 0x80000 := rfl
  exact fioLevel_congr (h.word _ (by omega)) (h.word _ (by omega))

theorem PinsSame.released {b c d : Chip} (h : PinsSame b c) (hd : PinsReleased c d) :
    (∃ l, d.outbox = b.outbox ++ l ∧ l.all pinRelease = true) ∧
      (∀ p < 16, b.fioLevel p ≠ none → Out.fioPin p none ∈ d.outbox) ∧
      (∀ x : Fin 2, b.on (F.USB_U_STATUS_VBUS_ON x) = true → Out.usbPort x.val (.vbus false) ∈ d.outbox) ∧
      (b.headEnd = false → b.perstLow = false → Out.pcie (.perst true) ∈ d.outbox) := by
  have hhead : c.headEnd = b.headEnd := by rw [Chip.headEnd, Chip.headEnd, Chip.on, Chip.on, h.get (by decide)]
  have hlow : c.perstLow = b.perstLow := by rw [Chip.perstLow, Chip.perstLow, hhead, Chip.on, Chip.on, h.get (by decide)]
  refine ⟨h.outbox ▸ hd.outs, fun p hp hlevel => ?_, fun x hx => ?_, fun hb hl => ?_⟩
  · exact hd.fio p hp (by rwa [h.fioLevel])
  · refine hd.vbus x ?_
    have hplace : (F.USB_U_STATUS_VBUS_ON x).off ≠ F.BUD_CTL.off := Nat.ne_of_gt (Nat.lt_add_right _ (by decide))
    rwa [Chip.on, h.get hplace]
  · exact hd.perst (hhead.trans hb) (hlow.trans hl)

/-- The reset and its cause. -/
def Chip.resetShown (k : ResetKind) (cause : Nat) (ramp : Bool) (c : Chip) : Chip :=
  ((c.afterReset k ramp).put F.GLB_RESET_CAUSE cause).put F.GLB_RESET_WARM_WDT 0

theorem coreReset_chip {h : Hub} {k : ResetKind} {cause : Nat} {ramp : Bool} (hadmits : h.chip.rst.admits k = true) :
    (h.coreReset k cause false ramp).chip = h.standingCommands.chip.resetShown k cause ramp := by
  unfold Hub.coreReset
  rw [hadmits]
  rfl

theorem cleared_resetShown (k : ResetKind) (cause : Nat) (ramp : Bool) (c : Chip) : Cleared k c (c.resetShown k cause ramp) :=
  (cleared_afterReset k ramp c).put.put

theorem get_resetShown_cause (k : ResetKind) (cause : Nat) (ramp : Bool) (c : Chip) :
    (c.resetShown k cause ramp).get F.GLB_RESET_CAUSE = cause % 8 :=
  (chip_get_put_apart _ _ _ _ rfl rfl).trans (chip_get_put _ _ _ rfl)

theorem admits_cold {r : ResetState} (h : r.active = none ∨ r.active = some .warm) : r.admits .cold = true := by
  unfold ResetState.admits
  rcases h with h | h
  · rw [h]
  · rw [h]
    rfl

theorem admits_por {r : ResetState} (h : r.active ≠ some .por) : r.admits .por = true := by
  unfold ResetState.admits
  split
  · rfl
  next k hk =>
    cases k
    case por => exact absurd hk h
    all_goals rfl

end Sys2Proof.Machine
end

section
/-! Why O17 is open. A POR that cuts an SVN_ADVANCE short leaves each fuse blown or intact, a free value (13 R397, log 2), and MIN_SVN
shows what is left; the first clause of O17 asks for the fuses as they were, so it speaks of values that `Config` leaves open. -/

namespace Sys2Proof.Machine

/-! A ramp of VAON. -/

/-- A word that reads its reset value is not listed. -/
def RegFile.Unlisted (off : Nat) (r : RegFile) : Prop := r.word off = resetWord off → ∀ x ∈ r, x.1 ≠ off

theorem mem_insert_off {off : Nat} {v : Word} {r : RegFile} {x : Nat × Word} (h : x ∈ RegFile.insert off v r) : x.1 = off ∨ x ∈ r := by
  induction r with
  | nil => exact .inl (by rw [List.mem_singleton.1 h])
  | cons a r ih =>
    obtain ⟨k, u⟩ := a
    simp only [RegFile.insert] at h
    split at h
    · rcases List.mem_cons.1 h with rfl | h
      exacts [.inl rfl, .inr h]
    · split at h
      · rcases List.mem_cons.1 h with rfl | h
        exacts [.inl rfl, .inr (List.mem_cons_of_mem _ h)]
      · rcases List.mem_cons.1 h with rfl | h
        · exact .inr List.mem_cons_self
        · exact (ih h).imp_right (List.mem_cons_of_mem _)

theorem RegFile.Unlisted.setWord {off x : Nat} {v : Word} {r : RegFile} (h : x ≠ off → r.Unlisted off) : (r.setWord x v).Unlisted off := by
  intro hword y hy hyoff
  rw [word_setWord] at hword
  unfold RegFile.setWord at hy
  by_cases hx : off = x
  · rw [if_pos hx] at hword
    rw [if_pos (hword.trans (congrArg resetWord hx))] at hy
    exact of_decide_eq_true (List.mem_filter.1 hy).2 (hyoff.trans hx)
  · rw [if_neg hx] at hword
    refine h (Ne.symm hx) hword y ?_ hyoff
    split at hy
    · exact (List.mem_filter.1 hy).1
    · exact (mem_insert_off hy).resolve_left fun e => hx (hyoff.symm.trans e)

/-- The VAON fields of a register. -/
def vaonMask (off : Nat) : Word :=
  match regAt off with
  | some e => BitVec.ofNat 32 e.vaon
  | none => 0#32

/-- One entry of a register file after the ramp. -/
def rampedEntry (x : Nat × Word) : Option (Nat × Word) :=
  let w := (x.2 &&& ~~~vaonMask x.1) ||| (resetWord x.1 &&& vaonMask x.1)
  if w = resetWord x.1 then none else some (x.1, w)

theorem afterRamp_eq (r : RegFile) : r.afterRamp = r.filterMap rampedEntry := rfl

theorem rampedEntry_off {x y : Nat × Word} (h : rampedEntry x = some y) : y.1 = x.1 := by
  unfold rampedEntry at h
  dsimp only at h
  split at h
  · exact absurd h nofun
  · exact (Option.some.inj h) ▸ rfl

theorem rampedEntry_kept {x : Nat × Word} (hvaon : vaonMask x.1 = 0#32) (hx : x.2 ≠ resetWord x.1) : rampedEntry x = some x := by
  have hword : (x.2 &&& ~~~0#32) ||| (resetWord x.1 &&& 0#32) = x.2 := by
    rw [BitVec.and_zero, BitVec.or_zero, BitVec.not_zero, BitVec.and_allOnes]
  unfold rampedEntry
  rw [hvaon, hword]
  exact if_neg hx

/-- A word with no VAON field outlasts the ramp. -/
theorem word_afterRamp {off : Nat} {r : RegFile} (hvaon : vaonMask off = 0#32) (h : r.Unlisted off) : r.afterRamp.word off = r.word off := by
  rw [afterRamp_eq]
  induction r with
  | nil => rfl
  | cons a r ih =>
    by_cases ha : a.1 = off
    · have hu : a.2 ≠ resetWord a.1 := fun e => h (by simp [RegFile.word, ha, e]) a List.mem_cons_self ha
      rw [List.filterMap_cons, rampedEntry_kept (ha ▸ hvaon) hu]
      simp [RegFile.word, ha]
    · have hskip (b : Nat × Word) (hb : b.1 ≠ off) (q : RegFile) : RegFile.word (b :: q) off = RegFile.word q off := if_neg hb
      have hrest : RegFile.Unlisted off r := fun hw x hx => h (by rwa [hskip a ha]) x (List.mem_cons_of_mem _ hx)
      rw [List.filterMap_cons, hskip a ha, ← ih hrest]
      cases he : rampedEntry a with
      | none => rfl
      | some b => exact hskip b (rampedEntry_off he ▸ ha) _

end Sys2Proof.Machine

namespace Sys2Proof.Machine

theorem pinsReset_key (c : Chip) : c.pinsReset.key = c.key := by
  have key_when (d : Chip) (b : Bool) (f : Chip → Chip) (hf : (f d).key = d.key) : (d.when b f).key = d.key := by
    cases b
    exacts [rfl, hf]
  unfold Chip.pinsReset
  refine (key_when _ _ _ rfl).trans ((key_when _ _ _ rfl).trans ?_)
  refine chip_each_keeps (fun d => d.key = c.key) _ _ _ ?_ fun x d hd => (key_when _ _ _ rfl).trans hd
  exact chip_each_keeps (fun d => d.key = c.key) _ _ _ rfl fun p d hd => (key_when _ _ _ rfl).trans hd

theorem get_readFuses_minSvn (c : Chip) : c.readFuses.get F.KEY_STATUS_MIN_SVN = c.key.fuses.svn % 2 ^ 6 :=
  (chip_get_put_apart _ _ _ _ rfl rfl).trans (chip_get_put _ _ _ rfl)

theorem vaonMask_keyStatus : vaonMask F.KEY_STATUS.off = 0#32 := by decide +kernel

/-- KEY_STATUS is not listed at its reset value. -/
def KeyStatusUnlisted (c : Chip) : Prop := c.regs.Unlisted F.KEY_STATUS.off

theorem KeyStatusUnlisted.put {c : Chip} {f : Field} {x : Nat} (h : KeyStatusUnlisted c) : KeyStatusUnlisted (c.put f x) :=
  RegFile.Unlisted.setWord fun _ => h

theorem keyStatusUnlisted_put (c : Chip) {f : Field} {x : Nat} (hf : f.off = F.KEY_STATUS.off) : KeyStatusUnlisted (c.put f x) :=
  RegFile.Unlisted.setWord fun h => absurd hf h

theorem keyStatusUnlisted_keyRegs (k : ResetKind) (old c : Chip) : KeyStatusUnlisted (Chip.keyRegs k old c) := by
  have hfuses : KeyStatusUnlisted (if k = .warm then
      (((c.put F.KEY_STATUS_LC (old.get F.KEY_STATUS_LC)).put F.KEY_STATUS_LC_FUSED (lifeCycle c.key.fuses.pattern)).put
        F.KEY_STATUS_MIN_SVN c.key.fuses.svn).put F.KEY_STATUS_FUSE_ERR (old.get F.KEY_STATUS_FUSE_ERR)
    else c.readFuses) := by
    split
    · exact keyStatusUnlisted_put _ rfl
    · exact keyStatusUnlisted_put _ rfl
  unfold Chip.keyRegs
  generalize (if k = .warm then
      (((c.put F.KEY_STATUS_LC (old.get F.KEY_STATUS_LC)).put F.KEY_STATUS_LC_FUSED (lifeCycle c.key.fuses.pattern)).put
        F.KEY_STATUS_MIN_SVN c.key.fuses.svn).put F.KEY_STATUS_FUSE_ERR (old.get F.KEY_STATUS_FUSE_ERR)
    else c.readFuses) = d at hfuses ⊢
  have hopen : KeyStatusUnlisted (d.when (k != .por) fun c =>
      (c.put F.KEY_STATUS_TAINT (old.get F.KEY_STATUS_TAINT)).put F.KEY_STATUS_TAP_OPEN (old.get F.KEY_STATUS_TAP_OPEN)) := by
    cases k != .por
    exacts [hfuses, hfuses.put.put]
  dsimp only
  split
  · exact chip_each_keeps KeyStatusUnlisted _ _ _ hopen fun _ _ hd => hd.put
  · exact hopen

theorem get_show256_keyStatus {f : Nat → Field} {g : Field} {k : Key256} {c : Chip} (hf : ∀ n, (f n).off ≠ g.off) :
    (c.show256 f k).get g = c.get g := by
  refine chip_each_keeps (fun d => d.get g = c.get g) _ _ _ rfl fun n d hd => ?_
  exact (congrArg (wordField · g.lo g.width) (word_put _ _ _ _ (hf n).symm)).trans hd

theorem get_keyRegs_por (old c : Chip) : (Chip.keyRegs .por old c).get F.KEY_STATUS_MIN_SVN = c.key.fuses.svn % 2 ^ 6 := by
  have hpor : (ResetKind.por != ResetKind.por) = false := rfl
  simp only [Chip.keyRegs, reduceCtorEq, if_false, hpor, chip_when_false]
  split
  · refine (get_show256_keyStatus fun n => ?_).trans (get_readFuses_minSvn c)
    exact Nat.ne_of_gt (Nat.lt_add_right _ (by decide))
  · exact get_readFuses_minSvn c

/-- After a POR MIN_SVN shows the fuses as the reset leaves them. -/
theorem get_resetShown_minSvn (cause : Nat) (ramp : Bool) (c : Chip) :
    (c.resetShown .por cause ramp).get F.KEY_STATUS_MIN_SVN = c.fusesPart.key.fuses.svn % 2 ^ 6 := by
  have hwarm : (ResetKind.por == ResetKind.warm) = false := rfl
  refine (chip_get_put_apart _ _ _ _ rfl rfl).trans ((chip_get_put_apart _ _ _ _ rfl rfl).trans ?_)
  rw [← pinsReset_key c.fusesPart]
  simp only [Chip.afterReset, Chip.holdStays, hwarm, Bool.false_and, chip_when_false]
  exact get_keyRegs_por _ _

theorem keyStatusUnlisted_resetShown (k : ResetKind) (cause : Nat) (ramp : Bool) (c : Chip) : KeyStatusUnlisted (c.resetShown k cause ramp) := by
  refine KeyStatusUnlisted.put (KeyStatusUnlisted.put ?_)
  unfold Chip.afterReset Chip.holdStays
  dsimp only
  generalize c.fusesPart.pinsReset = d
  cases k == ResetKind.warm && d.get F.LKP_STATUS_STATE == 3
  · exact keyStatusUnlisted_keyRegs _ _ _
  · exact (keyStatusUnlisted_keyRegs _ _ _).put.put

/-- PWR_EN rises and the VAON circuits are reset. -/
def Chip.vaonRamped (c : Chip) : Chip := { (c.emit (.pwrEn true)) with regs := c.regs.afterRamp, pst := Pst.reset }

theorem get_vaonRamped {c : Chip} (h : KeyStatusUnlisted c) : c.vaonRamped.get F.KEY_STATUS_MIN_SVN = c.get F.KEY_STATUS_MIN_SVN :=
  congrArg (wordField · 16 6) (word_afterRamp vaonMask_keyStatus h)

theorem powerOnReset_chip {h : Hub} {ramp : Bool} (hadmits : h.chip.rst.admits .por = true) :
    (h.powerOnReset ramp).chip = (h.standingCommands.chip.resetShown .por 0 ramp).when ramp Chip.vaonRamped := by
  have hcore := coreReset_chip (cause := 0) (ramp := ramp) hadmits
  unfold Hub.powerOnReset
  dsimp only
  cases ramp
  · exact hcore
  · rw [hub_when_true, hub_onChip_chip, hcore]
    rfl

/-- What the reset leaves of the fuses does not depend on the standing commands. -/
theorem StandingKept.fusesPart_key {c d : Chip} (h : StandingKept c d) : d.fusesPart.key = c.fusesPart.key := by
  have hfw : d.get F.KEY_STATUS_FW_SVN = c.get F.KEY_STATUS_FW_SVN := h.get (by decide)
  obtain ⟨r, p, rfl, -⟩ := h
  unfold Chip.fusesPart
  rw [hfw]
  dsimp only
  split <;> rfl

/-- Each free value is 0 however the model cuts it to program the SVN fuses. -/
def svnDrawsZero : Prop := ∀ n b, 0 < b → b ≤ 64 → Config.free n % b = 0

theorem fusesPart_svn (hzero : svnDrawsZero) (c : Chip) : c.fusesPart.key.fuses.svn = c.key.fuses.svn := by
  unfold Chip.fusesPart
  split
  · rfl
  · have hfw : c.get F.KEY_STATUS_FW_SVN < 64 := wordField_lt _ _ 6
    exact congrArg (c.key.fuses.svn + ·) (hzero c.freeCount _ (Nat.succ_pos _) (by omega))
  · rfl

end Sys2Proof.Machine

namespace Sys2Proof.Proofs

open Sys2Proof.Machine Sys2Proof.Safety

theorem por_takesHold {s : State} {ramp : Bool} (hactive : s.hub.chip.rst.active ≠ some .por) :
    ∃ t, exec (.por ramp) s = .next t ∧ t.pending = s.pending ∧ t.hub.chip.rst.active = some .por ∧
      t.hub.chip.trk = Vector.replicate 3 Trk.reset ∧ t.hub.chip.swc = Swc.reset ∧ t.hub.chip.jrn = [] ∧
      t.hub.chip.key.slots = Vector.replicate 32 Slot.empty ∧
      t.hub.chip.get F.KEY_STATUS_MIN_SVN = s.hub.chip.fusesPart.key.fuses.svn % 2 ^ 6 := by
  obtain ⟨t, ht⟩ := onHub_goesOn s (Hub.powerOnReset ramp)
  obtain ⟨hpend, -, hchip⟩ := onHub_next ht
  have hcleared := cleared_resetShown .por 0 ramp s.hub.standingCommands.chip
  have hsvn := get_resetShown_minSvn 0 ramp s.hub.standingCommands.chip
  have hlisted := keyStatusUnlisted_resetShown .por 0 ramp s.hub.standingCommands.chip
  rw [(standingKept_standingCommands s.hub).fusesPart_key] at hsvn
  refine ⟨t, ht, hpend, ?_⟩
  rw [onHub_get ht rfl, hchip, settled_rst, settled_trk, settled_swc, settled_jrn, settled_key, powerOnReset_chip (admits_por hactive), ← hsvn]
  generalize s.hub.standingCommands.chip.resetShown .por 0 ramp = c at hcleared hlisted ⊢
  cases ramp
  · exact ⟨hcleared.active, hcleared.trk, hcleared.swc, hcleared.jrn (by decide), hcleared.slots, rfl⟩
  · exact ⟨hcleared.active, hcleared.trk, hcleared.swc, hcleared.jrn (by decide), hcleared.slots, get_vaonRamped hlisted⟩

theorem rstN_takesHold {s : State} (hactive : s.hub.chip.rst.active = none ∨ s.hub.chip.rst.active = some .warm) :
    ∃ t, exec .rstNAssert s = .next t ∧ t.pending = s.pending ∧ t.hub.chip.rst.active = some .cold ∧
      t.hub.chip.get F.GLB_RESET_CAUSE = 1 ∧ t.hub.chip.trk = Vector.replicate 3 Trk.reset ∧ t.hub.chip.swc = Swc.reset ∧
      t.hub.chip.jrn = [] ∧ t.hub.chip.key.slots = Vector.replicate 32 Slot.empty ∧
      t.hub.chip.outbox.take s.hub.chip.outbox.length = s.hub.chip.outbox ∧
      (t.hub.chip.outbox.drop s.hub.chip.outbox.length).all pinRelease = true ∧
      (∀ p < 16, s.hub.chip.fioLevel p ≠ none → Out.fioPin p none ∈ t.hub.chip.outbox) ∧
      (∀ x : Fin 2, s.hub.chip.on (F.USB_U_STATUS_VBUS_ON x) = true → Out.usbPort x.val (.vbus false) ∈ t.hub.chip.outbox) ∧
      (s.hub.chip.headEnd = false → s.hub.chip.perstLow = false → Out.pcie (.perst true) ∈ t.hub.chip.outbox) := by
  obtain ⟨t, ht⟩ := onHub_goesOn s (Hub.coldReset 1)
  obtain ⟨hpend, -, hchip⟩ := onHub_next ht
  have hreset : (s.hub.coldReset 1).chip = s.hub.standingCommands.chip.resetShown .cold 1 false := coreReset_chip (admits_cold hactive)
  have hcleared := cleared_resetShown .cold 1 false s.hub.standingCommands.chip
  have hcause := get_resetShown_cause .cold 1 false s.hub.standingCommands.chip
  obtain ⟨⟨l, hl, hall⟩, hfio, hvbus, hperst⟩ :=
    (standingKept_standingCommands s.hub).pinsSame.released (pinsReleased_pinsReset s.hub.standingCommands.chip.fusesPart)
  refine ⟨t, ht, hpend, ?_⟩
  rw [onHub_get ht rfl, hchip, settled_rst, settled_trk, settled_swc, settled_jrn, settled_key, settled_outbox, hreset, hcleared.outbox]
  refine ⟨hcleared.active, hcause, hcleared.trk, hcleared.swc, hcleared.jrn (by decide), hcleared.slots, ?_, ?_, hfio, hvbus, hperst⟩
  · rw [hl, List.take_left]
  · rwa [hl, List.drop_left]

theorem clockLoss_takesHold {s : State} (hactive : s.hub.chip.rst.active = none ∨ s.hub.chip.rst.active = some .warm)
    (hclock : s.hub.chip.rst.clockLost = false) (hoff : s.hub.chip.pst.off = false) :
    ∃ t, exec .clockLoss s = .next t ∧ t.pending = s.pending ∧ t.hub.chip.rst.active = some .cold ∧
      t.hub.chip.rst.clockLost = true ∧ t.hub.chip.get F.GLB_RESET_CAUSE = 4 ∧ t.hub.chip.get F.GLB_FAULT_STATUS_CLOCK_LOSS = 1 ∧
      t.hub.chip.swc = Swc.reset := by
  obtain ⟨t, ht⟩ := onHub_goesOn s fun h => h.when (!h.chip.pst.off && !h.chip.rst.clockLost) fun h =>
    (h.coldReset 4).onChip fun c =>
      let c := c.flag F.GLB_FAULT_STATUS_CLOCK_LOSS
      { c with rst := { c.rst with clockLost := true } }
  have hcond : (!s.hub.chip.pst.off && !s.hub.chip.rst.clockLost) = true := by rw [hclock, hoff]; rfl
  obtain ⟨hpend, -, hchip⟩ := onHub_next ht
  have hreset : (s.hub.coldReset 4).chip = s.hub.standingCommands.chip.resetShown .cold 4 false := coreReset_chip (admits_cold hactive)
  have hcleared := cleared_resetShown .cold 4 false s.hub.standingCommands.chip
  have hcause := get_resetShown_cause .cold 4 false s.hub.standingCommands.chip
  refine ⟨t, ht, hpend, ?_⟩
  rw [onHub_get ht rfl, onHub_get ht rfl, hchip, settled_rst, settled_swc, hcond, hub_when_true, hub_onChip_chip, hreset]
  generalize s.hub.standingCommands.chip.resetShown .cold 4 false = c at hcleared hcause ⊢
  exact ⟨hcleared.active, rfl, (chip_get_flag_apart c _ _ rfl rfl).trans hcause, chip_get_flag c _ rfl, hcleared.swc⟩

/-- A running core in which an SVN_ADVANCE to `b - 1` is under way, with the `n`-th free value to draw next. -/
def svnAdvancing (n b : Nat) : State :=
  { State.reset with
    hub := { State.reset.hub with
      chip := { Chip.reset.put F.KEY_STATUS_FW_SVN (b - 1) with rst := startedRst, freeCount := n, key := { Key.reset with lcCmd := some 4 } } } }

theorem fusesPart_svnAdvancing {n b : Nat} (hb : 0 < b) (hb64 : b ≤ 64) :
    (svnAdvancing n b).hub.chip.fusesPart.key.fuses.svn = Config.free n % b := by
  have hfw : (svnAdvancing n b).hub.chip.get F.KEY_STATUS_FW_SVN = (b - 1) % 64 := chip_get_put Chip.reset F.KEY_STATUS_FW_SVN _ rfl
  have hdraw : (svnAdvancing n b).hub.chip.fusesPart.key.fuses.svn =
    0 + Config.free n % ((svnAdvancing n b).hub.chip.get F.KEY_STATUS_FW_SVN - 0 + 1) := rfl
  have hbound : (b - 1) % 64 + 1 = b := by omega
  rw [hdraw, hfw, Nat.zero_add, Nat.sub_zero, hbound]

theorem svnDrawsZero_of_resetsAndImageLoadTakeHold (hresets : Obligations.ResetsAndImageLoadTakeHold) : svnDrawsZero := by
  intro n b hb hb64
  obtain ⟨hpor, -⟩ := hresets
  obtain ⟨t, ht, -, -, -, -, -, -, hkept⟩ := hpor (svnAdvancing n b) false nofun
  obtain ⟨u, hu, -, -, -, -, -, -, hdrawn⟩ := por_takesHold (s := svnAdvancing n b) (ramp := false) nofun
  obtain rfl := Host.Outcome.next.inj (ht.symm.trans hu)
  have hlt : Config.free n % b < 64 := Nat.lt_of_lt_of_le (Nat.mod_lt _ hb) hb64
  have hsvn : Config.free n % b % 64 = 0 := by
    rw [← fusesPart_svnAdvancing hb hb64]
    exact hdrawn.symm.trans hkept
  rwa [Nat.mod_eq_of_lt hlt] at hsvn

/-- O17 holds just where no reset that cuts an SVN_ADVANCE short leaves a fuse blown. `Config.free` has no body, so neither O17 nor its
negation is provable of the model; every clause but the last conjunct of the first holds. -/
theorem resetsAndImageLoadTakeHold_iff : Obligations.ResetsAndImageLoadTakeHold ↔ svnDrawsZero := by
  refine ⟨svnDrawsZero_of_resetsAndImageLoadTakeHold, fun hzero => ⟨fun s ramp hactive => ?_, fun s => rstN_takesHold,
    fun s => clockLoss_takesHold,
    clockRestored_liftsHold, fun s k he b0 b1 tm => internalResetEnd_beginsBist, fun s v => imageLoad_recovery,
    fun s v => imageLoad_noFirmware, fun s v => imageLoad_absentConfig, fun s v hload _ _ _ => ?_, fun s => imageLoaded_endsLoad⟩⟩
  · have hpor := por_takesHold (ramp := ramp) hactive
    rwa [fusesPart_svn hzero] at hpor
  · obtain ⟨t, ht⟩ := onHub_goesOn s fun _ => Hub.imageLoad v s.hub
    exact ⟨t, (imageLoad_eq hload).trans ht, (onHub_next ht).1, fun ⟨_, _, hrecords⟩ => absurd hrecords (imgRecords_length_ne_zero _)⟩

end Sys2Proof.Proofs
end

section
/-! The control blocks and the line code come back from their encodings (02 R30, R32, R39, R40; 03 R100): O10 and O11. -/

namespace Sys2Proof

/-! A field of a block reads what stands there, and nothing of a field apart from it. -/

@[simp] theorem extract_blockField_same {w lo : Nat} (v : BitVec w) (h : lo + w ≤ 257) : (blockField lo v).extractLsb' lo w = v := by
  apply BitVec.eq_of_getLsbD_eq
  intro i hi
  have hblock : lo + i < 257 := by omega
  simp [blockField, hi, hblock]

@[simp] theorem extract_blockField_apart {w lo width start : Nat} (v : BitVec w) (h : lo + width ≤ start ∨ start + w ≤ lo) :
    (blockField start v).extractLsb' lo width = 0#width := by
  apply BitVec.eq_of_getLsbD_eq
  intro i hi
  rcases h with hbelow | habove
  · have hlt : lo + i < start := by omega
    simp [blockField, hlt]
  · have hge : w ≤ lo + i - start := by omega
    simp [blockField, BitVec.getLsbD_of_ge v _ hge]

@[simp] theorem getLsbD_blockField_apart {w i start : Nat} (v : BitVec w) (h : i < start ∨ start + w ≤ i) :
    (blockField start v).getLsbD i = false := by
  have hbit := congrArg (·.getLsbD 0) (extract_blockField_apart (lo := i) (width := 1) (start := start) v (by omega))
  simpa using hbit

theorem blockFlag_eq_blockField (start : Nat) (b : Bool) : blockFlag start b = blockField start (BitVec.ofBool b) := by
  cases b
  · simp [blockFlag, blockField]
  · simp [blockFlag]

@[simp] theorem extract_blockFlag_apart {start lo width : Nat} {b : Bool} (h : lo + width ≤ start ∨ start + 1 ≤ lo) :
    (blockFlag start b).extractLsb' lo width = 0#width := by
  rw [blockFlag_eq_blockField, extract_blockField_apart _ h]

@[simp] theorem getLsbD_blockFlag_same {start : Nat} {b : Bool} (h : start < 257) : (blockFlag start b).getLsbD start = b := by
  cases b <;> simp [blockFlag, blockField, h]

@[simp] theorem getLsbD_blockFlag_apart {start i : Nat} {b : Bool} (h : i < start ∨ start + 1 ≤ i) : (blockFlag start b).getLsbD i = false := by
  rw [blockFlag_eq_blockField, getLsbD_blockField_apart _ h]

@[simp] theorem extract_withCrc {lo width : Nat} (b : Block) (h : 32 ≤ lo) : (withCrc b).extractLsb' lo width = b.extractLsb' lo width := by
  apply BitVec.eq_of_getLsbD_eq
  intro i hi
  simp only [BitVec.getLsbD_extractLsb', hi, decide_true, Bool.true_and, withCrc_high b (lo + i) (by omega)]

/-! The flag, the BTYPE and the CRC of a control block, and what lies between the BTYPE and the CRC. -/

/-- The body of a control block leaves the flag, the BTYPE and the CRC clear (02 R34, R39; 03 R100). -/
structure IsBody (body : Block) : Prop where
  flagClear : body.getLsbD 256 = false
  typeClear : body.extractLsb' 248 8 = 0#8
  crcClear : body.extractLsb' 0 32 = 0#32

section
variable {body rest : Block} {btype start : Nat}

theorem isBody_or : IsBody (body ||| rest) ↔ IsBody body ∧ IsBody rest := by
  constructor
  · rintro ⟨hflag, htype, hcrc⟩
    rw [BitVec.getLsbD_or, Bool.or_eq_false_iff] at hflag
    rw [BitVec.extractLsb'_or, BitVec.or_eq_zero_iff] at htype hcrc
    exact ⟨⟨hflag.1, htype.1, hcrc.1⟩, ⟨hflag.2, htype.2, hcrc.2⟩⟩
  · rintro ⟨hb, hr⟩
    constructor
    · rw [BitVec.getLsbD_or, hb.flagClear, hr.flagClear, Bool.or_self]
    · rw [BitVec.extractLsb'_or, hb.typeClear, hr.typeClear, BitVec.or_self]
    · rw [BitVec.extractLsb'_or, hb.crcClear, hr.crcClear, BitVec.or_self]

theorem isBody_blockField {w : Nat} {v : BitVec w} (hcrc : 32 ≤ start) (htype : start + w ≤ 248) : IsBody (blockField start v) where
  flagClear := getLsbD_blockField_apart _ (by omega)
  typeClear := extract_blockField_apart _ (by omega)
  crcClear := extract_blockField_apart _ (by omega)

theorem isBody_blockFlag {b : Bool} (hcrc : 32 ≤ start) (htype : start < 248) : IsBody (blockFlag start b) :=
  blockFlag_eq_blockField start b ▸ isBody_blockField hcrc htype

theorem crcHolds_ctlBlock (h : IsBody body) : crcHolds (withCrc (ctlBlock btype body)) = true := by
  refine crcHolds_withCrc _ ?_
  simp (disch := omega) only [ctlBlock, BitVec.extractLsb'_or, extract_blockField_apart, h.crcClear, BitVec.or_self]

theorem btypeOf_ctlBlock (h : IsBody body) : btypeOf (withCrc (ctlBlock btype body)) = btype % 2 ^ 8 := by
  simp (disch := omega) only [btypeOf, extract_withCrc, ctlBlock, BitVec.extractLsb'_or, extract_blockField_apart,
    extract_blockField_same, h.typeClear, BitVec.zero_or, BitVec.or_zero, BitVec.toNat_ofNat]

theorem flag_ctlBlock : (withCrc (ctlBlock btype body)).getLsbD 256 = true := by
  have hflag : (blockField 256 1#1).getLsbD 256 = true := by simp [blockField]
  rw [withCrc_high _ _ (by omega), ctlBlock, BitVec.getLsbD_or, BitVec.getLsbD_or, hflag, Bool.true_or, Bool.true_or]

theorem extract_ctlBlock {lo width : Nat} (hcrc : 32 ≤ lo) (htype : lo + width ≤ 248) :
    (withCrc (ctlBlock btype body)).extractLsb' lo width = body.extractLsb' lo width := by
  simp (disch := omega) only [extract_withCrc, ctlBlock, BitVec.extractLsb'_or, extract_blockField_apart, BitVec.zero_or]

theorem getLsbD_ctlBlock {i : Nat} (hcrc : 32 ≤ i) (htype : i < 248) : (withCrc (ctlBlock btype body)).getLsbD i = body.getLsbD i := by
  simp (disch := omega) only [withCrc_high, ctlBlock, BitVec.getLsbD_or, getLsbD_blockField_apart, Bool.false_or]

end

/-! The control blocks whose fields the hub takes, each with its body. -/

def Marker.fields (m : Marker) : Block :=
  blockField 216 m.span ||| blockField 214 m.copy ||| blockField 211 m.step ||| blockField 209 m.lanes
    ||| blockFlag 208 m.qnext ||| blockField 205 m.shOp ||| blockField 202 m.shStep ||| blockField 198 m.shReason
    ||| blockField 166 m.shSpan ||| blockField 134 m.shPeer ||| blockField 130 m.stepCap ||| blockFlag 129 m.moorRdy
    ||| blockField 104 m.epoch ||| blockFlag 103 m.kePend ||| blockField 64 m.keSpan
    ||| blockField 56 m.marginA ||| blockField 48 m.marginB ||| blockField 40 m.predUp

theorem Marker.encode_eq (m : Marker) : m.encode = withCrc (ctlBlock 0x01 m.fields) := rfl

theorem Marker.isBody_fields (m : Marker) : IsBody m.fields := by
  simp [Marker.fields, isBody_or, isBody_blockField, isBody_blockFlag]

theorem Marker.decode_encode (m : Marker) : Marker.decode m.encode = some m := by
  have hb := m.isBody_fields
  rw [Marker.encode_eq, Marker.decode, flag_ctlBlock, btypeOf_ctlBlock hb, crcHolds_ctlBlock hb]
  simp (disch := omega) only [extract_ctlBlock, getLsbD_ctlBlock]
  simp (disch := omega) [Marker.fields, BitVec.extractLsb'_or, -BitVec.getLsbD_eq_getElem]

def laneCtlFields (op lane span blk : Nat) : Block :=
  blockField 240 (BitVec.ofNat 8 op) ||| blockField 239 (BitVec.ofNat 1 lane) ||| blockField 207 (BitVec.ofNat 32 span)
    ||| blockField 195 (BitVec.ofNat 12 blk)

theorem laneCtl_eq (op lane span blk : Nat) : laneCtl op lane span blk = withCrc (ctlBlock 0x02 (laneCtlFields op lane span blk)) := rfl

theorem isBody_laneCtlFields (op lane span blk : Nat) : IsBody (laneCtlFields op lane span blk) := by
  simp [laneCtlFields, isBody_or, isBody_blockField]

theorem laneCtlDecode_laneCtl {op lane span blk : Nat} (hop : op < 2 ^ 8) (hlane : lane < 2) (hspan : span < 2 ^ 32) (hblk : blk < 2 ^ 12) :
    laneCtlDecode (laneCtl op lane span blk) = some (op, lane, span, blk) := by
  have hb := isBody_laneCtlFields op lane span blk
  rw [laneCtl_eq, laneCtlDecode, flag_ctlBlock, btypeOf_ctlBlock hb, crcHolds_ctlBlock hb]
  simp (disch := omega) only [extract_ctlBlock]
  simp (disch := omega) [laneCtlFields, BitVec.extractLsb'_or, Nat.mod_eq_of_lt]

def Heartbeat.fields (h : Heartbeat) : Block :=
  blockField 238 h.hubId ||| blockFlag 237 h.idValid ||| blockField 225 h.ackSeq ||| blockField 222 h.lkState ||| blockFlag 221 h.admitted
    ||| blockField 218 h.level ||| blockField 202 h.count

theorem Heartbeat.encode_eq (h : Heartbeat) : h.encode = withCrc (ctlBlock 0x13 h.fields) := rfl

theorem Heartbeat.isBody_fields (h : Heartbeat) : IsBody h.fields := by
  simp [Heartbeat.fields, isBody_or, isBody_blockField, isBody_blockFlag]

theorem Heartbeat.decode_encode (h : Heartbeat) : Heartbeat.decode h.encode = h := by
  simp (disch := omega) only [Heartbeat.decode, Heartbeat.encode_eq, extract_ctlBlock, getLsbD_ctlBlock]
  simp (disch := omega) [Heartbeat.fields, BitVec.extractLsb'_or, -BitVec.getLsbD_eq_getElem]

def TickBlock.fields (t : TickBlock) : Block :=
  blockField 216 t.frame ||| blockField 200 t.lag ||| blockField 190 t.master ||| blockField 184 t.hops ||| blockFlag 183 t.locked
    ||| blockFlag 182 t.src

theorem TickBlock.encode_eq (t : TickBlock) : t.encode = withCrc (ctlBlock 0x14 t.fields) := rfl

theorem TickBlock.isBody_fields (t : TickBlock) : IsBody t.fields := by
  simp [TickBlock.fields, isBody_or, isBody_blockField, isBody_blockFlag]

theorem TickBlock.decode_encode (t : TickBlock) : TickBlock.decode t.encode = t := by
  simp (disch := omega) only [TickBlock.decode, TickBlock.encode_eq, extract_ctlBlock, getLsbD_ctlBlock]
  simp (disch := omega) [TickBlock.fields, BitVec.extractLsb'_or, -BitVec.getLsbD_eq_getElem]

/-! The line code: the descrambler keeps pace with the scrambler's state, the receive precoder with the last symbol. -/

theorem descramble_scramble (st l : List Bool) : descramble st (scramble st l) = l := by
  induction l generalizing st with
  | nil => rfl
  | cons b l ih => simp only [scramble, descramble, ih, Bool.bne_assoc, bne_self_eq_false, Bool.bne_false]

theorem unprecode_precode {l : List Nat} (hl : ∀ g ∈ l, g < 4) (prev : Nat) : unprecode prev (precode prev l) = l := by
  induction l generalizing prev with
  | nil => rfl
  | cons g l ih =>
    obtain ⟨hg, hl⟩ := List.forall_mem_cons.1 hl
    have hback : ((g + 4 - prev % 4) % 4 + prev) % 4 = g := by omega
    simp only [precode, unprecode, ih hl, hback]

end Sys2Proof

namespace Sys2Proof.Proofs

/-- Settles O10: each control block carries its fields side by side, below the BTYPE and above the CRC. -/
theorem controlBlocksRoundTrip : Obligations.ControlBlocksRoundTrip :=
  ⟨Marker.decode_encode, fun _ _ _ _ => laneCtlDecode_laneCtl,
    fun h => ⟨h.decode_encode, crcHolds_ctlBlock h.isBody_fields⟩, fun k => ⟨k.decode_encode, crcHolds_ctlBlock k.isBody_fields⟩⟩

/-- Settles O11, by induction on what goes through each. -/
theorem lineCodingRoundTrip : Obligations.LineCodingRoundTrip :=
  ⟨descramble_scramble, fun prev _ hl => unprecode_precode hl prev⟩

end Sys2Proof.Proofs
end

section
/-! The receiver waits for the lane that joins, and the echo canceller switches with the transmitter: O22 and O24 fail. -/

namespace Sys2Proof.Proofs

open Sys2Proof.Machine Sys2Proof.Safety

/-- The line of a codeword of zeros whose last symbol is wrong. -/
def wrongLastSymbol : List Nat := List.replicate 2719 0 ++ [1]

/-- One symbol of the codeword is put right, and its first two blocks are data blocks of zeros. -/
theorem decodeCodeword_wrongLastSymbol :
    (decodeCodeword (List.replicate 58 false) false (wrongLastSymbol.map (· % 4))).1.map (fun r => (r.1.take 2, r.2)) =
      some ([0#257, 0#257], 1) := by
  decide +kernel

/-- T0 with its link up and both receivers locked. The partner has dealt to lane A alone and, as it has named, deals to both lanes from
block 20 of span 0 on, which is the next block. -/
def joiningPort : State :=
  { State.reset with
    hub := { State.reset.hub with
      chip := ((((Chip.reset.put (F.TRK_STATUS_LINK_UP 0) 1).put (F.TRK_LANE_A_RX_LOCK 0) 1).put (F.TRK_LANE_B_RX_LOCK 0) 1).modTrk 0
        fun t => { t with rxLanes := 1 }).modPcs 0 fun x => { x with rxBlk := 20, rxChange := some (0, 20, 0) } } }

/-- Of a codeword on lane A the first block, block 20, goes on alone: block 21 is to come on lane B. -/
theorem codewordRx_joiningPort :
    ∃ t, exec (.codewordRx 0 0 wrongLastSymbol) joiningPort = .next t ∧ t.hub.chip.pcs[(0 : Port)].rxq = [0#257] :=
  ⟨_, rfl, by rw [settled_pcs]; decide +kernel⟩

/-- Refutes O22: that the blocks of a codeword go on is stated of a direction dealt to lane A alone, but a change of the dealing that the
partner has named may fall due first (02 R40), and then they wait for those of lane B. -/
theorem not_spansAndCodewords : ¬ Obligations.SpansAndCodewords := by
  rintro ⟨-, -, -, hcodeword, -⟩
  obtain ⟨⟨blocks, n⟩, hdecoded, hfirst⟩ := Option.map_eq_some_iff.1 decodeCodeword_wrongLastSymbol
  obtain ⟨htwo, rfl⟩ := Prod.mk.inj hfirst
  obtain ⟨t, hexec, -, -, -, hrxq, -⟩ :=
    hcodeword joiningPort 0 0 wrongLastSymbol _ _ (by decide +kernel) (by decide +kernel) hdecoded (by decide)
  obtain ⟨u, hnext, hone⟩ := codewordRx_joiningPort
  obtain rfl := Host.Outcome.next.inj (hexec.symm.trans hnext)
  have hzeros : [0#257, 0#257].filter (fun b => rxBlock b == .on) = [0#257, 0#257] := by decide +kernel
  have hall : [0#257] = [] ++ blocks.filter fun b => rxBlock b == .on := hone.symm.trans (hrxq (by decide +kernel) rfl rfl rfl)
  rw [← List.take_append_drop 2 blocks, htwo, List.filter_append, hzeros] at hall
  exact absurd (List.cons.inj hall).2 nofun

/-- A committed shift to S2 whose span, 0, is the current one. -/
def dueShift : Proposal :=
  { phase := .committed, target := 2, start := 1, cause := 2, spanN := 0, spanM := 0, txDone := false, rxDone := false, failed := false }

/-- T0 at the span of its shift to S2. The live taps of lane A are 0 and those stored for S2 are 1. -/
def switchingPort : State :=
  { State.reset with
    hub := { State.reset.hub with
      chip := Chip.reset.modTrk 0 fun t => { t with
        own := some dueShift, coefs := [[List.replicate 64 0#16, [], List.replicate 64 1#16]] } } }

/-- The echo canceller's half of the live taps becomes the stored one of S2. -/
theorem shiftTxSwitch_switchingPort :
    ∃ t, exec (.shiftTxSwitch 0) switchingPort = .next t ∧
      t.hub.chip.trk[(0 : Port)].coefs = [[List.replicate 32 0#16 ++ List.replicate 32 1#16, [], List.replicate 64 1#16]] :=
  ⟨_, rfl, by rw [settled_trk]; decide +kernel⟩

/-- Refutes O24: the echo canceller switches with the transmitter to the stored coefficients (02 R62), so the switch changes more of the
port than the proposal. -/
theorem not_rateShifts : ¬ Obligations.RateShifts := by
  rintro ⟨-, -, -, -, -, -, -, -, -, -, -, -, -, -, htxSwitch, -⟩
  obtain ⟨t, hexec, -, htrk, -⟩ := htxSwitch switchingPort 0 dueShift rfl rfl rfl rfl rfl rfl rfl
  obtain ⟨u, hnext, hswitched⟩ := shiftTxSwitch_switchingPort
  obtain rfl := Host.Outcome.next.inj (hexec.symm.trans hnext)
  rw [htrk] at hswitched
  exact absurd hswitched (by decide +kernel)

end Sys2Proof.Proofs
end

section
/-! What a command of the core die leaves, and what the shared operations leave of the trunk lanes and the link layer. -/

namespace Sys2Proof.Machine

open Sys2Proof.Safety

/-! The state after a command of the core die. -/

/-- The state after a command that takes the core die to `d`. -/
def State.after (s : State) (d : Chip) : State :=
  { s with hub := { s.hub with chip := s.hub.settled { s.hub with chip := d } } }

theorem onChip_eq_after {s : State} {f : Chip → Chip} {d : Chip} (h : f s.hub.chip = d) : s.onChip f = .next (s.after d) := by
  rw [← h]; rfl

section
variable (s : State) (d : Chip)

theorem coreOnly_after : coreOnly s (s.after d) := ⟨rfl, rfl⟩

theorem get_after {g : Field} (h : g.apart F.CNT_OVF_PC = true) : (s.after d).hub.chip.get g = d.get g := settled_get _ _ _ h

@[simp] theorem after_trk : (s.after d).hub.chip.trk = d.trk := settled_trk _ _
@[simp] theorem after_pcs : (s.after d).hub.chip.pcs = d.pcs := settled_pcs _ _
@[simp] theorem after_lnk : (s.after d).hub.chip.lnk = d.lnk := settled_lnk _ _
@[simp] theorem after_outbox : (s.after d).hub.chip.outbox = d.outbox := settled_outbox _ _

end

/-! What a field reads after it was written. -/

theorem get_put_of_lt {c : Chip} {f : Field} {v : Nat} (hok : f.ok = true) (hv : v < 2 ^ f.width) : (c.put f v).get f = v :=
  (chip_get_put c f v hok).trans (Nat.mod_eq_of_lt hv)

theorem get_flag_same {c : Chip} {f : Field} (hok : f.ok = true) (hw : 1 < 2 ^ f.width) : (c.flag f).get f = 1 :=
  (chip_get_flag c f hok).trans (Nat.mod_eq_of_lt hw)

theorem on_iff {c : Chip} {f : Field} : c.on f = true ↔ c.get f = 1 := beq_iff_eq

@[simp] theorem upd_same {α : Type} {n : Nat} (v : Vector α n) (i : Fin n) (f : α → α) : (upd v i f)[i] = f v[i] := Vector.getElem_set_self _

theorem upd_other {α : Type} {n : Nat} (v : Vector α n) {i j : Fin n} (f : α → α) (h : i ≠ j) : (upd v i f)[j] = v[j] :=
  Vector.getElem_set_ne _ _ (by simpa [Fin.ext_iff] using h)

theorem each_lanes (c : Chip) (f : LaneId → Chip → Chip) : c.each lanes f = f 1 (f 0 c) := (rfl)

theorem each_ports (c : Chip) (f : Port → Chip → Chip) : c.each ports f = f 2 (f 1 (f 0 c)) := (rfl)

/-! Register words: what changes outside some words keeps. -/

/-- Every register word outside some offsets is as it was. -/
def Chip.WordsKept (offs : List Nat) (c d : Chip) : Prop := ∀ o, o ∉ offs → d.regs.word o = c.regs.word o

theorem wordsKept_after {s : State} {d : Chip} {offs : List Nat} (h : s.hub.chip.WordsKept offs d) : wordsKept offs s (s.after d) :=
  fun o ho hpc => (settled_word _ _ hpc).trans (h o ho)

section
variable {offs : List Nat} {c d : Chip}

theorem Chip.WordsKept.refl : c.WordsKept offs c := fun _ _ => rfl

theorem Chip.WordsKept.put {f : Field} {v : Nat} (h : c.WordsKept offs d) (hf : f.off ∈ offs) : c.WordsKept offs (d.put f v) :=
  fun o ho => (word_put _ _ _ _ (ne_of_mem_of_not_mem hf ho).symm).trans (h o ho)

theorem Chip.WordsKept.flag {f : Field} (h : c.WordsKept offs d) (hf : f.off ∈ offs) : c.WordsKept offs (d.flag f) :=
  h.put (v := 1) hf

end

/-- The ends of vote conditions keep their times, but where one ends now or the core is not clocked (15 R453). -/
theorem votesKept_votesEnded {s : State} {d : Chip} (hnow : d.now = s.hub.chip.now) (hends : d.voteEnd = s.hub.chip.voteEnd) :
    votesKept (s.hub.chip.votesEnded d) s := by
  intro i
  unfold Chip.votesEnded
  split
  · exact .inr (.inr (by simp))
  · simp only [Fin.getElem_fin, Vector.getElem_ofFn]
    split
    · exact .inr (.inl (by rw [hnow]))
    · exact .inl (by rw [hends])

/-- The sampled program counter takes a free value into its register. -/
theorem samplePc_eq (c : Chip) : ∃ r n k, c.samplePc = { c with regs := r, freeCount := n, cnt := k } := by
  unfold Chip.samplePc
  split
  · exact ⟨_, _, _, rfl⟩
  · exact ⟨_, _, _, rfl⟩

/-- A command that changes register words alone. -/
theorem registersOnly_after {s : State} {d : Chip} {r : RegFile} {hits : List Nat} (h : d = { s.hub.chip with regs := r, hits := hits }) :
    registersOnly s (s.after d) := by
  have hvotes : votesKept (s.hub.chip.votesEnded d) s := votesKept_votesEnded (by rw [h]) (by rw [h])
  obtain ⟨r', n, k, hsample⟩ := samplePc_eq { d with
    voteEnd := s.hub.chip.votesEnded d
    cnt := d.cnt.settle (d.regs.get F.CNT_CTL_FREEZE == 1) s.hub.word { s.hub with chip := d }.word (d.hits ++ s.hub.hv.hits), hits := [] }
  exact ⟨coreOnly_after s d, r', n, k, _, hsample.trans (by rw [h]), hvotes⟩

end Sys2Proof.Machine
end

section
/-! What alarms, the key store and forwarding leave of the trunk lanes and the link layer. -/

namespace Sys2Proof.Machine

/-- Does a field lie in the register blocks TRK and LNK (02, 03)? -/
def Field.ofTrunk (g : Field) : Bool := decide (0x2_0000 ≤ g.off) && decide (g.off < 0x4_0000)

/-- The trunk lanes and the link layer are as they were: the engines' state, what has left the hub, the model's time, whether the core
is clocked, and every register word of TRK and LNK. -/
structure Chip.SameTrunk (c d : Chip) : Prop where
  trk : d.trk = c.trk
  pcs : d.pcs = c.pcs
  lnk : d.lnk = c.lnk
  outbox : d.outbox = c.outbox
  now : d.now = c.now
  word : ∀ o, 0x2_0000 ≤ o → o < 0x4_0000 → d.regs.word o = c.regs.word o

section
variable {c d e : Chip}

theorem Chip.SameTrunk.get {g : Field} (h : c.SameTrunk d) (hg : g.ofTrunk = true) : d.get g = c.get g := by
  simp only [Field.ofTrunk, Bool.and_eq_true, decide_eq_true_eq] at hg
  exact congrArg (wordField · g.lo g.width) (h.word g.off hg.1 hg.2)

theorem Chip.SameTrunk.refl : c.SameTrunk c := ⟨rfl, rfl, rfl, rfl, rfl, fun _ _ _ => rfl⟩

theorem Chip.SameTrunk.trans (h : c.SameTrunk d) (h' : d.SameTrunk e) : c.SameTrunk e where
  trk := h'.trk.trans h.trk
  pcs := h'.pcs.trans h.pcs
  lnk := h'.lnk.trans h.lnk
  outbox := h'.outbox.trans h.outbox
  now := h'.now.trans h.now
  word o hlo hhi := (h'.word o hlo hhi).trans (h.word o hlo hhi)

/-- A change outside the registers, the trunk lanes and the link layer. -/
theorem Chip.SameTrunk.frame (h : c.SameTrunk d)
    (he : (e.regs, e.trk, e.pcs, e.lnk, e.outbox, e.now) = (d.regs, d.trk, d.pcs, d.lnk, d.outbox, d.now)) : c.SameTrunk e := by
  simp only [Prod.mk.injEq] at he
  obtain ⟨hregs, htrk, hpcs, hlnk, houtbox, hnow⟩ := he
  exact h.trans ⟨htrk, hpcs, hlnk, houtbox, hnow, fun o _ _ => by rw [hregs]⟩

theorem Chip.SameTrunk.put {f : Field} {x : Nat} (h : c.SameTrunk d) (hf : f.off < 0x2_0000 ∨ 0x4_0000 ≤ f.off) : c.SameTrunk (d.put f x) :=
  h.trans ⟨rfl, rfl, rfl, rfl, rfl, fun _ _ _ => word_put _ _ _ _ (by omega)⟩

theorem Chip.SameTrunk.flag {f : Field} (h : c.SameTrunk d) (hf : f.off < 0x2_0000 ∨ 0x4_0000 ≤ f.off) : c.SameTrunk (d.flag f) :=
  (h.put hf).frame (by rfl)

theorem Chip.SameTrunk.putBit {f : Field} {n : Nat} {b : Bool} (h : c.SameTrunk d) (hf : f.off < 0x2_0000 ∨ 0x4_0000 ≤ f.off) :
    c.SameTrunk (d.putBit f n b) :=
  h.put hf

theorem Chip.SameTrunk.ite {q : Prop} [Decidable q] (h : c.SameTrunk d) (he : c.SameTrunk e) : c.SameTrunk (if q then d else e) := by
  split
  exacts [h, he]

theorem Chip.SameTrunk.when {b : Bool} {f : Chip → Chip} (h : c.SameTrunk d) (hf : ∀ {d}, c.SameTrunk d → c.SameTrunk (f d)) :
    c.SameTrunk (d.when b f) := by
  cases b
  exacts [h, hf h]

theorem Chip.SameTrunk.each {α : Type} {l : List α} {f : α → Chip → Chip} (h : c.SameTrunk d)
    (hf : ∀ {a d}, c.SameTrunk d → c.SameTrunk (f a d)) : c.SameTrunk (d.each l f) :=
  chip_each_keeps (Chip.SameTrunk c) l f d h fun _ _ => hf

theorem Chip.SameTrunk.of_eq {α : Type} {x : α × Chip} {a : α} (h : c.SameTrunk x.2) (he : x = (a, d)) : c.SameTrunk d := by
  subst he; exact h

/-! Alarms (14 R444 to R450). -/

theorem Chip.SameTrunk.alarmCount (h : c.SameTrunk d) : c.SameTrunk d.alarmCount := by
  fun_cases Chip.alarmCount
  · exact ((h.put (by decide)).put (by decide)).put (by decide)
  · exact (h.put (by decide)).put (by decide)

theorem Chip.SameTrunk.alarmWrite {i : Nat} {x : AlarmEntry} (h : c.SameTrunk d) : c.SameTrunk (d.alarmWrite i x) :=
  (h.frame (by rfl)).alarmCount

theorem Chip.SameTrunk.alarmLog {x : AlarmEntry} (h : c.SameTrunk d) : c.SameTrunk (d.alarmLog x).2 := by
  fun_cases Chip.alarmLog
  · exact h.alarmWrite
  · exact (h.alarmWrite.put (by decide)).flag (by decide)
  · exact (h.put (by decide)).flag (by decide)

theorem Chip.SameTrunk.raise {r : AlarmReq} (h : c.SameTrunk d) : c.SameTrunk (d.raise r) := by
  have hcount : ∀ {crit again : Bool}, c.SameTrunk ((((d.inc F.ALM_RAISED).flag F.ALM_INT_STATUS_RAISED).when crit fun x =>
      x.put F.GLB_FAULT_STATUS_CRIT_ALARM 1).when again fun x => x.inc F.ALM_SUPPRESSED) :=
    (((h.put (by decide)).flag (by decide)).when fun hd => hd.put (by decide)).when fun hd => hd.put (by decide)
  fun_cases Chip.raise
  · exact hcount.frame (by rfl)
  · next e => exact (((hcount.frame (by rfl)).alarmLog.of_eq e).frame (by rfl)).alarmCount
  · next e => exact (hcount.frame (by rfl)).alarmLog.of_eq e
  · next e => exact (hcount.frame (by rfl)).alarmLog.of_eq e

theorem Chip.SameTrunk.clearAbout {code : Nat} {about : AlarmEntry → Bool} (h : c.SameTrunk d) : c.SameTrunk (d.clearAbout code about) := by
  fun_cases Chip.clearAbout
  · exact h.when fun hd => hd.raise
  · exact h

/-! Forwarding (04 R149, R526). -/

theorem Chip.SameTrunk.setProtection {spur v : Bool} {i : Nat} (h : c.SameTrunk d) : c.SameTrunk (d.setProtection spur i v) := by
  have hoff : 0x4_0000 ≤ (if spur then F.FAB_EXIT_LOST (i / 32) else F.FAB_BROKEN (i / 32)).off := by
    cases spur
    all_goals exact Nat.le_add_right_of_le (by decide)
  exact .ite h ((h.putBit (.inr hoff)).flag (by decide))

theorem Chip.SameTrunk.routabilityLost {p : Port} (h : c.SameTrunk d) : c.SameTrunk (d.routabilityLost p) := by
  have hlost := (h.putBit (f := F.FAB_STATUS_ROUTABLE) (n := p.val) (b := false) (by decide)).flag (f := F.FAB_INT_STATUS_PROTECT) (by decide)
  fun_cases Chip.routabilityLost
  · exact (hlost.frame (by rfl)).setProtection
  · exact hlost.frame (by rfl)

theorem Chip.SameTrunk.portUnrouted {p : Port} (h : c.SameTrunk d) : c.SameTrunk (d.portUnrouted p) :=
  have hstop := h.putBit (f := F.FAB_STATUS_WTR_RUN) (by decide)
  .ite hstop.routabilityLost hstop

/-! The key store (13 R405, R427). -/

theorem Chip.SameTrunk.admissionEnds {p : Port} (h : c.SameTrunk d) : c.SameTrunk (d.admissionEnds p) := by
  fun_cases Chip.admissionEnds
  · exact h
  · exact (h.put (f := F.KEY_P_STATUS_ADMIT p) (.inr (Nat.le_add_right_of_le (by decide)))).frame (by rfl)

theorem Chip.SameTrunk.clearSlot {n : Nat} (h : c.SameTrunk d) : c.SameTrunk (d.clearSlot n) := h.frame (by rfl)

end
end Sys2Proof.Machine
end

section
/-! A command of the core die whose condition holds, and its effects. -/

namespace Sys2Proof.Machine

open Sys2Proof.Safety

section
variable {s : State} {Q : State → Prop}

/-- A command of the core die runs, to be seen on the core die that it leaves. -/
theorem onChip_runs {f : Chip → Chip} (hQ : ∀ d, d = f s.hub.chip → Q (s.after d)) : ∃ t, s.onChip f = .next t ∧ coreOnly s t ∧ Q t :=
  ⟨_, onChip_eq_after rfl, coreOnly_after s _, hQ _ rfl⟩

/-- A command that acts under a condition, where the condition holds. -/
theorem onChip_when_runs {cond : Chip → Bool} {body : Chip → Chip → Chip} (h : cond s.hub.chip = true)
    (hQ : ∀ d, d = body s.hub.chip s.hub.chip → Q (s.after d)) :
    ∃ t, s.onChip (fun c => c.when (cond c) (body c)) = .next t ∧ coreOnly s t ∧ Q t :=
  onChip_runs fun d hd => hQ d (hd.trans (by rw [h]; rfl))

/-- A command that changes register words alone runs. -/
theorem onChip_runs_registers {f : Chip → Chip} {d : Chip} {r : RegFile} {hits : List Nat} (h : f s.hub.chip = d)
    (hd : d = { s.hub.chip with regs := r, hits := hits }) (hQ : Q (s.after d)) : ∃ t, s.onChip f = .next t ∧ registersOnly s t ∧ Q t :=
  ⟨_, onChip_eq_after h, registersOnly_after hd, hQ⟩

end

theorem when_pos {c : Chip} {b : Bool} {f : Chip → Chip} (h : b = true) : c.when b f = f c := if_pos h

theorem when_neg {c : Chip} {b : Bool} {f : Chip → Chip} (h : b = false) : c.when b f = c := if_neg (by simp [h])

/-! Effects under a condition, and reads after them. -/

theorem get_when (c : Chip) (b : Bool) (f : Chip → Chip) (g : Field) : (c.when b f).get g = if b then (f c).get g else c.get g := by
  cases b <;> rfl

theorem Chip.WordsKept.when {offs : List Nat} {c d : Chip} {b : Bool} {f : Chip → Chip} (h : c.WordsKept offs d)
    (hf : c.WordsKept offs d → c.WordsKept offs (f d)) : c.WordsKept offs (d.when b f) := by
  cases b
  exacts [h, hf h]

theorem Chip.WordsKept.modTrk {offs : List Nat} {c d : Chip} {p : Port} {f : Trk → Trk} (h : c.WordsKept offs d) :
    c.WordsKept offs (d.modTrk p f) := h

theorem Chip.WordsKept.emit {offs : List Nat} {c d : Chip} {o : Out} (h : c.WordsKept offs d) : c.WordsKept offs (d.emit o) := h

theorem Chip.WordsKept.each {offs : List Nat} {c d : Chip} {α : Type} {l : List α} {f : α → Chip → Chip} (h : c.WordsKept offs d)
    (hf : ∀ {a d}, c.WordsKept offs d → c.WordsKept offs (f a d)) : c.WordsKept offs (d.each l f) :=
  chip_each_keeps (Chip.WordsKept offs c) l f d h fun _ _ => hf

end Sys2Proof.Machine
end

section
/-! Which fields an operation writes: of the registers alone, and of the trunk lanes and the link layer. -/

namespace Sys2Proof.Machine

/-- A change of the registers alone that leaves every field apart from `fs`. -/
def Chip.Writes (fs : List Field) (c d : Chip) : Prop :=
  (∃ r h, d = { c with regs := r, hits := h }) ∧ ∀ g : Field, fs.all g.apart = true → d.get g = c.get g

section
variable {fs : List Field} {c d e : Chip}

theorem Chip.Writes.refl : c.Writes fs c := ⟨⟨_, _, rfl⟩, fun _ _ => rfl⟩

theorem Chip.Writes.put {f : Field} {v : Nat} (h : c.Writes fs d) (hf : f.ok = true ∧ f ∈ fs) : c.Writes fs (d.put f v) := by
  obtain ⟨⟨r, hits, rfl⟩, hget⟩ := h
  exact ⟨⟨_, _, rfl⟩, fun g hg => (chip_get_put_apart _ _ _ _ hf.1 (List.all_eq_true.mp hg f hf.2)).trans (hget g hg)⟩

theorem Chip.Writes.flag {f : Field} (h : c.Writes fs d) (hf : f.ok = true ∧ f ∈ fs) : c.Writes fs (d.flag f) := by
  obtain ⟨⟨r, hits, rfl⟩, hget⟩ := h
  exact ⟨⟨_, _, rfl⟩, fun g hg => (chip_get_flag_apart _ _ _ hf.1 (List.all_eq_true.mp hg f hf.2)).trans (hget g hg)⟩

theorem Chip.Writes.when {b : Bool} {f : Chip → Chip} (h : c.Writes fs d) (hf : c.Writes fs d → c.Writes fs (f d)) :
    c.Writes fs (d.when b f) := by
  cases b
  exacts [h, hf h]

theorem Chip.Writes.each {α : Type} {l : List α} {f : α → Chip → Chip} (h : c.Writes fs d)
    (hf : ∀ {a d}, c.Writes fs d → c.Writes fs (f a d)) : c.Writes fs (d.each l f) :=
  chip_each_keeps (Chip.Writes fs c) l f d h fun _ _ => hf

theorem Chip.Writes.trans (h : c.Writes fs d) (h' : d.Writes fs e) : c.Writes fs e := by
  obtain ⟨⟨r, hits, rfl⟩, hget⟩ := h
  obtain ⟨⟨r', hits', rfl⟩, hget'⟩ := h'
  exact ⟨⟨_, _, rfl⟩, fun g hg => (hget' g hg).trans (hget g hg)⟩

theorem Chip.Writes.get {g : Field} (h : c.Writes fs d) (hg : fs.all g.apart = true) : d.get g = c.get g := h.2 g hg

theorem Chip.Writes.trk (h : c.Writes fs d) : d.trk = c.trk := by obtain ⟨⟨r, hits, rfl⟩, -⟩ := h; rfl
theorem Chip.Writes.pcs (h : c.Writes fs d) : d.pcs = c.pcs := by obtain ⟨⟨r, hits, rfl⟩, -⟩ := h; rfl
theorem Chip.Writes.lnk (h : c.Writes fs d) : d.lnk = c.lnk := by obtain ⟨⟨r, hits, rfl⟩, -⟩ := h; rfl
theorem Chip.Writes.outbox (h : c.Writes fs d) : d.outbox = c.outbox := by obtain ⟨⟨r, hits, rfl⟩, -⟩ := h; rfl
theorem Chip.Writes.now (h : c.Writes fs d) : d.now = c.now := by obtain ⟨⟨r, hits, rfl⟩, -⟩ := h; rfl

/-- A whole word outside the fields' words. -/
theorem Chip.Writes.word {o : Nat} (h : c.Writes fs d) (ho : o ∉ fs.map Field.off) : d.regs.word o = c.regs.word o := by
  have hg : fs.all (⟨o, 0, 32⟩ : Field).apart = true := List.all_eq_true.mpr fun f hf => by
    have hne : o ≠ f.off := fun he => ho (he ▸ List.mem_map_of_mem hf)
    simp [Field.apart, hne]
  have hword : (d.regs.word o).toNat % 2 ^ 32 = (c.regs.word o).toNat % 2 ^ 32 := by
    simpa [Chip.get, RegFile.get, wordField] using h.get hg
  exact BitVec.eq_of_toNat_eq (by omega)

theorem Chip.Writes.wordsKept (h : c.Writes fs d) : c.WordsKept (fs.map Field.off) d := fun _ ho => h.word ho

end

/-- Is a field one of the trunk lanes or the link layer, and apart from `fs`? -/
def Field.besides (g : Field) (fs : List Field) : Bool := g.ofTrunk && fs.all g.apart

/-- Every field of the trunk lanes and the link layer apart from `fs` reads as before. -/
def Chip.Spares (fs : List Field) (c d : Chip) : Prop := ∀ g : Field, g.besides fs = true → d.get g = c.get g

section
variable {fs gs : List Field} {c d e : Chip}

theorem Chip.Spares.refl : c.Spares fs c := fun _ _ => rfl

theorem Chip.Spares.trans (h : c.Spares fs d) (h' : d.Spares fs e) : c.Spares fs e := fun g hg => (h' g hg).trans (h g hg)

/-- An operation that spares all but a part of the fields. -/
theorem Chip.Spares.mono (h : c.Spares fs d) (hs : fs ⊆ gs) : c.Spares gs d := fun g hg => h g (by
  simp only [Field.besides, Bool.and_eq_true, List.all_eq_true] at hg ⊢
  exact ⟨hg.1, fun f hf => hg.2 f (hs hf)⟩)

theorem Chip.Spares.of_writes (h : c.Writes fs d) : c.Spares fs d := fun _ hg => h.get (Bool.and_eq_true_iff.mp hg).2

theorem Chip.Spares.of_sameTrunk (h : c.SameTrunk d) : c.Spares fs d := fun _ hg => h.get (Bool.and_eq_true_iff.mp hg).1

theorem Chip.Spares.of_regs (h : d.regs = c.regs) : c.Spares fs d := fun _ _ => congrArg (RegFile.get · _) h

theorem Chip.Spares.put {f : Field} {v : Nat} (h : c.Spares fs d) (hf : f.ok = true ∧ f ∈ fs) : c.Spares fs (d.put f v) :=
  h.trans (.of_writes (Chip.Writes.refl.put hf))

theorem Chip.Spares.flag {f : Field} (h : c.Spares fs d) (hf : f.ok = true ∧ f ∈ fs) : c.Spares fs (d.flag f) :=
  h.trans (.of_writes (Chip.Writes.refl.flag hf))

theorem Chip.Spares.when {b : Bool} {f : Chip → Chip} (h : c.Spares fs d) (hf : c.Spares fs d → c.Spares fs (f d)) :
    c.Spares fs (d.when b f) := by
  cases b
  exacts [h, hf h]

theorem Chip.Spares.each {α : Type} {l : List α} {f : α → Chip → Chip} (h : c.Spares fs d)
    (hf : ∀ {a d}, c.Spares fs d → c.Spares fs (f a d)) : c.Spares fs (d.each l f) :=
  chip_each_keeps (Chip.Spares fs c) l f d h fun _ _ => hf

theorem Chip.Spares.emit {o : Out} (h : c.Spares fs d) : c.Spares fs (d.emit o) := h
theorem Chip.Spares.modTrk {p : Port} {f : Trk → Trk} (h : c.Spares fs d) : c.Spares fs (d.modTrk p f) := h
theorem Chip.Spares.modPcs {p : Port} {f : Pcs → Pcs} (h : c.Spares fs d) : c.Spares fs (d.modPcs p f) := h
theorem Chip.Spares.modLnk {p : Port} {f : Lnk → Lnk} (h : c.Spares fs d) : c.Spares fs (d.modLnk p f) := h

theorem Chip.Spares.get {g : Field} (h : c.Spares fs d) (hg : g.besides fs = true) : d.get g = c.get g := h g hg

theorem Chip.Spares.on {g : Field} (h : c.Spares fs d) (hg : g.besides fs = true) : d.on g = c.on g := by
  simp only [Chip.on, h.get hg]

end

/-! Alarms of a link (14 R444, R445). -/

theorem raiseLink_sameTrunk (c : Chip) (p : Port) (code detail : Nat) (cleared : Bool) : c.SameTrunk (c.raiseLink p code detail cleared) :=
  Chip.SameTrunk.refl.raise

/-! Bring-up (02 R46 to R49). -/

/-- Each lane's state is one of the two. -/
theorem laneState_ok_mem (p : Port) (l : LaneId) : (laneState p l).ok = true ∧ laneState p l ∈ [laneState p 0, laneState p 1] := by
  decide +revert

/-- The fields that bring-up writes: the phase and the states of the lanes. -/
def bringupFields (p : Port) : List Field := [F.TRK_STATUS_PHASE p, laneState p 0, laneState p 1]

theorem phase_ok_mem (p : Port) : (F.TRK_STATUS_PHASE p).ok = true ∧ F.TRK_STATUS_PHASE p ∈ bringupFields p := by
  decide +revert

section
variable {c d : Chip} {p : Port} {fs : List Field}

theorem lanesTrain_writes : c.Writes [laneState p 0, laneState p 1] (c.lanesTrain p) :=
  Chip.Writes.refl.each fun h => h.put (laneState_ok_mem p _)

theorem lanesTrain_get {g : Field} (hg : [laneState p 0, laneState p 1].all g.apart = true) : (c.lanesTrain p).get g = c.get g :=
  lanesTrain_writes.get hg

@[simp] theorem lanesTrain_trk : (c.lanesTrain p).trk = c.trk := lanesTrain_writes.trk
@[simp] theorem lanesTrain_lnk : (c.lanesTrain p).lnk = c.lnk := lanesTrain_writes.lnk
@[simp] theorem lanesTrain_outbox : (c.lanesTrain p).outbox = c.outbox := lanesTrain_writes.outbox

theorem Chip.Spares.lanesTrain (h : c.Spares fs d) (hs : bringupFields p ⊆ fs) : c.Spares fs (d.lanesTrain p) :=
  h.trans ((Chip.Spares.of_writes lanesTrain_writes).mono (List.Subset.trans (List.subset_cons_self _ _) hs))

theorem Chip.WordsKept.lanesTrain {offs : List Nat} (h : c.WordsKept offs d)
    (hoff : ∀ l : LaneId, (laneState p l).off ∈ offs) : c.WordsKept offs (d.lanesTrain p) :=
  h.each fun hd => hd.put (hoff _)

@[simp] theorem startBringup_trk : (c.startBringup p).trk = upd c.trk p fun t => { t with training := true, wait := .none } := by
  simp [Chip.startBringup]

@[simp] theorem startBringup_lnk : (c.startBringup p).lnk = c.lnk := by
  simp [Chip.startBringup]

@[simp] theorem startBringup_outbox : (c.startBringup p).outbox = c.outbox ++ [Out.prbs p false] := by
  simp [Chip.startBringup]

theorem startBringup_phase {c : Chip} {p : Port} : (c.startBringup p).get (F.TRK_STATUS_PHASE p) = phaseEcho := by
  simp (disch := (clear * -; decide +revert)) only [Chip.startBringup, chip_get_emit, lanesTrain_get, chip_get_modPcs, chip_get_modTrk,
    get_put_of_lt]

theorem Chip.Spares.startBringup (h : c.Spares fs d) (hs : bringupFields p ⊆ fs) : c.Spares fs (d.startBringup p) := by
  unfold Chip.startBringup
  exact ((h.put ⟨(phase_ok_mem p).1, hs (phase_ok_mem p).2⟩).modTrk.modPcs.lanesTrain hs).emit

/-- A failed attempt counts. -/
theorem bringupFailed_fails {delay : Bool} : (c.bringupFailed p delay).trk[p].fails = c.trk[p].fails + 1 := by
  have htrain : ((c.modTrk p fun t => { t with fails := c.trk[p].fails + 1 }).lanesTrain p).trk[p].fails = c.trk[p].fails + 1 := by
    rw [lanesTrain_trk, chip_modTrk_trk, upd_same]
  fun_cases Chip.bringupFailed
  · rw [chip_modTrk_trk, upd_same]; exact htrain
  · rw [chip_modTrk_trk, upd_same]; exact htrain
  · rw [startBringup_trk, upd_same]; exact htrain

theorem bringupFailed_lnk {delay : Bool} : (c.bringupFailed p delay).lnk = c.lnk := by
  have htrain : ((c.modTrk p fun t => { t with fails := c.trk[p].fails + 1 }).lanesTrain p).lnk = c.lnk := lanesTrain_lnk
  fun_cases Chip.bringupFailed
  · exact htrain
  · exact htrain
  · exact startBringup_lnk.trans htrain

theorem Chip.Spares.bringupFailed {delay : Bool} (h : c.Spares fs d) (hs : bringupFields p ⊆ fs) :
    c.Spares fs (d.bringupFailed p delay) := by
  have hphase := (phase_ok_mem p).imp_right (hs ·)
  fun_cases Chip.bringupFailed
  · exact ((h.modTrk.lanesTrain hs).put hphase).modTrk
  · exact ((h.modTrk.lanesTrain hs).put hphase).modTrk
  · exact (h.modTrk.lanesTrain hs).startBringup hs

end

/-- What holds of port `p` after an effect on each of the trunk ports, where it is the port's own effect that brings it. -/
theorem each_ports_sees {R G : Chip → Prop} {f : Port → Chip → Chip} {c : Chip} (p : Port) (hR : R c)
    (hother : ∀ {q d}, q ≠ p → R d → R (f q d)) (hown : ∀ {d}, R d → G (f p d)) (hkept : ∀ {q d}, q ≠ p → G d → G (f q d)) :
    G (c.each ports f) := by
  rw [each_ports]
  match p with
  | 0 => exact hkept (by decide) (hkept (by decide) (hown hR))
  | 1 => exact hkept (by decide) (hown (hother (by decide) hR))
  | 2 => exact hown (hother (by decide) (hother (by decide) hR))

end Sys2Proof.Machine
end

section
/-! Blocks going out of the PCS (02 R35 to R41): what they leave true. -/

namespace Sys2Proof.Machine

/-- A fact about the core die that outlives an output, and a change of the port's PCS other than of its lane changes. -/
structure PcsSteady (p : Port) (P : Chip → Prop) : Prop where
  emit : ∀ {c : Chip} {o : Out}, P c → P (c.emit o)
  pcs : ∀ {c : Chip} {f : Pcs → Pcs}, (∀ x, (f x).change = x.change ∧ (f x).rxChange = x.rxChange) → P c → P (c.modPcs p f)

/-- A fact about the core die that blocks going out on a port leave true: it outlives a change of the lanes that falls due as well. -/
structure PcsStable (p : Port) (P : Chip → Prop) : Prop extends PcsSteady p P where
  due : ∀ {c : Chip}, P c → P (c.laneChangeDue p)

section
variable {p : Port} {P : Chip → Prop} {c : Chip}

theorem PcsSteady.codeword {l : LaneId} (hP : PcsSteady p P) (h : P c) : P (c.pcsCodeword p l) := by
  fun_cases Chip.pcsCodeword
  · exact h
  · exact hP.pcs (fun _ => ⟨rfl, rfl⟩) (hP.emit h)

theorem PcsSteady.sideCodeword {l : LaneId} {b : Block} (hP : PcsSteady p P) (h : P c) : P (c.sideCodeword p l b) := by
  unfold Chip.sideCodeword
  exact hP.codeword (hP.pcs (fun _ => ⟨rfl, rfl⟩) (chip_each_keeps P _ _ c h fun _ _ => hP.emit))

theorem PcsStable.blockOut {b : Block} (hP : PcsStable p P) (h : P c) : P (c.blockOut p b) := by
  unfold Chip.blockOut
  exact hP.due (hP.codeword (hP.pcs (fun _ => ⟨rfl, rfl⟩) (hP.pcs (fun _ => ⟨rfl, rfl⟩) (hP.emit h))))

theorem PcsStable.send {b : Block} (hP : PcsStable p P) (h : P c) : P (c.pcsSend p b) := by
  unfold Chip.pcsSend
  split
  · exact h
  · split
    · exact hP.pcs (fun _ => ⟨rfl, rfl⟩) h
    · exact hP.blockOut h

theorem PcsStable.sendAll {l : List Block} (hP : PcsStable p P) (h : P c) : P (c.each l (Chip.pcsSend p)) :=
  chip_each_keeps P l _ c h fun _ _ => hP.send

theorem PcsStable.filler (hP : PcsStable p P) (h : P c) : P (c.pcsFiller p) := by
  unfold Chip.pcsFiller
  split
  · exact h
  · exact hP.blockOut h

theorem PcsStable.fill {n : Nat} (hP : PcsStable p P) (h : P c) : P (c.pcsFill p n) := by
  induction n generalizing c with
  | zero => exact h
  | succ n ih => exact ih (hP.filler h)

theorem PcsStable.fillGroup (hP : PcsStable p P) (h : P c) : P (c.fillGroup p) := hP.fill h

theorem PcsStable.flush (hP : PcsStable p P) (h : P c) : P (c.pcsFlush p) := hP.sendAll (hP.pcs (fun _ => ⟨rfl, rfl⟩) h)

end

/-! With no change of the lanes announced, blocks going out write no register. -/

/-- No change of the port's lanes is announced, and the registers are `r`. -/
def Chip.Unchanging (p : Port) (r : RegFile) (c : Chip) : Prop := c.pcs[p].change = none ∧ c.regs = r

theorem unchanging_stable (p : Port) (r : RegFile) : PcsStable p (Chip.Unchanging p r) where
  emit h := h
  pcs hf h := ⟨by rw [chip_modPcs_pcs, upd_same, (hf _).1, h.1], h.2⟩
  due h := by
    unfold Chip.laneChangeDue
    rw [h.1]
    exact h

theorem moveKeSpan_writes {c : Chip} {p : Port} {t : Trk} : c.Writes [F.LNK_KE_SPAN p] (c.moveKeSpan p t) := by
  have hfield : (F.LNK_KE_SPAN p).ok = true ∧ F.LNK_KE_SPAN p ∈ [F.LNK_KE_SPAN p] := by clear t; decide +revert
  unfold Chip.moveKeSpan
  exact Chip.Writes.refl.when fun h => h.put hfield

/-- The markers of a span: a scheduled key epoch may move, the shift engine goes on, and the two copies go out. -/
theorem sendMarkers_eq (c : Chip) (p : Port) :
    ∃ t t' copies, c.sendMarkers p = ((c.moveKeSpan p t).modTrk p fun _ => t').each copies (Chip.pcsSend p) :=
  ⟨_, _, _, rfl⟩

theorem sendMarkers_spares {c : Chip} {p : Port} (h : c.pcs[p].change = none) : c.Spares [F.LNK_KE_SPAN p] (c.sendMarkers p) := by
  obtain ⟨t, t', copies, heq⟩ := sendMarkers_eq c p
  have hmove : c.Writes [F.LNK_KE_SPAN p] (c.moveKeSpan p t) := moveKeSpan_writes
  have hstart : ((c.moveKeSpan p t).modTrk p fun _ => t').Unchanging p (c.moveKeSpan p t).regs :=
    ⟨by rw [chip_modTrk_pcs, hmove.pcs]; exact h, rfl⟩
  rw [heq]
  exact (Chip.Spares.of_writes hmove).trans (.of_regs ((unchanging_stable p _).sendAll hstart).2)

end Sys2Proof.Machine
end

section
/-! Bring-up of a trunk port: each stage follows the one before it (02 R46 to R49). -/

namespace Sys2Proof.Proofs

open Machine Safety

/-- Fields that the start of bring-up on one port leaves on another. -/
theorem startBringup_other {d : Chip} {p q : Port} (h : q ≠ p) :
    (d.startBringup q).get (F.TRK_STATUS_PHASE p) = d.get (F.TRK_STATUS_PHASE p) ∧ (d.startBringup q).on (F.TRK_CTL_EN p) = d.on (F.TRK_CTL_EN p) ∧
      (d.startBringup q).on (F.TRK_CTL_TEST_MODE p) = d.on (F.TRK_CTL_TEST_MODE p) ∧ (d.startBringup q).trk[p] = d.trk[p] := by
  have hspares : d.Spares (bringupFields q) (d.startBringup q) := Chip.Spares.refl.startBringup (List.Subset.refl _)
  have hfields : (F.TRK_STATUS_PHASE p).besides (bringupFields q) = true ∧ (F.TRK_CTL_EN p).besides (bringupFields q) = true ∧
      (F.TRK_CTL_TEST_MODE p).besides (bringupFields q) = true := by
    clear hspares; decide +revert
  obtain ⟨hphase, hen, htest⟩ := hfields
  exact ⟨hspares.get hphase, hspares.on hen, hspares.on htest, by rw [startBringup_trk, upd_other _ _ h]⟩

theorem bringupStart_starts {s : State} (hrun : s.hub.chip.running = true) : ∃ t, exec .bringupStart s = .next t ∧ coreOnly s t ∧
    (∀ p : Port, s.hub.chip.on (F.TRK_CTL_EN p) = true → s.hub.chip.on (F.TRK_CTL_TEST_MODE p) = false →
      s.hub.chip.get (F.TRK_STATUS_PHASE p) = phaseOff →
      t.hub.chip.get (F.TRK_STATUS_PHASE p) = phaseEcho ∧ t.hub.chip.trk[p].training = true) := by
  show ∃ t, execBringupStart s = .next t ∧ _
  unfold execBringupStart
  refine onChip_when_runs hrun fun d hd p hen htest hphase => ?_
  simp (disch := (clear * -; decide +revert)) only [get_after, after_trk]
  rw [hd]
  refine each_ports_sees (R := fun d => d.on (F.TRK_CTL_EN p) = true ∧ d.on (F.TRK_CTL_TEST_MODE p) = false ∧ d.get (F.TRK_STATUS_PHASE p) = phaseOff)
    (G := fun d => d.get (F.TRK_STATUS_PHASE p) = phaseEcho ∧ d.trk[p].training = true) p ⟨hen, htest, hphase⟩ ?_ ?_ ?_
  · rintro q d hq ⟨hen, htest, hphase⟩
    obtain ⟨hphase', hen', htest', -⟩ := startBringup_other (d := d) hq
    unfold Chip.when
    split
    · exact ⟨hen'.trans hen, htest'.trans htest, hphase'.trans hphase⟩
    · exact ⟨hen, htest, hphase⟩
  · rintro d ⟨hen, htest, hphase⟩
    rw [show (d.on (F.TRK_CTL_EN p) && !d.on (F.TRK_CTL_TEST_MODE p) && d.get (F.TRK_STATUS_PHASE p) == phaseOff) = true by simp [hen, htest, hphase]]
    exact ⟨startBringup_phase, by rw [Chip.when, if_pos rfl, startBringup_trk, upd_same]⟩
  · rintro q d hq ⟨hphase, htrain⟩
    obtain ⟨hphase', -, -, htrk⟩ := startBringup_other (d := d) hq
    unfold Chip.when
    split
    · exact ⟨hphase'.trans hphase, by rw [htrk]; exact htrain⟩
    · exact ⟨hphase, htrain⟩

theorem echoTrainingEnd_acquires {s : State} {p : Port} (hphase : s.hub.chip.get (F.TRK_STATUS_PHASE p) = phaseEcho) :
    ∃ t, exec (.echoTrainingEnd p) s = .next t ∧ registersOnly s t ∧ t.hub.chip.get (F.TRK_STATUS_PHASE p) = phaseAcquire ∧
      wordsKept [(F.TRK_STATUS p).off] s t := by
  show ∃ t, execEchoTrainingEnd p s = .next t ∧ _
  unfold execEchoTrainingEnd
  refine onChip_runs_registers (d := s.hub.chip.put (F.TRK_STATUS_PHASE p) phaseAcquire) (by rw [hphase]; rfl) rfl
    ⟨?_, wordsKept_after (.put .refl ?_)⟩
  · simp (disch := (clear * -; decide +revert)) only [get_after, get_put_of_lt]
  · exact List.mem_singleton_self _

end Sys2Proof.Proofs
end

section
/-! The handshake (02 R42, R46, R48). -/

namespace Sys2Proof.Proofs

open Machine Safety

theorem unsigned_lt (w : Nat) (v : Int) : unsigned w v < 2 ^ w := by
  have hpos : (0 : Int) < 2 ^ w := by positivity
  have hlt : v % 2 ^ w < 2 ^ w := Int.emod_lt_of_pos v hpos
  have hcast : ((2 ^ w : Nat) : Int) = 2 ^ w := by push_cast; rfl
  unfold unsigned
  omega

/-- The fields of a lane that show its receiver. -/
def receiverFields (p : Port) : List Field := [laneRxLock p 0, laneLos p 0, laneRxLock p 1, laneLos p 1]

theorem receiverField_ok_mem (p : Port) (l : LaneId) : ((laneRxLock p l).ok = true ∧ laneRxLock p l ∈ receiverFields p) ∧
    (laneLos p l).ok = true ∧ laneLos p l ∈ receiverFields p := by
  decide +revert

theorem receiverField_off_mem (p : Port) (l : LaneId) : (laneRxLock p l).off ∈ [(F.TRK_LANE_A p).off, (F.TRK_LANE_B p).off] ∧
    (laneLos p l).off ∈ [(F.TRK_LANE_A p).off, (F.TRK_LANE_B p).off] := by
  decide +revert

theorem ownHello_of_writes {c d : Chip} {p : Port} {fs : List Field} (h : c.Writes fs d)
    (hfs : (fs.all (F.TRK_CTL_STEP_MAX p).apart && fs.all (F.TRK_CTL_SINGLE_LANE_EN p).apart && fs.all (F.TRK_CTL_QUIET_EN p).apart &&
      fs.all (F.TRK_CTL_PRECODE p).apart && fs.all F.GLB_SERIAL_HI.apart && fs.all F.GLB_SERIAL_LO.apart) = true) :
    d.ownHello p = c.ownHello p := by
  simp only [Bool.and_eq_true] at hfs
  obtain ⟨⟨⟨⟨⟨hstep, hsingle⟩, hquiet⟩, hprecode⟩, hhi⟩, hlo⟩ := hfs
  simp only [Chip.ownHello, Chip.serial, Chip.on, h.get hstep, h.get hsingle, h.get hquiet, h.get hprecode, h.get hhi, h.get hlo]

/-- The receivers of the lanes that take part have locked. -/
def Chip.receiversLock (p : Port) (c : Chip) : Chip :=
  c.each lanes fun l c => c.when (!c.laneOut p l) fun c => (c.put (laneRxLock p l) 1).put (laneLos p l) 0

theorem receiversLock_writes (c : Chip) (p : Port) : c.Writes (receiverFields p) (Chip.receiversLock p c) :=
  Chip.Writes.refl.each fun h => h.when fun h => (h.put (receiverField_ok_mem p _).1).put (receiverField_ok_mem p _).2

/-- The core die with the partner acquired, but for its half of the handshake. -/
def Chip.acquired (p : Port) (ppm : Int) (c : Chip) : Chip :=
  Chip.receiversLock p ((c.put (F.TRK_STATUS_PHASE p) phaseHandshake).showPpm p ppm)

theorem acquired_phase (c : Chip) (p : Port) (ppm : Int) : (Chip.acquired p ppm c).get (F.TRK_STATUS_PHASE p) = phaseHandshake := by
  rw [Chip.acquired]
  simp (disch := (clear * -; decide +revert)) only [(receiversLock_writes _ p).get, Chip.showPpm, Chip.putS, chip_get_put_apart,
    chip_get_modTrk, get_put_of_lt]

theorem acquired_ppm (c : Chip) (p : Port) (ppm : Int) :
    (Chip.acquired p ppm c).get (F.TRK_STATUS_PPM p) = unsigned 10 (max (-512) (min 511 ppm)) := by
  rw [Chip.acquired]
  simp (disch := (clear * -; decide +revert)) only [(receiversLock_writes _ p).get, Chip.showPpm, Chip.putS, chip_get_put]
  exact Nat.mod_eq_of_lt (unsigned_lt 10 _)

theorem acquired_trk (c : Chip) (p : Port) (ppm : Int) : (Chip.acquired p ppm c).trk = upd c.trk p fun t => { t with ppm := ppm } := by
  rw [Chip.acquired, (receiversLock_writes _ p).trk, Chip.showPpm, Chip.putS, chip_put_trk, chip_modTrk_trk, chip_put_trk]

theorem acquired_outbox (c : Chip) (p : Port) (ppm : Int) : (Chip.acquired p ppm c).outbox = c.outbox := by
  rw [Chip.acquired, (receiversLock_writes _ p).outbox, Chip.showPpm, Chip.putS, chip_put_outbox, chip_modTrk_outbox, chip_put_outbox]

theorem acquired_ownHello (c : Chip) (p : Port) (ppm : Int) : (Chip.acquired p ppm c).ownHello p = c.ownHello p := by
  have hlock : (Chip.acquired p ppm c).ownHello p = ((c.put (F.TRK_STATUS_PHASE p) phaseHandshake).showPpm p ppm).ownHello p :=
    ownHello_of_writes (receiversLock_writes _ p) (by clear ppm; decide +revert)
  rw [hlock]
  simp (disch := (clear * -; decide +revert)) only [Chip.ownHello, Chip.serial, Chip.on, Chip.showPpm, Chip.putS, chip_get_put_apart, chip_get_modTrk]

theorem acquired_wordsKept (c : Chip) (p : Port) (ppm : Int) :
    c.WordsKept [(F.TRK_STATUS p).off, (F.TRK_LANE_A p).off, (F.TRK_LANE_B p).off] (Chip.acquired p ppm c) := by
  rw [Chip.acquired, Chip.receiversLock]
  have hshown : c.WordsKept [(F.TRK_STATUS p).off, (F.TRK_LANE_A p).off, (F.TRK_LANE_B p).off]
      ((c.put (F.TRK_STATUS_PHASE p) phaseHandshake).showPpm p ppm) :=
    by
    rw [Chip.showPpm, Chip.putS]
    refine .put (.modTrk (.put .refl ?_)) ?_
    all_goals exact List.mem_cons_self
  exact hshown.each fun h => h.when fun h =>
    (h.put (List.mem_cons_of_mem _ (receiverField_off_mem p _).1)).put (List.mem_cons_of_mem _ (receiverField_off_mem p _).2)

theorem partnerAcquired_shakes {s : State} {p : Port} {ppm : Int} (hphase : s.hub.chip.get (F.TRK_STATUS_PHASE p) = phaseAcquire) :
    ∃ t, exec (.partnerAcquired p ppm) s = .next t ∧ coreOnly s t ∧ t.hub.chip.get (F.TRK_STATUS_PHASE p) = phaseHandshake ∧
      t.hub.chip.get (F.TRK_STATUS_PPM p) = unsigned 10 (max (-512) (min 511 ppm)) ∧
      t.hub.chip.trk[p] = { s.hub.chip.trk[p] with ppm := ppm, sentPrecode := (s.hub.chip.ownHello p).precode } ∧
      t.hub.chip.outbox = s.hub.chip.outbox ++ [Out.hello p (s.hub.chip.ownHello p)] ∧
      wordsKept [(F.TRK_STATUS p).off, (F.TRK_LANE_A p).off, (F.TRK_LANE_B p).off] s t := by
  show ∃ t, execPartnerAcquired p ppm s = .next t ∧ _
  unfold execPartnerAcquired
  refine onChip_when_runs (beq_iff_eq.mpr hphase) fun d hd => ?_
  have hacq : ∃ a, a = Chip.acquired p ppm s.hub.chip ∧ d = (a.modTrk p fun t => { t with sentPrecode := (a.ownHello p).precode }).emit
      (.hello p (a.ownHello p)) := ⟨_, rfl, by rw [Chip.acquired, Chip.receiversLock]; exact hd⟩
  clear hd
  obtain ⟨a, ha, hd⟩ := hacq
  have hhello : a.ownHello p = s.hub.chip.ownHello p := by rw [ha, acquired_ownHello]
  have htrk : a.trk = upd s.hub.chip.trk p fun t => { t with ppm := ppm } := by rw [ha, acquired_trk]
  have houtbox : a.outbox = s.hub.chip.outbox := by rw [ha, acquired_outbox]
  have hkept : s.hub.chip.WordsKept [(F.TRK_STATUS p).off, (F.TRK_LANE_A p).off, (F.TRK_LANE_B p).off] d := by
    rw [hd, ha]; exact (acquired_wordsKept _ p ppm).modTrk.emit
  simp (disch := (clear * -; decide +revert)) only [get_after, after_trk, after_outbox]
  refine ⟨?_, ?_, ?_, ?_, wordsKept_after hkept⟩
  · rw [hd, chip_get_emit, chip_get_modTrk, ha, acquired_phase]
  · rw [hd, chip_get_emit, chip_get_modTrk, ha, acquired_ppm]
  · simp only [hd, chip_emit_trk, chip_modTrk_trk, htrk, upd_same, hhello]
  · rw [hd, chip_emit_outbox, chip_modTrk_outbox, houtbox, hhello]

end Sys2Proof.Proofs
end

section
/-! The link comes up (02 R46 event 8). -/

namespace Sys2Proof.Proofs

open Machine Safety

/-- The registers of a link that comes up with a lane code, as far as the lanes and their handshake go. -/
def Chip.linkShown (p : Port) (h : PartnerHello) (tx : Nat) (c : Chip) : Chip :=
  let c := c.put (F.TRK_PARTNER_LO p) (h.serial.toNat % 2 ^ 32)
  let c := c.put (F.TRK_PARTNER_HI p) (h.serial.toNat / 2 ^ 32)
  let c := c.put (F.TRK_PARTNER_CAP_STEP_MAX p) h.stepMax.toNat
  let c := c.put (F.TRK_PARTNER_CAP_SINGLE_LANE_EN p) h.singleLane.toNat
  let c := c.put (F.TRK_PARTNER_CAP_QUIET_EN p) h.quiet.toNat
  let c := c.put (F.TRK_PARTNER_CAP_PRECODE p) h.precode.toNat
  let c := c.put (F.TRK_STATUS_PARTNER_CAP p) h.stepMax.toNat
  let c := c.put (F.TRK_STATUS_STEP p) 1
  let c := c.put (F.TRK_STATUS_LINK_UP p) 1
  let c := c.put (F.TRK_STATUS_LANES p) (lanesShown tx)
  let c := c.put (F.TRK_STATUS_PHASE p) phaseProbe
  let c := c.put (F.TRK_STATUS_PRECODE_ON p) (h.precode.getLsbD 0).toNat
  let c := c.each lanes fun l c => c.when (!c.laneOut p l) fun c => c.put (laneState p l) laneActive
  (c.flag (F.TRK_INT_STATUS_LINK_UP p)).put (F.TRK_SPAN p) 0

/-- What a link that has come up shows in the registers. -/
structure Chip.ShowsLink (p : Port) (h : PartnerHello) (c : Chip) : Prop where
  up : c.get (F.TRK_STATUS_LINK_UP p) = 1
  step : c.get (F.TRK_STATUS_STEP p) = 1
  phase : c.get (F.TRK_STATUS_PHASE p) = phaseProbe
  event : c.get (F.TRK_INT_STATUS_LINK_UP p) = 1
  lanes : c.get (F.TRK_STATUS_LANES p) = 3
  stepMax : c.get (F.TRK_PARTNER_CAP_STEP_MAX p) = h.stepMax.toNat

theorem linkShown_shows (c : Chip) (p : Port) (h : PartnerHello) : Chip.ShowsLink p h (Chip.linkShown p h 0 c) := by
  have hstep : h.stepMax.toNat % 2 ^ (F.TRK_PARTNER_CAP_STEP_MAX p).width = h.stepMax.toNat := Nat.mod_eq_of_lt h.stepMax.isLt
  rw [Chip.linkShown]
  constructor
  all_goals simp (disch := (clear * -; decide +revert)) only [each_lanes, get_when, chip_get_put_apart, chip_get_flag_apart, get_flag_same,
    get_put_of_lt, chip_get_put, ite_self, hstep, lanesShown, if_pos]

/-- The fields that the link layer's own reset and the first markers write. -/
def linkResetFields (p : Port) : List Field :=
  [F.LNK_KE_SPAN p, F.LNK_STATUS_TX_NEXT p, F.LNK_STATUS_TX_ACKED p, F.LNK_RX_EXPECT p, F.LNK_RX_BUF_WORDS p]

theorem Chip.ShowsLink.of_spares {c d : Chip} {p : Port} {h : PartnerHello} (hc : Chip.ShowsLink p h c)
    (hs : c.Spares (linkResetFields p) d) : Chip.ShowsLink p h d := by
  obtain ⟨hup, hstep, hphase, hevent, hlanes, hmax⟩ := hc
  have hget : ∀ {g : Field} {v : Nat}, c.get g = v → g.besides (linkResetFields p) = true → d.get g = v := fun h hg => (hs.get hg).trans h
  constructor
  · exact hget hup (by clear * -; decide +revert)
  · exact hget hstep (by clear * -; decide +revert)
  · exact hget hphase (by clear * -; decide +revert)
  · exact hget hevent (by clear * -; decide +revert)
  · exact hget hlanes (by clear * -; decide +revert)
  · exact hget hmax (by clear * -; decide +revert)

theorem linkReset_spares (c : Chip) (p : Port) : c.Spares (linkResetFields p) (c.linkReset p) := by
  have hok : ∀ f ∈ linkResetFields p, f.ok = true := by clear c; decide +revert
  rw [Chip.linkReset]
  refine .modLnk (.put (.put (.put (.put .refl ?_) ?_) ?_) ?_)
  all_goals exact ⟨hok _ (by simp [linkResetFields]), by simp [linkResetFields]⟩

theorem linkReset_spaces (c : Chip) (p : Port) :
    (c.linkReset p).get (F.LNK_STATUS_TX_NEXT p) = 0 ∧ (c.linkReset p).get (F.LNK_RX_EXPECT p) = 0 := by
  have hreset : ∃ (a : Chip) (f : Lnk → Lnk), a.get (F.LNK_STATUS_TX_NEXT p) = 0 ∧ a.get (F.LNK_RX_EXPECT p) = 0 ∧ c.linkReset p = a.modLnk p f := by
    refine ⟨(((c.put (F.LNK_STATUS_TX_NEXT p) 0).put (F.LNK_STATUS_TX_ACKED p) 0xFFF).put (F.LNK_RX_EXPECT p) 0).put (F.LNK_RX_BUF_WORDS p) 0,
      ?_, ?_, ?_, by rw [Chip.linkReset]⟩
    all_goals simp (disch := (clear * -; decide +revert)) only [chip_get_put_apart, get_put_of_lt]
  obtain ⟨a, f, hnext, hexpect, heq⟩ := hreset
  rw [heq, chip_get_modLnk, chip_get_modLnk]
  exact ⟨hnext, hexpect⟩

theorem linkReset_pcs (c : Chip) (p : Port) : (c.linkReset p).pcs = c.pcs := by
  rw [Chip.linkReset, chip_modLnk_pcs, chip_put_pcs, chip_put_pcs, chip_put_pcs, chip_put_pcs]

/-- A link that comes up: the registers of its lanes, its engines at their start, its sequence spaces reset, its alarms ended and its first
markers sent. -/
theorem linkUp_eq (c : Chip) (p : Port) (h : PartnerHello) (hA : c.laneOut p 0 = false) (hB : c.laneOut p 1 = false) :
    ∃ a b : Chip, a.pcs[p].change = none ∧ Chip.ShowsLink p h a ∧ (a.linkReset p).SameTrunk b ∧ c.linkUp p h = b.sendMarkers p := by
  have hshown : ∃ (a : Chip) (f : Trk → Trk) (g : Pcs → Pcs), Chip.ShowsLink p h a ∧ (∀ x, (g x).change = none) ∧
      c.linkUp p h = (let c := ((a.modTrk p f).modPcs p g).linkReset p
        ((c.when (c.alarmStands 0x10 p.val) fun c => c.raiseLink p 0x10 0 true).partnerBack p).sendMarkers p) := by
    refine ⟨_, ?_, ?_, linkShown_shows c p h, ?engine, ?eq⟩
    case eq =>
      rw [Chip.linkUp, Chip.linkShown, hA, hB]
      rfl
    case engine => exact fun _ => rfl
  obtain ⟨a, f, g, ha, hg, heq⟩ := hshown
  refine ⟨(a.modTrk p f).modPcs p g, _, ?_, ?_, ?_, heq⟩
  · rw [chip_modPcs_pcs, upd_same, hg]
  · exact ha.of_spares (Chip.Spares.refl.modTrk.modPcs)
  · exact (Chip.SameTrunk.when .refl fun h => h.raise).clearAbout.clearAbout

theorem linkUp_shows (c : Chip) (p : Port) (h : PartnerHello) (hA : c.laneOut p 0 = false) (hB : c.laneOut p 1 = false) :
    Chip.ShowsLink p h (c.linkUp p h) ∧ (c.linkUp p h).get (F.LNK_STATUS_TX_NEXT p) = 0 ∧ (c.linkUp p h).get (F.LNK_RX_EXPECT p) = 0 := by
  obtain ⟨a, b, hchange, hshows, hsame, heq⟩ := linkUp_eq c p h hA hB
  obtain ⟨hnext, hexpect⟩ := linkReset_spaces a p
  have hmarkers : b.Spares [F.LNK_KE_SPAN p] (b.sendMarkers p) := sendMarkers_spares (by rw [hsame.pcs, linkReset_pcs]; exact hchange)
  have hfrom : (a.linkReset p).Spares [F.LNK_KE_SPAN p] (b.sendMarkers p) := (Chip.Spares.of_sameTrunk hsame).trans hmarkers
  have hlink : Chip.ShowsLink p h (a.linkReset p) := hshows.of_spares (linkReset_spares a p)
  rw [heq]
  exact ⟨hlink.of_spares (hfrom.mono (by simp [linkResetFields])), (hfrom.get (by clear * -; decide +revert)).trans hnext,
    (hfrom.get (by clear * -; decide +revert)).trans hexpect⟩

end Sys2Proof.Proofs
end

section
/-! The handshake, listening and the waits of bring-up (02 R42, R46 to R49). -/

namespace Sys2Proof.Proofs

open Machine Safety

theorem handshake_linksUp {s : State} {p : Port} {h : PartnerHello} (hphase : s.hub.chip.get (F.TRK_STATUS_PHASE p) = phaseHandshake)
    (hppm : s.hub.chip.trk[p].ppm.natAbs ≤ 250) (hserial : h.serial.toNat ≠ s.hub.chip.serial) (hA : s.hub.chip.laneOut p 0 = false)
    (hB : s.hub.chip.laneOut p 1 = false) :
    ∃ t, exec (.handshake p h) s = .next t ∧ coreOnly s t ∧ t.hub.chip.get (F.TRK_STATUS_LINK_UP p) = 1 ∧
      t.hub.chip.get (F.TRK_STATUS_STEP p) = 1 ∧ t.hub.chip.get (F.TRK_STATUS_PHASE p) = phaseProbe ∧
      t.hub.chip.get (F.TRK_INT_STATUS_LINK_UP p) = 1 ∧ t.hub.chip.get (F.TRK_STATUS_LANES p) = 3 ∧
      t.hub.chip.get (F.TRK_PARTNER_CAP_STEP_MAX p) = h.stepMax.toNat ∧ t.hub.chip.get (F.LNK_STATUS_TX_NEXT p) = 0 ∧
      t.hub.chip.get (F.LNK_RX_EXPECT p) = 0 := by
  have hheld : (s.hub.chip.laneHeld p 0 || s.hub.chip.laneHeld p 1) = false := by
    rw [(Bool.or_eq_false_iff.mp hA).2, (Bool.or_eq_false_iff.mp hB).2]; rfl
  show ∃ t, execHandshake p h s = .next t ∧ _
  unfold execHandshake
  refine onChip_when_runs (beq_iff_eq.mpr hphase) fun d hd => ?_
  rw [if_neg (by omega), if_neg hserial, hheld] at hd
  replace hd : d = s.hub.chip.linkUp p h := hd
  obtain ⟨⟨hup, hstep, hphase, hevent, hlanes, hmax⟩, hnext, hexpect⟩ := linkUp_shows s.hub.chip p h hA hB
  simp (disch := (clear * -; decide +revert)) only [get_after]
  rw [hd]
  exact ⟨hup, hstep, hphase, hevent, hlanes, hmax, hnext, hexpect⟩

theorem refuseLink_refuses (c : Chip) (p : Port) : (c.refuseLink p).get (F.TRK_INT_STATUS_PROTOCOL p) = 1 ∧
    (c.refuseLink p).get (F.TRK_STATUS_LINK_UP p) = c.get (F.TRK_STATUS_LINK_UP p) ∧ (c.refuseLink p).trk[p].fails = c.trk[p].fails + 1 := by
  have hspares : (c.flag (F.TRK_INT_STATUS_PROTOCOL p)).Spares (bringupFields p) (c.refuseLink p) :=
    Chip.Spares.refl.bringupFailed (List.Subset.refl _)
  refine ⟨(hspares.get (by clear hspares; decide +revert)).trans ?_, (hspares.get (by clear hspares; decide +revert)).trans ?_, ?_⟩
  · simp (disch := (clear * -; decide +revert)) only [get_flag_same]
  · simp (disch := (clear * -; decide +revert)) only [chip_get_flag_apart]
  · rw [Chip.refuseLink, bringupFailed_fails, chip_flag_trk]

theorem handshake_refuses {s : State} {p : Port} {h : PartnerHello} (hphase : s.hub.chip.get (F.TRK_STATUS_PHASE p) = phaseHandshake)
    (hbad : 250 < s.hub.chip.trk[p].ppm.natAbs ∨ h.serial.toNat = s.hub.chip.serial) :
    ∃ t, exec (.handshake p h) s = .next t ∧ coreOnly s t ∧ t.hub.chip.get (F.TRK_INT_STATUS_PROTOCOL p) = 1 ∧
      t.hub.chip.get (F.TRK_STATUS_LINK_UP p) = s.hub.chip.get (F.TRK_STATUS_LINK_UP p) ∧
      t.hub.chip.trk[p].fails = s.hub.chip.trk[p].fails + 1 := by
  show ∃ t, execHandshake p h s = .next t ∧ _
  unfold execHandshake
  refine onChip_when_runs (beq_iff_eq.mpr hphase) fun d hd => ?_
  replace hd : d = s.hub.chip.refuseLink p := by
    by_cases hppm : s.hub.chip.trk[p].ppm.natAbs > 250
    · rw [hd, if_pos hppm]
    · rw [hd, if_neg hppm, if_pos (hbad.resolve_left hppm)]
  simp (disch := (clear * -; decide +revert)) only [get_after, after_trk]
  rw [hd]
  exact refuseLink_refuses _ p

theorem listenBurst_bursts {s : State} {p : Port} (hphase : s.hub.chip.get (F.TRK_STATUS_PHASE p) = phaseListen) :
    ∃ t, exec (.listenBurst p) s = .next t ∧ coreOnly s t ∧ t.hub.chip.outbox = s.hub.chip.outbox ++ [Out.prbs p true] ∧
      wordsKept [] s t := by
  show ∃ t, execListenBurst p s = .next t ∧ _
  unfold execListenBurst
  refine onChip_when_runs (beq_iff_eq.mpr hphase) fun d hd => ?_
  simp only [after_outbox]
  rw [hd]
  exact ⟨chip_emit_outbox _ _, wordsKept_after Chip.WordsKept.refl.emit⟩

theorem partnerEnergy_waits {s : State} {p : Port} {ms : Nat} (hwait : s.hub.chip.trk[p].wait = .sixtySeconds) (hms : ms < 100) :
    ∃ t, exec (.partnerEnergy p ms) s = .next t ∧ registersOnly s t ∧ wordsKept [] s t := by
  show ∃ t, execPartnerEnergy p ms s = .next t ∧ _
  unfold execPartnerEnergy
  refine onChip_runs_registers (d := s.hub.chip) ?_ rfl (wordsKept_after .refl)
  simp only [hwait, hms, Chip.when]
  simp

theorem backoffExpiry_starts {s : State} {p : Port} (hwait : s.hub.chip.trk[p].wait ≠ .none) (hen : s.hub.chip.on (F.TRK_CTL_EN p) = true) :
    ∃ t, exec (.bringupBackoffExpiry p) s = .next t ∧ coreOnly s t ∧ t.hub.chip.get (F.TRK_STATUS_PHASE p) = phaseEcho ∧
      t.hub.chip.trk[p].wait = .none ∧ t.hub.chip.outbox = s.hub.chip.outbox ++ [Out.prbs p false] := by
  show ∃ t, execBringupBackoffExpiry p s = .next t ∧ _
  unfold execBringupBackoffExpiry
  refine onChip_when_runs (by simpa [hen] using hwait) fun d hd => ?_
  simp (disch := (clear * -; decide +revert)) only [get_after, after_trk, after_outbox]
  rw [hd]
  exact ⟨startBringup_phase, by simp only [startBringup_trk, upd_same], startBringup_outbox⟩

theorem partnerEnergy_acquires {s : State} {p : Port} {ms : Nat} (hphase : s.hub.chip.get (F.TRK_STATUS_PHASE p) = phaseListen)
    (hwait : s.hub.chip.trk[p].wait ≠ .sixtySeconds ∨ 100 ≤ ms) :
    ∃ t, exec (.partnerEnergy p ms) s = .next t ∧ coreOnly s t ∧ t.hub.chip.get (F.TRK_STATUS_PHASE p) = phaseAcquire ∧
      t.hub.chip.outbox = s.hub.chip.outbox ++ [Out.prbs p false] ∧
      t.hub.chip.trk[p] = { s.hub.chip.trk[p] with training := true, wait := .none } ∧
      wordsKept [(F.TRK_STATUS p).off, (F.TRK_LANE_A p).off, (F.TRK_LANE_B p).off] s t := by
  have hends : (s.hub.chip.get (F.TRK_STATUS_PHASE p) == phaseListen && !(s.hub.chip.trk[p].wait == .sixtySeconds && decide (ms < 100))) = true := by
    rcases hwait with h | h
    · rw [hphase, beq_false_of_ne h]; rfl
    · rw [hphase, decide_eq_false (Nat.not_lt.mpr h), Bool.and_false]; rfl
  show ∃ t, execPartnerEnergy p ms s = .next t ∧ _
  unfold execPartnerEnergy
  refine onChip_runs fun d hd => ?_
  have htrained : ∃ a, a = (s.hub.chip.put (F.TRK_STATUS_PHASE p) phaseAcquire).lanesTrain p ∧
      d = (a.emit (.prbs p false)).modTrk p fun t => { t with training := true, wait := .none } :=
    ⟨_, rfl, hd.trans (when_pos hends)⟩
  clear hd
  obtain ⟨a, ha, hd⟩ := htrained
  have hphase' : a.get (F.TRK_STATUS_PHASE p) = phaseAcquire := by
    rw [ha]
    simp (disch := (clear * -; decide +revert)) only [lanesTrain_get, get_put_of_lt]
  have htrk : a.trk = s.hub.chip.trk := by rw [ha, lanesTrain_trk, chip_put_trk]
  have houtbox : a.outbox = s.hub.chip.outbox := by rw [ha, lanesTrain_outbox, chip_put_outbox]
  have hkept : s.hub.chip.WordsKept [(F.TRK_STATUS p).off, (F.TRK_LANE_A p).off, (F.TRK_LANE_B p).off] d := by
    have hlane : ∀ l : LaneId, (laneState p l).off ∈ [(F.TRK_STATUS p).off, (F.TRK_LANE_A p).off, (F.TRK_LANE_B p).off] := by
      clear * -; decide +revert
    rw [hd, ha]
    refine .modTrk (.emit (.lanesTrain (.put .refl ?_) hlane))
    exact List.mem_cons_self
  simp (disch := (clear * -; decide +revert)) only [get_after, after_trk, after_outbox]
  refine ⟨?_, ?_, ?_, wordsKept_after hkept⟩
  · rw [hd, chip_get_modTrk, chip_get_emit, hphase']
  · rw [hd, chip_modTrk_outbox, chip_emit_outbox, houtbox]
  · simp only [hd, chip_modTrk_trk, chip_emit_trk, htrk, upd_same]

/-- The receivers of both lanes have lost their signal. -/
def Chip.receiversLose (p : Port) (c : Chip) : Chip := c.each lanes fun l c => (c.put (laneRxLock p l) 0).put (laneLos p l) 1

theorem receiversLose_writes (c : Chip) (p : Port) : c.Writes (receiverFields p) (Chip.receiversLose p c) :=
  Chip.Writes.refl.each fun h => (h.put (receiverField_ok_mem p _).1).put (receiverField_ok_mem p _).2

theorem listeningEnter_listens {s : State} {p : Port}
    (hphase : s.hub.chip.get (F.TRK_STATUS_PHASE p) = phaseAcquire ∨ s.hub.chip.get (F.TRK_STATUS_PHASE p) = phaseEcho ∨
      s.hub.chip.get (F.TRK_STATUS_PHASE p) = phaseHandshake) :
    ∃ t, exec (.listeningEnter p) s = .next t ∧ coreOnly s t ∧ t.hub.chip.get (F.TRK_STATUS_PHASE p) = phaseListen ∧
      t.hub.chip.trk[p].training = false ∧
      t.hub.chip.trk[p].fails = s.hub.chip.trk[p].fails + (if s.hub.chip.get (F.TRK_STATUS_PHASE p) = phaseHandshake then 1 else 0) ∧
      wordsKept [(F.TRK_STATUS p).off, (F.TRK_LANE_A p).off, (F.TRK_LANE_B p).off] s t := by
  have htrains : (s.hub.chip.get (F.TRK_STATUS_PHASE p) == phaseAcquire || s.hub.chip.get (F.TRK_STATUS_PHASE p) == phaseEcho ||
      s.hub.chip.get (F.TRK_STATUS_PHASE p) == phaseHandshake) = true := by
    simpa [or_assoc] using hphase
  have hcount : (s.hub.chip.get (F.TRK_STATUS_PHASE p) == phaseHandshake).toNat =
      if s.hub.chip.get (F.TRK_STATUS_PHASE p) = phaseHandshake then 1 else 0 := by
    split
    · simp [*]
    · simp [*]
  show ∃ t, execListeningEnter p s = .next t ∧ _
  unfold execListeningEnter
  refine onChip_runs fun d hd => ?_
  have hlost : ∃ (a : Chip) (wait : Trk → BringupWait), a = Chip.receiversLose p s.hub.chip ∧
      d = (a.put (F.TRK_STATUS_PHASE p) phaseListen).modTrk p fun t => { t with
        fails := a.trk[p].fails + (s.hub.chip.get (F.TRK_STATUS_PHASE p) == phaseHandshake).toNat, training := false, wait := wait t } :=
    ⟨_, _, rfl, hd.trans (when_pos htrains)⟩
  clear hd
  obtain ⟨a, wait, ha, hd⟩ := hlost
  have htrk : a.trk = s.hub.chip.trk := by rw [ha, (receiversLose_writes _ p).trk]
  have hkept : s.hub.chip.WordsKept [(F.TRK_STATUS p).off, (F.TRK_LANE_A p).off, (F.TRK_LANE_B p).off] d := by
    rw [hd, ha, Chip.receiversLose]
    refine .modTrk (.put (.each .refl fun h => (h.put ?_).put ?_) ?_)
    · exact List.mem_cons_of_mem _ (receiverField_off_mem p _).1
    · exact List.mem_cons_of_mem _ (receiverField_off_mem p _).2
    · exact List.mem_cons_self
  simp (disch := (clear * -; decide +revert)) only [get_after, after_trk]
  refine ⟨?_, ?_, ?_, wordsKept_after hkept⟩
  · rw [hd, chip_get_modTrk]
    simp (disch := (clear * -; decide +revert)) only [get_put_of_lt]
  · simp only [hd, chip_modTrk_trk, upd_same]
  · simp only [hd, chip_modTrk_trk, upd_same, htrk, hcount]

end Sys2Proof.Proofs
end

section
/-! Snapshots (02 R46, R50, R51, R56). -/

namespace Sys2Proof.Proofs

open Machine Safety

theorem marginCode_lt (m : Option Int) : marginCode m < 2 ^ 8 := by
  cases m with
  | none => decide
  | some x => exact unsigned_lt 8 _

/-- The margins shown of a lane. -/
def marginFields (p : Port) (l : LaneId) : List Field := [laneMargin p l, laneMarginUp p l, laneMarginDn p l]

theorem marginField_ok (p : Port) (l : LaneId) : ∀ f ∈ marginFields p l, f.ok = true := by
  decide +revert

theorem showMargins_writes (c : Chip) (p : Port) (l : LaneId) : c.Writes (marginFields p l) (c.showMargins p l) := by
  rw [Chip.showMargins]
  refine .put (.put (.put .refl ?_) ?_) ?_
  all_goals exact ⟨marginField_ok p l _ (by simp [marginFields]), by simp [marginFields]⟩

theorem showMargins_margin (c : Chip) (p : Port) (l : LaneId) : (c.showMargins p l).get (laneMargin p l) = marginCode
    (if c.get (F.TRK_STATUS_STEP p) = 0 then none else c.trk[p].snrNow[l].map fun x => x - c.snrReq p (c.get (F.TRK_STATUS_STEP p))) := by
  have hwidth : (laneMargin p l).width = 8 := by clear c; decide +revert
  rw [Chip.showMargins]
  simp (disch := (clear * -; decide +revert)) only [chip_get_put_apart, chip_get_put]
  rw [hwidth, Nat.mod_eq_of_lt (marginCode_lt _)]

/-- Both lanes' margins are shown of the SNRs of the last snapshot. -/
theorem showPort_margins {c : Chip} {p : Port} {x y : Int} (hstep : c.get (F.TRK_STATUS_STEP p) ≠ 0)
    (hsnr : c.trk[p].snrNow = #v[some x, some y]) :
    (c.showPort p).get (laneMargin p 0) = marginCode (some (x - c.snrReq p (c.get (F.TRK_STATUS_STEP p)))) ∧
      (c.showPort p).get (laneMargin p 1) = marginCode (some (y - c.snrReq p (c.get (F.TRK_STATUS_STEP p)))) := by
  have hA := showMargins_writes c p 0
  have hB := showMargins_writes (c.showMargins p 0) p 1
  have hreq : ∀ n, (c.showMargins p 0).snrReq p n = c.snrReq p n := fun n => by
    simp only [Chip.snrReq, hA.word (o := (F.TRK_SNR_REQ p).off) (by clear * -; decide +revert)]
  have hstep' : (c.showMargins p 0).get (F.TRK_STATUS_STEP p) = c.get (F.TRK_STATUS_STEP p) := hA.get (by clear * -; decide +revert)
  rw [Chip.showPort]
  constructor
  · rw [hB.get (by clear * -; decide +revert), showMargins_margin, if_neg hstep, hsnr]
    rfl
  · rw [showMargins_margin, hstep', if_neg hstep, hA.trk, hsnr]
    simp only [hreq]
    rfl

end Sys2Proof.Proofs
end

section
/-! What a snapshot leaves, and the governor after it (02 R50, R56, R78). -/

namespace Sys2Proof.Proofs

open Machine Safety

/-- The channel of port `p` as its last snapshot found it, and the fields apart from `fs`, are as before. -/
structure Chip.KeepsChannel (p : Port) (fs : List Field) (c d : Chip) : Prop where
  spares : c.Spares fs d
  snrs : d.trk[p].snrs = c.trk[p].snrs
  coefs : d.trk[p].coefs = c.trk[p].coefs
  coefAt : d.trk[p].coefAt = c.trk[p].coefAt

section
variable {p : Port} {fs : List Field} {c d e : Chip}

theorem Chip.KeepsChannel.of_trk (h : c.Spares fs d) (htrk : d.trk = c.trk) : Chip.KeepsChannel p fs c d :=
  ⟨h, by simp only [htrk], by simp only [htrk], by simp only [htrk]⟩

theorem Chip.KeepsChannel.refl : Chip.KeepsChannel p fs c c := .of_trk .refl rfl

theorem Chip.KeepsChannel.trans (h : Chip.KeepsChannel p fs c d) (h' : Chip.KeepsChannel p fs d e) : Chip.KeepsChannel p fs c e :=
  ⟨h.spares.trans h'.spares, h'.snrs.trans h.snrs, h'.coefs.trans h.coefs, h'.coefAt.trans h.coefAt⟩

theorem Chip.KeepsChannel.when {b : Bool} {f : Chip → Chip} (h : Chip.KeepsChannel p fs c (f c)) : Chip.KeepsChannel p fs c (c.when b f) := by
  cases b
  exacts [.refl, h]

theorem Chip.KeepsChannel.modTrk {f : Trk → Trk} (hf : ∀ t, (f t).snrs = t.snrs ∧ (f t).coefs = t.coefs ∧ (f t).coefAt = t.coefAt) :
    Chip.KeepsChannel p fs c (c.modTrk p f) := by
  have htrk : (c.modTrk p f).trk[p] = f c.trk[p] := by simp only [chip_modTrk_trk, upd_same]
  obtain ⟨hsnrs, hcoefs, hat⟩ := hf c.trk[p]
  exact ⟨Chip.Spares.refl.modTrk, by rw [htrk, hsnrs], by rw [htrk, hcoefs], by rw [htrk, hat]⟩

theorem propose_keepsChannel {target cause : Nat} : Chip.KeepsChannel p fs c (c.propose p target cause) := by
  fun_cases Chip.propose
  · exact .modTrk fun _ => ⟨rfl, rfl, rfl⟩
  · exact .refl

end

/-- The fields of a shift that the governor refuses. -/
def refusalFields (p : Port) : List Field :=
  [F.TRK_SHIFT_STATUS_LAST_FROM p, F.TRK_SHIFT_STATUS_LAST_TO p, F.TRK_SHIFT_STATUS_LAST_CAUSE p, F.TRK_SHIFT_STATUS_LAST_RESULT p,
    F.TRK_INT_STATUS_SHIFT_FAIL p]

theorem refusedLocal_writes (c : Chip) (p : Port) (target : Nat) : c.Writes (refusalFields p) (c.refusedLocal p target) := by
  have hok : ∀ f ∈ refusalFields p, f.ok = true := by clear c target; decide +revert
  rw [Chip.refusedLocal]
  refine .flag (.put (.put (.put (.put .refl ?_) ?_) ?_) ?_) ?_
  all_goals exact ⟨hok _ (by simp [refusalFields]), by simp [refusalFields]⟩

theorem refusedLocal_keepsChannel {c : Chip} {p : Port} {target : Nat} :
    Chip.KeepsChannel p (refusalFields p) c (c.refusedLocal p target) :=
  .of_trk (.of_writes (refusedLocal_writes c p target)) (refusedLocal_writes c p target).trk

/-- The governor's limits propose a shift or refuse one. -/
theorem enforceLimits_keepsChannel (c : Chip) (p : Port) : Chip.KeepsChannel p (refusalFields p) c (c.enforceLimits p) := by
  have hdone : Chip.KeepsChannel p (refusalFields p) c (c.modTrk p fun t => { t with limitDue := false }) := .modTrk fun _ => ⟨rfl, rfl, rfl⟩
  fun_cases Chip.enforceLimits
  · exact .refl
  · exact propose_keepsChannel
  · exact .refl
  · exact propose_keepsChannel
  · exact hdone.trans refusedLocal_keepsChannel
  · exact hdone.trans propose_keepsChannel
  · exact hdone
  · exact .refl

/-- Water ingress is seen (02 R56). -/
def Chip.wetSeen (p : Port) (reflections : List (Nat × Int)) (c : Chip) : Chip :=
  let first := !c.on (F.TRK_STATUS_WET p)
  let c := (c.put (F.TRK_STATUS_WET p) 1).flag (F.TRK_INT_STATUS_WET p)
  let c := match worstReflection reflections with
    | some (d, rl) => (c.put (F.TRK_CABLE_REFL_M p) (min d 0xFFF)).put (F.TRK_CABLE_REFL_RL p) (min (rl / 4).toNat 0xFF)
    | none => c
  c.when first fun c => c.raiseLink p 0x12 0

/-- The fields that show water ingress. -/
def wetFields (p : Port) : List Field := [F.TRK_STATUS_WET p, F.TRK_INT_STATUS_WET p, F.TRK_CABLE_REFL_M p, F.TRK_CABLE_REFL_RL p]

theorem wetField_ok (p : Port) : ∀ f ∈ wetFields p, f.ok = true := by
  decide +revert

theorem wetSeen_keepsChannel (c : Chip) (p : Port) (l : List (Nat × Int)) : Chip.KeepsChannel p (wetFields p) c (Chip.wetSeen p l c) := by
  have hraise : ∀ {d : Chip} {b : Bool}, c.Writes (wetFields p) d →
      Chip.KeepsChannel p (wetFields p) c (d.when b fun c => c.raiseLink p 0x12 0) := fun {d b} h => by
    have hsame : d.SameTrunk (d.when b fun c => c.raiseLink p 0x12 0) := .when .refl fun hd => hd.raise
    exact .of_trk ((Chip.Spares.of_writes h).trans (.of_sameTrunk hsame)) (hsame.trk.trans h.trk)
  have hshown : c.Writes (wetFields p) ((c.put (F.TRK_STATUS_WET p) 1).flag (F.TRK_INT_STATUS_WET p)) := by
    refine .flag (.put .refl ?_) ?_
    all_goals exact ⟨wetField_ok p _ (by simp [wetFields]), by simp [wetFields]⟩
  rw [Chip.wetSeen]
  refine hraise ?_
  split
  · refine .put (.put hshown ?_) ?_
    all_goals exact ⟨wetField_ok p _ (by simp [wetFields]), by simp [wetFields]⟩
  · exact hshown

end Sys2Proof.Proofs
end

section
/-! A snapshot of a running link (02 R50, R51, R56). -/

namespace Sys2Proof.Proofs

open Machine Safety

/-- A snapshot as the registers show it. -/
def Chip.snapshotShown (p : Port) (lengthM : Nat) (c : Chip) : Chip :=
  let c := c.showPort p
  let c := c.put (F.TRK_MOOR_STATUS_COEF_VALID p) 1
  let c := (c.put (F.TRK_MOOR_STATUS_COEF_AGE p) 0).put (F.TRK_MOOR_STATUS_COEF_DTEMP p) 0
  c.put (F.TRK_CABLE_LENGTH_M p) (min lengthM 0xFFF)

/-- The fields that a snapshot shows. -/
def snapshotFields (p : Port) : List Field :=
  [laneMargin p 0, laneMarginUp p 0, laneMarginDn p 0, laneMargin p 1, laneMarginUp p 1, laneMarginDn p 1, F.TRK_MOOR_STATUS_COEF_VALID p,
    F.TRK_MOOR_STATUS_COEF_AGE p, F.TRK_MOOR_STATUS_COEF_DTEMP p, F.TRK_CABLE_LENGTH_M p]

theorem snapshotShown_writes (c : Chip) (p : Port) (n : Nat) : c.Writes (snapshotFields p) (Chip.snapshotShown p n c) := by
  have hok : ∀ f ∈ snapshotFields p, f.ok = true := by clear c n; decide +revert
  rw [Chip.snapshotShown, Chip.showPort, Chip.showMargins, Chip.showMargins]
  refine .put (.put (.put (.put (.put (.put (.put (.put (.put (.put .refl ?_) ?_) ?_) ?_) ?_) ?_) ?_) ?_) ?_) ?_
  all_goals exact ⟨hok _ (by simp [snapshotFields]), by simp [snapshotFields]⟩

theorem snapshotShown_get (c : Chip) (p : Port) (n : Nat) : (Chip.snapshotShown p n c).get (F.TRK_MOOR_STATUS_COEF_VALID p) = 1 ∧
    (Chip.snapshotShown p n c).get (F.TRK_MOOR_STATUS_COEF_AGE p) = 0 ∧
    (Chip.snapshotShown p n c).get (F.TRK_CABLE_LENGTH_M p) = min n 0xFFF := by
  have hlength : min n 0xFFF < 2 ^ (F.TRK_CABLE_LENGTH_M p).width := lt_of_le_of_lt (min_le_right _ _) (by clear * -; decide +revert)
  rw [Chip.snapshotShown]
  generalize min n 0xFFF = m at hlength ⊢
  refine ⟨?_, ?_, get_put_of_lt (by clear * -; decide +revert) hlength⟩
  all_goals simp (disch := (clear * -; decide +revert)) only [chip_get_put_apart, get_put_of_lt]

theorem snapshotShown_margins {c : Chip} {p : Port} {n : Nat} {x y : Int} (hstep : c.get (F.TRK_STATUS_STEP p) ≠ 0)
    (hsnr : c.trk[p].snrNow = #v[some x, some y]) :
    (Chip.snapshotShown p n c).get (laneMargin p 0) = marginCode (some (x - c.snrReq p (c.get (F.TRK_STATUS_STEP p)))) ∧
      (Chip.snapshotShown p n c).get (laneMargin p 1) = marginCode (some (y - c.snrReq p (c.get (F.TRK_STATUS_STEP p)))) := by
  have hmargins := showPort_margins hstep hsnr
  rw [Chip.snapshotShown]
  simp (disch := (clear * -; decide +revert)) only [chip_get_put_apart]
  exact hmargins

/-- A snapshot: what it stores, what the registers show of it, water ingress, and the governor or the climb after it. -/
theorem snapshot_eq (c : Chip) (p : Port) (sn : Snapshot) : ∃ (f : Trk → Trk) (w : Chip),
    (∀ t, (f t).snrs = [sn.a.predicted, sn.b.predicted] ∧ (f t).snrNow = #v[some sn.a.snr, some sn.b.snr] ∧
      (f t).coefs = [sn.a.coefs, sn.b.coefs] ∧ (f t).coefAt = some c.now) ∧
    Chip.KeepsChannel p (wetFields p) (Chip.snapshotShown p sn.lengthM (c.modTrk p f)) w ∧
    c.snapshot p sn = if w.get (F.TRK_STATUS_PHASE p) == phaseProbe then w.climb p else w.enforceLimits p := by
  have hstages : ∃ (f : Trk → Trk) (wet : Bool),
      (∀ t, (f t).snrs = [sn.a.predicted, sn.b.predicted] ∧ (f t).snrNow = #v[some sn.a.snr, some sn.b.snr] ∧
        (f t).coefs = [sn.a.coefs, sn.b.coefs] ∧ (f t).coefAt = some c.now) ∧
      c.snapshot p sn = (let w := (Chip.snapshotShown p sn.lengthM (c.modTrk p f)).when wet (Chip.wetSeen p sn.reflections)
        if w.get (F.TRK_STATUS_PHASE p) == phaseProbe then w.climb p else w.enforceLimits p) := by
    refine ⟨?_, ?_, ?stored, ?eq⟩
    case eq =>
      rw [Chip.snapshot]
      rfl
    case stored => exact fun _ => ⟨rfl, rfl, rfl, rfl⟩
  obtain ⟨f, wet, hf, heq⟩ := hstages
  refine ⟨f, _, hf, ?_, heq⟩
  exact .when (wetSeen_keepsChannel _ p _)

theorem channelSnapshot_stores {s : State} {p : Port} {sn : Snapshot} (hrun : s.hub.chip.running = true)
    (hup : s.hub.chip.on (F.TRK_STATUS_LINK_UP p) = true) (hphase : s.hub.chip.get (F.TRK_STATUS_PHASE p) ≠ phaseProbe)
    (hstep : s.hub.chip.get (F.TRK_STATUS_STEP p) ≠ 0) :
    ∃ t, exec (.channelSnapshot p sn) s = .next t ∧ coreOnly s t ∧ t.hub.chip.get (F.TRK_MOOR_STATUS_COEF_VALID p) = 1 ∧
      t.hub.chip.get (F.TRK_MOOR_STATUS_COEF_AGE p) = 0 ∧ t.hub.chip.get (F.TRK_CABLE_LENGTH_M p) = min sn.lengthM 0xFFF ∧
      t.hub.chip.get (laneMargin p 0) = marginCode (some (sn.a.snr - s.hub.chip.snrReq p (s.hub.chip.get (F.TRK_STATUS_STEP p)))) ∧
      t.hub.chip.get (laneMargin p 1) = marginCode (some (sn.b.snr - s.hub.chip.snrReq p (s.hub.chip.get (F.TRK_STATUS_STEP p)))) ∧
      t.hub.chip.trk[p].snrs = [sn.a.predicted, sn.b.predicted] ∧ t.hub.chip.trk[p].coefs = [sn.a.coefs, sn.b.coefs] ∧
      t.hub.chip.trk[p].coefAt = some s.hub.chip.now := by
  show ∃ t, execChannelSnapshot p sn s = .next t ∧ _
  unfold execChannelSnapshot
  refine onChip_when_runs hrun fun d hd => ?_
  replace hd : d = s.hub.chip.snapshot p sn := by rw [hd, if_pos hup]
  obtain ⟨f, w, hf, hwet, heq⟩ := snapshot_eq s.hub.chip p sn
  obtain ⟨a, ha⟩ : ∃ a, a = s.hub.chip.modTrk p f := ⟨_, rfl⟩
  rw [← ha] at hwet
  have hatrk : a.trk[p] = f s.hub.chip.trk[p] := by simp only [ha, chip_modTrk_trk, upd_same]
  have haget : ∀ g, a.get g = s.hub.chip.get g := fun g => by rw [ha, chip_get_modTrk]
  have hareq : ∀ n, a.snrReq p n = s.hub.chip.snrReq p n := fun n => by rw [ha]; rfl
  obtain ⟨hsnrs, hsnrNow, hcoefs, hcoefAt⟩ := hf s.hub.chip.trk[p]
  have hshown := snapshotShown_writes a p sn.lengthM
  have hwphase : w.get (F.TRK_STATUS_PHASE p) = s.hub.chip.get (F.TRK_STATUS_PHASE p) := by
    rw [hwet.spares.get (by clear * -; decide +revert), hshown.get (by clear * -; decide +revert), haget]
  have hlimits : Chip.KeepsChannel p (refusalFields p) w d := by
    rw [hd, heq, hwphase, if_neg (by simpa using hphase)]
    exact enforceLimits_keepsChannel w p
  obtain ⟨hvalid, hage, hlength⟩ := snapshotShown_get a p sn.lengthM
  obtain ⟨hA, hB⟩ := snapshotShown_margins (n := sn.lengthM) (x := sn.a.snr) (y := sn.b.snr) (by rw [haget]; exact hstep) (by rw [hatrk, hsnrNow])
  rw [hareq, haget] at hA hB
  have hfield : ∀ {g : Field} {v : Nat}, (Chip.snapshotShown p sn.lengthM a).get g = v →
      (g.besides (wetFields p) && g.besides (refusalFields p)) = true → d.get g = v := fun h hg => by
    obtain ⟨hgwet, hgref⟩ := Bool.and_eq_true_iff.mp hg
    rw [hlimits.spares.get hgref, hwet.spares.get hgwet, h]
  simp (disch := (clear * -; decide +revert)) only [get_after, after_trk]
  refine ⟨hfield hvalid (by clear * -; decide +revert), hfield hage (by clear * -; decide +revert), hfield hlength (by clear * -; decide +revert),
    hfield hA (by clear * -; decide +revert), hfield hB (by clear * -; decide +revert), ?_, ?_, ?_⟩
  · rw [hlimits.snrs, hwet.snrs]; simp only [hshown.trk, hatrk, hsnrs]
  · rw [hlimits.coefs, hwet.coefs]; simp only [hshown.trk, hatrk, hcoefs]
  · rw [hlimits.coefAt, hwet.coefAt]; simp only [hshown.trk, hatrk, hcoefAt]

end Sys2Proof.Proofs
end

section
/-! The climb after bring-up, and water ingress that is over (02 R46, R56). -/

namespace Sys2Proof.Proofs

open Machine Safety

theorem climbDwell_ends {s : State} {p : Port} (hrun : s.hub.chip.running = true) (hup : s.hub.chip.on (F.TRK_STATUS_LINK_UP p) = true)
    (hphase : s.hub.chip.get (F.TRK_STATUS_PHASE p) = phaseClimb) (hidle : s.hub.chip.shiftIdle p = true)
    (hcap : s.hub.chip.stepCap p < s.hub.chip.get (F.TRK_STATUS_STEP p) + 1) :
    ∃ t, exec (.climbDwellExpiry p) s = .next t ∧ registersOnly s t ∧ t.hub.chip.get (F.TRK_STATUS_PHASE p) = phaseRunning ∧
      wordsKept [(F.TRK_STATUS p).off] s t := by
  have hends : s.hub.chip.climb p = s.hub.chip.put (F.TRK_STATUS_PHASE p) phaseRunning := by
    rw [Chip.climb, if_pos hidle, decide_eq_false (Nat.not_le.mpr hcap)]
    rfl
  show ∃ t, execClimbDwellExpiry p s = .next t ∧ _
  unfold execClimbDwellExpiry
  refine onChip_runs_registers (d := s.hub.chip.put (F.TRK_STATUS_PHASE p) phaseRunning) ?_ rfl ⟨?_, wordsKept_after (.put .refl ?_)⟩
  · rw [when_pos (by simp [hrun, hup, hphase]), hends]
  · simp (disch := (clear * -; decide +revert)) only [get_after, get_put_of_lt]
  · exact List.mem_singleton_self _

/-- A step that the port may take at once is proposed. -/
theorem propose_eq {c : Chip} {p : Port} {target cause : Nat} (hidle : c.shiftIdle p = true) (hup : c.on (F.TRK_STATUS_LINK_UP p) = true)
    (hne : target ≠ c.get (F.TRK_STATUS_STEP p)) (hlo : 1 ≤ target) (hhi : target ≤ 5) (hcause : cause ≠ 6) :
    c.propose p target cause = c.modTrk p fun t => { t with own := some {
      phase := .decided, target := target
      start := c.get (F.TRK_STATUS_STEP p), cause := cause, spanN := 0, spanM := 0, txDone := false, rxDone := false, failed := false } } := by
  have hallowed : (c.shiftIdle p && c.on (F.TRK_STATUS_LINK_UP p) && target != c.get (F.TRK_STATUS_STEP p) && 1 ≤ target && target ≤ 5) = true := by
    simp [hidle, hup, hne, hlo, hhi]
  rw [Chip.propose, if_pos hallowed]
  simp only [if_neg hcause]

theorem climbDwell_proposes {s : State} {p : Port} (hrun : s.hub.chip.running = true) (hup : s.hub.chip.on (F.TRK_STATUS_LINK_UP p) = true)
    (hphase : s.hub.chip.get (F.TRK_STATUS_PHASE p) = phaseClimb) (hidle : s.hub.chip.shiftIdle p = true)
    (hcap : s.hub.chip.get (F.TRK_STATUS_STEP p) + 1 ≤ s.hub.chip.stepCap p) (hlast : s.hub.chip.get (F.TRK_STATUS_STEP p) < 5)
    (hheld : s.hub.chip.heldOff p (s.hub.chip.get (F.TRK_STATUS_STEP p) + 1) = false)
    (hmargin : (s.hub.chip.get (F.TRK_GOV_CFG_ACCEPT_MARGIN p) : Int) ≤ s.hub.chip.portPredicted p (s.hub.chip.get (F.TRK_STATUS_STEP p) + 1)) :
    ∃ t, exec (.climbDwellExpiry p) s = .next t ∧ coreOnly s t ∧
      t.hub.chip.trk[p] = { s.hub.chip.trk[p] with own := some {
        phase := .decided, target := s.hub.chip.get (F.TRK_STATUS_STEP p) + 1
        start := s.hub.chip.get (F.TRK_STATUS_STEP p), cause := 8, spanN := 0, spanM := 0, txDone := false, rxDone := false, failed := false } } ∧
      wordsKept [(F.TRK_STATUS p).off] s t := by
  obtain ⟨a, ha⟩ : ∃ a, a = s.hub.chip.put (F.TRK_STATUS_PHASE p) phaseClimb := ⟨_, rfl⟩
  have hstep' : a.get (F.TRK_STATUS_STEP p) = s.hub.chip.get (F.TRK_STATUS_STEP p) := by
    rw [ha]; simp (disch := (clear * -; decide +revert)) only [chip_get_put_apart]
  have hup' : a.on (F.TRK_STATUS_LINK_UP p) = true := by
    rw [ha, Chip.on, ← hup, Chip.on]; simp (disch := (clear * -; decide +revert)) only [chip_get_put_apart]
  have hidle' : a.shiftIdle p = true := by
    simp only [Chip.shiftIdle, ha, chip_put_trk]; exact hidle
  have hclimbs : s.hub.chip.climb p = a.propose p (s.hub.chip.get (F.TRK_STATUS_STEP p) + 1) 8 := by
    rw [Chip.climb, if_pos hidle, if_pos (by simp [hcap, hheld, hmargin]), ha]
  show ∃ t, execClimbDwellExpiry p s = .next t ∧ _
  unfold execClimbDwellExpiry
  refine onChip_when_runs (by simp [hrun, hup, hphase]) fun d hd => ?_
  rw [hclimbs, propose_eq hidle' hup' (by omega) (by omega) (by omega) (by decide), hstep'] at hd
  have hkept : s.hub.chip.WordsKept [(F.TRK_STATUS p).off] d := by
    rw [hd, ha]
    exact .modTrk (.put .refl (List.mem_singleton_self _))
  simp only [after_trk]
  exact ⟨by simp only [hd, chip_modTrk_trk, upd_same, ha, chip_put_trk], wordsKept_after hkept⟩

theorem wetClear_clears {s : State} {p : Port} (hwet : s.hub.chip.on (F.TRK_STATUS_WET p) = true) :
    ∃ t, exec (.wetClear p) s = .next t ∧ coreOnly s t ∧ t.hub.chip.get (F.TRK_STATUS_WET p) = 0 := by
  show ∃ t, execWetClear p s = .next t ∧ _
  unfold execWetClear
  refine onChip_runs fun d hd => ?_
  have hcleared : ∃ (a : Chip) (b : Bool), a = s.hub.chip.put (F.TRK_STATUS_WET p) 0 ∧ d = a.when b fun c => c.raiseLink p 0x12 0 true :=
    ⟨_, _, rfl, hd.trans (when_pos hwet)⟩
  obtain ⟨a, b, ha, hd⟩ := hcleared
  have hsame : a.SameTrunk d := by rw [hd]; exact .when .refl fun h => h.raise
  simp (disch := (clear * -; decide +revert)) only [get_after]
  rw [hsame.get (by clear * -; decide +revert), ha]
  simp (disch := (clear * -; decide +revert)) only [get_put_of_lt]

/-- Settles O21: each stage of bring-up, a snapshot and the climb, clause by clause. -/
theorem bringUpAndClimb : Obligations.BringUpAndClimb := by
  unfold Obligations.BringUpAndClimb
  exact ⟨fun _ => bringupStart_starts, fun _ _ => echoTrainingEnd_acquires, fun _ _ _ => partnerAcquired_shakes,
    fun _ _ _ => handshake_linksUp, fun _ _ _ => handshake_refuses, fun _ _ => listeningEnter_listens, fun _ _ => listenBurst_bursts,
    fun _ _ _ => partnerEnergy_acquires, fun _ _ _ => partnerEnergy_waits, fun _ _ => backoffExpiry_starts,
    fun _ _ _ => channelSnapshot_stores, fun _ _ => climbDwell_ends, fun _ _ => climbDwell_proposes, fun _ _ => wetClear_clears⟩

end Sys2Proof.Proofs
end

section
/-! The end of a link (02 R67, R74; 03 R98; 13 R427): what it writes. -/

namespace Sys2Proof.Machine

/-- The fields of the link layer that the clearing of a port's keys writes. -/
def portKeyFields (p : Port) : List Field := [F.LNK_STATUS_ADMITTED p, F.LNK_EPOCH p, F.LNK_KE_SPAN p, F.LNK_TXC p, F.LNK_STATUS_TX_HOLD p]

theorem portKeyField_ok (p : Port) : ∀ f ∈ portKeyFields p, f.ok = true := by
  decide +revert

/-- The margins shown of both lanes. -/
def portMarginFields (p : Port) : List Field :=
  [laneMargin p 0, laneMarginUp p 0, laneMarginDn p 0, laneMargin p 1, laneMarginUp p 1, laneMarginDn p 1]

theorem portMarginField_ok_mem (p : Port) (l : LaneId) : ((laneMargin p l).ok = true ∧ laneMargin p l ∈ portMarginFields p) ∧
    ((laneMarginUp p l).ok = true ∧ laneMarginUp p l ∈ portMarginFields p) ∧
    (laneMarginDn p l).ok = true ∧ laneMarginDn p l ∈ portMarginFields p := by
  decide +revert

/-- The fields that the end of a link writes. -/
def linkGoneFields (p : Port) : List Field :=
  [F.LNK_LOST_UNACKED p, F.LNK_RX_BUF_WORDS p, F.LNK_STATUS_HB_OK p, F.LNK_STATUS_PARTNER_LK p, F.TRK_INT_STATUS_LINK_DOWN p,
    F.TRK_STATUS_LINK_UP p, F.TRK_STATUS_STEP p, F.TRK_STATUS_LANES p, F.TRK_STATUS_SHIFT_PENDING p, F.TRK_STATUS_PRECODE_ON p]
    ++ portMarginFields p ++ portKeyFields p

theorem linkGoneField_ok (p : Port) : ∀ f ∈ linkGoneFields p, f.ok = true := by
  decide +revert

/-- The registers of a link that has ended, its lanes' margins but for the keys. -/
def Chip.linkEnded (p : Port) (c : Chip) : Chip :=
  let c := c.put (F.LNK_RX_BUF_WORDS p) 0
  let c := (c.put (F.LNK_STATUS_HB_OK p) 0).put (F.LNK_STATUS_PARTNER_LK p) 0
  let c := c.flag (F.TRK_INT_STATUS_LINK_DOWN p)
  let c := (c.put (F.TRK_STATUS_LINK_UP p) 0).put (F.TRK_STATUS_STEP p) 0
  let c := (c.put (F.TRK_STATUS_LANES p) 0).put (F.TRK_STATUS_SHIFT_PENDING p) 0
  let c := c.put (F.TRK_STATUS_PRECODE_ON p) 0
  c.each lanes fun l c => ((c.put (laneMargin p l) 0x80).put (laneMarginUp p l) 0x80).put (laneMarginDn p l) 0x80

theorem linkEnded_writes (c : Chip) (p : Port) : c.Writes (linkGoneFields p) (Chip.linkEnded p c) := by
  have hmargin : ∀ {f : Field}, f.ok = true ∧ f ∈ portMarginFields p → f.ok = true ∧ f ∈ linkGoneFields p := fun h =>
    ⟨h.1, List.mem_append_left _ (List.mem_append_right _ h.2)⟩
  rw [Chip.linkEnded]
  refine .each (.put (.put (.put (.put (.put (.flag (.put (.put (.put .refl ?_) ?_) ?_) ?_) ?_) ?_) ?_) ?_) ?_) fun h =>
    ((h.put (hmargin (portMarginField_ok_mem p _).1)).put (hmargin (portMarginField_ok_mem p _).2.1)).put (hmargin (portMarginField_ok_mem p _).2.2)
  all_goals exact ⟨linkGoneField_ok p _ (by simp [linkGoneFields]), by simp [linkGoneFields]⟩

/-- The link shows that it is down. -/
structure Chip.ShowsDown (p : Port) (c : Chip) : Prop where
  down : c.get (F.TRK_STATUS_LINK_UP p) = 0
  step : c.get (F.TRK_STATUS_STEP p) = 0
  event : c.get (F.TRK_INT_STATUS_LINK_DOWN p) = 1

theorem linkEnded_showsDown (c : Chip) (p : Port) : Chip.ShowsDown p (Chip.linkEnded p c) := by
  rw [Chip.linkEnded]
  constructor
  all_goals simp (disch := (clear * -; decide +revert)) only [each_lanes, chip_get_put_apart, get_flag_same, get_put_of_lt]

theorem Chip.ShowsDown.of_spares {c d : Chip} {p : Port} {fs : List Field} (h : Chip.ShowsDown p c) (hs : c.Spares fs d)
    (hfs : ((F.TRK_STATUS_LINK_UP p).besides fs && (F.TRK_STATUS_STEP p).besides fs && (F.TRK_INT_STATUS_LINK_DOWN p).besides fs) = true) :
    Chip.ShowsDown p d := by
  simp only [Bool.and_eq_true] at hfs
  obtain ⟨⟨hup, hstep⟩, hevent⟩ := hfs
  exact ⟨(hs.get hup).trans h.down, (hs.get hstep).trans h.step, (hs.get hevent).trans h.event⟩

/-- The keys of a port are cleared: the slots of the key store, the registers that show them, and the link layer's own state of them. -/
theorem clearPortKeys_eq (c : Chip) (p : Port) : ∃ (a b : Chip) (f : Lnk → Lnk), c.SameTrunk a ∧ a.Writes (portKeyFields p) b ∧
    (∀ l, (f l).replay = l.replay) ∧ c.clearPortKeys p = b.modLnk p f := by
  have hslots : ∃ a, a = c.each (List.range 6) fun k c => c.clearSlot (8 + 6 * p.val + k) := ⟨_, rfl⟩
  obtain ⟨a, ha⟩ := hslots
  refine ⟨a, ((((a.put (F.LNK_STATUS_ADMITTED p) 0).put (F.LNK_EPOCH p) 0).put (F.LNK_KE_SPAN p) 0).put (F.LNK_TXC p) 0).put
    (F.LNK_STATUS_TX_HOLD p) 0, ?_, ?slots, ?writes, ?replay, ?eq⟩
  case eq => rw [Chip.clearPortKeys, ha]
  case slots =>
    rw [ha]
    exact Chip.SameTrunk.refl.each fun h => h.clearSlot
  case writes =>
    refine .put (.put (.put (.put (.put .refl ?_) ?_) ?_) ?_) ?_
    all_goals exact ⟨portKeyField_ok p _ (by simp [portKeyFields]), by simp [portKeyFields]⟩
  case replay => exact fun _ => rfl

/-- The end of a link: what it loses is counted, the registers show it, the engines of the port stop, its keys are cleared, and admission and
forwarding follow. -/
theorem linkGone_eq (c : Chip) (p : Port) : ∃ (n : Nat) (f : Lnk → Lnk) (g : Trk → Trk) (h : Pcs → Pcs), (∀ l, (f l).replay = []) ∧
    c.linkGone p = (((((Chip.linkEnded p ((c.add (F.LNK_LOST_UNACKED p) n).modLnk p f)).modTrk p g).modPcs p h).clearPortKeys p).admissionEnds
      p).portUnrouted p := by
  refine ⟨?_, ?_, ?_, ?_, ?replay, ?eq⟩
  case eq =>
    rw [Chip.linkGone, Chip.linkEnded]
  case replay => exact fun _ => rfl

section
variable {c d : Chip} {p : Port} {fs : List Field}

theorem Chip.Spares.clearPortKeys (h : c.Spares fs d) (hs : portKeyFields p ⊆ fs) : c.Spares fs (d.clearPortKeys p) := by
  obtain ⟨a, b, f, hslots, hwrites, -, heq⟩ := clearPortKeys_eq d p
  rw [heq]
  exact h.trans (.trans (.of_sameTrunk hslots) ((Chip.Spares.of_writes hwrites).mono hs).modLnk)

theorem clearPortKeys_replay (h : c.lnk[p].replay = []) : (c.clearPortKeys p).lnk[p].replay = [] := by
  obtain ⟨a, b, f, hslots, hwrites, hf, heq⟩ := clearPortKeys_eq c p
  simp only [heq, chip_modLnk_lnk, upd_same, hf, hwrites.lnk, hslots.lnk, h]

/-- The core die as a link that has ended leaves it: down, with nothing to replay. -/
theorem linkGone_ends (c : Chip) (p : Port) :
    c.Spares (linkGoneFields p) (c.linkGone p) ∧ Chip.ShowsDown p (c.linkGone p) ∧ (c.linkGone p).lnk[p].replay = [] := by
  have hkeys : portKeyFields p ⊆ linkGoneFields p := List.subset_append_right _ _
  obtain ⟨n, f, g, h, hf, heq⟩ := linkGone_eq c p
  have hlost : c.Spares (linkGoneFields p) (c.add (F.LNK_LOST_UNACKED p) n) := by
    rw [Chip.add]
    exact Chip.Spares.refl.put ⟨linkGoneField_ok p _ (by simp [linkGoneFields]), by simp [linkGoneFields]⟩
  obtain ⟨a, ha⟩ : ∃ a, a = (c.add (F.LNK_LOST_UNACKED p) n).modLnk p f := ⟨_, rfl⟩
  have hreplay : a.lnk[p].replay = [] := by simp only [ha, chip_modLnk_lnk, upd_same, hf]
  rw [← ha] at heq
  have hended := linkEnded_writes a p
  have hdown := linkEnded_showsDown a p
  generalize Chip.linkEnded p a = e at heq hended hdown
  obtain ⟨b, hb⟩ : ∃ b, b = (e.modTrk p g).modPcs p h := ⟨_, rfl⟩
  rw [← hb] at heq
  have hfollow : (b.clearPortKeys p).SameTrunk (c.linkGone p) := by
    rw [heq]
    exact Chip.SameTrunk.refl.admissionEnds.portUnrouted
  have hspares : e.Spares (portKeyFields p) (c.linkGone p) := by
    refine .trans ?_ (.of_sameTrunk hfollow)
    rw [hb]
    exact (Chip.Spares.refl.modTrk.modPcs).clearPortKeys (List.Subset.refl _)
  have hblnk : b.lnk = a.lnk := by rw [hb, chip_modPcs_lnk, chip_modTrk_lnk, hended.lnk]
  refine ⟨?_, hdown.of_spares hspares (by clear * -; decide +revert), ?_⟩
  · rw [ha] at hended
    exact (hlost.modLnk.trans (.of_writes hended)).trans (hspares.mono hkeys)
  · simp only [hfollow.lnk]
    exact clearPortKeys_replay (by simp only [hblnk, hreplay])

/-- The fields that a lost link writes: those of its end, and those of bring-up. -/
def linkLostFields (p : Port) : List Field := linkGoneFields p ++ bringupFields p

theorem linkLost_ends (c : Chip) (p : Port) :
    c.Spares (linkLostFields p) (c.linkLost p) ∧ Chip.ShowsDown p (c.linkLost p) ∧ (c.linkLost p).lnk[p].replay = [] := by
  have hgone : linkGoneFields p ⊆ linkLostFields p := List.subset_append_left _ _
  have hbringup : bringupFields p ⊆ linkLostFields p := List.subset_append_right _ _
  obtain ⟨a, ha⟩ : ∃ a, a = c.raiseLink p 0x10 0 := ⟨_, rfl⟩
  have hraise : c.SameTrunk a := by rw [ha]; exact Chip.SameTrunk.refl.raise
  obtain ⟨hspares, hdown, hreplay⟩ := linkGone_ends a p
  have hfrom : c.Spares (linkLostFields p) (a.linkGone p) := (Chip.Spares.of_sameTrunk hraise).trans (hspares.mono hgone)
  have hafter : (a.linkGone p).Spares (bringupFields p) (c.linkLost p) ∧ (c.linkLost p).lnk = (a.linkGone p).lnk := by
    rw [Chip.linkLost, ← ha]
    generalize a.linkGone p = b
    split
    · exact ⟨Chip.Spares.refl.bringupFailed (List.Subset.refl _), bringupFailed_lnk⟩
    · exact ⟨Chip.Spares.refl.modTrk.startBringup (List.Subset.refl _), by rw [startBringup_lnk, chip_modTrk_lnk]⟩
  refine ⟨hfrom.trans (hafter.1.mono hbringup), hdown.of_spares hafter.1 (by clear * -; decide +revert), ?_⟩
  simp only [hafter.2]
  exact hreplay

end

end Sys2Proof.Machine
end

section
/-! The loss of a link (02 R67, R74). -/

namespace Sys2Proof.Proofs

open Machine Safety

theorem receiversLose_los (c : Chip) (p : Port) :
    (Chip.receiversLose p c).get (laneLos p 0) = 1 ∧ (Chip.receiversLose p c).get (laneLos p 1) = 1 := by
  rw [Chip.receiversLose]
  constructor
  all_goals simp (disch := (clear * -; decide +revert)) only [each_lanes, chip_get_put_apart, get_put_of_lt]

theorem linkLoss_loses {s : State} {p : Port} (hrun : s.hub.chip.running = true) (hup : s.hub.chip.on (F.TRK_STATUS_LINK_UP p) = true)
    (hmoored : s.hub.chip.mooredPort p = false) :
    ∃ t, exec (.linkLoss p) s = .next t ∧ coreOnly s t ∧ t.hub.chip.get (F.TRK_STATUS_LINK_UP p) = 0 ∧
      t.hub.chip.get (F.TRK_STATUS_STEP p) = 0 ∧ t.hub.chip.get (F.TRK_INT_STATUS_LINK_DOWN p) = 1 ∧ t.hub.chip.lnk[p].replay = [] ∧
      t.hub.chip.get (F.TRK_LANE_A_LOS p) = 1 ∧ t.hub.chip.get (F.TRK_LANE_B_LOS p) = 1 := by
  show ∃ t, execLinkLoss p s = .next t ∧ _
  unfold execLinkLoss
  refine onChip_when_runs (by simp [hrun, Chip.phyCarries, hup, hmoored]) fun d hd => ?_
  have hlost : ∃ a, a = Chip.receiversLose p s.hub.chip ∧ d = if a.on (F.TRK_STATUS_LINK_UP p) then a.linkLost p
      else if a.now < a.trk[p].upAt + 60 * second then a.bringupFailed p false
      else (a.modTrk p fun t => { t with fails := 0 }).startBringup p :=
    ⟨_, rfl, by rw [hd, Chip.lossOfLink, Chip.receiversLose]⟩
  clear hd
  obtain ⟨a, ha, hd⟩ := hlost
  obtain ⟨hlosA, hlosB⟩ := receiversLose_los s.hub.chip p
  rw [← ha] at hlosA hlosB
  have hup' : a.on (F.TRK_STATUS_LINK_UP p) = true := by
    rw [Chip.on, ha, (receiversLose_writes _ p).get (by clear * -; decide +revert)]
    exact hup
  obtain ⟨hspares, ⟨hdown, hstep, hevent⟩, hreplay⟩ := linkLost_ends a p
  rw [if_pos hup'] at hd
  simp (disch := (clear * -; decide +revert)) only [get_after, after_lnk]
  rw [hd]
  exact ⟨hdown, hstep, hevent, hreplay, (hspares.get (by clear * -; decide +revert)).trans hlosA,
    (hspares.get (by clear * -; decide +revert)).trans hlosB⟩

theorem protocolViolationLimit_loses {s : State} {p : Port} (hup : s.hub.chip.on (F.TRK_STATUS_LINK_UP p) = true)
    (hmany : 8 ≤ (s.hub.chip.recentViolations p).length) :
    ∃ t, exec (.protocolViolationLimit p) s = .next t ∧ coreOnly s t ∧ t.hub.chip.get (F.TRK_STATUS_LINK_UP p) = 0 ∧
      t.hub.chip.get (F.TRK_INT_STATUS_LINK_DOWN p) = 1 ∧ t.hub.chip.lnk[p].replay = [] := by
  show ∃ t, execProtocolViolationLimit p s = .next t ∧ _
  unfold execProtocolViolationLimit
  refine onChip_when_runs (by simp [hup, hmany]) fun d hd => ?_
  obtain ⟨-, ⟨hdown, -, hevent⟩, hreplay⟩ := linkLost_ends (s.hub.chip.modTrk p fun t => { t with violations := [] }) p
  simp (disch := (clear * -; decide +revert)) only [get_after, after_lnk]
  rw [hd]
  exact ⟨hdown, hevent, hreplay⟩

end Sys2Proof.Proofs
end

section
/-! A change of the lanes, from its announcement until it takes effect (02 R40, R68 to R71). -/

namespace Sys2Proof.Machine

/-- From `c` on, port `p` is changing to a lane code, with a lane that joins or none: the change is announced, or it has taken effect; and
what else it leaves as it was. -/
structure Chip.Changing (p : Port) (code : Nat) (joins : Option LaneId) (c d : Chip) : Prop where
  change : (∃ x, d.pcs[p].change = some x ∧ x.lanes = code ∧ x.joins = joins ∧ x.quiet = false) ∨
    d.pcs[p].change = none ∧ d.trk[p].txLanes = code ∧ ∀ l, joins = some l → d.get (laneState p l) = laneActive
  rxChange : d.pcs[p].rxChange = c.pcs[p].rxChange
  rxLanes : d.trk[p].rxLanes = c.trk[p].rxLanes
  qnext : d.trk[p].qnext = c.trk[p].qnext
  spares : joins = none → c.Spares [F.TRK_STATUS_LANES p] d

theorem laneState_ofTrunk (p : Port) (l : LaneId) : (laneState p l).ofTrunk = true := by
  decide +revert

section
variable {c d : Chip} {p : Port}

theorem Chip.Changing.start {x : LaneChange} {code : Nat} {joins : Option LaneId} (hcode : x.lanes = code) (hjoins : x.joins = joins)
    (hquiet : x.quiet = false) : Chip.Changing p code joins c (c.modPcs p fun y => { y with change := some x }) where
  change := .inl ⟨x, by simp only [chip_modPcs_pcs, upd_same], hcode, hjoins, hquiet⟩
  rxChange := by simp only [chip_modPcs_pcs, upd_same]
  rxLanes := by simp only [chip_modPcs_trk]
  qnext := by simp only [chip_modPcs_trk]
  spares _ := Chip.Spares.refl.modPcs

theorem Chip.Changing.of_sameTrunk {e : Chip} {code : Nat} {joins : Option LaneId} (h : Chip.Changing p code joins c d) (hs : d.SameTrunk e) :
    Chip.Changing p code joins c e where
  change := by
    have hstate : ∀ l, e.get (laneState p l) = d.get (laneState p l) := fun l => hs.get (laneState_ofTrunk p l)
    simpa only [hs.pcs, hs.trk, hstate] using h.change
  rxChange := by simp only [hs.pcs, h.rxChange]
  rxLanes := by simp only [hs.trk, h.rxLanes]
  qnext := by simp only [hs.trk, h.qnext]
  spares hj := (h.spares hj).trans (.of_sameTrunk hs)

end

/-- A lane that joins is Active, and its alarm ends. -/
theorem laneJoined_joins (c : Chip) (p : Port) (l : LaneId) : (c.laneJoined p l).get (laneState p l) = laneActive ∧
    (c.laneJoined p l).pcs = c.pcs ∧ (c.laneJoined p l).trk = upd c.trk p fun t => { t with joinTries := upd t.joinTries l fun _ => 0 } := by
  have hjoined : ∃ (a : Chip) (b : Bool),
      a = (((c.put (laneState p l) laneActive).flag (F.TRK_INT_STATUS_LANE_JOIN p)).put (laneRxLock p l) 1).put (laneLos p l) 0 ∧
      c.laneJoined p l = (a.modTrk p fun t => { t with joinTries := upd t.joinTries l fun _ => 0 }).when b fun c => c.raiseLink p 0x11 l.val true :=
    ⟨_, _, rfl, by rw [Chip.laneJoined]⟩
  obtain ⟨a, b, ha, heq⟩ := hjoined
  have hsame : (a.modTrk p fun t => { t with joinTries := upd t.joinTries l fun _ => 0 }).SameTrunk (c.laneJoined p l) := by
    rw [heq]
    exact .when .refl fun h => h.raise
  have hactive : a.get (laneState p l) = laneActive := by
    rw [ha]
    simp (disch := (clear * -; decide +revert)) only [chip_get_put_apart, chip_get_flag_apart, get_put_of_lt]
  refine ⟨?_, ?_, ?_⟩
  · rw [hsame.get (by clear * -; decide +revert), chip_get_modTrk, hactive]
  · rw [hsame.pcs, chip_modTrk_pcs, ha, chip_put_pcs, chip_put_pcs, chip_flag_pcs, chip_put_pcs]
  · rw [hsame.trk, chip_modTrk_trk, ha, chip_put_trk, chip_put_trk, chip_flag_trk, chip_put_trk]

/-- A change of the lanes as it takes effect, but for a lane that joins. -/
def Chip.laneChanged (p : Port) (x : LaneChange) (c : Chip) : Chip :=
  (((c.modPcs p fun y => { y with change := none }).modTrk p fun t => { t with txLanes := x.lanes, txQuiet := x.quiet }).put
    (F.TRK_STATUS_LANES p) (lanesShown x.lanes)).when x.quiet fun c => c.put (laneState p 1) laneQuiet

/-- A change whose block has not come stays; one whose block has come takes effect, and the lane that joins with it is Active. -/
theorem laneChangeDue_cases (c : Chip) (p : Port) : c.laneChangeDue p = c ∨ ∃ x, c.pcs[p].change = some x ∧
    (x.joins = none ∧ c.laneChangeDue p = Chip.laneChanged p x c ∨
      ∃ l, x.joins = some l ∧ c.laneChangeDue p = (Chip.laneChanged p x c).laneJoined p l) := by
  unfold Chip.laneChangeDue
  split
  · exact .inl rfl
  · next x hx =>
    split
    · right
      refine ⟨x, hx, ?_⟩
      split
      · next l hl => exact .inr ⟨l, hl, by rw [Chip.laneChanged]⟩
      · next hl => exact .inl ⟨hl, by rw [Chip.laneChanged]⟩
    · exact .inl rfl

/-- A change that quiets no lane, taking effect. -/
theorem laneChanged_effect {c : Chip} {p : Port} {x : LaneChange} (hx : x.quiet = false) :
    (Chip.laneChanged p x c).pcs = upd c.pcs p (fun y => { y with change := none }) ∧
      (Chip.laneChanged p x c).trk = upd c.trk p (fun t => { t with txLanes := x.lanes, txQuiet := x.quiet }) ∧
      c.Spares [F.TRK_STATUS_LANES p] (Chip.laneChanged p x c) := by
  have hlanes : (F.TRK_STATUS_LANES p).ok = true := by clear hx; decide +revert
  rw [Chip.laneChanged, when_neg hx]
  refine ⟨?_, ?_, ?_⟩
  · rw [chip_put_pcs, chip_modTrk_pcs, chip_modPcs_pcs]
  · rw [chip_put_trk, chip_modTrk_trk, chip_modPcs_trk]
  · exact Chip.Spares.refl.modPcs.modTrk.put ⟨hlanes, List.mem_singleton_self _⟩

section
variable {c d : Chip} {p : Port} {code : Nat} {joins : Option LaneId}

theorem Chip.Changing.due (h : Chip.Changing p code joins c d) : Chip.Changing p code joins c (d.laneChangeDue p) := by
  rcases laneChangeDue_cases d p with hsame | ⟨x, hx, heffect⟩
  · rw [hsame]; exact h
  rcases h.change with ⟨y, hy, hcode, hjoins, hquiet⟩ | ⟨hnone, -⟩
  · obtain rfl : y = x := Option.some.inj (hy.symm.trans hx)
    obtain ⟨hpcs, htrk, hspares⟩ := laneChanged_effect (c := d) (p := p) hquiet
    rcases heffect with ⟨hnojoin, heq⟩ | ⟨l, hjoin, heq⟩
    · rw [heq]
      exact {
        change := .inr ⟨by simp only [hpcs, upd_same], by simp only [htrk, upd_same, hcode], fun l hl => by rw [hjoins, hl] at hnojoin; cases hnojoin⟩
        rxChange := by simp only [hpcs, upd_same, h.rxChange]
        rxLanes := by simp only [htrk, upd_same, h.rxLanes]
        qnext := by simp only [htrk, upd_same, h.qnext]
        spares := fun hj => (h.spares hj).trans hspares }
    · obtain ⟨hactive, hpcs', htrk'⟩ := laneJoined_joins (Chip.laneChanged p y d) p l
      rw [heq]
      exact {
        change := .inr ⟨by simp only [hpcs', hpcs, upd_same], by simp only [htrk', htrk, upd_same, hcode], fun l' hl => by
          rw [hjoin, hl] at hjoins; obtain rfl := Option.some.inj hjoins; exact hactive⟩
        rxChange := by simp only [hpcs', hpcs, upd_same, h.rxChange]
        rxLanes := by simp only [htrk', htrk, upd_same, h.rxLanes]
        qnext := by simp only [htrk', htrk, upd_same, h.qnext]
        spares := fun hj => by rw [hj, hjoin] at hjoins; cases hjoins }
  · rw [hnone] at hx; cases hx

theorem changing_stable (p : Port) (code : Nat) (joins : Option LaneId) (c : Chip) : PcsStable p (Chip.Changing p code joins c) where
  emit h := ⟨h.change, h.rxChange, h.rxLanes, h.qnext, h.spares⟩
  pcs {d f} hf h := by
    have hpcs : (d.modPcs p f).pcs[p] = f d.pcs[p] := by simp only [chip_modPcs_pcs, upd_same]
    have htrk : (d.modPcs p f).trk = d.trk := chip_modPcs_trk _ _ _
    obtain ⟨hchange, hrx⟩ := hf d.pcs[p]
    exact {
      change := by rw [hpcs, hchange]; simpa only [htrk, chip_get_modPcs] using h.change
      rxChange := by rw [hpcs, hrx, h.rxChange]
      rxLanes := by simp only [htrk, h.rxLanes]
      qnext := by simp only [htrk, h.qnext]
      spares := fun hj => (h.spares hj).modPcs }
  due h := h.due

/-- A change announced by its lane control block. -/
theorem announceChange_changing {op ahead : Nat} {lane : LaneId} {x : LaneChange} (hcode : x.lanes = code) (hjoins : x.joins = joins)
    (hquiet : x.quiet = false) : Chip.Changing p code joins c (c.announceChange p op lane ahead x) := by
  unfold Chip.announceChange
  exact (changing_stable p code joins c).sendAll (.start hcode hjoins hquiet)

/-- A change that takes effect at the next boundary, with no block of its own. -/
theorem changeAtBoundary_changing {ahead : Nat} {x : LaneChange} (hcode : x.lanes = code) (hjoins : x.joins = joins)
    (hquiet : x.quiet = false) : Chip.Changing p code joins c (c.changeAtBoundary p ahead x) := by
  unfold Chip.changeAtBoundary
  exact Chip.Changing.due (.start hcode hjoins hquiet)

end

end Sys2Proof.Machine
end

section
/-! A lane fails (02 R67, R68). -/

namespace Sys2Proof.Proofs

open Machine Safety

theorem laneLive_iff {c : Chip} {p : Port} {l : LaneId} : c.laneLive p l = true ↔
    c.get (F.TRK_STATUS_LINK_UP p) = 1 ∧ (c.get (laneState p l) = laneActive ∨ c.get (laneState p l) = laneQuiet) := by
  simp [Chip.laneLive, Chip.on]

theorem laneLive_congr {c d : Chip} {p : Port} {l : LaneId} (hup : d.get (F.TRK_STATUS_LINK_UP p) = c.get (F.TRK_STATUS_LINK_UP p))
    (hstate : d.get (laneState p l) = c.get (laneState p l)) : d.laneLive p l = c.laneLive p l := by
  simp only [Chip.laneLive, Chip.on, hup, hstate]

theorem singlePermitted_congr {c d : Chip} {p : Port} (hown : d.get (F.TRK_CTL_SINGLE_LANE_EN p) = c.get (F.TRK_CTL_SINGLE_LANE_EN p))
    (hpartner : d.get (F.TRK_PARTNER_CAP_SINGLE_LANE_EN p) = c.get (F.TRK_PARTNER_CAP_SINGLE_LANE_EN p)) :
    d.singlePermitted p = c.singlePermitted p := by
  simp only [Chip.singlePermitted, Chip.on, hown, hpartner]

/-- A codeword beside the stream writes no register and leaves the port's engine. -/
theorem sideCodeword_keeps (c : Chip) (p : Port) (l : LaneId) (b : Block) :
    (c.sideCodeword p l b).regs = c.regs ∧ (c.sideCodeword p l b).trk = c.trk := by
  have hsteady : PcsSteady p fun d => d.regs = c.regs ∧ d.trk = c.trk := ⟨id, fun _ h => h⟩
  exact hsteady.sideCodeword ⟨rfl, rfl⟩

/-- The fields that a failing lane's own step writes. -/
def laneFailFields (p : Port) : List Field := [laneState p 0, laneState p 1, F.TRK_INT_STATUS_LANE_FAIL p]

theorem laneFailField_ok_mem (p : Port) (l : LaneId) : (laneState p l).ok = true ∧ laneState p l ∈ laneFailFields p := by
  decide +revert

theorem laneFailEvent_ok_mem (p : Port) : (F.TRK_INT_STATUS_LANE_FAIL p).ok = true ∧ F.TRK_INT_STATUS_LANE_FAIL p ∈ laneFailFields p := by
  decide +revert

/-- One lane has failed and the other goes on alone. -/
structure Chip.LaneFailed (p : Port) (l : LaneId) (c : Chip) : Prop where
  failed : c.get (laneState p l) = laneFailed
  other : c.get (laneState p (otherLane l)) = laneActive
  event : c.get (F.TRK_INT_STATUS_LANE_FAIL p) = 1

/-- The registers of a lane that fails beside one that goes on. -/
def Chip.oneLaneLeft (p : Port) (l : LaneId) (c : Chip) : Chip :=
  ((c.put (laneState p l) laneFailed).flag (F.TRK_INT_STATUS_LANE_FAIL p)).put (laneState p (otherLane l)) laneActive

theorem oneLaneLeft_writes (c : Chip) (p : Port) (l : LaneId) : c.Writes (laneFailFields p) (Chip.oneLaneLeft p l c) := by
  rw [Chip.oneLaneLeft]
  exact ((Chip.Writes.refl.put (laneFailField_ok_mem p l)).flag (laneFailEvent_ok_mem p)).put (laneFailField_ok_mem p _)

theorem oneLaneLeft_failed (c : Chip) (p : Port) (l : LaneId) : Chip.LaneFailed p l (Chip.oneLaneLeft p l c) := by
  rw [Chip.oneLaneLeft]
  constructor
  all_goals simp (disch := (clear * -; decide +revert)) only [chip_get_put_apart, chip_get_flag_apart, get_flag_same, get_put_of_lt]

theorem Chip.LaneFailed.of_spares {c d : Chip} {p : Port} {l : LaneId} (h : Chip.LaneFailed p l c) (hs : c.Spares [F.TRK_STATUS_LANES p] d) :
    Chip.LaneFailed p l d := by
  obtain ⟨hfailed, hother, hevent⟩ := h
  exact ⟨(hs.get (by clear * -; decide +revert)).trans hfailed, (hs.get (by clear * -; decide +revert)).trans hother,
    (hs.get (by clear * -; decide +revert)).trans hevent⟩

/-- A lane fails beside a live one, where both ends permit single-lane degrade: the blocks are to go to that lane. -/
theorem laneFail_changes {c : Chip} {p : Port} {l : LaneId} (hother : c.laneLive p (otherLane l) = true) (hsingle : c.singlePermitted p = true) :
    Chip.LaneFailed p l (c.laneFail p l) ∧ c.Spares (F.TRK_STATUS_LANES p :: laneFailFields p) (c.laneFail p l) ∧
      ∃ b, Chip.Changing p ((otherLane l).val + 1) none b (c.laneFail p l) := by
  have hlive : ((c.put (laneState p l) laneFailed).flag (F.TRK_INT_STATUS_LANE_FAIL p)).laneLive p (otherLane l) = true := by
    rw [← hother]
    refine laneLive_congr ?_ ?_
    all_goals simp (disch := (clear * -; decide +revert)) only [chip_get_put_apart, chip_get_flag_apart]
  have hpermitted : ((c.put (laneState p l) laneFailed).flag (F.TRK_INT_STATUS_LANE_FAIL p)).singlePermitted p = true := by
    rw [← hsingle]
    refine singlePermitted_congr ?_ ?_
    all_goals simp (disch := (clear * -; decide +revert)) only [chip_get_put_apart, chip_get_flag_apart]
  have hstages : ∃ (s : Bool) (x : Block) (f : Trk → Trk) (n : Nat), c.laneFail p l =
      ((((Chip.oneLaneLeft p l c).when s (Chip.sideCodeword p 1 x)).modTrk p f).announceChange p 0x01 l 0
        (laneChangeTo ((otherLane l).val + 1))).raiseLink p 0x11 n := by
    refine ⟨?_, ?_, ?_, ?_, ?eq⟩
    case eq =>
      rw [Chip.laneFail, Chip.oneLaneLeft, hlive, hpermitted]
      rfl
  obtain ⟨s, x, f, n, heq⟩ := hstages
  have hleft := oneLaneLeft_failed c p l
  have hwrites := oneLaneLeft_writes c p l
  generalize Chip.oneLaneLeft p l c = a at heq hleft hwrites
  obtain ⟨b, hb⟩ : ∃ b, b = (a.when s (Chip.sideCodeword p 1 x)).modTrk p f := ⟨_, rfl⟩
  have hside : a.Spares [F.TRK_STATUS_LANES p] b := by
    rw [hb]
    exact (Chip.Spares.refl.when fun _ => .of_regs (sideCodeword_keeps a p 1 x).1).modTrk
  rw [← hb] at heq
  have hchange : Chip.Changing p ((otherLane l).val + 1) none b (b.announceChange p 0x01 l 0 (laneChangeTo ((otherLane l).val + 1))) :=
    announceChange_changing rfl rfl rfl
  have hspares := hside.trans (hchange.spares rfl)
  generalize b.announceChange p 0x01 l 0 (laneChangeTo ((otherLane l).val + 1)) = e at heq hchange hspares
  have hraise : e.SameTrunk (c.laneFail p l) := by
    rw [heq]
    exact Chip.SameTrunk.refl.raise
  have hfrom : a.Spares [F.TRK_STATUS_LANES p] (c.laneFail p l) := hspares.trans (.of_sameTrunk hraise)
  exact ⟨hleft.of_spares hfrom, ((Chip.Spares.of_writes hwrites).mono (List.subset_cons_self _ _)).trans (hfrom.mono (by simp)),
    b, hchange.of_sameTrunk hraise⟩

end Sys2Proof.Proofs
end

section
/-! Loss of signal on a lane, and LANE_DOWN (02 R67 to R69). -/

namespace Sys2Proof.Proofs

open Machine Safety

/-- Both ends permit single-lane degrade. -/
theorem singlePermitted_of_on {c : Chip} {p : Port} (hown : c.on (F.TRK_CTL_SINGLE_LANE_EN p) = true)
    (hpartner : c.on (F.TRK_PARTNER_CAP_SINGLE_LANE_EN p) = true) : c.singlePermitted p = true :=
  Bool.and_eq_true_iff.mpr ⟨hown, hpartner⟩

/-- One lane without a signal, in the registers. -/
theorem laneSilent_get (c : Chip) (p : Port) (l : LaneId) :
    ((c.put (laneRxLock p l) 0).put (laneLos p l) 1).get (laneRxLock p l) = 0 ∧
      ((c.put (laneRxLock p l) 0).put (laneLos p l) 1).get (laneLos p l) = 1 ∧
      c.Writes (receiverFields p) ((c.put (laneRxLock p l) 0).put (laneLos p l) 1) := by
  refine ⟨?_, ?_, (Chip.Writes.refl.put (receiverField_ok_mem p l).1).put (receiverField_ok_mem p l).2⟩
  all_goals simp (disch := (clear * -; decide +revert)) only [chip_get_put_apart, get_put_of_lt]

theorem laneLossOfSignal_degrades {s : State} {p : Port} {l : LaneId} (hlive : s.hub.chip.laneLive p l = true)
    (hother : s.hub.chip.laneLive p (otherLane l) = true) (hown : s.hub.chip.on (F.TRK_CTL_SINGLE_LANE_EN p) = true)
    (hpartner : s.hub.chip.on (F.TRK_PARTNER_CAP_SINGLE_LANE_EN p) = true) :
    ∃ t, exec (.laneLossOfSignal p l) s = .next t ∧ coreOnly s t ∧ t.hub.chip.get (laneState p l) = laneFailed ∧
      t.hub.chip.get (laneRxLock p l) = 0 ∧ t.hub.chip.get (laneLos p l) = 1 ∧
      t.hub.chip.get (laneState p (otherLane l)) = laneActive ∧
      ((∃ x, t.hub.chip.pcs[p].change = some x ∧ x.lanes = (otherLane l).val + 1 ∧ x.joins = none) ∨
        t.hub.chip.trk[p].txLanes = (otherLane l).val + 1) ∧
      t.hub.chip.get (F.TRK_STATUS_LINK_UP p) = 1 ∧ t.hub.chip.get (F.TRK_INT_STATUS_LANE_FAIL p) = 1 := by
  show ∃ t, execLaneLossOfSignal p l s = .next t ∧ _
  unfold execLaneLossOfSignal
  refine onChip_when_runs hlive fun d hd => ?_
  obtain ⟨hlock, hlos, hwrites⟩ := laneSilent_get s.hub.chip p l
  generalize (s.hub.chip.put (laneRxLock p l) 0).put (laneLos p l) 1 = a at hd hlock hlos hwrites
  have hup : a.get (F.TRK_STATUS_LINK_UP p) = 1 := (hwrites.get (by clear * -; decide +revert)).trans (laneLive_iff.mp hlive).1
  have hother' : a.laneLive p (otherLane l) = true := by
    rw [← hother]
    exact laneLive_congr (hwrites.get (by clear * -; decide +revert)) (hwrites.get (by clear * -; decide +revert))
  have hpermitted : a.singlePermitted p = true := by
    rw [← singlePermitted_of_on hown hpartner]
    exact singlePermitted_congr (hwrites.get (by clear * -; decide +revert)) (hwrites.get (by clear * -; decide +revert))
  obtain ⟨⟨hfailed, hactive, hevent⟩, hspares, b, hchange⟩ := laneFail_changes hother' hpermitted
  rw [← hd] at hfailed hactive hevent hspares hchange
  simp (disch := (clear * -; decide +revert)) only [get_after, after_pcs, after_trk]
  refine ⟨hfailed, (hspares.get (by clear * -; decide +revert)).trans hlock, (hspares.get (by clear * -; decide +revert)).trans hlos, hactive, ?_,
    (hspares.get (by clear * -; decide +revert)).trans hup, hevent⟩
  rcases hchange.change with ⟨x, hx, hlanes, hjoins, -⟩ | ⟨-, htx, -⟩
  · exact .inl ⟨x, hx, hlanes, hjoins⟩
  · exact .inr htx

/-- A lane that fails where single-lane degrade is not permitted ends the link. -/
theorem laneFail_loses {c : Chip} {p : Port} {l : LaneId} (hsingle : c.on (F.TRK_CTL_SINGLE_LANE_EN p) = false) :
    ∃ a : Chip, c.laneFail p l = a.linkLost p := by
  have hpermitted : ((c.put (laneState p l) laneFailed).flag (F.TRK_INT_STATUS_LANE_FAIL p)).singlePermitted p = false := by
    have hown : ((c.put (laneState p l) laneFailed).flag (F.TRK_INT_STATUS_LANE_FAIL p)).on (F.TRK_CTL_SINGLE_LANE_EN p) = false := by
      rw [← hsingle, Chip.on, Chip.on]
      simp (disch := (clear * -; decide +revert)) only [chip_get_put_apart, chip_get_flag_apart]
    rw [Chip.singlePermitted, hown]
    rfl
  exact ⟨(c.put (laneState p l) laneFailed).flag (F.TRK_INT_STATUS_LANE_FAIL p), by
    rw [Chip.laneFail, hpermitted, Bool.and_false, if_neg Bool.false_ne_true]⟩

theorem laneLossOfSignal_loses {s : State} {p : Port} {l : LaneId} (hlive : s.hub.chip.laneLive p l = true)
    (hown : s.hub.chip.on (F.TRK_CTL_SINGLE_LANE_EN p) = false) :
    ∃ t, exec (.laneLossOfSignal p l) s = .next t ∧ coreOnly s t ∧ t.hub.chip.get (F.TRK_STATUS_LINK_UP p) = 0 ∧
      t.hub.chip.get (F.TRK_STATUS_STEP p) = 0 ∧ t.hub.chip.get (F.TRK_INT_STATUS_LINK_DOWN p) = 1 := by
  show ∃ t, execLaneLossOfSignal p l s = .next t ∧ _
  unfold execLaneLossOfSignal
  refine onChip_when_runs hlive fun d hd => ?_
  obtain ⟨-, -, hwrites⟩ := laneSilent_get s.hub.chip p l
  generalize (s.hub.chip.put (laneRxLock p l) 0).put (laneLos p l) 1 = a at hd hwrites
  have hown' : a.on (F.TRK_CTL_SINGLE_LANE_EN p) = false := by
    rw [Chip.on, hwrites.get (by clear * -; decide +revert)]
    exact hown
  obtain ⟨b, hb⟩ := laneFail_loses (l := l) hown'
  obtain ⟨-, ⟨hdown, hstep, hevent⟩, -⟩ := linkLost_ends b p
  simp (disch := (clear * -; decide +revert)) only [get_after]
  rw [hd, hb]
  exact ⟨hdown, hstep, hevent⟩

/-- A LANE_DOWN on a running link. -/
theorem laneCtlRx_down {c : Chip} {p : Port} {b : Block} {locked : Bool} {l sp bl : Nat} (hup : c.on (F.TRK_STATUS_LINK_UP p) = true)
    (hdecode : laneCtlDecode b = some (0x01, l, sp, bl)) : c.laneCtlRx p b locked = (c.takeBlock p b).laneDownRx p (laneOfBit l) sp bl := by
  rw [Chip.laneCtlRx, hup, hdecode]
  rfl

theorem takeBlock_laneLive {c : Chip} {p : Port} {b : Block} {l : LaneId} : (c.takeBlock p b).laneLive p l = c.laneLive p l :=
  laneLive_congr (by rw [Chip.takeBlock, chip_get_modPcs]) (by rw [Chip.takeBlock, chip_get_modPcs])

theorem takeBlock_singlePermitted {c : Chip} {p : Port} {b : Block} : (c.takeBlock p b).singlePermitted p = c.singlePermitted p :=
  singlePermitted_congr (by rw [Chip.takeBlock, chip_get_modPcs]) (by rw [Chip.takeBlock, chip_get_modPcs])

/-- LANE_DOWN beside a live lane, where both ends permit single-lane degrade. -/
theorem laneDownRx_changes {c : Chip} {p : Port} {l : LaneId} {sp bl : Nat} (hlive : c.laneLive p l = true)
    (hother : c.laneLive p (otherLane l) = true) (hsingle : c.singlePermitted p = true) :
    Chip.LaneFailed p l (c.laneDownRx p l sp bl) ∧ (c.laneDownRx p l sp bl).pcs[p].rxChange = some (sp, bl, (otherLane l).val + 1) ∧
      ∃ b, Chip.Changing p ((otherLane l).val + 1) none b (c.laneDownRx p l sp bl) := by
  have hstages : ∃ (f : Trk → Trk), c.laneDownRx p l sp bl = ((((Chip.oneLaneLeft p l c).modTrk p f).rxChangeAt p sp bl
      ((otherLane l).val + 1)).changeAtBoundary p 0 (laneChangeTo ((otherLane l).val + 1))).raiseLink p 0x11 l.val := by
    refine ⟨?_, ?eq⟩
    case eq =>
      rw [Chip.laneDownRx, Chip.oneLaneLeft, hlive, hother, hsingle]
      rfl
  obtain ⟨f, heq⟩ := hstages
  have hleft := oneLaneLeft_failed c p l
  generalize Chip.oneLaneLeft p l c = a at heq hleft
  obtain ⟨b, hb⟩ : ∃ b, b = (a.modTrk p f).rxChangeAt p sp bl ((otherLane l).val + 1) := ⟨_, rfl⟩
  have hstart : a.Spares [F.TRK_STATUS_LANES p] b := by
    rw [hb, Chip.rxChangeAt]
    exact Chip.Spares.refl.modTrk.modPcs
  have hrx : b.pcs[p].rxChange = some (sp, bl, (otherLane l).val + 1) := by
    simp only [hb, Chip.rxChangeAt, chip_modPcs_pcs, upd_same]
  rw [← hb] at heq
  have hchange : Chip.Changing p ((otherLane l).val + 1) none b (b.changeAtBoundary p 0 (laneChangeTo ((otherLane l).val + 1))) :=
    changeAtBoundary_changing rfl rfl rfl
  generalize b.changeAtBoundary p 0 (laneChangeTo ((otherLane l).val + 1)) = e at heq hchange
  have hraise : e.SameTrunk (c.laneDownRx p l sp bl) := by
    rw [heq]
    exact Chip.SameTrunk.refl.raise
  have hdone := hchange.of_sameTrunk hraise
  exact ⟨hleft.of_spares (hstart.trans (hdone.spares rfl)), hdone.rxChange.trans hrx, b, hdone⟩

theorem laneDownRx_degrades {s : State} {p : Port} {b : Block} {l sp bl : Nat} (hlive : s.hub.chip.laneLive p (laneOfBit l) = true)
    (hother : s.hub.chip.laneLive p (otherLane (laneOfBit l)) = true) (hown : s.hub.chip.on (F.TRK_CTL_SINGLE_LANE_EN p) = true)
    (hpartner : s.hub.chip.on (F.TRK_PARTNER_CAP_SINGLE_LANE_EN p) = true) (hdecode : laneCtlDecode b = some (0x01, l, sp, bl)) :
    ∃ t, exec (.laneDownRx p b) s = .next t ∧ coreOnly s t ∧ t.hub.chip.get (laneState p (laneOfBit l)) = laneFailed ∧
      t.hub.chip.get (laneState p (otherLane (laneOfBit l))) = laneActive ∧
      t.hub.chip.pcs[p].rxChange = some (sp, bl, (otherLane (laneOfBit l)).val + 1) ∧
      ((∃ x, t.hub.chip.pcs[p].change = some x ∧ x.lanes = (otherLane (laneOfBit l)).val + 1) ∨
        t.hub.chip.trk[p].txLanes = (otherLane (laneOfBit l)).val + 1) ∧
      t.hub.chip.get (F.TRK_INT_STATUS_LANE_FAIL p) = 1 := by
  show ∃ t, execLaneDownRx p b s = .next t ∧ _
  unfold execLaneDownRx
  refine onChip_runs fun d hd => ?_
  rw [laneCtlRx_down (on_iff.mpr (laneLive_iff.mp hlive).1) hdecode] at hd
  obtain ⟨⟨hfailed, hactive, hevent⟩, hrx, e, hchange⟩ := laneDownRx_changes (sp := sp) (bl := bl) (takeBlock_laneLive (b := b).trans hlive)
    (takeBlock_laneLive.trans hother) (takeBlock_singlePermitted.trans (singlePermitted_of_on hown hpartner))
  rw [← hd] at hfailed hactive hevent hrx hchange
  simp (disch := (clear * -; generalize laneOfBit _ = l; decide +revert)) only [get_after, after_pcs, after_trk]
  refine ⟨hfailed, hactive, hrx, ?_, hevent⟩
  rcases hchange.change with ⟨x, hx, hlanes, -⟩ | ⟨-, htx, -⟩
  · exact .inl ⟨x, hx, hlanes⟩
  · exact .inr htx

theorem laneDownRx_loses {s : State} {p : Port} {b : Block} {l sp bl : Nat} (hlive : s.hub.chip.laneLive p (laneOfBit l) = true)
    (hsingle : s.hub.chip.laneLive p (otherLane (laneOfBit l)) = false ∨ s.hub.chip.on (F.TRK_CTL_SINGLE_LANE_EN p) = false ∨
      s.hub.chip.on (F.TRK_PARTNER_CAP_SINGLE_LANE_EN p) = false) (hdecode : laneCtlDecode b = some (0x01, l, sp, bl)) :
    ∃ t, exec (.laneDownRx p b) s = .next t ∧ coreOnly s t ∧ t.hub.chip.get (F.TRK_STATUS_LINK_UP p) = 0 ∧
      t.hub.chip.get (F.TRK_INT_STATUS_LINK_DOWN p) = 1 := by
  have hnot : ((s.hub.chip.takeBlock p b).singlePermitted p && (s.hub.chip.takeBlock p b).laneLive p (otherLane (laneOfBit l))) = false := by
    rw [takeBlock_singlePermitted, takeBlock_laneLive, Chip.singlePermitted]
    rcases hsingle with h | h | h
    · rw [h, Bool.and_false]
    · rw [h, Bool.false_and, Bool.false_and]
    · rw [h, Bool.and_false, Bool.false_and]
  show ∃ t, execLaneDownRx p b s = .next t ∧ _
  unfold execLaneDownRx
  refine onChip_runs fun d hd => ?_
  rw [laneCtlRx_down (on_iff.mpr (laneLive_iff.mp hlive).1) hdecode, Chip.laneDownRx, takeBlock_laneLive, hlive, hnot, if_pos rfl,
    if_neg Bool.false_ne_true] at hd
  obtain ⟨-, ⟨hdown, -, hevent⟩, -⟩ := linkLost_ends (s.hub.chip.takeBlock p b) p
  simp (disch := (clear * -; decide +revert)) only [get_after]
  rw [hd]
  exact ⟨hdown, hevent⟩

end Sys2Proof.Proofs
end

section
/-! A failed lane rejoins, and lane B goes quiet (02 R69, R70). -/

namespace Sys2Proof.Proofs

open Machine Safety

theorem laneJoinAttempt_trains {s : State} {p : Port} {l : LaneId} (hup : s.hub.chip.on (F.TRK_STATUS_LINK_UP p) = true)
    (hstate : s.hub.chip.get (laneState p l) = laneFailed) (hout : s.hub.chip.laneOut p l = false) :
    ∃ t, exec (.laneJoinAttempt p l) s = .next t ∧ coreOnly s t ∧ t.hub.chip.get (laneState p l) = laneTraining ∧
      t.hub.chip.trk[p].joinTries[l] = s.hub.chip.trk[p].joinTries[l] + 1 := by
  show ∃ t, execLaneJoinAttempt p l s = .next t ∧ _
  unfold execLaneJoinAttempt
  refine onChip_when_runs (by simp [hup, hstate, hout]) fun d hd => ?_
  simp (disch := (clear * -; decide +revert)) only [get_after, after_trk]
  constructor
  · rw [hd]
    simp (disch := (clear * -; decide +revert)) only [get_put_of_lt]
  · simp only [hd, chip_put_trk, chip_modTrk_trk, upd_same]

/-- A lane that has locked announces that it joins. -/
theorem laneJoin_announces {c : Chip} {p : Port} {l : LaneId} {ahead : Nat} {d : Chip}
    (hd : d = c.announceChange p 0x02 l ahead { laneChangeTo 0 with joins := some l }) :
    (∃ x, d.pcs[p].change = some x ∧ x.lanes = 0 ∧ x.joins = some l) ∨ d.get (laneState p l) = laneActive ∧ d.trk[p].txLanes = 0 := by
  have hchange : Chip.Changing p 0 (some l) c d := by
    rw [hd]
    exact announceChange_changing rfl rfl rfl
  rcases hchange.change with ⟨x, hx, hlanes, hjoins, -⟩ | ⟨-, htx, hactive⟩
  · exact .inl ⟨x, hx, hlanes, hjoins⟩
  · exact .inr ⟨hactive l rfl, htx⟩

theorem laneJoinLocked_joins {s : State} {p : Port} {l : LaneId} (hup : s.hub.chip.on (F.TRK_STATUS_LINK_UP p) = true)
    (hstate : s.hub.chip.get (laneState p l) = laneTraining) (hchange : s.hub.chip.pcs[p].change = none) :
    ∃ t, exec (.laneJoinLocked p l true) s = .next t ∧ coreOnly s t ∧
      ((∃ x, t.hub.chip.pcs[p].change = some x ∧ x.lanes = 0 ∧ x.joins = some l) ∨
        t.hub.chip.get (laneState p l) = laneActive ∧ t.hub.chip.trk[p].txLanes = 0) := by
  show ∃ t, execLaneJoinLocked p l true s = .next t ∧ _
  unfold execLaneJoinLocked
  refine onChip_when_runs (by rw [hup, hstate, hchange]; rfl) fun d hd => ?_
  rw [if_pos rfl] at hd
  simp (disch := (clear * -; decide +revert)) only [get_after, after_pcs, after_trk]
  exact laneJoin_announces hd

theorem laneJoinLocked_fails {s : State} {p : Port} {l : LaneId} (hup : s.hub.chip.on (F.TRK_STATUS_LINK_UP p) = true)
    (hstate : s.hub.chip.get (laneState p l) = laneTraining) (hchange : s.hub.chip.pcs[p].change = none) :
    ∃ t, exec (.laneJoinLocked p l false) s = .next t ∧ registersOnly s t ∧ t.hub.chip.get (laneState p l) = laneFailed := by
  show ∃ t, execLaneJoinLocked p l false s = .next t ∧ _
  unfold execLaneJoinLocked
  refine onChip_runs_registers (d := s.hub.chip.put (laneState p l) laneFailed) ?_ rfl ?_
  · rw [when_pos (by rw [hup, hstate, hchange]; rfl), if_neg Bool.false_ne_true]
  · simp (disch := (clear * -; decide +revert)) only [get_after, get_put_of_lt]

/-- A LANE_JOIN on a running link, of a lane that trains, with no change of the lanes under way. -/
theorem laneCtlRx_join {c : Chip} {p : Port} {b : Block} {locked : Bool} {l sp bl : Nat} (hup : c.on (F.TRK_STATUS_LINK_UP p) = true)
    (hdecode : laneCtlDecode b = some (0x02, l, sp, bl)) (hstate : c.get (laneState p (laneOfBit l)) = laneTraining)
    (hchange : c.pcs[p].change = none) : ∃ (a : Chip) (n : Nat), a.pcs[p].change = none ∧ a.get (laneState p (laneOfBit l)) = laneTraining ∧
      c.laneCtlRx p b locked = if locked then
          (a.rxChangeAt p sp bl 0).announceChange p 0x02 (laneOfBit l) n { laneChangeTo 0 with joins := some (laneOfBit l) }
        else (a.announceChange p 0x01 (laneOfBit l) 0 (laneChangeTo n)).when
          ((a.announceChange p 0x01 (laneOfBit l) 0 (laneChangeTo n)).get (laneState p (laneOfBit l)) == laneTraining)
            fun c => c.put (laneState p (laneOfBit l)) laneFailed := by
  obtain ⟨a, ha⟩ : ∃ a, a = c.takeBlock p b := ⟨_, rfl⟩
  have hachange : a.pcs[p].change = none := by
    simp only [ha, Chip.takeBlock, chip_modPcs_pcs, upd_same, hchange]
  have hastate : a.get (laneState p (laneOfBit l)) = laneTraining := by rw [ha, Chip.takeBlock, chip_get_modPcs, hstate]
  have hnotlive : a.laneLive p (laneOfBit l) = false := by
    rw [Chip.laneLive, hastate, Bool.and_eq_false_iff]
    exact .inr rfl
  have hrx : c.laneCtlRx p b locked = a.laneJoinRx p (laneOfBit l) locked sp bl := by
    rw [Chip.laneCtlRx, hup, hdecode, ha]
    rfl
  cases locked
  · exact ⟨a, a.trk[p].txLanes, hachange, hastate, by
      rw [hrx, Chip.laneJoinRx, hnotlive, hachange, if_neg (by decide), Bool.false_and, if_neg Bool.false_ne_true, if_neg Bool.false_ne_true]⟩
  · exact ⟨a, a.portBlocksIn p 50_000, hachange, hastate, by
      rw [hrx, Chip.laneJoinRx, hnotlive, hachange, if_neg (by decide), hastate, if_pos (by decide), if_pos rfl]⟩

theorem laneJoinRx_joins {s : State} {p : Port} {b : Block} {l sp bl : Nat} (hup : s.hub.chip.on (F.TRK_STATUS_LINK_UP p) = true)
    (hdecode : laneCtlDecode b = some (0x02, l, sp, bl)) (hstate : s.hub.chip.get (laneState p (laneOfBit l)) = laneTraining)
    (hchange : s.hub.chip.pcs[p].change = none) :
    ∃ t, exec (.laneJoinRx p b true) s = .next t ∧ coreOnly s t ∧ t.hub.chip.pcs[p].rxChange = some (sp, bl, 0) ∧
      ((∃ x, t.hub.chip.pcs[p].change = some x ∧ x.lanes = 0 ∧ x.joins = some (laneOfBit l)) ∨
        t.hub.chip.get (laneState p (laneOfBit l)) = laneActive ∧ t.hub.chip.trk[p].txLanes = 0) := by
  show ∃ t, execLaneJoinRx p b true s = .next t ∧ _
  unfold execLaneJoinRx
  refine onChip_runs fun d hd => ?_
  obtain ⟨a, n, -, -, heq⟩ := laneCtlRx_join (locked := true) hup hdecode hstate hchange
  rw [heq, if_pos rfl] at hd
  generalize laneOfBit l = l at hd hstate
  have hrx : d.pcs[p].rxChange = some (sp, bl, 0) := by
    have hchange : Chip.Changing p 0 (some l) (a.rxChangeAt p sp bl 0) d := by
      rw [hd]
      exact announceChange_changing rfl rfl rfl
    rw [hchange.rxChange]
    simp only [Chip.rxChangeAt, chip_modPcs_pcs, upd_same]
  simp (disch := (clear * -; decide +revert)) only [get_after, after_pcs, after_trk]
  exact ⟨hrx, laneJoin_announces hd⟩

theorem laneJoinRx_fails {s : State} {p : Port} {b : Block} {l sp bl : Nat} (hup : s.hub.chip.on (F.TRK_STATUS_LINK_UP p) = true)
    (hdecode : laneCtlDecode b = some (0x02, l, sp, bl)) (hstate : s.hub.chip.get (laneState p (laneOfBit l)) = laneTraining)
    (hchange : s.hub.chip.pcs[p].change = none) :
    ∃ t, exec (.laneJoinRx p b false) s = .next t ∧ coreOnly s t ∧ t.hub.chip.get (laneState p (laneOfBit l)) = laneFailed := by
  show ∃ t, execLaneJoinRx p b false s = .next t ∧ _
  unfold execLaneJoinRx
  refine onChip_runs fun d hd => ?_
  obtain ⟨a, n, -, hatrain, heq⟩ := laneCtlRx_join (locked := false) hup hdecode hstate hchange
  rw [heq, if_neg Bool.false_ne_true] at hd
  generalize laneOfBit l = l at hd hatrain
  have hannounced : Chip.Changing p n none a (a.announceChange p 0x01 l 0 (laneChangeTo n)) := announceChange_changing rfl rfl rfl
  generalize a.announceChange p 0x01 l 0 (laneChangeTo n) = e at hd hannounced
  have htrain : e.get (laneState p l) = laneTraining := ((hannounced.spares rfl).get (by clear * -; decide +revert)).trans hatrain
  rw [when_pos (beq_iff_eq.mpr htrain)] at hd
  simp (disch := (clear * -; decide +revert)) only [get_after]
  rw [hd]
  simp (disch := (clear * -; decide +revert)) only [get_put_of_lt]

theorem quietEnter_announces {s : State} {p : Port} {util : Nat} (hup : s.hub.chip.on (F.TRK_STATUS_LINK_UP p) = true)
    (hown : s.hub.chip.on (F.TRK_CTL_QUIET_EN p) = true) (hpartner : s.hub.chip.on (F.TRK_PARTNER_CAP_QUIET_EN p) = true)
    (hstate : s.hub.chip.get (F.TRK_LANE_B_STATE p) = laneActive) (htx : s.hub.chip.trk[p].txLanes = 0)
    (hchange : s.hub.chip.pcs[p].change = none) (hutil : util < s.hub.chip.get (F.TRK_QUIET_CFG_ENTER_UTIL p)) :
    ∃ t, exec (.quietEnter p util) s = .next t ∧ coreOnly s t ∧ t.hub.chip.trk[p] = { s.hub.chip.trk[p] with qnext := true } ∧
      wordsKept [] s t := by
  have hstate' : s.hub.chip.get (laneState p 1) = laneActive := hstate
  show ∃ t, execQuietEnter p util s = .next t ∧ _
  unfold execQuietEnter
  refine onChip_when_runs (by rw [hup, hown, hpartner, hstate', htx, hchange, decide_eq_true hutil]; rfl) fun d hd => ?_
  simp only [after_trk]
  exact ⟨by simp only [hd, chip_modTrk_trk, upd_same], wordsKept_after (by rw [hd]; exact .modTrk .refl)⟩

theorem quietRefreshBurst_refreshes {s : State} {p : Port} (hup : s.hub.chip.on (F.TRK_STATUS_LINK_UP p) = true)
    (hquiet : s.hub.chip.trk[p].txQuiet = true) (hmoored : s.hub.chip.mooredPort p = false) :
    ∃ t, exec (.quietRefreshBurst p) s = .next t ∧ coreOnly s t ∧ t.hub.chip.outbox = s.hub.chip.outbox ++ [Out.refresh p] ∧
      wordsKept [] s t := by
  show ∃ t, execQuietRefreshBurst p s = .next t ∧ _
  unfold execQuietRefreshBurst
  refine onChip_when_runs (by rw [hup, hquiet, hmoored]; rfl) fun d hd => ?_
  simp only [after_outbox]
  rw [hd]
  exact ⟨chip_emit_outbox _ _, wordsKept_after (.emit .refl)⟩

end Sys2Proof.Proofs
end

section
/-! Lane B is woken (02 R71). -/

namespace Sys2Proof.Proofs

open Machine Safety

/-- What the waking of lane B leaves of a port at `c`. -/
structure Chip.WokenB (p : Port) (c d : Chip) : Prop where
  active : d.get (F.TRK_LANE_B_STATE p) = laneActive
  quiet : d.trk[p].txQuiet = false
  change : (∃ x, d.pcs[p].change = some x ∧ x.lanes = 0 ∧ x.quiet = false) ∨ d.trk[p].txLanes = 0
  rxChange : d.pcs[p].rxChange = c.pcs[p].rxChange
  rxLanes : d.trk[p].rxLanes = c.trk[p].rxLanes
  qnext : d.trk[p].qnext = c.trk[p].qnext

theorem wakeLaneB_wakes (c : Chip) (p : Port) : Chip.WokenB p c (c.wakeLaneB p) := by
  have hstages : ∃ e, Chip.Changing p 0 none c e ∧ c.wakeLaneB p = (e.modTrk p fun t => { t with txQuiet := false }).put (laneState p 1) laneActive :=
    ⟨_, announceChange_changing rfl rfl rfl, by rw [Chip.wakeLaneB]⟩
  obtain ⟨e, hchange, heq⟩ := hstages
  have hpcs : (c.wakeLaneB p).pcs = e.pcs := by rw [heq, chip_put_pcs, chip_modTrk_pcs]
  have htrk : (c.wakeLaneB p).trk = upd e.trk p fun t => { t with txQuiet := false } := by rw [heq, chip_put_trk, chip_modTrk_trk]
  have hactive : (c.wakeLaneB p).get (laneState p 1) = laneActive := by
    rw [heq]
    simp (disch := (clear * -; decide +revert)) only [get_put_of_lt]
  refine ⟨hactive, by simp only [htrk, upd_same], ?_, by simp only [hpcs, hchange.rxChange], by simp only [htrk, upd_same, hchange.rxLanes],
    by simp only [htrk, upd_same, hchange.qnext]⟩
  rcases hchange.change with ⟨x, hx, hlanes, -, hquiet⟩ | ⟨-, htx, -⟩
  · exact .inl ⟨x, by simp only [hpcs, hx], hlanes, hquiet⟩
  · exact .inr (by simp only [htrk, upd_same, htx])

theorem wakeB_wakes {s : State} {p : Port} {a : Bool} (hup : s.hub.chip.on (F.TRK_STATUS_LINK_UP p) = true)
    (hmoored : s.hub.chip.mooredPort p = false) (hquiet : s.hub.chip.trk[p].txQuiet = true) (hchange : s.hub.chip.pcs[p].change = none)
    (hwanted : a = true ∨ s.hub.chip.strictToward p = true ∨
      s.hub.chip.get (F.TRK_QUIET_CFG_WAKE_KIB p) * 1024 < s.hub.chip.queuedToward p) :
    ∃ t, exec (.wakeB p a) s = .next t ∧ coreOnly s t ∧ t.hub.chip.trk[p].qnext = false ∧
      (if s.hub.chip.laneLive p 1 = true then
        t.hub.chip.get (F.TRK_LANE_B_STATE p) = laneActive ∧ t.hub.chip.trk[p].txQuiet = false ∧
        ((∃ x, t.hub.chip.pcs[p].change = some x ∧ x.lanes = 0 ∧ x.quiet = false) ∨ t.hub.chip.trk[p].txLanes = 0)
       else t.hub.chip.trk[p].txLanes = s.hub.chip.trk[p].txLanes ∧ wordsKept [] s t) := by
  have hwake : (a || s.hub.chip.strictToward p ||
      decide (s.hub.chip.get (F.TRK_QUIET_CFG_WAKE_KIB p) * 1024 < s.hub.chip.queuedToward p)) = true := by
    simpa [or_assoc] using hwanted
  have hcond : (s.hub.chip.on (F.TRK_STATUS_LINK_UP p) && !s.hub.chip.mooredPort p &&
      (a || s.hub.chip.strictToward p || decide (s.hub.chip.get (F.TRK_QUIET_CFG_WAKE_KIB p) * 1024 < s.hub.chip.queuedToward p))) = true := by
    rw [hup, hmoored, hwake]; rfl
  show ∃ t, execWakeB p a s = .next t ∧ _
  unfold execWakeB
  refine onChip_runs fun d hd => ?_
  have hstages : ∃ (e : Chip) (leaving : Bool), e = s.hub.chip.modTrk p (fun t => { t with qnext := false, qsent := false }) ∧
      d = e.when (e.laneLive p 1 && (leaving || (e.trk[p].txQuiet && e.pcs[p].change.isNone))) (Chip.wakeLaneB p) :=
    ⟨_, _, rfl, hd.trans (when_pos hcond)⟩
  clear hd
  obtain ⟨e, leaving, he, hd⟩ := hstages
  have hlive : e.laneLive p 1 = s.hub.chip.laneLive p 1 :=
    laneLive_congr (by rw [he, chip_get_modTrk]) (by rw [he, chip_get_modTrk])
  have hasleep : (leaving || (e.trk[p].txQuiet && e.pcs[p].change.isNone)) = true := by
    simp only [he, chip_modTrk_trk, chip_modTrk_pcs, upd_same, hquiet, hchange, Option.isNone_none, Bool.and_self, Bool.or_true]
  have heq : e.trk[p].qnext = false := by simp only [he, chip_modTrk_trk, upd_same]
  rw [hlive, hasleep, Bool.and_true] at hd
  simp (disch := (clear * -; decide +revert)) only [get_after, after_pcs, after_trk]
  by_cases hB : s.hub.chip.laneLive p 1 = true
  · have hwoken : Chip.WokenB p e d := by
      rw [hd, when_pos hB]
      exact wakeLaneB_wakes e p
    rw [if_pos hB]
    exact ⟨hwoken.qnext.trans heq, hwoken.active, hwoken.quiet, hwoken.change⟩
  · have hde : d = e := by rw [hd, when_neg (by simpa using hB)]
    rw [if_neg hB, hde]
    exact ⟨heq, by simp only [he, chip_modTrk_trk, upd_same], wordsKept_after (by rw [he]; exact .modTrk .refl)⟩

/-- A WAKE_B on a running link. -/
theorem laneCtlRx_wake {c : Chip} {p : Port} {b : Block} {locked : Bool} {l sp bl : Nat} (hup : c.on (F.TRK_STATUS_LINK_UP p) = true)
    (hdecode : laneCtlDecode b = some (0x03, l, sp, bl)) : c.laneCtlRx p b locked = (c.takeBlock p b).wakeRx p sp bl := by
  rw [Chip.laneCtlRx, hup, hdecode]
  rfl

theorem wakeBRx_wakes {s : State} {p : Port} {b : Block} {l sp bl : Nat} (hup : s.hub.chip.on (F.TRK_STATUS_LINK_UP p) = true)
    (hdecode : laneCtlDecode b = some (0x03, l, sp, bl)) (hstate : s.hub.chip.get (F.TRK_LANE_B_STATE p) = laneQuiet) :
    ∃ t, exec (.wakeBRx p b) s = .next t ∧ coreOnly s t ∧ t.hub.chip.get (F.TRK_LANE_B_STATE p) = laneActive ∧
      t.hub.chip.pcs[p].rxChange = some (sp, bl, 0) ∧ t.hub.chip.trk[p].rxLanes = s.hub.chip.trk[p].rxLanes ∧
      (s.hub.chip.trk[p].txQuiet = false → t.hub.chip.trk[p] = s.hub.chip.trk[p] ∧ wordsKept [(F.TRK_LANE_B p).off] s t) ∧
      (s.hub.chip.trk[p].txQuiet = true → s.hub.chip.pcs[p].change = none → s.hub.chip.mooredPort p = false → t.hub.chip.trk[p].txQuiet = false ∧
        ((∃ x, t.hub.chip.pcs[p].change = some x ∧ x.lanes = 0 ∧ x.quiet = false) ∨ t.hub.chip.trk[p].txLanes = 0)) := by
  show ∃ t, execWakeBRx p b s = .next t ∧ _
  unfold execWakeBRx
  refine onChip_runs fun d hd => ?_
  rw [laneCtlRx_wake hup hdecode] at hd
  obtain ⟨a, ha⟩ : ∃ a, a = (s.hub.chip.takeBlock p b).rxChangeAt p sp bl 0 := ⟨_, rfl⟩
  have haget : ∀ g, a.get g = s.hub.chip.get g := fun g => by rw [ha, Chip.rxChangeAt, Chip.takeBlock, chip_get_modPcs, chip_get_modPcs]
  have hatrk : a.trk = s.hub.chip.trk := by rw [ha, Chip.rxChangeAt, Chip.takeBlock, chip_modPcs_trk, chip_modPcs_trk]
  have harx : a.pcs[p].rxChange = some (sp, bl, 0) := by
    simp only [ha, Chip.rxChangeAt, chip_modPcs_pcs, upd_same]
  have hachange : a.pcs[p].change = s.hub.chip.pcs[p].change := by
    simp only [ha, Chip.rxChangeAt, Chip.takeBlock, chip_modPcs_pcs, upd_same]
  have hquietB : (s.hub.chip.takeBlock p b).get (laneState p 1) = laneQuiet := by
    rw [Chip.takeBlock, chip_get_modPcs]
    exact hstate
  have hakept : s.hub.chip.WordsKept [(F.TRK_LANE_B p).off] a := by
    rw [ha, Chip.rxChangeAt, Chip.takeBlock]
    exact fun _ _ => rfl
  rw [Chip.wakeRx, ← ha, when_pos (beq_iff_eq.mpr hquietB)] at hd
  obtain ⟨e, he⟩ : ∃ e, e = a.put (laneState p 1) laneActive := ⟨_, rfl⟩
  rw [← he] at hd
  have hepcs : e.pcs = a.pcs := by rw [he, chip_put_pcs]
  have hetrk : e.trk = s.hub.chip.trk := by rw [he, chip_put_trk, hatrk]
  have heactive : e.get (laneState p 1) = laneActive := by
    rw [he]
    simp (disch := (clear * -; decide +revert)) only [get_put_of_lt]
  have heup : e.get (F.TRK_STATUS_LINK_UP p) = 1 := by
    rw [he]
    simp (disch := (clear * -; decide +revert)) only [chip_get_put_apart]
    exact (haget _).trans (on_iff.mp hup)
  have helive : e.laneLive p 1 = true := laneLive_iff.mpr ⟨heup, .inl heactive⟩
  have hekept : s.hub.chip.WordsKept [(F.TRK_LANE_B p).off] e := by
    rw [he]
    exact hakept.put (List.mem_singleton_self _)
  have hquiet : e.trk[p].txQuiet = s.hub.chip.trk[p].txQuiet := by simp only [hetrk]
  rw [helive, hquiet, Bool.and_true] at hd
  simp (disch := (clear * -; decide +revert)) only [get_after, after_pcs, after_trk]
  cases hcond : s.hub.chip.trk[p].txQuiet && e.pcs[p].change.isNone with
  | true =>
    have hwoken : Chip.WokenB p e d := by
      rw [hd, when_pos hcond]
      exact wakeLaneB_wakes e p
    refine ⟨hwoken.active, hwoken.rxChange.trans (by simp only [hepcs, harx]), hwoken.rxLanes.trans (by simp only [hetrk]),
      fun hawake => ?_, fun _ _ _ => ⟨hwoken.quiet, hwoken.change⟩⟩
    rw [hawake] at hcond
    cases hcond
  | false =>
    have hde : d = e := by rw [hd, when_neg hcond]
    rw [hde]
    refine ⟨heactive, by simp only [hepcs, harx], by simp only [hetrk], fun _ => ⟨by simp only [hetrk], wordsKept_after hekept⟩,
      fun hasleep hnone _ => ?_⟩
    simp only [hasleep, hepcs, hachange, hnone, Option.isNone_none] at hcond
    cases hcond

end Sys2Proof.Proofs
end

section
/-! A Moored port comes back (02 R73). -/

namespace Sys2Proof.Proofs

open Machine Safety

/-- Two lanes back from Moored at their step. -/
structure Chip.BackFromMoored (p : Port) (c d : Chip) : Prop where
  laneA : d.get (F.TRK_LANE_A_STATE p) = laneActive
  laneB : d.get (F.TRK_LANE_B_STATE p) = laneActive
  outbox : d.outbox = c.outbox ++ [Out.preamble p 0 (c.get (F.TRK_STATUS_STEP p)) preambleLevels,
    Out.preamble p 1 (c.get (F.TRK_STATUS_STEP p)) preambleLevels]
  moorSent : d.trk[p].moorSent = false
  moorSeen : d.trk[p].moorSeen = false
  txLanes : d.trk[p].txLanes = 0
  lanes : d.get (F.TRK_STATUS_LANES p) = 3
  kept : c.WordsKept [(F.TRK_LANE_A p).off, (F.TRK_LANE_B p).off, (F.TRK_MOOR_STATUS p).off, (F.TRK_STATUS p).off] d

/-- Both lanes of a port are Active. -/
def Chip.bothActive (p : Port) (c : Chip) : Chip := (c.put (laneState p 0) laneActive).put (laneState p 1) laneActive

theorem bothActive_live {c : Chip} {p : Port} (hup : c.get (F.TRK_STATUS_LINK_UP p) = 1) (l : LaneId) :
    (Chip.bothActive p c).laneLive p l = true := by
  rw [laneLive_iff, Chip.bothActive]
  refine ⟨?_, .inl ?_⟩
  · simp (disch := (clear * -; decide +revert)) only [chip_get_put_apart]
    exact hup
  · match l with
    | 0 => simp (disch := (clear * -; decide +revert)) only [chip_get_put_apart, get_put_of_lt]
    | 1 => simp (disch := (clear * -; decide +revert)) only [get_put_of_lt]

/-- The port's engine back at a step, dealing to some lanes. -/
def backAt (step tx : Nat) (t : Trk) : Trk :=
  { t with rxStep := step, coefs := t.coefs.map (loadSet step), txLanes := tx, rxLanes := tx, txQuiet := false }

/-- The stages of a Moored port's coming back with valid coefficients. -/
theorem unmoor_eq {c : Chip} {p : Port} {dTemp : Nat} {sends : Bool} (hup : c.get (F.TRK_STATUS_LINK_UP p) = 1)
    (hA : c.get (laneState p 0) = laneMoored) (hB : c.get (laneState p 1) = laneMoored) (hok : c.coefValid p dTemp = true) :
    ∃ (a b : Chip) (f : Trk → Trk), a = (c.put (F.TRK_MOOR_STATUS_COEF_VALID p) 1).put (F.TRK_MOOR_STATUS_COEF_DTEMP p) (min dTemp 255) ∧
      b = (((a.modTrk p fun t => { t with moorSent := false, moorSeen := false }).emit
        (.preamble p 0 (c.get (F.TRK_STATUS_STEP p)) preambleLevels)).emit (.preamble p 1 (c.get (F.TRK_STATUS_STEP p)) preambleLevels)) ∧
      (∀ t, (f t).moorSent = t.moorSent ∧ (f t).moorSeen = t.moorSeen ∧ (f t).txLanes = 0) ∧
      c.unmoor p dTemp sends = ((Chip.bothActive p b).modTrk p f).put (F.TRK_STATUS_LANES p) 3 := by
  have hmoored : (lanes.filter fun l => c.get (laneState p l) == laneMoored) = [0, 1] := by
    simp [lanes, hA, hB]
  obtain ⟨b, hb⟩ : ∃ b, b = ((((c.put (F.TRK_MOOR_STATUS_COEF_VALID p) 1).put (F.TRK_MOOR_STATUS_COEF_DTEMP p) (min dTemp 255)).modTrk p fun t =>
      { t with moorSent := false, moorSeen := false }).emit (.preamble p 0 (c.get (F.TRK_STATUS_STEP p)) preambleLevels)).emit
        (.preamble p 1 (c.get (F.TRK_STATUS_STEP p)) preambleLevels) := ⟨_, rfl⟩
  have hbup : b.get (F.TRK_STATUS_LINK_UP p) = 1 := by
    rw [hb, chip_get_emit, chip_get_emit, chip_get_modTrk]
    simp (disch := (clear * -; decide +revert)) only [chip_get_put_apart]
    exact hup
  have hunmoor : ∃ tx, tx = (if (Chip.bothActive p b).laneLive p 0 && (Chip.bothActive p b).laneLive p 1 then 0 else
      if (Chip.bothActive p b).laneLive p 0 then 1 else 2) ∧
      c.unmoor p dTemp sends = ((Chip.bothActive p b).modTrk p (backAt (c.get (F.TRK_STATUS_STEP p)) tx)).put (F.TRK_STATUS_LANES p)
        (lanesShown tx) := by
    refine ⟨_, rfl, ?_⟩
    rw [Chip.unmoor, hok, hmoored, Bool.true_or, hb, Chip.bothActive]
    rfl
  obtain ⟨tx, htx, heq⟩ := hunmoor
  rw [bothActive_live hbup, bothActive_live hbup] at htx
  subst htx
  exact ⟨_, b, backAt (c.get (F.TRK_STATUS_STEP p)) 0, rfl, hb, fun _ => ⟨rfl, rfl, rfl⟩, heq⟩

theorem unmoor_back {c : Chip} {p : Port} {dTemp : Nat} {sends : Bool} (hup : c.get (F.TRK_STATUS_LINK_UP p) = 1)
    (hA : c.get (laneState p 0) = laneMoored) (hB : c.get (laneState p 1) = laneMoored) (hok : c.coefValid p dTemp = true) :
    Chip.BackFromMoored p c (c.unmoor p dTemp sends) := by
  obtain ⟨a, b, f, ha, hb, hf, heq⟩ := unmoor_eq (sends := sends) hup hA hB hok
  generalize c.unmoor p dTemp sends = d at heq
  have hatrk : a.trk = c.trk := by rw [ha, chip_put_trk, chip_put_trk]
  have hbtrk : b.trk = upd a.trk p fun t => { t with moorSent := false, moorSeen := false } := by
    rw [hb, chip_emit_trk, chip_emit_trk, chip_modTrk_trk]
  have hboutbox : b.outbox = c.outbox ++ [Out.preamble p 0 (c.get (F.TRK_STATUS_STEP p)) preambleLevels,
      Out.preamble p 1 (c.get (F.TRK_STATUS_STEP p)) preambleLevels] := by
    rw [hb, chip_emit_outbox, chip_emit_outbox, chip_modTrk_outbox, ha, chip_put_outbox, chip_put_outbox, List.append_assoc]
    rfl
  have hbkept : c.WordsKept [(F.TRK_LANE_A p).off, (F.TRK_LANE_B p).off, (F.TRK_MOOR_STATUS p).off, (F.TRK_STATUS p).off] b := by
    rw [hb, ha]
    refine .emit (.emit (.modTrk (.put (.put .refl ?_) ?_)))
    all_goals exact List.mem_cons_of_mem _ (List.mem_cons_of_mem _ List.mem_cons_self)
  obtain ⟨e, he⟩ : ∃ e, e = Chip.bothActive p b := ⟨_, rfl⟩
  rw [← he] at heq
  have hetrk : e.trk = b.trk := by rw [he, Chip.bothActive, chip_put_trk, chip_put_trk]
  have heoutbox : e.outbox = b.outbox := by rw [he, Chip.bothActive, chip_put_outbox, chip_put_outbox]
  have helaneA : e.get (laneState p 0) = laneActive := by
    rw [he, Chip.bothActive]
    simp (disch := (clear * -; decide +revert)) only [chip_get_put_apart, get_put_of_lt]
  have helaneB : e.get (laneState p 1) = laneActive := by
    rw [he, Chip.bothActive]
    simp (disch := (clear * -; decide +revert)) only [get_put_of_lt]
  have hdtrk : d.trk = upd e.trk p f := by rw [heq, chip_put_trk, chip_modTrk_trk]
  have hdget : ∀ l, d.get (laneState p l) = e.get (laneState p l) := fun l => by
    rw [heq]
    simp (disch := (clear * -; decide +revert)) only [chip_get_put_apart]
    rw [chip_get_modTrk]
  have hdlanes : d.get (F.TRK_STATUS_LANES p) = 3 := by
    rw [heq]
    simp (disch := (clear * -; decide +revert)) only [get_put_of_lt]
  obtain ⟨hsent, hseen, htx⟩ := hf e.trk[p]
  exact {
    laneA := (hdget 0).trans helaneA
    laneB := (hdget 1).trans helaneB
    outbox := by rw [heq, chip_put_outbox, chip_modTrk_outbox, heoutbox, hboutbox]
    moorSent := by simp only [hdtrk, upd_same, hsent]; simp only [hetrk, hbtrk, upd_same]
    moorSeen := by simp only [hdtrk, upd_same, hseen]; simp only [hetrk, hbtrk, upd_same]
    txLanes := by simp only [hdtrk, upd_same, htx]
    lanes := hdlanes
    kept := by
      rw [heq, he, Chip.bothActive]
      refine .put (.modTrk (.put (.put hbkept ?_) ?_)) ?_
      · exact List.mem_cons_self
      · exact List.mem_cons_of_mem _ List.mem_cons_self
      · exact List.mem_cons_of_mem _ (List.mem_cons_of_mem _ (List.mem_cons_of_mem _ List.mem_cons_self)) }

end Sys2Proof.Proofs
end

section
/-! The port's lanes carry the link through its spans and switches (02 R37, R57, R62). -/

namespace Sys2Proof.Proofs

open Machine Safety

/-- The link is up on lanes that are Active or Quiet. -/
def Chip.Carrying (p : Port) (c : Chip) : Prop :=
  c.get (F.TRK_STATUS_LINK_UP p) = 1 ∧ ∀ l, c.get (laneState p l) = laneActive ∨ c.get (laneState p l) = laneQuiet

theorem linkUp_ofTrunk (p : Port) : (F.TRK_STATUS_LINK_UP p).ofTrunk = true := by
  decide +revert

section
variable {c d : Chip} {p : Port}

theorem Chip.Carrying.of_spares {fs : List Field} (h : Chip.Carrying p c) (hs : c.Spares fs d)
    (hfs : ((F.TRK_STATUS_LINK_UP p).besides fs && (laneState p 0).besides fs && (laneState p 1).besides fs) = true) : Chip.Carrying p d := by
  simp only [Bool.and_eq_true] at hfs
  obtain ⟨⟨hup, hA⟩, hB⟩ := hfs
  refine ⟨(hs.get hup).trans h.1, fun l => ?_⟩
  match l with
  | 0 => rw [hs.get hA]; exact h.2 0
  | 1 => rw [hs.get hB]; exact h.2 1

theorem Chip.Carrying.of_sameTrunk (h : Chip.Carrying p c) (hs : c.SameTrunk d) : Chip.Carrying p d :=
  ⟨(hs.get (linkUp_ofTrunk p)).trans h.1, fun l => by rw [hs.get (laneState_ofTrunk p l)]; exact h.2 l⟩

theorem Chip.Carrying.emit {o : Out} (h : Chip.Carrying p c) : Chip.Carrying p (c.emit o) := h
theorem Chip.Carrying.modTrk {f : Trk → Trk} (h : Chip.Carrying p c) : Chip.Carrying p (c.modTrk p f) := h
theorem Chip.Carrying.modPcs {f : Pcs → Pcs} (h : Chip.Carrying p c) : Chip.Carrying p (c.modPcs p f) := h

theorem Chip.Carrying.when {b : Bool} {f : Chip → Chip} (h : Chip.Carrying p c) (hf : Chip.Carrying p c → Chip.Carrying p (f c)) :
    Chip.Carrying p (c.when b f) := by
  cases b
  exacts [h, hf h]

end

/-- A write of another field than the link's and its lanes' states. -/
theorem Chip.Carrying.put {c : Chip} {p : Port} {f : Field} {v : Nat} (h : Chip.Carrying p c) (hf : (f.ok && (F.TRK_STATUS_LINK_UP p).apart f &&
    (laneState p 0).apart f && (laneState p 1).apart f) = true) : Chip.Carrying p (c.put f v) := by
  simp only [Bool.and_eq_true] at hf
  obtain ⟨⟨⟨hok, hup⟩, hA⟩, hB⟩ := hf
  refine ⟨(chip_get_put_apart _ _ _ _ hok hup).trans h.1, fun l => ?_⟩
  match l with
  | 0 => rw [chip_get_put_apart _ _ _ _ hok hA]; exact h.2 0
  | 1 => rw [chip_get_put_apart _ _ _ _ hok hB]; exact h.2 1

theorem Chip.Carrying.flag {c : Chip} {p : Port} {f : Field} (h : Chip.Carrying p c) (hf : (f.ok && (F.TRK_STATUS_LINK_UP p).apart f &&
    (laneState p 0).apart f && (laneState p 1).apart f) = true) : Chip.Carrying p (c.flag f) :=
  h.put (v := 1) hf

/-- A lane becomes Active or Quiet. -/
theorem Chip.Carrying.putState {c : Chip} {p : Port} {l : LaneId} {v : Nat} (h : Chip.Carrying p c) (hv : v = laneActive ∨ v = laneQuiet) :
    Chip.Carrying p (c.put (laneState p l) v) := by
  have hlt : v < 2 ^ (laneState p l).width := by
    have hwidth : (laneState p l).width = 3 := by clear * -; decide +revert
    rcases hv with rfl | rfl
    · rw [hwidth]; decide
    · rw [hwidth]; decide
  have hself : (c.put (laneState p l) v).get (laneState p l) = v := get_put_of_lt (by clear * -; decide +revert) hlt
  refine ⟨(chip_get_put_apart _ _ _ _ (by clear * -; decide +revert) (by clear * -; decide +revert)).trans h.1, fun l' => ?_⟩
  by_cases hl : l' = l
  · rw [hl, hself]; exact hv
  · rw [chip_get_put_apart _ _ _ _ (by clear * -; decide +revert) (by clear * - hl; decide +revert)]; exact h.2 l'

theorem Chip.Carrying.laneChanged {c : Chip} {p : Port} {x : LaneChange} (h : Chip.Carrying p c) : Chip.Carrying p (Chip.laneChanged p x c) := by
  rw [Chip.laneChanged]
  exact .when (.put (.modTrk (.modPcs h)) (by clear * -; decide +revert)) fun h => h.putState (.inr rfl)

theorem Chip.Carrying.laneJoined {c : Chip} {p : Port} {l : LaneId} (h : Chip.Carrying p c) : Chip.Carrying p (c.laneJoined p l) := by
  unfold Chip.laneJoined
  refine .when (.modTrk (.put (.put (.flag (h.putState (.inl rfl)) ?_) ?_) ?_)) fun h => h.of_sameTrunk (raiseLink_sameTrunk _ _ _ _ _)
  all_goals clear * -; decide +revert

theorem carrying_stable (p : Port) : PcsStable p (Chip.Carrying p) where
  emit h := h
  pcs _ h := h
  due {c} h := by
    rcases laneChangeDue_cases c p with heq | ⟨x, -, ⟨-, heq⟩ | ⟨l, -, heq⟩⟩
    · rw [heq]; exact h
    · rw [heq]; exact h.laneChanged
    · rw [heq]; exact h.laneChanged.laneJoined

theorem Chip.Carrying.showPort {c : Chip} {p : Port} (h : Chip.Carrying p c) : Chip.Carrying p (c.showPort p) := by
  have hmargins : ∀ {d : Chip} (l : LaneId), Chip.Carrying p d → Chip.Carrying p (d.showMargins p l) := fun l hd => by
    exact hd.of_spares (.of_writes (showMargins_writes _ p l)) (by clear * -; decide +revert)
  exact hmargins 1 (hmargins 0 h)

theorem Chip.Carrying.enforceLimits {c : Chip} {p : Port} (h : Chip.Carrying p c) : Chip.Carrying p (c.enforceLimits p) :=
  h.of_spares (enforceLimits_keepsChannel c p).spares (by clear * -; decide +revert)

theorem Chip.Carrying.startHoldoff {c : Chip} {p : Port} {step : Nat} (h : Chip.Carrying p c) : Chip.Carrying p (c.startHoldoff p step) := by
  unfold Chip.startHoldoff Chip.showHoldoff
  exact h.modTrk.put (by clear * -; decide +revert)

theorem Chip.Carrying.shiftResult {c : Chip} {p : Port} {start target cause result reason : Nat} (h : Chip.Carrying p c) :
    Chip.Carrying p (c.shiftResult p start target cause result reason) := by
  unfold Chip.shiftResult
  refine .put (.put (.put (.put (.put h ?_) ?_) ?_) ?_) ?_
  all_goals clear * -; decide +revert

/-- What a shift that is done, or has failed on a lane, records. -/
theorem Chip.Carrying.shiftEnded {c : Chip} {p : Port} {failed : Bool} {start target cause : Nat} (h : Chip.Carrying p c) :
    Chip.Carrying p (let c := c.put (F.TRK_STATUS_SHIFT_PENDING p) 0
      if failed then c else (c.flag (F.TRK_INT_STATUS_SHIFT_DONE p)).shiftResult p start target cause 0 0) := by
  have hended : Chip.Carrying p (c.put (F.TRK_STATUS_SHIFT_PENDING p) 0) := h.put (by clear * -; decide +revert)
  cases failed
  · exact (hended.flag (by clear * -; decide +revert)).shiftResult
  · exact hended

theorem Chip.Carrying.shiftCheckDone {c : Chip} {p : Port} (h : Chip.Carrying p c) : Chip.Carrying p (c.shiftCheckDone p) := by
  unfold Chip.shiftCheckDone
  split
  · exact (h.modTrk.shiftEnded.when fun h => h.startHoldoff).enforceLimits
  · exact h.modTrk.shiftEnded.enforceLimits
  · exact h

theorem Chip.Carrying.fillGroup {c : Chip} {p : Port} (h : Chip.Carrying p c) : Chip.Carrying p (c.fillGroup p) := (carrying_stable p).fillGroup h

theorem Chip.Carrying.txSwitch {c : Chip} {p : Port} {target : Nat} (h : Chip.Carrying p c) : Chip.Carrying p (c.txSwitch p target) := by
  unfold Chip.txSwitch
  refine chip_each_keeps (Chip.Carrying p) _ _ _ ?_ fun _ _ h => h.emit
  refine .showPort (.put (.put (.modTrk (.fillGroup (h.when fun h => h.put ?_))) ?_) ?_)
  all_goals clear * -; decide +revert

theorem Chip.Carrying.switchIfDue {c : Chip} {p : Port} (h : Chip.Carrying p c) : Chip.Carrying p (c.switchIfDue p) := by
  unfold Chip.switchIfDue
  split
  · exact h
  · exact ((carrying_stable p).flush h.txSwitch.modTrk).shiftCheckDone

theorem Chip.Carrying.changeAtBoundary {c : Chip} {p : Port} {ahead : Nat} {x : LaneChange} (h : Chip.Carrying p c) :
    Chip.Carrying p (c.changeAtBoundary p ahead x) := by
  unfold Chip.changeAtBoundary
  exact (carrying_stable p).due h.modPcs

theorem Chip.Carrying.sendMarkers {c : Chip} {p : Port} (h : Chip.Carrying p c) : Chip.Carrying p (c.sendMarkers p) := by
  obtain ⟨t, t', copies, heq⟩ := sendMarkers_eq c p
  have hmove : Chip.Carrying p (c.moveKeSpan p t) := h.of_spares (.of_writes moveKeSpan_writes) (by clear * -; decide +revert)
  rw [heq]
  exact (carrying_stable p).sendAll hmove.modTrk

theorem Chip.Carrying.spanBegin {c : Chip} {p : Port} (h : Chip.Carrying p c) : Chip.Carrying p (c.spanBegin p) := by
  have hspan : Chip.Carrying p (c.inc (F.TRK_SPAN p)) := h.put (by clear * -; decide +revert)
  unfold Chip.spanBegin
  refine .when ((carrying_stable p).sendAll (.sendMarkers ((carrying_stable p).due ?_))) fun h => h.switchIfDue
  exact (hspan.modPcs.when fun h => h.switchIfDue).when fun h => h.modTrk.changeAtBoundary

end Sys2Proof.Proofs
end

section
/-! Mooring (02 R72, R73). -/

namespace Sys2Proof.Proofs

open Machine Safety

/-- Both lanes of a link moor. -/
def Chip.bothMoor (p : Port) (c : Chip) : Chip :=
  c.each lanes fun l c => c.when (c.get (laneState p l) == laneActive || c.get (laneState p l) == laneQuiet) fun c => c.put (laneState p l) laneMoored

theorem bothMoor_moors {c : Chip} {p : Port} (h : Chip.Carrying p c) : (Chip.bothMoor p c).get (F.TRK_STATUS_LINK_UP p) = 1 ∧
    (Chip.bothMoor p c).get (laneState p 0) = laneMoored ∧ (Chip.bothMoor p c).get (laneState p 1) = laneMoored := by
  have hmoors : ∀ {d : Chip} (l : LaneId), d.get (laneState p l) = laneActive ∨ d.get (laneState p l) = laneQuiet →
      (d.when (d.get (laneState p l) == laneActive || d.get (laneState p l) == laneQuiet) fun c => c.put (laneState p l) laneMoored) =
        d.put (laneState p l) laneMoored := fun l hl => when_pos (by simpa using hl)
  have hB : (c.put (laneState p 0) laneMoored).get (laneState p 1) = c.get (laneState p 1) := by
    simp (disch := (clear * -; decide +revert)) only [chip_get_put_apart]
  rw [Chip.bothMoor, each_lanes, hmoors 0 (h.2 0), hmoors 1 (by rw [hB]; exact h.2 1)]
  refine ⟨?_, ?_, ?_⟩
  · simp (disch := (clear * -; decide +revert)) only [chip_get_put_apart]
    exact h.1
  all_goals simp (disch := (clear * -; decide +revert)) only [chip_get_put_apart, get_put_of_lt]

theorem moorEnter_moors {s : State} {p : Port} (hup : s.hub.chip.on (F.TRK_STATUS_LINK_UP p) = true) (hvote : s.hub.chip.moorVote p = true)
    (hsent : s.hub.chip.trk[p].moorSent = true) (hseen : s.hub.chip.trk[p].moorSeen = true)
    (hA : s.hub.chip.get (F.TRK_LANE_A_STATE p) = laneActive) (hB : s.hub.chip.get (F.TRK_LANE_B_STATE p) = laneActive) :
    ∃ t, exec (.moorEnter p) s = .next t ∧ coreOnly s t ∧ t.hub.chip.get (F.TRK_LANE_A_STATE p) = laneMoored ∧
      t.hub.chip.get (F.TRK_LANE_B_STATE p) = laneMoored ∧ t.hub.chip.get (F.TRK_STATUS_LINK_UP p) = 1 := by
  have hA' : s.hub.chip.get (laneState p 0) = laneActive := hA
  have hB' : s.hub.chip.get (laneState p 1) = laneActive := hB
  have hmoored : s.hub.chip.mooredPort p = false := by
    rw [Chip.mooredPort, hA', hB']; rfl
  have hcarries : Chip.Carrying p s.hub.chip := ⟨on_iff.mp hup, fun l => by
    match l with
    | 0 => exact .inl hA
    | 1 => exact .inl hB⟩
  show ∃ t, execMoorEnter p s = .next t ∧ _
  unfold execMoorEnter
  refine onChip_when_runs (by rw [hup, hvote, hsent, hseen, hmoored]; rfl) fun d hd => ?_
  have hended : ∃ e, Chip.Carrying p e ∧ d = Chip.bothMoor p e := by
    refine ⟨_, ?ended, by rw [hd, Chip.bothMoor]⟩
    exact .modPcs (((carrying_stable p).fill hcarries).when fun h => h.spanBegin.fillGroup)
  obtain ⟨e, he, hd⟩ := hended
  obtain ⟨hup', hA', hB'⟩ := bothMoor_moors he
  simp (disch := (clear * -; decide +revert)) only [get_after]
  rw [hd]
  exact ⟨hA', hB', hup'⟩

/-- A port both of whose lanes are Moored. -/
theorem mooredPort_of_laneA {c : Chip} {p : Port} (hA : c.get (laneState p 0) = laneMoored) : c.mooredPort p = true := by
  rw [Chip.mooredPort, hA]; rfl

theorem moorExit_returns {s : State} {p : Port} {d : Nat} (hup : s.hub.chip.on (F.TRK_STATUS_LINK_UP p) = true)
    (hA : s.hub.chip.get (F.TRK_LANE_A_STATE p) = laneMoored) (hB : s.hub.chip.get (F.TRK_LANE_B_STATE p) = laneMoored)
    (hok : s.hub.chip.coefValid p d = true) :
    ∃ t, exec (.moorExit p d) s = .next t ∧ coreOnly s t ∧ t.hub.chip.get (F.TRK_LANE_A_STATE p) = laneActive ∧
      t.hub.chip.get (F.TRK_LANE_B_STATE p) = laneActive ∧
      t.hub.chip.outbox = s.hub.chip.outbox ++
        [Out.preamble p 0 (s.hub.chip.get (F.TRK_STATUS_STEP p)) preambleLevels,
         Out.preamble p 1 (s.hub.chip.get (F.TRK_STATUS_STEP p)) preambleLevels] ∧
      t.hub.chip.trk[p].moorSent = false ∧ t.hub.chip.trk[p].moorSeen = false ∧ t.hub.chip.trk[p].txLanes = 0 ∧
      t.hub.chip.get (F.TRK_STATUS_LANES p) = 3 ∧
      wordsKept [(F.TRK_LANE_A p).off, (F.TRK_LANE_B p).off, (F.TRK_MOOR_STATUS p).off, (F.TRK_STATUS p).off] s t := by
  have hback : Chip.BackFromMoored p s.hub.chip (s.hub.chip.unmoor p d true) := unmoor_back (on_iff.mp hup) hA hB hok
  show ∃ t, execMoorExit p d s = .next t ∧ _
  unfold execMoorExit
  refine onChip_when_runs (mooredPort_of_laneA hA) fun e he => ?_
  rw [← he] at hback
  simp (disch := (clear * -; decide +revert)) only [get_after, after_trk, after_outbox]
  exact ⟨hback.laneA, hback.laneB, hback.outbox, hback.moorSent, hback.moorSeen, hback.txLanes, hback.lanes, wordsKept_after hback.kept⟩

theorem moorPreambleRx_returns {s : State} {p : Port} {d : Nat} (hup : s.hub.chip.on (F.TRK_STATUS_LINK_UP p) = true)
    (hA : s.hub.chip.get (F.TRK_LANE_A_STATE p) = laneMoored) (hB : s.hub.chip.get (F.TRK_LANE_B_STATE p) = laneMoored)
    (hok : s.hub.chip.coefValid p d = true) :
    ∃ t, exec (.moorPreambleRx p d) s = .next t ∧ coreOnly s t ∧ t.hub.chip.get (F.TRK_LANE_A_STATE p) = laneActive ∧
      t.hub.chip.get (F.TRK_LANE_B_STATE p) = laneActive ∧ t.hub.chip.outbox.length = s.hub.chip.outbox.length + 2 ∧
      t.hub.chip.trk[p].moorSent = false ∧ t.hub.chip.trk[p].moorSeen = false := by
  have hback : Chip.BackFromMoored p s.hub.chip (s.hub.chip.unmoor p d false) := unmoor_back (on_iff.mp hup) hA hB hok
  show ∃ t, execMoorPreambleRx p d s = .next t ∧ _
  unfold execMoorPreambleRx
  refine onChip_when_runs (mooredPort_of_laneA hA) fun e he => ?_
  rw [← he] at hback
  simp (disch := (clear * -; decide +revert)) only [get_after, after_trk, after_outbox]
  exact ⟨hback.laneA, hback.laneB, by rw [hback.outbox, List.length_append]; rfl, hback.moorSent, hback.moorSeen⟩

theorem moorPreambleRx_retrains {s : State} {p : Port} {d : Nat} (hmoored : s.hub.chip.mooredPort p = true)
    (hbad : s.hub.chip.coefValid p d = false) :
    ∃ t, exec (.moorPreambleRx p d) s = .next t ∧ coreOnly s t ∧ t.hub.chip.get (F.TRK_STATUS_LINK_UP p) = 0 ∧
      t.hub.chip.get (F.TRK_STATUS_PHASE p) = phaseEcho ∧ t.hub.chip.get (F.TRK_INT_STATUS_LINK_DOWN p) = 1 := by
  show ∃ t, execMoorPreambleRx p d s = .next t ∧ _
  unfold execMoorPreambleRx
  refine onChip_when_runs hmoored fun e he => ?_
  have hretrain : ∃ a : Chip, e = (a.linkGone p).startBringup p :=
    ⟨_, by rw [he, Chip.unmoor, hbad, if_neg Bool.false_ne_true]⟩
  obtain ⟨a, ha⟩ := hretrain
  obtain ⟨-, hdown, -⟩ := linkGone_ends a p
  obtain ⟨hdown', -, hevent⟩ : Chip.ShowsDown p e := by
    rw [ha]
    exact hdown.of_spares (Chip.Spares.refl.startBringup (List.Subset.refl _)) (by clear * -; decide +revert)
  simp (disch := (clear * -; decide +revert)) only [get_after]
  exact ⟨hdown', by rw [ha]; exact startBringup_phase, hevent⟩

/-- Settles O23: lanes that fail, rejoin, go quiet and moor, and the loss of a link, clause by clause. -/
theorem laneChangesAndMooring : Obligations.LaneChangesAndMooring := by
  unfold Obligations.LaneChangesAndMooring
  exact ⟨fun _ _ _ => laneLossOfSignal_degrades, fun _ _ _ => laneLossOfSignal_loses, fun _ _ _ _ _ _ => laneDownRx_degrades,
    fun _ _ _ _ _ _ => laneDownRx_loses, fun _ _ _ => laneJoinAttempt_trains, fun _ _ _ => laneJoinLocked_joins,
    fun _ _ _ => laneJoinLocked_fails, fun _ _ _ _ _ _ => laneJoinRx_joins, fun _ _ _ _ _ _ => laneJoinRx_fails,
    fun _ _ _ => quietEnter_announces, fun _ _ => quietRefreshBurst_refreshes, fun _ _ _ => wakeB_wakes,
    fun _ _ _ _ _ _ => wakeBRx_wakes, fun _ _ => moorEnter_moors, fun _ _ _ => moorExit_returns, fun _ _ _ => moorPreambleRx_returns,
    fun _ _ _ => moorPreambleRx_retrains, fun _ _ => linkLoss_loses, fun _ _ => protocolViolationLimit_loses⟩

end Sys2Proof.Proofs
end

section
/-! The barge header word and the words of a barge come back from their encodings (03 R79, R81, Table 03-1): O9. -/

namespace Sys2Proof

/-! A field of a datapath word reads what stands there, and nothing of a field apart from it. -/

@[simp] theorem extract_dpField_same {w lo : Nat} (v : BitVec w) (h : lo + w ≤ 128) : (dpField lo v).extractLsb' lo w = v := by
  apply BitVec.eq_of_getLsbD_eq
  intro i hi
  have hword : lo + i < 128 := by omega
  simp [dpField, hi, hword]

@[simp] theorem extract_dpField_apart {w lo width start : Nat} (v : BitVec w) (h : lo + width ≤ start ∨ start + w ≤ lo) :
    (dpField start v).extractLsb' lo width = 0#width := by
  apply BitVec.eq_of_getLsbD_eq
  intro i hi
  rcases h with hbelow | habove
  · have hlt : lo + i < start := by omega
    simp [dpField, hlt]
  · have hge : w ≤ lo + i - start := by omega
    simp [dpField, BitVec.getLsbD_of_ge v _ hge]

@[simp] theorem getLsbD_dpField_apart {w i start : Nat} (v : BitVec w) (h : i < start ∨ start + w ≤ i) :
    (dpField start v).getLsbD i = false := by
  have hbit := congrArg (·.getLsbD 0) (extract_dpField_apart (lo := i) (width := 1) (start := start) v (by omega))
  simpa using hbit

theorem dpFlag_eq_dpField (start : Nat) (b : Bool) : dpFlag start b = dpField start (BitVec.ofBool b) := by
  cases b
  · simp [dpFlag, dpField]
  · simp [dpFlag, dpField]

@[simp] theorem extract_dpFlag_apart {start lo width : Nat} {b : Bool} (h : lo + width ≤ start ∨ start + 1 ≤ lo) :
    (dpFlag start b).extractLsb' lo width = 0#width := by
  rw [dpFlag_eq_dpField, extract_dpField_apart _ h]

@[simp] theorem getLsbD_dpFlag_same {start : Nat} {b : Bool} (h : start < 128) : (dpFlag start b).getLsbD start = b := by
  cases b <;> simp [dpFlag, h]

@[simp] theorem getLsbD_dpFlag_apart {start i : Nat} {b : Bool} (h : i < start ∨ start + 1 ≤ i) : (dpFlag start b).getLsbD i = false := by
  rw [dpFlag_eq_dpField, getLsbD_dpField_apart _ h]

/-! The header word. -/

theorem Header.decode_encode (h : Header) : Header.decode h.encode = h := by
  simp (disch := omega) [Header.decode, Header.encode, BitVec.extractLsb'_or, -BitVec.getLsbD_eq_getElem]

/-- A field of a word put back in its place: the word's bits there, and no others. -/
theorem getLsbD_dpField_extract (w : DpWord) (lo width i : Nat) :
    (dpField lo (w.extractLsb' lo width)).getLsbD i = (decide (lo ≤ i ∧ i < lo + width ∧ i < 128) && w.getLsbD i) := by
  by_cases hin : lo ≤ i ∧ i < lo + width ∧ i < 128
  · obtain ⟨hlo, hhi, hword⟩ := hin
    have hoff : i - lo < width := by omega
    have hback : lo + (i - lo) = i := by omega
    simp [dpField, hlo, hhi, hword, hoff, hback]
  · by_cases hlo : i < lo
    · simp [dpField, hlo]
    · by_cases hword : i < 128
      · have hoff : ¬ i - lo < width := by omega
        simp [dpField, hlo, hin, hoff]
      · simp [BitVec.getLsbD_of_ge _ _ (Nat.le_of_not_lt hword)]

theorem dpFlag_getLsbD (w : DpWord) (i : Nat) : dpFlag i (w.getLsbD i) = dpField i (w.extractLsb' i 1) := by
  have hbit : w.extractLsb' i 1 = BitVec.ofBool (w.getLsbD i) := by
    apply BitVec.eq_of_getLsbD_eq
    intro j hj
    obtain rfl : j = 0 := by omega
    simp
  rw [dpFlag_eq_dpField, hbit]

/-- The fields of Table 03-1 cover the header word but for the reserved bits [43:32]. -/
theorem getLsbD_encode_decode (w : DpWord) (i : Nat) :
    (Header.decode w).encode.getLsbD i = (decide (i < 32 ∨ 44 ≤ i) && w.getLsbD i) := by
  simp only [Header.encode, Header.decode, dpFlag_getLsbD, BitVec.getLsbD_or, getLsbD_dpField_extract, ← Bool.and_or_distrib_right]
  by_cases hword : i < 128
  · congr 1
    simp only [← Bool.decide_or]
    congr 1
    apply propext
    omega
  · rw [BitVec.getLsbD_of_ge _ _ (Nat.le_of_not_lt hword), Bool.and_false, Bool.and_false]

theorem Header.encode_decode {w : DpWord} (hreserved : w.extractLsb' 32 12 = 0#12) : (Header.decode w).encode = w := by
  apply BitVec.eq_of_getLsbD_eq
  intro i _
  rw [getLsbD_encode_decode]
  by_cases hfield : i < 32 ∨ 44 ≤ i
  · simp [hfield]
  · have hbit := congrArg (·.getLsbD (i - 32)) hreserved
    have hin : i - 32 < 12 := by omega
    have hback : 32 + (i - 32) = i := by omega
    simp only [BitVec.getLsbD_extractLsb', hin, hback] at hbit
    simp at hbit
    simp [hfield, hbit]

/-! The payload words. -/

/-- Bytes shifted in one after another, the last of them lowest. -/
def shiftIn (f : Nat → Byte) (n : Nat) : DpWord :=
  (List.range n).foldl (fun a i => (a <<< (8 : Nat)) ||| ((f i).setWidth 128)) 0#128

theorem shiftIn_succ (f : Nat → Byte) (n : Nat) : shiftIn f (n + 1) = (shiftIn f n <<< (8 : Nat)) ||| (f n).setWidth 128 := by
  rw [shiftIn, List.range_succ, List.foldl_append, shiftIn]
  rfl

theorem extract_shiftIn (f : Nat → Byte) {n k : Nat} (hn : n ≤ 16) (hk : k < n) : (shiftIn f n).extractLsb' (8 * (n - 1 - k)) 8 = f k := by
  induction n with
  | zero => omega
  | succ n ih =>
    rw [shiftIn_succ, BitVec.extractLsb'_or]
    by_cases hlast : k = n
    · subst hlast
      apply BitVec.eq_of_getLsbD_eq
      intro i hi
      have hword : i < 128 := by omega
      simp [hi, hword]
    · have hbelow := ih (by omega) (by omega)
      rw [← hbelow]
      apply BitVec.eq_of_getLsbD_eq
      intro i hi
      have hword : 8 * (n + 1 - 1 - k) + i < 128 := by omega
      have hpast : ¬ 8 * (n + 1 - 1 - k) + i < 8 := by omega
      have hplace : 8 * (n + 1 - 1 - k) + i - 8 = 8 * (n - 1 - k) + i := by omega
      have hbyte : (f n).getLsbD (8 * (n + 1 - 1 - k) + i) = false := BitVec.getLsbD_of_ge _ _ (by omega)
      simp only [BitVec.getLsbD_or, BitVec.getLsbD_extractLsb', BitVec.getLsbD_shiftLeft, BitVec.getLsbD_setWidth, hi, hword, hpast,
        hplace, hbyte]
      simp

theorem dpBytes_dpOfBytes (l : List Byte) : dpBytes (dpOfBytes l) = (List.range 16).map fun i => l.getD i 0#8 := by
  have hword : dpOfBytes l = shiftIn (fun i => l.getD i 0#8) 16 := rfl
  rw [dpBytes, hword]
  refine List.map_congr_left fun i hi => ?_
  have hlt : i < 16 := List.mem_range.1 hi
  have hplace : 120 - 8 * i = 8 * (16 - 1 - i) := by omega
  rw [hplace, extract_shiftIn _ (Nat.le_refl 16) hlt]

/-- A word of up to 16 bytes begins with them. -/
theorem take_dpBytes {l : List Byte} (h : l.length ≤ 16) : (dpBytes (dpOfBytes l)).take l.length = l := by
  rw [dpBytes_dpOfBytes]
  refine List.ext_getElem (by simp; omega) fun i _ hi => ?_
  simp [hi]

@[simp] theorem length_dpBytes (w : DpWord) : (dpBytes w).length = 16 := by simp [dpBytes]

@[simp] theorem length_payloadWords (n : Nat) (l : List Byte) : (payloadWords n l).length = n := by
  induction n generalizing l with
  | zero => rfl
  | succ n ih => simp [payloadWords, ih]

/-- The payload words begin with the payload's bytes. -/
theorem take_flatMap_payloadWords {n : Nat} {l : List Byte} (h : l.length ≤ 16 * n) :
    ((payloadWords n l).flatMap dpBytes).take l.length = l := by
  induction n generalizing l with
  | zero => simp_all [payloadWords]
  | succ n ih =>
    rw [payloadWords, List.flatMap_cons]
    by_cases hone : l.length ≤ 16
    · rw [List.take_append_of_le_length (by simpa using hone), List.take_of_length_le (l := l) hone, take_dpBytes hone]
    · have hfirst : (l.take 16).length = 16 := by rw [List.length_take]; omega
      have hrest := ih (l := l.drop 16) (by rw [List.length_drop]; omega)
      have hword : dpBytes (dpOfBytes (l.take 16)) = l.take 16 := by
        have htake := take_dpBytes (l := l.take 16) (by omega)
        rwa [hfirst, List.take_of_length_le (by simp)] at htake
      rw [List.length_drop] at hrest
      rw [List.take_append, hword, hfirst, hrest, List.take_take, Nat.min_eq_right (by omega), List.take_append_drop]

/-! A barge. -/

theorem Barge.wellFormed_iff {b : Barge} : b.wellFormed = true ↔ b.hdr.len.toNat = b.payload.length ∧ b.payload.length ≤ 1008 := by
  simp [Barge.wellFormed]

theorem Barge.length_words (b : Barge) : b.words.length = 1 + (b.hdr.len.toNat + 15) / 16 := by
  simp [Barge.words, bargeWords]
  omega

theorem Barge.ofWords_words {b : Barge} (h : b.wellFormed = true) : Barge.ofWords b.words = b := by
  obtain ⟨hlen, -⟩ := Barge.wellFormed_iff.1 h
  have hpayload : ((payloadWords (bargeWords b.hdr.len.toNat - 1) b.payload).flatMap dpBytes).take b.hdr.len.toNat = b.payload := by
    rw [hlen]
    exact take_flatMap_payloadWords (by rw [bargeWords]; omega)
  simp only [Barge.ofWords, Barge.words, List.headD_cons, List.tail_cons, Header.decode_encode, hpayload]

end Sys2Proof

namespace Sys2Proof.Proofs

/-- Settles O9: the header's fields lie side by side, and the payload words hold its bytes in order. -/
theorem bargeWordsRoundTrip : Obligations.BargeWordsRoundTrip :=
  ⟨Header.decode_encode, fun _ => Header.encode_decode, fun b hb => ⟨b.length_words, Barge.ofWords_words hb⟩⟩

end Sys2Proof.Proofs
end

section
/-! A clear barge while DP is off, a heartbeat that ends an alarm, and a break under its guard that opens a sinking path: O25, O27 and O29
fail. -/

namespace Sys2Proof.Proofs

open Sys2Proof.Machine Sys2Proof.Safety

/-! A clear barge on a link that admits sealed ones alone. -/

/-- T0 with its link up, admitted and sealing, DP off, and a limit of one tag failure. -/
def sealingPortAsleep : State :=
  { State.reset with
    hub := { State.reset.hub with
      chip := (((((((Chip.reset.put (F.TRK_STATUS_LINK_UP 0) 1).put (F.LNK_CTL_EN 0) 1).put (F.LNK_CTL_CIPHER_EN 0) 1).put
        (F.LNK_STATUS_ADMITTED 0) 1).put (F.KEY_P_STATUS_CIPHER 0) 1).put F.KEY_CTL_TAG_FAIL_LIMIT 1).put F.PWR_STATUS_DOM_ON 1).put F.PWR_VOTE_SW_VOTE 0 } }

/-- The END block of the barge of one word of zeros, sent in clear with LSEQ 0. -/
def clearZeroEnd : Block := endBlock (endBody 0 1 0 true 0) (bargeCrc [0#128] (endBody 0 1 0 true 0)) 0#128

/-- The blocks of that barge. -/
def clearZeroBarge : List Block := [dataBlock 0#128 0#128, clearZeroEnd]

theorem bargeOf_clearZeroBarge : bargeOf clearZeroBarge = some ([0#128], clearZeroEnd) := by
  decide +kernel

theorem bargeCrc_clearZeroEnd : bargeCrc [0#128] clearZeroEnd = clearZeroEnd.extractLsb' 128 32 := by
  decide +kernel

/-- The barge is refused, which is one failure too many: the link drops, and the count of unacknowledged barges begins afresh. -/
theorem linkBargeRx_sealingPortAsleep :
    ∃ t, exec (.linkBargeRx 0 clearZeroBarge) sealingPortAsleep = .next t ∧ t.hub.chip.lnk[(0 : Port)].unacked = 0 :=
  ⟨_, rfl, by rw [settled_lnk]; decide +kernel⟩

/-- What O25 says of a clear barge in order while DP is off, with room for it: one more waits for its acknowledgement. -/
theorem unacked_of_linkBargesSentAndReceived (hall : Obligations.LinkBargesSentAndReceived) {s : State} {p : Port} {blocks : List Block}
    {e : Block} {ws : List DpWord} (hup : s.hub.chip.on (F.TRK_STATUS_LINK_UP p) = true) (hen : s.hub.chip.on (F.LNK_CTL_EN p) = true)
    (hasleep : s.hub.chip.dpReady = false) (hbarge : bargeOf blocks = some (ws, e)) (hws : ws ≠ [])
    (hcrc : bargeCrc ws e = e.extractLsb' 128 32) (hclear : e.getLsbD 228 = true)
    (hnext : (e.extractLsb' 236 12).toNat = s.hub.chip.get (F.LNK_RX_EXPECT p))
    (hroom : s.hub.chip.lnk[p].cold.foldl (· + ·) 0 + (dataOf blocks ++ [e]).length ≤ 64) :
    ∃ t, exec (.linkBargeRx p blocks) s = .next t ∧ t.hub.chip.lnk[p].unacked = s.hub.chip.lnk[p].unacked + 1 := by
  obtain ⟨-, -, -, -, -, -, -, -, -, hcold, -⟩ := hall
  obtain ⟨t, hexec, -, hheld⟩ := hcold s p blocks e ws hup hen hasleep hbarge hws hcrc hclear hnext
  rw [if_pos hroom] at hheld
  obtain ⟨-, -, hunacked, -⟩ := hheld
  exact ⟨t, hexec, hunacked⟩

/-- Refutes O25: a clear barge on a link that seals counts as a tag failure (03 R91) and may drop the link (13 R422), also while DP is off,
so it need not be held for DP to wake. -/
theorem not_linkBargesSentAndReceived : ¬ Obligations.LinkBargesSentAndReceived := by
  intro hall
  obtain ⟨t, hexec, hone⟩ := unacked_of_linkBargesSentAndReceived hall (s := sealingPortAsleep) (p := 0) (by decide +kernel)
    (by decide +kernel) (by decide +kernel) bargeOf_clearZeroBarge (List.cons_ne_nil _ _) bargeCrc_clearZeroEnd (by decide +kernel)
    (by decide +kernel) (by decide +kernel)
  obtain ⟨u, hnext, hzero⟩ := linkBargeRx_sealingPortAsleep
  obtain rfl := Host.Outcome.next.inj (hexec.symm.trans hnext)
  exact absurd (hone.symm.trans hzero) (Nat.succ_ne_zero _)

/-! A heartbeat of a partner that was in HOLD. -/

/-- T0 with its link up, after an alarm that the partner's Lockkeeper is in HOLD (14 R441). -/
def partnerInHold : State :=
  { State.reset with
    hub := { State.reset.hub with
      chip := (Chip.reset.put (F.TRK_STATUS_LINK_UP 0) 1).raise {
        code := 0x16, subject := some 7, unit := 0, hops := 1, loc := 0, detail := 3, cleared := false, witness := false } } }

/-- A heartbeat of hub 7, whose Lockkeeper is in RUN. -/
def runHeartbeat : Heartbeat :=
  { hubId := 7, idValid := true, ackSeq := 0, lkState := 0, admitted := false, level := 0, count := 0 }

/-- The heartbeat ends the alarm: a second one is raised, with CLEARED. -/
theorem heartbeatRx_partnerInHold :
    ∃ t, exec (.heartbeatRx 0 runHeartbeat.encode) partnerInHold = .next t ∧ t.hub.chip.regs.word F.ALM_RAISED.off = 2#32 :=
  ⟨_, rfl, by rw [settled_word _ _ (by decide)]; decide +kernel⟩

/-- Refutes O27: a heartbeat with LK_STATE RUN ends a HOLD alarm about the partner (14 R441, R444), and the CLEARED alarm counts in
ALM_RAISED, so other words than LNK_STATUS and LNK_RX change. -/
theorem not_linkTimingAndKeyEpochs : ¬ Obligations.LinkTimingAndKeyEpochs := by
  rintro ⟨-, hheartbeat, -⟩
  have hdecode := runHeartbeat.decode_encode
  obtain ⟨t, hexec, -, -, -, -, -, hkept⟩ := hheartbeat partnerInHold 0 runHeartbeat.encode (by decide +kernel)
    (crcHolds_ctlBlock runHeartbeat.isBody_fields) flag_ctlBlock (btypeOf_ctlBlock runHeartbeat.isBody_fields)
    (by rw [hdecode]; rfl) (by rw [hdecode]; decide +kernel)
  obtain ⟨u, hnext, htwo⟩ := heartbeatRx_partnerInHold
  obtain rfl := Host.Outcome.next.inj (hexec.symm.trans hnext)
  exact absurd ((hkept F.ALM_RAISED.off (by decide) (by decide)).symm.trans htwo) (by decide +kernel)

/-! A break under the port's guard during a swap. -/

/-- T0 sinks in a swap whose GUARD is set, its Lockkeeper runs with a budget floor of 3, and the 10 s guard against breaks runs. -/
def swappingSink : State :=
  { State.reset with
    hub := {
      chip := (((({ Chip.reset with rst := startedRst } : Chip).put (F.LNK_CTL_TP_EN 0) 1).put (F.LNK_TP_STATUS_BREAK_GUARD 0) 1).put
        F.LKP_STATUS_STATE 0).put F.BUD_CTL_FLOOR 3
      hv := (Hv.reset.put (F.TPW_P_STATUS_STATE 0) psSink).put (F.TPW_P_STATUS_GUARD 0) 1 } }

/-- The break opens the path, and with no port that sinks the budget floor falls to 0. -/
theorem hardResetBreakRx_swappingSink :
    ∃ t, exec (.hardResetBreakRx 0 true) swappingSink = .next t ∧ t.hub.chip.get F.BUD_CTL_FLOOR = 0 :=
  ⟨_, rfl, by rw [settled_get _ _ _ (by decide)]; decide +kernel⟩

/-- Refutes O29: a break that is ignored under its guard still fails a swap (11 R363), and where the path that opens was a sink the budget
floor follows (11 R356), so a word outside the Towpath's changes. -/
theorem not_towpathFramesIn : ¬ Obligations.TowpathFramesIn := by
  rintro ⟨-, -, -, -, -, -, -, hguarded, -⟩
  obtain ⟨t, hexec, -, -, -, -, -, hkept⟩ :=
    hguarded swappingSink 0 (by decide +kernel) (by decide +kernel) (by decide +kernel) (by decide +kernel)
  obtain ⟨u, hnext, hzero⟩ := hardResetBreakRx_swappingSink
  obtain rfl := Host.Outcome.next.inj (hexec.symm.trans hnext)
  have hword := hkept F.BUD_CTL_FLOOR.off (by decide) (by decide)
  have hfloor : t.hub.chip.get F.BUD_CTL_FLOOR = swappingSink.hub.chip.get F.BUD_CTL_FLOOR :=
    congrArg (wordField · F.BUD_CTL_FLOOR.lo F.BUD_CTL_FLOOR.width) hword
  exact absurd (hfloor.symm.trans hzero) (by decide +kernel)

end Sys2Proof.Proofs
end

section
/-! Blocks handed to the PCS while no change of the lanes is announced (02 R36, R37, R62), and the barges that they carry (03 R86, R87, R89). -/

namespace Sys2Proof.Machine

open Sys2Proof.Safety

/-- A block has gone out of a trunk port, or waits in its PCS. -/
def Chip.HandedOut (p : Port) (b : Block) (c : Chip) : Prop := (∃ l, Out.block p l b ∈ c.outbox) ∨ b ∈ c.pcs[p].waiting

theorem handedOut_after {s : State} {d : Chip} {p : Port} {b : Block} (h : d.HandedOut p b) : handedOut (s.after d) p b := by
  simp only [handedOut, after_outbox, after_pcs]
  exact h

/-- From `c` on, the blocks `bs` have been handed to port `p`, whose lanes are in no change: nothing but the PCS and what has left the hub is
another. -/
structure Chip.Hands (p : Port) (bs : List Block) (c d : Chip) : Prop where
  frame : ∃ x o, d = { c with pcs := x, outbox := o }
  change : d.pcs[p].change = none
  out : ∀ b ∈ bs, d.HandedOut p b

section
variable {p : Port} {bs : List Block} {b : Block} {c d : Chip}

theorem Chip.Hands.refl (h : c.pcs[p].change = none) : c.Hands p [] c := ⟨⟨_, _, rfl⟩, h, nofun⟩

theorem Chip.Hands.regs (h : c.Hands p bs d) : d.regs = c.regs := by obtain ⟨x, o, rfl⟩ := h.frame; rfl
theorem Chip.Hands.lnk (h : c.Hands p bs d) : d.lnk = c.lnk := by obtain ⟨x, o, rfl⟩ := h.frame; rfl
theorem Chip.Hands.get (h : c.Hands p bs d) (g : Field) : d.get g = c.get g := congrArg (RegFile.get · g) h.regs
theorem Chip.Hands.wordsKept {offs : List Nat} (h : c.Hands p bs d) : c.WordsKept offs d := fun _ _ => by rw [h.regs]

theorem Chip.Hands.mooredPort (h : c.Hands p bs d) : d.mooredPort p = c.mooredPort p := by
  simp only [Chip.mooredPort, h.get]

theorem Chip.Hands.emit {o : Out} (h : c.Hands p bs d) : c.Hands p bs (d.emit o) where
  frame := by obtain ⟨x, o', rfl⟩ := h.frame; exact ⟨_, _, rfl⟩
  change := h.change
  out b hb := (h.out b hb).imp_left fun ⟨l, hl⟩ => ⟨l, List.mem_append_left _ hl⟩

theorem Chip.Hands.emitBlock {l : Nat} (h : c.Hands p bs d) : c.Hands p (b :: bs) (d.emit (.block p l b)) where
  frame := h.emit.frame
  change := h.change
  out := List.forall_mem_cons.2 ⟨.inl ⟨l, List.mem_append_right _ (List.mem_singleton_self _)⟩, (h.emit (o := .block p l b)).out⟩

/-- A change of the port's PCS that announces no change of the lanes, and in which the blocks that waited go on waiting. -/
theorem Chip.Hands.modPcs {f : Pcs → Pcs} (h : c.Hands p bs d) (hchange : (f d.pcs[p]).change = d.pcs[p].change)
    (hwait : d.pcs[p].waiting ⊆ (f d.pcs[p]).waiting) : c.Hands p bs (d.modPcs p f) where
  frame := by obtain ⟨x, o, rfl⟩ := h.frame; exact ⟨_, _, rfl⟩
  change := by rw [chip_modPcs_pcs, upd_same, hchange, h.change]
  out b hb := (h.out b hb).imp_right fun hw => by rw [chip_modPcs_pcs, upd_same]; exact hwait hw

theorem Chip.Hands.wait (h : c.Hands p bs d) : c.Hands p (b :: bs) (d.modPcs p fun x => { x with waiting := x.waiting ++ [b] }) where
  frame := (h.modPcs rfl (List.subset_append_left _ _)).frame
  change := (h.modPcs rfl (List.subset_append_left _ _)).change
  out := List.forall_mem_cons.2 ⟨.inr (by simp only [chip_modPcs_pcs, upd_same, List.mem_append, List.mem_singleton, or_true]),
    (h.modPcs rfl (List.subset_append_left _ _)).out⟩

theorem Chip.Hands.codeword {l : LaneId} (h : c.Hands p bs d) : c.Hands p bs (d.pcsCodeword p l) := by
  fun_cases Chip.pcsCodeword
  · exact h
  · exact h.emit.modPcs rfl (List.Subset.refl _)

theorem Chip.Hands.blockOut (h : c.Hands p bs d) : c.Hands p (b :: bs) (d.blockOut p b) := by
  have hsent : ∃ e, c.Hands p (b :: bs) e ∧ d.blockOut p b = e.laneChangeDue p :=
    ⟨_, ((h.emitBlock.modPcs rfl (List.Subset.refl _)).modPcs rfl (List.Subset.refl _)).codeword, rfl⟩
  obtain ⟨e, he, heq⟩ := hsent
  have hdue : e.laneChangeDue p = e := by unfold Chip.laneChangeDue; rw [he.change]
  rw [heq, hdue]
  exact he

/-- A block handed over on a port that is not Moored goes out, or waits. -/
theorem Chip.Hands.send (h : c.Hands p bs d) (hmoored : c.mooredPort p = false) : c.Hands p (b :: bs) (d.pcsSend p b) := by
  unfold Chip.pcsSend
  rw [h.mooredPort, hmoored, if_neg Bool.false_ne_true]
  split
  · exact h.wait
  · exact h.blockOut

theorem Chip.Hands.sendAll {l : List Block} (h : c.Hands p bs d) (hmoored : c.mooredPort p = false) :
    c.Hands p (l ++ bs) (d.each l (Chip.pcsSend p)) := by
  induction l generalizing bs d with
  | nil => exact h
  | cons b l ih =>
    have hrest := ih (h.send hmoored (b := b))
    exact ⟨hrest.frame, hrest.change, fun x hx => hrest.out x (List.perm_middle.mem_iff.2 hx)⟩

end

/-! A barge with an LSEQ. -/

theorem txc_ok (p : Port) : (F.LNK_TXC p).ok = true := by
  decide +revert

theorem txLimit_of_lt {c : Chip} {p : Port} {n : Nat} (hn : n < 0xFFFF_FFFE) :
    (c.put (F.LNK_TXC p) (n + 1)).txLimit p = c.put (F.LNK_TXC p) (n + 1) := by
  have hwidth : 2 ^ (F.LNK_TXC p).width = 2 ^ 32 := rfl
  have htxc : (c.put (F.LNK_TXC p) (n + 1)).get (F.LNK_TXC p) = n + 1 := get_put_of_lt (txc_ok p) (by rw [hwidth]; omega)
  unfold Chip.txLimit
  rw [htxc]
  exact when_neg (beq_false_of_ne (by omega))

/-- A barge that the link may send: its blocks go out, its data blocks as they are where the link sends in clear, and TXC advances. -/
theorem sendBarge_hands {c : Chip} {p : Port} {lseq : Nat} {b : Barge} (hchange : c.pcs[p].change = none)
    (hmoored : c.mooredPort p = false) (htxc : c.get (F.LNK_TXC p) < 0xFFFF_FFFE)
    (hkey : c.sendsClear p = true ∨ (c.key.slot (txSlot p (c.get (F.LNK_EPOCH_EPOCH p)))).refuses p.val = false) :
    ∃ bs d, c.Hands p bs d ∧ (c.sendsClear p = true → ∀ x ∈ dataBlocks b.words, x ∈ bs) ∧
      c.sendBarge p lseq b = d.put (F.LNK_TXC p) (c.get (F.LNK_TXC p) + 1) := by
  have hsend : ∃ (cs : List DpWord) (e : Block), (c.sendsClear p = true → cs = b.words) ∧
      c.sendBarge p lseq b = ((c.each (dataBlocks cs ++ [e]) (Chip.pcsSend p)).put (F.LNK_TXC p) (c.get (F.LNK_TXC p) + 1)).txLimit p := by
    unfold Chip.sendBarge
    cases hclear : c.sendsClear p
    · have hopen := hkey.resolve_left (by rw [hclear]; exact Bool.false_ne_true)
      simp only [hopen, Bool.not_false, Bool.and_false, Bool.false_eq_true, if_false]
      exact ⟨_, _, nofun, rfl⟩
    · simp only [Bool.not_true, Bool.false_and, Bool.false_eq_true, if_false, if_true]
      exact ⟨_, _, fun _ => rfl, rfl⟩
  obtain ⟨cs, e, hcs, heq⟩ := hsend
  refine ⟨dataBlocks cs ++ [e] ++ [], _, (Chip.Hands.refl hchange).sendAll hmoored, fun hclear x hx => ?_, heq.trans (txLimit_of_lt htxc)⟩
  rw [hcs hclear, List.append_nil]
  exact List.mem_append_left _ hx

end Sys2Proof.Machine
end

section
/-! Barges sent again (03 R92, R95, R96). -/

namespace Sys2Proof.Machine

theorem replayTx_ok (p : Port) : (F.LNK_REPLAY_TX p).ok = true := by
  decide +revert

theorem replayTx_apart_txc (p : Port) : (F.LNK_REPLAY_TX p).apart (F.LNK_TXC p) = true := by
  decide +revert

/-- From `c` on the outstanding barge `o` of port `p` has been sent again (R95), and nothing is left to be sent again. -/
structure Chip.Replays (p : Port) (o : Outstanding) (c d : Chip) : Prop where
  lnk : d.lnk[p] = { c.lnk[p] with resend := [] }
  count : d.get (F.LNK_REPLAY_TX p) = (c.get (F.LNK_REPLAY_TX p) + 1) % 2 ^ 32
  txc : d.get (F.LNK_TXC p) = c.get (F.LNK_TXC p) + 1
  out : c.sendsClear p = true → ∀ x ∈ dataBlocks o.barge.words, d.HandedOut p x
  kept : c.WordsKept [(F.LNK_REPLAY_TX p).off, (F.LNK_TXC p).off] d

/-- One barge is sent again: it is to be sent again no longer, and is counted. -/
def Chip.resent (p : Port) (lseq : Nat) (c : Chip) : Chip :=
  (c.modLnk p fun l => { l with resend := l.resend.filter fun n => n != lseq }).inc (F.LNK_REPLAY_TX p)

theorem linkResend_sends {c : Chip} {p : Port} {o : Outstanding} (honly : c.lnk[p].replay = [o]) (hheld : c.txHeld p = false) :
    c.linkResend p o.lseq = (Chip.resent p o.lseq c).sendBarge p o.lseq o.barge := by
  have hfind : c.lnk[p].replay.find? (fun x => x.lseq == o.lseq) = some o := by rw [honly]; simp
  unfold Chip.linkResend
  rw [if_neg (by simp [hheld])]
  simp only [hfind]
  rfl

/-- The one barge of the replay buffer, where the port does not hold its barges. -/
theorem replayFrom_replays {c : Chip} {p : Port} {o : Outstanding} (honly : c.lnk[p].replay = [o]) (hheld : c.txHeld p = false)
    (htxc : c.get (F.LNK_TXC p) < 0xFFFF_FFFE) (hchange : c.pcs[p].change = none)
    (hkey : c.sendsClear p = true ∨ (c.key.slot (txSlot p (c.get (F.LNK_EPOCH_EPOCH p)))).refuses p.val = false) :
    c.Replays p o (c.replayFrom p [o]) := by
  have hmoored : c.mooredPort p = false := by
    simp only [Chip.txHeld, Bool.or_eq_false_iff] at hheld
    exact hheld.1.2
  obtain ⟨a, ha⟩ : ∃ a, a = Chip.resent p o.lseq (c.modLnk p fun x => { x with resend := [o.lseq] }) := ⟨_, rfl⟩
  have halnk : a.lnk[p] = { c.lnk[p] with resend := [] } := by
    simp only [ha, Chip.resent, Chip.inc, chip_put_lnk, chip_modLnk_lnk, upd_same, List.filter_cons, List.filter_nil, bne_self_eq_false,
      Bool.false_eq_true, if_false]
  have hget : ∀ {g : Field}, g.apart (F.LNK_REPLAY_TX p) = true → a.get g = c.get g := fun hg => by
    rw [ha]; exact chip_get_put_apart _ _ _ _ (replayTx_ok p) hg
  have hatxc : a.get (F.LNK_TXC p) = c.get (F.LNK_TXC p) := hget (by clear * -; decide +revert)
  have hcount : a.get (F.LNK_REPLAY_TX p) = (c.get (F.LNK_REPLAY_TX p) + 1) % 2 ^ 32 := by
    rw [ha]; exact chip_get_put _ _ _ (replayTx_ok p)
  have hclear : a.sendsClear p = c.sendsClear p := by
    simp only [Chip.sendsClear, Chip.on]
    rw [hget (by clear * -; decide +revert), hget (by clear * -; decide +revert)]
  have hepoch : a.get (F.LNK_EPOCH_EPOCH p) = c.get (F.LNK_EPOCH_EPOCH p) := hget (by clear * -; decide +revert)
  have hamoored : a.mooredPort p = c.mooredPort p := by
    simp only [Chip.mooredPort]
    rw [hget (by clear * -; decide +revert), hget (by clear * -; decide +revert)]
  have hresend : c.replayFrom p [o] = a.sendBarge p o.lseq o.barge := by
    have hall : c.replayFrom p [o] = ((c.modLnk p fun x => { x with resend := [o.lseq] }).each [o.lseq] (Chip.linkResend p)) := by
      simp only [Chip.replayFrom, Chip.linkResendAll, chip_modLnk_lnk, upd_same, List.map_cons, List.map_nil]
    rw [hall, ha]
    exact linkResend_sends (by simp only [chip_modLnk_lnk, upd_same, honly]) hheld
  obtain ⟨bs, d, hands, hdata, heq⟩ := sendBarge_hands (c := a) (p := p) (lseq := o.lseq) (b := o.barge) (by rw [ha]; exact hchange)
    (hamoored.trans hmoored) (by rw [hatxc]; exact htxc) (by rw [hclear, hepoch, ha]; exact hkey)
  rw [hresend, heq]
  constructor
  · rw [chip_put_lnk, hands.lnk, halnk]
  · rw [chip_get_put_apart _ _ _ _ (txc_ok p) (replayTx_apart_txc p), hands.get, hcount]
  · rw [hatxc]
    exact get_put_of_lt (txc_ok p) (by have : 2 ^ (F.LNK_TXC p).width = 2 ^ 32 := rfl; omega)
  · exact fun hc x hx => hands.out x (hdata (hclear.trans hc) x hx)
  · have hakept : c.WordsKept [(F.LNK_REPLAY_TX p).off, (F.LNK_TXC p).off] a := by
      rw [ha]
      exact Chip.WordsKept.put (Chip.WordsKept.refl (c := c)) List.mem_cons_self
    exact Chip.WordsKept.put (fun o ho => (hands.wordsKept o ho).trans (hakept o ho)) (List.mem_cons_of_mem _ List.mem_cons_self)

end Sys2Proof.Machine
end

section
/-! What a link that is lost has not acknowledged (03 R98). -/

namespace Sys2Proof.Machine

theorem linkEnded_lost (c : Chip) (p : Port) : (Chip.linkEnded p c).get (F.LNK_LOST_UNACKED p) = c.get (F.LNK_LOST_UNACKED p) := by
  rw [Chip.linkEnded]
  simp (disch := (clear * -; decide +revert)) only [each_lanes, chip_get_put_apart, chip_get_flag_apart]

/-- The barges taken and not acknowledged count as lost. -/
theorem linkGone_lost (c : Chip) (p : Port) : (c.linkGone p).get (F.LNK_LOST_UNACKED p) =
    (c.get (F.LNK_LOST_UNACKED p) + (c.lnk[p].replay.length + c.lnk[p].txq.length)) % 2 ^ 32 := by
  have hgone : ∃ (f : Lnk → Lnk) (g : Trk → Trk) (h : Pcs → Pcs), c.linkGone p =
      (((((Chip.linkEnded p ((c.add (F.LNK_LOST_UNACKED p) (c.lnk[p].replay.length + c.lnk[p].txq.length)).modLnk p f)).modTrk p g).modPcs p
        h).clearPortKeys p).admissionEnds p).portUnrouted p :=
    ⟨_, _, _, by rw [Chip.linkGone, Chip.linkEnded]⟩
  obtain ⟨f, g, h, heq⟩ := hgone
  have hkeys : ∀ d : Chip, d.Spares (portKeyFields p) (((d.clearPortKeys p).admissionEnds p).portUnrouted p) := fun d =>
    (Chip.Spares.refl.clearPortKeys (List.Subset.refl _)).trans (.of_sameTrunk Chip.SameTrunk.refl.admissionEnds.portUnrouted)
  rw [heq, (hkeys _).get (by clear * -; decide +revert), chip_get_modPcs, chip_get_modTrk, linkEnded_lost, chip_get_modLnk, Chip.add,
    chip_get_put _ _ _ (by clear * -; decide +revert)]
  rfl

/-- A link that is lost ends, after its alarm, and bring-up follows. -/
theorem linkLost_gone (c : Chip) (p : Port) : ∃ a, c.SameTrunk a ∧ (a.linkGone p).Spares (bringupFields p) (c.linkLost p) := by
  refine ⟨c.raiseLink p 0x10 0, raiseLink_sameTrunk _ _ _ _ _, ?_⟩
  rw [Chip.linkLost]
  split
  · exact Chip.Spares.refl.bringupFailed (List.Subset.refl _)
  · exact Chip.Spares.refl.modTrk.startBringup (List.Subset.refl _)

theorem linkLost_lost (c : Chip) (p : Port) : (c.linkLost p).get (F.LNK_LOST_UNACKED p) =
    (c.get (F.LNK_LOST_UNACKED p) + (c.lnk[p].replay.length + c.lnk[p].txq.length)) % 2 ^ 32 := by
  obtain ⟨a, hraised, hafter⟩ := linkLost_gone c p
  rw [hafter.get (by clear * -; decide +revert), linkGone_lost, hraised.get (by clear * -; decide +revert), hraised.lnk]

end Sys2Proof.Machine
end

section
/-! Acknowledgement and replay (03 R94 to R97, R100): O26. -/

namespace Sys2Proof.Proofs

open Machine Safety

theorem not_moored_of_not_held {c : Chip} {p : Port} (h : c.txHeld p = false) : c.mooredPort p = false := by
  simp only [Chip.txHeld, Bool.or_eq_false_iff] at h
  exact h.1.2

/-- A link control block of the type that a command expects, whose CRC holds, takes effect. -/
theorem withCtl_takes {c : Chip} {p : Port} {btype : Nat} {b : Block} {f : Chip → Chip} (hup : c.on (F.TRK_STATUS_LINK_UP p) = true)
    (hcrc : crcHolds b = true) (hflag : b.getLsbD 256 = true) (htype : btypeOf b = btype) (hlink : 0x10 ≤ btype ∧ btype ≤ 0x16) :
    c.withCtl p btype b f = f (c.takeBlock p b) := by
  have hon : rxBlock b = .on := by
    unfold rxBlock
    rw [hflag, htype]
    have hnot : btype ≠ 0 ∧ btype ≠ 3 ∧ btype ≠ 1 ∧ btype ≠ 2 := by omega
    simp [hnot, hlink]
  unfold Chip.withCtl
  rw [hup, hon, hcrc, hflag, htype]
  simp

theorem withCtl_refuses {c : Chip} {p : Port} {btype : Nat} {b : Block} {f : Chip → Chip} (hup : c.on (F.TRK_STATUS_LINK_UP p) = true)
    (hon : rxBlock b = .on) (hcrc : crcHolds b = false) : c.withCtl p btype b f = (c.takeBlock p b).linkProto p := by
  unfold Chip.withCtl
  rw [hup, hon, hcrc]
  simp

theorem ackDelayExpiry_acknowledges {s : State} {p : Port} (hup : s.hub.chip.on (F.TRK_STATUS_LINK_UP p) = true)
    (hen : s.hub.chip.on (F.LNK_CTL_EN p) = true) (hsome : 0 < s.hub.chip.lnk[p].unacked) (hmoored : s.hub.chip.mooredPort p = false)
    (hchange : s.hub.chip.pcs[p].change = none) :
    ∃ t, exec (.ackDelayExpiry p) s = .next t ∧ coreOnly s t ∧
      (if s.hub.chip.dpReady = true then t.hub.chip.lnk[p] = { s.hub.chip.lnk[p] with unacked := 0 } ∧
        handedOut t p (lackBlock ((s.hub.chip.get (F.LNK_RX_EXPECT p) + 4095) % 4096))
       else t.hub.chip.lnk[p] = s.hub.chip.lnk[p] ∧ t.hub.chip.outbox = s.hub.chip.outbox) ∧
      wordsKept [] s t := by
  show ∃ t, execAckDelayExpiry p s = .next t ∧ _
  unfold execAckDelayExpiry
  refine onChip_when_runs (by rw [hup, hen, hmoored, decide_eq_true hsome]; rfl) fun d hd => ?_
  cases hready : s.hub.chip.dpReady
  · rw [Chip.sendLack, when_neg hready] at hd
    rw [if_neg Bool.false_ne_true, hd]
    simp only [after_lnk, after_outbox]
    exact ⟨⟨trivial, trivial⟩, wordsKept_after Chip.WordsKept.refl⟩
  · rw [Chip.sendLack, when_pos hready] at hd
    have hands := (Chip.Hands.refl hchange).send hmoored (b := lackBlock ((s.hub.chip.get (F.LNK_RX_EXPECT p) + 4095) % 4096))
    rw [if_pos rfl]
    refine ⟨⟨?_, handedOut_after ?_⟩, wordsKept_after ?_⟩
    · simp only [after_lnk, hd, chip_modLnk_lnk, upd_same, hands.lnk]
    · rw [hd]
      exact hands.out _ List.mem_cons_self
    · rw [hd]
      exact hands.wordsKept

/-- An acknowledgement of a barge that is outstanding releases it and those before it (R95). -/
theorem ackUpTo_releases {c : Chip} {p : Port} {a : Nat} (hfirst : 1 ≤ (a + 4096 - c.get (F.LNK_STATUS_TX_ACKED p)) % 4096)
    (hlast : (a + 4096 - c.get (F.LNK_STATUS_TX_ACKED p)) % 4096 ≤
      (c.get (F.LNK_STATUS_TX_NEXT p) + 4095 + 4096 - c.get (F.LNK_STATUS_TX_ACKED p)) % 4096) (ha : a < 4096) :
    (c.ackUpTo p a).get (F.LNK_STATUS_TX_ACKED p) = a ∧
    (c.ackUpTo p a).lnk[p] = { c.lnk[p] with
      expiries := 0
      replay := c.lnk[p].replay.filter fun o =>
        (a + 4096 - c.get (F.LNK_STATUS_TX_ACKED p)) % 4096 < (o.lseq + 4096 - c.get (F.LNK_STATUS_TX_ACKED p)) % 4096 } ∧
    c.WordsKept [(F.LNK_STATUS p).off, (F.LNK_RX p).off] (c.ackUpTo p a) := by
  have hvalid : ((1 ≤ (a + 4096 - c.get (F.LNK_STATUS_TX_ACKED p)) % 4096 : Bool) &&
      ((a + 4096 - c.get (F.LNK_STATUS_TX_ACKED p)) % 4096 ≤
        (c.get (F.LNK_STATUS_TX_NEXT p) + 4095 + 4096 - c.get (F.LNK_STATUS_TX_ACKED p)) % 4096 : Bool)) = true := by
    simp only [hfirst, hlast, decide_true, Bool.and_self]
  have hword : (F.LNK_STATUS_TX_ACKED p).off = (F.LNK_STATUS p).off ∧ (F.LNK_RX_BUF_WORDS p).off = (F.LNK_RX p).off := ⟨rfl, rfl⟩
  rw [Chip.ackUpTo, if_pos hvalid, Chip.showReplay]
  refine ⟨?_, ?_, ?_⟩
  · rw [chip_get_put_apart _ _ _ _ (by clear * -; decide +revert) (by clear * -; decide +revert)]
    exact get_put_of_lt (by clear * -; decide +revert) ha
  · simp only [chip_put_lnk, chip_modLnk_lnk, upd_same]
  · refine .put (.put (fun _ _ => rfl) ?_) ?_
    · rw [hword.1]; exact List.mem_cons_self
    · rw [hword.2]; exact List.mem_cons_of_mem _ List.mem_cons_self

theorem lackRx_releases {s : State} {p : Port} {b : Block} {a : Nat} (hup : s.hub.chip.on (F.TRK_STATUS_LINK_UP p) = true)
    (hcrc : crcHolds b = true) (hflag : b.getLsbD 256 = true) (htype : btypeOf b = 0x11) (ha : a = (b.extractLsb' 236 12).toNat)
    (hfirst : 1 ≤ (a + 4096 - s.hub.chip.get (F.LNK_STATUS_TX_ACKED p)) % 4096)
    (hlast : (a + 4096 - s.hub.chip.get (F.LNK_STATUS_TX_ACKED p)) % 4096 ≤
      (s.hub.chip.get (F.LNK_STATUS_TX_NEXT p) + 4095 + 4096 - s.hub.chip.get (F.LNK_STATUS_TX_ACKED p)) % 4096) :
    ∃ t, exec (.lackRx p b) s = .next t ∧ coreOnly s t ∧ t.hub.chip.get (F.LNK_STATUS_TX_ACKED p) = a ∧
      t.hub.chip.lnk[p] = { s.hub.chip.lnk[p] with
        expiries := 0
        replay := s.hub.chip.lnk[p].replay.filter fun o => (a + 4096 - s.hub.chip.get (F.LNK_STATUS_TX_ACKED p)) % 4096 <
          (o.lseq + 4096 - s.hub.chip.get (F.LNK_STATUS_TX_ACKED p)) % 4096 } ∧
      wordsKept [(F.LNK_STATUS p).off, (F.LNK_RX p).off] s t := by
  show ∃ t, execLackRx p b s = .next t ∧ _
  unfold execLackRx
  refine onChip_runs fun d hd => ?_
  rw [withCtl_takes hup hcrc hflag htype (by decide), ← ha] at hd
  obtain ⟨hacked, hlnk, hkept⟩ := ackUpTo_releases (c := s.hub.chip.takeBlock p b) hfirst hlast (by rw [ha]; exact BitVec.isLt _)
  rw [get_after _ _ (by clear * -; decide +revert), after_lnk, hd]
  exact ⟨hacked, hlnk, wordsKept_after hkept⟩

theorem lackRx_refuses {s : State} {p : Port} {b : Block} (hup : s.hub.chip.on (F.TRK_STATUS_LINK_UP p) = true) (hon : rxBlock b = .on)
    (hcrc : crcHolds b = false) :
    ∃ t, exec (.lackRx p b) s = .next t ∧ coreOnly s t ∧ t.hub.chip.lnk = s.hub.chip.lnk ∧
      t.hub.chip.get (F.LNK_PROTO_ERR p) = (s.hub.chip.get (F.LNK_PROTO_ERR p) + 1) % 2 ^ 32 ∧
      t.hub.chip.get (F.LNK_INT_STATUS_PROTO p) = 1 ∧ wordsKept [(F.LNK_PROTO_ERR p).off, (F.LNK_INT_STATUS p).off] s t := by
  show ∃ t, execLackRx p b s = .next t ∧ _
  unfold execLackRx
  refine onChip_runs fun d hd => ?_
  rw [withCtl_refuses hup hon hcrc, Chip.linkProto, Chip.inc] at hd
  simp (disch := (clear * -; decide +revert)) only [get_after, after_lnk]
  refine ⟨by rw [hd]; rfl, ?_, ?_, wordsKept_after ?_⟩
  · rw [hd, chip_get_flag_apart _ _ _ (by clear * -; decide +revert) (by clear * -; decide +revert),
      chip_get_put _ _ _ (by clear * -; decide +revert)]
    rfl
  · rw [hd]
    exact get_flag_same (by clear * -; decide +revert) (by clear * -; decide +revert)
  · rw [hd]
    refine .flag (.put (fun _ _ => rfl) List.mem_cons_self) ?_
    exact List.mem_cons_of_mem _ List.mem_cons_self

theorem lnakRx_replays {s : State} {p : Port} {b : Block} {o : Outstanding} (hup : s.hub.chip.on (F.TRK_STATUS_LINK_UP p) = true)
    (hcrc : crcHolds b = true) (hflag : b.getLsbD 256 = true) (htype : btypeOf b = 0x12) (hlseq : o.lseq = (b.extractLsb' 236 12).toNat)
    (honly : s.hub.chip.lnk[p].replay = [o]) (hacked : s.hub.chip.get (F.LNK_STATUS_TX_ACKED p) = (o.lseq + 4095) % 4096)
    (hheld : s.hub.chip.txHeld p = false) (htxc : s.hub.chip.get (F.LNK_TXC p) < 0xFFFF_FFFE) (hchange : s.hub.chip.pcs[p].change = none)
    (hkey : s.hub.chip.sendsClear p = true ∨
      (s.hub.chip.key.slot (txSlot p (s.hub.chip.get (F.LNK_EPOCH_EPOCH p)))).refuses p.val = false) :
    ∃ t, exec (.lnakRx p b) s = .next t ∧ coreOnly s t ∧ t.hub.chip.lnk[p] = { s.hub.chip.lnk[p] with resend := [] } ∧
      t.hub.chip.get (F.LNK_REPLAY_TX p) = (s.hub.chip.get (F.LNK_REPLAY_TX p) + 1) % 2 ^ 32 ∧
      t.hub.chip.get (F.LNK_TXC p) = s.hub.chip.get (F.LNK_TXC p) + 1 ∧
      (s.hub.chip.sendsClear p = true → ∀ d ∈ dataBlocks o.barge.words, handedOut t p d) ∧
      wordsKept [(F.LNK_REPLAY_TX p).off, (F.LNK_TXC p).off] s t := by
  show ∃ t, execLnakRx p b s = .next t ∧ _
  unfold execLnakRx
  refine onChip_runs fun d hd => ?_
  have hlt : o.lseq < 4096 := by rw [hlseq]; exact BitVec.isLt _
  have htake : ∃ a, a = s.hub.chip.takeBlock p b := ⟨_, rfl⟩
  obtain ⟨a, ha⟩ := htake
  have hnew : a.ackUpTo p ((o.lseq + 4095) % 4096) = a := by
    have hget : a.get (F.LNK_STATUS_TX_ACKED p) = (o.lseq + 4095) % 4096 := by rw [ha]; exact hacked
    unfold Chip.ackUpTo
    rw [hget]
    exact if_neg (by simp)
  have halnk : a.lnk[p].replay = [o] := by rw [ha]; exact honly
  have hafter : (o.lseq + 4096 - o.lseq) % 4096 < 2048 := by omega
  rw [withCtl_takes hup hcrc hflag htype (by decide)] at hd
  simp only [← hlseq, ← ha, hnew, halnk, List.filter_cons, hafter, decide_true, if_true, List.filter_nil] at hd
  have hblk : a.pcs[p].blk = s.hub.chip.pcs[p].blk ∧ a.pcs[p].change = s.hub.chip.pcs[p].change := by
    rw [ha, Chip.takeBlock, chip_modPcs_pcs, upd_same]
    exact ⟨rfl, rfl⟩
  have hreplays : Chip.Replays p o a d := by
    rw [hd]
    refine replayFrom_replays halnk ?_ (by rw [ha]; exact htxc) (hblk.2.trans hchange) (by rw [ha]; exact hkey)
    rw [← hheld]
    simp only [Chip.txHeld, Chip.epochDue, hblk.1]
    rw [ha]
    rfl
  have hlnk := hreplays.lnk
  have hcount := hreplays.count
  have htxc' := hreplays.txc
  have hout := hreplays.out
  have hkept := hreplays.kept
  rw [ha] at hlnk hcount htxc' hout hkept
  simp (disch := (clear * -; decide +revert)) only [get_after, after_lnk]
  exact ⟨hlnk, hcount, htxc', fun hc x hx => handedOut_after (hout hc x hx), wordsKept_after hkept⟩

theorem replayTimeout_replays {s : State} {p : Port} {o : Outstanding} (hup : s.hub.chip.on (F.TRK_STATUS_LINK_UP p) = true)
    (honly : s.hub.chip.lnk[p].replay = [o]) (hnone : s.hub.chip.lnk[p].expiries = 0)
    (hheld : s.hub.chip.txHeld p = false) (htxc : s.hub.chip.get (F.LNK_TXC p) < 0xFFFF_FFFE) (hchange : s.hub.chip.pcs[p].change = none)
    (hkey : s.hub.chip.sendsClear p = true ∨
      (s.hub.chip.key.slot (txSlot p (s.hub.chip.get (F.LNK_EPOCH_EPOCH p)))).refuses p.val = false) :
    ∃ t, exec (.replayTimeout p) s = .next t ∧ coreOnly s t ∧
      t.hub.chip.lnk[p] = { s.hub.chip.lnk[p] with expiries := 1, resend := [] } ∧
      t.hub.chip.get (F.LNK_REPLAY_TX p) = (s.hub.chip.get (F.LNK_REPLAY_TX p) + 1) % 2 ^ 32 ∧
      t.hub.chip.get (F.LNK_TXC p) = s.hub.chip.get (F.LNK_TXC p) + 1 ∧
      wordsKept [(F.LNK_REPLAY_TX p).off, (F.LNK_TXC p).off] s t := by
  show ∃ t, execReplayTimeout p s = .next t ∧ _
  unfold execReplayTimeout
  refine onChip_when_runs (by rw [hup, honly, not_moored_of_not_held hheld]; rfl) fun d hd => ?_
  rw [hnone, honly, if_neg (by decide)] at hd
  have hreplays : Chip.Replays p o (s.hub.chip.modLnk p fun l => { l with expiries := 0 + 1 }) d := by
    rw [hd]
    exact replayFrom_replays (by rw [chip_modLnk_lnk, upd_same]; exact honly) hheld htxc hchange hkey
  simp (disch := (clear * -; decide +revert)) only [get_after, after_lnk]
  exact ⟨by rw [hreplays.lnk, chip_modLnk_lnk, upd_same], hreplays.count, hreplays.txc, wordsKept_after hreplays.kept⟩

theorem replayTimeout_loses {s : State} {p : Port} (hup : s.hub.chip.on (F.TRK_STATUS_LINK_UP p) = true)
    (hsome : s.hub.chip.lnk[p].replay ≠ []) (hagain : 1 ≤ s.hub.chip.lnk[p].expiries) (hmoored : s.hub.chip.mooredPort p = false) :
    ∃ t, exec (.replayTimeout p) s = .next t ∧ coreOnly s t ∧ t.hub.chip.get (F.LNK_INT_STATUS_REPLAY_FAIL p) = 1 ∧
      t.hub.chip.get (F.TRK_STATUS_LINK_UP p) = 0 ∧ t.hub.chip.lnk[p].replay = [] ∧
      t.hub.chip.get (F.LNK_LOST_UNACKED p) = (s.hub.chip.get (F.LNK_LOST_UNACKED p) +
        (s.hub.chip.lnk[p].replay.length + s.hub.chip.lnk[p].txq.length)) % 2 ^ 32 := by
  show ∃ t, execReplayTimeout p s = .next t ∧ _
  unfold execReplayTimeout
  refine onChip_when_runs (by rw [hup, hmoored, List.isEmpty_eq_false_iff.2 hsome]; rfl) fun d hd => ?_
  rw [if_pos (by omega), Chip.permanentError] at hd
  have hlost := linkLost_lost (s.hub.chip.flag (F.LNK_INT_STATUS_REPLAY_FAIL p)) p
  rw [chip_get_flag_apart _ _ _ (by clear * -; decide +revert) (by clear * -; decide +revert), chip_flag_lnk] at hlost
  obtain ⟨hspares, ⟨hdown, -, -⟩, hreplay⟩ := linkLost_ends (s.hub.chip.flag (F.LNK_INT_STATUS_REPLAY_FAIL p)) p
  simp (disch := (clear * -; decide +revert)) only [get_after, after_lnk]
  rw [hd]
  refine ⟨(hspares.get (by clear * -; decide +revert)).trans ?_, hdown, hreplay, hlost⟩
  exact get_flag_same (by clear * -; decide +revert) (by clear * -; decide +revert)

theorem linkNakOutExpiry_ends (s : State) (p : Port) :
    ∃ t, exec (.linkNakOutExpiry p) s = .next t ∧ coreOnly s t ∧ t.hub.chip.lnk[p] = { s.hub.chip.lnk[p] with nakAt := none } ∧
      wordsKept [] s t := by
  show ∃ t, execLinkNakOutExpiry p s = .next t ∧ _
  unfold execLinkNakOutExpiry
  refine onChip_runs fun d hd => ?_
  rw [after_lnk, hd]
  exact ⟨by rw [chip_modLnk_lnk, upd_same], wordsKept_after fun _ _ => rfl⟩

/-- Settles O26: acknowledgements sent and taken, the barges that they release, and those sent again, clause by clause. -/
theorem linkReplay : Obligations.LinkReplay := by
  unfold Obligations.LinkReplay
  exact ⟨fun _ _ => ackDelayExpiry_acknowledges, fun _ _ _ _ => lackRx_releases, fun _ _ _ => lackRx_refuses,
    fun _ _ _ _ => lnakRx_replays, fun _ _ _ => replayTimeout_replays, fun _ _ => replayTimeout_loses, linkNakOutExpiry_ends⟩

end Sys2Proof.Proofs
end

section
/-! What a command of both dies leaves, and what the shared operations leave of the Towpath engines (03 R108 to R119). -/

namespace Sys2Proof.Machine

open Sys2Proof.Safety

/-! The state after a command of both dies. -/

/-- The state after a command that takes the hub to `h`. -/
def State.afterHub (s : State) (h : Hub) : State := { s with hub := { chip := s.hub.settled h, hv := { h.hv with hits := [] } } }

/-- A command of both dies runs, to be seen on the hub that it leaves. -/
theorem onHub_runs {s : State} {Q : State → Prop} {f : Hub → Hub} (hQ : ∀ h, h = f s.hub → Q (s.afterHub h)) :
    ∃ t, s.onHub f = .next t ∧ Q t :=
  ⟨_, rfl, hQ _ rfl⟩

section
variable {s : State} {h : Hub}

theorem coreOnly_afterHub (hv : h.hv = s.hub.hv) : coreOnly s (s.afterHub h) := by
  rw [State.afterHub, hv]
  exact ⟨rfl, rfl⟩

theorem hvWordsKept_afterHub (hv : h.hv.regs = s.hub.hv.regs) : hvWordsKept [] s (s.afterHub h) := fun o _ => congrArg (RegFile.word · o) hv

theorem get_afterHub {g : Field} (hg : g.apart F.CNT_OVF_PC = true) : (s.afterHub h).hub.chip.get g = h.chip.get g := settled_get _ _ _ hg

theorem wordsKept_afterHub {offs : List Nat} (hkept : s.hub.chip.WordsKept offs h.chip) : wordsKept offs s (s.afterHub h) :=
  fun o ho hpc => (settled_word _ _ hpc).trans (hkept o ho)

@[simp] theorem afterHub_tp : (s.afterHub h).hub.chip.tp = h.chip.tp := settled_tp _ _
@[simp] theorem afterHub_outbox : (s.afterHub h).hub.chip.outbox = h.chip.outbox := settled_outbox _ _

end

@[simp] theorem after_tp (s : State) (d : Chip) : (s.after d).hub.chip.tp = d.tp := settled_tp _ _

theorem Chip.WordsKept.modTp {offs : List Nat} {c d : Chip} {p : Port} {f : Tp → Tp} (h : c.WordsKept offs d) :
    c.WordsKept offs (d.modTp p f) := h

theorem Chip.Writes.tp {fs : List Field} {c d : Chip} (h : c.Writes fs d) : d.tp = c.tp := by obtain ⟨⟨r, hits, rfl⟩, -⟩ := h; rfl

/-! Alarms and power paths leave the Towpath engines (14 R444, R445; 11 R363). -/

/-- The trunk lanes, the link layer and the Towpath engines are as they were. -/
structure Chip.SameTowpath (c d : Chip) : Prop extends c.SameTrunk d where
  tp : d.tp = c.tp

theorem alarmCount_tp (c : Chip) : c.alarmCount.tp = c.tp := by
  have hshown : ∀ n m, ((c.put F.ALM_STATUS_PENDING n).put F.ALM_STATUS_HOLDS m).tp = c.tp := fun _ _ =>
    (chip_put_tp _ _ _).trans (chip_put_tp _ _ _)
  fun_cases Chip.alarmCount
  · exact (chip_put_tp _ _ _).trans (hshown _ _)
  · exact hshown _ _

theorem alarmLog_tp (c : Chip) (e : AlarmEntry) : (c.alarmLog e).2.tp = c.tp := by
  have hwrite : ∀ i, (c.alarmWrite i e).tp = c.tp := fun i => alarmCount_tp _
  fun_cases Chip.alarmLog
  · exact hwrite _
  · exact hwrite _
  · rfl

theorem when_tp {c : Chip} {b : Bool} {f : Chip → Chip} (hf : (f c).tp = c.tp) : (c.when b f).tp = c.tp := by
  cases b
  exacts [rfl, hf]

theorem raise_tp (c : Chip) (r : AlarmReq) : (c.raise r).tp = c.tp := by
  have hcount : ∀ {crit again : Bool}, ((((c.inc F.ALM_RAISED).flag F.ALM_INT_STATUS_RAISED).when crit fun x =>
      x.put F.GLB_FAULT_STATUS_CRIT_ALARM 1).when again fun x => x.inc F.ALM_SUPPRESSED).tp = c.tp := (when_tp rfl).trans (when_tp rfl)
  have hlogged : ∀ {a d : Chip} {x : AlarmEntry} {place : Option Nat}, a.alarmLog x = (place, d) → a.tp = c.tp → d.tp = c.tp := fun he ha =>
    (congrArg (·.2.tp) he).symm.trans ((alarmLog_tp _ _).trans ha)
  fun_cases Chip.raise
  · exact hcount
  · next e =>
    have hplaced := hlogged e hcount
    exact (alarmCount_tp _).trans hplaced
  · next e => exact hlogged e hcount
  · next e => exact hlogged e hcount

section
variable {c d : Chip}

theorem Chip.SameTowpath.refl : c.SameTowpath c := ⟨.refl, rfl⟩

theorem Chip.SameTowpath.raise {r : AlarmReq} (h : c.SameTowpath d) : c.SameTowpath (d.raise r) :=
  ⟨h.toSameTrunk.raise, (raise_tp _ _).trans h.tp⟩

theorem Chip.SameTowpath.when {b : Bool} {f : Chip → Chip} (h : c.SameTowpath d) (hf : ∀ {d}, c.SameTowpath d → c.SameTowpath (f d)) :
    c.SameTowpath (d.when b f) := by
  cases b
  exacts [h, hf h]

theorem Chip.SameTowpath.clearAbout {code : Nat} {about : AlarmEntry → Bool} (h : c.SameTowpath d) :
    c.SameTowpath (d.clearAbout code about) := by
  fun_cases Chip.clearAbout
  · exact h.when fun hd => hd.raise
  · exact h

theorem Chip.SameTowpath.partnerBack {p : Port} (h : c.SameTowpath d) : c.SameTowpath (d.partnerBack p) := h.clearAbout.clearAbout

theorem Chip.SameTowpath.partnerRuns {p : Port} {lk : Nat} (h : c.SameTowpath d) : c.SameTowpath (d.partnerRuns p lk) :=
  h.when fun hd => hd.clearAbout

end

/-- A change of paths, after which the budget floor may follow (11 R356). -/
theorem paths_eq (f : Hub → Hub) (h : Hub) : h.paths f = f h ∨ h.paths f = (f h).floorHint := by
  unfold Hub.paths Hub.when
  dsimp only
  split
  exacts [.inr rfl, .inl rfl]

/-- A guard that fails (11 R363): the path opens, and the swap ends. -/
def Hub.guardOpens (p : Port) : Hub → Hub :=
  fun h => (h.onHv (Hv.guardFail p)).onChip fun c => { c with pwr := { c.pwr with swap := c.pwr.swap.set p none } }

theorem guardFail_eq (h : Hub) (p : Port) :
    h.guardFail p = h.when (!h.hv.lockout && h.hv.on (F.TPW_P_STATUS_GUARD p)) (Hub.paths (Hub.guardOpens p)) := by
  rw [Hub.guardFail]
  unfold Hub.guardOpens
  rfl

theorem guardOpens_sameTowpath (h : Hub) (p : Port) : h.chip.SameTowpath (h.guardOpens p).chip := by
  unfold Hub.guardOpens
  rw [hub_onChip_chip, hub_onHv_chip]
  exact ⟨Chip.SameTrunk.refl.frame (by rfl), rfl⟩

theorem floorHint_sameTowpath (h : Hub) : h.chip.SameTowpath h.floorHint.chip := by
  obtain ⟨n, hn⟩ : ∃ n, h.floorHint = h.onChip fun c => c.put F.BUD_CTL_FLOOR n := ⟨_, by rw [Hub.floorHint]⟩
  rw [hn, hub_onChip_chip]
  exact ⟨Chip.SameTrunk.refl.put (by decide), rfl⟩

theorem Chip.SameTowpath.trans {c d e : Chip} (h : c.SameTowpath d) (h' : d.SameTowpath e) : c.SameTowpath e :=
  ⟨h.toSameTrunk.trans h'.toSameTrunk, h'.tp.trans h.tp⟩

/-- A path that opens as its guard fails leaves the Towpath engines. -/
theorem guardFail_sameTowpath (h : Hub) (p : Port) : h.chip.SameTowpath (h.guardFail p).chip := by
  rw [guardFail_eq]
  cases !h.hv.lockout && h.hv.on (F.TPW_P_STATUS_GUARD p)
  · exact .refl
  · rw [hub_when_true]
    rcases paths_eq (Hub.guardOpens p) h with e | e
    · rw [e]
      exact guardOpens_sameTowpath h p
    · rw [e]
      exact (guardOpens_sameTowpath h p).trans (floorHint_sameTowpath _)

end Sys2Proof.Machine
end

section
/-! Frames sent, and requests that end (03 R110, R114, R522). -/

namespace Sys2Proof.Machine

open Sys2Proof.Safety

/-- A command of both dies that acts under a condition, where it holds, and leaves the HV die. -/
theorem onHub_when_runs {s : State} {Q : State → Prop} {cond : Hub → Bool} {body : Hub → Hub} (h : cond s.hub = true)
    (hQ : ∀ g, g = body s.hub → g.hv = s.hub.hv ∧ Q (s.afterHub g)) :
    ∃ t, s.onHub (fun x => x.when (cond x) body) = .next t ∧ coreOnly s t ∧ Q t := by
  refine onHub_runs fun g hg => ?_
  obtain ⟨hv, hq⟩ := hQ g (hg.trans (by rw [h, hub_when_true]))
  exact ⟨coreOnly_afterHub hv, hq⟩

/-! The head of the queue (R110). -/

/-- The frame as it leaves the hub, with its CRC. -/
def TpFrame.sent (f : TpFrame) (p : Port) : Out :=
  .towpath p f.hdr f.payload (crc16 (bitsOf f.hdr ++ bitsOfBytes f.payload)) (tpLine f.hdr f.payload)

theorem tpSend_sends {c : Chip} {p : Port} {f : TpFrame} {rest : List TpFrame} (hq : c.tp[p].txq = f :: rest) (hb : c.tp[p].backoff = none) :
    c.tpSend p false = ((c.emit (f.sent p)).inc (F.LNK_TP_TX p)).modTp p fun t => { t with txq := rest, collisions := 0 } := by
  rw [Chip.tpSend, hq, hb]
  rfl

theorem tpSend_backsOff {c : Chip} {p : Port} {f : TpFrame} {rest : List TpFrame} (hq : c.tp[p].txq = f :: rest)
    (hb : c.tp[p].backoff = none) (hfew : c.tp[p].collisions < 7) :
    ∃ n, n < 2 ^ min (c.tp[p].collisions + 1) 5 ∧ c.tpSend p true =
      ((c.inc (F.LNK_TP_COLL p)).draw (2 ^ min (c.tp[p].collisions + 1) 5)).2.modTp p fun t =>
        { t with collisions := c.tp[p].collisions + 1, backoff := some n } := by
  refine ⟨((c.inc (F.LNK_TP_COLL p)).draw _).1, Nat.mod_lt _ (Nat.two_pow_pos _), ?_⟩
  rw [Chip.tpSend, hq, hb]
  exact if_neg (show ¬8 ≤ c.tp[p].collisions + 1 by omega)

theorem tpSend_abandons {c : Chip} {p : Port} {f : TpFrame} {rest : List TpFrame} (hq : c.tp[p].txq = f :: rest)
    (hb : c.tp[p].backoff = none) (hlast : c.tp[p].collisions = 7) :
    c.tpSend p true = (c.inc (F.LNK_TP_COLL p)).modTp p fun t => { t with txq := rest, collisions := 0 } := by
  rw [Chip.tpSend, hq, hb]
  exact if_pos (show 8 ≤ c.tp[p].collisions + 1 by omega)

/-- The head of the queue is tried; one abandoned, and the answer that accepts a swap, have more effects. -/
theorem hub_tpSend_eq {h : Hub} {p : Port} {f : TpFrame} {rest : List TpFrame} {collided : Bool}
    (hq : h.chip.tp[p].txq = f :: rest) (hb : h.chip.tp[p].backoff = none) :
    h.tpSend p collided =
      ((h.onChip (Chip.tpSend p collided)).when (collided && decide (8 ≤ h.chip.tp[p].collisions + 1) && !tpRsp f.hdr)
        (Hub.frameAbandoned p f)).when (!collided && tpRsp f.hdr && tpClass f.hdr == 7 && f.payload == [0#8]) (Hub.swapAckSent p) := by
  rw [Hub.tpSend, hq, hb]
  rfl

/-! A request that is outstanding, and its end. -/

theorem requestOf_congr {c d : Chip} {p : Port} {seq : Nat} (h : d.tp[p].requests = c.tp[p].requests) : d.requestOf p seq = c.requestOf p seq := by
  rw [Chip.requestOf, Chip.requestOf, h]

/-- A request of the firmware that is the last one sent ends: its result shows. -/
theorem fwEnds_eq {c : Chip} {p : Port} {r : TpRequest} {res : Nat} (hfw : r.fw = true) (hseq : c.get (F.LNK_TP_RESULT_SEQ p) = tpSeq r.frame.hdr) :
    c.fwEnds p res r = (c.put (F.LNK_TP_RESULT_RESULT p) res).flag (F.LNK_INT_STATUS_TP_DONE p) := by
  rw [Chip.fwEnds, when_pos hfw, Chip.fwResult, when_pos (by rw [hfw, hseq, beq_self_eq_true]; rfl)]

theorem unanswered_eq {c : Chip} {p : Port} {r : TpRequest} {res : Nat} (hfw : r.fw = true)
    (hseq : c.get (F.LNK_TP_RESULT_SEQ p) = tpSeq r.frame.hdr) :
    c.unanswered p res r = (((Chip.dropRequest p r c).inc (F.LNK_TP_TIMEOUT p)).put (F.LNK_TP_RESULT_RESULT p) res).flag
      (F.LNK_INT_STATUS_TP_DONE p) :=
  fwEnds_eq hfw ((chip_get_put_apart _ _ _ _ (by clear * -; decide +revert) (by clear * -; decide +revert)).trans hseq)

/-- A request of the firmware ends unanswered (R522): it is counted, and its result shows. -/
theorem unanswered_shows {c : Chip} {p : Port} {r : TpRequest} {res : Nat} (hres : res < 8) (hfw : r.fw = true)
    (hseq : c.get (F.LNK_TP_RESULT_SEQ p) = tpSeq r.frame.hdr) :
    (c.unanswered p res r).get (F.LNK_TP_RESULT_RESULT p) = res ∧ (c.unanswered p res r).get (F.LNK_INT_STATUS_TP_DONE p) = 1 ∧
      (c.unanswered p res r).get (F.LNK_TP_TIMEOUT p) = (c.get (F.LNK_TP_TIMEOUT p) + 1) % 2 ^ 32 ∧
      c.WordsKept [(F.LNK_TP_TIMEOUT p).off, (F.LNK_TP_RESULT p).off, (F.LNK_INT_STATUS p).off] (c.unanswered p res r) := by
  rw [unanswered_eq hfw hseq]
  refine ⟨?_, get_flag_same (by clear * -; decide +revert) (by clear * -; decide +revert), ?_, ?_⟩
  · rw [chip_get_flag_apart _ _ _ (by clear * -; decide +revert) (by clear * -; decide +revert)]
    exact get_put_of_lt (by clear * -; decide +revert) hres
  · rw [chip_get_flag_apart _ _ _ (by clear * -; decide +revert) (by clear * -; decide +revert),
      chip_get_put_apart _ _ _ _ (by clear * -; decide +revert) (by clear * -; decide +revert)]
    exact chip_get_put _ _ _ (by clear * -; decide +revert)
  · exact .flag (.put (.put (fun _ _ => rfl) (by clear * -; decide +revert)) (by clear * -; decide +revert)) (by clear * -; decide +revert)

theorem unanswered_tp {c : Chip} {p : Port} {r : TpRequest} {res : Nat} (hfw : r.fw = true)
    (hseq : c.get (F.LNK_TP_RESULT_SEQ p) = tpSeq r.frame.hdr) :
    (c.unanswered p res r).tp = upd c.tp p fun t => { t with requests := t.requests.filter fun q => q != r } := by
  rw [unanswered_eq hfw hseq, chip_flag_tp, chip_put_tp, Chip.inc, chip_put_tp]
  rfl

theorem unanswered_outbox {c : Chip} {p : Port} {r : TpRequest} {res : Nat} (hfw : r.fw = true)
    (hseq : c.get (F.LNK_TP_RESULT_SEQ p) = tpSeq r.frame.hdr) :
    (c.unanswered p res r).outbox = c.outbox := by
  rw [unanswered_eq hfw hseq]
  rfl

/-- A frame that is abandoned, where it was the last of a request that does not escalate (R110). -/
theorem frameAbandoned_unanswered {h : Hub} {p : Port} {f : TpFrame} {r : TpRequest}
    (hreq : h.chip.requestOf p (tpSeq f.hdr) = some r) (hstage : r.stage = .retry2) (hesc : r.escalates = false) :
    h.frameAbandoned p f = h.onChip (Chip.unanswered p 4 r) := by
  have hbreaks : h.chip.timeoutBreaks p (tpSeq f.hdr) = false := by simp [Chip.timeoutBreaks, hreq, hstage]
  have hends : h.chip.abandonedFrame p f = h.chip.unanswered p 4 r := by simp [Chip.abandonedFrame, hreq, hstage, hesc]
  rw [Hub.frameAbandoned, hbreaks, hub_when_false, Hub.onChip, hends]
  rfl

end Sys2Proof.Machine
end

section
/-! Frames sent, and their timers (03 R110, R113, R522): clauses of O30. -/

namespace Sys2Proof.Proofs

open Machine Safety

theorem towpathSend_sends {s : State} {p : Port} {f : TpFrame} {rest : List TpFrame} (halive : s.hub.chip.tpAlive p = true)
    (hq : s.hub.chip.tp[p].txq = f :: rest) (hb : s.hub.chip.tp[p].backoff = none) (hreq : tpRsp f.hdr = false) :
    ∃ t, exec (.towpathSend p false) s = .next t ∧ coreOnly s t ∧
      t.hub.chip.tp[p] = { s.hub.chip.tp[p] with txq := rest, collisions := 0 } ∧
      t.hub.chip.outbox = s.hub.chip.outbox ++ [f.sent p] ∧
      t.hub.chip.get (F.LNK_TP_TX p) = (s.hub.chip.get (F.LNK_TP_TX p) + 1) % 2 ^ 32 ∧ wordsKept [(F.LNK_TP_TX p).off] s t := by
  show ∃ t, execTowpathSend p false s = .next t ∧ _
  unfold execTowpathSend
  refine onHub_when_runs halive fun h hh => ?_
  rw [hub_tpSend_eq hq hb, hreq] at hh
  have hchip : h.chip = s.hub.chip.tpSend p false := by rw [hh]; rfl
  rw [tpSend_sends hq hb] at hchip
  refine ⟨by rw [hh]; rfl, ?_, ?_, ?_, wordsKept_afterHub ?_⟩
  · rw [afterHub_tp, hchip, chip_modTp_tp, upd_same]; rfl
  · rw [afterHub_outbox, hchip]; rfl
  · rw [get_afterHub (by clear * -; decide +revert), hchip]
    exact chip_get_put _ _ _ (by clear * -; decide +revert)
  · rw [hchip]
    exact .modTp (.put (.emit .refl) (List.mem_singleton_self _))

theorem towpathSend_backsOff {s : State} {p : Port} {f : TpFrame} {rest : List TpFrame} (halive : s.hub.chip.tpAlive p = true)
    (hq : s.hub.chip.tp[p].txq = f :: rest) (hb : s.hub.chip.tp[p].backoff = none) (hfew : s.hub.chip.tp[p].collisions < 7) :
    ∃ t, exec (.towpathSend p true) s = .next t ∧ coreOnly s t ∧ t.hub.chip.outbox = s.hub.chip.outbox ∧
      t.hub.chip.tp[p].txq = s.hub.chip.tp[p].txq ∧ t.hub.chip.tp[p].collisions = s.hub.chip.tp[p].collisions + 1 ∧
      (∃ n, t.hub.chip.tp[p].backoff = some n ∧ n < 2 ^ min (s.hub.chip.tp[p].collisions + 1) 5) ∧
      t.hub.chip.get (F.LNK_TP_COLL p) = (s.hub.chip.get (F.LNK_TP_COLL p) + 1) % 2 ^ 32 ∧ wordsKept [(F.LNK_TP_COLL p).off] s t := by
  show ∃ t, execTowpathSend p true s = .next t ∧ _
  unfold execTowpathSend
  refine onHub_when_runs halive fun h hh => ?_
  have hless : decide (8 ≤ s.hub.chip.tp[p].collisions + 1) = false := decide_eq_false (by omega)
  rw [hub_tpSend_eq hq hb, hless] at hh
  have hchip : h.chip = s.hub.chip.tpSend p true := by rw [hh]; rfl
  obtain ⟨n, hn, heq⟩ := tpSend_backsOff hq hb hfew
  rw [heq] at hchip
  have htp : h.chip.tp[p] = { s.hub.chip.tp[p] with collisions := s.hub.chip.tp[p].collisions + 1, backoff := some n } := by
    rw [hchip, chip_modTp_tp, upd_same]; rfl
  rw [afterHub_tp, htp, afterHub_outbox, get_afterHub (by clear * -; decide +revert)]
  refine ⟨by rw [hh]; rfl, by rw [hchip]; rfl, rfl, rfl, ⟨n, rfl, hn⟩, ?_, wordsKept_afterHub ?_⟩
  · rw [hchip]
    exact chip_get_put _ _ _ (by clear * -; decide +revert)
  · rw [hchip]
    exact .modTp (Chip.WordsKept.put .refl (List.mem_singleton_self _))

theorem towpathSend_abandonsAnswer {s : State} {p : Port} {f : TpFrame} {rest : List TpFrame} (halive : s.hub.chip.tpAlive p = true)
    (hq : s.hub.chip.tp[p].txq = f :: rest) (hb : s.hub.chip.tp[p].backoff = none) (hlast : s.hub.chip.tp[p].collisions = 7)
    (hrsp : tpRsp f.hdr = true) :
    ∃ t, exec (.towpathSend p true) s = .next t ∧ coreOnly s t ∧ t.hub.chip.outbox = s.hub.chip.outbox ∧
      t.hub.chip.tp[p] = { s.hub.chip.tp[p] with txq := rest, collisions := 0 } ∧
      t.hub.chip.get (F.LNK_TP_COLL p) = (s.hub.chip.get (F.LNK_TP_COLL p) + 1) % 2 ^ 32 := by
  show ∃ t, execTowpathSend p true s = .next t ∧ _
  unfold execTowpathSend
  refine onHub_when_runs halive fun h hh => ?_
  rw [hub_tpSend_eq hq hb, hrsp, Bool.not_true, Bool.and_false] at hh
  have hchip : h.chip = s.hub.chip.tpSend p true := by rw [hh]; rfl
  rw [tpSend_abandons hq hb hlast] at hchip
  rw [afterHub_tp, afterHub_outbox, get_afterHub (by clear * -; decide +revert)]
  refine ⟨by rw [hh]; rfl, by rw [hchip]; rfl, ?_, ?_⟩
  · rw [hchip, chip_modTp_tp, upd_same]; rfl
  · rw [hchip]
    exact chip_get_put _ _ _ (by clear * -; decide +revert)

theorem towpathSend_abandonsRequest {s : State} {p : Port} {f : TpFrame} {rest : List TpFrame} {r : TpRequest}
    (halive : s.hub.chip.tpAlive p = true) (hq : s.hub.chip.tp[p].txq = f :: rest) (hb : s.hub.chip.tp[p].backoff = none)
    (hlast : s.hub.chip.tp[p].collisions = 7) (hnew : tpRsp f.hdr = false) (hreq : s.hub.chip.requestOf p (tpSeq f.hdr) = some r)
    (hstage : r.stage = .retry2) (hesc : r.escalates = false) (hfw : r.fw = true)
    (hseq : s.hub.chip.get (F.LNK_TP_RESULT_SEQ p) = tpSeq r.frame.hdr) :
    ∃ t, exec (.towpathSend p true) s = .next t ∧ coreOnly s t ∧ t.hub.chip.outbox = s.hub.chip.outbox ∧
      t.hub.chip.get (F.LNK_TP_RESULT_RESULT p) = 4 ∧ t.hub.chip.get (F.LNK_INT_STATUS_TP_DONE p) = 1 ∧
      wordsKept [(F.LNK_TP_COLL p).off, (F.LNK_TP_TIMEOUT p).off, (F.LNK_TP_RESULT p).off, (F.LNK_INT_STATUS p).off] s t := by
  show ∃ t, execTowpathSend p true s = .next t ∧ _
  unfold execTowpathSend
  refine onHub_when_runs halive fun h hh => ?_
  obtain ⟨d, hd⟩ : ∃ d, d = s.hub.chip.tpSend p true := ⟨_, rfl⟩
  have hmore : decide (8 ≤ s.hub.chip.tp[p].collisions + 1) = true := decide_eq_true (by omega)
  have htried : h = (s.hub.onChip fun _ => d).frameAbandoned p f := by rw [hh, hub_tpSend_eq hq hb, hmore, hnew, hd]; rfl
  rw [tpSend_abandons hq hb hlast] at hd
  have hreq' : d.requestOf p (tpSeq f.hdr) = some r := by
    rw [← hreq]
    exact requestOf_congr (by rw [hd, chip_modTp_tp, upd_same]; rfl)
  have hkept : s.hub.chip.WordsKept [(F.LNK_TP_COLL p).off] d := by
    rw [hd]
    exact .modTp (.put .refl (List.mem_singleton_self _))
  have hseq' : d.get (F.LNK_TP_RESULT_SEQ p) = tpSeq r.frame.hdr := by
    rw [← hseq, hd]
    exact chip_get_put_apart _ _ _ _ (by clear * -; decide +revert) (by clear * -; decide +revert)
  rw [frameAbandoned_unanswered (r := r) hreq' hstage hesc] at htried
  have hchip : h.chip = d.unanswered p 4 r := by rw [htried]; rfl
  obtain ⟨hresult, hdone, -, hrest⟩ := unanswered_shows (c := d) (p := p) (res := 4) (by decide) hfw hseq'
  rw [afterHub_outbox, get_afterHub (by clear * -; decide +revert), get_afterHub (by clear * -; decide +revert), hchip,
    unanswered_outbox hfw hseq']
  refine ⟨by rw [htried]; rfl, by rw [hd]; rfl, hresult, hdone, wordsKept_afterHub fun o ho => ?_⟩
  rw [List.mem_cons, not_or] at ho
  rw [hchip]
  exact (hrest o ho.2).trans (hkept o (by rw [List.mem_singleton]; exact ho.1))

theorem towpathBackoffExpiry_ends {s : State} {p : Port} (halive : s.hub.chip.tpAlive p = true) :
    ∃ t, exec (.towpathBackoffExpiry p) s = .next t ∧ coreOnly s t ∧ t.hub.chip.tp[p] = { s.hub.chip.tp[p] with backoff := none } ∧
      wordsKept [] s t := by
  show ∃ t, execTowpathBackoffExpiry p s = .next t ∧ _
  unfold execTowpathBackoffExpiry
  refine onChip_when_runs halive fun d hd => ⟨?_, wordsKept_after fun _ _ => by rw [hd]; rfl⟩
  rw [after_tp, hd, chip_modTp_tp, upd_same]

theorem partnerSeenTimeout_ends {s : State} {p : Port} (halive : s.hub.chip.tpAlive p = true) :
    ∃ t, exec (.partnerSeenTimeout p) s = .next t ∧ coreOnly s t ∧ t.hub.chip.get (F.LNK_TP_STATUS_PARTNER_SEEN p) = 0 ∧
      wordsKept [(F.LNK_TP_STATUS p).off] s t := by
  show ∃ t, execPartnerSeenTimeout p s = .next t ∧ _
  unfold execPartnerSeenTimeout
  refine onChip_when_runs halive fun d hd => ⟨?_, wordsKept_after ?_⟩
  · rw [get_after _ _ (by clear * -; decide +revert), hd]
    exact get_put_of_lt (by clear * -; decide +revert) (Nat.two_pow_pos _)
  · rw [hd]
    exact .put .refl (List.mem_singleton_self _)

theorem tpUnescalatedTimeout_ends {s : State} {p : Port} {seq : Byte} {r : TpRequest} (halive : s.hub.chip.tpAlive p = true)
    (hreq : s.hub.chip.requestOf p seq.toNat = some r) (hstage : r.stage = .retry2) (hesc : r.escalates = false) (hfw : r.fw = true)
    (hseq : s.hub.chip.get (F.LNK_TP_RESULT_SEQ p) = tpSeq r.frame.hdr) :
    ∃ t, exec (.tpUnescalatedTimeout p seq) s = .next t ∧ coreOnly s t ∧
      t.hub.chip.tp[p] = { s.hub.chip.tp[p] with requests := s.hub.chip.tp[p].requests.filter fun q => q != r } ∧
      t.hub.chip.get (F.LNK_TP_TIMEOUT p) = (s.hub.chip.get (F.LNK_TP_TIMEOUT p) + 1) % 2 ^ 32 ∧
      t.hub.chip.get (F.LNK_TP_RESULT_RESULT p) = 5 ∧
      t.hub.chip.get (F.LNK_INT_STATUS_TP_DONE p) = 1 ∧
      wordsKept [(F.LNK_TP_TIMEOUT p).off, (F.LNK_TP_RESULT p).off, (F.LNK_INT_STATUS p).off] s t := by
  show ∃ t, execTpUnescalatedTimeout p seq s = .next t ∧ _
  unfold execTpUnescalatedTimeout
  refine onChip_when_runs halive fun d hd => ?_
  have hends : d = s.hub.chip.unanswered p 5 r := by simpa [hreq, hstage, hesc] using hd
  obtain ⟨hresult, hdone, hcount, hkept⟩ := unanswered_shows (c := s.hub.chip) (p := p) (res := 5) (by decide) hfw hseq
  simp (disch := (clear * -; decide +revert)) only [get_after]
  rw [after_tp, hends]
  exact ⟨by rw [unanswered_tp hfw hseq, upd_same], hcount, hresult, hdone, wordsKept_after hkept⟩

end Sys2Proof.Proofs
end

section
/-! Requests made, sent again and escalated (03 R112 to R114). -/

namespace Sys2Proof.Machine

open Sys2Proof.Safety

/-! Headers (03 Table 03-8). -/

theorem tpClass_tpWithSeq (h : Word) (n : Nat) : tpClass (tpWithSeq h n) = tpClass h := by
  have hseq : ∀ i, (n % 256 * 2 ^ 16).testBit (24 + i) = false := fun i =>
    Nat.testBit_lt_two_pow (Nat.lt_of_lt_of_le (show n % 256 * 2 ^ 16 < 2 ^ 24 by omega) (Nat.pow_le_pow_right (by decide) (by omega)))
  have hmask : ∀ i < 4, (0xFF00_FFFF#32).getLsbD (24 + i) = true := by decide
  rw [tpClass, tpClass]
  congr 1
  refine BitVec.eq_of_getLsbD_eq fun i hi => ?_
  rw [BitVec.getLsbD_extractLsb', BitVec.getLsbD_extractLsb', tpWithSeq, BitVec.getLsbD_or, BitVec.getLsbD_and, hmask i hi,
    BitVec.getLsbD_ofNat, hseq, Bool.and_true, Bool.and_false, Bool.or_false]

theorem tpClass_hello (len : Nat) : tpClass (tpHeader 1 0 len false false true) = 1 := by
  simp only [tpClass, tpHeader, BitVec.extractLsb'_toNat, BitVec.toNat_ofNat, Nat.shiftRight_eq_div_pow, Bool.false_eq_true, if_false, if_true]
  omega

/-! Requests and their frames. -/

theorem queueFrame_tp (c : Chip) (p : Port) (f : TpFrame) : (c.queueFrame p f).tp[p] = { c.tp[p] with txq := c.tp[p].txq ++ [f] } := by
  rw [Chip.queueFrame, chip_modTp_tp, upd_same]

theorem setRequest_tp (c : Chip) (p : Port) (old new : TpRequest) : (c.setRequest p old new).tp[p] =
    { c.tp[p] with requests := c.tp[p].requests.map fun r => if r == old then new else r } := by
  rw [Chip.setRequest, chip_modTp_tp, upd_same]

/-- A request takes the next SEQ, and waits to be sent and to be answered (R112). -/
theorem requestWith_tp (c : Chip) (p : Port) (hdr : Word) (l : List Byte) (fw escalates : Bool) :
    (c.requestWith p hdr l fw escalates).tp[p] = { c.tp[p] with
      nextSeq := (c.tp[p].nextSeq + 1) % 256
      txq := c.tp[p].txq ++ [{ hdr := tpWithSeq hdr c.tp[p].nextSeq, payload := l }]
      requests := c.tp[p].requests ++
        [{ frame := { hdr := tpWithSeq hdr c.tp[p].nextSeq, payload := l }, fw := fw, escalates := escalates, stage := .first, waits := 0,
           escSeq := 0 }] } := by
  rw [Chip.requestWith, chip_modTp_tp, upd_same, queueFrame_tp]

theorem sendAgain_nextSeq (c : Chip) (p : Port) (r : TpRequest) (stage : TpStage) :
    (c.sendAgain p r stage).tp[p].nextSeq = (c.tp[p].nextSeq + 1) % 256 ∧
      (c.sendAgain p r stage).tp[p].txq.length = c.tp[p].txq.length + 1 := by
  obtain ⟨f, new, b, n, h⟩ : ∃ f new b n, c.sendAgain p r stage = (((c.setRequest p r new).queueFrame p f).modTp p fun t =>
      { t with nextSeq := (c.tp[p].nextSeq + 1) % 256 }).when b fun d => d.put (F.LNK_TP_RESULT_SEQ p) n := ⟨_, _, _, _, rfl⟩
  rw [h, when_tp (chip_put_tp _ _ _), chip_modTp_tp, upd_same, queueFrame_tp, setRequest_tp]
  exact ⟨rfl, List.length_append⟩

/-! Timeouts of a request (R114). -/

/-- The first timeout of a request that escalates: it is counted, shown, and resent. -/
theorem tpTimeout_first {c : Chip} {p : Port} {seq : Nat} {r : TpRequest} (hreq : c.requestOf p seq = some r) (hstage : r.stage = .first)
    (hesc : r.escalates = true) (hclass : tpClass r.frame.hdr ≠ 1) :
    c.tpTimeout p seq = (((c.inc (F.LNK_TP_TIMEOUT p)).put (F.LNK_TP_STATUS_ESC_STAGE p) 1).setRequest p r { r with stage := .retry1 }).queueFrame p
      { r.frame with hdr := tpResent r.frame.hdr } := by
  simp only [Chip.tpTimeout, hreq, hstage, if_neg hclass, when_pos hesc]

/-- The third timeout of a request that escalates. -/
theorem tpTimeout_retry2 {c : Chip} {p : Port} {seq : Nat} {r : TpRequest} (hreq : c.requestOf p seq = some r) (hstage : r.stage = .retry2)
    (hesc : r.escalates = true) (hclass : tpClass r.frame.hdr ≠ 1) : c.tpTimeout p seq = (c.inc (F.LNK_TP_TIMEOUT p)).escalate p r := by
  simp only [Chip.tpTimeout, hreq, hstage, if_neg hclass, when_pos hesc, if_pos hesc]

/-- The last STATUS of an escalation is not answered. -/
theorem tpTimeout_status2 {c : Chip} {p : Port} {seq : Nat} {r : TpRequest} (hreq : c.requestOf p seq = some r) (hstage : r.stage = .status2)
    (hclass : tpClass r.frame.hdr ≠ 1) :
    c.tpTimeout p seq = (c.when r.escalates fun d => d.inc (F.LNK_TP_TIMEOUT p)).escalationEnd p r true := by
  simp only [Chip.tpTimeout, hreq, hstage, if_neg hclass]

/-- Event 3 of an escalation: a STATUS request goes, and ESC_STAGE shows 2. -/
theorem escalate_shows (c : Chip) (p : Port) (r : TpRequest) :
    (c.escalate p r).get (F.LNK_TP_STATUS_ESC_STAGE p) = 2 ∧ (c.escalate p r).tp[p].nextSeq = (c.tp[p].nextSeq + 1) % 256 ∧
      (c.escalate p r).tp[p].txq = c.tp[p].txq ++ [{ hdr := tpHeader 9 c.tp[p].nextSeq 0 false false true, payload := [] }] := by
  obtain ⟨new, b, h⟩ : ∃ new b, c.escalate p r = (((((c.setRequest p r new).queueFrame p
      { hdr := tpHeader 9 c.tp[p].nextSeq 0 false false true, payload := [] }).modTp p fun t =>
      { t with nextSeq := (c.tp[p].nextSeq + 1) % 256 }).put (F.LNK_TP_STATUS_ESC_STAGE p) 2).when b fun d =>
      d.put (F.LNK_TP_RESULT_RESULT p) 3) := ⟨_, _, rfl⟩
  rw [h]
  constructor
  · have hshown : ∀ d : Chip, (d.put (F.LNK_TP_STATUS_ESC_STAGE p) 2).get (F.LNK_TP_STATUS_ESC_STAGE p) = 2 := fun _ =>
      get_put_of_lt (by clear * -; decide +revert) (by clear * -; decide +revert)
    cases b
    · exact hshown _
    · exact (chip_get_put_apart _ _ _ _ (by clear * -; decide +revert) (by clear * -; decide +revert)).trans (hshown _)
  · rw [when_tp (chip_put_tp _ _ _), chip_put_tp, chip_modTp_tp, upd_same, queueFrame_tp, setRequest_tp]
    exact ⟨rfl, rfl⟩

end Sys2Proof.Machine
end

section
/-! Requests made, sent again and escalated: clauses of O30. -/

namespace Sys2Proof.Proofs

open Machine Safety

theorem helloTx_asks {s : State} {p : Port} (halive : s.hub.chip.tpAlive p = true) :
    ∃ t, exec (.helloTx p) s = .next t ∧ coreOnly s t ∧ t.hub.chip.tp[p].nextSeq = (s.hub.chip.tp[p].nextSeq + 1) % 256 ∧
      t.hub.chip.tp[p].txq.length = s.hub.chip.tp[p].txq.length + 1 ∧
      (∃ r, r ∈ t.hub.chip.tp[p].requests ∧ tpClass r.frame.hdr = 1 ∧ r.frame.payload = s.hub.helloPayload p) ∧ wordsKept [] s t := by
  show ∃ t, execHelloTx p s = .next t ∧ _
  unfold execHelloTx
  refine onHub_when_runs halive fun h hh => ?_
  obtain ⟨l, hl⟩ : ∃ l, l = s.hub.helloPayload p := ⟨_, rfl⟩
  obtain ⟨f, hf⟩ : ∃ f : Tp → Tp, f = fun t => { t with requests := t.requests.filter fun r => tpClass r.frame.hdr != 1 } := ⟨_, rfl⟩
  have hchip : h.chip = (s.hub.chip.modTp p f).requestWith p (tpHeader 1 0 l.length false false true) l false false := by
    rw [hh, hl, hf]; rfl
  rw [afterHub_tp, hchip, requestWith_tp, chip_modTp_tp, upd_same]
  refine ⟨by rw [hh]; rfl, by rw [hf], by rw [hf]; exact List.length_append, ?_, wordsKept_afterHub fun _ _ => by rw [hchip]; rfl⟩
  exact ⟨_, List.mem_append_right _ (List.mem_singleton_self _), (tpClass_tpWithSeq _ _).trans (tpClass_hello _), hl⟩

theorem tpRestartWaitExpiry_asksAgain {s : State} {p : Port} {r : TpRequest} (halive : s.hub.chip.tpAlive p = true)
    (hwaits : s.hub.chip.tp[p].requests.find? (fun q => q.stage == .waitRestart) = some r) :
    ∃ t, exec (.tpRestartWaitExpiry p) s = .next t ∧ coreOnly s t ∧ t.hub.chip.get (F.LNK_TP_STATUS_ESC_STAGE p) = 1 ∧
      t.hub.chip.tp[p].nextSeq = (s.hub.chip.tp[p].nextSeq + 1) % 256 ∧
      t.hub.chip.tp[p].txq.length = s.hub.chip.tp[p].txq.length + 1 := by
  show ∃ t, execTpRestartWaitExpiry p s = .next t ∧ _
  unfold execTpRestartWaitExpiry
  refine onChip_when_runs halive fun d hd => ?_
  replace hd : d = (s.hub.chip.sendAgain p r .first).put (F.LNK_TP_STATUS_ESC_STAGE p) 1 := by rw [hd, hwaits]
  rw [get_after _ _ (by clear * -; decide +revert), after_tp, hd, chip_put_tp]
  exact ⟨get_put_of_lt (by clear * -; decide +revert) (by clear * -; decide +revert), sendAgain_nextSeq _ _ _ _⟩

/-- A timeout that no break ends takes effect on the core die alone. -/
theorem hub_tpTimeout_eq {h : Hub} {p : Port} {seq : Nat} {r : TpRequest} (hreq : h.chip.requestOf p seq = some r)
    (hstage : r.stage = .first ∨ r.stage = .retry2) : h.tpTimeout p seq = h.onChip (Chip.tpTimeout p seq) := by
  have hbreaks : h.chip.timeoutBreaks p seq = false := by
    rcases hstage with e | e
    · simp [Chip.timeoutBreaks, hreq, e]
    · simp [Chip.timeoutBreaks, hreq, e]
  rw [Hub.tpTimeout, hbreaks, hub_when_false]

theorem tpAnswerTimeout_resends {s : State} {p : Port} {seq : Byte} {r : TpRequest} (halive : s.hub.chip.tpAlive p = true)
    (hreq : s.hub.chip.requestOf p seq.toNat = some r) (hstage : r.stage = .first) (hesc : r.escalates = true)
    (hclass : tpClass r.frame.hdr ≠ 1) :
    ∃ t, exec (.tpAnswerTimeout p seq) s = .next t ∧ coreOnly s t ∧
      t.hub.chip.tp[p].txq = s.hub.chip.tp[p].txq ++ [{ r.frame with hdr := tpResent r.frame.hdr }] ∧
      t.hub.chip.tp[p].requests = s.hub.chip.tp[p].requests.map (fun q => if q == r then { r with stage := .retry1 } else q) ∧
      t.hub.chip.get (F.LNK_TP_TIMEOUT p) = (s.hub.chip.get (F.LNK_TP_TIMEOUT p) + 1) % 2 ^ 32 ∧
      t.hub.chip.get (F.LNK_TP_STATUS_ESC_STAGE p) = 1 ∧
      wordsKept [(F.LNK_TP_TIMEOUT p).off, (F.LNK_TP_STATUS p).off] s t := by
  show ∃ t, execTpAnswerTimeout p seq s = .next t ∧ _
  unfold execTpAnswerTimeout
  refine onHub_when_runs halive fun h hh => ?_
  rw [hub_tpTimeout_eq hreq (.inl hstage)] at hh
  have hchip : h.chip = s.hub.chip.tpTimeout p seq.toNat := by rw [hh]; rfl
  rw [tpTimeout_first hreq hstage hesc hclass] at hchip
  obtain ⟨d, hd⟩ : ∃ d, d = (s.hub.chip.inc (F.LNK_TP_TIMEOUT p)).put (F.LNK_TP_STATUS_ESC_STAGE p) 1 := ⟨_, rfl⟩
  have htp : d.tp = s.hub.chip.tp := by rw [hd, chip_put_tp, Chip.inc, chip_put_tp]
  have hget : ∀ g, h.chip.get g = d.get g := fun g => by rw [hchip, hd]; rfl
  rw [afterHub_tp, get_afterHub (by clear * -; decide +revert), get_afterHub (by clear * -; decide +revert), hget, hget]
  rw [← hd] at hchip
  rw [hchip, queueFrame_tp, setRequest_tp, htp]
  refine ⟨by rw [hh]; rfl, rfl, rfl, ?_, ?_, wordsKept_afterHub fun o ho => ?_⟩
  · rw [hd, chip_get_put_apart _ _ _ _ (by clear * -; decide +revert) (by clear * -; decide +revert)]
    exact chip_get_put _ _ _ (by clear * -; decide +revert)
  · rw [hd]
    exact get_put_of_lt (by clear * -; decide +revert) (by clear * -; decide +revert)
  · have hkept : s.hub.chip.WordsKept [(F.LNK_TP_TIMEOUT p).off, (F.LNK_TP_STATUS p).off] d := by
      rw [hd]
      exact .put (.put .refl (by clear * -; decide +revert)) (by clear * -; decide +revert)
    rw [hchip]
    exact hkept o ho

theorem tpAnswerTimeout_escalates {s : State} {p : Port} {seq : Byte} {r : TpRequest} (halive : s.hub.chip.tpAlive p = true)
    (hreq : s.hub.chip.requestOf p seq.toNat = some r) (hstage : r.stage = .retry2) (hesc : r.escalates = true)
    (hclass : tpClass r.frame.hdr ≠ 1) :
    ∃ t, exec (.tpAnswerTimeout p seq) s = .next t ∧ coreOnly s t ∧ t.hub.chip.get (F.LNK_TP_STATUS_ESC_STAGE p) = 2 ∧
      t.hub.chip.tp[p].nextSeq = (s.hub.chip.tp[p].nextSeq + 1) % 256 ∧
      t.hub.chip.tp[p].txq = s.hub.chip.tp[p].txq ++ [{ hdr := tpHeader 9 s.hub.chip.tp[p].nextSeq 0 false false true, payload := [] }] := by
  show ∃ t, execTpAnswerTimeout p seq s = .next t ∧ _
  unfold execTpAnswerTimeout
  refine onHub_when_runs halive fun h hh => ?_
  rw [hub_tpTimeout_eq hreq (.inr hstage)] at hh
  have hchip : h.chip = s.hub.chip.tpTimeout p seq.toNat := by rw [hh]; rfl
  rw [tpTimeout_retry2 hreq hstage hesc hclass] at hchip
  rw [afterHub_tp, get_afterHub (by clear * -; decide +revert), hchip]
  exact ⟨by rw [hh]; rfl, escalate_shows (s.hub.chip.inc (F.LNK_TP_TIMEOUT p)) p r⟩

end Sys2Proof.Proofs
end

section
/-! Escalation to its end (03 R114, R117), and frames that the partner sends (03 R113). -/

namespace Sys2Proof.Machine

open Sys2Proof.Safety

/-- What the end of a request of the firmware writes. -/
def tpResultFields (p : Port) : List Field := [F.LNK_TP_RESULT_RESULT p, F.LNK_INT_STATUS_TP_DONE p]

theorem Chip.Writes.fwEnds {c d : Chip} {p : Port} {res : Nat} {r : TpRequest} (h : c.Writes (tpResultFields p) d) :
    c.Writes (tpResultFields p) (d.fwEnds p res r) := by
  have hresult : c.Writes (tpResultFields p) (d.fwResult p r res) := h.when fun hd => hd.put (by clear * -; decide +revert)
  exact hresult.when fun hd => hd.flag (by clear * -; decide +revert)

/-- The hard-reset break leaves, and no request of the port is outstanding (R117). -/
theorem sendBreak_breaks (c : Chip) (p : Port) (by_ : Option TpRequest) :
    (c.sendBreak p by_).outbox = c.outbox ++ [Out.hardBreak p] ∧ (c.sendBreak p by_).tp[p].requests = [] ∧
      (c.sendBreak p by_).get (F.LNK_INT_STATUS_TP_ESCALATE p) = c.get (F.LNK_INT_STATUS_TP_ESCALATE p) := by
  have hends : ∃ d, (c.emit (.hardBreak p)).Writes (tpResultFields p) d ∧ c.sendBreak p by_ =
      (d.modTp p fun t => { t.keepFrames (fun f => tpRsp f.hdr) with requests := [] }).put (F.LNK_TP_STATUS_ESC_STAGE p) 0 :=
    ⟨_, Chip.Writes.each (l := c.tp[p].requests) (f := fun r x => x.fwEnds p (if by_ = some r then 3 else 2) r) .refl fun hd => hd.fwEnds, rfl⟩
  obtain ⟨d, hd, heq⟩ := hends
  rw [heq]
  refine ⟨hd.outbox, ?_, ?_⟩
  · rw [chip_put_tp, chip_modTp_tp, upd_same]
  · rw [chip_get_put_apart _ _ _ _ (by clear * -; decide +revert) (by clear * -; decide +revert), chip_get_modTp,
      hd.get (by clear * -; decide +revert), chip_get_emit]

/-- The end of an escalation with TP_AUTO_HARD set (R114 events 5 and 10): after the alarms the break leaves. -/
theorem escalationEnd_breaks {c : Chip} {p : Port} {r : TpRequest} {noStatus : Bool} (hauto : c.on (F.LNK_CTL_TP_AUTO_HARD p) = true) :
    Out.hardBreak p ∈ (c.escalationEnd p r noStatus).outbox ∧ (c.escalationEnd p r noStatus).tp[p].requests = [] ∧
      (c.escalationEnd p r noStatus).get (F.LNK_TP_STATUS_ESC_STAGE p) = 6 ∧
      (c.escalationEnd p r noStatus).get (F.LNK_INT_STATUS_TP_ESCALATE p) = 1 := by
  have halarms : ∃ d, (c.flag (F.LNK_INT_STATUS_TP_ESCALATE p)).SameTowpath d ∧ c.escalationEnd p r noStatus =
      if d.on (F.LNK_CTL_TP_AUTO_HARD p) then (d.sendBreak p (some r)).put (F.LNK_TP_STATUS_ESC_STAGE p) 6
      else ((d.dropRequest p r).put (F.LNK_TP_STATUS_ESC_STAGE p) 0).fwEnds p 3 r :=
    ⟨_, Chip.SameTowpath.refl.when fun hd => hd.raise.when fun he => he.raise, rfl⟩
  obtain ⟨d, hd, heq⟩ := halarms
  have hon : d.on (F.LNK_CTL_TP_AUTO_HARD p) = true := by
    rw [Chip.on, hd.get (by clear * -; decide +revert), chip_get_flag_apart _ _ _ (by clear * -; decide +revert) (by clear * -; decide +revert)]
    exact hauto
  obtain ⟨hout, hnone, hkept⟩ := sendBreak_breaks d p (some r)
  rw [if_pos hon] at heq
  rw [heq]
  refine ⟨?_, ?_, get_put_of_lt (by clear * -; decide +revert) (by clear * -; decide +revert), ?_⟩
  · exact hout ▸ List.mem_append_right _ (List.mem_singleton_self _)
  · rw [chip_put_tp, hnone]
  · rw [chip_get_put_apart _ _ _ _ (by clear * -; decide +revert) (by clear * -; decide +revert), hkept, hd.get (by clear * -; decide +revert)]
    exact get_flag_same (by clear * -; decide +revert) (by clear * -; decide +revert)

/-! Frames that arrive. -/

/-- A frame that is seen changes no word of the HV die, and of the port's Towpath the time of the last frame alone. -/
theorem frameSeen_keeps (h : Hub) (p : Port) :
    (h.frameSeen p).hv.regs = h.hv.regs ∧ (h.frameSeen p).chip.tp[p] = { h.chip.tp[p] with seenAt := h.chip.now } := by
  have hheard : ∀ g : Hub, (g.partnerHeard p).hv.regs = g.hv.regs ∧ (g.partnerHeard p).chip.tp = g.chip.tp := fun g => by
    have hv : ∀ b : Bool, (g.hv.when b fun v => v.modTpw p fun t => { t with heard := true }).regs = g.hv.regs := fun b => by
      cases b
      · rfl
      · rfl
    fun_cases Hub.partnerHeard
    · next w _ =>
      cases w.late
      · exact ⟨hv _, rfl⟩
      · exact ⟨hv _, rfl⟩
    · exact ⟨hv _, rfl⟩
  obtain ⟨hv, htp⟩ := hheard (h.onChip fun c => (((c.put (F.LNK_TP_STATUS_LINE_BUSY p) 0).inc (F.LNK_TP_RX p)).put
    (F.LNK_TP_STATUS_PARTNER_SEEN p) 1).modTp p fun t => { t with seenAt := c.now })
  rw [Hub.frameSeen, htp, hub_onChip_chip, chip_modTp_tp, upd_same, chip_put_tp, Chip.inc, chip_put_tp, chip_put_tp]
  exact ⟨hv, rfl⟩

/-- An answer of class STATUS that no request has asked for itself is one of an escalation. -/
theorem tpAnswerRx_status {h : Hub} {p : Port} {hdr : Word} {l : List Byte} (hclass : tpClass hdr = 9)
    (hown : ∀ q ∈ h.chip.tp[p].requests, tpAnswers (tpClass q.frame.hdr) 9 = true → tpSeq q.frame.hdr ≠ tpSeq hdr) :
    h.tpAnswerRx p hdr l = h.onChip (Chip.escalationStatus p hdr l) := by
  have hown' : (h.chip.tp[p].requests.find? fun r => tpAnswers (tpClass r.frame.hdr) (tpClass hdr) && tpSeq r.frame.hdr == tpSeq hdr
      && (r.stage == .first || r.stage == .retry1 || r.stage == .retry2 || r.stage == .again0 || r.stage == .again1 || r.stage == .again2))
      = none := by
    refine List.find?_eq_none.2 fun q hq hmatch => ?_
    simp only [hclass, Bool.and_eq_true, beq_iff_eq] at hmatch
    exact hown q hq hmatch.1.1 hmatch.1.2
  have hsoft : (h.chip.tp[p].requests.find? fun r => (r.stage == .soft0 || r.stage == .soft1 || r.stage == .soft2) &&
      r.escSeq == tpSeq hdr && tpClass hdr == 0xA) = none := List.find?_eq_none.2 fun q _ => by simp [hclass]
  simp only [Hub.tpAnswerRx, hown', hsoft, if_pos hclass]

/-- Has the escalation of a request a STATUS with this SEQ outstanding (R114)? -/
def TpRequest.asksStatus (seq : Nat) (r : TpRequest) : Bool :=
  (r.stage == .status0 || r.stage == .status1 || r.stage == .status2) && r.escSeq == seq

/-- The partner's Lockkeeper is in HOLD (R114 event 8): the escalation stops, and the request is outstanding no longer. -/
theorem escalationStatus_holds {c : Chip} {p : Port} {hdr : Word} {l : List Byte} {r : TpRequest}
    (hfind : c.tp[p].requests.find? (TpRequest.asksStatus (tpSeq hdr)) = some r) (hlk : fieldAt l 10 1 % 8 = 3) :
    (c.escalationStatus p hdr l).get (F.LNK_TP_STATUS_PARTNER_LK p) = 3 ∧
      (c.escalationStatus p hdr l).get (F.LNK_TP_STATUS_ESC_STAGE p) = 7 ∧
      (c.escalationStatus p hdr l).get (F.LNK_INT_STATUS_PARTNER_HOLD p) = 1 ∧
      (c.escalationStatus p hdr l).tp[p].requests = c.tp[p].requests.filter fun q => q != r := by
  obtain ⟨d, hd, hpartner⟩ : ∃ d, (c.put (F.LNK_TP_STATUS_PARTNER_LK p) 3).SameTowpath d ∧
      ((c.put (F.LNK_TP_STATUS_PARTNER_LK p) 3).partnerBack p).partnerRuns p 3 = d := ⟨_, .partnerRuns (.partnerBack .refl), rfl⟩
  obtain ⟨a, hstops⟩ : ∃ a, c.escalationStatus p hdr l = ((((d.flag (F.LNK_INT_STATUS_PARTNER_HOLD p)).put (F.LNK_TP_STATUS_ESC_STAGE p)
      7).raise a).dropRequest p r).fwEnds p 3 r := by
    unfold TpRequest.asksStatus at hfind
    rw [Chip.escalationStatus, hfind, hlk, ← hpartner]
    exact ⟨_, rfl⟩
  obtain ⟨e, he, hraised⟩ : ∃ e, ((d.flag (F.LNK_INT_STATUS_PARTNER_HOLD p)).put (F.LNK_TP_STATUS_ESC_STAGE p) 7).SameTowpath e ∧
      ((d.flag (F.LNK_INT_STATUS_PARTNER_HOLD p)).put (F.LNK_TP_STATUS_ESC_STAGE p) 7).raise a = e := ⟨_, .raise .refl, rfl⟩
  rw [hraised] at hstops
  have hends : (e.dropRequest p r).Writes (tpResultFields p) (c.escalationStatus p hdr l) := hstops ▸ Chip.Writes.refl.fwEnds
  have hget : ∀ {g : Field}, (tpResultFields p).all g.apart = true → g.ofTrunk = true → (c.escalationStatus p hdr l).get g =
      ((d.flag (F.LNK_INT_STATUS_PARTNER_HOLD p)).put (F.LNK_TP_STATUS_ESC_STAGE p) 7).get g := fun hg hg' =>
    (hends.get hg).trans (he.get hg')
  refine ⟨?_, ?_, ?_, ?_⟩
  · rw [hget (by clear * -; decide +revert) (by clear * -; decide +revert),
      chip_get_put_apart _ _ _ _ (by clear * -; decide +revert) (by clear * -; decide +revert),
      chip_get_flag_apart _ _ _ (by clear * -; decide +revert) (by clear * -; decide +revert), hd.get (by clear * -; decide +revert)]
    exact get_put_of_lt (by clear * -; decide +revert) (by clear * -; decide +revert)
  · rw [hget (by clear * -; decide +revert) (by clear * -; decide +revert)]
    exact get_put_of_lt (by clear * -; decide +revert) (by clear * -; decide +revert)
  · rw [hget (by clear * -; decide +revert) (by clear * -; decide +revert),
      chip_get_put_apart _ _ _ _ (by clear * -; decide +revert) (by clear * -; decide +revert)]
    exact get_flag_same (by clear * -; decide +revert) (by clear * -; decide +revert)
  · rw [hends.tp, Chip.dropRequest, chip_modTp_tp, upd_same, he.tp, chip_put_tp, chip_flag_tp, hd.tp, chip_put_tp]

/-- The partner's Lockkeeper is in RUN (R114 event 7): a RESET_SOFT of scope 0 goes. -/
theorem escalationStatus_resets {c : Chip} {p : Port} {hdr : Word} {l : List Byte} {r : TpRequest}
    (hfind : c.tp[p].requests.find? (TpRequest.asksStatus (tpSeq hdr)) = some r) (hlk : fieldAt l 10 1 % 8 = 0) :
    (c.escalationStatus p hdr l).get (F.LNK_TP_STATUS_ESC_STAGE p) = 4 ∧
      (c.escalationStatus p hdr l).tp[p].txq =
        c.tp[p].txq ++ [{ hdr := tpHeader 0xA c.tp[p].nextSeq 1 false false true, payload := [0#8] }] := by
  obtain ⟨d, hd, hpartner⟩ : ∃ d, (c.put (F.LNK_TP_STATUS_PARTNER_LK p) 0).SameTowpath d ∧
      ((c.put (F.LNK_TP_STATUS_PARTNER_LK p) 0).partnerBack p).partnerRuns p 0 = d := ⟨_, .partnerRuns (.partnerBack .refl), rfl⟩
  obtain ⟨new, heq⟩ : ∃ new, c.escalationStatus p hdr l =
      (((d.setRequest p r new).queueFrame p { hdr := tpHeader 0xA d.tp[p].nextSeq 1 false false true, payload := [0#8] }).modTp p fun t =>
        { t with nextSeq := (t.nextSeq + 1) % 256 }).put (F.LNK_TP_STATUS_ESC_STAGE p) 4 := by
    unfold TpRequest.asksStatus at hfind
    rw [Chip.escalationStatus, hfind, hlk, ← hpartner]
    exact ⟨_, rfl⟩
  have htp : d.tp = c.tp := hd.tp.trans (chip_put_tp _ _ _)
  rw [heq, chip_put_tp, chip_modTp_tp, upd_same, queueFrame_tp, setRequest_tp, htp]
  exact ⟨get_put_of_lt (by clear * -; decide +revert) (by clear * -; decide +revert), rfl⟩

end Sys2Proof.Machine
end

section
/-! The Towpath's frames out (03 R110, R113, R114, R522): O30. -/

namespace Sys2Proof.Proofs

open Machine Safety

theorem tpAnswerTimeout_breaks {s : State} {p : Port} {seq : Byte} {r : TpRequest} (halive : s.hub.chip.tpAlive p = true)
    (hreq : s.hub.chip.requestOf p seq.toNat = some r) (hstage : r.stage = .status2) (hclass : tpClass r.frame.hdr ≠ 1)
    (hauto : s.hub.chip.on (F.LNK_CTL_TP_AUTO_HARD p) = true) :
    ∃ t, exec (.tpAnswerTimeout p seq) s = .next t ∧ t.pending = s.pending ∧ Out.hardBreak p ∈ t.hub.chip.outbox ∧
      t.hub.chip.tp[p].requests = [] ∧ t.hub.chip.get (F.LNK_TP_STATUS_ESC_STAGE p) = 6 ∧
      t.hub.chip.get (F.LNK_INT_STATUS_TP_ESCALATE p) = 1 := by
  show ∃ t, execTpAnswerTimeout p seq s = .next t ∧ _
  unfold execTpAnswerTimeout
  refine onHub_runs fun h hh => ?_
  have hbreaks : s.hub.chip.timeoutBreaks p seq.toNat = true := by simp [Chip.timeoutBreaks, hreq, hstage, hauto]
  rw [halive, hub_when_true, Hub.tpTimeout, hbreaks, hub_when_true] at hh
  obtain ⟨a, ha⟩ : ∃ a, a = s.hub.chip.when r.escalates fun d => d.inc (F.LNK_TP_TIMEOUT p) := ⟨_, rfl⟩
  have hauto' : a.on (F.LNK_CTL_TP_AUTO_HARD p) = true := by
    rw [ha]
    cases r.escalates
    · exact hauto
    · rw [chip_when_true, Chip.on, Chip.inc, chip_get_put_apart _ _ _ _ (by clear * -; decide +revert) (by clear * -; decide +revert)]
      exact hauto
  obtain ⟨hout, hnone, hstage6, hescalate⟩ := escalationEnd_breaks (p := p) (r := r) (noStatus := true) hauto'
  have hsame : (a.escalationEnd p r true).SameTowpath h.chip := by
    rw [hh, ha, ← tpTimeout_status2 hreq hstage hclass]
    exact guardFail_sameTowpath (s.hub.onChip (Chip.tpTimeout p seq.toNat)) p
  rw [afterHub_tp, afterHub_outbox, get_afterHub (by clear * -; decide +revert), get_afterHub (by clear * -; decide +revert),
    hsame.outbox, hsame.tp, hsame.get (by clear * -; decide +revert), hsame.get (by clear * -; decide +revert)]
  exact ⟨rfl, hout, hnone, hstage6, hescalate⟩

/-- An answer to the STATUS of an escalation: the partner is seen, and its LK_STATE decides. -/
theorem tpEscalationStatusRx_runs {s : State} {p : Port} {hdr : Word} {l : List Byte} {Q : State → Prop}
    (halive : s.hub.chip.tpAlive p = true) (hclass : tpClass hdr = 9) (hrsp : tpRsp hdr = true)
    (hown : ∀ q ∈ s.hub.chip.tp[p].requests, tpAnswers (tpClass q.frame.hdr) 9 = true → tpSeq q.frame.hdr ≠ tpSeq hdr)
    (hQ : ∀ h c, h.chip = Chip.escalationStatus p hdr l c → c.tp[p] = { s.hub.chip.tp[p] with seenAt := s.hub.chip.now } →
      Q (s.afterHub h)) :
    ∃ t, exec (.tpEscalationStatusRx p hdr l) s = .next t ∧ t.pending = s.pending ∧ hvWordsKept [] s t ∧ Q t := by
  show ∃ t, execTpEscalationStatusRx p hdr l s = .next t ∧ _
  unfold execTpEscalationStatusRx State.tpFrame
  refine onHub_runs fun h hh => ?_
  obtain ⟨hv, htp⟩ := frameSeen_keeps s.hub p
  have hown' : ∀ q ∈ (s.hub.frameSeen p).chip.tp[p].requests, tpAnswers (tpClass q.frame.hdr) 9 = true → tpSeq q.frame.hdr ≠ tpSeq hdr := by
    rw [htp]
    exact hown
  have hmine : (s.hub.chip.tpAlive p && tpClass hdr == 9 && tpRsp hdr == true) = true := by rw [halive, hclass, hrsp]; rfl
  rw [hmine, hub_when_true, Hub.frameTaken, if_pos hrsp, tpAnswerRx_status hclass hown'] at hh
  exact ⟨rfl, hvWordsKept_afterHub (by rw [hh]; exact hv), hQ h _ (by rw [hh]; rfl) htp⟩

theorem tpEscalationStatusRx_holds {s : State} {p : Port} {hdr : Word} {l : List Byte} {r : TpRequest}
    (halive : s.hub.chip.tpAlive p = true) (hclass : tpClass hdr = 9) (hrsp : tpRsp hdr = true)
    (hown : ∀ q ∈ s.hub.chip.tp[p].requests, tpAnswers (tpClass q.frame.hdr) 9 = true → tpSeq q.frame.hdr ≠ tpSeq hdr)
    (hfind : s.hub.chip.tp[p].requests.find? (TpRequest.asksStatus (tpSeq hdr)) = some r) (hlk : fieldAt l 10 1 % 8 = 3) :
    ∃ t, exec (.tpEscalationStatusRx p hdr l) s = .next t ∧ t.pending = s.pending ∧ hvWordsKept [] s t ∧
      t.hub.chip.get (F.LNK_TP_STATUS_PARTNER_LK p) = 3 ∧ t.hub.chip.get (F.LNK_TP_STATUS_ESC_STAGE p) = 7 ∧
      t.hub.chip.get (F.LNK_INT_STATUS_PARTNER_HOLD p) = 1 ∧
      t.hub.chip.tp[p].requests = s.hub.chip.tp[p].requests.filter fun q => q != r := by
  refine tpEscalationStatusRx_runs halive hclass hrsp hown fun h c hh hc => ?_
  obtain ⟨hlk', hstage, hhold, hdrop⟩ := escalationStatus_holds (c := c) (p := p) (hdr := hdr) (by rw [hc]; exact hfind) hlk
  rw [hc] at hdrop
  rw [afterHub_tp, get_afterHub (by clear * -; decide +revert), get_afterHub (by clear * -; decide +revert),
    get_afterHub (by clear * -; decide +revert), hh]
  exact ⟨hlk', hstage, hhold, hdrop⟩

theorem tpEscalationStatusRx_resets {s : State} {p : Port} {hdr : Word} {l : List Byte} {r : TpRequest}
    (halive : s.hub.chip.tpAlive p = true) (hclass : tpClass hdr = 9) (hrsp : tpRsp hdr = true)
    (hown : ∀ q ∈ s.hub.chip.tp[p].requests, tpAnswers (tpClass q.frame.hdr) 9 = true → tpSeq q.frame.hdr ≠ tpSeq hdr)
    (hfind : s.hub.chip.tp[p].requests.find? (TpRequest.asksStatus (tpSeq hdr)) = some r) (hlk : fieldAt l 10 1 % 8 = 0) :
    ∃ t, exec (.tpEscalationStatusRx p hdr l) s = .next t ∧ t.pending = s.pending ∧ hvWordsKept [] s t ∧
      t.hub.chip.get (F.LNK_TP_STATUS_ESC_STAGE p) = 4 ∧
      t.hub.chip.tp[p].txq = s.hub.chip.tp[p].txq ++ [{ hdr := tpHeader 0xA s.hub.chip.tp[p].nextSeq 1 false false true, payload := [0#8] }] := by
  refine tpEscalationStatusRx_runs halive hclass hrsp hown fun h c hh hc => ?_
  obtain ⟨hstage, hsent⟩ := escalationStatus_resets (c := c) (p := p) (hdr := hdr) (by rw [hc]; exact hfind) hlk
  rw [hc] at hsent
  rw [afterHub_tp, get_afterHub (by clear * -; decide +revert), hh]
  exact ⟨hstage, hsent⟩

/-- Settles O30: frames sent, requests made, sent again and escalated, and how they end, clause by clause. -/
theorem towpathFramesOut : Obligations.TowpathFramesOut := by
  unfold Obligations.TowpathFramesOut
  exact ⟨fun _ _ _ _ => towpathSend_sends, fun _ _ _ _ => towpathSend_backsOff, fun _ _ _ _ => towpathSend_abandonsAnswer,
    fun _ _ _ _ _ => towpathSend_abandonsRequest, fun _ _ => towpathBackoffExpiry_ends, fun _ _ => helloTx_asks,
    fun _ _ => partnerSeenTimeout_ends, fun _ _ _ _ => tpAnswerTimeout_resends, fun _ _ _ _ => tpAnswerTimeout_escalates,
    fun _ _ _ _ => tpAnswerTimeout_breaks, fun _ _ _ => tpRestartWaitExpiry_asksAgain, fun _ _ _ _ => tpUnescalatedTimeout_ends,
    fun _ _ _ _ _ halive hclass hrsp _ => tpEscalationStatusRx_holds halive hclass hrsp,
    fun _ _ _ _ _ halive hclass hrsp _ => tpEscalationStatusRx_resets halive hclass hrsp⟩

end Sys2Proof.Proofs
end

section
/-! The register path (16 R477 to R483): how one write of a whole word by a requester runs, for the obligations about register writes. -/

namespace Sys2Proof.Machine

open Sys2Proof.Safety

variable {s : State} {h g : Hub} {req : Requester} {off : Nat} {v : Word}

/-- The access of a requester that writes one word. -/
def wordAccess (req : Requester) (off : Nat) (v : Word) : PathAccess :=
  { req := req, write := true, off := off, len := 4, data := leBytes v, answered := false, worst := 0, of_ := .plain }

@[simp] theorem wordAccess_req : (wordAccess req off v).req = req := rfl
@[simp] theorem wordAccess_write : (wordAccess req off v).write = true := rfl
@[simp] theorem wordAccess_off : (wordAccess req off v).off = off := rfl
@[simp] theorem wordAccess_data : (wordAccess req off v).data = leBytes v := rfl
@[simp] theorem wordAccess_own? : (wordAccess req off v).own? = none := rfl
/-- A write that is not answered ends with nothing. -/
@[simp] theorem accessEnds_wordAccess (c : Chip) (n : Nat) (l : List Byte) : c.accessEnds (wordAccess req off v) n l = c := rfl

/-- The hub as an access finds it: its requester served, the domain of its register awake. -/
def Hub.entered (h : Hub) (req : Requester) (off : Nat) : Hub :=
  (h.onChip fun c => c.modFab fun f => { f with served := req.source.val }).onChip (Chip.accessRegister off)

theorem leWord_leBytes (v : Word) : leWord (leBytes v) 0 = v := by
  apply BitVec.eq_of_toNat_eq
  have hv := v.isLt
  simp [leWord, leBytes, beBytes, beVal, word32, List.range_succ]
  omega

theorem wordAccess_words (v : Word) : (List.range ((leBytes v).length / 4)).map (leWord (leBytes v)) = [v] := by
  have hlen : (leBytes v).length / 4 = 1 := by simp [leBytes, beBytes]
  rw [hlen]
  simp [leWord_leBytes]

/-- An access that admission lets in does not find the hub in Deep sleep. -/
theorem accessWakes_of_started {a : PathAccess} (hs : h.chip.started = true) : h.accessWakes a = h := by
  have hdeep : h.chip.pst.deep = false := by
    simp only [Chip.started, Chip.running, Bool.and_eq_true, Bool.not_eq_true'] at hs
    exact hs.1.2
  unfold Hub.accessWakes Hub.when Hub.onChip Chip.accessWakes Chip.when
  simp [hdeep]

theorem started_of_pathAdmits (hr : h.chip.pathAdmits req = true) : h.chip.started = true :=
  (Bool.and_eq_true _ _ ▸ hr).1

theorem wholeWords_wordAccess (hoff : off % 4 = 0) : (wholeWords off (leBytes v)).isNone = false := by
  have hlen : (leBytes v).length % 4 = 0 := by simp [leBytes, beBytes]
  simp [wholeWords, hoff, hlen]

/-- The write of one word that is not the commit of a table entry is not held. -/
theorem writeAccess_wordAccess (hcommit : commitsEntry off = false) :
    h.writeAccess false (wordAccess req off v) = (some (h.wordWrite req off v).1, (h.wordWrite req off v).2) := by
  have hfree : h.chip.wordHeld req off = false := by simp [Chip.wordHeld, hcommit]
  simp only [Hub.writeAccess, wordAccess, wordAccess_words, Hub.wordsWrite, hfree, Bool.not_false, Bool.and_false, Bool.false_eq_true,
    if_false, Nat.zero_max]

/-- One word written by a requester that the path admits: it is carried out on the hub as the access finds it. -/
theorem pathWrite_of_admitted (hheld : h.chip.fab.held = none) (hlock : req.source = 2 → h.chip.lockedOut 0 = false)
    (hadmit : h.chip.pathAdmits req = true) (hentered : (h.entered req off).chip.pathAdmits req = true) (hoff : off % 4 = 0)
    (hcommit : commitsEntry off = false) : h.pathWrite req off v = ((h.entered req off).wordWrite req off v).2 := by
  have hlocked : h.chip.pathLocked (wordAccess req off v) = false := by
    by_cases hs : req.source = 2
    · simp [Chip.pathLocked, hlock hs]
    · simp [Chip.pathLocked, wordAccess, hs]
  have hserved : (h.onChip fun c => c.modFab fun f => { f with served := req.source.val }).chip.pathAdmits req = true := hadmit
  have hcarried : (h.entered req off).carryOut (wordAccess req off v) =
      (some (writeStatus ((h.entered req off).wordWrite req off v).1, []), ((h.entered req off).wordWrite req off v).2) := by
    unfold Hub.carryOut
    have hwhole : (wholeWords off (leBytes v)).isNone = false := wholeWords_wordAccess hoff
    simp [hentered, hwhole, writeAccess_wordAccess hcommit]
  change h.request (wordAccess req off v) = _
  unfold Hub.request
  rw [accessWakes_of_started (started_of_pathAdmits hadmit)]
  simp only [hheld, hlocked, Option.isSome_none, Bool.or_false, Bool.false_eq_true, if_false]
  unfold Hub.serve
  simp only [wordAccess_req, wordAccess_off, wordAccess_own?, hserved, Hub.when, if_true]
  change (match (h.entered req off).carryOut (wordAccess req off v) with | (none, h) => h | (some (st, l), h) => _) = _
  rw [hcarried]
  simp [Hub.onChip]

/-- A word whose write a rule refuses: the refusal's own effect, and an entry of the journal with RESULT 2 (16 R483, R487). -/
theorem wordWrite_of_refused (hsource : req.source ≠ 5) (hrecovery : req.source = 1 → h.chip.inRecovery = false)
    (hstate : h.chip.get F.LKP_STATUS_STATE ≠ 3) (hreg : (regAt off).isNone = false) (hword : recoveryWord off = false)
    (hrefused : h.refused off v = some g) :
    (h.wordWrite req off v).2 =
      g.onChip (Chip.journal req.source.val 2 (some req) off v (h.readWord off) (g.readWord off)) := by
  have hturned : ¬(req.source = 1 ∧ h.chip.inRecovery = true) := fun hin => by simp [hrecovery hin.1] at hin
  unfold Hub.wordWrite Hub.performWrite
  simp only [hsource, ← and_assoc, hturned, hstate, hreg, hrefused, hword, if_false, false_and, Bool.false_eq_true, Hub.when]

/-- The newest entry of the journal is the one added. -/
theorem turnedDown_journal {c : Chip} {x old new : Word} :
    ∃ e l, (c.journal req.source.val 2 (some req) off x old new).jrn = e :: l ∧ e.source = req.source.val ∧ e.addr = off ∧
      e.result = 2 :=
  ⟨_, _, rfl, rfl, rfl, rfl⟩

end Sys2Proof.Machine
end


section
/-! Group 255, the group of the route notices (04 R127): O12. -/

namespace Sys2Proof.Proofs

open Sys2Proof.Machine Sys2Proof.Safety

/-- A write of group 255's entry changes the journal alone. -/
theorem pathWrite_group255 {s : State} {r : Requester} (v : Word) (hready : pathReady s r)
    (hrecovery : r.source = 1 → s.hub.chip.inRecovery = false) :
    s.hub.pathWrite r (F.FAB_GROUP 255).off v =
      (s.hub.entered r (F.FAB_GROUP 255).off).onChip (Chip.journal r.source.val 2 (some r) (F.FAB_GROUP 255).off v
        ((s.hub.entered r (F.FAB_GROUP 255).off).readWord (F.FAB_GROUP 255).off)
        ((s.hub.entered r (F.FAB_GROUP 255).off).readWord (F.FAB_GROUP 255).off)) := by
  obtain ⟨hheld, hlock, hadmit, hsource, hstate⟩ := hready
  have hentered : (s.hub.entered r (F.FAB_GROUP 255).off).chip.pathAdmits r = true := hadmit
  rw [pathWrite_of_admitted hheld hlock hadmit hentered (by decide) (by decide)]
  refine wordWrite_of_refused hsource hrecovery hstate (by decide +kernel) (by decide) ?_
  unfold Hub.refused
  simp

/-- Group 255 shows VALID, with the ring ports where there is a ring. -/
theorem readWord_group255 (h : Hub) : h.readWord (F.FAB_GROUP 255).off = h.chip.group255 := by
  have hreg : ∃ e, regAt (F.FAB_GROUP 255).off = some e ∧ e.sc ||| e.w1s = 0 := ⟨_, rfl, by decide⟩
  obtain ⟨e, hreg, hself⟩ := hreg
  have habsent : h.chip.absent (F.FAB_GROUP 255).off = false := by
    unfold Chip.absent
    cases h.chip.headEnd <;> decide
  have hshown : h.chip.shownWord (F.FAB_GROUP 255).off = h.chip.group255 := rfl
  have hdie : inHvDie (F.FAB_GROUP 255).off = false := by decide
  have hplain : (F.FAB_GROUP 255).off ≠ F.GLB_INT_SUMMARY.off ∧ (F.FAB_GROUP 255).off ≠ F.PWR_STATUS.off ∧
      (F.FAB_GROUP 255).off ≠ F.PWR_VOTE_HW.off := by decide
  obtain ⟨hsummary, hstatus, hvote⟩ := hplain
  unfold Hub.readWord
  simp only [hreg, habsent, hdie, hsummary, hstatus, hvote, hshown, hself, if_false, Bool.false_eq_true]
  exact BitVec.and_allOnes

/-- Settles O12. -/
theorem groupOfRouteNotices : Obligations.GroupOfRouteNotices := by
  unfold Obligations.GroupOfRouteNotices
  refine ⟨fun s r v hready hrecovery => ?_, fun s => ⟨fun hsize => ?_, fun hlow hhigh hpos => ?_⟩⟩
  · refine onHub_runs fun h hh => ?_
    obtain rfl := hh.trans (pathWrite_group255 v hready hrecovery)
    refine ⟨coreOnly_afterHub rfl, ?_, wordsKept_afterHub fun _ _ => rfl⟩
    rw [turnedDown, State.afterHub, settled_jrn]
    exact turnedDown_journal
  · simp [readWord_group255, Chip.group255, Chip.ring, hsize]
  · simp [readWord_group255, Chip.group255, Chip.ring, hlow, hhigh, hpos]

end Sys2Proof.Proofs
end


section
/-! What a refused register write still does: an access wakes the domain of its register, so O56 fails. -/

namespace Sys2Proof.Proofs

open Sys2Proof.Machine Sys2Proof.Safety

/-- What the wake of a domain writes. -/
def wakeFields : List Field := [F.PWR_STATUS_DOM_ON, F.PWR_DP_WAKES, F.PWR_STALL_MAX_STALL]

theorem writes_stalled {fs : List Field} {c d : Chip} {n : Nat} (h : c.Writes fs d) (hf : F.PWR_STALL_MAX_STALL ∈ fs) :
    c.Writes fs (d.stalled n) := h.put ⟨by decide, hf⟩

/-- The wake of an outer domain writes registers alone. -/
theorem writes_domainWake {c : Chip} {d n : Nat} (hd : d ≠ 0) : c.Writes wakeFields (c.domainWake d n) := by
  have hgate : (d == 0) = false := by simpa using hd
  unfold Chip.domainWake
  simp only [hgate, Bool.false_and, chip_when_false]
  have hvotes : c.Writes wakeFields (c.votesWake (2 ^ d ||| if 5 ≤ d then 2 else 0)) := .put .refl ⟨by decide, by simp [wakeFields]⟩
  exact writes_stalled (hvotes.when fun h => h.put ⟨by decide, by simp [wakeFields]⟩) (by simp [wakeFields])

/-- The domains that a wake turns on are on after it. -/
theorem domOn_domainWake {c : Chip} {d n : Nat} (hd : d ≠ 0) :
    (c.domainWake d n).get F.PWR_STATUS_DOM_ON = (c.votesWake (2 ^ d ||| if 5 ≤ d then 2 else 0)).get F.PWR_STATUS_DOM_ON := by
  have hgate : (d == 0) = false := by simpa using hd
  have hrest : (c.votesWake (2 ^ d ||| if 5 ≤ d then 2 else 0)).Writes [F.PWR_DP_WAKES, F.PWR_STALL_MAX_STALL] (c.domainWake d n) := by
    unfold Chip.domainWake
    simp only [hgate, Bool.false_and, chip_when_false]
    exact writes_stalled (Chip.Writes.refl.when fun h => h.put ⟨by decide, by simp⟩) (by simp)
  exact hrest.get (by decide)

/-- Whether the cores run rests on LKP_STATUS alone of the registers. -/
theorem coresRun_of_writes {fs : List Field} {c d : Chip} (h : c.Writes fs d) (hf : fs.all F.LKP_STATUS_STATE.apart = true) :
    d.coresRun = c.coresRun := by
  have hstate := h.get hf
  obtain ⟨⟨r, hits, rfl⟩, -⟩ := h
  unfold Chip.coresRun
  rw [hstate]
  rfl

/-- A started hub whose domain DP has no vote and is off, so that the next access to one of its registers wakes it (15 R455). -/
def sleepingDatapath : State :=
  { State.reset with
    hub := { State.reset.hub with
      chip := (({ Chip.reset with rst := startedRst } : Chip).put F.PWR_VOTE_SW_VOTE 0).put F.PWR_STATUS_DOM_ON 0 } }

theorem pathReady_sleepingDatapath : pathReady sleepingDatapath firmware := by decide +kernel

/-- The core as the access finds DP asleep: its own write is served, and one value has been drawn for the stall. -/
def stalledDatapath : Chip :=
  { (sleepingDatapath.hub.chip.modFab fun f => { f with served := 0 }) with freeCount := sleepingDatapath.hub.chip.freeCount + 1 }

theorem entered_sleepingDatapath :
    ∃ n, (sleepingDatapath.hub.entered firmware (F.SWC_BASIN 0).off).chip = stalledDatapath.domainWake 1 n := by
  have hasleep : (sleepingDatapath.hub.chip.modFab fun f => { f with served := 0 }).dpReady = false := by decide +kernel
  have hdomain : regDomain (F.SWC_BASIN 0).off = some 1 := by decide
  refine ⟨Config.free sleepingDatapath.hub.chip.freeCount % 126, ?_⟩
  unfold Hub.entered Hub.onChip Chip.accessRegister
  simp only [hdomain]
  unfold Chip.accessDomain
  simp only [if_true]
  exact if_pos (by simpa [firmware] using hasleep)

/-- SWC_BASIN is refused below the least reserve. -/
theorem refused_basin (h : Hub) :
    h.refused (F.SWC_BASIN 0).off 0#32 = some (h.onChip fun c => c.flag F.SWC_INT_STATUS_PARTITION_REFUSED) := by
  have habsent : h.chip.absent (F.SWC_BASIN 0).off = false := by
    unfold Chip.absent
    cases h.chip.headEnd <;> decide
  have hreserve : h.chip.reserveRefused 0 0#32 = true := rfl
  have hgroup : (F.SWC_BASIN 0).off ≠ (F.FAB_GROUP 255).off := by decide
  have hpart : (F.SWC_BASIN 0).off / 0x1_0000 = 6 := by decide
  have hmember : memberAt 0x06_0010 4 10 (F.SWC_BASIN 0).off = some (0, 0) := by decide
  unfold Hub.refused
  simp [habsent, hgroup, hpart, hmember, hreserve]

/-- The refused write leaves DP on. -/
theorem domOn_basinReserveWrite :
    (sleepingDatapath.hub.pathWrite firmware (F.SWC_BASIN 0).off 0#32).chip.get F.PWR_STATUS_DOM_ON = 2 := by
  obtain ⟨hheld, hlock, hadmit, hsource, hstate⟩ := pathReady_sleepingDatapath
  obtain ⟨n, hn⟩ := entered_sleepingDatapath
  have hwrites : stalledDatapath.Writes wakeFields (stalledDatapath.domainWake 1 n) := writes_domainWake (by decide)
  have hruns : (stalledDatapath.domainWake 1 n).coresRun = true := (coresRun_of_writes hwrites (by decide)).trans (by decide +kernel)
  have hentered : (sleepingDatapath.hub.entered firmware (F.SWC_BASIN 0).off).chip.pathAdmits firmware = true := by
    rw [hn]
    have hstarted : (stalledDatapath.domainWake 1 n).started = true := by
      simp only [Chip.coresRun, Bool.and_eq_true] at hruns
      exact hruns.1.1.1.1
    unfold Chip.pathAdmits
    rw [hstarted]
    exact hruns
  have hlk : (sleepingDatapath.hub.entered firmware (F.SWC_BASIN 0).off).chip.get F.LKP_STATUS_STATE ≠ 3 := by
    rw [hn, hwrites.get (by decide)]
    exact hstate
  rw [pathWrite_of_admitted hheld hlock hadmit hentered (by decide) (by decide),
    wordWrite_of_refused hsource (fun h => absurd h (by decide)) hlk (by decide +kernel) (by decide) (refused_basin _)]
  change ((sleepingDatapath.hub.entered firmware (F.SWC_BASIN 0).off).chip.flag F.SWC_INT_STATUS_PARTITION_REFUSED).get
    F.PWR_STATUS_DOM_ON = 2
  rw [hn, chip_get_flag_apart _ _ _ (by decide) (by decide), domOn_domainWake (by decide)]
  decide +kernel

/-- Refutes O56: a write of SWC_BASIN that is refused is still an access to a register of DP, and wakes the domain where it is off
(15 R455), so PWR_STATUS does not keep its value. -/
theorem not_tableWrites : ¬ Obligations.TableWrites := by
  rintro ⟨-, -, -, -, -, -, hrefused, -⟩
  obtain ⟨t, hexec, -, -, -, hkept⟩ :=
    hrefused sleepingDatapath firmware 0 0#32 pathReady_sleepingDatapath (by decide) rfl
  obtain ⟨-, -, hchip⟩ := onHub_next hexec
  have hword := hkept F.PWR_STATUS_DOM_ON.off (by decide) (by decide)
  have hsame : t.hub.chip.get F.PWR_STATUS_DOM_ON = sleepingDatapath.hub.chip.get F.PWR_STATUS_DOM_ON :=
    congrArg (wordField · F.PWR_STATUS_DOM_ON.lo F.PWR_STATUS_DOM_ON.width) hword
  have hon : t.hub.chip.get F.PWR_STATUS_DOM_ON = 2 := by
    rw [hchip, settled_get _ _ _ (by decide)]
    exact domOn_basinReserveWrite
  exact absurd (hon.symm.trans hsame) (by decide +kernel)

end Sys2Proof.Proofs
end


section
/-! A barge that finds the switch core's domain asleep waits at its port (15 R456), so O32 fails. -/

namespace Sys2Proof.Proofs

open Sys2Proof.Machine Sys2Proof.Safety

/-- The hub whose domain DP is asleep, with RED off. -/
def sleepingSwitch : State :=
  { sleepingDatapath with hub := sleepingDatapath.hub.onChip fun c => c.put F.SWC_CTL_RED_EN 0 }

/-- An LCTL barge with no payload. -/
def lctlBarge : Barge := {
  hdr := {
    dst := 0, src := 0, tunnel := 0, queue := 0, colour := 0, cmark := false, mcast := false, hops := 0, tseq := 0, len := 0, type := 2
    first := true, last := true, ackreq := false, retx := false, budget := 0, tspec := 0 }
  payload := [] }

theorem noSampling_sleepingSwitch : noSampling sleepingSwitch.hub.chip := by decide +kernel

theorem roomFor_sleepingSwitch : roomFor sleepingSwitch.hub.chip 0 (bargeCells lctlBarge) := by decide +kernel

/-- With DP asleep the lookup leaves the barge at the head of its port. -/
theorem trunkIngressLookup_sleepingSwitch :
    ∃ t, exec (.trunkIngressLookup 0 (some lctlBarge)) sleepingSwitch = .next t ∧ t.hub.chip.lnk[0].rxq = [lctlBarge] :=
  ⟨_, rfl, by decide +kernel⟩

/-- Refutes O32: a lookup waits until DP is ready (15 R456), also with room in the port's reserve, so the link's queue is not empty
after it. -/
theorem not_bargesEnterAndLeaveQueues : ¬ Obligations.BargesEnterAndLeaveQueues := by
  rintro ⟨hlctl, -⟩
  obtain ⟨t, hexec, -, hempty, -⟩ := hlctl sleepingSwitch 0 lctlBarge (by decide +kernel) (by decide) noSampling_sleepingSwitch
    roomFor_sleepingSwitch
  obtain ⟨u, hnext, hwaits⟩ := trunkIngressLookup_sleepingSwitch
  obtain rfl := Host.Outcome.next.inj (hexec.symm.trans hnext)
  exact absurd (hempty.symm.trans hwaits) (by decide)

end Sys2Proof.Proofs
end


section
/-! What the switch core, the alarms, the USB adapter and the tunnel engine leave of the forwarding block: its tables and state, below
its counters. -/

namespace Sys2Proof.Machine

/-- The first counter of the forwarding block, FAB_NO_ROUTE: its tables, settings and state stand below it. -/
abbrev fabCounters : Nat := 0x5_F058

/-- The forwarding block's tables, settings and state are as they were, and so are the time and what P8 has received. -/
structure TablesKept (c d : Chip) : Prop where
  word : ∀ o, 0x4_0000 ≤ o → o < fabCounters → d.regs.word o = c.regs.word o
  fab : d.fab = c.fab
  now : d.now = c.now
  subns : d.subns = c.subns
  p8in : d.swc.p8in = c.swc.p8in

/-- The field lies in no word of the forwarding block's tables and state. -/
abbrev besideTables (f : Field) : Prop := f.off < 0x4_0000 ∨ fabCounters ≤ f.off

theorem besideTables_add {base k lo width : Nat} (h : fabCounters ≤ base) : besideTables ⟨base + k, lo, width⟩ :=
  .inr (Nat.le_add_right_of_le h)

namespace TablesKept

variable {b c d : Chip}

theorem refl : TablesKept c c := ⟨fun _ _ _ => rfl, rfl, rfl, rfl, rfl⟩

theorem trans (h : TablesKept b c) (h' : TablesKept c d) : TablesKept b d :=
  ⟨fun o hlo hhi => (h'.word o hlo hhi).trans (h.word o hlo hhi), h'.fab.trans h.fab, h'.now.trans h.now, h'.subns.trans h.subns,
    h'.p8in.trans h.p8in⟩

theorem get {f : Field} (h : TablesKept c d) (hlo : 0x4_0000 ≤ f.off) (hhi : f.off < fabCounters) : d.get f = c.get f :=
  congrArg (wordField · f.lo f.width) (h.word f.off hlo hhi)

theorem frame (h : TablesKept b c)
    (hd : (d.regs, d.fab, d.now, d.subns, d.swc.p8in) = (c.regs, c.fab, c.now, c.subns, c.swc.p8in)) : TablesKept b d := by
  simp only [Prod.mk.injEq] at hd
  obtain ⟨hregs, hfab, hnow, hsubns, hp8⟩ := hd
  exact ⟨hregs ▸ h.word, hfab ▸ h.fab, hnow ▸ h.now, hsubns ▸ h.subns, hp8 ▸ h.p8in⟩

theorem of_eq {α : Type} {p : α × Chip} {a : α} (hp : TablesKept b p.2) (e : p = (a, d)) : TablesKept b d := by
  subst e
  exact hp

theorem when {x : Bool} {f : Chip → Chip} (h : TablesKept b c) (hf : ∀ {c}, TablesKept b c → TablesKept b (f c)) :
    TablesKept b (c.when x f) := by
  cases x
  exacts [h, hf h]

theorem ite {p : Prop} [Decidable p] (h : TablesKept b c) (hd : TablesKept b d) : TablesKept b (if p then c else d) := by
  split
  exacts [h, hd]

theorem snd_ite {α : Type} {p : Prop} [Decidable p] {x y : α × Chip} (hx : TablesKept b x.2) (hy : TablesKept b y.2) :
    TablesKept b (if p then x else y).2 := by
  split
  exacts [hx, hy]

theorem each {α : Type} {l : List α} {f : α → Chip → Chip} (h : TablesKept b c)
    (hf : ∀ {a c}, TablesKept b c → TablesKept b (f a c)) : TablesKept b (c.each l f) :=
  chip_each_keeps (TablesKept b) l f c h fun _ _ hd => hf hd

theorem put {f : Field} {x : Nat} (h : TablesKept b c) (hf : besideTables f) : TablesKept b (c.put f x) :=
  ⟨fun o hlo hhi => (word_put _ _ _ _ (by omega)).trans (h.word o hlo hhi), h.fab, h.now, h.subns, h.p8in⟩

theorem putBit {f : Field} {n : Nat} {x : Bool} (h : TablesKept b c) (hf : besideTables f) : TablesKept b (c.putBit f n x) := h.put hf

theorem flag {f : Field} (h : TablesKept b c) (hf : besideTables f) : TablesKept b (c.flag f) := (h.put hf).frame rfl

theorem inc {f : Field} (h : TablesKept b c) (hf : besideTables f) : TablesKept b (c.inc f) := h.put hf

theorem add {f : Field} {n : Nat} (h : TablesKept b c) (hf : besideTables f) : TablesKept b (c.add f n) := h.put hf

theorem modSwc {f : Swc → Swc} (h : TablesKept b c) (hf : (f c.swc).p8in = c.swc.p8in) : TablesKept b (c.modSwc f) :=
  ⟨h.word, h.fab, h.now, h.subns, hf.trans h.p8in⟩

theorem modSch {f : Sch → Sch} (h : TablesKept b c) : TablesKept b (c.modSch f) := h.frame rfl

theorem modUsb {f : Usb → Usb} (h : TablesKept b c) : TablesKept b (c.modUsb f) := h.frame rfl

theorem modWin {f : Win → Win} (h : TablesKept b c) : TablesKept b (c.modWin f) := h.frame rfl

theorem emit {o : Out} (h : TablesKept b c) : TablesKept b (c.emit o) := h.frame rfl

theorem draw {n : Nat} (h : TablesKept b c) : TablesKept b (c.draw n).2 := h.frame rfl

/-! Cells and queues. -/

theorem rewritten {p : Word → Bool} (h : TablesKept b c) : TablesKept b (c.rewritten p) :=
  h.when fun h => h.each fun h => h.when fun h => h.put (besideTables_add (by decide))

theorem showPool (h : TablesKept b c) : TablesKept b c.showPool :=
  ((h.put (by decide)).put (by decide)).when fun h => h.flag (by decide)

theorem charge {p cells : Nat} (h : TablesKept b c) : TablesKept b (c.charge p cells) :=
  ((h.put (besideTables_add (by decide))).put (besideTables_add (by decide))).showPool

theorem uncharge {p cells : Nat} (h : TablesKept b c) : TablesKept b (c.uncharge p cells) :=
  (h.put (besideTables_add (by decide))).showPool

theorem showRetained {p : Nat} (h : TablesKept b c) : TablesKept b (c.showRetained p) :=
  (h.put (besideTables_add (by decide))).put (besideTables_add (by decide))

theorem sweepStore {sid : Nat} (h : TablesKept b c) : TablesKept b (c.sweepStore sid) := by
  fun_cases Chip.sweepStore
  · exact h
  · exact (h.modSwc rfl).uncharge
  · exact h

theorem dropRef {sid : Nat} (h : TablesKept b c) : TablesKept b (c.dropRef sid) := (h.modSwc rfl).sweepStore

theorem draw16 {g : Nat} (h : TablesKept b c) : TablesKept b (c.draw16 g).2 := by
  unfold Chip.draw16
  dsimp only
  exact h.modSwc rfl

theorem red {i e q colour : Nat} {skip : Bool} (h : TablesKept b c) : TablesKept b (c.red i e q colour skip).2 := by
  have haverage : ∀ {l : Swc → List ((Nat × Nat) × Nat)}, TablesKept b (c.modSwc fun w => { w with avg := l w }) := h.modSwc rfl
  fun_cases Chip.red
  · dsimp +zetaDelta only
    exact haverage
  all_goals exact haverage.draw16.of_eq ‹_›

theorem retag {e q : Nat} (h : TablesKept b c) : TablesKept b (c.retag e q) := by
  fun_cases Chip.retag
  · exact h
  · exact h.modSch
  · exact h.modSch.modSch

theorem becameBacklogged {e q : Nat} (h : TablesKept b c) : TablesKept b (c.becameBacklogged e q) := .ite h h.retag

theorem settleTag {e q : Nat} (h : TablesKept b c) : TablesKept b (c.settleTag e q) := .ite h.modSch h

/-! Admission and sampling. -/

theorem judge {g : Barge} {i : Nat} {copies : List Desc} {reliable counted : Bool} (h : TablesKept b c) :
    TablesKept b (c.judge g i copies reliable counted).2 := by
  refine List.foldlRecOn copies _ (motive := fun x : Verdict × Chip => TablesKept b x.2)
    (h.when fun h => h.inc (besideTables_add (by decide))) fun x hx d _ => ?_
  have hmarked : ∀ {col e m}, TablesKept b ((x.2.red i d.outPort d.queue col e).2.when m fun c => c.inc (F.SWC_MARK i)) :=
    hx.red.when fun h => h.inc (besideTables_add (by decide))
  exact .snd_ite hmarked (.snd_ite hmarked hmarked)

theorem enqueue {g : Barge} {i : Nat} {copies : List Desc} {retain : Option Nat} (h : TablesKept b c) :
    TablesKept b (c.enqueue g i copies retain).2 := by
  unfold Chip.enqueue
  refine .each (.when (.rewritten (.inc (.charge (.modSwc h.draw rfl)) (besideTables_add (by decide)))) ?_) ?_
  · exact fun h => h.showRetained
  · exact fun h => h.becameBacklogged

theorem countRefused {i : Nat} {cause : RefuseCause} (h : TablesKept b c) : TablesKept b (c.countRefused i cause) := by
  fun_cases Chip.countRefused
  all_goals exact h.inc (besideTables_add (by decide))

theorem sampleRecord {n : Fin 16} {x : SamplePoint} (h : TablesKept b c) : TablesKept b (c.sampleRecord n x) := by
  fun_cases Chip.sampleRecord
  · exact (((h.draw.of_eq ‹_›).draw.of_eq ‹_›).judge.of_eq ‹_›).enqueue.modSwc rfl
  · have hjudged := ((h.draw.of_eq ‹_›).draw.of_eq ‹_›).judge.of_eq ‹_›
    refine .modSwc (.flag (.inc ?_ (by decide)) (by decide)) rfl
    dsimp +zetaDelta only
    split
    all_goals exact hjudged.inc (by decide)

theorem sample {x : SamplePoint} (h : TablesKept b c) : TablesKept b (c.sample x) :=
  h.each fun h => .ite h (.ite (.ite h.draw16.sampleRecord h.draw16) (.ite (h.modSwc rfl).sampleRecord (h.modSwc rfl)))

theorem sampleAt {x : Option SamplePoint} (h : TablesKept b c) : TablesKept b (c.sampleAt x) := by
  cases x
  exacts [h, h.sample]

theorem dropAt {f : Field} {g : Barge} {i cause : Nat} {tun route : Option (Nat × Nat)} (h : TablesKept b c) (hf : besideTables f) :
    TablesKept b (c.dropAt f g i cause tun route) := (h.inc hf).sample

theorem unretain {all : Bool} {sid : Nat} (h : TablesKept b c) : TablesKept b (c.unretain all sid) := by
  fun_cases Chip.unretain
  · exact h
  · exact ((h.modSwc rfl).each fun h => h.settleTag).sweepStore.showRetained.each fun h => h.sample

theorem dropHeld {t : Nat} (h : TablesKept b c) : TablesKept b (c.dropHeld t) := (h.modSwc rfl).each fun h => h.sample

theorem putOff {x : Later} (h : TablesKept b c) : TablesKept b (c.putOff x) := h.modSwc rfl

theorem admitTack {g : Barge} {e : Desc} (h : TablesKept b c) : TablesKept b (c.admitTack g e) := by
  fun_cases Chip.admitTack
  next hj _ =>
    have hjudged := h.judge.of_eq hj
    refine .sampleAt ?_
    dsimp +zetaDelta only
    split
    · exact hjudged.enqueue
    · exact hjudged.countRefused.sample

theorem sendTackTo {i : Nat} {g : Barge} (h : TablesKept b c) : TablesKept b (c.sendTackTo i g) := by
  fun_cases Chip.sendTackTo
  · exact h
  · exact h.dropAt (by decide)
  · exact h.putOff
  · exact h.dropAt (by decide)
  · exact h.admitTack
  · exact h.dropAt (by decide)
  · exact h.admitTack

theorem sendTack {t tseq status : Nat} (h : TablesKept b c) : TablesKept b (c.sendTack t tseq status) := h.sendTackTo

theorem resendOne {t sid : Nat} (h : TablesKept b c) : TablesKept b (c.resendOne t sid) := by
  have hsent : TablesKept b (c.inc F.FAB_TUN_RETX) := h.inc (by decide)
  fun_cases Chip.resendOne
  · exact h
  · exact h
  · exact h.putOff
  · exact hsent.dropAt (by decide)
  · exact (hsent.modSwc rfl).becameBacklogged
  · exact hsent.dropAt (by decide)
  · exact (hsent.modSwc rfl).becameBacklogged

theorem resendFrom {t tseq : Nat} (h : TablesKept b c) : TablesKept b (c.resendFrom t tseq) := h.each fun h => h.resendOne

/-! Alarms. -/

theorem alarmCount (h : TablesKept b c) : TablesKept b c.alarmCount := by
  have hshown : ∀ {x y}, TablesKept b ((c.put F.ALM_STATUS_PENDING x).put F.ALM_STATUS_HOLDS y) := (h.put (by decide)).put (by decide)
  fun_cases Chip.alarmCount
  · exact hshown.put (by decide)
  · exact hshown

theorem alarmWrite {i : Nat} {e : AlarmEntry} (h : TablesKept b c) : TablesKept b (c.alarmWrite i e) := (h.frame (by rfl)).alarmCount

theorem alarmLog {e : AlarmEntry} (h : TablesKept b c) : TablesKept b (c.alarmLog e).2 := by
  fun_cases Chip.alarmLog
  · exact h.alarmWrite
  · exact (h.alarmWrite.inc (by decide)).flag (by decide)
  · exact (h.inc (by decide)).flag (by decide)

theorem raise {r : AlarmReq} (h : TablesKept b c) : TablesKept b (c.raise r) := by
  have hraised : ∀ {x y}, TablesKept b ((((c.inc F.ALM_RAISED).flag F.ALM_INT_STATUS_RAISED).when x
      fun c => c.put F.GLB_FAULT_STATUS_CRIT_ALARM 1).when y fun c => c.inc F.ALM_SUPPRESSED) :=
    (((h.inc (by decide)).flag (by decide)).when fun h => h.put (by decide)).when fun h => h.inc (by decide)
  fun_cases Chip.raise
  · exact hraised.frame (by rfl)
  · next e => exact (((hraised.frame (by rfl)).alarmLog.of_eq e).frame (by rfl)).alarmCount
  · next e => exact (hraised.frame (by rfl)).alarmLog.of_eq e
  · next e => exact (hraised.frame (by rfl)).alarmLog.of_eq e

theorem raiseOwn {code unit detail : Nat} (h : TablesKept b c) : TablesKept b (c.raiseOwn code unit detail) := h.raise

/-! USB and windows: what a lost tunnel and a SYNC mean to the ports. -/

theorem sendMsg {port tunnel : Nat} {tspec : Word} {l : List Byte} (h : TablesKept b c) : TablesKept b (c.sendMsg port tunnel tspec l) := by
  unfold Chip.sendMsg Chip.offer
  exact h.modSwc rfl

theorem portEvent {x : Fin 2} {code : Nat} {l : List Byte} (h : TablesKept b c) : TablesKept b (c.portEvent x code l) := by
  fun_cases Chip.portEvent
  fun_cases Chip.physSend
  · exact h.sendMsg
  · exact h

theorem vportEmpty {i : Nat} (h : TablesKept b c) : TablesKept b (c.vportEmpty i) := by
  have hdropped : TablesKept b (c.dropVdev i) := by
    unfold Chip.dropVdev Chip.modVdev Chip.setVdev
    exact (h.add (by decide)).modUsb
  have hshown : ∀ {d}, TablesKept b d → TablesKept b d.showUsb := fun h => (h.put (by decide)).put (by decide)
  have hchange : ∀ {d bit}, TablesKept b d → TablesKept b (d.setChange i bit) :=
    fun h => (h.putBit (besideTables_add (by decide))).when fun h => h.modUsb.emit
  unfold Chip.vportEmpty
  refine hshown (hchange (.put (.put (.put (.put (.put (.put hdropped ?_) ?_) ?_) ?_) ?_) ?_))
  all_goals exact besideTables_add (by decide)

theorem usbTunnelLost {t : Nat} (h : TablesKept b c) : TablesKept b (c.usbTunnelLost t) :=
  (h.each fun h => h.vportEmpty.flag (by decide)).each fun h => h.when fun h => (h.put (besideTables_add (by decide))).modUsb

theorem usbSynced {t : Nat} (h : TablesKept b c) : TablesKept b (c.usbSynced t) :=
  h.each fun h => h.when fun h => h.modUsb.when fun h => h.portEvent

theorem usbPeerLost {t : Nat} (h : TablesKept b c) : TablesKept b (c.usbPeerLost t) := h.usbTunnelLost.when fun h => h.usbSynced

theorem dmaStopped {n : Nat} (h : TablesKept b c) : TablesKept b (c.dmaStopped n) := by
  unfold Chip.dmaStopped
  refine .put (.modWin (.put (.put (.put h ?_) ?_) ?_)) ?_
  all_goals exact besideTables_add (by decide)

theorem dmaCut {n : Nat} (h : TablesKept b c) : TablesKept b (c.dmaCut n) := by
  have hdone : ∀ {d done first last cmark err}, TablesKept b (c.dmaDone n d done first last cmark err) :=
    ((((h.emit).put (besideTables_add (by decide))).when fun h => h.put (besideTables_add (by decide))).modWin).put
      (besideTables_add (by decide))
  fun_cases Chip.dmaCut
  · exact h
  · exact hdone.modWin

theorem cutOpen {t : Nat} (h : TablesKept b c) : TablesKept b (c.cutOpen t) :=
  .ite h.modWin (h.each fun h => h.when fun h => h.dmaCut.when fun h => h.dmaStopped).modWin

end TablesKept

end Sys2Proof.Machine
end


section
/-! The tunnel engine's state of one tunnel (04 R136), and what TACKs, SYNCs and expiries make of it. -/

namespace Sys2Proof.Machine

open Sys2Proof.Safety

variable {c d : Chip} {t : Nat} {g : Tun → Tun} {b : Barge}

/-! The engine's state. -/

theorem tun_id (c : Chip) (t : Nat) : (c.tun t).id = t := by
  unfold Chip.tun
  cases h : c.fab.tuns.find? fun x => x.id == t with
  | none => rfl
  | some x => simpa using List.find?_some h

theorem tun_of_fab (h : d.fab = c.fab) : d.tun t = c.tun t := by
  unfold Chip.tun
  rw [h]

theorem tun_setTun (c : Chip) (x : Tun) : (c.setTun x).tun x.id = x := by
  have hbelow : (c.fab.tuns.filter fun y => y.id < x.id).find? (fun y => y.id == x.id) = none := by
    rw [List.find?_eq_none]
    intro y hy
    have hlt := (List.mem_filter.mp hy).2
    simp only [decide_eq_true_eq] at hlt
    simp only [beq_iff_eq]
    omega
  have hfound : (c.setTun x).fab.tuns.find? (fun y => y.id == x.id) = some x := by
    show ((c.fab.tuns.filter fun y => y.id < x.id) ++ x :: _).find? (fun y => y.id == x.id) = some x
    rw [List.find?_append, hbelow]
    simp
  unfold Chip.tun
  rw [hfound]
  rfl

/-- A change of a tunnel's state that leaves its number shows. -/
theorem tun_modTun (hid : ∀ x : Tun, (g x).id = x.id) : (c.modTun t g).tun t = g (c.tun t) := by
  have h := tun_setTun c (g (c.tun t))
  rwa [hid, tun_id] at h

/-- A tunnel's state words lie among the tables. -/
theorem tstate0_between (ht : t < 4096) (lo w : Nat) :
    0x4_0000 ≤ (⟨0x4C000 + 8 * t, lo, w⟩ : Field).off ∧ (⟨0x4C000 + 8 * t, lo, w⟩ : Field).off < fabCounters := by
  simp only [fabCounters]
  omega

theorem tstate1_between (ht : t < 4096) (lo w : Nat) :
    0x4_0000 ≤ (⟨0x4C004 + 8 * t, lo, w⟩ : Field).off ∧ (⟨0x4C004 + 8 * t, lo, w⟩ : Field).off < fabCounters := by
  simp only [fabCounters]
  omega

theorem apart_of_off {f g : Field} (h : f.off ≠ g.off) : f.apart g = true := by simp [Field.apart, h]

theorem apart_of_bits {f g : Field} (h : f.lo + f.width ≤ g.lo ∨ g.lo + g.width ≤ f.lo) : f.apart g = true := by
  rcases h with h | h
  all_goals simp [Field.apart, h]

theorem apart_of_below {f : Field} (h : f.off < fabCounters) : f.apart F.CNT_OVF_PC = true :=
  apart_of_off (Nat.ne_of_lt (Nat.lt_trans h (by decide)))

/-! What a TACK's status asks for (R137, R138, R141). -/

section
variable {i : Nat} {q : BitVec 16} (hvalid : (c.tunEntry b.hdr.tunnel.toNat).valid = true)
  (hpeer : (c.tunEntry b.hdr.tunnel.toNat).peer = b.hdr.src.toNat) (hadapter : (c.tunEntry b.hdr.tunnel.toNat).adapter ≠ 8)
include hvalid hpeer hadapter

theorem tackIn_ack (hstatus : b.hdr.tspec.toNat / 2 ^ 28 = 0) :
    c.tackIn b i = if (c.tunEntry b.hdr.tunnel.toNat).mode = 2 && c.outstanding b.hdr.tunnel.toNat b.hdr.tseq.toNat
      then c.tunnelAckUpTo b.hdr.tunnel.toNat b.hdr.tseq.toNat else c.inc F.FAB_TUN_LATE_ACK := by
  unfold Chip.tackIn
  simp only [hstatus]
  simp [hvalid, hpeer, hadapter]

theorem tackIn_outOfWindow (hmode : (c.tunEntry b.hdr.tunnel.toNat).mode = 2) (hstatus : b.hdr.tspec.toNat / 2 ^ 28 = 3) :
    c.tackIn b i = c.put (F.FAB_TSTATE1_TX_SYNCED b.hdr.tunnel.toNat) 0 := by
  unfold Chip.tackIn
  simp only [hstatus]
  simp [hvalid, hpeer, hadapter, hmode]

theorem tackIn_sync (hstatus : b.hdr.tspec.toNat / 2 ^ 28 = 4) :
    c.tackIn b i = c.syncIn b.hdr.tunnel.toNat b.hdr.tseq.toNat (c.tunEntry b.hdr.tunnel.toNat) := by
  unfold Chip.tackIn
  simp only [hstatus]
  simp [hvalid, hpeer, hadapter]

end

/-- A TACK of another hub than the tunnel's peer is dropped (R137). -/
theorem tackIn_stranger {i : Nat} (hpeer : (c.tunEntry b.hdr.tunnel.toNat).peer ≠ b.hdr.src.toNat)
    (hmcast : (c.tunEntry b.hdr.tunnel.toNat).mcast = false) :
    c.tackIn b i = c.dropAt F.FAB_NO_TUNNEL b i 7 (some (b.hdr.tunnel.toNat, (c.tunEntry b.hdr.tunnel.toNat).gen)) none := by
  simp [Chip.tackIn, hpeer, hmcast]

end Sys2Proof.Machine
end


section
/-! Admission where no sampler is on, RED is off and the port's reserve has room (05 R171, R179, R189): the barge is queued as it is. -/

namespace Sys2Proof.Machine

open Sys2Proof.Safety

/-- A walk whose every step changes nothing changes nothing. -/
theorem each_id {α : Type} {l : List α} {f : α → Chip → Chip} {c : Chip} (hf : ∀ a, f a c = c) : c.each l f = c := by
  unfold Chip.each
  induction l with
  | nil => rfl
  | cons a l ih => rw [List.foldl_cons, hf, ih]

/-- With every sampler off a sample point changes nothing. -/
theorem sample_of_noSampling {c : Chip} (h : noSampling c) (x : SamplePoint) : c.sample x = c :=
  each_id fun n => by simp [h n]

theorem sampleAt_of_noSampling {c : Chip} (h : noSampling c) (x : Option SamplePoint) : c.sampleAt x = c := by
  cases x
  exacts [rfl, sample_of_noSampling h _]

/-- A field that no sampler's enable shares. -/
abbrev besideSamplers (f : Field) : Prop := f.off < 0x6_0140 ∨ 0x6_01C0 ≤ f.off

/-- The samplers' settings are as they were, and so are the stored barges and the queues but for what admission changes. -/
structure SamplersKept (c d : Chip) : Prop where
  enable : ∀ n : Fin 16, d.on (F.SWC_SMP_CFG_EN n) = c.on (F.SWC_SMP_CFG_EN n)
  swc : d.swc = c.swc

namespace SamplersKept

variable {b c d : Chip}

theorem refl : SamplersKept c c := ⟨fun _ => rfl, rfl⟩

theorem noSampling (h : SamplersKept c d) (hoff : Safety.noSampling c) : Safety.noSampling d := fun n => (h.enable n).trans (hoff n)

theorem when {x : Bool} {f : Chip → Chip} (h : SamplersKept b c) (hf : ∀ {c}, SamplersKept b c → SamplersKept b (f c)) :
    SamplersKept b (c.when x f) := by
  cases x
  exacts [h, hf h]

theorem ite {p : Prop} [Decidable p] (h : SamplersKept b c) (hd : SamplersKept b d) : SamplersKept b (if p then c else d) := by
  split
  exacts [h, hd]

theorem each {α : Type} {l : List α} {f : α → Chip → Chip} (h : SamplersKept b c)
    (hf : ∀ {a c}, SamplersKept b c → SamplersKept b (f a c)) : SamplersKept b (c.each l f) :=
  chip_each_keeps (SamplersKept b) l f c h fun _ _ hd => hf hd

theorem put {f : Field} {x : Nat} (h : SamplersKept b c) (hf : besideSamplers f) : SamplersKept b (c.put f x) := by
  refine ⟨fun n => ?_, h.swc⟩
  have hword : (c.put f x).regs.word (F.SWC_SMP_CFG_EN n).off = c.regs.word (F.SWC_SMP_CFG_EN n).off :=
    word_put _ _ _ _ fun he => by
      have hn := n.isLt
      simp only [F.SWC_SMP_CFG_EN] at he
      omega
  exact (congrArg (fun w => wordField w 0 1 == 1) hword).trans (h.enable n)

theorem modSch {f : Sch → Sch} (h : SamplersKept b c) : SamplersKept b (c.modSch f) := ⟨h.enable, h.swc⟩

theorem flag {f : Field} (h : SamplersKept b c) (hf : besideSamplers f) : SamplersKept b (c.flag f) :=
  ⟨(h.put (x := 1) hf).enable, h.swc⟩

theorem showPool (h : SamplersKept b c) : SamplersKept b c.showPool :=
  ((h.put (f := F.SWC_POOL_SHARED_SIZE) (by decide)).put (f := F.SWC_POOL_SHARED_FREE) (by decide)).when fun h => h.flag (by decide)

theorem rewritten {p : Word → Bool} (h : SamplersKept b c) : SamplersKept b (c.rewritten p) :=
  h.when fun h => h.each fun h => h.when fun h => h.put (.inr (Nat.le_add_right_of_le (by decide)))

theorem becameBacklogged {e q : Nat} (h : SamplersKept b c) : SamplersKept b (c.becameBacklogged e q) := by
  have htag : SamplersKept b (c.retag e q) := by
    fun_cases Chip.retag
    · exact h
    · exact h.modSch
    · exact h.modSch.modSch
  exact .ite h htag

theorem showRetained {p : Nat} (hp : p ≤ 9) (h : SamplersKept b c) : SamplersKept b (c.showRetained p) := by
  refine (h.put (.inl ?_)).put (.inl ?_)
  all_goals simp only [F.SWC_RETAIN_RETAINED, F.SWC_RETAIN_FULL]; omega

end SamplersKept

/-- A drop at lookup with every sampler off counts, and that is all. -/
theorem dropAt_of_noSampling {c : Chip} {f : Field} {b : Barge} {i cause : Nat} {tun route : Option (Nat × Nat)} (hf : besideSamplers f)
    (h : noSampling c) : c.dropAt f b i cause tun route = c.inc f := by
  unfold Chip.dropAt Chip.sampleDrop
  exact sample_of_noSampling ((SamplersKept.refl.put hf).noSampling h) _

/-! One barge with one target. -/

variable {c : Chip} {b : Barge} {d : Desc} {i : Nat}

/-- The core as the decision leaves it: the excess barge counted, the average updated. -/
def Chip.judged (c : Chip) (b : Barge) (i : Nat) (d : Desc) (counted : Bool) : Chip :=
  let c := c.when (c.ctrlExcess b i && !counted) fun c => c.inc (F.SWC_CTRL_OVER i)
  let a := redAverage (c.get ⟨F.SWC_RED_AVG.off, 4 * c.redProfile d.queue, 4⟩) (c.swc.queueDepth d.outPort d.queue) (c.swc.average d.outPort d.queue)
  c.modSwc fun w => { w with avg := (w.avg.filter fun x => x.1 != (d.outPort, d.queue)) ++ [((d.outPort, d.queue), a)] }

/-- With room in the reserve and RED off the one copy is admitted. -/
theorem judge_of_room {reliable counted : Bool} (hroom : roomFor c i (bargeCells b)) :
    c.judge b i [d] reliable counted = ({ ok := [d], bad := [] }, c.judged b i d counted) := by
  obtain ⟨hred, hreserve⟩ := hroom
  have hover : ∀ {x : Bool} {g : Field}, g.off < (F.SWC_CTRL_OVER i).off →
      (c.when x fun c => c.inc (F.SWC_CTRL_OVER i)).get g = c.get g := by
    intro x g hg
    cases x
    · rfl
    · exact chip_get_put_apart _ _ _ _ rfl (by simp [Field.apart, Nat.ne_of_lt hg])
  have hin : ∀ x, (c.when x fun c => c.inc (F.SWC_CTRL_OVER i)).get (F.SWC_OCC_IN_USE i) + bargeCells b ≤
      (c.when x fun c => c.inc (F.SWC_CTRL_OVER i)).get (F.SWC_BASIN_RESERVE i) := by
    intro x
    rw [hover, hover]
    · exact hreserve
    all_goals simp only [F.SWC_CTRL_OVER, F.SWC_OCC_IN_USE, F.SWC_BASIN_RESERVE]; omega
  have hoff : ∀ x, (c.when x fun c => c.inc (F.SWC_CTRL_OVER i)).on F.SWC_CTL_RED_EN = false := by
    intro x
    exact (congrArg (· == 1) (hover (by simp only [F.SWC_CTRL_OVER, F.SWC_CTL_RED_EN]; omega))).trans hred
  have hpass : ∀ x e q colour skip, (c.when x fun c => c.inc (F.SWC_CTRL_OVER i)).red i e q colour skip = (.pass, _) := fun x e q colour skip =>
    if_pos (by simp [show ∀ f, ((c.when x fun c => c.inc (F.SWC_CTRL_OVER i)).modSwc f).on F.SWC_CTL_RED_EN = false from fun f => hoff x])
  unfold Chip.judge
  simp only [List.foldl_cons, List.foldl_nil, hpass, hin, decide_true, Bool.true_or, Bool.false_and, chip_when_false, if_true,
    Bool.false_eq_true, if_false, List.nil_append]
  rfl

/-- The decision leaves the queues and the samplers. -/
theorem swc_judged (counted : Bool) : ∃ a, (c.judged b i d counted).swc = { c.swc with avg := a } := by
  unfold Chip.judged Chip.when
  split
  all_goals exact ⟨_, rfl⟩

theorem noSampling_judged {counted : Bool} (h : noSampling c) : noSampling (c.judged b i d counted) := by
  have hover : SamplersKept c (c.when (c.ctrlExcess b i && !counted) fun c => c.inc (F.SWC_CTRL_OVER i)) :=
    SamplersKept.refl.when fun h => h.put (.inr (Nat.le_add_right_of_le (by decide)))
  exact hover.noSampling h

/-- A barge that is stored joins its queue; the samplers stand as they stood. -/
theorem enqueue_joins (hi : i ≤ 9) (retain : Option Nat) (h : noSampling c) :
    (c.enqueue b i [d] retain).2.swc.voqs = c.swc.voqs ++ [{ d with sid := c.swc.nextSid }] ∧
      noSampling (c.enqueue b i [d] retain).2 := by
  have hcharged : ∀ {c d : Chip}, SamplersKept c d → SamplersKept c (d.charge i (bargeCells b)) := fun h =>
    ((h.put (f := F.SWC_OCC_IN_USE i) (.inl (by simp only [F.SWC_OCC_IN_USE]; omega))).put (f := F.SWC_OCC_PEAK i)
      (.inl (by simp only [F.SWC_OCC_PEAK]; omega))).showPool
  have hkept : ∀ {f : Swc → Swc} {k : Nat} {p : Word → Bool}, SamplersKept ((c.draw k).2.modSwc f)
      (((((((c.draw k).2.modSwc f).charge i (bargeCells b)).inc (F.SWC_ADMIT i)).rewritten p).when retain.isSome
        fun c => c.showRetained i).becameBacklogged d.outPort d.queue) := fun {f k p} =>
    .becameBacklogged (.when (.rewritten (.put (hcharged .refl) (.inr (Nat.le_add_right_of_le (by decide))))) (.showRetained hi))
  exact ⟨congrArg Swc.voqs (hkept (k := 24_576)).swc, (hkept (k := 24_576)).noSampling h⟩

/-- A TACK that the hub makes joins its queue (04 R148). -/
theorem admitTack_of_room (hi : d.inPort ≤ 9) (hroom : roomFor c d.inPort (bargeCells b)) (h : noSampling c) :
    (c.admitTack b d).swc.voqs = c.swc.voqs ++ [{ d with sid := c.swc.nextSid }] := by
  obtain ⟨hqueued, hquiet⟩ := enqueue_joins (b := b) (d := d) hi none (noSampling_judged (b := b) (d := d) (counted := false) h)
  obtain ⟨a, hswc⟩ := swc_judged (c := c) (b := b) (d := d) (i := d.inPort) false
  unfold Chip.admitTack
  simp only [judge_of_room hroom]
  rw [sampleAt_of_noSampling hquiet, hqueued, hswc]

end Sys2Proof.Machine
end


section
/-! The tunnel engine's commands (04 R136 to R142): O31. -/

namespace Sys2Proof.Proofs

open Sys2Proof.Machine Sys2Proof.Safety

variable {s : State} {c : Chip} {b : Barge} {t : Nat}

theorem after_fab (d : Chip) : (s.after d).hub.chip.fab = d.fab := settled_fab _ _
theorem after_swc (d : Chip) : (s.after d).hub.chip.swc = d.swc := settled_swc _ _

/-- Reads of the forwarding block after a command of the core. -/
theorem get_after_below (d : Chip) {f : Field} (h : f.off < fabCounters) : (s.after d).hub.chip.get f = d.get f :=
  get_after s d (apart_of_below h)

theorem tun_after (d : Chip) : (s.after d).hub.chip.tun t = d.tun t := tun_of_fab (settled_fab _ _)

theorem get_modTun {g : Tun → Tun} (f : Field) : (c.modTun t g).get f = c.get f := rfl

theorem tun_put {f : Field} {x : Nat} : (c.put f x).tun t = c.tun t := rfl

/-- A TACK goes to the tunnel engine. -/
theorem tackRx_runs {Q : State → Prop} (htype : b.hdr.type.toNat = typeTack) (hQ : Q (s.after (s.hub.chip.tackIn b 0))) :
    ∃ u, exec (.tackRx b) s = .next u ∧ coreOnly s u ∧ Q u :=
  ⟨_, onChip_eq_after (if_pos (by simp [htype])), coreOnly_after _ _, hQ⟩

/-- What an acknowledgement of an outstanding barge leaves (04 R141). -/
theorem tunnelAckUpTo_of_outstanding {q : Nat} (h : c.outstanding t q = true) :
    (c.tunnelAckUpTo t q).get (F.FAB_TSTATE0_TX_OLDEST t) = (q + 1) % 65536 ∧ (c.tunnelAckUpTo t q).get (F.FAB_TSTATE1_RETRIES t) = 0 ∧
      ((c.tunnelAckUpTo t q).tun t).outs = (c.tun t).outs.filter fun o =>
        (q + 65536 - c.get (F.FAB_TSTATE0_TX_OLDEST t)) % 65536 < (o.1 + 65536 - c.get (F.FAB_TSTATE0_TX_OLDEST t)) % 65536 := by
  have hwindow := of_decide_eq_true h
  have hkept : ∀ l : List (Nat × Nat), TablesKept c (c.each l fun o c => c.unretain false o.2) := fun l => TablesKept.refl.each fun h => h.unretain
  unfold Chip.tunnelAckUpTo
  simp only [hwindow, if_true]
  refine ⟨?_, ?_, ?_⟩
  · rw [chip_get_put_apart _ _ _ _ rfl (apart_of_off (by simp only [F.FAB_TSTATE0_TX_OLDEST, F.FAB_TSTATE1_RETRIES]; omega)), chip_get_put _ _ _ rfl]
    rfl
  · exact (chip_get_put _ _ _ rfl).trans rfl
  · rw [tun_put, tun_put, tun_modTun, tun_of_fab (hkept _).fab]
    exact fun _ => rfl

theorem tackRx_acks (htunnel : t = b.hdr.tunnel.toNat) (htype : b.hdr.type.toNat = typeTack)
    (hvalid : (s.hub.chip.tunEntry t).valid = true) (hpeer : (s.hub.chip.tunEntry t).peer = b.hdr.src.toNat)
    (hadapter : (s.hub.chip.tunEntry t).adapter ≠ 8) (hmode : (s.hub.chip.tunEntry t).mode = 2)
    (hstatus : b.hdr.tspec.toNat / 2 ^ 28 = 0) (hout : s.hub.chip.outstanding t b.hdr.tseq.toNat = true) :
    ∃ u, exec (.tackRx b) s = .next u ∧ coreOnly s u ∧
      u.hub.chip.get (F.FAB_TSTATE0_TX_OLDEST t) = (b.hdr.tseq.toNat + 1) % 65536 ∧ u.hub.chip.get (F.FAB_TSTATE1_RETRIES t) = 0 ∧
      (u.hub.chip.tun t).outs = (s.hub.chip.tun t).outs.filter fun o =>
        (b.hdr.tseq.toNat + 65536 - s.hub.chip.get (F.FAB_TSTATE0_TX_OLDEST t)) % 65536 <
          (o.1 + 65536 - s.hub.chip.get (F.FAB_TSTATE0_TX_OLDEST t)) % 65536 := by
  subst htunnel
  have ht := b.hdr.tunnel.isLt
  refine tackRx_runs htype ?_
  rw [tackIn_ack hvalid hpeer hadapter hstatus, if_pos (by simp [hmode, hout])] 
  obtain ⟨holdest, hretries, houts⟩ := tunnelAckUpTo_of_outstanding hout
  exact ⟨(get_after_below _ (tstate0_between ht _ _).2).trans holdest, (get_after_below _ (tstate1_between ht _ _).2).trans hretries,
    (congrArg Tun.outs (tun_after _)).trans houts⟩

/-- An acknowledgement of nothing outstanding is counted. -/
theorem tackRx_late (htunnel : t = b.hdr.tunnel.toNat) (htype : b.hdr.type.toNat = typeTack)
    (hvalid : (s.hub.chip.tunEntry t).valid = true) (hpeer : (s.hub.chip.tunEntry t).peer = b.hdr.src.toNat)
    (hadapter : (s.hub.chip.tunEntry t).adapter ≠ 8) (hstatus : b.hdr.tspec.toNat / 2 ^ 28 = 0)
    (hlate : (s.hub.chip.tunEntry t).mode ≠ 2 ∨ s.hub.chip.outstanding t b.hdr.tseq.toNat = false) :
    ∃ u, exec (.tackRx b) s = .next u ∧ coreOnly s u ∧ u.hub.chip.fab = s.hub.chip.fab ∧ u.hub.chip.swc = s.hub.chip.swc ∧
      u.hub.chip.get F.FAB_TUN_LATE_ACK = (s.hub.chip.get F.FAB_TUN_LATE_ACK + 1) % 2 ^ 32 ∧
      wordsKept [F.FAB_TUN_LATE_ACK.off] s u := by
  subst htunnel
  have hcond : ¬(((s.hub.chip.tunEntry b.hdr.tunnel.toNat).mode = 2 &&
      s.hub.chip.outstanding b.hdr.tunnel.toNat b.hdr.tseq.toNat) = true) := by
    rcases hlate with hmode | hout
    · simp [hmode]
    · simp [hout]
  refine tackRx_runs htype ?_
  rw [tackIn_ack hvalid hpeer hadapter hstatus, if_neg hcond]
  refine ⟨settled_fab _ _, settled_swc _ _, ?_, wordsKept_after (Chip.WordsKept.refl.put (by simp))⟩
  exact (get_after _ _ (by decide)).trans (chip_get_put _ _ _ rfl)

/-- OUT_OF_WINDOW ends the sender's synchronisation (04 R140). -/
theorem tackRx_unsyncs (htunnel : t = b.hdr.tunnel.toNat) (htype : b.hdr.type.toNat = typeTack)
    (hvalid : (s.hub.chip.tunEntry t).valid = true) (hpeer : (s.hub.chip.tunEntry t).peer = b.hdr.src.toNat)
    (hadapter : (s.hub.chip.tunEntry t).adapter ≠ 8) (hmode : (s.hub.chip.tunEntry t).mode = 2)
    (hstatus : b.hdr.tspec.toNat / 2 ^ 28 = 3) :
    ∃ u, exec (.tackRx b) s = .next u ∧ coreOnly s u ∧ u.hub.chip.get (F.FAB_TSTATE1_TX_SYNCED t) = 0 ∧
      u.hub.chip.fab = s.hub.chip.fab ∧ u.hub.chip.swc = s.hub.chip.swc ∧ wordsKept [(F.FAB_TSTATE1 t).off] s u := by
  subst htunnel
  refine tackRx_runs htype ?_
  rw [tackIn_outOfWindow hvalid hpeer hadapter hmode hstatus]
  refine ⟨?_, (after_fab _).trans (chip_put_fab _ _ _), (after_swc _).trans (chip_put_swc _ _ _),
    wordsKept_after (Chip.WordsKept.refl.put (List.mem_singleton_self _))⟩
  exact (get_after_below _ (tstate1_between b.hdr.tunnel.isLt _ _).2).trans (get_put_of_lt rfl Nat.two_pos)

/-- A TACK from a hub that is not the peer is dropped and counted (04 R137). -/
theorem tackRx_drops (htunnel : t = b.hdr.tunnel.toNat) (htype : b.hdr.type.toNat = typeTack)
    (hpeer : (s.hub.chip.tunEntry t).peer ≠ b.hdr.src.toNat) (hmcast : (s.hub.chip.tunEntry t).mcast = false)
    (hquiet : noSampling s.hub.chip) :
    ∃ u, exec (.tackRx b) s = .next u ∧ registersOnly s u ∧
      u.hub.chip.get F.FAB_NO_TUNNEL = (s.hub.chip.get F.FAB_NO_TUNNEL + 1) % 2 ^ 32 ∧ wordsKept [F.FAB_NO_TUNNEL.off] s u := by
  subst htunnel
  have hdrop : s.hub.chip.tackIn b 0 = s.hub.chip.inc F.FAB_NO_TUNNEL := by
    rw [tackIn_stranger hpeer hmcast]
    exact dropAt_of_noSampling (by decide) hquiet
  refine onChip_runs_registers ((if_pos (by simp [htype])).trans hdrop) rfl ⟨?_, wordsKept_after (Chip.WordsKept.refl.put (by simp))⟩
  exact (get_after _ _ (by decide)).trans (chip_get_put _ _ _ rfl)

/-! SYNCs (04 R138). -/

/-- A repeated SYNC tells an ORDERED receiver nothing new. -/
theorem syncIn_repeated {q : Nat} {e : TunEntry} (hmode : e.mode = 1) (hsynced : c.on (F.FAB_TSTATE1_RX_SYNCED t) = true)
    (hexpect : c.get (F.FAB_TSTATE1_RX_EXPECT t) = q) : c.syncIn t q e = c := by
  unfold Chip.syncIn
  simp [hmode, hsynced, hexpect]

/-- After a SYNC an ORDERED receiver expects its TSEQ and is synchronised. -/
theorem syncIn_ordered {q : Nat} {e : TunEntry} (ht : t < 4096) (hq : q < 65536) (hmode : e.mode = 1) :
    (c.syncIn t q e).get (F.FAB_TSTATE1_RX_EXPECT t) = q ∧ (c.syncIn t q e).get (F.FAB_TSTATE1_RX_SYNCED t) = 1 := by
  by_cases hrepeated : c.on (F.FAB_TSTATE1_RX_SYNCED t) = true ∧ c.get (F.FAB_TSTATE1_RX_EXPECT t) = q
  case pos =>
    rw [syncIn_repeated hmode hrepeated.1 hrepeated.2]
    exact ⟨hrepeated.2, on_iff.mp hrepeated.1⟩
  case neg =>
    have hnew : ¬((decide (e.mode = 1) && c.on (F.FAB_TSTATE1_RX_SYNCED t) && c.get (F.FAB_TSTATE1_RX_EXPECT t) == q) = true) := by
      simpa [hmode] using hrepeated
    have hunanswered : ¬e.mode = 2 := by simp [hmode]
    have hkept : ∀ {d : Chip} {x : Bool}, TablesKept d ((d.when x fun c => c.usbPeerLost t).cutOpen t) := fun {d x} =>
      (TablesKept.refl.when fun h => h.usbPeerLost).cutOpen
    unfold Chip.syncIn
    simp only [if_neg hnew, if_neg hunanswered]
    constructor
    · refine ((hkept.get (tstate1_between ht _ _).1 (tstate1_between ht _ _).2).trans (get_modTun _)).trans ?_
      refine (chip_get_put_apart _ (F.FAB_TSTATE1_RX_SYNCED t) (F.FAB_TSTATE1_RX_EXPECT t) _ rfl ?_).trans (get_put_of_lt rfl hq)
      exact apart_of_bits (.inl (Nat.le_refl 16))
    · refine ((hkept.get (tstate1_between ht _ _).1 (tstate1_between ht _ _).2).trans (get_modTun _)).trans ?_
      exact get_put_of_lt rfl Nat.one_lt_two

theorem syncRx_takes (htunnel : t = b.hdr.tunnel.toNat) (htype : b.hdr.type.toNat = typeTack)
    (hvalid : (s.hub.chip.tunEntry t).valid = true) (hpeer : (s.hub.chip.tunEntry t).peer = b.hdr.src.toNat)
    (hadapter : (s.hub.chip.tunEntry t).adapter ≠ 8) (hmode : (s.hub.chip.tunEntry t).mode = 1)
    (hstatus : b.hdr.tspec.toNat / 2 ^ 28 = 4) :
    ∃ u, exec (.syncRx b) s = .next u ∧ coreOnly s u ∧ u.hub.chip.get (F.FAB_TSTATE1_RX_EXPECT t) = b.hdr.tseq.toNat ∧
      u.hub.chip.get (F.FAB_TSTATE1_RX_SYNCED t) = 1 ∧
      (s.hub.chip.on (F.FAB_TSTATE1_RX_SYNCED t) = true → s.hub.chip.get (F.FAB_TSTATE1_RX_EXPECT t) = b.hdr.tseq.toNat →
        registersOnly s u ∧ wordsKept [] s u) := by
  subst htunnel
  have ht := b.hdr.tunnel.isLt
  have hcond : (b.hdr.type.toNat == typeTack && b.hdr.tspec.toNat / 2 ^ 28 == 4) = true := by rw [htype, hstatus]; rfl
  refine ⟨_, onChip_eq_after (if_pos hcond), coreOnly_after _ _, ?_⟩
  rw [show (fun c : Chip => c.tackIn b 0) s.hub.chip = _ from tackIn_sync hvalid hpeer hadapter hstatus]
  obtain ⟨hexpect, hsynced⟩ := syncIn_ordered (c := s.hub.chip) ht b.hdr.tseq.isLt hmode
  refine ⟨(get_after_below _ (tstate1_between ht _ _).2).trans hexpect, (get_after_below _ (tstate1_between ht _ _).2).trans hsynced,
    fun hon heq => ?_⟩
  rw [syncIn_repeated hmode hon heq]
  exact ⟨registersOnly_after rfl, wordsKept_after Chip.WordsKept.refl⟩

/-- What the engine keeps of a SYNC that it sends. -/
theorem tun_sendSync (c : Chip) (t : Nat) : (c.sendSync t).tun t = { c.tun t with
    syncSeq := some (if (c.tunEntry t).mode = 2 then c.get (F.FAB_TSTATE0_TX_OLDEST t) else c.get (F.FAB_TSTATE0_TX_NEXT t))
    syncs := (c.tun t).syncs + 1 } := by
  unfold Chip.sendSync
  rw [tun_modTun, tun_of_fab (TablesKept.refl.sendTack).fab]
  exact fun _ => rfl

theorem syncTx_ordered {n : BitVec 12} (hvalid : (s.hub.chip.tunEntry n.toNat).valid = true) (hmode : (s.hub.chip.tunEntry n.toNat).mode = 1)
    (hunsynced : s.hub.chip.on (F.FAB_TSTATE1_TX_SYNCED n.toNat) = false) :
    ∃ u, exec (.syncTx n) s = .next u ∧ coreOnly s u ∧ u.hub.chip.get (F.FAB_TSTATE1_TX_SYNCED n.toNat) = 1 ∧
      (u.hub.chip.tun n.toNat).syncs = 1 ∧
      (u.hub.chip.tun n.toNat).syncSeq = some (s.hub.chip.get (F.FAB_TSTATE0_TX_NEXT n.toNat)) := by
  have hsent : s.hub.chip.syncTx n.toNat = (Chip.sendSync (s.hub.chip.modTun n.toNat fun x => { x with syncs := 0 }) n.toNat).put
      (F.FAB_TSTATE1_TX_SYNCED n.toNat) 1 := by
    unfold Chip.syncTx
    simp [hvalid, hmode, hunsynced]
  have htun := tun_sendSync (s.hub.chip.modTun n.toNat fun x => { x with syncs := 0 }) n.toNat
  have hentry : ((s.hub.chip.modTun n.toNat fun x => { x with syncs := 0 }).tunEntry n.toNat).mode = 1 := hmode
  have hcleared : (s.hub.chip.modTun n.toNat fun x => { x with syncs := 0 }).tun n.toNat = { s.hub.chip.tun n.toNat with syncs := 0 } :=
    tun_modTun fun _ => rfl
  rw [hentry, hcleared] at htun
  refine ⟨_, onChip_eq_after hsent, coreOnly_after _ _, ?_, ?_, ?_⟩
  · exact (get_after_below _ (tstate1_between n.isLt _ _).2).trans (get_put_of_lt rfl Nat.one_lt_two)
  · rw [tun_after, tun_put, htun]
  · rw [tun_after, tun_put, htun]
    rfl

theorem syncRepeat_reliable {n : BitVec 12} (hvalid : (s.hub.chip.tunEntry n.toNat).valid = true)
    (hmode : (s.hub.chip.tunEntry n.toNat).mode = 2) (hunsynced : s.hub.chip.on (F.FAB_TSTATE1_TX_SYNCED n.toNat) = false) :
    ∃ u, exec (.syncRepeat n) s = .next u ∧ coreOnly s u ∧ (u.hub.chip.tun n.toNat).syncs = (s.hub.chip.tun n.toNat).syncs + 1 ∧
      (u.hub.chip.tun n.toNat).syncSeq = some (s.hub.chip.get (F.FAB_TSTATE0_TX_OLDEST n.toNat)) := by
  have hsent : s.hub.chip.syncRepeat n.toNat = s.hub.chip.sendSync n.toNat := by
    unfold Chip.syncRepeat
    simp [hvalid, hmode, hunsynced]
  refine ⟨_, onChip_eq_after hsent, coreOnly_after _ _, ?_, ?_⟩
  · rw [tun_after, tun_sendSync]
  · rw [tun_after, tun_sendSync, hmode]
    rfl

/-! A delayed acknowledgement (04 R140) toward a tunnel of the own hub. -/

theorem get_lt (c : Chip) (f : Field) : c.get f < 2 ^ f.width := wordField_lt _ _ _

/-- A valid tunnel's ADAPTER is a local port. -/
theorem adapter_of_valid (h : (c.tunEntry t).valid = true) : (c.tunEntry t).adapter ≤ 9 := by
  simp only [Chip.tunEntry, Bool.and_eq_true, decide_eq_true_eq] at h
  exact h.1.1.1.2

theorem idValid_of_ownId {x : Nat} (h : c.ownId = some x) : c.on F.FAB_ID_ID_VALID = true := by
  unfold Chip.ownId at h
  split at h
  · assumption
  · exact absurd h (by simp)

/-- A TACK for a tunnel of this hub queues toward that tunnel's adapter (04 R138, R148). -/
theorem sendTackTo_own {i : Nat} (hisolated : c.on F.FAB_STATUS_ISOLATED = false) (hown : c.ownId = some b.hdr.dst.toNat)
    (hheld : c.heldAt i = none) (hvalid : (c.tunEntry b.hdr.tunnel.toNat).valid = true)
    (hadapter : (c.tunEntry b.hdr.tunnel.toNat).adapter ≠ 8) :
    c.sendTackTo i b = c.admitTack b { c.desc i (c.tunEntry b.hdr.tunnel.toNat).adapter b.hdr.queue.toNat 63 with
      tun := some (b.hdr.tunnel.toNat, (c.tunEntry b.hdr.tunnel.toNat).gen) } := by
  unfold Chip.sendTackTo
  simp [hisolated, hown, hheld, hvalid, hadapter, idValid_of_ownId hown]

/-- The ACK that a tunnel of the own hub sends to its peer here. -/
theorem sendTack_own {e : TunEntry} (he : e = c.tunEntry t) (hisolated : c.on F.FAB_STATUS_ISOLATED = false) (hvalid : e.valid = true)
    (hown : c.ownId = some e.peer) (hpeer : (c.tunEntry e.peerTun).valid = true) (hadapter : (c.tunEntry e.peerTun).adapter ≠ 8)
    (hheld : c.heldAt e.adapter = none) (hquiet : noSampling c) (hroom : roomFor c e.adapter 1) (tseq : Nat) :
    (c.sendTack t tseq 0).swc.voqs = c.swc.voqs ++
      [{ c.desc e.adapter (c.tunEntry e.peerTun).adapter (c.get F.FAB_CFG_TACK_QUEUE) 63 with
        tun := some (e.peerTun, (c.tunEntry e.peerTun).gen), sid := c.swc.nextSid }] := by
  obtain ⟨tack, htack⟩ : ∃ g, g = c.tackBarge e.peer e.peerTun (c.get F.FAB_CFG_TACK_QUEUE) tseq 0 0 := ⟨_, rfl⟩
  have hdst : tack.hdr.dst.toNat = e.peer := by
    subst htack he
    exact Nat.mod_eq_of_lt (get_lt c (F.FAB_TUN0_PEER_HUB t))
  have htunnel : tack.hdr.tunnel.toNat = e.peerTun := by
    subst htack he
    exact Nat.mod_eq_of_lt (get_lt c (F.FAB_TUN1_PEER_TUNNEL t))
  have hqueue : tack.hdr.queue.toNat = c.get F.FAB_CFG_TACK_QUEUE := by
    subst htack
    exact Nat.mod_eq_of_lt (get_lt c F.FAB_CFG_TACK_QUEUE)
  have hcells : bargeCells tack = 1 := by
    subst htack
    simp [bargeCells, bargeWords, Chip.tackBarge, Chip.ownHeader]
  have hsent : c.sendTack t tseq 0 = c.sendTackTo e.adapter tack := by
    subst htack he
    rfl
  rw [hsent, sendTackTo_own hisolated (by rw [hdst, hown]) hheld (by rw [htunnel, hpeer]) (by rw [htunnel]; exact hadapter),
    htunnel, hqueue]
  exact admitTack_of_room (adapter_of_valid (he ▸ hvalid) |> (he ▸ ·)) (hcells ▸ hroom) hquiet

theorem sinceAck_sendTunnelAck (c : Chip) (t : Nat) : ((c.sendTunnelAck t).tun t).sinceAck = 0 := by
  unfold Chip.sendTunnelAck
  rw [tun_modTun]
  exact fun _ => rfl

theorem tunnelAckDelayExpiry_sends {n : BitVec 12} {e : TunEntry} (he : e = s.hub.chip.tunEntry n.toNat) (hmode : e.mode = 2)
    (hsince : (s.hub.chip.tun n.toNat).sinceAck ≠ 0) (hisolated : s.hub.chip.on F.FAB_STATUS_ISOLATED = false) (hvalid : e.valid = true)
    (hown : s.hub.chip.ownId = some e.peer) (hpeer : (s.hub.chip.tunEntry e.peerTun).valid = true)
    (hadapter : (s.hub.chip.tunEntry e.peerTun).adapter ≠ 8) (hheld : s.hub.chip.heldAt e.adapter = none) (hquiet : noSampling s.hub.chip)
    (hroom : roomFor s.hub.chip e.adapter 1) :
    ∃ u, exec (.tunnelAckDelayExpiry n) s = .next u ∧ coreOnly s u ∧ (u.hub.chip.tun n.toNat).sinceAck = 0 ∧
      u.hub.chip.swc.voqs = s.hub.chip.swc.voqs ++
        [{ s.hub.chip.desc e.adapter (s.hub.chip.tunEntry e.peerTun).adapter (s.hub.chip.get F.FAB_CFG_TACK_QUEUE) 63 with
          tun := some (e.peerTun, (s.hub.chip.tunEntry e.peerTun).gen), sid := s.hub.chip.swc.nextSid }] := by
  have hcond : ((s.hub.chip.tunEntry n.toNat).mode == 2 && (s.hub.chip.tun n.toNat).sinceAck != 0) = true := by
    rw [← he, hmode]
    simpa using hsince
  refine ⟨_, onChip_eq_after (if_pos hcond), coreOnly_after _ _, ?_, ?_⟩
  · exact (congrArg Tun.sinceAck (tun_after _)).trans (sinceAck_sendTunnelAck _ _)
  · exact (congrArg Swc.voqs (after_swc _)).trans (sendTack_own he hisolated hvalid hown hpeer hadapter hheld hquiet hroom _)

theorem tunnelNakOutExpiry_clears (s : State) (n : BitVec 12) :
    ∃ u, exec (.tunnelNakOutExpiry n) s = .next u ∧ coreOnly s u ∧ (u.hub.chip.tun n.toNat).nakOut = false ∧
      (u.hub.chip.tun n.toNat).oowAt = (s.hub.chip.tun n.toNat).oowAt ∧
      (u.hub.chip.tun n.toNat).outs = (s.hub.chip.tun n.toNat).outs ∧ wordsKept [] s u := by
  have htun : (s.hub.chip.modTun n.toNat fun x => { x with nakOut := false }).tun n.toNat =
      { s.hub.chip.tun n.toNat with nakOut := false } := tun_modTun fun _ => rfl
  refine ⟨_, onChip_eq_after (f := fun c => c.modTun n.toNat fun x => { x with nakOut := false }) rfl, coreOnly_after _ _, ?_, ?_, ?_,
    wordsKept_after fun _ _ => rfl⟩
  all_goals rw [tun_after, htun]

/-! Retransmission (04 R142). -/

/-- An isolated hub sends nothing again (04 R123). -/
theorem resendFrom_isolated {x : Nat} (h : c.on F.FAB_STATUS_ISOLATED = true) : c.resendFrom t x = c := by
  refine each_id fun o => ?_
  unfold Chip.resendOne
  cases c.swc.stored o.2 with
  | none => rfl
  | some y => exact if_pos h

/-- Before the retry limit an expiry counts and sends again what is outstanding. -/
theorem treplayExpiry_counts {n : BitVec 12} (hmode : (s.hub.chip.tunEntry n.toNat).mode = 2)
    (hout : s.hub.chip.get (F.FAB_TSTATE0_TX_NEXT n.toNat) ≠ s.hub.chip.get (F.FAB_TSTATE0_TX_OLDEST n.toNat))
    (hbelow : s.hub.chip.get (F.FAB_TSTATE1_RETRIES n.toNat) + 1 < max 1 (s.hub.chip.get F.FAB_CFG_TUN_RETRY_MAX)) :
    ∃ u, exec (.treplayExpiry n) s = .next u ∧ coreOnly s u ∧
      u.hub.chip.get (F.FAB_TSTATE1_RETRIES n.toNat) =
        (s.hub.chip.get (F.FAB_TSTATE1_RETRIES n.toNat) + 1) % 2 ^ (F.FAB_TSTATE1_RETRIES n.toNat).width ∧
      (u.hub.chip.tun n.toNat).outs = (s.hub.chip.tun n.toNat).outs ∧
      ((s.hub.chip.tun n.toNat).outs = [] ∨ s.hub.chip.on F.FAB_STATUS_ISOLATED = true → u.hub.chip.swc = s.hub.chip.swc ∧
        wordsKept [(F.FAB_TSTATE1 n.toNat).off] s u) := by
  have ht := n.isLt
  obtain ⟨c, hc⟩ : ∃ c, c = s.hub.chip.put (F.FAB_TSTATE1_RETRIES n.toNat) (s.hub.chip.get (F.FAB_TSTATE1_RETRIES n.toNat) + 1) := ⟨_, rfl⟩
  obtain ⟨d, hd⟩ : ∃ d, d = c.when (c.on (F.FAB_TSTATE1_TX_SYNCED n.toNat)) fun c =>
    c.resendFrom n.toNat (s.hub.chip.get (F.FAB_TSTATE0_TX_OLDEST n.toNat)) := ⟨_, rfl⟩
  have hmax : c.get F.FAB_CFG_TUN_RETRY_MAX = s.hub.chip.get F.FAB_CFG_TUN_RETRY_MAX :=
    hc ▸ chip_get_put_apart _ _ _ _ rfl (apart_of_off (by simp only [F.FAB_CFG_TUN_RETRY_MAX, F.FAB_TSTATE1_RETRIES]; omega))
  have hruns : s.hub.chip.treplayExpiry n.toNat = d := by
    unfold Chip.treplayExpiry
    simp only [hmode, hout, ← hc, hmax, hbelow, if_true]
    simp [hd]
  have hkept : TablesKept c d := hd ▸ TablesKept.refl.when fun h => h.resendFrom
  refine ⟨_, onChip_eq_after hruns, coreOnly_after _ _, ?_, ?_, fun hidle => ?_⟩
  · refine (get_after_below _ (tstate1_between ht _ _).2).trans ((hkept.get (tstate1_between ht _ _).1 (tstate1_between ht _ _).2).trans ?_)
    exact hc ▸ chip_get_put _ _ _ rfl
  · rw [tun_after, tun_of_fab hkept.fab, hc, tun_put]
  · have hnothing : c.resendFrom n.toNat (s.hub.chip.get (F.FAB_TSTATE0_TX_OLDEST n.toNat)) = c := by
      rcases hidle with hnone | hisolated
      · have hempty : (c.tun n.toNat).outs = [] := by rw [hc, tun_put, hnone]
        unfold Chip.resendFrom
        rw [hempty]
        rfl
      · refine resendFrom_isolated (beq_iff_eq.mpr ?_)
        have hstatus : F.FAB_STATUS_ISOLATED.apart (F.FAB_TSTATE1_RETRIES n.toNat) = true :=
          apart_of_off (by simp only [F.FAB_STATUS_ISOLATED, F.FAB_TSTATE1_RETRIES]; omega)
        rw [hc, chip_get_put_apart _ _ _ _ rfl hstatus]
        exact on_iff.mp hisolated
    have hsame : d = c := by
      rw [hd]
      cases c.on (F.FAB_TSTATE1_TX_SYNCED n.toNat)
      · rfl
      · exact hnothing
    rw [hsame, hc]
    exact ⟨(after_swc _).trans (chip_put_swc _ _ _), wordsKept_after (Chip.WordsKept.refl.put (List.mem_singleton_self _))⟩

/-- The tunnel's retained barges released, the held one dropped, the abandoned ones counted: no table word changes. -/
theorem get_abandoned (c : Chip) (t n : Nat) {f : Field} (hlo : 0x4_0000 ≤ f.off) (hhi : f.off < fabCounters) :
    (((c.releaseAll t true).dropHeld t).add F.FAB_TUN_ABANDON n).get f = c.get f := by
  have hreleased : TablesKept c (c.each (c.tun t).outs fun o c => c.unretain true o.2) := TablesKept.refl.each fun h => h.unretain
  have hcounted : TablesKept (c.releaseAll t true) (((c.releaseAll t true).dropHeld t).add F.FAB_TUN_ABANDON n) :=
    TablesKept.refl.dropHeld.add (by decide)
  exact (hcounted.get hlo hhi).trans ((get_modTun f).trans (hreleased.get hlo hhi))

theorem tun_abandoned (c : Chip) (t n : Nat) :
    ((((c.releaseAll t true).dropHeld t).add F.FAB_TUN_ABANDON n).tun t).outs = [] := by
  have hcounted : TablesKept (c.releaseAll t true) (((c.releaseAll t true).dropHeld t).add F.FAB_TUN_ABANDON n) :=
    TablesKept.refl.dropHeld.add (by decide)
  rw [tun_of_fab hcounted.fab]
  unfold Chip.releaseAll
  rw [tun_modTun]
  exact fun _ => rfl

/-- What a stalled tunnel shows (04 R142). -/
theorem stallTunnel_shows (ht : t < 4096) :
    (c.stallTunnel t).get (F.FAB_TSTATE1_STALLED t) = 1 ∧ (c.stallTunnel t).get (F.FAB_TSTATE1_TX_SYNCED t) = 0 ∧
      (c.stallTunnel t).get (F.FAB_TSTATE0_TX_OLDEST t) = c.get (F.FAB_TSTATE0_TX_NEXT t) ∧ ((c.stallTunnel t).tun t).outs = [] ∧
      (c.stallTunnel t).get F.FAB_INT_STATUS_TUN_STALL = 1 := by
  obtain ⟨n, hn⟩ : ∃ n, n = (c.get (F.FAB_TSTATE0_TX_NEXT t) + 65536 - c.get (F.FAB_TSTATE0_TX_OLDEST t)) % 65536 := ⟨_, rfl⟩
  obtain ⟨c1, h1⟩ : ∃ d, d = c.put (F.FAB_TSTATE1_STALLED t) 1 := ⟨_, rfl⟩
  obtain ⟨c2, h2⟩ : ∃ d, d = ((c1.releaseAll t true).dropHeld t).add F.FAB_TUN_ABANDON n := ⟨_, rfl⟩
  obtain ⟨c3, h3⟩ : ∃ d, d = (c2.put (F.FAB_TSTATE0_TX_OLDEST t) (c2.get (F.FAB_TSTATE0_TX_NEXT t))).put (F.FAB_TSTATE1_RETRIES t) 0 := ⟨_, rfl⟩
  obtain ⟨c4, h4⟩ : ∃ d, d = (c3.flag F.FAB_INT_STATUS_TUN_STALL).raiseOwn 0x20 0x20 t := ⟨_, rfl⟩
  obtain ⟨c5, h5⟩ : ∃ d, d = (c4.put (F.FAB_TSTATE1_TX_SYNCED t) 0).modTun t fun x => { x with syncSeq := none, syncs := 0 } := ⟨_, rfl⟩
  have hstall : c.stallTunnel t = c5.usbTunnelLost t := by
    subst h5 h4 h3 h2 h1 hn
    rfl
  have hraised : TablesKept (c3.flag F.FAB_INT_STATUS_TUN_STALL) c4 := h4 ▸ TablesKept.refl.raiseOwn
  have hlost : TablesKept c5 (c.stallTunnel t) := hstall ▸ TablesKept.refl.usbTunnelLost
  have hend : ∀ {f : Field}, 0x4_0000 ≤ f.off → f.off < fabCounters → (c.stallTunnel t).get f = (c4.put (F.FAB_TSTATE1_TX_SYNCED t) 0).get f :=
    fun {f} hlo hhi => (hlost.get hlo hhi).trans (h5 ▸ get_modTun f)
  have hmid : ∀ {f : Field}, 0x4_0000 ≤ f.off → f.off < fabCounters → f.apart (F.FAB_TSTATE1_TX_SYNCED t) = true →
      f.apart F.FAB_INT_STATUS_TUN_STALL = true → (c.stallTunnel t).get f = c3.get f := fun {f} hlo hhi hsynced hflag =>
    (hend hlo hhi).trans ((chip_get_put_apart _ _ _ _ rfl hsynced).trans ((hraised.get hlo hhi).trans (chip_get_flag_apart _ _ _ rfl hflag)))
  have hstatus : ∀ lo w, (⟨0x4C000 + 8 * t, lo, w⟩ : Field).apart F.FAB_INT_STATUS_TUN_STALL = true ∧
      (⟨0x4C004 + 8 * t, lo, w⟩ : Field).apart F.FAB_INT_STATUS_TUN_STALL = true := fun lo w => by
    constructor
    all_goals exact apart_of_off (by simp only [F.FAB_INT_STATUS_TUN_STALL]; omega)
  have hwords : ∀ lo w lo' w', (⟨0x4C004 + 8 * t, lo, w⟩ : Field).apart ⟨0x4C000 + 8 * t, lo', w'⟩ = true := fun lo w lo' w' =>
    apart_of_off (by dsimp only; omega)
  have hwords' : ∀ lo w lo' w', (⟨0x4C000 + 8 * t, lo, w⟩ : Field).apart ⟨0x4C004 + 8 * t, lo', w'⟩ = true := fun lo w lo' w' =>
    apart_of_off (by dsimp only; omega)
  refine ⟨?_, ?_, ?_, ?_, ?_⟩
  · refine (hmid (f := F.FAB_TSTATE1_STALLED t) (tstate1_between ht _ _).1 (tstate1_between ht _ _).2
      (apart_of_bits (.inr (Nat.le_refl 18))) (hstatus _ _).2).trans ?_
    rw [h3, chip_get_put_apart _ (F.FAB_TSTATE1_RETRIES t) (F.FAB_TSTATE1_STALLED t) _ rfl (apart_of_bits (.inl (Nat.le_refl 19))),
      chip_get_put_apart _ (F.FAB_TSTATE0_TX_OLDEST t) (F.FAB_TSTATE1_STALLED t) _ rfl (hwords _ _ _ _), h2,
      get_abandoned _ _ _ (f := F.FAB_TSTATE1_STALLED t) (tstate1_between ht _ _).1 (tstate1_between ht _ _).2, h1]
    exact get_put_of_lt rfl Nat.one_lt_two
  · refine (hend (f := F.FAB_TSTATE1_TX_SYNCED t) (tstate1_between ht _ _).1 (tstate1_between ht _ _).2).trans ?_
    exact get_put_of_lt rfl Nat.two_pos
  · refine (hmid (f := F.FAB_TSTATE0_TX_OLDEST t) (tstate0_between ht _ _).1 (tstate0_between ht _ _).2
      (hwords' _ _ _ _) (hstatus _ _).1).trans ?_
    rw [h3, chip_get_put_apart _ (F.FAB_TSTATE1_RETRIES t) (F.FAB_TSTATE0_TX_OLDEST t) _ rfl (hwords' _ _ _ _),
      get_put_of_lt (f := F.FAB_TSTATE0_TX_OLDEST t) rfl (get_lt c2 (F.FAB_TSTATE0_TX_NEXT t)), h2,
      get_abandoned _ _ _ (f := F.FAB_TSTATE0_TX_NEXT t) (tstate0_between ht _ _).1 (tstate0_between ht _ _).2, h1]
    exact chip_get_put_apart c (F.FAB_TSTATE1_STALLED t) (F.FAB_TSTATE0_TX_NEXT t) 1 rfl (hwords' _ _ _ _)
  · have hcleared : c5.tun t = { c4.tun t with syncSeq := none, syncs := 0 } := by
      rw [h5, tun_modTun, tun_put]
      exact fun _ => rfl
    rw [tun_of_fab hlost.fab, hcleared]
    show (c4.tun t).outs = []
    rw [tun_of_fab hraised.fab]
    show (c3.tun t).outs = []
    rw [h3, tun_put, tun_put, h2, tun_abandoned]
  · rw [hend (by decide) (by decide), chip_get_put_apart _ _ _ _ rfl, hraised.get (by decide) (by decide)]
    · exact get_flag_same rfl (by decide)
    · exact apart_of_off (by simp only [F.FAB_INT_STATUS_TUN_STALL, F.FAB_TSTATE1_TX_SYNCED]; omega)

/-- At the retry limit the tunnel stalls. -/
theorem treplayExpiry_stalls {n : BitVec 12} (hmode : (s.hub.chip.tunEntry n.toNat).mode = 2)
    (hout : s.hub.chip.get (F.FAB_TSTATE0_TX_NEXT n.toNat) ≠ s.hub.chip.get (F.FAB_TSTATE0_TX_OLDEST n.toNat))
    (hlimit : max 1 (s.hub.chip.get F.FAB_CFG_TUN_RETRY_MAX) ≤ s.hub.chip.get (F.FAB_TSTATE1_RETRIES n.toNat) + 1) :
    ∃ u, exec (.treplayExpiry n) s = .next u ∧ coreOnly s u ∧ u.hub.chip.get (F.FAB_TSTATE1_STALLED n.toNat) = 1 ∧
      u.hub.chip.get (F.FAB_TSTATE1_TX_SYNCED n.toNat) = 0 ∧
      u.hub.chip.get (F.FAB_TSTATE0_TX_OLDEST n.toNat) = s.hub.chip.get (F.FAB_TSTATE0_TX_NEXT n.toNat) ∧
      (u.hub.chip.tun n.toNat).outs = [] ∧
      u.hub.chip.get F.FAB_INT_STATUS_TUN_STALL = 1 := by
  have ht := n.isLt
  obtain ⟨c, hc⟩ : ∃ c, c = s.hub.chip.put (F.FAB_TSTATE1_RETRIES n.toNat) (s.hub.chip.get (F.FAB_TSTATE1_RETRIES n.toNat) + 1) := ⟨_, rfl⟩
  have hmax : c.get F.FAB_CFG_TUN_RETRY_MAX = s.hub.chip.get F.FAB_CFG_TUN_RETRY_MAX :=
    hc ▸ chip_get_put_apart _ _ _ _ rfl (apart_of_off (by simp only [F.FAB_CFG_TUN_RETRY_MAX, F.FAB_TSTATE1_RETRIES]; omega))
  have hnext : c.get (F.FAB_TSTATE0_TX_NEXT n.toNat) = s.hub.chip.get (F.FAB_TSTATE0_TX_NEXT n.toNat) :=
    hc ▸ chip_get_put_apart _ _ _ _ rfl (apart_of_off (by simp only [F.FAB_TSTATE0_TX_NEXT, F.FAB_TSTATE1_RETRIES]; omega))
  have hstalls : s.hub.chip.treplayExpiry n.toNat = c.stallTunnel n.toNat := by
    unfold Chip.treplayExpiry
    simp only [hmode, hout, ← hc, hmax, Nat.not_lt.mpr hlimit, if_false]
    simp
  obtain ⟨hstalled, hsynced, holdest, houts, hflag⟩ := stallTunnel_shows (c := c) ht
  refine ⟨_, onChip_eq_after hstalls, coreOnly_after _ _, ?_, ?_, ?_, ?_, ?_⟩
  · exact (get_after_below _ (tstate1_between ht _ _).2).trans hstalled
  · exact (get_after_below _ (tstate1_between ht _ _).2).trans hsynced
  · exact ((get_after_below _ (tstate0_between ht _ _).2).trans holdest).trans hnext
  · exact (congrArg Tun.outs (tun_after _)).trans houts
  · exact (get_after_below _ (by decide)).trans hflag

/-- Settles O31, clause by clause: what TACKs, SYNCs and the expiries make of a tunnel's state, with the frame of what they set off in the
queues, the alarms and the ports. -/
theorem tunnelEngine : Obligations.TunnelEngine := by
  unfold Obligations.TunnelEngine
  exact ⟨fun _ _ _ ht htype hvalid hpeer hadapter hmode hstatus hout => tackRx_acks ht htype hvalid hpeer hadapter hmode hstatus hout,
    fun _ _ _ ht htype hvalid hpeer hadapter hstatus hlate => tackRx_late ht htype hvalid hpeer hadapter hstatus hlate,
    fun _ _ _ ht htype hvalid hpeer hadapter hmode hstatus => tackRx_unsyncs ht htype hvalid hpeer hadapter hmode hstatus,
    fun _ _ _ ht htype _ hpeer hmcast hquiet => tackRx_drops ht htype hpeer hmcast hquiet,
    fun _ _ _ ht htype hvalid hpeer hadapter hmode hstatus => syncRx_takes ht htype hvalid hpeer hadapter hmode hstatus,
    fun _ _ hvalid hmode hunsynced => syncTx_ordered hvalid hmode hunsynced,
    fun _ _ hvalid hmode hunsynced => syncRepeat_reliable hvalid hmode hunsynced,
    fun _ _ _ he hmode hsince hisolated hvalid _ hown hpeer hadapter hheld hquiet hroom =>
      tunnelAckDelayExpiry_sends he hmode hsince hisolated hvalid hown hpeer hadapter hheld hquiet hroom,
    tunnelNakOutExpiry_clears,
    fun _ _ hmode hout hbelow => treplayExpiry_counts hmode hout hbelow,
    fun _ _ hmode hout hlimit => treplayExpiry_stalls hmode hout hlimit⟩

end Sys2Proof.Proofs
end

section
/-! Fabric time: what the election, the gates and the host's start-of-frame change (04 R156 to R160; 06 R206 to R208). -/

namespace Sys2Proof.Machine

open Sys2Proof.Safety

variable {b c d : Chip}

/-! The gates and the SOF offset leave the forwarding block's tables. -/

theorem TablesKept.showGate {e n : Nat} (h : TablesKept b c) : TablesKept b (c.showGate e n) :=
  (h.put (besideTables_add (by decide))).put (besideTables_add (by decide))

theorem TablesKept.takeover {e : Nat} (h : TablesKept b c) : TablesKept b (c.takeover e) := by
  unfold Chip.takeover
  refine .modSch (.flag (.put (.flag (.showGate (.put h ?_)) ?_) ?_) (by decide))
  all_goals exact besideTables_add (by decide)

theorem TablesKept.takeovers (h : TablesKept b c) : TablesKept b c.takeovers := h.each fun h => h.when fun h => h.takeover

theorem TablesKept.gateReplace {e : Nat} (h : TablesKept b c) : TablesKept b (c.gateReplace e) := by
  fun_cases Chip.gateReplace
  · exact h
  · exact (h.modSch (f := fun s => { s with gates := s.gates.setIfInBounds e _ })).showGate

theorem TablesKept.gatesStepped (h : TablesKept b c) : TablesKept b c.gatesStepped := h.takeovers.each fun h => h.gateReplace

theorem TablesKept.usbSend {i kind ep : Nat} {dirIn : Bool} {arg : Nat} {l : List Byte} (h : TablesKept b c) :
    TablesKept b (c.usbSend i kind ep dirIn arg l) := by
  fun_cases Chip.usbSend
  · exact h
  · exact h.frame rfl
  · exact h.sendMsg

theorem TablesKept.sendSofOffset {i : Nat} (h : TablesKept b c) : TablesKept b (c.sendSofOffset i) := h.usbSend

theorem Chip.WordsKept.modFab {offs : List Nat} {f : Fab → Fab} (h : c.WordsKept offs d) : c.WordsKept offs (d.modFab f) := h

/-! The election (R156, R158). -/

/-- An election writes TIME_STATUS and its interrupt bit; the keys and what is known of the start-of-frame stay. -/
structure Chip.Elects (c d : Chip) : Prop where
  word : c.WordsKept [F.FAB_TIME_STATUS.off, F.FAB_INT_STATUS.off] d
  keys : d.fab.keys = c.fab.keys
  sof : d.fab.hostSof = c.fab.hostSof ∧ d.fab.sofLocked = c.fab.sofLocked

namespace Chip.Elects

theorem refl : c.Elects c := ⟨.refl, rfl, rfl, rfl⟩

theorem put {f : Field} {x : Nat} (h : c.Elects d) (hf : f.off ∈ [F.FAB_TIME_STATUS.off, F.FAB_INT_STATUS.off]) : c.Elects (d.put f x) :=
  ⟨h.word.put hf, h.keys, h.sof⟩

theorem flag {f : Field} (h : c.Elects d) (hf : f.off ∈ [F.FAB_TIME_STATUS.off, F.FAB_INT_STATUS.off]) : c.Elects (d.flag f) :=
  ⟨h.word.flag hf, h.keys, h.sof⟩

theorem when {x : Bool} {f : Chip → Chip} (h : c.Elects d) (hf : ∀ {d}, c.Elects d → c.Elects (f d)) : c.Elects (d.when x f) := by
  cases x
  exacts [h, hf h]

theorem crystal (h : c.Elects d) : c.Elects (d.modFab fun f => { f with steer := 0 }) := ⟨h.word, h.keys, h.sof⟩

end Chip.Elects

theorem electMaster_elects (c : Chip) : c.Elects c.electMaster := by
  have hmember : F.FAB_TIME_STATUS.off ∈ [F.FAB_TIME_STATUS.off, F.FAB_INT_STATUS.off] := List.mem_cons_self
  unfold Chip.electMaster
  refine .when (.when ?_ fun h => h.crystal) fun h => h.flag (List.mem_cons_of_mem _ List.mem_cons_self)
  rcases c.bestKey with _ | ⟨p, k⟩
  · exact .put (.put .refl hmember) hmember
  · exact .put (.put (.put (.put (.put .refl hmember) hmember) hmember) hmember) hmember

/-! The host's start-of-frame (R156, R157). -/

/-- What the hub knows of the host's start-of-frame is as it was. -/
def SofKept (c d : Chip) : Prop := d.fab.hostSof = c.fab.hostSof ∧ d.fab.sofLocked = c.fab.sofLocked

theorem SofKept.refl : SofKept c c := ⟨rfl, rfl⟩

theorem SofKept.of_tables (h : SofKept b c) (hd : TablesKept c d) : SofKept b d := by
  unfold SofKept
  rw [hd.fab]
  exact h

theorem SofKept.put {f : Field} {x : Nat} (h : SofKept b c) : SofKept b (c.put f x) := h

theorem SofKept.when {x : Bool} {f : Chip → Chip} (h : SofKept b c) (hf : ∀ {c}, SofKept b c → SofKept b (f c)) : SofKept b (c.when x f) := by
  cases x
  exacts [h, hf h]

theorem SofKept.stepTime {x : Int} (h : SofKept b c) : SofKept b (c.stepTime x) := by
  unfold Chip.stepTime
  exact SofKept.of_tables (by exact h) TablesKept.refl.gatesStepped

theorem SofKept.steerBy {e : Int} (h : SofKept b c) : SofKept b (c.steerBy e) := by
  unfold Chip.steerBy
  dsimp only
  split
  · exact h
  · split
    all_goals exact h

end Sys2Proof.Machine
end

section
/-! Ring protection (04 R149 to R154, R526): the protection bits, routability, and the notices that a hub sends. -/

namespace Sys2Proof.Machine

open Sys2Proof.Safety

variable {b c d : Chip}

/-! Bits of a field. -/

/-- A bit of a field reads as the one-bit field at its place. -/
theorem bit_eq_on {f : Field} {n : Nat} (hn : n < f.width) : c.bit f n = c.on ⟨f.off, f.lo + n, 1⟩ := by
  unfold Chip.bit Chip.on Chip.get RegFile.get wordField
  rw [Nat.testBit_mod_two_pow, Nat.testBit_div_two_pow, Nat.testBit_eq_decide_div_mod_eq, Nat.add_comm n]
  simp only [hn, decide_true, Bool.true_and, Nat.pow_one]
  rfl

theorem bit_of_get {f : Field} {n : Nat} (hn : n < f.width) (h : d.get ⟨f.off, f.lo + n, 1⟩ = c.get ⟨f.off, f.lo + n, 1⟩) :
    d.bit f n = c.bit f n := by
  rw [bit_eq_on hn, bit_eq_on hn]
  exact congrArg (· == 1) h

theorem bit_putBit {f : Field} {n : Nat} {x : Bool} (hn : n < f.width) (hok : f.lo + n < 32) : (c.putBit f n x).bit f n = x := by
  rw [bit_eq_on hn]
  have hget : (c.putBit f n x).get ⟨f.off, f.lo + n, 1⟩ = x.toNat :=
    get_put_of_lt (f := ⟨f.off, f.lo + n, 1⟩) (by simp only [Field.ok, decide_eq_true_eq]; omega) (Bool.toNat_lt x)
  unfold Chip.on
  rw [hget]
  cases x <;> rfl

/-! The protection bits (R526). -/

/-- The ring is read from FAB_RING alone. -/
theorem ring_of_get (h : ∀ lo w, d.get ⟨F.FAB_RING_RING_SIZE.off, lo, w⟩ = c.get ⟨F.FAB_RING_RING_SIZE.off, lo, w⟩) : d.ring = c.ring := by
  have hsize : d.get F.FAB_RING_RING_SIZE = c.get F.FAB_RING_RING_SIZE := h _ _
  have hpos : d.get F.FAB_RING_RING_POS = c.get F.FAB_RING_RING_POS := h _ _
  have heast : d.get F.FAB_RING_EAST_PORT = c.get F.FAB_RING_EAST_PORT := h _ _
  unfold Chip.ring
  rw [hsize, hpos, heast]

/-- An own protection bit is one of the 64. -/
theorem ownProtection_lt {p : Port} {spur : Bool} {i : Nat} (h : c.ownProtection p = some (spur, i)) : i < 64 := by
  unfold Chip.ownProtection Chip.ring at h
  dsimp only at h
  split at h
  · exact absurd h (by simp)
  next hring =>
    split at hring
    next hsize =>
      simp only [Bool.and_eq_true, decide_eq_true_eq] at hsize
      simp only [Option.some.injEq, Prod.mk.injEq] at hring
      obtain ⟨rfl, rfl, rfl⟩ := hring
      have hmod := Nat.mod_lt (c.get F.FAB_RING_RING_POS + c.get F.FAB_RING_RING_SIZE - 1) (show c.get F.FAB_RING_RING_SIZE > 0 by omega)
      split at h
      · simp only [Option.some.injEq, Prod.mk.injEq] at h
        omega
      · split at h
        all_goals
          simp only [Option.some.injEq, Prod.mk.injEq] at h
          omega
    · exact absurd hring (by simp)

/-- The word of a protection bit. -/
def protection (spur : Bool) (i : Nat) : Field := if spur then F.FAB_EXIT_LOST (i / 32) else F.FAB_BROKEN (i / 32)

theorem protection_width {spur : Bool} {i : Nat} : (protection spur i).width = 32 ∧ (protection spur i).lo = 0 := by
  cases spur
  all_goals exact ⟨rfl, rfl⟩

theorem protection_off {spur : Bool} {i : Nat} (hi : i < 64) : 0x5_F018 ≤ (protection spur i).off ∧ (protection spur i).off < 0x5_F028 := by
  cases spur
  all_goals simp only [protection, if_true, Bool.false_eq_true, if_false, F.FAB_EXIT_LOST, F.FAB_BROKEN]; omega

/-- A protection bit that changes is written, and RING_NOTICE set. -/
theorem setProtection_cases (c : Chip) (spur : Bool) (i : Nat) (x : Bool) :
    c.bit (protection spur i) (i % 32) = x ∧ c.setProtection spur i x = c ∨
      c.setProtection spur i x = (c.putBit (protection spur i) (i % 32) x).flag F.FAB_INT_STATUS_RING_NOTICE := by
  by_cases h : c.bit (protection spur i) (i % 32) = x
  · exact .inl ⟨h, if_pos (beq_iff_eq.mpr h)⟩
  · exact .inr (if_neg fun e => h (beq_iff_eq.mp e))

theorem bit_setProtection {spur : Bool} {i : Nat} {x : Bool} (hi : i < 64) :
    (c.setProtection spur i x).bit (protection spur i) (i % 32) = x := by
  obtain ⟨hwidth, hlo⟩ := protection_width (spur := spur) (i := i)
  have hmod := Nat.mod_lt i (show 32 > 0 by omega)
  rcases setProtection_cases c spur i x with ⟨hbit, hsame⟩ | hset
  · rw [hsame, hbit]
  · rw [hset]
    refine (bit_of_get (by omega) ?_).trans (bit_putBit (c := c) (by omega) (by omega))
    exact chip_get_flag_apart _ _ _ rfl (apart_of_off (by have := protection_off (spur := spur) hi; simp only [F.FAB_INT_STATUS_RING_NOTICE]; omega))

theorem fab_setProtection (c : Chip) (spur : Bool) (i : Nat) (x : Bool) : (c.setProtection spur i x).fab = c.fab := by
  rcases setProtection_cases c spur i x with ⟨-, hsame⟩ | hset
  · rw [hsame]
  · rw [hset]
    rfl

theorem get_setProtection {spur : Bool} {i : Nat} {x : Bool} (hi : i < 64) {f : Field} (hf : f.off < 0x5_F018 ∨ 0x5_F028 ≤ f.off)
    (hnotice : f.apart F.FAB_INT_STATUS_RING_NOTICE = true) : (c.setProtection spur i x).get f = c.get f := by
  obtain ⟨hwidth, hlo⟩ := protection_width (spur := spur) (i := i)
  have hoff := protection_off (spur := spur) hi
  have hmod := Nat.mod_lt i (show 32 > 0 by omega)
  rcases setProtection_cases c spur i x with ⟨-, hsame⟩ | hset
  · rw [hsame]
  · rw [hset, chip_get_flag_apart _ _ _ rfl hnotice]
    exact chip_get_put_apart _ _ _ _ (by simp only [Field.ok, decide_eq_true_eq]; omega) (apart_of_off (by dsimp only; omega))

/-! Routability (R149). -/

/-- A port that stops being routable: its bit clears and PROTECT sets; the hub holds its own protection bit. -/
theorem routabilityLost_shows (p : Port) (c : Chip) : (c.routabilityLost p).routable p = false ∧
    (c.routabilityLost p).fab = { c.fab with
      hadLoss := upd c.fab.hadLoss p fun _ => true, ownLost := upd c.fab.ownLost p fun _ => true
      walking := upd c.fab.walking p fun _ => some c.masks, restoreLeft := upd c.fab.restoreLeft p fun _ => 0 } ∧
    (c.routabilityLost p).get F.FAB_INT_STATUS_PROTECT = 1 := by
  obtain ⟨d, hd⟩ : ∃ d, d = (((c.putBit F.FAB_STATUS_ROUTABLE p.val false).flag F.FAB_INT_STATUS_PROTECT).modFab fun f => { f with
    hadLoss := upd f.hadLoss p fun _ => true, ownLost := upd f.ownLost p fun _ => true, walking := upd f.walking p fun _ => some c.masks
    restoreLeft := upd f.restoreLeft p fun _ => 0 }) := ⟨_, rfl⟩
  have hfab : d.fab = { c.fab with
      hadLoss := upd c.fab.hadLoss p fun _ => true, ownLost := upd c.fab.ownLost p fun _ => true
      walking := upd c.fab.walking p fun _ => some c.masks, restoreLeft := upd c.fab.restoreLeft p fun _ => 0 } := hd ▸ rfl
  have hget : ∀ f, d.get f = ((c.putBit F.FAB_STATUS_ROUTABLE p.val false).flag F.FAB_INT_STATUS_PROTECT).get f := fun f => hd ▸ rfl
  have hflag : d.get F.FAB_INT_STATUS_PROTECT = 1 := (hget _).trans (get_flag_same rfl (by decide))
  have hp := p.isLt
  have hcleared : d.routable p = false := by
    refine (bit_of_get (f := F.FAB_STATUS_ROUTABLE) hp ?_).trans (bit_putBit (c := c) (x := false) (f := F.FAB_STATUS_ROUTABLE) hp ?_)
    · exact (hget _).trans (chip_get_flag_apart _ _ _ rfl (apart_of_off (show F.FAB_STATUS_ROUTABLE.off ≠ F.FAB_INT_STATUS_PROTECT.off by decide)))
    · simp only [F.FAB_STATUS_ROUTABLE]
      omega
  have hlost : c.routabilityLost p = match d.ownProtection p with
      | some (spur, i) => d.setProtection spur i true
      | none => d := hd ▸ rfl
  rw [hlost]
  cases hown : d.ownProtection p with
  | none => exact ⟨hcleared, hfab, hflag⟩
  | some x =>
    have hi := ownProtection_lt hown
    refine ⟨(bit_of_get (f := F.FAB_STATUS_ROUTABLE) hp ?_).trans hcleared, (fab_setProtection _ _ _ _).trans hfab, ?_⟩
    · exact get_setProtection hi (.inl (show F.FAB_STATUS_ROUTABLE.off < 0x5_F018 by decide))
        (apart_of_off (show F.FAB_STATUS_ROUTABLE.off ≠ F.FAB_INT_STATUS_RING_NOTICE.off by decide))
    · exact (get_setProtection hi (.inr (by decide)) (by decide)).trans hflag

/-- A port that becomes routable: its bit sets, and its loss is over; FAB_STATUS keeps its other bits, and the block its settings. -/
theorem routabilityGained_shows (p : Port) (c : Chip) : (c.routabilityGained p).routable p = true ∧
    (c.routabilityGained p).fab = { c.fab with ownLost := upd c.fab.ownLost p fun _ => false } ∧
    ∀ f : Field, f.off < 0x5_F018 → f.apart ⟨F.FAB_STATUS_ROUTABLE.off, F.FAB_STATUS_ROUTABLE.lo + p.val, 1⟩ = true →
      (c.routabilityGained p).get f = c.get f := by
  obtain ⟨d, hd⟩ : ∃ d, d = ((c.putBit F.FAB_STATUS_ROUTABLE p.val true).modFab fun f => { f with ownLost := upd f.ownLost p fun _ => false }).when
    c.fab.ownLost[p] fun c => c.flag F.FAB_INT_STATUS_PROTECT := ⟨_, rfl⟩
  have hp := p.isLt
  have hfab : d.fab = { c.fab with ownLost := upd c.fab.ownLost p fun _ => false } := by
    rw [hd]
    cases c.fab.ownLost[p] <;> rfl
  have hput : ∀ f : Field, f.off < 0x5_F018 → d.get f = (c.putBit F.FAB_STATUS_ROUTABLE p.val true).get f := fun f hf => by
    have happart : f.apart F.FAB_INT_STATUS_PROTECT = true := apart_of_off (Nat.ne_of_lt (Nat.lt_trans hf (by decide)))
    rw [hd, get_when]
    split
    · exact chip_get_flag_apart _ _ _ rfl happart
    · rfl
  have hset : d.routable p = true := by
    refine (bit_of_get (f := F.FAB_STATUS_ROUTABLE) hp ?_).trans (bit_putBit (c := c) (x := true) (f := F.FAB_STATUS_ROUTABLE) hp ?_)
    · exact hput _ (show F.FAB_STATUS_ROUTABLE.off < 0x5_F018 by decide)
    · simp only [F.FAB_STATUS_ROUTABLE]
      omega
  have hok : (⟨F.FAB_STATUS_ROUTABLE.off, F.FAB_STATUS_ROUTABLE.lo + p.val, 1⟩ : Field).ok = true := by
    refine decide_eq_true ?_
    simp only [F.FAB_STATUS_ROUTABLE]
    omega
  have hkept : ∀ f : Field, f.off < 0x5_F018 → f.apart ⟨F.FAB_STATUS_ROUTABLE.off, F.FAB_STATUS_ROUTABLE.lo + p.val, 1⟩ = true →
      d.get f = c.get f := fun f hf ha =>
    (hput f hf).trans (chip_get_put_apart _ _ _ _ hok ha)
  have hgained : c.routabilityGained p = match c.fab.ownLost[p], d.ownProtection p with
      | true, some (spur, i) => d.setProtection spur i false
      | _, _ => d := hd ▸ rfl
  rw [hgained]
  split
  next spur i _ hown =>
    have hi := ownProtection_lt hown
    have hget : ∀ {f : Field}, f.off < 0x5_F018 → (d.setProtection spur i false).get f = d.get f := fun {f} hf =>
      get_setProtection hi (.inl hf) (apart_of_off (Nat.ne_of_lt (Nat.lt_trans hf (by decide))))
    refine ⟨(bit_of_get (f := F.FAB_STATUS_ROUTABLE) hp ?_).trans hset, (fab_setProtection _ _ _ _).trans hfab, fun f hf ha =>
      (hget hf).trans (hkept f hf ha)⟩
    exact hget (show F.FAB_STATUS_ROUTABLE.off < 0x5_F018 by decide)
  · exact ⟨hset, hfab, hkept⟩

/-! Notices (R147, R151, R152): what a barge of group 255 leaves. -/

theorem TablesKept.inspectAlarm {g : Barge} (h : TablesKept b c) : TablesKept b (c.inspectAlarm g) := .ite (h.frame rfl) h

theorem TablesKept.refuseCopy {g : Barge} {e : Desc} (h : TablesKept b c) : TablesKept b (c.refuseCopy g e) :=
  (h.inc (besideTables_add (by decide))).sample

/-- Group 255 is never atomic: its copies join their queues or are refused one by one. -/
theorem TablesKept.replicateNotice {g : Barge} {i : Nat} {origin : Bool} {orig : Option (Nat × Nat)} {weir : Option Nat}
    (hgroup : g.hdr.tunnel.toNat % 256 = 255) (h : TablesKept b c) : TablesKept b (c.replicate g i origin orig weir) := by
  have hvalid : ∀ c : Chip, (c.groupEntry 255).valid = true := fun _ => rfl
  have hatomic : ∀ c : Chip, (c.groupEntry 255).atomic = false := fun _ => rfl
  have hgone : ∀ {c : Chip} {x : Bool} {stamp : Option (Nat × Nat)}, TablesKept b c →
      TablesKept b (c.when x fun c => c.dropAt F.FAB_ISO_DROP g i 14 stamp none) := fun h => h.when fun h => h.dropAt (by decide)
  have hinspected : ∀ {x : Bool}, TablesKept b (c.when x (Chip.inspectAlarm g)) := h.when fun h => h.inspectAlarm
  unfold Chip.replicate
  simp only [hgroup, hvalid, hatomic, Bool.not_true, Bool.false_and, Bool.false_eq_true, if_false]
  refine .ite (hgone (hinspected.each fun h => h.refuseCopy)) (hgone (.sampleAt (.each (.each (.ite ?_ ?_) ?_) ?_)))
  · exact hinspected.judge
  · exact hinspected.judge.enqueue
  · exact fun h => h.refuseCopy
  · exact fun h => h.refuseCopy

/-- The core die with other barges at P8. -/
def Chip.withP8in (l : List P8Barge) (c : Chip) : Chip := c.modSwc fun w => { w with p8in := l }

theorem TablesKept.withP8in {l : List P8Barge} (h : TablesKept c d) : TablesKept (c.withP8in l) (d.withP8in l) :=
  ⟨h.word, h.fab, h.now, h.subns, rfl⟩

/-- Of the blocks named, a barge that reaches P8 changes what P8 has received alone. -/
theorem toP8_keeps (c : Chip) (i : Nat) (g : Barge) : ∃ l, TablesKept (c.withP8in l) (c.toP8 i g) := by
  unfold Chip.toP8
  split
  · exact ⟨c.swc.p8in ++ [{ inPort := i, barge := g }], TablesKept.refl.when fun h => h.inc (by decide)⟩
  · refine ⟨c.swc.p8in, ?_⟩
    have hdropped : TablesKept c (c.inc F.LKP_P8_DROP) := TablesKept.refl.inc (by decide)
    split
    · have hlost : TablesKept c (((c.inc F.LKP_P8_DROP).inc F.SWC_SMP_LOST).flag F.SWC_INT_STATUS_SMP_LOST) :=
        (hdropped.inc (by decide)).flag (by decide)
      exact TablesKept.modSwc (f := fun w => { w with samplers := _ }) hlost rfl
    · exact hdropped

/-- While the Lockkeeper takes what reaches P8, the barge joins it. -/
theorem toP8_adds {i : Nat} {g : Barge} (h : c.get F.LKP_STATUS_STATE = 0) :
    ∃ l, l.length = c.swc.p8in.length + 1 ∧ TablesKept (c.withP8in l) (c.toP8 i g) := by
  refine ⟨c.swc.p8in ++ [{ inPort := i, barge := g }], by simp, ?_⟩
  unfold Chip.toP8
  rw [if_pos (.inl h)]
  exact TablesKept.refl.when fun h => h.inc (by decide)

/-- A notice as it goes out once it is at P8: it joins the queues of group 255, or waits behind the barge that P8 holds. -/
def Chip.noticeOut (g : Barge) (c : Chip) : Chip :=
  if (c.heldAt 8).isSome then c.modSwc fun w => { w with p8out := w.p8out ++ [(g, none)] } else c.replicate g 8 true none none

/-- A hub with a ring sends its notice: a copy to P8, then group 255 (R147, R151). -/
theorem sendNotice_sends {p : Port} {broken : Bool} (hring : c.ring.isSome = true) (hid : c.on F.FAB_ID_ID_VALID = true) :
    ∃ g : Barge, g.hdr.tunnel.toNat % 256 = 255 ∧ c.sendNotice p broken = ((c.draw 65536).2.toP8 8 g).noticeOut g := by
  obtain ⟨⟨n, h, east⟩, hn⟩ := Option.isSome_iff_exists.mp hring
  obtain ⟨⟨spur, i⟩, hi⟩ : ∃ x, c.ownProtection p = some x := by
    unfold Chip.ownProtection
    rw [hn]
    dsimp only
    split
    · exact ⟨_, rfl⟩
    · split
      all_goals exact ⟨_, rfl⟩
  obtain ⟨g, hg⟩ : ∃ g : Barge, g = { (c.draw 65536).2.noticeBarge n i spur broken with
    hdr := { ((c.draw 65536).2.noticeBarge n i spur broken).hdr with tseq := BitVec.ofNat 16 (c.draw 65536).1 } } := ⟨_, rfl⟩
  refine ⟨g, hg ▸ rfl, ?_⟩
  unfold Chip.sendNotice
  rw [hn, hi]
  have hvalid : (!(c.draw 65536).2.on F.FAB_ID_ID_VALID) = false := by
    rw [show (c.draw 65536).2.on F.FAB_ID_ID_VALID = true from hid]
    rfl
  dsimp only
  rw [hvalid, ← hg]
  rfl

/-- Without a ring, or before it has its ID, the hub sends no notice (R120, R151). -/
theorem sendNotice_drops {p : Port} {broken : Bool} (h : c.ring.isSome = false ∨ c.on F.FAB_ID_ID_VALID = false) :
    TablesKept c (c.sendNotice p broken) := by
  unfold Chip.sendNotice
  split
  next hring _ =>
    have hid : c.on F.FAB_ID_ID_VALID = false := h.resolve_left (by rw [hring]; simp)
    have hinvalid : (!(c.draw 65536).2.on F.FAB_ID_ID_VALID) = true := by
      rw [show (c.draw 65536).2.on F.FAB_ID_ID_VALID = false from hid]
      rfl
    dsimp only
    rw [if_pos hinvalid]
    exact TablesKept.refl.draw.dropAt (by decide)
  · exact .refl

theorem noticeOut_keeps {g : Barge} (hgroup : g.hdr.tunnel.toNat % 256 = 255) : TablesKept c (c.noticeOut g) :=
  .ite (TablesKept.refl.modSwc rfl) (TablesKept.refl.replicateNotice hgroup)

/-- Of the blocks named, a notice changes what P8 has received alone. -/
theorem sendNotice_keeps (c : Chip) (p : Port) (broken : Bool) : ∃ l, TablesKept (c.withP8in l) (c.sendNotice p broken) := by
  by_cases hsends : c.ring.isSome = true ∧ c.on F.FAB_ID_ID_VALID = true
  case pos =>
    obtain ⟨g, hgroup, hsent⟩ := sendNotice_sends (p := p) (broken := broken) hsends.1 hsends.2
    obtain ⟨l, htaken⟩ := toP8_keeps (c.draw 65536).2 8 g
    exact ⟨l, hsent ▸ (TablesKept.refl.draw.withP8in.trans htaken).trans (noticeOut_keeps hgroup)⟩
  case neg =>
    have hnone : c.ring.isSome = false ∨ c.on F.FAB_ID_ID_VALID = false := by
      simpa [← Bool.not_eq_true, imp_iff_not_or] using hsends
    exact ⟨c.swc.p8in, sendNotice_drops hnone⟩

/-- While the Lockkeeper takes what reaches P8, the hub's own copy of a notice joins it. -/
theorem sendNotice_adds {p : Port} {broken : Bool} (hring : c.ring.isSome = true) (hid : c.on F.FAB_ID_ID_VALID = true)
    (htakes : c.get F.LKP_STATUS_STATE = 0) : (c.sendNotice p broken).swc.p8in.length = c.swc.p8in.length + 1 := by
  obtain ⟨g, hgroup, hsent⟩ := sendNotice_sends (p := p) (broken := broken) hring hid
  obtain ⟨l, hlen, htaken⟩ := toP8_adds (c := (c.draw 65536).2) (i := 8) (g := g) htakes
  rw [hsent, (noticeOut_keeps hgroup).p8in, htaken.p8in]
  exact hlen

end Sys2Proof.Machine
end

section
/-! Fabric time and discovery (04 R121, R122, R156 to R160; 14 R445): the commands of O28 that announce, elect and lock. -/

namespace Sys2Proof.Proofs

open Sys2Proof.Machine Sys2Proof.Safety

variable {s : State} {c d : Chip}

theorem timeKeyLapse_elects (s : State) (p : Port) : ∃ t, exec (.timeKeyLapse p) s = .next t ∧ coreOnly s t ∧
    t.hub.chip.fab.keys = upd s.hub.chip.fab.keys p (fun _ => none) ∧ wordsKept [F.FAB_TIME_STATUS.off, F.FAB_INT_STATUS.off] s t := by
  have helects := electMaster_elects (s.hub.chip.modFab fun f => { f with keys := upd f.keys p fun _ => none })
  exact ⟨_, onChip_eq_after (f := fun c => (c.modFab fun f => { f with keys := upd f.keys p fun _ => none }).electMaster) rfl, coreOnly_after _ _,
    (congrArg Fab.keys (after_fab _)).trans helects.keys, wordsKept_after helects.word⟩

/-- A hub that was locked, in holdover (R160). -/
def unlocked (c : Chip) : Chip :=
  (((c.flag F.FAB_INT_STATUS_TIME_UNLOCK).put F.FAB_TIME_STATUS_LOCKED 0).put F.FAB_TIME_STATUS_HOLDOVER 1).modFab fun f =>
    { f with syncTicks := 0 }

theorem unlockTime_of_locked (h : c.on F.FAB_TIME_STATUS_LOCKED = true) : c.unlockTime = unlocked c := by
  unfold Chip.unlockTime
  rw [when_pos h]
  rfl

theorem get_unlocked (c : Chip) : (unlocked c).get F.FAB_TIME_STATUS_LOCKED = 0 ∧ (unlocked c).get F.FAB_TIME_STATUS_HOLDOVER = 1 ∧
    (unlocked c).get F.FAB_INT_STATUS_TIME_UNLOCK = 1 := by
  obtain ⟨d, hd⟩ : ∃ d, d = c.flag F.FAB_INT_STATUS_TIME_UNLOCK := ⟨_, rfl⟩
  have hget : ∀ f, (unlocked c).get f = ((d.put F.FAB_TIME_STATUS_LOCKED 0).put F.FAB_TIME_STATUS_HOLDOVER 1).get f := fun f => hd ▸ rfl
  refine ⟨?_, ?_, ?_⟩
  · rw [hget, chip_get_put_apart _ _ _ _ rfl (by decide)]
    exact get_put_of_lt rfl (by decide)
  · rw [hget]
    exact get_put_of_lt rfl (by decide)
  · rw [hget, chip_get_put_apart _ _ _ _ rfl (by decide), chip_get_put_apart _ _ _ _ rfl (by decide), hd]
    exact get_flag_same rfl (by decide)

theorem fab_unlocked (c : Chip) : (unlocked c).fab = { c.fab with syncTicks := 0 } := rfl

theorem wordsKept_unlocked (c : Chip) : c.WordsKept [F.FAB_TIME_STATUS.off, F.FAB_INT_STATUS.off] (unlocked c) := by
  have hmember : F.FAB_TIME_STATUS.off ∈ [F.FAB_TIME_STATUS.off, F.FAB_INT_STATUS.off] := List.mem_cons_self
  have hflagged : c.WordsKept [F.FAB_TIME_STATUS.off, F.FAB_INT_STATUS.off] (c.flag F.FAB_INT_STATUS_TIME_UNLOCK) :=
    Chip.WordsKept.refl.flag (List.mem_cons_of_mem _ List.mem_cons_self)
  unfold unlocked
  exact .modFab (.put (.put hflagged hmember) hmember)

theorem upstreamTickTimeout_unlocks (hmaster : s.hub.chip.on F.FAB_TIME_STATUS_IS_MASTER = false)
    (hlocked : s.hub.chip.on F.FAB_TIME_STATUS_LOCKED = true) :
    ∃ t, exec (.upstreamTickTimeout) s = .next t ∧ coreOnly s t ∧ t.hub.chip.get F.FAB_TIME_STATUS_LOCKED = 0 ∧
      t.hub.chip.get F.FAB_TIME_STATUS_HOLDOVER = 1 ∧
      t.hub.chip.get F.FAB_INT_STATUS_TIME_UNLOCK = 1 ∧ t.hub.chip.fab = { s.hub.chip.fab with syncTicks := 0 } ∧
      wordsKept [F.FAB_TIME_STATUS.off, F.FAB_INT_STATUS.off] s t := by
  have hruns : s.hub.chip.when (!s.hub.chip.on F.FAB_TIME_STATUS_IS_MASTER) Chip.unlockTime = unlocked s.hub.chip :=
    (when_pos (by rw [hmaster]; rfl)).trans (unlockTime_of_locked hlocked)
  obtain ⟨hlock, hholds, hflag⟩ := get_unlocked s.hub.chip
  exact ⟨_, onChip_eq_after hruns, coreOnly_after _ _, (get_after_below _ (by decide)).trans hlock,
    (get_after_below _ (by decide)).trans hholds, (get_after_below _ (by decide)).trans hflag, (after_fab _).trans (fab_unlocked _),
    wordsKept_after (wordsKept_unlocked _)⟩

/-- What the start-of-frame of the host leaves: it is seen, and a master that takes its time from it is locked to it. -/
theorem hostSofLock_shows (x : SofSeen) (c : Chip) : (c.hostSofLock x).fab.hostSof = true ∧
    ((c.hostSofLock x).get F.FAB_TIME_STATUS_IS_MASTER = 1 ∧ (c.hostSofLock x).get F.FAB_TIME_STATUS_MASTER_SRC = 1 →
      (c.hostSofLock x).fab.sofLocked = true) := by
  obtain ⟨d, hd⟩ : ∃ d, d = (c.modFab fun f => { f with hostSof := true }).electMaster := ⟨_, rfl⟩
  have hseen : d.fab.hostSof = true := hd ▸ (electMaster_elects (c.modFab fun f => { f with hostSof := true })).sof.1
  by_cases hfollows : (d.on F.FAB_TIME_STATUS_IS_MASTER && d.on F.FAB_TIME_STATUS_MASTER_SRC) = true
  case neg =>
    have hsame : c.hostSofLock x = d := by
      unfold Chip.hostSofLock
      rw [← hd]
      exact if_pos (by rw [eq_false_of_ne_true hfollows]; rfl)
    rw [hsame]
    exact ⟨hseen, fun ⟨his, hsrc⟩ => absurd (Bool.and_eq_true_iff.mpr ⟨on_iff.mpr his, on_iff.mpr hsrc⟩) hfollows⟩
  case pos =>
    obtain ⟨first, hfirst⟩ : ∃ x, x = !d.fab.sofLocked := ⟨_, rfl⟩
    obtain ⟨ahead, hahead⟩ : ∃ y, y = x.offset + 8 * (d.get F.FAB_TIME_CFG_SOF_OFFSET : Int) := ⟨_, rfl⟩
    obtain ⟨e, he⟩ : ∃ e, e = (d.when (first && decide (10_000 < x.offset.natAbs)) (Chip.stepTime (-ahead))).when first fun c =>
      (c.put F.FAB_SOF_MAP_USB_FRAME x.usbFrame.toNat).put F.FAB_SOF_MAP_FRAME_LO (c.get F.FAB_FRAME % 2 ^ 21) := ⟨_, rfl⟩
    have hlocks : c.hostSofLock x = ((e.modFab fun f => { f with sofLocked := true }).steerBy ahead).when first fun c =>
        c.each c.mapList Chip.sendSofOffset := by
      unfold Chip.hostSofLock
      rw [← hd, he, hahead, hfirst]
      exact if_neg (by rw [hfollows]; decide)
    have hbefore : SofKept d e := he ▸ .when (.when .refl fun h => h.stepTime) fun h => h.put.put
    have hafter : SofKept (e.modFab fun f => { f with sofLocked := true }) (c.hostSofLock x) := by
      rw [hlocks]
      exact .when (SofKept.refl.steerBy) fun h => h.of_tables (TablesKept.refl.each fun h => h.sendSofOffset)
    exact ⟨hafter.1.trans (hbefore.1.trans hseen), fun _ => hafter.2⟩

theorem hostSofLock_locks (s : State) (x : SofSeen) : ∃ t, exec (.hostSofLock x) s = .next t ∧ coreOnly s t ∧ t.hub.chip.fab.hostSof = true ∧
    (t.hub.chip.get F.FAB_TIME_STATUS_IS_MASTER = 1 ∧ t.hub.chip.get F.FAB_TIME_STATUS_MASTER_SRC = 1 → t.hub.chip.fab.sofLocked = true) := by
  obtain ⟨hseen, hlocked⟩ := hostSofLock_shows x s.hub.chip
  refine ⟨_, onChip_eq_after rfl, coreOnly_after _ _, ?_, ?_⟩
  · rw [after_fab]
    exact hseen
  · rw [after_fab, get_after_below _ (by decide), get_after_below _ (by decide)]
    exact hlocked

theorem hostSofBreak_elects (s : State) : ∃ t, exec (.hostSofBreak) s = .next t ∧ coreOnly s t ∧
    t.hub.chip.fab.hostSof = false ∧ t.hub.chip.fab.sofLocked = false ∧ t.hub.chip.fab.keys = s.hub.chip.fab.keys ∧
    wordsKept [F.FAB_TIME_STATUS.off, F.FAB_INT_STATUS.off] s t := by
  have helects := electMaster_elects (s.hub.chip.modFab fun f => { f with hostSof := false, sofLocked := false })
  obtain ⟨hseen, hlocked⟩ := helects.sof
  exact ⟨_, onChip_eq_after (f := fun c => (c.modFab fun f => { f with hostSof := false, sofLocked := false }).electMaster) rfl,
    coreOnly_after _ _, (congrArg Fab.hostSof (after_fab _)).trans hseen, (congrArg Fab.sofLocked (after_fab _)).trans hlocked,
    (congrArg Fab.keys (after_fab _)).trans helects.keys, wordsKept_after helects.word⟩

/-! A master that is missed raises an alarm (14 R445). -/

/-- The count of raised alarms and its interrupt bit read as they did. -/
def RaisedKept (c d : Chip) : Prop := d.get F.ALM_RAISED = c.get F.ALM_RAISED ∧ d.get F.ALM_INT_STATUS_RAISED = c.get F.ALM_INT_STATUS_RAISED

namespace RaisedKept

variable {b : Chip}

theorem refl : RaisedKept c c := ⟨rfl, rfl⟩

theorem put {f : Field} {x : Nat} (h : RaisedKept b c)
    (hf : f.ok = true ∧ F.ALM_RAISED.apart f = true ∧ F.ALM_INT_STATUS_RAISED.apart f = true) : RaisedKept b (c.put f x) :=
  ⟨(chip_get_put_apart _ _ _ _ hf.1 hf.2.1).trans h.1, (chip_get_put_apart _ _ _ _ hf.1 hf.2.2).trans h.2⟩

theorem when {x : Bool} {f : Chip → Chip} (h : RaisedKept b c) (hf : ∀ {c}, RaisedKept b c → RaisedKept b (f c)) : RaisedKept b (c.when x f) := by
  cases x
  exacts [h, hf h]

theorem frame (h : RaisedKept b c) (hd : d.regs = c.regs) : RaisedKept b d := by
  unfold RaisedKept Chip.get
  rw [hd]
  exact h

theorem alarmCount (h : RaisedKept b c) : RaisedKept b c.alarmCount := by
  have hshown : ∀ {x y}, RaisedKept b ((c.put F.ALM_STATUS_PENDING x).put F.ALM_STATUS_HOLDS y) := (h.put (by decide)).put (by decide)
  fun_cases Chip.alarmCount
  · exact hshown.put (by decide)
  · exact hshown

theorem alarmWrite {i : Nat} {e : AlarmEntry} (h : RaisedKept b c) : RaisedKept b (c.alarmWrite i e) := (h.frame (by rfl)).alarmCount

theorem overflow (h : RaisedKept b c) : RaisedKept b ((c.inc F.ALM_OVERFLOW_DROP).flag F.ALM_INT_STATUS_OVERFLOW) :=
  RaisedKept.put (f := F.ALM_INT_STATUS_OVERFLOW) (x := 1) (h.put (by decide)) (by decide)

theorem alarmLog {e : AlarmEntry} (h : RaisedKept b c) : RaisedKept b (c.alarmLog e).2 := by
  fun_cases Chip.alarmLog
  · exact h.alarmWrite
  · exact h.alarmWrite.overflow
  · exact h.overflow

/-- A raised alarm is counted and flagged; what follows leaves both. -/
theorem raise (c : Chip) (r : AlarmReq) : RaisedKept ((c.inc F.ALM_RAISED).flag F.ALM_INT_STATUS_RAISED) (c.raise r) := by
  have hraised : ∀ {x y}, RaisedKept ((c.inc F.ALM_RAISED).flag F.ALM_INT_STATUS_RAISED) ((((c.inc F.ALM_RAISED).flag F.ALM_INT_STATUS_RAISED).when x
      fun c => c.put F.GLB_FAULT_STATUS_CRIT_ALARM 1).when y fun c => c.inc F.ALM_SUPPRESSED) :=
    (RaisedKept.refl.when fun h => h.put (by decide)).when fun h => h.put (by decide)
  have hlogged : ∀ {d : Chip} {e : AlarmEntry} {p : Option Nat × Chip}, RaisedKept ((c.inc F.ALM_RAISED).flag F.ALM_INT_STATUS_RAISED) d →
      d.alarmLog e = p → RaisedKept ((c.inc F.ALM_RAISED).flag F.ALM_INT_STATUS_RAISED) p.2 := fun h e => e ▸ h.alarmLog
  fun_cases Chip.raise
  · exact hraised.frame (by rfl)
  · next e => exact ((hlogged (hraised.frame (by rfl)) e).frame (by rfl)).alarmCount
  · next e => exact hlogged (hraised.frame (by rfl)) e
  · next e => exact hlogged (hraised.frame (by rfl)) e

end RaisedKept

theorem timeMasterAbsent_raises {id hops : Nat} (hfollowed : s.hub.chip.fab.followed = [(id, hops)])
    (hgone : ∀ p : Port, (s.hub.chip.fab.keys[p].map fun k => k.id) ≠ some id) :
    ∃ t, exec (.timeMasterAbsent) s = .next t ∧ coreOnly s t ∧ t.hub.chip.fab.followed = [] ∧
      t.hub.chip.get F.ALM_RAISED = (s.hub.chip.get F.ALM_RAISED + 1) % 2 ^ 32 ∧ t.hub.chip.get F.ALM_INT_STATUS_RAISED = 1 := by
  have hno : (ports.any fun p => (s.hub.chip.fab.keys[p].map fun k => k.id) == some id) = false :=
    List.any_eq_false.mpr fun p _ => by simpa using hgone p
  obtain ⟨r, hr⟩ : ∃ r : AlarmReq, s.hub.chip.masterAbsent = (s.hub.chip.modFab fun f => { f with followed := [] }).raise r := by
    refine ⟨{ code := 0x40, subject := some id, unit := 0xFF, hops := hops, loc := 0, detail := 0, cleared := false, witness := true }, ?_⟩
    unfold Chip.masterAbsent Chip.modFab
    simp only [hfollowed, List.filter_cons, List.filter_nil, hno, Bool.not_false, if_true, Bool.false_eq_true, if_false]
    rfl
  obtain ⟨hcount, hflag⟩ := RaisedKept.raise (s.hub.chip.modFab fun f => { f with followed := [] }) r
  refine ⟨_, onChip_eq_after hr, coreOnly_after _ _, ?_, ?_, ?_⟩
  · exact congrArg Fab.followed ((after_fab _).trans (TablesKept.refl.raise).fab)
  · refine ((get_after _ _ (by decide)).trans hcount).trans ?_
    exact (chip_get_flag_apart _ _ _ rfl (by decide)).trans (chip_get_put _ _ _ rfl)
  · exact ((get_after _ _ (by decide)).trans hflag).trans (get_flag_same rfl (by decide))

/-! Announcements (R121, R122). -/

/-- An announcement adds one barge for each of its ports to what P8 sends; the registers and the forwarding state stay. -/
theorem announce_adds (a : Announce) (l : List Port) (c : Chip) : (c.announce a l).swc.p8out.length = c.swc.p8out.length + l.length ∧
    (c.announce a l).regs = c.regs ∧ (c.announce a l).fab = c.fab := by
  unfold Chip.announce Chip.each
  induction l generalizing c with
  | nil => exact ⟨rfl, rfl, rfl⟩
  | cons p l ih =>
    rw [List.foldl_cons]
    obtain ⟨hlen, hregs, hfab⟩ := ih _
    exact ⟨hlen.trans (by simp [Chip.modSwc]; omega), hregs, hfab⟩

theorem discoveryAnnounceTx_announces (hrun : s.hub.chip.lkRun = true) :
    ∃ t, exec (.discoveryAnnounceTx) s = .next t ∧ coreOnly s t ∧ t.hub.chip.fab.annSeq = (s.hub.chip.fab.annSeq + 1) % 65536 ∧
      t.hub.chip.swc.p8out.length = s.hub.chip.swc.p8out.length + s.hub.chip.admittedPorts.length ∧ wordsKept [] s t := by
  obtain ⟨a, l, ha⟩ : ∃ a l, s.hub.chip.announceOwn =
      (s.hub.chip.modFab fun f => { f with annSeq := (s.hub.chip.fab.annSeq + 1) % 65536, annSeen := l }).announce a s.hub.chip.admittedPorts :=
    ⟨_, _, rfl⟩
  obtain ⟨hlen, hregs, hfab⟩ := announce_adds a s.hub.chip.admittedPorts
    (s.hub.chip.modFab fun f => { f with annSeq := (s.hub.chip.fab.annSeq + 1) % 65536, annSeen := l })
  refine ⟨_, onChip_eq_after ((when_pos hrun).trans ha), coreOnly_after _ _, ?_, ?_, wordsKept_after fun o _ => congrArg (RegFile.word · o) hregs⟩
  · exact congrArg Fab.annSeq ((after_fab _).trans hfab)
  · rw [after_swc]
    exact hlen

/-- A duplicate of the own ID shows, whether or not it was known. -/
theorem get_duplicateId (c : Chip) : c.duplicateId.get F.FAB_STATUS_DUP = 1 ∧ c.duplicateId.get F.FAB_INT_STATUS_DUP_ID = 1 := by
  by_cases hknown : c.on F.FAB_STATUS_DUP = true
  case pos =>
    rw [show c.duplicateId = c.flag F.FAB_INT_STATUS_DUP_ID from if_pos hknown]
    exact ⟨(chip_get_flag_apart _ _ _ rfl (by decide)).trans (on_iff.mp hknown), get_flag_same rfl (by decide)⟩
  case neg =>
    obtain ⟨d, hd⟩ : ∃ d, d = (c.put F.FAB_STATUS_DUP 1).put F.FAB_STATUS_ISOLATED 1 := ⟨_, rfl⟩
    have hnew : c.duplicateId = (d.flag F.FAB_INT_STATUS_DUP_ID).raiseOwn 0x08 0xFF 0 := hd ▸ if_neg hknown
    have hraised : TablesKept (d.flag F.FAB_INT_STATUS_DUP_ID) c.duplicateId := hnew ▸ TablesKept.refl.raiseOwn
    have hdup : d.get F.FAB_STATUS_DUP = 1 := by
      rw [hd, chip_get_put_apart _ _ _ _ rfl (by decide)]
      exact get_put_of_lt rfl (by decide)
    exact ⟨(hraised.get (by decide) (by decide)).trans ((chip_get_flag_apart _ _ _ rfl (by decide)).trans hdup),
      (hraised.get (by decide) (by decide)).trans (get_flag_same rfl (by decide))⟩

section
variable {p : Port} {a : Announce} (hrun : s.hub.chip.lkRun = true)
  (hnew : (a.hub.toNat, a.serial.toNat, a.seq.toNat) ∉ s.hub.chip.fab.annSeen)
include hrun hnew

/-- A new announcement is noted and relayed; where it names the own hub with another serial number, the duplicate is noted too. -/
theorem announceRx_relays : (s.hub.chip.when s.hub.chip.lkRun (Chip.announceRx p a)) =
    ((s.hub.chip.modFab fun f => { f with annSeen := f.annSeen ++ [(a.hub.toNat, a.serial.toNat, a.seq.toNat)] }).announce a
      (s.hub.chip.admittedPorts.filter fun q => q != p)).when
      (s.hub.chip.ownId == some a.hub.toNat && s.hub.chip.serial != a.serial.toNat) Chip.duplicateId := by
  obtain ⟨d, hd⟩ : ∃ d, d = (s.hub.chip.modFab fun f => { f with annSeen := f.annSeen ++ [(a.hub.toNat, a.serial.toNat, a.seq.toNat)] }).announce a
    (s.hub.chip.admittedPorts.filter fun q => q != p) := ⟨_, rfl⟩
  have hregs : d.regs = s.hub.chip.regs := hd ▸ (announce_adds a _ _).2.1
  have hown : d.ownId = s.hub.chip.ownId := by
    unfold Chip.ownId Chip.on Chip.get
    rw [hregs]
  have hserial : d.serial = s.hub.chip.serial := by simp only [Chip.serial, Chip.get, hregs]
  rw [when_pos hrun, ← hd, ← hown, ← hserial, hd]
  unfold Chip.announceRx
  exact if_neg (by simpa using hnew)

theorem discoveryAnnounceRx_relays (hother : s.hub.chip.ownId ≠ some a.hub.toNat ∨ s.hub.chip.serial = a.serial.toNat) :
    ∃ t, exec (.discoveryAnnounceRx p a) s = .next t ∧ coreOnly s t ∧
      t.hub.chip.fab = { s.hub.chip.fab with annSeen := s.hub.chip.fab.annSeen ++ [(a.hub.toNat, a.serial.toNat, a.seq.toNat)] } ∧
      t.hub.chip.swc.p8out.length = s.hub.chip.swc.p8out.length + (s.hub.chip.admittedPorts.filter fun q => q != p).length ∧
      wordsKept [] s t := by
  have hunique : (s.hub.chip.ownId == some a.hub.toNat && s.hub.chip.serial != a.serial.toNat) = false := by
    rcases hother with hown | hserial
    · simp [hown]
    · simp [hserial]
  obtain ⟨hlen, hregs, hfab⟩ := announce_adds a (s.hub.chip.admittedPorts.filter fun q => q != p)
    (s.hub.chip.modFab fun f => { f with annSeen := f.annSeen ++ [(a.hub.toNat, a.serial.toNat, a.seq.toNat)] })
  refine ⟨_, onChip_eq_after ((announceRx_relays hrun hnew).trans (when_neg hunique)), coreOnly_after _ _, (after_fab _).trans hfab, ?_,
    wordsKept_after fun o _ => congrArg (RegFile.word · o) hregs⟩
  rw [after_swc]
  exact hlen

/-- A detected duplicate shows in FAB_STATUS and its interrupt bit (R122). -/
theorem discoveryAnnounceRx_detects (hown : s.hub.chip.ownId = some a.hub.toNat) (hserial : s.hub.chip.serial ≠ a.serial.toNat) :
    ∃ t, exec (.discoveryAnnounceRx p a) s = .next t ∧ coreOnly s t ∧ t.hub.chip.get F.FAB_STATUS_DUP = 1 ∧
      t.hub.chip.get F.FAB_INT_STATUS_DUP_ID = 1 := by
  have htwin : (s.hub.chip.ownId == some a.hub.toNat && s.hub.chip.serial != a.serial.toNat) = true := by simp [hown, hserial]
  obtain ⟨hdup, hflag⟩ := get_duplicateId ((s.hub.chip.modFab fun f =>
    { f with annSeen := f.annSeen ++ [(a.hub.toNat, a.serial.toNat, a.seq.toNat)] }).announce a (s.hub.chip.admittedPorts.filter fun q => q != p))
  exact ⟨_, onChip_eq_after ((announceRx_relays hrun hnew).trans (when_pos htwin)), coreOnly_after _ _,
    (get_after_below _ (by decide)).trans hdup, (get_after_below _ (by decide)).trans hflag⟩

end

end Sys2Proof.Proofs
end

section
/-! Routability and route notices (04 R149 to R154, R526): the rest of O28. -/

namespace Sys2Proof.Proofs

open Sys2Proof.Machine Sys2Proof.Safety

variable {s : State} {c : Chip} {b : Barge} {p : Port} {i : Nat}

/-- A bit of the forwarding block's state reads after a command of the core as the command left it. -/
theorem bit_after {d : Chip} {f : Field} {n : Nat} (hn : n < f.width) (hf : f.off < fabCounters) : (s.after d).hub.chip.bit f n = d.bit f n :=
  bit_of_get hn (get_after_below _ hf)

/-- A command of the core that acts under a condition, where the condition holds. -/
theorem onChip_when_eq_after (x : Chip → Bool) (f : Chip → Chip) {d : Chip} (hx : x s.hub.chip = true) (hd : f s.hub.chip = d) :
    s.onChip (fun c => c.when (x c) f) = .next (s.after d) := onChip_eq_after ((when_pos hx).trans hd)

theorem portRoutabilityLoss_walks (hroutable : s.hub.chip.routable p = true) :
    ∃ t, exec (.portRoutabilityLoss p) s = .next t ∧ coreOnly s t ∧ t.hub.chip.routable p = false ∧
      t.hub.chip.fab.walking[p] = some s.hub.chip.masks ∧ t.hub.chip.fab.ownLost[p] = true ∧ t.hub.chip.fab.hadLoss[p] = true ∧
      t.hub.chip.get F.FAB_INT_STATUS_PROTECT = 1 := by
  obtain ⟨hlost, hfab, hflag⟩ := routabilityLost_shows p s.hub.chip
  refine ⟨_, onChip_when_eq_after (fun c => c.routable p) (Chip.routabilityLost p) hroutable rfl, coreOnly_after _ _, ?_, ?_, ?_, ?_,
    (get_after_below _ (by decide)).trans hflag⟩
  · exact (bit_after (f := F.FAB_STATUS_ROUTABLE) p.isLt (by decide)).trans hlost
  all_goals
    rw [after_fab, hfab]
    exact upd_same _ _ _

theorem routeNoticeTx_reaches (hlost : s.hub.chip.fab.ownLost[p] = true) (hring : s.hub.chip.ring.isSome = true)
    (hid : s.hub.chip.on F.FAB_ID_ID_VALID = true) (htakes : s.hub.chip.get F.LKP_STATUS_STATE = 0) :
    ∃ t, exec (.routeNoticeTx p) s = .next t ∧ coreOnly s t ∧ t.hub.chip.swc.p8in.length = s.hub.chip.swc.p8in.length + 1 := by
  refine ⟨_, onChip_when_eq_after (fun c => c.fab.ownLost[p]) (fun c => c.sendNotice p true) hlost rfl, coreOnly_after _ _, ?_⟩
  rw [after_swc]
  exact sendNotice_adds hring hid htakes

/-- A notice of the own ring, about a link that the hub has not lost itself, sets or clears its bit (R152). -/
theorem takeNotice_of_link (hid : (b.hdr.tspec.extractLsb' 4 8).toNat = c.get F.FAB_RING_RING_ID) (hring : c.ring.isSome = true)
    (hspur : b.hdr.tspec.getLsbD 13 = false) (hi : i = (b.hdr.tspec.extractLsb' 14 6).toNat) (hown : ∀ q : Port, c.fab.ownLost[q] = false) :
    c.takeNotice b = (true, c.setProtection false i (b.hdr.tspec.getLsbD 12)) := by
  have hforeign : (ports.any fun p => c.fab.ownLost[p] && c.ownProtection p == some (false, i)) = false :=
    List.any_eq_false.mpr fun q _ => by simp [hown q]
  unfold Chip.takeNotice
  simp only [hid, hspur, ← hi, hforeign, Option.isNone_eq_false_iff.mpr hring, bne_self_eq_false, Bool.false_eq_true, if_false]

theorem routeNoticeRx_takes (hmcast : b.hdr.mcast = true) (hgroup : b.hdr.tunnel.toNat % 256 = 255) (htype : b.hdr.type.toNat = typeAlarm)
    (hvalid : s.hub.chip.on F.FAB_ID_ID_VALID = true) (hsrc : b.hdr.src.toNat ≠ s.hub.chip.get F.FAB_ID_HUB_ID)
    (hring : s.hub.chip.ring.isSome = true) (hid : (b.hdr.tspec.extractLsb' 4 8).toNat = s.hub.chip.get F.FAB_RING_RING_ID)
    (hspur : b.hdr.tspec.getLsbD 13 = false) (hi : i = (b.hdr.tspec.extractLsb' 14 6).toNat)
    (hown : ∀ q : Port, s.hub.chip.fab.ownLost[q] = false) :
    ∃ t, exec (.routeNoticeRx p b) s = .next t ∧ coreOnly s t ∧ t.hub.chip.bit (F.FAB_BROKEN (i / 32)) (i % 32) = b.hdr.tspec.getLsbD 12 := by
  have hnotice : (b.hdr.mcast && b.hdr.tunnel.toNat % 256 == 255 && b.hdr.type.toNat == typeAlarm) = true := by
    rw [hmcast, hgroup, htype]
    rfl
  have hlookup : s.hub.chip.trunkLookup p b =
      (s.hub.chip.setProtection false i (b.hdr.tspec.getLsbD 12)).replicate b p.val false none none := by
    unfold Chip.trunkLookup
    simp only [htype, hvalid, hmcast, hgroup, takeNotice_of_link hid hring hspur hi hown]
    simp [hsrc, typeAlarm, typeLctl]
  have hlt : i < 64 := hi ▸ (b.hdr.tspec.extractLsb' 14 6).isLt
  have hmod := Nat.mod_lt i (show 32 > 0 by omega)
  have hoff := protection_off (spur := false) hlt
  refine ⟨_, onChip_when_eq_after (fun _ => _) (Chip.trunkLookup p b) hnotice hlookup, coreOnly_after _ _, ?_⟩
  refine (bit_after (f := protection false i) hmod (Nat.lt_trans hoff.2 (by decide))).trans ?_
  refine (bit_of_get (f := protection false i) hmod ?_).trans (bit_setProtection (c := s.hub.chip) hlt)
  exact (TablesKept.refl.replicateNotice hgroup).get (Nat.le_trans (by decide) hoff.1) (Nat.lt_trans hoff.2 (by decide))

theorem routeNoticeAgeExpiry_clears {i : BitVec 6} (hown : ∀ q : Port, s.hub.chip.fab.ownLost[q] = false)
    (hbroken : s.hub.chip.bit (F.FAB_BROKEN (i.toNat / 32)) (i.toNat % 32) = true) :
    ∃ t, exec (.routeNoticeAgeExpiry false i) s = .next t ∧ coreOnly s t ∧
      t.hub.chip.bit (F.FAB_BROKEN (i.toNat / 32)) (i.toNat % 32) = false ∧
      t.hub.chip.get F.FAB_INT_STATUS_RING_NOTICE = 1 ∧ wordsKept [(F.FAB_BROKEN (i.toNat / 32)).off, F.FAB_INT_STATUS.off] s t := by
  have hforeign : (!(ports.any fun p => s.hub.chip.fab.ownLost[p] && s.hub.chip.ownProtection p == some (false, i.toNat))) = true := by
    rw [List.any_eq_false.mpr fun q _ => by simp [hown q]]
    rfl
  have hmod := Nat.mod_lt i.toNat (show 32 > 0 by omega)
  have hoff := protection_off (spur := false) i.isLt
  have hset : s.hub.chip.setProtection false i.toNat false =
      (s.hub.chip.putBit (protection false i.toNat) (i.toNat % 32) false).flag F.FAB_INT_STATUS_RING_NOTICE := by
    rcases setProtection_cases s.hub.chip false i.toNat false with ⟨hclear, -⟩ | hset
    · exact absurd (hclear.symm.trans hbroken) (by decide)
    · exact hset
  refine ⟨_, onChip_when_eq_after
    (fun c => !(ports.any fun p => c.fab.ownLost[p] && c.ownProtection p == some (false, i.toNat))) (fun c => c.setProtection false i.toNat false)
    hforeign rfl, coreOnly_after _ _, ?_, ?_, wordsKept_after ?_⟩
  · exact (bit_after (f := protection false i.toNat) hmod (Nat.lt_trans hoff.2 (by decide))).trans (bit_setProtection i.isLt)
  · rw [get_after_below _ (by decide), hset]
    exact get_flag_same rfl (by decide)
  · rw [hset]
    exact .flag (.put .refl List.mem_cons_self) (List.mem_cons_of_mem _ List.mem_cons_self)

theorem wtrExpiry_restores (hrun : s.hub.chip.bit F.FAB_STATUS_WTR_RUN p.val = true) :
    ∃ t, exec (.wtrExpiry p) s = .next t ∧ coreOnly s t ∧ t.hub.chip.routable p = true ∧
      t.hub.chip.bit F.FAB_STATUS_WTR_RUN p.val = false ∧ t.hub.chip.fab.hadLoss[p] = false ∧
      t.hub.chip.fab.ownLost[p] = false ∧ t.hub.chip.fab.restoreLeft[p] = (if s.hub.chip.ring.isSome then 2 else 0) := by
  have hp := p.isLt
  obtain ⟨c1, h1⟩ : ∃ c, c = s.hub.chip.putBit F.FAB_STATUS_WTR_RUN p.val false := ⟨_, rfl⟩
  obtain ⟨hroutable, hfab, hget⟩ := routabilityGained_shows p c1
  obtain ⟨c3, h3⟩ : ∃ c, c = (c1.routabilityGained p).modFab fun f => { f with
    hadLoss := upd f.hadLoss p fun _ => false
    restoreLeft := upd f.restoreLeft p fun _ => if (c1.routabilityGained p).ring.isSome then 2 else 0 } := ⟨_, rfl⟩
  obtain ⟨l, hsent⟩ := sendNotice_keeps c3 p false
  have hruns : s.hub.chip.wtrExpiry p = c3.sendNotice p false := by
    rw [h3, h1]
    rfl
  have hring : (c1.routabilityGained p).ring = s.hub.chip.ring := ring_of_get fun lo w => by
    refine (hget ⟨F.FAB_RING_RING_SIZE.off, lo, w⟩ (show F.FAB_RING_RING_SIZE.off < 0x5_F018 by decide)
      (apart_of_off (show F.FAB_RING_RING_SIZE.off ≠ F.FAB_STATUS_ROUTABLE.off by decide))).trans ?_
    rw [h1]
    refine chip_get_put_apart _ _ _ _ (decide_eq_true ?_) (apart_of_off (show F.FAB_RING_RING_SIZE.off ≠ F.FAB_STATUS_WTR_RUN.off by decide))
    simp only [F.FAB_STATUS_WTR_RUN]
    omega
  have hword : ∀ {f : Field}, f.off = F.FAB_STATUS_ROUTABLE.off → (c3.sendNotice p false).get f = (c1.routabilityGained p).get f :=
      fun {f} hf => by
    have hthree : c3.get f = (c1.routabilityGained p).get f := h3 ▸ rfl
    exact (hsent.get (hf ▸ by decide) (hf ▸ by decide)).trans hthree
  refine ⟨_, onChip_when_eq_after (fun c => c.bit F.FAB_STATUS_WTR_RUN p) (Chip.wtrExpiry p) hrun hruns, coreOnly_after _ _, ?_, ?_, ?_, ?_, ?_⟩
  · refine (bit_after (f := F.FAB_STATUS_ROUTABLE) hp (by decide)).trans ?_
    exact (bit_of_get (f := F.FAB_STATUS_ROUTABLE) hp (hword rfl)).trans hroutable
  · refine (bit_after (f := F.FAB_STATUS_WTR_RUN) hp (by decide)).trans ?_
    have hstopped : c1.bit F.FAB_STATUS_WTR_RUN p.val = false := h1 ▸ bit_putBit hp (by simp only [F.FAB_STATUS_WTR_RUN]; omega)
    refine (bit_of_get (f := F.FAB_STATUS_WTR_RUN) hp ((hword (f := ⟨F.FAB_STATUS_WTR_RUN.off, F.FAB_STATUS_WTR_RUN.lo + p.val, 1⟩) rfl).trans
      (hget _ (show F.FAB_STATUS_WTR_RUN.off < 0x5_F018 by decide) (apart_of_bits (.inr ?_))))).trans hstopped
    simp only [F.FAB_STATUS_WTR_RUN, F.FAB_STATUS_ROUTABLE]
    omega
  · rw [after_fab, hsent.fab, h3]
    exact upd_same _ _ _
  · rw [after_fab, hsent.fab, h3]
    exact (congrArg (fun f : Fab => f.ownLost[p]) hfab).trans (upd_same _ _ _)
  · rw [after_fab, hsent.fab, h3, ← hring]
    exact upd_same _ _ _

theorem restoreNoticeRepeat_counts (hleft : s.hub.chip.fab.restoreLeft[p] ≠ 0) :
    ∃ t, exec (.restoreNoticeRepeat p) s = .next t ∧ coreOnly s t ∧
      t.hub.chip.fab.restoreLeft[p] = s.hub.chip.fab.restoreLeft[p] - 1 := by
  obtain ⟨l, hsent⟩ := sendNotice_keeps (s.hub.chip.modFab fun f => { f with restoreLeft := upd f.restoreLeft p fun n => n - 1 }) p false
  refine ⟨_, onChip_when_eq_after (fun c => c.fab.restoreLeft[p] != 0)
    (fun c => (c.modFab fun f => { f with restoreLeft := upd f.restoreLeft p fun n => n - 1 }).sendNotice p false) (bne_iff_ne.mpr hleft) rfl,
    coreOnly_after _ _, ?_⟩
  rw [after_fab, hsent.fab]
  exact upd_same _ _ _

/-- Settles O28, clause by clause: elections and holdover write TIME_STATUS and its interrupt bits; announcements and notices leave by P8 and
the queues, which keep the forwarding block's tables and state. -/
theorem timeDiscoveryAndRing : Obligations.TimeDiscoveryAndRing := by
  unfold Obligations.TimeDiscoveryAndRing
  exact ⟨timeKeyLapse_elects, fun _ hmaster hlocked => upstreamTickTimeout_unlocks hmaster hlocked, hostSofLock_locks, hostSofBreak_elects,
    fun _ _ _ hfollowed hgone => timeMasterAbsent_raises hfollowed hgone, fun _ hrun => discoveryAnnounceTx_announces hrun,
    fun _ _ _ hrun hnew hother => discoveryAnnounceRx_relays hrun hnew hother,
    fun _ _ _ hrun hnew hown hserial => discoveryAnnounceRx_detects hrun hnew hown hserial,
    fun _ _ hroutable => portRoutabilityLoss_walks hroutable, fun _ _ hlost hring hid htakes => routeNoticeTx_reaches hlost hring hid htakes,
    fun _ _ _ _ hmcast hgroup htype hvalid hsrc hring hid hspur hi hown =>
      routeNoticeRx_takes hmcast hgroup htype hvalid hsrc hring hid hspur hi hown,
    fun _ _ hown hbroken => routeNoticeAgeExpiry_clears hown hbroken, fun _ _ hrun => wtrExpiry_restores hrun,
    fun _ _ hleft => restoreNoticeRepeat_counts hleft⟩

end Sys2Proof.Proofs
end

section
/-! What the frame tick's work leaves of fabric time (04 R155; 06 R216): everything but time itself keeps FRAME, SUBNS and the model's
count. -/

namespace Sys2Proof.Machine

open Sys2Proof.Safety

/-- FRAME, SUBNS and the model's time are as they were. -/
structure TickKept (c d : Chip) : Prop where
  word : d.regs.word F.FAB_FRAME.off = c.regs.word F.FAB_FRAME.off
  now : d.now = c.now
  subns : d.subns = c.subns

/-- The field lies in another word than FAB_FRAME. -/
abbrev besideFrame (f : Field) : Prop := f.off ≠ F.FAB_FRAME.off

theorem besideFrame_add {base k lo width : Nat} (h : F.FAB_FRAME.off < base) : besideFrame ⟨base + k, lo, width⟩ :=
  Nat.ne_of_gt (Nat.lt_add_right k h)

namespace TickKept

variable {b c d : Chip}

theorem refl : TickKept c c := ⟨rfl, rfl, rfl⟩

theorem frame (h : TickKept b c) (hd : (d.regs, d.now, d.subns) = (c.regs, c.now, c.subns)) : TickKept b d := by
  simp only [Prod.mk.injEq] at hd
  obtain ⟨hregs, hnow, hsubns⟩ := hd
  exact ⟨hregs ▸ h.word, hnow ▸ h.now, hsubns ▸ h.subns⟩

theorem tables (h : TickKept b c) (hd : TablesKept c d) : TickKept b d :=
  ⟨(hd.word _ (by decide) (by decide)).trans h.word, hd.now.trans h.now, hd.subns.trans h.subns⟩

theorem of_eq {α : Type} {p : α × Chip} {a : α} (hp : TickKept b p.2) (e : p = (a, d)) : TickKept b d := by
  subst e
  exact hp

theorem when {x : Bool} {f : Chip → Chip} (h : TickKept b c) (hf : ∀ {c}, TickKept b c → TickKept b (f c)) : TickKept b (c.when x f) := by
  cases x
  exacts [h, hf h]

theorem ite {p : Prop} [Decidable p] (h : TickKept b c) (hd : TickKept b d) : TickKept b (if p then c else d) := by
  split
  exacts [h, hd]

theorem each {α : Type} {l : List α} {f : α → Chip → Chip} (h : TickKept b c) (hf : ∀ {a c}, TickKept b c → TickKept b (f a c)) :
    TickKept b (c.each l f) := chip_each_keeps (TickKept b) l f c h fun _ _ hd => hf hd

theorem put {f : Field} {x : Nat} (h : TickKept b c) (hf : besideFrame f) : TickKept b (c.put f x) :=
  ⟨(word_put _ _ _ _ (Ne.symm hf)).trans h.word, h.now, h.subns⟩

theorem putBit {f : Field} {n : Nat} {x : Bool} (h : TickKept b c) (hf : besideFrame f) : TickKept b (c.putBit f n x) := h.put hf

theorem flag {f : Field} (h : TickKept b c) (hf : besideFrame f) : TickKept b (c.flag f) := (h.put hf).frame rfl

theorem inc {f : Field} (h : TickKept b c) (hf : besideFrame f) : TickKept b (c.inc f) := h.put hf

theorem modFab {f : Fab → Fab} (h : TickKept b c) : TickKept b (c.modFab f) := h.frame rfl
theorem modSwc {f : Swc → Swc} (h : TickKept b c) : TickKept b (c.modSwc f) := h.frame rfl
theorem modAlm {f : Alm → Alm} (h : TickKept b c) : TickKept b (c.modAlm f) := h.frame rfl
theorem modFld {f : Fld → Fld} (h : TickKept b c) : TickKept b (c.modFld f) := h.frame rfl
theorem modPwr {f : Pwr → Pwr} (h : TickKept b c) : TickKept b (c.modPwr f) := h.frame rfl
theorem modPcs {p : Port} {f : Pcs → Pcs} (h : TickKept b c) : TickKept b (c.modPcs p f) := h.frame rfl
theorem modLane {p : Port} {l : LaneId} {f : PcsLane → PcsLane} (h : TickKept b c) : TickKept b (c.modLane p l f) := h.frame rfl
theorem modTrk {p : Port} {f : Trk → Trk} (h : TickKept b c) : TickKept b (c.modTrk p f) := h.frame rfl
theorem modTp {p : Port} {f : Tp → Tp} (h : TickKept b c) : TickKept b (c.modTp p f) := h.frame rfl
theorem emit {o : Out} (h : TickKept b c) : TickKept b (c.emit o) := h.frame rfl
theorem draw {n : Nat} (h : TickKept b c) : TickKept b (c.draw n).2 := h.frame rfl

theorem withBud {x : Bud} (h : TickKept b c) : TickKept b { c with bud := x } := ⟨h.word, h.now, h.subns⟩

/-! Alarms that go out (14 R449). -/

theorem atomicRefused {g : Barge} {i n : Nat} {l : List Desc} (h : TickKept b c) : TickKept b (c.atomicRefused g i n l) := by
  unfold Chip.atomicRefused
  have hcounted : TickKept b ((c.inc F.FAB_MC_ATOMIC_REFUSED).sampleDrop g i 9 ((l.head?.map (·.tun)).getD none) none (outBits l)) :=
    h.tables (TablesKept.refl.inc (by decide)).sample
  exact .ite hcounted (.tables hcounted.modFab TablesKept.refl.sendTackTo)

theorem replicate {g : Barge} {i : Nat} {origin : Bool} {orig : Option (Nat × Nat)} {weir : Option Nat} (h : TickKept b c) :
    TickKept b (c.replicate g i origin orig weir) := by
  have hgone : ∀ {c : Chip} {x : Bool} {stamp : Option (Nat × Nat)}, TickKept b c →
      TickKept b (c.when x fun c => c.dropAt F.FAB_ISO_DROP g i 14 stamp none) := fun h =>
    h.when fun h => h.tables (TablesKept.refl.dropAt (by decide))
  have hinspected : ∀ {x : Bool}, TickKept b (c.when x (Chip.inspectAlarm g)) := h.when fun h => h.tables TablesKept.refl.inspectAlarm
  have hrefused : ∀ {c : Chip} {e : Desc}, TickKept b c → TickKept b (c.refuseCopy g e) := fun h => h.tables TablesKept.refl.refuseCopy
  unfold Chip.replicate
  refine .ite (h.tables (TablesKept.refl.dropAt (besideTables_add (by decide)))) (.ite (hgone hinspected.atomicRefused)
    (.ite (hgone (hinspected.each fun h => hrefused h)) (hgone ?_)))
  refine .tables (.each (.ite ?_ (.each (.ite ?_ ?_) fun h => hrefused h)) fun h => hrefused h) TablesKept.refl.sampleAt
  · exact .atomicRefused (hinspected.tables TablesKept.refl.judge)
  · exact hinspected.tables TablesKept.refl.judge
  · exact hinspected.tables TablesKept.refl.judge.enqueue

theorem hold {i : Nat} {x : HeldBarge} (h : TickKept b c) : TickKept b (c.hold i x) := (h.inc (besideFrame_add (by decide))).modSwc

theorem admitOne {g : Barge} {e : Desc} {retain : Option Nat} {counted : Bool} (h : TickKept b c) :
    TickKept b (c.admitOne g e retain counted).2 := by
  fun_cases Chip.admitOne
  · exact ((h.put (besideFrame_add (by decide))).flag (by decide)).hold
  · exact (((h.tables TablesKept.refl.judge).of_eq ‹_›).tables TablesKept.refl.enqueue).of_eq ‹_›
  · exact ((h.tables TablesKept.refl.judge).of_eq ‹_›).hold
  · exact ((h.tables TablesKept.refl.judge).of_eq ‹_›).tables TablesKept.refl.countRefused.sample

theorem offerOne {g : Barge} {e : Desc} {retain : Option Nat} (h : TickKept b c) : TickKept b (c.offerOne g e retain).2 := by
  unfold Chip.offerOne
  dsimp only
  exact .tables h.admitOne TablesKept.refl.sampleAt

theorem forward {g : Barge} {i : Nat} (h : TickKept b c) : TickKept b (c.forward g i) := by
  fun_cases Chip.forward
  · exact h.tables (TablesKept.refl.dropAt (by decide))
  · exact h.tables (TablesKept.refl.dropAt (besideTables_add (by decide)))
  · exact h.offerOne

/-- An alarm of the own hub is queued toward P8, replicated or forwarded. -/
theorem lockkeeperAlarm {g : Barge} {out : Option Port} (htype : g.hdr.type.toNat = typeAlarm) (h : TickKept b c) :
    TickKept b (c.lockkeeperBarge g out) := by
  have hown : TickKept b (c.deliverOwn g 8) := by
    unfold Chip.deliverOwn
    simp only [htype]
    exact (h.tables TablesKept.refl.inspectAlarm).offerOne
  unfold Chip.lockkeeperBarge
  rw [if_neg (by rw [htype]; decide)]
  refine .ite (h.tables (TablesKept.refl.dropAt (by decide))) (.ite (h.tables (TablesKept.refl.dropAt (by decide)))
    (.ite h.replicate (.ite hown h.forward)))

theorem modAlarm {i : Nat} {f : AlarmEntry → AlarmEntry} (h : TickKept b c) : TickKept b (c.modAlarm i f) := by
  fun_cases Chip.modAlarm
  · exact h.modAlm.tables TablesKept.refl.alarmCount
  · exact h

theorem sendAlarmTo {i : Nat} {l : List (Bool × Nat)} (h : TickKept b c) : TickKept b (c.sendAlarmTo i l) := by
  induction l generalizing c with
  | nil => exact h.modAlarm
  | cons x l ih =>
    unfold Chip.sendAlarmTo
    split
    · exact h
    · refine .ite (ih ?_) ?_
      · exact .modAlarm (.modAlm (.inc (.lockkeeperAlarm rfl (h.draw (n := 65536))) (by decide)))
      · exact (h.when fun h => h.inc (by decide)).modAlarm

theorem sendAlarm {i : Nat} (h : TickKept b c) : TickKept b (c.sendAlarm i) := by
  fun_cases Chip.sendAlarm
  · exact h.when fun h => (h.inc (by decide)).modAlarm
  · exact h.sendAlarmTo
  · exact h

theorem alarmTick (h : TickKept b c) : TickKept b c.alarmTick := by
  unfold Chip.alarmTick
  generalize (c.modAlm _).alarmsDue = l
  exact h.modAlm.when fun h => h.each fun h => h.sendAlarm

/-! Route notices (04 R151). -/

theorem sendNotice {p : Port} {x : Bool} (h : TickKept b c) : TickKept b (c.sendNotice p x) := by
  obtain ⟨l, hsent⟩ := sendNotice_keeps c p x
  exact h.modSwc.tables hsent

theorem repeatNotices (h : TickKept b c) : TickKept b c.repeatNotices := h.each fun h => h.when fun h => h.sendNotice

/-! TICK blocks (03 R102). -/

theorem laneJoined {p : Port} {l : LaneId} (h : TickKept b c) : TickKept b (c.laneJoined p l) := by
  have hlane : besideFrame (laneState p l) ∧ besideFrame (F.TRK_INT_STATUS_LANE_JOIN p) ∧ besideFrame (laneRxLock p l) ∧
      besideFrame (laneLos p l) := by
    revert p l
    decide
  obtain ⟨hstate, hjoin, hlock, hlos⟩ := hlane
  unfold Chip.laneJoined
  exact .when ((((h.put hstate).flag hjoin).put hlock).put hlos).modTrk fun h => h.tables TablesKept.refl.raise

theorem laneChangeDue {p : Port} (h : TickKept b c) : TickKept b (c.laneChangeDue p) := by
  have hlane : besideFrame (F.TRK_STATUS_LANES p) ∧ besideFrame (laneState p 1) := by
    revert p
    decide
  unfold Chip.laneChangeDue
  split
  · exact h
  · refine .ite ?_ h
    have hchanged : ∀ {f g n x m}, TickKept b ((((c.modPcs p f).modTrk p g).put (F.TRK_STATUS_LANES p) n).when x fun c =>
        c.put (laneState p 1) m) :=
      (h.modPcs.modTrk.put hlane.1).when fun h => h.put hlane.2
    dsimp only
    split
    · exact hchanged.laneJoined
    · exact hchanged

theorem pcsCodeword {p : Port} {l : LaneId} (h : TickKept b c) : TickKept b (c.pcsCodeword p l) := by
  fun_cases Chip.pcsCodeword
  · exact h
  · exact h.emit.modLane

theorem blockOut {p : Port} {x : Block} (h : TickKept b c) : TickKept b (c.blockOut p x) := by
  unfold Chip.blockOut
  exact .laneChangeDue (.pcsCodeword (.modPcs (.modLane h.emit)))

theorem sendTick {p : Port} (h : TickKept b c) : TickKept b (c.sendTick p) := by
  have hsent : ∀ {c : Chip} {x : Block}, TickKept b c → TickKept b (c.pcsSendFirst p x) := fun h => .ite h (.ite h.modPcs h.blockOut)
  unfold Chip.sendTick
  exact .ite h (hsent (h.draw (n := 65536)))

/-! The field gateway (10 R316 to R326). -/

theorem setSig {i : Nat} {x : SigState} (h : TickKept b c) : TickKept b (c.setSig i x) := h.modFld

theorem sendBatch {t : Nat} (h : TickKept b c) : TickKept b (c.sendBatch t) := by
  fun_cases Chip.sendBatch
  · exact h
  · exact h.modFld.modSwc

theorem publish {i frame subns : Nat} (h : TickKept b c) : TickKept b (c.publish i frame subns) := by
  unfold Chip.publish Chip.addRecord
  exact .when (.modFld (.inc h.setSig (by decide))) fun h => h.sendBatch

theorem updateIn {i raw frame subns : Nat} (h : TickKept b c) : TickKept b (c.updateIn i raw frame subns) := by
  unfold Chip.updateIn Chip.showQuality
  refine .when (.put (.setSig (.inc (.put h ?_) ?_)) ?_) fun h => h.publish
  all_goals exact besideFrame_add (by decide)

theorem canPend {n : Nat} (h : TickKept b c) : TickKept b (c.canPend n) := h.when fun h => h.modFld

theorem pollQueue {n : Nat} {due : Bool} (h : TickKept b c) : TickKept b (c.pollQueue n due) := by
  fun_cases Chip.pollQueue
  · exact h
  · exact h.when fun h => h.inc (by decide)
  · exact h.modFld

theorem fldTick {ain : Vector (BitVec 12) 4} (h : TickKept b c) : TickKept b (c.fldTick ain) := by
  have hframes : ∀ {c : Chip} {l : List Nat}, TickKept b c → TickKept b (c.each l fun n c =>
      if c.on (F.FLD_FRM0_VALID n) && c.on (F.FLD_FRM0_DIR n) && c.periodDue n (c.get (F.FLD_FRM0_PERIOD n)) then
        if c.fld.pending.contains n then c.inc F.FLD_CAN_TX_LATE else c.canPend n
      else c) := fun h => h.each fun h => .ite (.ite (h.inc (by decide)) h.canPend) h
  unfold Chip.fldTick
  refine .ite h (.each (hframes (.each (.each h fun h => .each h ?_) ?_)) ?_)
  · exact fun h => h.updateIn
  · exact fun h => h.when fun h => h.publish
  · exact fun h => h.when fun h => h.pollQueue

/-! The governor (06 R212 to R221). -/

theorem publishCap {n : Nat} (h : TickKept b c) : TickKept b (c.publishCap n) := by
  have hcap : ∀ p : Port, besideFrame (F.TRK_STATUS_CAP_BUDGET p) := by decide
  exact ((h.each fun h => h.put (hcap _)).flag (by decide)).frame rfl

theorem capRule {late : Bool} (h : TickKept b c) : TickKept b (c.capRule late) := by
  unfold Chip.capRule
  exact .ite h.publishCap (.ite h.publishCap h)

theorem dieSensors {die : Vector (Option Byte) 4} (h : TickKept b c) : TickKept b (c.dieSensors die) := by
  have hdie : ∀ k, besideFrame ⟨F.BUD_DIE.off, k, 8⟩ := fun k => show F.BUD_DIE.off ≠ F.FAB_FRAME.off by decide
  refine h.each fun h => ?_
  split
  · exact h.put (hdie _)
  · exact h.draw.put (hdie _)

variable {g : Hub}

theorem onChip {f : Chip → Chip} (h : TickKept b g.chip) (hf : ∀ {c}, TickKept b c → TickKept b (f c)) : TickKept b (g.onChip f).chip := hf h

theorem budgetShed {y : Chan} (h : TickKept b g.chip) : TickKept b (g.budgetShed y).chip := by
  unfold Hub.budgetShed Hub.when
  split
  · refine .inc (.flag (.putBit (.put (.put h ?_) ?_) (by decide)) (by decide)) (by decide)
    all_goals exact besideFrame_add (by decide)
  · exact h

theorem setLevel {n : Nat} (h : TickKept b g.chip) : TickKept b (g.setLevel n).chip := by
  unfold Hub.setLevel
  refine List.foldlRecOn chans _ (motive := fun g : Hub => TickKept b g.chip) ?_ fun _ h _ _ => h.budgetShed
  exact .capRule (.withBud (.when (.when (.put h (by decide)) fun h => h.flag (by decide)) fun h => h.flag (by decide)))

theorem levelRule {up down : Nat} (h : TickKept b g.chip) : TickKept b (g.levelRule up down).chip := by
  have hcount : ∀ {f : Chip → Nat} {n : Nat}, TickKept b ((g.onChip fun c => c.put F.BUD_STATUS_FALL_CNT (f c)).setLevel n).chip :=
    .setLevel (.put h (by decide))
  unfold Hub.levelRule
  dsimp only
  split
  · exact hcount
  · split
    · exact hcount
    · split
      all_goals exact hcount

theorem readGovernor (h : TickKept b c) : TickKept b c.readGovernor := h.withBud

theorem governorTick {r : FrameRecord} {die : Vector (Option Byte) 4} (h : TickKept b g.chip) : TickKept b (g.governorTick r die).chip := by
  unfold Hub.governorTick
  refine .withBud (.inc (.levelRule (.onChip (.onChip h fun h => h.readGovernor) fun h => .withBud (.when ?_ ?_))) (besideFrame_add (by decide)))
  · refine .put (.put (.put (.put (.put (.put (.put (.put (.dieSensors (.put (.put (.put h ?_) ?_) ?_)) ?_) ?_) ?_) ?_) ?_) ?_) ?_) ?_
    all_goals decide
  · exact fun h => (h.flag (by decide)).inc (by decide)

/-! The records of the frame just ended, and offers (06 R213; 11 R341). -/

theorem onHv {f : Hv → Hv} (h : TickKept b g.chip) : TickKept b (g.onHv f).chip := h

theorem pair {α : Type} {x : α} (h : TickKept b g.chip) : TickKept b (x, g).2.chip := h

theorem recordTemp {m : FetModel} (h : TickKept b g.chip) : TickKept b (g.recordTemp m).2.chip := by
  unfold Hub.recordTemp
  split
  exacts [h, h.draw (n := 256)]

theorem portRecord {p : Port} {x : FrameRecord × Hub} (h : TickKept b x.2.chip) : TickKept b (Hub.portRecord p x).2.chip := by
  obtain ⟨r, g⟩ := x
  unfold Hub.portRecord
  dsimp only
  split
  · exact pair h
  · exact pair (onHv (recordTemp h))

theorem chanRecord {y : Chan} {frame : Nat} {x : FrameRecord × Hub} (h : TickKept b x.2.chip) : TickKept b (Hub.chanRecord y frame x).2.chip := by
  obtain ⟨r, g⟩ := x
  unfold Hub.chanRecord
  dsimp only
  split
  · exact pair h
  · exact pair (onChip (onHv (recordTemp h)) fun h => h.withBud)

theorem frameRecords {frame : Nat} (h : TickKept b g.chip) : TickKept b (g.frameRecords frame).2.chip := by
  have hports : ∀ {l : List Port} {r : FrameRecord}, TickKept b (l.foldl (fun x p => Hub.portRecord p x) (r, g)).2.chip := fun {l r} =>
    List.foldlRecOn l (fun x p => Hub.portRecord p x) (motive := fun x => TickKept b x.2.chip) (pair h) fun _ h _ _ => h.portRecord
  have hchans : ∀ {l : List Chan} {x : FrameRecord × Hub}, TickKept b x.2.chip →
      TickKept b (l.foldl (fun x y => Hub.chanRecord y frame x) x).2.chip :=
    fun {l x} h => List.foldlRecOn l (fun x y => Hub.chanRecord y frame x) (motive := fun x => TickKept b x.2.chip) h fun _ h _ _ => h.chanRecord
  unfold Hub.frameRecords
  dsimp only
  split
  · exact pair h
  · exact pair (hchans hports)

theorem hubWhen {x : Bool} {f : Hub → Hub} (h : TickKept b g.chip) (hf : TickKept b (f g).chip) : TickKept b (g.when x f).chip := by
  cases x
  exacts [h, hf]

theorem offerSent {p : Port} {cls : Nat} {l : List Byte} (h : TickKept b c) : TickKept b (c.offerSent p cls l) := h.when fun h => h.modPwr

theorem requestWith {p : Port} {hdr : Word} {l : List Byte} {fw escalates : Bool} (h : TickKept b c) :
    TickKept b (c.requestWith p hdr l fw escalates) := .modTp (.modTp h)

theorem sendOffer {p : Port} (h : TickKept b g.chip) : TickKept b (g.sendOffer p).chip := by
  unfold Hub.sendOffer
  dsimp only
  exact .offerSent (.requestWith (.draw (n := 256) (.draw (n := 16) (.draw (n := 65536) (.draw (n := 4096) (.draw (n := 4096) h))))))

theorem makeOffers (h : TickKept b g.chip) : TickKept b g.makeOffers.chip := by
  unfold Hub.makeOffers Hub.each
  exact List.foldlRecOn ports _ (motive := fun g : Hub => TickKept b g.chip) h fun g h p _ => hubWhen h (hubWhen h h.sendOffer)

end TickKept

/-! The tick itself (04 R155, 06 R216). -/

/-- The counters that count time leave it. -/
theorem countTime_keeps (h : Hub) (n : Nat) : TickKept h.chip (h.when h.chip.running fun h => (h.countLevels n).countShown).chip := by
  have hlevels : TickKept h.chip (h.countLevels n).chip := by
    unfold Hub.countLevels
    split
    exacts [.refl, TickKept.refl.frame rfl]
  exact .hubWhen .refl (hlevels.frame rfl)

/-- As nanoseconds pass, the model's count goes on, and FRAME and SUBNS stay. -/
theorem passTime_passes (h : Hub) (n : Nat) : (h.passTime n).chip.regs.word F.FAB_FRAME.off = h.chip.regs.word F.FAB_FRAME.off ∧
    (h.passTime n).chip.now = h.chip.now + n := by
  have hcounted := countTime_keeps h (n / 8)
  exact ⟨hcounted.word, congrArg (· + n) hcounted.now⟩

theorem snapshotCounters_keeps (c : Chip) : TickKept c c.snapshotCounters := by
  have hshown : TickKept c (c.put F.CNT_SNAP_FRAME (c.get F.FAB_FRAME)) := TickKept.refl.put (by decide)
  fun_cases Chip.snapshotCounters
  · exact .refl
  · exact ⟨hshown.word, hshown.now, hshown.subns⟩

theorem gatesInitial_keeps (c : Chip) : TablesKept c c.gatesInitial := by
  unfold Chip.gatesInitial
  refine .ite .refl (TablesKept.refl.each fun h => .ite h ?_)
  exact TablesKept.showGate h.modSch

/-- The work of a tick leaves the time that it began with: FRAME one greater, SUBNS 0. -/
theorem frameTick_keeps (m : FrameMeas) (h : Hub) : TickKept (h.passTime (1_000_000 - h.chip.subns)).chip.nextFrame (h.frameTick m).chip := by
  obtain ⟨c, hc⟩ : ∃ c, c = (h.passTime (1_000_000 - h.chip.subns)).chip.nextFrame := ⟨_, rfl⟩
  obtain ⟨g, hg⟩ : ∃ g : Hub, g = (h.passTime (1_000_000 - h.chip.subns)).onChip fun c =>
    c.nextFrame.snapshotCounters.gatesInitial.takeovers := ⟨_, rfl⟩
  have hgates : TickKept c g.chip := by
    rw [hg, hc]
    exact (snapshotCounters_keeps _).tables (gatesInitial_keeps _).takeovers
  obtain ⟨x, hx⟩ : ∃ x, x = g.frameRecords (h.chip.get F.FAB_FRAME) := ⟨_, rfl⟩
  have hrecords : TickKept c x.2.chip := hx ▸ hgates.frameRecords
  have htick : h.frameTick m = (x.2.governorTick x.1 m.die).makeOffers.onChip fun c =>
      ((c.each ports fun p c => c.sendTick p).fldTick m.ain).repeatNotices.alarmTick := by
    rw [hx, hg]
    rfl
  rw [htick, ← hc]
  exact .onChip (.makeOffers (.governorTick hrecords)) fun h =>
    .alarmTick (.repeatNotices (.fldTick (.each h fun h => h.sendTick)))

end Sys2Proof.Machine
end

section
/-! The frame tick, the governor's timed steps and the time gates (04 R155; 06 R206 to R222): O20. -/

namespace Sys2Proof.Proofs

open Sys2Proof.Machine Sys2Proof.Safety

variable {s : State} {c d : Chip}

theorem frameTick_advances (m : FrameMeas) (hrun : s.hub.chip.running = true) :
    ∃ t, exec (.frameTick m) s = .next t ∧ t.pending = s.pending ∧
      t.hub.chip.get F.FAB_FRAME = (s.hub.chip.get F.FAB_FRAME + 1) % 2 ^ 32 ∧ t.hub.chip.subns = 0 ∧
      t.hub.chip.now = s.hub.chip.now + (1_000_000 - s.hub.chip.subns) := by
  have hkept := frameTick_keeps m s.hub
  obtain ⟨hword, hnow⟩ := passTime_passes s.hub (1_000_000 - s.hub.chip.subns)
  have hframe : (s.hub.frameTick m).chip.get F.FAB_FRAME = (s.hub.chip.get F.FAB_FRAME + 1) % 2 ^ 32 := by
    have hbefore : (s.hub.passTime (1_000_000 - s.hub.chip.subns)).chip.get F.FAB_FRAME = s.hub.chip.get F.FAB_FRAME :=
      congrArg (wordField · F.FAB_FRAME.lo F.FAB_FRAME.width) hword
    rw [← hbefore]
    exact (congrArg (wordField · F.FAB_FRAME.lo F.FAB_FRAME.width) hkept.word).trans (chip_get_put _ _ _ rfl)
  refine onHub_runs (f := fun h => h.when h.chip.running (Hub.frameTick m)) fun h hh => ?_
  have htick : h = s.hub.frameTick m := hh.trans (if_pos hrun)
  subst htick
  exact ⟨rfl, (get_afterHub (by decide)).trans hframe, (settled_subns _ _).trans hkept.subns, (settled_now _ _).trans (hkept.now.trans hnow)⟩

/-! The governor's steps (06 R214 to R222). -/

/-- The core as a level takes force, before the caps and sheds that follow from it. -/
def levelSet (n : Nat) (c : Chip) : Chip :=
  let d := ((c.put F.BUD_STATUS_LEVEL n).when (decide (c.get F.BUD_STATUS_LEVEL < n)) fun c => c.flag F.BUD_INT_STATUS_LEVEL_UP).when
    (decide (n < c.get F.BUD_STATUS_LEVEL)) fun c => c.flag F.BUD_INT_STATUS_LEVEL_DOWN
  { d with bud := { d.bud with row := d.bud.rows.toList.getD n 0#32 } }

/-- The field lies in another word than BUD_STATUS, and apart from LEVEL_DOWN. -/
abbrev besideLevel (f : Field) : Prop := f.off ≠ F.BUD_STATUS_LEVEL.off ∧ f.ok = true ∧ F.BUD_INT_STATUS_LEVEL_DOWN.apart f = true

/-- The level in force, its fall count and row, and its interrupt bit are as they were. -/
structure LevelKept (c d : Chip) : Prop where
  word : d.regs.word F.BUD_STATUS_LEVEL.off = c.regs.word F.BUD_STATUS_LEVEL.off
  down : d.get F.BUD_INT_STATUS_LEVEL_DOWN = c.get F.BUD_INT_STATUS_LEVEL_DOWN
  row : d.bud.row = c.bud.row

namespace LevelKept

variable {b : Chip} {g : Hub}

theorem refl : LevelKept c c := ⟨rfl, rfl, rfl⟩

theorem put {f : Field} {x : Nat} (h : LevelKept b c) (hf : besideLevel f) : LevelKept b (c.put f x) :=
  ⟨(word_put _ _ _ _ hf.1.symm).trans h.word, (chip_get_put_apart _ _ _ _ hf.2.1 hf.2.2).trans h.down, h.row⟩

theorem flag {f : Field} (h : LevelKept b c) (hf : besideLevel f) : LevelKept b (c.flag f) :=
  have hput := h.put (x := 1) hf
  ⟨hput.word, hput.down, hput.row⟩

theorem capRule {late : Bool} (h : LevelKept b c) : LevelKept b (c.capRule late) := by
  have hcap : ∀ p : Port, besideLevel (F.TRK_STATUS_CAP_BUDGET p) := by decide
  have hpublished : ∀ {n}, LevelKept b (c.publishCap n) := fun {n} => by
    have hports : LevelKept b (c.each ports fun p c => c.put (F.TRK_STATUS_CAP_BUDGET p) n) :=
      chip_each_keeps (LevelKept b) _ _ _ h fun p _ hd => hd.put (hcap p)
    have hflag := hports.flag (f := F.BUD_INT_STATUS_CAP_CHANGE) (by decide)
    exact ⟨hflag.word, hflag.down, hflag.row⟩
  unfold Chip.capRule
  dsimp only
  split
  · exact hpublished
  · split
    exacts [hpublished, h]

theorem budgetShed {y : Chan} (h : LevelKept b g.chip) : LevelKept b (g.budgetShed y).chip := by
  have hshed : ∀ y : Chan, besideLevel (F.BUD_SHED_P_SHED y) ∧ besideLevel (F.BUD_SHED_LEVEL y) ∧
      besideLevel ⟨F.BUD_SHED_STATUS_SHED.off, F.BUD_SHED_STATUS_SHED.lo + y.val, 1⟩ := by decide
  obtain ⟨hpower, hlevel, hbit⟩ := hshed y
  unfold Hub.budgetShed Hub.when
  split
  · have hrecorded : LevelKept b ((g.chip.put (F.BUD_SHED_P_SHED y) (meanPower g.chip.bud.chanPower[y])).put (F.BUD_SHED_LEVEL y)
        (g.chip.get F.BUD_STATUS_LEVEL)) := (h.put hpower).put hlevel
    exact ((hrecorded.put (x := 1) hbit).flag (f := F.BUD_INT_STATUS_SHED) (by decide)).put (f := F.BUD_SHED_COUNT) (by decide)
  · exact h

/-- Setting a level: what follows from it leaves the level, its row and its interrupt bit. -/
theorem setLevel (g : Hub) (n : Nat) : LevelKept (levelSet n g.chip) (g.setLevel n).chip := by
  have hset : g.setLevel n = (g.onChip fun c => (levelSet n c).capRule false).each chans Hub.budgetShed := rfl
  rw [hset]
  exact List.foldlRecOn chans _ (motive := fun h : Hub => LevelKept (levelSet n g.chip) h.chip) (LevelKept.capRule .refl)
    fun _ h _ _ => h.budgetShed

end LevelKept

/-- A lower level shows in the level in force, its row and LEVEL_DOWN; the fall count stays. -/
theorem levelSet_shows {n : Nat} (hbelow : n < c.get F.BUD_STATUS_LEVEL) : (levelSet n c).get F.BUD_STATUS_LEVEL = n ∧
    (levelSet n c).get F.BUD_STATUS_FALL_CNT = c.get F.BUD_STATUS_FALL_CNT ∧ (levelSet n c).get F.BUD_INT_STATUS_LEVEL_DOWN = 1 ∧
    (levelSet n c).bud.row = c.bud.rows.toList.getD n 0#32 := by
  have hlt : c.get F.BUD_STATUS_LEVEL < 8 := get_lt c F.BUD_STATUS_LEVEL
  have hset : levelSet n c = { (c.put F.BUD_STATUS_LEVEL n).flag F.BUD_INT_STATUS_LEVEL_DOWN with
      bud := { c.bud with row := c.bud.rows.toList.getD n 0#32 } } := by
    unfold levelSet
    rw [decide_eq_false (Nat.lt_asymm hbelow), decide_eq_true hbelow]
    rfl
  have hget : ∀ f, (levelSet n c).get f = ((c.put F.BUD_STATUS_LEVEL n).flag F.BUD_INT_STATUS_LEVEL_DOWN).get f := fun f => by rw [hset]; rfl
  refine ⟨?_, ?_, ?_, by rw [hset]⟩
  · rw [hget, chip_get_flag_apart _ _ _ rfl (by decide)]
    exact get_put_of_lt rfl (Nat.lt_trans hbelow hlt)
  · rw [hget, chip_get_flag_apart _ _ _ rfl (by decide)]
    exact chip_get_put_apart _ _ _ _ rfl (by decide)
  · rw [hget]
    exact get_flag_same rfl (by decide)

theorem budgetLevelFall_falls (hrun : s.hub.chip.running = true) (hfree : s.hub.chip.on F.BUD_CTL_FORCE_EN = false)
    (hlevel : 0 < s.hub.chip.get F.BUD_STATUS_LEVEL) (hfull : s.hub.chip.fallHold ≤ s.hub.chip.get F.BUD_STATUS_FALL_CNT) :
    ∃ t, exec .budgetLevelFall s = .next t ∧ t.pending = s.pending ∧
      t.hub.chip.get F.BUD_STATUS_LEVEL = s.hub.chip.get F.BUD_STATUS_LEVEL - 1 ∧ t.hub.chip.get F.BUD_STATUS_FALL_CNT = 0 ∧
      t.hub.chip.get F.BUD_INT_STATUS_LEVEL_DOWN = 1 ∧
      t.hub.chip.bud.row = s.hub.chip.bud.rows.toList.getD (s.hub.chip.get F.BUD_STATUS_LEVEL - 1) 0#32 := by
  obtain ⟨n, hn⟩ : ∃ n, n = s.hub.chip.get F.BUD_STATUS_LEVEL - 1 := ⟨_, rfl⟩
  obtain ⟨g, hg⟩ : ∃ g : Hub, g = s.hub.onChip fun c => c.put F.BUD_STATUS_FALL_CNT 0 := ⟨_, rfl⟩
  have hsame : g.chip.get F.BUD_STATUS_LEVEL = s.hub.chip.get F.BUD_STATUS_LEVEL := by
    rw [hg]
    exact chip_get_put_apart _ _ _ _ rfl (by decide)
  have hzero : g.chip.get F.BUD_STATUS_FALL_CNT = 0 := by
    rw [hg]
    exact get_put_of_lt rfl (by decide)
  obtain ⟨hshown, hcount, hdown, hrow⟩ := levelSet_shows (c := g.chip) (n := n) (by omega)
  have hkept := LevelKept.setLevel g n
  have hword : ∀ lo w, (g.setLevel n).chip.get ⟨F.BUD_STATUS_LEVEL.off, lo, w⟩ = (levelSet n g.chip).get ⟨F.BUD_STATUS_LEVEL.off, lo, w⟩ :=
    fun lo w => congrArg (wordField · lo w) hkept.word
  have hfalls : s.hub.levelFall = (g.setLevel n).onChip fun c => { c with bud := c.bud.countClear fun n => max n 1 } := by
    unfold Hub.levelFall
    rw [hn, hg]
    exact if_pos (by simp [hrun, hfree, hlevel, hfull])
  refine onHub_runs (f := Hub.levelFall) fun h hh => ?_
  have hpast : h = (g.setLevel n).onChip fun c => { c with bud := c.bud.countClear fun n => max n 1 } := hh.trans hfalls
  have hget : ∀ f, h.chip.get f = (g.setLevel n).chip.get f := fun f => hpast ▸ rfl
  refine ⟨rfl, ?_, ?_, ?_, ?_⟩
  · exact (get_afterHub (by decide)).trans ((hget _).trans ((hword _ _).trans (hshown.trans hn)))
  · exact (get_afterHub (by decide)).trans ((hget _).trans ((hword _ _).trans (hcount.trans hzero)))
  · exact (get_afterHub (by decide)).trans ((hget _).trans (hkept.down.trans hdown))
  · have hbud : h.chip.bud.row = (g.setLevel n).chip.bud.row := hpast ▸ rfl
    rw [← hn]
    refine (congrArg Bud.row (settled_bud _ _)).trans (hbud.trans (hkept.row.trans (hrow.trans ?_)))
    rw [hg]
    rfl

theorem capRaiseDelayExpiry_publishes (hrun : s.hub.chip.running = true)
    (hbelow : s.hub.chip.get (F.TRK_STATUS_CAP_BUDGET 0) < effectsCap s.hub.chip.bud.row) :
    ∃ t, exec .capRaiseDelayExpiry s = .next t ∧ coreOnly s t ∧
      (∀ p : Port, t.hub.chip.get (F.TRK_STATUS_CAP_BUDGET p) = effectsCap s.hub.chip.bud.row) ∧
      t.hub.chip.get F.BUD_INT_STATUS_CAP_CHANGE = 1 ∧ t.hub.chip.bud = { s.hub.chip.bud with capAt := s.hub.chip.now } ∧
      wordsKept [(F.TRK_STATUS 0).off, (F.TRK_STATUS 1).off, (F.TRK_STATUS 2).off, F.BUD_INT_STATUS.off] s t := by
  obtain ⟨n, hn⟩ : ∃ n, n = effectsCap s.hub.chip.bud.row := ⟨_, rfl⟩
  obtain ⟨c, hc⟩ : ∃ c, c = ((s.hub.chip.put (F.TRK_STATUS_CAP_BUDGET 0) n).put (F.TRK_STATUS_CAP_BUDGET 1) n).put
    (F.TRK_STATUS_CAP_BUDGET 2) n := ⟨_, rfl⟩
  have hlt : n < 2 ^ 3 := by
    rw [hn]
    unfold effectsCap
    dsimp only
    split <;> omega
  have hruns : s.hub.chip.when s.hub.chip.running (Chip.capRule true) =
      { c.flag F.BUD_INT_STATUS_CAP_CHANGE with bud := { c.bud with capAt := c.now } } := by
    rw [when_pos hrun, hc, hn]
    unfold Chip.capRule
    dsimp only
    rw [if_neg (Nat.lt_asymm hbelow), if_pos (by simp [hbelow])]
    rfl
  have hcaps : ∀ p : Port, c.get (F.TRK_STATUS_CAP_BUDGET p) = n := fun p => by
    rw [hc]
    match p with
    | 0 =>
      rw [chip_get_put_apart _ _ _ _ rfl (by decide), chip_get_put_apart _ _ _ _ rfl (by decide)]
      exact get_put_of_lt rfl hlt
    | 1 =>
      rw [chip_get_put_apart _ _ _ _ rfl (by decide)]
      exact get_put_of_lt rfl hlt
    | 2 => exact get_put_of_lt rfl hlt
  have hflag : ∀ f, Chip.get { c.flag F.BUD_INT_STATUS_CAP_CHANGE with bud := { c.bud with capAt := c.now } } f =
      (c.flag F.BUD_INT_STATUS_CAP_CHANGE).get f := fun f => rfl
  refine ⟨_, onChip_eq_after hruns, coreOnly_after _ _, fun p => ?_, ?_, ?_, wordsKept_after ?_⟩
  · rw [get_after _ _ (by revert p; decide), hflag, chip_get_flag_apart _ _ _ rfl (by revert p; decide), hcaps, hn]
  · rw [get_after _ _ (by decide), hflag]
    exact get_flag_same rfl (by decide)
  · refine (settled_bud _ _).trans ?_
    rw [hc]
    rfl
  · have hports : s.hub.chip.WordsKept [(F.TRK_STATUS 0).off, (F.TRK_STATUS 1).off, (F.TRK_STATUS 2).off, F.BUD_INT_STATUS.off] c :=
      hc ▸ .put (.put (.put .refl (by decide)) (by decide)) (by decide)
    exact hports.flag (f := F.BUD_INT_STATUS_CAP_CHANGE) (by decide)

theorem shedRestore_lets_go {y : Chan} (hrun : s.hub.chip.running = true) (hshed : s.hub.chip.bit F.BUD_SHED_STATUS_SHED y.val = true)
    (hfits : s.hub.chip.shedFits y = true) (hheld : s.hub.chip.get F.BUD_CFG_RESTORE_HOLD * 100 < s.hub.chip.bud.clearFor[y]) :
    ∃ t, exec (.shedRestore y) s = .next t ∧ t.pending = s.pending ∧
      t.hub.chip.get ⟨F.BUD_SHED_STATUS.off, y.val, 1⟩ = 0 ∧ t.hub.chip.get F.BUD_INT_STATUS_RESTORE = 1 ∧
      wordsKept [F.BUD_SHED_STATUS.off, F.BUD_INT_STATUS.off] s t := by
  obtain ⟨c, hc⟩ : ∃ c, c = (s.hub.chip.putBit F.BUD_SHED_STATUS_SHED y.val false).flag F.BUD_INT_STATUS_RESTORE := ⟨_, rfl⟩
  refine onHub_runs (f := Hub.shedRestore y) fun h hh => ?_
  have hruns : Hub.shedRestore y s.hub = (s.hub.onChip fun c => (c.putBit F.BUD_SHED_STATUS_SHED y.val false).flag F.BUD_INT_STATUS_RESTORE).onLiveHv
      (Hv.releaseHold (F.LDC_L_STATUS_HELD_BUDGET y) y) := by
    unfold Hub.shedRestore
    exact if_pos (by simp only [hrun, hshed, hfits, hheld, decide_true, Bool.and_self])
  have hchip : h.chip = c := by
    rw [hh, hruns, hc]
    unfold Hub.onLiveHv Hub.when
    split
    all_goals rfl
  have hy := y.isLt
  refine ⟨rfl, ?_, ?_, wordsKept_afterHub ?_⟩
  · have hplace : (⟨F.BUD_SHED_STATUS.off, y.val, 1⟩ : Field) = ⟨F.BUD_SHED_STATUS_SHED.off, F.BUD_SHED_STATUS_SHED.lo + y.val, 1⟩ := by
      simp [F.BUD_SHED_STATUS, F.BUD_SHED_STATUS_SHED]
    have happart : (⟨F.BUD_SHED_STATUS_SHED.off, F.BUD_SHED_STATUS_SHED.lo + y.val, 1⟩ : Field).apart F.CNT_OVF_PC = true :=
      apart_of_off (show F.BUD_SHED_STATUS_SHED.off ≠ F.CNT_OVF_PC.off by decide)
    have hflag : (⟨F.BUD_SHED_STATUS_SHED.off, F.BUD_SHED_STATUS_SHED.lo + y.val, 1⟩ : Field).apart F.BUD_INT_STATUS_RESTORE = true :=
      apart_of_off (show F.BUD_SHED_STATUS_SHED.off ≠ F.BUD_INT_STATUS_RESTORE.off by decide)
    rw [hplace, get_afterHub happart, hchip, hc, chip_get_flag_apart _ _ _ rfl hflag]
    refine get_put_of_lt (decide_eq_true ?_) (show (false).toNat < 2 ^ 1 by decide)
    simp only [F.BUD_SHED_STATUS_SHED]
    omega
  · rw [get_afterHub (by decide), hchip, hc]
    exact get_flag_same rfl (by decide)
  · rw [hchip, hc]
    exact .flag (.put .refl List.mem_cons_self) (List.mem_cons_of_mem _ List.mem_cons_self)

theorem rampFreezeEnd_ends {u n : Nat} (hrun : s.hub.chip.running = true) (hfrozen : s.hub.chip.bud.frozen = some (u, n))
    (hdue : s.hub.rampsSettled = true ∨ max 1 (s.hub.chip.get F.BUD_CFG_RAMP_FREEZE_MAX) ≤ n) :
    ∃ t, exec .rampFreezeEnd s = .next t ∧ coreOnly s t ∧ t.hub.chip.bud = { s.hub.chip.bud with frozen := none } ∧
      t.hub.chip.get F.BUD_STATUS_FROZEN = 0 ∧ wordsKept [F.BUD_STATUS.off] s t := by
  have hcond : (s.hub.chip.running && (s.hub.rampsSettled || decide (max 1 (s.hub.chip.get F.BUD_CFG_RAMP_FREEZE_MAX) ≤ n))) = true := by
    rw [hrun]
    rcases hdue with h | h
    all_goals simp [h]
  obtain ⟨d, hd⟩ : ∃ d : Chip, d = { s.hub.chip with bud := { s.hub.chip.bud with frozen := none } } := ⟨_, rfl⟩
  have hruns : s.hub.freezeEnd = s.hub.onChip fun c => ({ c with bud := { c.bud with frozen := none } }).put F.BUD_STATUS_FROZEN 0 := by
    unfold Hub.freezeEnd
    rw [hfrozen]
    exact if_pos hcond
  refine onHub_runs (f := Hub.freezeEnd) fun h hh => ?_
  have hchip : h.chip = d.put F.BUD_STATUS_FROZEN 0 := by rw [hh, hruns, hd]; rfl
  have hhv : h.hv = s.hub.hv := by rw [hh, hruns, hub_onChip_hv]
  refine ⟨coreOnly_afterHub hhv, ?_, ?_, wordsKept_afterHub ?_⟩
  · refine (settled_bud _ _).trans ?_
    rw [hchip, chip_put_bud, hd]
  · rw [get_afterHub (by decide), hchip]
    exact get_put_of_lt rfl (by decide)
  · have hregs : s.hub.chip.WordsKept [F.BUD_STATUS.off] d := fun _ _ => by rw [hd]
    rw [hchip]
    exact hregs.put (List.mem_singleton_self _)

/-! The time gates (06 R206, R208). -/

section
variable {e : DPort}

/-- The gate status of a port shows the entry in force and its mask. -/
theorem get_showGate {n : Nat} (hn : n < 256) : (c.showGate e n).get (F.SCH_P_GATE_STATUS_ENTRY e.val) = n ∧
    (c.showGate e n).get (F.SCH_P_GATE_STATUS_OPEN e.val) = (if c.gateEmpty e (c.gateBank e) then 0xFF else c.gateMask e (c.gateBank e) n) := by
  have hmask : (if c.gateEmpty e (c.gateBank e) then 0xFF else c.gateMask e (c.gateBank e) n) < 2 ^ 8 := by
    split
    · decide
    · exact get_lt c (F.SCH_GATE_OPEN e (c.gateBank e) n)
  constructor
  · refine (chip_get_put_apart _ (F.SCH_P_GATE_STATUS_OPEN e) (F.SCH_P_GATE_STATUS_ENTRY e) _ rfl (apart_of_bits (.inr (Nat.le_refl 8)))).trans ?_
    exact get_put_of_lt (f := F.SCH_P_GATE_STATUS_ENTRY e) rfl hn
  · exact get_put_of_lt (f := F.SCH_P_GATE_STATUS_OPEN e) rfl hmask

/-- Showing an entry leaves what lies apart from ENTRY and OPEN. -/
theorem get_showGate_apart {n : Nat} {f : Field} (hentry : f.apart (F.SCH_P_GATE_STATUS_ENTRY e.val) = true)
    (hopen : f.apart (F.SCH_P_GATE_STATUS_OPEN e.val) = true) : (c.showGate e n).get f = c.get f :=
  (chip_get_put_apart _ _ _ _ rfl hopen).trans (chip_get_put_apart _ _ _ _ rfl hentry)

theorem wordsKept_showGate {offs : List Nat} {n : Nat} (h : c.WordsKept offs d) (hmem : (F.SCH_P_GATE_STATUS e.val).off ∈ offs) :
    c.WordsKept offs (d.showGate e n) := .put (.put h hmem) hmem

/-- Registers of a port's gates read after a command as the command left them. -/
theorem get_after_gate (d : Chip) {f : Field} (h : f.off < 0x8_0000) : (s.after d).hub.chip.get f = d.get f :=
  get_after s d (apart_of_off (Nat.ne_of_lt (Nat.lt_trans h (by decide))))

theorem gateEntryAdvance_advances (hrun : (s.hub.chip.gateRun e.val).running = true)
    (hlist : s.hub.chip.gateEmpty e.val (s.hub.chip.gateBank e.val) = false) (hentry : s.hub.chip.get (F.SCH_P_GATE_STATUS_ENTRY e.val) < 255)
    (hnext : s.hub.chip.gateDur e.val (s.hub.chip.gateBank e.val) (s.hub.chip.get (F.SCH_P_GATE_STATUS_ENTRY e.val) + 1) ≠ 0) :
    ∃ t, exec (.gateEntryAdvance e) s = .next t ∧ coreOnly s t ∧
      t.hub.chip.get (F.SCH_P_GATE_STATUS_ENTRY e.val) = s.hub.chip.get (F.SCH_P_GATE_STATUS_ENTRY e.val) + 1 ∧
      t.hub.chip.get (F.SCH_P_GATE_STATUS_OPEN e.val) =
        s.hub.chip.gateMask e.val (s.hub.chip.gateBank e.val) (s.hub.chip.get (F.SCH_P_GATE_STATUS_ENTRY e.val) + 1) ∧
      wordsKept [(F.SCH_P_GATE_STATUS e.val).off] s t := by
  obtain ⟨n, hn⟩ : ∃ n, n = s.hub.chip.get (F.SCH_P_GATE_STATUS_ENTRY e.val) + 1 := ⟨_, rfl⟩
  obtain ⟨r, hruns⟩ : ∃ r, s.hub.chip.gateAdvance e.val = (s.hub.chip.setGateRun e r).showGate e n := by
    refine ⟨{ s.hub.chip.gateRun e with entryAt := ((s.hub.chip.gateRun e).entryAt
      + 8 * s.hub.chip.gateDur e (s.hub.chip.gateBank e) (s.hub.chip.get (F.SCH_P_GATE_STATUS_ENTRY e))) % timeSpan }, ?_⟩
    unfold Chip.gateAdvance
    rw [hn]
    exact if_neg (by simp [hrun, hlist, hnext, Nat.ne_of_lt hentry])
  obtain ⟨hshown, hopen⟩ := get_showGate (c := s.hub.chip.setGateRun e r) (e := e) (n := n) (by omega)
  have hoff : ∀ lo w, (⟨0x7011C + 0x40 * e.val, lo, w⟩ : Field).off < 0x8_0000 := fun _ _ => by
    have he := e.isLt
    dsimp only
    omega
  refine ⟨_, onChip_eq_after hruns, coreOnly_after _ _, ?_, ?_, wordsKept_after (wordsKept_showGate (fun _ _ => rfl) (List.mem_singleton_self _))⟩
  · exact (get_after_gate _ (hoff _ _)).trans (hshown.trans hn)
  · refine (get_after_gate _ (hoff _ _)).trans (hopen.trans ?_)
    rw [hn]
    exact if_neg (ne_true_of_eq_false hlist)

theorem gateCycleStart_starts (hrun : (s.hub.chip.gateRun e.val).running = true) :
    ∃ t, exec (.gateCycleStart e) s = .next t ∧ coreOnly s t ∧ t.hub.chip.get (F.SCH_P_GATE_STATUS_ENTRY e.val) = 0 ∧
      wordsKept [(F.SCH_P_GATE_STATUS e.val).off] s t := by
  obtain ⟨r, hruns⟩ : ∃ r, s.hub.chip.gateCycleStart e.val = (s.hub.chip.setGateRun e r).showGate e 0 := by
    obtain ⟨x, hx⟩ : ∃ x, x = ((s.hub.chip.gateRun e).cycleAt + s.hub.chip.gateCycle e (s.hub.chip.gateBank e)) % timeSpan := ⟨_, rfl⟩
    refine ⟨{ s.hub.chip.gateRun e with cycleAt := x, entryAt := x }, ?_⟩
    rw [hx]
    unfold Chip.gateCycleStart
    exact if_neg (by simp [hrun])
  obtain ⟨hshown, -⟩ := get_showGate (c := s.hub.chip.setGateRun e r) (e := e) (n := 0) (by omega)
  have hoff : (F.SCH_P_GATE_STATUS_ENTRY e.val).off < 0x8_0000 := by
    have he := e.isLt
    simp only [F.SCH_P_GATE_STATUS_ENTRY]
    omega
  exact ⟨_, onChip_eq_after hruns, coreOnly_after _ _, (get_after_gate _ hoff).trans hshown,
    wordsKept_after (wordsKept_showGate (fun _ _ => rfl) (List.mem_singleton_self _))⟩

theorem gateTakeover_takes (harmed : s.hub.chip.on (F.SCH_P_TAKE_CTL_ARMED e.val) = true) :
    ∃ t, exec (.gateTakeover e) s = .next t ∧ coreOnly s t ∧
      t.hub.chip.get (F.SCH_P_GATE_STATUS_BANK e.val) = 1 - s.hub.chip.get (F.SCH_P_GATE_STATUS_BANK e.val) ∧
      t.hub.chip.get (F.SCH_P_GATE_STATUS_ENTRY e.val) = 0 ∧ t.hub.chip.get (F.SCH_P_TAKE_CTL_ARMED e.val) = 0 ∧
      t.hub.chip.get (F.SCH_P_GATE_STATUS_TOOK e.val) = 1 ∧ t.hub.chip.get F.SCH_INT_STATUS_GATE_TAKEOVER = 1 ∧
      wordsKept [(F.SCH_P_GATE_STATUS e.val).off, (F.SCH_P_TAKE_CTL e.val).off, F.SCH_INT_STATUS.off] s t := by
  have he := e.isLt
  obtain ⟨c1, h1⟩ : ∃ c, c = s.hub.chip.put (F.SCH_P_GATE_STATUS_BANK e) (1 - s.hub.chip.get (F.SCH_P_GATE_STATUS_BANK e)) := ⟨_, rfl⟩
  obtain ⟨c2, h2⟩ : ∃ c, c = c1.showGate e 0 := ⟨_, rfl⟩
  obtain ⟨c3, h3⟩ : ∃ c, c = (c2.flag (F.SCH_P_GATE_STATUS_TOOK e)).put (F.SCH_P_TAKE_CTL_ARMED e) 0 := ⟨_, rfl⟩
  obtain ⟨r, hr⟩ : ∃ r : GateRun, r = { running := true, cycleAt := s.hub.chip.takeTime e, entryAt := s.hub.chip.takeTime e } := ⟨_, rfl⟩
  have hruns : s.hub.chip.takeover e = (c3.flag F.SCH_INT_STATUS_GATE_TAKEOVER).setGateRun e r := by
    rw [hr, h3, h2, h1]
    rfl
  have hgate : ∀ lo w, (⟨0x7011C + 0x40 * e.val, lo, w⟩ : Field).apart F.SCH_INT_STATUS_GATE_TAKEOVER = true ∧
      (⟨0x7011C + 0x40 * e.val, lo, w⟩ : Field).apart (F.SCH_P_TAKE_CTL_ARMED e) = true ∧
      (⟨0x7011C + 0x40 * e.val, lo, w⟩ : Field).off < 0x8_0000 :=
    fun lo w => by
      refine ⟨apart_of_off ?_, apart_of_off ?_, ?_⟩
      all_goals
        simp only [F.SCH_INT_STATUS_GATE_TAKEOVER, F.SCH_P_TAKE_CTL_ARMED]
        omega
  have hend : ∀ {g : Field}, g.off < 0x8_0000 → g.apart F.SCH_INT_STATUS_GATE_TAKEOVER = true →
      (s.after ((c3.flag F.SCH_INT_STATUS_GATE_TAKEOVER).setGateRun e r)).hub.chip.get g = c3.get g := fun hg ha =>
    (get_after_gate _ hg).trans (chip_get_flag_apart _ _ _ rfl ha)
  have hshown : ∀ lo w, (s.after ((c3.flag F.SCH_INT_STATUS_GATE_TAKEOVER).setGateRun e r)).hub.chip.get ⟨0x7011C + 0x40 * e.val, lo, w⟩ =
      (c2.flag (F.SCH_P_GATE_STATUS_TOOK e)).get ⟨0x7011C + 0x40 * e.val, lo, w⟩ := fun lo w =>
    (hend (hgate lo w).2.2 (hgate lo w).1).trans (h3 ▸ chip_get_put_apart _ _ _ _ rfl (hgate lo w).2.1)
  have harm : (F.SCH_P_TAKE_CTL_ARMED e).off < 0x8_0000 ∧ (F.SCH_P_TAKE_CTL_ARMED e).apart F.SCH_INT_STATUS_GATE_TAKEOVER = true := by
    refine ⟨?_, apart_of_off ?_⟩
    all_goals
      simp only [F.SCH_INT_STATUS_GATE_TAKEOVER, F.SCH_P_TAKE_CTL_ARMED]
      omega
  refine ⟨_, onChip_eq_after ((when_pos harmed).trans hruns), coreOnly_after _ _, ?_, ?_, ?_, ?_, ?_, wordsKept_after ?_⟩
  · refine (hshown 16 1).trans ((chip_get_flag_apart _ (F.SCH_P_GATE_STATUS_TOOK e) (F.SCH_P_GATE_STATUS_BANK e) rfl
      (apart_of_bits (.inl (Nat.le_refl 17)))).trans ?_)
    have hentry : (F.SCH_P_GATE_STATUS_BANK e.val).apart (F.SCH_P_GATE_STATUS_ENTRY e.val) = true := apart_of_bits (.inr (Nat.le_refl 16))
    have hopen : (F.SCH_P_GATE_STATUS_BANK e.val).apart (F.SCH_P_GATE_STATUS_OPEN e.val) = true := apart_of_bits (.inr (show 8 ≤ 16 by decide))
    rw [h2, get_showGate_apart hentry hopen, h1]
    exact get_put_of_lt (f := F.SCH_P_GATE_STATUS_BANK e) rfl (by simp only [F.SCH_P_GATE_STATUS_BANK]; omega)
  · refine (hshown 8 8).trans ((chip_get_flag_apart _ (F.SCH_P_GATE_STATUS_TOOK e) (F.SCH_P_GATE_STATUS_ENTRY e) rfl
      (apart_of_bits (.inl (show 16 ≤ 17 by decide)))).trans ?_)
    rw [h2]
    exact (get_showGate (by decide)).1
  · refine (hend harm.1 harm.2).trans ?_
    rw [h3]
    exact get_put_of_lt rfl Nat.two_pos
  · exact (hshown 17 1).trans (get_flag_same (f := F.SCH_P_GATE_STATUS_TOOK e) rfl Nat.one_lt_two)
  · exact (get_after_gate _ (by decide)).trans (get_flag_same rfl (by decide))
  · have hstatus : s.hub.chip.WordsKept [(F.SCH_P_GATE_STATUS e.val).off, (F.SCH_P_TAKE_CTL e.val).off, F.SCH_INT_STATUS.off] c2 := by
      rw [h2, h1]
      exact wordsKept_showGate (.put .refl List.mem_cons_self) List.mem_cons_self
    have htaken : s.hub.chip.WordsKept [(F.SCH_P_GATE_STATUS e.val).off, (F.SCH_P_TAKE_CTL e.val).off, F.SCH_INT_STATUS.off] c3 := by
      rw [h3]
      exact .put (.flag hstatus List.mem_cons_self) (List.mem_cons_of_mem _ List.mem_cons_self)
    exact htaken.flag (List.mem_cons_of_mem _ (List.mem_cons_of_mem _ List.mem_cons_self))

end

/-- Settles O20, clause by clause: a tick's work leaves the time that it begins with, and each timed step writes what its rule names. -/
theorem ticksGovernorAndGates : Obligations.TicksGovernorAndGates := by
  unfold Obligations.TicksGovernorAndGates
  exact ⟨fun _ m hrun _ => frameTick_advances m hrun, fun _ hrun hfree hlevel hfull => budgetLevelFall_falls hrun hfree hlevel hfull,
    fun _ hrun hbelow => capRaiseDelayExpiry_publishes hrun hbelow, fun _ _ hrun hshed hfits hheld => shedRestore_lets_go hrun hshed hfits hheld,
    fun _ _ _ hrun hfrozen hdue => rampFreezeEnd_ends hrun hfrozen hdue,
    fun _ _ hrun hlist hentry hnext => gateEntryAdvance_advances hrun hlist hentry hnext, fun _ _ hrun => gateCycleStart_starts hrun,
    fun _ _ harmed => gateTakeover_takes harmed⟩

end Sys2Proof.Proofs
end
